-- ==== Sys2Proof/Word.lean ====
section
/-! DEFINITION. The word types of the module, and the sorted tables that hold everything the module has many of.
A table lists entries at rising keys; what an unlisted key holds is the argument of each reader. -/
namespace Sys2Proof

/-- A register word (R38). -/
abbrev Word := BitVec 32
/-- A 64-bit scratchpad word, pair register or fabric token (R28, R40). -/
abbrev DWord := BitVec 64
/-- One byte. -/
abbrev Byte := BitVec 8
/-- A sparse table: (key, value) entries at rising keys. -/
abbrev Tbl (α : Type) := List (Nat × α)

end Sys2Proof
end

