-- ==== Sys2Proof/Machine/Operands.lean ====
section
/-! DEFINITION. The kinds of operand a command carries beyond plain numbers. -/
namespace Sys2Proof

/-- Who asks: a core (its sequencer or DMA engine), the host's physical function, a virtual function, the management port, the
debug port, hub firmware, the control core of a die, a causeway port or a fabric port (R574). -/
inductive Req where
  | core (c : Nat)
  | host
  | vf (n : Nat)
  | mgmt
  | debug
  | hub
  | die (d : Nat)
  | twin
  | fabric (p : Nat)
  deriving DecidableEq, Repr

/-- Authority class, in the bit order of WMASK (R49, R574). -/
def Req.cls : Req → Nat
  | .host => 0 | .vf _ => 1 | .mgmt => 2 | .twin => 3 | .fabric _ => 4 | .debug => 5 | .core _ => 6 | .hub => 6 | .die _ => 6

/-- What the checks of a result found (R112, R114, R166): nothing, a mismatch in a column or lane, or an accumulator parity error. -/
inductive Check where
  | ok
  | mismatch (col : Nat)
  | parity (col : Nat)
  deriving DecidableEq, Repr

/-- A fault in the array while a result is formed (R110, R111, R114): none; a product at a dense position of a column off by `delta` units of
its least significant bit; an adder tree's output off by `delta`; a residue sum that reads as `val`; the two copies of a doubled path
of a column differing; a bit of the stored accumulator value flipped; a bit of a token of the stored tile image flipped for good. -/
inductive ArrFault where
  | none
  | prod (col pos : Nat) (delta : Int)
  | sum (col half : Nat) (delta : Int)
  | resid (col half val : Nat)
  | copy (col : Nat)
  | acc (col bit : Nat)
  | weight (tok bit : Nat)
  deriving DecidableEq, Repr

/-- Registers read in ascending order: the offset of the first, and how many follow it (R38). -/
structure RegSpan where
  off : Nat
  more : Nat := 0
  deriving DecidableEq, Repr

/-- Whose turn it is (a virtual channel, a place in a queue, a port), and which packets have waited 64 cycles, by input or place (R299). -/
structure Turn where
  n : Nat
  aged : List Nat := []
  deriving DecidableEq, Repr

/-- What an end event gives a gauge: the value, the unit and sub-unit it is of, and whether its start fell before RUN (R616, R622). -/
structure Sample where
  v : Nat
  inst : Nat := 0
  sub : Nat := 0
  old : Bool := false
  deriving DecidableEq, Repr

/-- What the code of a stored word found (R205–R207), or how many of its bits have flipped. -/
inductive Ecc where
  | clean
  | corrected
  | uncorrectable
  | flips (n : Nat)
  deriving DecidableEq, Repr

/-- A core whose instruction reads a scratchpad word, and what the code finds in it (R205, R219). -/
structure CoreRead where
  core : Nat
  ecc : Ecc := .clean
  deriving DecidableEq, Repr

/-- A wait edge of R154: kind, unit, port, queue slot of the waiting party; for kinds 2 and 3 the EN of the core it waits on. -/
structure Edge where
  kind : Nat
  unit : Nat
  port : Nat
  queue : Nat
  en : Nat := 0
  deriving DecidableEq, Repr

/-- A gridlock probe (R155): origin, probe ID, the origin's window in µs, launch time, the hops so far. -/
structure Probe where
  device : Nat
  origin : Nat
  id : Nat
  window : Nat
  launch : Nat
  hops : List DWord
  deriving DecidableEq, Repr

/-- A request before the scratchpad crossbar in one cycle (R195): requester code of R225, 15 being the scrubber, cycles it has
waited, word address, the bytes written (0 for a read), their data and poison, what the code finds in the stored word. -/
structure XReq where
  who : Nat
  waited : Nat
  word : Nat
  bytes : Nat
  data : DWord
  poison : Bool
  ecc : Ecc
  deriving DecidableEq, Repr

/-- Where the response to a contributor of a merged packet goes (R277; log entry 129). -/
structure Contrib where
  sdev : Nat
  sdie : Nat
  sunit : Nat
  sen : Nat
  sidx : Nat
  ctag : Nat
  att : Nat
  deriving DecidableEq, Repr

/-- A carriageway packet: the fields of R294 and R295, those a type does not have being 0; `cls` is its class on a link (R371). A
routed control packet has CTYPE in `code` and NFLIT in `rlen` (R369); a twin packet TTYPE in `code`, words 2 and 3 in `tw` and its payload's bytes in
`rlen` (R408). `data` holds the payload in 64-bit words. The model's own: `look`, a
response whose place its source interface looks up by EN (R273); `jfmt`, the format of the junction that an OPENRSP answers for (log entry 164);
`also`, contributors merged into the packet beside its sender (R277);
`missed`, that its lookup at the signposts missed (R327);
`via`, the die-switch input it stands in, or the router input that a packet held for merging came by (R277, R297);
`crossed`, that a port die has sent it to the other (R389). -/
structure Pkt where
  type : Nat := 0
  vc : Nat := 0
  sepoch : Nat := 0
  xepoch : Nat := 0
  ddev : Nat := 0
  ddie : Nat := 0
  dunit : Nat := 0
  sdev : Nat := 0
  sdie : Nat := 0
  sunit : Nat := 0
  poison : Bool := false
  fmt : Nat := 0
  merge : Bool := false
  merged : Bool := false
  cblk : Nat := 0
  exit : Nat := 0
  den : Nat := 0
  sen : Nat := 0
  ctag : Nat := 0
  auth : Nat := 0
  handle : Nat := 0
  rgen : Nat := 0
  seq : Nat := 0
  att : Nat := 0
  part : Nat := 0
  npart : Nat := 0
  len : Nat := 0
  sidx : Nat := 0
  cmask : Nat := 0
  code : Nat := 0
  conv : Bool := false
  cvid : Nat := 0
  slot : Nat := 0
  cidx : Nat := 0
  kind : Nat := 0
  maxlen : Nat := 0
  mode : Nat := 0
  addr : Nat := 0
  rlen : Nat := 0
  rid : Nat := 0
  cls : Nat := 0
  look : Bool := false
  jfmt : Nat := 0
  missed : Bool := false
  also : List Contrib := []
  via : Nat := 0
  crossed : Bool := false
  tw : List DWord := []
  data : List DWord := []
  deriving DecidableEq, Repr

/-- A codeword on a lane (R362, R364): its 2,720 PAM4 levels in the order sent; and by position what goes with a packet that begins there beside its
header: its class in bit 0, the format an OPENRSP tells in bits 2:1 (log entries 164 and 172). -/
structure Codeword where
  line : List Nat := []
  side : List Nat := []
  deriving DecidableEq, Repr

/-- A block of 32 B on a link (R367): its four words, whether it begins a packet or a link block, and what goes beside the header it holds. -/
structure LineBlk where
  w : List DWord := []
  head : Bool := false
  side : Nat := 0
  deriving DecidableEq, Repr

/-- A lane of a port (R384). -/
structure PortLane where
  port : Nat
  plane : Nat
  deriving DecidableEq, Repr

/-- The partner's answer to an operation of a pair (R409): it agrees, it refuses, or its group 61 is pinned. -/
inductive PeerAns where
  | agrees
  | refuses
  | pinned
  deriving DecidableEq, Repr

/-- A position an itinerary places: core, EN, address of its core image in memory, digest rank, the core image's registers as page (0 CORE, 1 FLOW, 2 SPAD, 3 QENG, 4 ROUT), offset and word
(R482, R590). -/
structure Place where
  core : Nat
  en : Nat
  img : Nat := 0
  rank : Nat := 0
  regs : List (Nat × Nat × Word) := []
  deriving DecidableEq, Repr

/-- What an itinerary states of its optimiser (R80): the FP32 values from which hub firmware computes a step's constants. -/
structure Optim where
  b1 : Word := 0
  b2 : Word := 0
  lr : Word := 0
  wd : Word := 0
  eps : Word := 0
  gscale : Word := 0
  deriving DecidableEq, Repr

/-- An itinerary image as hub firmware reads it (R590; the image's layout is Vohar's): malformed; element counts of the tensors it declares (R82); endpoints and
message bytes of each convoy (R280); its optimiser (R80); whether it is compiled for paired mode (R446); whether it asks for convoys; whether it
names another module's units or places data in a hashed group; job ID; modules of the job, in HOT those of the module's own replica, and those of the other (R413); positions; grants as entry index and MODE; memory contents;
the carrying plan of R430, with where it moves the module's own positions and the partner's context tag. -/
structure Itin where
  bad : Bool := false
  paired : Bool := false
  convoys : Bool := false
  other : Bool := false
  hashed : Bool := false
  job : Nat := 0
  mods : List Nat := []
  rep : List Nat := []
  place : List Place := []
  grants : List (Nat × Nat) := []
  data : List (Nat × List DWord) := []
  carry : List Place := []
  own : List Place := []
  ptag : Nat := 0
  tensors : List Nat := []
  cvs : List (Nat × Nat) := []
  opt : Option Optim := none
  deriving DecidableEq, Repr

/-- An image in boot flash (R602): magic and kind right with hash and signature that verify, release, sequence number, SVN, key index. -/
structure Image where
  ok : Bool := true
  release : Nat := 3
  seq : Nat := 0
  svn : Nat := 0
  key : Nat := 0
  deriving DecidableEq, Repr

end Sys2Proof
end

