-- ==== Sys2Proof/Syntax.lean ====
section
/-! DEFINITION. The commands the module takes: one constructor per row of the opcode table, with what the row acts on. An event
that the module meets by itself (a token lands, a timer expires) is a command like one from outside. -/
namespace Sys2Proof

/-- The commands and events of the module. -/
inductive Instr where
  /-- A 32-bit write to a register that has no row of its own: it is checked against WMASK and the page's restrictions, then applied or dropped. (R653). -/
  | registerWrite (req : Req) (page : Nat) (off : Nat) (val : List Word) (be : Nat)
  /-- A read of the low half of a 64-bit pair returns the committed value and latches the high half for the same requester. (R40). -/
  | pairLowRead (req : Req) (page : Nat) (off : RegSpan)
  /-- A write to INT_RAW sets raw event bits for test. (R52). -/
  | intRawSet (req : Req) (page : Nat) (val : Word)
  /-- Each 1 written to INT_STAT clears that bit in INT_STAT and in INT_RAW. (R52). -/
  | intStatClear (req : Req) (page : Nat) (val : Word)
  /-- A write to INT_EN_SET sets interrupt enable bits. (R52). -/
  | intEnableSet (req : Req) (page : Nat) (val : Word)
  /-- A write to INT_EN_CLR clears interrupt enable bits. (R52). -/
  | intEnableClear (req : Req) (page : Nat) (val : Word)
  /-- Writing 1 to ERR_CLR clears the first-error capture registers. (R53). -/
  | errClr (req : Req) (page : Nat) (val : Word)
  /-- Writing 1 to PG_LOCK.LOCK makes every RWL field of the page read-only until a reset that clears class D. (R54). -/
  | pgLockSet (req : Req) (page : Nat) (val : Word)
  /-- A pass descriptor taken from port PD starts a pass, after waiting for a FULL shadow when SWAP is set. (R100). -/
  | arrayPassStart (core : Nat)
  /-- A sequence enters the array once its activation, scale and initial-value tokens and room on O are present. (R93). -/
  | arraySequenceEntry (core : Nat)
  /-- L cycles after entry, a sequence's checked result is added into its accumulator entry or emitted on O. (R112). -/
  | arrayResult (core : Nat) (flt : ArrFault)
  /-- A 256 B token of a tile image taken from port W is written into the shadow tile. (R105). -/
  | wTokenLoad (core : Nat)
  /-- After at least 64 cycles, the last token of an image has been written and the shadow becomes FULL. (R105). -/
  | tileImageFull (core : Nat)
  /-- Writing INJECT in ARR_CTL corrupts one residue in the next pass, so that a mismatch and a replay follow. (R120). -/
  | arrInject (core : Nat) (req : Req) (val : Word)
  /-- A write to ARR_CFG0 or ARR_CFG1 sets the array word of an inactive buffer and clears its VALID; a write to the active buffer is refused. (R119). -/
  | arrCfgWrite (core : Nat) (req : Req) (buf : Nat) (val : Word)
  /-- A token reaches its consumer's queue 2 cycles after emission. (R133). -/
  | tokenLanding (core : Nat) (link : Nat)
  /-- A credit reaches the producer's counter 2 cycles after its consumer pops the token. (R133). -/
  | creditReturn (core : Nat) (link : Nat)
  /-- A spill queue moves at most one token in and one token out through its staging buffers and scratchpad ring. (R139). -/
  | spillQueueFiring (core : Nat) (mu : Nat) (ecc : Ecc)
  /-- A write of GO starts loading a 4 KiB configuration image from scratchpad into the inactive buffer. (R143). -/
  | flowImgGo (core : Nat) (req : Req) (val : Word)
  /-- An image load ends, leaving the buffer loaded, or marked invalid when the image read was poisoned or refused. (R143). -/
  | imageLoadComplete (core : Nat)
  /-- A write through the configuration window sets one word of a buffer and clears that buffer's VALID. (R143). -/
  | flowWinDataWrite (core : Nat) (req : Req) (val : Word)
  /-- A write to FLOW_CFG_CHECK starts validation of a buffer. (R145). -/
  | flowCfgCheck (core : Nat) (req : Req) (val : Word)
  /-- After 64 cycles validation sets VALID, or records its failure in FAIL_AT. (R145). -/
  | validationComplete (core : Nat)
  /-- CFGSW QUIESCE stalls the sequencer and holds QX ports until the old configuration has come to rest. (R147). -/
  | cfgswQuiesce (core : Nat)
  /-- At the first cycle of rest, the active buffer and epoch change, the links are reset and CFGSW completes with OK. (R147). -/
  | quiesceSwitch (core : Nat)
  /-- When no cycle of rest has come after FLOW_QTIMEOUT cycles, CFGSW completes with TIMEOUT and the old configuration stays active. (R148). -/
  | quiesceTimeout (core : Nat)
  /-- CFGSW PURGE discards every token and credit of the old configuration and activates the new one within 4 cycles. (R149). -/
  | cfgswPurge (core : Nat)
  /-- A write to FLOW_LINK_SEL latches a snapshot of one link's queued tokens, credits and in-flight counts. (R153). -/
  | flowLinkSelWrite (core : Nat) (req : Req) (val : Word)
  /-- A read of FLOW_LINK_PEAK returns the largest QUEUED of the selected link since the last read, and clears it. (R153). -/
  | flowLinkPeakRead (core : Nat) (req : Req)
  /-- An edge blocked for the gridlock window makes the core's footpath node launch a probe along it. (R155). -/
  | probeLaunch (core : Nat) (edge : Edge) (since : Nat)
  /-- A node receiving a probe forwards it along edges blocked for at least the carried window, or drops it. (R155). -/
  | probeReceive (core : Nat) (probe : Probe) (edges : List (Edge × Nat))
  /-- Writing 1 to FOUND clears FOUND, MORE and the captured path. (R157). -/
  | flowGridStatClear (core : Nat) (req : Req) (val : Word)
  /-- A compute unit whose inputs and credits are present fires its configured stage operations. (R161). -/
  | cuFiring (core : Nat) (cu : Nat)
  /-- u cycles after firing, a compute unit emits its outputs once they have passed their checks. (R166). -/
  | cuEmission (core : Nat) (cu : Nat) (stage : Nat) (chk : Check)
  /-- An update engine fires once per group of 64 elements and applies the AdamW update and the working-weight rounding. (R167). -/
  | updateEngineFiring (core : Nat) (cu : Nat)
  /-- A memory unit starts a walk on a CI token, at activation, at the end of a walk, or on a gather or scatter index token. (R174). -/
  | muWalkStart (core : Nat) (mu : Nat)
  /-- A memory unit issues one scratchpad access of its walk. (R172). -/
  | muAccess (core : Nat) (mu : Nat) (ecc : Ecc) (bad : Nat)
  /-- A READ access emits its token 4 cycles after the unit fires. (R177). -/
  | muReadEmit (core : Nat) (mu : Nat)
  /-- The sequencer issues one RV32IMC or Zicsr instruction. (R179). -/
  | seqInstruction (core : Nat) (ecc : Ecc)
  /-- A sequencer load or store to its scratchpad waits on pending write ranges and holds, then completes or traps. (R180). -/
  | seqScratchpadAccess (core : Nat) (ecc : Ecc)
  /-- QPOP pops one word from a queue, waiting while the queue is empty. (R183). -/
  | qpop (core : Nat)
  /-- A waiting QPOP completes when a message is committed to its queue. (R183). -/
  | qpopReturn (core : Nat)
  /-- A QPOP that waited CORE_QWAIT completes with TIMEOUT. (R183). -/
  | qpopTimeout (core : Nat)
  /-- QSEL selects a non-empty queue of its mask, or naps the core until one commits. (R183). -/
  | qsel (core : Nat)
  /-- A waiting QSEL wakes on a commit to its mask and returns the selected slot. (R183). -/
  | qselSelect (core : Nat)
  /-- A waiting QSEL whose timeout expires completes with TIMEOUT. (R183). -/
  | qselTimeout (core : Nat)
  /-- QSEND enters a message in the queue engine's send queue, or fails at once on a channel that is not OPEN. (R236). -/
  | qsend (core : Nat)
  /-- CHOPEN allocates a sender entry and sends an OPEN request to the receiver EN. (R232). -/
  | chopen (core : Nat)
  /-- CHCLOSE makes an OPEN entry CLOSING, or frees a BROKEN entry at once. (R234). -/
  | chclose (core : Nat)
  /-- DMAGO reads and checks a descriptor and gives it a place in the DMA engine. (R219). -/
  | dmago (src : CoreRead)
  /-- MILE n checks n against CORE_STEP_MILE and waits for every earlier send and descriptor to reach its final outcome. (R184). -/
  | mile (core : Nat)
  /-- When every outcome is final, MILE hands the step digest to the die controller, or completes with the first failing code. (R184). -/
  | mileComplete (core : Nat)
  /-- NAP stops the sequencer issuing, with a wake mask and a timer. (R186). -/
  | nap (core : Nat)
  /-- The core enters NAP in the first cycle in which no fabric unit can fire and nothing is in flight. (R186). -/
  | napEntry (core : Nat)
  /-- A wake cause in the mask ends NAP in 72 cycles. (R186). -/
  | napWake (core : Nat)
  /-- The NAP timer expires and raises wake cause 1. (R186). -/
  | napTimerExpiry (core : Nat)
  /-- A read of QPOPn_LO pops the head word without waiting, or returns 0 with NOT_READY. (R188). -/
  | windowQpop (core : Nat)
  /-- A store to SQO0 or SQO1 emits a scalar token into the fabric, waiting for a credit. (R188). -/
  | windowSqoWrite (core : Nat)
  /-- A store to SCO emits a control token, waiting for a credit. (R188). -/
  | windowScoWrite (core : Nat)
  /-- A load of SQI0 or SQI1 pops a scalar token, waiting for one. (R188). -/
  | windowSqiRead (core : Nat)
  /-- A load of SCI pops a control token, waiting for one. (R188). -/
  | windowSciRead (core : Nat)
  /-- A load of MBOX_IN returns the last word from the die controller and clears it. (R188). -/
  | windowMboxInRead (core : Nat)
  /-- A store to MBOX_OUT passes a word to the die controller and sets INT_RAW bit 14. (R188). -/
  | windowMboxOutWrite (core : Nat)
  /-- Setting RUN starts the sequencer fresh at CORE_SEQ_ENTRY or resumes it at CORE_SEQ_PC. (R187). -/
  | seqRun (core : Nat) (req : Req) (val : Word)
  /-- Writing RUN 0 halts the sequencer at its next instruction boundary. (R189). -/
  | seqHalt (core : Nat) (req : Req) (val : Word)
  /-- Writing STEP while halted executes one instruction. (R189). -/
  | seqStep (core : Nat) (req : Req) (val : Word)
  /-- A write to CORE_MBOX_IN delivers a word to MBOX_IN and sets wake cause 3. (R189). -/
  | coreMboxInWrite (core : Nat) (req : Req) (val : Word)
  /-- A read of CORE_MBOX_OUT returns the last word written to MBOX_OUT and clears it. (R189). -/
  | coreMboxOutRead (core : Nat) (req : Req)
  /-- The crossbar grants a scratchpad request a bank and word lanes by priority level, rotation and ageing. (R195). -/
  | crossbarGrant (core : Nat) (reqs : List XReq)
  /-- A live range is granted once no conflicting range ahead of it remains. (R199). -/
  | rangeGrant (core : Nat) (n : Nat)
  /-- A corrected word is written back as a level-6 request, unless another write to it came after the read. (R205). -/
  | correctionWriteback (core : Nat)
  /-- A write to SPAD_REGIONn sets a region's class, ordering, tracking, hold and home copy fields. (R224). -/
  | regionWrite (core : Nat) (req : Req) (n : Nat) (val : Word)
  /-- After 256 cycles the last row of the region is rewritten and RECODE clears. (R209). -/
  | recodeComplete (core : Nat) (bad : List Nat)
  /-- Every INTERVAL × 1,024 cycles the scrubber reads the next row of a class W region and corrects it. (R210). -/
  | scrubRowRead (core : Nat) (finds : List (Nat × Ecc))
  /-- A write to SPAD_BANK_PWRn sets bank power targets, which take effect at the next stable state. (R216). -/
  | bankTargetWrite (core : Nat) (req : Req) (n : Nat) (val : Word)
  /-- A CLOSING bank whose accepted writes are applied is gated in 16 cycles and enters OFF. (R214). -/
  | bankOffReached (core : Nat) (bank : Nat)
  /-- A SETTLING bank enters DROWSY 16 cycles after its pending count reaches zero. (R212). -/
  | bankDrowsyReached (core : Nat) (bank : Nat)
  /-- A WAKING bank becomes ON after 360 cycles. (R212). -/
  | bankWakeComplete (core : Nat) (bank : Nat)
  /-- A POWERING bank becomes ON after its ramp and zeroing. (R212). -/
  | bankPowered (core : Nat) (bank : Nat)
  /-- A read of SPAD_DIRTY_DATA returns the selected group's dirty bits and clears them. (R217). -/
  | dirtyDataRead (core : Nat) (req : Req)
  /-- Writing 1 to UNTRUSTED in SPAD_STATUS clears it. (R224). -/
  | untrustedClear (core : Nat) (req : Req) (val : Word)
  /-- A queued descriptor starts in queue order, when fewer than 4 run and any FENCE is met. (R218). -/
  | dmaDescriptorStart (core : Nat)
  /-- A memory request without a response within TICKS is reissued, and after the last retry the descriptor completes with TIMEOUT. (R221). -/
  | dmaRequestTimeout (core : Nat) (id : Nat) (addr : Nat)
  /-- A descriptor's last access completes, its ranges are released and its final outcome is set. (R222). -/
  | dmaDescriptorComplete (core : Nat) (id : Nat)
  /-- The completion word is committed to slot NQ once the slot has room. (R223). -/
  | dmaNotifyCommit (core : Nat) (id : Nat)
  /-- A completion word that has waited TICKS for room is discarded, and the descriptor completes with TIMEOUT. (R223). -/
  | dmaNotifyTimeout (core : Nat) (id : Nat)
  /-- A write that changes KIND, LOGSIZE, MAXLEN, ring or status word address empties and reconfigures a closed slot. (R228). -/
  | slotConfigWrite (core : Nat) (req : Req) (slot : Nat) (word : Nat) (val : Word)
  /-- Writing OPEN from 0 to 1 checks the slot and opens it, writing its status word. (R229). -/
  | slotOpen (core : Nat) (req : Req) (slot : Nat) (val : Word)
  /-- Writing OPEN from 1 to 0 puts every bound handle in HOLDOFF and sends a CLOSE notice to each sender. (R235). -/
  | slotClose (core : Nat) (req : Req) (slot : Nat) (val : Word)
  /-- A receiving queue engine checks an OPEN request and binds the lowest FREE handle, or refuses it. (R232). -/
  | openRequest (core : Nat) (pkt : Pkt)
  /-- An OPENRSP makes the sender entry OPEN and completes CHOPEN, or frees the entry with the refusal code. (R232). -/
  | openResponse (core : Nat) (pkt : Pkt)
  /-- A CHOPEN whose reply does not arrive is resent under the retry rules, and then completes with TIMEOUT. (R232). -/
  | chopenTimeout (core : Nat) (entry : Nat)
  /-- One operation timeout after it was freed, a HOLDOFF handle becomes FREE. (R233). -/
  | handleHoldoffExpiry (core : Nat) (hnd : Nat)
  /-- A CLOSE notice reaching a sender entry makes the channel BROKEN with CLOSED. (R235). -/
  | closeNotice (core : Nat) (en : Nat) (hnd : Nat) (cvid : Option Nat)
  /-- An acknowledgement of a CLOSE notice frees the CLOSING sender entry. (R234). -/
  | closeAck (core : Nat) (en : Nat) (hnd : Nat)
  /-- One operation timeout after its CLOSE notice was sent, a CLOSING entry becomes FREE. (R234). -/
  | closingEntryTimeout (core : Nat) (entry : Nat)
  /-- A message leaves the send queue, takes the channel's next sequence number and is sent as packets. (R236). -/
  | messageDeparture (core : Nat)
  /-- A receiving queue engine checks an arriving channel packet and applies it, or refuses it with a NACK. (R239). -/
  | messagePacket (core : Nat) (pkt : Pkt)
  /-- A reassembly buffer not complete within one operation timeout is freed without reply. (R241). -/
  | reassemblyTimeout (core : Nat) (hnd : Nat) (seq : Nat) (att : Nat)
  /-- An OK reply for the current sequence number gives the message its final outcome OK or POISON. (R249). -/
  | replyOk (core : Nat) (pkt : Pkt)
  /-- A NACK either schedules a resend after backoff or ends the message and breaks the channel. (R249). -/
  | nack (core : Nat) (pkt : Pkt)
  /-- After the backoff, the message and every later unacknowledged message of its channel are resent. (R249). -/
  | nackBackoffExpiry (core : Nat) (id : Nat)
  /-- An attempt window expires, and the message is resent with the next ATT or ends with its final outcome. (R249). -/
  | attemptWindowExpiry (core : Nat) (entry : Nat) (seq : Nat)
  /-- FLUSH ends every message without a final outcome with PURGED, frees every reassembly buffer and frees every sender entry. (R257). -/
  | qengFlush (core : Nat) (req : Req) (val : Word)
  /-- Setting SENDSTOP stops messages leaving the send queue, and clearing it lets them leave. (R257). -/
  | sendstopWrite (core : Nat) (req : Req) (val : Word)
  /-- A write to QENG_CH_SEL latches a snapshot of one sender entry. (R257). -/
  | qengChSelWrite (core : Nat) (req : Req) (val : Word)
  /-- A write to QENG_HD_SEL latches a snapshot of one handle. (R257). -/
  | qengHdSelWrite (core : Nat) (req : Req) (val : Word)
  /-- A write to QENG_Q_SEL latches a snapshot of one slot. (R257). -/
  | qengQSelWrite (core : Nat) (req : Req) (val : Word)
  /-- A QX port pops a committed message and emits it as fabric tokens. (R254). -/
  | qxPortEmit (core : Nat) (prt : Nat)
  /-- A QY port that has gathered a message's tokens sends its staging buffer on its channel. (R255). -/
  | qyPortSend (core : Nat) (prt : Nat)
  /-- A junction packet is checked and applied to its round's buffer, or refused or discarded as a duplicate. (R267). -/
  | junctionPacket (core : Nat) (pkt : Pkt)
  /-- In CANONICAL mode, a held part is added into the result once every lower contributor's part is added. (R270). -/
  | junctionAdd (core : Nat) (slot : Nat) (buf : Nat) (part : Nat)
  /-- A completed round with FWDEN is sent as a message on FWDCH once the send queue accepts it. (R274). -/
  | junctionForward (core : Nat) (slot : Nat)
  /-- A router adds a matching ARRIVAL junction packet into a held one and ORs their CMASKs. (R277). -/
  | routerMerge (core : Nat) (inp : Nat)
  /-- A router matching a convoy packet takes a combining slot, sends one copy per leg and delivers a local copy. (R283). -/
  | convoyPacket (core : Nat) (pkt : Pkt)
  /-- An answer lowers its combining slot's count, and at zero one combined answer goes to RET. (R284). -/
  | convoyAnswer (core : Nat) (pkt : Pkt)
  /-- A combining slot whose count has not reached zero in one operation timeout is freed with no answer. (R284). -/
  | combiningSlotTimeout (core : Nat) (cvid : Nat) (seq : Nat)
  /-- A QENG_CV_BIND commit in sender form makes a sender entry an OPEN convoy entry. (R288). -/
  | cvBindSender (core : Nat) (req : Req) (lo : Word) (hi : Word)
  /-- A QENG_CV_BIND commit in handle form binds a handle to an endpoint slot. (R288). -/
  | cvBindHandle (core : Nat) (req : Req) (lo : Word) (hi : Word)
  /-- An UNBIND in sender form releases a convoy entry as CHCLOSE does, with no notice. (R288). -/
  | cvUnbindSender (core : Nat) (req : Req) (lo : Word) (hi : Word)
  /-- An UNBIND in handle form puts the handle in HOLDOFF. (R288). -/
  | cvUnbindHandle (core : Nat) (req : Req) (lo : Word) (hi : Word)
  /-- A write to QENG_J_SEL latches a snapshot of one junction slot. (R287). -/
  | qengJSelWrite (core : Nat) (req : Req) (val : Word)
  /-- A router forwards a packet by dimension order or detour, or ejects it to its core. (R302). -/
  | routerForward (core : Nat) (inp : Nat) (vc : Turn) (hdr : Ecc) (body : Ecc)
  /-- A sender launches a packet on a virtual channel once it sees ON and the downstream buffer has room. (R298). -/
  | packetLaunch (core : Nat)
  /-- The die switch routes a packet to a bridge side, memory slice, router or endpoint by the die route tables. (R303). -/
  | dieSwitchRoute (die : Nat) (n : Turn) (hdr : Ecc) (body : Ecc) (rx : Ecc)
  /-- An RDREQ or WRREQ reaching a core's scratchpad is served as an external access, or refused with DENIED for AUTH 1 or 2. (R656). -/
  | scratchpadRemoteRequest (core : Nat) (pkt : Pkt)
  /-- A signpost cache miss holds the packet and sends a walk request to the die's walker. (R308). -/
  | signpostMiss (core : Nat)
  /-- The walker returns the entry read from memory, or an invalid entry, and the held packet proceeds or ends. (R308). -/
  | signpostWalkReply (die : Nat) (en : Nat) (ecc : Ecc)
  /-- A write to SIGN_INVAL sends an invalidation over the footpath to every source interface. (R310). -/
  | signpostInvalidate (die : Nat) (req : Req) (val : Word)
  /-- When every acknowledgement has arrived, INVALING clears. (R310). -/
  | invalidationComplete
  /-- A write to SIGN_FLIP sends a footpath flip to every source interface and clears the new bank's RETIRE bit. (R315). -/
  | epochFlip (die : Nat) (req : Req) (val : Word)
  /-- When every interface has acknowledged the flip, FLIPPING clears. (R315). -/
  | flipComplete
  /-- A write to SIGN_EPCTL retires a bank module-wide in every router, die switch, bridge interface and placement copy. (R315). -/
  | bankRetire (die : Nat) (req : Req) (val : Word)
  /-- A read of SIGN_EPSUMb gathers the die's epoch counters within 1 µs. (R324). -/
  | epsumRead (die : Nat) (req : Req) (bank : Nat)
  /-- When the old epoch's sum has not reached zero 2 ms after the flip, release 3 retires the old bank anyway. (R317). -/
  | epochDrainTimeout
  /-- Writing FLUSH in ROUT_CACHE_CTL empties the signpost cache. (R323). -/
  | signpostCacheFlush (core : Nat) (req : Req) (val : Word)
  /-- A write to ROUT_REP_DATA_HI commits one word of a replication entry in a retired bank. (R282). -/
  | replicationEntryCommit (core : Nat) (req : Req) (lo : Word) (hi : Word)
  /-- A write to ROUT_PORT_SEL latches the selected input's buffer state. (R323). -/
  | routPortSelWrite (core : Nat) (req : Req) (val : Word)
  /-- A footpath register write reaches its page and is applied under its authority class. (R321). -/
  | footpathRegwr (flit : Word) (req : Req) (page : Nat) (off : Nat) (val : Word)
  /-- A footpath register read reaches its page, which answers with REGRSP. (R321). -/
  | footpathRegrd (flit : Word) (req : Req) (page : Nat) (off : Nat)
  /-- A register read response returns data and status to the requester. (R321). -/
  | footpathRegrsp (flit : Word) (req : Req) (val : Word)
  /-- A page interrupt message reaches its target node. (R321). -/
  | footpathInt (flit : Word) (page : Nat)
  /-- A step start with its milestone number reaches a die controller and the context's cores. (R321). -/
  | stepMessage (flit : Word) (ctxid : Nat) (mile : Word)
  /-- A core's milestone number and digest reach its die controller. (R321). -/
  | digestMessage (flit : Word) (mile : Word) (digest : DWord)
  /-- A word reaches a core's mailbox or the die controller. (R321). -/
  | mboxMessage (flit : Word) (val : Word)
  /-- A source interface receives a signpost invalidation, removes matching entries and acknowledges. (R321). -/
  | invalMessage (flit : Word) (sel : Word)
  /-- A source interface receives a new injection epoch and acknowledges. (R321). -/
  | flipMessage (flit : Word) (epoch : Word)
  /-- An acknowledgement of an invalidation or flip reaches the sender. (R321). -/
  | footpathAck (flit : Word) (ofFlip : Bool)
  /-- A gather message collects epoch counters for SIGN_EPSUMb. (R321). -/
  | epsumGather (flit : Word) (bank : Nat)
  /-- A die hub switches to its alternate link when a footpath link fails. (R318). -/
  | footpathLinkFailover (die : Nat) (dest : Nat)
  /-- A memory slice checks an arriving RDREQ or WRREQ and accepts it into its queue or refuses it. (R336). -/
  | sliceRequest (g : Nat) (pkt : Pkt)
  /-- A slice serves an accepted read and answers with RDRSP. (R340). -/
  | sliceReadComplete (g : Nat) (i : Nat) (ecc : Ecc) (odecc : Bool)
  /-- A slice sends WRACK once the write is in its write buffer, and mirrored when MIRRORING. (R338). -/
  | sliceWriteAck (g : Nat) (i : Nat) (ecc : Ecc)
  /-- The patrol scrubber reads a block in an idle request slot and corrects it. (R343). -/
  | patrolScrub (g : Nat) (blk : Nat) (ecc : Ecc)
  /-- A slice issues a per-bank refresh at the interval its stack temperature requires. (R344). -/
  | perBankRefresh (g : Nat)
  /-- Every 1 ms the controller reads its stack's temperature through IEEE 1500. (R344). -/
  | stackTempRead (m : Nat) (temp : Nat)
  /-- A write of GO to MEMC_TRAIN starts quick or full training of a stack. (R348). -/
  | memoryTraining (m : Nat) (req : Req) (val : Word)
  /-- Training ends, failed channels are closed as slices, DONE is set and the controller enters SERVICE. (R349). -/
  | trainingComplete (m : Nat) (quick : Nat) (fail : Nat)
  /-- A granted window opens with an all-bank refresh and re-measures strobe and eye centres. (R350). -/
  | recentringWindow (m : Nat) (ch : Nat)
  /-- At the window's end the new settings are applied when they pass verify, and kept old otherwise. (R350). -/
  | recentringEnd (m : Nat) (pass : Bool)
  /-- A write to the placement registers is carried to all placement copies. (R334). -/
  | placementWrite (m : Nat) (req : Req) (n : Nat) (lo : Word) (hi : Word)
  /-- When every placement copy has acknowledged, PLACEBUSY clears. (R334). -/
  | placementAcked (m : Nat)
  /-- A write to MEMC_GRANT_DATA updates all 16 grant table copies over the footpath. (R337). -/
  | grantWrite (m : Nat) (req : Req) (val : Word)
  /-- When every grant copy has acknowledged, GRANTBUSY clears. (R337). -/
  | grantAcked (m : Nat)
  /-- Writing EVAC starts mirroring a slice and copying its bands to the stand-ins. (R355). -/
  | sliceEvacuate (m : Nat) (req : Req) (val : Word)
  /-- The background copy completes and the slice enters EVACUATED. (R355). -/
  | sliceEvacuated (g : Nat)
  /-- Writing CLOSE closes an evacuated slice and records it in CLOSURE_MAP. (R355). -/
  | sliceClose (m : Nat) (req : Req) (val : Word)
  /-- A lane receives an RS codeword and judges it good or bad, delivering its blocks. (R366). -/
  | codewordReceive (port : Nat) (lane : Nat) (cw : Codeword)
  /-- An IDENT block records the peer's device, port and kind. (R368). -/
  | identBlock (port : Nat) (dev : Nat) (peer : Nat) (kind : Nat)
  /-- A SPARE_READY block tells the transmitter that the receiver's spare lane is retrained. (R382). -/
  | spareReady (port : Nat) (plane : Nat)
  /-- A SWAP_REQ names a logical lane, a spare lane and the frame at which the swap takes effect. (R383). -/
  | swapReq (port : Nat) (lane : Nat) (plane : Nat) (frame : Word)
  /-- A HALF_REQ asks the peer to change the port to half width. (R384). -/
  | halfReq (port : PortLane)
  /-- A HALF_ACK completes the change to UP_HALF. (R384). -/
  | halfAck (port : Nat)
  /-- An EQ_ADJ block carries a transmitter equaliser request for one lane. (R382). -/
  | eqAdj (port : Nat) (plane : Nat) (w : DWord)
  /-- A routed control packet arriving at its destination module is delivered as its CTYPE gives. (R369). -/
  | routedControlPacket (port : Nat) (pkt : Pkt)
  /-- Setting ENABLE takes an OFF port that is not closed to WAITSIG. (R376). -/
  | portEnable (port : Nat) (req : Req) (val : Word)
  /-- Writing ENABLE 0 takes the port to OFF and routes its queued packets again. (R376). -/
  | portDisable (port : Nat) (req : Req) (val : Word)
  /-- Signal on at least 4 lanes for 1 ms takes a port from WAITSIG to TRAINING. (R376). -/
  | portSignalDetect (port : Nat) (lanes : Nat)
  /-- Training ends with a width decided, or with the port DOWN. (R378). -/
  | portTrainingDone (port : Nat) (rxm : Nat) (txm : Nat)
  /-- At the end of CHKWIN a port goes UP, or trains once more. (R379). -/
  | portCheckDone (port : Nat) (pass : Bool)
  /-- After 1 s in DOWN a port returns to WAITSIG. (R376). -/
  | portDownExpiry (port : Nat)
  /-- Writing RETRAIN takes the port to TRAINING. (R376). -/
  | portRetrain (port : Nat) (req : Req) (val : Word)
  /-- An active lane fails by loss of signal, loss of lock or errors, and is swapped or the width is reduced. (R381). -/
  | laneFailure (port : Nat) (plane : Nat) (los : Bool)
  /-- The receiver finishes retraining its spare lane and sends SPARE_READY. (R382). -/
  | spareRetrainDone (port : Nat)
  /-- At a granted step, the transmitter sends SWAP_REQ at least 64 frames ahead. (R382). -/
  | rotationStep (port : Nat)
  /-- At frame F a logical lane moves onto the spare lane and its old lane becomes the spare. (R383). -/
  | laneSwap (port : Nat) (tx : Bool)
  /-- At most once an hour release 3 retrains a port in UP_HALF by clearing and setting ENABLE. (R385). -/
  | halfWidthRetrain (port : Nat)
  /-- Loss of signal on every active lane for DOWNHOLD takes the port DOWN and out of the live masks. (R386). -/
  | portDown (port : Nat)
  /-- A port die routes a packet for another module to a live port of the first set that has one, or drops it. (R388). -/
  | deviceRoute (pd : Nat) (inp : Nat) (pkt : Pkt)
  /-- A write of XTAB_XCTL with GO flips the module's injection XEPOCH on both port dies. (R394). -/
  | xepochFlip (pd : Nat) (req : Req) (val : Word)
  /-- A write of RETIREb in XTAB_XCTL retires a device route table bank. (R394). -/
  | xepochRetire (pd : Nat) (req : Req) (val : Word) (bank : Nat)
  /-- A write to XTAB_EDATA3 commits a 128-bit device route entry to a retired bank. (R401). -/
  | routeEntryCommit (pd : Nat) (req : Req) (val : Word)
  /-- A memory request arriving through a CW port is passed to its slice only when bound and within the shadow window. (R406). -/
  | causewayMemoryRequest (w : Nat) (pkt : Pkt)
  /-- Every PERIOD µs each port die sends a HEARTBEAT on each live CW port. (R424). -/
  | heartbeatSend (pd : Nat)
  /-- A heartbeat brings the partner's pair state, liveness and milestones. (R408). -/
  | heartbeatReceive (w : Nat) (pstate : Nat) (alive : Bool) (held : Word)
  /-- A period ends with no live heartbeat, and after MISSES periods the partner is suspected. (R425). -/
  | heartbeatPeriodMissed (quiet : Nat)
  /-- No answer to the fabric query within QTO makes the module declare its partner LOST. (R425). -/
  | queryTimeout
  /-- A module receiving FENCE idles every transmitter and becomes SURRENDERED. (R426). -/
  | fence (w : Nat)
  /-- When no CW port comes UP within CWHOLD, release 3 detaches both modules. (R427). -/
  | cwholdExpiry
  /-- TWIN_BIND BIND binds two modules as a pair in INDEPENDENT mode. (R409). -/
  | twinBindBind (r : Nat) (side : Nat) (named : Nat) (agree : PeerAns)
  /-- TWIN_BIND ATTACH starts resynchronisation toward WARM or HOT mode. (R409). -/
  | twinBindAttach (r : Nat) (agree : Bool)
  /-- TWIN_BIND DETACH stops journal and digest exchange at the next milestone. (R409). -/
  | twinBindDetach (r : Nat) (agree : Bool)
  /-- TWIN_BIND UNBIND clears the binding, shadow window and journal maps. (R409). -/
  | twinBindUnbind (r : Nat) (agree : Bool)
  /-- A CTRL twin packet carries a pair operation or request to hub control core 0. (R409). -/
  | twinCtrl (w : Nat) (op : Nat) (arg : Word) (word : DWord)
  /-- After every core has executed MILE for M, hub firmware inserts a MARK, and every slice appends JMARK(M). (R416). -/
  | journalMark (mile : Word)
  /-- A JREC is written into its receive ring slot, or discarded as already held. (R417). -/
  | jrecReceive (w : Nat) (g : Nat) (sseq : Word) (copy : Bool) (poison : Bool) (addr : Nat) (data : List DWord)
  /-- A JMARK is written into its receive ring slot. (R418). -/
  | jmarkReceive (w : Nat) (g : Nat) (sseq : Word) (mile : Word)
  /-- At least every 1 µs the receiver sends JACK entries for unacknowledged streams. (R417). -/
  | jackSend
  /-- A JACK frees send-ring slots up to the acknowledged SSEQ. (R417). -/
  | jackReceive (w : Nat) (entries : List (Nat × Nat))
  /-- After JRETX with no acknowledgement, every unacknowledged record of the stream is resent. (R417). -/
  | journalResend (g : Nat)
  /-- Held records before a held JMARK are applied to the shadow in SSEQ order. (R419). -/
  | shadowApply (g : Nat)
  /-- A partner's DIGEST is compared with the module's own for the same milestone. (R422). -/
  | hotDigest (w : Nat) (mile : Word) (d : DWord)
  /-- The partner's per-core digests arrive for comparison after a mismatch. (R422). -/
  | pcdigReceive (w : Nat) (die : Nat) (part : Nat) (mile : Word) (ds : List DWord)
  /-- Hub control core 0 rewrites signpost entries from OLDDEV to NEWDEV, rebinds them and acknowledges. (R429). -/
  | signpostUpdate (pkt : Pkt)
  /-- A returning module whose partner reports CARRYING sets SURRENDERED and asks to rejoin. (R432). -/
  | rejoinRequest
  /-- Resynchronisation turns the journal on and copies every journalled block the partner lacks. (R433). -/
  | resync
  /-- A slice answers a resync read with a COPY JREC in its stream's order. (R433). -/
  | resyncRead (g : Nat) (addr : Nat) (n : Nat)
  /-- When both modules hold milestone N, the carrier rebinds the returner's partition and both become PAIRED. (R434). -/
  | handBack (mile : Word)
  /-- A write to CAUSE_JMAP_DATA is copied to all 16 memory controllers. (R415). -/
  | journalMapWrite (w : Nat) (req : Req) (val : Word)
  /-- Hub firmware writes CAUSE_HBCNT as proof of its liveness. (R424). -/
  | hbcntWrite (w : Nat) (req : Req) (val : Word)
  /-- A report from a unit reaches its die's HEAL page and takes one log entry. (R461). -/
  | healReport
  /-- A ladder window expires with COUNT below NCLK and closes with COUNT 0. (R455). -/
  | ladderWindowExpiry (core : Nat)
  /-- DECAY minutes without an event relax the ladder by one step. (R458). -/
  | ladderDecay (core : Nat)
  /-- CLEAR in HEAL_CCTL clears a core's count, window, offset, divider and RWPEND. (R464). -/
  | healClear (d : Nat) (req : Req) (val : Word)
  /-- FORCE in HEAL_CCTL sets a core's RWPEND and logs ACTION 4. (R456). -/
  | healForce (d : Nat) (req : Req) (val : Word)
  /-- A write to HEAL_CSEL latches HEAL_CSTAT for one core. (R464). -/
  | healCselWrite (d : Nat) (req : Req) (val : Word)
  /-- A read of HEAL_LOG3 removes the oldest log entry. (R464). -/
  | healLogRead (d : Nat) (req : Req)
  /-- A write to HEAL_PAIR_LO or HEAL_PAIR_HI enables or disables paired compute mode per cluster. (R446). -/
  | pairModeWrite (d : Nat) (req : Req) (hi : Bool) (val : Word)
  /-- The leader sends a held packet once the follower's CRC arrives and agrees. (R448). -/
  | pairCompare (core : Nat) (agree : Bool)
  /-- Firmware drains a HEAL log into the hub error log within 100 µs and answers the reports. (R463). -/
  | healLogDrain (d : Nat)
  /-- HEAL_CLOSE with GO applies a unit's closure at every page concerned within 1 µs. (R468). -/
  | unitClose (req : Req) (val : Word)
  /-- HEAL_CLOSE with WITHDRAW withdraws a field closure. (R469). -/
  | closureWithdraw (req : Req) (val : Word)
  /-- Release 3 saves the field closures to the older flash slot within 100 ms of a change. (R471). -/
  | closureMapSave (saved : Bool)
  /-- GO in HEAL_MV_CTL with MODE 0 starts moving a core's work to a lay-by. (R477). -/
  | moveStart (req : Req) (val : Word)
  /-- GO with MODE 1 rebuilds a core's work on a lay-by from its core image and home copies. (R482). -/
  | rebuildStart (req : Req) (val : Word)
  /-- ABORT ends a move in aborted with PURGED. (R481). -/
  | moveAbort (req : Req) (val : Word)
  /-- The arriving core is powered and reset, and its registers are copied. (R477). -/
  | movePrepared (k : Nat)
  /-- The background copy of all regions completes and tracking begins. (R477). -/
  | moveCopyDone (k : Nat)
  /-- A tracking pass copies the dirty rows, and the move becomes ready when few remain. (R477). -/
  | trackingPass (k : Nat)
  /-- At a cutover milestone the freeze writes new signpost entries and sends position notices. (R479). -/
  | cutoverFreeze (mile : Word)
  /-- When every table write is acknowledged, hub firmware writes SIGN_INVAL with ALL. (R479). -/
  | freezeTableAcked
  /-- With copy and invalidation done, ROUT_EN moves to the arriving core and its sequencer runs. (R479). -/
  | freezeCutover
  /-- When every position acknowledgement is in, hub firmware posts the next step. (R479). -/
  | freezeRelease
  /-- A core is isolated for its roadworks visit once a self-test slot is granted. (R483). -/
  | roadworksVisitStart (core : Nat)
  /-- One test of the visit completes, and the next begins or the test is run once more. (R484). -/
  | roadworksTestDone (core : Nat) (pass : Bool) (banks : DWord)
  /-- A 0.4 ms margin walk step runs clean and lowers the trim, or mismatches and sets the threshold. (R485). -/
  | marginWalkStep (core : Nat) (clean : Bool)
  /-- The visit ends in a pass or a closure, the core is powered OFF and a record is logged. (R486). -/
  | roadworksVisitEnd (core : Nat)
  /-- A self-test power slot is granted when power headroom and timing allow. (R487). -/
  | selfTestSlotGrant (core : Nat)
  /-- The calibration scheduler grants a lane rotation step, recentring window, margin walk or retraining. (R489). -/
  | calibrationGrant (kind : Nat) (unit : Nat)
  /-- A write to HEAL_MV_SEL selects a mover and latches its status. (R491). -/
  | healMvSelWrite (req : Req) (val : Word)
  /-- A read of HEAL_RWLOG3 removes the oldest roadworks record. (R491). -/
  | healRwlogRead (req : Req)
  /-- A read of HEAL_HLOG3 removes the oldest hub HEAL log entry. (R492). -/
  | healHlogRead (req : Req)
  /-- A core reset clears one core's units and pages while its router keeps forwarding. (R495). -/
  | coreReset (d : Nat) (req : Req) (val : Word)
  /-- A cluster reset clears a cluster with its PLL, regulator and four cores. (R495). -/
  | clusterReset (d : Nat) (req : Req) (val : Word)
  /-- A compute die reset clears the die, whose units are unreachable until it returns. (R495). -/
  | computeDieReset (d : Nat) (cause : Nat)
  /-- A port die reset clears one port die, and its peers detour. (R495). -/
  | portDieReset (pd : Nat) (cause : Nat)
  /-- A module reset clears every domain except the always-on domain and starts the module again. (R495). -/
  | moduleReset
  /-- A controller misses its watchdog period, and the controller is restarted or its die reset. (R497). -/
  | dieWatchdogExpiry (die : Nat) (n : Nat)
  /-- Hub firmware misses AON_HWDOG, and a module reset with cause 0x06 follows. (R497). -/
  | hubWatchdogExpiry
  /-- A write to DIE_WDOG_KICK restarts a controller's watchdog period. (R497). -/
  | dieWdogKick (die : Nat) (req : Req) (val : Word)
  /-- A write to AON_HWDOG_KICK restarts the hub watchdog period. (R497). -/
  | aonHwdogKick (req : Req) (val : Word)
  /-- Loss of a die's footpath hub for 1 ms resets the die. (R495). -/
  | footpathHubLoss (die : Nat)
  /-- PERST_N, hot reset or loss of the host link resets the HOST page and tears down host contexts. (R502). -/
  | hostLinkReset (kind : Nat)
  /-- A function-level reset tears down the contexts of that function and disables its rings. (R502). -/
  | functionLevelReset (fn : Nat)
  /-- DIE_CTXOP HALT halts the sequencers and fabric of a context's cores and purges their DMA. (R506). -/
  | ctxopHalt (d : Nat) (req : Req) (val : Word)
  /-- DIE_CTXOP CLOSE sends CLOSE notices for every sender entry and handle of the context. (R506). -/
  | ctxopClose (d : Nat) (req : Req) (val : Word)
  /-- DIE_CTXOP REGEN writes a new generation into the PG_GEN of the context's core pages. (R506). -/
  | ctxopRegen (d : Nat) (req : Req) (val : Word)
  /-- DIE_CTXOP CLEAR flushes queue engines, empties slots, purges the fabric and leaves sequencers fresh. (R506). -/
  | ctxopClear (d : Nat) (req : Req) (val : Word)
  /-- A context operation completes on every core and BUSY clears. (R506). -/
  | ctxopComplete (d : Nat)
  /-- CTX_TEARDOWN ends a context by halt, regeneration, close, grant and signpost removal, and clear. (R507). -/
  | ctxTeardown (r : Nat)
  /-- When the drain timer expires, the context ID becomes FREE and the completion record is written. (R507). -/
  | drainExpiry (id : Nat)
  /-- A LOST notice names a lost module and the milestone its carrier holds. (R511). -/
  | incidentLost (job : Word) (subj : Nat) (mile : Word)
  /-- A QUERY notice asks a partner for its state. (R511). -/
  | incidentQuery (dev : Nat)
  /-- A STATE notice answers a query with the partner's latest milestone. (R511). -/
  | incidentState (dev : Nat)
  /-- An ABORT notice for a failed step starts the job barrier. (R512). -/
  | incidentAbort (job : Word) (step : Word) (code : Nat)
  /-- An ABORTED notice reaches the coordinator, which sets L when every module has answered. (R513). -/
  | incidentAborted (dev : Nat) (job : Word) (mile : Word)
  /-- RESUME(L) restarts the context's cores at milestone L + 1. (R513). -/
  | incidentResume (job : Word) (mile : Word)
  /-- When every core of the context has napped, the module sends ARMED. (R513). -/
  | contextArmed (id : Nat)
  /-- An ARMED notice reaches the coordinator. (R513). -/
  | incidentArmed (dev : Nat) (job : Word) (mile : Word)
  /-- GO makes each module post the start of step L + 1. (R513). -/
  | incidentGo (dev : Nat) (job : Word) (mile : Word)
  /-- A POSITION notice makes a receiving module rewrite its entries for moved ENs and acknowledge. (R479). -/
  | incidentPosition (dev : Nat) (job : Word) (mile : Word) (moved : List (Nat × Nat × Nat))
  /-- An ACK notice acknowledges a GO or POSITION notice. (R511). -/
  | incidentAck (dev : Nat)
  /-- A notice whose answer has not come within 20 µs is sent again, up to 16 times. (R511). -/
  | noticeResend (i : Nat)
  /-- A missing ABORTED or ARMED after BARRIER ms makes the coordinator send LOST or ABORT. (R513). -/
  | barrierTimeout (id : Nat)
  /-- Firmware breaks a declared gridlock by aborting the jobs on its path or resetting a service core. (R518). -/
  | gridlockRecovery (core : Nat)
  /-- AON_RST_CTL with KIND 1 resets a compute die. (R522). -/
  | aonRstComputeDie (req : Req) (val : Word)
  /-- AON_RST_CTL with KIND 2 resets a port die. (R522). -/
  | aonRstPortDie (req : Req) (val : Word)
  /-- AON_RST_CTL with KIND 3 performs a module reset 10 µs after the write. (R522). -/
  | aonRstModule (req : Req) (val : Word)
  /-- Writing CLEAR zeroes the per-die reset causes. (R522). -/
  | aonRstClr (req : Req) (val : Word)
  /-- Step 1 judges the crystal, loads fuse shadows, restores CLOSURE_MAP and the set points. (R526). -/
  | alwaysOnStart
  /-- Step 2 soft-starts the converters and boots the hub image from boot flash. (R526). -/
  | hubBoot
  /-- Step 3 loads and checks the service image and boots the die controllers and port-die cores. (R528). -/
  | serviceImageLoad (copyOk : Bool) (bad : List Nat) (worse : List Nat)
  /-- Step 4 trains all stacks and, after power-on, writes every block zero. (R530). -/
  | memoryStart (valid : Nat) (fails : List (Nat × Nat × Nat))
  /-- A wave of up to six clusters of one die ramps its rails and locks its PLLs. (R531). -/
  | powerUpWave (d : Nat) (bad : Nat) (worse : Nat)
  /-- A batch of proving runs completes on one core of every cluster. (R532). -/
  | provingBatch (fails : List Nat)
  /-- In TK start a round of core tests completes on twelve cores per die. (R542). -/
  | tkCoreTestRound (fails : List Nat) (reqs : List (Nat × Nat))
  /-- Step 7 restores the fabric configuration, writes tables, flips epochs and enables the ports. (R533). -/
  | portStart (valid : Nat)
  /-- The 45 s soak ends and lanes that failed it are retrained or closed. (R541). -/
  | tkPortSoak (bad : List (Nat × Nat)) (worse : List (Nat × Nat))
  /-- Step 8 sets DONE and the grade, and hub firmware begins to accept commands. (R534). -/
  | startDone
  /-- A start step that reaches its limit is captured with TIMEOUT and handled as its row states. (R526). -/
  | startStepLimit
  /-- After DONE, release 3 saves training and fabric records to the older flash slot. (R539). -/
  | recordSave
  /-- A failed converter phase is disabled within 10 µs and PWR_LIMIT is lowered. (R547). -/
  | phaseFailure (die : Nat) (ph : Nat)
  /-- A cluster regulator fault stops the cluster's clocks and resets the cluster. (R549). -/
  | regulatorFault (k : Nat)
  /-- Every 10 µs the always-on domain samples the 12 V voltage and current. (R550). -/
  | powerSample (mv : Nat) (ma : Nat) (dies : List Nat)
  /-- At each 100 µs interval's end the limiter lowers, raises or holds the frequency F. (R551). -/
  | limiterInterval
  /-- Over-current engages the fast throttle, setting divider 1/2 within 100 ns. (R552). -/
  | fastThrottle (d : Nat)
  /-- After at least 50 µs and an interval below 95% of the trigger level, the throttle releases. (R552). -/
  | fastThrottleRelease (d : Nat) (ma : Nat)
  /-- A write to CLUS_CORE_PWR sets each core's power target. (R554). -/
  | coreTargetWrite (k : Nat) (req : Req) (val : Word)
  /-- A core with target REST enters REST when it next naps or halts. (R555). -/
  | restEntry (core : Nat)
  /-- A target of RUN or a step start wakes a REST core, which restarts at CORE_SEQ_RESUME. (R555). -/
  | restWake (core : Nat)
  /-- A write of HOLD in CLUS_CTL keeps the cluster rail at its set point and the PLL locked, or releases them. (R555). -/
  | holdWrite (k : Nat) (req : Req) (val : Word)
  /-- A die whose cores have all been in REST or OFF for IDLEDLY enters IDLE. (R559). -/
  | dieIdleEntry (d : Nat)
  /-- A wake request returns an IDLE die to ACTIVE within 0.5 µs. (R559). -/
  | dieIdleExit (d : Nat)
  /-- ENTER in PWR_STBY puts memory in self-refresh and turns everything else off. (R560). -/
  | standbyEntry (req : Req) (val : Word)
  /-- Eight good windows switch the always-on domain from the RC oscillator to the crystal. (R563). -/
  | crystalJudged (wins : List Nat)
  /-- A missing edge or bad window switches back to the RC oscillator and sets XTAL_FAIL. (R563). -/
  | crystalFail
  /-- A cluster's first wake request starts its PLL. (R564). -/
  | pllStart (k : Nat)
  /-- The PLL locks within 8 µs and the cluster's cores are ungated. (R564). -/
  | pllLock (k : Nat)
  /-- A PLL that loses its reference or lock coasts and sets CLK_LOST. (R565). -/
  | pllLoss (n : Nat) (relocked : Bool)
  /-- Loss of the SerDes reference idles every port transmitter of the die within 50 ns. (R565). -/
  | serdesRefLoss (pd : Nat)
  /-- A SerDes reference present for 1 ms lets release 3 clear the loss and retrain the ports. (R565). -/
  | serdesRefReturn (pd : Nat)
  /-- Loss of the host REFCLK takes the host link down. (R565). -/
  | hostRefclkLoss
  /-- Every 100 µs each temperature sensor is sampled. (R566). -/
  | tempSample (die : Nat) (temps : List Nat) (stackTemps : List Nat)
  /-- A die at 115 °C or a stack at 105 °C asserts THERMTRIP_N and turns off every phase. (R568). -/
  | thermalTrip
  /-- RELOCK in CLUS_CTL restarts the cluster PLL. (R569). -/
  | clusRelock (k : Nat) (req : Req) (val : Word)
  /-- RELOCK in CLK_CTL restarts the die PLL. (R570). -/
  | clkRelock (die : Nat) (req : Req) (val : Word)
  /-- CLRLOST clears CLK_LOST and SREF_LOST where their cause has gone. (R570). -/
  | clkClrlost (die : Nat) (req : Req) (val : Word)
  /-- A write to CLUS_VSET sets a cluster's set point, and the regulator settles to it. (R548). -/
  | setpointWrite (k : Nat) (req : Req) (val : Word)
  /-- A write to CLUS_FREQ sets a cluster's target frequency. (R569). -/
  | freqTargetWrite (k : Nat) (req : Req) (val : Word)
  /-- A write to PWR_LIMIT sets the power limit from the next interval's end. (R551). -/
  | pwrLimitWrite (req : Req) (val : Word)
  /-- A doorbell write sets a ring's TAIL and CHEAD, or puts the ring in ERROR. (R584). -/
  | doorbell (req : Req) (r : Nat) (val : Word)
  /-- Hub firmware fetches a command entry when the ring holds one and room for its completion. (R585). -/
  | commandFetch (r : Nat) (entry : Nat) (itin : Option Itin) (table : List (BitVec 128))
  /-- Setting EN from 0 to 1 zeroes a ring's counters and starts it. (R583). -/
  | ringEnable (req : Req) (vf : Option Nat) (val : Word)
  /-- Clearing EN stops a ring, refused while a fetched command lacks its record. (R583). -/
  | ringDisable (req : Req) (vf : Option Nat) (val : Word)
  /-- CTX_CREATE allocates a context ID at its current generation. (R590). -/
  | ctxCreate (r : Nat)
  /-- ITIN_LOAD places an itinerary whole or not at all. (R590). -/
  | itinLoad (r : Nat) (fail : Nat)
  /-- STEP_RUN runs COUNT steps with the context's next milestone numbers. (R591). -/
  | stepRun (r : Nat)
  /-- Hub firmware posts the start of the next step once every core has executed MILE and the twin has acknowledged. (R510). -/
  | stepPost (id : Nat)
  /-- When every condition of R21 holds, hub firmware writes the step's completion record with OK. (R21). -/
  | stepCompletion (id : Nat)
  /-- MILESTONE_WAIT completes once the context's last milestone reaches M. (R592). -/
  | milestoneWait (r : Nat)
  /-- A MILESTONE_WAIT whose timeout expires completes with TIMEOUT. (R592). -/
  | milestoneWaitTimeout (id : Nat) (r : Nat) (cid : Nat)
  /-- HEAL_QUERY writes a summary and hub error log entries to a host buffer. (R593). -/
  | healQuery (r : Nat)
  /-- WINDOW sets or closes a VF's memory window. (R590). -/
  | window (r : Nat)
  /-- SET_DEVICE writes the module's device number. (R594). -/
  | fabricCfgSetDevice (r : Nat)
  /-- WRITE_TABLE writes device route entries into the retired bank. (R594). -/
  | fabricCfgWriteTable (r : Nat)
  /-- FLIP flips the injection XEPOCH. (R594). -/
  | fabricCfgFlip (r : Nat)
  /-- READ_SUM returns the signed XEPOCH sum of both port dies. (R594). -/
  | fabricCfgReadSum (r : Nat)
  /-- RETIRE retires a device route table bank. (R594). -/
  | fabricCfgRetire (r : Nat)
  /-- SET_EXPECT sets a port's expected peer. (R594). -/
  | fabricCfgSetExpect (r : Nat)
  /-- ENABLE enables the ports and clears WAITFAB. (R594). -/
  | fabricCfgEnable (r : Nat)
  /-- SAVE writes the fabric configuration record to flash. (R594). -/
  | fabricCfgSave (r : Nat) (saved : Bool)
  /-- A write of HOST_MBOX_INn delivers a word to hub control core n. (R596). -/
  | mailboxInWrite (req : Req) (n : Nat) (val : Word)
  /-- Mailbox word 0x0000_0001 is answered with the booted hub image's release number. (R596). -/
  | mboxReleaseQuery (n : Nat)
  /-- Mailbox word 0x0000_0002 is echoed back. (R596). -/
  | mboxEcho (n : Nat)
  /-- A read of HOST_MBOX_OUTn returns the answer and clears it. (R596). -/
  | mailboxOutRead (req : Req) (n : Nat)
  /-- A read of HOST_EVENT returns the event bits and clears them. (R609). -/
  | hostEventRead (req : Req)
  /-- A write of HOST_BAR2_BASE moves the BAR2 window, or is refused when misaligned. (R31). -/
  | bar2BaseWrite (req : Req) (lo : Word) (hi : Word)
  /-- A host access through BAR2 or BAR4 reaches memory or scratchpad at the mapped address. (R30). -/
  | barMemoryAccess (bar4 : Bool) (off : Nat) (n : Nat) (write : Bool) (data : List Byte)
  /-- A VF BAR4 access maps into its window, or reads zero and drops its write outside it. (R581). -/
  | vfWindowAccess (vf : Nat) (bar : Nat) (off : Nat) (n : Nat) (write : Bool) (data : List Byte)
  /-- The management port takes its I3C dynamic address. (R597). -/
  | entdaa (addr : Nat)
  /-- An MCTP control message performs discovery or EID assignment. (R597). -/
  | mctpControl (cmd : Nat) (eid : Nat) (bad : Bool)
  /-- REG_READ reads a register with MGMT authority. (R598). -/
  | casevoRegRead (page : Nat) (off : Nat)
  /-- REG_WRITE writes a register with MGMT authority. (R598). -/
  | casevoRegWrite (page : Nat) (off : Nat) (val : Word)
  /-- A management HEAL_QUERY returns the summary and log entries. (R598). -/
  | casevoHealQuery (first : Word) (max : Nat)
  /-- A management FABRIC_CFG performs a fabric manager operation. (R598). -/
  | casevoFabricCfg (entry : Nat) (table : List (BitVec 128)) (saved : Bool)
  /-- A FUSE request runs a fuse command from the management port. (R598). -/
  | casevoFuse (code : Nat) (arg : Nat)
  /-- A PLDM sensor read returns power, temperature, grade or pair state. (R599). -/
  | pldmSensorRead (n : Nat)
  /-- The PLDM numeric effecter sets PWR_LIMIT. (R599). -/
  | pldmEffecterSet (watts : Nat)
  /-- PLDM firmware update writes the slot that did not boot and checks it. (R603). -/
  | firmwareUpdate (phase : Nat) (hub : Image) (svc : Image)
  /-- SPDM returns the certificate chain of slot 0. (R600). -/
  | spdmGetCertificate
  /-- SPDM answers a challenge with a signature by the device key. (R600). -/
  | spdmChallenge (nonce : Nat)
  /-- SPDM returns signed measurements of the ROM, images and fuses. (R600). -/
  | spdmGetMeasurements
  /-- A debug transport instruction reaches a register or address with DEBUG authority, or acts as BYPASS when locked. (R604). -/
  | debugTransport (kind : Nat) (addr : Nat) (write : Bool) (val : Word)
  /-- Writing 1 to AUTH_DBG_LOCK sets DBGLOCK until loss of AUX_3V3. (R605). -/
  | authDbgLockWrite (req : Req) (val : Word)
  /-- Writing 0x0000_F05E to FUSE_ARM arms a fuse command for 1 ms. (R607). -/
  | fuseArmWrite (req : Req) (val : Word)
  /-- An arm not followed by FUSE_CMD within 1 ms lapses. (R607). -/
  | fuseArmExpiry
  /-- FUSE_CMD code 1 blows DBG_CLOSE. (R607). -/
  | fuseDbgClose (req : Req) (val : Word)
  /-- FUSE_CMD code 2 blows MGMT_CLOSE. (R607). -/
  | fuseMgmtClose (req : Req) (val : Word)
  /-- FUSE_CMD code 3 blows the next SVN_MIN bit. (R607). -/
  | fuseSvnAdvance (req : Req) (val : Word)
  /-- FUSE_CMD code 4 revokes a hub ROM key. (R607). -/
  | fuseKeyRevoke (req : Req) (val : Word)
  /-- Programming ends, the fuse is read back and FUSE_STAT.CODE is set. (R607). -/
  | fuseProgramDone (same : Bool)
  /-- Writing RUN from 0 to 1 opens the first gauge window, or is refused. (R620). -/
  | gaugeRun (d : Nat) (i : Nat) (req : Req) (val : Word)
  /-- Writing RUN 0 closes the window and stops sampling. (R620). -/
  | gaugeStop (d : Nat) (i : Nat) (req : Req) (val : Word)
  /-- Writing CLOSE closes the gauge window now. (R620). -/
  | gaugeCloseWrite (d : Nat) (i : Nat) (req : Req) (val : Word)
  /-- A TIMED or ALIGNED window reaches its end. (R620). -/
  | gaugeWindowExpiry (d : Nat) (i : Nat)
  /-- A latency end event or level sample is applied to the live bank. (R616). -/
  | gaugeSample (d : Nat) (i : Nat) (v : Sample) (full : Bool)
  /-- Every PERIOD cycles a level source takes its sample. (R623). -/
  | levelSamplePeriod (d : Nat) (i : Nat)
  /-- Every 256 frames a LINKOFS gauge samples the biased codeword transit. (R625). -/
  | linkofsSample (d : Nat) (i : Nat) (v : Nat)
  /-- AUX_3V3 entering range starts the always-on domain and step 1. (R525). -/
  | aux3v3Applied
  /-- 1 ms after AUX_3V3 enters range, TWIN_SEL is latched into SIDE. (R644). -/
  | twinSelSample (high : Bool)
  /-- AUX_3V3 below 3.0 V for 10 µs stops the always-on domain and turns the module OFF. (R636). -/
  | aux3v3Lost
  /-- PWR_EN high with 12 V in range begins step 2. (R525). -/
  | pwrEnRise (held : Bool)
  /-- PWR_EN low turns the converters off within 1 ms, and memory is lost. (R538). -/
  | pwrEnFall
  /-- 12 V judged out of range holds the module in reset, and memory is lost. (R637). -/
  | mainSupplyLost
  /-- 12 V judged back in range after 1 ms starts step 2 with cause 0x01. (R637). -/
  | mainSupplyRestored
  /-- MOD_RST_N low performs a module reset, or ends STANDBY after a 1 ms pulse. (R538). -/
  | modRstNAssert (us : Nat)
  /-- FLASH_EXT_N low at power-on or in a held module reset releases the flash bus. (R644). -/
  | flashExtNAssert
  /-- FLASH_EXT_N going high resumes step 1. (R644). -/
  | flashExtNRelease
  /-- After a CHOPEN's OPEN request is refused with NOT_READY, the backoff expires and the OPEN request is sent again within the CHOPEN's windows. (R232). -/
  | chopenBackoffExpiry (core : Nat) (entry : Nat)
  /-- A CLOSE notice from a sender (after CHCLOSE or DIE_CTXOP CLOSE) reaches the receiver, whose handle enters HOLDOFF and which acknowledges the notice. (R234). -/
  | handleCloseNotice (core : Nat) (hnd : Nat) (en : Nat)
  /-- Every 25.6 ns each active lane sends its next codeword of the frame, holding packet blocks, link blocks due under R372 or IDLE blocks, and the transmit frame number advances. (R364). -/
  | codewordTransmit (port : Turn)
  /-- A compute or port die returns from reset: its controllers have booted, memory is back in SERVICE or ports are retrained, INT_RAW bit 8 of the AON page is set, and release 3 reloads UNTRUSTED cores. (R495). -/
  | dieResetComplete (die : Nat)
  /-- The PCIe host link trains, or retrains, at the width and rate the host allows, HOST_STATUS.WIDTH changes and hub firmware evaluates the grade again. (R529). -/
  | hostLinkTrained (width : Nat) (rate : Nat) (flitMode : Bool)
  /-- A PCIe configuration request is answered with Request Retry Status before the end of step 2, and afterwards sets functions, VFs, BAR sizes including Resizable BAR2, MSI-X and power state. (R578). -/
  | pcieConfigurationRequest (kind : Nat) (fn : Nat) (val : Nat)
  /-- A PLDM poll for platform events returns held events and removes them from the 256 held. (R599). -/
  | pldmEventPoll
  deriving DecidableEq, Repr

end Sys2Proof
end

