-- ==== Sys2Proof/Config.lean ====
section
/-! DEFINITION. What an implementation or the surroundings fix and the spec leaves open: free values. None has a body, so no
proof can use one; each is applied to what it depends on, or to the plain counter `State.free`, which a step advances when it
draws one (log entries 4-9). -/
namespace Sys2Proof

/-- A fresh number for a value the spec does not state (log entry 4). -/
opaque Config.freeNat : Nat → Nat
/-- The SOURCE recorded for a refused register access, which the spec does not state: page number, offset, code (log entry 5). -/
opaque Config.accessSource : Nat → Nat → Nat → Nat
/-- The transcendental result of an operation code on an FP32 word where R164 states only a bound (log entry 6). -/
opaque Config.transcendental : Nat → Word → Word
/-- Where in the partner's shadow window the home copy at an address lies, in units of 64 KiB, which the spec does not state (log entry 95). -/
opaque Config.shadowHome : Nat → Nat
/-- The value of a sequencer cycle counter at its nth reading (log entry 7). -/
opaque Config.cycleCount : Nat → Nat

end Sys2Proof
end

