-- ==== Sys2Proof/Machine/RegTypes.lean ====
section
/-! DEFINITION. What a register table says of a register and of a field, and the pages a register stands in
(R32-R34, R44, R45, R48, R60). -/
namespace Sys2Proof.Machine

/-- The block types of R48. The HEAL page of H (R491) holds other registers than that of a compute die (R464), so it has
a constructor of its own with the same type code. -/
inductive Blk where
  | core | flow | spad | qeng | rout | clus | die | memc | brdg | gauge | host | mgmt | auth | fuse | aon
  | clk | pwr | sign | heal | healHub | port | cause | xtab
  deriving DecidableEq, Repr

/-- A register page: its block, its die code and its instance (R33, R49, R60). -/
structure PageId where
  blk : Blk
  die : Nat
  inst : Nat
  deriving DecidableEq, Repr

/-- Access types of R44 (no field of the spec's tables is RWL). -/
inductive Acc where
  | ro | rw | wo | w1c | w1s | rc
  deriving DecidableEq, Repr

/-- Retention classes of R45. A field of class D or V whose reset value is "HW" has class `hw` here: no reset clears it, the
hardware it reports sets it. -/
inductive Keep where
  | f | a | m | d | v | hw
  deriving DecidableEq, Repr

/-- The half of a 64-bit pair a register is (R40). -/
inductive Half where
  | one | lo | hi
  deriving DecidableEq, Repr

/-- A field: lowest bit, width, access, reset value, retention class, range of values (R43) and the authority classes that
may write it (R655; bit order of WMASK). -/
structure FieldSpec where
  lo : Nat
  w : Nat
  acc : Acc
  reset : Nat
  keep : Keep
  vmin : Nat
  vmax : Nat
  cls : Nat
  deriving DecidableEq, Repr

/-- A register, or a row of registers at a stride: offset, stride, how many, the pair half, the authority classes that may
write it whatever WMASK states, its fields. -/
structure RegSpec where
  off : Nat
  stride : Nat
  count : Nat
  half : Half
  cls : Nat
  fields : List FieldSpec
  deriving DecidableEq, Repr

/-- A field as hardware and firmware name it: register offset, stride of its row, lowest bit, width. -/
structure FRef where
  off : Nat
  stride : Nat
  lo : Nat
  w : Nat
  deriving DecidableEq, Repr

/-- A field that takes every value of its width from every class. -/
def fs (lo w : Nat) (acc : Acc) (reset : Nat) (keep : Keep) : FieldSpec := ⟨lo, w, acc, reset, keep, 0, 2 ^ w - 1, 127⟩
/-- A field with a stated range or restricted classes. -/
def fr (lo w : Nat) (acc : Acc) (reset : Nat) (keep : Keep) (vmin vmax cls : Nat) : FieldSpec :=
  ⟨lo, w, acc, reset, keep, vmin, vmax, cls⟩

/-- The same field of the n-th register of its row. -/
def FRef.at (f : FRef) (n : Nat) : FRef := { f with off := f.off + f.stride * n }
/-- The i-th of a run of equal fields beginning with this one. -/
def FRef.sub (f : FRef) (i : Nat) : FRef := { f with lo := f.lo + f.w * i }

end Sys2Proof.Machine
end

