-- ==== Sys2Proof/Machine/RegMap.lean ====
section
/-! DEFINITION. The register pages of the module: every register of every block with its offset, its fields, and each
field's access type, reset value, retention class, range of values and writing classes, as the tables of spec/ give them
(R49, R52, R53, R118-R120, R157, R189, R224, R257, R258, R287, R323-R325, R359, R397, R400, R436, R464, R491, R519, R522,
R543, R569-R571, R609-R612, R629, R630). A field whose reset is fused or loaded from hardware has 0 here unless it says
otherwise (DESIGN CHOICE, log entry 3). -/
namespace Sys2Proof.Machine

/-- PG_IDENT (R49). -/
def sPG_IDENT : RegSpec := ⟨0x000, 4, 1, .one, 127,
  [fs 0 8 .ro 0 .f, fs 8 8 .ro 0 .f, fs 16 11 .ro 0 .f,
   fs 27 4 .ro 0 .f]⟩
/-- PG_CLASS (R49). -/
def sPG_CLASS : RegSpec := ⟨0x004, 4, 1, .one, 127,
  [fs 0 7 .ro 0 .f, fs 8 7 .ro 0 .f, fs 16 5 .ro 0 .f,
   fs 24 1 .ro 0 .f, fs 25 1 .ro 0 .f, fs 26 1 .ro 0 .f]⟩
/-- PG_STATUS (R49). -/
def sPG_STATUS : RegSpec := ⟨0x008, 4, 1, .one, 127,
  [fs 0 1 .ro 0 .a, fs 1 1 .ro 0 .v, fs 2 1 .ro 0 .d,
   fs 3 1 .ro 0 .hw, fs 4 1 .ro 0 .hw, fs 5 1 .ro 0 .d,
   fs 6 1 .ro 0 .v, fs 8 8 .ro 0 .v]⟩
/-- PG_GEN (R49). -/
def sPG_GEN : RegSpec := ⟨0x00C, 4, 1, .one, 127,
  [fs 0 6 .rw 0 .d, fs 6 10 .rw 0 .d, fs 16 1 .rw 0 .d]⟩
/-- INT_RAW (R52). -/
def sINT_RAW : RegSpec := ⟨0x010, 4, 1, .one, 127,
  [fs 0 32 .w1s 0 .d]⟩
/-- INT_STAT (R52). -/
def sINT_STAT : RegSpec := ⟨0x014, 4, 1, .one, 127,
  [fs 0 32 .w1c 0 .d]⟩
/-- INT_EN_SET (R52). -/
def sINT_EN_SET : RegSpec := ⟨0x018, 4, 1, .one, 127,
  [fs 0 32 .w1s 0 .d]⟩
/-- INT_EN_CLR (R52). -/
def sINT_EN_CLR : RegSpec := ⟨0x01C, 4, 1, .one, 127,
  [fs 0 32 .w1c 0 .d]⟩
/-- ERR_CAP0 (R53). -/
def sERR_CAP0 : RegSpec := ⟨0x020, 4, 1, .one, 127,
  [fs 0 8 .ro 0 .d, fs 8 8 .ro 0 .d, fs 16 1 .ro 0 .d,
   fs 17 1 .ro 0 .d, fs 24 8 .ro 0 .d]⟩
/-- ERR_CAP1 (R53). -/
def sERR_CAP1 : RegSpec := ⟨0x024, 4, 1, .one, 127,
  [fs 0 16 .ro 0 .d, fs 16 16 .ro 0 .d]⟩
/-- ERR_CAP2 (R53). -/
def sERR_CAP2 : RegSpec := ⟨0x028, 4, 1, .lo, 127,
  [fs 0 32 .ro 0 .d]⟩
/-- ERR_CAP3 (R53). -/
def sERR_CAP3 : RegSpec := ⟨0x02C, 4, 1, .hi, 127,
  [fs 0 32 .ro 0 .d]⟩
/-- ERR_CLR (R53). -/
def sERR_CLR : RegSpec := ⟨0x030, 4, 1, .one, 127,
  [fs 0 1 .wo 0 .d]⟩
/-- PG_LOCK (R54). -/
def sPG_LOCK : RegSpec := ⟨0x034, 4, 1, .one, 127,
  [fs 0 1 .w1s 0 .d]⟩
/-- PG_SCRATCH (R54). -/
def sPG_SCRATCH : RegSpec := ⟨0x038, 4, 1, .one, 127,
  [fs 0 32 .rw 0 .d]⟩
/-- The registers of a hdr page header, on every page. -/
def regs_hdr : List RegSpec :=
  [sPG_IDENT, sPG_CLASS, sPG_STATUS, sPG_GEN, sINT_RAW, sINT_STAT, sINT_EN_SET, sINT_EN_CLR, sERR_CAP0, sERR_CAP1, sERR_CAP2, sERR_CAP3] ++
  [sERR_CLR, sPG_LOCK, sPG_SCRATCH]

/-- CORE_SEQ_CTL (R189). -/
def sCORE_SEQ_CTL : RegSpec := ⟨0x040, 4, 1, .one, 127,
  [fs 0 1 .rw 0 .d, fs 1 1 .rw 1 .d, fr 2 1 .w1s 0 .v 0 1 96]⟩
/-- CORE_SEQ_STATE (R189). -/
def sCORE_SEQ_STATE : RegSpec := ⟨0x044, 4, 1, .one, 127,
  [fs 0 4 .ro 0 .v, fs 4 4 .ro 0 .v]⟩
/-- CORE_SEQ_PC (R189). -/
def sCORE_SEQ_PC : RegSpec := ⟨0x048, 4, 1, .one, 127,
  [fs 0 32 .ro 0 .v]⟩
/-- CORE_SEQ_ENTRY (R189). -/
def sCORE_SEQ_ENTRY : RegSpec := ⟨0x04C, 4, 1, .one, 127,
  [fs 0 32 .rw 0 .d]⟩
/-- CORE_SEQ_RESUME (R189). -/
def sCORE_SEQ_RESUME : RegSpec := ⟨0x050, 4, 1, .one, 127,
  [fs 0 32 .rw 0 .d]⟩
/-- CORE_STEP_MILE (R189). -/
def sCORE_STEP_MILE : RegSpec := ⟨0x054, 4, 1, .one, 96,
  [fs 0 32 .rw 0 .d]⟩
/-- CORE_SEED_LO (R189). -/
def sCORE_SEED_LO : RegSpec := ⟨0x058, 4, 1, .lo, 96,
  [fs 0 32 .rw 0 .d]⟩
/-- CORE_SEED_HI (R189). -/
def sCORE_SEED_HI : RegSpec := ⟨0x05C, 4, 1, .hi, 96,
  [fs 0 32 .rw 0 .d]⟩
/-- CORE_QWAIT (R189). -/
def sCORE_QWAIT : RegSpec := ⟨0x060, 4, 1, .one, 127,
  [fr 0 24 .rw 5000 .d 25 16777215 127]⟩
/-- CORE_TRAP (R189). -/
def sCORE_TRAP : RegSpec := ⟨0x064, 4, 1, .one, 127,
  [fs 0 5 .ro 0 .v]⟩
/-- CORE_TRAP_VAL (R189). -/
def sCORE_TRAP_VAL : RegSpec := ⟨0x068, 4, 1, .one, 127,
  [fs 0 32 .ro 0 .v]⟩
/-- CORE_MBOX_IN (R189). -/
def sCORE_MBOX_IN : RegSpec := ⟨0x06C, 4, 1, .one, 127,
  [fs 0 32 .wo 0 .v]⟩
/-- CORE_MBOX_OUT (R189). -/
def sCORE_MBOX_OUT : RegSpec := ⟨0x070, 4, 1, .one, 127,
  [fs 0 32 .rc 0 .v]⟩
/-- CORE_CU_CTL (R189). -/
def sCORE_CU_CTL : RegSpec := ⟨0x080, 4, 1, .one, 127,
  [fs 0 2 .rw 1 .d]⟩
def sCnt_core0L : RegSpec := ⟨0xC00, 8, 11, .lo, 127, [fs 0 32 .ro 0 .d]⟩
def sCnt_core0H : RegSpec := ⟨0xC04, 8, 11, .hi, 127, [fs 0 32 .ro 0 .d]⟩
/-- The registers of a core page. -/
def regs_core : List RegSpec :=
  [sCORE_SEQ_CTL, sCORE_SEQ_STATE, sCORE_SEQ_PC, sCORE_SEQ_ENTRY, sCORE_SEQ_RESUME, sCORE_STEP_MILE, sCORE_SEED_LO, sCORE_SEED_HI, sCORE_QWAIT, sCORE_TRAP, sCORE_TRAP_VAL, sCORE_MBOX_IN] ++
  [sCORE_MBOX_OUT, sCORE_CU_CTL, sCnt_core0L, sCnt_core0H]

/-- ARR_CFG (R119). -/
def sARR_CFG : RegSpec := ⟨0x400, 4, 2, .one, 127,
  [fs 0 4 .rw 0 .d, fs 4 4 .rw 0 .d, fs 8 1 .rw 0 .d,
   fs 9 1 .rw 0 .d, fs 10 2 .rw 1 .d]⟩
/-- ARR_CTL (R120). -/
def sARR_CTL : RegSpec := ⟨0x408, 4, 1, .one, 96,
  [fs 0 1 .w1s 0 .v, fs 1 1 .rw 0 .v, fs 8 6 .rw 0 .v]⟩
/-- ARR_STATUS (R121). -/
def sARR_STATUS : RegSpec := ⟨0x40C, 4, 1, .one, 127,
  [fs 0 1 .ro 0 .v, fs 1 2 .ro 0 .v, fs 3 1 .ro 0 .v,
   fs 4 1 .ro 0 .v, fs 5 1 .ro 0 .v, fs 6 1 .ro 0 .v,
   fs 8 6 .ro 0 .v, fs 14 7 .ro 0 .v]⟩
/-- FLOW_STATUS (R157). -/
def sFLOW_STATUS : RegSpec := ⟨0x040, 4, 1, .one, 127,
  [fs 0 1 .ro 0 .d, fs 1 1 .ro 0 .d, fs 2 2 .ro 0 .v,
   fs 4 1 .ro 0 .v, fs 5 1 .ro 0 .v]⟩
/-- FLOW_CFG_STATUS (R157). -/
def sFLOW_CFG_STATUS : RegSpec := ⟨0x044, 4, 1, .one, 127,
  [fs 0 1 .ro 1 .d, fs 1 1 .ro 0 .d, fs 2 1 .ro 0 .v,
   fs 3 1 .ro 0 .v, fs 8 8 .ro 255 .d]⟩
/-- FLOW_CFG_CHECK (R157). -/
def sFLOW_CFG_CHECK : RegSpec := ⟨0x048, 4, 1, .one, 127,
  [fs 0 1 .wo 0 .v, fs 1 1 .wo 0 .v]⟩
/-- FLOW_IMG_ADDR (R157). -/
def sFLOW_IMG_ADDR : RegSpec := ⟨0x04C, 4, 1, .one, 127,
  [fs 12 11 .rw 0 .d]⟩
/-- FLOW_IMG_GO (R157). -/
def sFLOW_IMG_GO : RegSpec := ⟨0x050, 4, 1, .one, 127,
  [fs 0 1 .wo 0 .v, fs 1 1 .wo 0 .v]⟩
/-- FLOW_WIN_SEL (R157). -/
def sFLOW_WIN_SEL : RegSpec := ⟨0x054, 4, 1, .one, 127,
  [fs 2 10 .rw 0 .v, fs 12 1 .rw 0 .v, fs 13 1 .rw 0 .v]⟩
/-- FLOW_WIN_DATA (R157). -/
def sFLOW_WIN_DATA : RegSpec := ⟨0x058, 4, 1, .one, 127,
  [fs 0 32 .rw 0 .d]⟩
/-- FLOW_QTIMEOUT (R157). -/
def sFLOW_QTIMEOUT : RegSpec := ⟨0x05C, 4, 1, .one, 127,
  [fr 0 24 .rw 65536 .d 256 16777215 127]⟩
/-- FLOW_LINK_SEL (R157). -/
def sFLOW_LINK_SEL : RegSpec := ⟨0x060, 4, 1, .one, 127,
  [fs 0 7 .rw 0 .v]⟩
/-- FLOW_LINK_STAT (R157). -/
def sFLOW_LINK_STAT : RegSpec := ⟨0x064, 4, 1, .one, 127,
  [fs 0 7 .ro 0 .v, fs 8 7 .ro 0 .v, fs 16 7 .ro 0 .v,
   fs 23 1 .ro 0 .v]⟩
/-- FLOW_LINK_PEAK (R157). -/
def sFLOW_LINK_PEAK : RegSpec := ⟨0x068, 4, 1, .one, 127,
  [fs 0 7 .rc 0 .v]⟩
/-- FLOW_GRID_WIN (R157). -/
def sFLOW_GRID_WIN : RegSpec := ⟨0x06C, 4, 1, .one, 127,
  [fr 0 14 .rw 50 .d 0 10000 127]⟩
/-- FLOW_GRID_STAT (R157). -/
def sFLOW_GRID_STAT : RegSpec := ⟨0x070, 4, 1, .one, 127,
  [fs 0 1 .w1c 0 .d, fs 1 6 .ro 0 .d, fs 7 8 .ro 0 .d,
   fs 15 1 .ro 0 .d]⟩
/-- FLOW_GRID_PATHn_LO (R157). -/
def sFLOW_GRID_PATHn_LO : RegSpec := ⟨0x100, 8, 32, .lo, 127,
  [fs 0 4 .ro 0 .d, fs 4 8 .ro 0 .d, fs 12 5 .ro 0 .d,
   fs 17 3 .ro 0 .d, fs 20 3 .ro 0 .d, fs 23 6 .ro 0 .d]⟩
/-- FLOW_GRID_PATHn_HI (R157). -/
def sFLOW_GRID_PATHn_HI : RegSpec := ⟨0x104, 8, 32, .hi, 127,
  [fs 0 10 .ro 0 .d]⟩
def sCnt_flow0L : RegSpec := ⟨0xC00, 8, 9, .lo, 127, [fs 0 32 .ro 0 .d]⟩
def sCnt_flow0H : RegSpec := ⟨0xC04, 8, 9, .hi, 127, [fs 0 32 .ro 0 .d]⟩
def sCnt_flow1L : RegSpec := ⟨0xE00, 8, 9, .lo, 127, [fs 0 32 .ro 0 .d]⟩
def sCnt_flow1H : RegSpec := ⟨0xE04, 8, 9, .hi, 127, [fs 0 32 .ro 0 .d]⟩
/-- The registers of a flow page. -/
def regs_flow : List RegSpec :=
  [sARR_CFG, sARR_CTL, sARR_STATUS, sFLOW_STATUS, sFLOW_CFG_STATUS, sFLOW_CFG_CHECK, sFLOW_IMG_ADDR, sFLOW_IMG_GO, sFLOW_WIN_SEL, sFLOW_WIN_DATA, sFLOW_QTIMEOUT, sFLOW_LINK_SEL] ++
  [sFLOW_LINK_STAT, sFLOW_LINK_PEAK, sFLOW_GRID_WIN, sFLOW_GRID_STAT, sFLOW_GRID_PATHn_LO, sFLOW_GRID_PATHn_HI, sCnt_flow0L, sCnt_flow0H, sCnt_flow1L, sCnt_flow1H]

/-- SPAD_STATUS (R224). -/
def sSPAD_STATUS : RegSpec := ⟨0x040, 4, 1, .one, 127,
  [fs 0 6 .ro 0 .v, fs 6 6 .ro 0 .v, fs 12 1 .ro 0 .v,
   fs 13 1 .w1c 0 .m]⟩
/-- SPAD_SCRUB (R224). -/
def sSPAD_SCRUB : RegSpec := ⟨0x044, 4, 1, .one, 127,
  [fs 0 1 .rw 1 .d, fr 8 13 .rw 6400 .d 1 8191 127]⟩
/-- SPAD_SCRUB_POS (R224). -/
def sSPAD_SCRUB_POS : RegSpec := ⟨0x048, 4, 1, .one, 127,
  [fs 0 14 .ro 0 .d, fs 16 16 .ro 0 .d]⟩
/-- SPAD_DMA_CFG (R224). -/
def sSPAD_DMA_CFG : RegSpec := ⟨0x04C, 4, 1, .one, 127,
  [fr 0 24 .rw 5000 .d 25 16777215 127, fs 24 3 .rw 3 .d]⟩
/-- SPAD_DMA_STAT (R224). -/
def sSPAD_DMA_STAT : RegSpec := ⟨0x050, 4, 1, .one, 127,
  [fs 0 5 .ro 0 .v, fs 8 3 .ro 0 .v, fs 11 1 .ro 0 .v]⟩
/-- SPAD_BANK_PEND (R224). -/
def sSPAD_BANK_PEND : RegSpec := ⟨0x054, 4, 1, .one, 127,
  [fs 0 6 .rw 0 .v, fs 8 4 .ro 0 .v]⟩
/-- SPAD_DIRTY_SEL (R224). -/
def sSPAD_DIRTY_SEL : RegSpec := ⟨0x058, 4, 1, .one, 127,
  [fs 0 9 .rw 0 .d]⟩
/-- SPAD_DIRTY_DATA (R224). -/
def sSPAD_DIRTY_DATA : RegSpec := ⟨0x05C, 4, 1, .one, 127,
  [fs 0 32 .rc 0 .d]⟩
/-- SPAD_DIRTY_CNT (R224). -/
def sSPAD_DIRTY_CNT : RegSpec := ⟨0x060, 4, 1, .one, 127,
  [fs 0 15 .ro 0 .d]⟩
/-- SPAD_BANK_PWRn (R224). -/
def sSPAD_BANK_PWRn : RegSpec := ⟨0x080, 4, 4, .one, 96,
  [fr 0 2 .rw 0 .m 0 2 127, fr 2 2 .rw 0 .m 0 2 127, fr 4 2 .rw 0 .m 0 2 127,
   fr 6 2 .rw 0 .m 0 2 127, fr 8 2 .rw 0 .m 0 2 127, fr 10 2 .rw 0 .m 0 2 127,
   fr 12 2 .rw 0 .m 0 2 127, fr 14 2 .rw 0 .m 0 2 127, fr 16 2 .rw 0 .m 0 2 127,
   fr 18 2 .rw 0 .m 0 2 127, fr 20 2 .rw 0 .m 0 2 127, fr 22 2 .rw 0 .m 0 2 127,
   fr 24 2 .rw 0 .m 0 2 127, fr 26 2 .rw 0 .m 0 2 127, fr 28 2 .rw 0 .m 0 2 127,
   fr 30 2 .rw 0 .m 0 2 127]⟩
/-- SPAD_BANK_STATEn (R224). -/
def sSPAD_BANK_STATEn : RegSpec := ⟨0x090, 4, 8, .one, 127,
  [fs 0 4 .ro 2 .hw, fs 4 4 .ro 2 .hw, fs 8 4 .ro 2 .hw,
   fs 12 4 .ro 2 .hw, fs 16 4 .ro 2 .hw, fs 20 4 .ro 2 .hw,
   fs 24 4 .ro 2 .hw, fs 28 4 .ro 2 .hw]⟩
/-- SPAD_REGION (R224). -/
def sSPAD_REGION : RegSpec := ⟨0x400, 4, 128, .one, 127,
  [fs 0 1 .rw 0 .m, fs 1 1 .rw 0 .m, fs 2 1 .rw 0 .m,
   fr 3 1 .rw 0 .m 0 1 96, fs 4 1 .rw 0 .m, fs 8 24 .rw 0 .m]⟩
def sCnt_spad0L : RegSpec := ⟨0xC00, 8, 10, .lo, 127, [fs 0 32 .ro 0 .d]⟩
def sCnt_spad0H : RegSpec := ⟨0xC04, 8, 10, .hi, 127, [fs 0 32 .ro 0 .d]⟩
/-- The registers of a spad page. -/
def regs_spad : List RegSpec :=
  [sSPAD_STATUS, sSPAD_SCRUB, sSPAD_SCRUB_POS, sSPAD_DMA_CFG, sSPAD_DMA_STAT, sSPAD_BANK_PEND, sSPAD_DIRTY_SEL, sSPAD_DIRTY_DATA, sSPAD_DIRTY_CNT, sSPAD_BANK_PWRn, sSPAD_BANK_STATEn, sSPAD_REGION] ++
  [sCnt_spad0L, sCnt_spad0H]

/-- QENG_STATUS (R257). -/
def sQENG_STATUS : RegSpec := ⟨0x040, 4, 1, .one, 127,
  [fs 0 6 .ro 0 .v, fs 8 5 .ro 16 .v, fs 16 11 .ro 0 .d]⟩
/-- QENG_STATUS2 (R257). -/
def sQENG_STATUS2 : RegSpec := ⟨0x044, 4, 1, .one, 127,
  [fs 0 11 .ro 0 .d, fs 16 9 .ro 0 .v]⟩
/-- QENG_CFG (R257). -/
def sQENG_CFG : RegSpec := ⟨0x048, 4, 1, .one, 127,
  [fs 0 3 .rw 3 .d, fr 4 4 .rw 8 .d 1 8 127, fr 8 4 .rw 8 .d 6 12 127]⟩
/-- QENG_TIMEOUT (R257). -/
def sQENG_TIMEOUT : RegSpec := ⟨0x04C, 4, 1, .one, 127,
  [fr 0 24 .rw 5000 .d 25 16777215 127]⟩
/-- QENG_CTL (R257). -/
def sQENG_CTL : RegSpec := ⟨0x070, 4, 1, .one, 96,
  [fs 0 1 .rw 0 .d, fs 1 1 .w1s 0 .v]⟩
/-- QENG_CH_SEL (R258). -/
def sQENG_CH_SEL : RegSpec := ⟨0x050, 4, 1, .one, 127,
  [fs 0 10 .rw 0 .v]⟩
/-- QENG_CH_STAT0 (R258). -/
def sQENG_CH_STAT0 : RegSpec := ⟨0x054, 4, 1, .one, 127,
  [fs 0 22 .ro 0 .v, fs 22 3 .ro 0 .v]⟩
/-- QENG_CH_STAT1 (R258). -/
def sQENG_CH_STAT1 : RegSpec := ⟨0x058, 4, 1, .one, 127,
  [fs 0 10 .ro 0 .v, fs 10 6 .ro 0 .v, fs 16 16 .ro 0 .v]⟩
/-- QENG_CH_STAT2 (R258). -/
def sQENG_CH_STAT2 : RegSpec := ⟨0x05C, 4, 1, .one, 127,
  [fs 0 16 .ro 0 .v, fs 16 4 .ro 0 .v, fs 20 8 .ro 0 .v]⟩
/-- QENG_CH_STAT3 (R258). -/
def sQENG_CH_STAT3 : RegSpec := ⟨0x060, 4, 1, .one, 127,
  [fs 0 13 .ro 0 .v, fs 13 2 .ro 0 .v, fs 16 6 .ro 0 .v]⟩
/-- QENG_HD_SEL (R258). -/
def sQENG_HD_SEL : RegSpec := ⟨0x064, 4, 1, .one, 127,
  [fs 0 10 .rw 0 .v]⟩
/-- QENG_HD_STAT0 (R258). -/
def sQENG_HD_STAT0 : RegSpec := ⟨0x068, 4, 1, .one, 127,
  [fs 0 22 .ro 0 .v, fs 22 2 .ro 0 .v, fs 24 6 .ro 0 .v]⟩
/-- QENG_HD_STAT1 (R258). -/
def sQENG_HD_STAT1 : RegSpec := ⟨0x06C, 4, 1, .one, 127,
  [fs 0 16 .ro 0 .v]⟩
/-- QENG_Q_SEL (R258). -/
def sQENG_Q_SEL : RegSpec := ⟨0x074, 4, 1, .one, 127,
  [fs 0 6 .rw 0 .v]⟩
/-- QENG_Q_STAT0 (R258). -/
def sQENG_Q_STAT0 : RegSpec := ⟨0x078, 4, 1, .one, 127,
  [fs 0 23 .ro 0 .v]⟩
/-- QENG_Q_STAT1 (R258). -/
def sQENG_Q_STAT1 : RegSpec := ⟨0x07C, 4, 1, .one, 127,
  [fs 0 32 .ro 0 .v]⟩
/-- QENG_Q_STAT2 (R258). -/
def sQENG_Q_STAT2 : RegSpec := ⟨0x080, 4, 1, .one, 127,
  [fs 0 22 .ro 0 .v]⟩
/-- QENG_Q_STAT3 (R258). -/
def sQENG_Q_STAT3 : RegSpec := ⟨0x084, 4, 1, .one, 127,
  [fs 0 22 .ro 0 .v]⟩
/-- QENG_Qn_CFG (R258). -/
def sQENG_Qn_CFG : RegSpec := ⟨0x400, 16, 64, .one, 127,
  [fs 0 2 .rw 0 .d, fs 2 1 .rw 0 .d, fs 3 1 .rw 0 .d,
   fr 4 5 .rw 12 .d 12 22 127, fr 10 13 .rw 0 .d 0 4096 127]⟩
/-- QENG_Qn_RING (R258). -/
def sQENG_Qn_RING : RegSpec := ⟨0x404, 16, 64, .one, 127,
  [fs 0 23 .rw 0 .d]⟩
/-- QENG_Qn_STATW (R258). -/
def sQENG_Qn_STATW : RegSpec := ⟨0x408, 16, 64, .one, 127,
  [fs 3 20 .rw 0 .d]⟩
/-- QENG_Qn_ACPT (R258). -/
def sQENG_Qn_ACPT : RegSpec := ⟨0x40C, 16, 64, .one, 96,
  [fs 0 22 .rw 0 .d, fr 22 5 .rw 0 .d 0 22 127]⟩
/-- QENG_Jn_CFG (R287). -/
def sQENG_Jn_CFG : RegSpec := ⟨0x100, 8, 64, .one, 127,
  [fs 0 2 .rw 0 .d, fs 2 1 .rw 0 .d, fr 4 11 .rw 0 .d 1 1024 127,
   fr 16 12 .rw 0 .d 1 4095 127]⟩
/-- QENG_Jn_FWD (R287). -/
def sQENG_Jn_FWD : RegSpec := ⟨0x104, 8, 64, .one, 127,
  [fs 0 1 .rw 0 .d, fs 1 10 .rw 0 .d]⟩
/-- QENG_J_SEL (R287). -/
def sQENG_J_SEL : RegSpec := ⟨0x088, 4, 1, .one, 127,
  [fs 0 6 .rw 0 .v]⟩
/-- QENG_J_STAT0 (R287). -/
def sQENG_J_STAT0 : RegSpec := ⟨0x08C, 4, 1, .one, 127,
  [fs 0 8 .ro 0 .v, fs 8 2 .ro 0 .v, fs 10 2 .ro 0 .v,
   fs 16 12 .ro 0 .v]⟩
/-- QENG_J_STAT1 (R287). -/
def sQENG_J_STAT1 : RegSpec := ⟨0x090, 4, 1, .one, 127,
  [fs 0 12 .ro 0 .v, fs 16 12 .ro 0 .v]⟩
/-- QENG_CV_BIND_LO (R287). -/
def sQENG_CV_BIND_LO : RegSpec := ⟨0x094, 4, 1, .lo, 96,
  [fs 0 10 .wo 0 .v, fs 10 8 .wo 0 .v, fs 18 6 .wo 0 .v,
   fs 24 1 .wo 0 .v, fs 25 1 .wo 0 .v]⟩
/-- QENG_CV_BIND_HI (R287). -/
def sQENG_CV_BIND_HI : RegSpec := ⟨0x098, 4, 1, .hi, 96,
  [fs 0 22 .wo 0 .v]⟩
def sCnt_qeng0L : RegSpec := ⟨0xC00, 8, 20, .lo, 127, [fs 0 32 .ro 0 .d]⟩
def sCnt_qeng0H : RegSpec := ⟨0xC04, 8, 20, .hi, 127, [fs 0 32 .ro 0 .d]⟩
/-- The registers of a qeng page. -/
def regs_qeng : List RegSpec :=
  [sQENG_STATUS, sQENG_STATUS2, sQENG_CFG, sQENG_TIMEOUT, sQENG_CTL, sQENG_CH_SEL, sQENG_CH_STAT0, sQENG_CH_STAT1, sQENG_CH_STAT2, sQENG_CH_STAT3, sQENG_HD_SEL, sQENG_HD_STAT0] ++
  [sQENG_HD_STAT1, sQENG_Q_SEL, sQENG_Q_STAT0, sQENG_Q_STAT1, sQENG_Q_STAT2, sQENG_Q_STAT3, sQENG_Qn_CFG, sQENG_Qn_RING, sQENG_Qn_STATW, sQENG_Qn_ACPT, sQENG_Jn_CFG, sQENG_Jn_FWD] ++
  [sQENG_J_SEL, sQENG_J_STAT0, sQENG_J_STAT1, sQENG_CV_BIND_LO, sQENG_CV_BIND_HI, sCnt_qeng0L, sCnt_qeng0H]

/-- ROUT_STATUS (R323). -/
def sROUT_STATUS : RegSpec := ⟨0x040, 4, 1, .one, 127,
  [fs 0 1 .ro 0 .d, fs 1 1 .ro 0 .d, fs 2 1 .ro 1 .d,
   fs 3 1 .ro 0 .a, fs 4 3 .ro 0 .v, fs 8 4 .ro 0 .v,
   fs 12 7 .ro 0 .v]⟩
/-- ROUT_EN (R323). -/
def sROUT_EN : RegSpec := ⟨0x044, 4, 1, .one, 96,
  [fs 0 22 .rw 0 .d]⟩
/-- ROUT_DETOUR (R323). -/
def sROUT_DETOUR : RegSpec := ⟨0x048, 4, 1, .one, 96,
  [fs 0 4 .rw 0 .d, fs 4 4 .rw 0 .d]⟩
/-- ROUT_REP_SEL (R323). -/
def sROUT_REP_SEL : RegSpec := ⟨0x04C, 4, 1, .one, 127,
  [fs 0 2 .rw 0 .v, fs 2 6 .rw 0 .v, fs 8 1 .rw 0 .v]⟩
/-- ROUT_REP_DATA_LO (R323). -/
def sROUT_REP_DATA_LO : RegSpec := ⟨0x050, 4, 1, .lo, 127,
  [fs 0 32 .rw 0 .d]⟩
/-- ROUT_REP_DATA_HI (R323). -/
def sROUT_REP_DATA_HI : RegSpec := ⟨0x054, 4, 1, .hi, 96,
  [fs 0 32 .rw 0 .d]⟩
/-- ROUT_EPCNT0 (R323). -/
def sROUT_EPCNT0 : RegSpec := ⟨0x058, 4, 1, .one, 127,
  [fs 0 32 .ro 0 .d]⟩
/-- ROUT_EPCNT1 (R323). -/
def sROUT_EPCNT1 : RegSpec := ⟨0x05C, 4, 1, .one, 127,
  [fs 0 32 .ro 0 .d]⟩
/-- ROUT_PORT_SEL (R323). -/
def sROUT_PORT_SEL : RegSpec := ⟨0x060, 4, 1, .one, 127,
  [fr 0 3 .rw 0 .v 0 5 127]⟩
/-- ROUT_PORT_STAT (R323). -/
def sROUT_PORT_STAT : RegSpec := ⟨0x064, 4, 1, .one, 127,
  [fs 0 5 .ro 0 .v, fs 5 5 .ro 0 .v, fs 10 5 .ro 0 .v,
   fs 15 5 .ro 0 .v, fs 20 4 .ro 0 .v]⟩
/-- ROUT_CACHE_CTL (R323). -/
def sROUT_CACHE_CTL : RegSpec := ⟨0x068, 4, 1, .one, 96,
  [fs 0 1 .w1s 0 .v]⟩
def sCnt_rout0L : RegSpec := ⟨0xC00, 8, 11, .lo, 127, [fs 0 32 .ro 0 .d]⟩
def sCnt_rout0H : RegSpec := ⟨0xC04, 8, 11, .hi, 127, [fs 0 32 .ro 0 .d]⟩
/-- The registers of a rout page. -/
def regs_rout : List RegSpec :=
  [sROUT_STATUS, sROUT_EN, sROUT_DETOUR, sROUT_REP_SEL, sROUT_REP_DATA_LO, sROUT_REP_DATA_HI, sROUT_EPCNT0, sROUT_EPCNT1, sROUT_PORT_SEL, sROUT_PORT_STAT, sROUT_CACHE_CTL, sCnt_rout0L] ++
  [sCnt_rout0H]

/-- CLUS_STATUS (R569). -/
def sCLUS_STATUS : RegSpec := ⟨0x040, 4, 1, .one, 127,
  [fs 0 2 .ro 0 .v, fs 2 2 .ro 0 .v, fs 4 1 .ro 0 .d,
   fs 5 1 .ro 0 .d, fs 6 1 .ro 0 .v, fs 8 2 .ro 2 .hw,
   fs 10 2 .ro 2 .hw, fs 12 2 .ro 2 .hw, fs 14 2 .ro 2 .hw]⟩
/-- CLUS_CORE_PWR (R569). -/
def sCLUS_CORE_PWR : RegSpec := ⟨0x044, 4, 1, .one, 96,
  [fr 0 2 .rw 2 .m 0 2 127, fr 2 2 .rw 2 .m 0 2 127, fr 4 2 .rw 2 .m 0 2 127,
   fr 6 2 .rw 2 .m 0 2 127]⟩
/-- CLUS_CTL (R569). -/
def sCLUS_CTL : RegSpec := ⟨0x048, 4, 1, .one, 96,
  [fs 0 1 .rw 0 .d, fs 1 1 .w1s 0 .v, fr 8 5 .rw 10 .d 0 30 127]⟩
/-- CLUS_VSET (R569). -/
def sCLUS_VSET : RegSpec := ⟨0x04C, 4, 1, .one, 96,
  [fr 0 7 .rw 60 .hw 0 80 127, fs 8 7 .ro 0 .v, fs 16 7 .ro 0 .hw]⟩
/-- CLUS_FREQ (R569). -/
def sCLUS_FREQ : RegSpec := ⟨0x050, 4, 1, .one, 96,
  [fr 0 7 .rw 72 .d 16 88 127, fs 8 7 .ro 0 .v, fs 16 7 .ro 72 .hw]⟩
/-- CLUS_DIV (R569). -/
def sCLUS_DIV : RegSpec := ⟨0x054, 4, 1, .one, 127,
  [fs 0 2 .rw 0 .d, fs 2 2 .rw 0 .d, fs 4 2 .rw 0 .d,
   fs 6 2 .rw 0 .d, fs 8 2 .ro 0 .v, fs 10 2 .ro 0 .v,
   fs 12 2 .ro 0 .v, fs 14 2 .ro 0 .v]⟩
def sCnt_clus0L : RegSpec := ⟨0xC00, 8, 4, .lo, 127, [fs 0 32 .ro 0 .d]⟩
def sCnt_clus0H : RegSpec := ⟨0xC04, 8, 4, .hi, 127, [fs 0 32 .ro 0 .d]⟩
/-- The registers of a clus page. -/
def regs_clus : List RegSpec :=
  [sCLUS_STATUS, sCLUS_CORE_PWR, sCLUS_CTL, sCLUS_VSET, sCLUS_FREQ, sCLUS_DIV, sCnt_clus0L, sCnt_clus0H]

/-- DIE_STATUS (R519). -/
def sDIE_STATUS : RegSpec := ⟨0x040, 4, 1, .one, 127,
  [fs 0 4 .ro 0 .hw, fs 4 1 .ro 0 .d, fs 5 1 .ro 0 .d,
   fs 6 1 .ro 0 .v]⟩
/-- DIE_RST_CORE (R519). -/
def sDIE_RST_CORE : RegSpec := ⟨0x044, 4, 1, .one, 127,
  [fr 0 8 .wo 0 .v 0 143 127, fs 31 1 .wo 0 .v]⟩
/-- DIE_RST_CLUS (R519). -/
def sDIE_RST_CLUS : RegSpec := ⟨0x048, 4, 1, .one, 127,
  [fr 0 6 .wo 0 .v 0 35 127, fs 31 1 .wo 0 .v]⟩
/-- DIE_RST_STAT (R519). -/
def sDIE_RST_STAT : RegSpec := ⟨0x04C, 4, 1, .one, 127,
  [fs 0 1 .ro 0 .v, fs 8 8 .ro 0 .v]⟩
/-- DIE_INT_TGT (R519). -/
def sDIE_INT_TGT : RegSpec := ⟨0x050, 4, 1, .one, 127,
  [fs 0 4 .rw 8 .d, fs 4 8 .rw 224 .d]⟩
/-- DIE_WDOG (R519). -/
def sDIE_WDOG : RegSpec := ⟨0x054, 4, 1, .one, 127,
  [fs 0 16 .rw 100 .d]⟩
/-- DIE_WDOG_KICK (R519). -/
def sDIE_WDOG_KICK : RegSpec := ⟨0x058, 4, 1, .one, 127,
  [fs 0 1 .wo 0 .v, fs 1 1 .wo 0 .v]⟩
/-- DIE_CTXOP (R519). -/
def sDIE_CTXOP : RegSpec := ⟨0x060, 4, 1, .one, 127,
  [fs 0 3 .wo 0 .v, fs 8 6 .wo 0 .v, fs 16 10 .wo 0 .v,
   fs 31 1 .wo 0 .v]⟩
/-- DIE_CTXOP_STAT (R519). -/
def sDIE_CTXOP_STAT : RegSpec := ⟨0x064, 4, 1, .one, 127,
  [fs 0 1 .ro 0 .v, fs 1 8 .ro 0 .v, fs 16 8 .ro 0 .v]⟩
def sCnt_die0L : RegSpec := ⟨0xC00, 8, 6, .lo, 127, [fs 0 32 .ro 0 .d]⟩
def sCnt_die0H : RegSpec := ⟨0xC04, 8, 6, .hi, 127, [fs 0 32 .ro 0 .d]⟩
/-- The registers of a die page. -/
def regs_die : List RegSpec :=
  [sDIE_STATUS, sDIE_RST_CORE, sDIE_RST_CLUS, sDIE_RST_STAT, sDIE_INT_TGT, sDIE_WDOG, sDIE_WDOG_KICK, sDIE_CTXOP, sDIE_CTXOP_STAT, sCnt_die0L, sCnt_die0H]

/-- MEMC_STATUS (R359). -/
def sMEMC_STATUS : RegSpec := ⟨0x040, 4, 1, .one, 127,
  [fs 0 4 .ro 0 .v, fs 4 1 .ro 0 .m, fs 5 1 .ro 0 .v,
   fs 6 1 .ro 0 .v, fs 7 1 .ro 0 .v, fs 8 8 .ro 0 .v]⟩
/-- MEMC_TRAIN (R359). -/
def sMEMC_TRAIN : RegSpec := ⟨0x044, 4, 1, .one, 96,
  [fs 0 1 .wo 0 .v, fs 1 1 .wo 0 .v, fs 2 1 .ro 0 .v,
   fs 3 1 .ro 0 .m]⟩
/-- MEMC_TRAIN_FAIL (R359). -/
def sMEMC_TRAIN_FAIL : RegSpec := ⟨0x048, 4, 1, .one, 127,
  [fs 0 32 .ro 0 .v]⟩
/-- MEMC_REC_SEL (R359). -/
def sMEMC_REC_SEL : RegSpec := ⟨0x04C, 4, 1, .one, 127,
  [fs 0 10 .rw 0 .v]⟩
/-- MEMC_REC_DATA (R359). -/
def sMEMC_REC_DATA : RegSpec := ⟨0x050, 4, 1, .one, 96,
  [fs 0 32 .rw 0 .m]⟩
/-- MEMC_RECAL (R359). -/
def sMEMC_RECAL : RegSpec := ⟨0x054, 4, 1, .one, 127,
  [fs 0 1 .rw 1 .d, fr 8 5 .rw 25 .d 5 25 127, fr 16 16 .rw 200 .d 200 65535 127]⟩
/-- MEMC_SCRUB (R359). -/
def sMEMC_SCRUB : RegSpec := ⟨0x058, 4, 1, .one, 127,
  [fs 0 1 .rw 1 .d, fr 8 8 .rw 12 .d 1 255 127]⟩
/-- MEMC_GRANT_SEL (R359). -/
def sMEMC_GRANT_SEL : RegSpec := ⟨0x060, 4, 1, .one, 127,
  [fs 0 16 .rw 0 .v]⟩
/-- MEMC_GRANT_DATA (R359). -/
def sMEMC_GRANT_DATA : RegSpec := ⟨0x064, 4, 1, .one, 96,
  [fs 0 16 .rw 0 .m, fs 16 2 .rw 0 .m]⟩
/-- MEMC_SLICE_SEL (R359). -/
def sMEMC_SLICE_SEL : RegSpec := ⟨0x068, 4, 1, .one, 127,
  [fs 0 5 .rw 0 .v]⟩
/-- MEMC_SLICE_CTL (R359). -/
def sMEMC_SLICE_CTL : RegSpec := ⟨0x06C, 4, 1, .one, 96,
  [fs 0 1 .w1s 0 .m, fs 1 1 .w1s 0 .m, fs 2 2 .ro 0 .a,
   fs 4 1 .ro 0 .d]⟩
/-- MEMC_SLICE_CLOSED (R359). -/
def sMEMC_SLICE_CLOSED : RegSpec := ⟨0x070, 4, 1, .one, 127,
  [fs 0 32 .ro 0 .a]⟩
/-- MEMC_PINb_LO (R359). -/
def sMEMC_PINb_LO : RegSpec := ⟨0x080, 8, 2, .lo, 96,
  [fs 0 32 .rw 0 .m]⟩
/-- MEMC_PINb_HI (R359). -/
def sMEMC_PINb_HI : RegSpec := ⟨0x084, 8, 2, .hi, 96,
  [fs 0 32 .rw 0 .m]⟩
/-- MEMC_SPAREb_k (R359). -/
def sMEMC_SPAREb_k : RegSpec := ⟨0x0A0, 4, 32, .one, 96,
  [fs 0 5 .rw 0 .m, fs 5 1 .rw 0 .m]⟩
def sCnt_memc0L : RegSpec := ⟨0xC00, 8, 11, .lo, 127, [fs 0 32 .ro 0 .d]⟩
def sCnt_memc0H : RegSpec := ⟨0xC04, 8, 11, .hi, 127, [fs 0 32 .ro 0 .d]⟩
/-- The registers of a memc page. -/
def regs_memc : List RegSpec :=
  [sMEMC_STATUS, sMEMC_TRAIN, sMEMC_TRAIN_FAIL, sMEMC_REC_SEL, sMEMC_REC_DATA, sMEMC_RECAL, sMEMC_SCRUB, sMEMC_GRANT_SEL, sMEMC_GRANT_DATA, sMEMC_SLICE_SEL, sMEMC_SLICE_CTL, sMEMC_SLICE_CLOSED] ++
  [sMEMC_PINb_LO, sMEMC_PINb_HI, sMEMC_SPAREb_k, sCnt_memc0L, sCnt_memc0H]

/-- BRDG_STATUS (R325). -/
def sBRDG_STATUS : RegSpec := ⟨0x040, 4, 1, .one, 127,
  [fs 0 4 .ro 15 .f, fs 4 4 .ro 15 .a]⟩
/-- BRDG_ACTIVE (R325). -/
def sBRDG_ACTIVE : RegSpec := ⟨0x044, 4, 1, .one, 127,
  [fs 0 4 .rw 15 .d, fs 4 4 .rw 15 .d]⟩
def sCnt_brdg0L : RegSpec := ⟨0xC00, 8, 4, .lo, 127, [fs 0 32 .ro 0 .d]⟩
def sCnt_brdg0H : RegSpec := ⟨0xC04, 8, 4, .hi, 127, [fs 0 32 .ro 0 .d]⟩
/-- The registers of a brdg page. -/
def regs_brdg : List RegSpec :=
  [sBRDG_STATUS, sBRDG_ACTIVE, sCnt_brdg0L, sCnt_brdg0H]

/-- GAUGE_SRC (R629). -/
def sGAUGE_SRC : RegSpec := ⟨0x040, 4, 1, .one, 127,
  [fs 0 7 .rw 0 .d, fs 8 8 .rw 255 .d, fs 16 10 .rw 1023 .d]⟩
/-- GAUGE_WIN (R629). -/
def sGAUGE_WIN : RegSpec := ⟨0x044, 4, 1, .one, 127,
  [fs 0 2 .rw 0 .d, fr 8 24 .rw 5000 .d 25 16777215 127]⟩
/-- GAUGE_CTX (R629). -/
def sGAUGE_CTX : RegSpec := ⟨0x048, 4, 1, .one, 127,
  [fs 0 10 .rw 0 .d]⟩
/-- GAUGE_PERIOD (R629). -/
def sGAUGE_PERIOD : RegSpec := ⟨0x04C, 4, 1, .one, 127,
  [fr 0 16 .rw 1800 .d 1 65535 127]⟩
/-- GAUGE_CSEL (R629). -/
def sGAUGE_CSEL : RegSpec := ⟨0x050, 4, 1, .one, 127,
  [fs 0 11 .rw 0 .d, fs 16 7 .rw 0 .d]⟩
/-- GAUGE_ALARM (R629). -/
def sGAUGE_ALARM : RegSpec := ⟨0x054, 4, 1, .one, 127,
  [fs 0 32 .rw 4294967295 .d]⟩
/-- GAUGE_CTL (R629). -/
def sGAUGE_CTL : RegSpec := ⟨0x058, 4, 1, .one, 127,
  [fs 0 1 .rw 0 .d, fs 1 1 .w1s 0 .v]⟩
/-- GAUGE_EDGEn (R629). -/
def sGAUGE_EDGEn : RegSpec := ⟨0x080, 4, 15, .one, 127,
  [fs 0 32 .rw 0 .d]⟩
/-- G_COUNT_LO (R630). -/
def sG_COUNT_LO : RegSpec := ⟨0x800, 4, 1, .lo, 127,
  [fs 0 32 .ro 0 .d]⟩
/-- G_COUNT_HI (R630). -/
def sG_COUNT_HI : RegSpec := ⟨0x804, 4, 1, .hi, 127,
  [fs 0 32 .ro 0 .d]⟩
/-- G_SUM_LO (R630). -/
def sG_SUM_LO : RegSpec := ⟨0x808, 4, 1, .lo, 127,
  [fs 0 32 .ro 0 .d]⟩
/-- G_SUM_HI (R630). -/
def sG_SUM_HI : RegSpec := ⟨0x80C, 4, 1, .hi, 127,
  [fs 0 32 .ro 0 .d]⟩
/-- G_MIN (R630). -/
def sG_MIN : RegSpec := ⟨0x810, 4, 1, .one, 127,
  [fs 0 32 .ro 4294967295 .d]⟩
/-- G_MAX (R630). -/
def sG_MAX : RegSpec := ⟨0x814, 4, 1, .one, 127,
  [fs 0 32 .ro 0 .d]⟩
/-- G_SEQ (R630). -/
def sG_SEQ : RegSpec := ⟨0x818, 4, 1, .one, 127,
  [fs 0 32 .ro 0 .d]⟩
/-- G_MILE (R630). -/
def sG_MILE : RegSpec := ⟨0x81C, 4, 1, .one, 127,
  [fs 0 32 .ro 0 .d]⟩
/-- G_TSTART_LO (R630). -/
def sG_TSTART_LO : RegSpec := ⟨0x820, 4, 1, .lo, 127,
  [fs 0 32 .ro 0 .d]⟩
/-- G_TSTART_HI (R630). -/
def sG_TSTART_HI : RegSpec := ⟨0x824, 4, 1, .hi, 127,
  [fs 0 32 .ro 0 .d]⟩
/-- G_TEND_LO (R630). -/
def sG_TEND_LO : RegSpec := ⟨0x828, 4, 1, .lo, 127,
  [fs 0 32 .ro 0 .d]⟩
/-- G_TEND_HI (R630). -/
def sG_TEND_HI : RegSpec := ⟨0x82C, 4, 1, .hi, 127,
  [fs 0 32 .ro 0 .d]⟩
/-- G_DROP (R630). -/
def sG_DROP : RegSpec := ⟨0x830, 4, 1, .one, 127,
  [fs 0 32 .ro 0 .d]⟩
/-- G_FLAGS (R630). -/
def sG_FLAGS : RegSpec := ⟨0x834, 4, 1, .one, 127,
  [fs 0 1 .ro 0 .d, fs 1 1 .ro 0 .d]⟩
/-- G_BINk (R630). -/
def sG_BINk : RegSpec := ⟨0x840, 4, 16, .one, 127,
  [fs 0 32 .ro 0 .d]⟩
/-- The registers of a gauge page. -/
def regs_gauge : List RegSpec :=
  [sGAUGE_SRC, sGAUGE_WIN, sGAUGE_CTX, sGAUGE_PERIOD, sGAUGE_CSEL, sGAUGE_ALARM, sGAUGE_CTL, sGAUGE_EDGEn, sG_COUNT_LO, sG_COUNT_HI, sG_SUM_LO, sG_SUM_HI] ++
  [sG_MIN, sG_MAX, sG_SEQ, sG_MILE, sG_TSTART_LO, sG_TSTART_HI, sG_TEND_LO, sG_TEND_HI, sG_DROP, sG_FLAGS, sG_BINk]

/-- HOST_STATUS (R609). -/
def sHOST_STATUS : RegSpec := ⟨0x040, 4, 1, .one, 127,
  [fs 0 3 .ro 0 .v, fs 3 3 .ro 0 .v, fs 6 1 .ro 0 .v,
   fs 8 7 .ro 0 .v, fs 16 4 .ro 6 .d]⟩
/-- HOST_BAR2_BASE_LO (R609). -/
def sHOST_BAR2_BASE_LO : RegSpec := ⟨0x044, 4, 1, .lo, 127,
  [fs 30 2 .rw 0 .d]⟩
/-- HOST_BAR2_BASE_HI (R609). -/
def sHOST_BAR2_BASE_HI : RegSpec := ⟨0x048, 4, 1, .hi, 127,
  [fs 0 8 .rw 0 .d]⟩
/-- HOST_EVENT (R609). -/
def sHOST_EVENT : RegSpec := ⟨0x04C, 4, 1, .one, 127,
  [fs 0 1 .rc 0 .d, fs 1 1 .rc 0 .d, fs 2 1 .rc 0 .d,
   fs 3 1 .rc 0 .d, fs 4 1 .rc 0 .d, fs 5 1 .rc 0 .d]⟩
/-- HOST_RING_SEL (R609). -/
def sHOST_RING_SEL : RegSpec := ⟨0x050, 4, 1, .one, 127,
  [fs 0 7 .rw 0 .v]⟩
/-- HOST_RING_CMD_LO (R609). -/
def sHOST_RING_CMD_LO : RegSpec := ⟨0x054, 4, 1, .lo, 127,
  [fs 0 32 .rw 0 .d]⟩
/-- HOST_RING_CMD_HI (R609). -/
def sHOST_RING_CMD_HI : RegSpec := ⟨0x058, 4, 1, .hi, 127,
  [fs 0 32 .rw 0 .d]⟩
/-- HOST_RING_CPL_LO (R609). -/
def sHOST_RING_CPL_LO : RegSpec := ⟨0x05C, 4, 1, .lo, 127,
  [fs 0 32 .rw 0 .d]⟩
/-- HOST_RING_CPL_HI (R609). -/
def sHOST_RING_CPL_HI : RegSpec := ⟨0x060, 4, 1, .hi, 127,
  [fs 0 32 .rw 0 .d]⟩
/-- HOST_RING_CFG (R609). -/
def sHOST_RING_CFG : RegSpec := ⟨0x064, 4, 1, .one, 127,
  [fr 0 4 .rw 4 .d 4 12 127, fs 4 1 .rw 0 .d, fs 16 11 .rw 0 .d]⟩
/-- HOST_RING_STAT (R609). -/
def sHOST_RING_STAT : RegSpec := ⟨0x068, 4, 1, .one, 127,
  [fs 0 16 .ro 0 .d, fs 16 2 .ro 0 .d, fs 24 7 .ro 0 .hw]⟩
/-- HOST_RING_CPLW (R609). -/
def sHOST_RING_CPLW : RegSpec := ⟨0x06C, 4, 1, .one, 127,
  [fs 0 16 .ro 0 .d, fs 16 16 .ro 0 .d]⟩
/-- HOST_EVCFG (R609). -/
def sHOST_EVCFG : RegSpec := ⟨0x070, 4, 1, .one, 127,
  [fs 0 11 .rw 0 .d, fs 16 6 .rw 63 .d]⟩
/-- HOST_MBOX_IN (R609). -/
def sHOST_MBOX_IN : RegSpec := ⟨0x080, 4, 4, .one, 127,
  [fs 0 32 .wo 0 .v]⟩
/-- HOST_MBOX_OUT (R609). -/
def sHOST_MBOX_OUT : RegSpec := ⟨0x090, 4, 4, .one, 127,
  [fs 0 32 .rc 0 .v]⟩
/-- HOST_DBn (R609). -/
def sHOST_DBn : RegSpec := ⟨0x400, 4, 64, .one, 127,
  [fs 0 16 .wo 0 .v, fs 16 16 .wo 0 .v]⟩
/-- The registers of a host page. -/
def regs_host : List RegSpec :=
  [sHOST_STATUS, sHOST_BAR2_BASE_LO, sHOST_BAR2_BASE_HI, sHOST_EVENT, sHOST_RING_SEL, sHOST_RING_CMD_LO, sHOST_RING_CMD_HI, sHOST_RING_CPL_LO, sHOST_RING_CPL_HI, sHOST_RING_CFG, sHOST_RING_STAT, sHOST_RING_CPLW] ++
  [sHOST_EVCFG, sHOST_MBOX_IN, sHOST_MBOX_OUT, sHOST_DBn]

/-- MGMT_STATUS (R610). -/
def sMGMT_STATUS : RegSpec := ⟨0x040, 4, 1, .one, 127,
  [fs 0 7 .ro 0 .d, fs 7 1 .ro 0 .d, fs 8 8 .ro 0 .d,
   fs 16 3 .ro 0 .d, fs 19 1 .ro 0 .d]⟩
/-- The registers of a mgmt page. -/
def regs_mgmt : List RegSpec :=
  [sMGMT_STATUS]

/-- AUTH_STATUS (R611). -/
def sAUTH_STATUS : RegSpec := ⟨0x040, 4, 1, .one, 127,
  [fs 0 1 .ro 0 .f, fs 1 1 .ro 0 .f, fs 2 1 .ro 0 .a,
   fs 4 2 .ro 0 .m]⟩
/-- AUTH_DBG_LOCK (R611). -/
def sAUTH_DBG_LOCK : RegSpec := ⟨0x044, 4, 1, .one, 68,
  [fs 0 1 .w1s 0 .a]⟩
/-- AUTH_VF_SEL (R611). -/
def sAUTH_VF_SEL : RegSpec := ⟨0x048, 4, 1, .one, 127,
  [fs 0 6 .rw 0 .v]⟩
/-- AUTH_VF_BIND (R611). -/
def sAUTH_VF_BIND : RegSpec := ⟨0x04C, 4, 1, .one, 96,
  [fs 0 16 .rw 0 .d, fs 16 1 .rw 0 .d]⟩
/-- The registers of a auth page. -/
def regs_auth : List RegSpec :=
  [sAUTH_STATUS, sAUTH_DBG_LOCK, sAUTH_VF_SEL, sAUTH_VF_BIND]

/-- FUSE_VAL (R612). -/
def sFUSE_VAL : RegSpec := ⟨0x040, 4, 1, .one, 127,
  [fs 0 1 .ro 0 .f, fs 1 1 .ro 0 .f, fs 4 4 .ro 0 .f]⟩
/-- FUSE_SVN (R612). -/
def sFUSE_SVN : RegSpec := ⟨0x044, 4, 1, .one, 127,
  [fs 0 32 .ro 0 .f]⟩
/-- FUSE_SERIAL_LO (R612). -/
def sFUSE_SERIAL_LO : RegSpec := ⟨0x048, 4, 1, .lo, 127,
  [fs 0 32 .ro 0 .f]⟩
/-- FUSE_SERIAL_HI (R612). -/
def sFUSE_SERIAL_HI : RegSpec := ⟨0x04C, 4, 1, .hi, 127,
  [fs 0 32 .ro 0 .f]⟩
/-- FUSE_ARM (R612). -/
def sFUSE_ARM : RegSpec := ⟨0x050, 4, 1, .one, 36,
  [fs 0 32 .wo 0 .v]⟩
/-- FUSE_CMD (R612). -/
def sFUSE_CMD : RegSpec := ⟨0x054, 4, 1, .one, 36,
  [fs 0 4 .wo 0 .v, fs 4 2 .wo 0 .v, fs 31 1 .wo 0 .v]⟩
/-- FUSE_STAT (R612). -/
def sFUSE_STAT : RegSpec := ⟨0x058, 4, 1, .one, 127,
  [fs 0 1 .ro 0 .v, fs 1 1 .ro 0 .v, fs 8 8 .ro 0 .v]⟩
/-- The registers of a fuse page. -/
def regs_fuse : List RegSpec :=
  [sFUSE_VAL, sFUSE_SVN, sFUSE_SERIAL_LO, sFUSE_SERIAL_HI, sFUSE_ARM, sFUSE_CMD, sFUSE_STAT]

/-- AON_RST_CAUSE (R522). -/
def sAON_RST_CAUSE : RegSpec := ⟨0x040, 4, 1, .one, 127,
  [fs 0 8 .ro 0 .a, fs 8 8 .ro 0 .a]⟩
/-- AON_DIE_CAUSE0 (R522). -/
def sAON_DIE_CAUSE0 : RegSpec := ⟨0x044, 4, 1, .one, 127,
  [fs 0 4 .ro 0 .a, fs 4 4 .ro 0 .a, fs 8 4 .ro 0 .a,
   fs 12 4 .ro 0 .a, fs 16 4 .ro 0 .a, fs 20 4 .ro 0 .a,
   fs 24 4 .ro 0 .a, fs 28 4 .ro 0 .a]⟩
/-- AON_DIE_CAUSE1 (R522). -/
def sAON_DIE_CAUSE1 : RegSpec := ⟨0x048, 4, 1, .one, 127,
  [fs 0 4 .ro 0 .a, fs 4 4 .ro 0 .a, fs 8 4 .ro 0 .a]⟩
/-- AON_RST_CTL (R522). -/
def sAON_RST_CTL : RegSpec := ⟨0x04C, 4, 1, .one, 100,
  [fs 0 2 .wo 0 .v, fs 4 4 .wo 0 .v, fs 31 1 .wo 0 .v]⟩
/-- AON_RST_STAT (R522). -/
def sAON_RST_STAT : RegSpec := ⟨0x050, 4, 1, .one, 127,
  [fs 0 1 .ro 0 .a, fs 8 8 .ro 0 .a]⟩
/-- AON_HWDOG (R522). -/
def sAON_HWDOG : RegSpec := ⟨0x054, 4, 1, .one, 127,
  [fs 0 16 .rw 100 .m]⟩
/-- AON_HWDOG_KICK (R522). -/
def sAON_HWDOG_KICK : RegSpec := ⟨0x058, 4, 1, .one, 127,
  [fs 0 1 .wo 0 .v]⟩
/-- AON_RECOVERY (R522). -/
def sAON_RECOVERY : RegSpec := ⟨0x05C, 4, 1, .one, 127,
  [fs 0 3 .rw 2 .m, fs 3 1 .rw 0 .m, fr 8 8 .rw 5 .m 1 255 127]⟩
/-- AON_DRAIN (R522). -/
def sAON_DRAIN : RegSpec := ⟨0x060, 4, 1, .one, 127,
  [fr 0 20 .rw 2000 .m 200 1000000 127]⟩
/-- AON_RST_CLR (R522). -/
def sAON_RST_CLR : RegSpec := ⟨0x064, 4, 1, .one, 100,
  [fs 0 1 .wo 0 .v]⟩
/-- AON_READY (R543). -/
def sAON_READY : RegSpec := ⟨0x100, 4, 1, .one, 127,
  [fs 0 1 .ro 0 .m, fs 1 4 .ro 0 .m, fs 5 1 .ro 0 .m,
   fs 6 1 .ro 0 .m, fs 7 1 .ro 0 .m, fs 8 2 .ro 0 .m]⟩
/-- AON_START_CFG (R543). -/
def sAON_START_CFG : RegSpec := ⟨0x104, 4, 1, .one, 100,
  [fs 0 1 .rw 0 .a, fs 1 1 .rw 0 .a, fs 2 1 .rw 0 .a,
   fs 3 1 .rw 0 .a, fr 4 6 .rw 32 .a 0 36 127, fr 10 3 .rw 2 .a 0 4 127]⟩
/-- AON_START_STAT (R543). -/
def sAON_START_STAT : RegSpec := ⟨0x108, 4, 1, .one, 127,
  [fs 0 1 .ro 0 .m, fs 1 1 .ro 0 .m, fs 2 1 .ro 0 .m,
   fs 8 5 .ro 0 .m, fs 16 6 .ro 0 .m, fs 24 1 .ro 0 .m,
   fs 25 1 .ro 0 .m]⟩
/-- AON_STEP_T (R543). -/
def sAON_STEP_T : RegSpec := ⟨0x110, 4, 8, .one, 127,
  [fs 0 28 .ro 0 .m]⟩
/-- AON_GRADE_IN0 (R543). -/
def sAON_GRADE_IN0 : RegSpec := ⟨0x130, 4, 1, .one, 127,
  [fs 0 8 .ro 0 .m, fs 8 2 .ro 0 .m, fs 10 4 .ro 0 .m,
   fs 16 5 .ro 0 .m, fs 24 3 .ro 0 .m]⟩
/-- AON_GRADE_IN1 (R543). -/
def sAON_GRADE_IN1 : RegSpec := ⟨0x134, 4, 1, .one, 127,
  [fs 0 6 .ro 0 .m, fs 8 3 .ro 0 .m, fs 16 6 .ro 0 .m]⟩
/-- AON_GOOD0 (R543). -/
def sAON_GOOD0 : RegSpec := ⟨0x138, 4, 1, .one, 127,
  [fs 0 8 .ro 0 .m, fs 8 8 .ro 0 .m, fs 16 8 .ro 0 .m,
   fs 24 8 .ro 0 .m]⟩
/-- AON_GOOD1 (R543). -/
def sAON_GOOD1 : RegSpec := ⟨0x13C, 4, 1, .one, 127,
  [fs 0 8 .ro 0 .m, fs 8 8 .ro 0 .m, fs 16 8 .ro 0 .m,
   fs 24 8 .ro 0 .m]⟩
/-- AON_GRADE_WHY (R543). -/
def sAON_GRADE_WHY : RegSpec := ⟨0x140, 4, 1, .one, 127,
  [fs 0 1 .ro 0 .m, fs 1 1 .ro 0 .m, fs 2 1 .ro 0 .m,
   fs 3 1 .ro 0 .m, fs 4 1 .ro 0 .m, fs 5 1 .ro 0 .m,
   fs 6 1 .ro 0 .m, fs 7 1 .ro 0 .m, fs 8 1 .ro 0 .m,
   fs 9 1 .ro 0 .m, fs 10 1 .ro 0 .m, fs 11 1 .ro 0 .m,
   fs 12 1 .ro 0 .m]⟩
/-- AON_TK_PROG (R543). -/
def sAON_TK_PROG : RegSpec := ⟨0x144, 4, 1, .one, 127,
  [fs 0 11 .ro 0 .m, fs 16 11 .ro 0 .m]⟩
def sCnt_aon0L : RegSpec := ⟨0xC00, 8, 7, .lo, 127, [fs 0 32 .ro 0 .d]⟩
def sCnt_aon0H : RegSpec := ⟨0xC04, 8, 7, .hi, 127, [fs 0 32 .ro 0 .d]⟩
/-- The registers of a aon page. -/
def regs_aon : List RegSpec :=
  [sAON_RST_CAUSE, sAON_DIE_CAUSE0, sAON_DIE_CAUSE1, sAON_RST_CTL, sAON_RST_STAT, sAON_HWDOG, sAON_HWDOG_KICK, sAON_RECOVERY, sAON_DRAIN, sAON_RST_CLR, sAON_READY, sAON_START_CFG] ++
  [sAON_START_STAT, sAON_STEP_T, sAON_GRADE_IN0, sAON_GRADE_IN1, sAON_GOOD0, sAON_GOOD1, sAON_GRADE_WHY, sAON_TK_PROG, sCnt_aon0L, sCnt_aon0H]

/-- CLK_STATUS (R570). -/
def sCLK_STATUS : RegSpec := ⟨0x040, 4, 1, .one, 127,
  [fs 0 1 .ro 0 .v, fs 1 1 .ro 0 .d, fs 2 1 .ro 0 .v,
   fs 3 1 .ro 0 .d, fs 4 1 .ro 0 .v, fs 5 1 .ro 0 .a,
   fs 6 1 .ro 0 .a, fs 7 1 .ro 1 .a]⟩
/-- CLK_CTL (R570). -/
def sCLK_CTL : RegSpec := ⟨0x044, 4, 1, .one, 96,
  [fs 0 1 .w1s 0 .v, fs 1 1 .w1s 0 .v]⟩
/-- CLK_XMEAS (R570). -/
def sCLK_XMEAS : RegSpec := ⟨0x048, 4, 1, .one, 127,
  [fs 0 16 .ro 0 .v, fs 16 8 .ro 0 .v]⟩
/-- CLK_RCTRIM (R570). -/
def sCLK_RCTRIM : RegSpec := ⟨0x04C, 4, 1, .one, 127,
  [fs 0 8 .ro 0 .f]⟩
def sCnt_clk0L : RegSpec := ⟨0xC00, 8, 1, .lo, 127, [fs 0 32 .ro 0 .d]⟩
def sCnt_clk0H : RegSpec := ⟨0xC04, 8, 1, .hi, 127, [fs 0 32 .ro 0 .d]⟩
/-- The registers of a clk page. -/
def regs_clk : List RegSpec :=
  [sCLK_STATUS, sCLK_CTL, sCLK_XMEAS, sCLK_RCTRIM, sCnt_clk0L, sCnt_clk0H]

/-- PWR_STATUS (R571). -/
def sPWR_STATUS : RegSpec := ⟨0x040, 4, 1, .one, 127,
  [fs 0 2 .ro 0 .hw, fs 2 4 .ro 6 .hw, fs 6 1 .ro 0 .v,
   fs 8 8 .ro 0 .v, fs 16 7 .ro 88 .v]⟩
/-- PWR_DIE_CTL (R571). -/
def sPWR_DIE_CTL : RegSpec := ⟨0x044, 4, 1, .one, 127,
  [fs 0 1 .rw 0 .d, fr 8 16 .rw 100 .d 10 65535 127]⟩
/-- PWR_THERM (R571). -/
def sPWR_THERM : RegSpec := ⟨0x048, 4, 1, .one, 127,
  [fr 0 7 .rw 100 .d 70 105 127]⟩
/-- PWR_TEMP_SEL (R571). -/
def sPWR_TEMP_SEL : RegSpec := ⟨0x04C, 4, 1, .one, 127,
  [fs 0 6 .rw 0 .v]⟩
/-- PWR_TEMP (R571). -/
def sPWR_TEMP : RegSpec := ⟨0x050, 4, 1, .one, 127,
  [fs 0 8 .ro 0 .v]⟩
/-- PWR_LIMIT (R571). -/
def sPWR_LIMIT : RegSpec := ⟨0x080, 4, 1, .one, 100,
  [fr 0 12 .rw 3600 .a 1500 3600 127]⟩
/-- PWR_MEAS (R571). -/
def sPWR_MEAS : RegSpec := ⟨0x084, 4, 1, .one, 127,
  [fs 0 12 .ro 0 .v, fs 16 9 .ro 0 .v]⟩
/-- PWR_LIM_CTL (R571). -/
def sPWR_LIM_CTL : RegSpec := ⟨0x088, 4, 1, .one, 127,
  [fs 0 1 .rw 1 .a, fr 8 8 .rw 150 .a 50 255 127, fr 16 7 .rw 32 .a 16 72 127]⟩
/-- PWR_LIM_STAT (R571). -/
def sPWR_LIM_STAT : RegSpec := ⟨0x08C, 4, 1, .one, 127,
  [fs 0 7 .ro 72 .v, fs 7 1 .ro 0 .v, fs 8 1 .ro 0 .v,
   fs 9 1 .ro 0 .v]⟩
/-- PWR_STBY (R571). -/
def sPWR_STBY : RegSpec := ⟨0x090, 4, 1, .one, 100,
  [fs 0 1 .wo 0 .v]⟩
/-- PWR_ALERT (R571). -/
def sPWR_ALERT : RegSpec := ⟨0x094, 4, 1, .one, 100,
  [fs 0 1 .rw 1 .a, fs 1 1 .rw 1 .a, fs 2 1 .rw 1 .a,
   fs 3 1 .rw 1 .a, fs 4 1 .rw 0 .a]⟩
def sCnt_pwr0L : RegSpec := ⟨0xC00, 8, 5, .lo, 127, [fs 0 32 .ro 0 .d]⟩
def sCnt_pwr0H : RegSpec := ⟨0xC04, 8, 5, .hi, 127, [fs 0 32 .ro 0 .d]⟩
/-- The registers of a pwr page. -/
def regs_pwr : List RegSpec :=
  [sPWR_STATUS, sPWR_DIE_CTL, sPWR_THERM, sPWR_TEMP_SEL, sPWR_TEMP, sPWR_LIMIT, sPWR_MEAS, sPWR_LIM_CTL, sPWR_LIM_STAT, sPWR_STBY, sPWR_ALERT, sCnt_pwr0L] ++
  [sCnt_pwr0H]

/-- SIGN_STATUS (R324). -/
def sSIGN_STATUS : RegSpec := ⟨0x040, 4, 1, .one, 127,
  [fs 0 1 .ro 0 .d, fs 1 1 .ro 0 .v, fs 2 1 .ro 0 .v,
   fs 3 1 .ro 0 .d, fs 4 1 .ro 1 .d, fs 5 6 .ro 0 .v]⟩
/-- SIGN_SELF (R324). -/
def sSIGN_SELF : RegSpec := ⟨0x044, 4, 1, .one, 127,
  [fs 0 10 .rw 0 .m]⟩
/-- SIGN_TBL_LO (R324). -/
def sSIGN_TBL_LO : RegSpec := ⟨0x048, 4, 1, .lo, 127,
  [fs 25 7 .rw 0 .m]⟩
/-- SIGN_TBL_HI (R324). -/
def sSIGN_TBL_HI : RegSpec := ⟨0x04C, 4, 1, .hi, 127,
  [fs 0 8 .rw 0 .m]⟩
/-- SIGN_FLIP (R324). -/
def sSIGN_FLIP : RegSpec := ⟨0x050, 4, 1, .one, 127,
  [fs 0 1 .wo 0 .v, fs 1 1 .wo 0 .v]⟩
/-- SIGN_INVAL (R324). -/
def sSIGN_INVAL : RegSpec := ⟨0x054, 4, 1, .one, 127,
  [fs 0 22 .wo 0 .v, fr 22 5 .wo 0 .v 0 22 127, fs 27 1 .wo 0 .v,
   fs 31 1 .wo 0 .v]⟩
/-- SIGN_EPCTL (R324). -/
def sSIGN_EPCTL : RegSpec := ⟨0x058, 4, 1, .one, 127,
  [fs 0 1 .w1s 0 .d, fs 1 1 .w1s 1 .d]⟩
/-- SIGN_EPSUM0 (R324). -/
def sSIGN_EPSUM0 : RegSpec := ⟨0x05C, 4, 1, .one, 127,
  [fs 0 32 .ro 0 .v]⟩
/-- SIGN_EPSUM1 (R324). -/
def sSIGN_EPSUM1 : RegSpec := ⟨0x060, 4, 1, .one, 127,
  [fs 0 32 .ro 0 .v]⟩
/-- SIGN_DRT0 (R324). -/
def sSIGN_DRT0 : RegSpec := ⟨0x080, 4, 11, .one, 127,
  [fs 0 2 .rw 0 .d, fs 2 2 .rw 0 .d, fs 4 1 .rw 0 .d]⟩
/-- SIGN_DRT1 (R324). -/
def sSIGN_DRT1 : RegSpec := ⟨0x0C0, 4, 11, .one, 127,
  [fs 0 2 .rw 0 .d, fs 2 2 .rw 0 .d, fs 4 1 .rw 0 .d]⟩
def sCnt_sign0L : RegSpec := ⟨0xC00, 8, 5, .lo, 127, [fs 0 32 .ro 0 .d]⟩
def sCnt_sign0H : RegSpec := ⟨0xC04, 8, 5, .hi, 127, [fs 0 32 .ro 0 .d]⟩
/-- The registers of a sign page. -/
def regs_sign : List RegSpec :=
  [sSIGN_STATUS, sSIGN_SELF, sSIGN_TBL_LO, sSIGN_TBL_HI, sSIGN_FLIP, sSIGN_INVAL, sSIGN_EPCTL, sSIGN_EPSUM0, sSIGN_EPSUM1, sSIGN_DRT0, sSIGN_DRT1, sCnt_sign0L] ++
  [sCnt_sign0H]

/-- HEAL_STATUS (R464). -/
def sHEAL_STATUS : RegSpec := ⟨0x040, 4, 1, .one, 127,
  [fs 0 9 .ro 0 .d, fs 16 8 .ro 0 .m]⟩
/-- HEAL_LADDER (R464). -/
def sHEAL_LADDER : RegSpec := ⟨0x044, 4, 1, .one, 100,
  [fr 0 4 .rw 2 .d 1 15 127, fr 4 4 .rw 4 .d 2 15 127, fr 8 4 .rw 2 .d 1 4 127,
   fr 12 5 .rw 12 .d 0 24 127, fs 17 1 .rw 1 .d, fs 18 1 .rw 1 .d,
   fs 19 1 .rw 1 .d]⟩
/-- HEAL_WINDOW (R464). -/
def sHEAL_WINDOW : RegSpec := ⟨0x048, 4, 1, .one, 100,
  [fr 0 16 .rw 1000 .d 10 65535 127, fr 16 16 .rw 10 .d 1 65535 127]⟩
/-- HEAL_CSEL (R464). -/
def sHEAL_CSEL : RegSpec := ⟨0x04C, 4, 1, .one, 127,
  [fr 0 8 .rw 0 .v 0 143 127]⟩
/-- HEAL_CSTAT (R464). -/
def sHEAL_CSTAT : RegSpec := ⟨0x050, 4, 1, .one, 127,
  [fs 0 4 .ro 0 .v, fs 4 5 .ro 0 .v, fs 9 2 .ro 0 .v,
   fs 11 1 .ro 0 .v, fs 12 1 .ro 0 .v, fs 13 1 .ro 0 .v]⟩
/-- HEAL_CCTL (R464). -/
def sHEAL_CCTL : RegSpec := ⟨0x054, 4, 1, .one, 100,
  [fs 0 8 .wo 0 .v, fs 8 1 .wo 0 .v, fs 9 1 .wo 0 .v]⟩
/-- HEAL_RWREQn (R464). -/
def sHEAL_RWREQn : RegSpec := ⟨0x060, 4, 5, .one, 127,
  [fs 0 32 .ro 0 .m]⟩
/-- HEAL_PAIR_LO (R464). -/
def sHEAL_PAIR_LO : RegSpec := ⟨0x078, 4, 1, .one, 100,
  [fs 0 32 .rw 0 .d]⟩
/-- HEAL_PAIR_HI (R464). -/
def sHEAL_PAIR_HI : RegSpec := ⟨0x07C, 4, 1, .one, 100,
  [fs 0 4 .rw 0 .d]⟩
/-- HEAL_LOG0 (R464). -/
def sHEAL_LOG0 : RegSpec := ⟨0x080, 4, 1, .one, 127,
  [fs 0 32 .ro 0 .d]⟩
/-- HEAL_LOG1 (R464). -/
def sHEAL_LOG1 : RegSpec := ⟨0x084, 4, 1, .one, 127,
  [fs 0 16 .ro 0 .d, fs 16 8 .ro 0 .d, fs 24 8 .ro 0 .d]⟩
/-- HEAL_LOG2 (R464). -/
def sHEAL_LOG2 : RegSpec := ⟨0x088, 4, 1, .one, 127,
  [fs 0 8 .ro 0 .d, fs 8 8 .ro 0 .d, fs 16 16 .ro 0 .d]⟩
/-- HEAL_LOG3 (R464). -/
def sHEAL_LOG3 : RegSpec := ⟨0x08C, 4, 1, .one, 127,
  [fs 0 16 .ro 0 .d, fs 16 3 .rc 0 .d, fs 31 1 .rc 0 .d]⟩
def sCnt_heal0L : RegSpec := ⟨0xC00, 8, 9, .lo, 127, [fs 0 32 .ro 0 .d]⟩
def sCnt_heal0H : RegSpec := ⟨0xC04, 8, 9, .hi, 127, [fs 0 32 .ro 0 .d]⟩
/-- The registers of a heal page. -/
def regs_heal : List RegSpec :=
  [sHEAL_STATUS, sHEAL_LADDER, sHEAL_WINDOW, sHEAL_CSEL, sHEAL_CSTAT, sHEAL_CCTL, sHEAL_RWREQn, sHEAL_PAIR_LO, sHEAL_PAIR_HI, sHEAL_LOG0, sHEAL_LOG1, sHEAL_LOG2] ++
  [sHEAL_LOG3, sCnt_heal0L, sCnt_heal0H]

/-- HEAL_HSTATUS (R491). -/
def sHEAL_HSTATUS : RegSpec := ⟨0x040, 4, 1, .one, 127,
  [fs 0 1 .ro 0 .v, fs 1 1 .ro 0 .a, fs 2 1 .ro 0 .a,
   fs 3 1 .ro 0 .v, fs 4 5 .ro 0 .v, fs 9 5 .ro 0 .v]⟩
/-- HEAL_CLOSE (R491). -/
def sHEAL_CLOSE : RegSpec := ⟨0x044, 4, 1, .one, 100,
  [fs 0 4 .wo 0 .v, fs 4 4 .wo 0 .v, fs 8 8 .wo 0 .v,
   fs 16 6 .wo 0 .v, fs 22 1 .wo 0 .v, fs 23 1 .wo 0 .v,
   fs 31 1 .wo 0 .v]⟩
/-- HEAL_CLOSE_STAT (R491). -/
def sHEAL_CLOSE_STAT : RegSpec := ⟨0x048, 4, 1, .one, 127,
  [fs 0 8 .ro 0 .v]⟩
/-- HEAL_CMAP_SEL (R491). -/
def sHEAL_CMAP_SEL : RegSpec := ⟨0x04C, 4, 1, .one, 127,
  [fr 0 12 .rw 0 .v 0 2815 127]⟩
/-- HEAL_CMAP_DATA (R491). -/
def sHEAL_CMAP_DATA : RegSpec := ⟨0x050, 4, 1, .one, 127,
  [fs 0 32 .ro 0 .a]⟩
/-- HEAL_CMAP_FUSE (R491). -/
def sHEAL_CMAP_FUSE : RegSpec := ⟨0x054, 4, 1, .one, 127,
  [fs 0 32 .ro 0 .f]⟩
/-- HEAL_MAPSEQ (R491). -/
def sHEAL_MAPSEQ : RegSpec := ⟨0x058, 4, 1, .one, 127,
  [fs 0 32 .ro 0 .a]⟩
/-- HEAL_RWCFG (R491). -/
def sHEAL_RWCFG : RegSpec := ⟨0x060, 4, 1, .one, 127,
  [fs 0 1 .rw 1 .m, fr 1 2 .rw 2 .m 0 2 127, fr 16 16 .rw 8 .m 1 65535 127]⟩
/-- HEAL_FREEZE (R491). -/
def sHEAL_FREEZE : RegSpec := ⟨0x064, 4, 1, .one, 127,
  [fr 0 14 .rw 512 .m 0 8192 127]⟩
/-- HEAL_MARGIN (R491). -/
def sHEAL_MARGIN : RegSpec := ⟨0x068, 4, 1, .one, 127,
  [fr 0 4 .rw 6 .m 2 15 127, fr 4 6 .rw 24 .m 1 40 127]⟩
/-- HEAL_POOL_SEL (R491). -/
def sHEAL_POOL_SEL : RegSpec := ⟨0x06C, 4, 1, .one, 127,
  [fs 0 3 .rw 0 .v]⟩
/-- HEAL_POOL (R491). -/
def sHEAL_POOL : RegSpec := ⟨0x070, 4, 1, .one, 127,
  [fs 0 8 .ro 0 .hw, fs 8 8 .ro 0 .hw, fs 16 8 .ro 0 .hw,
   fs 24 8 .ro 0 .hw]⟩
/-- HEAL_SLOTS (R491). -/
def sHEAL_SLOTS : RegSpec := ⟨0x074, 4, 1, .one, 127,
  [fs 0 2 .ro 0 .v, fs 2 2 .ro 0 .v, fs 4 2 .ro 0 .v,
   fs 6 2 .ro 0 .v, fs 8 2 .ro 0 .v, fs 10 2 .ro 0 .v,
   fs 12 2 .ro 0 .v, fs 14 2 .ro 0 .v]⟩
/-- HEAL_CALCFG (R491). -/
def sHEAL_CALCFG : RegSpec := ⟨0x078, 4, 1, .one, 127,
  [fs 0 1 .rw 1 .m, fs 1 1 .rw 1 .m, fs 2 1 .rw 1 .m,
   fr 8 8 .rw 60 .m 20 255 127]⟩
/-- HEAL_MV_SEL (R491). -/
def sHEAL_MV_SEL : RegSpec := ⟨0x080, 4, 1, .one, 127,
  [fs 0 3 .rw 0 .v, fs 3 1 .rw 0 .v]⟩
/-- HEAL_MV_SRC (R491). -/
def sHEAL_MV_SRC : RegSpec := ⟨0x084, 4, 1, .one, 127,
  [fs 0 4 .rw 0 .v, fs 4 8 .rw 0 .v]⟩
/-- HEAL_MV_DST (R491). -/
def sHEAL_MV_DST : RegSpec := ⟨0x088, 4, 1, .one, 127,
  [fs 0 4 .rw 0 .v, fs 4 8 .rw 0 .v]⟩
/-- HEAL_MV_CTL (R491). -/
def sHEAL_MV_CTL : RegSpec := ⟨0x08C, 4, 1, .one, 127,
  [fs 0 1 .w1s 0 .v, fs 1 1 .w1s 0 .v, fs 2 1 .rw 0 .v,
   fr 8 4 .rw 4 .v 1 15 127]⟩
/-- HEAL_MV_STAT (R491). -/
def sHEAL_MV_STAT : RegSpec := ⟨0x090, 4, 1, .one, 127,
  [fs 0 3 .ro 0 .v, fs 8 8 .ro 0 .v, fs 16 16 .ro 0 .v]⟩
/-- HEAL_MV_PASSES (R491). -/
def sHEAL_MV_PASSES : RegSpec := ⟨0x094, 4, 1, .one, 127,
  [fs 0 16 .ro 0 .v]⟩
/-- HEAL_RWLOG0 (R491). -/
def sHEAL_RWLOG0 : RegSpec := ⟨0x0A0, 4, 1, .one, 127,
  [fs 0 4 .ro 0 .d, fs 4 8 .ro 0 .d, fs 12 3 .ro 0 .d,
   fs 15 1 .ro 0 .d, fs 16 16 .ro 0 .d]⟩
/-- HEAL_RWLOG1 (R491). -/
def sHEAL_RWLOG1 : RegSpec := ⟨0x0A4, 4, 1, .one, 127,
  [fs 0 8 .ro 0 .d, fs 8 8 .ro 0 .d, fs 16 8 .ro 0 .d]⟩
/-- HEAL_RWLOG2 (R491). -/
def sHEAL_RWLOG2 : RegSpec := ⟨0x0A8, 4, 1, .one, 127,
  [fs 0 16 .ro 0 .d, fs 16 16 .ro 0 .d]⟩
/-- HEAL_RWLOG3 (R491). -/
def sHEAL_RWLOG3 : RegSpec := ⟨0x0AC, 4, 1, .one, 127,
  [fs 0 31 .ro 0 .d, fs 31 1 .rc 0 .d]⟩
/-- HEAL_THRESH0 (R492). -/
def sHEAL_THRESH0 : RegSpec := ⟨0x0B0, 4, 1, .one, 127,
  [fr 0 16 .rw 64 .m 1 65535 127, fr 16 16 .rw 1000 .m 1 65535 127]⟩
/-- HEAL_THRESH1 (R492). -/
def sHEAL_THRESH1 : RegSpec := ⟨0x0B4, 4, 1, .one, 127,
  [fr 0 8 .rw 16 .m 1 255 127, fr 8 4 .rw 3 .m 1 15 127, fr 16 8 .rw 1 .m 1 255 127,
   fs 24 8 .rw 24 .m]⟩
/-- HEAL_HLOG0 (R492). -/
def sHEAL_HLOG0 : RegSpec := ⟨0x0C0, 4, 1, .one, 127,
  [fs 0 32 .ro 0 .d]⟩
/-- HEAL_HLOG1 (R492). -/
def sHEAL_HLOG1 : RegSpec := ⟨0x0C4, 4, 1, .one, 127,
  [fs 0 16 .ro 0 .d, fs 16 8 .ro 0 .d, fs 24 8 .ro 0 .d]⟩
/-- HEAL_HLOG2 (R492). -/
def sHEAL_HLOG2 : RegSpec := ⟨0x0C8, 4, 1, .one, 127,
  [fs 0 8 .ro 0 .d, fs 8 8 .ro 0 .d, fs 16 16 .ro 0 .d]⟩
/-- HEAL_HLOG3 (R492). -/
def sHEAL_HLOG3 : RegSpec := ⟨0x0CC, 4, 1, .one, 127,
  [fs 0 16 .ro 0 .d, fs 16 3 .rc 0 .d, fs 19 4 .ro 0 .d,
   fs 31 1 .rc 0 .d]⟩
def sCnt_healHub0L : RegSpec := ⟨0xC00, 8, 14, .lo, 127, [fs 0 32 .ro 0 .d]⟩
def sCnt_healHub0H : RegSpec := ⟨0xC04, 8, 14, .hi, 127, [fs 0 32 .ro 0 .d]⟩
/-- The registers of a healHub page. -/
def regs_healHub : List RegSpec :=
  [sHEAL_HSTATUS, sHEAL_CLOSE, sHEAL_CLOSE_STAT, sHEAL_CMAP_SEL, sHEAL_CMAP_DATA, sHEAL_CMAP_FUSE, sHEAL_MAPSEQ, sHEAL_RWCFG, sHEAL_FREEZE, sHEAL_MARGIN, sHEAL_POOL_SEL, sHEAL_POOL] ++
  [sHEAL_SLOTS, sHEAL_CALCFG, sHEAL_MV_SEL, sHEAL_MV_SRC, sHEAL_MV_DST, sHEAL_MV_CTL, sHEAL_MV_STAT, sHEAL_MV_PASSES, sHEAL_RWLOG0, sHEAL_RWLOG1, sHEAL_RWLOG2, sHEAL_RWLOG3] ++
  [sHEAL_THRESH0, sHEAL_THRESH1, sHEAL_HLOG0, sHEAL_HLOG1, sHEAL_HLOG2, sHEAL_HLOG3, sCnt_healHub0L, sCnt_healHub0H]

/-- PORT_STATUS (R397). -/
def sPORT_STATUS : RegSpec := ⟨0x040, 4, 1, .one, 127,
  [fs 0 4 .ro 0 .v, fs 4 1 .ro 0 .v, fs 5 1 .ro 0 .v,
   fs 6 1 .ro 0 .v, fs 7 1 .ro 0 .v]⟩
/-- PORT_CTL (R397). -/
def sPORT_CTL : RegSpec := ⟨0x044, 4, 1, .one, 127,
  [fr 0 1 .rw 0 .d 0 1 96, fr 1 1 .w1s 0 .v 0 1 96, fr 2 1 .rw 0 .d 0 1 96,
   fr 3 1 .rw 0 .a 0 1 36, fr 4 1 .rw 1 .d 0 1 96]⟩
/-- PORT_PEER (R397). -/
def sPORT_PEER : RegSpec := ⟨0x048, 4, 1, .one, 127,
  [fs 0 10 .ro 0 .v, fs 10 6 .ro 0 .v, fs 16 1 .ro 0 .v,
   fs 17 1 .ro 0 .v]⟩
/-- PORT_EXPECT (R397). -/
def sPORT_EXPECT : RegSpec := ⟨0x04C, 4, 1, .one, 96,
  [fs 0 10 .rw 0 .m, fr 10 6 .rw 0 .m 0 39 127, fs 16 1 .rw 0 .m]⟩
/-- PORT_LMAP_TX (R397). -/
def sPORT_LMAP_TX : RegSpec := ⟨0x050, 4, 1, .one, 127,
  [fs 0 4 .ro 15 .v, fs 4 4 .ro 15 .v, fs 8 4 .ro 15 .v,
   fs 12 4 .ro 15 .v, fs 16 4 .ro 15 .v, fs 20 4 .ro 15 .v,
   fs 24 4 .ro 15 .v, fs 28 4 .ro 15 .v]⟩
/-- PORT_LMAP_RX (R397). -/
def sPORT_LMAP_RX : RegSpec := ⟨0x054, 4, 1, .one, 127,
  [fs 0 4 .ro 15 .v, fs 4 4 .ro 15 .v, fs 8 4 .ro 15 .v,
   fs 12 4 .ro 15 .v, fs 16 4 .ro 15 .v, fs 20 4 .ro 15 .v,
   fs 24 4 .ro 15 .v, fs 28 4 .ro 15 .v]⟩
/-- PORT_LANE (R397). -/
def sPORT_LANE : RegSpec := ⟨0x058, 4, 1, .one, 127,
  [fs 0 9 .ro 0 .d, fs 16 9 .ro 0 .d]⟩
/-- PORT_TIMING (R397). -/
def sPORT_TIMING : RegSpec := ⟨0x05C, 4, 1, .one, 96,
  [fr 0 10 .rw 10 .d 1 1000 127, fr 16 8 .rw 10 .d 1 255 127]⟩
/-- PORT_ROT (R397). -/
def sPORT_ROT : RegSpec := ⟨0x060, 4, 1, .one, 96,
  [fr 0 16 .rw 1100 .d 400 65535 127]⟩
/-- PORT_REC_SEL (R397). -/
def sPORT_REC_SEL : RegSpec := ⟨0x064, 4, 1, .one, 127,
  [fs 0 9 .rw 0 .v]⟩
/-- PORT_REC_DATA (R397). -/
def sPORT_REC_DATA : RegSpec := ⟨0x068, 4, 1, .one, 96,
  [fs 0 32 .rw 0 .m]⟩
/-- PORT_FC (R397). -/
def sPORT_FC : RegSpec := ⟨0x06C, 4, 1, .one, 127,
  [fs 0 8 .ro 0 .v, fs 8 8 .ro 0 .v]⟩
/-- PORT_FRAME (R397). -/
def sPORT_FRAME : RegSpec := ⟨0x070, 4, 1, .one, 127,
  [fs 0 32 .ro 0 .v]⟩
def sCnt_port0L : RegSpec := ⟨0xC00, 8, 10, .lo, 127, [fs 0 32 .ro 0 .d]⟩
def sCnt_port0H : RegSpec := ⟨0xC04, 8, 10, .hi, 127, [fs 0 32 .ro 0 .d]⟩
/-- The registers of a port page. -/
def regs_port : List RegSpec :=
  [sPORT_STATUS, sPORT_CTL, sPORT_PEER, sPORT_EXPECT, sPORT_LMAP_TX, sPORT_LMAP_RX, sPORT_LANE, sPORT_TIMING, sPORT_ROT, sPORT_REC_SEL, sPORT_REC_DATA, sPORT_FC] ++
  [sPORT_FRAME, sCnt_port0L, sCnt_port0H]

/-- CAUSE_PAIR (R436). -/
def sCAUSE_PAIR : RegSpec := ⟨0x100, 4, 1, .one, 127,
  [fs 0 10 .rw 0 .a, fs 10 1 .ro 0 .a, fs 11 1 .rw 0 .a]⟩
/-- CAUSE_STATE (R436). -/
def sCAUSE_STATE : RegSpec := ⟨0x104, 4, 1, .one, 127,
  [fs 0 4 .ro 0 .m, fs 4 2 .ro 0 .m, fs 6 4 .ro 0 .v,
   fs 10 1 .ro 0 .v]⟩
/-- CAUSE_HB (R436). -/
def sCAUSE_HB : RegSpec := ⟨0x108, 4, 1, .one, 127,
  [fr 0 7 .rw 5 .d 1 100 127, fr 8 4 .rw 4 .d 2 15 127, fr 16 8 .rw 20 .d 5 255 127,
   fr 24 8 .rw 10 .d 1 255 127]⟩
/-- CAUSE_HBCNT (R436). -/
def sCAUSE_HBCNT : RegSpec := ⟨0x10C, 4, 1, .one, 127,
  [fs 0 32 .rw 0 .v]⟩
/-- CAUSE_JCTL (R436). -/
def sCAUSE_JCTL : RegSpec := ⟨0x110, 4, 1, .one, 127,
  [fs 0 1 .rw 0 .m, fs 1 1 .rw 0 .m, fr 8 8 .rw 20 .d 2 255 127,
   fr 16 16 .rw 50 .d 1 65535 127]⟩
/-- CAUSE_SENT (R436). -/
def sCAUSE_SENT : RegSpec := ⟨0x114, 4, 1, .one, 127,
  [fs 0 32 .ro 0 .m]⟩
/-- CAUSE_ACKED (R436). -/
def sCAUSE_ACKED : RegSpec := ⟨0x118, 4, 1, .one, 127,
  [fs 0 32 .ro 0 .m]⟩
/-- CAUSE_HELD (R436). -/
def sCAUSE_HELD : RegSpec := ⟨0x11C, 4, 1, .one, 127,
  [fs 0 32 .ro 0 .m]⟩
/-- CAUSE_APPLIED (R436). -/
def sCAUSE_APPLIED : RegSpec := ⟨0x120, 4, 1, .one, 127,
  [fs 0 32 .ro 0 .m]⟩
/-- CAUSE_SHADOW (R436). -/
def sCAUSE_SHADOW : RegSpec := ⟨0x124, 4, 1, .one, 127,
  [fs 0 16 .rw 0 .m]⟩
/-- CAUSE_SHSIZE (R436). -/
def sCAUSE_SHSIZE : RegSpec := ⟨0x128, 4, 1, .one, 127,
  [fr 0 17 .rw 0 .m 0 65536 127]⟩
/-- CAUSE_JMAP_SEL (R436). -/
def sCAUSE_JMAP_SEL : RegSpec := ⟨0x12C, 4, 1, .one, 127,
  [fs 0 11 .rw 0 .v]⟩
/-- CAUSE_JMAP_DATA (R436). -/
def sCAUSE_JMAP_DATA : RegSpec := ⟨0x130, 4, 1, .one, 127,
  [fs 0 32 .rw 0 .m]⟩
/-- CAUSE_SMAP_SEL (R436). -/
def sCAUSE_SMAP_SEL : RegSpec := ⟨0x134, 4, 1, .one, 127,
  [fs 0 16 .rw 0 .v]⟩
/-- CAUSE_SMAP_DATA (R436). -/
def sCAUSE_SMAP_DATA : RegSpec := ⟨0x138, 4, 1, .one, 127,
  [fs 0 16 .rw 0 .m, fs 16 1 .rw 0 .m]⟩
/-- CAUSE_RSYNC_POS (R436). -/
def sCAUSE_RSYNC_POS : RegSpec := ⟨0x13C, 4, 1, .one, 127,
  [fs 0 17 .ro 0 .v]⟩
/-- CAUSE_RSYNC_TOT (R436). -/
def sCAUSE_RSYNC_TOT : RegSpec := ⟨0x140, 4, 1, .one, 127,
  [fs 0 17 .ro 0 .v]⟩
def sCnt_cause0L : RegSpec := ⟨0xD00, 8, 8, .lo, 127, [fs 0 32 .ro 0 .d]⟩
def sCnt_cause0H : RegSpec := ⟨0xD04, 8, 8, .hi, 127, [fs 0 32 .ro 0 .d]⟩
/-- The registers of a cause page. -/
def regs_cause : List RegSpec :=
  [sCAUSE_PAIR, sCAUSE_STATE, sCAUSE_HB, sCAUSE_HBCNT, sCAUSE_JCTL, sCAUSE_SENT, sCAUSE_ACKED, sCAUSE_HELD, sCAUSE_APPLIED, sCAUSE_SHADOW, sCAUSE_SHSIZE, sCAUSE_JMAP_SEL] ++
  [sCAUSE_JMAP_DATA, sCAUSE_SMAP_SEL, sCAUSE_SMAP_DATA, sCAUSE_RSYNC_POS, sCAUSE_RSYNC_TOT, sCnt_cause0L, sCnt_cause0H]

/-- XTAB_STATUS (R400). -/
def sXTAB_STATUS : RegSpec := ⟨0x040, 4, 1, .one, 127,
  [fs 0 1 .ro 0 .d, fs 1 1 .ro 0 .v, fs 2 1 .ro 0 .d,
   fs 3 1 .ro 1 .d]⟩
/-- XTAB_SELF (R400). -/
def sXTAB_SELF : RegSpec := ⟨0x044, 4, 1, .one, 127,
  [fs 0 10 .rw 0 .m]⟩
/-- XTAB_XCTL (R400). -/
def sXTAB_XCTL : RegSpec := ⟨0x048, 4, 1, .one, 127,
  [fs 0 1 .wo 0 .v, fs 1 1 .wo 0 .v, fs 2 1 .w1s 0 .d,
   fs 3 1 .w1s 1 .d]⟩
/-- XTAB_XSUM (R400). -/
def sXTAB_XSUM : RegSpec := ⟨0x04C, 4, 2, .one, 127,
  [fs 0 32 .ro 0 .d]⟩
/-- XTAB_EPSUM (R400). -/
def sXTAB_EPSUM : RegSpec := ⟨0x054, 4, 2, .one, 127,
  [fs 0 32 .ro 0 .v]⟩
/-- XTAB_UP_LO (R400). -/
def sXTAB_UP_LO : RegSpec := ⟨0x05C, 4, 1, .lo, 127,
  [fs 0 32 .ro 0 .v]⟩
/-- XTAB_UP_HI (R400). -/
def sXTAB_UP_HI : RegSpec := ⟨0x060, 4, 1, .hi, 127,
  [fs 0 8 .ro 0 .v]⟩
/-- XTAB_ESEL (R400). -/
def sXTAB_ESEL : RegSpec := ⟨0x064, 4, 1, .one, 127,
  [fs 0 10 .rw 0 .v, fs 10 1 .rw 0 .v]⟩
/-- XTAB_EDATA (R400). -/
def sXTAB_EDATA : RegSpec := ⟨0x068, 4, 4, .one, 127,
  [fs 0 32 .rw 0 .d]⟩
def sCnt_xtab0L : RegSpec := ⟨0xC00, 8, 8, .lo, 127, [fs 0 32 .ro 0 .d]⟩
def sCnt_xtab0H : RegSpec := ⟨0xC04, 8, 8, .hi, 127, [fs 0 32 .ro 0 .d]⟩
/-- The registers of a xtab page. -/
def regs_xtab : List RegSpec :=
  [sXTAB_STATUS, sXTAB_SELF, sXTAB_XCTL, sXTAB_XSUM, sXTAB_EPSUM, sXTAB_UP_LO, sXTAB_UP_HI, sXTAB_ESEL, sXTAB_EDATA, sCnt_xtab0L, sCnt_xtab0H]

def fPG_IDENT_TYPE : FRef := ⟨0x000, 4, 0, 8⟩
def fPG_IDENT_REV : FRef := ⟨0x000, 4, 8, 8⟩
def fPG_IDENT_INST : FRef := ⟨0x000, 4, 16, 11⟩
def fPG_IDENT_DIE : FRef := ⟨0x000, 4, 27, 4⟩
def fPG_CLASS_WMASK : FRef := ⟨0x004, 4, 0, 7⟩
def fPG_CLASS_RMASK : FRef := ⟨0x004, 4, 8, 7⟩
def fPG_CLASS_KEEPSET : FRef := ⟨0x004, 4, 16, 5⟩
def fPG_CLASS_LOCKABLE : FRef := ⟨0x004, 4, 24, 1⟩
def fPG_CLASS_GAUGES : FRef := ⟨0x004, 4, 25, 1⟩
def fPG_CLASS_COUNTERS : FRef := ⟨0x004, 4, 26, 1⟩
def fPG_STATUS_CLOSED : FRef := ⟨0x008, 4, 0, 1⟩
def fPG_STATUS_BUSY : FRef := ⟨0x008, 4, 1, 1⟩
def fPG_STATUS_ERROR : FRef := ⟨0x008, 4, 2, 1⟩
def fPG_STATUS_ASLEEP : FRef := ⟨0x008, 4, 3, 1⟩
def fPG_STATUS_OFF : FRef := ⟨0x008, 4, 4, 1⟩
def fPG_STATUS_LOCKED : FRef := ⟨0x008, 4, 5, 1⟩
def fPG_STATUS_TEST : FRef := ⟨0x008, 4, 6, 1⟩
def fPG_STATUS_STATE : FRef := ⟨0x008, 4, 8, 8⟩
def fPG_GEN_GEN : FRef := ⟨0x00C, 4, 0, 6⟩
def fPG_GEN_CTX : FRef := ⟨0x00C, 4, 6, 10⟩
def fPG_GEN_BOUND : FRef := ⟨0x00C, 4, 16, 1⟩
def fINT_RAW_RAW : FRef := ⟨0x010, 4, 0, 32⟩
def fINT_STAT_STAT : FRef := ⟨0x014, 4, 0, 32⟩
def fINT_EN_SET_EN : FRef := ⟨0x018, 4, 0, 32⟩
def fINT_EN_CLR_EN : FRef := ⟨0x01C, 4, 0, 32⟩
def fERR_CAP0_CODE : FRef := ⟨0x020, 4, 0, 8⟩
def fERR_CAP0_SOURCE : FRef := ⟨0x020, 4, 8, 8⟩
def fERR_CAP0_VALID : FRef := ⟨0x020, 4, 16, 1⟩
def fERR_CAP0_OVERFLOW : FRef := ⟨0x020, 4, 17, 1⟩
def fERR_CAP0_COUNT : FRef := ⟨0x020, 4, 24, 8⟩
def fERR_CAP1_TAG : FRef := ⟨0x024, 4, 0, 16⟩
def fERR_CAP1_DETAIL : FRef := ⟨0x024, 4, 16, 16⟩
def fERR_CAP2_ADDR_LO : FRef := ⟨0x028, 4, 0, 32⟩
def fERR_CAP3_ADDR_HI : FRef := ⟨0x02C, 4, 0, 32⟩
def fERR_CLR_CLEAR : FRef := ⟨0x030, 4, 0, 1⟩
def fPG_LOCK_LOCK : FRef := ⟨0x034, 4, 0, 1⟩
def fPG_SCRATCH_SCRATCH : FRef := ⟨0x038, 4, 0, 32⟩
def fARR_CFG_WFMT : FRef := ⟨0x400, 4, 0, 4⟩
def fARR_CFG_AFMT : FRef := ⟨0x400, 4, 4, 4⟩
def fARR_CFG_SPARSE : FRef := ⟨0x400, 4, 8, 1⟩
def fARR_CFG_INIT : FRef := ⟨0x400, 4, 9, 1⟩
def fARR_CFG_RETRY : FRef := ⟨0x400, 4, 10, 2⟩
def fARR_CTL_INJECT : FRef := ⟨0x408, 4, 0, 1⟩
def fARR_CTL_INJ_PERSIST : FRef := ⟨0x408, 4, 1, 1⟩
def fARR_CTL_INJ_COL : FRef := ⟨0x408, 4, 8, 6⟩
def fARR_STATUS_ACTIVE : FRef := ⟨0x40C, 4, 0, 1⟩
def fARR_STATUS_SHADOW : FRef := ⟨0x40C, 4, 1, 2⟩
def fARR_STATUS_ACC0 : FRef := ⟨0x40C, 4, 3, 1⟩
def fARR_STATUS_ACC1 : FRef := ⟨0x40C, 4, 4, 1⟩
def fARR_STATUS_PASS : FRef := ⟨0x40C, 4, 5, 1⟩
def fARR_STATUS_RETRYING : FRef := ⟨0x40C, 4, 6, 1⟩
def fARR_STATUS_WTOKENS : FRef := ⟨0x40C, 4, 8, 6⟩
def fARR_STATUS_DONESEQ : FRef := ⟨0x40C, 4, 14, 7⟩
def fFLOW_STATUS_ACTIVE : FRef := ⟨0x040, 4, 0, 1⟩
def fFLOW_STATUS_EPOCH : FRef := ⟨0x040, 4, 1, 1⟩
def fFLOW_STATUS_SWITCH : FRef := ⟨0x040, 4, 2, 2⟩
def fFLOW_STATUS_FORM : FRef := ⟨0x040, 4, 4, 1⟩
def fFLOW_STATUS_QSTOP : FRef := ⟨0x040, 4, 5, 1⟩
def fFLOW_CFG_STATUS_VALID0 : FRef := ⟨0x044, 4, 0, 1⟩
def fFLOW_CFG_STATUS_VALID1 : FRef := ⟨0x044, 4, 1, 1⟩
def fFLOW_CFG_STATUS_CHECKING : FRef := ⟨0x044, 4, 2, 1⟩
def fFLOW_CFG_STATUS_LOADING : FRef := ⟨0x044, 4, 3, 1⟩
def fFLOW_CFG_STATUS_FAIL_AT : FRef := ⟨0x044, 4, 8, 8⟩
def fFLOW_CFG_CHECK_CHECK0 : FRef := ⟨0x048, 4, 0, 1⟩
def fFLOW_CFG_CHECK_CHECK1 : FRef := ⟨0x048, 4, 1, 1⟩
def fFLOW_IMG_ADDR_ADDR : FRef := ⟨0x04C, 4, 12, 11⟩
def fFLOW_IMG_GO_BUF : FRef := ⟨0x050, 4, 0, 1⟩
def fFLOW_IMG_GO_GO : FRef := ⟨0x050, 4, 1, 1⟩
def fFLOW_WIN_SEL_OFFSET : FRef := ⟨0x054, 4, 2, 10⟩
def fFLOW_WIN_SEL_BUF : FRef := ⟨0x054, 4, 12, 1⟩
def fFLOW_WIN_SEL_INC : FRef := ⟨0x054, 4, 13, 1⟩
def fFLOW_WIN_DATA_DATA : FRef := ⟨0x058, 4, 0, 32⟩
def fFLOW_QTIMEOUT_CYCLES : FRef := ⟨0x05C, 4, 0, 24⟩
def fFLOW_LINK_SEL_LINK : FRef := ⟨0x060, 4, 0, 7⟩
def fFLOW_LINK_STAT_QUEUED : FRef := ⟨0x064, 4, 0, 7⟩
def fFLOW_LINK_STAT_CREDITS : FRef := ⟨0x064, 4, 8, 7⟩
def fFLOW_LINK_STAT_INFLIGHT : FRef := ⟨0x064, 4, 16, 7⟩
def fFLOW_LINK_STAT_ENABLED : FRef := ⟨0x064, 4, 23, 1⟩
def fFLOW_LINK_PEAK_PEAK : FRef := ⟨0x068, 4, 0, 7⟩
def fFLOW_GRID_WIN_W : FRef := ⟨0x06C, 4, 0, 14⟩
def fFLOW_GRID_STAT_FOUND : FRef := ⟨0x070, 4, 0, 1⟩
def fFLOW_GRID_STAT_HOPS : FRef := ⟨0x070, 4, 1, 6⟩
def fFLOW_GRID_STAT_PROBE : FRef := ⟨0x070, 4, 7, 8⟩
def fFLOW_GRID_STAT_MORE : FRef := ⟨0x070, 4, 15, 1⟩
def fFLOW_GRID_PATH_LO_DIE : FRef := ⟨0x100, 8, 0, 4⟩
def fFLOW_GRID_PATH_LO_CORE : FRef := ⟨0x100, 8, 4, 8⟩
def fFLOW_GRID_PATH_LO_UNIT : FRef := ⟨0x100, 8, 12, 5⟩
def fFLOW_GRID_PATH_LO_PORT : FRef := ⟨0x100, 8, 17, 3⟩
def fFLOW_GRID_PATH_LO_KIND : FRef := ⟨0x100, 8, 20, 3⟩
def fFLOW_GRID_PATH_LO_QUEUE : FRef := ⟨0x100, 8, 23, 6⟩
def fFLOW_GRID_PATH_HI_DEVICE : FRef := ⟨0x104, 8, 0, 10⟩
def fCORE_SEQ_CTL_RUN : FRef := ⟨0x040, 4, 0, 1⟩
def fCORE_SEQ_CTL_TRAPHALT : FRef := ⟨0x040, 4, 1, 1⟩
def fCORE_SEQ_CTL_STEP : FRef := ⟨0x040, 4, 2, 1⟩
def fCORE_SEQ_STATE_STATE : FRef := ⟨0x044, 4, 0, 4⟩
def fCORE_SEQ_STATE_WAITON : FRef := ⟨0x044, 4, 4, 4⟩
def fCORE_SEQ_PC_PC : FRef := ⟨0x048, 4, 0, 32⟩
def fCORE_SEQ_ENTRY_ADDR : FRef := ⟨0x04C, 4, 0, 32⟩
def fCORE_SEQ_RESUME_ADDR : FRef := ⟨0x050, 4, 0, 32⟩
def fCORE_STEP_MILE_MILE : FRef := ⟨0x054, 4, 0, 32⟩
def fCORE_SEED_LO_SEED : FRef := ⟨0x058, 4, 0, 32⟩
def fCORE_SEED_HI_SEED : FRef := ⟨0x05C, 4, 0, 32⟩
def fCORE_QWAIT_TICKS : FRef := ⟨0x060, 4, 0, 24⟩
def fCORE_TRAP_MCAUSE : FRef := ⟨0x064, 4, 0, 5⟩
def fCORE_TRAP_VAL_MTVAL : FRef := ⟨0x068, 4, 0, 32⟩
def fCORE_MBOX_IN_DATA : FRef := ⟨0x06C, 4, 0, 32⟩
def fCORE_MBOX_OUT_DATA : FRef := ⟨0x070, 4, 0, 32⟩
def fCORE_CU_CTL_RETRY : FRef := ⟨0x080, 4, 0, 2⟩
def fSPAD_STATUS_SB_USED : FRef := ⟨0x040, 4, 0, 6⟩
def fSPAD_STATUS_SB_WAIT : FRef := ⟨0x040, 4, 6, 6⟩
def fSPAD_STATUS_RECODE : FRef := ⟨0x040, 4, 12, 1⟩
def fSPAD_STATUS_UNTRUSTED : FRef := ⟨0x040, 4, 13, 1⟩
def fSPAD_SCRUB_EN : FRef := ⟨0x044, 4, 0, 1⟩
def fSPAD_SCRUB_INTERVAL : FRef := ⟨0x044, 4, 8, 13⟩
def fSPAD_SCRUB_POS_ROW : FRef := ⟨0x048, 4, 0, 14⟩
def fSPAD_SCRUB_POS_PASSES : FRef := ⟨0x048, 4, 16, 16⟩
def fSPAD_DMA_CFG_TICKS : FRef := ⟨0x04C, 4, 0, 24⟩
def fSPAD_DMA_CFG_RETRY : FRef := ⟨0x04C, 4, 24, 3⟩
def fSPAD_DMA_STAT_QUEUED : FRef := ⟨0x050, 4, 0, 5⟩
def fSPAD_DMA_STAT_RUNNING : FRef := ⟨0x050, 4, 8, 3⟩
def fSPAD_DMA_STAT_FENCED : FRef := ⟨0x050, 4, 11, 1⟩
def fSPAD_BANK_PEND_BANK : FRef := ⟨0x054, 4, 0, 6⟩
def fSPAD_BANK_PEND_COUNT : FRef := ⟨0x054, 4, 8, 4⟩
def fSPAD_DIRTY_SEL_GROUP : FRef := ⟨0x058, 4, 0, 9⟩
def fSPAD_DIRTY_DATA_DIRTY : FRef := ⟨0x05C, 4, 0, 32⟩
def fSPAD_DIRTY_CNT_ROWS : FRef := ⟨0x060, 4, 0, 15⟩
def fSPAD_BANK_PWR_T : FRef := ⟨0x080, 4, 0, 2⟩
def fSPAD_BANK_STATE_S : FRef := ⟨0x090, 4, 0, 4⟩
def fSPAD_REGION_CLASS : FRef := ⟨0x400, 4, 0, 1⟩
def fSPAD_REGION_UNORD : FRef := ⟨0x400, 4, 1, 1⟩
def fSPAD_REGION_TRACK : FRef := ⟨0x400, 4, 2, 1⟩
def fSPAD_REGION_HOLD : FRef := ⟨0x400, 4, 3, 1⟩
def fSPAD_REGION_HOMEV : FRef := ⟨0x400, 4, 4, 1⟩
def fSPAD_REGION_HOME : FRef := ⟨0x400, 4, 8, 24⟩
def fQENG_STATUS_SENDQ : FRef := ⟨0x040, 4, 0, 6⟩
def fQENG_STATUS_REASM_FREE : FRef := ⟨0x040, 4, 8, 5⟩
def fQENG_STATUS_CHANS : FRef := ⟨0x040, 4, 16, 11⟩
def fQENG_STATUS2_HANDLES : FRef := ⟨0x044, 4, 0, 11⟩
def fQENG_STATUS2_UNACKED : FRef := ⟨0x044, 4, 16, 9⟩
def fQENG_CFG_RETRY : FRef := ⟨0x048, 4, 0, 3⟩
def fQENG_CFG_WINDOW : FRef := ⟨0x048, 4, 4, 4⟩
def fQENG_CFG_LOGBACK : FRef := ⟨0x048, 4, 8, 4⟩
def fQENG_TIMEOUT_TICKS : FRef := ⟨0x04C, 4, 0, 24⟩
def fQENG_CTL_SENDSTOP : FRef := ⟨0x070, 4, 0, 1⟩
def fQENG_CTL_FLUSH : FRef := ⟨0x070, 4, 1, 1⟩
def fQENG_CH_SEL_INDEX : FRef := ⟨0x050, 4, 0, 10⟩
def fQENG_CH_STAT0_EN : FRef := ⟨0x054, 4, 0, 22⟩
def fQENG_CH_STAT0_STATE : FRef := ⟨0x054, 4, 22, 3⟩
def fQENG_CH_STAT1_HANDLE : FRef := ⟨0x058, 4, 0, 10⟩
def fQENG_CH_STAT1_RGEN : FRef := ⟨0x058, 4, 10, 6⟩
def fQENG_CH_STAT1_NEXTSEQ : FRef := ⟨0x058, 4, 16, 16⟩
def fQENG_CH_STAT2_ACKSEQ : FRef := ⟨0x05C, 4, 0, 16⟩
def fQENG_CH_STAT2_OUTST : FRef := ⟨0x05C, 4, 16, 4⟩
def fQENG_CH_STAT2_CODE : FRef := ⟨0x05C, 4, 20, 8⟩
def fQENG_CH_STAT3_MAXLEN : FRef := ⟨0x060, 4, 0, 13⟩
def fQENG_CH_STAT3_KIND : FRef := ⟨0x060, 4, 13, 2⟩
def fQENG_CH_STAT3_SLOT : FRef := ⟨0x060, 4, 16, 6⟩
def fQENG_HD_SEL_HANDLE : FRef := ⟨0x064, 4, 0, 10⟩
def fQENG_HD_STAT0_EN : FRef := ⟨0x068, 4, 0, 22⟩
def fQENG_HD_STAT0_STATE : FRef := ⟨0x068, 4, 22, 2⟩
def fQENG_HD_STAT0_SLOT : FRef := ⟨0x068, 4, 24, 6⟩
def fQENG_HD_STAT1_EXPSEQ : FRef := ⟨0x06C, 4, 0, 16⟩
def fQENG_Q_SEL_SLOT : FRef := ⟨0x074, 4, 0, 6⟩
def fQENG_Q_STAT0_USED : FRef := ⟨0x078, 4, 0, 23⟩
def fQENG_Q_STAT1_COMMITS : FRef := ⟨0x07C, 4, 0, 32⟩
def fQENG_Q_STAT2_TAIL : FRef := ⟨0x080, 4, 0, 22⟩
def fQENG_Q_STAT3_HEAD : FRef := ⟨0x084, 4, 0, 22⟩
def fQENG_Q_CFG_KIND : FRef := ⟨0x400, 16, 0, 2⟩
def fQENG_Q_CFG_OPEN : FRef := ⟨0x400, 16, 2, 1⟩
def fQENG_Q_CFG_STATEN : FRef := ⟨0x400, 16, 3, 1⟩
def fQENG_Q_CFG_LOGSIZE : FRef := ⟨0x400, 16, 4, 5⟩
def fQENG_Q_CFG_MAXLEN : FRef := ⟨0x400, 16, 10, 13⟩
def fQENG_Q_RING_BASE : FRef := ⟨0x404, 16, 0, 23⟩
def fQENG_Q_STATW_ADDR : FRef := ⟨0x408, 16, 3, 20⟩
def fQENG_Q_ACPT_EN_BASE : FRef := ⟨0x40C, 16, 0, 22⟩
def fQENG_Q_ACPT_IGNORE : FRef := ⟨0x40C, 16, 22, 5⟩
def fQENG_J_CFG_FMT : FRef := ⟨0x100, 8, 0, 2⟩
def fQENG_J_CFG_MODE : FRef := ⟨0x100, 8, 2, 1⟩
def fQENG_J_CFG_LEN : FRef := ⟨0x100, 8, 4, 11⟩
def fQENG_J_CFG_COUNT : FRef := ⟨0x100, 8, 16, 12⟩
def fQENG_J_FWD_FWDEN : FRef := ⟨0x104, 8, 0, 1⟩
def fQENG_J_FWD_FWDCH : FRef := ⟨0x104, 8, 1, 10⟩
def fQENG_J_SEL_SLOT : FRef := ⟨0x088, 4, 0, 6⟩
def fQENG_J_STAT0_JROUND : FRef := ⟨0x08C, 4, 0, 8⟩
def fQENG_J_STAT0_STATE0 : FRef := ⟨0x08C, 4, 8, 2⟩
def fQENG_J_STAT0_STATE1 : FRef := ⟨0x08C, 4, 10, 2⟩
def fQENG_J_STAT0_HAVE : FRef := ⟨0x08C, 4, 16, 12⟩
def fQENG_J_STAT1_ADDED : FRef := ⟨0x090, 4, 0, 12⟩
def fQENG_J_STAT1_HAVE1 : FRef := ⟨0x090, 4, 16, 12⟩
def fQENG_CV_BIND_LO_INDEX : FRef := ⟨0x094, 4, 0, 10⟩
def fQENG_CV_BIND_LO_NUM : FRef := ⟨0x094, 4, 10, 8⟩
def fQENG_CV_BIND_LO_SLOT : FRef := ⟨0x094, 4, 18, 6⟩
def fQENG_CV_BIND_LO_FORM : FRef := ⟨0x094, 4, 24, 1⟩
def fQENG_CV_BIND_LO_UNBIND : FRef := ⟨0x094, 4, 25, 1⟩
def fQENG_CV_BIND_HI_EN : FRef := ⟨0x098, 4, 0, 22⟩
def fROUT_STATUS_INJ_EPOCH : FRef := ⟨0x040, 4, 0, 1⟩
def fROUT_STATUS_RETIRE0 : FRef := ⟨0x040, 4, 1, 1⟩
def fROUT_STATUS_RETIRE1 : FRef := ⟨0x040, 4, 2, 1⟩
def fROUT_STATUS_LCLOSED : FRef := ⟨0x040, 4, 3, 1⟩
def fROUT_STATUS_MISSPEND : FRef := ⟨0x040, 4, 4, 3⟩
def fROUT_STATUS_MERGE_USED : FRef := ⟨0x040, 4, 8, 4⟩
def fROUT_STATUS_COMB_USED : FRef := ⟨0x040, 4, 12, 7⟩
def fROUT_EN_EN : FRef := ⟨0x044, 4, 0, 22⟩
def fROUT_DETOUR_DET0 : FRef := ⟨0x048, 4, 0, 4⟩
def fROUT_DETOUR_DET1 : FRef := ⟨0x048, 4, 4, 4⟩
def fROUT_REP_SEL_WORD : FRef := ⟨0x04C, 4, 0, 2⟩
def fROUT_REP_SEL_ENTRY : FRef := ⟨0x04C, 4, 2, 6⟩
def fROUT_REP_SEL_BANK : FRef := ⟨0x04C, 4, 8, 1⟩
def fROUT_REP_DATA_LO_DATA : FRef := ⟨0x050, 4, 0, 32⟩
def fROUT_REP_DATA_HI_DATA : FRef := ⟨0x054, 4, 0, 32⟩
def fROUT_EPCNT0_COUNT : FRef := ⟨0x058, 4, 0, 32⟩
def fROUT_EPCNT1_COUNT : FRef := ⟨0x05C, 4, 0, 32⟩
def fROUT_PORT_SEL_PORT : FRef := ⟨0x060, 4, 0, 3⟩
def fROUT_PORT_STAT_FREE_REQ : FRef := ⟨0x064, 4, 0, 5⟩
def fROUT_PORT_STAT_FREE_RSP : FRef := ⟨0x064, 4, 5, 5⟩
def fROUT_PORT_STAT_FREE_RED : FRef := ⟨0x064, 4, 10, 5⟩
def fROUT_PORT_STAT_FREE_BULK : FRef := ⟨0x064, 4, 15, 5⟩
def fROUT_PORT_STAT_OFF : FRef := ⟨0x064, 4, 20, 4⟩
def fROUT_CACHE_CTL_FLUSH : FRef := ⟨0x068, 4, 0, 1⟩
def fSIGN_STATUS_INJ_EPOCH : FRef := ⟨0x040, 4, 0, 1⟩
def fSIGN_STATUS_FLIPPING : FRef := ⟨0x040, 4, 1, 1⟩
def fSIGN_STATUS_INVALING : FRef := ⟨0x040, 4, 2, 1⟩
def fSIGN_STATUS_RETIRE0 : FRef := ⟨0x040, 4, 3, 1⟩
def fSIGN_STATUS_RETIRE1 : FRef := ⟨0x040, 4, 4, 1⟩
def fSIGN_STATUS_WALKS : FRef := ⟨0x040, 4, 5, 6⟩
def fSIGN_SELF_DEVICE : FRef := ⟨0x044, 4, 0, 10⟩
def fSIGN_TBL_LO_BASE : FRef := ⟨0x048, 4, 25, 7⟩
def fSIGN_TBL_HI_BASE : FRef := ⟨0x04C, 4, 0, 8⟩
def fSIGN_FLIP_EPOCH : FRef := ⟨0x050, 4, 0, 1⟩
def fSIGN_FLIP_GO : FRef := ⟨0x050, 4, 1, 1⟩
def fSIGN_INVAL_EN_BASE : FRef := ⟨0x054, 4, 0, 22⟩
def fSIGN_INVAL_IGNORE : FRef := ⟨0x054, 4, 22, 5⟩
def fSIGN_INVAL_ALL : FRef := ⟨0x054, 4, 27, 1⟩
def fSIGN_INVAL_GO : FRef := ⟨0x054, 4, 31, 1⟩
def fSIGN_EPCTL_RETIRE0 : FRef := ⟨0x058, 4, 0, 1⟩
def fSIGN_EPCTL_RETIRE1 : FRef := ⟨0x058, 4, 1, 1⟩
def fSIGN_EPSUM0_SUM : FRef := ⟨0x05C, 4, 0, 32⟩
def fSIGN_EPSUM1_SUM : FRef := ⟨0x060, 4, 0, 32⟩
def fSIGN_DRT_PRIM : FRef := ⟨0x080, 4, 0, 2⟩
def fSIGN_DRT_DET : FRef := ⟨0x080, 4, 2, 2⟩
def fSIGN_DRT_DETEN : FRef := ⟨0x080, 4, 4, 1⟩
def fBRDG_STATUS_PRESENT : FRef := ⟨0x040, 4, 0, 4⟩
def fBRDG_STATUS_INSERVICE : FRef := ⟨0x040, 4, 4, 4⟩
def fBRDG_ACTIVE_ACT0 : FRef := ⟨0x044, 4, 0, 4⟩
def fBRDG_ACTIVE_ACT1 : FRef := ⟨0x044, 4, 4, 4⟩
def fMEMC_STATUS_STATE : FRef := ⟨0x040, 4, 0, 4⟩
def fMEMC_STATUS_TRAINED : FRef := ⟨0x040, 4, 4, 1⟩
def fMEMC_STATUS_RECAL : FRef := ⟨0x040, 4, 5, 1⟩
def fMEMC_STATUS_GRANTBUSY : FRef := ⟨0x040, 4, 6, 1⟩
def fMEMC_STATUS_PLACEBUSY : FRef := ⟨0x040, 4, 7, 1⟩
def fMEMC_STATUS_TEMP : FRef := ⟨0x040, 4, 8, 8⟩
def fMEMC_TRAIN_GO : FRef := ⟨0x044, 4, 0, 1⟩
def fMEMC_TRAIN_FULL : FRef := ⟨0x044, 4, 1, 1⟩
def fMEMC_TRAIN_DONE : FRef := ⟨0x044, 4, 2, 1⟩
def fMEMC_TRAIN_RECVALID : FRef := ⟨0x044, 4, 3, 1⟩
def fMEMC_TRAIN_FAIL_CH : FRef := ⟨0x048, 4, 0, 32⟩
def fMEMC_REC_SEL_WORD : FRef := ⟨0x04C, 4, 0, 10⟩
def fMEMC_REC_DATA_DATA : FRef := ⟨0x050, 4, 0, 32⟩
def fMEMC_RECAL_EN : FRef := ⟨0x054, 4, 0, 1⟩
def fMEMC_RECAL_WINDOW : FRef := ⟨0x054, 4, 8, 5⟩
def fMEMC_RECAL_PERIOD : FRef := ⟨0x054, 4, 16, 16⟩
def fMEMC_SCRUB_EN : FRef := ⟨0x058, 4, 0, 1⟩
def fMEMC_SCRUB_HOURS : FRef := ⟨0x058, 4, 8, 8⟩
def fMEMC_GRANT_SEL_INDEX : FRef := ⟨0x060, 4, 0, 16⟩
def fMEMC_GRANT_DATA_TAG : FRef := ⟨0x064, 4, 0, 16⟩
def fMEMC_GRANT_DATA_MODE : FRef := ⟨0x064, 4, 16, 2⟩
def fMEMC_SLICE_SEL_SLICE : FRef := ⟨0x068, 4, 0, 5⟩
def fMEMC_SLICE_CTL_EVAC : FRef := ⟨0x06C, 4, 0, 1⟩
def fMEMC_SLICE_CTL_CLOSE : FRef := ⟨0x06C, 4, 1, 1⟩
def fMEMC_SLICE_CTL_SSTATE : FRef := ⟨0x06C, 4, 2, 2⟩
def fMEMC_SLICE_CTL_SUSPECT : FRef := ⟨0x06C, 4, 4, 1⟩
def fMEMC_SLICE_CLOSED_MASK : FRef := ⟨0x070, 4, 0, 32⟩
def fMEMC_PINb_LO_PIN : FRef := ⟨0x080, 8, 0, 32⟩
def fMEMC_PINb_HI_PIN : FRef := ⟨0x084, 8, 0, 32⟩
def fMEMC_SPAREb_k_SLICE : FRef := ⟨0x0A0, 4, 0, 5⟩
def fMEMC_SPAREb_k_VALID : FRef := ⟨0x0A0, 4, 5, 1⟩
def fPORT_STATUS_STATE : FRef := ⟨0x040, 4, 0, 4⟩
def fPORT_STATUS_TXSPARE : FRef := ⟨0x040, 4, 4, 1⟩
def fPORT_STATUS_RXSPARE : FRef := ⟨0x040, 4, 5, 1⟩
def fPORT_STATUS_ROTATING : FRef := ⟨0x040, 4, 6, 1⟩
def fPORT_STATUS_LOS : FRef := ⟨0x040, 4, 7, 1⟩
def fPORT_CTL_ENABLE : FRef := ⟨0x044, 4, 0, 1⟩
def fPORT_CTL_RETRAIN : FRef := ⟨0x044, 4, 1, 1⟩
def fPORT_CTL_FULLTRAIN : FRef := ⟨0x044, 4, 2, 1⟩
def fPORT_CTL_TRUSTED : FRef := ⟨0x044, 4, 3, 1⟩
def fPORT_CTL_ROT_EN : FRef := ⟨0x044, 4, 4, 1⟩
def fPORT_PEER_DEVICE : FRef := ⟨0x048, 4, 0, 10⟩
def fPORT_PEER_PORT : FRef := ⟨0x048, 4, 10, 6⟩
def fPORT_PEER_KIND : FRef := ⟨0x048, 4, 16, 1⟩
def fPORT_PEER_VALID : FRef := ⟨0x048, 4, 17, 1⟩
def fPORT_EXPECT_DEVICE : FRef := ⟨0x04C, 4, 0, 10⟩
def fPORT_EXPECT_PORT : FRef := ⟨0x04C, 4, 10, 6⟩
def fPORT_EXPECT_CHECK : FRef := ⟨0x04C, 4, 16, 1⟩
def fPORT_LMAP_TX_LANE : FRef := ⟨0x050, 4, 0, 4⟩
def fPORT_LMAP_RX_LANE : FRef := ⟨0x054, 4, 0, 4⟩
def fPORT_LANE_TXFAIL : FRef := ⟨0x058, 4, 0, 9⟩
def fPORT_LANE_RXFAIL : FRef := ⟨0x058, 4, 16, 9⟩
def fPORT_TIMING_DOWNHOLD : FRef := ⟨0x05C, 4, 0, 10⟩
def fPORT_TIMING_CHKWIN : FRef := ⟨0x05C, 4, 16, 8⟩
def fPORT_ROT_STEP : FRef := ⟨0x060, 4, 0, 16⟩
def fPORT_REC_SEL_WORD : FRef := ⟨0x064, 4, 0, 9⟩
def fPORT_REC_DATA_DATA : FRef := ⟨0x068, 4, 0, 32⟩
def fPORT_FC_RXOFF : FRef := ⟨0x06C, 4, 0, 8⟩
def fPORT_FC_TXOFF : FRef := ⟨0x06C, 4, 8, 8⟩
def fPORT_FRAME_FRAME : FRef := ⟨0x070, 4, 0, 32⟩
def fXTAB_STATUS_INJ_XEPOCH : FRef := ⟨0x040, 4, 0, 1⟩
def fXTAB_STATUS_XFLIPPING : FRef := ⟨0x040, 4, 1, 1⟩
def fXTAB_STATUS_RETIRE0 : FRef := ⟨0x040, 4, 2, 1⟩
def fXTAB_STATUS_RETIRE1 : FRef := ⟨0x040, 4, 3, 1⟩
def fXTAB_SELF_DEVICE : FRef := ⟨0x044, 4, 0, 10⟩
def fXTAB_XCTL_EPOCH : FRef := ⟨0x048, 4, 0, 1⟩
def fXTAB_XCTL_GO : FRef := ⟨0x048, 4, 1, 1⟩
def fXTAB_XCTL_RETIRE0 : FRef := ⟨0x048, 4, 2, 1⟩
def fXTAB_XCTL_RETIRE1 : FRef := ⟨0x048, 4, 3, 1⟩
def fXTAB_XSUM_SUM : FRef := ⟨0x04C, 4, 0, 32⟩
def fXTAB_EPSUM_SUM : FRef := ⟨0x054, 4, 0, 32⟩
def fXTAB_UP_LO_UP : FRef := ⟨0x05C, 4, 0, 32⟩
def fXTAB_UP_HI_UP : FRef := ⟨0x060, 4, 0, 8⟩
def fXTAB_ESEL_DEV : FRef := ⟨0x064, 4, 0, 10⟩
def fXTAB_ESEL_BANK : FRef := ⟨0x064, 4, 10, 1⟩
def fXTAB_EDATA_DATA : FRef := ⟨0x068, 4, 0, 32⟩
def fCAUSE_PAIR_PARTNER : FRef := ⟨0x100, 4, 0, 10⟩
def fCAUSE_PAIR_SIDE : FRef := ⟨0x100, 4, 10, 1⟩
def fCAUSE_PAIR_BOUND : FRef := ⟨0x100, 4, 11, 1⟩
def fCAUSE_STATE_PSTATE : FRef := ⟨0x104, 4, 0, 4⟩
def fCAUSE_STATE_MODE : FRef := ⟨0x104, 4, 4, 2⟩
def fCAUSE_STATE_LIVE : FRef := ⟨0x104, 4, 6, 4⟩
def fCAUSE_STATE_JBUSY : FRef := ⟨0x104, 4, 10, 1⟩
def fCAUSE_HB_PERIOD : FRef := ⟨0x108, 4, 0, 7⟩
def fCAUSE_HB_MISSES : FRef := ⟨0x108, 4, 8, 4⟩
def fCAUSE_HB_QTO : FRef := ⟨0x108, 4, 16, 8⟩
def fCAUSE_HB_FWWIN : FRef := ⟨0x108, 4, 24, 8⟩
def fCAUSE_HBCNT_COUNT : FRef := ⟨0x10C, 4, 0, 32⟩
def fCAUSE_JCTL_JEN : FRef := ⟨0x110, 4, 0, 1⟩
def fCAUSE_JCTL_AUTO : FRef := ⟨0x110, 4, 1, 1⟩
def fCAUSE_JCTL_JRETX : FRef := ⟨0x110, 4, 8, 8⟩
def fCAUSE_JCTL_CWHOLD : FRef := ⟨0x110, 4, 16, 16⟩
def fCAUSE_SENT_MILE : FRef := ⟨0x114, 4, 0, 32⟩
def fCAUSE_ACKED_MILE : FRef := ⟨0x118, 4, 0, 32⟩
def fCAUSE_HELD_MILE : FRef := ⟨0x11C, 4, 0, 32⟩
def fCAUSE_APPLIED_MILE : FRef := ⟨0x120, 4, 0, 32⟩
def fCAUSE_SHADOW_BASE : FRef := ⟨0x124, 4, 0, 16⟩
def fCAUSE_SHSIZE_BLOCKS : FRef := ⟨0x128, 4, 0, 17⟩
def fCAUSE_JMAP_SEL_WORD : FRef := ⟨0x12C, 4, 0, 11⟩
def fCAUSE_JMAP_DATA_J : FRef := ⟨0x130, 4, 0, 32⟩
def fCAUSE_SMAP_SEL_INDEX : FRef := ⟨0x134, 4, 0, 16⟩
def fCAUSE_SMAP_DATA_TARGET : FRef := ⟨0x138, 4, 0, 16⟩
def fCAUSE_SMAP_DATA_VALID : FRef := ⟨0x138, 4, 16, 1⟩
def fCAUSE_RSYNC_POS_DONE : FRef := ⟨0x13C, 4, 0, 17⟩
def fCAUSE_RSYNC_TOT_TOTAL : FRef := ⟨0x140, 4, 0, 17⟩
def fHEAL_STATUS_LOGCNT : FRef := ⟨0x040, 4, 0, 9⟩
def fHEAL_STATUS_SUSPECTS : FRef := ⟨0x040, 4, 16, 8⟩
def fHEAL_LADDER_NVOLT : FRef := ⟨0x044, 4, 0, 4⟩
def fHEAL_LADDER_NCLK : FRef := ⟨0x044, 4, 4, 4⟩
def fHEAL_LADDER_VSTEP : FRef := ⟨0x044, 4, 8, 4⟩
def fHEAL_LADDER_VMAX : FRef := ⟨0x044, 4, 12, 5⟩
def fHEAL_LADDER_EN_V : FRef := ⟨0x044, 4, 17, 1⟩
def fHEAL_LADDER_EN_CLK : FRef := ⟨0x044, 4, 18, 1⟩
def fHEAL_LADDER_EN_RW : FRef := ⟨0x044, 4, 19, 1⟩
def fHEAL_WINDOW_WIN : FRef := ⟨0x048, 4, 0, 16⟩
def fHEAL_WINDOW_DECAY : FRef := ⟨0x048, 4, 16, 16⟩
def fHEAL_CSEL_CORE : FRef := ⟨0x04C, 4, 0, 8⟩
def fHEAL_CSTAT_COUNT : FRef := ⟨0x050, 4, 0, 4⟩
def fHEAL_CSTAT_OFFSET : FRef := ⟨0x050, 4, 4, 5⟩
def fHEAL_CSTAT_DIV : FRef := ⟨0x050, 4, 9, 2⟩
def fHEAL_CSTAT_RWPEND : FRef := ⟨0x050, 4, 11, 1⟩
def fHEAL_CSTAT_WINOPEN : FRef := ⟨0x050, 4, 12, 1⟩
def fHEAL_CSTAT_PAIRED : FRef := ⟨0x050, 4, 13, 1⟩
def fHEAL_CCTL_CORE : FRef := ⟨0x054, 4, 0, 8⟩
def fHEAL_CCTL_CLEAR : FRef := ⟨0x054, 4, 8, 1⟩
def fHEAL_CCTL_FORCE : FRef := ⟨0x054, 4, 9, 1⟩
def fHEAL_RWREQ_RW : FRef := ⟨0x060, 4, 0, 32⟩
def fHEAL_PAIR_LO_PAIR : FRef := ⟨0x078, 4, 0, 32⟩
def fHEAL_PAIR_HI_PAIR : FRef := ⟨0x07C, 4, 0, 4⟩
def fHEAL_LOG0_TIME : FRef := ⟨0x080, 4, 0, 32⟩
def fHEAL_LOG1_TIME : FRef := ⟨0x084, 4, 0, 16⟩
def fHEAL_LOG1_CODE : FRef := ⟨0x084, 4, 16, 8⟩
def fHEAL_LOG1_SOURCE : FRef := ⟨0x084, 4, 24, 8⟩
def fHEAL_LOG2_TYPE : FRef := ⟨0x088, 4, 0, 8⟩
def fHEAL_LOG2_INST : FRef := ⟨0x088, 4, 8, 8⟩
def fHEAL_LOG2_DETAIL : FRef := ⟨0x088, 4, 16, 16⟩
def fHEAL_LOG3_TAG : FRef := ⟨0x08C, 4, 0, 16⟩
def fHEAL_LOG3_ACTION : FRef := ⟨0x08C, 4, 16, 3⟩
def fHEAL_LOG3_VALID : FRef := ⟨0x08C, 4, 31, 1⟩
def fHEAL_HSTATUS_CLOSEBUSY : FRef := ⟨0x040, 4, 0, 1⟩
def fHEAL_HSTATUS_SAVEPEND : FRef := ⟨0x040, 4, 1, 1⟩
def fHEAL_HSTATUS_MAPERR : FRef := ⟨0x040, 4, 2, 1⟩
def fHEAL_HSTATUS_FREEZE : FRef := ⟨0x040, 4, 3, 1⟩
def fHEAL_HSTATUS_MOVES : FRef := ⟨0x040, 4, 4, 5⟩
def fHEAL_HSTATUS_TESTING : FRef := ⟨0x040, 4, 9, 5⟩
def fHEAL_CLOSE_KIND : FRef := ⟨0x044, 4, 0, 4⟩
def fHEAL_CLOSE_DIE : FRef := ⟨0x044, 4, 4, 4⟩
def fHEAL_CLOSE_INDEX : FRef := ⟨0x044, 4, 8, 8⟩
def fHEAL_CLOSE_SUB : FRef := ⟨0x044, 4, 16, 6⟩
def fHEAL_CLOSE_DIR : FRef := ⟨0x044, 4, 22, 1⟩
def fHEAL_CLOSE_WITHDRAW : FRef := ⟨0x044, 4, 23, 1⟩
def fHEAL_CLOSE_GO : FRef := ⟨0x044, 4, 31, 1⟩
def fHEAL_CLOSE_STAT_CODE : FRef := ⟨0x048, 4, 0, 8⟩
def fHEAL_CMAP_SEL_WORD : FRef := ⟨0x04C, 4, 0, 12⟩
def fHEAL_CMAP_DATA_MAP : FRef := ⟨0x050, 4, 0, 32⟩
def fHEAL_CMAP_FUSE_FUSE : FRef := ⟨0x054, 4, 0, 32⟩
def fHEAL_MAPSEQ_SEQ : FRef := ⟨0x058, 4, 0, 32⟩
def fHEAL_RWCFG_EN : FRef := ⟨0x060, 4, 0, 1⟩
def fHEAL_RWCFG_MAXV : FRef := ⟨0x060, 4, 1, 2⟩
def fHEAL_RWCFG_CUTEVERY : FRef := ⟨0x060, 4, 16, 16⟩
def fHEAL_FREEZE_ROWS : FRef := ⟨0x064, 4, 0, 14⟩
def fHEAL_MARGIN_GUARD : FRef := ⟨0x068, 4, 0, 4⟩
def fHEAL_MARGIN_STEPS : FRef := ⟨0x068, 4, 4, 6⟩
def fHEAL_POOL_SEL_DIE : FRef := ⟨0x06C, 4, 0, 3⟩
def fHEAL_POOL_SERVICE : FRef := ⟨0x070, 4, 0, 8⟩
def fHEAL_POOL_LAYBY : FRef := ⟨0x070, 4, 8, 8⟩
def fHEAL_POOL_TEST : FRef := ⟨0x070, 4, 16, 8⟩
def fHEAL_POOL_CLOSED : FRef := ⟨0x070, 4, 24, 8⟩
def fHEAL_SLOTS_HELD : FRef := ⟨0x074, 4, 0, 2⟩
def fHEAL_CALCFG_ROT_EN : FRef := ⟨0x078, 4, 0, 1⟩
def fHEAL_CALCFG_RECAL_EN : FRef := ⟨0x078, 4, 1, 1⟩
def fHEAL_CALCFG_WALK_EN : FRef := ⟨0x078, 4, 2, 1⟩
def fHEAL_CALCFG_HEADROOM : FRef := ⟨0x078, 4, 8, 8⟩
def fHEAL_MV_SEL_DIE : FRef := ⟨0x080, 4, 0, 3⟩
def fHEAL_MV_SEL_MOVER : FRef := ⟨0x080, 4, 3, 1⟩
def fHEAL_MV_SRC_DIE : FRef := ⟨0x084, 4, 0, 4⟩
def fHEAL_MV_SRC_CORE : FRef := ⟨0x084, 4, 4, 8⟩
def fHEAL_MV_DST_DIE : FRef := ⟨0x088, 4, 0, 4⟩
def fHEAL_MV_DST_CORE : FRef := ⟨0x088, 4, 4, 8⟩
def fHEAL_MV_CTL_GO : FRef := ⟨0x08C, 4, 0, 1⟩
def fHEAL_MV_CTL_ABORT : FRef := ⟨0x08C, 4, 1, 1⟩
def fHEAL_MV_CTL_MODE : FRef := ⟨0x08C, 4, 2, 1⟩
def fHEAL_MV_CTL_RATE : FRef := ⟨0x08C, 4, 8, 4⟩
def fHEAL_MV_STAT_PHASE : FRef := ⟨0x090, 4, 0, 3⟩
def fHEAL_MV_STAT_CODE : FRef := ⟨0x090, 4, 8, 8⟩
def fHEAL_MV_STAT_DIRTY : FRef := ⟨0x090, 4, 16, 16⟩
def fHEAL_MV_PASSES_PASSES : FRef := ⟨0x094, 4, 0, 16⟩
def fHEAL_RWLOG0_DIE : FRef := ⟨0x0A0, 4, 0, 4⟩
def fHEAL_RWLOG0_CORE : FRef := ⟨0x0A0, 4, 4, 8⟩
def fHEAL_RWLOG0_OUTCOME : FRef := ⟨0x0A0, 4, 12, 3⟩
def fHEAL_RWLOG0_RETESTED : FRef := ⟨0x0A0, 4, 15, 1⟩
def fHEAL_RWLOG0_DURATION : FRef := ⟨0x0A0, 4, 16, 16⟩
def fHEAL_RWLOG1_THRESH : FRef := ⟨0x0A4, 4, 0, 8⟩
def fHEAL_RWLOG1_REQ : FRef := ⟨0x0A4, 4, 8, 8⟩
def fHEAL_RWLOG1_SETPT : FRef := ⟨0x0A4, 4, 16, 8⟩
def fHEAL_RWLOG2_COVLBIST : FRef := ⟨0x0A8, 4, 0, 16⟩
def fHEAL_RWLOG2_FAILBANKS : FRef := ⟨0x0A8, 4, 16, 16⟩
def fHEAL_RWLOG3_TIME : FRef := ⟨0x0AC, 4, 0, 31⟩
def fHEAL_RWLOG3_VALID : FRef := ⟨0x0AC, 4, 31, 1⟩
def fHEAL_THRESH0_SPADCE : FRef := ⟨0x0B0, 4, 0, 16⟩
def fHEAL_THRESH0_MEMCE : FRef := ⟨0x0B0, 4, 16, 16⟩
def fHEAL_THRESH1_BRUE : FRef := ⟨0x0B4, 4, 0, 8⟩
def fHEAL_THRESH1_LANEN : FRef := ⟨0x0B4, 4, 8, 4⟩
def fHEAL_THRESH1_SHORTWIN : FRef := ⟨0x0B4, 4, 16, 8⟩
def fHEAL_THRESH1_LONGWIN : FRef := ⟨0x0B4, 4, 24, 8⟩
def fHEAL_HLOG0_TIME : FRef := ⟨0x0C0, 4, 0, 32⟩
def fHEAL_HLOG1_TIME : FRef := ⟨0x0C4, 4, 0, 16⟩
def fHEAL_HLOG1_CODE : FRef := ⟨0x0C4, 4, 16, 8⟩
def fHEAL_HLOG1_SOURCE : FRef := ⟨0x0C4, 4, 24, 8⟩
def fHEAL_HLOG2_TYPE : FRef := ⟨0x0C8, 4, 0, 8⟩
def fHEAL_HLOG2_INST : FRef := ⟨0x0C8, 4, 8, 8⟩
def fHEAL_HLOG2_DETAIL : FRef := ⟨0x0C8, 4, 16, 16⟩
def fHEAL_HLOG3_TAG : FRef := ⟨0x0CC, 4, 0, 16⟩
def fHEAL_HLOG3_ACTION : FRef := ⟨0x0CC, 4, 16, 3⟩
def fHEAL_HLOG3_DIE : FRef := ⟨0x0CC, 4, 19, 4⟩
def fHEAL_HLOG3_VALID : FRef := ⟨0x0CC, 4, 31, 1⟩
def fDIE_STATUS_STATE : FRef := ⟨0x040, 4, 0, 4⟩
def fDIE_STATUS_CTL0_OK : FRef := ⟨0x040, 4, 4, 1⟩
def fDIE_STATUS_CTL1_OK : FRef := ⟨0x040, 4, 5, 1⟩
def fDIE_STATUS_CTXBUSY : FRef := ⟨0x040, 4, 6, 1⟩
def fDIE_RST_CORE_CORE : FRef := ⟨0x044, 4, 0, 8⟩
def fDIE_RST_CORE_GO : FRef := ⟨0x044, 4, 31, 1⟩
def fDIE_RST_CLUS_CLUS : FRef := ⟨0x048, 4, 0, 6⟩
def fDIE_RST_CLUS_GO : FRef := ⟨0x048, 4, 31, 1⟩
def fDIE_RST_STAT_BUSY : FRef := ⟨0x04C, 4, 0, 1⟩
def fDIE_RST_STAT_CODE : FRef := ⟨0x04C, 4, 8, 8⟩
def fDIE_INT_TGT_DIE : FRef := ⟨0x050, 4, 0, 4⟩
def fDIE_INT_TGT_NODE : FRef := ⟨0x050, 4, 4, 8⟩
def fDIE_WDOG_PERIOD : FRef := ⟨0x054, 4, 0, 16⟩
def fDIE_WDOG_KICK_KICK0 : FRef := ⟨0x058, 4, 0, 1⟩
def fDIE_WDOG_KICK_KICK1 : FRef := ⟨0x058, 4, 1, 1⟩
def fDIE_CTXOP_OP : FRef := ⟨0x060, 4, 0, 3⟩
def fDIE_CTXOP_GEN : FRef := ⟨0x060, 4, 8, 6⟩
def fDIE_CTXOP_CTX : FRef := ⟨0x060, 4, 16, 10⟩
def fDIE_CTXOP_GO : FRef := ⟨0x060, 4, 31, 1⟩
def fDIE_CTXOP_STAT_BUSY : FRef := ⟨0x064, 4, 0, 1⟩
def fDIE_CTXOP_STAT_CORES : FRef := ⟨0x064, 4, 1, 8⟩
def fDIE_CTXOP_STAT_CODE : FRef := ⟨0x064, 4, 16, 8⟩
def fAON_RST_CAUSE_CAUSE : FRef := ⟨0x040, 4, 0, 8⟩
def fAON_RST_CAUSE_PREV : FRef := ⟨0x040, 4, 8, 8⟩
def fAON_DIE_CAUSE0_D : FRef := ⟨0x044, 4, 0, 4⟩
def fAON_DIE_CAUSE1_D : FRef := ⟨0x048, 4, 0, 4⟩
def fAON_RST_CTL_KIND : FRef := ⟨0x04C, 4, 0, 2⟩
def fAON_RST_CTL_DIE : FRef := ⟨0x04C, 4, 4, 4⟩
def fAON_RST_CTL_GO : FRef := ⟨0x04C, 4, 31, 1⟩
def fAON_RST_STAT_BUSY : FRef := ⟨0x050, 4, 0, 1⟩
def fAON_RST_STAT_CODE : FRef := ⟨0x050, 4, 8, 8⟩
def fAON_HWDOG_PERIOD : FRef := ⟨0x054, 4, 0, 16⟩
def fAON_HWDOG_KICK_KICK : FRef := ⟨0x058, 4, 0, 1⟩
def fAON_RECOVERY_REPLAYS : FRef := ⟨0x05C, 4, 0, 3⟩
def fAON_RECOVERY_ESCALATE : FRef := ⟨0x05C, 4, 3, 1⟩
def fAON_RECOVERY_BARRIER : FRef := ⟨0x05C, 4, 8, 8⟩
def fAON_DRAIN_DRAIN : FRef := ⟨0x060, 4, 0, 20⟩
def fAON_RST_CLR_CLEAR : FRef := ⟨0x064, 4, 0, 1⟩
def fAON_READY_DONE : FRef := ⟨0x100, 4, 0, 1⟩
def fAON_READY_STEP : FRef := ⟨0x100, 4, 1, 4⟩
def fAON_READY_TK : FRef := ⟨0x100, 4, 5, 1⟩
def fAON_READY_WARM : FRef := ⟨0x100, 4, 6, 1⟩
def fAON_READY_WAITFAB : FRef := ⟨0x100, 4, 7, 1⟩
def fAON_READY_GRADE : FRef := ⟨0x100, 4, 8, 2⟩
def fAON_START_CFG_TK : FRef := ⟨0x104, 4, 0, 1⟩
def fAON_START_CFG_TKONCE : FRef := ⟨0x104, 4, 1, 1⟩
def fAON_START_CFG_FULLTRAIN : FRef := ⟨0x104, 4, 2, 1⟩
def fAON_START_CFG_WITHDRAW : FRef := ⟨0x104, 4, 3, 1⟩
def fAON_START_CFG_FP_MIN : FRef := ⟨0x104, 4, 4, 6⟩
def fAON_START_CFG_CW_MIN : FRef := ⟨0x104, 4, 10, 3⟩
def fAON_START_STAT_SLOT : FRef := ⟨0x108, 4, 0, 1⟩
def fAON_START_STAT_REJA : FRef := ⟨0x108, 4, 1, 1⟩
def fAON_START_STAT_REJB : FRef := ⟨0x108, 4, 2, 1⟩
def fAON_START_STAT_MEMREC : FRef := ⟨0x108, 4, 8, 5⟩
def fAON_START_STAT_PORTREC : FRef := ⟨0x108, 4, 16, 6⟩
def fAON_START_STAT_FABREC : FRef := ⟨0x108, 4, 24, 1⟩
def fAON_START_STAT_IMGMEM : FRef := ⟨0x108, 4, 25, 1⟩
def fAON_STEP_T_TIME : FRef := ⟨0x110, 4, 0, 28⟩
def fAON_GRADE_IN0_CDIES : FRef := ⟨0x130, 4, 0, 8⟩
def fAON_GRADE_IN0_PDIES : FRef := ⟨0x130, 4, 8, 2⟩
def fAON_GRADE_IN0_HCORES : FRef := ⟨0x130, 4, 10, 4⟩
def fAON_GRADE_IN0_STACKS : FRef := ⟨0x130, 4, 16, 5⟩
def fAON_GRADE_IN0_HOSTW : FRef := ⟨0x130, 4, 24, 3⟩
def fAON_GRADE_IN1_FPUP : FRef := ⟨0x134, 4, 0, 6⟩
def fAON_GRADE_IN1_CWUP : FRef := ⟨0x134, 4, 8, 3⟩
def fAON_GRADE_IN1_BRCL : FRef := ⟨0x134, 4, 16, 6⟩
def fAON_GOOD0_GOOD : FRef := ⟨0x138, 4, 0, 8⟩
def fAON_GOOD1_GOOD : FRef := ⟨0x13C, 4, 0, 8⟩
def fAON_GRADE_WHY_CDIE : FRef := ⟨0x140, 4, 0, 1⟩
def fAON_GRADE_WHY_FEWCORE : FRef := ⟨0x140, 4, 1, 1⟩
def fAON_GRADE_WHY_STACK : FRef := ⟨0x140, 4, 2, 1⟩
def fAON_GRADE_WHY_PDIE : FRef := ⟨0x140, 4, 3, 1⟩
def fAON_GRADE_WHY_HOST16 : FRef := ⟨0x140, 4, 4, 1⟩
def fAON_GRADE_WHY_FPORTS : FRef := ⟨0x140, 4, 5, 1⟩
def fAON_GRADE_WHY_CPORTS : FRef := ⟨0x140, 4, 6, 1⟩
def fAON_GRADE_WHY_BRIDGE : FRef := ⟨0x140, 4, 7, 1⟩
def fAON_GRADE_WHY_CORES : FRef := ⟨0x140, 4, 8, 1⟩
def fAON_GRADE_WHY_HOST8 : FRef := ⟨0x140, 4, 9, 1⟩
def fAON_GRADE_WHY_NOFAB : FRef := ⟨0x140, 4, 10, 1⟩
def fAON_GRADE_WHY_XTAL : FRef := ⟨0x140, 4, 11, 1⟩
def fAON_GRADE_WHY_SMALLEST : FRef := ⟨0x140, 4, 12, 1⟩
def fAON_TK_PROG_TESTED : FRef := ⟨0x144, 4, 0, 11⟩
def fAON_TK_PROG_CLOSED : FRef := ⟨0x144, 4, 16, 11⟩
def fCLUS_STATUS_RAIL : FRef := ⟨0x040, 4, 0, 2⟩
def fCLUS_STATUS_PLL : FRef := ⟨0x040, 4, 2, 2⟩
def fCLUS_STATUS_CLK_LOST : FRef := ⟨0x040, 4, 4, 1⟩
def fCLUS_STATUS_REGFAULT : FRef := ⟨0x040, 4, 5, 1⟩
def fCLUS_STATUS_THROTTLED : FRef := ⟨0x040, 4, 6, 1⟩
def fCLUS_STATUS_CSTATE : FRef := ⟨0x040, 4, 8, 2⟩
def fCLUS_CORE_PWR_T : FRef := ⟨0x044, 4, 0, 2⟩
def fCLUS_CTL_HOLD : FRef := ⟨0x048, 4, 0, 1⟩
def fCLUS_CTL_RELOCK : FRef := ⟨0x048, 4, 1, 1⟩
def fCLUS_CTL_RETV : FRef := ⟨0x048, 4, 8, 5⟩
def fCLUS_VSET_SETPT : FRef := ⟨0x04C, 4, 0, 7⟩
def fCLUS_VSET_OFFSET : FRef := ⟨0x04C, 4, 8, 7⟩
def fCLUS_VSET_VOUT : FRef := ⟨0x04C, 4, 16, 7⟩
def fCLUS_FREQ_TARGET : FRef := ⟨0x050, 4, 0, 7⟩
def fCLUS_FREQ_CURRENT : FRef := ⟨0x050, 4, 8, 7⟩
def fCLUS_FREQ_WALKF : FRef := ⟨0x050, 4, 16, 7⟩
def fCLUS_DIV_SWDIV : FRef := ⟨0x054, 4, 0, 2⟩
def fCLUS_DIV_EFF : FRef := ⟨0x054, 4, 8, 2⟩
def fCLK_STATUS_LOCKED : FRef := ⟨0x040, 4, 0, 1⟩
def fCLK_STATUS_CLK_LOST : FRef := ⟨0x040, 4, 1, 1⟩
def fCLK_STATUS_SREF_OK : FRef := ⟨0x040, 4, 2, 1⟩
def fCLK_STATUS_SREF_LOST : FRef := ⟨0x040, 4, 3, 1⟩
def fCLK_STATUS_HREF_OK : FRef := ⟨0x040, 4, 4, 1⟩
def fCLK_STATUS_XTAL_OK : FRef := ⟨0x040, 4, 5, 1⟩
def fCLK_STATUS_XTAL_FAIL : FRef := ⟨0x040, 4, 6, 1⟩
def fCLK_STATUS_ONRC : FRef := ⟨0x040, 4, 7, 1⟩
def fCLK_CTL_RELOCK : FRef := ⟨0x044, 4, 0, 1⟩
def fCLK_CTL_CLRLOST : FRef := ⟨0x044, 4, 1, 1⟩
def fCLK_XMEAS_PPM : FRef := ⟨0x048, 4, 0, 16⟩
def fCLK_XMEAS_WINS : FRef := ⟨0x048, 4, 16, 8⟩
def fCLK_RCTRIM_TRIM : FRef := ⟨0x04C, 4, 0, 8⟩
def fPWR_STATUS_DSTATE : FRef := ⟨0x040, 4, 0, 2⟩
def fPWR_STATUS_PHASES : FRef := ⟨0x040, 4, 2, 4⟩
def fPWR_STATUS_THROTTLED : FRef := ⟨0x040, 4, 6, 1⟩
def fPWR_STATUS_TEMP : FRef := ⟨0x040, 4, 8, 8⟩
def fPWR_STATUS_FDIE : FRef := ⟨0x040, 4, 16, 7⟩
def fPWR_DIE_CTL_IDLE_EN : FRef := ⟨0x044, 4, 0, 1⟩
def fPWR_DIE_CTL_IDLEDLY : FRef := ⟨0x044, 4, 8, 16⟩
def fPWR_THERM_TLIM : FRef := ⟨0x048, 4, 0, 7⟩
def fPWR_TEMP_SEL_SENSOR : FRef := ⟨0x04C, 4, 0, 6⟩
def fPWR_TEMP_TEMP : FRef := ⟨0x050, 4, 0, 8⟩
def fPWR_LIMIT_WATTS : FRef := ⟨0x080, 4, 0, 12⟩
def fPWR_MEAS_WATTS : FRef := ⟨0x084, 4, 0, 12⟩
def fPWR_MEAS_AMPS : FRef := ⟨0x084, 4, 16, 9⟩
def fPWR_LIM_CTL_LEN : FRef := ⟨0x088, 4, 0, 1⟩
def fPWR_LIM_CTL_RAISEGAP : FRef := ⟨0x088, 4, 8, 8⟩
def fPWR_LIM_CTL_MINF : FRef := ⟨0x088, 4, 16, 7⟩
def fPWR_LIM_STAT_FAPPLIED : FRef := ⟨0x08C, 4, 0, 7⟩
def fPWR_LIM_STAT_LIMFAIL : FRef := ⟨0x08C, 4, 7, 1⟩
def fPWR_LIM_STAT_ACTED : FRef := ⟨0x08C, 4, 8, 1⟩
def fPWR_LIM_STAT_THROTTLE : FRef := ⟨0x08C, 4, 9, 1⟩
def fPWR_STBY_ENTER : FRef := ⟨0x090, 4, 0, 1⟩
def fPWR_ALERT_EN_LIMFAIL : FRef := ⟨0x094, 4, 0, 1⟩
def fPWR_ALERT_EN_THERM : FRef := ⟨0x094, 4, 1, 1⟩
def fPWR_ALERT_EN_XTAL : FRef := ⟨0x094, 4, 2, 1⟩
def fPWR_ALERT_EN_PHASE : FRef := ⟨0x094, 4, 3, 1⟩
def fPWR_ALERT_EN_THROT : FRef := ⟨0x094, 4, 4, 1⟩
def fHOST_STATUS_WIDTH : FRef := ⟨0x040, 4, 0, 3⟩
def fHOST_STATUS_RATE : FRef := ⟨0x040, 4, 3, 3⟩
def fHOST_STATUS_FLIT : FRef := ⟨0x040, 4, 6, 1⟩
def fHOST_STATUS_NUMVF : FRef := ⟨0x040, 4, 8, 7⟩
def fHOST_STATUS_BAR2SIZE : FRef := ⟨0x040, 4, 16, 4⟩
def fHOST_BAR2_BASE_LO_BASE : FRef := ⟨0x044, 4, 30, 2⟩
def fHOST_BAR2_BASE_HI_BASE : FRef := ⟨0x048, 4, 0, 8⟩
def fHOST_EVENT_EV_DONE : FRef := ⟨0x04C, 4, 0, 1⟩
def fHOST_EVENT_EV_GRADE : FRef := ⟨0x04C, 4, 1, 1⟩
def fHOST_EVENT_EV_LOG : FRef := ⟨0x04C, 4, 2, 1⟩
def fHOST_EVENT_EV_CTXFAIL : FRef := ⟨0x04C, 4, 3, 1⟩
def fHOST_EVENT_EV_MBOX : FRef := ⟨0x04C, 4, 4, 1⟩
def fHOST_EVENT_EV_RINGERR : FRef := ⟨0x04C, 4, 5, 1⟩
def fHOST_RING_SEL_RING : FRef := ⟨0x050, 4, 0, 7⟩
def fHOST_RING_CMD_LO_ADDR : FRef := ⟨0x054, 4, 0, 32⟩
def fHOST_RING_CMD_HI_ADDR : FRef := ⟨0x058, 4, 0, 32⟩
def fHOST_RING_CPL_LO_ADDR : FRef := ⟨0x05C, 4, 0, 32⟩
def fHOST_RING_CPL_HI_ADDR : FRef := ⟨0x060, 4, 0, 32⟩
def fHOST_RING_CFG_LOGSIZE : FRef := ⟨0x064, 4, 0, 4⟩
def fHOST_RING_CFG_EN : FRef := ⟨0x064, 4, 4, 1⟩
def fHOST_RING_CFG_VECTOR : FRef := ⟨0x064, 4, 16, 11⟩
def fHOST_RING_STAT_HEAD : FRef := ⟨0x068, 4, 0, 16⟩
def fHOST_RING_STAT_STATE : FRef := ⟨0x068, 4, 16, 2⟩
def fHOST_RING_STAT_OWNER : FRef := ⟨0x068, 4, 24, 7⟩
def fHOST_RING_CPLW_CPLW : FRef := ⟨0x06C, 4, 0, 16⟩
def fHOST_RING_CPLW_CHEAD : FRef := ⟨0x06C, 4, 16, 16⟩
def fHOST_EVCFG_VECTOR : FRef := ⟨0x070, 4, 0, 11⟩
def fHOST_EVCFG_MASK : FRef := ⟨0x070, 4, 16, 6⟩
def fHOST_MBOX_IN_DATA : FRef := ⟨0x080, 4, 0, 32⟩
def fHOST_MBOX_OUT_DATA : FRef := ⟨0x090, 4, 0, 32⟩
def fHOST_DB_TAIL : FRef := ⟨0x400, 4, 0, 16⟩
def fHOST_DB_CHEAD : FRef := ⟨0x400, 4, 16, 16⟩
def fMGMT_STATUS_DADDR : FRef := ⟨0x040, 4, 0, 7⟩
def fMGMT_STATUS_ROMONLY : FRef := ⟨0x040, 4, 7, 1⟩
def fMGMT_STATUS_EID : FRef := ⟨0x040, 4, 8, 8⟩
def fMGMT_STATUS_FWUP : FRef := ⟨0x040, 4, 16, 3⟩
def fMGMT_STATUS_UPSLOT : FRef := ⟨0x040, 4, 19, 1⟩
def fAUTH_STATUS_DBGCLOSED : FRef := ⟨0x040, 4, 0, 1⟩
def fAUTH_STATUS_MGMTCLOSED : FRef := ⟨0x040, 4, 1, 1⟩
def fAUTH_STATUS_DBGLOCK : FRef := ⟨0x040, 4, 2, 1⟩
def fAUTH_STATUS_BOOTKEY : FRef := ⟨0x040, 4, 4, 2⟩
def fAUTH_DBG_LOCK_LOCK : FRef := ⟨0x044, 4, 0, 1⟩
def fAUTH_VF_SEL_VF : FRef := ⟨0x048, 4, 0, 6⟩
def fAUTH_VF_BIND_TAG : FRef := ⟨0x04C, 4, 0, 16⟩
def fAUTH_VF_BIND_BOUND : FRef := ⟨0x04C, 4, 16, 1⟩
def fFUSE_VAL_DBG_CLOSE : FRef := ⟨0x040, 4, 0, 1⟩
def fFUSE_VAL_MGMT_CLOSE : FRef := ⟨0x040, 4, 1, 1⟩
def fFUSE_VAL_KEY_REVOKE : FRef := ⟨0x040, 4, 4, 4⟩
def fFUSE_SVN_SVN_MIN : FRef := ⟨0x044, 4, 0, 32⟩
def fFUSE_SERIAL_LO_SERIAL : FRef := ⟨0x048, 4, 0, 32⟩
def fFUSE_SERIAL_HI_SERIAL : FRef := ⟨0x04C, 4, 0, 32⟩
def fFUSE_ARM_KEY : FRef := ⟨0x050, 4, 0, 32⟩
def fFUSE_CMD_CODE : FRef := ⟨0x054, 4, 0, 4⟩
def fFUSE_CMD_ARG : FRef := ⟨0x054, 4, 4, 2⟩
def fFUSE_CMD_GO : FRef := ⟨0x054, 4, 31, 1⟩
def fFUSE_STAT_BUSY : FRef := ⟨0x058, 4, 0, 1⟩
def fFUSE_STAT_ARMED : FRef := ⟨0x058, 4, 1, 1⟩
def fFUSE_STAT_CODE : FRef := ⟨0x058, 4, 8, 8⟩
def fGAUGE_SRC_SRC : FRef := ⟨0x040, 4, 0, 7⟩
def fGAUGE_SRC_INST : FRef := ⟨0x040, 4, 8, 8⟩
def fGAUGE_SRC_SUB : FRef := ⟨0x040, 4, 16, 10⟩
def fGAUGE_WIN_MODE : FRef := ⟨0x044, 4, 0, 2⟩
def fGAUGE_WIN_LEN : FRef := ⟨0x044, 4, 8, 24⟩
def fGAUGE_CTX_CTX : FRef := ⟨0x048, 4, 0, 10⟩
def fGAUGE_PERIOD_PERIOD : FRef := ⟨0x04C, 4, 0, 16⟩
def fGAUGE_CSEL_PAGE : FRef := ⟨0x050, 4, 0, 11⟩
def fGAUGE_CSEL_PAIR : FRef := ⟨0x050, 4, 16, 7⟩
def fGAUGE_ALARM_VALUE : FRef := ⟨0x054, 4, 0, 32⟩
def fGAUGE_CTL_RUN : FRef := ⟨0x058, 4, 0, 1⟩
def fGAUGE_CTL_CLOSE : FRef := ⟨0x058, 4, 1, 1⟩
def fGAUGE_EDGE_EDGE : FRef := ⟨0x080, 4, 0, 32⟩
def fG_COUNT_LO_COUNT : FRef := ⟨0x800, 4, 0, 32⟩
def fG_COUNT_HI_COUNT : FRef := ⟨0x804, 4, 0, 32⟩
def fG_SUM_LO_SUM : FRef := ⟨0x808, 4, 0, 32⟩
def fG_SUM_HI_SUM : FRef := ⟨0x80C, 4, 0, 32⟩
def fG_MIN_MIN : FRef := ⟨0x810, 4, 0, 32⟩
def fG_MAX_MAX : FRef := ⟨0x814, 4, 0, 32⟩
def fG_SEQ_SEQ : FRef := ⟨0x818, 4, 0, 32⟩
def fG_MILE_MILE : FRef := ⟨0x81C, 4, 0, 32⟩
def fG_TSTART_LO_TIME : FRef := ⟨0x820, 4, 0, 32⟩
def fG_TSTART_HI_TIME : FRef := ⟨0x824, 4, 0, 32⟩
def fG_TEND_LO_TIME : FRef := ⟨0x828, 4, 0, 32⟩
def fG_TEND_HI_TIME : FRef := ⟨0x82C, 4, 0, 32⟩
def fG_DROP_DROP : FRef := ⟨0x830, 4, 0, 32⟩
def fG_FLAGS_PARTIAL : FRef := ⟨0x834, 4, 0, 1⟩
def fG_FLAGS_NOCTR : FRef := ⟨0x834, 4, 1, 1⟩
def fG_BINk_BIN : FRef := ⟨0x840, 4, 0, 32⟩

end Sys2Proof.Machine
end

