-- ==== Sys2Proof/Machine/Table.lean ====
section
/-! DEFINITION. Reading and writing the sorted tables of Word.lean, and the byte memory in its one canonical form. -/
namespace Sys2Proof.Machine

/-- What the table holds at a key; `d` where it lists nothing. -/
def tget {α : Type} (d : α) : Tbl α → Nat → α
  | [], _ => d
  | (k, v) :: t, n => if n = k then v else if n < k then d else tget d t n

/-- The table with `v` at key `n`. -/
def tput {α : Type} : Tbl α → Nat → α → Tbl α
  | [], n, v => [(n, v)]
  | (k, w) :: t, n, v =>
    if n = k then (n, v) :: t else if n < k then (n, v) :: (k, w) :: t else (k, w) :: tput t n v

/-- The table with nothing listed at key `n`. -/
def tdel {α : Type} : Tbl α → Nat → Tbl α
  | [], _ => []
  | (k, w) :: t, n => if n = k then t else if n < k then (k, w) :: t else (k, w) :: tdel t n

/-- The keys rise strictly. -/
def twf {α : Type} : Tbl α → Bool
  | [] => true
  | [_] => true
  | (k, _) :: (l, w) :: t => decide (k < l) && twf ((l, w) :: t)

/-- The entries whose key and value meet `p`. -/
def tfilter {α : Type} (p : Nat → α → Bool) (t : Tbl α) : Tbl α := t.filter (fun e => p e.1 e.2)

/-- Every listed value changed by `f`. -/
def tmap {α β : Type} (f : Nat → α → β) : Tbl α → Tbl β
  | [] => []
  | (k, v) :: t => (k, f k v) :: tmap f t

/-- What an unlisted byte of memory reads as: zero, since step 4 of the start writes every memory block with zeros
(R529; log entry 2). -/
def memBlank : Byte := 0

/-- One byte of memory. -/
def memGet (m : Tbl Byte) (a : Nat) : Byte := tget memBlank m a

/-- One byte written; a byte equal to what an unlisted address reads as is not listed. -/
def memPut (m : Tbl Byte) (a : Nat) (b : Byte) : Tbl Byte := if b = memBlank then tdel m a else tput m a b

/-- Bytes written at rising addresses. -/
def memPutAll (m : Tbl Byte) (a : Nat) : List Byte → Tbl Byte
  | [] => m
  | b :: bs => memPutAll (memPut m a b) (a + 1) bs

/-- `n` bytes read at rising addresses. -/
def memGetAll (m : Tbl Byte) (a : Nat) : Nat → List Byte
  | 0 => []
  | n + 1 => memGet m a :: memGetAll m (a + 1) n

/-- The canonical form of memory: addresses strictly rising, no entry equal to an unlisted byte. -/
def memWf (m : Tbl Byte) : Bool := twf m && m.all (fun e => e.2 != memBlank)

/-- A little-endian word of `n` bytes as a number. -/
def leNat : List Byte → Nat
  | [] => 0
  | b :: bs => b.toNat + 256 * leNat bs

/-- The `n` little-endian bytes of a number. -/
def natLe : Nat → Nat → List Byte
  | 0, _ => []
  | n + 1, v => BitVec.ofNat 8 v :: natLe n (v / 256)

/-- Bit `i` of a number. -/
def bit (v i : Nat) : Bool := v / 2 ^ i % 2 == 1
/-- Bits `hi:lo` of a number, as `w` bits from `lo`. -/
def bits (v lo w : Nat) : Nat := v / 2 ^ lo % 2 ^ w
/-- A number with the `w` bits from `lo` replaced. -/
def setBits (v lo w x : Nat) : Nat := v - bits v lo w * 2 ^ lo + x % 2 ^ w * 2 ^ lo
/-- 1 for true. -/
def b2n (b : Bool) : Nat := if b then 1 else 0
/-- The list with position `i` changed by `f`. -/
def lmod {α : Type} (f : α → α) : List α → Nat → List α
  | [], _ => []
  | a :: l, 0 => f a :: l
  | a :: l, i + 1 => a :: lmod f l i
/-- How many entries meet `p`. -/
def countp {α : Type} (p : α → Bool) : List α → Nat
  | [] => 0
  | a :: l => (if p a then 1 else 0) + countp p l

/-- A value put into a list before the first value it may stand before. -/
def insertBy {α : Type} (before : α → α → Bool) (a : α) : List α → List α
  | [] => [a]
  | b :: l => if before a b then a :: b :: l else b :: insertBy before a l
/-- A list in order; values that may stand either way keep theirs. -/
def sortBy {α : Type} (before : α → α → Bool) : List α → List α
  | [] => []
  | a :: l => insertBy before a (sortBy before l)

end Sys2Proof.Machine
end

