-- ==== Sys2Proof/Machine/Pages.lean ====
section
/-! DEFINITION. Where each page stands (R32, R33, R60) and which registers it holds (R34). -/
namespace Sys2Proof.Machine

/-- Type code of R48. -/
def Blk.code : Blk → Nat
  | .core => 0x01 | .flow => 0x02 | .spad => 0x03 | .qeng => 0x04 | .rout => 0x05 | .clus => 0x10 | .die => 0x11
  | .memc => 0x12 | .brdg => 0x13 | .gauge => 0x14 | .host => 0x20 | .mgmt => 0x21 | .auth => 0x22 | .fuse => 0x23
  | .aon => 0x24 | .clk => 0x25 | .pwr => 0x26 | .sign => 0x27 | .heal => 0x28 | .healHub => 0x28 | .port => 0x30
  | .cause => 0x31 | .xtab => 0x32

/-- Block registers, without the header. -/
def Blk.regs : Blk → List RegSpec
  | .core => regs_core | .flow => regs_flow | .spad => regs_spad | .qeng => regs_qeng | .rout => regs_rout
  | .clus => regs_clus | .die => regs_die | .memc => regs_memc | .brdg => regs_brdg | .gauge => regs_gauge
  | .host => regs_host | .mgmt => regs_mgmt | .auth => regs_auth | .fuse => regs_fuse | .aon => regs_aon
  | .clk => regs_clk | .pwr => regs_pwr | .sign => regs_sign | .heal => regs_heal | .healHub => regs_healHub
  | .port => regs_port | .cause => regs_cause | .xtab => regs_xtab

/-- WMASK of R654. -/
def Blk.wmask : Blk → Nat
  | .core => 0x63 | .flow => 0x63 | .spad => 0x63 | .qeng => 0x63 | .rout => 0x63
  | .host => 0x61
  | .mgmt => 0x64 | .auth => 0x64 | .fuse => 0x64
  | _ => 0x65

/-- RMASK of R654. -/
def Blk.rmask : Blk → Nat
  | .core => 0x67 | .flow => 0x67 | .spad => 0x67 | .qeng => 0x67 | .rout => 0x67
  | _ => 0x65

/-- The classes to which the chapters restrict a whole page (R324, R400, R491, R519, R610); 127 where they restrict none.
MGMT may write HEAL_CLOSE of H's HEAL page, which that register's own row says. -/
def Blk.pageCls : Blk → Nat
  | .sign => 0x60 | .xtab => 0x60 | .die => 0x60 | .mgmt => 0x60 | .healHub => 0x60
  | _ => 127

/-- The classes of a chapter's rule for the fields a page's own rows do not name: R571 for PWR. -/
def Blk.restCls : Blk → Nat
  | .pwr => 0x60
  | _ => 127

/-- A core page, by core index 144·die + core (R33). -/
def corePage (b : Blk) (c : Nat) : PageId := ⟨b, c / 144, c % 144⟩
/-- The cluster of a core index, as 36·die + k (R7). -/
def clusterOf (c : Nat) : Nat := c / 144 * 36 + (c % 144 / 12 / 2) * 6 + c % 12 / 2
/-- The place of a core in its cluster, as CLUS registers number it (R569). -/
def clusterSlot (c : Nat) : Nat := c % 144 / 12 % 2 * 2 + c % 12 % 2
/-- The four cores of a cluster index. -/
def clusterCores (k : Nat) : List Nat :=
  let c0 := k / 36 * 144 + (k % 36 / 6 * 2) * 12 + k % 36 % 6 * 2
  [c0, c0 + 1, c0 + 12, c0 + 13]
/-- The CLUS page of a cluster index. -/
def clusPage (k : Nat) : PageId := ⟨.clus, k / 36, k % 36⟩
/-- The hub's die-level pages and those of a die. -/
def hubPage (b : Blk) : PageId := ⟨b, 8, 0⟩
def diePage (b : Blk) (d : Nat) : PageId := ⟨b, d, 0⟩
/-- The MEMC page of stack m (R8, R60). -/
def memcPage (m : Nat) : PageId := ⟨.memc, m / 2, m % 2⟩
/-- The PORT page of fabric port FPp, p = 0–35. -/
def fpPage (p : Nat) : PageId := ⟨.port, 9 + p / 18, p % 18⟩
/-- The CAUSE page of causeway port CWw, w = 0–3. -/
def cwPage (w : Nat) : PageId := ⟨.cause, 9 + w / 2, w % 2⟩
/-- The page of port 0–39 in the numbering of R388: 0–35 fabric, 36–39 causeway. -/
def portPage (p : Nat) : PageId := if p < 36 then fpPage p else cwPage (p - 36)
/-- The page that holds the one module-wide set of twin registers (R436). -/
def twinPage : PageId := ⟨.cause, 9, 0⟩

/-- Page number within the die (R33, R60). -/
def PageId.num (p : PageId) : Nat :=
  match p.blk with
  | .core => p.inst * 8 | .flow => p.inst * 8 + 1 | .spad => p.inst * 8 + 2 | .qeng => p.inst * 8 + 3
  | .rout => p.inst * 8 + 4
  | .clus => 1280 + p.inst
  | .die => 1536 | .clk => 1537 | .pwr => 1538 | .aon => 1539
  | .memc => 1540 + p.inst
  | .brdg => (if p.die < 9 then 1544 else 1566) + p.inst
  | .gauge => (if p.die < 9 then 1552 else 1568) + p.inst
  | .host => 1540 | .mgmt => 1541 | .auth => 1542 | .fuse => 1543
  | .sign => if p.die < 8 then 1548 else 1546
  | .heal => 1568 | .healHub => 1548
  | .port => 1540 + p.inst | .cause => 1560 + p.inst | .xtab => 1564

/-- The 15-bit page number (R32). -/
def PageId.no (p : PageId) : Nat := p.die * 2048 + p.num

/-- The key of a register word in the register table. -/
def regKey (p : PageId) (off : Nat) : Nat := p.no * 1024 + off / 4

/-- Which sides of a compute die have bridges (R16, R60): 0 north, 1 east, 2 south, 3 west. A port die stands west of C0 and
C4 and east of C3 and C7; H lies south of C5 and C6. -/
def brdgPresent (d inst : Nat) : Bool :=
  if d < 8 then
    match inst with
    | 0 => decide (d ≥ 4)
    | 1 => true
    | 2 => decide (d < 4) || d == 5 || d == 6
    | _ => decide (inst = 3)
  else decide (d < 11) && decide (inst < 2)

/-- How many bridges a side has (R16): four between row neighbours, two between column neighbours, one to H or a port die. -/
def brdgCount (d inst : Nat) : Nat :=
  if d < 8 then
    match inst with
    | 0 => 2
    | 1 => if d % 4 = 3 then 1 else 4
    | 2 => if d < 4 then 2 else 1
    | _ => if d % 4 = 0 then 1 else 4
  else 1

/-- The page of a 15-bit page number; none where the number is unimplemented (R32, R33, R60). -/
def pageOf (no : Nat) : Option PageId :=
  let d := no / 2048
  let n := no % 2048
  if d < 8 then
    if n < 1152 then
      match n % 8 with
      | 0 => some ⟨.core, d, n / 8⟩
      | 1 => some ⟨.flow, d, n / 8⟩
      | 2 => some ⟨.spad, d, n / 8⟩
      | 3 => some ⟨.qeng, d, n / 8⟩
      | 4 => some ⟨.rout, d, n / 8⟩
      | _ => none
    else if n < 1280 then none
    else if n < 1316 then some ⟨.clus, d, n - 1280⟩
    else if n = 1536 then some ⟨.die, d, 0⟩
    else if n = 1537 then some ⟨.clk, d, 0⟩
    else if n = 1538 then some ⟨.pwr, d, 0⟩
    else if n = 1540 ∨ n = 1541 then some ⟨.memc, d, n - 1540⟩
    else if 1544 ≤ n ∧ n < 1548 then (if brdgPresent d (n - 1544) then some ⟨.brdg, d, n - 1544⟩ else none)
    else if n = 1548 then some ⟨.sign, d, 0⟩
    else if 1552 ≤ n ∧ n < 1560 then some ⟨.gauge, d, n - 1552⟩
    else if n = 1568 then some ⟨.heal, d, 0⟩
    else none
  else if d = 8 then
    match n with
    | 1536 => some ⟨.die, 8, 0⟩ | 1537 => some ⟨.clk, 8, 0⟩ | 1538 => some ⟨.pwr, 8, 0⟩ | 1539 => some ⟨.aon, 8, 0⟩
    | 1540 => some ⟨.host, 8, 0⟩ | 1541 => some ⟨.mgmt, 8, 0⟩ | 1542 => some ⟨.auth, 8, 0⟩ | 1543 => some ⟨.fuse, 8, 0⟩
    | 1544 => some ⟨.brdg, 8, 0⟩ | 1545 => some ⟨.brdg, 8, 1⟩ | 1546 => some ⟨.sign, 8, 0⟩ | 1548 => some ⟨.healHub, 8, 0⟩
    | _ => if 1552 ≤ n ∧ n < 1560 then some ⟨.gauge, 8, n - 1552⟩ else none
  else if d < 11 then
    if n = 1536 then some ⟨.die, d, 0⟩
    else if n = 1537 then some ⟨.clk, d, 0⟩
    else if n = 1538 then some ⟨.pwr, d, 0⟩
    else if 1540 ≤ n ∧ n < 1558 then some ⟨.port, d, n - 1540⟩
    else if n = 1560 ∨ n = 1561 then some ⟨.cause, d, n - 1560⟩
    else if n = 1564 then some ⟨.xtab, d, 0⟩
    else if n = 1566 ∨ n = 1567 then some ⟨.brdg, d, n - 1566⟩
    else if 1568 ≤ n ∧ n < 1572 then some ⟨.gauge, d, n - 1568⟩
    else none
  else none

/-- Whether a register row holds the offset. -/
def RegSpec.holds (r : RegSpec) (off : Nat) : Bool :=
  decide (r.off ≤ off) && (off - r.off) % r.stride == 0 && decide ((off - r.off) / r.stride < r.count)

/-- Offsets of a block that exist on some dies only: DIE_RST_CORE, DIE_RST_CLUS and DIE_CTXOP on compute dies (R519);
CLK_XMEAS and CLK_RCTRIM on H (R570); PWR 0x080–0x094 and the counters 0xC10–0xC24 on H (R571, R573). -/
def onThisDie (p : PageId) (off : Nat) : Bool :=
  match p.blk with
  | .die => decide (p.die < 8) || !(off == 0x44 || off == 0x48 || off == 0x60 || off == 0x64)
  | .clk => p.die == 8 || !(off == 0x48 || off == 0x4C)
  | .pwr => p.die == 8 || !((decide (0x80 ≤ off) && decide (off < 0x98)) || (decide (0xC10 ≤ off) && decide (off < 0xC28)))
  | _ => true

/-- The rows a page has. A CAUSE page has those of a PORT page too (R436). -/
def PageId.rows (p : PageId) : List RegSpec :=
  match p.blk with
  | .cause => regs_port ++ regs_cause
  | b => b.regs

/-- A register whose reset values or writers depend on the page: bridges used are those built on the side (R16, R325); phases by die
(R546); of the AON page's registers that no row restricts, the fields are INTERNAL's and DEBUG's (R522, R655). -/
def onPage (p : PageId) (r : RegSpec) : RegSpec :=
  if p.blk == .aon && r.cls == 127 then { r with fields := r.fields.map (fun f => { f with cls := f.cls &&& 0x60 }) } else
  if p.blk == .brdg && r.off == 0x44 then
    let m := 2 ^ brdgCount p.die p.inst - 1
    { r with fields := r.fields.map (fun f => { f with reset := m }) }
  else if p.blk == .pwr && r.off == 0x40 && decide (8 ≤ p.die) then
    { r with fields := r.fields.map (fun f => if f.lo == 2 then { f with reset := if p.die = 8 then 2 else 3 } else f) }
  else r

/-- The register at an offset of a page; none where the offset is unimplemented (R34, R36). The reserved header offset 0x03C is taken for
an unimplemented one (DESIGN CHOICE, log entry 108). -/
def specOf (p : PageId) (off : Nat) : Option RegSpec :=
  if off < 0x40 then regs_hdr.find? (fun r => r.holds off)
  else if onThisDie p off then (p.rows.find? (fun r => r.holds off)).map (onPage p) else none

/-- A field's own bits of a word. -/
def FieldSpec.of (f : FieldSpec) (v : Nat) : Nat := bits v f.lo f.w

/-- The word made of the fields' reset values. -/
def resetWord : List FieldSpec → Nat
  | [] => 0
  | f :: fs => setBits (resetWord fs) f.lo f.w f.reset

end Sys2Proof.Machine
end

