-- ==== Sys2Proof/Machine/State.lean ====
section
/-! DEFINITION. The state of the module as plain data. Every register of the spec's tables has its home in `regs` (see
Machine/RegMap.lean); first-error captures have theirs in `caps`; everything else the spec gives the module stands in the records
below. A table lists only what differs from the value its reader names. -/
namespace Sys2Proof.Machine
open Sys2Proof

/-- Why the machine stops with a fault. -/
inductive Fault where
  /-- Raised by a command that names a core, die, stack, port, bridge or link the module does not have; no such command
  exists on the module. Safe. -/
  | noSuchUnit
  deriving DecidableEq, Repr

/-- Why a command has no meaning. -/
inductive Refusal where
  /-- A command not reached yet, by its row's mnemonic; raised in Dispatch.lean only. Safe. -/
  | notModelled (mnemonic : String)
  deriving DecidableEq, Repr

/-- A page's first-error capture (R53). -/
structure Cap where
  code : Nat := 0
  source : Nat := 0
  valid : Bool := false
  overflow : Bool := false
  count : Nat := 0
  tag : Nat := 0
  detail : Nat := 0
  addr : Nat := 0
  deriving DecidableEq, Repr

/-! ### The matrix array (chapter 4) -/

/-- A fabric token: payload (2,048, 32 or 1 bits), poison, configuration epoch (R125, R126). -/
structure Tok where
  val : Nat := 0
  poison : Bool := false
  ep : Nat := 0
  deriving DecidableEq, Repr

/-- A loaded tile image: its formats, its tokens in order, poison, the column of an invalid metadata nibble (R94–R98), and the residues
stored beside the weights, four bits each by 4,096·tile + 64·row + column (R110), and the bits of its elements that have changed since (R114). -/
structure Tile where
  wfmt : Nat := 0
  sparse : Bool := false
  img : List Nat := []
  poison : Bool := false
  badCol : Option Nat := none
  res : Nat := 0
  hits : List Nat := []
  deriving DecidableEq, Repr

/-- An accumulator entry: 64 FP32 values under one poison mark (R101, R104), a parity bit for each (R111). -/
structure AccEntry where
  valid : Bool := false
  poison : Bool := false
  lanes : List Word := []
  par : List Bool := []
  deriving DecidableEq, Repr

/-- The operand tokens of one sequence, held in the replay buffer until the pass ends (R93, R113). -/
structure SeqIn where
  act : Tok
  as0 : Tok
  as1 : Tok
  iv : Tok
  deriving DecidableEq, Repr

/-- A pass in progress (R100, R113, R114). `done` counts committed or emitted sequences, `entered` those that have entered; `inject` is the
column of an injection (R119). -/
structure Pass where
  nseq : Nat := 0
  bank : Nat := 0
  start : Bool := false
  emit : Bool := false
  entered : List SeqIn := []
  done : Nat := 0
  tries : Nat := 0
  poisonFrom : Option Nat := none
  inject : Option Nat := none
  noTile : Bool := false
  badEntry : Bool := false
  deriving DecidableEq, Repr

/-- The array of one core (R101, R105, R113, R120). -/
structure Arr where
  active : Option Tile := none
  shadow : Nat := 0
  shTile : Tile := {}
  bank0 : Tbl AccEntry := []
  bank1 : Tbl AccEntry := []
  pass : Option Pass := none
  retrying : Bool := false
  deriving DecidableEq, Repr

/-! ### The fabric (chapter 5) -/

/-- A link of the active configuration: queue with its head first, credits held, tokens and credits in flight, credits taken by firings that have not
emitted, and the largest
queue length since PEAK was read (R127, R133, R134, R153). -/
structure Link where
  q : List Tok := []
  credits : Nat := 0
  fly : List Tok := []
  cfly : Nat := 0
  pipe : Nat := 0
  peak : Nat := 0
  deriving DecidableEq, Repr

/-- A spill queue: staging buffers, ring contents and ring pointers (R139). -/
structure Spill where
  inBuf : List Tok := []
  ring : List Tok := []
  wr : Nat := 0
  outBuf : List Tok := []
  deriving DecidableEq, Repr

/-- The CFGSW under way: form, the module time it was issued, whether the old configuration has been left (R146–R150). -/
structure Cfgsw where
  purge : Bool
  issued : Nat
  switched : Bool := false
  deriving DecidableEq, Repr

/-- The fabric of one core: two configuration buffers in words, links of the active one, an image load or a validation under
way, a CFGSW under way, and the probes launched, each with its edge and since when that was blocked (R142–R157). -/
structure Fab where
  buf0 : Tbl Word := []
  buf1 : Tbl Word := []
  links : Tbl Link := []
  load : Option Nat := none
  loadAt : Nat := 0
  check : Option Nat := none
  sw : Option Cfgsw := none
  probes : List (Probe × Edge × Nat) := []
  lastProbe : Option Nat := none
  probeId : Nat := 0
  snap : Nat := 0
  deriving DecidableEq, Repr

/-! ### Compute units, memory units and the sequencer (chapter 6) -/

/-- A firing of a compute unit that has not emitted: its outputs per port, its attempts (R166). -/
structure Firing where
  outs : List (Nat × List Tok)
  tries : Nat := 0
  retried : Bool := false
  nan : Nat := 0
  ovf : Nat := 0
  sat : Nat := 0
  deriving DecidableEq, Repr

/-- A compute unit: its pipeline, oldest first, groups updated since activation, the update constants and the milestone they
were read for (R161, R168, R169). -/
structure Cu where
  pipe : List Firing := []
  groups : Nat := 0
  consts : Option (List Word × Bool × Nat) := none
  deriving DecidableEq, Repr

/-- A memory unit's walk: accesses issued, how many it has, base, whether its index was poisoned or its range refused, and the
reads not yet emitted (R172–R177). -/
structure Walk where
  issued : Nat := 0
  total : Nat := 0
  base : Int := 0
  dead : Bool := false
  refused : Bool := false
  deriving DecidableEq, Repr

structure Mu where
  walk : Option Walk := none
  emit : List Tok := []
  trig1 : Bool := false
  spill : Spill := {}
  deriving DecidableEq, Repr

/-- What the sequencer waits on, with the destination register and the module time the wait began (R183–R188). -/
inductive Wait where
  | none
  | qpop (rd slot since : Nat)
  | qsel (rd mask bank : Nat) (rot : Bool) (timeout since : Nat)
  | chopen (rd chan : Nat)
  | mile (rd : Nat) (n : Word)
  | nap (rd mask timer since : Nat)
  | cfgsw (rd : Nat)
  deriving DecidableEq, Repr

/-- A QSEND or DMAGO the sequencer issued and its final outcome (R184). -/
structure Issued where
  id : Nat
  outcome : Option Nat
  deriving DecidableEq, Repr

/-- The sequencer beyond its CORE-page registers: x1–x31, CSRs, local memory, what it waits on, wake causes, window latches
(R179–R188). -/
structure Seq where
  x : Tbl Word := []
  mcause : Word := 0
  mepc : Word := 0
  mtval : Word := 0
  mtvec : Word := 0
  qhi : Word := 0
  mxstat : Nat := 0
  instret : DWord := 0
  cycle : DWord := 0
  lm : Tbl Byte := []
  fresh : Bool := true
  wait : Wait := .none
  napped : Bool := false
  causes : Nat := 0
  lastSel0 : Option Nat := none
  lastSel1 : Option Nat := none
  hiLatch : Tbl Word := []
  wakeQ : DWord := 0
  mboxIn : Word := 0
  issued : List Issued := []
  nextId : Nat := 0
  digest : Option (Nat × DWord) := none
  deriving DecidableEq, Repr

/-! ### Scratchpad and DMA (chapter 7) -/

/-- A live range; the list of them is in issue order (R197–R199). -/
structure Range where
  start : Nat
  len : Nat
  write : Bool
  owner : Nat
  id : Nat := 0
  granted : Bool := false
  deriving DecidableEq, Repr

/-- A DMA descriptor with what has come of it (R218–R222): reissues by memory address of the request, ranges asked for so far. -/
structure Desc where
  op : Nat
  fence : Bool
  notify : Bool
  nq : Nat
  tag : Nat
  len : Nat
  saddr : Nat
  remote : Nat
  nlines : Nat
  rstride : Int
  sstride : Nat
  daddr : Nat := 0
  id : Nat := 0
  running : Bool := false
  code : Nat := 0
  reissues : Tbl Nat := []
  asked : Nat := 0
  moved : Nat := 0
  notified : Bool := false
  deriving DecidableEq, Repr

/-- An access through BAR4 (`via` 0) or the debug port (1) that waits at a scratchpad's bank or region (R202, R209, R212): byte address within
the core, bytes, the words already served and what they gave. -/
structure ExtAcc where
  via : Nat
  addr : Nat
  n : Nat
  write : Bool
  data : List Byte
  done : Nat := 0
  got : List Byte := []
  deriving DecidableEq, Repr

/-- The scratchpad of one core beyond its SPAD-page registers (R193, R195, R197, R205, R209, R213, R217): words and poison flags, live ranges,
dirty rows, regions being recoded, write-backs, banks with a held target, the DMA engine, the banks' write queues with the oldest first, by
rank of R195 the requester served last, and external accesses that wait. -/
structure Spad where
  words : Tbl DWord := []
  pois : Tbl Bool := []
  ranges : List Range := []
  dirty : Tbl Bool := []
  recode : List Nat := []
  wback : List (Nat × DWord) := []
  flips : Tbl Nat := []
  wq : List (Nat × DWord × Bool) := []
  turn : Tbl Nat := []
  held : Tbl Bool := []
  ext : List ExtAcc := []
  dma : List Desc := []
  dmaDone : Nat := 0
  deriving DecidableEq, Repr

/-! ### The queue engine (chapters 8 and 9) -/

/-- A sender channel entry (R230, R231). `convoy` holds the CVID of a convoy entry; `att`, `busy` and `wait` belong to a CHOPEN
under way; `gone` says an outcome of a CLOSING entry showed its handle released (R234); `notice` that its CLOSE notice was sent;
`sent` and `chain` are its part of the step digest (R451). -/
structure Chan where
  state : Nat := 0
  en : Nat := 0
  slot : Nat := 0
  handle : Nat := 0
  rgen : Nat := 0
  next : Nat := 0
  kind : Nat := 0
  maxlen : Nat := 0
  mode : Nat := 0
  code : Nat := 0
  cidx : Nat := 0
  convoy : Option Nat := none
  att : Nat := 0
  busy : Bool := false
  backoff : Nat := 0
  wait : Bool := false
  gone : Bool := false
  notice : Bool := false
  sent : Nat := 0
  chain : DWord := 0
  deriving DecidableEq, Repr

/-- A receiver handle (R230, R263): state 0 FREE, 1 BOUND, 2 HOLDOFF. -/
structure Handle where
  state : Nat := 0
  en : Nat := 0
  slot : Nat := 0
  exp : Nat := 0
  idx : Nat := 0
  sidx : Nat := 0
  ctag : Nat := 0
  conv : Bool := false
  cvid : Nat := 0
  deriving DecidableEq, Repr

/-- An entry of a register queue: its word, its poison, and the length of the message it begins (R246, R254). -/
structure RegEnt where
  word : DWord
  poison : Bool
  first : Bool
  len : Nat
  deriving DecidableEq, Repr

/-- A round buffer of a junction (R262, R267): 0 FREE, 1 ACCUM, 2 DONE; contributors added per part; whether its result has been
popped, or entered as the message of an id. -/
structure JBuf where
  st : Nat := 0
  poison : Bool := false
  added : Tbl Nat := []
  popped : Bool := false
  fwd : Option Nat := none
  deriving DecidableEq, Repr

/-- A queue slot beyond its registers (R243–R248, R267). -/
structure SlotQ where
  regq : List RegEnt := []
  head : Nat := 0
  tail : Nat := 0
  used : Nat := 0
  held : Nat := 0
  commits : Nat := 0
  senders : List Nat := []
  jround : Nat := 0
  j0 : JBuf := {}
  j1 : JBuf := {}
  deriving DecidableEq, Repr

/-- A reassembly buffer in use (R241). -/
structure Reasm where
  handle : Nat
  seq : Nat
  att : Nat
  rgen : Nat
  npart : Nat
  len : Nat
  parts : Tbl (List DWord)
  poison : Bool
  deriving DecidableEq, Repr

/-- Who a message's outcome concerns: the sequencer, a QY port with a staging buffer, or a junction's forward. -/
inductive MsgSrc where
  | seq
  | qy (port buf : Nat)
  | fwd (slot buf : Nat)
  deriving DecidableEq, Repr

/-- A message without a final outcome (R236, R249): `seq` once it has left the send queue. `again` marks a later sending that waits for
its range, `ranged` one whose read range has been asked for. -/
structure Msg where
  id : Nat
  chan : Nat
  len : Nat
  addr : Nat
  src : MsgSrc
  seq : Option Nat := none
  att : Nat := 0
  poison : Bool := false
  okParts : List Nat := []
  nacked : Bool := false
  busy : Bool := false
  backoff : Nat := 0
  waiting : Bool := false
  again : Bool := false
  ranged : Bool := false
  deriving DecidableEq, Repr

/-- A QY port: the staging buffer being filled, tokens gathered, the message's issue id, buffers whose message has no outcome
(R255). -/
structure QyPort where
  buf : Nat := 0
  got : Nat := 0
  full : Bool := false
  id : Nat := 0
  out : List Nat := []
  deriving DecidableEq, Repr

/-- A QX port: the tokens of the message begun that it has still to emit (R254). -/
structure QxPort where
  toks : List Tok := []
  busy : Bool := false
  deriving DecidableEq, Repr

/-- The queue engine of one core; `statw` are slots whose status word waits for its bank or region (R248). -/
structure Qe where
  chans : Tbl Chan := []
  handles : Tbl Handle := []
  slots : Tbl SlotQ := []
  sendq : List Msg := []
  unacked : List Msg := []
  reasm : List Reasm := []
  qx : Tbl QxPort := []
  qy : Tbl QyPort := []
  mile : Nat := 0
  inj : List Pkt := []
  statw : List Nat := []
  deriving DecidableEq, Repr

/-! ### The carriageway (chapters 9 and 10) -/

/-- A signpost cache entry (R307, R308). -/
structure SpEnt where
  en : Nat
  ddev : Nat
  ddie : Nat
  dunit : Nat
  exit : Nat
  deriving DecidableEq, Repr

/-- An outstanding signpost miss; `again` says a matching invalidation came since the walk was asked for (R310). -/
structure Miss where
  en : Nat
  again : Bool := false
  deriving DecidableEq, Repr

/-- A combining slot (R284): the return address, answers due, the first code among them, when it was taken. -/
structure Comb where
  cvid : Nat
  seq : Nat
  att : Nat
  ret : Pkt
  root : Bool
  due : Nat
  code : Nat := 0
  deriving DecidableEq, Repr

/-- A carriageway router with its core's source interface: input buffers by 4·port + virtual channel, head first (R291, R297); merge
entries (R276); combining slots (R284); replication words by 256·bank + 4·entry + word (R282); cache ways by set, most recently
used first (R308); misses; packets ejected to the core that it has not taken; where the outputs' rotations stand (R299). -/
structure Rout where
  bufs : Tbl (List Pkt) := []
  held : List Pkt := []
  comb : List Comb := []
  rep : Tbl DWord := []
  cache : Tbl (List SpEnt) := []
  miss : List Miss := []
  arr : List Pkt := []
  turn : Tbl Nat := []
  deriving DecidableEq, Repr

/-- What stands at a die's switch and footpath hub: packets in the switch, packets delivered to the die's other units, walks of the
signpost walker, signpost-epoch counts of the units other than routers by bank, injection epochs of source interfaces other than
routers by unit, the die hub's links toward each other die, as primary + 4·alternate side, and those on their alternate (R318), digests and mailbox words at die controller 0, where the switch outputs' rotations stand
(R299, R305). -/
structure DieNet where
  sw : List Pkt := []
  ends : List Pkt := []
  walks : List Nat := []
  ep : Tbl Word := []
  inj : Tbl Nat := []
  foot : Tbl Nat := []
  alt : Tbl Bool := []
  digests : Tbl (Nat × DWord) := []
  mbox : List (Nat × Word) := []
  turn : Tbl Nat := []
  deriving DecidableEq, Repr

/-- An invalidation or flip under way: the die whose SIGN page was written, what is sent, interfaces that have acknowledged, as
256·die + unit, and the device that is told when all have (R310, R315, R429). -/
structure Cast where
  die : Nat
  base : Nat := 0
  ignore : Nat := 0
  all : Bool := false
  epoch : Nat := 0
  since : Nat := 0
  acks : Tbl Bool := []
  ans : Option Nat := none
  deriving DecidableEq, Repr

/-! ### Memory stacks (chapter 11) -/

/-- A memory slice: accepted requests in order, the source unit served last, as 256·die + unit, SSTATE short of CLOSED, SUSPECT, failed windows
in a row, as a stand-in the 64-byte blocks written under the new epoch, by physical block number, whether EVAC and CLOSE were written, when it was last
granted a window, and writes of the module's engines that wait for a slot of its journal's send ring (R336, R350, R351, R353, R356, R359, R415). -/
structure Slice where
  q : List Pkt := []
  turn : Nat := 65535
  ss : Nat := 0
  suspect : Bool := false
  fails : Nat := 0
  marks : Tbl Bool := []
  evac : Bool := false
  close : Bool := false
  since : Option Nat := none
  wait : List Pkt := []
  deriving DecidableEq, Repr

/-- A memory controller beyond its MEMC page: the training under way (FULL or not), the channel whose window is open, the one granted a window, record words, and
the first free number of a record a full training wrote, whether the record's CRC and serial number are right and its temperature plus 25 °C, and whether
the bands that stand in for an unreadable slice hold poison where nothing has been written since (R347, R348, R350, R355). -/
structure Stack where
  train : Option Bool := none
  window : Option Nat := none
  granted : Option Nat := none
  recBase : Option Nat := none
  words : Tbl Word := []
  recOk : Bool := false
  recT : Nat := 0
  lost : Bool := false
  deriving DecidableEq, Repr

/-! ### Ports (chapter 12) -/

/-- A link block the port sends (R368): LTYPE, LCMD, LLANE, PLANE, FRAME, word 1, and the OFF bits it leaves with. -/
structure LinkBlk where
  ltype : Nat := 0
  lcmd : Nat := 0
  lane : Nat := 0
  plane : Nat := 0
  frame : Nat := 0
  word1 : DWord := 0
  off : Nat := 0
  deriving DecidableEq, Repr

/-- A swap to come: logical lane, spare lane, frame (R382, R383). -/
structure Swap where
  lane : Nat
  spare : Nat
  frame : Nat
  deriving DecidableEq, Repr

/-- What a receive lane has shown since a moment: codewords that were bad, symbols corrected, symbols received, the last bad codeword's time (R379, R381). -/
structure LaneWin where
  start : Nat := 0
  bad : Nat := 0
  corr : Nat := 0
  recv : Nat := 0
  last : Option Nat := none
  deriving DecidableEq, Repr

/-- A lane's coder in one direction (R362, R364): whether it precodes, the level sent before, the scrambler's last 58 bits. -/
structure LaneCode where
  pre : Bool := false
  prev : Nat := 0
  scr : BitVec 58 := 0
  deriving DecidableEq, Repr

/-- A port beyond its page: queued packets; packets received and not yet routed; link blocks to send; lanes that have failed the check once, and
whether the training under way is a full one for their sake; the number of the frame to be read next; what each receive lane has shown lately;
bad codewords in a row by physical lane and lanes out of lock; spare lanes; swaps to come; a half-width request under way; a granted
rotation step, and when the last was granted; equaliser requests received; record words, and the first free number of a record training wrote; when it was last
retrained from half width; whether the record's CRC is right and the peer it holds, none for the next it meets; the transmitter's rotation; frames since its last link
block; the lanes' coders by physical lane; the blocks yet to send of a packet whose sending has begun; frames that come in, by number and
logical lane, a bad codeword's blocks being none; the number of each receive lane's next frame; whether the next block is known to begin a
packet or link block; the packet coming in, with the words of its payload (R362, R364–R368, R371–R374, R376–R386). -/
structure PortSt where
  tx : List Pkt := []
  rx : List Pkt := []
  blks : List LinkBlk := []
  tried : Nat := 0
  force : Bool := false
  rxFrame : Nat := 0
  win : Tbl LaneWin := []
  bad : Tbl Nat := []
  unlocked : Nat := 0
  txSpare : Option Nat := none
  rxSpare : Option Nat := none
  swapTx : Option Swap := none
  swapRx : Option Swap := none
  halfAsk : Bool := false
  granted : Bool := false
  stepped : Option Nat := none
  eq : Tbl DWord := []
  words : Tbl Word := []
  recBase : Option Nat := none
  lastHalf : Option Nat := none
  recOk : Bool := false
  recPeer : Option Nat := none
  turn : Tbl Nat := []
  quiet : Nat := 0
  txCode : Tbl LaneCode := []
  rxCode : Tbl LaneCode := []
  rest : List LineBlk := []
  asm : Tbl (Tbl (List LineBlk)) := []
  seen : Tbl Nat := []
  synced : Bool := false
  part : Option (Pkt × List DWord) := none
  deriving DecidableEq, Repr

/-- The device route table of a port die: entries by 1,024·bank + device; staged words; the module time up to which the die still injects under its former
XEPOCH (R388, R394, R401). -/
structure Routes where
  ent : Tbl (BitVec 128) := []
  stage : Tbl Word := []
  late : Nat := 0
  deriving DecidableEq, Repr

/-! ### The twin (chapter 13) -/

/-- A journal record: JREC, or JMARK where `mark` holds its milestone (R408, R414). -/
structure JRec where
  sseq : Nat
  mark : Option Nat := none
  addr : Nat := 0
  data : List DWord := []
  poison : Bool := false
  copy : Bool := false
  deriving DecidableEq, Repr

/-- A journal stream: next SSEQ to send, records sent without acknowledgement oldest first, records received and not applied, the SSEQ
after the last held without a gap, whether an acknowledgement is due, milestones whose marks are held without a gap (R414–R418). -/
structure Stream where
  next : Nat := 0
  sent : List JRec := []
  held : List JRec := []
  exp : Nat := 0
  due : Bool := false
  marks : List Nat := []
  applied : List Nat := []
  deriving DecidableEq, Repr

/-- A twin packet the module sends (R408): TTYPE and what its words carry. -/
inductive TwinOut where
  | heartbeat (pstate mode live : Nat) (alive : Bool) (acked marked : Nat)
  | jrec (stream : Nat) (r : JRec)
  | jack (entries : List (Nat × Nat))
  | digest (mile : Nat) (d : DWord)
  | pcdig (die part mile : Nat) (ds : List DWord)
  | ctrl (op arg word : Nat)
  | fence (device : Nat)
  deriving DecidableEq, Repr

/-- A home copy that firmware reads from the partner's shadow: core, region, chunks that have not come (R421). -/
structure HomeFetch where
  core : Nat
  region : Nat
  left : List Nat
  deriving DecidableEq, Repr

/-- The twin logic beyond the CAUSE registers: streams, journal map and the time up to which a write of it awaits copies, shadow map, mode held and mode asked for, periods missed in a row, the
fabric query's time, PSTATE before ISOLATED, the part in REJOINING (3 the continuing HOT module, 5 the carrier, 6 the returner), whether FENCE idles the transmitters, a DETACH that waits for a milestone, when CAUSE_HBCNT
was last written, the partner's PSTATE, whether the step in force is a replay after a mismatch, the module's own and the partner's milestone digest,
the last milestone whose digests agreed, one whose digests differed and whose replay has not begun, whether the partner has asked to rejoin and
whether its memory was lost, whether an ATTACH's resynchronisation has begun, the last milestone marked since the job resumed, bytes copied of each block by a resynchronisation, home copies being
fetched from the partner. -/
structure Twin where
  streams : Tbl Stream := []
  jmap : Tbl Word := []
  jlate : Nat := 0
  smap : Tbl Word := []
  mode : Nat := 0
  ask : Nat := 0
  missed : Nat := 0
  query : Option Nat := none
  former : Nat := 0
  role : Nat := 0
  fenced : Bool := false
  detach : Bool := false
  hbAt : Option Nat := none
  partnerP : Nat := 0
  replay : Bool := false
  own : Tbl DWord := []
  peer : Tbl DWord := []
  agreed : Option Nat := none
  differ : Option Nat := none
  rejoin : Bool := false
  peerLost : Bool := false
  rsync : Bool := false
  marked : Option Nat := none
  copied : Tbl Nat := []
  fetches : List HomeFetch := []
  deriving DecidableEq, Repr

/-! ### Suspect units, closures, moves, roadworks (chapters 14 and 15) -/

/-- A suspect ladder (R454): events in the window, the window's end, OFFSET in 5 mV units, DIV (0 for 1, 1 for 7/8, 2 for 3/4), RWPEND, when
the next relaxation falls due. -/
structure Ladder where
  count : Nat := 0
  winEnd : Option Nat := none
  offset : Nat := 0
  div : Nat := 0
  rwpend : Bool := false
  decayAt : Option Nat := none
  deriving DecidableEq, Repr

/-- An entry of a HEAL log (R464, R492). -/
structure LogEnt where
  time : Nat
  code : Nat
  source : Nat
  type : Nat
  inst : Nat
  detail : Nat
  tag : Nat := 0
  action : Nat := 0
  die : Nat := 0
  addr : Nat := 0
  deriving DecidableEq, Repr

/-- A mover (R477, R491): phase, its SRC, DST and CTL words as written, MODE and the two cores of the move, outcome, passes, EN moved, whether it copied a whole move's
registers. -/
structure Mover where
  srcW : Nat := 0
  dstW : Nat := 0
  rate : Nat := 4
  modeW : Nat := 0
  phase : Nat := 0
  mode : Nat := 0
  src : Nat := 0
  dst : Nat := 0
  code : Nat := 0
  passes : Nat := 0
  en : Nat := 0
  deriving DecidableEq, Repr

/-- A roadworks visit (R484–R487): the test under way (0 isolation, 1 logic, 2 march, 3 proving, 4 margin, 5 re-initialisation), whether it runs
a second time, whether any did, when the visit began, trim steps walked, the cluster offset at the last of them, threshold and lowest clean supply
in 5 mV above 0.55 V, the latter 64 more and 0 for none, outcome, failing banks. -/
structure Visit where
  test : Nat := 0
  again : Bool := false
  retested : Bool := false
  start : Nat := 0
  trim : Nat := 0
  walked : Bool := false
  offset : Nat := 0
  low : Nat := 0
  thresh : Nat := 0
  outcome : Nat := 0
  banks : Nat := 0
  deriving DecidableEq, Repr

/-- A roadworks record (R491). -/
structure RwRec where
  die : Nat
  core : Nat
  outcome : Nat
  retested : Bool
  duration : Nat
  thresh : Nat
  req : Nat
  setpt : Nat
  cov : Nat
  banks : Nat
  time : Nat
  deriving DecidableEq, Repr

/-- Events of one kind at one unit, counted from the first of them (R492). -/
structure Watch where
  kind : Nat
  unit : Nat
  since : Nat
  count : Nat := 1
  deriving DecidableEq, Repr

/-- What heals: ladders by core; logs by die, 8 for the hub's; the hub error log with its next number; the events answered by number; by page, the
reports its unit could not hold (R461); cores withdrawn from closure and not yet tested; map bits of slices, stacks and dies whose withdrawal waits for a module reset (R469); movers by 2·die + mover; visits by core; slots granted and not yet begun, by core; roadworks records; last visit start per die;
last visit end per core; margin-walk requirement per core, in 5 mV above 0.55 V; flash slots of the closure map, as sequence number and image. -/
structure Heal where
  ladders : Tbl Ladder := []
  logs : Tbl (List LogEnt) := []
  errlog : List (Nat × LogEnt) := []
  errSeq : Nat := 0
  hist : List Watch := []
  backlog : Tbl Nat := []
  untested : Tbl Bool := []
  still : List Nat := []
  movers : Tbl Mover := []
  visits : Tbl Visit := []
  slots : Tbl Bool := []
  rwlog : List RwRec := []
  lastVisit : Tbl Nat := []
  visited : Tbl Nat := []
  flash0 : Option (Nat × Tbl Word) := none
  flash1 : Option (Nat × Tbl Word) := none
  reqs : Tbl Nat := []
  deriving DecidableEq, Repr
/-! ### Contexts, jobs, resets (chapters 16 and 19) -/

/-- A STEP_RUN running or queued (R591): its ring, CID, FLAGS, COUNT, steps done. -/
structure Run where
  ring : Nat
  cid : Nat
  flags : Nat
  count : Nat
  done : Nat := 0
  deriving DecidableEq, Repr

/-- A MILESTONE_WAIT under way (R592). -/
structure MWait where
  ring : Nat
  cid : Nat
  flags : Nat
  mile : Nat
  deriving DecidableEq, Repr

/-- An incident notice (R511): the other module, KIND, SUBJECT, CAUSE, JOB, MILE, and the moved ENs of a POSITION as EN, DDIE, DUNIT. -/
structure Notice where
  dev : Nat
  kind : Nat
  subj : Nat := 0
  cause : Nat := 0
  job : Nat := 0
  mile : Nat := 0
  moved : List (Nat × Nat × Nat) := []
  deriving DecidableEq, Repr

/-- A notice whose answer is awaited, with the times it has been sent (R511). -/
structure Await where
  n : Notice
  sent : Nat := 1
  deriving DecidableEq, Repr

/-- A job's barrier at this module (R513): 0 none, 1 ABORTED sent, 2 restarting from L, 3 ARMED sent; the failed step, its code, L. The rest is the
coordinator's: milestones named by LOST, modules lost, C of each ABORTED, modules ARMED. -/
structure Barrier where
  phase : Nat := 0
  step : Nat := 0
  code : Nat := 0
  l : Nat := 0
  lostAt : List Nat := []
  lost : List Nat := []
  aborted : Tbl Nat := []
  armed : List Nat := []
  deriving DecidableEq, Repr

/-- A context ID as hub firmware holds it (R504): state 0 FREE, 1 ACTIVE, 2 FAILED, 3 DRAINING; generation; failing code; CONVOY right; owning VF;
the itinerary in force; last milestone completed, and the latest ever completed; step posted and not completed; queued STEP_RUNs; waits; failures of the step under way with the first's
code; window of a VF; generations whose drain has not completed, each with its end (none while the teardown or reset runs); the teardown's ring, CID and
FLAGS; teardown or context reset step under way; barrier; whether a freeze holds its steps; milestones its cores have executed and whose completion is
held; what waits for a drain before the generation may advance (1 a context reset, 2 a teardown); ENs of a torn-down itinerary; whether it may run
no step until a smaller itinerary is loaded (R475). -/
structure Ctx where
  st : Nat := 0
  gen : Nat := 0
  code : Nat := 0
  convoy : Bool := false
  vf : Option Nat := none
  itin : Option Itin := none
  mile : Nat := 0
  top : Nat := 0
  posted : Option Nat := none
  runs : List Run := []
  waits : List MWait := []
  fails : Nat := 0
  first : Nat := 0
  winBase : Nat := 0
  winSize : Nat := 0
  drains : Tbl (Option Nat) := []
  tear : Option Run := none
  bar : Barrier := {}
  held : Bool := false
  owed : List Nat := []
  wait : Nat := 0
  ens : List Nat := []
  barred : Option Nat := none
  carried : Bool := false
  deriving DecidableEq, Repr

/-- A DIE_CTXOP under way (R506). -/
structure CtxOp where
  op : Nat
  ctx : Nat
  gen : Nat
  deriving DecidableEq, Repr

/-- A freeze under way (R479): contexts held, cutover milestone, moves in it, positions moved, modules that have not acknowledged, whether the
tables are written and the invalidation done, when it began. -/
structure Freeze where
  mile : Nat
  movers : List Nat := []
  moved : List (Nat × Nat × Nat) := []
  waiting : List Nat := []
  inval : Bool := false
  since : Nat := 0
  deriving DecidableEq, Repr

/-- What hub firmware holds: contexts by ID; notices awaiting an answer; the freeze under way; die operations under way by die; a module reset due, by cause; PSTATE the
die resets of DIE_RST under way are in DIE_RST_STAT; controllers that failed once in the start; dies in reset with the cause. -/
structure Hub where
  ctxs : Tbl Ctx := []
  awaits : List Await := []
  freeze : Option Freeze := none
  ctxops : Tbl CtxOp := []
  rstDue : Option Nat := none
  dieRst : Tbl Nat := []
  failed : Tbl Bool := []
  deriving DecidableEq, Repr

/-! ### Start, power, host port, management port, fuses (chapters 17 to 19, 21) -/

/-- The fabric configuration record (R533): device number, PORT_EXPECT words, in-force route entries. -/
structure FabRec where
  dev : Nat
  expect : Tbl Word
  ent : Tbl (BitVec 128)
  deriving DecidableEq, Repr

/-- Boot flash (R601): hub and service images of slots A and B; binding record with the partner's serial number; training records of stacks and ports; fabric record; saved log. -/
structure Flash where
  hubA : Image := {}
  svcA : Image := {}
  hubB : Image := {}
  svcB : Image := {}
  bind : Option (Nat × Nat) := none
  bindSerial : Nat := 0
  memRec : Tbl (Tbl Word) := []
  portRec : Tbl (Tbl Word × Nat) := []
  fab : Option FabRec := none
  log : List (Nat × LogEnt) := []
  deriving DecidableEq, Repr

/-- Pins, supplies and what the always-on domain judges of them (R525, R560, R568, R637, R644): thermal trip latched; STANDBY; AON copies of set
points by cluster; step 1 done, or held for the flash bus; memory survives the next start; when the step of the start under way began; batch of proving runs or round of
core tests that comes next; cores that have failed a proving run once; a checked copy of the service image stands in memory; step 7 ended at its limit; TWIN_SEL
sampled since AUX_3V3 came; 12 V lost since it last was in range. -/
structure Pins where
  aux : Bool := false
  v12 : Bool := false
  pwrEn : Bool := false
  pwrGood : Bool := false
  flashExtN : Bool := true
  twinSel : Bool := true
  sampled : Bool := false
  trip : Bool := false
  standby : Bool := false
  step1 : Bool := false
  hold1 : Bool := false
  memKept : Bool := false
  stepAt : Nat := 0
  batch : Nat := 0
  again : List Nat := []
  copy : Bool := false
  limit : Bool := false
  lost12 : Bool := false
  setpt : Tbl Nat := []
  deriving DecidableEq, Repr

/-- Power and clock faults kept by release 3 and the limiter (R547, R549, R551, R552, R565–R567): last regulator fault and PLL loss by cluster, sensor
temperatures by 64·die + sensor, when ACTED was last set, when the fast throttle engaged by die (11: the module), interval power sum and samples, die
time of last core activity. -/
structure Power where
  regAt : Tbl Nat := []
  pllAt : Tbl Nat := []
  temps : Tbl Nat := []
  acted : Option Nat := none
  throt : Tbl Nat := []
  psum : Nat := 0
  vsum : Nat := 0
  nsamp : Nat := 0
  current : Tbl Nat := []
  deriving DecidableEq, Repr

/-- A command entry fetched and not started (R585, R586): ring, the entry's 64 bytes as a number, the itinerary image it names, the buffer contents a WRITE_TABLE
names. -/
structure HCmd where
  ring : Nat
  entry : Nat
  itin : Option Itin := none
  table : List (BitVec 128) := []
  deriving DecidableEq, Repr

/-- A command ring (R583): addresses, LOGSIZE, EN, VECTOR, TAIL, CHEAD, HEAD, CPLW, STATE, commands fetched without a record. -/
structure Ring where
  cmd : Nat := 0
  cpl : Nat := 0
  logsize : Nat := 4
  en : Bool := false
  vector : Nat := 0
  tail : Nat := 0
  chead : Nat := 0
  head : Nat := 0
  cplw : Nat := 0
  state : Nat := 0
  pend : Nat := 0
  events : Nat := 0
  deriving DecidableEq, Repr

/-- The host port's PCIe state (R578, R579): MSI-X enables by function, table words by 4·vector + word (function 0 first, then 4 vectors a VF), pending bits, power states. -/
structure Pcie where
  msixEn : Tbl Bool := []
  table : Tbl Word := []
  pba : Tbl Bool := []
  d3 : Tbl Bool := []
  deriving DecidableEq, Repr

/-- A fuse command being programmed (R607): CODE, ARG, class, whether it came as a Casevo request, which awaits its response. -/
structure FusePend where
  code : Nat
  arg : Nat
  cls : Nat
  ask : Bool := false
  deriving DecidableEq, Repr

/-- The host port, rings, management port and fuse block beyond their pages: rings by number; commands fetched and not started, in fetch order; VF windows are in the contexts;
class that armed the fuse block; fuse command under way; PLDM events held; AUTH_VF_BIND by VF; whether
the module has been given a device number and a device route table bank; mailbox words a hub control core has not answered. -/
structure HostIf where
  rings : Tbl Ring := []
  cmds : List HCmd := []
  pcie : Pcie := {}
  armed : Option Nat := none
  fuse : Option FusePend := none
  events : List (Nat × Nat) := []
  vfs : Tbl Word := []
  dev : Bool := false
  bank : Bool := false
  mbox : List (Nat × Word) := []
  deriving DecidableEq, Repr

/-- A gauge's live bank and its open window (R615–R621): accumulators, dropped samples, time of opening, whether the window is the first of an ALIGNED run, value of
the watched counter at its opening. -/
structure Gauge where
  count : Nat := 0
  sum : Nat := 0
  min : Nat := 0xFFFFFFFF
  max : Nat := 0
  bins : Tbl Nat := []
  drop : Nat := 0
  opened : Nat := 0
  partialWin : Bool := false
  ctr : Nat := 0
  deriving DecidableEq, Repr


/-! ### The module -/

/-- One core beyond its register pages; `test`: under roadworks; `frozen`: its move is frozen (R480); `stopped`: HALT has stopped its fabric (R506). -/
structure Core where
  arr : Arr := {}
  fab : Fab := {}
  cus : Tbl Cu := []
  mus : Tbl Mu := []
  seq : Seq := {}
  sp : Spad := {}
  qe : Qe := {}
  rt : Rout := {}
  test : Bool := false
  frozen : Bool := false
  stopped : Bool := false
  deriving DecidableEq, Repr

/-- A latched high half of a 64-bit pair: who read the low half, page number, offset, value (R40). -/
structure Latch where
  req : Req
  page : Nat
  off : Nat
  val : Word
  deriving DecidableEq, Repr

/-- An event reported to HEAL that HEAL has not taken: page number, SOURCE, CODE, DETAIL, core index where it is a core's, whether it is
of books out of balance (R25). -/
structure Report where
  page : Nat
  source : Nat
  code : Nat
  detail : Nat
  core : Option Nat := none
  books : Bool := false
  addr : Nat := 0
  deriving DecidableEq, Repr

/-- What the module sends out, oldest first: the model's own record of its outputs. -/
inductive Out where
  | data (r : Req) (v : Word)
  | irq (flit : Word) (page : Nat)
  | spadWord (core req : Nat) (v : DWord) (poison : Bool) (code : Nat)
  | probe (core dev die unit : Nat) (p : Probe)
  | closeNotice (core en handle : Nat) (toSender : Bool) (sidx : Nat) (cvid : Option Nat) (dev die unit : Nat) (mfl : Bool)
  | closeAck (core en handle dev die unit : Nat) (mfl : Bool)
  | digest (core : Nat) (mile : Nat) (d : DWord)
  | regRsp (flit : Word) (r : Req) (v : Word) (code : Nat)
  | invalAck (die unit : Nat)
  | flipAck (die unit epoch : Nat)
  | intAt (die node page : Nat)
  | pkt (p : Pkt)
  | codeword (port plane : Nat) (cw : Codeword)
  | block (port : Nat) (b : LinkBlk)
  | ctl (p : Pkt)
  | notice (n : Notice)
  | record (ring index : Nat) (cid status flags head ctag : Nat) (result : Nat)
  | msix (fn vector : Nat)
  | hostData (addr : Nat) (bytes : List Byte)
  | mgmt (code : Nat) (data : List Nat)
  | hostRead (fn : Nat) (bytes : List Byte)
  | cfgRetry
  | spdm (kind : Nat) (signature : Nat) (data : List Nat)
  | replay (core : Nat)
  | position (en die unit : Nat)
  deriving DecidableEq, Repr

/-- The module. -/
structure State where
  now : Nat
  free : Nat
  regs : Tbl Word
  caps : Tbl Cap
  stg : Tbl Word
  latch : List Latch
  fuseMap : Tbl Word
  fieldMap : Tbl Word
  mem : Tbl Byte
  mpois : Tbl Bool
  merr : Tbl Nat
  slices : Tbl Slice
  stackSt : Tbl Stack
  grant : Tbl Word
  cores : Tbl Core
  nets : Tbl DieNet
  ports : Tbl PortSt
  routes : Tbl Routes
  twin : Twin
  heal : Heal
  hub : Hub
  flash : Flash
  pins : Pins
  power : Power
  host : HostIf
  gauges : Tbl Gauge
  inval : List Cast
  flip : Option Cast
  reports : List Report
  out : List Out
  pending : List Instr
  deriving DecidableEq, Repr

/-- The module right after AUX_3V3 is applied and before anything else has happened (R46, R471): every register at its reset
value, nothing listed in memory, no command waiting. -/
def State.reset : State :=
  { now := 0, free := 0, regs := [], caps := [], stg := [], latch := [], fuseMap := [], fieldMap := [], mem := [], mpois := [], merr := [], slices := [], stackSt := [], grant := [],
   
    cores := [], nets := [], ports := [], routes := [], twin := {}, heal := {}, hub := {}, flash := {}, pins := {}, power := {}, host := {}, gauges := [], inval := [], flip := none, reports := [], out := [], pending := [] }

end Sys2Proof.Machine
end

