-- ==== Sys2Proof/Machine/Flags.lean ====
section
/-! DEFINITION. Register words, fields and counters; the event flags and the first-error capture of a page; status codes. -/
namespace Sys2Proof.Machine
open Sys2Proof

/-! ### Register fields -/

/-- The page that holds a register: the one module-wide set of twin registers of R436 stands behind every CAUSE page, and the
placement map, whose copies are kept equal (R334), on the first MEMC page. -/
def homePage (p : PageId) (off : Nat) : PageId :=
  if p.blk == .cause && decide (0x100 ≤ off) && decide (off ≤ 0x140) then twinPage
  else if p.blk == .memc && decide (0x80 ≤ off) && decide (off < 0x120) then memcPage 0 else p

/-- The stored word of a register; its reset word where nothing has been stored (R45). -/
def rd (s : State) (p : PageId) (off : Nat) : Nat :=
  let q := homePage p off
  (tget (BitVec.ofNat 32 (match specOf q off with | some r => resetWord r.fields | none => 0)) s.regs (regKey q off)).toNat

/-- The register table with a word stored. -/
def wr (s : State) (p : PageId) (off v : Nat) : State :=
  { s with regs := tput s.regs (regKey (homePage p off) off) (BitVec.ofNat 32 v) }

/-- A field, and a field set by hardware or firmware. -/
def fd (s : State) (p : PageId) (f : FRef) : Nat := bits (rd s p f.off) f.lo f.w
def fdSet (s : State) (p : PageId) (f : FRef) (v : Nat) : State := wr s p f.off (setBits (rd s p f.off) f.lo f.w v)
/-- A one-bit field. -/
def fb (s : State) (p : PageId) (f : FRef) : Bool := fd s p f == 1
/-- A 64-bit pair at `off` and `off + 4` (R40). -/
def rd64 (s : State) (p : PageId) (off : Nat) : Nat := rd s p off + 2 ^ 32 * rd s p (off + 4)
def wr64 (s : State) (p : PageId) (off v : Nat) : State := wr (wr s p off (v % 2 ^ 32)) p (off + 4) (v / 2 ^ 32 % 2 ^ 32)

/-- A counter: a 64-bit pair that wraps (R60). -/
def bumpBy (s : State) (p : PageId) (off n : Nat) : State := if n = 0 then s else wr64 s p off ((rd64 s p off + n) % 2 ^ 64)
def bump (s : State) (p : PageId) (off : Nat) : State := bumpBy s p off 1
/-- AUTH_DENY_FABRIC counts a refusal of FABRIC traffic, wherever it is refused (R614). -/
def denyFabric (s : State) (yes : Bool) : State := if yes then bump s (hubPage .auth) 0xC08 else s

/-! ### Interrupts and first-error capture -/

/-- The raw bits, the enable mask and the status of a page (R49). -/
def intRaw (s : State) (p : PageId) : Nat := rd s p 0x10
def intEn (s : State) (p : PageId) : Nat := rd s p 0x18
def intStat (s : State) (p : PageId) : Nat := intRaw s p &&& intEn s p

/-- What is sent outside the module's records. -/
def send (s : State) (o : Out) : State := { s with out := s.out ++ [o] }

/-- The first flit of a message, of class urgent unless it is a probe (R319, R321). -/
def flitTo (ddie dnode sdie snode mtype : Nat) : Word := BitVec.ofNat 32 (ddie % 16 + 2 ^ 4 * (dnode % 256) + 2 ^ 12 * (sdie % 16) + 2 ^ 16 * (snode % 256) + 2 ^ 24 * mtype + 2 ^ 30 * (mtype / 0x20))
/-- The node that serves a page: its core's, or for pages numbered 1280 and above the die hub (R320). -/
def pageNode (page : Nat) : Nat := if page % 2048 < 1280 then page % 2048 / 8 else 0xF8
/-- A page raises its interrupt while any bit of its status is 1 (R52): the level a reader of the page sees. -/
def irqRaised (s : State) (p : PageId) : Bool := intStat s p != 0
/-- The INT message of a page (R52, R321), to the node that DIE_INT_TGT of its die names (R519), sent when the page begins to raise
its interrupt; while the level holds no second one is sent (DESIGN CHOICE, log entry 107). -/
def irqEdge (old : State) (p : PageId) (s : State) : State :=
  if !irqRaised old p && irqRaised s p then
    send s (.irq (flitTo (fd s (diePage .die p.die) fDIE_INT_TGT_DIE) (fd s (diePage .die p.die) fDIE_INT_TGT_NODE) p.die (pageNode p.no) 4) p.no)
  else s

/-- Raw event bits set by hardware. -/
def raiseInt (s : State) (p : PageId) (b : Nat) : State := irqEdge s p (wr s p 0x10 (intRaw s p ||| 2 ^ b))

/-- The capture a page holds. -/
def cap (s : State) (p : PageId) : Cap := tget {} s.caps p.no

/-- First-error capture (R53): the first error is held, later ones raise COUNT and set OVERFLOW. -/
def errAt (s : State) (p : PageId) (code source detail addr tag : Nat) : State :=
  let k := cap s p
  if k.valid then
    { s with caps := tput s.caps p.no { k with overflow := true, count := min 255 (k.count + 1) } }
  else
    raiseInt { s with caps := tput s.caps p.no (Cap.mk code source true false 1 tag detail addr) } p 0

/-- Status codes (R55). -/
def cOK : Nat := 0x00
def cNOT_READY : Nat := 0x01
def cCLOSED : Nat := 0x03
def cSTALE_GEN : Nat := 0x04
def cNO_CHANNEL : Nat := 0x05
def cBANK_OFF : Nat := 0x06
def cDENIED : Nat := 0x07
def cTIMEOUT : Nat := 0x08
def cRANGE : Nat := 0x0A
def cCLOSURE : Nat := 0x0B
def cPURGED : Nat := 0x0C
def cPOISON : Nat := 0x0D
/-- The codes that are produced (R55). -/
def codesUsed : List Nat := [cOK, cPOISON, cTIMEOUT, cSTALE_GEN, cNO_CHANNEL, cCLOSED, cDENIED, cBANK_OFF, cRANGE, cCLOSURE, cPURGED, cNOT_READY]

/-- The order in which failing checks give the status (R56); later codes arise later. -/
def codeRank (c : Nat) : Nat :=
  if c == cDENIED then 0 else if c == cRANGE then 1 else if c == cSTALE_GEN then 2 else if c == cCLOSURE then 3
  else if c == cBANK_OFF then 4 else if c == cNO_CHANNEL then 5 else if c == cCLOSED then 6 else if c == cNOT_READY then 7
  else if c == cOK then 9 else 8
/-- The first failing code of two, OK being no failure. -/
def firstCode (a b : Nat) : Nat := if codeRank b < codeRank a then b else a

end Sys2Proof.Machine
end

