-- ==== Sys2Proof/Machine/Numerics.lean ====
section
/-! DEFINITION. Number formats, exact chunks, IEEE arithmetic, conversions and the weight update (R61-R85). A value is exact:
a sign, a magnitude `m · 2^e`, an infinity or a NaN; every rounding happens in `packFloat`. -/
namespace Sys2Proof.Machine

/-- A value of any element format. Zero keeps its sign. -/
inductive FVal where
  | nan
  | inf (neg : Bool)
  | fin (neg : Bool) (m : Nat) (e : Int)
  deriving DecidableEq, Repr

/-- How a float format spells its top codes (R61). -/
inductive Top where
  | none      -- no infinity, no NaN: FP4, FP6
  | e4m3      -- no infinity, all-ones NaN
  | ieee      -- infinity and NaN at the top exponent
  deriving DecidableEq, Repr

/-- A float format: exponent bits, mantissa bits, bias, top codes (R61). -/
structure FFmt where
  eb : Nat
  mb : Nat
  bias : Nat
  top : Top
  deriving DecidableEq, Repr

def fE2M1 : FFmt := ⟨2, 1, 1, .none⟩
def fE2M3 : FFmt := ⟨2, 3, 1, .none⟩
def fE3M2 : FFmt := ⟨3, 2, 3, .none⟩
def fE4M3 : FFmt := ⟨4, 3, 7, .e4m3⟩
def fE5M2 : FFmt := ⟨5, 2, 15, .ieee⟩
def fBF16 : FFmt := ⟨8, 7, 127, .ieee⟩
def fFP32 : FFmt := ⟨8, 23, 127, .ieee⟩

/-- The exponent of the least bit of a subnormal. -/
def FFmt.emin (f : FFmt) : Int := 1 - (f.bias : Int) - f.mb

/-- The value a code stands for (R61, R63). -/
def FFmt.dec (f : FFmt) (c : Nat) : FVal :=
  let neg := bit c (f.eb + f.mb)
  let ex := bits c f.mb f.eb
  let ma := bits c 0 f.mb
  let allOnes := ex == 2 ^ f.eb - 1
  if f.top = .ieee ∧ allOnes = true then (if ma = 0 then .inf neg else .nan)
  else if f.top = .e4m3 ∧ allOnes = true ∧ ma = 2 ^ f.mb - 1 then .nan
  else if ex = 0 then .fin neg ma f.emin
  else .fin neg (2 ^ f.mb + ma) (f.emin + (ex : Int) - 1)

/-- A magnitude shifted right by `s`, to nearest, ties to even. -/
def rneShift (m s : Nat) : Nat :=
  let q := m / 2 ^ s
  let r := m % 2 ^ s
  if s = 0 then m
  else if 2 * r > 2 ^ s ∨ (2 * r = 2 ^ s ∧ q % 2 = 1) then q + 1 else q

/-- The code of the magnitude `m · 2^e` rounded to nearest even, without regard to overflow. -/
def FFmt.roundMag (f : FFmt) (m : Nat) (e : Int) : Nat :=
  if m = 0 then 0 else
  let q : Int := max (e + (Nat.log2 m : Int) - f.mb) f.emin
  let n := if e ≥ q then m * 2 ^ (e - q).toNat else rneShift m (q - e).toNat
  (q - f.emin).toNat * 2 ^ f.mb + n

/-- The largest finite code. -/
def FFmt.maxCode (f : FFmt) : Nat :=
  match f.top with
  | .none => 2 ^ (f.eb + f.mb) - 1
  | .e4m3 => 2 ^ (f.eb + f.mb) - 2
  | .ieee => (2 ^ f.eb - 1) * 2 ^ f.mb - 1

/-- Canonical NaN (R62); +0 where the format has none (R77). -/
def FFmt.nanCode (f : FFmt) : Nat :=
  match f.top with
  | .none => 0
  | .e4m3 => 2 ^ (f.eb + f.mb) - 1
  | .ieee => (2 ^ f.eb - 1) * 2 ^ f.mb + 2 ^ (f.mb - 1)

/-- The sign bit of a code. -/
def FFmt.signed (f : FFmt) (neg : Bool) (c : Nat) : Nat := if neg then 2 ^ (f.eb + f.mb) + c else c

/-- IEEE rounding: overflow gives infinity (R70, R75). -/
def FFmt.pack (f : FFmt) : FVal → Nat
  | .nan => f.nanCode
  | .inf neg => f.signed neg (f.maxCode + 1)
  | .fin neg m e => let c := f.roundMag m e; f.signed neg (if c > f.maxCode then f.maxCode + 1 else c)

/-- Conversion as R77 states: a finite value saturates; infinity stays where the format has it, else saturates. -/
def FFmt.conv (f : FFmt) : FVal → Nat
  | .nan => f.nanCode
  | .inf neg => f.signed neg (if f.top = .ieee then f.maxCode + 1 else f.maxCode)
  | .fin neg m e => f.signed neg (min (f.roundMag m e) f.maxCode)

/-- FP32 words as values and back. -/
def ofF32 (w : Word) : FVal := fFP32.dec w.toNat
def toF32 (v : FVal) : Word := BitVec.ofNat 32 (fFP32.pack v)

/-- The signed exact magnitude at a common exponent. -/
def FVal.atExp (v : FVal) (q : Int) : Int :=
  match v with
  | .fin neg m e => let n : Int := (m * 2 ^ (e - q).toNat : Nat); if neg then -n else n
  | _ => 0

/-- A signed integer multiple of `2^q`; `negZ` is the sign a zero takes. -/
def finOf (negZ : Bool) (n : Int) (q : Int) : FVal :=
  if n = 0 then .fin negZ 0 q else .fin (decide (n < 0)) n.natAbs q

/-- Exact sum, with the IEEE rules for special operands and for the sign of zero under round-to-nearest-even. -/
def FVal.add (a b : FVal) : FVal :=
  match a, b with
  | .nan, _ => .nan
  | _, .nan => .nan
  | .inf s, .inf t => if s = t then .inf s else .nan
  | .inf s, _ => .inf s
  | _, .inf t => .inf t
  | .fin s m e, .fin t n f =>
    let q := min e f
    finOf (s && t && m == 0 && n == 0) (FVal.atExp (.fin s m e) q + FVal.atExp (.fin t n f) q) q

def FVal.neg : FVal → FVal
  | .nan => .nan
  | .inf s => .inf (!s)
  | .fin s m e => .fin (!s) m e

/-- Exact product. -/
def FVal.mul (a b : FVal) : FVal :=
  match a, b with
  | .nan, _ => .nan
  | _, .nan => .nan
  | .inf s, .inf t => .inf (xor s t)
  | .inf s, .fin t n _ => if n = 0 then .nan else .inf (xor s t)
  | .fin s m _, .inf t => if m = 0 then .nan else .inf (xor s t)
  | .fin s m e, .fin t n f => .fin (xor s t) (m * n) (e + f)

/-- Quotient to 64 extra bits with a sticky last bit, enough for one correct rounding to FP32. -/
def FVal.div (a b : FVal) : FVal :=
  match a, b with
  | .nan, _ => .nan
  | _, .nan => .nan
  | .inf _, .inf _ => .nan
  | .inf s, .fin t _ _ => .inf (xor s t)
  | .fin s _ _, .inf t => .fin (xor s t) 0 0
  | .fin s m e, .fin t n f =>
    if n = 0 then (if m = 0 then .nan else .inf (xor s t))
    else
      let k := 64 + Nat.log2 n
      let q := m * 2 ^ k / n
      let r := m * 2 ^ k % n
      .fin (xor s t) (2 * q + (if r = 0 then 0 else 1)) (e - f - k - 1)

/-- Integer square root by bits from `k` down. -/
def isqrtGo (n : Nat) : Nat → Nat → Nat
  | 0, r => if (r + 1) * (r + 1) ≤ n then r + 1 else r
  | k + 1, r => let t := r + 2 ^ (k + 1); isqrtGo n k (if t * t ≤ n then t else r)
def isqrt (n : Nat) : Nat := isqrtGo n (Nat.log2 n / 2 + 1) 0

/-- Square root to extra bits with a sticky last bit. -/
def FVal.sqrt : FVal → FVal
  | .nan => .nan
  | .inf true => .nan
  | .inf false => .inf false
  | .fin s m e =>
    if m = 0 then .fin s 0 e
    else if s then .nan
    else
      let odd := e % 2 ≠ 0
      let m' := (if odd then 2 * m else m) * 2 ^ 128
      let e' := (if odd then e - 1 else e) - 128
      let r := isqrt m'
      .fin false (2 * r + (if r * r = m' then 0 else 1)) (e' / 2 - 1)

/-- FP32 operations, each rounded once to nearest even (R75). -/
def f32add (a b : Word) : Word := toF32 ((ofF32 a).add (ofF32 b))
def f32sub (a b : Word) : Word := toF32 ((ofF32 a).add (ofF32 b).neg)
def f32mul (a b : Word) : Word := toF32 ((ofF32 a).mul (ofF32 b))
def f32fma (a b c : Word) : Word := toF32 (((ofF32 a).mul (ofF32 b)).add (ofF32 c))
def f32div (a b : Word) : Word := toF32 ((ofF32 a).div (ofF32 b))
def f32sqrt (a : Word) : Word := toF32 (ofF32 a).sqrt

/-- FP32 to BF16 as R77 states, and the exact widening. -/
def bf16Of (w : Word) : Nat := fBF16.conv (ofF32 w)
def widenBf16 (h : Nat) : Word := BitVec.ofNat 32 (h % 65536 * 65536)

/-- A value rounded to the nearest integer, ties to even. -/
def FVal.rneInt : FVal → Int
  | .fin neg m e =>
    let n : Nat := if e ≥ 0 then m * 2 ^ e.toNat else rneShift m (-e).toNat
    if neg then -(n : Int) else n
  | _ => 0
/-- A value truncated toward zero. -/
def FVal.truncInt : FVal → Int
  | .fin neg m e =>
    let n : Nat := if e ≥ 0 then m * 2 ^ e.toNat else m / 2 ^ (-e).toNat
    if neg then -(n : Int) else n
  | _ => 0
/-- The value scaled by a power of two. -/
def FVal.scale (k : Int) : FVal → FVal
  | .fin s m e => .fin s m (e + k)
  | v => v

/-- Symmetric conversion to an 8-bit integer element with `k` fraction bits (R77). -/
def toInt8 (v : FVal) (k : Nat) : Nat :=
  match v with
  | .nan => 0
  | .inf neg => if neg then 129 else 127
  | v => let n := max (-127) (min 127 (v.scale k).rneInt); (n % 256).toNat

/-- Two's complement of `w` bits as an integer. -/
def sgn (w c : Nat) : Int := if bit c (w - 1) then (c % 2 ^ w : Nat) - (2 ^ w : Nat) else (c % 2 ^ w : Nat)
def intVal (n : Int) (e : Int) : FVal := .fin (decide (n < 0)) n.natAbs e

/-- Array format codes of ARR_CFG (R118): element value and element width. -/
def fmtWidth : Nat → Nat
  | 1 => 4 | 2 => 6 | 3 => 6 | 10 => 16 | _ => 8
def fmtDec (fmt code : Nat) : FVal :=
  match fmt with
  | 1 => fE2M1.dec code
  | 2 => fE2M3.dec code
  | 3 => fE3M2.dec code
  | 4 => fE4M3.dec code
  | 5 => fE5M2.dec code
  | 6 => fE4M3.dec code
  | 7 => fE5M2.dec code
  | 8 => intVal (sgn 8 code) (-6)
  | 9 => intVal (sgn 8 code) 0
  | _ => fBF16.dec code
/-- Formats with a block scale (R64, R65). -/
def fmtMx (fmt : Nat) : Bool := (1 ≤ fmt && fmt ≤ 5) || fmt == 8
/-- Pairings of R67: weight format, activation format. -/
def pairingOk (w a : Nat) : Bool :=
  if w == 8 then a == 8 else if w == 9 then a == 9 else if w == 10 then a == 10
  else (1 ≤ w && w ≤ 7) && (1 ≤ a && a ≤ 7)

/-- An E8M0 scale applied to a value; code 0xFF makes it NaN (R64). -/
def scaled (code : Nat) (v : FVal) : FVal := if code = 255 then .nan else v.scale ((code : Int) - 127)

/-- The least exponent of a list of values. -/
def minExp : List FVal → Int
  | [] => 0
  | [.fin _ _ e] => e
  | .fin _ _ e :: l => min e (minExp l)
  | _ :: l => minExp l
/-- Exact sum of finite values at an exponent. -/
def sumAt (q : Int) : List FVal → Int
  | [] => 0
  | v :: l => v.atExp q + sumAt q l

/-- The exponent of the leading bit of the largest product. -/
def leadExp : List FVal → Option Int
  | [] => none
  | .fin _ m e :: l =>
    if m = 0 then leadExp l
    else match leadExp l with
      | none => some (e + Nat.log2 m)
      | some x => some (max x (e + Nat.log2 m))
  | _ :: l => leadExp l

/-- A product truncated to a whole multiple of `2^q` (R74). -/
def truncTo (q : Int) : FVal → FVal
  | .fin s m e => if e ≥ q then .fin s m e else .fin s (m / 2 ^ (q - e).toNat) q
  | v => v

/-- The products of a BF16 chunk as they leave the shifters; those of other formats as they are (R74, R109). -/
def aligned (bf16 : Bool) (ps : List FVal) : List FVal :=
  if bf16 then (match leadExp ps with | none => ps | some x => ps.map (truncTo (x - 38))) else ps
/-- The result of a chunk from its exact products, in the order of R70; `extra` is what a fault adds to the adder tree's sum. -/
def chunkSum (bf16 : Bool) (ps extra : List FVal) : Word :=
  if ps.any (fun p => p == .nan) then 0x7FC00000
  else if ps.any (fun p => p == .inf false) && ps.any (fun p => p == .inf true) then 0x7FC00000
  else if ps.any (fun p => p == .inf false) then 0x7F800000
  else if ps.any (fun p => p == .inf true) then 0xFF800000
  else
    let ps := aligned bf16 ps ++ extra
    let q := minExp ps
    toF32 (finOf false (sumAt q ps) q)

def chunkResult (bf16 : Bool) (ps : List FVal) : Word := chunkSum bf16 ps []

/-- The exponent of the least significant bit of an array format (R110). -/
def fmtLsb : Nat → Int
  | 1 => fE2M1.emin | 2 => fE2M3.emin | 3 => fE3M2.emin | 4 => fE4M3.emin | 5 => fE5M2.emin | 6 => fE4M3.emin | 7 => fE5M2.emin
  | 8 => -6 | 9 => 0 | _ => fBF16.emin
/-- A value as an integer in units of its format's least significant bit; NaN and infinity count as 0 (R110). -/
def fmtInt (fmt : Nat) (v : FVal) : Int := v.atExp (fmtLsb fmt)
/-- The residue of an integer, 0–14; a negative one's is that of the integer modulo 15 (R110; DEDUCED, log entry 109). -/
def residue (n : Int) : Nat := (n % 15).toNat

/-- The AdamW constants of a step (R80). -/
structure AdamW where
  b1 : Word
  c1 : Word
  b2 : Word
  c2 : Word
  k1 : Word
  k2 : Word
  lr : Word
  wd : Word
  eps : Word
  gscale : Word
  deriving DecidableEq, Repr

/-- Binary64. -/
def fFP64 : FFmt := ⟨11, 52, 1023, .ieee⟩
/-- A value rounded to binary64, and a binary64 value rounded to FP32. -/
def roundF64 (v : FVal) : FVal := fFP64.dec (fFP64.pack v)
/-- The exact power of a value. -/
def FVal.pow (n : Nat) : FVal → FVal
  | .nan => .nan
  | .inf s => if n = 0 then .fin false 1 0 else .inf (s && n % 2 == 1)
  | .fin s m e => .fin (s && n % 2 == 1) (m ^ n) (e * n)
/-- The ten constants of step `n`, computed in binary64 and rounded to FP32 (R80); a power is rounded once (log entry 149). -/
def optConsts (o : Optim) (n : Nat) : List Word :=
  let one := ofF32 0x3F800000
  let less := fun (v : FVal) => roundF64 (one.add v.neg)
  let k := fun (b : Word) => toF32 (roundF64 (one.div (less (roundF64 ((ofF32 b).pow n)))))
  [o.b1, o.b2, toF32 (less (ofF32 o.b1)), toF32 (less (ofF32 o.b2)), k o.b1, k o.b2, o.lr, o.wd, o.eps, o.gscale]
/-- The AdamW update of one element: new m, v, p (R80). -/
def adamw (k : AdamW) (grad mOld vOld pOld : Word) : Word × Word × Word :=
  let g := f32mul grad k.gscale
  let m := f32fma k.b1 mOld (f32mul k.c1 g)
  let v := f32fma k.b2 vOld (f32mul k.c2 (f32mul g g))
  let mh := f32mul m k.k1
  let vh := f32mul v k.k2
  let d := f32div mh (f32add (f32sqrt vh) k.eps)
  let p := f32fma (k.lr ^^^ 0x80000000) (f32fma k.wd pOld d) pOld
  (m, v, p)

/-- `mix` and `sr_bits` of R82. -/
def mix (z : DWord) : DWord :=
  let z := (z ^^^ (z >>> 30)) * 0xBF58476D1CE4E5B9#64
  let z := (z ^^^ (z >>> 27)) * 0x94D049BB133111EB#64
  z ^^^ (z >>> 31)
def srBits (seed : DWord) (step tensor : Word) (element : DWord) : DWord :=
  let a := mix (seed ^^^ (step.setWidth 64 <<< 32) ^^^ tensor.setWidth 64)
  mix (a ^^^ (element + 0x9E3779B97F4A7C15#64)) >>> 48

/-- Stochastic rounding to BF16 (R83). -/
def srBf16 (x : Word) (r : Nat) : Nat :=
  match ofF32 x with
  | .nan => 0x7FC0
  | .inf _ => x.toNat / 65536
  | .fin _ _ _ =>
    let sign := x.toNat / 2 ^ 31
    let t := (x.toNat % 2 ^ 31 + r) / 65536
    sign * 0x8000 + (if t ≥ 0x7F80 then 0x7F7F else t)

/-- FEEDBACK rounding: working weight and new remainder (R84). -/
def feedback (p : Word) (rOld : Nat) : Nat × Nat :=
  let u := f32add p (widenBf16 rOld)
  match ofF32 u with
  | .fin _ _ _ =>
    let w := bf16Of u
    (w, bf16Of (f32sub u (widenBf16 w)))
  | _ => (bf16Of u, 0)

/-- emax of R78, by array format code. -/
def mxEmax : Nat → Int
  | 1 => 2 | 2 => 2 | 3 => 4 | 4 => 8 | 5 => 15 | _ => 0
/-- Conversion of a value to an element code of a format (R77). -/
def fmtConv (fmt : Nat) (v : FVal) : Nat :=
  match fmt with
  | 1 => fE2M1.conv v
  | 2 => fE2M3.conv v
  | 3 => fE3M2.conv v
  | 4 => fE4M3.conv v
  | 5 => fE5M2.conv v
  | 6 => fE4M3.conv v
  | 7 => fE5M2.conv v
  | 8 => toInt8 v 6
  | 9 => toInt8 v 0
  | _ => fBF16.conv v

/-- The magnitude of a finite value of a list with the largest magnitude, as (m, e); zero when all are zero. -/
def maxMag : List FVal → Nat × Int
  | [] => (0, 0)
  | .fin _ m e :: l =>
    let b := maxMag l
    let q := min e b.2
    if m * 2 ^ (e - q).toNat ≥ b.1 * 2 ^ (b.2 - q).toNat then (m, e) else b
  | _ :: l => maxMag l

/-- Quantising a block: scale code and element codes (R78). A block of E5M2 whose finite elements are all zero but which holds an infinity keeps
the infinity, under scale 0x7F (DESIGN CHOICE, log entry 115). -/
def mxQuant (fmt : Nat) (xs : List FVal) : Nat × List Nat :=
  if xs.any (fun v => v == .nan) then (255, xs.map (fun _ => 0))
  else if xs.any (fun v => v == .inf true || v == .inf false) && fmt != 5 then (255, xs.map (fun _ => 0))
  else
    let x := maxMag xs
    if x.1 = 0 then (127, xs.map (fun v => match v with | .fin s m e => fmtConv fmt (.fin s m e) | w => fmtConv fmt w))
    else
      let e := x.2 + (Nat.log2 x.1 : Int) - mxEmax fmt
      let code := (max 0 (min 254 (e + 127))).toNat
      (code, xs.map (fun v => fmtConv fmt (v.scale (127 - (code : Int)))))

end Sys2Proof.Machine
end

