-- ==== Sys2Proof/Machine/Ops.lean ====
section
/-! DEFINITION. The operations every chapter shares: core records, reports to HEAL, free values, closures, port states, the unit
guards. -/
namespace Sys2Proof.Machine
open Sys2Proof

/-- What a command answers. -/
abbrev Res := Host.Outcome State Fault Refusal

/-- The answer of a command to a unit numbered `n` of `k`; there is no such command where the unit does not exist. -/
def onUnit (n k : Nat) (t : State) : Res := if n < k then .next t else .fault .noSuchUnit
/-- A command to a core (R7, R33). -/
def onCore (c : Nat) (t : State) : Res := onUnit c 1152 t

/-! ### Core records, tags, reports, free values -/

/-- The record of a core. -/
def core (s : State) (c : Nat) : Core := tget {} s.cores c
def setCore (s : State) (c : Nat) (k : Core) : State := { s with cores := tput s.cores c k }

/-- The tag of the context bound to a core (R22, R49, R50); 0 where none is. -/
def pageTag (s : State) (p : PageId) : Nat := if bit (rd s p 0xC) 16 then rd s p 0xC % 65536 else 0
def coreTag (s : State) (c : Nat) : Nat := pageTag s (corePage .core c)

/-- One error more in a page's capture. -/
def capCount (s : State) (p : PageId) : State :=
  let k := cap s p
  if k.valid then { s with caps := tput s.caps p.no { k with overflow := true, count := min 255 (k.count + 1) } } else s
/-- An event reported to HEAL, which HEAL takes in HEAL_REPORT. A unit holds four that are not delivered; more are counted in the COUNT of its
page alone, which an error captured has raised already, and are missed in HEAL (R461). -/
def report (s : State) (r : Report) : State :=
  if countp (fun e => e.page == r.page) s.reports < 4 then { s with reports := s.reports ++ [r] }
  else
    let s := { s with heal := { s.heal with backlog := tput s.heal.backlog r.page (tget 0 s.heal.backlog r.page + 1) } }
    match pageOf r.page with
    | some p => if r.code = cOK then capCount s p else s
    | none => s
def reportCore (s : State) (b : Blk) (c source code detail : Nat) : State :=
  report s { page := (corePage b c).no, source := source, code := code, detail := detail, core := some c }

/-! ### What release 3 counts within a time (R462, R492) -/

/-- Kinds of events counted that are no reports: corrections in a scratchpad bank, by 64·core + bank; in a slice; uncorrectable words on a bridge. -/
def watchBank : Nat := 0x170
def watchSlice : Nat := 0x1A0
def watchBridge : Nat := 0x192
/-- One event more of a kind at a unit, in a window of so many ticks that its first event opens (R492). -/
def watch (s : State) (kind unit ticks : Nat) : State :=
  let h := s.heal.hist
  let this := fun (w : Watch) => w.kind == kind && w.unit == unit
  let h := match h.find? this with
    | some w => if s.now ≤ w.since + ticks then h.map (fun w => if this w then { w with count := w.count + 1 } else w)
        else h.map (fun w => if this w then { w with since := s.now, count := 1 } else w)
    | none => h ++ [{ kind := kind, unit := unit, since := s.now }]
  { s with heal := { s.heal with hist := h } }
/-- The events of the window now open. -/
def eventsOf (s : State) (kind unit : Nat) : Nat := match s.heal.hist.find? (fun w => w.kind == kind && w.unit == unit) with | some w => w.count | none => 0
def unwatch (s : State) (kind unit : Nat) : State :=
  { s with heal := { s.heal with hist := s.heal.hist.filter (fun w => !(w.kind == kind && w.unit == unit)) } }

/-- A fresh free number and the state that has used it (log entry 4). -/
def freeVal (s : State) : Nat := Config.freeNat s.free
def freeUsed (s : State) : State := { s with free := s.free + 1 }

/-- SOURCE and DETAIL of a refusal whose place in the capture the spec does not state (log entry 5). -/
def freeSource (no off code : Nat) : Nat := Config.accessSource no off code % 256
def freeDetail (no off code : Nat) : Nat := Config.accessSource no off (256 + code) % 65536

/-- Books of a core's queue engine or router out of balance: captured, its error interrupt raised, a mismatch event of the core's ladder. The
spec states no code, SOURCE or DETAIL for it (R25; log entries 5 and 143). -/
def booksLost (s : State) (b : Blk) (c : Nat) : State :=
  let p := corePage b c
  let n := freeSource p.no 0 cRANGE
  let d := freeDetail p.no 0 cRANGE
  report (errAt s p cRANGE n d 0 (coreTag s c)) { page := p.no, source := n, code := cRANGE, detail := d, core := some c, books := true }

/-- Ticks of 40 ns in a time of `n` µs. -/
def usTicks (n : Nat) : Nat := 25 * n
def msTicks (n : Nat) : Nat := 25000 * n
def hourTicks (n : Nat) : Nat := 90000000000 * n

/-! ### Codes over stored and carried words -/

/-- What a code that corrects `corr` errors finds in a word with so many; more than it corrects are taken for found (R204, R296, R341; log
entry 123). -/
def eccBy (corr : Nat) : Ecc → Ecc
  | .flips n => if n = 0 then .clean else if n ≤ corr then .corrected else .uncorrectable
  | e => e

/-! ### Closures and roadworks -/

/-- A word of CLOSURE_MAP: the fuse image OR the field closures (R470). -/
def cmapWord (s : State) (w : Nat) : Nat := (tget 0 s.fuseMap w ||| tget 0 s.fieldMap w).toNat
/-- Bit `n` counted from bit 0 of word `w`. -/
def cmapBit (s : State) (w n : Nat) : Bool := bit (cmapWord s (w + n / 32)) (n % 32)
/-- The place of each kind of unit in the map (R470), as a bit number counted from word 0. -/
def cmDie (d : Nat) : Nat := d
def cmStack (m : Nat) : Nat := 32 + m
def cmBridge (b : Nat) : Nat := 64 + b
def cmPort (p : Nat) : Nat := 128 + p
def cmLane (p d l : Nat) : Nat := 256 + 18 * p + 9 * d + l
def cmSlice (i : Nat) : Nat := 1024 + i
def cmCluster (k : Nat) : Nat := (0x100 + 0x140 * (k / 36)) * 32 + k % 36
def cmCore (c : Nat) : Nat := (0x102 + 0x140 * (c / 144)) * 32 + c % 144
def cmRouter (c : Nat) : Nat := (0x107 + 0x140 * (c / 144)) * 32 + c % 144
def cmBank (c b : Nat) : Nat := (0x10C + 0x140 * (c / 144)) * 32 + 64 * (c % 144) + b
/-- Whether a unit is closed; a withdrawn slice, stack or die is until the next module reset (R469). -/
def closed (s : State) (i : Nat) : Bool := cmapBit s 0 i || s.heal.still.contains i
/-- A core is closed with its own bit; closing a cluster, router, bank or die also closes the core's own bit (R467). -/
def coreClosed (s : State) (c : Nat) : Bool := closed s (cmCore c)

/-! ### Paired compute mode (R446, R447, R449) -/

/-- Paired compute mode of a cluster, by cluster index 36·die + k (R446). -/
def clusPaired (s : State) (k : Nat) : Bool :=
  let pg := diePage .heal (k / 36)
  if k % 36 < 32 then bit (rd s pg 0x78) (k % 36) else bit (rd s pg 0x7C) (k % 36 - 32)
def corePaired (s : State) (c : Nat) : Bool := clusPaired s (clusterOf c)
/-- The leader of a pair is the western core. -/
def isLeader (s : State) (c : Nat) : Bool := corePaired s c && c % 2 == 0
def isFollower (s : State) (c : Nat) : Bool := corePaired s c && c % 2 == 1
/-- What hardware or firmware does to a leader it does to the follower too (R447). -/
def withMate (s : State) (c : Nat) (f : State → Nat → State) : State := if isLeader s c then f (f s c) (c + 1) else f s c
/-- A core with the other of its pair: roadworks, lay-bys and closures take both (R449). -/
def pairOf (s : State) (c : Nat) : List Nat := if corePaired s c then [c - c % 2, c - c % 2 + 1] else [c]

/-- Core power state CSTATE@CLUS_STATUS (R569). -/
def cstate (s : State) (c : Nat) : Nat := fd s (clusPage (clusterOf c)) (fCLUS_STATUS_CSTATE.sub (clusterSlot c))

/-! ### Port states (R376, R388) -/

def pState (s : State) (p : Nat) : Nat := fd s (portPage p) fPORT_STATUS_STATE
def setPState (s : State) (p st : Nat) : State := fdSet s (portPage p) fPORT_STATUS_STATE st
def isUp (s : State) (p : Nat) : Bool := pState s p == 4 || pState s p == 5
/-- The live mask (R388). -/
def live (s : State) (p : Nat) : Bool := isUp s p && fb s (portPage p) fPORT_CTL_ENABLE && !closed s (cmPort p)
def liveMask (s : State) : Nat := (List.range 40).foldl (fun m p => if live s p then m + 2 ^ p else m) 0

end Sys2Proof.Machine
end

