-- ==== Sys2Proof/Machine/PlaceOps.lean ====
section
/-! DEFINITION. Where an address of memory lies in the stacks, and the signpost entry of an EN as memory holds it (R307, R330–R334,
R354). A byte of memory is kept at its place in the stacks: 2^31 · slice + offset within the slice's 2 GiB. -/
namespace Sys2Proof.Machine
open Sys2Proof

/-! ### Addresses (R330–R334, R354) -/

/-- A group is pinned under a bank. -/
def pinned (s : State) (b grp : Nat) : Bool :=
  bit (fd s (memcPage 0) ((if grp < 32 then fMEMC_PINb_LO_PIN else fMEMC_PINb_HI_PIN).at (b % 2))) (grp % 32)
/-- The slice and offset of an address, before relocation. -/
def native (s : State) (b a : Nat) : Nat × Nat :=
  let grp := bits a 34 6
  if pinned s b grp && decide (grp < 62) then
    (32 * bits a 30 4 + Nat.xor (bits a 9 5) (bits a 14 5), 16 * grp * 2 ^ 21 + bits a 14 16 * 512 + a % 512)
  else
    (Nat.xor (Nat.xor (bits a 9 9) (bits a 18 9)) (Nat.xor (bits a 27 9) (bits a 36 4)), bits a 18 22 * 512 + a % 512)
/-- The closed channel a stack relocates under a bank. -/
def spareOf (s : State) (b m : Nat) : Option Nat :=
  if fb s (memcPage 0) (fMEMC_SPAREb_k_VALID.at (16 * (b % 2) + m)) then some (fd s (memcPage 0) (fMEMC_SPAREb_k_SLICE.at (16 * (b % 2) + m))) else none
/-- Where a stand-in holds an offset of closed channel `ch` of a stack. -/
def standIn (m ch off : Nat) : Nat × Nat :=
  let band := off / 2 ^ 21
  let k := band / 32
  (32 * m + (if k < ch then k else k + 1), (992 + band % 32) * 2 ^ 21 + off % 2 ^ 21)
/-- The slice and offset that serve an address under a bank. -/
def place (s : State) (b a : Nat) : Nat × Nat :=
  let n := native s b a
  if spareOf s b (n.1 / 32) == some (n.1 % 32) && decide (n.2 / 2 ^ 21 < 992) then standIn (n.1 / 32) (n.1 % 32) n.2 else n
/-- The place of a byte in the stacks. -/
def physOf (g off : Nat) : Nat := 2 ^ 31 * g + off
def phys (s : State) (b a : Nat) : Nat := physOf (place s b a).1 (place s b a).2

/-! ### Signpost entries (R307) -/

/-- The entry word of an EN in the table of a die, under the bank its walker injects. -/
def signEntry (s : State) (d en : Nat) : Nat :=
  let pg := diePage .sign d
  let a := 2 ^ 25 * fd s pg fSIGN_TBL_LO_BASE + 2 ^ 32 * fd s pg fSIGN_TBL_HI_BASE + 8 * en
  leNat (memGetAll s.mem (phys s (tget 0 (tget {} s.nets d).inj 0xE8) a) 8)
/-- A notice for the core that holds an EN: by the footpath within the module, as a routed control packet to another; dropped where the EN's
signpost entry has VALID 0 (R235). -/
def noticeOut (s : State) (d en : Nat) (f : Nat → Nat → Nat → Bool → Out) : State :=
  let w := signEntry s d en
  if bit w 0 then send s (f (bits w 2 10) (bits w 12 4) (bits w 16 8) (bits w 2 10 != fd s (diePage .sign d) fSIGN_SELF_DEVICE)) else s

end Sys2Proof.Machine
end

