-- ==== Sys2Proof/Machine/SpadOps.lean ====
section
/-! DEFINITION. The scratchpad: words, protection, bank power, live ranges, dirty tracking (R192–R217). A write granted by the crossbar waits in
its bank's queue; the writes of whole operations are applied in their step (log entry 20). -/
namespace Sys2Proof.Machine
open Sys2Proof

/-- Requester codes of R225. -/
def whoLoader : Nat := 10
def whoDma : Nat := 11
def whoQe : Nat := 12
def whoSeq : Nat := 13
def whoExt : Nat := 14
/-- The test traffic of a die's controllers, an external access that roadworks let through (R211, R484). -/
def whoTest : Nat := 30
/-- A requester whose request bears another context tag than the core's own: that of a packet, 0 of an access from outside (R225). -/
def tagged (who tag : Nat) : Nat := who + 32 * (tag + 1)
/-- The context tag a request bears. -/
def spadTag (s : State) (c who : Nat) : Nat := if who < 32 then coreTag s c else who / 32 - 1

def spadPage (c : Nat) : PageId := corePage .spad c
/-- The bank and the row of a word, and its region (R192). -/
def bankOf (w : Nat) : Nat := w % 64
def rowOf (w : Nat) : Nat := w / 64 % 16384
def regionOf (w : Nat) : Nat := w / 8192 % 128
def bankF (b : Nat) : FRef := (fSPAD_BANK_STATE_S.at (b / 8)).sub (b % 8)
def bankState (s : State) (c b : Nat) : Nat := fd s (spadPage c) (bankF b)
def setBank (s : State) (c b v : Nat) : State := fdSet s (spadPage c) (bankF b) v
def regionF (s : State) (c r : Nat) (f : FRef) : Bool := fb s (spadPage c) (f.at r)

/-- A word and its poison flag as accesses see them: the youngest accepted write, else what is stored (R193, R213). Words never written since
POWERING zeroed the bank read zero (R212). -/
def spadWord (k : Core) (w : Nat) : DWord × Bool :=
  match k.sp.wq.reverse.find? (fun e => e.1 == w) with
  | some e => e.2
  | none => (tget 0 k.sp.words w, tget false k.sp.pois w)

/-- A word stored as it stands, with fresh check bits. -/
def putWord (k : Core) (w : Nat) (v : DWord) (p : Bool) : Core :=
  { k with sp := { k.sp with flips := tdel k.sp.flips w, words := (if v = 0 then tdel k.sp.words w else tput k.sp.words w v), pois := (if p then tput k.sp.pois w true else tdel k.sp.pois w) } }

/-- A write takes effect in a word: it sets the dirty bit of its row while TRACK is 1, and cancels a write-back of that word
(R205, R217). -/
def storeWord (s : State) (c w : Nat) (v : DWord) (p : Bool) : State :=
  let k := putWord (core s c) w v p
  let k := { k with sp := { k.sp with wback := k.sp.wback.filter (fun e => e.1 != w) } }
  let k := if regionF s c (regionOf w) fSPAD_REGION_TRACK then { k with sp := { k.sp with dirty := tput k.sp.dirty (rowOf w) true } } else k
  setCore s c k
/-- A write applied to a word, after those accepted before it. -/
def applyWord (s : State) (c w : Nat) (v : DWord) (p : Bool) : State :=
  let s := storeWord s c w v p
  let k := core s c
  setCore s c { k with sp := { k.sp with wq := k.sp.wq.filter (fun e => e.1 != w) } }

/-! ### The banks' write queues (R213) -/

/-- Writes accepted by a bank and not yet applied. -/
def bankPend (k : Core) (b : Nat) : Nat := countp (fun e => e.1 % 64 == b) k.sp.wq
/-- The oldest accepted write of a bank is applied. -/
def bankDrain (s : State) (c b : Nat) : State :=
  let k := core s c
  match k.sp.wq.findIdx? (fun e => e.1 % 64 == b) with
  | none => s
  | some i =>
    let e := k.sp.wq.getD i (0, 0, false)
    storeWord (setCore s c { k with sp := { k.sp with wq := k.sp.wq.eraseIdx i } }) c e.1 e.2.1 e.2.2
/-- What a core's words are once every accepted write has been applied. -/
def Spad.settled (x : Spad) : Spad :=
  x.wq.foldl (fun x e => (putWord { sp := x } e.1 e.2.1 e.2.2).sp) { x with wq := [] }
/-- A write that its bank accepts into its queue. -/
def bankAccept (s : State) (c w : Nat) (v : DWord) (p : Bool) : State :=
  let k := core s c
  setCore s c { k with sp := { k.sp with wq := k.sp.wq ++ [(w, v, p)] } }

/-- Every word of a region written whole by firmware's external accesses (R207, R500). -/
def regionFill (s : State) (c r : Nat) (ws : List DWord) (p : Bool) : State :=
  let k := core s c
  let there := fun (w : Nat) => w / 8192 == r
  let ads := (List.range 8192).map (fun i => (8192 * r + i, ws.getD i 0))
  let words := ads.foldl (fun t e => if e.2 = 0 then t else tput t e.1 e.2) (tfilter (fun w _ => !there w) k.sp.words)
  let pois := (if p then ads else []).foldl (fun t e => tput t e.1 true) (tfilter (fun w _ => !there w) k.sp.pois)
  let dirty := (if regionF s c r fSPAD_REGION_TRACK then List.range 128 else []).foldl (fun t i => tput t (128 * r + i) true) k.sp.dirty
  let s := setCore s c { k with sp := { k.sp with words := words, pois := pois, dirty := dirty, flips := tfilter (fun w _ => !there w) k.sp.flips, wq := k.sp.wq.filter (fun e => !there e.1), wback := k.sp.wback.filter (fun e => !there e.1) } }
  bumpBy s (spadPage c) 0xC38 8192

/-! ### Bank power -/

/-- The target in force for a bank: REST sets ON targets to DROWSY, a core that is OFF sets every target OFF (R216). -/
def bankTarget (s : State) (c b : Nat) : Nat :=
  let t := fd s (spadPage c) ((fSPAD_BANK_PWR_T.at (b / 16)).sub (b % 16))
  if cstate s c == 2 then 2 else if cstate s c == 1 && t == 0 then 1 else t

/-- ON, DROWSY, OFF and CLOSED are stable (R216). -/
def bankStable (v : Nat) : Bool := v == 0 || v == 1 || v == 2 || v == 7

/-- The state a stable bank leaves for under a target (R212). -/
def bankNext (st t : Nat) : Nat :=
  match st, t with
  | 0, 1 => 4 | 0, 2 => 3 | 1, 0 => 5 | 1, 2 => 3 | 2, 0 => 6 | v, _ => v

/-- A target takes effect when the bank is stable, and is held until then (R216). -/
def bankRetarget (s : State) (c b : Nat) : State :=
  let k := core s c
  let st := bankState s c b
  if bankStable st then
    setBank (setCore s c { k with sp := { k.sp with held := tdel k.sp.held b } }) c b (bankNext st (bankTarget s c b))
  else setCore s c { k with sp := { k.sp with held := tput k.sp.held b true } }

/-- A bank reaches a stable state, and a held target takes effect. One that an access woke while its target is DROWSY stays ON until a target is
next written (DESIGN CHOICE, log entry 159). -/
def bankReach (s : State) (c b st : Nat) : State :=
  let s := setBank s c b st
  if tget false (core s c).sp.held b then bankRetarget s c b else s

/-- The contents of a bank are lost (R212). -/
def bankLose (k : Core) (b : Nat) : Core :=
  { k with sp := { k.sp with words := tfilter (fun w _ => w % 64 != b) k.sp.words, pois := tfilter (fun w _ => w % 64 != b) k.sp.pois, flips := tfilter (fun w _ => w % 64 != b) k.sp.flips, wback := k.sp.wback.filter (fun e => e.1 % 64 != b), wq := k.sp.wq.filter (fun e => e.1 % 64 != b) } }

/-- Every bank follows a change of its target. -/
def retargetAll (s : State) (c : Nat) : Nat → State
  | 0 => s
  | n + 1 => bankRetarget (retargetAll s c n) c n

/-! ### Access -/

/-- How the scratchpad answers an access: with a word and its poison, not yet, or with a refusal code. -/
inductive SpadAns where
  | word (v : DWord) (poison : Bool)
  | wait
  | refused (code : Nat)
  deriving DecidableEq, Repr

/-- A range of the requester that has been granted covers a word: its operation is past its issue. -/
def rangeCovers (k : Core) (who w : Nat) : Bool :=
  k.sp.ranges.any (fun r => r.granted && r.owner == who && decide (r.start ≤ w) && decide (w < r.start + r.len))
/-- Whether an access to a region waits: a held region holds all but external accesses, a region being recoded all, unless the operation was
issued before (R207, R209). -/
def regionWaits (s : State) (c who w : Nat) : Bool :=
  ((regionF s c (regionOf w) fSPAD_REGION_HOLD && who % 16 != whoExt) || (core s c).sp.recode.contains (regionOf w)) && !rangeCovers (core s c) who w

/-- A bank refuses an access: captured with the bank and the requester (R214, R225). -/
def bankRefuse (s : State) (c who w code source : Nat) : State :=
  let p := spadPage c
  raiseInt (errAt s p code source (bankOf w + 256 * (who % 16)) (8 * w) (spadTag s c who)) p 10
/-- What a bank does with an access (R211, R212, R214): none to serve it, or why not. -/
def bankAsk (s : State) (c who w : Nat) : State × Option SpadAns :=
  let p := spadPage c
  let b := bankOf w
  if (core s c).test && (who % 32 == whoExt || who % 32 == whoQe) then (s, some (.refused cNOT_READY))
  else if coreClosed s c then (bankRefuse s c who w cCLOSURE 0x76, some (.refused cCLOSURE))
  else
    match bankState s c b with
    | 0 => (s, if regionWaits s c who w then some .wait else none)
    | 1 => (bump (setBank s c b 5) p 0xC28, some .wait)
    | 2 => (bankRefuse (bump s p 0xC20) c who w cBANK_OFF 0x72, some (.refused cBANK_OFF))
    | 3 => (bump s p 0xC18, some (.refused cBANK_OFF))
    | 6 => (s, some (.refused cNOT_READY))
    | 7 => (bankRefuse s c who w cCLOSURE 0x76, some (.refused cCLOSURE))
    | _ => (s, some .wait)
/-- Every bank of an access of several words asked: the first refusal ends it and counts once; else whether one of them waits. -/
def askBanks (s : State) (c who : Nat) : List Nat → State × Option Nat × Bool
  | [] => (s, none, false)
  | w :: l =>
    match bankAsk s c who w with
    | (s, some (.refused e)) => (s, some e, false)
    | (s, some _) => let r := askBanks s c who l; (r.1, r.2.1, true)
    | (s, none) => askBanks s c who l

/-- Banks that an operation of several words must wake or wait for; none is refused yet (R212). -/
def banksWait (s : State) (c who : Nat) (ws : List Nat) : State × Bool :=
  ws.foldl (fun (r : State × Bool) w => match bankAsk r.1 c who w with | (s, some .wait) => (s, true) | _ => r) (s, false)

/-- What the code of a class finds in a stored word: class W corrects two flipped bits and detects three, class A corrects one and detects two;
more are taken for found, as R204 says only that they may be miscorrected (DESIGN CHOICE, log entry 123). A write still queued is no stored
word. -/
def flipsFind (k : Core) (classW : Bool) (w : Nat) : Ecc :=
  if k.sp.wq.any (fun e => e.1 == w) then .clean else eccBy (if classW then 2 else 1) (.flips (tget 0 k.sp.flips w))
/-- The stored bits of a word that have flipped, as an access finds them: what it finds stays in the word until the word is written (R193,
log entry 158). -/
def noteFlips (s : State) (c w : Nat) (e : Ecc) : State :=
  let k := core s c
  let have_ := tget 0 k.sp.flips w
  let n := match e with | .clean => have_ | .corrected => max have_ 1 | .uncorrectable => max have_ 3 | .flips n => have_ + n
  if n = have_ then s else setCore s c { k with sp := { k.sp with flips := tput k.sp.flips w n } }
/-- What the code of a word's region finds in it. -/
def eccAt (s : State) (c w : Nat) (e : Ecc) : Ecc := flipsFind (core (noteFlips s c w e) c) (regionF s c (regionOf w) fSPAD_REGION_CLASS) w

/-- A word corrected, counted against its bank (R205, R210, R462). -/
def spadCorrected (s : State) (c w off : Nat) : State := watch (bump s (spadPage c) off) watchBank (64 * c + bankOf w) (hourTicks 1)
/-- What follows from an uncorrectable word that a request of `who`, else of the core itself, has found (R206, R207, R225). -/
def spadUncorrectable (s : State) (c w : Nat) (scrub : Bool) (who : Nat := whoSeq) : State :=
  let p := spadPage c
  let r := regionOf w
  let d := bankOf w + 64 * r
  let s := bump s p 0xC10
  if regionF s c r fSPAD_REGION_CLASS && regionF s c r fSPAD_REGION_HOMEV then
    let d := d + (if scrub then 2 ^ 13 else 0)
    let s := fdSet s p (fSPAD_REGION_HOLD.at r) 1
    reportCore (raiseInt (errAt s p cPOISON 0x71 d (8 * w) (spadTag s c who)) p 9) .spad c 0x71 cPOISON d
  else
    let s := applyWord s c w 0 true
    reportCore (raiseInt (errAt s p cPOISON 0x70 d (8 * w) (spadTag s c who)) p 8) .spad c 0x70 cPOISON d

/-- A read of a word that its bank serves, with what the code finds (R205–R208). -/
def spadFetch (s : State) (c w : Nat) (e : Ecc) (who : Nat := whoSeq) : State × SpadAns :=
  let p := spadPage c
  let s := noteFlips s c w e
  let k := core s c
  let v := spadWord k w
  let s := bump s p 0xC38
  match eccAt s c w .clean with
  | .corrected =>
    (spadCorrected (setCore s c { k with sp := { k.sp with wback := k.sp.wback ++ [(w, v.1)] } }) c w 0xC00, .word v.1 v.2)
  | .uncorrectable => if v.2 then (s, .word v.1 true) else (spadUncorrectable s c w false who, .word 0 true)
  | _ => (s, .word v.1 v.2)

/-- A read by a requester. -/
def spadRead (s : State) (c who w : Nat) (e : Ecc) : State × SpadAns :=
  match bankAsk s c who w with
  | (s, some a) => (s, a)
  | (s, none) => spadFetch s c w e who

/-- The bytes of a word that a mask of byte enables replaces (R196). -/
def mergeBytes (old new : DWord) (mask : Nat) : DWord :=
  let pick := fun (i : Nat) => if bit mask i then bits new.toNat (8 * i) 8 else bits old.toNat (8 * i) 8
  BitVec.ofNat 64 ((List.range 8).foldr (fun i acc => pick i + 256 * acc) 0)

/-- What a write of some bytes makes of a word, after the read of the old one that less than a whole word needs (R196, R205, R208): a whole word
replaces the word and its poison; less stays poisoned where the old word is poisoned or uncorrectable. -/
def spadMerge (s : State) (c w mask : Nat) (v : DWord) (poison : Bool) (e : Ecc) (who : Nat := whoSeq) : State × DWord × Bool :=
  let s := bump s (spadPage c) 0xC38
  if mask % 256 == 255 then (s, v, poison)
  else
    let s := noteFlips s c w e
    let old := spadWord (core s c) w
    let e := eccAt s c w .clean
    let bad := old.2 || e == .uncorrectable
    let s := if e == .uncorrectable && !old.2 then spadUncorrectable s c w false who else if e == .corrected then spadCorrected s c w 0xC00 else s
    (s, mergeBytes old.1 v mask, bad || poison)
/-- A write that its bank serves. -/
def spadApply (s : State) (c w mask : Nat) (v : DWord) (poison : Bool) (e : Ecc) (who : Nat := whoSeq) : State :=
  let r := spadMerge s c w mask v poison e who
  applyWord r.1 c w r.2.1 r.2.2

/-- A write by a requester; the answer holds the word written. -/
def spadWrite (s : State) (c who w mask : Nat) (v : DWord) (poison : Bool) (e : Ecc) : State × SpadAns :=
  match bankAsk s c who w with
  | (s, some a) => (s, a)
  | (s, none) => (spadApply s c w mask v poison e who, .word v poison)

/-- Whole words written at rising addresses; the first refusal or wait is the answer, and words already written, whose number comes with it,
stay written (R215). -/
def spadWriteAll (s : State) (c who w : Nat) : List (DWord × Bool) → State × SpadAns × Nat
  | [] => (s, .word 0 false, 0)
  | (v, p) :: l =>
    match spadWrite s c who w 255 v p .clean with
    | (s, .word _ _) => let r := spadWriteAll s c who (w + 1) l; (r.1, r.2.1, r.2.2 + 1)
    | (s, a) => (s, a, 0)

/-- Whole words read at rising addresses; the first refusal or wait is the answer. -/
def spadReadAll (s : State) (c who w : Nat) : Nat → State × SpadAns × List (DWord × Bool)
  | 0 => (s, .word 0 false, [])
  | n + 1 =>
    match spadRead s c who w .clean with
    | (s, .word v p) =>
      match spadReadAll s c who (w + 1) n with
      | (s, a, l) => (s, a, (v, p) :: l)
    | (s, a) => (s, a, [])

/-- The same, with what the code finds in the first word. -/
def spadReadEcc (s : State) (c who w : Nat) (e : Ecc) : Nat → State × SpadAns × List (DWord × Bool)
  | 0 => (s, .word 0 false, [])
  | n + 1 =>
    match spadRead s c who w e with
    | (s, .word v p) => let r := spadReadAll s c who (w + 1) n; (r.1, r.2.1, (v, p) :: r.2.2)
    | (s, a) => (s, a, [])

/-! ### Live ranges -/

/-- Words of a range; one where the length is 0 (R200). -/
def Range.last (r : Range) : Nat := r.start + max r.len 1 - 1
/-- Two ranges share a word and one of them writes (R199). -/
def Range.conflicts (a b : Range) : Bool :=
  (a.write || b.write) && decide (a.start ≤ b.last) && decide (b.start ≤ a.last)
/-- Quota of an owner (R197). -/
def rangeQuota (owner : Nat) : Nat := if owner == whoDma then 8 else if owner == whoQe then 13 else 1

/-- The regions a range touches. -/
def Range.regions (r : Range) : List Nat :=
  (List.range (r.last / 8192 - r.start / 8192 + 1)).map (fun i => (r.start / 8192 + i) % 128)

/-- What becomes of a request for a range: taken into the scoreboard, needing none, waiting for its quota, or refused. -/
inductive RangeAns where
  | taken
  | free
  | quota
  | refused
  deriving DecidableEq, Repr

/-- A range requested (R197, R198, R201, R202). -/
def rangeAsk (s : State) (c : Nat) (r : Range) : State × RangeAns :=
  let p := spadPage c
  let k := core s c
  if r.start + r.len > 1048576 ∨ r.start ≥ 1048576 then
    (raiseInt (errAt s p cRANGE 0x75 r.owner (8 * r.start) (coreTag s c)) p 12, .refused)
  else if r.regions.all (fun g => regionF s c g fSPAD_REGION_UNORD) then (s, .free)
  else if countp (fun q => q.owner == r.owner) k.sp.ranges ≥ rangeQuota r.owner then (s, .quota)
  else (setCore s c { k with sp := { k.sp with ranges := k.sp.ranges ++ [{ r with granted := false }] } }, .taken)

/-- Whether the n-th range may be granted: no conflicting range ahead of it, no region of it held or being recoded (R199, R207,
R209). -/
def rangeClear (s : State) (c n : Nat) (r : Range) : Bool :=
  ((core s c).sp.ranges.take n).all (fun q => !q.conflicts r) &&
    r.regions.all (fun g => !regionF s c g fSPAD_REGION_HOLD && !(core s c).sp.recode.contains g)

/-- Grant the n-th range; an empty range is released in the cycle it is granted (R200). -/
def rangeGrant (s : State) (c n : Nat) : State :=
  let k := core s c
  match k.sp.ranges[n]? with
  | none => s
  | some r =>
    if r.granted || !rangeClear s c n r then s
    else if r.len = 0 then setCore s c { k with sp := { k.sp with ranges := k.sp.ranges.eraseIdx n } }
    else setCore s c { k with sp := { k.sp with ranges := k.sp.ranges.set n { r with granted := true } } }

/-- Release of an owner's range by its id. -/
def rangeRelease (s : State) (c owner id : Nat) : State :=
  let k := core s c
  setCore s c { k with sp := { k.sp with ranges := k.sp.ranges.filter (fun r => !(r.owner == owner && r.id == id)) } }

/-- Whether an owner still waits for a range of an id. -/
def rangeWaiting (k : Core) (owner id : Nat) : Bool :=
  k.sp.ranges.any (fun r => r.owner == owner && r.id == id && !r.granted)

/-- Whether a sequencer access to a word waits on a pending write range (R180, R202). -/
def writePending (k : Core) (w : Nat) : Bool :=
  k.sp.ranges.any (fun r => r.write && decide (r.start ≤ w) && decide (w ≤ r.last))

/-- Whether any region of an access holds it back as an unscoreboarded access. -/
def rangeHeld (k : Core) (owner id : Nat) : Bool := k.sp.ranges.any (fun r => r.owner == owner && r.id == id)

end Sys2Proof.Machine
end

