-- ==== Sys2Proof/Machine/FabOps.lean ====
section
/-! DEFINITION. The dataflow fabric: configuration words, links, the credit loop, the firing rule (R123–R135, R142). -/
namespace Sys2Proof.Machine
open Sys2Proof

def flowPage (c : Nat) : PageId := corePage .flow c
/-- Active buffer and current configuration epoch (R142). -/
def activeBuf (s : State) (c : Nat) : Nat := fd s (flowPage c) fFLOW_STATUS_ACTIVE
def epoch (s : State) (c : Nat) : Nat := fd s (flowPage c) fFLOW_STATUS_EPOCH

/-- Word `i` of buffer `b` (R142). Word 2, the array word, has its home in ARR_CFG0 or ARR_CFG1, whose RETRY core reset leaves at 1
(DESIGN CHOICE, log entry 113). -/
def bufWord (s : State) (c b i : Nat) : Nat :=
  if i = 2 then rd s (flowPage c) (0x400 + 4 * b)
  else (tget 0 (if b = 0 then (core s c).fab.buf0 else (core s c).fab.buf1) i).toNat
/-- A word of a buffer written; VALID of the buffer clears (R143). -/
def setBufWord (s : State) (c b i : Nat) (v : Word) : State :=
  let s :=
    if i = 2 then wr s (flowPage c) (0x400 + 4 * b) (v.toNat % 2 ^ 12)
    else
      let k := core s c
      if b = 0 then setCore s c { k with fab := { k.fab with buf0 := tput k.fab.buf0 i v } }
      else setCore s c { k with fab := { k.fab with buf1 := tput k.fab.buf1 i v } }
  fdSet s (flowPage c) (fFLOW_CFG_STATUS_VALID0.sub b) 0
/-- A word of the active configuration. -/
def cfgW (s : State) (c i : Nat) : Nat := bufWord s c (activeBuf s c) i

/-- An entry of the link table (R127). -/
structure LinkCfg where
  src : Nat
  dst : Nat
  net : Nat
  en : Bool
  depth : Nat
  preload : Nat
  pval : Nat
  rsv : Nat
  deriving DecidableEq, Repr

def linkCfg (s : State) (c b n : Nat) : LinkCfg :=
  let w := bufWord s c b (16 + 2 * n)
  ⟨bits w 0 8, bits w 8 8, bits w 16 2, bit w 18, bits w 19 7, bits w 26 2, bufWord s c b (17 + 2 * n), bits w 28 4⟩

/-- Port IDs (R124). -/
def portId (unit idx : Nat) : Nat := unit * 8 + idx

/-- The entries enabled in the active configuration. -/
def linksOn (s : State) (c : Nat) : List Nat := (List.range 128).filter (fun n => (linkCfg s c (activeBuf s c) n).en)
/-- The fork of an output port, and the link of an input port (R128). -/
def linksFrom (s : State) (c port : Nat) : List Nat :=
  (List.range 128).filter (fun n => let l := linkCfg s c (activeBuf s c) n; l.en && l.src == port)
def linkTo (s : State) (c port : Nat) : Option Nat :=
  (List.range 128).find? (fun n => let l := linkCfg s c (activeBuf s c) n; l.en && l.dst == port)

def link (s : State) (c n : Nat) : Link := tget {} (core s c).fab.links n
def setLink (s : State) (c n : Nat) (l : Link) : State :=
  let k := core s c
  setCore s c { k with fab := { k.fab with links := tput k.fab.links n l } }

/-- The tokens queued at an input port; none where no link feeds it. -/
def portQueue (s : State) (c port : Nat) : List Tok :=
  match linkTo s c port with
  | some n => (link s c n).q
  | none => []
def headTok (s : State) (c port : Nat) : Option Tok := (portQueue s c port).head?

/-- One token popped; its credit is sent back (R133). -/
def popTok (s : State) (c port : Nat) : State :=
  match linkTo s c port with
  | some n => let l := link s c n; if l.q.isEmpty then s else setLink s c n { l with q := l.q.tail, cfly := l.cfly + 1 }
  | none => s
def popToks (s : State) (c port : Nat) : Nat → State
  | 0 => s
  | n + 1 => popToks (popTok s c port) c port n

/-- Whether every link of an output port holds `n` credits (R130). An output with no link needs none. -/
def credits (s : State) (c port n : Nat) : Bool := (linksFrom s c port).all (fun i => decide (n ≤ (link s c i).credits))
/-- Some links of a fork, but not all, lack credit (R138). -/
def forkStalled (s : State) (c port n : Nat) : Bool :=
  !credits s c port n && (linksFrom s c port).any (fun i => decide (n ≤ (link s c i).credits))

/-- A cycle in which a firing lacks nothing but credit on some, not all, links of one fork is counted: `outs` are the outputs of a firing whose
other conditions hold, with the tokens each sends (R138). -/
def stallCount (s : State) (c : Nat) (outs : List (Nat × Nat)) : State :=
  match outs.filter (fun o => !credits s c o.1 o.2) with
  | [o] => if forkStalled s c o.1 o.2 then bump s (flowPage c) 0xC28 else s
  | _ => s

/-- `n` credits taken from each link of an output: its tokens count as in flight from here (R133, R134). -/
def takeCredits (s : State) (c port n : Nat) : State :=
  (linksFrom s c port).foldl (fun s i => let l := link s c i; setLink s c i { l with credits := l.credits - n, pipe := l.pipe + n }) s
/-- A token emitted onto each link of an output, whose credit the firing took. -/
def emitTok (s : State) (c port : Nat) (t : Tok) : State :=
  (linksFrom s c port).foldl (fun s i => let l := link s c i; setLink s c i { l with pipe := l.pipe - 1, fly := l.fly ++ [t] }) s
def emitToks (s : State) (c port : Nat) : List Tok → State
  | [] => s
  | t :: l => emitToks (emitTok s c port t) c port l
/-- A token with the producer's epoch (R126). -/
def mkTok (s : State) (c v : Nat) (poison : Bool) : Tok := ⟨v, poison, epoch s c⟩

/-- FLOW_CFGSW at an event, for the captures of R158. -/
def cfgswCount (s : State) (c : Nat) : Nat := rd64 s (flowPage c) 0xC00
/-- A capture of the fabric with its interrupt bit (R158). -/
def flowErr (s : State) (c code source detail : Nat) (int : Option Nat) : State :=
  let s := errAt s (flowPage c) code source detail (cfgswCount s c) (coreTag s c)
  match int with
  | some b => raiseInt s (flowPage c) b
  | none => s

/-- The books of a link (R134): queued, in flight, credits in flight and credits held make up its depth. -/
def linkSum (l : Link) : Nat := l.q.length + l.fly.length + l.pipe + l.cfly + l.credits
def booksOk (s : State) (c n : Nat) : Bool := linkSum (link s c n) == (linkCfg s c (activeBuf s c) n).depth
/-- A CFGSW has left the old configuration and has not yet set the links of the new one: the window of R134 in which the books do not
balance, and in which no unit fires (R147, R149, R150). -/
def switching (s : State) (c : Nat) : Bool := match (core s c).fab.sw with | some x => x.switched | none => false
/-- A link whose books do not balance is captured and reported (R25, R134). In REST and OFF there are none to keep (R151). -/
def booksCheck (s : State) (c n : Nat) : State :=
  if switching s c || cstate s c != 0 || !(linkCfg s c (activeBuf s c) n).en || booksOk s c n then s
  else report (flowErr s c cRANGE 0x53 n (some 10)) { page := (flowPage c).no, source := 0x53, code := cRANGE, detail := n, core := some c, books := true }

/-- A link of the active configuration as R135 starts it. -/
def startLink (s : State) (c n : Nat) : Link :=
  let l := linkCfg s c (activeBuf s c) n
  let v := if l.net = 0 then l.pval else if l.net = 2 then l.pval % 2 else 0
  { q := List.replicate l.preload ⟨v, false, epoch s c⟩, credits := l.depth - l.preload, peak := l.preload }
/-- Every enabled link of the active configuration started (R135). -/
def startLinks (s : State) (c : Nat) : State :=
  let t := (linksOn s c).map (fun n => (n, startLink s c n))
  let k := core s c
  setCore s c { k with fab := { k.fab with links := t } }

/-- The landing of the oldest token in flight on a link: into the queue, or discarded where its epoch is not the current one
(R132, R133). -/
def landTok (s : State) (c n : Nat) : State :=
  let l := link s c n
  match l.fly with
  | [] => s
  | t :: rest =>
    if t.ep == epoch s c then
      booksCheck (setLink s c n { l with fly := rest, q := l.q ++ [t], peak := max l.peak (l.q.length + 1) }) c n
    else
      let s := bump (setLink s c n { l with fly := rest }) (flowPage c) 0xC18
      booksCheck (flowErr s c cRANGE 0x52 (linkCfg s c (activeBuf s c) n).dst (some 10)) c n

/-- The arrival of a credit at its producer. -/
def landCredit (s : State) (c n : Nat) : State :=
  let l := link s c n
  if l.cfly = 0 then booksCheck s c n
  else booksCheck (setLink s c n { l with cfly := l.cfly - 1, credits := l.credits + 1 }) c n

/-- Unit codes (R123). -/
def uARR : Nat := 0
def uCU (n : Nat) : Nat := 1 + n
def uMU (n : Nat) : Nat := 8 + n
def uQE : Nat := 12
def uSEQ : Nat := 13

end Sys2Proof.Machine
end

