-- ==== Sys2Proof/Machine/ArrOps.lean ====
section
/-! DEFINITION. The matrix array: tile images, chunk results, passes, results and retries (R90–R122). -/
namespace Sys2Proof.Machine
open Sys2Proof

def arr (s : State) (c : Nat) : Arr := (core s c).arr
def setArr (s : State) (c : Nat) (a : Arr) : State := setCore s c { core s c with arr := a }
/-- The array word of the active configuration (R118). -/
def arrCfg (s : State) (c : Nat) : Nat := cfgW s c 2
def arrWfmt (s : State) (c : Nat) : Nat := bits (arrCfg s c) 0 4
def arrAfmt (s : State) (c : Nat) : Nat := bits (arrCfg s c) 4 4
def arrSparse (s : State) (c : Nat) : Bool := bit (arrCfg s c) 8
def arrInit (s : State) (c : Nat) : Bool := bit (arrCfg s c) 9
def arrRetry (s : State) (c : Nat) : Nat := bits (arrCfg s c) 10 2

/-- Ports of the array (R123). -/
def pW : Nat := portId 0 0
def pA : Nat := portId 0 1
def pAS0 : Nat := portId 0 2
def pAS1 : Nat := portId 0 3
def pIV : Nat := portId 0 4
def pPD : Nat := portId 0 5
def pO : Nat := portId 0 0
def pDONE : Nat := portId 0 1

/-! ### Tile images (R94–R98) -/

/-- Chunks per column per sequence, which also give the dense positions of a pass, 64 to a chunk (R91). -/
def arrChunks (wfmt : Nat) (sparse : Bool) : Nat := (if wfmt = 1 then 2 else 1) * (if sparse then 2 else 1)
/-- Bytes of the scale, metadata and element sections, each padded to 256 (R94). -/
def scaleBytes (wfmt : Nat) (sparse : Bool) : Nat :=
  if fmtMx wfmt then (64 * 2 * arrChunks wfmt sparse + 255) / 256 * 256 else 0
def metaBytes (wfmt : Nat) (sparse : Bool) : Nat := if sparse then (if wfmt = 1 then 2048 else 1024) else 0
def elemBits (wfmt : Nat) : Nat := if wfmt = 1 then 8 else fmtWidth wfmt
def imageTokens (wfmt : Nat) (sparse : Bool) : Nat :=
  (scaleBytes wfmt sparse + metaBytes wfmt sparse + 512 * elemBits wfmt) / 256

/-- The tokens of an image as one number, little-endian. -/
def imageNat : List Nat → Nat
  | [] => 0
  | t :: l => t % 2 ^ 2048 + 2 ^ 2048 * imageNat l

/-- A byte of the image's sections. -/
def imgByte (img off : Nat) : Nat := bits img (8 * off) 8
/-- The nibble of column `col` and group `g` (R97). -/
def nibble (wfmt : Nat) (img col g : Nat) : Nat :=
  let half := if wfmt = 1 then 32 else 16
  bits (imgByte img (scaleBytes wfmt true + col * half + g / 2)) (4 * (g % 2)) 4
/-- A stored element: row, column, tile of a pair. -/
def imgElem (wfmt : Nat) (sparse : Bool) (img row col tile : Nat) : Nat :=
  let base := 8 * (scaleBytes wfmt sparse + metaBytes wfmt sparse)
  if wfmt = 1 then bits img (base + 8 * (row * 64 + col) + 4 * tile) 4
  else bits img (base + elemBits wfmt * (row * 64 + col)) (elemBits wfmt)

/-- The row and tile of the stored weight at dense position `p` of a column; none where a 2:4 tile drops it (R95, R97). -/
def weightSlot (wfmt : Nat) (sparse : Bool) (img col p : Nat) : Option (Nat × Nat) :=
  if sparse then
    let g := p / 4
    let n := nibble wfmt img col g
    let k := 2 * (g % 32)
    if n % 4 = p % 4 then some (k, g / 32) else if n / 4 = p % 4 then some (k + 1, g / 32) else none
  else some (p % 64, p / 64)
/-- The weight at dense position `p` of a column, without its scale; a dropped element of a 2:4 tile is +0 (R71, R95, R97). -/
def weightAt (wfmt : Nat) (sparse : Bool) (img col p : Nat) : FVal :=
  match weightSlot wfmt sparse img col p with
  | some (row, tile) => fmtDec wfmt (imgElem wfmt sparse img row col tile)
  | none => .fin false 0 0
/-- The weight scale code of a column for the block of a position (R65, R96). -/
def weightScale (wfmt : Nat) (sparse : Bool) (img col p : Nat) : Nat :=
  if fmtMx wfmt then imgByte img (col * (2 * arrChunks wfmt sparse) + p / 32) else 127

/-- The lowest column of a tile that holds an invalid nibble (R98), the one a capture names (DESIGN CHOICE, log entry 151). -/
def badNibbleCol (wfmt : Nat) (img : Nat) : Option Nat :=
  let groups := if wfmt = 1 then 64 else 32
  (List.range 64).find? (fun col => (List.range groups).any (fun g => let n := nibble wfmt img col g; !decide (n % 4 < n / 4)))

/-! ### Results (R68–R74, R99, R101) -/

/-- The activation at dense position `p` and its scale code (R66, R99). -/
def actAt (afmt tok p : Nat) : FVal := fmtDec afmt (bits tok (fmtWidth afmt * p) (fmtWidth afmt))
def actScale (afmt as0 as1 p : Nat) : Nat :=
  if fmtMx afmt then (if p / 32 < 4 then bits as0 (8 * (p / 32)) 8 else bits as1 (8 * (p / 32 - 4)) 8) else 127

/-- The exact products of chunk `k` of a column. -/
def chunkProducts (wfmt afmt : Nat) (sparse : Bool) (img : Nat) (q : SeqIn) (col k : Nat) : List FVal :=
  (List.range 64).map (fun i =>
    let p := 64 * k + i
    (scaled (weightScale wfmt sparse img col p) (weightAt wfmt sparse img col p)).mul
      (scaled (actScale afmt q.as0.val q.as1.val p) (actAt afmt q.act.val p)))

/-- The running value of a column after its chunk results, in ascending order (R101). -/
def columnResult (wfmt afmt : Nat) (sparse : Bool) (img : Nat) (q : SeqIn) (init : Word) (col : Nat) : Word :=
  (List.range (arrChunks wfmt sparse)).foldl
    (fun v k => f32add v (chunkResult (decide (wfmt = 10)) (chunkProducts wfmt afmt sparse img q col k))) init

/-! ### Residues and checks (R110–R112) -/

/-- The residues stored beside the weights of a tile image. -/
def tileResidues (wfmt img : Nat) (sparse : Bool) : Nat :=
  (List.range (if wfmt = 1 then 8192 else 4096)).foldl (fun r i =>
    r + residue (fmtInt wfmt (fmtDec wfmt (imgElem wfmt sparse img (i / 64 % 64) (i % 64) (i / 4096)))) * 16 ^ i) 0
/-- The residue stored beside the weight at a dense position; a dropped one has residue 0. -/
def weightResidue (t : Tile) (img col p : Nat) : Nat :=
  match weightSlot t.wfmt t.sparse img col p with
  | some (row, tile) => bits t.res (4 * (4096 * tile + 64 * row + col)) 4
  | none => 0
/-- The residue an activation element is given as it enters. -/
def actResidue (afmt tok p : Nat) : Nat := residue (fmtInt afmt (actAt afmt tok p))
/-- The product of a cell as an integer, in units of the two formats' least significant bits. -/
def cellProduct (t : Tile) (afmt img : Nat) (q : SeqIn) (col p : Nat) : Int :=
  fmtInt t.wfmt (weightAt t.wfmt t.sparse img col p) * fmtInt afmt (actAt afmt q.act.val p)
/-- What a fault adds to the product at a position, and to the adder tree of a half-chunk. -/
def faultProd (f : ArrFault) (col p : Nat) : Int := match f with | .prod c q d => if c = col ∧ q = p then d else 0 | _ => 0
def faultSum (f : ArrFault) (col half : Nat) : Int := match f with | .sum c h d => if c = col ∧ h = half then d else 0 | _ => 0
/-- The sum of the product residues of a half-chunk, as its checker reads it; 15 is a fault of the checking path. -/
def residueSum (t : Tile) (afmt img : Nat) (q : SeqIn) (f : ArrFault) (col half : Nat) : Nat :=
  let rs := (List.range 32).map (fun i => (weightResidue t img col (32 * half + i), actResidue afmt q.act.val (32 * half + i)))
  match f with
  | .resid c h v => if c = col ∧ h = half then v % 16 else rs.foldl (fun n r => (n + r.1 * r.2) % 15) 0
  | _ => if rs.any (fun r => r.1 == 15) then 15 else rs.foldl (fun n r => (n + r.1 * r.2) % 15) 0
/-- The half-chunk sum that leaves the adder tree. -/
def halfSum (t : Tile) (afmt img : Nat) (q : SeqIn) (f : ArrFault) (col half : Nat) : Int :=
  (List.range 32).foldl (fun n i => n + cellProduct t afmt img q col (32 * half + i) + faultProd f col (32 * half + i)) 0 + faultSum f col half
/-- Aligned BF16 products as integers in units of the window's last bit. -/
def alignedInts (ps : List FVal) : List Int :=
  match leadExp ps with
  | none => ps.map (fun _ => 0)
  | some x => ps.map (fun v => (truncTo (x - 38) v).atExp (x - 38))
/-- The column of the element that a bit of a tile image belongs to. -/
def bitCol (wfmt : Nat) (sparse : Bool) (b : Nat) : Option Nat :=
  let base := 8 * (scaleBytes wfmt sparse + metaBytes wfmt sparse)
  let i := (b - base) / elemBits wfmt
  if base ≤ b ∧ i < 4096 then some (i % 64) else none
/-- A column passes its checks: residues of its cell products and sums, in BF16 those of each product and of the aligned sum, and the
comparison of its doubled paths. A stored weight whose bits have changed fails on every attempt (R114). -/
def columnPasses (t : Tile) (afmt img : Nat) (q : SeqIn) (f : ArrFault) (col : Nat) : Bool :=
  f != .copy col && !(t.hits.any (fun b => bitCol t.wfmt t.sparse b == some col)) &&
  (if t.wfmt = 10 then
    let rs := alignedInts (chunkProducts 10 afmt t.sparse img q col 0)
    let second := fun (h : Nat) => ((rs.drop (32 * h)).take 32).foldl (fun n r => (n + residue r) % 15) 0
    (List.range 64).all (fun p =>
      weightResidue t img col p != 15 &&
        residue (cellProduct t afmt img q col p + faultProd f col p) == weightResidue t img col p * actResidue afmt q.act.val p % 15) &&
    (List.range 2).all (fun h => residue (((rs.drop (32 * h)).take 32).foldl (· + ·) 0 + faultSum f col h) ==
      (match f with | .resid c g v => if c = col ∧ g = h then v % 16 else second h | _ => second h))
  else
    (List.range (2 * arrChunks t.wfmt t.sparse)).all (fun h => residueSum t afmt img q f col h == residue (halfSum t afmt img q f col h)))
/-- The lowest column whose checks fail: the one a capture and a report name (DESIGN CHOICE, log entry 151). -/
def failingColumn (t : Tile) (afmt img : Nat) (q : SeqIn) (f : ArrFault) : Option Nat :=
  (List.range 64).find? (fun col => !columnPasses t afmt img q f col)
/-- What a fault that no check sees adds to the sum of a chunk. -/
def faultAddend (t : Tile) (afmt img : Nat) (q : SeqIn) (f : ArrFault) (col k : Nat) : List FVal :=
  let at' := fun (c p : Nat) (d : Int) =>
    if c = col ∧ p / 64 = k then [scaled (weightScale t.wfmt t.sparse img col p) (scaled (actScale afmt q.as0.val q.as1.val p) (intVal d (fmtLsb t.wfmt + fmtLsb afmt)))] else []
  match f with
  | .prod c p d => at' c p d
  | .sum c h d =>
    if t.wfmt = 10 then
      (if c = col then (match leadExp (chunkProducts 10 afmt t.sparse img q col 0) with | some x => [intVal d (x - 38)] | none => []) else [])
    else at' c (32 * h) d
  | _ => []
/-- The running value of a column with a fault in its sums. -/
def columnWith (t : Tile) (afmt img : Nat) (q : SeqIn) (f : ArrFault) (init : Word) (col : Nat) : Word :=
  match f with
  | .none => columnResult t.wfmt afmt t.sparse img q init col
  | _ => (List.range (arrChunks t.wfmt t.sparse)).foldl (fun v k =>
      f32add v (chunkSum (decide (t.wfmt = 10)) (chunkProducts t.wfmt afmt t.sparse img q col k) (faultAddend t afmt img q f col k))) init
/-- The parity of an FP32 word. -/
def parity (w : Word) : Bool := (List.range 32).foldl (fun b i => xor b (bit w.toNat i)) false
/-- The lowest lane of an accumulator entry whose parity bit is wrong. -/
def parityBad (e : AccEntry) : Option Nat := (List.range 64).find? (fun i => parity (e.lanes.getD i 0) != e.par.getD i false)

/-- Lane `i` of a vector token, and a token of lanes. -/
def lane (tok i : Nat) : Word := BitVec.ofNat 32 (bits tok (32 * i) 32)
def ofLanes : List Word → Nat
  | [] => 0
  | w :: l => w.toNat + 2 ^ 32 * ofLanes l

/-! ### Captures (R121) -/

/-- A capture of the array: ERR_CAP2 and ERR_CAP3 hold ARR_PASSES. -/
def arrErr (s : State) (c code source detail int : Nat) : State :=
  raiseInt (errAt s (flowPage c) code source detail (rd64 s (flowPage c) 0xE00) (coreTag s c)) (flowPage c) int

/-! ### Tiles in -/

/-- A token of a tile image written into the shadow (R105). -/
def loadWToken (s : State) (c : Nat) : State :=
  let a := arr s c
  match headTok s c pW with
  | none => s
  | some t =>
    if a.shadow = 2 || (a.shadow == 1 && decide (a.shTile.img.length ≥ imageTokens a.shTile.wfmt a.shTile.sparse)) then s
    else
      let t0 := if a.shadow = 1 then a.shTile else { wfmt := arrWfmt s c, sparse := arrSparse s c }
      let s := popTok s c pW
      setArr s c { arr s c with shadow := 1, shTile := { t0 with img := t0.img ++ [t.val], poison := t0.poison || t.poison } }

/-- The shadow becomes FULL (R105); an invalid nibble is captured (R98). -/
def tileFull (s : State) (c : Nat) : State :=
  let a := arr s c
  let t := a.shTile
  if a.shadow = 1 ∧ t.img.length = imageTokens t.wfmt t.sparse then
    let bad := if t.sparse then badNibbleCol t.wfmt (imageNat t.img) else none
    let s := bump (setArr s c { a with shadow := 2, shTile := { t with badCol := bad, res := tileResidues t.wfmt (imageNat t.img) t.sparse } }) (flowPage c) 0xE38
    match bad with
    | some col => arrErr s c cRANGE 0x41 col 18
    | none => s
  else s

/-! ### Passes -/

/-- A control token from a unit whose value the spec does not state: a free bit (log entry 4). -/
def emitFreeCtl (s : State) (c port : Nat) (poison : Bool) : State :=
  let v := freeVal s % 2
  emitTok (freeUsed s) c port (mkTok s c v poison)

/-- A completed pass: it is counted, and its DONE token leaves (R92, R102). -/
def passDone (s : State) (c : Nat) (poison : Bool) : State :=
  emitFreeCtl (bump s (flowPage c) 0xE00) c pDONE poison

/-- A pass descriptor taken from PD starts a pass (R100, R102, R105, R106). INJECT is applied, and clears, as the pass it injects into starts
(R119; DESIGN CHOICE, log entry 111). -/
def passStart (s : State) (c : Nat) : State :=
  let a := arr s c
  match a.pass, headTok s c pPD with
  | none, some t =>
    let d := t.val
    let nseq := bits d 0 7
    let op := bits d 9 2
    if !credits s c pDONE 1 then stallCount s c [(pDONE, 1)]
    else if t.poison then
      let s := takeCredits (popTok s c pPD) c pDONE 1
      passDone (arrErr s c cPOISON 0x45 0 19) c true
    else if nseq > 64 ∨ op ≥ 2 ∨ bits d 12 20 ≠ 0 then
      let s := takeCredits (popTok s c pPD) c pDONE 1
      passDone (arrErr s c cRANGE 0x43 nseq 19) c false
    else if nseq = 0 then passDone (takeCredits (popTok s c pPD) c pDONE 1) c false
    else if bit d 7 && a.shadow != 2 then bump s (flowPage c) 0xE10
    else
      let s := takeCredits (popTok s c pPD) c pDONE 1
      let active := if bit d 7 then some a.shTile else a.active
      let inj := fb s (flowPage c) fARR_CTL_INJECT
      let s := if inj then fdSet s (flowPage c) fARR_CTL_INJECT 0 else s
      let p : Pass := { nseq := nseq, bank := bits d 8 1, start := op == 1, emit := bit d 11,
                        inject := if inj then some (fd s (flowPage c) fARR_CTL_INJ_COL) else none, noTile := active.isNone }
      let s := setArr s c { arr s c with active := active, shadow := (if bit d 7 then 0 else a.shadow), shTile := (if bit d 7 then {} else a.shTile), pass := some p, retrying := false }
      if active.isNone then arrErr s c cRANGE 0x44 0 19 else s
  | _, _ => s

/-- Which ports a sequence takes tokens from (R92, R93). -/
def seqPorts (s : State) (c : Nat) (p : Pass) : List Nat :=
  [pA] ++ (if fmtMx (arrAfmt s c) then [pAS0] else [])
    ++ (if fmtMx (arrAfmt s c) && arrWfmt s c == 1 && arrSparse s c then [pAS1] else [])
    ++ (if p.start && arrInit s c then [pIV] else [])

/-- A sequence enters the array, or a cycle of waiting is counted (R93, R138); a cycle that lacks both an operand and room on O counts for the
operand (DESIGN CHOICE, log entry 153). -/
def seqEntry (s : State) (c : Nat) : State :=
  let a := arr s c
  match a.pass with
  | none => s
  | some p =>
    if p.entered.length ≥ p.nseq then s
    else
      let ports := seqPorts s c p
      if ports.any (fun q => (headTok s c q).isNone) then bump s (flowPage c) 0xE18
      else if p.emit && !credits s c pO 1 then
        stallCount (bump s (flowPage c) 0xE20) c [(pO, 1)]
      else
        let get := fun q => if ports.contains q then (headTok s c q).getD {} else {}
        let q : SeqIn := ⟨get pA, get pAS0, get pAS1, get pIV⟩
        let s := ports.foldl (fun s q => popTok s c q) s
        let s := if p.emit then takeCredits s c pO 1 else s
        let s := setArr s c { arr s c with pass := some { p with entered := p.entered ++ [q] } }
        bumpBy s (flowPage c) 0xE08 (if arrWfmt s c = 10 then 4 else 1)

/-- The accumulator entry of a bank. -/
def accEntry (a : Arr) (bank i : Nat) : AccEntry := tget {} (if bank = 0 then a.bank0 else a.bank1) i
def setAcc (a : Arr) (bank i : Nat) (e : Option AccEntry) : Arr :=
  let f := fun (t : Tbl AccEntry) => match e with | some v => tput t i v | none => tdel t i
  if bank = 0 then { a with bank0 := f a.bank0 } else { a with bank1 := f a.bank1 }

/-- The checked result of the next sequence is committed or emitted (R98, R101, R103, R104, R112). A retry counts as passed when the
position that failed is committed (DESIGN CHOICE, log entry 110). Without an active tile the bits under the poison are those of an all-zero
tile (DESIGN CHOICE, log entry 153). -/
def seqCommit (s : State) (c : Nat) (p : Pass) (q : SeqIn) (f : ArrFault) : State :=
  let a := arr s c
  let i := p.done
  let e := accEntry a p.bank i
  let t := a.active.getD {}
  let img := imageNat t.img
  let invalid := !p.start && !e.valid
  let s := if invalid && !p.badEntry then arrErr s c cRANGE 0x42 (64 * i + 2 ^ 12 * p.bank) 19 else s
  let init := fun col => if p.start then (if arrInit s c then lane q.iv.val col else 0) else if e.valid then e.lanes.getD col 0 else 0
  let mx := fmtMx (arrAfmt s c)
  let poison := p.noTile || t.poison || t.badCol.isSome || q.act.poison || (mx && q.as0.poison)
    || (mx && arrWfmt s c == 1 && arrSparse s c && q.as1.poison) || (p.start && arrInit s c && q.iv.poison)
    || invalid || (!p.start && e.poison) || p.poisonFrom.isSome
  let res := (List.range 64).map (fun col => columnWith t (arrAfmt s c) img q f (init col) col)
  let p := { p with done := i + 1, badEntry := p.badEntry || invalid }
  let s := if p.emit then
      let s := setArr s c (setAcc (arr s c) p.bank i none)
      emitTok s c pO (mkTok s c (ofLanes res) poison)
    else setArr s c (setAcc (arr s c) p.bank i (some ⟨true, poison, res, res.map parity⟩))
  let s := if (arr s c).retrying && p.poisonFrom.isNone then bump (setArr s c { arr s c with retrying := false }) (flowPage c) 0xE30 else s
  if p.done ≥ p.nseq then passDone (setArr s c { arr s c with pass := none, retrying := false }) c false
  else setArr s c { arr s c with pass := some p }

/-- A mismatch at the next sequence: counted, reported and replayed, or, after the last permitted attempt, its results and
those after it complete poisoned (R113, R114). The replayed sequences do not add to ARR_BUSY (DESIGN CHOICE, log entry 112). -/
def seqMismatch (s : State) (c : Nat) (p : Pass) (q : SeqIn) (col : Nat) : State :=
  let d := col % 64 + 64 * p.done
  let s := raiseInt (bump s (flowPage c) 0xE28) (flowPage c) 16
  let s := reportCore s .flow c 0x46 cOK d
  if p.tries < arrRetry s c then setArr s c { arr s c with pass := some { p with tries := p.tries + 1 }, retrying := true }
  else seqCommit (reportCore (arrErr s c cPOISON 0x40 d 17) .flow c 0x40 cPOISON d) c { p with poisonFrom := some p.done } q .none

/-- An accumulator parity error poisons its entry at once, and is captured (R114). -/
def accParity (s : State) (c : Nat) (p : Pass) (col : Nat) : State :=
  let a := arr s c
  let e := accEntry a p.bank p.done
  let d := col % 64 + 64 * p.done
  let s := setArr s c (setAcc a p.bank p.done (some { e with poison := true }))
  reportCore (arrErr s c cPOISON 0x40 d 17) .flow c 0x40 cPOISON d

/-- A bit of a token of the active tile's image flips (R114). -/
def flipWeight (s : State) (c tok b : Nat) : State :=
  let a := arr s c
  let i := 2048 * tok + b % 2048
  setArr s c { a with active := a.active.map (fun t =>
    { t with img := lmod (fun x => Nat.xor x (2 ^ (b % 2048))) t.img tok, hits := if t.hits.contains i then t.hits.erase i else i :: t.hits }) }
/-- A bit of a lane of the entry the next sequence reads flips. -/
def flipAcc (s : State) (c : Nat) (p : Pass) (col b : Nat) : State :=
  let a := arr s c
  let e := accEntry a p.bank p.done
  if e.valid then setArr s c (setAcc a p.bank p.done (some { e with lanes := lmod (fun w => w ^^^ BitVec.ofNat 32 (2 ^ (b % 32))) e.lanes col })) else s
/-- The column in which the next result fails: that of an injected residue error, which is at position 0 of the first attempt and with
INJ_PERSIST of every retry, or the lowest whose checks fail (R111–R113, R119, R120). -/
def resultFails (s : State) (c : Nat) (p : Pass) (q : SeqIn) (f : ArrFault) : Option Nat :=
  let t := (arr s c).active.getD {}
  let inj := if p.done = 0 ∧ (p.tries = 0 ∨ fb s (flowPage c) fARR_CTL_INJ_PERSIST = true) then p.inject else none
  match inj, failingColumn t (arrAfmt s c) (imageNat t.img) q f with
  | some x, some y => some (min x y)
  | some x, none => some x
  | none, y => y

/-- The result of the next sequence, with the fault its formation meets (R112–R114). After the last permitted attempt what is left
completes poisoned without a further residue check (DESIGN CHOICE, log entry 152); an accumulator parity error is recorded there too. -/
def seqResult (s : State) (c : Nat) (f : ArrFault) : State :=
  match (arr s c).pass with
  | none => s
  | some p =>
    match p.entered[p.done]? with
    | none => s
    | some q =>
      let s := match f with | .weight tok b => flipWeight s c tok b | .acc col b => if p.start then s else flipAcc s c p col b | _ => s
      let last := p.poisonFrom.isSome
      match (if last then none else resultFails s c p q f) with
      | some col => seqMismatch s c p q col
      | none =>
        let f := if last then .none else f
        let e := accEntry (arr s c) p.bank p.done
        match (if p.start || !e.valid then none else parityBad e) with
        | some col => seqCommit (accParity s c p col) c p q f
        | none => seqCommit s c p q f

/-- ARR_STATUS as the array stands (R120). -/
def arrStatus (s : State) (c : Nat) : Nat :=
  let a := arr s c
  b2n a.active.isSome + 2 * a.shadow + 8 * b2n (a.bank0.any (fun e => e.2.valid)) + 16 * b2n (a.bank1.any (fun e => e.2.valid))
    + 32 * b2n a.pass.isSome + 64 * b2n a.retrying + 2 ^ 8 * a.shTile.img.length + 2 ^ 14 * (match a.pass with | some p => p.done | none => 0)

end Sys2Proof.Machine
end

