-- ==== Sys2Proof/Machine/Transc.lean ====
section
/-! DEFINITION. The transcendental operations of S4 (R164): the special cases the rule lists, and elsewhere a free value within the rule's
bound of the exact result, which is computed in fixed point with 192 fraction bits (log entry 6). -/
namespace Sys2Proof.Machine
open Sys2Proof

/-! ### Fixed point -/

def fxOne : Int := 2 ^ 192
def fxMul (a b : Int) : Int := a * b / fxOne
def fxLn2 : Int := 4350955369971217654477563090224794165364344896676135745070
def fxLog2e : Int := 9055943544797870567083544809312461607371518589544137143473
def fxHalfPi : Int := 9860048348863269281198066682114134445731725432595044866280
def fxTwoRsqrtPi : Int := 7082950827949419406546779429796514218173736946937360083502
/-- A finite value in fixed point, cut off below its last bit. -/
def fxOf : FVal → Int
  | .fin neg m e => let n : Int := ((if e ≥ -192 then m * 2 ^ (e + 192).toNat else m / 2 ^ (-192 - e).toNat) : Nat); if neg then -n else n
  | _ => 0
def fxVal (n : Int) : FVal := intVal n (-192)

/-- `n` terms of the series of `e^t`, `k` the number of the first, `term` its value. -/
def expTerms (t : Int) : Nat → Nat → Int → Int
  | 0, _, _ => 0
  | n + 1, k, term => term + expTerms t n (k + 1) (fxMul term t / (k + 1))
/-- `2^y`, and `e^x` for a magnitude cut at 256. -/
def exp2Val (y : Int) : FVal := .fin false (expTerms (fxMul (y % fxOne) fxLn2) 48 0 fxOne).toNat (y / fxOne - 192)
def expVal (x : Int) : FVal := exp2Val (fxMul (max (-256 * fxOne) (min (256 * fxOne) x)) fxLog2e)
/-- `n` terms of the series of the inverse hyperbolic tangent; `p` is the power of its argument. -/
def atanhTerms (z2 : Int) : Nat → Nat → Int → Int
  | 0, _, _ => 0
  | n + 1, k, p => p / (2 * k + 1) + atanhTerms z2 n (k + 1) (fxMul p z2)
/-- The natural logarithm of `m / 2^(log2 m)`. -/
def lnMant (m : Nat) : Int :=
  let one : Int := (2 ^ Nat.log2 m : Nat)
  let z := ((m : Int) - one) * fxOne / (m + one)
  2 * atanhTerms (fxMul z z) 64 0 z
/-- `n` terms of an alternating series of sine or cosine. -/
def trigTerms (r2 : Int) : Nat → Nat → Int → Int
  | 0, _, _ => 0
  | n + 1, k, term => term + trigTerms r2 n (k + 2) (-(fxMul term r2) / ((k + 1) * (k + 2)))
/-- The sine of `x` plus `q` right angles. -/
def sinFx (x : Int) (q : Int) : Int :=
  let k := x / fxHalfPi
  let r := x - k * fxHalfPi
  let r2 := fxMul r r
  match ((k + q) % 4).toNat with
  | 0 => trigTerms r2 30 1 r
  | 1 => trigTerms r2 30 0 fxOne
  | 2 => -trigTerms r2 30 1 r
  | _ => -trigTerms r2 30 0 fxOne
/-- `n` terms of the series of the error function without its leading factors. -/
def erfTerms (a2 : Int) : Nat → Nat → Int → Int
  | 0, _, _ => 0
  | n + 1, k, term => term + erfTerms a2 n (k + 1) (2 * fxMul term a2 / (2 * k + 3))
def signed (x n : Int) : Int := if x < 0 then -n else n
def erfFx (x : Int) : Int :=
  let a : Int := x.natAbs
  let a2 := fxMul a a
  signed x (if a ≥ 6 * fxOne then fxOne else fxMul (fxMul fxTwoRsqrtPi (fxOf (expVal (-a2)))) (erfTerms a2 220 0 a))
def tanhFx (x : Int) : Int :=
  let y := fxOf (expVal (2 * min (64 * fxOne) x.natAbs))
  signed x ((y - fxOne) * fxOne / (y + fxOne))
def sigmoidFx (x : Int) : Int :=
  let y := fxOf (expVal (min (128 * fxOne) x.natAbs))
  if x < 0 then fxOne * fxOne / (y + fxOne) else y * fxOne / (y + fxOne)

/-! ### Bounds -/

/-- The spacing of FP32 values at a value. -/
def ulpAt : FVal → FVal
  | .fin _ m e => .fin false 1 (if m = 0 then -149 else max (e + Nat.log2 m - 23) (-149))
  | _ => .fin false 1 (-149)
/-- `n` of them, and a power of two. -/
def ulps (n : Nat) (x : FVal) : FVal := (FVal.fin false n 0).mul (ulpAt x)
def pow2 (e : Int) : FVal := .fin false 1 e
/-- Whether an FP32 word is finite and within a bound of a value. -/
def closeTo (w : Word) (x b : FVal) : Bool :=
  match ofF32 w, (ofF32 w).add x.neg, b with
  | .fin _ _ _, .fin s m e, .fin t n f => let q := min e f; decide ((FVal.atExp (.fin s m e) q).natAbs ≤ (FVal.atExp (.fin t n f) q).natAbs)
  | _, _, _ => false
/-- The free result of an operation where it is within one of the bounds of the exact result, else the exact result rounded; an exact
result that rounds to infinity gives infinity. -/
def bounded (op : Nat) (a : Word) (x : FVal) (bs : List FVal) : Word :=
  let w := Config.transcendental op a
  let r := toF32 x
  if ofF32 r == .inf false || ofF32 r == .inf true then r
  else if bs.any (closeTo w x) then w else r

/-- The special cases of R164, and its bounds everywhere else. The logarithms, SQRT and EXP of +∞ are +∞, their exact value. -/
def transcend (op : Nat) (a : Word) : Word :=
  let v := ofF32 a
  let neg := bit a.toNat 31 && a.toNat % 2 ^ 31 != 0
  let zero := a.toNat % 2 ^ 31 == 0
  let inf := v == .inf false || v == .inf true
  let one := pow2 0
  let x := fxOf v
  let near : Bool := decide (0x3F400000 ≤ a.toNat) && decide (a.toNat ≤ 0x3FC00000)
  let logOf := fun (n : Nat) (f : Nat → Int → Int) =>
    if zero then 0xFF800000 else if neg then 0x7FC00000 else if inf then 0x7F800000
    else match v with
      | .fin _ m e => let y := fxVal (f m (e + Nat.log2 m)); bounded op a y (ulps n y :: (if near then [pow2 (-22)] else []))
      | _ => 0x7FC00000
  if v == .nan then 0x7FC00000
  else match op with
  | 0x30 => if zero || inf then a ^^^ 0x7F800000 else let y := one.div v; bounded op a y [ulps 1 y]
  | 0x31 => if zero then a ^^^ 0x7F800000 else if neg then 0x7FC00000 else if inf then 0 else let y := one.div v.sqrt; bounded op a y [ulps 1 y]
  | 0x32 => if zero then a else if neg then 0x7FC00000 else if inf then a else let y := v.sqrt; bounded op a y [ulps 1 y]
  | 0x33 =>
    if inf then (if neg then 0 else 0x7F800000)
    else if x < -150 * fxOne then 0 else if x ≥ 128 * fxOne then 0x7F800000 else let y := exp2Val x; bounded op a y [ulps 2 y]
  | 0x34 => if inf && !neg then 0x7F800000 else let y := if inf then .fin false 0 0 else expVal x; bounded op a y [ulps 3 y]
  | 0x35 => logOf 2 (fun m k => k * fxOne + fxMul (lnMant m) fxLog2e)
  | 0x36 => logOf 3 (fun m k => k * fxLn2 + lnMant m)
  | 0x37 => if inf then (if neg then 0xBF800000 else 0x3F800000) else let y := fxVal (tanhFx x); bounded op a y [ulps 4 y, pow2 (-26)]
  | 0x38 => if inf then (if neg then 0 else 0x3F800000) else let y := fxVal (sigmoidFx x); bounded op a y [ulps 4 y, pow2 (-26)]
  | 0x39 => if inf then (if neg then 0xBF800000 else 0x3F800000) else bounded op a (fxVal (erfFx x)) [pow2 (-22)]
  | _ =>
    if inf || decide (a.toNat % 2 ^ 31 > 0x47800000) then 0x7FC00000
    else let y := fxVal (sinFx x (if op = 0x3A then 0 else 1)); bounded op a y [ulps 2 y, pow2 (-22)]

end Sys2Proof.Machine
end

