-- ==== Sys2Proof/Machine/CuArith.lean ====
section
/-! DEFINITION. The operations of the compute units' stages on 64 lanes, with the special results they count (R160–R165, R77–R79). -/
namespace Sys2Proof.Machine
open Sys2Proof

def isNanF (w : Word) : Bool := ofF32 w == .nan
def isInfF (w : Word) : Bool := match ofF32 w with | .inf _ => true | _ => false
def isFinF (w : Word) : Bool := match ofF32 w with | .fin _ _ _ => true | _ => false
def cNaN32 : Word := 0x7FC00000

/-- The order of FP32 values: with −0 below +0, and with both zeros equal. -/
def fkey (w : Word) : Int := let m : Int := (w.toNat % 2 ^ 31 : Nat); if bit w.toNat 31 then -m - 1 else m
def fkey0 (w : Word) : Int := let m : Int := (w.toNat % 2 ^ 31 : Nat); if bit w.toNat 31 then -m else m

def f32max (a b : Word) : Word := if isNanF a || isNanF b then cNaN32 else if fkey a < fkey b then b else a
def f32min (a b : Word) : Word := if isNanF a || isNanF b then cNaN32 else if fkey b < fkey a then b else a
def f32abs (a : Word) : Word := if isNanF a then cNaN32 else a &&& 0x7FFFFFFF
def f32neg (a : Word) : Word := if isNanF a then cNaN32 else a ^^^ 0x80000000

/-- EXPO (R162). -/
def f32expo (a : Word) : Word :=
  match ofF32 a with
  | .fin _ m e => if m = 0 then 0x80000000 else BitVec.ofInt 32 (e + (Nat.log2 m : Int))
  | _ => 0x7FFFFFFF

/-- A result with the lane's counts: NaN made, overflow, saturation. -/
structure LaneRes where
  v : Word
  nan : Bool := false
  ovf : Bool := false
  sat : Bool := false
  deriving DecidableEq, Repr

/-- An FP32 result with its counts (R165). -/
def fpRes (ops : List Word) (v : Word) : LaneRes :=
  { v := v, nan := isNanF v && ops.all (fun o => !isNanF o), ovf := isInfF v && ops.all isFinF }
/-- An integer result, saturated when asked (R79). -/
def intRes (satd : Bool) (n : Int) : LaneRes :=
  if satd then
    if n > 2147483647 then { v := 0x7FFFFFFF, sat := true } else if n < -2147483648 then { v := 0x80000000, sat := true } else { v := BitVec.ofInt 32 n }
  else { v := BitVec.ofInt 32 n }
/-- FP32 to INT32 (R162). -/
def f2i (n : FVal → Int) (a : Word) : LaneRes :=
  match ofF32 a with
  | .nan => { v := 0 }
  | .inf neg => { v := if neg then 0x80000000 else 0x7FFFFFFF, sat := true }
  | x => intRes true (n x)

/-- Array format code of a WIDTH format code (R162). -/
def widthFmt (mx : Bool) (w : Nat) : Nat :=
  match w with
  | 0 => 10 | 1 => 4 | 2 => 5 | 3 => 2 | 4 => 3 | 5 => 1 | _ => if mx then 8 else 9
/-- Whether a conversion to an array format saturates (R77). -/
def fmtSat (fmt : Nat) (v : FVal) : Bool :=
  let fsat := fun (f : FFmt) => match v with
    | .nan => false
    | .inf _ => f.top != .ieee
    | .fin _ m e => decide (f.roundMag m e > f.maxCode)
  let isat := fun (k : Int) => match v with
    | .nan => false
    | .inf _ => true
    | .fin _ _ _ => let n := (v.scale k).rneInt; decide (n > 127) || decide (n < -127)
  match fmt with
  | 1 => fsat fE2M1 | 2 => fsat fE2M3 | 3 => fsat fE3M2 | 4 => fsat fE4M3 | 5 => fsat fE5M2 | 6 => fsat fE4M3 | 7 => fsat fE5M2
  | 8 => isat 6 | 9 => isat 0 | _ => fsat fBF16

/-- One lane of the operations that act lane by lane (R162). -/
def laneOp (op : Nat) (a b c : Word) : LaneRes :=
  match op with
  | 0x01 => { v := a }
  | 0x02 => fpRes [a, b] (f32add a b)
  | 0x03 => fpRes [a, b] (f32sub a b)
  | 0x04 => fpRes [a, b] (f32mul a b)
  | 0x05 => fpRes [a, b, c] (f32fma a b c)
  | 0x06 => fpRes [a, b] (f32max a b)
  | 0x07 => fpRes [a, b] (f32min a b)
  | 0x08 => { v := f32abs a }
  | 0x09 => { v := f32neg a }
  | 0x0A => { v := if isNanF a || isNanF b then 0 else if fkey0 a < fkey0 b then 1 else 0 }
  | 0x0B => { v := if isNanF a || isNanF b then 0 else if fkey0 a = fkey0 b then 1 else 0 }
  | 0x0C => { v := if c != 0 then a else b }
  | 0x0D => { v := f32expo a }
  | 0x10 => { v := a + b }
  | 0x11 => intRes true (a.toInt + b.toInt)
  | 0x12 => { v := a - b }
  | 0x13 => intRes true (a.toInt - b.toInt)
  | 0x14 => { v := a * b }
  | 0x15 => { v := if a.toInt < b.toInt then b else a }
  | 0x16 => { v := if b.toInt < a.toInt then b else a }
  | 0x17 => { v := a &&& b }
  | 0x18 => { v := a ||| b }
  | 0x19 => { v := a ^^^ b }
  | 0x1A => { v := a <<< (b.toNat % 32) }
  | 0x1B => { v := a >>> (b.toNat % 32) }
  | 0x1C => { v := a.sshiftRight (b.toNat % 32) }
  | 0x20 => f2i FVal.rneInt a
  | 0x21 => f2i FVal.truncInt a
  | 0x22 => { v := toF32 (intVal a.toInt 0) }
  | _ => fpRes [a] (transcend op a)

/-- One level of the reduction tree (R163). -/
def pairUp (f : Word → Word → Word) : List Word → List Word
  | a :: b :: l => f a b :: pairUp f l
  | l => l
def treeUp (f : Word → Word → Word) : Nat → List Word → List Word
  | 0, l => l
  | n + 1, l => treeUp f n (pairUp f l)

/-- The segment of `w` lanes that lane `j` of a reduction covers. -/
def segment (l : List Word) (w j : Nat) : List Word := (l.drop (j * w)).take w

/-- Bytes of packed codes, little-endian, as 64 lanes. -/
def packCodes (w : Nat) : List Nat → Nat
  | [] => 0
  | c :: l => c + 2 ^ w * packCodes w l
def lanesOf (n : Nat) : List Word := (List.range 64).map (fun i => BitVec.ofNat 32 (bits n (32 * i) 32))
def natOfLanes : List Word → Nat
  | [] => 0
  | w :: l => w.toNat + 2 ^ 32 * natOfLanes l

/-- The result of an operation on 64 lanes: its lanes, and how many NaN, overflow and saturated results it counts. -/
structure StageRes where
  v : List Word
  nan : Nat := 0
  ovf : Nat := 0
  sat : Nat := 0
  deriving DecidableEq, Repr

def ofLaneRes (l : List LaneRes) : StageRes :=
  { v := l.map (·.v), nan := countp (·.nan) l, ovf := countp (·.ovf) l, sat := countp (·.sat) l }

/-- The operation of a stage (R162, R163). -/
def stageOp (op width : Nat) (a b c : List Word) : StageRes :=
  if op = 0x23 ∨ op = 0x24 then
    let f := widthFmt false width
    let n := natOfLanes a
    let first := if op = 0x24 then 64 else 0
    { v := (List.range 64).map (fun i => toF32 (fmtDec f (bits n (fmtWidth f * (first + i)) (fmtWidth f)))) }
  else if 0x40 ≤ op ∧ op ≤ 0x43 then
    let w := 2 ^ width
    let f := if op = 0x40 then f32add else if op = 0x43 then f32min else f32max
    let a := if op = 0x42 then a.map f32abs else a
    let r := treeUp f width a
    let res := (List.range 64).map (fun j => if j < 64 / w then fpRes (segment a w j) (r.getD j 0) else { v := 0 })
    ofLaneRes res
  else if op = 0x50 then
    let f := widthFmt false width
    let xs := a.map ofF32
    let lo := packCodes (fmtWidth f) (xs.map (fmtConv f))
    let sats := countp (fmtSat f) xs
    if width = 0 then
      let ys := b.map ofF32
      { v := lanesOf (lo + 2 ^ 1024 * packCodes 16 (ys.map (fmtConv f))), sat := sats + countp (fmtSat f) ys }
    else { v := lanesOf lo, sat := sats }
  else if op = 0x51 then
    let f := widthFmt true width
    let sc := fun (h : Nat) => (mxQuant f (((a.drop (32 * h)).take 32).map ofF32)).1
    { v := (List.range 64).map (fun i => BitVec.ofNat 32 (sc (i / 32))) }
  else if op = 0x52 then
    let f := widthFmt true width
    let b0 := (b.headD 0).toNat
    let code := fun (i : Nat) => if i < 32 then b0 % 256 else b0 / 256 % 256
    let q := (List.range 64).map (fun i =>
      let v := ofF32 (a.getD i 0)
      if code i = 255 then (0, false) else
      let x := v.scale (127 - (code i : Int))
      (fmtConv f x, fmtSat f x))
    { v := lanesOf (packCodes (fmtWidth f) (q.map (·.1))), sat := countp (·.2) q }
  else ofLaneRes ((List.range 64).map (fun i => laneOp op (a.getD i 0) (b.getD i 0) (c.getD i 0)))

/-- How many of SRCA, SRCB, SRCC an operation reads. -/
def opArity (op width : Nat) : Nat :=
  if op = 0x05 ∨ op = 0x0C then 3
  else if op = 0x02 ∨ op = 0x03 ∨ op = 0x04 ∨ op = 0x06 ∨ op = 0x07 ∨ op = 0x0A ∨ op = 0x0B then 2
  else if (0x10 ≤ op ∧ op ≤ 0x1C) ∨ op = 0x52 then 2
  else if op = 0x50 then (if width = 0 then 2 else 1)
  else 1

/-- Whether an operation stands in the list of a stage 1–5, with its WIDTH (R162, R163). A WIDTH that names no format or no reduction
width is refused with the section (DESIGN CHOICE, log entry 114). -/
def opAllowed (stage op width : Nat) : Bool :=
  let s13 := stage == 1 || stage == 3
  if op = 0 then true
  else if (0x01 ≤ op ∧ op ≤ 0x03) ∨ (0x06 ≤ op ∧ op ≤ 0x0C) then s13
  else if op = 0x04 ∨ op = 0x05 ∨ op = 0x14 then stage == 2
  else if op = 0x0D then stage == 1
  else if (0x10 ≤ op ∧ op ≤ 0x13) ∨ (0x15 ≤ op ∧ op ≤ 0x1C) ∨ (0x20 ≤ op ∧ op ≤ 0x22) then s13
  else if op = 0x23 ∨ op = 0x24 then stage == 1 && decide (width ≤ 6)
  else if 0x30 ≤ op ∧ op ≤ 0x3B then stage == 4
  else if 0x40 ≤ op ∧ op ≤ 0x43 then stage == 4 && decide (1 ≤ width) && decide (width ≤ 6)
  else if op = 0x50 then stage == 5 && decide (width ≤ 6)
  else if op = 0x51 ∨ op = 0x52 then stage == 5 && decide (1 ≤ width) && decide (width ≤ 6)
  else false

end Sys2Proof.Machine
end

