-- ==== Sys2Proof/Machine/CuOps.lean ====
section
/-! DEFINITION. Compute units, update engines, memory units and spill queues as fabric units (R139–R141, R160–R178). -/
namespace Sys2Proof.Machine
open Sys2Proof

def cPage (c : Nat) : PageId := corePage .core c
/-- A capture of the CORE page (R190). -/
def coreErr (s : State) (c code source detail addr : Nat) (int : Option Nat) : State :=
  let s := errAt s (cPage c) code source detail addr (coreTag s c)
  match int with
  | some b => raiseInt s (cPage c) b
  | none => s

/-! ### The section of a compute unit (R170) -/

/-- Word `i` of CUn's section in a buffer. -/
def cuWord (s : State) (c b n i : Nat) : Nat := bufWord s c b (272 + 64 * n + i)
def cu (s : State) (c n : Nat) : Cu := tget {} (core s c).cus n
def setCu (s : State) (c n : Nat) (u : Cu) : State := let k := core s c; setCore s c { k with cus := tput k.cus n u }

/-- A stage: opcode, sources, width. -/
structure StageCfg where
  op : Nat
  srcs : List Nat
  width : Nat
  deriving DecidableEq, Repr

def stageCfg (s : State) (c b n st : Nat) : StageCfg :=
  let w := cuWord s c b n st
  ⟨bits w 0 8, [bits w 8 3, bits w 11 3, bits w 14 3], bits w 17 3⟩
/-- The sources a stage reads. -/
def StageCfg.reads (g : StageCfg) : List Nat := if g.op = 0 then [] else g.srcs.take (opArity g.op g.width)

/-- The section rules of R170 and R162. -/
def cuValid (s : State) (c b n : Nat) : Bool :=
  let w0 := cuWord s c b n 0
  let consume := bits w0 2 6
  let produce := bits w0 8 4
  let st := (List.range 5).map (fun i => stageCfg s c b n (i + 1))
  let inUse := fun (i : Nat) => decide (1 ≤ i) && decide (i ≤ 5) && (st.getD (i - 1) ⟨0, [], 0⟩).op != 0
  let sel := cuWord s c b n 8
  (List.range 48).all (fun i => cuWord s c b n (16 + i) == 0) &&
  (!bit w0 0 ||
    (if bit w0 1 then
      consume == 7 && produce == 3 && ((st.take 4).all (fun g => g.op == 0)) && (st.getD 4 ⟨0, [], 0⟩).op == 0x60 &&
        bits (cuWord s c b n 13) 0 16 != 0
    else
      (List.range 5).all (fun i =>
        let g := st.getD i ⟨0, [], 0⟩
        opAllowed (i + 1) g.op g.width &&
        g.reads.all (fun r => (if r = 5 then (List.range i).any (fun j => inUse (j + 1)) else if r ≤ 4 then bit consume r else true))) &&
      (List.range 4).all (fun i => !bit produce i || inUse (bits sel (3 * i) 3)) &&
      (List.range 5).all (fun i => !bit consume i || st.any (fun g => g.reads.contains i))))

/-! ### Firing (R161, R166) -/

/-- A stage's operand or result: its lanes and whether it depends on a poisoned token (R131). -/
structure Vec where
  v : List Word := []
  poison : Bool := false
  deriving DecidableEq, Repr

/-- What the stages compute from their sources: VA, VB, VC, SA, SB in order, then the constants. -/
structure StageAcc where
  last : Vec := {}
  results : List (Nat × Vec) := []
  nan : Nat := 0
  ovf : Nat := 0
  sat : Nat := 0
  deriving DecidableEq, Repr

def splat (w : Word) : List Word := List.replicate 64 w
/-- The stages in order; stage numbers rise from `i`. -/
def runStages (ins : List Vec) (k0 k1 : Word) (i : Nat) (acc : StageAcc) : List StageCfg → StageAcc
  | [] => acc
  | g :: l =>
    if g.op = 0 then runStages ins k0 k1 (i + 1) acc l
    else
      let src := fun (r : Nat) => if r = 5 then acc.last else if r = 6 then ⟨splat k0, false⟩ else if r = 7 then ⟨splat k1, false⟩ else ins.getD r {}
      let ops := g.reads.map src
      let v := fun (j : Nat) => (ops.getD j {}).v
      let r := stageOp g.op g.width (v 0) (v 1) (v 2)
      let x : Vec := ⟨r.v, ops.any (·.poison)⟩
      runStages ins k0 k1 (i + 1) { last := x, results := acc.results ++ [(i, x)], nan := acc.nan + r.nan, ovf := acc.ovf + r.ovf, sat := acc.sat + r.sat } l

def cuPort (n i : Nat) : Nat := portId (uCU n) i

/-- The token of a vector port, scalar port as a vector of 64 lanes. -/
def vecOfTok (i : Nat) (t : Tok) : Vec := if i < 3 then ⟨lanesOf t.val, t.poison⟩ else ⟨splat (BitVec.ofNat 32 t.val), t.poison⟩

/-- The latency of a compute unit from firing to emission, which is also how many firings its pipeline holds (R160, R161). -/
def cuLatency (s : State) (c n : Nat) : Nat :=
  let b := activeBuf s c
  let used := fun (i : Nat) => (stageCfg s c b n i).op != 0
  2 + (if used 1 then 2 else 0) + (if used 2 then 4 else 0) + (if used 3 then 2 else 0) + (if used 4 then 8 else 0)
    + (if used 5 then (if bit (cuWord s c b n 0) 1 then 24 else 2) else 0)
/-- A firing of a compute unit: the tokens it takes from each input and the tokens it sends to each output (R130, R167, R170). -/
def cuIns (s : State) (c n : Nat) : List (Nat × Nat) :=
  let b := activeBuf s c
  let w0 := cuWord s c b n 0
  if bit w0 1 then [(0, 1), (1, 2), (2, if bits (cuWord s c b n 9) 0 2 = 3 then 2 else 1)]
  else ((List.range 6).filter (fun i => bit w0 (2 + i))).map (fun i => (i, 1))
def cuOuts (s : State) (c n : Nat) : List (Nat × Nat) :=
  let b := activeBuf s c
  let w0 := cuWord s c b n 0
  if bit w0 1 then [(0, 2), (1, if bits (cuWord s c b n 9) 0 2 = 0 then 1 else 2)]
  else ((List.range 4).filter (fun i => bit w0 (8 + i))).map (fun i => (i, 1))
/-- The inputs that lack a token and the outputs that lack a credit. -/
def cuDry (s : State) (c n : Nat) : List Nat := ((cuIns s c n).filter (fun i => decide ((portQueue s c (cuPort n i.1)).length < i.2))).map (·.1)
def cuFull (s : State) (c n : Nat) : List Nat := ((cuOuts s c n).filter (fun o => !credits s c (cuPort n o.1) o.2)).map (·.1)
/-- A unit that is in use and has room in its pipeline. -/
def cuReady (s : State) (c n : Nat) : Bool := bit (cuWord s c (activeBuf s c) n 0) 0 && decide ((cu s c n).pipe.length < cuLatency s c n)
/-- A unit that could fire. -/
def cuCan (s : State) (c n : Nat) : Bool := cuReady s c n && (cuDry s c n).isEmpty && (cuFull s c n).isEmpty
/-- A unit that meets every condition of R130 but credit. -/
def cuStall (s : State) (c n : Nat) : State := stallCount s c ((cuOuts s c n).map (fun o => (cuPort n o.1, o.2)))

/-- A compute unit fires where its inputs and its outputs' credits are present (R130, R161). -/
def cuFire (s : State) (c n : Nat) : State :=
  let b := activeBuf s c
  let w0 := cuWord s c b n 0
  let ins := (cuIns s c n).map (·.1)
  let outs := (cuOuts s c n).map (·.1)
  if !cuReady s c n || bit w0 1 || !(cuDry s c n).isEmpty then s
  else if !(cuFull s c n).isEmpty then cuStall s c n
  else
    let vec := (List.range 5).map (fun i => if bit w0 (2 + i) then vecOfTok i ((headTok s c (cuPort n i)).getD {}) else {})
    let st := (List.range 5).map (fun i => stageCfg s c b n (i + 1))
    let r := runStages vec (BitVec.ofNat 32 (cuWord s c b n 6)) (BitVec.ofNat 32 (cuWord s c b n 7)) 1 {} st
    let sel := cuWord s c b n 8
    let res := fun (i : Nat) => ((r.results.find? (fun e => e.1 == bits sel (3 * i) 3)).map (·.2)).getD {}
    let out := fun (i : Nat) =>
      let x := res i
      let v := if i < 2 then natOfLanes x.v else if i = 2 then (x.v.headD 0).toNat else b2n (x.v.headD 0 != 0)
      mkTok s c v x.poison
    let f : Firing := { outs := outs.map (fun i => (i, [out i])), nan := r.nan, ovf := r.ovf, sat := r.sat }
    let s := ins.foldl (fun s i => popTok s c (cuPort n i)) s
    let s := outs.foldl (fun s i => takeCredits s c (cuPort n i) 1) s
    let u := cu s c n
    setCu s c n { u with pipe := u.pipe ++ [f] }

/-- The outputs of the oldest firing leave, its checks having passed or been exhausted; its special results are counted
(R165, R166). -/
def cuEmit (s : State) (c n : Nat) (f : Firing) (poison : Bool) : State :=
  let u := cu s c n
  let s := setCu s c n { u with pipe := u.pipe.tail }
  let s := f.outs.foldl (fun s o => emitToks s c (cuPort n o.1) (o.2.map (fun t => { t with poison := t.poison || poison }))) s
  bumpBy (bumpBy (bumpBy s (cPage c) 0xC20 f.nan) (cPage c) 0xC28 f.ovf) (cPage c) 0xC30 f.sat

/-- The checks of the oldest firing: passed, or failed at a stage and a lane (R166). -/
def cuCheck (s : State) (c n stage : Nat) (chk : Check) : State :=
  let u := cu s c n
  match u.pipe with
  | [] => s
  | f :: rest =>
    match chk with
    | .ok =>
      let s := cuEmit s c n f false
      if f.retried then bump s (cPage c) 0xC40 else s
    | .mismatch l | .parity l =>
      let d := n % 8 + 8 * (stage % 8) + 64 * (l % 64)
      let s := reportCore (raiseInt (bump s (cPage c) 0xC38) (cPage c) 10) .core c 0x67 cOK d
      if f.tries < fd s (cPage c) fCORE_CU_CTL_RETRY then
        setCu s c n { u with pipe := { f with tries := f.tries + 1, retried := true } :: rest }
      else cuEmit (reportCore (coreErr s c cPOISON 0x61 d 0 (some 11)) .core c 0x61 cPOISON d) c n f true

/-! ### Update engines (R167–R169) -/

/-- What comes of asking for a range: granted or not needed, not yet, or refused. -/
inductive Take where
  | go
  | wait
  | refused
  deriving DecidableEq, Repr

/-- Ask for a range unless the owner holds it already, and try to have it granted in the same cycle (R199). -/
def rangeTake (s : State) (c : Nat) (r : Range) : State × Take :=
  let settle := fun (s : State) =>
    match (core s c).sp.ranges.findIdx? (fun q => q.owner == r.owner && q.id == r.id) with
    | none => (s, Take.go)
    | some i =>
      let s := rangeGrant s c i
      (s, if rangeWaiting (core s c) r.owner r.id then Take.wait else Take.go)
  if rangeHeld (core s c) r.owner r.id then settle s
  else
    match rangeAsk s c r with
    | (s, .taken) => settle s
    | (s, .free) => (s, .go)
    | (s, .quota) => (s, .wait)
    | (s, .refused) => (s, .refused)

/-- The update engine has the constants of the current milestone, or has read them now (R169). -/
def updConsts (s : State) (c n : Nat) : State × Bool :=
  let u := cu s c n
  let mile := fd s (cPage c) fCORE_STEP_MILE_MILE
  let addr := bits (cuWord s c (activeBuf s c) n 15) 0 20
  let fresh := match u.consts with | some (_, _, m) => m == mile | none => false
  if fresh then (s, true)
  else
    let store := fun (s : State) (l : List Word) (p : Bool) =>
      let s := setCu s c n { cu s c n with consts := some (l, p, mile) }
      if p then coreErr s c cPOISON 0x66 n 0 (some 11) else s
    match rangeTake s c { start := addr, len := 8, write := false, owner := 4 + n } with
    | (s, .refused) => (store s [] true, true)
    | (s, .wait) => (s, false)
    | (s, .go) =>
      match spadReadAll s c (4 + n) addr 8 with
      | (s, .wait, _) => (s, false)
      | (s, .refused _, _) => (store (rangeRelease s c (4 + n) 0) [] true, true)
      | (s, .word _ _, l) =>
        let ws := (List.range 10).map (fun i => BitVec.ofNat 32 (bits ((l.getD (i / 2) (0, false)).1.toNat) (32 * (i % 2)) 32))
        (store (rangeRelease s c (4 + n) 0) ws (l.any (·.2)), true)

/-- CORE_STEP_MILE takes a value. A change makes the update engines read their constants again (R169). -/
def setMile (s : State) (c v : Nat) : State :=
  let old := fd s (cPage c) fCORE_STEP_MILE_MILE
  let s := fdSet s (cPage c) fCORE_STEP_MILE_MILE (v % 2 ^ 32)
  if v % 2 ^ 32 = old then s
  else let k := core s c; setCore s c { k with cus := tmap (fun _ (u : Cu) => { u with consts := none }) k.cus }

/-- The constants in the order of R169. -/
def adamOf (l : List Word) : AdamW :=
  let g := fun (i : Nat) => l.getD i 0
  { b1 := g 0, b2 := g 1, c1 := g 2, c2 := g 3, k1 := g 4, k2 := g 5, lr := g 6, wd := g 7, eps := g 8, gscale := g 9 }

/-- The element index of lane `i` of group `g` (R168). -/
def elemIndex (s : State) (c n g i : Nat) : DWord :=
  let w := fun (j : Nat) => cuWord s c (activeBuf s c) n j
  let gpr := max 1 (bits (w 13) 0 16)
  BitVec.ofNat 64 (w 11 + 2 ^ 32 * bits (w 12) 0 8 + (g / gpr) * w 14 + (g % gpr) * 64 + i)

/-- An update engine fires on one group (R167). A lane counts once among its special results, whichever of its results is one (R165; DEDUCED,
log entry 119). -/
def updFire (s : State) (c n : Nat) : State :=
  let b := activeBuf s c
  let w0 := cuWord s c b n 0
  let umode := bits (cuWord s c b n 9) 0 2
  let nVC := if umode = 3 then 2 else 1
  let nVY := if umode = 0 then 1 else 2
  if !cuReady s c n || !bit w0 1 || !(cuDry s c n).isEmpty then s
  else if !(cuFull s c n).isEmpty then cuStall s c n
  else
    match updConsts s c n with
    | (s, false) => s
    | (s, true) =>
      let u := cu s c n
      let (cs, cp, _) := u.consts.getD ([], true, 0)
      let k := adamOf cs
      let q := fun (i : Nat) => portQueue s c (cuPort n i)
      let t := fun (i j : Nat) => (q i).getD j {}
      let poison := cp || (t 0 0).poison || (t 1 0).poison || (t 1 1).poison || (t 2 0).poison || (umode == 3 && (t 2 1).poison)
      let step := BitVec.ofNat 32 (fd s (cPage c) fCORE_STEP_MILE_MILE)
      let seed := BitVec.ofNat 64 (rd64 s (cPage c) 0x58)
      let tensor := BitVec.ofNat 32 (cuWord s c b n 10)
      let res := (List.range 64).map (fun i => adamw k (lane (t 0 0).val i) (lane (t 1 0).val i) (lane (t 1 1).val i) (lane (t 2 0).val i))
      let pOf := fun (i : Nat) => (res.getD i (0, 0, 0)).2.2
      let rOf := fun (i : Nat) => bits (t 2 1).val (1024 + 16 * i) 16
      let rnd := fun (i : Nat) => (srBits seed step tensor (elemIndex s c n u.groups i)).toNat
      let work := (List.range 64).map (fun i =>
        if umode = 1 then (bf16Of (pOf i), 0)
        else if umode = 2 then (srBf16 (pOf i) (rnd i), 0)
        else feedback (pOf i) (rOf i))
      let sat := fun (i : Nat) =>
        if umode = 0 then false
        else if umode = 1 then fmtSat 10 (ofF32 (pOf i))
        else if umode = 2 then isFinF (pOf i) && decide ((pOf i).toNat % 2 ^ 31 + rnd i ≥ 0x7F800000)
        else fmtSat 10 (ofF32 (f32add (pOf i) (widenBf16 (rOf i))))
      let m := mkTok s c (natOfLanes (res.map (·.1))) poison
      let v := mkTok s c (natOfLanes (res.map (·.2.1))) poison
      let p := mkTok s c (natOfLanes (res.map (·.2.2))) poison
      let w := mkTok s c (packCodes 16 (work.map (·.1)) + 2 ^ 1024 * packCodes 16 (work.map (·.2))) poison
      let ops := fun (i : Nat) => [lane (t 0 0).val i, lane (t 1 0).val i, lane (t 1 1).val i, lane (t 2 0).val i] ++ cs.take 10 ++ (if umode = 3 then [widenBf16 (rOf i)] else [])
      let made := fun (i : Nat) =>
        let r := res.getD i (0, 0, 0)
        [r.1, r.2.1, r.2.2] ++ (if umode = 0 then [] else [widenBf16 (work.getD i (0, 0)).1])
      let special := fun (f : LaneRes → Bool) => countp (fun i => (made i).any (fun x => f (fpRes (ops i) x))) (List.range 64)
      let f : Firing := { outs := [(0, [m, v]), (1, if umode = 0 then [p] else [p, w])], nan := special (·.nan), ovf := special (·.ovf), sat := countp sat (List.range 64) }
      let s := popToks (popTok (popToks s c (cuPort n 1) 2) c (cuPort n 0)) c (cuPort n 2) nVC
      let s := takeCredits (takeCredits s c (cuPort n 0) 2) c (cuPort n 1) nVY
      setCu s c n { cu s c n with pipe := u.pipe ++ [f], groups := u.groups + 1 }

/-! ### The section of a memory unit (R178) -/

def muWord (s : State) (c b m i : Nat) : Nat := bufWord s c b (656 + 32 * m + i)
def mu (s : State) (c m : Nat) : Mu := tget {} (core s c).mus m
def setMu (s : State) (c m : Nat) (u : Mu) : State := let k := core s c; setCore s c { k with mus := tput k.mus m u }
def muPort (m i : Nat) : Nat := portId (uMU m) i
def muMode (s : State) (c b m : Nat) : Nat := bits (muWord s c b m 0) 0 3
def muForm (s : State) (c b m : Nat) : Nat := bits (muWord s c b m 0) 3 2
def muTrig (s : State) (c b m : Nat) : Nat := bits (muWord s c b m 0) 5 2
def muBase (s : State) (c b m : Nat) : Nat := bits (muWord s c b m 1) 0 21
def muCount (s : State) (c b m l : Nat) : Nat := bits (muWord s c b m (2 + l)) 0 16
def muStride (s : State) (c b m l : Nat) : Int := sgn 32 (muWord s c b m (7 + l))
def muEstride (s : State) (c b m : Nat) : Int := sgn 32 (muWord s c b m 12)
def muGstride (s : State) (c b m : Nat) : Int := sgn 32 (muWord s c b m 13)
def muGlen (s : State) (c b m : Nat) : Nat := bits (muWord s c b m 14) 0 22
def muLoge (s : State) (c b m : Nat) : Nat := bits (muWord s c b m 15) 0 5
def muRing (s : State) (c b m : Nat) : Nat := bits (muWord s c b m 16) 0 20
/-- Words of a spill ring (R140): one for a scalar entry, 32 for a vector entry. -/
def spillScalar (s : State) (c b m : Nat) : Bool := muForm s c b m == 2
def spillWidth (s : State) (c b m : Nat) : Nat := if spillScalar s c b m then 1 else 32
def spillWords (s : State) (c b m : Nat) : Nat := 2 ^ muLoge s c b m * spillWidth s c b m

/-- Whether CI of a memory unit is the DST of an enabled link in a buffer. -/
def bufLinked (s : State) (c b port : Nat) : Bool :=
  (List.range 128).any (fun n => let l := linkCfg s c b n; l.en && l.dst == port)

/-- The section rules of R140, R174 and R178. -/
def muValid (s : State) (c b m : Nat) : Bool :=
  let mode := muMode s c b m
  (List.range 15).all (fun i => muWord s c b m (17 + i) == 0) &&
  decide (mode ≤ 5) && decide (muForm s c b m ≤ 2) && decide (muTrig s c b m ≤ 2) &&
  (List.range 5).all (fun l => decide ((muStride s c b m l).natAbs ≤ 2097151)) &&
  (mode == 0 || (
    (if mode = 3 ∨ mode = 4 then decide (1 ≤ muGlen s c b m) && decide (muGlen s c b m ≤ 2097152) else true) &&
    (if mode ≥ 3 then !bufLinked s c b (muPort m 3) else true) &&
    (if mode = 5 then
      decide (4 ≤ muLoge s c b m) && decide (muLoge s c b m ≤ 16) && decide (spillWords s c b m ≤ 524288) &&
      decide (muRing s c b m % spillWords s c b m = 0) && decide (muRing s c b m + spillWords s c b m ≤ 1048576) &&
      (List.range ((spillWords s c b m + 8191) / 8192)).all (fun i => !regionF s c (muRing s c b m / 8192 + i) fSPAD_REGION_CLASS)
    else true)))

/-- The ring range a spill queue holds while its configuration is active (R140, R197). -/
def spillRange (s : State) (c m : Nat) : Range :=
  { start := muRing s c (activeBuf s c) m, len := spillWords s c (activeBuf s c) m, write := true, owner := m }

/-! ### Walks (R171–R177) -/

/-- The accesses of a walk. -/
def muTotal (s : State) (c m : Nat) : Nat := (List.range 5).foldl (fun t l => t * muCount s c (activeBuf s c) m l) 1
/-- The offset of the n-th access, i0 varying fastest (R172). -/
def muOffset (s : State) (c m n : Nat) : Int :=
  ((List.range 5).foldl (fun (a : Int × Nat) l =>
    let k := max 1 (muCount s c (activeBuf s c) m l)
    (a.1 + (a.2 % k : Nat) * muStride s c (activeBuf s c) m l, a.2 / k)) (0, n)).1
/-- The word addresses of one access at an address in the form's units (R173). -/
def muWords (s : State) (c m : Nat) (a : Int) : List Int :=
  match muForm s c (activeBuf s c) m with
  | 0 => (List.range 32).map (fun (i : Nat) => a + i)
  | 1 => (List.range 32).map (fun (i : Nat) => a + i * muEstride s c (activeBuf s c) m)
  | _ => [a / 2]
/-- The lowest and highest word of a walk from a base (R175). -/
def muSpan (s : State) (c m : Nat) (base : Int) : Int × Int :=
  let ext := fun (k : Nat) (d : Int) => (min 0 (((k : Int) - 1) * d), max 0 (((k : Int) - 1) * d))
  let lv := (List.range 5).map (fun l => ext (muCount s c (activeBuf s c) m l) (muStride s c (activeBuf s c) m l))
  let lo := base + lv.foldl (fun t e => t + e.1) 0
  let hi := base + lv.foldl (fun t e => t + e.2) 0
  match muForm s c (activeBuf s c) m with
  | 0 => (lo, hi + 31)
  | 1 => let e := ext 32 (muEstride s c (activeBuf s c) m); (lo + e.1, hi + e.2)
  | _ => (lo / 2, hi / 2)
/-- GATHER and SCATTER declare GLEN units from BASE (R175). -/
def muDeclared (s : State) (c m : Nat) : Nat × Nat :=
  let base := muBase s c (activeBuf s c) m
  let last := base + muGlen s c (activeBuf s c) m - 1
  if muForm s c (activeBuf s c) m = 2 then (base / 2, last / 2) else (base, last)
def muReads (s : State) (c m : Nat) : Bool := let x := muMode s c (activeBuf s c) m; x == 1 || x == 3
def muScalar (s : State) (c m : Nat) : Bool := muForm s c (activeBuf s c) m == 2
/-- The fabric port a unit's data leaves or enters by: VR or SR, VW or SW (R123). -/
def muOut (s : State) (c m : Nat) : Nat := muPort m (if muScalar s c m then 1 else 0)
def muIn (s : State) (c m : Nat) : Nat := muPort m (if muScalar s c m then 2 else 0)

/-- The range of a walk (R175). A walk that would start below word 0 asks from word 0. A walk of no access, and a declared range of no unit, take
an empty range at their start address (R57, R200). -/
def muRange (s : State) (c m : Nat) (base : Int) : Range :=
  let g := muMode s c (activeBuf s c) m
  let decl := g = 3 ∨ g = 4
  let at_ := fun (a : Int) => if muScalar s c m then a / 2 else a
  if muTotal s c m = 0 ∨ (decl ∧ muGlen s c (activeBuf s c) m = 0) then
    { start := (at_ (if decl then (muBase s c (activeBuf s c) m : Int) else base)).toNat, len := 0, write := !muReads s c m, owner := m }
  else
  let (lo, hi) := if g = 3 ∨ g = 4 then (((muDeclared s c m).1 : Int), ((muDeclared s c m).2 : Int)) else muSpan s c m base
  { start := lo.toNat, len := (hi + 1).toNat - lo.toNat, write := !muReads s c m, owner := m }

/-- Whether a walk waits for its range; one that takes none, or whose range was refused, waits for nothing (R175, R201). -/
def muWaits (s : State) (c m : Nat) : Bool := rangeWaiting (core s c) m 0

/-- The end of a walk: its range is released, and CX, if linked, sends 1 (R174). -/
def muWalkEnd (s : State) (c m : Nat) : State :=
  let s := rangeRelease s c m 0
  let s := setMu s c m { mu s c m with walk := none }
  emitTok (takeCredits s c (muPort m 2) 1) c (muPort m 2) (mkTok s c 1 false)

/-- A walk begins with an index: 0 for READ and WRITE (R172, R174, R175). A walk of no access takes an empty range at its start, and ends at
once unless that has to wait (R57, R200). -/
def muBegin (s : State) (c m : Nat) (idx : Int) (poison : Bool) : State :=
  let total := muTotal s c m
  let base : Int := muBase s c (activeBuf s c) m + idx * muGstride s c (activeBuf s c) m
  let r := muRange s c m base
  let s := if poison then coreErr s c cPOISON 0x63 m 0 (some 12) else s
  let (s, t) := rangeTake s c r
  let s := setMu s c m { mu s c m with walk := some { total := total, base := base, dead := poison, refused := t == .refused } }
  if total = 0 && !muWaits s c m then muWalkEnd s c m else s

/-- What starts a walk is there: a token at CI or SAD, or the trigger of TRIG 1 and 2 (R171, R174). -/
def muTrigger (s : State) (c m : Nat) : Bool :=
  let b := activeBuf s c
  let mode := muMode s c b m
  if mode = 1 ∨ mode = 2 then
    (match muTrig s c b m with | 0 => (headTok s c (muPort m 3)).isSome | 1 => !(mu s c m).trig1 | _ => true)
  else (mode == 3 || mode == 4) && (headTok s c (muPort m 1)).isSome
/-- The token at CI starts nothing (R174). -/
def muIgnores (s : State) (c m : Nat) : Bool :=
  let b := activeBuf s c
  let mode := muMode s c b m
  (mode == 1 || mode == 2) && muTrig s c b m == 0 && (match headTok s c (muPort m 3) with | some t => t.val % 2 == 0 | none => false)
/-- A memory unit starts a walk where its mode and TRIG let it (R171, R174). CX needs a credit for the token a walk of no
access sends at once. -/
def muStart (s : State) (c m : Nat) : State :=
  let b := activeBuf s c
  let u := mu s c m
  let mode := muMode s c b m
  if u.walk.isSome || !muTrigger s c m then s
  else if muTotal s c m == 0 && !muIgnores s c m && !credits s c (muPort m 2) 1 then stallCount s c [(muPort m 2, 1)]
  else if mode = 1 ∨ mode = 2 then
    match muTrig s c b m with
    | 0 =>
      match headTok s c (muPort m 3) with
      | none => s
      | some t =>
        let s := popTok s c (muPort m 3)
        if t.val % 2 = 0 then s else muBegin s c m 0 false
    | 1 => if u.trig1 then s else muBegin (setMu s c m { u with trig1 := true }) c m 0 false
    | _ => muBegin s c m 0 false
  else if mode = 3 ∨ mode = 4 then
    match headTok s c (muPort m 1) with
    | none => s
    | some t => muBegin (popTok s c (muPort m 1)) c m (sgn 32 (t.val % 2 ^ 32)) t.poison
  else s

/-- Extra crossbar cycles of an access: the most of its words in one bank, less one (R173). -/
def bankExtra (ws : List Nat) : Nat :=
  ((List.range 64).foldl (fun m b => max m (countp (fun w => w % 64 == b) ws)) 0) - 1

/-- What the next access of a walk needs: the outputs it sends to, with CX after the last, and whether its data are there (R171, R174). -/
def muOuts (s : State) (c m : Nat) (w : Walk) : List (Nat × Nat) :=
  (if muReads s c m && decide (w.issued < w.total) then [(muOut s c m, 1)] else []) ++ (if w.issued + 1 ≥ w.total then [(muPort m 2, 1)] else [])
def muFed (s : State) (c m : Nat) (w : Walk) : Bool :=
  muReads s c m || decide (w.issued ≥ w.total) || (headTok s c (muIn s c m)).isSome

/-- Words fetched, with what the code finds in the `bad`-th of them. -/
def fetchAll (s : State) (c : Nat) (e : Ecc) (bad i : Nat) : List Nat → State × List (DWord × Bool)
  | [] => (s, [])
  | w :: l =>
    match spadFetch s c w (if i = bad then e else .clean) with
    | (s, .word v p) => let (s, r) := fetchAll s c e bad (i + 1) l; (s, (v, p) :: r)
    | (s, _) => let (s, r) := fetchAll s c e bad (i + 1) l; (s, (0, true) :: r)

def natOfWords : List (DWord × Bool) → Nat
  | [] => 0
  | (v, _) :: l => v.toNat + 2 ^ 64 * natOfWords l
/-- Whole words written, once their banks have said they serve. -/
def storeAll (s : State) (c v : Nat) (p : Bool) : List Nat → State
  | [] => s
  | w :: l => storeAll (spadApply s c w 255 (BitVec.ofNat 64 v) p .clean) c (v / 2 ^ 64) p l

/-- One access of a walk done: counted, and the walk ended after the last. -/
def muStepWalk (s : State) (c m : Nat) (w : Walk) : State :=
  if w.issued + 1 ≥ w.total then muWalkEnd s c m
  else setMu s c m { mu s c m with walk := some { w with issued := w.issued + 1 } }

/-- One access of a memory unit's walk (R172, R173, R176). The code's finding `e` is for the `bad`-th word. -/
def muAccess (s : State) (c m : Nat) (e : Ecc) (bad : Nat) : State :=
  match (mu s c m).walk with
  | none => s
  | some w =>
    let reads := muReads s c m
    if muWaits s c m || !muFed s c m w then s
    else if !(muOuts s c m w).all (fun o => credits s c o.1 o.2) then stallCount s c (muOuts s c m w)
    else if w.issued ≥ w.total then muWalkEnd s c m
    else
      let a := w.base + muOffset s c m w.issued
      let ws := muWords s c m a
      let g := muMode s c (activeBuf s c) m
      let inside := fun (x : Int) => decide (0 ≤ x) && decide (x < 1048576) &&
        (!(g == 3 || g == 4) || (decide (((muDeclared s c m).1 : Int) ≤ x) && decide (x ≤ ((muDeclared s c m).2 : Int))))
      let fault := w.refused || ws.any (fun x => !inside x)
      let give := fun (s : State) (v : Nat) (p : Bool) =>
        let s := takeCredits s c (muOut s c m) 1
        setMu s c m { mu s c m with emit := (mu s c m).emit ++ [mkTok s c v p] }
      if w.dead then
        muStepWalk (if reads then give s 0 true else popTok s c (muIn s c m)) c m w
      else if fault then
        let s := coreErr (bump s (cPage c) 0xC48) c cRANGE 0x62 m 0 (some 12)
        muStepWalk (if reads then give s 0 true else popTok s c (muIn s c m)) c m w
      else
        let wn := ws.map Int.toNat
        match askBanks s c m wn with
        | (s, none, true) => s
        | (s, some _, _) => muStepWalk (if reads then give (bump s (cPage c) 0xC48) 0 true else popTok (bump s (cPage c) 0xC48) c (muIn s c m)) c m w
        | (s, none, false) =>
          let s := bumpBy (bump s (cPage c) 0xC48) (cPage c) 0xC50 (bankExtra wn)
          if reads then
            let was := (spadWord (core s c) (wn.getD bad 0)).2
            let (s, l) := fetchAll s c e bad 0 wn
            let p := l.any (·.2)
            let s := if eccAt s c (wn.getD bad 0) e == .uncorrectable && decide (bad < wn.length) && !was then coreErr s c cPOISON 0x63 m 0 (some 12) else s
            let v := if muScalar s c m then bits (natOfWords l) (32 * (a % 2).toNat) 32 else natOfWords l
            muStepWalk (give s v p) c m w
          else
            let t := (headTok s c (muIn s c m)).getD {}
            let s := popTok s c (muIn s c m)
            let s := if muScalar s c m then
                let hi := (a % 2).toNat
                spadApply s c (wn.headD 0) (if hi = 1 then 0xF0 else 0x0F) (BitVec.ofNat 64 (t.val % 2 ^ 32 * 2 ^ (32 * hi))) t.poison e
              else storeAll s c t.val t.poison wn
            muStepWalk s c m w

/-- A READ access's token leaves (R177). -/
def muEmit (s : State) (c m : Nat) : State :=
  let u := mu s c m
  match u.emit with
  | [] => s
  | t :: l => emitTok (setMu s c m { u with emit := l }) c (muOut s c m) t

/-! ### Spill queues (R139–R141) -/

/-- A token moved from the ring to the output staging buffer; a word read back uncorrectable poisons it (R141), and one whose read a bank
refuses (R176, R215). -/
def spillRefill (s : State) (c m : Nat) (e : Ecc) : State :=
  let u := mu s c m
  let sp := u.spill
  match sp.ring with
  | [] =>
    match sp.inBuf with
    | [] => s
    | t :: l => setMu s c m { u with spill := { sp with inBuf := l, outBuf := sp.outBuf ++ [t] } }
  | t :: l =>
    let n := 2 ^ muLoge s c (activeBuf s c) m
    let i := (sp.wr + n - sp.ring.length % n) % n
    let w := muRing s c (activeBuf s c) m + i * spillWidth s c (activeBuf s c) m
    let ads := (List.range (spillWidth s c (activeBuf s c) m)).map (w + ·)
    let give := fun (s : State) (v : Nat) (bad : Bool) =>
      let u := mu s c m
      setMu s c m { u with spill := { u.spill with ring := l, outBuf := u.spill.outBuf ++ [{ t with val := v, poison := t.poison || bad }] } }
    match askBanks s c m ads with
    | (s, none, true) => s
    | (s, some _, _) => give s 0 true
    | (s, none, false) =>
      let (s, ws) := fetchAll s c e 0 0 ads
      let bad := ws.any (·.2)
      let v := if spillScalar s c (activeBuf s c) m then bits (natOfWords ws) 0 32 else natOfWords ws
      give (if bad && !t.poison then flowErr s c cPOISON 0x55 m (some 12) else s) v bad

/-- The oldest token of a full input staging buffer moved into the ring (R139, R140), or dropped where a bank refuses its write (R176, R215). -/
def spillDown (s : State) (c m : Nat) : State :=
  let u := mu s c m
  let sp := u.spill
  let n := 2 ^ muLoge s c (activeBuf s c) m
  match sp.inBuf with
  | t :: l =>
    if sp.inBuf.length ≥ 8 ∧ sp.outBuf.length ≥ 8 ∧ sp.ring.length < n then
      let w := muRing s c (activeBuf s c) m + sp.wr % n * spillWidth s c (activeBuf s c) m
      let v := if spillScalar s c (activeBuf s c) m then t.val % 2 ^ 32 + 2 ^ 32 * b2n t.poison + 2 ^ 33 * t.ep else t.val
      let ads := (List.range (spillWidth s c (activeBuf s c) m)).map (w + ·)
      match askBanks s c m ads with
      | (s, none, true) => s
      | (s, some _, _) => let u := mu s c m; setMu s c m { u with spill := { u.spill with inBuf := l } }
      | (s, none, false) =>
        let s := storeAll s c v t.poison ads
        let u := mu s c m
        setMu s c m { u with spill := { u.spill with inBuf := l, ring := u.spill.ring ++ [t], wr := (u.spill.wr + 1) % n } }
    else s
  | [] => s

/-- At most one token in and one token out (R139). -/
def spillFire (s : State) (c m : Nat) (e : Ecc) : State :=
  let b := activeBuf s c
  if muMode s c b m ≠ 5 || rangeWaiting (core s c) m 0 then s
  else
    let scalar := spillScalar s c b m
    let pin := muPort m (if scalar then 2 else 0)
    let pout := muPort m (if scalar then 1 else 0)
    let s := if (mu s c m).spill.outBuf.length < 8 then spillRefill s c m e else s
    let s :=
      match headTok s c pin with
      | none => s
      | some t =>
        let s := spillDown s c m
        let sp := (mu s c m).spill
        if sp.inBuf.length < 8 then
          let s := popTok s c pin
          let s := setMu s c m { mu s c m with spill := { sp with inBuf := sp.inBuf ++ [t] } }
          if sp.outBuf.length < 8 then spillRefill s c m e else s
        else s
    let u := mu s c m
    match u.spill.outBuf with
    | [] => s
    | t :: l =>
      if credits s c pout 1 then
        let s := setMu s c m { u with spill := { u.spill with outBuf := l } }
        let s := emitTok (takeCredits s c pout 1) c pout t
        spillRefill s c m e
      else stallCount s c [(pout, 1)]

end Sys2Proof.Machine
end

