-- ==== Sys2Proof/Machine/SeqBase.lean ====
section
/-! DEFINITION. What the queue and DMA engines need of the sequencer: completing an instruction that waits, outcomes of what it
issued, wake causes (R183, R184, R186, R190). -/
namespace Sys2Proof.Machine
open Sys2Proof

def seqr (s : State) (c : Nat) : Seq := (core s c).seq
def setSeq (s : State) (c : Nat) (q : Seq) : State := setCore s c { core s c with seq := q }
/-- A general register; x0 reads zero and discards writes. -/
def xget (s : State) (c r : Nat) : Word := if r % 32 = 0 then 0 else tget 0 (seqr s c).x (r % 32)
def xset (s : State) (c r : Nat) (v : Word) : State :=
  if r % 32 = 0 then s else let q := seqr s c; setSeq s c { q with x := tput q.x (r % 32) v }
def pcOf (s : State) (c : Nat) : Nat := fd s (cPage c) fCORE_SEQ_PC_PC
def setPc (s : State) (c v : Nat) : State := fdSet s (cPage c) fCORE_SEQ_PC_PC (v % 2 ^ 32)
/-- STATE and WAITON (R189). STEP clears when its instruction is done: the sequencer is then HALTED, or in FAULT. -/
def seqSt (s : State) (c : Nat) : Nat := fd s (cPage c) fCORE_SEQ_STATE_STATE
def setSeqSt (s : State) (c st on : Nat) : State :=
  let s := fdSet (fdSet s (cPage c) fCORE_SEQ_STATE_STATE st) (cPage c) fCORE_SEQ_STATE_WAITON on
  if st % 4 = 0 then fdSet s (cPage c) fCORE_SEQ_CTL_STEP 0 else s
/-- The sequencer goes on after an instruction: RUN is 1 and it was no STEP (R189). -/
def goesOn (s : State) (c : Nat) : Bool := fb s (cPage c) fCORE_SEQ_CTL_RUN && !fb s (cPage c) fCORE_SEQ_CTL_STEP

/-- An instruction retires: it is counted, and the PC moves on. -/
def retire (s : State) (c pc : Nat) : State :=
  let q := seqr s c
  setPc (bump (setSeq s c { q with instret := q.instret + 1 }) (cPage c) 0xC00) c pc

/-- A custom instruction completes with a value for rd and a code for mxstat (R183); the sequencer goes on, or halts after a STEP or
where RUN has been cleared meanwhile. -/
def seqFinish (s : State) (c rd : Nat) (v : Word) (code : Nat) : State :=
  let s := xset s c rd v
  let s := setSeq s c { seqr s c with mxstat := code, wait := .none, napped := false }
  let s := retire s c (pcOf s c + 4)
  setSeqSt s c (if goesOn s c then 1 else 0) 0

/-- Something the sequencer issued enters the list MILE waits on (R184). -/
def issue (s : State) (c : Nat) : State × Nat :=
  let q := seqr s c
  (setSeq s c { q with issued := q.issued ++ [{ id := q.nextId, outcome := none }], nextId := q.nextId + 1 }, q.nextId)
/-- Its final outcome. -/
def setOutcome (s : State) (c id code : Nat) : State :=
  let q := seqr s c
  setSeq s c { q with issued := q.issued.map (fun i => if i.id == id && i.outcome.isNone then { i with outcome := some code } else i) }

/-- A wake cause (R186). -/
def wakeCause (s : State) (c b : Nat) : State :=
  let q := seqr s c
  setSeq s c { q with causes := q.causes ||| 2 ^ b }

end Sys2Proof.Machine
end

