-- ==== Sys2Proof/Machine/QeOps.lean ====
section
/-! DEFINITION. The queue engine: slots, channels, sending, receiving, rings, final outcomes (R227–R260). -/
namespace Sys2Proof.Machine
open Sys2Proof

def qPage (c : Nat) : PageId := corePage .qeng c
def qe (s : State) (c : Nat) : Qe := (core s c).qe
def setQe (s : State) (c : Nat) (q : Qe) : State := setCore s c { core s c with qe := q }
def chan (s : State) (c i : Nat) : Chan := tget {} (qe s c).chans i
def setChan (s : State) (c i : Nat) (h : Chan) : State := setQe s c { qe s c with chans := tput (qe s c).chans i h }
def handle (s : State) (c i : Nat) : Handle := tget {} (qe s c).handles i
def setHandle (s : State) (c i : Nat) (h : Handle) : State := setQe s c { qe s c with handles := tput (qe s c).handles i h }
def slotq (s : State) (c i : Nat) : SlotQ := tget {} (qe s c).slots i
def setSlot (s : State) (c i : Nat) (q : SlotQ) : State := setQe s c { qe s c with slots := tput (qe s c).slots i q }

/-- The tag of the context a queue engine's slots belong to, and its generation (R228, R239). -/
def qTag (s : State) (c : Nat) : Nat := pageTag s (qPage c)
def qBound (s : State) (c : Nat) : Bool := bit (rd s (qPage c) 0xC) 16
def qGen (s : State) (c : Nat) : Nat := rd s (qPage c) 0xC % 64
/-- EN held by a core (R305) and the module's device number. -/
def coreEn (s : State) (c : Nat) : Nat := fd s (corePage .rout c) fROUT_EN_EN
def selfDev (s : State) (d : Nat) : Nat := fd s (diePage .sign d) fSIGN_SELF_DEVICE

/-- Slot fields. -/
def qKind (s : State) (c q : Nat) : Nat := fd s (qPage c) (fQENG_Q_CFG_KIND.at q)
def qOpen (s : State) (c q : Nat) : Bool := fb s (qPage c) (fQENG_Q_CFG_OPEN.at q)
def qSize (s : State) (c q : Nat) : Nat := 2 ^ fd s (qPage c) (fQENG_Q_CFG_LOGSIZE.at q)
def qMaxlen (s : State) (c q : Nat) : Nat := fd s (qPage c) (fQENG_Q_CFG_MAXLEN.at q)
def qBase (s : State) (c q : Nat) : Nat := fd s (qPage c) (fQENG_Q_RING_BASE.at q)

/-- A capture of the QENG page with its interrupt bit (R259, R289). -/
def qErr (s : State) (c code source detail addr int : Nat) : State :=
  raiseInt (errAt s (qPage c) code source detail addr (qTag s c)) (qPage c) int

/-! ### Junction geometry (R261, R262) -/

def jFmt (s : State) (c q : Nat) : Nat := fd s (qPage c) (fQENG_J_CFG_FMT.at q)
def jCanon (s : State) (c q : Nat) : Bool := fb s (qPage c) (fQENG_J_CFG_MODE.at q)
def jCount (s : State) (c q : Nat) : Nat := fd s (qPage c) (fQENG_J_CFG_COUNT.at q)
def jEsize (s : State) (c q : Nat) : Nat := if jFmt s c q = 1 then 2 else 4
def jCB (s : State) (c q : Nat) : Nat := fd s (qPage c) (fQENG_J_CFG_LEN.at q) * jEsize s c q
def jParts (s : State) (c q : Nat) : Nat := (jCB s c q + 511) / 512
def jNeed (s : State) (c q : Nat) : Nat := 8192 + (if jCanon s c q then jCount s c q * jParts s c q * 512 else 0)
def jBufAddr (s : State) (c q b : Nat) : Nat := qBase s c q + b * (qSize s c q / 2)
/-- Word addresses: the result and bitmap of part `p`, and the held place of contributor `k`. -/
def jResW (s : State) (c q b p : Nat) : Nat := (jBufAddr s c q b + 512 * p) / 8
def jMapW (s : State) (c q b p : Nat) : Nat := (jBufAddr s c q b + 4096 + 512 * p) / 8
def jHeldW (s : State) (c q b k p : Nat) : Nat := (jBufAddr s c q b + 8192 + k * jParts s c q * 512 + 512 * p) / 8
def jbuf (x : SlotQ) (b : Nat) : JBuf := if b % 2 = 0 then x.j0 else x.j1
def setJbuf (x : SlotQ) (b : Nat) (j : JBuf) : SlotQ := if b % 2 = 0 then { x with j0 := j } else { x with j1 := j }
/-- Whether contributor `k`'s part is in the bitmap of a part. -/
def jHas (s : State) (c q b p k : Nat) : Bool := bit (spadWord (core s c) (jMapW s c q b p + k / 64)).1.toNat (k % 64)
/-- Contributors whose every part has been applied (R268). -/
def jHave (s : State) (c q b : Nat) : Nat :=
  if (jbuf (slotq s c q) b).st = 0 then 0
  else countp (fun k => (List.range (jParts s c q)).all (fun p => jHas s c q b p k)) (List.range (jCount s c q))

/-! ### Slots: emptiness, status word, pop -/

/-- A slot holds something no pop has returned (R247); of a junction, a completed round, be it the oldest not yet freed or the next (R272). -/
def nonEmpty (s : State) (c q : Nat) : Bool :=
  let x := slotq s c q
  match qKind s c q with
  | 1 => !x.regq.isEmpty
  | 2 => decide (x.held < x.used)
  | 3 =>
    let j := jbuf x x.jround
    let next := jbuf x (x.jround + 1)
    !fb s (qPage c) (fQENG_J_FWD_FWDEN.at q) && ((j.st == 2 && !j.popped) || (next.st == 2 && !next.popped))
  | _ => false

/-- The status word of a slot (R248, R272). -/
def statWord (s : State) (c q : Nat) : DWord :=
  let x := slotq s c q
  let mid := match qKind s c q with | 1 => x.regq.length | 2 => x.tail | 3 => x.tail | _ => 0
  BitVec.ofNat 64 (x.commits % 2 ^ 32 + 2 ^ 32 * (mid % 2 ^ 22) + 2 ^ 63 * b2n (!qOpen s c q))
/-- The status word written where STATEN is 1; it takes no range. A bank that refuses it leaves it unwritten; one that is waking, and a held
region, delay it (R202, R212, R215, R248). -/
def writeStat (s : State) (c q : Nat) : State :=
  if fb s (qPage c) (fQENG_Q_CFG_STATEN.at q) then
    let r := spadWrite s c whoQe (fd s (qPage c) (fQENG_Q_STATW_ADDR.at q)) 255 (statWord s c q) false .clean
    let l := (qe r.1 c).statw.filter (· != q)
    setQe r.1 c { qe r.1 c with statw := if r.2 == .wait then l ++ [q] else l }
  else s
/-- Status words that waited are written as they now stand. -/
def serveStats (s : State) (c : Nat) : State := (qe s c).statw.foldl (fun s q => writeStat s c q) s

/-- What every commit does: COMMITS, the sender's EN, the status word, the wake cause (R242, R247, R186). -/
def commitSlot (s : State) (c q : Nat) (en : Option Nat) : State :=
  let x := slotq s c q
  let sn := match en with | some e => (e :: x.senders).take 16 | none => x.senders
  let s := setSlot s c q { x with commits := (x.commits + 1) % 2 ^ 32, senders := sn }
  let s := writeStat (bump s (qPage c) 0xC28) c q
  if bit (seqr s c).wakeQ.toNat q then wakeCause s c 2 else s

/-- A ring record's header word (R243). -/
def ringHeader (len : Nat) (skip poison : Bool) (h seq : Nat) : DWord :=
  BitVec.ofNat 64 (len + 2 ^ 13 * b2n skip + 2 ^ 14 * b2n poison + 2 ^ 16 * h + 2 ^ 32 * seq)
/-- The bytes of a record (R243). -/
def recBytes (len : Nat) : Nat := 8 + 8 * ((len + 7) / 8)

/-- Where a record of `r` bytes goes: its offset, and whether a skip record fills the ring's end first (R244). -/
def ringPlace (size : Nat) (x : SlotQ) (r : Nat) : Option (Nat × Bool) :=
  if size - x.used < r then none
  else if size - x.tail ≥ r then some (x.tail, false)
  else if x.head ≥ r then some (0, true)
  else none

/-- The release of the record held by the last pop, and of skip records before the next (R245). -/
def ringRelease (s : State) (c q : Nat) : State :=
  let x := slotq s c q
  let size := qSize s c q
  let x := { x with head := (x.head + x.held) % size, used := x.used - x.held, held := 0 }
  let h := (spadWord (core s c) ((qBase s c q + x.head) / 8)).1.toNat
  setSlot s c q (if x.used > 0 ∧ bit h 13 then { x with used := x.used - (8 + h % 2 ^ 13), head := 0 } else x)

/-- A round buffer freed: the round advances (R267, R272). -/
def jFree (s : State) (c q : Nat) : State :=
  let x := slotq s c q
  setSlot s c q { setJbuf x x.jround {} with jround := (x.jround + 1) % 256 }
/-- The round tag a buffer holds. -/
def jTag (x : SlotQ) (b : Nat) : Nat := if x.jround % 2 = b % 2 then x.jround else (x.jround + 1) % 256
/-- Completed rounds that are done with are freed in order: one whose elder is not freed yet stays until that one is (R267; DEDUCED, log entry
161). -/
def jRelease (s : State) (c q : Nat) : State :=
  let done := fun (s : State) => let x := slotq s c q; (jbuf x x.jround).st == 2 && (jbuf x x.jround).popped
  if !done s then s
  else
    let s := jFree s c q
    if done s then jFree s c q else s
/-- The forwarding of a buffer's result has ended: the buffer is freed, after that of the round before it where that one is still in flight
(R267, R274). -/
def jFwdEnd (s : State) (c q b : Nat) : State :=
  let x := slotq s c q
  jRelease (setSlot s c q (setJbuf x b { jbuf x b with popped := true })) c q

/-- What a pop returns. -/
inductive Pop where
  | empty
  | word (v : DWord) (poison : Bool)
  deriving DecidableEq, Repr

/-- A pop from a slot (R245, R246, R272). -/
def popSlot (s : State) (c q : Nat) : State × Pop :=
  match qKind s c q with
  | 1 =>
    let x := slotq s c q
    match x.regq with
    | [] => (s, .empty)
    | e :: l => (setSlot s c q { x with regq := l }, .word e.word e.poison)
  | 2 =>
    let s := ringRelease s c q
    let x := slotq s c q
    if x.used = 0 then (s, .empty)
    else
      let h := (spadWord (core s c) ((qBase s c q + x.head) / 8)).1.toNat
      let len := h % 2 ^ 13
      let w := (x.head + 8) + 2 ^ 22 * bits h 16 10 + 2 ^ 32 * len + 2 ^ 45 * bits h 14 1 + 2 ^ 48 * bits h 32 16
      (setSlot s c q { x with held := recBytes len }, .word (BitVec.ofNat 64 w) (bit h 14))
  | 3 =>
    let s := jRelease s c q
    if nonEmpty s c q then
      let x := slotq s c q
      let t := if (jbuf x x.jround).st = 2 ∧ !(jbuf x x.jround).popped then x.jround else (x.jround + 1) % 256
      let j := jbuf x t
      let w := (t % 2) * (qSize s c q / 2) + 2 ^ 32 * jCB s c q + 2 ^ 45 * b2n j.poison + 2 ^ 48 * t
      (setSlot s c q (setJbuf x t { j with popped := true }), .word (BitVec.ofNat 64 w) j.poison)
    else (s, .empty)
  | _ => (s, .empty)

/-! ### Port bindings (R253) -/

def bindWord (s : State) (c b p i : Nat) : Nat := bufWord s c b (784 + 4 * p + i)
/-- The QX or QXS port bound to a slot in the active configuration. -/
def qxBound (s : State) (c q : Nat) : Bool :=
  (List.range 6).any (fun p => let w := bindWord s c (activeBuf s c) p 0; bit w 0 && bits w 1 6 == q)
/-- The validation rules of R253. -/
def bindValid (s : State) (c b : Nat) : Bool :=
  let qx := (List.range 6).filter (fun p => bit (bindWord s c b p 0) 0)
  let slot := fun p => bits (bindWord s c b p 0) 1 6
  (List.range 192).all (fun i => bufWord s c b (832 + i) == 0) &&
  qx.all (fun p => qKind s c (slot p) != 0 && qx.all (fun r => r == p || slot r != slot p)) &&
  (List.range 6).all (fun j =>
    let p := j + 6
    let w := bindWord s c b p 0
    let len := bits w 11 13
    let buf := bits (bindWord s c b p 1) 0 23
    let n := bits (bindWord s c b p 2) 0 4
    let last := buf + n * 8 * ((len + 7) / 8) - 1
    !bit w 0 || (decide (1 ≤ len) && decide (len ≤ 4096) && decide (1 ≤ n) && decide (n ≤ 8) && decide (buf % 8 = 0) &&
      decide (last < 2 ^ 23) &&
      (List.range (last / 65536 - buf / 65536 + 1)).all (fun i => regionF s c (buf / 65536 + i) fSPAD_REGION_UNORD)))

/-! ### Digest (R450, R451) -/

def crc64Poly : DWord := 0x42F0E1EBA9EA3693#64
def crcBits (c : DWord) : Nat → DWord
  | 0 => c
  | n + 1 => crcBits (if c.msb then (c <<< 1) ^^^ crc64Poly else c <<< 1) n
def crc64 (c : DWord) : List Byte → DWord
  | [] => c
  | b :: l => crc64 (crcBits (c ^^^ (b.setWidth 64 <<< 56)) 8) l

/-- The digest of a step opens at each change of CORE_STEP_MILE. -/
def digestOpen (s : State) (c : Nat) : State :=
  let m := fd s (cPage c) fCORE_STEP_MILE_MILE
  let q := qe s c
  if q.mile = m then s else setQe s c { q with mile := m, chans := tmap (fun _ h => { h with sent := 0, chain := 0 }) q.chans }
/-- A message as first sent adds its record to its channel's chain. -/
def digestAdd (s : State) (c i len : Nat) (bytes : List Byte) : State :=
  let s := digestOpen s c
  let h := chan s c i
  setChan s c i { h with sent := h.sent + 1, chain := crc64 h.chain (natLe 2 len ++ natLe 1 h.slot ++ natLe 1 h.kind ++ natLe 4 0 ++ bytes.take len) }
/-- The step digest at MILE. -/
def stepDigest (s : State) (c : Nat) : DWord :=
  let s := digestOpen s c
  (qe s c).chans.foldl (fun d e => if e.2.sent = 0 then d else crc64 d (natLe 2 e.1 ++ natLe 2 e.2.sent ++ natLe 8 e.2.chain.toNat)) 0

/-! ### Channels -/

/-- A packet handed to the core's source interface, from which it is launched. -/
def inject (s : State) (c : Nat) (p : Pkt) : State := setQe s c { qe s c with inj := (qe s c).inj ++ [p] }

/-- The header fields every packet of a core's queue engine carries (R294). -/
def mkPkt (s : State) (c type vc den : Nat) : Pkt :=
  { type := type, vc := vc, sdev := selfDev s (c / 144), sdie := c / 144, sunit := c % 144, den := den, sen := coreEn s c, ctag := qTag s c }
/-- An answer on the response virtual channel to a packet's source. -/
def answerTo (s : State) (c type : Nat) (p : Pkt) : Pkt :=
  { mkPkt s c type 1 p.sen with ddev := p.sdev, ddie := p.sdie, dunit := p.sunit, ctag := p.ctag }

/-- A packet as each of those whose contributions it sums sent it (R277). -/
def contributors (p : Pkt) : List Pkt :=
  p :: p.also.map (fun k => { p with sdev := k.sdev, sdie := k.sdie, sunit := k.sunit, sen := k.sen, sidx := k.sidx, ctag := k.ctag, att := k.att })
/-- Messages of a channel without a final outcome. -/
def chanMsgs (s : State) (c i : Nat) : List Msg := (qe s c).unacked.filter (·.chan == i) ++ (qe s c).sendq.filter (·.chan == i)

/-- What follows when a CLOSING entry has no message left: the entry is freed, or its CLOSE notice sent (R234, R288). -/
def closeSettle (s : State) (c i : Nat) : State :=
  let h := chan s c i
  if h.state ≠ 3 || h.notice || !(chanMsgs s c i).isEmpty then s
  else if h.gone || h.convoy.isSome then setChan s c i {}
  else noticeOut (setChan s c i { h with notice := true }) (c / 144) h.en (.closeNotice c h.en h.handle false i none)

/-- A code that breaks a channel (R249). -/
def breaks (code : Nat) : Bool := !(code == cOK || code == cPOISON || code == cPURGED)

/-- The message's outcome reaches who sent it (R184, R255, R274). -/
def outcomeToSource (s : State) (c : Nat) (m : Msg) (code : Nat) : State :=
  match m.src with
  | .seq => setOutcome s c m.id code
  | .qy port buf =>
    let q := qe s c
    let y := tget {} q.qy port
    setOutcome (setQe s c { q with qy := tput q.qy port { y with out := y.out.filter (· != buf) } }) c m.id code
  | .fwd slot b =>
    let x := slotq s c slot
    if (jbuf x b).fwd ≠ some m.id then s
    else jFwdEnd (if code = cOK then s else qErr s c code 0x86 slot (jTag x b) 15) c slot b

/-- The read range of a message; empty for a message of no bytes (R57, R183, R200). -/
def Msg.range (m : Msg) : Range := { start := m.addr / 8, len := (m.len + 7) / 8, write := false, owner := whoQe, id := m.id }
/-- A range of the queue engine is released: messages that its quota held back ask again, in order (R198). -/
def qeRelease (s : State) (c id : Nat) : State :=
  ((qe s c).sendq.filter (fun m => !m.ranged)).foldl (fun s m =>
    match rangeAsk s c m.range with
    | (s, .quota) => s
    | (s, _) => setQe s c { qe s c with sendq := (qe s c).sendq.map (fun x => if x.id == m.id then { x with ranged := true } else x) }) (rangeRelease s c whoQe id)

/-- The final outcome of one message, leaving its channel's state (R249). -/
def endMsg (s : State) (c : Nat) (m : Msg) (code : Nat) : State :=
  let q := qe s c
  let s := setQe s c { q with unacked := q.unacked.filter (·.id != m.id), sendq := q.sendq.filter (·.id != m.id) }
  let s := qeRelease s c m.id
  let h := chan s c m.chan
  let s := if code = cOK ∨ code = cPOISON then bump s (qPage c) 0xC08 else s
  let en := match h.convoy with | some v => v | none => h.en
  let s := if code = cOK then s else qErr s c code 0x80 m.chan (en + 2 ^ 32 * m.seq.getD 0) 8
  outcomeToSource s c m code

/-- Every message of a list ends with a code. -/
def endAll (s : State) (c code : Nat) : List Msg → State
  | [] => s
  | m :: l => endAll (endMsg s c m code) c code l

/-- A final outcome with what it does to the channel: a breaking code makes an OPEN entry BROKEN, and ends every later message of
the channel (R234, R249). -/
def finalOutcome (s : State) (c : Nat) (m : Msg) (code : Nat) : State :=
  let later := ((qe s c).unacked.dropWhile (·.id != m.id) ++ (qe s c).sendq).filter (fun x => x.chan == m.chan && x.id != m.id)
  let s := endMsg s c m code
  if breaks code then
    let h := chan s c m.chan
    let s := if h.state = 2 then setChan s c m.chan { h with state := 4, code := code }
      else if h.state = 3 ∧ (code = cCLOSED ∨ code = cSTALE_GEN ∨ code = cNO_CHANNEL) then setChan s c m.chan { h with gone := true }
      else s
    closeSettle (endAll s c code later) c m.chan
  else closeSettle s c m.chan

/-- The code with which a send on a channel fails at once (R231). -/
def chanCode (h : Chan) : Nat := match h.state with | 2 => cOK | 3 => cCLOSED | 4 => h.code | _ => cNO_CHANNEL

/-- A message entered in the send queue, or the code with which it is not (R236). The caller has checked the length's own limit. -/
def enterMsg (s : State) (c i len addr id : Nat) (src : MsgSrc) : State × Nat :=
  let h := chan s c i
  let q := qe s c
  if h.state ≠ 2 then (s, chanCode h)
  else if len > h.maxlen then (s, cRANGE)
  else if q.sendq.length ≥ 32 then (s, cNOT_READY)
  else
    let m : Msg := { id := id, chan := i, len := len, addr := addr, src := src }
    let add := fun (s : State) (asked : Bool) => setQe s c { qe s c with sendq := (qe s c).sendq ++ [{ m with ranged := asked }] }
    match rangeAsk s c (m.range) with
    | (s, .refused) => (s, cRANGE)
    | (s, .quota) => (add s false, cOK)
    | (s, _) => (add s true, cOK)

/-- Words of a message read from scratchpad; a refused read carries poison. None while a bank wakes or a region waits. -/
def readMsg (s : State) (c addr n : Nat) : State × Option (List (DWord × Bool)) :=
  match spadReadAll s c whoQe (addr / 8) n with
  | (s, .wait, _) => (s, none)
  | (s, .refused _, l) => (s, some (l ++ List.replicate (n - l.length) (0, true)))
  | (s, .word _ _, l) => (s, some l)

/-- The packets of one sending of a message (R237, R265, R282). -/
def msgPkts (s : State) (c : Nat) (m : Msg) (seq : Nat) (ws : List (DWord × Bool)) : List Pkt :=
  let h := chan s c m.chan
  let n := max 1 ((m.len + 511) / 512)
  let poison := ws.any (·.2)
  let data := ws.map (·.1)
  (List.range n).map (fun k =>
    let base : Pkt := { mkPkt s c (if h.kind = 3 then 1 else 0) (if h.kind = 3 then 2 else 3) h.en with
      poison := poison, handle := h.handle, rgen := h.rgen, seq := seq, att := m.att, part := k, npart := n - 1, len := m.len, sidx := m.chan, data := (data.drop (64 * k)).take 64 }
    match h.convoy with
    | some v => { base with type := 2, vc := 3, cvid := v, conv := true }
    | none =>
      if h.kind = 3 then
        { base with slot := h.slot, fmt := bits h.mode 1 2, merge := bits h.mode 0 1 == 0 && m.att == 0 && !m.nacked, cblk := h.cidx / 64, cmask := 2 ^ (h.cidx % 64) }
      else base)

/-- One sending of a message that has its number: its range is taken, its words read, its packets handed over (R237, R238). -/
def sendMsg (s : State) (c : Nat) (m : Msg) (seq : Nat) (first : Bool) : State :=
  let upd := fun (s : State) (f : Msg → Msg) =>
    setQe s c { qe s c with unacked := (qe s c).unacked.map (fun x => if x.id == m.id then f x else x) }
  let n := (m.len + 7) / 8
  match rangeTake s c m.range with
  | (s, .go) =>
    match readMsg s c m.addr n with
    | (s, none) => upd s (fun x => { x with again := true })
    | (s, some ws) =>
      let poison := ws.any (·.2)
      let s := qeRelease s c m.id
      let s := (msgPkts s c m seq ws).foldl (fun s p => inject s c p) s
      let s := upd s (fun x => { x with again := false, waiting := false, poison := x.poison || poison })
      if first then digestAdd s c m.chan m.len ((ws.map (fun w => natLe 8 w.1.toNat)).flatten) else s
  | (s, _) => upd s (fun x => { x with again := true })

/-- The message of the send queue whose turn it is: the first that neither WINDOW nor the core's 256 holds aside and that has no earlier one of
its channel (R236). -/
def nextMsg (s : State) (c : Nat) : Option Msg :=
  let q := qe s c
  let win := fd s (qPage c) fQENG_CFG_WINDOW
  (List.range q.sendq.length).findSome? (fun i =>
    match q.sendq[i]? with
    | none => none
    | some m =>
      if (q.sendq.take i).any (·.chan == m.chan) then none
      else if m.len = 0 then (if q.unacked.any (·.chan == m.chan) then none else some m)
      else if countp (·.chan == m.chan) q.unacked ≥ win ∨ q.unacked.length ≥ 256 then none
      else some m)

/-- The range of a waiting message asked for, if the quota held it back, and granted where it can be: whether the message has it. -/
def msgRange (s : State) (c : Nat) (m : Msg) : State × Bool :=
  let (s, asked) := if m.ranged then (s, true) else
    match rangeAsk s c m.range with
    | (s, .quota) => (s, false)
    | (s, _) => (setQe s c { qe s c with sendq := (qe s c).sendq.map (fun x => if x.id == m.id then { x with ranged := true } else x) }, true)
  if !asked then (s, false)
  else
    let s := match (core s c).sp.ranges.findIdx? (fun r => r.owner == whoQe && r.id == m.id) with | some i => rangeGrant s c i | none => s
    (s, !rangeWaiting (core s c) whoQe m.id)

/-- No earlier sending of its channel waits: sendings of a channel keep their order (R249). -/
def inTurn (s : State) (c : Nat) (m : Msg) : Bool :=
  !((qe s c).unacked.takeWhile (fun x => x.id != m.id)).any (fun x => x.chan == m.chan && x.again)
/-- The first of the sendings that wait which can now go. -/
def sendAgain (s : State) (c : Nat) : List Msg → State × Bool
  | [] => (s, false)
  | m :: l =>
    if !inTurn s c m then sendAgain s c l
    else
      let s := sendMsg s c m (m.seq.getD 0) false
      if (qe s c).unacked.any (fun x => x.id == m.id && x.again) then sendAgain s c l else (s, true)

/-- A sending that waited for its range or banks goes; else a message leaves the send queue, unless SENDSTOP holds it, once its range is
granted and its banks serve it (R236, R238, R257). -/
def depart (s : State) (c : Nat) : State :=
  match sendAgain s c ((qe s c).unacked.filter (·.again)) with
  | (s, true) => s
  | (s, false) =>
    if fb s (qPage c) fQENG_CTL_SENDSTOP then s
    else
      match nextMsg s c with
      | none => s
      | some m =>
        match msgRange s c m with
        | (s, false) => s
        | (s, true) =>
          if m.len = 0 then finalOutcome (digestAdd s c m.chan 0 []) c m cOK
          else
            match banksWait s c whoQe ((List.range ((m.len + 7) / 8)).map (m.addr / 8 + ·)) with
            | (s, true) => s
            | (s, false) =>
              let h := chan s c m.chan
              let m := { m with seq := some h.next, ranged := true }
              let q := qe s c
              let s := setQe s c { q with sendq := q.sendq.filter (·.id != m.id), unacked := q.unacked ++ [m] }
              let s := setChan s c m.chan { h with next := (h.next + 1) % 65536 }
              let s := bump s (qPage c) 0xC00
              let s := if h.convoy.isSome then bump s (qPage c) 0xC90 else s
              sendMsg s c m h.next true

/-! ### Replies (R249, R273) -/

/-- The message a reply of a channel and sequence number concerns. -/
def replyMsg (s : State) (c i seq : Nat) : Option Msg :=
  let k3 := (chan s c i).kind == 3 && (chan s c i).convoy.isNone
  (qe s c).unacked.find? (fun m => m.chan == i &&
    (match m.seq with | some q => if k3 then q % 256 == seq % 256 else q == seq | none => false))

/-- A reply of a stale context is dropped, counted and captured. -/
def staleReply (s : State) (c : Nat) (p : Pkt) : State :=
  qErr (bump s (qPage c) 0xC48) c cSTALE_GEN 0x84 p.sidx (p.sen + 2 ^ 32 * p.seq) 12

/-- An OK reply: the final outcome, once every part of a junction message has had its own (R249, R273). -/
def replyOk (s : State) (c : Nat) (p : Pkt) : State :=
  if p.ctag ≠ qTag s c then staleReply s c p
  else
    match replyMsg s c p.sidx p.seq with
    | none => s
    | some m =>
      let h := chan s c p.sidx
      let parts := if m.okParts.contains p.part then m.okParts else m.okParts ++ [p.part]
      if h.kind = 3 ∧ h.convoy.isNone ∧ parts.length < max 1 ((m.len + 511) / 512) then
        setQe s c { qe s c with unacked := (qe s c).unacked.map (fun x => if x.id == m.id then { x with okParts := parts } else x) }
      else finalOutcome s c m (if m.poison then cPOISON else cOK)

/-- A NACK that makes its message wait and be sent again: NOT_READY, CLOSURE, and a refusal of a packet merged on its way, whose contributors
each resend alone (R249, R266, R277, R285). -/
def retryNack (p : Pkt) : Bool := p.code == cNOT_READY || p.code == cCLOSURE || p.merged
/-- A NACK: a resend after backoff, or the message's final outcome (R249, R285). -/
def nackMsg (s : State) (c : Nat) (p : Pkt) : State :=
  let s := bump s (qPage c) 0xC18
  if p.ctag ≠ qTag s c then staleReply s c p
  else
    match replyMsg s c p.sidx p.seq with
    | none => s
    | some m =>
      if p.att < m.att then s
      else if retryNack p then
        let b := if m.backoff = 0 then 2 ^ fd s (qPage c) fQENG_CFG_LOGBACK else min 4096 (2 * m.backoff)
        setQe s c { qe s c with unacked := (qe s c).unacked.map (fun x => if x.id == m.id then { x with busy := true, backoff := b, waiting := true, nacked := true } else x) }
      else finalOutcome s c m p.code

/-- After the backoff, the message and every later one of its channel are sent again, in order (R249). -/
def resendFrom (s : State) (c id : Nat) : State :=
  match (qe s c).unacked.find? (·.id == id) with
  | none => s
  | some m =>
    let l := ((qe s c).unacked.dropWhile (·.id != id)).filter (·.chan == m.chan)
    let s := setQe s c { qe s c with unacked := (qe s c).unacked.map (fun x => if l.any (·.id == x.id) then { x with again := true } else x) }
    l.foldl (fun s x => if inTurn s c x then sendMsg s c x (x.seq.getD 0) false else s) s

/-- A message's attempt window expires (R249). -/
def windowExpiry (s : State) (c i seq : Nat) : State :=
  match (qe s c).unacked.find? (fun m => m.chan == i && m.seq == some seq) with
  | none => s
  | some m =>
    if m.att < fd s (qPage c) fQENG_CFG_RETRY then
      let m' := { m with att := m.att + 1, busy := false, backoff := 0, waiting := false }
      let s := setQe s c { qe s c with unacked := (qe s c).unacked.map (fun x => if x.id == m.id then m' else x) }
      sendMsg (bump s (qPage c) 0xC10) c m' seq false
    else finalOutcome s c m (if m.busy then cNOT_READY else cTIMEOUT)

/-! ### Opening and closing (R232–R235) -/

/-- The lowest entry of 1,024 that meets a test. -/
def lowest1024 (f : Nat → Bool) : Option Nat := (List.range 1024).find? f

/-- The OPEN request of an entry (R232, R263). -/
def openPkt (s : State) (c i : Nat) : Pkt :=
  let h := chan s c i
  { mkPkt s c 4 0 h.en with slot := h.slot, cidx := h.cidx, sidx := i, att := h.att }

/-- CHOPEN ends: the entry is freed, and the refusal captured (R232, R259). -/
def openFail (s : State) (c i code : Nat) : State :=
  let h := chan s c i
  let s := setChan s c i {}
  let s := qErr s c code 0x81 h.slot h.en 9
  match (seqr s c).wait with
  | .chopen rd j => if j = i then seqFinish s c rd 0xFFFFFFFF code else s
  | _ => s

/-- An answer to an OPEN request. -/
def openRsp (s : State) (c : Nat) (p : Pkt) : State :=
  let h := chan s c p.sidx
  if p.ctag ≠ qTag s c then staleReply s c p
  else if h.state ≠ 1 then s
  else if p.code = cOK then
    let s := setChan s c p.sidx { h with state := 2, handle := p.handle, rgen := p.rgen, next := 0, kind := p.kind, maxlen := p.maxlen, mode := p.mode + 2 * p.jfmt, wait := false }
    match (seqr s c).wait with
    | .chopen rd j => if j = p.sidx then seqFinish s c rd (BitVec.ofNat 32 j) cOK else s
    | _ => s
  else if p.code = cNOT_READY then
    let b := if h.backoff = 0 then 2 ^ fd s (qPage c) fQENG_CFG_LOGBACK else min 4096 (2 * h.backoff)
    setChan s c p.sidx { h with busy := true, wait := true, backoff := b }
  else openFail s c p.sidx p.code

/-- A window of a CHOPEN expires; the last ends it with NOT_READY where that was the last reply (R232). -/
def openTimeout (s : State) (c i : Nat) : State :=
  let h := chan s c i
  if h.state ≠ 1 then s
  else if h.att < fd s (qPage c) fQENG_CFG_RETRY then
    let s := setChan s c i { h with att := h.att + 1, backoff := 0, wait := false }
    inject s c (openPkt s c i)
  else openFail s c i (if h.busy then cNOT_READY else cTIMEOUT)

/-- A contributor index already bound at a junction slot (R263). -/
def idxBound (s : State) (c q k : Nat) : Option Nat :=
  ((qe s c).handles.find? (fun e => e.2.state == 1 && e.2.slot == q && e.2.idx == k)).map (·.1)

/-- The checks of an OPEN request, in the order of R56 (R232, R263). -/
def openCheck (s : State) (c : Nat) (p : Pkt) : Nat :=
  let q := p.slot
  let ig := 2 ^ fd s (qPage c) (fQENG_Q_ACPT_IGNORE.at q)
  if p.auth = 2 ∨ p.sen / ig ≠ fd s (qPage c) (fQENG_Q_ACPT_EN_BASE.at q) / ig then cDENIED
  else if coreClosed s c then cCLOSURE
  else if qKind s c q = 0 ∨ (lowest1024 (fun i => (handle s c i).state == 0)).isNone then cNO_CHANNEL
  else if qKind s c q = 3 ∧ (p.cidx ≥ jCount s c q ∨ (idxBound s c q p.cidx).isSome) then cNO_CHANNEL
  else if !(qOpen s c q && qBound s c) then cCLOSED
  else if (core s c).frozen then cNOT_READY
  else cOK

/-- An OPEN request answered (R232). -/
def openRequest (s : State) (c : Nat) (p : Pkt) : State :=
  let code := openCheck s c p
  let q := p.slot
  let a := { answerTo s c 5 p with code := code, sidx := p.sidx }
  if code ≠ cOK then inject s c a
  else
    match lowest1024 (fun i => (handle s c i).state == 0) with
    | none => inject s c a
    | some i =>
      let s := setHandle s c i { state := 1, en := p.sen, slot := q, idx := p.cidx, sidx := p.sidx, ctag := p.ctag }
      let k := qKind s c q
      inject s c { a with handle := i, rgen := qGen s c, kind := k, maxlen := (if k = 3 then jCB s c q else qMaxlen s c q), mode := (if k = 3 then b2n (jCanon s c q) else 0), jfmt := (if k = 3 then jFmt s c q else 0) }

/-- CHCLOSE of an entry (R234): the code it completes with. -/
def chClose (s : State) (c i : Nat) : State × Nat :=
  let h := chan s c i
  match h.state with
  | 2 => (closeSettle (setChan s c i { h with state := 3 }) c i, cOK)
  | 4 => (setChan s c i {}, cOK)
  | _ => (s, cNO_CHANNEL)

/-- A CLOSE notice reaches the sender entries that name the receiver EN and handle, or the convoy (R235, R286). -/
def closeNoticeIn (s : State) (c en h : Nat) (cvid : Option Nat) : State :=
  let hit := fun (x : Chan) => (x.state == 2 || x.state == 3) &&
    (match cvid with | some v => x.convoy == some v | none => x.convoy.isNone && x.en == en && x.handle == h)
  let ids := ((qe s c).chans.filter (fun e => hit e.2)).map (·.1)
  ids.foldl (fun s i =>
    let x := chan s c i
    let s := if x.state = 2 then raiseInt (setChan s c i { x with state := 4, code := cCLOSED }) (qPage c) 14 else setChan s c i { x with gone := true }
    closeSettle (endAll s c cCLOSED (chanMsgs s c i)) c i) s

/-- The CVID of a convoy handle: that of the router's entry that delivers to it, else of the last copy it took (R282, log entry 130). -/
def handleCvid (s : State) (c i : Nat) : Nat :=
  let rep := (core s c).rt.rep
  let w := fun (k : Nat) => (tget 0 rep k).toNat
  match (List.range 128).find? (fun e => let v := w (256 * (e / 64) + 4 * (e % 64)); bit v 18 && bit v 19 && bits v 26 10 == i) with
  | some e => w (256 * (e / 64) + 4 * (e % 64)) % 2 ^ 18
  | none => (handle s c i).cvid
/-- Every handle bound to a slot enters HOLDOFF, with a CLOSE notice to its sender (R235, R286). -/
def closeHandles (s : State) (c q : Nat) : State :=
  let ids := ((qe s c).handles.filter (fun e => e.2.state == 1 && e.2.slot == q)).map (·.1)
  ids.foldl (fun s i =>
    let h := handle s c i
    noticeOut (setHandle s c i { h with state := 2 }) (c / 144) h.en (.closeNotice c h.en i true h.sidx (if h.conv then some (handleCvid s c i) else none))) s

/-- A sender's CLOSE notice reaches a handle: HOLDOFF, and the notice is acknowledged (R234). -/
def handleClose (s : State) (c i en : Nat) : State :=
  let h := handle s c i
  let s := if h.state = 1 ∧ h.en = en then setHandle s c i { h with state := 2 } else s
  noticeOut s (c / 144) en (.closeAck c en i)

/-- The junction's ACCUM buffers freed at a close; the contributors in them are counted (R275). -/
def jDropAccum (s : State) (c q : Nat) : State :=
  [0, 1].foldl (fun s b =>
    let x := slotq s c q
    if (jbuf x b).st = 1 then
      let n := countp (fun k => (List.range (jParts s c q)).any (fun p => jHas s c q b p k)) (List.range (jCount s c q))
      bumpBy (setSlot s c q (setJbuf x b {})) (qPage c) 0xC88 n
    else s) s

/-- Fields of a word of QENG_Qn_CFG. -/
def cfgKind (w : Nat) : Nat := bits w 0 2
def cfgOpen (w : Nat) : Bool := bit w 2

/-- The checks of a slot at its opening (R229, R261). -/
def openOk (s : State) (c q w : Nat) : Bool :=
  let ls := bits w 4 5
  let len := bits w 10 13
  let base := qBase s c q
  let size := 2 ^ ls
  let classA := fun (n : Nat) => decide (base + n ≤ 2 ^ 23) &&
    (List.range ((base + n - 1) / 65536 - base / 65536 + 1)).all (fun i => !regionF s c (base / 65536 + i) fSPAD_REGION_CLASS)
  let st := 8 * fd s (qPage c) (fQENG_Q_STATW_ADDR.at q)
  let statOk := fun (ring : Bool) => !bit w 3 || (st % 8 == 0 && (!ring || decide (st < base) || decide (base + size ≤ st)))
  match cfgKind w with
  | 1 => decide (len ≤ 128) && statOk false
  | 2 => decide (len ≤ 4096) && decide (12 ≤ ls) && decide (ls ≤ 22) && decide (base % size = 0) && classA size && statOk true
  | 3 =>
    let cnt := jCount s c q
    let el := fd s (qPage c) (fQENG_J_CFG_LEN.at q)
    decide (jFmt s c q ≤ 2) && decide (1 ≤ el) && decide (el ≤ 1024) && decide (1 ≤ cnt) && decide (cnt ≤ 4095) &&
      decide (14 ≤ ls) && decide (ls ≤ 22) && decide (jNeed s c q ≤ size / 2) && decide (base % size = 0) && classA size && statOk true
  | _ => statOk false

/-- Whether a handle is bound to a slot. -/
def slotBound (s : State) (c q : Nat) : Bool := (qe s c).handles.any (fun e => e.2.state == 1 && e.2.slot == q)

/-- A refused slot configuration (R228, R229, R259). -/
def slotRefuse (s : State) (c q code : Nat) : State := qErr s c code 0x82 q 0 10

/-- A write of QENG_Qn_CFG with its fields already checked (R228, R229, R235, R248, R275). -/
def writeSlotCfg (s : State) (c q w : Nat) : State :=
  let old := rd s (qPage c) (0x400 + 16 * q)
  let w := w % 2 ^ 23 - bits w 9 1 * 2 ^ 9
  let changes := cfgKind w ≠ cfgKind old || bits w 4 5 ≠ bits old 4 5 || bits w 10 13 ≠ bits old 10 13
  if changes && (cfgOpen old || slotBound s c q) then slotRefuse s c q cNOT_READY
  else if cfgOpen w && !cfgOpen old && !openOk s c q w then slotRefuse s c q cRANGE
  else
    let s := wr s (qPage c) (0x400 + 16 * q) w
    let s := if changes then setSlot s c q {} else s
    if cfgOpen w && !cfgOpen old then writeStat s c q
    else if cfgOpen old && !cfgOpen w then writeStat (jDropAccum (closeHandles s c q) c q) c q
    else s

/-- A write of QENG_Qn_RING, QENG_Qn_STATW, QENG_Jn_CFG or QENG_Jn_FWD (R228, R287). -/
def writeSlotReg (s : State) (c q off w : Nat) : State :=
  if w = rd s (qPage c) off then s
  else if qOpen s c q || slotBound s c q then slotRefuse s c q cNOT_READY
  else setSlot (wr s (qPage c) off w) c q {}

/-! ### Receiving (R239–R244) -/

/-- The banks of a run of words that refuse a delivery (R239). -/
def bankBad (s : State) (c w n : Nat) : Bool :=
  (List.range (min n 64)).any (fun i => let b := bankState s c ((w + i) % 64); b == 2 || b == 3 || b == 7)
/-- Those that make it wait, or refuse it for now. -/
def bankNotYet (s : State) (c w n : Nat) : Bool :=
  (List.range (min n 64)).any (fun i => let b := bankState s c ((w + i) % 64); b == 1 || b == 4 || b == 5) ||
    (List.range n).any (fun i => regionWaits s c whoQe (w + i))
def bankPowering (s : State) (c w n : Nat) : Bool := (List.range (min n 64)).any (fun i => bankState s c ((w + i) % 64) == 6)

/-- The words a ring record would occupy. -/
def recSpan (s : State) (c q len : Nat) : Option (Nat × Nat) :=
  (ringPlace (qSize s c q) (slotq s c q) (recBytes len)).map (fun o => ((qBase s c q + o.1) / 8, recBytes len / 8))

/-- The code of the first failing check of a message packet, OK where none fails and the sequence test is next (R239). -/
def msgCheck (s : State) (c : Nat) (p : Pkt) : Nat :=
  let h := handle s c p.handle
  let q := h.slot
  let held := h.state == 1 && h.en == p.sen
  let k := qKind s c q
  let n := max 1 ((p.len + 511) / 512)
  let typeOk := if p.type = 0 then (k == 1 || k == 2) && !h.conv else if p.type = 2 then (k == 1 || k == 2) && h.conv else false
  if p.auth = 2 then cDENIED
  else if held && !(typeOk && decide (p.len ≤ qMaxlen s c q) && decide (p.part ≤ p.npart) && decide (p.npart = n - 1)) then cRANGE
  else if !(qBound s c && p.rgen == qGen s c) then cSTALE_GEN
  else if coreClosed s c then cCLOSURE
  else if held && k == 2 && (match recSpan s c q p.len with | some (w, m) => bankBad s c w m | none => false) then cBANK_OFF
  else if h.state = 0 ∨ h.en ≠ p.sen then cNO_CHANNEL
  else if h.state = 2 ∨ !qOpen s c q then cCLOSED
  else if (core s c).frozen then cNOT_READY
  else cOK

/-- A NACK of a packet (R239). -/
def nackPkt (s : State) (c : Nat) (p : Pkt) (code : Nat) : State :=
  inject (bump s (qPage c) 0xC20) c
    { answerTo s c 3 p with code := code, seq := p.seq, att := p.att, part := p.part, sidx := p.sidx, conv := p.type == 2, cvid := p.cvid }
def ackPkt (s : State) (c : Nat) (p : Pkt) : State :=
  inject s c { answerTo s c 3 p with code := cOK, seq := p.seq, att := p.att, part := p.part, sidx := p.sidx, conv := p.type == 2, cvid := p.cvid }

/-- A message of words goes into a slot: the code is OK, or why not; none while the banks are not ready for it (R242–R246). -/
def deliver (s : State) (c q len h seq : Nat) (poison : Bool) (ws : List DWord) (en : Option Nat) : State × Option Nat :=
  let n := (len + 7) / 8
  let data := (List.range n).map (fun i => ws.getD i 0)
  let x := slotq s c q
  if qKind s c q = 1 then
    if x.regq.length + n > 16 then (s, some cNOT_READY)
    else
      let ents := (List.range n).map (fun i => RegEnt.mk (data.getD i 0) poison (i == 0) len)
      (commitSlot (setSlot s c q { x with regq := x.regq ++ ents }) c q en, some cOK)
  else
    let r := recBytes len
    match ringPlace (qSize s c q) x r with
    | none => (s, some cNOT_READY)
    | some (off, skip) =>
      let w := (qBase s c q + off) / 8
      let tailW := (qBase s c q + x.tail) / 8
      let ws := (List.range (r / 8)).map (w + ·) ++ (if skip then [tailW] else [])
      if bankBad s c w (r / 8) then (s, some cBANK_OFF)
      else if skip && bankBad s c tailW 1 then ((bankAsk s c whoQe tailW).1, some cBANK_OFF)
      else if bankPowering s c w (r / 8) || (skip && bankPowering s c tailW 1) then (s, some cNOT_READY)
      else if bankNotYet s c w (r / 8) || (skip && bankNotYet s c tailW 1) then ((banksWait s c whoQe ws).1, none)
      else
        let size := qSize s c q
        let s := if skip then bump (spadApply s c tailW 255 (ringHeader (size - x.tail - 8) true false 0 0) false .clean) (qPage c) 0xC50 else s
        let s := spadApply s c w 255 (ringHeader len false poison h seq) false .clean
        let s := (List.range n).foldl (fun s i => spadApply s c (w + 1 + i) 255 (data.getD i 0) poison .clean) s
        let used := x.used + r + (if skip then size - x.tail else 0)
        let s := setSlot s c q { slotq s c q with tail := (off + r) % size, used := used }
        (commitSlot s c q en, some cOK)

/-- The bytes of a message that its last word holds beyond LEN are zero (R243, R246). -/
def padWords (len : Nat) (ws : List DWord) : List DWord :=
  (List.range ((len + 7) / 8)).map (fun i =>
    let w := ws.getD i 0
    if 8 * (i + 1) ≤ len then w else BitVec.ofNat 64 (w.toNat % 2 ^ (8 * (len - 8 * i))))

/-- A whole message committed to the handle's slot, or refused for want of space (R242). -/
def commitMsg (s : State) (c : Nat) (p : Pkt) (ws : List DWord) (poison : Bool) : State :=
  let h := handle s c p.handle
  match deliver s c h.slot p.len p.handle p.seq poison (padWords p.len ws) (some p.sen) with
  | (s, none) => s
  | (s, some code) =>
    let s := setQe s c { qe s c with reasm := (qe s c).reasm.filter (fun r => !(r.handle == p.handle && r.seq == p.seq && r.att == p.att)) }
    if code = cOK then
      let h := handle s c p.handle
      let s := setHandle s c p.handle { h with exp := (h.exp + 1) % 65536, cvid := if h.conv then p.cvid else h.cvid }
      let s := if p.type = 2 then bump s (qPage c) 0xC98 else s
      ackPkt s c p
    else nackPkt s c p code

/-- A packet placed in its reassembly buffer (R241). -/
def reassemble (s : State) (c : Nat) (p : Pkt) : State :=
  let q := qe s c
  let same := fun (r : Reasm) => r.handle == p.handle && r.seq == p.seq && r.att == p.att
  match q.reasm.find? same with
  | none =>
    if q.reasm.length ≥ 16 then nackPkt s c p cNOT_READY
    else setQe s c { q with reasm := q.reasm ++ [{ handle := p.handle, seq := p.seq, att := p.att, rgen := p.rgen, npart := p.npart, len := p.len, parts := [(p.part, p.data)], poison := p.poison }] }
  | some r =>
    if r.parts.any (·.1 == p.part) then s
    else
      let r := { r with parts := tput r.parts p.part p.data, poison := r.poison || p.poison }
      let s := setQe s c { q with reasm := q.reasm.map (fun x => if same x then r else x) }
      if r.parts.length > r.npart then commitMsg s c p ((r.parts.map (·.2)).flatten) r.poison else s

/-- A delivery refused by a bank is one refused access of the queue engine (R214, R225). -/
def refusedBank (s : State) (c : Nat) (span : Option (Nat × Nat)) : State :=
  match span with
  | none => s
  | some (w, n) =>
    match (List.range (min n 64)).find? (fun i => bankBad s c (w + i) 1) with
    | some i => (bankAsk s c whoQe (w + i)).1
    | none => s

/-- An arriving message or convoy packet (R239, R240). A message of several packets that is early or a duplicate is counted and answered at its
last part (log entry 128). -/
def msgPacket (s : State) (c : Nat) (p : Pkt) : State :=
  let code := msgCheck s c p
  if code = cSTALE_GEN then nackPkt (qErr (bump s (qPage c) 0xC48) c cSTALE_GEN 0x84 p.handle (p.sen + 2 ^ 32 * p.seq) 12) c p code
  else if code = cBANK_OFF then nackPkt (refusedBank s c (recSpan s c (handle s c p.handle).slot p.len)) c p code
  else if code ≠ cOK then nackPkt s c p code
  else
    let d := (p.seq + 65536 - (handle s c p.handle).exp) % 65536
    if d = 0 then (if p.npart = 0 then commitMsg s c p p.data p.poison else reassemble s c p)
    else if p.part ≠ p.npart then s
    else if d < 32768 then nackPkt (bump s (qPage c) 0xC38) c p cNOT_READY
    else ackPkt (bump s (qPage c) 0xC30) c p

/-- A reassembly buffer not complete in time (R241). -/
def reasmTimeout (s : State) (c h seq att : Nat) : State :=
  let q := qe s c
  let same := fun (r : Reasm) => r.handle == h && r.seq == seq && r.att == att
  if q.reasm.any same then
    let s := setQe s c { q with reasm := q.reasm.filter (fun r => !same r) }
    qErr (bump s (qPage c) 0xC40) c cTIMEOUT 0x83 h seq 11
  else s

/-- FLUSH (R249, R257). It frees an OPENING entry too, whose CHOPEN then waits for ever (DESIGN CHOICE, log entry 163). -/
def qFlush (s : State) (c : Nat) : State :=
  let s := endAll s c cPURGED ((qe s c).unacked ++ (qe s c).sendq)
  let q := qe s c
  setQe s c { q with reasm := [], sendq := [], unacked := [], chans := [] }

/-! ### Fabric ports (R254, R255) -/

/-- The tokens of a message for a QX port: 256 B vectors, or 4 B scalars, the last padded with zeros. -/
def qxTokens (s : State) (c len : Nat) (scalar : Bool) (ws : List DWord) (poison : Bool) : List Tok :=
  let v := natOfWords (ws.map (fun w => (w, false))) % 2 ^ (8 * len)
  if scalar then (List.range ((len + 3) / 4)).map (fun i => mkTok s c (bits v (32 * i) 32) poison)
  else (List.range ((len + 255) / 256)).map (fun i => mkTok s c (bits v (2048 * i) 2048) poison)

/-- The next whole message of a slot taken for a QX port: its tokens; the ring record or junction result stays until the last of
them has left. What a pop has left of a register queue's message goes as a message of its own (DESIGN CHOICE, log entry 162). A message whose banks are waking, or whose region waits, is not taken yet (R207, R212). -/
def qxTake (s : State) (c q : Nat) (scalar : Bool) : State × Option (List Tok) :=
  if !nonEmpty s c q then (s, none)
  else
    match qKind s c q with
    | 1 =>
      let x := slotq s c q
      match x.regq with
      | [] => (s, none)
      | e :: _ =>
        let l := e :: (x.regq.drop 1).takeWhile (fun r => !r.first)
        let len := e.len - 8 * ((e.len + 7) / 8 - l.length)
        (setSlot s c q { x with regq := x.regq.drop l.length }, some (qxTokens s c len scalar (l.map (·.word)) (l.any (·.poison))))
    | k =>
      match popSlot s c q with
      | (t, .word v p) =>
        let len := if k = 2 then bits v.toNat 32 13 else jCB s c q
        let a := qBase s c q + v.toNat % 2 ^ 22
        match banksWait s c whoQe ((List.range ((len + 7) / 8)).map (a / 8 + ·)) with
        | (s, true) => (s, none)
        | (_, false) =>
          let (t, ws) := readMsg t c a ((len + 7) / 8)
          let ws := ws.getD []
          (t, some (qxTokens t c len scalar (ws.map (·.1)) (p || ws.any (·.2))))
      | (t, .empty) => (t, none)

/-- A QX port begins a message, unless a CFGSW holds it, and emits one token (R146, R254). -/
def qxEmit (s : State) (c p : Nat) : State :=
  let w := bindWord s c (activeBuf s c) p 0
  let q := bits w 1 6
  let port := portId uQE p
  if !bit w 0 then s
  else
    let x := tget {} (qe s c).qx p
    let (s, x) :=
      if x.toks.isEmpty && !fb s (flowPage c) fFLOW_STATUS_QSTOP then
        match qxTake s c q (decide (p ≥ 4)) with
        | (s, some l) => (s, { toks := l, busy := true : QxPort })
        | (s, none) => (s, x)
      else (s, x)
    let put := fun (s : State) (x : QxPort) => setQe s c { qe s c with qx := tput (qe s c).qx p x }
    match x.toks with
    | [] => put s x
    | t :: l =>
      if credits s c port 1 then
        let s := emitTok (takeCredits s c port 1) c port t
        if l.isEmpty then
          let s := put s {}
          if qKind s c q = 2 then ringRelease s c q else if qKind s c q = 3 then jRelease s c q else s
        else put s { x with toks := l }
      else
        let s := put s x
        stallCount s c [(port, 1)]

/-- A QY port offers its gathered buffer to the send queue (R255). -/
def qyOffer (s : State) (c p : Nat) : State :=
  let b := activeBuf s c
  let w := bindWord s c b (6 + p) 0
  let i := bits w 1 10
  let len := bits w 11 13
  let size := 8 * ((len + 7) / 8)
  let y := tget {} (qe s c).qy p
  let n := max 1 (bits (bindWord s c b (6 + p) 2) 0 4)
  let put := fun (s : State) (y : QyPort) => setQe s c { qe s c with qy := tput (qe s c).qy p y }
  match enterMsg s c i len (bits (bindWord s c b (6 + p) 1) 0 23 + y.buf * size) y.id (.qy p y.buf) with
  | (s, code) =>
    if code = cNOT_READY ∧ (chan s c i).state = 2 then put s { y with full := true }
    else
      let next := { y with buf := (y.buf + 1) % n, got := 0, full := false }
      if code = cOK then put s { next with out := y.out ++ [y.buf] }
      else setOutcome (qErr (put s next) c code 0x85 i 0 13) c y.id code

/-- A QY port gathers one token, and sends its buffer once the message is whole (R255). A token whose write a bank refuses is dropped (R215, log
entry 127). -/
def qySend (s : State) (c p : Nat) : State :=
  let b := activeBuf s c
  let w := bindWord s c b (6 + p) 0
  let len := bits w 11 13
  let scalar := decide (p ≥ 4)
  let port := portId uQE p
  let y := tget {} (qe s c).qy p
  if !bit w 0 then s
  else if y.full then qyOffer s c p
  else if y.out.contains y.buf then s
  else
    match headTok s c port with
    | none => s
    | some t =>
      let size := 8 * ((len + 7) / 8)
      let base := bits (bindWord s c b (6 + p) 1) 0 23 + y.buf * size
      let a := base + 4 * y.got
      let ws := if scalar then [a / 8] else (List.range (min 32 ((size - 256 * y.got) / 8))).map (fun i => base / 8 + 32 * y.got + i)
      match askBanks s c whoQe ws with
      | (s, none, true) => s
      | (s, refused, _) =>
        let (s, id) := if y.got = 0 then issue (popTok s c port) c else (popTok s c port, y.id)
        let s :=
          if refused.isSome then s
          else if scalar then
            let hi := a / 4 % 2
            spadApply s c (a / 8) (if hi = 1 then 0xF0 else 0x0F) (BitVec.ofNat 64 (t.val % 2 ^ 32 * 2 ^ (32 * hi))) t.poison .clean
          else storeAll s c t.val t.poison ws
        let got := y.got + 1
        let s := setQe s c { qe s c with qy := tput (qe s c).qy p { tget {} (qe s c).qy p with got := got, id := id } }
        if got ≥ (if scalar then (len + 3) / 4 else (len + 255) / 256) then qyOffer s c p else s

/-- A part-gathered QY message abandoned by a PURGE ends as PURGED (R149, R185). -/
def qyPurge (s : State) (c p : Nat) : State :=
  let y := tget {} (qe s c).qy p
  if y.got = 0 then s
  else
    let i := bits (bindWord s c (activeBuf s c) (6 + p) 0) 1 10
    let s := setQe s c { qe s c with qy := tput (qe s c).qy p { y with got := 0, full := false } }
    setOutcome (qErr s c cPURGED 0x80 i (chan s c i).en 8) c y.id cPURGED

/-! ### Snapshots (R257, R287) -/

def chSnapshot (s : State) (c i : Nat) : State :=
  let h := chan s c i
  let p := qPage c
  let oldest := match (qe s c).unacked.find? (fun m => m.chan == i) with | some m => m.seq.getD h.next | none => h.next
  let en := match h.convoy with | some v => v | none => h.en
  let s := wr s p 0x54 (en % 2 ^ 22 + 2 ^ 22 * h.state)
  let s := wr s p 0x58 (h.handle + 2 ^ 10 * h.rgen + 2 ^ 16 * h.next)
  let s := wr s p 0x5C (oldest + 2 ^ 16 * (countp (·.chan == i) (qe s c).unacked) + 2 ^ 20 * (if h.state = 4 then h.code else 0))
  wr s p 0x60 (h.maxlen + 2 ^ 13 * h.kind + 2 ^ 16 * h.slot)
def hdSnapshot (s : State) (c i : Nat) : State :=
  let h := handle s c i
  wr (wr s (qPage c) 0x68 (h.en + 2 ^ 22 * h.state + 2 ^ 24 * h.slot)) (qPage c) 0x6C h.exp
def qSnapshot (s : State) (c q : Nat) : State :=
  let x := slotq s c q
  let p := qPage c
  let s := wr s p 0x78 (if qKind s c q = 1 then x.regq.length else x.used)
  wr (wr (wr s p 0x7C x.commits) p 0x80 x.tail) p 0x84 x.head
def jSnapshot (s : State) (c q : Nat) : State :=
  let x := slotq s c q
  let p := qPage c
  let b := x.jround % 2
  let added := ((List.range (jParts s c q)).map (fun i => tget 0 (jbuf x b).added i)).foldl min 4095
  let s := wr s p 0x8C (x.jround + 2 ^ 8 * x.j0.st + 2 ^ 10 * x.j1.st + 2 ^ 16 * jHave s c q b)
  wr s p 0x90 ((if jCanon s c q && (jbuf x b).st != 0 then added else 0) + 2 ^ 16 * jHave s c q (1 - b))

end Sys2Proof.Machine
end

