-- ==== Sys2Proof/Machine/JOps.lean ====
section
/-! DEFINITION. Junction queues and the binding of convoys at the queue engine (R261–R275, R285–R288). -/
namespace Sys2Proof.Machine
open Sys2Proof

/-- Elementwise addition within one 64-bit word, by format (R269, R76, R79). -/
def addWord (fmt : Nat) (a b : DWord) : DWord :=
  if fmt = 1 then
    BitVec.ofNat 64 (packCodes 16 ((List.range 4).map (fun i =>
      bf16Of (f32add (widenBf16 (bits a.toNat (16 * i) 16)) (widenBf16 (bits b.toNat (16 * i) 16))))))
  else
    let f : Word → Word → Word := if fmt = 0 then f32add else fun x y => x + y
    BitVec.ofNat 64 (packCodes 32 ((List.range 2).map (fun i =>
      (f (BitVec.ofNat 32 (bits a.toNat (32 * i) 32)) (BitVec.ofNat 32 (bits b.toNat (32 * i) 32))).toNat)))

/-- Words of part `p` of a contribution (R262). -/
def jPartWords (s : State) (c q p : Nat) : Nat := (min 512 (jCB s c q - 512 * p) + 7) / 8
/-- Bits of a word of the contribution beyond CB are zero. -/
def jMask (s : State) (c q p i : Nat) (w : DWord) : DWord :=
  let left := jCB s c q - (512 * p + 8 * i)
  if left ≥ 8 then w else BitVec.ofNat 64 (w.toNat % 2 ^ (8 * left))

/-- A word that the junction adder reads (R206, R271). -/
def jFetch (s : State) (c a : Nat) : State × DWord × Bool :=
  match spadFetch s c a .clean with
  | (s, .word v p) => (s, v, p)
  | (s, _) => (s, 0, true)
/-- Words added into the result of a part; a sum of a word that could not be read is poisoned. -/
def jAddPart (s : State) (c q b p : Nat) (ws : List (DWord × Bool)) : State :=
  (List.range (jPartWords s c q p)).foldl (fun s i =>
    let a := jResW s c q b p + i
    let r := jFetch s c a
    let w := ws.getD i (0, false)
    spadApply r.1 c a 255 (jMask s c q p i (addWord (jFmt s c q) r.2.1 w.1)) (r.2.2 || w.2) .clean) s
/-- Words of a held contribution, and their writing. -/
def jHeldPart (s : State) (c q b k p : Nat) : State × List (DWord × Bool) :=
  (List.range (jPartWords s c q p)).foldl (fun x i => let r := jFetch x.1 c (jHeldW s c q b k p + i); (r.1, x.2 ++ [r.2])) (s, [])
def jHoldPart (s : State) (c q b k p : Nat) (ws : List DWord) : State :=
  (List.range (jPartWords s c q p)).foldl (fun s i => spadApply s c (jHeldW s c q b k p + i) 255 (ws.getD i 0) false .clean) s

/-- Indices of the contributors a packet sums (R265). -/
def cmaskIdx (p : Pkt) : List Nat := ((List.range 64).filter (fun i => bit p.cmask i)).map (fun i => 64 * p.cblk + i)

/-- The bits of contributors set in a part's bitmap. -/
def jMark (s : State) (c q b p : Nat) (ks : List Nat) : State :=
  ks.foldl (fun s k =>
    let a := jMapW s c q b p + k / 64
    spadApply s c a 255 (BitVec.ofNat 64 ((spadWord (core s c) a).1.toNat ||| 2 ^ (k % 64))) false .clean) s

/-- A round starts: every bitmap clear, the result zero (R267). -/
def jStart (s : State) (c q b : Nat) : State :=
  let s := (List.range 1024).foldl (fun s i => spadApply s c (jBufAddr s c q b / 8 + i) 255 0 false .clean) s
  let x := slotq s c q
  setSlot s c q (setJbuf x b { st := 1 })

/-- A round completes (R272, R274). -/
def jComplete (s : State) (c q b tag : Nat) : State :=
  let x := slotq s c q
  let j := jbuf x b
  let s := bump (setSlot s c q { setJbuf x b { j with st := 2 } with commits := (x.commits + 1) % 2 ^ 32, tail := tag % 256 }) (qPage c) 0xC58
  let s := if j.poison then
      (List.range ((jCB s c q + 7) / 8)).foldl (fun s i => let a := jBufAddr s c q b / 8 + i; applyWord s c a (spadWord (core s c) a).1 true)
        (qErr s c cPOISON 0x86 q tag 15)
    else s
  let s := writeStat s c q
  if bit (seqr s c).wakeQ.toNat q && !fb s (qPage c) (fQENG_J_FWD_FWDEN.at q) then wakeCause s c 2 else s

/-- A round completes when every contributor has been added (R268, R270, R272). -/
def jSettle (s : State) (c q b : Nat) : State :=
  let x := slotq s c q
  let j := jbuf x b
  let whole := if jCanon s c q then (List.range (jParts s c q)).all (fun p => decide (tget 0 j.added p ≥ jCount s c q))
    else decide (jHave s c q b = jCount s c q)
  if j.st = 1 && whole then jComplete s c q b (jTag x b) else s

/-- In CANONICAL mode the next contributor of a part is added once its part is held (R270). -/
def jAdd (s : State) (c q b p : Nat) : State :=
  let x := slotq s c q
  let j := jbuf x b
  let k := tget 0 j.added p
  if qKind s c q = 3 ∧ jCanon s c q ∧ j.st = 1 ∧ p < jParts s c q ∧ k < jCount s c q ∧ jHas s c q b p k then
    let r := jHeldPart s c q b k p
    let s := jAddPart r.1 c q b p r.2
    let x := slotq s c q
    let j := jbuf x b
    jSettle (setSlot s c q (setJbuf x b { j with added := tput j.added p (k + 1) })) c q b
  else s

/-- One response to each contributor, by the EN of its handle; a refusal says whether the packet was merged on its way (R273, R277, log
entry 129). -/
def jRespond (s : State) (c q : Nat) (p : Pkt) (code : Nat) (ks : List Nat) : State :=
  ks.foldl (fun s k =>
    match idxBound s c q k with
    | none => s
    | some i =>
      let h := handle s c i
      let s := if code = cOK then s else bump s (qPage c) 0xC20
      inject s c { mkPkt s c 3 1 h.en with ctag := h.ctag, sidx := h.sidx, code := code, att := p.att, part := p.part, seq := p.seq % 256, look := true, merged := p.merged && code != cOK }) s

/-- The first failing check of a junction packet (R239, R266). -/
def jCheck (s : State) (c : Nat) (p : Pkt) : Nat :=
  let h := handle s c p.handle
  let q := h.slot
  let held := h.state == 1 && h.en == p.sen
  let n := max 1 ((p.len + 511) / 512)
  let ks := cmaskIdx p
  let maskOk := !ks.isEmpty && ks.all (fun k => decide (k < jCount s c q) && (idxBound s c q k).isSome) &&
    (p.merged || ks == [h.idx]) && !(p.merged && jCanon s c q)
  let b := p.seq % 2
  if p.auth = 2 then cDENIED
  else if held && !(qKind s c q == 3 && decide (p.len = jCB s c q) && decide (p.part ≤ p.npart) && decide (p.npart = n - 1) && maskOk) then cRANGE
  else if !(qBound s c && p.rgen == qGen s c) then cSTALE_GEN
  else if coreClosed s c then cCLOSURE
  else if held && (bankBad s c (jResW s c q b p.part) 64 || bankBad s c (jMapW s c q b p.part) 64) then cBANK_OFF
  else if h.state = 0 ∨ h.en ≠ p.sen then cNO_CHANNEL
  else if h.state = 2 ∨ !qOpen s c q then cCLOSED
  else if (core s c).frozen then cNOT_READY
  else cOK

/-- A refused junction packet is answered to every contributor in it, or to its sender (R266, R277). Where a contributor has no BOUND handle, the
packet's own record of whom it sums says where the answers go (log entry 129). -/
def jRefuse (s : State) (c : Nat) (p : Pkt) (code : Nat) : State :=
  let h := handle s c p.handle
  let p := { p with seq := p.seq % 256 }
  if !p.merged then nackPkt s c p code
  else if h.state = 1 ∧ (cmaskIdx p).all (fun k => (idxBound s c h.slot k).isSome) then jRespond s c h.slot p code (cmaskIdx p)
  else (contributors p).foldl (fun s q => nackPkt s c q code) s

/-- A junction packet (R267–R270); a contributor whose every part is applied joins the senders the gridlock detector follows (R272). -/
def junctionPacket (s : State) (c : Nat) (p : Pkt) : State :=
  let q := (handle s c p.handle).slot
  let s := if p.merged then bump s (qPage c) 0xC68 else s
  let code := jCheck s c p
  if code = cRANGE then jRefuse (qErr s c cRANGE 0x87 q (p.seq % 256) 15) c p code
  else if code = cSTALE_GEN then jRefuse (qErr (bump s (qPage c) 0xC48) c cSTALE_GEN 0x84 p.handle (p.sen + 2 ^ 32 * p.seq) 12) c p code
  else if code ≠ cOK then jRefuse s c p code
  else
    let x := slotq s c q
    let t := p.seq % 256
    let d := (t + 256 - x.jround) % 256
    let b := t % 2
    let ks := cmaskIdx p
    if d ≥ 128 then jRespond (bump s (qPage c) 0xC70) c q p cOK ks
    else if d ≥ 2 then jRespond (bump s (qPage c) 0xC80) c q p cNOT_READY ks
    else if (jbuf x b).st = 2 then jRespond (bump s (qPage c) 0xC70) c q p cOK ks
    else
      let s := if (jbuf x b).st = 0 then jStart s c q b else s
      let inB := ks.filter (fun k => jHas s c q b p.part k)
      if inB.length = ks.length then jRespond (bump s (qPage c) 0xC70) c q p cOK ks
      else if !inB.isEmpty then
        let out := ks.filter (fun k => !inB.contains k)
        jRespond (jRespond (bump s (qPage c) 0xC78) c q p cOK inB) c q p cNOT_READY out
      else
        let s := if jCanon s c q then jHoldPart s c q b (ks.headD 0) p.part p.data else jAddPart s c q b p.part (p.data.map (·, false))
        let s := jMark s c q b p.part ks
        let x := slotq s c q
        let j := jbuf x b
        let whole := ks.filter (fun k => (List.range (jParts s c q)).all (fun r => jHas s c q b r k))
        let ens := whole.filterMap (fun k => (idxBound s c q k).map (fun i => (handle s c i).en))
        let s := setSlot s c q { setJbuf x b { j with poison := j.poison || p.poison } with senders := (ens ++ x.senders).take 16 }
        let s := bumpBy s (qPage c) 0xC60 ks.length
        let s := jRespond s c q p cOK ks
        if jCanon s c q then s else jSettle s c q b

/-- A completed round's result entered as a message of FWDCH, in round order (R274). -/
def jForward (s : State) (c q : Nat) : State :=
  let x := slotq s c q
  let now := jbuf x x.jround
  let nxt := jbuf x (x.jround + 1)
  let b := if now.st = 2 && now.fwd.isNone then some (x.jround % 2) else if now.fwd.isSome && nxt.st == 2 && nxt.fwd.isNone then some ((x.jround + 1) % 2) else none
  match b with
  | none => s
  | some b =>
    if qKind s c q ≠ 3 || !fb s (qPage c) (fQENG_J_FWD_FWDEN.at q) then s
    else
      let ch := fd s (qPage c) (fQENG_J_FWD_FWDCH.at q)
      let id := (seqr s c).nextId
      let s := setSeq s c { seqr s c with nextId := id + 1 }
      match enterMsg s c ch (jCB s c q) (jBufAddr s c q b) id (.fwd q b) with
      | (s, code) =>
        if code = cOK then
          let x := slotq s c q
          setSlot s c q (setJbuf x b { jbuf x b with fwd := some id })
        else if code = cNOT_READY ∧ (chan s c ch).state = 2 then s
        else jFwdEnd (qErr s c code 0x86 q (jTag x b) 15) c q b

/-- A commit of QENG_CV_BIND (R285, R288). -/
def cvBind (s : State) (c lo hi : Nat) : State :=
  let i := bits lo 0 10
  let num := bits lo 10 8
  let q := bits lo 18 6
  if !bit lo 24 then
    if bit lo 25 then
      let h := chan s c i
      if h.state = 2 then closeSettle (setChan s c i { h with state := 3, gone := true }) c i else (chClose s c i).1
    else
      let v := selfDev s (c / 144) * 256 + num
      if (chan s c i).state ≠ 0 then qErr s c cNOT_READY 0x88 i v 16
      else setChan s c i { state := 2, maxlen := 512, convoy := some v }
  else if bit lo 25 then setHandle s c i { handle s c i with state := 2 }
  else if !((qKind s c q == 1 || qKind s c q == 2) && qOpen s c q) then qErr s c cRANGE 0x88 i 0 16
  else if (handle s c i).state ≠ 0 then qErr s c cNOT_READY 0x88 i 0 16
  else setHandle s c i { state := 1, en := hi % 2 ^ 22, slot := q, conv := true }

end Sys2Proof.Machine
end

