-- ==== Sys2Proof/Machine/RtOps.lean ====
section
/-! DEFINITION. The carriageway: packets, routers, die switches, signposts, epochs, convoys, merging (R276–R317). -/
namespace Sys2Proof.Machine
open Sys2Proof

def rout (s : State) (c : Nat) : Rout := (core s c).rt
def setRout (s : State) (c : Nat) (r : Rout) : State := setCore s c { core s c with rt := r }
def net (s : State) (d : Nat) : DieNet := tget {} s.nets d
def setNet (s : State) (d : Nat) (n : DieNet) : State := { s with nets := tput s.nets d n }
def rPage (c : Nat) : PageId := corePage .rout c
/-- The SIGN page a die goes by: its own, or that of H on a port die (R324). -/
def signPage (d : Nat) : PageId := diePage .sign (if d < 9 then d else 8)
/-- Whether a bank of the routing tables is retired (R312, R315). -/
def retired (s : State) (d b : Nat) : Bool := fb s (signPage d) (fSIGN_EPCTL_RETIRE0.sub (b % 2))

/-! ### Packets -/

/-- Payload bytes of a packet (R295). -/
def payload (p : Pkt) : Nat :=
  match p.type with
  | 0 => min p.len (512 * p.part + 512) - 512 * p.part
  | 1 => min p.len (512 * p.part + 512) - 512 * p.part
  | 2 => p.len
  | 9 => p.rlen
  | 10 => p.rlen
  | 13 => p.rlen
  | 14 => 4 * p.rlen
  | _ => 0
/-- Beats of a packet (R294). -/
def beats (p : Pkt) : Nat := (32 + payload p + 127) / 128
/-- The virtual channel of a type (R295); none for a reserved type. -/
def typeVc (t : Nat) : Option Nat :=
  match t with
  | 0 => some 3 | 1 => some 2 | 2 => some 3 | 3 => some 1 | 4 => some 0 | 5 => some 1 | 8 => some 0 | 9 => some 1
  | 10 => some 3 | 11 => some 1 | _ => none
/-- A header that is dropped as uncorrectable ones are: wrong channel, or AUTH 3 (R295, R656). -/
def badHeader (p : Pkt) : Bool := typeVc p.type != some p.vc || p.auth == 3
/-- Word 0 bits [31:0] of a header (R294). -/
def hdrLow (p : Pkt) : Nat :=
  p.type + 2 ^ 4 * p.vc + 2 ^ 6 * p.sepoch + 2 ^ 7 * p.xepoch + 2 ^ 8 * p.ddev + 2 ^ 18 * p.ddie + 2 ^ 22 * p.dunit + 2 ^ 30 * (p.sdev % 4)
def pktAddr (p : Pkt) : Nat := p.den + 2 ^ 32 * hdrLow p
/-- A capture about a packet (R326, R402). -/
def pktErr (s : State) (pg : PageId) (source detail : Nat) (p : Pkt) (int : Nat) : State :=
  raiseInt (errAt s pg cRANGE source detail (pktAddr p) p.ctag) pg int

/-- The refusal with which a packet is answered in place of its unit; none for a response (R304). -/
def refusal (p : Pkt) (code : Nat) : Option Pkt :=
  let a : Pkt := { vc := 1, ddev := p.sdev, ddie := p.sdie, dunit := p.sunit, sdie := p.ddie, sunit := p.dunit, sdev := p.ddev, den := p.sen, sen := p.den, ctag := p.ctag, code := code }
  match p.type with
  | 0 => some { a with type := 3, seq := p.seq, att := p.att, part := p.part, sidx := p.sidx }
  | 1 => some { a with type := 3, seq := p.seq % 256, att := p.att, part := p.part, sidx := p.sidx }
  | 2 => some { a with type := 3, seq := p.seq, att := p.att, part := p.part, sidx := p.sidx, conv := true, cvid := p.cvid }
  | 4 => some { a with type := 5, sidx := p.sidx }
  | 8 => some { a with type := 9, rid := p.rid }
  | 10 => some { a with type := 11, rid := p.rid }
  | _ => none

/-- The answers to a packet: to its sender, and to every contributor merged into it (R277). -/
def refusals (p : Pkt) (code : Nat) : List Pkt :=
  (contributors p).filterMap (fun q =>
    (refusal q code).map (fun a => { a with merged := p.merged }))

/-! ### Epoch counts and injection (R313, R314) -/

/-- A unit's count of an epoch goes up, or down. -/
def epAdd (s : State) (d u b : Nat) (up : Bool) : State :=
  let step := if up then 1 else 2 ^ 32 - 1
  if d < 8 ∧ u < 144 then
    let off := 0x58 + 4 * (b % 2)
    wr s (rPage (144 * d + u)) off ((rd s (rPage (144 * d + u)) off + step) % 2 ^ 32)
  else
    let n := net s d
    setNet s d { n with ep := tput n.ep (b % 2) (tget 0 n.ep (b % 2) + BitVec.ofNat 32 step) }
/-- A packet ends at a unit. -/
def epEnd (s : State) (d u : Nat) (p : Pkt) : State := epAdd s d u p.sepoch false
/-- The injection epoch of a source interface; a die switch's own answers, from 0xFF, go under the epoch of its SIGN page (R313, R324). -/
def injEpoch (s : State) (d u : Nat) : Nat :=
  if d < 8 ∧ u < 144 then fd s (rPage (144 * d + u)) fROUT_STATUS_INJ_EPOCH
  else if u = 0xFF then fd s (signPage d) fSIGN_STATUS_INJ_EPOCH
  else tget 0 (net s d).inj u

/-! ### Buffers (R24, R297, R298) -/

def bufSize (vc : Nat) : Nat := if vc < 2 then 16 else 24
/-- Beats of packets. -/
def beatsOf (l : List Pkt) : Nat := (l.map beats).sum
/-- The packets of an input of a die's switch on a virtual channel. What a source interface has still to send stands behind what the buffer of
its input holds (log entry 131). -/
def swBuf (s : State) (d inp vc : Nat) : List Pkt := (net s d).sw.filter (fun p => p.via == inp && p.vc == vc)
def swFree (s : State) (d inp vc : Nat) : Nat := bufSize vc - beatsOf (swBuf s d inp vc)
/-- The sender of this input sees ON: at least 12 beats are free. -/
def swOn (s : State) (d inp vc : Nat) : Bool := decide (12 ≤ swFree s d inp vc)
/-- The input of a lane of a bridge: side of the die, place of the bridge on the side, lane of 20 (R16, R297). -/
def laneIn (side b lane : Nat) : Nat := 1024 + 128 * side + 32 * b + lane
/-- The first lane of a bridge that sees ON at the far die. -/
def laneOn (s : State) (d side b vc : Nat) : Option Nat := ((List.range 20).map (laneIn side b)).find? (fun i => swOn s d i vc)
/-- A packet enters a die switch by an input. -/
def swPush (s : State) (d inp : Nat) (p : Pkt) : State := setNet s d { net s d with sw := (net s d).sw ++ [{ p with via := inp }] }
/-! ### Routers (R297–R299, R302, R304) -/

def bufOf (s : State) (c port vc : Nat) : List Pkt := tget [] (rout s c).bufs (4 * port + vc)
def bufFree (s : State) (c port vc : Nat) : Nat := bufSize vc - beatsOf (bufOf s c port vc)
/-- An input's buffer that holds more than its size is out of balance; behind the core's own input stands what its source interface has still
to send (R24, R25, log entry 131). -/
def routBooks (s : State) (c port vc : Nat) : State := if port = 0 ∨ beatsOf (bufOf s c port vc) ≤ bufSize vc then s else booksLost s .rout c
/-- So is a bridge lane's, captured at the side's page; behind a die switch's other inputs stands what its sources have still to send (R25, log
entries 131 and 143). -/
def swBooks (s : State) (d : Nat) (p : Pkt) : State :=
  if p.via < 1024 ∨ beatsOf (swBuf s d p.via p.vc) ≤ bufSize p.vc then s
  else
    let pg : PageId := ⟨.brdg, d, (p.via - 1024) / 128⟩
    errAt s pg cRANGE (freeSource pg.no 0 cRANGE) (freeDetail pg.no 0 cRANGE) 0 0
/-- The sender of this input sees ON: at least 12 beats are free. -/
def bufOn (s : State) (c port vc : Nat) : Bool := decide (12 ≤ bufFree s c port vc)
def setBuf (s : State) (c port vc : Nat) (l : List Pkt) : State :=
  let r := rout s c
  setRout s c { r with bufs := if l.isEmpty then tdel r.bufs (4 * port + vc) else tput r.bufs (4 * port + vc) l }
def bufPush (s : State) (c port : Nat) (p : Pkt) : State := setBuf s c port p.vc (bufOf s c port p.vc ++ [p])
/-- A packet enters an input of a router; at a closed router, whose mesh ports are idle, it is lost and keeps its count (R317, R467, R468). -/
def meshPush (s : State) (c port : Nat) (p : Pkt) : State := if closed s (cmRouter c) then s else bufPush s c port p

/-- A packet of a core leaves into the mesh: it is for a core of the die (R302). -/
def toMesh (s : State) (c : Nat) (p : Pkt) : Bool := p.ddev == selfDev s (c / 144) && p.ddie == c / 144 && decide (p.dunit < 144)
/-- A unit's source interface injects a packet: a core's into its mesh toward a core of its die, every other by its switch port (R302, R313). -/
def sendFrom (s : State) (d u : Nat) (p : Pkt) : State :=
  let e := injEpoch s d u
  let s := epAdd s d u e true
  let q := { p with sepoch := e, auth := 0 }
  if d < 8 ∧ u < 144 ∧ toMesh s (144 * d + u) p then bufPush s (144 * d + u) 0 q else swPush s d u q

/-- A refusal sent from a place of a die. -/
def answerFrom (s : State) (d u : Nat) (p : Pkt) (code : Nat) : State := (refusals p code).foldl (fun s a => sendFrom s d u a) s

/-- Two packets of one flow: one virtual channel, destination and epoch, and a source in common, that of a packet merged into one among them
(R277, R301). -/
def sameFlow (p q : Pkt) : Bool :=
  p.vc == q.vc && p.ddev == q.ddev && p.ddie == q.ddie && p.dunit == q.dunit && p.sepoch == q.sepoch &&
  (contributors p).any (fun a => (contributors q).any (fun b => a.sdev == b.sdev && a.sdie == b.sdie && a.sunit == b.sunit))

/-- A packet that waits for an output: its virtual channel, the input it waits at (at a switch output toward a bridge or a slice its source unit,
R305), and whether it has waited 64 cycles. -/
structure ArbReq where
  vc : Nat
  src : Nat
  aged : Bool
  deriving DecidableEq, Repr

/-- Where a request stands in the order of an output: responses, then what has aged, then the rotation among virtual channels and among
sources within one (R299). The rotation of an output's channel `vc` stands at key 8·output + vc of `turn`, that among channels at key
8·output + 4: what was served last comes last (log entry 126). -/
def arbPlace (turn : Tbl Nat) (out : Nat) (r : ArbReq) : Nat :=
  let n := 2 ^ 16
  let src := (r.src + n - 1 - tget (n - 1) turn (8 * out + r.vc) % n) % n
  let vc := (r.vc + 3 - tget 3 turn (8 * out + 4)) % 4
  if r.vc = 1 then src else (if r.aged then 1 else 2) * 2 ^ 20 + vc * n + src
/-- Whether an output serves a request before all others that wait for it. -/
def arbWins (turn : Tbl Nat) (out : Nat) (r : ArbReq) (all : List ArbReq) : Bool := all.all (fun q => decide (arbPlace turn out r ≤ arbPlace turn out q))
/-- The rotations after an output has served a request. -/
def arbTurn (turn : Tbl Nat) (out : Nat) (r : ArbReq) : Tbl Nat :=
  let t := tput turn (8 * out + r.vc) (r.src % 2 ^ 16)
  if r.vc = 1 then t else tput t (8 * out + 4) r.vc

/-- The output dimension order chooses at router `n` for core `m`: 0 local, 1 north, 2 east, 3 south, 4 west. -/
def meshDir (n m : Nat) : Nat :=
  if m % 12 > n % 12 then 2 else if m % 12 < n % 12 then 4 else if m / 12 > n / 12 then 3 else if m / 12 < n / 12 then 1 else 0
/-- The router a mesh output leads to, and the input it enters. -/
def meshNext (c dir : Nat) : Nat × Nat :=
  match dir with
  | 1 => (c - 12, 3) | 2 => (c + 1, 4) | 3 => (c + 12, 1) | _ => (c - 1, 2)
/-- The detour bit of an output under a bank. -/
def detoured (s : State) (c bank dir : Nat) : Bool := bit (fd s (rPage c) (if bank % 2 = 0 then fROUT_DETOUR_DET0 else fROUT_DETOUR_DET1)) (dir - 1)
/-- A core that is closed or OFF. -/
def coreGone (s : State) (c : Nat) : Bool := coreClosed s c || cstate s c == 2

/-- The core a packet is for is the router's own. -/
def isHere (s : State) (c : Nat) (p : Pkt) : Bool := p.ddev == selfDev s (c / 144) && p.ddie == c / 144 && p.dunit == c % 144

/-- A core answers a packet with a code from its router (R304). -/
def closureAnswer (s : State) (c : Nat) (p : Pkt) : State :=
  let s := epEnd (bump s (rPage c) 0xC28) (c / 144) (c % 144) p
  answerFrom s (c / 144) (c % 144) p cCLOSURE

/-- A router ejects a packet to its core (R304, R505). -/
def eject (s : State) (c : Nat) (p : Pkt) : State :=
  let resp := p.type == 3 || p.type == 5 || p.type == 9 || p.type == 11
  let d := c / 144
  let u := c % 144
  if coreGone s c then (if resp then epEnd s d u p else closureAnswer s c p)
  else if (p.type == 0 || p.type == 1 || p.type == 4) && p.den != coreEn s c then closureAnswer s c p
  else if (p.type == 9 || p.type == 11) && p.ctag != rd s (corePage .core c) 0xC % 65536 then bump (epEnd s d u p) (diePage .die d) 0xC18
  else
    let s := epEnd s d u p
    setRout s c { rout s c with arr := (rout s c).arr ++ [p] }

/-- A packet the core's endpoint takes leaves the router. -/
def takePkt (s : State) (c : Nat) (p : Pkt) : State := setRout s c { rout s c with arr := (rout s c).arr.erase p }

/-- A router ejects to its core what it answers for, a response, and what the core's endpoint has room for (R297, R300). -/
def arrOn (s : State) (c : Nat) (p : Pkt) : Bool :=
  p.vc == 1 || coreGone s c || decide (12 ≤ bufSize p.vc - beatsOf ((rout s c).arr.filter (fun q => q.vc == p.vc)))
/-- Where a router's packet goes next: its output, and whether that output takes it; a packet is held only where it does not, or where the output
serves another (R292). -/
def routerOut (s : State) (c : Nat) (p : Pkt) : Nat × Bool :=
  let dir := meshDir (c % 144) p.dunit
  if dir = 0 then (0, true)
  else if detoured s c p.sepoch dir then (5, swOn s (c / 144) (c % 144) p.vc)
  else (dir, bufOn s (meshNext c dir).1 (meshNext c dir).2 p.vc)
/-- The output of a packet at an input of a router, 0 being its core. -/
def routerTo (s : State) (c inp : Nat) (p : Pkt) : Nat × Bool := if isHere s c p || inp == 5 then (0, arrOn s c p) else routerOut s c p
/-- A packet at an input waits behind a held one of its flow (R301). -/
def behindHeld (s : State) (c inp : Nat) (p : Pkt) : Bool := inp != 6 && (rout s c).held.any (sameFlow p)
/-- Inputs of a router and their virtual channels that hold a packet, with the packet each may forward; input 6 stands for the packets held for
merging, of which the first that its output takes may leave (R277). -/
def routerHeads (s : State) (c : Nat) : List (Nat × Nat × Pkt) :=
  let ins := (List.range 24).filterMap (fun i => (bufOf s c (i / 4) (i % 4)).head?.map (fun p => (i / 4, i % 4, p)))
  let held := (rout s c).held
  ins ++ ((held.find? (fun p => (routerOut s c p).2)).or held.head?).toList.map (fun p => (6, 2, p))
/-- The output serves the packet of an input before the others that wait for it and that it could take; `aged` are inputs, as 4·input + virtual
channel, whose packet has waited 64 cycles (R299). -/
def routerTurn (s : State) (c inp vc out : Nat) (aged : List Nat) : Bool :=
  let req := fun (i v : Nat) => ({ vc := v, src := i, aged := aged.contains (4 * i + v) } : ArbReq)
  let rivals := (routerHeads s c).filter (fun h => routerTo s c h.1 h.2.2 == (out, true) && !behindHeld s c h.1 h.2.2 && !badHeader h.2.2 && !retired s (c / 144) h.2.2.sepoch &&
    !(out == 0 && h.2.2.type == 2 && !coreGone s c))
  arbWins (rout s c).turn out (req inp vc) (rivals.map (fun h => req h.1 h.2.1))

/-- A router forwards the packet at the head of an input, or a held packet (`inp` 6), where its output serves it next: `h` and `y` are what the
link code found in a header and a payload word. A convoy packet for this router stays until CONVOY_PACKET serves it. -/
def routerForward (s : State) (c inp vc : Nat) (aged : List Nat) (h y : Ecc) : State :=
  let pg := rPage c
  match (routerHeads s c).find? (fun e => e.1 == inp && e.2.1 == (if inp = 6 then 2 else vc)) with
  | none => s
  | some (_, v, p) =>
    let drop := fun (s : State) => if inp = 6 then setRout s c { rout s c with held := (rout s c).held.erase p } else setBuf s c inp v (bufOf s c inp v).tail
    let (h, y) := (eccBy 1 h, eccBy 1 y)
    let n := b2n (h == .corrected) + b2n (y == .corrected)
    let port := if inp = 6 then p.via else inp
    if h == .uncorrectable then pktErr (epEnd (bump (drop s) pg 0xC18) (c / 144) (c % 144) p) pg 0x92 port { den := 0 } 9
    else
      let q := { (if y == .uncorrectable then { p with poison := true } else p) with via := 0 }
      if badHeader p then pktErr (epEnd (bump (drop (bumpBy s pg 0xC20 n)) pg 0xC18) (c / 144) (c % 144) q) pg 0x92 port q 9
      else if retired s (c / 144) p.sepoch then pktErr (epEnd (bump (drop (bumpBy s pg 0xC20 n)) pg 0xC10) (c / 144) (c % 144) q) pg 0x90 port q 8
      else
        let (out, on) := routerTo s c inp p
        if out = 0 ∧ p.type = 2 ∧ !coreGone s c then s
        else if !on then bump s pg 0xC40
        else if behindHeld s c inp p then s
        else if !routerTurn s c inp v out aged then s
        else
          let served := arbTurn (rout s c).turn out { vc := v, src := inp, aged := false }
          let s := drop (bumpBy s pg 0xC20 n)
          let s := setRout s c { rout s c with turn := served }
          match out with
          | 0 => eject s c q
          | 5 => swPush (bump (bump s pg 0xC08) pg 0xC00) (c / 144) (c % 144) q
          | dir => meshPush (bump s pg 0xC00) (meshNext c dir).1 (meshNext c dir).2 q

/-! ### Merging (R276, R277) -/

/-- Two packets merge. -/
def mergeable (a b : Pkt) : Bool :=
  a.dunit == b.dunit && a.slot == b.slot && a.rgen == b.rgen && a.seq % 256 == b.seq % 256 && a.part == b.part && a.cblk == b.cblk &&
  a.fmt == b.fmt && a.cmask &&& b.cmask == 0
def mergePkt (a b : Pkt) : Pkt :=
  { a with also := a.also ++ [{ sdev := b.sdev, sdie := b.sdie, sunit := b.sunit, sen := b.sen, sidx := b.sidx, ctag := b.ctag, att := b.att }] ++ b.also
           cmask := a.cmask ||| b.cmask, poison := a.poison || b.poison, merged := true, data := List.zipWith (addWord a.fmt) a.data b.data }

/-- The waiting junction packet at the head of an input is added into a held one, behind which none of its flow is held, or held (R277, R301). -/
def routerMerge (s : State) (c inp : Nat) : State :=
  match bufOf s c inp 2 with
  | [] => s
  | p :: l =>
    let r := rout s c
    if !(p.type == 1 && p.ddie == c / 144 && p.ddev == selfDev s (c / 144)) || isHere s c p || (routerOut s c p).2 then s
    else
      match r.held.findIdx? (fun h => mergeable h p) with
      | some i =>
        if p.merge && !(r.held.drop (i + 1)).any (sameFlow p) then
          let s := setBuf s c inp 2 l
          let s := setRout s c { rout s c with held := lmod (fun h => mergePkt h p) r.held i }
          bump (epEnd s (c / 144) (c % 144) p) (rPage c) 0xC48
        else s
      | none =>
        if p.merge && decide (r.held.length < 8) then
          let s := setBuf s c inp 2 l
          setRout s c { rout s c with held := r.held ++ [{ p with via := inp }] }
        else s

/-! ### Signposts (R307–R310) -/

def setOfEn (en : Nat) : Nat := Nat.xor (en % 1024) (en / 1024 % 1024)
def cacheLook (s : State) (c en : Nat) : Option SpEnt := (tget [] (rout s c).cache (setOfEn en)).find? (·.en == en)
/-- An entry becomes the most recently used of its set; the least recently used of more than four leaves. -/
def cacheTouch (s : State) (c : Nat) (e : SpEnt) : State :=
  let r := rout s c
  let l := (tget [] r.cache (setOfEn e.en)).filter (·.en != e.en)
  setRout s c { r with cache := tput r.cache (setOfEn e.en) ((e :: l).take 4) }
/-- An EN leaves the cache, as its sender's refusal with CLOSURE and an invalidation have it (R310, R311). -/
def cacheDrop (s : State) (c : Nat) (p : Nat → Bool) : State :=
  let r := rout s c
  setRout s c { r with cache := tfilter (fun _ l => !l.isEmpty) (tmap (fun _ l => l.filter (fun e => !p e.en)) r.cache), miss := r.miss.map (fun m => if p m.en then { m with again := true } else m) }
/-- An invalidation matches an EN. -/
def castHits (k : Cast) (en : Nat) : Bool := k.all || en / 2 ^ k.ignore == k.base / 2 ^ k.ignore

/-- A packet is named by EN, so a signpost gives its place; so is a junction's response (R273). -/
def byEn (p : Pkt) : Bool := p.type == 0 || p.type == 1 || p.type == 4 || p.look

/-- A packet as its source interface sends it, with the place its signpost gives; none while the signpost is not held (R308, R313). -/
def launchPkt (s : State) (c : Nat) (p : Pkt) : Option Pkt :=
  let d := c / 144
  let sent := fun (p : Pkt) => { p with sepoch := injEpoch s d (c % 144), auth := 0 }
  if byEn p then (cacheLook s c p.den).map (fun e => sent { p with ddev := e.ddev, ddie := e.ddie, dunit := e.dunit, exit := e.exit, look := false, missed := false })
  else some (sent (if p.type = 2 then { p with ddev := selfDev s d, ddie := d, dunit := c % 144 } else p))
/-- The input a packet leaves for sees ON. -/
def launchOn (s : State) (c : Nat) (p : Pkt) : Bool := if toMesh s c p then bufOn s c 0 p.vc else swOn s (c / 144) (c % 144) p.vc

/-- The first packet of a source interface that may leave: its signpost is held, or it needs none, and its virtual channel sees ON; one that
waits holds up no other channel (R300, R308; log entry 131). -/
def launchable (s : State) (c : Nat) : Option (Nat × Pkt) :=
  let q := (qe s c).inj
  (List.range q.length).findSome? (fun i => q[i]?.bind (fun p => (launchPkt s c p).bind (fun h => if launchOn s c h then some (i, p) else none)))

/-- PACKET_LAUNCH (R298, R302, R308, R313, R314). -/
def packetLaunch (s : State) (c : Nat) : State :=
  match launchable s c with
  | none => s
  | some (i, p) =>
    let d := c / 144
    let t := match (if byEn p then cacheLook s c p.den else none) with
      | some e => if p.missed then cacheTouch s c e else bump (cacheTouch s c e) (rPage c) 0xC30
      | none => s
    let h := (launchPkt s c p).getD p
    let t := epAdd (setQe t c { qe t c with inj := (qe t c).inj.eraseIdx i }) d (c % 144) h.sepoch true
    if toMesh s c h then bufPush t c 0 h else swPush t d (c % 144) h

/-- The EN of the first held packet without a walk under way. -/
def missEn (s : State) (c : Nat) : Option Nat :=
  ((qe s c).inj.find? (fun p => byEn p && (cacheLook s c p.den).isNone && !(rout s c).miss.any (·.en == p.den))).map (·.den)

/-- The packet whose lookup has missed; its launch is then no hit (R327). -/
def markMissed (l : List Pkt) (en : Nat) : List Pkt :=
  match l.findIdx? (fun p => byEn p && p.den == en) with
  | some i => lmod (fun p => { p with missed := true }) l i
  | none => l
/-- SIGNPOST_MISS: at most 4 misses of an interface, at most 32 walks of a walker, misses for one EN merged. -/
def signpostMiss (s : State) (c : Nat) : State :=
  match missEn s c with
  | none => s
  | some en =>
    let n := net s (c / 144)
    if (rout s c).miss.length ≥ 4 ∨ (n.walks.length ≥ 32 ∧ !n.walks.contains en) then s
    else
      let s := setRout s c { rout s c with miss := (rout s c).miss ++ [{ en := en }] }
      let s := setQe s c { qe s c with inj := markMissed (qe s c).inj en }
      let s := if n.walks.contains en then s else setNet s (c / 144) { n with walks := n.walks ++ [en] }
      bump s (rPage c) 0xC38

/-! ### Epoch flips and retiring (R315) -/

def signDies : List Nat := List.range 9
/-- A field of every SIGN page. -/
def signAll (s : State) (f : FRef) (v : Nat) : State := signDies.foldl (fun s d => fdSet s (diePage .sign d) f v) s
def retireBank (s : State) (b : Nat) : State := signAll s (fSIGN_EPCTL_RETIRE0.sub b) 1
/-- A refusal for a bank that is not retired, or of a flip (R315). -/
def bankRefused (s : State) (pg : PageId) (off int : Nat) : State := raiseInt (errAt s pg cNOT_READY 0x93 off 0 (pageTag s pg)) pg int

/-- A write of SIGN_FLIP that starts a flip: none is under way and the other bank is retired. -/
def flipTaken (s : State) (d v : Nat) : Bool := bit v 1 && s.flip.isNone && retired s d (1 - fd s (diePage .sign d) fSIGN_STATUS_INJ_EPOCH)
/-- A write of SIGN_FLIP on a die's page. -/
def epochFlip (s : State) (d v : Nat) : State :=
  if !bit v 1 then s
  else if !flipTaken s d v then bankRefused s (diePage .sign d) 0x50 10
  else
    let e := v % 2
    let s := signAll (signAll s (fSIGN_EPCTL_RETIRE0.sub e) 0) fSIGN_STATUS_INJ_EPOCH e
    { s with flip := some { die := d, epoch := e, since := s.now } }

/-- A write of SIGN_INVAL: one more invalidation is sent. -/
def signpostInvalidate (s : State) (d v : Nat) : State :=
  if !bit v 31 then s
  else { s with inval := s.inval ++ [{ die := d, base := v % 2 ^ 22, ignore := bits v 22 5, all := bit v 27, since := s.now }] }

/-- The source interfaces of the module, as 256·die + unit (R291, R313): whatever injects packets, the slices, die controllers and signpost
walkers of compute dies among them (log entry 132). -/
def interfaces : List Nat :=
  (List.range 1152).map (fun c => 256 * (c / 144) + c % 144) ++
  (List.range 8).flatMap (fun d => ((List.range 64).map (0xA0 + ·) ++ [0xE0, 0xE1, 0xE8]).map (256 * d + ·)) ++ [0x8E0, 0x8E1, 0x8E2, 0x8E3, 0x8E8, 0x8F0, 0x8F1, 0x8F2] ++
  ((List.range 20).map (fun i => 0x980 + i)) ++ [0x9E0] ++ ((List.range 20).map (fun i => 0xA80 + i)) ++ [0xAE0]
/-- Every interface has acknowledged; those of closed dies are not there. -/
def acked (s : State) (k : Cast) : Bool := interfaces.all (fun i => tget false k.acks i || closed s (cmDie (i / 256)))

/-- A source interface receives a flip (R313). -/
def flipAt (s : State) (d u e : Nat) : State :=
  if d < 8 ∧ u < 144 then fdSet s (rPage (144 * d + u)) fROUT_STATUS_INJ_EPOCH e
  else setNet s d { net s d with inj := tput (net s d).inj u e }

/-- The signed sum of a die's counters of an epoch (R314). -/
def epSum (s : State) (d b : Nat) : Nat :=
  let cores := if d < 8 then ((List.range 144).map (fun n => rd s (rPage (144 * d + n)) (0x58 + 4 * b))).sum else 0
  (cores + (tget 0 (net s d).ep b).toNat) % 2 ^ 32

/-! ### The die switch (R293, R303) -/

/-- What lies across a side of a die, with the side of that die the bridge enters; the sides of H and of a port die are their BRDG
instances (R16, R60). -/
def across (d side : Nat) : Option (Nat × Nat) :=
  if d < 8 then
    match side with
    | 0 => if d ≥ 4 then some (d - 4, 2) else none
    | 1 => if d % 4 = 3 then some (10, d / 4) else some (d + 1, 3)
    | 2 => if d < 4 then some (d + 4, 0) else if d = 5 then some (8, 0) else if d = 6 then some (8, 1) else none
    | _ => if d % 4 = 0 then some (9, d / 4) else some (d - 1, 1)
  else if d = 8 then (match side with | 0 => some (5, 2) | 1 => some (6, 2) | _ => none)
  else if d = 9 then (match side with | 0 => some (0, 3) | 1 => some (4, 3) | _ => none)
  else (match side with | 0 => some (3, 1) | 1 => some (7, 1) | _ => none)

/-- The two dies a bridge joins (R470). -/
def bridgeEnds (b : Nat) : Nat × Nat :=
  if b < 24 then [(0, 1), (1, 2), (2, 3), (4, 5), (5, 6), (6, 7)].getD (b / 4) (0, 0)
  else if b < 32 then ((b - 24) / 2, (b - 24) / 2 + 4)
  else [(8, 5), (8, 6), (9, 0), (9, 4), (10, 3), (10, 7)].getD (b - 32) (0, 0)
/-- The bridges of a side of a die, in order of their place on the side (R16, R325). -/
def sideBridges (d side : Nat) : List Nat :=
  match across d side with
  | none => []
  | some (e, _) => (List.range 38).filter (fun b => bridgeEnds b == (d, e) || bridgeEnds b == (e, d))
/-- Bridges of a side that are built and not closed. -/
def inService (s : State) (d side : Nat) : Nat :=
  let l := sideBridges d side
  (List.range l.length).foldl (fun n i => if closed s (cmBridge (l.getD i 0)) then n else n + 2 ^ i) 0
/-- Every side of every die that has bridges. -/
def bridgeSides : List (Nat × Nat) := ((List.range 11).map (fun d => (List.range 4).map (fun i => (d, i)))).flatten.filter (fun e => (across e.1 e.2).isSome)
/-- BRDG_ACTIVE as a reset leaves it (R325): both banks use what is in service. -/
def bridgesReset (s : State) (d : Nat) : State :=
  (bridgeSides.filter (fun e => e.1 == d)).foldl (fun s e => let m := inService s d e.2; wr s ⟨.brdg, d, e.2⟩ 0x44 (m + 16 * m)) s

/-- Bridges of a side used under a bank. -/
def actMask (s : State) (d side bank : Nat) : Nat :=
  if (across d side).isNone then 0 else fd s ⟨.brdg, d, side⟩ (if bank % 2 = 0 then fBRDG_ACTIVE_ACT0 else fBRDG_ACTIVE_ACT1)

/-- The side a packet leaves by. A port die, which has no die route table, uses the bridge toward the row of the destination; toward
H or the other port die the row is free (log entry 31). -/
def sideFor (s : State) (d dest : Nat) (p : Pkt) : Option Nat :=
  let ok := fun i => decide (actMask s d i p.sepoch ≠ 0)
  if d < 9 then
    let w := rd s (diePage .sign d) (0x80 + 0x40 * (p.sepoch % 2) + 4 * dest)
    if ok (bits w 0 2) then some (bits w 0 2) else if bit w 4 && ok (bits w 2 2) then some (bits w 2 2) else none
  else
    let row := if dest < 8 then dest / 4 else if dest = 8 then 1 else freeVal s % 2
    if ok row then some row else none

/-- Units a die has, beside cores and slices (R293). -/
def unitThere (d u : Nat) : Bool :=
  if d < 8 then decide (u < 144) || (decide (0xA0 ≤ u) && decide (u ≤ 0xDF)) || u == 0xE0 || u == 0xE1 || u == 0xE8
  else if d = 8 then (decide (0xE0 ≤ u) && decide (u ≤ 0xE3)) || u == 0xE8 || (decide (0xF0 ≤ u) && decide (u ≤ 0xF2))
  else (decide (0x80 ≤ u) && decide (u ≤ 0x93)) || u == 0xE0

/-- A packet dropped at a die switch for its header or its unit (R293, R296). The spec numbers no die-switch ports: DETAIL is free. -/
def switchDrop (s : State) (d : Nat) (p : Pkt) (readable : Bool) : State :=
  let pg := if d < 9 then diePage .sign d else diePage .xtab d
  let s1 := epEnd (bump s pg (if d < 9 then 0xC20 else 0xC38)) d 0xFF p
  freeUsed (pktErr s1 pg 0x92 (freeVal s % 2 ^ 16) (if readable then p else { den := 0 }) (if d < 9 then 9 else 12))

/-- Whether a slice or its stack is closed (R336, R357); one whose closure is withdrawn stays so until the next module reset (R469). -/
def sliceClosed (s : State) (g : Nat) : Bool := closed s (cmSlice g) || closed s (cmStack (g / 32)) || (tget {} s.slices g).ss == 3

/-- Where a die switch sends a packet: `drop` for an unimplemented unit; `closure` answered as for a closed destination; `core`, the switch port
of a router; `unit`, another unit of the die; `port`, the way to the fabric; `bridge`, a side and a bridge on it, with the die and side beyond. -/
inductive SwTo where
  | drop
  | closure
  | core (c : Nat)
  | unit (u : Nat)
  | port
  | bridge (side b d2 side2 : Nat)
  deriving DecidableEq, Repr

/-- Whether a packet's device is another than the module's. -/
def isFar (s : State) (d : Nat) (p : Pkt) : Bool :=
  p.ddev != selfDev s d && d < 9 || (decide (9 ≤ d) && p.ddev != fd s (diePage .xtab d) fXTAB_SELF_DEVICE)
/-- The die a packet makes for. -/
def swDest (s : State) (d : Nat) (p : Pkt) : Nat := if isFar s d p then 9 + p.exit else p.ddie
/-- The bridge of a side that a packet takes (R303). -/
def bridgeOf (s : State) (d side : Nat) (p : Pkt) : Nat :=
  let m := actMask s d side p.sepoch
  let on := (List.range 4).filter (fun i => bit m i)
  on.getD ((Nat.xor p.sdie (Nat.xor p.sunit p.dunit)) % on.length) 0
/-- The way of a packet through a die switch (R293, R302–R304). -/
def swTo (s : State) (d : Nat) (p : Pkt) : SwTo :=
  let dest := swDest s d p
  let c := 144 * d + p.dunit
  if 11 ≤ dest then .drop
  else if dest = d then
    if isFar s d p then .port
    else if !unitThere d p.dunit then .drop
    else if d < 8 ∧ p.dunit < 144 then (if closed s (cmRouter c) then .closure else .core c)
    else if d < 8 ∧ 0xA0 ≤ p.dunit ∧ p.dunit ≤ 0xDF ∧ sliceClosed s (64 * d + p.dunit - 0xA0) then .closure
    else .unit p.dunit
  else
    match sideFor s d dest p with
    | none => .closure
    | some side =>
      match across d side with
      | none => .closure
      | some (d2, side2) => .bridge side (bridgeOf s d side p) d2 side2
/-- The number of an output of a die switch. -/
def SwTo.out : SwTo → Nat
  | .core c => c % 144
  | .unit u => 256 + u
  | .port => 512
  | .bridge side b _ _ => 1024 + 4 * side + b
  | _ => 0
/-- The interface of a unit, or of the way to the fabric, has room for a packet beside those delivered to it: it holds what an input holds (R297,
R300). -/
def endsOn (s : State) (d : Nat) (p : Pkt) : Bool :=
  decide (12 ≤ bufSize p.vc - beatsOf ((net s d).ends.filter (fun q => q.vc == p.vc && isFar s d q == isFar s d p && (isFar s d p || q.dunit == p.dunit))))
/-- Whether the buffer an output leads to takes a packet now; responses always reach their unit (R292, R300). -/
def swReady (s : State) (d : Nat) (p : Pkt) : SwTo → Bool
  | .core c => bufOn s c 5 p.vc
  | .unit _ => p.vc == 1 || endsOn s d p
  | .port => p.vc == 1 || endsOn s d p
  | .bridge _ b d2 side2 => (laneOn s d2 side2 b p.vc).isSome
  | _ => true
/-- A packet of a die switch heads its input's virtual channel, and no earlier one of its flow is there (R297, R301). -/
def swHead (s : State) (d idx : Nat) (p : Pkt) : Bool :=
  !((net s d).sw.take idx).any (fun q => (q.via == p.via && q.vc == p.vc) || sameFlow q p)
/-- A packet as a request for an output: sources take turns by unit toward a bridge or a slice, else by input (R299, R305). -/
def swReq (s : State) (d : Nat) (idx : Nat) (p : Pkt) (aged : List Nat) : ArbReq :=
  let byUnit := match swTo s d p with | .bridge _ _ _ _ => true | .unit u => decide (d < 8) && decide (0xA0 ≤ u) && decide (u ≤ 0xDF) | _ => false
  { vc := p.vc, src := if byUnit then 256 * p.sdie + p.sunit else p.via, aged := aged.contains idx }
/-- The output serves the `idx`-th packet before the others that wait for it and that it could take; `aged` are packets that have waited 64
cycles. -/
def swTurn (s : State) (d idx : Nat) (p : Pkt) (aged : List Nat) : Bool :=
  let l := (net s d).sw
  let out := (swTo s d p).out
  let rivals := (List.range l.length).filterMap (fun j => match l[j]? with
    | some q => if (swTo s d q).out = out && swReady s d q (swTo s d q) && swHead s d j q && !badHeader q && !retired s d q.sepoch && (swTo s d q) != .drop && (swTo s d q) != .closure then some (swReq s d j q aged) else none
    | none => none)
  arbWins (net s d).turn out (swReq s d idx p aged) rivals

/-- What a bridge's receiving port counts of a packet's payload words (R296, R327, R462). -/
def laneCount (s : State) (d : Nat) (p : Pkt) (y : Ecc) : State :=
  if p.via < 1024 then s
  else
    let side := (p.via - 1024) / 128
    let pg : PageId := ⟨.brdg, d, side⟩
    match y with
    | .corrected => bump s pg 0xC10
    | .uncorrectable => watch (bump s pg 0xC18) watchBridge ((sideBridges d side).getD ((p.via - 1024) % 128 / 32) 38) (hourTicks 1)
    | _ => s
/-- The ROUT page in which a die switch's count about a packet stands: that of the core it is for, or of the router whose switch port it came by; none
for a packet of another way (log entry 165). -/
def swRout (s : State) (d : Nat) (p : Pkt) : Option PageId :=
  if d < 8 ∧ p.dunit < 144 ∧ p.ddie = d ∧ !isFar s d p then some (rPage (144 * d + p.dunit))
  else if d < 8 ∧ p.via < 144 then some (rPage (144 * d + p.via))
  else none
/-- A packet of a retired epoch at a die switch (R316, log entry 165). -/
def swRetired (s : State) (d : Nat) (p q : Pkt) : State :=
  let u := if d < 8 ∧ p.dunit < 144 ∧ p.ddie = d then p.dunit else 0xFF
  match swRout s d p with
  | some pg => pktErr (epEnd (bump s pg 0xC10) d u q) pg 0x90 5 q 8
  | none =>
    let t := epEnd s d u q
    freeUsed (errAt t (if d < 9 then diePage .sign d else diePage .xtab d) cRANGE 0x90 (freeVal s % 2 ^ 16) (pktAddr q) q.ctag)
/-- A die switch's answer for a closed unit, counted (R304, log entry 165). -/
def swAnswer (s : State) (d : Nat) (p q : Pkt) : State :=
  let s := match swRout s d p with
    | some pg => if (refusal p cCLOSURE).isSome then bump s pg 0xC28 else s
    | none => s
  answerFrom (epEnd s d (if p.ddie = d ∧ 144 ≤ p.dunit then p.dunit else 0xFF) q) d 0xFF q cCLOSURE
/-- The die switch moves its `idx`-th packet, where its output serves it next. `h`, `y`: what the link code found; `x`: what the receiving bridge
interface found in the header. -/
def dieSwitch (s : State) (d idx : Nat) (aged : List Nat) (h y x : Ecc) : State :=
  let n := net s d
  match n.sw[idx]? with
  | none => s
  | some p =>
    if !swHead s d idx p then s
    else
      let (h, y, x) := (eccBy 1 h, eccBy 1 y, eccBy 1 x)
      let out := laneCount (setNet s d { n with sw := n.sw.eraseIdx idx }) d p y
      if h == .uncorrectable then switchDrop out d p false
      else
        let req := swReq s d idx p aged
        let way := swTo s d p
        let win := swReady s d p way && swTurn s d idx p aged
        let q := { (if y == .uncorrectable then { p with poison := true } else p) with via := 0 }
        let served := setNet out d { net out d with turn := arbTurn n.turn way.out req }
        if badHeader p then switchDrop out d q true
        else if retired s d p.sepoch then swRetired out d p q
        else match way with
          | .drop => switchDrop out d q true
          | .closure => swAnswer out d p q
          | .port => if win then setNet served d { net served d with ends := (net served d).ends ++ [q] } else s
          | .core c => if win then bufPush served c 5 q else s
          | .unit u =>
            if win then
              let t := epEnd served d u q
              setNet t d { net t d with ends := (net t d).ends ++ [q] }
            else s
          | .bridge side b d2 side2 =>
            if !win then s
            else
              let tx : PageId := ⟨.brdg, d, side⟩
              let rx : PageId := ⟨.brdg, d2, side2⟩
              if closed s (cmBridge ((sideBridges d side).getD b 38)) then served
              else
              let t := if d < 9 ∨ swDest s d p < 9 then served else freeUsed served
              let t := bumpBy (bumpBy t tx 0xC00 (beats q)) rx 0xC08 (beats q)
              let inp := (laneOn s d2 side2 b p.vc).getD 0
              match x with
              | .uncorrectable =>
                report (pktErr (epEnd (bump t rx 0xC18) d2 0xFF q) rx 0x92 b { den := 0 } 9) { page := rx.no, source := 0x92, code := cRANGE, detail := b }
              | .corrected => swPush (bump t rx 0xC10) d2 inp q
              | _ => swPush t d2 inp q

/-! ### Convoys at a router (R282–R284) -/

/-- A word of a replication entry. -/
def repWord (s : State) (c bank e w : Nat) : Nat := (tget 0 (rout s c).rep (256 * (bank % 2) + 4 * e + w)).toNat
/-- The valid entry of a convoy. -/
def repFind (s : State) (c bank cvid : Nat) : Option Nat :=
  (List.range 64).find? (fun e => let w := repWord s c bank e 0; bit w 18 && w % 2 ^ 18 == cvid)
def repLeg (s : State) (c bank e n : Nat) : Nat := bits (repWord s c bank e (1 + n / 2)) (32 * (n % 2)) 32

/-- A combined answer or a router's own answer to a convoy packet's return address. -/
def convAnswer (s : State) (c : Nat) (p : Pkt) (code : Nat) : State := answerFrom s (c / 144) (c % 144) p code

/-- The answer reaches the sending queue engine as the reply to its message (R284). -/
def convReply (p : Pkt) (code : Nat) : Pkt :=
  { type := 3, vc := 1, ctag := p.ctag, code := code, seq := p.seq, att := p.att, part := 0, sidx := p.sidx, conv := true, cvid := p.cvid }

/-- CONVOY_PACKET: the packet is replicated, or waits for a combining slot, or is answered (R283). The copy for the router's own core
joins the packets ejected to it. -/
def convoyPacket (s : State) (c : Nat) (p : Pkt) : State :=
  let r := rout s c
  let here := r.bufs.find? (fun e => e.2.head? == some p)
  let take := fun (s : State) =>
    match here with
    | some (k, l) => epEnd (setBuf s c (k / 4) (k % 4) l.tail) (c / 144) (c % 144) p
    | none => takePkt s c p
  match repFind s c p.sepoch p.cvid with
  | none => convAnswer (take s) c p cNO_CHANNEL
  | some e =>
    let w := repWord s c p.sepoch e 0
    let legs := min 4 (bits w 42 3)
    let loc := bit w 19
    let old := r.comb.findIdx? (fun k => k.cvid == p.cvid && k.seq == p.seq)
    if legs ≥ 1 ∧ old.isNone ∧ r.comb.length ≥ 64 then s
    else
      let s := take s
      let k : Comb := { cvid := p.cvid, seq := p.seq, att := p.att, ret := p, root := bit w 45, due := legs + b2n loc }
      let r := rout s c
      let s :=
        if legs = 0 then s
        else match old with
          | some i => setRout s c { r with comb := lmod (fun x => if x.att == p.att then x else k) r.comb i }
          | none => setRout s c { r with comb := r.comb ++ [k] }
      let ret := if legs = 0 then p else { p with sdev := selfDev s (c / 144), sdie := c / 144, sunit := c % 144 }
      let s := (List.range legs).foldl (fun s i =>
        let a := repLeg s c p.sepoch e i
        sendFrom s (c / 144) (c % 144) { ret with ddev := a % 1024, ddie := bits a 10 4, dunit := bits a 14 8, cls := 0, crossed := false }) s
      if loc then
        let l := { ret with handle := bits w 26 10, rgen := bits w 36 6, slot := bits w 20 6 }
        setRout s c { rout s c with arr := (rout s c).arr ++ [{ l with conv := true }] }
      else s

/-- CONVOY_ANSWER: an answer at the router whose slot awaits it (R284). A convoy answer for a core's own queue engine is its reply. -/
def convoyAnswer (s : State) (c : Nat) (p : Pkt) : State :=
  let s := takePkt s c p
  let r := rout s c
  match r.comb.findIdx? (fun k => k.cvid == p.cvid && k.seq == p.seq && k.att == p.att) with
  | none => s
  | some i =>
    match r.comb[i]? with
    | none => s
    | some k =>
      let code := firstCode k.code p.code
      if k.due > 1 then setRout s c { r with comb := lmod (fun x => { x with due := x.due - 1, code := code }) r.comb i }
      else
        let s := setRout s c { r with comb := r.comb.eraseIdx i }
        if k.root then setRout s c { rout s c with arr := (rout s c).arr ++ [convReply k.ret code] }
        else convAnswer s c k.ret code

/-- COMBINING_SLOT_TIMEOUT. -/
def combTimeout (s : State) (c cvid seq : Nat) : State :=
  let r := rout s c
  match r.comb.findIdx? (fun k => k.cvid == cvid && k.seq == seq) with
  | none => s
  | some i => bump (setRout s c { r with comb := r.comb.eraseIdx i }) (rPage c) 0xC50

/-! ### The ROUT page -/

/-- A latch of an input's buffer state (R323). -/
def portSnapshot (s : State) (c port : Nat) : State :=
  let f := fun vc => bufFree s c port vc
  let off := (List.range 4).map (fun vc => if bufOn s c port vc then 0 else 2 ^ vc)
  wr s (rPage c) 0x64 (f 0 + 2 ^ 5 * f 1 + 2 ^ 10 * f 2 + 2 ^ 15 * f 3 + 2 ^ 20 * off.sum)

/-- A commit of one word of a replication entry, in a retired bank only (R315). -/
def repCommit (s : State) (c lo hi : Nat) : State :=
  let pg := rPage c
  let b := fd s pg fROUT_REP_SEL_BANK
  if !retired s (c / 144) b then bankRefused s pg 0x54 10
  else
    let r := rout s c
    setRout s c { r with rep := tput r.rep (256 * b + 4 * fd s pg fROUT_REP_SEL_ENTRY + fd s pg fROUT_REP_SEL_WORD) (BitVec.ofNat 64 (lo + 2 ^ 32 * hi)) }

end Sys2Proof.Machine
end

