-- ==== Sys2Proof/Machine/MemOps.lean ====
section
/-! DEFINITION. Memory stacks: slices, grants, poison, training, closing a slice (R328–R358). A byte of memory is kept at
its place in the stacks: 2^31 · slice + offset within the slice's 2 GiB. -/
namespace Sys2Proof.Machine
open Sys2Proof

def slice (s : State) (g : Nat) : Slice := tget {} s.slices g
def setSlice (s : State) (g : Nat) (x : Slice) : State := { s with slices := tput s.slices g x }
def stack (s : State) (m : Nat) : Stack := tget {} s.stackSt m
def setStack (s : State) (m : Nat) (x : Stack) : State := { s with stackSt := tput s.stackSt m x }

/-! ### Blocks and poison (R338, R339, R341, R342) -/

/-- A block of the bands that stand in for a slice that could not be read: poison until it is written (R355). -/
def lostBlock (s : State) (blk : Nat) : Bool := (stack s (blk / 2 ^ 30)).lost && decide (992 ≤ blk % 2 ^ 25 / 2 ^ 15)
def blockPoison (s : State) (blk : Nat) : Bool := tget (lostBlock s blk) s.mpois blk
def setPoison (s : State) (blk : Nat) (v : Bool) : State := { s with mpois := if v == lostBlock s blk then tdel s.mpois blk else tput s.mpois blk v }
/-- The 64-byte blocks that `n` bytes at a place touch. -/
def blocksOf (x n : Nat) : List Nat := if n = 0 then [] else (List.range ((x + n - 1) / 64 - x / 64 + 1)).map (fun i => x / 64 + i)

/-- A block that `n` bytes at a place cover whole. -/
def coversBlock (x n blk : Nat) : Bool := decide (x ≤ 64 * blk) && decide (64 * blk + 64 ≤ x + n)
/-- What is wrong with a block's stored bits: symbols in error, and 256 more where the on-die code has corrected some and says so at every read (R328,
R341, log entry 167). -/
def setErr (s : State) (blk n : Nat) : State := { s with merr := if n = 0 then tdel s.merr blk else tput s.merr blk n }
/-- Bytes written at a place: a block replaced whole takes the write's poison; another keeps its own too (R339, R342). -/
def memWriteAt (s : State) (x : Nat) (bs : List Byte) (poison : Bool) : State :=
  let n := bs.length
  let s1 := { s with mem := memPutAll s.mem x bs }
  (blocksOf x n).foldl (fun t blk => setErr (setPoison t blk (poison || (!coversBlock x n blk && blockPoison s blk))) blk 0) s1

/-- Bytes of 64-bit words. -/
def wordBytes (ws : List DWord) : List Byte := (ws.map (fun w => natLe 8 w.toNat)).flatten
def bytesWords : Nat → List Byte → List DWord
  | 0, _ => []
  | n + 1, bs => BitVec.ofNat 64 (leNat (bs.take 8)) :: bytesWords n (bs.drop 8)

/-- `n` bytes at a place and whether a block among them is poisoned. -/
def memReadAt (s : State) (x n : Nat) : List Byte × Bool := (memGetAll s.mem x n, (blocksOf x n).any (blockPoison s))

/-- An uncorrectable block at address `a`, found by a request of tag `tag` or by the scrubber: stored poisoned, counted, captured, reported (R342, R343,
R360). -/
def blockUncorrectable (s : State) (g a x tag : Nat) (scrub : Bool) : State :=
  let pg := memcPage (g / 32)
  let s := setErr (setPoison s (x / 64) true) (x / 64) 0
  let d := g % 32 + 32 * b2n scrub
  let s := raiseInt (errAt (bump s pg 0xC18) pg cPOISON 0xA0 d a tag) pg 8
  report s { page := pg.no, source := 0xA0, code := cPOISON, detail := d, addr := a }
/-- A block corrected, counted against its slice (R341, R462). -/
def memCorrected (s : State) (g off : Nat) : State := watch (bump s (memcPage (g / 32)) off) watchSlice g (hourTicks 1)
/-- What the code finds in a stored block; a poisoned one shows nothing new (R341, R342). -/
def blockFinds (s : State) (blk : Nat) : Ecc := if blockPoison s blk then .clean else eccBy 2 (.flips (tget 0 s.merr blk % 256))
/-- A block of slice `g` read: a correction is counted and written back, an uncorrectable block poisoned (R328, R341–R343). -/
def blockRead (g a tag : Nat) (scrub : Bool) (s : State) (blk : Nat) : State :=
  let s := if 256 ≤ tget 0 s.merr blk then bump s (memcPage (g / 32)) 0xC20 else s
  match blockFinds s blk with
  | .corrected => memCorrected (setErr s blk 0) g (if scrub then 0xC48 else 0xC10)
  | .uncorrectable => blockUncorrectable s g a (64 * blk) tag scrub
  | _ => s
/-- What an access finds stays in the block until it is written: `e` in the first of the blocks that is not poisoned, `od` in the first (log entry
167). -/
def noteErr (s : State) (bl : List Nat) (e : Ecc) (od : Bool) : State :=
  let s := match bl.find? (fun b => !blockPoison s b) with
    | some b =>
      let n := tget 0 s.merr b
      setErr s b (n / 256 * 256 + min 255 (match e with | .clean => n % 256 | .corrected => max (n % 256) 1 | .uncorrectable => max (n % 256) 3 | .flips k => n % 256 + k))
    | none => s
  match bl with
  | b :: _ => if od then setErr s b (tget 0 s.merr b % 256 + 256) else s
  | [] => s
/-- The blocks that a write covers in part and so reads first (R339). -/
def partBlocks (x n : Nat) : List Nat := (blocksOf x n).filter (fun b => !coversBlock x n b)

/-! ### Requests (R335–R338) -/

/-- The grant check on a core's request (R337). -/
def grantCode (s : State) (ctag a : Nat) (write : Bool) : Nat :=
  let e := (tget 0 s.grant (a / 2 ^ 24 % 65536)).toNat
  let owned := if e % 65536 = ctag then cOK else if e % 65536 / 64 = ctag / 64 then cSTALE_GEN else cDENIED
  match bits e 16 2 with
  | 0 => cDENIED | 1 => owned | 2 => if write then owned else cOK | _ => cRANGE
/-- A request that passes the grant check whatever the table holds. -/
def grantExempt (p : Pkt) : Bool :=
  p.auth == 2 || (decide (0xE0 ≤ p.sunit) && decide (p.sunit ≤ 0xE8)) || (decide (0xF0 ≤ p.sunit) && decide (p.sunit ≤ 0xF2)) ||
  p.sunit == 0x92 || p.sunit == 0x93
/-- An address and length no request may have (R333, R335). -/
def badSpan (a n : Nat) : Bool := decide (62 ≤ a / 2 ^ 34) || a % 8 != 0 || n % 8 != 0 || decide (512 < a % 512 + n)
/-- The first failing check of a request at slice `g` (R336). -/
def reqCode (s : State) (g : Nat) (p : Pkt) : Nat :=
  let gc := if grantExempt p then cOK else grantCode s p.ctag p.addr (p.type == 10)
  if (decide (9 ≤ p.sdie) && decide (0x80 ≤ p.sunit) && decide (p.sunit ≤ 0x91)) || p.auth == 1 || gc == cDENIED then cDENIED
  else if badSpan p.addr p.rlen || (place s p.sepoch p.addr).1 != g || gc == cRANGE then cRANGE
  else if gc = cSTALE_GEN then cSTALE_GEN
  else if sliceClosed s g then cCLOSURE
  else if fd s (memcPage (g / 32)) fMEMC_STATUS_STATE ≠ 2 then cNOT_READY
  else cOK
/-- What a refusal leaves on the controller's page (R336, R360). -/
def reqRefused (s : State) (g : Nat) (p : Pkt) (code : Nat) : State :=
  let pg := memcPage (g / 32)
  if code = cDENIED then raiseInt (errAt (bump (denyFabric s (p.auth == 1)) pg 0xC28) pg code 0xA1 p.sunit p.addr p.ctag) pg 9
  else if code = cSTALE_GEN then raiseInt (errAt (bump s pg 0xC30) pg code 0xA2 p.sunit p.addr p.ctag) pg 9
  else if code = cRANGE then raiseInt (errAt s pg code 0xA3 p.sunit p.addr p.ctag) pg 10
  else s

/-- A slice's die and unit code (R329). -/
def sliceDie (g : Nat) : Nat := g / 64
def sliceUnit (g : Nat) : Nat := 0xA0 + g % 64
def sliceAnswer (s : State) (g : Nat) (p : Pkt) (code : Nat) (ws : List DWord) (poison : Bool) : State :=
  match refusal p code with
  | none => s
  | some a => sendFrom s (sliceDie g) (sliceUnit g) { a with rlen := 8 * ws.length, data := ws, poison := poison }
/-- A packet leaves the deliveries of a die's switch. -/
def takeEnd (s : State) (d : Nat) (p : Pkt) : State := setNet s d { net s d with ends := (net s d).ends.erase p }

/-! ### Ports and twin packets (R388, R408) -/

def port (s : State) (p : Nat) : PortSt := tget {} s.ports p
def setPort (s : State) (p : Nat) (x : PortSt) : State := { s with ports := tput s.ports p x }
/-- The port die of a port, its unit code, whether it is a causeway port (R293, R388). -/
def portDie (p : Nat) : Nat := if p < 36 then 9 + p / 18 else 9 + (p - 36) / 2
def portUnit (p : Nat) : Nat := if p < 36 then 0x80 + p % 18 else 0x92 + p % 2
def isCw (p : Nat) : Bool := decide (36 ≤ p)
/-- The virtual channel of a twin packet by its TTYPE; none for a reserved one (R408). -/
def twinVc (t : Nat) : Option Nat := if t = 1 ∨ t = 2 then some 3 else if t ≤ 7 then some 1 else none
/-- TTYPE, words 2 and 3 and the payload of a twin packet (R408). -/
def twinWords : TwinOut → Nat × Nat × Nat × List DWord
  | .heartbeat pstate mode live alive acked marked => (0, 2 ^ 4 * pstate + 2 ^ 8 * mode + 2 ^ 10 * live + 2 ^ 14 * b2n alive, acked + 2 ^ 32 * marked, [])
  | .jrec g r => match r.mark with
    | some m => (2, 2 ^ 4 * g + 2 ^ 13 * r.sseq, m, [])
    | none => (1, 2 ^ 4 * g + 2 ^ 13 * r.sseq + 2 ^ 45 * b2n r.copy + 2 ^ 46 * b2n r.poison + 2 ^ 47 * r.data.length, r.addr, r.data)
  | .jack es => (3, 2 ^ 4 * es.length, 0, es.map (fun e => BitVec.ofNat 64 (e.1 + 2 ^ 9 * e.2)))
  | .digest m d => (4, 0, m, [d])
  | .pcdig die part m ds => (5, 2 ^ 4 * die + 2 ^ 8 * part, m, ds)
  | .ctrl op arg word => (6, 2 ^ 4 * op + 2 ^ 12 * arg, word, [])
  | .fence dev => (7, 0, dev, [])
/-- A twin packet of causeway port `w` (R408). -/
def twinPkt (s : State) (w : Nat) (t : TwinOut) : Pkt :=
  let x := twinWords t
  { type := 13, vc := (twinVc x.1).getD 1, code := x.1, ddev := fd s twinPage fCAUSE_PAIR_PARTNER, sdev := fd s (diePage .xtab (portDie (36 + w))) fXTAB_SELF_DEVICE, sdie := portDie (36 + w), sunit := portUnit (36 + w),
    tw := [BitVec.ofNat 64 (x.1 + x.2.1), BitVec.ofNat 64 x.2.2.1], rlen := 8 * x.2.2.2.length, data := x.2.2.2 }
/-- A twin packet joins the packets its port has to send (R405). -/
def twinSend (s : State) (w : Nat) (t : TwinOut) : State := setPort s (36 + w) { port s (36 + w) with tx := (port s (36 + w)).tx ++ [twinPkt s w t] }

/-! ### The journal (R414, R415) -/

def stream (s : State) (g : Nat) : Stream := tget {} s.twin.streams g
def setStream (s : State) (g : Nat) (x : Stream) : State := { s with twin := { s.twin with streams := tput s.twin.streams g x } }
/-- Live causeway ports, 0–3. -/
def cwLive (s : State) : List Nat := (List.range 4).filter (fun w => live s (36 + w))
/-- A journal record leaves on the port of its stream, where one is live. -/
def sendJ (s : State) (g : Nat) (r : JRec) : State :=
  let l := cwLive s
  match l[g % l.length]? with
  | none => s
  | some w => twinSend (bump s (cwPage w) 0xD10) w (.jrec g r)
/-- A record entered in a stream's send ring and sent. -/
def journalAdd (s : State) (g : Nat) (r : JRec) : State :=
  let x := stream s g
  let r := { r with sseq := x.next }
  sendJ (setStream s g { x with next := (x.next + 1) % 2 ^ 32, sent := x.sent ++ [r] }) g r
/-- Writes to the block of an address are journalled. -/
def journalled (s : State) (a : Nat) : Bool :=
  fb s twinPage fCAUSE_JCTL_JEN && bit (tget 0 s.twin.jmap (a / 2 ^ 24 / 32 % 2048)).toNat (a / 2 ^ 24 % 32)
/-- The stream's send ring is full. -/
def ringFull (s : State) (g : Nat) : Bool := decide (1024 ≤ (stream s g).sent.length)
/-- A write is journalled whatever its source, but for a causeway port interface. -/
def journalWrite (s : State) (g a : Nat) (ws : List DWord) (poison : Bool) : State :=
  if journalled s a && !ws.isEmpty then journalAdd s g { sseq := 0, addr := a, data := ws, poison := poison } else s
/-- A request that came through a causeway port carries AUTH 2 (R656). -/
def fromCw (p : Pkt) : Bool := p.auth == 2 || (decide (9 ≤ p.sdie) && (p.sunit == 0x92 || p.sunit == 0x93))

/-- SLICE_REQUEST. A full queue leaves the request waiting. -/
def sliceRequest (s : State) (g : Nat) (p : Pkt) : State :=
  if p.type ≠ 8 ∧ p.type ≠ 10 then s
  else
    let code := reqCode s g p
    if code ≠ cOK then sliceAnswer (reqRefused (takeEnd s (sliceDie g) p) g p code) g p code [] false
    else if (slice s g).q.length ≥ 64 || (p.type == 10 && !fromCw p && journalled s p.addr && ringFull s g) then s
    else
      let s := takeEnd s (sliceDie g) p
      let s := setSlice s g { slice s g with q := (slice s g).q ++ [p] }
      let s := bump s (memcPage (g / 32)) (if p.type = 8 then 0xC00 else 0xC08)
      if p.type = 10 ∧ !fromCw p then journalWrite s g p.addr p.data p.poison else s

/-- A stand-in notes a write addressed to it directly (R356). -/
def markDirect (s : State) (g : Nat) (p : Pkt) : State :=
  let h := (native s p.sepoch p.addr).1
  if h = g ∨ ((slice s h).ss ≠ 1 ∧ (slice s h).ss ≠ 2) then s
  else
    let bl := blocksOf (phys s p.sepoch p.addr) p.rlen
    setSlice s g { slice s g with marks := bl.foldl (fun t b => tput t b true) (slice s g).marks }

/-- The bank whose map relocates a channel. -/
def evacBank (s : State) (m ch : Nat) : Option Nat := (List.range 2).find? (fun b => spareOf s b m == some ch)

/-- A write to a mirroring slice reaches the stand-in too, but for marked blocks; the copy of a block has its poison (R339, R353, R356). -/
def mirror (s : State) (g x : Nat) (bs : List Byte) : State :=
  let off := x % 2 ^ 31
  if (slice s g).ss = 0 ∨ off / 2 ^ 21 ≥ 992 then s
  else
    let t := standIn (g / 32) (g % 32) off
    let y := physOf t.1 t.2
    let s := bump s (memcPage (g / 32)) 0xC50
    (blocksOf y bs.length).foldl (fun s blk =>
      if tget false (slice s t.1).marks blk then s
      else
        let lo := max y (64 * blk)
        let hi := min (y + bs.length) (64 * blk + 64)
        memWriteAt s lo ((bs.drop (lo - y)).take (hi - lo)) (blockPoison s (blk + x / 64 - y / 64))) s

/-- No earlier request of a slice's queue touches a block of the i-th in conflict (R338). -/
def unblocked (s : State) (g i : Nat) (p : Pkt) : Bool :=
  let bl := fun (r : Pkt) => blocksOf (phys s r.sepoch r.addr) r.rlen
  ((slice s g).q.take i).all (fun r => (r.type == 8 && p.type == 8) || (bl r).all (fun b => !(bl p).contains b))
/-- Where a request stands in the rotation among source units, the unit served last coming last, and requests of one unit in order of acceptance. -/
def servePlace (s : State) (g i : Nat) (p : Pkt) : Nat :=
  let n := 2 ^ 16
  (256 * p.sdie + p.sunit + n - 1 - (slice s g).turn % n) % n * n + i
/-- The i-th accepted request is the next its slice serves (R305, R336; log entry 126). -/
def servesNext (s : State) (g i : Nat) (p : Pkt) : Bool :=
  let q := (slice s g).q
  unblocked s g i p && (List.range q.length).all (fun j => match q[j]? with
    | some r => !unblocked s g j r || decide (servePlace s g i p ≤ servePlace s g j r)
    | none => true)
/-- A request is served now: it is the next, and its stack has no window open (R350). -/
def mayServe (s : State) (g i : Nat) (p : Pkt) : Bool := (stack s (g / 32)).window.isNone && servesNext s g i p
/-- A served request leaves the queue. -/
def unqueue (s : State) (g i : Nat) (p : Pkt) : State :=
  setSlice s g { slice s g with q := (slice s g).q.eraseIdx i, turn := (256 * p.sdie + p.sunit) % 2 ^ 16 }

/-- A read is served: `e` is what the code found in a block, `od` whether on-die ECC reported (R328, R341, R342). -/
def readServe (s : State) (g i : Nat) (p : Pkt) (e : Ecc) (od : Bool) : State :=
  let x := phys s p.sepoch p.addr
  let bl := blocksOf x p.rlen
  let s := bl.foldl (blockRead g p.addr p.ctag false) (noteErr s bl e od)
  let r := memReadAt s x p.rlen
  sliceAnswer (unqueue s g i p) g p (if r.2 then cPOISON else cOK) (bytesWords (p.rlen / 8) r.1) r.2
/-- A write is served: it reaches the write buffer, and its mirrored copy the stand-in; `e` is what a partial write found in the old block
(R338, R339). -/
def writeServe (s : State) (g i : Nat) (p : Pkt) (e : Ecc) : State :=
  let x := phys s p.sepoch p.addr
  let bs := (wordBytes p.data).take p.rlen
  let bl := partBlocks x bs.length
  let s := bl.foldl (blockRead g p.addr p.ctag false) (noteErr s bl e false)
  let s := memWriteAt s x bs p.poison
  let s := mirror (markDirect s g p) g x bs
  sliceAnswer (unqueue s g i p) g p cOK [] false
/-- SLICE_READ_COMPLETE of the i-th accepted request. -/
def sliceRead (s : State) (g i : Nat) (e : Ecc) (od : Bool) : State :=
  match (slice s g).q[i]? with
  | none => s
  | some p => if p.type ≠ 8 ∨ !mayServe s g i p then s else readServe s g i p e od
/-- SLICE_WRITE_ACK of the i-th accepted request. -/
def sliceWrite (s : State) (g i : Nat) (e : Ecc) : State :=
  match (slice s g).q[i]? with
  | none => s
  | some p => if p.type ≠ 10 ∨ !mayServe s g i p then s else writeServe s g i p e
/-- The next request of a slice is served, a window or not. -/
def serveOne (s : State) (g : Nat) : State :=
  let q := (slice s g).q
  match (List.range q.length).findSome? (fun i => q[i]?.bind (fun p => if servesNext s g i p then some (i, p) else none)) with
  | some (i, p) => if p.type = 8 then readServe s g i p .clean false else writeServe s g i p .clean
  | none => s
/-- A slice serves every accepted request before it goes (R345, R355). -/
def serveAll (s : State) (g : Nat) : State := (List.range (slice s g).q.length).foldl (fun s _ => serveOne s g) s

/-- The address a slice's offset holds under a bank, before relocation: the inverse of R331 and R332. -/
def nativeAddr (s : State) (b g off : Nat) : Nat :=
  let grp := off / 2 ^ 25
  let lo := off % 512
  if pinned s b grp && decide (grp < 62) then
    let r := off / 512 % 2 ^ 16
    2 ^ 34 * grp + 2 ^ 30 * (g / 32) + 2 ^ 14 * r + 2 ^ 9 * Nat.xor (g % 32) (r % 32) + lo
  else
    let h := off / 512
    2 ^ 18 * h + 2 ^ 9 * Nat.xor g (Nat.xor (h % 512) (Nat.xor (h / 2 ^ 9 % 512) (h / 2 ^ 18))) + lo
/-- The address a slice's offset holds: a reserve band holds what it stands in for (R354). -/
def addrOf (s : State) (b g off : Nat) : Nat :=
  match spareOf s b (g / 32) with
  | some ch =>
    if g % 32 = ch ∨ off / 2 ^ 21 < 992 then nativeAddr s b g off
    else
      let k := if g % 32 < ch then g % 32 else g % 32 - 1
      nativeAddr s b (32 * (g / 32) + ch) ((32 * k + off / 2 ^ 21 - 992) * 2 ^ 21 + off % 2 ^ 21)
  | none => nativeAddr s b g off
/-- PATROL_SCRUB of the block at an offset of a slice, which is idle and whose stack has no window open (R343, R350). -/
def patrolScrub (s : State) (g off : Nat) (e : Ecc) : State :=
  let pg := memcPage (g / 32)
  if !fb s pg fMEMC_SCRUB_EN || fd s pg fMEMC_STATUS_STATE != 2 || sliceClosed s g || !(slice s g).q.isEmpty || (stack s (g / 32)).window.isSome then s
  else
    let blk := physOf g off / 64
    blockRead g (addrOf s (fd s (diePage .sign (sliceDie g)) fSIGN_STATUS_INJ_EPOCH) g off) 0 true (noteErr s [blk] e false) blk

/-! ### Accesses of the module's own engines, applied whole (log entry 32) -/

/-- The code a core's DMA engine meets at a chunk (R336). -/
def chunkCode (s : State) (c a n : Nat) (write : Bool) : Nat :=
  let b := injEpoch s (c / 144) (c % 144)
  reqCode s (place s b a).1
    { type := if write then 10 else 8, sepoch := b, sdie := c / 144, sunit := c % 144, ctag := coreTag s c, addr := a, rlen := n }
/-- An access of an engine comes after the requests its slice has accepted before that touch its blocks (R338). -/
def settle (s : State) (g : Nat) (bl : List Nat) : State :=
  if (slice s g).q.any (fun r => (blocksOf (phys s r.sepoch r.addr) r.rlen).any (fun b => bl.contains b)) then serveAll s g else s
/-- `n` bytes from a memory address within one chunk, under a bank. -/
def memRead (s : State) (b a n : Nat) : List Byte × Bool := memReadAt s (phys s b a) n
/-- The state in which an engine's read finds those bytes: the read is accepted, and its blocks are judged (R338, R341, R342, R361). -/
def memServe (s : State) (b a n tag : Nat) : State :=
  let g := (place s b a).1
  let bl := blocksOf (phys s b a) n
  bl.foldl (blockRead g a tag false) (bump (settle s g bl) (memcPage (g / 32)) 0xC00)
/-- A write of an engine applied. -/
def memApply (s : State) (b a : Nat) (bs : List Byte) (poison : Bool) (tag : Nat) : State :=
  let g := (place s b a).1
  let x := phys s b a
  let p : Pkt := { sepoch := b, addr := a, rlen := bs.length }
  let s := bump (settle s g (blocksOf x bs.length)) (memcPage (g / 32)) 0xC08
  let s := journalWrite s g a (bytesWords (bs.length / 8) bs) poison
  let s := (partBlocks x bs.length).foldl (blockRead g a tag false) s
  mirror (markDirect (memWriteAt s x bs poison) g p) g x bs
/-- A write of an engine: a journalled one waits while its stream's send ring is full, or an earlier one of the slice waits (R415). -/
def memWrite (s : State) (b a : Nat) (bs : List Byte) (poison : Bool) (tag : Nat := 0) : State :=
  let g := (place s b a).1
  if journalled s a && (ringFull s g || !(slice s g).wait.isEmpty) then
    setSlice s g { slice s g with wait := (slice s g).wait ++ [{ type := 10, vc := 3, sepoch := b, addr := a, rlen := bs.length, data := bytesWords (bs.length / 8) bs, poison := poison, ctag := tag }] }
  else memApply s b a bs poison tag
/-- The writes that waited for a slot of the ring go on, in order (R415). -/
def drainWait (s : State) (g : Nat) : State :=
  (slice s g).wait.foldl (fun s p =>
    if journalled s p.addr && ringFull s g then s
    else memApply (setSlice s g { slice s g with wait := (slice s g).wait.drop 1 }) p.sepoch p.addr (wordBytes p.data) p.poison p.ctag) s

/-! ### Placement, grants, closing a slice (R334, R337, R355) -/

/-- A write of MEMC_PINb or MEMC_SPAREb_k: to a retired bank only; groups 62 and 63 take no pin. -/
def placementWrite (s : State) (m off : Nat) (lo hi : Nat) : State :=
  let pg := memcPage m
  let d := m / 2
  let busy := fun (s : State) => fdSet s pg fMEMC_STATUS_PLACEBUSY 1
  if off < 0x90 then
    let b := (off - 0x80) / 8
    if !retired s d b then bankRefused s pg off 10
    else if hi / 2 ^ 30 % 4 ≠ 0 then raiseInt (errAt s pg cRANGE 0xA3 off 0 0) pg 10
    else busy (wr (wr s pg (0x80 + 8 * b) lo) pg (0x84 + 8 * b) hi)
  else
    let b := (off - 0xA0) / 0x40
    if !retired s d b then bankRefused s pg off 10 else busy (wr s pg off (hi % 64))

/-- A write of MEMC_GRANT_DATA: every copy takes it. -/
def grantWrite (s : State) (m v : Nat) : State :=
  let pg := memcPage m
  fdSet { s with grant := tput s.grant (fd s pg fMEMC_GRANT_SEL_INDEX) (BitVec.ofNat 32 (v % 2 ^ 18)) } pg fMEMC_STATUS_GRANTBUSY 1

/-- The bank of the routing tables that is retired on a die, if one is. -/
def retiredBank (s : State) (d : Nat) : Option Nat := (List.range 2).find? (fun b => retired s d b)

def memcRefused (s : State) (m off : Nat) : State := bankRefused s (memcPage m) off 10

/-- EVAC written in MEMC_SLICE_CTL for the selected slice. -/
def sliceEvacuate (s : State) (m : Nat) : State :=
  let ch := fd s (memcPage m) fMEMC_SLICE_SEL_SLICE
  let g := 32 * m + ch
  let named := match retiredBank s (m / 2) with | some b => spareOf s b m == some ch | none => false
  if !named then memcRefused s m 0x6C
  else if sliceClosed s g || (slice s g).ss != 0 then s
  else setSlice s g { slice s g with ss := 1, evac := true }

/-- The places of a stack's reserve bands: they hold what the closed channel's stand-ins hold. -/
def inReserve (m ch x : Nat) : Bool := decide (x / 2 ^ 31 / 32 = m) && x / 2 ^ 31 % 32 != ch && decide (992 ≤ x % 2 ^ 31 / 2 ^ 21)
/-- The blocks of a slice that have errors are read, and judged (R341, R342). -/
def readFaulty (s : State) (g : Nat) : State :=
  (s.merr.map (·.1)).foldl (fun s blk => if blk / 2 ^ 25 = g then blockRead g (addrOf s (fd s (diePage .sign (sliceDie g)) fSIGN_STATUS_INJ_EPOCH) g (64 * (blk % 2 ^ 25))) 0 false s blk else s) s
/-- A channel's blocks copied to its stand-ins, but for marked ones, with their poison. -/
def copyBlocks (s : State) (m ch : Nat) : State :=
  let g := 32 * m + ch
  let marked := fun x => tget false (slice s (x / 2 ^ 31)).marks (x / 64)
  let dest := fun x => let t := standIn m ch (x % 2 ^ 31); physOf t.1 t.2
  let src := fun x => decide (x / 2 ^ 31 = g) && decide (x % 2 ^ 31 / 2 ^ 21 < 992)
  let kept := s.mem.filter (fun e => !inReserve m ch e.1 || marked e.1)
  let mem := s.mem.foldl (fun t e => if src e.1 && !marked (dest e.1) then memPut t (dest e.1) e.2 else t) kept
  let keptP := s.mpois.filter (fun e => !inReserve m ch (64 * e.1) || marked (64 * e.1))
  let pois := s.mpois.foldl (fun t e => if src (64 * e.1) && !marked (dest (64 * e.1)) then tput t (dest (64 * e.1) / 64) e.2 else t) keptP
  { s with mem := mem, mpois := pois, merr := s.merr.filter (fun e => !inReserve m ch (64 * e.1) || marked (64 * e.1)) }
/-- The background copy of a channel; uncorrectable blocks, found as it reads them, are copied as poisoned (R355, R356). -/
def copySlice (s : State) (m ch : Nat) : State := copyBlocks (readFaulty s (32 * m + ch)) m ch
def sliceEvacuated (s : State) (g : Nat) : State :=
  if (slice s g).ss ≠ 1 then s else
    let s := copySlice s (g / 32) (g % 32)
    setSlice s g { slice s g with ss := 2 }

/-- A slice enters CLOSED: its bit of the closure map is set, its stand-ins drop their marks (R355, R356). -/
def closeSlice (s : State) (g : Nat) : State :=
  let i := cmSlice g
  let s := { s with fieldMap := tput s.fieldMap (i / 32) (tget 0 s.fieldMap (i / 32) ||| BitVec.ofNat 32 (2 ^ (i % 32))) }
  let s := setSlice s g { slice s g with ss := 3 }
  (List.range 32).foldl (fun s ch => let h := 32 * (g / 32) + ch; setSlice s h { slice s h with marks := [] }) s
/-- The stand-ins of a slice that could not be read are written as poisoned (R355). -/
def loseSlice (s : State) (g : Nat) : State :=
  let m := g / 32
  let s := { s with mpois := s.mpois.filter (fun e => !inReserve m (g % 32) (64 * e.1)), merr := s.merr.filter (fun e => !inReserve m (g % 32) (64 * e.1)) }
  setStack s m { stack s m with lost := true }
/-- The slices that bank `b` relocates though nothing of them has been copied: they could not be read. -/
def loseUnread (s : State) (b : Nat) : State :=
  (List.range 16).foldl (fun s m => match spareOf s b m with
    | some ch => if (slice s (32 * m + ch)).ss = 0 ∧ !sliceClosed s (32 * m + ch) then loseSlice s (32 * m + ch) else s
    | none => s) s
/-- CLOSE written in MEMC_SLICE_CTL for the selected slice: the old bank must be retired, and the bank in force relocate the slice;
accepted requests complete first. -/
def sliceCloseReady (s : State) (m ch : Nat) : Bool :=
  match retiredBank s (m / 2) with
  | some b => spareOf s (1 - b) m == some ch && s.flip.isNone
  | none => false

/-! ### Training and windows (R344–R352) -/

def memTrain (s : State) (m : Nat) (full : Bool) : State :=
  let pg := memcPage m
  let f := full || !fb s pg fMEMC_TRAIN_RECVALID
  let s := fdSet (fdSet (fdSet s pg fMEMC_TRAIN_DONE 0) pg fMEMC_STATUS_STATE 1) pg fMEMC_STATUS_RECAL 0
  setStack s m { stack s m with train := some f, window := none }

/-- A record word; the words a training wrote are free (R347). -/
def recWord (s : State) (m w : Nat) : Word :=
  let k := stack s m
  match k.words.find? (fun e => e.1 == w) with
  | some e => e.2
  | none => match k.recBase with | some b => BitVec.ofNat 32 (Config.freeNat (b + w)) | none => 0
/-- RECVALID: the record's CRC and serial number are right and its temperature lies within 25 °C of the stack's (R347). -/
def recJudge (s : State) (m : Nat) : State :=
  let k := stack s m
  let t := fd s (memcPage m) fMEMC_STATUS_TEMP
  fdSet s (memcPage m) fMEMC_TRAIN_RECVALID (b2n (k.recOk && decide (t ≤ k.recT) && decide (k.recT ≤ t + 50)))
/-- The controller reports the hottest die of its stack (R344). -/
def stackTemp (s : State) (m temp : Nat) : State := recJudge (fdSet s (memcPage m) fMEMC_STATUS_TEMP (temp % 256)) m
/-- A record's words written: what its CRC and temperature then say, whose layout the spec does not give, are free values. -/
def recWrite (s : State) (m v : Nat) : State :=
  let pg := memcPage m
  let s := setStack s m { stack s m with words := tput (stack s m).words (fd s pg fMEMC_REC_SEL_WORD) (BitVec.ofNat 32 v), recOk := freeVal s % 2 == 1 }
  let s := freeUsed s
  freeUsed (recJudge (setStack s m { stack s m with recT := freeVal s % 281 }) m)

/-- Training ends: `quick` and `fail` are the channels that failed quick verify and full training (R348, R349). -/
def trainDone (s : State) (m quick fail : Nat) : State :=
  let pg := memcPage m
  match (stack s m).train with
  | none => s
  | some full =>
    let any := full || quick % 2 ^ 32 != 0
    let s := wr s pg 0x48 ((if full then fail else quick) % 2 ^ 32)
    let s := (List.range 32).foldl (fun s ch => if any && bit fail ch then closeSlice s (32 * m + ch) else s) s
    let s := if full then
        { recJudge (setStack s m { stack s m with recBase := some s.free, words := [], recOk := true, recT := fd s pg fMEMC_STATUS_TEMP + 25 }) m with free := s.free + 1024 } else s
    let s := setStack s m { stack s m with train := none }
    fdSet (fdSet (fdSet s pg fMEMC_TRAIN_DONE 1) pg fMEMC_STATUS_TRAINED 1) pg fMEMC_STATUS_STATE 2

def recentreOpen (s : State) (m ch : Nat) : State :=
  let pg := memcPage m
  if !fb s pg fMEMC_RECAL_EN || fd s pg fMEMC_STATUS_STATE != 2 || (stack s m).window.isSome || sliceClosed s (32 * m + ch) || (stack s m).granted != some ch then s
  else setStack (fdSet s pg fMEMC_STATUS_RECAL 1) m { stack s m with window := some ch, granted := none }
def recentreEnd (s : State) (m : Nat) (ok : Bool) : State :=
  let pg := memcPage m
  match (stack s m).window with
  | none => s
  | some ch =>
    let g := 32 * m + ch
    let s := setStack (fdSet s pg fMEMC_STATUS_RECAL 0) m { stack s m with window := none }
    if ok then bump (setSlice s g { slice s g with fails := 0 }) pg 0xC38
    else
      let n := (slice s g).fails + 1
      let s := bump (setSlice s g { slice s g with fails := n }) pg 0xC40
      if n = 3 then
        let s := setSlice s g { slice s g with suspect := true, fails := 0 }
        let s := raiseInt (errAt s pg cNOT_READY 0xA4 ch 0 0) pg 11
        report s { page := pg.no, source := 0xA4, code := cNOT_READY, detail := ch }
      else s

end Sys2Proof.Machine
end

