-- ==== Sys2Proof/Machine/FireOps.lean ====
section
/-! DEFINITION. Which units of a core's fabric could fire, which are mid-fire, and what each waits for (R107, R130, R147, R154, R186). -/
namespace Sys2Proof.Machine
open Sys2Proof

/-! ### Units that could fire (R130) -/

/-- A pass descriptor that waits for a FULL shadow (R105). -/
def swapWaits (s : State) (c : Nat) (t : Tok) : Bool :=
  let d := t.val
  !t.poison && bit d 7 && (arr s c).shadow != 2 && bits d 0 7 != 0 && decide (bits d 0 7 ≤ 64) && decide (bits d 9 2 < 2) && bits d 12 20 == 0
/-- The shadow has room for a token of an image; an image is complete and the shadow about to be FULL. -/
def wRoom (s : State) (c : Nat) : Bool :=
  let a := arr s c
  a.shadow == 0 || (a.shadow == 1 && decide (a.shTile.img.length < imageTokens a.shTile.wfmt a.shTile.sparse))
def wLoaded (s : State) (c : Nat) : Bool := let a := arr s c; a.shadow == 1 && !wRoom s c
/-- The input ports the next sequence of a pass lacks a token at. -/
def seqDry (s : State) (c : Nat) (p : Pass) : List Nat := (seqPorts s c p).filter (fun q => (headTok s c q).isNone)
/-- The array could take a token of an image, start a pass, or let a sequence enter. -/
def arrCan (s : State) (c : Nat) : Bool :=
  wLoaded s c || (wRoom s c && (headTok s c pW).isSome) ||
    (match (arr s c).pass with
     | none => (match headTok s c pPD with | some t => credits s c pDONE 1 && !swapWaits s c t | none => false)
     | some p => decide (p.entered.length < p.nseq) && (seqDry s c p).isEmpty && (!p.emit || credits s c pO 1))
/-- A spill queue has room for a token at its input. -/
def spillRoom (s : State) (c m : Nat) : Bool :=
  let sp := (mu s c m).spill
  decide (sp.inBuf.length < 8) || decide (sp.ring.length < 2 ^ muLoge s c (activeBuf s c) m)
def spillIn (s : State) (c m : Nat) : Nat := muPort m (if spillScalar s c (activeBuf s c) m then 2 else 0)
def spillOut (s : State) (c m : Nat) : Nat := muPort m (if spillScalar s c (activeBuf s c) m then 1 else 0)
/-- A memory unit could start a walk, issue an access, or move a token of its spill queue. -/
def muCan (s : State) (c m : Nat) : Bool :=
  if muMode s c (activeBuf s c) m = 5 then
    ((headTok s c (spillIn s c m)).isSome && spillRoom s c m) || (!(mu s c m).spill.outBuf.isEmpty && credits s c (spillOut s c m) 1)
  else match (mu s c m).walk with
    | none => muTrigger s c m && (muIgnores s c m || muTotal s c m != 0 || credits s c (muPort m 2) 1)
    | some w => !muWaits s c m && muFed s c m w && (muOuts s c m w).all (fun o => credits s c o.1 o.2)
/-- A QX or QXS port could emit a token; a CFGSW keeps it from beginning a message (R146). -/
def qxCan (s : State) (c p : Nat) : Bool :=
  let w := bindWord s c (activeBuf s c) p 0
  bit w 0 && credits s c (portId uQE p) 1 &&
    (!(tget {} (qe s c).qx p).toks.isEmpty || (nonEmpty s c (bits w 1 6) && !fb s (flowPage c) fFLOW_STATUS_QSTOP))
/-- A QY or QYS port has room for a token, and could gather one. -/
def qyRoom (s : State) (c p : Nat) : Bool :=
  let y := tget {} (qe s c).qy p
  bit (bindWord s c (activeBuf s c) (6 + p) 0) 0 && !y.full && !y.out.contains y.buf
def qyCan (s : State) (c p : Nat) : Bool := qyRoom s c p && (headTok s c (portId uQE p)).isSome

/-! ### Units mid-fire (R107, R130, R147) -/

def muMid (u : Mu) : Bool := u.walk.isSome || !u.emit.isEmpty || !u.spill.inBuf.isEmpty || !u.spill.ring.isEmpty || !u.spill.outBuf.isEmpty
/-- No unit fires, and none is mid-fire in the sense of R147's list, which NAP entry shares (DEDUCED, log entry 118). -/
def unitsRest (s : State) (c : Nat) : Bool :=
  let k := core s c
  k.arr.pass.isNone && k.cus.all (fun e => e.2.pipe.isEmpty) && k.mus.all (fun e => !muMid e.2) &&
    k.qe.qx.all (fun e => e.2.toks.isEmpty) && k.qe.qy.all (fun e => e.2.got == 0) &&
    !arrCan s c && (List.range 6).all (fun n => !cuCan s c n) && (List.range 4).all (fun m => !muCan s c m) &&
    (List.range 6).all (fun p => !qxCan s c p && !qyCan s c p)
/-- No token and no credit is in flight on a link. -/
def linkQuiet (l : Link) : Bool := l.fly.isEmpty && l.pipe == 0 && l.cfly == 0
/-- The rest a NAP waits for (R186). -/
def napRest (s : State) (c : Nat) : Bool := unitsRest s c && (linksOn s c).all (fun n => linkQuiet (link s c n))

/-! ### What a unit waits for (R154) -/

/-- Empty inputs and outputs without credit, as edge kinds 0 and 1 with port indices. -/
def ins (l : List Nat) : List (Nat × Nat) := l.map (fun p => (0, p % 8))
def outs (s : State) (c : Nat) (l : List (Nat × Nat)) : List (Nat × Nat) := (l.filter (fun o => !credits s c o.1 o.2)).map (fun o => (1, o.1 % 8))
def dry (s : State) (c : Nat) (l : List Nat) : List (Nat × Nat) := ins (l.filter (fun p => (headTok s c p).isNone))
/-- For each firing a unit of the fabric has before it, the conditions of R130 it does not meet. -/
def unmet (s : State) (c u : Nat) : List (List (Nat × Nat)) :=
  if u = 0 then
    [if wRoom s c then dry s c [pW] else [],
     match (arr s c).pass with
     | none => dry s c [pPD] ++ outs s c [(pDONE, 1)]
     | some p => if p.entered.length < p.nseq then dry s c (seqPorts s c p) ++ outs s c (if p.emit then [(pO, 1)] else []) else []]
  else if u ≤ 6 then
    let n := u - 1
    if cuReady s c n then [ins (cuDry s c n) ++ (cuFull s c n).map (fun i => (1, i))] else []
  else if 8 ≤ u ∧ u ≤ 11 then
    let m := u - 8
    let mode := muMode s c (activeBuf s c) m
    if mode = 5 then
      [if spillRoom s c m then dry s c [spillIn s c m] else [], if (mu s c m).spill.outBuf.isEmpty then [] else outs s c [(spillOut s c m, 1)]]
    else match (mu s c m).walk with
      | none =>
        if mode = 1 ∨ mode = 2 then (if muTrig s c (activeBuf s c) m = 0 then [dry s c [muPort m 3]] else [])
        else if mode = 3 ∨ mode = 4 then [dry s c [muPort m 1]] else []
      | some w => if muWaits s c m then [] else [(if muFed s c m w then [] else ins [muIn s c m]) ++ outs s c (muOuts s c m w)]
  else if u = 12 then
    (List.range 6).map (fun p => if (tget {} (qe s c).qx p).toks.isEmpty then [] else outs s c [(portId uQE p, 1)]) ++
      (List.range 6).map (fun p => if qyRoom s c p then dry s c [portId uQE p] else [])
  else []

end Sys2Proof.Machine
end

