-- ==== Sys2Proof/Machine/CfgOps.lean ====
section
/-! DEFINITION. Loading, validating and switching configurations (R142–R152), link snapshots (R153). -/
namespace Sys2Proof.Machine
open Sys2Proof

/-! ### Validation (R119, R127–R129, R135, R145) -/

/-- The network of an output port and of an input port: 0 scalar, 1 vector, 2 control; none where the port does not exist (R123). -/
def outNet (port : Nat) : Option Nat :=
  let u := port / 8
  let i := port % 8
  if u = 0 then (if i = 0 then some 1 else if i = 1 then some 2 else none)
  else if u ≤ 6 then (if i ≤ 1 then some 1 else if i = 2 then some 0 else if i = 3 then some 2 else none)
  else if 8 ≤ u ∧ u ≤ 11 then (if i = 0 then some 1 else if i = 1 then some 0 else if i = 2 then some 2 else none)
  else if u = 12 then (if i ≤ 3 then some 1 else if i ≤ 5 then some 0 else none)
  else if u = 13 then (if i ≤ 1 then some 0 else if i = 2 then some 2 else none)
  else none
def inNet (port : Nat) : Option Nat :=
  let u := port / 8
  let i := port % 8
  if u = 0 then (if i ≤ 1 ∨ i = 4 then some 1 else if i ≤ 5 then some 0 else none)
  else if u ≤ 6 then (if i ≤ 2 then some 1 else if i ≤ 4 then some 0 else if i = 5 then some 2 else none)
  else if 8 ≤ u ∧ u ≤ 11 then (if i = 0 then some 1 else if i ≤ 2 then some 0 else if i = 3 then some 2 else none)
  else if u = 12 then (if i ≤ 3 then some 1 else if i ≤ 5 then some 0 else none)
  else if u = 13 then (if i ≤ 1 then some 0 else if i = 2 then some 2 else none)
  else none

/-- Whether the n-th entry, alone and with the entries before it, keeps the rules; a rule over many links fails at the first link
that breaks it. -/
def linkOk (ls : List (Nat × LinkCfg)) (l : LinkCfg) : Bool :=
  let same := ls.filter (fun e => e.2.net == l.net)
  let depth := (same.map (fun e => e.2.depth)).foldl (· + ·) 0
  let lim := if l.net = 0 then (48, 512) else if l.net = 1 then (48, 256) else (32, 256)
  outNet l.src == some l.net && inNet l.dst == some l.net && decide (1 ≤ l.depth) && decide (l.depth ≤ 64) &&
    decide (l.preload ≤ l.depth) && l.rsv == 0 && decide (countp (fun e => e.2.src == l.src) ls < 4) &&
    !ls.any (fun e => e.2.dst == l.dst) && decide (same.length < lim.1) && decide (depth + l.depth ≤ lim.2)
/-- The first entry that fails. -/
def linksBad (before : List (Nat × LinkCfg)) : List (Nat × LinkCfg) → Option Nat
  | [] => none
  | (n, l) :: r => if linkOk before l then linksBad ((n, l) :: before) r else some n

/-- FAIL_AT of a buffer's validation; none where it passes (R145). Where several checks fail, FORMAT and the array word come first, then the
lowest link, then the unit sections (DESIGN CHOICE, log entry 116). Words at the reserved offsets are not looked at (DESIGN CHOICE, log entry
154). -/
def validate (s : State) (c b : Nat) : Option Nat :=
  let a := bufWord s c b 2
  let w := bits a 0 4
  let ls := ((List.range 128).map (fun n => (n, linkCfg s c b n))).filter (fun e => e.2.en)
  let arrOk :=
    decide (w ≤ 10) && decide (bits a 4 4 ≤ 10) &&
    if w = 0 then !ls.any (fun e => decide (e.2.src / 8 = 0) || decide (e.2.dst / 8 = 0))
    else pairingOk w (bits a 4 4) && !(bit a 8 && w == 10)
  if bufWord s c b 0 ≠ 1 || !arrOk then some 0x80
  else
    match linksBad [] ls with
    | some n => some n
    | none =>
      if (List.range 6).all (fun n => cuValid s c b n) && (List.range 4).all (fun m => muValid s c b m) && bindValid s c b then none
      else some 0x81

def validBuf (s : State) (c b : Nat) : Bool := fb s (flowPage c) (fFLOW_CFG_STATUS_VALID0.sub b)
def fabOf (s : State) (c : Nat) : Fab := (core s c).fab
def setFab (s : State) (c : Nat) (f : Fab) : State := setCore s c { core s c with fab := f }

/-- A refusal of R144. -/
def activeRefused (s : State) (c off : Nat) : State := flowErr s c cNOT_READY 0x56 off none

/-! ### Loads and writes of a buffer (R143, R144) -/

/-- FLOW_IMG_GO with GO. A refused one has no image offset of its own, and DETAIL is 0 (DESIGN CHOICE, log entry 117). -/
def imgGo (s : State) (c b : Nat) : State :=
  if b = activeBuf s c || (fabOf s c).load.isSome then activeRefused s c 0
  else
    let at_ := fd s (flowPage c) fFLOW_IMG_ADDR_ADDR * 512
    let s := setFab s c { fabOf s c with load := some b, loadAt := at_ }
    let s := fdSet (fdSet s (flowPage c) (fFLOW_CFG_STATUS_VALID0.sub b) 0) (flowPage c) fFLOW_CFG_STATUS_LOADING 1
    (rangeAsk s c { start := at_, len := 512, write := false, owner := whoLoader }).1

/-- A write of FLOW_WIN_DATA, and the step of the window after any access. -/
def winStep (s : State) (c : Nat) : State :=
  if fb s (flowPage c) fFLOW_WIN_SEL_INC then fdSet s (flowPage c) fFLOW_WIN_SEL_OFFSET (fd s (flowPage c) fFLOW_WIN_SEL_OFFSET + 1) else s
def winWrite (s : State) (c : Nat) (v : Word) : State :=
  let b := fd s (flowPage c) fFLOW_WIN_SEL_BUF
  let i := fd s (flowPage c) fFLOW_WIN_SEL_OFFSET
  let s := if b = activeBuf s c then activeRefused s c (4 * i) else setBufWord s c b i v
  winStep s c
def winRead (s : State) (c : Nat) : State × Nat :=
  (winStep s c, bufWord s c (fd s (flowPage c) fFLOW_WIN_SEL_BUF) (fd s (flowPage c) fFLOW_WIN_SEL_OFFSET))

/-- A write of ARR_CFG0 or ARR_CFG1 whose fields have been checked (R119, R144). -/
def arrCfgWrite (s : State) (c b : Nat) (v : Word) : State :=
  if b = activeBuf s c then activeRefused s c 8 else setBufWord s c b 2 v

/-- FLOW_CFG_CHECK starts the validation of an inactive buffer (R145); while one is under way it starts nothing (DESIGN CHOICE, log
entry 116). -/
def startCheck (s : State) (c b : Nat) : State :=
  if (fabOf s c).check.isSome then s
  else fdSet (setFab s c { fabOf s c with check := some b }) (flowPage c) fFLOW_CFG_STATUS_CHECKING 1
def cfgCheck (s : State) (c v : Nat) : State :=
  if bit v 0 && activeBuf s c != 0 then startCheck s c 0
  else if bit v 1 && activeBuf s c != 1 then startCheck s c 1
  else s

/-! ### CFGSW (R146–R150) -/

/-- CFGSW completes with a code: QX ports resume, the sequencer goes on. -/
def cfgswDone (s : State) (c code : Nat) : State :=
  let s := setFab s c { fabOf s c with sw := none }
  let s := fdSet (fdSet s (flowPage c) fFLOW_STATUS_SWITCH 0) (flowPage c) fFLOW_STATUS_QSTOP 0
  match (seqr s c).wait with
  | .cfgsw rd => seqFinish s c rd (BitVec.ofNat 32 code) code
  | _ => s

/-- The array at a switch (R107): tiles kept where WFMT and SPARSE stay the same. -/
def arrSwitch (s : State) (c old new : Nat) (purge : Bool) : State :=
  let a := arr s c
  let f := fun b => bufWord s c b 2 % 16 + bits (bufWord s c b 2) 8 1 * 16
  let same := f old == f new
  let loading := a.shadow == 1
  let s := if loading then bump s (flowPage c) 0xE40 else s
  let keep := same && a.shadow == 2
  setArr s c { a with active := (if same then a.active else none), shadow := (if keep then 2 else 0), shTile := (if keep then a.shTile else {}), bank0 := (if purge then [] else a.bank0), bank1 := (if purge then [] else a.bank1), pass := none, retrying := false }

/-- The units of the active configuration start afresh: spill rings are asked for, and the update engines' constants forgotten (R140, R150,
R169). Messages of QY ports that have no final outcome stay noted (R255). -/
def startUnits (s : State) (c : Nat) : State :=
  let k := core s c
  let s := setCore s c { k with cus := [], mus := [], qe := { k.qe with qx := [], qy := tmap (fun _ y => { out := y.out }) k.qe.qy } }
  (List.range 4).foldl (fun s m => if muMode s c (activeBuf s c) m = 5 then (rangeTake s c (spillRange s c m)).1 else s) s
/-- A spill ring of the active configuration waits for its range. -/
def ringsWait (s : State) (c : Nat) : Bool :=
  (List.range 4).any (fun m => muMode s c (activeBuf s c) m == 5 && rangeWaiting (core s c) m 0)
/-- The links set as R135 states; update engines read their constants where they can at once (R169). -/
def startFlow (s : State) (c : Nat) : State :=
  (List.range 6).foldl (fun s n => if bits (cuWord s c (activeBuf s c) n 0) 0 2 = 3 then (updConsts s c n).1 else s) (startLinks s c)

/-- ACTIVE and EPOCH change: nothing of the old configuration is left (R135, R147, R149, R150, R152). -/
def activate (s : State) (c : Nat) (purge : Bool) : State :=
  let old := activeBuf s c
  let new := 1 - old
  let s := arrSwitch s c old new purge
  let s := (List.range 10).foldl (fun s m => rangeRelease s c m 0) s
  let s := fdSet (fdSet s (flowPage c) fFLOW_STATUS_ACTIVE new) (flowPage c) fFLOW_STATUS_EPOCH (1 - epoch s c)
  let s := if old = 0 && (fabOf s c).buf0.isEmpty then fdSet s (flowPage c) fFLOW_CFG_STATUS_VALID0 0 else s
  startUnits (setFab s c { fabOf s c with links := [] }) c

/-- The end of a switch: it waits for the ranges of the new spill rings, then the links are set and CFGSW completes (R149, R150). -/
def cfgswFinish (s : State) (c : Nat) : State :=
  match (fabOf s c).sw with
  | none => s
  | some sw =>
    let s := fdSet (setFab s c { fabOf s c with sw := some { sw with switched := true } }) (flowPage c) fFLOW_STATUS_SWITCH 3
    if ringsWait s c then s else cfgswDone (bump (startFlow s c) (flowPage c) 0xC00) c cOK
/-- A range has been granted: a switch that waited for it goes on. -/
def cfgswResume (s : State) (c : Nat) : State := if switching s c then cfgswFinish s c else s

/-- Tokens a PURGE discards (R149). One still in a pipeline counts once, whatever number of links it was bound for (DESIGN CHOICE, log
entry 117). -/
def purgeCount (s : State) (c : Nat) : Nat :=
  let k := core s c
  let links := (k.fab.links.map (fun e => e.2.q.length + e.2.fly.length)).foldl (· + ·) 0
  let arr := match k.arr.pass with | some p => if p.emit then p.entered.length - p.done else 0 | none => 0
  let cus := (k.cus.map (fun e => (e.2.pipe.map (fun f => (f.outs.map (fun o => o.2.length)).foldl (· + ·) 0)).foldl (· + ·) 0)).foldl (· + ·) 0
  let mus := (k.mus.map (fun e => e.2.emit.length + e.2.spill.inBuf.length + e.2.spill.ring.length + e.2.spill.outBuf.length)).foldl (· + ·) 0
  let qx := (k.qe.qx.map (fun e => e.2.toks.length)).foldl (· + ·) 0
  links + arr + cus + mus + qx

/-- A PURGE takes place (R149). -/
def purge (s : State) (c : Nat) : State :=
  let s := bumpBy s (flowPage c) 0xC08 (purgeCount s c)
  let s := (List.range 6).foldl (fun s p => qyPurge s c p) s
  cfgswFinish (activate s c true) c

/-- A CFGSW goes on: it waits for a load of the incoming buffer, validates it where it must, then purges or waits for rest
(R146). -/
def cfgswAdvance (s : State) (c : Nat) : State :=
  match (fabOf s c).sw with
  | none => s
  | some sw =>
    let b := 1 - activeBuf s c
    if sw.switched || (fabOf s c).load == some b then s
    else if !validBuf s c b then fdSet (startCheck s c b) (flowPage c) fFLOW_STATUS_SWITCH 1
    else if sw.purge then purge s c
    else fdSet s (flowPage c) fFLOW_STATUS_SWITCH 2

/-- CFGSW issued by the sequencer (R146). -/
def cfgswIssue (s : State) (c rd : Nat) (purge : Bool) : State :=
  let s := setSeq s c { seqr s c with wait := .cfgsw rd }
  let s := setSeqSt s c 5 0
  let s := fdSet (fdSet s (flowPage c) fFLOW_STATUS_FORM (b2n purge)) (flowPage c) fFLOW_STATUS_QSTOP 1
  let s := setFab s c { fabOf s c with sw := some { purge := purge, issued := s.now } }
  cfgswAdvance s c

/-- A validation ends (R145, R146). -/
def checkDone (s : State) (c : Nat) : State :=
  match (fabOf s c).check with
  | none => s
  | some b =>
    let s := fdSet (setFab s c { fabOf s c with check := none }) (flowPage c) fFLOW_CFG_STATUS_CHECKING 0
    let sw := match (fabOf s c).sw with | some x => !x.switched | none => false
    let mine := sw && b == 1 - activeBuf s c
    match validate s c b with
    | none =>
      let s := fdSet s (flowPage c) (fFLOW_CFG_STATUS_VALID0.sub b) 1
      if sw then cfgswAdvance s c else s
    | some f =>
      let s := fdSet s (flowPage c) fFLOW_CFG_STATUS_FAIL_AT f
      let s := flowErr s c cRANGE 0x50 f (some 9)
      if mine then cfgswDone s c cRANGE else if sw then cfgswAdvance s c else s

/-- Words of the image written into the buffer, two from each scratchpad word. -/
def loadWords (s : State) (c b i : Nat) : List (DWord × Bool) → State
  | [] => s
  | (v, _) :: l =>
    let lo := BitVec.ofNat 32 (bits v.toNat 0 32)
    let hi := BitVec.ofNat 32 (bits v.toNat 32 32)
    loadWords (setBufWord (setBufWord s c b (2 * i) lo) c b (2 * i + 1) hi) c b (i + 1) l

/-- An image load ends, from the address FLOW_IMG_ADDR held at its start (R143). -/
def loadDone (s : State) (c : Nat) : State :=
  match (fabOf s c).load with
  | none => s
  | some b =>
    if rangeWaiting (core s c) whoLoader 0 then s
    else
      let fin := fun (s : State) =>
        let s := fdSet (setFab s c { fabOf s c with load := none }) (flowPage c) fFLOW_CFG_STATUS_LOADING 0
        cfgswAdvance (rangeRelease s c whoLoader 0) c
      match spadReadAll s c whoLoader (fabOf s c).loadAt 512 with
      | (s, .wait, _) => s
      | (s, a, l) =>
        let s := fdSet s (flowPage c) (fFLOW_CFG_STATUS_VALID0.sub b) 0
        match l.findIdx? (·.2), a with
        | some i, _ => fin (flowErr (loadWords s c b 0 (l.take i)) c cPOISON 0x54 (8 * i) (some 13))
        | none, .refused e => fin (flowErr (loadWords s c b 0 l) c e 0x54 (8 * l.length) (some 13))
        | none, _ => fin (loadWords s c b 0 l)

/-- Whether a link is at rest for R147: nothing in flight, and its queue empty unless it is preloaded. -/
def linkRest (s : State) (c n : Nat) : Bool :=
  let l := link s c n
  linkQuiet l && (l.q.isEmpty || (linkCfg s c (activeBuf s c) n).preload != 0)

/-- The first cycle of rest: the switch (R147). -/
def quiesceSwitch (s : State) (c : Nat) : State :=
  match (fabOf s c).sw with
  | none => s
  | some sw =>
    if sw.purge || sw.switched || fd s (flowPage c) fFLOW_STATUS_SWITCH != 2 || !validBuf s c (1 - activeBuf s c) || !unitsRest s c
        || !(linksOn s c).all (fun n => linkRest s c n) then s
    else
      let drop := ((linksOn s c).map (fun n => (link s c n).q.length)).foldl (· + ·) 0
      cfgswFinish (activate (bumpBy s (flowPage c) 0xC10 drop) c false) c

/-- QUIESCE times out (R148). -/
def quiesceTimeout (s : State) (c : Nat) : State :=
  match (fabOf s c).sw with
  | none => s
  | some sw =>
    if sw.purge || sw.switched then s
    else
      let d := ((linksOn s c).find? (fun n => !linkRest s c n)).getD 0xFF
      cfgswDone (flowErr (bump s (flowPage c) 0xC20) c cTIMEOUT 0x51 d (some 8)) c cTIMEOUT

/-! ### Snapshots (R153, R157) -/

def linkSnapshot (s : State) (c n : Nat) : State :=
  let l := link s c n
  let en := (linkCfg s c (activeBuf s c) n).en
  let v := if en then l.q.length + 2 ^ 8 * l.credits + 2 ^ 16 * (l.fly.length + l.pipe + l.cfly) + 2 ^ 23 else 0
  booksCheck (wr s (flowPage c) 0x64 v) c n
/-- A read of FLOW_LINK_PEAK; what is queued from then on counts again from the tokens queued. -/
def linkPeak (s : State) (c : Nat) : State × Nat :=
  let n := fd s (flowPage c) fFLOW_LINK_SEL_LINK
  let l := link s c n
  (setLink s c n { l with peak := l.q.length }, l.peak)

/-- FOUND written with 1 (R157). -/
def gridClear (s : State) (c : Nat) : State :=
  let s := (List.range 32).foldl (fun s i => wr64 s (flowPage c) (0x100 + 8 * i) 0) s
  wr s (flowPage c) 0x70 0

end Sys2Proof.Machine
end

