-- ==== Sys2Proof/Machine/Rv.lean ====
section
/-! DEFINITION. The words of RV32IMC: fields, immediates, the expansion of a 16-bit instruction, and the integer operations (R179).
The encodings and results are those of the RISC-V unprivileged specification, which R179 names (PRESUMED, log entry 30). -/
namespace Sys2Proof.Machine
open Sys2Proof

def rvOp (w : Nat) : Nat := bits w 0 7
def rvRd (w : Nat) : Nat := bits w 7 5
def rvF3 (w : Nat) : Nat := bits w 12 3
def rvRs1 (w : Nat) : Nat := bits w 15 5
def rvRs2 (w : Nat) : Nat := bits w 20 5
def rvF7 (w : Nat) : Nat := bits w 25 7
/-- A signed immediate of `n` bits as a word. -/
def sx (n v : Nat) : Word := BitVec.ofInt 32 (if bit v (n - 1) then (v % 2 ^ n : Nat) - (2 ^ n : Nat) else (v % 2 ^ n : Nat))
def immI (w : Nat) : Word := sx 12 (bits w 20 12)
def immS (w : Nat) : Word := sx 12 (bits w 7 5 + 2 ^ 5 * bits w 25 7)
def immB (w : Nat) : Word := sx 13 (2 * bits w 8 4 + 2 ^ 5 * bits w 25 6 + 2 ^ 11 * bits w 7 1 + 2 ^ 12 * bits w 31 1)
def immU (w : Nat) : Word := BitVec.ofNat 32 (bits w 12 20 * 2 ^ 12)
def immJ (w : Nat) : Word := sx 21 (2 * bits w 21 10 + 2 ^ 11 * bits w 20 1 + 2 ^ 12 * bits w 12 8 + 2 ^ 20 * bits w 31 1)

/-- 32-bit words put together from their fields. -/
def encR (f7 rs2 rs1 f3 rd op : Nat) : Nat := op + 2 ^ 7 * rd + 2 ^ 12 * f3 + 2 ^ 15 * rs1 + 2 ^ 20 * rs2 + 2 ^ 25 * f7
def encI (imm rs1 f3 rd op : Nat) : Nat := op + 2 ^ 7 * rd + 2 ^ 12 * f3 + 2 ^ 15 * rs1 + 2 ^ 20 * (imm % 4096)
def encS (imm rs2 rs1 f3 op : Nat) : Nat := op + 2 ^ 7 * (imm % 32) + 2 ^ 12 * f3 + 2 ^ 15 * rs1 + 2 ^ 20 * rs2 + 2 ^ 25 * (imm / 32 % 128)
def encB (imm rs2 rs1 f3 : Nat) : Nat :=
  0x63 + 2 ^ 7 * bits imm 11 1 + 2 ^ 8 * bits imm 1 4 + 2 ^ 12 * f3 + 2 ^ 15 * rs1 + 2 ^ 20 * rs2 + 2 ^ 25 * bits imm 5 6 + 2 ^ 31 * bits imm 12 1
def encJ (imm rd : Nat) : Nat :=
  0x6F + 2 ^ 7 * rd + 2 ^ 12 * bits imm 12 8 + 2 ^ 20 * bits imm 11 1 + 2 ^ 21 * bits imm 1 10 + 2 ^ 31 * bits imm 20 1

/-- `n`-bit two's complement `v` widened to 21 bits. -/
def widen21 (n v : Nat) : Nat := (sx n v).toNat % 2 ^ 21

/-- A 16-bit instruction as the 32-bit one it stands for; none where it is illegal or reserved. -/
def expandC (h : Nat) : Option Nat :=
  let f3 := bits h 13 3
  let rd := bits h 7 5
  let rs2 := bits h 2 5
  let rdp := 8 + bits h 2 3
  let rs1p := 8 + bits h 7 3
  let imm6 := widen21 6 (bits h 2 5 + 32 * bits h 12 1)
  let sh := bits h 2 5
  match h % 4 with
  | 0 =>
    let lw := 4 * bits h 6 1 + 8 * bits h 10 3 + 64 * bits h 5 1
    if f3 = 0 then
      let n := 4 * bits h 6 1 + 8 * bits h 5 1 + 16 * bits h 11 2 + 64 * bits h 7 4
      if n = 0 then none else some (encI n 2 0 rdp 0x13)
    else if f3 = 2 then some (encI lw rs1p 2 rdp 0x03)
    else if f3 = 6 then some (encS lw rdp rs1p 2 0x23)
    else none
  | 1 =>
    let j := widen21 12 (2 * bits h 3 3 + 16 * bits h 11 1 + 32 * bits h 2 1 + 64 * bits h 7 1 + 128 * bits h 6 1 + 256 * bits h 9 2 + 1024 * bits h 8 1 + 2048 * bits h 12 1)
    let b := widen21 9 (2 * bits h 3 2 + 8 * bits h 10 2 + 32 * bits h 2 1 + 64 * bits h 5 2 + 256 * bits h 12 1)
    if f3 = 0 then some (encI imm6 rd 0 rd 0x13)
    else if f3 = 1 then some (encJ j 1)
    else if f3 = 2 then some (encI imm6 0 0 rd 0x13)
    else if f3 = 3 then
      if rd = 2 then
        let n := widen21 10 (16 * bits h 6 1 + 32 * bits h 2 1 + 64 * bits h 5 1 + 128 * bits h 3 2 + 512 * bits h 12 1)
        if n = 0 then none else some (encI n 2 0 2 0x13)
      else if imm6 = 0 then none else some (0x37 + 2 ^ 7 * rd + 2 ^ 12 * (imm6 % 2 ^ 20))
    else if f3 = 4 then
      match bits h 10 2 with
      | 0 => if bit h 12 then none else some (encR 0 sh rs1p 5 rs1p 0x13)
      | 1 => if bit h 12 then none else some (encR 0x20 sh rs1p 5 rs1p 0x13)
      | 2 => some (encI imm6 rs1p 7 rs1p 0x13)
      | _ =>
        if bit h 12 then none
        else match bits h 5 2 with
          | 0 => some (encR 0x20 rdp rs1p 0 rs1p 0x33)
          | 1 => some (encR 0 rdp rs1p 4 rs1p 0x33)
          | 2 => some (encR 0 rdp rs1p 6 rs1p 0x33)
          | _ => some (encR 0 rdp rs1p 7 rs1p 0x33)
    else if f3 = 5 then some (encJ j 0)
    else some (encB b 0 rs1p (if f3 = 6 then 0 else 1))
  | 2 =>
    if f3 = 0 then (if bit h 12 then none else some (encR 0 sh rd 1 rd 0x13))
    else if f3 = 2 then
      if rd = 0 then none else some (encI (4 * bits h 4 3 + 32 * bits h 12 1 + 64 * bits h 2 2) 2 2 rd 0x03)
    else if f3 = 4 then
      if bit h 12 then
        if rs2 = 0 then (if rd = 0 then some 0x00100073 else some (encI 0 rd 0 1 0x67))
        else some (encR 0 rs2 rd 0 rd 0x33)
      else if rs2 = 0 then (if rd = 0 then none else some (encI 0 rd 0 0 0x67))
      else some (encR 0 rs2 0 0 rd 0x33)
    else if f3 = 6 then some (encS (4 * bits h 9 4 + 64 * bits h 7 2) rs2 2 2 0x23)
    else none
  | _ => none

/-- The integer operations of OP and OP-IMM. -/
def rvAlu (f3 : Nat) (alt : Bool) (a b : Word) : Word :=
  match f3 with
  | 0 => if alt then a - b else a + b
  | 1 => a <<< (b.toNat % 32)
  | 2 => if a.toInt < b.toInt then 1 else 0
  | 3 => if a.toNat < b.toNat then 1 else 0
  | 4 => a ^^^ b
  | 5 => if alt then a.sshiftRight (b.toNat % 32) else a >>> (b.toNat % 32)
  | 6 => a ||| b
  | _ => a &&& b

/-- The operations of the M extension. -/
def rvMul (f3 : Nat) (a b : Word) : Word :=
  match f3 with
  | 0 => a * b
  | 1 => BitVec.ofInt 32 (a.toInt * b.toInt / 2 ^ 32)
  | 2 => BitVec.ofInt 32 (a.toInt * (b.toNat : Int) / 2 ^ 32)
  | 3 => BitVec.ofNat 32 (a.toNat * b.toNat / 2 ^ 32)
  | 4 => if b = 0 then 0xFFFFFFFF else BitVec.ofInt 32 (a.toInt.tdiv b.toInt)
  | 5 => if b = 0 then 0xFFFFFFFF else BitVec.ofNat 32 (a.toNat / b.toNat)
  | 6 => if b = 0 then a else BitVec.ofInt 32 (a.toInt.tmod b.toInt)
  | _ => if b = 0 then a else BitVec.ofNat 32 (a.toNat % b.toNat)

/-- Whether a branch is taken; none for a reserved condition. -/
def rvBranch (f3 : Nat) (a b : Word) : Option Bool :=
  match f3 with
  | 0 => some (a == b)
  | 1 => some (a != b)
  | 4 => some (decide (a.toInt < b.toInt))
  | 5 => some (decide (a.toInt ≥ b.toInt))
  | 6 => some (decide (a.toNat < b.toNat))
  | 7 => some (decide (a.toNat ≥ b.toNat))
  | _ => none

/-- A loaded value of 1, 2 or 4 bytes, extended as the funct3 says. -/
def rvLoad (f3 v : Nat) : Word :=
  match f3 with
  | 0 => sx 8 v
  | 1 => sx 16 v
  | 4 => BitVec.ofNat 32 (v % 256)
  | 5 => BitVec.ofNat 32 (v % 65536)
  | _ => BitVec.ofNat 32 v
/-- Bytes of an access by funct3; none for a reserved one. -/
def rvSize (f3 : Nat) (store : Bool) : Option Nat :=
  match f3 with
  | 0 => some 1 | 1 => some 2 | 2 => some 4
  | 4 => if store then none else some 1
  | 5 => if store then none else some 2
  | _ => none

end Sys2Proof.Machine
end

