-- ==== Sys2Proof/Machine/SeqOps.lean ====
section
/-! DEFINITION. The sequencer: traps, memory accesses, the register window, CSRs, custom instructions, starting and halting
(R179–R190), and the descriptors it hands to the DMA engine (R218–R220). -/
namespace Sys2Proof.Machine
open Sys2Proof

/-! ### Traps and halts (R187) -/

/-- An exception: a halt in FAULT while TRAPHALT is 1, else a trap to mtvec. -/
def seqTrap (s : State) (c cause tval : Nat) : State :=
  let pc := pcOf s c
  if fb s (cPage c) fCORE_SEQ_CTL_TRAPHALT then
    let s := setSeqSt s c 4 0
    let s := fdSet (fdSet s (cPage c) fCORE_TRAP_MCAUSE cause) (cPage c) fCORE_TRAP_VAL_MTVAL (tval % 2 ^ 32)
    coreErr s c cRANGE 0x60 cause pc (some 8)
  else
    let q := seqr s c
    let s := setSeq s c { q with mcause := BitVec.ofNat 32 cause, mepc := BitVec.ofNat 32 pc, mtval := BitVec.ofNat 32 tval }
    setSeqSt (setPc s c (q.mtvec.toNat / 4 * 4)) c 1 0
/-- ECALL and EBREAK halt, the PC at the instruction that follows. -/
def seqEcall (s : State) (c next : Nat) : State := raiseInt (setSeqSt (setPc s c next) c 0 0) (cPage c) 9

def setMx (s : State) (c code : Nat) : State := setSeq s c { seqr s c with mxstat := code }
/-- A custom instruction that completes at once. -/
def seqDone (s : State) (c rd : Nat) (v : Word) (code : Nat) : State := seqFinish s c rd v code
/-- A custom instruction that waits. -/
def seqWait (s : State) (c : Nat) (w : Wait) (st on : Nat) : State :=
  setSeqSt (setSeq s c { seqr s c with wait := w }) c st on

/-! ### The DMA descriptor (R218–R220) -/

/-- The fields of a descriptor from its four words (R219). -/
def descOf (ws : List Nat) (addr : Nat) : Desc :=
  let w := fun (i : Nat) => bits (ws.getD (i / 2) 0) (32 * (i % 2)) 32
  { op := bits (w 0) 0 4, fence := bit (w 0) 4, notify := bit (w 0) 5, nq := bits (w 0) 6 6, tag := bits (w 0) 16 8, len := bits (w 1) 0 23, saddr := bits (w 2) 0 23, remote := w 3 + 2 ^ 32 * w 4, nlines := bits (w 5) 0 16, rstride := (sx 32 (w 6)).toInt, sstride := bits (w 7) 0 24, daddr := addr }

/-- Regions crossed by `n` bytes from an address. -/
def crossesRegion (a n : Nat) : Bool := n != 0 && decide (a / 65536 ≠ (a + n - 1) / 65536)
/-- The refusals of R220. Reserved fields are the bits R219 marks zero, and unused bits of words 1, 2, 5 and 7. -/
def descBad (ws : List Nat) (d : Desc) : Bool :=
  let w := fun (i : Nat) => bits (ws.getD (i / 2) 0) (32 * (i % 2)) 32
  let mem := d.op == 2 || d.op == 3
  let copy := d.op == 1
  let lineAt := fun (n : Nat) => (d.remote : Int) + n * d.rstride
  let inMem := fun (n : Nat) => decide (0 ≤ lineAt n) && decide (lineAt n + d.len ≤ 2 ^ 40)
  decide (d.op ≥ 4) || bits (w 0) 12 4 != 0 || bits (w 0) 24 8 != 0 || bits (w 1) 23 9 != 0 || bits (w 2) 23 9 != 0 ||
  bits (w 5) 16 16 != 0 || bits (w 7) 24 8 != 0 || (mem && w 4 ≥ 256) || (copy && w 4 != 0) ||
  d.len % 8 != 0 || d.saddr % 8 != 0 || (d.op != 0 && d.remote % 8 != 0) || d.rstride % 8 != 0 || d.sstride % 8 != 0 ||
  (mem && decide (d.len > 4194304)) || (!mem && decide (d.len > 65536)) || (!mem && decide (d.nlines > 1)) ||
  (!mem && crossesRegion d.saddr d.len) || (copy && crossesRegion d.remote d.len) ||
  (copy && decide (d.len * d.nlines ≠ 0) && decide (d.saddr < d.remote + d.len) && decide (d.remote < d.saddr + d.len)) ||
  (mem && decide (d.len * d.nlines ≠ 0) && !(inMem 0 && inMem (d.nlines - 1)))

/-- A capture of the SPAD page for a descriptor (R225). -/
def dmaErr (s : State) (c code source detail addr : Nat) : State :=
  raiseInt (errAt s (spadPage c) code source detail addr (coreTag s c)) (spadPage c) 11

/-- The descriptor's address and a memory address, as captures hold them (R225, log entry 124). -/
def Desc.where_ (d : Desc) (m : Nat) : Nat := d.daddr % 2 ^ 24 + 2 ^ 24 * (m / 2 ^ 32 % 2 ^ 8) + 2 ^ 32 * (m % 2 ^ 32)
/-- The memory address a descriptor names; FILL and COPY name none. -/
def Desc.mem (d : Desc) : Nat := if d.op = 2 ∨ d.op = 3 then d.remote else 0
/-- The id of the range under which DMAGO reads a descriptor, which counts in the DMA engine's quota (DESIGN CHOICE, log entry 160). -/
def descReadId : Nat := 2 ^ 32
/-- DMAGO (R183, R218–R220); `e` is what the code finds in the descriptor's first word. -/
def dmaGo (s : State) (c rd a : Nat) (e : Ecc) : State :=
  let fin := fun (s : State) (code : Nat) => seqDone s c rd (BitVec.ofNat 32 code) code
  if a % 32 ≠ 0 then fin s cRANGE
  else if a ≥ 0x800000 then fin (coreErr s c cRANGE 0x65 0 a none) cRANGE
  else
    match rangeTake s c { start := a / 8, len := 4, write := false, owner := whoDma, id := descReadId } with
    | (s, .wait) => s
    | (s, .refused) => fin s cRANGE
    | (s, .go) =>
      match spadReadEcc s c whoDma (a / 8) e 4 with
      | (s, .wait, _) => s
      | (s, .refused code, _) => fin (dmaErr (rangeRelease s c whoDma descReadId) c code 0x73 0 a) code
      | (s, .word _ _, l) =>
        let s := rangeRelease s c whoDma descReadId
        if l.any (·.2) then fin (dmaErr s c cPOISON 0x73 0 a) cPOISON
        else
          let ws := l.map (fun w => w.1.toNat)
          let d := descOf ws a
          if descBad ws d then fin (dmaErr s c cRANGE 0x73 d.tag (d.where_ d.mem)) cRANGE
          else if (core s c).sp.dma.length ≥ 16 then fin s cNOT_READY
          else
            let (s, id) := issue s c
            let k := core s c
            fin (setCore s c { k with sp := { k.sp with dma := k.sp.dma ++ [{ d with id := id }] } }) cOK

/-! ### Custom instructions (R183–R186) -/

/-- The refusal of a pop from a slot bound to a QX port (R254). -/
def qxPopRefused (s : State) (c q : Nat) : State := qErr s c cRANGE 0x85 q 0 13

/-- A popped word given to rd and qhi. -/
def qpopGive (s : State) (c rd : Nat) (v : DWord) (poison : Bool) : State :=
  let s := setSeq s c { seqr s c with qhi := BitVec.ofNat 32 (v.toNat / 2 ^ 32) }
  seqFinish s c rd (BitVec.ofNat 32 (v.toNat % 2 ^ 32)) (if poison then cPOISON else cOK)

def seqQpop (s : State) (c rd q : Nat) : State :=
  if qxBound s c q then seqDone (qxPopRefused s c q) c rd 0 cRANGE
  else
    match popSlot s c q with
    | (s, .word v p) => qpopGive s c rd v p
    | (s, .empty) => seqWait s c (.qpop rd q s.now) 2 1

/-- The slot QSEL selects (R183). A rotation before any selection from the bank starts at its slot 0 (DESIGN CHOICE, log entry 121). -/
def qselPick (s : State) (c mask bank : Nat) (rot : Bool) : Option Nat :=
  let ok := fun (i : Nat) => bit mask i && nonEmpty s c (32 * bank + i)
  let last := if bank = 0 then (seqr s c).lastSel0 else (seqr s c).lastSel1
  let first := match rot, last with | true, some l => l % 32 + 1 | _, _ => 0
  ((List.range 32).map (fun i => (first + i) % 32)).find? ok |>.map (32 * bank + ·)
def qselGive (s : State) (c rd bank q : Nat) : State :=
  let r := seqr s c
  let s := setSeq s c (if bank = 0 then { r with lastSel0 := some q } else { r with lastSel1 := some q })
  seqFinish s c rd (BitVec.ofNat 32 q) cOK
def seqQsel (s : State) (c rd mask ctl : Nat) : State :=
  let bank := ctl % 2
  match qselPick s c mask bank (bit ctl 1) with
  | some q => qselGive s c rd bank q
  | none =>
    if ctl / 256 = 0 then seqDone s c rd 0xFFFFFFFF cNOT_READY
    else seqWait s c (.qsel rd mask bank (bit ctl 1) (ctl / 256) s.now) 2 2

def seqQsend (s : State) (c rd a v : Nat) : State :=
  let i := bits v 0 10
  let len := bits v 10 13
  if a % 8 ≠ 0 ∨ len > 4096 then seqDone s c rd (BitVec.ofNat 32 cRANGE) cRANGE
  else
    match enterMsg s c i len a (seqr s c).nextId .seq with
    | (s, code) =>
      let s := if code = cOK then (issue s c).1 else s
      seqDone s c rd (BitVec.ofNat 32 code) code

def seqChopen (s : State) (c rd en v : Nat) : State :=
  match lowest1024 (fun i => (chan s c i).state == 0) with
  | none => seqDone s c rd 0xFFFFFFFF cNO_CHANNEL
  | some i =>
    let s := setChan s c i { state := 1, en := en % 2 ^ 22, slot := v % 64, cidx := bits v 6 12 }
    inject (seqWait s c (.chopen rd i) 2 3) c (openPkt s c i)

/-- MILE (R184): a number that is not CORE_STEP_MILE is refused at once; DETAIL is 0, as no operation failed (DESIGN CHOICE, log entry 156). -/
def seqMile (s : State) (c rd : Nat) (n : Word) : State :=
  if n.toNat ≠ fd s (cPage c) fCORE_STEP_MILE_MILE then
    seqDone (coreErr s c cRANGE 0x64 0 0 (some 13)) c rd (BitVec.ofNat 32 cRANGE) cRANGE
  else seqWait s c (.mile rd n) 2 4

/-- The step digest goes to the die controller; that of a leader once its follower has formed the same, that of a follower never (R448). -/
def digestOut (s : State) (c m : Nat) (v : DWord) : State :=
  if !corePaired s c then send s (.digest c m v)
  else
    let s := setSeq s c { seqr s c with digest := some (m, v) }
    let lead := c - c % 2
    if (seqr s (if c % 2 = 0 then c + 1 else lead)).digest = some (m, v) then send s (.digest lead m v) else s
/-- MILE completes when every outcome is final (R184). -/
def mileComplete (s : State) (c : Nat) : State :=
  match (seqr s c).wait with
  | .mile rd n =>
    let l := (seqr s c).issued
    if l.any (fun i => i.outcome.isNone) then s
    else
      let s' := setSeq s c { seqr s c with issued := [] }
      match l.findIdx? (fun i => i.outcome != some cOK) with
      | none => seqFinish (digestOut s' c n.toNat (stepDigest s c)) c rd (BitVec.ofNat 32 cOK) cOK
      | some k =>
        let code := ((l[k]?).bind (·.outcome)).getD cOK
        seqFinish (coreErr s' c code 0x64 k 0 (some 13)) c rd (BitVec.ofNat 32 code) code
  | _ => s

/-- NAP ends with every pending cause in rd, cleared (R186). -/
def napEnd (s : State) (c rd : Nat) : State :=
  let q := seqr s c
  let s := if q.napped then bump s (cPage c) 0xC18 else s
  let s := setSeq s c { seqr s c with causes := 0 }
  seqFinish s c rd (BitVec.ofNat 32 (q.causes % 32)) cOK
def seqNap (s : State) (c rd v : Nat) : State :=
  let mask := v % 32
  if (mask = 0 ∧ v / 256 = 0) ∨ (seqr s c).causes &&& mask ≠ 0 then napEnd s c rd
  else seqWait s c (.nap rd mask (v / 256) s.now) 2 6

/-! ### CSRs (R182) -/

/-- `cycle` counts on before a read by as many cycles as have passed since the last, a free number (log entry 7). -/
def cycleOn (s : State) (c : Nat) : State :=
  let q := seqr s c
  setSeq (freeUsed s) c { q with cycle := q.cycle + BitVec.ofNat 64 (Config.cycleCount s.free) }
/-- A CSR read; none where it does not exist. R182 says the CSRs include those named here; there are no others (DESIGN CHOICE, log entry 121). -/
def csrRead (s : State) (c n : Nat) : Option (State × Word) :=
  let q := seqr s c
  match n with
  | 0xC00 => let s := cycleOn s c; some (s, BitVec.ofNat 32 (seqr s c).cycle.toNat)
  | 0xC80 => let s := cycleOn s c; some (s, BitVec.ofNat 32 ((seqr s c).cycle.toNat / 2 ^ 32))
  | 0xC01 => some (s, BitVec.ofNat 32 s.now)
  | 0xC81 => some (s, BitVec.ofNat 32 (s.now / 2 ^ 32))
  | 0xC02 => some (s, BitVec.ofNat 32 q.instret.toNat)
  | 0xC82 => some (s, BitVec.ofNat 32 (q.instret.toNat / 2 ^ 32))
  | 0xF14 => some (s, BitVec.ofNat 32 (2 ^ 8 * (c / 144) + c % 144))
  | 0x305 => some (s, q.mtvec)
  | 0x341 => some (s, q.mepc)
  | 0x342 => some (s, q.mcause)
  | 0x343 => some (s, q.mtval)
  | 0x800 => some (s, q.qhi)
  | 0x801 => some (s, BitVec.ofNat 32 q.mxstat)
  | _ => none
/-- A CSR write; none where the CSR is read-only. -/
def csrWrite (s : State) (c n : Nat) (v : Word) : Option State :=
  let q := seqr s c
  match n with
  | 0x305 => some (setSeq s c { q with mtvec := v })
  | 0x341 => some (setSeq s c { q with mepc := BitVec.ofNat 32 (v.toNat / 2 * 2) })
  | 0x342 => some (setSeq s c { q with mcause := v })
  | 0x343 => some (setSeq s c { q with mtval := v })
  | _ => none

/-! ### Memory and the register window (R180, R188) -/

/-- How an access ends: with a value, not yet, or with an access fault. -/
inductive MemAns where
  | val (v : Nat)
  | wait
  | fault
  deriving DecidableEq, Repr

/-- QNE: bit q is set while queue q is non-empty. -/
def qneWord (s : State) (c bank : Nat) : Nat :=
  ((List.range 32).map (fun i => 2 ^ i * b2n (nonEmpty s c (32 * bank + i)))).foldl (· + ·) 0

/-- A load of the window by offset. -/
def winLoad (s : State) (c off : Nat) : State × MemAns :=
  let ok := fun (s : State) (v : Nat) => (setMx s c cOK, MemAns.val v)
  if off < 0x200 then
    let q := off / 8
    if off % 8 = 4 then ok s (tget 0 (seqr s c).hiLatch q).toNat
    else if qxBound s c q then (setMx (qxPopRefused s c q) c cRANGE, .val 0)
    else
      match popSlot s c q with
      | (s, .empty) => (setMx s c cNOT_READY, .val 0)
      | (s, .word v p) =>
        let r := seqr s c
        (setSeq s c { r with hiLatch := tput r.hiLatch q (BitVec.ofNat 32 (v.toNat / 2 ^ 32)), mxstat := if p then cPOISON else cOK }, .val (v.toNat % 2 ^ 32))
  else
    let pop := fun (port : Nat) (mask : Nat) =>
      match headTok s c port with
      | none => (s, MemAns.wait)
      | some t => (setMx (popTok s c port) c (if t.poison then cPOISON else cOK), MemAns.val (t.val % mask))
    match off with
    | 0x200 => ok s (qneWord s c 0)
    | 0x204 => ok s (qneWord s c 1)
    | 0x208 => ok s (fd s (cPage c) fCORE_STEP_MILE_MILE)
    | 0x20C => ok s (rd s (cPage c) 0xC % 65536)
    | 0x230 => pop (portId uSEQ 0) (2 ^ 32)
    | 0x234 => pop (portId uSEQ 1) (2 ^ 32)
    | 0x238 => pop (portId uSEQ 2) 2
    | 0x240 => ok s ((core s c).sp.dmaDone % 2 ^ 32)
    | 0x244 => ok s (core s c).sp.dma.length
    | 0x248 => ok s (countp (fun m => m.src == .seq) ((qe s c).sendq ++ (qe s c).unacked))
    | 0x250 => ok (setSeq s c { seqr s c with mboxIn := 0 }) (seqr s c).mboxIn.toNat
    | 0x260 => ok s ((seqr s c).wakeQ.toNat % 2 ^ 32)
    | 0x264 => ok s ((seqr s c).wakeQ.toNat / 2 ^ 32)
    | _ => (s, .fault)

/-- A store to the window by offset. -/
def winStore (s : State) (c off v : Nat) : State × MemAns :=
  let put := fun (port v : Nat) =>
    if credits s c port 1 then (setMx (emitTok (takeCredits s c port 1) c port (mkTok s c v false)) c cOK, MemAns.val 0) else (stallCount s c [(port, 1)], .wait)
  match off with
  | 0x220 => put (portId uSEQ 0) v
  | 0x224 => put (portId uSEQ 1) v
  | 0x228 => put (portId uSEQ 2) (v % 2)
  | 0x254 => (setMx (raiseInt (fdSet s (cPage c) fCORE_MBOX_OUT_DATA v) (cPage c) 14) c cOK, .val 0)
  | 0x260 => let q := seqr s c; (setMx (setSeq s c { q with wakeQ := BitVec.ofNat 64 (q.wakeQ.toNat / 2 ^ 32 * 2 ^ 32 + v) }) c cOK, .val 0)
  | 0x264 => let q := seqr s c; (setMx (setSeq s c { q with wakeQ := BitVec.ofNat 64 (q.wakeQ.toNat % 2 ^ 32 + 2 ^ 32 * v) }) c cOK, .val 0)
  | _ => (s, .fault)

/-- Where an address of the sequencer lies: local memory, scratchpad, window or nowhere (R180). -/
inductive SeqArea where
  | local_ | spad | window | none_
  deriving DecidableEq, Repr
def areaOf (a : Nat) : SeqArea :=
  if a < 0x10000 then .local_
  else if 0x10000000 ≤ a ∧ a < 0x10800000 then .spad
  else if 0xF0000000 ≤ a ∧ a < 0xF0001000 then .window
  else .none_

/-- An access of the sequencer to an address that is not implemented is captured (R36, R190). -/
def noArea (s : State) (c a : Nat) : State := coreErr s c cRANGE 0x65 0 a none
/-- A load of `n` aligned bytes; an access in an UNORD region waits on no range (R180, R202). -/
def seqLoad (s : State) (c a n : Nat) (e : Ecc) : State × MemAns :=
  match areaOf a with
  | .local_ => (s, .val (leNat (memGetAll (seqr s c).lm a n)))
  | .spad =>
    let b := a - 0x10000000
    let w := b / 8
    if (writePending (core s c) w && !regionF s c (regionOf w) fSPAD_REGION_UNORD) || regionWaits s c whoSeq w then (s, .wait)
    else
      match spadRead s c whoSeq w e with
      | (s, .word v p) => if p then (setMx s c cPOISON, .fault) else (s, .val (bits v.toNat (8 * (b % 8)) (8 * n)))
      | (s, .wait) => (s, .wait)
      | (s, .refused _) => (s, .fault)
  | .window => if n = 4 then winLoad s c (a % 4096) else (s, .fault)
  | .none_ => (noArea s c a, .fault)

/-- A store of `n` aligned bytes. -/
def seqStore (s : State) (c a n v : Nat) (e : Ecc) : State × MemAns :=
  match areaOf a with
  | .local_ => let q := seqr s c; (setSeq s c { q with lm := memPutAll q.lm a (natLe n v) }, .val 0)
  | .spad =>
    let b := a - 0x10000000
    let w := b / 8
    if (writePending (core s c) w && !regionF s c (regionOf w) fSPAD_REGION_UNORD) || regionWaits s c whoSeq w then (s, .wait)
    else
      match spadWrite s c whoSeq w ((2 ^ n - 1) * 2 ^ (b % 8)) (BitVec.ofNat 64 (v % 2 ^ (8 * n) * 2 ^ (8 * (b % 8)))) false e with
      | (s, .word _ _) => (s, .val 0)
      | (s, .wait) => (s, .wait)
      | (s, .refused _) => (s, .fault)
  | .window => if n = 4 then winStore s c (a % 4096) v else (s, .fault)
  | .none_ => (noArea s c a, .fault)

/-! ### Issue (R179) -/

/-- The instruction at the PC: its 32-bit form and its length; none where it cannot be fetched. Only local memory holds instructions
(DEDUCED, log entry 157). -/
inductive Fetch where
  | fault
  | illegal (bits : Nat)
  | instr (w len : Nat)
  deriving DecidableEq, Repr
def fetchAt (s : State) (c : Nat) : Fetch :=
  let pc := pcOf s c
  let lm := (seqr s c).lm
  if pc ≥ 0xFFFF then .fault
  else
    let h := leNat (memGetAll lm pc 2)
    if h % 4 = 3 then
      if pc + 4 > 0x10000 then .fault
      else .instr (leNat (memGetAll lm pc 4)) 4
    else match expandC h with
      | some w => .instr w 2
      | none => .illegal h

/-- A CSR instruction (R182). -/
def seqCsr (s : State) (c w next : Nat) : State :=
  let n := bits w 20 12
  let f3 := rvF3 w
  let src : Word := if f3 ≥ 5 then BitVec.ofNat 32 (rvRs1 w) else xget s c (rvRs1 w)
  match csrRead s c n with
  | none => seqTrap s c 2 w
  | some (t, old) =>
    let writes := f3 % 4 = 1 || rvRs1 w != 0
    let v := match f3 % 4 with | 1 => src | 2 => old ||| src | _ => old &&& ~~~ src
    if writes then
      match csrWrite t c n v with
      | none => seqTrap s c 2 w
      | some t => retire (xset t c (rvRd w) old) c next
    else retire (xset t c (rvRd w) old) c next

/-- A custom instruction (R183). `e` is what the code finds in the scratchpad word it reads first. -/
def seqCustom (s : State) (c w : Nat) (e : Ecc) : State :=
  let a := (xget s c (rvRs1 w)).toNat
  let b := (xget s c (rvRs2 w)).toNat
  let rd := rvRd w
  if rvF7 w ≠ 0 then seqTrap s c 2 w
  else if rvOp w = 0x2B then (if rvF3 w = 0 then seqNap s c rd a else seqTrap s c 2 w)
  else match rvF3 w with
    | 0 => seqQpop s c rd (a % 64)
    | 1 => seqQsel s c rd a b
    | 2 => seqQsend s c rd a b
    | 3 => seqChopen s c rd a b
    | 4 => let r := chClose s c (a % 1024); seqDone r.1 c rd (BitVec.ofNat 32 r.2) r.2
    | 5 => dmaGo s c rd a e
    | 6 => cfgswIssue s c rd (bit a 0)
    | _ => seqMile s c rd (BitVec.ofNat 32 a)

/-- One instruction of the base set. `e` is what the code finds in a scratchpad word it accesses. -/
def seqBase (s : State) (c w len : Nat) (e : Ecc) : State :=
  let pc := pcOf s c
  let next := (pc + len) % 2 ^ 32
  let r1 := xget s c (rvRs1 w)
  let r2 := xget s c (rvRs2 w)
  let rd := rvRd w
  let give := fun (v : Word) => retire (xset s c rd v) c next
  let ill := seqTrap s c 2 w
  match rvOp w with
  | 0x37 => give (immU w)
  | 0x17 => give (BitVec.ofNat 32 pc + immU w)
  | 0x6F => retire (xset s c rd (BitVec.ofNat 32 next)) c (BitVec.ofNat 32 pc + immJ w).toNat
  | 0x67 =>
    if rvF3 w = 0 then retire (xset s c rd (BitVec.ofNat 32 next)) c ((r1 + immI w).toNat / 2 * 2) else ill
  | 0x63 =>
    match rvBranch (rvF3 w) r1 r2 with
    | none => ill
    | some true => retire s c (BitVec.ofNat 32 pc + immB w).toNat
    | some false => retire s c next
  | 0x03 =>
    match rvSize (rvF3 w) false with
    | none => ill
    | some n =>
      let a := (r1 + immI w).toNat
      if a % n ≠ 0 then seqTrap s c 4 a
      else match seqLoad s c a n e with
        | (s, .val v) => retire (xset s c rd (rvLoad (rvF3 w) v)) c next
        | (s, .wait) => s
        | (s, .fault) => seqTrap s c 5 a
  | 0x23 =>
    match rvSize (rvF3 w) true with
    | none => ill
    | some n =>
      let a := (r1 + immS w).toNat
      if a % n ≠ 0 then seqTrap s c 6 a
      else match seqStore s c a n r2.toNat e with
        | (s, .val _) => retire s c next
        | (s, .wait) => s
        | (s, .fault) => seqTrap s c 7 a
  | 0x13 =>
    let f3 := rvF3 w
    if f3 = 1 ∧ rvF7 w ≠ 0 then ill
    else if f3 = 5 ∧ rvF7 w ≠ 0 ∧ rvF7 w ≠ 0x20 then ill
    else give (rvAlu f3 (f3 == 5 && rvF7 w == 0x20) r1 (if f3 = 1 ∨ f3 = 5 then BitVec.ofNat 32 (rvRs2 w) else immI w))
  | 0x33 =>
    if rvF7 w = 1 then give (rvMul (rvF3 w) r1 r2)
    else if rvF7 w = 0 then give (rvAlu (rvF3 w) false r1 r2)
    else if rvF7 w = 0x20 ∧ (rvF3 w = 0 ∨ rvF3 w = 5) then give (rvAlu (rvF3 w) true r1 r2)
    else ill
  | 0x0F => if rvF3 w = 0 then retire s c next else ill
  | 0x73 =>
    if rvF3 w = 0 then
      if w = 0x00000073 ∨ w = 0x00100073 then seqEcall s c next
      else if w = 0x30200073 then retire s c (seqr s c).mepc.toNat
      else if w = 0x10500073 then retire s c next
      else ill
    else if rvF3 w = 4 then ill
    else seqCsr s c w next
  | 0x0B => seqCustom s c w e
  | 0x2B => seqCustom s c w e
  | _ => ill

/-- The sequencer issues the instruction at its PC, when it is running or retries a window access, and the instruction is of the
kind a command names. After a STEP, or with RUN 0, it halts once that instruction is done, taken trap or not (R189). -/
def seqIssue (s : State) (c : Nat) (e : Ecc) (want : Nat → Bool) : State :=
  let ends := fun (t : State) => if seqSt t c = 1 && !goesOn t c then setSeqSt t c 0 0 else t
  let st := seqSt s c
  let retry := st == 2 && fd s (cPage c) fCORE_SEQ_STATE_WAITON == 5
  if !(st == 1 || retry) then s
  else
    match fetchAt s c with
    | .fault => if want 0 then ends (seqTrap (if areaOf (pcOf s c) = .none_ then noArea s c (pcOf s c) else s) c 1 (pcOf s c)) else s
    | .illegal h => if want 0 then ends (seqTrap s c 2 h) else s
    | .instr w len =>
      if !want w then s
      else
        let s := if retry then setSeqSt s c 1 0 else s
        let t := seqBase s c w len e
        let a := (xget s c (rvRs1 w) + (if rvOp w = 0x23 then immS w else immI w)).toNat
        if seqSt t c ≠ 1 then t
        else if pcOf t c = pcOf s c ∧ (seqr t c).instret = (seqr s c).instret then
          (if (rvOp w = 0x03 ∨ rvOp w = 0x23) ∧ areaOf a = .window then setSeqSt t c 2 5 else t)
        else ends t

/-- The kinds of instruction the rows of R183 and R188 name. -/
def anyInstr : Nat → Bool := fun _ => true
def customKind (op f3 : Nat) (w : Nat) : Bool := rvOp w == op && rvF3 w == f3 && rvF7 w == 0
def loadKind (s : State) (c : Nat) (ok : Nat → Bool) (w : Nat) : Bool := rvOp w == 0x03 && ok (xget s c (rvRs1 w) + immI w).toNat
def storeKind (s : State) (c : Nat) (ok : Nat → Bool) (w : Nat) : Bool := rvOp w == 0x23 && ok (xget s c (rvRs1 w) + immS w).toNat

/-! ### Starting, halting, stepping (R187, R189) -/

/-- Registers and CSRs cleared at a fresh start. -/
def seqClear (q : Seq) : Seq :=
  { q with x := [], mcause := 0, mepc := 0, mtval := 0, mtvec := 0, qhi := 0, mxstat := 0, instret := 0, cycle := 0, wait := .none, napped := false }

/-- RUN written 1. -/
def seqRun (s : State) (c : Nat) : State :=
  let st := seqSt s c
  let q := seqr s c
  if st = 4 ∨ (st = 0 ∧ q.fresh) then
    let s := setSeq s c { seqClear q with fresh := false }
    setSeqSt (setPc s c (fd s (cPage c) fCORE_SEQ_ENTRY_ADDR / 2 * 2)) c 1 0
  else if st = 0 then setSeqSt s c 1 0
  else s
/-- RUN written 0: the sequencer halts at the next instruction boundary; one that waits halts when its instruction completes. -/
def seqHalt (s : State) (c : Nat) : State := if seqSt s c = 1 then setSeqSt s c 0 0 else s
/-- STEP while halted: it reads 1 until its instruction is done. After a reset it executes at CORE_SEQ_PC (DESIGN CHOICE, log entry 155). -/
def seqStepOne (s : State) (c : Nat) : State :=
  if seqSt s c ≠ 0 then s
  else
    let s := setSeq s c { seqr s c with fresh := false }
    seqIssue (fdSet (setSeqSt s c 1 0) (cPage c) fCORE_SEQ_CTL_STEP 1) c .clean anyInstr

/-- A write of CORE_SEQ_CTL with its fields already checked; `step` says STEP was written 1 by a class that may. -/
def seqCtlWrite (s : State) (c : Nat) (run traphalt step : Bool) : State :=
  let s := fdSet (fdSet s (cPage c) fCORE_SEQ_CTL_RUN (b2n run)) (cPage c) fCORE_SEQ_CTL_TRAPHALT (b2n traphalt)
  let s := if run then seqRun s c else seqHalt s c
  if step then seqStepOne s c else s

/-- CORE_MBOX_IN: the word is delivered and sets wake cause 3 (R189). -/
def mboxIn (s : State) (c : Nat) (v : Word) : State :=
  let s := setSeq s c { seqr s c with mboxIn := v }
  wakeCause s c 3

/-- After REST the sequencer restarts at CORE_SEQ_RESUME (R187); with RUN 0 it halts there (DEDUCED, log entry 122). -/
def seqRestWake (s : State) (c : Nat) : State :=
  let s := setSeq s c { seqClear (seqr s c) with fresh := false }
  setSeqSt (setPc s c (fd s (cPage c) fCORE_SEQ_RESUME_ADDR)) c (b2n (fb s (cPage c) fCORE_SEQ_CTL_RUN)) 0

end Sys2Proof.Machine
end

