-- ==== Sys2Proof/Machine/DmaOps.lean ====
section
/-! DEFINITION. The DMA engine's descriptors from start to completion, external accesses to a scratchpad, and the walker's reply
(R218–R223, R308, R309, R656). -/
namespace Sys2Proof.Machine
open Sys2Proof

def dmaList (s : State) (c : Nat) : List Desc := (core s c).sp.dma
def setDma (s : State) (c : Nat) (l : List Desc) : State :=
  let k := core s c
  setCore s c { k with sp := { k.sp with dma := l } }
def updDesc (s : State) (c id : Nat) (f : Desc → Desc) : State := setDma s c ((dmaList s c).map (fun d => if d.id == id then f d else d))

/-- Lines that move something. -/
def Desc.lines (d : Desc) : Nat := if d.len = 0 then 0 else d.nlines
/-- The ranges a running descriptor holds, from the lowest to the highest word it touches (R221). -/
def Desc.ranges (d : Desc) : List Range :=
  let span := fun (a : Nat) (w : Bool) (i : Nat) => ({ start := a / 8, len := if d.lines = 0 then 0 else ((d.lines - 1) * d.sstride + d.len) / 8, write := w, owner := whoDma, id := 2 * d.id + i } : Range)
  match d.op with
  | 0 => [span d.saddr true 0]
  | 1 => [span d.remote false 0, span d.saddr true 1]
  | 2 => [span d.saddr true 0]
  | _ => [span d.saddr false 0]

/-- The queued descriptor that may start (R218). -/
def dmaNext (s : State) (c : Nat) : Option Desc :=
  let l := dmaList s c
  if countp (fun d => d.running) l ≥ 4 then none
  else match l.find? (fun d => !d.running) with
    | none => none
    | some d => if d.fence && (l.head?.map (·.id)) != some d.id then none else some d

/-- The ranges a descriptor has still to ask for, in order, until the quota is full; one past the scratchpad's end takes RANGE and ends the
asking (R198, R201, R221). -/
def dmaAsk (s : State) (c id : Nat) : List Range → State
  | [] => s
  | r :: l =>
    match rangeAsk s c r with
    | (s, .refused) => updDesc s c id (fun x => { x with code := firstCode x.code cRANGE, asked := 2 })
    | (s, .quota) => s
    | (s, _) => dmaAsk (updDesc s c id (fun x => { x with asked := x.asked + 1 })) c id l
/-- Every running descriptor that the quota held back asks again, in queue order. -/
def dmaAskAll (s : State) (c : Nat) : State :=
  ((dmaList s c).filter (fun d => d.running && !d.notified)).foldl (fun s d => dmaAsk s c d.id (d.ranges.drop d.asked)) s
/-- DMA_DESCRIPTOR_START: the descriptor runs and asks for its ranges. -/
def dmaStart (s : State) (c : Nat) : State :=
  match dmaNext s c with
  | none => s
  | some d => dmaAsk (updDesc s c d.id (fun x => { x with running := true })) c d.id d.ranges
/-- The ranges of a descriptor released, which may let others ask. -/
def dmaRelease (s : State) (c id : Nat) : State := dmaAskAll (rangeRelease (rangeRelease s c whoDma (2 * id)) c whoDma (2 * id + 1)) c

/-- The chunks of a line in memory (R335). -/
def chunksOf (a n : Nat) : List (Nat × Nat) :=
  (List.range ((a % 512 + n + 511) / 512)).map (fun i =>
    let lo := max a ((a / 512 + i) * 512)
    let hi := min (a + n) ((a / 512 + i + 1) * 512)
    (lo, hi - lo))
/-- Bytes of memory across chunks, and whether any is poisoned; and their writing. -/
def memReadSpan (s : State) (b a n : Nat) : List Byte × Bool :=
  (chunksOf a n).foldl (fun r k => let x := memRead s b k.1 k.2; (r.1 ++ x.1, r.2 || x.2)) ([], false)
def memWriteSpan (s : State) (b a : Nat) (bs : List Byte) : State :=
  (chunksOf a bs.length).foldl (fun s k => memWrite s b k.1 ((bs.drop (k.1 - a)).take k.2) false) s
/-- The pieces of a memory descriptor: scratchpad address, memory address, length. -/
def Desc.pieces (d : Desc) : List (Nat × Nat × Nat) :=
  ((List.range d.lines).map (fun (n : Nat) =>
    let m := ((d.remote : Int) + n * d.rstride).toNat
    (chunksOf m d.len).map (fun k => (d.saddr + n * d.sstride + (k.1 - m), k.1, k.2)))).flatten

/-- What came of a piece: its code, the bytes moved, and whether a bank refused it, which ends the descriptor (R215). -/
structure Moved where
  code : Nat
  bytes : Nat
  stop : Bool

/-- What came of an access of words that the memory side allowed, some of them poisoned. -/
def spadMoved (a : SpadAns) (bytes : Nat) (poison : Bool) : Moved :=
  match a with
  | .refused e => { code := firstCode e (if poison then cPOISON else cOK), bytes := bytes, stop := true }
  | _ => { code := if poison then cPOISON else cOK, bytes := bytes, stop := false }

/-- One piece read from memory into the scratchpad. -/
def dmaReadPiece (s : State) (c : Nat) (a m n : Nat) : State × Moved :=
  let code := chunkCode s c m n false
  let b := injEpoch s (c / 144) (c % 144)
  if code ≠ cOK then (reqRefused s (place s b m).1 { sunit := c % 144, ctag := coreTag s c, addr := m } code, { code := code, bytes := 0, stop := false })
  else
    let s := memServe s b m n (coreTag s c)
    let r := memRead s b m n
    let x := spadWriteAll s c whoDma (a / 8) ((bytesWords (n / 8) r.1).map (fun w => (w, r.2)))
    (x.1, spadMoved x.2.1 (8 * x.2.2) r.2)
/-- One piece of scratchpad written to memory; nothing of a follower leaves it (R447). -/
def dmaWritePiece (s : State) (c : Nat) (a m n : Nat) : State × Moved :=
  let code := chunkCode s c m n true
  let b := injEpoch s (c / 144) (c % 144)
  if code ≠ cOK then (reqRefused s (place s b m).1 { type := 10, sunit := c % 144, ctag := coreTag s c, addr := m } code, { code := code, bytes := 0, stop := false })
  else
    match spadReadAll s c whoDma (a / 8) (n / 8) with
    | (s, .refused e, _) => (s, spadMoved (.refused e) 0 false)
    | (s, x, l) =>
      let poison := l.any (·.2)
      (if isFollower s c then s else memWrite s b m (wordBytes (l.map (·.1))) poison (coreTag s c), spadMoved x n poison)

/-- Pieces moved in order with the bytes moved and the first failing code; a refusing bank ends the descriptor (R215, R222). -/
def dmaPieces (s : State) (c : Nat) (read : Bool) (code moved : Nat) : List (Nat × Nat × Nat) → State × Nat × Nat
  | [] => (s, code, moved)
  | (a, m, n) :: l =>
    let (s, k) := if read then dmaReadPiece s c a m n else dmaWritePiece s c a m n
    let code := firstCode code k.code
    if k.stop then (s, code, moved + k.bytes) else dmaPieces s c read code (moved + k.bytes) l

/-- A FILL or COPY (R221); a bank that refuses a word ends it, and what was read before is written (R215). -/
def dmaLocal (s : State) (c : Nat) (d : Desc) : State × Nat × Nat :=
  let n := if d.lines = 0 then 0 else d.len / 8
  let (s, a, l) := if d.op = 0 then (s, SpadAns.word 0 false, List.replicate n (BitVec.ofNat 64 d.remote, false)) else spadReadAll s c whoDma (d.remote / 8) n
  let poison := l.any (·.2)
  let x := spadWriteAll s c whoDma (d.saddr / 8) l
  let k := spadMoved a 0 poison
  (x.1, firstCode k.code (spadMoved x.2.1 0 poison).code, 8 * x.2.2)

/-- Words of a descriptor that lie in every bank and every region it touches. -/
def Desc.bankWords (d : Desc) : List Nat :=
  let n := d.len / 8
  let line := fun (a : Nat) => (List.range (min 64 n)).map (fun i => a / 8 + i)
  let steps := fun (a : Nat) => (List.range (n / 8192 + 1)).map (fun i => a / 8 + 8192 * i) ++ [a / 8 + (n - 1)]
  if n = 0 then []
  else
    ((List.range (min 64 d.lines)).map (fun i => line (d.saddr + i * d.sstride))).flatten ++ ((List.range d.lines).map (fun i => steps (d.saddr + i * d.sstride))).flatten ++
      (if d.op = 1 ∧ d.lines ≠ 0 then line d.remote ++ steps d.remote else [])
/-- A descriptor leaves its place (R218, R222, R184). -/
def dmaFinish (s : State) (c : Nat) (d : Desc) (code : Nat) : State :=
  let s := rangeRelease (rangeRelease s c whoDma (2 * d.id)) c whoDma (2 * d.id + 1)
  let k := core s c
  let s := dmaAskAll (setCore s c { k with sp := { k.sp with dma := k.sp.dma.filter (fun x => x.id != d.id), dmaDone := k.sp.dmaDone + 1 } }) c
  let s := bump s (spadPage c) 0xC40
  let s := if code = cOK then s else bump s (spadPage c) 0xC48
  setOutcome s c d.id code

/-- A descriptor's accesses of memory wait: for a recentring window of a stack to close, or for a slot of a journal's send ring (R350, R415). -/
def memoryWaits (s : State) (c : Nat) (d : Desc) : Bool :=
  let b := injEpoch s (c / 144) (c % 144)
  (d.op == 2 || d.op == 3) && d.pieces.any (fun k =>
    let g := (place s b k.2.1).1
    (stack s (g / 32)).window.isSome || (d.op == 3 && !isFollower s c && journalled s k.2.1 && (ringFull s g || !(slice s g).wait.isEmpty)))
/-- DMA_DESCRIPTOR_COMPLETE: a running descriptor whose ranges are granted and whose banks wait for nothing moves its bytes; without
NOTIFY it is complete, with it the completion word is still to be committed. -/
def dmaComplete (s : State) (c id : Nat) : State :=
  let s := dmaAskAll s c
  match (dmaList s c).find? (fun d => d.id == id && d.running && !d.notified) with
  | none => s
  | some d =>
    let dead := d.code ≠ cOK
    if !dead && (decide (d.asked < d.ranges.length) || rangeWaiting (core s c) whoDma (2 * id) || rangeWaiting (core s c) whoDma (2 * id + 1) || memoryWaits s c d) then s
    else
      let (s, wait) := if dead then (s, false) else banksWait s c whoDma d.bankWords
      if wait then s
      else
        let (s, code, moved) :=
          if dead then (s, d.code, 0)
          else match d.op with
            | 2 => dmaPieces s c true cOK 0 d.pieces
            | 3 => dmaPieces s c false cOK 0 d.pieces
            | _ => dmaLocal s c d
        let s := dmaRelease s c id
        if d.notify then updDesc s c id (fun x => { x with code := code, moved := moved, notified := true })
        else dmaFinish s c d code

/-- DMA_REQUEST_TIMEOUT: a request without an answer is reissued, each request for itself, and after its last reissue ends the descriptor with
TIMEOUT, its ranges released; `a` is the request's memory address (R221). -/
def dmaTimeout (s : State) (c id a : Nat) : State :=
  match (dmaList s c).find? (fun d => d.id == id && d.running && !d.notified && (d.op == 2 || d.op == 3)) with
  | none => s
  | some d =>
    let n := tget 0 d.reissues a
    if n < fd s (spadPage c) fSPAD_DMA_CFG_RETRY then updDesc s c id (fun x => { x with reissues := tput x.reissues a (n + 1) })
    else
      let s := dmaRelease (dmaErr s c cTIMEOUT 0x74 d.tag (d.where_ a)) c id
      let code := firstCode d.code cTIMEOUT
      if d.notify then updDesc s c id (fun x => { x with code := code, notified := true }) else dmaFinish s c d code

/-- A command about a descriptor's memory requests: a follower makes none, and takes what its leader's are answered (R447). -/
def dmaShared (s : State) (c id : Nat) (f : State → Nat → State) : State :=
  if (dmaList s c).any (fun d => d.id == id && (d.op == 2 || d.op == 3)) then (if isFollower s c then s else withMate s c f) else f s c

/-- The completion word of a descriptor (R222). -/
def Desc.word (d : Desc) : DWord := BitVec.ofNat 64 (d.code + 2 ^ 8 * d.tag + 2 ^ 16 * d.moved)
/-- A completion word discarded (R223). -/
def notifyDrop (s : State) (c : Nat) (d : Desc) (code : Nat) : State :=
  let s := dmaErr s c code 0x77 d.tag (d.where_ d.mem)
  dmaFinish s c d (if d.code = cOK then code else d.code)
/-- The first descriptor waiting to commit its word. -/
def notifying (s : State) (c id : Nat) : Option Desc := (dmaList s c).find? (fun d => d.id == id && d.notified)
/-- DMA_NOTIFY_COMMIT: where several of the cases of R223 hold, the outcome is the first of them in the order of R56. -/
def notifyCommit (s : State) (c id : Nat) : State :=
  match notifying s c id with
  | none => s
  | some d =>
    let q := d.nq
    let ws := if qKind s c q = 2 then (match recSpan s c q 8 with | some (w, n) => (List.range n).map (w + ·) | none => []) else []
    let closed_ := ws.filter (fun w => bankState s c (bankOf w) == 7)
    if qxBound s c q then notifyDrop s c d cRANGE
    else
      match askBanks s c whoDma (closed_ ++ ws.filter (fun w => bankBad s c w 1)) with
      | (s, some e, _) => notifyDrop s c d e
      | (s, none, _) =>
        if qKind s c q = 0 ∨ qKind s c q = 3 then notifyDrop s c d cNO_CHANNEL
        else if !qOpen s c q then notifyDrop s c d cCLOSED
        else
          match askBanks s c whoDma ws with
          | (s, some e, _) => if e = cNOT_READY then s else notifyDrop s c d e
          | (s, none, true) => s
          | (s, none, false) =>
            match deliver s c q 8 0 0 false [d.word] none with
            | (s, some k) => if k = cOK then dmaFinish s c d d.code else if k = cNOT_READY then s else notifyDrop s c d k
            | (s, none) => s
/-- DMA_NOTIFY_TIMEOUT. -/
def notifyTimeout (s : State) (c id : Nat) : State :=
  match notifying s c id with
  | none => s
  | some d => notifyDrop s c d cTIMEOUT

/-! ### External requests to a scratchpad (R202, R209, R212, R215, R656) -/

/-- The page through which an access through BAR4 or the debug port came, and the address its captures hold (R36). -/
def extPage (via : Nat) : PageId := hubPage (if via = 0 then .host else .auth)
def extAddr (c : Nat) (x : ExtAcc) : Nat := c / 144 * 2 ^ 31 + c % 144 * 2 ^ 23 + x.addr + (if x.via = 0 then 0 else 2 ^ 40)
/-- What the access answers: its bytes; a write answers nothing. -/
def extAnswer (s : State) (x : ExtAcc) : State :=
  let bs := (x.got.drop (x.addr % 8)).take x.n
  if x.write then s else send s (if x.via = 0 then .hostRead 0 bs else .data .debug (BitVec.ofNat 32 (leNat bs)))
/-- The words of an access served in order: a refused read gives zero, a refused write is dropped and recorded in the block the access came
through, and a word that waits holds the rest of the access (R215). -/
def extRun (s : State) (c : Nat) (x : ExtAcc) : List Nat → State
  | [] => extAnswer s x
  | i :: l =>
    let w := x.addr / 8 + i
    let hold := fun (s : State) => setCore s c { core s c with sp := { (core s c).sp with ext := (core s c).sp.ext ++ [{ x with done := i }] } }
    if x.write then
      let hit := fun (j : Nat) => decide (x.addr ≤ 8 * w + j) && decide (8 * w + j < x.addr + x.n)
      let mask := (List.range 8).foldl (fun m j => if hit j then m + 2 ^ j else m) 0
      let v := leNat ((List.range 8).map (fun j => if hit j then x.data.getD (8 * w + j - x.addr) 0 else 0))
      match spadWrite s c (tagged whoExt 0) w mask (BitVec.ofNat 64 v) false .clean with
      | (s, .wait) => hold s
      | (s, .refused e) => extRun (errAt s (extPage x.via) e (freeSource (spadPage c).no 0 e) (freeDetail (spadPage c).no 0 e) (extAddr c x) 0) c x l
      | (s, .word _ _) => extRun s c x l
    else
      match spadRead s c (tagged whoExt 0) w .clean with
      | (s, .wait) => hold s
      | (s, .refused _) => extRun s c { x with got := x.got ++ natLe 8 0 } l
      | (s, .word v _) => extRun s c { x with got := x.got ++ natLe 8 v.toNat } l
/-- An access through BAR4 or the debug port, from the word it has reached. -/
def extSpad (s : State) (c : Nat) (x : ExtAcc) : State := extRun s c x ((List.range ((x.addr + x.n + 7) / 8 - x.addr / 8)).drop x.done)
/-- What waited for a bank or a region of a core goes on: status words and accesses from outside (R209, R212). -/
def spadServe (s : State) (c : Nat) : State :=
  let l := (core s c).sp.ext
  let s := serveStats (setCore s c { core s c with sp := { (core s c).sp with ext := [] } }) c
  l.foldl (fun s x => extSpad s c x) s

/-- Words written in beats of 16, each applied or refused whole; the code is the first failing one (R203, R214). -/
def spadBeats (s : State) (c who w : Nat) (l : List (DWord × Bool)) : Nat → State × Nat
  | 0 => (s, cOK)
  | k + 1 =>
    let beat := l.take 16
    let (s, e) := match askBanks s c who ((List.range beat.length).map (w + ·)) with
      | (s, some e, _) => (s, e)
      | (s, none, _) => ((spadWriteAll s c who w beat).1, cOK)
    let r := spadBeats s c who (w + 16) (l.drop 16) k
    (r.1, firstCode e r.2)
/-- SCRATCHPAD_REMOTE_REQUEST: an RDREQ or WRREQ that names a core. A refused read returns zero, a refused write is dropped; the answer
carries the code. What is written to a leader is written to its follower (R447). -/
def spadRemote (s : State) (c : Nat) (p : Pkt) : State :=
  let u := c % 144
  let ans := fun (s : State) (code : Nat) (ws : List DWord) (poison : Bool) =>
    match refusal p code with
    | some a => sendFrom s (c / 144) u { a with rlen := 8 * ws.length, data := ws, poison := poison }
    | none => s
  let n := p.rlen / 8
  let w := p.addr % 2 ^ 23 / 8
  if p.type ≠ 8 ∧ p.type ≠ 10 then s
  else if p.auth ≠ 0 then ans (takePkt (denyFabric s (p.auth == 1)) c p) cDENIED [] false
  else if p.addr % 8 ≠ 0 ∨ p.rlen % 8 ≠ 0 ∨ p.rlen > 512 ∨ w + n > 1048576 then ans (takePkt s c p) cRANGE [] false
  else
    let who := tagged (if p.sunit = 0xE0 ∨ p.sunit = 0xE1 then whoTest else whoExt) p.ctag
    let ws := (List.range n).map (w + ·)
    match banksWait s c who ws with
    | (s, true) => s
    | (s, false) =>
      let s := takePkt s c p
      if p.type = 8 then
        match askBanks s c who ws with
        | (s, some e, _) => ans s e (List.replicate n 0) false
        | (s, none, _) =>
          match spadReadAll s c who w n with
          | (s, _, l) => ans s (if l.any (·.2) then cPOISON else cOK) (l.map (·.1)) (l.any (·.2))
      else
        let r := spadBeats s c who w ((p.data.take n).map (fun v => (v, p.poison))) ((n + 15) / 16)
        let t := if isLeader r.1 c then (spadBeats r.1 (c + 1) who w ((p.data.take n).map (fun v => (v, p.poison))) ((n + 15) / 16)).1 else r.1
        ans t r.2 [] false

/-! ### The walker's reply (R308–R310) -/

/-- The operations a held packet belongs to end with NO_CHANNEL. -/
def noSignpost (s : State) (c en : Nat) : State :=
  let held := (qe s c).inj.filter (fun p => byEn p && p.den == en)
  let s := setQe s c { qe s c with inj := (qe s c).inj.filter (fun p => !(byEn p && p.den == en)) }
  held.foldl (fun s p =>
    if p.look then s
    else if p.type = 4 then openFail s c p.sidx cNO_CHANNEL
    else match replyMsg s c p.sidx p.seq with
      | some m => finalOutcome s c m cNO_CHANNEL
      | none => s) s

/-- SIGNPOST_WALK_REPLY: the walker of a die returns the entry of an EN to every interface that misses it. A miss that an invalidation
has met is walked again. -/
def walkReply (s : State) (d en : Nat) (e : Ecc) : State :=
  let n := net s d
  if !n.walks.contains en then s
  else
    let pg := diePage .sign d
    let base := 2 ^ 25 * fd s pg fSIGN_TBL_LO_BASE + 2 ^ 32 * fd s pg fSIGN_TBL_HI_BASE
    let a := base + 8 * en
    let b := injEpoch s d 0xE8
    let code := reqCode s (place s b a).1 { type := 8, sepoch := b, sdie := d, sunit := 0xE8, addr := a, rlen := 8 }
    let s := bump (setNet s d { n with walks := n.walks.filter (· != en) }) pg 0xC00
    let s := if code = cOK then memServe (noteErr s (blocksOf (phys s b a) 8) e false) b a 8 0 else s
    let r := memRead s b a 8
    let w := leNat r.1
    let valid := bit w 0
    let bad := code ≠ cOK ∨ r.2 ∨ (valid ∧ bits w 24 22 ≠ en)
    let s := if bad then raiseInt (errAt (bump s pg 0xC08) pg cRANGE 0x95 (en % 65536) 0 0) pg 11 else s
    let ent : SpEnt := { en := en, exit := bits w 1 1, ddev := bits w 2 10, ddie := bits w 12 4, dunit := bits w 16 8 }
    ((List.range 144).map (fun i => 144 * d + i)).foldl (fun s c =>
      match (rout s c).miss.find? (·.en == en) with
      | none => s
      | some m =>
        let clear := fun (s : State) => setRout s c { rout s c with miss := (rout s c).miss.filter (·.en != en) }
        if m.again then
          let n := net s d
          let s := setNet s d (if n.walks.contains en then n else { n with walks := n.walks ++ [en] })
          setRout s c { rout s c with miss := (rout s c).miss.map (fun x => if x.en == en then { x with again := false } else x) }
        else if bad ∨ !valid then noSignpost (clear s) c en
        else cacheTouch (clear s) c ent) s

end Sys2Proof.Machine
end

