-- ==== Sys2Proof/Machine/LinkCode.lean ====
section
/-! DEFINITION. What a lane of a port carries: PAM4 levels, RS(544,514) codewords, their scrambled message, blocks, packets as words
(R294, R295, R362, R364–R368, R408; log entries 171 and 172). -/
namespace Sys2Proof.Machine
open Sys2Proof

/-! ### The field GF(2^10) and the code RS(544,514) (R362) -/

/-- The field's element times x, modulo x^10 + x^3 + 1. -/
def gfDouble (a : Nat) : Nat := if 512 ≤ a then Nat.xor (2 * a) 0x409 else 2 * a
/-- The product of two elements. -/
def gfMul (a b : Nat) : Nat :=
  if a = 0 then 0 else (List.range 10).foldl (fun acc i => if bit b (9 - i) then Nat.xor (gfDouble acc) a else gfDouble acc) 0
def gfPow (a : Nat) : Nat → Nat
  | 0 => 1
  | n + 1 => gfMul (gfPow a n) a
/-- The inverse of an element that is not 0: its power 2^10 − 2, by squares. -/
def gfInv (a : Nat) : Nat := ((List.range 9).foldl (fun x _ => (gfMul x.1 (gfMul x.2 x.2), gfMul x.2 x.2)) (1, a)).1
/-- The powers of a primitive element, from 0 to 1,022. -/
def gfPowers : Nat → Nat → List Nat
  | _, 0 => []
  | a, n + 1 => a :: gfPowers (gfDouble a) n
/-- The value of a polynomial, coefficients of the highest power first. -/
def gfEval (l : List Nat) (x : Nat) : Nat := l.foldl (fun acc c => Nat.xor (gfMul acc x) c) 0

/-- The generator polynomial, with the roots x^0 to x^29, coefficients of the highest power first. -/
def rsGen : List Nat := (gfPowers 1 30).foldl (fun g r => List.zipWith Nat.xor (g ++ [0]) (0 :: g.map (gfMul r))) [1]
/-- The 30 parity symbols of a message, in the order sent. -/
def rsParity (msg : List Nat) : List Nat :=
  let g := rsGen.tail
  msg.foldl (fun r m => let fb := Nat.xor m (r.headD 0); List.zipWith Nat.xor (r.tail ++ [0]) (g.map (gfMul fb))) (List.replicate 30 0)
/-- The 30 syndromes of a received word; all are 0 in a codeword. -/
def rsSyndromes (r : List Nat) : List Nat := (gfPowers 1 30).map (gfEval r)
def rsClean (r : List Nat) : Bool := (rsSyndromes r).all (· == 0)

/-- The search for the error locator: the locator, its last one before a change of length, the length, steps since, that change's discrepancy. -/
structure RsSearch where
  loc : List Nat := [1]
  old : List Nat := [1]
  len : Nat := 0
  gap : Nat := 1
  dis : Nat := 1
/-- One syndrome more (the Berlekamp-Massey search); coefficients of the lowest power first. -/
def rsStep (syn : List Nat) (x : RsSearch) (n : Nat) : RsSearch :=
  let d := (List.range (x.len + 1)).foldl (fun a i => Nat.xor a (gfMul (x.loc.getD i 0) (if i ≤ n then syn.getD (n - i) 0 else 0))) 0
  if d = 0 then { x with gap := x.gap + 1 }
  else
    let k := gfMul d (gfInv x.dis)
    let sub := List.replicate x.gap 0 ++ x.old.map (gfMul k)
    let loc := (List.range (max x.loc.length sub.length)).map (fun i => Nat.xor (x.loc.getD i 0) (sub.getD i 0))
    if 2 * x.len ≤ n then { loc := loc, old := x.loc, len := n + 1 - x.len, gap := 1, dis := d } else { x with loc := loc, gap := x.gap + 1 }
/-- What is to be added to the symbol of power `X` when the locator has its root there (Forney's formula). -/
def rsValue (loc om : List Nat) (X Xinv : Nat) : Nat :=
  let odd := (List.range loc.length).map (fun i => if i % 2 = 0 then loc.getD (i + 1) 0 else 0)
  gfMul X (gfMul (gfEval om.reverse Xinv) (gfInv (gfEval odd.reverse Xinv)))
/-- The decoder: the codeword within 15 symbols of what came, with the number of symbols corrected; none where it finds no such codeword (R362,
R366). What it answers is a codeword, by its syndromes. -/
def rsDecode (r : List Nat) : Option (List Nat × Nat) :=
  let syn := rsSyndromes r
  if syn.all (· == 0) then some (r, 0)
  else
    let loc := ((List.range 30).foldl (rsStep syn) {}).loc
    let om := (List.range 30).map (fun n => (List.range (n + 1)).foldl (fun a i => Nat.xor a (gfMul (loc.getD i 0) (syn.getD (n - i) 0))) 0)
    let pw := gfPowers 1 1023
    let c := (List.range 544).map (fun i =>
      let X := pw.getD (543 - i) 0
      let Xinv := pw.getD ((1023 - (543 - i)) % 1023) 0
      if gfEval loc.reverse Xinv = 0 then Nat.xor (r.getD i 0) (rsValue loc om X Xinv) else r.getD i 0)
    let n := ((List.range 544).filter (fun i => c.getD i 0 != r.getD i 0)).length
    if n ≤ 15 ∧ rsClean c then some (c, n) else none

/-! ### Levels, scrambler, header (R362, R364) -/

def bitsOf (n w : Nat) : List Bool := (List.range w).map (bit n)
def ofBits (l : List Bool) : Nat := l.foldr (fun b n => b2n b + 2 * n) 0
/-- A list in pieces of `k`, `n` of them. -/
def pieces {α : Type} (k : Nat) : Nat → List α → List (List α)
  | 0, _ => []
  | n + 1, l => l.take k :: pieces k n (l.drop k)

/-- The level of two bits, the one sent first in bit 0 (Gray mapping). -/
def grayLevel (v : Nat) : Nat := [0, 3, 1, 2].getD (v % 4) 0
def grayBits (v : Nat) : Nat := [0, 2, 3, 1].getD (v % 4) 0
/-- Precoding: each level less the one sent before it. -/
def precode : Nat → List Nat → List Nat
  | _, [] => []
  | prev, g :: l => let v := (g + 4 - prev % 4) % 4; v :: precode v l
def unprecode : Nat → List Nat → List Nat
  | _, [] => []
  | prev, v :: l => ((v + prev) % 4) :: unprecode v l

/-- The scrambler's next bit: of x^58 + x^39 + 1, where bit i of the state is the bit i + 1 before. -/
def scrBit (x : BitVec 58) : Bool := Bool.xor (x.getLsbD 38) (x.getLsbD 57)
def scrNext (x : BitVec 58) : BitVec 58 := x <<< 1 ||| BitVec.ofNat 58 (b2n (scrBit x))
/-- A message with the scrambler's bits added: scrambled, or if it was so, plain. -/
def scramble : BitVec 58 → List Bool → List Bool
  | _, [] => []
  | x, b :: l => Bool.xor b (scrBit x) :: scramble (scrNext x) l
/-- The scrambler after `n` bits. -/
def scrAfter (x : BitVec 58) : Nat → BitVec 58
  | 0 => x
  | n + 1 => scrAfter (scrNext x) n

/-- A CRC-9 register after more bits: x^9 + x^6 + x^5 + x^4 + x + 1. -/
def crcFrom : Nat → List Bool → Nat
  | r, [] => r
  | r, b :: l => if Bool.xor (bit r 8) b then crcFrom (Nat.xor (2 * r % 512) 0x73) l else crcFrom (2 * r % 512) l
/-- The CRC-9 of bits, from all ones. -/
def crc9 (l : List Bool) : Nat := crcFrom 511 l

/-- A codeword's header and data (R364): LANE, SPARE, FSEQ, FIRST, and 80 words of data. -/
structure Message where
  lane : Nat := 0
  spare : Bool := false
  fseq : Nat := 0
  first : Nat := 31
  data : List DWord := []
  deriving DecidableEq, Repr
def Message.low (m : Message) : Nat := m.lane % 8 + 8 * b2n m.spare + 16 * (m.fseq % 4) + 64 * (m.first % 32)
def Message.dataBits (m : Message) : List Bool := ((List.range 80).map (fun i => bitsOf (m.data.getD i 0).toNat 64)).flatten
/-- The 5,140 bits of a message. -/
def Message.bits (m : Message) : List Bool :=
  let h := bitsOf m.low 11
  h ++ bitsOf (crc9 (h ++ m.dataBits)) 9 ++ m.dataBits
/-- The message of 5,140 bits; none where the CRC does not match. -/
def Message.ofBits (l : List Bool) : Option Message :=
  let h := Sys2Proof.Machine.ofBits (l.take 11)
  let d := l.drop 20
  if crc9 (l.take 11 ++ d) = Sys2Proof.Machine.ofBits ((l.drop 11).take 9) then
    some { lane := h % 8, spare := bit h 3, fseq := Machine.bits h 4 2, first := Machine.bits h 6 5, data := (pieces 64 80 d).map (fun x => BitVec.ofNat 64 (Sys2Proof.Machine.ofBits x)) }
  else none

/-- A message as the lane sends it: scrambled, encoded, in levels (R362, R364). -/
def codewordWrite (k : LaneCode) (m : Message) : List Nat :=
  let sym := (pieces 10 514 (scramble k.scr m.bits)).map ofBits
  let levels := (pieces 2 2720 ((sym ++ rsParity sym).map (bitsOf · 10)).flatten).map (fun x => grayLevel (ofBits x))
  if k.pre then precode k.prev levels else levels
/-- The 2,720 levels of what came. -/
def lineLevels (line : List Nat) : List Nat := (List.range 2720).map (fun i => line.getD i 0 % 4)
/-- What a lane receives, as its receiver judges it: the message with the symbols corrected, where the codeword is good (R366). -/
def codewordRead (k : LaneCode) (line : List Nat) : Option (Message × Nat) :=
  let g := if k.pre then unprecode k.prev (lineLevels line) else lineLevels line
  let sym := (pieces 10 544 (g.map (fun v => bitsOf (grayBits v) 2)).flatten).map ofBits
  match rsDecode sym with
  | none => none
  | some (c, n) => (Message.ofBits (scramble k.scr ((c.take 514).map (bitsOf · 10)).flatten)).map (fun m => (m, n))
/-- A lane's coder after a codeword of these levels. -/
def LaneCode.after (k : LaneCode) (line : List Nat) : LaneCode := { k with prev := (lineLevels line).getD 2719 0, scr := scrAfter k.scr 5140 }

/-! ### Blocks and packets as words (R294, R295, R367, R368) -/

/-- A value in a field of a word. -/
def put (lo w v : Nat) : Nat := 2 ^ lo * (v % 2 ^ w)
/-- Words 0 and 1 of a header (R294). -/
def hdrWord0 (p : Pkt) : Nat :=
  put 0 4 p.type + put 4 2 p.vc + put 6 1 p.sepoch + put 7 1 p.xepoch + put 8 10 p.ddev + put 18 4 p.ddie + put 22 8 p.dunit + put 30 10 p.sdev + put 40 4 p.sdie +
  put 44 8 p.sunit + put 52 1 (b2n p.poison) + put 53 2 p.fmt + put 55 1 (b2n p.merge) + put 56 1 (b2n p.merged) + put 57 6 p.cblk + put 63 1 p.exit
def hdrWord1 (p : Pkt) : Nat := put 0 22 p.den + put 22 22 p.sen + put 44 16 p.ctag + put 60 2 p.auth
/-- The channel word (R295). -/
def chanWord (p : Pkt) (part npart : Nat) : Nat :=
  put 0 10 p.handle + put 10 6 p.rgen + put 16 16 p.seq + put 32 3 p.att + put 35 3 part + put 38 3 npart + put 41 13 p.len + put 54 10 p.sidx
/-- Words 2 and 3 by type (R295, R369, R408). -/
def hdrTail (p : Pkt) : Nat × Nat :=
  match p.type with
  | 0 => (chanWord p p.part p.npart, 0)
  | 1 => (chanWord p p.part p.npart, put 0 64 p.cmask)
  | 2 => (chanWord p 0 0, put 0 18 p.cvid + put 18 6 p.slot)
  | 3 => (put 0 8 p.code + put 8 16 p.seq + put 24 3 p.att + put 27 3 p.part + put 30 10 p.sidx + put 40 1 (b2n p.conv), if p.conv then put 0 18 p.cvid else 0)
  | 4 => (put 0 6 p.slot + put 6 12 p.cidx + put 18 10 p.sidx, 0)
  | 5 => (put 0 8 p.code + put 8 10 p.handle + put 18 6 p.rgen + put 24 2 p.kind + put 26 13 p.maxlen + put 39 1 p.mode + put 40 10 p.sidx, 0)
  | 8 | 10 => (put 0 48 p.addr + put 48 10 p.rlen, put 0 8 p.rid)
  | 9 => (put 0 8 p.code + put 8 8 p.rid + put 16 10 p.rlen, 0)
  | 11 => (put 0 8 p.code + put 8 8 p.rid, 0)
  | 13 => ((p.tw.getD 0 0).toNat, (p.tw.getD 1 0).toNat)
  | 14 => (put 0 6 p.code + put 6 7 p.rlen, 0)
  | _ => (0, 0)
/-- Bytes of a twin packet's payload, by its word 2 (R408). -/
def twinLen (w : Nat) : Nat := if w % 16 = 1 then 8 * bits w 47 10 else if w % 16 = 3 then 8 * bits w 4 7 else if w % 16 = 4 then 8 else if w % 16 = 5 then 576 else 0
/-- The packet of a header's four words and of what goes beside it. -/
def pktOf (b : LineBlk) : Pkt :=
  let w := fun i => (b.w.getD i 0).toNat
  let p : Pkt :=
  { type := bits (w 0) 0 4, vc := bits (w 0) 4 2, sepoch := bits (w 0) 6 1, xepoch := bits (w 0) 7 1, ddev := bits (w 0) 8 10, ddie := bits (w 0) 18 4,
    dunit := bits (w 0) 22 8, sdev := bits (w 0) 30 10, sdie := bits (w 0) 40 4, sunit := bits (w 0) 44 8, poison := bit (w 0) 52, fmt := bits (w 0) 53 2, merge := bit (w 0) 55,
    merged := bit (w 0) 56, cblk := bits (w 0) 57 6, exit := bits (w 0) 63 1, den := bits (w 1) 0 22, sen := bits (w 1) 22 22, ctag := bits (w 1) 44 16, auth := bits (w 1) 60 2,
    cls := b.side % 2, jfmt := bits b.side 1 2 }
  let c : Pkt := { p with handle := bits (w 2) 0 10, rgen := bits (w 2) 10 6, seq := bits (w 2) 16 16, att := bits (w 2) 32 3, part := bits (w 2) 35 3, npart := bits (w 2) 38 3, len := bits (w 2) 41 13, sidx := bits (w 2) 54 10 }
  match p.type with
  | 0 => c
  | 1 => { c with cmask := w 3 }
  | 2 => { c with part := 0, npart := 0, cvid := bits (w 3) 0 18, slot := bits (w 3) 18 6 }
  | 3 => { p with code := bits (w 2) 0 8, seq := bits (w 2) 8 16, att := bits (w 2) 24 3, part := bits (w 2) 27 3, sidx := bits (w 2) 30 10, conv := bit (w 2) 40, cvid := if bit (w 2) 40 then bits (w 3) 0 18 else 0 }
  | 4 => { p with slot := bits (w 2) 0 6, cidx := bits (w 2) 6 12, sidx := bits (w 2) 18 10 }
  | 5 => { p with code := bits (w 2) 0 8, handle := bits (w 2) 8 10, rgen := bits (w 2) 18 6, kind := bits (w 2) 24 2, maxlen := bits (w 2) 26 13, mode := bits (w 2) 39 1, sidx := bits (w 2) 40 10 }
  | 8 | 10 => { p with addr := bits (w 2) 0 48, rlen := bits (w 2) 48 10, rid := bits (w 3) 0 8 }
  | 9 => { p with code := bits (w 2) 0 8, rid := bits (w 2) 8 8, rlen := bits (w 2) 16 10 }
  | 11 => { p with code := bits (w 2) 0 8, rid := bits (w 2) 8 8 }
  | 13 => { p with code := w 2 % 16, rlen := twinLen (w 2), tw := [b.w.getD 2 0, b.w.getD 3 0] }
  | 14 => { p with code := bits (w 2) 0 6, rlen := bits (w 2) 6 7 }
  | _ => p

/-- Word `i` of a packet's payload, zero after its last byte (R367). -/
def payWord (p : Pkt) (i : Nat) : DWord := if payload p ≤ 8 * i then 0 else BitVec.ofNat 64 ((p.data.getD i 0).toNat % 2 ^ (8 * min 8 (payload p - 8 * i)))
/-- Blocks of a packet (R367). -/
def blkCount (p : Pkt) : Nat := (63 + payload p) / 32
/-- A packet's blocks: the header, then the payload padded with zero bytes. -/
def pktBlks (p : Pkt) : List LineBlk :=
  { w := [BitVec.ofNat 64 (hdrWord0 p), BitVec.ofNat 64 (hdrWord1 p), BitVec.ofNat 64 (hdrTail p).1, BitVec.ofNat 64 (hdrTail p).2], head := true, side := p.cls % 2 + 2 * (p.jfmt % 4) } ::
  (List.range (blkCount p - 1)).map (fun b => { w := (List.range 4).map (fun i => payWord p (4 * b + i)) })
/-- A packet with the payload its blocks hold. -/
def pktWith (p : Pkt) (l : List DWord) : Pkt := { p with data := l.take ((payload p + 7) / 8) }
/-- A link block (R368). -/
def linkBlk (b : LinkBlk) : LineBlk :=
  { w := [BitVec.ofNat 64 (15 + put 4 4 b.ltype + put 8 8 b.off + put 16 8 b.lcmd + put 24 4 b.lane + put 28 4 b.plane + put 32 32 b.frame), b.word1, 0, 0], head := true }

/-! ### Frames (R364, R365) -/

/-- The message of a logical lane in a frame of `w` lanes: block j travels on lane j mod `w` at position j div `w`; FIRST names the first that begins
a packet or a link block. -/
def laneMessage (w f lane : Nat) (l : List LineBlk) : Message :=
  let mine := (List.range 20).map (fun i => l.getD (w * i + lane) {})
  { lane := lane, fseq := f % 4, first := ((List.range 20).find? (fun i => (mine.getD i {}).head)).getD 31, data := (mine.map (fun b => (List.range 4).map (fun i => b.w.getD i 0))).flatten }
/-- What goes beside the headers in that message, by position. -/
def laneSide (w lane : Nat) (l : List LineBlk) : List Nat := (List.range 20).map (fun i => (l.getD (w * i + lane) {}).side)
/-- A received message's blocks, by position. -/
def messageBlks (m : Message) (side : List Nat) : List LineBlk :=
  (List.range 20).map (fun i => { w := (List.range 4).map (fun j => m.data.getD (4 * i + j) 0), head := m.first == i, side := side.getD i 0 })
/-- The blocks of a frame in block order: none in place of those of a codeword that was bad or did not come. -/
def frameBlks (w : Nat) (f : Tbl (List LineBlk)) : List (Option LineBlk) := (List.range (20 * w)).map (fun j => (tget [] f (j % w))[j / w]?)

end Sys2Proof.Machine
end

