-- ==== Sys2Proof/Machine/LinkOps.lean ====
section
/-! DEFINITION. Fabric ports and multi-module routing (R362–R403). -/
namespace Sys2Proof.Machine
open Sys2Proof

def xPage (d : Nat) : PageId := diePage .xtab d
def xDev (s : State) (d : Nat) : Nat := fd s (xPage d) fXTAB_SELF_DEVICE
def xRetired (s : State) (d b : Nat) : Bool := fb s (xPage d) (fXTAB_XCTL_RETIRE0.sub (b % 2))
/-- The port die has yet to take a flip of the injection XEPOCH (R394). -/
def xLate (s : State) (d : Nat) : Bool := decide (s.now < (tget {} s.routes d).late)
def xFlipping (s : State) : Bool := xLate s 9 || xLate s 10
/-- The XEPOCH under which a port die routes what its module sends (R393). -/
def injX (s : State) (d : Nat) : Nat :=
  let v := fd s (xPage d) fXTAB_STATUS_INJ_XEPOCH
  if xLate s d then 1 - v else v
/-- A port die's count of an XEPOCH goes up, or down (R393). -/
def xAdd (s : State) (d b : Nat) (up : Bool) : State :=
  let off := 0x4C + 4 * (b % 2)
  wr s (xPage d) off ((rd s (xPage d) off + (if up then 1 else 2 ^ 32 - 1)) % 2 ^ 32)

/-! ### Receiving (R366, R370, R374, R393) -/

/-- A type that may cross a link, on its virtual channel: those of R295, routed control packets, and between causeway ports twin packets (R367, R374,
R408). -/
def linkTypeOk (port : Nat) (p : Pkt) : Bool :=
  typeVc p.type == some p.vc || (p.type == 14 && p.vc == 1 && decide (1 ≤ p.code) && decide (p.code ≤ 5)) || (p.type == 13 && isCw port && twinVc p.code == some p.vc)

def queueBlk (s : State) (p : Nat) (b : LinkBlk) : State := setPort s p { port s p with blks := (port s p).blks ++ [b] }
def laneBlk (lcmd lane plane frame : Nat) : LinkBlk := { ltype := 1, lcmd := lcmd, lane := lane, plane := plane, frame := frame }

/-- Bytes a packet takes in a receive buffer (R367). -/
def linkBytes (k : Pkt) : Nat := 32 * blkCount k
/-- The OFF bit of a buffer of 192 KiB: set below 160 KiB of room, cleared from 168 KiB; a packet's room is reserved when its header has come (R371,
R372). -/
def offBit (s : State) (p i : Nat) : Bool :=
  let used := ((((port s p).rx ++ ((port s p).part.map (·.1)).toList).filter (fun k => k.vc % 4 + 4 * (k.cls % 2) == i)).map linkBytes).sum
  decide (196608 < used + 163840) || (bit (fd s (portPage p) fPORT_FC_RXOFF) i && decide (196608 < used + 172032))
/-- A link block follows any change of the OFF bits (R372). -/
def offBits (s : State) (p : Nat) : State :=
  let v := (List.range 8).foldl (fun v i => if offBit s p i then v + 2 ^ i else v) 0
  if v = fd s (portPage p) fPORT_FC_RXOFF then s else queueBlk (fdSet s (portPage p) fPORT_FC_RXOFF v) p {}
/-- A port's received packets change, or the packet that comes in. -/
def setRx (s : State) (p : Nat) (l : List Pkt) : State := offBits (setPort s p { port s p with rx := l }) p
def setPart (s : State) (p : Nat) (k : Option (Pkt × List DWord)) : State := offBits (setPort s p { port s p with part := k }) p
def rxDrop (s : State) (p : Nat) (k : Pkt) : State := setRx s p ((port s p).rx.erase k)

/-- A packet discarded with a readable header (R374, R393); twin packets are in no XEPOCH's count. -/
def discardPkt (s : State) (p : Nat) (k : Pkt) : State :=
  let s := bump s (portPage p) 0xC30
  if k.type = 13 then s else xAdd s (portDie p) k.xepoch false
/-- The authority a port interface gives a packet (R656). -/
def entryAuth (p : Nat) (k : Pkt) : Nat := if isCw p && (k.type == 13 || k.type == 8 || k.type == 10) then 2 else 1
def receivePkt (s : State) (p : Nat) (k : Pkt) : State :=
  if !linkTypeOk p k then discardPkt s p k
  else
    let s := bump s (portPage p) 0xC28
    setRx s p ((port s p).rx ++ [{ k with auth := entryAuth p k }])

/-- The receiver asks the peer for an equaliser setting of a lane it trains; what it asks is the receiver's own (R368, R378, R382). -/
def eqAsk (s : State) (p plane : Nat) : State :=
  freeUsed (queueBlk s p { laneBlk 4 0 plane 0 with word1 := BitVec.ofNat 64 (freeVal s) })
/-- The logical lane a physical lane carries. -/
def logicalOf (m plane : Nat) : Option Nat := (List.range 8).find? (fun i => bits m (4 * i) 4 == plane)
/-- The physical lanes a map holds, by logical lane. -/
def lmapLanes (m : Nat) : List Nat := ((List.range 8).map (fun i => bits m (4 * i) 4)).filter (fun v => v != 15)
/-- A logical lane moves onto the spare in one direction and the old lane becomes the spare, unless it is closed; a receiver begins to retrain it (R382,
R383). -/
def swapDo (s : State) (p : Nat) (tx : Bool) (lane sp : Nat) : State :=
  let pg := portPage p
  let x := port s p
  let off := if tx then 0x50 else 0x54
  let m := rd s pg off
  let old := bits m (4 * lane) 4
  let s := bump (wr s pg off (setBits m (4 * lane) 4 sp)) pg 0xC40
  let spare := if old = 15 ∨ closed s (cmLane p (b2n tx) old) then none else some old
  if tx then fdSet (setPort s p { x with swapTx := none, txSpare := spare }) pg fPORT_STATUS_TXSPARE 0
  else
    let s := fdSet (fdSet (setPort s p { x with swapRx := none, rxSpare := spare }) pg fPORT_STATUS_RXSPARE 0) pg fPORT_STATUS_ROTATING (b2n spare.isSome)
    match spare with | some sp => eqAsk s p sp | none => s
/-- The receiver places a codeword by the lane it names (R365, R383): one that comes on the spare lane shows that the swap has happened. -/
def laneSeen (s : State) (p lane : Nat) (k : Message) : State :=
  let had := bits (rd s (portPage p) 0x54) (4 * (k.lane % 8)) 4
  if k.spare ∨ !isUp s p ∨ (port s p).rxSpare ≠ some lane ∨ had = 15 ∨ had = lane then s else swapDo s p false (k.lane % 8) lane
/-- The next frame of a direction is a swap's frame, or one after it: numbers are compared modulo 2^32 (R365, R383). -/
def swapDue (next frame : Nat) : Bool := decide ((next + 2 ^ 32 - frame % 2 ^ 32) % 2 ^ 32 < 2 ^ 31)

/-! ### Sending (R371–R373) -/

/-- A packet may start: the last OFF bits received show ON. -/
def mayStart (s : State) (p : Nat) (k : Pkt) : Bool := !bit (fd s (portPage p) fPORT_FC_TXOFF) (k.vc % 4 + 4 * (k.cls % 2))
/-- Where a packet stands in a transmitter's order: responses, what has waited 64 cycles, then the virtual channels in turn; class 1 before
class 0; then the order it came in (R373). -/
def txPlace (s : State) (p i : Nat) (k : Pkt) (aged : Bool) : Nat :=
  let turn := (port s p).turn
  let vc := (k.vc % 4 + 3 - tget 3 turn 4) % 4
  2 ^ 20 * (if k.vc % 4 = 1 then 1 - k.cls % 2 else 2 + (if aged then 0 else 8) + 2 * vc + (1 - k.cls % 2)) + i
/-- The packet a transmitter serves next; `aged` are the places in its queue of packets that have waited 64 cycles. -/
def txPick (s : State) (p : Nat) (aged : List Nat) : Option Nat :=
  let l := (List.range (port s p).tx.length).filter (fun i => match (port s p).tx[i]? with | some k => mayStart s p k | none => false)
  let at_ : Nat → Nat := fun i => match (port s p).tx[i]? with | some k => txPlace s p i k (aged.contains i) | none => 0
  l.find? (fun i => l.all (fun j => decide (at_ i ≤ at_ j)))

/-- The port sends a link block, with its OFF bits of that moment (R368, R372). -/
def sendBlk (s : State) (p : Nat) (b : LinkBlk) : State := send s (.block p { b with off := fd s (portPage p) fPORT_FC_RXOFF })
/-- The port's identity (R368). -/
def identBlk (s : State) (p : Nat) : LinkBlk :=
  { ltype := 2, word1 := BitVec.ofNat 64 (xDev s (portDie p) + 2 ^ 10 * p + 2 ^ 16 * b2n (isCw p)) }
/-- A frame as a transmitter fills it: the places in its queue of packets that have waited 64 cycles, the blocks so far, and whether a link block is
among them. -/
structure Fill where
  aged : List Nat
  blks : List LineBlk := []
  link : Bool := false
/-- What comes at a block boundary: a due link block, the next packet, or an IDLE block; no 16 frames pass without a link block (R367, R372, R373). -/
def fillNext (s : State) (p : Nat) (x : Fill) : State × Fill × List LineBlk :=
  let o := port s p
  let off := fd s (portPage p) fPORT_FC_RXOFF
  match o.blks with
  | b :: l => (setPort s p { o with blks := l }, { x with link := true }, [linkBlk { b with off := off }])
  | [] =>
    let idle := (s, { x with link := true }, [linkBlk { off := off }])
    match (if live s p ∧ (x.link ∨ o.quiet < 15) then txPick s p x.aged else none) with
    | none => idle
    | some i =>
      match o.tx[i]? with
      | none => idle
      | some k =>
        let turn := if k.vc % 4 = 1 then o.turn else tput o.turn 4 (k.vc % 4)
        (bump (setPort s p { o with tx := o.tx.eraseIdx i, turn := turn }) (portPage p) 0xC20,
          { x with aged := (x.aged.filter (· != i)).map (fun j => if i < j then j - 1 else j) }, pktBlks k)
/-- The next block of a frame: a packet's blocks follow each other, into the next frame where they must. -/
def fillOne (s : State) (p : Nat) (x : Fill) : State × Fill :=
  let r := if (port s p).rest.isEmpty then fillNext s p x else (s, x, (port s p).rest)
  (setPort r.1 p { port r.1 p with rest := r.2.2.tail }, { r.2.1 with blks := r.2.1.blks ++ r.2.2.take 1 })
/-- A frame of `n` more blocks. -/
def fillFrame (s : State) (p : Nat) (x : Fill) (n : Nat) : State × Fill := (List.range n).foldl (fun r _ => fillOne r.1 p r.2) (s, x)
/-- A message leaves on a physical lane (R362, R364). -/
def laneOut (s : State) (p plane : Nat) (m : Message) (side : List Nat) : State :=
  let k := tget {} (port s p).txCode plane
  let line := codewordWrite k m
  send (setPort s p { port s p with txCode := tput (port s p).txCode plane (k.after line) }) (.codeword p plane { line := line, side := side })
/-- The spare lane's codeword; what it holds beside SPARE and FSEQ is a free value (R364, R382; log entry 172). -/
def spareOut (s : State) (p f plane : Nat) : State :=
  let free := fun i => Config.freeNat (s.free + i)
  let m : Message := { lane := free 80 % 8, spare := true, fseq := f % 4, data := (List.range 80).map (fun i => BitVec.ofNat 64 (free i)) }
  laneOut { s with free := s.free + 81 } p plane m []
/-- The next frame of a port in CHECKING or UP: one codeword on each active lane and on the spare, then FRAME goes on (R364, R365, R382). -/
def frameOut (s : State) (p : Nat) (aged : List Nat) : State :=
  let pg := portPage p
  let lanes := lmapLanes (rd s pg 0x50)
  let f := fd s pg fPORT_FRAME_FRAME
  let r := fillFrame s p { aged := aged } (20 * lanes.length)
  let x := r.2
  let s := setPort r.1 p { port r.1 p with quiet := if x.link then 0 else (port r.1 p).quiet + 1 }
  let s := (List.range lanes.length).foldl (fun s i => laneOut s p (lanes.getD i 15) (laneMessage lanes.length f i x.blks) (laneSide lanes.length i x.blks)) s
  let s := match (port s p).txSpare with | some sp => spareOut s p f sp | none => s
  fdSet s pg fPORT_FRAME_FRAME ((f + 1) % 2 ^ 32)
/-- CODEWORD_TRANSMIT: a swap whose frame comes is made, then the next frame is sent; IDENT blocks, and equaliser requests, while the port trains, and
IDENT blocks in MISMATCH (R364, R368, R372, R373, R376, R378, R383). -/
def codewordOut (s : State) (p : Nat) (aged : List Nat) : State :=
  let pg := portPage p
  let st := pState s p
  if st < 2 || 6 < st || s.twin.fenced || fb s (diePage .clk (portDie p)) fCLK_STATUS_SREF_LOST then s
  else if st = 2 then
    match (port s p).blks with
    | b :: l => sendBlk (setPort s p { port s p with blks := l }) p b
    | [] => sendBlk s p (identBlk s p)
  else
    let s := match (port s p).swapTx with
      | some w => if swapDue (fd s pg fPORT_FRAME_FRAME) w.frame then swapDo s p true w.lane w.spare else s
      | none => s
    if st = 6 then sendBlk s p (identBlk s p) else frameOut s p aged

/-- What was coming in is lost with a change of width (R384). -/
def rxLost (s : State) (p : Nat) : State :=
  let s := match (port s p).part with | some (k, _) => discardPkt (setPart s p none) p k | none => s
  setPort s p { port s p with asm := [], synced := false }

/-! ### Port states (R376–R379, R385, R386) -/

/-- Queued packets are routed again by the port die (R386); they count as packets of the carriageway there. Twin packets, which never enter it, go
by another live causeway port, if there is one (R407, R408). -/
def reroute (s : State) (p : Nat) : State :=
  let x := port s p
  let d := portDie p
  let s := setPort s p { x with tx := [] }
  let s := (x.tx.filter (·.type != 13)).foldl (fun s k => let s := epAdd s d 0xFF k.sepoch true; if k.sdev = xDev s d then xAdd s d k.xepoch false else s) s
  let s := setNet s d { net s d with ends := (net s d).ends ++ x.tx.filter (·.type != 13) }
  match (List.range 4).find? (fun w => 36 + w ≠ p && live s (36 + w)) with
  | some w => setPort s (36 + w) { port s (36 + w) with tx := (port s (36 + w)).tx ++ x.tx.filter (·.type == 13) }
  | none => s
/-- Full training adapts every lane so (R378). -/
def eqAll (s : State) (p : Nat) : State := (List.range 9).foldl (fun s l => if closed s (cmLane p 0 l) then s else eqAsk s p l) s
/-- Whether training will be full: FULLTRAIN, a lane that failed the check, or no record that may be valid (R378, R379). -/
def trainsFull (s : State) (p : Nat) : Bool := (port s p).force || fb s (portPage p) fPORT_CTL_FULLTRAIN || !(port s p).recOk
/-- A port's lanes and streams begin anew. -/
def PortSt.clear (x : PortSt) : PortSt :=
  { x with bad := [], unlocked := 0, win := [], blks := [], quiet := 0, rest := [], asm := [], seen := [], synced := false, part := none }
/-- A port leaves service. -/
def portOff (s : State) (p st : Nat) : State :=
  let s := reroute (setPState s p st) p
  let pg := portPage p
  let s := wr (wr s pg 0x50 (2 ^ 32 - 1)) pg 0x54 (2 ^ 32 - 1)
  let s := setPort s p { (port s p).clear with rxSpare := none, txSpare := none, swapTx := none, swapRx := none, halfAsk := false }
  let s := fdSet s pg fPORT_STATUS_LOS 0
  fdSet (fdSet (fdSet s pg fPORT_STATUS_TXSPARE 0) pg fPORT_STATUS_RXSPARE 0) pg fPORT_STATUS_ROTATING 0

def portEnable (s : State) (p : Nat) : State :=
  if pState s p = 0 ∧ !closed s (cmPort p) then setPState (fdSet s (portPage p) fPORT_PEER_VALID 0) p 1 else s
/-- A port has left UP for DOWN or OFF: the event is captured (R386). -/
def portLeft (s : State) (p : Nat) : State :=
  let pg := portPage p
  raiseInt (errAt s pg cNOT_READY 0xB0 (fd s pg fPORT_LANE_RXFAIL) 0 0) pg 8
def portDisable (s : State) (p : Nat) : State :=
  if pState s p = 0 then s else if isUp s p then portLeft (portOff s p 0) p else portOff s p 0
def portRetrain (s : State) (p : Nat) : State :=
  if pState s p = 0 then s
  else
    let s := setPort (portOff s p 2) p { port (portOff s p 2) p with tried := 0 }
    if trainsFull s p then eqAll s p else s
/-- A port goes DOWN from UP (R384, R386). -/
def portDown (s : State) (p : Nat) : State :=
  portLeft (bump (portOff s p 7) (portPage p) 0xC48) p

/-- The peer's identity is one the port must not carry traffic to (R378). -/
def mismatch (s : State) (p dev pp kind : Nat) : Bool :=
  let pg := portPage p
  (fb s pg fPORT_EXPECT_CHECK && (fd s pg fPORT_EXPECT_DEVICE != dev || fd s pg fPORT_EXPECT_PORT != pp)) ||
  (kind == 1) != isCw p || (isCw p && kind == 1 && pp != p) || dev == xDev s (portDie p)
def toMismatch (s : State) (p dev pp kind : Nat) : State :=
  let pg := portPage p
  raiseInt (errAt (portOff s p 6) pg cRANGE 0xB1 pp (dev + 2 ^ 10 * pp + 2 ^ 16 * kind) 0) pg 11
/-- IDENT_BLOCK. -/
def identIn (s : State) (p dev pp kind : Nat) : State :=
  let st := pState s p
  if st = 0 ∨ st = 7 then s
  else
    let s := wr s (portPage p) 0x48 (dev % 1024 + 2 ^ 10 * (pp % 64) + 2 ^ 16 * (kind % 2) + 2 ^ 17)
    if st ≠ 6 ∧ mismatch s p (dev % 1024) (pp % 64) (kind % 2) then toMismatch s p (dev % 1024) (pp % 64) (kind % 2) else s

/-- Good lanes, lowest first. -/
def goodLanes (mask : Nat) : List Nat := (List.range 9).filter (fun i => bit mask i)
/-- A lane map of the first `w` of the lanes (R377). -/
def lmapOf (w : Nat) (l : List Nat) : Nat := (List.range 8).foldl (fun m i => m + 16 ^ i * (if i < w then l.getD i 15 else 15)) 0

/-- A word of a port's record written: whether the record is then valid, and for which peer, are free values (R378; log entry 133). -/
def portRecWrite (s : State) (p v : Nat) : State :=
  let s := setPort s p { port s p with words := tput (port s p).words (fd s (portPage p) fPORT_REC_SEL_WORD) (BitVec.ofNat 32 v), recOk := freeVal s % 2 == 1 }
  let s := freeUsed s
  freeUsed (setPort s p { port s p with recPeer := some (freeVal s % 2 ^ 17) })
/-- The coder training gives a lane: whether it precodes and its seed, which both ends agree on in a way the spec does not state, are free values (R362, R364). -/
def codeFrom (s : State) (i : Nat) : LaneCode := { pre := Config.freeNat (s.free + 2 * i) % 2 == 1, scr := BitVec.ofNat 58 (Config.freeNat (s.free + 2 * i + 1)) }
/-- PORT_TRAINING_DONE: `rxm` and `txm` are the lanes that trained good in each direction (R377, R378). -/
def trainingDone (s : State) (p rxm txm : Nat) : State :=
  let pg := portPage p
  if pState s p ≠ 2 then s
  else if fb s pg fPORT_PEER_VALID && mismatch s p (fd s pg fPORT_PEER_DEVICE) (fd s pg fPORT_PEER_PORT) (fd s pg fPORT_PEER_KIND) then
    toMismatch s p (fd s pg fPORT_PEER_DEVICE) (fd s pg fPORT_PEER_PORT) (fd s pg fPORT_PEER_KIND)
  else
    let rx := goodLanes rxm
    let tx := goodLanes txm
    let n := min rx.length tx.length
    let s := fdSet s pg fPORT_LANE_RXFAIL (2 ^ 9 - 1 - rxm % 2 ^ 9)
    let s := fdSet s pg fPORT_LANE_TXFAIL (2 ^ 9 - 1 - txm % 2 ^ 9)
    let s := fdSet s pg fPORT_STATUS_LOS 0
    if n < 7 then setPState s p 7
    else
      let w := if n ≥ 8 then 8 else 4
      let s := wr (wr (wr s pg 0x50 (lmapOf w tx)) pg 0x54 (lmapOf w rx)) pg 0x70 0
      let x := port s p
      let peer := rd s pg 0x48 % 2 ^ 17
      let full := x.force || fb s pg fPORT_CTL_FULLTRAIN || !(x.recOk && x.recPeer.getD peer == peer)
      let x := { x.clear with txSpare := tx[w]?, rxSpare := rx[w]?, force := false, rxFrame := 0 }
      let x := { x with txCode := (List.range 9).map (fun l => (l, codeFrom s l)), rxCode := (List.range 9).map (fun l => (l, codeFrom s (9 + l))) }
      let s := { s with free := s.free + 36 }
      let s := if full then { setPort s p { x with recBase := some s.free, words := [], recOk := true, recPeer := some peer } with free := s.free + 512 } else setPort s p { x with recPeer := some peer }
      let s := match rx[w]? with | some sp => eqAsk s p sp | none => s
      setPState (fdSet s pg fPORT_STATUS_ROTATING (b2n (rx[w]?).isSome)) p 3

/-- The active receive lanes that have not passed the check: a bad codeword, more than 10^-5 of the symbols corrected, or where `all` is false no
codeword (R379). -/
def checkBad (s : State) (p : Nat) (all : Bool) : List Nat :=
  let ls := lmapLanes (rd s (portPage p) 0x54)
  let worn := ls.filter (fun l => let w := tget {} (port s p).win l; decide (0 < w.bad) || decide (w.recv < 10 ^ 5 * w.corr))
  if all || !worn.isEmpty then worn
  else let none_ := ls.filter (fun l => (tget {} (port s p).win l).recv == 0); if none_.isEmpty then ls else none_
/-- The port takes the width of its good lanes anew, some having failed the check twice (R377, R379). -/
def checkAgain (s : State) (p : Nat) (bad : List Nat) : State :=
  let pg := portPage p
  let s := fdSet s pg fPORT_LANE_RXFAIL (bad.foldl (fun m l => m ||| 2 ^ l) (fd s pg fPORT_LANE_RXFAIL))
  let rx := (List.range 9).filter (fun l => !bit (fd s pg fPORT_LANE_RXFAIL) l && !closed s (cmLane p 0 l))
  let tx := (List.range 9).filter (fun l => !bit (fd s pg fPORT_LANE_TXFAIL) l && !closed s (cmLane p 1 l))
  let n := min rx.length tx.length
  if n < 7 then setPort (setPState s p 7) p { port s p with tried := 0 }
  else
    let w := if n ≥ 8 then 8 else 4
    let s := rxLost (wr (wr s pg 0x50 (lmapOf w tx)) pg 0x54 (lmapOf w rx)) p
    setPort (fdSet s pg fPORT_STATUS_ROTATING (b2n (rx[w]?).isSome)) p { port s p with txSpare := tx[w]?, rxSpare := rx[w]?, bad := [], unlocked := 0, win := [] }
/-- PORT_CHECK_DONE: what the active lanes have shown since training is judged, `all` saying that codewords came on every one of them. A lane that
fails is trained fully once more; one that fails again counts as failed. -/
def checkEnd (s : State) (p : Nat) (all : Bool) : State :=
  let pg := portPage p
  let bad := checkBad s p all
  let again := bad.filter (fun l => bit (port s p).tried l)
  if pState s p ≠ 3 then s
  else if bad.isEmpty then
    let w := (lmapLanes (rd s pg 0x54)).length
    let s := setPort s p { port s p with tried := 0, win := [] }
    raiseInt (setPState s p (if w = 8 then 4 else 5)) pg 13
  else if !again.isEmpty then checkAgain s p again
  else eqAll (setPort (setPState s p 2) p { port s p with tried := bad.foldl (fun m l => m ||| 2 ^ l) (port s p).tried, force := true }) p

/-! ### Lanes in service (R381–R384) -/

/-- The port goes to half width on the lowest good lanes among those it has, or where these are fewer than 4 among all. -/
def toHalf (s : State) (p : Nat) : State :=
  let pg := portPage p
  let keep := fun (off fail : Nat) (sp : Option Nat) =>
    let l := (List.range 16).filter (fun l => (lmapLanes (rd s pg off) ++ sp.toList).contains l && !bit fail l)
    if l.length < 4 then (List.range 9).filter (fun l => !bit fail l && !closed s (cmLane p (if off = 0x50 then 1 else 0) l)) else l
  let x := port s p
  let rx := keep 0x54 (fd s pg fPORT_LANE_RXFAIL) x.rxSpare
  let tx := keep 0x50 (fd s pg fPORT_LANE_TXFAIL) x.txSpare
  if rx.length < 4 ∨ tx.length < 4 then portDown s p
  else
    let s := wr (wr s pg 0x50 (lmapOf 4 tx)) pg 0x54 (lmapOf 4 rx)
    let s := setPort s p { port s p with rxSpare := rx[4]?, txSpare := tx[4]?, halfAsk := false, swapTx := none, swapRx := none }
    let s := fdSet (fdSet s pg fPORT_STATUS_TXSPARE 0) pg fPORT_STATUS_RXSPARE 0
    raiseInt (setPState (rxLost s p) p 5) pg 10

/-- LANE_FAILURE of a physical receive lane; `los` says its signal is lost. -/
def laneFail (s : State) (p plane : Nat) (los : Bool) : State :=
  let pg := portPage p
  match logicalOf (rd s pg 0x54) plane with
  | none => s
  | some l =>
    if !isUp s p then s
    else
      let s := fdSet s pg fPORT_LANE_RXFAIL (fd s pg fPORT_LANE_RXFAIL ||| 2 ^ plane)
      let s := if los then fdSet s pg fPORT_STATUS_LOS 1 else s
      let s := report (raiseInt s pg 9) { page := pg.no, source := 0xB0, code := cNOT_READY, detail := plane }
      let x := port s p
      let good := (List.range 9).filter (fun v => !bit (fd s pg fPORT_LANE_RXFAIL) v && !closed s (cmLane p 0 v))
      let f := fd s pg fPORT_FRAME_FRAME
      match (if fb s pg fPORT_STATUS_RXSPARE then x.rxSpare else none) with
      | some sp =>
        let f := (f + 64) % 2 ^ 32
        queueBlk (setPort s p { x with swapRx := some { lane := l, spare := sp, frame := f } }) p (laneBlk 1 l sp f)
      | none =>
        if good.length ≥ 4 then queueBlk (setPort s p { x with halfAsk := true }) p (laneBlk 2 l plane f)
        else portDown s p

/-! ### Codewords received (R364–R366, R374, R379, R381) -/

/-- What a lane has shown, with one codeword more: in service the count begins anew every millisecond. -/
def LaneWin.add (w : LaneWin) (now : Nat) (fresh : Bool) (bad : Bool) (corr : Nat) : LaneWin :=
  let w := if fresh then { start := now, last := w.last } else w
  { w with bad := w.bad + b2n bad, corr := w.corr + corr, recv := w.recv + 544, last := if bad then some now else w.last }
/-- A lane fails: it has lost codeword lock, a second bad codeword has come within 1 ms, or over 1 ms more than 10^-4 of its symbols were corrected. -/
def laneWorn (s : State) (p lane : Nat) (bad : Bool) : Bool :=
  let x := port s p
  let w := tget {} x.win lane
  bit x.unlocked lane ||
  (bad && (match w.last with | some t => decide (s.now < t + msTicks 1) | none => false)) ||
  (decide (w.start + msTicks 1 ≤ s.now) && decide (w.recv < 10 ^ 4 * w.corr))
/-- A receive lane's count of what it has shown, and its failure where that is too bad. -/
def laneShown (s : State) (p lane : Nat) (bad : Bool) (corr : Nat) : State :=
  let x := port s p
  let worn := isUp s p && !bit (fd s (portPage p) fPORT_LANE_RXFAIL) lane && laneWorn s p lane bad
  let w := tget {} x.win lane
  let s := setPort s p { x with win := tput x.win lane (w.add s.now (isUp s p && decide (w.start + msTicks 1 ≤ s.now)) bad corr) }
  if worn then laneFail s p lane false else s
/-- A block that begins a packet or a link block: a link block's OFF bits are taken; a packet's payload is awaited. What follows a header of a
reserved TYPE is not known to begin anything (R367, R368, R372, R374; log entry 172). -/
def blkBegin (s : State) (p : Nat) (b : LineBlk) : State :=
  let k := pktOf b
  if k.type = 15 then setPort (fdSet s (portPage p) fPORT_FC_TXOFF (bits (b.w.getD 0 0).toNat 8 8)) p { port s p with synced := true }
  else if (typeVc k.type).isNone && k.type != 14 && !(k.type == 13 && isCw p) then discardPkt (setPort s p { port s p with synced := false }) p k
  else
    let s := setPort s p { port s p with synced := true }
    if blkCount k ≤ 1 then receivePkt s p k else setPart s p (some (k, []))
/-- A block in block order; one of a bad codeword takes the packet with it, and blocks are skipped up to the next that is known to begin something
(R367, R374). -/
def blkIn (s : State) (p : Nat) : Option LineBlk → State
  | none =>
    let s := match (port s p).part with | some (k, _) => discardPkt (setPart s p none) p k | none => s
    bump (setPort s p { port s p with synced := false }) (portPage p) 0xC38
  | some b =>
    match (port s p).part with
    | some (k, l) =>
      if blkCount k ≤ l.length / 4 + 2 then receivePkt (setPart s p none) p (pktWith k (l ++ b.w)) else setPort s p { port s p with part := some (k, l ++ b.w) }
    | none => if (port s p).synced || b.head then blkBegin s p b else bump s (portPage p) 0xC38
/-- The next frame is read once a codeword of each lane of the map has come, or one of two frames later: lanes are skewed by less than a frame (R365). -/
def frameReady (s : State) (p : Nat) : Bool :=
  let x := port s p
  decide ((lmapLanes (rd s (portPage p) 0x54)).length ≤ (tget [] x.asm x.rxFrame).length) ||
  x.asm.any (fun e => let n := (e.1 + 2 ^ 32 - x.rxFrame) % 2 ^ 32; decide (2 ≤ n) && decide (n < 2 ^ 31))
def frameRead (s : State) (p : Nat) : State :=
  let x := port s p
  if frameReady s p then
    (frameBlks (lmapLanes (rd s (portPage p) 0x54)).length (tget [] x.asm x.rxFrame)).foldl (fun s b => blkIn s p b)
      (setPort s p { x with asm := tdel x.asm x.rxFrame, rxFrame := (x.rxFrame + 1) % 2 ^ 32 })
  else s
/-- A codeword's blocks join those of its frame, and the frames that are then whole are read in their order. -/
def frameIn (s : State) (p f lane : Nat) (l : List LineBlk) : State :=
  let x := port s p
  if 2 ^ 31 ≤ (f + 2 ^ 32 - x.rxFrame) % 2 ^ 32 then s
  else frameRead (frameRead (setPort s p { x with asm := tput x.asm f (tput (tget [] x.asm f) lane l) }) p) p
/-- The frame of a codeword by its FSEQ: that to be read next or one of the two after it, else the one before (R365). -/
def frameOf (s : State) (p fseq : Nat) : Nat :=
  let r := (port s p).rxFrame
  let n := (fseq + 4 - r % 4) % 4
  (r + (if n = 3 then 2 ^ 32 - 1 else n)) % 2 ^ 32
/-- The frame of a lane's next codeword as the lane counts. -/
def frameDue (s : State) (p lane : Nat) : Nat :=
  let r := (port s p).rxFrame
  let f := tget r (port s p).seen lane
  if (f + 2 ^ 32 - r) % 2 ^ 32 ≤ 2 then f else r
/-- A bad codeword: it is counted, four in a row lose the lane's lock, and its blocks are lost (R366, R374). -/
def codewordBad (s : State) (p lane : Nat) : State :=
  let x := port s p
  let n := tget 0 x.bad lane + 1
  let f := frameDue s p lane
  let s := setPort s p { x with bad := tput x.bad lane n, unlocked := if n ≥ 4 then x.unlocked ||| 2 ^ lane else x.unlocked, seen := tput x.seen lane ((f + 1) % 2 ^ 32) }
  let s := raiseInt (bump s (portPage p) 0xC18) (portPage p) 12
  let s := match logicalOf (rd s (portPage p) 0x54) lane with | some l => frameIn s p f l [] | none => s
  laneShown s p lane true 0
/-- A good codeword, with the symbols corrected: its blocks are placed by the LANE and FSEQ of its own header; a SPARE codeword holds none (R364–R366,
R383). -/
def codewordGood (s : State) (p lane : Nat) (m : Message) (corr : Nat) (side : List Nat) : State :=
  let pg := portPage p
  let f := frameOf s p m.fseq
  let s := if m.spare then s else bump s pg 0xC00
  let s := if corr = 0 then s else bumpBy (bump s pg 0xC08) pg 0xC10 corr
  let s := setPort s p { port s p with bad := tdel (port s p).bad lane, seen := tput (port s p).seen lane ((f + 1) % 2 ^ 32) }
  let s := laneShown (laneSeen s p lane m) p lane false corr
  if m.spare then s else frameIn s p f m.lane (messageBlks m side)
/-- CODEWORD_RECEIVE on a physical lane, whose descrambler keeps step; one out of lock receives nothing until it is trained (R366). -/
def codewordIn (s : State) (p lane : Nat) (k : Codeword) : State :=
  let st := pState s p
  if st < 3 || 5 < st then s
  else
    let c := tget {} (port s p).rxCode lane
    let s := setPort s p { port s p with rxCode := tput (port s p).rxCode lane (c.after k.line) }
    if bit (port s p).unlocked lane then s
    else match codewordRead c k.line with
    | none => codewordBad s p lane
    | some (m, n) => codewordGood s p lane m n k.side

/-- LANE_SWAP at its frame, in one direction: frame F − 1 is the last on the old lane (R383). -/
def laneSwap (s : State) (p : Nat) (tx : Bool) : State :=
  match (if tx then (port s p).swapTx else (port s p).swapRx) with
  | none => s
  | some w => if swapDue (if tx then fd s (portPage p) fPORT_FRAME_FRAME else (port s p).rxFrame) w.frame then swapDo s p tx w.lane w.spare else s

/-- The mapped lane a rotation step frees: the next physical lane after the spare in ascending order modulo 9 (R382). -/
def nextLane (m sp : Nat) : Option Nat :=
  ((List.range 8).map (fun i => (sp + 1 + i) % 9)).findSome? (fun v => logicalOf m v)
/-- ROTATION_STEP. -/
def rotationStep (s : State) (p : Nat) : State :=
  let pg := portPage p
  let x := port s p
  match x.txSpare with
  | none => s
  | some sp =>
    if !(x.granted && isUp s p && fb s pg fPORT_CTL_ROT_EN && fb s pg fPORT_STATUS_TXSPARE && x.swapTx.isNone) then s
    else match nextLane (rd s pg 0x50) sp with
      | none => s
      | some l =>
        let f := (fd s pg fPORT_FRAME_FRAME + 64) % 2 ^ 32
        queueBlk (setPort s p { x with granted := false, swapTx := some { lane := l, spare := sp, frame := f } }) p (laneBlk 1 l sp f)
/-- SPARE_RETRAIN_DONE: the spare has trained good (R382). -/
def spareDone (s : State) (p : Nat) : State :=
  let pg := portPage p
  match (port s p).rxSpare with
  | none => s
  | some sp =>
    if !isUp s p || fb s pg fPORT_STATUS_RXSPARE || closed s (cmLane p 0 sp) then s
    else
      let fail := fd s pg fPORT_LANE_RXFAIL
      let s := fdSet s pg fPORT_LANE_RXFAIL (if bit fail sp then fail - 2 ^ sp else fail)
      let x := port s p
      let s := setPort s p { x with bad := tdel x.bad sp, unlocked := if bit x.unlocked sp then x.unlocked - 2 ^ sp else x.unlocked }
      queueBlk (fdSet (fdSet s pg fPORT_STATUS_RXSPARE 1) pg fPORT_STATUS_ROTATING 0) p (laneBlk 0 0 sp 0)

/-- HALF_WIDTH_RETRAIN: at most once an hour (R385). -/
def halfRetrain (s : State) (p : Nat) : State :=
  let soon := match (port s p).lastHalf with | some t => decide (s.now < t + usTicks 3600000000) | none => false
  if pState s p != 5 || soon then s
  else
    let s := portDisable (fdSet s (portPage p) fPORT_CTL_ENABLE 0) p
    let s := portEnable (fdSet s (portPage p) fPORT_CTL_ENABLE 1) p
    setPort s p { port s p with lastHalf := some s.now }

/-! ### The device route table (R388, R389, R393–R395, R401) -/

def routeEnt (s : State) (d b dev : Nat) : Nat := (tget 0 (tget {} s.routes d).ent (1024 * (b % 2) + dev)).toNat
/-- The live ports of a set, ascending. -/
def liveOf (s : State) (mask : Nat) : List Nat := (List.range 40).filter (fun p => bit mask p && live s p)

/-- A packet ends at a port die. One the module sends was not yet counted. -/
def xDrop (s : State) (d : Nat) (p : Pkt) : State := if p.sdev = xDev s d then s else xAdd s d p.xepoch false
def noRoute (s : State) (d : Nat) (p : Pkt) : State := pktErr (bump (xDrop s d p) (xPage d) 0xC18) (xPage d) 0xB2 p.ddev p 8

/-- The set of its entry by which a packet leaves, 0 being PRIM, with that set's live ports and the port of its key (R388). -/
def routeChoice (s : State) (d b : Nat) (p : Pkt) : Option (Nat × List Nat × Nat) :=
  let e := routeEnt s d b p.ddev
  let sets := [bits e 0 40, bits e 40 40, bits e 80 40]
  if !bit e 120 then none
  else ((List.range 3).find? (fun i => !(liveOf s (sets.getD i 0)).isEmpty)).map (fun i =>
    let l := liveOf s (sets.getD i 0)
    let key := Nat.xor (Nat.xor (Nat.xor p.sdev p.sdie) (Nat.xor p.sunit p.ddie)) p.dunit
    (i, l, l.getD (key % l.length) 0))
/-- A packet joins those a port has to send: routed by the table's set `i`, it is counted, in its XEPOCH too where it is the module's own, and leaves
in class 1 by a detour set, an own one else in class 0 (R371, R388, R393). -/
def routeOut (s : State) (d b i k : Nat) (own : Bool) (p : Pkt) : State :=
  let s := bump s (xPage d) 0xC00
  let s := if i = 0 then s else bump s (xPage d) 0xC08
  let s := if own then xAdd s (portDie k) b true else s
  setPort s k { port s k with tx := (port s k).tx ++ [{ p with xepoch := b, crossed := false, cls := if i ≠ 0 then 1 else if own then 0 else p.cls }] }
/-- A packet of a retired XEPOCH (R395); one the module sends was not yet counted. -/
def xepDrop (s : State) (d inp b : Nat) (own : Bool) (p : Pkt) : State :=
  pktErr (bump (if own then s else xAdd s d b false) (xPage d) 0xC20) (xPage d) 0xB3 (if inp < 40 then inp else 0x3F) p 9
/-- A routed control packet, which never enters the carriageway, goes to its port at once, of whichever port die (R367, R369, R389, R393). -/
def routeControl (s : State) (d inp : Nat) (p : Pkt) : State :=
  let own := decide (40 ≤ inp)
  let b := if own then injX s d else p.xepoch
  if xRetired s d b then xepDrop s d inp b own p
  else match routeChoice s d b p with
    | none => noRoute s d p
    | some (i, _, k) =>
      if portDie k = d then routeOut s d b i k own p
      else routeOut (bump s (xPage d) 0xC10) d b i k own { p with cls := if own then p.cls else 1 }
/-- DEVICE_ROUTE of a packet that came by port `inp`, or by the carriageway where `inp` is 0x3F: a packet crosses between the port dies once
(R389; log entry 135). -/
def deviceRoute (s : State) (d inp : Nat) (p : Pkt) : State :=
  let pg := xPage d
  let byPort := decide (inp < 40)
  let s := if byPort then rxDrop s inp p else takeEnd s d p
  let s := if byPort then s else epEnd s d 0xFF p
  if byPort ∧ xRetired s d p.xepoch then xepDrop s d inp p.xepoch false p
  else if p.ddev = xDev s d then
    (if byPort then sendFromPort (xAdd s d p.xepoch false) d inp p else s)
  else if p.type = 14 then routeControl s d inp p
  else
    let own := p.sdev == xDev s d
    let b := if own then injX s d else p.xepoch
    if xRetired s d b then xepDrop s d inp b own p
    else match routeChoice s d b p with
      | none => noRoute s d p
      | some (i, l, k) =>
        if portDie k = d then routeOut s d b i k own p
        else if !p.crossed then
          let p := { p with cls := if own then p.cls else 1, exit := portDie k - 9, crossed := true }
          let s := bump s pg 0xC10
          if byPort then sendFromPort s d inp p else swPush (epAdd s d 0xFF p.sepoch true) d 0xE0 p
        else match l.find? (fun q => portDie q == d) with
          | some q => routeOut s d b i q own p
          | none => noRoute s d p
where
  /-- A packet injected into the carriageway at a port's interface, which sets its AUTH (R313, R656). -/
  sendFromPort (s : State) (d inp : Nat) (p : Pkt) : State :=
    let u := portUnit inp
    let e := injEpoch s d u
    swPush (epAdd s d u e true) d u { p with sepoch := e, auth := entryAuth inp p }
/-- A routed control packet of the module's own, from the hub: its port die routes it; for the module itself there is nothing to send (R369, R393). -/
def controlSend (s : State) (p : Pkt) : State := if p.ddev = xDev s 9 then s else routeControl s 9 0x3F { p with sdev := xDev s 9, sdie := 8, sunit := 0xE0, auth := 0 }

/-- A write of XTAB_XCTL: GO flips this port die at once and the other within 1 µs, RETIREb retires a bank of this one (R394; log entry 51). -/
def xRefused (s : State) (d off : Nat) : State := raiseInt (errAt s (xPage d) cNOT_READY 0x93 off 0 0) (xPage d) 11
def xctlWrite (s : State) (d v : Nat) : State :=
  let s := if bit v 2 then fdSet s (xPage d) fXTAB_XCTL_RETIRE0 1 else s
  let s := if bit v 3 then fdSet s (xPage d) fXTAB_XCTL_RETIRE1 1 else s
  if !bit v 1 then s
  else
    let cur := injX s d
    let far := 19 - d
    if xFlipping s || !xRetired s 9 (1 - cur) || !xRetired s 10 (1 - cur) then xRefused s d 0x48
    else
      let s := freeUsed (if v % 2 = cur then s else { s with routes := tput s.routes far { tget {} s.routes far with late := s.now + 1 + freeVal s % usTicks 1 } })
      [9, 10].foldl (fun s k => fdSet (fdSet s (xPage k) fXTAB_STATUS_INJ_XEPOCH (v % 2)) (xPage k) (fXTAB_XCTL_RETIRE0.sub (v % 2)) 0) s

def routesOf (s : State) (d : Nat) : Routes := tget {} s.routes d
def setRoutes (s : State) (d : Nat) (r : Routes) : State := { s with routes := tput s.routes d r }
def edataStage (s : State) (d i v : Nat) : State := setRoutes s d { routesOf s d with stage := tput (routesOf s d).stage i (BitVec.ofNat 32 v) }
/-- The selected entry. -/
def edataKey (s : State) (d : Nat) : Nat := 1024 * fd s (xPage d) fXTAB_ESEL_BANK + fd s (xPage d) fXTAB_ESEL_DEV
def edataWord (s : State) (d i : Nat) : Nat := bits (tget 0 (routesOf s d).ent (edataKey s d)).toNat (32 * i) 32
/-- ROUTE_ENTRY_COMMIT: all four words at once, to a retired bank only. -/
def edataCommit (s : State) (d v : Nat) : State :=
  let b := fd s (xPage d) fXTAB_ESEL_BANK
  if !xRetired s d b then xRefused s d 0x74
  else
    let r := routesOf s d
    let w := fun i => (tget (BitVec.ofNat 32 (edataWord s d i)) r.stage i).toNat
    let e := w 0 + 2 ^ 32 * w 1 + 2 ^ 64 * w 2 + 2 ^ 96 * (v % 2 ^ 25)
    setRoutes s d { r with ent := tput r.ent (edataKey s d) (BitVec.ofNat 128 e), stage := [] }

/-! ### Routed control packets (R369) -/

/-- The first flit of a control packet's payload as the port die rewrites it: from the port's interface to the packet's die and unit, with the
footpath type of its CTYPE (R319, R321, R369). -/
def controlFlit (p : Nat) (k : Pkt) : Word := flitTo k.ddie k.dunit (portDie p) (portUnit p) (if k.code = 1 then 7 else if k.code = 2 then 8 else if k.code = 3 then 0x20 else 0)
def rewriteFlit (p : Nat) (k : Pkt) : Pkt :=
  match k.data with
  | w :: l => { k with data := BitVec.ofNat 64 (w.toNat / 2 ^ 32 * 2 ^ 32 + (controlFlit p k).toNat) :: l }
  | [] => k
/-- ROUTED_CONTROL_PACKET at the module it is for; a reserved CTYPE or NFLIT is discarded (R369, R374, R395). -/
def controlPkt (s : State) (p : Nat) (k : Pkt) : State :=
  let d := portDie p
  if k.type ≠ 14 ∨ k.ddev ≠ xDev s d then s
  else
    let s := rxDrop s p k
    if k.code = 0 ∨ 5 < k.code ∨ k.rlen = 0 ∨ 68 < k.rlen then discardPkt s p k
    else if xRetired s d k.xepoch then xepDrop s d p k.xepoch false k
    else
      let s := xAdd s d k.xepoch false
      if k.code = 5 ∧ !fb s (portPage p) fPORT_CTL_TRUSTED then
        raiseInt (errAt (bump (denyFabric s true) (xPage d) 0xC30) (xPage d) cDENIED 0xB4 p (pktAddr k) k.ctag) (xPage d) 10
      else
        let k := rewriteFlit p k
        let s := send (bump s (xPage d) 0xC28) (.ctl k)
        if k.code = 4 ∨ k.code = 5 then setNet s 8 { net s 8 with ends := (net s 8).ends ++ [k] } else s

end Sys2Proof.Machine
end

