-- ==== Sys2Proof/Machine/HealOps.lean ====
section
/-! DEFINITION. Reports, the suspect ladder, paired compute mode (R439–R466). -/
namespace Sys2Proof.Machine
open Sys2Proof

def setHeal (s : State) (h : Heal) : State := { s with heal := h }
def healPage (d : Nat) : PageId := if d < 8 then diePage .heal d else hubPage .healHub
def hubHeal : PageId := hubPage .healHub
def ladder (s : State) (c : Nat) : Ladder := tget {} s.heal.ladders c

/-! ### Logs (R461, R463, R464, R657) -/

def logOf (s : State) (d : Nat) : List LogEnt := tget [] s.heal.logs d
def setLog (s : State) (d : Nat) (l : List LogEnt) : State := setHeal s { s.heal with logs := tput s.heal.logs d l }
/-- An entry taken into the log of a compute die, or of the hub where `d` is 8; a full log drops it. -/
def logAdd (s : State) (d : Nat) (e : LogEnt) : State :=
  let pg := healPage d
  if (logOf s d).length ≥ 256 then
    if d < 8 then raiseInt (errAt (bump s pg 0xC40) pg cNOT_READY 0xD2 e.type 0 0) pg 11
    else raiseInt (errAt (bump s pg 0xC68) pg cNOT_READY 0xD9 e.type 0 0) pg 15
  else raiseInt (setLog s d (logOf s d ++ [e])) pg (if d < 8 then 8 else 14)
def logRead (s : State) (d : Nat) : State := setLog s d (logOf s d).tail
/-- The words of the oldest entry; zero where the log is empty. -/
def logWord (s : State) (d i : Nat) : Nat :=
  match (logOf s d).head? with
  | none => 0
  | some e =>
    match i with
    | 0 => e.time % 2 ^ 32
    | 1 => e.time / 2 ^ 32 % 2 ^ 16 + 2 ^ 16 * e.code + 2 ^ 24 * e.source
    | 2 => e.type + 2 ^ 8 * (e.inst % 256) + 2 ^ 16 * (e.detail % 2 ^ 16)
    | _ => e.tag + 2 ^ 16 * e.action + (if d = 8 then 2 ^ 19 * e.die else 0) + 2 ^ 31

/-! ### The ladder (R455–R460) -/

/-- The offset of a cluster: the largest among its cores (R457). -/
def clusOffset (s : State) (k : Nat) : Nat := (clusterCores k).foldl (fun m c => max m (ladder s c).offset) 0
/-- A cluster's set point or offset takes a value: its regulator's target follows while the rail is up (R457, R485, R548). -/
def clusVolts (s : State) (k sp off : Nat) : State :=
  let pg := clusPage k
  let s := fdSet (fdSet s pg fCLUS_VSET_SETPT sp) pg fCLUS_VSET_OFFSET off
  if fd s pg fCLUS_STATUS_RAIL = 1 ∨ fd s pg fCLUS_STATUS_RAIL = 2 then fdSet s pg fCLUS_VSET_VOUT (sp + off) else s
/-- A ladder changes; the cluster regulator follows, and a request for roadworks is raised when it is new. -/
def setLadder (s : State) (c : Nat) (l : Ladder) : State :=
  let new := l.rwpend && !(ladder s c).rwpend
  let s := setHeal s { s.heal with ladders := tput s.heal.ladders c l }
  let pg := clusPage (clusterOf c)
  let o := clusOffset s (clusterOf c)
  let s := if fd s pg fCLUS_VSET_OFFSET = o then s else clusVolts s (clusterOf c) (fd s pg fCLUS_VSET_SETPT) o
  if new then raiseInt (bump s (healPage (c / 144)) 0xC28) (healPage (c / 144)) 9 else s
/-- A window that has run out is closed before an event is judged (R460). -/
def openWindow (s : State) (c : Nat) (l : Ladder) : Ladder :=
  let pg := healPage (c / 144)
  match l.winEnd with
  | some t => if t ≤ s.now then { l with winEnd := some (s.now + msTicks (fd s pg fHEAL_WINDOW_WIN)), count := 0 } else l
  | none => { l with winEnd := some (s.now + msTicks (fd s pg fHEAL_WINDOW_WIN)), count := 0 }
def decayTime (s : State) (c : Nat) : Nat := s.now + msTicks (60000 * fd s (healPage (c / 144)) fHEAL_WINDOW_DECAY)

/-- One mismatch event on a core's ladder, with the ACTION it logs (R455). -/
def ladderStep (s : State) (c : Nat) : State × Nat :=
  let pg := healPage (c / 144)
  let f := fun r => fd s pg r
  let s := bump s pg 0xC08
  let l := ladder s c
  if l.rwpend || (core s c).test then (s, 0)
  else
    let l := openWindow s c l
    let l := { l with count := l.count + 1, decayAt := some (decayTime s c) }
    let k := clusterOf c
    let up := l.offset + f fHEAL_LADDER_VSTEP
    let can := decide (up ≤ f fHEAL_LADDER_VMAX) && decide (fd s (clusPage k) fCLUS_VSET_SETPT + max (clusOffset s k) up ≤ 80)
    let (s, l, a) :=
      if l.count = f fHEAL_LADDER_NVOLT && fb s pg fHEAL_LADDER_EN_V then
        if can then (bump s pg 0xC10, { l with offset := up }, 1) else (raiseInt (bump s pg 0xC18) pg 12, l, 2)
      else (s, l, 0)
    if l.count = f fHEAL_LADDER_NCLK then
      let l := { l with winEnd := none, count := 0 }
      if fb s pg fHEAL_LADDER_EN_CLK && decide (l.div < 2) then (setLadder (bump s pg 0xC20) c { l with div := l.div + 1 }, 3)
      else if fb s pg fHEAL_LADDER_EN_RW then (setLadder s c { l with rwpend := true }, 4)
      else (setLadder s c l, a)
    else (setLadder s c l, a)

/-- Retries exhausted: roadworks at once where EN_RW is 1 (R456). -/
def exhausted (s : State) (c : Nat) : State × Nat :=
  if fb s (healPage (c / 144)) fHEAL_LADDER_EN_RW then (setLadder s c { ladder s c with rwpend := true }, 4) else (s, 0)

/-- Reports that are mismatch events of the ladder: array, compute unit, pair, books of a core's unit (R25, R454). -/
def isMismatch (r : Report) : Bool :=
  r.source == 0x46 || r.source == 0x67 || r.source == 0xD0 || (r.books && r.core.isSome)
def isExhausted (r : Report) : Bool := (r.source == 0x40 || r.source == 0x61) && r.code == cPOISON

/-- The last undelivered report of a unit is taken: the reports it could not hold are counted as lost (R461). -/
def backlogClear (s : State) (page d : Nat) : State :=
  if s.reports.any (fun e => e.page == page) then s
  else
    let n := tget 0 s.heal.backlog page
    if n = 0 then s else bumpBy (setHeal s { s.heal with backlog := tdel s.heal.backlog page }) (healPage d) (if d < 8 then 0xC40 else 0xC68) n
/-- HEAL_REPORT: the oldest report reaches its HEAL page. -/
def healReport (s : State) : State :=
  match s.reports with
  | [] => s
  | r :: l =>
    let d := r.page / 2048
    let s := backlogClear { s with reports := l } r.page d
    let (type, inst) := match pageOf r.page with | some p => (p.blk.code, p.inst) | none => (0, 0)
    let type := if r.source = 0xD0 then 0x28 else type
    let inst := match r.core with | some c => c % 144 | none => inst
    let ent : LogEnt := { time := s.now, code := r.code, source := r.source, type := type, inst := inst, detail := r.detail }
    if d < 8 then
      let s := bump s (healPage d) 0xC00
      let (s, a) := match r.core with
        | none => (s, 0)
        | some c =>
          if r.source = 0xD0 then
            let (s, _) := ladderStep s (c + 1)
            ladderStep s c
          else if isMismatch r then ladderStep s c else if isExhausted r then exhausted s c else (s, 0)
      let tag := match r.core with | some c => coreTag s c | none => 0
      logAdd s d { ent with tag := tag, action := a }
    else logAdd s 8 { ent with die := d }

/-- LADDER_WINDOW_EXPIRY. -/
def windowClose (s : State) (c : Nat) : State :=
  let l := ladder s c
  if l.winEnd.isNone then s else setLadder s c { l with winEnd := none, count := 0 }
/-- LADDER_DECAY: one step, the clock before the voltage (R458). -/
def ladderDecay (s : State) (c : Nat) : State :=
  let pg := healPage (c / 144)
  let l := ladder s c
  if l.div = 0 ∧ l.offset = 0 then s
  else
    let l := if l.div > 0 then { l with div := l.div - 1 } else { l with offset := l.offset - fd s pg fHEAL_LADDER_VSTEP }
    let l := { l with decayAt := if l.div = 0 ∧ l.offset = 0 then none else some (decayTime s c) }
    let s := bump (setLadder s c l) pg 0xC30
    logAdd s (c / 144) { time := s.now, code := cOK, source := 0xD1, type := 0x28, inst := c % 144, detail := 0, tag := coreTag s c, action := 5 }
/-- A write of HEAL_CCTL: CLEAR, then FORCE. -/
def healCctl (s : State) (d v : Nat) : State :=
  let n := v % 256
  let c := 144 * d + n
  if n ≥ 144 then s
  else
    let s := if bit v 8 then setLadder s c {} else s
    if bit v 9 then
      let s := setLadder s c { ladder s c with rwpend := true }
      logAdd s d { time := s.now, code := cOK, source := 0xD1, type := 0x28, inst := n, detail := 0, tag := coreTag s c, action := 4 }
    else s
/-- HEAL_CSTAT latched for a core. -/
def healCsel (s : State) (d n : Nat) : State :=
  let l := ladder s (144 * d + n)
  wr s (healPage d) 0x50 (l.count % 16 + 2 ^ 4 * l.offset + 2 ^ 9 * l.div + 2 ^ 11 * b2n l.rwpend + 2 ^ 12 * b2n l.winEnd.isSome + 2 ^ 13 * b2n (corePaired s (144 * d + n)))
/-- A write of HEAL_PAIR_LO or HEAL_PAIR_HI; a change of a cluster with a bound core refuses it (R446). -/
def pairWrite (s : State) (d off v : Nat) : State :=
  let pg := healPage d
  let base := if off = 0x78 then 0 else 32
  let n := if off = 0x78 then 32 else 4
  let chg := Nat.xor (rd s pg off) v
  match (List.range n).find? (fun i => bit chg i && (clusterCores (36 * d + base + i)).any (fun c => bit (rd s (corePage .core c) 0xC) 16)) with
  | some i => errAt s pg cNOT_READY 0xD3 (base + i) 0 0
  | none => wr s pg off (v % 2 ^ n)
/-- SUSPECTS (R464). -/
def suspects (s : State) (d : Nat) : Nat :=
  countp (fun i => let l := ladder s (144 * d + i); l.winEnd.isSome || l.offset != 0 || l.div != 0 || l.rwpend) (List.range 144)

/-! ### The records of roadworks (R486, R491) -/

def visit (s : State) (c : Nat) : Option Visit := (s.heal.visits.find? (fun e => e.1 == c)).map (·.2)
/-- A visit is over: its record is taken, of the newest 64, and the slot is free; the outcome is 5 where it was abandoned. -/
def visitOver (s : State) (c : Nat) (v : Visit) (outcome : Nat) : State :=
  let r : RwRec := { die := c / 144, core := c % 144, outcome := outcome, retested := v.retested, duration := (s.now - v.start) / 250 % 65536, thresh := v.thresh, req := tget 0 s.heal.reqs c, setpt := fd s (clusPage (clusterOf c)) fCLUS_VSET_SETPT, cov := 9750, banks := countp (fun b => bit v.banks b) (List.range 64), time := s.now / 25000 % 2 ^ 31 }
  let h := s.heal
  let s := setHeal s { h with visits := tdel h.visits c, slots := tdel h.slots c, visited := tput h.visited c s.now, rwlog := (h.rwlog ++ [r]).drop (h.rwlog.length + 1 - 64) }
  setCore s c { core s c with test := false }
/-- A visit cut short: its core is closed or its die reset (log entry 140). -/
def visitDrop (s : State) (c : Nat) : State := match visit s c with | some v => visitOver s c v 5 | none => setHeal s { s.heal with slots := tdel s.heal.slots c }

/-! ### Paired compute mode (R447, R448) -/

/-- Header words 1 to 3 of a packet (R294, R295). -/
def hdrWords (p : Pkt) : List Nat :=
  let w1 := p.den + 2 ^ 22 * p.sen + 2 ^ 44 * p.ctag + 2 ^ 60 * p.auth
  let ch := p.handle + 2 ^ 10 * p.rgen + 2 ^ 16 * p.seq + 2 ^ 32 * p.att + 2 ^ 35 * p.part + 2 ^ 38 * p.npart + 2 ^ 41 * p.len + 2 ^ 54 * p.sidx
  match p.type with
  | 0 => [w1, ch, 0]
  | 1 => [w1, ch, p.cmask]
  | 2 => [w1, ch, p.cvid + 2 ^ 18 * p.slot]
  | 3 => [w1, p.code + 2 ^ 8 * p.seq + 2 ^ 24 * p.att + 2 ^ 27 * p.part + 2 ^ 30 * p.sidx + 2 ^ 40 * b2n p.conv, if p.conv then p.cvid else 0]
  | 4 => [w1, p.slot + 2 ^ 6 * p.cidx + 2 ^ 18 * p.sidx, 0]
  | 5 => [w1, p.code + 2 ^ 8 * p.handle + 2 ^ 18 * p.rgen + 2 ^ 24 * p.kind + 2 ^ 26 * p.maxlen + 2 ^ 39 * p.mode + 2 ^ 40 * p.sidx, 0]
  | 8 => [w1, p.addr + 2 ^ 48 * p.rlen, p.rid]
  | 10 => [w1, p.addr + 2 ^ 48 * p.rlen, p.rid]
  | 9 => [w1, p.code + 2 ^ 8 * p.rid + 2 ^ 16 * p.rlen, 0]
  | _ => [w1, p.code + 2 ^ 8 * p.rid, 0]
/-- The value the two cores of a pair compare. -/
def pairCrc (p : Pkt) : DWord := crc64 0 ((hdrWords p).map (fun w => natLe 8 w)).flatten |> fun c => crc64 c ((wordBytes p.data).take (payload p))

/-- PACKET_LAUNCH at a core; the interface of a paired core launches only at PAIR_COMPARE. -/
def launchAlone (s : State) (c : Nat) : State := if corePaired s c then s else packetLaunch s c
/-- PAIR_COMPARE: the leader's held packet leaves when the values agree; otherwise it is poisoned, or dropped where it has no payload. -/
def pairCompare (s : State) (c : Nat) (agree : Bool) : State :=
  if !isLeader s c then s
  else if agree then packetLaunch s c
  else
    match launchable s c with
    | none => s
    | some (i, p) =>
      let pg := healPage (c / 144)
      let s := raiseInt (errAt (bump s pg 0xC38) pg cPOISON 0xD0 (c % 144) (pairCrc p).toNat (coreTag s c)) pg 10
      let s := report s { page := pg.no, source := 0xD0, code := cPOISON, detail := c % 144, core := some c }
      let q := qe s c
      if payload p = 0 then setQe s c { q with inj := q.inj.eraseIdx i }
      else packetLaunch (setQe s c { q with inj := lmod (fun p => { p with poison := true }) q.inj i }) c
/-- What a core of a pair takes, its follower takes too; nothing leaves the follower's interface (R447). -/
def withFollower (s : State) (c : Nat) (f : State → Nat → State) : State :=
  let s := f s c
  if isLeader s c then
    let s := f s (c + 1)
    setQe s (c + 1) { qe s (c + 1) with inj := [] }
  else s

end Sys2Proof.Machine
end

