-- ==== Sys2Proof/Machine/HubBase.lean ====
section
/-! DEFINITION. What hub firmware does for every chapter: contexts, events to the host, the hub error log, notices, signpost entries, grants
(R309, R337, R504, R511, R582, R599, R628). -/
namespace Sys2Proof.Machine
open Sys2Proof

def aon : PageId := hubPage .aon
def hostPg : PageId := hubPage .host
def setHub (s : State) (h : Hub) : State := { s with hub := h }
def setHost (s : State) (h : HostIf) : State := { s with host := h }
def setFlash (s : State) (f : Flash) : State := { s with flash := f }
def setPins (s : State) (p : Pins) : State := { s with pins := p }
def setPower (s : State) (p : Power) : State := { s with power := p }
def setTwin (s : State) (t : Twin) : State := { s with twin := t }

/-! ### Contexts (R22, R504) -/

def ctx (s : State) (id : Nat) : Ctx := tget {} s.hub.ctxs id
def setCtx (s : State) (id : Nat) (x : Ctx) : State := setHub s { s.hub with ctxs := tput s.hub.ctxs id x }
def ctxTag (s : State) (id : Nat) : Nat := 64 * id + (ctx s id).gen
/-- PG_GEN of a core's CORE page names the context. -/
def boundTo (s : State) (id c : Nat) : Bool := let g := rd s (corePage .core c) 0xC; bit g 16 && g % 65536 / 64 == id
def ctxCores (s : State) (id : Nat) : List Nat := (List.range 1152).filter (fun c => boundTo s id c)
/-- The five pages of a core. -/
def coreBlks : List Blk := [.core, .flow, .spad, .qeng, .rout]
/-- PG_GEN of a core's pages written; its follower's, but for the router's, are written with them (R447). -/
def bindCore (s : State) (c tag : Nat) (bound : Bool) : State :=
  let w : Nat := tag % 65536 + (if bound then 65536 else 0)
  let s := coreBlks.foldl (fun s b => wr s (corePage b c) 0xC w) s
  if isLeader s c then [Blk.core, .flow, .spad, .qeng].foldl (fun s b => wr s (corePage b (c + 1)) 0xC w) s else s

/-! ### Events to the host (R582, R599, R609, R614) -/

/-- The words of a vector: those of the PF first, then four of each VF (R579, R580). -/
def vecKey (fn vector : Nat) : Nat := 4 * (if fn = 0 then vector else 2048 + 4 * (fn - 1) + vector)
/-- A vector raised: sent where the function has MSI-X enabled and the vector is not masked; a masked one pends. -/
def msix (s : State) (fn vector : Nat) : State :=
  let p := s.host.pcie
  if !tget false p.msixEn fn then s
  else if bit (tget 0 p.table (vecKey fn vector + 3)).toNat 0 then
    setHost s { s.host with pcie := { p with pba := tput p.pba (vecKey fn vector / 4) true } }
  else send (bump s hostPg 0xC10) (.msix fn vector)
/-- A bit of HOST_EVENT set, and its vector raised where the mask lets it. -/
def hostEvent (s : State) (b : Nat) : State :=
  let s := wr s hostPg 0x4C (rd s hostPg 0x4C ||| 2 ^ b)
  if bit (fd s hostPg fHOST_EVCFG_MASK) b then msix s 0 (fd s hostPg fHOST_EVCFG_VECTOR) else s

/-- A PLDM platform event held for polling: 0 a log entry, 1 a closure, 2 a change of grade; the oldest of more than 256 is dropped. -/
def pldmEvent (s : State) (kind v : Nat) : State :=
  let l := s.host.events ++ [(kind, v)]
  if l.length ≤ 256 then setHost s { s.host with events := l }
  else setHost (bump s (hubPage .mgmt) 0xC10) { s.host with events := l.drop (l.length - 256) }

/-! ### The hub error log (R516, R628) -/

def hubLog (s : State) (e : LogEnt) : State :=
  let n := s.heal.errSeq
  let l := s.heal.errlog ++ [(n, e)]
  let s := setHeal s { s.heal with errlog := l.drop (l.length - 4096), errSeq := (n + 1) % 2 ^ 32 }
  let s := if e.action = 4 ∨ e.code = cCLOSURE then setFlash s { s.flash with log := s.flash.log ++ [(n, e)] } else s
  let s := if e.action = 4 then pldmEvent s 0 n else s
  hostEvent s 2

/-- A record that is saved to boot flash whatever its code (R542). -/
def hubLogSaved (s : State) (e : LogEnt) : State :=
  let n := s.heal.errSeq
  let t := hubLog s e
  if e.action = 4 ∨ e.code = cCLOSURE then t else setFlash t { t.flash with log := t.flash.log ++ [(n, e)] }

/-! ### Incident notices (R511) -/

/-- The kinds of notice that are answered. -/
def answered (k : Nat) : Bool := k == 1 || k == 2 || k == 4 || k == 6 || k == 8 || k == 9
/-- A notice as a routed control packet: the flits of R511, two to a word. -/
def noticePkt (n : Notice) : Pkt :=
  let fl := [0, n.kind % 16 + 2 ^ 4 * (n.subj % 1024) + 2 ^ 14 * (n.cause % 256), n.job, n.mile] ++ ((if n.kind = 9 then n.moved.take 32 else []).flatMap (fun e => [e.1, e.2.1 + 2 ^ 4 * e.2.2]))
  { type := 14, vc := 1, ddev := n.dev, ddie := 8, dunit := 0xE0, code := 4, rlen := fl.length,
    data := (List.range ((fl.length + 1) / 2)).map (fun i => BitVec.ofNat 64 (fl.getD (2 * i) 0 % 2 ^ 32 + 2 ^ 32 * (fl.getD (2 * i + 1) 0 % 2 ^ 32))) }
/-- A notice leaves: its packet is routed, and the notice itself stands in the record of outputs. -/
def noticeSend (s : State) (n : Notice) : State := send (controlSend s (noticePkt n)) (.notice n)
def postNotice (s : State) (n : Notice) : State :=
  let s := if answered n.kind then setHub s { s.hub with awaits := s.hub.awaits ++ [{ n := n }] } else s
  noticeSend s n
def postAll (s : State) (devs : List Nat) (f : Nat → Notice) : State := devs.foldl (fun s d => postNotice s (f d)) s
/-- An answer has come: the first notice awaiting it is no longer resent. -/
def noticeAnswered (s : State) (dev : Nat) (f : Notice → Bool) : State :=
  match s.hub.awaits.findIdx? (fun a => a.n.dev == dev && f a.n) with
  | some i => setHub s { s.hub with awaits := s.hub.awaits.eraseIdx i }
  | none => s
/-- This module's device number, as the hub's SIGN page has it. -/
def thisDev (s : State) : Nat := fd s (hubPage .sign) fSIGN_SELF_DEVICE
/-- The contexts whose itinerary belongs to a job. -/
def jobCtxs (s : State) (job : Nat) : List Nat :=
  (s.hub.ctxs.filter (fun e => match e.2.itin with | some i => i.job == job | none => false)).map (·.1)
/-- ABORT to every module of the context's job, for its step (R512). -/
def postAbort (s : State) (id step code : Nat) : State :=
  match (ctx s id).itin with
  | none => s
  | some i => postAll s i.mods (fun d => { dev := d, kind := 4, subj := thisDev s, cause := code, job := i.job, mile := step })
/-- Milestone numbers are compared as differences modulo 2^32 (R23). -/
def mileLe (a b : Nat) : Bool := decide ((b + 2 ^ 32 - a) % 2 ^ 32 < 2 ^ 31)
/-- The last milestone whose step is over at the context's cores: a held one, or the last completed. -/
def Ctx.over (x : Ctx) : Nat := x.owed.getLast?.getD x.mile
/-- The step a context runs: the one posted, or else the next. -/
def stepOf (s : State) (id : Nat) : Nat := let x := ctx s id; x.posted.getD ((x.over + 1) % 2 ^ 32)
/-- ABORT of the job of every active context that runs a step. -/
def abortAll (s : State) (code : Nat) : State :=
  (s.hub.ctxs.map (·.1)).foldl (fun s id => if (ctx s id).st = 1 ∧ (ctx s id).posted.isSome then postAbort s id (stepOf s id) code else s) s

/-- ABORT of the step of every active context that has run a milestone not yet completed. -/
def abortMile (s : State) (m code : Nat) : State :=
  (s.hub.ctxs.map (·.1)).foldl (fun s id => if (ctx s id).st = 1 ∧ ((ctx s id).posted = some m ∨ (ctx s id).owed.contains m) then postAbort s id m code else s) s

/-! ### Signpost entries and grants as firmware writes them (R309, R311, R337) -/

/-- Hub control core 0's accesses to memory go by the injection epoch of its interface. -/
def hubEpoch (s : State) : Nat := injEpoch s 8 0xE0
/-- The base of a die's signpost table (R324). -/
def signBase (s : State) (d : Nat) : Nat := 2 ^ 25 * fd s (diePage .sign d) fSIGN_TBL_LO_BASE + 2 ^ 32 * fd s (diePage .sign d) fSIGN_TBL_HI_BASE
/-- The distinct table copies of the module. -/
def signBases (s : State) : List Nat := ((List.range 9).map (fun d => signBase s d)).eraseDups
def signWord (en dev die unit exit : Nat) : Nat := 1 + 2 * exit + 2 ^ 2 * dev + 2 ^ 12 * die + 2 ^ 16 * unit + 2 ^ 24 * en
/-- An entry word written into every copy. -/
def signPut (s : State) (en w : Nat) : State := (signBases s).foldl (fun s b => memWrite s (hubEpoch s) (b + 8 * en) (natLe 8 w) false) s
def signGet (s : State) (base en : Nat) : Nat := leNat (memRead s (hubEpoch s) (base + 8 * en) 8).1
/-- SIGN_INVAL with ALL on the hub's page. -/
def invalAll (s : State) : State := signpostInvalidate s 8 (2 ^ 31 + 2 ^ 27)
/-- The page a core image's register stands on. -/
def imgBlk (n : Nat) : Blk := [Blk.core, .flow, .spad, .qeng, .rout].getD n .core
/-- A grant entry as every controller holds it (R337). -/
def grantPut (s : State) (i tag mode : Nat) : State := { s with grant := tput s.grant i (BitVec.ofNat 32 (tag % 65536 + 65536 * (mode % 4))) }
/-- The grant entries of a context, by its ID. -/
def grantsOf (s : State) (id : Nat) : List Nat := (s.grant.filter (fun e => e.2.toNat % 65536 / 64 == id && bits e.2.toNat 16 2 != 0)).map (·.1)

/-- CLUS_CORE_PWR's target of a core (R554). -/
def coreTarget (s : State) (c : Nat) : Nat := fd s (clusPage (clusterOf c)) (fCLUS_CORE_PWR_T.sub (clusterSlot c))
def setCstate (s : State) (c v : Nat) : State := fdSet s (clusPage (clusterOf c)) (fCLUS_STATUS_CSTATE.sub (clusterSlot c)) v
def setTarget (s : State) (c v : Nat) : State := fdSet s (clusPage (clusterOf c)) (fCLUS_CORE_PWR_T.sub (clusterSlot c)) v

end Sys2Proof.Machine
end

