-- ==== Sys2Proof/Machine/TwinOps.lean ====
section
/-! DEFINITION. The twin over the causeway (R404–R438). Twin-wide events are captured on the page of CW0 (log entry 33). -/
namespace Sys2Proof.Machine
open Sys2Proof

def pst (s : State) : Nat := fd s twinPage fCAUSE_STATE_PSTATE
def setPst (s : State) (v : Nat) : State := fdSet s twinPage fCAUSE_STATE_PSTATE v
/-- MODE in force: INDEPENDENT in every PSTATE but PAIRED (R412). -/
def twinMode (s : State) : Nat := if pst s = 3 then s.twin.mode else 0
/-- CW ports in UP_FULL or UP_HALF. -/
def cwUp (s : State) : List Nat := (List.range 4).filter (fun w => isUp s (36 + w))
/-- LIVE of CAUSE_STATE: a bit per CW port. -/
def cwMask (s : State) : Nat := (cwUp s).foldl (fun m w => m + 2 ^ w) 0
/-- The mode a step's completion is judged by: the one in force, or that of the pair an ISOLATED module was in (R427). -/
def pairMode (s : State) : Nat := if pst s = 3 ∨ (pst s = 4 ∧ s.twin.former = 3) then s.twin.mode else 0
def thisSide (s : State) : Nat := fd s twinPage fCAUSE_PAIR_SIDE
def partner (s : State) : Nat := fd s twinPage fCAUSE_PAIR_PARTNER
/-- The live causeway port that the n-th piece of the traffic to the partner takes (R407). -/
def spread (s : State) (n : Nat) : Option Nat := (cwLive s)[n % (cwLive s).length]?
/-- A CTRL packet of an operation to the partner: 1 BIND, 2 ATTACH, 3 DETACH, 4 UNBIND, 5 rejoin, 6 milestone held, 7 agreed, 8 refused. -/
def sendCtrl (s : State) (op arg word : Nat) : State :=
  match (cwUp s).head? with
  | some w => twinSend s w (.ctrl op arg word)
  | none => s

/-- A packet of this module sent to the partner by a CW port: counted in its XEPOCH as it leaves (R393). -/
def cwSend (s : State) (k : Nat) (p : Pkt) : State :=
  let d := portDie k
  let b := injX s d
  let s := xAdd s d b true
  setPort s k { port s k with tx := (port s k).tx ++ [{ p with xepoch := b, cls := 0 }] }

/-! ### Memory requests from the partner (R406) -/

def inShadow (s : State) (a n : Nat) : Bool :=
  let base := fd s twinPage fCAUSE_SHADOW_BASE * 2 ^ 24
  decide (base ≤ a) && decide (a + n ≤ base + fd s twinPage fCAUSE_SHSIZE_BLOCKS * 2 ^ 24)
/-- A request or record refused (R406, R419). -/
def twinRefused (s : State) (w a tag : Nat) : State :=
  raiseInt (errAt (bump s (cwPage w) 0xD30) (cwPage w) cDENIED 0xC3 (36 + w) a tag) (cwPage w) 19
/-- CAUSEWAY_MEMORY_REQUEST. -/
def cwRequest (s : State) (w : Nat) (p : Pkt) : State :=
  let k := 36 + w
  let d := portDie k
  if !(p.type == 8 || p.type == 10) then s
  else
    let s := rxDrop s k p
    if xRetired s d p.xepoch then xepDrop s d k p.xepoch false p else
    let s := xAdd s d p.xepoch false
    if pst s ≠ 0 ∧ inShadow s p.addr p.rlen then deviceRoute.sendFromPort s d k { p with auth := 2 }
    else
      let s := twinRefused s w p.addr p.ctag
      match refusal p cDENIED with
      | some a => cwSend s k a
      | none => s

/-! ### Takeover (R428, R429) -/

/-- The device that a signpost update is sent for rewrites its tables. -/
def sendUpdate (s : State) (target base ignore old new l : Nat) : State :=
  let p : Pkt := { type := 14, vc := 1, ddev := target, sdev := thisDev s, sdie := 8, sunit := 0xE0, code := 5, rlen := 4, data := [BitVec.ofNat 64 (2 ^ 32 * (base + 2 ^ 22 * ignore)), BitVec.ofNat 64 (old + 2 ^ 10 * new + 2 ^ 32 * l)] }
  send (controlSend s { p with ddie := 8, dunit := 0xE0 }) (.ctl p)
/-- The port die of the first live port in the PRIM set of a device. -/
def exitFor (s : State) (dev : Nat) : Nat :=
  match liveOf s (bits (routeEnt s 9 (injX s 9) dev) 0 40) with
  | k :: _ => portDie k - 9
  | [] => 0
/-- Entries of a carrying plan written, and updates sent, for each module of a job. -/
def claimEns (s : State) (i : Itin) (old new l : Nat) : State :=
  let s := i.carry.foldl (fun s p => signPut s p.en (signWord p.en new (p.core / 144) (p.core % 144) (if new = thisDev s then 0 else exitFor s new))) s
  let s := invalAll s
  i.mods.foldl (fun s m => if m = old ∨ m = thisDev s then s else i.carry.foldl (fun s p => sendUpdate s m p.en 0 old new l) s) s

/-- The placement of a context's own ENs becomes that of its carrying plan, or its own again; a plan that leaves them where they are names none
(R430, R434). -/
def swapPlan (s : State) (id : Nat) (i : Itin) : State :=
  if i.own.isEmpty then s
  else
    let s := i.place.foldl (fun s p => wr (bindCore s p.core 0 false) (rPage p.core) fROUT_EN_EN.off 0x3FFFFF) s
    let s := i.own.foldl (fun s p => wr (bindCore (signPut s p.en (signWord p.en (thisDev s) (p.core / 144) (p.core % 144) 0)) p.core (ctxTag s id) true) (rPage p.core) fROUT_EN_EN.off p.en) s
    setCtx (invalAll s) id { ctx s id with itin := some { i with place := i.own, own := i.place } }

/-- A record written to the shadow by the port interface, or dropped (R336, R419). -/
def applyRec (s : State) (w : Nat) (r : JRec) : State :=
  let e := (tget 0 s.twin.smap (r.addr / 2 ^ 24 % 65536)).toNat
  if !bit e 16 then twinRefused s w r.addr 0
  else
    let a := e % 65536 * 2 ^ 24 + r.addr % 2 ^ 24
    let b := injEpoch s (portDie (36 + w)) (portUnit (36 + w))
    let x := phys s b a
    let g := (place s b a).1
    let p : Pkt := { type := 10, auth := 2, sepoch := b, sdie := portDie (36 + w), sunit := portUnit (36 + w), addr := a, rlen := 8 * r.data.length }
    let code := reqCode s g p
    if code ≠ cOK then reqRefused s g p code
    else
      let bs := wordBytes r.data
      let s := bump (settle s g (blocksOf x bs.length)) (memcPage (g / 32)) 0xC08
      let s := (partBlocks x bs.length).foldl (blockRead g a 0 false) s
      mirror (markDirect (memWriteAt s x bs r.poison) g p) g x bs
/-- Records held before the SSEQ `exp`, oldest first. -/
def inOrder (x : Stream) : List JRec :=
  sortBy (fun a b => decide ((x.exp + 2 ^ 32 - b.sseq) % 2 ^ 32 ≤ (x.exp + 2 ^ 32 - a.sseq) % 2 ^ 32))
    (x.held.filter (fun r => decide ((x.exp + 2 ^ 32 - r.sseq) % 2 ^ 32 ≤ 1024) && r.sseq != x.exp))
/-- The records up to the last mark that meets a test, and those after it. -/
def uptoMark (f : Nat → Bool) (l : List JRec) : List JRec × List JRec :=
  match (List.range l.length).reverse.find? (fun i => match l[i]? with | some r => r.mark.any f | none => false) with
  | some i => (l.take (i + 1), l.drop (i + 1))
  | none => ([], l)
/-- A milestone that every stream has reached. -/
def allStreams (s : State) (f : Stream → List Nat) (m : Nat) : Bool := (List.range 512).all (fun g => (f (stream s g)).contains m)
/-- SHADOW_APPLY of a stream: the records before the last mark of a milestone the module holds (log entry 137). -/
def shadowApply (s : State) (g : Nat) : State :=
  let x := stream s g
  let now := (uptoMark (fun m => mileLe m (fd s twinPage fCAUSE_HELD_MILE)) (inOrder x)).1
  let w := g % 4
  let s := now.foldl (fun s r => if r.mark.isSome || r.copy then s else applyRec s w r) s
  let ms := now.filterMap (·.mark)
  let s := setStream s g { x with held := x.held.filter (fun r => !now.contains r), applied := x.applied ++ ms }
  ms.foldl (fun s m =>
    if allStreams s (·.applied) m then
      let s := fdSet s twinPage fCAUSE_APPLIED_MILE m
      (List.range 512).foldl (fun s g => setStream s g { stream s g with applied := (stream s g).applied.erase m }) s
    else s) s

/-- A partner lost in WARM mode is carried (R428): held records through L applied and later ones discarded, LOST sent, the carrying plans put in force. -/
def takeover (s : State) : State :=
  let old := partner s
  let l := fd s twinPage fCAUSE_HELD_MILE
  let s := setPst s 5
  let ids := (s.hub.ctxs.filter (fun e => e.2.st == 1 && e.2.itin.isSome)).map (·.1)
  let s := ids.foldl (fun s id => match (ctx s id).itin with
    | some i => postAll s (i.mods.filter (· != old)) (fun d => { dev := d, kind := 1, subj := old, cause := cTIMEOUT, job := i.job, mile := l })
    | none => s) s
  let s := (List.range 512).foldl (fun s g => shadowApply s g) s
  let s := (List.range 512).foldl (fun s g => setStream s g { stream s g with held := [], marks := [] }) s
  let s := fdSet s twinPage fCAUSE_APPLIED_MILE l
  ids.foldl (fun s id => match (ctx s id).itin with
    | none => s
    | some i =>
      let s := swapPlan (claimEns s i old (thisDev s) l) id i
      let pid := i.ptag / 64
      let gen := (i.ptag % 64 + 1) % 64
      let s := i.carry.foldl (fun s p => wr (bindCore s p.core (64 * pid + gen) true) (rPage p.core) fROUT_EN_EN.off p.en) s
      if i.carry.isEmpty then s else setCtx s pid { st := 1, gen := gen, itin := some { i with place := i.carry, carry := [], own := [] }, mile := l, top := l, carried := true }) s

/-- The partner is declared LOST (R423, R425, R428). -/
def declareLost (s : State) : State :=
  let s := raiseInt (errAt s twinPage cTIMEOUT 0xC0 (cwMask s) 0 0) twinPage 16
  let t := s.twin
  let p := pst s
  let s := setTwin s { t with query := none, missed := 0, rejoin := false }
  let warm := t.mode == 1 && (p == 3 || (p == 4 && t.former == 3))
  if warm then takeover s
  else if (p = 7 ∨ (p = 4 ∧ t.former = 7)) ∧ t.role = 5 then setPst s 5
  else
    let old := partner s
    let s := if t.mode = 2 then (s.hub.ctxs.map (·.1)).foldl (fun s id => match (ctx s id).itin with
      | some i => postAll s ((i.mods ++ i.rep).filter (· != old)) (fun d => { dev := d, kind := 1, subj := old, cause := cTIMEOUT, job := i.job, mile := 2 ^ 32 - 1 })
      | none => s) s else s
    setPst s 1

/-! ### Heartbeats (R424–R427) -/

def fwAlive (s : State) : Bool :=
  match s.twin.hbAt with
  | some t => decide (s.now ≤ t + msTicks (fd s twinPage fCAUSE_HB_FWWIN))
  | none => false
/-- HEARTBEAT_SEND by the twin logic of a port die. -/
def heartbeatSend (s : State) (pd : Nat) : State :=
  if pst s = 0 ∨ s.twin.fenced then s
  else [2 * pd, 2 * pd + 1].foldl (fun s w =>
    if !live s (36 + w) then s
    else twinSend (bump s (cwPage w) 0xD00) w (.heartbeat (pst s) (twinMode s) (cwMask s) (fwAlive s) (fd s twinPage fCAUSE_HELD_MILE) (fd s twinPage fCAUSE_SENT_MILE))) s
/-- HEARTBEAT_RECEIVE: the partner's PSTATE, liveness and the milestone it holds. -/
def heartbeatIn (s : State) (pstate held : Nat) (alive : Bool) : State :=
  if pst s = 0 then s
  else
    let s := setTwin s { s.twin with partnerP := pstate, missed := if alive then 0 else s.twin.missed }
    fdSet s twinPage fCAUSE_ACKED_MILE held
/-- HEARTBEAT_PERIOD_MISSED: `quiet` has the ports on which no heartbeat came. -/
def periodMissed (s : State) (quiet : Nat) : State :=
  if pst s = 0 then s
  else
    let s := (List.range 4).foldl (fun s w => if bit quiet w then bump s (cwPage w) 0xD08 else s) s
    let n := s.twin.missed + 1
    let s := setTwin s { s.twin with missed := n }
    let p := pst s
    if n < fd s twinPage fCAUSE_HB_MISSES || !(p == 2 || p == 3 || p == 4 || p == 7) || s.twin.query.isSome then s
    else if !(cwUp s).isEmpty then
      declareLost ((cwUp s).foldl (fun s w => twinSend s w (.fence (thisDev s))) s)
    else postNotice (setTwin s { s.twin with query := some s.now }) { dev := partner s, kind := 2 }
/-- QUERY_TIMEOUT: no answer has come within QTO; a loss is declared only in PAIRED, ATTACHING, REJOINING or ISOLATED (R425). -/
def queryTimeout (s : State) : State :=
  let p := pst s
  if s.twin.query.isSome && (p == 2 || p == 3 || p == 4 || p == 7) then declareLost s else s
/-- The partner answered the fabric query (R427). -/
def isolated (s : State) : State :=
  if s.twin.query.isNone then s
  else
    let s := setTwin s { s.twin with query := none, missed := 0, former := if pst s = 4 then s.twin.former else pst s }
    raiseInt (errAt (setPst s 4) twinPage cCLOSED 0xC1 (cwMask s) 0 0) twinPage 17
/-- FENCE (R426). -/
def fenced (s : State) : State :=
  raiseInt (setPst (setTwin s { s.twin with fenced := true, query := none }) 6) twinPage 20
/-- Journal and digest exchange stop, the pair is BOUND (R409). -/
def detachNow (s : State) : State :=
  let s := fdSet s twinPage fCAUSE_JCTL_JEN 0
  setPst (setTwin s { s.twin with mode := 0, ask := 0, detach := false, former := 0, role := 0, query := none, own := [], peer := [], agreed := none, differ := none, replay := false }) 1
/-- CWHOLD_EXPIRY: both modules are detached, and the host is told. -/
def cwHold (s : State) : State :=
  if pst s ≠ 4 ∨ !(cwUp s).isEmpty then s
  else hubLog (detachNow s) { time := s.now, code := cCLOSED, source := 0xC1, type := 0x31, inst := 0, detail := 0, die := 9 }

/-! ### Binding and modes (R409) -/

/-- The group that holds the journal's bands. -/
def group61Hashed (s : State) : Bool := !pinned s 0 61 && !pinned s 1 61
/-- BIND at this module: `side`, `named`, `ans` are what the partner reports: its side, the partner it names, its answer. -/
def twinBind (s : State) (dev side named : Nat) (ans : PeerAns) : State × Nat :=
  if ans = .refuses then (s, cDENIED)
  else if side = thisSide s ∨ named ≠ thisDev s ∨ dev > 1023 ∨ !group61Hashed s ∨ ans = .pinned then (s, cRANGE)
  else if pst s ≠ 0 ∨ (cwUp s).length < 2 then (s, cNOT_READY)
  else
    let s := fdSet (fdSet s twinPage fCAUSE_PAIR_PARTNER dev) twinPage fCAUSE_PAIR_BOUND 1
    let s := setFlash s { s.flash with bind := some (dev, thisSide s), bindSerial := freeVal s }
    (sendCtrl (setPst (setTwin (freeUsed s) { s.twin with mode := 0 }) 1) 1 (thisDev s) (thisSide s), cOK)
def gradeOf (s : State) : Nat := fd s aon fAON_READY_GRADE
/-- Home copies of cores' class W regions sent to the partner's shadow window (R420). -/
def homesOut (s : State) (cs : List Nat) : State :=
  let l := cwLive s
  if l.isEmpty then s
  else cs.foldl (fun s c => (List.range 128).foldl (fun s r =>
    if !(regionF s c r fSPAD_REGION_HOMEV && regionF s c r fSPAD_REGION_CLASS) then s
    else
      let home := fd s (spadPage c) (fSPAD_REGION_HOME.at r) * 65536
      let base := Config.shadowHome home % 2 ^ 24 * 65536
      (List.range 128).foldl (fun s i =>
        let b := memReadSpan s (hubEpoch s) (home + 512 * i) 512
        cwSend s (36 + l.getD (i % l.length) 0)
          { type := 10, vc := 3, ddev := partner s, sdev := thisDev s, sdie := 8, sunit := 0xE0, auth := 2, addr := base + 512 * i, rlen := 512, data := bytesWords 64 b.1, poison := b.2 }) s) s) s
/-- The cores bound to a context. -/
def boundCores (s : State) : List Nat := (List.range 1152).filter (fun c => bit (rd s (corePage .core c) 0xC) 16)
/-- RESYNC begins: the journal is turned on and the blocks are counted; a partner that has lost its memory gets the home copies too (R433). -/
def resync (s : State) : State :=
  let n := ((List.range 2048).map (fun w => countp (fun i => bit (tget 0 s.twin.jmap w).toNat i) (List.range 32))).sum
  let s := wr (wr (fdSet s twinPage fCAUSE_JCTL_JEN 1) twinPage 0x140 n) twinPage 0x13C 0
  let s := setTwin s { s.twin with copied := [], rsync := true }
  if s.twin.peerLost then setTwin (homesOut s (boundCores s)) { s.twin with peerLost := false } else s
/-- ATTACH begins, at either module: toward WARM its home copies go to the partner's shadow (R409, R420). -/
def attaching (s : State) (mode : Nat) : State :=
  let s := if mode = 1 then homesOut s (boundCores s) else s
  setPst (setTwin s { s.twin with ask := mode, rsync := false }) 2
def twinAttach (s : State) (mode : Nat) (agree : Bool) : State × Nat :=
  if mode ≠ 1 ∧ mode ≠ 2 then (s, cRANGE)
  else if pst s ≠ 1 ∨ gradeOf s < 2 ∨ !agree then
    (if pst s = 5 ∧ s.twin.rejoin then (resync (setPst (setTwin s { s.twin with role := 5, rejoin := false }) 7), cOK) else (s, cNOT_READY))
  else
    (sendCtrl (attaching s mode) 2 mode 0, cOK)
def twinDetach (s : State) (agree : Bool) : State × Nat :=
  if !(pst s == 3 || pst s == 2 || pst s == 4) || !agree then (s, cNOT_READY)
  else (sendCtrl (setTwin s { s.twin with detach := true }) 3 0 0, cOK)
def unbindNow (s : State) : State :=
  let s := wr (wr s twinPage 0x124 0) twinPage 0x128 0
  let s := setTwin s { s.twin with jmap := [], mode := 0, ask := 0, detach := false, partnerP := 0, query := none, missed := 0, former := 0, role := 0, rsync := false, rejoin := false }
  let s := setFlash s { s.flash with bind := none, bindSerial := 0 }
  setPst (fdSet (fdSet s twinPage fCAUSE_PAIR_PARTNER 0) twinPage fCAUSE_PAIR_BOUND 0) 0
def twinUnbind (s : State) (agree : Bool) : State × Nat :=
  if !(pst s == 1 || pst s == 4) || !agree then (s, cNOT_READY) else (sendCtrl (unbindNow s) 4 0 0, cOK)
/-- What a milestone changes (R409, R412): a DETACH asked for, or a mode whose resynchronisation is complete; HOT has no journal (R423). -/
def twinMilestone (s : State) : State :=
  if s.twin.detach then detachNow s
  else if pst s = 2 ∧ s.twin.rsync ∧ rd s twinPage 0x13C = rd s twinPage 0x140 then
    let s := setPst (setTwin s { s.twin with mode := s.twin.ask, rsync := false }) 3
    if s.twin.mode = 2 then fdSet s twinPage fCAUSE_JCTL_JEN 0 else s
  else s
/-- TWIN_CTRL: the partner's operation reaches this module, which takes the same part in it and answers. -/
def twinCtrl (s : State) (op arg word : Nat) : State :=
  let reply := fun (r : State × Nat) => sendCtrl r.1 (if r.2 = cOK then 7 else 8) op r.2
  match op with
  | 1 =>
    if pst s ≠ 0 then reply (s, cDENIED)
    else if word % 2 = thisSide s ∨ !group61Hashed s then reply (s, cRANGE)
    else if (cwUp s).length < 2 then reply (s, cNOT_READY)
    else
      let s := fdSet (fdSet s twinPage fCAUSE_PAIR_PARTNER (arg % 1024)) twinPage fCAUSE_PAIR_BOUND 1
      reply (freeUsed (setPst (setFlash s { s.flash with bind := some (arg % 1024, thisSide s), bindSerial := freeVal s }) 1), cOK)
  | 2 => if pst s = 1 then reply (attaching s arg, cOK) else reply (s, cNOT_READY)
  | 3 => if pst s == 3 || pst s == 2 || pst s == 4 then reply (setTwin s { s.twin with detach := true }, cOK) else reply (s, cNOT_READY)
  | 4 => if pst s == 1 || pst s == 4 then reply (unbindNow s, cOK) else reply (s, cNOT_READY)
  | 5 =>
    if pst s ≠ 5 then s
    else
      let s := setTwin s { s.twin with rejoin := true, peerLost := arg = 0 }
      if fb s twinPage fCAUSE_JCTL_AUTO then resync (setPst (setTwin s { s.twin with role := 5, rejoin := false }) 7) else s
  | 6 => fdSet s twinPage fCAUSE_ACKED_MILE arg
  | _ => s
/-- REJOIN_REQUEST; the carrier is told whether this module's memory survived (R433). -/
def rejoinRequest (s : State) : State :=
  if !(pst s == 1 || pst s == 6) || s.twin.partnerP != 5 then s
  else
    let s := setPst s 6
    if gradeOf s ≥ 2 then sendCtrl s 5 (b2n s.pins.memKept) 0 else s
/-- RESYNC: the journal is turned on and the blocks to copy are counted. A SURRENDERED module whose partner has begun becomes REJOINING. In HOT
the continuing module copies to its stopped twin, which has nothing that the other lacks (R423, R433). -/
def resyncStart (s : State) : State :=
  match pst s with
  | 2 => resync s
  | 6 => if s.twin.partnerP = 7 then resync (setPst (setTwin s { s.twin with role := 6 }) 7) else s
  | 7 =>
    if s.twin.rsync ∨ s.twin.mode ≠ 2 then s
    else if s.twin.role = 3 then resync s
    else setTwin (wr (wr (fdSet s twinPage fCAUSE_JCTL_JEN 1) twinPage 0x140 0) twinPage 0x13C 0) { s.twin with rsync := true }
  | _ => s
/-- RESYNC_READ of bytes of one slice. -/
def resyncRead (s : State) (g a n : Nat) : State :=
  if !(pst s == 2 || pst s == 7) || !journalled s a || n = 0 || badSpan a n || ringFull s g then s
  else
    let s := memServe s (hubEpoch s) a n 0
    let r := memRead s (hubEpoch s) a n
    let s := journalAdd s g { sseq := 0, addr := a, data := bytesWords (n / 8) r.1, poison := r.2, copy := true }
    let k := a / 2 ^ 24
    let m := tget 0 s.twin.copied k + n
    let s := setTwin s { s.twin with copied := tput s.twin.copied k m }
    if m = 2 ^ 24 then wr s twinPage 0x13C (rd s twinPage 0x13C + 1) else s
/-- HAND_BACK at milestone `n` (R434). -/
def handBack (s : State) (n : Nat) : State :=
  if pst s ≠ 7 ∨ !s.twin.rsync ∨ fd s twinPage fCAUSE_HELD_MILE ≠ n ∨ fd s twinPage fCAUSE_ACKED_MILE ≠ n ∨ rd s twinPage 0x13C ≠ rd s twinPage 0x140 then s
  else
    let old := thisDev s
    let s := if s.twin.role ≠ 5 then s else
      (s.hub.ctxs.map (·.1)).foldl (fun s id => match (ctx s id).itin with
        | none => s
        | some i =>
          let s := swapPlan (claimEns s i old (partner s) n) id i
          let s := i.carry.foldl (fun s p => wr (bindCore s p.core 0 false) (rPage p.core) fROUT_EN_EN.off 0x3FFFFF) s
          if i.carry.isEmpty then s else setCtx s (i.ptag / 64) { gen := (ctx s (i.ptag / 64)).gen }) s
    let s := if s.twin.mode = 2 then fdSet s twinPage fCAUSE_JCTL_JEN 0 else s
    setPst (setTwin s { s.twin with role := 0, rsync := false }) 3

/-! ### The journal (R414–R419) -/

/-- JOURNAL_MARK. -/
def journalMark (s : State) (m : Nat) : State :=
  if !fb s twinPage fCAUSE_JCTL_JEN || (List.range 512).any (fun g => ringFull s g) then s
  else fdSet ((List.range 512).foldl (fun s g => journalAdd s g { sseq := 0, mark := some (m % 2 ^ 32) }) (setTwin s { s.twin with marked := some m })) twinPage fCAUSE_SENT_MILE m
/-- The SSEQ after the last held without a gap, with the milestones passed. -/
def advance : Nat → Stream → Stream
  | 0, x => x
  | n + 1, x =>
    match x.held.find? (fun r => r.sseq == x.exp) with
    | none => x
    | some r => advance n { x with exp := (x.exp + 1) % 2 ^ 32, marks := x.marks ++ r.mark.toList }
/-- Every stream holds a milestone (R418, R514). -/
def heldAll (s : State) (ms : List Nat) : State :=
  ms.foldl (fun s m =>
    if allStreams s (·.marks) m then
      let s := fdSet s twinPage fCAUSE_HELD_MILE m
      let s := (List.range 512).foldl (fun s g => setStream s g { stream s g with marks := (stream s g).marks.erase m }) s
      sendCtrl s 6 m 0
    else s) s
/-- JREC_RECEIVE and JMARK_RECEIVE on a port: the record takes the slot SSEQ mod 1,024 of its stream's receive ring (R414, R417). -/
def journalIn (s : State) (w g : Nat) (r : JRec) : State :=
  if pst s = 0 then s
  else
    let s := bump s (cwPage w) 0xD18
    let x := stream s g
    let old := decide (2 ^ 31 ≤ (r.sseq + 2 ^ 32 - x.exp) % 2 ^ 32)
    if old || x.held.any (fun h => h.sseq == r.sseq) then setStream (bump s (cwPage w) 0xD28) g { x with due := true }
    else
      let s := if r.copy ∧ r.mark.isNone then applyRec s w r else s
      let y := advance 1025 { x with held := x.held.filter (fun h => h.sseq % 1024 != r.sseq % 1024) ++ [r], due := true }
      heldAll (setStream s g y) (y.marks.drop x.marks.length)
/-- JACK_SEND: up to 64 streams in one packet; these packets are spread over the live ports by their first stream (R407, R417). -/
def jackSend (s : State) : State :=
  let gs := ((List.range 512).filter (fun g => (stream s g).due)).take 64
  match spread s (gs.headD 0) with
  | none => s
  | some w =>
    if gs.isEmpty then s
    else
      let es := gs.map (fun g => (g, ((stream s g).exp + 2 ^ 32 - 1) % 2 ^ 32))
      twinSend (gs.foldl (fun s g => setStream s g { stream s g with due := false }) s) w (.jack es)
/-- JACK_RECEIVE. -/
def jackIn (s : State) (es : List (Nat × Nat)) : State :=
  es.foldl (fun s e =>
    let x := stream s e.1
    drainWait (setStream s e.1 { x with sent := x.sent.filter (fun r => decide (2 ^ 31 ≤ (e.2 + 2 ^ 32 - r.sseq) % 2 ^ 32)) }) e.1) s
/-- JOURNAL_RESEND of a stream; the streams of a die in reset pause (R435). -/
def journalResend (s : State) (g : Nat) : State :=
  if pst s = 4 ∨ s.hub.dieRst.any (fun e => e.1 == g / 64) then s
  else
    let l := cwLive s
    match l[g % l.length]? with
    | none => s
    | some w => (stream s g).sent.foldl (fun s r => sendJ (bump s (cwPage w) 0xD20) g r) s

/-! ### HOT mode (R422) -/

/-- Digests of a milestone compared once both are known. -/
def compareDigests (s : State) (m : Nat) : State :=
  match (s.twin.own.find? (fun e => e.1 == m)).map (·.2), (s.twin.peer.find? (fun e => e.1 == m)).map (·.2) with
  | some a, some b =>
    if twinMode s ≠ 2 then s
    else if a = b then setTwin s { s.twin with agreed := some m, own := tdel s.twin.own m, peer := tdel s.twin.peer m, replay := false }
    else
      let s := raiseInt (errAt (bump s twinPage 0xD38) twinPage cRANGE 0xC2 (b2n s.twin.replay) m 0) twinPage 18
      let again := s.twin.replay
      let s := setTwin s { s.twin with peer := [], own := [], differ := some m, replay := true }
      let s := (List.range 16).foldl (fun s i => (spread s i).elim s (fun w =>
        twinSend s w (.pcdig (i / 2) (i % 2) m ((List.range 72).map (fun k => (tget (0, 0) (net s (i / 2)).digests (72 * (i % 2) + k)).2))))) s
      abortMile s m (if again then cPOISON else cRANGE)
  | _, _ => s
/-- HOT_DIGEST. -/
def hotDigest (s : State) (m : Nat) (d : DWord) : State := compareDigests (setTwin s { s.twin with peer := tput s.twin.peer m d }) m
def sendDigest (s : State) (m : Nat) (d : DWord) : State := (spread s m).elim s (fun w => twinSend s w (.digest m d))
/-- A digest of the module's own has been formed for a milestone, or the milestone has failed. -/
def digestFormed (s : State) (m : Nat) : Bool :=
  s.twin.own.any (fun e => e.1 == m) || s.twin.differ == some m || (match s.twin.agreed with | some a => mileLe m a | none => false)
/-- The module's own digest is formed (R422, R452); while the module is ISOLATED its exchange waits (R427). -/
def ownDigest (s : State) (m : Nat) (d : DWord) : State :=
  if pairMode s ≠ 2 then s
  else
    let s := setTwin s { s.twin with own := tput s.twin.own m d }
    if pst s = 3 then compareDigests (sendDigest s m d) m else s
/-- A causeway port has come UP while ISOLATED: the former PSTATE returns and digests that waited are sent (R427). -/
def cwReturned (s : State) : State :=
  if pst s = 4 ∧ !(cwUp s).isEmpty then
    let s := setPst s s.twin.former
    if twinMode s = 2 then s.twin.own.foldl (fun s e => compareDigests (sendDigest s e.1 e.2) e.1) s else s
  else s
/-- A core is sent to roadworks, with the log entry of ACTION 4. -/
def sendToRoadworks (s : State) (c : Nat) : State :=
  let s := setLadder s c { ladder s c with rwpend := true }
  logAdd s (c / 144) { time := s.now, code := cOK, source := 0xD1, type := 0x28, inst := c % 144, detail := 0, tag := coreTag s c, action := 4 }
/-- PCDIG_RECEIVE: every core whose digest differs goes to roadworks. -/
def pcdigIn (s : State) (die part m : Nat) (ds : List DWord) : State :=
  (List.range 72).foldl (fun s i =>
    let k := 72 * part + i
    match ds[i]? with
    | some v => let own := tget (0, 0) (net s die).digests k; if own.1 = m ∧ own.2 ≠ v then sendToRoadworks s (144 * die + k) else s
    | none => s) s

/-! ### Signpost updates (R429) -/

/-- The half-words of a control packet's payload: its flits. -/
def flit (p : Pkt) (i : Nat) : Nat := (p.data.getD (i / 2) 0).toNat / 2 ^ (32 * (i % 2)) % 2 ^ 32
/-- Entries of a range that name a device are rewritten to name another. -/
def rewriteRange (s : State) (base ignore old new : Nat) : State :=
  let lo := base / 2 ^ ignore * 2 ^ ignore
  (signBases s).foldl (fun s b => (List.range (2 ^ ignore)).foldl (fun s i =>
    let en := lo + i
    let w := signGet s b en
    if bit w 0 ∧ bits w 2 10 = old then memWrite s (hubEpoch s) (b + 8 * en) (natLe 8 (signWord en new (bits w 12 4) (bits w 16 8) (exitFor s new))) false else s) s) s
/-- SIGNPOST_UPDATE at hub control core 0; it is acknowledged once its entries are invalid in every cache; an update of zeros is such an
acknowledgement. -/
def signpostUpdate (s : State) (p : Pkt) : State :=
  if p.code ≠ 5 then s
  else
    let s := takeEnd s 8 p
    let a := flit p 1
    let base := a % 2 ^ 22
    let ignore := min (bits a 22 5) 22
    let old := flit p 2 % 2 ^ 10
    let new := bits (flit p 2) 10 10
    if a % 2 ^ 27 = 0 ∧ old = 0 ∧ new = 0 then s
    else
      let s := rewriteRange s base ignore old new
      { s with inval := s.inval ++ [{ die := 8, base := base, ignore := ignore, since := s.now, ans := some p.sdev }] }

end Sys2Proof.Machine
end

