-- ==== Sys2Proof/Machine/RingOps.lean ====
section
/-! DEFINITION. Command rings: entries, starting, completion records (R583–R589). -/
namespace Sys2Proof.Machine
open Sys2Proof

def ring (s : State) (r : Nat) : Ring := tget {} s.host.rings r
def setRing (s : State) (r : Nat) (x : Ring) : State := setHost s { s.host with rings := tput s.host.rings r x }
/-- The function a ring belongs to: 0 the PF, n + 1 VF n. -/
def ringFn (r : Nat) : Nat := if r < 64 then 0 else r - 63
/-- Bytes `i` to `i + n - 1` of a command entry, little-endian (R586). -/
def entBytes (e i n : Nat) : Nat := e / 2 ^ (8 * i) % 2 ^ (8 * n)
def entOp (e : Nat) : Nat := entBytes e 0 1
def entFlags (e : Nat) : Nat := entBytes e 1 1
def entCid (e : Nat) : Nat := entBytes e 2 2
def entTag (e : Nat) : Nat := entBytes e 4 2

/-- The number under which the staging register and latches of VF n's BAR0 stand, beyond every page's (R40, R583). -/
def vfPage (n : Nat) : Nat := 32768 + n

/-- A completion record (R585, R587); none is written for a ring that a reset has disabled (R595). -/
def complete (s : State) (r cid flags code tag result : Nat) : State :=
  let x := ring s r
  if !x.en then s
  else
    let n := 2 ^ x.logsize
    let phase := b2n ((x.cplw / n) % 2 == 0)
    let s := send s (.record r (x.cplw % n) cid code phase x.head tag result)
    let s := setRing s r { x with cplw := (x.cplw + 1) % 65536, pend := x.pend - 1 }
    let s := if code = cOK then s else bump s hostPg 0xC08
    let s := if code = cDENIED ∧ 0 < ringFn r then bump s (hubPage .auth) 0xC00 else s
    if bit flags 0 then msix s (ringFn r) x.vector else s
/-- The record of a command that ends as soon as it has started. -/
def finish (s : State) (k : HCmd) (code tag result : Nat) : State := complete s k.ring (entCid k.entry) (entFlags k.entry) code tag result

/-- Commands that wait for no other command of their context (R588). -/
def waitsForNone (op : Nat) : Bool := op == 0x04 || op == 0x05 || op == 0x06
/-- The command of a ring that starts next, where its opcode is `op`: commands of a ring start in order, those of one context in order of fetch over
all rings, one with FENCE when every earlier command of the ring has completed. -/
def nextCmd (s : State) (r op : Nat) : Option HCmd :=
  let l := s.host.cmds
  match l.findIdx? (fun k => k.ring == r && (entOp k.entry == op || !waitsForNone op)) with
  | none => none
  | some i =>
    match l[i]? with
    | none => none
    | some k =>
      let before := l.take i
      let sameCtx := fun (j : HCmd) => entTag j.entry / 64 == entTag k.entry / 64 && entTag k.entry != 0 && !waitsForNone (entOp j.entry)
      let fence := bit (entFlags k.entry) 1 && decide (countp (fun j => j.ring == r) l < (ring s r).pend)
      let late := bit (entFlags k.entry) 1 && before.any (fun j => j.ring == r)
      if entOp k.entry != op || fence || late || (!waitsForNone op && before.any sameCtx) then none else some k
/-- A started command leaves the list of fetched ones. -/
def takeCmd (s : State) (k : HCmd) : State := setHost s { s.host with cmds := s.host.cmds.erase k }

/-- Operand bytes a command uses, from byte 8 (R590). -/
def usedBytes (op : Nat) : Nat :=
  match op with
  | 1 => 1 | 2 => 12 | 3 => 2 | 4 => 8 | 6 => 16 | 7 => 4 | 8 => 16 | 9 => 12 | _ => 0
/-- The first of the refusals of R586 and R589 in the order of R56; OK where there is none. `named`: the command
acts on the context of its CTAG. -/
def cmdCheck (s : State) (k : HCmd) (named : Bool) : Nat :=
  let e := k.entry
  let tag := entTag e
  let id := tag / 64
  let x := ctx s id
  let op := entOp e
  let vf := k.ring - 64
  let own := k.ring < 64 || (fb s aon fAON_READY_DONE && x.vf == some vf)
  let n := usedBytes op
  let resv := entFlags e / 4 != 0 || entBytes e 6 2 != 0 || entBytes e (8 + n) (56 - n) != 0
  let on := fun (p : Bool) (code : Nat) => if p then code else cOK
  [on (named && !own) cDENIED, on resv cRANGE, on (named && x.st != 0 && tag % 64 != x.gen) cSTALE_GEN, on (named && x.st == 0) cNO_CHANNEL,
    on (named && x.st == 3) cCLOSED, on ((!fb s aon fAON_READY_DONE && op != 6) || (gradeOf s == 0 && op != 6 && op != 5)) cNOT_READY,
    on (named && x.st == 2 && op != 5 && op != 2 && op != 6) x.code].foldl firstCode cOK

end Sys2Proof.Machine
end

