-- ==== Sys2Proof/Machine/ResetOps.lean ====
section
/-! DEFINITION. Resets, what survives them, core power, context operations at the die, teardown, context reset (R45, R46, R495–R508, R515, R554–R558). -/
namespace Sys2Proof.Machine
open Sys2Proof

/-! ### Register fields a reset clears (R45, R503) -/

/-- A word with the fields of the lost classes at their reset values. -/
def clearWord (lost : Keep → Bool) : List FieldSpec → Nat → Nat
  | [], v => v
  | f :: l, v => clearWord lost l (if lost f.keep then setBits v f.lo f.w f.reset else v)
/-- The registers of the chosen pages with the fields of the lost classes cleared. -/
def clearRegs (s : State) (sel : PageId → Bool) (lost : Keep → Bool) : State :=
  { s with regs := tmap (fun k (v : Word) =>
      match pageOf (k / 1024) with
      | none => v
      | some p => if sel p then (match specOf p (4 * (k % 1024)) with
          | some r => BitVec.ofNat 32 (clearWord lost r.fields v.toNat)
          | none => v) else v) s.regs }
/-- First-error captures of the chosen pages are of class D (R53). -/
def clearCaps (s : State) (sel : PageId → Bool) : State :=
  { s with caps := tfilter (fun no _ => match pageOf no with | some p => !sel p | none => true) s.caps, stg := tfilter (fun no _ => match pageOf no with | some p => !sel p | none => true) s.stg }
def lostV (k : Keep) : Bool := k == .v
def lostD (k : Keep) : Bool := k == .v || k == .d
def lostM (k : Keep) : Bool := k == .v || k == .d || k == .m
def clearPages (s : State) (sel : PageId → Bool) (lost : Keep → Bool) : State := clearCaps (clearRegs s sel lost) sel
def isCorePage (c : Nat) (p : PageId) : Bool := coreBlks.contains p.blk && p.die == c / 144 && p.inst == c % 144

/-! ### Core reset and core power (R495, R498, R554–R558) -/

/-- What a core reset keeps beside registers: scratchpad contents, local memory, and in the router its packets, combining slots and replication entries. -/
def coreKeep (k : Core) : Core :=
  { sp := { words := k.sp.settled.words, pois := k.sp.settled.pois, flips := k.sp.settled.flips, held := k.sp.held, ext := k.sp.ext }, seq := { lm := k.seq.lm }, rt := { bufs := k.rt.bufs, held := k.rt.held, comb := k.rt.comb, rep := k.rt.rep }, test := k.test }
/-- The fields of a core's pages cleared, with what the die writes back. -/
def coreFields (s : State) (c : Nat) : State :=
  let en := rd s (rPage c) fROUT_EN_EN.off
  let det := rd s (rPage c) fROUT_DETOUR_DET0.off
  let s := clearPages s (isCorePage c) lostD
  wr (wr s (rPage c) fROUT_EN_EN.off en) (rPage c) fROUT_DETOUR_DET0.off det
def coreReset (s : State) (c : Nat) : State :=
  bump (coreFields (setCore s c (coreKeep (core s c))) c) (diePage .die (c / 144)) 0xC00
/-- A core goes OFF: as at core reset, and nothing of its contents stays; its banks follow through CLOSING. -/
def coreOff (s : State) (c : Nat) : State :=
  if cstate s c ≥ 2 then s
  else
    let s := coreReset s c
    let s := setSeq s c { seqr s c with lm := [] }
    retargetAll (setCstate s c 2) c 64
/-- OFF to core reset with RUN clear; banks whose target is ON pass through POWERING. -/
def coreOn (s : State) (c : Nat) : State := if cstate s c ≠ 2 then s else retargetAll (setCstate (coreReset s c) c 0) c 64

/-- Rail and PLL of a cluster follow its cores (R555, R557, R564): with every core in REST or OFF and HOLD 0 they leave service. -/
def railDown (s : State) (k : Nat) : State :=
  let pg := clusPage k
  let cs := clusterCores k
  if fb s pg fCLUS_CTL_HOLD || cs.any (fun c => cstate s c == 0) then s
  else
    let s := fdSet (fdSet s pg fCLUS_STATUS_PLL 0) pg fCLUS_FREQ_CURRENT 0
    if cs.all (fun c => decide (cstate s c ≥ 2)) then fdSet (fdSet s pg fCLUS_STATUS_RAIL 0) pg fCLUS_VSET_VOUT 0
    else fdSet (fdSet s pg fCLUS_STATUS_RAIL 3) pg fCLUS_VSET_VOUT (fd s pg fCLUS_CTL_RETV)
/-- Whether a PLL has its reference. -/
def refPresent (s : State) : Bool := !fb s (hubPage .clk) fCLK_STATUS_XTAL_FAIL
/-- A PLL starts; without a reference it coasts and never locks (R565). -/
def pllStart (s : State) (k : Nat) : State :=
  let pg := clusPage k
  let s := bump s pg 0xC10
  if refPresent s then fdSet s pg fCLUS_STATUS_PLL 1
  else raiseInt (errAt (bump (fdSet (fdSet (fdSet s pg fCLUS_STATUS_PLL 3) pg fCLUS_FREQ_CURRENT 16) pg fCLUS_STATUS_CLK_LOST 1) (diePage .clk (k / 36)) 0xC00) pg cNOT_READY 0xF1 0 0 0) pg 9
/-- A PLL that is locking locks, within the time of a reset (R495, R564). -/
def pllRelock (s : State) (k : Nat) : State :=
  let pg := clusPage k
  if fd s pg fCLUS_STATUS_PLL = 1 then fdSet (fdSet s pg fCLUS_STATUS_PLL 2) pg fCLUS_FREQ_CURRENT (fd s pg fCLUS_FREQ_TARGET) else s
/-- A wake request of a cluster. -/
def railUp (s : State) (k : Nat) : State :=
  let pg := clusPage k
  let s := fdSet (fdSet s pg fCLUS_STATUS_RAIL 2) pg fCLUS_VSET_VOUT (fd s pg fCLUS_VSET_SETPT + clusOffset s k)
  if fd s pg fCLUS_STATUS_PLL = 0 then pllStart s k else s

/-- What REST keeps of a core (R503, R555). -/
def restKeep (k : Core) : Core :=
  { k with arr := {}, fab := { buf0 := k.fab.buf0, buf1 := k.fab.buf1 }, cus := [], mus := [], seq := { lm := k.seq.lm }, sp := { words := k.sp.settled.words, pois := k.sp.settled.pois, flips := k.sp.settled.flips, dirty := k.sp.settled.dirty, held := k.sp.held, ext := k.sp.ext }, qe := { chans := k.qe.chans, handles := k.qe.handles, slots := k.qe.slots } }
/-- REST_ENTRY: a core whose target is REST, in NAP or HALTED. -/
def restEntry (s : State) (c : Nat) : State :=
  if coreTarget s c ≠ 1 ∨ cstate s c ≠ 0 ∨ !((seqr s c).napped || seqSt s c == 0 || seqSt s c == 4) then s
  else
    let s := clearRegs (setCore s c (restKeep (core s c))) (isCorePage c) lostV
    let s := retargetAll (setCstate (bump s (clusPage (clusterOf c)) 0xC08) c 1) c 64
    railDown (setSeqSt s c 0 0) (clusterOf c)
/-- REST_WAKE: the active configuration restarts (R151), and the sequencer at CORE_SEQ_RESUME. -/
def restWake (s : State) (c : Nat) : State :=
  if cstate s c ≠ 1 then s
  else
    let s := railUp (bump s (clusPage (clusterOf c)) 0xC00) (clusterOf c)
    let s := retargetAll (setCstate s c 0) c 64
    seqRestWake (startFlow (startUnits s c) c) c
/-- A target written for one core (R554–R558); it is ignored for a closed core. -/
def applyTarget (s : State) (c t : Nat) : State :=
  if cstate s c = 3 then s
  else match t with
    | 0 => if cstate s c = 2 then coreOn (railUp s (clusterOf c)) c else if cstate s c = 1 then restWake s c else s
    | 2 => railDown (coreOff s c) (clusterOf c)
    | _ => if cstate s c = 2 then s else restEntry s c

/-! ### Lay-bys and the ends of moves (R472, R481) -/

def coreBound (s : State) (c : Nat) : Bool := bit (rd s (corePage .core c) 0xC) 16
def underTest (s : State) (c : Nat) : Bool := (core s c).test
/-- A core that is not closed, holds no work, is not under test nor waiting for one after a closure, and is no mover's arriving core. -/
def isLayby (s : State) (c : Nat) : Bool :=
  !coreClosed s c && !underTest s c && !coreBound s c && !tget false s.heal.untested c &&
  (s.heal.movers.all (fun e => !(decide (1 ≤ e.2.phase) && decide (e.2.phase ≤ 5) && e.2.dst == c)))
def mover (s : State) (k : Nat) : Mover := tget {} s.heal.movers k
def setMover (s : State) (k : Nat) (m : Mover) : State := setHeal s { s.heal with movers := tput s.heal.movers k m }
/-- A core joins the pool: bound to nothing, its EN left, OFF with its banks (R472). -/
def joinPool (s : State) (c : Nat) : State :=
  let s := fdSet (bindCore s c 0 false) (rPage c) fROUT_EN_EN 0x3FFFFF
  applyTarget (if cstate s c = 3 then s else setTarget s c 2) c 2
/-- A move ends in aborted; an arriving core that has not failed returns to the pool, with its follower (R449, R481). -/
def moveAborted (s : State) (k code : Nat) : State :=
  let m := mover s k
  let s := setMover s k { m with phase := 7, code := code }
  let s := if 1 ≤ m.phase ∧ m.phase ≤ 5 ∧ !coreClosed s m.dst then withMate s m.dst joinPool else s
  if code = cPURGED then s else raiseInt (errAt s hubHeal code 0xD5 k 0 (coreTag s m.src)) hubHeal 10
/-- The moves in phases 1 to 4 that meet a test end. -/
def movesEnd (s : State) (code : Nat) (f : Mover → Bool) : State :=
  (List.range 16).foldl (fun s k =>
    let m := mover s k
    if 1 ≤ m.phase ∧ m.phase ≤ 4 ∧ f m then moveAborted s k code else s) s
/-- A core has failed or is closed: moves of it in phases 1 to 4 end (R481). -/
def movesLose (s : State) (c : Nat) : State := movesEnd s cCLOSURE (fun m => m.dst == c || (m.src == c && m.mode == 0))
/-- PSTATE enters CARRYING or REJOINING: every move ends (R481). -/
def pstMoves (old s : State) : State := if (pst s = 5 ∨ pst s = 7) ∧ pst old ≠ pst s then movesEnd s cPURGED (fun _ => true) else s

/-- A core whose context has a step running or a STEP_RUN queued (R20). -/
def stepsOn (s : State) (c : Nat) : Bool :=
  let g := rd s (corePage .core c) 0xC
  let x := ctx s (g % 65536 / 64)
  bit g 16 && x.st == 1 && (x.posted.isSome || !x.runs.isEmpty)
/-- Firmware keeps the PLL locked of a cluster with such a core, by HOLD, and of no other (R20, R555). -/
def syncHold (s : State) (k : Nat) : State :=
  let want := (clusterCores k).any (stepsOn s)
  let has := fb s (clusPage k) fCLUS_CTL_HOLD
  if want && !has then railUp (fdSet s (clusPage k) fCLUS_CTL_HOLD 1) k
  else if !want && has then railDown (fdSet s (clusPage k) fCLUS_CTL_HOLD 0) k
  else s
def syncHolds (s : State) (cs : List Nat) : State := (cs.map clusterOf).eraseDups.foldl syncHold s
/-- The clusters of a context's cores. -/
def ctxHold (s : State) (id : Nat) : State := syncHolds s (ctxCores s id)

/-- A cluster reset: its four core resets; a core that was not OFF leaves it HALTED and takes its target, one that was OFF stays so (R46, R495,
R558). -/
def clusterReset (s : State) (k : Nat) : State :=
  let pg := clusPage k
  let cs := clusterCores k
  let hold := cs.map (fun c => (c, cstate s c))
  let s := hold.foldl (fun s e => if e.2 < 2 then setCstate (coreReset s e.1) e.1 0 else if e.2 = 2 then coreReset s e.1 else s) s
  let sp := tget (fd s pg fCLUS_VSET_SETPT) s.pins.setpt k
  let s := clearPages s (fun p => p.blk == .clus && p.die == k / 36 && p.inst == k % 36) lostD
  let s := fdSet s pg fCLUS_VSET_SETPT sp
  let s := hold.foldl (fun s e => setCstate s e.1 (if e.2 < 2 then 0 else e.2)) s
  let s := fdSet s pg fCLUS_VSET_OFFSET (clusOffset s k)
  let s := if hold.any (fun e => decide (e.2 < 2)) then pllRelock (railUp s k) k else railDown s k
  let s := hold.foldl (fun s e => if e.2 < 2 then applyTarget (retargetAll s e.1 64) e.1 (coreTarget s e.1) else s) s
  bump (syncHold s k) (diePage .die (k / 36)) 0xC08

/-! ### Die and module resets (R495–R503) -/

/-- AON_DIE_CAUSE of a die code. -/
def setDieCause (s : State) (d v : Nat) : State := if d < 8 then fdSet s aon (fAON_DIE_CAUSE0_D.sub d) v else fdSet s aon (fAON_DIE_CAUSE1_D.sub (d - 8)) v
/-- The controllers of a die's stacks enter self-refresh, their queues served (R345, R352). -/
def selfRefresh (s : State) (d : Nat) : State :=
  [2 * d, 2 * d + 1].foldl (fun s m =>
    let s := setStack s m { stack s m with window := none, granted := none, train := none }
    let s := (List.range 32).foldl (fun s ch => let g := 32 * m + ch; let s := serveAll s g; setSlice s g { slice s g with suspect := false, fails := 0 }) s
    if fd s (memcPage m) fMEMC_STATUS_STATE = 0 then s else fdSet s (memcPage m) fMEMC_STATUS_STATE 3) s
/-- Cores of a die reset: contents kept and untrusted, routers empty (R500, R503). -/
def dieCores (s : State) (d : Nat) : State :=
  ((List.range 144).map (fun i => 144 * d + i)).foldl (fun s c =>
    let k := core s c
    let cs := cstate s c
    let s := setCore (visitDrop (movesLose s c) c) c { sp := { words := k.sp.settled.words, pois := k.sp.settled.pois, flips := k.sp.settled.flips }, seq := { lm := k.seq.lm } }
    if cs = 3 then s else fdSet s (spadPage c) fSPAD_STATUS_UNTRUSTED 1) s
/-- A compute die enters reset with a cause of R522. -/
def dieReset (s : State) (d cause : Nat) : State :=
  let s := selfRefresh (dieCores s d) d
  let mem := [2 * d, 2 * d + 1].map (fun m => fd s (memcPage m) fMEMC_STATUS_STATE)
  let s := clearPages s (fun p => p.die == d) lostD
  let s := (List.range 2).foldl (fun s i => fdSet s (memcPage (2 * d + i)) fMEMC_STATUS_STATE (mem.getD i 0)) s
  let s := fdSet s (diePage .die d) fDIE_STATUS_STATE 1
  let s := setLog (bridgesReset (setNet s d {}) d) d []
  setHub (setDieCause (fdSet s aon fAON_RST_STAT_BUSY 1) d cause) { s.hub with dieRst := tput s.hub.dieRst d cause, ctxops := tdel s.hub.ctxops d }
/-- A port die enters reset: its ports go OFF, packets on them are lost, class M stays (R501). -/
def portDieReset (s : State) (d cause : Nat) : State :=
  let ps := (List.range 40).filter (fun p => portDie p == d)
  let s := ps.foldl (fun s p => setPort s p { words := (port s p).words, recBase := (port s p).recBase, recOk := (port s p).recOk, recPeer := (port s p).recPeer }) s
  let s := clearPages s (fun p => p.die == d) lostD
  let s := fdSet s (diePage .die d) fDIE_STATUS_STATE 1
  let s := bridgesReset (setNet s d {}) d
  setHub (setDieCause (fdSet s aon fAON_RST_STAT_BUSY 1) d cause) { s.hub with dieRst := tput s.hub.dieRst d cause }

/-- What of the state beyond registers a module reset or a loss of main power leaves (R435, R503): `mem` says memory contents are kept. -/
def moduleClear (s : State) (mem : Bool) : State :=
  let tw := s.twin
  let kept : Tbl Stream := if mem then tmap (fun _ (x : Stream) => { x with held := (uptoMark (fun _ => true) (inOrder x)).1, marks := x.marks }) tw.streams else []
  let s := { s with cores := [], nets := [], routes := [], ports := [], slices := tmap (fun g (x : Slice) => { ss := if x.ss = 3 ∧ !cmapBit s 0 (cmSlice g) then 0 else x.ss, marks := x.marks }) s.slices, latch := [], stg := [], inval := [], flip := none, reports := [], grant := [], gauges := [] }
  let s := { s with stackSt := tmap (fun _ (k : Stack) => { lost := k.lost }) s.stackSt, twin := { streams := kept, jmap := tw.jmap, smap := tw.smap, mode := tw.mode } }
  let s := setHeal s { errSeq := s.heal.errSeq, flash0 := s.heal.flash0, flash1 := s.heal.flash1 }
  let s := setHub s {}
  let s := setHost s { pcie := s.host.pcie }
  if mem then s else { s with mem := [], mpois := [], merr := [], stackSt := [] }
/-- Registers in a module reset: everything but what is of class F or A, and on the AON page the fields of class M (R503). -/
def moduleRegs (s : State) : State :=
  let s := clearPages s (fun p => p.blk != .aon) lostM
  clearRegs s (fun p => p.blk == .aon) (fun k => k == .m)
/-- Every bank of a core in one state. -/
def setBanks (s : State) (c v : Nat) : State := (List.range 8).foldl (fun s i => wr s (spadPage c) (fSPAD_BANK_STATE_S.at i).off (v * 0x11111111)) s
/-- The targets of a core's banks written ON, which they have reached (R216, R477, log entry 125). -/
def banksOn (s : State) (c : Nat) : State :=
  let s := (List.range 4).foldl (fun s i => wr s (spadPage c) (0x80 + 4 * i) 0) s
  setBanks (setCore s c { core s c with sp := { (core s c).sp with held := [] } }) c 0
/-- Every core OFF with its banks OFF, or CLOSED where it is closed. -/
def coresOff (s : State) : State :=
  (List.range 1152).foldl (fun s c => let v := if coreClosed s c then 3 else 2; setBanks (setCstate s c v) c (if v = 3 then 7 else 2)) s
/-- The fuse a command blows (R606, R607): 1 DBG_CLOSE, 2 MGMT_CLOSE, 3 the next bit of SVN_MIN, 4 a key. -/
def fuseBlow (s : State) (code arg : Nat) : State :=
  let fp := hubPage .fuse
  match code with
  | 1 => fdSet (fdSet s fp fFUSE_VAL_DBG_CLOSE 1) (hubPage .auth) fAUTH_STATUS_DBGCLOSED 1
  | 2 => fdSet (fdSet s fp fFUSE_VAL_MGMT_CLOSE 1) (hubPage .auth) fAUTH_STATUS_MGMTCLOSED 1
  | 3 => let v := rd s fp 0x44; wr s fp 0x44 (v ||| (v + 1) % 2 ^ 32)
  | _ => fdSet s fp fFUSE_VAL_KEY_REVOKE (fd s fp fFUSE_VAL_KEY_REVOKE ||| 2 ^ arg)
/-- A fuse whose programming a reset interrupts holds its old or its new value: a free choice. -/
def fuseCut (s : State) : State :=
  match s.host.fuse with
  | none => s
  | some f => freeUsed (if freeVal s % 2 = 1 then fuseBlow s f.code f.arg else s)
/-- The largest target among clusters in service (R551). -/
def fmax (s : State) : Nat := (List.range 288).foldl (fun m k => if closed s (cmCluster k) then m else max m (fd s (clusPage k) fCLUS_FREQ_TARGET)) 0
/-- Every domain but the always-on one goes into reset; memory stays in self-refresh where `mem` says so, its accepted requests served
(R345), and else is lost. -/
def moduleDown (s : State) (mem : Bool) : State :=
  let s := if mem then (List.range 8).foldl selfRefresh s else s
  let was := (List.range 16).map (fun m => fd s (memcPage m) fMEMC_STATUS_STATE)
  let bound := fb s twinPage fCAUSE_PAIR_BOUND
  let s := moduleRegs (moduleClear (fuseCut s) mem)
  let s := (List.range 16).foldl (fun s m => if mem ∧ was.getD m 0 ≠ 0 then fdSet s (memcPage m) fMEMC_STATUS_STATE 3 else s) s
  let s := (List.range 11).foldl bridgesReset (coresOff s)
  let s := (List.range 11).foldl (fun s d => fdSet (fdSet s (diePage .die d) fDIE_STATUS_STATE 0) (diePage .pwr d) fPWR_STATUS_DSTATE 0) s
  let s := fdSet s (hubPage .pwr) fPWR_LIM_STAT_FAPPLIED (fmax s)
  let s := fdSet (setPst s (if bound then 1 else 0)) aon fAON_RST_STAT_BUSY 0
  setPins s { s.pins with memKept := mem, copy := s.pins.copy && mem }
/-- The cause of R522 of a module reset or power-on. -/
def setCause (s : State) (cause : Nat) : State :=
  let old := fd s aon fAON_RST_CAUSE_CAUSE
  fdSet (fdSet s aon fAON_RST_CAUSE_PREV old) aon fAON_RST_CAUSE_CAUSE cause
/-- A module reset, by its cause of R522; memory in self-refresh is kept where `mem` says 12 V stayed. -/
def moduleReset (s : State) (cause : Nat) (mem : Bool) : State :=
  let s := (List.range 11).foldl (fun s d => setDieCause s d 1) (setCause (moduleDown s mem) cause)
  setPins (bump s aon 0xC00) { s.pins with standby := false }

/-! ### Context operations at the die (R506) -/

def coreHalted (s : State) (c : Nat) : Bool := seqSt s c == 0 || seqSt s c == 4
/-- HALT at a core. -/
def haltCore (s : State) (c : Nat) : State :=
  let q := seqr s c
  let s := setSeq s c { q with wait := .none, napped := false }
  let s := fdSet (if seqSt s c = 4 then s else setSeqSt s c 0 0) (corePage .core c) fCORE_SEQ_CTL_RUN 0
  let s := setCore s c { core s c with stopped := true }
  let s := fdSet s (qPage c) fQENG_CTL_SENDSTOP 1
  (dmaList s c).foldl (fun s d => dmaFinish s c d cPURGED) s
/-- CLOSE at a core. -/
def closeCore (s : State) (c : Nat) : State :=
  let s := (qe s c).chans.foldl (fun s e =>
    let x := e.2
    if x.state = 0 then s
    else
      let s := if x.notice ∨ x.state = 1 then s else noticeOut s (c / 144) x.en (.closeNotice c x.en x.handle false x.cidx x.convoy)
      let s := endAll s c cCLOSED (chanMsgs s c e.1)
      setChan s c e.1 { x with state := 4, code := cCLOSED, notice := true, convoy := none }) s
  (qe s c).handles.foldl (fun s e =>
    let h := e.2
    if h.state ≠ 1 then s
    else noticeOut (setHandle s c e.1 { h with state := 2 }) (c / 144) h.en (.closeNotice c h.en e.1 true h.sidx (if h.conv then some (handleCvid s c e.1) else none))) s
/-- REGEN at a core. -/
def regenCore (s : State) (c gen : Nat) : State :=
  coreBlks.foldl (fun s b => let w := rd s (corePage b c) 0xC; wr s (corePage b c) 0xC (w - w % 64 + gen % 64)) s
/-- The queue engine of a cleared core: no slot in use, open handles closing, nothing waiting to be injected. -/
def clearQe (s : State) (c : Nat) : State :=
  let q := qe s c
  setQe s c { q with slots := [], handles := tmap (fun _ (h : Handle) => if h.state = 1 then { h with state := 2 } else h) q.handles, inj := [] }
/-- The units of a cleared core: array, compute and memory units, DMA and the ports of the queue engine. -/
def clearUnits (s : State) (c : Nat) : State :=
  let k := core s c
  setCore s c { k with arr := {}, cus := [], mus := [], stopped := false, frozen := false, sp := { k.sp with ranges := [], dma := [] }, qe := { k.qe with qx := [], qy := [] } }
/-- CLEAR at a core. -/
def clearCore (s : State) (c : Nat) : State :=
  let s := fdSet (qFlush s c) (qPage c) fQENG_CTL_SENDSTOP 0
  let s := setSeqSt s c 0 0
  let s := setSeq s c { lm := (seqr s c).lm }
  let s := (List.range 64).foldl (fun s q => fdSet s (qPage c) (fQENG_Q_CFG_OPEN.at q) 0) s
  let s := clearQe s c
  let s := bumpBy s (flowPage c) 0xC08 (purgeCount s c)
  startFlow (startUnits (clearUnits s c) c) c
/-- One operation at one core. -/
def ctxOpCore (s : State) (op gen c : Nat) : State :=
  match op with
  | 1 => haltCore s c
  | 2 => closeCore s c
  | 3 => regenCore s c gen
  | 4 => clearCore s c
  | _ => s
def dieCtxCores (s : State) (d id : Nat) : List Nat := ((List.range 144).map (fun i => 144 * d + i)).filter (fun c => boundTo s id c)
/-- A write of DIE_CTXOP with GO. -/
def dieCtxOp (s : State) (d v : Nat) : State :=
  let pg := diePage .die d
  let op := v % 8
  let gen := bits v 8 6
  let id := bits v 16 10
  if !bit v 31 then s
  else
    let cs := dieCtxCores s d id
    let code := if op = 0 ∨ 4 < op then cRANGE
      else if fb s pg fDIE_STATUS_CTXBUSY || (op != 1 && cs.any (fun c => !coreHalted s c)) then cNOT_READY else cOK
    if code ≠ cOK then raiseInt (errAt (fdSet s pg fDIE_CTXOP_STAT_CODE code) pg code 0xE1 op 0 (64 * id + gen)) pg 9
    else
      let s := cs.foldl (fun s c => ctxOpCore s op gen c) s
      let s := fdSet (fdSet s pg fDIE_STATUS_CTXBUSY 1) pg fDIE_CTXOP_STAT_BUSY 1
      setHub (fdSet s pg fDIE_CTXOP_STAT_CORES cs.length) { s.hub with ctxops := tput s.hub.ctxops d { op := op, ctx := id, gen := gen } }
/-- CTXOP_COMPLETE. -/
def ctxOpDone (s : State) (d : Nat) : State :=
  let pg := diePage .die d
  if !fb s pg fDIE_STATUS_CTXBUSY then s
  else
    let s := fdSet (fdSet s pg fDIE_STATUS_CTXBUSY 0) pg fDIE_CTXOP_STAT_BUSY 0
    setHub (bump (fdSet s pg fDIE_CTXOP_STAT_CODE cOK) pg 0xC10) { s.hub with ctxops := tdel s.hub.ctxops d }
/-- The operation broadcast to the eight compute dies, each of which carries it out and completes it (R506). -/
def ctxOpAll (s : State) (op gen id : Nat) : State :=
  (List.range 8).foldl (fun s d => ctxOpDone (dieCtxOp s d (op + 2 ^ 8 * (gen % 64) + 2 ^ 16 * id + 2 ^ 31)) d) s

/-! ### Generations, context reset, teardown (R504, R507, R515) -/

/-- A generation may be left for the next where the next one's earlier incarnation is not draining. -/
def mayAdvance (s : State) (id : Nat) : Bool :=
  let x := ctx s id
  let n := (x.gen + 1) % 64
  match x.drains.find? (fun e => e.1 == n) with
  | none => true
  | some (_, t) => match t with | some t => decide (t ≤ s.now) | none => false
/-- The generation advances; the drain of the one left starts (R504). -/
def advanceGen (s : State) (id : Nat) : State :=
  let x := ctx s id
  let s := match x.vf with
    | some n => setHost s { s.host with vfs := tput s.host.vfs n (BitVec.ofNat 32 (2 ^ 16 + 64 * id + (x.gen + 1) % 64)) }
    | none => s
  setCtx s id { x with gen := (x.gen + 1) % 64, drains := tput x.drains x.gen (some (s.now + usTicks (fd s aon fAON_DRAIN_DRAIN))) }
/-- Local memory reloaded from a core image: 64 KiB from its address (R515). -/
def loadLocal (s : State) (c img : Nat) : State :=
  let r := memReadSpan s (hubEpoch s) img 65536
  setSeq s c { seqr s c with lm := memPutAll [] 0 r.1 }
/-- The core images of the positions a context still holds. -/
def loadPlaces (s : State) (id : Nat) (i : Option Itin) : State :=
  match i with
  | none => s
  | some i => i.place.foldl (fun s p => if boundTo s id p.core then withMate s p.core (fun s c => loadLocal s c p.img) else s) s
/-- A context reset on this module after its HALT (R515). -/
def contextRegen (s : State) (id : Nat) : State :=
  let s := advanceGen s id
  let x := ctx s id
  let s := ctxOpAll s 3 x.gen id
  let s := (grantsOf s id).foldl (fun s i => grantPut s i (64 * id + x.gen) (bits (tget 0 s.grant i).toNat 16 2)) s
  loadPlaces (ctxOpAll s 4 0 id) id x.itin

/-- A core's pages released from a context; the core joins the lay-by pool (R472, R507). -/
def releaseCore (s : State) (c : Nat) : State := joinPool (syncHold (bindCore s c 0 false) (clusterOf c)) c
/-- Signpost entries of positions made invalid (R507). -/
def dropSigns (s : State) (ps : List Place) : State :=
  if ps.isEmpty then s else invalAll (ps.foldl (fun s p => signPut s p.en 0) s)
/-- Steps 3 to 8 of a teardown, but for the expiry of the drain timer. -/
def teardownRest (s : State) (id : Nat) : State :=
  let x := ctx s id
  let cs := ctxCores s id
  let s := advanceGen s id
  let s := ctxOpAll s 3 (ctx s id).gen id
  let s := ctxOpAll s 2 0 id
  let s := (grantsOf s id).foldl (fun s i => grantPut s i 0 0) s
  let ps := match x.itin with | some i => i.place | none => []
  let s := dropSigns s ps
  let s := ctxOpAll s 4 0 id
  let s := cs.foldl releaseCore s
  let s := match x.vf with | some n => setHost s { s.host with vfs := tdel s.host.vfs n } | none => s
  setCtx s id { ctx s id with itin := none, ens := ps.map (·.en), wait := 0 }
/-- STEP_RUNs of a context fetched and not started complete with CLOSED when its teardown starts (R507, R588). -/
def queuedEnd (s : State) (id : Nat) : State :=
  let mine := fun (k : HCmd) => entOp k.entry == 3 && entTag k.entry / 64 == id
  let s := (s.host.cmds.filter mine).foldl (fun s k => finish s k (firstCode (cmdCheck s k true) cCLOSED) (entTag k.entry) (ctx s id).mile) s
  setHost s { s.host with cmds := s.host.cmds.filter (fun k => !mine k) }
/-- A teardown; its advance of the generation waits for a drain that has not completed (R504, R507). -/
def teardown (s : State) (id : Nat) (rec : Option Run) : State :=
  let x := ctx s id
  let s := x.runs.foldl (fun s r => complete s r.ring r.cid r.flags cCLOSED (ctxTag s id) (x.mile + 2 ^ 32 * r.done)) s
  let s := x.waits.foldl (fun s w => complete s w.ring w.cid w.flags cCLOSED (ctxTag s id) x.mile) s
  let s := queuedEnd s id
  let s := setCtx s id { x with st := 3, runs := [], waits := [], posted := none, owed := [], winSize := 0, tear := rec, bar := {} }
  let cs := ctxCores s id
  let s := movesEnd s cPURGED (fun m => cs.contains m.src || cs.contains m.dst)
  let s := ctxOpAll s 1 0 id
  if mayAdvance s id then teardownRest s id else setCtx s id { ctx s id with wait := 2 }
/-- The drain that ends first. -/
def firstDrain (l : Tbl (Option Nat)) : Option Nat :=
  (l.find? (fun e => l.all (fun f => decide (e.2.getD 0 ≤ f.2.getD 0)))).map (·.1)
/-- DRAIN_EXPIRY: the drain that began first is complete; a draining context whose last generation it was becomes FREE, and its teardown
completes. -/
def drainEnd (s : State) (id : Nat) : State :=
  let x := ctx s id
  match firstDrain x.drains with
  | none => s
  | some g =>
    let ds := tdel x.drains g
    if x.st ≠ 3 ∨ x.wait ≠ 0 ∨ (g + 1) % 64 ≠ x.gen then setCtx s id { x with drains := ds }
    else
      let s := setCtx s id { gen := x.gen, drains := ds }
      match x.tear with
      | some r => complete s r.ring r.cid r.flags cOK (64 * id + x.gen) 0
      | none => s

/-! ### DIE_RST (R519) -/

def rstRefused (s : State) (d code unit : Nat) : State :=
  let pg := diePage .die d
  raiseInt (errAt (fdSet s pg fDIE_RST_STAT_CODE code) pg code 0xE2 unit 0 0) pg 10
/-- A write of DIE_RST_CORE. The reset ends within the step. -/
def dieRstCore (s : State) (d v : Nat) : State :=
  let n := v % 256
  if !bit v 31 then s
  else if n ≥ 144 then rstRefused s d cRANGE n
  else if coreClosed s (144 * d + n) then rstRefused s d cCLOSURE n
  else if fb s (diePage .die d) fDIE_RST_STAT_BUSY then rstRefused s d cNOT_READY n
  else fdSet (coreReset s (144 * d + n)) (diePage .die d) fDIE_RST_STAT_CODE cOK
def dieRstClus (s : State) (d v : Nat) : State :=
  let n := v % 64
  if !bit v 31 then s
  else if n ≥ 36 then rstRefused s d cRANGE n
  else if closed s (cmCluster (36 * d + n)) then rstRefused s d cCLOSURE n
  else if fb s (diePage .die d) fDIE_RST_STAT_BUSY then rstRefused s d cNOT_READY n
  else fdSet (clusterReset s (36 * d + n)) (diePage .die d) fDIE_RST_STAT_CODE cOK

end Sys2Proof.Machine
end

