-- ==== Sys2Proof/Machine/GaugeOps.lean ====
section
/-! DEFINITION. Gauge blocks (R615–R632). -/
namespace Sys2Proof.Machine
open Sys2Proof

/-! ### Units of pages (R37, R49) -/

/-- The module-wide core index of a core page. -/
def PageId.core (p : PageId) : Nat := 144 * p.die + p.inst
def PageId.isCore (p : PageId) : Bool := coreBlks.contains p.blk
/-- The unit that owns a page is closed: the unit itself or its die. -/
def unitClosed (s : State) (p : PageId) : Bool :=
  closed s (cmDie p.die) ||
  (match p.blk with
   | .core => coreClosed s p.core | .flow => coreClosed s p.core | .spad => coreClosed s p.core | .qeng => coreClosed s p.core | .rout => coreClosed s p.core
   | .clus => closed s (cmCluster (36 * p.die + p.inst))
   | .memc => closed s (cmStack (2 * p.die + p.inst))
   | .port => closed s (cmPort (18 * (p.die - 9) + p.inst))
   | .cause => closed s (cmPort (36 + 2 * (p.die - 9) + p.inst))
   | _ => false)
/-- The unit that owns a page is OFF: its core, or its die, which answers nothing while it is OFF or in reset (R37, R499). The
always-on domain's page is there while AUX_3V3 is. -/
def unitOff (s : State) (p : PageId) : Bool :=
  if p.blk == .aon then !s.pins.aux
  else decide (fd s (diePage .die p.die) fDIE_STATUS_STATE < 2) || (p.isCore && cstate s p.core == 2)

/-! ### Gauge blocks -/

def gPage (d i : Nat) : PageId := ⟨.gauge, d, i⟩
def gauge (s : State) (d i : Nat) : Gauge := tget {} s.gauges (gPage d i).no
def setGauge (s : State) (d i : Nat) (g : Gauge) : State := { s with gauges := tput s.gauges (gPage d i).no g }
/-- Gauge blocks of a die (R615). -/
def gaugeCount (d : Nat) : Nat := if d < 9 then 8 else if d < 11 then 4 else 0
def gSrc (s : State) (d i : Nat) : Nat := fd s (gPage d i) fGAUGE_SRC_SRC
def gInst (s : State) (d i : Nat) : Nat := fd s (gPage d i) fGAUGE_SRC_INST
def gSub (s : State) (d i : Nat) : Nat := fd s (gPage d i) fGAUGE_SRC_SUB
def gRun (s : State) (d i : Nat) : Bool := fb s (gPage d i) fGAUGE_CTL_RUN

/-- Temperature sensors of a die (R566). -/
def sensors (d : Nat) : Nat := if d < 8 then 38 else 4
/-- Whether a die has a source, and whether INST and SUB lie in its range (R622). -/
def srcOk (d src inst sub : Nat) : Bool :=
  let c := decide (d < 8)
  let h := d == 8
  let p := decide (9 ≤ d)
  match src with
  | 0x01 => c && (decide (inst < 144) || inst == 0xFF)
  | 0x02 => (c || h) && (decide (sub < 512) || sub == 0x3FF)
  | 0x03 => c || h
  | 0x04 => c && (decide (inst < 144) || inst == 0xFF)
  | 0x05 => h && (decide (sub < 128) || sub == 0x3FF)
  | 0x06 => p && decide (inst < 20)
  | 0x10 => c && decide (inst < 144) && decide (sub < 128)
  | 0x11 => c && decide (inst < 144) && decide (sub < 64)
  | 0x12 => c && decide (inst < 144)
  | 0x13 => c && decide (inst < 144)
  | 0x14 => c && decide (sub < 36)
  | 0x15 => decide (sub < sensors d)
  | 0x16 => true
  | 0x17 => h
  | 0x18 => p && decide (inst < 20) && decide (sub < 8)
  | 0x20 => true
  | _ => false

/-- The port of a port interface of a port die. -/
def dieIfPort (d i : Nat) : Nat := if i < 18 then 18 * (d - 9) + i else 36 + 2 * (d - 9) + (i - 18)

/-- The watched counter of SRC 0x20; none where it cannot be read (R624). -/
def watched (s : State) (d i : Nat) : Option Nat :=
  let off := 0xC00 + 8 * fd s (gPage d i) fGAUGE_CSEL_PAIR
  match pageOf (2048 * d + fd s (gPage d i) fGAUGE_CSEL_PAGE) with
  | none => none
  | some p => if (specOf p off).isSome && !unitClosed s p && !unitOff s p then some (rd64 s p off) else none

/-- The bin of a sample (R617). -/
def binOf (s : State) (d i v : Nat) : Nat := countp (fun k => decide (fd s (gPage d i) (fGAUGE_EDGE_EDGE.at k) ≤ v)) (List.range 15)
/-- A sample applied to the live bank (R616, R629); SUM takes it whole. -/
def gaugeApply (s : State) (d i v : Nat) : State :=
  let g := gauge s d i
  let w := min v (2 ^ 32 - 1)
  let b := binOf s d i w
  let g := { g with count := (g.count + 1) % 2 ^ 64, sum := (g.sum + v) % 2 ^ 64, min := min g.min w, max := max g.max w, bins := tput g.bins b (min (2 ^ 32 - 1) (tget 0 g.bins b + 1)) }
  let pg := gPage d i
  let s := bump (setGauge s d i g) pg 0xC08
  if w > fd s pg fGAUGE_ALARM_VALUE then raiseInt (bump s pg 0xC18) pg 9 else s
/-- An event that finds the queue full (R618). -/
def gaugeDrop (s : State) (d i : Nat) : State :=
  let g := gauge s d i
  raiseInt (bump (setGauge s d i { g with drop := min (2 ^ 32 - 1) (g.drop + 1) }) (gPage d i) 0xC10) (gPage d i) 10

def gaugeOpen (s : State) (d i : Nat) (partialWin : Bool) : State :=
  setGauge s d i { opened := s.now, partialWin := partialWin, ctr := (watched s d i).getD 0 }
/-- A window closes (R621). -/
def gaugeClose (s : State) (d i : Nat) (mile : Option Nat) : State :=
  let pg := gPage d i
  let noctr := gSrc s d i == 0x20 && (watched s d i).isNone
  let s := if gSrc s d i = 0x20 then gaugeApply s d i (match watched s d i with | some n => (n + 2 ^ 64 - (gauge s d i).ctr) % 2 ^ 64 | none => 0) else s
  let g := gauge s d i
  let s := wr64 (wr64 s pg 0x800 g.count) pg 0x808 g.sum
  let s := wr (wr s pg 0x810 g.min) pg 0x814 g.max
  let s := wr s pg 0x818 ((rd s pg 0x818 + 1) % 2 ^ 32)
  let s := match mile with | some m => wr s pg 0x81C (m % 2 ^ 32) | none => s
  let s := wr64 (wr64 s pg 0x820 (g.opened % 2 ^ 48)) pg 0x828 (s.now % 2 ^ 48)
  let s := wr (wr s pg 0x830 g.drop) pg 0x834 (b2n g.partialWin + 2 * b2n noctr)
  let s := (List.range 16).foldl (fun s k => wr s pg (0x840 + 4 * k) (tget 0 g.bins k)) s
  raiseInt (bump (gaugeOpen s d i false) pg 0xC00) pg 8

/-- RUN refused (R629). -/
def runRefused (s : State) (d i : Nat) : Bool :=
  let mode := fd s (gPage d i) fGAUGE_WIN_MODE
  let edge := fun k => fd s (gPage d i) (fGAUGE_EDGE_EDGE.at k)
  !srcOk d (gSrc s d i) (gInst s d i) (gSub s d i) || (List.range 14).any (fun k => decide (edge (k + 1) < edge k)) ||
  ((mode == 1 || mode == 2) && decide (fd s (gPage d i) fGAUGE_WIN_LEN < 25)) || (mode == 3 && decide (9 ≤ d))
/-- A write of GAUGE_CTL. -/
def gaugeCtl (s : State) (d i v : Nat) : State :=
  let pg := gPage d i
  let run := bit v 0
  let close := bit v 1
  if run && !gRun s d i then
    if runRefused s d i then errAt s pg cRANGE 0x31 (gSrc s d i) 0 0
    else
      let s := gaugeOpen (fdSet s pg fGAUGE_CTL_RUN 1) d i (fd s pg fGAUGE_WIN_MODE == 2)
      if close then gaugeClose s d i none else s
  else if gRun s d i && !run then fdSet (gaugeClose s d i none) pg fGAUGE_CTL_RUN 0
  else if gRun s d i && close then gaugeClose s d i none else s
/-- GAUGE_WINDOW_EXPIRY: a TIMED window's LEN has passed, or the module time is a multiple of it (R620). -/
def gaugeExpiry (s : State) (d i : Nat) : State :=
  let mode := fd s (gPage d i) fGAUGE_WIN_MODE
  let len := fd s (gPage d i) fGAUGE_WIN_LEN
  let at_ := (gauge s d i).opened
  let due := (mode == 1 && decide (at_ + len ≤ s.now)) || (mode == 2 && decide (at_ < s.now) && s.now % 2 ^ 48 % len == 0)
  if gRun s d i && due then gaugeClose s d i none else s
/-- A step start closes MILESTONE windows of its context. -/
def gaugeMilestone (s : State) (d id mile : Nat) : State :=
  (List.range (gaugeCount d)).foldl (fun s i =>
    if gRun s d i && fd s (gPage d i) fGAUGE_WIN_MODE == 3 && fd s (gPage d i) fGAUGE_CTX_CTX == id then gaugeClose s d i (some mile) else s) s

/-- A block's filter takes the events of a unit and a sub-unit (R622): INST and SUB, where the source has them, 0xFF and 0x3FF for all. -/
def gaugeTakes (s : State) (d i inst sub : Nat) : Bool :=
  let src := gSrc s d i
  let gi := gInst s d i
  let gs := gSub s d i
  (!(src == 1 || src == 2 || src == 4) || gi == 0xFF || gi == inst) && (!(src == 1 || src == 2 || src == 5) || gs == 0x3FF || gs == sub)
/-- GAUGE_SAMPLE: an end event of a latency source, or an interval's power, of a unit and a sub-unit; `old` says that its start fell before RUN
was set, `full` that the event found the queue full. -/
def gaugeSample (s : State) (d i inst sub v : Nat) (old full : Bool) : State :=
  let src := gSrc s d i
  if !gRun s d i || !((decide (1 ≤ src) && decide (src ≤ 5)) || src == 0x17) || old || !gaugeTakes s d i inst sub then s
  else if full then gaugeDrop s d i else gaugeApply s d i (min v (2 ^ 32 - 1))
/-- The value a level source's field holds; none where it takes no sample (R622). -/
def levelValue (s : State) (d i : Nat) : Option Nat :=
  let c := 144 * d + gInst s d i
  let sub := gSub s d i
  let ofCore := fun (v : Nat) => if cstate s c = 0 then some v else none
  match gSrc s d i with
  | 0x10 => ofCore (link s c sub).q.length
  | 0x11 => ofCore (slotq s c sub).used
  | 0x12 => ofCore (qe s c).sendq.length
  | 0x13 => ofCore ((core s c).sp.ranges.length % 64)
  | 0x14 => some (550 + 5 * fd s (clusPage (36 * d + sub)) fCLUS_VSET_VOUT)
  | 0x15 => some (tget 0 s.power.temps (64 * d + sub))
  | 0x16 => some (tget 0 s.power.current d)
  | 0x18 => some ((((port s (dieIfPort d (gInst s d i))).rx.filter (fun p => p.vc % 4 == sub % 4 && p.cls % 2 == sub / 4)).map linkBytes).sum / 256)
  | _ => none
/-- LEVEL_SAMPLE_PERIOD. -/
def levelSample (s : State) (d i : Nat) : State :=
  if !gRun s d i then s else match levelValue s d i with | some v => gaugeApply s d i v | none => s
/-- LINKOFS_SAMPLE of the signed difference plus 2^31 (R625). -/
def linkofsSample (s : State) (d i v : Nat) : State :=
  if gRun s d i && gSrc s d i == 0x06 && isUp s (dieIfPort d (gInst s d i)) then gaugeApply s d i v else s

end Sys2Proof.Machine
end

