-- ==== Sys2Proof/Machine/RecoverOps.lean ====
section
/-! DEFINITION. Step starts, failed steps, incident notices and the job barrier, gridlock recovery (R509–R518). -/
namespace Sys2Proof.Machine
open Sys2Proof

/-! ### Step starts (R186, R510, R555) -/

/-- A step start reaches a die: its cores take the milestone number and wake, and gauges of the context close their windows. -/
def stepAtDie (s : State) (d id m : Nat) : State :=
  let s := gaugeMilestone s d id m
  if d ≥ 8 then s
  else (dieCtxCores s d id).foldl (fun s c =>
    let s := setMile s c m
    let s := wakeCause s c 0
    if cstate s c = 1 then restWake s c else s) s
/-- The block of constants of an update engine that either configuration buffer enables, written for a step (R80, R169). -/
def constsPut (s : State) (l : List Word) (c : Nat) : State :=
  (List.range 12).foldl (fun s n =>
    let w := fun (i : Nat) => cuWord s c (n / 6) (n % 6) i
    if bits (w 0) 0 2 ≠ 3 then s
    else bumpBy ((List.range 5).foldl (fun s i => applyWord s c (bits (w 15) 0 20 + i) (BitVec.append (l.getD (2 * i + 1) 0) (l.getD (2 * i) 0)) false) s) (spadPage c) 0xC38 5) s
/-- Hub firmware gives every core of the context the constants of the step it is about to post, where the itinerary states an optimiser (log entry 149). -/
def stepConsts (s : State) (id m : Nat) : State :=
  match (ctx s id).itin.bind (·.opt) with
  | none => s
  | some o => (ctxCores s id).foldl (constsPut · (optConsts o m)) s
/-- Hub firmware posts a step's start (R510). The footpath's delivery at each die belongs to the post (log entry 34). -/
def postStep (s : State) (id m : Nat) : State :=
  let s := stepConsts (ctxHold (setCtx s id { ctx s id with posted := some m }) id) id m
  gaugeMilestone ((List.range 8).foldl (fun s d => stepAtDie s d id m) s) 8 id m

/-- The digest a core sent for the milestone. -/
def coreDigest (s : State) (c m : Nat) : Option DWord :=
  match (net s (c / 144)).digests.find? (fun e => e.1 == c % 144) with
  | some (_, (n, v)) => if n = m then some v else none
  | none => none
/-- The cores whose MILE a step of the context needs: those its itinerary places, lost or not, and those bound to it (R21). -/
def stepCores (s : State) (id : Nat) : List Nat :=
  let placed : List Nat := match (ctx s id).itin with | some i => i.place.map (fun p => p.core) | none => []
  ctxCores s id ++ placed.filter (fun c => !boundTo s id c)
/-- Every core placed in the context has executed MILE for the milestone (R21); a pair's leader speaks for both (R448). -/
def allMiled (s : State) (id m : Nat) : Bool := (stepCores s id).all (fun c => isFollower s c || (coreDigest s c m).isSome)
/-- The latest milestone the module can restore (R510). -/
def latest (s : State) (id : Nat) : Nat :=
  match (ctx s id).posted with
  | some m => if allMiled s id m && !(stepCores s id).isEmpty then m else (ctx s id).over
  | none => (ctx s id).over

/-! ### A failed context (R504, R516) -/

/-- A context becomes FAILED. -/
def contextFail (s : State) (id code step : Nat) : State :=
  let x := ctx s id
  let tag := ctxTag s id
  let s := hubLog s { time := s.now, code := code, source := 0xE6, type := 0x24, inst := 0, detail := id, tag := tag, die := 8, addr := step }
  let s := x.runs.foldl (fun s r => complete s r.ring r.cid r.flags code tag (x.mile + 2 ^ 32 * r.done)) s
  let s := x.waits.foldl (fun s w => complete s w.ring w.cid w.flags code tag x.mile) s
  let s := setCtx s id { ctx s id with st := 2, code := code, runs := [], waits := [], posted := none, owed := [], bar := {}, fails := 0 }
  let s := ctxHold s id
  let s := hostEvent s 3
  match x.vf with
  | some n => msix s (n + 1) 1
  | none => s

/-! ### The job barrier (R511–R513) -/

def coordinator (i : Itin) (b : Barrier) : Nat := ((i.mods.filter (fun m => !b.lost.contains m)).min?).getD 0
/-- The contexts of jobs without a twin that this module coordinates, with the job's other modules (R512). -/
def soleJobs (s : State) : List (Nat × Itin) :=
  if pst s ≠ 0 then []
  else s.hub.ctxs.filterMap (fun e => match e.2.itin with
    | some i => if e.2.st == 1 && coordinator i e.2.bar == thisDev s then some (e.1, i) else none
    | none => none)
/-- No port leads to a device. -/
def cutOff (s : State) (dev : Nat) : Bool := (routeChoice s 9 (injX s 9) { ddev := dev }).isNone
/-- The coordinator of a job without a twin asks a module of it to which its last way has gone (R512; log entry 170). -/
def askLost (old s : State) : State :=
  (((soleJobs s).flatMap (fun e => e.2.mods)).eraseDups.filter (fun d => d != thisDev s && cutOff s d && !cutOff old d)).foldl (fun s d => postNotice s { dev := d, kind := 2 }) s
/-- A QUERY of the coordinator's has had no answer: the module is lost, and no milestone of it is held (R512). -/
def postLost (s : State) (dev : Nat) : State :=
  (soleJobs s).foldl (fun s e => if e.2.mods.contains dev then
      postAll s (e.2.mods.filter (· != dev)) (fun d => { dev := d, kind := 1, subj := dev, cause := cTIMEOUT, job := e.2.job, mile := 2 ^ 32 - 1 })
    else s) s
def tellAborted (s : State) (i : Itin) (b : Barrier) (c : Nat) : State :=
  postNotice s { dev := coordinator i b, kind := 5, subj := thisDev s, cause := b.code, job := i.job, mile := c }
/-- How often a step may fail before its context does: REPLAYS + 1 times, a HOT mismatch twice whatever REPLAYS holds (R516). -/
def failLimit (s : State) : Nat := if twinMode s = 2 ∧ s.twin.replay then 2 else fd s aon fAON_RECOVERY_REPLAYS + 1
/-- The rest of a context reset, after which ABORTED is sent (R513, R515). -/
def failReset (s : State) (id : Nat) (i : Itin) : State :=
  let s := contextRegen s id
  let s := setCtx s id { ctx s id with wait := 0 }
  tellAborted s i (ctx s id).bar (ctx s id).over
/-- The first ABORT or LOST for a step resets the context and is answered with ABORTED; a repeat is answered as the first was (R511–R513).
A step whose HOT digests differ is not among those the module can restore (R422). -/
def stepFailed (s : State) (id step code : Nat) : State :=
  let x := ctx s id
  match x.itin with
  | none => s
  | some i =>
    if x.st ≠ 1 then s
    else if x.bar.phase ≠ 0 ∧ x.bar.phase ≠ 3 ∧ x.bar.step = step then if x.wait ≠ 0 then s else tellAborted s i x.bar (if x.bar.phase = 1 then x.over else x.bar.l)
    else
      let n := if x.bar.step = step then x.fails + 1 else 1
      let first := if n = 1 then code else x.first
      if n ≥ failLimit s then
        contextFail s id (if twinMode s = 2 ∧ s.twin.replay then cPOISON else first) step
      else
        let c := latest s id
        let owed := if c = x.over then x.owed else x.owed ++ [c]
        let owed := if pairMode s = 2 ∧ s.twin.differ = some step then owed.filter (fun m => !mileLe step m) else owed
        let b : Barrier := { phase := 1, step := step, code := code, lost := x.bar.lost, lostAt := x.bar.lostAt }
        let s := ctxOpAll s 1 0 id
        let s := ctxHold (setCtx s id { ctx s id with bar := b, fails := n, first := first, posted := none, owed := owed, wait := 1 }) id
        if mayAdvance s id then failReset s id i else s
/-- What waits for a drain goes on once the generation may advance. -/
def drainGo (s : State) (id : Nat) : State :=
  let x := ctx s id
  if x.wait = 0 ∨ !mayAdvance s id then s
  else if x.wait = 2 then teardownRest s id
  else match x.itin with
    | some i => failReset s id i
    | none => setCtx s id { x with wait := 0 }
/-- Contexts of a job, each handled. -/
def forJob (s : State) (job : Nat) (f : State → Nat → State) : State := (jobCtxs s job).foldl f s

/-- INCIDENT_ABORT. -/
def abortIn (s : State) (job step code : Nat) : State := forJob s job (fun s id => stepFailed s id step code)
/-- INCIDENT_LOST. In HOT a module of the lost module's side aborts its step; its twin goes on with its own steps, which need nothing of the
stopped module any more; both become REJOINING (R423). -/
def lostIn (s : State) (job subj mile : Nat) : State :=
  let hot := twinMode s = 2
  forJob s job (fun s id =>
    let x := ctx s id
    match x.itin with
    | none => s
    | some i =>
      if hot then
        if subj == partner s then s
        else if i.mods.contains subj then
          let s := ctxOpAll s 1 0 id
          setPst (setTwin (setCtx s id { ctx s id with posted := none, owed := [] }) { s.twin with role := 6, rsync := false }) 7
        else if i.rep.contains subj then setPst (setTwin s { s.twin with role := 3, rsync := false }) 7
        else s
      else if mile = 2 ^ 32 - 1 then contextFail s id cCLOSURE (stepOf s id)
      else
        let b := { x.bar with lost := if x.bar.lost.contains subj then x.bar.lost else x.bar.lost ++ [subj], lostAt := if x.bar.lostAt.contains mile then x.bar.lostAt else x.bar.lostAt ++ [mile] }
        stepFailed (setCtx s id { x with bar := b }) id (if x.bar.phase ≠ 0 then x.bar.step else stepOf s id) cTIMEOUT)
/-- INCIDENT_QUERY: the partner, or the coordinator of a job, is told the latest milestone (R511, R512). -/
def queryIn (s : State) (dev : Nat) : State :=
  let twin := pst s != 0 && dev == partner s
  let asks := fun (x : Ctx) => x.st == 1 && (twin || (match x.itin with | some i => coordinator i x.bar == dev | none => false))
  if !twin && !s.hub.ctxs.any (fun e => asks e.2) then s
  else
    let l := ((s.hub.ctxs.map (·.1)).filter (fun id => asks (ctx s id))).map (latest s)
    let c := l.foldl (fun m n => if mileLe n m then m else n) (l.headD 0)
    postNotice s { dev := dev, kind := 3, subj := thisDev s, mile := c }
/-- INCIDENT_STATE. -/
def stateIn (s : State) (dev : Nat) : State :=
  let s := noticeAnswered s dev (fun n => n.kind == 2)
  if dev = partner s then isolated s else s
/-- The coordinator holds ABORTED from every module not lost (R513). -/
def settleBarrier (s : State) (id : Nat) (i : Itin) : State :=
  let x := ctx s id
  let b := x.bar
  let ms := i.mods.filter (fun m => !b.lost.contains m)
  let cs := ms.filterMap (fun m => (b.aborted.find? (fun e => e.1 == m)).map (·.2))
  if cs.length < ms.length then s
  else
    let l : Nat := match b.lostAt with
      | m :: _ => m
      | [] => cs.foldl (fun a c => if mileLe c a then c else a) (cs.headD 0)
    let ok := decide (b.lostAt.length ≤ 1) && cs.all (fun c => decide ((c + 2 ^ 32 - l) % 2 ^ 32 ≤ 2))
    if !ok then contextFail s id cCLOSURE b.step
    else
      let s := setCtx s id { x with bar := { b with l := l, aborted := [], armed := [] } }
      postAll s ms (fun d => { dev := d, kind := 6, subj := thisDev s, job := i.job, mile := l })
/-- INCIDENT_ABORTED. -/
def abortedIn (s : State) (dev job c : Nat) : State :=
  let s := noticeAnswered s dev (fun n => (n.kind == 1 || n.kind == 4) && n.job == job)
  forJob s job (fun s id =>
    let x := ctx s id
    match x.itin with
    | none => s
    | some i =>
      if x.bar.phase ≠ 1 ∨ coordinator i x.bar ≠ thisDev s then s
      else settleBarrier (setCtx s id { x with bar := { x.bar with aborted := tput x.bar.aborted dev c } }) id i)
/-- A core takes a step's number and its sequencer starts at CORE_SEQ_ENTRY (R513). -/
def startAt (s : State) (c m : Nat) : State :=
  withMate s c (fun s c => seqCtlWrite (setMile s c m) c true (fb s (corePage .core c) fCORE_SEQ_CTL_TRAPHALT) false)
/-- INCIDENT_RESUME: the context's cores restart at L + 1; completions after L are judged on replayed marks and digests (R514). -/
def resumeIn (s : State) (job l : Nat) : State :=
  forJob s job (fun s id =>
    let x := ctx s id
    if x.bar.phase ≠ 1 then s
    else
      let s := ((ctxCores s id).filter (fun c => !isFollower s c)).foldl (fun s c => startAt s c (l + 1)) s
      let owed := x.owed.filter (fun m => mileLe m l)
      let s := setTwin s { s.twin with marked := some l, differ := none, agreed := s.twin.agreed.map (fun a => if mileLe a l then a else l) }
      setCtx s id { ctx s id with mile := if owed.isEmpty then l else x.mile, owed := owed, bar := { x.bar with phase := 2, l := l } })
/-- CONTEXT_ARMED: every core of the context has napped, and none of its positions waits for a rebuild. -/
def contextArmed (s : State) (id : Nat) : State :=
  let x := ctx s id
  let napped := (ctxCores s id).all (fun c => cstate s c == 1 || (match (seqr s c).wait with | .nap _ _ _ _ => true | _ => false))
  match x.itin with
  | none => s
  | some i =>
    if x.bar.phase ≠ 2 ∨ !napped ∨ i.place.any (fun p => coreClosed s p.core) then s
    else postNotice (setCtx s id { x with bar := { x.bar with phase := 3 } }) { dev := coordinator i x.bar, kind := 7, subj := thisDev s, job := i.job, mile := x.bar.l }
/-- INCIDENT_ARMED. -/
def armedIn (s : State) (dev job l : Nat) : State :=
  let s := noticeAnswered s dev (fun n => n.kind == 6 && n.job == job)
  forJob s job (fun s id =>
    let x := ctx s id
    match x.itin with
    | none => s
    | some i =>
      if x.bar.phase = 0 ∨ coordinator i x.bar ≠ thisDev s ∨ x.bar.l ≠ l then s
      else
        let armed := if x.bar.armed.contains dev then x.bar.armed else x.bar.armed ++ [dev]
        let s := setCtx s id { x with bar := { x.bar with armed := armed } }
        let ms := i.mods.filter (fun m => !x.bar.lost.contains m)
        if ms.all (fun m => armed.contains m) then postAll s ms (fun d => { dev := d, kind := 8, subj := thisDev s, job := i.job, mile := l }) else s)
/-- INCIDENT_GO: the step after L is posted and the notice acknowledged. -/
def goIn (s : State) (dev job l : Nat) : State :=
  let s := postNotice s { dev := dev, kind := 10, subj := thisDev s, job := job, mile := l }
  forJob s job (fun s id =>
    let x := ctx s id
    if x.bar.phase ≠ 3 ∨ x.bar.l ≠ l then s
    else postStep (setCtx s id { x with bar := { step := x.bar.step } }) id ((l + 1) % 2 ^ 32))
/-- INCIDENT_POSITION: entries of moved ENs take their new place. -/
def positionIn (s : State) (dev job mile : Nat) (moved : List (Nat × Nat × Nat)) : State :=
  let s := moved.foldl (fun s e =>
    (signBases s).foldl (fun s b =>
      let w := signGet s b e.1
      if bit w 0 then memWrite s (hubEpoch s) (b + 8 * e.1) (natLe 8 (signWord e.1 (bits w 2 10) e.2.1 e.2.2 (bits w 1 1))) false else s) s) s
  postNotice (invalAll s) { dev := dev, kind := 10, subj := thisDev s, job := job, mile := mile }
/-- INCIDENT_ACK. -/
def ackIn (s : State) (dev : Nat) : State :=
  let s := noticeAnswered s dev (fun n => n.kind == 8 || n.kind == 9)
  match s.hub.freeze with
  | some f => setHub s { s.hub with freeze := some { f with waiting := f.waiting.erase dev } }
  | none => s
/-- NOTICE_RESEND of the i-th notice awaiting an answer; after 16 repeats it is sent no more, and a module that left the coordinator's QUERY
unanswered is lost (R512). -/
def noticeResend (s : State) (i : Nat) : State :=
  match s.hub.awaits[i]? with
  | none => s
  | some a =>
    if a.sent ≥ 17 then
      let s := setHub s { s.hub with awaits := s.hub.awaits.eraseIdx i }
      if a.n.kind = 2 then postLost s a.n.dev else s
    else noticeSend (setHub s { s.hub with awaits := lmod (fun a => { a with sent := a.sent + 1 }) s.hub.awaits i }) a.n
/-- BARRIER_TIMEOUT at the coordinator of a context's job. -/
def barrierTimeout (s : State) (id : Nat) : State :=
  let x := ctx s id
  match x.itin with
  | none => s
  | some i =>
    if x.bar.phase = 0 ∨ coordinator i x.bar ≠ thisDev s then s
    else
      let ms := i.mods.filter (fun m => !x.bar.lost.contains m)
      if x.bar.phase = 1 then
        let silent := ms.filter (fun m => (x.bar.aborted.find? (fun e => e.1 == m)).isNone)
        silent.foldl (fun s m => postAll s ms (fun d => { dev := d, kind := 1, subj := m, cause := cTIMEOUT, job := i.job, mile := 2 ^ 32 - 1 })) s
      else postAll s ms (fun d => { dev := d, kind := 4, subj := thisDev s, cause := cTIMEOUT, job := i.job, mile := x.bar.step })

/-! ### Gridlock (R518) -/

/-- The hops a FLOW page holds. -/
def gridPath (s : State) (c : Nat) : List Nat := (List.range (fd s (flowPage c) fFLOW_GRID_STAT_HOPS)).map (fun i => rd64 s (flowPage c) (0x100 + 8 * i))
/-- The core a hop names, where it lies on this module. -/
def hopCore (s : State) (w : Nat) : Option Nat :=
  let die := bits w fFLOW_GRID_PATH_LO_DIE.lo fFLOW_GRID_PATH_LO_DIE.w
  let n := bits w fFLOW_GRID_PATH_LO_CORE.lo fFLOW_GRID_PATH_LO_CORE.w
  if bits w (32 + fFLOW_GRID_PATH_HI_DEVICE.lo) fFLOW_GRID_PATH_HI_DEVICE.w = thisDev s ∧ die < 8 ∧ n < 144 then some (144 * die + n) else none
/-- GRIDLOCK_RECOVERY from the capture of a core's FLOW page. -/
def gridRecover (s : State) (c : Nat) : State :=
  if !fb s (flowPage c) fFLOW_GRID_STAT_FOUND then s
  else
    let cores := (gridPath s c).filterMap (hopCore s)
    let s := gridClear s c
    let loose := cores.filter (fun c => !bit (rd s (corePage .core c) 0xC) 16)
    if !loose.isEmpty then loose.eraseDups.foldl coreReset s
    else
      let ids := (cores.map (fun c => rd s (corePage .core c) 0xC % 65536 / 64)).eraseDups
      ids.foldl (fun s id => postAbort s id (stepOf s id) cTIMEOUT) s

end Sys2Proof.Machine
end

