-- ==== Sys2Proof/Machine/GradeOps.lean ====
section
/-! DEFINITION. Bridges, good cores, grades (R467, R470, R474, R534–R537). -/
namespace Sys2Proof.Machine
open Sys2Proof

def goodCores (s : State) (d : Nat) : Nat := countp (fun i => !coreClosed s (144 * d + i)) (List.range 144)
def dieActive (s : State) (d : Nat) : Bool := !closed s (cmDie d) && (fb s (diePage .die d) fDIE_STATUS_CTL0_OK || fb s (diePage .die d) fDIE_STATUS_CTL1_OK)
def stackUp (s : State) (m : Nat) : Bool := !closed s (cmStack m) && fd s (memcPage m) fMEMC_STATUS_STATE == 2
/-- Dies that a die reaches over bridges in service. -/
def reach (s : State) : Nat → List Nat → List Nat
  | 0, l => l
  | n + 1, l =>
    let more := (List.range 38).filterMap (fun b =>
      if closed s (cmBridge b) then none
      else
        let e := bridgeEnds b
        if l.contains e.1 && !l.contains e.2 then some e.2 else if l.contains e.2 && !l.contains e.1 then some e.1 else none)
    reach s n (l ++ more.eraseDups)
/-- A cluster of a die with a core that is not closed. -/
def hasCluster (s : State) (d : Nat) : Bool := (List.range 36).any (fun k => !closed s (cmCluster (36 * d + k)) && (clusterCores (36 * d + k)).any (fun c => !coreClosed s c))
/-- The smallest serving set (R535). -/
def smallest (s : State) : Bool :=
  !fb s (hubPage .clk) fCLK_STATUS_XTAL_FAIL && fd s aon fAON_GRADE_IN0_HCORES != 0 && decide (3 ≤ fd s hostPg fHOST_STATUS_WIDTH) &&
  (List.range 8).any (fun d => dieActive s d && hasCluster s d && (let r := reach s 8 [d]; (List.range 16).any (fun m => stackUp s m && r.contains (m / 2))))
def upPorts (s : State) (lo n : Nat) : Nat := countp (fun i => isUp s (lo + i)) (List.range n)

/-- The inputs of the grade, as AON_GRADE_WHY gives the conditions unmet (R543). -/
def gradeWhy (s : State) : Nat :=
  let cd := (List.range 8).all (fun d => dieActive s d)
  let few := (List.range 8).any (fun d => decide (goodCores s d < 128))
  let st := (List.range 16).all (fun m => stackUp s m)
  let pd := dieActive s 9 && dieActive s 10
  let w := fd s hostPg fHOST_STATUS_WIDTH
  let br := countp (fun b => closed s (cmBridge b)) (List.range 38)
  let total := ((List.range 8).map (goodCores s)).sum
  let l := [!cd, few, !st, !pd, w != 5, decide (upPorts s 0 36 < fd s aon fAON_START_CFG_FP_MIN), decide (upPorts s 36 4 < fd s aon fAON_START_CFG_CW_MIN), decide (1 < br),
    decide (total < 896), decide (w < 4), fb s aon fAON_READY_WAITFAB, fb s (hubPage .clk) fCLK_STATUS_XTAL_FAIL, !smallest s]
  (List.range 13).foldl (fun n i => if l.getD i false then n + 2 ^ i else n) 0
/-- The grade by the first row whose conditions hold (R535); UNSERVICEABLE with XTAL_FAIL (R526, R565). -/
def gradeCode (why : Nat) : Nat :=
  let no := fun (l : List Nat) => l.all (fun i => !bit why i)
  if bit why 11 then 0 else if no [0, 1, 2, 3, 4, 5, 6, 7] then 3 else if no [2, 3, 5, 6, 8, 9] then 2 else if no [12] then 1 else 0
/-- The grade with a host link of x16, which tells a fall caused by the link's width alone (R537). -/
def gradeBut (why : Nat) : Nat := gradeCode (why - (if bit why 4 then 16 else 0) - (if bit why 9 then 512 else 0))
/-- The registers that show the inputs. -/
def gradeInputs (s : State) : State :=
  let m := fun (n : Nat) (f : Nat → Bool) => (List.range n).foldl (fun v i => if f i then v + 2 ^ i else v) 0
  let s := fdSet s aon fAON_GRADE_IN0_CDIES (m 8 (dieActive s))
  let s := fdSet s aon fAON_GRADE_IN0_PDIES (m 2 (fun i => dieActive s (9 + i)))
  let s := fdSet s aon fAON_GRADE_IN0_STACKS (countp (stackUp s) (List.range 16))
  let s := fdSet s aon fAON_GRADE_IN0_HOSTW (fd s hostPg fHOST_STATUS_WIDTH)
  let s := fdSet s aon fAON_GRADE_IN1_FPUP (upPorts s 0 36)
  let s := fdSet s aon fAON_GRADE_IN1_CWUP (upPorts s 36 4)
  let s := fdSet s aon fAON_GRADE_IN1_BRCL (countp (fun b => closed s (cmBridge b)) (List.range 38))
  let s := (List.range 4).foldl (fun s i => fdSet (fdSet s aon (fAON_GOOD0_GOOD.sub i) (goodCores s i)) aon (fAON_GOOD1_GOOD.sub i) (goodCores s (4 + i))) s
  wr s aon 0x140 (gradeWhy s)

/-- The grade is evaluated again (R534, R536, R537). -/
def gradeEval (s : State) : State :=
  let s := gradeInputs s
  if !fb s aon fAON_READY_DONE then s
  else
    let why := gradeWhy s
    let old := gradeOf s
    let new := gradeCode why
    if new = old then s
    else
      let s := raiseInt (fdSet s aon fAON_READY_GRADE new) aon 11
      let s := pldmEvent (hostEvent s 1) 2 new
      let s := if new = 0 then (s.hub.ctxs.map (·.1)).foldl (fun s id => if (ctx s id).st = 1 then contextFail s id cCLOSURE (stepOf s id) else s) s else s
      if pst s = 3 ∧ new < 2 ∧ 2 ≤ old ∧ gradeBut why < 2 then moduleReset s 4 true else s

end Sys2Proof.Machine
end

