-- ==== Sys2Proof/Machine/CloseOps.lean ====
section
/-! DEFINITION. Closures, the closure map, moving work, roadworks, the calibration scheduler, the drain of HEAL logs (R462, R463, R467–R494). -/
namespace Sys2Proof.Machine
open Sys2Proof

/-! ### The lay-by pool (R472, R474) -/

/-- A core that holds work. -/
def serves (s : State) (c : Nat) : Bool := !coreClosed s c && !underTest s c && coreBound s c
def dieCount (d : Nat) (f : Nat → Bool) : Nat := countp (fun i => f (144 * d + i)) (List.range 144)
/-- The four counts of HEAL_POOL: service, lay-bys, under roadworks (with the cores that wait for it before they join the pool, log entry 139),
closed. -/
def poolCounts (s : State) (d : Nat) : List Nat :=
  let idle := fun c => !coreClosed s c && !underTest s c && !coreBound s c
  [dieCount d (serves s), dieCount d (fun c => idle c && !tget false s.heal.untested c),
   dieCount d (fun c => (!coreClosed s c && underTest s c) || (idle c && tget false s.heal.untested c)), dieCount d (coreClosed s)]
def poolWord (s : State) (d : Nat) : Nat :=
  let l := poolCounts s d
  l.getD 0 0 + 2 ^ 8 * l.getD 1 0 + 2 ^ 16 * l.getD 2 0 + 2 ^ 24 * l.getD 3 0
def slotsHeld (s : State) (d : Nat) : Nat := countp (fun e => e.2 && decide (e.1 / 144 = d)) s.heal.slots
/-- Hub firmware logs a pool or power slots of a die that are out of balance, and no more follows (R24, R25); the record's code, source and
detail are not stated (log entry 4). -/
def poolCheck (s : State) (d : Nat) : State :=
  if s.hub.freeze.isNone && ((poolCounts s d).sum != 144 || decide (2 < slotsHeld s d)) then
    let f := freeVal s
    hubLog (freeUsed s) { time := s.now, code := codesUsed.getD (f % 12) cOK, source := f / 2 ^ 8 % 256, type := 0x28, inst := 0, detail := f / 2 ^ 16 % 2 ^ 16, die := 8 }
  else s
/-- Visits a die may hold at once. -/
def visitLimit (s : State) (d : Nat) : Nat := min (fd s hubHeal fHEAL_RWCFG_MAXV) (if goodCores s d ≥ 131 then 2 else 1)
def visitsOn (s : State) (d : Nat) : Nat := countp (fun e => decide (e.1 / 144 = d)) s.heal.visits

/-- The home copy of a region: its words, and whether memory gives poison. -/
def homeCopy (s : State) (c r : Nat) : List DWord × Bool :=
  let b := memReadSpan s (hubEpoch s) (fd s (spadPage c) (fSPAD_REGION_HOME.at r) * 65536) 65536
  (bytesWords 8192 b.1, b.2)

/-! ### Home copies from the partner (R421) -/

/-- The reads of a home copy in the partner's shadow, chunk by chunk over the live CW ports. -/
def askHome (s : State) (f : HomeFetch) : State :=
  let l := cwLive s
  let home := fd s (spadPage f.core) (fSPAD_REGION_HOME.at f.region) * 65536
  if l.isEmpty then s
  else f.left.foldl (fun s i => cwSend s (36 + l.getD (i % l.length) 0)
    { type := 8, vc := 0, ddev := partner s, sdev := thisDev s, sdie := 8, sunit := 0xE0, auth := 2, addr := Config.shadowHome home % 2 ^ 24 * 65536 + 512 * i, rlen := 512, rid := i }) s
/-- A home copy to be fetched, behind those under way. -/
def fetchHome (s : State) (c r : Nat) : State :=
  if s.twin.fetches.any (fun f => f.core == c && f.region == r) then s
  else
    let f : HomeFetch := { core := c, region := r, left := List.range 128 }
    let first := s.twin.fetches.isEmpty
    let s := setTwin s { s.twin with fetches := s.twin.fetches ++ [f] }
    if first then askHome s f else s
/-- The module has a partner whose shadow holds its home copies. -/
def hasShadow (s : State) : Bool := pst s != 0 && pst s != 6 && !(cwLive s).isEmpty
/-- The class W regions whose home copies a slice's loss has poisoned (R355). -/
def poisonedHomes (s : State) : List (Nat × Nat) :=
  s.regs.filterMap (fun e => match pageOf (e.1 / 1024) with
    | some p =>
      let off := 4 * (e.1 % 1024)
      let r := (off - 0x400) / 4
      if p.blk == .spad && decide (0x400 ≤ off) && decide (off < 0x600) && regionF s (144 * p.die + p.inst) r fSPAD_REGION_CLASS && regionF s (144 * p.die + p.inst) r fSPAD_REGION_HOMEV && (homeCopy s (144 * p.die + p.inst) r).2
      then some ((144 * p.die + p.inst), r) else none
    | none => none)
/-- Those home copies are fetched from the partner, where there is one. -/
def fetchHomes (s : State) : State := if hasShadow s then (poisonedHomes s).foldl (fun s e => fetchHome s e.1 e.2) s else s

/-! ### Effects of a closure (R467) -/

def markClosed (s : State) (i : Nat) : State := { s with fieldMap := tput s.fieldMap (i / 32) (tget 0 s.fieldMap (i / 32) ||| BitVec.ofNat 32 (2 ^ (i % 32))) }
def markOpen (s : State) (i : Nat) : State :=
  let w := tget 0 s.fieldMap (i / 32)
  { s with fieldMap := tput s.fieldMap (i / 32) (w &&& ~~~(BitVec.ofNat 32 (2 ^ (i % 32)))) }
/-- A core is fenced: OFF, its banks CLOSED, its contents gone; the router goes on. -/
def fenceCore (s : State) (c : Nat) : State :=
  let s := visitDrop (movesLose (markClosed s (cmCore c)) c) c
  let s := coreFields (setCore s c { rt := { bufs := (core s c).rt.bufs, held := (core s c).rt.held, comb := (core s c).rt.comb, rep := (core s c).rt.rep } }) c
  setBanks (setCstate s c 3) c 7
/-- A core and the other of its pair, which close together (R449). -/
def fencePair (s : State) (c : Nat) : State := (pairOf s c).foldl fenceCore s
def fenceCluster (s : State) (k : Nat) : State :=
  let s := (clusterCores k).foldl fenceCore (markClosed s (cmCluster k))
  fdSet (fdSet s (clusPage k) fCLUS_STATUS_RAIL 0) (clusPage k) fCLUS_STATUS_PLL 0
def fenceRouter (s : State) (c : Nat) : State :=
  let s := fencePair (markClosed s (cmRouter c)) c
  setRout s c { rep := (rout s c).rep }
def fencePort (s : State) (p : Nat) : State := portDisable (markClosed s (cmPort p)) p
def fenceStack (s : State) (m : Nat) : State :=
  let s := (List.range 32).foldl (fun s ch => closeSlice s (32 * m + ch)) (markClosed s (cmStack m))
  fdSet s (memcPage m) fMEMC_STATUS_STATE 0
/-- A stack's second closed slice closes the stack (R357). -/
def secondClosed (s : State) (m : Nat) : State := if countp (fun ch => closed s (cmSlice (32 * m + ch))) (List.range 32) ≥ 2 then fenceStack s m else s
/-- A slice that closes (R355, R357). -/
def fenceSlice (s : State) (g : Nat) : State :=
  let m := g / 32
  let lost := (slice s g).ss ≠ 2 ∧ (slice s g).ss ≠ 3 ∧ !closed s (cmSlice g)
  let s := if lost then loseSlice s g else s
  let s := closeSlice s g
  let s := if lost then fetchHomes s else s
  secondClosed s m
def fenceDie (s : State) (d : Nat) : State :=
  let s := markClosed s (cmDie d)
  let s := (List.range 38).foldl (fun s b => if (bridgeEnds b).1 = d ∨ (bridgeEnds b).2 = d then markClosed s (cmBridge b) else s) s
  let s := if d < 8 then
      let s := (List.range 36).foldl (fun s k => fenceCluster s (36 * d + k)) s
      let s := (List.range 144).foldl (fun s i => fenceRouter s (144 * d + i)) s
      fenceStack (fenceStack s (2 * d)) (2 * d + 1)
    else (List.range 40).foldl (fun s p => if portDie p = d then fencePort s p else s) s
  fdSet (fdSet (fdSet s (diePage .die d) fDIE_STATUS_CTL0_OK 0) (diePage .die d) fDIE_STATUS_CTL1_OK 0) (diePage .pwr d) fPWR_STATUS_DSTATE 0
def fenceLane (s : State) (p dir l : Nat) : State :=
  let s := markClosed s (cmLane p dir l)
  if dir = 0 then
    let s := laneFail s p l false
    fdSet s (portPage p) fPORT_LANE_RXFAIL (fd s (portPage p) fPORT_LANE_RXFAIL ||| 2 ^ l)
  else fdSet s (portPage p) fPORT_LANE_TXFAIL (fd s (portPage p) fPORT_LANE_TXFAIL ||| 2 ^ l)

/-- The unit a HEAL_CLOSE word names: its bit in the map; none where KIND is reserved, an index is out of range, or the unit is the hub die. -/
def closeBit (v : Nat) : Option Nat :=
  let die := bits v 4 4
  let idx := bits v 8 8
  let sub := bits v 16 6
  match v % 16 with
  | 0 => if die < 8 ∧ idx < 144 then some (cmCore (144 * die + idx)) else none
  | 1 => if die < 8 ∧ idx < 36 then some (cmCluster (36 * die + idx)) else none
  | 2 => if die < 8 ∧ idx < 144 then some (cmRouter (144 * die + idx)) else none
  | 3 => if die < 8 ∧ idx < 144 then some (cmBank (144 * die + idx) sub) else none
  | 4 => if idx < 40 ∧ sub < 9 then some (cmLane idx (bits v 22 1) sub) else none
  | 5 => if idx < 40 then some (cmPort idx) else none
  | 6 => if idx < 16 ∧ sub < 32 then some (cmSlice (32 * idx + sub)) else none
  | 7 => if idx < 16 then some (cmStack idx) else none
  | 8 => if die < 11 ∧ die ≠ 8 then some (cmDie die) else none
  | 9 => if idx < 38 then some (cmBridge idx) else none
  | _ => none
/-- The closure of the unit and of what it also closes. -/
def fenceUnit (s : State) (v : Nat) : State :=
  let die := bits v 4 4
  let idx := bits v 8 8
  let sub := bits v 16 6
  match v % 16 with
  | 0 => fencePair s (144 * die + idx)
  | 1 => fenceCluster s (36 * die + idx)
  | 2 => fenceRouter s (144 * die + idx)
  | 3 => fencePair (markClosed s (cmBank (144 * die + idx) sub)) (144 * die + idx)
  | 4 => fenceLane s idx (bits v 22 1) sub
  | 5 => fencePort s idx
  | 6 => fenceSlice s (32 * idx + sub)
  | 7 => fenceStack s idx
  | 8 => fenceDie s die
  | _ => markClosed s (cmBridge idx)
/-- What every change of the field closures leaves: a save due, the events of R599, the grade (R471, R534). -/
def mapChanged (s : State) (bitNo : Nat) : State := gradeEval (pldmEvent (fdSet s hubHeal fHEAL_HSTATUS_SAVEPEND 1) 1 bitNo)
/-- The cores that a closure takes. -/
def coresOf (s : State) (v : Nat) : List Nat :=
  let die := bits v 4 4
  let c := 144 * die + bits v 8 8
  match v % 16 with
  | 0 => pairOf s c
  | 1 => clusterCores (36 * die + bits v 8 8)
  | 2 => pairOf s c
  | 3 => pairOf s c
  | 8 => if die < 8 then (List.range 144).map (144 * die + ·) else []
  | _ => []
/-- The contexts whose work a closure takes with it. -/
def losers (s : State) (v : Nat) : List Nat :=
  (((coresOf s v).filter (serves s)).map (fun c => rd s (corePage .core c) 0xC % 65536 / 64)).eraseDups
def anyLayby (s : State) : Bool := (List.range 1152).any (isLayby s)
/-- Work is lost: the step is replayed once a lay-by holds it (R468, R482, R512); where the module has none the steps end with CLOSURE, and the context
runs again only under an itinerary compiled for fewer cores (R475). -/
def workLost (s : State) (id : Nat) : State :=
  if (ctx s id).st ≠ 1 then s
  else
    let m := stepOf s id
    let s := postAbort s id m cCLOSURE
    if anyLayby s then s
    else
      let s := contextFail s id cCLOSURE m
      setCtx s id { ctx s id with barred := (ctx s id).itin.map (fun i => i.place.length) }
/-- A unit closed, by the word HEAL_CLOSE would take. -/
def closeUnit (s : State) (v : Nat) : State :=
  match closeBit v with
  | none => s
  | some b =>
    let ids := losers s v
    let s := mapChanged (raiseInt (bump (fenceUnit s v) hubHeal 0xC00) hubHeal 8) b
    ids.foldl workLost s
def closeCoreWord (c : Nat) : Nat := 2 ^ 4 * (c / 144) + 2 ^ 8 * (c % 144)

/-- A core whose closures are all withdrawn waits OFF for roadworks before it joins the pool; a bank with a closure of its own stays CLOSED (R469). -/
def awaitTest (s : State) (c : Nat) : State :=
  if coreClosed s c || closed s (cmCluster (clusterOf c)) || closed s (cmRouter c) then s
  else
    let s := setBanks (setCstate s c 2) c 2
    let s := (List.range 64).foldl (fun s b => if closed s (cmBank c b) then setBank s c b 7 else s) s
    let s := setHeal s { s.heal with untested := tput s.heal.untested c true }
    setLadder s c { ladder s c with rwpend := true }
/-- A withdrawn unit (R469). -/
def withdrawUnit (s : State) (v b : Nat) : State :=
  let s := if 6 ≤ v % 16 ∧ v % 16 ≤ 8 ∧ closed s b then setHeal s { s.heal with still := s.heal.still ++ [b] } else s
  let s := markOpen s b
  let c := 144 * bits v 4 4 + bits v 8 8
  match v % 16 with
  | 0 => awaitTest s c
  | 1 => (clusterCores (36 * bits v 4 4 + bits v 8 8)).foldl awaitTest s
  | 2 => awaitTest s c
  | 3 => awaitTest (setBank s c (bits v 16 6) 2) c
  | 5 => if fb s (portPage (bits v 8 8)) fPORT_CTL_ENABLE then portEnable s (bits v 8 8) else s
  | _ => s
def closeRefused (s : State) (v code : Nat) : State :=
  raiseInt (errAt (fdSet s hubHeal fHEAL_CLOSE_STAT_CODE code) hubHeal code 0xD4 (v % 16) 0 0) hubHeal 9
/-- A write of HEAL_CLOSE by a class (R491). -/
def healClose (s : State) (cls v : Nat) : State :=
  if !bit v 31 then s
  else if cls = 2 ∧ fb s (hubPage .auth) fAUTH_STATUS_MGMTCLOSED then closeRefused s v cDENIED
  else match closeBit v with
    | none => closeRefused s v cRANGE
    | some b =>
      let fused := bit (tget 0 s.fuseMap (b / 32)).toNat (b % 32)
      if bit v 23 ∧ fused then closeRefused s v cDENIED
      else if fb s hubHeal fHEAL_HSTATUS_CLOSEBUSY then closeRefused s v cNOT_READY
      else
        let s := fdSet s hubHeal fHEAL_CLOSE_STAT_CODE cOK
        if bit v 23 then mapChanged (bump (withdrawUnit s v b) hubHeal 0xC08) b else closeUnit s v
/-- CLOSURE_MAP_SAVE to the older flash slot; `ok` says the save succeeded (R471). -/
def mapSave (s : State) (ok : Bool) : State :=
  if !fb s hubHeal fHEAL_HSTATUS_SAVEPEND then s
  else
    let seq := rd s hubHeal 0x58
    let n := (seq + 1) % 2 ^ 32
    let slot := match s.heal.flash0, s.heal.flash1 with | none, _ => 0 | _, none => 1 | some a, some b => if mileLe a.1 b.1 then 0 else 1
    if !ok then raiseInt (errAt s hubHeal cTIMEOUT 0xD8 slot 0 0) hubHeal 13
    else
      let s := if slot = 0 then setHeal s { s.heal with flash0 := some (n, s.fieldMap) } else setHeal s { s.heal with flash1 := some (n, s.fieldMap) }
      fdSet (wr s hubHeal 0x58 n) hubHeal fHEAL_HSTATUS_SAVEPEND 0
/-- CLOSURE_MAP_RESTORE (R471): the valid slot with the later number, and the closures of the map in force. -/
def mapRestore (s : State) : State :=
  let best := match s.heal.flash0, s.heal.flash1 with
    | none, x => x
    | x, none => x
    | some a, some b => if mileLe a.1 b.1 then some b else some a
  match best with
  | none => fdSet { s with fieldMap := [] } hubHeal fHEAL_HSTATUS_MAPERR 1
  | some (n, m) => fdSet (wr { s with fieldMap := m } hubHeal 0x58 n) hubHeal fHEAL_HSTATUS_MAPERR 0

/-! ### Moving work (R476–R482) -/

/-- Rows of a core that are dirty. -/
def dirtyRows (s : State) (c : Nat) : Nat := ((core s c).sp.dirty.filter (·.2)).length
/-- The RW fields of the block controls of some pages of a core copied to another (R476). -/
def copyFields (s : State) (blks : List Blk) (src dst : Nat) : State :=
  blks.foldl (fun s b =>
    b.regs.foldl (fun s r => (List.range r.count).foldl (fun s i =>
      let off := r.off + r.stride * i
      if off ≥ 0x800 then s
      else
        let from_ := rd s (corePage b src) off
        let v := r.fields.foldl (fun v f => if f.acc == .rw then setBits v f.lo f.w (bits from_ f.lo f.w) else v) (rd s (corePage b dst) off)
        wr s (corePage b dst) off v) s) s) s
/-- Both configuration buffers, with ACTIVE, EPOCH and VALID. -/
def copyBuffers (s : State) (src dst : Nat) : State :=
  let s := setCore s dst { core s dst with fab := { (core s dst).fab with buf0 := (core s src).fab.buf0, buf1 := (core s src).fab.buf1 } }
  [fFLOW_STATUS_ACTIVE, fFLOW_STATUS_EPOCH, fFLOW_CFG_STATUS_VALID0, fFLOW_CFG_STATUS_VALID1].foldl (fun s f => fdSet s (flowPage dst) f (fd s (flowPage src) f)) s
/-- The positions whose core is closed, with their contexts, by context and rank. -/
def lostPlaces (s : State) : List (Nat × Place) :=
  (s.hub.ctxs.map (fun e => match e.2.itin with
    | some i => (i.place.filter (fun p => coreClosed s p.core)).map (fun p => (e.1, p))
    | none => [])).flatten
/-- The position a rebuild is for: the first that no other mover rebuilds. -/
def lostPlace (s : State) : Option (Nat × Place) :=
  (lostPlaces s).find? (fun q => s.heal.movers.all (fun e => !(e.2.mode == 1 && decide (1 ≤ e.2.phase) && decide (e.2.phase ≤ 5) && e.2.en == q.2.en)))
/-- The position that a rebuild has begun for. -/
def lostFor (s : State) (en : Nat) : Option (Nat × Place) := (lostPlaces s).find? (fun q => q.2.en == en)
/-- Bridges in service join two dies. -/
def bridged (s : State) (d e : Nat) : Bool := (List.range 38).any (fun b => !closed s (cmBridge b) && (bridgeEnds b == (d, e) || bridgeEnds b == (e, d)))
/-- How near a core lies to a position's: its mesh hops on the same die, then a neighbouring die, then any (R473). -/
def laybyRank (s : State) (c e : Nat) : Nat :=
  let gap := fun (a b : Nat) => (a - b) + (b - a)
  if c / 144 = e / 144 then gap (c % 144 / 12) (e % 144 / 12) + gap (c % 12) (e % 12) else if bridged s (c / 144) (e / 144) then 32 else 33
/-- A lay-by that may take a core's work: work of a paired cluster goes to a pair of lay-bys in a paired cluster (R449, R473). -/
def mayTake (s : State) (c e : Nat) : Bool := isLayby s e && (!corePaired s c || (isLeader s e && isLayby s (e + 1)))
/-- The lay-by is one that release 3 chooses for the position (R473). -/
def chosen (s : State) (c e : Nat) : Bool :=
  mayTake s c e && (List.range 1152).all (fun f => decide (laybyRank s c e ≤ laybyRank s c f) || !mayTake s c f)
/-- A move's pairs of cores: the follower's work goes with its leader's (R449). -/
def moveCores (s : State) (src dst : Nat) : List (Nat × Nat) := if isLeader s dst && isLeader s src then [(src, dst), (src + 1, dst + 1)] else [(src, dst)]
/-- A write of HEAL_MV_CTL with GO; release 3 names no lay-by but one of its choice (log entry 141). -/
def moveStart (s : State) (k mode : Nat) (fw : Bool) : State :=
  let m := mover s k
  if !(m.phase == 0 || m.phase == 6 || m.phase == 7) then s
  else
    let sd := m.srcW % 16
    let sc := bits m.srcW 4 8
    let dd := m.dstW % 16
    let dc := bits m.dstW 4 8
    let src := 144 * sd + sc
    let dst := 144 * dd + dc
    let ok := decide (dd < 8) && decide (dc < 144) && (mode == 1 || (decide (sd < 8) && decide (sc < 144)))
    let lost := lostPlace s
    let from_ := if mode = 1 then (match lost with | some (_, p) => p.core | none => dst) else src
    if ok && fw && isLayby s dst && !chosen s from_ dst then s
    else
      let s := setMover s k { m with mode := mode, phase := 0, src := if mode = 1 then 1152 else src, dst := dst, passes := 0, code := 0 }
      if !ok then moveAborted s k cRANGE
      else if coreClosed s dst then moveAborted s k cCLOSURE
      else if !mayTake s from_ dst ∨ (mode = 1 ∧ lost.isNone) ∨ (mode = 0 ∧ (!coreBound s src ∨ isFollower s src)) then moveAborted s k cRANGE
      else
        let en := if mode = 1 then (match lost with | some (_, p) => p.en | none => 0) else coreEn s src
        let s := setMover s k { mover s k with phase := 1, en := en }
        let s := if from_ / 144 = dd then s else bump s hubHeal 0xC20
        let s := if dieCount dd (isLayby s) = 0 then raiseInt (errAt s hubHeal cNOT_READY 0xD7 dd 0 0) hubHeal 12 else s
        poolCheck (withMate s dst (fun s c => applyTarget (setTarget s c 0) c 0)) dd
/-- ABORT written. -/
def moveAbort (s : State) (k : Nat) : State := if 1 ≤ (mover s k).phase ∧ (mover s k).phase ≤ 4 then moveAborted s k cPURGED else s
/-- MOVE_PREPARED. -/
def movePrepared (s : State) (k : Nat) : State :=
  let m := mover s k
  if m.phase ≠ 1 then s
  else
    let s := withMate s m.dst (fun s c => banksOn (coreReset s c) c)
    let s := if m.mode = 1 then
        match lostFor s m.en with
        | some (id, p) => p.regs.foldl (fun s e => withMate s m.dst (fun s c => wr s (corePage (imgBlk e.1) c) e.2.1 e.2.2.toNat)) (bindCore s m.dst (ctxTag s id) true)
        | none => s
      else
        let s := (moveCores s m.src m.dst).foldl (fun s e =>
          let s := copyBuffers (retargetAll (copyFields s [.core, .flow, .spad, .qeng] e.1 e.2) e.2 64) e.1 e.2
          (List.range 128).foldl (fun s r => fdSet s (spadPage e.1) (fSPAD_REGION_TRACK.at r) 1) s) s
        bindCore s m.dst (rd s (corePage .core m.src) 0xC % 65536) true
    setMover (syncHolds s [m.dst]) k { mover s k with phase := 2 }
/-- Rows of a core's scratchpad that meet a test, `n` of them, copied with their poison; a word that cannot be read is copied poisoned. As every
write they cancel write-backs, set dirty bits, and are counted, as are the reads (R205, R206, R217, R226). -/
def copyRows (s : State) (src dst : Nat) (f : Nat → Bool) (n : Nat) : State :=
  let a := (core s src).sp.settled
  let k := core s dst
  let there := fun (w : Nat) => f (rowOf w)
  let bad := (a.flips.map (·.1)).filter (fun w => there w && flipsFind { sp := a } (regionF s src (regionOf w) fSPAD_REGION_CLASS) w == .uncorrectable)
  let ws := a.words.foldl (fun t e => if there e.1 then tput t e.1 e.2 else t) (tfilter (fun w _ => !there w) k.sp.words)
  let ps := a.pois.foldl (fun t e => if there e.1 then tput t e.1 e.2 else t) (tfilter (fun w _ => !there w) k.sp.pois)
  let ws := bad.foldl (fun t w => tdel t w) ws
  let ps := bad.foldl (fun t w => tput t w true) ps
  let track := (List.range 128).filter (fun r => regionF s dst r fSPAD_REGION_TRACK)
  let rows := track.flatMap (fun r => ((List.range 128).map (128 * r + ·)).filter f)
  let dirty := rows.foldl (fun t i => tput t i true) k.sp.dirty
  let x := { k.sp with words := ws, pois := ps, flips := tfilter (fun w _ => !there w) k.sp.flips, wback := k.sp.wback.filter (fun e => !there e.1), dirty := dirty }
  bumpBy (bumpBy (setCore s dst { k with sp := x }) (spadPage dst) 0xC38 (64 * n)) (spadPage src) 0xC38 (64 * n)
/-- Regions with a home copy loaded from it, every other left zero; a class W region whose home copy is lost goes on HOLD until it has come from the
partner's shadow (R217, R421, R482, R500). -/
def loadHomes (s : State) (c : Nat) : State :=
  (List.range 128).foldl (fun s r =>
    let h := if regionF s c r fSPAD_REGION_HOMEV then homeCopy s c r else ([], false)
    if h.2 && regionF s c r fSPAD_REGION_CLASS then
      let s := fdSet (regionFill s c r [] false) (spadPage c) (fSPAD_REGION_HOLD.at r) 1
      if hasShadow s then fetchHome s c r else s
    else regionFill s c r h.1 h.2) s
/-- A position's core becomes another in its context's itinerary. -/
def replaceCore (s : State) (en dst : Nat) : State :=
  let f := fun (x : Ctx) => match x.itin with
    | some i => { x with itin := some { i with place := i.place.map (fun p => if p.en == en then { p with core := dst } else p) } }
    | none => x
  setHub s { s.hub with ctxs := tmap (fun _ x => f x) s.hub.ctxs }
/-- MOVE_COPY_DONE. A rebuild is done when its regions are loaded. -/
def moveCopied (s : State) (k : Nat) : State :=
  let m := mover s k
  if m.phase ≠ 2 then s
  else if m.mode = 1 then
    let lost := lostFor s m.en
    let img := match lost with | some (_, p) => p.img | none => 0
    let s := withMate s m.dst (fun s c => loadLocal (loadHomes s c) c img)
    let s := signPut s m.en (signWord m.en (thisDev s) (m.dst / 144) (m.dst % 144) 0)
    let s := fdSet (invalAll s) (rPage m.dst) fROUT_EN_EN m.en
    let s := setMover (bump (replaceCore s m.en m.dst) hubHeal 0xC18) k { m with phase := 6, code := cOK }
    match lost with
    | some (id, _) => if (ctx s id).bar.phase = 2 then startAt s m.dst ((ctx s id).bar.l + 1) else s
    | none => s
  else setMover ((moveCores s m.src m.dst).foldl (fun s e => copyRows s e.1 e.2 (fun _ => true) 16384) s) k { m with phase := 3 }
/-- Dirty rows copied and their bits cleared. -/
def copyDirty (s : State) (src dst : Nat) : State :=
  let d := (core s src).sp.dirty
  let s := copyRows s src dst (tget false d) (dirtyRows s src)
  setCore s src { core s src with sp := { (core s src).sp with dirty := [] } }
/-- The dirty rows of what a move moves. -/
def moveRows (s : State) (m : Mover) : Nat := ((moveCores s m.src m.dst).map (fun e => dirtyRows s e.1)).sum
/-- TRACKING_PASS. A move that is ready falls back when too many rows are dirty. -/
def trackingPass (s : State) (k : Nat) : State :=
  let m := mover s k
  if m.phase ≠ 3 ∧ m.phase ≠ 4 then s
  else if m.phase = 4 ∧ moveRows s m ≤ fd s hubHeal fHEAL_FREEZE_ROWS then s
  else
    let s := (moveCores s m.src m.dst).foldl (fun s e => copyDirty s e.1 e.2) s
    setMover s k { m with passes := (m.passes + 1) % 65536, phase := if moveRows s m ≤ fd s hubHeal fHEAL_FREEZE_ROWS then 4 else 3 }

/-- The fabric rests as a freeze needs: every enabled link holds exactly its PRELOAD tokens of value PVAL and nothing is in flight (R480). -/
def fabricFresh (s : State) (c : Nat) : Bool :=
  (linksOn s c).all (fun n =>
    let l := link s c n
    let f := startLink s c n
    l.fly.isEmpty && l.cfly == 0 && l.pipe == 0 && l.q.map (·.val) == f.q.map (·.val))
/-- What a freeze needs of a departing core beside its dirty rows (R480). -/
def freezeOk (s : State) (c : Nat) : Bool :=
  let q := qe s c
  fabricFresh s c && q.sendq.isEmpty && q.unacked.isEmpty && (dmaList s c).isEmpty &&
  q.reasm.isEmpty && q.slots.all (fun e => e.2.j0.st != 1 && e.2.j1.st != 1)
/-- CUTOVER_FREEZE at a milestone (R478–R480). -/
def cutoverFreeze (s : State) (m : Nat) : State :=
  let every := max 1 (fd s hubHeal fHEAL_RWCFG_CUTEVERY)
  if m % every ≠ 0 ∨ s.hub.freeze.isSome then s
  else
    let ready := (List.range 16).filter (fun k => (mover s k).phase == 4 &&
      (!(ladder s (mover s k).src).rwpend || tget false s.heal.slots (mover s k).src) &&
      (let id := rd s (corePage .core (mover s k).src) 0xC % 65536 / 64; (ctx s id).mile == m || allMiled s id m))
    let go := ready.filter (fun k => decide (moveRows s (mover s k) ≤ fd s hubHeal fHEAL_FREEZE_ROWS) && (moveCores s (mover s k).src (mover s k).dst).all (fun e => freezeOk s e.1))
    let s := ready.foldl (fun s k => if go.contains k then s else setMover (bump s hubHeal 0xC40) k { mover s k with phase := 3 }) s
    if go.isEmpty then s
    else
      let moved := go.map (fun k => ((mover s k).en, (mover s k).dst / 144, (mover s k).dst % 144))
      let ids := (go.map (fun k => rd s (corePage .core (mover s k).src) 0xC % 65536 / 64)).eraseDups
      let s := go.foldl (fun s k => (moveCores s (mover s k).src (mover s k).dst).foldl (fun s e => setCore s e.1 { core s e.1 with frozen := true }) (setMover s k { mover s k with phase := 5 })) s
      let s := moved.foldl (fun s e => signPut s e.1 (signWord e.1 (thisDev s) e.2.1 e.2.2 0)) s
      let devs := (ids.map (fun id => match (ctx s id).itin with | some i => i.mods.filter (· != thisDev s) | none => [])).flatten
      let s := ids.foldl (fun s id => match (ctx s id).itin with
        | some i =>
          let mine := (go.filter (fun k => rd s (corePage .core (mover s k).src) 0xC % 65536 / 64 == id)).map (fun k => ((mover s k).en, (mover s k).dst / 144, (mover s k).dst % 144))
          postAll s (i.mods.filter (· != thisDev s)) (fun d => { dev := d, kind := 9, subj := thisDev s, job := i.job, mile := m, moved := mine })
        | none => s) s
      let s := ids.foldl (fun s id => setCtx s id { ctx s id with held := true }) s
      let s := fdSet s hubHeal fHEAL_HSTATUS_FREEZE 1
      setHub s { s.hub with freeze := some { mile := m, movers := go, moved := moved, waiting := devs, since := s.now } }
/-- FREEZE_TABLE_ACKED: the last rows, local memory and queue-engine state with its slot configuration follow, PG_LOCK last (R476), and SIGN_INVAL is written with ALL. -/
def freezeAcked (s : State) : State :=
  match s.hub.freeze with
  | none => s
  | some f =>
    if f.inval then s
    else
      let s := f.movers.foldl (fun s k =>
        (moveCores s (mover s k).src (mover s k).dst).foldl (fun s e =>
          let s := copyDirty s e.1 e.2
          let a := core s e.1
          let b := core s e.2
          let s := setCore s e.2 { b with seq := { b.seq with lm := a.seq.lm }, qe := { chans := a.qe.chans, handles := a.qe.handles, slots := a.qe.slots, mile := a.qe.mile, statw := a.qe.statw } }
          [Blk.core, .flow, .spad, .qeng].foldl (fun s b => wr s (corePage b e.2) 0x34 (rd s (corePage b e.1) 0x34)) (copyFields s [.qeng] e.1 e.2)) s) s
      setHub (invalAll s) { s.hub with freeze := some { f with inval := true } }
/-- FREEZE_CUTOVER: the EN passes to the arriving core, which restarts; where that core has failed, the work stays (R481). -/
def freezeCutover (s : State) : State :=
  match s.hub.freeze with
  | none => s
  | some f =>
    if !f.inval ∨ !s.inval.isEmpty then s
    else f.movers.foldl (fun s k =>
      let m := mover s k
      if m.phase ≠ 5 then s
      else
        let es := moveCores s m.src m.dst
        let s := es.foldl (fun s e => setCore s e.1 { core s e.1 with frozen := false }) s
        if coreClosed s m.dst then
          let s := signPut s m.en (signWord m.en (thisDev s) (m.src / 144) (m.src % 144) 0)
          moveAborted (invalAll s) k cCLOSURE
        else
          let s := fdSet (fdSet s (rPage m.src) fROUT_EN_EN 0x3FFFFF) (rPage m.dst) fROUT_EN_EN m.en
          let s := bindCore s m.src 0 false
          let s := withMate s m.dst (fun s c => seqRestWake (fdSet (startFlow (startUnits s c) c) (corePage .core c) fCORE_SEQ_CTL_RUN 1) c)
          let s := setMover (bump (replaceCore s m.en m.dst) hubHeal 0xC10) k { m with phase := 6, code := cOK }
          let s := es.foldl (fun s e => if tget false s.heal.slots e.1 then s else joinPool s e.1) s
          syncHolds s [m.src, m.dst]) s
/-- FREEZE_RELEASE: every position acknowledgement is in. -/
def freezeRelease (s : State) : State :=
  match s.hub.freeze with
  | none => s
  | some f =>
    if !f.waiting.isEmpty || f.movers.any (fun k => (mover s k).phase == 5) then s
    else
      let t := s.now - f.since
      let s := bumpBy (bump s hubHeal 0xC28) hubHeal 0xC30 (40 * t)
      let s := if t > 100 then bump s hubHeal 0xC38 else s
      let s := fdSet (setHub s { s.hub with freeze := none }) hubHeal fHEAL_HSTATUS_FREEZE 0
      (s.hub.ctxs.map (·.1)).foldl (fun s id => setCtx s id { ctx s id with held := false }) s

/-! ### Roadworks (R483–R487) -/

/-- The cores of a die that roadworks may visit next: the lowest with RWPEND; else the service core visited longest ago, and lay-bys idle for an
hour or not tested since their closure was withdrawn; each with the other of its pair. -/
def nextVisits (s : State) (d : Nat) : List Nat :=
  let cs := ((List.range 144).map (fun i => 144 * d + i)).filter (fun c => !coreClosed s c && !underTest s c)
  match cs.find? (fun c => (ladder s c).rwpend) with
  | some c => pairOf s c
  | none =>
    let at_ := fun c => tget 0 s.heal.visited c
    let serv := cs.filter (serves s)
    let old := serv.filter (fun c => serv.all (fun e => decide (at_ c ≤ at_ e)))
    ((old.take 1).map (pairOf s)).flatten ++ cs.filter (fun c => (isLayby s c && decide (at_ c + hourTicks 1 ≤ s.now)) || (tget false s.heal.untested c && !coreBound s c))
/-- The limiter has not acted for 10 ms. -/
def limiterQuiet (s : State) : Bool := match s.power.acted with | some t => decide (t + msTicks 10 ≤ s.now) | none => true
/-- SELF_TEST_SLOT_GRANT for a core (R487); a pair takes both of its die's slots (R449). -/
def slotGrant (s : State) (c : Nat) : State :=
  let d := c / 144
  let us := pairOf s c
  let room := decide (fd s (hubPage .pwr) fPWR_MEAS_WATTS + fd s hubHeal fHEAL_CALCFG_HEADROOM ≤ fd s (hubPage .pwr) fPWR_LIMIT_WATTS)
  let apart := match s.heal.lastVisit.find? (fun e => e.1 == d) with | some (_, t) => decide (t + usTicks 12500 ≤ s.now) | none => true
  let ok := fb s hubHeal fHEAL_RWCFG_EN && fb s aon fAON_READY_DONE && !(pst s == 5 || pst s == 7) && room && limiterQuiet s && apart &&
    decide (slotsHeld s d + us.length ≤ (if us.length = 2 then min 2 (2 * visitLimit s d) else visitLimit s d)) && decide (((List.range 8).map (slotsHeld s)).sum + us.length ≤ 16) &&
    (nextVisits s d).contains c && us.all (fun c => !tget false s.heal.slots c && !coreClosed s c && !underTest s c)
  if ok then poolCheck (setHeal s { s.heal with slots := us.foldl (fun t c => tput t c true) s.heal.slots }) d else s
/-- A core enters roadworks (R459, R484). -/
def visitBegin (s : State) (c : Nat) : State :=
  let s := coreOn (setTarget s c 0) c
  let s := setCore s c { core s c with test := true }
  let s := fdSet s (rPage c) fROUT_EN_EN 0x3FFFFF
  let s := setLadder s c { ladder s c with rwpend := false }
  setHeal s { s.heal with visits := tput s.heal.visits c { start := s.now }, lastVisit := tput s.heal.lastVisit (c / 144) s.now }
/-- ROADWORKS_VISIT_START: the core holds no work and its slot is granted; a pair starts together (R449). -/
def visitStart (s : State) (c : Nat) : State :=
  let us := pairOf s c
  if us.all (fun c => tget false s.heal.slots c && !coreBound s c && !coreClosed s c && !underTest s c) then us.foldl visitBegin s else s
def setVisit (s : State) (c : Nat) (v : Visit) : State := setHeal s { s.heal with visits := tput s.heal.visits c v }
/-- The test after one that passed; a margin walk that is not granted is skipped (R490). -/
def nextTest (s : State) (t : Nat) : Nat := if t = 3 ∧ !fb s hubHeal fHEAL_CALCFG_WALK_EN then 5 else t + 1
/-- A test failed: it is run once more, or the visit fails (R486). -/
def testFailed (s : State) (c : Nat) (v : Visit) : State :=
  if v.again then setVisit s c { v with outcome := v.test, test := 5 } else setVisit s c { v with again := true, retested := true, trim := 0, low := 0 }
/-- ROADWORKS_TEST_DONE; `banks` has the banks that failed the march. -/
def testDone (s : State) (c : Nat) (pass : Bool) (banks : Nat) : State :=
  match visit s c with
  | none => s
  | some v =>
    if v.test ≥ 4 then s
    else if pass then setVisit s c { v with test := nextTest s v.test, again := false }
    else testFailed s c (if v.test = 2 then { v with banks := banks } else v)
/-- The set point of a cluster: the largest requirement among its good cores (R485). -/
def setPoint (s : State) (k : Nat) : State :=
  let r := (clusterCores k).foldl (fun m c => if coreClosed s c then m else max m (tget 0 s.heal.reqs c)) 0
  let s := setPins s { s.pins with setpt := tput s.pins.setpt k r }
  clusVolts s k r (clusOffset s k)
/-- The margin walk ends (R485, R486): the threshold is the lowest supply that ran clean; one below 0.55 V shows as 0, and a requirement never
lies below it (log entry 142). -/
def walkEnd (s : State) (c : Nat) (v : Visit) : State :=
  let k := clusterOf c
  if v.low = 0 then testFailed s c v
  else
    let th := v.low - 64
    let req := v.low + fd s hubHeal fHEAL_MARGIN_GUARD - 64
    let s := fdSet s (clusPage k) fCLUS_FREQ_WALKF (fd s (clusPage k) fCLUS_FREQ_CURRENT)
    if req > 80 then setVisit s c { v with thresh := th, outcome := 4, test := 5 }
    else
      let s := setHeal s { s.heal with reqs := tput s.heal.reqs c req }
      setVisit (setPoint s k) c { v with thresh := th, test := 5 }
/-- MARGIN_WALK_STEP: clean, or a mismatch; a step under which the cluster's offset changed runs again. -/
def walkStep (s : State) (c : Nat) (clean : Bool) : State :=
  match visit s c with
  | none => s
  | some v =>
    let off := clusOffset s (clusterOf c)
    let volt := fd s (clusPage (clusterOf c)) fCLUS_VSET_VOUT + 64 - v.trim
    let w := { v with low := if v.low = 0 then volt else min v.low volt }
    if v.test ≠ 4 ∨ !v.walked then s
    else if off ≠ v.offset then setVisit s c { v with offset := off }
    else if !clean then walkEnd s c v
    else if v.trim + 1 ≥ fd s hubHeal fHEAL_MARGIN_STEPS then walkEnd s c w
    else setVisit s c { w with trim := v.trim + 1 }
/-- ROADWORKS_VISIT_END. -/
def visitEnd (s : State) (c : Nat) : State :=
  match visit s c with
  | none => s
  | some v =>
    if v.test ≠ 5 then s
    else
      let d := c / 144
      let s := visitOver s c v v.outcome
      let s := setCore s c { core s c with sp := {} }
      let s := poolCheck (coreOff (setTarget s c 2) c) d
      let s := bump s hubHeal 0xC48
      if v.outcome = 0 then
        let s := setHeal s { s.heal with untested := tdel s.heal.untested c }
        setLadder s c { ladder s c with count := 0, winEnd := none }
      else
        let s := setLadder s c {}
        let s := if v.outcome = 2 then (List.range 64).foldl (fun s b => if bit v.banks b then markClosed s (cmBank c b) else s) s else s
        let s := raiseInt (errAt (bump s hubHeal 0xC50) hubHeal cCLOSURE 0xD6 (c % 144 + 2 ^ 8 * d) 0 0) hubHeal 11
        let s := hubLog s { time := s.now, code := cCLOSURE, source := 0xD6, type := 0x28, inst := 0, detail := c % 144 + 2 ^ 8 * d, die := 8 }
        closeUnit s (closeCoreWord c)

/-! ### The calibration scheduler (R489, R490) -/

/-- CALIBRATION_GRANT: 0 a rotation step of a port, one per STEP, 1 a recentring window of a slice, one per PERIOD, 2 the margin walk of a core, 3 retraining of a
slice (R350). -/
def calGrant (s : State) (kind unit : Nat) : State :=
  let f := fun r => fb s hubHeal r
  let due := match (slice s unit).since with | some t => decide (t + usTicks (fd s (memcPage (unit / 32)) fMEMC_RECAL_PERIOD) ≤ s.now) | none => true
  let sliceOk := due && f fHEAL_CALCFG_RECAL_EN && (stack s (unit / 32)).window.isNone && (stack s (unit / 32)).granted.isNone && !sliceClosed s unit && (slice s unit).ss == 0 && fd s (memcPage (unit / 32)) fMEMC_STATUS_STATE == 2 && s.hub.freeze.isNone
  let ok := match kind with
    | 0 => f fHEAL_CALCFG_ROT_EN && decide (unit < 40) && isUp s unit && !(port s unit).granted && (port s unit).swapTx.isNone &&
        (match (port s unit).stepped with | some t => decide (t + msTicks (fd s (portPage unit) fPORT_ROT_STEP) ≤ s.now) | none => true)
    | 1 => decide (unit < 512) && sliceOk
    | 3 => decide (unit < 512) && sliceOk && (slice s unit).suspect
    | _ => f fHEAL_CALCFG_WALK_EN && limiterQuiet s && (match visit s unit with | some v => v.test == 4 && !v.walked | none => false)
  if !ok then bump s hubHeal 0xC60
  else
    let s := bump s hubHeal 0xC58
    match kind with
    | 0 => setPort s unit { port s unit with granted := true, stepped := some s.now }
    | 2 => match visit s unit with | some v => setVisit s unit { v with walked := true, offset := clusOffset s (clusterOf unit) } | none => s
    | _ => setSlice (setStack s (unit / 32) { stack s (unit / 32) with granted := some (unit % 32) }) unit { slice s unit with since := some s.now }

/-! ### Draining HEAL logs (R462, R463, R628) -/

/-- The ABORT of the step of a core's context. -/
def abortCore (s : State) (c code : Nat) : State :=
  if coreBound s c then let id := rd s (corePage .core c) 0xC % 65536 / 64; postAbort s id (stepOf s id) code else s
/-- A context of a core whose region has no source fails with POISON (R421). -/
def homeless (s : State) (c : Nat) : State :=
  if !coreBound s c then s
  else
    let id := rd s (corePage .core c) 0xC % 65536 / 64
    if (ctx s id).st = 1 then let m := stepOf s id; contextFail (postAbort s id m cPOISON) id cPOISON m else s
/-- A region copied from its home copy and HOLD cleared; what waited for it goes on (R207). A home copy that is lost is read from the partner's
shadow first; without a partner the region stays on HOLD (R421). -/
def reloadRegion (s : State) (c r : Nat) : State :=
  if !regionF s c r fSPAD_REGION_HOMEV then s
  else
    let h := homeCopy s c r
    if h.2 then (if hasShadow s then fetchHome s c r else homeless s c)
    else spadServe (fdSet (regionFill s c r h.1 h.2) (spadPage c) (fSPAD_REGION_HOLD.at r) 0) c
/-- A response to a read of the partner's shadow: its chunk is written to the home copy, which is then complete or waits for more. -/
def homeData (s : State) (p : Pkt) : State :=
  match s.twin.fetches with
  | [] => s
  | f :: l =>
    if !f.left.contains p.rid then s
    else
      let a := fd s (spadPage f.core) (fSPAD_REGION_HOME.at f.region) * 65536 + 512 * p.rid
      let bad := p.code ≠ cOK ∨ p.poison
      let s := if bad then s else memWrite s (hubEpoch s) a (wordBytes p.data) false
      let left := f.left.erase p.rid
      if !bad ∧ !left.isEmpty then setTwin s { s.twin with fetches := { f with left := left } :: l }
      else
        let s := setTwin s { s.twin with fetches := l }
        let held := regionF s f.core f.region fSPAD_REGION_HOLD
        let s := if bad then (if held then homeless s f.core else s) else if held then reloadRegion s f.core f.region else s
        match s.twin.fetches with | g :: _ => askHome s g | [] => s
/-- A bridge with more uncorrectable words within the hour than release 3 allows is closed (R462). -/
def bridgeWatch (s : State) (b : Nat) : State :=
  if eventsOf s watchBridge b > fd s hubHeal fHEAL_THRESH1_BRUE then closeUnit (unwatch s watchBridge b) (9 + 2 ^ 8 * b) else s
/-- What release 3 answers corrections with, which it reads from their counts when it drains a log (R462, log entry 58): a bank's core goes to
roadworks, whose march is full at every visit; a slice closes. -/
def correctionsAnswered (s : State) : State :=
  s.heal.hist.foldl (fun s h =>
    if h.kind = watchBank ∧ h.count > fd s hubHeal fHEAL_THRESH0_SPADCE then
      let c := h.unit / 64
      setLadder (unwatch s watchBank h.unit) c { ladder s c with rwpend := true }
    else if h.kind = watchSlice ∧ h.count > fd s hubHeal fHEAL_THRESH0_MEMCE then
      closeUnit (unwatch s watchSlice h.unit) (6 + 2 ^ 8 * (h.unit / 32) + 2 ^ 16 * (h.unit % 32))
    else if h.kind = watchBridge then bridgeWatch s h.unit else s) s
/-- REPORT_RESPONSE of release 3 to an entry of a die's log. -/
def respond (s : State) (d : Nat) (e : LogEnt) : State :=
  let c := 144 * d + e.inst
  let long := hourTicks (fd s hubHeal fHEAL_THRESH1_LONGWIN)
  let short := hourTicks (fd s hubHeal fHEAL_THRESH1_SHORTWIN)
  match e.source with
  | 0x70 =>
    let u := 2 ^ 12 * c + e.detail % 64
    let s := watch s 0x70 u short
    let s := if eventsOf s 0x70 u ≥ 2 then setLadder s c { ladder s c with rwpend := true } else s
    abortCore s c cPOISON
  | 0x71 =>
    let held := (List.range 128).filter (fun r => regionF s c r fSPAD_REGION_HOLD)
    let u := 2 ^ 12 * c + held.headD 0
    let s := watch s 0x71 u short
    let s := if eventsOf s 0x71 u ≥ 2 then setLadder s c { ladder s c with rwpend := true } else s
    let s := held.foldl (fun s r => reloadRegion s c r) s
    if bit e.detail 13 then s else abortCore s c cPOISON
  | 0x40 => abortCore s c cPOISON
  | 0x61 => abortCore s c cPOISON
  | 0xD0 => abortCore s c cPOISON
  | 0xA0 =>
    let g := 64 * d + 32 * e.inst + e.detail % 32
    let s := watch s 0xA0 g long
    if eventsOf s 0xA0 g ≥ 2 then closeUnit s (6 + 2 ^ 8 * (g / 32) + 2 ^ 16 * (g % 32)) else s
  | 0xA4 =>
    let g := 64 * d + 32 * e.inst + e.detail % 32
    let s := setSlice (watch s 0xA4 g long) g { slice s g with suspect := true }
    if eventsOf s 0xA4 g ≥ 2 then closeUnit s (6 + 2 ^ 8 * (g / 32) + 2 ^ 16 * (g % 32)) else s
  | 0x92 =>
    match (sideBridges d e.inst)[e.detail % 16]? with
    | some b => if b < 38 then bridgeWatch (watch s watchBridge b (hourTicks 1)) b else s
    | none => s
  | 0xB0 =>
    let p := if e.type = 0x31 then 36 + 2 * (d - 9) + e.inst else 18 * (d - 9) + e.inst
    let u := 2 ^ 8 * p + e.detail
    let s := watch s 0xB0 u long
    if e.detail < 9 ∧ eventsOf s 0xB0 u ≥ fd s hubHeal fHEAL_THRESH1_LANEN then closeUnit s (4 + 2 ^ 8 * p + 2 ^ 16 * e.detail) else s
  | _ => s
/-- HEAL_LOG_DRAIN of a die's log, or the hub's where `d` is 8. -/
def logDrain (s : State) (d : Nat) : State :=
  let l := logOf s d
  (setLog s d []) |> fun s => l.foldl (fun s e =>
    let die := if d = 8 then e.die else d
    respond (hubLog s { e with die := die }) die e) (correctionsAnswered s)

end Sys2Proof.Machine
end

