-- ==== Sys2Proof/Machine/StartOps.lean ====
section
/-! DEFINITION. Bringing the module to service: supplies, the steps of a start, images, proving runs, the fabric record (R13, R524–R545, R601, R602). -/
namespace Sys2Proof.Machine
open Sys2Proof

/-! ### Steps (R526, R543) -/

def stepNo (s : State) : Nat := fd s aon fAON_READY_STEP
def beginStep (s : State) (n : Nat) : State := setPins (fdSet s aon fAON_READY_STEP n) { s.pins with stepAt := s.now, batch := 0, again := [], limit := false }
/-- The duration of a step, in µs. -/
def stepTime (s : State) (n : Nat) : State := fdSet s aon (fAON_STEP_T_TIME.at (n - 1)) ((s.now - s.pins.stepAt) / 25 % 2 ^ 28)
def endStep (s : State) (n : Nat) : State := beginStep (stepTime s n) (n + 1)
/-- Step 2 begins when step 1 is done, PWR_EN is high, 12 V is in range and the flash bus is the module's (R525, R568, R644). -/
def mayBoot (s : State) : Bool :=
  let p := s.pins
  stepNo s == 0 && p.aux && p.step1 && p.pwrEn && p.v12 && p.flashExtN && !p.trip && !p.standby && !fb s aon fAON_READY_DONE
def tryBoot (s : State) : State :=
  if !mayBoot s then s
  else beginStep (fdSet (fdSet s aon fAON_READY_TK (fd s aon fAON_START_CFG_TK)) aon fAON_READY_WARM (b2n s.pins.memKept)) 2

/-- Every cluster's set point from its always-on copy; one that was never saved starts at 0.85 V (R526, R531, R548). -/
def loadSetPoints (s : State) : State :=
  (List.range 288).foldl (fun s k => fdSet (fdSet s (clusPage k) fCLUS_VSET_SETPT (tget 60 s.pins.setpt k)) (clusPage k) fCLUS_VSET_OFFSET (clusOffset s k)) s
/-- What a closure map in force leaves: closed cores and their banks, bridge masks. -/
def applyMap (s : State) : State := (List.range 11).foldl bridgesReset (coresOff s)
/-- ALWAYS_ON_START: the end of step 1. -/
def alwaysOnStart (s : State) : State :=
  if !s.pins.aux || s.pins.step1 || s.pins.hold1 then s
  else
    let clk := hubPage .clk
    let s := if fb s clk fCLK_STATUS_XTAL_OK then fdSet s clk fCLK_STATUS_XTAL_FAIL 0 else fdSet (fdSet s clk fCLK_STATUS_XTAL_FAIL 1) clk fCLK_STATUS_ONRC 1
    let s := loadSetPoints (applyMap (mapRestore s))
    let s := match s.flash.bind with
      | some (dev, _) => setPst (fdSet (fdSet s twinPage fCAUSE_PAIR_PARTNER dev) twinPage fCAUSE_PAIR_BOUND 1) 1
      | none => s
    let s := setPins (fdSet (stepTime s 1) aon fAON_READY_STEP 0) { s.pins with step1 := true }
    tryBoot s

/-! ### Images (R13, R528, R602) -/

def blown (v : Nat) : Nat := countp (fun i => bit v i) (List.range 32)
/-- What R602 asks of an image. -/
def accepted (s : State) (i : Image) : Bool :=
  i.ok && decide (3 ≤ i.release) && !bit (fd s (hubPage .fuse) fFUSE_VAL_KEY_REVOKE) i.key && decide (blown (rd s (hubPage .fuse) 0x44) ≤ i.svn)
def hubImg (s : State) (slot : Nat) : Image := if slot = 0 then s.flash.hubA else s.flash.hubB
def svcImg (s : State) (slot : Nat) : Image := if slot = 0 then s.flash.svcA else s.flash.svcB
/-- A slot whose hub image is accepted; its two images carry one sequence number. -/
def slotOk (s : State) (slot : Nat) : Bool := accepted s (hubImg s slot) && (hubImg s slot).seq == (svcImg s slot).seq
/-- IMAGE_REFUSED. -/
def imageRefused (s : State) (slot : Nat) : State :=
  let s := fdSet s aon (if slot = 0 then fAON_START_STAT_REJA else fAON_START_STAT_REJB) 1
  raiseInt (errAt (bump s aon 0xC30) aon cDENIED 0xE5 slot 0 0) aon 13
/-- The valid slot with the higher sequence number, A where they are equal (log entry 35). -/
def bootSlot (s : State) : Option Nat :=
  if slotOk s 0 then (if slotOk s 1 && decide ((hubImg s 0).seq < (hubImg s 1).seq) then some 1 else some 0) else if slotOk s 1 then some 1 else none
def bootFrom (s : State) (slot : Nat) : State :=
  fdSet (fdSet s aon fAON_START_STAT_SLOT slot) (hubPage .auth) fAUTH_STATUS_BOOTKEY (hubImg s slot).key
/-- Main power is on: every die that is not closed has its rails, phases and PLL (R559, R560). -/
def powerDies (s : State) : State :=
  let ref := refPresent s
  let s := (List.range 11).foldl (fun s d => if closed s (cmDie d) then s else
    let s := fdSet (fdSet s (diePage .pwr d) fPWR_STATUS_DSTATE 1) (diePage .clk d) fCLK_STATUS_LOCKED (b2n ref)
    let s := if ref then s else fdSet s (diePage .clk d) fCLK_STATUS_CLK_LOST 1
    let s := if d < 9 then s else fdSet s (diePage .clk d) fCLK_STATUS_SREF_OK 1
    fdSet s (diePage .die d) fDIE_STATUS_STATE (if d = 8 then 3 else 1)) s
  setPins s { s.pins with pwrGood := true }
/-- HUB_BOOT: step 2. With no valid image the hub ROM alone serves the management port, and with XTAL_FAIL the start stops here. -/
def hubBoot (s : State) : State :=
  let s := tryBoot s
  if stepNo s ≠ 2 then s
  else
    let s := loadSetPoints (powerDies s)
    let s := [0, 1].foldl (fun s k => if slotOk s k then s else imageRefused s k) s
    match bootSlot s with
    | none => fdSet s (hubPage .mgmt) fMGMT_STATUS_ROMONLY 1
    | some k =>
      let s := fdSet (fdSet (bootFrom s k) aon fAON_GRADE_IN0_HCORES 15) (hubPage .mgmt) fMGMT_STATUS_ROMONLY 0
      if refPresent s then endStep s 2 else stepTime s 2
/-- SERVICE_IMAGE_LOAD: step 3. `copyOk`: the copy in memory passes its check; `bad`, `worse`: dies whose controllers did not run in time, and did
not after one die reset. -/
def serviceImageLoad (s : State) (copyOk : Bool) (bad worse : List Nat) : State :=
  if stepNo s ≠ 3 then s
  else
    let k := fd s aon fAON_START_STAT_SLOT
    let warm := fb s aon fAON_READY_WARM && s.pins.copy && copyOk
    let s := if warm then fdSet s aon fAON_START_STAT_IMGMEM 1 else s
    let good := warm || accepted s (svcImg s k)
    let other := slotOk s (1 - k) && accepted s (svcImg s (1 - k))
    let s := if good then s else imageRefused s k
    if !good && !other then s
    else
      let s := if good then s else bootFrom s (1 - k)
      let s := [0, 1, 2, 3, 4, 5, 6, 7, 9, 10].foldl (fun s d =>
        if closed s (cmDie d) then s
        else
          let s := if bad.contains d then bump s aon 0xC08 else s
          if bad.contains d && worse.contains d then closeUnit s (8 + 16 * d)
          else
            let s := fdSet (fdSet s (diePage .die d) fDIE_STATUS_STATE 3) (diePage .die d) fDIE_STATUS_CTL0_OK 1
            if d < 8 then fdSet s (diePage .die d) fDIE_STATUS_CTL1_OK 1 else s) s
      endStep (fdSet (fdSet s (diePage .die 8) fDIE_STATUS_STATE 3) (diePage .die 8) fDIE_STATUS_CTL0_OK 1) 3

/-! ### Memory (R348, R358, R530) -/

/-- Training ends and the channels that failed it are closed (R349). -/
def memTrained (s : State) (m quick fail : Nat) : State :=
  match (stack s m).train with
  | none => s
  | some full =>
    let any := full || quick % 2 ^ 32 != 0
    let s := trainDone s m quick 0
    let s := if full then wr s (memcPage m) 0x48 (fail % 2 ^ 32) else s
    (List.range 32).foldl (fun s ch => if any && bit fail ch && (full || bit quick ch) && !sliceClosed s (32 * m + ch) then closeUnit s (6 + 2 ^ 8 * m + 2 ^ 16 * ch) else s) s
/-- A saved training record loaded; the controller finds it valid where `ok` says so. -/
def loadRec (s : State) (m : Nat) (ok : Bool) : State :=
  match s.flash.memRec.find? (fun e => e.1 == m) with
  | some (_, w) => if ok then 
      freeUsed (recJudge (setStack s m { stack s m with words := w, recBase := none, recOk := true, recT := fd s (memcPage m) fMEMC_STATUS_TEMP + freeVal s % 51 }) m) else s
  | none => s
/-- MEMORY_START: step 4, the memory test of a TK start included. `valid`: stacks whose record is valid; `fails`: stack, channels that failed quick
verify, channels that failed training (bits 31:0) or hold a row that cannot be repaired (bits 63:32), each of which is captured (R349, R358). -/
def memoryStart (s : State) (valid : Nat) (fails : List (Nat × Nat × Nat)) : State :=
  if stepNo s ≠ 4 then s
  else
    let tk := fb s aon fAON_READY_TK
    let full := tk || fb s aon fAON_START_CFG_FULLTRAIN
    let s := if tk || !fb s aon fAON_READY_WARM then { s with mem := [], mpois := [], merr := [], stackSt := tmap (fun _ (k : Stack) => { k with lost := false }) s.stackSt } else s
    let s := (List.range 16).foldl (fun s m =>
      if closed s (cmStack m) then s
      else
        let s := memTrain (loadRec s m (bit valid m)) m full
        let rec_ := (stack s m).train == some false
        let f := match fails.find? (fun e => e.1 == m) with | some (_, q, b) => (q, b) | none => (0, 0)
        let s := if rec_ then fdSet s aon fAON_START_STAT_MEMREC (fd s aon fAON_START_STAT_MEMREC + 1) else s
        let rows := if tk then f.2 / 2 ^ 32 else 0
        let s := (List.range 32).foldl (fun s ch => if bit rows ch then raiseInt (errAt s (memcPage m) cRANGE 0xA3 ch 0 0) (memcPage m) 10 else s) s
        memTrained s m f.1 (f.2 % 2 ^ 32 ||| rows)) s
    endStep (setPins s { s.pins with copy := true }) 4

/-! ### Power-up waves, proving runs, the core test (R531, R532, R542) -/

def clusUp (s : State) (k : Nat) : Bool := closed s (cmCluster k) || (fd s (clusPage k) fCLUS_STATUS_RAIL == 2 && fd s (clusPage k) fCLUS_STATUS_PLL ≥ 2)
/-- POWER_UP_WAVE on a die: the six lowest clusters that are off. `bad`, `worse`: clusters of the die that missed their set point or lock, and did again
after one cluster reset. -/
def powerUpWave (s : State) (d bad worse : Nat) : State :=
  let ks := (((List.range 36).filter (fun k => !closed s (cmCluster (36 * d + k)) && fd s (clusPage (36 * d + k)) fCLUS_STATUS_RAIL == 0)).take 6).map (fun k => 36 * d + k)
  if stepNo s ≠ 5 ∨ !dieActive s d then s
  else
    let s := ks.foldl (fun s k =>
      if bit bad (k % 36) && bit worse (k % 36) then closeUnit s (1 + 2 ^ 4 * d + 2 ^ 8 * (k % 36))
      else
        let s := if bit bad (k % 36) then clusterReset s k else s
        let s := railUp s k
        if fd s (clusPage k) fCLUS_STATUS_PLL = 1 then fdSet (fdSet s (clusPage k) fCLUS_STATUS_PLL 2) (clusPage k) fCLUS_FREQ_CURRENT (fd s (clusPage k) fCLUS_FREQ_TARGET) else s) s
    if (List.range 288).all (fun k => clusUp s k || !dieActive s (k / 36)) then endStep s 5 else s
/-- A core that passed: reset, banks zeroed, OFF. -/
def provenCore (s : State) (c : Nat) : State :=
  let s := coreReset s c
  let s := setCore s c { core s c with sp := {}, seq := {} }
  railDown (setBanks (setCstate s c 2) c 2) (clusterOf c)
/-- PROVING_BATCH: batches 0 to 3 by the core's place in its cluster, then the cores that failed once. -/
def provingBatch (s : State) (fails : List Nat) : State :=
  let n := s.pins.batch
  if stepNo s ≠ 6 ∨ fb s aon fAON_READY_TK then s
  else if n < 4 then
    let cs := (List.range 1152).filter (fun c => clusterSlot c == n && !coreClosed s c && dieActive s (c / 144))
    let again := s.pins.again ++ cs.filter (fun c => fails.contains c)
    let s := (cs.filter (fun c => !fails.contains c)).foldl provenCore s
    if n = 3 ∧ again.isEmpty then endStep s 6 else setPins s { s.pins with batch := n + 1, again := again }
  else
    let l := s.pins.again
    let s := (l.filter (fun c => !fails.contains c)).foldl provenCore s
    endStep ((l.filter (fun c => fails.contains c)).foldl (fun s c => if coreClosed s c then s else closeUnit s (closeCoreWord c)) s) 6
/-- A core's result in the core test: the hub error log has it. A field-closed core that passes has its closures withdrawn where WITHDRAW says so. -/
def tkTested (s : State) (c : Nat) (fail : Bool) (req : Option Nat) : State :=
  let was := coreClosed s c
  let s := fdSet s aon fAON_TK_PROG_TESTED (fd s aon fAON_TK_PROG_TESTED + 1)
  let s := hubLogSaved s { time := s.now, code := if fail then cCLOSURE else cOK, source := 0xD6, type := 0x28, inst := 0, detail := c % 144 + 2 ^ 8 * (c / 144), die := 8 }
  if fail then
    (if was then s else closeUnit (fdSet s aon fAON_TK_PROG_CLOSED (fd s aon fAON_TK_PROG_CLOSED + 1)) (closeCoreWord c))
  else
    let s := match req with | some r => setPoint (setHeal s { s.heal with reqs := tput s.heal.reqs c r }) (clusterOf c) | none => s
    if !was then provenCore s c
    else if fb s aon fAON_START_CFG_WITHDRAW then
      let s := (List.range 64).foldl (fun s b => markOpen s (cmBank c b)) (markOpen s (cmCore c))
      provenCore (setBanks (setCstate s c 2) c 2) c
    else s
/-- TK_CORE_TEST_ROUND: the next twelve cores of each die that are not fuse-closed; `fails` failed twice, `reqs` are margin-walk requirements. -/
def tkCoreTestRound (s : State) (fails : List Nat) (reqs : List (Nat × Nat)) : State :=
  if stepNo s ≠ 6 ∨ !fb s aon fAON_READY_TK then s
  else
    let fused := fun (c : Nat) => bit (tget 0 s.fuseMap (cmCore c / 32)).toNat (cmCore c % 32)
    let of := fun (d : Nat) => ((List.range 144).map (fun i => 144 * d + i)).filter (fun c => !fused c)
    let now := ((List.range 8).map (fun d => ((of d).drop (12 * s.pins.batch)).take 12)).flatten
    let left := (List.range 8).any (fun d => decide (12 * (s.pins.batch + 1) < (of d).length))
    let s := now.foldl (fun s c => tkTested s c (fails.contains c) ((reqs.find? (fun e => e.1 == c)).map (·.2))) s
    if left then setPins s { s.pins with batch := s.pins.batch + 1 } else endStep s 6

/-! ### Ports (R303, R533, R541) -/

/-- The sides of a die route entry, primary and detour, in die dimension order, column first and then row (R303). -/
def dieSides (d dest : Nat) : Nat × Nat :=
  let col := fun d => d % 4
  let east := fun (a b : Nat) => if a < b then 1 else 3
  let south := fun (a b : Nat) => if a < b then 2 else 0
  if d = 8 then (let w := if dest < 8 then (if col dest < 2 then 0 else 1) else dest - 9; (w, 1 - w))
  else if dest = 9 then (3, 3)
  else if dest = 10 then (1, 1)
  else
    let gate := if dest = 8 then (if col d < 2 then 5 else 6) else dest
    let c := if col d = col gate then none else some (east (col d) (col gate))
    let r := if d / 4 = gate / 4 then none else some (south (d / 4) (gate / 4))
    match c, r with
    | some x, some y => (x, y)
    | some x, none => (x, x)
    | none, some y => (y, y)
    | none, none => (2, 2)
/-- The side by which packets of a die for another leave with the bridges in service: the primary, or with `det` the detour where no bridge of the
primary is; a port die uses the side toward the destination's row (R303). -/
def sideUsed (s : State) (det : Bool) (d e : Nat) : Option Nat :=
  let up := fun i => inService s d i != 0
  if 8 < d then (if up ((if e < 8 then e / 4 else 1)) then some (if e < 8 then e / 4 else 1) else none)
  else
    let r := dieSides d e
    if up r.1 then some r.1 else if det && up r.2 then some r.2 else none
/-- Which side a packet for a die waits for next while it holds which: dependencies among bridge sides, as pairs of die and side (R303). -/
def sideDeps (s : State) (det : Bool) : List ((Nat × Nat) × (Nat × Nat)) :=
  bridgeSides.flatMap (fun x => (List.range 11).filterMap (fun e =>
    if e = x.1 ∨ sideUsed s det x.1 e ≠ some x.2 then none
    else (across x.1 x.2).bind (fun y => if y.1 = e then none else (sideUsed s det y.1 e).map (fun z => (x, (y.1, z))))))
/-- No cycle of dependencies: taking away, again and again, those that lead to a side nothing is waited for at leaves none. -/
def acyclic (l : List ((Nat × Nat) × (Nat × Nat))) : Bool :=
  ((List.range 44).foldl (fun l _ => l.filter (fun e => l.any (fun g => g.1 == e.2))) l).isEmpty
/-- Release 3 uses detours only where the routes then form no cycle; else the dies they would reach are unreachable (R303). -/
def useDetours (s : State) : Bool := acyclic (sideDeps s true)
/-- A die's route table and bridge masks under a bank, computed from CLOSURE_MAP, and the primary and alternate links of its footpath hub, laid beside the
bridges (R318); the detour is enabled where no bridge of the primary side is in service (log entry 36). -/
def dieRoutes (s : State) (det : Bool) (d b : Nat) : State :=
  let links := if d > 8 then [] else (List.range 11).filterMap (fun e => if e = d then none else some (e, (dieSides d e).1 + 4 * (dieSides d e).2))
  let s := setNet s d { net s d with foot := links }
  let s := if d > 8 then s else
    (List.range 11).foldl (fun s e =>
      if e = d then s
      else
        let r := dieSides d e
        let det := det && inService s d r.1 == 0 && inService s d r.2 != 0
        wr s (diePage .sign d) (0x80 + 0x40 * b + 4 * e) (r.1 + 4 * r.2 + 16 * b2n det)) s
  (bridgeSides.filter (fun e => e.1 == d)).foldl (fun s e => fdSet s ⟨.brdg, d, e.2⟩ (fBRDG_ACTIVE_ACT0.sub b) (inService s d e.2)) s
/-- Every interface injects under an epoch at once, there being no packet (R533). -/
def flipNow (s : State) (e : Nat) : State :=
  let s := signAll (signAll (signAll s (fSIGN_EPCTL_RETIRE0.sub e) 0) (fSIGN_EPCTL_RETIRE0.sub (1 - e)) 1) fSIGN_STATUS_INJ_EPOCH e
  let s := interfaces.foldl (fun s i => flipAt s (i / 256) (i % 256) e) s
  [9, 10].foldl (fun s k => fdSet (fdSet (fdSet s (xPage k) fXTAB_STATUS_INJ_XEPOCH e) (xPage k) (fXTAB_XCTL_RETIRE0.sub e) 0) (xPage k) (fXTAB_XCTL_RETIRE0.sub (1 - e)) 1) s
def setDevice (s : State) (dev : Nat) : State :=
  let s := signAll s fSIGN_SELF_DEVICE dev
  [9, 10].foldl (fun s k => fdSet s (xPage k) fXTAB_SELF_DEVICE dev) s
def enablePorts (s : State) : State :=
  (List.range 40).foldl (fun s p => if closed s (cmPort p) then s else portEnable (fdSet s (portPage p) fPORT_CTL_ENABLE 1) p) s
/-- PORT_START: the record restored, or WAITFAB; ports whose record `valid` names train from it. -/
def portStart (s : State) (valid : Nat) : State :=
  if stepNo s ≠ 7 then s
  else match s.flash.fab with
    | none => endStep (fdSet s aon fAON_READY_WAITFAB 1) 7
    | some f =>
      let s := setHost (setDevice s f.dev) { (setDevice s f.dev).host with dev := true, bank := true }
      let s := [9, 10].foldl (fun s d => setRoutes s d { ent := f.ent.foldl (fun t e => tput t (1024 + e.1 % 1024) e.2) (routesOf s d).ent, stage := [] }) s
      let s := (List.range 40).foldl (fun s p => wr s (portPage p) fPORT_EXPECT_DEVICE.off (tget 0 f.expect p).toNat) s
      let det := useDetours s
      let s := flipNow ((List.range 11).foldl (fun s d => dieRoutes s det d 1) s) 1
      let full := fb s aon fAON_START_CFG_FULLTRAIN || fb s aon fAON_READY_TK
      let s := (List.range 40).foldl (fun s p =>
        let rec_ := s.flash.portRec.find? (fun e => e.1 == p)
        let ok := bit valid p && rec_.isSome && !full && !closed s (cmPort p)
        let s := match rec_ with | some (_, w) => setPort s p { port s p with words := w.1, recBase := none, recOk := ok, recPeer := some w.2 } | none => s
        let s := if ok then fdSet s aon fAON_START_STAT_PORTREC (fd s aon fAON_START_STAT_PORTREC + 1) else s
        fdSet s (portPage p) fPORT_CTL_FULLTRAIN (b2n (!ok))) s
      enablePorts (fdSet s aon fAON_START_STAT_FABREC 1)
/-- TK_PORT_SOAK: lanes that failed are retrained once, a second failure closes them: `bad`, `worse` as port and lanes. -/
def tkPortSoak (s : State) (bad worse : List (Nat × Nat)) : State :=
  if stepNo s ≠ 7 ∨ !fb s aon fAON_READY_TK then s
  else
    let s := bad.foldl (fun s e => if pState s e.1 = 3 then setPState s e.1 2 else s) s
    worse.foldl (fun s e => (List.range 9).foldl (fun s l => if bit e.2 l then closeUnit s (4 + 2 ^ 8 * e.1 + 2 ^ 16 * l) else s) s) s
/-- Every port that is not closed is UP. -/
def portsUp (s : State) : Bool := (List.range 40).all (fun p => isUp s p || closed s (cmPort p))

/-! ### DONE, limits, records (R524, R534, R539, R545) -/

/-- START_DONE: step 7 is complete when every port is UP, when no fabric record exists, or at its limit. -/
def startDone (s : State) : State :=
  let s := if stepNo s = 7 ∧ fb s aon fAON_START_STAT_FABREC ∧ (portsUp s ∨ s.pins.limit) then endStep s 7 else s
  if stepNo s ≠ 8 ∨ fb s aon fAON_READY_DONE then s
  else
    let tk := fb s aon fAON_READY_TK
    let s := fdSet (gradeInputs (stepTime s 8)) aon fAON_READY_DONE 1
    let s := fdSet s aon fAON_READY_GRADE (gradeCode (gradeWhy s))
    let s := raiseInt (bump s aon 0xC18) aon 10
    let s := if tk then bump s aon 0xC20 else s
    let s := if fb s aon fAON_READY_WARM then bump s aon 0xC28 else s
    let s := if tk ∧ fb s aon fAON_START_CFG_TKONCE then fdSet s aon fAON_START_CFG_TK 0 else s
    hostEvent (fdSet s aon fAON_START_CFG_FULLTRAIN 0) 0
/-- START_STEP_LIMIT. -/
def startStepLimit (s : State) : State :=
  let n := stepNo s
  if n = 0 ∨ 7 < n then s
  else
    let s := raiseInt (errAt s aon cTIMEOUT 0xE4 n 0 0) aon 12
    if n = 1 then alwaysOnStart s else if n = 7 then setPins s { s.pins with limit := true } else s
def contextsFree (s : State) : Bool := s.hub.ctxs.all (fun e => e.2.st == 0)
/-- The fabric configuration record as the registers hold it (R533). -/
def fabRecord (s : State) : FabRec :=
  let b := injX s 9
  { dev := xDev s 9, expect := ((List.range 40).map (fun p => (p, BitVec.ofNat 32 (rd s (portPage p) fPORT_EXPECT_DEVICE.off)))),
    ent := (routesOf s 9).ent.filterMap (fun e => if e.1 / 1024 = b then some (e.1 % 1024, e.2) else none) }
/-- RECORD_SAVE: training records of every stack and port that was fully trained, and the fabric record; none is saved during a step. -/
def recordSave (s : State) : State :=
  if !fb s aon fAON_READY_DONE ∨ s.hub.ctxs.any (fun e => e.2.posted.isSome || !e.2.owed.isEmpty) then s
  else
    let mr := (List.range 16).foldl (fun t m => if (stack s m).recBase.isSome then tput t m ((List.range 1024).map (fun w => (w, recWord s m w))) else t) s.flash.memRec
    let pr := (List.range 40).foldl (fun t p => match (port s p).recBase with
      | some b => tput t p ((List.range 512).map (fun w => (w, tget (BitVec.ofNat 32 (Config.freeNat (b + w))) (port s p).words w)), (port s p).recPeer.getD 0)
      | none => t) s.flash.portRec
    setFlash s { s.flash with memRec := mr, portRec := pr, fab := if fb s aon fAON_READY_WAITFAB then s.flash.fab else some (fabRecord s) }

end Sys2Proof.Machine
end

