-- ==== Sys2Proof/Machine/PwrOps.lean ====
section
/-! DEFINITION. Power, clocks, temperature (R546–R573). -/
namespace Sys2Proof.Machine
open Sys2Proof

def pwr (d : Nat) : PageId := diePage .pwr d
def hubPwr : PageId := hubPage .pwr

/-! ### Clocks of the clusters (R551, R553, R562–R565) -/

/-- The frequency of a running cluster PLL: the lowest of its target, F and the die's cap (R551). -/
def clusFreq (s : State) (k : Nat) : Nat :=
  min (fd s (clusPage k) fCLUS_FREQ_TARGET) (min (fd s hubPwr fPWR_LIM_STAT_FAPPLIED) (fd s (pwr (k / 36)) fPWR_STATUS_FDIE))
def freqApply (s : State) (k : Nat) : State :=
  if fd s (clusPage k) fCLUS_STATUS_PLL = 2 then fdSet s (clusPage k) fCLUS_FREQ_CURRENT (clusFreq s k) else s
def freqAll (s : State) : State := (List.range 288).foldl freqApply s
/-- The divider in force of a core: the lowest of its ladder's, its software's and the fast throttle's (R553); a paired core takes the lower of its pair. -/
def ownDiv (s : State) (c : Nat) : Nat :=
  let k := clusterOf c
  max (max (ladder s c).div (fd s (clusPage k) (fCLUS_DIV_SWDIV.sub (clusterSlot c)))) (if fb s (clusPage k) fCLUS_STATUS_THROTTLED then 3 else 0)
def effDiv (s : State) (c : Nat) : Nat :=
  if corePaired s c then max (ownDiv s c) (ownDiv s (if c % 2 = 0 then c + 1 else c - 1)) else ownDiv s c
/-- PLL_START on a wake request. -/
def pllWake (s : State) (k : Nat) : State :=
  if fd s (clusPage k) fCLUS_STATUS_PLL ≠ 0 ∨ closed s (cmCluster k) then s
  else if fb s (clusPage k) fCLUS_CTL_HOLD ∨ (clusterCores k).any (fun c => cstate s c == 0) then pllStart s k else s
/-- PLL_LOCK. -/
def pllLock (s : State) (k : Nat) : State :=
  if fd s (clusPage k) fCLUS_STATUS_PLL ≠ 1 ∨ !refPresent s then s
  else freqApply (fdSet (fdSet s (clusPage k) fCLUS_STATUS_PLL 2) (clusPage k) fCLUS_STATUS_CLK_LOST 0) k
/-- A cluster PLL coasts at 0.4 GHz. -/
def clusCoast (s : State) (k : Nat) : State :=
  let pg := clusPage k
  let s := fdSet (fdSet (fdSet s pg fCLUS_STATUS_PLL 3) pg fCLUS_STATUS_CLK_LOST 1) pg fCLUS_FREQ_CURRENT 16
  raiseInt (errAt (bump s (diePage .clk (k / 36)) 0xC00) pg cNOT_READY 0xF1 0 0 0) pg 9
def dieCoast (s : State) (d : Nat) : State :=
  let pg := diePage .clk d
  let s := fdSet (fdSet s pg fCLK_STATUS_LOCKED 0) pg fCLK_STATUS_CLK_LOST 1
  raiseInt (errAt (bump s pg 0xC00) pg cNOT_READY 0xF1 0 0 0) pg 8
/-- PLL_LOSS of a cluster PLL, which release 3 relocks once; a second loss within an hour closes the cluster. -/
def clusPllLoss (s : State) (k : Nat) (relocked : Bool) : State :=
  if fd s (clusPage k) fCLUS_STATUS_PLL ≠ 2 then s
  else
    let again := match s.power.pllAt.find? (fun e => e.1 == k) with | some (_, t) => decide (s.now ≤ t + hourTicks 1) | none => false
    let s := clusCoast (setPower s { s.power with pllAt := tput s.power.pllAt k s.now }) k
    if again then closeUnit s (1 + 2 ^ 4 * (k / 36) + 2 ^ 8 * (k % 36))
    else if relocked then pllLock (pllStart s k) k
    else clusterReset s k
def diePllLoss (s : State) (d : Nat) (relocked : Bool) : State :=
  let pg := diePage .clk d
  if !fb s pg fCLK_STATUS_LOCKED then s
  else
    let s := dieCoast s d
    if relocked ∧ refPresent s then fdSet s pg fCLK_STATUS_LOCKED 1
    else if d = 8 then moduleReset s 4 true
    else if d < 8 then gradeEval (abortAll (dieReset s d 5) cCLOSURE) else gradeEval (portDieReset s d 5)
/-- CRYSTAL_FAIL. -/
def crystalFail (s : State) : State :=
  let clk := hubPage .clk
  if !fb s clk fCLK_STATUS_XTAL_OK then s
  else
    let s := fdSet (fdSet (fdSet s clk fCLK_STATUS_XTAL_OK 0) clk fCLK_STATUS_ONRC 1) clk fCLK_STATUS_XTAL_FAIL 1
    let s := raiseInt (errAt s clk cNOT_READY 0xF3 (fd s clk fCLK_XMEAS_WINS) 0 0) clk 9
    let s := (List.range 288).foldl (fun s k => if fd s (clusPage k) fCLUS_STATUS_PLL = 0 then fdSet s (clusPage k) fCLUS_STATUS_CLK_LOST 1 else clusCoast s k) s
    gradeEval ((List.range 11).foldl dieCoast s)
/-- CRYSTAL_JUDGED: windows of 256 crystal periods in units of 625 ps, nominally 16,384. Before service eight of them pass the crystal; in service a window
out of range fails it (R563). -/
def crystalJudged (s : State) (wins : List Nat) : State :=
  let w0 := wins.headD 0
  let near := fun (a b tol : Nat) => decide ((a - b + (b - a)) * 1000000 ≤ tol * b)
  let inRange := wins.all (fun w => near w 16384 50000)
  let good := wins.length == 8 && inRange && wins.all (fun w => near w w0 200)
  let clk := hubPage .clk
  if !s.pins.aux then s
  else
    let dev : Int := ((wins.getLastD 16384 : Int) - 16384) * 1000000 / 16384
    let run := (wins.reverse.takeWhile (fun w => near w w0 200)).length
    let n := if run = wins.length then fd s clk fCLK_XMEAS_WINS + run else run
    let s := fdSet (fdSet s clk fCLK_XMEAS_PPM (dev % 65536).toNat) clk fCLK_XMEAS_WINS (min 255 n)
    if s.pins.step1 then (if inRange then s else crystalFail s)
    else if good then fdSet (fdSet s clk fCLK_STATUS_XTAL_OK 1) clk fCLK_STATUS_ONRC 0 else s
/-- SERDES_REF_LOSS and its return: release 3 clears the loss and trains the ports again. -/
def serdesLoss (s : State) (d : Nat) : State :=
  let pg := diePage .clk d
  if !fb s pg fCLK_STATUS_SREF_OK then s
  else raiseInt (errAt (fdSet (fdSet s pg fCLK_STATUS_SREF_OK 0) pg fCLK_STATUS_SREF_LOST 1) pg cNOT_READY 0xF4 0 0 0) pg 10
def serdesReturn (s : State) (d : Nat) : State :=
  let pg := diePage .clk d
  if fb s pg fCLK_STATUS_SREF_OK ∨ !fb s pg fCLK_STATUS_SREF_LOST then s
  else
    let s := fdSet (fdSet s pg fCLK_STATUS_SREF_OK 1) pg fCLK_STATUS_SREF_LOST 0
    (List.range 40).foldl (fun s p => if portDie p = d then portRetrain s p else s) s
/-- RELOCK and CLRLOST written in CLK_CTL, RELOCK in CLUS_CTL. -/
def clkCtl (s : State) (d v : Nat) : State :=
  let pg := diePage .clk d
  let s := if bit v 0 ∧ refPresent s then fdSet s pg fCLK_STATUS_LOCKED 1 else s
  if !bit v 1 then s
  else
    let s := if fb s pg fCLK_STATUS_LOCKED then fdSet s pg fCLK_STATUS_CLK_LOST 0 else s
    if fb s pg fCLK_STATUS_SREF_OK then fdSet s pg fCLK_STATUS_SREF_LOST 0 else s
def clusRelock (s : State) (k : Nat) : State := if fd s (clusPage k) fCLUS_STATUS_PLL = 0 then s else pllStart s k

/-! ### Converters, regulators, the limiter (R547–R552) -/

/-- PHASE_FAILURE. -/
def phaseFailure (s : State) (d ph : Nat) : State :=
  let pg := pwr d
  let n := fd s pg fPWR_STATUS_PHASES
  if n = 0 then s
  else
    let s := bump (fdSet s pg fPWR_STATUS_PHASES (n - 1)) pg 0xC00
    let s := raiseInt (errAt s pg cNOT_READY 0xF5 ph 0 0) pg 8
    let s := report s { page := pg.no, source := 0xF5, code := cNOT_READY, detail := ph }
    fdSet s hubPwr fPWR_LIMIT_WATTS (max 1500 (fd s hubPwr fPWR_LIMIT_WATTS - 110))
/-- REGULATOR_FAULT: the flag and the capture outlive the cluster reset they announce (log entry 37). -/
def regulatorFault (s : State) (k : Nat) : State :=
  let pg := clusPage k
  if fd s pg fCLUS_STATUS_RAIL = 0 then s
  else
    let v := fd s pg fCLUS_VSET_VOUT
    let again := match s.power.regAt.find? (fun e => e.1 == k) with | some (_, t) => decide (s.now ≤ t + hourTicks 1) | none => false
    let s := (clusterCores k).foldl (fun s c => abortCore s c cCLOSURE) s
    let s := clusterReset (setPower s { s.power with regAt := tput s.power.regAt k s.now }) k
    let s := raiseInt (errAt (fdSet s pg fCLUS_STATUS_REGFAULT 1) pg cNOT_READY 0xF0 v 0 0) pg 8
    if again then closeUnit s (1 + 2 ^ 4 * (k / 36) + 2 ^ 8 * (k % 36)) else s
/-- POWER_SAMPLE: millivolts, milliamperes, milliamperes of each die's intermediate rail. -/
def powerSample (s : State) (mv ma : Nat) (dies : List Nat) : State :=
  if !s.pins.aux then s
  else
    let q := s.power
    let cur := (List.range 11).foldl (fun t d => tput t d (dies.getD d 0)) q.current
    fdSet (setPower s { q with psum := q.psum + mv * ma / 1000, vsum := q.vsum + mv, nsamp := q.nsamp + 1, current := cur }) hubPwr fPWR_MEAS_AMPS (min 511 (ma / 1000))
def setActed (s : State) : State := setPower s { s.power with acted := some s.now }
/-- ACTED@PWR_LIM_STAT: within the last 10 ms. -/
def actedNow (s : State) : Bool := match s.power.acted with | some t => decide (s.now ≤ t + msTicks 10) | none => false
/-- THERMAL_CAP_ADJUST of a die. -/
def thermalCap (s : State) (d : Nat) : State :=
  let pg := pwr d
  let t := fd s pg fPWR_STATUS_TEMP
  let lim := fd s pg fPWR_THERM_TLIM
  let f := fd s pg fPWR_STATUS_FDIE
  let minf := fd s hubPwr fPWR_LIM_CTL_MINF
  if lim < t then
    let s := raiseInt (bump s pg 0xC08) pg 9
    setActed (fdSet s pg fPWR_STATUS_FDIE (if f - 4 < minf then min f minf else f - 4))
  else if t + 5 < lim then fdSet s pg fPWR_STATUS_FDIE (min 88 (f + 4)) else s
/-- What the limiter does with an interval's average power, in W, and 12 V voltage, in mV. -/
def limiterAct (s : State) (p mv : Nat) : State :=
  let e := min (fd s hubPwr fPWR_LIMIT_WATTS) (300 * mv / 1000)
  let f := fd s hubPwr fPWR_LIM_STAT_FAPPLIED
  let m := fmax s
  let minf := fd s hubPwr fPWR_LIM_CTL_MINF
  let overLimit := decide (e < p) || (List.range 16).any (fun i => decide (95 < fd s (memcPage i) fMEMC_STATUS_TEMP))
  let s := fdSet s hubPwr fPWR_LIM_STAT_LIMFAIL 0
  let setF := fun (s : State) (v : Nat) => fdSet s hubPwr fPWR_LIM_STAT_FAPPLIED v
  if m < f then setF s m
  else if overLimit && decide (minf < f) then setActed (bump (setF s (max minf (f - 4))) hubPwr 0xC10)
  else if overLimit then raiseInt (errAt (fdSet s hubPwr fPWR_LIM_STAT_LIMFAIL 1) hubPwr cRANGE 0xF6 f 0 0) hubPwr 10
  else if p + fd s hubPwr fPWR_LIM_CTL_RAISEGAP < e ∧ f < m then bump (setF s (min m (f + 4))) hubPwr 0xC18
  else s
/-- LIMITER_INTERVAL. -/
def limiterInterval (s : State) : State :=
  let q := s.power
  let p := if q.nsamp = 0 then 0 else q.psum / q.nsamp / 1000
  let mv := if q.nsamp = 0 then 12000 else q.vsum / q.nsamp
  let s := fdSet (setPower s { q with psum := 0, vsum := 0, nsamp := 0 }) hubPwr fPWR_MEAS_WATTS (min 4095 p)
  let s := if fb s hubPwr fPWR_LIM_CTL_LEN then limiterAct s p mv else s
  freqAll ((List.range 11).foldl thermalCap s)
/-- What the fast throttle covers: a die's clusters, or where `d` is 11 every cluster. -/
def throttled (d : Nat) : List Nat := (List.range 288).filter (fun k => d == 11 || k / 36 == d)
/-- The current in mA at which the throttle of a die, or of the module, engages (R546, R552). -/
def throttleLevel (s : State) (d : Nat) : Nat :=
  if d = 11 then 300000 else 1000 * fd s (pwr d) fPWR_STATUS_PHASES * (if d < 8 then 60 else if d = 8 then 30 else 50)
def fastThrottle (s : State) (d : Nat) : State :=
  if tget 0 s.power.throt d ≠ 0 then s
  else
    let s := setActed (setPower s { s.power with throt := tput s.power.throt d (s.now + 1) })
    let s := (throttled d).foldl (fun s k => fdSet s (clusPage k) fCLUS_STATUS_THROTTLED 1) s
    let s := (List.range 11).foldl (fun s e => if d = 11 ∨ e = d then fdSet s (pwr e) fPWR_STATUS_THROTTLED 1 else s) s
    raiseInt (bump (fdSet s hubPwr fPWR_LIM_STAT_THROTTLE 1) hubPwr 0xC20) (if d = 11 then hubPwr else pwr d) 12
/-- FAST_THROTTLE_RELEASE, after 50 µs at least; `ma` is the interval's average current. A cluster counts its PLL's cycles, one a tick for each 25 MHz,
since the throttle that is the last to release it (R552, R573, log entry 102). -/
def throttleRelease (s : State) (d ma : Nat) : State :=
  let since := tget 0 s.power.throt d - 1
  if tget 0 s.power.throt d = 0 ∨ s.now < since + usTicks 50 ∨ 95 * throttleLevel s d ≤ 100 * ma then s
  else
    let t := s.now - since
    let s := setPower s { s.power with throt := tdel s.power.throt d }
    let holds := fun (e : Nat) => tget 0 s.power.throt 11 != 0 || tget 0 s.power.throt e != 0
    let s := (throttled d).foldl (fun s k => if holds (k / 36) then s else
      bumpBy (fdSet s (clusPage k) fCLUS_STATUS_THROTTLED 0) (clusPage k) 0xC18 (t * fd s (clusPage k) fCLUS_FREQ_CURRENT)) s
    let s := (List.range 11).foldl (fun s e => if (d = 11 ∨ e = d) ∧ !holds e then fdSet s (pwr e) fPWR_STATUS_THROTTLED 0 else s) s
    if s.power.throt.isEmpty then fdSet s hubPwr fPWR_LIM_STAT_THROTTLE 0 else s

/-! ### Set points, frequencies, holds (R548, R555, R569) -/

/-- A refused write of CLUS_VSET or CLUS_FREQ (R572). -/
def clusRefused (s : State) (k off : Nat) : State := raiseInt (errAt s (clusPage k) cRANGE 0xF2 off 0 0) (clusPage k) 10
/-- SETPOINT_WRITE. -/
def setPointWrite (s : State) (k v : Nat) : State :=
  let pg := clusPage k
  let sp := v % 128
  if 80 < sp + fd s pg fCLUS_VSET_OFFSET then clusRefused s k 0x4C
  else
    setPins (clusVolts s k sp (fd s pg fCLUS_VSET_OFFSET)) { s.pins with setpt := tput s.pins.setpt k sp }
/-- FREQ_TARGET_WRITE. -/
def freqWrite (s : State) (k v : Nat) : State :=
  if fd s (clusPage k) fCLUS_FREQ_WALKF < v % 128 then clusRefused s k 0x50 else freqApply (fdSet s (clusPage k) fCLUS_FREQ_TARGET (v % 128)) k
/-- HOLD_WRITE: a wake request where it is set, and where it clears with every core in REST or OFF the rail falls at once. -/
def holdWrite (s : State) (k v : Nat) : State :=
  let was := fb s (clusPage k) fCLUS_CTL_HOLD
  let s := fdSet (fdSet s (clusPage k) fCLUS_CTL_HOLD v) (clusPage k) fCLUS_CTL_RETV (bits v 8 5)
  let s := if bit v 0 then (if was then s else railUp s k) else if was then railDown s k else s
  if bit v 1 then clusRelock s k else s
/-- CLUS_CORE_PWR written: each core's target, in the order of the cluster (R554, R569). -/
def coreTargets (s : State) (k v : Nat) : State :=
  (List.range 4).foldl (fun s i => match (clusterCores k)[i]? with
    | some c => if cstate s c = 3 then s else applyTarget (setTarget s c (bits v (2 * i) 2)) c (bits v (2 * i) 2)
    | none => s) s

/-! ### Die and module states (R559, R560, R566, R568) -/

def dieIdleEntry (s : State) (d : Nat) : State :=
  if !fb s (pwr d) fPWR_DIE_CTL_IDLE_EN || fd s (pwr d) fPWR_STATUS_DSTATE != 1 || (List.range 144).any (fun i => cstate s (144 * d + i) == 0) then s
  else fdSet (fdSet s (pwr d) fPWR_STATUS_DSTATE 2) (diePage .die d) fDIE_STATUS_STATE 4
def dieIdleExit (s : State) (d : Nat) : State :=
  if fd s (pwr d) fPWR_STATUS_DSTATE ≠ 2 then s else fdSet (fdSet s (pwr d) fPWR_STATUS_DSTATE 1) (diePage .die d) fDIE_STATUS_STATE 3
/-- STANDBY_ENTRY: ENTER written in PWR_STBY. -/
def standbyEnter (s : State) : State :=
  let p := pst s
  let why := if !contextsFree s then some 0 else if p == 3 || p == 2 || p == 5 || p == 7 then some 1 else if !fb s aon fAON_READY_DONE then some 2 else none
  match why with
  | some n => raiseInt (errAt s hubPwr cNOT_READY 0xF7 n 0 0) hubPwr 11
  | none =>
    let s := moduleDown s true
    setPins s { s.pins with standby := true, pwrGood := false }
/-- Everything but the always-on domain loses power, memory with it. -/
def mainOff (s : State) : State :=
  let s := moduleDown s false
  setPins s { s.pins with pwrGood := false, standby := false }
def thermalTrip (s : State) : State :=
  if !s.pins.aux then s else let s := mainOff s; setPins s { s.pins with trip := true }
/-- TEMP_SAMPLE: the sensors of a die in order, and on a compute die its two stacks; at 115 °C, or a stack's 105 °C, the module trips (R568). -/
def tempSample (s : State) (d : Nat) (temps stackTemps : List Nat) : State :=
  let ts := temps.take (sensors d)
  let tbl := (List.range ts.length).foldl (fun t i => tput t (64 * d + i) (ts.getD i 0 % 256)) s.power.temps
  let s := fdSet (setPower s { s.power with temps := tbl }) (pwr d) fPWR_STATUS_TEMP (ts.foldl max 0)
  let sts := if d < 8 then stackTemps.take 2 else []
  let s := (List.range 2).foldl (fun s i => match sts[i]? with | some t => stackTemp s (2 * d + i) t | none => s) s
  if ts.any (fun t => decide (115 ≤ t)) || sts.any (fun t => decide (105 ≤ t)) then thermalTrip s else s
/-- ALERT_N is low while an enabled source is active (R571). -/
def alertLow (s : State) : Bool :=
  let en := fun f => fb s hubPwr f
  (en fPWR_ALERT_EN_LIMFAIL && fb s hubPwr fPWR_LIM_STAT_LIMFAIL) ||
  (en fPWR_ALERT_EN_THERM && (List.range 11).any (fun d => decide (fd s (pwr d) fPWR_THERM_TLIM < fd s (pwr d) fPWR_STATUS_TEMP))) ||
  (en fPWR_ALERT_EN_XTAL && fb s (hubPage .clk) fCLK_STATUS_XTAL_FAIL) ||
  (en fPWR_ALERT_EN_PHASE && (List.range 11).any (fun d => decide (fd s (pwr d) fPWR_STATUS_PHASES < (if d < 8 then 6 else if d = 8 then 2 else 3)))) ||
  (en fPWR_ALERT_EN_THROT && fb s hubPwr fPWR_LIM_STAT_THROTTLE)

end Sys2Proof.Machine
end

