-- ==== Sys2Proof/Machine/PinOps.lean ====
section
/-! DEFINITION. Supplies, pins, watchdogs, AON_RST_CTL, the return of a die from reset, resets of the host port (R495–R502, R519–R525, R538, R560, R568, R636–R644). -/
namespace Sys2Proof.Machine
open Sys2Proof

/-! ### Supplies and pins -/

/-- AUX_3V3_APPLIED: step 1 begins, unless the flash bus is held from power-on. -/
def auxApplied (s : State) : State :=
  if s.pins.aux then s
  else
    let s := setCause s 0
    beginStep (setPins s { s.pins with aux := true, step1 := false, sampled := false, hold1 := !s.pins.flashExtN, memKept := false }) 1
/-- TWIN_SEL_SAMPLE: once, 1 ms after AUX_3V3 came. -/
def twinSelSample (s : State) (high : Bool) : State :=
  if !s.pins.aux || s.pins.sampled then setPins s { s.pins with twinSel := high }
  else fdSet (setPins s { s.pins with twinSel := high, sampled := true }) twinPage fCAUSE_PAIR_SIDE (b2n high)
/-- AUX_3V3_LOST: the always-on domain stops; class A fields and field closures are lost, what flash holds stays. -/
def auxLost (s : State) : State :=
  if !s.pins.aux then s
  else
    let s := mainOff s
    let s := clearPages s (fun _ => true) (fun k => k == .a || k == .m || k == .d || k == .v)
    let s := setTwin { s with fieldMap := [] } { smap := s.twin.smap }
    let s := setHost s { s.host with armed := none, fuse := none }
    let s := { s with power := {}, slices := [] }
    let p := s.pins
    setPins s { v12 := p.v12, pwrEn := p.pwrEn, flashExtN := p.flashExtN, twinSel := p.twinSel, setpt := p.setpt, lost12 := p.lost12 }
/-- PWR_EN_RISE; `held`: PWR_EN has been low for at least 10 ms, which releases the thermal trip latch. -/
def pwrEnRise (s : State) (held : Bool) : State :=
  if s.pins.pwrEn then s
  else
    let s := setPins s { s.pins with pwrEn := true }
    let s := if s.pins.trip && held then setPins (setCause s 8) { s.pins with trip := false } else s
    tryBoot s
def pwrEnFall (s : State) : State :=
  if !s.pins.pwrEn then s
  else
    let s := setPins s { s.pins with pwrEn := false }
    if s.pins.step1 then mainOff s else s
/-- MAIN_SUPPLY_LOST and MAIN_SUPPLY_RESTORED. -/
def mainLost (s : State) : State :=
  if !s.pins.v12 then s
  else
    let s := setPins s { s.pins with v12 := false, lost12 := true }
    if s.pins.step1 then mainOff s else s
def mainRestored (s : State) : State :=
  if s.pins.v12 then s
  else
    let s := if s.pins.lost12 && s.pins.aux then setCause s 1 else s
    tryBoot (setPins s { s.pins with v12 := true, lost12 := false })
/-- MOD_RST_N_ASSERT: a low pulse of `us` µs. Between the glitch limit and the time that assures a reset the spec states neither (R638). -/
def modRst (s : State) (us : Nat) : State :=
  let p := s.pins
  if !p.aux || !p.step1 || us ≤ 1 then s
  else if p.standby then (if us ≥ 1000 then moduleReset s 7 true else s)
  else if us ≥ 10 then moduleReset s 2 p.pwrGood
  else freeUsed (if freeVal s % 2 = 1 then moduleReset s 2 p.pwrGood else s)
/-- FLASH_EXT_N_ASSERT: seen at power-on, or while the module is held in reset. -/
def flashExtLow (s : State) : State :=
  if !s.pins.aux || (s.pins.step1 && stepNo s == 0 && !fb s aon fAON_READY_DONE) then setPins s { s.pins with flashExtN := false } else s
def flashExtHigh (s : State) : State :=
  if s.pins.flashExtN then s else tryBoot (setPins s { s.pins with flashExtN := true, hold1 := false })

/-! ### Watchdogs and AON_RST_CTL (R497, R522, R523) -/

/-- The reset of a die, with the ABORT that a compute die's own reset brings (R512), and the grade that follows it (R534). -/
def resetDie (s : State) (d cause : Nat) : State :=
  if d < 8 then gradeEval (abortAll (dieReset s d cause) cCLOSURE) else if d = 8 then moduleReset s 4 true else gradeEval (portDieReset s d cause)
/-- DIE_WATCHDOG_EXPIRY of controller `n`. -/
def dieWdog (s : State) (d n : Nat) : State :=
  let pg := diePage .die d
  if fd s pg fDIE_WDOG_PERIOD = 0 ∨ closed s (cmDie d) then s
  else
    let s := fdSet (bump s pg 0xC28) pg (if n = 0 then fDIE_STATUS_CTL0_OK else fDIE_STATUS_CTL1_OK) 0
    let s := raiseInt (errAt s pg cTIMEOUT 0xE0 n 0 0) pg 8
    if d = 8 then s
    else if d < 8 ∧ (fb s pg fDIE_STATUS_CTL0_OK ∨ fb s pg fDIE_STATUS_CTL1_OK) then s
    else if d < 8 ∧ fb s aon fAON_RECOVERY_ESCALATE then moduleReset s 4 true
    else resetDie s d 3
/-- DIE_WDOG_KICK written; a controller release 3 has restarted is within its period again. -/
def dieKick (s : State) (d v : Nat) : State :=
  let pg := diePage .die d
  let s := if bit v 0 then fdSet s pg fDIE_STATUS_CTL0_OK 1 else s
  if bit v 1 ∧ d < 8 then fdSet s pg fDIE_STATUS_CTL1_OK 1 else s
def hubWdog (s : State) : State := if fd s aon fAON_HWDOG_PERIOD = 0 ∨ !s.pins.pwrGood then s else moduleReset (bump s aon 0xC10) 6 true
def footpathHubLoss (s : State) (d : Nat) : State := if closed s (cmDie d) then s else resetDie s d 4
/-- A write of AON_RST_CTL by a class. -/
def rstCtl (s : State) (cls v : Nat) : State :=
  let kind := v % 4
  let d := bits v 4 4
  let wrong := decide (kind = 0) || (kind == 1 && decide (8 ≤ d)) || (kind == 2 && !(d == 9 || d == 10))
  if !bit v 31 then s
  else
    let code := if wrong then cRANGE else if kind != 3 && closed s (cmDie d) then cCLOSURE
      else if fb s aon fAON_RST_STAT_BUSY || (kind != 3 && !fb s aon fAON_READY_DONE) then cNOT_READY else cOK
    let s := fdSet s aon fAON_RST_STAT_CODE code
    if code ≠ cOK then raiseInt (errAt s aon code 0xE3 kind 0 0) aon 9
    else if kind = 3 then setHub s { s.hub with rstDue := some (if cls = 2 then 3 else if cls = 5 then 5 else 4) }
    else resetDie s d 2
/-- MODULE_RESET: the reset that a write of KIND 3 made due, 10 µs after it. -/
def moduleResetDue (s : State) : State := match s.hub.rstDue with | some c => moduleReset s c true | none => s
def rstClr (s : State) (v : Nat) : State := if bit v 0 then wr (wr s aon 0x44 0) aon 0x48 0 else s

/-! ### The return of a die from reset (R346, R500, R501) -/

/-- A core image's registers and EN at its core. -/
def imageRegs (s : State) (id : Nat) (p : Place) : State :=
  let s := bindCore s p.core (ctxTag s id) true
  let s := p.regs.foldl (fun s e => if imgBlk e.1 = .rout then wr s (rPage p.core) e.2.1 e.2.2.toNat else withMate s p.core (fun s c => wr s (corePage (imgBlk e.1) c) e.2.1 e.2.2.toNat)) s
  fdSet s (rPage p.core) fROUT_EN_EN p.en
/-- Release 3 makes a die's cores trusted again: home copies, zeros, local memory, then their targets and the contexts they serve, whose clusters keep their PLLs locked (R20, log entry 38). -/
def reloadCores (s : State) (d : Nat) : State :=
  let cs := (List.range 144).map (fun i => 144 * d + i)
  let imgs := s.hub.ctxs.foldl (fun l e => match e.2.itin with | some i => l ++ (i.place.filter (fun p => p.core / 144 == d)).map (fun p => (e.1, p)) | none => l) []
  let s := cs.foldl (fun s c =>
    if coreClosed s c then s
    else
      let s := match imgs.find? (fun e => e.2.core == c || (e.2.core + 1 == c && isFollower s c)) with
        | some (id, p) => loadLocal (loadHomes (if p.core = c then imageRegs s id p else s) c) c p.img
        | none => setCore (loadHomes s c) c { core (loadHomes s c) c with seq := {} }
      let s := fdSet s (spadPage c) fSPAD_STATUS_UNTRUSTED 0
      applyTarget s c (coreTarget s c)) s
  syncHolds s cs
/-- A die returns from reset; its memory controllers begin the quick verify that TRAINING_COMPLETE ends (R346). -/
def dieReturned (s : State) (d : Nat) : State :=
  if (s.hub.dieRst.find? (fun e => e.1 == d)).isNone then s
  else
    let s := setHub s { s.hub with dieRst := tdel s.hub.dieRst d }
    let s := raiseInt (bump (fdSet s aon fAON_RST_STAT_BUSY (b2n (!s.hub.dieRst.isEmpty))) aon 0xC08) aon 8
    let s := fdSet (fdSet s (diePage .die d) fDIE_STATUS_STATE 3) (diePage .die d) fDIE_STATUS_CTL0_OK 1
    let s := fdSet (fdSet s (pwr d) fPWR_STATUS_DSTATE 1) (diePage .clk d) fCLK_STATUS_LOCKED (b2n (refPresent s))
    let s := if d < 8 then
        let s := fdSet s (diePage .die d) fDIE_STATUS_CTL1_OK 1
        let s := (List.range 36).foldl (fun s k => let k := 36 * d + k; fdSet (fdSet s (clusPage k) fCLUS_VSET_SETPT (tget 60 s.pins.setpt k)) (clusPage k) fCLUS_VSET_OFFSET (clusOffset s k)) s
        let s := [2 * d, 2 * d + 1].foldl (fun s m => if fb s (memcPage m) fMEMC_STATUS_TRAINED ∧ !closed s (cmStack m) then setStack (fdSet s (memcPage m) fMEMC_STATUS_STATE 1) m { stack s m with train := some false } else s) s
        let s := ((List.range 144).map (fun i => 144 * d + i)).foldl (fun s c => if cstate s c = 0 ∨ cstate s c = 1 then setBanks (setCstate s c 0) c 0 else s) s
        (List.range 64).foldl (fun s i => journalResend s (64 * d + i)) (reloadCores s d)
      else (List.range 40).foldl (fun s p => if portDie p = d ∧ !closed s (cmPort p) then portEnable (fdSet s (portPage p) fPORT_CTL_ENABLE 1) p else s)
        (fdSet s (diePage .clk d) fCLK_STATUS_SREF_OK 1)
    gradeEval s

/-! ### Resets of the host port (R502, R595, R609) -/

/-- The rings of a function are disabled, and what they had fetched writes no record. -/
def ringsOff (s : State) (f : Nat → Bool) : State :=
  let s := setHost s { s.host with rings := tfilter (fun r _ => !f r) s.host.rings, cmds := s.host.cmds.filter (fun k => !f k.ring) }
  let s := setHub s { s.hub with ctxs := tmap (fun _ (x : Ctx) => { x with tear := x.tear.filter (fun r => !f r.ring) }) s.hub.ctxs }
  { s with stg := tfilter (fun k _ => !(decide (vfPage 0 ≤ k) && f (64 + k - vfPage 0))) s.stg, latch := s.latch.filter (fun l => !(decide (vfPage 0 ≤ l.page) && f (64 + l.page - vfPage 0))) }
/-- Every context created through the host port is torn down, with no record to write; one carried for the partner is not such a context. -/
def teardownAll (s : State) (f : Ctx → Bool) : State :=
  (s.hub.ctxs.map (·.1)).foldl (fun s id => if ((ctx s id).st = 1 ∨ (ctx s id).st = 2) ∧ !(ctx s id).carried ∧ f (ctx s id) then teardown s id none else s) s
/-- Every field of the HOST page takes its reset value. -/
def hostPageReset (s : State) : State := clearPages s (fun p => p.blk == .host) (fun _ => true)
/-- HOST_LINK_RESET: 0 PERST_N, 1 hot reset, 2 loss of the link. -/
def hostLinkReset (s : State) (kind : Nat) : State :=
  let s := teardownAll (ringsOff s (fun _ => true)) (fun _ => true)
  let s := setHost (hostPageReset s) { s.host with pcie := {} }
  gradeEval (if kind = 1 then bump s hostPg 0xC20 else s)
/-- HOST_REFCLK_LOSS. -/
def hostRefLoss (s : State) : State :=
  let clk := hubPage .clk
  if !fb s clk fCLK_STATUS_HREF_OK then s else hostLinkReset (raiseInt (fdSet s clk fCLK_STATUS_HREF_OK 0) clk 11) 2
/-- FUNCTION_LEVEL_RESET of function `fn`: 0 the PF, n + 1 VF n. The link's own state stays (log entry 39). -/
def functionReset (s : State) (fn : Nat) : State :=
  if fn = 0 then
    let st := rd s hostPg 0x40 % 2 ^ 7
    let s := teardownAll (ringsOff s (fun _ => true)) (fun _ => true)
    let s := setHost (hostPageReset s) { s.host with pcie := {} }
    bump (wr s hostPg 0x40 (setBits (rd s hostPg 0x40) 0 7 st)) hostPg 0xC20
  else
    let s := teardownAll (ringsOff s (fun r => r == 63 + fn)) (fun x => x.vf == some (fn - 1))
    let q := s.host.pcie
    let s := setHost s { s.host with pcie := { msixEn := tdel q.msixEn fn, table := tfilter (fun k _ => decide (k < vecKey fn 0) || decide (vecKey fn 4 ≤ k)) q.table, pba := tfilter (fun k _ => decide (k < vecKey fn 0 / 4) || decide (vecKey fn 0 / 4 + 4 ≤ k)) q.pba, d3 := tdel q.d3 fn } }
    bump s hostPg 0xC20
/-- HOST_LINK_TRAINED, from the end of step 2. -/
def hostTrained (s : State) (width rate : Nat) (flit : Bool) : State :=
  if fd s aon fAON_GRADE_IN0_HCORES = 0 then s
  else
    let s := fdSet (fdSet (fdSet s hostPg fHOST_STATUS_WIDTH width) hostPg fHOST_STATUS_RATE rate) hostPg fHOST_STATUS_FLIT (b2n flit)
    gradeEval (fdSet s (hubPage .clk) fCLK_STATUS_HREF_OK 1)

end Sys2Proof.Machine
end

