-- ==== Sys2Proof/Machine/HostOps.lean ====
section
/-! DEFINITION. Rings, host commands, mailboxes, BAR accesses, the management port, fuses (R30, R31, R578–R614). -/
namespace Sys2Proof.Machine
open Sys2Proof

/-! ### Rings (R583–R586) -/

/-- Distance from `b` to `a` modulo 65,536. -/
def ringDist (a b : Nat) : Nat := (a + 65536 - b) % 65536
/-- A doorbell of a ring (R584). An event of a VF ring goes to its own EVENT register. -/
def doorbell (s : State) (r v : Nat) : State :=
  let x := ring s r
  let tail := v % 65536
  let chead := bits v 16 16
  let n := 2 ^ x.logsize
  if n < ringDist tail x.head ∨ n < ringDist x.cplw chead ∨ !x.en then
    let s := setRing s r { x with state := 2, events := if r < 64 then x.events else x.events ||| 32 }
    let s := raiseInt (errAt s hostPg cRANGE 0x10 r r 0) hostPg 8
    if r < 64 then hostEvent s 5 else s
  else setRing s r { x with tail := tail, chead := chead }
/-- A write of a ring's CFG (R583, R609); the code says whether it stands. -/
def ringCfg (s : State) (r v : Nat) : State × Nat :=
  let x := ring s r
  let en := bit v 4
  if v % 16 < 4 ∨ 12 < v % 16 ∨ (64 ≤ r ∧ 3 < bits v 16 11) then (s, cRANGE)
  else if x.en && !en && x.pend != 0 then (s, cNOT_READY)
  else if x.en && v % 16 != x.logsize then (s, cNOT_READY)
  else
    let y := { x with logsize := v % 16, en := en, vector := bits v 16 11 }
    let y := if !x.en && en then { y with tail := 0, chead := 0, head := 0, cplw := 0, state := 1 } else if !en then { y with state := 0 } else y
    (setRing s r y, cOK)
/-- A write of a ring's address pair. -/
def ringAddr (s : State) (r : Nat) (cpl : Bool) (v : Nat) : State × Nat :=
  let x := ring s r
  let a := v / 4096 * 4096
  if x.en then (s, cNOT_READY) else (setRing s r (if cpl then { x with cpl := a } else { x with cmd := a }), cOK)
/-- A command that no row of the command set serves: reserved OPCODE, TWIN_BIND operation, FABRIC_CFG operation (R586, R590). -/
def noSuchCommand (e : Nat) : Bool :=
  let op := entOp e
  let sub := entBytes e 8 1
  op == 0 || decide (9 < op) || (op == 7 && !(decide (1 ≤ sub) && decide (sub ≤ 4))) || (op == 8 && !(decide (1 ≤ sub) && decide (sub ≤ 8)))
/-- COMMAND_FETCH: the entry, and what hub firmware reads at the host addresses it names. -/
def commandFetch (s : State) (r entry : Nat) (itin : Option Itin) (table : List (BitVec 128)) : State :=
  let x := ring s r
  if !x.en || x.state != 1 || x.head == x.tail || decide (2 ^ x.logsize ≤ ringDist x.head x.chead) then s
  else
    let s := bump (setRing s r { x with head := (x.head + 1) % 65536, pend := x.pend + 1 }) hostPg 0xC00
    let k : HCmd := { ring := r, entry := entry % 2 ^ 512, itin := itin, table := table }
    if noSuchCommand k.entry then
      finish s k (firstCode (cmdCheck s k (entTag k.entry != 0)) cRANGE) (entTag k.entry) 0
    else setHost s { s.host with cmds := s.host.cmds ++ [k] }
/-- The next command of a ring, where it has the opcode and meets `p`, taken and run. -/
def withCmd (s : State) (r op : Nat) (p : HCmd → Bool) (f : State → HCmd → State) : State :=
  match nextCmd s r op with
  | none => s
  | some k => if p k then f (takeCmd s k) k else s
def anyCmd : HCmd → Bool := fun _ => true
def subIs (n : Nat) : HCmd → Bool := fun k => entBytes k.entry 8 1 == n
def cmdCtx (k : HCmd) : Nat := entTag k.entry / 64
/-- The command ends with a code; the context's tag goes with it. -/
def endCmd (s : State) (k : HCmd) (code result : Nat) : State := finish s k code (entTag k.entry) result

/-! ### Contexts (R410, R504, R590) -/

def vfOf (k : HCmd) : Option Nat := if k.ring < 64 then none else some (k.ring - 64)
/-- The lowest free ID, of the side's parity while the module is bound. -/
def freeCtx (s : State) : Option Nat :=
  (List.range 1024).find? (fun i => (ctx s i).st == 0 && (pst s == 0 || i % 2 == thisSide s))
def ctxCreate (s : State) (k : HCmd) : State :=
  let conv := entBytes k.entry 8 1
  let vf := vfOf k
  let holds := match vf with | some n => conv % 2 == 1 || s.hub.ctxs.any (fun e => e.2.st != 0 && e.2.vf == some n) | none => false
  let code := firstCode (cmdCheck s k false) (if holds then cDENIED else if 1 < conv ∨ entTag k.entry ≠ 0 then cRANGE else cOK)
  if code ≠ cOK then finish s k code 0 0
  else match freeCtx s with
    | none => finish s k cNO_CHANNEL 0 0
    | some id =>
      let x := ctx s id
      let s := setCtx s id { gen := x.gen, drains := x.drains, st := 1, convoy := conv == 1, vf := vf }
      let s := match vf with | some n => setHost s { s.host with vfs := tput s.host.vfs n (BitVec.ofNat 32 (2 ^ 16 + ctxTag s id)) } | none => s
      finish s k cOK (ctxTag s id) 0

/-- STEP_RUNs at the head of a context's queue whose steps are all done are completed, in turn (R591). -/
def runsDone : Nat → State → Nat → State
  | 0, s, _ => s
  | n + 1, s, id =>
    let x := ctx s id
    match x.runs with
    | [] => s
    | r :: l =>
      if r.done < r.count then s
      else runsDone n (complete (setCtx s id { x with runs := l }) r.ring r.cid r.flags cOK (ctxTag s id) (x.mile + 2 ^ 32 * r.done)) id
def stepRun (s : State) (k : HCmd) : State :=
  let id := cmdCtx k
  let x := ctx s id
  let code := firstCode (cmdCheck s k true) (if x.itin.isNone then cNOT_READY else cOK)
  if code ≠ cOK then endCmd s k code (x.mile)
  else
    let s := setCtx s id { x with runs := x.runs ++ [{ ring := k.ring, cid := entCid k.entry, flags := entFlags k.entry, count := entBytes k.entry 8 2 }] }
    ctxHold (runsDone (x.runs.length + 1) s id) id
/-- MILESTONE_WAITs that a milestone ends (R592). -/
def waitsDone (s : State) (id : Nat) : State :=
  let x := ctx s id
  let s := (x.waits.filter (fun w => mileLe w.mile x.mile)).foldl (fun s w => complete s w.ring w.cid w.flags cOK (ctxTag s id) x.mile) s
  setCtx s id { ctx s id with waits := x.waits.filter (fun w => !mileLe w.mile x.mile) }
def milestoneWait (s : State) (k : HCmd) : State :=
  let id := cmdCtx k
  let code := cmdCheck s k true
  let x := ctx s id
  let m := entBytes k.entry 8 4
  if code ≠ cOK then endCmd s k code (if x.st = 0 then 0 else x.mile)
  else if mileLe m x.mile then endCmd s k cOK x.mile
  else if entBytes k.entry 12 4 = 0 then endCmd s k cTIMEOUT x.mile
  else setCtx s id { x with waits := x.waits ++ [{ ring := k.ring, cid := entCid k.entry, flags := entFlags k.entry, mile := m }] }
def waitTimeout (s : State) (id ring cid : Nat) : State :=
  let x := ctx s id
  match x.waits.find? (fun w => w.ring == ring && w.cid == cid) with
  | none => s
  | some w => complete (setCtx s id { x with waits := x.waits.erase w }) w.ring w.cid w.flags cTIMEOUT (ctxTag s id) x.mile
def ctxTeardown (s : State) (k : HCmd) : State :=
  let code := cmdCheck s k true
  if code ≠ cOK then endCmd s k code 0
  else teardown s (cmdCtx k) (some { ring := k.ring, cid := entCid k.entry, flags := entFlags k.entry, count := 0 })

/-- MODULE_DIGEST (R452): 4 bytes of a core's rank and its 8-byte step digest, in ascending rank. -/
def moduleDigest (s : State) (id m : Nat) : DWord :=
  match (ctx s id).itin with
  | none => 0
  | some i => (sortBy (fun a b => decide (a.rank ≤ b.rank)) i.place).foldl (fun h p => crc64 h (natLe 4 p.rank ++ natLe 8 ((coreDigest s p.core m).getD 0).toNat)) 0
/-- The milestone's mark has been sent since the job last resumed. -/
def isMarked (s : State) (m : Nat) : Bool := match s.twin.marked with | some k => mileLe m k | none => false
/-- No stream waits for the acknowledgement of a milestone's mark. -/
def markAcked (s : State) (m : Nat) : Bool := s.twin.streams.all (fun e => e.2.sent.all (fun r => r.mark != some m))
/-- The twin's condition of R21, judged in WARM on the mark sent since the job last resumed (R514); an ISOLATED module's records are held (R427). -/
def stepComplete (s : State) (m : Nat) : Bool :=
  match pairMode s with
  | 1 => pst s == 3 && mileLe m (rd s twinPage 0x118) && isMarked s m && markAcked s m
  | 2 => pst s == 3 && (match s.twin.agreed with | some a => mileLe m a | none => false)
  | _ => true
/-- The module digest of a milestone that every core has executed goes to the twin as soon as it is formed (R422). -/
def formDigest (s : State) (id m : Nat) : State := if pairMode s = 2 ∧ !digestFormed s m then ownDigest s m (moduleDigest s id m) else s

/-- STEP_POST (R510): the next step of an active context that has a run with steps left, or steps to repeat; a step its cores have executed
waits for its completion. In WARM the twin must have acknowledged the milestone before the last, and with the journal on the last must be
marked (R416). -/
def stepPost (s : State) (id : Nat) : State :=
  let x := ctx s id
  let done := match x.posted with | some p => allMiled s id p | none => true
  let s' := match x.posted with | some p => formDigest s id p | none => s
  let owed := x.owed ++ x.posted.toList
  let k := owed.getLast?.getD x.mile
  let m := (k + 1) % 2 ^ 32
  let left := (x.runs.map (fun r => r.count - r.done)).sum
  let want := mileLe m x.top || decide (countp (fun o => !mileLe o x.top) owed < left)
  let warm := twinMode s != 1 || mileLe ((k + 2 ^ 32 - 1) % 2 ^ 32) (rd s twinPage 0x118)
  let marked := !fb s twinPage fCAUSE_JCTL_JEN || owed.isEmpty || isMarked s k
  if x.st != 1 || !done || x.held || x.barred.isSome || x.wait != 0 || x.bar.phase != 0 || x.itin.isNone || !want || !warm || !marked then s
  else postStep (setCtx s' id { ctx s' id with owed := owed }) id m
/-- A milestone completed: the oldest of those not completed. -/
def recordStep (s : State) (id m : Nat) : State :=
  let x := ctx s id
  let new := !mileLe m x.top
  let runs := match x.runs with | r :: l => if new then { r with done := r.done + 1 } :: l else r :: l | [] => []
  let s := setCtx s id { x with mile := m, top := if new then m else x.top, posted := if x.owed.isEmpty then none else x.posted, owed := x.owed.tail, runs := runs, fails := 0 }
  let s := twinMilestone s
  ctxHold (waitsDone (runsDone (runs.length + 1) s id) id) id
/-- STEP_COMPLETION (R21). -/
def stepCompletion (s : State) (id : Nat) : State :=
  let x := ctx s id
  let ran : Bool := match x.posted with | some m => allMiled s id m | none => false
  let s := match x.posted with | some m => if ran then formDigest s id m else s | none => s
  match (if x.owed.isEmpty ∧ ran then x.posted else x.owed.head?) with
  | none => s
  | some m => if (ctx s id).bar.phase ≠ 0 ∨ !stepComplete s m then s else recordStep s id m

/-! ### WINDOW, HEAL_QUERY (R590, R593) -/

def windowCmd (s : State) (k : HCmd) : State :=
  let id := cmdCtx k
  let base := entBytes k.entry 8 8
  let size := entBytes k.entry 16 4
  let x := ctx s id
  let granted := (List.range (min size 65536)).all (fun i =>
    let g := (tget 0 s.grant ((base / 2 ^ 24 + i) % 65536)).toNat
    (bits g 16 2 == 1 || bits g 16 2 == 2) && g % 65536 == ctxTag s id)
  let bad := decide (base % 2 ^ 24 ≠ 0) || decide (4096 < size) || decide (2 ^ 40 < base + size * 2 ^ 24)
  let code := firstCode (cmdCheck s k true) (if k.ring < 64 ∨ !granted then cDENIED else if bad then cRANGE else cOK)
  if code ≠ cOK then endCmd s k code 0 else endCmd (setCtx s id { x with winBase := base, winSize := size }) k cOK 0

/-- Bytes of a summary (R593). -/
def healSummary (s : State) : List Byte :=
  let m := fun (n : Nat) (f : Nat → Bool) => (List.range n).foldl (fun v i => if f i then v + 2 ^ i else v) 0
  let b := fun f => b2n (fb s aon f)
  natLe 1 (gradeOf s) ++ natLe 1 (b fAON_READY_DONE + 2 * b fAON_READY_WARM + 4 * b fAON_READY_TK + 8 * b fAON_READY_WAITFAB) ++ natLe 2 (gradeWhy s) ++
  ((List.range 8).map (fun d => natLe 1 (goodCores s d))).flatten ++ natLe 2 (m 16 (stackUp s)) ++ natLe 2 0 ++ natLe 5 (liveMask s) ++ natLe 1 (pst s) ++ natLe 1 (twinMode s) ++
  natLe 1 0 ++ natLe 4 ((s.heal.errlog.head?.map (·.1)).getD s.heal.errSeq) ++ natLe 36 0
def healEntry (n : Nat) (e : LogEnt) : List Byte :=
  natLe 8 e.time ++ natLe 4 n ++ natLe 1 e.die ++ natLe 1 e.type ++ natLe 1 e.code ++ natLe 1 e.source ++ natLe 2 e.inst ++ natLe 2 e.detail ++ natLe 2 e.tag ++
  natLe 1 e.action ++ natLe 1 0 ++ natLe 8 e.addr
/-- Entries from a sequence number on, of one context where `only` names it. -/
def healEntries (s : State) (start max : Nat) (only : Option Nat) : List (Nat × LogEnt) :=
  (s.heal.errlog.filter (fun e => mileLe start e.1 && (match only with | some id => e.2.tag / 64 == id && e.2.tag != 0 | none => true))).take max
def nextSeq (s : State) (l : List (Nat × LogEnt)) : Nat := match l.getLast? with | some e => (e.1 + 1) % 2 ^ 32 | none => s.heal.errSeq
def healQuery (s : State) (k : HCmd) : State :=
  let addr := entBytes k.entry 8 8
  let len := entBytes k.entry 16 4
  let only := match vfOf k with | some n => (s.hub.ctxs.find? (fun e => e.2.st != 0 && e.2.vf == some n)).map (·.1) | none => none
  let code := firstCode (cmdCheck s k (k.ring ≥ 64 || entTag k.entry != 0)) (if addr % 64 ≠ 0 ∨ len % 32 ≠ 0 then cRANGE else cOK)
  if code ≠ cOK then endCmd s k code 0
  else if len = 0 then endCmd s k cOK (2 ^ 32 * entBytes k.entry 20 4)
  else
    let only := if entTag k.entry != 0 then some (cmdCtx k) else only
    let l := healEntries s (entBytes k.entry 20 4) ((len - 64) / 32) only
    let bs := (healSummary s ++ (l.map (fun e => healEntry e.1 e.2)).flatten).take len
    endCmd (send s (.hostData addr bs)) k cOK (l.length + 2 ^ 32 * nextSeq s l)

/-! ### FABRIC_CFG (R394, R533, R594) -/

/-- A byte of the operands that the operation does not use is not zero (R586, R594). -/
def fabUnused (e : Nat) : Bool :=
  let nz := fun (i n : Nat) => entBytes e i n != 0
  match entBytes e 8 1 with
  | 1 => nz 9 1 || nz 12 52
  | 2 => nz 9 3 || nz 24 40
  | 3 => nz 10 54 | 4 => nz 10 54 | 5 => nz 10 54
  | 6 => nz 14 50
  | _ => nz 9 55
def portsOff (s : State) : Bool := (List.range 40).all (fun p => pState s p == 0)
def xBank (s : State) : Option Nat := (List.range 2).find? (fun b => xRetired s 9 b && xRetired s 10 b)
/-- One operation by its entry: the code and RESULT. `saved`: a save to flash succeeds. -/
def fabricCfg (s : State) (e : Nat) (table : List (BitVec 128)) (saved : Bool) : State × Nat × Nat :=
  let b9 := entBytes e 9 1
  match entBytes e 8 1 with
  | 1 =>
    let dev := entBytes e 10 2
    if 1023 < dev then (s, cRANGE, 0)
    else if !portsOff s || s.hub.ctxs.any (fun x => x.2.st == 1) then (s, cNOT_READY, 0)
    else let s := setDevice s dev; (setHost s { s.host with dev := true }, cOK, 0)
  | 2 =>
    let first := entBytes e 12 2
    let n := entBytes e 14 2
    if 1024 < first + n then (s, cRANGE, 0)
    else if n = 0 then (s, cOK, 0)
    else match xBank s with
      | none => (s, cNOT_READY, 0)
      | some b =>
        let s := [9, 10].foldl (fun s d => (List.range n).foldl (fun s i =>
          setRoutes s d { routesOf s d with ent := tput (routesOf s d).ent (1024 * b + first + i) ((table.getD i 0) &&& BitVec.ofNat 128 (2 ^ 121 - 1)), stage := [] }) s) s
        (setHost s { s.host with bank := true }, cOK, 0)
  | 3 =>
    if 1 < b9 then (s, cRANGE, 0)
    else
      let ok := !xFlipping s && xRetired s 9 (1 - injX s 9) && xRetired s 10 (1 - injX s 9)
      (xctlWrite s 9 (b9 + 2), if ok then cOK else cNOT_READY, 0)
  | 4 => if 1 < b9 then (s, cRANGE, 0) else (s, cOK, (rd s (xPage 9) (0x4C + 4 * b9) + rd s (xPage 10) (0x4C + 4 * b9)) % 2 ^ 32)
  | 5 =>
    if 1 < b9 then (s, cRANGE, 0)
    else if injX s 9 = b9 then (s, cNOT_READY, 0)
    else ([9, 10].foldl (fun s d => fdSet s (xPage d) (fXTAB_XCTL_RETIRE0.sub b9) 1) s, cOK, 0)
  | 6 =>
    let dev := entBytes e 10 2
    let pp := entBytes e 12 1
    let chk := entBytes e 13 1
    if 40 ≤ b9 ∨ 1023 < dev ∨ 40 ≤ pp ∨ 1 < chk then (s, cRANGE, 0)
    else
      let pg := portPage b9
      let t := fdSet (fdSet (fdSet s pg fPORT_EXPECT_DEVICE dev) pg fPORT_EXPECT_PORT pp) pg fPORT_EXPECT_CHECK chk
      (if pState s b9 = 6 ∧ rd t pg 0x4C ≠ rd s pg 0x4C then portRetrain t b9 else t, cOK, 0)
  | 7 => if !s.host.dev || !s.host.bank then (s, cNOT_READY, 0) else (gradeEval (enablePorts (fdSet s aon fAON_READY_WAITFAB 0)), cOK, 0)
  | _ => if saved then (setFlash s { s.flash with fab := some (fabRecord s) }, cOK, 0) else (s, cTIMEOUT, 0)
def fabricCmd (s : State) (k : HCmd) (saved : Bool) : State :=
  let code := firstCode (cmdCheck s k false) (if 64 ≤ k.ring then cDENIED else if entTag k.entry ≠ 0 || fabUnused k.entry then cRANGE else cOK)
  if code ≠ cOK then endCmd s k code 0
  else let r := fabricCfg s k.entry k.table saved; endCmd r.1 k r.2.1 r.2.2

/-- TWIN_BIND of one operation: the pair's part and the record (R409, R536, R590). -/
def twinCmd (s : State) (k : HCmd) (f : State → State × Nat) : State :=
  let op := entBytes k.entry 8 1
  let code := firstCode (cmdCheck s k false) (if 64 ≤ k.ring then cDENIED else if entTag k.entry ≠ 0 ∨ (op ≠ 2 ∧ entBytes k.entry 9 1 ≠ 0) ∨ (op ≠ 1 ∧ entBytes k.entry 10 2 ≠ 0) then cRANGE else cOK)
  if code ≠ cOK then endCmd s k code 0
  else let r := f s; endCmd r.1 k r.2 (if r.2 = cOK then pst r.1 + 2 ^ 8 * twinMode r.1 else 0)

/-! ### Mailboxes (R596) -/

/-- A word for hub control core `n`, which answers its words in turn in its own time. -/
def mailboxIn (s : State) (n v : Nat) : State := setHost s { s.host with mbox := s.host.mbox ++ [(n, BitVec.ofNat 32 v)] }
/-- Hub control core `n` answers a word of one of the two kinds release 3 serves. -/
def mailboxAnswer (s : State) (n want : Nat) : State :=
  match s.host.mbox.find? (fun e => e.1 == n) with
  | none => s
  | some (_, w) =>
    if w.toNat ≠ want then s
    else
      let s := setHost s { s.host with mbox := s.host.mbox.erase (n, w) }
      let ans := if want = 1 then (hubImg s (fd s aon fAON_START_STAT_SLOT)).release else want
      hostEvent (wr s hostPg (0x90 + 4 * n) ans) 4
/-- A word of another kind is discarded at once. -/
def mailboxWrite (s : State) (n v : Nat) : State := if v = 1 ∨ v = 2 then mailboxIn s n v else s

/-! ### BAR accesses (R27, R30, R31, R580, R581) -/

/-- BAR2 base, and whether a new one is a multiple of the BAR2 size. -/
def bar2Base (s : State) : Nat := fd s hostPg fHOST_BAR2_BASE_LO_BASE * 2 ^ 30 + fd s hostPg fHOST_BAR2_BASE_HI_BASE * 2 ^ 32
def bar2Size (s : State) : Nat := 2 ^ (30 + fd s hostPg fHOST_STATUS_BAR2SIZE)
/-- An access of memory by unit `u` of H, chunk by chunk, each checked as a slice checks it: what a refused one reads is zero, and what it
writes is dropped (R36, R333, R336, R337). -/
def unitMem (s : State) (u lo len : Nat) (write : Option (List Byte)) : State × List Byte :=
  let b := injEpoch s 8 u
  (chunksOf lo len).foldl (fun r k =>
    let s := r.1
    let g := (place s b k.1).1
    let p : Pkt := { type := if write.isSome then 10 else 8, sepoch := b, sdie := 8, sunit := u, addr := k.1, rlen := k.2 }
    let code := reqCode s g p
    if code ≠ cOK then (reqRefused s g p code, r.2 ++ List.replicate k.2 0)
    else match write with
      | some bs => (memWrite s b k.1 ((bs.drop (k.1 - lo)).take k.2) false, r.2)
      | none => let s := memServe s b k.1 k.2 0; (s, r.2 ++ (memRead s b k.1 k.2).1)) (s, [])
/-- Bytes of memory read or written by the host port, in whole 64-bit words. -/
def hostMem (s : State) (fn a n : Nat) (write : Bool) (data : List Byte) : State :=
  let lo := a / 8 * 8
  let len := (a + n + 7) / 8 * 8 - lo
  let old := (memReadSpan s (injEpoch s 8 0xF0) lo len).1
  if n = 0 then s
  else if write then (unitMem s 0xF0 lo len (some (old.take (a - lo) ++ (data ++ List.replicate n 0).take n ++ old.drop (a - lo + n)))).1
  else
    let r := unitMem s 0xF0 lo len none
    send r.1 (.hostRead fn ((r.2.drop (a - lo)).take n))
/-- The host port's refusals (R613). -/
def hostBad (s : State) (code source detail addr : Nat) : State := raiseInt (errAt s hostPg code source detail addr 0) hostPg (if source = 0x13 then 10 else if source = 0x10 then 8 else 9)
/-- A scratchpad access through BAR4 (R27, R215). -/
def hostSpad (s : State) (off n : Nat) (write : Bool) (data : List Byte) : State :=
  let d := off / 2 ^ 31
  let c := off % 2 ^ 31 / 2 ^ 23
  if d ≥ 8 ∨ c ≥ 144 then hostBad (if write then s else send s (.hostRead 0 (List.replicate n 0))) cRANGE 0x12 0 off
  else extSpad s (144 * d + c) { via := 0, addr := off % 2 ^ 23, n := min n (2 ^ 23 - off % 2 ^ 23), write := write, data := data }
/-- BAR_MEMORY_ACCESS of the PF. -/
def barAccess (s : State) (bar off n : Nat) (write : Bool) (data : List Byte) : State :=
  if bar = 4 then hostSpad s off n write data
  else if bar2Size s < off + n ∨ 2 ^ 40 < bar2Base s + off + n then hostBad (if write then s else send s (.hostRead 0 (List.replicate n 0))) cRANGE 0x12 0 off
  else hostMem s 0 (bar2Base s + off) n write data
/-- MSI-X table words of the PF or of a VF; unmasking a vector that pends sends it (R578, R579). -/
def msixWrite (s : State) (key v : Nat) : State :=
  let p := s.host.pcie
  let s := setHost s { s.host with pcie := { p with table := tput p.table key (BitVec.ofNat 32 v) } }
  if key % 4 = 3 ∧ !bit v 0 ∧ tget false p.pba (key / 4) then
    let s := setHost s { s.host with pcie := { s.host.pcie with pba := tdel s.host.pcie.pba (key / 4) } }
    let vec := key / 4
    let fn := if vec < 2048 then 0 else (vec - 2048) / 4 + 1
    if tget false p.msixEn fn then send (bump s hostPg 0xC10) (.msix fn (if vec < 2048 then vec else (vec - 2048) % 4)) else s
  else s
/-- The pending bits 32·i to 32·i + 31 of the vectors from `base`. -/
def pbaWord (s : State) (base i : Nat) : Nat := (List.range 32).foldl (fun v b => if tget false s.host.pcie.pba (base + 32 * i + b) then v + 2 ^ b else v) 0
/-- A ring register of a VF's BAR0 refuses a write (R43, R583); the spec gives it no SOURCE (log entry 5). -/
def vfRefused (s : State) (n off code : Nat) : State :=
  if code = cOK then s else errAt s hostPg code (freeSource (vfPage n) off code) (freeDetail (vfPage n) off code) off 0
/-- A half of an address pair of a VF's ring, low at `lo` (R40, R583): the low half is staged, a high half commits both, a read of the low
half latches the high one for the VF's next read of it. -/
def vfPair (s : State) (n lo : Nat) (hi write : Bool) (v : Nat) : State :=
  let r := 64 + n
  let x := ring s r
  let a := if lo = 0 then x.cmd else x.cpl
  let mine := fun (l : Latch) => l.page == vfPage n && l.off == lo + 4
  let data := fun (s : State) (w : Nat) => send s (.hostRead (n + 1) (natLe 4 w))
  let dropped := { s with latch := s.latch.filter (fun l => !mine l) }
  match write, hi with
  | true, false => { s with stg := tput s.stg (vfPage n) (BitVec.ofNat 32 v) }
  | true, true =>
    let w := (tget (BitVec.ofNat 32 a) s.stg (vfPage n)).toNat
    let t := ringAddr { s with stg := tdel s.stg (vfPage n) } r (lo == 8) (w + 2 ^ 32 * (v % 2 ^ 32))
    vfRefused t.1 n (lo + 4) t.2
  | false, false => data { dropped with latch := dropped.latch ++ [{ req := .vf n, page := vfPage n, off := lo + 4, val := BitVec.ofNat 32 (a / 2 ^ 32) }] } (a % 2 ^ 32)
  | false, true => match s.latch.find? mine with
    | some l => data dropped l.val.toNat
    | none => data s (a / 2 ^ 32)
/-- A VF's BAR0: its ring's registers, MSI-X table and pending bits (R580, R583). -/
def vfBar0 (s : State) (n off : Nat) (write : Bool) (v : Nat) : State :=
  let r := 64 + n
  let x := ring s r
  let data := fun (w : Nat) => send s (.hostRead (n + 1) (natLe 4 w))
  if off = 0x0 ∨ off = 0x4 ∨ off = 0x8 ∨ off = 0xC then vfPair s n (off / 8 * 8) (off % 8 == 4) write v
  else if off = 0x10 then
    (if write then (let t := ringCfg s r v; vfRefused t.1 n off t.2) else data (x.logsize + 16 * b2n x.en + 2 ^ 16 * x.vector))
  else if off = 0x14 then (if write then s else data (x.head + 2 ^ 16 * x.state + 2 ^ 24 * (n + 1)))
  else if off = 0x18 then (if write then doorbell s r v else data 0)
  else if off = 0x1C then (if write then s else setRing (data x.events) r { x with events := 0 })
  else if 0x2000 ≤ off ∧ off < 0x2040 then
    (let key := vecKey (n + 1) 0 + (off - 0x2000) / 4; if write then msixWrite s key v else data (tget 0 s.host.pcie.table key).toNat)
  else if off = 0x3000 then (if write then s else data (pbaWord s (vecKey (n + 1) 0 / 4) 0 % 16))
  else hostBad (if write then s else data 0) cRANGE 0x12 (n + 1) off
/-- An access to a VF's BAR0 as aligned 32-bit words in ascending address order: a narrow read returns the whole register, a write that does not
cover a word is dropped with RANGE (R38). -/
def vfWords (s : State) (n off len : Nat) (write : Bool) (data : List Byte) : State :=
  (List.range ((off % 4 + len + 3) / 4)).foldl (fun s i =>
    let a := off / 4 * 4 + 4 * i
    if !write then vfBar0 s n a false 0
    else if off ≤ a ∧ a + 4 ≤ off + len then vfBar0 s n a true (leNat ((data.drop (a - off)).take 4))
    else hostBad s cRANGE 0x12 (n + 1) a) s
/-- VF_WINDOW_ACCESS: BAR4's window, and BAR0. -/
def vfAccess (s : State) (n bar off len : Nat) (write : Bool) (data : List Byte) : State :=
  if bar = 0 then vfWords s n off len write data
  else
    let x := match s.hub.ctxs.find? (fun e => e.2.st != 0 && e.2.vf == some n) with | some (_, x) => x | none => {}
    if off + len ≤ x.winSize * 2 ^ 24 then hostMem s (n + 1) (x.winBase + off) len write data
    else hostBad (if write then s else send s (.hostRead (n + 1) (List.replicate len 0))) cRANGE 0x11 n off

/-- PCIE_CONFIGURATION_REQUEST: 0 VFs enabled, 1 BAR2 size, 2 MSI-X enable of a function, 3 power state of a function, else another read. -/
def pcieConfig (s : State) (kind fn v : Nat) : State :=
  let p := s.host.pcie
  if fd s aon fAON_GRADE_IN0_HCORES = 0 then send s .cfgRetry
  else match kind with
    | 0 => if v ≤ 64 then fdSet s hostPg fHOST_STATUS_NUMVF v else s
    | 1 =>
      if 10 < v then s
      else
        let s := fdSet s hostPg fHOST_STATUS_BAR2SIZE v
        let b := bar2Base s / bar2Size s * bar2Size s
        fdSet (fdSet s hostPg fHOST_BAR2_BASE_LO_BASE (bits b 30 2)) hostPg fHOST_BAR2_BASE_HI_BASE (bits b 32 8)
    | 2 => setHost s { s.host with pcie := { p with msixEn := tput p.msixEn fn (v % 2 == 1) } }
    | 3 => setHost s { s.host with pcie := { p with d3 := tput p.d3 fn (v % 2 == 1) } }
    | _ => s

/-! ### The management port (R597–R603) -/

def mgmtPg : PageId := hubPage .mgmt
/-- Every message counts; the port exists only while PWR_GOOD is high. -/
def mgmtMsg (s : State) (f : State → State) : State := if !s.pins.pwrGood then s else f (bump s mgmtPg 0xC00)
def mgmtBad (s : State) (type : Nat) : State := raiseInt (errAt (bump s mgmtPg 0xC08) mgmtPg cRANGE 0x19 type 0 0) mgmtPg 9
def mgmtDenied (s : State) (code : Nat) : State := raiseInt (errAt s mgmtPg cDENIED 0x18 code 0 0) mgmtPg 8
/-- MCTP_CONTROL; command 1 is Set Endpoint ID. -/
def mctpControl (s : State) (cmd eid : Nat) (bad : Bool) : State :=
  mgmtMsg s (fun s =>
    if bad then mgmtBad s 0
    else if cmd = 1 then send (fdSet s mgmtPg fMGMT_STATUS_EID eid) (.mgmt 0 [eid])
    else send s (.mgmt 0 [fd s mgmtPg fMGMT_STATUS_EID]))
/-- HEAL_QUERY over the management port. -/
def mgmtHeal (s : State) (start max : Nat) : State :=
  mgmtMsg s (fun s => let l := healEntries s start max none
                      send s (.mgmt cOK ((healSummary s ++ (l.map (fun e => healEntry e.1 e.2)).flatten).map (·.toNat))))
def mgmtFabric (s : State) (e : Nat) (table : List (BitVec 128)) (saved : Bool) : State :=
  mgmtMsg s (fun s =>
    let sub := entBytes e 8 1
    if sub = 0 ∨ 8 < sub ∨ fabUnused e then send s (.mgmt cRANGE [0])
    else if fb s mgmtPg fMGMT_STATUS_ROMONLY ∨ !fb s aon fAON_READY_DONE ∨ gradeOf s = 0 then send s (.mgmt cNOT_READY [0])
    else let r := fabricCfg s e table saved; send r.1 (.mgmt r.2.1 [r.2.2]))
/-- PLDM sensors: 0 power, 1 current, 2 + d temperature of a die, 13 + m of a stack, 29 GRADE, 30 PSTATE (log entry 40). -/
def pldmSensor (s : State) (n : Nat) : State :=
  mgmtMsg s (fun s =>
    if fb s mgmtPg fMGMT_STATUS_ROMONLY ∨ 30 < n then mgmtBad s 1
    else
      let v := if n = 0 then fd s hubPwr fPWR_MEAS_WATTS else if n = 1 then fd s hubPwr fPWR_MEAS_AMPS
        else if n < 13 then fd s (pwr (n - 2)) fPWR_STATUS_TEMP else if n < 29 then fd s (memcPage (n - 13)) fMEMC_STATUS_TEMP
        else if n = 29 then gradeOf s else pst s
      send s (.mgmt cOK [v]))
/-- PLDM_EVENT_POLL: held events leave. -/
def pldmPoll (s : State) : State :=
  mgmtMsg s (fun s => setHost (send s (.mgmt cOK ((s.host.events.map (fun e => [e.1, e.2])).flatten))) { s.host with events := [] })
/-- FIRMWARE_UPDATE: 0 the request, which makes the slot that did not boot invalid; 1 the images have come; 2 they are checked. A request while
an update is under way gets the PLDM busy code, 0x81 (log entry 41). -/
def firmwareUpdate (s : State) (phase : Nat) (hub svc : Image) : State :=
  let st := fd s mgmtPg fMGMT_STATUS_FWUP
  let slot := fd s mgmtPg fMGMT_STATUS_UPSLOT
  let put := fun (s : State) (k : Nat) (h v : Image) => setFlash s (if k = 0 then { s.flash with hubA := h, svcA := v } else { s.flash with hubB := h, svcB := v })
  mgmtMsg s (fun s =>
    match phase with
    | 0 =>
      if st = 1 ∨ st = 2 then send s (.mgmt 0x81 [])
      else
        let k := 1 - fd s aon fAON_START_STAT_SLOT
        let s := fdSet (fdSet s mgmtPg fMGMT_STATUS_FWUP 1) mgmtPg fMGMT_STATUS_UPSLOT k
        send (put s k { hubImg s k with ok := false } { svcImg s k with ok := false }) (.mgmt cOK [])
    | 1 => if st = 1 then send (fdSet (put s slot hub svc) mgmtPg fMGMT_STATUS_FWUP 2) (.mgmt cOK []) else mgmtBad s 1
    | _ =>
      if st ≠ 2 then mgmtBad s 1
      else
        let ok := slotOk s slot && accepted s (svcImg s slot)
        send (fdSet s mgmtPg fMGMT_STATUS_FWUP (if ok then 3 else 4)) (.mgmt (if ok then cOK else cDENIED) []))
/-- SPDM answers; chain, hashes and signatures are free values (R600). -/
def spdmAnswer (s : State) (kind : Nat) (data : List Nat) : State :=
  mgmtMsg s (fun s => if fb s mgmtPg fMGMT_STATUS_ROMONLY then mgmtBad s 5 else freeUsed (send s (.spdm kind (freeVal s) data)))
def measurements (s : State) : List Nat :=
  [Config.freeNat (s.free + 1), Config.freeNat (s.free + 2), Config.freeNat (s.free + 3), rd s (hubPage .fuse) 0x40, rd s (hubPage .fuse) 0x44, fd s (hubPage .auth) fAUTH_STATUS_DBGLOCK]
def spdmMeasure (s : State) : State := let t := spdmAnswer s 3 (measurements s); if t.free = s.free then t else { t with free := t.free + 3 }

/-! ### Fuses (R605–R608) -/

def fusePg : PageId := hubPage .fuse
def fuseArm (s : State) (cls v : Nat) : State := if v = 0xF05E then fdSet (setHost s { s.host with armed := some cls }) fusePg fFUSE_STAT_ARMED 1 else s
def fuseExpiry (s : State) : State := if s.host.armed.isNone then s else fdSet (setHost s { s.host with armed := none }) fusePg fFUSE_STAT_ARMED 0
/-- The class may not make fuse commands, or no longer (R576, R607). -/
def fuseBarred (s : State) (cls : Nat) : Bool :=
  let a := hubPage .auth
  (cls == 2 && fb s a fAUTH_STATUS_MGMTCLOSED) || (cls == 5 && (fb s a fAUTH_STATUS_DBGCLOSED || fb s a fAUTH_STATUS_DBGLOCK)) || !(cls == 2 || cls == 5)
def fuseCode (s : State) (cls code arg : Nat) : Nat :=
  let noKey := code == 4 && (fd s fusePg fFUSE_VAL_KEY_REVOKE ||| 2 ^ arg) == 15
  let svn := code == 3 && decide ((hubImg s (fd s aon fAON_START_STAT_SLOT)).svn < blown (rd s fusePg 0x44) + 1)
  if fuseBarred s cls then cDENIED
  else if code = 0 ∨ 4 < code ∨ noKey ∨ svn then cRANGE
  else if s.host.armed ≠ some cls ∨ s.host.fuse.isSome ∨ !s.pins.v12 then cNOT_READY else cOK
/-- A fuse command of a class; `ask` says it is a Casevo request. -/
def fuseCmd (s : State) (cls code arg : Nat) (ask : Bool) : State :=
  let c := fuseCode s cls code arg
  if c ≠ cOK then
    let s := raiseInt (errAt (bump (fdSet s fusePg fFUSE_STAT_CODE c) fusePg 0xC08) fusePg c 0x28 code 0 0) fusePg 8
    if ask then send s (.mgmt c []) else s
  else fdSet (fdSet (setHost s { s.host with armed := none, fuse := some { code := code, arg := arg, cls := cls, ask := ask } }) fusePg fFUSE_STAT_ARMED 0) fusePg fFUSE_STAT_BUSY 1
/-- FUSE_PROGRAM_DONE. -/
def fuseDone (s : State) (same : Bool) : State :=
  match s.host.fuse with
  | none => s
  | some f =>
    let s := fdSet (setHost s { s.host with fuse := none }) fusePg fFUSE_STAT_BUSY 0
    let s := if same then bump (fdSet (fuseBlow s f.code f.arg) fusePg fFUSE_STAT_CODE cOK) fusePg 0xC00
      else raiseInt (errAt (bump (fdSet s fusePg fFUSE_STAT_CODE cTIMEOUT) fusePg 0xC08) fusePg cTIMEOUT 0x29 f.code 0 0) fusePg 9
    if f.ask then send s (.mgmt (if same then cOK else cTIMEOUT) []) else s
/-- A Casevo FUSE request: hardware arms and starts the command with MGMT authority. -/
def casevoFuse (s : State) (code arg : Nat) : State :=
  mgmtMsg s (fun s =>
    let s := if fb s (hubPage .auth) fAUTH_STATUS_MGMTCLOSED then mgmtDenied s 5 else s
    fuseCmd (fuseArm s 2 0xF05E) 2 code arg true)

end Sys2Proof.Machine
end

