-- ==== Sys2Proof/Machine/RegView.lean ====
section
/-! DEFINITION. What a read of a register returns where the value shows other state: header copies (R49, R52, R53), status
fields, snapshots, logs, selected entries. -/
namespace Sys2Proof.Machine
open Sys2Proof

/-! ### PG_STATUS (R49) -/

/-- BUSY: the unit has an operation under way (DEDUCED, log entry 42). -/
def pageBusy (s : State) (p : PageId) : Bool :=
  match p.blk with
  | .core => let st := seqSt s p.core; st != 0 && st != 4
  | .flow => let f := fabOf s p.core; f.load.isSome || f.check.isSome || f.sw.isSome
  | .spad => let x := (core s p.core).sp; !x.dma.isEmpty || !x.recode.isEmpty
  | .qeng => let q := qe s p.core; !q.sendq.isEmpty || !q.unacked.isEmpty
  | .rout => !(rout s p.core).held.isEmpty || !(rout s p.core).miss.isEmpty
  | .memc => (stack s (2 * p.die + p.inst)).train.isSome
  | .die => fb s p fDIE_STATUS_CTXBUSY || fb s p fDIE_RST_STAT_BUSY
  | .sign => s.flip.isSome || !s.inval.isEmpty
  | .healHub => fb s p fHEAL_HSTATUS_CLOSEBUSY || fb s p fHEAL_HSTATUS_FREEZE || s.heal.movers.any (fun m => decide (1 ≤ m.2.phase) && decide (m.2.phase ≤ 5)) || !s.heal.visits.isEmpty
  | .aon => fb s p fAON_RST_STAT_BUSY
  | .fuse => s.host.fuse.isSome
  | .gauge => fb s p fGAUGE_CTL_RUN
  | .port => let st := fd s p fPORT_STATUS_STATE; st == 1 || st == 2 || st == 3
  | .cause => let st := fd s p fPORT_STATUS_STATE; st == 1 || st == 2 || st == 3
  | .xtab => xFlipping s
  | .host => !s.host.cmds.isEmpty
  | .mgmt => let u := fd s p fMGMT_STATUS_FWUP; u == 1 || u == 2
  | .clus => fd s p fCLUS_STATUS_RAIL == 1 || fd s p fCLUS_STATUS_PLL == 1
  | .clk => !fb s p fCLK_STATUS_LOCKED && !unitOff s p
  | _ => false
def pageAsleep (s : State) (p : PageId) : Bool :=
  if p.isCore then cstate s p.core == 1 || (seqr s p.core).napped
  else if p.blk == .aon then s.pins.standby
  else if p.blk == .clus then fd s p fCLUS_STATUS_RAIL == 3
  else fd s (diePage .die p.die) fDIE_STATUS_STATE == 4

/-- Live ranges held or waiting, and those waiting (R224). -/
def spadStatus (s : State) (c : Nat) : Nat :=
  let x := (core s c).sp
  x.ranges.length % 64 + 2 ^ 6 * (countp (fun r => !r.granted) x.ranges % 64) + 2 ^ 12 * b2n (!x.recode.isEmpty)
    + 2 ^ 13 * fd s (spadPage c) fSPAD_STATUS_UNTRUSTED
def routStatus (s : State) (c : Nat) : Nat :=
  let r := rout s c
  fd s (rPage c) fROUT_STATUS_INJ_EPOCH + 2 * b2n (retired s (c / 144) 0) + 4 * b2n (retired s (c / 144) 1) + 8 * b2n (coreClosed s c)
    + 2 ^ 4 * (r.miss.length % 8) + 2 ^ 8 * (r.held.length % 16) + 2 ^ 12 * (r.comb.length % 128)
/-- The word of a replication entry that ROUT_REP_SEL selects (R282, R323). -/
def repSelected (s : State) (c : Nat) : Nat :=
  repWord s c (fd s (rPage c) fROUT_REP_SEL_BANK) (fd s (rPage c) fROUT_REP_SEL_ENTRY) (fd s (rPage c) fROUT_REP_SEL_WORD)
def routView (s : State) (c off w : Nat) : Nat :=
  match off with
  | 0x40 => routStatus s c
  | 0x44 => if isFollower s c then 0 else w
  | 0x50 => repSelected s c % 2 ^ 32
  | 0x54 => repSelected s c / 2 ^ 32
  | _ => w
/-- PG_STATUS.STATE, as each block defines it. -/
def pageState (s : State) (p : PageId) : Nat :=
  match p.blk with
  | .core => seqSt s p.core
  | .flow => rd s p 0x40 % 32
  | .spad => spadStatus s p.core % 64
  | .qeng => (qe s p.core).sendq.length
  | .rout => routStatus s p.core % 256
  | .clus => fd s p fCLUS_STATUS_RAIL
  | .memc => fd s p fMEMC_STATUS_STATE
  | .die => fd s p fDIE_STATUS_STATE
  | .port => fd s p fPORT_STATUS_STATE
  | .cause => fd s p fPORT_STATUS_STATE
  | .heal => suspects s p.die
  | .healHub => countp (fun e => decide (1 ≤ e.2.phase) && decide (e.2.phase ≤ 5)) s.heal.movers
  | _ => 0
def pageStatus (s : State) (p : PageId) : Nat :=
  let c := unitClosed s p
  b2n c + 2 * b2n (pageBusy s p) + 4 * b2n (cap s p).valid + 8 * b2n (pageAsleep s p) + 16 * b2n (unitOff s p)
    + 32 * (rd s p 0x34 % 2) + 64 * b2n (p.isCore && (core s p.core).test) + 2 ^ 8 * (pageState s p % 256)

/-- Retention classes among the fields of a page (KEEPSET); a field loaded from hardware counts as V. -/
def keepSet (p : PageId) : Nat :=
  let rows := regs_hdr ++ p.rows
  let has := fun (k : Keep) => rows.any (fun r => r.fields.any (fun f => f.keep == k))
  b2n (has .f) + 2 * b2n (has .a) + 4 * b2n (has .m) + 8 * b2n (has .d) + 16 * b2n (has .v || has .hw)
def pageClass (p : PageId) : Nat :=
  p.blk.wmask + 2 ^ 8 * p.blk.rmask + 2 ^ 16 * keepSet p + 2 ^ 25 * b2n (p.blk == .gauge) + 2 ^ 26 * b2n (p.rows.any (fun r => decide (0xC00 ≤ r.off)))

/-- The header words (R49, R52, R53). -/
def headerWord (s : State) (p : PageId) (off : Nat) : Nat :=
  let k := cap s p
  match off with
  | 0x00 => p.blk.code + 2 ^ 8 + 2 ^ 16 * p.inst + 2 ^ 27 * p.die
  | 0x04 => pageClass p
  | 0x08 => pageStatus s p
  | 0x14 => intStat s p
  | 0x1C => intEn s p
  | 0x20 => k.code % 256 + 2 ^ 8 * (k.source % 256) + 2 ^ 16 * b2n k.valid + 2 ^ 17 * b2n k.overflow + 2 ^ 24 * (k.count % 256)
  | 0x24 => k.tag % 65536 + 2 ^ 16 * (k.detail % 65536)
  | 0x28 => k.addr % 2 ^ 32
  | 0x2C => k.addr / 2 ^ 32 % 2 ^ 32
  | 0x30 => 0
  | o => rd s p o

/-! ### Views by block -/

def qengView (s : State) (c off w : Nat) : Nat :=
  let q := qe s c
  match off with
  | 0x40 => q.sendq.length + 2 ^ 8 * (16 - q.reasm.length) + 2 ^ 16 * countp (fun e => e.2.state != 0) q.chans
  | 0x44 => countp (fun e => e.2.state == 1) q.handles + 2 ^ 16 * q.unacked.length
  | _ => w
def spadView (s : State) (c off w : Nat) : Nat :=
  let x := (core s c).sp
  match off with
  | 0x40 => spadStatus s c
  | 0x50 =>
    let run := countp (fun d => d.running) x.dma
    let wait := match x.dma.find? (fun d => !d.running) with | some d => d.fence && (x.dma.head?.map (·.id)) != some d.id | none => false
    (x.dma.length - run) + 2 ^ 8 * run + 2 ^ 11 * b2n wait
  | 0x54 => setBits w 8 4 (bankPend (core s c) (w % 64))
  | 0x5C =>
    let g := fd s (spadPage c) fSPAD_DIRTY_SEL_GROUP
    (List.range 32).foldl (fun v i => if tget false x.dirty (32 * g + i) then v + 2 ^ i else v) 0
  | 0x60 => countp (fun e => e.2) x.dirty
  | _ => w
def flowView (s : State) (c off w : Nat) : Nat :=
  match off with
  | 0x58 => bufWord s c (fd s (flowPage c) fFLOW_WIN_SEL_BUF) (fd s (flowPage c) fFLOW_WIN_SEL_OFFSET)
  | 0x68 => (link s c (fd s (flowPage c) fFLOW_LINK_SEL_LINK)).peak
  | 0x400 => bufWord s c 0 2
  | 0x404 => bufWord s c 1 2
  | 0x40C => arrStatus s c
  | _ => w
def signView (s : State) (d off w : Nat) : Nat :=
  match off with
  | 0x40 => w % 2 + 2 * b2n s.flip.isSome + 4 * b2n (!s.inval.isEmpty) + 8 * b2n (retired s d 0) + 16 * b2n (retired s d 1)
      + 2 ^ 5 * ((net s d).walks.length % 64)
  | 0x5C => epSum s d 0
  | 0x60 => epSum s d 1
  | _ => w
def brdgView (s : State) (p : PageId) (off w : Nat) : Nat :=
  if off = 0x40 then (2 ^ brdgCount p.die p.inst - 1) + 2 ^ 4 * inService s p.die p.inst else w
def memcView (s : State) (m off w : Nat) : Nat :=
  let pg := memcPage m
  let ch := fd s pg fMEMC_SLICE_SEL_SLICE
  match off with
  | 0x50 => (recWord s m (fd s pg fMEMC_REC_SEL_WORD)).toNat
  | 0x64 => (tget 0 s.grant (fd s pg fMEMC_GRANT_SEL_INDEX)).toNat
  | 0x6C =>
    let x := slice s (32 * m + ch)
    b2n x.evac + 2 * b2n x.close + 4 * (if sliceClosed s (32 * m + ch) then 3 else x.ss) + 16 * b2n x.suspect
  | 0x70 => (List.range 32).foldl (fun v i => if sliceClosed s (32 * m + i) then v + 2 ^ i else v) 0
  | _ => w
/-- A word of a port's training record; those a training wrote are free (R378, log entry 4). -/
def portRecWord (s : State) (p w : Nat) : Nat :=
  let x := port s p
  (tget (match x.recBase with | some b => BitVec.ofNat 32 (Config.freeNat (b + w)) | none => 0) x.words w).toNat
def portView (s : State) (p off w : Nat) : Nat :=
  if off = 0x68 then portRecWord s p (fd s (portPage p) fPORT_REC_SEL_WORD) else w
def xtabView (s : State) (d off w : Nat) : Nat :=
  match off with
  | 0x40 => injX s d + 2 * b2n (xFlipping s) + 4 * b2n (xRetired s d 0) + 8 * b2n (xRetired s d 1)
  | 0x54 => epSum s d 0
  | 0x58 => epSum s d 1
  | 0x5C => liveMask s % 2 ^ 32
  | 0x60 => liveMask s / 2 ^ 32
  | _ => if 0x68 ≤ off ∧ off < 0x78 then edataWord s d ((off - 0x68) / 4) else w
def causeView (s : State) (off w : Nat) : Nat :=
  match off with
  | 0x104 => pst s + 2 ^ 4 * twinMode s + 2 ^ 6 * ((cwUp s).foldl (fun m k => m + 2 ^ k) 0) + 2 ^ 10 * b2n (decide (s.now < s.twin.jlate))
  | 0x130 => (tget 0 s.twin.jmap (fd s twinPage fCAUSE_JMAP_SEL_WORD)).toNat
  | 0x138 => (tget 0 s.twin.smap (fd s twinPage fCAUSE_SMAP_SEL_INDEX)).toNat
  | _ => w
def healView (s : State) (d off w : Nat) : Nat :=
  match off with
  | 0x40 => (logOf s d).length + 2 ^ 16 * suspects s d
  | _ =>
    if 0x60 ≤ off ∧ off < 0x74 then
      let n := (off - 0x60) / 4
      (List.range (if n = 4 then 16 else 32)).foldl (fun v b => if (ladder s (144 * d + 32 * n + b)).rwpend then v + 2 ^ b else v) 0
    else if 0x80 ≤ off ∧ off < 0x90 then logWord s d ((off - 0x80) / 4) else w
/-- The selected mover, as 2·die + mover. -/
def mvSel (s : State) : Nat := 2 * fd s hubHeal fHEAL_MV_SEL_DIE + fd s hubHeal fHEAL_MV_SEL_MOVER
def rwWord (s : State) (i : Nat) : Nat :=
  match s.heal.rwlog.head? with
  | none => 0
  | some r =>
    match i with
    | 0 => r.die + 2 ^ 4 * r.core + 2 ^ 12 * r.outcome + 2 ^ 15 * b2n r.retested + 2 ^ 16 * r.duration
    | 1 => r.thresh % 256 + 2 ^ 8 * (r.req % 256) + 2 ^ 16 * (r.setpt % 256)
    | 2 => r.cov + 2 ^ 16 * r.banks
    | _ => r.time + 2 ^ 31
def healHubView (s : State) (off w : Nat) : Nat :=
  let m := mover s (mvSel s)
  match off with
  | 0x40 => w % 16 + 2 ^ 4 * pageState s hubHeal + 2 ^ 9 * s.heal.visits.length
  | 0x50 => cmapWord s (fd s hubHeal fHEAL_CMAP_SEL_WORD)
  | 0x54 => (tget 0 s.fuseMap (fd s hubHeal fHEAL_CMAP_SEL_WORD)).toNat
  | 0x70 => poolWord s (fd s hubHeal fHEAL_POOL_SEL_DIE)
  | 0x74 => (List.range 8).foldl (fun v n => v + 4 ^ n * countp (fun e => decide (e.1 / 144 = n)) s.heal.slots) 0
  | 0x84 => m.srcW
  | 0x88 => m.dstW
  | 0x8C => 4 * m.modeW + 2 ^ 8 * m.rate
  | _ =>
    if 0xA0 ≤ off ∧ off < 0xB0 then rwWord s ((off - 0xA0) / 4)
    else if 0xC0 ≤ off ∧ off < 0xD0 then logWord s 8 ((off - 0xC0) / 4) else w
def clusView (s : State) (k off w : Nat) : Nat :=
  if off = 0x54 then (List.range 4).foldl (fun v i => setBits v (2 * i + 8) 2 (effDiv s ((clusterCores k).getD i 0))) (w % 256) else w
def pwrView (s : State) (d off w : Nat) : Nat :=
  match off with
  | 0x50 => tget 0 s.power.temps (64 * d + fd s (pwr d) fPWR_TEMP_SEL_SENSOR)
  | 0x8C => setBits w 8 1 (b2n (actedNow s))
  | _ => w
def hostView (s : State) (off w : Nat) : Nat :=
  let r := fd s hostPg fHOST_RING_SEL_RING
  let x := ring s r
  match off with
  | 0x54 => x.cmd % 2 ^ 32
  | 0x58 => x.cmd / 2 ^ 32
  | 0x5C => x.cpl % 2 ^ 32
  | 0x60 => x.cpl / 2 ^ 32
  | 0x64 => x.logsize + 2 ^ 4 * b2n x.en + 2 ^ 16 * x.vector
  | 0x68 => x.head + 2 ^ 16 * x.state + 2 ^ 24 * ringFn r
  | 0x6C => x.cplw + 2 ^ 16 * x.chead
  | _ => w
def authView (s : State) (off w : Nat) : Nat :=
  if off = 0x4C then (tget 0 s.host.vfs (fd s (hubPage .auth) fAUTH_VF_SEL_VF)).toNat else w

/-- Bits of a word that read zero whatever they hold: those of no field, and those of WO fields (R41, R44). -/
def readMask (r : RegSpec) (v : Nat) : Nat := r.fields.foldl (fun w f => if f.acc == .wo then w else setBits w f.lo f.w (f.of v)) 0

/-- What a register reads as. -/
def viewWord (s : State) (p : PageId) (r : RegSpec) (off : Nat) : Nat :=
  if off < 0x40 then headerWord s p off
  else
    let w := rd s p off
    readMask r (match p.blk with
      | .flow => flowView s p.core off w
      | .spad => spadView s p.core off w
      | .qeng => qengView s p.core off w
      | .rout => routView s p.core off w
      | .clus => clusView s (36 * p.die + p.inst) off w
      | .memc => memcView s (2 * p.die + p.inst) off w
      | .brdg => brdgView s p off w
      | .sign => signView s p.die off w
      | .heal => healView s p.die off w
      | .healHub => healHubView s off w
      | .port => portView s (18 * (p.die - 9) + p.inst) off w
      | .cause => if off < 0x100 then portView s (36 + 2 * (p.die - 9) + p.inst) off w else causeView s off w
      | .xtab => xtabView s p.die off w
      | .pwr => pwrView s p.die off w
      | .host => hostView s off w
      | .auth => authView s off w
      | _ => w)

end Sys2Proof.Machine
end

