-- ==== Sys2Proof/Machine/RegWrite.lean ====
section
/-! DEFINITION. Writing and reading registers: authority, refusals, pairs, and what each register's write does
(R34–R44, R49–R54, R575–R577, R604, R653–R655). -/
namespace Sys2Proof.Machine
open Sys2Proof

/-! ### Who may (R50, R51, R576, R577, R653–R655) -/

/-- The module address of a register (R27). -/
def pageAddr (no off : Nat) : Nat := 0x020000000000 + no * 4096 + off
/-- The page whose capture takes a refusal of what arrived through it (R36). -/
def reqPage : Req → PageId
  | .core c => corePage .core c
  | .host => hostPg
  | .vf _ => hostPg
  | .mgmt => mgmtPg
  | .debug => hubPage .auth
  | .hub => hubPage .die
  | .die d => diePage .die d
  | .twin => twinPage
  | .fabric p => portPage p
def reqTag (s : State) : Req → Nat
  | .core c => coreTag s c
  | _ => 0
/-- RANGE for an unimplemented address or a misplaced access (R36, R38, R613). -/
def accessRange (s : State) (req : Req) (no off : Nat) : State :=
  match req with
  | .host => hostBad s cRANGE 0x12 0 (4096 * no + off)
  | .vf n => hostBad s cRANGE 0x12 (n + 1) (4096 * no + off)
  | .core c => errAt s (corePage .core c) cRANGE 0x65 0 (pageAddr no off) (coreTag s c)
  | r => errAt s (reqPage r) cRANGE (freeSource no off cRANGE) (freeDetail no off cRANGE) (pageAddr no off) (reqTag s r)
/-- DENIED (R51, R576, R613, R614). -/
def accessDenied (s : State) (req : Req) (no off : Nat) (write : Bool) : State :=
  match req with
  | .host => hostBad (bump s hostPg 0xC18) cDENIED 0x13 0 (4096 * no + off)
  | .vf n => hostBad (bump (bump s hostPg 0xC18) (hubPage .auth) 0xC00) cDENIED 0x13 (n + 1) (4096 * no + off)
  | .mgmt => mgmtDenied s (if write then 2 else 1)
  | .fabric p => errAt (denyFabric s true) (reqPage (.fabric p)) cDENIED (freeSource no off cDENIED) (freeDetail no off cDENIED) (pageAddr no off) 0
  | r => errAt s (reqPage r) cDENIED (freeSource no off cDENIED) (freeDetail no off cDENIED) (pageAddr no off) (reqTag s r)

/-- The page is bound to the context of the VF, at its current generation (R51, R577). -/
def vfOwns (s : State) (n : Nat) (p : PageId) : Bool :=
  let w := (tget 0 s.host.vfs n).toNat
  let g := rd s p 0xC
  bit w 16 && bit g 16 && w % 65536 == g % 65536
def reqOwns (s : State) (req : Req) (p : PageId) : Bool := match req with | .vf n => vfOwns s n p | _ => true
/-- The classes that may write a register, as a mask. -/
def writers (p : PageId) (r : RegSpec) (off : Nat) : Nat :=
  if off = 0xC then 0x60
  else r.cls &&& p.blk.wmask &&& (if p.blk == .healHub && off == 0x44 then 127 else p.blk.pageCls) &&&
    (if 0x40 ≤ off ∧ r.cls = 127 then p.blk.restCls else 127) &&& (if p.blk == .cause && decide (0x100 ≤ off) then 0x60 else 127)
/-- A VF's ring through the HOST page (R609). -/
def vfRing (s : State) (req : Req) (p : PageId) (off : Nat) : Bool :=
  req == .host && p.blk == .host && decide (0x54 ≤ off) && decide (off ≤ 0x64) && decide (64 ≤ fd s hostPg fHOST_RING_SEL_RING)
def mayWrite (s : State) (req : Req) (p : PageId) (off : Nat) : Bool :=
  match specOf p off with
  | some r => bit (writers p r off) req.cls && reqOwns s req p && !vfRing s req p off
  | none => bit p.blk.wmask req.cls && bit p.blk.pageCls req.cls && reqOwns s req p
def mayRead (s : State) (req : Req) (p : PageId) : Bool := bit p.blk.rmask req.cls && reqOwns s req p

/-! ### Fields of a written word (R41, R43, R44, R655) -/

/-- What a word does field by field: a restricted field would change, a field is out of range, the word to be stored, the word as
it takes effect. -/
structure Plan where
  denied : Bool := false
  bad : Bool := false
  new : Nat := 0
  eff : Nat := 0

def fieldPlan (cls old v : Nat) (f : FieldSpec) (p : Plan) : Plan :=
  let o := f.of old
  let x := f.of v
  let put := fun (w y : Nat) => setBits w f.lo f.w y
  match f.acc with
  | .ro => { p with new := put p.new o }
  | .rc => { p with new := put p.new o }
  | a =>
    if !bit f.cls cls then
      let e := if a == .rw then o else 0
      { p with denied := p.denied || (if a == .rw then x != o else x != 0), new := put p.new o, eff := put p.eff e }
    else
      let bad := (a == .rw || a == .wo) && (decide (x < f.vmin) || decide (f.vmax < x))
      let n := match a with | .rw => x | .w1s => o ||| x | .w1c => o &&& Nat.xor x (2 ^ f.w - 1) | _ => 0
      { denied := p.denied, bad := p.bad || bad, new := put p.new n, eff := put p.eff x }
def planOf (cls old v : Nat) (fields : List FieldSpec) : Plan := fields.foldl (fun p f => fieldPlan cls old v f p) {}
/-- Whether a register of a pair can be written. -/
def RegSpec.writable (r : RegSpec) : Bool := r.fields.any (fun f => !(f.acc == .ro || f.acc == .rc))

/-! ### What a write does, by block -/

/-- A region's settings (R209, R217, R224). -/
def regionWrite (s : State) (c off new : Nat) : State :=
  let r := (off - 0x400) / 4
  let old := rd s (spadPage c) off
  let s := wr s (spadPage c) off new
  let k := core s c
  let k := if old % 2 != new % 2 && !k.sp.recode.contains r then { k with sp := { k.sp with recode := k.sp.recode ++ [r] } } else k
  let k := if bit old 2 && !bit new 2 then { k with sp := { k.sp with dirty := tfilter (fun row _ => row / 128 != r) k.sp.dirty } } else k
  let s := setCore s c k
  if bit old 3 && !bit new 3 then spadServe s c else s
def spadReg (s : State) (c off new : Nat) : State :=
  if 0x80 ≤ off ∧ off < 0x90 then
    let s := wr s (spadPage c) off new
    (List.range 16).foldl (fun s i => bankRetarget s c (16 * ((off - 0x80) / 4) + i)) s
  else if 0x400 ≤ off then regionWrite s c off new
  else wr s (spadPage c) off new
def coreReg (s : State) (c off new eff : Nat) : State :=
  match off with
  | 0x40 => seqCtlWrite s c (bit new 0) (bit new 1) (bit eff 2)
  | 0x4C => wr s (cPage c) off (new / 2 * 2)
  | 0x54 => setMile s c new
  | 0x6C => mboxIn s c (BitVec.ofNat 32 eff)
  | _ => wr s (cPage c) off new
def flowReg (s : State) (c off new eff : Nat) : State :=
  match off with
  | 0x48 => cfgCheck s c eff
  | 0x50 => if bit eff 1 then imgGo s c (eff % 2) else s
  | 0x58 => winWrite s c (BitVec.ofNat 32 eff)
  | 0x60 => linkSnapshot (wr s (flowPage c) off new) c (new % 128)
  | 0x70 => if bit eff 0 then gridClear s c else s
  | 0x400 => arrCfgWrite s c 0 (BitVec.ofNat 32 new)
  | 0x404 => arrCfgWrite s c 1 (BitVec.ofNat 32 new)
  | _ => wr s (flowPage c) off new
def qengReg (s : State) (c off new eff : Nat) : State :=
  let pg := qPage c
  match off with
  | 0x50 => chSnapshot (wr s pg off new) c (new % 1024)
  | 0x64 => hdSnapshot (wr s pg off new) c (new % 1024)
  | 0x70 =>
    let s := fdSet s pg fQENG_CTL_SENDSTOP eff
    if bit eff 1 then qFlush s c else s
  | 0x74 => qSnapshot (wr s pg off new) c (new % 64)
  | 0x88 => jSnapshot (wr s pg off new) c (new % 64)
  | _ =>
    if 0x100 ≤ off ∧ off < 0x300 then writeSlotReg s c ((off - 0x100) / 8) off new
    else if 0x400 ≤ off ∧ off < 0x800 then
      let q := (off - 0x400) / 16
      match off % 16 with
      | 0 => writeSlotCfg s c q new
      | 12 => wr s pg off new
      | _ => writeSlotReg s c q off new
    else wr s pg off new
/-- A field of each bank in one word: the field of a bank that is not retired is refused (R315). -/
def bankFields (s : State) (p : PageId) (off new : Nat) : State :=
  (List.range 2).foldl (fun s b =>
    if bits new (4 * b) 4 = bits (rd s p off) (4 * b) 4 then s
    else if !retired s p.die b then bankRefused s p off 10
    else wr s p off (setBits (rd s p off) (4 * b) 4 (bits new (4 * b) 4))) s
def routReg (s : State) (c off new eff : Nat) : State :=
  match off with
  | 0x48 => bankFields s (rPage c) off new
  | 0x60 => portSnapshot (wr s (rPage c) off new) c (new % 8)
  | 0x68 => if bit eff 0 then cacheDrop s c (fun _ => true) else s
  | _ => wr s (rPage c) off new
def clusReg (s : State) (k off new eff : Nat) : State :=
  match off with
  | 0x44 => coreTargets s k eff
  | 0x48 => holdWrite s k eff
  | 0x4C => setPointWrite s k eff
  | 0x50 => freqWrite s k eff
  | _ => wr s (clusPage k) off new
def dieReg (s : State) (d off new eff : Nat) : State :=
  match off with
  | 0x44 => dieRstCore s d eff
  | 0x48 => dieRstClus s d eff
  | 0x58 => dieKick s d eff
  | 0x60 => dieCtxOp s d eff
  | _ => wr s (diePage .die d) off new
/-- MEMC_SLICE_CTL: EVAC, then CLOSE, which needs the slice's relocation to be in force; its accepted requests complete first, homes that lay in a slice
that could not be read are fetched, and a second closed slice closes the stack (R355, R357, R421). -/
def sliceCtl (s : State) (m eff : Nat) : State :=
  let s := if bit eff 0 then sliceEvacuate s m else s
  let ch := fd s (memcPage m) fMEMC_SLICE_SEL_SLICE
  let g := 32 * m + ch
  if !bit eff 1 ∨ sliceClosed s g then s
  else if !sliceCloseReady s m ch ∨ (slice s g).ss = 1 then memcRefused s m 0x6C
  else
    let s := serveAll s g
    let s := mapChanged (closeSlice (setSlice s g { slice s g with close := true }) g) (cmSlice g)
    secondClosed (if (stack s m).lost then fetchHomes s else s) m
def memcReg (s : State) (m off new eff : Nat) : State :=
  match off with
  | 0x44 => if bit eff 0 then memTrain s m (bit eff 1) else s
  | 0x50 => recWrite s m eff
  | 0x64 => grantWrite s m eff
  | 0x6C => sliceCtl s m eff
  | _ => if 0xA0 ≤ off then placementWrite s m off 0 new else wr s (memcPage m) off new
def signReg (s : State) (d off new eff : Nat) : State :=
  let pg := diePage .sign d
  match off with
  | 0x50 => epochFlip (if flipTaken s d eff then loseUnread s (eff % 2) else s) d eff
  | 0x54 => signpostInvalidate s d eff
  | 0x58 =>
    let s := if bit eff 0 then retireBank s 0 else s
    if bit eff 1 then retireBank s 1 else s
  | _ =>
    if 0x80 ≤ off then (if retired s d ((off - 0x80) / 0x40) then wr s pg off new else bankRefused s pg off 10)
    else wr s pg off new
def gaugeReg (s : State) (d i off new eff : Nat) : State :=
  let pg := gPage d i
  if off = 0x58 then gaugeCtl s d i eff
  else if off ≠ 0x54 ∧ gRun s d i then errAt s pg cNOT_READY 0x30 off (pageAddr pg.no off) 0
  else wr s pg off new
/-- A refusal by range that no chapter gives a SOURCE. -/
def rangeAt (s : State) (p : PageId) (off : Nat) : State := errAt s p cRANGE (freeSource p.no off cRANGE) (freeDetail p.no off cRANGE) (pageAddr p.no off) 0
def notReadyAt (s : State) (p : PageId) (off : Nat) : State := errAt s p cNOT_READY (freeSource p.no off cNOT_READY) (freeDetail p.no off cNOT_READY) (pageAddr p.no off) 0
def healReg (s : State) (d off new eff : Nat) : State :=
  let pg := diePage .heal d
  match off with
  | 0x44 => if bits new 4 4 ≤ new % 16 then rangeAt s pg off else wr s pg off new
  | 0x4C => healCsel (wr s pg off new) d (new % 256)
  | 0x54 => healCctl s d eff
  | 0x78 => pairWrite s d off new
  | 0x7C => pairWrite s d off new
  | _ => wr s pg off new
/-- HEAL_MV_SEL latches the selected mover's status (R491). -/
def mvLatch (s : State) : State :=
  let m := mover s (mvSel s)
  wr (wr s hubHeal 0x90 (m.phase + 2 ^ 8 * (if 6 ≤ m.phase then m.code else 0) + 2 ^ 16 * (dirtyRows s m.src % 65536))) hubHeal 0x94 (m.passes % 65536)
def mvCtl (s : State) (cls eff : Nat) : State :=
  let k := mvSel s
  let m := mover s k
  let s := setMover s k { m with modeW := bits eff 2 1, rate := bits eff 8 4 }
  let s := if !bit eff 0 then s else if 1 ≤ m.phase ∧ m.phase ≤ 5 then notReadyAt s hubHeal 0x8C else moveStart s k (bits eff 2 1) (cls == 6)
  if bit eff 1 then moveAbort s k else s
def healHubReg (s : State) (cls off new eff : Nat) : State :=
  let k := mvSel s
  match off with
  | 0x44 => healClose s cls eff
  | 0x80 => mvLatch (wr s hubHeal off new)
  | 0x84 => setMover s k { mover s k with srcW := new }
  | 0x88 => setMover s k { mover s k with dstW := new }
  | 0x8C => mvCtl s cls eff
  | _ => wr s hubHeal off new
/-- PORT_CTL (R376, R380). -/
def portCtl (s : State) (p new eff : Nat) : State :=
  let s := wr s (portPage p) 0x44 (setBits new 1 1 0)
  let s := if bit new 0 then portEnable s p else if isUp s p then gradeEval (portDisable s p) else portDisable s p
  if !bit eff 1 then s else if isUp s p then gradeEval (portRetrain s p) else portRetrain s p
/-- PORT_EXPECT: a change takes a port in MISMATCH to TRAINING (R376). -/
def portExpect (s : State) (p new : Nat) : State :=
  let t := wr s (portPage p) 0x4C new
  if pState s p = 6 ∧ new ≠ rd s (portPage p) 0x4C then portRetrain t p else t
def portReg (s : State) (p off new eff : Nat) : State :=
  match off with
  | 0x44 => portCtl s p new eff
  | 0x4C => portExpect s p new
  | 0x68 => portRecWrite s p eff
  | _ => wr s (portPage p) off new
/-- The twin registers; those of the binding and the shadow stand still while a pair is active (R436). -/
def causeReg (s : State) (off new eff : Nat) : State :=
  let p := pst s
  let fixed := (off == 0x100 || off == 0x124 || off == 0x128 || off == 0x130 || off == 0x138) && (p == 3 || p == 5 || p == 7)
  if fixed then notReadyAt s twinPage off
  else match off with
    | 0x10C => setTwin (wr s twinPage off new) { s.twin with hbAt := some s.now }
    | 0x130 => freeUsed (setTwin s { s.twin with jmap := tput s.twin.jmap (fd s twinPage fCAUSE_JMAP_SEL_WORD) (BitVec.ofNat 32 eff), jlate := s.now + 1 + freeVal s % usTicks 1 })
    | 0x138 => setTwin s { s.twin with smap := tput s.twin.smap (fd s twinPage fCAUSE_SMAP_SEL_INDEX) (BitVec.ofNat 32 eff) }
    | _ => wr s twinPage off new
def xtabReg (s : State) (d off new eff : Nat) : State :=
  match off with
  | 0x48 => xctlWrite s d eff
  | 0x74 => edataCommit s d eff
  | _ => if 0x68 ≤ off ∧ off < 0x74 then edataStage s d ((off - 0x68) / 4) eff else wr s (xPage d) off new
def hostReg (s : State) (off new eff : Nat) : State :=
  if off = 0x64 then
    let r := ringCfg s (fd s hostPg fHOST_RING_SEL_RING) eff
    if r.2 = cOK then r.1 else if r.2 = cRANGE then rangeAt r.1 hostPg off else notReadyAt r.1 hostPg off
  else if 0x80 ≤ off ∧ off < 0x90 then mailboxWrite s ((off - 0x80) / 4) eff
  else if 0x400 ≤ off then doorbell s ((off - 0x400) / 4) eff
  else wr s hostPg off new
def authReg (s : State) (off new eff : Nat) : State :=
  let pg := hubPage .auth
  match off with
  | 0x44 => if bit eff 0 then fdSet s pg fAUTH_STATUS_DBGLOCK 1 else s
  | 0x4C => setHost s { s.host with vfs := tput s.host.vfs (fd s pg fAUTH_VF_SEL_VF) (BitVec.ofNat 32 new) }
  | _ => wr s pg off new
def fuseReg (s : State) (cls off new eff : Nat) : State :=
  match off with
  | 0x50 => fuseArm s cls eff
  | 0x54 => if bit eff 31 then fuseCmd s cls (eff % 16) (bits eff 4 2) false else s
  | _ => wr s fusePg off new
def aonReg (s : State) (cls off new eff : Nat) : State :=
  match off with
  | 0x4C => rstCtl s cls eff
  | 0x58 => s
  | 0x64 => rstClr s eff
  | _ => wr s aon off new
def pwrReg (s : State) (d off new eff : Nat) : State :=
  if off = 0x90 then (if bit eff 0 then standbyEnter s else s) else wr s (pwr d) off new

/-- Header registers (R49–R54). -/
def headerReg (s : State) (p : PageId) (off new eff : Nat) : State :=
  match off with
  | 0x10 => irqEdge s p (wr s p 0x10 (intRaw s p ||| eff))
  | 0x14 => wr s p 0x10 (intRaw s p &&& Nat.xor eff (2 ^ 32 - 1))
  | 0x18 => irqEdge s p (wr s p 0x18 (intEn s p ||| eff))
  | 0x1C => wr s p 0x18 (intEn s p &&& Nat.xor eff (2 ^ 32 - 1))
  | 0x30 => if bit eff 0 then { s with caps := tput s.caps p.no {} } else s
  | _ => wr s p off new

/-- One register takes its word. -/
def regReg (s : State) (cls : Nat) (p : PageId) (off new eff : Nat) : State :=
  if off < 0x40 then headerReg s p off new eff
  else match p.blk with
    | .core => coreReg s p.core off new eff
    | .flow => flowReg s p.core off new eff
    | .spad => spadReg s p.core off new
    | .qeng => qengReg s p.core off new eff
    | .rout => routReg s p.core off new eff
    | .clus => clusReg s (36 * p.die + p.inst) off new eff
    | .die => dieReg s p.die off new eff
    | .memc => memcReg s (2 * p.die + p.inst) off new eff
    | .brdg => if off = 0x44 then bankFields s p off new else wr s p off new
    | .gauge => gaugeReg s p.die p.inst off new eff
    | .host => hostReg s off new eff
    | .mgmt => wr s p off new
    | .auth => authReg s off new eff
    | .fuse => fuseReg s cls off new eff
    | .aon => aonReg s cls off new eff
    | .clk => if off = 0x44 then clkCtl s p.die eff else wr s p off new
    | .pwr => pwrReg s p.die off new eff
    | .sign => signReg s p.die off new eff
    | .heal => healReg s p.die off new eff
    | .healHub => healHubReg s cls off new eff
    | .port => portReg s (18 * (p.die - 9) + p.inst) off new eff
    | .cause => if off < 0x100 then portReg s (36 + 2 * (p.die - 9) + p.inst) off new eff else causeReg s off new eff
    | .xtab => xtabReg s p.die off new eff
/-- A pair commits both halves in one cycle (R40). -/
def pairReg (s : State) (p : PageId) (off lo hi : Nat) : State :=
  match p.blk with
  | .qeng => cvBind s p.core lo hi
  | .rout => repCommit (wr (wr s p off lo) p (off + 4) hi) p.core lo hi
  | .memc => placementWrite s (2 * p.die + p.inst) off lo hi
  | .host =>
    if off = 0x44 then
      let b := lo + 2 ^ 32 * hi
      if b % bar2Size s ≠ 0 then rangeAt s p off else wr (wr s p off lo) p (off + 4) hi
    else
      let r := ringAddr s (fd s hostPg fHOST_RING_SEL_RING) (off == 0x5C) (lo + 2 ^ 32 * hi)
      if r.2 = cOK then r.1 else notReadyAt r.1 p off
  | _ => wr (wr s p off lo) p (off + 4) hi

/-- The follower of a leader's core, and the page of it that takes the leader's writes too (R447). -/
def followerPage (s : State) (p : PageId) : Option PageId :=
  if (p.blk == .core || p.blk == .flow || p.blk == .spad || p.blk == .qeng) && isLeader s p.core then some { p with inst := p.inst + 1 } else none
def withMirror (s : State) (p : PageId) (f : State → PageId → State) : State :=
  match followerPage s p with
  | some q => f (f s p) q
  | none => f s p

/-! ### A whole access -/

/-- The register's own refusal, where it made one: its code stands in the page's capture. -/
def refusalIn (t : State) (p : PageId) : Nat := if (cap t p).valid then (cap t p).code else cOK
/-- The code of a write that has been let through: run with the page's capture empty, so that what the register refuses shows. -/
def writeOutcome (s : State) (p : PageId) (f : State → State) : State × Nat :=
  (f s, if p.blk == .core then cOK else refusalIn (f { s with caps := tdel s.caps (homePage p 0x100).no }) (homePage p 0x100))

/-- A write of a register that exists, by a class that may make it, to a unit that answers (R40, R43, R655). -/
def fieldsWrite (s : State) (req : Req) (p : PageId) (r : RegSpec) (off v : Nat) : State × Nat :=
  let cls := req.cls
  let deny := fun (s : State) (d : Bool) => if d then accessDenied s req p.no off true else s
  match r.half with
  | .lo =>
    if r.writable then ({ s with stg := tput s.stg p.no (BitVec.ofNat 32 v) }, cOK) else (s, cOK)
  | .hi =>
    if !r.writable then (s, cOK)
    else
      let rl := (specOf p (off - 4)).getD r
      let lo := (tget (BitVec.ofNat 32 (viewWord s p rl (off - 4))) s.stg p.no).toNat
      let s := { s with stg := tdel s.stg p.no }
      let a := planOf cls (rd s p (off - 4)) lo rl.fields
      let b := planOf cls (rd s p off) v r.fields
      if a.bad || b.bad then (rangeAt s p off, cRANGE)
      else
        let eff := fun (q : Plan) (x : Nat) => if p.blk == .qeng then q.eff else x
        writeOutcome (deny s (a.denied || b.denied)) p (fun s => withMirror s p (fun s q => pairReg s q (off - 4) (eff a a.new) (eff b b.new)))
  | .one =>
    if !r.writable then (s, cOK) else
    let a := planOf cls (rd s p off) v r.fields
    if a.bad then
      let s := if p.blk == .clus && (off == 0x4C || off == 0x50) then clusRefused s (36 * p.die + p.inst) off else rangeAt s p off
      (deny s a.denied, if a.denied then cDENIED else cRANGE)
    else
      let r := writeOutcome (deny s a.denied) p (fun s => withMirror s p (fun s q =>
        if q = p then regReg s cls q off a.new a.eff
        else let b := planOf cls (rd s q off) v ((specOf q off).map (·.fields) |>.getD []); regReg s cls q off b.new b.eff))
      (r.1, if a.denied then cDENIED else r.2)

/-- A write beyond the header for which the die answers: dropped, with the first failing check's code (R37, R43, R56, R655). A low half
goes nowhere, so its fields are checked with their own word. -/
def closedWrite (s : State) (req : Req) (p : PageId) (r : RegSpec) (off v : Nat) : State × Nat :=
  let a := planOf req.cls (rd s p off) v r.fields
  if a.denied then (accessDenied s req p.no off true, cDENIED)
  else if a.bad then (rangeAt s p off, cRANGE)
  else (s, if unitClosed s p then cCLOSURE else cNOT_READY)

/-- A write to a page that exists (R36–R38, R56). -/
def pageWrite (s : State) (req : Req) (p : PageId) (off v be : Nat) : State × Nat :=
  if !mayWrite s req p off then (accessDenied s req p.no off true, cDENIED)
  else match specOf p off with
    | none => (accessRange s req p.no off, cRANGE)
    | some r =>
      if be % 16 ≠ 15 then (accessRange s req p.no off, cRANGE)
      else if 0x40 ≤ off ∧ (unitClosed s p ∨ unitOff s p) then closedWrite s req p r off (v % 2 ^ 32)
      else fieldsWrite s req p r off (v % 2 ^ 32)

/-- The page of a number that compute dies hold; a side without bridges has none on some dies (R35, R60). -/
def computePage (n : Nat) : Option PageId := (List.range 8).findSome? (fun d => pageOf (2048 * d + n))
/-- A broadcast write: every die whose page of that number has the block type of the compute dies' (R35). -/
def broadcastWrite (s : State) (req : Req) (n off v be : Nat) : State × Nat :=
  match computePage n with
  | none => (s, cOK)
  | some q => (List.range 11).foldl (fun (r : State × Nat) d =>
      match pageOf (2048 * d + n) with
      | some p => if p.blk.code = q.blk.code ∧ (specOf p off).isSome then let t := pageWrite r.1 req p off v be; (t.1, firstCode r.2 t.2) else r
      | none => r) (s, cOK)

/-- The debug port is shut: fused closed, or locked (R604). -/
def debugShut (s : State) : Bool := fb s (hubPage .auth) fAUTH_STATUS_DBGCLOSED || fb s (hubPage .auth) fAUTH_STATUS_DBGLOCK
/-- Pages of BAR0 that hold the PF's MSI-X table and pending bits (R579). -/
def msixPage (no off : Nat) : Option Nat :=
  if 0x5800 ≤ no ∧ no < 0x5808 then some ((no - 0x5800) * 1024 + off / 4) else none
def pbaPage (no off : Nat) : Bool := no == 0x5808 && decide (off < 0x100)

/-- A 32-bit write to an offset of a page, by page number, with its byte enables; the code is what it came to. -/
def writeCode (s : State) (req : Req) (no off v be : Nat) : State × Nat :=
  if req == .debug && debugShut s then (s, cDENIED)
  else if req == .host && (msixPage no off).isSome then (if be % 16 = 15 then msixWrite s ((msixPage no off).getD 0) (v % 2 ^ 32) else accessRange s req no off, cOK)
  else if req == .host && pbaPage no off then (s, cOK)
  else
  let be := if off % 4 = 0 then be else 0
  let off := off / 4 * 4
  if no / 2048 = 15 then broadcastWrite s req (no % 2048) off v be
  else match pageOf no with
    | none => (accessRange s req no off, cRANGE)
    | some p => pageWrite s req p off v be
def registerWrite (s : State) (req : Req) (no off v be : Nat) : State := (writeCode s req no off v be).1
/-- A write wider than 32 bits: its words in ascending address order, each with its four byte enables (R38). -/
def wideWrite (s : State) (req : Req) (no off be : Nat) : List Word → State
  | [] => s
  | v :: vs => wideWrite (registerWrite s req no off v.toNat (be % 16)) req no (off + 4) (be / 16) vs

/-! ### Reads (R37, R40, R42, R44) -/

/-- What a read changes: RC fields clear, entries that a read removes go, the window steps. -/
def readEffect (s : State) (p : PageId) (r : RegSpec) (off : Nat) : State :=
  match p.blk, off with
  | .flow, 0x58 => winStep s p.core
  | .flow, 0x68 => (linkPeak s p.core).1
  | .spad, 0x5C =>
    let k := core s p.core
    let g := fd s p fSPAD_DIRTY_SEL_GROUP
    setCore s p.core { k with sp := { k.sp with dirty := tfilter (fun row _ => row / 32 != g) k.sp.dirty } }
  | .heal, 0x8C => logRead s p.die
  | .healHub, 0xAC => setHeal s { s.heal with rwlog := s.heal.rwlog.tail }
  | .healHub, 0xCC => logRead s 8
  | _, _ =>
    if r.fields.any (fun f => f.acc == .rc) then wr s p off (r.fields.foldl (fun w f => if f.acc == .rc then setBits w f.lo f.w 0 else w) (rd s p off)) else s
/-- The latched high half of a pair, for its reader only. -/
def latched (s : State) (req : Req) (no off : Nat) : Option Word :=
  (s.latch.find? (fun l => l.req == req && l.page == no && l.off == off)).map (·.val)
def unlatch (s : State) (req : Req) (no off : Nat) : State := { s with latch := s.latch.filter (fun l => !(l.req == req && l.page == no && l.off == off)) }
def pageRead (s : State) (req : Req) (p : PageId) (off : Nat) : State × Nat × Nat :=
  if !mayRead s req p then (accessDenied s req p.no off false, 0, cDENIED)
  else match specOf p off with
    | none => (accessRange s req p.no off, 0, cRANGE)
    | some r =>
      if !(off == 0 || off == 4 || off == 8) && (unitClosed s p || unitOff s p) then (s, 0, cOK)
      else
        let v := viewWord s p r off
        match r.half with
        | .hi => (match latched s req p.no off with
          | some w => (unlatch s req p.no off, w.toNat, cOK)
          | none => (s, v, cOK))
        | .lo =>
          let h := match specOf p (off + 4) with | some q => viewWord s p q (off + 4) | none => 0
          let t := unlatch s req p.no (off + 4)
          ({ t with latch := t.latch ++ [{ req := req, page := p.no, off := off + 4, val := BitVec.ofNat 32 h }] }, v, cOK)
        | .one => (readEffect s p r off, v, cOK)
/-- A read of an offset of a page: the state after it, the word, the code. A read narrower than 32 bits returns the whole register that
holds it (R38). -/
def readCode (s : State) (req : Req) (no byte : Nat) : State × Nat × Nat :=
  let off := byte / 4 * 4
  if req == .debug && debugShut s then (s, 0, cDENIED)
  else if req == .host && (msixPage no off).isSome then (s, (tget (if ((msixPage no off).getD 0) % 4 = 3 then 1 else 0) s.host.pcie.table ((msixPage no off).getD 0)).toNat, cOK)
  else if req == .host && pbaPage no off then (s, pbaWord s 0 (off / 4), cOK)
  else match pageOf no with
    | none => (accessRange s req no off, 0, cRANGE)
    | some p => pageRead s req p off
/-- The read of a requester outside, whose data goes out. -/
def registerRead (s : State) (req : Req) (no off : Nat) : State :=
  let r := readCode s req no off
  send r.1 (.data req (BitVec.ofNat 32 r.2.1))
/-- A read of `n` registers in ascending address order: an access wider than 32 bits (R38). -/
def wideRead (s : State) (req : Req) (no off : Nat) : Nat → State
  | 0 => s
  | n + 1 => wideRead (registerRead s req no off) req no (off + 4) n

end Sys2Proof.Machine
end

