-- ==== Sys2Proof/Machine/CmdOps.lean ====
section
/-! DEFINITION. What the commands of all families share: a register write through its page, the guard of units whose clock or
firing is stopped, waking. -/
namespace Sys2Proof.Machine
open Sys2Proof

/-- A write of a whole register word by a requester, as a command of its own. -/
def regCmd (s : State) (req : Req) (p : PageId) (off : Nat) (v : Word) : State := registerWrite s req p.no off v.toNat 15
/-- The same with bits the command's row names set to 1. -/
def regCmdSet (s : State) (req : Req) (p : PageId) (off : Nat) (v : Word) (ones : Nat) : State :=
  registerWrite s req p.no off (v.toNat ||| ones) 15
/-- The same with bits the command's row names set to 0. -/
def regCmdClear (s : State) (req : Req) (p : PageId) (off : Nat) (v : Word) (zeros : Nat) : State :=
  registerWrite s req p.no off (v.toNat &&& Nat.xor zeros (2 ^ 32 - 1)) 15
/-- A pair written whole: low half first, the high half commits both (R40). -/
def pairCmd (s : State) (req : Req) (p : PageId) (off : Nat) (lo hi : Word) : State :=
  registerWrite (registerWrite s req p.no off lo.toNat 15) req p.no (off + 4) hi.toNat 15

/-- The array, compute units and memory units of a core work: the core is in RUN and not in NAP, HALT has not stopped their firing, and no
CFGSW is between two configurations (R147, R149, R186, R506). -/
def fabricRuns (s : State) (c : Nat) : Bool := cstate s c == 0 && !(core s c).stopped && !(seqr s c).napped && !switching s c
/-- A step of those units. -/
def onFabric (s : State) (c : Nat) (t : State) : Res := onCore c (if fabricRuns s c then t else s)

/-- The wake that ends a NAP or a waiting QSEL is counted where the core had entered NAP (R186). -/
def wokeUp (s : State) (c : Nat) : State := if (seqr s c).napped then bump s (cPage c) 0xC18 else s

/-! ### Core images (R88, R430, R472, R590) -/

/-- A register of a core image written with hub firmware's authority; the first refusal stays. -/
def imageReg (r : State × Nat) (c : Nat) (e : Nat × Nat × Word) : State × Nat :=
  let w := writeCode r.1 .hub (corePage (imgBlk e.1) c).no e.2.1 e.2.2.toNat 15
  (w.1, if r.2 = cOK then w.2 else r.2)
/-- A core placed: powered, its image's registers, local memory and home copies loaded, its EN entered; its follower takes what it takes, but for the
EN (R447). -/
def placeCore (r : State × Nat) (id : Nat) (p : Place) : State × Nat :=
  let c := p.core
  let s := withMate r.1 c (fun s c => banksOn (applyTarget (setTarget s c 0) c 0) c)
  let s := bindCore s c (ctxTag s id) true
  let r := p.regs.foldl (fun r e => imageReg r c e) (s, r.2)
  let s := withMate r.1 c (fun s c => loadLocal (loadHomes s c) c p.img)
  let s := fdSet s (rPage c) fROUT_EN_EN p.en
  (signPut s p.en (signWord p.en (thisDev s) (c / 144) (c % 144) 0), r.2)

end Sys2Proof.Machine
end

