-- ==== Sys2Proof/Machine/Array.lean ====
section
/-! DEFINITION. The commands of the matrix array (chapter 4). -/
namespace Sys2Proof.Machine
open Sys2Proof

/-- ARRAY_PASS_START (R100, R102, R105). -/
def execArrayPassStart (s : State) (core : Nat) : Res := onFabric s core (passStart s core)
/-- ARRAY_SEQUENCE_ENTRY (R93). -/
def execArraySequenceEntry (s : State) (core : Nat) : Res := onFabric s core (seqEntry s core)
/-- ARRAY_RESULT (R110–R114): `flt` is the fault that forming the result meets. -/
def execArrayResult (s : State) (core : Nat) (flt : ArrFault) : Res := onFabric s core (seqResult s core flt)
/-- W_TOKEN_LOAD (R105). -/
def execWTokenLoad (s : State) (core : Nat) : Res := onFabric s core (loadWToken s core)
/-- TILE_IMAGE_FULL (R105, R98). -/
def execTileImageFull (s : State) (core : Nat) : Res := onFabric s core (tileFull s core)
/-- ARR_INJECT (R120): a write of ARR_CTL with INJECT 1. -/
def execArrInject (s : State) (core : Nat) (req : Req) (val : Word) : Res :=
  onCore core (regCmdSet s req (flowPage core) 0x408 val 1)
/-- ARR_CFG_WRITE (R119) of a buffer. -/
def execArrCfgWrite (s : State) (core : Nat) (req : Req) (buf : Nat) (val : Word) : Res :=
  onCore core (regCmd s req (flowPage core) (0x400 + 4 * (buf % 2)) val)

end Sys2Proof.Machine
end

