-- ==== Sys2Proof/Machine/Carriageway.lean ====
section
/-! DEFINITION. The commands of the carriageway: routers, die switches, signposts, epochs (chapter 10). -/
namespace Sys2Proof.Machine
open Sys2Proof

/-- Every interface has acknowledged the invalidation sent first (R310). -/
def invalDone (s : State) : State :=
  match s.inval with
  | k :: l =>
    if acked s k then
      let s := bump { s with inval := l } (diePage .sign k.die) 0xC10
      match k.ans with
      | some dev => sendUpdate s dev 0 0 0 0 0
      | none => s
    else s
  | [] => s
/-- Every interface has acknowledged the flip (R315). -/
def flipDone (s : State) : State :=
  match s.flip with
  | some k => if acked s k then bump { s with flip := none } (diePage .sign k.die) 0xC18 else s
  | none => s
/-- The module-wide sum of an epoch's counters, those of dies that are closed left out (R314). -/
def epTotal (s : State) (b : Nat) : Nat := ((List.range 11).map (fun d => if closed s (cmDie d) then 0 else epSum s d b)).sum % 2 ^ 32
/-- Release 3 retires the old bank although its packets are not all accounted for, and records that; the code, source and detail of
the record are not stated (R317, log entry 4). -/
def drainTimeout (s : State) : State :=
  let old := 1 - fd s (hubPage .sign) fSIGN_STATUS_INJ_EPOCH
  if s.flip.isSome ∨ retired s 8 old ∨ epTotal s old = 0 then s
  else
    let f := freeVal s
    let t := retireBank (freeUsed s) old
    hubLog t { time := t.now, code := codesUsed.getD (f % 12) cOK, source := f / 2 ^ 8 % 256, type := Blk.sign.code, inst := 0, detail := f / 2 ^ 16 % 2 ^ 16, die := 8 }

/-- ROUTER_FORWARD (R296, R299, R302, R304, R316): the head of an input and virtual channel, `inp` 6 being the packets held for merging; which
packets have waited 64 cycles; what the link code found in a header and in a payload word. -/
def execRouterForward (s : State) (core inp : Nat) (vc : Turn) (hdr body : Ecc) : Res :=
  onCore core (routerForward (routBooks s core (inp % 7) (vc.n % 4)) core (inp % 7) (vc.n % 4) vc.aged hdr body)
/-- PACKET_LAUNCH (R298, R308, R313, R447). -/
def execPacketLaunch (s : State) (core : Nat) : Res := onCore core (launchAlone s core)
/-- The books of the bridge lane in which a die switch's `i`-th packet stands (R25). -/
def switchBooks (s : State) (d i : Nat) : State := match (net s d).sw[i]? with | some p => swBooks s d p | none => s
/-- DIE_SWITCH_ROUTE (R293, R299, R303–R305) of the n-th packet at a die's switch; which packets have waited 64 cycles; what the code found in its
header, in a payload word, and at the receiving bridge interface. -/
def execDieSwitchRoute (s : State) (die : Nat) (n : Turn) (hdr body rx : Ecc) : Res := onUnit die 11 (dieSwitch (switchBooks s die n.n) die n.n n.aged hdr body rx)
/-- SCRATCHPAD_REMOTE_REQUEST (R656). -/
def execScratchpadRemoteRequest (s : State) (core : Nat) (pkt : Pkt) : Res := onCore core (spadRemote s core pkt)
/-- SIGNPOST_MISS (R308). -/
def execSignpostMiss (s : State) (core : Nat) : Res := onCore core (signpostMiss s core)
/-- SIGNPOST_WALK_REPLY (R308–R310): what the code finds in the entry's block. -/
def execSignpostWalkReply (s : State) (die en : Nat) (ecc : Ecc) : Res := onUnit die 9 (walkReply s die en ecc)
/-- SIGNPOST_INVALIDATE (R310): a write of SIGN_INVAL with GO. -/
def execSignpostInvalidate (s : State) (die : Nat) (req : Req) (val : Word) : Res :=
  onUnit die 9 (regCmdSet s req (diePage .sign die) 0x54 val 0x80000000)
/-- INVALIDATION_COMPLETE (R310). -/
def execInvalidationComplete (s : State) : Res := .next (invalDone s)
/-- EPOCH_FLIP (R315): a write of SIGN_FLIP with GO. -/
def execEpochFlip (s : State) (die : Nat) (req : Req) (val : Word) : Res := onUnit die 9 (regCmdSet s req (diePage .sign die) 0x50 val 2)
/-- FLIP_COMPLETE (R315). -/
def execFlipComplete (s : State) : Res := .next (flipDone s)
/-- BANK_RETIRE (R315): a write of SIGN_EPCTL. -/
def execBankRetire (s : State) (die : Nat) (req : Req) (val : Word) : Res := onUnit die 9 (regCmd s req (diePage .sign die) 0x58 val)
/-- EPSUM_READ (R314, R324). -/
def execEpsumRead (s : State) (die : Nat) (req : Req) (bank : Nat) : Res :=
  onUnit die 9 (registerRead s req (diePage .sign die).no (0x5C + 4 * (bank % 2)))
/-- EPOCH_DRAIN_TIMEOUT (R317). -/
def execEpochDrainTimeout (s : State) : Res := .next (drainTimeout s)
/-- SIGNPOST_CACHE_FLUSH (R323): a write of ROUT_CACHE_CTL with FLUSH 1. -/
def execSignpostCacheFlush (s : State) (core : Nat) (req : Req) (val : Word) : Res := onCore core (regCmdSet s req (rPage core) 0x68 val 1)
/-- REPLICATION_ENTRY_COMMIT (R282, R315): the pair ROUT_REP_DATA written. -/
def execReplicationEntryCommit (s : State) (core : Nat) (req : Req) (lo hi : Word) : Res := onCore core (pairCmd s req (rPage core) 0x50 lo hi)
/-- ROUT_PORT_SEL_WRITE (R323). -/
def execRoutPortSelWrite (s : State) (core : Nat) (req : Req) (val : Word) : Res := onCore core (regCmd s req (rPage core) 0x60 val)

end Sys2Proof.Machine
end

