-- ==== Sys2Proof/Machine/Channels.lean ====
section
/-! DEFINITION. The commands of the queue engine: slots, channels, messages, fabric ports (chapter 8). -/
namespace Sys2Proof.Machine
open Sys2Proof

/-! ### A packet at its core -/

/-- A packet that the core cannot take yet stays at its router. -/
def holdPkt (s : State) (c : Nat) (p : Pkt) : State :=
  let r := rout s c
  if r.arr.contains p then s else setRout s c { r with arr := r.arr ++ [p] }
/-- What the local port does with a packet: a core that is closed or OFF, or whose EN the packet no longer names, answers with CLOSURE, one in
REST with NOT_READY, and drops responses; else the endpoint `f` has it, and its follower's too (R252, R304, R447, R556). -/
def localPort (s : State) (c : Nat) (p : Pkt) (f : State → Nat → State) : State :=
  if coreGone s c ∨ ((p.type = 0 ∨ p.type = 1 ∨ p.type = 4) ∧ p.den ≠ coreEn s c) then
    let s := takePkt s c p
    if (refusal p cCLOSURE).isSome then answerFrom (bump s (rPage c) 0xC28) (c / 144) (c % 144) p cCLOSURE else s
  else if cstate s c = 1 then answerFrom (takePkt s c p) (c / 144) (c % 144) p cNOT_READY
  else withFollower s c f
/-- A command for packets of some types; any other packet stays where it is. -/
def ofType (s : State) (p : Pkt) (types : List Nat) (t : State) : State := if types.contains p.type then t else s

/-- A reply that its sender heeds: of its present context, to an entry opening or to a message without a final outcome whose attempt it answers
(R249). -/
def heeded (s : State) (c : Nat) (p : Pkt) : Bool :=
  p.ctag == qTag s c && (if p.type = 5 then (chan s c p.sidx).state == 1 else match replyMsg s c p.sidx p.seq with | some m => decide (m.att ≤ p.att) | none => false)
/-- A sender that receives CLOSURE drops the EN's entry from its signpost cache (R311). -/
def cacheForget (s : State) (c : Nat) (p : Pkt) : State :=
  let h := chan s c p.sidx
  if p.code ≠ cCLOSURE ∨ h.state = 0 ∨ h.convoy.isSome ∨ !heeded s c p then s
  else
    let r := rout s c
    setRout s c { r with cache := tfilter (fun _ l => !l.isEmpty) (tmap (fun _ l => l.filter (fun e => e.en != h.en)) r.cache) }

/-- The words and poison of the whole message that a packet completes. -/
def completes (s : State) (c : Nat) (p : Pkt) : Option (List DWord × Bool) :=
  if p.npart = 0 then some (p.data, p.poison)
  else
    match (qe s c).reasm.find? (fun r => r.handle == p.handle && r.seq == p.seq && r.att == p.att) with
    | none => none
    | some r =>
      if r.parts.any (·.1 == p.part) || r.parts.length != r.npart then none
      else some (((tput r.parts p.part p.data).map (·.2)).flatten, r.poison || p.poison)
/-- Two messages of a channel with one number are out of balance (R24, R25). -/
def seqBooks (s : State) (c : Nat) : State :=
  let l := (qe s c).unacked.map (fun m => (m.chan, m.seq))
  if l.eraseDups.length = l.length then s else booksLost s .qeng c
/-- Reassembly buffers beyond the sixteen of a core are out of balance (R24, R25). -/
def reasmBooks (s : State) (c : Nat) : State := if (qe s c).reasm.length ≤ 16 then s else booksLost s .qeng c
/-- An arriving channel or convoy packet; one whose banks are waking, or whose region waits, stays until they are ready
(R207, R214, R239). -/
def messageIn (s : State) (c : Nat) (p : Pkt) : State :=
  match completes s c p with
  | none => msgPacket (takePkt s c p) c p
  | some (ws, poison) =>
    let h := handle s c p.handle
    let d := deliver s c h.slot p.len p.handle p.seq poison (padWords p.len ws) (some p.sen)
    if msgCheck s c p = cOK ∧ p.seq = h.exp ∧ d.2.isNone then holdPkt d.1 c p else msgPacket (takePkt s c p) c p
/-- A memory response of a generation the core no longer has is dropped and counted (R505); the DMA engine has taken its own. -/
def responseIn (s : State) (c : Nat) (p : Pkt) : State :=
  let s := takePkt s c p
  if p.ctag ≠ rd s (corePage .core c) 0xC % 65536 then bump s (diePage .die (c / 144)) 0xC18 else s

/-! ### Entries and handles -/

/-- A handle's HOLDOFF ends. -/
def holdoffEnd (s : State) (c i : Nat) : State := if (handle s c i).state = 2 then setHandle s c i {} else s
/-- A CLOSING entry whose notice has been sent is freed, where it meets `ok`. -/
def closingFree (s : State) (c i : Nat) (ok : Chan → Bool) : State :=
  let h := chan s c i
  if h.state = 3 ∧ h.notice ∧ ok h then setChan s c i {} else s
/-- The receiver's acknowledgement frees the entries that wait for it. -/
def closeAcked (s : State) (c en h : Nat) : State :=
  (List.range 1024).foldl (fun s i => closingFree s c i (fun x => x.en == en && x.handle == h)) s
/-- A message whose backoff has ended is sent again with the later ones of its channel. -/
def backoffEnd (s : State) (c id : Nat) : State :=
  match (qe s c).unacked.find? (·.id == id) with
  | some m => if m.waiting then resendFrom s c id else s
  | none => s
/-- An OPEN request refused for now is sent again. -/
def openAgain (s : State) (c i : Nat) : State :=
  let h := chan s c i
  if h.state = 1 ∧ h.wait then inject (setChan s c i { h with wait := false }) c (openPkt s c i) else s

/-! ### The commands -/

/-- SLOT_CONFIG_WRITE (R228): a write of a register of a slot, QENG_Qn_CFG, _RING, _STATW or _ACPT. -/
def execSlotConfigWrite (s : State) (core : Nat) (req : Req) (slot word : Nat) (val : Word) : Res :=
  onCore core (regCmd s req (qPage core) (0x400 + 16 * (slot % 64) + 4 * (word % 4)) val)
/-- SLOT_OPEN (R229): a write of QENG_Qn_CFG with OPEN 1. -/
def execSlotOpen (s : State) (core : Nat) (req : Req) (slot : Nat) (val : Word) : Res :=
  onCore core (regCmdSet s req (qPage core) (0x400 + 16 * (slot % 64)) val 4)
/-- SLOT_CLOSE (R235): a write of QENG_Qn_CFG with OPEN 0. -/
def execSlotClose (s : State) (core : Nat) (req : Req) (slot : Nat) (val : Word) : Res :=
  onCore core (regCmdClear s req (qPage core) (0x400 + 16 * (slot % 64)) val 4)
/-- OPEN_REQUEST (R232). -/
def execOpenRequest (s : State) (core : Nat) (pkt : Pkt) : Res :=
  onCore core (ofType s pkt [4] (localPort s core pkt (fun s c => openRequest (takePkt s c pkt) c pkt)))
/-- OPEN_RESPONSE (R232). -/
def execOpenResponse (s : State) (core : Nat) (pkt : Pkt) : Res :=
  onCore core (ofType s pkt [5] (localPort s core pkt (fun s c => openRsp (cacheForget (takePkt s c pkt) c pkt) c pkt)))
/-- CHOPEN_TIMEOUT (R232) of an OPENING entry. -/
def execChopenTimeout (s : State) (core entry : Nat) : Res := onCore core (withFollower s core (fun s c => openTimeout s c entry))
/-- CHOPEN_BACKOFF_EXPIRY (R232, R249). -/
def execChopenBackoffExpiry (s : State) (core entry : Nat) : Res := onCore core (withFollower s core (fun s c => openAgain s c entry))
/-- HANDLE_HOLDOFF_EXPIRY (R233). -/
def execHandleHoldoffExpiry (s : State) (core hnd : Nat) : Res := onCore core (withFollower s core (fun s c => holdoffEnd s c hnd))
/-- CLOSE_NOTICE (R235, R286): from a receiver EN and handle, or of a convoy. -/
def execCloseNotice (s : State) (core en hnd : Nat) (cvid : Option Nat) : Res :=
  onCore core (withFollower s core (fun s c => closeNoticeIn s c en hnd cvid))
/-- HANDLE_CLOSE_NOTICE (R234): a sender's notice reaches its handle. -/
def execHandleCloseNotice (s : State) (core hnd en : Nat) : Res := onCore core (withFollower s core (fun s c => handleClose s c hnd en))
/-- CLOSE_ACK (R234). -/
def execCloseAck (s : State) (core en hnd : Nat) : Res := onCore core (withFollower s core (fun s c => closeAcked s c en hnd))
/-- CLOSING_ENTRY_TIMEOUT (R234). -/
def execClosingEntryTimeout (s : State) (core entry : Nat) : Res :=
  onCore core (withFollower s core (fun s c => closingFree s c entry (fun _ => true)))
/-- MESSAGE_DEPARTURE (R25, R236). -/
def execMessageDeparture (s : State) (core : Nat) : Res := onCore core (depart (seqBooks s core) core)
/-- MESSAGE_PACKET (R239–R244, R505). -/
def execMessagePacket (s : State) (core : Nat) (pkt : Pkt) : Res :=
  onCore core (if pkt.type = 9 ∨ pkt.type = 11 then responseIn s core pkt
    else ofType s pkt [0, 2] (localPort (reasmBooks s core) core pkt (fun s c => messageIn s c pkt)))
/-- REASSEMBLY_TIMEOUT (R241). -/
def execReassemblyTimeout (s : State) (core hnd seq att : Nat) : Res :=
  onCore core (withFollower s core (fun s c => reasmTimeout s c hnd seq att))
/-- REPLY_OK (R249, R273). -/
def execReplyOk (s : State) (core : Nat) (pkt : Pkt) : Res :=
  onCore core (if pkt.code = cOK then ofType s pkt [3] (localPort s core pkt (fun s c => replyOk (takePkt s c pkt) c pkt)) else s)
/-- NACK (R249). -/
def execNack (s : State) (core : Nat) (pkt : Pkt) : Res :=
  onCore core (if pkt.code = cOK then s
    else ofType s pkt [3] (localPort s core pkt (fun s c => nackMsg (cacheForget (takePkt s c pkt) c pkt) c pkt)))
/-- NACK_BACKOFF_EXPIRY (R249) of a message by its issue number. -/
def execNackBackoffExpiry (s : State) (core id : Nat) : Res := onCore core (withFollower s core (fun s c => backoffEnd s c id))
/-- ATTEMPT_WINDOW_EXPIRY (R249) of a message by channel and sequence number. -/
def execAttemptWindowExpiry (s : State) (core entry seq : Nat) : Res :=
  onCore core (withFollower s core (fun s c => windowExpiry s c entry seq))
/-- QENG_FLUSH (R257): a write of QENG_CTL with FLUSH 1. -/
def execQengFlush (s : State) (core : Nat) (req : Req) (val : Word) : Res := onCore core (regCmdSet s req (qPage core) 0x70 val 2)
/-- SENDSTOP_WRITE (R257): a write of QENG_CTL with FLUSH 0. -/
def execSendstopWrite (s : State) (core : Nat) (req : Req) (val : Word) : Res := onCore core (regCmdClear s req (qPage core) 0x70 val 2)
/-- QENG_CH_SEL_WRITE (R257). -/
def execQengChSelWrite (s : State) (core : Nat) (req : Req) (val : Word) : Res := onCore core (regCmd s req (qPage core) 0x50 val)
/-- QENG_HD_SEL_WRITE (R257). -/
def execQengHdSelWrite (s : State) (core : Nat) (req : Req) (val : Word) : Res := onCore core (regCmd s req (qPage core) 0x64 val)
/-- QENG_Q_SEL_WRITE (R257). -/
def execQengQSelWrite (s : State) (core : Nat) (req : Req) (val : Word) : Res := onCore core (regCmd s req (qPage core) 0x74 val)
/-- QX_PORT_EMIT (R254). -/
def execQxPortEmit (s : State) (core prt : Nat) : Res := onCore core (if (Machine.core s core).stopped then s else qxEmit s core (prt % 6))
/-- QY_PORT_SEND (R255). -/
def execQyPortSend (s : State) (core prt : Nat) : Res := onCore core (if (Machine.core s core).stopped then s else qySend s core (prt % 6))

end Sys2Proof.Machine
end

