-- ==== Sys2Proof/Machine/Closures.lean ====
section
/-! DEFINITION. The commands of closures, moves, roadworks and calibration (chapter 15). -/
namespace Sys2Proof.Machine
open Sys2Proof

/-- HEAL_MV_CTL written with the bits of one request: GO and MODE, or ABORT. -/
def mvCmd (s : State) (req : Req) (v : Word) (go mode abort : Nat) : State :=
  registerWrite s req hubHeal.no 0x8C (v.toNat / 8 * 8 + go + 2 * abort + 4 * mode) 15
/-- HEAL_CLOSE written with GO, and WITHDRAW as the row has it. -/
def closeCmd (s : State) (req : Req) (v : Word) (withdraw : Nat) : State :=
  registerWrite s req hubHeal.no 0x44 (setBits (v.toNat ||| 2 ^ 31) 23 1 withdraw) 15
/-- A mover command acts on the mover that HEAL_MV_SEL selects; the movers of a die number from 2·die. -/
def onMover (k : Nat) (t : State) : Res := onUnit k 16 t

/-- UNIT_CLOSE (R357, R467, R468, R534, R537). -/
def execUnitClose (s : State) (req : Req) (val : Word) : Res := .next (closeCmd s req val 0)
/-- CLOSURE_WITHDRAW (R469). -/
def execClosureWithdraw (s : State) (req : Req) (val : Word) : Res := .next (closeCmd s req val 1)
/-- CLOSURE_MAP_SAVE (R471): whether the flash took it. -/
def execClosureMapSave (s : State) (saved : Bool) : Res := .next (mapSave s saved)
/-- MOVE_START (R473, R477). -/
def execMoveStart (s : State) (req : Req) (val : Word) : Res := .next (mvCmd s req val 1 0 0)
/-- REBUILD_START (R482). -/
def execRebuildStart (s : State) (req : Req) (val : Word) : Res := .next (mvCmd s req val 1 1 0)
/-- MOVE_ABORT (R481). -/
def execMoveAbort (s : State) (req : Req) (val : Word) : Res := .next (mvCmd s req val 0 0 1)
/-- MOVE_PREPARED (R476, R477, R482) of a mover. -/
def execMovePrepared (s : State) (k : Nat) : Res := onMover k (movePrepared s k)
/-- MOVE_COPY_DONE (R477, R482). -/
def execMoveCopyDone (s : State) (k : Nat) : Res := onMover k (moveCopied s k)
/-- TRACKING_PASS (R477). -/
def execTrackingPass (s : State) (k : Nat) : Res := onMover k (trackingPass s k)
/-- CUTOVER_FREEZE (R478–R480) at a milestone. -/
def execCutoverFreeze (s : State) (mile : Word) : Res := .next (cutoverFreeze s mile.toNat)
/-- FREEZE_TABLE_ACKED (R479). -/
def execFreezeTableAcked (s : State) : Res := .next (freezeAcked s)
/-- FREEZE_CUTOVER (R479, R481). -/
def execFreezeCutover (s : State) : Res := .next (freezeCutover s)
/-- FREEZE_RELEASE (R479). -/
def execFreezeRelease (s : State) : Res := .next (freezeRelease s)
/-- ROADWORKS_VISIT_START (R459, R474, R483). -/
def execRoadworksVisitStart (s : State) (core : Nat) : Res := onCore core (visitStart s core)
/-- ROADWORKS_TEST_DONE (R484, R486): whether the test passed, and the banks that failed a march. -/
def execRoadworksTestDone (s : State) (core : Nat) (pass : Bool) (banks : DWord) : Res := onCore core (testDone s core pass banks.toNat)
/-- MARGIN_WALK_STEP (R485): whether it ran clean. -/
def execMarginWalkStep (s : State) (core : Nat) (clean : Bool) : Res := onCore core (walkStep s core clean)
/-- ROADWORKS_VISIT_END (R459, R486). -/
def execRoadworksVisitEnd (s : State) (core : Nat) : Res := onCore core (visitEnd s core)
/-- SELF_TEST_SLOT_GRANT (R487). -/
def execSelfTestSlotGrant (s : State) (core : Nat) : Res := onCore core (slotGrant s core)
/-- CALIBRATION_GRANT (R489, R490): 0 a rotation step of a port, 1 a window of a slice, 2 the margin walk of a core, 3 retraining of a slice. -/
def execCalibrationGrant (s : State) (kind unit : Nat) : Res := onUnit kind 4 (calGrant s kind unit)
/-- HEAL_MV_SEL_WRITE (R491). -/
def execHealMvSelWrite (s : State) (req : Req) (val : Word) : Res := .next (regCmd s req hubHeal 0x80 val)
/-- HEAL_RWLOG_READ (R491): a read of HEAL_RWLOG3. -/
def execHealRwlogRead (s : State) (req : Req) : Res := .next (registerRead s req hubHeal.no 0xAC)
/-- HEAL_HLOG_READ (R492): a read of HEAL_HLOG3. -/
def execHealHlogRead (s : State) (req : Req) : Res := .next (registerRead s req hubHeal.no 0xCC)

end Sys2Proof.Machine
end

