-- ==== Sys2Proof/Machine/ProbeOps.lean ====
section
/-! DEFINITION. The gridlock detector: the waits it recognises, and its probes (R154–R157). How long a wait has lasted comes with the command
(log entry 120). -/
namespace Sys2Proof.Machine
open Sys2Proof

/-- The unit code that owns a range, where the owner is a unit of the fabric or the queue engine (R123, R225). -/
def ownerUnit (o : Nat) : Option Nat := if o < 4 then some (8 + o) else if o < 10 then some (o - 3) else if o = whoQe then some 12 else none
/-- The n-th range waits on a write range ahead of it. -/
def rangeBlocked (k : Core) (n : Nat) (r : Range) : Bool :=
  !r.granted && (k.sp.ranges.take n).any (fun q => q.write && q.conflicts r)
/-- The scratchpad or window access the sequencer is held at, as address and direction: none where it waits at no load or store. -/
def seqAccess (s : State) (c : Nat) : Option (Nat × Bool) :=
  if seqSt s c = 1 ∨ (seqSt s c = 2 ∧ fd s (cPage c) fCORE_SEQ_STATE_WAITON = 5) then
    match fetchAt s c with
    | .instr w _ =>
      if rvOp w = 0x03 then some ((xget s c (rvRs1 w) + immI w).toNat, false)
      else if rvOp w = 0x23 then some ((xget s c (rvRs1 w) + immS w).toNat, true) else none
    | _ => none
  else none
/-- The ENs of the cores whose messages a queue slot took last: the senders of R247. -/
def sendersOf (s : State) (c q : Nat) : List Nat := (slotq s c q).senders.eraseDups
/-- A wait edge of the core stands (R154, R188, R202). -/
def edgeNow (s : State) (c : Nat) (e : Edge) : Bool :=
  let k := core s c
  match e.kind with
  | 2 =>
    (sendersOf s c e.queue).contains e.en &&
    (if e.unit = 12 then
      (List.range 6).any (fun p => let w := bindWord s c (activeBuf s c) p 0
        bit w 0 && bits w 1 6 == e.queue && (tget {} k.qe.qx p).toks.isEmpty && !nonEmpty s c e.queue)
    else e.unit == 13 && (match k.seq.wait with
      | .qpop _ q _ => q == e.queue
      | .qsel _ mask bank _ _ _ => e.queue / 32 == bank && bit mask (e.queue % 32)
      | _ => false))
  | 3 =>
    (k.qe.unacked ++ k.qe.sendq).any (fun m => (m.busy || m.waiting) && (chan s c m.chan).slot == e.queue && (chan s c m.chan).en == e.en &&
      (match m.src with | .seq => e.unit == 13 | .qy _ _ => e.unit == 12 | .fwd _ _ => e.unit == 12))
  | 4 =>
    (List.range k.sp.ranges.length).any (fun n => match k.sp.ranges[n]? with
      | some r => ownerUnit r.owner == some e.unit && rangeBlocked k n r
      | none => false) ||
    (e.unit == 13 && (match seqAccess s c with | some (a, _) => areaOf a == .spad && writePending k ((a - 0x10000000) / 8) | none => false))
  | d =>
    if e.unit = 13 then
      match seqAccess s c with
      | some (a, st) => areaOf a == .window && (if st then d == 1 && (a % 4096 == 0x220 + 4 * e.port) && !credits s c (portId uSEQ e.port) 1
          else d == 0 && (a % 4096 == 0x230 + 4 * e.port) && (headTok s c (portId uSEQ e.port)).isNone)
      | none => false
    else decide (d ≤ 1) && (unmet s c e.unit).contains [(d, e.port)]

/-- The units of this core that a waiting unit of it waits on: the producer of an empty input's link, the consumers of the links without
credit, the owners of the write ranges ahead (R154). -/
def awaited (s : State) (c kind unit port : Nat) : List Nat :=
  let k := core s c
  match kind with
  | 0 => ((linkTo s c (portId unit port)).map (fun n => (linkCfg s c (activeBuf s c) n).src / 8)).toList
  | 1 => ((linksFrom s c (portId unit port)).filter (fun n => (link s c n).credits == 0)).map (fun n => (linkCfg s c (activeBuf s c) n).dst / 8)
  | 4 =>
    ((List.range k.sp.ranges.length).flatMap (fun n => match k.sp.ranges[n]? with
      | some r => if ownerUnit r.owner == some unit && !r.granted then ((k.sp.ranges.take n).filter (fun q => q.write && q.conflicts r)).filterMap (fun q => ownerUnit q.owner) else []
      | none => [])) ++
    (match (if unit = 13 then seqAccess s c else none) with
      | some (a, _) => (k.sp.ranges.filter (fun q => q.write && decide (q.start ≤ (a - 0x10000000) / 8) && decide ((a - 0x10000000) / 8 ≤ q.last))).filterMap (fun q => ownerUnit q.owner)
      | none => [])
  | _ => []

/-- The hop entry of an edge of this core (R157). -/
def hopOf (s : State) (c : Nat) (e : Edge) : DWord :=
  BitVec.ofNat 64 (c / 144 + 2 ^ 4 * (c % 144) + 2 ^ 12 * e.unit + 2 ^ 17 * (if e.kind ≥ 2 then 0 else e.port) + 2 ^ 20 * e.kind
    + 2 ^ 23 * (if e.kind = 2 ∨ e.kind = 3 then e.queue else 0) + 2 ^ 32 * selfDev s (c / 144))

/-- A hop entry names a waiting party of this core. -/
def hopHere (s : State) (c : Nat) (h : DWord) : Bool :=
  bits h.toNat 0 4 == c / 144 && bits h.toNat 4 8 == c % 144 && bits h.toNat 32 10 == selfDev s (c / 144)
/-- The units of a core that a probe reaches by the edge of its last hop: those awaited in the core itself, or, where it comes from a waiting
queue or sender, the sequencer and the queue engine, which send and read messages. -/
def reached (s : State) (c : Nat) (p : Probe) : List Nat :=
  match p.hops.getLast? with
  | none => []
  | some h =>
    let kind := bits h.toNat 20 3
    if kind = 2 ∨ kind = 3 then [12, 13]
    else if hopHere s c h then awaited s c kind (bits h.toNat 12 5) (bits h.toNat 17 3) else []
/-- A probe goes along an edge: to the core that holds the EN, over the footpath or as a control packet to another module, or to the core
itself (R154, R155). -/
def probeSend (s : State) (c : Nat) (e : Edge) (p : Probe) : State :=
  if e.kind = 2 ∨ e.kind = 3 then noticeOut s (c / 144) e.en (fun dev die unit _ => .probe c dev die unit p)
  else send s (.probe c (selfDev s (c / 144)) (c / 144) (c % 144) p)

/-- An edge blocked for the window launches a probe (R155). -/
def probeLaunch (s : State) (c : Nat) (e : Edge) (since : Nat) : State :=
  let w := fd s (flowPage c) fFLOW_GRID_WIN_W
  let f := fabOf s c
  let soon := match f.lastProbe with | some t => decide (s.now < t + usTicks w) | none => false
  if w = 0 || s.now < since + usTicks w || soon || !edgeNow s c e then s
  else
    let id := (f.probeId + 1) % 256
    let p : Probe := { device := selfDev s (c / 144), origin := c, id := id, window := w, launch := s.now, hops := [hopOf s c e] }
    probeSend (bump (setFab s c { f with probes := f.probes.filter (fun x => x.1.id != id) ++ [(p, e, since)], lastProbe := some s.now, probeId := id }) (flowPage c) 0xC30) c e p

/-- Gridlock declared (R156). -/
def gridlock (s : State) (c : Nat) (p : Probe) : State :=
  let s := bump s (flowPage c) 0xC38
  if fb s (flowPage c) fFLOW_GRID_STAT_FOUND then fdSet s (flowPage c) fFLOW_GRID_STAT_MORE 1
  else
    let s := (List.range p.hops.length).foldl (fun s i => wr64 s (flowPage c) (0x100 + 8 * i) (p.hops.getD i 0).toNat) s
    raiseInt (wr s (flowPage c) 0x70 (1 + 2 * p.hops.length + 2 ^ 7 * p.id)) (flowPage c) 11

/-- A probe is home: it has reached the party that launched it. -/
def probeHome (s : State) (c : Nat) (p : Probe) : Bool :=
  p.origin == c && p.device == selfDev s (c / 144) &&
    (match p.hops.head? with | some h => hopHere s c h && (reached s c p).contains (bits h.toNat 12 5) | none => false)
/-- A node receives a probe; `edges` are its waits and when each began, of which those of the parties it reaches that stand count (R155, R156). -/
def probeReceive (s : State) (c : Nat) (p : Probe) (edges : List (Edge × Nat)) : State :=
  let edges := edges.filter (fun x => edgeNow s c x.1)
  if probeHome s c p then
    match (fabOf s c).probes.find? (fun x => x.1.id == p.id && x.1.launch == p.launch) with
    | some (_, e, since) =>
      let s := setFab s c { fabOf s c with probes := (fabOf s c).probes.filter (fun x => x.1.id != p.id) }
      if edges.any (fun x => x.1 == e && x.2 == since) then gridlock s c p else s
    | none => s
  else if p.hops.length ≥ 32 then bump s (flowPage c) 0xC40
  else
    ((edges.filter (fun x => (reached s c p).contains x.1.unit && decide (x.2 + usTicks p.window ≤ s.now))).take 4).foldl
      (fun s x => probeSend s c x.1 { p with hops := p.hops ++ [hopOf s c x.1] }) s

end Sys2Proof.Machine
end

