-- ==== Sys2Proof/Machine/Fabric.lean ====
section
/-! DEFINITION. The commands of the dataflow fabric: links, spill queues, configuration, CFGSW, gridlock probes (chapter 5). -/
namespace Sys2Proof.Machine
open Sys2Proof

/-- Whether the oldest token in flight on a link comes from a QX port, so that its landing is wake cause 4 (R186; DEDUCED, log
entry 43). -/
def fromQx (s : State) (c n : Nat) : Bool :=
  (linkCfg s c (activeBuf s c) n).src / 8 == uQE && (match (link s c n).fly with | t :: _ => t.ep == epoch s c | [] => false)
/-- TOKEN_LANDING (R133, R132). -/
def execTokenLanding (s : State) (core link : Nat) : Res :=
  onCore core (if fromQx s core link then wakeCause (landTok s core link) core 4 else landTok s core link)
/-- CREDIT_RETURN (R133, R134). -/
def execCreditReturn (s : State) (core link : Nat) : Res := onCore core (landCredit s core link)
/-- SPILL_QUEUE_FIRING (R139–R141): `ecc` is what the code finds in the words read back. -/
def execSpillQueueFiring (s : State) (core mu : Nat) (ecc : Ecc) : Res := onFabric s core (spillFire s core (mu % 4) ecc)
/-- FLOW_IMG_GO (R143): a write of FLOW_IMG_GO with GO 1. -/
def execFlowImgGo (s : State) (core : Nat) (req : Req) (val : Word) : Res := onCore core (regCmdSet s req (flowPage core) 0x50 val 2)
/-- IMAGE_LOAD_COMPLETE (R143). -/
def execImageLoadComplete (s : State) (core : Nat) : Res := onCore core (loadDone s core)
/-- FLOW_WIN_DATA_WRITE (R143). -/
def execFlowWinDataWrite (s : State) (core : Nat) (req : Req) (val : Word) : Res := onCore core (regCmd s req (flowPage core) 0x58 val)
/-- FLOW_CFG_CHECK (R145). -/
def execFlowCfgCheck (s : State) (core : Nat) (req : Req) (val : Word) : Res := onCore core (regCmd s req (flowPage core) 0x48 val)
/-- VALIDATION_COMPLETE (R145, R146). -/
def execValidationComplete (s : State) (core : Nat) : Res := onCore core (checkDone s core)
/-- CFGSW_QUIESCE (R146, R147): the sequencer issues a CFGSW with bit 0 of rs1 zero. -/
def execCfgswQuiesce (s : State) (core : Nat) : Res :=
  onCore core (seqIssue s core .clean (fun w => customKind 0x0B 6 w && !bit (xget s core (rvRs1 w)).toNat 0))
/-- QUIESCE_SWITCH (R147). -/
def execQuiesceSwitch (s : State) (core : Nat) : Res := onCore core (quiesceSwitch s core)
/-- QUIESCE_TIMEOUT (R148): FLOW_QTIMEOUT has run out. -/
def execQuiesceTimeout (s : State) (core : Nat) : Res := onCore core (quiesceTimeout s core)
/-- CFGSW_PURGE (R146, R149): the sequencer issues a CFGSW with bit 0 of rs1 one. -/
def execCfgswPurge (s : State) (core : Nat) : Res :=
  onCore core (seqIssue s core .clean (fun w => customKind 0x0B 6 w && bit (xget s core (rvRs1 w)).toNat 0))
/-- FLOW_LINK_SEL_WRITE (R153, R134). -/
def execFlowLinkSelWrite (s : State) (core : Nat) (req : Req) (val : Word) : Res := onCore core (regCmd s req (flowPage core) 0x60 val)
/-- FLOW_LINK_PEAK_READ (R153). -/
def execFlowLinkPeakRead (s : State) (core : Nat) (req : Req) : Res := onCore core (registerRead s req (flowPage core).no 0x68)
/-- PROBE_LAUNCH (R155): the edge has been blocked since a time. -/
def execProbeLaunch (s : State) (core : Nat) (edge : Edge) (since : Nat) : Res := onCore core (probeLaunch s core edge since)
/-- PROBE_RECEIVE (R155, R156): the node's own edges with the times they began. -/
def execProbeReceive (s : State) (core : Nat) (probe : Probe) (edges : List (Edge × Nat)) : Res := onCore core (probeReceive s core probe edges)
/-- FLOW_GRID_STAT_CLEAR (R157): a write of FOUND with 1. -/
def execFlowGridStatClear (s : State) (core : Nat) (req : Req) (val : Word) : Res := onCore core (regCmdSet s req (flowPage core) 0x70 val 1)

end Sys2Proof.Machine
end

