-- ==== Sys2Proof/Machine/Footpath.lean ====
section
/-! DEFINITION. The messages of the footpath, each with its first flit (chapter 10, R318–R322). -/
namespace Sys2Proof.Machine
open Sys2Proof

/-- Fields of a message's first flit; CLASS is 1 for slow (R319). -/
def flitClass (f : Word) : Bool := bit f.toNat 30
def flitDdie (f : Word) : Nat := bits f.toNat 0 4
def flitDnode (f : Word) : Nat := bits f.toNat 4 8
def flitSdie (f : Word) : Nat := bits f.toNat 12 4
def flitSnode (f : Word) : Nat := bits f.toNat 16 8
def flitMtype (f : Word) : Nat := bits f.toNat 24 6
/-- The flits of a message by its type, a probe's by its hops (R319, R321). -/
def flitCount (m hops : Nat) : Nat :=
  match m with
  | 0x01 => 3 | 0x03 => 3 | 0x05 => 3 | 0x06 => 4 | 0x20 => 4 + 2 * hops | _ => 2
/-- The side by which a die hub sends a message toward another die: its primary link, or the alternate once that has failed (R318). -/
def footSide (s : State) (d e : Nat) : Nat := let l := tget 0 (net s d).foot e; if tget false (net s d).alt e then bits l 2 2 else l % 4
/-- Message types of R321. -/
def mtypeOk (m : Nat) : Bool := (decide (1 ≤ m) && decide (m ≤ 0xD)) || m == 0x20
/-- Nodes of a die: its units, the die hub, every node (R293, R319). -/
def nodeOk (d n : Nat) : Bool := n == 0xF8 || n == 0xFF || unitThere d n
/-- The dies a message is for. -/
def flitDies (f : Word) : List Nat := if flitDdie f = 15 then List.range 11 else [flitDdie f]
/-- The units among a die's source interfaces that a message is for. -/
def flitNodes (d : Nat) (f : Word) : List Nat :=
  if flitDnode f = 0xFF then (interfaces.filter (fun i => i / 256 == d)).map (· % 256) else [flitDnode f]
/-- A message at its node: one of reserved MTYPE or DNODE is discarded and counted in the DIE page of its die; one of the command's
type has its effect (R320, R321). -/
def onFlit (s : State) (f : Word) (mtype : Nat) (t : State → Nat → State) : Res :=
  if 11 ≤ flitDdie f ∧ flitDdie f ≠ 15 then .fault .noSuchUnit
  else .next ((flitDies f).foldl (fun s d =>
    if !mtypeOk (flitMtype f) || !nodeOk d (flitDnode f) then
      (if flitDdie f = 15 && mtypeOk (flitMtype f) && nodeOk 0 (flitDnode f) then s else bump s (diePage .die d) 0xC20)
    else if flitMtype f = mtype then t s d else s) s)

/-- A word for a node's mailbox: a core's, or that of the die's controller 0 (R188, R189). -/
def mboxAt (s : State) (d n : Nat) (src : Nat) (w : Word) : State :=
  if d < 8 ∧ n < 144 then (if coreGone s (144 * d + n) then s else mboxIn s (144 * d + n) w)
  else setNet s d { net s d with mbox := (net s d).mbox ++ [(src, w)] }
/-- A source interface takes an invalidation (R310): matching cache entries leave, a pending miss is walked again. -/
def invalTake (s : State) (d n : Nat) (k : Cast) : State :=
  let s := if d < 8 ∧ n < 144 then cacheDrop s (144 * d + n) (castHits k) else s
  send s (.invalAck d n)
/-- A source interface takes a flip (R313). -/
def flipTake (s : State) (d n e : Nat) : State := send (flipAt s d n e) (.flipAck d n e)
/-- The acknowledgement of an interface. -/
def castAck (k : Cast) (i : Nat) : Cast := { k with acks := tput k.acks i true }
/-- An interface acknowledges invalidations in the order they were sent (R310, R322). -/
def invalAck (l : List Cast) (i : Nat) : List Cast :=
  match l.findIdx? (fun k => !tget false k.acks i) with
  | some n => lmod (castAck · i) l n
  | none => l
/-- The invalidation of a message's second flit (R321). -/
def invalOf (w : Word) : Cast := { die := 0, base := bits w.toNat 0 22, ignore := bits w.toNat 22 5, all := bit w.toNat 27 }

/-- A register message is addressed to the node of its page (R320); one that is not finds no page there (log entry 166). -/
def flitOwns (f : Word) (page : Nat) : Bool := page / 2048 % 16 == flitDdie f && (flitDnode f == 0xFF || flitDnode f == pageNode page)
/-- FOOTPATH_REGWR (R35, R320, R321): page, offset, authority class and requester of its second flit, and the data. -/
def execFootpathRegwr (s : State) (flit : Word) (req : Req) (page off : Nat) (val : Word) : Res :=
  onFlit s flit 1 (fun s d => if flitDdie flit = 15 ∧ d ≠ 0 ∨ !flitOwns flit page then s else registerWrite s req (page % 32768) (off % 4096) val.toNat 15)
/-- FOOTPATH_REGRD (R320, R321): the answer is a REGRSP from the node of the page. -/
def execFootpathRegrd (s : State) (flit : Word) (req : Req) (page off : Nat) : Res :=
  onFlit s flit 2 (fun s d =>
    let r := if flitOwns flit page then readCode s req (page % 32768) (off % 4096) else (s, 0, cRANGE)
    send r.1 (.regRsp (flitTo (flitSdie flit) (flitSnode flit) d (pageNode page) 3) req (BitVec.ofNat 32 r.2.1) r.2.2))
/-- FOOTPATH_REGRSP (R321): the data reaches the requester. -/
def execFootpathRegrsp (s : State) (flit : Word) (req : Req) (val : Word) : Res := onFlit s flit 3 (fun s _ => send s (.data req val))
/-- FOOTPATH_INT (R52, R321): the interrupt of a page reaches its node. -/
def execFootpathInt (s : State) (flit : Word) (page : Nat) : Res := onFlit s flit 4 (fun s d => send s (.intAt d (flitDnode flit) (page % 32768)))
/-- STEP_MESSAGE (R321, R620): a step start of a context. -/
def execStepMessage (s : State) (flit : Word) (ctxid : Nat) (mile : Word) : Res := onFlit s flit 5 (fun s d => stepAtDie s d ctxid mile.toNat)
/-- DIGEST_MESSAGE (R184, R321): a core's milestone number and digest. -/
def execDigestMessage (s : State) (flit mile : Word) (digest : DWord) : Res :=
  onFlit s flit 6 (fun s d => setNet s d { net s d with digests := tput (net s d).digests (flitSnode flit) (mile.toNat, digest) })
/-- MBOX_MESSAGE (R188, R321). -/
def execMboxMessage (s : State) (flit val : Word) : Res := onFlit s flit 9 (fun s d => mboxAt s d (flitDnode flit) (flitSnode flit) val)
/-- INVAL_MESSAGE (R310, R321): `sel` is the second flit. -/
def execInvalMessage (s : State) (flit sel : Word) : Res :=
  onFlit s flit 0xA (fun s d => (flitNodes d flit).foldl (fun s n => invalTake s d n (invalOf sel)) s)
/-- FLIP_MESSAGE (R313, R321). -/
def execFlipMessage (s : State) (flit epoch : Word) : Res :=
  onFlit s flit 0xB (fun s d => (flitNodes d flit).foldl (fun s n => flipTake s d n (epoch.toNat % 2)) s)
/-- FOOTPATH_ACK (R310, R315, R321): from the interface of the first flit's source, of an invalidation or of a flip. -/
def execFootpathAck (s : State) (flit : Word) (ofFlip : Bool) : Res :=
  let i := 256 * flitSdie flit + flitSnode flit
  onFlit s flit 0xC (fun s _ => if ofFlip then { s with flip := s.flip.map (castAck · i) } else { s with inval := invalAck s.inval i })
/-- EPSUM_GATHER (R314, R321): the gather of a die's counters of a bank. -/
def execEpsumGather (s : State) (flit : Word) (bank : Nat) : Res :=
  onFlit s flit 0xD (fun s d => send s (.data (.die d) (BitVec.ofNat 32 (epSum s d (bank % 2)))))
/-- FOOTPATH_LINK_FAILOVER (R318): the link of a die hub toward another die has failed. -/
def execFootpathLinkFailover (s : State) (die dest : Nat) : Res :=
  onUnit die 11 (setNet s die { net s die with alt := tput (net s die).alt (dest % 16) true })

end Sys2Proof.Machine
end

