-- ==== Sys2Proof/Machine/Gauges.lean ====
section
/-! DEFINITION. The commands of the gauges (chapter 20). -/
namespace Sys2Proof.Machine
open Sys2Proof

/-- A command to a gauge of a die. -/
def onGauge (d i : Nat) (t : State) : Res := if d < 11 then onUnit i (gaugeCount d) t else .fault .noSuchUnit

/-- GAUGE_RUN (R620, R629): a write of GAUGE_CTL with RUN 1. -/
def execGaugeRun (s : State) (d i : Nat) (req : Req) (val : Word) : Res := onGauge d i (regCmdSet s req (gPage d i) 0x58 val 1)
/-- GAUGE_STOP (R620, R621): a write of GAUGE_CTL with RUN 0. -/
def execGaugeStop (s : State) (d i : Nat) (req : Req) (val : Word) : Res := onGauge d i (regCmdClear s req (gPage d i) 0x58 val 1)
/-- GAUGE_CLOSE_WRITE (R620, R621): a write of GAUGE_CTL with CLOSE. -/
def execGaugeCloseWrite (s : State) (d i : Nat) (req : Req) (val : Word) : Res := onGauge d i (regCmdSet s req (gPage d i) 0x58 val 2)
/-- GAUGE_WINDOW_EXPIRY (R620, R621, R624). -/
def execGaugeWindowExpiry (s : State) (d i : Nat) : Res := onGauge d i (gaugeExpiry s d i)
/-- GAUGE_SAMPLE (R615–R618, R622): an event's sample, and whether it finds the queue full. -/
def execGaugeSample (s : State) (d i : Nat) (v : Sample) (full : Bool) : Res := onGauge d i (gaugeSample s d i v.inst v.sub v.v v.old full)
/-- LEVEL_SAMPLE_PERIOD (R622, R623). -/
def execLevelSamplePeriod (s : State) (d i : Nat) : Res := onGauge d i (levelSample s d i)
/-- LINKOFS_SAMPLE (R625). -/
def execLinkofsSample (s : State) (d i v : Nat) : Res := onGauge d i (linkofsSample s d i v)

end Sys2Proof.Machine
end

