-- ==== Sys2Proof/Machine/HealCmds.lean ====
section
/-! DEFINITION. The commands of the HEAL pages (chapter 14). -/
namespace Sys2Proof.Machine
open Sys2Proof

/-- HEAL_REPORT (R454–R457, R460, R461). -/
def execHealReport (s : State) : Res := .next (healReport s)
/-- LADDER_WINDOW_EXPIRY (R455). -/
def execLadderWindowExpiry (s : State) (core : Nat) : Res := onCore core (windowClose s core)
/-- LADDER_DECAY (R458). -/
def execLadderDecay (s : State) (core : Nat) : Res := onCore core (ladderDecay s core)
/-- HEAL_CLEAR (R460, R464): a write of HEAL_CCTL with CLEAR. -/
def execHealClear (s : State) (d : Nat) (req : Req) (val : Word) : Res := onUnit d 8 (regCmdSet s req (healPage d) 0x54 val 0x100)
/-- HEAL_FORCE (R456, R464): a write of HEAL_CCTL with FORCE. -/
def execHealForce (s : State) (d : Nat) (req : Req) (val : Word) : Res := onUnit d 8 (regCmdSet s req (healPage d) 0x54 val 0x200)
/-- HEAL_CSEL_WRITE (R464). -/
def execHealCselWrite (s : State) (d : Nat) (req : Req) (val : Word) : Res := onUnit d 8 (regCmd s req (healPage d) 0x4C val)
/-- HEAL_LOG_READ (R464). -/
def execHealLogRead (s : State) (d : Nat) (req : Req) : Res := onUnit d 8 (registerRead s req (healPage d).no 0x8C)
/-- PAIR_MODE_WRITE (R446): HEAL_PAIR_LO, or HEAL_PAIR_HI. -/
def execPairModeWrite (s : State) (d : Nat) (req : Req) (hi : Bool) (val : Word) : Res :=
  onUnit d 8 (regCmd s req (healPage d) (if hi then 0x7C else 0x78) val)
/-- PAIR_COMPARE (R447, R448): whether the values of the pair agree. -/
def execPairCompare (s : State) (core : Nat) (agree : Bool) : Res := onCore core (pairCompare s core agree)
/-- HEAL_LOG_DRAIN (R462, R463, R628) of a compute die's log, or the hub's as 8. -/
def execHealLogDrain (s : State) (d : Nat) : Res := onUnit d 9 (logDrain s d)

end Sys2Proof.Machine
end

