-- ==== Sys2Proof/Machine/HostCmds.lean ====
section
/-! DEFINITION. The commands of the host interface (chapter 19) with those of contexts and steps. -/
namespace Sys2Proof.Machine
open Sys2Proof

/-! ### ITIN_LOAD (R281, R446, R472, R475, R481, R536, R590) -/

/-- Cores of an itinerary that an earlier one of the same context, or nobody, holds, and that may be trusted. -/
def corePlaceable (s : State) (id c : Nat) : Bool :=
  decide (c < 1152) && !coreClosed s c && !underTest s c && (isLayby s c || boundTo s id c) && !fb s (spadPage c) fSPAD_STATUS_UNTRUSTED
/-- A grant that hub firmware gives no context: the relocation reserve, the block of the service image's copy, and the journal's while the module is
bound (R333, R410, R528). -/
def grantBarred (s : State) (g : Nat) : Bool := decide (62 * 1024 ≤ g) || decide (g / 64 = 990) || (pst s != 0 && decide (g / 64 = 991))
/-- What an itinerary in a module of grade MINIMAL may not ask for (R536). -/
def minimalRefuses (s : State) (i : Itin) : Bool :=
  i.place.any (fun p => coreClosed s p.core || cstate s p.core == 3) || i.other ||
  (i.hashed && (List.range 16).any (fun m => closed s (cmStack m)))
/-- An EN that another context still has, in its itinerary or in a teardown that has not drained (R22). -/
def enDrains (s : State) (id en : Nat) : Bool :=
  s.hub.ctxs.any (fun e => e.1 != id && e.2.st != 0 && ((e.2.st == 3 && e.2.ens.contains en) || (match e.2.itin with | some i => i.place.any (·.en == en) | none => false)))
/-- The first refusal of an itinerary in the order of R56. -/
def itinCode (s : State) (k : HCmd) (i : Itin) : Nat :=
  let id := cmdCtx k
  let x := ctx s id
  let cs := i.place.map (·.core)
  if (i.convoys || !i.cvs.isEmpty) && !x.convoy then cDENIED
  else if i.bad || i.tensors.any (fun n => decide (2 ^ 40 < n)) || decide (256 < i.cvs.length) || i.cvs.any (fun v => decide (4096 < v.1) || decide (512 < v.2)) || entBytes k.entry 8 8 % 4096 != 0 || i.grants.any (fun g => grantBarred s g.1) ||
      (i.paired && cs.any (fun c => !isLeader s c)) then cRANGE
  else if gradeOf s == 1 && minimalRefuses s i then cCLOSURE
  else if cs.any (fun c => !corePlaceable s id c) || cs.eraseDups.length != cs.length then cNO_CHANNEL
  else if !x.runs.isEmpty || x.posted.isSome || !x.owed.isEmpty || i.place.any (fun p => enDrains s id p.en) then cNOT_READY
  else cOK
/-- A context's itinerary goes: its cores are released, its entries made invalid, its grants revoked. -/
def itinDrop (s : State) (id : Nat) : State :=
  let x := ctx s id
  let s := (ctxCores s id).foldl releaseCore s
  let s := match x.itin with | some i => dropSigns s i.place | none => s
  let s := (grantsOf s id).foldl (fun s g => grantPut s g 0 0) s
  setCtx s id { x with itin := none, winSize := 0 }
/-- An itinerary placed; `fail` is the code of a failure that a register write does not show, 0 for none. -/
def itinPlace (s : State) (k : HCmd) (i : Itin) (fail : Nat) : State :=
  let id := cmdCtx k
  let s := itinDrop s id
  let s := i.data.foldl (fun s d => memWriteSpan s (hubEpoch s) d.1 (wordBytes d.2)) s
  let r := i.place.foldl (fun r p => placeCore r id p) (s, fail)
  let s := i.grants.foldl (fun s g => grantPut s g.1 (ctxTag s id) g.2) (invalAll r.1)
  if r.2 ≠ cOK then
    let s := setCtx s id { ctx s id with itin := some i }
    endCmd (itinDrop s id) k r.2 0
  else
    let s := i.place.foldl (fun s p => seqCtlWrite s p.core true (fb s (corePage .core p.core) fCORE_SEQ_CTL_TRAPHALT) false) s
    let x := ctx s id
    let barred := x.barred.filter (fun n => decide (n ≤ i.place.length))
    let s := (ctxHold · id) <| setCtx s id { x with itin := some i, st := if barred.isSome then 2 else 1, code := if barred.isSome then cCLOSURE else 0, fails := 0, bar := {}, barred := barred }
    let s := if (pst s = 3 ∧ s.twin.mode = 1) ∨ (pst s = 2 ∧ s.twin.ask = 1) then homesOut s (i.place.map (·.core)) else s
    endCmd s k cOK (i.place.length % 65536 + 2 ^ 32 * i.job)
def itinLoad (s : State) (k : HCmd) (fail : Nat) : State :=
  let code := cmdCheck s k true
  if entBytes k.entry 16 4 = 0 then endCmd s k code 0
  else match k.itin with
    | none => endCmd s k (firstCode code cRANGE) 0
    | some i =>
      let code := firstCode code (itinCode s k i)
      if code ≠ cOK then endCmd s k code 0 else itinPlace s k i (if codesUsed.contains fail then fail else cRANGE)

/-! ### Rings and windows -/

/-- A doorbell of the PF's rings through the HOST page, or of a VF's ring through its BAR0 (R580, R583, R584). -/
def doorbellCmd (s : State) (req : Req) (r : Nat) (v : Word) : State :=
  if r < 64 then regCmd s req hostPg (0x400 + 4 * r) v else vfBar0 s (r - 64) 0x18 true v.toNat
/-- CFG of the ring that HOST_RING_SEL names, or of a VF's ring through its BAR0. -/
def ringCmd (s : State) (req : Req) (vf : Option Nat) (v : Nat) : State :=
  match vf with
  | none => registerWrite s req hostPg.no 0x64 v 15
  | some n => vfBar0 s (n % 64) 0x10 true v
/-- A command that a ring starts. -/
def onRing (s : State) (r op : Nat) (f : State → HCmd → State) : Res := onUnit r 128 (withCmd s r op anyCmd f)
/-- A FABRIC_CFG operation that a ring starts (R594). -/
def onFabCfg (s : State) (r sub : Nat) (saved : Bool) : Res := onUnit r 128 (withCmd s r 8 (subIs sub) (fun s k => fabricCmd s k saved))

/-- DOORBELL (R584). -/
def execDoorbell (s : State) (req : Req) (r : Nat) (val : Word) : Res := onUnit r 128 (doorbellCmd s req r val)
/-- COMMAND_FETCH (R529, R536, R575, R576, R585, R586, R588, R589): the entry, and what its host addresses hold. -/
def execCommandFetch (s : State) (r entry : Nat) (itin : Option Itin) (table : List (BitVec 128)) : Res :=
  onUnit r 128 (commandFetch s r entry itin table)
/-- RING_ENABLE (R583): CFG written with EN 1. -/
def execRingEnable (s : State) (req : Req) (vf : Option Nat) (val : Word) : Res := .next (ringCmd s req vf (val.toNat ||| 16))
/-- RING_DISABLE (R583): CFG written with EN 0. -/
def execRingDisable (s : State) (req : Req) (vf : Option Nat) (val : Word) : Res := .next (ringCmd s req vf (setBits val.toNat 4 1 0))
/-- CTX_CREATE (R410, R504, R590). -/
def execCtxCreate (s : State) (r : Nat) : Res := onRing s r 1 ctxCreate
/-- ITIN_LOAD (R82, R280, R281, R420, R446, R536, R590): a failure after placement has begun, 0 for none. -/
def execItinLoad (s : State) (r fail : Nat) : Res := onRing s r 2 (fun s k => itinLoad s k fail)
/-- STEP_RUN (R20, R591). -/
def execStepRun (s : State) (r : Nat) : Res := onRing s r 3 stepRun
/-- STEP_POST (R510, R620) of a context. -/
def execStepPost (s : State) (id : Nat) : Res := onUnit id 1024 (stepPost s id)
/-- STEP_COMPLETION (R21, R412, R452, R587, R591). -/
def execStepCompletion (s : State) (id : Nat) : Res := onUnit id 1024 (stepCompletion s id)
/-- MILESTONE_WAIT (R23, R592). -/
def execMilestoneWait (s : State) (r : Nat) : Res := onRing s r 4 milestoneWait
/-- MILESTONE_WAIT_TIMEOUT (R592) of a waiting command, by context, ring and CID. -/
def execMilestoneWaitTimeout (s : State) (id r cid : Nat) : Res := onUnit id 1024 (waitTimeout s id r cid)
/-- HEAL_QUERY (R593). -/
def execHealQuery (s : State) (r : Nat) : Res := onRing s r 6 healQuery
/-- WINDOW (R581, R590). -/
def execWindow (s : State) (r : Nat) : Res := onRing s r 9 windowCmd
/-- FABRIC_CFG_SET_DEVICE (R594). -/
def execFabricCfgSetDevice (s : State) (r : Nat) : Res := onFabCfg s r 1 true
/-- FABRIC_CFG_WRITE_TABLE (R594). -/
def execFabricCfgWriteTable (s : State) (r : Nat) : Res := onFabCfg s r 2 true
/-- FABRIC_CFG_FLIP (R394, R594). -/
def execFabricCfgFlip (s : State) (r : Nat) : Res := onFabCfg s r 3 true
/-- FABRIC_CFG_READ_SUM (R393, R594). -/
def execFabricCfgReadSum (s : State) (r : Nat) : Res := onFabCfg s r 4 true
/-- FABRIC_CFG_RETIRE (R394, R594). -/
def execFabricCfgRetire (s : State) (r : Nat) : Res := onFabCfg s r 5 true
/-- FABRIC_CFG_SET_EXPECT (R376, R594). -/
def execFabricCfgSetExpect (s : State) (r : Nat) : Res := onFabCfg s r 6 true
/-- FABRIC_CFG_ENABLE (R533, R594). -/
def execFabricCfgEnable (s : State) (r : Nat) : Res := onFabCfg s r 7 true
/-- FABRIC_CFG_SAVE (R539, R594): whether the flash took it. -/
def execFabricCfgSave (s : State) (r : Nat) (saved : Bool) : Res := onFabCfg s r 8 saved
/-- MAILBOX_IN_WRITE (R596). -/
def execMailboxInWrite (s : State) (req : Req) (n : Nat) (val : Word) : Res := onUnit n 4 (regCmd s req hostPg (0x80 + 4 * n) val)
/-- MBOX_RELEASE_QUERY (R596) at a hub control core. -/
def execMboxReleaseQuery (s : State) (n : Nat) : Res := onUnit n 4 (mailboxAnswer s n 1)
/-- MBOX_ECHO (R596). -/
def execMboxEcho (s : State) (n : Nat) : Res := onUnit n 4 (mailboxAnswer s n 2)
/-- MAILBOX_OUT_READ (R596). -/
def execMailboxOutRead (s : State) (req : Req) (n : Nat) : Res := onUnit n 4 (registerRead s req hostPg.no (0x90 + 4 * n))
/-- HOST_EVENT_READ (R609). -/
def execHostEventRead (s : State) (req : Req) : Res := .next (registerRead s req hostPg.no 0x4C)
/-- BAR2_BASE_WRITE (R31): the pair written. -/
def execBar2BaseWrite (s : State) (req : Req) (lo hi : Word) : Res := .next (pairCmd s req hostPg 0x44 lo hi)
/-- BAR_MEMORY_ACCESS (R26, R27, R29, R30, R36) of `n` bytes at an offset of BAR2, or of BAR4. -/
def execBarMemoryAccess (s : State) (bar4 : Bool) (off n : Nat) (write : Bool) (data : List Byte) : Res :=
  .next (barAccess s (if bar4 then 4 else 2) off n write data)
/-- VF_WINDOW_ACCESS (R580, R581) of a VF: its BAR4, or BAR0 as 0. -/
def execVfWindowAccess (s : State) (vf bar off n : Nat) (write : Bool) (data : List Byte) : Res := onUnit vf 64 (vfAccess s vf bar off n write data)
/-- HOST_LINK_TRAINED (R529, R578): width and rate as HOST_STATUS codes them, whether flit mode is on. -/
def execHostLinkTrained (s : State) (width rate : Nat) (flitMode : Bool) : Res := .next (hostTrained s width rate flitMode)
/-- PCIE_CONFIGURATION_REQUEST (R529, R578). -/
def execPcieConfigurationRequest (s : State) (kind fn val : Nat) : Res := onUnit fn 65 (pcieConfig s kind fn val)

end Sys2Proof.Machine
end

