-- ==== Sys2Proof/Machine/Junctions.lean ====
section
/-! DEFINITION. The commands of junctions and convoys (chapter 9). -/
namespace Sys2Proof.Machine
open Sys2Proof

/-- The runs of words that a junction packet's part touches, as first word and count (R262, R269, R270). -/
def jSpans (s : State) (c : Nat) (p : Pkt) : List (Nat × Nat) :=
  let q := (handle s c p.handle).slot
  let b := p.seq % 2
  [(if jCanon s c q then jHeldW s c q b ((cmaskIdx p).headD 0) p.part else jResW s c q b p.part, jPartWords s c q p.part),
   (jMapW s c q b p.part, (jCount s c q + 63) / 64)]
/-- A junction packet; one whose banks are waking, or whose region waits, stays until they are ready, and one that meets a bank
being powered is refused for now (R207, R212, R214). -/
def junctionIn (s : State) (c : Nat) (p : Pkt) : State :=
  if jCheck s c p ≠ cOK then junctionPacket (takePkt s c p) c p
  else
    let l := jSpans s c p
    if l.any (fun e => bankPowering s c e.1 e.2) then
      let s := takePkt s c p
      jRefuse (if p.merged then bump s (qPage c) 0xC68 else s) c p cNOT_READY
    else if l.any (fun e => bankNotYet s c e.1 e.2) then
      holdPkt (l.foldl (fun s e => (askBanks s c whoQe ((List.range e.2).map (e.1 + ·))).1) s) c p
    else junctionPacket (takePkt s c p) c p

/-- A round buffer with more contributions than the junction has contributors is out of balance (R24, R25). -/
def jBooks (s : State) (c q b : Nat) : State :=
  let parts := List.range (jParts s c q)
  let extra := if jCanon s c q then parts.any (fun p => decide (jCount s c q < tget 0 (jbuf (slotq s c q) b).added p))
    else parts.any (fun p => (List.range 4096).any (fun k => decide (jCount s c q ≤ k) && jHas s c q b p k))
  if qKind s c q = 3 ∧ (jbuf (slotq s c q) b).st ≠ 0 ∧ extra then booksLost s .qeng c else s
/-- JUNCTION_PACKET (R239, R266–R273). -/
def execJunctionPacket (s : State) (core : Nat) (pkt : Pkt) : Res :=
  onCore core (ofType s pkt [1] (localPort (jBooks s core (handle s core pkt.handle).slot (pkt.seq % 2)) core pkt (fun s c => junctionIn s c pkt)))
/-- JUNCTION_ADD (R270, R272) in a part of a round buffer. -/
def execJunctionAdd (s : State) (core slot buf part : Nat) : Res := onCore core (jAdd (jBooks s core (slot % 64) (buf % 2)) core (slot % 64) (buf % 2) part)
/-- JUNCTION_FORWARD (R274). -/
def execJunctionForward (s : State) (core slot : Nat) : Res := onCore core (jForward s core (slot % 64))
/-- ROUTER_MERGE (R276, R277) at an input. -/
def execRouterMerge (s : State) (core inp : Nat) : Res := onCore core (routerMerge s core (inp % 6))
/-- CONVOY_PACKET (R283) at a core's router. -/
def execConvoyPacket (s : State) (core : Nat) (pkt : Pkt) : Res := onCore core (ofType s pkt [2] (convoyPacket s core pkt))
/-- CONVOY_ANSWER (R284). -/
def execConvoyAnswer (s : State) (core : Nat) (pkt : Pkt) : Res := onCore core (ofType s pkt [3] (convoyAnswer s core pkt))
/-- COMBINING_SLOT_TIMEOUT (R284). -/
def execCombiningSlotTimeout (s : State) (core cvid seq : Nat) : Res := onCore core (combTimeout s core cvid seq)
/-- CV_BIND_SENDER (R288): a commit of QENG_CV_BIND in sender form without UNBIND. -/
def execCvBindSender (s : State) (core : Nat) (req : Req) (lo hi : Word) : Res :=
  onCore core (pairCmd s req (qPage core) 0x94 (lo &&& 0xFCFFFFFF) hi)
/-- CV_BIND_HANDLE (R288): a commit in handle form without UNBIND. -/
def execCvBindHandle (s : State) (core : Nat) (req : Req) (lo hi : Word) : Res :=
  onCore core (pairCmd s req (qPage core) 0x94 ((lo &&& 0xFDFFFFFF) ||| 0x01000000) hi)
/-- CV_UNBIND_SENDER (R288): a commit in sender form with UNBIND. -/
def execCvUnbindSender (s : State) (core : Nat) (req : Req) (lo hi : Word) : Res :=
  onCore core (pairCmd s req (qPage core) 0x94 ((lo &&& 0xFEFFFFFF) ||| 0x02000000) hi)
/-- CV_UNBIND_HANDLE (R288): a commit in handle form with UNBIND. -/
def execCvUnbindHandle (s : State) (core : Nat) (req : Req) (lo hi : Word) : Res :=
  onCore core (pairCmd s req (qPage core) 0x94 (lo ||| 0x03000000) hi)
/-- QENG_J_SEL_WRITE (R287). -/
def execQengJSelWrite (s : State) (core : Nat) (req : Req) (val : Word) : Res := onCore core (regCmd s req (qPage core) 0x88 val)

end Sys2Proof.Machine
end

