-- ==== Sys2Proof/Machine/Links.lean ====
section
/-! DEFINITION. The commands of the fabric ports and the device route tables (chapter 12). -/
namespace Sys2Proof.Machine
open Sys2Proof

/-- A lane mask without the lanes of a direction that are closed, 0 for receive and 1 for transmit (R470). -/
def openLanes (s : State) (p dir mask : Nat) : Nat :=
  (List.range 9).foldl (fun v l => if bit mask l && !closed s (cmLane p dir l) then v + 2 ^ l else v) 0
/-- A change of a port's state after which the grade is looked at again (R534), a causeway port that has come UP is told to the twin
(R427), and a module with no way left to it is asked for (R512). -/
def portChanged (old : State) (p : Nat) (s : State) : State :=
  let s := if isCw p && isUp s p then cwReturned s else s
  if isUp old p = isUp s p then s else askLost old (gradeEval s)
/-- The peer's receiver has its spare ready: the transmit spare may be swapped in (R382). -/
def spareReady (s : State) (p plane : Nat) : State :=
  let pg := portPage p
  if isUp s p ∧ (port s p).txSpare = some plane ∧ !closed s (cmLane p 1 plane) then
    let fail := fd s pg fPORT_LANE_TXFAIL
    fdSet (fdSet s pg fPORT_STATUS_TXSPARE 1) pg fPORT_LANE_TXFAIL (if bit fail plane then fail - 2 ^ plane else fail)
  else s
/-- A swap the peer has announced for this receiver, whose spare is ready (R382, R383); else one that a receiver whose lane has failed asks of
this transmitter, which notes the failed lane (R384; log entry 136). -/
def swapAsked (s : State) (p lane plane frame : Nat) : State :=
  let pg := portPage p
  let w : Swap := { lane := lane % 8, spare := plane, frame := frame }
  if !isUp s p then s
  else if (port s p).rxSpare = some plane ∧ fb s pg fPORT_STATUS_RXSPARE then setPort s p { port s p with swapRx := some w }
  else if (port s p).txSpare = some plane ∧ fb s pg fPORT_STATUS_TXSPARE then
    let old := bits (rd s pg 0x50) (4 * (lane % 8)) 4
    let s := setPort s p { port s p with swapTx := some w }
    if old = 15 then s else fdSet s pg fPORT_LANE_TXFAIL (fd s pg fPORT_LANE_TXFAIL ||| 2 ^ old)
  else s
/-- HALF_REQ for a lane of this transmitter that failed at the peer: the port goes to half width without it and acknowledges (R384). -/
def halfAsked (s : State) (p plane : Nat) : State :=
  if !isUp s p then s
  else
    let t := toHalf (fdSet s (portPage p) fPORT_LANE_TXFAIL (fd s (portPage p) fPORT_LANE_TXFAIL ||| 2 ^ (plane % 9))) p
    if isUp t p then queueBlk t p (laneBlk 3 0 0 0) else t
def halfDone (s : State) (p : Nat) : State := if (port s p).halfAsk ∧ isUp s p then toHalf s p else s
/-- A transmitter equaliser request, which a port takes while a lane trains (R368, R378, R382). -/
def eqAdj (s : State) (p plane : Nat) (w : DWord) : State :=
  let st := pState s p
  if 2 ≤ st ∧ st ≤ 5 then setPort s p { port s p with eq := tput (port s p).eq plane w } else s
/-- Signal stands on `n` lanes (R376). -/
def signalSeen (s : State) (p n : Nat) : State :=
  if pState s p = 1 ∧ 4 ≤ n then
    let s := setPort (fdSet (setPState s p 2) (portPage p) fPORT_STATUS_LOS 0) p { port s p with tried := 0 }
    if trainsFull s p then eqAll s p else s
  else s
def downExpiry (s : State) (p : Nat) : State := if pState s p = 7 then setPState s p 1 else s
/-- Loss of signal on every active lane for DOWNHOLD (R386). -/
def portLost (s : State) (p : Nat) : State := if isUp s p then portDown (fdSet s (portPage p) fPORT_STATUS_LOS 1) p else s
/-- What DEVICE_ROUTE takes: a packet at a port of the die, or one that came by the carriageway, that is not for the twin logic, for hub
firmware or for the check of the shadow window (R369, R406, R408). -/
def routes (s : State) (d inp : Nat) (p : Pkt) : Bool :=
  let here := p.ddev == xDev s d
  (decide (40 ≤ inp) || portDie inp == d) && p.type != 13 && !(p.type == 14 && here) &&
  !(decide (inp < 40) && isCw inp && here && (p.type == 8 || p.type == 10))
/-- A response to hub firmware's read of the partner's shadow, at the causeway port it comes by (R421). -/
def shadowAnswer (s : State) (d inp : Nat) (p : Pkt) : Bool :=
  decide (inp < 40) && isCw inp && p.type == 9 && p.ddev == xDev s d && p.ddie == 8 && p.dunit == 0xE0 && !s.twin.fetches.isEmpty
/-- A packet that no earlier one of its flow stands before, at its port or at the way to the fabric (R301, R390). -/
def flowFirst (s : State) (d inp : Nat) (p : Pkt) : Bool :=
  let l := if inp < 40 then (port s inp).rx else (net s d).ends
  !(l.takeWhile (· != p)).any (fun q => q.vc == p.vc && q.cls == p.cls && q.sdev == p.sdev && q.sdie == p.sdie && q.sunit == p.sunit && q.ddev == p.ddev && q.ddie == p.ddie && q.dunit == p.dunit && l.contains p)
def routeCmd (s : State) (d inp : Nat) (p : Pkt) : State :=
  if !routes s d inp p || !flowFirst s d inp p then s
  else if shadowAnswer s d inp p then homeData (xAdd (rxDrop s inp p) d p.xepoch false) p
  else deviceRoute s d inp p

/-- CODEWORD_RECEIVE (R365, R366, R374) on a physical lane. -/
def execCodewordReceive (s : State) (port lane : Nat) (cw : Codeword) : Res := onUnit port 40 (codewordIn s port (lane % 9) cw)
/-- IDENT_BLOCK (R368, R378, R404): DEVICE, PORT and KIND of the peer. -/
def execIdentBlock (s : State) (port dev peer kind : Nat) : Res := onUnit port 40 (portChanged s port (identIn s port dev peer kind))
/-- SPARE_READY (R368, R382) of a physical lane. -/
def execSpareReady (s : State) (port plane : Nat) : Res := onUnit port 40 (spareReady s port plane)
/-- SWAP_REQ (R368, R383): logical lane, spare lane, frame. -/
def execSwapReq (s : State) (port lane plane : Nat) (frame : Word) : Res := onUnit port 40 (swapAsked s port lane plane frame.toNat)
/-- HALF_REQ (R384) with the physical lane it names. -/
def execHalfReq (s : State) (port : PortLane) : Res := onUnit port.port 40 (portChanged s port.port (halfAsked s port.port port.plane))
/-- HALF_ACK (R384). -/
def execHalfAck (s : State) (port : Nat) : Res := onUnit port 40 (portChanged s port (halfDone s port))
/-- EQ_ADJ (R368, R382). -/
def execEqAdj (s : State) (port plane : Nat) (w : DWord) : Res := onUnit port 40 (eqAdj s port (plane % 9) w)
/-- ROUTED_CONTROL_PACKET (R369). -/
def execRoutedControlPacket (s : State) (port : Nat) (pkt : Pkt) : Res := onUnit port 40 (controlPkt s port pkt)
/-- PORT_ENABLE (R376, R380): a write of PORT_CTL with ENABLE 1. -/
def execPortEnable (s : State) (port : Nat) (req : Req) (val : Word) : Res := onUnit port 40 (regCmdSet s req (portPage port) 0x44 val 1)
/-- PORT_DISABLE (R376, R386): a write of PORT_CTL with ENABLE 0. -/
def execPortDisable (s : State) (port : Nat) (req : Req) (val : Word) : Res := onUnit port 40 (regCmdClear s req (portPage port) 0x44 val 1)
/-- PORT_SIGNAL_DETECT (R376): the lanes with signal for 1 ms. -/
def execPortSignalDetect (s : State) (port lanes : Nat) : Res := onUnit port 40 (signalSeen s port lanes)
/-- PORT_TRAINING_DONE (R377, R378): the lanes that trained good in each direction. -/
def execPortTrainingDone (s : State) (port rxm txm : Nat) : Res :=
  onUnit port 40 (portChanged s port (trainingDone s port (openLanes s port 0 rxm) (openLanes s port 1 txm)))
/-- PORT_CHECK_DONE (R379, R427); whether codewords came on every active lane. -/
def execPortCheckDone (s : State) (port : Nat) (pass : Bool) : Res := onUnit port 40 (portChanged s port (checkEnd s port pass))
/-- PORT_DOWN_EXPIRY (R376). -/
def execPortDownExpiry (s : State) (port : Nat) : Res := onUnit port 40 (downExpiry s port)
/-- PORT_RETRAIN (R376): a write of PORT_CTL with RETRAIN. -/
def execPortRetrain (s : State) (port : Nat) (req : Req) (val : Word) : Res := onUnit port 40 (regCmdSet s req (portPage port) 0x44 val 2)
/-- LANE_FAILURE (R381, R384) of a physical lane; whether its signal is lost. -/
def execLaneFailure (s : State) (port plane : Nat) (los : Bool) : Res := onUnit port 40 (portChanged s port (laneFail s port plane los))
/-- SPARE_RETRAIN_DONE (R382). -/
def execSpareRetrainDone (s : State) (port : Nat) : Res := onUnit port 40 (spareDone s port)
/-- ROTATION_STEP (R382). -/
def execRotationStep (s : State) (port : Nat) : Res := onUnit port 40 (rotationStep s port)
/-- LANE_SWAP (R383), of the transmit or the receive direction. -/
def execLaneSwap (s : State) (port : Nat) (tx : Bool) : Res := onUnit port 40 (laneSwap s port tx)
/-- HALF_WIDTH_RETRAIN (R385). -/
def execHalfWidthRetrain (s : State) (port : Nat) : Res := onUnit port 40 (portChanged s port (halfRetrain s port))
/-- PORT_DOWN (R386). -/
def execPortDown (s : State) (port : Nat) : Res := onUnit port 40 (portChanged s port (portLost s port))
/-- DEVICE_ROUTE (R388, R389, R393, R395) on a port die, of a packet that came by a port, or by the carriageway from 40 up. -/
def execDeviceRoute (s : State) (pd inp : Nat) (pkt : Pkt) : Res := onUnit pd 2 (routeCmd s (9 + pd) inp pkt)
/-- XEPOCH_FLIP (R394): a write of XTAB_XCTL with GO. -/
def execXepochFlip (s : State) (pd : Nat) (req : Req) (val : Word) : Res := onUnit pd 2 (regCmdSet s req (xPage (9 + pd)) 0x48 val 2)
/-- XEPOCH_RETIRE (R394): a write of XTAB_XCTL with a bank's RETIRE. -/
def execXepochRetire (s : State) (pd : Nat) (req : Req) (val : Word) (bank : Nat) : Res :=
  onUnit pd 2 (regCmdSet s req (xPage (9 + pd)) 0x48 val (4 * 2 ^ (bank % 2)))
/-- ROUTE_ENTRY_COMMIT (R394, R401): a write of XTAB_EDATA3. -/
def execRouteEntryCommit (s : State) (pd : Nat) (req : Req) (val : Word) : Res := onUnit pd 2 (regCmd s req (xPage (9 + pd)) 0x74 val)
/-- CODEWORD_TRANSMIT (R364, R367, R368, R371–R373) of a port, with the places in its queue of packets that have waited 64 cycles. -/
def execCodewordTransmit (s : State) (port : Turn) : Res := onUnit port.n 40 (codewordOut s port.n port.aged)

end Sys2Proof.Machine
end

