-- ==== Sys2Proof/Machine/Memory.lean ====
section
/-! DEFINITION. The commands of the memory stacks (chapter 11). -/
namespace Sys2Proof.Machine
open Sys2Proof

/-- Offset of a placement register: the pins of a bank, then the relocations of a bank's stacks (R359). -/
def placeOff (n : Nat) : Nat := if n < 2 then 0x80 + 8 * n else 0xA0 + 0x40 * ((n - 2) / 16) + 4 * ((n - 2) % 16)
/-- A placement register written, the pins as a pair (R334). -/
def placeCmd (s : State) (req : Req) (m n : Nat) (lo hi : Word) : State :=
  if n < 2 then pairCmd s req (memcPage m) (placeOff n) lo hi else regCmd s req (memcPage m) (placeOff n) lo

/-- SLICE_REQUEST (R335–R337, R356). -/
def execSliceRequest (s : State) (g : Nat) (pkt : Pkt) : Res := onUnit g 512 (sliceRequest s g pkt)
/-- SLICE_READ_COMPLETE (R338, R340–R342) of the i-th accepted request of a slice; what the code found, and whether on-die ECC reported. -/
def execSliceReadComplete (s : State) (g i : Nat) (ecc : Ecc) (odecc : Bool) : Res := onUnit g 512 (sliceRead s g i ecc odecc)
/-- SLICE_WRITE_ACK (R338, R339, R356) of the i-th accepted request; what a partial write found in the old block. -/
def execSliceWriteAck (s : State) (g i : Nat) (ecc : Ecc) : Res := onUnit g 512 (sliceWrite s g i ecc)
/-- PATROL_SCRUB (R343) of a block of a slice. -/
def execPatrolScrub (s : State) (g blk : Nat) (ecc : Ecc) : Res := onUnit g 512 (patrolScrub s g (64 * (blk % 2 ^ 25)) ecc)
/-- PER_BANK_REFRESH (R344): a refresh changes nothing that the spec lets be seen; a request that meets it waits. -/
def execPerBankRefresh (s : State) (g : Nat) : Res := onUnit g 512 s
/-- STACK_TEMP_READ (R344). -/
def execStackTempRead (s : State) (m temp : Nat) : Res := onUnit m 16 (stackTemp s m temp)
/-- MEMORY_TRAINING (R348): a write of MEMC_TRAIN with GO. -/
def execMemoryTraining (s : State) (m : Nat) (req : Req) (val : Word) : Res := onUnit m 16 (regCmdSet s req (memcPage m) 0x44 val 1)
/-- TRAINING_COMPLETE (R349): channels that failed the quick verify and the full training. -/
def execTrainingComplete (s : State) (m quick fail : Nat) : Res := onUnit m 16 (memTrained s m quick fail)
/-- RECENTRING_WINDOW (R350) on a channel that the calibration scheduler granted one. -/
def execRecentringWindow (s : State) (m ch : Nat) : Res := onUnit m 16 (recentreOpen s m (ch % 32))
/-- RECENTRING_END (R350, R351). -/
def execRecentringEnd (s : State) (m : Nat) (pass : Bool) : Res := onUnit m 16 (recentreEnd s m pass)
/-- PLACEMENT_WRITE (R334): register `n` of the placement registers. -/
def execPlacementWrite (s : State) (m : Nat) (req : Req) (n : Nat) (lo hi : Word) : Res := onUnit m 16 (placeCmd s req m (n % 34) lo hi)
/-- PLACEMENT_ACKED (R334). -/
def execPlacementAcked (s : State) (m : Nat) : Res := onUnit m 16 (fdSet s (memcPage m) fMEMC_STATUS_PLACEBUSY 0)
/-- GRANT_WRITE (R337). -/
def execGrantWrite (s : State) (m : Nat) (req : Req) (val : Word) : Res := onUnit m 16 (regCmd s req (memcPage m) 0x64 val)
/-- GRANT_ACKED (R337). -/
def execGrantAcked (s : State) (m : Nat) : Res := onUnit m 16 (fdSet s (memcPage m) fMEMC_STATUS_GRANTBUSY 0)
/-- SLICE_EVACUATE (R355): a write of MEMC_SLICE_CTL with EVAC. -/
def execSliceEvacuate (s : State) (m : Nat) (req : Req) (val : Word) : Res := onUnit m 16 (regCmdSet s req (memcPage m) 0x6C val 1)
/-- SLICE_EVACUATED (R355). -/
def execSliceEvacuated (s : State) (g : Nat) : Res := onUnit g 512 (sliceEvacuated s g)
/-- SLICE_CLOSE (R355): a write of MEMC_SLICE_CTL with CLOSE. -/
def execSliceClose (s : State) (m : Nat) (req : Req) (val : Word) : Res := onUnit m 16 (regCmdSet s req (memcPage m) 0x6C val 2)

end Sys2Proof.Machine
end

