-- ==== Sys2Proof/Machine/Mgmt.lean ====
section
/-! DEFINITION. The commands of the management port, the debug port and the fuses (chapter 19). -/
namespace Sys2Proof.Machine
open Sys2Proof

/-- The dynamic address, while the port exists (R597). -/
def dynAddr (s : State) (a : Nat) : State := if s.pins.pwrGood then fdSet s mgmtPg fMGMT_STATUS_DADDR a else s
/-- A Casevo register read (R598); a refusal by class is captured. -/
def casevoRead (s : State) (page off : Nat) : State :=
  mgmtMsg s (fun s =>
    let r := readCode s .mgmt page off
    let s := if r.2.2 = cDENIED then mgmtDenied r.1 1 else r.1
    send s (.mgmt r.2.2 [r.2.1]))
def casevoWrite (s : State) (page off : Nat) (v : Word) : State :=
  mgmtMsg s (fun s =>
    let r := writeCode s .mgmt page off v.toNat 15
    let s := if r.2 = cDENIED then mgmtDenied r.1 2 else r.1
    send s (.mgmt r.2 []))
/-- The numeric effecter for PWR_LIMIT, which hub firmware serves (R599). -/
def pldmEffecter (s : State) (watts : Nat) : State :=
  mgmtMsg s (fun s =>
    if fb s mgmtPg fMGMT_STATUS_ROMONLY then mgmtBad s 1
    else if watts < 1500 ∨ 3600 < watts then send s (.mgmt cRANGE [])
    else send (registerWrite s .hub hubPwr.no 0x80 watts 15) (.mgmt cOK []))
/-- An access through the debug port to an unimplemented address (R36); the spec gives no SOURCE for it (log entry 5). -/
def debugRange (s : State) (a : Nat) (write : Bool) : State :=
  let s := errAt s (hubPage .auth) cRANGE (freeSource (hubPage .auth).no 0 cRANGE) (freeDetail (hubPage .auth).no 0 cRANGE) a 0
  if write then s else send s (.data .debug 0)
/-- A word of memory through the debug port's interface (R26, R337, R604). -/
def debugMem (s : State) (a : Nat) (write : Bool) (v : Word) : State :=
  if 2 ^ 40 ≤ a then debugRange s a write else
  let lo := a / 8 * 8
  let k := a / 4 % 2 * 4
  if write then
    let old := (memReadSpan s (injEpoch s 8 0xF2) lo 8).1
    (unitMem s 0xF2 lo 8 (some (old.take k ++ natLe 4 v.toNat ++ old.drop (k + 4)))).1
  else
    let r := unitMem s 0xF2 lo 8 none
    send r.1 (.data .debug (BitVec.ofNat 32 (leNat ((r.2.drop k).take 4))))
/-- A word of a core's scratchpad through the debug port, by its offset in the order of BAR4 (R27, R604). -/
def debugSpad (s : State) (a : Nat) (write : Bool) (v : Word) : State :=
  let d := a / 2 ^ 31
  let c := a % 2 ^ 31 / 2 ^ 23
  if 8 ≤ d ∨ 144 ≤ c then debugRange s (2 ^ 40 + a) write
  else extSpad s (144 * d + c) { via := 1, addr := a % 2 ^ 23 / 4 * 4, n := 4, write := write, data := natLe 4 v.toNat }
/-- DEBUG_TRANSPORT: 0 a register of the module's register space, 1 memory, 2 scratchpad; nothing while the port is shut. -/
def debugAccess (s : State) (kind a : Nat) (write : Bool) (v : Word) : State :=
  let pg := hubPage .auth
  if fb s pg fAUTH_STATUS_DBGLOCK then raiseInt (errAt (bump s pg 0xC10) pg cDENIED 0x20 0 0 0) pg 8
  else if debugShut s then s
  else match kind with
    | 0 => if write then registerWrite s .debug (a / 4096) (a % 4096) v.toNat 15 else registerRead s .debug (a / 4096) (a % 4096)
    | 1 => debugMem s a write v
    | _ => debugSpad s a write v
/-- FUSE_CMD written with GO and a CODE (R607, R612). -/
def fuseCmdWrite (s : State) (req : Req) (v : Word) (code : Nat) : State :=
  registerWrite s req fusePg.no 0x54 (setBits (v.toNat ||| 2 ^ 31) 0 4 code) 15

/-- ENTDAA (R597). -/
def execEntdaa (s : State) (addr : Nat) : Res := .next (dynAddr s addr)
/-- MCTP_CONTROL (R597): command code, EID, whether the message is malformed. -/
def execMctpControl (s : State) (cmd eid : Nat) (bad : Bool) : Res := .next (mctpControl s cmd eid bad)
/-- CASEVO_REG_READ (R598). -/
def execCasevoRegRead (s : State) (page off : Nat) : Res := .next (casevoRead s page off)
/-- CASEVO_REG_WRITE (R598). -/
def execCasevoRegWrite (s : State) (page off : Nat) (val : Word) : Res := .next (casevoWrite s page off val)
/-- CASEVO_HEAL_QUERY (R593, R598): FROM and the largest entry count. -/
def execCasevoHealQuery (s : State) (first : Word) (max : Nat) : Res := .next (mgmtHeal s first.toNat max)
/-- CASEVO_FABRIC_CFG (R594, R598): the entry, the table it brings, whether a save succeeds. -/
def execCasevoFabricCfg (s : State) (entry : Nat) (table : List (BitVec 128)) (saved : Bool) : Res := .next (mgmtFabric s entry table saved)
/-- CASEVO_FUSE (R598, R607). -/
def execCasevoFuse (s : State) (code arg : Nat) : Res := .next (casevoFuse s code arg)
/-- PLDM_SENSOR_READ (R599). -/
def execPldmSensorRead (s : State) (n : Nat) : Res := .next (pldmSensor s n)
/-- PLDM_EFFECTER_SET (R599). -/
def execPldmEffecterSet (s : State) (watts : Nat) : Res := .next (pldmEffecter s watts)
/-- FIRMWARE_UPDATE (R602, R603): 0 the request, 1 the images have come, 2 they are checked. -/
def execFirmwareUpdate (s : State) (phase : Nat) (hub svc : Image) : Res := .next (firmwareUpdate s phase hub svc)
/-- SPDM_GET_CERTIFICATE (R600). -/
def execSpdmGetCertificate (s : State) : Res := .next (spdmAnswer s 1 [])
/-- SPDM_CHALLENGE (R600) with a nonce. -/
def execSpdmChallenge (s : State) (nonce : Nat) : Res := .next (spdmAnswer s 2 [nonce])
/-- SPDM_GET_MEASUREMENTS (R600). -/
def execSpdmGetMeasurements (s : State) : Res := .next (spdmMeasure s)
/-- DEBUG_TRANSPORT (R604). -/
def execDebugTransport (s : State) (kind addr : Nat) (write : Bool) (val : Word) : Res := .next (debugAccess s kind addr write val)
/-- AUTH_DBG_LOCK_WRITE (R605, R611). -/
def execAuthDbgLockWrite (s : State) (req : Req) (val : Word) : Res := .next (regCmdSet s req (hubPage .auth) 0x44 val 1)
/-- FUSE_ARM_WRITE (R607). -/
def execFuseArmWrite (s : State) (req : Req) (val : Word) : Res := .next (regCmd s req fusePg 0x50 val)
/-- FUSE_ARM_EXPIRY (R607). -/
def execFuseArmExpiry (s : State) : Res := .next (fuseExpiry s)
/-- FUSE_DBG_CLOSE (R606, R607). -/
def execFuseDbgClose (s : State) (req : Req) (val : Word) : Res := .next (fuseCmdWrite s req val 1)
/-- FUSE_MGMT_CLOSE (R606, R607). -/
def execFuseMgmtClose (s : State) (req : Req) (val : Word) : Res := .next (fuseCmdWrite s req val 2)
/-- FUSE_SVN_ADVANCE (R606, R607). -/
def execFuseSvnAdvance (s : State) (req : Req) (val : Word) : Res := .next (fuseCmdWrite s req val 3)
/-- FUSE_KEY_REVOKE (R606, R607). -/
def execFuseKeyRevoke (s : State) (req : Req) (val : Word) : Res := .next (fuseCmdWrite s req val 4)
/-- FUSE_PROGRAM_DONE (R607, R608): whether the fuse reads back as programmed. -/
def execFuseProgramDone (s : State) (same : Bool) : Res := .next (fuseDone s same)
/-- PLDM_EVENT_POLL (R599). -/
def execPldmEventPoll (s : State) : Res := .next (pldmPoll s)

end Sys2Proof.Machine
end

