-- ==== Sys2Proof/Machine/PinCmds.lean ====
section
/-! DEFINITION. Supplies and pins (chapter 21). -/
namespace Sys2Proof.Machine
open Sys2Proof

/-- AUX_3V3_APPLIED (R525, R636). -/
def execAux3v3Applied (s : State) : Res := .next (auxApplied s)
/-- TWIN_SEL_SAMPLE (R404, R644). -/
def execTwinSelSample (s : State) (high : Bool) : Res := .next (twinSelSample s high)
/-- AUX_3V3_LOST (R45, R496, R538, R636). -/
def execAux3v3Lost (s : State) : Res := .next (auxLost s)
/-- PWR_EN_RISE (R525, R568, R638): whether PWR_EN has been low for 10 ms. -/
def execPwrEnRise (s : State) (held : Bool) : Res := .next (pwrEnRise s held)
/-- PWR_EN_FALL (R538, R560, R568, R638). -/
def execPwrEnFall (s : State) : Res := .next (pwrEnFall s)
/-- MAIN_SUPPLY_LOST (R19, R496, R538, R637). -/
def execMainSupplyLost (s : State) : Res := .next (mainLost s)
/-- MAIN_SUPPLY_RESTORED (R637). -/
def execMainSupplyRestored (s : State) : Res := .next (mainRestored s)
/-- MOD_RST_N_ASSERT (R47, R525, R538, R560, R638): the low pulse in µs. -/
def execModRstNAssert (s : State) (us : Nat) : Res := .next (modRst s us)
/-- FLASH_EXT_N_ASSERT (R644). -/
def execFlashExtNAssert (s : State) : Res := .next (flashExtLow s)
/-- FLASH_EXT_N_RELEASE (R644). -/
def execFlashExtNRelease (s : State) : Res := .next (flashExtHigh s)

end Sys2Proof.Machine
end

