-- ==== Sys2Proof/Machine/PowerCmds.lean ====
section
/-! DEFINITION. The commands of power, states and clocks (chapter 18). -/
namespace Sys2Proof.Machine
open Sys2Proof

/-- A command to a cluster, 36·die + k (R33). -/
def onClus (k : Nat) (t : State) : Res := onUnit k 288 t
/-- Loss of a PLL: a cluster's below 288, a die's from there (R565). -/
def pllLoss (s : State) (n : Nat) (relocked : Bool) : State := if n < 288 then clusPllLoss s n relocked else diePllLoss s (n - 288) relocked

/-- PHASE_FAILURE (R547) of a die's converter. -/
def execPhaseFailure (s : State) (die ph : Nat) : Res := onUnit die 11 (phaseFailure s die ph)
/-- REGULATOR_FAULT (R549). -/
def execRegulatorFault (s : State) (k : Nat) : Res := onClus k (regulatorFault s k)
/-- POWER_SAMPLE (R550): millivolts and milliamperes of the 12 V input, milliamperes of each die. -/
def execPowerSample (s : State) (mv ma : Nat) (dies : List Nat) : Res := .next (powerSample s mv ma dies)
/-- LIMITER_INTERVAL (R550, R551, R567, R640). -/
def execLimiterInterval (s : State) : Res := .next (limiterInterval s)
/-- FAST_THROTTLE (R552, R553) of a die, or of the module as 11. -/
def execFastThrottle (s : State) (d : Nat) : Res := onUnit d 12 (fastThrottle s d)
/-- FAST_THROTTLE_RELEASE (R552): the interval's average current in mA. -/
def execFastThrottleRelease (s : State) (d ma : Nat) : Res := onUnit d 12 (throttleRelease s d ma)
/-- CORE_TARGET_WRITE (R216, R554, R557, R558). -/
def execCoreTargetWrite (s : State) (k : Nat) (req : Req) (val : Word) : Res := onClus k (regCmd s req (clusPage k) 0x44 val)
/-- REST_ENTRY (R108, R151, R216, R555). -/
def execRestEntry (s : State) (core : Nat) : Res := onCore core (restEntry s core)
/-- REST_WAKE (R187, R555, R558). -/
def execRestWake (s : State) (core : Nat) : Res := onCore core (restWake s core)
/-- HOLD_WRITE (R555, R558): a write of CLUS_CTL. -/
def execHoldWrite (s : State) (k : Nat) (req : Req) (val : Word) : Res := onClus k (regCmd s req (clusPage k) 0x48 val)
/-- DIE_IDLE_ENTRY (R559). -/
def execDieIdleEntry (s : State) (d : Nat) : Res := onUnit d 8 (dieIdleEntry s d)
/-- DIE_IDLE_EXIT (R559). -/
def execDieIdleExit (s : State) (d : Nat) : Res := onUnit d 8 (dieIdleExit s d)
/-- STANDBY_ENTRY (R345, R560): a write of PWR_STBY with ENTER. -/
def execStandbyEntry (s : State) (req : Req) (val : Word) : Res := .next (regCmdSet s req hubPwr 0x90 val 1)
/-- CRYSTAL_JUDGED (R563): the lengths of windows of 256 crystal periods, in units of 625 ps. -/
def execCrystalJudged (s : State) (wins : List Nat) : Res := .next (crystalJudged s wins)
/-- CRYSTAL_FAIL (R563, R565). -/
def execCrystalFail (s : State) : Res := .next (crystalFail s)
/-- PLL_START (R564): a wake request of a cluster. -/
def execPllStart (s : State) (k : Nat) : Res := onClus k (pllWake s k)
/-- PLL_LOCK (R564). -/
def execPllLock (s : State) (k : Nat) : Res := onClus k (pllLock s k)
/-- PLL_LOSS (R565): clusters, then dies; whether the relock that release 3 tries succeeds. -/
def execPllLoss (s : State) (n : Nat) (relocked : Bool) : Res := onUnit n 299 (pllLoss s n relocked)
/-- SERDES_REF_LOSS (R565) of a port die. -/
def execSerdesRefLoss (s : State) (pd : Nat) : Res := onUnit pd 2 (serdesLoss s (9 + pd))
/-- SERDES_REF_RETURN (R565). -/
def execSerdesRefReturn (s : State) (pd : Nat) : Res := onUnit pd 2 (serdesReturn s (9 + pd))
/-- HOST_REFCLK_LOSS (R565). -/
def execHostRefclkLoss (s : State) : Res := .next (hostRefLoss s)
/-- TEMP_SAMPLE (R566) of a die's sensors and its stacks. -/
def execTempSample (s : State) (die : Nat) (temps stackTemps : List Nat) : Res := onUnit die 11 (tempSample s die temps stackTemps)
/-- THERMAL_TRIP (R538, R568). -/
def execThermalTrip (s : State) : Res := .next (thermalTrip s)
/-- CLUS_RELOCK (R569): a write of CLUS_CTL with RELOCK. -/
def execClusRelock (s : State) (k : Nat) (req : Req) (val : Word) : Res := onClus k (regCmdSet s req (clusPage k) 0x48 val 2)
/-- CLK_RELOCK (R570): a write of CLK_CTL with RELOCK. -/
def execClkRelock (s : State) (die : Nat) (req : Req) (val : Word) : Res := onUnit die 11 (regCmdSet s req (diePage .clk die) 0x44 val 1)
/-- CLK_CLRLOST (R570): a write of CLK_CTL with CLRLOST. -/
def execClkClrlost (s : State) (die : Nat) (req : Req) (val : Word) : Res := onUnit die 11 (regCmdSet s req (diePage .clk die) 0x44 val 2)
/-- SETPOINT_WRITE (R548, R569). -/
def execSetpointWrite (s : State) (k : Nat) (req : Req) (val : Word) : Res := onClus k (regCmd s req (clusPage k) 0x4C val)
/-- FREQ_TARGET_WRITE (R569). -/
def execFreqTargetWrite (s : State) (k : Nat) (req : Req) (val : Word) : Res := onClus k (regCmd s req (clusPage k) 0x50 val)
/-- PWR_LIMIT_WRITE (R551). -/
def execPwrLimitWrite (s : State) (req : Req) (val : Word) : Res := .next (regCmd s req hubPwr 0x80 val)

end Sys2Proof.Machine
end

