-- ==== Sys2Proof/Machine/Registers.lean ====
section
/-! DEFINITION. The commands of the register page header (chapter 2, R34–R54, R653–R655). -/
namespace Sys2Proof.Machine
open Sys2Proof

/-- REGISTER_WRITE (R38, R653): any write, by page number, offset and byte enables; `val` holds its word, or the words of one wider than 32
bits, whose enables stand above the first word's four. -/
def execRegisterWrite (s : State) (req : Req) (page off : Nat) (val : List Word) (be : Nat) : Res :=
  onUnit page 32768 (wideWrite s req page (off % 4096) be val)
/-- PAIR_LOW_READ (R38, R40): a read of one or more registers; that of a pair's low half latches the high half. -/
def execPairLowRead (s : State) (req : Req) (page : Nat) (off : RegSpan) : Res :=
  onUnit page 32768 (wideRead s req page (off.off % 4096) (off.more + 1))
/-- INT_RAW_SET (R52). -/
def execIntRawSet (s : State) (req : Req) (page : Nat) (val : Word) : Res :=
  onUnit page 32768 (registerWrite s req page 0x10 val.toNat 15)
/-- INT_STAT_CLEAR (R52). -/
def execIntStatClear (s : State) (req : Req) (page : Nat) (val : Word) : Res :=
  onUnit page 32768 (registerWrite s req page 0x14 val.toNat 15)
/-- INT_ENABLE_SET (R52). -/
def execIntEnableSet (s : State) (req : Req) (page : Nat) (val : Word) : Res :=
  onUnit page 32768 (registerWrite s req page 0x18 val.toNat 15)
/-- INT_ENABLE_CLEAR (R52). -/
def execIntEnableClear (s : State) (req : Req) (page : Nat) (val : Word) : Res :=
  onUnit page 32768 (registerWrite s req page 0x1C val.toNat 15)
/-- ERR_CLR (R53): the write of 1. -/
def execErrClr (s : State) (req : Req) (page : Nat) (val : Word) : Res :=
  onUnit page 32768 (registerWrite s req page 0x30 (val.toNat ||| 1) 15)
/-- PG_LOCK_SET (R54): the write of 1 to LOCK. -/
def execPgLockSet (s : State) (req : Req) (page : Nat) (val : Word) : Res :=
  onUnit page 32768 (registerWrite s req page 0x34 (val.toNat ||| 1) 15)

end Sys2Proof.Machine
end

