-- ==== Sys2Proof/Machine/Resets.lean ====
section
/-! DEFINITION. The commands of resets, context operations, teardown, incidents (chapter 16). -/
namespace Sys2Proof.Machine
open Sys2Proof

/-- DIE_CTXOP written with GO and an operation (R506). -/
def ctxOpCmd (s : State) (d : Nat) (req : Req) (v : Word) (op : Nat) : State :=
  registerWrite s req (diePage .die d).no 0x60 (setBits (v.toNat ||| 2 ^ 31) 0 3 op) 15
/-- AON_RST_CTL written with GO and a KIND (R522). -/
def aonRstCmd (s : State) (req : Req) (v : Word) (kind : Nat) : State :=
  registerWrite s req aon.no 0x4C (setBits (v.toNat ||| 2 ^ 31) 0 2 kind) 15
/-- The packet a notice came in leaves hub control core 0 (R369, R511). -/
def noticeTake (s : State) : State :=
  match (net s 8).ends.find? (fun p => p.type == 14 && p.code == 4) with
  | some p => takeEnd s 8 p
  | none => s
/-- A notice handled by hub firmware. -/
def onNotice (s : State) (f : State → State) : Res := .next (f (noticeTake s))

/-- CORE_RESET (R495, R498): a write of DIE_RST_CORE with GO. -/
def execCoreReset (s : State) (d : Nat) (req : Req) (val : Word) : Res := onUnit d 8 (regCmdSet s req (diePage .die d) 0x44 val 0x80000000)
/-- CLUSTER_RESET (R495, R558): a write of DIE_RST_CLUS with GO. -/
def execClusterReset (s : State) (d : Nat) (req : Req) (val : Word) : Res :=
  onUnit d 8 (regCmdSet s req (diePage .die d) 0x48 val 0x80000000)
/-- COMPUTE_DIE_RESET (R345, R495, R499, R512) with a cause of R522. -/
def execComputeDieReset (s : State) (d cause : Nat) : Res := onUnit d 8 (if closed s (cmDie d) then s else resetDie s d cause)
/-- PORT_DIE_RESET (R495, R501). -/
def execPortDieReset (s : State) (pd cause : Nat) : Res := onUnit pd 2 (if closed s (cmDie (9 + pd)) then s else resetDie s (9 + pd) cause)
/-- MODULE_RESET (R345, R396, R495, R503, R517, R540), 10 µs after the write that asks for it. -/
def execModuleReset (s : State) : Res := .next (moduleResetDue s)
/-- DIE_WATCHDOG_EXPIRY (R497) of a die's controller. -/
def execDieWatchdogExpiry (s : State) (die n : Nat) : Res := onUnit die 11 (dieWdog s die n)
/-- HUB_WATCHDOG_EXPIRY (R497). -/
def execHubWatchdogExpiry (s : State) : Res := .next (hubWdog s)
/-- DIE_WDOG_KICK (R497). -/
def execDieWdogKick (s : State) (die : Nat) (req : Req) (val : Word) : Res := onUnit die 11 (regCmd s req (diePage .die die) 0x58 val)
/-- AON_HWDOG_KICK (R497). -/
def execAonHwdogKick (s : State) (req : Req) (val : Word) : Res := .next (regCmd s req aon 0x58 val)
/-- FOOTPATH_HUB_LOSS (R495). -/
def execFootpathHubLoss (s : State) (die : Nat) : Res := onUnit die 11 (footpathHubLoss s die)
/-- HOST_LINK_RESET (R502, R595): 0 PERST_N, 1 hot reset, 2 loss of the link. -/
def execHostLinkReset (s : State) (kind : Nat) : Res := onUnit kind 3 (hostLinkReset s kind)
/-- FUNCTION_LEVEL_RESET (R502, R595) of a function: 0 the PF, n + 1 VF n. -/
def execFunctionLevelReset (s : State) (fn : Nat) : Res := onUnit fn 65 (functionReset s fn)
/-- CTXOP_HALT (R506). -/
def execCtxopHalt (s : State) (d : Nat) (req : Req) (val : Word) : Res := onUnit d 8 (ctxOpCmd s d req val 1)
/-- CTXOP_CLOSE (R506). -/
def execCtxopClose (s : State) (d : Nat) (req : Req) (val : Word) : Res := onUnit d 8 (ctxOpCmd s d req val 2)
/-- CTXOP_REGEN (R506). -/
def execCtxopRegen (s : State) (d : Nat) (req : Req) (val : Word) : Res := onUnit d 8 (ctxOpCmd s d req val 3)
/-- CTXOP_CLEAR (R506). -/
def execCtxopClear (s : State) (d : Nat) (req : Req) (val : Word) : Res := onUnit d 8 (ctxOpCmd s d req val 4)
/-- CTXOP_COMPLETE (R506). -/
def execCtxopComplete (s : State) (d : Nat) : Res := onUnit d 8 (ctxOpDone s d)
/-- CTX_TEARDOWN (R507, R590): the next command of a ring. -/
def execCtxTeardown (s : State) (r : Nat) : Res := onUnit r 128 (withCmd s r 5 anyCmd ctxTeardown)
/-- DRAIN_EXPIRY (R504, R507) of a context. -/
def execDrainExpiry (s : State) (id : Nat) : Res := onUnit id 1024 (drainGo (drainEnd s id) id)
/-- INCIDENT_LOST (R423, R511, R512): job, lost device, milestone its carrier holds. -/
def execIncidentLost (s : State) (job : Word) (subj : Nat) (mile : Word) : Res := onNotice s (fun s => pstMoves s (lostIn s job.toNat subj mile.toNat))
/-- INCIDENT_QUERY (R511) of a device. -/
def execIncidentQuery (s : State) (dev : Nat) : Res := onNotice s (fun s => queryIn s dev)
/-- INCIDENT_STATE (R427, R511). -/
def execIncidentState (s : State) (dev : Nat) : Res := onNotice s (fun s => stateIn s dev)
/-- INCIDENT_ABORT (R512, R513, R515): job, failed step, code. -/
def execIncidentAbort (s : State) (job step : Word) (code : Nat) : Res := onNotice s (fun s => abortIn s job.toNat step.toNat code)
/-- INCIDENT_ABORTED (R513, R516): device, job, latest milestone. -/
def execIncidentAborted (s : State) (dev : Nat) (job mile : Word) : Res := onNotice s (fun s => abortedIn s dev job.toNat mile.toNat)
/-- INCIDENT_RESUME (R513). -/
def execIncidentResume (s : State) (job mile : Word) : Res := onNotice s (fun s => resumeIn s job.toNat mile.toNat)
/-- CONTEXT_ARMED (R513). -/
def execContextArmed (s : State) (id : Nat) : Res := onUnit id 1024 (contextArmed s id)
/-- INCIDENT_ARMED (R513). -/
def execIncidentArmed (s : State) (dev : Nat) (job mile : Word) : Res := onNotice s (fun s => armedIn s dev job.toNat mile.toNat)
/-- INCIDENT_GO (R513). -/
def execIncidentGo (s : State) (dev : Nat) (job mile : Word) : Res := onNotice s (fun s => goIn s dev job.toNat mile.toNat)
/-- INCIDENT_POSITION (R479, R511): EN, die, unit of each moved position. -/
def execIncidentPosition (s : State) (dev : Nat) (job mile : Word) (moved : List (Nat × Nat × Nat)) : Res :=
  onNotice s (fun s => positionIn s dev job.toNat mile.toNat moved)
/-- INCIDENT_ACK (R511). -/
def execIncidentAck (s : State) (dev : Nat) : Res := onNotice s (fun s => ackIn s dev)
/-- NOTICE_RESEND (R511) of the i-th notice that awaits an answer. -/
def execNoticeResend (s : State) (i : Nat) : Res := .next (noticeResend s i)
/-- BARRIER_TIMEOUT (R513) of a context's job. -/
def execBarrierTimeout (s : State) (id : Nat) : Res := onUnit id 1024 (barrierTimeout s id)
/-- GRIDLOCK_RECOVERY (R518) from a core's capture. -/
def execGridlockRecovery (s : State) (core : Nat) : Res := onCore core (gridRecover s core)
/-- AON_RST_COMPUTE_DIE (R522). -/
def execAonRstComputeDie (s : State) (req : Req) (val : Word) : Res := .next (aonRstCmd s req val 1)
/-- AON_RST_PORT_DIE (R522). -/
def execAonRstPortDie (s : State) (req : Req) (val : Word) : Res := .next (aonRstCmd s req val 2)
/-- AON_RST_MODULE (R522). -/
def execAonRstModule (s : State) (req : Req) (val : Word) : Res := .next (aonRstCmd s req val 3)
/-- AON_RST_CLR (R522). -/
def execAonRstClr (s : State) (req : Req) (val : Word) : Res := .next (regCmdSet s req aon 0x64 val 1)
/-- DIE_RESET_COMPLETE (R346, R495, R500, R501). -/
def execDieResetComplete (s : State) (die : Nat) : Res := onUnit die 11 (dieReturned s die)

end Sys2Proof.Machine
end

