-- ==== Sys2Proof/Machine/Scratchpad.lean ====
section
/-! DEFINITION. The commands of the scratchpad and its DMA engine (chapter 7). -/
namespace Sys2Proof.Machine
open Sys2Proof

/-! ### The crossbar (R194, R195) -/

/-- Priority level by requester. -/
def xLevel (who : Nat) : Nat :=
  if who = whoQe then 1 else if who = whoDma then 2 else if who ≤ whoLoader then 3 else if who = whoSeq then 4 else if who = whoExt ∨ who = whoTest then 5 else 6
/-- Place in the order of a cycle: level 1, risen requests of levels 2 to 5, level 6 after 1,024 cycles, then the levels. -/
def xRank (r : XReq) : Nat :=
  let l := xLevel r.who
  if l = 1 then 0 else if l ≤ 5 then (if 16 ≤ r.waited then 1 else l + 1) else if 1024 ≤ r.waited then 2 else 7
/-- Whether a request may be granted beside those granted: a bank does one read and one write a cycle, 64 words move in all, and a
level-6 request that has not aged needs an idle bank. -/
def xFits (taken : List XReq) (r : XReq) : Bool :=
  let same := taken.filter (fun q => q.word % 64 == r.word % 64)
  decide (taken.length < 64) && (if xRank r = 7 then same.isEmpty else !same.any (fun q => (q.bytes == 0) == (r.bytes == 0)))
/-- Requests of one rank in rotation: the requester after the one served first last time comes first (log entry 126). -/
def xTurn (last : Nat) (l : List XReq) : List XReq := ((List.range 32).map (fun i => l.filter (fun r => r.who % 32 == (last + 1 + i) % 32))).flatten
/-- The requests granted in one cycle, rank after rank. -/
def xGrants (turn : Tbl Nat) (reqs : List XReq) : List XReq :=
  (List.range 8).foldl (fun taken k => (xTurn (tget 31 turn k) (reqs.filter (fun r => xRank r == k))).foldl (fun t r => if xFits t r then t ++ [r] else t) taken) []
/-- Where the rotation of each rank stands after a cycle. -/
def xTurns (turn : Tbl Nat) (g : List XReq) : Tbl Nat :=
  (List.range 8).foldl (fun t k => match g.find? (fun r => xRank r == k) with | some r => tput t k (r.who % 32) | none => t) turn
/-- A granted read served and answered. -/
def xRead (s : State) (c : Nat) (r : XReq) : State :=
  match spadRead s c r.who (r.word % 1048576) r.ecc with
  | (s, .word v p) => send s (.spadWord c r.who v p cOK)
  | (s, .wait) => s
  | (s, .refused code) => send s (.spadWord c r.who 0 false code)
/-- A granted write accepted into its bank's queue, which holds eight, and answered (R196, R213). -/
def xWrite (s : State) (c : Nat) (r : XReq) : State :=
  let w := r.word % 1048576
  if bankPend (core s c) (bankOf w) ≥ 8 then s
  else match bankAsk s c r.who w with
    | (s, some (.refused code)) => send s (.spadWord c r.who 0 false code)
    | (s, some _) => s
    | (s, none) =>
      let x := spadMerge s c w r.bytes r.data r.poison r.ecc r.who
      send (bankAccept x.1 c w x.2.1 x.2.2) (.spadWord c r.who r.data r.poison cOK)
/-- A cycle: each bank applies its oldest accepted write, and the granted reads are served before the granted writes (R194, R203, R213). -/
def crossbar (s : State) (c : Nat) (reqs : List XReq) : State :=
  let s := (List.range 64).foldl (fun s b => bankDrain s c b) s
  let g := xGrants (core s c).sp.turn reqs
  let s := setCore s c { core s c with sp := { (core s c).sp with turn := xTurns (core s c).sp.turn g } }
  let s := (g.filter (fun r => r.bytes == 0)).foldl (fun s r => xRead s c r) s
  (g.filter (fun r => r.bytes != 0)).foldl (fun s r => xWrite s c r) s

/-! ### Ranges, protection, scrubbing -/

/-- A waiting range is granted, or a cycle of waiting is counted (R199, R226). -/
def rangeTurn (s : State) (c n : Nat) : State :=
  match (core s c).sp.ranges[n]? with
  | some r => if r.granted then s else if rangeClear s c n r then rangeGrant s c n else bump s (spadPage c) 0xC30
  | none => s
/-- The oldest corrected word is written back once its bank is ON and its region is not being recoded (R205, R217). -/
def writeBack (s : State) (c : Nat) : State :=
  let k := core s c
  match k.sp.wback with
  | [] => s
  | (w, v) :: l =>
    if bankState s c (bankOf w) ≠ 0 ∨ k.sp.recode.contains (regionOf w) then s
    else
      let p := (spadWord k w).2
      bump (setCore s c (putWord { k with sp := { k.sp with wback := l } } w v p)) (spadPage c) 0xC38
/-- The region whose class changed first is encoded anew; words that the old code cannot read, `bad` and those with more flipped bits than it
corrects, are written poisoned (R209). -/
def recodeDone (s : State) (c : Nat) (bad : List Nat) : State :=
  match (core s c).sp.recode with
  | [] => s
  | r :: l =>
    let k := core s c
    let old := !regionF s c r fSPAD_REGION_CLASS
    let lost := (k.sp.flips.map (·.1)).filter (fun w => flipsFind k old w == .uncorrectable)
    let s := setCore s c { k with sp := { k.sp with recode := l, flips := tfilter (fun w _ => regionOf w != r) k.sp.flips } }
    spadServe (((bad ++ lost).filter (fun w => decide (w < 1048576) && regionOf w == r)).foldl (fun s w => applyWord s c w 0 true) s) c
/-- Whether the scrubber visits the rows of a region. -/
def scrubRegion (s : State) (c r : Nat) : Bool := regionF s c r fSPAD_REGION_CLASS && !regionF s c r fSPAD_REGION_HOLD
/-- The next row the scrubber visits from a row, and whether it begins a new pass on the way (R210). -/
def scrubNext (s : State) (c row : Nat) : Option (Nat × Bool) :=
  if scrubRegion s c (row / 128) then some (row, false)
  else match (List.range 128).find? (fun r => decide (row / 128 < r) && scrubRegion s c r) with
    | some r => some (128 * r, false)
    | none => ((List.range 128).find? (fun r => scrubRegion s c r)).map (fun r => (128 * r, true))
/-- One row read by the scrubber; `finds` has what the code finds by bank (R205, R207, R210). -/
def scrubRow (s : State) (c : Nat) (finds : List (Nat × Ecc)) : State :=
  let p := spadPage c
  if !fb s p fSPAD_SCRUB_EN || cstate s c != 0 || (core s c).test || !(List.range 64).all (fun b => bankState s c b == 0) then s
  else match scrubNext s c (fd s p fSPAD_SCRUB_POS_ROW) with
    | none => s
    | some (row, wrapped) =>
      let one := fun (s : State) (b : Nat) =>
        let w := 64 * row + b
        let v := spadWord (core s c) w
        match eccAt s c w .clean with
        | .corrected =>
          let k := core s c
          spadCorrected (setCore s c { k with sp := { k.sp with wback := k.sp.wback ++ [(w, v.1)] } }) c w 0xC08
        | .uncorrectable => if v.2 then s else spadUncorrectable s c w true
        | _ => s
      let s := finds.foldl (fun s f => noteFlips s c (64 * row + f.1 % 64) f.2) (bumpBy s p 0xC38 64)
      let s := (List.range 64).foldl one s
      let next := (row + 1) % 16384
      let passes := fd s p fSPAD_SCRUB_POS_PASSES + b2n wrapped + b2n (next == 0)
      fdSet (fdSet s p fSPAD_SCRUB_POS_ROW next) p fSPAD_SCRUB_POS_PASSES (passes % 65536)

/-! ### Bank power (R212, R214) -/

/-- A bank in state `st` with no accepted write left reaches the stable state `next`; what waited for it goes on. -/
def bankArrive (s : State) (c b st next : Nat) : State :=
  if bankState s c b = st ∧ bankPend (core s c) b = 0 then spadServe (bankReach s c b next) c else s
/-- A CLOSING bank whose accepted writes are all applied enters OFF and loses its contents. -/
def bankOff (s : State) (c b : Nat) : State :=
  if bankState s c b ≠ 3 ∨ bankPend (core s c) b ≠ 0 then s else bankReach (raiseInt (setCore s c (bankLose (core s c) b)) (spadPage c) 14) c b 2
/-- A POWERING bank is ON, zeroed. -/
def bankPowered (s : State) (c b : Nat) : State :=
  if bankState s c b ≠ 6 then s else spadServe (bankReach (setCore s c (bankLose (core s c) b)) c b 0) c

/-! ### The commands -/

/-- CROSSBAR_GRANT (R194–R196, R205–R208, R214, R215): the requests before the crossbar in one cycle. -/
def execCrossbarGrant (s : State) (core : Nat) (reqs : List XReq) : Res := onCore core (crossbar s core reqs)
/-- RANGE_GRANT (R199) of the n-th live range in issue order; a CFGSW that waited for it goes on (R150). -/
def execRangeGrant (s : State) (core n : Nat) : Res := onCore core (cfgswResume (rangeTurn s core n) core)
/-- CORRECTION_WRITEBACK (R205). -/
def execCorrectionWriteback (s : State) (core : Nat) : Res := onCore core (writeBack s core)
/-- REGION_WRITE (R224, R209). -/
def execRegionWrite (s : State) (core : Nat) (req : Req) (n : Nat) (val : Word) : Res :=
  onCore core (regCmd s req (spadPage core) (0x400 + 4 * (n % 128)) val)
/-- RECODE_COMPLETE (R209). -/
def execRecodeComplete (s : State) (core : Nat) (bad : List Nat) : Res := onCore core (recodeDone s core bad)
/-- SCRUB_ROW_READ (R210). -/
def execScrubRowRead (s : State) (core : Nat) (finds : List (Nat × Ecc)) : Res := onCore core (scrubRow s core finds)
/-- BANK_TARGET_WRITE (R216) of SPAD_BANK_PWRn. -/
def execBankTargetWrite (s : State) (core : Nat) (req : Req) (n : Nat) (val : Word) : Res :=
  onCore core (regCmd s req (spadPage core) (0x80 + 4 * (n % 4)) val)
/-- BANK_OFF_REACHED (R214). -/
def execBankOffReached (s : State) (core bank : Nat) : Res := onCore core (bankOff s core (bank % 64))
/-- BANK_DROWSY_REACHED (R212). -/
def execBankDrowsyReached (s : State) (core bank : Nat) : Res := onCore core (bankArrive s core (bank % 64) 4 1)
/-- BANK_WAKE_COMPLETE (R212). -/
def execBankWakeComplete (s : State) (core bank : Nat) : Res := onCore core (bankArrive s core (bank % 64) 5 0)
/-- BANK_POWERED (R212). -/
def execBankPowered (s : State) (core bank : Nat) : Res := onCore core (bankPowered s core (bank % 64))
/-- DIRTY_DATA_READ (R217). -/
def execDirtyDataRead (s : State) (core : Nat) (req : Req) : Res := onCore core (registerRead s req (spadPage core).no 0x5C)
/-- UNTRUSTED_CLEAR (R224): a write of SPAD_STATUS with UNTRUSTED 1. -/
def execUntrustedClear (s : State) (core : Nat) (req : Req) (val : Word) : Res := onCore core (regCmdSet s req (spadPage core) 0x40 val 0x2000)
/-- DMA_DESCRIPTOR_START (R218, R221). -/
def execDmaDescriptorStart (s : State) (core : Nat) : Res := onCore core (dmaStart s core)
/-- DMA_REQUEST_TIMEOUT (R221): a request of the descriptor for memory address `addr` has had no response in TICKS. -/
def execDmaRequestTimeout (s : State) (core id addr : Nat) : Res := onCore core (dmaShared s core id (fun s c => dmaTimeout s c id addr))
/-- DMA_DESCRIPTOR_COMPLETE (R221, R222). -/
def execDmaDescriptorComplete (s : State) (core id : Nat) : Res := onCore core (dmaShared s core id (fun s c => dmaComplete s c id))
/-- DMA_NOTIFY_COMMIT (R223). -/
def execDmaNotifyCommit (s : State) (core id : Nat) : Res := onCore core (notifyCommit s core id)
/-- DMA_NOTIFY_TIMEOUT (R223): the word has waited TICKS. -/
def execDmaNotifyTimeout (s : State) (core id : Nat) : Res := onCore core (notifyTimeout s core id)

end Sys2Proof.Machine
end

