-- ==== Sys2Proof/Machine/Sequencer.lean ====
section
/-! DEFINITION. The commands of the sequencer (chapter 6). -/
namespace Sys2Proof.Machine
open Sys2Proof

/-! ### Waits that end (R183, R186) -/

/-- A waiting QPOP takes the word of a queue that is no longer empty. -/
def qpopReturn (s : State) (c : Nat) : State :=
  match (seqr s c).wait with
  | .qpop rd q _ => (match popSlot s c q with | (t, .word v p) => qpopGive t c rd v p | (_, .empty) => s)
  | _ => s
def qpopTimeout (s : State) (c : Nat) : State :=
  match (seqr s c).wait with
  | .qpop rd _ _ => seqFinish s c rd 0 cTIMEOUT
  | _ => s
/-- A waiting QSEL takes the slot it selects. -/
def qselSelect (s : State) (c : Nat) : State :=
  match (seqr s c).wait with
  | .qsel rd mask bank rot _ _ => (match qselPick s c mask bank rot with | some q => qselGive (wokeUp s c) c rd bank q | none => s)
  | _ => s
def qselTimeout (s : State) (c : Nat) : State :=
  match (seqr s c).wait with
  | .qsel rd _ _ _ _ _ => seqFinish (wokeUp s c) c rd 0xFFFFFFFF cTIMEOUT
  | _ => s
def napEntry (s : State) (c : Nat) : State :=
  let go := if (seqr s c).napped || !napRest s c then s else setSeqSt (setSeq s c { seqr s c with napped := true }) c 3 (fd s (cPage c) fCORE_SEQ_STATE_WAITON)
  match (seqr s c).wait with
  | .nap _ _ _ _ => go
  | .qsel _ _ _ _ _ _ => go
  | _ => s
def napWake (s : State) (c : Nat) : State :=
  match (seqr s c).wait with
  | .nap rd mask _ _ => if (seqr s c).causes &&& mask ≠ 0 then napEnd s c rd else s
  | _ => s
/-- The timer runs out once (R186, cause 1). -/
def napTimer (s : State) (c : Nat) : State :=
  match (seqr s c).wait with
  | .nap rd mask timer since =>
    if timer = 0 then s else wakeCause (setSeq s c { seqr s c with wait := .nap rd mask 0 since }) c 1
  | _ => s
/-- MILE completes; one that fails makes the die controller treat the step as failed (R184, R512). -/
def mileDone (s : State) (c : Nat) : State :=
  match (seqr s c).wait with
  | .mile _ _ =>
    let l := (seqr s c).issued
    let t := mileComplete s c
    if l.any (fun i => i.outcome.isNone) then t
    else match l.find? (fun i => i.outcome != some cOK) with
      | some i => abortCore t c (i.outcome.getD cOK)
      | none => t
  | _ => s

/-! ### The commands -/

/-- SEQ_INSTRUCTION (R179): `ecc` is what the code finds in a scratchpad word it accesses. -/
def execSeqInstruction (s : State) (core : Nat) (ecc : Ecc) : Res := onCore core (seqIssue s core ecc anyInstr)
/-- SEQ_SCRATCHPAD_ACCESS (R180): a load or store whose address lies in the scratchpad. -/
def execSeqScratchpadAccess (s : State) (core : Nat) (ecc : Ecc) : Res :=
  let spad := fun (a : Nat) => areaOf a == .spad
  onCore core (seqIssue s core ecc (fun w => loadKind s core spad w || storeKind s core spad w))
/-- QPOP (R183, R245). -/
def execQpop (s : State) (core : Nat) : Res := onCore core (seqIssue s core .clean (customKind 0x0B 0))
/-- QPOP_RETURN (R183). -/
def execQpopReturn (s : State) (core : Nat) : Res := onCore core (qpopReturn s core)
/-- QPOP_TIMEOUT (R183): CORE_QWAIT has run out. -/
def execQpopTimeout (s : State) (core : Nat) : Res := onCore core (qpopTimeout s core)
/-- QSEL (R183). -/
def execQsel (s : State) (core : Nat) : Res := onCore core (seqIssue s core .clean (customKind 0x0B 1))
/-- QSEL_SELECT (R183, R186). -/
def execQselSelect (s : State) (core : Nat) : Res := onCore core (qselSelect s core)
/-- QSEL_TIMEOUT (R183): its timeout has run out. -/
def execQselTimeout (s : State) (core : Nat) : Res := onCore core (qselTimeout s core)
/-- QSEND (R183, R236). -/
def execQsend (s : State) (core : Nat) : Res := onCore core (seqIssue s core .clean (customKind 0x0B 2))
/-- CHOPEN (R183, R232). -/
def execChopen (s : State) (core : Nat) : Res := onCore core (seqIssue s core .clean (customKind 0x0B 3))
/-- CHCLOSE (R183, R234). -/
def execChclose (s : State) (core : Nat) : Res := onCore core (seqIssue s core .clean (customKind 0x0B 4))
/-- DMAGO (R183, R219, R220): a core, and what the code finds in the descriptor's first word. -/
def execDmago (s : State) (src : CoreRead) : Res := onCore src.core (seqIssue s src.core src.ecc (customKind 0x0B 5))
/-- MILE (R184). -/
def execMile (s : State) (core : Nat) : Res := onCore core (seqIssue s core .clean (customKind 0x0B 7))
/-- MILE_COMPLETE (R184, R451). -/
def execMileComplete (s : State) (core : Nat) : Res := onCore core (mileDone s core)
/-- NAP (R186). -/
def execNap (s : State) (core : Nat) : Res := onCore core (seqIssue s core .clean (customKind 0x2B 0))
/-- NAP_ENTRY (R186). -/
def execNapEntry (s : State) (core : Nat) : Res := onCore core (napEntry s core)
/-- NAP_WAKE (R186). -/
def execNapWake (s : State) (core : Nat) : Res := onCore core (napWake s core)
/-- NAP_TIMER_EXPIRY (R186): the timer has run out. -/
def execNapTimerExpiry (s : State) (core : Nat) : Res := onCore core (napTimer s core)

/-- A load or store of the window at the offsets that `ok` names. -/
def winLoadAt (s : State) (c : Nat) (ok : Nat → Bool) : State :=
  seqIssue s c .clean (loadKind s c (fun a => areaOf a == .window && ok (a % 4096)))
def winStoreAt (s : State) (c : Nat) (ok : Nat → Bool) : State :=
  seqIssue s c .clean (storeKind s c (fun a => areaOf a == .window && ok (a % 4096)))
/-- WINDOW_QPOP (R188). -/
def execWindowQpop (s : State) (core : Nat) : Res := onCore core (winLoadAt s core (fun o => decide (o < 0x200) && o % 8 == 0))
/-- WINDOW_SQO_WRITE (R188). -/
def execWindowSqoWrite (s : State) (core : Nat) : Res := onCore core (winStoreAt s core (fun o => o == 0x220 || o == 0x224))
/-- WINDOW_SCO_WRITE (R188). -/
def execWindowScoWrite (s : State) (core : Nat) : Res := onCore core (winStoreAt s core (fun o => o == 0x228))
/-- WINDOW_SQI_READ (R188). -/
def execWindowSqiRead (s : State) (core : Nat) : Res := onCore core (winLoadAt s core (fun o => o == 0x230 || o == 0x234))
/-- WINDOW_SCI_READ (R188). -/
def execWindowSciRead (s : State) (core : Nat) : Res := onCore core (winLoadAt s core (fun o => o == 0x238))
/-- WINDOW_MBOX_IN_READ (R188). -/
def execWindowMboxInRead (s : State) (core : Nat) : Res := onCore core (winLoadAt s core (fun o => o == 0x250))
/-- WINDOW_MBOX_OUT_WRITE (R188). -/
def execWindowMboxOutWrite (s : State) (core : Nat) : Res := onCore core (winStoreAt s core (fun o => o == 0x254))
/-- SEQ_RUN (R187, R189): a write of CORE_SEQ_CTL with RUN 1. -/
def execSeqRun (s : State) (core : Nat) (req : Req) (val : Word) : Res := onCore core (regCmdSet s req (cPage core) 0x40 val 1)
/-- SEQ_HALT (R189): a write of CORE_SEQ_CTL with RUN 0. -/
def execSeqHalt (s : State) (core : Nat) (req : Req) (val : Word) : Res := onCore core (regCmdClear s req (cPage core) 0x40 val 1)
/-- SEQ_STEP (R189): a write of CORE_SEQ_CTL with STEP 1. -/
def execSeqStep (s : State) (core : Nat) (req : Req) (val : Word) : Res := onCore core (regCmdSet s req (cPage core) 0x40 val 4)
/-- CORE_MBOX_IN_WRITE (R189). -/
def execCoreMboxInWrite (s : State) (core : Nat) (req : Req) (val : Word) : Res := onCore core (regCmd s req (cPage core) 0x6C val)
/-- CORE_MBOX_OUT_READ (R189). -/
def execCoreMboxOutRead (s : State) (core : Nat) (req : Req) : Res := onCore core (registerRead s req (cPage core).no 0x70)

end Sys2Proof.Machine
end

