-- ==== Sys2Proof/Machine/Start.lean ====
section
/-! DEFINITION. The commands of bringing the module to service (chapter 17). -/
namespace Sys2Proof.Machine
open Sys2Proof

/-- ALWAYS_ON_START (R471, R524, R526, R563): the end of step 1. -/
def execAlwaysOnStart (s : State) : Res := .next (alwaysOnStart s)
/-- HUB_BOOT (R13, R526, R528, R540, R602). -/
def execHubBoot (s : State) : Res := .next (hubBoot s)
/-- SERVICE_IMAGE_LOAD (R526, R528, R540): whether the copy passes its check; dies whose controllers did not run in time, and did not after a
reset. -/
def execServiceImageLoad (s : State) (copyOk : Bool) (bad worse : List Nat) : Res := .next (serviceImageLoad s copyOk bad worse)
/-- MEMORY_START (R358, R526, R530, R540, R541): stacks with a valid record; stack, channels that failed the quick verify, channels that
failed training or the memory test. -/
def execMemoryStart (s : State) (valid : Nat) (fails : List (Nat × Nat × Nat)) : Res := .next (memoryStart s valid fails)
/-- POWER_UP_WAVE (R526, R531) on a die: clusters that missed their set point or lock, and again after a reset. -/
def execPowerUpWave (s : State) (d bad worse : Nat) : Res := onUnit d 8 (powerUpWave s d bad worse)
/-- PROVING_BATCH (R526, R532): cores that failed. -/
def execProvingBatch (s : State) (fails : List Nat) : Res := .next (provingBatch s fails)
/-- TK_CORE_TEST_ROUND (R541, R542): cores that failed twice, margin-walk requirements. -/
def execTkCoreTestRound (s : State) (fails : List Nat) (reqs : List (Nat × Nat)) : Res := .next (tkCoreTestRound s fails reqs)
/-- PORT_START (R380, R526, R533): ports whose record is valid. -/
def execPortStart (s : State) (valid : Nat) : Res := .next (portStart s valid)
/-- TK_PORT_SOAK (R541): port and lanes that failed once, and twice. -/
def execTkPortSoak (s : State) (bad worse : List (Nat × Nat)) : Res := .next (tkPortSoak s bad worse)
/-- START_DONE (R524, R526, R534, R535, R628). -/
def execStartDone (s : State) : Res := .next (startDone s)
/-- START_STEP_LIMIT (R526). -/
def execStartStepLimit (s : State) : Res := .next (startStepLimit s)
/-- RECORD_SAVE (R539). -/
def execRecordSave (s : State) : Res := .next (recordSave s)

end Sys2Proof.Machine
end

