-- ==== Sys2Proof/Machine/TwinCmds.lean ====
section
/-! DEFINITION. The commands of twin pairing (chapter 13). Fields of twin packets are operands; the packet they came in leaves the
port's received ones. -/
namespace Sys2Proof.Machine
open Sys2Proof

/-- The oldest twin packet of a TTYPE that a causeway port holds is consumed (R408). -/
def twinTake (s : State) (w ttype : Nat) : State :=
  match (port s (36 + w)).rx.find? (fun k => k.type == 13 && k.code == ttype) with
  | some k => rxDrop s (36 + w) k
  | none => s
/-- A step that takes a twin packet from a causeway port. -/
def onTwin (s : State) (w ttype : Nat) (f : State → State) : Res := onUnit w 4 (f (twinTake s w ttype))
/-- A TWIN_BIND command of one operation that a ring starts (R409, R586). -/
def bindCmd (s : State) (r op : Nat) (f : State → HCmd → State × Nat) : State :=
  withCmd s r 7 (subIs op) (fun s k => pstMoves s (twinCmd s k (fun s => f s k)))
/-- Every core that runs a milestone's step has executed its MILE (R416). -/
def milesDone (s : State) (m : Nat) : Bool := s.hub.ctxs.all (fun e => e.2.posted != some m || allMiled s e.1 m)
/-- A module that has begun to carry its partner places the carrying plan: images, registers, seeds, home copies, ENs (R88, R428, R430); its own
cores likewise where the plan moves them, and again at hand-back (R434). -/
def carryPlaced (old s : State) : State :=
  let s := pstMoves old s
  if pst s = pst old ∨ !(pst s == 5 || pst s == 3) then s
  else (s.hub.ctxs.map (·.1)).foldl (fun s id => match (ctx s id).itin with
    | some i => if (ctx old id).itin.map (·.place) ≠ some i.place then (i.place.foldl (fun r p => placeCore r id p) (s, cOK)).1 else s
    | none => s) s
def markCmd (s : State) (m : Nat) : State := if milesDone s m then journalMark s m else s
/-- A resync read goes to the slice that holds its bytes. -/
def resyncCmd (s : State) (g a n : Nat) : State := if (place s (hubEpoch s) a).1 = g then resyncRead s g a n else s

/-- CAUSEWAY_MEMORY_REQUEST (R406). -/
def execCausewayMemoryRequest (s : State) (w : Nat) (pkt : Pkt) : Res := onUnit w 4 (cwRequest s w pkt)
/-- HEARTBEAT_SEND (R424) by a port die. -/
def execHeartbeatSend (s : State) (pd : Nat) : Res := onUnit pd 2 (heartbeatSend s pd)
/-- HEARTBEAT_RECEIVE (R408, R418, R424): the partner's PSTATE, whether its firmware is alive, the milestone it holds. -/
def execHeartbeatReceive (s : State) (w pstate : Nat) (alive : Bool) (held : Word) : Res :=
  onTwin s w 0 (fun s => heartbeatIn s pstate held.toNat alive)
/-- HEARTBEAT_PERIOD_MISSED (R425): the ports on which no heartbeat came. -/
def execHeartbeatPeriodMissed (s : State) (quiet : Nat) : Res := .next (carryPlaced s (periodMissed s quiet))
/-- QUERY_TIMEOUT (R425). -/
def execQueryTimeout (s : State) : Res := .next (carryPlaced s (queryTimeout s))
/-- FENCE (R426). -/
def execFence (s : State) (w : Nat) : Res := onTwin s w 7 fenced
/-- CWHOLD_EXPIRY (R427). -/
def execCwholdExpiry (s : State) : Res := .next (cwHold s)
/-- TWIN_BIND_BIND (R409): the partner's side, the partner it names, its answer. -/
def execTwinBindBind (s : State) (r side named : Nat) (agree : PeerAns) : Res :=
  onUnit r 128 (bindCmd s r 1 (fun s k => twinBind s (entBytes k.entry 10 2) side named agree))
/-- TWIN_BIND_ATTACH (R409, R433). -/
def execTwinBindAttach (s : State) (r : Nat) (agree : Bool) : Res :=
  onUnit r 128 (bindCmd s r 2 (fun s k => twinAttach s (entBytes k.entry 9 1) agree))
/-- TWIN_BIND_DETACH (R409). -/
def execTwinBindDetach (s : State) (r : Nat) (agree : Bool) : Res := onUnit r 128 (bindCmd s r 3 (fun s _ => twinDetach s agree))
/-- TWIN_BIND_UNBIND (R409). -/
def execTwinBindUnbind (s : State) (r : Nat) (agree : Bool) : Res := onUnit r 128 (bindCmd s r 4 (fun s _ => twinUnbind s agree))
/-- TWIN_CTRL (R408, R409): operation and arguments. -/
def execTwinCtrl (s : State) (w op : Nat) (arg : Word) (word : DWord) : Res := onTwin s w 6 (fun s => pstMoves s (twinCtrl s op arg.toNat word.toNat))
/-- JOURNAL_MARK (R416) of a milestone. -/
def execJournalMark (s : State) (mile : Word) : Res := .next (markCmd s mile.toNat)
/-- JREC_RECEIVE (R408, R417). -/
def execJrecReceive (s : State) (w g : Nat) (sseq : Word) (copy poison : Bool) (addr : Nat) (data : List DWord) : Res :=
  onTwin s w 1 (fun s => journalIn s w (g % 512) { sseq := sseq.toNat, addr := addr % 2 ^ 40, data := data.take 64, poison := poison, copy := copy })
/-- JMARK_RECEIVE (R408, R417, R418). -/
def execJmarkReceive (s : State) (w g : Nat) (sseq mile : Word) : Res :=
  onTwin s w 2 (fun s => journalIn s w (g % 512) { sseq := sseq.toNat, mark := some mile.toNat })
/-- JACK_SEND (R417). -/
def execJackSend (s : State) : Res := .next (jackSend s)
/-- JACK_RECEIVE (R417): streams with their highest SSEQ held without a gap. -/
def execJackReceive (s : State) (w : Nat) (entries : List (Nat × Nat)) : Res := onTwin s w 3 (fun s => jackIn s entries)
/-- JOURNAL_RESEND (R417) of a stream. -/
def execJournalResend (s : State) (g : Nat) : Res := onUnit g 512 (journalResend s g)
/-- SHADOW_APPLY (R419) of a stream. -/
def execShadowApply (s : State) (g : Nat) : Res := onUnit g 512 (shadowApply s g)
/-- HOT_DIGEST (R422). -/
def execHotDigest (s : State) (w : Nat) (mile : Word) (d : DWord) : Res := onTwin s w 4 (fun s => hotDigest s mile.toNat d)
/-- PCDIG_RECEIVE (R422). -/
def execPcdigReceive (s : State) (w die part : Nat) (mile : Word) (ds : List DWord) : Res :=
  onTwin s w 5 (fun s => pcdigIn s (die % 8) (part % 2) mile.toNat ds)
/-- SIGNPOST_UPDATE (R429). -/
def execSignpostUpdate (s : State) (pkt : Pkt) : Res := .next (signpostUpdate s pkt)
/-- REJOIN_REQUEST (R432). -/
def execRejoinRequest (s : State) : Res := .next (rejoinRequest s)
/-- RESYNC (R433). -/
def execResync (s : State) : Res := .next (resyncStart s)
/-- RESYNC_READ (R433) of `n` bytes at an address held in a slice. -/
def execResyncRead (s : State) (g addr n : Nat) : Res := onUnit g 512 (resyncCmd s g (addr % 2 ^ 40) n)
/-- HAND_BACK (R434) at a milestone. -/
def execHandBack (s : State) (mile : Word) : Res := .next (carryPlaced s (handBack s mile.toNat))
/-- JOURNAL_MAP_WRITE (R415, R436): a write of CAUSE_JMAP_DATA on any causeway page. -/
def execJournalMapWrite (s : State) (w : Nat) (req : Req) (val : Word) : Res := onUnit w 4 (regCmd s req (cwPage w) 0x130 val)
/-- HBCNT_WRITE (R424). -/
def execHbcntWrite (s : State) (w : Nat) (req : Req) (val : Word) : Res := onUnit w 4 (regCmd s req (cwPage w) 0x10C val)

end Sys2Proof.Machine
end

