-- ==== Sys2Proof/Machine/Units.lean ====
section
/-! DEFINITION. The commands of the compute units and memory units (chapter 6). -/
namespace Sys2Proof.Machine
open Sys2Proof

/-- CU_FIRING (R161). -/
def execCuFiring (s : State) (core cu : Nat) : Res := onFabric s core (cuFire s core (cu % 6))
/-- CU_EMISSION (R165, R166): `chk` is what the checks found, at `stage`. -/
def execCuEmission (s : State) (core cu stage : Nat) (chk : Check) : Res := onFabric s core (cuCheck s core (cu % 6) stage chk)
/-- UPDATE_ENGINE_FIRING (R167–R169). -/
def execUpdateEngineFiring (s : State) (core cu : Nat) : Res := onFabric s core (updFire s core (cu % 6))
/-- MU_WALK_START (R171, R174). -/
def execMuWalkStart (s : State) (core mu : Nat) : Res := onFabric s core (muStart s core (mu % 4))
/-- MU_ACCESS (R172, R173, R176): `ecc` is what the code finds in the `bad`-th word of the access. -/
def execMuAccess (s : State) (core mu : Nat) (ecc : Ecc) (bad : Nat) : Res := onFabric s core (muAccess s core (mu % 4) ecc bad)
/-- MU_READ_EMIT (R177). -/
def execMuReadEmit (s : State) (core mu : Nat) : Res := onFabric s core (muEmit s core (mu % 4))

end Sys2Proof.Machine
end

