-- ==== Sys2Proof/Machine/Dispatch.lean ====
section
/-! DEFINITION. What each command does: one arm per constructor. -/
namespace Sys2Proof.Machine

/-- The effect of a command on everything but the queue. -/
def exec (i : Instr) (s : State) : Host.Outcome State Fault Refusal :=
  match i with
  | .registerWrite req page off val be => Sys2Proof.Machine.execRegisterWrite s req page off val be
  | .pairLowRead req page off => Sys2Proof.Machine.execPairLowRead s req page off
  | .intRawSet req page val => Sys2Proof.Machine.execIntRawSet s req page val
  | .intStatClear req page val => Sys2Proof.Machine.execIntStatClear s req page val
  | .intEnableSet req page val => Sys2Proof.Machine.execIntEnableSet s req page val
  | .intEnableClear req page val => Sys2Proof.Machine.execIntEnableClear s req page val
  | .errClr req page val => Sys2Proof.Machine.execErrClr s req page val
  | .pgLockSet req page val => Sys2Proof.Machine.execPgLockSet s req page val
  | .arrayPassStart core => Sys2Proof.Machine.execArrayPassStart s core
  | .arraySequenceEntry core => Sys2Proof.Machine.execArraySequenceEntry s core
  | .arrayResult core flt => Sys2Proof.Machine.execArrayResult s core flt
  | .wTokenLoad core => Sys2Proof.Machine.execWTokenLoad s core
  | .tileImageFull core => Sys2Proof.Machine.execTileImageFull s core
  | .arrInject core req val => Sys2Proof.Machine.execArrInject s core req val
  | .arrCfgWrite core req buf val => Sys2Proof.Machine.execArrCfgWrite s core req buf val
  | .tokenLanding core link => Sys2Proof.Machine.execTokenLanding s core link
  | .creditReturn core link => Sys2Proof.Machine.execCreditReturn s core link
  | .spillQueueFiring core mu ecc => Sys2Proof.Machine.execSpillQueueFiring s core mu ecc
  | .flowImgGo core req val => Sys2Proof.Machine.execFlowImgGo s core req val
  | .imageLoadComplete core => Sys2Proof.Machine.execImageLoadComplete s core
  | .flowWinDataWrite core req val => Sys2Proof.Machine.execFlowWinDataWrite s core req val
  | .flowCfgCheck core req val => Sys2Proof.Machine.execFlowCfgCheck s core req val
  | .validationComplete core => Sys2Proof.Machine.execValidationComplete s core
  | .cfgswQuiesce core => Sys2Proof.Machine.execCfgswQuiesce s core
  | .quiesceSwitch core => Sys2Proof.Machine.execQuiesceSwitch s core
  | .quiesceTimeout core => Sys2Proof.Machine.execQuiesceTimeout s core
  | .cfgswPurge core => Sys2Proof.Machine.execCfgswPurge s core
  | .flowLinkSelWrite core req val => Sys2Proof.Machine.execFlowLinkSelWrite s core req val
  | .flowLinkPeakRead core req => Sys2Proof.Machine.execFlowLinkPeakRead s core req
  | .probeLaunch core edge since => Sys2Proof.Machine.execProbeLaunch s core edge since
  | .probeReceive core probe edges => Sys2Proof.Machine.execProbeReceive s core probe edges
  | .flowGridStatClear core req val => Sys2Proof.Machine.execFlowGridStatClear s core req val
  | .cuFiring core cu => Sys2Proof.Machine.execCuFiring s core cu
  | .cuEmission core cu stage chk => Sys2Proof.Machine.execCuEmission s core cu stage chk
  | .updateEngineFiring core cu => Sys2Proof.Machine.execUpdateEngineFiring s core cu
  | .muWalkStart core mu => Sys2Proof.Machine.execMuWalkStart s core mu
  | .muAccess core mu ecc bad => Sys2Proof.Machine.execMuAccess s core mu ecc bad
  | .muReadEmit core mu => Sys2Proof.Machine.execMuReadEmit s core mu
  | .seqInstruction core ecc => Sys2Proof.Machine.execSeqInstruction s core ecc
  | .seqScratchpadAccess core ecc => Sys2Proof.Machine.execSeqScratchpadAccess s core ecc
  | .qpop core => Sys2Proof.Machine.execQpop s core
  | .qpopReturn core => Sys2Proof.Machine.execQpopReturn s core
  | .qpopTimeout core => Sys2Proof.Machine.execQpopTimeout s core
  | .qsel core => Sys2Proof.Machine.execQsel s core
  | .qselSelect core => Sys2Proof.Machine.execQselSelect s core
  | .qselTimeout core => Sys2Proof.Machine.execQselTimeout s core
  | .qsend core => Sys2Proof.Machine.execQsend s core
  | .chopen core => Sys2Proof.Machine.execChopen s core
  | .chclose core => Sys2Proof.Machine.execChclose s core
  | .dmago src => Sys2Proof.Machine.execDmago s src
  | .mile core => Sys2Proof.Machine.execMile s core
  | .mileComplete core => Sys2Proof.Machine.execMileComplete s core
  | .nap core => Sys2Proof.Machine.execNap s core
  | .napEntry core => Sys2Proof.Machine.execNapEntry s core
  | .napWake core => Sys2Proof.Machine.execNapWake s core
  | .napTimerExpiry core => Sys2Proof.Machine.execNapTimerExpiry s core
  | .windowQpop core => Sys2Proof.Machine.execWindowQpop s core
  | .windowSqoWrite core => Sys2Proof.Machine.execWindowSqoWrite s core
  | .windowScoWrite core => Sys2Proof.Machine.execWindowScoWrite s core
  | .windowSqiRead core => Sys2Proof.Machine.execWindowSqiRead s core
  | .windowSciRead core => Sys2Proof.Machine.execWindowSciRead s core
  | .windowMboxInRead core => Sys2Proof.Machine.execWindowMboxInRead s core
  | .windowMboxOutWrite core => Sys2Proof.Machine.execWindowMboxOutWrite s core
  | .seqRun core req val => Sys2Proof.Machine.execSeqRun s core req val
  | .seqHalt core req val => Sys2Proof.Machine.execSeqHalt s core req val
  | .seqStep core req val => Sys2Proof.Machine.execSeqStep s core req val
  | .coreMboxInWrite core req val => Sys2Proof.Machine.execCoreMboxInWrite s core req val
  | .coreMboxOutRead core req => Sys2Proof.Machine.execCoreMboxOutRead s core req
  | .crossbarGrant core reqs => Sys2Proof.Machine.execCrossbarGrant s core reqs
  | .rangeGrant core n => Sys2Proof.Machine.execRangeGrant s core n
  | .correctionWriteback core => Sys2Proof.Machine.execCorrectionWriteback s core
  | .regionWrite core req n val => Sys2Proof.Machine.execRegionWrite s core req n val
  | .recodeComplete core bad => Sys2Proof.Machine.execRecodeComplete s core bad
  | .scrubRowRead core finds => Sys2Proof.Machine.execScrubRowRead s core finds
  | .bankTargetWrite core req n val => Sys2Proof.Machine.execBankTargetWrite s core req n val
  | .bankOffReached core bank => Sys2Proof.Machine.execBankOffReached s core bank
  | .bankDrowsyReached core bank => Sys2Proof.Machine.execBankDrowsyReached s core bank
  | .bankWakeComplete core bank => Sys2Proof.Machine.execBankWakeComplete s core bank
  | .bankPowered core bank => Sys2Proof.Machine.execBankPowered s core bank
  | .dirtyDataRead core req => Sys2Proof.Machine.execDirtyDataRead s core req
  | .untrustedClear core req val => Sys2Proof.Machine.execUntrustedClear s core req val
  | .dmaDescriptorStart core => Sys2Proof.Machine.execDmaDescriptorStart s core
  | .dmaRequestTimeout core id addr => Sys2Proof.Machine.execDmaRequestTimeout s core id addr
  | .dmaDescriptorComplete core id => Sys2Proof.Machine.execDmaDescriptorComplete s core id
  | .dmaNotifyCommit core id => Sys2Proof.Machine.execDmaNotifyCommit s core id
  | .dmaNotifyTimeout core id => Sys2Proof.Machine.execDmaNotifyTimeout s core id
  | .slotConfigWrite core req slot word val => Sys2Proof.Machine.execSlotConfigWrite s core req slot word val
  | .slotOpen core req slot val => Sys2Proof.Machine.execSlotOpen s core req slot val
  | .slotClose core req slot val => Sys2Proof.Machine.execSlotClose s core req slot val
  | .openRequest core pkt => Sys2Proof.Machine.execOpenRequest s core pkt
  | .openResponse core pkt => Sys2Proof.Machine.execOpenResponse s core pkt
  | .chopenTimeout core entry => Sys2Proof.Machine.execChopenTimeout s core entry
  | .handleHoldoffExpiry core hnd => Sys2Proof.Machine.execHandleHoldoffExpiry s core hnd
  | .closeNotice core en hnd cvid => Sys2Proof.Machine.execCloseNotice s core en hnd cvid
  | .closeAck core en hnd => Sys2Proof.Machine.execCloseAck s core en hnd
  | .closingEntryTimeout core entry => Sys2Proof.Machine.execClosingEntryTimeout s core entry
  | .messageDeparture core => Sys2Proof.Machine.execMessageDeparture s core
  | .messagePacket core pkt => Sys2Proof.Machine.execMessagePacket s core pkt
  | .reassemblyTimeout core hnd seq att => Sys2Proof.Machine.execReassemblyTimeout s core hnd seq att
  | .replyOk core pkt => Sys2Proof.Machine.execReplyOk s core pkt
  | .nack core pkt => Sys2Proof.Machine.execNack s core pkt
  | .nackBackoffExpiry core id => Sys2Proof.Machine.execNackBackoffExpiry s core id
  | .attemptWindowExpiry core entry seq => Sys2Proof.Machine.execAttemptWindowExpiry s core entry seq
  | .qengFlush core req val => Sys2Proof.Machine.execQengFlush s core req val
  | .sendstopWrite core req val => Sys2Proof.Machine.execSendstopWrite s core req val
  | .qengChSelWrite core req val => Sys2Proof.Machine.execQengChSelWrite s core req val
  | .qengHdSelWrite core req val => Sys2Proof.Machine.execQengHdSelWrite s core req val
  | .qengQSelWrite core req val => Sys2Proof.Machine.execQengQSelWrite s core req val
  | .qxPortEmit core prt => Sys2Proof.Machine.execQxPortEmit s core prt
  | .qyPortSend core prt => Sys2Proof.Machine.execQyPortSend s core prt
  | .junctionPacket core pkt => Sys2Proof.Machine.execJunctionPacket s core pkt
  | .junctionAdd core slot buf part => Sys2Proof.Machine.execJunctionAdd s core slot buf part
  | .junctionForward core slot => Sys2Proof.Machine.execJunctionForward s core slot
  | .routerMerge core inp => Sys2Proof.Machine.execRouterMerge s core inp
  | .convoyPacket core pkt => Sys2Proof.Machine.execConvoyPacket s core pkt
  | .convoyAnswer core pkt => Sys2Proof.Machine.execConvoyAnswer s core pkt
  | .combiningSlotTimeout core cvid seq => Sys2Proof.Machine.execCombiningSlotTimeout s core cvid seq
  | .cvBindSender core req lo hi => Sys2Proof.Machine.execCvBindSender s core req lo hi
  | .cvBindHandle core req lo hi => Sys2Proof.Machine.execCvBindHandle s core req lo hi
  | .cvUnbindSender core req lo hi => Sys2Proof.Machine.execCvUnbindSender s core req lo hi
  | .cvUnbindHandle core req lo hi => Sys2Proof.Machine.execCvUnbindHandle s core req lo hi
  | .qengJSelWrite core req val => Sys2Proof.Machine.execQengJSelWrite s core req val
  | .routerForward core inp vc hdr body => Sys2Proof.Machine.execRouterForward s core inp vc hdr body
  | .packetLaunch core => Sys2Proof.Machine.execPacketLaunch s core
  | .dieSwitchRoute die n hdr body rx => Sys2Proof.Machine.execDieSwitchRoute s die n hdr body rx
  | .scratchpadRemoteRequest core pkt => Sys2Proof.Machine.execScratchpadRemoteRequest s core pkt
  | .signpostMiss core => Sys2Proof.Machine.execSignpostMiss s core
  | .signpostWalkReply die en ecc => Sys2Proof.Machine.execSignpostWalkReply s die en ecc
  | .signpostInvalidate die req val => Sys2Proof.Machine.execSignpostInvalidate s die req val
  | .invalidationComplete => Sys2Proof.Machine.execInvalidationComplete s
  | .epochFlip die req val => Sys2Proof.Machine.execEpochFlip s die req val
  | .flipComplete => Sys2Proof.Machine.execFlipComplete s
  | .bankRetire die req val => Sys2Proof.Machine.execBankRetire s die req val
  | .epsumRead die req bank => Sys2Proof.Machine.execEpsumRead s die req bank
  | .epochDrainTimeout => Sys2Proof.Machine.execEpochDrainTimeout s
  | .signpostCacheFlush core req val => Sys2Proof.Machine.execSignpostCacheFlush s core req val
  | .replicationEntryCommit core req lo hi => Sys2Proof.Machine.execReplicationEntryCommit s core req lo hi
  | .routPortSelWrite core req val => Sys2Proof.Machine.execRoutPortSelWrite s core req val
  | .footpathRegwr flit req page off val => Sys2Proof.Machine.execFootpathRegwr s flit req page off val
  | .footpathRegrd flit req page off => Sys2Proof.Machine.execFootpathRegrd s flit req page off
  | .footpathRegrsp flit req val => Sys2Proof.Machine.execFootpathRegrsp s flit req val
  | .footpathInt flit page => Sys2Proof.Machine.execFootpathInt s flit page
  | .stepMessage flit ctxid mile => Sys2Proof.Machine.execStepMessage s flit ctxid mile
  | .digestMessage flit mile digest => Sys2Proof.Machine.execDigestMessage s flit mile digest
  | .mboxMessage flit val => Sys2Proof.Machine.execMboxMessage s flit val
  | .invalMessage flit sel => Sys2Proof.Machine.execInvalMessage s flit sel
  | .flipMessage flit epoch => Sys2Proof.Machine.execFlipMessage s flit epoch
  | .footpathAck flit ofFlip => Sys2Proof.Machine.execFootpathAck s flit ofFlip
  | .epsumGather flit bank => Sys2Proof.Machine.execEpsumGather s flit bank
  | .footpathLinkFailover die dest => Sys2Proof.Machine.execFootpathLinkFailover s die dest
  | .sliceRequest g pkt => Sys2Proof.Machine.execSliceRequest s g pkt
  | .sliceReadComplete g idx ecc odecc => Sys2Proof.Machine.execSliceReadComplete s g idx ecc odecc
  | .sliceWriteAck g idx ecc => Sys2Proof.Machine.execSliceWriteAck s g idx ecc
  | .patrolScrub g blk ecc => Sys2Proof.Machine.execPatrolScrub s g blk ecc
  | .perBankRefresh g => Sys2Proof.Machine.execPerBankRefresh s g
  | .stackTempRead m temp => Sys2Proof.Machine.execStackTempRead s m temp
  | .memoryTraining m req val => Sys2Proof.Machine.execMemoryTraining s m req val
  | .trainingComplete m quick fail => Sys2Proof.Machine.execTrainingComplete s m quick fail
  | .recentringWindow m ch => Sys2Proof.Machine.execRecentringWindow s m ch
  | .recentringEnd m pass => Sys2Proof.Machine.execRecentringEnd s m pass
  | .placementWrite m req n lo hi => Sys2Proof.Machine.execPlacementWrite s m req n lo hi
  | .placementAcked m => Sys2Proof.Machine.execPlacementAcked s m
  | .grantWrite m req val => Sys2Proof.Machine.execGrantWrite s m req val
  | .grantAcked m => Sys2Proof.Machine.execGrantAcked s m
  | .sliceEvacuate m req val => Sys2Proof.Machine.execSliceEvacuate s m req val
  | .sliceEvacuated g => Sys2Proof.Machine.execSliceEvacuated s g
  | .sliceClose m req val => Sys2Proof.Machine.execSliceClose s m req val
  | .codewordReceive port lane cw => Sys2Proof.Machine.execCodewordReceive s port lane cw
  | .identBlock port dev peer kind => Sys2Proof.Machine.execIdentBlock s port dev peer kind
  | .spareReady port plane => Sys2Proof.Machine.execSpareReady s port plane
  | .swapReq port lane plane frame => Sys2Proof.Machine.execSwapReq s port lane plane frame
  | .halfReq port => Sys2Proof.Machine.execHalfReq s port
  | .halfAck port => Sys2Proof.Machine.execHalfAck s port
  | .eqAdj port plane w => Sys2Proof.Machine.execEqAdj s port plane w
  | .routedControlPacket port pkt => Sys2Proof.Machine.execRoutedControlPacket s port pkt
  | .portEnable port req val => Sys2Proof.Machine.execPortEnable s port req val
  | .portDisable port req val => Sys2Proof.Machine.execPortDisable s port req val
  | .portSignalDetect port lanes => Sys2Proof.Machine.execPortSignalDetect s port lanes
  | .portTrainingDone port rxm txm => Sys2Proof.Machine.execPortTrainingDone s port rxm txm
  | .portCheckDone port pass => Sys2Proof.Machine.execPortCheckDone s port pass
  | .portDownExpiry port => Sys2Proof.Machine.execPortDownExpiry s port
  | .portRetrain port req val => Sys2Proof.Machine.execPortRetrain s port req val
  | .laneFailure port plane los => Sys2Proof.Machine.execLaneFailure s port plane los
  | .spareRetrainDone port => Sys2Proof.Machine.execSpareRetrainDone s port
  | .rotationStep port => Sys2Proof.Machine.execRotationStep s port
  | .laneSwap port tx => Sys2Proof.Machine.execLaneSwap s port tx
  | .halfWidthRetrain port => Sys2Proof.Machine.execHalfWidthRetrain s port
  | .portDown port => Sys2Proof.Machine.execPortDown s port
  | .deviceRoute pd inp pkt => Sys2Proof.Machine.execDeviceRoute s pd inp pkt
  | .xepochFlip pd req val => Sys2Proof.Machine.execXepochFlip s pd req val
  | .xepochRetire pd req val bank => Sys2Proof.Machine.execXepochRetire s pd req val bank
  | .routeEntryCommit pd req val => Sys2Proof.Machine.execRouteEntryCommit s pd req val
  | .causewayMemoryRequest w pkt => Sys2Proof.Machine.execCausewayMemoryRequest s w pkt
  | .heartbeatSend pd => Sys2Proof.Machine.execHeartbeatSend s pd
  | .heartbeatReceive w pstate alive held => Sys2Proof.Machine.execHeartbeatReceive s w pstate alive held
  | .heartbeatPeriodMissed quiet => Sys2Proof.Machine.execHeartbeatPeriodMissed s quiet
  | .queryTimeout => Sys2Proof.Machine.execQueryTimeout s
  | .fence w => Sys2Proof.Machine.execFence s w
  | .cwholdExpiry => Sys2Proof.Machine.execCwholdExpiry s
  | .twinBindBind r side named agree => Sys2Proof.Machine.execTwinBindBind s r side named agree
  | .twinBindAttach r agree => Sys2Proof.Machine.execTwinBindAttach s r agree
  | .twinBindDetach r agree => Sys2Proof.Machine.execTwinBindDetach s r agree
  | .twinBindUnbind r agree => Sys2Proof.Machine.execTwinBindUnbind s r agree
  | .twinCtrl w op arg word => Sys2Proof.Machine.execTwinCtrl s w op arg word
  | .journalMark mile => Sys2Proof.Machine.execJournalMark s mile
  | .jrecReceive w g sseq copy poison addr data => Sys2Proof.Machine.execJrecReceive s w g sseq copy poison addr data
  | .jmarkReceive w g sseq mile => Sys2Proof.Machine.execJmarkReceive s w g sseq mile
  | .jackSend => Sys2Proof.Machine.execJackSend s
  | .jackReceive w entries => Sys2Proof.Machine.execJackReceive s w entries
  | .journalResend g => Sys2Proof.Machine.execJournalResend s g
  | .shadowApply g => Sys2Proof.Machine.execShadowApply s g
  | .hotDigest w mile d => Sys2Proof.Machine.execHotDigest s w mile d
  | .pcdigReceive w die part mile ds => Sys2Proof.Machine.execPcdigReceive s w die part mile ds
  | .signpostUpdate pkt => Sys2Proof.Machine.execSignpostUpdate s pkt
  | .rejoinRequest => Sys2Proof.Machine.execRejoinRequest s
  | .resync => Sys2Proof.Machine.execResync s
  | .resyncRead g addr n => Sys2Proof.Machine.execResyncRead s g addr n
  | .handBack mile => Sys2Proof.Machine.execHandBack s mile
  | .journalMapWrite w req val => Sys2Proof.Machine.execJournalMapWrite s w req val
  | .hbcntWrite w req val => Sys2Proof.Machine.execHbcntWrite s w req val
  | .healReport => Sys2Proof.Machine.execHealReport s
  | .ladderWindowExpiry core => Sys2Proof.Machine.execLadderWindowExpiry s core
  | .ladderDecay core => Sys2Proof.Machine.execLadderDecay s core
  | .healClear d req val => Sys2Proof.Machine.execHealClear s d req val
  | .healForce d req val => Sys2Proof.Machine.execHealForce s d req val
  | .healCselWrite d req val => Sys2Proof.Machine.execHealCselWrite s d req val
  | .healLogRead d req => Sys2Proof.Machine.execHealLogRead s d req
  | .pairModeWrite d req hi val => Sys2Proof.Machine.execPairModeWrite s d req hi val
  | .pairCompare core agree => Sys2Proof.Machine.execPairCompare s core agree
  | .healLogDrain d => Sys2Proof.Machine.execHealLogDrain s d
  | .unitClose req val => Sys2Proof.Machine.execUnitClose s req val
  | .closureWithdraw req val => Sys2Proof.Machine.execClosureWithdraw s req val
  | .closureMapSave saved => Sys2Proof.Machine.execClosureMapSave s saved
  | .moveStart req val => Sys2Proof.Machine.execMoveStart s req val
  | .rebuildStart req val => Sys2Proof.Machine.execRebuildStart s req val
  | .moveAbort req val => Sys2Proof.Machine.execMoveAbort s req val
  | .movePrepared k => Sys2Proof.Machine.execMovePrepared s k
  | .moveCopyDone k => Sys2Proof.Machine.execMoveCopyDone s k
  | .trackingPass k => Sys2Proof.Machine.execTrackingPass s k
  | .cutoverFreeze mile => Sys2Proof.Machine.execCutoverFreeze s mile
  | .freezeTableAcked => Sys2Proof.Machine.execFreezeTableAcked s
  | .freezeCutover => Sys2Proof.Machine.execFreezeCutover s
  | .freezeRelease => Sys2Proof.Machine.execFreezeRelease s
  | .roadworksVisitStart core => Sys2Proof.Machine.execRoadworksVisitStart s core
  | .roadworksTestDone core pass banks => Sys2Proof.Machine.execRoadworksTestDone s core pass banks
  | .marginWalkStep core clean => Sys2Proof.Machine.execMarginWalkStep s core clean
  | .roadworksVisitEnd core => Sys2Proof.Machine.execRoadworksVisitEnd s core
  | .selfTestSlotGrant core => Sys2Proof.Machine.execSelfTestSlotGrant s core
  | .calibrationGrant kind unit => Sys2Proof.Machine.execCalibrationGrant s kind unit
  | .healMvSelWrite req val => Sys2Proof.Machine.execHealMvSelWrite s req val
  | .healRwlogRead req => Sys2Proof.Machine.execHealRwlogRead s req
  | .healHlogRead req => Sys2Proof.Machine.execHealHlogRead s req
  | .coreReset d req val => Sys2Proof.Machine.execCoreReset s d req val
  | .clusterReset d req val => Sys2Proof.Machine.execClusterReset s d req val
  | .computeDieReset d cause => Sys2Proof.Machine.execComputeDieReset s d cause
  | .portDieReset pd cause => Sys2Proof.Machine.execPortDieReset s pd cause
  | .moduleReset => Sys2Proof.Machine.execModuleReset s
  | .dieWatchdogExpiry die n => Sys2Proof.Machine.execDieWatchdogExpiry s die n
  | .hubWatchdogExpiry => Sys2Proof.Machine.execHubWatchdogExpiry s
  | .dieWdogKick die req val => Sys2Proof.Machine.execDieWdogKick s die req val
  | .aonHwdogKick req val => Sys2Proof.Machine.execAonHwdogKick s req val
  | .footpathHubLoss die => Sys2Proof.Machine.execFootpathHubLoss s die
  | .hostLinkReset kind => Sys2Proof.Machine.execHostLinkReset s kind
  | .functionLevelReset fn => Sys2Proof.Machine.execFunctionLevelReset s fn
  | .ctxopHalt d req val => Sys2Proof.Machine.execCtxopHalt s d req val
  | .ctxopClose d req val => Sys2Proof.Machine.execCtxopClose s d req val
  | .ctxopRegen d req val => Sys2Proof.Machine.execCtxopRegen s d req val
  | .ctxopClear d req val => Sys2Proof.Machine.execCtxopClear s d req val
  | .ctxopComplete d => Sys2Proof.Machine.execCtxopComplete s d
  | .ctxTeardown r => Sys2Proof.Machine.execCtxTeardown s r
  | .drainExpiry id => Sys2Proof.Machine.execDrainExpiry s id
  | .incidentLost job subj mile => Sys2Proof.Machine.execIncidentLost s job subj mile
  | .incidentQuery dev => Sys2Proof.Machine.execIncidentQuery s dev
  | .incidentState dev => Sys2Proof.Machine.execIncidentState s dev
  | .incidentAbort job step code => Sys2Proof.Machine.execIncidentAbort s job step code
  | .incidentAborted dev job mile => Sys2Proof.Machine.execIncidentAborted s dev job mile
  | .incidentResume job mile => Sys2Proof.Machine.execIncidentResume s job mile
  | .contextArmed id => Sys2Proof.Machine.execContextArmed s id
  | .incidentArmed dev job mile => Sys2Proof.Machine.execIncidentArmed s dev job mile
  | .incidentGo dev job mile => Sys2Proof.Machine.execIncidentGo s dev job mile
  | .incidentPosition dev job mile moved => Sys2Proof.Machine.execIncidentPosition s dev job mile moved
  | .incidentAck dev => Sys2Proof.Machine.execIncidentAck s dev
  | .noticeResend idx => Sys2Proof.Machine.execNoticeResend s idx
  | .barrierTimeout id => Sys2Proof.Machine.execBarrierTimeout s id
  | .gridlockRecovery core => Sys2Proof.Machine.execGridlockRecovery s core
  | .aonRstComputeDie req val => Sys2Proof.Machine.execAonRstComputeDie s req val
  | .aonRstPortDie req val => Sys2Proof.Machine.execAonRstPortDie s req val
  | .aonRstModule req val => Sys2Proof.Machine.execAonRstModule s req val
  | .aonRstClr req val => Sys2Proof.Machine.execAonRstClr s req val
  | .alwaysOnStart => Sys2Proof.Machine.execAlwaysOnStart s
  | .hubBoot => Sys2Proof.Machine.execHubBoot s
  | .serviceImageLoad copyOk bad worse => Sys2Proof.Machine.execServiceImageLoad s copyOk bad worse
  | .memoryStart valid fails => Sys2Proof.Machine.execMemoryStart s valid fails
  | .powerUpWave d bad worse => Sys2Proof.Machine.execPowerUpWave s d bad worse
  | .provingBatch fails => Sys2Proof.Machine.execProvingBatch s fails
  | .tkCoreTestRound fails reqs => Sys2Proof.Machine.execTkCoreTestRound s fails reqs
  | .portStart valid => Sys2Proof.Machine.execPortStart s valid
  | .tkPortSoak bad worse => Sys2Proof.Machine.execTkPortSoak s bad worse
  | .startDone => Sys2Proof.Machine.execStartDone s
  | .startStepLimit => Sys2Proof.Machine.execStartStepLimit s
  | .recordSave => Sys2Proof.Machine.execRecordSave s
  | .phaseFailure die ph => Sys2Proof.Machine.execPhaseFailure s die ph
  | .regulatorFault k => Sys2Proof.Machine.execRegulatorFault s k
  | .powerSample mv ma dies => Sys2Proof.Machine.execPowerSample s mv ma dies
  | .limiterInterval => Sys2Proof.Machine.execLimiterInterval s
  | .fastThrottle d => Sys2Proof.Machine.execFastThrottle s d
  | .fastThrottleRelease d ma => Sys2Proof.Machine.execFastThrottleRelease s d ma
  | .coreTargetWrite k req val => Sys2Proof.Machine.execCoreTargetWrite s k req val
  | .restEntry core => Sys2Proof.Machine.execRestEntry s core
  | .restWake core => Sys2Proof.Machine.execRestWake s core
  | .holdWrite k req val => Sys2Proof.Machine.execHoldWrite s k req val
  | .dieIdleEntry d => Sys2Proof.Machine.execDieIdleEntry s d
  | .dieIdleExit d => Sys2Proof.Machine.execDieIdleExit s d
  | .standbyEntry req val => Sys2Proof.Machine.execStandbyEntry s req val
  | .crystalJudged wins => Sys2Proof.Machine.execCrystalJudged s wins
  | .crystalFail => Sys2Proof.Machine.execCrystalFail s
  | .pllStart k => Sys2Proof.Machine.execPllStart s k
  | .pllLock k => Sys2Proof.Machine.execPllLock s k
  | .pllLoss n relocked => Sys2Proof.Machine.execPllLoss s n relocked
  | .serdesRefLoss pd => Sys2Proof.Machine.execSerdesRefLoss s pd
  | .serdesRefReturn pd => Sys2Proof.Machine.execSerdesRefReturn s pd
  | .hostRefclkLoss => Sys2Proof.Machine.execHostRefclkLoss s
  | .tempSample die temps stackTemps => Sys2Proof.Machine.execTempSample s die temps stackTemps
  | .thermalTrip => Sys2Proof.Machine.execThermalTrip s
  | .clusRelock k req val => Sys2Proof.Machine.execClusRelock s k req val
  | .clkRelock die req val => Sys2Proof.Machine.execClkRelock s die req val
  | .clkClrlost die req val => Sys2Proof.Machine.execClkClrlost s die req val
  | .setpointWrite k req val => Sys2Proof.Machine.execSetpointWrite s k req val
  | .freqTargetWrite k req val => Sys2Proof.Machine.execFreqTargetWrite s k req val
  | .pwrLimitWrite req val => Sys2Proof.Machine.execPwrLimitWrite s req val
  | .doorbell req r val => Sys2Proof.Machine.execDoorbell s req r val
  | .commandFetch r entry itin table => Sys2Proof.Machine.execCommandFetch s r entry itin table
  | .ringEnable req vf val => Sys2Proof.Machine.execRingEnable s req vf val
  | .ringDisable req vf val => Sys2Proof.Machine.execRingDisable s req vf val
  | .ctxCreate r => Sys2Proof.Machine.execCtxCreate s r
  | .itinLoad r fail => Sys2Proof.Machine.execItinLoad s r fail
  | .stepRun r => Sys2Proof.Machine.execStepRun s r
  | .stepPost id => Sys2Proof.Machine.execStepPost s id
  | .stepCompletion id => Sys2Proof.Machine.execStepCompletion s id
  | .milestoneWait r => Sys2Proof.Machine.execMilestoneWait s r
  | .milestoneWaitTimeout id r cid => Sys2Proof.Machine.execMilestoneWaitTimeout s id r cid
  | .healQuery r => Sys2Proof.Machine.execHealQuery s r
  | .window r => Sys2Proof.Machine.execWindow s r
  | .fabricCfgSetDevice r => Sys2Proof.Machine.execFabricCfgSetDevice s r
  | .fabricCfgWriteTable r => Sys2Proof.Machine.execFabricCfgWriteTable s r
  | .fabricCfgFlip r => Sys2Proof.Machine.execFabricCfgFlip s r
  | .fabricCfgReadSum r => Sys2Proof.Machine.execFabricCfgReadSum s r
  | .fabricCfgRetire r => Sys2Proof.Machine.execFabricCfgRetire s r
  | .fabricCfgSetExpect r => Sys2Proof.Machine.execFabricCfgSetExpect s r
  | .fabricCfgEnable r => Sys2Proof.Machine.execFabricCfgEnable s r
  | .fabricCfgSave r saved => Sys2Proof.Machine.execFabricCfgSave s r saved
  | .mailboxInWrite req n val => Sys2Proof.Machine.execMailboxInWrite s req n val
  | .mboxReleaseQuery n => Sys2Proof.Machine.execMboxReleaseQuery s n
  | .mboxEcho n => Sys2Proof.Machine.execMboxEcho s n
  | .mailboxOutRead req n => Sys2Proof.Machine.execMailboxOutRead s req n
  | .hostEventRead req => Sys2Proof.Machine.execHostEventRead s req
  | .bar2BaseWrite req lo hi => Sys2Proof.Machine.execBar2BaseWrite s req lo hi
  | .barMemoryAccess bar4 off n write data => Sys2Proof.Machine.execBarMemoryAccess s bar4 off n write data
  | .vfWindowAccess vf bar off n write data => Sys2Proof.Machine.execVfWindowAccess s vf bar off n write data
  | .entdaa addr => Sys2Proof.Machine.execEntdaa s addr
  | .mctpControl cmd eid bad => Sys2Proof.Machine.execMctpControl s cmd eid bad
  | .casevoRegRead page off => Sys2Proof.Machine.execCasevoRegRead s page off
  | .casevoRegWrite page off val => Sys2Proof.Machine.execCasevoRegWrite s page off val
  | .casevoHealQuery first max => Sys2Proof.Machine.execCasevoHealQuery s first max
  | .casevoFabricCfg entry table saved => Sys2Proof.Machine.execCasevoFabricCfg s entry table saved
  | .casevoFuse code arg => Sys2Proof.Machine.execCasevoFuse s code arg
  | .pldmSensorRead n => Sys2Proof.Machine.execPldmSensorRead s n
  | .pldmEffecterSet watts => Sys2Proof.Machine.execPldmEffecterSet s watts
  | .firmwareUpdate phase hub svc => Sys2Proof.Machine.execFirmwareUpdate s phase hub svc
  | .spdmGetCertificate => Sys2Proof.Machine.execSpdmGetCertificate s
  | .spdmChallenge nonce => Sys2Proof.Machine.execSpdmChallenge s nonce
  | .spdmGetMeasurements => Sys2Proof.Machine.execSpdmGetMeasurements s
  | .debugTransport kind addr write val => Sys2Proof.Machine.execDebugTransport s kind addr write val
  | .authDbgLockWrite req val => Sys2Proof.Machine.execAuthDbgLockWrite s req val
  | .fuseArmWrite req val => Sys2Proof.Machine.execFuseArmWrite s req val
  | .fuseArmExpiry => Sys2Proof.Machine.execFuseArmExpiry s
  | .fuseDbgClose req val => Sys2Proof.Machine.execFuseDbgClose s req val
  | .fuseMgmtClose req val => Sys2Proof.Machine.execFuseMgmtClose s req val
  | .fuseSvnAdvance req val => Sys2Proof.Machine.execFuseSvnAdvance s req val
  | .fuseKeyRevoke req val => Sys2Proof.Machine.execFuseKeyRevoke s req val
  | .fuseProgramDone same => Sys2Proof.Machine.execFuseProgramDone s same
  | .gaugeRun d idx req val => Sys2Proof.Machine.execGaugeRun s d idx req val
  | .gaugeStop d idx req val => Sys2Proof.Machine.execGaugeStop s d idx req val
  | .gaugeCloseWrite d idx req val => Sys2Proof.Machine.execGaugeCloseWrite s d idx req val
  | .gaugeWindowExpiry d idx => Sys2Proof.Machine.execGaugeWindowExpiry s d idx
  | .gaugeSample d idx v full => Sys2Proof.Machine.execGaugeSample s d idx v full
  | .levelSamplePeriod d idx => Sys2Proof.Machine.execLevelSamplePeriod s d idx
  | .linkofsSample d idx v => Sys2Proof.Machine.execLinkofsSample s d idx v
  | .aux3v3Applied => Sys2Proof.Machine.execAux3v3Applied s
  | .twinSelSample high => Sys2Proof.Machine.execTwinSelSample s high
  | .aux3v3Lost => Sys2Proof.Machine.execAux3v3Lost s
  | .pwrEnRise held => Sys2Proof.Machine.execPwrEnRise s held
  | .pwrEnFall => Sys2Proof.Machine.execPwrEnFall s
  | .mainSupplyLost => Sys2Proof.Machine.execMainSupplyLost s
  | .mainSupplyRestored => Sys2Proof.Machine.execMainSupplyRestored s
  | .modRstNAssert us => Sys2Proof.Machine.execModRstNAssert s us
  | .flashExtNAssert => Sys2Proof.Machine.execFlashExtNAssert s
  | .flashExtNRelease => Sys2Proof.Machine.execFlashExtNRelease s
  | .chopenBackoffExpiry core entry => Sys2Proof.Machine.execChopenBackoffExpiry s core entry
  | .handleCloseNotice core hnd en => Sys2Proof.Machine.execHandleCloseNotice s core hnd en
  | .codewordTransmit port => Sys2Proof.Machine.execCodewordTransmit s port
  | .dieResetComplete die => Sys2Proof.Machine.execDieResetComplete s die
  | .hostLinkTrained width rate flitMode => Sys2Proof.Machine.execHostLinkTrained s width rate flitMode
  | .pcieConfigurationRequest kind fn val => Sys2Proof.Machine.execPcieConfigurationRequest s kind fn val
  | .pldmEventPoll => Sys2Proof.Machine.execPldmEventPoll s

end Sys2Proof.Machine
end

