-- ==== Sys2Proof/WellFormed.lean ====
section
/-! DEFINITION. Which commands exist on the module: every unit number a command carries names a unit (R7, R8, R32, R33, R127). -/
namespace Sys2Proof

/-- Whether every number of the command lies in the range its unit or field has. -/
def Instr.wellFormed : Instr → Bool
  | .registerWrite _ page off _ _ => decide (page < 32768) && decide (off < 4096)
  | .pairLowRead _ page off => decide (page < 32768) && decide (off.off < 4096)
  | .intRawSet _ page _ => decide (page < 32768)
  | .intStatClear _ page _ => decide (page < 32768)
  | .intEnableSet _ page _ => decide (page < 32768)
  | .intEnableClear _ page _ => decide (page < 32768)
  | .errClr _ page _ => decide (page < 32768)
  | .pgLockSet _ page _ => decide (page < 32768)
  | .arrayPassStart core => decide (core < 1152)
  | .arraySequenceEntry core => decide (core < 1152)
  | .arrayResult core _ => decide (core < 1152)
  | .wTokenLoad core => decide (core < 1152)
  | .tileImageFull core => decide (core < 1152)
  | .arrInject core _ _ => decide (core < 1152)
  | .arrCfgWrite core _ buf _ => decide (core < 1152) && decide (buf < 2)
  | .tokenLanding core link => decide (core < 1152) && decide (link < 128)
  | .creditReturn core link => decide (core < 1152) && decide (link < 128)
  | .spillQueueFiring core mu _ => decide (core < 1152) && decide (mu < 4)
  | .flowImgGo core _ _ => decide (core < 1152)
  | .imageLoadComplete core => decide (core < 1152)
  | .flowWinDataWrite core _ _ => decide (core < 1152)
  | .flowCfgCheck core _ _ => decide (core < 1152)
  | .validationComplete core => decide (core < 1152)
  | .cfgswQuiesce core => decide (core < 1152)
  | .quiesceSwitch core => decide (core < 1152)
  | .quiesceTimeout core => decide (core < 1152)
  | .cfgswPurge core => decide (core < 1152)
  | .flowLinkSelWrite core _ _ => decide (core < 1152)
  | .flowLinkPeakRead core _ => decide (core < 1152)
  | .probeLaunch core _ _ => decide (core < 1152)
  | .probeReceive core _ _ => decide (core < 1152)
  | .flowGridStatClear core _ _ => decide (core < 1152)
  | .cuFiring core cu => decide (core < 1152) && decide (cu < 6)
  | .cuEmission core cu stage _ => decide (core < 1152) && decide (cu < 6) && decide (stage < 8)
  | .updateEngineFiring core cu => decide (core < 1152) && decide (cu < 6)
  | .muWalkStart core mu => decide (core < 1152) && decide (mu < 4)
  | .muAccess core mu _ _ => decide (core < 1152) && decide (mu < 4)
  | .muReadEmit core mu => decide (core < 1152) && decide (mu < 4)
  | .seqInstruction core _ => decide (core < 1152)
  | .seqScratchpadAccess core _ => decide (core < 1152)
  | .qpop core => decide (core < 1152)
  | .qpopReturn core => decide (core < 1152)
  | .qpopTimeout core => decide (core < 1152)
  | .qsel core => decide (core < 1152)
  | .qselSelect core => decide (core < 1152)
  | .qselTimeout core => decide (core < 1152)
  | .qsend core => decide (core < 1152)
  | .chopen core => decide (core < 1152)
  | .chclose core => decide (core < 1152)
  | .dmago src => decide (src.core < 1152)
  | .mile core => decide (core < 1152)
  | .mileComplete core => decide (core < 1152)
  | .nap core => decide (core < 1152)
  | .napEntry core => decide (core < 1152)
  | .napWake core => decide (core < 1152)
  | .napTimerExpiry core => decide (core < 1152)
  | .windowQpop core => decide (core < 1152)
  | .windowSqoWrite core => decide (core < 1152)
  | .windowScoWrite core => decide (core < 1152)
  | .windowSqiRead core => decide (core < 1152)
  | .windowSciRead core => decide (core < 1152)
  | .windowMboxInRead core => decide (core < 1152)
  | .windowMboxOutWrite core => decide (core < 1152)
  | .seqRun core _ _ => decide (core < 1152)
  | .seqHalt core _ _ => decide (core < 1152)
  | .seqStep core _ _ => decide (core < 1152)
  | .coreMboxInWrite core _ _ => decide (core < 1152)
  | .coreMboxOutRead core _ => decide (core < 1152)
  | .crossbarGrant core _ => decide (core < 1152)
  | .rangeGrant core _ => decide (core < 1152)
  | .correctionWriteback core => decide (core < 1152)
  | .regionWrite core _ n _ => decide (core < 1152) && decide (n < 128)
  | .recodeComplete core _ => decide (core < 1152)
  | .scrubRowRead core _ => decide (core < 1152)
  | .bankTargetWrite core _ n _ => decide (core < 1152) && decide (n < 4)
  | .bankOffReached core bank => decide (core < 1152) && decide (bank < 64)
  | .bankDrowsyReached core bank => decide (core < 1152) && decide (bank < 64)
  | .bankWakeComplete core bank => decide (core < 1152) && decide (bank < 64)
  | .bankPowered core bank => decide (core < 1152) && decide (bank < 64)
  | .dirtyDataRead core _ => decide (core < 1152)
  | .untrustedClear core _ _ => decide (core < 1152)
  | .dmaDescriptorStart core => decide (core < 1152)
  | .dmaRequestTimeout core _ _ => decide (core < 1152)
  | .dmaDescriptorComplete core _ => decide (core < 1152)
  | .dmaNotifyCommit core _ => decide (core < 1152)
  | .dmaNotifyTimeout core _ => decide (core < 1152)
  | .slotConfigWrite core _ slot word _ => decide (core < 1152) && decide (slot < 64) && decide (word < 4)
  | .slotOpen core _ slot _ => decide (core < 1152) && decide (slot < 64)
  | .slotClose core _ slot _ => decide (core < 1152) && decide (slot < 64)
  | .openRequest core _ => decide (core < 1152)
  | .openResponse core _ => decide (core < 1152)
  | .chopenTimeout core entry => decide (core < 1152) && decide (entry < 1024)
  | .handleHoldoffExpiry core hnd => decide (core < 1152) && decide (hnd < 1024)
  | .closeNotice core en hnd _ => decide (core < 1152) && decide (en < 4194304) && decide (hnd < 1024)
  | .closeAck core en hnd => decide (core < 1152) && decide (en < 4194304) && decide (hnd < 1024)
  | .closingEntryTimeout core entry => decide (core < 1152) && decide (entry < 1024)
  | .messageDeparture core => decide (core < 1152)
  | .messagePacket core _ => decide (core < 1152)
  | .reassemblyTimeout core hnd _ _ => decide (core < 1152) && decide (hnd < 1024)
  | .replyOk core _ => decide (core < 1152)
  | .nack core _ => decide (core < 1152)
  | .nackBackoffExpiry core _ => decide (core < 1152)
  | .attemptWindowExpiry core entry _ => decide (core < 1152) && decide (entry < 1024)
  | .qengFlush core _ _ => decide (core < 1152)
  | .sendstopWrite core _ _ => decide (core < 1152)
  | .qengChSelWrite core _ _ => decide (core < 1152)
  | .qengHdSelWrite core _ _ => decide (core < 1152)
  | .qengQSelWrite core _ _ => decide (core < 1152)
  | .qxPortEmit core prt => decide (core < 1152) && decide (prt < 6)
  | .qyPortSend core prt => decide (core < 1152) && decide (prt < 6)
  | .junctionPacket core _ => decide (core < 1152)
  | .junctionAdd core slot buf part => decide (core < 1152) && decide (slot < 64) && decide (buf < 2) && decide (part < 8)
  | .junctionForward core slot => decide (core < 1152) && decide (slot < 64)
  | .routerMerge core inp => decide (core < 1152) && decide (inp < 6)
  | .convoyPacket core _ => decide (core < 1152)
  | .convoyAnswer core _ => decide (core < 1152)
  | .combiningSlotTimeout core _ _ => decide (core < 1152)
  | .cvBindSender core _ _ _ => decide (core < 1152)
  | .cvBindHandle core _ _ _ => decide (core < 1152)
  | .cvUnbindSender core _ _ _ => decide (core < 1152)
  | .cvUnbindHandle core _ _ _ => decide (core < 1152)
  | .qengJSelWrite core _ _ => decide (core < 1152)
  | .routerForward core inp vc _ _ => decide (core < 1152) && decide (inp < 7) && decide (vc.n < 4)
  | .packetLaunch core => decide (core < 1152)
  | .dieSwitchRoute die _ _ _ _ => decide (die < 11)
  | .scratchpadRemoteRequest core _ => decide (core < 1152)
  | .signpostMiss core => decide (core < 1152)
  | .signpostWalkReply die en _ => decide (die < 9) && decide (en < 4194304)
  | .signpostInvalidate die _ _ => decide (die < 9)
  | .invalidationComplete => true
  | .epochFlip die _ _ => decide (die < 9)
  | .flipComplete => true
  | .bankRetire die _ _ => decide (die < 9)
  | .epsumRead die _ bank => decide (die < 9) && decide (bank < 2)
  | .epochDrainTimeout => true
  | .signpostCacheFlush core _ _ => decide (core < 1152)
  | .replicationEntryCommit core _ _ _ => decide (core < 1152)
  | .routPortSelWrite core _ _ => decide (core < 1152)
  | .footpathRegwr _ _ page off _ => decide (page < 32768) && decide (off < 4096)
  | .footpathRegrd _ _ page off => decide (page < 32768) && decide (off < 4096)
  | .footpathRegrsp _ _ _ => true
  | .footpathInt _ page => decide (page < 32768)
  | .stepMessage _ ctxid _ => decide (ctxid < 1024)
  | .digestMessage _ _ _ => true
  | .mboxMessage _ _ => true
  | .invalMessage _ _ => true
  | .flipMessage _ _ => true
  | .footpathAck _ _ => true
  | .epsumGather _ bank => decide (bank < 2)
  | .footpathLinkFailover die dest => decide (die < 11) && decide (dest < 11)
  | .sliceRequest g _ => decide (g < 512)
  | .sliceReadComplete g _ _ _ => decide (g < 512)
  | .sliceWriteAck g _ _ => decide (g < 512)
  | .patrolScrub g blk _ => decide (g < 512) && decide (blk < 33554432)
  | .perBankRefresh g => decide (g < 512)
  | .stackTempRead m temp => decide (m < 16) && decide (temp < 256)
  | .memoryTraining m _ _ => decide (m < 16)
  | .trainingComplete m _ _ => decide (m < 16)
  | .recentringWindow m ch => decide (m < 16) && decide (ch < 32)
  | .recentringEnd m _ => decide (m < 16)
  | .placementWrite m _ n _ _ => decide (m < 16) && decide (n < 34)
  | .placementAcked m => decide (m < 16)
  | .grantWrite m _ _ => decide (m < 16)
  | .grantAcked m => decide (m < 16)
  | .sliceEvacuate m _ _ => decide (m < 16)
  | .sliceEvacuated g => decide (g < 512)
  | .sliceClose m _ _ => decide (m < 16)
  | .codewordReceive port lane _ => decide (port < 40) && decide (lane < 9)
  | .identBlock port dev peer kind => decide (port < 40) && decide (dev < 1024) && decide (peer < 64) && decide (kind < 2)
  | .spareReady port plane => decide (port < 40) && decide (plane < 9)
  | .swapReq port lane plane _ => decide (port < 40) && decide (lane < 8) && decide (plane < 9)
  | .halfReq port => decide (port.port < 40) && decide (port.plane < 9)
  | .halfAck port => decide (port < 40)
  | .eqAdj port plane _ => decide (port < 40) && decide (plane < 9)
  | .routedControlPacket port _ => decide (port < 40)
  | .portEnable port _ _ => decide (port < 40)
  | .portDisable port _ _ => decide (port < 40)
  | .portSignalDetect port lanes => decide (port < 40) && decide (lanes < 10)
  | .portTrainingDone port rxm txm => decide (port < 40) && decide (rxm < 512) && decide (txm < 512)
  | .portCheckDone port _ => decide (port < 40)
  | .portDownExpiry port => decide (port < 40)
  | .portRetrain port _ _ => decide (port < 40)
  | .laneFailure port plane _ => decide (port < 40) && decide (plane < 9)
  | .spareRetrainDone port => decide (port < 40)
  | .rotationStep port => decide (port < 40)
  | .laneSwap port _ => decide (port < 40)
  | .halfWidthRetrain port => decide (port < 40)
  | .portDown port => decide (port < 40)
  | .deviceRoute pd inp _ => decide (pd < 2) && decide (inp < 64)
  | .xepochFlip pd _ _ => decide (pd < 2)
  | .xepochRetire pd _ _ bank => decide (pd < 2) && decide (bank < 2)
  | .routeEntryCommit pd _ _ => decide (pd < 2)
  | .causewayMemoryRequest w _ => decide (w < 4)
  | .heartbeatSend pd => decide (pd < 2)
  | .heartbeatReceive w pstate _ _ => decide (w < 4) && decide (pstate < 16)
  | .heartbeatPeriodMissed quiet => decide (quiet < 16)
  | .queryTimeout => true
  | .fence w => decide (w < 4)
  | .cwholdExpiry => true
  | .twinBindBind r side named _ => decide (r < 128) && decide (side < 2) && decide (named < 1024)
  | .twinBindAttach r _ => decide (r < 128)
  | .twinBindDetach r _ => decide (r < 128)
  | .twinBindUnbind r _ => decide (r < 128)
  | .twinCtrl w op _ _ => decide (w < 4) && decide (op < 256)
  | .journalMark _ => true
  | .jrecReceive w g _ _ _ addr _ => decide (w < 4) && decide (g < 512) && decide (addr < 1099511627776)
  | .jmarkReceive w g _ _ => decide (w < 4) && decide (g < 512)
  | .jackSend => true
  | .jackReceive w _ => decide (w < 4)
  | .journalResend g => decide (g < 512)
  | .shadowApply g => decide (g < 512)
  | .hotDigest w _ _ => decide (w < 4)
  | .pcdigReceive w die part _ _ => decide (w < 4) && decide (die < 8) && decide (part < 2)
  | .signpostUpdate _ => true
  | .rejoinRequest => true
  | .resync => true
  | .resyncRead g addr _ => decide (g < 512) && decide (addr < 1099511627776)
  | .handBack _ => true
  | .journalMapWrite w _ _ => decide (w < 4)
  | .hbcntWrite w _ _ => decide (w < 4)
  | .healReport => true
  | .ladderWindowExpiry core => decide (core < 1152)
  | .ladderDecay core => decide (core < 1152)
  | .healClear d _ _ => decide (d < 8)
  | .healForce d _ _ => decide (d < 8)
  | .healCselWrite d _ _ => decide (d < 8)
  | .healLogRead d _ => decide (d < 8)
  | .pairModeWrite d _ _ _ => decide (d < 8)
  | .pairCompare core _ => decide (core < 1152)
  | .healLogDrain d => decide (d < 9)
  | .unitClose _ _ => true
  | .closureWithdraw _ _ => true
  | .closureMapSave _ => true
  | .moveStart _ _ => true
  | .rebuildStart _ _ => true
  | .moveAbort _ _ => true
  | .movePrepared k => decide (k < 16)
  | .moveCopyDone k => decide (k < 16)
  | .trackingPass k => decide (k < 16)
  | .cutoverFreeze _ => true
  | .freezeTableAcked => true
  | .freezeCutover => true
  | .freezeRelease => true
  | .roadworksVisitStart core => decide (core < 1152)
  | .roadworksTestDone core _ _ => decide (core < 1152)
  | .marginWalkStep core _ => decide (core < 1152)
  | .roadworksVisitEnd core => decide (core < 1152)
  | .selfTestSlotGrant core => decide (core < 1152)
  | .calibrationGrant kind _ => decide (kind < 4)
  | .healMvSelWrite _ _ => true
  | .healRwlogRead _ => true
  | .healHlogRead _ => true
  | .coreReset d _ _ => decide (d < 8)
  | .clusterReset d _ _ => decide (d < 8)
  | .computeDieReset d cause => decide (d < 8) && decide (cause < 6)
  | .portDieReset pd cause => decide (pd < 2) && decide (cause < 6)
  | .moduleReset => true
  | .dieWatchdogExpiry die n => decide (die < 11) && decide (n < 2)
  | .hubWatchdogExpiry => true
  | .dieWdogKick die _ _ => decide (die < 11)
  | .aonHwdogKick _ _ => true
  | .footpathHubLoss die => decide (die < 11)
  | .hostLinkReset kind => decide (kind < 3)
  | .functionLevelReset fn => decide (fn < 65)
  | .ctxopHalt d _ _ => decide (d < 8)
  | .ctxopClose d _ _ => decide (d < 8)
  | .ctxopRegen d _ _ => decide (d < 8)
  | .ctxopClear d _ _ => decide (d < 8)
  | .ctxopComplete d => decide (d < 8)
  | .ctxTeardown r => decide (r < 128)
  | .drainExpiry id => decide (id < 1024)
  | .incidentLost _ subj _ => decide (subj < 1024)
  | .incidentQuery dev => decide (dev < 1024)
  | .incidentState dev => decide (dev < 1024)
  | .incidentAbort _ _ code => decide (code < 256)
  | .incidentAborted dev _ _ => decide (dev < 1024)
  | .incidentResume _ _ => true
  | .contextArmed id => decide (id < 1024)
  | .incidentArmed dev _ _ => decide (dev < 1024)
  | .incidentGo dev _ _ => decide (dev < 1024)
  | .incidentPosition dev _ _ _ => decide (dev < 1024)
  | .incidentAck dev => decide (dev < 1024)
  | .noticeResend _ => true
  | .barrierTimeout id => decide (id < 1024)
  | .gridlockRecovery core => decide (core < 1152)
  | .aonRstComputeDie _ _ => true
  | .aonRstPortDie _ _ => true
  | .aonRstModule _ _ => true
  | .aonRstClr _ _ => true
  | .alwaysOnStart => true
  | .hubBoot => true
  | .serviceImageLoad _ _ _ => true
  | .memoryStart _ _ => true
  | .powerUpWave d _ _ => decide (d < 8)
  | .provingBatch _ => true
  | .tkCoreTestRound _ _ => true
  | .portStart _ => true
  | .tkPortSoak _ _ => true
  | .startDone => true
  | .startStepLimit => true
  | .recordSave => true
  | .phaseFailure die _ => decide (die < 11)
  | .regulatorFault k => decide (k < 288)
  | .powerSample _ _ _ => true
  | .limiterInterval => true
  | .fastThrottle d => decide (d < 12)
  | .fastThrottleRelease d _ => decide (d < 12)
  | .coreTargetWrite k _ _ => decide (k < 288)
  | .restEntry core => decide (core < 1152)
  | .restWake core => decide (core < 1152)
  | .holdWrite k _ _ => decide (k < 288)
  | .dieIdleEntry d => decide (d < 8)
  | .dieIdleExit d => decide (d < 8)
  | .standbyEntry _ _ => true
  | .crystalJudged _ => true
  | .crystalFail => true
  | .pllStart k => decide (k < 288)
  | .pllLock k => decide (k < 288)
  | .pllLoss n _ => decide (n < 299)
  | .serdesRefLoss pd => decide (pd < 2)
  | .serdesRefReturn pd => decide (pd < 2)
  | .hostRefclkLoss => true
  | .tempSample die _ _ => decide (die < 11)
  | .thermalTrip => true
  | .clusRelock k _ _ => decide (k < 288)
  | .clkRelock die _ _ => decide (die < 11)
  | .clkClrlost die _ _ => decide (die < 11)
  | .setpointWrite k _ _ => decide (k < 288)
  | .freqTargetWrite k _ _ => decide (k < 288)
  | .pwrLimitWrite _ _ => true
  | .doorbell _ r _ => decide (r < 128)
  | .commandFetch r _ _ _ => decide (r < 128)
  | .ringEnable _ _ _ => true
  | .ringDisable _ _ _ => true
  | .ctxCreate r => decide (r < 128)
  | .itinLoad r fail => decide (r < 128) && decide (fail < 256)
  | .stepRun r => decide (r < 128)
  | .stepPost id => decide (id < 1024)
  | .stepCompletion id => decide (id < 1024)
  | .milestoneWait r => decide (r < 128)
  | .milestoneWaitTimeout id r cid => decide (id < 1024) && decide (r < 128) && decide (cid < 65536)
  | .healQuery r => decide (r < 128)
  | .window r => decide (r < 128)
  | .fabricCfgSetDevice r => decide (r < 128)
  | .fabricCfgWriteTable r => decide (r < 128)
  | .fabricCfgFlip r => decide (r < 128)
  | .fabricCfgReadSum r => decide (r < 128)
  | .fabricCfgRetire r => decide (r < 128)
  | .fabricCfgSetExpect r => decide (r < 128)
  | .fabricCfgEnable r => decide (r < 128)
  | .fabricCfgSave r _ => decide (r < 128)
  | .mailboxInWrite _ n _ => decide (n < 4)
  | .mboxReleaseQuery n => decide (n < 4)
  | .mboxEcho n => decide (n < 4)
  | .mailboxOutRead _ n => decide (n < 4)
  | .hostEventRead _ => true
  | .bar2BaseWrite _ _ _ => true
  | .barMemoryAccess _ _ _ _ _ => true
  | .vfWindowAccess vf bar _ _ _ _ => decide (vf < 64) && decide (bar < 6)
  | .entdaa addr => decide (addr < 128)
  | .mctpControl cmd eid _ => decide (cmd < 256) && decide (eid < 256)
  | .casevoRegRead page off => decide (page < 32768) && decide (off < 4096)
  | .casevoRegWrite page off _ => decide (page < 32768) && decide (off < 4096)
  | .casevoHealQuery _ _ => true
  | .casevoFabricCfg _ _ _ => true
  | .casevoFuse code arg => decide (code < 256) && decide (arg < 256)
  | .pldmSensorRead _ => true
  | .pldmEffecterSet _ => true
  | .firmwareUpdate phase _ _ => decide (phase < 3)
  | .spdmGetCertificate => true
  | .spdmChallenge _ => true
  | .spdmGetMeasurements => true
  | .debugTransport kind _ _ _ => decide (kind < 3)
  | .authDbgLockWrite _ _ => true
  | .fuseArmWrite _ _ => true
  | .fuseArmExpiry => true
  | .fuseDbgClose _ _ => true
  | .fuseMgmtClose _ _ => true
  | .fuseSvnAdvance _ _ => true
  | .fuseKeyRevoke _ _ => true
  | .fuseProgramDone _ => true
  | .gaugeRun d i _ _ => decide (d < 11) && decide (i < 16)
  | .gaugeStop d i _ _ => decide (d < 11) && decide (i < 16)
  | .gaugeCloseWrite d i _ _ => decide (d < 11) && decide (i < 16)
  | .gaugeWindowExpiry d i => decide (d < 11) && decide (i < 16)
  | .gaugeSample d i _ _ => decide (d < 11) && decide (i < 16)
  | .levelSamplePeriod d i => decide (d < 11) && decide (i < 16)
  | .linkofsSample d i _ => decide (d < 11) && decide (i < 16)
  | .aux3v3Applied => true
  | .twinSelSample _ => true
  | .aux3v3Lost => true
  | .pwrEnRise _ => true
  | .pwrEnFall => true
  | .mainSupplyLost => true
  | .mainSupplyRestored => true
  | .modRstNAssert _ => true
  | .flashExtNAssert => true
  | .flashExtNRelease => true
  | .chopenBackoffExpiry core entry => decide (core < 1152) && decide (entry < 1024)
  | .handleCloseNotice core hnd en => decide (core < 1152) && decide (hnd < 1024) && decide (en < 4194304)
  | .codewordTransmit port => decide (port.n < 40)
  | .dieResetComplete die => decide (die < 11)
  | .hostLinkTrained width rate _ => decide (width < 6) && decide (rate < 8)
  | .pcieConfigurationRequest _ fn _ => decide (fn < 65)
  | .pldmEventPoll => true

end Sys2Proof
end

