-- ==== Sys2Proof/Safety.lean ====
section
/-! DEFINITION. What a safe state and a safe answer are: the invariants the module keeps, when a command exists on the module,
when it completes, and when a register access meets no check that would turn it away. -/
namespace Sys2Proof

/-- A command exists on the module when every unit number it carries names a unit. -/
def SafeCmd (i : Instr) : Prop := i.wellFormed = true
/-- Memory is in its one canonical form. -/
abbrev MemInv (s : Machine.State) : Prop := Machine.memWf s.mem = true

namespace Machine

/-- Scratchpads hold their words and poison flags in rising order of address. -/
abbrev SpadInv (s : State) : Prop := s.cores.all (fun e => twf e.2.sp.words && twf e.2.sp.pois) = true

/-- First-error captures are held in rising order of page. -/
abbrev CapInv (s : State) : Prop := twf s.caps = true

/-- The command completes: it answers a next state, of which `P` holds. -/
def Completes (i : Instr) (s : State) (P : State → Prop) : Prop := ∃ t, exec i s = .next t ∧ P t

/-- What the fields of a register make of a word that a class writes (R41, R43, R44, R655). -/
def plan (s : State) (req : Req) (p : PageId) (off v : Nat) : Plan :=
  planOf req.cls (rd s p off) (v % 2 ^ 32) (match specOf p off with | some r => r.fields | none => [])

/-- No check of an access turns it away: the debug port is open where it asks; beyond the header the unit that owns the page is
neither closed nor OFF (R37, R604). -/
abbrev Reached (s : State) (req : Req) (p : PageId) (off : Nat) : Prop :=
  (req = .debug → debugShut s = false) ∧ (64 ≤ off → unitClosed s p = false ∧ unitOff s p = false)

/-- A write of a word is let through whole: the requester may write the register, no field it may not write changes, every field's
value is one it may take (R36–R38, R43, R50, R51, R655); and the page is not a leader's, whose writes its follower takes too (R447). -/
abbrev Granted (s : State) (req : Req) (p : PageId) (off v : Nat) : Prop :=
  Reached s req p off ∧ mayWrite s req p off = true ∧ (plan s req p off v).bad = false ∧ (plan s req p off v).denied = false ∧
    followerPage s p = none

/-- A read is let through (R36, R37, R51). -/
abbrev Readable (s : State) (req : Req) (p : PageId) (off : Nat) : Prop := Reached s req p off ∧ mayRead s req p = true

/-- A change of grade resets nothing: the start is not done, or no pair is active or about to be again, or the grade cannot fall from
REDUCED (R537). -/
abbrev GradeHolds (s : State) : Prop := fb s aon fAON_READY_DONE = false ∨ (pst s ≠ 3 ∧ pst s ≠ 4) ∨ gradeOf s < 2

/-- An error is recorded at a page: held whole where nothing is held, else only counted, with OVERFLOW set (R53). -/
abbrev Records (s t : State) (p : PageId) (code : Nat) : Prop :=
  if (cap s p).valid then cap t p = { cap s p with overflow := true, count := min 255 ((cap s p).count + 1) }
  else (cap t p).valid = true ∧ (cap t p).code = code ∧ (cap t p).overflow = false ∧ (cap t p).count = 1

/-- Every register a core image names lies in its page (R472). -/
abbrev ImagesFit (s : State) : Prop :=
  s.hub.ctxs.all (fun e => match e.2.itin with | some i => i.place.all (fun p => p.regs.all (fun r => decide (r.2.1 < 4096))) | none => true) = true

/-! ### Frames -/

/-- The registers and captures of every page are as they were, but for pages of the block types listed. -/
abbrev RegsKept (s t : State) (bs : List Blk) : Prop :=
  ∀ q o, pageOf q.no = some q → o < 4096 → q.blk ∉ bs → rd t q o = rd s q o ∧ (CapInv s → cap t q = cap s q)

/-- A core that a command of core `c` may act on: the core itself and, where it leads a pair, its follower (R447). -/
abbrev Mine (s : State) (c d : Nat) : Prop := d = c ∨ (isLeader s c = true ∧ d = c + 1)

/-- Every other core holds what it held. -/
abbrev OthersKept (s t : State) (c : Nat) : Prop := ∀ d, ¬Mine s c d → core t d = core s d

/-- The registers and captures of every page are as they were, but for the pages of the cores a command of core `c` may act on and for
pages of the block types listed. -/
abbrev PagesKept (s t : State) (c : Nat) (bs : List Blk) : Prop :=
  ∀ q o, pageOf q.no = some q → o < 4096 → q.blk ∉ bs → (q.isCore = false ∨ ¬Mine s c q.core) → rd t q o = rd s q o ∧ (CapInv s → cap t q = cap s q)

/-! ### Where stores go -/

/-- A byte that a store of `n` bytes at place `x` of slice `g` touches: one of the place's own, or of its mirrored copy's (R338, R353). -/
abbrev Stored (s : State) (g x n z : Nat) : Prop :=
  (x ≤ z ∧ z < x + n) ∨
  ((slice s g).ss ≠ 0 ∧ physOf (standIn (g / 32) (g % 32) (x % 2 ^ 31)).1 (standIn (g / 32) (g % 32) (x % 2 ^ 31)).2 ≤ z ∧
    z < physOf (standIn (g / 32) (g % 32) (x % 2 ^ 31)).1 (standIn (g / 32) (g % 32) (x % 2 ^ 31)).2 + n)
/-- A byte that a store of `n` bytes at a memory address under a bank touches. -/
abbrev StoredAt (s : State) (b a n z : Nat) : Prop := Stored s (place s b a).1 (phys s b a) n z
/-- A byte that a store of `n` bytes, made in whole 64-bit words, touches (R335). -/
abbrev StoredWords (s : State) (b a n z : Nat) : Prop :=
  ∃ k ∈ chunksOf (a / 8 * 8) ((a + n + 7) / 8 * 8 - a / 8 * 8), StoredAt s b k.1 k.2 z
/-- A byte of a signpost table entry, of any copy the module keeps (R324). -/
abbrev StoredSigns (s : State) (z : Nat) : Prop := ∃ b ∈ signBases s, ∃ en, StoredAt s (hubEpoch s) (b + 8 * en) 8 z
/-- A byte that a journal record arriving over causeway link `w` touches in the shadow (R419). -/
abbrev StoredRec (s : State) (w : Nat) (r : JRec) (z : Nat) : Prop :=
  let e := (tget 0 s.twin.smap (r.addr / 2 ^ 24 % 65536)).toNat
  bit e 16 = true ∧ StoredAt s (injEpoch s (portDie (36 + w)) (portUnit (36 + w))) (e % 65536 * 2 ^ 24 + r.addr % 2 ^ 24) (8 * r.data.length) z
/-- A byte that the records a stream holds up to its last mark touch, up to the last mark of a milestone
the module holds (R418, R419). -/
abbrev StoredStream (s : State) (g z : Nat) : Prop :=
  ∃ r ∈ (uptoMark (fun m => mileLe m (fd s twinPage fCAUSE_HELD_MILE)) (inOrder (stream s g))).1, r.mark = none ∧ r.copy = false ∧ StoredRec s (g % 4) r z
/-- Every byte of memory that is not stored to reads as before. -/
abbrev KeptOutside (s t : State) (stored : Nat → Prop) : Prop := ∀ z, ¬stored z → memGet t.mem z = memGet s.mem z

/-- What an access by unit `u` of H to `n` bytes of memory meets is settled: each chunk's slice accepts it and holds no request, and no block of it has
an error (R333, R336, R338, R342). -/
def MemSettled (s : State) (u lo n : Nat) (write : Bool) : Bool :=
  let b := injEpoch s 8 u
  (chunksOf lo n).all (fun k => let g := (place s b k.1).1
    reqCode s g { type := if write then 10 else 8, sepoch := b, sdie := 8, sunit := u, addr := k.1, rlen := k.2 } == cOK && (slice s g).q.isEmpty &&
      (blocksOf (phys s b k.1) k.2).all (fun x => tget 0 s.merr x == 0))

end Machine

end Sys2Proof
end

