-- ==== Sys2Proof/Certificates/Slice0/Obligations.lean ====
section
/-! DEFINITION. What is claimed of the model: each statement for the provers. -/
open Sys2Proof Sys2Proof.Machine

/-- On every implemented page, for every requester that may make the access: a write of PG_SCRATCH stores the word; a write of INT_RAW
or INT_EN_SET sets the bits written and leaves the other of the two registers; a write of INT_STAT or INT_EN_CLR clears the bits
written in RAW or in the enable mask and changes nothing else; ERR_CLR empties the page's first-error capture and changes nothing
else; PG_LOCK sets LOCK and changes no other register; a read of the low half of any pair sends its committed value and latches
the high half for the requester. (R40, R44, R52, R53, R54, R653) -/
def Obligations.HeaderCommandsComplete : Prop :=
  (∀ (s : State) (req : Req) (p : PageId) (v : Word),
    pageOf p.no = some p → Granted s req p 0x38 v.toNat →
    Completes (.registerWrite req p.no 0x38 [v] 15) s fun t =>
      t = wr s p 0x38 v.toNat :) ∧
  (∀ (s : State) (req : Req) (p : PageId) (v : Word),
    pageOf p.no = some p → Granted s req p 0x10 v.toNat →
    Completes (.intRawSet req p.no v) s fun t =>
      intRaw t p = intRaw s p ||| v.toNat ∧ intEn t p = intEn s p :) ∧
  (∀ (s : State) (req : Req) (p : PageId) (v : Word),
    pageOf p.no = some p → Granted s req p 0x14 v.toNat →
    Completes (.intStatClear req p.no v) s fun t =>
      t = wr s p 0x10 (intRaw s p &&& (~~~v).toNat) :) ∧
  (∀ (s : State) (req : Req) (p : PageId) (v : Word),
    pageOf p.no = some p → Granted s req p 0x18 v.toNat →
    Completes (.intEnableSet req p.no v) s fun t =>
      intEn t p = intEn s p ||| v.toNat ∧ intRaw t p = intRaw s p :) ∧
  (∀ (s : State) (req : Req) (p : PageId) (v : Word),
    pageOf p.no = some p → Granted s req p 0x1C v.toNat →
    Completes (.intEnableClear req p.no v) s fun t =>
      t = wr s p 0x18 (intEn s p &&& (~~~v).toNat) :) ∧
  (∀ (s : State) (req : Req) (p : PageId) (v : Word),
    pageOf p.no = some p → Granted s req p 0x30 (v.toNat ||| 1) →
    Completes (.errClr req p.no v) s fun t =>
      t = { s with caps := tput s.caps p.no {} } :) ∧
  (∀ (s : State) (req : Req) (p : PageId) (v : Word),
    pageOf p.no = some p → Granted s req p 0x34 (v.toNat ||| 1) →
    Completes (.pgLockSet req p.no v) s fun t =>
      fd t p fPG_LOCK_LOCK = 1 ∧ (∀ q o, regKey (homePage q o) o ≠ regKey p 0x34 → rd t q o = rd s q o) :) ∧
  (∀ (s : State) (req : Req) (p : PageId) (off : Nat) (r q : RegSpec),
    pageOf p.no = some p → specOf p off = some r → r.half = .lo → specOf p (off + 4) = some q → off % 4 = 0 → off < 4096 → Readable s req p off → unitClosed s p = false → unitOff s p = false →
    Completes (.pairLowRead req p.no ⟨off, 0⟩) s fun t =>
      t.out = s.out ++ [.data req (BitVec.ofNat 32 (viewWord s p r off))] ∧ latched t req p.no (off + 4) = some (BitVec.ofNat 32 (viewWord s p q (off + 4))) :)

/-- Where the core's fabric runs: a well-formed descriptor of at least one sequence starts a pass with the sequences, bank, operation
and output form of its fields and, where SWAP is set, makes the FULL shadow the active tile; a sequence whose tokens and room are
present enters with the token at A's head and is counted; a result that passes its checks is committed, lane by lane the chunk
results of its column added to the initial value, or advances the pass that emits, and the last one ends the pass; a mismatch with
attempts left is counted and replayed with nothing committed; a token from W joins the shadow's image; a whole image makes the
shadow FULL and is counted. A granted write of ARR_CTL with INJECT 1 sets INJECT. A granted write of ARR_CFG0 or ARR_CFG1 sets the
formats of an inactive buffer and clears its VALID, and changes no word of the active buffer. (R93, R100, R102, R103, R105, R112, R113, R119, R120, R144) -/
def Obligations.ArrayCommandsComplete : Prop :=
  (∀ (s : State) (c : Nat) (d : Tok),
    c < 1152 → fabricRuns s c = true → (arr s c).pass = none → headTok s c pPD = some d → d.poison = false → 1 ≤ bits d.val 0 7 → bits d.val 0 7 ≤ 64 → bits d.val 9 2 < 2 → bits d.val 12 20 = 0 → credits s c pDONE 1 = true → ((bit d.val 7 = true → (arr s c).shadow = 2)) →
    Completes (.arrayPassStart c) s fun t =>
      (arr t c).pass = some { nseq := bits d.val 0 7, bank := bits d.val 8 1, start := bits d.val 9 2 == 1, emit := bit d.val 11, inject := (if fb s (flowPage c) fARR_CTL_INJECT then some (fd s (flowPage c) fARR_CTL_INJ_COL) else none), noTile := (if bit d.val 7 then some (arr s c).shTile else (arr s c).active).isNone } ∧ (arr t c).active = (if bit d.val 7 then some (arr s c).shTile else (arr s c).active) :) ∧
  (∀ (s : State) (c : Nat) (p : Pass),
    c < 1152 → fabricRuns s c = true → (arr s c).pass = some p → p.entered.length < p.nseq → (seqPorts s c p).all (fun q => (headTok s c q).isSome) = true → ((p.emit = true → credits s c pO 1 = true)) →
    Completes (.arraySequenceEntry c) s fun t =>
      (∃ q, (arr t c).pass = some { p with entered := p.entered ++ [q] } ∧ headTok s c pA = some q.act) ∧ rd64 t (flowPage c) 0xE08 = (rd64 s (flowPage c) 0xE08 + (if arrWfmt s c = 10 then 4 else 1)) % 2 ^ 64 :) ∧
  (∀ (s : State) (c : Nat) (p : Pass) (q : SeqIn),
    c < 1152 → fabricRuns s c = true → (arr s c).pass = some p → p.entered[p.done]? = some q → (p.poisonFrom.isSome = true ∨ resultFails s c p q .none = none) → (p.start = true ∨ (accEntry (arr s c) p.bank p.done).valid = false ∨ parityBad (accEntry (arr s c) p.bank p.done) = none) → p.emit = false →
    Completes (.arrayResult c .none) s fun t =>
      (accEntry (arr t c) p.bank p.done).lanes = (List.range 64).map (fun col => columnResult ((arr s c).active.getD {}).wfmt (arrAfmt s c) ((arr s c).active.getD {}).sparse (imageNat ((arr s c).active.getD {}).img) q (if p.start then (if arrInit s c then lane q.iv.val col else 0) else if (accEntry (arr s c) p.bank p.done).valid then (accEntry (arr s c) p.bank p.done).lanes.getD col 0 else 0) col) ∧ (accEntry (arr t c) p.bank p.done).valid = true :) ∧
  (∀ (s : State) (c : Nat) (p : Pass) (q : SeqIn),
    c < 1152 → fabricRuns s c = true → (arr s c).pass = some p → p.entered[p.done]? = some q → (p.poisonFrom.isSome = true ∨ resultFails s c p q .none = none) →
    Completes (.arrayResult c .none) s fun t =>
      (if p.nseq ≤ p.done + 1 then (arr t c).pass = none ∧ rd64 t (flowPage c) 0xE00 = (rd64 s (flowPage c) 0xE00 + 1) % 2 ^ 64 else (arr t c).pass.map Pass.done = some (p.done + 1)) :) ∧
  (∀ (s : State) (c : Nat) (p : Pass) (q : SeqIn) (col i : Nat),
    c < 1152 → fabricRuns s c = true → (arr s c).pass = some p → p.entered[p.done]? = some q → p.poisonFrom = none → p.tries < arrRetry s c → resultFails s c p q (.copy i) = some col →
    Completes (.arrayResult c (.copy i)) s fun t =>
      (arr t c) = { arr s c with pass := some { p with tries := p.tries + 1 }, retrying := true } ∧ rd64 t (flowPage c) 0xE28 = (rd64 s (flowPage c) 0xE28 + 1) % 2 ^ 64 :) ∧
  (∀ (s : State) (c : Nat) (k : Tok),
    c < 1152 → fabricRuns s c = true → headTok s c pW = some k → (arr s c).shadow ≠ 2 → (((arr s c).shadow = 1 → (arr s c).shTile.img.length < imageTokens (arr s c).shTile.wfmt (arr s c).shTile.sparse)) →
    Completes (.wTokenLoad c) s fun t =>
      (arr t c).shadow = 1 ∧ (arr t c).shTile.img = (if (arr s c).shadow = 1 then (arr s c).shTile.img else []) ++ [k.val] :) ∧
  (∀ (s : State) (c : Nat),
    c < 1152 → fabricRuns s c = true → (arr s c).shadow = 1 → (arr s c).shTile.img.length = imageTokens (arr s c).shTile.wfmt (arr s c).shTile.sparse →
    Completes (.tileImageFull c) s fun t =>
      (arr t c).shadow = 2 ∧ (arr t c).shTile.img = (arr s c).shTile.img ∧ rd64 t (flowPage c) 0xE38 = (rd64 s (flowPage c) 0xE38 + 1) % 2 ^ 64 :) ∧
  (∀ (s : State) (c : Nat) (req : Req) (v : Word),
    c < 1152 → Granted s req (flowPage c) 0x408 (v.toNat ||| 1) →
    Completes (.arrInject c req v) s fun t =>
      fd t (flowPage c) fARR_CTL_INJECT = 1 ∧ fd t (flowPage c) fARR_CTL_INJ_COL = bits v.toNat 8 6 :) ∧
  (∀ (s : State) (c : Nat) (req : Req) (b : Nat) (v : Word),
    c < 1152 → b < 2 → Granted s req (flowPage c) (0x400 + 4 * b) v.toNat → b ≠ activeBuf s c →
    Completes (.arrCfgWrite c req b v) s fun t =>
      bits (bufWord t c b 2) 0 12 = bits v.toNat 0 12 ∧ validBuf t c b = false :) ∧
  (∀ (s : State) (c : Nat) (req : Req) (b : Nat) (v : Word),
    c < 1152 → b < 2 → Granted s req (flowPage c) (0x400 + 4 * b) v.toNat → b = activeBuf s c →
    Completes (.arrCfgWrite c req b v) s fun t =>
      (∀ i, bufWord t c b i = bufWord s c b i) ∧ validBuf t c b = validBuf s c b :)

/-- A token of the current epoch lands at the tail of its consumer's queue, one of another epoch is discarded and counted; a credit in
flight reaches its producer; an idle spill queue takes the token at its input. A granted FLOW_IMG_GO to an inactive buffer with no
load under way begins the load of that buffer and clears its VALID; a load whose range is held and whose words are all read ends
with LOADING 0. A granted write of FLOW_WIN_DATA stores the word at the window's place in an inactive buffer; FLOW_CFG_CHECK
begins the validation of an inactive buffer, whose end sets VALID where the buffer passes and FAIL_AT with RANGE where it does
not. At rest a QUIESCE switches the active buffer and the epoch and is counted; at its limit it ends with the configuration as it
was, counted. FLOW_LINK_SEL latches the selected link's snapshot; FLOW_LINK_PEAK reads and clears its peak. An edge blocked for
the window launches a probe; a probe is sent on along each edge of a node blocked for the probe's window; FLOW_GRID_STAT written
with FOUND 1 clears the finding. (R132, R133, R134, R141, R143, R144, R145, R147, R148, R153, R155, R157) -/
def Obligations.FabricCommandsComplete : Prop :=
  (∀ (s : State) (c n : Nat) (k : Tok) (rest : List Tok),
    c < 1152 → (link s c n).fly = k :: rest → k.ep = epoch s c →
    Completes (.tokenLanding c n) s fun t =>
      (link t c n).q = (link s c n).q ++ [k] ∧ (link t c n).fly = rest :) ∧
  (∀ (s : State) (c n : Nat) (k : Tok) (rest : List Tok),
    c < 1152 → (link s c n).fly = k :: rest → k.ep ≠ epoch s c →
    Completes (.tokenLanding c n) s fun t =>
      (link t c n).q = (link s c n).q ∧ (link t c n).fly = rest ∧ rd64 t (flowPage c) 0xC18 = (rd64 s (flowPage c) 0xC18 + 1) % 2 ^ 64 :) ∧
  (∀ (s : State) (c n : Nat),
    c < 1152 → 1 ≤ (link s c n).cfly →
    Completes (.creditReturn c n) s fun t =>
      (link t c n).credits = (link s c n).credits + 1 ∧ (link t c n).cfly = (link s c n).cfly - 1 ∧ (link t c n).q = (link s c n).q :) ∧
  (∀ (s : State) (c m : Nat) (k : Tok),
    c < 1152 → m < 4 → fabricRuns s c = true → muMode s c (activeBuf s c) m = 5 → muForm s c (activeBuf s c) m = 0 → rangeWaiting (core s c) m 0 = false → headTok s c (muPort m 0) = some k → (mu s c m).spill = {} → credits s c (muPort m 0) 1 = false →
    Completes (.spillQueueFiring c m .clean) s fun t =>
      (mu t c m).spill.outBuf = [k] ∧ (mu t c m).spill.inBuf = [] ∧ (mu t c m).spill.ring = [] :) ∧
  (∀ (s : State) (c : Nat) (req : Req) (v : Word),
    c < 1152 → Granted s req (flowPage c) 0x50 (v.toNat ||| 2) → bits v.toNat 0 1 ≠ activeBuf s c → (fabOf s c).load = none →
    Completes (.flowImgGo c req v) s fun t =>
      (fabOf t c).load = some (bits v.toNat 0 1) ∧ fd t (flowPage c) fFLOW_CFG_STATUS_LOADING = 1 ∧ validBuf t c (bits v.toNat 0 1) = false :) ∧
  (∀ (s : State) (c b : Nat),
    c < 1152 → (fabOf s c).load = some b → (fabOf s c).sw = none → rangeWaiting (core s c) whoLoader 0 = false → (spadReadAll s c whoLoader (fd s (flowPage c) fFLOW_IMG_ADDR_ADDR * 512) 512).2.1 = .word 0 false →
    Completes (.imageLoadComplete c) s fun t =>
      (fabOf t c).load = none ∧ fd t (flowPage c) fFLOW_CFG_STATUS_LOADING = 0 :) ∧
  (∀ (s : State) (c : Nat) (req : Req) (v : Word),
    c < 1152 → Granted s req (flowPage c) 0x58 v.toNat → fd s (flowPage c) fFLOW_WIN_SEL_BUF ≠ activeBuf s c → fd s (flowPage c) fFLOW_WIN_SEL_OFFSET ≠ 2 →
    Completes (.flowWinDataWrite c req v) s fun t =>
      bufWord t c (fd s (flowPage c) fFLOW_WIN_SEL_BUF) (fd s (flowPage c) fFLOW_WIN_SEL_OFFSET) = v.toNat ∧ validBuf t c (fd s (flowPage c) fFLOW_WIN_SEL_BUF) = false :) ∧
  (∀ (s : State) (c : Nat) (req : Req) (v : Word),
    c < 1152 → Granted s req (flowPage c) 0x48 v.toNat → bit v.toNat (1 - activeBuf s c) = true → (fabOf s c).check = none →
    Completes (.flowCfgCheck c req v) s fun t =>
      (fabOf t c).check = some (1 - activeBuf s c) ∧ fd t (flowPage c) fFLOW_CFG_STATUS_CHECKING = 1 :) ∧
  (∀ (s : State) (c b : Nat),
    c < 1152 → b < 2 → (fabOf s c).check = some b → (fabOf s c).sw = none →
    Completes (.validationComplete c) s fun t =>
      (fabOf t c).check = none ∧ fd t (flowPage c) fFLOW_CFG_STATUS_CHECKING = 0 ∧ (match validate s c b with | none => validBuf t c b = true | some f => validBuf t c b = validBuf s c b ∧ fd t (flowPage c) fFLOW_CFG_STATUS_FAIL_AT = f % 256) :) ∧
  (∀ (s : State) (c : Nat) (w : Cfgsw),
    c < 1152 → (fabOf s c).sw = some w → w.purge = false → w.switched = false → fd s (flowPage c) fFLOW_STATUS_SWITCH = 2 → validBuf s c (1 - activeBuf s c) = true → unitsRest s c = true → (linksOn s c).all (fun n => linkRest s c n) = true →
    Completes (.quiesceSwitch c) s fun t =>
      activeBuf t c = 1 - activeBuf s c ∧ epoch t c = 1 - epoch s c ∧ ((List.range 4).all (fun m => muMode s c (1 - activeBuf s c) m != 5) = true → (fabOf t c).sw = none ∧ rd64 t (flowPage c) 0xC00 = (rd64 s (flowPage c) 0xC00 + 1) % 2 ^ 64) ∧ ((fabOf t c).sw = none ∨ ((fabOf t c).sw = some { w with switched := true } ∧ ringsWait t c = true)) :) ∧
  (∀ (s : State) (c : Nat) (w : Cfgsw),
    c < 1152 → (fabOf s c).sw = some w → w.purge = false → w.switched = false →
    Completes (.quiesceTimeout c) s fun t =>
      activeBuf t c = activeBuf s c ∧ epoch t c = epoch s c ∧ (fabOf t c).sw = none ∧ (fabOf t c).links = (fabOf s c).links ∧ rd64 t (flowPage c) 0xC20 = (rd64 s (flowPage c) 0xC20 + 1) % 2 ^ 64 :) ∧
  (∀ (s : State) (c : Nat) (req : Req) (v : Word),
    c < 1152 → Granted s req (flowPage c) 0x60 v.toNat → (linkCfg s c (activeBuf s c) (bits v.toNat 0 7)).en = false →
    Completes (.flowLinkSelWrite c req v) s fun t =>
      fd t (flowPage c) fFLOW_LINK_SEL_LINK = bits v.toNat 0 7 ∧ rd t (flowPage c) 0x64 = 0 :) ∧
  (∀ (s : State) (c : Nat) (req : Req) (v : Word),
    c < 1152 → Granted s req (flowPage c) 0x60 v.toNat → (linkCfg s c (activeBuf s c) (bits v.toNat 0 7)).en = true → linkSum (link s c (bits v.toNat 0 7)) < 128 →
    Completes (.flowLinkSelWrite c req v) s fun t =>
      fd t (flowPage c) fFLOW_LINK_STAT_QUEUED = (link s c (bits v.toNat 0 7)).q.length ∧ fd t (flowPage c) fFLOW_LINK_STAT_CREDITS = (link s c (bits v.toNat 0 7)).credits ∧ fd t (flowPage c) fFLOW_LINK_STAT_ENABLED = 1 :) ∧
  (∀ (s : State) (c : Nat) (req : Req),
    c < 1152 → Readable s req (flowPage c) 0x68 →
    Completes (.flowLinkPeakRead c req) s fun t =>
      t.out = s.out ++ [.data req (BitVec.ofNat 32 (bits (link s c (fd s (flowPage c) fFLOW_LINK_SEL_LINK)).peak 0 7))] ∧ (link t c (fd s (flowPage c) fFLOW_LINK_SEL_LINK)).peak = (link s c (fd s (flowPage c) fFLOW_LINK_SEL_LINK)).q.length :) ∧
  (∀ (s : State) (c : Nat) (e : Edge) (since : Nat),
    c < 1152 → fd s (flowPage c) fFLOW_GRID_WIN_W ≠ 0 → since + usTicks (fd s (flowPage c) fFLOW_GRID_WIN_W) ≤ s.now → (fabOf s c).lastProbe = none → edgeNow s c e = true →
    Completes (.probeLaunch c e since) s fun t =>
      (e.kind = 2 ∨ e.kind = 3 → bit (signEntry s (c / 144) e.en) 0 = true → t.out = s.out ++ [.probe c (bits (signEntry s (c / 144) e.en) 2 10) (bits (signEntry s (c / 144) e.en) 12 4) (bits (signEntry s (c / 144) e.en) 16 8) { device := selfDev s (c / 144), origin := c, id := ((fabOf s c).probeId + 1) % 256, window := fd s (flowPage c) fFLOW_GRID_WIN_W, launch := s.now, hops := [hopOf s c e] }]) ∧ (e.kind ≠ 2 → e.kind ≠ 3 → t.out = s.out ++ [.probe c (selfDev s (c / 144)) (c / 144) (c % 144) { device := selfDev s (c / 144), origin := c, id := ((fabOf s c).probeId + 1) % 256, window := fd s (flowPage c) fFLOW_GRID_WIN_W, launch := s.now, hops := [hopOf s c e] }]) ∧ rd64 t (flowPage c) 0xC30 = (rd64 s (flowPage c) 0xC30 + 1) % 2 ^ 64 :) ∧
  (∀ (s : State) (c : Nat) (p : Probe) (e : Edge) (since : Nat),
    c < 1152 → probeHome s c p = false → (reached s c p).contains e.unit = true → since + usTicks p.window ≤ s.now → p.hops.length < 32 → edgeNow s c e = true →
    Completes (.probeReceive c p [(e, since)]) s fun t =>
      (e.kind = 2 ∨ e.kind = 3 → bit (signEntry s (c / 144) e.en) 0 = true → t.out = s.out ++ [.probe c (bits (signEntry s (c / 144) e.en) 2 10) (bits (signEntry s (c / 144) e.en) 12 4) (bits (signEntry s (c / 144) e.en) 16 8) { p with hops := p.hops ++ [hopOf s c e] }]) ∧ (e.kind ≠ 2 → e.kind ≠ 3 → t.out = s.out ++ [.probe c (selfDev s (c / 144)) (c / 144) (c % 144) { p with hops := p.hops ++ [hopOf s c e] }]) :) ∧
  (∀ (s : State) (c : Nat) (p q : Probe) (e : Edge) (since : Nat),
    c < 1152 → probeHome s c p = true → (fabOf s c).probes.find? (fun x => x.1.id == p.id && x.1.launch == p.launch) = some (q, e, since) → edgeNow s c e = true → p.hops.length ≤ 32 →
    Completes (.probeReceive c p [(e, since)]) s fun t =>
      fd t (flowPage c) fFLOW_GRID_STAT_FOUND = 1 ∧ rd64 t (flowPage c) 0xC38 = (rd64 s (flowPage c) 0xC38 + 1) % 2 ^ 64 :) ∧
  (∀ (s : State) (c : Nat) (req : Req) (v : Word),
    c < 1152 → Granted s req (flowPage c) 0x70 (v.toNat ||| 1) →
    Completes (.flowGridStatClear c req v) s fun t =>
      rd t (flowPage c) 0x70 = 0 ∧ rd t (flowPage c) 0x100 = 0 :)

/-- Where the core's fabric runs: a compute unit whose inputs and outputs' credits are present takes a firing into its pipeline with
one output per port it produces; an emission that passes its checks removes the oldest firing and adds its NaN results to their
counter; one that fails with attempts left keeps the firing and counts the attempt; an update engine that holds the constants of
the milestone takes a firing of its two outputs and counts a group; a memory unit's walk starts from its base, or from its base
plus the index token by its stride; a READ access whose words the banks serve issues, its token holding those words; a WRITE
access takes its token and stores its 32 words; a token that waits to leave leaves on every link of the output. (R161, R165, R166, R167, R168, R171, R172, R173, R174, R176, R177) -/
def Obligations.UnitCommandsComplete : Prop :=
  (∀ (s : State) (c n : Nat),
    c < 1152 → n < 6 → fabricRuns s c = true → (cu s c n).pipe.length < cuLatency s c n → bit (cuWord s c (activeBuf s c) n 0) 0 = true → bit (cuWord s c (activeBuf s c) n 0) 1 = false → (List.range 6).all (fun i => !bit (cuWord s c (activeBuf s c) n 0) (2 + i) || (headTok s c (cuPort n i)).isSome) = true → (List.range 4).all (fun i => !bit (cuWord s c (activeBuf s c) n 0) (8 + i) || credits s c (cuPort n i) 1) = true →
    Completes (.cuFiring c n) s fun t =>
      (∃ f, (cu t c n).pipe = (cu s c n).pipe ++ [f] ∧ f.tries = 0 ∧ f.outs.map (fun o => (o.1, o.2.length)) = ((List.range 4).filter (fun i => bit (cuWord s c (activeBuf s c) n 0) (8 + i))).map (fun i => (i, 1))) :) ∧
  (∀ (s : State) (c n stage : Nat) (f : Firing) (rest : List Firing),
    c < 1152 → n < 6 → fabricRuns s c = true → (cu s c n).pipe = f :: rest →
    Completes (.cuEmission c n stage .ok) s fun t =>
      (cu t c n).pipe = rest ∧ rd64 t (cPage c) 0xC20 = (rd64 s (cPage c) 0xC20 + f.nan) % 2 ^ 64 ∧ rd64 t (cPage c) 0xC28 = (rd64 s (cPage c) 0xC28 + f.ovf) % 2 ^ 64 :) ∧
  (∀ (s : State) (c n stage l : Nat) (f : Firing) (rest : List Firing),
    c < 1152 → n < 6 → fabricRuns s c = true → (cu s c n).pipe = f :: rest → f.tries < fd s (cPage c) fCORE_CU_CTL_RETRY →
    Completes (.cuEmission c n stage (.mismatch l)) s fun t =>
      (cu t c n).pipe = { f with tries := f.tries + 1, retried := true } :: rest ∧ rd64 t (cPage c) 0xC38 = (rd64 s (cPage c) 0xC38 + 1) % 2 ^ 64 :) ∧
  (∀ (s : State) (c n : Nat) (k : List Word) (kp : Bool),
    c < 1152 → n < 6 → fabricRuns s c = true → (cu s c n).pipe.length < cuLatency s c n → bit (cuWord s c (activeBuf s c) n 0) 0 = true → bit (cuWord s c (activeBuf s c) n 0) 1 = true → 1 ≤ (portQueue s c (cuPort n 0)).length → 2 ≤ (portQueue s c (cuPort n 1)).length → (if bits (cuWord s c (activeBuf s c) n 9) 0 2 = 3 then 2 else 1) ≤ (portQueue s c (cuPort n 2)).length → credits s c (cuPort n 0) 2 = true → credits s c (cuPort n 1) (if bits (cuWord s c (activeBuf s c) n 9) 0 2 = 0 then 1 else 2) = true → (cu s c n).consts = some (k, kp, fd s (cPage c) fCORE_STEP_MILE_MILE) →
    Completes (.updateEngineFiring c n) s fun t =>
      (∃ f, (cu t c n).pipe = (cu s c n).pipe ++ [f] ∧ f.outs.map (fun o => (o.1, o.2.length)) = [(0, 2), (1, if bits (cuWord s c (activeBuf s c) n 9) 0 2 = 0 then 1 else 2)]) ∧ (cu t c n).groups = (cu s c n).groups + 1 :) ∧
  (∀ (s : State) (c m : Nat),
    c < 1152 → m < 4 → fabricRuns s c = true → (mu s c m).walk = none → ((muMode s c (activeBuf s c) m = 1 ∨ muMode s c (activeBuf s c) m = 2)) → muTrig s c (activeBuf s c) m = 2 → muTotal s c m ≠ 0 →
    Completes (.muWalkStart c m) s fun t =>
      (∃ r, (mu t c m).walk = some { total := muTotal s c m, base := (muBase s c (activeBuf s c) m : Int), refused := r }) :) ∧
  (∀ (s : State) (c m : Nat) (k : Tok),
    c < 1152 → m < 4 → fabricRuns s c = true → (mu s c m).walk = none → ((muMode s c (activeBuf s c) m = 3 ∨ muMode s c (activeBuf s c) m = 4)) → headTok s c (muPort m 1) = some k → k.poison = false → muTotal s c m ≠ 0 →
    Completes (.muWalkStart c m) s fun t =>
      (∃ r, (mu t c m).walk = some { total := muTotal s c m, base := (muBase s c (activeBuf s c) m : Int) + sgn 32 (k.val % 2 ^ 32) * muGstride s c (activeBuf s c) m, refused := r }) :) ∧
  (∀ (s : State) (c m : Nat) (w : Walk),
    c < 1152 → m < 4 → fabricRuns s c = true → (mu s c m).walk = some w → w.dead = false → w.refused = false → w.issued + 1 < w.total → muMode s c (activeBuf s c) m = 1 → muForm s c (activeBuf s c) m ≠ 2 → rangeWaiting (core s c) m 0 = false → credits s c (muOut s c m) 1 = true → (muWords s c m (w.base + muOffset s c m w.issued)).all (fun x => decide (0 ≤ x) && decide (x < 1048576)) = true → askBanks s c m ((muWords s c m (w.base + muOffset s c m w.issued)).map Int.toNat) = (s, none, false) →
    Completes (.muAccess c m .clean 0) s fun t =>
      (mu t c m).walk = some { w with issued := w.issued + 1 } ∧ (mu t c m).emit.map Tok.val = (mu s c m).emit.map Tok.val ++ [natOfWords ((muWords s c m (w.base + muOffset s c m w.issued)).map (fun x => spadWord (core s c) x.toNat))] ∧ rd64 t (cPage c) 0xC48 = (rd64 s (cPage c) 0xC48 + 1) % 2 ^ 64 :) ∧
  (∀ (s : State) (c m : Nat) (w : Walk) (k : Tok),
    c < 1152 → m < 4 → fabricRuns s c = true → SpadInv s → (mu s c m).walk = some w → w.dead = false → w.refused = false → w.issued + 1 < w.total → muMode s c (activeBuf s c) m = 2 → muForm s c (activeBuf s c) m = 0 → rangeWaiting (core s c) m 0 = false → headTok s c (muIn s c m) = some k → (muWords s c m (w.base + muOffset s c m w.issued)).all (fun x => decide (0 ≤ x) && decide (x < 1048576)) = true → askBanks s c m ((muWords s c m (w.base + muOffset s c m w.issued)).map Int.toNat) = (s, none, false) →
    Completes (.muAccess c m .clean 0) s fun t =>
      (mu t c m).walk = some { w with issued := w.issued + 1 } ∧ (∀ j < 32, spadWord (core t c) ((w.base + muOffset s c m w.issued).toNat + j) = (BitVec.ofNat 64 (k.val / 2 ^ (64 * j)), k.poison)) ∧ (∀ a, (∀ j < 32, a ≠ (w.base + muOffset s c m w.issued).toNat + j) → spadWord (core t c) a = spadWord (core s c) a) :) ∧
  (∀ (s : State) (c m n : Nat) (k : Tok) (rest : List Tok),
    c < 1152 → m < 4 → fabricRuns s c = true → (mu s c m).emit = k :: rest → n ∈ linksFrom s c (muOut s c m) →
    Completes (.muReadEmit c m) s fun t =>
      (mu t c m).emit = rest ∧ (link t c n).fly = (link s c n).fly ++ [k] :)

/-- With the sequencer running and the instruction at its PC of the kind named, every operand free: an operation on registers, one
with an immediate, one of the M extension, LUI and AUIPC write rd and move the PC past the instruction; JAL and JALR write the
address after it and go to their target; a branch goes to its target where its condition holds and past it where not; a word load
of local memory writes rd, and a word store the four bytes. Each counts one instruction and changes no other register; rd 0 takes
nothing. A word load of scratchpad whose bank serves it gives the word's half. (R179, R180) -/
def Obligations.SequencerCommandsComplete : Prop :=
  (∀ (s : State) (c w len : Nat),
    c < 1152 → seqSt s c = 1 → fetchAt s c = .instr w len → rvOp w = 0x33 → rvF7 w = 0 →
    Completes (.seqInstruction c .clean) s fun t =>
      (rvRd w ≠ 0 → xget t c (rvRd w) = rvAlu (rvF3 w) false (xget s c (rvRs1 w)) (xget s c (rvRs2 w))) ∧ (∀ r < 32, r ≠ rvRd w → xget t c r = xget s c r) ∧ pcOf t c = (pcOf s c + len) % 2 ^ 32 ∧ (seqr t c).instret = (seqr s c).instret + 1 :) ∧
  (∀ (s : State) (c w len : Nat),
    c < 1152 → seqSt s c = 1 → fetchAt s c = .instr w len → rvOp w = 0x33 → rvF7 w = 1 →
    Completes (.seqInstruction c .clean) s fun t =>
      (rvRd w ≠ 0 → xget t c (rvRd w) = rvMul (rvF3 w) (xget s c (rvRs1 w)) (xget s c (rvRs2 w))) ∧ (∀ r < 32, r ≠ rvRd w → xget t c r = xget s c r) ∧ pcOf t c = (pcOf s c + len) % 2 ^ 32 ∧ (seqr t c).instret = (seqr s c).instret + 1 :) ∧
  (∀ (s : State) (c w len : Nat),
    c < 1152 → seqSt s c = 1 → fetchAt s c = .instr w len → rvOp w = 0x13 → rvF3 w ≠ 1 → rvF3 w ≠ 5 →
    Completes (.seqInstruction c .clean) s fun t =>
      (rvRd w ≠ 0 → xget t c (rvRd w) = rvAlu (rvF3 w) false (xget s c (rvRs1 w)) (immI w)) ∧ (∀ r < 32, r ≠ rvRd w → xget t c r = xget s c r) ∧ pcOf t c = (pcOf s c + len) % 2 ^ 32 ∧ (seqr t c).instret = (seqr s c).instret + 1 :) ∧
  (∀ (s : State) (c w len : Nat),
    c < 1152 → seqSt s c = 1 → fetchAt s c = .instr w len → rvOp w = 0x13 → (rvF3 w = 1 ∨ rvF3 w = 5) → rvF7 w = 0 →
    Completes (.seqInstruction c .clean) s fun t =>
      (rvRd w ≠ 0 → xget t c (rvRd w) = rvAlu (rvF3 w) false (xget s c (rvRs1 w)) (BitVec.ofNat 32 (rvRs2 w))) ∧ (∀ r < 32, r ≠ rvRd w → xget t c r = xget s c r) ∧ pcOf t c = (pcOf s c + len) % 2 ^ 32 ∧ (seqr t c).instret = (seqr s c).instret + 1 :) ∧
  (∀ (s : State) (c w len : Nat),
    c < 1152 → seqSt s c = 1 → fetchAt s c = .instr w len → rvOp w = 0x37 →
    Completes (.seqInstruction c .clean) s fun t =>
      (rvRd w ≠ 0 → xget t c (rvRd w) = immU w) ∧ (∀ r < 32, r ≠ rvRd w → xget t c r = xget s c r) ∧ pcOf t c = (pcOf s c + len) % 2 ^ 32 ∧ (seqr t c).instret = (seqr s c).instret + 1 :) ∧
  (∀ (s : State) (c w len : Nat),
    c < 1152 → seqSt s c = 1 → fetchAt s c = .instr w len → rvOp w = 0x17 →
    Completes (.seqInstruction c .clean) s fun t =>
      (rvRd w ≠ 0 → xget t c (rvRd w) = BitVec.ofNat 32 (pcOf s c) + immU w) ∧ (∀ r < 32, r ≠ rvRd w → xget t c r = xget s c r) ∧ pcOf t c = (pcOf s c + len) % 2 ^ 32 ∧ (seqr t c).instret = (seqr s c).instret + 1 :) ∧
  (∀ (s : State) (c w len : Nat),
    c < 1152 → seqSt s c = 1 → fetchAt s c = .instr w len → rvOp w = 0x6F →
    Completes (.seqInstruction c .clean) s fun t =>
      (rvRd w ≠ 0 → xget t c (rvRd w) = BitVec.ofNat 32 (pcOf s c + len)) ∧ (∀ r < 32, r ≠ rvRd w → xget t c r = xget s c r) ∧ pcOf t c = (BitVec.ofNat 32 (pcOf s c) + immJ w).toNat ∧ (seqr t c).instret = (seqr s c).instret + 1 :) ∧
  (∀ (s : State) (c w len : Nat),
    c < 1152 → seqSt s c = 1 → fetchAt s c = .instr w len → rvOp w = 0x67 → rvF3 w = 0 →
    Completes (.seqInstruction c .clean) s fun t =>
      (rvRd w ≠ 0 → xget t c (rvRd w) = BitVec.ofNat 32 (pcOf s c + len)) ∧ (∀ r < 32, r ≠ rvRd w → xget t c r = xget s c r) ∧ pcOf t c = (xget s c (rvRs1 w) + immI w).toNat / 2 * 2 ∧ (seqr t c).instret = (seqr s c).instret + 1 :) ∧
  (∀ (s : State) (c w len : Nat),
    c < 1152 → seqSt s c = 1 → fetchAt s c = .instr w len → rvOp w = 0x63 → rvBranch (rvF3 w) (xget s c (rvRs1 w)) (xget s c (rvRs2 w)) = some true →
    Completes (.seqInstruction c .clean) s fun t =>
      (∀ r < 32, xget t c r = xget s c r) ∧ pcOf t c = (BitVec.ofNat 32 (pcOf s c) + immB w).toNat ∧ (seqr t c).instret = (seqr s c).instret + 1 :) ∧
  (∀ (s : State) (c w len : Nat),
    c < 1152 → seqSt s c = 1 → fetchAt s c = .instr w len → rvOp w = 0x63 → rvBranch (rvF3 w) (xget s c (rvRs1 w)) (xget s c (rvRs2 w)) = some false →
    Completes (.seqInstruction c .clean) s fun t =>
      (∀ r < 32, xget t c r = xget s c r) ∧ pcOf t c = (pcOf s c + len) % 2 ^ 32 ∧ (seqr t c).instret = (seqr s c).instret + 1 :) ∧
  (∀ (s : State) (c w len : Nat),
    c < 1152 → seqSt s c = 1 → fetchAt s c = .instr w len → rvOp w = 0x03 → rvF3 w = 2 → (xget s c (rvRs1 w) + immI w).toNat % 4 = 0 → areaOf (xget s c (rvRs1 w) + immI w).toNat = .local_ →
    Completes (.seqInstruction c .clean) s fun t =>
      (rvRd w ≠ 0 → xget t c (rvRd w) = BitVec.ofNat 32 (leNat (memGetAll (seqr s c).lm (xget s c (rvRs1 w) + immI w).toNat 4))) ∧ (∀ r < 32, r ≠ rvRd w → xget t c r = xget s c r) ∧ pcOf t c = (pcOf s c + len) % 2 ^ 32 ∧ (seqr t c).instret = (seqr s c).instret + 1 :) ∧
  (∀ (s : State) (c w len : Nat),
    c < 1152 → seqSt s c = 1 → fetchAt s c = .instr w len → rvOp w = 0x23 → rvF3 w = 2 → (xget s c (rvRs1 w) + immS w).toNat % 4 = 0 → areaOf (xget s c (rvRs1 w) + immS w).toNat = .local_ →
    Completes (.seqInstruction c .clean) s fun t =>
      (seqr t c).lm = memPutAll (seqr s c).lm (xget s c (rvRs1 w) + immS w).toNat (natLe 4 (xget s c (rvRs2 w)).toNat) ∧ (∀ r < 32, xget t c r = xget s c r) ∧ pcOf t c = (pcOf s c + len) % 2 ^ 32 ∧ (seqr t c).instret = (seqr s c).instret + 1 :) ∧
  (∀ (s : State) (c w len a : Nat),
    c < 1152 → seqSt s c = 1 → fetchAt s c = .instr w len → rvOp w = 0x03 → rvF3 w = 2 → a = (xget s c (rvRs1 w) + immI w).toNat → a % 4 = 0 → areaOf a = .spad → writePending (core s c) ((a - 0x10000000) / 8) = false → regionWaits s c whoSeq ((a - 0x10000000) / 8) = false → bankAsk s c whoSeq ((a - 0x10000000) / 8) = (s, none) → tget 0 (core s c).sp.flips ((a - 0x10000000) / 8) = 0 → (spadWord (core s c) ((a - 0x10000000) / 8)).2 = false → rvRd w ≠ 0 →
    Completes (.seqScratchpadAccess c .clean) s fun t =>
      xget t c (rvRd w) = BitVec.ofNat 32 (bits (spadWord (core s c) ((a - 0x10000000) / 8)).1.toNat (8 * ((a - 0x10000000) % 8)) 32) ∧ pcOf t c = (pcOf s c + len) % 2 ^ 32 :)

/-- With the sequencer running and the instruction at its PC of the kind named: QPOP and QSEL give the word popped or the slot
selected, or wait; QSEND enters a message; CHOPEN takes the lowest free entry into OPENING and waits; CHCLOSE frees a BROKEN
entry, and an OPEN one becomes CLOSING, or is freed at once where no message is left and its other end is gone or it is a convoy;
DMAGO queues the descriptor it reads. A waiting QPOP or QSEL takes what has come, or times out with its value and code TIMEOUT. (R183, R184, R232, R234, R236, R219, R220) -/
def Obligations.QueueInstructionsComplete : Prop :=
  (∀ (s u : State) (c w len : Nat) (v : DWord) (pz : Bool),
    c < 1152 → seqSt s c = 1 → fetchAt s c = .instr w len → customKind 0x0B 0 w = true → qxBound s c ((xget s c (rvRs1 w)).toNat % 64) = false → popSlot s c ((xget s c (rvRs1 w)).toNat % 64) = (u, .word v pz) →
    Completes (.qpop c) s fun t =>
      (rvRd w ≠ 0 → xget t c (rvRd w) = BitVec.ofNat 32 v.toNat) ∧ (seqr t c).qhi = BitVec.ofNat 32 (v.toNat / 2 ^ 32) ∧ (seqr t c).mxstat = (if pz then 0x0D else 0) ∧ pcOf t c = (pcOf s c + 4) % 2 ^ 32 :) ∧
  (∀ (s u : State) (c w len : Nat),
    c < 1152 → seqSt s c = 1 → fetchAt s c = .instr w len → customKind 0x0B 0 w = true → qxBound s c ((xget s c (rvRs1 w)).toNat % 64) = false → popSlot s c ((xget s c (rvRs1 w)).toNat % 64) = (u, .empty) →
    Completes (.qpop c) s fun t =>
      (seqr t c).wait = .qpop (rvRd w) ((xget s c (rvRs1 w)).toNat % 64) s.now ∧ seqSt t c = 2 ∧ fd t (cPage c) fCORE_SEQ_STATE_WAITON = 1 ∧ pcOf t c = pcOf s c :) ∧
  (∀ (s u : State) (c rd q since : Nat) (v : DWord) (pz : Bool),
    c < 1152 → (seqr s c).wait = .qpop rd q since → popSlot s c q = (u, .word v pz) →
    Completes (.qpopReturn c) s fun t =>
      (rd % 32 ≠ 0 → xget t c rd = BitVec.ofNat 32 v.toNat) ∧ (seqr t c).mxstat = (if pz then 0x0D else 0) ∧ (seqr t c).wait = .none :) ∧
  (∀ (s : State) (c rd q since : Nat),
    c < 1152 → (seqr s c).wait = .qpop rd q since →
    Completes (.qpopTimeout c) s fun t =>
      (rd % 32 ≠ 0 → xget t c rd = 0) ∧ (seqr t c).mxstat = 8 ∧ (seqr t c).wait = .none :) ∧
  (∀ (s : State) (c w len q : Nat),
    c < 1152 → seqSt s c = 1 → fetchAt s c = .instr w len → customKind 0x0B 1 w = true → qselPick s c (xget s c (rvRs1 w)).toNat ((xget s c (rvRs2 w)).toNat % 2) (bit (xget s c (rvRs2 w)).toNat 1) = some q →
    Completes (.qsel c) s fun t =>
      (rvRd w ≠ 0 → xget t c (rvRd w) = BitVec.ofNat 32 q) ∧ (seqr t c).mxstat = 0 :) ∧
  (∀ (s : State) (c rd mask bank timeout since q : Nat) (rot : Bool),
    c < 1152 → (seqr s c).wait = .qsel rd mask bank rot timeout since → qselPick s c mask bank rot = some q →
    Completes (.qselSelect c) s fun t =>
      (rd % 32 ≠ 0 → xget t c rd = BitVec.ofNat 32 q) ∧ (seqr t c).mxstat = 0 ∧ (seqr t c).wait = .none :) ∧
  (∀ (s : State) (c rd mask bank timeout since : Nat) (rot : Bool),
    c < 1152 → (seqr s c).wait = .qsel rd mask bank rot timeout since →
    Completes (.qselTimeout c) s fun t =>
      (rd % 32 ≠ 0 → xget t c rd = 0xFFFFFFFF) ∧ (seqr t c).mxstat = 8 ∧ (seqr t c).wait = .none :) ∧
  (∀ (s : State) (c w len : Nat),
    c < 1152 → seqSt s c = 1 → fetchAt s c = .instr w len → customKind 0x0B 2 w = true → (xget s c (rvRs1 w)).toNat % 8 = 0 → bits (xget s c (rvRs2 w)).toNat 10 13 ≤ 4096 → (chan s c (bits (xget s c (rvRs2 w)).toNat 0 10)).state = 2 → bits (xget s c (rvRs2 w)).toNat 10 13 ≤ (chan s c (bits (xget s c (rvRs2 w)).toNat 0 10)).maxlen → (qe s c).sendq.length < 32 → (xget s c (rvRs1 w)).toNat < 0x7FF000 →
    Completes (.qsend c) s fun t =>
      (qe t c).sendq.map (fun m => { m with ranged := true }) = (qe s c).sendq.map (fun m => { m with ranged := true }) ++ [{ id := (seqr s c).nextId, chan := bits (xget s c (rvRs2 w)).toNat 0 10, len := bits (xget s c (rvRs2 w)).toNat 10 13, addr := (xget s c (rvRs1 w)).toNat, src := .seq, ranged := true }] ∧ (seqr t c).issued = (seqr s c).issued ++ [{ id := (seqr s c).nextId, outcome := none }] ∧ (rvRd w ≠ 0 → xget t c (rvRd w) = 0) ∧ (seqr t c).mxstat = 0 :) ∧
  (∀ (s : State) (c w len i : Nat),
    c < 1152 → seqSt s c = 1 → fetchAt s c = .instr w len → customKind 0x0B 3 w = true → lowest1024 (fun i => (chan s c i).state == 0) = some i →
    Completes (.chopen c) s fun t =>
      (chan t c i).state = 1 ∧ (chan t c i).en = (xget s c (rvRs1 w)).toNat % 2 ^ 22 ∧ (chan t c i).slot = (xget s c (rvRs2 w)).toNat % 64 ∧ (seqr t c).wait = .chopen (rvRd w) i ∧ seqSt t c = 2 ∧ (qe t c).inj.length = (qe s c).inj.length + 1 :) ∧
  (∀ (s : State) (c w len : Nat),
    c < 1152 → seqSt s c = 1 → fetchAt s c = .instr w len → customKind 0x0B 4 w = true → (chan s c ((xget s c (rvRs1 w)).toNat % 1024)).state = 4 →
    Completes (.chclose c) s fun t =>
      chan t c ((xget s c (rvRs1 w)).toNat % 1024) = {} ∧ (rvRd w ≠ 0 → xget t c (rvRd w) = 0) ∧ (seqr t c).mxstat = 0 :) ∧
  (∀ (s : State) (c w len : Nat),
    c < 1152 → seqSt s c = 1 → fetchAt s c = .instr w len → customKind 0x0B 4 w = true → (chan s c ((xget s c (rvRs1 w)).toNat % 1024)).state = 2 →
    Completes (.chclose c) s fun t =>
      (chan t c ((xget s c (rvRs1 w)).toNat % 1024)).state = (if (chanMsgs s c ((xget s c (rvRs1 w)).toNat % 1024)).isEmpty && ((chan s c ((xget s c (rvRs1 w)).toNat % 1024)).gone || (chan s c ((xget s c (rvRs1 w)).toNat % 1024)).convoy.isSome) then 0 else 3) ∧ (rvRd w ≠ 0 → xget t c (rvRd w) = 0) ∧ (seqr t c).mxstat = 0 :) ∧
  (∀ (s u v : State) (c w len a : Nat) (x : DWord) (y : Bool) (l : List (DWord × Bool)) (e : Ecc),
    c < 1152 → seqSt s c = 1 → fetchAt s c = .instr w len → customKind 0x0B 5 w = true → a = (xget s c (rvRs1 w)).toNat → a % 32 = 0 → a < 0x800000 → rangeTake s c { start := a / 8, len := 4, write := false, owner := whoDma, id := descReadId } = (u, .go) → spadReadEcc u c whoDma (a / 8) e 4 = (v, .word x y, l) → l.any (fun e => e.2) = false → descBad (l.map (fun e => e.1.toNat)) (descOf (l.map (fun e => e.1.toNat)) a) = false → (core v c).sp.dma.length < 16 →
    Completes (.dmago ⟨c, e⟩) s fun t =>
      (core t c).sp.dma = (core v c).sp.dma ++ [{ descOf (l.map (fun e => e.1.toNat)) a with id := (seqr v c).nextId }] ∧ (rvRd w ≠ 0 → xget t c (rvRd w) = 0) ∧ (seqr t c).mxstat = 0 :)

/-- With the sequencer running and the instruction at its PC of the kind named: MILE of the core's milestone waits; it ends with code
OK, and for a core that is no half of a pair with its digest sent, once every outcome is OK. NAP with no wake cause pending waits;
NAP is entered where the core is at rest, ends on a wake cause with the causes in rd, and its timer sets cause 1. CFGSW QUIESCE
stops the QX ports and waits, the active buffer as it was; CFGSW PURGE to a valid buffer switches the buffer and the epoch at
once, and completes unless a spill ring of the new configuration waits for its range. (R146, R147, R149, R150, R184, R185, R186) -/
def Obligations.StepAndSleepInstructionsComplete : Prop :=
  (∀ (s : State) (c w len : Nat),
    c < 1152 → seqSt s c = 1 → fetchAt s c = .instr w len → customKind 0x0B 7 w = true → (xget s c (rvRs1 w)).toNat = fd s (cPage c) fCORE_STEP_MILE_MILE →
    Completes (.mile c) s fun t =>
      (seqr t c).wait = .mile (rvRd w) (xget s c (rvRs1 w)) ∧ seqSt t c = 2 ∧ pcOf t c = pcOf s c :) ∧
  (∀ (s : State) (c rd : Nat) (n : Word),
    c < 1152 → (seqr s c).wait = .mile rd n → (seqr s c).issued.all (fun i => i.outcome == some 0) = true →
    Completes (.mileComplete c) s fun t =>
      (seqr t c).wait = .none ∧ (seqr t c).issued = [] ∧ (seqr t c).mxstat = 0 ∧ (corePaired s c = false → t.out = s.out ++ [.digest c n.toNat (stepDigest s c)]) ∧ (rd % 32 ≠ 0 → xget t c rd = 0) :) ∧
  (∀ (s : State) (c w len : Nat),
    c < 1152 → seqSt s c = 1 → fetchAt s c = .instr w len → customKind 0x2B 0 w = true → (xget s c (rvRs1 w)).toNat % 32 ≠ 0 → (seqr s c).causes &&& ((xget s c (rvRs1 w)).toNat % 32) = 0 →
    Completes (.nap c) s fun t =>
      (seqr t c).wait = .nap (rvRd w) ((xget s c (rvRs1 w)).toNat % 32) ((xget s c (rvRs1 w)).toNat / 256) s.now ∧ seqSt t c = 2 :) ∧
  (∀ (s : State) (c rd mask timer since : Nat),
    c < 1152 → (seqr s c).wait = .nap rd mask timer since → (seqr s c).napped = false → napRest s c = true →
    Completes (.napEntry c) s fun t =>
      (seqr t c).napped = true ∧ seqSt t c = 3 ∧ (seqr t c).wait = (seqr s c).wait :) ∧
  (∀ (s : State) (c rd mask timer since : Nat),
    c < 1152 → (seqr s c).wait = .nap rd mask timer since → (seqr s c).causes &&& mask ≠ 0 →
    Completes (.napWake c) s fun t =>
      (rd % 32 ≠ 0 → xget t c rd = BitVec.ofNat 32 ((seqr s c).causes % 32)) ∧ (seqr t c).causes = 0 ∧ (seqr t c).wait = .none ∧ (seqr t c).napped = false :) ∧
  (∀ (s : State) (c rd mask timer since : Nat),
    c < 1152 → (seqr s c).wait = .nap rd mask timer since → timer ≠ 0 →
    Completes (.napTimerExpiry c) s fun t =>
      (seqr t c).causes = (seqr s c).causes ||| 2 ∧ (seqr t c).wait = .nap rd mask 0 since :) ∧
  (∀ (s : State) (c w len : Nat),
    c < 1152 → seqSt s c = 1 → fetchAt s c = .instr w len → customKind 0x0B 6 w = true → bit (xget s c (rvRs1 w)).toNat 0 = false →
    Completes (.cfgswQuiesce c) s fun t =>
      (fabOf t c).sw = some { purge := false, issued := s.now } ∧ (seqr t c).wait = .cfgsw (rvRd w) ∧ fb t (flowPage c) fFLOW_STATUS_QSTOP = true ∧ activeBuf t c = activeBuf s c :) ∧
  (∀ (s : State) (c w len : Nat),
    c < 1152 → seqSt s c = 1 → fetchAt s c = .instr w len → customKind 0x0B 6 w = true → bit (xget s c (rvRs1 w)).toNat 0 = true → validBuf s c (1 - activeBuf s c) = true → (fabOf s c).load = none →
    Completes (.cfgswPurge c) s fun t =>
      activeBuf t c = 1 - activeBuf s c ∧ epoch t c = 1 - epoch s c ∧ ((List.range 4).all (fun m => muMode s c (1 - activeBuf s c) m != 5) = true → (fabOf t c).sw = none ∧ (seqr t c).mxstat = 0 ∧ (rvRd w ≠ 0 → xget t c (rvRd w) = 0)) ∧ ((fabOf t c).sw = none ∨ ((fabOf t c).sw = some { purge := true, issued := s.now, switched := true } ∧ ringsWait t c = true)) :)

/-- With the sequencer running: a load of a queue's low word in the window pops it into rd and latches the high word; a store to SQO
or SCO emits a token on every link of its port, where credits are held; a load of SQI or SCI takes the token at its port's head; a
load of MBOX_IN gives the word and clears it; a store to MBOX_OUT sets CORE_MBOX_OUT and its event bit. A granted write of RUN 1
starts a halted sequencer, at CORE_SEQ_ENTRY on a fresh start and where it halted otherwise; RUN 0 halts a running one; STEP
executes one instruction and halts again; CORE_MBOX_IN is delivered with wake cause 3; CORE_MBOX_OUT is read and cleared. (R187, R188, R189) -/
def Obligations.WindowAndControlCommandsComplete : Prop :=
  (∀ (s u : State) (c w len a : Nat) (v : DWord) (pz : Bool),
    c < 1152 → seqSt s c = 1 → fetchAt s c = .instr w len → rvOp w = 0x03 → rvF3 w = 2 → a = (xget s c (rvRs1 w) + immI w).toNat → areaOf a = .window → a % 4096 < 0x200 → a % 8 = 0 → qxBound s c (a % 4096 / 8) = false → popSlot s c (a % 4096 / 8) = (u, .word v pz) →
    Completes (.windowQpop c) s fun t =>
      (rvRd w ≠ 0 → xget t c (rvRd w) = BitVec.ofNat 32 v.toNat) ∧ tget 0 (seqr t c).hiLatch (a % 4096 / 8) = BitVec.ofNat 32 (v.toNat / 2 ^ 32) ∧ (seqr t c).mxstat = (if pz then 0x0D else 0) :) ∧
  (∀ (s : State) (c w len a port n : Nat),
    c < 1152 → seqSt s c = 1 → fetchAt s c = .instr w len → rvOp w = 0x23 → rvF3 w = 2 → a = (xget s c (rvRs1 w) + immS w).toNat → areaOf a = .window → ((a % 4096 = 0x220 ∧ port = portId uSEQ 0 ∨ a % 4096 = 0x224 ∧ port = portId uSEQ 1)) → credits s c port 1 = true → n ∈ linksFrom s c port →
    Completes (.windowSqoWrite c) s fun t =>
      (link t c n).fly = (link s c n).fly ++ [mkTok s c (xget s c (rvRs2 w)).toNat false] ∧ (link t c n).credits = (link s c n).credits - 1 :) ∧
  (∀ (s : State) (c w len a n : Nat),
    c < 1152 → seqSt s c = 1 → fetchAt s c = .instr w len → rvOp w = 0x23 → rvF3 w = 2 → a = (xget s c (rvRs1 w) + immS w).toNat → areaOf a = .window → a % 4096 = 0x228 → credits s c (portId uSEQ 2) 1 = true → n ∈ linksFrom s c (portId uSEQ 2) →
    Completes (.windowScoWrite c) s fun t =>
      (link t c n).fly = (link s c n).fly ++ [mkTok s c ((xget s c (rvRs2 w)).toNat % 2) false] :) ∧
  (∀ (s : State) (c w len a port : Nat) (k : Tok),
    c < 1152 → seqSt s c = 1 → fetchAt s c = .instr w len → rvOp w = 0x03 → rvF3 w = 2 → a = (xget s c (rvRs1 w) + immI w).toNat → areaOf a = .window → ((a % 4096 = 0x230 ∧ port = portId uSEQ 0 ∨ a % 4096 = 0x234 ∧ port = portId uSEQ 1)) → headTok s c port = some k →
    Completes (.windowSqiRead c) s fun t =>
      (rvRd w ≠ 0 → xget t c (rvRd w) = BitVec.ofNat 32 k.val) ∧ (seqr t c).mxstat = (if k.poison then 0x0D else 0) ∧ portQueue t c port = (portQueue s c port).tail :) ∧
  (∀ (s : State) (c w len a : Nat) (k : Tok),
    c < 1152 → seqSt s c = 1 → fetchAt s c = .instr w len → rvOp w = 0x03 → rvF3 w = 2 → a = (xget s c (rvRs1 w) + immI w).toNat → areaOf a = .window → a % 4096 = 0x238 → headTok s c (portId uSEQ 2) = some k →
    Completes (.windowSciRead c) s fun t =>
      (rvRd w ≠ 0 → xget t c (rvRd w) = BitVec.ofNat 32 (k.val % 2)) ∧ portQueue t c (portId uSEQ 2) = (portQueue s c (portId uSEQ 2)).tail :) ∧
  (∀ (s : State) (c w len a : Nat),
    c < 1152 → seqSt s c = 1 → fetchAt s c = .instr w len → rvOp w = 0x03 → rvF3 w = 2 → a = (xget s c (rvRs1 w) + immI w).toNat → areaOf a = .window → a % 4096 = 0x250 →
    Completes (.windowMboxInRead c) s fun t =>
      (rvRd w ≠ 0 → xget t c (rvRd w) = (seqr s c).mboxIn) ∧ (seqr t c).mboxIn = 0 :) ∧
  (∀ (s : State) (c w len a : Nat),
    c < 1152 → seqSt s c = 1 → fetchAt s c = .instr w len → rvOp w = 0x23 → rvF3 w = 2 → a = (xget s c (rvRs1 w) + immS w).toNat → areaOf a = .window → a % 4096 = 0x254 →
    Completes (.windowMboxOutWrite c) s fun t =>
      rd t (cPage c) 0x70 = (xget s c (rvRs2 w)).toNat ∧ bit (intRaw t (cPage c)) 14 = true :) ∧
  (∀ (s : State) (c : Nat) (req : Req) (v : Word),
    c < 1152 → Granted s req (cPage c) 0x40 (v.toNat ||| 1) → seqSt s c = 0 →
    Completes (.seqRun c req v) s fun t =>
      seqSt t c = 1 ∧ fb t (cPage c) fCORE_SEQ_CTL_RUN = true ∧ pcOf t c = (if (seqr s c).fresh then fd s (cPage c) fCORE_SEQ_ENTRY_ADDR / 2 * 2 else pcOf s c) :) ∧
  (∀ (s : State) (c : Nat) (req : Req) (v : Word),
    c < 1152 → Granted s req (cPage c) 0x40 (v.toNat &&& 0xFFFFFFFE) → bit v.toNat 2 = false → seqSt s c = 1 →
    Completes (.seqHalt c req v) s fun t =>
      seqSt t c = 0 ∧ fb t (cPage c) fCORE_SEQ_CTL_RUN = false ∧ pcOf t c = pcOf s c :) ∧
  (∀ (s : State) (c w len : Nat) (req : Req) (v : Word),
    c < 1152 → Granted s req (cPage c) 0x40 (v.toNat ||| 4) → bit v.toNat 0 = false → seqSt s c = 0 → fetchAt s c = .instr w len → rvOp w = 0x33 → rvF7 w = 0 →
    Completes (.seqStep c req v) s fun t =>
      (rvRd w ≠ 0 → xget t c (rvRd w) = rvAlu (rvF3 w) false (xget s c (rvRs1 w)) (xget s c (rvRs2 w))) ∧ pcOf t c = (pcOf s c + len) % 2 ^ 32 ∧ seqSt t c = 0 :) ∧
  (∀ (s : State) (c : Nat) (req : Req) (v : Word),
    c < 1152 → Granted s req (cPage c) 0x6C v.toNat →
    Completes (.coreMboxInWrite c req v) s fun t =>
      (seqr t c).mboxIn = v ∧ (seqr t c).causes = (seqr s c).causes ||| 8 :) ∧
  (∀ (s : State) (c : Nat) (req : Req),
    c < 1152 → Readable s req (cPage c) 0x70 →
    Completes (.coreMboxOutRead c req) s fun t =>
      t.out = s.out ++ [.data req (BitVec.ofNat 32 (rd s (cPage c) 0x70))] ∧ rd t (cPage c) 0x70 = 0 :)

/-- A read whose bank serves it answers the word and its poison; a whole-word write stores both. A waiting range that meets nothing is
granted, or released where it is empty. The oldest correction is written back. A region takes its written settings, and a class
change begins a recode, whose end leaves unreadable words poisoned. The scrubber reads a row and moves on. A bank target sends an
ON bank to DROWSY; a bank that reaches OFF, DROWSY, ON after waking, or ON after powering is in that state, OFF and powering
having cleared its words. SPAD_DIRTY_DATA reads and clears a group. UNTRUSTED is cleared by writing 1. A descriptor that may start
runs; a request without an answer is reissued; a FILL stores its words and completes; a completion word is committed to a register
queue, or discarded at its timeout. (R194, R199, R205, R209, R210, R212, R214, R216, R217, R221, R223, R224) -/
def Obligations.ScratchpadCommandsComplete : Prop :=
  (∀ (s : State) (c : Nat) (r : XReq),
    c < 1152 → r.bytes = 0 → r.ecc = .clean → SpadInv s → bankAsk s c r.who (r.word % 1048576) = (s, none) →
    Completes (.crossbarGrant c [r]) s fun t =>
      t.out = s.out ++ [.spadWord c r.who (spadWord (core s c) (r.word % 1048576)).1 (spadWord (core s c) (r.word % 1048576)).2 cOK] ∧ (∀ w, spadWord (core t c) w = spadWord (core s c) w) ∧ rd64 t (spadPage c) 0xC38 = (rd64 s (spadPage c) 0xC38 + 1) % 2 ^ 64 :) ∧
  (∀ (s : State) (c : Nat) (r : XReq),
    c < 1152 → r.bytes = 255 → bankAsk s c r.who (r.word % 1048576) = (s, none) → bankPend (core s c) (bankOf (r.word % 1048576)) ≤ 8 → SpadInv s →
    Completes (.crossbarGrant c [r]) s fun t =>
      t.out = s.out ++ [.spadWord c r.who r.data r.poison cOK] ∧ spadWord (core t c) (r.word % 1048576) = (r.data, r.poison) ∧ (∀ w, w ≠ r.word % 1048576 → spadWord (core t c) w = spadWord (core s c) w) :) ∧
  (∀ (s : State) (c : Nat) (a b : XReq),
    c < 1152 → a.bytes = 255 → b.bytes = 0 → b.ecc = .clean → a.word % 1048576 = b.word % 1048576 → a.who = 13 → b.who = 11 → bankAsk s c 11 (b.word % 1048576) = (s, none) → bankAsk s c 13 (b.word % 1048576) = (s, none) → bankPend (core s c) (bankOf (a.word % 1048576)) ≤ 8 → SpadInv s →
    Completes (.crossbarGrant c [a, b]) s fun t =>
      t.out = s.out ++ [.spadWord c 11 (spadWord (core s c) (b.word % 1048576)).1 (spadWord (core s c) (b.word % 1048576)).2 cOK, .spadWord c 13 a.data a.poison cOK] :) ∧
  (∀ (s : State) (c n : Nat) (r : Range),
    c < 1152 → (core s c).sp.ranges[n]? = some r → r.granted = false → rangeClear s c n r = true →
    Completes (.rangeGrant c n) s fun t =>
      (core t c).sp.ranges = (if r.len = 0 then (core s c).sp.ranges.eraseIdx n else (core s c).sp.ranges.set n { r with granted := true }) :) ∧
  (∀ (s : State) (c w : Nat) (v : DWord) (l : List (Nat × DWord)),
    c < 1152 → (core s c).sp.wback = (w, v) :: l → bankState s c (bankOf w) = 0 → (core s c).sp.recode.contains (regionOf w) = false → SpadInv s →
    Completes (.correctionWriteback c) s fun t =>
      (core t c).sp.wback = l ∧ spadWord (core t c) w = (v, (spadWord (core s c) w).2) ∧ rd64 t (spadPage c) 0xC38 = (rd64 s (spadPage c) 0xC38 + 1) % 2 ^ 64 :) ∧
  (∀ (s : State) (c n : Nat) (req : Req) (v : Word),
    c < 1152 → n < 128 → Granted s req (spadPage c) (0x400 + 4 * n) v.toNat →
    Completes (.regionWrite c req n v) s fun t =>
      fb t (spadPage c) (fSPAD_REGION_CLASS.at n) = bit v.toNat 0 ∧ fb t (spadPage c) (fSPAD_REGION_UNORD.at n) = bit v.toNat 1 ∧ fb t (spadPage c) (fSPAD_REGION_TRACK.at n) = bit v.toNat 2 ∧ fd t (spadPage c) (fSPAD_REGION_HOME.at n) = bits v.toNat 8 24 ∧ (fb s (spadPage c) (fSPAD_REGION_CLASS.at n) ≠ bit v.toNat 0 → n ∈ (core t c).sp.recode) :) ∧
  (∀ (s : State) (c r : Nat) (l bad : List Nat),
    c < 1152 → (core s c).sp.recode = r :: l → (core s c).sp.ext = [] → (qe s c).statw = [] → SpadInv s →
    Completes (.recodeComplete c bad) s fun t =>
      (core t c).sp.recode = l ∧ (∀ w, spadWord (core t c) w = if w ∈ bad ∧ w < 1048576 ∧ regionOf w = r then (0, true) else spadWord (core s c) w) :) ∧
  (∀ (s : State) (c row : Nat) (wrapped : Bool),
    c < 1152 → fb s (spadPage c) fSPAD_SCRUB_EN = true → cstate s c = 0 → (core s c).test = false → (List.range 64).all (fun b => bankState s c b == 0) = true → scrubNext s c (fd s (spadPage c) fSPAD_SCRUB_POS_ROW) = some (row, wrapped) →
    Completes (.scrubRowRead c []) s fun t =>
      fd t (spadPage c) fSPAD_SCRUB_POS_ROW = (row + 1) % 16384 ∧ rd64 t (spadPage c) 0xC38 = (rd64 s (spadPage c) 0xC38 + 64) % 2 ^ 64 :) ∧
  (∀ (s : State) (c n b : Nat) (req : Req) (v : Word),
    c < 1152 → n < 4 → b < 16 → Granted s req (spadPage c) (0x80 + 4 * n) v.toNat → bits v.toNat (2 * b) 2 = 1 → cstate s c = 0 → bankState s c (16 * n + b) = 0 →
    Completes (.bankTargetWrite c req n v) s fun t =>
      bankState t c (16 * n + b) = 4 :) ∧
  (∀ (s : State) (c b : Nat),
    c < 1152 → b < 64 → bankState s c b = 3 → tget false (core s c).sp.held b = false → bankPend (core s c) b = 0 →
    Completes (.bankOffReached c b) s fun t =>
      bankState t c b = 2 ∧ bit (intRaw t (spadPage c)) 14 = true ∧ (∀ w, w % 64 = b → spadWord (core t c) w = (0, false)) ∧ (∀ w, w % 64 ≠ b → spadWord (core t c) w = spadWord (core s c) w) :) ∧
  (∀ (s : State) (c b : Nat),
    c < 1152 → b < 64 → bankState s c b = 4 → tget false (core s c).sp.held b = false → bankPend (core s c) b = 0 → (core s c).sp.ext = [] → (qe s c).statw = [] →
    Completes (.bankDrowsyReached c b) s fun t =>
      bankState t c b = 1 :) ∧
  (∀ (s : State) (c b : Nat),
    c < 1152 → b < 64 → bankState s c b = 5 → tget false (core s c).sp.held b = false → bankPend (core s c) b = 0 → (core s c).sp.ext = [] → (qe s c).statw = [] →
    Completes (.bankWakeComplete c b) s fun t =>
      bankState t c b = 0 :) ∧
  (∀ (s : State) (c b : Nat),
    c < 1152 → b < 64 → bankState s c b = 6 → tget false (core s c).sp.held b = false → (core s c).sp.ext = [] → (qe s c).statw = [] →
    Completes (.bankPowered c b) s fun t =>
      bankState t c b = 0 ∧ (∀ w, w % 64 = b → spadWord (core t c) w = (0, false)) :) ∧
  (∀ (s : State) (c : Nat) (req : Req),
    c < 1152 → Readable s req (spadPage c) 0x5C →
    Completes (.dirtyDataRead c req) s fun t =>
      t.out = s.out ++ [.data req (BitVec.ofNat 32 (viewWord s (spadPage c) sSPAD_DIRTY_DATA 0x5C))] ∧ (∀ i, i < 32 → tget false (core t c).sp.dirty (32 * fd s (spadPage c) fSPAD_DIRTY_SEL_GROUP + i) = false) :) ∧
  (∀ (s : State) (c : Nat) (req : Req) (v : Word),
    c < 1152 → Granted s req (spadPage c) 0x40 (v.toNat ||| 0x2000) →
    Completes (.untrustedClear c req v) s fun t =>
      fd t (spadPage c) fSPAD_STATUS_UNTRUSTED = 0 :) ∧
  (∀ (s : State) (c : Nat) (d : Desc),
    c < 1152 → dmaNext s c = some d →
    Completes (.dmaDescriptorStart c) s fun t =>
      (∀ x ∈ dmaList t c, x.id = d.id → x.running = true) ∧ (dmaList t c).map Desc.id = (dmaList s c).map Desc.id :) ∧
  (∀ (s : State) (c id a : Nat) (d : Desc),
    c < 1152 → (dmaList s c).find? (fun d => d.id == id && d.running && !d.notified && (d.op == 2 || d.op == 3)) = some d → tget 0 d.reissues a < fd s (spadPage c) fSPAD_DMA_CFG_RETRY → isFollower s c = false →
    Completes (.dmaRequestTimeout c id a) s fun t =>
      (dmaList t c).find? (fun d => d.id == id && d.running && !d.notified && (d.op == 2 || d.op == 3)) = some { d with reissues := tput d.reissues a (tget 0 d.reissues a + 1) } :) ∧
  (∀ (s u v : State) (c id n : Nat) (d : Desc) (x : DWord) (y : Bool),
    c < 1152 → (dmaList s c).find? (fun d => d.id == id && d.running && !d.notified) = some d → (dmaList s c).all (fun d => !(d.id == id && (d.op == 2 || d.op == 3)) && (!d.running || d.notified || decide (d.ranges.length ≤ d.asked))) = true → rangeWaiting (core s c) whoDma (2 * id) = false → rangeWaiting (core s c) whoDma (2 * id + 1) = false → d.code = cOK → d.op = 0 → d.lines ≠ 0 → d.notify = false → banksWait s c whoDma d.bankWords = (u, false) → spadWriteAll u c whoDma (d.saddr / 8) (List.replicate (d.len / 8) (BitVec.ofNat 64 d.remote, false)) = (v, .word x y, n) → SpadInv s →
    Completes (.dmaDescriptorComplete c id) s fun t =>
      (∀ i, i < d.len / 8 → spadWord (core t c) (d.saddr / 8 + i) = (BitVec.ofNat 64 d.remote, false)) ∧ (∀ x ∈ dmaList t c, x.id ≠ id) ∧ (core t c).sp.dmaDone = (core s c).sp.dmaDone + 1 ∧ rd64 t (spadPage c) 0xC40 = (rd64 s (spadPage c) 0xC40 + 1) % 2 ^ 64 :) ∧
  (∀ (s : State) (c id : Nat) (d : Desc),
    c < 1152 → notifying s c id = some d → d.nq < 64 → qKind s c d.nq = 1 → qOpen s c d.nq = true → qxBound s c d.nq = false → (slotq s c d.nq).regq.length < 16 →
    Completes (.dmaNotifyCommit c id) s fun t =>
      (slotq t c d.nq).regq = (slotq s c d.nq).regq ++ [⟨d.word, false, true, 8⟩] ∧ (∀ x ∈ dmaList t c, x.id ≠ d.id) :) ∧
  (∀ (s : State) (c id : Nat) (d : Desc),
    c < 1152 → notifying s c id = some d →
    Completes (.dmaNotifyTimeout c id) s fun t =>
      (∀ x ∈ dmaList t c, x.id ≠ d.id) ∧ (core t c).sp.dmaDone = (core s c).sp.dmaDone + 1 ∧ bit (intRaw t (spadPage c)) 11 = true :)

/-- A slot takes its written configuration while it is closed and unbound, its acceptance range at any time; opening a slot that
passes the checks sets OPEN; closing it clears OPEN and puts its handles in HOLDOFF. An OPEN request that passes binds the lowest
free handle and is answered; an accepted OPEN opens the entry; its timeout and backoff send the request again. HOLDOFF ends FREE.
A CLOSE notice breaks the entry, or puts the handle in HOLDOFF with an acknowledgement; the acknowledgement or the timeout frees a
CLOSING entry. A departing message takes the channel's next sequence number. An accepted packet commits its words to the register
queue, advances the expected number and is acknowledged. A reply ends its message; NOT_READY makes it wait for its backoff; its
window's end sends it again. FLUSH empties the engine; SENDSTOP is stored. The select registers latch their snapshots. A QX port
emits a token of its message; a QY port gathers one. Event commands are stated for cores that lead no pair. (R228, R229, R232, R234, R235, R236, R239, R241, R249, R254, R255, R257) -/
def Obligations.ChannelCommandsComplete : Prop :=
  (∀ (s : State) (c q : Nat) (req : Req) (v : Word),
    c < 1152 → q < 64 → Granted s req (qPage c) (0x400 + 16 * q) v.toNat → bit v.toNat 2 = false → qOpen s c q = false → slotBound s c q = false →
    Completes (.slotConfigWrite c req q 0 v) s fun t =>
      qKind t c q = bits v.toNat 0 2 ∧ qOpen t c q = false ∧ qMaxlen t c q = bits v.toNat 10 13 :) ∧
  (∀ (s : State) (c q : Nat) (req : Req) (v : Word),
    c < 1152 → q < 64 → Granted s req (qPage c) (0x404 + 16 * q) v.toNat → qOpen s c q = false → slotBound s c q = false →
    Completes (.slotConfigWrite c req q 1 v) s fun t =>
      qBase t c q = bits v.toNat 0 23 :) ∧
  (∀ (s : State) (c q : Nat) (req : Req) (v : Word),
    c < 1152 → q < 64 → Granted s req (qPage c) (0x408 + 16 * q) v.toNat → qOpen s c q = false → slotBound s c q = false →
    Completes (.slotConfigWrite c req q 2 v) s fun t =>
      fd t (qPage c) (fQENG_Q_STATW_ADDR.at q) = bits v.toNat 3 20 :) ∧
  (∀ (s : State) (c q : Nat) (req : Req) (v : Word),
    c < 1152 → q < 64 → Granted s req (qPage c) (0x40C + 16 * q) v.toNat →
    Completes (.slotConfigWrite c req q 3 v) s fun t =>
      fd t (qPage c) (fQENG_Q_ACPT_EN_BASE.at q) = bits v.toNat 0 22 ∧ fd t (qPage c) (fQENG_Q_ACPT_IGNORE.at q) = bits v.toNat 22 5 :) ∧
  (∀ (s : State) (c q : Nat) (req : Req) (v : Word),
    c < 1152 → q < 64 → Granted s req (qPage c) (0x400 + 16 * q) (v.toNat ||| 4) → qOpen s c q = false → slotBound s c q = false → openOk s c q (v.toNat ||| 4) = true →
    Completes (.slotOpen c req q v) s fun t =>
      qOpen t c q = true ∧ qKind t c q = bits v.toNat 0 2 :) ∧
  (∀ (s : State) (c q : Nat) (req : Req) (v : Word),
    c < 1152 → q < 64 → Granted s req (qPage c) (0x400 + 16 * q) (v.toNat &&& 0xFFFFFFFB) → qOpen s c q = true → qKind s c q = bits v.toNat 0 2 → qMaxlen s c q = bits v.toNat 10 13 → fd s (qPage c) (fQENG_Q_CFG_LOGSIZE.at q) = bits v.toNat 4 5 →
    Completes (.slotClose c req q v) s fun t =>
      qOpen t c q = false ∧ (∀ i, (handle s c i).state = 1 → (handle s c i).slot = q → (handle t c i).state = 2) :) ∧
  (∀ (s : State) (c i : Nat) (pkt : Pkt),
    c < 1152 → pkt.type = 4 → pkt.den = coreEn s c → coreGone s c = false → cstate s c ≠ 1 → isLeader s c = false → openCheck s c pkt = cOK → lowest1024 (fun i => (handle s c i).state == 0) = some i →
    Completes (.openRequest c pkt) s fun t =>
      handle t c i = { state := 1, en := pkt.sen, slot := pkt.slot, idx := pkt.cidx, sidx := pkt.sidx, ctag := pkt.ctag } ∧ (∃ a, (qe t c).inj = (qe s c).inj ++ [a] ∧ a.type = 5 ∧ a.code = cOK ∧ a.handle = i ∧ a.den = pkt.sen) :) ∧
  (∀ (s : State) (c : Nat) (pkt : Pkt),
    c < 1152 → pkt.type = 4 → pkt.den = coreEn s c → coreGone s c = false → cstate s c ≠ 1 → isLeader s c = false → openCheck s c pkt ≠ cOK →
    Completes (.openRequest c pkt) s fun t =>
      (qe t c).handles = (qe s c).handles ∧ (∃ a, (qe t c).inj = (qe s c).inj ++ [a] ∧ a.type = 5 ∧ a.code = openCheck s c pkt) :) ∧
  (∀ (s : State) (c : Nat) (pkt : Pkt),
    c < 1152 → pkt.type = 5 → pkt.code = cOK → coreGone s c = false → cstate s c ≠ 1 → isLeader s c = false → (chan s c pkt.sidx).state = 1 → pkt.ctag = qTag s c →
    Completes (.openResponse c pkt) s fun t =>
      (chan t c pkt.sidx).state = 2 ∧ (chan t c pkt.sidx).handle = pkt.handle ∧ (chan t c pkt.sidx).rgen = pkt.rgen ∧ (chan t c pkt.sidx).next = 0 ∧ (chan t c pkt.sidx).maxlen = pkt.maxlen :) ∧
  (∀ (s : State) (c i : Nat),
    c < 1152 → isLeader s c = false → (chan s c i).state = 1 → (chan s c i).att < fd s (qPage c) fQENG_CFG_RETRY →
    Completes (.chopenTimeout c i) s fun t =>
      (chan t c i).att = (chan s c i).att + 1 ∧ (qe t c).inj.length = (qe s c).inj.length + 1 :) ∧
  (∀ (s : State) (c i : Nat),
    c < 1152 → isLeader s c = false → (chan s c i).state = 1 → (chan s c i).wait = true →
    Completes (.chopenBackoffExpiry c i) s fun t =>
      (chan t c i).wait = false ∧ (qe t c).inj.length = (qe s c).inj.length + 1 :) ∧
  (∀ (s : State) (c i : Nat),
    c < 1152 → isLeader s c = false → (handle s c i).state = 2 →
    Completes (.handleHoldoffExpiry c i) s fun t =>
      handle t c i = {} :) ∧
  (∀ (s : State) (c i en h : Nat),
    c < 1152 → isLeader s c = false → (chan s c i).state = 2 → (chan s c i).convoy = none → (chan s c i).en = en → (chan s c i).handle = h →
    Completes (.closeNotice c en h none) s fun t =>
      (chan t c i).state = 4 ∧ (chan t c i).code = cCLOSED ∧ bit (intRaw t (qPage c)) 14 = true :) ∧
  (∀ (s : State) (c h en : Nat),
    c < 1152 → isLeader s c = false → (handle s c h).state = 1 → (handle s c h).en = en →
    Completes (.handleCloseNotice c h en) s fun t =>
      (handle t c h).state = 2 ∧ (bit (signEntry s (c / 144) en) 0 = true → t.out = s.out ++ [.closeAck c en h (bits (signEntry s (c / 144) en) 2 10) (bits (signEntry s (c / 144) en) 12 4) (bits (signEntry s (c / 144) en) 16 8) (bits (signEntry s (c / 144) en) 2 10 != fd s (diePage .sign (c / 144)) fSIGN_SELF_DEVICE)]) ∧ (bit (signEntry s (c / 144) en) 0 = false → t.out = s.out) :) ∧
  (∀ (s : State) (c i en h : Nat),
    c < 1152 → i < 1024 → isLeader s c = false → (chan s c i).state = 3 → (chan s c i).notice = true → (chan s c i).en = en → (chan s c i).handle = h →
    Completes (.closeAck c en h) s fun t =>
      chan t c i = {} :) ∧
  (∀ (s : State) (c i : Nat),
    c < 1152 → isLeader s c = false → (chan s c i).state = 3 → (chan s c i).notice = true →
    Completes (.closingEntryTimeout c i) s fun t =>
      chan t c i = {} :) ∧
  (∀ (s : State) (c : Nat) (m : Msg),
    c < 1152 → fb s (qPage c) fQENG_CTL_SENDSTOP = false → (qe s c).unacked.find? (fun m => m.again) = none → nextMsg s c = some m → m.len ≠ 0 →
    Completes (.messageDeparture c) s fun t =>
      (chan t c m.chan).next = ((chan s c m.chan).next + 1) % 65536 ∧ (qe t c).unacked.map Msg.id = (qe s c).unacked.map Msg.id ++ [m.id] ∧ rd64 t (qPage c) 0xC00 = (rd64 s (qPage c) 0xC00 + 1) % 2 ^ 64 :) ∧
  (∀ (s : State) (c : Nat) (pkt : Pkt),
    c < 1152 → pkt.type = 0 → pkt.den = coreEn s c → pkt.npart = 0 → coreGone s c = false → cstate s c ≠ 1 → isLeader s c = false → msgCheck s c pkt = cOK → pkt.seq = (handle s c pkt.handle).exp → qKind s c (handle s c pkt.handle).slot = 1 → (slotq s c (handle s c pkt.handle).slot).regq.length + (pkt.len + 7) / 8 ≤ 16 →
    Completes (.messagePacket c pkt) s fun t =>
      (handle t c pkt.handle).exp = (pkt.seq + 1) % 65536 ∧ (slotq t c (handle s c pkt.handle).slot).regq.map RegEnt.word = (slotq s c (handle s c pkt.handle).slot).regq.map RegEnt.word ++ padWords pkt.len pkt.data ∧ (∃ a, (qe t c).inj = (qe s c).inj ++ [a] ∧ a.type = 3 ∧ a.code = cOK ∧ a.seq = pkt.seq) :) ∧
  (∀ (s : State) (c h seq att : Nat),
    c < 1152 → isLeader s c = false → (qe s c).reasm.any (fun r => r.handle == h && r.seq == seq && r.att == att) = true →
    Completes (.reassemblyTimeout c h seq att) s fun t =>
      (∀ r ∈ (qe t c).reasm, ¬(r.handle = h ∧ r.seq = seq ∧ r.att = att)) ∧ rd64 t (qPage c) 0xC40 = (rd64 s (qPage c) 0xC40 + 1) % 2 ^ 64 :) ∧
  (∀ (s : State) (c : Nat) (pkt : Pkt) (m : Msg),
    c < 1152 → pkt.type = 3 → pkt.code = cOK → coreGone s c = false → cstate s c ≠ 1 → isLeader s c = false → pkt.ctag = qTag s c → replyMsg s c pkt.sidx pkt.seq = some m → (chan s c pkt.sidx).kind ≠ 3 →
    Completes (.replyOk c pkt) s fun t =>
      (∀ x ∈ (qe t c).unacked, x.id ≠ m.id) ∧ rd64 t (qPage c) 0xC08 = (rd64 s (qPage c) 0xC08 + 1) % 2 ^ 64 :) ∧
  (∀ (s : State) (c : Nat) (pkt : Pkt) (m : Msg),
    c < 1152 → pkt.type = 3 → pkt.code = cNOT_READY → coreGone s c = false → cstate s c ≠ 1 → isLeader s c = false → pkt.ctag = qTag s c → replyMsg s c pkt.sidx pkt.seq = some m → m.att ≤ pkt.att →
    Completes (.nack c pkt) s fun t =>
      (∃ x ∈ (qe t c).unacked, x.id = m.id ∧ x.waiting = true ∧ x.nacked = true) ∧ rd64 t (qPage c) 0xC18 = (rd64 s (qPage c) 0xC18 + 1) % 2 ^ 64 :) ∧
  (∀ (s : State) (c id : Nat) (m : Msg),
    c < 1152 → isLeader s c = false → (qe s c).unacked.find? (fun m => m.id == id) = some m → m.waiting = true →
    Completes (.nackBackoffExpiry c id) s fun t =>
      (∀ x ∈ (qe t c).unacked, x.id = id → x.again = true ∨ x.waiting = false) ∧ (qe t c).unacked.map Msg.id = (qe s c).unacked.map Msg.id :) ∧
  (∀ (s : State) (c i seq : Nat) (m : Msg),
    c < 1152 → isLeader s c = false → (qe s c).unacked.find? (fun m => m.chan == i && m.seq == some seq) = some m → m.att < fd s (qPage c) fQENG_CFG_RETRY →
    Completes (.attemptWindowExpiry c i seq) s fun t =>
      (∀ x ∈ (qe t c).unacked, x.id = m.id → x.att = m.att + 1 ∧ x.okParts = []) ∧ rd64 t (qPage c) 0xC10 = (rd64 s (qPage c) 0xC10 + 1) % 2 ^ 64 :) ∧
  (∀ (s : State) (c : Nat) (req : Req) (v : Word),
    c < 1152 → Granted s req (qPage c) 0x70 (v.toNat ||| 2) →
    Completes (.qengFlush c req v) s fun t =>
      (qe t c).sendq = [] ∧ (qe t c).unacked = [] ∧ (qe t c).reasm = [] ∧ (qe t c).chans = [] :) ∧
  (∀ (s : State) (c : Nat) (req : Req) (v : Word),
    c < 1152 → Granted s req (qPage c) 0x70 (v.toNat &&& 0xFFFFFFFD) →
    Completes (.sendstopWrite c req v) s fun t =>
      fb t (qPage c) fQENG_CTL_SENDSTOP = bit v.toNat 0 ∧ t.cores = s.cores :) ∧
  (∀ (s : State) (c i : Nat) (req : Req) (v : Word),
    c < 1152 → Granted s req (qPage c) 0x50 v.toNat → i = bits v.toNat 0 10 →
    Completes (.qengChSelWrite c req v) s fun t =>
      rd t (qPage c) 0x58 = ((chan s c i).handle + 2 ^ 10 * (chan s c i).rgen + 2 ^ 16 * (chan s c i).next) % 2 ^ 32 ∧ rd t (qPage c) 0x60 = ((chan s c i).maxlen + 2 ^ 13 * (chan s c i).kind + 2 ^ 16 * (chan s c i).slot) % 2 ^ 32 ∧ ((chan s c i).convoy = none → rd t (qPage c) 0x54 = ((chan s c i).en % 2 ^ 22 + 2 ^ 22 * (chan s c i).state) % 2 ^ 32) :) ∧
  (∀ (s : State) (c i : Nat) (req : Req) (v : Word),
    c < 1152 → Granted s req (qPage c) 0x64 v.toNat → i = bits v.toNat 0 10 →
    Completes (.qengHdSelWrite c req v) s fun t =>
      rd t (qPage c) 0x68 = ((handle s c i).en + 2 ^ 22 * (handle s c i).state + 2 ^ 24 * (handle s c i).slot) % 2 ^ 32 ∧ rd t (qPage c) 0x6C = (handle s c i).exp % 2 ^ 32 :) ∧
  (∀ (s : State) (c q : Nat) (req : Req) (v : Word),
    c < 1152 → Granted s req (qPage c) 0x74 v.toNat → q = bits v.toNat 0 6 →
    Completes (.qengQSelWrite c req v) s fun t =>
      rd t (qPage c) 0x78 = (if qKind s c q = 1 then (slotq s c q).regq.length else (slotq s c q).used) % 2 ^ 32 ∧ rd t (qPage c) 0x7C = (slotq s c q).commits % 2 ^ 32 ∧ rd t (qPage c) 0x80 = (slotq s c q).tail % 2 ^ 32 ∧ rd t (qPage c) 0x84 = (slotq s c q).head % 2 ^ 32 :) ∧
  (∀ (s : State) (c p n : Nat) (k : Tok) (l : List Tok),
    c < 1152 → p < 6 → (core s c).stopped = false → bit (bindWord s c (activeBuf s c) p 0) 0 = true → (tget {} (qe s c).qx p).toks = k :: l → credits s c (portId uQE p) 1 = true → n ∈ linksFrom s c (portId uQE p) →
    Completes (.qxPortEmit c p) s fun t =>
      (tget {} (qe t c).qx p).toks = l ∧ (link t c n).fly = (link s c n).fly ++ [k] ∧ (link t c n).credits = (link s c n).credits - 1 :) ∧
  (∀ (s : State) (c p : Nat) (k : Tok),
    c < 1152 → p < 4 → (core s c).stopped = false → bit (bindWord s c (activeBuf s c) (6 + p) 0) 0 = true → (tget {} (qe s c).qy p).full = false → (tget {} (qe s c).qy p).out.contains (tget {} (qe s c).qy p).buf = false → headTok s c (portId uQE p) = some k → (List.range 64).all (fun b => bankState s c b == 0) = true → (tget {} (qe s c).qy p).got + 1 < (bits (bindWord s c (activeBuf s c) (6 + p) 0) 11 13 + 255) / 256 →
    Completes (.qyPortSend c p) s fun t =>
      (tget {} (qe t c).qy p).got = (tget {} (qe s c).qy p).got + 1 ∧ portQueue t c (portId uQE p) = (portQueue s c (portId uQE p)).tail :)

/-- A contribution that passes its checks into a round that accumulates in ARRIVAL mode adds its words, by the junction's format, into
the result, counts its contributors and answers each. In CANONICAL mode the next held contribution of a part is added and counted.
A DONE round of a forwarding junction enters the send queue as a message of FWDCH. A junction packet that waits at a router merges
into one it can merge with, or is held for one. A convoy packet with an entry is replicated to its legs and takes a combining
slot; an answer that is not the last is combined; the last one at the root becomes the sender's reply; a slot's timeout frees it
and is counted. QENG_CV_BIND binds or unbinds an entry or a handle; QENG_J_SEL latches the junction's round state. (R267, R269, R270, R274, R276, R277, R283, R284, R285, R287, R288) -/
def Obligations.JunctionCommandsComplete : Prop :=
  (∀ (s : State) (c q b : Nat) (pkt : Pkt),
    c < 1152 → pkt.type = 1 → pkt.den = coreEn s c → coreGone s c = false → cstate s c ≠ 1 → isLeader s c = false → q = (handle s c pkt.handle).slot → b = pkt.seq % 2 → jCheck s c pkt = cOK → (jSpans s c pkt).all (fun e => !bankPowering s c e.1 e.2 && !bankNotYet s c e.1 e.2) = true → pkt.seq % 256 = (slotq s c q).jround → (jbuf (slotq s c q) b).st = 1 → jCanon s c q = false → (cmaskIdx pkt).all (fun k => !jHas s c q b pkt.part k) = true → fb s (qPage c) (fQENG_Q_CFG_STATEN.at q) = false → SpadInv s →
    Completes (.junctionPacket c pkt) s fun t =>
      (∀ i, i < jPartWords s c q pkt.part → (spadWord (core t c) (jResW s c q b pkt.part + i)).1 = jMask s c q pkt.part i (addWord (jFmt s c q) (spadWord (core s c) (jResW s c q b pkt.part + i)).1 (pkt.data.getD i 0))) ∧ rd64 t (qPage c) 0xC60 = (rd64 s (qPage c) 0xC60 + (cmaskIdx pkt).length) % 2 ^ 64 ∧ (qe t c).inj.length = (qe s c).inj.length + (cmaskIdx pkt).length :) ∧
  (∀ (s : State) (c q b p : Nat),
    c < 1152 → q < 64 → b < 2 → qKind s c q = 3 → jCanon s c q = true → (jbuf (slotq s c q) b).st = 1 → p < jParts s c q → tget 0 (jbuf (slotq s c q) b).added p < jCount s c q → jHas s c q b p (tget 0 (jbuf (slotq s c q) b).added p) = true →
    Completes (.junctionAdd c q b p) s fun t =>
      tget 0 (jbuf (slotq t c q) b).added p = tget 0 (jbuf (slotq s c q) b).added p + 1 :) ∧
  (∀ (s : State) (c q : Nat),
    c < 1152 → q < 64 → qKind s c q = 3 → fb s (qPage c) (fQENG_J_FWD_FWDEN.at q) = true → (jbuf (slotq s c q) (slotq s c q).jround).st = 2 → (jbuf (slotq s c q) (slotq s c q).jround).fwd = none → (chan s c (fd s (qPage c) (fQENG_J_FWD_FWDCH.at q))).state = 2 → jCB s c q ≤ (chan s c (fd s (qPage c) (fQENG_J_FWD_FWDCH.at q))).maxlen → jCB s c q ≠ 0 → (qe s c).sendq.length < 32 → jBufAddr s c q ((slotq s c q).jround % 2) / 8 + (jCB s c q + 7) / 8 ≤ 1048576 →
    Completes (.junctionForward c q) s fun t =>
      (qe t c).sendq.map (fun m => { m with ranged := true }) = (qe s c).sendq.map (fun m => { m with ranged := true }) ++ [{ id := (seqr s c).nextId, chan := fd s (qPage c) (fQENG_J_FWD_FWDCH.at q), len := jCB s c q, addr := jBufAddr s c q ((slotq s c q).jround % 2), src := .fwd q ((slotq s c q).jround % 2), ranged := true }] ∧ (jbuf (slotq t c q) (slotq s c q).jround).fwd = some (seqr s c).nextId :) ∧
  (∀ (s : State) (c inp i : Nat) (p : Pkt) (l : List Pkt),
    c < 1152 → inp < 6 → bufOf s c inp 2 = p :: l → p.type = 1 → p.ddie = c / 144 → p.ddev = selfDev s (c / 144) → isHere s c p = false → (routerOut s c p).2 = false → (rout s c).held.findIdx? (fun h => mergeable h p) = some i → p.merge = true →
    Completes (.routerMerge c inp) s fun t =>
      (rout t c).held = lmod (fun h => mergePkt h p) (rout s c).held i ∧ rd64 t (rPage c) 0xC48 = (rd64 s (rPage c) 0xC48 + 1) % 2 ^ 64 :) ∧
  (∀ (s : State) (c inp : Nat) (p : Pkt) (l : List Pkt),
    c < 1152 → inp < 6 → bufOf s c inp 2 = p :: l → p.type = 1 → p.ddie = c / 144 → p.ddev = selfDev s (c / 144) → isHere s c p = false → (routerOut s c p).2 = false → (rout s c).held.findIdx? (fun h => mergeable h p) = none → p.merge = true → (rout s c).held.length < 8 →
    Completes (.routerMerge c inp) s fun t =>
      (rout t c).held = (rout s c).held ++ [p] :) ∧
  (∀ (s : State) (c e : Nat) (pkt : Pkt),
    c < 1152 → pkt.type = 2 → repFind s c pkt.sepoch pkt.cvid = some e → 1 ≤ bits (repWord s c pkt.sepoch e 0) 42 3 → (rout s c).comb.findIdx? (fun k => k.cvid == pkt.cvid && k.seq == pkt.seq) = none → (rout s c).bufs.find? (fun e => e.2.head? == some pkt) = none → (rout s c).comb.length < 64 →
    Completes (.convoyPacket c pkt) s fun t =>
      (rout t c).comb = (rout s c).comb ++ [{ cvid := pkt.cvid, seq := pkt.seq, att := pkt.att, ret := pkt, root := bit (repWord s c pkt.sepoch e 0) 45, due := min 4 (bits (repWord s c pkt.sepoch e 0) 42 3) + b2n (bit (repWord s c pkt.sepoch e 0) 19) }] ∧ (net t (c / 144)).sw.length + (bufOf t c 0 pkt.vc).length = (net s (c / 144)).sw.length + (bufOf s c 0 pkt.vc).length + min 4 (bits (repWord s c pkt.sepoch e 0) 42 3) :) ∧
  (∀ (s : State) (c i : Nat) (pkt : Pkt) (k : Comb),
    c < 1152 → pkt.type = 3 → (rout s c).comb.findIdx? (fun k => k.cvid == pkt.cvid && k.seq == pkt.seq && k.att == pkt.att) = some i → (rout s c).comb[i]? = some k → 1 < k.due →
    Completes (.convoyAnswer c pkt) s fun t =>
      (rout t c).comb[i]? = some { k with due := k.due - 1, code := firstCode k.code pkt.code } :) ∧
  (∀ (s : State) (c i : Nat) (pkt : Pkt) (k : Comb),
    c < 1152 → pkt.type = 3 → (rout s c).comb.findIdx? (fun k => k.cvid == pkt.cvid && k.seq == pkt.seq && k.att == pkt.att) = some i → (rout s c).comb[i]? = some k → k.due ≤ 1 → k.root = true →
    Completes (.convoyAnswer c pkt) s fun t =>
      (rout t c).comb = (rout s c).comb.eraseIdx i ∧ (rout t c).arr = (rout s c).arr.erase pkt ++ [convReply k.ret (firstCode k.code pkt.code)] :) ∧
  (∀ (s : State) (c cvid seq i : Nat),
    c < 1152 → (rout s c).comb.findIdx? (fun k => k.cvid == cvid && k.seq == seq) = some i →
    Completes (.combiningSlotTimeout c cvid seq) s fun t =>
      (rout t c).comb = (rout s c).comb.eraseIdx i ∧ rd64 t (rPage c) 0xC50 = (rd64 s (rPage c) 0xC50 + 1) % 2 ^ 64 :) ∧
  (∀ (s : State) (c : Nat) (req : Req) (lo hi : Word),
    c < 1152 → Granted s req (qPage c) 0x94 (lo.toNat &&& 0xFCFFFFFF) → Granted s req (qPage c) 0x98 hi.toNat → (chan s c (bits lo.toNat 0 10)).state = 0 →
    Completes (.cvBindSender c req lo hi) s fun t =>
      chan t c (bits lo.toNat 0 10) = { state := 2, maxlen := 512, convoy := some (selfDev s (c / 144) * 256 + bits lo.toNat 10 8) } :) ∧
  (∀ (s : State) (c : Nat) (req : Req) (lo hi : Word),
    c < 1152 → Granted s req (qPage c) 0x94 ((lo.toNat &&& 0xFDFFFFFF) ||| 0x01000000) → Granted s req (qPage c) 0x98 hi.toNat → (handle s c (bits lo.toNat 0 10)).state = 0 → ((qKind s c (bits lo.toNat 18 6) = 1 ∨ qKind s c (bits lo.toNat 18 6) = 2)) → qOpen s c (bits lo.toNat 18 6) = true →
    Completes (.cvBindHandle c req lo hi) s fun t =>
      handle t c (bits lo.toNat 0 10) = { state := 1, en := bits hi.toNat 0 22, slot := bits lo.toNat 18 6, conv := true } :) ∧
  (∀ (s : State) (c : Nat) (req : Req) (lo hi : Word),
    c < 1152 → Granted s req (qPage c) 0x94 ((lo.toNat &&& 0xFEFFFFFF) ||| 0x02000000) → Granted s req (qPage c) 0x98 hi.toNat → (chan s c (bits lo.toNat 0 10)).state = 4 →
    Completes (.cvUnbindSender c req lo hi) s fun t =>
      chan t c (bits lo.toNat 0 10) = {} :) ∧
  (∀ (s : State) (c : Nat) (req : Req) (lo hi : Word),
    c < 1152 → Granted s req (qPage c) 0x94 (lo.toNat ||| 0x03000000) → Granted s req (qPage c) 0x98 hi.toNat →
    Completes (.cvUnbindHandle c req lo hi) s fun t =>
      handle t c (bits lo.toNat 0 10) = { handle s c (bits lo.toNat 0 10) with state := 2 } :) ∧
  (∀ (s : State) (c q : Nat) (req : Req) (v : Word),
    c < 1152 → Granted s req (qPage c) 0x88 v.toNat → q = bits v.toNat 0 6 →
    Completes (.qengJSelWrite c req v) s fun t =>
      rd t (qPage c) 0x8C = ((slotq s c q).jround + 2 ^ 8 * (slotq s c q).j0.st + 2 ^ 10 * (slotq s c q).j1.st + 2 ^ 16 * jHave s c q ((slotq s c q).jround % 2)) % 2 ^ 32 ∧ fd t (qPage c) fQENG_J_STAT0_JROUND = (slotq s c q).jround % 256 :)

/-- A clean packet that its output takes moves to the next router's buffer, or is lost where that router is closed, or is ejected to
the router's own core. A launchable packet of a core that is in no pair leaves its interface with its injection epoch, for the
mesh or the die switch. A die switch delivers a packet to its unit, or sends it over the side its route names, or loses it at a
closed bridge. A remote read of a scratchpad is answered with the words, a remote write stores them. A miss is noted and walked;
the walker's valid entry enters the cache. A write with GO begins an invalidation, or flips every SIGN page's injection epoch;
each ends when every interface has acknowledged. SIGN_EPCTL retires a bank module-wide, as Release 3 does when an epoch will not
drain. SIGN_EPSUM reads the signed sum. ROUT_CACHE_CTL empties the cache; a replication word is stored in a retired bank;
ROUT_PORT_SEL latches its free beats. (R282, R293, R302, R308, R310, R313, R314, R315, R317, R323, R468, R656) -/
def Obligations.CarriagewayCommandsComplete : Prop :=
  (∀ (s : State) (c inp vc dir : Nat) (aged : List Nat) (p : Pkt) (l : List Pkt),
    c < 1152 → inp < 5 → vc < 4 → bufOf s c inp vc = p :: l → badHeader p = false → retired s (c / 144) p.sepoch = false → isHere s c p = false → routerOut s c p = (dir, true) → 1 ≤ dir → dir ≤ 4 → closed s (cmRouter (meshNext c dir).1) = false → routerTurn s c inp vc dir aged = true →
    Completes (.routerForward c inp ⟨vc, aged⟩ .clean .clean) s fun t =>
      bufOf t (meshNext c dir).1 (meshNext c dir).2 p.vc = bufOf s (meshNext c dir).1 (meshNext c dir).2 p.vc ++ [p] ∧ rd64 t (rPage c) 0xC00 = (rd64 s (rPage c) 0xC00 + 1) % 2 ^ 64 :) ∧
  (∀ (s : State) (c inp vc dir : Nat) (aged : List Nat) (p : Pkt) (l : List Pkt),
    c < 1152 → inp < 5 → vc < 4 → bufOf s c inp vc = p :: l → badHeader p = false → retired s (c / 144) p.sepoch = false → isHere s c p = false → routerOut s c p = (dir, true) → 1 ≤ dir → dir ≤ 4 → closed s (cmRouter (meshNext c dir).1) = true → routerTurn s c inp vc dir aged = true →
    Completes (.routerForward c inp ⟨vc, aged⟩ .clean .clean) s fun t =>
      rout t (meshNext c dir).1 = rout s (meshNext c dir).1 ∧ rd64 t (rPage c) 0xC00 = (rd64 s (rPage c) 0xC00 + 1) % 2 ^ 64 ∧ rd t (rPage c) (0x58 + 4 * (p.sepoch % 2)) = rd s (rPage c) (0x58 + 4 * (p.sepoch % 2)) :) ∧
  (∀ (s : State) (c inp vc : Nat) (aged : List Nat) (p : Pkt) (l : List Pkt),
    c < 1152 → inp < 6 → vc < 4 → bufOf s c inp vc = p :: l → badHeader p = false → retired s (c / 144) p.sepoch = false → isHere s c p = true → p.type = 3 → coreGone s c = false → routerTurn s c inp vc 0 aged = true →
    Completes (.routerForward c inp ⟨vc, aged⟩ .clean .clean) s fun t =>
      (rout t c).arr = (rout s c).arr ++ [p] :) ∧
  (∀ (s : State) (c i : Nat) (p : Pkt),
    c < 1152 → corePaired s c = false → launchable s c = some (i, p) → byEn p = false → p.type ≠ 2 → p.ddev = selfDev s (c / 144) → p.ddie = c / 144 → p.dunit < 144 → bufOn s c 0 p.vc = true →
    Completes (.packetLaunch c) s fun t =>
      bufOf t c 0 p.vc = bufOf s c 0 p.vc ++ [{ p with sepoch := injEpoch s (c / 144) (c % 144), auth := 0 }] ∧ (qe t c).inj = (qe s c).inj.eraseIdx i :) ∧
  (∀ (s : State) (c i : Nat) (p : Pkt),
    c < 1152 → corePaired s c = false → launchable s c = some (i, p) → byEn p = false → p.type ≠ 2 → ((p.ddev ≠ selfDev s (c / 144) ∨ p.ddie ≠ c / 144 ∨ 144 ≤ p.dunit)) → swOn s (c / 144) (c % 144) p.vc = true →
    Completes (.packetLaunch c) s fun t =>
      (net t (c / 144)).sw = (net s (c / 144)).sw ++ [{ p with sepoch := injEpoch s (c / 144) (c % 144), auth := 0, via := c % 144 }] ∧ (qe t c).inj = (qe s c).inj.eraseIdx i :) ∧
  (∀ (s : State) (d n : Nat) (aged : List Nat) (p : Pkt),
    d < 9 → (net s d).sw[n]? = some p → badHeader p = false → retired s d p.sepoch = false → swTo s d p = .unit p.dunit → swHead s d n p = true → swReady s d p (.unit p.dunit) = true → swTurn s d n p aged = true →
    Completes (.dieSwitchRoute d ⟨n, aged⟩ .clean .clean .clean) s fun t =>
      (net t d).ends = (net s d).ends ++ [{ p with via := 0 }] ∧ (net t d).sw = (net s d).sw.eraseIdx n :) ∧
  (∀ (s : State) (d n side b d2 side2 : Nat) (aged : List Nat) (p : Pkt),
    d < 9 → (net s d).sw[n]? = some p → badHeader p = false → retired s d p.sepoch = false → swTo s d p = .bridge side b d2 side2 → d2 ≠ d → closed s (cmBridge ((sideBridges d side).getD b 38)) = false → swHead s d n p = true → swReady s d p (.bridge side b d2 side2) = true → swTurn s d n p aged = true →
    Completes (.dieSwitchRoute d ⟨n, aged⟩ .clean .clean .clean) s fun t =>
      (net t d2).sw = (net s d2).sw ++ [{ p with via := (laneOn s d2 side2 b p.vc).getD 0 }] ∧ (net t d).sw = (net s d).sw.eraseIdx n ∧ rd64 t ⟨.brdg, d, side⟩ 0xC00 = (rd64 s ⟨.brdg, d, side⟩ 0xC00 + beats p) % 2 ^ 64 :) ∧
  (∀ (s : State) (d n side b d2 side2 : Nat) (aged : List Nat) (p : Pkt),
    d < 9 → (net s d).sw[n]? = some p → badHeader p = false → retired s d p.sepoch = false → swTo s d p = .bridge side b d2 side2 → d2 ≠ d → closed s (cmBridge ((sideBridges d side).getD b 38)) = true → swHead s d n p = true → swReady s d p (.bridge side b d2 side2) = true → swTurn s d n p aged = true →
    Completes (.dieSwitchRoute d ⟨n, aged⟩ .clean .clean .clean) s fun t =>
      (net t d2).sw = (net s d2).sw ∧ (net t d).sw = (net s d).sw.eraseIdx n ∧ epSum t d (p.sepoch % 2) = epSum s d (p.sepoch % 2) :) ∧
  (∀ (s : State) (c : Nat) (p : Pkt),
    c < 1152 → p.type = 10 → p.auth = 0 → p.addr % 8 = 0 → p.rlen % 8 = 0 → p.rlen ≤ 512 → p.addr % 2 ^ 23 / 8 + p.rlen / 8 ≤ 1048576 → p.data.length = p.rlen / 8 → ((∀ i, i < p.rlen / 8 → bankAsk s c (if p.sunit = 0xE0 ∨ p.sunit = 0xE1 then whoTest else whoExt) (p.addr % 2 ^ 23 / 8 + i) = (s, none))) → SpadInv s → toMesh s c ({ ddev := p.sdev, ddie := p.sdie, dunit := p.sunit } : Pkt) = false →
    Completes (.scratchpadRemoteRequest c p) s fun t =>
      (∀ i, i < p.rlen / 8 → spadWord (core t c) (p.addr % 2 ^ 23 / 8 + i) = (p.data.getD i 0, p.poison)) ∧ (∃ a, (net t (c / 144)).sw = (net s (c / 144)).sw ++ [a] ∧ a.type = 11 ∧ a.code = cOK ∧ a.rid = p.rid) :) ∧
  (∀ (s : State) (c : Nat) (p : Pkt),
    c < 1152 → p.type = 10 → p.auth = 0 → p.addr % 8 = 0 → p.rlen % 8 = 0 → p.rlen ≤ 512 → p.addr % 2 ^ 23 / 8 + p.rlen / 8 ≤ 1048576 → p.data.length = p.rlen / 8 → ((∀ i, i < p.rlen / 8 → bankAsk s c (if p.sunit = 0xE0 ∨ p.sunit = 0xE1 then whoTest else whoExt) (p.addr % 2 ^ 23 / 8 + i) = (s, none))) → SpadInv s → toMesh s c ({ ddev := p.sdev, ddie := p.sdie, dunit := p.sunit } : Pkt) = true →
    Completes (.scratchpadRemoteRequest c p) s fun t =>
      (∀ i, i < p.rlen / 8 → spadWord (core t c) (p.addr % 2 ^ 23 / 8 + i) = (p.data.getD i 0, p.poison)) ∧ (∃ a, bufOf t c 0 1 = bufOf s c 0 1 ++ [a] ∧ a.type = 11 ∧ a.code = cOK ∧ a.rid = p.rid) :) ∧
  (∀ (s : State) (c : Nat) (p : Pkt),
    c < 1152 → p.type = 8 → p.auth = 0 → (List.range (p.rlen / 8)).all (fun i => tget 0 (core s c).sp.flips (p.addr % 2 ^ 23 / 8 + i) == 0) = true → p.addr % 8 = 0 → p.rlen % 8 = 0 → p.rlen ≤ 512 → p.addr % 2 ^ 23 / 8 + p.rlen / 8 ≤ 1048576 → ((∀ i, i < p.rlen / 8 → bankAsk s c (if p.sunit = 0xE0 ∨ p.sunit = 0xE1 then whoTest else whoExt) (p.addr % 2 ^ 23 / 8 + i) = (s, none))) → toMesh s c ({ ddev := p.sdev, ddie := p.sdie, dunit := p.sunit } : Pkt) = false →
    Completes (.scratchpadRemoteRequest c p) s fun t =>
      (∃ a, (net t (c / 144)).sw = (net s (c / 144)).sw ++ [a] ∧ a.type = 9 ∧ a.rid = p.rid ∧ a.data = (List.range (p.rlen / 8)).map (fun i => (spadWord (core s c) (p.addr % 2 ^ 23 / 8 + i)).1)) ∧ (∀ w, spadWord (core t c) w = spadWord (core s c) w) :) ∧
  (∀ (s : State) (c : Nat) (p : Pkt),
    c < 1152 → p.type = 8 → p.auth = 0 → (List.range (p.rlen / 8)).all (fun i => tget 0 (core s c).sp.flips (p.addr % 2 ^ 23 / 8 + i) == 0) = true → p.addr % 8 = 0 → p.rlen % 8 = 0 → p.rlen ≤ 512 → p.addr % 2 ^ 23 / 8 + p.rlen / 8 ≤ 1048576 → ((∀ i, i < p.rlen / 8 → bankAsk s c (if p.sunit = 0xE0 ∨ p.sunit = 0xE1 then whoTest else whoExt) (p.addr % 2 ^ 23 / 8 + i) = (s, none))) → toMesh s c ({ ddev := p.sdev, ddie := p.sdie, dunit := p.sunit } : Pkt) = true →
    Completes (.scratchpadRemoteRequest c p) s fun t =>
      (∃ a, bufOf t c 0 1 = bufOf s c 0 1 ++ [a] ∧ a.type = 9 ∧ a.rid = p.rid ∧ a.data = (List.range (p.rlen / 8)).map (fun i => (spadWord (core s c) (p.addr % 2 ^ 23 / 8 + i)).1)) ∧ (∀ w, spadWord (core t c) w = spadWord (core s c) w) :) ∧
  (∀ (s : State) (c en : Nat),
    c < 1152 → missEn s c = some en → (rout s c).miss.length < 4 → (net s (c / 144)).walks.length < 32 →
    Completes (.signpostMiss c) s fun t =>
      (rout t c).miss = (rout s c).miss ++ [{ en := en }] ∧ en ∈ (net t (c / 144)).walks ∧ rd64 t (rPage c) 0xC38 = (rd64 s (rPage c) 0xC38 + 1) % 2 ^ 64 :) ∧
  (∀ (s : State) (c d en b a w : Nat),
    c < 1152 → d = c / 144 → (net s d).walks.contains en = true → b = injEpoch s d 0xE8 → a = 2 ^ 25 * fd s (diePage .sign d) fSIGN_TBL_LO_BASE + 2 ^ 32 * fd s (diePage .sign d) fSIGN_TBL_HI_BASE + 8 * en → reqCode s (place s b a).1 { type := 8, sepoch := b, sdie := d, sunit := 0xE8, addr := a, rlen := 8 } = cOK → (slice s (place s b a).1).q = [] → (blocksOf (phys s b a) 8).all (fun x => tget 0 s.merr x == 0) = true → (memRead s b a 8).2 = false → w = leNat (memRead s b a 8).1 → bit w 0 = true → bits w 24 22 = en → (rout s c).miss.find? (fun m => m.en == en) = some ⟨en, false⟩ →
    Completes (.signpostWalkReply d en .clean) s fun t =>
      cacheLook t c en = some { en := en, exit := bits w 1 1, ddev := bits w 2 10, ddie := bits w 12 4, dunit := bits w 16 8 } ∧ rd64 t (diePage .sign d) 0xC00 = (rd64 s (diePage .sign d) 0xC00 + 1) % 2 ^ 64 :) ∧
  (∀ (s : State) (d : Nat) (req : Req) (v : Word),
    d < 9 → Granted s req (diePage .sign d) 0x54 (v.toNat ||| 0x80000000) →
    Completes (.signpostInvalidate d req v) s fun t =>
      t.inval = s.inval ++ [{ die := d, base := bits v.toNat 0 22, ignore := bits v.toNat 22 5, all := bit v.toNat 27, since := s.now }] :) ∧
  (∀ (s : State) (k : Cast) (l : List Cast),
    s.inval = k :: l → acked s k = true →
    Completes (.invalidationComplete) s fun t =>
      t.inval = l ∧ rd64 t (diePage .sign k.die) 0xC10 = (rd64 s (diePage .sign k.die) 0xC10 + 1) % 2 ^ 64 :) ∧
  (∀ (s : State) (d : Nat) (req : Req) (v : Word),
    d < 9 → Granted s req (diePage .sign d) 0x50 (v.toNat ||| 2) → s.flip = none → retired s d (1 - fd s (diePage .sign d) fSIGN_STATUS_INJ_EPOCH) = true →
    Completes (.epochFlip d req v) s fun t =>
      t.flip = some { die := d, epoch := bits v.toNat 0 1, since := s.now } ∧ (∀ k, k < 9 → fd t (diePage .sign k) fSIGN_STATUS_INJ_EPOCH = bits v.toNat 0 1) ∧ (∀ k, k < 9 → retired t k (bits v.toNat 0 1) = false) :) ∧
  (∀ (s : State) (k : Cast),
    s.flip = some k → acked s k = true →
    Completes (.flipComplete) s fun t =>
      t.flip = none ∧ rd64 t (diePage .sign k.die) 0xC18 = (rd64 s (diePage .sign k.die) 0xC18 + 1) % 2 ^ 64 :) ∧
  (∀ (s : State) (d b : Nat) (req : Req) (v : Word),
    d < 9 → b < 2 → Granted s req (diePage .sign d) 0x58 v.toNat → bit v.toNat b = true →
    Completes (.bankRetire d req v) s fun t =>
      (∀ k, k < 9 → retired t k b = true) :) ∧
  (∀ (s : State) (d b : Nat) (req : Req),
    d < 9 → b < 2 → Readable s req (diePage .sign d) (0x5C + 4 * b) →
    Completes (.epsumRead d req b) s fun t =>
      t.out = s.out ++ [.data req (BitVec.ofNat 32 (epSum s d b))] :) ∧
  (∀ (s : State) (old : Nat),
    old = 1 - fd s (hubPage .sign) fSIGN_STATUS_INJ_EPOCH → s.flip = none → retired s 8 old = false → epTotal s old ≠ 0 →
    Completes (.epochDrainTimeout) s fun t =>
      (∀ k, k < 9 → retired t k old = true) :) ∧
  (∀ (s : State) (c : Nat) (req : Req) (v : Word),
    c < 1152 → Granted s req (rPage c) 0x68 (v.toNat ||| 1) →
    Completes (.signpostCacheFlush c req v) s fun t =>
      (∀ en, cacheLook t c en = none) :) ∧
  (∀ (s : State) (c : Nat) (req : Req) (lo hi : Word),
    c < 1152 → Granted s req (rPage c) 0x50 lo.toNat → Granted s req (rPage c) 0x54 hi.toNat → retired s (c / 144) (fd s (rPage c) fROUT_REP_SEL_BANK) = true →
    Completes (.replicationEntryCommit c req lo hi) s fun t =>
      repWord t c (fd s (rPage c) fROUT_REP_SEL_BANK) (fd s (rPage c) fROUT_REP_SEL_ENTRY) (fd s (rPage c) fROUT_REP_SEL_WORD) = lo.toNat + 2 ^ 32 * hi.toNat :) ∧
  (∀ (s : State) (c : Nat) (req : Req) (v : Word),
    c < 1152 → Granted s req (rPage c) 0x60 v.toNat →
    Completes (.routPortSelWrite c req v) s fun t =>
      fd t (rPage c) fROUT_PORT_SEL_PORT = bits v.toNat 0 3 ∧ fd t (rPage c) fROUT_PORT_STAT_FREE_REQ = bufFree s c (bits v.toNat 0 3) 0 % 32 :)

/-- A message whose first flit names its type and a node of a die, or with DDIE 15 every die, has its effect there: REGWR is a write
of its page, offset and value at one place; REGRD answers REGRSP with the word and the code; REGRSP hands its data to the
requester; INT tells the node the page; a step start gives every core of the context on the die the milestone number; DIGEST is
held by the source's node; MBOX writes a core's mailbox, or is held at another node; INVAL drops the matching cache entries and is
acknowledged; FLIP sets the interface's injection epoch and is acknowledged; an ACK marks its interface; EPSUM answers the die's
sum. The failover of a die hub's link turns to its alternate. (R310, R313, R314, R318, R319, R320, R321) -/
def Obligations.FootpathCommandsComplete : Prop :=
  (∀ (s : State) (flit : Word) (req : Req) (page off : Nat) (v : Word),
    flitMtype flit = 1 → ((flitDdie flit < 11 ∧ nodeOk (flitDdie flit) (flitDnode flit) = true ∨ flitDdie flit = 15 ∧ nodeOk 0 (flitDnode flit) = true)) →
    Completes (.footpathRegwr flit req page off v) s fun t =>
      (flitOwns flit page = true → t = registerWrite s req (page % 32768) (off % 4096) v.toNat 15) ∧ (flitOwns flit page = false → t = s) :) ∧
  (∀ (s u : State) (flit : Word) (req : Req) (page off x code : Nat),
    flitMtype flit = 2 → flitDdie flit < 11 → nodeOk (flitDdie flit) (flitDnode flit) = true → flitOwns flit page = true → readCode s req (page % 32768) (off % 4096) = (u, x, code) →
    Completes (.footpathRegrd flit req page off) s fun t =>
      t = send u (.regRsp (flitTo (flitSdie flit) (flitSnode flit) (flitDdie flit) (pageNode page) 3) req (BitVec.ofNat 32 x) code) :) ∧
  (∀ (s : State) (flit : Word) (req : Req) (v : Word),
    flitMtype flit = 3 → flitDdie flit < 11 → nodeOk (flitDdie flit) (flitDnode flit) = true →
    Completes (.footpathRegrsp flit req v) s fun t =>
      t.out = s.out ++ [.data req v] :) ∧
  (∀ (s : State) (flit : Word) (page : Nat),
    flitMtype flit = 4 → flitDdie flit < 11 → nodeOk (flitDdie flit) (flitDnode flit) = true →
    Completes (.footpathInt flit page) s fun t =>
      t.out = s.out ++ [.intAt (flitDdie flit) (flitDnode flit) (page % 32768)] :) ∧
  (∀ (s : State) (flit mile : Word) (id c : Nat),
    flitMtype flit = 5 → flitDdie flit < 8 → nodeOk (flitDdie flit) (flitDnode flit) = true → c ∈ dieCtxCores s (flitDdie flit) id →
    Completes (.stepMessage flit id mile) s fun t =>
      rd t (corePage .core c) 0x54 = mile.toNat ∧ bit (seqr t c).causes 0 = true :) ∧
  (∀ (s : State) (flit mile : Word) (x : DWord),
    flitMtype flit = 6 → flitDdie flit < 11 → nodeOk (flitDdie flit) (flitDnode flit) = true →
    Completes (.digestMessage flit mile x) s fun t =>
      tget (0, 0) (net t (flitDdie flit)).digests (flitSnode flit) = (mile.toNat, x) :) ∧
  (∀ (s : State) (flit v : Word),
    flitMtype flit = 9 → flitDdie flit < 8 → flitDnode flit < 144 → coreGone s (144 * flitDdie flit + flitDnode flit) = false →
    Completes (.mboxMessage flit v) s fun t =>
      (seqr t (144 * flitDdie flit + flitDnode flit)).mboxIn = v ∧ (seqr t (144 * flitDdie flit + flitDnode flit)).causes = (seqr s (144 * flitDdie flit + flitDnode flit)).causes ||| 8 :) ∧
  (∀ (s : State) (flit v : Word),
    flitMtype flit = 9 → flitDdie flit < 11 → nodeOk (flitDdie flit) (flitDnode flit) = true → ((8 ≤ flitDdie flit ∨ 144 ≤ flitDnode flit)) →
    Completes (.mboxMessage flit v) s fun t =>
      (net t (flitDdie flit)).mbox = (net s (flitDdie flit)).mbox ++ [(flitSnode flit, v)] :) ∧
  (∀ (s : State) (flit sel : Word) (en : Nat),
    flitMtype flit = 0xA → flitDdie flit < 8 → flitDnode flit < 144 → castHits (invalOf sel) en = true →
    Completes (.invalMessage flit sel) s fun t =>
      cacheLook t (144 * flitDdie flit + flitDnode flit) en = none ∧ t.out = s.out ++ [.invalAck (flitDdie flit) (flitDnode flit)] :) ∧
  (∀ (s : State) (flit e : Word),
    flitMtype flit = 0xB → flitDdie flit < 8 → flitDnode flit < 144 →
    Completes (.flipMessage flit e) s fun t =>
      injEpoch t (flitDdie flit) (flitDnode flit) = e.toNat % 2 ∧ t.out = s.out ++ [.flipAck (flitDdie flit) (flitDnode flit) (e.toNat % 2)] :) ∧
  (∀ (s : State) (flit : Word) (k : Cast) (l r : List Cast),
    flitMtype flit = 0xC → flitDdie flit < 11 → nodeOk (flitDdie flit) (flitDnode flit) = true → s.inval = l ++ k :: r → l.all (fun x => tget false x.acks (256 * flitSdie flit + flitSnode flit)) = true → tget false k.acks (256 * flitSdie flit + flitSnode flit) = false →
    Completes (.footpathAck flit false) s fun t =>
      t.inval = l ++ { k with acks := tput k.acks (256 * flitSdie flit + flitSnode flit) true } :: r ∧ t.flip = s.flip :) ∧
  (∀ (s : State) (flit : Word) (k : Cast),
    flitMtype flit = 0xC → flitDdie flit < 11 → nodeOk (flitDdie flit) (flitDnode flit) = true → s.flip = some k →
    Completes (.footpathAck flit true) s fun t =>
      t.flip = some { k with acks := tput k.acks (256 * flitSdie flit + flitSnode flit) true } ∧ t.inval = s.inval :) ∧
  (∀ (s : State) (flit : Word) (b : Nat),
    flitMtype flit = 0xD → flitDdie flit < 11 → nodeOk (flitDdie flit) (flitDnode flit) = true → b < 2 →
    Completes (.epsumGather flit b) s fun t =>
      t.out = s.out ++ [.data (.die (flitDdie flit)) (BitVec.ofNat 32 (epSum s (flitDdie flit) b))] :) ∧
  (∀ (s : State) (d dest : Nat),
    d < 11 → dest < 11 →
    Completes (.footpathLinkFailover d dest) s fun t =>
      tget false (net t d).alt dest = true ∧ (net t d).sw = (net s d).sw :)

/-- A request that passes the checks joins its slice's queue and is counted; a read that may be served is answered with the bytes at
its place, poisoned where a block is; a write of a slice that does not mirror stores its bytes at its place, changes no other byte
and is acknowledged. A scrub's correction is counted; a refresh changes nothing; a stack's temperature is reported. A write with
GO begins training, whose end makes the stack READY. A granted window opens and ends, its failures counted or cleared. A placement
register of a retired bank takes its word and makes PLACEBUSY 1 until acknowledged, the grant table likewise with GRANTBUSY. EVAC
makes a slice mirror once a retired bank relocates it; its background copy gives the stand-ins every byte not written directly;
CLOSE then closes it. (R334, R336, R337, R338, R339, R343, R344, R348, R349, R350, R355, R356) -/
def Obligations.MemoryCommandsComplete : Prop :=
  (∀ (s : State) (g : Nat) (p : Pkt),
    g < 512 → ((p.type = 8 ∨ p.type = 10)) → reqCode s g p = cOK → (slice s g).q.length < 64 → ((p.type = 10 → ringFull s g = false)) →
    Completes (.sliceRequest g p) s fun t =>
      (slice t g).q = (slice s g).q ++ [p] ∧ rd64 t (memcPage (g / 32)) (if p.type = 8 then 0xC00 else 0xC08) = (rd64 s (memcPage (g / 32)) (if p.type = 8 then 0xC00 else 0xC08) + 1) % 2 ^ 64 :) ∧
  (∀ (s : State) (g : Nat) (p : Pkt),
    g < 512 → ((p.type = 8 ∨ p.type = 10)) → reqCode s g p ≠ cOK →
    Completes (.sliceRequest g p) s fun t =>
      (slice t g).q = (slice s g).q ∧ t.mem = s.mem ∧ (∃ a, (net t (g / 64)).sw = (net s (g / 64)).sw ++ [a] ∧ a.code = reqCode s g p ∧ a.rid = p.rid) :) ∧
  (∀ (s : State) (g i : Nat) (p : Pkt),
    g < 512 → (slice s g).q[i]? = some p → p.type = 8 → mayServe s g i p = true → (blocksOf (phys s p.sepoch p.addr) p.rlen).all (fun x => tget 0 s.merr x == 0) = true →
    Completes (.sliceReadComplete g i .clean false) s fun t =>
      (slice t g).q = (slice s g).q.eraseIdx i ∧ t.mem = s.mem ∧ (∃ a, (net t (g / 64)).sw = (net s (g / 64)).sw ++ [a] ∧ a.type = 9 ∧ a.rid = p.rid ∧ a.data = bytesWords (p.rlen / 8) (memGetAll s.mem (phys s p.sepoch p.addr) p.rlen) ∧ a.code = if (blocksOf (phys s p.sepoch p.addr) p.rlen).any (blockPoison s) then cPOISON else cOK) :) ∧
  (∀ (s : State) (g i x : Nat) (p : Pkt) (bs : List Byte),
    g < 512 → (slice s g).q[i]? = some p → p.type = 10 → mayServe s g i p = true → (slice s g).ss = 0 → x = phys s p.sepoch p.addr → bs = (wordBytes p.data).take p.rlen → MemInv s →
    Completes (.sliceWriteAck g i .clean) s fun t =>
      (slice t g).q = (slice s g).q.eraseIdx i ∧ (∀ a, memGet t.mem a = if x ≤ a ∧ a < x + bs.length then bs.getD (a - x) 0 else memGet s.mem a) ∧ (∃ a, (net t (g / 64)).sw = (net s (g / 64)).sw ++ [a] ∧ a.type = 11 ∧ a.code = cOK ∧ a.rid = p.rid) :) ∧
  (∀ (s : State) (g blk : Nat),
    g < 512 → fb s (memcPage (g / 32)) fMEMC_SCRUB_EN = true → fd s (memcPage (g / 32)) fMEMC_STATUS_STATE = 2 → sliceClosed s g = false → (slice s g).q = [] →
    Completes (.patrolScrub g blk .corrected) s fun t =>
      rd64 t (memcPage (g / 32)) 0xC48 = (rd64 s (memcPage (g / 32)) 0xC48 + 1) % 2 ^ 64 ∧ t.mem = s.mem :) ∧
  (∀ (s : State) (g : Nat),
    g < 512 →
    Completes (.perBankRefresh g) s fun t =>
      t = s :) ∧
  (∀ (s : State) (m temp : Nat),
    m < 16 →
    Completes (.stackTempRead m temp) s fun t =>
      fd t (memcPage m) fMEMC_STATUS_TEMP = temp % 256 ∧ fd t (memcPage m) fMEMC_STATUS_STATE = fd s (memcPage m) fMEMC_STATUS_STATE :) ∧
  (∀ (s : State) (m : Nat) (req : Req) (v : Word),
    m < 16 → Granted s req (memcPage m) 0x44 (v.toNat ||| 1) →
    Completes (.memoryTraining m req v) s fun t =>
      fd t (memcPage m) fMEMC_STATUS_STATE = 1 ∧ (stack t m).train = some (bit v.toNat 1 || !fb s (memcPage m) fMEMC_TRAIN_RECVALID) ∧ (stack t m).window = none :) ∧
  (∀ (s : State) (m quick fail : Nat) (f : Bool),
    m < 16 → (stack s m).train = some f →
    Completes (.trainingComplete m quick fail) s fun t =>
      fd t (memcPage m) fMEMC_STATUS_STATE = 2 ∧ fd t (memcPage m) fMEMC_STATUS_TRAINED = 1 ∧ rd t (memcPage m) 0x48 = (if f then fail else quick) % 2 ^ 32 ∧ (stack t m).train = none :) ∧
  (∀ (s : State) (m ch : Nat),
    m < 16 → ch < 32 → fb s (memcPage m) fMEMC_RECAL_EN = true → fd s (memcPage m) fMEMC_STATUS_STATE = 2 → (stack s m).window = none → sliceClosed s (32 * m + ch) = false → (stack s m).granted = some ch →
    Completes (.recentringWindow m ch) s fun t =>
      (stack t m).window = some ch ∧ fd t (memcPage m) fMEMC_STATUS_RECAL = 1 :) ∧
  (∀ (s : State) (m ch : Nat),
    m < 16 → (stack s m).window = some ch →
    Completes (.recentringEnd m true) s fun t =>
      (stack t m).window = none ∧ (slice t (32 * m + ch)).fails = 0 ∧ fd t (memcPage m) fMEMC_STATUS_RECAL = 0 ∧ rd64 t (memcPage m) 0xC38 = (rd64 s (memcPage m) 0xC38 + 1) % 2 ^ 64 :) ∧
  (∀ (s : State) (m ch : Nat),
    m < 16 → (stack s m).window = some ch → (slice s (32 * m + ch)).fails < 2 →
    Completes (.recentringEnd m false) s fun t =>
      (slice t (32 * m + ch)).fails = (slice s (32 * m + ch)).fails + 1 ∧ rd64 t (memcPage m) 0xC40 = (rd64 s (memcPage m) 0xC40 + 1) % 2 ^ 64 :) ∧
  (∀ (s : State) (m n : Nat) (req : Req) (lo hi : Word),
    m < 16 → 2 ≤ n → n < 34 → Granted s req (memcPage m) (0xA0 + 4 * (n - 2)) lo.toNat → retired s (m / 2) ((n - 2) / 16) = true →
    Completes (.placementWrite m req n lo hi) s fun t =>
      (∀ k, k < 16 → fd t (memcPage k) (fMEMC_SPAREb_k_SLICE.at (n - 2)) = bits lo.toNat 0 5) ∧ (∀ k, k < 16 → fd t (memcPage k) (fMEMC_SPAREb_k_VALID.at (n - 2)) = bits lo.toNat 5 1) ∧ fd t (memcPage m) fMEMC_STATUS_PLACEBUSY = 1 :) ∧
  (∀ (s : State) (m n : Nat) (req : Req) (lo hi : Word),
    m < 16 → n < 2 → Granted s req (memcPage m) (0x80 + 8 * n) lo.toNat → Granted s req (memcPage m) (0x84 + 8 * n) hi.toNat → hi.toNat < 2 ^ 30 → retired s (m / 2) n = true →
    Completes (.placementWrite m req n lo hi) s fun t =>
      (∀ k, k < 16 → rd64 t (memcPage k) (0x80 + 8 * n) = lo.toNat + 2 ^ 32 * hi.toNat) ∧ fd t (memcPage m) fMEMC_STATUS_PLACEBUSY = 1 :) ∧
  (∀ (s : State) (m : Nat),
    m < 16 →
    Completes (.placementAcked m) s fun t =>
      fd t (memcPage m) fMEMC_STATUS_PLACEBUSY = 0 ∧ fd t (memcPage m) fMEMC_STATUS_STATE = fd s (memcPage m) fMEMC_STATUS_STATE :) ∧
  (∀ (s : State) (m : Nat) (req : Req) (v : Word),
    m < 16 → Granted s req (memcPage m) 0x64 v.toNat →
    Completes (.grantWrite m req v) s fun t =>
      (tget 0 t.grant (fd s (memcPage m) fMEMC_GRANT_SEL_INDEX)).toNat = v.toNat % 2 ^ 18 ∧ fd t (memcPage m) fMEMC_STATUS_GRANTBUSY = 1 :) ∧
  (∀ (s : State) (m : Nat),
    m < 16 →
    Completes (.grantAcked m) s fun t =>
      fd t (memcPage m) fMEMC_STATUS_GRANTBUSY = 0 ∧ t.grant = s.grant :) ∧
  (∀ (s : State) (m b : Nat) (req : Req) (v : Word),
    m < 16 → Granted s req (memcPage m) 0x6C (v.toNat ||| 1) → bit v.toNat 1 = false → retiredBank s (m / 2) = some b → spareOf s b m = some (fd s (memcPage m) fMEMC_SLICE_SEL_SLICE) → sliceClosed s (32 * m + fd s (memcPage m) fMEMC_SLICE_SEL_SLICE) = false → (slice s (32 * m + fd s (memcPage m) fMEMC_SLICE_SEL_SLICE)).ss = 0 →
    Completes (.sliceEvacuate m req v) s fun t =>
      (slice t (32 * m + fd s (memcPage m) fMEMC_SLICE_SEL_SLICE)).ss = 1 ∧ t.mem = s.mem :) ∧
  (∀ (s : State) (g : Nat),
    g < 512 → (slice s g).ss = 1 → MemInv s →
    Completes (.sliceEvacuated g) s fun t =>
      (slice t g).ss = 2 ∧ (∀ off, off < 992 * 2 ^ 21 → tget false (slice s (standIn (g / 32) (g % 32) off).1).marks (physOf (standIn (g / 32) (g % 32) off).1 (standIn (g / 32) (g % 32) off).2 / 64) = false → memGet t.mem (physOf (standIn (g / 32) (g % 32) off).1 (standIn (g / 32) (g % 32) off).2) = memGet s.mem (physOf g off)) :) ∧
  (∀ (s : State) (m : Nat) (req : Req) (v : Word),
    m < 16 → Granted s req (memcPage m) 0x6C (v.toNat ||| 2) → bit v.toNat 0 = false → sliceClosed s (32 * m + fd s (memcPage m) fMEMC_SLICE_SEL_SLICE) = false → sliceCloseReady s m (fd s (memcPage m) fMEMC_SLICE_SEL_SLICE) = true → (slice s (32 * m + fd s (memcPage m) fMEMC_SLICE_SEL_SLICE)).ss ≠ 1 → GradeHolds s →
    Completes (.sliceClose m req v) s fun t =>
      (slice t (32 * m + fd s (memcPage m) fMEMC_SLICE_SEL_SLICE)).ss = 3 ∧ sliceClosed t (32 * m + fd s (memcPage m) fMEMC_SLICE_SEL_SLICE) = true :)

/-- Precoded levels are undone by the receiver; a scrambled message is plain again under the same seed; the 5,140 bits of a message
read back as its header and data, since its CRC matches; a header that a block holds is written again as it was read, whatever its
type; the payload's blocks give back its words, zero after its last byte; a packet takes its count of blocks. What the decoder
answers has no syndrome left and differs from what came in the number of symbols it says, 15 at most. The field's and the code's
constants, taken from IEEE 802.3 Clause 119, and the order of bits within symbols and levels are the model's (log entry 171). (R294, R295, R362, R364, R366, R367, R408) -/
def Obligations.LinkCodingReadsBack : Prop :=
  (∀ (prev : Nat) (l : List Nat),
    (∀ v ∈ l, v < 4) →
    unprecode prev (precode prev l) = l :) ∧
  (∀ (x : BitVec 58) (l : List Bool),
    scramble x (scramble x l) = l :) ∧
  (∀ (v : Nat),
    v < 4 →
    grayBits (grayLevel v) = v ∧ grayLevel (grayBits v) = v :) ∧
  (∀ (m : Message),
    m.lane < 8 → m.fseq < 4 → m.first < 32 → m.data.length = 80 →
    Message.ofBits m.bits = some m ∧ m.bits.length = 5140 :) ∧
  (∀ (b : LineBlk),
    pktOf ((pktBlks (pktOf b)).headD {}) = pktOf b :) ∧
  (∀ (k : Pkt) (i : Nat),
    8 * i < payload k →
    (pktWith k ((pktBlks k).tail.map (·.w)).flatten).data.getD i 0 = payWord k i :) ∧
  (∀ (k : Pkt),
    (pktBlks k).length = blkCount k :) ∧
  (∀ (r c : List Nat) (n : Nat),
    r.length = 544 → rsDecode r = some (c, n) →
    rsClean c = true ∧ n ≤ 15 ∧ c.length = 544 ∧ n = ((List.range 544).filter (fun i => c.getD i 0 != r.getD i 0)).length :)

/-- A good codeword's blocks join those of the frame and lane its own header names, and the last lane's codeword has the frame read; a
bad one is counted on its lane, and a lane out of lock receives nothing. A frame sent is one codeword on each lane of the map,
holds first a link block that is due, else the next packet, and advances FRAME. IDENT records the peer; one that mismatches takes
the port to MISMATCH. SPARE_READY, SWAP_REQ and EQ_ADJ are noted; HALF_REQ and HALF_ACK take a port with lanes enough to half
width. A routed control packet is consumed and counted. ENABLE, signal, training, the check, its failure, loss of signal, the
hold, RETRAIN and DISABLE move STATE as R376 has it. A failed lane with a spare ready asks for the swap; a retrained spare is
announced; a rotation step asks for its swap; a swap moves the lane. A half-width port is retrained from SIGNAL. Where the grade
may change, no module reset follows (R537). (R366, R368, R369, R372, R376, R377, R378, R379, R382, R383, R384, R385) -/
def Obligations.LinkCommandsComplete : Prop :=
  (∀ (s : State) (p lane : Nat) (cw : Codeword) (m : Message) (n : Nat),
    p < 40 → lane < 9 → pState s p = 3 → bit (port s p).unlocked lane = false → codewordRead (tget {} (port s p).rxCode lane) cw.line = some (m, n) → m.spare = false → (port s p).asm = [] → (port s p).rxFrame < 2 ^ 32 - 2 → m.fseq % 4 = (port s p).rxFrame % 4 → 2 ≤ (lmapLanes (rd s (portPage p) 0x54)).length →
    Completes (.codewordReceive p lane cw) s fun t =>
      (port t p).asm = [((port s p).rxFrame, [(m.lane, messageBlks m cw.side)])] ∧ rd64 t (portPage p) 0xC00 = (rd64 s (portPage p) 0xC00 + 1) % 2 ^ 64 ∧ rd64 t (portPage p) 0xC10 = (rd64 s (portPage p) 0xC10 + n) % 2 ^ 64 ∧ tget {} (port t p).rxCode lane = (tget {} (port s p).rxCode lane).after cw.line ∧ tget 0 (port t p).bad lane = 0 ∧ (port t p).rx = (port s p).rx :) ∧
  (∀ (s : State) (p lane : Nat) (cw : Codeword) (m : Message) (n : Nat),
    p < 40 → lane < 9 → pState s p = 3 → bit (port s p).unlocked lane = false → codewordRead (tget {} (port s p).rxCode lane) cw.line = some (m, n) → m.spare = false → (port s p).rxFrame < 2 ^ 32 - 2 → m.fseq % 4 = (port s p).rxFrame % 4 → (port s p).asm = [((port s p).rxFrame, (port s p).asm.headD (0, []) |>.2)] → (lmapLanes (rd s (portPage p) 0x54)).length = (tput ((port s p).asm.headD (0, []) |>.2) m.lane (messageBlks m cw.side)).length →
    Completes (.codewordReceive p lane cw) s fun t =>
      (port t p).rxFrame = (port s p).rxFrame + 1 ∧ (port t p).asm = [] :) ∧
  (∀ (s : State) (p lane : Nat) (cw : Codeword),
    p < 40 → lane < 9 → pState s p = 3 → bit (port s p).unlocked lane = false → codewordRead (tget {} (port s p).rxCode lane) cw.line = none → (port s p).asm = [] → 2 ≤ (lmapLanes (rd s (portPage p) 0x54)).length →
    Completes (.codewordReceive p lane cw) s fun t =>
      tget 0 (port t p).bad lane = tget 0 (port s p).bad lane + 1 ∧ bit (port t p).unlocked lane = decide (4 ≤ tget 0 (port s p).bad lane + 1) ∧ rd64 t (portPage p) 0xC18 = (rd64 s (portPage p) 0xC18 + 1) % 2 ^ 64 ∧ (port t p).rx = (port s p).rx :) ∧
  (∀ (s : State) (p lane : Nat) (cw : Codeword),
    p < 40 → lane < 9 → 3 ≤ pState s p → pState s p ≤ 5 → bit (port s p).unlocked lane = true →
    Completes (.codewordReceive p lane cw) s fun t =>
      t = setPort s p { port s p with rxCode := tput (port s p).rxCode lane ((tget {} (port s p).rxCode lane).after cw.line) } :) ∧
  (∀ (s : State) (p : Nat) (aged : List Nat),
    p < 40 → 3 ≤ pState s p → pState s p ≤ 5 → s.twin.fenced = false → fb s (diePage .clk (portDie p)) fCLK_STATUS_SREF_LOST = false → (port s p).swapTx = none → (port s p).txSpare = none → (lmapLanes (rd s (portPage p) 0x50)).Nodup →
    Completes (.codewordTransmit ⟨p, aged⟩) s fun t =>
      t.out = s.out ++ (List.range (lmapLanes (rd s (portPage p) 0x50)).length).map (fun i => .codeword p ((lmapLanes (rd s (portPage p) 0x50)).getD i 15) { line := codewordWrite (tget {} (port s p).txCode ((lmapLanes (rd s (portPage p) 0x50)).getD i 15)) (laneMessage (lmapLanes (rd s (portPage p) 0x50)).length (fd s (portPage p) fPORT_FRAME_FRAME) i (fillFrame s p { aged := aged } (20 * (lmapLanes (rd s (portPage p) 0x50)).length)).2.blks), side := laneSide (lmapLanes (rd s (portPage p) 0x50)).length i (fillFrame s p { aged := aged } (20 * (lmapLanes (rd s (portPage p) 0x50)).length)).2.blks }) ∧ fd t (portPage p) fPORT_FRAME_FRAME = (fd s (portPage p) fPORT_FRAME_FRAME + 1) % 2 ^ 32 :) ∧
  (∀ (s : State) (p : Nat) (aged : List Nat) (b : LinkBlk) (l : List LinkBlk),
    p < 40 → 3 ≤ pState s p → pState s p ≤ 5 → s.twin.fenced = false → fb s (diePage .clk (portDie p)) fCLK_STATUS_SREF_LOST = false → (port s p).blks = b :: l → (port s p).rest = [] → lmapLanes (rd s (portPage p) 0x50) ≠ [] →
    Completes (.codewordTransmit ⟨p, aged⟩) s fun t =>
      (fillFrame s p { aged := aged } (20 * (lmapLanes (rd s (portPage p) 0x50)).length)).2.blks.headD {} = linkBlk { b with off := fd s (portPage p) fPORT_FC_RXOFF } ∧ (port t p).blks = (b :: l).drop (20 * (lmapLanes (rd s (portPage p) 0x50)).length) ∧ (port t p).quiet = 0 :) ∧
  (∀ (s : State) (p : Nat) (aged : List Nat) (k : Pkt),
    p < 40 → live s p = true → (port s p).quiet < 15 → s.twin.fenced = false → fb s (diePage .clk (portDie p)) fCLK_STATUS_SREF_LOST = false → (port s p).blks = [] → (port s p).rest = [] → (port s p).tx = [k] → mayStart s p k = true → 4 ≤ (lmapLanes (rd s (portPage p) 0x50)).length → blkCount k ≤ 19 →
    Completes (.codewordTransmit ⟨p, aged⟩) s fun t =>
      (fillFrame s p { aged := aged } (20 * (lmapLanes (rd s (portPage p) 0x50)).length)).2.blks.take (blkCount k) = pktBlks k ∧ (port t p).tx = [] ∧ (port t p).rest = [] ∧ rd64 t (portPage p) 0xC20 = (rd64 s (portPage p) 0xC20 + 1) % 2 ^ 64 :) ∧
  (∀ (s : State) (p i : Nat) (aged : List Nat) (k : Pkt),
    live s p = true → (port s p).quiet < 15 → (port s p).blks = [] → txPick s p aged = some i → (port s p).tx[i]? = some k →
    (fillNext s p { aged := aged }).2.2 = pktBlks k ∧ (port (fillNext s p { aged := aged }).1 p).tx = (port s p).tx.eraseIdx i :) ∧
  (∀ (s : State) (p dev peer kind : Nat),
    p < 40 → pState s p ≠ 0 → pState s p ≠ 7 → ((pState s p = 6 ∨ mismatch s p (dev % 1024) (peer % 64) (kind % 2) = false)) → GradeHolds s →
    Completes (.identBlock p dev peer kind) s fun t =>
      fd t (portPage p) fPORT_PEER_DEVICE = dev % 1024 ∧ fd t (portPage p) fPORT_PEER_VALID = 1 ∧ pState t p = pState s p :) ∧
  (∀ (s : State) (p dev peer kind : Nat),
    p < 40 → pState s p ≠ 0 → pState s p ≠ 6 → pState s p ≠ 7 → mismatch s p (dev % 1024) (peer % 64) (kind % 2) = true → GradeHolds s →
    Completes (.identBlock p dev peer kind) s fun t =>
      pState t p = 6 ∧ bit (intRaw t (portPage p)) 11 = true :) ∧
  (∀ (s : State) (p plane : Nat),
    p < 40 → isUp s p = true → (port s p).txSpare = some plane →
    Completes (.spareReady p plane) s fun t =>
      fb t (portPage p) fPORT_STATUS_TXSPARE = true ∧ pState t p = pState s p :) ∧
  (∀ (s : State) (p lane plane : Nat) (frame : Word),
    p < 40 → isUp s p = true → (port s p).rxSpare = some plane → fb s (portPage p) fPORT_STATUS_RXSPARE = true →
    Completes (.swapReq p lane plane frame) s fun t =>
      (port t p).swapRx = some { lane := lane % 8, spare := plane, frame := frame.toNat } :) ∧
  (∀ (s : State) (p l : Nat),
    p < 40 → pState s p = 4 → isUp (toHalf (fdSet s (portPage p) fPORT_LANE_TXFAIL (fd s (portPage p) fPORT_LANE_TXFAIL ||| 2 ^ (l % 9))) p) p = true → GradeHolds s →
    Completes (.halfReq ⟨p, l⟩) s fun t =>
      pState t p = 5 ∧ (port t p).blks = (port s p).blks ++ [laneBlk 3 0 0 0] ∧ bit (fd t (portPage p) fPORT_LANE_TXFAIL) (l % 9) = true :) ∧
  (∀ (s : State) (p : Nat),
    p < 40 → pState s p = 4 → (port s p).halfAsk = true → isUp (toHalf s p) p = true → GradeHolds s →
    Completes (.halfAck p) s fun t =>
      pState t p = 5 ∧ (port t p).halfAsk = false :) ∧
  (∀ (s : State) (p plane : Nat) (x : DWord),
    p < 40 → plane < 9 → 2 ≤ pState s p → pState s p ≤ 5 →
    Completes (.eqAdj p plane x) s fun t =>
      tget 0 (port t p).eq plane = x :) ∧
  (∀ (s : State) (p : Nat) (k : Pkt),
    p < 40 → k.type = 14 → k.ddev = xDev s (portDie p) → xRetired s (portDie p) k.xepoch = false → 1 ≤ k.code → k.code ≤ 4 → 1 ≤ k.rlen → k.rlen ≤ 68 →
    Completes (.routedControlPacket p k) s fun t =>
      t.out = s.out ++ [.ctl (rewriteFlit p k)] ∧ (port t p).rx = (port s p).rx.erase k ∧ rd64 t (xPage (portDie p)) 0xC28 = (rd64 s (xPage (portDie p)) 0xC28 + 1) % 2 ^ 64 ∧ (k.code = 4 → (net t 8).ends = (net s 8).ends ++ [rewriteFlit p k]) :) ∧
  (∀ (s : State) (p : Nat) (req : Req) (v : Word),
    p < 40 → Granted s req (portPage p) 0x44 (v.toNat ||| 1) → bit v.toNat 1 = false → pState s p = 0 → closed s (cmPort p) = false →
    Completes (.portEnable p req v) s fun t =>
      pState t p = 1 ∧ fd t (portPage p) fPORT_CTL_ENABLE = 1 :) ∧
  (∀ (s : State) (p : Nat) (req : Req) (v : Word),
    p < 40 → Granted s req (portPage p) 0x44 (v.toNat &&& 0xFFFFFFFE) → bit v.toNat 1 = false → GradeHolds s →
    Completes (.portDisable p req v) s fun t =>
      pState t p = 0 ∧ fd t (portPage p) fPORT_CTL_ENABLE = 0 :) ∧
  (∀ (s : State) (p lanes : Nat),
    p < 40 → pState s p = 1 → 4 ≤ lanes →
    Completes (.portSignalDetect p lanes) s fun t =>
      pState t p = 2 :) ∧
  (∀ (s : State) (p rxm txm : Nat),
    p < 40 → pState s p = 2 → (fb s (portPage p) fPORT_PEER_VALID && mismatch s p (fd s (portPage p) fPORT_PEER_DEVICE) (fd s (portPage p) fPORT_PEER_PORT) (fd s (portPage p) fPORT_PEER_KIND)) = false →
    Completes (.portTrainingDone p rxm txm) s fun t =>
      pState t p = (if (goodLanes (openLanes s p 0 rxm)).length < 7 ∨ (goodLanes (openLanes s p 1 txm)).length < 7 then 7 else 3) :) ∧
  (∀ (s : State) (p : Nat),
    p < 40 → pState s p = 3 → checkBad s p true = [] → GradeHolds s →
    Completes (.portCheckDone p true) s fun t =>
      pState t p = (if (lmapLanes (rd s (portPage p) 0x54)).length = 8 then 4 else 5) ∧ bit (intRaw t (portPage p)) 13 = true :) ∧
  (∀ (s : State) (p : Nat),
    p < 40 → pState s p = 3 → checkBad s p false ≠ [] → ((∀ l ∈ checkBad s p false, bit (port s p).tried l = false)) →
    Completes (.portCheckDone p false) s fun t =>
      pState t p = 2 ∧ (∀ l ∈ checkBad s p false, bit (port t p).tried l = true) ∧ (port t p).force = true :) ∧
  (∀ (s : State) (p : Nat),
    p < 40 → pState s p = 7 →
    Completes (.portDownExpiry p) s fun t =>
      pState t p = 1 :) ∧
  (∀ (s : State) (p : Nat) (req : Req) (v : Word),
    p < 40 → Granted s req (portPage p) 0x44 (v.toNat ||| 2) → bit v.toNat 0 = true → pState s p ≠ 0 → GradeHolds s →
    Completes (.portRetrain p req v) s fun t =>
      pState t p = 2 :) ∧
  (∀ (s : State) (p plane l sp : Nat) (los : Bool),
    p < 40 → plane < 9 → isUp s p = true → logicalOf (rd s (portPage p) 0x54) plane = some l → fb s (portPage p) fPORT_STATUS_RXSPARE = true → (port s p).rxSpare = some sp → GradeHolds s →
    Completes (.laneFailure p plane los) s fun t =>
      (port t p).swapRx = some { lane := l, spare := sp, frame := (fd s (portPage p) fPORT_FRAME_FRAME + 64) % 2 ^ 32 } ∧ bit (fd t (portPage p) fPORT_LANE_RXFAIL) plane = true ∧ bit (intRaw t (portPage p)) 9 = true :) ∧
  (∀ (s : State) (p sp : Nat),
    p < 40 → isUp s p = true → (port s p).rxSpare = some sp → fb s (portPage p) fPORT_STATUS_RXSPARE = false → closed s (cmLane p 0 sp) = false →
    Completes (.spareRetrainDone p) s fun t =>
      fb t (portPage p) fPORT_STATUS_RXSPARE = true ∧ (port t p).blks = (port s p).blks ++ [laneBlk 0 0 sp 0] :) ∧
  (∀ (s : State) (p sp l : Nat),
    p < 40 → isUp s p = true → (port s p).txSpare = some sp → (port s p).granted = true → (port s p).swapTx = none → fb s (portPage p) fPORT_CTL_ROT_EN = true → fb s (portPage p) fPORT_STATUS_TXSPARE = true → nextLane (rd s (portPage p) 0x50) sp = some l →
    Completes (.rotationStep p) s fun t =>
      (port t p).swapTx = some { lane := l, spare := sp, frame := (fd s (portPage p) fPORT_FRAME_FRAME + 64) % 2 ^ 32 } ∧ (port t p).blks = (port s p).blks ++ [laneBlk 1 l sp ((fd s (portPage p) fPORT_FRAME_FRAME + 64) % 2 ^ 32)] ∧ (port t p).granted = false :) ∧
  (∀ (s : State) (p : Nat) (tx : Bool) (x : Swap),
    p < 40 → (if tx then (port s p).swapTx else (port s p).swapRx) = some x → swapDue (if tx then fd s (portPage p) fPORT_FRAME_FRAME else (port s p).rxFrame) x.frame = true →
    Completes (.laneSwap p tx) s fun t =>
      rd t (portPage p) (if tx then 0x50 else 0x54) = setBits (rd s (portPage p) (if tx then 0x50 else 0x54)) (4 * x.lane) 4 x.spare % 2 ^ 32 ∧ (if tx then (port t p).swapTx else (port t p).swapRx) = none ∧ rd64 t (portPage p) 0xC40 = (rd64 s (portPage p) 0xC40 + 1) % 2 ^ 64 :) ∧
  (∀ (s : State) (p : Nat),
    p < 40 → pState s p = 5 → (port s p).lastHalf = none → closed s (cmPort p) = false → GradeHolds s →
    Completes (.halfWidthRetrain p) s fun t =>
      pState t p = 1 ∧ (port t p).lastHalf = some s.now :) ∧
  (∀ (s : State) (p : Nat),
    p < 40 → isUp s p = true → GradeHolds s →
    Completes (.portDown p) s fun t =>
      pState t p = 7 ∧ rd64 t (portPage p) 0xC48 = (rd64 s (portPage p) 0xC48 + 1) % 2 ^ 64 ∧ bit (intRaw t (portPage p)) 8 = true :)

/-- A packet for another module that came by the carriageway and whose entry has a live port of its first set on this port die is
queued at the port its flow's hash picks, under the XEPOCH of its injection or its own, and counted; one that came by a port and
is for this module enters the carriageway at the port's interface. XTAB_XCTL with GO flips both port dies once the other bank is
retired, and clears the new epoch's RETIRE; RETIRE retires a bank. XTAB_EDATA3 commits the four words of the selected entry of a
retired bank at once. (R386, R388, R389, R393, R394, R395, R401) -/
def Obligations.RouteCommandsComplete : Prop :=
  (∀ (s : State) (pd d inp b e n k : Nat) (p : Pkt),
    pd < 2 → d = 9 + pd → 40 ≤ inp → routes s d inp p = true → p.ddev ≠ xDev s d → b = (if p.sdev = xDev s d then injX s d else p.xepoch) → xRetired s d b = false → e = routeEnt s d b p.ddev → bit e 120 = true → n = (liveOf s (bits e 0 40)).length → n ≠ 0 → k = (liveOf s (bits e 0 40)).getD (Nat.xor (Nat.xor (Nat.xor p.sdev p.sdie) (Nat.xor p.sunit p.ddie)) p.dunit % n) 0 → portDie k = d →
    Completes (.deviceRoute pd inp p) s fun t =>
      (port t k).tx = (port s k).tx ++ [{ p with xepoch := b }] ∧ rd64 t (xPage d) 0xC00 = (rd64 s (xPage d) 0xC00 + 1) % 2 ^ 64 :) ∧
  (∀ (s : State) (pd d inp : Nat) (p : Pkt),
    pd < 2 → d = 9 + pd → inp < 40 → routes s d inp p = true → p.ddev = xDev s d → flowFirst s d inp p = true → shadowAnswer s d inp p = false → xRetired s d p.xepoch = false →
    Completes (.deviceRoute pd inp p) s fun t =>
      (net t d).sw = (net s d).sw ++ [{ p with sepoch := injEpoch s d (portUnit inp), auth := entryAuth inp p, via := portUnit inp }] ∧ (port t inp).rx = (port s inp).rx.erase p :) ∧
  (∀ (s : State) (pd d : Nat) (req : Req) (v : Word),
    pd < 2 → d = 9 + pd → Granted s req (xPage d) 0x48 (v.toNat ||| 2) → bits v.toNat 2 2 = 0 → xFlipping s = false → xRetired s 9 (1 - injX s d) = true → xRetired s 10 (1 - injX s d) = true →
    Completes (.xepochFlip pd req v) s fun t =>
      injX t d = bits v.toNat 0 1 ∧ fd t (xPage 9) fXTAB_STATUS_INJ_XEPOCH = bits v.toNat 0 1 ∧ fd t (xPage 10) fXTAB_STATUS_INJ_XEPOCH = bits v.toNat 0 1 ∧ (bits v.toNat 0 1 ≠ injX s d → injX t (19 - d) = injX s d ∧ xFlipping t = true ∧ (tget {} t.routes (19 - d)).late ≤ t.now + usTicks 1) ∧ xRetired t d (bits v.toNat 0 1) = false :) ∧
  (∀ (s : State) (pd d b : Nat) (req : Req) (v : Word),
    pd < 2 → d = 9 + pd → b < 2 → Granted s req (xPage d) 0x48 (v.toNat ||| (4 * 2 ^ b)) → bit v.toNat 1 = false →
    Completes (.xepochRetire pd req v b) s fun t =>
      xRetired t d b = true ∧ injX t d = injX s d :) ∧
  (∀ (s : State) (pd d : Nat) (req : Req) (v : Word),
    pd < 2 → d = 9 + pd → Granted s req (xPage d) 0x74 v.toNat → xRetired s d (fd s (xPage d) fXTAB_ESEL_BANK) = true →
    Completes (.routeEntryCommit pd req v) s fun t =>
      (tget 0 (routesOf t d).ent (edataKey s d)).toNat = (tget (BitVec.ofNat 32 (edataWord s d 0)) (routesOf s d).stage 0).toNat + 2 ^ 32 * (tget (BitVec.ofNat 32 (edataWord s d 1)) (routesOf s d).stage 1).toNat + 2 ^ 64 * (tget (BitVec.ofNat 32 (edataWord s d 2)) (routesOf s d).stage 2).toNat + 2 ^ 96 * (v.toNat % 2 ^ 25) ∧ (routesOf t d).stage = [] :)

/-- A memory request from the partner for the shadow, while bound, enters the carriageway with AUTH 2; any other is refused with
DENIED and counted. A port die's heartbeats leave on both its live ports; a received one gives the partner's PSTATE, whether its
firmware is alive and the milestone it holds. A period missed counts; the last one with no port up starts the fabric query; a
query unanswered by a module in neither mode ends the pair at BOUND. FENCE surrenders the module; CWHOLD's expiry detaches it.
TWIN_BIND binds, attaches, asks to detach and unbinds where the partner agrees; TWIN_CTRL does the same at the partner, and tells
the milestone held. HBCNT is stored with its time. (R406, R408, R409, R424, R425, R426, R427) -/
def Obligations.TwinCommandsComplete : Prop :=
  (∀ (s : State) (w : Nat) (p : Pkt),
    w < 4 → ((p.type = 8 ∨ p.type = 10)) → pst s ≠ 0 → inShadow s p.addr p.rlen = true →
    Completes (.causewayMemoryRequest w p) s fun t =>
      (net t (portDie (36 + w))).sw = (net s (portDie (36 + w))).sw ++ [{ p with auth := 2, sepoch := injEpoch s (portDie (36 + w)) (portUnit (36 + w)), via := portUnit (36 + w) }] ∧ (port t (36 + w)).rx = (port s (36 + w)).rx.erase p :) ∧
  (∀ (s : State) (w : Nat) (p a : Pkt),
    w < 4 → ((p.type = 8 ∨ p.type = 10)) → ((pst s = 0 ∨ inShadow s p.addr p.rlen = false)) → refusal p cDENIED = some a →
    Completes (.causewayMemoryRequest w p) s fun t =>
      (port t (36 + w)).tx = (port s (36 + w)).tx ++ [a] ∧ rd64 t (cwPage w) 0xD30 = (rd64 s (cwPage w) 0xD30 + 1) % 2 ^ 64 ∧ bit (intRaw t (cwPage w)) 19 = true :) ∧
  (∀ (s : State) (pd : Nat),
    pd < 2 → pst s ≠ 0 → s.twin.fenced = false → live s (36 + 2 * pd) = true → live s (37 + 2 * pd) = true →
    Completes (.heartbeatSend pd) s fun t =>
      (port t (36 + 2 * pd)).tx = (port s (36 + 2 * pd)).tx ++ [twinPkt s (2 * pd) (.heartbeat (pst s) (twinMode s) (cwMask s) (fwAlive s) (fd s twinPage fCAUSE_HELD_MILE) (fd s twinPage fCAUSE_SENT_MILE))] ∧ (port t (37 + 2 * pd)).tx = (port s (37 + 2 * pd)).tx ++ [twinPkt s (2 * pd + 1) (.heartbeat (pst s) (twinMode s) (cwMask s) (fwAlive s) (fd s twinPage fCAUSE_HELD_MILE) (fd s twinPage fCAUSE_SENT_MILE))] :) ∧
  (∀ (s : State) (w p : Nat) (alive : Bool) (held : Word),
    w < 4 → pst s ≠ 0 →
    Completes (.heartbeatReceive w p alive held) s fun t =>
      t.twin.partnerP = p ∧ fd t twinPage fCAUSE_ACKED_MILE = held.toNat ∧ t.twin.missed = (if alive then 0 else s.twin.missed) :) ∧
  (∀ (s : State) (quiet : Nat),
    pst s ≠ 0 → s.twin.missed + 1 < fd s twinPage fCAUSE_HB_MISSES →
    Completes (.heartbeatPeriodMissed quiet) s fun t =>
      t.twin.missed = s.twin.missed + 1 ∧ pst t = pst s :) ∧
  (∀ (s : State) (quiet : Nat),
    ((pst s = 2 ∨ pst s = 3 ∨ pst s = 4 ∨ pst s = 7)) → fd s twinPage fCAUSE_HB_MISSES ≤ s.twin.missed + 1 → s.twin.query = none → cwUp s = [] →
    Completes (.heartbeatPeriodMissed quiet) s fun t =>
      t.twin.query = some s.now ∧ t.out.getLast? = some (.notice { dev := partner s, kind := 2 }) :) ∧
  (∀ (s : State),
    s.twin.query.isSome = true → s.twin.mode ≠ 1 → s.twin.mode ≠ 2 → ((pst s = 2 ∨ pst s = 3 ∨ pst s = 4 ∨ pst s = 7)) → s.twin.role ≠ 5 →
    Completes (.queryTimeout) s fun t =>
      pst t = 1 ∧ t.twin.query = none ∧ bit (intRaw t twinPage) 16 = true :) ∧
  (∀ (s : State),
    pst s ≠ 2 → pst s ≠ 3 → pst s ≠ 4 → pst s ≠ 7 →
    Completes (.queryTimeout) s fun t =>
      pst t = pst s ∧ t.twin.query = s.twin.query :) ∧
  (∀ (s : State) (w : Nat),
    w < 4 → pst s ≠ 0 →
    Completes (.fence w) s fun t =>
      pst t = 6 ∧ t.twin.fenced = true ∧ bit (intRaw t twinPage) 20 = true :) ∧
  (∀ (s : State),
    pst s = 4 → cwUp s = [] →
    Completes (.cwholdExpiry) s fun t =>
      pst t = 1 ∧ t.twin.mode = 0 :) ∧
  (∀ (s : State) (r side named : Nat) (k : HCmd),
    r < 128 → k.ring < 64 → nextCmd s r 7 = some k → entBytes k.entry 8 1 = 1 → entBytes k.entry 9 1 = 0 → entTag k.entry = 0 → cmdCheck s k false = cOK → pst s = 0 → 2 ≤ (cwUp s).length → entBytes k.entry 10 2 ≤ 1023 → side ≠ thisSide s → named = thisDev s → group61Hashed s = true →
    Completes (.twinBindBind r side named .agrees) s fun t =>
      pst t = 1 ∧ fd t twinPage fCAUSE_PAIR_BOUND = 1 ∧ partner t = entBytes k.entry 10 2 ∧ t.flash.bind = some (entBytes k.entry 10 2, thisSide s) :) ∧
  (∀ (s : State) (r : Nat) (k : HCmd),
    r < 128 → k.ring < 64 → nextCmd s r 7 = some k → entBytes k.entry 8 1 = 2 → ((entBytes k.entry 9 1 = 1 ∨ entBytes k.entry 9 1 = 2)) → entBytes k.entry 10 2 = 0 → entTag k.entry = 0 → cmdCheck s k false = cOK → pst s = 1 → 2 ≤ gradeOf s →
    Completes (.twinBindAttach r true) s fun t =>
      pst t = 2 ∧ t.twin.ask = entBytes k.entry 9 1 :) ∧
  (∀ (s : State) (r : Nat) (k : HCmd),
    r < 128 → k.ring < 64 → nextCmd s r 7 = some k → entBytes k.entry 8 1 = 3 → entBytes k.entry 9 1 = 0 → entBytes k.entry 10 2 = 0 → entTag k.entry = 0 → cmdCheck s k false = cOK → ((pst s = 2 ∨ pst s = 3 ∨ pst s = 4)) →
    Completes (.twinBindDetach r true) s fun t =>
      t.twin.detach = true ∧ pst t = pst s :) ∧
  (∀ (s : State) (r : Nat) (k : HCmd),
    r < 128 → k.ring < 64 → nextCmd s r 7 = some k → entBytes k.entry 8 1 = 4 → entBytes k.entry 9 1 = 0 → entBytes k.entry 10 2 = 0 → entTag k.entry = 0 → cmdCheck s k false = cOK → ((pst s = 1 ∨ pst s = 4)) →
    Completes (.twinBindUnbind r true) s fun t =>
      pst t = 0 ∧ fd t twinPage fCAUSE_PAIR_BOUND = 0 ∧ t.twin.jmap = [] ∧ t.flash.bind = none :) ∧
  (∀ (s : State) (w : Nat) (arg : Word) (x : DWord),
    w < 4 → pst s = 1 →
    Completes (.twinCtrl w 2 arg x) s fun t =>
      pst t = 2 ∧ t.twin.ask = arg.toNat :) ∧
  (∀ (s : State) (w : Nat) (arg : Word) (x : DWord),
    w < 4 →
    Completes (.twinCtrl w 6 arg x) s fun t =>
      fd t twinPage fCAUSE_ACKED_MILE = arg.toNat :) ∧
  (∀ (s : State) (w : Nat) (req : Req) (v : Word),
    w < 4 → Granted s req (cwPage w) 0x10C v.toNat →
    Completes (.hbcntWrite w req v) s fun t =>
      t.twin.hbAt = some s.now ∧ rd t twinPage 0x10C = v.toNat :)

/-- A mark enters every stream. A record next in its stream is held and its SSEQ is due to be acknowledged; a mark that completes a
milestone on every stream makes it the milestone held; an acknowledgement removes what it covers and nothing else; a resend sends
a stream's ring again; SHADOW_APPLY removes the records through the last mark of a milestone held. Equal digests agree a
milestone, unequal ones are replayed; a core whose digest differs waits for roadworks. A signpost update is acknowledged.
Rejoining, RESYNC, its reads and the hand back change the PSTATE and the counts as the rules give. A word of the journal map is
stored. (R414, R415, R416, R417, R418, R419, R422, R429, R432, R433, R434) -/
def Obligations.JournalAndRejoinCommandsComplete : Prop :=
  (∀ (s : State) (m : Word),
    milesDone s m.toNat = true → fb s twinPage fCAUSE_JCTL_JEN = true → ((∀ g < 512, ringFull s g = false)) →
    Completes (.journalMark m) s fun t =>
      (∀ g < 512, (stream t g).sent = (stream s g).sent ++ [{ sseq := (stream s g).next, mark := some m.toNat }]) ∧ fd t twinPage fCAUSE_SENT_MILE = m.toNat :) ∧
  (∀ (s : State) (w g a : Nat) (n : Word) (copy poison : Bool) (data : List DWord),
    w < 4 → g < 512 → pst s ≠ 0 → n.toNat = (stream s g).exp → (stream s g).held = [] →
    Completes (.jrecReceive w g n copy poison a data) s fun t =>
      (stream t g).held = [{ sseq := n.toNat, addr := a % 2 ^ 40, data := data.take 64, poison := poison, copy := copy }] ∧ (stream t g).exp = (n.toNat + 1) % 2 ^ 32 ∧ (stream t g).due = true ∧ rd64 t (cwPage w) 0xD18 = (rd64 s (cwPage w) 0xD18 + 1) % 2 ^ 64 :) ∧
  (∀ (s : State) (w g : Nat) (n m : Word),
    w < 4 → g < 512 → pst s ≠ 0 → n.toNat = (stream s g).exp → (stream s g).held = [] → ((∀ h < 512, h ≠ g → m.toNat ∈ (stream s h).marks)) →
    Completes (.jmarkReceive w g n m) s fun t =>
      fd t twinPage fCAUSE_HELD_MILE = m.toNat ∧ (stream t g).held = [{ sseq := n.toNat, mark := some m.toNat }] :) ∧
  (∀ (s : State) (w : Nat) (gs : List Nat),
    (cwLive s)[gs.headD 0 % (cwLive s).length]? = some w → gs = ((List.range 512).filter (fun g => (stream s g).due)).take 64 → gs ≠ [] →
    Completes (.jackSend) s fun t =>
      (port t (36 + w)).tx = (port s (36 + w)).tx ++ [twinPkt s w (.jack (gs.map (fun g => (g, ((stream s g).exp + 2 ^ 32 - 1) % 2 ^ 32))))] ∧ (∀ g ∈ gs, (stream t g).due = false) :) ∧
  (∀ (s : State) (w : Nat) (es : List (Nat × Nat)),
    w < 4 →
    Completes (.jackReceive w es) s fun t =>
      (∀ e ∈ es, ∀ r ∈ (stream t e.1).sent, r ∈ (stream s e.1).sent ∧ 2 ^ 31 ≤ (e.2 + 2 ^ 32 - r.sseq) % 2 ^ 32) ∧ (∀ g, (∀ e ∈ es, e.1 ≠ g) → (stream t g).sent = (stream s g).sent) :) ∧
  (∀ (s : State) (g w : Nat),
    g < 512 → pst s ≠ 4 → s.hub.dieRst.any (fun e => e.1 == g / 64) = false → (cwLive s)[g % (cwLive s).length]? = some w →
    Completes (.journalResend g) s fun t =>
      (port t (36 + w)).tx = (port s (36 + w)).tx ++ (stream s g).sent.map (fun r => twinPkt s w (.jrec g r)) ∧ (stream t g).sent = (stream s g).sent :) ∧
  (∀ (s : State) (g : Nat),
    g < 512 →
    Completes (.shadowApply g) s fun t =>
      (stream t g).held = (stream s g).held.filter (fun r => !(uptoMark (fun m => mileLe m (fd s twinPage fCAUSE_HELD_MILE)) (inOrder (stream s g))).1.contains r) :) ∧
  (∀ (s : State) (w : Nat) (m : Word) (d : DWord),
    w < 4 → twinMode s = 2 → s.twin.own.find? (fun e => e.1 == m.toNat) = some (m.toNat, d) →
    Completes (.hotDigest w m d) s fun t =>
      t.twin.agreed = some m.toNat ∧ t.twin.replay = false :) ∧
  (∀ (s : State) (w : Nat) (m : Word) (d e : DWord),
    w < 4 → twinMode s = 2 → s.twin.own.find? (fun e => e.1 == m.toNat) = some (m.toNat, e) → e ≠ d →
    Completes (.hotDigest w m d) s fun t =>
      t.twin.replay = true ∧ t.twin.own = [] ∧ t.twin.differ = some m.toNat ∧ bit (intRaw t twinPage) 18 = true :) ∧
  (∀ (s : State) (w die part i : Nat) (m : Word) (ds : List DWord) (d e : DWord),
    w < 4 → die < 8 → part < 2 → i < 72 → ds[i]? = some d → tget (0, 0) (net s die).digests (72 * part + i) = (m.toNat, e) → e ≠ d →
    Completes (.pcdigReceive w die part m ds) s fun t =>
      (ladder t (144 * die + 72 * part + i)).rwpend = true :) ∧
  (∀ (s : State) (p : Pkt),
    p.code = 5 → (¬ (flit p 1 % 2 ^ 27 = 0 ∧ flit p 2 % 2 ^ 10 = 0 ∧ bits (flit p 2) 10 10 = 0)) →
    Completes (.signpostUpdate p) s fun t =>
      (∃ l, t.inval = l ++ [{ die := 8, base := flit p 1 % 2 ^ 22, ignore := min (bits (flit p 1) 22 5) 22, since := s.now, ans := some p.sdev }]) :) ∧
  (∀ (s : State),
    ((pst s = 1 ∨ pst s = 6)) → s.twin.partnerP = 5 →
    Completes (.rejoinRequest) s fun t =>
      pst t = 6 ∧ (2 ≤ gradeOf s → ∀ w, (cwUp s).head? = some w → (port t (36 + w)).tx = (port s (36 + w)).tx ++ [twinPkt s w (.ctrl 5 (b2n s.pins.memKept) 0)]) :) ∧
  (∀ (s : State),
    pst s = 2 →
    Completes (.resync) s fun t =>
      fb t twinPage fCAUSE_JCTL_JEN = true ∧ rd t twinPage 0x13C = 0 ∧ pst t = 2 :) ∧
  (∀ (s : State),
    pst s = 6 → s.twin.partnerP = 7 →
    Completes (.resync) s fun t =>
      pst t = 7 ∧ rd t twinPage 0x13C = 0 :) ∧
  (∀ (s : State) (g a n : Nat),
    g < 512 → a < 2 ^ 40 → (place s (hubEpoch s) a).1 = g → ((pst s = 2 ∨ pst s = 7)) → journalled s a = true → n ≠ 0 → badSpan a n = false → ringFull s g = false → (slice s g).q = [] → (blocksOf (phys s (hubEpoch s) a) n).all (fun x => tget 0 s.merr x == 0) = true →
    Completes (.resyncRead g a n) s fun t =>
      (stream t g).sent = (stream s g).sent ++ [{ sseq := (stream s g).next, addr := a, data := bytesWords (n / 8) (memRead s (hubEpoch s) a n).1, poison := (memRead s (hubEpoch s) a n).2, copy := true }] :) ∧
  (∀ (s : State) (m : Word),
    pst s = 7 → s.twin.rsync = true → fd s twinPage fCAUSE_HELD_MILE = m.toNat → fd s twinPage fCAUSE_ACKED_MILE = m.toNat → rd s twinPage 0x13C = rd s twinPage 0x140 →
    Completes (.handBack m) s fun t =>
      pst t = 3 ∧ t.twin.role = 0 ∧ t.twin.rsync = false :) ∧
  (∀ (s : State) (w : Nat) (req : Req) (v : Word),
    w < 4 → Granted s req (cwPage w) 0x130 v.toNat → pst s ≠ 3 → pst s ≠ 5 → pst s ≠ 7 →
    Completes (.journalMapWrite w req v) s fun t =>
      tget 0 t.twin.jmap (fd s twinPage fCAUSE_JMAP_SEL_WORD) = v :)

/-- The oldest report reaches its HEAL page: one of the hub's units enters the hub's log; a mismatch of a core within its window
counts; retries exhausted ask for roadworks where EN_RW lets them. A window's end empties it; a relaxation takes one step of the
divider before the voltage. CLEAR empties a ladder, FORCE asks for roadworks, HEAL_CSEL latches a core's ladder; a read of the
last log word consumes the entry. The pair registers change while no core is bound. A leader's packet leaves when the values
agree; one without a payload is dropped when they differ. A drained entry enters the hub's error log under the next number. (R446, R447, R448, R454, R455, R456, R457, R458, R460, R463, R464, R628) -/
def Obligations.HealCommandsComplete : Prop :=
  (∀ (s : State) (r : Report) (l : List Report) (p : PageId),
    s.reports = r :: l → r.page / 2048 = 8 → r.core = none → r.source ≠ 0xD0 → pageOf r.page = some p → (logOf s 8).length < 256 →
    Completes (.healReport) s fun t =>
      t.reports = l ∧ logOf t 8 = logOf s 8 ++ [{ time := s.now, code := r.code, source := r.source, type := p.blk.code, inst := p.inst, detail := r.detail, die := 8 }] ∧ bit (intRaw t hubHeal) 14 = true :) ∧
  (∀ (s : State) (r : Report) (l : List Report) (c : Nat),
    s.reports = r :: l → r.page / 2048 < 8 → r.core = some c → r.source ≠ 0xD0 → isMismatch r = false → isExhausted r = true → fb s (healPage (c / 144)) fHEAL_LADDER_EN_RW = true →
    Completes (.healReport) s fun t =>
      t.reports = l ∧ (ladder t c).rwpend = true ∧ rd64 t (healPage (r.page / 2048)) 0xC00 = (rd64 s (healPage (r.page / 2048)) 0xC00 + 1) % 2 ^ 64 :) ∧
  (∀ (s : State) (r : Report) (l : List Report) (c e : Nat),
    s.reports = r :: l → r.page / 2048 < 8 → r.core = some c → r.source ≠ 0xD0 → isMismatch r = true → (ladder s c).rwpend = false → (core s c).test = false → (ladder s c).winEnd = some e → s.now < e → (ladder s c).count + 1 ≠ fd s (healPage (c / 144)) fHEAL_LADDER_NVOLT → (ladder s c).count + 1 ≠ fd s (healPage (c / 144)) fHEAL_LADDER_NCLK →
    Completes (.healReport) s fun t =>
      t.reports = l ∧ (ladder t c).count = (ladder s c).count + 1 ∧ (ladder t c).winEnd = some e :) ∧
  (∀ (s : State) (c : Nat),
    c < 1152 → (ladder s c).winEnd.isSome = true →
    Completes (.ladderWindowExpiry c) s fun t =>
      (ladder t c).winEnd = none ∧ (ladder t c).count = 0 ∧ (ladder t c).offset = (ladder s c).offset :) ∧
  (∀ (s : State) (c : Nat),
    c < 1152 → (¬ ((ladder s c).div = 0 ∧ (ladder s c).offset = 0)) →
    Completes (.ladderDecay c) s fun t =>
      (ladder t c).div = (ladder s c).div - 1 ∧ (ladder t c).offset = (if 0 < (ladder s c).div then (ladder s c).offset else (ladder s c).offset - fd s (healPage (c / 144)) fHEAL_LADDER_VSTEP) ∧ rd64 t (healPage (c / 144)) 0xC30 = (rd64 s (healPage (c / 144)) 0xC30 + 1) % 2 ^ 64 :) ∧
  (∀ (s : State) (d : Nat) (req : Req) (v : Word),
    d < 8 → Granted s req (healPage d) 0x54 (v.toNat ||| 0x100) → v.toNat % 256 < 144 → bit v.toNat 9 = false →
    Completes (.healClear d req v) s fun t =>
      ladder t (144 * d + v.toNat % 256) = {} :) ∧
  (∀ (s : State) (d : Nat) (req : Req) (v : Word),
    d < 8 → Granted s req (healPage d) 0x54 (v.toNat ||| 0x200) → v.toNat % 256 < 144 →
    Completes (.healForce d req v) s fun t =>
      (ladder t (144 * d + v.toNat % 256)).rwpend = true :) ∧
  (∀ (s : State) (d c : Nat) (l : Ladder) (req : Req) (v : Word),
    d < 8 → Granted s req (healPage d) 0x4C v.toNat → c = 144 * d + v.toNat % 256 → l = ladder s c →
    Completes (.healCselWrite d req v) s fun t =>
      rd t (healPage d) 0x50 = (l.count % 16 + 2 ^ 4 * l.offset + 2 ^ 9 * l.div + 2 ^ 11 * b2n l.rwpend + 2 ^ 12 * b2n l.winEnd.isSome + 2 ^ 13 * b2n (corePaired s c)) % 2 ^ 32 :) ∧
  (∀ (s : State) (d : Nat) (req : Req),
    d < 8 → Readable s req (healPage d) 0x8C →
    Completes (.healLogRead d req) s fun t =>
      logOf t d = (logOf s d).tail ∧ t.out = s.out ++ [.data req (BitVec.ofNat 32 (logWord s d 3))] :) ∧
  (∀ (s : State) (d : Nat) (req : Req) (hi : Bool) (v : Word),
    d < 8 → Granted s req (healPage d) (if hi then 0x7C else 0x78) v.toNat → ((∀ i < 144, bit (rd s (corePage .core (144 * d + i)) 0xC) 16 = false)) →
    Completes (.pairModeWrite d req hi v) s fun t =>
      rd t (healPage d) (if hi then 0x7C else 0x78) = v.toNat % (if hi then 2 ^ 4 else 2 ^ 32) :) ∧
  (∀ (s : State) (c i : Nat) (p : Pkt),
    c < 1152 → isLeader s c = true → launchable s c = some (i, p) → byEn p = false → p.type ≠ 2 → p.ddev = selfDev s (c / 144) → p.ddie = c / 144 → p.dunit < 144 → bufOn s c 0 p.vc = true →
    Completes (.pairCompare c true) s fun t =>
      bufOf t c 0 p.vc = bufOf s c 0 p.vc ++ [{ p with sepoch := injEpoch s (c / 144) (c % 144), auth := 0 }] ∧ (qe t c).inj = (qe s c).inj.eraseIdx i :) ∧
  (∀ (s : State) (c i : Nat) (p : Pkt),
    c < 1152 → isLeader s c = true → launchable s c = some (i, p) → payload p = 0 →
    Completes (.pairCompare c false) s fun t =>
      (qe t c).inj = (qe s c).inj.eraseIdx i ∧ t.reports = s.reports ++ [{ page := (healPage (c / 144)).no, source := 0xD0, code := cPOISON, detail := c % 144, core := some c }] ∧ rd64 t (healPage (c / 144)) 0xC38 = (rd64 s (healPage (c / 144)) 0xC38 + 1) % 2 ^ 64 ∧ bit (intRaw t (healPage (c / 144))) 10 = true :) ∧
  (∀ (s : State) (d : Nat) (e : LogEnt),
    d < 9 → logOf s d = [e] → e.source ∉ [0x40, 0x61, 0x70, 0x71, 0x92, 0xA0, 0xA4, 0xB0, 0xD0] →
    Completes (.healLogDrain d) s fun t =>
      logOf t d = [] ∧ t.heal.errlog.getLast? = some (s.heal.errSeq, { e with die := if d = 8 then e.die else d }) ∧ t.heal.errSeq = (s.heal.errSeq + 1) % 2 ^ 32 :)

/-- HEAL_CLOSE closes the unit it names, or withdraws a field closure; either leaves a save due, which CLOSURE_MAP_SAVE carries out,
or reports. GO starts a move of a bound core to a lay-by that may take its work, or a rebuild of a lost position (release 3 itself
names only a lay-by it chooses); ABORT ends a move in phases 1 to 4. A move prepared binds the arriving core as the source is; its
copy has the source's words; a pass clears the dirty rows. A cutover milestone freezes a ready move, the acknowledged freeze
copies what remains and invalidates, the cutover passes the EN, the release ends it. HEAL_MV_SEL latches the mover's status, and a
read takes the oldest entry of the hub's log. (R467, R469, R471, R473, R476, R477, R478, R479, R491) -/
def Obligations.ClosureCommandsComplete : Prop :=
  (∀ (s : State) (b : Nat) (req : Req) (v : Word),
    Granted s req hubHeal 0x44 (setBits (v.toNat ||| 2 ^ 31) 23 1 0) → ((req.cls = 2 → fb s (hubPage .auth) fAUTH_STATUS_MGMTCLOSED = false)) → closeBit v.toNat = some b → fb s hubHeal fHEAL_HSTATUS_CLOSEBUSY = false → GradeHolds s →
    Completes (.unitClose req v) s fun t =>
      closed t b = true ∧ fb t hubHeal fHEAL_HSTATUS_SAVEPEND = true ∧ fd t hubHeal fHEAL_CLOSE_STAT_CODE = cOK :) ∧
  (∀ (s : State) (b : Nat) (req : Req) (v : Word),
    Granted s req hubHeal 0x44 (setBits (v.toNat ||| 2 ^ 31) 23 1 1) → ((req.cls = 2 → fb s (hubPage .auth) fAUTH_STATUS_MGMTCLOSED = false)) → closeBit v.toNat = some b → bit (tget 0 s.fuseMap (b / 32)).toNat (b % 32) = false → fb s hubHeal fHEAL_HSTATUS_CLOSEBUSY = false → GradeHolds s →
    Completes (.closureWithdraw req v) s fun t =>
      closed t b = false ∧ fb t hubHeal fHEAL_HSTATUS_SAVEPEND = true ∧ rd64 t hubHeal 0xC08 = (rd64 s hubHeal 0xC08 + 1) % 2 ^ 64 :) ∧
  (∀ (s : State),
    fb s hubHeal fHEAL_HSTATUS_SAVEPEND = true → s.heal.flash0 = none →
    Completes (.closureMapSave true) s fun t =>
      t.heal.flash0 = some ((rd s hubHeal 0x58 + 1) % 2 ^ 32, s.fieldMap) ∧ rd t hubHeal 0x58 = (rd s hubHeal 0x58 + 1) % 2 ^ 32 ∧ fb t hubHeal fHEAL_HSTATUS_SAVEPEND = false :) ∧
  (∀ (s : State) (a b : Nat × Tbl Word),
    fb s hubHeal fHEAL_HSTATUS_SAVEPEND = true → s.heal.flash0 = some a → s.heal.flash1 = some b →
    Completes (.closureMapSave true) s fun t =>
      t.heal.flash0 = some (if mileLe a.1 b.1 then ((rd s hubHeal 0x58 + 1) % 2 ^ 32, s.fieldMap) else a) ∧ t.heal.flash1 = some (if mileLe a.1 b.1 then b else ((rd s hubHeal 0x58 + 1) % 2 ^ 32, s.fieldMap)) :) ∧
  (∀ (s : State),
    fb s hubHeal fHEAL_HSTATUS_SAVEPEND = true →
    Completes (.closureMapSave false) s fun t =>
      t.heal = s.heal ∧ fb t hubHeal fHEAL_HSTATUS_SAVEPEND = true ∧ bit (intRaw t hubHeal) 13 = true :) ∧
  (∀ (s : State) (k src dst : Nat) (req : Req) (v : Word),
    Granted s req hubHeal 0x8C (v.toNat / 8 * 8 + 1) → k = mvSel s → (((mover s k).phase = 0 ∨ (mover s k).phase = 6 ∨ (mover s k).phase = 7)) → (mover s k).srcW % 16 < 8 → bits (mover s k).srcW 4 8 < 144 → (mover s k).dstW % 16 < 8 → bits (mover s k).dstW 4 8 < 144 → src = 144 * ((mover s k).srcW % 16) + bits (mover s k).srcW 4 8 → dst = 144 * ((mover s k).dstW % 16) + bits (mover s k).dstW 4 8 → mayTake s src dst = true → coreClosed s dst = false → coreBound s src = true → isFollower s src = false → ((req.cls = 6 → chosen s src dst = true)) →
    Completes (.moveStart req v) s fun t =>
      (mover t k).phase = 1 ∧ (mover t k).mode = 0 ∧ (mover t k).src = src ∧ (mover t k).dst = dst ∧ (mover t k).en = coreEn s src :) ∧
  (∀ (s : State) (k dst id : Nat) (p : Place) (req : Req) (v : Word),
    Granted s req hubHeal 0x8C (v.toNat / 8 * 8 + 1 + 4) → k = mvSel s → (((mover s k).phase = 0 ∨ (mover s k).phase = 6 ∨ (mover s k).phase = 7)) → (mover s k).dstW % 16 < 8 → bits (mover s k).dstW 4 8 < 144 → dst = 144 * ((mover s k).dstW % 16) + bits (mover s k).dstW 4 8 → mayTake s p.core dst = true → coreClosed s dst = false → ((req.cls = 6 → chosen s p.core dst = true)) → lostPlace s = some (id, p) →
    Completes (.rebuildStart req v) s fun t =>
      (mover t k).phase = 1 ∧ (mover t k).mode = 1 ∧ (mover t k).dst = dst ∧ (mover t k).en = p.en :) ∧
  (∀ (s : State) (k : Nat) (req : Req) (v : Word),
    Granted s req hubHeal 0x8C (v.toNat / 8 * 8 + 2) → k = mvSel s → 1 ≤ (mover s k).phase → (mover s k).phase ≤ 4 →
    Completes (.moveAbort req v) s fun t =>
      (mover t k).phase = 7 ∧ (mover t k).code = cPURGED :) ∧
  (∀ (s : State) (k : Nat),
    k < 16 → (mover s k).phase = 1 → (mover s k).mode = 0 → (mover s k).src < 1152 → (mover s k).dst < 1152 → (mover s k).src ≠ (mover s k).dst →
    Completes (.movePrepared k) s fun t =>
      (mover t k).phase = 2 ∧ rd t (corePage .core (mover s k).dst) 0xC = rd s (corePage .core (mover s k).src) 0xC % 65536 + 65536 :) ∧
  (∀ (s : State) (k : Nat),
    k < 16 → (mover s k).phase = 1 → (mover s k).mode = 1 →
    Completes (.movePrepared k) s fun t =>
      (mover t k).phase = 2 :) ∧
  (∀ (s : State) (k : Nat),
    k < 16 → (mover s k).phase = 2 → (mover s k).mode = 0 → twf (core s (mover s k).src).sp.words = true →
    Completes (.moveCopyDone k) s fun t =>
      (mover t k).phase = 3 ∧ (core t (mover s k).dst).sp.words = (core s (mover s k).src).sp.words :) ∧
  (∀ (s : State) (k : Nat),
    k < 16 → (mover s k).phase = 2 → (mover s k).mode = 1 →
    Completes (.moveCopyDone k) s fun t =>
      (mover t k).phase = 6 ∧ (mover t k).code = cOK :) ∧
  (∀ (s : State) (k : Nat),
    k < 16 → (mover s k).phase = 3 →
    Completes (.trackingPass k) s fun t =>
      (mover t k).phase = 4 ∧ (mover t k).passes = ((mover s k).passes + 1) % 65536 ∧ (core t (mover s k).src).sp.dirty = [] :) ∧
  (∀ (s : State) (k id : Nat) (m : Word),
    k < 16 → (mover s k).phase = 4 → id = rd s (corePage .core (mover s k).src) 0xC % 65536 / 64 → (ctx s id).mile = m.toNat → (ladder s (mover s k).src).rwpend = false → freezeOk s (mover s k).src = true → m.toNat % max 1 (fd s hubHeal fHEAL_RWCFG_CUTEVERY) = 0 → s.hub.freeze = none →
    Completes (.cutoverFreeze m) s fun t =>
      (mover t k).phase = 5 ∧ (core t (mover s k).src).frozen = true ∧ (ctx t id).held = true ∧ fb t hubHeal fHEAL_HSTATUS_FREEZE = true ∧ t.hub.freeze.map (·.mile) = some m.toNat :) ∧
  (∀ (s : State) (k : Nat) (f : Freeze),
    s.hub.freeze = some f → f.inval = false → f.movers = [k] → (mover s k).src ≠ (mover s k).dst →
    Completes (.freezeTableAcked) s fun t =>
      t.hub.freeze = some { f with inval := true } ∧ (core t (mover s k).dst).seq.lm = (core s (mover s k).src).seq.lm ∧ (core t (mover s k).src).sp.dirty = [] :) ∧
  (∀ (s : State) (k : Nat) (f : Freeze),
    s.hub.freeze = some f → f.inval = true → f.movers = [k] → s.inval = [] → (mover s k).phase = 5 → (mover s k).src < 1152 → (mover s k).dst < 1152 → (mover s k).src ≠ (mover s k).dst → coreClosed s (mover s k).dst = false →
    Completes (.freezeCutover) s fun t =>
      (mover t k).phase = 6 ∧ fd t (rPage (mover s k).dst) fROUT_EN_EN = (mover s k).en % 2 ^ 22 ∧ fd t (rPage (mover s k).src) fROUT_EN_EN = 0x3FFFFF ∧ rd64 t hubHeal 0xC10 = (rd64 s hubHeal 0xC10 + 1) % 2 ^ 64 :) ∧
  (∀ (s : State) (f : Freeze),
    s.hub.freeze = some f → f.waiting = [] → ((∀ k ∈ f.movers, (mover s k).phase ≠ 5)) →
    Completes (.freezeRelease) s fun t =>
      t.hub.freeze = none ∧ fb t hubHeal fHEAL_HSTATUS_FREEZE = false ∧ (∀ id, (ctx t id).held = false) ∧ rd64 t hubHeal 0xC28 = (rd64 s hubHeal 0xC28 + 1) % 2 ^ 64 :) ∧
  (∀ (s : State) (req : Req) (v : Word),
    Granted s req hubHeal 0x80 v.toNat →
    Completes (.healMvSelWrite req v) s fun t =>
      fd t hubHeal fHEAL_MV_SEL_DIE = bits v.toNat fHEAL_MV_SEL_DIE.lo fHEAL_MV_SEL_DIE.w ∧ fd t hubHeal fHEAL_MV_SEL_MOVER = bits v.toNat fHEAL_MV_SEL_MOVER.lo fHEAL_MV_SEL_MOVER.w ∧ bits (rd t hubHeal 0x90) 0 8 = (mover s (mvSel t)).phase % 256 ∧ rd t hubHeal 0x94 = (mover s (mvSel t)).passes % 65536 :) ∧
  (∀ (s : State) (req : Req),
    Readable s req hubHeal 0xCC →
    Completes (.healHlogRead req) s fun t =>
      logOf t 8 = (logOf s 8).tail ∧ t.out = s.out ++ [.data req (BitVec.ofNat 32 (logWord s 8 3))] :)

/-- A granted slot lets a visit start; tests pass in order or are run once more before they fail; the margin walk steps down until a
mismatch, runs a step again under which the cluster's offset changed, and ends with a threshold and a requirement; the end of a
visit records it, and closes the core that failed. A read of the roadworks log takes its oldest record. A calibration is granted
to a port, a slice or a core. (R481, R482, R484, R485, R486, R489) -/
def Obligations.RoadworksCommandsComplete : Prop :=
  (∀ (s : State) (c : Nat),
    c < 1152 → tget false s.heal.slots c = true → coreBound s c = false → coreClosed s c = false → underTest s c = false →
    Completes (.roadworksVisitStart c) s fun t =>
      underTest t c = true ∧ visit t c = some { start := s.now } ∧ (ladder t c).rwpend = false ∧ fd t (rPage c) fROUT_EN_EN = 0x3FFFFF :) ∧
  (∀ (s : State) (c : Nat) (v : Visit) (b : DWord),
    c < 1152 → visit s c = some v → v.test < 4 →
    Completes (.roadworksTestDone c true b) s fun t =>
      visit t c = some { v with test := if v.test = 3 ∧ fb s hubHeal fHEAL_CALCFG_WALK_EN = false then 5 else v.test + 1, again := false } :) ∧
  (∀ (s : State) (c : Nat) (v : Visit) (b : DWord),
    c < 1152 → visit s c = some v → v.test < 4 → v.again = false →
    Completes (.roadworksTestDone c false b) s fun t =>
      visit t c = some { v with again := true, retested := true, trim := 0, low := 0, banks := if v.test = 2 then b.toNat else v.banks } :) ∧
  (∀ (s : State) (c : Nat) (v : Visit) (b : DWord),
    c < 1152 → visit s c = some v → v.test < 4 → v.again = true →
    Completes (.roadworksTestDone c false b) s fun t =>
      visit t c = some { v with outcome := v.test, test := 5, banks := if v.test = 2 then b.toNat else v.banks } :) ∧
  (∀ (s : State) (c : Nat) (v : Visit),
    c < 1152 → visit s c = some v → v.test = 4 → v.walked = true → v.offset = clusOffset s (clusterOf c) → v.trim + 1 < fd s hubHeal fHEAL_MARGIN_STEPS →
    Completes (.marginWalkStep c true) s fun t =>
      visit t c = some { v with trim := v.trim + 1, low := if v.low = 0 then fd s (clusPage (clusterOf c)) fCLUS_VSET_VOUT + 64 - v.trim else min v.low (fd s (clusPage (clusterOf c)) fCLUS_VSET_VOUT + 64 - v.trim) } :) ∧
  (∀ (s : State) (c : Nat) (v : Visit),
    c < 1152 → visit s c = some v → v.test = 4 → v.walked = true → v.offset ≠ clusOffset s (clusterOf c) →
    Completes (.marginWalkStep c true) s fun t =>
      visit t c = some { v with offset := clusOffset s (clusterOf c) } :) ∧
  (∀ (s : State) (c : Nat) (v : Visit),
    c < 1152 → visit s c = some v → v.test = 4 → v.walked = true → v.offset = clusOffset s (clusterOf c) → v.low = 0 → v.again = false →
    Completes (.marginWalkStep c false) s fun t =>
      visit t c = some { v with again := true, retested := true, trim := 0 } :) ∧
  (∀ (s : State) (c th : Nat) (v : Visit),
    c < 1152 → visit s c = some v → v.test = 4 → v.walked = true → v.offset = clusOffset s (clusterOf c) → v.low = 64 + th → th + fd s hubHeal fHEAL_MARGIN_GUARD ≤ 80 →
    Completes (.marginWalkStep c false) s fun t =>
      visit t c = some { v with thresh := th, test := 5 } ∧ tget 0 t.heal.reqs c = th + fd s hubHeal fHEAL_MARGIN_GUARD :) ∧
  (∀ (s : State) (c : Nat) (v : Visit),
    c < 1152 → visit s c = some v → v.test = 5 → ((v.outcome = 0 ∨ GradeHolds s)) →
    Completes (.roadworksVisitEnd c) s fun t =>
      underTest t c = false ∧ t.heal.rwlog.getLast?.map (·.outcome) = some v.outcome ∧ (v.outcome ≠ 0 → coreClosed t c = true) ∧ rd64 t hubHeal 0xC48 = (rd64 s hubHeal 0xC48 + 1) % 2 ^ 64 :) ∧
  (∀ (s : State) (c d : Nat),
    c < 1152 → d = c / 144 → fb s hubHeal fHEAL_RWCFG_EN = true → fb s aon fAON_READY_DONE = true → pst s ≠ 5 → pst s ≠ 7 → fd s (hubPage .pwr) fPWR_MEAS_WATTS + fd s hubHeal fHEAL_CALCFG_HEADROOM ≤ fd s (hubPage .pwr) fPWR_LIMIT_WATTS → limiterQuiet s = true → ((∀ e ∈ s.heal.lastVisit, e.1 = d → e.2 + usTicks 12500 ≤ s.now)) → countp (fun e => e.2 && decide (e.1 / 144 = d)) s.heal.slots < visitLimit s d → countp (fun e => e.2 && decide (e.1 / 144 < 8)) s.heal.slots < 16 → c ∈ nextVisits s d → tget false s.heal.slots c = false →
    Completes (.selfTestSlotGrant c) s fun t =>
      tget false t.heal.slots c = true :) ∧
  (∀ (s : State) (p : Nat),
    p < 40 → fb s hubHeal fHEAL_CALCFG_ROT_EN = true → pState s p = 4 → (port s p).granted = false → (port s p).swapTx = none →
    Completes (.calibrationGrant 0 p) s fun t =>
      (port t p).granted = true ∧ rd64 t hubHeal 0xC58 = (rd64 s hubHeal 0xC58 + 1) % 2 ^ 64 :) ∧
  (∀ (s : State) (kind g : Nat),
    ((kind = 1 ∨ kind = 3 ∧ (slice s g).suspect = true)) → g < 512 → fb s hubHeal fHEAL_CALCFG_RECAL_EN = true → (stack s (g / 32)).window = none → (stack s (g / 32)).granted = none → sliceClosed s g = false → (slice s g).ss = 0 → fd s (memcPage (g / 32)) fMEMC_STATUS_STATE = 2 → s.hub.freeze = none →
    Completes (.calibrationGrant kind g) s fun t =>
      (stack t (g / 32)).granted = some (g % 32) ∧ rd64 t hubHeal 0xC58 = (rd64 s hubHeal 0xC58 + 1) % 2 ^ 64 :) ∧
  (∀ (s : State) (c : Nat) (v : Visit),
    fb s hubHeal fHEAL_CALCFG_WALK_EN = true → limiterQuiet s = true → visit s c = some v → v.test = 4 → v.walked = false →
    Completes (.calibrationGrant 2 c) s fun t =>
      visit t c = some { v with walked := true, offset := clusOffset s (clusterOf c) } ∧ rd64 t hubHeal 0xC58 = (rd64 s hubHeal 0xC58 + 1) % 2 ^ 64 :) ∧
  (∀ (s : State) (req : Req),
    Readable s req hubHeal 0xAC →
    Completes (.healRwlogRead req) s fun t =>
      t.heal.rwlog = s.heal.rwlog.tail ∧ t.out = s.out ++ [.data req (BitVec.ofNat 32 (rwWord s 3))] :)

/-- A core reset keeps scratchpad contents, local memory and the router's packets, and leaves the sequencer HALTED; a cluster reset
takes the saved set point; a compute die enters reset with its cause, and memory unchanged where its slices have no request left
to serve; a port die's ports are OFF; a die's reset completes with its controllers alive. A module reset leaves no core's state,
the pair at BOUND or UNBOUND, memory unchanged where no slice has a request left to serve. A watchdog's expiry marks its
controller, or resets a die with none left, or the module. A kick marks its controller alive. A host link reset disables every
ring; a function's reset its ring. AON_RST_CTL resets a die, or makes a module reset due; AON_RST_CLR clears the causes. (R495, R497, R498, R499, R500, R501, R502, R503, R506, R519, R522) -/
def Obligations.ResetCommandsComplete : Prop :=
  (∀ (s : State) (d c : Nat) (req : Req) (v : Word),
    d < 8 → Granted s req (diePage .die d) 0x44 (v.toNat ||| 0x80000000) → v.toNat % 256 < 144 → c = 144 * d + v.toNat % 256 → coreClosed s c = false → fb s (diePage .die d) fDIE_RST_STAT_BUSY = false →
    Completes (.coreReset d req v) s fun t =>
      core t c = coreKeep (core s c) ∧ seqSt t c = 0 ∧ coreEn t c = coreEn s c ∧ rd64 t (diePage .die d) 0xC00 = (rd64 s (diePage .die d) 0xC00 + 1) % 2 ^ 64 ∧ fd t (diePage .die d) fDIE_RST_STAT_CODE = cOK :) ∧
  (∀ (s : State) (d k : Nat) (req : Req) (v : Word),
    d < 8 → Granted s req (diePage .die d) 0x48 (v.toNat ||| 0x80000000) → v.toNat % 64 < 36 → k = 36 * d + v.toNat % 64 → closed s (cmCluster k) = false → fb s (diePage .die d) fDIE_RST_STAT_BUSY = false →
    Completes (.clusterReset d req v) s fun t =>
      fd t (clusPage k) fCLUS_VSET_SETPT = tget (fd s (clusPage k) fCLUS_VSET_SETPT) s.pins.setpt k % 2 ^ 7 ∧ rd64 t (diePage .die d) 0xC08 = (rd64 s (diePage .die d) 0xC08 + 1) % 2 ^ 64 ∧ fd t (diePage .die d) fDIE_RST_STAT_CODE = cOK :) ∧
  (∀ (s : State) (d cause : Nat),
    d < 8 → closed s (cmDie d) = false → GradeHolds s →
    Completes (.computeDieReset d cause) s fun t =>
      fd t (diePage .die d) fDIE_STATUS_STATE = 1 ∧ fd t aon (fAON_DIE_CAUSE0_D.sub d) = cause % 2 ^ 4 ∧ fb t aon fAON_RST_STAT_BUSY = true ∧ tget 0 t.hub.dieRst d = cause ∧ (s.slices.all (fun e => e.1 / 64 != d || e.2.q.isEmpty) = true → t.mem = s.mem) :) ∧
  (∀ (s : State) (pd cause : Nat),
    pd < 2 → closed s (cmDie (9 + pd)) = false → GradeHolds s →
    Completes (.portDieReset pd cause) s fun t =>
      fd t (diePage .die (9 + pd)) fDIE_STATUS_STATE = 1 ∧ (∀ p < 40, portDie p = 9 + pd → pState t p = 0 ∧ (port t p).tx = []) ∧ fd t aon (fAON_DIE_CAUSE1_D.sub (1 + pd)) = cause % 2 ^ 4 ∧ tget 0 t.hub.dieRst (9 + pd) = cause :) ∧
  (∀ (s : State) (c : Nat),
    s.hub.rstDue = some c →
    Completes (.moduleReset) s fun t =>
      fd t aon fAON_RST_CAUSE_CAUSE = c % 2 ^ 8 ∧ fd t aon fAON_RST_CAUSE_PREV = fd s aon fAON_RST_CAUSE_CAUSE ∧ t.cores = [] ∧ t.hub.rstDue = none ∧ pst t = (if fb s twinPage fCAUSE_PAIR_BOUND then 1 else 0) ∧ (s.slices.all (fun e => e.2.q.isEmpty) = true → t.mem = s.mem) ∧ rd64 t aon 0xC00 = (rd64 s aon 0xC00 + 1) % 2 ^ 64 :) ∧
  (∀ (s : State) (d : Nat),
    d < 8 → fd s (diePage .die d) fDIE_WDOG_PERIOD ≠ 0 → closed s (cmDie d) = false → fb s (diePage .die d) fDIE_STATUS_CTL1_OK = true →
    Completes (.dieWatchdogExpiry d 0) s fun t =>
      fb t (diePage .die d) fDIE_STATUS_CTL0_OK = false ∧ fb t (diePage .die d) fDIE_STATUS_CTL1_OK = true ∧ bit (intRaw t (diePage .die d)) 8 = true ∧ rd64 t (diePage .die d) 0xC28 = (rd64 s (diePage .die d) 0xC28 + 1) % 2 ^ 64 :) ∧
  (∀ (s : State) (d : Nat),
    d < 8 → fd s (diePage .die d) fDIE_WDOG_PERIOD ≠ 0 → closed s (cmDie d) = false → fb s (diePage .die d) fDIE_STATUS_CTL0_OK = false → fb s aon fAON_RECOVERY_ESCALATE = false → GradeHolds s →
    Completes (.dieWatchdogExpiry d 1) s fun t =>
      fd t (diePage .die d) fDIE_STATUS_STATE = 1 ∧ tget 0 t.hub.dieRst d = 3 :) ∧
  (∀ (s : State),
    fd s aon fAON_HWDOG_PERIOD ≠ 0 → s.pins.pwrGood = true →
    Completes (.hubWatchdogExpiry) s fun t =>
      fd t aon fAON_RST_CAUSE_CAUSE = 6 ∧ t.cores = [] ∧ (s.slices.all (fun e => e.2.q.isEmpty) = true → t.mem = s.mem) :) ∧
  (∀ (s : State) (d : Nat) (req : Req) (v : Word),
    d < 11 → Granted s req (diePage .die d) 0x58 v.toNat → bit v.toNat 0 = true →
    Completes (.dieWdogKick d req v) s fun t =>
      fb t (diePage .die d) fDIE_STATUS_CTL0_OK = true :) ∧
  (∀ (s : State) (req : Req) (v : Word),
    Granted s req aon 0x58 v.toNat →
    Completes (.aonHwdogKick req v) s fun t =>
      t = s :) ∧
  (∀ (s : State) (d : Nat),
    d < 8 → closed s (cmDie d) = false → GradeHolds s →
    Completes (.footpathHubLoss d) s fun t =>
      fd t (diePage .die d) fDIE_STATUS_STATE = 1 ∧ tget 0 t.hub.dieRst d = 4 :) ∧
  (∀ (s : State),
    closed s (cmDie 8) = false →
    Completes (.footpathHubLoss 8) s fun t =>
      fd t aon fAON_RST_CAUSE_CAUSE = 4 ∧ t.cores = [] :) ∧
  (∀ (s : State) (kind : Nat),
    kind < 3 → GradeHolds s →
    Completes (.hostLinkReset kind) s fun t =>
      t.host.rings = [] ∧ t.host.cmds = [] ∧ (kind = 1 → rd64 t hostPg 0xC20 = 1) :) ∧
  (∀ (s : State),
    Completes (.functionLevelReset 0) s fun t =>
      t.host.rings = [] ∧ t.host.cmds = [] ∧ fd t hostPg fHOST_STATUS_WIDTH = fd s hostPg fHOST_STATUS_WIDTH :) ∧
  (∀ (s : State) (fn : Nat),
    1 ≤ fn → fn < 65 →
    Completes (.functionLevelReset fn) s fun t =>
      ring t (63 + fn) = {} ∧ (∀ k ∈ t.host.cmds, k.ring ≠ 63 + fn) :) ∧
  (∀ (s : State) (d : Nat) (req : Req) (v : Word),
    Granted s req aon 0x4C (setBits (v.toNat ||| 2 ^ 31) 0 2 1) → d = bits v.toNat 4 4 → d < 8 → closed s (cmDie d) = false → fb s aon fAON_RST_STAT_BUSY = false → fb s aon fAON_READY_DONE = true → GradeHolds s →
    Completes (.aonRstComputeDie req v) s fun t =>
      fd t (diePage .die d) fDIE_STATUS_STATE = 1 ∧ tget 0 t.hub.dieRst d = 2 ∧ fd t aon fAON_RST_STAT_CODE = cOK ∧ fb t aon fAON_RST_STAT_BUSY = true :) ∧
  (∀ (s : State) (d : Nat) (req : Req) (v : Word),
    Granted s req aon 0x4C (setBits (v.toNat ||| 2 ^ 31) 0 2 2) → d = bits v.toNat 4 4 → ((d = 9 ∨ d = 10)) → closed s (cmDie d) = false → fb s aon fAON_RST_STAT_BUSY = false → fb s aon fAON_READY_DONE = true → GradeHolds s →
    Completes (.aonRstPortDie req v) s fun t =>
      fd t (diePage .die d) fDIE_STATUS_STATE = 1 ∧ tget 0 t.hub.dieRst d = 2 ∧ fd t aon fAON_RST_STAT_CODE = cOK :) ∧
  (∀ (s : State) (req : Req) (v : Word),
    Granted s req aon 0x4C (setBits (v.toNat ||| 2 ^ 31) 0 2 3) → fb s aon fAON_RST_STAT_BUSY = false →
    Completes (.aonRstModule req v) s fun t =>
      t.hub.rstDue = some (if req.cls = 2 then 3 else if req.cls = 5 then 5 else 4) ∧ fd t aon fAON_RST_STAT_CODE = cOK :) ∧
  (∀ (s : State) (req : Req) (v : Word),
    Granted s req aon 0x64 (v.toNat ||| 1) →
    Completes (.aonRstClr req v) s fun t =>
      rd t aon 0x44 = 0 ∧ rd t aon 0x48 = 0 :) ∧
  (∀ (s : State) (d : Nat),
    d < 11 → ((∃ e ∈ s.hub.dieRst, e.1 = d)) → ImagesFit s → GradeHolds s →
    Completes (.dieResetComplete d) s fun t =>
      fd t (diePage .die d) fDIE_STATUS_STATE = 3 ∧ fb t (diePage .die d) fDIE_STATUS_CTL0_OK = true ∧ rd64 t aon 0xC08 = (rd64 s aon 0xC08 + 1) % 2 ^ 64 ∧ bit (intRaw t aon) 8 = true :)

/-- DIE_CTXOP halts the fabric of a context's cores, closes their handles, writes the generation, clears them, and completes. A
teardown leaves its context DRAINING under the next generation. A draining generation's time ends: it may be given again, the
context that waited for it while DRAINING is free, with its drained generations kept, and the teardown's record is written. (R22, R504, R506, R507) -/
def Obligations.ContextCommandsComplete : Prop :=
  (∀ (s : State) (d id : Nat) (req : Req) (v : Word),
    d < 8 → Granted s req (diePage .die d) 0x60 (setBits (v.toNat ||| 2 ^ 31) 0 3 1) → id = bits v.toNat 16 10 → fb s (diePage .die d) fDIE_STATUS_CTXBUSY = false →
    Completes (.ctxopHalt d req v) s fun t =>
      fb t (diePage .die d) fDIE_STATUS_CTXBUSY = true ∧ fd t (diePage .die d) fDIE_CTXOP_STAT_CORES = (dieCtxCores s d id).length ∧ (∀ c ∈ dieCtxCores s d id, (core t c).stopped = true ∧ (seqr t c).wait = .none) :) ∧
  (∀ (s : State) (d id : Nat) (req : Req) (v : Word),
    d < 8 → Granted s req (diePage .die d) 0x60 (setBits (v.toNat ||| 2 ^ 31) 0 3 2) → id = bits v.toNat 16 10 → fb s (diePage .die d) fDIE_STATUS_CTXBUSY = false → ((∀ c ∈ dieCtxCores s d id, coreHalted s c = true)) →
    Completes (.ctxopClose d req v) s fun t =>
      fb t (diePage .die d) fDIE_STATUS_CTXBUSY = true ∧ (∀ c ∈ dieCtxCores s d id, ∀ h, (handle t c h).state ≠ 1) :) ∧
  (∀ (s : State) (d id : Nat) (req : Req) (v : Word),
    d < 8 → Granted s req (diePage .die d) 0x60 (setBits (v.toNat ||| 2 ^ 31) 0 3 3) → id = bits v.toNat 16 10 → fb s (diePage .die d) fDIE_STATUS_CTXBUSY = false → ((∀ c ∈ dieCtxCores s d id, coreHalted s c = true)) →
    Completes (.ctxopRegen d req v) s fun t =>
      fb t (diePage .die d) fDIE_STATUS_CTXBUSY = true ∧ (∀ c ∈ dieCtxCores s d id, ∀ b ∈ coreBlks, rd t (corePage b c) 0xC = rd s (corePage b c) 0xC / 64 * 64 + bits v.toNat 8 6) :) ∧
  (∀ (s : State) (d id : Nat) (req : Req) (v : Word),
    d < 8 → Granted s req (diePage .die d) 0x60 (setBits (v.toNat ||| 2 ^ 31) 0 3 4) → id = bits v.toNat 16 10 → fb s (diePage .die d) fDIE_STATUS_CTXBUSY = false → ((∀ c ∈ dieCtxCores s d id, coreHalted s c = true)) →
    Completes (.ctxopClear d req v) s fun t =>
      fb t (diePage .die d) fDIE_STATUS_CTXBUSY = true ∧ (∀ c ∈ dieCtxCores s d id, seqSt t c = 0 ∧ (core t c).stopped = false ∧ (qe t c).slots = []) :) ∧
  (∀ (s : State) (d : Nat),
    d < 8 → fb s (diePage .die d) fDIE_STATUS_CTXBUSY = true →
    Completes (.ctxopComplete d) s fun t =>
      fb t (diePage .die d) fDIE_STATUS_CTXBUSY = false ∧ fb t (diePage .die d) fDIE_CTXOP_STAT_BUSY = false ∧ fd t (diePage .die d) fDIE_CTXOP_STAT_CODE = cOK ∧ rd64 t (diePage .die d) 0xC10 = (rd64 s (diePage .die d) 0xC10 + 1) % 2 ^ 64 :) ∧
  (∀ (s : State) (r : Nat) (k : HCmd),
    r < 128 → nextCmd s r 5 = some k → cmdCheck s k true = cOK → mayAdvance s (cmdCtx k) = true →
    Completes (.ctxTeardown r) s fun t =>
      (ctx t (cmdCtx k)).st = 3 ∧ (ctx t (cmdCtx k)).itin = none ∧ (ctx t (cmdCtx k)).gen = ((ctx s (cmdCtx k)).gen + 1) % 64 ∧ (ctx t (cmdCtx k)).tear = some { ring := k.ring, cid := entCid k.entry, flags := entFlags k.entry, count := 0 } :) ∧
  (∀ (s : State) (id g : Nat),
    id < 1024 → (ctx s id).st = 3 → (ctx s id).wait = 0 → (ctx s id).tear = none → firstDrain (ctx s id).drains = some g → (g + 1) % 64 = (ctx s id).gen →
    Completes (.drainExpiry id) s fun t =>
      ctx t id = { gen := (ctx s id).gen, drains := tdel (ctx s id).drains g } :) ∧
  (∀ (s : State) (id g : Nat),
    id < 1024 → (ctx s id).st ≠ 3 → (ctx s id).wait = 0 → firstDrain (ctx s id).drains = some g →
    Completes (.drainExpiry id) s fun t =>
      ctx t id = { ctx s id with drains := tdel (ctx s id).drains g } :) ∧
  (∀ (s : State) (id g : Nat) (r : Run),
    id < 1024 → (ctx s id).st = 3 → (ctx s id).wait = 0 → (ctx s id).tear = some r → firstDrain (ctx s id).drains = some g → (g + 1) % 64 = (ctx s id).gen → (ring s r.ring).en = true → bit r.flags 0 = false →
    Completes (.drainExpiry id) s fun t =>
      ctx t id = { gen := (ctx s id).gen, drains := tdel (ctx s id).drains g } ∧ t.out = s.out ++ [.record r.ring ((ring s r.ring).cplw % 2 ^ (ring s r.ring).logsize) r.cid cOK (b2n (((ring s r.ring).cplw / 2 ^ (ring s r.ring).logsize) % 2 == 0)) (ring s r.ring).head (64 * id + (ctx s id).gen) 0] :)

/-- A notice handled at hub control core 0 does what its kind asks. ABORT, or LOST in a module that is not HOT, resets the job's
context, which answers ABORTED; one failure too many fails the context, as LOST with no milestone does; LOST of a HOT module's own
side makes it REJOINING. A query from the partner is answered with the latest milestone; its answer leaves the pair ISOLATED. The
coordinator with every ABORTED sends RESUME, with every ARMED it sends GO; RESUME sets the milestone, a context whose cores have
napped is armed, GO posts the step after it. POSITION and its acknowledgement do their part; a notice unanswered is sent again, 16
times; a barrier out of time reports who is silent, or aborts the step. Gridlock recovery clears the capture it used. (R423, R427, R479, R511, R512, R513, R515, R516, R518) -/
def Obligations.IncidentCommandsComplete : Prop :=
  (∀ (s : State) (job m : Word) (subj id : Nat) (i : Itin),
    jobCtxs s job.toNat = [id] → (ctx s id).itin = some i → (ctx s id).st = 1 → (ctx s id).bar.phase = 0 → (ctx s id).fails = 0 → pairMode s ≠ 2 → m.toNat ≠ 2 ^ 32 - 1 → 1 < failLimit s →
    Completes (.incidentLost job subj m) s fun t =>
      (ctx t id).bar.phase = 1 ∧ (ctx t id).bar.step = stepOf s id ∧ subj ∈ (ctx t id).bar.lost ∧ (ctx t id).posted = none ∧ (ctx t id).over = latest s id :) ∧
  (∀ (s : State) (job m : Word) (subj id : Nat) (i : Itin),
    jobCtxs s job.toNat = [id] → (ctx s id).itin = some i → twinMode s ≠ 2 → m.toNat = 2 ^ 32 - 1 →
    Completes (.incidentLost job subj m) s fun t =>
      (ctx t id).st = 2 ∧ (ctx t id).code = cCLOSURE :) ∧
  (∀ (s : State) (job m : Word) (subj id : Nat) (i : Itin),
    jobCtxs s job.toNat = [id] → (ctx s id).itin = some i → twinMode s = 2 → subj ∈ i.mods → subj ≠ partner s →
    Completes (.incidentLost job subj m) s fun t =>
      pst t = 7 ∧ t.twin.role = 6 ∧ (ctx t id).posted = none ∧ (ctx t id).owed = [] :) ∧
  (∀ (s : State) (job m : Word) (subj id : Nat) (i : Itin),
    jobCtxs s job.toNat = [id] → (ctx s id).itin = some i → twinMode s = 2 → subj ∉ i.mods → subj ∈ i.rep → subj ≠ partner s →
    Completes (.incidentLost job subj m) s fun t =>
      pst t = 7 ∧ t.twin.role = 3 ∧ (ctx t id).posted = (ctx s id).posted :) ∧
  (∀ (s : State) (dev : Nat) (l : List Nat),
    pst s ≠ 0 → dev = partner s → l = ((s.hub.ctxs.map (·.1)).filter (fun id => (ctx s id).st == 1)).map (latest s) →
    Completes (.incidentQuery dev) s fun t =>
      t.out.getLast? = some (.notice { dev := dev, kind := 3, subj := thisDev s, mile := l.foldl (fun m n => if mileLe n m then m else n) (l.headD 0) }) :) ∧
  (∀ (s : State) (dev : Nat),
    dev = partner s → s.twin.query.isSome = true →
    Completes (.incidentState dev) s fun t =>
      pst t = 4 ∧ t.twin.query = none ∧ bit (intRaw t twinPage) 17 = true :) ∧
  (∀ (s : State) (job step : Word) (code id : Nat) (i : Itin),
    jobCtxs s job.toNat = [id] → (ctx s id).itin = some i → (ctx s id).st = 1 → (((ctx s id).bar.phase = 0 ∨ (ctx s id).bar.phase = 3 ∨ (ctx s id).bar.step ≠ step.toNat)) → (if (ctx s id).bar.step = step.toNat then (ctx s id).fails + 1 else 1) < failLimit s →
    Completes (.incidentAbort job step code) s fun t =>
      (ctx t id).bar.phase = 1 ∧ (ctx t id).bar.step = step.toNat ∧ (ctx t id).bar.code = code ∧ (ctx t id).posted = none ∧ (ctx t id).fails = (if (ctx s id).bar.step = step.toNat then (ctx s id).fails + 1 else 1) :) ∧
  (∀ (s : State) (job step : Word) (code id : Nat) (i : Itin),
    jobCtxs s job.toNat = [id] → (ctx s id).itin = some i → (ctx s id).st = 1 → (ctx s id).bar.phase = 0 → (ctx s id).bar.step = step.toNat → failLimit s ≤ (ctx s id).fails + 1 →
    Completes (.incidentAbort job step code) s fun t =>
      (ctx t id).st = 2 :) ∧
  (∀ (s : State) (dev id : Nat) (job c : Word) (i : Itin),
    jobCtxs s job.toNat = [id] → (ctx s id).itin = some i → i.mods = [dev] → dev = thisDev s → (ctx s id).bar.phase = 1 → (ctx s id).bar.lost = [] → (ctx s id).bar.lostAt = [] →
    Completes (.incidentAborted dev job c) s fun t =>
      (ctx t id).bar.l = c.toNat ∧ t.out.getLast? = some (.notice { dev := dev, kind := 6, subj := dev, job := i.job, mile := c.toNat }) :) ∧
  (∀ (s : State) (id : Nat) (job l : Word),
    jobCtxs s job.toNat = [id] → (ctx s id).bar.phase = 1 →
    Completes (.incidentResume job l) s fun t =>
      (ctx t id).bar.phase = 2 ∧ (ctx t id).bar.l = l.toNat ∧ (ctx t id).mile = (if ((ctx s id).owed.filter (fun m => mileLe m l.toNat)).isEmpty then l.toNat else (ctx s id).mile) :) ∧
  (∀ (s : State) (id : Nat) (i : Itin),
    id < 1024 → (ctx s id).itin = some i → (ctx s id).bar.phase = 2 → (ctxCores s id).all (fun c => cstate s c == 1 || (match (seqr s c).wait with | .nap _ _ _ _ => true | _ => false)) = true → i.place.any (fun p => coreClosed s p.core) = false →
    Completes (.contextArmed id) s fun t =>
      (ctx t id).bar.phase = 3 ∧ t.out.getLast? = some (.notice { dev := coordinator i (ctx s id).bar, kind := 7, subj := thisDev s, job := i.job, mile := (ctx s id).bar.l }) :) ∧
  (∀ (s : State) (dev id : Nat) (job l : Word) (i : Itin),
    jobCtxs s job.toNat = [id] → (ctx s id).itin = some i → i.mods = [dev] → dev = thisDev s → (ctx s id).bar.phase ≠ 0 → (ctx s id).bar.lost = [] → (ctx s id).bar.l = l.toNat →
    Completes (.incidentArmed dev job l) s fun t =>
      dev ∈ (ctx t id).bar.armed ∧ t.out.getLast? = some (.notice { dev := dev, kind := 8, subj := dev, job := i.job, mile := l.toNat }) :) ∧
  (∀ (s : State) (dev id : Nat) (job l : Word),
    jobCtxs s job.toNat = [id] → (ctx s id).bar.phase = 3 → (ctx s id).bar.l = l.toNat →
    Completes (.incidentGo dev job l) s fun t =>
      (ctx t id).posted = some ((l.toNat + 1) % 2 ^ 32) ∧ (ctx t id).bar.phase = 0 :) ∧
  (∀ (s : State) (dev : Nat) (job m : Word) (moved : List (Nat × Nat × Nat)),
    Completes (.incidentPosition dev job m moved) s fun t =>
      t.out.getLast? = some (.notice { dev := dev, kind := 10, subj := thisDev t, job := job.toNat, mile := m.toNat }) :) ∧
  (∀ (s : State) (dev : Nat) (f : Freeze),
    s.hub.freeze = some f →
    Completes (.incidentAck dev) s fun t =>
      t.hub.freeze = some { f with waiting := f.waiting.erase dev } :) ∧
  (∀ (s : State) (i : Nat) (a : Await),
    s.hub.awaits[i]? = some a → a.sent ≤ 16 →
    Completes (.noticeResend i) s fun t =>
      t.out.getLast? = some (.notice a.n) ∧ t.hub.awaits[i]? = some { a with sent := a.sent + 1 } :) ∧
  (∀ (s : State) (i : Nat) (a : Await),
    s.hub.awaits[i]? = some a → 17 ≤ a.sent → a.n.kind ≠ 2 →
    Completes (.noticeResend i) s fun t =>
      t.out = s.out ∧ t.hub.awaits = s.hub.awaits.eraseIdx i :) ∧
  (∀ (s : State) (i id : Nat) (a : Await) (k : Itin),
    s.hub.awaits[i]? = some a → 17 ≤ a.sent → a.n.kind = 2 → soleJobs s = [(id, k)] → a.n.dev ∈ k.mods →
    Completes (.noticeResend i) s fun t =>
      (∀ d ∈ k.mods, d ≠ a.n.dev → Out.notice { dev := d, kind := 1, subj := a.n.dev, cause := cTIMEOUT, job := k.job, mile := 2 ^ 32 - 1 } ∈ t.out) :) ∧
  (∀ (s : State) (id : Nat) (i : Itin) (ms : List Nat),
    id < 1024 → (ctx s id).itin = some i → 2 ≤ (ctx s id).bar.phase → coordinator i (ctx s id).bar = thisDev s → ms = i.mods.filter (fun m => !(ctx s id).bar.lost.contains m) →
    Completes (.barrierTimeout id) s fun t =>
      (∀ d ∈ ms, Out.notice { dev := d, kind := 4, subj := thisDev s, cause := cTIMEOUT, job := i.job, mile := (ctx s id).bar.step } ∈ t.out) :) ∧
  (∀ (s : State) (id m : Nat) (i : Itin) (ms : List Nat),
    id < 1024 → (ctx s id).itin = some i → (ctx s id).bar.phase = 1 → coordinator i (ctx s id).bar = thisDev s → ms = i.mods.filter (fun m => !(ctx s id).bar.lost.contains m) → ms.filter (fun m => ((ctx s id).bar.aborted.find? (fun e => e.1 == m)).isNone) = [m] →
    Completes (.barrierTimeout id) s fun t =>
      (∀ d ∈ ms, Out.notice { dev := d, kind := 1, subj := m, cause := cTIMEOUT, job := i.job, mile := 2 ^ 32 - 1 } ∈ t.out) :) ∧
  (∀ (s : State) (c : Nat),
    c < 1152 → fb s (flowPage c) fFLOW_GRID_STAT_FOUND = true →
    Completes (.gridlockRecovery c) s fun t =>
      fb t (flowPage c) fFLOW_GRID_STAT_FOUND = false :)

/-- Step 1 ends with XTAL_FAIL as the crystal was judged, and step 2 begins where its conditions hold. Hub boot takes the slot of an
accepted image, or leaves the ROM to serve the management port alone. The service image starts the dies that are not closed;
memory starts, zeroed in a cold start; a wave powers the six lowest clusters that are off; a proving batch leaves its good cores
OFF and goes to the next, the last closes what failed twice; a core-test round closes what failed and counts what it tested. Ports
start from the fabric record under XEPOCH 1, or wait for a fabric configuration; a soak closes the lanes that failed twice. The
start is done with the grade of the first row that holds. A step over its limit is reported; a record is saved between steps only. (R471, R524, R526, R528, R530, R531, R532, R533, R534, R539, R541, R542) -/
def Obligations.StartCommandsComplete : Prop :=
  (∀ (s : State),
    s.pins.aux = true → s.pins.step1 = false → s.pins.hold1 = false →
    Completes (.alwaysOnStart) s fun t =>
      t.pins.step1 = true ∧ fb t (hubPage .clk) fCLK_STATUS_XTAL_FAIL = !fb s (hubPage .clk) fCLK_STATUS_XTAL_OK ∧ stepNo t = (if s.pins.pwrEn && s.pins.v12 && s.pins.flashExtN && !s.pins.trip && !s.pins.standby && !fb s aon fAON_READY_DONE then 2 else 0) :) ∧
  (∀ (s : State) (k : Nat),
    stepNo s = 2 → bootSlot s = some k → refPresent s = true →
    Completes (.hubBoot) s fun t =>
      stepNo t = 3 ∧ fd t aon fAON_START_STAT_SLOT = k ∧ fd t aon fAON_GRADE_IN0_HCORES = 15 ∧ fb t (hubPage .mgmt) fMGMT_STATUS_ROMONLY = false ∧ t.pins.pwrGood = true :) ∧
  (∀ (s : State),
    stepNo s = 2 → bootSlot s = none →
    Completes (.hubBoot) s fun t =>
      stepNo t = 2 ∧ fb t (hubPage .mgmt) fMGMT_STATUS_ROMONLY = true ∧ t.pins.pwrGood = true :) ∧
  (∀ (s : State) (copyOk : Bool) (bad worse : List Nat),
    stepNo s = 3 → accepted s (svcImg s (fd s aon fAON_START_STAT_SLOT)) = true →
    Completes (.serviceImageLoad copyOk bad worse) s fun t =>
      stepNo t = 4 ∧ fb t (diePage .die 8) fDIE_STATUS_CTL0_OK = true ∧ fd t (diePage .die 8) fDIE_STATUS_STATE = 3 :) ∧
  (∀ (s : State) (d : Nat) (copyOk : Bool),
    stepNo s = 3 → accepted s (svcImg s (fd s aon fAON_START_STAT_SLOT)) = true → d < 8 → closed s (cmDie d) = false →
    Completes (.serviceImageLoad copyOk [] []) s fun t =>
      fd t (diePage .die d) fDIE_STATUS_STATE = 3 ∧ dieActive t d = true :) ∧
  (∀ (s : State) (valid : Nat) (fails : List (Nat × Nat × Nat)),
    stepNo s = 4 →
    Completes (.memoryStart valid fails) s fun t =>
      stepNo t = 5 :) ∧
  (∀ (s : State) (m valid : Nat),
    stepNo s = 4 → m < 16 → closed s (cmStack m) = false →
    Completes (.memoryStart valid []) s fun t =>
      fd t (memcPage m) fMEMC_STATUS_STATE = 2 ∧ t.pins.copy = true ∧ (fb s aon fAON_READY_WARM = false → t.mem = []) :) ∧
  (∀ (s : State) (d : Nat) (ks : List Nat),
    d < 8 → stepNo s = 5 → dieActive s d = true → ks = (((List.range 36).filter (fun k => !closed s (cmCluster (36 * d + k)) && fd s (clusPage (36 * d + k)) fCLUS_STATUS_RAIL == 0)).take 6).map (fun k => 36 * d + k) →
    Completes (.powerUpWave d 0 0) s fun t =>
      (∀ k ∈ ks, fd t (clusPage k) fCLUS_STATUS_RAIL = 2 ∧ 2 ≤ fd t (clusPage k) fCLUS_STATUS_PLL) :) ∧
  (∀ (s : State) (n : Nat) (cs fails : List Nat),
    stepNo s = 6 → fb s aon fAON_READY_TK = false → n = s.pins.batch → n < 3 → cs = (List.range 1152).filter (fun c => clusterSlot c == n && !coreClosed s c && dieActive s (c / 144)) →
    Completes (.provingBatch fails) s fun t =>
      t.pins.batch = n + 1 ∧ t.pins.again = s.pins.again ++ cs.filter (fun c => fails.contains c) ∧ (∀ c ∈ cs, c ∉ fails → cstate t c = 2) :) ∧
  (∀ (s : State) (c : Nat) (fails : List Nat),
    stepNo s = 6 → fb s aon fAON_READY_TK = false → fb s aon fAON_READY_DONE = false → 4 ≤ s.pins.batch → c ∈ s.pins.again → c ∈ fails → c < 1152 →
    Completes (.provingBatch fails) s fun t =>
      stepNo t = 7 ∧ coreClosed t c = true :) ∧
  (∀ (s : State) (l fails : List Nat) (reqs : List (Nat × Nat)),
    stepNo s = 6 → fb s aon fAON_READY_TK = true → fb s aon fAON_READY_DONE = false → l = ((List.range 8).map (fun d => ((((List.range 144).map (fun i => 144 * d + i)).filter (fun c => !bit (tget 0 s.fuseMap (cmCore c / 32)).toNat (cmCore c % 32))).drop (12 * s.pins.batch)).take 12)).flatten →
    Completes (.tkCoreTestRound fails reqs) s fun t =>
      fd t aon fAON_TK_PROG_TESTED = (fd s aon fAON_TK_PROG_TESTED + l.length) % 2 ^ 11 ∧ (∀ c ∈ l, c ∈ fails → coreClosed t c = true) :) ∧
  (∀ (s : State) (valid : Nat),
    stepNo s = 7 → s.flash.fab = none →
    Completes (.portStart valid) s fun t =>
      stepNo t = 8 ∧ fb t aon fAON_READY_WAITFAB = true :) ∧
  (∀ (s : State) (valid : Nat) (f : FabRec),
    stepNo s = 7 → s.flash.fab = some f →
    Completes (.portStart valid) s fun t =>
      fb t aon fAON_START_STAT_FABREC = true ∧ xDev t 9 = f.dev % 2 ^ 10 ∧ injX t 9 = 1 ∧ t.host.dev = true :) ∧
  (∀ (s : State) (p l m : Nat) (bad worse : List (Nat × Nat)),
    stepNo s = 7 → fb s aon fAON_READY_TK = true → fb s aon fAON_READY_DONE = false → p < 40 → l < 9 → (p, m) ∈ worse → bit m l = true →
    Completes (.tkPortSoak bad worse) s fun t =>
      closed t (cmLane p 0 l) = true :) ∧
  (∀ (s : State),
    stepNo s = 8 → fb s aon fAON_READY_DONE = false →
    Completes (.startDone) s fun t =>
      fb t aon fAON_READY_DONE = true ∧ gradeOf t = gradeCode (gradeWhy s) ∧ bit (intRaw t aon) 10 = true ∧ rd64 t aon 0xC18 = (rd64 s aon 0xC18 + 1) % 2 ^ 64 :) ∧
  (∀ (s : State),
    stepNo s = 7 → fb s aon fAON_START_STAT_FABREC = true → fb s aon fAON_READY_DONE = false → ((portsUp s = true ∨ s.pins.limit = true)) →
    Completes (.startDone) s fun t =>
      fb t aon fAON_READY_DONE = true :) ∧
  (∀ (s : State),
    2 ≤ stepNo s → stepNo s ≤ 7 →
    Completes (.startStepLimit) s fun t =>
      bit (intRaw t aon) 12 = true ∧ stepNo t = stepNo s ∧ t.pins.limit = (if stepNo s = 7 then true else s.pins.limit) :) ∧
  (∀ (s : State),
    fb s aon fAON_READY_DONE = true → s.hub.ctxs.any (fun e => e.2.posted.isSome || !e.2.owed.isEmpty) = false → fb s aon fAON_READY_WAITFAB = false →
    Completes (.recordSave) s fun t =>
      t.flash.fab = some (fabRecord s) ∧ t.flash.log = s.flash.log :)

/-- A failed phase lowers the limit by 110 W, not below 1,500; a regulator fault resets its cluster and marks it, and a second within
an hour closes it. Samples accumulate until the limiter's interval shows their average, lowering F one step when it exceeds the
limit. The fast throttle covers its clusters until the current falls, 50 µs at the least. Targets, REST and its wake, holds, die
IDLE and STANDBY change the states the rules give. Temperatures show the hottest sensor; the thermal trip cuts main power. Set
points, frequency targets and the power limit take what is written. (R547, R548, R549, R550, R551, R552, R555, R559, R560, R566, R568, R569) -/
def Obligations.PowerCommandsComplete : Prop :=
  (∀ (s : State) (d ph : Nat),
    d < 11 → fd s (pwr d) fPWR_STATUS_PHASES ≠ 0 →
    Completes (.phaseFailure d ph) s fun t =>
      fd t (pwr d) fPWR_STATUS_PHASES = fd s (pwr d) fPWR_STATUS_PHASES - 1 ∧ fd t hubPwr fPWR_LIMIT_WATTS = max 1500 (fd s hubPwr fPWR_LIMIT_WATTS - 110) ∧ t.reports = s.reports ++ [{ page := (pwr d).no, source := 0xF5, code := cNOT_READY, detail := ph }] ∧ bit (intRaw t (pwr d)) 8 = true :) ∧
  (∀ (s : State) (k : Nat),
    k < 288 → fd s (clusPage k) fCLUS_STATUS_RAIL ≠ 0 → (s.power.regAt.find? (fun e => e.1 == k)).isNone = true →
    Completes (.regulatorFault k) s fun t =>
      fb t (clusPage k) fCLUS_STATUS_REGFAULT = true ∧ tget 0 t.power.regAt k = s.now ∧ bit (intRaw t (clusPage k)) 8 = true :) ∧
  (∀ (s : State) (k j t0 : Nat),
    k < 288 → fd s (clusPage k) fCLUS_STATUS_RAIL ≠ 0 → s.power.regAt.find? (fun e => e.1 == k) = some (j, t0) → s.now ≤ t0 + hourTicks 1 → GradeHolds s →
    Completes (.regulatorFault k) s fun t =>
      closed t (cmCluster k) = true :) ∧
  (∀ (s : State) (mv ma : Nat) (dies : List Nat),
    s.pins.aux = true →
    Completes (.powerSample mv ma dies) s fun t =>
      t.power.nsamp = s.power.nsamp + 1 ∧ t.power.psum = s.power.psum + mv * ma / 1000 ∧ fd t hubPwr fPWR_MEAS_AMPS = min 511 (ma / 1000) :) ∧
  (∀ (s : State),
    s.power.nsamp ≠ 0 →
    Completes (.limiterInterval) s fun t =>
      fd t hubPwr fPWR_MEAS_WATTS = min 4095 (s.power.psum / s.power.nsamp / 1000) ∧ t.power.nsamp = 0 ∧ t.power.psum = 0 :) ∧
  (∀ (s : State),
    s.power.nsamp ≠ 0 → fb s hubPwr fPWR_LIM_CTL_LEN = true → min (fd s hubPwr fPWR_LIMIT_WATTS) (300 * (s.power.vsum / s.power.nsamp) / 1000) < s.power.psum / s.power.nsamp / 1000 → fd s hubPwr fPWR_LIM_STAT_FAPPLIED ≤ fmax s → fd s hubPwr fPWR_LIM_CTL_MINF < fd s hubPwr fPWR_LIM_STAT_FAPPLIED →
    Completes (.limiterInterval) s fun t =>
      fd t hubPwr fPWR_LIM_STAT_FAPPLIED = max (fd s hubPwr fPWR_LIM_CTL_MINF) (fd s hubPwr fPWR_LIM_STAT_FAPPLIED - 4) ∧ actedNow t = true :) ∧
  (∀ (s : State) (d : Nat),
    d < 12 → tget 0 s.power.throt d = 0 →
    Completes (.fastThrottle d) s fun t =>
      (∀ k < 288, (d = 11 ∨ k / 36 = d) → fb t (clusPage k) fCLUS_STATUS_THROTTLED = true) ∧ fb t hubPwr fPWR_LIM_STAT_THROTTLE = true ∧ tget 0 t.power.throt d = s.now + 1 ∧ rd64 t hubPwr 0xC20 = (rd64 s hubPwr 0xC20 + 1) % 2 ^ 64 :) ∧
  (∀ (s : State) (d ma t0 : Nat),
    d < 12 → s.power.throt = [(d, t0)] → t0 ≠ 0 → t0 - 1 + usTicks 50 ≤ s.now → 100 * ma < 95 * throttleLevel s d →
    Completes (.fastThrottleRelease d ma) s fun t =>
      t.power.throt = [] ∧ (∀ k < 288, (d = 11 ∨ k / 36 = d) → fb t (clusPage k) fCLUS_STATUS_THROTTLED = false) ∧ fb t hubPwr fPWR_LIM_STAT_THROTTLE = false :) ∧
  (∀ (s : State) (k i c : Nat) (req : Req) (v : Word),
    k < 288 → Granted s req (clusPage k) 0x44 v.toNat → i < 4 → (clusterCores k)[i]? = some c → cstate s c ≠ 3 →
    Completes (.coreTargetWrite k req v) s fun t =>
      coreTarget t c = bits v.toNat (2 * i) 2 :) ∧
  (∀ (s : State) (c : Nat),
    c < 1152 → coreTarget s c = 1 → cstate s c = 0 → ((coreHalted s c = true ∨ (seqr s c).napped = true)) →
    Completes (.restEntry c) s fun t =>
      cstate t c = 1 ∧ seqSt t c = 0 ∧ rd64 t (clusPage (clusterOf c)) 0xC08 = (rd64 s (clusPage (clusterOf c)) 0xC08 + 1) % 2 ^ 64 :) ∧
  (∀ (s : State) (c : Nat),
    c < 1152 → cstate s c = 1 →
    Completes (.restWake c) s fun t =>
      cstate t c = 0 ∧ fd t (clusPage (clusterOf c)) fCLUS_STATUS_RAIL = 2 ∧ rd64 t (clusPage (clusterOf c)) 0xC00 = (rd64 s (clusPage (clusterOf c)) 0xC00 + 1) % 2 ^ 64 :) ∧
  (∀ (s : State) (k : Nat) (req : Req) (v : Word),
    k < 288 → Granted s req (clusPage k) 0x48 v.toNat → bit v.toNat 0 = true →
    Completes (.holdWrite k req v) s fun t =>
      fb t (clusPage k) fCLUS_CTL_HOLD = true ∧ (fb s (clusPage k) fCLUS_CTL_HOLD = false → fd t (clusPage k) fCLUS_STATUS_RAIL = 2) :) ∧
  (∀ (s : State) (d : Nat),
    d < 8 → fb s (pwr d) fPWR_DIE_CTL_IDLE_EN = true → fd s (pwr d) fPWR_STATUS_DSTATE = 1 → ((∀ i < 144, cstate s (144 * d + i) ≠ 0)) →
    Completes (.dieIdleEntry d) s fun t =>
      fd t (pwr d) fPWR_STATUS_DSTATE = 2 ∧ fd t (diePage .die d) fDIE_STATUS_STATE = 4 :) ∧
  (∀ (s : State) (d : Nat),
    d < 8 → fd s (pwr d) fPWR_STATUS_DSTATE = 2 →
    Completes (.dieIdleExit d) s fun t =>
      fd t (pwr d) fPWR_STATUS_DSTATE = 1 ∧ fd t (diePage .die d) fDIE_STATUS_STATE = 3 :) ∧
  (∀ (s : State) (req : Req) (v : Word),
    Granted s req hubPwr 0x90 (v.toNat ||| 1) → contextsFree s = true → ((pst s = 0 ∨ pst s = 1 ∨ pst s = 4 ∨ pst s = 6)) → fb s aon fAON_READY_DONE = true →
    Completes (.standbyEntry req v) s fun t =>
      t.pins.standby = true ∧ t.pins.pwrGood = false ∧ t.cores = [] ∧ (s.slices.all (fun e => e.2.q.isEmpty) = true → t.mem = s.mem) :) ∧
  (∀ (s : State) (d : Nat) (temps stackTemps : List Nat),
    d < 11 →
    Completes (.tempSample d temps stackTemps) s fun t =>
      fd t (pwr d) fPWR_STATUS_TEMP = (temps.take (sensors d)).foldl max 0 % 2 ^ 8 :) ∧
  (∀ (s : State),
    s.pins.aux = true →
    Completes (.thermalTrip) s fun t =>
      t.pins.trip = true ∧ t.pins.pwrGood = false ∧ t.cores = [] ∧ t.mem = [] :) ∧
  (∀ (s : State) (k : Nat) (req : Req) (v : Word),
    k < 288 → Granted s req (clusPage k) 0x4C v.toNat → v.toNat % 128 + fd s (clusPage k) fCLUS_VSET_OFFSET ≤ 80 →
    Completes (.setpointWrite k req v) s fun t =>
      fd t (clusPage k) fCLUS_VSET_SETPT = v.toNat % 128 ∧ tget 0 t.pins.setpt k = v.toNat % 128 :) ∧
  (∀ (s : State) (k : Nat) (req : Req) (v : Word),
    k < 288 → Granted s req (clusPage k) 0x50 v.toNat → v.toNat % 128 ≤ fd s (clusPage k) fCLUS_FREQ_WALKF →
    Completes (.freqTargetWrite k req v) s fun t =>
      fd t (clusPage k) fCLUS_FREQ_TARGET = v.toNat % 128 :) ∧
  (∀ (s : State) (req : Req) (v : Word),
    Granted s req hubPwr 0x80 v.toNat →
    Completes (.pwrLimitWrite req v) s fun t =>
      fd t hubPwr fPWR_LIMIT_WATTS = bits v.toNat fPWR_LIMIT_WATTS.lo fPWR_LIMIT_WATTS.w :)

/-- A judged crystal is used, a failed one is not; a cluster PLL starts, locks, and coasts when it loses lock until it locks again; a
die's core clock coasts and is noted as lost; a port die's reference is noted when it is lost and when it returns; the loss of the
host's reference clock disables every ring. Relocks start a PLL again, and CLRLOST clears the note of a lost clock. (R376, R563, R564, R565, R569, R570) -/
def Obligations.ClockCommandsComplete : Prop :=
  (∀ (s : State) (w0 : Nat) (wins : List Nat),
    s.pins.aux = true → s.pins.step1 = false → wins.length = 8 → w0 = wins.headD 0 → ((∀ w ∈ wins, (w - 16384 + (16384 - w)) * 1000000 ≤ 50000 * 16384 ∧ (w - w0 + (w0 - w)) * 1000000 ≤ 200 * w0)) →
    Completes (.crystalJudged wins) s fun t =>
      fb t (hubPage .clk) fCLK_STATUS_XTAL_OK = true ∧ fb t (hubPage .clk) fCLK_STATUS_ONRC = false ∧ fd t (hubPage .clk) fCLK_XMEAS_WINS = 8 :) ∧
  (∀ (s : State),
    fb s (hubPage .clk) fCLK_STATUS_XTAL_OK = true → GradeHolds s →
    Completes (.crystalFail) s fun t =>
      fb t (hubPage .clk) fCLK_STATUS_XTAL_OK = false ∧ fb t (hubPage .clk) fCLK_STATUS_XTAL_FAIL = true ∧ fb t (hubPage .clk) fCLK_STATUS_ONRC = true ∧ bit (intRaw t (hubPage .clk)) 9 = true :) ∧
  (∀ (s : State) (k : Nat),
    k < 288 → fd s (clusPage k) fCLUS_STATUS_PLL = 0 → closed s (cmCluster k) = false → ((fb s (clusPage k) fCLUS_CTL_HOLD = true ∨ (clusterCores k).any (fun c => cstate s c == 0) = true)) → refPresent s = true →
    Completes (.pllStart k) s fun t =>
      fd t (clusPage k) fCLUS_STATUS_PLL = 1 ∧ rd64 t (clusPage k) 0xC10 = (rd64 s (clusPage k) 0xC10 + 1) % 2 ^ 64 :) ∧
  (∀ (s : State) (k : Nat),
    k < 288 → fd s (clusPage k) fCLUS_STATUS_PLL = 1 → refPresent s = true →
    Completes (.pllLock k) s fun t =>
      fd t (clusPage k) fCLUS_STATUS_PLL = 2 ∧ fb t (clusPage k) fCLUS_STATUS_CLK_LOST = false ∧ fd t (clusPage k) fCLUS_FREQ_CURRENT = clusFreq s k :) ∧
  (∀ (s : State) (k : Nat),
    k < 288 → fd s (clusPage k) fCLUS_STATUS_PLL = 2 → (s.power.pllAt.find? (fun e => e.1 == k)).isNone = true → refPresent s = true →
    Completes (.pllLoss k true) s fun t =>
      fd t (clusPage k) fCLUS_STATUS_PLL = 2 ∧ tget 0 t.power.pllAt k = s.now ∧ rd64 t (diePage .clk (k / 36)) 0xC00 = (rd64 s (diePage .clk (k / 36)) 0xC00 + 1) % 2 ^ 64 ∧ bit (intRaw t (clusPage k)) 9 = true :) ∧
  (∀ (s : State) (d : Nat),
    d < 11 → fb s (diePage .clk d) fCLK_STATUS_LOCKED = true → refPresent s = true →
    Completes (.pllLoss (288 + d) true) s fun t =>
      fb t (diePage .clk d) fCLK_STATUS_LOCKED = true ∧ fb t (diePage .clk d) fCLK_STATUS_CLK_LOST = true ∧ bit (intRaw t (diePage .clk d)) 8 = true :) ∧
  (∀ (s : State) (pd : Nat),
    pd < 2 → fb s (diePage .clk (9 + pd)) fCLK_STATUS_SREF_OK = true →
    Completes (.serdesRefLoss pd) s fun t =>
      fb t (diePage .clk (9 + pd)) fCLK_STATUS_SREF_OK = false ∧ fb t (diePage .clk (9 + pd)) fCLK_STATUS_SREF_LOST = true ∧ bit (intRaw t (diePage .clk (9 + pd))) 10 = true :) ∧
  (∀ (s : State) (pd : Nat),
    pd < 2 → fb s (diePage .clk (9 + pd)) fCLK_STATUS_SREF_OK = false → fb s (diePage .clk (9 + pd)) fCLK_STATUS_SREF_LOST = true →
    Completes (.serdesRefReturn pd) s fun t =>
      fb t (diePage .clk (9 + pd)) fCLK_STATUS_SREF_OK = true ∧ fb t (diePage .clk (9 + pd)) fCLK_STATUS_SREF_LOST = false :) ∧
  (∀ (s : State),
    fb s (hubPage .clk) fCLK_STATUS_HREF_OK = true → GradeHolds s →
    Completes (.hostRefclkLoss) s fun t =>
      fb t (hubPage .clk) fCLK_STATUS_HREF_OK = false ∧ t.host.rings = [] :) ∧
  (∀ (s : State) (k : Nat) (req : Req) (v : Word),
    k < 288 → Granted s req (clusPage k) 0x48 (v.toNat ||| 2) → bit v.toNat 0 = fb s (clusPage k) fCLUS_CTL_HOLD → fd s (clusPage k) fCLUS_STATUS_PLL ≠ 0 → refPresent s = true →
    Completes (.clusRelock k req v) s fun t =>
      fd t (clusPage k) fCLUS_STATUS_PLL = 1 ∧ rd64 t (clusPage k) 0xC10 = (rd64 s (clusPage k) 0xC10 + 1) % 2 ^ 64 :) ∧
  (∀ (s : State) (d : Nat) (req : Req) (v : Word),
    d < 11 → Granted s req (diePage .clk d) 0x44 (v.toNat ||| 1) → refPresent s = true →
    Completes (.clkRelock d req v) s fun t =>
      fb t (diePage .clk d) fCLK_STATUS_LOCKED = true :) ∧
  (∀ (s : State) (d : Nat) (req : Req) (v : Word),
    d < 11 → Granted s req (diePage .clk d) 0x44 (v.toNat ||| 2) → fb s (diePage .clk d) fCLK_STATUS_LOCKED = true →
    Completes (.clkClrlost d req v) s fun t =>
      fb t (diePage .clk d) fCLK_STATUS_CLK_LOST = false :)

/-- A doorbell within its ring's bounds sets TAIL and CHEAD, one beyond them puts the ring in error. A fetched entry waits its turn.
CFG enables an idle ring afresh and disables one with nothing fetched. CTX_CREATE takes the lowest free ID; ITIN_LOAD places an
itinerary; STEP_RUN queues steps, of which one is posted when its conditions hold and completed when every core has executed its
MILE. MILESTONE_WAIT waits for a milestone not reached, and ends when its time is out; HEAL_QUERY writes the summary and the
entries it asks for to host memory and its record; WINDOW sets the window of a VF's context. (R20, R21, R504, R581, R583, R584, R585, R587, R590, R591, R592, R593) -/
def Obligations.RingCommandsComplete : Prop :=
  (∀ (s : State) (r : Nat) (req : Req) (v : Word),
    r < 128 → ((64 ≤ r ∨ Granted s req hostPg (0x400 + 4 * r) v.toNat)) → (ring s r).en = true → ringDist (v.toNat % 65536) (ring s r).head ≤ 2 ^ (ring s r).logsize → ringDist (ring s r).cplw (v.toNat / 65536) ≤ 2 ^ (ring s r).logsize →
    Completes (.doorbell req r v) s fun t =>
      ring t r = { ring s r with tail := v.toNat % 65536, chead := v.toNat / 65536 } :) ∧
  (∀ (s : State) (r : Nat) (req : Req) (v : Word),
    r < 128 → ((64 ≤ r ∨ Granted s req hostPg (0x400 + 4 * r) v.toNat)) → 2 ^ (ring s r).logsize < ringDist (v.toNat % 65536) (ring s r).head →
    Completes (.doorbell req r v) s fun t =>
      (ring t r).state = 2 ∧ (ring t r).tail = (ring s r).tail ∧ bit (intRaw t hostPg) 8 = true :) ∧
  (∀ (s : State) (r e : Nat) (itin : Option Itin) (table : List (BitVec 128)),
    r < 128 → (ring s r).en = true → (ring s r).state = 1 → (ring s r).head ≠ (ring s r).tail → ringDist (ring s r).head (ring s r).chead < 2 ^ (ring s r).logsize → noSuchCommand (e % 2 ^ 512) = false →
    Completes (.commandFetch r e itin table) s fun t =>
      t.host.cmds = s.host.cmds ++ [{ ring := r, entry := e % 2 ^ 512, itin := itin, table := table }] ∧ ring t r = { ring s r with head := ((ring s r).head + 1) % 65536, pend := (ring s r).pend + 1 } ∧ rd64 t hostPg 0xC00 = (rd64 s hostPg 0xC00 + 1) % 2 ^ 64 :) ∧
  (∀ (s : State) (r : Nat) (req : Req) (v : Word),
    Granted s req hostPg 0x64 (v.toNat ||| 16) → r = fd s hostPg fHOST_RING_SEL_RING → (ring s r).en = false →
    Completes (.ringEnable req none v) s fun t =>
      ring t r = { ring s r with logsize := v.toNat % 16, en := true, vector := bits v.toNat 16 11, tail := 0, chead := 0, head := 0, cplw := 0, state := 1 } :) ∧
  (∀ (s : State) (n r : Nat) (req : Req) (v : Word),
    r = 64 + n % 64 → 4 ≤ v.toNat % 16 → v.toNat % 16 ≤ 12 → bits v.toNat 16 11 ≤ 3 → (ring s r).en = false →
    Completes (.ringEnable req (some n) v) s fun t =>
      ring t r = { ring s r with logsize := v.toNat % 16, en := true, vector := bits v.toNat 16 11, tail := 0, chead := 0, head := 0, cplw := 0, state := 1 } :) ∧
  (∀ (s : State) (r : Nat) (req : Req) (v : Word),
    Granted s req hostPg 0x64 (setBits v.toNat 4 1 0) → r = fd s hostPg fHOST_RING_SEL_RING → (ring s r).en = true → (ring s r).pend = 0 → (ring s r).logsize = v.toNat % 16 →
    Completes (.ringDisable req none v) s fun t =>
      (ring t r).en = false ∧ (ring t r).state = 0 :) ∧
  (∀ (s : State) (r id : Nat) (k : HCmd),
    r < 128 → nextCmd s r 1 = some k → k.ring < 64 → cmdCheck s k false = cOK → entBytes k.entry 8 1 ≤ 1 → entTag k.entry = 0 → freeCtx s = some id →
    Completes (.ctxCreate r) s fun t =>
      ctx t id = { gen := (ctx s id).gen, drains := (ctx s id).drains, st := 1, convoy := entBytes k.entry 8 1 == 1, vf := none } :) ∧
  (∀ (s : State) (r : Nat) (k : HCmd) (i : Itin),
    r < 128 → nextCmd s r 2 = some k → cmdCheck s k true = cOK → entBytes k.entry 16 4 ≠ 0 → k.itin = some i → itinCode s k i = cOK → (ctx s (cmdCtx k)).barred = none → (i.place.foldl (fun r p => placeCore r (cmdCtx k) p) (i.data.foldl (fun s d => memWriteSpan s (hubEpoch s) d.1 (wordBytes d.2)) (itinDrop (takeCmd s k) (cmdCtx k)), 0)).2 = cOK →
    Completes (.itinLoad r 0) s fun t =>
      (ctx t (cmdCtx k)).itin = some i ∧ (ctx t (cmdCtx k)).st = 1 ∧ (ctx t (cmdCtx k)).fails = 0 :) ∧
  (∀ (s : State) (r : Nat) (k : HCmd),
    r < 128 → nextCmd s r 3 = some k → cmdCheck s k true = cOK → (ctx s (cmdCtx k)).itin.isSome = true → (ctx s (cmdCtx k)).runs = [] → entBytes k.entry 8 2 ≠ 0 →
    Completes (.stepRun r) s fun t =>
      (ctx t (cmdCtx k)).runs = [{ ring := k.ring, cid := entCid k.entry, flags := entFlags k.entry, count := entBytes k.entry 8 2 }] :) ∧
  (∀ (s : State) (id : Nat) (x : Run) (l : List Run),
    id < 1024 → (ctx s id).st = 1 → (ctx s id).posted = none → (ctx s id).held = false → (ctx s id).bar.phase = 0 → (ctx s id).itin.isSome = true → (ctx s id).runs = x :: l → x.done < x.count → (ctx s id).owed = [] → (ctx s id).barred = none → (ctx s id).wait = 0 → twinMode s ≠ 1 →
    Completes (.stepPost id) s fun t =>
      (ctx t id).posted = some (((ctx s id).mile + 1) % 2 ^ 32) ∧ (ctx t id).mile = (ctx s id).mile :) ∧
  (∀ (s : State) (id m : Nat),
    id < 1024 → (ctx s id).posted = some m → allMiled s id m = true → (ctx s id).owed = [] → (ctx s id).bar.phase = 0 → pairMode s = 0 →
    Completes (.stepCompletion id) s fun t =>
      (ctx t id).posted = none ∧ (ctx t id).mile = m :) ∧
  (∀ (s : State) (r : Nat) (k : HCmd),
    r < 128 → nextCmd s r 4 = some k → cmdCheck s k true = cOK → mileLe (entBytes k.entry 8 4) (ctx s (cmdCtx k)).mile = false → entBytes k.entry 12 4 ≠ 0 →
    Completes (.milestoneWait r) s fun t =>
      (ctx t (cmdCtx k)).waits = (ctx s (cmdCtx k)).waits ++ [{ ring := k.ring, cid := entCid k.entry, flags := entFlags k.entry, mile := entBytes k.entry 8 4 }] :) ∧
  (∀ (s : State) (id r cid : Nat) (x : MWait),
    id < 1024 → (ctx s id).waits.find? (fun w => w.ring == r && w.cid == cid) = some x → (ring s x.ring).en = true → bit x.flags 0 = false →
    Completes (.milestoneWaitTimeout id r cid) s fun t =>
      (ctx t id).waits = (ctx s id).waits.erase x ∧ t.out = s.out ++ [.record x.ring ((ring s x.ring).cplw % 2 ^ (ring s x.ring).logsize) x.cid cTIMEOUT (b2n (((ring s x.ring).cplw / 2 ^ (ring s x.ring).logsize) % 2 == 0)) (ring s x.ring).head (ctxTag s id) (ctx s id).mile] :) ∧
  (∀ (s : State) (r n : Nat) (k : HCmd) (l : List (Nat × LogEnt)),
    r < 128 → nextCmd s r 6 = some k → k.ring < 64 → entTag k.entry = 0 → cmdCheck s k false = cOK → entBytes k.entry 8 8 % 64 = 0 → n = entBytes k.entry 16 4 → n % 32 = 0 → n ≠ 0 → l = healEntries s (entBytes k.entry 20 4) ((n - 64) / 32) none →
    Completes (.healQuery r) s fun t =>
      .hostData (entBytes k.entry 8 8) ((healSummary s ++ (l.map (fun e => healEntry e.1 e.2)).flatten).take n) ∈ t.out :) ∧
  (∀ (s : State) (r base size : Nat) (k : HCmd),
    r < 128 → nextCmd s r 9 = some k → 64 ≤ k.ring → cmdCheck s k true = cOK → base = entBytes k.entry 8 8 → size = entBytes k.entry 16 4 → base % 2 ^ 24 = 0 → size ≤ 4096 → base + size * 2 ^ 24 ≤ 2 ^ 40 → ((∀ i < size, let g := (tget 0 s.grant ((base / 2 ^ 24 + i) % 65536)).toNat; (bits g 16 2 = 1 ∨ bits g 16 2 = 2) ∧ g % 65536 = ctxTag s (cmdCtx k))) →
    Completes (.window r) s fun t =>
      (ctx t (cmdCtx k)).winBase = base ∧ (ctx t (cmdCtx k)).winSize = size :)

/-- Each FABRIC_CFG operation does its part: the device number on every page that holds it, entries of a retired bank, the flip of
XEPOCH, the sum in the record, a bank retired, a port's expected peer, the ports that were OFF started, the record saved. A word
for a hub control core waits, and is answered with the release, or itself, and HOST_EVENT; OUT and HOST_EVENT read as they are,
and HOST_EVENT clears. BAR2's base takes an aligned pair. A read through BAR2, or through a VF's window, answers the bytes of
memory; an aligned write stores its bytes. A trained link shows its width; a configuration request is retried until hub firmware
runs, and then enables VFs. (R30, R31, R376, R394, R529, R533, R578, R581, R594, R596, R609) -/
def Obligations.HostCommandsComplete : Prop :=
  (∀ (s : State) (r dev : Nat) (k : HCmd),
    r < 128 → nextCmd s r 8 = some k → k.ring < 64 → entTag k.entry = 0 → entBytes k.entry 8 1 = 1 → cmdCheck s k false = cOK → dev = entBytes k.entry 10 2 → dev ≤ 1023 → portsOff s = true → s.hub.ctxs.any (fun e => e.2.st == 1) = false →
    Completes (.fabricCfgSetDevice r) s fun t =>
      thisDev t = dev ∧ xDev t 9 = dev ∧ t.host.dev = true :) ∧
  (∀ (s : State) (r first n b : Nat) (k : HCmd),
    r < 128 → nextCmd s r 8 = some k → k.ring < 64 → entTag k.entry = 0 → entBytes k.entry 8 1 = 2 → cmdCheck s k false = cOK → first = entBytes k.entry 12 2 → n = entBytes k.entry 14 2 → first + n ≤ 1024 → xBank s = some b →
    Completes (.fabricCfgWriteTable r) s fun t =>
      (∀ i < n, tget 0 (routesOf t 9).ent (1024 * b + first + i) = k.table.getD i 0 &&& BitVec.ofNat 128 (2 ^ 121 - 1)) ∧ t.host.bank = true :) ∧
  (∀ (s : State) (r b : Nat) (k : HCmd),
    r < 128 → nextCmd s r 8 = some k → k.ring < 64 → entTag k.entry = 0 → entBytes k.entry 8 1 = 3 → cmdCheck s k false = cOK → b = entBytes k.entry 9 1 → b ≤ 1 → xFlipping s = false → xRetired s 9 (1 - injX s 9) = true → xRetired s 10 (1 - injX s 9) = true →
    Completes (.fabricCfgFlip r) s fun t =>
      injX t 9 = b ∧ fd t (xPage 10) fXTAB_STATUS_INJ_XEPOCH = b ∧ (b ≠ injX s 9 → xFlipping t = true) :) ∧
  (∀ (s : State) (r b : Nat) (k : HCmd) (x : Ring),
    r < 128 → nextCmd s r 8 = some k → k.ring < 64 → entTag k.entry = 0 → entBytes k.entry 8 1 = 4 → cmdCheck s k false = cOK → b = entBytes k.entry 9 1 → b ≤ 1 → x = ring s k.ring → x.en = true → bit (entFlags k.entry) 0 = false →
    Completes (.fabricCfgReadSum r) s fun t =>
      t.out = s.out ++ [.record k.ring (x.cplw % 2 ^ x.logsize) (entCid k.entry) cOK (b2n ((x.cplw / 2 ^ x.logsize) % 2 == 0)) x.head 0 ((rd s (xPage 9) (0x4C + 4 * b) + rd s (xPage 10) (0x4C + 4 * b)) % 2 ^ 32)] :) ∧
  (∀ (s : State) (r b : Nat) (k : HCmd),
    r < 128 → nextCmd s r 8 = some k → k.ring < 64 → entTag k.entry = 0 → entBytes k.entry 8 1 = 5 → cmdCheck s k false = cOK → b = entBytes k.entry 9 1 → b ≤ 1 → injX s 9 ≠ b →
    Completes (.fabricCfgRetire r) s fun t =>
      xRetired t 9 b = true ∧ xRetired t 10 b = true :) ∧
  (∀ (s : State) (r p : Nat) (k : HCmd),
    r < 128 → nextCmd s r 8 = some k → k.ring < 64 → entTag k.entry = 0 → entBytes k.entry 8 1 = 6 → cmdCheck s k false = cOK → p = entBytes k.entry 9 1 → p < 40 → entBytes k.entry 10 2 ≤ 1023 → entBytes k.entry 12 1 < 40 → entBytes k.entry 13 1 ≤ 1 →
    Completes (.fabricCfgSetExpect r) s fun t =>
      fd t (portPage p) fPORT_EXPECT_DEVICE = entBytes k.entry 10 2 ∧ fd t (portPage p) fPORT_EXPECT_PORT = entBytes k.entry 12 1 ∧ fd t (portPage p) fPORT_EXPECT_CHECK = entBytes k.entry 13 1 :) ∧
  (∀ (s : State) (r : Nat) (k : HCmd),
    r < 128 → nextCmd s r 8 = some k → k.ring < 64 → entTag k.entry = 0 → entBytes k.entry 8 1 = 7 → cmdCheck s k false = cOK → s.host.dev = true → s.host.bank = true → GradeHolds s →
    Completes (.fabricCfgEnable r) s fun t =>
      fb t aon fAON_READY_WAITFAB = false ∧ (∀ p < 40, closed s (cmPort p) = false → pState s p = 0 → pState t p = 1) :) ∧
  (∀ (s : State) (r : Nat) (k : HCmd),
    r < 128 → nextCmd s r 8 = some k → k.ring < 64 → entTag k.entry = 0 → entBytes k.entry 8 1 = 8 → cmdCheck s k false = cOK →
    Completes (.fabricCfgSave r true) s fun t =>
      t.flash.fab = some (fabRecord s) :) ∧
  (∀ (s : State) (n : Nat) (req : Req) (v : Word),
    n < 4 → Granted s req hostPg (0x80 + 4 * n) v.toNat → ((v.toNat = 1 ∨ v.toNat = 2)) →
    Completes (.mailboxInWrite req n v) s fun t =>
      tget 0 t.host.mbox n = v :) ∧
  (∀ (s : State) (n j : Nat),
    n < 4 → s.host.mbox.find? (fun e => e.1 == n) = some (j, 1) →
    Completes (.mboxReleaseQuery n) s fun t =>
      rd t hostPg (0x90 + 4 * n) = (hubImg s (fd s aon fAON_START_STAT_SLOT)).release % 2 ^ 32 ∧ bit (rd t hostPg 0x4C) 4 = true :) ∧
  (∀ (s : State) (n j : Nat),
    n < 4 → s.host.mbox.find? (fun e => e.1 == n) = some (j, 2) →
    Completes (.mboxEcho n) s fun t =>
      rd t hostPg (0x90 + 4 * n) = 2 ∧ bit (rd t hostPg 0x4C) 4 = true :) ∧
  (∀ (s : State) (n : Nat) (req : Req),
    n < 4 → Readable s req hostPg (0x90 + 4 * n) →
    Completes (.mailboxOutRead req n) s fun t =>
      t.out = s.out ++ [.data req (BitVec.ofNat 32 (rd s hostPg (0x90 + 4 * n)))] :) ∧
  (∀ (s : State) (req : Req),
    Readable s req hostPg 0x4C →
    Completes (.hostEventRead req) s fun t =>
      t.out = s.out ++ [.data req (BitVec.ofNat 32 (rd s hostPg 0x4C % 64))] ∧ rd t hostPg 0x4C % 64 = 0 :) ∧
  (∀ (s : State) (req : Req) (lo hi : Word),
    Granted s req hostPg 0x44 lo.toNat → Granted s req hostPg 0x48 hi.toNat → ((plan s req hostPg 0x44 lo.toNat).new + 2 ^ 32 * (plan s req hostPg 0x48 hi.toNat).new) % bar2Size s = 0 →
    Completes (.bar2BaseWrite req lo hi) s fun t =>
      bar2Base t = bits lo.toNat 30 2 * 2 ^ 30 + bits hi.toNat 0 8 * 2 ^ 32 :) ∧
  (∀ (s : State) (a off n : Nat) (data : List Byte),
    a = bar2Base s + off → off + n ≤ bar2Size s → a + n ≤ 2 ^ 40 → n ≠ 0 → MemSettled s 0xF0 (a / 8 * 8) ((a + n + 7) / 8 * 8 - a / 8 * 8) false = true →
    Completes (.barMemoryAccess false off n false data) s fun t =>
      t.out = s.out ++ [.hostRead 0 (((memReadSpan s (injEpoch s 8 0xF0) (a / 8 * 8) ((a + n + 7) / 8 * 8 - a / 8 * 8)).1.drop (a - a / 8 * 8)).take n)] ∧ t.mem = s.mem :) ∧
  (∀ (s : State) (a off n : Nat) (data : List Byte),
    a = bar2Base s + off → off + n ≤ bar2Size s → a + n ≤ 2 ^ 40 → n ≠ 0 → (chunksOf (a / 8 * 8) ((a + n + 7) / 8 * 8 - a / 8 * 8)).all (fun k => reqCode s (place s (injEpoch s 8 0xF0) k.1).1 { type := 8, sepoch := injEpoch s 8 0xF0, sdie := 8, sunit := 0xF0, addr := k.1, rlen := k.2 } != cOK) = true →
    Completes (.barMemoryAccess false off n false data) s fun t =>
      t.out.getLast? = some (.hostRead 0 (List.replicate n 0)) ∧ t.mem = s.mem :) ∧
  (∀ (s : State) (a off : Nat) (data : List Byte),
    a = bar2Base s + off → a % 8 = 0 → data.length % 8 = 0 → data ≠ [] → off + data.length ≤ bar2Size s → a + data.length ≤ 2 ^ 40 → MemSettled s 0xF0 a data.length true = true →
    Completes (.barMemoryAccess false off data.length true data) s fun t =>
      t = memWriteSpan s (injEpoch s 8 0xF0) a data :) ∧
  (∀ (s : State) (vf id a off n : Nat) (x : Ctx) (data : List Byte),
    vf < 64 → s.hub.ctxs.find? (fun e => e.2.st != 0 && e.2.vf == some vf) = some (id, x) → off + n ≤ x.winSize * 2 ^ 24 → a = x.winBase + off → n ≠ 0 → MemSettled s 0xF0 (a / 8 * 8) ((a + n + 7) / 8 * 8 - a / 8 * 8) false = true →
    Completes (.vfWindowAccess vf 4 off n false data) s fun t =>
      t.out = s.out ++ [.hostRead (vf + 1) (((memReadSpan s (injEpoch s 8 0xF0) (a / 8 * 8) ((a + n + 7) / 8 * 8 - a / 8 * 8)).1.drop (a - a / 8 * 8)).take n)] ∧ t.mem = s.mem :) ∧
  (∀ (s : State) (width rate : Nat) (fl : Bool),
    fd s aon fAON_GRADE_IN0_HCORES ≠ 0 → GradeHolds s →
    Completes (.hostLinkTrained width rate fl) s fun t =>
      fd t hostPg fHOST_STATUS_WIDTH = width % 2 ^ 3 ∧ fb t (hubPage .clk) fCLK_STATUS_HREF_OK = true :) ∧
  (∀ (s : State) (kind fn v : Nat),
    fn < 65 → fd s aon fAON_GRADE_IN0_HCORES = 0 →
    Completes (.pcieConfigurationRequest kind fn v) s fun t =>
      t.out = s.out ++ [.cfgRetry] :) ∧
  (∀ (s : State) (fn v : Nat),
    fn < 65 → fd s aon fAON_GRADE_IN0_HCORES ≠ 0 → v ≤ 64 →
    Completes (.pcieConfigurationRequest 0 fn v) s fun t =>
      fd t hostPg fHOST_STATUS_NUMVF = v :)

/-- While the port exists, ENTDAA gives its address, MCTP control its EID; Casevo reads and writes registers, queries HEAL, makes
fabric operations and fuse commands; PLDM reads sensors, sets the power limit, polls events; a firmware update passes through its
phases; SPDM answers with free values of the model's for what only keys determine. The debug port reads memory words while it is
open, and is refused while locked. A lock stays; a fuse is armed by its key, disarmed by time; a command is programmed, and its
shadow follows when it is done. (R593, R594, R597, R598, R599, R600, R602, R603, R604, R605, R607, R608) -/
def Obligations.ManagementCommandsComplete : Prop :=
  (∀ (s : State) (a : Nat),
    s.pins.pwrGood = true →
    Completes (.entdaa a) s fun t =>
      fd t mgmtPg fMGMT_STATUS_DADDR = a % 2 ^ 7 :) ∧
  (∀ (s : State) (eid : Nat),
    s.pins.pwrGood = true →
    Completes (.mctpControl 1 eid false) s fun t =>
      fd t mgmtPg fMGMT_STATUS_EID = eid % 2 ^ 8 ∧ t.out = s.out ++ [.mgmt 0 [eid]] ∧ rd64 t mgmtPg 0xC00 = (rd64 s mgmtPg 0xC00 + 1) % 2 ^ 64 :) ∧
  (∀ (s : State) (d : Nat),
    s.pins.pwrGood = true → d < 11 → Readable s .mgmt (pwr d) 0x40 →
    Completes (.casevoRegRead (pwr d).no 0x40) s fun t =>
      t.out = s.out ++ [.mgmt cOK [rd s (pwr d) 0x40]] :) ∧
  (∀ (s : State) (p : PageId) (v : Word),
    s.pins.pwrGood = true → pageOf p.no = some p → Granted s .mgmt p 0x18 v.toNat →
    Completes (.casevoRegWrite p.no 0x18 v) s fun t =>
      intEn t p = intEn s p ||| v.toNat ∧ t.out.getLast? = some (.mgmt cOK []) :) ∧
  (∀ (s : State) (first : Word) (n : Nat),
    s.pins.pwrGood = true →
    Completes (.casevoHealQuery first n) s fun t =>
      t.out = s.out ++ [.mgmt cOK ((healSummary s ++ ((healEntries s first.toNat n none).map (fun e => healEntry e.1 e.2)).flatten).map (·.toNat))] :) ∧
  (∀ (s : State) (e b : Nat) (table : List (BitVec 128)) (saved : Bool),
    s.pins.pwrGood = true → fb s mgmtPg fMGMT_STATUS_ROMONLY = false → fb s aon fAON_READY_DONE = true → gradeOf s ≠ 0 → entBytes e 8 1 = 5 → b = entBytes e 9 1 → b ≤ 1 → injX s 9 ≠ b →
    Completes (.casevoFabricCfg e table saved) s fun t =>
      xRetired t 9 b = true ∧ xRetired t 10 b = true ∧ t.out = s.out ++ [.mgmt cOK [0]] :) ∧
  (∀ (s : State) (code arg : Nat),
    s.pins.pwrGood = true → fb s (hubPage .auth) fAUTH_STATUS_MGMTCLOSED = false → fuseCode { s with host := { s.host with armed := some 2 } } 2 code arg = cOK →
    Completes (.casevoFuse code arg) s fun t =>
      t.host.fuse = some { code := code, arg := arg, cls := 2, ask := true } ∧ t.host.armed = none ∧ fb t fusePg fFUSE_STAT_BUSY = true :) ∧
  (∀ (s : State) (n : Nat),
    s.pins.pwrGood = true → fb s mgmtPg fMGMT_STATUS_ROMONLY = false → n ≤ 30 →
    Completes (.pldmSensorRead n) s fun t =>
      t.out = s.out ++ [.mgmt cOK [if n = 0 then fd s hubPwr fPWR_MEAS_WATTS else if n = 1 then fd s hubPwr fPWR_MEAS_AMPS else if n < 13 then fd s (pwr (n - 2)) fPWR_STATUS_TEMP else if n < 29 then fd s (memcPage (n - 13)) fMEMC_STATUS_TEMP else if n = 29 then gradeOf s else pst s]] :) ∧
  (∀ (s : State) (watts : Nat),
    s.pins.pwrGood = true → fb s mgmtPg fMGMT_STATUS_ROMONLY = false → 1500 ≤ watts → watts ≤ 3600 → Granted s .hub hubPwr 0x80 watts →
    Completes (.pldmEffecterSet watts) s fun t =>
      fd t hubPwr fPWR_LIMIT_WATTS = watts ∧ t.out = s.out ++ [.mgmt cOK []] :) ∧
  (∀ (s : State) (h v : Image),
    s.pins.pwrGood = true → fd s mgmtPg fMGMT_STATUS_FWUP ≠ 1 → fd s mgmtPg fMGMT_STATUS_FWUP ≠ 2 →
    Completes (.firmwareUpdate 0 h v) s fun t =>
      fd t mgmtPg fMGMT_STATUS_FWUP = 1 ∧ fd t mgmtPg fMGMT_STATUS_UPSLOT = 1 - fd s aon fAON_START_STAT_SLOT ∧ (hubImg t (1 - fd s aon fAON_START_STAT_SLOT)).ok = false :) ∧
  (∀ (s : State) (h v : Image),
    s.pins.pwrGood = true → fd s mgmtPg fMGMT_STATUS_FWUP = 1 →
    Completes (.firmwareUpdate 1 h v) s fun t =>
      fd t mgmtPg fMGMT_STATUS_FWUP = 2 ∧ hubImg t (fd s mgmtPg fMGMT_STATUS_UPSLOT) = h ∧ svcImg t (fd s mgmtPg fMGMT_STATUS_UPSLOT) = v :) ∧
  (∀ (s : State) (h v : Image),
    s.pins.pwrGood = true → fd s mgmtPg fMGMT_STATUS_FWUP = 2 →
    Completes (.firmwareUpdate 2 h v) s fun t =>
      fd t mgmtPg fMGMT_STATUS_FWUP = (if slotOk s (fd s mgmtPg fMGMT_STATUS_UPSLOT) && accepted s (svcImg s (fd s mgmtPg fMGMT_STATUS_UPSLOT)) then 3 else 4) :) ∧
  (∀ (s : State),
    s.pins.pwrGood = true → fb s mgmtPg fMGMT_STATUS_ROMONLY = false →
    Completes (.spdmGetCertificate) s fun t =>
      t.out = s.out ++ [.spdm 1 (freeVal s) []] ∧ t.free = s.free + 1 :) ∧
  (∀ (s : State) (nonce : Nat),
    s.pins.pwrGood = true → fb s mgmtPg fMGMT_STATUS_ROMONLY = false →
    Completes (.spdmChallenge nonce) s fun t =>
      t.out = s.out ++ [.spdm 2 (freeVal s) [nonce]] ∧ t.free = s.free + 1 :) ∧
  (∀ (s : State),
    s.pins.pwrGood = true → fb s mgmtPg fMGMT_STATUS_ROMONLY = false →
    Completes (.spdmGetMeasurements) s fun t =>
      t.out = s.out ++ [.spdm 3 (freeVal s) (measurements s)] ∧ t.free = s.free + 4 :) ∧
  (∀ (s : State) (a : Nat) (v : Word),
    debugShut s = false → a % 4 = 0 → a < 2 ^ 40 → MemSettled s 0xF2 (a / 8 * 8) 8 false = true →
    Completes (.debugTransport 1 a false v) s fun t =>
      t.out = s.out ++ [.data .debug (BitVec.ofNat 32 (leNat (((memReadSpan s (injEpoch s 8 0xF2) (a / 8 * 8) 8).1.drop (a / 4 % 2 * 4)).take 4)))] ∧ t.mem = s.mem :) ∧
  (∀ (s : State) (kind a : Nat) (w : Bool) (v : Word),
    fb s (hubPage .auth) fAUTH_STATUS_DBGLOCK = true →
    Completes (.debugTransport kind a w v) s fun t =>
      t.mem = s.mem ∧ rd64 t (hubPage .auth) 0xC10 = (rd64 s (hubPage .auth) 0xC10 + 1) % 2 ^ 64 ∧ bit (intRaw t (hubPage .auth)) 8 = true :) ∧
  (∀ (s : State) (req : Req) (v : Word),
    Granted s req (hubPage .auth) 0x44 (v.toNat ||| 1) →
    Completes (.authDbgLockWrite req v) s fun t =>
      fb t (hubPage .auth) fAUTH_STATUS_DBGLOCK = true :) ∧
  (∀ (s : State) (req : Req),
    Granted s req fusePg 0x50 0xF05E →
    Completes (.fuseArmWrite req 0xF05E) s fun t =>
      t.host.armed = some req.cls ∧ fb t fusePg fFUSE_STAT_ARMED = true :) ∧
  (∀ (s : State),
    s.host.armed.isSome = true →
    Completes (.fuseArmExpiry) s fun t =>
      t.host.armed = none ∧ fb t fusePg fFUSE_STAT_ARMED = false :) ∧
  (∀ (s : State) (req : Req) (v : Word),
    Granted s req fusePg 0x54 (setBits (v.toNat ||| 2 ^ 31) 0 4 1) → fuseCode s req.cls 1 (bits v.toNat 4 2) = cOK →
    Completes (.fuseDbgClose req v) s fun t =>
      t.host.fuse = some { code := 1, arg := bits v.toNat 4 2, cls := req.cls } ∧ t.host.armed = none ∧ fb t fusePg fFUSE_STAT_BUSY = true :) ∧
  (∀ (s : State) (req : Req) (v : Word),
    Granted s req fusePg 0x54 (setBits (v.toNat ||| 2 ^ 31) 0 4 2) → fuseCode s req.cls 2 (bits v.toNat 4 2) = cOK →
    Completes (.fuseMgmtClose req v) s fun t =>
      t.host.fuse = some { code := 2, arg := bits v.toNat 4 2, cls := req.cls } ∧ fb t fusePg fFUSE_STAT_BUSY = true :) ∧
  (∀ (s : State) (req : Req) (v : Word),
    Granted s req fusePg 0x54 (setBits (v.toNat ||| 2 ^ 31) 0 4 3) → fuseCode s req.cls 3 (bits v.toNat 4 2) = cOK →
    Completes (.fuseSvnAdvance req v) s fun t =>
      t.host.fuse = some { code := 3, arg := bits v.toNat 4 2, cls := req.cls } ∧ fb t fusePg fFUSE_STAT_BUSY = true :) ∧
  (∀ (s : State) (req : Req) (v : Word),
    Granted s req fusePg 0x54 (setBits (v.toNat ||| 2 ^ 31) 0 4 4) → fuseCode s req.cls 4 (bits v.toNat 4 2) = cOK →
    Completes (.fuseKeyRevoke req v) s fun t =>
      t.host.fuse = some { code := 4, arg := bits v.toNat 4 2, cls := req.cls } ∧ fb t fusePg fFUSE_STAT_BUSY = true :) ∧
  (∀ (s : State) (f : FusePend),
    s.host.fuse = some f →
    Completes (.fuseProgramDone true) s fun t =>
      t.host.fuse = none ∧ fb t fusePg fFUSE_STAT_BUSY = false ∧ fd t fusePg fFUSE_STAT_CODE = cOK ∧ (f.code = 1 → fb t fusePg fFUSE_VAL_DBG_CLOSE = true) ∧ (f.code = 2 → fb t fusePg fFUSE_VAL_MGMT_CLOSE = true) :) ∧
  (∀ (s : State) (f : FusePend),
    s.host.fuse = some f →
    Completes (.fuseProgramDone false) s fun t =>
      t.host.fuse = none ∧ fd t fusePg fFUSE_STAT_CODE = cTIMEOUT ∧ rd t fusePg 0x40 = rd s fusePg 0x40 ∧ bit (intRaw t fusePg) 9 = true :) ∧
  (∀ (s : State),
    s.pins.pwrGood = true →
    Completes (.pldmEventPoll) s fun t =>
      t.out = s.out ++ [.mgmt cOK ((s.host.events.map (fun e => [e.1, e.2])).flatten)] ∧ t.host.events = [] :)

/-- RUN opens a window of an idle gauge whose settings stand; a stop, a CLOSE and the window's time close it into the result
registers, and open the next. A sample is counted, summed, and kept as least and greatest; one that finds the queue full is
dropped and counted. A level is sampled while its source takes samples; a link-offset sample while its port is UP. (R616, R617, R618, R620, R621, R622, R623, R625, R629) -/
def Obligations.GaugeCommandsComplete : Prop :=
  (∀ (s : State) (d i : Nat) (req : Req) (v : Word),
    d < 11 → i < gaugeCount d → Granted s req (gPage d i) 0x58 (v.toNat ||| 1) → bit v.toNat 1 = false → gRun s d i = false → runRefused s d i = false →
    Completes (.gaugeRun d i req v) s fun t =>
      gRun t d i = true ∧ (gauge t d i).count = 0 ∧ (gauge t d i).opened = s.now ∧ (gauge t d i).partialWin = (fd s (gPage d i) fGAUGE_WIN_MODE == 2) :) ∧
  (∀ (s : State) (d i : Nat) (req : Req) (v : Word),
    d < 11 → i < gaugeCount d → Granted s req (gPage d i) 0x58 (v.toNat &&& 0xFFFFFFFE) → gRun s d i = true → gSrc s d i ≠ 0x20 →
    Completes (.gaugeStop d i req v) s fun t =>
      gRun t d i = false ∧ rd64 t (gPage d i) 0x800 = (gauge s d i).count % 2 ^ 64 ∧ rd64 t (gPage d i) 0x808 = (gauge s d i).sum % 2 ^ 64 ∧ rd64 t (gPage d i) 0xC00 = (rd64 s (gPage d i) 0xC00 + 1) % 2 ^ 64 :) ∧
  (∀ (s : State) (d i : Nat) (req : Req) (v : Word),
    d < 11 → i < gaugeCount d → Granted s req (gPage d i) 0x58 (v.toNat ||| 2) → bit v.toNat 0 = true → gRun s d i = true → gSrc s d i ≠ 0x20 →
    Completes (.gaugeCloseWrite d i req v) s fun t =>
      gRun t d i = true ∧ rd64 t (gPage d i) 0x800 = (gauge s d i).count % 2 ^ 64 ∧ (gauge t d i).count = 0 ∧ (gauge t d i).opened = s.now :) ∧
  (∀ (s : State) (d i : Nat),
    d < 11 → i < gaugeCount d → gRun s d i = true → gSrc s d i ≠ 0x20 → ((fd s (gPage d i) fGAUGE_WIN_MODE = 1 ∧ (gauge s d i).opened + fd s (gPage d i) fGAUGE_WIN_LEN ≤ s.now ∨ fd s (gPage d i) fGAUGE_WIN_MODE = 2 ∧ (gauge s d i).opened < s.now ∧ s.now % 2 ^ 48 % fd s (gPage d i) fGAUGE_WIN_LEN = 0)) →
    Completes (.gaugeWindowExpiry d i) s fun t =>
      rd64 t (gPage d i) 0x800 = (gauge s d i).count % 2 ^ 64 ∧ rd t (gPage d i) 0x818 = (rd s (gPage d i) 0x818 + 1) % 2 ^ 32 ∧ (gauge t d i).count = 0 ∧ bit (intRaw t (gPage d i)) 8 = true :) ∧
  (∀ (s : State) (d i inst sub v : Nat),
    d < 11 → i < gaugeCount d → gRun s d i = true → ((1 ≤ gSrc s d i ∧ gSrc s d i ≤ 5 ∨ gSrc s d i = 0x17)) → gaugeTakes s d i inst sub = true →
    Completes (.gaugeSample d i ⟨v, inst, sub, false⟩ false) s fun t =>
      (gauge t d i).count = ((gauge s d i).count + 1) % 2 ^ 64 ∧ (gauge t d i).sum = ((gauge s d i).sum + v) % 2 ^ 64 ∧ (gauge t d i).min = min (gauge s d i).min (min v (2 ^ 32 - 1)) ∧ (gauge t d i).max = max (gauge s d i).max (min v (2 ^ 32 - 1)) ∧ tget 0 (gauge t d i).bins (binOf s d i (min v (2 ^ 32 - 1))) = min (2 ^ 32 - 1) (tget 0 (gauge s d i).bins (binOf s d i (min v (2 ^ 32 - 1))) + 1) :) ∧
  (∀ (s : State) (d i inst sub v : Nat),
    d < 11 → i < gaugeCount d → gRun s d i = true → ((1 ≤ gSrc s d i ∧ gSrc s d i ≤ 5 ∨ gSrc s d i = 0x17)) → gaugeTakes s d i inst sub = true →
    Completes (.gaugeSample d i ⟨v, inst, sub, false⟩ true) s fun t =>
      (gauge t d i).drop = min (2 ^ 32 - 1) ((gauge s d i).drop + 1) ∧ (gauge t d i).count = (gauge s d i).count ∧ bit (intRaw t (gPage d i)) 10 = true :) ∧
  (∀ (s : State) (d i v : Nat),
    d < 11 → i < gaugeCount d → gRun s d i = true → levelValue s d i = some v →
    Completes (.levelSamplePeriod d i) s fun t =>
      (gauge t d i).count = ((gauge s d i).count + 1) % 2 ^ 64 ∧ (gauge t d i).sum = ((gauge s d i).sum + v) % 2 ^ 64 :) ∧
  (∀ (s : State) (d i v : Nat),
    d < 11 → i < gaugeCount d → gRun s d i = true → gSrc s d i = 6 → isUp s (dieIfPort d (gInst s d i)) = true →
    Completes (.linkofsSample d i v) s fun t =>
      (gauge t d i).count = ((gauge s d i).count + 1) % 2 ^ 64 ∧ (gauge t d i).sum = ((gauge s d i).sum + v) % 2 ^ 64 :)

/-- AUX_3V3 begins step 1 and records power-on; TWIN_SEL is sampled once; losing AUX_3V3 loses field closures and memory. PWR_EN
begins the boot where its conditions hold, and held low releases a thermal trip; its fall, and the loss of 12 V, cut main power
and lose memory; 12 V's return is recorded. A long enough pulse of MOD_RST_N resets the module, and ends STANDBY. FLASH_EXT_N
holds the flash bus before power-on and gives it back. (R404, R496, R525, R538, R560, R568, R636, R637, R638, R644) -/
def Obligations.PinCommandsComplete : Prop :=
  (∀ (s : State),
    s.pins.aux = false →
    Completes (.aux3v3Applied) s fun t =>
      t.pins.aux = true ∧ t.pins.step1 = false ∧ t.pins.hold1 = !s.pins.flashExtN ∧ stepNo t = 1 ∧ fd t aon fAON_RST_CAUSE_CAUSE = 0 :) ∧
  (∀ (s : State) (h : Bool),
    s.pins.aux = true → s.pins.sampled = false →
    Completes (.twinSelSample h) s fun t =>
      thisSide t = b2n h ∧ t.pins.sampled = true :) ∧
  (∀ (s : State) (h : Bool),
    s.pins.aux = true → s.pins.sampled = true →
    Completes (.twinSelSample h) s fun t =>
      thisSide t = thisSide s :) ∧
  (∀ (s : State),
    s.pins.aux = true →
    Completes (.aux3v3Lost) s fun t =>
      t.pins.aux = false ∧ t.fieldMap = [] ∧ t.mem = [] ∧ t.cores = [] ∧ t.flash = s.flash :) ∧
  (∀ (s : State) (held : Bool),
    s.pins.pwrEn = false → s.pins.trip = false → mayBoot { s with pins := { s.pins with pwrEn := true } } = true →
    Completes (.pwrEnRise held) s fun t =>
      t.pins.pwrEn = true ∧ stepNo t = 2 :) ∧
  (∀ (s : State),
    s.pins.pwrEn = false → s.pins.trip = true →
    Completes (.pwrEnRise true) s fun t =>
      t.pins.trip = false ∧ fd t aon fAON_RST_CAUSE_CAUSE = 8 :) ∧
  (∀ (s : State),
    s.pins.pwrEn = true → s.pins.step1 = true →
    Completes (.pwrEnFall) s fun t =>
      t.pins.pwrEn = false ∧ t.pins.pwrGood = false ∧ t.cores = [] ∧ t.mem = [] :) ∧
  (∀ (s : State),
    s.pins.v12 = true → s.pins.step1 = true →
    Completes (.mainSupplyLost) s fun t =>
      t.pins.v12 = false ∧ t.pins.lost12 = true ∧ t.mem = [] :) ∧
  (∀ (s : State),
    s.pins.v12 = false → s.pins.lost12 = true → s.pins.aux = true →
    Completes (.mainSupplyRestored) s fun t =>
      t.pins.v12 = true ∧ t.pins.lost12 = false ∧ fd t aon fAON_RST_CAUSE_CAUSE = 1 :) ∧
  (∀ (s : State) (us : Nat),
    s.pins.aux = true → s.pins.step1 = true → s.pins.standby = false → 10 ≤ us →
    Completes (.modRstNAssert us) s fun t =>
      fd t aon fAON_RST_CAUSE_CAUSE = 2 ∧ t.cores = [] ∧ (s.pins.pwrGood = true ∧ s.slices.all (fun e => e.2.q.isEmpty) = true → t.mem = s.mem) :) ∧
  (∀ (s : State) (us : Nat),
    s.pins.aux = true → s.pins.step1 = true → s.pins.standby = true → 1000 ≤ us →
    Completes (.modRstNAssert us) s fun t =>
      fd t aon fAON_RST_CAUSE_CAUSE = 7 ∧ t.pins.standby = false ∧ (s.slices.all (fun e => e.2.q.isEmpty) = true → t.mem = s.mem) :) ∧
  (∀ (s : State),
    ((s.pins.aux = false ∨ s.pins.step1 = true ∧ stepNo s = 0 ∧ fb s aon fAON_READY_DONE = false)) →
    Completes (.flashExtNAssert) s fun t =>
      t.pins.flashExtN = false :) ∧
  (∀ (s : State),
    s.pins.flashExtN = false →
    Completes (.flashExtNRelease) s fun t =>
      t.pins.flashExtN = true ∧ t.pins.hold1 = false :)

/-- For every command and every state, the step of the state with that command at the front of its queue is exec of the command on the
state with the queue's rest. The queue, first in first out, stands for the order in which register accesses are issued (the
model's choice, log entry 8). (R39) -/
def Obligations.StepRunsTheFront : Prop :=
  ∀ (c : Instr) (s : State) (rest : List Instr), step { s with pending := c :: rest } = exec c { s with pending := rest }

/-- A step on an empty queue answers the same state with the module time one tick later. What the spec gives is the counter of 25 MHz
ticks; that a tick is what a step does on an empty queue is the model's choice (log entry 8). (R182) -/
def Obligations.IdleStepTicks : Prop :=
  ∀ (s : State), s.pending = [] → step s = .next { s with now := s.now + 1 }

/-- In State.reset, on every page that has them, ARR_CFG.RETRY is 1, FLOW_QTIMEOUT 65,536, CORE_QWAIT 5,000, SPAD_SCRUB's interval
6,400 with scrubbing enabled, every SPAD_BANK_STATE 2, QENG_TIMEOUT 5,000, CLUS_VSET's set point 60, CLUS_FREQ's target 72,
DIE_WDOG 100, PORT_ROT 1,100, CAUSE_HB's period 5, AON_HWDOG 100, AON_DRAIN 2,000, PWR_LIMIT 3,600, GAUGE_PERIOD 1,800,
HOST_STATUS.BAR2SIZE 6; no page is bound, locked or closed, none holds a captured error, none asks for an interrupt; and the
queue, memory and what has left the module are empty. The empty memory is the model's choice (log entry 6). (R119, R157, R189, R224, R257, R359, R397, R436, R464, R519, R522, R609) -/
def Obligations.ResetValues : Prop :=
  (∀ c < 1152, fd State.reset (flowPage c) fARR_CFG_RETRY = 1 ∧ fd State.reset (flowPage c) fFLOW_QTIMEOUT_CYCLES = 65536 ∧
    fd State.reset (corePage .core c) fCORE_QWAIT_TICKS = 5000 ∧ fd State.reset (spadPage c) fSPAD_SCRUB_INTERVAL = 6400 ∧
    fd State.reset (spadPage c) fSPAD_SCRUB_EN = 1 ∧ (∀ b < 8, fd State.reset (spadPage c) (fSPAD_BANK_STATE_S.at b) = 2) ∧
    fd State.reset (qPage c) fQENG_TIMEOUT_TICKS = 5000) ∧
(∀ k < 288, fd State.reset (clusPage k) fCLUS_VSET_SETPT = 60 ∧ fd State.reset (clusPage k) fCLUS_FREQ_TARGET = 72) ∧
(∀ d < 8, fd State.reset (diePage .die d) fDIE_WDOG_PERIOD = 100 ∧ ∀ g < 8, fd State.reset (gPage d g) fGAUGE_PERIOD_PERIOD = 1800) ∧
(∀ k < 36, fd State.reset (portPage k) fPORT_ROT_STEP = 1100) ∧
fd State.reset twinPage fCAUSE_HB_PERIOD = 5 ∧ fd State.reset aon fAON_HWDOG_PERIOD = 100 ∧ fd State.reset aon fAON_DRAIN_DRAIN = 2000 ∧
fd State.reset (pwr 8) fPWR_LIMIT_WATTS = 3600 ∧ fd State.reset hostPg fHOST_STATUS_BAR2SIZE = 6 ∧
(∀ p, pageOf p.no = some p → rd State.reset p 0xC = 0 ∧ fd State.reset p fPG_LOCK_LOCK = 0 ∧ unitClosed State.reset p = false ∧
    (cap State.reset p).valid = false ∧ intStat State.reset p = 0) ∧
State.reset.pending = [] ∧ State.reset.mem = [] ∧ State.reset.out = []

/-- State.reset meets the three invariants that every step keeps: memory strictly rising by address with no entry equal to what an
unlisted address reads as; every scratchpad's words and poison flags in rising order; the first-error captures in rising order of
page. They are the model's own form of its data. (R45, R503) -/
def Obligations.ResetMeetsTheInvariants : Prop :=
  MemInv State.reset ∧ SpadInv State.reset ∧ CapInv State.reset

/-- From every state whose memory is in canonical form, not only from states that a run reaches, a step that answers a next state
answers one whose memory is in canonical form: addresses strictly rising, and no entry equal to what an unlisted address reads as.
It says so of every command of the table, the stores of slices, windows, DMA, journal and signposts among them. (R26, R334, R336) -/
def Obligations.EveryStepKeepsMemoryCanonical : Prop :=
  ∀ (s t : State), MemInv s → step s = .next t → MemInv t

/-- From every state whose scratchpads hold their words and poison flags in rising order of address and whose first-error captures
stand in rising order of page, a step that answers a next state answers one of which the same holds, whatever the command: a
write, a scrub, a reset, a move, a start. (R53, R191, R503) -/
def Obligations.EveryStepKeepsScratchpadsAndCaptures : Prop :=
  ∀ (s t : State), SpadInv s → CapInv s → step s = .next t → SpadInv t ∧ CapInv t

/-- Whatever the command, a step that answers a next state leaves in the queue exactly what stood behind the command taken, leaves the
module time as it was unless the queue was empty, when it counts one tick, and leaves the fused map of closures as it was: nothing
but manufacture writes that map. (R39, R182, R530) -/
def Obligations.EveryStepTakesOneCommand : Prop :=
  ∀ (s t : State), step s = .next t →
  t.pending = s.pending.tail ∧ t.now = (if s.pending = [] then s.now + 1 else s.now) ∧ t.fuseMap = s.fuseMap

/-- In every state, a command that exists on the module (every unit number it carries names a unit) answers a next state: no state of
the module stops it. A command answers nothing but a next state or the fault that names a unit the module does not have, and is
never refused. (R7, R8, R33, R36) -/
def Obligations.EveryCommandAnswers : Prop :=
  (∀ (i : Instr) (s : State), SafeCmd i → ∃ t, exec i s = .next t) ∧
(∀ (i : Instr) (s : State), (∃ t, exec i s = .next t) ∨ exec i s = .fault .noSuchUnit)

/-- For every page, register and field that has a range, a write by a requester whose authority the other checks accept, that gives
the field a value below or above its range, leaves the register as it was, recorded with RANGE in the page's first-error capture;
nothing is clamped. No field of a pair has a range narrower than its bits, so the statement is of single registers. (R43) -/
def Obligations.OutOfRangeFieldsAreRefused : Prop :=
  (∀ (s : State) (req : Req) (p : PageId) (off : Nat) (v : Word) (r : RegSpec) (f : FieldSpec),
    pageOf p.no = some p → specOf p off = some r → r.half = .one → off % 4 = 0 → off < 4096 → f ∈ r.fields → (f.acc = .rw ∨ f.acc = .wo) → bit f.cls req.cls = true → (f.of v.toNat < f.vmin ∨ f.vmax < f.of v.toNat) → Reached s req p off → mayWrite s req p off = true → (plan s req p off v.toNat).denied = false →
    Completes (.registerWrite req p.no off [v] 15) s fun t =>
      rd t p off = rd s p off ∧ Records s t p cRANGE :)

/-- For every page whose unit is closed or OFF and every requester that may make the access: a read of PG_IDENT, PG_CLASS or PG_STATUS
sends its value and changes nothing else; a read of any other offset that the page has sends zero and changes nothing else; a
write beyond the header is dropped whole, and its code is CLOSURE where the unit is closed and NOT_READY where it is OFF and not
closed, unless a field of it would be refused first: with DENIED, recorded where the request arrived, or with RANGE, recorded at
the page (R56). (R37) -/
def Obligations.ClosedUnitsAnswerForThemselves : Prop :=
  (∀ (s : State) (req : Req) (p : PageId) (off : Nat) (r : RegSpec),
    pageOf p.no = some p → specOf p off = some r → (off = 0 ∨ off = 4 ∨ off = 8) → (req = .debug → debugShut s = false) → mayRead s req p = true → (unitClosed s p = true ∨ unitOff s p = true) →
    Completes (.pairLowRead req p.no ⟨off, 0⟩) s fun t =>
      t = send s (.data req (BitVec.ofNat 32 (viewWord s p r off))) :) ∧
  (∀ (s : State) (req : Req) (p : PageId) (off : Nat),
    pageOf p.no = some p → (specOf p off).isSome = true → off % 4 = 0 → 8 < off → off < 4096 → (req = .debug → debugShut s = false) → mayRead s req p = true → (unitClosed s p = true ∨ unitOff s p = true) →
    Completes (.pairLowRead req p.no ⟨off, 0⟩) s fun t =>
      t = send s (.data req 0) :) ∧
  (∀ (s : State) (req : Req) (p : PageId) (off : Nat) (v : Word),
    pageOf p.no = some p → (specOf p off).isSome = true → off % 4 = 0 → 64 ≤ off → off < 4096 → (req = .debug → debugShut s = false) → mayWrite s req p off = true → unitClosed s p = true → (plan s req p off v.toNat).denied = false → (plan s req p off v.toNat).bad = false →
    Completes (.registerWrite req p.no off [v] 15) s fun t =>
      t = s ∧ (writeCode s req p.no off v.toNat 15).2 = cCLOSURE :) ∧
  (∀ (s : State) (req : Req) (p : PageId) (off : Nat) (v : Word),
    pageOf p.no = some p → (specOf p off).isSome = true → off % 4 = 0 → 64 ≤ off → off < 4096 → (req = .debug → debugShut s = false) → mayWrite s req p off = true → unitClosed s p = false → unitOff s p = true → (plan s req p off v.toNat).denied = false → (plan s req p off v.toNat).bad = false →
    Completes (.registerWrite req p.no off [v] 15) s fun t =>
      t = s ∧ (writeCode s req p.no off v.toNat 15).2 = cNOT_READY :) ∧
  (∀ (s : State) (req : Req) (p : PageId) (off : Nat) (v : Word),
    pageOf p.no = some p → (specOf p off).isSome = true → off % 4 = 0 → 64 ≤ off → off < 4096 → (req = .debug → debugShut s = false) → mayWrite s req p off = true → (unitClosed s p = true ∨ unitOff s p = true) → (plan s req p off v.toNat).denied = true →
    Completes (.registerWrite req p.no off [v] 15) s fun t =>
      t = { s with regs := t.regs, caps := t.caps, out := t.out } ∧ Records s t (reqPage req) cDENIED ∧ (writeCode s req p.no off v.toNat 15).2 = cDENIED :) ∧
  (∀ (s : State) (req : Req) (p : PageId) (off : Nat) (v : Word),
    pageOf p.no = some p → (specOf p off).isSome = true → off % 4 = 0 → 64 ≤ off → off < 4096 → (req = .debug → debugShut s = false) → mayWrite s req p off = true → (unitClosed s p = true ∨ unitOff s p = true) → (plan s req p off v.toNat).denied = false → (plan s req p off v.toNat).bad = true →
    Completes (.registerWrite req p.no off [v] 15) s fun t =>
      t = { s with regs := t.regs, caps := t.caps, out := t.out } ∧ Records s t p cRANGE ∧ (writeCode s req p.no off v.toNat 15).2 = cRANGE :)

/-- On every page, a write of PG_GEN by INTERNAL, or by DEBUG while its port is open, is let through, and where the page leads no pair
it sets the generation to bits 5 to 0, the context to bits 15 to 6 and BOUND to bit 16 of the word written; a write by any other
class changes no PG_GEN register of any page and is recorded with DENIED in the capture of the page the request arrived through,
whatever the page's WMASK says. (R50) -/
def Obligations.OnlyInsideAndDebugBindPages : Prop :=
  (∀ (s : State) (req : Req) (p : PageId) (v : Word),
    pageOf p.no = some p → (req.cls = 5 ∨ req.cls = 6) → (req = .debug → debugShut s = false) → followerPage s p = none →
    Completes (.registerWrite req p.no 0xC [v] 15) s fun t =>
      fd t p fPG_GEN_GEN = v.toNat % 64 ∧ fd t p fPG_GEN_CTX = v.toNat / 64 % 1024 ∧ fd t p fPG_GEN_BOUND = v.toNat / 65536 % 2 :) ∧
  (∀ (s : State) (req : Req) (p : PageId) (v : Word),
    pageOf p.no = some p → (req.cls ≠ 5 ∧ req.cls ≠ 6) →
    Completes (.registerWrite req p.no 0xC [v] 15) s fun t =>
      (∀ q, pageOf q.no = some q → rd t q 0xC = rd s q 0xC) ∧ Records s t (reqPage req) cDENIED :)

/-- For every page and virtual function: where the page's RMASK has bit 1 set and its PG_GEN holds BOUND with the context and
generation that the function is bound to, a read of a register of the page sends its value; otherwise the read sends zero and is
recorded with DENIED in the HOST page's capture. (R577) -/
def Obligations.VirtualFunctionsReadOnlyTheirOwn : Prop :=
  (∀ (s : State) (n : Nat) (p : PageId) (off : Nat) (r : RegSpec),
    pageOf p.no = some p → bit p.blk.rmask 1 = true → bit (tget 0 s.host.vfs n).toNat 16 = true → bit (rd s p 0xC) 16 = true → (tget 0 s.host.vfs n).toNat % 65536 = rd s p 0xC % 65536 → specOf p off = some r → r.half = .one → off % 4 = 0 → off < 4096 → unitClosed s p = false → unitOff s p = false →
    Completes (.pairLowRead (.vf n) p.no ⟨off, 0⟩) s fun t =>
      t.out.getLast? = some (.data (.vf n) (BitVec.ofNat 32 (viewWord s p r off))) :) ∧
  (∀ (s : State) (n : Nat) (p : PageId) (off : Nat),
    pageOf p.no = some p → off % 4 = 0 → off < 4096 → (bit p.blk.rmask 1 = false ∨ bit (tget 0 s.host.vfs n).toNat 16 = false ∨ bit (rd s p 0xC) 16 = false ∨ (tget 0 s.host.vfs n).toNat % 65536 ≠ rd s p 0xC % 65536) →
    Completes (.pairLowRead (.vf n) p.no ⟨off, 0⟩) s fun t =>
      t.out.getLast? = some (.data (.vf n) 0) ∧ Records s t hostPg cDENIED :)

/-- On every implemented page: a write by a requester that may not write there is recorded with DENIED where the request arrived,
before anything else is looked at; one to an offset the page does not have, or whose byte enables leave out a byte, is recorded
there with RANGE; and none of them changes a register beyond the interrupts and counts of where it arrived, memory, a scratchpad
or anything else of a core. A write to a register of which nothing is writable changes nothing; neither does one to the low half
of a pair beyond what the page has staged. An access to a page number the module does not have is recorded with RANGE the same
way, and a read of it sends zero. (R36, R38, R51, R56) -/
def Obligations.AccessesThatFindNothing : Prop :=
  (∀ (s : State) (req : Req) (p : PageId) (off : Nat) (v : Word) (be : Nat),
    pageOf p.no = some p → off % 4 = 0 → off < 4096 → (req = .debug → debugShut s = false) → be < 16 → mayWrite s req p off = false →
    Completes (.registerWrite req p.no off [v] be) s fun t =>
      t = { s with regs := t.regs, caps := t.caps, out := t.out } ∧ Records s t (reqPage req) cDENIED :) ∧
  (∀ (s : State) (req : Req) (p : PageId) (off : Nat) (v : Word) (be : Nat),
    pageOf p.no = some p → off % 4 = 0 → off < 4096 → (req = .debug → debugShut s = false) → be < 16 → mayWrite s req p off = true → (specOf p off = none ∨ be ≠ 15) →
    Completes (.registerWrite req p.no off [v] be) s fun t =>
      t = { s with regs := t.regs, caps := t.caps, out := t.out } ∧ Records s t (reqPage req) cRANGE :) ∧
  (∀ (s : State) (req : Req) (p : PageId) (off : Nat) (v : Word) (r : RegSpec),
    pageOf p.no = some p → specOf p off = some r → off % 4 = 0 → off < 4096 → Reached s req p off → mayWrite s req p off = true → r.writable = false →
    Completes (.registerWrite req p.no off [v] 15) s fun t =>
      t = s :) ∧
  (∀ (s : State) (req : Req) (p : PageId) (off : Nat) (v : Word) (r : RegSpec),
    pageOf p.no = some p → specOf p off = some r → r.half = .lo → r.writable = true → off % 4 = 0 → off < 4096 → Reached s req p off → mayWrite s req p off = true →
    Completes (.registerWrite req p.no off [v] 15) s fun t =>
      t = { s with stg := tput s.stg p.no v } :) ∧
  (∀ (s : State) (req : Req) (no off : Nat) (v : Word),
    pageOf no = none → no < 30720 → off < 4096 → (req = .debug → debugShut s = false) → (req = .host → msixPage no off = none ∧ pbaPage no off = false) →
    Completes (.registerWrite req no off [v] 15) s fun t =>
      t = { s with regs := t.regs, caps := t.caps, out := t.out } ∧ Records s t (reqPage req) cRANGE :) ∧
  (∀ (s : State) (req : Req) (no off : Nat),
    pageOf no = none → no < 32768 → off < 4096 → (req = .debug → debugShut s = false) → (req = .host → msixPage no off = none ∧ pbaPage no off = false) →
    Completes (.pairLowRead req no ⟨off, 0⟩) s fun t =>
      t = { s with regs := t.regs, caps := t.caps, out := t.out } ∧ Records s t (reqPage req) cRANGE ∧ t.out.getLast? = some (.data req 0) :)

/-- Where a core leads a pair, a write of PG_SCRATCH of its core, fabric, scratchpad or queue page stores the word on that page and on
the same page of its follower; every other register of every page keeps its word. (R447) -/
def Obligations.FollowersTakeTheirLeadersWrites : Prop :=
  (∀ (s : State) (req : Req) (p q : PageId) (v : Word),
    pageOf p.no = some p → pageOf q.no = some q → followerPage s p = some q → Reached s req p 0x38 → mayWrite s req p 0x38 = true →
    Completes (.registerWrite req p.no 0x38 [v] 15) s fun t =>
      t = wr (wr s p 0x38 v.toNat) q 0x38 v.toNat :)

/-- Whenever a command named here answers a next state, every field of the state that its arm does not list is as it was, and so are
the registers and captures of every page its arm does not exempt: the core's array, fabric, compute and memory units change only
their own core (and its follower where the core leads a pair), the registers and captures of its pages and the blocks listed; an
incident may be reported and a message or interrupt may leave. (R93, R102, R103, R105, R112, R113, R132, R141, R143, R144, R161, R172) -/
def Obligations.ArrayAndFabricFrame : Prop :=
  ∀ (i : Instr) (s t : State), exec i s = .next t →
  match i with
  | .arrayPassStart (core := c) =>
      t = { s with free := t.free, regs := t.regs, caps := t.caps, cores := t.cores, out := t.out } ∧ OthersKept s t c ∧ PagesKept s t c [.die]
  | .arraySequenceEntry (core := c) | .cuFiring (core := c) .. =>
      t = { s with regs := t.regs, cores := t.cores } ∧ OthersKept s t c ∧ PagesKept s t c []
  | .arrayResult (core := c) .. =>
      t = { s with free := t.free, regs := t.regs, caps := t.caps, cores := t.cores, heal := t.heal, reports := t.reports, out := t.out } ∧ OthersKept s t c ∧ PagesKept s t c [.die]
  | .wTokenLoad (core := c) | .muReadEmit (core := c) .. =>
      t = { s with cores := t.cores } ∧ OthersKept s t c
  | .tileImageFull (core := c) | .quiesceTimeout (core := c) | .muWalkStart (core := c) .. =>
      t = { s with regs := t.regs, caps := t.caps, cores := t.cores, out := t.out } ∧ OthersKept s t c ∧ PagesKept s t c [.die]
  | .arrInject (core := c) (req := r) .. | .arrCfgWrite (core := c) (req := r) .. | .flowImgGo (core := c) (req := r) ..
  | .flowWinDataWrite (core := c) (req := r) .. | .flowCfgCheck (core := c) (req := r) .. | .flowLinkSelWrite (core := c) (req := r) ..
  | .flowGridStatClear (core := c) (req := r) .. =>
      t = { s with regs := t.regs, caps := t.caps, stg := t.stg, cores := t.cores, heal := t.heal, host := t.host, reports := t.reports, out := t.out } ∧ OthersKept s t c ∧ (pageOf (reqPage r).no = some (reqPage r) → PagesKept s t c [.core, .die, .host, .mgmt, .auth, .port, .cause, .xtab])
  | .tokenLanding (core := c) .. | .creditReturn (core := c) .. | .spillQueueFiring (core := c) .. | .imageLoadComplete (core := c)
  | .validationComplete (core := c) | .quiesceSwitch (core := c) | .cuEmission (core := c) .. | .updateEngineFiring (core := c) ..
  | .muAccess (core := c) .. =>
      t = { s with regs := t.regs, caps := t.caps, cores := t.cores, heal := t.heal, reports := t.reports, out := t.out } ∧ OthersKept s t c ∧ PagesKept s t c [.die]
  | .flowLinkPeakRead (core := c) (req := r) =>
      t = { s with regs := t.regs, caps := t.caps, latch := t.latch, cores := t.cores, heal := t.heal, out := t.out } ∧ OthersKept s t c ∧ (pageOf (reqPage r).no = some (reqPage r) → PagesKept s t c [.core, .die, .host, .mgmt, .auth, .port, .cause, .xtab])
  | .probeLaunch (core := c) .. =>
      t = { s with regs := t.regs, cores := t.cores, out := t.out } ∧ OthersKept s t c ∧ PagesKept s t c [.sign]
  | .probeReceive (core := c) .. =>
      t = { s with regs := t.regs, cores := t.cores, out := t.out } ∧ OthersKept s t c ∧ PagesKept s t c [.die, .sign]
  | _ => True

/-- Whenever a command named here answers a next state, every field of the state that its arm does not list is as it was, and so are
the registers and captures of every page its arm does not exempt: an instruction or wait of a sequencer changes only its own core
(and its follower where the core leads a pair) and the registers and captures of its pages; a milestone also changes the hub's
contexts; a write or read of a register from outside may also change the host port's record of it, what the requester has staged
or latched, and the registers of the blocks listed. (R179, R180, R183, R184, R185, R187, R188, R189, R219, R232, R234, R236) -/
def Obligations.SequencerFrame : Prop :=
  ∀ (i : Instr) (s t : State), exec i s = .next t →
  match i with
  | .seqInstruction (core := c) .. | .seqScratchpadAccess (core := c) .. | .qpop (core := c) | .qsel (core := c) | .qsend (core := c)
  | .chopen (core := c) | .chclose (core := c) | .dmago ⟨c, _⟩ | .mile (core := c) | .nap (core := c) | .cfgswQuiesce (core := c)
  | .cfgswPurge (core := c) | .windowQpop (core := c) | .windowSqoWrite (core := c) | .windowScoWrite (core := c) | .windowSqiRead (core := c)
  | .windowSciRead (core := c) | .windowMboxInRead (core := c) | .windowMboxOutWrite (core := c) =>
      t = { s with free := t.free, regs := t.regs, caps := t.caps, cores := t.cores, heal := t.heal, reports := t.reports, out := t.out } ∧ OthersKept s t c ∧ PagesKept s t c [.die, .sign]
  | .qpopReturn (core := c) | .qpopTimeout (core := c) | .qselSelect (core := c) | .qselTimeout (core := c) | .napEntry (core := c)
  | .napWake (core := c) =>
      t = { s with regs := t.regs, cores := t.cores } ∧ OthersKept s t c ∧ PagesKept s t c []
  | .mileComplete (core := c) =>
      t = { s with regs := t.regs, caps := t.caps, cores := t.cores, ports := t.ports, hub := t.hub, out := t.out } ∧ OthersKept s t c ∧ PagesKept s t c [.die, .xtab]
  | .napTimerExpiry (core := c) =>
      t = { s with cores := t.cores } ∧ OthersKept s t c
  | .seqRun (core := c) (req := r) .. | .seqHalt (core := c) (req := r) .. | .seqStep (core := c) (req := r) ..
  | .coreMboxInWrite (core := c) (req := r) .. =>
      t = { s with free := t.free, regs := t.regs, caps := t.caps, stg := t.stg, cores := t.cores, heal := t.heal, host := t.host, reports := t.reports, out := t.out } ∧ OthersKept s t c ∧ (pageOf (reqPage r).no = some (reqPage r) → PagesKept s t c [.core, .die, .host, .mgmt, .auth, .port, .cause, .xtab])
  | .coreMboxOutRead (core := c) (req := r) =>
      t = { s with regs := t.regs, caps := t.caps, latch := t.latch, cores := t.cores, heal := t.heal, out := t.out } ∧ OthersKept s t c ∧ (pageOf (reqPage r).no = some (reqPage r) → PagesKept s t c [.core, .die, .host, .mgmt, .auth, .port, .cause, .xtab])
  | _ => True

/-- Whenever a command named here answers a next state, every field of the state that its arm does not list is as it was, and so are
the registers and captures of every page its arm does not exempt: the scratchpad and the DMA engine change only their own core
(and its follower where the core leads a pair) and the registers and captures of its pages; a descriptor that completes may also
change memory, its poison, the slices and the twin's journal. (R194, R199, R205, R209, R210, R212, R214, R216, R217, R221, R223, R224) -/
def Obligations.ScratchpadFrame : Prop :=
  ∀ (i : Instr) (s t : State), exec i s = .next t →
  match i with
  | .crossbarGrant (core := c) .. | .rangeGrant (core := c) .. | .recodeComplete (core := c) .. | .scrubRowRead (core := c) ..
  | .bankDrowsyReached (core := c) .. | .bankWakeComplete (core := c) .. | .bankPowered (core := c) .. | .dmaNotifyCommit (core := c) .. =>
      t = { s with regs := t.regs, caps := t.caps, cores := t.cores, heal := t.heal, reports := t.reports, out := t.out } ∧ OthersKept s t c ∧ PagesKept s t c [.die]
  | .correctionWriteback (core := c) =>
      t = { s with regs := t.regs, cores := t.cores } ∧ OthersKept s t c ∧ PagesKept s t c []
  | .regionWrite (core := c) (req := r) .. | .bankTargetWrite (core := c) (req := r) .. | .untrustedClear (core := c) (req := r) .. =>
      t = { s with regs := t.regs, caps := t.caps, stg := t.stg, cores := t.cores, heal := t.heal, host := t.host, reports := t.reports, out := t.out } ∧ OthersKept s t c ∧ (pageOf (reqPage r).no = some (reqPage r) → PagesKept s t c [.core, .die, .host, .mgmt, .auth, .port, .cause, .xtab])
  | .bankOffReached (core := c) .. =>
      t = { s with regs := t.regs, cores := t.cores, out := t.out } ∧ OthersKept s t c ∧ PagesKept s t c [.die]
  | .dirtyDataRead (core := c) (req := r) =>
      t = { s with regs := t.regs, caps := t.caps, latch := t.latch, cores := t.cores, heal := t.heal, out := t.out } ∧ OthersKept s t c ∧ (pageOf (reqPage r).no = some (reqPage r) → PagesKept s t c [.core, .die, .host, .mgmt, .auth, .port, .cause, .xtab])
  | .dmaDescriptorStart (core := c) | .dmaRequestTimeout (core := c) .. | .dmaNotifyTimeout (core := c) .. =>
      t = { s with regs := t.regs, caps := t.caps, cores := t.cores, out := t.out } ∧ OthersKept s t c ∧ PagesKept s t c [.die]
  | .dmaDescriptorComplete (core := c) .. =>
      t = { s with regs := t.regs, caps := t.caps, mem := t.mem, mpois := t.mpois, slices := t.slices, cores := t.cores, nets := t.nets, ports := t.ports, twin := t.twin, heal := t.heal, reports := t.reports, out := t.out } ∧ OthersKept s t c ∧ PagesKept s t c [.die, .memc, .auth, .cause]
  | _ => True

/-- Whenever a command named here answers a next state, every field of the state that its arm does not list is as it was, and so are
the registers and captures of every page its arm does not exempt: the queue engine changes only its own core (and its follower
where the core leads a pair), the registers and captures of its pages and, where a packet leaves, the networks. (R228, R229, R232, R234, R235, R239, R241, R249, R254, R267, R276, R283) -/
def Obligations.QueueEngineFrame : Prop :=
  ∀ (i : Instr) (s t : State), exec i s = .next t →
  match i with
  | .slotConfigWrite (core := c) (req := r) .. | .slotOpen (core := c) (req := r) .. | .slotClose (core := c) (req := r) ..
  | .qengFlush (core := c) (req := r) .. | .sendstopWrite (core := c) (req := r) .. | .qengChSelWrite (core := c) (req := r) ..
  | .qengHdSelWrite (core := c) (req := r) .. | .qengQSelWrite (core := c) (req := r) .. | .cvBindSender (core := c) (req := r) ..
  | .cvBindHandle (core := c) (req := r) .. | .cvUnbindSender (core := c) (req := r) .. | .cvUnbindHandle (core := c) (req := r) ..
  | .qengJSelWrite (core := c) (req := r) .. =>
      t = { s with regs := t.regs, caps := t.caps, stg := t.stg, cores := t.cores, heal := t.heal, host := t.host, reports := t.reports, out := t.out } ∧ OthersKept s t c ∧ (pageOf (reqPage r).no = some (reqPage r) → PagesKept s t c [.core, .die, .host, .mgmt, .auth, .port, .cause, .xtab])
  | .openRequest (core := c) .. | .routerMerge (core := c) .. | .convoyPacket (core := c) .. | .convoyAnswer (core := c) .. =>
      t = { s with regs := t.regs, cores := t.cores, nets := t.nets } ∧ OthersKept s t c ∧ PagesKept s t c []
  | .openResponse (core := c) .. =>
      t = { s with regs := t.regs, caps := t.caps, cores := t.cores, nets := t.nets, out := t.out } ∧ OthersKept s t c ∧ PagesKept s t c [.die]
  | .chopenTimeout (core := c) .. | .reassemblyTimeout (core := c) .. | .junctionForward (core := c) .. =>
      t = { s with regs := t.regs, caps := t.caps, cores := t.cores, out := t.out } ∧ OthersKept s t c ∧ PagesKept s t c [.die]
  | .chopenBackoffExpiry (core := c) .. | .handleHoldoffExpiry (core := c) .. | .closeAck (core := c) .. | .closingEntryTimeout (core := c) .. =>
      t = { s with cores := t.cores } ∧ OthersKept s t c
  | .closeNotice (core := c) .. =>
      t = { s with regs := t.regs, caps := t.caps, cores := t.cores, out := t.out } ∧ OthersKept s t c ∧ PagesKept s t c [.die, .sign]
  | .handleCloseNotice (core := c) .. =>
      t = { s with cores := t.cores, out := t.out } ∧ OthersKept s t c
  | .messageDeparture (core := c) | .attemptWindowExpiry (core := c) .. =>
      t = { s with regs := t.regs, caps := t.caps, cores := t.cores, heal := t.heal, reports := t.reports, out := t.out } ∧ OthersKept s t c ∧ PagesKept s t c [.die, .sign]
  | .messagePacket (core := c) .. | .junctionPacket (core := c) .. =>
      t = { s with regs := t.regs, caps := t.caps, cores := t.cores, nets := t.nets, heal := t.heal, reports := t.reports, out := t.out } ∧ OthersKept s t c ∧ PagesKept s t c [.die]
  | .replyOk (core := c) .. | .nack (core := c) .. =>
      t = { s with regs := t.regs, caps := t.caps, cores := t.cores, nets := t.nets, out := t.out } ∧ OthersKept s t c ∧ PagesKept s t c [.die, .sign]
  | .nackBackoffExpiry (core := c) .. | .qxPortEmit (core := c) .. | .qyPortSend (core := c) .. | .junctionAdd (core := c) .. =>
      t = { s with regs := t.regs, caps := t.caps, cores := t.cores, heal := t.heal, reports := t.reports, out := t.out } ∧ OthersKept s t c ∧ PagesKept s t c [.die]
  | .combiningSlotTimeout (core := c) .. =>
      t = { s with regs := t.regs, cores := t.cores } ∧ OthersKept s t c ∧ PagesKept s t c []
  | _ => True

/-- Whenever a command named here answers a next state, every field of the state that its arm does not list is as it was, and so are
the registers and captures of every page its arm does not exempt: routing changes cores' latches, networks and the pages of the
blocks listed; the signposts change only their pages and their walk under way; a footpath message changes what its destination
holds; none of them changes memory but through a register it writes. A command that can close a unit, reset or restart the module
or train a port is only said to keep the fields its arm lists. (R282, R293, R302, R304, R308, R310, R313, R314, R315, R318, R319, R323) -/
def Obligations.CarriagewayFrame : Prop :=
  ∀ (i : Instr) (s t : State), exec i s = .next t →
  match i with
  | .routerForward .. =>
      t = { s with regs := t.regs, caps := t.caps, cores := t.cores, nets := t.nets, heal := t.heal, reports := t.reports, out := t.out } ∧ RegsKept s t [.core, .rout, .die]
  | .packetLaunch (core := c) | .signpostMiss (core := c) =>
      t = { s with regs := t.regs, cores := t.cores, nets := t.nets } ∧ OthersKept s t c ∧ PagesKept s t c []
  | .dieSwitchRoute .. =>
      t = { s with free := t.free, regs := t.regs, caps := t.caps, cores := t.cores, nets := t.nets, heal := t.heal, reports := t.reports, out := t.out } ∧ RegsKept s t [.rout, .die, .brdg, .sign, .xtab]
  | .scratchpadRemoteRequest (core := c) .. =>
      t = { s with regs := t.regs, caps := t.caps, cores := t.cores, nets := t.nets, heal := t.heal, reports := t.reports, out := t.out } ∧ OthersKept s t c ∧ PagesKept s t c [.die, .auth]
  | .signpostWalkReply .. =>
      t = { s with regs := t.regs, caps := t.caps, mem := t.mem, mpois := t.mpois, slices := t.slices, cores := t.cores, nets := t.nets, heal := t.heal, reports := t.reports, out := t.out } ∧ RegsKept s t [.core, .spad, .qeng, .rout, .die, .memc, .sign]
  | .signpostInvalidate (req := r) .. | .epochFlip (req := r) .. | .bankRetire (req := r) .. =>
      t = { s with regs := t.regs, caps := t.caps, stg := t.stg, mpois := t.mpois, stackSt := t.stackSt, host := t.host, inval := t.inval, flip := t.flip, out := t.out } ∧ (pageOf (reqPage r).no = some (reqPage r) → RegsKept s t [.core, .flow, .spad, .qeng, .clus, .die, .host, .mgmt, .auth, .sign, .port, .cause, .xtab])
  | .invalidationComplete =>
      t = { s with regs := t.regs, caps := t.caps, ports := t.ports, inval := t.inval, out := t.out } ∧ RegsKept s t [.die, .sign, .xtab]
  | .flipComplete =>
      t = { s with regs := t.regs, flip := t.flip } ∧ RegsKept s t [.sign]
  | .epsumRead (req := r) .. =>
      t = { s with regs := t.regs, caps := t.caps, latch := t.latch, cores := t.cores, heal := t.heal, out := t.out } ∧ (pageOf (reqPage r).no = some (reqPage r) → RegsKept s t [.core, .flow, .die, .host, .mgmt, .auth, .sign, .port, .cause, .xtab])
  | .epochDrainTimeout =>
      t = { s with free := t.free, regs := t.regs, heal := t.heal, flash := t.flash, host := t.host, out := t.out } ∧ RegsKept s t [.host, .mgmt, .sign]
  | .signpostCacheFlush (core := c) (req := r) .. | .replicationEntryCommit (core := c) (req := r) .. | .routPortSelWrite (core := c) (req := r) .. =>
      t = { s with regs := t.regs, caps := t.caps, stg := t.stg, cores := t.cores, host := t.host, out := t.out } ∧ OthersKept s t c ∧ (pageOf (reqPage r).no = some (reqPage r) → PagesKept s t c [.core, .die, .host, .mgmt, .auth, .port, .cause, .xtab])
  | .footpathRegwr .. =>
      t.fuseMap = s.fuseMap ∧ t.power = s.power ∧ t.now = s.now ∧ t.pending = s.pending
  | .footpathRegrd .. =>
      t = { s with regs := t.regs, caps := t.caps, latch := t.latch, cores := t.cores, heal := t.heal, out := t.out }
  | .footpathRegrsp .. | .footpathInt .. | .epsumGather .. =>
      t = { s with regs := t.regs, out := t.out } ∧ RegsKept s t [.die]
  | .stepMessage .. =>
      t = { s with regs := t.regs, caps := t.caps, cores := t.cores, heal := t.heal, gauges := t.gauges, reports := t.reports, out := t.out } ∧ RegsKept s t [.core, .spad, .clus, .die, .gauge, .clk]
  | .digestMessage .. =>
      t = { s with regs := t.regs, nets := t.nets } ∧ RegsKept s t [.die]
  | .mboxMessage .. =>
      t = { s with regs := t.regs, cores := t.cores, nets := t.nets } ∧ RegsKept s t [.die]
  | .invalMessage .. =>
      t = { s with regs := t.regs, cores := t.cores, out := t.out } ∧ RegsKept s t [.die]
  | .flipMessage .. =>
      t = { s with regs := t.regs, nets := t.nets, out := t.out } ∧ RegsKept s t [.rout, .die]
  | .footpathAck .. =>
      t = { s with regs := t.regs, inval := t.inval, flip := t.flip } ∧ RegsKept s t [.die]
  | .footpathLinkFailover .. =>
      t = { s with nets := t.nets }
  | _ => True

/-- Whenever a command named here answers a next state, every field of the state that its arm does not list is as it was, and so are
the registers and captures of every page its arm does not exempt: a slice's commands change the slice, its stack's pages and, for
a write or an evacuation, memory and its poison; a port's small commands change only ports; a route's commands change routes and
networks. A command that can close a unit, reset or restart the module or train a port is only said to keep the fields its arm
lists. (R334, R336, R337, R338, R343, R348, R366, R372, R376, R386, R389, R393) -/
def Obligations.MemoryAndLinkFrame : Prop :=
  ∀ (i : Instr) (s t : State), exec i s = .next t →
  match i with
  | .sliceRequest .. =>
      t = { s with regs := t.regs, caps := t.caps, slices := t.slices, cores := t.cores, nets := t.nets, ports := t.ports, twin := t.twin, out := t.out } ∧ RegsKept s t [.rout, .die, .memc, .auth, .cause]
  | .sliceReadComplete .. =>
      t = { s with regs := t.regs, caps := t.caps, mpois := t.mpois, slices := t.slices, cores := t.cores, nets := t.nets, heal := t.heal, reports := t.reports, out := t.out } ∧ RegsKept s t [.rout, .die, .memc]
  | .sliceWriteAck .. =>
      t = { s with regs := t.regs, caps := t.caps, mem := t.mem, mpois := t.mpois, slices := t.slices, cores := t.cores, nets := t.nets, heal := t.heal, reports := t.reports, out := t.out } ∧ RegsKept s t [.rout, .die, .memc]
  | .patrolScrub .. =>
      t = { s with regs := t.regs, caps := t.caps, mpois := t.mpois, heal := t.heal, reports := t.reports, out := t.out } ∧ RegsKept s t [.die, .memc, .sign]
  | .perBankRefresh .. =>
      t = s
  | .stackTempRead .. | .placementAcked .. | .grantAcked .. =>
      t = { s with regs := t.regs } ∧ RegsKept s t [.memc]
  | .memoryTraining (req := r) .. =>
      t = { s with regs := t.regs, caps := t.caps, stg := t.stg, stackSt := t.stackSt, host := t.host, out := t.out } ∧ (pageOf (reqPage r).no = some (reqPage r) → RegsKept s t [.core, .flow, .spad, .qeng, .clus, .die, .memc, .host, .mgmt, .auth, .port, .cause, .xtab])
  | .trainingComplete .. | .sliceEvacuate .. | .sliceClose .. =>
      t.fuseMap = s.fuseMap ∧ t.power = s.power ∧ t.now = s.now ∧ t.pending = s.pending
  | .recentringWindow .. =>
      t = { s with regs := t.regs, stackSt := t.stackSt } ∧ RegsKept s t [.memc]
  | .recentringEnd .. =>
      t = { s with regs := t.regs, caps := t.caps, slices := t.slices, stackSt := t.stackSt, heal := t.heal, reports := t.reports, out := t.out } ∧ RegsKept s t [.die, .memc]
  | .placementWrite (req := r) .. =>
      t = { s with regs := t.regs, caps := t.caps, stg := t.stg, host := t.host, out := t.out } ∧ (pageOf (reqPage r).no = some (reqPage r) → RegsKept s t [.core, .flow, .spad, .qeng, .clus, .die, .memc, .host, .mgmt, .auth, .port, .cause, .xtab])
  | .grantWrite (req := r) .. =>
      t = { s with regs := t.regs, caps := t.caps, stg := t.stg, grant := t.grant, host := t.host, out := t.out } ∧ (pageOf (reqPage r).no = some (reqPage r) → RegsKept s t [.core, .flow, .spad, .qeng, .clus, .die, .memc, .host, .mgmt, .auth, .port, .cause, .xtab])
  | .sliceEvacuated .. =>
      t = { s with regs := t.regs, caps := t.caps, mem := t.mem, mpois := t.mpois, slices := t.slices, heal := t.heal, reports := t.reports, out := t.out } ∧ RegsKept s t [.die, .memc]
  | .codewordReceive .. =>
      t = { s with free := t.free, regs := t.regs, caps := t.caps, nets := t.nets, ports := t.ports, heal := t.heal, reports := t.reports, out := t.out } ∧ RegsKept s t [.rout, .die, .port, .xtab]
  | .codewordTransmit .. =>
      t = { s with free := t.free, regs := t.regs, ports := t.ports, out := t.out } ∧ RegsKept s t [.clk, .port]
  | .identBlock .. | .halfReq .. | .halfAck .. | .portEnable .. | .portDisable .. | .portTrainingDone .. | .portCheckDone .. | .portRetrain ..
  | .laneFailure .. | .halfWidthRetrain .. | .portDown .. =>
      t.fuseMap = s.fuseMap ∧ t.fieldMap = s.fieldMap ∧ t.power = s.power ∧ t.now = s.now ∧ t.pending = s.pending
  | .spareReady .. | .portDownExpiry .. =>
      t = { s with regs := t.regs } ∧ RegsKept s t [.port]
  | .swapReq .. =>
      t = { s with regs := t.regs, ports := t.ports } ∧ RegsKept s t []
  | .eqAdj .. | .rotationStep .. =>
      t = { s with ports := t.ports }
  | .routedControlPacket .. =>
      t = { s with regs := t.regs, caps := t.caps, nets := t.nets, ports := t.ports, out := t.out } ∧ RegsKept s t [.die, .auth, .xtab]
  | .portSignalDetect .. | .laneSwap .. =>
      t = { s with free := t.free, regs := t.regs, ports := t.ports } ∧ RegsKept s t [.port]
  | .spareRetrainDone .. =>
      t = { s with regs := t.regs, ports := t.ports } ∧ RegsKept s t [.port]
  | .deviceRoute .. =>
      t = { s with regs := t.regs, caps := t.caps, mem := t.mem, mpois := t.mpois, slices := t.slices, cores := t.cores, nets := t.nets, ports := t.ports, twin := t.twin, heal := t.heal, hub := t.hub, flash := t.flash, host := t.host, reports := t.reports, out := t.out } ∧ RegsKept s t [.core, .spad, .qeng, .rout, .clus, .die, .memc, .host, .mgmt, .auth, .clk, .cause, .xtab]
  | .xepochFlip (req := r) .. | .xepochRetire (req := r) .. | .routeEntryCommit (req := r) .. =>
      t = { s with free := t.free, regs := t.regs, caps := t.caps, stg := t.stg, routes := t.routes, host := t.host, out := t.out } ∧ (pageOf (reqPage r).no = some (reqPage r) → RegsKept s t [.core, .flow, .spad, .qeng, .clus, .die, .host, .mgmt, .auth, .port, .cause, .xtab])
  | _ => True

/-- Whenever a command named here answers a next state, every field of the state that its arm does not list is as it was, and so are
the registers and captures of every page its arm does not exempt: the twin's commands change the twin's state, the causeway's
pages and the ports they send on; memory and its poison change only under a journal record or mark received, a shadow apply, a
signpost update, a hand-back, or a partner that is lost. A command that can close a unit, reset or restart the module or train a
port is only said to keep the fields its arm lists. (R406, R409, R414, R416, R417, R419, R422, R424, R425, R426, R433, R434) -/
def Obligations.TwinFrame : Prop :=
  ∀ (i : Instr) (s t : State), exec i s = .next t →
  match i with
  | .causewayMemoryRequest .. =>
      t = { s with regs := t.regs, caps := t.caps, nets := t.nets, ports := t.ports, out := t.out } ∧ RegsKept s t [.rout, .die, .cause, .xtab]
  | .heartbeatSend .. | .journalResend .. | .rejoinRequest =>
      t = { s with regs := t.regs, ports := t.ports } ∧ RegsKept s t [.cause]
  | .heartbeatReceive .. | .journalMark .. =>
      t = { s with regs := t.regs, ports := t.ports, twin := t.twin } ∧ RegsKept s t [.cause]
  | .heartbeatPeriodMissed .. | .queryTimeout | .handBack .. =>
      t.fuseMap = s.fuseMap ∧ t.power = s.power ∧ t.now = s.now ∧ t.pending = s.pending
  | .fence .. =>
      t = { s with regs := t.regs, ports := t.ports, twin := t.twin, out := t.out } ∧ RegsKept s t [.die, .cause]
  | .cwholdExpiry =>
      t = { s with regs := t.regs, twin := t.twin, heal := t.heal, flash := t.flash, host := t.host, out := t.out } ∧ RegsKept s t [.host, .mgmt, .cause]
  | .twinBindBind .. =>
      t = { s with free := t.free, regs := t.regs, caps := t.caps, stg := t.stg, cores := t.cores, ports := t.ports, twin := t.twin, heal := t.heal, flash := t.flash, host := t.host, reports := t.reports, out := t.out } ∧ RegsKept s t [.core, .flow, .spad, .qeng, .rout, .clus, .die, .host, .auth, .clk, .healHub, .cause]
  | .twinBindAttach .. =>
      t = { s with regs := t.regs, caps := t.caps, stg := t.stg, cores := t.cores, ports := t.ports, twin := t.twin, heal := t.heal, host := t.host, reports := t.reports, out := t.out } ∧ RegsKept s t [.core, .flow, .spad, .qeng, .rout, .clus, .die, .host, .auth, .clk, .healHub, .cause, .xtab]
  | .twinBindDetach .. =>
      t = { s with regs := t.regs, caps := t.caps, stg := t.stg, cores := t.cores, ports := t.ports, twin := t.twin, heal := t.heal, host := t.host, reports := t.reports, out := t.out } ∧ RegsKept s t [.core, .flow, .spad, .qeng, .rout, .clus, .die, .host, .auth, .clk, .healHub]
  | .twinBindUnbind .. =>
      t = { s with regs := t.regs, caps := t.caps, stg := t.stg, cores := t.cores, ports := t.ports, twin := t.twin, heal := t.heal, flash := t.flash, host := t.host, reports := t.reports, out := t.out } ∧ RegsKept s t [.core, .flow, .spad, .qeng, .rout, .clus, .die, .host, .auth, .clk, .healHub, .cause]
  | .twinCtrl .. =>
      t = { s with free := t.free, regs := t.regs, caps := t.caps, stg := t.stg, cores := t.cores, ports := t.ports, twin := t.twin, heal := t.heal, flash := t.flash, reports := t.reports, out := t.out } ∧ RegsKept s t [.core, .flow, .spad, .qeng, .rout, .clus, .die, .clk, .healHub, .cause, .xtab]
  | .hbcntWrite (req := r) .. | .journalMapWrite (req := r) .. =>
      t = { s with free := t.free, regs := t.regs, caps := t.caps, stg := t.stg, twin := t.twin, host := t.host, out := t.out } ∧ (pageOf (reqPage r).no = some (reqPage r) → RegsKept s t [.core, .flow, .spad, .qeng, .clus, .die, .host, .mgmt, .auth, .port, .cause, .xtab])
  | .jrecReceive .. | .jmarkReceive .. =>
      t = { s with regs := t.regs, caps := t.caps, mem := t.mem, mpois := t.mpois, slices := t.slices, cores := t.cores, nets := t.nets, ports := t.ports, twin := t.twin, heal := t.heal, reports := t.reports, out := t.out } ∧ RegsKept s t [.rout, .die, .memc, .auth, .cause]
  | .jackSend =>
      t = { s with ports := t.ports, twin := t.twin }
  | .jackReceive .. | .resyncRead .. =>
      t = { s with regs := t.regs, caps := t.caps, mem := t.mem, mpois := t.mpois, slices := t.slices, cores := t.cores, nets := t.nets, ports := t.ports, twin := t.twin, heal := t.heal, reports := t.reports, out := t.out } ∧ RegsKept s t [.rout, .die, .memc, .cause]
  | .shadowApply .. =>
      t = { s with regs := t.regs, caps := t.caps, mem := t.mem, mpois := t.mpois, slices := t.slices, cores := t.cores, nets := t.nets, twin := t.twin, heal := t.heal, reports := t.reports, out := t.out } ∧ RegsKept s t [.rout, .die, .memc, .auth, .cause]
  | .hotDigest .. =>
      t = { s with regs := t.regs, caps := t.caps, ports := t.ports, twin := t.twin, hub := t.hub, out := t.out } ∧ RegsKept s t [.die, .cause, .xtab]
  | .pcdigReceive .. =>
      t = { s with regs := t.regs, caps := t.caps, ports := t.ports, heal := t.heal, out := t.out } ∧ RegsKept s t [.clus, .die, .heal, .healHub]
  | .signpostUpdate .. =>
      t = { s with regs := t.regs, caps := t.caps, mem := t.mem, mpois := t.mpois, slices := t.slices, cores := t.cores, nets := t.nets, ports := t.ports, twin := t.twin, heal := t.heal, inval := t.inval, reports := t.reports, out := t.out } ∧ RegsKept s t [.rout, .die, .memc, .cause]
  | .resync =>
      t = { s with regs := t.regs, ports := t.ports, twin := t.twin } ∧ RegsKept s t [.spad, .cause, .xtab]
  | _ => True

/-- Whenever a command named here answers a next state, every field of the state that its arm does not list is as it was, and so are
the registers and captures of every page its arm does not exempt: reports, ladders, logs and visits change the HEAL pages, HEAL's
state and the blocks listed; memory changes only under the steps of a move that copy or cut over. A command that can close a unit,
reset or restart the module or train a port is only said to keep the fields its arm lists. (R446, R447, R454, R455, R456, R463, R467, R469, R476, R478, R482, R489) -/
def Obligations.HealingFrame : Prop :=
  ∀ (i : Instr) (s t : State), exec i s = .next t →
  match i with
  | .healReport =>
      t = { s with regs := t.regs, caps := t.caps, heal := t.heal, reports := t.reports, out := t.out } ∧ RegsKept s t [.clus, .die, .heal, .healHub]
  | .ladderWindowExpiry (core := c) =>
      t = { s with regs := t.regs, heal := t.heal, out := t.out } ∧ PagesKept s t c [.clus, .die, .heal, .healHub]
  | .ladderDecay (core := c) =>
      t = { s with regs := t.regs, caps := t.caps, heal := t.heal, out := t.out } ∧ PagesKept s t c [.clus, .die, .heal, .healHub]
  | .healClear (req := r) .. | .healForce (req := r) .. =>
      t = { s with regs := t.regs, caps := t.caps, stg := t.stg, heal := t.heal, host := t.host, out := t.out } ∧ (pageOf (reqPage r).no = some (reqPage r) → RegsKept s t [.core, .flow, .spad, .qeng, .clus, .die, .host, .mgmt, .auth, .heal, .healHub, .port, .cause, .xtab])
  | .healCselWrite (req := r) .. | .pairModeWrite (req := r) .. =>
      t = { s with regs := t.regs, caps := t.caps, stg := t.stg, host := t.host, out := t.out } ∧ (pageOf (reqPage r).no = some (reqPage r) → RegsKept s t [.core, .flow, .spad, .qeng, .clus, .die, .host, .mgmt, .auth, .heal, .healHub, .port, .cause, .xtab])
  | .healLogRead (req := r) .. =>
      t = { s with regs := t.regs, caps := t.caps, latch := t.latch, cores := t.cores, heal := t.heal, out := t.out } ∧ (pageOf (reqPage r).no = some (reqPage r) → RegsKept s t [.core, .flow, .die, .host, .mgmt, .auth, .heal, .healHub, .port, .cause, .xtab])
  | .pairCompare .. =>
      t = { s with regs := t.regs, caps := t.caps, cores := t.cores, nets := t.nets, heal := t.heal, reports := t.reports, out := t.out } ∧ RegsKept s t [.rout, .die, .heal, .healHub]
  | .healLogDrain .. | .unitClose .. | .closureWithdraw .. | .roadworksVisitEnd .. =>
      t.fuseMap = s.fuseMap ∧ t.power = s.power ∧ t.now = s.now ∧ t.pending = s.pending
  | .closureMapSave .. =>
      t = { s with regs := t.regs, caps := t.caps, heal := t.heal, out := t.out } ∧ RegsKept s t [.die, .healHub]
  | .moveStart (req := r) .. | .rebuildStart (req := r) .. | .moveAbort (req := r) .. =>
      t = { s with free := t.free, regs := t.regs, caps := t.caps, stg := t.stg, cores := t.cores, heal := t.heal, flash := t.flash, host := t.host, reports := t.reports, out := t.out } ∧ (pageOf (reqPage r).no = some (reqPage r) → RegsKept s t [.core, .flow, .spad, .qeng, .rout, .clus, .die, .host, .mgmt, .auth, .clk, .healHub, .port, .cause, .xtab])
  | .movePrepared .. =>
      t = { s with regs := t.regs, caps := t.caps, stg := t.stg, cores := t.cores, heal := t.heal, out := t.out } ∧ RegsKept s t [.core, .flow, .spad, .qeng, .rout, .clus, .die, .clk]
  | .moveCopyDone .. =>
      t = { s with free := t.free, regs := t.regs, caps := t.caps, mem := t.mem, mpois := t.mpois, slices := t.slices, cores := t.cores, nets := t.nets, ports := t.ports, twin := t.twin, heal := t.heal, hub := t.hub, inval := t.inval, reports := t.reports, out := t.out } ∧ RegsKept s t [.core, .flow, .spad, .qeng, .rout, .die, .memc, .sign, .healHub, .cause, .xtab]
  | .trackingPass .. =>
      t = { s with regs := t.regs, cores := t.cores, heal := t.heal } ∧ RegsKept s t [.healHub]
  | .cutoverFreeze .. =>
      t = { s with regs := t.regs, caps := t.caps, mem := t.mem, mpois := t.mpois, slices := t.slices, cores := t.cores, nets := t.nets, ports := t.ports, twin := t.twin, heal := t.heal, hub := t.hub, reports := t.reports, out := t.out } ∧ RegsKept s t [.core, .rout, .die, .memc, .healHub, .cause, .xtab]
  | .freezeTableAcked =>
      t = { s with regs := t.regs, cores := t.cores, hub := t.hub, inval := t.inval } ∧ RegsKept s t [.core, .flow, .spad, .qeng]
  | .freezeCutover =>
      t = { s with regs := t.regs, caps := t.caps, stg := t.stg, mem := t.mem, mpois := t.mpois, slices := t.slices, cores := t.cores, nets := t.nets, ports := t.ports, twin := t.twin, heal := t.heal, hub := t.hub, inval := t.inval, reports := t.reports, out := t.out } ∧ RegsKept s t [.core, .flow, .spad, .qeng, .rout, .clus, .die, .memc, .clk, .healHub, .cause]
  | .freezeRelease =>
      t = { s with regs := t.regs, hub := t.hub } ∧ RegsKept s t [.healHub]
  | .healMvSelWrite (req := r) .. =>
      t = { s with regs := t.regs, caps := t.caps, stg := t.stg, host := t.host, out := t.out } ∧ (pageOf (reqPage r).no = some (reqPage r) → RegsKept s t [.core, .flow, .spad, .qeng, .clus, .die, .host, .mgmt, .auth, .healHub, .port, .cause, .xtab])
  | .healHlogRead (req := r) | .healRwlogRead (req := r) =>
      t = { s with regs := t.regs, caps := t.caps, latch := t.latch, cores := t.cores, heal := t.heal, out := t.out } ∧ (pageOf (reqPage r).no = some (reqPage r) → RegsKept s t [.core, .flow, .die, .host, .mgmt, .auth, .healHub, .port, .cause, .xtab])
  | .roadworksVisitStart .. =>
      t = { s with regs := t.regs, caps := t.caps, stg := t.stg, cores := t.cores, heal := t.heal, out := t.out } ∧ RegsKept s t [.spad, .rout, .clus, .die, .heal, .healHub]
  | .roadworksTestDone .. =>
      t = { s with heal := t.heal }
  | .marginWalkStep .. =>
      t = { s with regs := t.regs, heal := t.heal, pins := t.pins } ∧ RegsKept s t [.clus, .healHub]
  | .selfTestSlotGrant .. =>
      t = { s with free := t.free, regs := t.regs, heal := t.heal, flash := t.flash, host := t.host, out := t.out } ∧ RegsKept s t [.host, .mgmt, .aon, .pwr, .healHub]
  | .calibrationGrant .. =>
      t = { s with regs := t.regs, slices := t.slices, stackSt := t.stackSt, ports := t.ports, heal := t.heal } ∧ RegsKept s t [.memc, .healHub]
  | _ => True

/-- Whenever a command named here answers a next state, every field of the state that its arm does not list is as it was, and so are
the registers and captures of every page its arm does not exempt: a context operation changes the cores of its context, the hub's
contexts and the pages listed; a notice changes the hub's contexts and what its own rule names; memory changes only where a
context's tables are torn down or a position of signposts is applied. A command that can close a unit, reset or restart the module
or train a port is only said to keep the fields its arm lists. (R495, R497, R498, R500, R502, R504, R511, R512, R513, R515, R516, R518) -/
def Obligations.ResetAndIncidentFrame : Prop :=
  ∀ (i : Instr) (s t : State), exec i s = .next t →
  match i with
  | .coreReset (req := r) .. | .clusterReset (req := r) .. | .dieWdogKick (req := r) .. =>
      t = { s with regs := t.regs, caps := t.caps, stg := t.stg, cores := t.cores, heal := t.heal, hub := t.hub, host := t.host, reports := t.reports, out := t.out } ∧ (pageOf (reqPage r).no = some (reqPage r) → RegsKept s t [.core, .flow, .spad, .qeng, .rout, .clus, .die, .host, .mgmt, .auth, .clk, .sign, .port, .cause, .xtab])
  | .computeDieReset .. | .portDieReset .. | .dieWatchdogExpiry .. | .footpathHubLoss .. | .hostLinkReset .. | .dieResetComplete .. =>
      t.fuseMap = s.fuseMap ∧ t.fieldMap = s.fieldMap ∧ t.power = s.power ∧ t.now = s.now ∧ t.pending = s.pending
  | .moduleReset | .hubWatchdogExpiry =>
      t.fuseMap = s.fuseMap ∧ t.fieldMap = s.fieldMap ∧ t.flash = s.flash ∧ t.power = s.power ∧ t.now = s.now ∧ t.pending = s.pending
  | .aonHwdogKick (req := r) .. | .aonRstClr (req := r) .. =>
      t = { s with regs := t.regs, caps := t.caps, stg := t.stg, host := t.host, out := t.out } ∧ (pageOf (reqPage r).no = some (reqPage r) → RegsKept s t [.core, .flow, .spad, .qeng, .clus, .die, .host, .mgmt, .auth, .aon, .port, .cause, .xtab])
  | .functionLevelReset .. =>
      t = { s with regs := t.regs, caps := t.caps, stg := t.stg, latch := t.latch, mem := t.mem, mpois := t.mpois, slices := t.slices, grant := t.grant, cores := t.cores, nets := t.nets, ports := t.ports, twin := t.twin, heal := t.heal, hub := t.hub, host := t.host, inval := t.inval, reports := t.reports, out := t.out } ∧ RegsKept s t [.core, .flow, .spad, .qeng, .rout, .clus, .die, .memc, .host, .auth, .aon, .clk, .sign, .healHub, .cause]
  | .aonRstComputeDie .. | .aonRstPortDie .. | .aonRstModule .. =>
      t.fuseMap = s.fuseMap ∧ t.power = s.power ∧ t.now = s.now ∧ t.pending = s.pending
  | .ctxopHalt (req := r) .. | .ctxopClose (req := r) .. | .ctxopRegen (req := r) .. | .ctxopClear (req := r) .. =>
      t = { s with regs := t.regs, caps := t.caps, stg := t.stg, cores := t.cores, heal := t.heal, hub := t.hub, host := t.host, reports := t.reports, out := t.out } ∧ (pageOf (reqPage r).no = some (reqPage r) → RegsKept s t [.core, .flow, .spad, .qeng, .rout, .clus, .die, .host, .mgmt, .auth, .sign, .port, .cause, .xtab])
  | .ctxopComplete .. =>
      t = { s with regs := t.regs, hub := t.hub } ∧ RegsKept s t [.die]
  | .ctxTeardown .. =>
      t = { s with regs := t.regs, caps := t.caps, stg := t.stg, mem := t.mem, mpois := t.mpois, slices := t.slices, grant := t.grant, cores := t.cores, nets := t.nets, ports := t.ports, twin := t.twin, heal := t.heal, hub := t.hub, host := t.host, inval := t.inval, reports := t.reports, out := t.out } ∧ RegsKept s t [.core, .flow, .spad, .qeng, .rout, .clus, .die, .memc, .host, .auth, .aon, .clk, .sign, .healHub, .cause]
  | .drainExpiry .. =>
      t = { s with regs := t.regs, caps := t.caps, stg := t.stg, mem := t.mem, mpois := t.mpois, slices := t.slices, grant := t.grant, cores := t.cores, nets := t.nets, ports := t.ports, twin := t.twin, heal := t.heal, hub := t.hub, host := t.host, inval := t.inval, reports := t.reports, out := t.out } ∧ RegsKept s t [.core, .flow, .spad, .qeng, .rout, .clus, .die, .memc, .host, .auth, .aon, .clk, .sign, .cause, .xtab]
  | .incidentLost .. =>
      t = { s with regs := t.regs, caps := t.caps, stg := t.stg, grant := t.grant, cores := t.cores, nets := t.nets, ports := t.ports, twin := t.twin, heal := t.heal, hub := t.hub, flash := t.flash, host := t.host, reports := t.reports, out := t.out } ∧ RegsKept s t [.core, .flow, .spad, .qeng, .rout, .clus, .die, .host, .mgmt, .auth, .aon, .clk, .sign, .healHub, .cause, .xtab]
  | .incidentQuery .. | .incidentArmed .. =>
      t = { s with regs := t.regs, caps := t.caps, nets := t.nets, ports := t.ports, hub := t.hub, out := t.out } ∧ RegsKept s t [.die, .xtab]
  | .incidentState .. =>
      t = { s with regs := t.regs, caps := t.caps, nets := t.nets, twin := t.twin, hub := t.hub, out := t.out } ∧ RegsKept s t [.die, .cause]
  | .incidentAbort .. =>
      t = { s with regs := t.regs, caps := t.caps, grant := t.grant, cores := t.cores, nets := t.nets, ports := t.ports, heal := t.heal, hub := t.hub, flash := t.flash, host := t.host, reports := t.reports, out := t.out } ∧ RegsKept s t [.core, .flow, .spad, .qeng, .rout, .clus, .die, .host, .mgmt, .auth, .aon, .clk, .sign, .xtab]
  | .incidentAborted .. =>
      t = { s with regs := t.regs, caps := t.caps, nets := t.nets, ports := t.ports, heal := t.heal, hub := t.hub, flash := t.flash, host := t.host, out := t.out } ∧ RegsKept s t [.clus, .die, .host, .mgmt, .auth, .clk, .xtab]
  | .incidentResume .. =>
      t = { s with free := t.free, regs := t.regs, caps := t.caps, cores := t.cores, nets := t.nets, twin := t.twin, heal := t.heal, hub := t.hub, reports := t.reports, out := t.out } ∧ RegsKept s t [.core, .flow, .spad, .qeng, .die, .sign]
  | .contextArmed .. | .noticeResend .. | .barrierTimeout .. =>
      t = { s with regs := t.regs, caps := t.caps, ports := t.ports, hub := t.hub, out := t.out } ∧ RegsKept s t [.die, .xtab]
  | .incidentGo .. =>
      t = { s with regs := t.regs, caps := t.caps, cores := t.cores, nets := t.nets, ports := t.ports, heal := t.heal, hub := t.hub, gauges := t.gauges, reports := t.reports, out := t.out } ∧ RegsKept s t [.core, .spad, .clus, .die, .gauge, .clk, .xtab]
  | .incidentPosition .. =>
      t = { s with regs := t.regs, caps := t.caps, mem := t.mem, mpois := t.mpois, slices := t.slices, cores := t.cores, nets := t.nets, ports := t.ports, twin := t.twin, heal := t.heal, hub := t.hub, inval := t.inval, reports := t.reports, out := t.out } ∧ RegsKept s t [.rout, .die, .memc, .cause, .xtab]
  | .incidentAck .. =>
      t = { s with nets := t.nets, hub := t.hub }
  | .gridlockRecovery (core := c) =>
      t = { s with regs := t.regs, caps := t.caps, stg := t.stg, cores := t.cores, ports := t.ports, hub := t.hub, out := t.out } ∧ OthersKept s t c ∧ PagesKept s t c [.die, .xtab]
  | _ => True

/-- Whenever a command named here answers a next state, every field of the state that its arm does not list is as it was, and so are
the registers and captures of every page its arm does not exempt: a start's commands, supplies and clocks change the always-on
page, pins, power, the clock and cluster pages and the blocks listed, and never memory but where a fall or a step clears the
module. A command that can close a unit, reset or restart the module or train a port is only said to keep the fields its arm
lists. (R524, R526, R528, R530, R547, R548, R549, R551, R555, R559, R560, R568) -/
def Obligations.StartAndPowerFrame : Prop :=
  ∀ (i : Instr) (s t : State), exec i s = .next t →
  match i with
  | .alwaysOnStart =>
      t = { s with regs := t.regs, fieldMap := t.fieldMap, pins := t.pins } ∧ RegsKept s t [.spad, .clus, .brdg, .aon, .clk, .healHub, .cause]
  | .hubBoot =>
      t = { s with regs := t.regs, caps := t.caps, pins := t.pins, out := t.out } ∧ RegsKept s t [.clus, .die, .mgmt, .auth, .aon, .clk, .pwr]
  | .serviceImageLoad .. | .memoryStart .. | .powerUpWave .. | .provingBatch .. | .tkCoreTestRound .. | .tkPortSoak .. =>
      t.fuseMap = s.fuseMap ∧ t.power = s.power ∧ t.now = s.now ∧ t.pending = s.pending
  | .portStart .. =>
      t = { s with regs := t.regs, nets := t.nets, ports := t.ports, routes := t.routes, pins := t.pins, host := t.host } ∧ RegsKept s t [.rout, .brdg, .aon, .sign, .port, .cause, .xtab]
  | .startDone =>
      t = { s with regs := t.regs, pins := t.pins, host := t.host, out := t.out } ∧ RegsKept s t [.die, .host, .aon]
  | .startStepLimit =>
      t = { s with regs := t.regs, caps := t.caps, fieldMap := t.fieldMap, pins := t.pins, out := t.out } ∧ RegsKept s t [.spad, .clus, .die, .brdg, .aon, .clk, .healHub, .cause]
  | .recordSave =>
      t = { s with flash := t.flash }
  | .phaseFailure .. =>
      t = { s with regs := t.regs, caps := t.caps, heal := t.heal, reports := t.reports, out := t.out } ∧ RegsKept s t [.die, .pwr]
  | .regulatorFault .. | .pllLoss .. =>
      t.fuseMap = s.fuseMap ∧ t.now = s.now ∧ t.pending = s.pending
  | .powerSample .. =>
      t = { s with regs := t.regs, power := t.power } ∧ RegsKept s t [.pwr]
  | .limiterInterval =>
      t = { s with regs := t.regs, caps := t.caps, power := t.power, out := t.out } ∧ RegsKept s t [.clus, .die, .memc, .pwr]
  | .fastThrottle .. =>
      t = { s with regs := t.regs, power := t.power, out := t.out } ∧ RegsKept s t [.clus, .die, .pwr]
  | .fastThrottleRelease .. =>
      t = { s with regs := t.regs, power := t.power } ∧ RegsKept s t [.clus, .pwr]
  | .coreTargetWrite (req := r) .. | .holdWrite (req := r) .. | .setpointWrite (req := r) .. | .freqTargetWrite (req := r) ..
  | .clusRelock (req := r) .. =>
      t = { s with regs := t.regs, caps := t.caps, stg := t.stg, cores := t.cores, heal := t.heal, pins := t.pins, host := t.host, reports := t.reports, out := t.out } ∧ (pageOf (reqPage r).no = some (reqPage r) → RegsKept s t [.core, .flow, .spad, .qeng, .rout, .clus, .die, .host, .mgmt, .auth, .clk, .port, .cause, .xtab])
  | .restEntry .. =>
      t = { s with regs := t.regs, cores := t.cores } ∧ RegsKept s t [.core, .spad, .clus]
  | .restWake .. =>
      t = { s with regs := t.regs, caps := t.caps, cores := t.cores, heal := t.heal, reports := t.reports, out := t.out } ∧ RegsKept s t [.core, .spad, .clus, .die, .clk]
  | .dieIdleEntry .. | .dieIdleExit .. =>
      t = { s with regs := t.regs } ∧ RegsKept s t [.die, .pwr]
  | .standbyEntry .. | .thermalTrip | .pwrEnFall | .mainSupplyLost | .modRstNAssert .. =>
      t.fuseMap = s.fuseMap ∧ t.fieldMap = s.fieldMap ∧ t.flash = s.flash ∧ t.power = s.power ∧ t.now = s.now ∧ t.pending = s.pending
  | .tempSample .. =>
      t.fuseMap = s.fuseMap ∧ t.fieldMap = s.fieldMap ∧ t.flash = s.flash ∧ t.now = s.now ∧ t.pending = s.pending
  | .pwrLimitWrite (req := r) .. =>
      t = { s with regs := t.regs, caps := t.caps, stg := t.stg, host := t.host, out := t.out } ∧ (pageOf (reqPage r).no = some (reqPage r) → RegsKept s t [.core, .flow, .spad, .qeng, .clus, .die, .host, .mgmt, .auth, .pwr, .port, .cause, .xtab])
  | .crystalJudged .. | .crystalFail | .hostRefclkLoss =>
      t.fuseMap = s.fuseMap ∧ t.fieldMap = s.fieldMap ∧ t.power = s.power ∧ t.now = s.now ∧ t.pending = s.pending
  | .pllStart .. =>
      t = { s with regs := t.regs, caps := t.caps, out := t.out } ∧ RegsKept s t [.clus, .die, .clk]
  | .pllLock .. =>
      t = { s with regs := t.regs } ∧ RegsKept s t [.clus]
  | .serdesRefLoss .. =>
      t = { s with regs := t.regs, caps := t.caps, out := t.out } ∧ RegsKept s t [.die, .clk]
  | .serdesRefReturn .. =>
      t = { s with free := t.free, regs := t.regs, nets := t.nets, ports := t.ports } ∧ RegsKept s t [.rout, .clk, .port, .cause, .xtab]
  | .clkRelock (req := r) .. | .clkClrlost (req := r) .. =>
      t = { s with regs := t.regs, caps := t.caps, stg := t.stg, host := t.host, out := t.out } ∧ (pageOf (reqPage r).no = some (reqPage r) → RegsKept s t [.core, .flow, .spad, .qeng, .clus, .die, .host, .mgmt, .auth, .clk, .port, .cause, .xtab])
  | .aux3v3Applied | .pwrEnRise .. | .mainSupplyRestored | .flashExtNRelease =>
      t = { s with regs := t.regs, pins := t.pins } ∧ RegsKept s t [.aon]
  | .twinSelSample .. =>
      t = { s with regs := t.regs, pins := t.pins } ∧ RegsKept s t [.cause]
  | .aux3v3Lost =>
      t.fuseMap = s.fuseMap ∧ t.flash = s.flash ∧ t.now = s.now ∧ t.pending = s.pending
  | .flashExtNAssert =>
      t = { s with pins := t.pins }
  | _ => True

/-- Whenever a command named here answers a next state, every field of the state that its arm does not list is as it was, and so are
the registers and captures of every page its arm does not exempt: a ring's commands change the host port, the hub's contexts and
the pages listed; memory changes only under an itinerary load and an access of a window. A command that can close a unit, reset or
restart the module or train a port is only said to keep the fields its arm lists. (R30, R31, R581, R583, R584, R585, R587, R590, R591, R592, R594, R609) -/
def Obligations.HostFrame : Prop :=
  ∀ (i : Instr) (s t : State), exec i s = .next t →
  match i with
  | .doorbell (req := r) .. | .ringEnable (req := r) .. | .ringDisable (req := r) .. =>
      t = { s with regs := t.regs, caps := t.caps, stg := t.stg, latch := t.latch, host := t.host, out := t.out } ∧ (pageOf (reqPage r).no = some (reqPage r) → RegsKept s t [.core, .flow, .spad, .qeng, .clus, .die, .host, .mgmt, .auth, .port, .cause, .xtab])
  | .commandFetch .. | .healQuery .. =>
      t = { s with regs := t.regs, host := t.host, out := t.out } ∧ RegsKept s t [.host, .auth]
  | .ctxCreate .. | .milestoneWait .. | .milestoneWaitTimeout .. | .window .. =>
      t = { s with regs := t.regs, hub := t.hub, host := t.host, out := t.out } ∧ RegsKept s t [.host, .auth]
  | .itinLoad .. =>
      t = { s with free := t.free, regs := t.regs, caps := t.caps, stg := t.stg, mem := t.mem, mpois := t.mpois, slices := t.slices, grant := t.grant, cores := t.cores, nets := t.nets, ports := t.ports, twin := t.twin, heal := t.heal, hub := t.hub, host := t.host, inval := t.inval, reports := t.reports, out := t.out } ∧ RegsKept s t [.core, .flow, .spad, .qeng, .rout, .clus, .die, .memc, .host, .mgmt, .auth, .clk, .sign, .cause, .xtab]
  | .stepRun .. =>
      t = { s with regs := t.regs, caps := t.caps, hub := t.hub, host := t.host, out := t.out } ∧ RegsKept s t [.clus, .die, .host, .auth, .clk]
  | .stepPost .. =>
      t = { s with regs := t.regs, caps := t.caps, cores := t.cores, ports := t.ports, twin := t.twin, heal := t.heal, hub := t.hub, gauges := t.gauges, reports := t.reports, out := t.out } ∧ RegsKept s t [.core, .spad, .clus, .die, .gauge, .clk, .cause, .xtab]
  | .stepCompletion .. =>
      t = { s with regs := t.regs, caps := t.caps, ports := t.ports, twin := t.twin, hub := t.hub, host := t.host, out := t.out } ∧ RegsKept s t [.clus, .die, .host, .auth, .clk, .cause, .xtab]
  | .fabricCfgSetDevice .. | .fabricCfgWriteTable .. | .fabricCfgFlip .. | .fabricCfgReadSum .. | .fabricCfgRetire .. | .fabricCfgSetExpect ..
  | .fabricCfgEnable .. | .fabricCfgSave .. | .hostLinkTrained .. =>
      t.fuseMap = s.fuseMap ∧ t.fieldMap = s.fieldMap ∧ t.power = s.power ∧ t.now = s.now ∧ t.pending = s.pending
  | .mailboxInWrite (req := r) .. | .bar2BaseWrite (req := r) .. =>
      t = { s with regs := t.regs, caps := t.caps, stg := t.stg, host := t.host, out := t.out } ∧ (pageOf (reqPage r).no = some (reqPage r) → RegsKept s t [.core, .flow, .spad, .qeng, .clus, .die, .host, .mgmt, .auth, .port, .cause, .xtab])
  | .mboxReleaseQuery .. | .mboxEcho .. | .pcieConfigurationRequest .. =>
      t = { s with regs := t.regs, host := t.host, out := t.out } ∧ RegsKept s t [.host, .aon]
  | .mailboxOutRead (req := r) .. | .hostEventRead (req := r) =>
      t = { s with regs := t.regs, caps := t.caps, latch := t.latch, cores := t.cores, heal := t.heal, out := t.out } ∧ (pageOf (reqPage r).no = some (reqPage r) → RegsKept s t [.core, .flow, .die, .host, .mgmt, .auth, .port, .cause, .xtab])
  | .barMemoryAccess .. =>
      t = { s with regs := t.regs, caps := t.caps, mem := t.mem, mpois := t.mpois, slices := t.slices, cores := t.cores, nets := t.nets, ports := t.ports, twin := t.twin, heal := t.heal, reports := t.reports, out := t.out } ∧ RegsKept s t [.spad, .rout, .die, .memc, .host, .auth, .cause]
  | .vfWindowAccess .. =>
      t = { s with regs := t.regs, caps := t.caps, stg := t.stg, latch := t.latch, mem := t.mem, mpois := t.mpois, slices := t.slices, cores := t.cores, nets := t.nets, ports := t.ports, twin := t.twin, heal := t.heal, host := t.host, reports := t.reports, out := t.out }
  | _ => True

/-- Whenever a command named here answers a next state, every field of the state that its arm does not list is as it was, and so are
the registers and captures of every page its arm does not exempt: header, management, fuse and gauge commands change registers,
captures, the host port's record, what a requester has staged or latched, and their own unit's state. A command that can close a
unit, reset or restart the module or train a port is only said to keep the fields its arm lists. (R40, R44, R52, R53, R593, R597, R600, R602, R604, R616, R617, R625) -/
def Obligations.ManagementAndGaugeFrame : Prop :=
  ∀ (i : Instr) (s t : State), exec i s = .next t →
  match i with
  | .registerWrite .. | .casevoRegWrite .. | .debugTransport .. =>
      t.fuseMap = s.fuseMap ∧ t.power = s.power ∧ t.now = s.now ∧ t.pending = s.pending
  | .intRawSet .. | .intStatClear .. | .intEnableSet .. | .intEnableClear .. | .errClr .. | .pgLockSet .. =>
      t = { s with regs := t.regs, caps := t.caps, stg := t.stg, host := t.host, out := t.out }
  | .pairLowRead .. | .casevoRegRead .. =>
      t = { s with regs := t.regs, caps := t.caps, latch := t.latch, cores := t.cores, heal := t.heal, out := t.out }
  | .entdaa .. =>
      t = { s with regs := t.regs } ∧ RegsKept s t [.mgmt]
  | .mctpControl .. =>
      t = { s with regs := t.regs, caps := t.caps, out := t.out } ∧ RegsKept s t [.die, .mgmt]
  | .casevoHealQuery .. =>
      t = { s with regs := t.regs, out := t.out } ∧ RegsKept s t [.mgmt]
  | .casevoFabricCfg .. =>
      t.fuseMap = s.fuseMap ∧ t.fieldMap = s.fieldMap ∧ t.power = s.power ∧ t.now = s.now ∧ t.pending = s.pending
  | .casevoFuse .. =>
      t = { s with regs := t.regs, caps := t.caps, host := t.host, out := t.out } ∧ RegsKept s t [.die, .mgmt, .auth, .fuse]
  | .pldmSensorRead .. =>
      t = { s with regs := t.regs, caps := t.caps, out := t.out } ∧ RegsKept s t [.die, .memc, .mgmt, .pwr]
  | .pldmEffecterSet .. =>
      t = { s with regs := t.regs, caps := t.caps, stg := t.stg, host := t.host, out := t.out } ∧ RegsKept s t [.core, .flow, .spad, .qeng, .clus, .die, .host, .mgmt, .auth, .pwr]
  | .firmwareUpdate .. =>
      t = { s with regs := t.regs, caps := t.caps, flash := t.flash, out := t.out } ∧ RegsKept s t [.die, .mgmt, .aon]
  | .spdmGetCertificate | .spdmChallenge .. | .spdmGetMeasurements =>
      t = { s with free := t.free, regs := t.regs, caps := t.caps, out := t.out } ∧ RegsKept s t [.die, .mgmt]
  | .authDbgLockWrite (req := r) .. =>
      t = { s with regs := t.regs, caps := t.caps, stg := t.stg, host := t.host, out := t.out } ∧ (pageOf (reqPage r).no = some (reqPage r) → RegsKept s t [.core, .flow, .spad, .qeng, .clus, .die, .host, .mgmt, .auth, .port, .cause, .xtab])
  | .fuseArmWrite (req := r) .. | .fuseDbgClose (req := r) .. | .fuseMgmtClose (req := r) .. | .fuseSvnAdvance (req := r) ..
  | .fuseKeyRevoke (req := r) .. =>
      t = { s with regs := t.regs, caps := t.caps, stg := t.stg, host := t.host, out := t.out } ∧ (pageOf (reqPage r).no = some (reqPage r) → RegsKept s t [.core, .flow, .spad, .qeng, .clus, .die, .host, .mgmt, .auth, .fuse, .port, .cause, .xtab])
  | .fuseArmExpiry =>
      t = { s with regs := t.regs, host := t.host } ∧ RegsKept s t [.fuse]
  | .fuseProgramDone .. =>
      t = { s with regs := t.regs, caps := t.caps, host := t.host, out := t.out } ∧ RegsKept s t [.die, .auth, .fuse]
  | .pldmEventPoll =>
      t = { s with regs := t.regs, host := t.host, out := t.out } ∧ RegsKept s t [.mgmt]
  | .gaugeRun (req := r) .. | .gaugeStop (req := r) .. | .gaugeCloseWrite (req := r) .. =>
      t = { s with regs := t.regs, caps := t.caps, stg := t.stg, host := t.host, gauges := t.gauges, out := t.out } ∧ (pageOf (reqPage r).no = some (reqPage r) → RegsKept s t [.core, .flow, .spad, .qeng, .clus, .die, .gauge, .host, .mgmt, .auth, .port, .cause, .xtab])
  | .gaugeWindowExpiry .. | .gaugeSample .. | .levelSamplePeriod .. | .linkofsSample .. =>
      t = { s with regs := t.regs, gauges := t.gauges, out := t.out } ∧ RegsKept s t [.die, .gauge]
  | _ => True

/-- From every state whose memory is in canonical form, when one of the commands that store answers a next state, every byte of memory
outside the bytes it stores to reads as before. A slice's write stores the bytes of the request at the place that the placement
gives its address, and their copy in the stand-in while the slice mirrors; the host's windows the 64-bit words their span touches,
at BAR2's base or the window's; a DMA write the pieces of its descriptor; the shadow the records up to the last mark, at the
addresses its map gives; an evacuation the stand-ins' reserve bands of its channel; a response to a read of the partner's shadow
its chunk of the home copy; the debug port the 64-bit word around its address; an itinerary its data and its signpost entries; the
updates, positions, moves, takeovers, teardowns and drains the entries of the signpost tables. A read through a window, an access
through BAR4 and a mark received store nothing. (R26, R324, R333, R335, R338, R353, R355, R419, R433, R479, R507, R581) -/
def Obligations.StoresReachOnlyTheirBytes : Prop :=
  ∀ (i : Instr) (s t : State), MemInv s → exec i s = .next t →
  match i with
  | .sliceWriteAck (g := g) (i := j) .. =>
      KeptOutside s t fun z => ∃ p, (slice s g).q[j]? = some p ∧ Stored s g (phys s p.sepoch p.addr) p.rlen z
  | .barMemoryAccess bar4 off n write _ =>
      KeptOutside s t fun z => bar4 = false ∧ write = true ∧ StoredWords s (injEpoch s 8 0xF0) (bar2Base s + off) n z
  | .vfWindowAccess vf bar off n write _ =>
      KeptOutside s t fun z => bar ≠ 0 ∧ write = true ∧ ∃ e, s.hub.ctxs.find? (fun e => e.2.st != 0 && e.2.vf == some vf) = some e ∧
        StoredWords s (injEpoch s 8 0xF0) (e.2.winBase + off) n z
  | .dmaDescriptorComplete (core := c) (id := id) =>
      KeptOutside s t fun z => ∃ d, (dmaList s c).find? (fun d => d.id == id && d.running && !d.notified) = some d ∧ d.op = 3 ∧
        ∃ k ∈ d.pieces, StoredAt s (injEpoch s (c / 144) (c % 144)) k.2.1 k.2.2 z
  | .sliceEvacuated g => KeptOutside s t fun z => inReserve (g / 32) (g % 32) z = true
  | .shadowApply g => KeptOutside s t fun z => StoredStream s g z
  | .jrecReceive w _ _ copy poison addr data =>
      KeptOutside s t fun z => copy = true ∧ StoredRec s w { sseq := 0, addr := addr % 2 ^ 40, data := data.take 64, poison := poison, copy := copy } z
  | .jmarkReceive .. => t.mem = s.mem
  | .heartbeatPeriodMissed .. | .queryTimeout => KeptOutside s t fun z => (∃ g < 512, StoredStream s g z) ∨ StoredSigns s z
  | .signpostUpdate .. | .incidentPosition .. | .handBack .. | .moveCopyDone .. | .cutoverFreeze .. | .freezeCutover | .ctxTeardown .. |
    .drainExpiry .. | .functionLevelReset .. => KeptOutside s t fun z => StoredSigns s z
  | .deviceRoute (pkt := p) .. => KeptOutside s t fun z => ∃ f ∈ s.twin.fetches.take 1,
        StoredAt s (hubEpoch s) (fd s (spadPage f.core) (fSPAD_REGION_HOME.at f.region) * 65536 + 512 * p.rid) (8 * p.data.length) z
  | .debugTransport kind a w _ => kind = 1 → KeptOutside s t fun z => w = true ∧ StoredWords s (injEpoch s 8 0xF2) (a / 8 * 8) 8 z
  | .itinLoad .. =>
      KeptOutside s t fun z => StoredSigns s z ∨
        ∃ k ∈ s.host.cmds, ∃ i, k.itin = some i ∧ ∃ d ∈ i.data, ∃ q ∈ chunksOf d.1 (8 * d.2.length), StoredAt s (hubEpoch s) q.1 q.2 z
  | _ => True
end

