-- ==== Sys2Proof/Laws/Table.lean ====
section
/-! SUPPORT. Laws of the sorted tables, the byte memory and bit fields. -/
namespace Sys2Proof.Machine

variable {α : Type}

@[simp] theorem tget_tput_same (d v : α) (t : Tbl α) (n : Nat) : tget d (tput t n v) n = v := by
  induction t with
  | nil => simp [tput, tget]
  | cons e t ih =>
    obtain ⟨k, w⟩ := e
    simp only [tput]
    split
    · simp [tget]
    · split
      · simp [tget]
      · simp [tget, *]

theorem tget_tput_ne (d v : α) (t : Tbl α) {m n : Nat} (h : m ≠ n) : tget d (tput t n v) m = tget d t m := by
  induction t with
  | nil => simp [tput, tget, h]
  | cons e t ih =>
    obtain ⟨k, w⟩ := e
    simp only [tput]
    split
    · subst_vars; simp [tget, h]
    · split
      · simp only [tget, h, if_false]
        split
        · have : m < k := by omega
          simp [this, Nat.ne_of_lt this]
        · rfl
      · simp [tget, ih]

/-- The table after a write, read anywhere. -/
theorem tget_tput (d v : α) (t : Tbl α) (m n : Nat) : tget d (tput t n v) m = if m = n then v else tget d t m := by
  split
  · subst_vars; simp
  · exact tget_tput_ne d v t ‹_›

/-- Every key of the table is at least `b`. -/
theorem twf_cons {k : Nat} {w : α} {t : Tbl α} (h : twf ((k, w) :: t) = true) : twf t = true := by
  cases t with
  | nil => rfl
  | cons e t => obtain ⟨l, x⟩ := e; simp [twf] at h; exact h.2

theorem twf_head {k l : Nat} {w x : α} {t : Tbl α} (h : twf ((k, w) :: (l, x) :: t) = true) : k < l := by
  simp [twf] at h; exact h.1

theorem twf_lt {k : Nat} {w : α} {t : Tbl α} (h : twf ((k, w) :: t) = true) : ∀ e ∈ t, k < e.1 := by
  induction t generalizing k w with
  | nil => simp
  | cons e t ih =>
    obtain ⟨l, x⟩ := e
    intro e' he'
    have h1 := twf_head h
    rcases List.mem_cons.1 he' with rfl | h2
    · exact h1
    · exact Nat.lt_trans h1 (ih (twf_cons h) e' h2)

theorem twf_of_lt {k : Nat} {w : α} {t : Tbl α} (h : twf t = true) (hl : ∀ e ∈ t, k < e.1) : twf ((k, w) :: t) = true := by
  cases t with
  | nil => rfl
  | cons e t => obtain ⟨l, x⟩ := e; simp [twf, h]; exact hl (l, x) (by simp)

theorem mem_tput {t : Tbl α} {n : Nat} {v : α} {e : Nat × α} (h : e ∈ tput t n v) : e = (n, v) ∨ e ∈ t := by
  induction t with
  | nil => simpa [tput] using h
  | cons a t ih =>
    obtain ⟨k, w⟩ := a
    simp only [tput] at h
    split at h
    · rcases List.mem_cons.1 h with h | h
      · exact .inl h
      · exact .inr (List.mem_cons_of_mem _ h)
    · split at h
      · rcases List.mem_cons.1 h with h | h
        · exact .inl h
        · exact .inr h
      · rcases List.mem_cons.1 h with h | h
        · exact .inr (by simp [h])
        · rcases ih h with h | h
          · exact .inl h
          · exact .inr (List.mem_cons_of_mem _ h)

theorem mem_tdel {t : Tbl α} {n : Nat} {e : Nat × α} (h : e ∈ tdel t n) : e ∈ t := by
  induction t with
  | nil => simp [tdel] at h
  | cons a t ih =>
    obtain ⟨k, w⟩ := a
    simp only [tdel] at h
    split at h
    · exact List.mem_cons_of_mem _ h
    · split at h
      · exact h
      · rcases List.mem_cons.1 h with h | h
        · simp [h]
        · exact List.mem_cons_of_mem _ (ih h)

/-- A write keeps the keys rising. -/
theorem twf_tput {t : Tbl α} (n : Nat) (v : α) (h : twf t = true) : twf (tput t n v) = true := by
  induction t with
  | nil => rfl
  | cons a t ih =>
    obtain ⟨k, w⟩ := a
    have hlt := twf_lt h
    simp only [tput]
    split
    · subst_vars; exact twf_of_lt (twf_cons h) hlt
    · split
      · refine twf_of_lt h ?_
        intro e he
        rcases List.mem_cons.1 he with rfl | he
        · assumption
        · have := hlt e he; omega
      · refine twf_of_lt (ih (twf_cons h)) ?_
        intro e he
        rcases mem_tput he with rfl | he
        · simp; omega
        · exact hlt e he

/-- A deletion keeps the keys rising. -/
theorem twf_tdel {t : Tbl α} (n : Nat) (h : twf t = true) : twf (tdel t n) = true := by
  induction t with
  | nil => rfl
  | cons a t ih =>
    obtain ⟨k, w⟩ := a
    simp only [tdel]
    split
    · exact twf_cons h
    · split
      · exact h
      · exact twf_of_lt (ih (twf_cons h)) fun e he => twf_lt h e (mem_tdel he)

/-- What a table with rising keys holds after a deletion. -/
theorem tget_tdel (d : α) {t : Tbl α} (h : twf t = true) (m n : Nat) : tget d (tdel t n) m = if m = n then d else tget d t m := by
  induction t with
  | nil => simp [tdel, tget]
  | cons a t ih =>
    obtain ⟨k, w⟩ := a
    have hlt := twf_lt h
    have hd : ∀ {t : Tbl α} {m : Nat}, twf t = true → (∀ e ∈ t, m < e.1) → tget d t m = d := by
      intro t m ht hm
      cases t with
      | nil => rfl
      | cons b t =>
        obtain ⟨l, x⟩ := b
        have : m < l := hm (l, x) (by simp)
        simp [tget, this, Nat.ne_of_lt this]
    simp only [tdel]
    split
    · subst_vars
      split
      · subst_vars; exact hd (twf_cons h) hlt
      · simp only [tget]
        split
        · contradiction
        · split
          · exact hd (twf_cons h) fun e he => Nat.lt_trans ‹_› (hlt e he)
          · rfl
    · split
      · split
        · subst_vars; simp [tget, *]
        · rfl
      · simp only [tget, ih (twf_cons h)]
        split
        · subst_vars
          have : ¬ k = n := fun h => by omega
          simp [this]
        · split <;> split <;> rfl

/-- Reading a byte after a byte was written. -/
theorem memGet_memPut {m : Tbl Byte} (h : twf m = true) (a b : Nat) (v : Byte) :
    memGet (memPut m a v) b = if b = a then v else memGet m b := by
  unfold memGet memPut
  split
  · subst_vars; exact tget_tdel _ h b a
  · exact tget_tput _ _ _ _ _

theorem memWf_twf {m : Tbl Byte} (h : memWf m = true) : twf m = true := by simp [memWf] at h; exact h.1

/-- Writing a byte keeps memory in its canonical form. -/
theorem memWf_memPut {m : Tbl Byte} (h : memWf m = true) (a : Nat) (b : Byte) : memWf (memPut m a b) = true := by
  simp only [memWf, Bool.and_eq_true, List.all_eq_true] at h ⊢
  unfold memPut
  split
  · exact ⟨twf_tdel _ h.1, fun e he => h.2 e (mem_tdel he)⟩
  · refine ⟨twf_tput _ _ h.1, fun e he => ?_⟩
    rcases mem_tput he with rfl | he
    · simpa using ‹¬ b = memBlank›
    · exact h.2 e he

/-- Writing bytes keeps memory in its canonical form. -/
theorem memWf_memPutAll {m : Tbl Byte} (h : memWf m = true) (a : Nat) (bs : List Byte) : memWf (memPutAll m a bs) = true := by
  induction bs generalizing m a with
  | nil => exact h
  | cons b bs ih => exact ih (memWf_memPut h a b) (a + 1)

/-- Bytes written where `b` is not are not read at `b`. -/
theorem memGet_memPutAll_out {m : Tbl Byte} (h : memWf m = true) (a b : Nat) (bs : List Byte) (hb : b < a ∨ a + bs.length ≤ b) :
    memGet (memPutAll m a bs) b = memGet m b := by
  induction bs generalizing m a with
  | nil => rfl
  | cons v bs ih =>
    simp only [List.length_cons] at hb
    rw [memPutAll, ih (memWf_memPut h a v) (a + 1) (by omega), memGet_memPut (memWf_twf h)]
    have : b ≠ a := by omega
    simp [this]

/-- A byte written is read back. -/
theorem memGet_memPutAll_in {m : Tbl Byte} (h : memWf m = true) (a : Nat) (bs : List Byte) {i : Nat} (hi : i < bs.length) :
    memGet (memPutAll m a bs) (a + i) = bs[i] := by
  induction bs generalizing m a i with
  | nil => simp at hi
  | cons v bs ih =>
    rw [memPutAll]
    cases i with
    | zero =>
      rw [memGet_memPutAll_out (memWf_memPut h a v) _ _ _ (by omega), memGet_memPut (memWf_twf h)]; simp
    | succ i =>
      have := ih (memWf_memPut h a v) (a + 1) (i := i) (by simpa using hi)
      rw [show a + (i + 1) = a + 1 + i by omega, this]; rfl

/-! ### Bit fields -/

theorem bits_lt (v lo w : Nat) : bits v lo w < 2 ^ w := Nat.mod_lt _ (Nat.two_pow_pos w)

/-- A number split at a field: what stands above it, in it and below it. -/
theorem setBits_split (v lo w x : Nat) :
    ∃ a r, r < 2 ^ lo ∧ v = (a * 2 ^ w + bits v lo w) * 2 ^ lo + r ∧ setBits v lo w x = (a * 2 ^ w + x % 2 ^ w) * 2 ^ lo + r := by
  refine ⟨v / 2 ^ lo / 2 ^ w, v % 2 ^ lo, Nat.mod_lt _ (Nat.two_pow_pos lo), ?_, ?_⟩
  · rw [show bits v lo w = v / 2 ^ lo % 2 ^ w from rfl, Nat.div_add_mod', Nat.div_add_mod']
  · have h : v = (v / 2 ^ lo / 2 ^ w * 2 ^ w + bits v lo w) * 2 ^ lo + v % 2 ^ lo := by
      rw [show bits v lo w = v / 2 ^ lo % 2 ^ w from rfl, Nat.div_add_mod', Nat.div_add_mod']
    unfold setBits
    rw [Nat.add_mul] at h ⊢
    omega

theorem high_of (a b r lo w : Nat) (hr : r < 2 ^ lo) (hb : b < 2 ^ w) : ((a * 2 ^ w + b) * 2 ^ lo + r) / 2 ^ (lo + w) = a := by
  rw [Nat.pow_add, ← Nat.div_div_eq_div_mul, Nat.add_comm, Nat.add_mul_div_right _ _ (Nat.two_pow_pos lo), Nat.div_eq_of_lt hr,
    Nat.zero_add, Nat.add_comm, Nat.add_mul_div_right _ _ (Nat.two_pow_pos w), Nat.div_eq_of_lt hb, Nat.zero_add]

/-- A field written is read back, cut to its width. -/
theorem bits_setBits_same (v lo w x : Nat) : bits (setBits v lo w x) lo w = x % 2 ^ w := by
  obtain ⟨a, r, hr, -, h⟩ := setBits_split v lo w x
  rw [h]; unfold bits
  rw [Nat.add_comm, Nat.add_mul_div_right _ _ (Nat.two_pow_pos lo), Nat.div_eq_of_lt hr, Nat.zero_add, Nat.add_comm,
    Nat.add_mul_mod_self_right]
  exact Nat.mod_mod _ _

/-- A field above the one written is unchanged. -/
theorem bits_setBits_above (v x : Nat) {lo w lo' w' : Nat} (h : lo + w ≤ lo') : bits (setBits v lo w x) lo' w' = bits v lo' w' := by
  obtain ⟨a, r, hr, hv, hs⟩ := setBits_split v lo w x
  obtain ⟨k, rfl⟩ := Nat.exists_eq_add_of_le h
  have e : ∀ n, bits n (lo + w + k) w' = n / 2 ^ (lo + w) / 2 ^ k % 2 ^ w' := by
    intro n; unfold bits; rw [Nat.pow_add 2 (lo + w) k, Nat.div_div_eq_div_mul]
  rw [e, e, hs, high_of _ _ _ _ _ hr (Nat.mod_lt _ (Nat.two_pow_pos w))]
  conv => rhs; rw [hv, high_of _ _ _ _ _ hr (bits_lt _ _ _)]

/-- A field below the one written is unchanged. -/
theorem bits_setBits_below (v x : Nat) {lo w lo' w' : Nat} (h : lo' + w' ≤ lo) : bits (setBits v lo w x) lo' w' = bits v lo' w' := by
  obtain ⟨a, r, hr, hv, hs⟩ := setBits_split v lo w x
  obtain ⟨k, rfl⟩ := Nat.exists_eq_add_of_le h
  have e : ∀ n, bits n lo' w' = n % 2 ^ (lo' + w' + k) / 2 ^ lo' % 2 ^ w' := by
    intro n
    have hd : 2 ^ w' ∣ 2 ^ (w' + k) := Nat.pow_dvd_pow 2 (Nat.le_add_right _ _)
    unfold bits
    rw [Nat.add_assoc, Nat.pow_add 2 lo' (w' + k), Nat.mod_mul_right_div_self, Nat.mod_mod_of_dvd _ hd]
  rw [e, e v, hs]
  conv => rhs; rw [hv]
  rw [Nat.add_comm, Nat.add_mul_mod_self_right, Nat.add_comm (_ * _) r, Nat.add_mul_mod_self_right]

/-- A field that does not meet the one written is unchanged. -/
theorem bits_setBits_ne (v x : Nat) {lo w lo' w' : Nat} (h : lo + w ≤ lo' ∨ lo' + w' ≤ lo) :
    bits (setBits v lo w x) lo' w' = bits v lo' w' :=
  h.elim (bits_setBits_above v x) (bits_setBits_below v x)

/-- A word with a field replaced is a word. -/
theorem setBits_lt {v lo w x n : Nat} (hv : v < 2 ^ n) (h : lo + w ≤ n) : setBits v lo w x < 2 ^ n := by
  obtain ⟨a, r, hr, hv', hs⟩ := setBits_split v lo w x
  obtain ⟨k, rfl⟩ := Nat.exists_eq_add_of_le h
  have hx : x % 2 ^ w < 2 ^ w := Nat.mod_lt _ (Nat.two_pow_pos w)
  have ha : a < 2 ^ k := by
    have := high_of a (bits v lo w) r lo w hr (bits_lt _ _ _)
    rw [← hv'] at this
    rw [← this, Nat.div_lt_iff_lt_mul (Nat.two_pow_pos _), ← Nat.pow_add, Nat.add_comm k]
    exact hv
  rw [Nat.pow_add, Nat.mul_comm, ← Nat.div_lt_iff_lt_mul (Nat.two_pow_pos _), hs, high_of _ _ _ _ _ hr hx]
  exact ha

end Sys2Proof.Machine
end

