-- ==== Sys2Proof/Laws/State.lean ====
section
/-! SUPPORT. What each update of the state leaves as it was, field by field; what the accessors read after an update. -/
namespace Sys2Proof.Machine

/-! ### wr -/

@[simp] theorem wr_now (s : State) (p : PageId) (off v : Nat) : (wr s p off v).now = s.now := rfl
@[simp] theorem wr_free (s : State) (p : PageId) (off v : Nat) : (wr s p off v).free = s.free := rfl
@[simp] theorem wr_caps (s : State) (p : PageId) (off v : Nat) : (wr s p off v).caps = s.caps := rfl
@[simp] theorem wr_stg (s : State) (p : PageId) (off v : Nat) : (wr s p off v).stg = s.stg := rfl
@[simp] theorem wr_latch (s : State) (p : PageId) (off v : Nat) : (wr s p off v).latch = s.latch := rfl
@[simp] theorem wr_fuseMap (s : State) (p : PageId) (off v : Nat) : (wr s p off v).fuseMap = s.fuseMap := rfl
@[simp] theorem wr_fieldMap (s : State) (p : PageId) (off v : Nat) : (wr s p off v).fieldMap = s.fieldMap := rfl
@[simp] theorem wr_mem (s : State) (p : PageId) (off v : Nat) : (wr s p off v).mem = s.mem := rfl
@[simp] theorem wr_mpois (s : State) (p : PageId) (off v : Nat) : (wr s p off v).mpois = s.mpois := rfl
@[simp] theorem wr_merr (s : State) (p : PageId) (off v : Nat) : (wr s p off v).merr = s.merr := rfl
@[simp] theorem wr_slices (s : State) (p : PageId) (off v : Nat) : (wr s p off v).slices = s.slices := rfl
@[simp] theorem wr_stackSt (s : State) (p : PageId) (off v : Nat) : (wr s p off v).stackSt = s.stackSt := rfl
@[simp] theorem wr_grant (s : State) (p : PageId) (off v : Nat) : (wr s p off v).grant = s.grant := rfl
@[simp] theorem wr_cores (s : State) (p : PageId) (off v : Nat) : (wr s p off v).cores = s.cores := rfl
@[simp] theorem wr_nets (s : State) (p : PageId) (off v : Nat) : (wr s p off v).nets = s.nets := rfl
@[simp] theorem wr_ports (s : State) (p : PageId) (off v : Nat) : (wr s p off v).ports = s.ports := rfl
@[simp] theorem wr_routes (s : State) (p : PageId) (off v : Nat) : (wr s p off v).routes = s.routes := rfl
@[simp] theorem wr_twin (s : State) (p : PageId) (off v : Nat) : (wr s p off v).twin = s.twin := rfl
@[simp] theorem wr_heal (s : State) (p : PageId) (off v : Nat) : (wr s p off v).heal = s.heal := rfl
@[simp] theorem wr_hub (s : State) (p : PageId) (off v : Nat) : (wr s p off v).hub = s.hub := rfl
@[simp] theorem wr_flash (s : State) (p : PageId) (off v : Nat) : (wr s p off v).flash = s.flash := rfl
@[simp] theorem wr_pins (s : State) (p : PageId) (off v : Nat) : (wr s p off v).pins = s.pins := rfl
@[simp] theorem wr_power (s : State) (p : PageId) (off v : Nat) : (wr s p off v).power = s.power := rfl
@[simp] theorem wr_host (s : State) (p : PageId) (off v : Nat) : (wr s p off v).host = s.host := rfl
@[simp] theorem wr_gauges (s : State) (p : PageId) (off v : Nat) : (wr s p off v).gauges = s.gauges := rfl
@[simp] theorem wr_inval (s : State) (p : PageId) (off v : Nat) : (wr s p off v).inval = s.inval := rfl
@[simp] theorem wr_flip (s : State) (p : PageId) (off v : Nat) : (wr s p off v).flip = s.flip := rfl
@[simp] theorem wr_reports (s : State) (p : PageId) (off v : Nat) : (wr s p off v).reports = s.reports := rfl
@[simp] theorem wr_out (s : State) (p : PageId) (off v : Nat) : (wr s p off v).out = s.out := rfl
@[simp] theorem wr_pending (s : State) (p : PageId) (off v : Nat) : (wr s p off v).pending = s.pending := rfl

/-! ### send -/

@[simp] theorem send_now (s : State) (o : Out) : (send s o).now = s.now := rfl
@[simp] theorem send_free (s : State) (o : Out) : (send s o).free = s.free := rfl
@[simp] theorem send_regs (s : State) (o : Out) : (send s o).regs = s.regs := rfl
@[simp] theorem send_caps (s : State) (o : Out) : (send s o).caps = s.caps := rfl
@[simp] theorem send_stg (s : State) (o : Out) : (send s o).stg = s.stg := rfl
@[simp] theorem send_latch (s : State) (o : Out) : (send s o).latch = s.latch := rfl
@[simp] theorem send_fuseMap (s : State) (o : Out) : (send s o).fuseMap = s.fuseMap := rfl
@[simp] theorem send_fieldMap (s : State) (o : Out) : (send s o).fieldMap = s.fieldMap := rfl
@[simp] theorem send_mem (s : State) (o : Out) : (send s o).mem = s.mem := rfl
@[simp] theorem send_mpois (s : State) (o : Out) : (send s o).mpois = s.mpois := rfl
@[simp] theorem send_merr (s : State) (o : Out) : (send s o).merr = s.merr := rfl
@[simp] theorem send_slices (s : State) (o : Out) : (send s o).slices = s.slices := rfl
@[simp] theorem send_stackSt (s : State) (o : Out) : (send s o).stackSt = s.stackSt := rfl
@[simp] theorem send_grant (s : State) (o : Out) : (send s o).grant = s.grant := rfl
@[simp] theorem send_cores (s : State) (o : Out) : (send s o).cores = s.cores := rfl
@[simp] theorem send_nets (s : State) (o : Out) : (send s o).nets = s.nets := rfl
@[simp] theorem send_ports (s : State) (o : Out) : (send s o).ports = s.ports := rfl
@[simp] theorem send_routes (s : State) (o : Out) : (send s o).routes = s.routes := rfl
@[simp] theorem send_twin (s : State) (o : Out) : (send s o).twin = s.twin := rfl
@[simp] theorem send_heal (s : State) (o : Out) : (send s o).heal = s.heal := rfl
@[simp] theorem send_hub (s : State) (o : Out) : (send s o).hub = s.hub := rfl
@[simp] theorem send_flash (s : State) (o : Out) : (send s o).flash = s.flash := rfl
@[simp] theorem send_pins (s : State) (o : Out) : (send s o).pins = s.pins := rfl
@[simp] theorem send_power (s : State) (o : Out) : (send s o).power = s.power := rfl
@[simp] theorem send_host (s : State) (o : Out) : (send s o).host = s.host := rfl
@[simp] theorem send_gauges (s : State) (o : Out) : (send s o).gauges = s.gauges := rfl
@[simp] theorem send_inval (s : State) (o : Out) : (send s o).inval = s.inval := rfl
@[simp] theorem send_flip (s : State) (o : Out) : (send s o).flip = s.flip := rfl
@[simp] theorem send_reports (s : State) (o : Out) : (send s o).reports = s.reports := rfl
@[simp] theorem send_pending (s : State) (o : Out) : (send s o).pending = s.pending := rfl

/-! ### freeUsed -/

@[simp] theorem freeUsed_now (s : State) : (freeUsed s).now = s.now := rfl
@[simp] theorem freeUsed_regs (s : State) : (freeUsed s).regs = s.regs := rfl
@[simp] theorem freeUsed_caps (s : State) : (freeUsed s).caps = s.caps := rfl
@[simp] theorem freeUsed_stg (s : State) : (freeUsed s).stg = s.stg := rfl
@[simp] theorem freeUsed_latch (s : State) : (freeUsed s).latch = s.latch := rfl
@[simp] theorem freeUsed_fuseMap (s : State) : (freeUsed s).fuseMap = s.fuseMap := rfl
@[simp] theorem freeUsed_fieldMap (s : State) : (freeUsed s).fieldMap = s.fieldMap := rfl
@[simp] theorem freeUsed_mem (s : State) : (freeUsed s).mem = s.mem := rfl
@[simp] theorem freeUsed_mpois (s : State) : (freeUsed s).mpois = s.mpois := rfl
@[simp] theorem freeUsed_merr (s : State) : (freeUsed s).merr = s.merr := rfl
@[simp] theorem freeUsed_slices (s : State) : (freeUsed s).slices = s.slices := rfl
@[simp] theorem freeUsed_stackSt (s : State) : (freeUsed s).stackSt = s.stackSt := rfl
@[simp] theorem freeUsed_grant (s : State) : (freeUsed s).grant = s.grant := rfl
@[simp] theorem freeUsed_cores (s : State) : (freeUsed s).cores = s.cores := rfl
@[simp] theorem freeUsed_nets (s : State) : (freeUsed s).nets = s.nets := rfl
@[simp] theorem freeUsed_ports (s : State) : (freeUsed s).ports = s.ports := rfl
@[simp] theorem freeUsed_routes (s : State) : (freeUsed s).routes = s.routes := rfl
@[simp] theorem freeUsed_twin (s : State) : (freeUsed s).twin = s.twin := rfl
@[simp] theorem freeUsed_heal (s : State) : (freeUsed s).heal = s.heal := rfl
@[simp] theorem freeUsed_hub (s : State) : (freeUsed s).hub = s.hub := rfl
@[simp] theorem freeUsed_flash (s : State) : (freeUsed s).flash = s.flash := rfl
@[simp] theorem freeUsed_pins (s : State) : (freeUsed s).pins = s.pins := rfl
@[simp] theorem freeUsed_power (s : State) : (freeUsed s).power = s.power := rfl
@[simp] theorem freeUsed_host (s : State) : (freeUsed s).host = s.host := rfl
@[simp] theorem freeUsed_gauges (s : State) : (freeUsed s).gauges = s.gauges := rfl
@[simp] theorem freeUsed_inval (s : State) : (freeUsed s).inval = s.inval := rfl
@[simp] theorem freeUsed_flip (s : State) : (freeUsed s).flip = s.flip := rfl
@[simp] theorem freeUsed_reports (s : State) : (freeUsed s).reports = s.reports := rfl
@[simp] theorem freeUsed_out (s : State) : (freeUsed s).out = s.out := rfl
@[simp] theorem freeUsed_pending (s : State) : (freeUsed s).pending = s.pending := rfl

/-! ### setCore -/

@[simp] theorem setCore_now (s : State) (c : Nat) (k : Core) : (setCore s c k).now = s.now := rfl
@[simp] theorem setCore_free (s : State) (c : Nat) (k : Core) : (setCore s c k).free = s.free := rfl
@[simp] theorem setCore_regs (s : State) (c : Nat) (k : Core) : (setCore s c k).regs = s.regs := rfl
@[simp] theorem setCore_caps (s : State) (c : Nat) (k : Core) : (setCore s c k).caps = s.caps := rfl
@[simp] theorem setCore_stg (s : State) (c : Nat) (k : Core) : (setCore s c k).stg = s.stg := rfl
@[simp] theorem setCore_latch (s : State) (c : Nat) (k : Core) : (setCore s c k).latch = s.latch := rfl
@[simp] theorem setCore_fuseMap (s : State) (c : Nat) (k : Core) : (setCore s c k).fuseMap = s.fuseMap := rfl
@[simp] theorem setCore_fieldMap (s : State) (c : Nat) (k : Core) : (setCore s c k).fieldMap = s.fieldMap := rfl
@[simp] theorem setCore_mem (s : State) (c : Nat) (k : Core) : (setCore s c k).mem = s.mem := rfl
@[simp] theorem setCore_mpois (s : State) (c : Nat) (k : Core) : (setCore s c k).mpois = s.mpois := rfl
@[simp] theorem setCore_merr (s : State) (c : Nat) (k : Core) : (setCore s c k).merr = s.merr := rfl
@[simp] theorem setCore_slices (s : State) (c : Nat) (k : Core) : (setCore s c k).slices = s.slices := rfl
@[simp] theorem setCore_stackSt (s : State) (c : Nat) (k : Core) : (setCore s c k).stackSt = s.stackSt := rfl
@[simp] theorem setCore_grant (s : State) (c : Nat) (k : Core) : (setCore s c k).grant = s.grant := rfl
@[simp] theorem setCore_nets (s : State) (c : Nat) (k : Core) : (setCore s c k).nets = s.nets := rfl
@[simp] theorem setCore_ports (s : State) (c : Nat) (k : Core) : (setCore s c k).ports = s.ports := rfl
@[simp] theorem setCore_routes (s : State) (c : Nat) (k : Core) : (setCore s c k).routes = s.routes := rfl
@[simp] theorem setCore_twin (s : State) (c : Nat) (k : Core) : (setCore s c k).twin = s.twin := rfl
@[simp] theorem setCore_heal (s : State) (c : Nat) (k : Core) : (setCore s c k).heal = s.heal := rfl
@[simp] theorem setCore_hub (s : State) (c : Nat) (k : Core) : (setCore s c k).hub = s.hub := rfl
@[simp] theorem setCore_flash (s : State) (c : Nat) (k : Core) : (setCore s c k).flash = s.flash := rfl
@[simp] theorem setCore_pins (s : State) (c : Nat) (k : Core) : (setCore s c k).pins = s.pins := rfl
@[simp] theorem setCore_power (s : State) (c : Nat) (k : Core) : (setCore s c k).power = s.power := rfl
@[simp] theorem setCore_host (s : State) (c : Nat) (k : Core) : (setCore s c k).host = s.host := rfl
@[simp] theorem setCore_gauges (s : State) (c : Nat) (k : Core) : (setCore s c k).gauges = s.gauges := rfl
@[simp] theorem setCore_inval (s : State) (c : Nat) (k : Core) : (setCore s c k).inval = s.inval := rfl
@[simp] theorem setCore_flip (s : State) (c : Nat) (k : Core) : (setCore s c k).flip = s.flip := rfl
@[simp] theorem setCore_reports (s : State) (c : Nat) (k : Core) : (setCore s c k).reports = s.reports := rfl
@[simp] theorem setCore_out (s : State) (c : Nat) (k : Core) : (setCore s c k).out = s.out := rfl
@[simp] theorem setCore_pending (s : State) (c : Nat) (k : Core) : (setCore s c k).pending = s.pending := rfl

/-! ### setNet -/

@[simp] theorem setNet_now (s : State) (d : Nat) (n : DieNet) : (setNet s d n).now = s.now := rfl
@[simp] theorem setNet_free (s : State) (d : Nat) (n : DieNet) : (setNet s d n).free = s.free := rfl
@[simp] theorem setNet_regs (s : State) (d : Nat) (n : DieNet) : (setNet s d n).regs = s.regs := rfl
@[simp] theorem setNet_caps (s : State) (d : Nat) (n : DieNet) : (setNet s d n).caps = s.caps := rfl
@[simp] theorem setNet_stg (s : State) (d : Nat) (n : DieNet) : (setNet s d n).stg = s.stg := rfl
@[simp] theorem setNet_latch (s : State) (d : Nat) (n : DieNet) : (setNet s d n).latch = s.latch := rfl
@[simp] theorem setNet_fuseMap (s : State) (d : Nat) (n : DieNet) : (setNet s d n).fuseMap = s.fuseMap := rfl
@[simp] theorem setNet_fieldMap (s : State) (d : Nat) (n : DieNet) : (setNet s d n).fieldMap = s.fieldMap := rfl
@[simp] theorem setNet_mem (s : State) (d : Nat) (n : DieNet) : (setNet s d n).mem = s.mem := rfl
@[simp] theorem setNet_mpois (s : State) (d : Nat) (n : DieNet) : (setNet s d n).mpois = s.mpois := rfl
@[simp] theorem setNet_merr (s : State) (d : Nat) (n : DieNet) : (setNet s d n).merr = s.merr := rfl
@[simp] theorem setNet_slices (s : State) (d : Nat) (n : DieNet) : (setNet s d n).slices = s.slices := rfl
@[simp] theorem setNet_stackSt (s : State) (d : Nat) (n : DieNet) : (setNet s d n).stackSt = s.stackSt := rfl
@[simp] theorem setNet_grant (s : State) (d : Nat) (n : DieNet) : (setNet s d n).grant = s.grant := rfl
@[simp] theorem setNet_cores (s : State) (d : Nat) (n : DieNet) : (setNet s d n).cores = s.cores := rfl
@[simp] theorem setNet_ports (s : State) (d : Nat) (n : DieNet) : (setNet s d n).ports = s.ports := rfl
@[simp] theorem setNet_routes (s : State) (d : Nat) (n : DieNet) : (setNet s d n).routes = s.routes := rfl
@[simp] theorem setNet_twin (s : State) (d : Nat) (n : DieNet) : (setNet s d n).twin = s.twin := rfl
@[simp] theorem setNet_heal (s : State) (d : Nat) (n : DieNet) : (setNet s d n).heal = s.heal := rfl
@[simp] theorem setNet_hub (s : State) (d : Nat) (n : DieNet) : (setNet s d n).hub = s.hub := rfl
@[simp] theorem setNet_flash (s : State) (d : Nat) (n : DieNet) : (setNet s d n).flash = s.flash := rfl
@[simp] theorem setNet_pins (s : State) (d : Nat) (n : DieNet) : (setNet s d n).pins = s.pins := rfl
@[simp] theorem setNet_power (s : State) (d : Nat) (n : DieNet) : (setNet s d n).power = s.power := rfl
@[simp] theorem setNet_host (s : State) (d : Nat) (n : DieNet) : (setNet s d n).host = s.host := rfl
@[simp] theorem setNet_gauges (s : State) (d : Nat) (n : DieNet) : (setNet s d n).gauges = s.gauges := rfl
@[simp] theorem setNet_inval (s : State) (d : Nat) (n : DieNet) : (setNet s d n).inval = s.inval := rfl
@[simp] theorem setNet_flip (s : State) (d : Nat) (n : DieNet) : (setNet s d n).flip = s.flip := rfl
@[simp] theorem setNet_reports (s : State) (d : Nat) (n : DieNet) : (setNet s d n).reports = s.reports := rfl
@[simp] theorem setNet_out (s : State) (d : Nat) (n : DieNet) : (setNet s d n).out = s.out := rfl
@[simp] theorem setNet_pending (s : State) (d : Nat) (n : DieNet) : (setNet s d n).pending = s.pending := rfl

/-! ### setPort -/

@[simp] theorem setPort_now (s : State) (p : Nat) (x : PortSt) : (setPort s p x).now = s.now := rfl
@[simp] theorem setPort_free (s : State) (p : Nat) (x : PortSt) : (setPort s p x).free = s.free := rfl
@[simp] theorem setPort_regs (s : State) (p : Nat) (x : PortSt) : (setPort s p x).regs = s.regs := rfl
@[simp] theorem setPort_caps (s : State) (p : Nat) (x : PortSt) : (setPort s p x).caps = s.caps := rfl
@[simp] theorem setPort_stg (s : State) (p : Nat) (x : PortSt) : (setPort s p x).stg = s.stg := rfl
@[simp] theorem setPort_latch (s : State) (p : Nat) (x : PortSt) : (setPort s p x).latch = s.latch := rfl
@[simp] theorem setPort_fuseMap (s : State) (p : Nat) (x : PortSt) : (setPort s p x).fuseMap = s.fuseMap := rfl
@[simp] theorem setPort_fieldMap (s : State) (p : Nat) (x : PortSt) : (setPort s p x).fieldMap = s.fieldMap := rfl
@[simp] theorem setPort_mem (s : State) (p : Nat) (x : PortSt) : (setPort s p x).mem = s.mem := rfl
@[simp] theorem setPort_mpois (s : State) (p : Nat) (x : PortSt) : (setPort s p x).mpois = s.mpois := rfl
@[simp] theorem setPort_merr (s : State) (p : Nat) (x : PortSt) : (setPort s p x).merr = s.merr := rfl
@[simp] theorem setPort_slices (s : State) (p : Nat) (x : PortSt) : (setPort s p x).slices = s.slices := rfl
@[simp] theorem setPort_stackSt (s : State) (p : Nat) (x : PortSt) : (setPort s p x).stackSt = s.stackSt := rfl
@[simp] theorem setPort_grant (s : State) (p : Nat) (x : PortSt) : (setPort s p x).grant = s.grant := rfl
@[simp] theorem setPort_cores (s : State) (p : Nat) (x : PortSt) : (setPort s p x).cores = s.cores := rfl
@[simp] theorem setPort_nets (s : State) (p : Nat) (x : PortSt) : (setPort s p x).nets = s.nets := rfl
@[simp] theorem setPort_routes (s : State) (p : Nat) (x : PortSt) : (setPort s p x).routes = s.routes := rfl
@[simp] theorem setPort_twin (s : State) (p : Nat) (x : PortSt) : (setPort s p x).twin = s.twin := rfl
@[simp] theorem setPort_heal (s : State) (p : Nat) (x : PortSt) : (setPort s p x).heal = s.heal := rfl
@[simp] theorem setPort_hub (s : State) (p : Nat) (x : PortSt) : (setPort s p x).hub = s.hub := rfl
@[simp] theorem setPort_flash (s : State) (p : Nat) (x : PortSt) : (setPort s p x).flash = s.flash := rfl
@[simp] theorem setPort_pins (s : State) (p : Nat) (x : PortSt) : (setPort s p x).pins = s.pins := rfl
@[simp] theorem setPort_power (s : State) (p : Nat) (x : PortSt) : (setPort s p x).power = s.power := rfl
@[simp] theorem setPort_host (s : State) (p : Nat) (x : PortSt) : (setPort s p x).host = s.host := rfl
@[simp] theorem setPort_gauges (s : State) (p : Nat) (x : PortSt) : (setPort s p x).gauges = s.gauges := rfl
@[simp] theorem setPort_inval (s : State) (p : Nat) (x : PortSt) : (setPort s p x).inval = s.inval := rfl
@[simp] theorem setPort_flip (s : State) (p : Nat) (x : PortSt) : (setPort s p x).flip = s.flip := rfl
@[simp] theorem setPort_reports (s : State) (p : Nat) (x : PortSt) : (setPort s p x).reports = s.reports := rfl
@[simp] theorem setPort_out (s : State) (p : Nat) (x : PortSt) : (setPort s p x).out = s.out := rfl
@[simp] theorem setPort_pending (s : State) (p : Nat) (x : PortSt) : (setPort s p x).pending = s.pending := rfl

/-! ### setSlice -/

@[simp] theorem setSlice_now (s : State) (g : Nat) (x : Slice) : (setSlice s g x).now = s.now := rfl
@[simp] theorem setSlice_free (s : State) (g : Nat) (x : Slice) : (setSlice s g x).free = s.free := rfl
@[simp] theorem setSlice_regs (s : State) (g : Nat) (x : Slice) : (setSlice s g x).regs = s.regs := rfl
@[simp] theorem setSlice_caps (s : State) (g : Nat) (x : Slice) : (setSlice s g x).caps = s.caps := rfl
@[simp] theorem setSlice_stg (s : State) (g : Nat) (x : Slice) : (setSlice s g x).stg = s.stg := rfl
@[simp] theorem setSlice_latch (s : State) (g : Nat) (x : Slice) : (setSlice s g x).latch = s.latch := rfl
@[simp] theorem setSlice_fuseMap (s : State) (g : Nat) (x : Slice) : (setSlice s g x).fuseMap = s.fuseMap := rfl
@[simp] theorem setSlice_fieldMap (s : State) (g : Nat) (x : Slice) : (setSlice s g x).fieldMap = s.fieldMap := rfl
@[simp] theorem setSlice_mem (s : State) (g : Nat) (x : Slice) : (setSlice s g x).mem = s.mem := rfl
@[simp] theorem setSlice_mpois (s : State) (g : Nat) (x : Slice) : (setSlice s g x).mpois = s.mpois := rfl
@[simp] theorem setSlice_merr (s : State) (g : Nat) (x : Slice) : (setSlice s g x).merr = s.merr := rfl
@[simp] theorem setSlice_stackSt (s : State) (g : Nat) (x : Slice) : (setSlice s g x).stackSt = s.stackSt := rfl
@[simp] theorem setSlice_grant (s : State) (g : Nat) (x : Slice) : (setSlice s g x).grant = s.grant := rfl
@[simp] theorem setSlice_cores (s : State) (g : Nat) (x : Slice) : (setSlice s g x).cores = s.cores := rfl
@[simp] theorem setSlice_nets (s : State) (g : Nat) (x : Slice) : (setSlice s g x).nets = s.nets := rfl
@[simp] theorem setSlice_ports (s : State) (g : Nat) (x : Slice) : (setSlice s g x).ports = s.ports := rfl
@[simp] theorem setSlice_routes (s : State) (g : Nat) (x : Slice) : (setSlice s g x).routes = s.routes := rfl
@[simp] theorem setSlice_twin (s : State) (g : Nat) (x : Slice) : (setSlice s g x).twin = s.twin := rfl
@[simp] theorem setSlice_heal (s : State) (g : Nat) (x : Slice) : (setSlice s g x).heal = s.heal := rfl
@[simp] theorem setSlice_hub (s : State) (g : Nat) (x : Slice) : (setSlice s g x).hub = s.hub := rfl
@[simp] theorem setSlice_flash (s : State) (g : Nat) (x : Slice) : (setSlice s g x).flash = s.flash := rfl
@[simp] theorem setSlice_pins (s : State) (g : Nat) (x : Slice) : (setSlice s g x).pins = s.pins := rfl
@[simp] theorem setSlice_power (s : State) (g : Nat) (x : Slice) : (setSlice s g x).power = s.power := rfl
@[simp] theorem setSlice_host (s : State) (g : Nat) (x : Slice) : (setSlice s g x).host = s.host := rfl
@[simp] theorem setSlice_gauges (s : State) (g : Nat) (x : Slice) : (setSlice s g x).gauges = s.gauges := rfl
@[simp] theorem setSlice_inval (s : State) (g : Nat) (x : Slice) : (setSlice s g x).inval = s.inval := rfl
@[simp] theorem setSlice_flip (s : State) (g : Nat) (x : Slice) : (setSlice s g x).flip = s.flip := rfl
@[simp] theorem setSlice_reports (s : State) (g : Nat) (x : Slice) : (setSlice s g x).reports = s.reports := rfl
@[simp] theorem setSlice_out (s : State) (g : Nat) (x : Slice) : (setSlice s g x).out = s.out := rfl
@[simp] theorem setSlice_pending (s : State) (g : Nat) (x : Slice) : (setSlice s g x).pending = s.pending := rfl

/-! ### setStack -/

@[simp] theorem setStack_now (s : State) (m : Nat) (x : Stack) : (setStack s m x).now = s.now := rfl
@[simp] theorem setStack_free (s : State) (m : Nat) (x : Stack) : (setStack s m x).free = s.free := rfl
@[simp] theorem setStack_regs (s : State) (m : Nat) (x : Stack) : (setStack s m x).regs = s.regs := rfl
@[simp] theorem setStack_caps (s : State) (m : Nat) (x : Stack) : (setStack s m x).caps = s.caps := rfl
@[simp] theorem setStack_stg (s : State) (m : Nat) (x : Stack) : (setStack s m x).stg = s.stg := rfl
@[simp] theorem setStack_latch (s : State) (m : Nat) (x : Stack) : (setStack s m x).latch = s.latch := rfl
@[simp] theorem setStack_fuseMap (s : State) (m : Nat) (x : Stack) : (setStack s m x).fuseMap = s.fuseMap := rfl
@[simp] theorem setStack_fieldMap (s : State) (m : Nat) (x : Stack) : (setStack s m x).fieldMap = s.fieldMap := rfl
@[simp] theorem setStack_mem (s : State) (m : Nat) (x : Stack) : (setStack s m x).mem = s.mem := rfl
@[simp] theorem setStack_mpois (s : State) (m : Nat) (x : Stack) : (setStack s m x).mpois = s.mpois := rfl
@[simp] theorem setStack_merr (s : State) (m : Nat) (x : Stack) : (setStack s m x).merr = s.merr := rfl
@[simp] theorem setStack_slices (s : State) (m : Nat) (x : Stack) : (setStack s m x).slices = s.slices := rfl
@[simp] theorem setStack_grant (s : State) (m : Nat) (x : Stack) : (setStack s m x).grant = s.grant := rfl
@[simp] theorem setStack_cores (s : State) (m : Nat) (x : Stack) : (setStack s m x).cores = s.cores := rfl
@[simp] theorem setStack_nets (s : State) (m : Nat) (x : Stack) : (setStack s m x).nets = s.nets := rfl
@[simp] theorem setStack_ports (s : State) (m : Nat) (x : Stack) : (setStack s m x).ports = s.ports := rfl
@[simp] theorem setStack_routes (s : State) (m : Nat) (x : Stack) : (setStack s m x).routes = s.routes := rfl
@[simp] theorem setStack_twin (s : State) (m : Nat) (x : Stack) : (setStack s m x).twin = s.twin := rfl
@[simp] theorem setStack_heal (s : State) (m : Nat) (x : Stack) : (setStack s m x).heal = s.heal := rfl
@[simp] theorem setStack_hub (s : State) (m : Nat) (x : Stack) : (setStack s m x).hub = s.hub := rfl
@[simp] theorem setStack_flash (s : State) (m : Nat) (x : Stack) : (setStack s m x).flash = s.flash := rfl
@[simp] theorem setStack_pins (s : State) (m : Nat) (x : Stack) : (setStack s m x).pins = s.pins := rfl
@[simp] theorem setStack_power (s : State) (m : Nat) (x : Stack) : (setStack s m x).power = s.power := rfl
@[simp] theorem setStack_host (s : State) (m : Nat) (x : Stack) : (setStack s m x).host = s.host := rfl
@[simp] theorem setStack_gauges (s : State) (m : Nat) (x : Stack) : (setStack s m x).gauges = s.gauges := rfl
@[simp] theorem setStack_inval (s : State) (m : Nat) (x : Stack) : (setStack s m x).inval = s.inval := rfl
@[simp] theorem setStack_flip (s : State) (m : Nat) (x : Stack) : (setStack s m x).flip = s.flip := rfl
@[simp] theorem setStack_reports (s : State) (m : Nat) (x : Stack) : (setStack s m x).reports = s.reports := rfl
@[simp] theorem setStack_out (s : State) (m : Nat) (x : Stack) : (setStack s m x).out = s.out := rfl
@[simp] theorem setStack_pending (s : State) (m : Nat) (x : Stack) : (setStack s m x).pending = s.pending := rfl

/-! ### setRoutes -/

@[simp] theorem setRoutes_now (s : State) (d : Nat) (x : Routes) : (setRoutes s d x).now = s.now := rfl
@[simp] theorem setRoutes_free (s : State) (d : Nat) (x : Routes) : (setRoutes s d x).free = s.free := rfl
@[simp] theorem setRoutes_regs (s : State) (d : Nat) (x : Routes) : (setRoutes s d x).regs = s.regs := rfl
@[simp] theorem setRoutes_caps (s : State) (d : Nat) (x : Routes) : (setRoutes s d x).caps = s.caps := rfl
@[simp] theorem setRoutes_stg (s : State) (d : Nat) (x : Routes) : (setRoutes s d x).stg = s.stg := rfl
@[simp] theorem setRoutes_latch (s : State) (d : Nat) (x : Routes) : (setRoutes s d x).latch = s.latch := rfl
@[simp] theorem setRoutes_fuseMap (s : State) (d : Nat) (x : Routes) : (setRoutes s d x).fuseMap = s.fuseMap := rfl
@[simp] theorem setRoutes_fieldMap (s : State) (d : Nat) (x : Routes) : (setRoutes s d x).fieldMap = s.fieldMap := rfl
@[simp] theorem setRoutes_mem (s : State) (d : Nat) (x : Routes) : (setRoutes s d x).mem = s.mem := rfl
@[simp] theorem setRoutes_mpois (s : State) (d : Nat) (x : Routes) : (setRoutes s d x).mpois = s.mpois := rfl
@[simp] theorem setRoutes_merr (s : State) (d : Nat) (x : Routes) : (setRoutes s d x).merr = s.merr := rfl
@[simp] theorem setRoutes_slices (s : State) (d : Nat) (x : Routes) : (setRoutes s d x).slices = s.slices := rfl
@[simp] theorem setRoutes_stackSt (s : State) (d : Nat) (x : Routes) : (setRoutes s d x).stackSt = s.stackSt := rfl
@[simp] theorem setRoutes_grant (s : State) (d : Nat) (x : Routes) : (setRoutes s d x).grant = s.grant := rfl
@[simp] theorem setRoutes_cores (s : State) (d : Nat) (x : Routes) : (setRoutes s d x).cores = s.cores := rfl
@[simp] theorem setRoutes_nets (s : State) (d : Nat) (x : Routes) : (setRoutes s d x).nets = s.nets := rfl
@[simp] theorem setRoutes_ports (s : State) (d : Nat) (x : Routes) : (setRoutes s d x).ports = s.ports := rfl
@[simp] theorem setRoutes_twin (s : State) (d : Nat) (x : Routes) : (setRoutes s d x).twin = s.twin := rfl
@[simp] theorem setRoutes_heal (s : State) (d : Nat) (x : Routes) : (setRoutes s d x).heal = s.heal := rfl
@[simp] theorem setRoutes_hub (s : State) (d : Nat) (x : Routes) : (setRoutes s d x).hub = s.hub := rfl
@[simp] theorem setRoutes_flash (s : State) (d : Nat) (x : Routes) : (setRoutes s d x).flash = s.flash := rfl
@[simp] theorem setRoutes_pins (s : State) (d : Nat) (x : Routes) : (setRoutes s d x).pins = s.pins := rfl
@[simp] theorem setRoutes_power (s : State) (d : Nat) (x : Routes) : (setRoutes s d x).power = s.power := rfl
@[simp] theorem setRoutes_host (s : State) (d : Nat) (x : Routes) : (setRoutes s d x).host = s.host := rfl
@[simp] theorem setRoutes_gauges (s : State) (d : Nat) (x : Routes) : (setRoutes s d x).gauges = s.gauges := rfl
@[simp] theorem setRoutes_inval (s : State) (d : Nat) (x : Routes) : (setRoutes s d x).inval = s.inval := rfl
@[simp] theorem setRoutes_flip (s : State) (d : Nat) (x : Routes) : (setRoutes s d x).flip = s.flip := rfl
@[simp] theorem setRoutes_reports (s : State) (d : Nat) (x : Routes) : (setRoutes s d x).reports = s.reports := rfl
@[simp] theorem setRoutes_out (s : State) (d : Nat) (x : Routes) : (setRoutes s d x).out = s.out := rfl
@[simp] theorem setRoutes_pending (s : State) (d : Nat) (x : Routes) : (setRoutes s d x).pending = s.pending := rfl

/-! ### setHeal -/

@[simp] theorem setHeal_now (s : State) (h : Heal) : (setHeal s h).now = s.now := rfl
@[simp] theorem setHeal_free (s : State) (h : Heal) : (setHeal s h).free = s.free := rfl
@[simp] theorem setHeal_regs (s : State) (h : Heal) : (setHeal s h).regs = s.regs := rfl
@[simp] theorem setHeal_caps (s : State) (h : Heal) : (setHeal s h).caps = s.caps := rfl
@[simp] theorem setHeal_stg (s : State) (h : Heal) : (setHeal s h).stg = s.stg := rfl
@[simp] theorem setHeal_latch (s : State) (h : Heal) : (setHeal s h).latch = s.latch := rfl
@[simp] theorem setHeal_fuseMap (s : State) (h : Heal) : (setHeal s h).fuseMap = s.fuseMap := rfl
@[simp] theorem setHeal_fieldMap (s : State) (h : Heal) : (setHeal s h).fieldMap = s.fieldMap := rfl
@[simp] theorem setHeal_mem (s : State) (h : Heal) : (setHeal s h).mem = s.mem := rfl
@[simp] theorem setHeal_mpois (s : State) (h : Heal) : (setHeal s h).mpois = s.mpois := rfl
@[simp] theorem setHeal_merr (s : State) (h : Heal) : (setHeal s h).merr = s.merr := rfl
@[simp] theorem setHeal_slices (s : State) (h : Heal) : (setHeal s h).slices = s.slices := rfl
@[simp] theorem setHeal_stackSt (s : State) (h : Heal) : (setHeal s h).stackSt = s.stackSt := rfl
@[simp] theorem setHeal_grant (s : State) (h : Heal) : (setHeal s h).grant = s.grant := rfl
@[simp] theorem setHeal_cores (s : State) (h : Heal) : (setHeal s h).cores = s.cores := rfl
@[simp] theorem setHeal_nets (s : State) (h : Heal) : (setHeal s h).nets = s.nets := rfl
@[simp] theorem setHeal_ports (s : State) (h : Heal) : (setHeal s h).ports = s.ports := rfl
@[simp] theorem setHeal_routes (s : State) (h : Heal) : (setHeal s h).routes = s.routes := rfl
@[simp] theorem setHeal_twin (s : State) (h : Heal) : (setHeal s h).twin = s.twin := rfl
@[simp] theorem setHeal_hub (s : State) (h : Heal) : (setHeal s h).hub = s.hub := rfl
@[simp] theorem setHeal_flash (s : State) (h : Heal) : (setHeal s h).flash = s.flash := rfl
@[simp] theorem setHeal_pins (s : State) (h : Heal) : (setHeal s h).pins = s.pins := rfl
@[simp] theorem setHeal_power (s : State) (h : Heal) : (setHeal s h).power = s.power := rfl
@[simp] theorem setHeal_host (s : State) (h : Heal) : (setHeal s h).host = s.host := rfl
@[simp] theorem setHeal_gauges (s : State) (h : Heal) : (setHeal s h).gauges = s.gauges := rfl
@[simp] theorem setHeal_inval (s : State) (h : Heal) : (setHeal s h).inval = s.inval := rfl
@[simp] theorem setHeal_flip (s : State) (h : Heal) : (setHeal s h).flip = s.flip := rfl
@[simp] theorem setHeal_reports (s : State) (h : Heal) : (setHeal s h).reports = s.reports := rfl
@[simp] theorem setHeal_out (s : State) (h : Heal) : (setHeal s h).out = s.out := rfl
@[simp] theorem setHeal_pending (s : State) (h : Heal) : (setHeal s h).pending = s.pending := rfl

/-! ### setHub -/

@[simp] theorem setHub_now (s : State) (h : Hub) : (setHub s h).now = s.now := rfl
@[simp] theorem setHub_free (s : State) (h : Hub) : (setHub s h).free = s.free := rfl
@[simp] theorem setHub_regs (s : State) (h : Hub) : (setHub s h).regs = s.regs := rfl
@[simp] theorem setHub_caps (s : State) (h : Hub) : (setHub s h).caps = s.caps := rfl
@[simp] theorem setHub_stg (s : State) (h : Hub) : (setHub s h).stg = s.stg := rfl
@[simp] theorem setHub_latch (s : State) (h : Hub) : (setHub s h).latch = s.latch := rfl
@[simp] theorem setHub_fuseMap (s : State) (h : Hub) : (setHub s h).fuseMap = s.fuseMap := rfl
@[simp] theorem setHub_fieldMap (s : State) (h : Hub) : (setHub s h).fieldMap = s.fieldMap := rfl
@[simp] theorem setHub_mem (s : State) (h : Hub) : (setHub s h).mem = s.mem := rfl
@[simp] theorem setHub_mpois (s : State) (h : Hub) : (setHub s h).mpois = s.mpois := rfl
@[simp] theorem setHub_merr (s : State) (h : Hub) : (setHub s h).merr = s.merr := rfl
@[simp] theorem setHub_slices (s : State) (h : Hub) : (setHub s h).slices = s.slices := rfl
@[simp] theorem setHub_stackSt (s : State) (h : Hub) : (setHub s h).stackSt = s.stackSt := rfl
@[simp] theorem setHub_grant (s : State) (h : Hub) : (setHub s h).grant = s.grant := rfl
@[simp] theorem setHub_cores (s : State) (h : Hub) : (setHub s h).cores = s.cores := rfl
@[simp] theorem setHub_nets (s : State) (h : Hub) : (setHub s h).nets = s.nets := rfl
@[simp] theorem setHub_ports (s : State) (h : Hub) : (setHub s h).ports = s.ports := rfl
@[simp] theorem setHub_routes (s : State) (h : Hub) : (setHub s h).routes = s.routes := rfl
@[simp] theorem setHub_twin (s : State) (h : Hub) : (setHub s h).twin = s.twin := rfl
@[simp] theorem setHub_heal (s : State) (h : Hub) : (setHub s h).heal = s.heal := rfl
@[simp] theorem setHub_flash (s : State) (h : Hub) : (setHub s h).flash = s.flash := rfl
@[simp] theorem setHub_pins (s : State) (h : Hub) : (setHub s h).pins = s.pins := rfl
@[simp] theorem setHub_power (s : State) (h : Hub) : (setHub s h).power = s.power := rfl
@[simp] theorem setHub_host (s : State) (h : Hub) : (setHub s h).host = s.host := rfl
@[simp] theorem setHub_gauges (s : State) (h : Hub) : (setHub s h).gauges = s.gauges := rfl
@[simp] theorem setHub_inval (s : State) (h : Hub) : (setHub s h).inval = s.inval := rfl
@[simp] theorem setHub_flip (s : State) (h : Hub) : (setHub s h).flip = s.flip := rfl
@[simp] theorem setHub_reports (s : State) (h : Hub) : (setHub s h).reports = s.reports := rfl
@[simp] theorem setHub_out (s : State) (h : Hub) : (setHub s h).out = s.out := rfl
@[simp] theorem setHub_pending (s : State) (h : Hub) : (setHub s h).pending = s.pending := rfl

/-! ### setHost -/

@[simp] theorem setHost_now (s : State) (h : HostIf) : (setHost s h).now = s.now := rfl
@[simp] theorem setHost_free (s : State) (h : HostIf) : (setHost s h).free = s.free := rfl
@[simp] theorem setHost_regs (s : State) (h : HostIf) : (setHost s h).regs = s.regs := rfl
@[simp] theorem setHost_caps (s : State) (h : HostIf) : (setHost s h).caps = s.caps := rfl
@[simp] theorem setHost_stg (s : State) (h : HostIf) : (setHost s h).stg = s.stg := rfl
@[simp] theorem setHost_latch (s : State) (h : HostIf) : (setHost s h).latch = s.latch := rfl
@[simp] theorem setHost_fuseMap (s : State) (h : HostIf) : (setHost s h).fuseMap = s.fuseMap := rfl
@[simp] theorem setHost_fieldMap (s : State) (h : HostIf) : (setHost s h).fieldMap = s.fieldMap := rfl
@[simp] theorem setHost_mem (s : State) (h : HostIf) : (setHost s h).mem = s.mem := rfl
@[simp] theorem setHost_mpois (s : State) (h : HostIf) : (setHost s h).mpois = s.mpois := rfl
@[simp] theorem setHost_merr (s : State) (h : HostIf) : (setHost s h).merr = s.merr := rfl
@[simp] theorem setHost_slices (s : State) (h : HostIf) : (setHost s h).slices = s.slices := rfl
@[simp] theorem setHost_stackSt (s : State) (h : HostIf) : (setHost s h).stackSt = s.stackSt := rfl
@[simp] theorem setHost_grant (s : State) (h : HostIf) : (setHost s h).grant = s.grant := rfl
@[simp] theorem setHost_cores (s : State) (h : HostIf) : (setHost s h).cores = s.cores := rfl
@[simp] theorem setHost_nets (s : State) (h : HostIf) : (setHost s h).nets = s.nets := rfl
@[simp] theorem setHost_ports (s : State) (h : HostIf) : (setHost s h).ports = s.ports := rfl
@[simp] theorem setHost_routes (s : State) (h : HostIf) : (setHost s h).routes = s.routes := rfl
@[simp] theorem setHost_twin (s : State) (h : HostIf) : (setHost s h).twin = s.twin := rfl
@[simp] theorem setHost_heal (s : State) (h : HostIf) : (setHost s h).heal = s.heal := rfl
@[simp] theorem setHost_hub (s : State) (h : HostIf) : (setHost s h).hub = s.hub := rfl
@[simp] theorem setHost_flash (s : State) (h : HostIf) : (setHost s h).flash = s.flash := rfl
@[simp] theorem setHost_pins (s : State) (h : HostIf) : (setHost s h).pins = s.pins := rfl
@[simp] theorem setHost_power (s : State) (h : HostIf) : (setHost s h).power = s.power := rfl
@[simp] theorem setHost_gauges (s : State) (h : HostIf) : (setHost s h).gauges = s.gauges := rfl
@[simp] theorem setHost_inval (s : State) (h : HostIf) : (setHost s h).inval = s.inval := rfl
@[simp] theorem setHost_flip (s : State) (h : HostIf) : (setHost s h).flip = s.flip := rfl
@[simp] theorem setHost_reports (s : State) (h : HostIf) : (setHost s h).reports = s.reports := rfl
@[simp] theorem setHost_out (s : State) (h : HostIf) : (setHost s h).out = s.out := rfl
@[simp] theorem setHost_pending (s : State) (h : HostIf) : (setHost s h).pending = s.pending := rfl

/-! ### setFlash -/

@[simp] theorem setFlash_now (s : State) (f : Flash) : (setFlash s f).now = s.now := rfl
@[simp] theorem setFlash_free (s : State) (f : Flash) : (setFlash s f).free = s.free := rfl
@[simp] theorem setFlash_regs (s : State) (f : Flash) : (setFlash s f).regs = s.regs := rfl
@[simp] theorem setFlash_caps (s : State) (f : Flash) : (setFlash s f).caps = s.caps := rfl
@[simp] theorem setFlash_stg (s : State) (f : Flash) : (setFlash s f).stg = s.stg := rfl
@[simp] theorem setFlash_latch (s : State) (f : Flash) : (setFlash s f).latch = s.latch := rfl
@[simp] theorem setFlash_fuseMap (s : State) (f : Flash) : (setFlash s f).fuseMap = s.fuseMap := rfl
@[simp] theorem setFlash_fieldMap (s : State) (f : Flash) : (setFlash s f).fieldMap = s.fieldMap := rfl
@[simp] theorem setFlash_mem (s : State) (f : Flash) : (setFlash s f).mem = s.mem := rfl
@[simp] theorem setFlash_mpois (s : State) (f : Flash) : (setFlash s f).mpois = s.mpois := rfl
@[simp] theorem setFlash_merr (s : State) (f : Flash) : (setFlash s f).merr = s.merr := rfl
@[simp] theorem setFlash_slices (s : State) (f : Flash) : (setFlash s f).slices = s.slices := rfl
@[simp] theorem setFlash_stackSt (s : State) (f : Flash) : (setFlash s f).stackSt = s.stackSt := rfl
@[simp] theorem setFlash_grant (s : State) (f : Flash) : (setFlash s f).grant = s.grant := rfl
@[simp] theorem setFlash_cores (s : State) (f : Flash) : (setFlash s f).cores = s.cores := rfl
@[simp] theorem setFlash_nets (s : State) (f : Flash) : (setFlash s f).nets = s.nets := rfl
@[simp] theorem setFlash_ports (s : State) (f : Flash) : (setFlash s f).ports = s.ports := rfl
@[simp] theorem setFlash_routes (s : State) (f : Flash) : (setFlash s f).routes = s.routes := rfl
@[simp] theorem setFlash_twin (s : State) (f : Flash) : (setFlash s f).twin = s.twin := rfl
@[simp] theorem setFlash_heal (s : State) (f : Flash) : (setFlash s f).heal = s.heal := rfl
@[simp] theorem setFlash_hub (s : State) (f : Flash) : (setFlash s f).hub = s.hub := rfl
@[simp] theorem setFlash_pins (s : State) (f : Flash) : (setFlash s f).pins = s.pins := rfl
@[simp] theorem setFlash_power (s : State) (f : Flash) : (setFlash s f).power = s.power := rfl
@[simp] theorem setFlash_host (s : State) (f : Flash) : (setFlash s f).host = s.host := rfl
@[simp] theorem setFlash_gauges (s : State) (f : Flash) : (setFlash s f).gauges = s.gauges := rfl
@[simp] theorem setFlash_inval (s : State) (f : Flash) : (setFlash s f).inval = s.inval := rfl
@[simp] theorem setFlash_flip (s : State) (f : Flash) : (setFlash s f).flip = s.flip := rfl
@[simp] theorem setFlash_reports (s : State) (f : Flash) : (setFlash s f).reports = s.reports := rfl
@[simp] theorem setFlash_out (s : State) (f : Flash) : (setFlash s f).out = s.out := rfl
@[simp] theorem setFlash_pending (s : State) (f : Flash) : (setFlash s f).pending = s.pending := rfl

/-! ### setPins -/

@[simp] theorem setPins_now (s : State) (p : Pins) : (setPins s p).now = s.now := rfl
@[simp] theorem setPins_free (s : State) (p : Pins) : (setPins s p).free = s.free := rfl
@[simp] theorem setPins_regs (s : State) (p : Pins) : (setPins s p).regs = s.regs := rfl
@[simp] theorem setPins_caps (s : State) (p : Pins) : (setPins s p).caps = s.caps := rfl
@[simp] theorem setPins_stg (s : State) (p : Pins) : (setPins s p).stg = s.stg := rfl
@[simp] theorem setPins_latch (s : State) (p : Pins) : (setPins s p).latch = s.latch := rfl
@[simp] theorem setPins_fuseMap (s : State) (p : Pins) : (setPins s p).fuseMap = s.fuseMap := rfl
@[simp] theorem setPins_fieldMap (s : State) (p : Pins) : (setPins s p).fieldMap = s.fieldMap := rfl
@[simp] theorem setPins_mem (s : State) (p : Pins) : (setPins s p).mem = s.mem := rfl
@[simp] theorem setPins_mpois (s : State) (p : Pins) : (setPins s p).mpois = s.mpois := rfl
@[simp] theorem setPins_merr (s : State) (p : Pins) : (setPins s p).merr = s.merr := rfl
@[simp] theorem setPins_slices (s : State) (p : Pins) : (setPins s p).slices = s.slices := rfl
@[simp] theorem setPins_stackSt (s : State) (p : Pins) : (setPins s p).stackSt = s.stackSt := rfl
@[simp] theorem setPins_grant (s : State) (p : Pins) : (setPins s p).grant = s.grant := rfl
@[simp] theorem setPins_cores (s : State) (p : Pins) : (setPins s p).cores = s.cores := rfl
@[simp] theorem setPins_nets (s : State) (p : Pins) : (setPins s p).nets = s.nets := rfl
@[simp] theorem setPins_ports (s : State) (p : Pins) : (setPins s p).ports = s.ports := rfl
@[simp] theorem setPins_routes (s : State) (p : Pins) : (setPins s p).routes = s.routes := rfl
@[simp] theorem setPins_twin (s : State) (p : Pins) : (setPins s p).twin = s.twin := rfl
@[simp] theorem setPins_heal (s : State) (p : Pins) : (setPins s p).heal = s.heal := rfl
@[simp] theorem setPins_hub (s : State) (p : Pins) : (setPins s p).hub = s.hub := rfl
@[simp] theorem setPins_flash (s : State) (p : Pins) : (setPins s p).flash = s.flash := rfl
@[simp] theorem setPins_power (s : State) (p : Pins) : (setPins s p).power = s.power := rfl
@[simp] theorem setPins_host (s : State) (p : Pins) : (setPins s p).host = s.host := rfl
@[simp] theorem setPins_gauges (s : State) (p : Pins) : (setPins s p).gauges = s.gauges := rfl
@[simp] theorem setPins_inval (s : State) (p : Pins) : (setPins s p).inval = s.inval := rfl
@[simp] theorem setPins_flip (s : State) (p : Pins) : (setPins s p).flip = s.flip := rfl
@[simp] theorem setPins_reports (s : State) (p : Pins) : (setPins s p).reports = s.reports := rfl
@[simp] theorem setPins_out (s : State) (p : Pins) : (setPins s p).out = s.out := rfl
@[simp] theorem setPins_pending (s : State) (p : Pins) : (setPins s p).pending = s.pending := rfl

/-! ### setPower -/

@[simp] theorem setPower_now (s : State) (p : Power) : (setPower s p).now = s.now := rfl
@[simp] theorem setPower_free (s : State) (p : Power) : (setPower s p).free = s.free := rfl
@[simp] theorem setPower_regs (s : State) (p : Power) : (setPower s p).regs = s.regs := rfl
@[simp] theorem setPower_caps (s : State) (p : Power) : (setPower s p).caps = s.caps := rfl
@[simp] theorem setPower_stg (s : State) (p : Power) : (setPower s p).stg = s.stg := rfl
@[simp] theorem setPower_latch (s : State) (p : Power) : (setPower s p).latch = s.latch := rfl
@[simp] theorem setPower_fuseMap (s : State) (p : Power) : (setPower s p).fuseMap = s.fuseMap := rfl
@[simp] theorem setPower_fieldMap (s : State) (p : Power) : (setPower s p).fieldMap = s.fieldMap := rfl
@[simp] theorem setPower_mem (s : State) (p : Power) : (setPower s p).mem = s.mem := rfl
@[simp] theorem setPower_mpois (s : State) (p : Power) : (setPower s p).mpois = s.mpois := rfl
@[simp] theorem setPower_merr (s : State) (p : Power) : (setPower s p).merr = s.merr := rfl
@[simp] theorem setPower_slices (s : State) (p : Power) : (setPower s p).slices = s.slices := rfl
@[simp] theorem setPower_stackSt (s : State) (p : Power) : (setPower s p).stackSt = s.stackSt := rfl
@[simp] theorem setPower_grant (s : State) (p : Power) : (setPower s p).grant = s.grant := rfl
@[simp] theorem setPower_cores (s : State) (p : Power) : (setPower s p).cores = s.cores := rfl
@[simp] theorem setPower_nets (s : State) (p : Power) : (setPower s p).nets = s.nets := rfl
@[simp] theorem setPower_ports (s : State) (p : Power) : (setPower s p).ports = s.ports := rfl
@[simp] theorem setPower_routes (s : State) (p : Power) : (setPower s p).routes = s.routes := rfl
@[simp] theorem setPower_twin (s : State) (p : Power) : (setPower s p).twin = s.twin := rfl
@[simp] theorem setPower_heal (s : State) (p : Power) : (setPower s p).heal = s.heal := rfl
@[simp] theorem setPower_hub (s : State) (p : Power) : (setPower s p).hub = s.hub := rfl
@[simp] theorem setPower_flash (s : State) (p : Power) : (setPower s p).flash = s.flash := rfl
@[simp] theorem setPower_pins (s : State) (p : Power) : (setPower s p).pins = s.pins := rfl
@[simp] theorem setPower_host (s : State) (p : Power) : (setPower s p).host = s.host := rfl
@[simp] theorem setPower_gauges (s : State) (p : Power) : (setPower s p).gauges = s.gauges := rfl
@[simp] theorem setPower_inval (s : State) (p : Power) : (setPower s p).inval = s.inval := rfl
@[simp] theorem setPower_flip (s : State) (p : Power) : (setPower s p).flip = s.flip := rfl
@[simp] theorem setPower_reports (s : State) (p : Power) : (setPower s p).reports = s.reports := rfl
@[simp] theorem setPower_out (s : State) (p : Power) : (setPower s p).out = s.out := rfl
@[simp] theorem setPower_pending (s : State) (p : Power) : (setPower s p).pending = s.pending := rfl

/-! ### setTwin -/

@[simp] theorem setTwin_now (s : State) (t : Twin) : (setTwin s t).now = s.now := rfl
@[simp] theorem setTwin_free (s : State) (t : Twin) : (setTwin s t).free = s.free := rfl
@[simp] theorem setTwin_regs (s : State) (t : Twin) : (setTwin s t).regs = s.regs := rfl
@[simp] theorem setTwin_caps (s : State) (t : Twin) : (setTwin s t).caps = s.caps := rfl
@[simp] theorem setTwin_stg (s : State) (t : Twin) : (setTwin s t).stg = s.stg := rfl
@[simp] theorem setTwin_latch (s : State) (t : Twin) : (setTwin s t).latch = s.latch := rfl
@[simp] theorem setTwin_fuseMap (s : State) (t : Twin) : (setTwin s t).fuseMap = s.fuseMap := rfl
@[simp] theorem setTwin_fieldMap (s : State) (t : Twin) : (setTwin s t).fieldMap = s.fieldMap := rfl
@[simp] theorem setTwin_mem (s : State) (t : Twin) : (setTwin s t).mem = s.mem := rfl
@[simp] theorem setTwin_mpois (s : State) (t : Twin) : (setTwin s t).mpois = s.mpois := rfl
@[simp] theorem setTwin_merr (s : State) (t : Twin) : (setTwin s t).merr = s.merr := rfl
@[simp] theorem setTwin_slices (s : State) (t : Twin) : (setTwin s t).slices = s.slices := rfl
@[simp] theorem setTwin_stackSt (s : State) (t : Twin) : (setTwin s t).stackSt = s.stackSt := rfl
@[simp] theorem setTwin_grant (s : State) (t : Twin) : (setTwin s t).grant = s.grant := rfl
@[simp] theorem setTwin_cores (s : State) (t : Twin) : (setTwin s t).cores = s.cores := rfl
@[simp] theorem setTwin_nets (s : State) (t : Twin) : (setTwin s t).nets = s.nets := rfl
@[simp] theorem setTwin_ports (s : State) (t : Twin) : (setTwin s t).ports = s.ports := rfl
@[simp] theorem setTwin_routes (s : State) (t : Twin) : (setTwin s t).routes = s.routes := rfl
@[simp] theorem setTwin_heal (s : State) (t : Twin) : (setTwin s t).heal = s.heal := rfl
@[simp] theorem setTwin_hub (s : State) (t : Twin) : (setTwin s t).hub = s.hub := rfl
@[simp] theorem setTwin_flash (s : State) (t : Twin) : (setTwin s t).flash = s.flash := rfl
@[simp] theorem setTwin_pins (s : State) (t : Twin) : (setTwin s t).pins = s.pins := rfl
@[simp] theorem setTwin_power (s : State) (t : Twin) : (setTwin s t).power = s.power := rfl
@[simp] theorem setTwin_host (s : State) (t : Twin) : (setTwin s t).host = s.host := rfl
@[simp] theorem setTwin_gauges (s : State) (t : Twin) : (setTwin s t).gauges = s.gauges := rfl
@[simp] theorem setTwin_inval (s : State) (t : Twin) : (setTwin s t).inval = s.inval := rfl
@[simp] theorem setTwin_flip (s : State) (t : Twin) : (setTwin s t).flip = s.flip := rfl
@[simp] theorem setTwin_reports (s : State) (t : Twin) : (setTwin s t).reports = s.reports := rfl
@[simp] theorem setTwin_out (s : State) (t : Twin) : (setTwin s t).out = s.out := rfl
@[simp] theorem setTwin_pending (s : State) (t : Twin) : (setTwin s t).pending = s.pending := rfl

/-! ### tick -/

@[simp] theorem tick_free (s : State) : (tick s).free = s.free := rfl
@[simp] theorem tick_regs (s : State) : (tick s).regs = s.regs := rfl
@[simp] theorem tick_caps (s : State) : (tick s).caps = s.caps := rfl
@[simp] theorem tick_stg (s : State) : (tick s).stg = s.stg := rfl
@[simp] theorem tick_latch (s : State) : (tick s).latch = s.latch := rfl
@[simp] theorem tick_fuseMap (s : State) : (tick s).fuseMap = s.fuseMap := rfl
@[simp] theorem tick_fieldMap (s : State) : (tick s).fieldMap = s.fieldMap := rfl
@[simp] theorem tick_mem (s : State) : (tick s).mem = s.mem := rfl
@[simp] theorem tick_mpois (s : State) : (tick s).mpois = s.mpois := rfl
@[simp] theorem tick_merr (s : State) : (tick s).merr = s.merr := rfl
@[simp] theorem tick_slices (s : State) : (tick s).slices = s.slices := rfl
@[simp] theorem tick_stackSt (s : State) : (tick s).stackSt = s.stackSt := rfl
@[simp] theorem tick_grant (s : State) : (tick s).grant = s.grant := rfl
@[simp] theorem tick_cores (s : State) : (tick s).cores = s.cores := rfl
@[simp] theorem tick_nets (s : State) : (tick s).nets = s.nets := rfl
@[simp] theorem tick_ports (s : State) : (tick s).ports = s.ports := rfl
@[simp] theorem tick_routes (s : State) : (tick s).routes = s.routes := rfl
@[simp] theorem tick_twin (s : State) : (tick s).twin = s.twin := rfl
@[simp] theorem tick_heal (s : State) : (tick s).heal = s.heal := rfl
@[simp] theorem tick_hub (s : State) : (tick s).hub = s.hub := rfl
@[simp] theorem tick_flash (s : State) : (tick s).flash = s.flash := rfl
@[simp] theorem tick_pins (s : State) : (tick s).pins = s.pins := rfl
@[simp] theorem tick_power (s : State) : (tick s).power = s.power := rfl
@[simp] theorem tick_host (s : State) : (tick s).host = s.host := rfl
@[simp] theorem tick_gauges (s : State) : (tick s).gauges = s.gauges := rfl
@[simp] theorem tick_inval (s : State) : (tick s).inval = s.inval := rfl
@[simp] theorem tick_flip (s : State) : (tick s).flip = s.flip := rfl
@[simp] theorem tick_reports (s : State) : (tick s).reports = s.reports := rfl
@[simp] theorem tick_out (s : State) : (tick s).out = s.out := rfl
@[simp] theorem tick_pending (s : State) : (tick s).pending = s.pending := rfl

/-! ### fdSet -/

@[simp] theorem fdSet_now (s : State) (p : PageId) (f : FRef) (v : Nat) : (fdSet s p f v).now = s.now := rfl
@[simp] theorem fdSet_free (s : State) (p : PageId) (f : FRef) (v : Nat) : (fdSet s p f v).free = s.free := rfl
@[simp] theorem fdSet_caps (s : State) (p : PageId) (f : FRef) (v : Nat) : (fdSet s p f v).caps = s.caps := rfl
@[simp] theorem fdSet_stg (s : State) (p : PageId) (f : FRef) (v : Nat) : (fdSet s p f v).stg = s.stg := rfl
@[simp] theorem fdSet_latch (s : State) (p : PageId) (f : FRef) (v : Nat) : (fdSet s p f v).latch = s.latch := rfl
@[simp] theorem fdSet_fuseMap (s : State) (p : PageId) (f : FRef) (v : Nat) : (fdSet s p f v).fuseMap = s.fuseMap := rfl
@[simp] theorem fdSet_fieldMap (s : State) (p : PageId) (f : FRef) (v : Nat) : (fdSet s p f v).fieldMap = s.fieldMap := rfl
@[simp] theorem fdSet_mem (s : State) (p : PageId) (f : FRef) (v : Nat) : (fdSet s p f v).mem = s.mem := rfl
@[simp] theorem fdSet_mpois (s : State) (p : PageId) (f : FRef) (v : Nat) : (fdSet s p f v).mpois = s.mpois := rfl
@[simp] theorem fdSet_merr (s : State) (p : PageId) (f : FRef) (v : Nat) : (fdSet s p f v).merr = s.merr := rfl
@[simp] theorem fdSet_slices (s : State) (p : PageId) (f : FRef) (v : Nat) : (fdSet s p f v).slices = s.slices := rfl
@[simp] theorem fdSet_stackSt (s : State) (p : PageId) (f : FRef) (v : Nat) : (fdSet s p f v).stackSt = s.stackSt := rfl
@[simp] theorem fdSet_grant (s : State) (p : PageId) (f : FRef) (v : Nat) : (fdSet s p f v).grant = s.grant := rfl
@[simp] theorem fdSet_cores (s : State) (p : PageId) (f : FRef) (v : Nat) : (fdSet s p f v).cores = s.cores := rfl
@[simp] theorem fdSet_nets (s : State) (p : PageId) (f : FRef) (v : Nat) : (fdSet s p f v).nets = s.nets := rfl
@[simp] theorem fdSet_ports (s : State) (p : PageId) (f : FRef) (v : Nat) : (fdSet s p f v).ports = s.ports := rfl
@[simp] theorem fdSet_routes (s : State) (p : PageId) (f : FRef) (v : Nat) : (fdSet s p f v).routes = s.routes := rfl
@[simp] theorem fdSet_twin (s : State) (p : PageId) (f : FRef) (v : Nat) : (fdSet s p f v).twin = s.twin := rfl
@[simp] theorem fdSet_heal (s : State) (p : PageId) (f : FRef) (v : Nat) : (fdSet s p f v).heal = s.heal := rfl
@[simp] theorem fdSet_hub (s : State) (p : PageId) (f : FRef) (v : Nat) : (fdSet s p f v).hub = s.hub := rfl
@[simp] theorem fdSet_flash (s : State) (p : PageId) (f : FRef) (v : Nat) : (fdSet s p f v).flash = s.flash := rfl
@[simp] theorem fdSet_pins (s : State) (p : PageId) (f : FRef) (v : Nat) : (fdSet s p f v).pins = s.pins := rfl
@[simp] theorem fdSet_power (s : State) (p : PageId) (f : FRef) (v : Nat) : (fdSet s p f v).power = s.power := rfl
@[simp] theorem fdSet_host (s : State) (p : PageId) (f : FRef) (v : Nat) : (fdSet s p f v).host = s.host := rfl
@[simp] theorem fdSet_gauges (s : State) (p : PageId) (f : FRef) (v : Nat) : (fdSet s p f v).gauges = s.gauges := rfl
@[simp] theorem fdSet_inval (s : State) (p : PageId) (f : FRef) (v : Nat) : (fdSet s p f v).inval = s.inval := rfl
@[simp] theorem fdSet_flip (s : State) (p : PageId) (f : FRef) (v : Nat) : (fdSet s p f v).flip = s.flip := rfl
@[simp] theorem fdSet_reports (s : State) (p : PageId) (f : FRef) (v : Nat) : (fdSet s p f v).reports = s.reports := rfl
@[simp] theorem fdSet_out (s : State) (p : PageId) (f : FRef) (v : Nat) : (fdSet s p f v).out = s.out := rfl
@[simp] theorem fdSet_pending (s : State) (p : PageId) (f : FRef) (v : Nat) : (fdSet s p f v).pending = s.pending := rfl

/-! ### bumpBy -/

@[simp] theorem bumpBy_now (s : State) (p : PageId) (off n : Nat) : (bumpBy s p off n).now = s.now := by unfold bumpBy; split <;> rfl
@[simp] theorem bumpBy_free (s : State) (p : PageId) (off n : Nat) : (bumpBy s p off n).free = s.free := by unfold bumpBy; split <;> rfl
@[simp] theorem bumpBy_caps (s : State) (p : PageId) (off n : Nat) : (bumpBy s p off n).caps = s.caps := by unfold bumpBy; split <;> rfl
@[simp] theorem bumpBy_stg (s : State) (p : PageId) (off n : Nat) : (bumpBy s p off n).stg = s.stg := by unfold bumpBy; split <;> rfl
@[simp] theorem bumpBy_latch (s : State) (p : PageId) (off n : Nat) : (bumpBy s p off n).latch = s.latch := by unfold bumpBy; split <;> rfl
@[simp] theorem bumpBy_fuseMap (s : State) (p : PageId) (off n : Nat) : (bumpBy s p off n).fuseMap = s.fuseMap := by unfold bumpBy; split <;> rfl
@[simp] theorem bumpBy_fieldMap (s : State) (p : PageId) (off n : Nat) : (bumpBy s p off n).fieldMap = s.fieldMap := by unfold bumpBy; split <;> rfl
@[simp] theorem bumpBy_mem (s : State) (p : PageId) (off n : Nat) : (bumpBy s p off n).mem = s.mem := by unfold bumpBy; split <;> rfl
@[simp] theorem bumpBy_mpois (s : State) (p : PageId) (off n : Nat) : (bumpBy s p off n).mpois = s.mpois := by unfold bumpBy; split <;> rfl
@[simp] theorem bumpBy_merr (s : State) (p : PageId) (off n : Nat) : (bumpBy s p off n).merr = s.merr := by unfold bumpBy; split <;> rfl
@[simp] theorem bumpBy_slices (s : State) (p : PageId) (off n : Nat) : (bumpBy s p off n).slices = s.slices := by unfold bumpBy; split <;> rfl
@[simp] theorem bumpBy_stackSt (s : State) (p : PageId) (off n : Nat) : (bumpBy s p off n).stackSt = s.stackSt := by unfold bumpBy; split <;> rfl
@[simp] theorem bumpBy_grant (s : State) (p : PageId) (off n : Nat) : (bumpBy s p off n).grant = s.grant := by unfold bumpBy; split <;> rfl
@[simp] theorem bumpBy_cores (s : State) (p : PageId) (off n : Nat) : (bumpBy s p off n).cores = s.cores := by unfold bumpBy; split <;> rfl
@[simp] theorem bumpBy_nets (s : State) (p : PageId) (off n : Nat) : (bumpBy s p off n).nets = s.nets := by unfold bumpBy; split <;> rfl
@[simp] theorem bumpBy_ports (s : State) (p : PageId) (off n : Nat) : (bumpBy s p off n).ports = s.ports := by unfold bumpBy; split <;> rfl
@[simp] theorem bumpBy_routes (s : State) (p : PageId) (off n : Nat) : (bumpBy s p off n).routes = s.routes := by unfold bumpBy; split <;> rfl
@[simp] theorem bumpBy_twin (s : State) (p : PageId) (off n : Nat) : (bumpBy s p off n).twin = s.twin := by unfold bumpBy; split <;> rfl
@[simp] theorem bumpBy_heal (s : State) (p : PageId) (off n : Nat) : (bumpBy s p off n).heal = s.heal := by unfold bumpBy; split <;> rfl
@[simp] theorem bumpBy_hub (s : State) (p : PageId) (off n : Nat) : (bumpBy s p off n).hub = s.hub := by unfold bumpBy; split <;> rfl
@[simp] theorem bumpBy_flash (s : State) (p : PageId) (off n : Nat) : (bumpBy s p off n).flash = s.flash := by unfold bumpBy; split <;> rfl
@[simp] theorem bumpBy_pins (s : State) (p : PageId) (off n : Nat) : (bumpBy s p off n).pins = s.pins := by unfold bumpBy; split <;> rfl
@[simp] theorem bumpBy_power (s : State) (p : PageId) (off n : Nat) : (bumpBy s p off n).power = s.power := by unfold bumpBy; split <;> rfl
@[simp] theorem bumpBy_host (s : State) (p : PageId) (off n : Nat) : (bumpBy s p off n).host = s.host := by unfold bumpBy; split <;> rfl
@[simp] theorem bumpBy_gauges (s : State) (p : PageId) (off n : Nat) : (bumpBy s p off n).gauges = s.gauges := by unfold bumpBy; split <;> rfl
@[simp] theorem bumpBy_inval (s : State) (p : PageId) (off n : Nat) : (bumpBy s p off n).inval = s.inval := by unfold bumpBy; split <;> rfl
@[simp] theorem bumpBy_flip (s : State) (p : PageId) (off n : Nat) : (bumpBy s p off n).flip = s.flip := by unfold bumpBy; split <;> rfl
@[simp] theorem bumpBy_reports (s : State) (p : PageId) (off n : Nat) : (bumpBy s p off n).reports = s.reports := by unfold bumpBy; split <;> rfl
@[simp] theorem bumpBy_out (s : State) (p : PageId) (off n : Nat) : (bumpBy s p off n).out = s.out := by unfold bumpBy; split <;> rfl
@[simp] theorem bumpBy_pending (s : State) (p : PageId) (off n : Nat) : (bumpBy s p off n).pending = s.pending := by unfold bumpBy; split <;> rfl

/-! ### bump -/

@[simp] theorem bump_now (s : State) (p : PageId) (off : Nat) : (bump s p off).now = s.now := bumpBy_now s p off 1
@[simp] theorem bump_free (s : State) (p : PageId) (off : Nat) : (bump s p off).free = s.free := bumpBy_free s p off 1
@[simp] theorem bump_caps (s : State) (p : PageId) (off : Nat) : (bump s p off).caps = s.caps := bumpBy_caps s p off 1
@[simp] theorem bump_stg (s : State) (p : PageId) (off : Nat) : (bump s p off).stg = s.stg := bumpBy_stg s p off 1
@[simp] theorem bump_latch (s : State) (p : PageId) (off : Nat) : (bump s p off).latch = s.latch := bumpBy_latch s p off 1
@[simp] theorem bump_fuseMap (s : State) (p : PageId) (off : Nat) : (bump s p off).fuseMap = s.fuseMap := bumpBy_fuseMap s p off 1
@[simp] theorem bump_fieldMap (s : State) (p : PageId) (off : Nat) : (bump s p off).fieldMap = s.fieldMap := bumpBy_fieldMap s p off 1
@[simp] theorem bump_mem (s : State) (p : PageId) (off : Nat) : (bump s p off).mem = s.mem := bumpBy_mem s p off 1
@[simp] theorem bump_mpois (s : State) (p : PageId) (off : Nat) : (bump s p off).mpois = s.mpois := bumpBy_mpois s p off 1
@[simp] theorem bump_merr (s : State) (p : PageId) (off : Nat) : (bump s p off).merr = s.merr := bumpBy_merr s p off 1
@[simp] theorem bump_slices (s : State) (p : PageId) (off : Nat) : (bump s p off).slices = s.slices := bumpBy_slices s p off 1
@[simp] theorem bump_stackSt (s : State) (p : PageId) (off : Nat) : (bump s p off).stackSt = s.stackSt := bumpBy_stackSt s p off 1
@[simp] theorem bump_grant (s : State) (p : PageId) (off : Nat) : (bump s p off).grant = s.grant := bumpBy_grant s p off 1
@[simp] theorem bump_cores (s : State) (p : PageId) (off : Nat) : (bump s p off).cores = s.cores := bumpBy_cores s p off 1
@[simp] theorem bump_nets (s : State) (p : PageId) (off : Nat) : (bump s p off).nets = s.nets := bumpBy_nets s p off 1
@[simp] theorem bump_ports (s : State) (p : PageId) (off : Nat) : (bump s p off).ports = s.ports := bumpBy_ports s p off 1
@[simp] theorem bump_routes (s : State) (p : PageId) (off : Nat) : (bump s p off).routes = s.routes := bumpBy_routes s p off 1
@[simp] theorem bump_twin (s : State) (p : PageId) (off : Nat) : (bump s p off).twin = s.twin := bumpBy_twin s p off 1
@[simp] theorem bump_heal (s : State) (p : PageId) (off : Nat) : (bump s p off).heal = s.heal := bumpBy_heal s p off 1
@[simp] theorem bump_hub (s : State) (p : PageId) (off : Nat) : (bump s p off).hub = s.hub := bumpBy_hub s p off 1
@[simp] theorem bump_flash (s : State) (p : PageId) (off : Nat) : (bump s p off).flash = s.flash := bumpBy_flash s p off 1
@[simp] theorem bump_pins (s : State) (p : PageId) (off : Nat) : (bump s p off).pins = s.pins := bumpBy_pins s p off 1
@[simp] theorem bump_power (s : State) (p : PageId) (off : Nat) : (bump s p off).power = s.power := bumpBy_power s p off 1
@[simp] theorem bump_host (s : State) (p : PageId) (off : Nat) : (bump s p off).host = s.host := bumpBy_host s p off 1
@[simp] theorem bump_gauges (s : State) (p : PageId) (off : Nat) : (bump s p off).gauges = s.gauges := bumpBy_gauges s p off 1
@[simp] theorem bump_inval (s : State) (p : PageId) (off : Nat) : (bump s p off).inval = s.inval := bumpBy_inval s p off 1
@[simp] theorem bump_flip (s : State) (p : PageId) (off : Nat) : (bump s p off).flip = s.flip := bumpBy_flip s p off 1
@[simp] theorem bump_reports (s : State) (p : PageId) (off : Nat) : (bump s p off).reports = s.reports := bumpBy_reports s p off 1
@[simp] theorem bump_out (s : State) (p : PageId) (off : Nat) : (bump s p off).out = s.out := bumpBy_out s p off 1
@[simp] theorem bump_pending (s : State) (p : PageId) (off : Nat) : (bump s p off).pending = s.pending := bumpBy_pending s p off 1

/-! ### report -/

/-- A report changes the reports, what HEAL counts and a capture, nothing else. -/
theorem report_shape (s : State) (r : Report) : ∃ a h c, report s r = { s with reports := a, heal := h, caps := c } := by
  unfold report capCount
  dsimp only
  split
  · exact ⟨_, _, _, rfl⟩
  · split
    · split
      · split <;> exact ⟨_, _, _, rfl⟩
      · exact ⟨_, _, _, rfl⟩
    · exact ⟨_, _, _, rfl⟩
@[simp] theorem report_now (s : State) (r : Report) : (report s r).now = s.now := by obtain ⟨_, _, _, e⟩ := report_shape s r; rw [e]
@[simp] theorem report_free (s : State) (r : Report) : (report s r).free = s.free := by obtain ⟨_, _, _, e⟩ := report_shape s r; rw [e]
@[simp] theorem report_regs (s : State) (r : Report) : (report s r).regs = s.regs := by obtain ⟨_, _, _, e⟩ := report_shape s r; rw [e]
@[simp] theorem report_stg (s : State) (r : Report) : (report s r).stg = s.stg := by obtain ⟨_, _, _, e⟩ := report_shape s r; rw [e]
@[simp] theorem report_latch (s : State) (r : Report) : (report s r).latch = s.latch := by obtain ⟨_, _, _, e⟩ := report_shape s r; rw [e]
@[simp] theorem report_fuseMap (s : State) (r : Report) : (report s r).fuseMap = s.fuseMap := by obtain ⟨_, _, _, e⟩ := report_shape s r; rw [e]
@[simp] theorem report_fieldMap (s : State) (r : Report) : (report s r).fieldMap = s.fieldMap := by obtain ⟨_, _, _, e⟩ := report_shape s r; rw [e]
@[simp] theorem report_mem (s : State) (r : Report) : (report s r).mem = s.mem := by obtain ⟨_, _, _, e⟩ := report_shape s r; rw [e]
@[simp] theorem report_mpois (s : State) (r : Report) : (report s r).mpois = s.mpois := by obtain ⟨_, _, _, e⟩ := report_shape s r; rw [e]
@[simp] theorem report_merr (s : State) (r : Report) : (report s r).merr = s.merr := by obtain ⟨_, _, _, e⟩ := report_shape s r; rw [e]
@[simp] theorem report_slices (s : State) (r : Report) : (report s r).slices = s.slices := by obtain ⟨_, _, _, e⟩ := report_shape s r; rw [e]
@[simp] theorem report_stackSt (s : State) (r : Report) : (report s r).stackSt = s.stackSt := by obtain ⟨_, _, _, e⟩ := report_shape s r; rw [e]
@[simp] theorem report_grant (s : State) (r : Report) : (report s r).grant = s.grant := by obtain ⟨_, _, _, e⟩ := report_shape s r; rw [e]
@[simp] theorem report_cores (s : State) (r : Report) : (report s r).cores = s.cores := by obtain ⟨_, _, _, e⟩ := report_shape s r; rw [e]
@[simp] theorem report_nets (s : State) (r : Report) : (report s r).nets = s.nets := by obtain ⟨_, _, _, e⟩ := report_shape s r; rw [e]
@[simp] theorem report_ports (s : State) (r : Report) : (report s r).ports = s.ports := by obtain ⟨_, _, _, e⟩ := report_shape s r; rw [e]
@[simp] theorem report_routes (s : State) (r : Report) : (report s r).routes = s.routes := by obtain ⟨_, _, _, e⟩ := report_shape s r; rw [e]
@[simp] theorem report_twin (s : State) (r : Report) : (report s r).twin = s.twin := by obtain ⟨_, _, _, e⟩ := report_shape s r; rw [e]
@[simp] theorem report_hub (s : State) (r : Report) : (report s r).hub = s.hub := by obtain ⟨_, _, _, e⟩ := report_shape s r; rw [e]
@[simp] theorem report_flash (s : State) (r : Report) : (report s r).flash = s.flash := by obtain ⟨_, _, _, e⟩ := report_shape s r; rw [e]
@[simp] theorem report_pins (s : State) (r : Report) : (report s r).pins = s.pins := by obtain ⟨_, _, _, e⟩ := report_shape s r; rw [e]
@[simp] theorem report_power (s : State) (r : Report) : (report s r).power = s.power := by obtain ⟨_, _, _, e⟩ := report_shape s r; rw [e]
@[simp] theorem report_host (s : State) (r : Report) : (report s r).host = s.host := by obtain ⟨_, _, _, e⟩ := report_shape s r; rw [e]
@[simp] theorem report_gauges (s : State) (r : Report) : (report s r).gauges = s.gauges := by obtain ⟨_, _, _, e⟩ := report_shape s r; rw [e]
@[simp] theorem report_inval (s : State) (r : Report) : (report s r).inval = s.inval := by obtain ⟨_, _, _, e⟩ := report_shape s r; rw [e]
@[simp] theorem report_flip (s : State) (r : Report) : (report s r).flip = s.flip := by obtain ⟨_, _, _, e⟩ := report_shape s r; rw [e]
@[simp] theorem report_out (s : State) (r : Report) : (report s r).out = s.out := by obtain ⟨_, _, _, e⟩ := report_shape s r; rw [e]
@[simp] theorem report_pending (s : State) (r : Report) : (report s r).pending = s.pending := by obtain ⟨_, _, _, e⟩ := report_shape s r; rw [e]

/-! ### Reading after an update -/

/-- A register word read after a word was stored. -/
theorem rd_wr (s : State) (p q : PageId) (off o v : Nat) :
    rd (wr s p off v) q o = if regKey (homePage q o) o = regKey (homePage p off) off then v % 2 ^ 32 else rd s q o := by
  simp only [rd, wr, tget_tput]
  split <;> simp

@[simp] theorem rd_wr_same (s : State) (p : PageId) (off v : Nat) : rd (wr s p off v) p off = v % 2 ^ 32 := by simp [rd_wr]

theorem rd_wr_ne (s : State) {p q : PageId} {off o : Nat} (v : Nat) (h : regKey (homePage q o) o ≠ regKey (homePage p off) off) :
    rd (wr s p off v) q o = rd s q o := by simp [rd_wr, h]

theorem rd_lt (s : State) (p : PageId) (off : Nat) : rd s p off < 2 ^ 32 := BitVec.isLt _

/-- A field read after it was set. -/
theorem fd_fdSet_same (s : State) (p : PageId) (f : FRef) (v : Nat) (h : f.lo + f.w ≤ 32) : fd (fdSet s p f v) p f = v % 2 ^ f.w := by
  unfold fd fdSet
  rw [rd_wr_same, Nat.mod_eq_of_lt (setBits_lt (rd_lt s p f.off) h), bits_setBits_same]

/-- A field of another register is unchanged. -/
theorem fd_wr_ne (s : State) {p q : PageId} {f : FRef} {off : Nat} (v : Nat)
    (h : regKey (homePage q f.off) f.off ≠ regKey (homePage p off) off) : fd (wr s p off v) q f = fd s q f := by
  unfold fd; rw [rd_wr_ne s v h]

/-- Another field of the register set is unchanged. -/
theorem fd_fdSet_ne (s : State) (p : PageId) {f g : FRef} (v : Nat) (hf : f.lo + f.w ≤ 32) (ho : g.off = f.off)
    (h : f.lo + f.w ≤ g.lo ∨ g.lo + g.w ≤ f.lo) : fd (fdSet s p f v) p g = fd s p g := by
  unfold fd fdSet
  rw [ho, rd_wr_same, Nat.mod_eq_of_lt (setBits_lt (rd_lt s p f.off) hf), bits_setBits_ne _ _ h]

/-- A field of another register is unchanged by setting a field. -/
theorem fd_fdSet_other (s : State) {p q : PageId} {f g : FRef} (v : Nat)
    (h : regKey (homePage q g.off) g.off ≠ regKey (homePage p f.off) f.off) : fd (fdSet s p f v) q g = fd s q g :=
  fd_wr_ne s _ h

@[simp] theorem rd_send (s : State) (o : Out) (p : PageId) (off : Nat) : rd (send s o) p off = rd s p off := rfl
@[simp] theorem fd_send (s : State) (o : Out) (p : PageId) (f : FRef) : fd (send s o) p f = fd s p f := rfl
@[simp] theorem rd_setCore (s : State) (c : Nat) (k : Core) (p : PageId) (off : Nat) : rd (setCore s c k) p off = rd s p off := rfl
@[simp] theorem fd_setCore (s : State) (c : Nat) (k : Core) (p : PageId) (f : FRef) : fd (setCore s c k) p f = fd s p f := rfl
@[simp] theorem rd_report (s : State) (r : Report) (p : PageId) (off : Nat) : rd (report s r) p off = rd s p off := by simp [rd]

@[simp] theorem core_setCore_same (s : State) (c : Nat) (k : Core) : core (setCore s c k) c = k := by simp [core, setCore]
theorem core_setCore_ne (s : State) {c d : Nat} (k : Core) (h : d ≠ c) : core (setCore s c k) d = core s d := by
  simp [core, setCore, tget_tput_ne _ _ _ h]
@[simp] theorem core_wr (s : State) (p : PageId) (off v c : Nat) : core (wr s p off v) c = core s c := rfl
@[simp] theorem core_send (s : State) (o : Out) (c : Nat) : core (send s o) c = core s c := rfl
@[simp] theorem port_setPort_same (s : State) (p : Nat) (x : PortSt) : port (setPort s p x) p = x := by simp [port, setPort]
theorem port_setPort_ne (s : State) {p q : Nat} (x : PortSt) (h : q ≠ p) : port (setPort s p x) q = port s q := by
  simp [port, setPort, tget_tput_ne _ _ _ h]
@[simp] theorem slice_setSlice_same (s : State) (g : Nat) (x : Slice) : slice (setSlice s g x) g = x := by simp [slice, setSlice]
@[simp] theorem net_setNet_same (s : State) (d : Nat) (n : DieNet) : net (setNet s d n) d = n := by simp [net, setNet]

/-- Raising an event bit stores it in INT_RAW; nothing but INT_RAW and the record of outputs changes (R52). -/
theorem raiseInt_spec (s : State) (p : PageId) (b : Nat) :
    raiseInt s p b = wr s p 0x10 (intRaw s p ||| 2 ^ b) ∨ ∃ f, raiseInt s p b = send (wr s p 0x10 (intRaw s p ||| 2 ^ b)) (.irq f p.no) := by
  unfold raiseInt irqEdge
  split
  · exact .inr ⟨_, rfl⟩
  · exact .inl rfl

@[simp] theorem raiseInt_rd (s : State) (p q : PageId) (b off : Nat) :
    rd (raiseInt s p b) q off = rd (wr s p 0x10 (intRaw s p ||| 2 ^ b)) q off := by
  rcases raiseInt_spec s p b with h | ⟨_, h⟩ <;> simp [h]

/-- The bit raised stands in INT_RAW. -/
theorem raiseInt_raw (s : State) (p : PageId) (b : Nat) : intRaw (raiseInt s p b) p = (intRaw s p ||| 2 ^ b) % 2 ^ 32 := by
  simp [intRaw]

/-- First-error capture (R53): a page that holds no capture takes the error whole. -/
theorem errAt_first (s : State) (p : PageId) (code source detail addr tag : Nat) (h : (cap s p).valid = false) :
    cap (errAt s p code source detail addr tag) p = ⟨code, source, true, false, 1, tag, detail, addr⟩ := by
  have hc : ∀ t : State, cap (raiseInt t p 0) p = cap t p := by
    intro t; rcases raiseInt_spec t p 0 with h | ⟨_, h⟩ <;> rw [h] <;> rfl
  unfold errAt
  simp only [h]
  rw [if_neg (by simp), hc]
  simp [cap]

/-- First-error capture (R53): a page that holds one keeps it, counts the error and sets OVERFLOW. -/
theorem errAt_later (s : State) (p : PageId) (code source detail addr tag : Nat) (h : (cap s p).valid = true) :
    errAt s p code source detail addr tag =
      { s with caps := tput s.caps p.no { cap s p with overflow := true, count := min 255 ((cap s p).count + 1) } } := by
  unfold errAt
  simp [h]

/-- A command to a unit that exists ends in a next state. -/
@[simp] theorem onUnit_lt {n k : Nat} (t : State) (h : n < k) : onUnit n k t = .next t := by simp [onUnit, h]
@[simp] theorem onCore_lt {c : Nat} (t : State) (h : c < 1152) : onCore c t = .next t := onUnit_lt t h
theorem onUnit_next {n k : Nat} {t u : State} (h : onUnit n k t = .next u) : n < k ∧ u = t := by
  unfold onUnit at h
  split at h
  · cases h; exact ⟨‹_›, rfl⟩
  · cases h

end Sys2Proof.Machine
end

