-- ==== Sys2Proof/Laws/Kept.lean ====
section
/-! SUPPORT. What every shared operation keeps: the queue, the module time and the fused map as they were, and memory in its canonical
form. One lemma per operation, callees before callers; a lemma takes what holds up to the operation and gives what holds after it. -/
namespace Sys2Proof.Machine
open Sys2Proof
set_option Elab.async false

/-- From `s` to `t` the queue, the time and the fused map are as they were and memory stays in its canonical form. -/
structure Kept (s t : State) : Prop where
  pending : t.pending = s.pending
  now : t.now = s.now
  fuseMap : t.fuseMap = s.fuseMap
  mem : memWf s.mem = true → memWf t.mem = true

theorem Kept.refl (s : State) : Kept s s := ⟨rfl, rfl, rfl, id⟩
theorem Kept.trans {s t u : State} (h : Kept s t) (k : Kept t u) : Kept s u :=
  ⟨k.pending.trans h.pending, k.now.trans h.now, k.fuseMap.trans h.fuseMap, fun m => k.mem (h.mem m)⟩
theorem Kept.folds {α : Type} {f : State → α → State} {s t : State} {l : List α} (h : Kept s t) (hf : ∀ s x, Kept s (f s x)) : Kept s (l.foldl f t) := by
  induction l generalizing t with
  | nil => exact h
  | cons a l ih => exact ih (h.trans (hf t a))
theorem Kept.elim {α : Type} {s t : State} {o : Option α} {f : α → State} (h : Kept s t) (hf : ∀ a, Kept s (f a)) : Kept s (o.elim t f) := by
  cases o with
  | none => exact h
  | some a => exact hf a
theorem Kept.ite {s a b : State} {c : Prop} [Decidable c] (ha : Kept s a) (hb : Kept s b) : Kept s (if c then a else b) := by
  split <;> assumption
theorem Kept.fst {α : Type} {s t : State} {r : α} {p : State × α} (e : p = (t, r)) (h : Kept s p.1) : Kept s t := by subst e; exact h
theorem Kept.snd {α : Type} {s t : State} {r : α} {p : α × State} (e : p = (r, t)) (h : Kept s p.2) : Kept s t := by subst e; exact h
theorem Kept.foldsFst {α β : Type} {f : State × β → α → State × β} {s : State} {p : State × β} {l : List α} (h : Kept s p.1)
    (hf : ∀ p x, Kept p.1 (f p x).1) : Kept s (l.foldl f p).1 := by
  induction l generalizing p with
  | nil => exact h
  | cons a l ih => exact ih (h.trans (hf p a))
theorem Kept.upd {s x : State} (h : Kept s x) (free' : Nat) (regs' : Tbl Word) (caps' : Tbl Cap) (stg' : Tbl Word) (latch' : List Latch) (fieldMap' : Tbl Word) (mpois' : Tbl Bool) (merr' : Tbl Nat) (slices' : Tbl Slice) (stackSt' : Tbl Stack) (grant' : Tbl Word) (cores' : Tbl Core) (nets' : Tbl DieNet) (ports' : Tbl PortSt) (routes' : Tbl Routes) (twin' : Twin) (heal' : Heal) (hub' : Hub) (flash' : Flash) (pins' : Pins) (power' : Power) (host' : HostIf) (gauges' : Tbl Gauge) (inval' : List Cast) (flip' : Option Cast) (reports' : List Report) (out' : List Out) : Kept s ⟨x.now, free', regs', caps', stg', latch', x.fuseMap, fieldMap', x.mem, mpois', merr', slices', stackSt', grant', cores', nets', ports', routes', twin', heal', hub', flash', pins', power', host', gauges', inval', flip', reports', out', x.pending⟩ :=
  ⟨h.pending, h.now, h.fuseMap, h.mem⟩
/-- The same of an answer, where it is a next state. -/
def KeptNext (s : State) (o : Res) : Prop := ∀ t, o = .next t → Kept s t
theorem KeptNext.next {s t : State} (h : Kept s t) : KeptNext s (.next t) := by intro u e; cases e; exact h
theorem KeptNext.fault {s : State} {f : Fault} : KeptNext s (.fault f) := by intro u e; cases e
theorem KeptNext.onUnit {s t : State} {n k : Nat} (h : Kept s t) : KeptNext s (onUnit n k t) := by
  intro u e; rw [(onUnit_next e).2]; exact h
theorem KeptNext.onCore {s t : State} {c : Nat} (h : Kept s t) : KeptNext s (onCore c t) := KeptNext.onUnit h
theorem KeptNext.ite {s : State} {a b : Res} {c : Prop} [Decidable c] (ha : KeptNext s a) (hb : KeptNext s b) : KeptNext s (if c then a else b) := by
  split <;> assumption
theorem memWf_filter {m : Tbl Byte} (h : memWf m = true) (p : Nat × Byte → Bool) : memWf (m.filter p) = true := by
  simp only [memWf, Bool.and_eq_true, List.all_eq_true] at h ⊢
  refine ⟨?_, fun e he => h.2 e (List.mem_filter.1 he).1⟩
  have h1 := h.1
  clear h
  induction m with
  | nil => rfl
  | cons a m ih =>
    obtain ⟨k, w⟩ := a
    rw [List.filter_cons]
    split
    · exact twf_of_lt (ih (twf_cons h1)) fun e he => twf_lt h1 e (List.mem_filter.1 he).1
    · exact ih (twf_cons h1)
theorem memWf_foldl {α : Type} {f : Tbl Byte → α → Tbl Byte} (h : ∀ t x, memWf t = true → memWf (f t x) = true) {t : Tbl Byte}
    (ht : memWf t = true) (l : List α) : memWf (l.foldl f t) = true := by
  induction l generalizing t with
  | nil => exact ht
  | cons a l ih => exact ih (h t a ht)

theorem onUnit_kept {s} {a0} {a1} {a2} (h : Kept s a2) : KeptNext s (onUnit a0 a1 a2) := by
  unfold onUnit
  repeat' with_reducible first
    | exact h | apply KeptNext.next | apply KeptNext.fault | apply KeptNext.ite
theorem onCore_kept {s} {a0} {a1} (h : Kept s a1) : KeptNext s (onCore a0 a1) := by
  unfold onCore
  repeat' with_reducible first
    | exact h | apply onUnit_kept
theorem wr_kept {s} {a0} {a1} {a2} {a3} (h : Kept s a0) : Kept s (wr a0 a1 a2 a3) := by
  unfold wr
  repeat' with_reducible apply Kept.upd h
theorem fdSet_kept {s} {a0} {a1} {a2} {a3} (h : Kept s a0) : Kept s (fdSet a0 a1 a2 a3) := by
  unfold fdSet
  repeat' with_reducible first
    | exact h | apply wr_kept
theorem setSeqSt_kept {s} {a0} {a1} {a2} {a3} (h : Kept s a0) : Kept s (setSeqSt a0 a1 a2 a3) := by
  unfold setSeqSt
  repeat' with_reducible first
    | exact h | apply fdSet_kept | apply Kept.ite
theorem send_kept {s} {a0} {a1} (h : Kept s a0) : Kept s (send a0 a1) := by
  unfold send
  repeat' with_reducible apply Kept.upd h
theorem irqEdge_kept {s} {a0 : State} {a1} {a2 : State} (h : Kept s a2) : Kept s (irqEdge a0 a1 a2) := by
  unfold irqEdge
  exact Kept.ite (send_kept h) h
theorem raiseInt_kept {s} {a0} {a1} {a2} (h : Kept s a0) : Kept s (raiseInt a0 a1 a2) := by
  unfold raiseInt
  repeat' with_reducible first
    | exact h | apply irqEdge_kept | apply wr_kept
theorem errAt_kept {s} {a0} {a1} {a2} {a3} {a4} {a5} {a6} (h : Kept s a0) : Kept s (errAt a0 a1 a2 a3 a4 a5 a6) := by
  unfold errAt
  repeat' with_reducible first
    | apply raiseInt_kept | apply Kept.ite | apply Kept.upd h
theorem coreErr_kept {s} {a0} {a1} {a2} {a3} {a4} {a5} {a6} (h : Kept s a0) : Kept s (coreErr a0 a1 a2 a3 a4 a5 a6) := by
  unfold coreErr
  repeat' first
    | with_reducible first
        | exact h | apply errAt_kept | apply raiseInt_kept
    | split
theorem setCore_kept {s} {a0} {a1} {a2} (h : Kept s a0) : Kept s (setCore a0 a1 a2) := by
  unfold setCore
  repeat' with_reducible apply Kept.upd h
theorem setSeq_kept {s} {a0} {a1} {a2} (h : Kept s a0) : Kept s (setSeq a0 a1 a2) := by
  unfold setSeq
  repeat' with_reducible first
    | exact h | apply setCore_kept
theorem setPc_kept {s} {a0} {a1} {a2} (h : Kept s a0) : Kept s (setPc a0 a1 a2) := by
  unfold setPc
  repeat' with_reducible first
    | exact h | apply fdSet_kept
theorem seqTrap_kept {s} {a0} {a1} {a2} {a3} (h : Kept s a0) : Kept s (seqTrap a0 a1 a2 a3) := by
  unfold seqTrap
  repeat' with_reducible first
    | exact h | apply setSeqSt_kept | apply fdSet_kept | apply coreErr_kept | apply setSeq_kept | apply setPc_kept | apply Kept.ite
theorem noArea_kept {s} {a0} {a1} {a2} (h : Kept s a0) : Kept s (noArea a0 a1 a2) := by
  unfold noArea
  repeat' with_reducible first
    | exact h | apply coreErr_kept
theorem wr64_kept {s} {a0} {a1} {a2} {a3} (h : Kept s a0) : Kept s (wr64 a0 a1 a2 a3) := by
  unfold wr64
  repeat' with_reducible first
    | exact h | apply wr_kept
theorem bumpBy_kept {s} {a0} {a1} {a2} {a3} (h : Kept s a0) : Kept s (bumpBy a0 a1 a2 a3) := by
  unfold bumpBy
  repeat' with_reducible first
    | exact h | apply wr64_kept | apply Kept.ite
theorem bump_kept {s} {a0} {a1} {a2} (h : Kept s a0) : Kept s (bump a0 a1 a2) := by
  unfold bump
  repeat' with_reducible first
    | exact h | apply bumpBy_kept
theorem retire_kept {s} {a0} {a1} {a2} (h : Kept s a0) : Kept s (retire a0 a1 a2) := by
  unfold retire
  repeat' with_reducible first
    | exact h | apply setPc_kept | apply bump_kept | apply setSeq_kept
theorem xset_kept {s} {a0} {a1} {a2} {a3} (h : Kept s a0) : Kept s (xset a0 a1 a2 a3) := by
  unfold xset
  repeat' with_reducible first
    | exact h | apply setSeq_kept | apply Kept.ite
theorem bankRefuse_kept {s} {a0} {a1} {a2} {a3} {a4} {a5} (h : Kept s a0) : Kept s (bankRefuse a0 a1 a2 a3 a4 a5) := by
  unfold bankRefuse
  repeat' with_reducible first
    | exact h | apply raiseInt_kept | apply errAt_kept
theorem setBank_kept {s} {a0} {a1} {a2} {a3} (h : Kept s a0) : Kept s (setBank a0 a1 a2 a3) := by
  unfold setBank
  repeat' with_reducible first
    | exact h | apply fdSet_kept
theorem bankAsk_kept {s} {a0} {a1} {a2} {a3} (h : Kept s a0) : Kept s (bankAsk a0 a1 a2 a3).1 := by
  unfold bankAsk
  repeat' first
    | with_reducible first
        | exact h | apply bankRefuse_kept | apply bump_kept | apply setBank_kept
    | split
    | (dsimp only; split)
theorem noteFlips_kept {s} {a0} {a1} {a2} {a3} (h : Kept s a0) : Kept s (noteFlips a0 a1 a2 a3) := by
  unfold noteFlips
  repeat' with_reducible first
    | exact h | apply setCore_kept | apply Kept.ite
theorem watch_kept {s} {a0} {a1} {a2} {a3} (h : Kept s a0) : Kept s (watch a0 a1 a2 a3) := by
  unfold watch
  repeat' with_reducible apply Kept.upd h
theorem spadCorrected_kept {s} {a0} {a1} {a2} {a3} (h : Kept s a0) : Kept s (spadCorrected a0 a1 a2 a3) := by
  unfold spadCorrected
  repeat' with_reducible first
    | exact h | apply watch_kept | apply bump_kept
theorem capCount_kept {s} {a0} {a1} (h : Kept s a0) : Kept s (capCount a0 a1) := by
  unfold capCount
  repeat' with_reducible first
    | exact h | apply Kept.ite | apply Kept.upd h
theorem report_kept {s} {a0} {a1} (h : Kept s a0) : Kept s (report a0 a1) := by
  unfold report
  repeat' first
    | with_reducible first
        | apply capCount_kept | apply Kept.ite | apply Kept.upd h
    | split
theorem reportCore_kept {s} {a0} {a1} {a2} {a3} {a4} {a5} (h : Kept s a0) : Kept s (reportCore a0 a1 a2 a3 a4 a5) := by
  unfold reportCore
  repeat' with_reducible first
    | exact h | apply report_kept
theorem storeWord_kept {s} {a0} {a1} {a2} {a3} {a4} (h : Kept s a0) : Kept s (storeWord a0 a1 a2 a3 a4) := by
  unfold storeWord
  repeat' with_reducible first
    | exact h | apply setCore_kept
theorem applyWord_kept {s} {a0} {a1} {a2} {a3} {a4} (h : Kept s a0) : Kept s (applyWord a0 a1 a2 a3 a4) := by
  unfold applyWord
  repeat' with_reducible first
    | exact h | apply storeWord_kept | apply setCore_kept
theorem spadUncorrectable_kept {s} {a0} {a1} {a2} {a3} {a4} (h : Kept s a0) : Kept s (spadUncorrectable a0 a1 a2 a3 a4) := by
  unfold spadUncorrectable
  repeat' with_reducible first
    | exact h | apply bump_kept | apply fdSet_kept | apply reportCore_kept | apply raiseInt_kept | apply errAt_kept | apply applyWord_kept
    | apply Kept.ite
theorem spadFetch_kept {s} {a0} {a1} {a2} {a3} {a4} (h : Kept s a0) : Kept s (spadFetch a0 a1 a2 a3 a4).1 := by
  unfold spadFetch
  repeat' first
    | with_reducible first
        | exact h | apply noteFlips_kept | apply bump_kept | apply spadCorrected_kept | apply setCore_kept | apply spadUncorrectable_kept
    | split
    | (dsimp only; split)
theorem spadRead_kept {s} {a0} {a1} {a2} {a3} {a4} (h : Kept s a0) : Kept s (spadRead a0 a1 a2 a3 a4).1 := by
  unfold spadRead
  repeat' first
    | with_reducible first
        | exact h | apply bankAsk_kept | apply spadFetch_kept | refine Kept.fst (by assumption) ?_
    | split
theorem setMx_kept {s} {a0} {a1} {a2} (h : Kept s a0) : Kept s (setMx a0 a1 a2) := by
  unfold setMx
  repeat' with_reducible first
    | exact h | apply setSeq_kept
theorem qErr_kept {s} {a0} {a1} {a2} {a3} {a4} {a5} {a6} (h : Kept s a0) : Kept s (qErr a0 a1 a2 a3 a4 a5 a6) := by
  unfold qErr
  repeat' with_reducible first
    | exact h | apply raiseInt_kept | apply errAt_kept
theorem qxPopRefused_kept {s} {a0} {a1} {a2} (h : Kept s a0) : Kept s (qxPopRefused a0 a1 a2) := by
  unfold qxPopRefused
  repeat' with_reducible first
    | exact h | apply qErr_kept
theorem setQe_kept {s} {a0} {a1} {a2} (h : Kept s a0) : Kept s (setQe a0 a1 a2) := by
  unfold setQe
  repeat' with_reducible first
    | exact h | apply setCore_kept
theorem setSlot_kept {s} {a0} {a1} {a2} {a3} (h : Kept s a0) : Kept s (setSlot a0 a1 a2 a3) := by
  unfold setSlot
  repeat' with_reducible first
    | exact h | apply setQe_kept
theorem ringRelease_kept {s} {a0} {a1} {a2} (h : Kept s a0) : Kept s (ringRelease a0 a1 a2) := by
  unfold ringRelease
  repeat' with_reducible first
    | exact h | apply setSlot_kept
theorem jFree_kept {s} {a0} {a1} {a2} (h : Kept s a0) : Kept s (jFree a0 a1 a2) := by
  unfold jFree
  repeat' with_reducible first
    | exact h | apply setSlot_kept
theorem jRelease_kept {s} {a0} {a1} {a2} (h : Kept s a0) : Kept s (jRelease a0 a1 a2) := by
  unfold jRelease
  repeat' with_reducible first
    | exact h | apply jFree_kept | apply Kept.ite
theorem popSlot_kept {s} {a0} {a1} {a2} (h : Kept s a0) : Kept s (popSlot a0 a1 a2).1 := by
  unfold popSlot
  repeat' first
    | with_reducible first
        | exact h | apply setSlot_kept | apply ringRelease_kept | apply jRelease_kept
    | split
    | (dsimp only; split)
theorem setLink_kept {s} {a0} {a1} {a2} {a3} (h : Kept s a0) : Kept s (setLink a0 a1 a2 a3) := by
  unfold setLink
  repeat' with_reducible first
    | exact h | apply setCore_kept
theorem popTok_kept {s} {a0} {a1} {a2} (h : Kept s a0) : Kept s (popTok a0 a1 a2) := by
  unfold popTok
  repeat' first
    | with_reducible first
        | exact h | apply setLink_kept | apply Kept.ite
    | split
theorem winLoad_kept {s} {a0} {a1} {a2} (h : Kept s a0) : Kept s (winLoad a0 a1 a2).1 := by
  unfold winLoad
  repeat' first
    | with_reducible first
        | exact h | apply setMx_kept | apply qxPopRefused_kept | apply popSlot_kept | apply setSeq_kept | apply popTok_kept
        | refine Kept.fst (by assumption) ?_
    | split
    | (dsimp only; split)
theorem seqLoad_kept {s} {a0} {a1} {a2} {a3} {a4} (h : Kept s a0) : Kept s (seqLoad a0 a1 a2 a3 a4).1 := by
  unfold seqLoad
  repeat' first
    | with_reducible first
        | exact h | apply spadRead_kept | apply setMx_kept | apply winLoad_kept | apply noArea_kept | refine Kept.fst (by assumption) ?_
    | split
    | (dsimp only; split)
theorem spadMerge_kept {s} {a0} {a1} {a2} {a3} {a4} {a5} {a6} {a7} (h : Kept s a0) : Kept s (spadMerge a0 a1 a2 a3 a4 a5 a6 a7).1 := by
  unfold spadMerge
  repeat' first
    | with_reducible first
        | exact h | apply bump_kept | apply noteFlips_kept | apply spadUncorrectable_kept | apply spadCorrected_kept | apply Kept.ite
    | split
theorem spadApply_kept {s} {a0} {a1} {a2} {a3} {a4} {a5} {a6} {a7} (h : Kept s a0) : Kept s (spadApply a0 a1 a2 a3 a4 a5 a6 a7) := by
  unfold spadApply
  repeat' with_reducible first
    | exact h | apply spadMerge_kept | apply applyWord_kept
theorem spadWrite_kept {s} {a0} {a1} {a2} {a3} {a4} {a5} {a6} {a7} (h : Kept s a0) : Kept s (spadWrite a0 a1 a2 a3 a4 a5 a6 a7).1 := by
  unfold spadWrite
  repeat' first
    | with_reducible first
        | exact h | apply bankAsk_kept | apply spadApply_kept | refine Kept.fst (by assumption) ?_
    | split
theorem emitTok_kept {s} {a0} {a1} {a2} {a3} (h : Kept s a0) : Kept s (emitTok a0 a1 a2 a3) := by
  unfold emitTok
  repeat' with_reducible first
    | exact h | exact Kept.refl _ | apply setLink_kept | (intro _) | apply Kept.folds
theorem takeCredits_kept {s} {a0} {a1} {a2} {a3} (h : Kept s a0) : Kept s (takeCredits a0 a1 a2 a3) := by
  unfold takeCredits
  repeat' with_reducible first
    | exact h | exact Kept.refl _ | apply setLink_kept | (intro _) | apply Kept.folds
theorem stallCount_kept {s} {a0} {a1} {a2} (h : Kept s a0) : Kept s (stallCount a0 a1 a2) := by
  unfold stallCount
  repeat' first
    | with_reducible first
        | exact h | apply bump_kept | apply Kept.ite
    | split
theorem winStore_kept {s} {a0} {a1} {a2} {a3} (h : Kept s a0) : Kept s (winStore a0 a1 a2 a3).1 := by
  unfold winStore
  repeat' first
    | with_reducible first
        | exact h | apply setMx_kept | apply emitTok_kept | apply takeCredits_kept | apply stallCount_kept | apply raiseInt_kept
        | apply fdSet_kept | apply setSeq_kept
    | split
    | (dsimp only; split)
theorem seqStore_kept {s} {a0} {a1} {a2} {a3} {a4} {a5} (h : Kept s a0) : Kept s (seqStore a0 a1 a2 a3 a4 a5).1 := by
  unfold seqStore
  repeat' first
    | with_reducible first
        | exact h | apply setSeq_kept | apply spadWrite_kept | apply winStore_kept | apply noArea_kept
        | refine Kept.fst (by assumption) ?_
    | split
    | (dsimp only; split)
theorem seqEcall_kept {s} {a0} {a1} {a2} (h : Kept s a0) : Kept s (seqEcall a0 a1 a2) := by
  unfold seqEcall
  repeat' with_reducible first
    | exact h | apply raiseInt_kept | apply setSeqSt_kept | apply setPc_kept
theorem freeUsed_kept {s} {a0} (h : Kept s a0) : Kept s (freeUsed a0) := by
  unfold freeUsed
  repeat' with_reducible apply Kept.upd h
theorem cycleOn_kept {s} {a0} {a1} (h : Kept s a0) : Kept s (cycleOn a0 a1) := by
  unfold cycleOn
  repeat' with_reducible first
    | exact h | apply setSeq_kept | apply freeUsed_kept
theorem csrRead_kept {s a0 : State} {c n : Nat} {t : State} {v : Word} (h : Kept s a0) (e : csrRead a0 c n = some (t, v)) : Kept s t := by
  have : t = a0 ∨ t = cycleOn a0 c := by
    unfold csrRead at e
    split at e <;> first | (cases e; exact .inr rfl) | (cases e; exact .inl rfl) | cases e
  rcases this with rfl | rfl
  · exact h
  · exact cycleOn_kept h
theorem csrWrite_kept {s a0 : State} {c n : Nat} {v : Word} {t : State} (h : Kept s a0) (e : csrWrite a0 c n v = some t) : Kept s t := by
  unfold csrWrite at e
  split at e <;> first | (cases e; exact setSeq_kept h) | cases e
theorem seqCsr_kept {s} {a0} {a1} {a2} {a3} (h : Kept s a0) : Kept s (seqCsr a0 a1 a2 a3) := by
  unfold seqCsr
  dsimp only
  split
  · exact seqTrap_kept h
  · have h' := csrRead_kept h (by assumption)
    split
    · split
      · exact seqTrap_kept h
      · exact retire_kept (xset_kept (csrWrite_kept h' (by assumption)))
    · exact retire_kept (xset_kept h')
theorem seqFinish_kept {s} {a0} {a1} {a2} {a3} {a4} (h : Kept s a0) : Kept s (seqFinish a0 a1 a2 a3 a4) := by
  unfold seqFinish
  repeat' with_reducible first
    | exact h | apply xset_kept | apply setSeq_kept | apply retire_kept | apply setSeqSt_kept
theorem napEnd_kept {s} {a0} {a1} {a2} (h : Kept s a0) : Kept s (napEnd a0 a1 a2) := by
  unfold napEnd
  repeat' with_reducible first
    | exact h | apply bump_kept | apply setSeq_kept | apply seqFinish_kept | apply Kept.ite
theorem seqWait_kept {s} {a0} {a1} {a2} {a3} {a4} (h : Kept s a0) : Kept s (seqWait a0 a1 a2 a3 a4) := by
  unfold seqWait
  repeat' with_reducible first
    | exact h | apply setSeqSt_kept | apply setSeq_kept
theorem seqNap_kept {s} {a0} {a1} {a2} {a3} (h : Kept s a0) : Kept s (seqNap a0 a1 a2 a3) := by
  unfold seqNap
  repeat' with_reducible first
    | exact h | apply napEnd_kept | apply seqWait_kept | apply Kept.ite
theorem seqDone_kept {s} {a0} {a1} {a2} {a3} {a4} (h : Kept s a0) : Kept s (seqDone a0 a1 a2 a3 a4) := by
  unfold seqDone
  repeat' with_reducible first
    | exact h | apply seqFinish_kept
theorem qpopGive_kept {s} {a0} {a1} {a2} {a3} {a4} (h : Kept s a0) : Kept s (qpopGive a0 a1 a2 a3 a4) := by
  unfold qpopGive
  repeat' with_reducible first
    | exact h | apply setSeq_kept | apply seqFinish_kept
theorem seqQpop_kept {s} {a0} {a1} {a2} {a3} (h : Kept s a0) : Kept s (seqQpop a0 a1 a2 a3) := by
  unfold seqQpop
  repeat' first
    | with_reducible first
        | exact h | apply seqDone_kept | apply qxPopRefused_kept | apply popSlot_kept | apply qpopGive_kept | apply seqWait_kept
        | apply Kept.ite | refine Kept.fst (by assumption) ?_
    | split
theorem qselGive_kept {s} {a0} {a1} {a2} {a3} {a4} (h : Kept s a0) : Kept s (qselGive a0 a1 a2 a3 a4) := by
  unfold qselGive
  repeat' with_reducible first
    | exact h | apply setSeq_kept | apply seqFinish_kept
theorem seqQsel_kept {s} {a0} {a1} {a2} {a3} {a4} (h : Kept s a0) : Kept s (seqQsel a0 a1 a2 a3 a4) := by
  unfold seqQsel
  repeat' first
    | with_reducible first
        | exact h | apply qselGive_kept | apply seqDone_kept | apply seqWait_kept
    | split
    | (dsimp only; split)
theorem rangeAsk_kept {s} {a0} {a1} {a2} (h : Kept s a0) : Kept s (rangeAsk a0 a1 a2).1 := by
  unfold rangeAsk
  repeat' first
    | with_reducible first
        | exact h | apply raiseInt_kept | apply errAt_kept | apply setCore_kept
    | split
    | (dsimp only; split)
theorem enterMsg_kept {s} {a0} {a1} {a2} {a3} {a4} {a5} {a6} (h : Kept s a0) : Kept s (enterMsg a0 a1 a2 a3 a4 a5 a6).1 := by
  unfold enterMsg
  repeat' first
    | with_reducible first
        | exact h | apply setQe_kept | apply rangeAsk_kept | refine Kept.fst (by assumption) ?_
    | split
    | (dsimp only; split)
theorem issue_kept {s} {a0} {a1} (h : Kept s a0) : Kept s (issue a0 a1).1 := by
  unfold issue
  repeat' with_reducible first
    | exact h | apply setSeq_kept
theorem seqQsend_kept {s} {a0} {a1} {a2} {a3} {a4} (h : Kept s a0) : Kept s (seqQsend a0 a1 a2 a3 a4) := by
  unfold seqQsend
  repeat' with_reducible first
    | exact h | apply seqDone_kept | apply enterMsg_kept | apply issue_kept | apply Kept.ite
theorem setChan_kept {s} {a0} {a1} {a2} {a3} (h : Kept s a0) : Kept s (setChan a0 a1 a2 a3) := by
  unfold setChan
  repeat' with_reducible first
    | exact h | apply setQe_kept
theorem inject_kept {s} {a0} {a1} {a2} (h : Kept s a0) : Kept s (inject a0 a1 a2) := by
  unfold inject
  repeat' with_reducible first
    | exact h | apply setQe_kept
theorem seqChopen_kept {s} {a0} {a1} {a2} {a3} {a4} (h : Kept s a0) : Kept s (seqChopen a0 a1 a2 a3 a4) := by
  unfold seqChopen
  generalize lowest1024 _ = o
  cases o with
  | none => exact seqDone_kept h
  | some i => exact inject_kept (seqWait_kept (setChan_kept h))
theorem noticeOut_kept {s} {a0} {a1} {a2} {a3} (h : Kept s a0) : Kept s (noticeOut a0 a1 a2 a3) := by
  unfold noticeOut
  repeat' with_reducible first
    | exact h | apply send_kept | apply Kept.ite
theorem closeSettle_kept {s} {a0} {a1} {a2} (h : Kept s a0) : Kept s (closeSettle a0 a1 a2) := by
  unfold closeSettle
  repeat' with_reducible first
    | exact h | apply setChan_kept | apply noticeOut_kept | apply Kept.ite
theorem chClose_kept {s} {a0} {a1} {a2} (h : Kept s a0) : Kept s (chClose a0 a1 a2).1 := by
  unfold chClose
  repeat' first
    | with_reducible first
        | exact h | apply closeSettle_kept | apply setChan_kept
    | (dsimp only; split)
theorem rangeGrant_kept {s} {a0} {a1} {a2} (h : Kept s a0) : Kept s (rangeGrant a0 a1 a2) := by
  unfold rangeGrant
  repeat' first
    | with_reducible first
        | exact h | apply setCore_kept | apply Kept.ite
    | (dsimp only; split)
theorem rangeTake_kept {s} {a0} {a1} {a2} (h : Kept s a0) : Kept s (rangeTake a0 a1 a2).1 := by
  unfold rangeTake
  repeat' first
    | with_reducible first
        | exact h | apply rangeGrant_kept | apply rangeAsk_kept | refine Kept.fst (by assumption) ?_
    | split
    | (dsimp only; split)
theorem spadReadAll_kept {s} {a0} {a1} {a2} {a3} {a4} (h : Kept s a0) : Kept s (spadReadAll a0 a1 a2 a3 a4).1 := by
  fun_induction spadReadAll
  repeat' with_reducible first
    | exact h | apply spadRead_kept | refine Kept.fst (by assumption) ?_ | apply_assumption
theorem spadReadEcc_kept {s} {a0} {a1} {a2} {a3} {a4} {a5} (h : Kept s a0) : Kept s (spadReadEcc a0 a1 a2 a3 a4 a5).1 := by
  unfold spadReadEcc
  repeat' first
    | with_reducible first
        | exact h | apply spadRead_kept | apply spadReadAll_kept | refine Kept.fst (by assumption) ?_
    | split
theorem dmaErr_kept {s} {a0} {a1} {a2} {a3} {a4} {a5} (h : Kept s a0) : Kept s (dmaErr a0 a1 a2 a3 a4 a5) := by
  unfold dmaErr
  repeat' with_reducible first
    | exact h | apply raiseInt_kept | apply errAt_kept
theorem rangeRelease_kept {s} {a0} {a1} {a2} {a3} (h : Kept s a0) : Kept s (rangeRelease a0 a1 a2 a3) := by
  unfold rangeRelease
  repeat' with_reducible first
    | exact h | apply setCore_kept
theorem dmaGo_kept {s} {a0} {a1} {a2} {a3} {a4} (h : Kept s a0) : Kept s (dmaGo a0 a1 a2 a3 a4) := by
  unfold dmaGo
  repeat' first
    | with_reducible first
        | exact h | apply seqDone_kept | apply coreErr_kept | apply rangeTake_kept | apply spadReadEcc_kept | apply dmaErr_kept
        | apply rangeRelease_kept | apply issue_kept | apply setCore_kept | apply Kept.ite | refine Kept.fst (by assumption) ?_
    | split
theorem setFab_kept {s} {a0} {a1} {a2} (h : Kept s a0) : Kept s (setFab a0 a1 a2) := by
  unfold setFab
  repeat' with_reducible first
    | exact h | apply setCore_kept
theorem startCheck_kept {s} {a0} {a1} {a2} (h : Kept s a0) : Kept s (startCheck a0 a1 a2) := by
  unfold startCheck
  repeat' with_reducible first
    | exact h | apply fdSet_kept | apply setFab_kept | apply Kept.ite
theorem setOutcome_kept {s} {a0} {a1} {a2} {a3} (h : Kept s a0) : Kept s (setOutcome a0 a1 a2 a3) := by
  unfold setOutcome
  repeat' with_reducible first
    | exact h | apply setSeq_kept
theorem qyPurge_kept {s} {a0} {a1} {a2} (h : Kept s a0) : Kept s (qyPurge a0 a1 a2) := by
  unfold qyPurge
  repeat' with_reducible first
    | exact h | apply setQe_kept | apply setOutcome_kept | apply qErr_kept | apply Kept.ite
theorem cfgswDone_kept {s} {a0} {a1} {a2} (h : Kept s a0) : Kept s (cfgswDone a0 a1 a2) := by
  unfold cfgswDone
  repeat' first
    | with_reducible first
        | exact h | apply setFab_kept | apply fdSet_kept | apply seqFinish_kept
    | (dsimp only; split)
theorem setCu_kept {s} {a0} {a1} {a2} {a3} (h : Kept s a0) : Kept s (setCu a0 a1 a2 a3) := by
  unfold setCu
  repeat' with_reducible first
    | exact h | apply setCore_kept
theorem updConsts_kept {s} {a0} {a1} {a2} (h : Kept s a0) : Kept s (updConsts a0 a1 a2).1 := by
  unfold updConsts
  repeat' first
    | with_reducible first
        | exact h | apply setCu_kept | apply coreErr_kept | apply rangeTake_kept | apply spadReadAll_kept | apply rangeRelease_kept
        | apply Kept.ite | refine Kept.fst (by assumption) ?_
    | split
    | (dsimp only; split)
theorem startLinks_kept {s} {a0} {a1} (h : Kept s a0) : Kept s (startLinks a0 a1) := by
  unfold startLinks
  repeat' with_reducible first
    | exact h | apply setCore_kept
theorem startFlow_kept {s} {a0} {a1} (h : Kept s a0) : Kept s (startFlow a0 a1) := by
  unfold startFlow
  repeat' with_reducible first
    | exact h | exact Kept.refl _ | apply updConsts_kept | apply startLinks_kept | (intro _) | apply Kept.ite | apply Kept.folds
theorem cfgswFinish_kept {s} {a0} {a1} (h : Kept s a0) : Kept s (cfgswFinish a0 a1) := by
  unfold cfgswFinish
  repeat' first
    | with_reducible first
        | exact h | apply fdSet_kept | apply setFab_kept | apply cfgswDone_kept | apply bump_kept | apply startFlow_kept | apply Kept.ite
    | split
theorem setArr_kept {s} {a0} {a1} {a2} (h : Kept s a0) : Kept s (setArr a0 a1 a2) := by
  unfold setArr
  repeat' with_reducible first
    | exact h | apply setCore_kept
theorem arrSwitch_kept {s} {a0} {a1} {a2} {a3} {a4} (h : Kept s a0) : Kept s (arrSwitch a0 a1 a2 a3 a4) := by
  unfold arrSwitch
  repeat' with_reducible first
    | exact h | apply bump_kept | apply setArr_kept | apply Kept.ite
theorem startUnits_kept {s} {a0} {a1} (h : Kept s a0) : Kept s (startUnits a0 a1) := by
  unfold startUnits
  repeat' with_reducible first
    | exact h | exact Kept.refl _ | apply setCore_kept | apply rangeTake_kept | (intro _) | apply Kept.ite | apply Kept.folds
theorem activate_kept {s} {a0} {a1} {a2} (h : Kept s a0) : Kept s (activate a0 a1 a2) := by
  unfold activate
  repeat' with_reducible first
    | exact h | exact Kept.refl _ | apply arrSwitch_kept | apply rangeRelease_kept | apply fdSet_kept | apply startUnits_kept
    | apply setFab_kept | (intro _) | apply Kept.ite | apply Kept.folds
theorem purge_kept {s} {a0} {a1} (h : Kept s a0) : Kept s (purge a0 a1) := by
  unfold purge
  repeat' with_reducible first
    | exact h | exact Kept.refl _ | apply bumpBy_kept | apply qyPurge_kept | apply cfgswFinish_kept | apply activate_kept | (intro _)
    | apply Kept.folds
theorem cfgswAdvance_kept {s} {a0} {a1} (h : Kept s a0) : Kept s (cfgswAdvance a0 a1) := by
  unfold cfgswAdvance
  repeat' first
    | with_reducible first
        | exact h | apply fdSet_kept | apply startCheck_kept | apply purge_kept | apply Kept.ite
    | split
theorem cfgswIssue_kept {s} {a0} {a1} {a2} {a3} (h : Kept s a0) : Kept s (cfgswIssue a0 a1 a2 a3) := by
  unfold cfgswIssue
  repeat' with_reducible first
    | exact h | apply setSeq_kept | apply setSeqSt_kept | apply fdSet_kept | apply setFab_kept | apply cfgswAdvance_kept
theorem seqMile_kept {s} {a0} {a1} {a2} {a3} (h : Kept s a0) : Kept s (seqMile a0 a1 a2 a3) := by
  unfold seqMile
  repeat' with_reducible first
    | exact h | apply seqDone_kept | apply coreErr_kept | apply seqWait_kept | apply Kept.ite
theorem seqCustom_kept {s} {a0} {a1} {a2} {a3} (h : Kept s a0) : Kept s (seqCustom a0 a1 a2 a3) := by
  unfold seqCustom
  repeat' first
    | with_reducible first
        | exact h | apply seqTrap_kept | apply seqNap_kept | apply seqQpop_kept | apply seqQsel_kept | apply seqQsend_kept
        | apply seqChopen_kept | apply chClose_kept | apply seqDone_kept | apply dmaGo_kept | apply cfgswIssue_kept | apply seqMile_kept
        | apply Kept.ite
    | split
theorem seqBase_kept {s} {a0} {a1} {a2} {a3} {a4} (h : Kept s a0) : Kept s (seqBase a0 a1 a2 a3 a4) := by
  unfold seqBase
  repeat' first
    | with_reducible first
        | exact h | apply retire_kept | apply xset_kept | apply seqTrap_kept | apply seqLoad_kept | apply seqStore_kept
        | apply seqEcall_kept | apply seqCsr_kept | apply seqCustom_kept | apply Kept.ite | refine Kept.fst (by assumption) ?_
    | split
    | (dsimp only; split)
theorem seqIssue_kept {s} {a0} {a1} {a2} {a3} (h : Kept s a0) : Kept s (seqIssue a0 a1 a2 a3) := by
  unfold seqIssue
  repeat' first
    | with_reducible first
        | exact h | apply setSeqSt_kept | apply seqTrap_kept | apply noArea_kept | apply seqBase_kept | apply Kept.ite
    | split
theorem setNet_kept {s} {a0} {a1} {a2} (h : Kept s a0) : Kept s (setNet a0 a1 a2) := by
  unfold setNet
  repeat' with_reducible apply Kept.upd h
theorem takeEnd_kept {s} {a0} {a1} {a2} (h : Kept s a0) : Kept s (takeEnd a0 a1 a2) := by
  unfold takeEnd
  repeat' with_reducible first
    | exact h | apply setNet_kept
theorem setSlice_kept {s} {a0} {a1} {a2} (h : Kept s a0) : Kept s (setSlice a0 a1 a2) := by
  unfold setSlice
  repeat' with_reducible apply Kept.upd h
theorem memCorrected_kept {s} {a0} {a1} {a2} (h : Kept s a0) : Kept s (memCorrected a0 a1 a2) := by
  unfold memCorrected
  repeat' with_reducible first
    | exact h | apply watch_kept | apply bump_kept
theorem setErr_kept {s} {a0} {a1} {a2} (h : Kept s a0) : Kept s (setErr a0 a1 a2) := by
  unfold setErr
  repeat' with_reducible apply Kept.upd h
theorem setPoison_kept {s} {a0} {a1} {a2} (h : Kept s a0) : Kept s (setPoison a0 a1 a2) := by
  unfold setPoison
  repeat' with_reducible apply Kept.upd h
theorem blockUncorrectable_kept {s} {a0} {a1} {a2} {a3} {a4} {a5} (h : Kept s a0) : Kept s (blockUncorrectable a0 a1 a2 a3 a4 a5) := by
  unfold blockUncorrectable
  repeat' with_reducible first
    | exact h | apply setErr_kept | apply setPoison_kept | apply raiseInt_kept | apply errAt_kept | apply bump_kept | apply report_kept
theorem blockRead_kept {s} {a0} {a1} {a2} {a3} {a4} {a5} (h : Kept s a4) : Kept s (blockRead a0 a1 a2 a3 a4 a5) := by
  unfold blockRead
  repeat' first
    | with_reducible first
        | exact h | apply bump_kept | apply memCorrected_kept | apply setErr_kept | apply blockUncorrectable_kept
    | split
    | (dsimp only; split)
theorem noteErr_kept {s} {a0} {a1} {a2} {a3} (h : Kept s a0) : Kept s (noteErr a0 a1 a2 a3) := by
  unfold noteErr
  repeat' first
    | with_reducible first
        | exact h | apply setErr_kept | apply Kept.ite
    | split
theorem epAdd_kept {s} {a0} {a1} {a2} {a3} {a4} (h : Kept s a0) : Kept s (epAdd a0 a1 a2 a3 a4) := by
  unfold epAdd
  repeat' with_reducible first
    | exact h | apply wr_kept | apply setNet_kept | apply Kept.ite
theorem setRout_kept {s} {a0} {a1} {a2} (h : Kept s a0) : Kept s (setRout a0 a1 a2) := by
  unfold setRout
  repeat' with_reducible first
    | exact h | apply setCore_kept
theorem setBuf_kept {s} {a0} {a1} {a2} {a3} {a4} (h : Kept s a0) : Kept s (setBuf a0 a1 a2 a3 a4) := by
  unfold setBuf
  repeat' with_reducible first
    | exact h | apply setRout_kept
theorem bufPush_kept {s} {a0} {a1} {a2} {a3} (h : Kept s a0) : Kept s (bufPush a0 a1 a2 a3) := by
  unfold bufPush
  repeat' with_reducible first
    | exact h | apply setBuf_kept
theorem swPush_kept {s} {a0} {a1} {a2} {a3} (h : Kept s a0) : Kept s (swPush a0 a1 a2 a3) := by
  unfold swPush
  repeat' with_reducible first
    | exact h | apply setNet_kept
theorem sendFrom_kept {s} {a0} {a1} {a2} {a3} (h : Kept s a0) : Kept s (sendFrom a0 a1 a2 a3) := by
  unfold sendFrom
  repeat' with_reducible first
    | exact h | apply epAdd_kept | apply bufPush_kept | apply swPush_kept | apply Kept.ite
theorem sliceAnswer_kept {s} {a0} {a1} {a2} {a3} {a4} {a5} (h : Kept s a0) : Kept s (sliceAnswer a0 a1 a2 a3 a4 a5) := by
  unfold sliceAnswer
  repeat' first
    | with_reducible first
        | exact h | apply sendFrom_kept
    | split
theorem unqueue_kept {s} {a0} {a1} {a2} {a3} (h : Kept s a0) : Kept s (unqueue a0 a1 a2 a3) := by
  unfold unqueue
  repeat' with_reducible first
    | exact h | apply setSlice_kept
theorem readServe_kept {s} {a0} {a1} {a2} {a3} {a4} {a5} (h : Kept s a0) : Kept s (readServe a0 a1 a2 a3 a4 a5) := by
  unfold readServe
  repeat' with_reducible first
    | exact h | exact Kept.refl _ | apply blockRead_kept | apply noteErr_kept | apply sliceAnswer_kept | apply unqueue_kept | (intro _)
    | apply Kept.folds
theorem memWriteAt_kept {s} {a0} {a1} {a2} {a3} (h : Kept s a0) : Kept s (memWriteAt a0 a1 a2 a3) := by
  unfold memWriteAt
  repeat' with_reducible first
    | exact Kept.refl _ | apply setErr_kept | apply setPoison_kept | (intro _) | apply Kept.folds
    | exact h.trans ⟨rfl, rfl, rfl, fun m => memWf_memPutAll m _ _⟩
theorem mirror_kept {s} {a0} {a1} {a2} {a3} (h : Kept s a0) : Kept s (mirror a0 a1 a2 a3) := by
  unfold mirror
  repeat' with_reducible first
    | exact h | exact Kept.refl _ | apply bump_kept | apply memWriteAt_kept | (intro _) | apply Kept.ite | apply Kept.folds
theorem markDirect_kept {s} {a0} {a1} {a2} (h : Kept s a0) : Kept s (markDirect a0 a1 a2) := by
  unfold markDirect
  repeat' with_reducible first
    | exact h | apply setSlice_kept | apply Kept.ite
theorem writeServe_kept {s} {a0} {a1} {a2} {a3} {a4} (h : Kept s a0) : Kept s (writeServe a0 a1 a2 a3 a4) := by
  unfold writeServe
  repeat' with_reducible first
    | exact h | exact Kept.refl _ | apply blockRead_kept | apply noteErr_kept | apply memWriteAt_kept | apply mirror_kept
    | apply markDirect_kept | apply sliceAnswer_kept | apply unqueue_kept | (intro _) | apply Kept.folds
theorem serveOne_kept {s} {a0} {a1} (h : Kept s a0) : Kept s (serveOne a0 a1) := by
  unfold serveOne
  repeat' first
    | with_reducible first
        | exact h | apply readServe_kept | apply writeServe_kept | apply Kept.ite
    | (dsimp only; split)
theorem serveAll_kept {s} {a0} {a1} (h : Kept s a0) : Kept s (serveAll a0 a1) := by
  unfold serveAll
  repeat' with_reducible first
    | exact h | exact Kept.refl _ | apply serveOne_kept | (intro _) | apply Kept.folds
theorem settle_kept {s} {a0} {a1} {a2} (h : Kept s a0) : Kept s (settle a0 a1 a2) := by
  unfold settle
  repeat' with_reducible first
    | exact h | apply serveAll_kept | apply Kept.ite
theorem setPort_kept {s} {a0} {a1} {a2} (h : Kept s a0) : Kept s (setPort a0 a1 a2) := by
  unfold setPort
  repeat' with_reducible apply Kept.upd h
theorem twinSend_kept {s} {a0} {a1} {a2} (h : Kept s a0) : Kept s (twinSend a0 a1 a2) := by
  unfold twinSend
  repeat' with_reducible first
    | exact h | apply setPort_kept
theorem sendJ_kept {s} {a0} {a1} {a2} (h : Kept s a0) : Kept s (sendJ a0 a1 a2) := by
  unfold sendJ
  repeat' first
    | with_reducible first
        | exact h | apply twinSend_kept | apply bump_kept
    | (dsimp only; split)
theorem setStream_kept {s} {a0} {a1} {a2} (h : Kept s a0) : Kept s (setStream a0 a1 a2) := by
  unfold setStream
  repeat' with_reducible apply Kept.upd h
theorem journalAdd_kept {s} {a0} {a1} {a2} (h : Kept s a0) : Kept s (journalAdd a0 a1 a2) := by
  unfold journalAdd
  repeat' with_reducible first
    | exact h | apply sendJ_kept | apply setStream_kept
theorem journalWrite_kept {s} {a0} {a1} {a2} {a3} {a4} (h : Kept s a0) : Kept s (journalWrite a0 a1 a2 a3 a4) := by
  unfold journalWrite
  repeat' with_reducible first
    | exact h | apply journalAdd_kept | apply Kept.ite
theorem memApply_kept {s} {a0} {a1} {a2} {a3} {a4} {a5} (h : Kept s a0) : Kept s (memApply a0 a1 a2 a3 a4 a5) := by
  unfold memApply
  repeat' with_reducible first
    | exact h | exact Kept.refl _ | apply bump_kept | apply settle_kept | apply journalWrite_kept | apply blockRead_kept
    | apply mirror_kept | apply markDirect_kept | apply memWriteAt_kept | (intro _) | apply Kept.folds
theorem memWrite_kept {s} {a0} {a1} {a2} {a3} {a4} {a5} (h : Kept s a0) : Kept s (memWrite a0 a1 a2 a3 a4 a5) := by
  unfold memWrite
  repeat' with_reducible first
    | exact h | apply setSlice_kept | apply memApply_kept | apply Kept.ite
theorem rewriteRange_kept {s} {a0} {a1} {a2} {a3} {a4} (h : Kept s a0) : Kept s (rewriteRange a0 a1 a2 a3 a4) := by
  unfold rewriteRange
  repeat' with_reducible first
    | exact h | exact Kept.refl _ | apply memWrite_kept | (intro _) | apply Kept.ite | apply Kept.folds
theorem signpostUpdate_kept {s} {a0} {a1} (h : Kept s a0) : Kept s (signpostUpdate a0 a1) := by
  unfold signpostUpdate
  repeat' with_reducible first
    | exact h | apply takeEnd_kept | apply rewriteRange_kept | apply Kept.ite | apply Kept.upd
theorem setTwin_kept {s} {a0} {a1} (h : Kept s a0) : Kept s (setTwin a0 a1) := by
  unfold setTwin
  repeat' with_reducible apply Kept.upd h
theorem setPst_kept {s} {a0} {a1} (h : Kept s a0) : Kept s (setPst a0 a1) := by
  unfold setPst
  repeat' with_reducible first
    | exact h | apply fdSet_kept
theorem setHub_kept {s} {a0} {a1} (h : Kept s a0) : Kept s (setHub a0 a1) := by
  unfold setHub
  repeat' with_reducible apply Kept.upd h
theorem pktErr_kept {s} {a0} {a1} {a2} {a3} {a4} {a5} (h : Kept s a0) : Kept s (pktErr a0 a1 a2 a3 a4 a5) := by
  unfold pktErr
  repeat' with_reducible first
    | exact h | apply raiseInt_kept | apply errAt_kept
theorem xAdd_kept {s} {a0} {a1} {a2} {a3} (h : Kept s a0) : Kept s (xAdd a0 a1 a2 a3) := by
  unfold xAdd
  repeat' with_reducible first
    | exact h | apply wr_kept
theorem xepDrop_kept {s} {a0} {a1} {a2} {a3} {a4} {a5} (h : Kept s a0) : Kept s (xepDrop a0 a1 a2 a3 a4 a5) := by
  unfold xepDrop
  repeat' with_reducible first
    | exact h | apply pktErr_kept | apply bump_kept | apply xAdd_kept | apply Kept.ite
theorem xDrop_kept {s} {a0} {a1} {a2} (h : Kept s a0) : Kept s (xDrop a0 a1 a2) := by
  unfold xDrop
  repeat' with_reducible first
    | exact h | apply xAdd_kept | apply Kept.ite
theorem noRoute_kept {s} {a0} {a1} {a2} (h : Kept s a0) : Kept s (noRoute a0 a1 a2) := by
  unfold noRoute
  repeat' with_reducible first
    | exact h | apply pktErr_kept | apply bump_kept | apply xDrop_kept
theorem routeOut_kept {s} {a0} {a1} {a2} {a3} {a4} {a5} {a6} (h : Kept s a0) : Kept s (routeOut a0 a1 a2 a3 a4 a5 a6) := by
  unfold routeOut
  repeat' with_reducible first
    | exact h | apply bump_kept | apply xAdd_kept | apply setPort_kept | apply Kept.ite
theorem routeControl_kept {s} {a0} {a1} {a2} {a3} (h : Kept s a0) : Kept s (routeControl a0 a1 a2 a3) := by
  unfold routeControl
  repeat' first
    | with_reducible first
        | exact h | apply xepDrop_kept | apply noRoute_kept | apply routeOut_kept | apply bump_kept | apply Kept.ite
    | split
theorem controlSend_kept {s} {a0} {a1} (h : Kept s a0) : Kept s (controlSend a0 a1) := by
  unfold controlSend
  repeat' with_reducible first
    | exact h | apply routeControl_kept | apply Kept.ite
theorem noticeSend_kept {s} {a0} {a1} (h : Kept s a0) : Kept s (noticeSend a0 a1) := by
  unfold noticeSend
  repeat' with_reducible first
    | exact h | apply send_kept | apply controlSend_kept
theorem postNotice_kept {s} {a0} {a1} (h : Kept s a0) : Kept s (postNotice a0 a1) := by
  unfold postNotice
  repeat' with_reducible first
    | exact h | apply setHub_kept | apply noticeSend_kept | apply Kept.ite
theorem postAll_kept {s} {a0} {a1} {a2} (h : Kept s a0) : Kept s (postAll a0 a1 a2) := by
  unfold postAll
  repeat' with_reducible first
    | exact h | exact Kept.refl _ | apply postNotice_kept | (intro _) | apply Kept.folds
theorem twinRefused_kept {s} {a0} {a1} {a2} {a3} (h : Kept s a0) : Kept s (twinRefused a0 a1 a2 a3) := by
  unfold twinRefused
  repeat' with_reducible first
    | exact h | apply raiseInt_kept | apply errAt_kept | apply bump_kept
theorem denyFabric_kept {s} {a0} {a1} (h : Kept s a0) : Kept s (denyFabric a0 a1) := by
  unfold denyFabric
  repeat' with_reducible first
    | exact h | apply bump_kept | apply Kept.ite
theorem reqRefused_kept {s} {a0} {a1} {a2} {a3} (h : Kept s a0) : Kept s (reqRefused a0 a1 a2 a3) := by
  unfold reqRefused
  repeat' with_reducible first
    | exact h | apply raiseInt_kept | apply errAt_kept | apply bump_kept | apply denyFabric_kept | apply Kept.ite
theorem applyRec_kept {s} {a0} {a1} {a2} (h : Kept s a0) : Kept s (applyRec a0 a1 a2) := by
  unfold applyRec
  repeat' with_reducible first
    | exact h | exact Kept.refl _ | apply twinRefused_kept | apply reqRefused_kept | apply bump_kept | apply settle_kept
    | apply blockRead_kept | apply mirror_kept | apply markDirect_kept | apply memWriteAt_kept | (intro _) | apply Kept.ite
    | apply Kept.folds
theorem shadowApply_kept {s} {a0} {a1} (h : Kept s a0) : Kept s (shadowApply a0 a1) := by
  unfold shadowApply
  repeat' with_reducible first
    | exact h | exact Kept.refl _ | apply applyRec_kept | apply setStream_kept | apply fdSet_kept | (intro _) | apply Kept.ite
    | apply Kept.folds
theorem bindCore_kept {s} {a0} {a1} {a2} {a3} (h : Kept s a0) : Kept s (bindCore a0 a1 a2 a3) := by
  unfold bindCore
  repeat' with_reducible first
    | exact h | exact Kept.refl _ | apply wr_kept | (intro _) | apply Kept.ite | apply Kept.folds
theorem signPut_kept {s} {a0} {a1} {a2} (h : Kept s a0) : Kept s (signPut a0 a1 a2) := by
  unfold signPut
  repeat' with_reducible first
    | exact h | exact Kept.refl _ | apply memWrite_kept | (intro _) | apply Kept.folds
theorem setCtx_kept {s} {a0} {a1} {a2} (h : Kept s a0) : Kept s (setCtx a0 a1 a2) := by
  unfold setCtx
  repeat' with_reducible first
    | exact h | apply setHub_kept
theorem signpostInvalidate_kept {s} {a0} {a1} {a2} (h : Kept s a0) : Kept s (signpostInvalidate a0 a1 a2) := by
  unfold signpostInvalidate
  repeat' with_reducible first
    | exact h | apply Kept.ite | apply Kept.upd h
theorem invalAll_kept {s} {a0} (h : Kept s a0) : Kept s (invalAll a0) := by
  unfold invalAll
  repeat' with_reducible first
    | exact h | apply signpostInvalidate_kept
theorem swapPlan_kept {s} {a0} {a1} {a2} (h : Kept s a0) : Kept s (swapPlan a0 a1 a2) := by
  unfold swapPlan
  repeat' with_reducible first
    | exact h | exact Kept.refl _ | apply wr_kept | apply bindCore_kept | apply signPut_kept | apply setCtx_kept | apply invalAll_kept
    | (intro _) | apply Kept.ite | apply Kept.folds
theorem sendUpdate_kept {s} {a0} {a1} {a2} {a3} {a4} {a5} {a6} (h : Kept s a0) : Kept s (sendUpdate a0 a1 a2 a3 a4 a5 a6) := by
  unfold sendUpdate
  repeat' with_reducible first
    | exact h | apply send_kept | apply controlSend_kept
theorem claimEns_kept {s} {a0} {a1} {a2} {a3} {a4} (h : Kept s a0) : Kept s (claimEns a0 a1 a2 a3 a4) := by
  unfold claimEns
  repeat' with_reducible first
    | exact h | exact Kept.refl _ | apply signPut_kept | apply invalAll_kept | apply sendUpdate_kept | (intro _) | apply Kept.ite
    | apply Kept.folds
theorem takeover_kept {s} {a0} (h : Kept s a0) : Kept s (takeover a0) := by
  unfold takeover
  repeat' first
    | with_reducible first
        | exact h | exact Kept.refl _ | apply setPst_kept | apply postAll_kept | apply shadowApply_kept | apply setStream_kept
        | apply fdSet_kept | apply swapPlan_kept | apply claimEns_kept | apply wr_kept | apply bindCore_kept | apply setCtx_kept
        | (intro _) | apply Kept.ite | apply Kept.folds
    | split
theorem declareLost_kept {s} {a0} (h : Kept s a0) : Kept s (declareLost a0) := by
  unfold declareLost
  repeat' first
    | with_reducible first
        | exact h | exact Kept.refl _ | apply raiseInt_kept | apply errAt_kept | apply setTwin_kept | apply takeover_kept
        | apply setPst_kept | apply postAll_kept | (intro _) | apply Kept.ite | apply Kept.folds
    | split
theorem periodMissed_kept {s} {a0} {a1} (h : Kept s a0) : Kept s (periodMissed a0 a1) := by
  unfold periodMissed
  repeat' with_reducible first
    | exact h | exact Kept.refl _ | apply bump_kept | apply setTwin_kept | apply declareLost_kept | apply twinSend_kept
    | apply postNotice_kept | (intro _) | apply Kept.ite | apply Kept.folds
theorem setHandle_kept {s} {a0} {a1} {a2} {a3} (h : Kept s a0) : Kept s (setHandle a0 a1 a2 a3) := by
  unfold setHandle
  repeat' with_reducible first
    | exact h | apply setQe_kept
theorem handleClose_kept {s} {a0} {a1} {a2} {a3} (h : Kept s a0) : Kept s (handleClose a0 a1 a2 a3) := by
  unfold handleClose
  repeat' with_reducible first
    | exact h | apply setHandle_kept | apply noticeOut_kept | apply Kept.ite
theorem setHost_kept {s} {a0} {a1} (h : Kept s a0) : Kept s (setHost a0 a1) := by
  unfold setHost
  repeat' with_reducible apply Kept.upd h
theorem msixWrite_kept {s} {a0} {a1} {a2} (h : Kept s a0) : Kept s (msixWrite a0 a1 a2) := by
  unfold msixWrite
  repeat' with_reducible first
    | exact h | apply setHost_kept | apply send_kept | apply bump_kept | apply Kept.ite
theorem hostBad_kept {s} {a0} {a1} {a2} {a3} {a4} (h : Kept s a0) : Kept s (hostBad a0 a1 a2 a3 a4) := by
  unfold hostBad
  repeat' with_reducible first
    | exact h | apply raiseInt_kept | apply errAt_kept
theorem accessRange_kept {s} {a0} {a1} {a2} {a3} (h : Kept s a0) : Kept s (accessRange a0 a1 a2 a3) := by
  unfold accessRange
  repeat' first
    | with_reducible first
        | exact h | apply hostBad_kept | apply errAt_kept
    | split
theorem mgmtDenied_kept {s} {a0} {a1} (h : Kept s a0) : Kept s (mgmtDenied a0 a1) := by
  unfold mgmtDenied
  repeat' with_reducible first
    | exact h | apply raiseInt_kept | apply errAt_kept
theorem accessDenied_kept {s} {a0} {a1} {a2} {a3} {a4} (h : Kept s a0) : Kept s (accessDenied a0 a1 a2 a3 a4) := by
  unfold accessDenied
  repeat' first
    | with_reducible first
        | exact h | apply hostBad_kept | apply bump_kept | apply mgmtDenied_kept | apply errAt_kept | apply denyFabric_kept
    | split
theorem rangeAt_kept {s} {a0} {a1} {a2} (h : Kept s a0) : Kept s (rangeAt a0 a1 a2) := by
  unfold rangeAt
  repeat' with_reducible first
    | exact h | apply errAt_kept
theorem closedWrite_kept {s} {a0} {a1} {a2} {a3} {a4} {a5} (h : Kept s a0) : Kept s (closedWrite a0 a1 a2 a3 a4 a5).1 := by
  unfold closedWrite
  repeat' first
    | with_reducible first
        | exact h | apply accessDenied_kept | apply rangeAt_kept
    | split
    | (dsimp only; split)
theorem writeOutcome_kept {s} {a0} {a1} {a2} (h : Kept s a0) (h2 : ∀ s, Kept s (a2 s)) : Kept s (writeOutcome a0 a1 a2).1 := by
  unfold writeOutcome
  repeat' with_reducible first
    | exact h | refine Kept.trans ?_ (h2 ..)
theorem withMirror_kept {s} {a0} {a1} {a2} (h : Kept s a0) (h2 : ∀ s x, Kept s (a2 s x)) : Kept s (withMirror a0 a1 a2) := by
  unfold withMirror
  repeat' first
    | with_reducible first
        | exact h | refine Kept.trans ?_ (h2 ..)
    | split
theorem cvBind_kept {s} {a0} {a1} {a2} {a3} (h : Kept s a0) : Kept s (cvBind a0 a1 a2 a3) := by
  unfold cvBind
  repeat' with_reducible first
    | exact h | apply closeSettle_kept | apply setChan_kept | apply chClose_kept | apply qErr_kept | apply setHandle_kept | apply Kept.ite
theorem bankRefused_kept {s} {a0} {a1} {a2} {a3} (h : Kept s a0) : Kept s (bankRefused a0 a1 a2 a3) := by
  unfold bankRefused
  repeat' with_reducible first
    | exact h | apply raiseInt_kept | apply errAt_kept
theorem repCommit_kept {s} {a0} {a1} {a2} {a3} (h : Kept s a0) : Kept s (repCommit a0 a1 a2 a3) := by
  unfold repCommit
  repeat' with_reducible first
    | exact h | apply bankRefused_kept | apply setRout_kept | apply Kept.ite
theorem placementWrite_kept {s} {a0} {a1} {a2} {a3} {a4} (h : Kept s a0) : Kept s (placementWrite a0 a1 a2 a3 a4) := by
  unfold placementWrite
  repeat' with_reducible first
    | exact h | apply fdSet_kept | apply bankRefused_kept | apply raiseInt_kept | apply errAt_kept | apply wr_kept | apply Kept.ite
theorem setRing_kept {s} {a0} {a1} {a2} (h : Kept s a0) : Kept s (setRing a0 a1 a2) := by
  unfold setRing
  repeat' with_reducible first
    | exact h | apply setHost_kept
theorem ringAddr_kept {s} {a0} {a1} {a2} {a3} (h : Kept s a0) : Kept s (ringAddr a0 a1 a2 a3).1 := by
  unfold ringAddr
  repeat' first
    | with_reducible first
        | exact h | apply setRing_kept
    | split
    | (dsimp only; split)
theorem notReadyAt_kept {s} {a0} {a1} {a2} (h : Kept s a0) : Kept s (notReadyAt a0 a1 a2) := by
  unfold notReadyAt
  repeat' with_reducible first
    | exact h | apply errAt_kept
theorem pairReg_kept {s} {a0} {a1} {a2} {a3} {a4} (h : Kept s a0) : Kept s (pairReg a0 a1 a2 a3 a4) := by
  unfold pairReg
  repeat' first
    | with_reducible first
        | exact h | apply cvBind_kept | apply repCommit_kept | apply wr_kept | apply placementWrite_kept | apply rangeAt_kept
        | apply ringAddr_kept | apply notReadyAt_kept | apply Kept.ite
    | split
theorem clusRefused_kept {s} {a0} {a1} {a2} (h : Kept s a0) : Kept s (clusRefused a0 a1 a2) := by
  unfold clusRefused
  repeat' with_reducible first
    | exact h | apply raiseInt_kept | apply errAt_kept
theorem headerReg_kept {s} {a0} {a1} {a2} {a3} {a4} (h : Kept s a0) : Kept s (headerReg a0 a1 a2 a3 a4) := by
  unfold headerReg
  repeat' first
    | with_reducible first
        | exact h | apply irqEdge_kept | apply wr_kept | apply Kept.ite | apply Kept.upd h
    | split
theorem seqRun_kept {s} {a0} {a1} (h : Kept s a0) : Kept s (seqRun a0 a1) := by
  unfold seqRun
  repeat' with_reducible first
    | exact h | apply setSeq_kept | apply setSeqSt_kept | apply setPc_kept | apply Kept.ite
theorem seqHalt_kept {s} {a0} {a1} (h : Kept s a0) : Kept s (seqHalt a0 a1) := by
  unfold seqHalt
  repeat' with_reducible first
    | exact h | apply setSeqSt_kept | apply Kept.ite
theorem seqStepOne_kept {s} {a0} {a1} (h : Kept s a0) : Kept s (seqStepOne a0 a1) := by
  unfold seqStepOne
  repeat' with_reducible first
    | exact h | apply setSeq_kept | apply seqIssue_kept | apply fdSet_kept | apply setSeqSt_kept | apply Kept.ite
theorem seqCtlWrite_kept {s} {a0} {a1} {a2} {a3} {a4} (h : Kept s a0) : Kept s (seqCtlWrite a0 a1 a2 a3 a4) := by
  unfold seqCtlWrite
  repeat' with_reducible first
    | exact h | apply fdSet_kept | apply seqRun_kept | apply seqHalt_kept | apply seqStepOne_kept | apply Kept.ite
theorem setMile_kept {s} {a0} {a1} {a2} (h : Kept s a0) : Kept s (setMile a0 a1 a2) := by
  unfold setMile
  repeat' with_reducible first
    | exact h | apply fdSet_kept | apply setCore_kept | apply Kept.ite
theorem wakeCause_kept {s} {a0} {a1} {a2} (h : Kept s a0) : Kept s (wakeCause a0 a1 a2) := by
  unfold wakeCause
  repeat' with_reducible first
    | exact h | apply setSeq_kept
theorem mboxIn_kept {s} {a0} {a1} {a2} (h : Kept s a0) : Kept s (mboxIn a0 a1 a2) := by
  unfold mboxIn
  repeat' with_reducible first
    | exact h | apply setSeq_kept | apply wakeCause_kept
theorem coreReg_kept {s} {a0} {a1} {a2} {a3} {a4} (h : Kept s a0) : Kept s (coreReg a0 a1 a2 a3 a4) := by
  unfold coreReg
  repeat' first
    | with_reducible first
        | exact h | apply seqCtlWrite_kept | apply wr_kept | apply setMile_kept | apply mboxIn_kept
    | split
theorem cfgCheck_kept {s} {a0} {a1} {a2} (h : Kept s a0) : Kept s (cfgCheck a0 a1 a2) := by
  unfold cfgCheck
  repeat' with_reducible first
    | exact h | apply startCheck_kept | apply Kept.ite
theorem flowErr_kept {s} {a0} {a1} {a2} {a3} {a4} {a5} (h : Kept s a0) : Kept s (flowErr a0 a1 a2 a3 a4 a5) := by
  unfold flowErr
  repeat' first
    | with_reducible first
        | exact h | apply errAt_kept | apply raiseInt_kept
    | split
theorem activeRefused_kept {s} {a0} {a1} {a2} (h : Kept s a0) : Kept s (activeRefused a0 a1 a2) := by
  unfold activeRefused
  repeat' with_reducible first
    | exact h | apply flowErr_kept
theorem imgGo_kept {s} {a0} {a1} {a2} (h : Kept s a0) : Kept s (imgGo a0 a1 a2) := by
  unfold imgGo
  repeat' with_reducible first
    | exact h | apply activeRefused_kept | apply setFab_kept | apply fdSet_kept | apply rangeAsk_kept | apply Kept.ite
theorem setBufWord_kept {s} {a0} {a1} {a2} {a3} {a4} (h : Kept s a0) : Kept s (setBufWord a0 a1 a2 a3 a4) := by
  unfold setBufWord
  repeat' with_reducible first
    | exact h | apply wr_kept | apply setCore_kept | apply fdSet_kept | apply Kept.ite
theorem winStep_kept {s} {a0} {a1} (h : Kept s a0) : Kept s (winStep a0 a1) := by
  unfold winStep
  repeat' with_reducible first
    | exact h | apply fdSet_kept | apply Kept.ite
theorem winWrite_kept {s} {a0} {a1} {a2} (h : Kept s a0) : Kept s (winWrite a0 a1 a2) := by
  unfold winWrite
  repeat' with_reducible first
    | exact h | apply activeRefused_kept | apply setBufWord_kept | apply winStep_kept | apply Kept.ite
theorem booksCheck_kept {s} {a0} {a1} {a2} (h : Kept s a0) : Kept s (booksCheck a0 a1 a2) := by
  unfold booksCheck
  repeat' with_reducible first
    | exact h | apply report_kept | apply flowErr_kept | apply Kept.ite
theorem linkSnapshot_kept {s} {a0} {a1} {a2} (h : Kept s a0) : Kept s (linkSnapshot a0 a1 a2) := by
  unfold linkSnapshot
  repeat' with_reducible first
    | exact h | apply booksCheck_kept | apply wr_kept
theorem gridClear_kept {s} {a0} {a1} (h : Kept s a0) : Kept s (gridClear a0 a1) := by
  unfold gridClear
  repeat' with_reducible first
    | exact h | exact Kept.refl _ | apply wr64_kept | apply wr_kept | (intro _) | apply Kept.folds
theorem arrCfgWrite_kept {s} {a0} {a1} {a2} {a3} (h : Kept s a0) : Kept s (arrCfgWrite a0 a1 a2 a3) := by
  unfold arrCfgWrite
  repeat' with_reducible first
    | exact h | apply activeRefused_kept | apply setBufWord_kept | apply Kept.ite
theorem flowReg_kept {s} {a0} {a1} {a2} {a3} {a4} (h : Kept s a0) : Kept s (flowReg a0 a1 a2 a3 a4) := by
  unfold flowReg
  repeat' first
    | with_reducible first
        | exact h | apply cfgCheck_kept | apply imgGo_kept | apply winWrite_kept | apply linkSnapshot_kept | apply wr_kept
        | apply gridClear_kept | apply arrCfgWrite_kept | apply Kept.ite
    | split
theorem bankRetarget_kept {s} {a0} {a1} {a2} (h : Kept s a0) : Kept s (bankRetarget a0 a1 a2) := by
  unfold bankRetarget
  repeat' with_reducible first
    | exact h | apply setBank_kept | apply setCore_kept | apply Kept.ite
theorem writeStat_kept {s} {a0} {a1} {a2} (h : Kept s a0) : Kept s (writeStat a0 a1 a2) := by
  unfold writeStat
  repeat' with_reducible first
    | exact h | apply spadWrite_kept | apply setQe_kept | apply Kept.ite
theorem serveStats_kept {s} {a0} {a1} (h : Kept s a0) : Kept s (serveStats a0 a1) := by
  unfold serveStats
  repeat' with_reducible first
    | exact h | exact Kept.refl _ | apply writeStat_kept | (intro _) | apply Kept.folds
theorem extAnswer_kept {s} {a0} {a1} (h : Kept s a0) : Kept s (extAnswer a0 a1) := by
  unfold extAnswer
  repeat' with_reducible first
    | exact h | apply send_kept | apply Kept.ite

end Sys2Proof.Machine
end

