-- ==== Sys2Proof/Laws/Kept2.lean ====
section
/-! SUPPORT. What every shared operation keeps: continued from Kept.lean, callees before callers. -/
namespace Sys2Proof.Machine
open Sys2Proof
set_option Elab.async false

theorem extRun_kept {s} {a0} {a1} {a2} {a3} (h : Kept s a0) : Kept s (extRun a0 a1 a2 a3) := by
  fun_induction extRun
  repeat' with_reducible first
    | exact h | apply spadWrite_kept | apply extAnswer_kept | apply spadRead_kept | apply setCore_kept | apply errAt_kept
    | refine Kept.fst (by assumption) ?_ | apply_assumption
theorem extSpad_kept {s} {a0} {a1} {a2} (h : Kept s a0) : Kept s (extSpad a0 a1 a2) := by
  unfold extSpad
  repeat' with_reducible first
    | exact h | apply extRun_kept
theorem spadServe_kept {s} {a0} {a1} (h : Kept s a0) : Kept s (spadServe a0 a1) := by
  unfold spadServe
  repeat' with_reducible first
    | exact h | exact Kept.refl _ | apply serveStats_kept | apply setCore_kept | apply extSpad_kept | (intro _) | apply Kept.folds
theorem regionWrite_kept {s} {a0} {a1} {a2} {a3} (h : Kept s a0) : Kept s (regionWrite a0 a1 a2 a3) := by
  unfold regionWrite
  repeat' with_reducible first
    | exact h | apply wr_kept | apply setCore_kept | apply spadServe_kept | apply Kept.ite
theorem spadReg_kept {s} {a0} {a1} {a2} {a3} (h : Kept s a0) : Kept s (spadReg a0 a1 a2 a3) := by
  unfold spadReg
  repeat' with_reducible first
    | exact h | exact Kept.refl _ | apply wr_kept | apply bankRetarget_kept | apply regionWrite_kept | (intro _) | apply Kept.ite
    | apply Kept.folds
theorem chSnapshot_kept {s} {a0} {a1} {a2} (h : Kept s a0) : Kept s (chSnapshot a0 a1 a2) := by
  unfold chSnapshot
  repeat' with_reducible first
    | exact h | apply wr_kept
theorem hdSnapshot_kept {s} {a0} {a1} {a2} (h : Kept s a0) : Kept s (hdSnapshot a0 a1 a2) := by
  unfold hdSnapshot
  repeat' with_reducible first
    | exact h | apply wr_kept
theorem qeRelease_kept {s} {a0} {a1} {a2} (h : Kept s a0) : Kept s (qeRelease a0 a1 a2) := by
  unfold qeRelease
  repeat' first
    | with_reducible first
        | exact h | exact Kept.refl _ | apply rangeAsk_kept | apply setQe_kept | apply rangeRelease_kept | (intro _) | apply Kept.folds
        | refine Kept.fst (by assumption) ?_
    | split
theorem jFwdEnd_kept {s} {a0} {a1} {a2} {a3} (h : Kept s a0) : Kept s (jFwdEnd a0 a1 a2 a3) := by
  unfold jFwdEnd
  repeat' with_reducible first
    | exact h | apply jRelease_kept | apply setSlot_kept
theorem outcomeToSource_kept {s} {a0} {a1} {a2} {a3} (h : Kept s a0) : Kept s (outcomeToSource a0 a1 a2 a3) := by
  unfold outcomeToSource
  repeat' first
    | with_reducible first
        | exact h | apply setOutcome_kept | apply setQe_kept | apply jFwdEnd_kept | apply qErr_kept | apply Kept.ite
    | split
theorem endMsg_kept {s} {a0} {a1} {a2} {a3} (h : Kept s a0) : Kept s (endMsg a0 a1 a2 a3) := by
  unfold endMsg
  repeat' with_reducible first
    | exact h | apply setQe_kept | apply qeRelease_kept | apply bump_kept | apply qErr_kept | apply outcomeToSource_kept | apply Kept.ite
theorem endAll_kept {s} {a0} {a1} {a2} {a3} (h : Kept s a0) : Kept s (endAll a0 a1 a2 a3) := by
  fun_induction endAll
  repeat' with_reducible first
    | exact h | apply endMsg_kept | apply_assumption
theorem qFlush_kept {s} {a0} {a1} (h : Kept s a0) : Kept s (qFlush a0 a1) := by
  unfold qFlush
  repeat' with_reducible first
    | exact h | apply endAll_kept | apply setQe_kept
theorem qSnapshot_kept {s} {a0} {a1} {a2} (h : Kept s a0) : Kept s (qSnapshot a0 a1 a2) := by
  unfold qSnapshot
  repeat' with_reducible first
    | exact h | apply wr_kept
theorem jSnapshot_kept {s} {a0} {a1} {a2} (h : Kept s a0) : Kept s (jSnapshot a0 a1 a2) := by
  unfold jSnapshot
  repeat' with_reducible first
    | exact h | apply wr_kept
theorem slotRefuse_kept {s} {a0} {a1} {a2} {a3} (h : Kept s a0) : Kept s (slotRefuse a0 a1 a2 a3) := by
  unfold slotRefuse
  repeat' with_reducible first
    | exact h | apply qErr_kept
theorem writeSlotReg_kept {s} {a0} {a1} {a2} {a3} {a4} (h : Kept s a0) : Kept s (writeSlotReg a0 a1 a2 a3 a4) := by
  unfold writeSlotReg
  repeat' with_reducible first
    | exact h | apply slotRefuse_kept | apply setSlot_kept | apply wr_kept | apply Kept.ite
theorem jDropAccum_kept {s} {a0} {a1} {a2} (h : Kept s a0) : Kept s (jDropAccum a0 a1 a2) := by
  unfold jDropAccum
  repeat' with_reducible first
    | exact h | exact Kept.refl _ | apply bumpBy_kept | apply setSlot_kept | (intro _) | apply Kept.ite | apply Kept.folds
theorem closeHandles_kept {s} {a0} {a1} {a2} (h : Kept s a0) : Kept s (closeHandles a0 a1 a2) := by
  unfold closeHandles
  repeat' with_reducible first
    | exact h | exact Kept.refl _ | apply noticeOut_kept | apply setHandle_kept | (intro _) | apply Kept.folds
theorem writeSlotCfg_kept {s} {a0} {a1} {a2} {a3} (h : Kept s a0) : Kept s (writeSlotCfg a0 a1 a2 a3) := by
  unfold writeSlotCfg
  repeat' with_reducible first
    | exact h | apply slotRefuse_kept | apply wr_kept | apply setSlot_kept | apply writeStat_kept | apply jDropAccum_kept
    | apply closeHandles_kept | apply Kept.ite
theorem qengReg_kept {s} {a0} {a1} {a2} {a3} {a4} (h : Kept s a0) : Kept s (qengReg a0 a1 a2 a3 a4) := by
  unfold qengReg
  repeat' first
    | with_reducible first
        | exact h | apply chSnapshot_kept | apply wr_kept | apply hdSnapshot_kept | apply fdSet_kept | apply qFlush_kept
        | apply qSnapshot_kept | apply jSnapshot_kept | apply writeSlotReg_kept | apply writeSlotCfg_kept | apply Kept.ite
    | split
theorem bankFields_kept {s} {a0} {a1} {a2} {a3} (h : Kept s a0) : Kept s (bankFields a0 a1 a2 a3) := by
  unfold bankFields
  repeat' with_reducible first
    | exact h | exact Kept.refl _ | apply bankRefused_kept | apply wr_kept | (intro _) | apply Kept.ite | apply Kept.folds
theorem portSnapshot_kept {s} {a0} {a1} {a2} (h : Kept s a0) : Kept s (portSnapshot a0 a1 a2) := by
  unfold portSnapshot
  repeat' with_reducible first
    | exact h | apply wr_kept
theorem cacheDrop_kept {s} {a0} {a1} {a2} (h : Kept s a0) : Kept s (cacheDrop a0 a1 a2) := by
  unfold cacheDrop
  repeat' with_reducible first
    | exact h | apply setRout_kept
theorem routReg_kept {s} {a0} {a1} {a2} {a3} {a4} (h : Kept s a0) : Kept s (routReg a0 a1 a2 a3 a4) := by
  unfold routReg
  repeat' first
    | with_reducible first
        | exact h | apply bankFields_kept | apply portSnapshot_kept | apply wr_kept | apply cacheDrop_kept | apply Kept.ite
    | split
theorem retargetAll_kept {s} {a0} {a1} {a2} (h : Kept s a0) : Kept s (retargetAll a0 a1 a2) := by
  fun_induction retargetAll
  repeat' with_reducible first
    | exact h | assumption | apply bankRetarget_kept
theorem setCstate_kept {s} {a0} {a1} {a2} (h : Kept s a0) : Kept s (setCstate a0 a1 a2) := by
  unfold setCstate
  repeat' with_reducible first
    | exact h | apply fdSet_kept
theorem clearCaps_kept {s} {a0} {a1} (h : Kept s a0) : Kept s (clearCaps a0 a1) := by
  unfold clearCaps
  repeat' with_reducible apply Kept.upd h
theorem clearRegs_kept {s} {a0} {a1} {a2} (h : Kept s a0) : Kept s (clearRegs a0 a1 a2) := by
  unfold clearRegs
  repeat' with_reducible apply Kept.upd h
theorem clearPages_kept {s} {a0} {a1} {a2} (h : Kept s a0) : Kept s (clearPages a0 a1 a2) := by
  unfold clearPages
  repeat' with_reducible first
    | exact h | apply clearCaps_kept | apply clearRegs_kept
theorem coreFields_kept {s} {a0} {a1} (h : Kept s a0) : Kept s (coreFields a0 a1) := by
  unfold coreFields
  repeat' with_reducible first
    | exact h | apply clearPages_kept | apply wr_kept
theorem coreReset_kept {s} {a0} {a1} (h : Kept s a0) : Kept s (coreReset a0 a1) := by
  unfold coreReset
  repeat' with_reducible first
    | exact h | apply bump_kept | apply coreFields_kept | apply setCore_kept
theorem coreOn_kept {s} {a0} {a1} (h : Kept s a0) : Kept s (coreOn a0 a1) := by
  unfold coreOn
  repeat' with_reducible first
    | exact h | apply retargetAll_kept | apply setCstate_kept | apply coreReset_kept | apply Kept.ite
theorem pllStart_kept {s} {a0} {a1} (h : Kept s a0) : Kept s (pllStart a0 a1) := by
  unfold pllStart
  repeat' with_reducible first
    | exact h | apply bump_kept | apply fdSet_kept | apply raiseInt_kept | apply errAt_kept | apply Kept.ite
theorem railUp_kept {s} {a0} {a1} (h : Kept s a0) : Kept s (railUp a0 a1) := by
  unfold railUp
  repeat' with_reducible first
    | exact h | apply fdSet_kept | apply pllStart_kept | apply Kept.ite
theorem seqRestWake_kept {s} {a0} {a1} (h : Kept s a0) : Kept s (seqRestWake a0 a1) := by
  unfold seqRestWake
  repeat' with_reducible first
    | exact h | apply setSeq_kept | apply setSeqSt_kept | apply setPc_kept
theorem restWake_kept {s} {a0} {a1} (h : Kept s a0) : Kept s (restWake a0 a1) := by
  unfold restWake
  repeat' with_reducible first
    | exact h | apply railUp_kept | apply bump_kept | apply retargetAll_kept | apply setCstate_kept | apply seqRestWake_kept
    | apply startFlow_kept | apply startUnits_kept | apply Kept.ite
theorem railDown_kept {s} {a0} {a1} (h : Kept s a0) : Kept s (railDown a0 a1) := by
  unfold railDown
  repeat' with_reducible first
    | exact h | apply fdSet_kept | apply Kept.ite
theorem coreOff_kept {s} {a0} {a1} (h : Kept s a0) : Kept s (coreOff a0 a1) := by
  unfold coreOff
  repeat' with_reducible first
    | exact h | apply coreReset_kept | apply setSeq_kept | apply retargetAll_kept | apply setCstate_kept | apply Kept.ite
theorem restEntry_kept {s} {a0} {a1} (h : Kept s a0) : Kept s (restEntry a0 a1) := by
  unfold restEntry
  repeat' with_reducible first
    | exact h | apply clearRegs_kept | apply setCore_kept | apply retargetAll_kept | apply setCstate_kept | apply bump_kept
    | apply railDown_kept | apply setSeqSt_kept | apply Kept.ite
theorem applyTarget_kept {s} {a0} {a1} {a2} (h : Kept s a0) : Kept s (applyTarget a0 a1 a2) := by
  unfold applyTarget
  repeat' first
    | with_reducible first
        | exact h | apply coreOn_kept | apply railUp_kept | apply restWake_kept | apply railDown_kept | apply coreOff_kept
        | apply restEntry_kept | apply Kept.ite
    | split
theorem setTarget_kept {s} {a0} {a1} {a2} (h : Kept s a0) : Kept s (setTarget a0 a1 a2) := by
  unfold setTarget
  repeat' with_reducible first
    | exact h | apply fdSet_kept
theorem coreTargets_kept {s} {a0} {a1} {a2} (h : Kept s a0) : Kept s (coreTargets a0 a1 a2) := by
  unfold coreTargets
  repeat' first
    | with_reducible first
        | exact h | exact Kept.refl _ | apply applyTarget_kept | apply setTarget_kept | (intro _) | apply Kept.ite | apply Kept.folds
    | split
theorem clusRelock_kept {s} {a0} {a1} (h : Kept s a0) : Kept s (clusRelock a0 a1) := by
  unfold clusRelock
  repeat' with_reducible first
    | exact h | apply pllStart_kept | apply Kept.ite
theorem holdWrite_kept {s} {a0} {a1} {a2} (h : Kept s a0) : Kept s (holdWrite a0 a1 a2) := by
  unfold holdWrite
  repeat' with_reducible first
    | exact h | apply fdSet_kept | apply railUp_kept | apply railDown_kept | apply clusRelock_kept | apply Kept.ite
theorem setPins_kept {s} {a0} {a1} (h : Kept s a0) : Kept s (setPins a0 a1) := by
  unfold setPins
  repeat' with_reducible apply Kept.upd h
theorem clusVolts_kept {s} {a0} {a1} {a2} {a3} (h : Kept s a0) : Kept s (clusVolts a0 a1 a2 a3) := by
  unfold clusVolts
  repeat' with_reducible first
    | exact h | apply fdSet_kept | apply Kept.ite
theorem setPointWrite_kept {s} {a0} {a1} {a2} (h : Kept s a0) : Kept s (setPointWrite a0 a1 a2) := by
  unfold setPointWrite
  repeat' with_reducible first
    | exact h | apply clusRefused_kept | apply setPins_kept | apply clusVolts_kept | apply Kept.ite
theorem freqApply_kept {s} {a0} {a1} (h : Kept s a0) : Kept s (freqApply a0 a1) := by
  unfold freqApply
  repeat' with_reducible first
    | exact h | apply fdSet_kept | apply Kept.ite
theorem freqWrite_kept {s} {a0} {a1} {a2} (h : Kept s a0) : Kept s (freqWrite a0 a1 a2) := by
  unfold freqWrite
  repeat' with_reducible first
    | exact h | apply clusRefused_kept | apply freqApply_kept | apply fdSet_kept | apply Kept.ite
theorem clusReg_kept {s} {a0} {a1} {a2} {a3} {a4} (h : Kept s a0) : Kept s (clusReg a0 a1 a2 a3 a4) := by
  unfold clusReg
  repeat' first
    | with_reducible first
        | exact h | apply coreTargets_kept | apply holdWrite_kept | apply setPointWrite_kept | apply freqWrite_kept | apply wr_kept
    | split
theorem rstRefused_kept {s} {a0} {a1} {a2} {a3} (h : Kept s a0) : Kept s (rstRefused a0 a1 a2 a3) := by
  unfold rstRefused
  repeat' with_reducible first
    | exact h | apply raiseInt_kept | apply errAt_kept | apply fdSet_kept
theorem dieRstCore_kept {s} {a0} {a1} {a2} (h : Kept s a0) : Kept s (dieRstCore a0 a1 a2) := by
  unfold dieRstCore
  repeat' with_reducible first
    | exact h | apply rstRefused_kept | apply fdSet_kept | apply coreReset_kept | apply Kept.ite
theorem pllRelock_kept {s} {a0} {a1} (h : Kept s a0) : Kept s (pllRelock a0 a1) := by
  unfold pllRelock
  repeat' with_reducible first
    | exact h | apply fdSet_kept | apply Kept.ite
theorem syncHold_kept {s} {a0} {a1} (h : Kept s a0) : Kept s (syncHold a0 a1) := by
  unfold syncHold
  repeat' with_reducible first
    | exact h | apply railUp_kept | apply fdSet_kept | apply railDown_kept | apply Kept.ite
theorem clusterReset_kept {s} {a0} {a1} (h : Kept s a0) : Kept s (clusterReset a0 a1) := by
  unfold clusterReset
  repeat' with_reducible first
    | exact h | exact Kept.refl _ | apply setCstate_kept | apply coreReset_kept | apply clearPages_kept | apply fdSet_kept
    | apply pllRelock_kept | apply railUp_kept | apply railDown_kept | apply applyTarget_kept | apply retargetAll_kept | apply bump_kept
    | apply syncHold_kept | (intro _) | apply Kept.ite | apply Kept.folds
theorem dieRstClus_kept {s} {a0} {a1} {a2} (h : Kept s a0) : Kept s (dieRstClus a0 a1 a2) := by
  unfold dieRstClus
  repeat' with_reducible first
    | exact h | apply rstRefused_kept | apply fdSet_kept | apply clusterReset_kept | apply Kept.ite
theorem dieKick_kept {s} {a0} {a1} {a2} (h : Kept s a0) : Kept s (dieKick a0 a1 a2) := by
  unfold dieKick
  repeat' with_reducible first
    | exact h | apply fdSet_kept | apply Kept.ite
theorem setDma_kept {s} {a0} {a1} {a2} (h : Kept s a0) : Kept s (setDma a0 a1 a2) := by
  unfold setDma
  repeat' with_reducible first
    | exact h | apply setCore_kept
theorem updDesc_kept {s} {a0} {a1} {a2} {a3} (h : Kept s a0) : Kept s (updDesc a0 a1 a2 a3) := by
  unfold updDesc
  repeat' with_reducible first
    | exact h | apply setDma_kept
theorem dmaAsk_kept {s} {a0} {a1} {a2} {a3} (h : Kept s a0) : Kept s (dmaAsk a0 a1 a2 a3) := by
  fun_induction dmaAsk
  repeat' with_reducible first
    | exact h | apply rangeAsk_kept | apply updDesc_kept | refine Kept.fst (by assumption) ?_ | apply_assumption
theorem dmaAskAll_kept {s} {a0} {a1} (h : Kept s a0) : Kept s (dmaAskAll a0 a1) := by
  unfold dmaAskAll
  repeat' with_reducible first
    | exact h | exact Kept.refl _ | apply dmaAsk_kept | (intro _) | apply Kept.folds
theorem dmaFinish_kept {s} {a0} {a1} {a2} {a3} (h : Kept s a0) : Kept s (dmaFinish a0 a1 a2 a3) := by
  unfold dmaFinish
  repeat' with_reducible first
    | exact h | apply rangeRelease_kept | apply dmaAskAll_kept | apply setCore_kept | apply bump_kept | apply setOutcome_kept
    | apply Kept.ite
theorem haltCore_kept {s} {a0} {a1} (h : Kept s a0) : Kept s (haltCore a0 a1) := by
  unfold haltCore
  repeat' with_reducible first
    | exact h | exact Kept.refl _ | apply setSeq_kept | apply fdSet_kept | apply setSeqSt_kept | apply setCore_kept | apply dmaFinish_kept
    | (intro _) | apply Kept.ite | apply Kept.folds
theorem closeCore_kept {s} {a0} {a1} (h : Kept s a0) : Kept s (closeCore a0 a1) := by
  unfold closeCore
  repeat' with_reducible first
    | exact h | exact Kept.refl _ | apply noticeOut_kept | apply endAll_kept | apply setChan_kept | apply setHandle_kept | (intro _)
    | apply Kept.ite | apply Kept.folds
theorem regenCore_kept {s} {a0} {a1} {a2} (h : Kept s a0) : Kept s (regenCore a0 a1 a2) := by
  unfold regenCore
  repeat' with_reducible first
    | exact h | exact Kept.refl _ | apply wr_kept | (intro _) | apply Kept.folds
theorem clearQe_kept {s} {a0} {a1} (h : Kept s a0) : Kept s (clearQe a0 a1) := by
  unfold clearQe
  repeat' with_reducible first
    | exact h | apply setQe_kept
theorem clearUnits_kept {s} {a0} {a1} (h : Kept s a0) : Kept s (clearUnits a0 a1) := by
  unfold clearUnits
  repeat' with_reducible first
    | exact h | apply setCore_kept
theorem clearCore_kept {s} {a0} {a1} (h : Kept s a0) : Kept s (clearCore a0 a1) := by
  unfold clearCore
  repeat' with_reducible first
    | exact h | exact Kept.refl _ | apply fdSet_kept | apply qFlush_kept | apply setSeqSt_kept | apply setSeq_kept | apply clearQe_kept
    | apply bumpBy_kept | apply startFlow_kept | apply startUnits_kept | apply clearUnits_kept | (intro _) | apply Kept.folds
theorem ctxOpCore_kept {s} {a0} {a1} {a2} {a3} (h : Kept s a0) : Kept s (ctxOpCore a0 a1 a2 a3) := by
  unfold ctxOpCore
  repeat' first
    | with_reducible first
        | exact h | apply haltCore_kept | apply closeCore_kept | apply regenCore_kept | apply clearCore_kept
    | split
theorem dieCtxOp_kept {s} {a0} {a1} {a2} (h : Kept s a0) : Kept s (dieCtxOp a0 a1 a2) := by
  unfold dieCtxOp
  repeat' with_reducible first
    | exact h | exact Kept.refl _ | apply raiseInt_kept | apply errAt_kept | apply fdSet_kept | apply ctxOpCore_kept | apply setHub_kept
    | (intro _) | apply Kept.ite | apply Kept.folds
theorem dieReg_kept {s} {a0} {a1} {a2} {a3} {a4} (h : Kept s a0) : Kept s (dieReg a0 a1 a2 a3 a4) := by
  unfold dieReg
  repeat' first
    | with_reducible first
        | exact h | apply dieRstCore_kept | apply dieRstClus_kept | apply dieKick_kept | apply dieCtxOp_kept | apply wr_kept
    | split
theorem setStack_kept {s} {a0} {a1} {a2} (h : Kept s a0) : Kept s (setStack a0 a1 a2) := by
  unfold setStack
  repeat' with_reducible apply Kept.upd h
theorem memTrain_kept {s} {a0} {a1} {a2} (h : Kept s a0) : Kept s (memTrain a0 a1 a2) := by
  unfold memTrain
  repeat' with_reducible first
    | exact h | apply fdSet_kept | apply setStack_kept
theorem recJudge_kept {s} {a0} {a1} (h : Kept s a0) : Kept s (recJudge a0 a1) := by
  unfold recJudge
  repeat' with_reducible first
    | exact h | apply fdSet_kept
theorem recWrite_kept {s} {a0} {a1} {a2} (h : Kept s a0) : Kept s (recWrite a0 a1 a2) := by
  unfold recWrite
  repeat' with_reducible first
    | exact h | apply setStack_kept | apply freeUsed_kept | apply recJudge_kept
theorem grantWrite_kept {s} {a0} {a1} {a2} (h : Kept s a0) : Kept s (grantWrite a0 a1 a2) := by
  unfold grantWrite
  repeat' with_reducible first
    | apply fdSet_kept | apply Kept.upd h
theorem memcRefused_kept {s} {a0} {a1} {a2} (h : Kept s a0) : Kept s (memcRefused a0 a1 a2) := by
  unfold memcRefused
  repeat' with_reducible first
    | exact h | apply bankRefused_kept
theorem sliceEvacuate_kept {s} {a0} {a1} (h : Kept s a0) : Kept s (sliceEvacuate a0 a1) := by
  unfold sliceEvacuate
  repeat' with_reducible first
    | exact h | apply memcRefused_kept | apply setSlice_kept | apply Kept.ite
theorem gradeInputs_kept {s} {a0} (h : Kept s a0) : Kept s (gradeInputs a0) := by
  unfold gradeInputs
  repeat' with_reducible first
    | exact h | exact Kept.refl _ | apply fdSet_kept | apply wr_kept | (intro _) | apply Kept.folds
theorem pldmEvent_kept {s} {a0} {a1} {a2} (h : Kept s a0) : Kept s (pldmEvent a0 a1 a2) := by
  unfold pldmEvent
  repeat' with_reducible first
    | exact h | apply setHost_kept | apply bump_kept | apply Kept.ite
theorem msix_kept {s} {a0} {a1} {a2} (h : Kept s a0) : Kept s (msix a0 a1 a2) := by
  unfold msix
  repeat' with_reducible first
    | exact h | apply setHost_kept | apply send_kept | apply bump_kept | apply Kept.ite
theorem hostEvent_kept {s} {a0} {a1} (h : Kept s a0) : Kept s (hostEvent a0 a1) := by
  unfold hostEvent
  repeat' with_reducible first
    | exact h | apply wr_kept | apply msix_kept | apply Kept.ite
theorem setHeal_kept {s} {a0} {a1} (h : Kept s a0) : Kept s (setHeal a0 a1) := by
  unfold setHeal
  repeat' with_reducible apply Kept.upd h
theorem setFlash_kept {s} {a0} {a1} (h : Kept s a0) : Kept s (setFlash a0 a1) := by
  unfold setFlash
  repeat' with_reducible apply Kept.upd h
theorem hubLog_kept {s} {a0} {a1} (h : Kept s a0) : Kept s (hubLog a0 a1) := by
  unfold hubLog
  repeat' with_reducible first
    | exact h | apply setHeal_kept | apply setFlash_kept | apply pldmEvent_kept | apply hostEvent_kept | apply Kept.ite
theorem complete_kept {s} {a0} {a1} {a2} {a3} {a4} {a5} {a6} (h : Kept s a0) : Kept s (complete a0 a1 a2 a3 a4 a5 a6) := by
  unfold complete
  repeat' with_reducible first
    | exact h | apply send_kept | apply setRing_kept | apply bump_kept | apply msix_kept | apply Kept.ite
theorem syncHolds_kept {s} {a0} {a1} (h : Kept s a0) : Kept s (syncHolds a0 a1) := by
  unfold syncHolds
  repeat' with_reducible first
    | exact h | exact Kept.refl _ | apply syncHold_kept | (intro _) | apply Kept.folds
theorem ctxHold_kept {s} {a0} {a1} (h : Kept s a0) : Kept s (ctxHold a0 a1) := by
  unfold ctxHold
  repeat' with_reducible first
    | exact h | apply syncHolds_kept
theorem contextFail_kept {s} {a0} {a1} {a2} {a3} (h : Kept s a0) : Kept s (contextFail a0 a1 a2 a3) := by
  unfold contextFail
  repeat' first
    | with_reducible first
        | exact h | exact Kept.refl _ | apply hubLog_kept | apply complete_kept | apply setCtx_kept | apply ctxHold_kept
        | apply hostEvent_kept | apply msix_kept | (intro _) | apply Kept.folds
    | (dsimp only; split)
theorem setDieCause_kept {s} {a0} {a1} {a2} (h : Kept s a0) : Kept s (setDieCause a0 a1 a2) := by
  unfold setDieCause
  repeat' with_reducible first
    | exact h | apply fdSet_kept | apply Kept.ite
theorem setCause_kept {s} {a0} {a1} (h : Kept s a0) : Kept s (setCause a0 a1) := by
  unfold setCause
  repeat' with_reducible first
    | exact h | apply fdSet_kept
theorem selfRefresh_kept {s} {a0} {a1} (h : Kept s a0) : Kept s (selfRefresh a0 a1) := by
  unfold selfRefresh
  repeat' with_reducible first
    | exact h | exact Kept.refl _ | apply setStack_kept | apply serveAll_kept | apply setSlice_kept | apply fdSet_kept | (intro _)
    | apply Kept.ite | apply Kept.folds
theorem moduleRegs_kept {s} {a0} (h : Kept s a0) : Kept s (moduleRegs a0) := by
  unfold moduleRegs
  repeat' with_reducible first
    | exact h | apply clearPages_kept | apply clearRegs_kept
theorem moduleClear_kept {s a0 : State} {a1} (h : Kept s a0) : Kept s (moduleClear a0 a1) := by
  unfold moduleClear
  dsimp only
  split
  · exact h.trans ⟨rfl, rfl, rfl, id⟩
  · exact h.trans ⟨rfl, rfl, rfl, fun _ => rfl⟩
theorem fuseBlow_kept {s} {a0} {a1} {a2} (h : Kept s a0) : Kept s (fuseBlow a0 a1 a2) := by
  unfold fuseBlow
  repeat' first
    | with_reducible first
        | exact h | apply fdSet_kept | apply wr_kept
    | split
theorem fuseCut_kept {s} {a0} (h : Kept s a0) : Kept s (fuseCut a0) := by
  unfold fuseCut
  repeat' first
    | with_reducible first
        | exact h | apply freeUsed_kept | apply fuseBlow_kept | apply Kept.ite
    | split
theorem bridgesReset_kept {s} {a0} {a1} (h : Kept s a0) : Kept s (bridgesReset a0 a1) := by
  unfold bridgesReset
  repeat' with_reducible first
    | exact h | exact Kept.refl _ | apply wr_kept | (intro _) | apply Kept.folds
theorem setBanks_kept {s} {a0} {a1} {a2} (h : Kept s a0) : Kept s (setBanks a0 a1 a2) := by
  unfold setBanks
  repeat' with_reducible first
    | exact h | exact Kept.refl _ | apply wr_kept | (intro _) | apply Kept.folds
theorem coresOff_kept {s} {a0} (h : Kept s a0) : Kept s (coresOff a0) := by
  unfold coresOff
  repeat' with_reducible first
    | exact h | exact Kept.refl _ | apply setBanks_kept | apply setCstate_kept | (intro _) | apply Kept.folds
theorem moduleDown_kept {s} {a0} {a1} (h : Kept s a0) : Kept s (moduleDown a0 a1) := by
  unfold moduleDown
  repeat' with_reducible first
    | exact h | exact Kept.refl _ | apply selfRefresh_kept | apply moduleRegs_kept | apply moduleClear_kept | apply fuseCut_kept
    | apply fdSet_kept | apply bridgesReset_kept | apply coresOff_kept | apply setPst_kept | apply setPins_kept | (intro _)
    | apply Kept.ite | apply Kept.folds
theorem moduleReset_kept {s} {a0} {a1} {a2} (h : Kept s a0) : Kept s (moduleReset a0 a1 a2) := by
  unfold moduleReset
  repeat' with_reducible first
    | exact h | exact Kept.refl _ | apply setDieCause_kept | apply setCause_kept | apply moduleDown_kept | apply setPins_kept
    | apply bump_kept | (intro _) | apply Kept.folds
theorem gradeEval_kept {s} {a0} (h : Kept s a0) : Kept s (gradeEval a0) := by
  unfold gradeEval
  repeat' with_reducible first
    | exact h | exact Kept.refl _ | apply gradeInputs_kept | apply raiseInt_kept | apply fdSet_kept | apply pldmEvent_kept
    | apply hostEvent_kept | apply contextFail_kept | apply moduleReset_kept | (intro _) | apply Kept.ite | apply Kept.folds
theorem mapChanged_kept {s} {a0} {a1} (h : Kept s a0) : Kept s (mapChanged a0 a1) := by
  unfold mapChanged
  repeat' with_reducible first
    | exact h | apply gradeEval_kept | apply pldmEvent_kept | apply fdSet_kept
theorem closeSlice_kept {s} {a0} {a1} (h : Kept s a0) : Kept s (closeSlice a0 a1) := by
  unfold closeSlice
  repeat' with_reducible first
    | exact Kept.refl _ | apply setSlice_kept | (intro _) | apply Kept.folds | apply Kept.upd h
theorem markClosed_kept {s} {a0} {a1} (h : Kept s a0) : Kept s (markClosed a0 a1) := by
  unfold markClosed
  repeat' with_reducible apply Kept.upd h
theorem fenceStack_kept {s} {a0} {a1} (h : Kept s a0) : Kept s (fenceStack a0 a1) := by
  unfold fenceStack
  repeat' with_reducible first
    | exact h | exact Kept.refl _ | apply closeSlice_kept | apply markClosed_kept | apply fdSet_kept | (intro _) | apply Kept.folds
theorem secondClosed_kept {s} {a0} {a1} (h : Kept s a0) : Kept s (secondClosed a0 a1) := by
  unfold secondClosed
  repeat' with_reducible first
    | exact h | apply fenceStack_kept | apply Kept.ite
theorem cwSend_kept {s} {a0} {a1} {a2} (h : Kept s a0) : Kept s (cwSend a0 a1 a2) := by
  unfold cwSend
  repeat' with_reducible first
    | exact h | apply xAdd_kept | apply setPort_kept
theorem askHome_kept {s} {a0} {a1} (h : Kept s a0) : Kept s (askHome a0 a1) := by
  unfold askHome
  repeat' with_reducible first
    | exact h | exact Kept.refl _ | apply cwSend_kept | (intro _) | apply Kept.ite | apply Kept.folds
theorem fetchHome_kept {s} {a0} {a1} {a2} (h : Kept s a0) : Kept s (fetchHome a0 a1 a2) := by
  unfold fetchHome
  repeat' with_reducible first
    | exact h | apply setTwin_kept | apply askHome_kept | apply Kept.ite
theorem fetchHomes_kept {s} {a0} (h : Kept s a0) : Kept s (fetchHomes a0) := by
  unfold fetchHomes
  repeat' with_reducible first
    | exact h | exact Kept.refl _ | apply fetchHome_kept | (intro _) | apply Kept.ite | apply Kept.folds
theorem sliceCtl_kept {s} {a0} {a1} {a2} (h : Kept s a0) : Kept s (sliceCtl a0 a1 a2) := by
  unfold sliceCtl
  repeat' with_reducible first
    | exact h | apply sliceEvacuate_kept | apply memcRefused_kept | apply serveAll_kept | apply mapChanged_kept | apply closeSlice_kept
    | apply setSlice_kept | apply secondClosed_kept | apply fetchHomes_kept | apply Kept.ite
theorem memcReg_kept {s} {a0} {a1} {a2} {a3} {a4} (h : Kept s a0) : Kept s (memcReg a0 a1 a2 a3 a4) := by
  unfold memcReg
  repeat' first
    | with_reducible first
        | exact h | apply memTrain_kept | apply recWrite_kept | apply grantWrite_kept | apply sliceCtl_kept | apply placementWrite_kept
        | apply wr_kept | apply Kept.ite
    | split
theorem setGauge_kept {s} {a0} {a1} {a2} {a3} (h : Kept s a0) : Kept s (setGauge a0 a1 a2 a3) := by
  unfold setGauge
  repeat' with_reducible apply Kept.upd h
theorem gaugeOpen_kept {s} {a0} {a1} {a2} {a3} (h : Kept s a0) : Kept s (gaugeOpen a0 a1 a2 a3) := by
  unfold gaugeOpen
  repeat' with_reducible first
    | exact h | apply setGauge_kept
theorem gaugeApply_kept {s} {a0} {a1} {a2} {a3} (h : Kept s a0) : Kept s (gaugeApply a0 a1 a2 a3) := by
  unfold gaugeApply
  repeat' with_reducible first
    | exact h | apply bump_kept | apply setGauge_kept | apply raiseInt_kept | apply Kept.ite
theorem gaugeClose_kept {s} {a0} {a1} {a2} {a3} (h : Kept s a0) : Kept s (gaugeClose a0 a1 a2 a3) := by
  unfold gaugeClose
  repeat' first
    | with_reducible first
        | exact h | exact Kept.refl _ | apply gaugeApply_kept | apply wr64_kept | apply wr_kept | apply raiseInt_kept | apply bump_kept
        | apply gaugeOpen_kept | (intro _) | apply Kept.ite | apply Kept.folds
    | split
theorem gaugeCtl_kept {s} {a0} {a1} {a2} {a3} (h : Kept s a0) : Kept s (gaugeCtl a0 a1 a2 a3) := by
  unfold gaugeCtl
  repeat' with_reducible first
    | exact h | apply errAt_kept | apply gaugeOpen_kept | apply fdSet_kept | apply gaugeClose_kept | apply Kept.ite
theorem gaugeReg_kept {s} {a0} {a1} {a2} {a3} {a4} {a5} (h : Kept s a0) : Kept s (gaugeReg a0 a1 a2 a3 a4 a5) := by
  unfold gaugeReg
  repeat' with_reducible first
    | exact h | apply gaugeCtl_kept | apply errAt_kept | apply wr_kept | apply Kept.ite
theorem ringCfg_kept {s} {a0} {a1} {a2} (h : Kept s a0) : Kept s (ringCfg a0 a1 a2).1 := by
  unfold ringCfg
  repeat' first
    | with_reducible first
        | exact h | apply setRing_kept
    | split
    | (dsimp only; split)
theorem mailboxIn_kept {s} {a0} {a1} {a2} (h : Kept s a0) : Kept s (mailboxIn a0 a1 a2) := by
  unfold mailboxIn
  repeat' with_reducible first
    | exact h | apply setHost_kept
theorem mailboxWrite_kept {s} {a0} {a1} {a2} (h : Kept s a0) : Kept s (mailboxWrite a0 a1 a2) := by
  unfold mailboxWrite
  repeat' with_reducible first
    | exact h | apply mailboxIn_kept | apply Kept.ite
theorem doorbell_kept {s} {a0} {a1} {a2} (h : Kept s a0) : Kept s (doorbell a0 a1 a2) := by
  unfold doorbell
  repeat' with_reducible first
    | exact h | apply setRing_kept | apply raiseInt_kept | apply errAt_kept | apply hostEvent_kept | apply Kept.ite
theorem hostReg_kept {s} {a0} {a1} {a2} {a3} (h : Kept s a0) : Kept s (hostReg a0 a1 a2 a3) := by
  unfold hostReg
  repeat' with_reducible first
    | exact h | apply ringCfg_kept | apply rangeAt_kept | apply notReadyAt_kept | apply mailboxWrite_kept | apply doorbell_kept
    | apply wr_kept | apply Kept.ite
theorem authReg_kept {s} {a0} {a1} {a2} {a3} (h : Kept s a0) : Kept s (authReg a0 a1 a2 a3) := by
  unfold authReg
  repeat' first
    | with_reducible first
        | exact h | apply fdSet_kept | apply setHost_kept | apply wr_kept | apply Kept.ite
    | split
theorem fuseArm_kept {s} {a0} {a1} {a2} (h : Kept s a0) : Kept s (fuseArm a0 a1 a2) := by
  unfold fuseArm
  repeat' with_reducible first
    | exact h | apply fdSet_kept | apply setHost_kept | apply Kept.ite
theorem fuseCmd_kept {s} {a0} {a1} {a2} {a3} {a4} (h : Kept s a0) : Kept s (fuseCmd a0 a1 a2 a3 a4) := by
  unfold fuseCmd
  repeat' with_reducible first
    | exact h | apply raiseInt_kept | apply errAt_kept | apply bump_kept | apply fdSet_kept | apply send_kept | apply setHost_kept
    | apply Kept.ite
theorem fuseReg_kept {s} {a0} {a1} {a2} {a3} {a4} (h : Kept s a0) : Kept s (fuseReg a0 a1 a2 a3 a4) := by
  unfold fuseReg
  repeat' first
    | with_reducible first
        | exact h | apply fuseArm_kept | apply fuseCmd_kept | apply wr_kept | apply Kept.ite
    | split
theorem postAbort_kept {s} {a0} {a1} {a2} {a3} (h : Kept s a0) : Kept s (postAbort a0 a1 a2 a3) := by
  unfold postAbort
  repeat' first
    | with_reducible first
        | exact h | apply postAll_kept
    | split
theorem abortAll_kept {s} {a0} {a1} (h : Kept s a0) : Kept s (abortAll a0 a1) := by
  unfold abortAll
  repeat' with_reducible first
    | exact h | exact Kept.refl _ | apply postAbort_kept | (intro _) | apply Kept.ite | apply Kept.folds
theorem visitOver_kept {s} {a0} {a1} {a2} {a3} (h : Kept s a0) : Kept s (visitOver a0 a1 a2 a3) := by
  unfold visitOver
  repeat' with_reducible first
    | exact h | apply setHeal_kept | apply setCore_kept
theorem visitDrop_kept {s} {a0} {a1} (h : Kept s a0) : Kept s (visitDrop a0 a1) := by
  unfold visitDrop
  repeat' first
    | with_reducible first
        | exact h | apply visitOver_kept | apply setHeal_kept
    | split
theorem setMover_kept {s} {a0} {a1} {a2} (h : Kept s a0) : Kept s (setMover a0 a1 a2) := by
  unfold setMover
  repeat' with_reducible first
    | exact h | apply setHeal_kept
theorem withMate_kept {s} {a0} {a1} {a2} (h : Kept s a0) (h2 : ∀ s x, Kept s (a2 s x)) : Kept s (withMate a0 a1 a2) := by
  unfold withMate
  repeat' with_reducible first
    | exact h | refine Kept.trans ?_ (h2 ..) | apply Kept.ite
theorem joinPool_kept {s} {a0} {a1} (h : Kept s a0) : Kept s (joinPool a0 a1) := by
  unfold joinPool
  repeat' with_reducible first
    | exact h | apply fdSet_kept | apply bindCore_kept | apply applyTarget_kept | apply setTarget_kept | apply Kept.ite
theorem moveAborted_kept {s} {a0} {a1} {a2} (h : Kept s a0) : Kept s (moveAborted a0 a1 a2) := by
  unfold moveAborted
  repeat' with_reducible first
    | exact h | exact Kept.refl _ | apply setMover_kept | apply withMate_kept | apply joinPool_kept | apply raiseInt_kept
    | apply errAt_kept | (intro _) | apply Kept.ite
theorem movesEnd_kept {s} {a0} {a1} {a2} (h : Kept s a0) : Kept s (movesEnd a0 a1 a2) := by
  unfold movesEnd
  repeat' with_reducible first
    | exact h | exact Kept.refl _ | apply moveAborted_kept | (intro _) | apply Kept.ite | apply Kept.folds
theorem movesLose_kept {s} {a0} {a1} (h : Kept s a0) : Kept s (movesLose a0 a1) := by
  unfold movesLose
  repeat' with_reducible first
    | exact h | apply movesEnd_kept
theorem dieCores_kept {s} {a0} {a1} (h : Kept s a0) : Kept s (dieCores a0 a1) := by
  unfold dieCores
  repeat' with_reducible first
    | exact h | exact Kept.refl _ | apply setCore_kept | apply visitDrop_kept | apply movesLose_kept | apply fdSet_kept | (intro _)
    | apply Kept.ite | apply Kept.folds
theorem setLog_kept {s} {a0} {a1} {a2} (h : Kept s a0) : Kept s (setLog a0 a1 a2) := by
  unfold setLog
  repeat' with_reducible first
    | exact h | apply setHeal_kept
theorem dieReset_kept {s} {a0} {a1} {a2} (h : Kept s a0) : Kept s (dieReset a0 a1 a2) := by
  unfold dieReset
  repeat' with_reducible first
    | exact h | exact Kept.refl _ | apply selfRefresh_kept | apply dieCores_kept | apply clearPages_kept | apply fdSet_kept
    | apply setLog_kept | apply bridgesReset_kept | apply setNet_kept | apply setHub_kept | apply setDieCause_kept | (intro _)
    | apply Kept.folds
theorem portDieReset_kept {s} {a0} {a1} {a2} (h : Kept s a0) : Kept s (portDieReset a0 a1 a2) := by
  unfold portDieReset
  repeat' with_reducible first
    | exact h | exact Kept.refl _ | apply setPort_kept | apply clearPages_kept | apply fdSet_kept | apply bridgesReset_kept
    | apply setNet_kept | apply setHub_kept | apply setDieCause_kept | (intro _) | apply Kept.folds
theorem resetDie_kept {s} {a0} {a1} {a2} (h : Kept s a0) : Kept s (resetDie a0 a1 a2) := by
  unfold resetDie
  repeat' with_reducible first
    | exact h | apply gradeEval_kept | apply abortAll_kept | apply dieReset_kept | apply moduleReset_kept | apply portDieReset_kept
    | apply Kept.ite
theorem rstCtl_kept {s} {a0} {a1} {a2} (h : Kept s a0) : Kept s (rstCtl a0 a1 a2) := by
  unfold rstCtl
  repeat' with_reducible first
    | exact h | apply fdSet_kept | apply raiseInt_kept | apply errAt_kept | apply setHub_kept | apply resetDie_kept | apply Kept.ite
theorem rstClr_kept {s} {a0} {a1} (h : Kept s a0) : Kept s (rstClr a0 a1) := by
  unfold rstClr
  repeat' with_reducible first
    | exact h | apply wr_kept | apply Kept.ite
theorem aonReg_kept {s} {a0} {a1} {a2} {a3} {a4} (h : Kept s a0) : Kept s (aonReg a0 a1 a2 a3 a4) := by
  unfold aonReg
  repeat' first
    | with_reducible first
        | exact h | apply rstCtl_kept | apply rstClr_kept | apply wr_kept
    | split
theorem clkCtl_kept {s} {a0} {a1} {a2} (h : Kept s a0) : Kept s (clkCtl a0 a1 a2) := by
  unfold clkCtl
  repeat' with_reducible first
    | exact h | apply fdSet_kept | apply Kept.ite
theorem standbyEnter_kept {s} {a0} (h : Kept s a0) : Kept s (standbyEnter a0) := by
  unfold standbyEnter
  repeat' first
    | with_reducible first
        | exact h | apply raiseInt_kept | apply errAt_kept | apply moduleDown_kept | apply setPins_kept
    | split
    | (dsimp only; split)
theorem pwrReg_kept {s} {a0} {a1} {a2} {a3} {a4} (h : Kept s a0) : Kept s (pwrReg a0 a1 a2 a3 a4) := by
  unfold pwrReg
  repeat' with_reducible first
    | exact h | apply standbyEnter_kept | apply wr_kept | apply Kept.ite
theorem signAll_kept {s} {a0} {a1} {a2} (h : Kept s a0) : Kept s (signAll a0 a1 a2) := by
  unfold signAll
  repeat' with_reducible first
    | exact h | exact Kept.refl _ | apply fdSet_kept | (intro _) | apply Kept.folds
theorem epochFlip_kept {s} {a0} {a1} {a2} (h : Kept s a0) : Kept s (epochFlip a0 a1 a2) := by
  unfold epochFlip
  repeat' with_reducible first
    | exact h | apply bankRefused_kept | apply signAll_kept | apply Kept.ite | apply Kept.upd
theorem loseSlice_kept {s} {a0} {a1} (h : Kept s a0) : Kept s (loseSlice a0 a1) := by
  unfold loseSlice
  repeat' with_reducible first
    | apply setStack_kept | apply Kept.upd h
theorem loseUnread_kept {s} {a0} {a1} (h : Kept s a0) : Kept s (loseUnread a0 a1) := by
  unfold loseUnread
  repeat' first
    | with_reducible first
        | exact h | exact Kept.refl _ | apply loseSlice_kept | (intro _) | apply Kept.ite | apply Kept.folds
    | split
theorem retireBank_kept {s} {a0} {a1} (h : Kept s a0) : Kept s (retireBank a0 a1) := by
  unfold retireBank
  repeat' with_reducible first
    | exact h | apply signAll_kept
theorem signReg_kept {s} {a0} {a1} {a2} {a3} {a4} (h : Kept s a0) : Kept s (signReg a0 a1 a2 a3 a4) := by
  unfold signReg
  repeat' first
    | with_reducible first
        | exact h | apply epochFlip_kept | apply loseUnread_kept | apply signpostInvalidate_kept | apply retireBank_kept | apply wr_kept
        | apply bankRefused_kept | apply Kept.ite
    | split
theorem healCsel_kept {s} {a0} {a1} {a2} (h : Kept s a0) : Kept s (healCsel a0 a1 a2) := by
  unfold healCsel
  repeat' with_reducible first
    | exact h | apply wr_kept
theorem setLadder_kept {s} {a0} {a1} {a2} (h : Kept s a0) : Kept s (setLadder a0 a1 a2) := by
  unfold setLadder
  repeat' with_reducible first
    | exact h | apply setHeal_kept | apply clusVolts_kept | apply raiseInt_kept | apply bump_kept | apply Kept.ite
theorem logAdd_kept {s} {a0} {a1} {a2} (h : Kept s a0) : Kept s (logAdd a0 a1 a2) := by
  unfold logAdd
  repeat' with_reducible first
    | exact h | apply raiseInt_kept | apply errAt_kept | apply bump_kept | apply setLog_kept | apply Kept.ite
theorem healCctl_kept {s} {a0} {a1} {a2} (h : Kept s a0) : Kept s (healCctl a0 a1 a2) := by
  unfold healCctl
  repeat' with_reducible first
    | exact h | apply setLadder_kept | apply logAdd_kept | apply Kept.ite
theorem pairWrite_kept {s} {a0} {a1} {a2} {a3} (h : Kept s a0) : Kept s (pairWrite a0 a1 a2 a3) := by
  unfold pairWrite
  repeat' first
    | with_reducible first
        | exact h | apply errAt_kept | apply wr_kept
    | split
    | (dsimp only; split)
theorem healReg_kept {s} {a0} {a1} {a2} {a3} {a4} (h : Kept s a0) : Kept s (healReg a0 a1 a2 a3 a4) := by
  unfold healReg
  repeat' first
    | with_reducible first
        | exact h | apply rangeAt_kept | apply wr_kept | apply healCsel_kept | apply healCctl_kept | apply pairWrite_kept | apply Kept.ite
    | split
theorem closeRefused_kept {s} {a0} {a1} {a2} (h : Kept s a0) : Kept s (closeRefused a0 a1 a2) := by
  unfold closeRefused
  repeat' with_reducible first
    | exact h | apply raiseInt_kept | apply errAt_kept | apply fdSet_kept
theorem markOpen_kept {s} {a0} {a1} (h : Kept s a0) : Kept s (markOpen a0 a1) := by
  unfold markOpen
  repeat' with_reducible apply Kept.upd h
theorem awaitTest_kept {s} {a0} {a1} (h : Kept s a0) : Kept s (awaitTest a0 a1) := by
  unfold awaitTest
  repeat' with_reducible first
    | exact h | exact Kept.refl _ | apply setBanks_kept | apply setCstate_kept | apply setBank_kept | apply setHeal_kept
    | apply setLadder_kept | (intro _) | apply Kept.ite | apply Kept.folds
theorem setPState_kept {s} {a0} {a1} {a2} (h : Kept s a0) : Kept s (setPState a0 a1 a2) := by
  unfold setPState
  repeat' with_reducible first
    | exact h | apply fdSet_kept
theorem portEnable_kept {s} {a0} {a1} (h : Kept s a0) : Kept s (portEnable a0 a1) := by
  unfold portEnable
  repeat' with_reducible first
    | exact h | apply setPState_kept | apply fdSet_kept | apply Kept.ite
theorem withdrawUnit_kept {s} {a0} {a1} {a2} (h : Kept s a0) : Kept s (withdrawUnit a0 a1 a2) := by
  unfold withdrawUnit
  repeat' first
    | with_reducible first
        | exact h | exact Kept.refl _ | apply setHeal_kept | apply markOpen_kept | apply awaitTest_kept | apply setBank_kept
        | apply portEnable_kept | (intro _) | apply Kept.ite | apply Kept.folds
    | split
theorem fenceCore_kept {s} {a0} {a1} (h : Kept s a0) : Kept s (fenceCore a0 a1) := by
  unfold fenceCore
  repeat' with_reducible first
    | exact h | apply visitDrop_kept | apply movesLose_kept | apply markClosed_kept | apply coreFields_kept | apply setCore_kept
    | apply setBanks_kept | apply setCstate_kept
theorem fencePair_kept {s} {a0} {a1} (h : Kept s a0) : Kept s (fencePair a0 a1) := by
  unfold fencePair
  repeat' with_reducible first
    | exact h | exact Kept.refl _ | apply fenceCore_kept | (intro _) | apply Kept.folds
theorem fenceCluster_kept {s} {a0} {a1} (h : Kept s a0) : Kept s (fenceCluster a0 a1) := by
  unfold fenceCluster
  repeat' with_reducible first
    | exact h | exact Kept.refl _ | apply fenceCore_kept | apply markClosed_kept | apply fdSet_kept | (intro _) | apply Kept.folds
theorem fenceRouter_kept {s} {a0} {a1} (h : Kept s a0) : Kept s (fenceRouter a0 a1) := by
  unfold fenceRouter
  repeat' with_reducible first
    | exact h | apply fencePair_kept | apply markClosed_kept | apply setRout_kept
theorem queueBlk_kept {s} {a0} {a1} {a2} (h : Kept s a0) : Kept s (queueBlk a0 a1 a2) := by
  unfold queueBlk
  repeat' with_reducible first
    | exact h | apply setPort_kept
theorem portLeft_kept {s} {a0} {a1} (h : Kept s a0) : Kept s (portLeft a0 a1) := by
  unfold portLeft
  repeat' with_reducible first
    | exact h | apply raiseInt_kept | apply errAt_kept
theorem reroute_kept {s} {a0} {a1} (h : Kept s a0) : Kept s (reroute a0 a1) := by
  unfold reroute
  repeat' first
    | with_reducible first
        | exact h | exact Kept.refl _ | apply setPort_kept | apply epAdd_kept | apply xAdd_kept | apply setNet_kept | (intro _)
        | apply Kept.ite | apply Kept.folds
    | (dsimp only; split)
theorem portOff_kept {s} {a0} {a1} {a2} (h : Kept s a0) : Kept s (portOff a0 a1 a2) := by
  unfold portOff
  repeat' with_reducible first
    | exact h | apply reroute_kept | apply setPState_kept | apply wr_kept | apply setPort_kept | apply fdSet_kept
theorem portDown_kept {s} {a0} {a1} (h : Kept s a0) : Kept s (portDown a0 a1) := by
  unfold portDown
  repeat' with_reducible first
    | exact h | apply portLeft_kept | apply bump_kept | apply portOff_kept
theorem laneFail_kept {s} {a0} {a1} {a2} {a3} (h : Kept s a0) : Kept s (laneFail a0 a1 a2 a3) := by
  unfold laneFail
  repeat' first
    | with_reducible first
        | exact h | apply fdSet_kept | apply report_kept | apply raiseInt_kept | apply queueBlk_kept | apply setPort_kept
        | apply portDown_kept | apply Kept.ite
    | split
    | (dsimp only; split)
theorem fenceLane_kept {s} {a0} {a1} {a2} {a3} (h : Kept s a0) : Kept s (fenceLane a0 a1 a2 a3) := by
  unfold fenceLane
  repeat' with_reducible first
    | exact h | apply markClosed_kept | apply laneFail_kept | apply fdSet_kept | apply Kept.ite
theorem portDisable_kept {s} {a0} {a1} (h : Kept s a0) : Kept s (portDisable a0 a1) := by
  unfold portDisable
  repeat' with_reducible first
    | exact h | apply portLeft_kept | apply portOff_kept | apply Kept.ite
theorem fencePort_kept {s} {a0} {a1} (h : Kept s a0) : Kept s (fencePort a0 a1) := by
  unfold fencePort
  repeat' with_reducible first
    | exact h | apply portDisable_kept | apply markClosed_kept
theorem fenceSlice_kept {s} {a0} {a1} (h : Kept s a0) : Kept s (fenceSlice a0 a1) := by
  unfold fenceSlice
  repeat' with_reducible first
    | exact h | apply loseSlice_kept | apply closeSlice_kept | apply fetchHomes_kept | apply secondClosed_kept | apply Kept.ite
theorem fenceDie_kept {s} {a0} {a1} (h : Kept s a0) : Kept s (fenceDie a0 a1) := by
  unfold fenceDie
  repeat' with_reducible first
    | exact h | exact Kept.refl _ | apply markClosed_kept | apply fenceCluster_kept | apply fenceRouter_kept | apply fenceStack_kept
    | apply fencePort_kept | apply fdSet_kept | (intro _) | apply Kept.ite | apply Kept.folds
theorem fenceUnit_kept {s} {a0} {a1} (h : Kept s a0) : Kept s (fenceUnit a0 a1) := by
  unfold fenceUnit
  repeat' first
    | with_reducible first
        | exact h | apply fencePair_kept | apply fenceCluster_kept | apply fenceRouter_kept | apply markClosed_kept | apply fenceLane_kept
        | apply fencePort_kept | apply fenceSlice_kept | apply fenceStack_kept | apply fenceDie_kept
    | split
theorem workLost_kept {s} {a0} {a1} (h : Kept s a0) : Kept s (workLost a0 a1) := by
  unfold workLost
  repeat' with_reducible first
    | exact h | apply postAbort_kept | apply contextFail_kept | apply setCtx_kept | apply Kept.ite
theorem closeUnit_kept {s} {a0} {a1} (h : Kept s a0) : Kept s (closeUnit a0 a1) := by
  unfold closeUnit
  repeat' first
    | with_reducible first
        | exact h | exact Kept.refl _ | apply mapChanged_kept | apply raiseInt_kept | apply bump_kept | apply fenceUnit_kept
        | apply workLost_kept | (intro _) | apply Kept.folds
    | split
theorem healClose_kept {s} {a0} {a1} {a2} (h : Kept s a0) : Kept s (healClose a0 a1 a2) := by
  unfold healClose
  repeat' first
    | with_reducible first
        | exact h | apply closeRefused_kept | apply fdSet_kept | apply mapChanged_kept | apply bump_kept | apply withdrawUnit_kept
        | apply closeUnit_kept | apply Kept.ite
    | split
theorem mvLatch_kept {s} {a0} (h : Kept s a0) : Kept s (mvLatch a0) := by
  unfold mvLatch
  repeat' with_reducible first
    | exact h | apply wr_kept
theorem poolCheck_kept {s} {a0} {a1} (h : Kept s a0) : Kept s (poolCheck a0 a1) := by
  unfold poolCheck
  repeat' with_reducible first
    | exact h | apply hubLog_kept | apply freeUsed_kept | apply Kept.ite
theorem moveStart_kept {s} {a0} {a1} {a2} {a3} (h : Kept s a0) : Kept s (moveStart a0 a1 a2 a3) := by
  unfold moveStart
  repeat' with_reducible first
    | exact h | exact Kept.refl _ | apply setMover_kept | apply moveAborted_kept | apply bump_kept | apply raiseInt_kept
    | apply errAt_kept | apply poolCheck_kept | apply withMate_kept | apply applyTarget_kept | apply setTarget_kept | (intro _)
    | apply Kept.ite
theorem moveAbort_kept {s} {a0} {a1} (h : Kept s a0) : Kept s (moveAbort a0 a1) := by
  unfold moveAbort
  repeat' with_reducible first
    | exact h | apply moveAborted_kept | apply Kept.ite
theorem mvCtl_kept {s} {a0} {a1} {a2} (h : Kept s a0) : Kept s (mvCtl a0 a1 a2) := by
  unfold mvCtl
  repeat' with_reducible first
    | exact h | apply setMover_kept | apply notReadyAt_kept | apply moveStart_kept | apply moveAbort_kept | apply Kept.ite
theorem healHubReg_kept {s} {a0} {a1} {a2} {a3} {a4} (h : Kept s a0) : Kept s (healHubReg a0 a1 a2 a3 a4) := by
  unfold healHubReg
  repeat' first
    | with_reducible first
        | exact h | apply healClose_kept | apply mvLatch_kept | apply wr_kept | apply setMover_kept | apply mvCtl_kept
    | split
theorem eqAsk_kept {s} {a0} {a1} {a2} (h : Kept s a0) : Kept s (eqAsk a0 a1 a2) := by
  unfold eqAsk
  repeat' with_reducible first
    | exact h | apply freeUsed_kept | apply queueBlk_kept
theorem eqAll_kept {s} {a0} {a1} (h : Kept s a0) : Kept s (eqAll a0 a1) := by
  unfold eqAll
  repeat' with_reducible first
    | exact h | exact Kept.refl _ | apply eqAsk_kept | (intro _) | apply Kept.ite | apply Kept.folds
theorem portRetrain_kept {s} {a0} {a1} (h : Kept s a0) : Kept s (portRetrain a0 a1) := by
  unfold portRetrain
  repeat' with_reducible first
    | exact h | apply setPort_kept | apply portOff_kept | apply eqAll_kept | apply Kept.ite
theorem portCtl_kept {s} {a0} {a1} {a2} {a3} (h : Kept s a0) : Kept s (portCtl a0 a1 a2 a3) := by
  unfold portCtl
  repeat' with_reducible first
    | exact h | apply wr_kept | apply portEnable_kept | apply gradeEval_kept | apply portDisable_kept | apply portRetrain_kept
    | apply Kept.ite
theorem portExpect_kept {s} {a0} {a1} {a2} (h : Kept s a0) : Kept s (portExpect a0 a1 a2) := by
  unfold portExpect
  repeat' with_reducible first
    | exact h | apply wr_kept | apply portRetrain_kept | apply Kept.ite
theorem portRecWrite_kept {s} {a0} {a1} {a2} (h : Kept s a0) : Kept s (portRecWrite a0 a1 a2) := by
  unfold portRecWrite
  repeat' with_reducible first
    | exact h | apply setPort_kept | apply freeUsed_kept
theorem portReg_kept {s} {a0} {a1} {a2} {a3} {a4} (h : Kept s a0) : Kept s (portReg a0 a1 a2 a3 a4) := by
  unfold portReg
  repeat' first
    | with_reducible first
        | exact h | apply portCtl_kept | apply portExpect_kept | apply portRecWrite_kept | apply wr_kept
    | split
theorem causeReg_kept {s} {a0} {a1} {a2} {a3} (h : Kept s a0) : Kept s (causeReg a0 a1 a2 a3) := by
  unfold causeReg
  repeat' first
    | with_reducible first
        | exact h | apply notReadyAt_kept | apply setTwin_kept | apply wr_kept | apply freeUsed_kept | apply Kept.ite
    | split
theorem xRefused_kept {s} {a0} {a1} {a2} (h : Kept s a0) : Kept s (xRefused a0 a1 a2) := by
  unfold xRefused
  repeat' with_reducible first
    | exact h | apply raiseInt_kept | apply errAt_kept
theorem xctlWrite_kept {s} {a0} {a1} {a2} (h : Kept s a0) : Kept s (xctlWrite a0 a1 a2) := by
  unfold xctlWrite
  repeat' first
    | with_reducible first
        | exact h | exact Kept.refl _ | apply fdSet_kept | apply xRefused_kept | apply freeUsed_kept | (intro _) | apply Kept.ite
        | apply Kept.folds | apply Kept.upd h
    | split
    | with_reducible apply Kept.upd
theorem setRoutes_kept {s} {a0} {a1} {a2} (h : Kept s a0) : Kept s (setRoutes a0 a1 a2) := by
  unfold setRoutes
  repeat' with_reducible apply Kept.upd h
theorem edataCommit_kept {s} {a0} {a1} {a2} (h : Kept s a0) : Kept s (edataCommit a0 a1 a2) := by
  unfold edataCommit
  repeat' with_reducible first
    | exact h | apply xRefused_kept | apply setRoutes_kept | apply Kept.ite
theorem edataStage_kept {s} {a0} {a1} {a2} {a3} (h : Kept s a0) : Kept s (edataStage a0 a1 a2 a3) := by
  unfold edataStage
  repeat' with_reducible first
    | exact h | apply setRoutes_kept
theorem xtabReg_kept {s} {a0} {a1} {a2} {a3} {a4} (h : Kept s a0) : Kept s (xtabReg a0 a1 a2 a3 a4) := by
  unfold xtabReg
  repeat' first
    | with_reducible first
        | exact h | apply xctlWrite_kept | apply edataCommit_kept | apply edataStage_kept | apply wr_kept | apply Kept.ite
    | split
theorem regReg_kept {s} {a0} {a1} {a2} {a3} {a4} {a5} (h : Kept s a0) : Kept s (regReg a0 a1 a2 a3 a4 a5) := by
  unfold regReg
  repeat' first
    | with_reducible first
        | exact h | apply headerReg_kept | apply coreReg_kept | apply flowReg_kept | apply spadReg_kept | apply qengReg_kept
        | apply routReg_kept | apply clusReg_kept | apply dieReg_kept | apply memcReg_kept | apply bankFields_kept | apply wr_kept
        | apply gaugeReg_kept | apply hostReg_kept | apply authReg_kept | apply fuseReg_kept | apply aonReg_kept | apply clkCtl_kept
        | apply pwrReg_kept | apply signReg_kept | apply healReg_kept | apply healHubReg_kept | apply portReg_kept | apply causeReg_kept
        | apply xtabReg_kept | apply Kept.ite
    | split
theorem fieldsWrite_kept {s} {a0} {a1} {a2} {a3} {a4} {a5} (h : Kept s a0) : Kept s (fieldsWrite a0 a1 a2 a3 a4 a5).1 := by
  unfold fieldsWrite
  repeat' first
    | with_reducible first
        | exact h | exact Kept.refl _ | apply accessDenied_kept | apply rangeAt_kept | apply writeOutcome_kept | apply withMirror_kept
        | apply pairReg_kept | apply clusRefused_kept | apply regReg_kept | (intro _) | apply Kept.ite | apply Kept.upd h
    | split
    | (dsimp only; split)
theorem pageWrite_kept {s} {a0} {a1} {a2} {a3} {a4} {a5} (h : Kept s a0) : Kept s (pageWrite a0 a1 a2 a3 a4 a5).1 := by
  unfold pageWrite
  repeat' first
    | with_reducible first
        | exact h | apply accessDenied_kept | apply accessRange_kept | apply closedWrite_kept | apply fieldsWrite_kept
    | split
theorem broadcastWrite_kept {s} {a0} {a1} {a2} {a3} {a4} {a5} (h : Kept s a0) : Kept s (broadcastWrite a0 a1 a2 a3 a4 a5).1 := by
  unfold broadcastWrite
  repeat' first
    | with_reducible first
        | exact h | exact Kept.refl _ | apply pageWrite_kept | (intro _) | apply Kept.foldsFst
    | split
theorem writeCode_kept {s} {a0} {a1} {a2} {a3} {a4} {a5} (h : Kept s a0) : Kept s (writeCode a0 a1 a2 a3 a4 a5).1 := by
  unfold writeCode
  repeat' first
    | with_reducible first
        | exact h | apply msixWrite_kept | apply accessRange_kept | apply broadcastWrite_kept | apply pageWrite_kept | apply Kept.ite
    | split
theorem registerWrite_kept {s} {a0} {a1} {a2} {a3} {a4} {a5} (h : Kept s a0) : Kept s (registerWrite a0 a1 a2 a3 a4 a5) := by
  unfold registerWrite
  repeat' with_reducible first
    | exact h | apply writeCode_kept
theorem regCmd_kept {s} {a0} {a1} {a2} {a3} {a4} (h : Kept s a0) : Kept s (regCmd a0 a1 a2 a3 a4) := by
  unfold regCmd
  repeat' with_reducible first
    | exact h | apply registerWrite_kept
theorem copyFields_kept {s} {a0} {a1} {a2} {a3} (h : Kept s a0) : Kept s (copyFields a0 a1 a2 a3) := by
  unfold copyFields
  repeat' with_reducible first
    | exact h | exact Kept.refl _ | apply wr_kept | (intro _) | apply Kept.ite | apply Kept.folds
theorem hostSpad_kept {s} {a0} {a1} {a2} {a3} {a4} (h : Kept s a0) : Kept s (hostSpad a0 a1 a2 a3 a4) := by
  unfold hostSpad
  repeat' with_reducible first
    | exact h | apply hostBad_kept | apply send_kept | apply extSpad_kept | apply Kept.ite
theorem memServe_kept {s} {a0} {a1} {a2} {a3} {a4} (h : Kept s a0) : Kept s (memServe a0 a1 a2 a3 a4) := by
  unfold memServe
  repeat' with_reducible first
    | exact h | exact Kept.refl _ | apply blockRead_kept | apply bump_kept | apply settle_kept | (intro _) | apply Kept.folds
theorem unitMem_kept {s} {a0} {a1} {a2} {a3} {a4} (h : Kept s a0) : Kept s (unitMem a0 a1 a2 a3 a4).1 := by
  unfold unitMem
  repeat' first
    | with_reducible first
        | exact h | exact Kept.refl _ | apply reqRefused_kept | apply memWrite_kept | apply memServe_kept | (intro _)
        | apply Kept.foldsFst
    | split
    | (dsimp only; split)
theorem hostMem_kept {s} {a0} {a1} {a2} {a3} {a4} {a5} (h : Kept s a0) : Kept s (hostMem a0 a1 a2 a3 a4 a5) := by
  unfold hostMem
  repeat' with_reducible first
    | exact h | apply unitMem_kept | apply send_kept | apply Kept.ite
theorem barAccess_kept {s} {a0} {a1} {a2} {a3} {a4} {a5} (h : Kept s a0) : Kept s (barAccess a0 a1 a2 a3 a4 a5) := by
  unfold barAccess
  repeat' with_reducible first
    | exact h | apply hostSpad_kept | apply hostBad_kept | apply send_kept | apply hostMem_kept | apply Kept.ite
theorem sendBlk_kept {s} {a0} {a1} {a2} (h : Kept s a0) : Kept s (sendBlk a0 a1 a2) := by
  unfold sendBlk
  repeat' with_reducible first
    | exact h | apply send_kept
theorem laneOut_kept {s} {a0} {a1} {a2} {a3} {a4} (h : Kept s a0) : Kept s (laneOut a0 a1 a2 a3 a4) := by
  unfold laneOut
  repeat' with_reducible first
    | exact h | apply send_kept | apply setPort_kept
theorem spareOut_kept {s} {a0} {a1} {a2} {a3} (h : Kept s a0) : Kept s (spareOut a0 a1 a2 a3) := by
  unfold spareOut
  repeat' with_reducible first
    | apply laneOut_kept | apply Kept.upd h
theorem nackPkt_kept {s} {a0} {a1} {a2} {a3} (h : Kept s a0) : Kept s (nackPkt a0 a1 a2 a3) := by
  unfold nackPkt
  repeat' with_reducible first
    | exact h | apply inject_kept | apply bump_kept

end Sys2Proof.Machine
end

