-- ==== Sys2Proof/Laws/Kept3.lean ====
section
/-! SUPPORT. What every shared operation keeps: continued from Kept2.lean, callees before callers. -/
namespace Sys2Proof.Machine
open Sys2Proof
set_option Elab.async false

theorem jRespond_kept {s} {a0} {a1} {a2} {a3} {a4} {a5} (h : Kept s a0) : Kept s (jRespond a0 a1 a2 a3 a4 a5) := by
  unfold jRespond
  repeat' first
    | with_reducible first
        | exact h | exact Kept.refl _ | apply bump_kept | apply inject_kept | (intro _) | apply Kept.ite | apply Kept.folds
    | split
theorem jRefuse_kept {s} {a0} {a1} {a2} {a3} (h : Kept s a0) : Kept s (jRefuse a0 a1 a2 a3) := by
  unfold jRefuse
  repeat' with_reducible first
    | exact h | exact Kept.refl _ | apply nackPkt_kept | apply jRespond_kept | (intro _) | apply Kept.ite | apply Kept.folds
theorem jStart_kept {s} {a0} {a1} {a2} {a3} (h : Kept s a0) : Kept s (jStart a0 a1 a2 a3) := by
  unfold jStart
  repeat' with_reducible first
    | exact h | exact Kept.refl _ | apply spadApply_kept | apply setSlot_kept | (intro _) | apply Kept.folds
theorem jHoldPart_kept {s} {a0} {a1} {a2} {a3} {a4} {a5} {a6} (h : Kept s a0) : Kept s (jHoldPart a0 a1 a2 a3 a4 a5 a6) := by
  unfold jHoldPart
  repeat' with_reducible first
    | exact h | exact Kept.refl _ | apply spadApply_kept | (intro _) | apply Kept.folds
theorem jFetch_kept {s} {a0} {a1} {a2} (h : Kept s a0) : Kept s (jFetch a0 a1 a2).1 := by
  unfold jFetch
  repeat' first
    | with_reducible first
        | exact h | apply spadFetch_kept | refine Kept.fst (by assumption) ?_
    | split
theorem jAddPart_kept {s} {a0} {a1} {a2} {a3} {a4} {a5} (h : Kept s a0) : Kept s (jAddPart a0 a1 a2 a3 a4 a5) := by
  unfold jAddPart
  repeat' with_reducible first
    | exact h | exact Kept.refl _ | apply jFetch_kept | apply spadApply_kept | (intro _) | apply Kept.folds
theorem jMark_kept {s} {a0} {a1} {a2} {a3} {a4} {a5} (h : Kept s a0) : Kept s (jMark a0 a1 a2 a3 a4 a5) := by
  unfold jMark
  repeat' with_reducible first
    | exact h | exact Kept.refl _ | apply spadApply_kept | (intro _) | apply Kept.folds
theorem jComplete_kept {s} {a0} {a1} {a2} {a3} {a4} (h : Kept s a0) : Kept s (jComplete a0 a1 a2 a3 a4) := by
  unfold jComplete
  repeat' with_reducible first
    | exact h | exact Kept.refl _ | apply bump_kept | apply setSlot_kept | apply applyWord_kept | apply qErr_kept | apply writeStat_kept
    | apply wakeCause_kept | (intro _) | apply Kept.ite | apply Kept.folds
theorem jSettle_kept {s} {a0} {a1} {a2} {a3} (h : Kept s a0) : Kept s (jSettle a0 a1 a2 a3) := by
  unfold jSettle
  repeat' with_reducible first
    | exact h | apply jComplete_kept | apply Kept.ite
theorem junctionPacket_kept {s} {a0} {a1} {a2} (h : Kept s a0) : Kept s (junctionPacket a0 a1 a2) := by
  unfold junctionPacket
  repeat' with_reducible first
    | exact h | apply bump_kept | apply jRefuse_kept | apply qErr_kept | apply jRespond_kept | apply jStart_kept | apply jHoldPart_kept
    | apply jAddPart_kept | apply jMark_kept | apply setSlot_kept | apply bumpBy_kept | apply jSettle_kept | apply Kept.ite
theorem takePkt_kept {s} {a0} {a1} {a2} (h : Kept s a0) : Kept s (takePkt a0 a1 a2) := by
  unfold takePkt
  repeat' with_reducible first
    | exact h | apply setRout_kept
theorem holdPkt_kept {s} {a0} {a1} {a2} (h : Kept s a0) : Kept s (holdPkt a0 a1 a2) := by
  unfold holdPkt
  repeat' with_reducible first
    | exact h | apply setRout_kept | apply Kept.ite
theorem askBanks_kept {s} {a0} {a1} {a2} {a3} (h : Kept s a0) : Kept s (askBanks a0 a1 a2 a3).1 := by
  fun_induction askBanks
  repeat' with_reducible first
    | exact h | apply bankAsk_kept | refine Kept.fst (by assumption) ?_ | apply_assumption
theorem junctionIn_kept {s} {a0} {a1} {a2} (h : Kept s a0) : Kept s (junctionIn a0 a1 a2) := by
  unfold junctionIn
  repeat' with_reducible first
    | exact h | exact Kept.refl _ | apply junctionPacket_kept | apply takePkt_kept | apply jRefuse_kept | apply bump_kept
    | apply holdPkt_kept | apply askBanks_kept | (intro _) | apply Kept.ite | apply Kept.folds
theorem bankReach_kept {s} {a0} {a1} {a2} {a3} (h : Kept s a0) : Kept s (bankReach a0 a1 a2 a3) := by
  unfold bankReach
  repeat' with_reducible first
    | exact h | apply setBank_kept | apply bankRetarget_kept | apply Kept.ite
theorem bankPowered_kept {s} {a0} {a1} {a2} (h : Kept s a0) : Kept s (bankPowered a0 a1 a2) := by
  unfold bankPowered
  repeat' with_reducible first
    | exact h | apply spadServe_kept | apply bankReach_kept | apply setCore_kept | apply Kept.ite
theorem setPower_kept {s} {a0} {a1} (h : Kept s a0) : Kept s (setPower a0 a1) := by
  unfold setPower
  repeat' with_reducible apply Kept.upd h
theorem takeCmd_kept {s} {a0} {a1} (h : Kept s a0) : Kept s (takeCmd a0 a1) := by
  unfold takeCmd
  repeat' with_reducible first
    | exact h | apply setHost_kept
theorem withCmd_kept {s} {a0} {a1} {a2} {a3} {a4} (h : Kept s a0) (h4 : ∀ s x, Kept s (a4 s x)) : Kept s (withCmd a0 a1 a2 a3 a4) := by
  unfold withCmd
  repeat' first
    | with_reducible first
        | exact h | refine Kept.trans ?_ (h4 ..) | apply takeCmd_kept | apply Kept.ite
    | split
theorem finish_kept {s} {a0} {a1} {a2} {a3} {a4} (h : Kept s a0) : Kept s (finish a0 a1 a2 a3 a4) := by
  unfold finish
  repeat' with_reducible first
    | exact h | apply complete_kept
theorem endCmd_kept {s} {a0} {a1} {a2} {a3} (h : Kept s a0) : Kept s (endCmd a0 a1 a2 a3) := by
  unfold endCmd
  repeat' with_reducible first
    | exact h | apply finish_kept
theorem setDevice_kept {s} {a0} {a1} (h : Kept s a0) : Kept s (setDevice a0 a1) := by
  unfold setDevice
  repeat' with_reducible first
    | exact h | exact Kept.refl _ | apply signAll_kept | apply fdSet_kept | (intro _) | apply Kept.folds
theorem enablePorts_kept {s} {a0} (h : Kept s a0) : Kept s (enablePorts a0) := by
  unfold enablePorts
  repeat' with_reducible first
    | exact h | exact Kept.refl _ | apply portEnable_kept | apply fdSet_kept | (intro _) | apply Kept.ite | apply Kept.folds
theorem fabricCfg_kept {s} {a0} {a1} {a2} {a3} (h : Kept s a0) : Kept s (fabricCfg a0 a1 a2 a3).1 := by
  unfold fabricCfg
  repeat' first
    | with_reducible first
        | exact h | exact Kept.refl _ | apply setDevice_kept | apply setHost_kept | apply setRoutes_kept | apply xctlWrite_kept
        | apply fdSet_kept | apply portRetrain_kept | apply gradeEval_kept | apply enablePorts_kept | apply setFlash_kept | (intro _)
        | apply Kept.ite | apply Kept.folds
    | split
    | (dsimp only; split)
theorem fabricCmd_kept {s} {a0} {a1} {a2} (h : Kept s a0) : Kept s (fabricCmd a0 a1 a2) := by
  unfold fabricCmd
  repeat' with_reducible first
    | exact h | apply endCmd_kept | apply fabricCfg_kept | apply Kept.ite
theorem onFabCfg_kept {s} {a0} {a1} {a2} {a3} (h : Kept s a0) : KeptNext s (onFabCfg a0 a1 a2 a3) := by
  unfold onFabCfg
  repeat' with_reducible first
    | exact h | exact Kept.refl _ | apply onUnit_kept | apply withCmd_kept | apply fabricCmd_kept | (intro _)
theorem setMu_kept {s} {a0} {a1} {a2} {a3} (h : Kept s a0) : Kept s (setMu a0 a1 a2 a3) := by
  unfold setMu
  repeat' with_reducible first
    | exact h | apply setCore_kept
theorem muWalkEnd_kept {s} {a0} {a1} {a2} (h : Kept s a0) : Kept s (muWalkEnd a0 a1 a2) := by
  unfold muWalkEnd
  repeat' with_reducible first
    | exact h | apply rangeRelease_kept | apply setMu_kept | apply emitTok_kept | apply takeCredits_kept
theorem muBegin_kept {s} {a0} {a1} {a2} {a3} {a4} (h : Kept s a0) : Kept s (muBegin a0 a1 a2 a3 a4) := by
  unfold muBegin
  repeat' with_reducible first
    | exact h | apply coreErr_kept | apply rangeTake_kept | apply setMu_kept | apply muWalkEnd_kept | apply Kept.ite
theorem fuseExpiry_kept {s} {a0} (h : Kept s a0) : Kept s (fuseExpiry a0) := by
  unfold fuseExpiry
  repeat' with_reducible first
    | exact h | apply fdSet_kept | apply setHost_kept | apply Kept.ite
theorem qpopTimeout_kept {s} {a0} {a1} (h : Kept s a0) : Kept s (qpopTimeout a0 a1) := by
  unfold qpopTimeout
  repeat' first
    | with_reducible first
        | exact h | apply seqFinish_kept
    | split
theorem discardPkt_kept {s} {a0} {a1} {a2} (h : Kept s a0) : Kept s (discardPkt a0 a1 a2) := by
  unfold discardPkt
  repeat' with_reducible first
    | exact h | apply bump_kept | apply xAdd_kept | apply Kept.ite
theorem offBits_kept {s} {a0} {a1} (h : Kept s a0) : Kept s (offBits a0 a1) := by
  unfold offBits
  repeat' with_reducible first
    | exact h | apply queueBlk_kept | apply fdSet_kept | apply Kept.ite
theorem setPart_kept {s} {a0} {a1} {a2} (h : Kept s a0) : Kept s (setPart a0 a1 a2) := by
  unfold setPart
  repeat' with_reducible first
    | exact h | apply offBits_kept | apply setPort_kept
theorem setRx_kept {s} {a0} {a1} {a2} (h : Kept s a0) : Kept s (setRx a0 a1 a2) := by
  unfold setRx
  repeat' with_reducible first
    | exact h | apply offBits_kept | apply setPort_kept
theorem receivePkt_kept {s} {a0} {a1} {a2} (h : Kept s a0) : Kept s (receivePkt a0 a1 a2) := by
  unfold receivePkt
  repeat' with_reducible first
    | exact h | apply discardPkt_kept | apply bump_kept | apply setRx_kept | apply Kept.ite
theorem blkBegin_kept {s} {a0} {a1} {a2} (h : Kept s a0) : Kept s (blkBegin a0 a1 a2) := by
  unfold blkBegin
  repeat' with_reducible first
    | exact h | apply setPort_kept | apply fdSet_kept | apply discardPkt_kept | apply receivePkt_kept | apply setPart_kept
    | apply Kept.ite
theorem blkIn_kept {s} {a0} {a1} {a2} (h : Kept s a0) : Kept s (blkIn a0 a1 a2) := by
  unfold blkIn
  repeat' first
    | with_reducible first
        | exact h | apply discardPkt_kept | apply setPart_kept | apply bump_kept | apply setPort_kept | apply receivePkt_kept
        | apply blkBegin_kept | apply Kept.ite
    | split
theorem rxLost_kept {s} {a0} {a1} (h : Kept s a0) : Kept s (rxLost a0 a1) := by
  unfold rxLost
  repeat' first
    | with_reducible first
        | exact h | apply discardPkt_kept | apply setPart_kept | apply setPort_kept
    | split
theorem toHalf_kept {s} {a0} {a1} (h : Kept s a0) : Kept s (toHalf a0 a1) := by
  unfold toHalf
  repeat' with_reducible first
    | exact h | apply portDown_kept | apply wr_kept | apply setPort_kept | apply fdSet_kept | apply raiseInt_kept | apply setPState_kept
    | apply rxLost_kept | apply Kept.ite
theorem halfDone_kept {s} {a0} {a1} (h : Kept s a0) : Kept s (halfDone a0 a1) := by
  unfold halfDone
  repeat' with_reducible first
    | exact h | apply toHalf_kept | apply Kept.ite
theorem onFlit_kept {s} {a0} {a1} {a2} {a3} (h : Kept s a0) (h3 : ∀ s x, Kept s (a3 s x)) : KeptNext s (onFlit a0 a1 a2 a3) := by
  unfold onFlit
  repeat' with_reducible first
    | exact h | exact Kept.refl _ | refine Kept.trans ?_ (h3 ..) | apply bump_kept | (intro _) | apply Kept.ite | apply KeptNext.next
    | apply KeptNext.fault | apply KeptNext.ite | apply Kept.folds
theorem twinSelSample_kept {s} {a0} {a1} (h : Kept s a0) : Kept s (twinSelSample a0 a1) := by
  unfold twinSelSample
  repeat' with_reducible first
    | exact h | apply setPins_kept | apply fdSet_kept | apply Kept.ite
theorem noticeAnswered_kept {s} {a0} {a1} {a2} (h : Kept s a0) : Kept s (noticeAnswered a0 a1 a2) := by
  unfold noticeAnswered
  repeat' first
    | with_reducible first
        | exact h | apply setHub_kept
    | split
theorem sliceRead_kept {s} {a0} {a1} {a2} {a3} {a4} (h : Kept s a0) : Kept s (sliceRead a0 a1 a2 a3 a4) := by
  unfold sliceRead
  repeat' first
    | with_reducible first
        | exact h | apply readServe_kept | apply Kept.ite
    | split
theorem releaseCore_kept {s} {a0} {a1} (h : Kept s a0) : Kept s (releaseCore a0 a1) := by
  unfold releaseCore
  repeat' with_reducible first
    | exact h | apply joinPool_kept | apply syncHold_kept | apply bindCore_kept
theorem dropSigns_kept {s} {a0} {a1} (h : Kept s a0) : Kept s (dropSigns a0 a1) := by
  unfold dropSigns
  repeat' with_reducible first
    | exact h | exact Kept.refl _ | apply invalAll_kept | apply signPut_kept | (intro _) | apply Kept.ite | apply Kept.folds
theorem grantPut_kept {s} {a0} {a1} {a2} {a3} (h : Kept s a0) : Kept s (grantPut a0 a1 a2 a3) := by
  unfold grantPut
  repeat' with_reducible apply Kept.upd h
theorem itinDrop_kept {s} {a0} {a1} (h : Kept s a0) : Kept s (itinDrop a0 a1) := by
  unfold itinDrop
  repeat' first
    | with_reducible first
        | exact h | exact Kept.refl _ | apply releaseCore_kept | apply dropSigns_kept | apply grantPut_kept | apply setCtx_kept
        | (intro _) | apply Kept.folds
    | split
theorem memWriteSpan_kept {s} {a0} {a1} {a2} {a3} (h : Kept s a0) : Kept s (memWriteSpan a0 a1 a2 a3) := by
  unfold memWriteSpan
  repeat' with_reducible first
    | exact h | exact Kept.refl _ | apply memWrite_kept | (intro _) | apply Kept.folds
theorem banksOn_kept {s} {a0} {a1} (h : Kept s a0) : Kept s (banksOn a0 a1) := by
  unfold banksOn
  repeat' with_reducible first
    | exact h | exact Kept.refl _ | apply wr_kept | apply setBanks_kept | apply setCore_kept | (intro _) | apply Kept.folds
theorem imageReg_kept {s} {a0} {a1} {a2} (h : Kept s a0.1) : Kept s (imageReg a0 a1 a2).1 := by
  unfold imageReg
  repeat' with_reducible first
    | exact h | apply writeCode_kept
theorem loadLocal_kept {s} {a0} {a1} {a2} (h : Kept s a0) : Kept s (loadLocal a0 a1 a2) := by
  unfold loadLocal
  repeat' with_reducible first
    | exact h | apply setSeq_kept
theorem regionFill_kept {s} {a0} {a1} {a2} {a3} {a4} (h : Kept s a0) : Kept s (regionFill a0 a1 a2 a3 a4) := by
  unfold regionFill
  repeat' with_reducible first
    | exact h | apply setCore_kept | apply bumpBy_kept
theorem loadHomes_kept {s} {a0} {a1} (h : Kept s a0) : Kept s (loadHomes a0 a1) := by
  unfold loadHomes
  repeat' with_reducible first
    | exact h | exact Kept.refl _ | apply fdSet_kept | apply regionFill_kept | apply fetchHome_kept | (intro _) | apply Kept.ite
    | apply Kept.folds
theorem placeCore_kept {s} {a0} {a1} {a2} (h : Kept s a0.1) : Kept s (placeCore a0 a1 a2).1 := by
  unfold placeCore
  repeat' with_reducible first
    | exact h | exact Kept.refl _ | apply withMate_kept | apply banksOn_kept | apply applyTarget_kept | apply setTarget_kept
    | apply bindCore_kept | apply imageReg_kept | apply loadLocal_kept | apply loadHomes_kept | apply fdSet_kept | apply signPut_kept
    | (intro _) | apply Kept.foldsFst
theorem homesOut_kept {s} {a0} {a1} (h : Kept s a0) : Kept s (homesOut a0 a1) := by
  unfold homesOut
  repeat' with_reducible first
    | exact h | exact Kept.refl _ | apply cwSend_kept | (intro _) | apply Kept.ite | apply Kept.folds
theorem itinPlace_kept {s} {a0} {a1} {a2} {a3} (h : Kept s a0) : Kept s (itinPlace a0 a1 a2 a3) := by
  unfold itinPlace
  repeat' with_reducible first
    | exact h | exact Kept.refl _ | apply itinDrop_kept | apply memWriteSpan_kept | apply placeCore_kept | apply grantPut_kept
    | apply invalAll_kept | apply setCtx_kept | apply endCmd_kept | apply seqCtlWrite_kept | apply ctxHold_kept | apply homesOut_kept
    | (intro _) | apply Kept.ite | apply Kept.folds | apply Kept.foldsFst
theorem mvCmd_kept {s} {a0} {a1} {a2} {a3} {a4} {a5} (h : Kept s a0) : Kept s (mvCmd a0 a1 a2 a3 a4 a5) := by
  unfold mvCmd
  repeat' with_reducible first
    | exact h | apply registerWrite_kept
theorem copyBlocks_kept {s a0 : State} {a1} {a2} (h : Kept s a0) : Kept s (copyBlocks a0 a1 a2) := by
  refine h.trans ⟨rfl, rfl, rfl, fun m => ?_⟩
  simp only [copyBlocks]
  refine memWf_foldl (fun t e ht => ?_) ?_ _
  · split
    · exact memWf_memPut ht _ _
    · exact ht
  · exact memWf_filter m _
theorem readFaulty_kept {s} {a0} {a1} (h : Kept s a0) : Kept s (readFaulty a0 a1) := by
  unfold readFaulty
  repeat' with_reducible first
    | exact h | exact Kept.refl _ | apply blockRead_kept | (intro _) | apply Kept.ite | apply Kept.folds
theorem copySlice_kept {s} {a0} {a1} {a2} (h : Kept s a0) : Kept s (copySlice a0 a1 a2) := by
  unfold copySlice
  repeat' with_reducible first
    | exact h | apply copyBlocks_kept | apply readFaulty_kept
theorem sliceEvacuated_kept {s} {a0} {a1} (h : Kept s a0) : Kept s (sliceEvacuated a0 a1) := by
  unfold sliceEvacuated
  repeat' with_reducible first
    | exact h | apply copySlice_kept | apply setSlice_kept | apply Kept.ite
theorem beginStep_kept {s} {a0} {a1} (h : Kept s a0) : Kept s (beginStep a0 a1) := by
  unfold beginStep
  repeat' with_reducible first
    | exact h | apply setPins_kept | apply fdSet_kept
theorem stepTime_kept {s} {a0} {a1} (h : Kept s a0) : Kept s (stepTime a0 a1) := by
  unfold stepTime
  repeat' with_reducible first
    | exact h | apply fdSet_kept
theorem endStep_kept {s} {a0} {a1} (h : Kept s a0) : Kept s (endStep a0 a1) := by
  unfold endStep
  repeat' with_reducible first
    | exact h | apply beginStep_kept | apply stepTime_kept
theorem powerUpWave_kept {s} {a0} {a1} {a2} {a3} (h : Kept s a0) : Kept s (powerUpWave a0 a1 a2 a3) := by
  unfold powerUpWave
  repeat' with_reducible first
    | exact h | exact Kept.refl _ | apply closeUnit_kept | apply clusterReset_kept | apply railUp_kept | apply fdSet_kept
    | apply endStep_kept | (intro _) | apply Kept.ite | apply Kept.folds
theorem abortMile_kept {s} {a0} {a1} {a2} (h : Kept s a0) : Kept s (abortMile a0 a1 a2) := by
  unfold abortMile
  repeat' with_reducible first
    | exact h | exact Kept.refl _ | apply postAbort_kept | (intro _) | apply Kept.ite | apply Kept.folds
theorem compareDigests_kept {s} {a0} {a1} (h : Kept s a0) : Kept s (compareDigests a0 a1) := by
  unfold compareDigests
  repeat' first
    | with_reducible first
        | exact h | exact Kept.refl _ | apply setTwin_kept | apply raiseInt_kept | apply errAt_kept | apply bump_kept
        | apply twinSend_kept | apply abortMile_kept | (intro _) | apply Kept.ite | apply Kept.folds | apply Kept.elim
    | split
theorem sendDigest_kept {s} {a0} {a1} {a2} (h : Kept s a0) : Kept s (sendDigest a0 a1 a2) := by
  unfold sendDigest
  repeat' with_reducible first
    | exact h | apply twinSend_kept | (intro _) | apply Kept.elim
theorem cwReturned_kept {s} {a0} (h : Kept s a0) : Kept s (cwReturned a0) := by
  unfold cwReturned
  repeat' with_reducible first
    | exact h | exact Kept.refl _ | apply setPst_kept | apply compareDigests_kept | apply sendDigest_kept | (intro _) | apply Kept.ite
    | apply Kept.folds
theorem askLost_kept {s} {a0} {a1} (h : Kept s a0) (g1 : Kept s a1) : Kept s (askLost a0 a1) := by
  unfold askLost
  repeat' with_reducible first
    | assumption | exact Kept.refl _ | apply postNotice_kept | (intro _) | apply Kept.folds
theorem portChanged_kept {s} {a0} {a1} {a2} (h : Kept s a0) (g2 : Kept s a2) : Kept s (portChanged a0 a1 a2) := by
  unfold portChanged
  repeat' with_reducible first
    | exact h | assumption | apply cwReturned_kept | apply askLost_kept | apply gradeEval_kept | apply Kept.ite
theorem halfRetrain_kept {s} {a0} {a1} (h : Kept s a0) : Kept s (halfRetrain a0 a1) := by
  unfold halfRetrain
  repeat' with_reducible first
    | exact h | apply portDisable_kept | apply fdSet_kept | apply portEnable_kept | apply setPort_kept | apply Kept.ite
theorem laneCount_kept {s} {a0} {a1} {a2} {a3} (h : Kept s a0) : Kept s (laneCount a0 a1 a2 a3) := by
  unfold laneCount
  repeat' first
    | with_reducible first
        | exact h | apply bump_kept | apply watch_kept | apply Kept.ite
    | split
theorem onClus_kept {s} {a0} {a1} (h : Kept s a1) : KeptNext s (onClus a0 a1) := by
  unfold onClus
  repeat' with_reducible first
    | exact h | apply onUnit_kept
theorem pllWake_kept {s} {a0} {a1} (h : Kept s a0) : Kept s (pllWake a0 a1) := by
  unfold pllWake
  repeat' with_reducible first
    | exact h | apply pllStart_kept | apply Kept.ite
theorem onGauge_kept {s} {a0} {a1} {a2} (h : Kept s a2) : KeptNext s (onGauge a0 a1 a2) := by
  unfold onGauge
  repeat' with_reducible first
    | exact h | apply onUnit_kept | apply KeptNext.fault | apply KeptNext.ite
theorem regCmdSet_kept {s} {a0} {a1} {a2} {a3} {a4} {a5} (h : Kept s a0) : Kept s (regCmdSet a0 a1 a2 a3 a4 a5) := by
  unfold regCmdSet
  repeat' with_reducible first
    | exact h | apply registerWrite_kept
theorem mainOff_kept {s} {a0} (h : Kept s a0) : Kept s (mainOff a0) := by
  unfold mainOff
  repeat' with_reducible first
    | exact h | apply moduleDown_kept | apply setPins_kept
theorem auxLost_kept {s} {a0} (h : Kept s a0) : Kept s (auxLost a0) := by
  unfold auxLost
  repeat' with_reducible first
    | exact h | apply mainOff_kept | apply clearPages_kept | apply setTwin_kept | apply setHost_kept | apply setPins_kept | apply Kept.ite
    | apply Kept.upd
theorem stackTemp_kept {s} {a0} {a1} {a2} (h : Kept s a0) : Kept s (stackTemp a0 a1 a2) := by
  unfold stackTemp
  repeat' with_reducible first
    | exact h | apply recJudge_kept | apply fdSet_kept
theorem thermalTrip_kept {s} {a0} (h : Kept s a0) : Kept s (thermalTrip a0) := by
  unfold thermalTrip
  repeat' with_reducible first
    | exact h | apply mainOff_kept | apply setPins_kept | apply Kept.ite
theorem tempSample_kept {s} {a0} {a1} {a2} {a3} (h : Kept s a0) : Kept s (tempSample a0 a1 a2 a3) := by
  unfold tempSample
  repeat' first
    | with_reducible first
        | exact h | exact Kept.refl _ | apply fdSet_kept | apply setPower_kept | apply stackTemp_kept | apply thermalTrip_kept | (intro _)
        | apply Kept.ite | apply Kept.folds
    | split
theorem applyMap_kept {s} {a0} (h : Kept s a0) : Kept s (applyMap a0) := by
  unfold applyMap
  repeat' with_reducible first
    | exact h | exact Kept.refl _ | apply bridgesReset_kept | apply coresOff_kept | (intro _) | apply Kept.folds
theorem vfRefused_kept {s} {a0} {a1} {a2} {a3} (h : Kept s a0) : Kept s (vfRefused a0 a1 a2 a3) := by
  unfold vfRefused
  repeat' with_reducible first
    | exact h | apply errAt_kept | apply Kept.ite
theorem vfPair_kept {s} {a0} {a1} {a2} {a3} {a4} {a5} (h : Kept s a0) : Kept s (vfPair a0 a1 a2 a3 a4 a5) := by
  unfold vfPair
  repeat' first
    | with_reducible first
        | exact h | apply send_kept | apply ringAddr_kept | apply vfRefused_kept | apply Kept.upd h
    | split
    | (dsimp only; split)
theorem vfBar0_kept {s} {a0} {a1} {a2} {a3} {a4} (h : Kept s a0) : Kept s (vfBar0 a0 a1 a2 a3 a4) := by
  unfold vfBar0
  repeat' with_reducible first
    | exact h | apply send_kept | apply vfPair_kept | apply ringCfg_kept | apply vfRefused_kept | apply doorbell_kept | apply setRing_kept
    | apply msixWrite_kept | apply hostBad_kept | apply Kept.ite
theorem ringCmd_kept {s} {a0} {a1} {a2} {a3} (h : Kept s a0) : Kept s (ringCmd a0 a1 a2 a3) := by
  unfold ringCmd
  repeat' first
    | with_reducible first
        | exact h | apply registerWrite_kept | apply vfBar0_kept
    | split
theorem ofType_kept {s} {a0} {a1} {a2} {a3} (h : Kept s a0) (g3 : Kept s a3) : Kept s (ofType a0 a1 a2 a3) := by
  unfold ofType
  repeat' with_reducible first
    | exact h | assumption | apply Kept.ite
theorem answerFrom_kept {s} {a0} {a1} {a2} {a3} {a4} (h : Kept s a0) : Kept s (answerFrom a0 a1 a2 a3 a4) := by
  unfold answerFrom
  repeat' with_reducible first
    | exact h | exact Kept.refl _ | apply sendFrom_kept | (intro _) | apply Kept.folds
theorem withFollower_kept {s} {a0} {a1} {a2} (h : Kept s a0) (h2 : ∀ s x, Kept s (a2 s x)) : Kept s (withFollower a0 a1 a2) := by
  unfold withFollower
  repeat' with_reducible first
    | exact h | refine Kept.trans ?_ (h2 ..) | apply setQe_kept | apply Kept.ite
theorem localPort_kept {s} {a0} {a1} {a2} {a3} (h : Kept s a0) (h3 : ∀ s x, Kept s (a3 s x)) : Kept s (localPort a0 a1 a2 a3) := by
  unfold localPort
  repeat' with_reducible first
    | exact h | assumption | apply takePkt_kept | apply answerFrom_kept | apply bump_kept | apply withFollower_kept | apply Kept.ite
theorem staleReply_kept {s} {a0} {a1} {a2} (h : Kept s a0) : Kept s (staleReply a0 a1 a2) := by
  unfold staleReply
  repeat' with_reducible first
    | exact h | apply qErr_kept | apply bump_kept
theorem openFail_kept {s} {a0} {a1} {a2} {a3} (h : Kept s a0) : Kept s (openFail a0 a1 a2 a3) := by
  unfold openFail
  repeat' first
    | with_reducible first
        | exact h | apply setChan_kept | apply qErr_kept | apply seqFinish_kept | apply Kept.ite
    | (dsimp only; split)
theorem openRsp_kept {s} {a0} {a1} {a2} (h : Kept s a0) : Kept s (openRsp a0 a1 a2) := by
  unfold openRsp
  repeat' first
    | with_reducible first
        | exact h | apply staleReply_kept | apply setChan_kept | apply seqFinish_kept | apply openFail_kept | apply Kept.ite
    | (dsimp only; split)
theorem cacheForget_kept {s} {a0} {a1} {a2} (h : Kept s a0) : Kept s (cacheForget a0 a1 a2) := by
  unfold cacheForget
  repeat' with_reducible first
    | exact h | apply setRout_kept | apply Kept.ite
theorem mgmtMsg_kept {s} {a0} {a1} (h : Kept s a0) (h1 : ∀ s, Kept s (a1 s)) : Kept s (mgmtMsg a0 a1) := by
  unfold mgmtMsg
  repeat' with_reducible first
    | exact h | refine Kept.trans ?_ (h1 ..) | apply bump_kept | apply Kept.ite
theorem mgmtHeal_kept {s} {a0} {a1} {a2} (h : Kept s a0) : Kept s (mgmtHeal a0 a1 a2) := by
  unfold mgmtHeal
  repeat' with_reducible first
    | exact h | exact Kept.refl _ | apply mgmtMsg_kept | apply send_kept | (intro _)
theorem imageRefused_kept {s} {a0} {a1} (h : Kept s a0) : Kept s (imageRefused a0 a1) := by
  unfold imageRefused
  repeat' with_reducible first
    | exact h | apply fdSet_kept | apply raiseInt_kept | apply errAt_kept | apply bump_kept
theorem bootFrom_kept {s} {a0} {a1} (h : Kept s a0) : Kept s (bootFrom a0 a1) := by
  unfold bootFrom
  repeat' with_reducible first
    | exact h | apply fdSet_kept
theorem serviceImageLoad_kept {s} {a0} {a1} {a2} {a3} (h : Kept s a0) : Kept s (serviceImageLoad a0 a1 a2 a3) := by
  unfold serviceImageLoad
  repeat' with_reducible first
    | exact h | exact Kept.refl _ | apply fdSet_kept | apply imageRefused_kept | apply bootFrom_kept | apply bump_kept
    | apply closeUnit_kept | apply endStep_kept | (intro _) | apply Kept.ite | apply Kept.folds
theorem napWake_kept {s} {a0} {a1} (h : Kept s a0) : Kept s (napWake a0 a1) := by
  unfold napWake
  repeat' first
    | with_reducible first
        | exact h | apply napEnd_kept | apply Kept.ite
    | split
theorem flipWeight_kept {s} {a0} {a1} {a2} {a3} (h : Kept s a0) : Kept s (flipWeight a0 a1 a2 a3) := by
  unfold flipWeight
  repeat' with_reducible first
    | exact h | apply setArr_kept
theorem flipAcc_kept {s} {a0} {a1} {a2} {a3} {a4} (h : Kept s a0) : Kept s (flipAcc a0 a1 a2 a3 a4) := by
  unfold flipAcc
  repeat' with_reducible first
    | exact h | apply setArr_kept | apply Kept.ite
theorem arrErr_kept {s} {a0} {a1} {a2} {a3} {a4} {a5} (h : Kept s a0) : Kept s (arrErr a0 a1 a2 a3 a4 a5) := by
  unfold arrErr
  repeat' with_reducible first
    | exact h | apply raiseInt_kept | apply errAt_kept
theorem emitFreeCtl_kept {s} {a0} {a1} {a2} {a3} (h : Kept s a0) : Kept s (emitFreeCtl a0 a1 a2 a3) := by
  unfold emitFreeCtl
  repeat' with_reducible first
    | exact h | apply emitTok_kept | apply freeUsed_kept
theorem passDone_kept {s} {a0} {a1} {a2} (h : Kept s a0) : Kept s (passDone a0 a1 a2) := by
  unfold passDone
  repeat' with_reducible first
    | exact h | apply emitFreeCtl_kept | apply bump_kept
theorem seqCommit_kept {s} {a0} {a1} {a2} {a3} {a4} (h : Kept s a0) : Kept s (seqCommit a0 a1 a2 a3 a4) := by
  unfold seqCommit
  repeat' with_reducible first
    | exact h | apply arrErr_kept | apply setArr_kept | apply emitTok_kept | apply bump_kept | apply passDone_kept | apply Kept.ite
theorem seqMismatch_kept {s} {a0} {a1} {a2} {a3} {a4} (h : Kept s a0) : Kept s (seqMismatch a0 a1 a2 a3 a4) := by
  unfold seqMismatch
  repeat' with_reducible first
    | exact h | apply raiseInt_kept | apply bump_kept | apply reportCore_kept | apply setArr_kept | apply seqCommit_kept
    | apply arrErr_kept | apply Kept.ite
theorem accParity_kept {s} {a0} {a1} {a2} {a3} (h : Kept s a0) : Kept s (accParity a0 a1 a2 a3) := by
  unfold accParity
  repeat' with_reducible first
    | exact h | apply setArr_kept | apply reportCore_kept | apply arrErr_kept
theorem seqResult_kept {s} {a0} {a1} {a2} (h : Kept s a0) : Kept s (seqResult a0 a1 a2) := by
  unfold seqResult
  repeat' first
    | with_reducible first
        | exact h | apply flipWeight_kept | apply flipAcc_kept | apply seqMismatch_kept | apply seqCommit_kept | apply accParity_kept
    | split
    | (dsimp only; split)
theorem winStoreAt_kept {s} {a0} {a1} {a2} (h : Kept s a0) : Kept s (winStoreAt a0 a1 a2) := by
  unfold winStoreAt
  repeat' with_reducible first
    | exact h | apply seqIssue_kept
theorem aonRstCmd_kept {s} {a0} {a1} {a2} {a3} (h : Kept s a0) : Kept s (aonRstCmd a0 a1 a2 a3) := by
  unfold aonRstCmd
  repeat' with_reducible first
    | exact h | apply registerWrite_kept
theorem replaceCore_kept {s} {a0} {a1} {a2} (h : Kept s a0) : Kept s (replaceCore a0 a1 a2) := by
  unfold replaceCore
  repeat' with_reducible first
    | exact h | apply setHub_kept
theorem freezeCutover_kept {s} {a0} (h : Kept s a0) : Kept s (freezeCutover a0) := by
  unfold freezeCutover
  repeat' first
    | with_reducible first
        | exact h | exact Kept.refl _ | apply setCore_kept | apply signPut_kept | apply moveAborted_kept | apply invalAll_kept
        | apply fdSet_kept | apply bindCore_kept | apply withMate_kept | apply seqRestWake_kept | apply startFlow_kept
        | apply startUnits_kept | apply setMover_kept | apply bump_kept | apply replaceCore_kept | apply joinPool_kept
        | apply syncHolds_kept | (intro _) | apply Kept.ite | apply Kept.folds
    | split
theorem drainWait_kept {s} {a0} {a1} (h : Kept s a0) : Kept s (drainWait a0 a1) := by
  unfold drainWait
  repeat' with_reducible first
    | exact h | exact Kept.refl _ | apply memApply_kept | apply setSlice_kept | (intro _) | apply Kept.ite | apply Kept.folds
theorem jackIn_kept {s} {a0} {a1} (h : Kept s a0) : Kept s (jackIn a0 a1) := by
  unfold jackIn
  repeat' with_reducible first
    | exact h | exact Kept.refl _ | apply drainWait_kept | apply setStream_kept | (intro _) | apply Kept.folds
theorem unwatch_kept {s} {a0} {a1} {a2} (h : Kept s a0) : Kept s (unwatch a0 a1 a2) := by
  unfold unwatch
  repeat' with_reducible apply Kept.upd h
theorem jHeldPart_kept {s} {a0} {a1} {a2} {a3} {a4} {a5} (h : Kept s a0) : Kept s (jHeldPart a0 a1 a2 a3 a4 a5).1 := by
  unfold jHeldPart
  repeat' with_reducible first
    | exact h | exact Kept.refl _ | apply jFetch_kept | (intro _) | apply Kept.foldsFst
theorem wokeUp_kept {s} {a0} {a1} (h : Kept s a0) : Kept s (wokeUp a0 a1) := by
  unfold wokeUp
  repeat' with_reducible first
    | exact h | apply bump_kept | apply Kept.ite
theorem pstMoves_kept {s} {a0} {a1} (h : Kept s a0) (g1 : Kept s a1) : Kept s (pstMoves a0 a1) := by
  unfold pstMoves
  repeat' with_reducible first
    | assumption | apply movesEnd_kept | apply Kept.ite
theorem twinCmd_kept {s} {a0} {a1} {a2} (h : Kept s a0) (h2 : ∀ s, Kept s (a2 s).1) : Kept s (twinCmd a0 a1 a2) := by
  unfold twinCmd
  extract_lets
  exact Kept.ite (endCmd_kept h) (endCmd_kept (h.trans (h2 _)))
theorem bindCmd_kept {s} {a0} {a1} {a2} {a3} (h : Kept s a0) (h3 : ∀ s x, Kept s (a3 s x).1) : Kept s (bindCmd a0 a1 a2 a3) :=
  withCmd_kept h fun s k => pstMoves_kept (Kept.refl s) (twinCmd_kept (Kept.refl s) fun s => h3 s k)
theorem ringsOff_kept {s} {a0} {a1} (h : Kept s a0) : Kept s (ringsOff a0 a1) := by
  unfold ringsOff
  repeat' with_reducible first
    | exact h | apply setHost_kept | apply setHub_kept | apply Kept.upd
theorem digestOut_kept {s} {a0} {a1} {a2} {a3} (h : Kept s a0) : Kept s (digestOut a0 a1 a2 a3) := by
  unfold digestOut
  repeat' with_reducible first
    | exact h | apply send_kept | apply setSeq_kept | apply Kept.ite
theorem mileComplete_kept {s} {a0} {a1} (h : Kept s a0) : Kept s (mileComplete a0 a1) := by
  unfold mileComplete
  repeat' first
    | with_reducible first
        | exact h | apply setSeq_kept | apply seqFinish_kept | apply digestOut_kept | apply coreErr_kept | apply Kept.ite
    | split
theorem abortCore_kept {s} {a0} {a1} {a2} (h : Kept s a0) : Kept s (abortCore a0 a1 a2) := by
  unfold abortCore
  repeat' with_reducible first
    | exact h | apply postAbort_kept | apply Kept.ite
theorem mileDone_kept {s} {a0} {a1} (h : Kept s a0) : Kept s (mileDone a0 a1) := by
  unfold mileDone
  repeat' first
    | with_reducible first
        | exact h | apply mileComplete_kept | apply abortCore_kept | apply Kept.ite
    | split
theorem sliceRequest_kept {s} {a0} {a1} {a2} (h : Kept s a0) : Kept s (sliceRequest a0 a1 a2) := by
  unfold sliceRequest
  repeat' with_reducible first
    | exact h | apply sliceAnswer_kept | apply reqRefused_kept | apply takeEnd_kept | apply setSlice_kept | apply bump_kept
    | apply journalWrite_kept | apply Kept.ite
theorem unlatch_kept {s} {a0} {a1} {a2} {a3} (h : Kept s a0) : Kept s (unlatch a0 a1 a2 a3) := by
  unfold unlatch
  repeat' with_reducible apply Kept.upd h
theorem linkPeak_kept {s} {a0} {a1} (h : Kept s a0) : Kept s (linkPeak a0 a1).1 := by
  unfold linkPeak
  repeat' with_reducible first
    | exact h | apply setLink_kept
theorem logRead_kept {s} {a0} {a1} (h : Kept s a0) : Kept s (logRead a0 a1) := by
  unfold logRead
  repeat' with_reducible first
    | exact h | apply setLog_kept
theorem readEffect_kept {s} {a0} {a1} {a2} {a3} (h : Kept s a0) : Kept s (readEffect a0 a1 a2 a3) := by
  unfold readEffect
  repeat' first
    | with_reducible first
        | exact h | apply winStep_kept | apply linkPeak_kept | apply setCore_kept | apply logRead_kept | apply setHeal_kept
        | apply wr_kept | apply Kept.ite
    | split
theorem pageRead_kept {s} {a0} {a1} {a2} {a3} (h : Kept s a0) : Kept s (pageRead a0 a1 a2 a3).1 := by
  unfold pageRead
  repeat' first
    | with_reducible first
        | exact h | apply accessDenied_kept | apply accessRange_kept | apply unlatch_kept | apply readEffect_kept
    | split
    | with_reducible apply Kept.upd
theorem readCode_kept {s} {a0} {a1} {a2} {a3} (h : Kept s a0) : Kept s (readCode a0 a1 a2 a3).1 := by
  unfold readCode
  repeat' first
    | with_reducible first
        | exact h | apply accessRange_kept | apply pageRead_kept
    | split
    | (dsimp only; split)
theorem registerRead_kept {s} {a0} {a1} {a2} {a3} (h : Kept s a0) : Kept s (registerRead a0 a1 a2 a3) := by
  unfold registerRead
  repeat' with_reducible first
    | exact h | apply readCode_kept | apply send_kept
theorem debugRange_kept {s} {a0} {a1} {a2} (h : Kept s a0) : Kept s (debugRange a0 a1 a2) := by
  unfold debugRange
  repeat' with_reducible first
    | exact h | apply errAt_kept | apply send_kept | apply Kept.ite
theorem debugMem_kept {s} {a0} {a1} {a2} {a3} (h : Kept s a0) : Kept s (debugMem a0 a1 a2 a3) := by
  unfold debugMem
  repeat' with_reducible first
    | exact h | apply debugRange_kept | apply unitMem_kept | apply send_kept | apply Kept.ite
theorem debugSpad_kept {s} {a0} {a1} {a2} {a3} (h : Kept s a0) : Kept s (debugSpad a0 a1 a2 a3) := by
  unfold debugSpad
  repeat' with_reducible first
    | exact h | apply debugRange_kept | apply extSpad_kept | apply Kept.ite
theorem debugAccess_kept {s} {a0} {a1} {a2} {a3} {a4} (h : Kept s a0) : Kept s (debugAccess a0 a1 a2 a3 a4) := by
  unfold debugAccess
  repeat' first
    | with_reducible first
        | exact h | apply raiseInt_kept | apply errAt_kept | apply bump_kept | apply registerWrite_kept | apply registerRead_kept
        | apply debugMem_kept | apply debugSpad_kept | apply Kept.ite
    | split
theorem mailboxAnswer_kept {s} {a0} {a1} {a2} (h : Kept s a0) : Kept s (mailboxAnswer a0 a1 a2) := by
  unfold mailboxAnswer
  repeat' first
    | with_reducible first
        | exact h | apply setHost_kept | apply hostEvent_kept | apply wr_kept | apply Kept.ite
    | split
theorem forJob_kept {s} {a0} {a1} {a2} (h : Kept s a0) (h2 : ∀ s x, Kept s (a2 s x)) : Kept s (forJob a0 a1 a2) := by
  unfold forJob
  repeat' with_reducible first
    | exact h | assumption | apply Kept.folds
theorem tellAborted_kept {s} {a0} {a1} {a2} {a3} (h : Kept s a0) : Kept s (tellAborted a0 a1 a2 a3) := by
  unfold tellAborted
  repeat' with_reducible first
    | exact h | apply postNotice_kept
theorem ctxOpDone_kept {s} {a0} {a1} (h : Kept s a0) : Kept s (ctxOpDone a0 a1) := by
  unfold ctxOpDone
  repeat' with_reducible first
    | exact h | apply fdSet_kept | apply setHub_kept | apply bump_kept | apply Kept.ite
theorem ctxOpAll_kept {s} {a0} {a1} {a2} {a3} (h : Kept s a0) : Kept s (ctxOpAll a0 a1 a2 a3) := by
  unfold ctxOpAll
  repeat' with_reducible first
    | exact h | exact Kept.refl _ | apply ctxOpDone_kept | apply dieCtxOp_kept | (intro _) | apply Kept.folds
theorem advanceGen_kept {s} {a0} {a1} (h : Kept s a0) : Kept s (advanceGen a0 a1) := by
  unfold advanceGen
  repeat' first
    | with_reducible first
        | exact h | apply setHost_kept | apply setCtx_kept
    | split
theorem loadPlaces_kept {s} {a0} {a1} {a2} (h : Kept s a0) : Kept s (loadPlaces a0 a1 a2) := by
  unfold loadPlaces
  repeat' first
    | with_reducible first
        | exact h | exact Kept.refl _ | apply withMate_kept | apply loadLocal_kept | (intro _) | apply Kept.ite | apply Kept.folds
    | split
theorem contextRegen_kept {s} {a0} {a1} (h : Kept s a0) : Kept s (contextRegen a0 a1) := by
  unfold contextRegen
  repeat' with_reducible first
    | exact h | exact Kept.refl _ | apply advanceGen_kept | apply ctxOpAll_kept | apply grantPut_kept | apply loadPlaces_kept | (intro _)
    | apply Kept.folds
theorem failReset_kept {s} {a0} {a1} {a2} (h : Kept s a0) : Kept s (failReset a0 a1 a2) := by
  unfold failReset
  repeat' with_reducible first
    | exact h | apply contextRegen_kept | apply setCtx_kept | apply tellAborted_kept
theorem stepFailed_kept {s} {a0} {a1} {a2} {a3} (h : Kept s a0) : Kept s (stepFailed a0 a1 a2 a3) := by
  unfold stepFailed
  repeat' first
    | with_reducible first
        | exact h | apply tellAborted_kept | apply contextFail_kept | apply ctxOpAll_kept | apply ctxHold_kept | apply setCtx_kept
        | apply failReset_kept | apply Kept.ite
    | split
    | (dsimp only; split)
theorem abortIn_kept {s} {a0} {a1} {a2} {a3} (h : Kept s a0) : Kept s (abortIn a0 a1 a2 a3) := by
  unfold abortIn
  repeat' with_reducible first
    | exact h | exact Kept.refl _ | apply forJob_kept | apply stepFailed_kept | (intro _)
theorem pairCmd_kept {s} {a0} {a1} {a2} {a3} {a4} {a5} (h : Kept s a0) : Kept s (pairCmd a0 a1 a2 a3 a4 a5) := by
  unfold pairCmd
  repeat' with_reducible first
    | exact h | apply registerWrite_kept
theorem placeCmd_kept {s} {a0} {a1} {a2} {a3} {a4} {a5} (h : Kept s a0) : Kept s (placeCmd a0 a1 a2 a3 a4 a5) := by
  unfold placeCmd
  repeat' with_reducible first
    | exact h | apply pairCmd_kept | apply regCmd_kept | apply Kept.ite
theorem setVisit_kept {s} {a0} {a1} {a2} (h : Kept s a0) : Kept s (setVisit a0 a1 a2) := by
  unfold setVisit
  repeat' with_reducible first
    | exact h | apply setHeal_kept
theorem calGrant_kept {s} {a0} {a1} {a2} (h : Kept s a0) : Kept s (calGrant a0 a1 a2) := by
  unfold calGrant
  repeat' first
    | with_reducible first
        | exact h | apply bump_kept | apply setPort_kept | apply setVisit_kept | apply setSlice_kept | apply setStack_kept
        | apply Kept.ite
    | split
    | (dsimp only; split)
theorem queuedEnd_kept {s} {a0} {a1} (h : Kept s a0) : Kept s (queuedEnd a0 a1) := by
  unfold queuedEnd
  repeat' with_reducible first
    | exact h | exact Kept.refl _ | apply finish_kept | apply setHost_kept | (intro _) | apply Kept.folds
theorem teardownRest_kept {s} {a0} {a1} (h : Kept s a0) : Kept s (teardownRest a0 a1) := by
  unfold teardownRest
  repeat' first
    | with_reducible first
        | exact h | exact Kept.refl _ | apply advanceGen_kept | apply ctxOpAll_kept | apply grantPut_kept | apply dropSigns_kept
        | apply releaseCore_kept | apply setHost_kept | apply setCtx_kept | (intro _) | apply Kept.folds
    | split
theorem teardown_kept {s} {a0} {a1} {a2} (h : Kept s a0) : Kept s (teardown a0 a1 a2) := by
  unfold teardown
  repeat' with_reducible first
    | exact h | exact Kept.refl _ | apply complete_kept | apply queuedEnd_kept | apply setCtx_kept | apply movesEnd_kept
    | apply ctxOpAll_kept | apply teardownRest_kept | (intro _) | apply Kept.ite | apply Kept.folds
theorem ctxTeardown_kept {s} {a0} {a1} (h : Kept s a0) : Kept s (ctxTeardown a0 a1) := by
  unfold ctxTeardown
  repeat' with_reducible first
    | exact h | apply endCmd_kept | apply teardown_kept | apply Kept.ite
theorem resync_kept {s} {a0} (h : Kept s a0) : Kept s (resync a0) := by
  unfold resync
  repeat' with_reducible first
    | exact h | apply wr_kept | apply fdSet_kept | apply setTwin_kept | apply homesOut_kept | apply Kept.ite
theorem sendCtrl_kept {s} {a0} {a1} {a2} {a3} (h : Kept s a0) : Kept s (sendCtrl a0 a1 a2 a3) := by
  unfold sendCtrl
  repeat' first
    | with_reducible first
        | exact h | apply twinSend_kept
    | split
theorem attaching_kept {s} {a0} {a1} (h : Kept s a0) : Kept s (attaching a0 a1) := by
  unfold attaching
  repeat' with_reducible first
    | exact h | apply homesOut_kept | apply setPst_kept | apply setTwin_kept | apply Kept.ite
theorem twinAttach_kept {s} {a0} {a1} {a2} (h : Kept s a0) : Kept s (twinAttach a0 a1 a2).1 := by
  unfold twinAttach
  repeat' first
    | with_reducible first
        | exact h | apply resync_kept | apply setPst_kept | apply setTwin_kept | apply sendCtrl_kept | apply attaching_kept
    | split
theorem settleBarrier_kept {s} {a0} {a1} {a2} (h : Kept s a0) : Kept s (settleBarrier a0 a1 a2) := by
  unfold settleBarrier
  repeat' with_reducible first
    | exact h | apply contextFail_kept | apply setCtx_kept | apply postAll_kept | apply Kept.ite
theorem abortedIn_kept {s} {a0} {a1} {a2} {a3} (h : Kept s a0) : Kept s (abortedIn a0 a1 a2 a3) := by
  unfold abortedIn
  repeat' first
    | with_reducible first
        | exact h | exact Kept.refl _ | apply noticeAnswered_kept | apply forJob_kept | apply settleBarrier_kept | apply setCtx_kept
        | (intro _) | apply Kept.ite
    | (dsimp only; split)
theorem backlogClear_kept {s} {a0} {a1} {a2} (h : Kept s a0) : Kept s (backlogClear a0 a1 a2) := by
  unfold backlogClear
  repeat' with_reducible first
    | exact h | apply bumpBy_kept | apply setHeal_kept | apply Kept.ite
theorem onMover_kept {s} {a0} {a1} (h : Kept s a1) : KeptNext s (onMover a0 a1) := by
  unfold onMover
  repeat' with_reducible first
    | exact h | apply onUnit_kept
theorem fetchAll_kept {s} {a0} {a1} {a2} {a3} {a4} {a5} (h : Kept s a0) : Kept s (fetchAll a0 a1 a2 a3 a4 a5).1 := by
  fun_induction fetchAll
  repeat' with_reducible first
    | exact h | apply spadFetch_kept | refine Kept.fst (by assumption) ?_ | apply_assumption
theorem spillRefill_kept {s} {a0} {a1} {a2} {a3} (h : Kept s a0) : Kept s (spillRefill a0 a1 a2 a3) := by
  unfold spillRefill
  repeat' first
    | with_reducible first
        | exact h | apply setMu_kept | apply askBanks_kept | apply fetchAll_kept | apply flowErr_kept | apply Kept.ite
        | refine Kept.fst (by assumption) ?_
    | split
    | (dsimp only; split)
theorem storeAll_kept {s} {a0} {a1} {a2} {a3} {a4} (h : Kept s a0) : Kept s (storeAll a0 a1 a2 a3 a4) := by
  fun_induction storeAll
  repeat' with_reducible first
    | exact h | apply spadApply_kept | apply_assumption
theorem spillDown_kept {s} {a0} {a1} {a2} (h : Kept s a0) : Kept s (spillDown a0 a1 a2) := by
  unfold spillDown
  repeat' first
    | with_reducible first
        | exact h | apply askBanks_kept | apply setMu_kept | apply storeAll_kept | apply Kept.ite | refine Kept.fst (by assumption) ?_
    | split
    | (dsimp only; split)
theorem spillFire_kept {s} {a0} {a1} {a2} {a3} (h : Kept s a0) : Kept s (spillFire a0 a1 a2 a3) := by
  unfold spillFire
  repeat' first
    | with_reducible first
        | exact h | apply spillRefill_kept | apply spillDown_kept | apply popTok_kept | apply setMu_kept | apply emitTok_kept
        | apply takeCredits_kept | apply stallCount_kept | apply Kept.ite
    | split
    | (dsimp only; split)
theorem epEnd_kept {s} {a0} {a1} {a2} {a3} (h : Kept s a0) : Kept s (epEnd a0 a1 a2 a3) := by
  unfold epEnd
  repeat' with_reducible first
    | exact h | apply epAdd_kept
theorem routerMerge_kept {s} {a0} {a1} {a2} (h : Kept s a0) : Kept s (routerMerge a0 a1 a2) := by
  unfold routerMerge
  repeat' first
    | with_reducible first
        | exact h | apply setBuf_kept | apply setRout_kept | apply bump_kept | apply epEnd_kept | apply Kept.ite
    | split
theorem bankArrive_kept {s} {a0} {a1} {a2} {a3} {a4} (h : Kept s a0) : Kept s (bankArrive a0 a1 a2 a3 a4) := by
  unfold bankArrive
  repeat' with_reducible first
    | exact h | apply spadServe_kept | apply bankReach_kept | apply Kept.ite
theorem booksLost_kept {s} {a0} {a1} {a2} (h : Kept s a0) : Kept s (booksLost a0 a1 a2) := by
  unfold booksLost
  repeat' with_reducible first
    | exact h | apply report_kept | apply errAt_kept
theorem onFabric_kept {s} {a0} {a1} {a2} (h : Kept s a0) (g2 : Kept s a2) : KeptNext s (onFabric a0 a1 a2) := by
  unfold onFabric
  repeat' with_reducible first
    | exact h | assumption | apply onCore_kept | apply Kept.ite
theorem muEmit_kept {s} {a0} {a1} {a2} (h : Kept s a0) : Kept s (muEmit a0 a1 a2) := by
  unfold muEmit
  repeat' first
    | with_reducible first
        | exact h | apply emitTok_kept | apply setMu_kept
    | (dsimp only; split)
theorem readMsg_kept {s} {a0} {a1} {a2} {a3} (h : Kept s a0) : Kept s (readMsg a0 a1 a2 a3).1 := by
  unfold readMsg
  repeat' first
    | with_reducible first
        | exact h | apply spadReadAll_kept | refine Kept.fst (by assumption) ?_
    | split
theorem digestOpen_kept {s} {a0} {a1} (h : Kept s a0) : Kept s (digestOpen a0 a1) := by
  unfold digestOpen
  repeat' with_reducible first
    | exact h | apply setQe_kept | apply Kept.ite
theorem toMismatch_kept {s} {a0} {a1} {a2} {a3} {a4} (h : Kept s a0) : Kept s (toMismatch a0 a1 a2 a3 a4) := by
  unfold toMismatch
  repeat' with_reducible first
    | exact h | apply raiseInt_kept | apply errAt_kept | apply portOff_kept
theorem identIn_kept {s} {a0} {a1} {a2} {a3} {a4} (h : Kept s a0) : Kept s (identIn a0 a1 a2 a3 a4) := by
  unfold identIn
  repeat' with_reducible first
    | exact h | apply wr_kept | apply toMismatch_kept | apply Kept.ite
theorem copyBuffers_kept {s} {a0} {a1} {a2} (h : Kept s a0) : Kept s (copyBuffers a0 a1 a2) := by
  unfold copyBuffers
  repeat' with_reducible first
    | exact h | exact Kept.refl _ | apply setCore_kept | apply fdSet_kept | (intro _) | apply Kept.folds
theorem noticeTake_kept {s} {a0} (h : Kept s a0) : Kept s (noticeTake a0) := by
  unfold noticeTake
  repeat' first
    | with_reducible first
        | exact h | apply takeEnd_kept
    | split
theorem onNotice_kept {s} {a0} {a1} (h : Kept s a0) (h1 : ∀ s, Kept s (a1 s)) : KeptNext s (onNotice a0 a1) := by
  unfold onNotice
  repeat' with_reducible first
    | exact h | refine Kept.trans ?_ (h1 ..) | apply noticeTake_kept | apply KeptNext.next
theorem queryIn_kept {s} {a0} {a1} (h : Kept s a0) : Kept s (queryIn a0 a1) := by
  unfold queryIn
  repeat' with_reducible first
    | exact h | apply postNotice_kept | apply Kept.ite
theorem isolated_kept {s} {a0} (h : Kept s a0) : Kept s (isolated a0) := by
  unfold isolated
  repeat' with_reducible first
    | exact h | apply setTwin_kept | apply raiseInt_kept | apply errAt_kept | apply setPst_kept | apply Kept.ite
theorem stateIn_kept {s} {a0} {a1} (h : Kept s a0) : Kept s (stateIn a0 a1) := by
  unfold stateIn
  repeat' with_reducible first
    | exact h | apply noticeAnswered_kept | apply isolated_kept | apply Kept.ite
theorem rxDrop_kept {s} {a0} {a1} {a2} (h : Kept s a0) : Kept s (rxDrop a0 a1 a2) := by
  unfold rxDrop
  repeat' with_reducible first
    | exact h | apply setRx_kept
theorem deviceRoute_sendFromPort_kept {s} {a0} {a1} {a2} {a3} (h : Kept s a0) : Kept s (deviceRoute.sendFromPort a0 a1 a2 a3) := by
  unfold deviceRoute.sendFromPort
  repeat' with_reducible first
    | exact h | apply swPush_kept | apply epAdd_kept
theorem cwRequest_kept {s} {a0} {a1} {a2} (h : Kept s a0) : Kept s (cwRequest a0 a1 a2) := by
  unfold cwRequest
  repeat' first
    | with_reducible first
        | exact h | apply rxDrop_kept | apply xepDrop_kept | apply xAdd_kept | apply deviceRoute_sendFromPort_kept
        | apply twinRefused_kept | apply cwSend_kept | apply Kept.ite
    | split
theorem wideWrite_kept {s} {a0} {a1} {a2} {a3} {a4} {a5} (h : Kept s a0) : Kept s (wideWrite a0 a1 a2 a3 a4 a5) := by
  fun_induction wideWrite
  repeat' with_reducible first
    | exact h | apply registerWrite_kept | apply_assumption
theorem hubWdog_kept {s} {a0} (h : Kept s a0) : Kept s (hubWdog a0) := by
  unfold hubWdog
  repeat' with_reducible first
    | exact h | apply moduleReset_kept | apply bump_kept | apply Kept.ite
theorem swapDo_kept {s} {a0} {a1} {a2} {a3} {a4} (h : Kept s a0) : Kept s (swapDo a0 a1 a2 a3 a4) := by
  unfold swapDo
  repeat' first
    | with_reducible first
        | exact h | apply bump_kept | apply wr_kept | apply fdSet_kept | apply setPort_kept | apply eqAsk_kept | apply Kept.ite
    | split
theorem setActed_kept {s} {a0} (h : Kept s a0) : Kept s (setActed a0) := by
  unfold setActed
  repeat' with_reducible first
    | exact h | apply setPower_kept
theorem thermalCap_kept {s} {a0} {a1} (h : Kept s a0) : Kept s (thermalCap a0 a1) := by
  unfold thermalCap
  repeat' with_reducible first
    | exact h | apply raiseInt_kept | apply bump_kept | apply setActed_kept | apply fdSet_kept | apply Kept.ite
theorem visitEnd_kept {s} {a0} {a1} (h : Kept s a0) : Kept s (visitEnd a0 a1) := by
  unfold visitEnd
  repeat' first
    | with_reducible first
        | exact h | exact Kept.refl _ | apply visitOver_kept | apply setCore_kept | apply poolCheck_kept | apply coreOff_kept
        | apply setTarget_kept | apply bump_kept | apply setHeal_kept | apply setLadder_kept | apply markClosed_kept | apply raiseInt_kept
        | apply errAt_kept | apply hubLog_kept | apply closeUnit_kept | (intro _) | apply Kept.ite | apply Kept.folds
    | split
theorem bankAccept_kept {s} {a0} {a1} {a2} {a3} {a4} (h : Kept s a0) : Kept s (bankAccept a0 a1 a2 a3 a4) := by
  unfold bankAccept
  repeat' with_reducible first
    | exact h | apply setCore_kept
theorem pcieConfig_kept {s} {a0} {a1} {a2} {a3} (h : Kept s a0) : Kept s (pcieConfig a0 a1 a2 a3) := by
  unfold pcieConfig
  repeat' first
    | with_reducible first
        | exact h | apply send_kept | apply fdSet_kept | apply setHost_kept | apply Kept.ite
    | split
theorem fillNext_kept {s} {a0} {a1} {a2} (h : Kept s a0) : Kept s (fillNext a0 a1 a2).1 := by
  unfold fillNext
  repeat' first
    | with_reducible first
        | exact h | apply setPort_kept | apply bump_kept
    | split
    | (dsimp only; split)
theorem fillOne_kept {s} {a0} {a1} {a2} (h : Kept s a0) : Kept s (fillOne a0 a1 a2).1 := by
  unfold fillOne
  repeat' first
    | with_reducible first
        | exact h | apply fillNext_kept | apply setPort_kept
    | split
theorem fillFrame_kept {s} {a0} {a1} {a2} {a3} (h : Kept s a0) : Kept s (fillFrame a0 a1 a2 a3).1 := by
  unfold fillFrame
  repeat' with_reducible first
    | exact h | exact Kept.refl _ | apply fillOne_kept | (intro _) | apply Kept.foldsFst
theorem frameOut_kept {s} {a0} {a1} {a2} (h : Kept s a0) : Kept s (frameOut a0 a1 a2) := by
  unfold frameOut
  repeat' first
    | with_reducible first
        | exact h | exact Kept.refl _ | apply fillFrame_kept | apply setPort_kept | apply laneOut_kept | apply spareOut_kept
        | apply fdSet_kept | (intro _) | apply Kept.folds
    | split
theorem codewordOut_kept {s} {a0} {a1} {a2} (h : Kept s a0) : Kept s (codewordOut a0 a1 a2) := by
  unfold codewordOut
  repeat' first
    | with_reducible first
        | exact h | apply sendBlk_kept | apply setPort_kept | apply swapDo_kept | apply frameOut_kept | apply Kept.ite
    | split
theorem waitTimeout_kept {s} {a0} {a1} {a2} {a3} (h : Kept s a0) : Kept s (waitTimeout a0 a1 a2 a3) := by
  unfold waitTimeout
  repeat' first
    | with_reducible first
        | exact h | apply complete_kept | apply setCtx_kept
    | (dsimp only; split)
theorem landCredit_kept {s} {a0} {a1} {a2} (h : Kept s a0) : Kept s (landCredit a0 a1 a2) := by
  unfold landCredit
  repeat' with_reducible first
    | exact h | apply booksCheck_kept | apply setLink_kept | apply Kept.ite
theorem qyOffer_kept {s} {a0} {a1} {a2} (h : Kept s a0) : Kept s (qyOffer a0 a1 a2) := by
  unfold qyOffer
  repeat' with_reducible first
    | exact h | apply setQe_kept | apply enterMsg_kept | apply setOutcome_kept | apply qErr_kept | apply Kept.ite
theorem bankDrain_kept {s} {a0} {a1} {a2} (h : Kept s a0) : Kept s (bankDrain a0 a1 a2) := by
  unfold bankDrain
  repeat' first
    | with_reducible first
        | exact h | apply storeWord_kept | apply setCore_kept
    | (dsimp only; split)
theorem mapSave_kept {s} {a0} {a1} (h : Kept s a0) : Kept s (mapSave a0 a1) := by
  unfold mapSave
  repeat' with_reducible first
    | exact h | apply raiseInt_kept | apply errAt_kept | apply setHeal_kept | apply fdSet_kept | apply wr_kept | apply Kept.ite
theorem tryBoot_kept {s} {a0} (h : Kept s a0) : Kept s (tryBoot a0) := by
  unfold tryBoot
  repeat' with_reducible first
    | exact h | apply beginStep_kept | apply fdSet_kept | apply Kept.ite
theorem flashExtHigh_kept {s} {a0} (h : Kept s a0) : Kept s (flashExtHigh a0) := by
  unfold flashExtHigh
  repeat' with_reducible first
    | exact h | apply tryBoot_kept | apply setPins_kept | apply Kept.ite
theorem rangeTurn_kept {s} {a0} {a1} {a2} (h : Kept s a0) : Kept s (rangeTurn a0 a1 a2) := by
  unfold rangeTurn
  repeat' first
    | with_reducible first
        | exact h | apply rangeGrant_kept | apply bump_kept | apply Kept.ite
    | split
theorem fuseCmdWrite_kept {s} {a0} {a1} {a2} {a3} (h : Kept s a0) : Kept s (fuseCmdWrite a0 a1 a2 a3) := by
  unfold fuseCmdWrite
  repeat' with_reducible first
    | exact h | apply registerWrite_kept
theorem closureAnswer_kept {s} {a0} {a1} {a2} (h : Kept s a0) : Kept s (closureAnswer a0 a1 a2) := by
  unfold closureAnswer
  repeat' with_reducible first
    | exact h | apply epEnd_kept | apply bump_kept | apply answerFrom_kept
theorem eject_kept {s} {a0} {a1} {a2} (h : Kept s a0) : Kept s (eject a0 a1 a2) := by
  unfold eject
  repeat' with_reducible first
    | exact h | apply epEnd_kept | apply closureAnswer_kept | apply bump_kept | apply setRout_kept | apply Kept.ite
theorem meshPush_kept {s} {a0} {a1} {a2} {a3} (h : Kept s a0) : Kept s (meshPush a0 a1 a2 a3) := by
  unfold meshPush
  repeat' with_reducible first
    | exact h | apply bufPush_kept | apply Kept.ite
theorem routerForward_kept {s} {a0} {a1} {a2} {a3} {a4} {a5} {a6} (h : Kept s a0) : Kept s (routerForward a0 a1 a2 a3 a4 a5 a6) := by
  unfold routerForward
  repeat' first
    | with_reducible first
        | exact h | apply setRout_kept | apply setBuf_kept | apply pktErr_kept | apply epEnd_kept | apply bump_kept | apply bumpBy_kept
        | apply eject_kept | apply swPush_kept | apply meshPush_kept | apply Kept.ite
    | split
theorem routBooks_kept {s} {a0} {a1} {a2} {a3} (h : Kept s a0) : Kept s (routBooks a0 a1 a2 a3) := by
  unfold routBooks
  repeat' with_reducible first
    | exact h | apply booksLost_kept | apply Kept.ite
theorem emitToks_kept {s} {a0} {a1} {a2} {a3} (h : Kept s a0) : Kept s (emitToks a0 a1 a2 a3) := by
  fun_induction emitToks
  repeat' with_reducible first
    | exact h | apply emitTok_kept | apply_assumption
theorem cuEmit_kept {s} {a0} {a1} {a2} {a3} {a4} (h : Kept s a0) : Kept s (cuEmit a0 a1 a2 a3 a4) := by
  unfold cuEmit
  repeat' with_reducible first
    | exact h | exact Kept.refl _ | apply setCu_kept | apply emitToks_kept | apply bumpBy_kept | (intro _) | apply Kept.folds
theorem cuCheck_kept {s} {a0} {a1} {a2} {a3} {a4} (h : Kept s a0) : Kept s (cuCheck a0 a1 a2 a3 a4) := by
  unfold cuCheck
  repeat' first
    | with_reducible first
        | exact h | apply cuEmit_kept | apply bump_kept | apply reportCore_kept | apply raiseInt_kept | apply setCu_kept
        | apply coreErr_kept | apply Kept.ite
    | split
    | (dsimp only; split)

end Sys2Proof.Machine
end

