-- ==== Sys2Proof/Laws/Kept4.lean ====
section
/-! SUPPORT. What every shared operation keeps: continued from Kept3.lean, callees before callers. -/
namespace Sys2Proof.Machine
open Sys2Proof
set_option Elab.async false

theorem unbindNow_kept {s} {a0} (h : Kept s a0) : Kept s (unbindNow a0) := by
  unfold unbindNow
  repeat' with_reducible first
    | exact h | apply wr_kept | apply setTwin_kept | apply setFlash_kept | apply setPst_kept | apply fdSet_kept
theorem refusedBank_kept {s} {a0} {a1} {a2} (h : Kept s a0) : Kept s (refusedBank a0 a1 a2) := by
  unfold refusedBank
  repeat' first
    | with_reducible first
        | exact h | apply bankAsk_kept
    | split
theorem commitSlot_kept {s} {a0} {a1} {a2} {a3} (h : Kept s a0) : Kept s (commitSlot a0 a1 a2 a3) := by
  unfold commitSlot
  repeat' with_reducible first
    | exact h | apply setSlot_kept | apply writeStat_kept | apply bump_kept | apply wakeCause_kept | apply Kept.ite
theorem banksWait_kept {s} {a0} {a1} {a2} {a3} (h : Kept s a0) : Kept s (banksWait a0 a1 a2 a3).1 := by
  unfold banksWait
  repeat' first
    | with_reducible first
        | exact h | exact Kept.refl _ | apply bankAsk_kept | (intro _) | apply Kept.foldsFst | refine Kept.fst (by assumption) ?_
    | split
theorem deliver_kept {s} {a0} {a1} {a2} {a3} {a4} {a5} {a6} {a7} {a8} (h : Kept s a0) : Kept s (deliver a0 a1 a2 a3 a4 a5 a6 a7 a8).1 := by
  unfold deliver
  repeat' first
    | with_reducible first
        | exact h | exact Kept.refl _ | apply commitSlot_kept | apply setSlot_kept | apply bankAsk_kept | apply banksWait_kept
        | apply bump_kept | apply spadApply_kept | (intro _) | apply Kept.ite | apply Kept.folds
    | split
    | (dsimp only; split)
theorem ackPkt_kept {s} {a0} {a1} {a2} (h : Kept s a0) : Kept s (ackPkt a0 a1 a2) := by
  unfold ackPkt
  repeat' with_reducible first
    | exact h | apply inject_kept
theorem commitMsg_kept {s} {a0} {a1} {a2} {a3} {a4} (h : Kept s a0) : Kept s (commitMsg a0 a1 a2 a3 a4) := by
  unfold commitMsg
  repeat' first
    | with_reducible first
        | exact h | apply deliver_kept | apply setQe_kept | apply setHandle_kept | apply bump_kept | apply ackPkt_kept
        | apply nackPkt_kept | apply Kept.ite | refine Kept.fst (by assumption) ?_
    | split
    | (dsimp only; split)
theorem reassemble_kept {s} {a0} {a1} {a2} (h : Kept s a0) : Kept s (reassemble a0 a1 a2) := by
  unfold reassemble
  repeat' first
    | with_reducible first
        | exact h | apply nackPkt_kept | apply setQe_kept | apply commitMsg_kept | apply Kept.ite
    | (dsimp only; split)
theorem msgPacket_kept {s} {a0} {a1} {a2} (h : Kept s a0) : Kept s (msgPacket a0 a1 a2) := by
  unfold msgPacket
  repeat' with_reducible first
    | exact h | apply nackPkt_kept | apply qErr_kept | apply bump_kept | apply refusedBank_kept | apply commitMsg_kept
    | apply reassemble_kept | apply ackPkt_kept | apply Kept.ite
theorem mgmtBad_kept {s} {a0} {a1} (h : Kept s a0) : Kept s (mgmtBad a0 a1) := by
  unfold mgmtBad
  repeat' with_reducible first
    | exact h | apply raiseInt_kept | apply errAt_kept | apply bump_kept
theorem spdmAnswer_kept {s} {a0} {a1} {a2} (h : Kept s a0) : Kept s (spdmAnswer a0 a1 a2) := by
  unfold spdmAnswer
  repeat' with_reducible first
    | exact h | exact Kept.refl _ | apply mgmtMsg_kept | apply mgmtBad_kept | apply freeUsed_kept | apply send_kept | (intro _)
    | apply Kept.ite
theorem trainingDone_kept {s} {a0} {a1} {a2} {a3} (h : Kept s a0) : Kept s (trainingDone a0 a1 a2 a3) := by
  unfold trainingDone
  repeat' first
    | with_reducible first
        | exact h | apply toMismatch_kept | apply fdSet_kept | apply setPState_kept | apply wr_kept | apply setPort_kept
        | apply eqAsk_kept | apply Kept.ite
    | split
    | with_reducible apply Kept.upd
theorem modRst_kept {s} {a0} {a1} (h : Kept s a0) : Kept s (modRst a0 a1) := by
  unfold modRst
  repeat' with_reducible first
    | exact h | apply moduleReset_kept | apply freeUsed_kept | apply Kept.ite
theorem notifyDrop_kept {s} {a0} {a1} {a2} {a3} (h : Kept s a0) : Kept s (notifyDrop a0 a1 a2 a3) := by
  unfold notifyDrop
  repeat' with_reducible first
    | exact h | apply dmaErr_kept | apply dmaFinish_kept
theorem notifyCommit_kept {s} {a0} {a1} {a2} (h : Kept s a0) : Kept s (notifyCommit a0 a1 a2) := by
  unfold notifyCommit
  repeat' first
    | with_reducible first
        | exact h | apply notifyDrop_kept | apply askBanks_kept | apply deliver_kept | apply dmaFinish_kept | apply Kept.ite
        | refine Kept.fst (by assumption) ?_
    | split
theorem powerDies_kept {s} {a0} (h : Kept s a0) : Kept s (powerDies a0) := by
  unfold powerDies
  repeat' with_reducible first
    | exact h | exact Kept.refl _ | apply fdSet_kept | apply setPins_kept | (intro _) | apply Kept.ite | apply Kept.folds
theorem mctpControl_kept {s} {a0} {a1} {a2} {a3} (h : Kept s a0) : Kept s (mctpControl a0 a1 a2 a3) := by
  unfold mctpControl
  repeat' with_reducible first
    | exact h | exact Kept.refl _ | apply mgmtMsg_kept | apply mgmtBad_kept | apply send_kept | apply fdSet_kept | (intro _)
    | apply Kept.ite
theorem spadWriteAll_kept {s} {a0} {a1} {a2} {a3} {a4} (h : Kept s a0) : Kept s (spadWriteAll a0 a1 a2 a3 a4).1 := by
  fun_induction spadWriteAll
  repeat' with_reducible first
    | exact h | apply spadWrite_kept | refine Kept.fst (by assumption) ?_ | apply_assumption
theorem dmaLocal_kept {s} {a0} {a1} {a2} (h : Kept s a0) : Kept s (dmaLocal a0 a1 a2).1 := by
  unfold dmaLocal
  repeat' first
    | with_reducible first
        | exact h | apply spadReadAll_kept | apply spadWriteAll_kept
    | split
theorem vfWords_kept {s} {a0} {a1} {a2} {a3} {a4} {a5} (h : Kept s a0) : Kept s (vfWords a0 a1 a2 a3 a4 a5) := by
  unfold vfWords
  repeat' with_reducible first
    | exact h | exact Kept.refl _ | apply vfBar0_kept | apply hostBad_kept | (intro _) | apply Kept.ite | apply Kept.folds
theorem throttleRelease_kept {s} {a0} {a1} {a2} (h : Kept s a0) : Kept s (throttleRelease a0 a1 a2) := by
  unfold throttleRelease
  repeat' with_reducible first
    | exact h | exact Kept.refl _ | apply setPower_kept | apply bumpBy_kept | apply fdSet_kept | (intro _) | apply Kept.ite
    | apply Kept.folds
theorem msgRange_kept {s} {a0} {a1} {a2} (h : Kept s a0) : Kept s (msgRange a0 a1 a2).1 := by
  unfold msgRange
  repeat' first
    | with_reducible first
        | exact h | apply rangeAsk_kept | apply setQe_kept | apply rangeGrant_kept | refine Kept.fst (by assumption) ?_
    | split
theorem fastThrottle_kept {s} {a0} {a1} (h : Kept s a0) : Kept s (fastThrottle a0 a1) := by
  unfold fastThrottle
  repeat' with_reducible first
    | exact h | exact Kept.refl _ | apply setActed_kept | apply setPower_kept | apply fdSet_kept | apply raiseInt_kept | apply bump_kept
    | (intro _) | apply Kept.ite | apply Kept.folds
theorem serdesLoss_kept {s} {a0} {a1} (h : Kept s a0) : Kept s (serdesLoss a0 a1) := by
  unfold serdesLoss
  repeat' with_reducible first
    | exact h | apply raiseInt_kept | apply errAt_kept | apply fdSet_kept | apply Kept.ite
theorem seqBooks_kept {s} {a0} {a1} (h : Kept s a0) : Kept s (seqBooks a0 a1) := by
  unfold seqBooks
  repeat' with_reducible first
    | exact h | apply booksLost_kept | apply Kept.ite
theorem convAnswer_kept {s} {a0} {a1} {a2} {a3} (h : Kept s a0) : Kept s (convAnswer a0 a1 a2 a3) := by
  unfold convAnswer
  repeat' with_reducible first
    | exact h | apply answerFrom_kept
theorem convoyPacket_kept {s} {a0} {a1} {a2} (h : Kept s a0) : Kept s (convoyPacket a0 a1 a2) := by
  unfold convoyPacket
  repeat' first
    | with_reducible first
        | exact h | exact Kept.refl _ | apply epEnd_kept | apply setBuf_kept | apply takePkt_kept | apply convAnswer_kept
        | apply setRout_kept | apply sendFrom_kept | (intro _) | apply Kept.ite | apply Kept.folds
    | split
theorem twinUnbind_kept {s} {a0} {a1} (h : Kept s a0) : Kept s (twinUnbind a0 a1).1 := by
  unfold twinUnbind
  repeat' first
    | with_reducible first
        | exact h | apply sendCtrl_kept | apply unbindNow_kept
    | split
theorem pwrEnRise_kept {s} {a0} {a1} (h : Kept s a0) : Kept s (pwrEnRise a0 a1) := by
  unfold pwrEnRise
  repeat' with_reducible first
    | exact h | apply setPins_kept | apply setCause_kept | apply tryBoot_kept | apply Kept.ite
theorem gridRecover_kept {s} {a0} {a1} (h : Kept s a0) : Kept s (gridRecover a0 a1) := by
  unfold gridRecover
  repeat' with_reducible first
    | exact h | exact Kept.refl _ | apply gridClear_kept | apply coreReset_kept | apply postAbort_kept | (intro _) | apply Kept.ite
    | apply Kept.folds
theorem closingFree_kept {s} {a0} {a1} {a2} {a3} (h : Kept s a0) : Kept s (closingFree a0 a1 a2 a3) := by
  unfold closingFree
  repeat' with_reducible first
    | exact h | apply setChan_kept | apply Kept.ite
theorem closeAcked_kept {s} {a0} {a1} {a2} {a3} (h : Kept s a0) : Kept s (closeAcked a0 a1 a2 a3) := by
  unfold closeAcked
  repeat' with_reducible first
    | exact h | exact Kept.refl _ | apply closingFree_kept | (intro _) | apply Kept.folds
theorem laneSwap_kept {s} {a0} {a1} {a2} (h : Kept s a0) : Kept s (laneSwap a0 a1 a2) := by
  unfold laneSwap
  repeat' first
    | with_reducible first
        | exact h | apply swapDo_kept | apply Kept.ite
    | split
theorem digestAdd_kept {s} {a0} {a1} {a2} {a3} {a4} (h : Kept s a0) : Kept s (digestAdd a0 a1 a2 a3 a4) := by
  unfold digestAdd
  repeat' with_reducible first
    | exact h | apply digestOpen_kept | apply setChan_kept
theorem sendMsg_kept {s} {a0} {a1} {a2} {a3} {a4} (h : Kept s a0) : Kept s (sendMsg a0 a1 a2 a3 a4) := by
  unfold sendMsg
  repeat' first
    | with_reducible first
        | exact h | exact Kept.refl _ | apply setQe_kept | apply rangeTake_kept | apply readMsg_kept | apply qeRelease_kept
        | apply inject_kept | apply digestAdd_kept | (intro _) | apply Kept.folds | refine Kept.fst (by assumption) ?_
    | split
    | (dsimp only; split)
theorem finalOutcome_kept {s} {a0} {a1} {a2} {a3} (h : Kept s a0) : Kept s (finalOutcome a0 a1 a2 a3) := by
  unfold finalOutcome
  repeat' with_reducible first
    | exact h | apply endMsg_kept | apply setChan_kept | apply closeSettle_kept | apply endAll_kept | apply Kept.ite
theorem windowExpiry_kept {s} {a0} {a1} {a2} {a3} (h : Kept s a0) : Kept s (windowExpiry a0 a1 a2 a3) := by
  unfold windowExpiry
  repeat' first
    | with_reducible first
        | exact h | apply setQe_kept | apply sendMsg_kept | apply bump_kept | apply finalOutcome_kept | apply Kept.ite
    | split
theorem gaugeExpiry_kept {s} {a0} {a1} {a2} (h : Kept s a0) : Kept s (gaugeExpiry a0 a1 a2) := by
  unfold gaugeExpiry
  repeat' with_reducible first
    | exact h | apply gaugeClose_kept | apply Kept.ite
theorem invalDone_kept {s} {a0} (h : Kept s a0) : Kept s (invalDone a0) := by
  unfold invalDone
  repeat' first
    | with_reducible first
        | exact h | apply bump_kept | apply sendUpdate_kept | apply Kept.ite | apply Kept.upd h
    | split
theorem mgmtFabric_kept {s} {a0} {a1} {a2} {a3} (h : Kept s a0) : Kept s (mgmtFabric a0 a1 a2 a3) := by
  unfold mgmtFabric
  repeat' with_reducible first
    | exact h | exact Kept.refl _ | apply mgmtMsg_kept | apply send_kept | apply fabricCfg_kept | (intro _) | apply Kept.ite
theorem mainRestored_kept {s} {a0} (h : Kept s a0) : Kept s (mainRestored a0) := by
  unfold mainRestored
  repeat' with_reducible first
    | exact h | apply setCause_kept | apply tryBoot_kept | apply setPins_kept | apply Kept.ite
theorem movePrepared_kept {s} {a0} {a1} (h : Kept s a0) : Kept s (movePrepared a0 a1) := by
  unfold movePrepared
  repeat' first
    | with_reducible first
        | exact h | exact Kept.refl _ | apply withMate_kept | apply banksOn_kept | apply coreReset_kept | apply wr_kept
        | apply bindCore_kept | apply copyBuffers_kept | apply retargetAll_kept | apply copyFields_kept | apply fdSet_kept
        | apply setMover_kept | apply syncHolds_kept | (intro _) | apply Kept.ite | apply Kept.folds
    | split
theorem trainDone_kept {s} {a0} {a1} {a2} {a3} (h : Kept s a0) : Kept s (trainDone a0 a1 a2 a3) := by
  unfold trainDone
  repeat' first
    | with_reducible first
        | exact h | exact Kept.refl _ | apply wr_kept | apply closeSlice_kept | apply recJudge_kept | apply setStack_kept
        | apply fdSet_kept | (intro _) | apply Kept.ite | apply Kept.folds
    | split
    | with_reducible apply Kept.upd
theorem memTrained_kept {s} {a0} {a1} {a2} {a3} (h : Kept s a0) : Kept s (memTrained a0 a1 a2 a3) := by
  unfold memTrained
  repeat' first
    | with_reducible first
        | exact h | exact Kept.refl _ | apply trainDone_kept | apply wr_kept | apply closeUnit_kept | (intro _) | apply Kept.ite
        | apply Kept.folds
    | split
theorem journalMark_kept {s} {a0} {a1} (h : Kept s a0) : Kept s (journalMark a0 a1) := by
  unfold journalMark
  repeat' with_reducible first
    | exact h | exact Kept.refl _ | apply fdSet_kept | apply journalAdd_kept | apply setTwin_kept | (intro _) | apply Kept.ite
    | apply Kept.folds
theorem markCmd_kept {s} {a0} {a1} (h : Kept s a0) : Kept s (markCmd a0 a1) := by
  unfold markCmd
  repeat' with_reducible first
    | exact h | apply journalMark_kept | apply Kept.ite
theorem ladderDecay_kept {s} {a0} {a1} (h : Kept s a0) : Kept s (ladderDecay a0 a1) := by
  unfold ladderDecay
  repeat' with_reducible first
    | exact h | apply bump_kept | apply setLadder_kept | apply logAdd_kept | apply Kept.ite
theorem phaseFailure_kept {s} {a0} {a1} {a2} (h : Kept s a0) : Kept s (phaseFailure a0 a1 a2) := by
  unfold phaseFailure
  repeat' with_reducible first
    | exact h | apply bump_kept | apply fdSet_kept | apply raiseInt_kept | apply errAt_kept | apply report_kept | apply Kept.ite
theorem homeless_kept {s} {a0} {a1} (h : Kept s a0) : Kept s (homeless a0 a1) := by
  unfold homeless
  repeat' with_reducible first
    | exact h | apply contextFail_kept | apply postAbort_kept | apply Kept.ite
theorem reloadRegion_kept {s} {a0} {a1} {a2} (h : Kept s a0) : Kept s (reloadRegion a0 a1 a2) := by
  unfold reloadRegion
  repeat' with_reducible first
    | exact h | apply fetchHome_kept | apply homeless_kept | apply spadServe_kept | apply fdSet_kept | apply regionFill_kept
    | apply Kept.ite
theorem jForward_kept {s} {a0} {a1} {a2} (h : Kept s a0) : Kept s (jForward a0 a1 a2) := by
  unfold jForward
  repeat' first
    | with_reducible first
        | exact h | apply setSeq_kept | apply enterMsg_kept | apply setSlot_kept | apply jFwdEnd_kept | apply qErr_kept | apply Kept.ite
    | split
    | (dsimp only; split)
theorem casevoWrite_kept {s} {a0} {a1} {a2} {a3} (h : Kept s a0) : Kept s (casevoWrite a0 a1 a2 a3) := by
  unfold casevoWrite
  repeat' with_reducible first
    | exact h | exact Kept.refl _ | apply mgmtMsg_kept | apply writeCode_kept | apply mgmtDenied_kept | apply send_kept | (intro _)
    | apply Kept.ite
theorem eqAdj_kept {s} {a0} {a1} {a2} {a3} (h : Kept s a0) : Kept s (eqAdj a0 a1 a2 a3) := by
  unfold eqAdj
  repeat' with_reducible first
    | exact h | apply setPort_kept | apply Kept.ite
theorem freezeRelease_kept {s} {a0} (h : Kept s a0) : Kept s (freezeRelease a0) := by
  unfold freezeRelease
  repeat' first
    | with_reducible first
        | exact h | exact Kept.refl _ | apply bumpBy_kept | apply bump_kept | apply fdSet_kept | apply setHub_kept | apply setCtx_kept
        | (intro _) | apply Kept.ite | apply Kept.folds
    | split
theorem wideRead_kept {s} {a0} {a1} {a2} {a3} {a4} (h : Kept s a0) : Kept s (wideRead a0 a1 a2 a3 a4) := by
  fun_induction wideRead
  repeat' with_reducible first
    | exact h | apply registerRead_kept | apply_assumption
theorem recentreOpen_kept {s} {a0} {a1} {a2} (h : Kept s a0) : Kept s (recentreOpen a0 a1 a2) := by
  unfold recentreOpen
  repeat' with_reducible first
    | exact h | apply setStack_kept | apply fdSet_kept | apply Kept.ite
theorem switchDrop_kept {s} {a0} {a1} {a2} {a3} (h : Kept s a0) : Kept s (switchDrop a0 a1 a2 a3) := by
  unfold switchDrop
  repeat' with_reducible first
    | exact h | apply epEnd_kept | apply bump_kept | apply freeUsed_kept | apply pktErr_kept
theorem swRetired_kept {s} {a0} {a1} {a2} {a3} (h : Kept s a0) : Kept s (swRetired a0 a1 a2 a3) := by
  unfold swRetired
  repeat' first
    | with_reducible first
        | exact h | apply pktErr_kept | apply epEnd_kept | apply bump_kept | apply freeUsed_kept | apply errAt_kept
    | split
theorem swAnswer_kept {s} {a0} {a1} {a2} {a3} (h : Kept s a0) : Kept s (swAnswer a0 a1 a2 a3) := by
  unfold swAnswer
  repeat' first
    | with_reducible first
        | exact h | apply bump_kept | apply answerFrom_kept | apply epEnd_kept | apply Kept.ite
    | split
theorem dieSwitch_kept {s} {a0} {a1} {a2} {a3} {a4} {a5} {a6} (h : Kept s a0) : Kept s (dieSwitch a0 a1 a2 a3 a4 a5 a6) := by
  unfold dieSwitch
  repeat' first
    | with_reducible first
        | exact h | apply laneCount_kept | apply setNet_kept | apply switchDrop_kept | apply swRetired_kept | apply swAnswer_kept
        | apply bufPush_kept | apply epEnd_kept | apply freeUsed_kept | apply bumpBy_kept | apply report_kept | apply pktErr_kept
        | apply bump_kept | apply swPush_kept | apply Kept.ite
    | split
    | (dsimp only; split)
theorem spdmMeasure_kept {s} {a0} (h : Kept s a0) : Kept s (spdmMeasure a0) := by
  unfold spdmMeasure
  repeat' with_reducible first
    | exact h | apply spdmAnswer_kept | apply Kept.ite | apply Kept.upd
theorem drainTimeout_kept {s} {a0} (h : Kept s a0) : Kept s (drainTimeout a0) := by
  unfold drainTimeout
  repeat' with_reducible first
    | exact h | apply retireBank_kept | apply freeUsed_kept | apply hubLog_kept | apply Kept.ite
theorem resyncStart_kept {s} {a0} (h : Kept s a0) : Kept s (resyncStart a0) := by
  unfold resyncStart
  repeat' first
    | with_reducible first
        | exact h | apply resync_kept | apply setPst_kept | apply setTwin_kept | apply wr_kept | apply fdSet_kept | apply Kept.ite
    | split
theorem qxTake_kept {s} {a0} {a1} {a2} {a3} (h : Kept s a0) : Kept s (qxTake a0 a1 a2 a3).1 := by
  unfold qxTake
  repeat' first
    | with_reducible first
        | exact h | apply setSlot_kept | apply popSlot_kept | apply banksWait_kept | apply readMsg_kept
        | refine Kept.fst (by assumption) ?_
    | split
    | (dsimp only; split)
theorem qxEmit_kept {s} {a0} {a1} {a2} (h : Kept s a0) : Kept s (qxEmit a0 a1 a2) := by
  unfold qxEmit
  repeat' first
    | with_reducible first
        | exact h | apply qxTake_kept | apply setQe_kept | apply emitTok_kept | apply takeCredits_kept | apply ringRelease_kept
        | apply jRelease_kept | apply stallCount_kept | apply Kept.ite | refine Kept.fst (by assumption) ?_
    | split
    | (dsimp only; split)
theorem cuStall_kept {s} {a0} {a1} {a2} (h : Kept s a0) : Kept s (cuStall a0 a1 a2) := by
  unfold cuStall
  repeat' with_reducible first
    | exact h | apply stallCount_kept
theorem rejoinRequest_kept {s} {a0} (h : Kept s a0) : Kept s (rejoinRequest a0) := by
  unfold rejoinRequest
  repeat' with_reducible first
    | exact h | apply setPst_kept | apply sendCtrl_kept | apply Kept.ite
theorem barrierTimeout_kept {s} {a0} {a1} (h : Kept s a0) : Kept s (barrierTimeout a0 a1) := by
  unfold barrierTimeout
  repeat' first
    | with_reducible first
        | exact h | exact Kept.refl _ | apply postAll_kept | (intro _) | apply Kept.ite | apply Kept.folds
    | (dsimp only; split)
theorem qselSelect_kept {s} {a0} {a1} (h : Kept s a0) : Kept s (qselSelect a0 a1) := by
  unfold qselSelect
  repeat' first
    | with_reducible first
        | exact h | apply qselGive_kept | apply wokeUp_kept
    | split
theorem spadBeats_kept {s} {a0} {a1} {a2} {a3} {a4} {a5} (h : Kept s a0) : Kept s (spadBeats a0 a1 a2 a3 a4 a5).1 := by
  fun_induction spadBeats
  repeat' first
    | with_reducible first
        | exact h | apply askBanks_kept | apply spadWriteAll_kept | refine Kept.fst (by assumption) ?_ | apply_assumption
    | split
theorem spareDone_kept {s} {a0} {a1} (h : Kept s a0) : Kept s (spareDone a0 a1) := by
  unfold spareDone
  repeat' first
    | with_reducible first
        | exact h | apply fdSet_kept | apply setPort_kept | apply queueBlk_kept | apply Kept.ite
    | split
theorem xRead_kept {s} {a0} {a1} {a2} (h : Kept s a0) : Kept s (xRead a0 a1 a2) := by
  unfold xRead
  repeat' first
    | with_reducible first
        | exact h | apply spadRead_kept | apply send_kept | refine Kept.fst (by assumption) ?_
    | split
theorem swapAsked_kept {s} {a0} {a1} {a2} {a3} {a4} (h : Kept s a0) : Kept s (swapAsked a0 a1 a2 a3 a4) := by
  unfold swapAsked
  repeat' with_reducible first
    | exact h | apply setPort_kept | apply fdSet_kept | apply Kept.ite
theorem limiterAct_kept {s} {a0} {a1} {a2} (h : Kept s a0) : Kept s (limiterAct a0 a1 a2) := by
  unfold limiterAct
  repeat' with_reducible first
    | exact h | apply fdSet_kept | apply setActed_kept | apply bump_kept | apply raiseInt_kept | apply errAt_kept | apply Kept.ite
theorem freqAll_kept {s} {a0} (h : Kept s a0) : Kept s (freqAll a0) := by
  unfold freqAll
  repeat' with_reducible first
    | exact h | exact Kept.refl _ | apply freqApply_kept | (intro _) | apply Kept.folds
theorem limiterInterval_kept {s} {a0} (h : Kept s a0) : Kept s (limiterInterval a0) := by
  unfold limiterInterval
  repeat' with_reducible first
    | exact h | exact Kept.refl _ | apply fdSet_kept | apply setPower_kept | apply limiterAct_kept | apply freqAll_kept
    | apply thermalCap_kept | (intro _) | apply Kept.ite | apply Kept.folds
theorem jBooks_kept {s} {a0} {a1} {a2} {a3} (h : Kept s a0) : Kept s (jBooks a0 a1 a2 a3) := by
  unfold jBooks
  repeat' with_reducible first
    | exact h | apply booksLost_kept | apply Kept.ite
theorem jAdd_kept {s} {a0} {a1} {a2} {a3} {a4} (h : Kept s a0) : Kept s (jAdd a0 a1 a2 a3 a4) := by
  unfold jAdd
  repeat' with_reducible first
    | exact h | apply jHeldPart_kept | apply jAddPart_kept | apply jSettle_kept | apply setSlot_kept | apply Kept.ite
theorem signalSeen_kept {s} {a0} {a1} {a2} (h : Kept s a0) : Kept s (signalSeen a0 a1 a2) := by
  unfold signalSeen
  repeat' with_reducible first
    | exact h | apply setPort_kept | apply fdSet_kept | apply setPState_kept | apply eqAll_kept | apply Kept.ite
theorem flipDone_kept {s} {a0} (h : Kept s a0) : Kept s (flipDone a0) := by
  unfold flipDone
  repeat' first
    | with_reducible first
        | exact h | apply bump_kept | apply Kept.ite | apply Kept.upd h
    | split
theorem gridlock_kept {s} {a0} {a1} {a2} (h : Kept s a0) : Kept s (gridlock a0 a1 a2) := by
  unfold gridlock
  repeat' with_reducible first
    | exact h | exact Kept.refl _ | apply bump_kept | apply fdSet_kept | apply wr64_kept | apply raiseInt_kept | apply wr_kept | (intro _)
    | apply Kept.ite | apply Kept.folds
theorem probeSend_kept {s} {a0} {a1} {a2} {a3} (h : Kept s a0) : Kept s (probeSend a0 a1 a2 a3) := by
  unfold probeSend
  repeat' with_reducible first
    | exact h | apply noticeOut_kept | apply send_kept | apply Kept.ite
theorem probeReceive_kept {s} {a0} {a1} {a2} {a3} (h : Kept s a0) : Kept s (probeReceive a0 a1 a2 a3) := by
  unfold probeReceive
  repeat' first
    | with_reducible first
        | exact h | exact Kept.refl _ | apply setFab_kept | apply gridlock_kept | apply bump_kept | apply probeSend_kept | (intro _)
        | apply Kept.ite | apply Kept.folds
    | split
theorem startDone_kept {s} {a0} (h : Kept s a0) : Kept s (startDone a0) := by
  unfold startDone
  repeat' with_reducible first
    | exact h | apply endStep_kept | apply fdSet_kept | apply gradeInputs_kept | apply stepTime_kept | apply raiseInt_kept
    | apply bump_kept | apply hostEvent_kept | apply Kept.ite
theorem cutoverFreeze_kept {s} {a0} {a1} (h : Kept s a0) : Kept s (cutoverFreeze a0 a1) := by
  unfold cutoverFreeze
  repeat' first
    | with_reducible first
        | exact h | exact Kept.refl _ | apply setMover_kept | apply bump_kept | apply setCore_kept | apply signPut_kept
        | apply postAll_kept | apply setCtx_kept | apply fdSet_kept | apply setHub_kept | (intro _) | apply Kept.ite | apply Kept.folds
    | split
theorem signpostMiss_kept {s} {a0} {a1} (h : Kept s a0) : Kept s (signpostMiss a0 a1) := by
  unfold signpostMiss
  repeat' first
    | with_reducible first
        | exact h | apply setRout_kept | apply setQe_kept | apply setNet_kept | apply bump_kept | apply Kept.ite
    | split
theorem dmaStart_kept {s} {a0} {a1} (h : Kept s a0) : Kept s (dmaStart a0 a1) := by
  unfold dmaStart
  repeat' first
    | with_reducible first
        | exact h | apply dmaAsk_kept | apply updDesc_kept
    | split
theorem cfgswResume_kept {s} {a0} {a1} (h : Kept s a0) : Kept s (cfgswResume a0 a1) := by
  unfold cfgswResume
  repeat' with_reducible first
    | exact h | apply cfgswFinish_kept | apply Kept.ite
theorem pldmSensor_kept {s} {a0} {a1} (h : Kept s a0) : Kept s (pldmSensor a0 a1) := by
  unfold pldmSensor
  repeat' with_reducible first
    | exact h | exact Kept.refl _ | apply mgmtMsg_kept | apply mgmtBad_kept | apply send_kept | (intro _) | apply Kept.ite
theorem laneSeen_kept {s} {a0} {a1} {a2} {a3} (h : Kept s a0) : Kept s (laneSeen a0 a1 a2 a3) := by
  unfold laneSeen
  repeat' with_reducible first
    | exact h | apply swapDo_kept | apply Kept.ite
theorem resyncRead_kept {s} {a0} {a1} {a2} {a3} (h : Kept s a0) : Kept s (resyncRead a0 a1 a2 a3) := by
  unfold resyncRead
  repeat' with_reducible first
    | exact h | apply memServe_kept | apply journalAdd_kept | apply setTwin_kept | apply wr_kept | apply Kept.ite
theorem resyncCmd_kept {s} {a0} {a1} {a2} {a3} (h : Kept s a0) : Kept s (resyncCmd a0 a1 a2 a3) := by
  unfold resyncCmd
  repeat' with_reducible first
    | exact h | apply resyncRead_kept | apply Kept.ite
theorem milestoneWait_kept {s} {a0} {a1} (h : Kept s a0) : Kept s (milestoneWait a0 a1) := by
  unfold milestoneWait
  repeat' with_reducible first
    | exact h | apply endCmd_kept | apply setCtx_kept | apply Kept.ite
theorem winLoadAt_kept {s} {a0} {a1} {a2} (h : Kept s a0) : Kept s (winLoadAt a0 a1 a2) := by
  unfold winLoadAt
  repeat' with_reducible first
    | exact h | apply seqIssue_kept
theorem sendToRoadworks_kept {s} {a0} {a1} (h : Kept s a0) : Kept s (sendToRoadworks a0 a1) := by
  unfold sendToRoadworks
  repeat' with_reducible first
    | exact h | apply setLadder_kept | apply logAdd_kept
theorem pcdigIn_kept {s} {a0} {a1} {a2} {a3} {a4} (h : Kept s a0) : Kept s (pcdigIn a0 a1 a2 a3 a4) := by
  unfold pcdigIn
  repeat' first
    | with_reducible first
        | exact h | exact Kept.refl _ | apply sendToRoadworks_kept | (intro _) | apply Kept.ite | apply Kept.folds
    | split
theorem controlPkt_kept {s} {a0} {a1} {a2} (h : Kept s a0) : Kept s (controlPkt a0 a1 a2) := by
  unfold controlPkt
  repeat' with_reducible first
    | exact h | apply rxDrop_kept | apply discardPkt_kept | apply xepDrop_kept | apply xAdd_kept | apply raiseInt_kept | apply errAt_kept
    | apply bump_kept | apply denyFabric_kept | apply send_kept | apply setNet_kept | apply Kept.ite
theorem casevoFuse_kept {s} {a0} {a1} {a2} (h : Kept s a0) : Kept s (casevoFuse a0 a1 a2) := by
  unfold casevoFuse
  repeat' with_reducible first
    | exact h | exact Kept.refl _ | apply mgmtMsg_kept | apply mgmtDenied_kept | apply fuseCmd_kept | apply fuseArm_kept | (intro _)
    | apply Kept.ite
theorem nackMsg_kept {s} {a0} {a1} {a2} (h : Kept s a0) : Kept s (nackMsg a0 a1 a2) := by
  unfold nackMsg
  repeat' first
    | with_reducible first
        | exact h | apply bump_kept | apply staleReply_kept | apply setQe_kept | apply finalOutcome_kept | apply Kept.ite
    | split
theorem visitBegin_kept {s} {a0} {a1} (h : Kept s a0) : Kept s (visitBegin a0 a1) := by
  unfold visitBegin
  repeat' with_reducible first
    | exact h | apply coreOn_kept | apply setTarget_kept | apply setCore_kept | apply fdSet_kept | apply setLadder_kept
    | apply setHeal_kept
theorem qySend_kept {s} {a0} {a1} {a2} (h : Kept s a0) : Kept s (qySend a0 a1 a2) := by
  unfold qySend
  repeat' first
    | with_reducible first
        | exact h | apply qyOffer_kept | apply askBanks_kept | apply issue_kept | apply popTok_kept | apply spadApply_kept
        | apply storeAll_kept | apply setQe_kept | apply Kept.ite | refine Kept.fst (by assumption) ?_
    | split
    | (dsimp only; split)
theorem replyOk_kept {s} {a0} {a1} {a2} (h : Kept s a0) : Kept s (replyOk a0 a1 a2) := by
  unfold replyOk
  repeat' first
    | with_reducible first
        | exact h | apply staleReply_kept | apply setQe_kept | apply finalOutcome_kept | apply Kept.ite
    | split
theorem linkofsSample_kept {s} {a0} {a1} {a2} {a3} (h : Kept s a0) : Kept s (linkofsSample a0 a1 a2 a3) := by
  unfold linkofsSample
  repeat' with_reducible first
    | exact h | apply gaugeApply_kept | apply Kept.ite
theorem testFailed_kept {s} {a0} {a1} {a2} (h : Kept s a0) : Kept s (testFailed a0 a1 a2) := by
  unfold testFailed
  repeat' with_reducible first
    | exact h | apply setVisit_kept | apply Kept.ite
theorem testDone_kept {s} {a0} {a1} {a2} {a3} (h : Kept s a0) : Kept s (testDone a0 a1 a2 a3) := by
  unfold testDone
  repeat' first
    | with_reducible first
        | exact h | apply setVisit_kept | apply testFailed_kept | apply Kept.ite
    | split
theorem startAt_kept {s} {a0} {a1} {a2} (h : Kept s a0) : Kept s (startAt a0 a1 a2) := by
  unfold startAt
  repeat' with_reducible first
    | exact h | exact Kept.refl _ | apply withMate_kept | apply seqCtlWrite_kept | apply setMile_kept | (intro _)
theorem resumeIn_kept {s} {a0} {a1} {a2} (h : Kept s a0) : Kept s (resumeIn a0 a1 a2) := by
  unfold resumeIn
  repeat' with_reducible first
    | exact h | exact Kept.refl _ | apply forJob_kept | apply startAt_kept | apply setTwin_kept | apply setCtx_kept | (intro _)
    | apply Kept.ite | apply Kept.folds
theorem sendAgain_kept {s} {a0} {a1} {a2} (h : Kept s a0) : Kept s (sendAgain a0 a1 a2).1 := by
  fun_induction sendAgain
  repeat' with_reducible first
    | exact h | apply sendMsg_kept | apply_assumption
theorem napEntry_kept {s} {a0} {a1} (h : Kept s a0) : Kept s (napEntry a0 a1) := by
  unfold napEntry
  repeat' first
    | with_reducible first
        | exact h | apply setSeqSt_kept | apply setSeq_kept
    | split
theorem tkPortSoak_kept {s} {a0} {a1} {a2} (h : Kept s a0) : Kept s (tkPortSoak a0 a1 a2) := by
  unfold tkPortSoak
  repeat' with_reducible first
    | exact h | exact Kept.refl _ | apply setPState_kept | apply closeUnit_kept | (intro _) | apply Kept.ite | apply Kept.folds
theorem ownDigest_kept {s} {a0} {a1} {a2} (h : Kept s a0) : Kept s (ownDigest a0 a1 a2) := by
  unfold ownDigest
  repeat' with_reducible first
    | exact h | apply setTwin_kept | apply compareDigests_kept | apply sendDigest_kept | apply Kept.ite
theorem formDigest_kept {s} {a0} {a1} {a2} (h : Kept s a0) : Kept s (formDigest a0 a1 a2) := by
  unfold formDigest
  repeat' with_reducible first
    | exact h | apply ownDigest_kept | apply Kept.ite
theorem constsPut_kept {s} {a0} {a1} {a2} (h : Kept s a0) : Kept s (constsPut a0 a1 a2) := by
  unfold constsPut
  repeat' with_reducible first
    | exact h | exact Kept.refl _ | apply bumpBy_kept | apply applyWord_kept | (intro _) | apply Kept.ite | apply Kept.folds
theorem stepConsts_kept {s} {a0} {a1} {a2} (h : Kept s a0) : Kept s (stepConsts a0 a1 a2) := by
  unfold stepConsts
  repeat' first
    | with_reducible first
        | exact h | exact Kept.refl _ | apply constsPut_kept | (intro _) | apply Kept.folds
    | split
theorem gaugeMilestone_kept {s} {a0} {a1} {a2} {a3} (h : Kept s a0) : Kept s (gaugeMilestone a0 a1 a2 a3) := by
  unfold gaugeMilestone
  repeat' with_reducible first
    | exact h | exact Kept.refl _ | apply gaugeClose_kept | (intro _) | apply Kept.ite | apply Kept.folds
theorem stepAtDie_kept {s} {a0} {a1} {a2} {a3} (h : Kept s a0) : Kept s (stepAtDie a0 a1 a2 a3) := by
  unfold stepAtDie
  repeat' with_reducible first
    | exact h | exact Kept.refl _ | apply gaugeMilestone_kept | apply setMile_kept | apply wakeCause_kept | apply restWake_kept
    | (intro _) | apply Kept.ite | apply Kept.folds
theorem postStep_kept {s} {a0} {a1} {a2} (h : Kept s a0) : Kept s (postStep a0 a1 a2) := by
  unfold postStep
  repeat' with_reducible first
    | exact h | exact Kept.refl _ | apply stepConsts_kept | apply ctxHold_kept | apply setCtx_kept | apply gaugeMilestone_kept
    | apply stepAtDie_kept | (intro _) | apply Kept.folds
theorem stepPost_kept {s} {a0} {a1} (h : Kept s a0) : Kept s (stepPost a0 a1) := by
  unfold stepPost
  repeat' first
    | with_reducible first
        | exact h | apply formDigest_kept | apply postStep_kept | apply setCtx_kept | apply Kept.ite
    | split
theorem loadRec_kept {s} {a0} {a1} {a2} (h : Kept s a0) : Kept s (loadRec a0 a1 a2) := by
  unfold loadRec
  repeat' first
    | with_reducible first
        | exact h | apply freeUsed_kept | apply recJudge_kept | apply setStack_kept | apply Kept.ite
    | split
theorem memoryStart_kept {s} {a0} {a1} {a2} (h : Kept s a0) : Kept s (memoryStart a0 a1 a2) := by
  unfold memoryStart
  repeat' with_reducible first
    | exact h | exact Kept.refl _ | apply memTrain_kept | apply loadRec_kept | apply fdSet_kept | apply raiseInt_kept | apply errAt_kept
    | apply memTrained_kept | apply endStep_kept | apply setPins_kept | (intro _) | apply Kept.ite | apply Kept.folds
    | exact h.trans ⟨rfl, rfl, rfl, fun _ => rfl⟩
theorem fuseDone_kept {s} {a0} {a1} (h : Kept s a0) : Kept s (fuseDone a0 a1) := by
  unfold fuseDone
  repeat' first
    | with_reducible first
        | exact h | apply fdSet_kept | apply setHost_kept | apply bump_kept | apply fuseBlow_kept | apply raiseInt_kept | apply errAt_kept
        | apply send_kept | apply Kept.ite
    | split
theorem probeLaunch_kept {s} {a0} {a1} {a2} {a3} (h : Kept s a0) : Kept s (probeLaunch a0 a1 a2 a3) := by
  unfold probeLaunch
  repeat' with_reducible first
    | exact h | apply probeSend_kept | apply bump_kept | apply setFab_kept | apply Kept.ite
theorem landTok_kept {s} {a0} {a1} {a2} (h : Kept s a0) : Kept s (landTok a0 a1 a2) := by
  unfold landTok
  repeat' first
    | with_reducible first
        | exact h | apply booksCheck_kept | apply setLink_kept | apply bump_kept | apply flowErr_kept | apply Kept.ite
    | (dsimp only; split)
theorem pldmPoll_kept {s} {a0} (h : Kept s a0) : Kept s (pldmPoll a0) := by
  unfold pldmPoll
  repeat' with_reducible first
    | exact h | exact Kept.refl _ | apply mgmtMsg_kept | apply setHost_kept | apply send_kept | (intro _)
theorem qpopReturn_kept {s} {a0} {a1} (h : Kept s a0) : Kept s (qpopReturn a0 a1) := by
  unfold qpopReturn
  repeat' first
    | with_reducible first
        | exact h | apply popSlot_kept | apply qpopGive_kept | refine Kept.fst (by assumption) ?_
    | split
theorem writeBack_kept {s} {a0} {a1} (h : Kept s a0) : Kept s (writeBack a0 a1) := by
  unfold writeBack
  repeat' first
    | with_reducible first
        | exact h | apply bump_kept | apply setCore_kept | apply Kept.ite
    | (dsimp only; split)
theorem copyRows_kept {s} {a0} {a1} {a2} {a3} {a4} (h : Kept s a0) : Kept s (copyRows a0 a1 a2 a3 a4) := by
  unfold copyRows
  repeat' with_reducible first
    | exact h | apply bumpBy_kept | apply setCore_kept
theorem copyDirty_kept {s} {a0} {a1} {a2} (h : Kept s a0) : Kept s (copyDirty a0 a1 a2) := by
  unfold copyDirty
  repeat' with_reducible first
    | exact h | apply copyRows_kept | apply setCore_kept
theorem freezeAcked_kept {s} {a0} (h : Kept s a0) : Kept s (freezeAcked a0) := by
  unfold freezeAcked
  repeat' first
    | with_reducible first
        | exact h | exact Kept.refl _ | apply copyDirty_kept | apply setCore_kept | apply wr_kept | apply copyFields_kept
        | apply setHub_kept | apply invalAll_kept | (intro _) | apply Kept.ite | apply Kept.folds
    | split
theorem dmaWritePiece_kept {s} {a0} {a1} {a2} {a3} {a4} (h : Kept s a0) : Kept s (dmaWritePiece a0 a1 a2 a3 a4).1 := by
  unfold dmaWritePiece
  repeat' first
    | with_reducible first
        | exact h | apply reqRefused_kept | apply spadReadAll_kept | apply memWrite_kept | refine Kept.fst (by assumption) ?_
    | split
    | (dsimp only; split)
theorem loadWords_kept {s} {a0} {a1} {a2} {a3} {a4} (h : Kept s a0) : Kept s (loadWords a0 a1 a2 a3 a4) := by
  fun_induction loadWords
  repeat' with_reducible first
    | exact h | apply setBufWord_kept | apply_assumption
theorem loadDone_kept {s} {a0} {a1} (h : Kept s a0) : Kept s (loadDone a0 a1) := by
  unfold loadDone
  repeat' first
    | with_reducible first
        | exact h | apply fdSet_kept | apply setFab_kept | apply cfgswAdvance_kept | apply rangeRelease_kept | apply spadReadAll_kept
        | apply flowErr_kept | apply loadWords_kept | apply Kept.ite | refine Kept.fst (by assumption) ?_
    | split
theorem regCmdClear_kept {s} {a0} {a1} {a2} {a3} {a4} {a5} (h : Kept s a0) : Kept s (regCmdClear a0 a1 a2 a3 a4 a5) := by
  unfold regCmdClear
  repeat' with_reducible first
    | exact h | apply registerWrite_kept
theorem halfAsked_kept {s} {a0} {a1} {a2} (h : Kept s a0) : Kept s (halfAsked a0 a1 a2) := by
  unfold halfAsked
  repeat' with_reducible first
    | exact h | apply toHalf_kept | apply fdSet_kept | apply queueBlk_kept | apply Kept.ite
theorem recentreEnd_kept {s} {a0} {a1} {a2} (h : Kept s a0) : Kept s (recentreEnd a0 a1 a2) := by
  unfold recentreEnd
  repeat' first
    | with_reducible first
        | exact h | apply setStack_kept | apply fdSet_kept | apply bump_kept | apply setSlice_kept | apply raiseInt_kept
        | apply errAt_kept | apply report_kept | apply Kept.ite
    | split
theorem loadSetPoints_kept {s} {a0} (h : Kept s a0) : Kept s (loadSetPoints a0) := by
  unfold loadSetPoints
  repeat' with_reducible first
    | exact h | exact Kept.refl _ | apply fdSet_kept | (intro _) | apply Kept.folds
theorem postLost_kept {s} {a0} {a1} (h : Kept s a0) : Kept s (postLost a0 a1) := by
  unfold postLost
  repeat' with_reducible first
    | exact h | exact Kept.refl _ | apply postAll_kept | (intro _) | apply Kept.ite | apply Kept.folds
theorem checkDone_kept {s} {a0} {a1} (h : Kept s a0) : Kept s (checkDone a0 a1) := by
  unfold checkDone
  repeat' first
    | with_reducible first
        | exact h | apply fdSet_kept | apply setFab_kept | apply cfgswAdvance_kept | apply flowErr_kept | apply cfgswDone_kept
        | apply Kept.ite
    | split
    | (dsimp only; split)
theorem noSignpost_kept {s} {a0} {a1} {a2} (h : Kept s a0) : Kept s (noSignpost a0 a1 a2) := by
  unfold noSignpost
  repeat' first
    | with_reducible first
        | exact h | exact Kept.refl _ | apply setQe_kept | apply openFail_kept | apply finalOutcome_kept | (intro _) | apply Kept.ite
        | apply Kept.folds
    | split
theorem cacheTouch_kept {s} {a0} {a1} {a2} (h : Kept s a0) : Kept s (cacheTouch a0 a1 a2) := by
  unfold cacheTouch
  repeat' with_reducible first
    | exact h | apply setRout_kept
theorem walkReply_kept {s} {a0} {a1} {a2} {a3} (h : Kept s a0) : Kept s (walkReply a0 a1 a2 a3) := by
  unfold walkReply
  repeat' first
    | with_reducible first
        | exact h | exact Kept.refl _ | apply bump_kept | apply setNet_kept | apply memServe_kept | apply noteErr_kept
        | apply raiseInt_kept | apply errAt_kept | apply setRout_kept | apply noSignpost_kept | apply cacheTouch_kept | (intro _)
        | apply Kept.ite | apply Kept.folds
    | split
theorem convoyAnswer_kept {s} {a0} {a1} {a2} (h : Kept s a0) : Kept s (convoyAnswer a0 a1 a2) := by
  unfold convoyAnswer
  repeat' first
    | with_reducible first
        | exact h | apply takePkt_kept | apply setRout_kept | apply convAnswer_kept | apply Kept.ite
    | split
    | (dsimp only; split)
theorem dieWdog_kept {s} {a0} {a1} {a2} (h : Kept s a0) : Kept s (dieWdog a0 a1 a2) := by
  unfold dieWdog
  repeat' with_reducible first
    | exact h | apply fdSet_kept | apply bump_kept | apply raiseInt_kept | apply errAt_kept | apply moduleReset_kept | apply resetDie_kept
    | apply Kept.ite
theorem detachNow_kept {s} {a0} (h : Kept s a0) : Kept s (detachNow a0) := by
  unfold detachNow
  repeat' with_reducible first
    | exact h | apply fdSet_kept | apply setPst_kept | apply setTwin_kept
theorem cwHold_kept {s} {a0} (h : Kept s a0) : Kept s (cwHold a0) := by
  unfold cwHold
  repeat' with_reducible first
    | exact h | apply hubLog_kept | apply detachNow_kept | apply Kept.ite
theorem quiesceSwitch_kept {s} {a0} {a1} (h : Kept s a0) : Kept s (quiesceSwitch a0 a1) := by
  unfold quiesceSwitch
  repeat' first
    | with_reducible first
        | exact h | apply cfgswFinish_kept | apply activate_kept | apply bumpBy_kept | apply Kept.ite
    | split
theorem hotDigest_kept {s} {a0} {a1} {a2} (h : Kept s a0) : Kept s (hotDigest a0 a1 a2) := by
  unfold hotDigest
  repeat' with_reducible first
    | exact h | apply compareDigests_kept | apply setTwin_kept
theorem packetLaunch_kept {s} {a0} {a1} (h : Kept s a0) : Kept s (packetLaunch a0 a1) := by
  unfold packetLaunch
  repeat' first
    | with_reducible first
        | exact h | apply cacheTouch_kept | apply bump_kept | apply epAdd_kept | apply setQe_kept | apply bufPush_kept | apply swPush_kept
        | apply Kept.ite
    | split
theorem launchAlone_kept {s} {a0} {a1} (h : Kept s a0) : Kept s (launchAlone a0 a1) := by
  unfold launchAlone
  repeat' with_reducible first
    | exact h | apply packetLaunch_kept | apply Kept.ite
theorem popToks_kept {s} {a0} {a1} {a2} {a3} (h : Kept s a0) : Kept s (popToks a0 a1 a2 a3) := by
  fun_induction popToks
  repeat' with_reducible first
    | exact h | apply popTok_kept | apply_assumption
theorem updFire_kept {s} {a0} {a1} {a2} (h : Kept s a0) : Kept s (updFire a0 a1 a2) := by
  unfold updFire
  repeat' first
    | with_reducible first
        | exact h | apply cuStall_kept | apply updConsts_kept | apply popToks_kept | apply popTok_kept | apply takeCredits_kept
        | apply setCu_kept | apply Kept.ite | refine Kept.fst (by assumption) ?_
    | split
theorem dynAddr_kept {s} {a0} {a1} (h : Kept s a0) : Kept s (dynAddr a0 a1) := by
  unfold dynAddr
  repeat' with_reducible first
    | exact h | apply fdSet_kept | apply Kept.ite
theorem runsDone_kept {s} {a0} {a1} {a2} (h : Kept s a1) : Kept s (runsDone a0 a1 a2) := by
  fun_induction runsDone
  repeat' with_reducible first
    | exact h | apply complete_kept | apply setCtx_kept | apply_assumption
theorem stepRun_kept {s} {a0} {a1} (h : Kept s a0) : Kept s (stepRun a0 a1) := by
  unfold stepRun
  repeat' with_reducible first
    | exact h | apply endCmd_kept | apply setCtx_kept | apply ctxHold_kept | apply runsDone_kept | apply Kept.ite
theorem loadWToken_kept {s} {a0} {a1} (h : Kept s a0) : Kept s (loadWToken a0 a1) := by
  unfold loadWToken
  repeat' first
    | with_reducible first
        | exact h | apply popTok_kept | apply setArr_kept | apply Kept.ite
    | split
theorem queryTimeout_kept {s} {a0} (h : Kept s a0) : Kept s (queryTimeout a0) := by
  unfold queryTimeout
  repeat' with_reducible first
    | exact h | apply declareLost_kept | apply Kept.ite
theorem casevoRead_kept {s} {a0} {a1} {a2} (h : Kept s a0) : Kept s (casevoRead a0 a1 a2) := by
  unfold casevoRead
  repeat' with_reducible first
    | exact h | exact Kept.refl _ | apply mgmtMsg_kept | apply readCode_kept | apply mgmtDenied_kept | apply send_kept | (intro _)
    | apply Kept.ite
theorem bridgeWatch_kept {s} {a0} {a1} (h : Kept s a0) : Kept s (bridgeWatch a0 a1) := by
  unfold bridgeWatch
  repeat' with_reducible first
    | exact h | apply closeUnit_kept | apply unwatch_kept | apply Kept.ite
theorem respond_kept {s} {a0} {a1} {a2} (h : Kept s a0) : Kept s (respond a0 a1 a2) := by
  unfold respond
  repeat' first
    | with_reducible first
        | exact h | exact Kept.refl _ | apply watch_kept | apply setLadder_kept | apply abortCore_kept | apply reloadRegion_kept
        | apply closeUnit_kept | apply setSlice_kept | apply bridgeWatch_kept | (intro _) | apply Kept.ite | apply Kept.folds
    | split
theorem correctionsAnswered_kept {s} {a0} (h : Kept s a0) : Kept s (correctionsAnswered a0) := by
  unfold correctionsAnswered
  repeat' with_reducible first
    | exact h | exact Kept.refl _ | apply setLadder_kept | apply unwatch_kept | apply closeUnit_kept | apply bridgeWatch_kept | (intro _)
    | apply Kept.ite | apply Kept.folds
theorem logDrain_kept {s} {a0} {a1} (h : Kept s a0) : Kept s (logDrain a0 a1) := by
  unfold logDrain
  repeat' with_reducible first
    | exact h | exact Kept.refl _ | apply respond_kept | apply hubLog_kept | apply correctionsAnswered_kept | apply setLog_kept
    | (intro _) | apply Kept.folds
theorem exhausted_kept {s} {a0} {a1} (h : Kept s a0) : Kept s (exhausted a0 a1).1 := by
  unfold exhausted
  repeat' first
    | with_reducible first
        | exact h | apply setLadder_kept
    | split
theorem bankOff_kept {s} {a0} {a1} {a2} (h : Kept s a0) : Kept s (bankOff a0 a1 a2) := by
  unfold bankOff
  repeat' with_reducible first
    | exact h | apply bankReach_kept | apply raiseInt_kept | apply setCore_kept | apply Kept.ite
theorem teardownAll_kept {s} {a0} {a1} (h : Kept s a0) : Kept s (teardownAll a0 a1) := by
  unfold teardownAll
  repeat' with_reducible first
    | exact h | exact Kept.refl _ | apply teardown_kept | (intro _) | apply Kept.ite | apply Kept.folds
theorem hostPageReset_kept {s} {a0} (h : Kept s a0) : Kept s (hostPageReset a0) := by
  unfold hostPageReset
  repeat' with_reducible first
    | exact h | apply clearPages_kept
theorem functionReset_kept {s} {a0} {a1} (h : Kept s a0) : Kept s (functionReset a0 a1) := by
  unfold functionReset
  repeat' with_reducible first
    | exact h | apply teardownAll_kept | apply ringsOff_kept | apply setHost_kept | apply hostPageReset_kept | apply bump_kept
    | apply wr_kept | apply Kept.ite
theorem homeData_kept {s} {a0} {a1} (h : Kept s a0) : Kept s (homeData a0 a1) := by
  unfold homeData
  repeat' first
    | with_reducible first
        | exact h | apply memWrite_kept | apply setTwin_kept | apply homeless_kept | apply reloadRegion_kept | apply askHome_kept
        | apply Kept.ite
    | split
    | (dsimp only; split)
theorem hubBoot_kept {s} {a0} (h : Kept s a0) : Kept s (hubBoot a0) := by
  unfold hubBoot
  repeat' first
    | with_reducible first
        | exact h | exact Kept.refl _ | apply tryBoot_kept | apply loadSetPoints_kept | apply powerDies_kept | apply imageRefused_kept
        | apply fdSet_kept | apply bootFrom_kept | apply endStep_kept | apply stepTime_kept | (intro _) | apply Kept.ite
        | apply Kept.folds
    | (dsimp only; split)
theorem mboxAt_kept {s} {a0} {a1} {a2} {a3} {a4} (h : Kept s a0) : Kept s (mboxAt a0 a1 a2 a3 a4) := by
  unfold mboxAt
  repeat' with_reducible first
    | exact h | apply mboxIn_kept | apply setNet_kept | apply Kept.ite
theorem dieCoast_kept {s} {a0} {a1} (h : Kept s a0) : Kept s (dieCoast a0 a1) := by
  unfold dieCoast
  repeat' with_reducible first
    | exact h | apply fdSet_kept | apply raiseInt_kept | apply errAt_kept | apply bump_kept
theorem armedIn_kept {s} {a0} {a1} {a2} {a3} (h : Kept s a0) : Kept s (armedIn a0 a1 a2 a3) := by
  unfold armedIn
  repeat' first
    | with_reducible first
        | exact h | exact Kept.refl _ | apply noticeAnswered_kept | apply forJob_kept | apply setCtx_kept | apply postAll_kept | (intro _)
        | apply Kept.ite
    | (dsimp only; split)
theorem twinMilestone_kept {s} {a0} (h : Kept s a0) : Kept s (twinMilestone a0) := by
  unfold twinMilestone
  repeat' with_reducible first
    | exact h | apply detachNow_kept | apply setPst_kept | apply setTwin_kept | apply fdSet_kept | apply Kept.ite
theorem waitsDone_kept {s} {a0} {a1} (h : Kept s a0) : Kept s (waitsDone a0 a1) := by
  unfold waitsDone
  repeat' with_reducible first
    | exact h | exact Kept.refl _ | apply complete_kept | apply setCtx_kept | (intro _) | apply Kept.folds
theorem recordStep_kept {s} {a0} {a1} {a2} (h : Kept s a0) : Kept s (recordStep a0 a1 a2) := by
  unfold recordStep
  repeat' with_reducible first
    | exact h | apply setCtx_kept | apply twinMilestone_kept | apply ctxHold_kept | apply waitsDone_kept | apply runsDone_kept
theorem clusCoast_kept {s} {a0} {a1} (h : Kept s a0) : Kept s (clusCoast a0 a1) := by
  unfold clusCoast
  repeat' with_reducible first
    | exact h | apply fdSet_kept | apply raiseInt_kept | apply errAt_kept | apply bump_kept
theorem pllLock_kept {s} {a0} {a1} (h : Kept s a0) : Kept s (pllLock a0 a1) := by
  unfold pllLock
  repeat' with_reducible first
    | exact h | apply freqApply_kept | apply fdSet_kept | apply Kept.ite
theorem clusPllLoss_kept {s} {a0} {a1} {a2} (h : Kept s a0) : Kept s (clusPllLoss a0 a1 a2) := by
  unfold clusPllLoss
  repeat' with_reducible first
    | exact h | apply clusCoast_kept | apply setPower_kept | apply closeUnit_kept | apply pllLock_kept | apply pllStart_kept
    | apply clusterReset_kept | apply Kept.ite
theorem lostIn_kept {s} {a0} {a1} {a2} {a3} (h : Kept s a0) : Kept s (lostIn a0 a1 a2 a3) := by
  unfold lostIn
  repeat' first
    | with_reducible first
        | exact h | exact Kept.refl _ | apply forJob_kept | apply ctxOpAll_kept | apply setPst_kept | apply setTwin_kept
        | apply setCtx_kept | apply contextFail_kept | apply stepFailed_kept | (intro _) | apply Kept.ite
    | split
    | (dsimp only; split)
theorem dieIdleExit_kept {s} {a0} {a1} (h : Kept s a0) : Kept s (dieIdleExit a0 a1) := by
  unfold dieIdleExit
  repeat' with_reducible first
    | exact h | apply fdSet_kept | apply Kept.ite
theorem diePllLoss_kept {s} {a0} {a1} {a2} (h : Kept s a0) : Kept s (diePllLoss a0 a1 a2) := by
  unfold diePllLoss
  repeat' with_reducible first
    | exact h | apply dieCoast_kept | apply fdSet_kept | apply moduleReset_kept | apply gradeEval_kept | apply abortAll_kept
    | apply dieReset_kept | apply portDieReset_kept | apply Kept.ite
theorem swBooks_kept {s} {a0} {a1} {a2} (h : Kept s a0) : Kept s (swBooks a0 a1 a2) := by
  unfold swBooks
  repeat' with_reducible first
    | exact h | apply errAt_kept | apply Kept.ite
theorem switchBooks_kept {s} {a0} {a1} {a2} (h : Kept s a0) : Kept s (switchBooks a0 a1 a2) := by
  unfold switchBooks
  repeat' first
    | with_reducible first
        | exact h | apply swBooks_kept
    | split
theorem muStepWalk_kept {s} {a0} {a1} {a2} {a3} (h : Kept s a0) : Kept s (muStepWalk a0 a1 a2 a3) := by
  unfold muStepWalk
  repeat' with_reducible first
    | exact h | apply muWalkEnd_kept | apply setMu_kept | apply Kept.ite
theorem muAccess_kept {s} {a0} {a1} {a2} {a3} {a4} (h : Kept s a0) : Kept s (muAccess a0 a1 a2 a3 a4) := by
  unfold muAccess
  repeat' first
    | with_reducible first
        | exact h | apply stallCount_kept | apply muWalkEnd_kept | apply takeCredits_kept | apply setMu_kept | apply muStepWalk_kept
        | apply popTok_kept | apply coreErr_kept | apply bump_kept | apply askBanks_kept | apply bumpBy_kept | apply fetchAll_kept
        | apply spadApply_kept | apply storeAll_kept | apply Kept.ite | refine Kept.fst (by assumption) ?_
    | split
    | (dsimp only; split)
theorem flipAt_kept {s} {a0} {a1} {a2} {a3} (h : Kept s a0) : Kept s (flipAt a0 a1 a2 a3) := by
  unfold flipAt
  repeat' with_reducible first
    | exact h | apply fdSet_kept | apply setNet_kept | apply Kept.ite
theorem flipNow_kept {s} {a0} {a1} (h : Kept s a0) : Kept s (flipNow a0 a1) := by
  unfold flipNow
  repeat' with_reducible first
    | exact h | exact Kept.refl _ | apply signAll_kept | apply flipAt_kept | apply fdSet_kept | (intro _) | apply Kept.folds
theorem dieRoutes_kept {s} {a0} {a1} {a2} {a3} (h : Kept s a0) : Kept s (dieRoutes a0 a1 a2 a3) := by
  unfold dieRoutes
  repeat' with_reducible first
    | exact h | exact Kept.refl _ | apply setNet_kept | apply wr_kept | apply fdSet_kept | (intro _) | apply Kept.ite | apply Kept.folds
theorem portStart_kept {s} {a0} {a1} (h : Kept s a0) : Kept s (portStart a0 a1) := by
  unfold portStart
  repeat' first
    | with_reducible first
        | exact h | exact Kept.refl _ | apply endStep_kept | apply fdSet_kept | apply setHost_kept | apply setDevice_kept
        | apply setRoutes_kept | apply wr_kept | apply flipNow_kept | apply dieRoutes_kept | apply setPort_kept | apply enablePorts_kept
        | (intro _) | apply Kept.ite | apply Kept.folds
    | split
theorem vfAccess_kept {s} {a0} {a1} {a2} {a3} {a4} {a5} {a6} (h : Kept s a0) : Kept s (vfAccess a0 a1 a2 a3 a4 a5 a6) := by
  unfold vfAccess
  repeat' with_reducible first
    | exact h | apply vfWords_kept | apply hostMem_kept | apply hostBad_kept | apply send_kept | apply Kept.ite
theorem flashExtLow_kept {s} {a0} (h : Kept s a0) : Kept s (flashExtLow a0) := by
  unfold flashExtLow
  repeat' with_reducible first
    | exact h | apply setPins_kept | apply Kept.ite
theorem downExpiry_kept {s} {a0} {a1} (h : Kept s a0) : Kept s (downExpiry a0 a1) := by
  unfold downExpiry
  repeat' with_reducible first
    | exact h | apply setPState_kept | apply Kept.ite
theorem reasmTimeout_kept {s} {a0} {a1} {a2} {a3} {a4} (h : Kept s a0) : Kept s (reasmTimeout a0 a1 a2 a3 a4) := by
  unfold reasmTimeout
  repeat' with_reducible first
    | exact h | apply setQe_kept | apply qErr_kept | apply bump_kept | apply Kept.ite
theorem checkAgain_kept {s} {a0} {a1} {a2} (h : Kept s a0) : Kept s (checkAgain a0 a1 a2) := by
  unfold checkAgain
  repeat' with_reducible first
    | exact h | apply fdSet_kept | apply setPort_kept | apply setPState_kept | apply rxLost_kept | apply wr_kept | apply Kept.ite
theorem seqEntry_kept {s} {a0} {a1} (h : Kept s a0) : Kept s (seqEntry a0 a1) := by
  unfold seqEntry
  repeat' first
    | with_reducible first
        | exact h | exact Kept.refl _ | apply bump_kept | apply stallCount_kept | apply popTok_kept | apply takeCredits_kept
        | apply setArr_kept | apply bumpBy_kept | (intro _) | apply Kept.ite | apply Kept.folds
    | (dsimp only; split)
theorem laneShown_kept {s} {a0} {a1} {a2} {a3} {a4} (h : Kept s a0) : Kept s (laneShown a0 a1 a2 a3 a4) := by
  unfold laneShown
  repeat' with_reducible first
    | exact h | apply setPort_kept | apply laneFail_kept | apply Kept.ite
theorem ladderStep_kept {s} {a0} {a1} (h : Kept s a0) : Kept s (ladderStep a0 a1).1 := by
  unfold ladderStep
  repeat' first
    | with_reducible first
        | exact h | apply bump_kept | apply raiseInt_kept | apply setLadder_kept
    | split
    | (dsimp only; split)
theorem slotGrant_kept {s} {a0} {a1} (h : Kept s a0) : Kept s (slotGrant a0 a1) := by
  unfold slotGrant
  repeat' with_reducible first
    | exact h | apply poolCheck_kept | apply setHeal_kept | apply Kept.ite
theorem setPoint_kept {s} {a0} {a1} (h : Kept s a0) : Kept s (setPoint a0 a1) := by
  unfold setPoint
  repeat' with_reducible first
    | exact h | apply setPins_kept | apply clusVolts_kept
theorem walkEnd_kept {s} {a0} {a1} {a2} (h : Kept s a0) : Kept s (walkEnd a0 a1 a2) := by
  unfold walkEnd
  repeat' with_reducible first
    | exact h | apply testFailed_kept | apply fdSet_kept | apply setVisit_kept | apply setHeal_kept | apply setPoint_kept | apply Kept.ite
theorem carryPlaced_kept {s} {a0} {a1} (h : Kept s a0) (g1 : Kept s a1) : Kept s (carryPlaced a0 a1) := by
  unfold carryPlaced
  repeat' first
    | with_reducible first
        | exact h | assumption | exact Kept.refl _ | apply pstMoves_kept | apply placeCore_kept | (intro _) | apply Kept.ite
        | apply Kept.folds | apply Kept.foldsFst
    | split
theorem handBack_kept {s} {a0} {a1} (h : Kept s a0) : Kept s (handBack a0 a1) := by
  unfold handBack
  repeat' first
    | with_reducible first
        | exact h | exact Kept.refl _ | apply swapPlan_kept | apply claimEns_kept | apply wr_kept | apply bindCore_kept
        | apply setCtx_kept | apply fdSet_kept | apply setPst_kept | apply setTwin_kept | (intro _) | apply Kept.ite | apply Kept.folds
    | split
theorem openRequest_kept {s} {a0} {a1} {a2} (h : Kept s a0) : Kept s (openRequest a0 a1 a2) := by
  unfold openRequest
  repeat' first
    | with_reducible first
        | exact h | apply inject_kept | apply setHandle_kept | apply Kept.ite
    | split

end Sys2Proof.Machine
end

