-- ==== Sys2Proof/Laws/Kept5.lean ====
section
/-! SUPPORT. What every shared operation keeps: continued from Kept4.lean, callees before callers. -/
namespace Sys2Proof.Machine
open Sys2Proof
set_option Elab.async false

theorem drainGo_kept {s} {a0} {a1} (h : Kept s a0) : Kept s (drainGo a0 a1) := by
  unfold drainGo
  repeat' first
    | with_reducible first
        | exact h | apply teardownRest_kept | apply failReset_kept | apply setCtx_kept | apply Kept.ite
    | split
theorem reasmBooks_kept {s} {a0} {a1} (h : Kept s a0) : Kept s (reasmBooks a0 a1) := by
  unfold reasmBooks
  repeat' with_reducible first
    | exact h | apply booksLost_kept | apply Kept.ite
theorem openTimeout_kept {s} {a0} {a1} {a2} (h : Kept s a0) : Kept s (openTimeout a0 a1 a2) := by
  unfold openTimeout
  repeat' with_reducible first
    | exact h | apply setChan_kept | apply inject_kept | apply openFail_kept | apply Kept.ite
theorem closeCmd_kept {s} {a0} {a1} {a2} {a3} (h : Kept s a0) : Kept s (closeCmd a0 a1 a2 a3) := by
  unfold closeCmd
  repeat' with_reducible first
    | exact h | apply registerWrite_kept
theorem moveCopied_kept {s} {a0} {a1} (h : Kept s a0) : Kept s (moveCopied a0 a1) := by
  unfold moveCopied
  repeat' first
    | with_reducible first
        | exact h | exact Kept.refl _ | apply withMate_kept | apply loadLocal_kept | apply loadHomes_kept | apply signPut_kept
        | apply fdSet_kept | apply invalAll_kept | apply setMover_kept | apply bump_kept | apply replaceCore_kept | apply startAt_kept
        | apply copyRows_kept | (intro _) | apply Kept.ite | apply Kept.folds
    | (dsimp only; split)
theorem xWrite_kept {s} {a0} {a1} {a2} (h : Kept s a0) : Kept s (xWrite a0 a1 a2) := by
  unfold xWrite
  repeat' first
    | with_reducible first
        | exact h | apply bankAsk_kept | apply send_kept | apply spadMerge_kept | apply bankAccept_kept | apply Kept.ite
        | refine Kept.fst (by assumption) ?_
    | split
theorem napTimer_kept {s} {a0} {a1} (h : Kept s a0) : Kept s (napTimer a0 a1) := by
  unfold napTimer
  repeat' first
    | with_reducible first
        | exact h | apply wakeCause_kept | apply setSeq_kept | apply Kept.ite
    | split
theorem ackIn_kept {s} {a0} {a1} (h : Kept s a0) : Kept s (ackIn a0 a1) := by
  unfold ackIn
  repeat' first
    | with_reducible first
        | exact h | apply noticeAnswered_kept | apply setHub_kept
    | (dsimp only; split)
theorem tileFull_kept {s} {a0} {a1} (h : Kept s a0) : Kept s (tileFull a0 a1) := by
  unfold tileFull
  repeat' first
    | with_reducible first
        | exact h | apply bump_kept | apply setArr_kept | apply arrErr_kept | apply Kept.ite
    | split
    | (dsimp only; split)
theorem responseIn_kept {s} {a0} {a1} {a2} (h : Kept s a0) : Kept s (responseIn a0 a1 a2) := by
  unfold responseIn
  repeat' with_reducible first
    | exact h | apply takePkt_kept | apply bump_kept | apply Kept.ite
theorem gaugeDrop_kept {s} {a0} {a1} {a2} (h : Kept s a0) : Kept s (gaugeDrop a0 a1 a2) := by
  unfold gaugeDrop
  repeat' with_reducible first
    | exact h | apply raiseInt_kept | apply bump_kept | apply setGauge_kept
theorem gaugeSample_kept {s} {a0} {a1} {a2} {a3} {a4} {a5} {a6} {a7} (h : Kept s a0) : Kept s (gaugeSample a0 a1 a2 a3 a4 a5 a6 a7) := by
  unfold gaugeSample
  repeat' with_reducible first
    | exact h | apply gaugeDrop_kept | apply gaugeApply_kept | apply Kept.ite
theorem heartbeatIn_kept {s} {a0} {a1} {a2} {a3} (h : Kept s a0) : Kept s (heartbeatIn a0 a1 a2 a3) := by
  unfold heartbeatIn
  repeat' with_reducible first
    | exact h | apply setTwin_kept | apply fdSet_kept | apply Kept.ite
theorem muStart_kept {s} {a0} {a1} {a2} (h : Kept s a0) : Kept s (muStart a0 a1 a2) := by
  unfold muStart
  repeat' first
    | with_reducible first
        | exact h | apply stallCount_kept | apply popTok_kept | apply muBegin_kept | apply setMu_kept | apply Kept.ite
    | split
theorem hostLinkReset_kept {s} {a0} {a1} (h : Kept s a0) : Kept s (hostLinkReset a0 a1) := by
  unfold hostLinkReset
  repeat' with_reducible first
    | exact h | apply teardownAll_kept | apply ringsOff_kept | apply setHost_kept | apply hostPageReset_kept | apply gradeEval_kept
    | apply bump_kept | apply Kept.ite
theorem hostRefLoss_kept {s} {a0} (h : Kept s a0) : Kept s (hostRefLoss a0) := by
  unfold hostRefLoss
  repeat' with_reducible first
    | exact h | apply hostLinkReset_kept | apply raiseInt_kept | apply fdSet_kept | apply Kept.ite
theorem ctxOpCmd_kept {s} {a0} {a1} {a2} {a3} {a4} (h : Kept s a0) : Kept s (ctxOpCmd a0 a1 a2 a3 a4) := by
  unfold ctxOpCmd
  repeat' with_reducible first
    | exact h | apply registerWrite_kept
theorem jackSend_kept {s} {a0} (h : Kept s a0) : Kept s (jackSend a0) := by
  unfold jackSend
  repeat' first
    | with_reducible first
        | exact h | exact Kept.refl _ | apply twinSend_kept | apply setStream_kept | (intro _) | apply Kept.ite | apply Kept.folds
    | (dsimp only; split)
theorem mainLost_kept {s} {a0} (h : Kept s a0) : Kept s (mainLost a0) := by
  unfold mainLost
  repeat' with_reducible first
    | exact h | apply setPins_kept | apply mainOff_kept | apply Kept.ite
theorem frameRead_kept {s} {a0} {a1} (h : Kept s a0) : Kept s (frameRead a0 a1) := by
  unfold frameRead
  repeat' with_reducible first
    | exact h | exact Kept.refl _ | apply blkIn_kept | apply setPort_kept | (intro _) | apply Kept.ite | apply Kept.folds
theorem frameIn_kept {s} {a0} {a1} {a2} {a3} {a4} (h : Kept s a0) : Kept s (frameIn a0 a1 a2 a3 a4) := by
  unfold frameIn
  repeat' with_reducible first
    | exact h | apply frameRead_kept | apply setPort_kept | apply Kept.ite
theorem codewordBad_kept {s} {a0} {a1} {a2} (h : Kept s a0) : Kept s (codewordBad a0 a1 a2) := by
  unfold codewordBad
  repeat' first
    | with_reducible first
        | exact h | apply setPort_kept | apply raiseInt_kept | apply bump_kept | apply frameIn_kept | apply laneShown_kept
    | split
theorem codewordGood_kept {s} {a0} {a1} {a2} {a3} {a4} {a5} (h : Kept s a0) : Kept s (codewordGood a0 a1 a2 a3 a4 a5) := by
  unfold codewordGood
  repeat' with_reducible first
    | exact h | apply bump_kept | apply bumpBy_kept | apply setPort_kept | apply laneShown_kept | apply laneSeen_kept | apply frameIn_kept
    | apply Kept.ite
theorem codewordIn_kept {s} {a0} {a1} {a2} {a3} (h : Kept s a0) : Kept s (codewordIn a0 a1 a2 a3) := by
  unfold codewordIn
  repeat' first
    | with_reducible first
        | exact h | apply setPort_kept | apply codewordBad_kept | apply codewordGood_kept | apply Kept.ite
    | split
theorem spareReady_kept {s} {a0} {a1} {a2} (h : Kept s a0) : Kept s (spareReady a0 a1 a2) := by
  unfold spareReady
  repeat' with_reducible first
    | exact h | apply fdSet_kept | apply Kept.ite
theorem dmaReadPiece_kept {s} {a0} {a1} {a2} {a3} {a4} (h : Kept s a0) : Kept s (dmaReadPiece a0 a1 a2 a3 a4).1 := by
  unfold dmaReadPiece
  repeat' first
    | with_reducible first
        | exact h | apply reqRefused_kept | apply memServe_kept | apply spadWriteAll_kept
    | (dsimp only; split)
theorem quiesceTimeout_kept {s} {a0} {a1} (h : Kept s a0) : Kept s (quiesceTimeout a0 a1) := by
  unfold quiesceTimeout
  repeat' first
    | with_reducible first
        | exact h | apply cfgswDone_kept | apply flowErr_kept | apply bump_kept | apply Kept.ite
    | split
theorem messageIn_kept {s} {a0} {a1} {a2} (h : Kept s a0) : Kept s (messageIn a0 a1 a2) := by
  unfold messageIn
  repeat' first
    | with_reducible first
        | exact h | apply msgPacket_kept | apply takePkt_kept | apply deliver_kept | apply holdPkt_kept | apply Kept.ite
    | split
theorem sliceWrite_kept {s} {a0} {a1} {a2} {a3} (h : Kept s a0) : Kept s (sliceWrite a0 a1 a2 a3) := by
  unfold sliceWrite
  repeat' first
    | with_reducible first
        | exact h | apply writeServe_kept | apply Kept.ite
    | split
theorem rotationStep_kept {s} {a0} {a1} (h : Kept s a0) : Kept s (rotationStep a0 a1) := by
  unfold rotationStep
  repeat' first
    | with_reducible first
        | exact h | apply queueBlk_kept | apply setPort_kept | apply Kept.ite
    | split
    | (dsimp only; split)
theorem twinBind_kept {s} {a0} {a1} {a2} {a3} {a4} (h : Kept s a0) : Kept s (twinBind a0 a1 a2 a3 a4).1 := by
  unfold twinBind
  repeat' first
    | with_reducible first
        | exact h | apply fdSet_kept | apply setFlash_kept | apply sendCtrl_kept | apply setPst_kept | apply setTwin_kept
        | apply freeUsed_kept
    | split
theorem recodeDone_kept {s} {a0} {a1} {a2} (h : Kept s a0) : Kept s (recodeDone a0 a1 a2) := by
  unfold recodeDone
  repeat' first
    | with_reducible first
        | exact h | exact Kept.refl _ | apply setCore_kept | apply spadServe_kept | apply applyWord_kept | (intro _) | apply Kept.folds
    | split
theorem crystalFail_kept {s} {a0} (h : Kept s a0) : Kept s (crystalFail a0) := by
  unfold crystalFail
  repeat' with_reducible first
    | exact h | exact Kept.refl _ | apply fdSet_kept | apply raiseInt_kept | apply errAt_kept | apply clusCoast_kept
    | apply gradeEval_kept | apply dieCoast_kept | (intro _) | apply Kept.ite | apply Kept.folds
theorem notifyTimeout_kept {s} {a0} {a1} {a2} (h : Kept s a0) : Kept s (notifyTimeout a0 a1 a2) := by
  unfold notifyTimeout
  repeat' first
    | with_reducible first
        | exact h | apply notifyDrop_kept
    | split
theorem twinTake_kept {s} {a0} {a1} {a2} (h : Kept s a0) : Kept s (twinTake a0 a1 a2) := by
  unfold twinTake
  repeat' first
    | with_reducible first
        | exact h | apply rxDrop_kept
    | split
theorem onTwin_kept {s} {a0} {a1} {a2} {a3} (h : Kept s a0) (h3 : ∀ s, Kept s (a3 s)) : KeptNext s (onTwin a0 a1 a2 a3) := by
  unfold onTwin
  repeat' with_reducible first
    | exact h | refine Kept.trans ?_ (h3 ..) | apply onUnit_kept | apply twinTake_kept
theorem heldAll_kept {s} {a0} {a1} (h : Kept s a0) : Kept s (heldAll a0 a1) := by
  unfold heldAll
  repeat' with_reducible first
    | exact h | exact Kept.refl _ | apply fdSet_kept | apply setStream_kept | apply sendCtrl_kept | (intro _) | apply Kept.ite
    | apply Kept.folds
theorem journalIn_kept {s} {a0} {a1} {a2} {a3} (h : Kept s a0) : Kept s (journalIn a0 a1 a2 a3) := by
  unfold journalIn
  repeat' with_reducible first
    | exact h | apply bump_kept | apply setStream_kept | apply applyRec_kept | apply heldAll_kept | apply Kept.ite
theorem passStart_kept {s} {a0} {a1} (h : Kept s a0) : Kept s (passStart a0 a1) := by
  unfold passStart
  repeat' first
    | with_reducible first
        | exact h | apply stallCount_kept | apply takeCredits_kept | apply popTok_kept | apply passDone_kept | apply arrErr_kept
        | apply bump_kept | apply fdSet_kept | apply setArr_kept | apply Kept.ite
    | split
    | (dsimp only; split)
theorem footpathHubLoss_kept {s} {a0} {a1} (h : Kept s a0) : Kept s (footpathHubLoss a0 a1) := by
  unfold footpathHubLoss
  repeat' with_reducible first
    | exact h | apply resetDie_kept | apply Kept.ite
theorem onRing_kept {s} {a0} {a1} {a2} {a3} (h : Kept s a0) (h3 : ∀ s x, Kept s (a3 s x)) : KeptNext s (onRing a0 a1 a2 a3) := by
  unfold onRing
  repeat' with_reducible first
    | exact h | assumption | apply onUnit_kept | apply withCmd_kept
theorem ctxCreate_kept {s} {a0} {a1} (h : Kept s a0) : Kept s (ctxCreate a0 a1) := by
  unfold ctxCreate
  repeat' first
    | with_reducible first
        | exact h | apply finish_kept | apply setCtx_kept | apply setHost_kept | apply Kept.ite
    | split
theorem noticeResend_kept {s} {a0} {a1} (h : Kept s a0) : Kept s (noticeResend a0 a1) := by
  unfold noticeResend
  repeat' first
    | with_reducible first
        | exact h | apply setHub_kept | apply postLost_kept | apply noticeSend_kept | apply Kept.ite
    | split
theorem dieIdleEntry_kept {s} {a0} {a1} (h : Kept s a0) : Kept s (dieIdleEntry a0 a1) := by
  unfold dieIdleEntry
  repeat' with_reducible first
    | exact h | apply fdSet_kept | apply Kept.ite
theorem dmaRelease_kept {s} {a0} {a1} {a2} (h : Kept s a0) : Kept s (dmaRelease a0 a1 a2) := by
  unfold dmaRelease
  repeat' with_reducible first
    | exact h | apply dmaAskAll_kept | apply rangeRelease_kept
theorem dmaTimeout_kept {s} {a0} {a1} {a2} {a3} (h : Kept s a0) : Kept s (dmaTimeout a0 a1 a2 a3) := by
  unfold dmaTimeout
  repeat' first
    | with_reducible first
        | exact h | apply updDesc_kept | apply dmaRelease_kept | apply dmaErr_kept | apply dmaFinish_kept | apply Kept.ite
    | split
theorem visitStart_kept {s} {a0} {a1} (h : Kept s a0) : Kept s (visitStart a0 a1) := by
  unfold visitStart
  repeat' with_reducible first
    | exact h | exact Kept.refl _ | apply visitBegin_kept | (intro _) | apply Kept.ite | apply Kept.folds
theorem imageRegs_kept {s} {a0} {a1} {a2} (h : Kept s a0) : Kept s (imageRegs a0 a1 a2) := by
  unfold imageRegs
  repeat' with_reducible first
    | exact h | exact Kept.refl _ | apply bindCore_kept | apply wr_kept | apply withMate_kept | apply fdSet_kept | (intro _)
    | apply Kept.ite | apply Kept.folds
theorem reloadCores_kept {s} {a0} {a1} (h : Kept s a0) : Kept s (reloadCores a0 a1) := by
  unfold reloadCores
  repeat' first
    | with_reducible first
        | exact h | exact Kept.refl _ | apply loadLocal_kept | apply loadHomes_kept | apply imageRegs_kept | apply setCore_kept
        | apply fdSet_kept | apply applyTarget_kept | apply syncHolds_kept | (intro _) | apply Kept.ite | apply Kept.folds
    | split
theorem journalResend_kept {s} {a0} {a1} (h : Kept s a0) : Kept s (journalResend a0 a1) := by
  unfold journalResend
  repeat' first
    | with_reducible first
        | exact h | exact Kept.refl _ | apply sendJ_kept | apply bump_kept | (intro _) | apply Kept.ite | apply Kept.folds
    | (dsimp only; split)
theorem healQuery_kept {s} {a0} {a1} (h : Kept s a0) : Kept s (healQuery a0 a1) := by
  unfold healQuery
  repeat' with_reducible first
    | exact h | apply endCmd_kept | apply send_kept | apply Kept.ite
theorem mapRestore_kept {s} {a0} (h : Kept s a0) : Kept s (mapRestore a0) := by
  unfold mapRestore
  repeat' first
    | with_reducible first
        | apply fdSet_kept | apply wr_kept | apply Kept.upd h
    | split
    | (dsimp only; split)
theorem openAgain_kept {s} {a0} {a1} {a2} (h : Kept s a0) : Kept s (openAgain a0 a1 a2) := by
  unfold openAgain
  repeat' with_reducible first
    | exact h | apply inject_kept | apply setChan_kept | apply Kept.ite
theorem commandFetch_kept {s} {a0} {a1} {a2} {a3} {a4} (h : Kept s a0) : Kept s (commandFetch a0 a1 a2 a3 a4) := by
  unfold commandFetch
  repeat' with_reducible first
    | exact h | apply bump_kept | apply setRing_kept | apply finish_kept | apply setHost_kept | apply Kept.ite
theorem holdoffEnd_kept {s} {a0} {a1} {a2} (h : Kept s a0) : Kept s (holdoffEnd a0 a1 a2) := by
  unfold holdoffEnd
  repeat' with_reducible first
    | exact h | apply setHandle_kept | apply Kept.ite
theorem pairCompare_kept {s} {a0} {a1} {a2} (h : Kept s a0) : Kept s (pairCompare a0 a1 a2) := by
  unfold pairCompare
  repeat' first
    | with_reducible first
        | exact h | apply packetLaunch_kept | apply raiseInt_kept | apply errAt_kept | apply bump_kept | apply report_kept
        | apply setQe_kept | apply Kept.ite
    | split
theorem closeNoticeIn_kept {s} {a0} {a1} {a2} {a3} {a4} (h : Kept s a0) : Kept s (closeNoticeIn a0 a1 a2 a3 a4) := by
  unfold closeNoticeIn
  repeat' with_reducible first
    | exact h | exact Kept.refl _ | apply raiseInt_kept | apply setChan_kept | apply closeSettle_kept | apply endAll_kept | (intro _)
    | apply Kept.ite | apply Kept.folds
theorem pwrEnFall_kept {s} {a0} (h : Kept s a0) : Kept s (pwrEnFall a0) := by
  unfold pwrEnFall
  repeat' with_reducible first
    | exact h | apply setPins_kept | apply mainOff_kept | apply Kept.ite
theorem flipTake_kept {s} {a0} {a1} {a2} {a3} (h : Kept s a0) : Kept s (flipTake a0 a1 a2 a3) := by
  unfold flipTake
  repeat' with_reducible first
    | exact h | apply send_kept | apply flipAt_kept
theorem depart_kept {s} {a0} {a1} (h : Kept s a0) : Kept s (depart a0 a1) := by
  unfold depart
  repeat' first
    | with_reducible first
        | exact h | apply sendAgain_kept | apply msgRange_kept | apply finalOutcome_kept | apply digestAdd_kept | apply banksWait_kept
        | apply setQe_kept | apply setChan_kept | apply bump_kept | apply sendMsg_kept | apply Kept.ite
        | refine Kept.fst (by assumption) ?_
    | split
theorem dieReturned_kept {s} {a0} {a1} (h : Kept s a0) : Kept s (dieReturned a0 a1) := by
  unfold dieReturned
  repeat' with_reducible first
    | exact h | exact Kept.refl _ | apply setHub_kept | apply raiseInt_kept | apply bump_kept | apply fdSet_kept | apply setStack_kept
    | apply setBanks_kept | apply setCstate_kept | apply journalResend_kept | apply reloadCores_kept | apply portEnable_kept
    | apply gradeEval_kept | (intro _) | apply Kept.ite | apply Kept.folds
theorem walkStep_kept {s} {a0} {a1} {a2} (h : Kept s a0) : Kept s (walkStep a0 a1 a2) := by
  unfold walkStep
  repeat' first
    | with_reducible first
        | exact h | apply setVisit_kept | apply walkEnd_kept | apply Kept.ite
    | split
theorem trackingPass_kept {s} {a0} {a1} (h : Kept s a0) : Kept s (trackingPass a0 a1) := by
  unfold trackingPass
  repeat' with_reducible first
    | exact h | exact Kept.refl _ | apply copyDirty_kept | apply setMover_kept | (intro _) | apply Kept.ite | apply Kept.folds
theorem deviceRoute_kept {s} {a0} {a1} {a2} {a3} (h : Kept s a0) : Kept s (deviceRoute a0 a1 a2 a3) := by
  unfold deviceRoute
  repeat' first
    | with_reducible first
        | exact h | apply rxDrop_kept | apply takeEnd_kept | apply epEnd_kept | apply xepDrop_kept | apply deviceRoute_sendFromPort_kept
        | apply xAdd_kept | apply routeControl_kept | apply noRoute_kept | apply routeOut_kept | apply bump_kept | apply swPush_kept
        | apply epAdd_kept | apply Kept.ite
    | split
theorem routeCmd_kept {s} {a0} {a1} {a2} {a3} (h : Kept s a0) : Kept s (routeCmd a0 a1 a2 a3) := by
  unfold routeCmd
  repeat' with_reducible first
    | exact h | apply homeData_kept | apply xAdd_kept | apply rxDrop_kept | apply deviceRoute_kept | apply Kept.ite
theorem powerSample_kept {s} {a0} {a1} {a2} {a3} (h : Kept s a0) : Kept s (powerSample a0 a1 a2 a3) := by
  unfold powerSample
  repeat' with_reducible first
    | exact h | apply fdSet_kept | apply setPower_kept | apply Kept.ite
theorem spadRemote_kept {s} {a0} {a1} {a2} (h : Kept s a0) : Kept s (spadRemote a0 a1 a2) := by
  unfold spadRemote
  repeat' first
    | with_reducible first
        | exact h | apply sendFrom_kept | apply takePkt_kept | apply denyFabric_kept | apply banksWait_kept | apply askBanks_kept
        | apply spadReadAll_kept | apply spadBeats_kept | apply Kept.ite | refine Kept.fst (by assumption) ?_
    | split
    | (dsimp only; split)
theorem twinCtrl_kept {s} {a0} {a1} {a2} {a3} (h : Kept s a0) : Kept s (twinCtrl a0 a1 a2 a3) := by
  unfold twinCtrl
  repeat' first
    | with_reducible first
        | exact h | apply sendCtrl_kept | apply fdSet_kept | apply freeUsed_kept | apply setPst_kept | apply setFlash_kept
        | apply attaching_kept | apply setTwin_kept | apply unbindNow_kept | apply resync_kept | apply Kept.ite
    | split
theorem stepCompletion_kept {s} {a0} {a1} (h : Kept s a0) : Kept s (stepCompletion a0 a1) := by
  unfold stepCompletion
  repeat' first
    | with_reducible first
        | exact h | apply formDigest_kept | apply recordStep_kept | apply Kept.ite
    | split
    | (dsimp only; split)
theorem positionIn_kept {s} {a0} {a1} {a2} {a3} {a4} (h : Kept s a0) : Kept s (positionIn a0 a1 a2 a3 a4) := by
  unfold positionIn
  repeat' with_reducible first
    | exact h | exact Kept.refl _ | apply memWrite_kept | apply postNotice_kept | apply invalAll_kept | (intro _) | apply Kept.ite
    | apply Kept.folds
theorem hostTrained_kept {s} {a0} {a1} {a2} {a3} (h : Kept s a0) : Kept s (hostTrained a0 a1 a2 a3) := by
  unfold hostTrained
  repeat' with_reducible first
    | exact h | apply fdSet_kept | apply gradeEval_kept | apply Kept.ite
theorem provenCore_kept {s} {a0} {a1} (h : Kept s a0) : Kept s (provenCore a0 a1) := by
  unfold provenCore
  repeat' with_reducible first
    | exact h | apply coreReset_kept | apply setCore_kept | apply railDown_kept | apply setBanks_kept | apply setCstate_kept
theorem windowCmd_kept {s} {a0} {a1} (h : Kept s a0) : Kept s (windowCmd a0 a1) := by
  unfold windowCmd
  repeat' with_reducible first
    | exact h | apply endCmd_kept | apply setCtx_kept | apply Kept.ite
theorem pldmEffecter_kept {s} {a0} {a1} (h : Kept s a0) : Kept s (pldmEffecter a0 a1) := by
  unfold pldmEffecter
  repeat' with_reducible first
    | exact h | exact Kept.refl _ | apply mgmtMsg_kept | apply mgmtBad_kept | apply send_kept | apply registerWrite_kept | (intro _)
    | apply Kept.ite
theorem alwaysOnStart_kept {s} {a0} (h : Kept s a0) : Kept s (alwaysOnStart a0) := by
  unfold alwaysOnStart
  repeat' first
    | with_reducible first
        | exact h | apply fdSet_kept | apply loadSetPoints_kept | apply applyMap_kept | apply mapRestore_kept | apply setPst_kept
        | apply setPins_kept | apply stepTime_kept | apply tryBoot_kept | apply Kept.ite
    | split
theorem hubLogSaved_kept {s} {a0} {a1} (h : Kept s a0) : Kept s (hubLogSaved a0 a1) := by
  unfold hubLogSaved
  repeat' with_reducible first
    | exact h | apply hubLog_kept | apply setFlash_kept | apply Kept.ite
theorem tkTested_kept {s} {a0} {a1} {a2} {a3} (h : Kept s a0) : Kept s (tkTested a0 a1 a2 a3) := by
  unfold tkTested
  repeat' first
    | with_reducible first
        | exact h | exact Kept.refl _ | apply fdSet_kept | apply hubLogSaved_kept | apply closeUnit_kept | apply setPoint_kept
        | apply setHeal_kept | apply provenCore_kept | apply markOpen_kept | apply setBanks_kept | apply setCstate_kept | (intro _)
        | apply Kept.ite | apply Kept.folds
    | split
theorem tkCoreTestRound_kept {s} {a0} {a1} {a2} (h : Kept s a0) : Kept s (tkCoreTestRound a0 a1 a2) := by
  unfold tkCoreTestRound
  repeat' with_reducible first
    | exact h | exact Kept.refl _ | apply tkTested_kept | apply setPins_kept | apply endStep_kept | (intro _) | apply Kept.ite
    | apply Kept.folds
theorem dmaShared_kept {s} {a0} {a1} {a2} {a3} (h : Kept s a0) (h3 : ∀ s x, Kept s (a3 s x)) : Kept s (dmaShared a0 a1 a2 a3) := by
  unfold dmaShared
  repeat' with_reducible first
    | exact h | assumption | refine Kept.trans ?_ (h3 ..) | apply withMate_kept | apply Kept.ite
theorem dmaPieces_kept {s a0 : State} {a1} {a2} {a3} {a4} {a5} (h : Kept s a0) : Kept s (dmaPieces a0 a1 a2 a3 a4 a5).1 := by
  induction a5 generalizing a0 a3 a4 with
  | nil => exact h
  | cons x l ih =>
    obtain ⟨a, m, n⟩ := x
    have hk : Kept s (if a2 = true then dmaReadPiece a0 a1 a m n else dmaWritePiece a0 a1 a m n).1 := by
      split
      · exact dmaReadPiece_kept h
      · exact dmaWritePiece_kept h
    unfold dmaPieces
    generalize (if a2 = true then dmaReadPiece a0 a1 a m n else dmaWritePiece a0 a1 a m n) = p at hk ⊢
    dsimp only
    split
    · exact hk
    · exact ih hk
theorem dmaComplete_kept {s} {a0} {a1} {a2} (h : Kept s a0) : Kept s (dmaComplete a0 a1 a2) := by
  unfold dmaComplete
  repeat' first
    | with_reducible first
        | exact h | apply dmaAskAll_kept | apply banksWait_kept | apply dmaPieces_kept | apply dmaLocal_kept | apply dmaRelease_kept
        | apply updDesc_kept | apply dmaFinish_kept | apply Kept.ite
    | split
    | (dsimp only; split)
theorem goIn_kept {s} {a0} {a1} {a2} {a3} (h : Kept s a0) : Kept s (goIn a0 a1 a2 a3) := by
  unfold goIn
  repeat' with_reducible first
    | exact h | exact Kept.refl _ | apply postNotice_kept | apply forJob_kept | apply postStep_kept | apply setCtx_kept | (intro _)
    | apply Kept.ite
theorem drainEnd_kept {s} {a0} {a1} (h : Kept s a0) : Kept s (drainEnd a0 a1) := by
  unfold drainEnd
  repeat' first
    | with_reducible first
        | exact h | apply setCtx_kept | apply complete_kept | apply Kept.ite
    | split
    | (dsimp only; split)
theorem serdesReturn_kept {s} {a0} {a1} (h : Kept s a0) : Kept s (serdesReturn a0 a1) := by
  unfold serdesReturn
  repeat' with_reducible first
    | exact h | exact Kept.refl _ | apply fdSet_kept | apply portRetrain_kept | (intro _) | apply Kept.ite | apply Kept.folds
theorem invalTake_kept {s} {a0} {a1} {a2} {a3} (h : Kept s a0) : Kept s (invalTake a0 a1 a2 a3) := by
  unfold invalTake
  repeat' with_reducible first
    | exact h | apply cacheDrop_kept | apply send_kept | apply Kept.ite
theorem portLost_kept {s} {a0} {a1} (h : Kept s a0) : Kept s (portLost a0 a1) := by
  unfold portLost
  repeat' with_reducible first
    | exact h | apply portDown_kept | apply fdSet_kept | apply Kept.ite
theorem resendFrom_kept {s} {a0} {a1} {a2} (h : Kept s a0) : Kept s (resendFrom a0 a1 a2) := by
  unfold resendFrom
  repeat' first
    | with_reducible first
        | exact h | exact Kept.refl _ | apply setQe_kept | apply sendMsg_kept | (intro _) | apply Kept.ite | apply Kept.folds
    | split
theorem backoffEnd_kept {s} {a0} {a1} {a2} (h : Kept s a0) : Kept s (backoffEnd a0 a1 a2) := by
  unfold backoffEnd
  repeat' first
    | with_reducible first
        | exact h | apply resendFrom_kept | apply Kept.ite
    | split
theorem qselTimeout_kept {s} {a0} {a1} (h : Kept s a0) : Kept s (qselTimeout a0 a1) := by
  unfold qselTimeout
  repeat' first
    | with_reducible first
        | exact h | apply seqFinish_kept | apply wokeUp_kept
    | split
theorem twinDetach_kept {s} {a0} {a1} (h : Kept s a0) : Kept s (twinDetach a0 a1).1 := by
  unfold twinDetach
  repeat' first
    | with_reducible first
        | exact h | apply sendCtrl_kept | apply setTwin_kept
    | split
theorem healReport_kept {s} {a0} (h : Kept s a0) : Kept s (healReport a0) := by
  unfold healReport
  repeat' first
    | with_reducible first
        | exact h | apply backlogClear_kept | apply bump_kept | apply ladderStep_kept | apply exhausted_kept | apply logAdd_kept
        | apply Kept.ite | apply Kept.upd h
    | split
theorem scrubRow_kept {s} {a0} {a1} {a2} (h : Kept s a0) : Kept s (scrubRow a0 a1 a2) := by
  unfold scrubRow
  repeat' first
    | with_reducible first
        | exact h | exact Kept.refl _ | apply spadCorrected_kept | apply setCore_kept | apply spadUncorrectable_kept
        | apply noteFlips_kept | apply bumpBy_kept | apply fdSet_kept | (intro _) | apply Kept.ite | apply Kept.folds
    | split
    | (dsimp only; split)
theorem moduleResetDue_kept {s} {a0} (h : Kept s a0) : Kept s (moduleResetDue a0) := by
  unfold moduleResetDue
  repeat' first
    | with_reducible first
        | exact h | apply moduleReset_kept
    | split
theorem combTimeout_kept {s} {a0} {a1} {a2} {a3} (h : Kept s a0) : Kept s (combTimeout a0 a1 a2 a3) := by
  unfold combTimeout
  repeat' first
    | with_reducible first
        | exact h | apply bump_kept | apply setRout_kept
    | (dsimp only; split)
theorem startStepLimit_kept {s} {a0} (h : Kept s a0) : Kept s (startStepLimit a0) := by
  unfold startStepLimit
  repeat' with_reducible first
    | exact h | apply raiseInt_kept | apply errAt_kept | apply alwaysOnStart_kept | apply setPins_kept | apply Kept.ite
theorem levelSample_kept {s} {a0} {a1} {a2} (h : Kept s a0) : Kept s (levelSample a0 a1 a2) := by
  unfold levelSample
  repeat' first
    | with_reducible first
        | exact h | apply gaugeApply_kept | apply Kept.ite
    | split
theorem firmwareUpdate_kept {s} {a0} {a1} {a2} {a3} (h : Kept s a0) : Kept s (firmwareUpdate a0 a1 a2 a3) := by
  unfold firmwareUpdate
  repeat' first
    | with_reducible first
        | exact h | exact Kept.refl _ | apply setFlash_kept | apply mgmtMsg_kept | apply send_kept | apply fdSet_kept | apply mgmtBad_kept
        | (intro _) | apply Kept.ite
    | split
theorem checkEnd_kept {s} {a0} {a1} {a2} (h : Kept s a0) : Kept s (checkEnd a0 a1 a2) := by
  unfold checkEnd
  repeat' with_reducible first
    | exact h | apply setPort_kept | apply raiseInt_kept | apply setPState_kept | apply checkAgain_kept | apply eqAll_kept
    | apply Kept.ite
theorem regulatorFault_kept {s} {a0} {a1} (h : Kept s a0) : Kept s (regulatorFault a0 a1) := by
  unfold regulatorFault
  repeat' with_reducible first
    | exact h | exact Kept.refl _ | apply abortCore_kept | apply clusterReset_kept | apply setPower_kept | apply raiseInt_kept
    | apply errAt_kept | apply fdSet_kept | apply closeUnit_kept | (intro _) | apply Kept.ite | apply Kept.folds
theorem cuFire_kept {s} {a0} {a1} {a2} (h : Kept s a0) : Kept s (cuFire a0 a1 a2) := by
  unfold cuFire
  repeat' with_reducible first
    | exact h | exact Kept.refl _ | apply cuStall_kept | apply popTok_kept | apply takeCredits_kept | apply setCu_kept | (intro _)
    | apply Kept.ite | apply Kept.folds
theorem heartbeatSend_kept {s} {a0} {a1} (h : Kept s a0) : Kept s (heartbeatSend a0 a1) := by
  unfold heartbeatSend
  repeat' with_reducible first
    | exact h | exact Kept.refl _ | apply twinSend_kept | apply bump_kept | (intro _) | apply Kept.ite | apply Kept.folds
theorem windowClose_kept {s} {a0} {a1} (h : Kept s a0) : Kept s (windowClose a0 a1) := by
  unfold windowClose
  repeat' with_reducible first
    | exact h | apply setLadder_kept | apply Kept.ite
theorem recordSave_kept {s} {a0} (h : Kept s a0) : Kept s (recordSave a0) := by
  unfold recordSave
  repeat' with_reducible first
    | exact h | apply setFlash_kept | apply Kept.ite
theorem pllLoss_kept {s} {a0} {a1} {a2} (h : Kept s a0) : Kept s (pllLoss a0 a1 a2) := by
  unfold pllLoss
  repeat' with_reducible first
    | exact h | apply clusPllLoss_kept | apply diePllLoss_kept | apply Kept.ite
theorem patrolScrub_kept {s} {a0} {a1} {a2} {a3} (h : Kept s a0) : Kept s (patrolScrub a0 a1 a2 a3) := by
  unfold patrolScrub
  repeat' with_reducible first
    | exact h | apply blockRead_kept | apply noteErr_kept | apply Kept.ite
theorem provingBatch_kept {s} {a0} {a1} (h : Kept s a0) : Kept s (provingBatch a0 a1) := by
  unfold provingBatch
  repeat' with_reducible first
    | exact h | exact Kept.refl _ | apply provenCore_kept | apply endStep_kept | apply setPins_kept | apply closeUnit_kept | (intro _)
    | apply Kept.ite | apply Kept.folds
theorem auxApplied_kept {s} {a0} (h : Kept s a0) : Kept s (auxApplied a0) := by
  unfold auxApplied
  repeat' with_reducible first
    | exact h | apply setCause_kept | apply beginStep_kept | apply setPins_kept | apply Kept.ite
theorem doorbellCmd_kept {s} {a0} {a1} {a2} {a3} (h : Kept s a0) : Kept s (doorbellCmd a0 a1 a2 a3) := by
  unfold doorbellCmd
  repeat' with_reducible first
    | exact h | apply regCmd_kept | apply vfBar0_kept | apply Kept.ite
theorem crystalJudged_kept {s} {a0} {a1} (h : Kept s a0) : Kept s (crystalJudged a0 a1) := by
  unfold crystalJudged
  repeat' with_reducible first
    | exact h | apply fdSet_kept | apply crystalFail_kept | apply Kept.ite
theorem itinLoad_kept {s} {a0} {a1} {a2} (h : Kept s a0) : Kept s (itinLoad a0 a1 a2) := by
  unfold itinLoad
  repeat' first
    | with_reducible first
        | exact h | apply endCmd_kept | apply itinPlace_kept | apply Kept.ite
    | split
theorem fenced_kept {s} {a0} (h : Kept s a0) : Kept s (fenced a0) := by
  unfold fenced
  repeat' with_reducible first
    | exact h | apply raiseInt_kept | apply setPst_kept | apply setTwin_kept
theorem contextArmed_kept {s} {a0} {a1} (h : Kept s a0) : Kept s (contextArmed a0 a1) := by
  unfold contextArmed
  repeat' first
    | with_reducible first
        | exact h | apply postNotice_kept | apply setCtx_kept | apply Kept.ite
    | (dsimp only; split)
theorem winRead_kept {s} {a0} {a1} (h : Kept s a0) : Kept s (winRead a0 a1).1 := by
  unfold winRead
  repeat' with_reducible first
    | exact h | apply winStep_kept
theorem crossbar_kept {s} {a0} {a1} {a2} (h : Kept s a0) : Kept s (crossbar a0 a1 a2) := by
  unfold crossbar
  repeat' with_reducible first
    | exact h | exact Kept.refl _ | apply bankDrain_kept | apply setCore_kept | apply xRead_kept | apply xWrite_kept | (intro _)
    | apply Kept.folds

end Sys2Proof.Machine
end

