-- ==== Sys2Proof/Laws/Ordered.lean ====
section
/-! SUPPORT. The tables every shared operation keeps in rising order: the first-error captures, and the words and poison flags of every
scratchpad. One lemma per operation, callees before callers. -/
namespace Sys2Proof.Machine
open Sys2Proof
set_option Elab.async false

/-- A scratchpad is in rising order. -/
def SpadOrdered (k : Core) : Prop := twf k.sp.words = true ∧ twf k.sp.pois = true
/-- The captures and every scratchpad are in rising order. -/
structure Ordered (s : State) : Prop where
  caps : twf s.caps = true
  sp : s.cores.all (fun e => twf e.2.sp.words && twf e.2.sp.pois) = true
theorem SpadOrdered.dflt : SpadOrdered {} := ⟨rfl, rfl⟩
theorem tget_all {α : Type} {p : α → Prop} {d : α} (hd : p d) {t : Tbl α} (h : ∀ e ∈ t, p e.2) (n : Nat) : p (tget d t n) := by
  induction t with
  | nil => exact hd
  | cons e t ih =>
    obtain ⟨k, w⟩ := e
    simp only [tget]
    split
    · exact h (k, w) (List.mem_cons_self ..)
    · split
      · exact hd
      · exact ih (fun e he => h e (by simp [he]))
theorem Ordered.core {s : State} (h : Ordered s) (c : Nat) : SpadOrdered (core s c) := by
  refine tget_all (p := SpadOrdered) SpadOrdered.dflt (fun e he => ?_) c
  have := List.all_eq_true.1 h.sp e he
  simpa [SpadOrdered] using this
theorem SpadOrdered.words {k : Core} (h : SpadOrdered k) : twf k.sp.words = true := h.1
theorem SpadOrdered.pois {k : Core} (h : SpadOrdered k) : twf k.sp.pois = true := h.2
theorem SpadOrdered.of {k l : Core} (h : SpadOrdered k) (e : l.sp = k.sp) : SpadOrdered l := by unfold SpadOrdered; rw [e]; exact h
theorem SpadOrdered.of2 {k l : Core} (h : SpadOrdered k) (e1 : l.sp.words = k.sp.words) (e2 : l.sp.pois = k.sp.pois) : SpadOrdered l := by unfold SpadOrdered; rw [e1, e2]; exact h
theorem SpadOrdered.ite {k l : Core} {c : Prop} [Decidable c] (a : SpadOrdered k) (b : SpadOrdered l) : SpadOrdered (if c then k else l) := by split <;> assumption
theorem putWord_spad {k : Core} (h : SpadOrdered k) {w : Nat} {v : DWord} {p : Bool} : SpadOrdered (putWord k w v p) := by
  obtain ⟨a, b⟩ := h
  unfold putWord
  refine ⟨?_, ?_⟩ <;> dsimp only <;> split <;> first | exact twf_tdel _ a | exact twf_tput _ _ a | exact twf_tdel _ b | exact twf_tput _ _ b
theorem setCore_ordered {a0 : State} {a1 : Nat} {a2 : Core} (h : Ordered a0) (k : SpadOrdered a2) : Ordered (setCore a0 a1 a2) := by
  refine ⟨h.caps, ?_⟩
  rw [List.all_eq_true]
  intro e he
  rcases mem_tput he with rfl | he
  · simpa [SpadOrdered] using k
  · exact List.all_eq_true.1 h.sp e he
theorem twf_tfilter {α : Type} {t : Tbl α} (h : twf t = true) (p : Nat → α → Bool) : twf (tfilter p t) = true := by
  unfold tfilter
  induction t with
  | nil => rfl
  | cons a m ih =>
    obtain ⟨k, w⟩ := a
    rw [List.filter_cons]
    split
    · exact twf_of_lt (ih (twf_cons h)) fun e he => twf_lt h e (List.mem_filter.1 he).1
    · exact ih (twf_cons h)
theorem bankLose_spad {k : Core} (h : SpadOrdered k) {b : Nat} : SpadOrdered (bankLose k b) := by
  unfold bankLose SpadOrdered; dsimp only; exact ⟨twf_tfilter h.1 _, twf_tfilter h.2 _⟩
theorem settled_fold_ok (l : List (Nat × DWord × Bool)) {x : Spad} (h : twf x.words = true ∧ twf x.pois = true) :
    twf (l.foldl (fun x e => (putWord { sp := x } e.1 e.2.1 e.2.2).sp) x).words = true ∧ twf (l.foldl (fun x e => (putWord { sp := x } e.1 e.2.1 e.2.2).sp) x).pois = true := by
  induction l generalizing x with
  | nil => exact h
  | cons e l ih => exact ih (putWord_spad (k := { sp := x }) h)
theorem settled_ok {k : Core} (h : SpadOrdered k) : twf k.sp.settled.words = true ∧ twf k.sp.settled.pois = true := settled_fold_ok _ (x := { k.sp with wq := [] }) h
theorem coreKeep_spad {k : Core} (h : SpadOrdered k) : SpadOrdered (coreKeep k) := settled_ok h
theorem restKeep_spad {k : Core} (h : SpadOrdered k) : SpadOrdered (restKeep k) := settled_ok h
theorem twf_foldl {α β : Type} {f : Tbl α → β → Tbl α} (h : ∀ t x, twf t = true → twf (f t x) = true) {t : Tbl α}
    (ht : twf t = true) (l : List β) : twf (l.foldl f t) = true := by
  induction l generalizing t with
  | nil => exact ht
  | cons a l ih => exact ih (h t a ht)
theorem Ordered.folds {α : Type} {f : State → α → State} {t : State} {l : List α} (h : Ordered t) (hf : ∀ s x, Ordered s → Ordered (f s x)) : Ordered (l.foldl f t) := by
  induction l generalizing t with
  | nil => exact h
  | cons a l ih => exact ih (hf t a h)
theorem Ordered.elim {α : Type} {t : State} {o : Option α} {f : α → State} (h : Ordered t) (hf : ∀ a, Ordered (f a)) : Ordered (o.elim t f) := by
  cases o with
  | none => exact h
  | some a => exact hf a
theorem Ordered.ite {a b : State} {c : Prop} [Decidable c] (ha : Ordered a) (hb : Ordered b) : Ordered (if c then a else b) := by
  split <;> assumption
theorem Ordered.fst {α : Type} {t : State} {r : α} {p : State × α} (e : p = (t, r)) (h : Ordered p.1) : Ordered t := by subst e; exact h
theorem Ordered.snd {α : Type} {t : State} {r : α} {p : α × State} (e : p = (r, t)) (h : Ordered p.2) : Ordered t := by subst e; exact h
theorem Ordered.foldsFst {α β : Type} {f : State × β → α → State × β} {p : State × β} {l : List α} (h : Ordered p.1)
    (hf : ∀ p x, Ordered p.1 → Ordered (f p x).1) : Ordered (l.foldl f p).1 := by
  induction l generalizing p with
  | nil => exact h
  | cons a l ih => exact ih (hf p a h)
theorem Ordered.upd {x : State} (h : Ordered x) (now' : Nat) (free' : Nat) (regs' : Tbl Word) (stg' : Tbl Word) (latch' : List Latch) (fuseMap' : Tbl Word) (fieldMap' : Tbl Word) (mem' : Tbl Byte) (mpois' : Tbl Bool) (merr' : Tbl Nat) (slices' : Tbl Slice) (stackSt' : Tbl Stack) (grant' : Tbl Word) (nets' : Tbl DieNet) (ports' : Tbl PortSt) (routes' : Tbl Routes) (twin' : Twin) (heal' : Heal) (hub' : Hub) (flash' : Flash) (pins' : Pins) (power' : Power) (host' : HostIf) (gauges' : Tbl Gauge) (inval' : List Cast) (flip' : Option Cast) (reports' : List Report) (out' : List Out) (pending' : List Instr) : Ordered ⟨now', free', regs', x.caps, stg', latch', fuseMap', fieldMap', mem', mpois', merr', slices', stackSt', grant', x.cores, nets', ports', routes', twin', heal', hub', flash', pins', power', host', gauges', inval', flip', reports', out', pending'⟩ := ⟨h.caps, h.sp⟩
theorem Ordered.updCaps {x : State} (h : Ordered x) (now' : Nat) (free' : Nat) (regs' : Tbl Word) (caps' : Tbl Cap) (stg' : Tbl Word) (latch' : List Latch) (fuseMap' : Tbl Word) (fieldMap' : Tbl Word) (mem' : Tbl Byte) (mpois' : Tbl Bool) (merr' : Tbl Nat) (slices' : Tbl Slice) (stackSt' : Tbl Stack) (grant' : Tbl Word) (nets' : Tbl DieNet) (ports' : Tbl PortSt) (routes' : Tbl Routes) (twin' : Twin) (heal' : Heal) (hub' : Hub) (flash' : Flash) (pins' : Pins) (power' : Power) (host' : HostIf) (gauges' : Tbl Gauge) (inval' : List Cast) (flip' : Option Cast) (reports' : List Report) (out' : List Out) (pending' : List Instr) (e : twf caps' = true) : Ordered ⟨now', free', regs', caps', stg', latch', fuseMap', fieldMap', mem', mpois', merr', slices', stackSt', grant', x.cores, nets', ports', routes', twin', heal', hub', flash', pins', power', host', gauges', inval', flip', reports', out', pending'⟩ := ⟨e, h.sp⟩
def OrderedNext (o : Res) : Prop := ∀ t, o = .next t → Ordered t
theorem OrderedNext.next {t : State} (h : Ordered t) : OrderedNext (.next t) := by intro u e; cases e; exact h
theorem OrderedNext.fault {f : Fault} : OrderedNext (.fault f) := by intro u e; cases e
theorem OrderedNext.onUnit {t : State} {n k : Nat} (h : Ordered t) : OrderedNext (onUnit n k t) := by
  intro u e; rw [(onUnit_next e).2]; exact h
theorem OrderedNext.onCore {t : State} {c : Nat} (h : Ordered t) : OrderedNext (onCore c t) := OrderedNext.onUnit h
theorem OrderedNext.ite {a b : Res} {c : Prop} [Decidable c] (ha : OrderedNext a) (hb : OrderedNext b) : OrderedNext (if c then a else b) := by
  split <;> assumption

theorem onUnit_ordered {a0} {a1} {a2} (h : Ordered a2) : OrderedNext (onUnit a0 a1 a2) := by
  unfold onUnit
  repeat' with_reducible first
    | exact h | apply OrderedNext.next | apply OrderedNext.fault | apply OrderedNext.ite
theorem onCore_ordered {a0} {a1} (h : Ordered a1) : OrderedNext (onCore a0 a1) := by
  unfold onCore
  repeat' with_reducible first
    | exact h | apply onUnit_ordered
theorem wr_ordered {a0} {a1} {a2} {a3} (h : Ordered a0) : Ordered (wr a0 a1 a2 a3) := by
  unfold wr
  repeat' with_reducible apply Ordered.upd h
theorem fdSet_ordered {a0} {a1} {a2} {a3} (h : Ordered a0) : Ordered (fdSet a0 a1 a2 a3) := by
  unfold fdSet
  repeat' with_reducible first
    | exact h | apply wr_ordered
theorem setSeqSt_ordered {a0} {a1} {a2} {a3} (h : Ordered a0) : Ordered (setSeqSt a0 a1 a2 a3) := by
  unfold setSeqSt
  repeat' with_reducible first
    | exact h | apply fdSet_ordered | apply Ordered.ite
theorem send_ordered {a0} {a1} (h : Ordered a0) : Ordered (send a0 a1) := by
  unfold send
  repeat' with_reducible apply Ordered.upd h
theorem irqEdge_ordered {a0 : State} {a1} {a2 : State} (h : Ordered a2) : Ordered (irqEdge a0 a1 a2) := by
  unfold irqEdge
  exact Ordered.ite (send_ordered h) h
theorem raiseInt_ordered {a0} {a1} {a2} (h : Ordered a0) : Ordered (raiseInt a0 a1 a2) := by
  unfold raiseInt
  repeat' with_reducible first
    | exact h | apply irqEdge_ordered | apply wr_ordered
theorem errAt_ordered {a0} {a1} {a2} {a3} {a4} {a5} {a6} (h : Ordered a0) : Ordered (errAt a0 a1 a2 a3 a4 a5 a6) := by
  unfold errAt
  repeat' with_reducible first
    | exact h | apply raiseInt_ordered | apply Ordered.ite | apply twf_tput | apply Ordered.caps | apply Ordered.updCaps
theorem coreErr_ordered {a0} {a1} {a2} {a3} {a4} {a5} {a6} (h : Ordered a0) : Ordered (coreErr a0 a1 a2 a3 a4 a5 a6) := by
  unfold coreErr
  repeat' first
    | with_reducible first
        | exact h | apply errAt_ordered | apply raiseInt_ordered
    | split

theorem setSeq_ordered {a0} {a1} {a2} (h : Ordered a0) : Ordered (setSeq a0 a1 a2) := by
  unfold setSeq
  repeat' first
    | with_reducible first
        | exact h | apply setCore_ordered
    | (refine SpadOrdered.of2 (Ordered.core ?_ _) rfl rfl)
theorem setPc_ordered {a0} {a1} {a2} (h : Ordered a0) : Ordered (setPc a0 a1 a2) := by
  unfold setPc
  repeat' with_reducible first
    | exact h | apply fdSet_ordered
theorem seqTrap_ordered {a0} {a1} {a2} {a3} (h : Ordered a0) : Ordered (seqTrap a0 a1 a2 a3) := by
  unfold seqTrap
  repeat' with_reducible first
    | exact h | apply setSeqSt_ordered | apply fdSet_ordered | apply coreErr_ordered | apply setSeq_ordered | apply setPc_ordered | apply Ordered.ite
theorem noArea_ordered {a0} {a1} {a2} (h : Ordered a0) : Ordered (noArea a0 a1 a2) := by
  unfold noArea
  repeat' with_reducible first
    | exact h | apply coreErr_ordered
theorem wr64_ordered {a0} {a1} {a2} {a3} (h : Ordered a0) : Ordered (wr64 a0 a1 a2 a3) := by
  unfold wr64
  repeat' with_reducible first
    | exact h | apply wr_ordered
theorem bumpBy_ordered {a0} {a1} {a2} {a3} (h : Ordered a0) : Ordered (bumpBy a0 a1 a2 a3) := by
  unfold bumpBy
  repeat' with_reducible first
    | exact h | apply wr64_ordered | apply Ordered.ite
theorem bump_ordered {a0} {a1} {a2} (h : Ordered a0) : Ordered (bump a0 a1 a2) := by
  unfold bump
  repeat' with_reducible first
    | exact h | apply bumpBy_ordered
theorem retire_ordered {a0} {a1} {a2} (h : Ordered a0) : Ordered (retire a0 a1 a2) := by
  unfold retire
  repeat' with_reducible first
    | exact h | apply setPc_ordered | apply bump_ordered | apply setSeq_ordered
theorem xset_ordered {a0} {a1} {a2} {a3} (h : Ordered a0) : Ordered (xset a0 a1 a2 a3) := by
  unfold xset
  repeat' with_reducible first
    | exact h | apply setSeq_ordered | apply Ordered.ite
theorem bankRefuse_ordered {a0} {a1} {a2} {a3} {a4} {a5} (h : Ordered a0) : Ordered (bankRefuse a0 a1 a2 a3 a4 a5) := by
  unfold bankRefuse
  repeat' with_reducible first
    | exact h | apply raiseInt_ordered | apply errAt_ordered
theorem setBank_ordered {a0} {a1} {a2} {a3} (h : Ordered a0) : Ordered (setBank a0 a1 a2 a3) := by
  unfold setBank
  repeat' with_reducible first
    | exact h | apply fdSet_ordered
theorem bankAsk_ordered {a0} {a1} {a2} {a3} (h : Ordered a0) : Ordered (bankAsk a0 a1 a2 a3).1 := by
  unfold bankAsk
  repeat' first
    | with_reducible first
        | exact h | apply bankRefuse_ordered | apply bump_ordered | apply setBank_ordered
    | split
    | (dsimp only; split)
theorem noteFlips_ordered {a0} {a1} {a2} {a3} (h : Ordered a0) : Ordered (noteFlips a0 a1 a2 a3) := by
  unfold noteFlips
  repeat' first
    | with_reducible first
        | exact h | apply setCore_ordered | apply Ordered.ite
    | split
    | (refine SpadOrdered.of2 (Ordered.core ?_ _) rfl rfl)
theorem watch_ordered {a0} {a1} {a2} {a3} (h : Ordered a0) : Ordered (watch a0 a1 a2 a3) := by
  unfold watch
  repeat' with_reducible apply Ordered.upd h
theorem spadCorrected_ordered {a0} {a1} {a2} {a3} (h : Ordered a0) : Ordered (spadCorrected a0 a1 a2 a3) := by
  unfold spadCorrected
  repeat' with_reducible first
    | exact h | apply watch_ordered | apply bump_ordered
theorem capCount_ordered {a0} {a1} (h : Ordered a0) : Ordered (capCount a0 a1) := by
  unfold capCount
  repeat' with_reducible first
    | exact h | apply Ordered.ite | apply twf_tput | apply Ordered.caps | apply Ordered.updCaps
theorem report_ordered {a0} {a1} (h : Ordered a0) : Ordered (report a0 a1) := by
  unfold report
  repeat' first
    | with_reducible first
        | apply capCount_ordered | apply Ordered.ite | apply Ordered.upd h
    | split
theorem reportCore_ordered {a0} {a1} {a2} {a3} {a4} {a5} (h : Ordered a0) : Ordered (reportCore a0 a1 a2 a3 a4 a5) := by
  unfold reportCore
  repeat' with_reducible first
    | exact h | apply report_ordered
theorem storeWord_ordered {a0} {a1} {a2} {a3} {a4} (h : Ordered a0) : Ordered (storeWord a0 a1 a2 a3 a4) := by
  unfold storeWord
  repeat' first
    | with_reducible first
        | exact h | apply setCore_ordered | apply Ordered.core | apply SpadOrdered.ite
    | (refine SpadOrdered.of2 (putWord_spad ?_) rfl rfl)
theorem applyWord_ordered {a0} {a1} {a2} {a3} {a4} (h : Ordered a0) : Ordered (applyWord a0 a1 a2 a3 a4) := by
  unfold applyWord
  repeat' first
    | with_reducible first
        | exact h | apply storeWord_ordered | apply setCore_ordered
    | (refine SpadOrdered.of2 (Ordered.core ?_ _) rfl rfl)
theorem spadUncorrectable_ordered {a0} {a1} {a2} {a3} {a4} (h : Ordered a0) : Ordered (spadUncorrectable a0 a1 a2 a3 a4) := by
  unfold spadUncorrectable
  repeat' with_reducible first
    | exact h | apply bump_ordered | apply fdSet_ordered | apply reportCore_ordered | apply raiseInt_ordered | apply errAt_ordered | apply applyWord_ordered
    | apply Ordered.ite
theorem spadFetch_ordered {a0} {a1} {a2} {a3} {a4} (h : Ordered a0) : Ordered (spadFetch a0 a1 a2 a3 a4).1 := by
  unfold spadFetch
  repeat' first
    | with_reducible first
        | exact h | apply noteFlips_ordered | apply bump_ordered | apply spadCorrected_ordered | apply setCore_ordered | apply spadUncorrectable_ordered
    | split
    | (dsimp only; split)
    | (refine SpadOrdered.of2 (Ordered.core ?_ _) rfl rfl)
theorem spadRead_ordered {a0} {a1} {a2} {a3} {a4} (h : Ordered a0) : Ordered (spadRead a0 a1 a2 a3 a4).1 := by
  unfold spadRead
  repeat' first
    | with_reducible first
        | exact h | apply bankAsk_ordered | apply spadFetch_ordered
    | with_reducible refine Ordered.fst (by assumption) ?_
    | split
theorem setMx_ordered {a0} {a1} {a2} (h : Ordered a0) : Ordered (setMx a0 a1 a2) := by
  unfold setMx
  repeat' with_reducible first
    | exact h | apply setSeq_ordered
theorem qErr_ordered {a0} {a1} {a2} {a3} {a4} {a5} {a6} (h : Ordered a0) : Ordered (qErr a0 a1 a2 a3 a4 a5 a6) := by
  unfold qErr
  repeat' with_reducible first
    | exact h | apply raiseInt_ordered | apply errAt_ordered
theorem qxPopRefused_ordered {a0} {a1} {a2} (h : Ordered a0) : Ordered (qxPopRefused a0 a1 a2) := by
  unfold qxPopRefused
  repeat' with_reducible first
    | exact h | apply qErr_ordered
theorem setQe_ordered {a0} {a1} {a2} (h : Ordered a0) : Ordered (setQe a0 a1 a2) := by
  unfold setQe
  repeat' first
    | with_reducible first
        | exact h | apply setCore_ordered
    | (refine SpadOrdered.of2 (Ordered.core ?_ _) rfl rfl)
theorem setSlot_ordered {a0} {a1} {a2} {a3} (h : Ordered a0) : Ordered (setSlot a0 a1 a2 a3) := by
  unfold setSlot
  repeat' with_reducible first
    | exact h | apply setQe_ordered
theorem ringRelease_ordered {a0} {a1} {a2} (h : Ordered a0) : Ordered (ringRelease a0 a1 a2) := by
  unfold ringRelease
  repeat' with_reducible first
    | exact h | apply setSlot_ordered
theorem jFree_ordered {a0} {a1} {a2} (h : Ordered a0) : Ordered (jFree a0 a1 a2) := by
  unfold jFree
  repeat' with_reducible first
    | exact h | apply setSlot_ordered
theorem jRelease_ordered {a0} {a1} {a2} (h : Ordered a0) : Ordered (jRelease a0 a1 a2) := by
  unfold jRelease
  repeat' with_reducible first
    | exact h | apply jFree_ordered | apply Ordered.ite
theorem popSlot_ordered {a0} {a1} {a2} (h : Ordered a0) : Ordered (popSlot a0 a1 a2).1 := by
  unfold popSlot
  repeat' first
    | with_reducible first
        | exact h | apply setSlot_ordered | apply ringRelease_ordered | apply jRelease_ordered
    | split
    | (dsimp only; split)
theorem setLink_ordered {a0} {a1} {a2} {a3} (h : Ordered a0) : Ordered (setLink a0 a1 a2 a3) := by
  unfold setLink
  repeat' first
    | with_reducible first
        | exact h | apply setCore_ordered
    | (refine SpadOrdered.of2 (Ordered.core ?_ _) rfl rfl)
theorem popTok_ordered {a0} {a1} {a2} (h : Ordered a0) : Ordered (popTok a0 a1 a2) := by
  unfold popTok
  repeat' first
    | with_reducible first
        | exact h | apply setLink_ordered | apply Ordered.ite
    | split
theorem winLoad_ordered {a0} {a1} {a2} (h : Ordered a0) : Ordered (winLoad a0 a1 a2).1 := by
  unfold winLoad
  repeat' first
    | with_reducible first
        | exact h | apply setMx_ordered | apply qxPopRefused_ordered | apply popSlot_ordered | apply setSeq_ordered | apply popTok_ordered
    | with_reducible refine Ordered.fst (by assumption) ?_
    | split
    | (dsimp only; split)
theorem seqLoad_ordered {a0} {a1} {a2} {a3} {a4} (h : Ordered a0) : Ordered (seqLoad a0 a1 a2 a3 a4).1 := by
  unfold seqLoad
  repeat' first
    | with_reducible first
        | exact h | apply spadRead_ordered | apply setMx_ordered | apply winLoad_ordered | apply noArea_ordered
    | with_reducible refine Ordered.fst (by assumption) ?_
    | split
    | (dsimp only; split)
theorem spadMerge_ordered {a0} {a1} {a2} {a3} {a4} {a5} {a6} {a7} (h : Ordered a0) : Ordered (spadMerge a0 a1 a2 a3 a4 a5 a6 a7).1 := by
  unfold spadMerge
  repeat' first
    | with_reducible first
        | exact h | apply bump_ordered | apply noteFlips_ordered | apply spadUncorrectable_ordered | apply spadCorrected_ordered | apply Ordered.ite
    | split
theorem spadApply_ordered {a0} {a1} {a2} {a3} {a4} {a5} {a6} {a7} (h : Ordered a0) : Ordered (spadApply a0 a1 a2 a3 a4 a5 a6 a7) := by
  unfold spadApply
  repeat' with_reducible first
    | exact h | apply spadMerge_ordered | apply applyWord_ordered
theorem spadWrite_ordered {a0} {a1} {a2} {a3} {a4} {a5} {a6} {a7} (h : Ordered a0) : Ordered (spadWrite a0 a1 a2 a3 a4 a5 a6 a7).1 := by
  unfold spadWrite
  repeat' first
    | with_reducible first
        | exact h | apply bankAsk_ordered | apply spadApply_ordered
    | with_reducible refine Ordered.fst (by assumption) ?_
    | split
theorem emitTok_ordered {a0} {a1} {a2} {a3} (h : Ordered a0) : Ordered (emitTok a0 a1 a2 a3) := by
  unfold emitTok
  repeat' with_reducible first
    | exact h | apply setLink_ordered | (intro _) | apply Ordered.folds
theorem takeCredits_ordered {a0} {a1} {a2} {a3} (h : Ordered a0) : Ordered (takeCredits a0 a1 a2 a3) := by
  unfold takeCredits
  repeat' with_reducible first
    | exact h | apply setLink_ordered | (intro _) | apply Ordered.folds
theorem stallCount_ordered {a0} {a1} {a2} (h : Ordered a0) : Ordered (stallCount a0 a1 a2) := by
  unfold stallCount
  repeat' first
    | with_reducible first
        | exact h | apply bump_ordered | apply Ordered.ite
    | split
theorem winStore_ordered {a0} {a1} {a2} {a3} (h : Ordered a0) : Ordered (winStore a0 a1 a2 a3).1 := by
  unfold winStore
  repeat' first
    | with_reducible first
        | exact h | apply setMx_ordered | apply emitTok_ordered | apply takeCredits_ordered | apply stallCount_ordered | apply raiseInt_ordered
        | apply fdSet_ordered | apply setSeq_ordered
    | split
    | (dsimp only; split)
theorem seqStore_ordered {a0} {a1} {a2} {a3} {a4} {a5} (h : Ordered a0) : Ordered (seqStore a0 a1 a2 a3 a4 a5).1 := by
  unfold seqStore
  repeat' first
    | with_reducible first
        | exact h | apply setSeq_ordered | apply spadWrite_ordered | apply winStore_ordered | apply noArea_ordered
    | with_reducible refine Ordered.fst (by assumption) ?_
    | split
    | (dsimp only; split)
theorem seqEcall_ordered {a0} {a1} {a2} (h : Ordered a0) : Ordered (seqEcall a0 a1 a2) := by
  unfold seqEcall
  repeat' with_reducible first
    | exact h | apply raiseInt_ordered | apply setSeqSt_ordered | apply setPc_ordered
theorem freeUsed_ordered {a0} (h : Ordered a0) : Ordered (freeUsed a0) := by
  unfold freeUsed
  repeat' with_reducible apply Ordered.upd h
theorem cycleOn_ordered {a0} {a1} (h : Ordered a0) : Ordered (cycleOn a0 a1) := by
  unfold cycleOn
  repeat' with_reducible first
    | exact h | apply setSeq_ordered | apply freeUsed_ordered
theorem csrRead_ordered {a0 : State} {c n : Nat} {t : State} {v : Word} (h : Ordered a0) (e : csrRead a0 c n = some (t, v)) : Ordered t := by
  have : t = a0 ∨ t = cycleOn a0 c := by
    unfold csrRead at e
    split at e <;> first | (cases e; exact .inr rfl) | (cases e; exact .inl rfl) | cases e
  rcases this with rfl | rfl
  · exact h
  · exact cycleOn_ordered h
theorem csrWrite_ordered {a0 : State} {c n : Nat} {v : Word} {t : State} (h : Ordered a0) (e : csrWrite a0 c n v = some t) : Ordered t := by
  unfold csrWrite at e
  split at e <;> first | (cases e; exact setSeq_ordered h) | cases e
theorem seqCsr_ordered {a0} {a1} {a2} {a3} (h : Ordered a0) : Ordered (seqCsr a0 a1 a2 a3) := by
  unfold seqCsr
  dsimp only
  split
  · exact seqTrap_ordered h
  · have h' := csrRead_ordered h (by assumption)
    split
    · split
      · exact seqTrap_ordered h
      · exact retire_ordered (xset_ordered (csrWrite_ordered h' (by assumption)))
    · exact retire_ordered (xset_ordered h')
theorem seqFinish_ordered {a0} {a1} {a2} {a3} {a4} (h : Ordered a0) : Ordered (seqFinish a0 a1 a2 a3 a4) := by
  unfold seqFinish
  repeat' with_reducible first
    | exact h | apply xset_ordered | apply setSeq_ordered | apply retire_ordered | apply setSeqSt_ordered
theorem napEnd_ordered {a0} {a1} {a2} (h : Ordered a0) : Ordered (napEnd a0 a1 a2) := by
  unfold napEnd
  repeat' with_reducible first
    | exact h | apply bump_ordered | apply setSeq_ordered | apply seqFinish_ordered | apply Ordered.ite
theorem seqWait_ordered {a0} {a1} {a2} {a3} {a4} (h : Ordered a0) : Ordered (seqWait a0 a1 a2 a3 a4) := by
  unfold seqWait
  repeat' with_reducible first
    | exact h | apply setSeqSt_ordered | apply setSeq_ordered
theorem seqNap_ordered {a0} {a1} {a2} {a3} (h : Ordered a0) : Ordered (seqNap a0 a1 a2 a3) := by
  unfold seqNap
  repeat' with_reducible first
    | exact h | apply napEnd_ordered | apply seqWait_ordered | apply Ordered.ite
theorem seqDone_ordered {a0} {a1} {a2} {a3} {a4} (h : Ordered a0) : Ordered (seqDone a0 a1 a2 a3 a4) := by
  unfold seqDone
  repeat' with_reducible first
    | exact h | apply seqFinish_ordered
theorem qpopGive_ordered {a0} {a1} {a2} {a3} {a4} (h : Ordered a0) : Ordered (qpopGive a0 a1 a2 a3 a4) := by
  unfold qpopGive
  repeat' with_reducible first
    | exact h | apply setSeq_ordered | apply seqFinish_ordered
theorem seqQpop_ordered {a0} {a1} {a2} {a3} (h : Ordered a0) : Ordered (seqQpop a0 a1 a2 a3) := by
  unfold seqQpop
  repeat' first
    | with_reducible first
        | exact h | apply seqDone_ordered | apply qxPopRefused_ordered | apply popSlot_ordered | apply qpopGive_ordered | apply seqWait_ordered
        | apply Ordered.ite
    | with_reducible refine Ordered.fst (by assumption) ?_
    | split
theorem qselGive_ordered {a0} {a1} {a2} {a3} {a4} (h : Ordered a0) : Ordered (qselGive a0 a1 a2 a3 a4) := by
  unfold qselGive
  repeat' with_reducible first
    | exact h | apply setSeq_ordered | apply seqFinish_ordered
theorem seqQsel_ordered {a0} {a1} {a2} {a3} {a4} (h : Ordered a0) : Ordered (seqQsel a0 a1 a2 a3 a4) := by
  unfold seqQsel
  repeat' first
    | with_reducible first
        | exact h | apply qselGive_ordered | apply seqDone_ordered | apply seqWait_ordered
    | split
    | (dsimp only; split)
theorem rangeAsk_ordered {a0} {a1} {a2} (h : Ordered a0) : Ordered (rangeAsk a0 a1 a2).1 := by
  unfold rangeAsk
  repeat' first
    | with_reducible first
        | exact h | apply raiseInt_ordered | apply errAt_ordered | apply setCore_ordered
    | split
    | (dsimp only; split)
    | (refine SpadOrdered.of2 (Ordered.core ?_ _) rfl rfl)
theorem enterMsg_ordered {a0} {a1} {a2} {a3} {a4} {a5} {a6} (h : Ordered a0) : Ordered (enterMsg a0 a1 a2 a3 a4 a5 a6).1 := by
  unfold enterMsg
  repeat' first
    | with_reducible first
        | exact h | apply setQe_ordered | apply rangeAsk_ordered
    | with_reducible refine Ordered.fst (by assumption) ?_
    | split
    | (dsimp only; split)
theorem issue_ordered {a0} {a1} (h : Ordered a0) : Ordered (issue a0 a1).1 := by
  unfold issue
  repeat' with_reducible first
    | exact h | apply setSeq_ordered
theorem seqQsend_ordered {a0} {a1} {a2} {a3} {a4} (h : Ordered a0) : Ordered (seqQsend a0 a1 a2 a3 a4) := by
  unfold seqQsend
  repeat' with_reducible first
    | exact h | apply seqDone_ordered | apply enterMsg_ordered | apply issue_ordered | apply Ordered.ite
theorem setChan_ordered {a0} {a1} {a2} {a3} (h : Ordered a0) : Ordered (setChan a0 a1 a2 a3) := by
  unfold setChan
  repeat' with_reducible first
    | exact h | apply setQe_ordered
theorem inject_ordered {a0} {a1} {a2} (h : Ordered a0) : Ordered (inject a0 a1 a2) := by
  unfold inject
  repeat' with_reducible first
    | exact h | apply setQe_ordered
theorem seqChopen_ordered {a0} {a1} {a2} {a3} {a4} (h : Ordered a0) : Ordered (seqChopen a0 a1 a2 a3 a4) := by
  unfold seqChopen
  generalize lowest1024 _ = o
  cases o with
  | none => exact seqDone_ordered h
  | some i => exact inject_ordered (seqWait_ordered (setChan_ordered h))
theorem noticeOut_ordered {a0} {a1} {a2} {a3} (h : Ordered a0) : Ordered (noticeOut a0 a1 a2 a3) := by
  unfold noticeOut
  repeat' with_reducible first
    | exact h | apply send_ordered | apply Ordered.ite
theorem closeSettle_ordered {a0} {a1} {a2} (h : Ordered a0) : Ordered (closeSettle a0 a1 a2) := by
  unfold closeSettle
  repeat' with_reducible first
    | exact h | apply setChan_ordered | apply noticeOut_ordered | apply Ordered.ite
theorem chClose_ordered {a0} {a1} {a2} (h : Ordered a0) : Ordered (chClose a0 a1 a2).1 := by
  unfold chClose
  repeat' first
    | with_reducible first
        | exact h | apply closeSettle_ordered | apply setChan_ordered
    | (dsimp only; split)
theorem rangeGrant_ordered {a0} {a1} {a2} (h : Ordered a0) : Ordered (rangeGrant a0 a1 a2) := by
  unfold rangeGrant
  repeat' first
    | with_reducible first
        | exact h | apply setCore_ordered | apply Ordered.ite
    | (dsimp only; split)
    | (refine SpadOrdered.of2 (Ordered.core ?_ _) rfl rfl)
theorem rangeTake_ordered {a0} {a1} {a2} (h : Ordered a0) : Ordered (rangeTake a0 a1 a2).1 := by
  unfold rangeTake
  repeat' first
    | with_reducible first
        | exact h | apply rangeGrant_ordered | apply rangeAsk_ordered
    | with_reducible refine Ordered.fst (by assumption) ?_
    | split
    | (dsimp only; split)
theorem spadReadAll_ordered {a0} {a1} {a2} {a3} {a4} (h : Ordered a0) : Ordered (spadReadAll a0 a1 a2 a3 a4).1 := by
  fun_induction spadReadAll
  repeat' first
    | with_reducible first
        | exact h | apply spadRead_ordered
    | with_reducible refine Ordered.fst (by assumption) ?_
    | with_reducible apply_assumption
theorem spadReadEcc_ordered {a0} {a1} {a2} {a3} {a4} {a5} (h : Ordered a0) : Ordered (spadReadEcc a0 a1 a2 a3 a4 a5).1 := by
  unfold spadReadEcc
  repeat' first
    | with_reducible first
        | exact h | apply spadRead_ordered | apply spadReadAll_ordered
    | with_reducible refine Ordered.fst (by assumption) ?_
    | split
theorem dmaErr_ordered {a0} {a1} {a2} {a3} {a4} {a5} (h : Ordered a0) : Ordered (dmaErr a0 a1 a2 a3 a4 a5) := by
  unfold dmaErr
  repeat' with_reducible first
    | exact h | apply raiseInt_ordered | apply errAt_ordered
theorem rangeRelease_ordered {a0} {a1} {a2} {a3} (h : Ordered a0) : Ordered (rangeRelease a0 a1 a2 a3) := by
  unfold rangeRelease
  repeat' first
    | with_reducible first
        | exact h | apply setCore_ordered
    | (refine SpadOrdered.of2 (Ordered.core ?_ _) rfl rfl)
theorem dmaGo_ordered {a0} {a1} {a2} {a3} {a4} (h : Ordered a0) : Ordered (dmaGo a0 a1 a2 a3 a4) := by
  unfold dmaGo
  repeat' first
    | with_reducible first
        | exact h | apply seqDone_ordered | apply coreErr_ordered | apply rangeTake_ordered | apply spadReadEcc_ordered | apply dmaErr_ordered
        | apply rangeRelease_ordered | apply issue_ordered | apply setCore_ordered | apply Ordered.ite
    | with_reducible refine Ordered.fst (by assumption) ?_
    | split
    | (refine SpadOrdered.of2 (Ordered.core ?_ _) rfl rfl)
theorem setFab_ordered {a0} {a1} {a2} (h : Ordered a0) : Ordered (setFab a0 a1 a2) := by
  unfold setFab
  repeat' first
    | with_reducible first
        | exact h | apply setCore_ordered
    | (refine SpadOrdered.of2 (Ordered.core ?_ _) rfl rfl)
theorem startCheck_ordered {a0} {a1} {a2} (h : Ordered a0) : Ordered (startCheck a0 a1 a2) := by
  unfold startCheck
  repeat' with_reducible first
    | exact h | apply fdSet_ordered | apply setFab_ordered | apply Ordered.ite
theorem setOutcome_ordered {a0} {a1} {a2} {a3} (h : Ordered a0) : Ordered (setOutcome a0 a1 a2 a3) := by
  unfold setOutcome
  repeat' with_reducible first
    | exact h | apply setSeq_ordered
theorem qyPurge_ordered {a0} {a1} {a2} (h : Ordered a0) : Ordered (qyPurge a0 a1 a2) := by
  unfold qyPurge
  repeat' with_reducible first
    | exact h | apply setQe_ordered | apply setOutcome_ordered | apply qErr_ordered | apply Ordered.ite
theorem cfgswDone_ordered {a0} {a1} {a2} (h : Ordered a0) : Ordered (cfgswDone a0 a1 a2) := by
  unfold cfgswDone
  repeat' first
    | with_reducible first
        | exact h | apply setFab_ordered | apply fdSet_ordered | apply seqFinish_ordered
    | (dsimp only; split)
theorem setCu_ordered {a0} {a1} {a2} {a3} (h : Ordered a0) : Ordered (setCu a0 a1 a2 a3) := by
  unfold setCu
  repeat' first
    | with_reducible first
        | exact h | apply setCore_ordered
    | (refine SpadOrdered.of2 (Ordered.core ?_ _) rfl rfl)
theorem updConsts_ordered {a0} {a1} {a2} (h : Ordered a0) : Ordered (updConsts a0 a1 a2).1 := by
  unfold updConsts
  repeat' first
    | with_reducible first
        | exact h | apply setCu_ordered | apply coreErr_ordered | apply rangeTake_ordered | apply spadReadAll_ordered | apply rangeRelease_ordered
        | apply Ordered.ite
    | with_reducible refine Ordered.fst (by assumption) ?_
    | split
    | (dsimp only; split)
theorem startLinks_ordered {a0} {a1} (h : Ordered a0) : Ordered (startLinks a0 a1) := by
  unfold startLinks
  repeat' first
    | with_reducible first
        | exact h | apply setCore_ordered
    | (refine SpadOrdered.of2 (Ordered.core ?_ _) rfl rfl)
theorem startFlow_ordered {a0} {a1} (h : Ordered a0) : Ordered (startFlow a0 a1) := by
  unfold startFlow
  repeat' with_reducible first
    | exact h | assumption | apply updConsts_ordered | apply startLinks_ordered | (intro _) | apply Ordered.ite | apply Ordered.folds
theorem cfgswFinish_ordered {a0} {a1} (h : Ordered a0) : Ordered (cfgswFinish a0 a1) := by
  unfold cfgswFinish
  repeat' first
    | with_reducible first
        | exact h | apply fdSet_ordered | apply setFab_ordered | apply cfgswDone_ordered | apply bump_ordered | apply startFlow_ordered | apply Ordered.ite
    | split
theorem setArr_ordered {a0} {a1} {a2} (h : Ordered a0) : Ordered (setArr a0 a1 a2) := by
  unfold setArr
  repeat' first
    | with_reducible first
        | exact h | apply setCore_ordered
    | (refine SpadOrdered.of2 (Ordered.core ?_ _) rfl rfl)
theorem arrSwitch_ordered {a0} {a1} {a2} {a3} {a4} (h : Ordered a0) : Ordered (arrSwitch a0 a1 a2 a3 a4) := by
  unfold arrSwitch
  repeat' with_reducible first
    | exact h | apply bump_ordered | apply setArr_ordered | apply Ordered.ite
theorem startUnits_ordered {a0} {a1} (h : Ordered a0) : Ordered (startUnits a0 a1) := by
  unfold startUnits
  repeat' first
    | with_reducible first
        | exact h | assumption | apply setCore_ordered | apply rangeTake_ordered | (intro _) | apply Ordered.ite | apply Ordered.folds
    | (refine SpadOrdered.of2 (Ordered.core ?_ _) rfl rfl)
theorem activate_ordered {a0} {a1} {a2} (h : Ordered a0) : Ordered (activate a0 a1 a2) := by
  unfold activate
  repeat' with_reducible first
    | exact h | apply arrSwitch_ordered | apply rangeRelease_ordered | apply fdSet_ordered | apply startUnits_ordered | apply setFab_ordered | (intro _)
    | apply Ordered.ite | apply Ordered.folds
theorem purge_ordered {a0} {a1} (h : Ordered a0) : Ordered (purge a0 a1) := by
  unfold purge
  repeat' with_reducible first
    | exact h | apply bumpBy_ordered | apply qyPurge_ordered | apply cfgswFinish_ordered | apply activate_ordered | (intro _) | apply Ordered.folds
theorem cfgswAdvance_ordered {a0} {a1} (h : Ordered a0) : Ordered (cfgswAdvance a0 a1) := by
  unfold cfgswAdvance
  repeat' first
    | with_reducible first
        | exact h | apply fdSet_ordered | apply startCheck_ordered | apply purge_ordered | apply Ordered.ite
    | split
theorem cfgswIssue_ordered {a0} {a1} {a2} {a3} (h : Ordered a0) : Ordered (cfgswIssue a0 a1 a2 a3) := by
  unfold cfgswIssue
  repeat' with_reducible first
    | exact h | apply setSeq_ordered | apply setSeqSt_ordered | apply fdSet_ordered | apply setFab_ordered | apply cfgswAdvance_ordered
theorem seqMile_ordered {a0} {a1} {a2} {a3} (h : Ordered a0) : Ordered (seqMile a0 a1 a2 a3) := by
  unfold seqMile
  repeat' with_reducible first
    | exact h | apply seqDone_ordered | apply coreErr_ordered | apply seqWait_ordered | apply Ordered.ite
theorem seqCustom_ordered {a0} {a1} {a2} {a3} (h : Ordered a0) : Ordered (seqCustom a0 a1 a2 a3) := by
  unfold seqCustom
  repeat' first
    | with_reducible first
        | exact h | apply seqTrap_ordered | apply seqNap_ordered | apply seqQpop_ordered | apply seqQsel_ordered | apply seqQsend_ordered
        | apply seqChopen_ordered | apply chClose_ordered | apply seqDone_ordered | apply dmaGo_ordered | apply cfgswIssue_ordered | apply seqMile_ordered
        | apply Ordered.ite
    | split
theorem seqBase_ordered {a0} {a1} {a2} {a3} {a4} (h : Ordered a0) : Ordered (seqBase a0 a1 a2 a3 a4) := by
  unfold seqBase
  repeat' first
    | with_reducible first
        | exact h | apply retire_ordered | apply xset_ordered | apply seqTrap_ordered | apply seqLoad_ordered | apply seqStore_ordered | apply seqEcall_ordered
        | apply seqCsr_ordered | apply seqCustom_ordered | apply Ordered.ite
    | with_reducible refine Ordered.fst (by assumption) ?_
    | split
    | (dsimp only; split)
theorem seqIssue_ordered {a0} {a1} {a2} {a3} (h : Ordered a0) : Ordered (seqIssue a0 a1 a2 a3) := by
  unfold seqIssue
  repeat' first
    | with_reducible first
        | exact h | apply setSeqSt_ordered | apply seqTrap_ordered | apply noArea_ordered | apply seqBase_ordered | apply Ordered.ite
    | split
theorem setNet_ordered {a0} {a1} {a2} (h : Ordered a0) : Ordered (setNet a0 a1 a2) := by
  unfold setNet
  repeat' with_reducible apply Ordered.upd h
theorem takeEnd_ordered {a0} {a1} {a2} (h : Ordered a0) : Ordered (takeEnd a0 a1 a2) := by
  unfold takeEnd
  repeat' with_reducible first
    | exact h | apply setNet_ordered
theorem setSlice_ordered {a0} {a1} {a2} (h : Ordered a0) : Ordered (setSlice a0 a1 a2) := by
  unfold setSlice
  repeat' with_reducible apply Ordered.upd h
theorem memCorrected_ordered {a0} {a1} {a2} (h : Ordered a0) : Ordered (memCorrected a0 a1 a2) := by
  unfold memCorrected
  repeat' with_reducible first
    | exact h | apply watch_ordered | apply bump_ordered
theorem setErr_ordered {a0} {a1} {a2} (h : Ordered a0) : Ordered (setErr a0 a1 a2) := by
  unfold setErr
  repeat' with_reducible apply Ordered.upd h
theorem setPoison_ordered {a0} {a1} {a2} (h : Ordered a0) : Ordered (setPoison a0 a1 a2) := by
  unfold setPoison
  repeat' with_reducible apply Ordered.upd h
theorem blockUncorrectable_ordered {a0} {a1} {a2} {a3} {a4} {a5} (h : Ordered a0) : Ordered (blockUncorrectable a0 a1 a2 a3 a4 a5) := by
  unfold blockUncorrectable
  repeat' with_reducible first
    | exact h | apply setErr_ordered | apply setPoison_ordered | apply raiseInt_ordered | apply errAt_ordered | apply bump_ordered | apply report_ordered
theorem blockRead_ordered {a0} {a1} {a2} {a3} {a4} {a5} (h : Ordered a4) : Ordered (blockRead a0 a1 a2 a3 a4 a5) := by
  unfold blockRead
  repeat' first
    | with_reducible first
        | exact h | apply bump_ordered | apply memCorrected_ordered | apply setErr_ordered | apply blockUncorrectable_ordered
    | split
    | (dsimp only; split)
theorem noteErr_ordered {a0} {a1} {a2} {a3} (h : Ordered a0) : Ordered (noteErr a0 a1 a2 a3) := by
  unfold noteErr
  repeat' first
    | with_reducible first
        | exact h | apply setErr_ordered | apply Ordered.ite
    | split
theorem epAdd_ordered {a0} {a1} {a2} {a3} {a4} (h : Ordered a0) : Ordered (epAdd a0 a1 a2 a3 a4) := by
  unfold epAdd
  repeat' with_reducible first
    | exact h | apply wr_ordered | apply setNet_ordered | apply Ordered.ite
theorem setRout_ordered {a0} {a1} {a2} (h : Ordered a0) : Ordered (setRout a0 a1 a2) := by
  unfold setRout
  repeat' first
    | with_reducible first
        | exact h | apply setCore_ordered
    | (refine SpadOrdered.of2 (Ordered.core ?_ _) rfl rfl)
theorem setBuf_ordered {a0} {a1} {a2} {a3} {a4} (h : Ordered a0) : Ordered (setBuf a0 a1 a2 a3 a4) := by
  unfold setBuf
  repeat' with_reducible first
    | exact h | apply setRout_ordered
theorem bufPush_ordered {a0} {a1} {a2} {a3} (h : Ordered a0) : Ordered (bufPush a0 a1 a2 a3) := by
  unfold bufPush
  repeat' with_reducible first
    | exact h | apply setBuf_ordered
theorem swPush_ordered {a0} {a1} {a2} {a3} (h : Ordered a0) : Ordered (swPush a0 a1 a2 a3) := by
  unfold swPush
  repeat' with_reducible first
    | exact h | apply setNet_ordered
theorem sendFrom_ordered {a0} {a1} {a2} {a3} (h : Ordered a0) : Ordered (sendFrom a0 a1 a2 a3) := by
  unfold sendFrom
  repeat' with_reducible first
    | exact h | apply epAdd_ordered | apply bufPush_ordered | apply swPush_ordered | apply Ordered.ite
theorem sliceAnswer_ordered {a0} {a1} {a2} {a3} {a4} {a5} (h : Ordered a0) : Ordered (sliceAnswer a0 a1 a2 a3 a4 a5) := by
  unfold sliceAnswer
  repeat' first
    | with_reducible first
        | exact h | apply sendFrom_ordered
    | split
theorem unqueue_ordered {a0} {a1} {a2} {a3} (h : Ordered a0) : Ordered (unqueue a0 a1 a2 a3) := by
  unfold unqueue
  repeat' with_reducible first
    | exact h | apply setSlice_ordered
theorem readServe_ordered {a0} {a1} {a2} {a3} {a4} {a5} (h : Ordered a0) : Ordered (readServe a0 a1 a2 a3 a4 a5) := by
  unfold readServe
  repeat' with_reducible first
    | exact h | apply blockRead_ordered | apply noteErr_ordered | apply sliceAnswer_ordered | apply unqueue_ordered | apply Ordered.folds
theorem memWriteAt_ordered {a0} {a1} {a2} {a3} (h : Ordered a0) : Ordered (memWriteAt a0 a1 a2 a3) := by
  unfold memWriteAt
  repeat' with_reducible first
    | assumption | apply setErr_ordered | apply setPoison_ordered | (intro _) | apply Ordered.folds | apply Ordered.upd h
theorem mirror_ordered {a0} {a1} {a2} {a3} (h : Ordered a0) : Ordered (mirror a0 a1 a2 a3) := by
  unfold mirror
  repeat' with_reducible first
    | exact h | assumption | apply bump_ordered | apply memWriteAt_ordered | (intro _) | apply Ordered.ite | apply Ordered.folds
theorem markDirect_ordered {a0} {a1} {a2} (h : Ordered a0) : Ordered (markDirect a0 a1 a2) := by
  unfold markDirect
  repeat' with_reducible first
    | exact h | apply setSlice_ordered | apply Ordered.ite
theorem writeServe_ordered {a0} {a1} {a2} {a3} {a4} (h : Ordered a0) : Ordered (writeServe a0 a1 a2 a3 a4) := by
  unfold writeServe
  repeat' with_reducible first
    | exact h | apply blockRead_ordered | apply noteErr_ordered | apply memWriteAt_ordered | apply mirror_ordered | apply markDirect_ordered
    | apply sliceAnswer_ordered | apply unqueue_ordered | apply Ordered.folds
theorem serveOne_ordered {a0} {a1} (h : Ordered a0) : Ordered (serveOne a0 a1) := by
  unfold serveOne
  repeat' first
    | with_reducible first
        | exact h | apply readServe_ordered | apply writeServe_ordered | apply Ordered.ite
    | (dsimp only; split)
theorem serveAll_ordered {a0} {a1} (h : Ordered a0) : Ordered (serveAll a0 a1) := by
  unfold serveAll
  repeat' with_reducible first
    | exact h | apply serveOne_ordered | (intro _) | apply Ordered.folds
theorem settle_ordered {a0} {a1} {a2} (h : Ordered a0) : Ordered (settle a0 a1 a2) := by
  unfold settle
  repeat' with_reducible first
    | exact h | apply serveAll_ordered | apply Ordered.ite
theorem setPort_ordered {a0} {a1} {a2} (h : Ordered a0) : Ordered (setPort a0 a1 a2) := by
  unfold setPort
  repeat' with_reducible apply Ordered.upd h
theorem twinSend_ordered {a0} {a1} {a2} (h : Ordered a0) : Ordered (twinSend a0 a1 a2) := by
  unfold twinSend
  repeat' with_reducible first
    | exact h | apply setPort_ordered
theorem sendJ_ordered {a0} {a1} {a2} (h : Ordered a0) : Ordered (sendJ a0 a1 a2) := by
  unfold sendJ
  repeat' first
    | with_reducible first
        | exact h | apply twinSend_ordered | apply bump_ordered
    | (dsimp only; split)
theorem setStream_ordered {a0} {a1} {a2} (h : Ordered a0) : Ordered (setStream a0 a1 a2) := by
  unfold setStream
  repeat' with_reducible apply Ordered.upd h
theorem journalAdd_ordered {a0} {a1} {a2} (h : Ordered a0) : Ordered (journalAdd a0 a1 a2) := by
  unfold journalAdd
  repeat' with_reducible first
    | exact h | apply sendJ_ordered | apply setStream_ordered
theorem journalWrite_ordered {a0} {a1} {a2} {a3} {a4} (h : Ordered a0) : Ordered (journalWrite a0 a1 a2 a3 a4) := by
  unfold journalWrite
  repeat' with_reducible first
    | exact h | apply journalAdd_ordered | apply Ordered.ite
theorem memApply_ordered {a0} {a1} {a2} {a3} {a4} {a5} (h : Ordered a0) : Ordered (memApply a0 a1 a2 a3 a4 a5) := by
  unfold memApply
  repeat' with_reducible first
    | exact h | apply bump_ordered | apply settle_ordered | apply journalWrite_ordered | apply blockRead_ordered | apply mirror_ordered | apply markDirect_ordered
    | apply memWriteAt_ordered | apply Ordered.folds
theorem memWrite_ordered {a0} {a1} {a2} {a3} {a4} {a5} (h : Ordered a0) : Ordered (memWrite a0 a1 a2 a3 a4 a5) := by
  unfold memWrite
  repeat' with_reducible first
    | exact h | apply setSlice_ordered | apply memApply_ordered | apply Ordered.ite
theorem rewriteRange_ordered {a0} {a1} {a2} {a3} {a4} (h : Ordered a0) : Ordered (rewriteRange a0 a1 a2 a3 a4) := by
  unfold rewriteRange
  repeat' with_reducible first
    | exact h | assumption | apply memWrite_ordered | (intro _) | apply Ordered.ite | apply Ordered.folds
theorem signpostUpdate_ordered {a0} {a1} (h : Ordered a0) : Ordered (signpostUpdate a0 a1) := by
  unfold signpostUpdate
  repeat' with_reducible first
    | exact h | apply takeEnd_ordered | apply rewriteRange_ordered | apply Ordered.ite | apply Ordered.upd
theorem setTwin_ordered {a0} {a1} (h : Ordered a0) : Ordered (setTwin a0 a1) := by
  unfold setTwin
  repeat' with_reducible apply Ordered.upd h
theorem setPst_ordered {a0} {a1} (h : Ordered a0) : Ordered (setPst a0 a1) := by
  unfold setPst
  repeat' with_reducible first
    | exact h | apply fdSet_ordered
theorem setHub_ordered {a0} {a1} (h : Ordered a0) : Ordered (setHub a0 a1) := by
  unfold setHub
  repeat' with_reducible apply Ordered.upd h
theorem pktErr_ordered {a0} {a1} {a2} {a3} {a4} {a5} (h : Ordered a0) : Ordered (pktErr a0 a1 a2 a3 a4 a5) := by
  unfold pktErr
  repeat' with_reducible first
    | exact h | apply raiseInt_ordered | apply errAt_ordered
theorem xAdd_ordered {a0} {a1} {a2} {a3} (h : Ordered a0) : Ordered (xAdd a0 a1 a2 a3) := by
  unfold xAdd
  repeat' with_reducible first
    | exact h | apply wr_ordered
theorem xepDrop_ordered {a0} {a1} {a2} {a3} {a4} {a5} (h : Ordered a0) : Ordered (xepDrop a0 a1 a2 a3 a4 a5) := by
  unfold xepDrop
  repeat' with_reducible first
    | exact h | apply pktErr_ordered | apply bump_ordered | apply xAdd_ordered | apply Ordered.ite
theorem xDrop_ordered {a0} {a1} {a2} (h : Ordered a0) : Ordered (xDrop a0 a1 a2) := by
  unfold xDrop
  repeat' with_reducible first
    | exact h | apply xAdd_ordered | apply Ordered.ite
theorem noRoute_ordered {a0} {a1} {a2} (h : Ordered a0) : Ordered (noRoute a0 a1 a2) := by
  unfold noRoute
  repeat' with_reducible first
    | exact h | apply pktErr_ordered | apply bump_ordered | apply xDrop_ordered
theorem routeOut_ordered {a0} {a1} {a2} {a3} {a4} {a5} {a6} (h : Ordered a0) : Ordered (routeOut a0 a1 a2 a3 a4 a5 a6) := by
  unfold routeOut
  repeat' with_reducible first
    | exact h | apply bump_ordered | apply xAdd_ordered | apply setPort_ordered | apply Ordered.ite
theorem routeControl_ordered {a0} {a1} {a2} {a3} (h : Ordered a0) : Ordered (routeControl a0 a1 a2 a3) := by
  unfold routeControl
  repeat' first
    | with_reducible first
        | exact h | apply xepDrop_ordered | apply noRoute_ordered | apply routeOut_ordered | apply bump_ordered | apply Ordered.ite
    | split
theorem controlSend_ordered {a0} {a1} (h : Ordered a0) : Ordered (controlSend a0 a1) := by
  unfold controlSend
  repeat' with_reducible first
    | exact h | apply routeControl_ordered | apply Ordered.ite
theorem noticeSend_ordered {a0} {a1} (h : Ordered a0) : Ordered (noticeSend a0 a1) := by
  unfold noticeSend
  repeat' with_reducible first
    | exact h | apply send_ordered | apply controlSend_ordered
theorem postNotice_ordered {a0} {a1} (h : Ordered a0) : Ordered (postNotice a0 a1) := by
  unfold postNotice
  repeat' with_reducible first
    | exact h | apply setHub_ordered | apply noticeSend_ordered | apply Ordered.ite
theorem postAll_ordered {a0} {a1} {a2} (h : Ordered a0) : Ordered (postAll a0 a1 a2) := by
  unfold postAll
  repeat' with_reducible first
    | exact h | apply postNotice_ordered | (intro _) | apply Ordered.folds
theorem twinRefused_ordered {a0} {a1} {a2} {a3} (h : Ordered a0) : Ordered (twinRefused a0 a1 a2 a3) := by
  unfold twinRefused
  repeat' with_reducible first
    | exact h | apply raiseInt_ordered | apply errAt_ordered | apply bump_ordered
theorem denyFabric_ordered {a0} {a1} (h : Ordered a0) : Ordered (denyFabric a0 a1) := by
  unfold denyFabric
  repeat' with_reducible first
    | exact h | apply bump_ordered | apply Ordered.ite
theorem reqRefused_ordered {a0} {a1} {a2} {a3} (h : Ordered a0) : Ordered (reqRefused a0 a1 a2 a3) := by
  unfold reqRefused
  repeat' with_reducible first
    | exact h | apply raiseInt_ordered | apply errAt_ordered | apply bump_ordered | apply denyFabric_ordered | apply Ordered.ite
theorem applyRec_ordered {a0} {a1} {a2} (h : Ordered a0) : Ordered (applyRec a0 a1 a2) := by
  unfold applyRec
  repeat' with_reducible first
    | exact h | apply twinRefused_ordered | apply reqRefused_ordered | apply bump_ordered | apply settle_ordered | apply blockRead_ordered | apply mirror_ordered
    | apply markDirect_ordered | apply memWriteAt_ordered | apply Ordered.ite | apply Ordered.folds
theorem shadowApply_ordered {a0} {a1} (h : Ordered a0) : Ordered (shadowApply a0 a1) := by
  unfold shadowApply
  repeat' with_reducible first
    | exact h | assumption | apply applyRec_ordered | apply setStream_ordered | apply fdSet_ordered | (intro _) | apply Ordered.ite | apply Ordered.folds
theorem bindCore_ordered {a0} {a1} {a2} {a3} (h : Ordered a0) : Ordered (bindCore a0 a1 a2 a3) := by
  unfold bindCore
  repeat' with_reducible first
    | exact h | apply wr_ordered | (intro _) | apply Ordered.ite | apply Ordered.folds
theorem signPut_ordered {a0} {a1} {a2} (h : Ordered a0) : Ordered (signPut a0 a1 a2) := by
  unfold signPut
  repeat' with_reducible first
    | exact h | apply memWrite_ordered | (intro _) | apply Ordered.folds
theorem setCtx_ordered {a0} {a1} {a2} (h : Ordered a0) : Ordered (setCtx a0 a1 a2) := by
  unfold setCtx
  repeat' with_reducible first
    | exact h | apply setHub_ordered
theorem signpostInvalidate_ordered {a0} {a1} {a2} (h : Ordered a0) : Ordered (signpostInvalidate a0 a1 a2) := by
  unfold signpostInvalidate
  repeat' with_reducible first
    | exact h | apply Ordered.ite | apply Ordered.upd h
theorem invalAll_ordered {a0} (h : Ordered a0) : Ordered (invalAll a0) := by
  unfold invalAll
  repeat' with_reducible first
    | exact h | apply signpostInvalidate_ordered
theorem swapPlan_ordered {a0} {a1} {a2} (h : Ordered a0) : Ordered (swapPlan a0 a1 a2) := by
  unfold swapPlan
  repeat' with_reducible first
    | exact h | assumption | apply wr_ordered | apply bindCore_ordered | apply signPut_ordered | apply setCtx_ordered | apply invalAll_ordered | (intro _)
    | apply Ordered.ite | apply Ordered.folds
theorem sendUpdate_ordered {a0} {a1} {a2} {a3} {a4} {a5} {a6} (h : Ordered a0) : Ordered (sendUpdate a0 a1 a2 a3 a4 a5 a6) := by
  unfold sendUpdate
  repeat' with_reducible first
    | exact h | apply send_ordered | apply controlSend_ordered
theorem claimEns_ordered {a0} {a1} {a2} {a3} {a4} (h : Ordered a0) : Ordered (claimEns a0 a1 a2 a3 a4) := by
  unfold claimEns
  repeat' with_reducible first
    | exact h | assumption | apply signPut_ordered | apply invalAll_ordered | apply sendUpdate_ordered | (intro _) | apply Ordered.ite | apply Ordered.folds
theorem takeover_ordered {a0} (h : Ordered a0) : Ordered (takeover a0) := by
  unfold takeover
  repeat' first
    | with_reducible first
        | exact h | assumption | apply setPst_ordered | apply postAll_ordered | apply shadowApply_ordered | apply setStream_ordered | apply fdSet_ordered
        | apply swapPlan_ordered | apply claimEns_ordered | apply wr_ordered | apply bindCore_ordered | apply setCtx_ordered | (intro _) | apply Ordered.ite
        | apply Ordered.folds
    | split
theorem declareLost_ordered {a0} (h : Ordered a0) : Ordered (declareLost a0) := by
  unfold declareLost
  repeat' first
    | with_reducible first
        | exact h | assumption | apply raiseInt_ordered | apply errAt_ordered | apply setTwin_ordered | apply takeover_ordered | apply setPst_ordered
        | apply postAll_ordered | (intro _) | apply Ordered.ite | apply Ordered.folds
    | split
theorem periodMissed_ordered {a0} {a1} (h : Ordered a0) : Ordered (periodMissed a0 a1) := by
  unfold periodMissed
  repeat' with_reducible first
    | exact h | assumption | apply bump_ordered | apply setTwin_ordered | apply declareLost_ordered | apply twinSend_ordered | apply postNotice_ordered
    | (intro _) | apply Ordered.ite | apply Ordered.folds
theorem setHandle_ordered {a0} {a1} {a2} {a3} (h : Ordered a0) : Ordered (setHandle a0 a1 a2 a3) := by
  unfold setHandle
  repeat' with_reducible first
    | exact h | apply setQe_ordered
theorem handleClose_ordered {a0} {a1} {a2} {a3} (h : Ordered a0) : Ordered (handleClose a0 a1 a2 a3) := by
  unfold handleClose
  repeat' with_reducible first
    | exact h | apply setHandle_ordered | apply noticeOut_ordered | apply Ordered.ite
theorem setHost_ordered {a0} {a1} (h : Ordered a0) : Ordered (setHost a0 a1) := by
  unfold setHost
  repeat' with_reducible apply Ordered.upd h
theorem msixWrite_ordered {a0} {a1} {a2} (h : Ordered a0) : Ordered (msixWrite a0 a1 a2) := by
  unfold msixWrite
  repeat' with_reducible first
    | exact h | apply setHost_ordered | apply send_ordered | apply bump_ordered | apply Ordered.ite
theorem hostBad_ordered {a0} {a1} {a2} {a3} {a4} (h : Ordered a0) : Ordered (hostBad a0 a1 a2 a3 a4) := by
  unfold hostBad
  repeat' with_reducible first
    | exact h | apply raiseInt_ordered | apply errAt_ordered
theorem accessRange_ordered {a0} {a1} {a2} {a3} (h : Ordered a0) : Ordered (accessRange a0 a1 a2 a3) := by
  unfold accessRange
  repeat' first
    | with_reducible first
        | exact h | apply hostBad_ordered | apply errAt_ordered
    | split
theorem mgmtDenied_ordered {a0} {a1} (h : Ordered a0) : Ordered (mgmtDenied a0 a1) := by
  unfold mgmtDenied
  repeat' with_reducible first
    | exact h | apply raiseInt_ordered | apply errAt_ordered
theorem accessDenied_ordered {a0} {a1} {a2} {a3} {a4} (h : Ordered a0) : Ordered (accessDenied a0 a1 a2 a3 a4) := by
  unfold accessDenied
  repeat' first
    | with_reducible first
        | exact h | apply hostBad_ordered | apply bump_ordered | apply mgmtDenied_ordered | apply errAt_ordered | apply denyFabric_ordered
    | split
theorem rangeAt_ordered {a0} {a1} {a2} (h : Ordered a0) : Ordered (rangeAt a0 a1 a2) := by
  unfold rangeAt
  repeat' with_reducible first
    | exact h | apply errAt_ordered
theorem closedWrite_ordered {a0} {a1} {a2} {a3} {a4} {a5} (h : Ordered a0) : Ordered (closedWrite a0 a1 a2 a3 a4 a5).1 := by
  unfold closedWrite
  repeat' first
    | with_reducible first
        | exact h | apply accessDenied_ordered | apply rangeAt_ordered
    | split
    | (dsimp only; split)
theorem writeOutcome_ordered {a0} {a1} {a2} (h : Ordered a0) (h2 : ∀ s, Ordered s → Ordered (a2 s)) : Ordered (writeOutcome a0 a1 a2).1 := by
  unfold writeOutcome
  repeat' with_reducible first
    | exact h | apply h2
theorem withMirror_ordered {a0} {a1} {a2} (h : Ordered a0) (h2 : ∀ s x, Ordered s → Ordered (a2 s x)) : Ordered (withMirror a0 a1 a2) := by
  unfold withMirror
  repeat' first
    | with_reducible first
        | exact h | apply h2
    | split
theorem cvBind_ordered {a0} {a1} {a2} {a3} (h : Ordered a0) : Ordered (cvBind a0 a1 a2 a3) := by
  unfold cvBind
  repeat' with_reducible first
    | exact h | apply closeSettle_ordered | apply setChan_ordered | apply chClose_ordered | apply qErr_ordered | apply setHandle_ordered | apply Ordered.ite
theorem bankRefused_ordered {a0} {a1} {a2} {a3} (h : Ordered a0) : Ordered (bankRefused a0 a1 a2 a3) := by
  unfold bankRefused
  repeat' with_reducible first
    | exact h | apply raiseInt_ordered | apply errAt_ordered
theorem repCommit_ordered {a0} {a1} {a2} {a3} (h : Ordered a0) : Ordered (repCommit a0 a1 a2 a3) := by
  unfold repCommit
  repeat' with_reducible first
    | exact h | apply bankRefused_ordered | apply setRout_ordered | apply Ordered.ite
theorem placementWrite_ordered {a0} {a1} {a2} {a3} {a4} (h : Ordered a0) : Ordered (placementWrite a0 a1 a2 a3 a4) := by
  unfold placementWrite
  repeat' with_reducible first
    | exact h | apply fdSet_ordered | apply bankRefused_ordered | apply raiseInt_ordered | apply errAt_ordered | apply wr_ordered | apply Ordered.ite
theorem setRing_ordered {a0} {a1} {a2} (h : Ordered a0) : Ordered (setRing a0 a1 a2) := by
  unfold setRing
  repeat' with_reducible first
    | exact h | apply setHost_ordered
theorem ringAddr_ordered {a0} {a1} {a2} {a3} (h : Ordered a0) : Ordered (ringAddr a0 a1 a2 a3).1 := by
  unfold ringAddr
  repeat' first
    | with_reducible first
        | exact h | apply setRing_ordered
    | split
    | (dsimp only; split)
theorem notReadyAt_ordered {a0} {a1} {a2} (h : Ordered a0) : Ordered (notReadyAt a0 a1 a2) := by
  unfold notReadyAt
  repeat' with_reducible first
    | exact h | apply errAt_ordered
theorem pairReg_ordered {a0} {a1} {a2} {a3} {a4} (h : Ordered a0) : Ordered (pairReg a0 a1 a2 a3 a4) := by
  unfold pairReg
  repeat' first
    | with_reducible first
        | exact h | apply cvBind_ordered | apply repCommit_ordered | apply wr_ordered | apply placementWrite_ordered | apply rangeAt_ordered
        | apply ringAddr_ordered | apply notReadyAt_ordered | apply Ordered.ite
    | split
theorem clusRefused_ordered {a0} {a1} {a2} (h : Ordered a0) : Ordered (clusRefused a0 a1 a2) := by
  unfold clusRefused
  repeat' with_reducible first
    | exact h | apply raiseInt_ordered | apply errAt_ordered
theorem headerReg_ordered {a0} {a1} {a2} {a3} {a4} (h : Ordered a0) : Ordered (headerReg a0 a1 a2 a3 a4) := by
  unfold headerReg
  repeat' first
    | with_reducible first
        | exact h | apply irqEdge_ordered | apply wr_ordered | apply Ordered.ite | apply twf_tput
    | split
    | with_reducible first
        | apply Ordered.caps | apply Ordered.updCaps
theorem seqRun_ordered {a0} {a1} (h : Ordered a0) : Ordered (seqRun a0 a1) := by
  unfold seqRun
  repeat' with_reducible first
    | exact h | apply setSeq_ordered | apply setSeqSt_ordered | apply setPc_ordered | apply Ordered.ite
theorem seqHalt_ordered {a0} {a1} (h : Ordered a0) : Ordered (seqHalt a0 a1) := by
  unfold seqHalt
  repeat' with_reducible first
    | exact h | apply setSeqSt_ordered | apply Ordered.ite
theorem seqStepOne_ordered {a0} {a1} (h : Ordered a0) : Ordered (seqStepOne a0 a1) := by
  unfold seqStepOne
  repeat' with_reducible first
    | exact h | apply setSeq_ordered | apply seqIssue_ordered | apply fdSet_ordered | apply setSeqSt_ordered | apply Ordered.ite
theorem seqCtlWrite_ordered {a0} {a1} {a2} {a3} {a4} (h : Ordered a0) : Ordered (seqCtlWrite a0 a1 a2 a3 a4) := by
  unfold seqCtlWrite
  repeat' with_reducible first
    | exact h | apply fdSet_ordered | apply seqRun_ordered | apply seqHalt_ordered | apply seqStepOne_ordered | apply Ordered.ite
theorem setMile_ordered {a0} {a1} {a2} (h : Ordered a0) : Ordered (setMile a0 a1 a2) := by
  unfold setMile
  repeat' first
    | with_reducible first
        | exact h | apply fdSet_ordered | apply setCore_ordered | apply Ordered.ite
    | (refine SpadOrdered.of2 (Ordered.core ?_ _) rfl rfl)
theorem wakeCause_ordered {a0} {a1} {a2} (h : Ordered a0) : Ordered (wakeCause a0 a1 a2) := by
  unfold wakeCause
  repeat' with_reducible first
    | exact h | apply setSeq_ordered
theorem mboxIn_ordered {a0} {a1} {a2} (h : Ordered a0) : Ordered (mboxIn a0 a1 a2) := by
  unfold mboxIn
  repeat' with_reducible first
    | exact h | apply setSeq_ordered | apply wakeCause_ordered
theorem coreReg_ordered {a0} {a1} {a2} {a3} {a4} (h : Ordered a0) : Ordered (coreReg a0 a1 a2 a3 a4) := by
  unfold coreReg
  repeat' first
    | with_reducible first
        | exact h | apply seqCtlWrite_ordered | apply wr_ordered | apply setMile_ordered | apply mboxIn_ordered
    | split
theorem cfgCheck_ordered {a0} {a1} {a2} (h : Ordered a0) : Ordered (cfgCheck a0 a1 a2) := by
  unfold cfgCheck
  repeat' with_reducible first
    | exact h | apply startCheck_ordered | apply Ordered.ite
theorem flowErr_ordered {a0} {a1} {a2} {a3} {a4} {a5} (h : Ordered a0) : Ordered (flowErr a0 a1 a2 a3 a4 a5) := by
  unfold flowErr
  repeat' first
    | with_reducible first
        | exact h | apply errAt_ordered | apply raiseInt_ordered
    | split
theorem activeRefused_ordered {a0} {a1} {a2} (h : Ordered a0) : Ordered (activeRefused a0 a1 a2) := by
  unfold activeRefused
  repeat' with_reducible first
    | exact h | apply flowErr_ordered
theorem imgGo_ordered {a0} {a1} {a2} (h : Ordered a0) : Ordered (imgGo a0 a1 a2) := by
  unfold imgGo
  repeat' with_reducible first
    | exact h | apply activeRefused_ordered | apply setFab_ordered | apply fdSet_ordered | apply rangeAsk_ordered | apply Ordered.ite
theorem setBufWord_ordered {a0} {a1} {a2} {a3} {a4} (h : Ordered a0) : Ordered (setBufWord a0 a1 a2 a3 a4) := by
  unfold setBufWord
  repeat' first
    | with_reducible first
        | exact h | apply wr_ordered | apply setCore_ordered | apply fdSet_ordered | apply Ordered.ite
    | (refine SpadOrdered.of2 (Ordered.core ?_ _) rfl rfl)
theorem winStep_ordered {a0} {a1} (h : Ordered a0) : Ordered (winStep a0 a1) := by
  unfold winStep
  repeat' with_reducible first
    | exact h | apply fdSet_ordered | apply Ordered.ite
theorem winWrite_ordered {a0} {a1} {a2} (h : Ordered a0) : Ordered (winWrite a0 a1 a2) := by
  unfold winWrite
  repeat' with_reducible first
    | exact h | apply activeRefused_ordered | apply setBufWord_ordered | apply winStep_ordered | apply Ordered.ite
theorem booksCheck_ordered {a0} {a1} {a2} (h : Ordered a0) : Ordered (booksCheck a0 a1 a2) := by
  unfold booksCheck
  repeat' with_reducible first
    | exact h | apply report_ordered | apply flowErr_ordered | apply Ordered.ite
theorem linkSnapshot_ordered {a0} {a1} {a2} (h : Ordered a0) : Ordered (linkSnapshot a0 a1 a2) := by
  unfold linkSnapshot
  repeat' with_reducible first
    | exact h | apply booksCheck_ordered | apply wr_ordered
theorem gridClear_ordered {a0} {a1} (h : Ordered a0) : Ordered (gridClear a0 a1) := by
  unfold gridClear
  repeat' with_reducible first
    | exact h | apply wr64_ordered | apply wr_ordered | (intro _) | apply Ordered.folds
theorem arrCfgWrite_ordered {a0} {a1} {a2} {a3} (h : Ordered a0) : Ordered (arrCfgWrite a0 a1 a2 a3) := by
  unfold arrCfgWrite
  repeat' with_reducible first
    | exact h | apply activeRefused_ordered | apply setBufWord_ordered | apply Ordered.ite
theorem flowReg_ordered {a0} {a1} {a2} {a3} {a4} (h : Ordered a0) : Ordered (flowReg a0 a1 a2 a3 a4) := by
  unfold flowReg
  repeat' first
    | with_reducible first
        | exact h | apply cfgCheck_ordered | apply imgGo_ordered | apply winWrite_ordered | apply linkSnapshot_ordered | apply wr_ordered
        | apply gridClear_ordered | apply arrCfgWrite_ordered | apply Ordered.ite
    | split
theorem bankRetarget_ordered {a0} {a1} {a2} (h : Ordered a0) : Ordered (bankRetarget a0 a1 a2) := by
  unfold bankRetarget
  repeat' first
    | with_reducible first
        | exact h | apply setBank_ordered | apply setCore_ordered | apply Ordered.ite
    | (refine SpadOrdered.of2 (Ordered.core ?_ _) rfl rfl)

end Sys2Proof.Machine
end

