-- ==== Sys2Proof/Laws/Ordered2.lean ====
section
/-! SUPPORT. The tables every shared operation keeps in rising order: continued from Ordered.lean, callees before callers. -/
namespace Sys2Proof.Machine
open Sys2Proof
set_option Elab.async false

theorem writeStat_ordered {a0} {a1} {a2} (h : Ordered a0) : Ordered (writeStat a0 a1 a2) := by
  unfold writeStat
  repeat' with_reducible first
    | exact h | apply spadWrite_ordered | apply setQe_ordered | apply Ordered.ite
theorem serveStats_ordered {a0} {a1} (h : Ordered a0) : Ordered (serveStats a0 a1) := by
  unfold serveStats
  repeat' with_reducible first
    | exact h | apply writeStat_ordered | (intro _) | apply Ordered.folds
theorem extAnswer_ordered {a0} {a1} (h : Ordered a0) : Ordered (extAnswer a0 a1) := by
  unfold extAnswer
  repeat' with_reducible first
    | exact h | apply send_ordered | apply Ordered.ite
theorem extRun_ordered {a0 : State} {a1} {a2 : ExtAcc} {a3} (h : Ordered a0) : Ordered (extRun a0 a1 a2 a3) := by
  induction a3 generalizing a0 a2 with
  | nil => exact extAnswer_ordered h
  | cons i l ih =>
    unfold extRun
    dsimp only
    split
    · split <;> rename_i e
      · exact setCore_ordered (Ordered.fst e (spadWrite_ordered h)) (SpadOrdered.of2 (Ordered.core (Ordered.fst e (spadWrite_ordered h)) _) rfl rfl)
      · exact ih (errAt_ordered (Ordered.fst e (spadWrite_ordered h)))
      · exact ih (Ordered.fst e (spadWrite_ordered h))
    · split <;> rename_i e
      · exact setCore_ordered (Ordered.fst e (spadRead_ordered h)) (SpadOrdered.of2 (Ordered.core (Ordered.fst e (spadRead_ordered h)) _) rfl rfl)
      · exact ih (Ordered.fst e (spadRead_ordered h))
      · exact ih (Ordered.fst e (spadRead_ordered h))
theorem extSpad_ordered {a0} {a1} {a2} (h : Ordered a0) : Ordered (extSpad a0 a1 a2) := by
  unfold extSpad
  repeat' with_reducible first
    | exact h | apply extRun_ordered
theorem spadServe_ordered {a0} {a1} (h : Ordered a0) : Ordered (spadServe a0 a1) := by
  unfold spadServe
  repeat' first
    | with_reducible first
        | exact h | apply serveStats_ordered | apply setCore_ordered | apply extSpad_ordered | (intro _) | apply Ordered.folds
    | (refine SpadOrdered.of2 (Ordered.core ?_ _) rfl rfl)
theorem regionWrite_ordered {a0} {a1} {a2} {a3} (h : Ordered a0) : Ordered (regionWrite a0 a1 a2 a3) := by
  unfold regionWrite
  repeat' first
    | with_reducible first
        | exact h | apply wr_ordered | apply setCore_ordered | apply spadServe_ordered | apply Ordered.ite | apply Ordered.core | apply SpadOrdered.ite
    | split
    | (refine SpadOrdered.of2 (Ordered.core ?_ _) rfl rfl)
theorem spadReg_ordered {a0} {a1} {a2} {a3} (h : Ordered a0) : Ordered (spadReg a0 a1 a2 a3) := by
  unfold spadReg
  repeat' with_reducible first
    | exact h | apply wr_ordered | apply bankRetarget_ordered | apply regionWrite_ordered | (intro _) | apply Ordered.ite | apply Ordered.folds
theorem chSnapshot_ordered {a0} {a1} {a2} (h : Ordered a0) : Ordered (chSnapshot a0 a1 a2) := by
  unfold chSnapshot
  repeat' with_reducible first
    | exact h | apply wr_ordered
theorem hdSnapshot_ordered {a0} {a1} {a2} (h : Ordered a0) : Ordered (hdSnapshot a0 a1 a2) := by
  unfold hdSnapshot
  repeat' with_reducible first
    | exact h | apply wr_ordered
theorem qeRelease_ordered {a0} {a1} {a2} (h : Ordered a0) : Ordered (qeRelease a0 a1 a2) := by
  unfold qeRelease
  repeat' first
    | with_reducible first
        | exact h | assumption | apply rangeAsk_ordered | apply setQe_ordered | apply rangeRelease_ordered | (intro _) | apply Ordered.folds
    | with_reducible refine Ordered.fst (by assumption) ?_
    | split
theorem jFwdEnd_ordered {a0} {a1} {a2} {a3} (h : Ordered a0) : Ordered (jFwdEnd a0 a1 a2 a3) := by
  unfold jFwdEnd
  repeat' with_reducible first
    | exact h | apply jRelease_ordered | apply setSlot_ordered
theorem outcomeToSource_ordered {a0} {a1} {a2} {a3} (h : Ordered a0) : Ordered (outcomeToSource a0 a1 a2 a3) := by
  unfold outcomeToSource
  repeat' first
    | with_reducible first
        | exact h | apply setOutcome_ordered | apply setQe_ordered | apply jFwdEnd_ordered | apply qErr_ordered | apply Ordered.ite
    | split
theorem endMsg_ordered {a0} {a1} {a2} {a3} (h : Ordered a0) : Ordered (endMsg a0 a1 a2 a3) := by
  unfold endMsg
  repeat' with_reducible first
    | exact h | apply setQe_ordered | apply qeRelease_ordered | apply bump_ordered | apply qErr_ordered | apply outcomeToSource_ordered | apply Ordered.ite
theorem endAll_ordered {a0} {a1} {a2} {a3} (h : Ordered a0) : Ordered (endAll a0 a1 a2 a3) := by
  fun_induction endAll
  repeat' with_reducible first
    | exact h | apply endMsg_ordered | apply_assumption
theorem qFlush_ordered {a0} {a1} (h : Ordered a0) : Ordered (qFlush a0 a1) := by
  unfold qFlush
  repeat' with_reducible first
    | exact h | apply endAll_ordered | apply setQe_ordered
theorem qSnapshot_ordered {a0} {a1} {a2} (h : Ordered a0) : Ordered (qSnapshot a0 a1 a2) := by
  unfold qSnapshot
  repeat' with_reducible first
    | exact h | apply wr_ordered
theorem jSnapshot_ordered {a0} {a1} {a2} (h : Ordered a0) : Ordered (jSnapshot a0 a1 a2) := by
  unfold jSnapshot
  repeat' with_reducible first
    | exact h | apply wr_ordered
theorem slotRefuse_ordered {a0} {a1} {a2} {a3} (h : Ordered a0) : Ordered (slotRefuse a0 a1 a2 a3) := by
  unfold slotRefuse
  repeat' with_reducible first
    | exact h | apply qErr_ordered
theorem writeSlotReg_ordered {a0} {a1} {a2} {a3} {a4} (h : Ordered a0) : Ordered (writeSlotReg a0 a1 a2 a3 a4) := by
  unfold writeSlotReg
  repeat' with_reducible first
    | exact h | apply slotRefuse_ordered | apply setSlot_ordered | apply wr_ordered | apply Ordered.ite
theorem jDropAccum_ordered {a0} {a1} {a2} (h : Ordered a0) : Ordered (jDropAccum a0 a1 a2) := by
  unfold jDropAccum
  repeat' with_reducible first
    | exact h | assumption | apply bumpBy_ordered | apply setSlot_ordered | (intro _) | apply Ordered.ite | apply Ordered.folds
theorem closeHandles_ordered {a0} {a1} {a2} (h : Ordered a0) : Ordered (closeHandles a0 a1 a2) := by
  unfold closeHandles
  repeat' with_reducible first
    | exact h | assumption | apply noticeOut_ordered | apply setHandle_ordered | (intro _) | apply Ordered.folds
theorem writeSlotCfg_ordered {a0} {a1} {a2} {a3} (h : Ordered a0) : Ordered (writeSlotCfg a0 a1 a2 a3) := by
  unfold writeSlotCfg
  repeat' with_reducible first
    | exact h | apply slotRefuse_ordered | apply wr_ordered | apply setSlot_ordered | apply writeStat_ordered | apply jDropAccum_ordered
    | apply closeHandles_ordered | apply Ordered.ite
theorem qengReg_ordered {a0} {a1} {a2} {a3} {a4} (h : Ordered a0) : Ordered (qengReg a0 a1 a2 a3 a4) := by
  unfold qengReg
  repeat' first
    | with_reducible first
        | exact h | apply chSnapshot_ordered | apply wr_ordered | apply hdSnapshot_ordered | apply fdSet_ordered | apply qFlush_ordered | apply qSnapshot_ordered
        | apply jSnapshot_ordered | apply writeSlotReg_ordered | apply writeSlotCfg_ordered | apply Ordered.ite
    | split
theorem bankFields_ordered {a0} {a1} {a2} {a3} (h : Ordered a0) : Ordered (bankFields a0 a1 a2 a3) := by
  unfold bankFields
  repeat' with_reducible first
    | exact h | assumption | apply bankRefused_ordered | apply wr_ordered | (intro _) | apply Ordered.ite | apply Ordered.folds
theorem portSnapshot_ordered {a0} {a1} {a2} (h : Ordered a0) : Ordered (portSnapshot a0 a1 a2) := by
  unfold portSnapshot
  repeat' with_reducible first
    | exact h | apply wr_ordered
theorem cacheDrop_ordered {a0} {a1} {a2} (h : Ordered a0) : Ordered (cacheDrop a0 a1 a2) := by
  unfold cacheDrop
  repeat' with_reducible first
    | exact h | apply setRout_ordered
theorem routReg_ordered {a0} {a1} {a2} {a3} {a4} (h : Ordered a0) : Ordered (routReg a0 a1 a2 a3 a4) := by
  unfold routReg
  repeat' first
    | with_reducible first
        | exact h | apply bankFields_ordered | apply portSnapshot_ordered | apply wr_ordered | apply cacheDrop_ordered | apply Ordered.ite
    | split
theorem retargetAll_ordered {a0} {a1} {a2} (h : Ordered a0) : Ordered (retargetAll a0 a1 a2) := by
  fun_induction retargetAll
  repeat' with_reducible first
    | exact h | assumption | apply bankRetarget_ordered
theorem setCstate_ordered {a0} {a1} {a2} (h : Ordered a0) : Ordered (setCstate a0 a1 a2) := by
  unfold setCstate
  repeat' with_reducible first
    | exact h | apply fdSet_ordered
theorem clearCaps_ordered {a0} {a1} (h : Ordered a0) : Ordered (clearCaps a0 a1) := by
  unfold clearCaps
  repeat' with_reducible first
    | exact h | apply twf_tfilter | apply Ordered.caps | apply Ordered.updCaps
theorem clearRegs_ordered {a0} {a1} {a2} (h : Ordered a0) : Ordered (clearRegs a0 a1 a2) := by
  unfold clearRegs
  repeat' with_reducible apply Ordered.upd h
theorem clearPages_ordered {a0} {a1} {a2} (h : Ordered a0) : Ordered (clearPages a0 a1 a2) := by
  unfold clearPages
  repeat' with_reducible first
    | exact h | apply clearCaps_ordered | apply clearRegs_ordered
theorem coreFields_ordered {a0} {a1} (h : Ordered a0) : Ordered (coreFields a0 a1) := by
  unfold coreFields
  repeat' with_reducible first
    | exact h | apply clearPages_ordered | apply wr_ordered
theorem coreReset_ordered {a0} {a1} (h : Ordered a0) : Ordered (coreReset a0 a1) := by
  unfold coreReset
  repeat' with_reducible first
    | exact h | apply bump_ordered | apply coreFields_ordered | apply setCore_ordered | apply Ordered.core | apply coreKeep_spad
theorem coreOn_ordered {a0} {a1} (h : Ordered a0) : Ordered (coreOn a0 a1) := by
  unfold coreOn
  repeat' with_reducible first
    | exact h | apply retargetAll_ordered | apply setCstate_ordered | apply coreReset_ordered | apply Ordered.ite
theorem pllStart_ordered {a0} {a1} (h : Ordered a0) : Ordered (pllStart a0 a1) := by
  unfold pllStart
  repeat' with_reducible first
    | exact h | apply bump_ordered | apply fdSet_ordered | apply raiseInt_ordered | apply errAt_ordered | apply Ordered.ite
theorem railUp_ordered {a0} {a1} (h : Ordered a0) : Ordered (railUp a0 a1) := by
  unfold railUp
  repeat' with_reducible first
    | exact h | apply fdSet_ordered | apply pllStart_ordered | apply Ordered.ite
theorem seqRestWake_ordered {a0} {a1} (h : Ordered a0) : Ordered (seqRestWake a0 a1) := by
  unfold seqRestWake
  repeat' with_reducible first
    | exact h | apply setSeq_ordered | apply setSeqSt_ordered | apply setPc_ordered
theorem restWake_ordered {a0} {a1} (h : Ordered a0) : Ordered (restWake a0 a1) := by
  unfold restWake
  repeat' with_reducible first
    | exact h | apply railUp_ordered | apply bump_ordered | apply retargetAll_ordered | apply setCstate_ordered | apply seqRestWake_ordered
    | apply startFlow_ordered | apply startUnits_ordered | apply Ordered.ite
theorem railDown_ordered {a0} {a1} (h : Ordered a0) : Ordered (railDown a0 a1) := by
  unfold railDown
  repeat' with_reducible first
    | exact h | apply fdSet_ordered | apply Ordered.ite
theorem coreOff_ordered {a0} {a1} (h : Ordered a0) : Ordered (coreOff a0 a1) := by
  unfold coreOff
  repeat' with_reducible first
    | exact h | apply coreReset_ordered | apply setSeq_ordered | apply retargetAll_ordered | apply setCstate_ordered | apply Ordered.ite
theorem restEntry_ordered {a0} {a1} (h : Ordered a0) : Ordered (restEntry a0 a1) := by
  unfold restEntry
  repeat' with_reducible first
    | exact h | apply clearRegs_ordered | apply setCore_ordered | apply retargetAll_ordered | apply setCstate_ordered | apply bump_ordered
    | apply railDown_ordered | apply setSeqSt_ordered | apply Ordered.ite | apply Ordered.core | apply restKeep_spad
theorem applyTarget_ordered {a0} {a1} {a2} (h : Ordered a0) : Ordered (applyTarget a0 a1 a2) := by
  unfold applyTarget
  repeat' first
    | with_reducible first
        | exact h | apply coreOn_ordered | apply railUp_ordered | apply restWake_ordered | apply railDown_ordered | apply coreOff_ordered
        | apply restEntry_ordered | apply Ordered.ite
    | split
theorem setTarget_ordered {a0} {a1} {a2} (h : Ordered a0) : Ordered (setTarget a0 a1 a2) := by
  unfold setTarget
  repeat' with_reducible first
    | exact h | apply fdSet_ordered
theorem coreTargets_ordered {a0} {a1} {a2} (h : Ordered a0) : Ordered (coreTargets a0 a1 a2) := by
  unfold coreTargets
  repeat' first
    | with_reducible first
        | exact h | assumption | apply applyTarget_ordered | apply setTarget_ordered | (intro _) | apply Ordered.ite | apply Ordered.folds
    | split
theorem clusRelock_ordered {a0} {a1} (h : Ordered a0) : Ordered (clusRelock a0 a1) := by
  unfold clusRelock
  repeat' with_reducible first
    | exact h | apply pllStart_ordered | apply Ordered.ite
theorem holdWrite_ordered {a0} {a1} {a2} (h : Ordered a0) : Ordered (holdWrite a0 a1 a2) := by
  unfold holdWrite
  repeat' with_reducible first
    | exact h | apply fdSet_ordered | apply railUp_ordered | apply railDown_ordered | apply clusRelock_ordered | apply Ordered.ite
theorem setPins_ordered {a0} {a1} (h : Ordered a0) : Ordered (setPins a0 a1) := by
  unfold setPins
  repeat' with_reducible apply Ordered.upd h
theorem clusVolts_ordered {a0} {a1} {a2} {a3} (h : Ordered a0) : Ordered (clusVolts a0 a1 a2 a3) := by
  unfold clusVolts
  repeat' with_reducible first
    | exact h | apply fdSet_ordered | apply Ordered.ite
theorem setPointWrite_ordered {a0} {a1} {a2} (h : Ordered a0) : Ordered (setPointWrite a0 a1 a2) := by
  unfold setPointWrite
  repeat' with_reducible first
    | exact h | apply clusRefused_ordered | apply setPins_ordered | apply clusVolts_ordered | apply Ordered.ite
theorem freqApply_ordered {a0} {a1} (h : Ordered a0) : Ordered (freqApply a0 a1) := by
  unfold freqApply
  repeat' with_reducible first
    | exact h | apply fdSet_ordered | apply Ordered.ite
theorem freqWrite_ordered {a0} {a1} {a2} (h : Ordered a0) : Ordered (freqWrite a0 a1 a2) := by
  unfold freqWrite
  repeat' with_reducible first
    | exact h | apply clusRefused_ordered | apply freqApply_ordered | apply fdSet_ordered | apply Ordered.ite
theorem clusReg_ordered {a0} {a1} {a2} {a3} {a4} (h : Ordered a0) : Ordered (clusReg a0 a1 a2 a3 a4) := by
  unfold clusReg
  repeat' first
    | with_reducible first
        | exact h | apply coreTargets_ordered | apply holdWrite_ordered | apply setPointWrite_ordered | apply freqWrite_ordered | apply wr_ordered
    | split
theorem rstRefused_ordered {a0} {a1} {a2} {a3} (h : Ordered a0) : Ordered (rstRefused a0 a1 a2 a3) := by
  unfold rstRefused
  repeat' with_reducible first
    | exact h | apply raiseInt_ordered | apply errAt_ordered | apply fdSet_ordered
theorem dieRstCore_ordered {a0} {a1} {a2} (h : Ordered a0) : Ordered (dieRstCore a0 a1 a2) := by
  unfold dieRstCore
  repeat' with_reducible first
    | exact h | apply rstRefused_ordered | apply fdSet_ordered | apply coreReset_ordered | apply Ordered.ite
theorem pllRelock_ordered {a0} {a1} (h : Ordered a0) : Ordered (pllRelock a0 a1) := by
  unfold pllRelock
  repeat' with_reducible first
    | exact h | apply fdSet_ordered | apply Ordered.ite
theorem syncHold_ordered {a0} {a1} (h : Ordered a0) : Ordered (syncHold a0 a1) := by
  unfold syncHold
  repeat' with_reducible first
    | exact h | apply railUp_ordered | apply fdSet_ordered | apply railDown_ordered | apply Ordered.ite
theorem clusterReset_ordered {a0} {a1} (h : Ordered a0) : Ordered (clusterReset a0 a1) := by
  unfold clusterReset
  repeat' with_reducible first
    | exact h | assumption | apply setCstate_ordered | apply coreReset_ordered | apply clearPages_ordered | apply fdSet_ordered | apply pllRelock_ordered
    | apply railUp_ordered | apply railDown_ordered | apply applyTarget_ordered | apply retargetAll_ordered | apply bump_ordered | apply syncHold_ordered
    | (intro _) | apply Ordered.ite | apply Ordered.folds
theorem dieRstClus_ordered {a0} {a1} {a2} (h : Ordered a0) : Ordered (dieRstClus a0 a1 a2) := by
  unfold dieRstClus
  repeat' with_reducible first
    | exact h | apply rstRefused_ordered | apply fdSet_ordered | apply clusterReset_ordered | apply Ordered.ite
theorem dieKick_ordered {a0} {a1} {a2} (h : Ordered a0) : Ordered (dieKick a0 a1 a2) := by
  unfold dieKick
  repeat' with_reducible first
    | exact h | apply fdSet_ordered | apply Ordered.ite
theorem setDma_ordered {a0} {a1} {a2} (h : Ordered a0) : Ordered (setDma a0 a1 a2) := by
  unfold setDma
  repeat' first
    | with_reducible first
        | exact h | apply setCore_ordered
    | (refine SpadOrdered.of2 (Ordered.core ?_ _) rfl rfl)
theorem updDesc_ordered {a0} {a1} {a2} {a3} (h : Ordered a0) : Ordered (updDesc a0 a1 a2 a3) := by
  unfold updDesc
  repeat' with_reducible first
    | exact h | apply setDma_ordered
theorem dmaAsk_ordered {a0} {a1} {a2} {a3} (h : Ordered a0) : Ordered (dmaAsk a0 a1 a2 a3) := by
  fun_induction dmaAsk
  repeat' first
    | with_reducible first
        | exact h | apply updDesc_ordered | apply rangeAsk_ordered
    | with_reducible refine Ordered.fst (by assumption) ?_
    | with_reducible apply_assumption
theorem dmaAskAll_ordered {a0} {a1} (h : Ordered a0) : Ordered (dmaAskAll a0 a1) := by
  unfold dmaAskAll
  repeat' with_reducible first
    | exact h | apply dmaAsk_ordered | (intro _) | apply Ordered.folds
theorem dmaFinish_ordered {a0} {a1} {a2} {a3} (h : Ordered a0) : Ordered (dmaFinish a0 a1 a2 a3) := by
  unfold dmaFinish
  repeat' first
    | with_reducible first
        | exact h | apply rangeRelease_ordered | apply dmaAskAll_ordered | apply setCore_ordered | apply bump_ordered | apply setOutcome_ordered
        | apply Ordered.ite
    | (refine SpadOrdered.of2 (Ordered.core ?_ _) rfl rfl)
theorem haltCore_ordered {a0} {a1} (h : Ordered a0) : Ordered (haltCore a0 a1) := by
  unfold haltCore
  repeat' first
    | with_reducible first
        | exact h | apply setSeq_ordered | apply fdSet_ordered | apply setSeqSt_ordered | apply setCore_ordered | apply dmaFinish_ordered | (intro _)
        | apply Ordered.ite | apply Ordered.folds
    | split
    | (refine SpadOrdered.of2 (Ordered.core ?_ _) rfl rfl)
theorem closeCore_ordered {a0} {a1} (h : Ordered a0) : Ordered (closeCore a0 a1) := by
  unfold closeCore
  repeat' with_reducible first
    | exact h | assumption | apply noticeOut_ordered | apply endAll_ordered | apply setChan_ordered | apply setHandle_ordered | (intro _) | apply Ordered.ite
    | apply Ordered.folds
theorem regenCore_ordered {a0} {a1} {a2} (h : Ordered a0) : Ordered (regenCore a0 a1 a2) := by
  unfold regenCore
  repeat' with_reducible first
    | exact h | apply wr_ordered | (intro _) | apply Ordered.folds
theorem clearQe_ordered {a0} {a1} (h : Ordered a0) : Ordered (clearQe a0 a1) := by
  unfold clearQe
  repeat' with_reducible first
    | exact h | apply setQe_ordered
theorem clearUnits_ordered {a0} {a1} (h : Ordered a0) : Ordered (clearUnits a0 a1) := setCore_ordered h (SpadOrdered.of2 (h.core a1) rfl rfl)
theorem clearCore_ordered {a0} {a1} (h : Ordered a0) : Ordered (clearCore a0 a1) := by
  unfold clearCore
  repeat' with_reducible first
    | exact h | apply fdSet_ordered | apply qFlush_ordered | apply setSeqSt_ordered | apply setSeq_ordered | apply clearQe_ordered | apply bumpBy_ordered
    | apply startFlow_ordered | apply startUnits_ordered | apply clearUnits_ordered | (intro _) | apply Ordered.folds
theorem ctxOpCore_ordered {a0} {a1} {a2} {a3} (h : Ordered a0) : Ordered (ctxOpCore a0 a1 a2 a3) := by
  unfold ctxOpCore
  repeat' first
    | with_reducible first
        | exact h | apply haltCore_ordered | apply closeCore_ordered | apply regenCore_ordered | apply clearCore_ordered
    | split
theorem dieCtxOp_ordered {a0} {a1} {a2} (h : Ordered a0) : Ordered (dieCtxOp a0 a1 a2) := by
  unfold dieCtxOp
  repeat' with_reducible first
    | exact h | apply raiseInt_ordered | apply errAt_ordered | apply fdSet_ordered | apply ctxOpCore_ordered | apply setHub_ordered | (intro _)
    | apply Ordered.ite | apply Ordered.folds
theorem dieReg_ordered {a0} {a1} {a2} {a3} {a4} (h : Ordered a0) : Ordered (dieReg a0 a1 a2 a3 a4) := by
  unfold dieReg
  repeat' first
    | with_reducible first
        | exact h | apply dieRstCore_ordered | apply dieRstClus_ordered | apply dieKick_ordered | apply dieCtxOp_ordered | apply wr_ordered
    | split
theorem setStack_ordered {a0} {a1} {a2} (h : Ordered a0) : Ordered (setStack a0 a1 a2) := by
  unfold setStack
  repeat' with_reducible apply Ordered.upd h
theorem memTrain_ordered {a0} {a1} {a2} (h : Ordered a0) : Ordered (memTrain a0 a1 a2) := by
  unfold memTrain
  repeat' with_reducible first
    | exact h | apply fdSet_ordered | apply setStack_ordered
theorem recJudge_ordered {a0} {a1} (h : Ordered a0) : Ordered (recJudge a0 a1) := by
  unfold recJudge
  repeat' with_reducible first
    | exact h | apply fdSet_ordered
theorem recWrite_ordered {a0} {a1} {a2} (h : Ordered a0) : Ordered (recWrite a0 a1 a2) := by
  unfold recWrite
  repeat' with_reducible first
    | exact h | apply setStack_ordered | apply freeUsed_ordered | apply recJudge_ordered
theorem grantWrite_ordered {a0} {a1} {a2} (h : Ordered a0) : Ordered (grantWrite a0 a1 a2) := by
  unfold grantWrite
  repeat' with_reducible first
    | apply fdSet_ordered | apply Ordered.upd h
theorem memcRefused_ordered {a0} {a1} {a2} (h : Ordered a0) : Ordered (memcRefused a0 a1 a2) := by
  unfold memcRefused
  repeat' with_reducible first
    | exact h | apply bankRefused_ordered
theorem sliceEvacuate_ordered {a0} {a1} (h : Ordered a0) : Ordered (sliceEvacuate a0 a1) := by
  unfold sliceEvacuate
  repeat' with_reducible first
    | exact h | apply memcRefused_ordered | apply setSlice_ordered | apply Ordered.ite
theorem gradeInputs_ordered {a0} (h : Ordered a0) : Ordered (gradeInputs a0) := by
  unfold gradeInputs
  repeat' with_reducible first
    | exact h | assumption | apply fdSet_ordered | apply wr_ordered | (intro _) | apply Ordered.folds
theorem pldmEvent_ordered {a0} {a1} {a2} (h : Ordered a0) : Ordered (pldmEvent a0 a1 a2) := by
  unfold pldmEvent
  repeat' with_reducible first
    | exact h | apply setHost_ordered | apply bump_ordered | apply Ordered.ite
theorem msix_ordered {a0} {a1} {a2} (h : Ordered a0) : Ordered (msix a0 a1 a2) := by
  unfold msix
  repeat' with_reducible first
    | exact h | apply setHost_ordered | apply send_ordered | apply bump_ordered | apply Ordered.ite
theorem hostEvent_ordered {a0} {a1} (h : Ordered a0) : Ordered (hostEvent a0 a1) := by
  unfold hostEvent
  repeat' with_reducible first
    | exact h | apply wr_ordered | apply msix_ordered | apply Ordered.ite
theorem setHeal_ordered {a0} {a1} (h : Ordered a0) : Ordered (setHeal a0 a1) := by
  unfold setHeal
  repeat' with_reducible apply Ordered.upd h
theorem setFlash_ordered {a0} {a1} (h : Ordered a0) : Ordered (setFlash a0 a1) := by
  unfold setFlash
  repeat' with_reducible apply Ordered.upd h
theorem hubLog_ordered {a0} {a1} (h : Ordered a0) : Ordered (hubLog a0 a1) := by
  unfold hubLog
  repeat' with_reducible first
    | exact h | apply setHeal_ordered | apply setFlash_ordered | apply pldmEvent_ordered | apply hostEvent_ordered | apply Ordered.ite
theorem complete_ordered {a0} {a1} {a2} {a3} {a4} {a5} {a6} (h : Ordered a0) : Ordered (complete a0 a1 a2 a3 a4 a5 a6) := by
  unfold complete
  repeat' with_reducible first
    | exact h | apply send_ordered | apply setRing_ordered | apply bump_ordered | apply msix_ordered | apply Ordered.ite
theorem syncHolds_ordered {a0} {a1} (h : Ordered a0) : Ordered (syncHolds a0 a1) := by
  unfold syncHolds
  repeat' with_reducible first
    | exact h | apply syncHold_ordered | apply Ordered.folds
theorem ctxHold_ordered {a0} {a1} (h : Ordered a0) : Ordered (ctxHold a0 a1) := by
  unfold ctxHold
  repeat' with_reducible first
    | exact h | apply syncHolds_ordered
theorem contextFail_ordered {a0} {a1} {a2} {a3} (h : Ordered a0) : Ordered (contextFail a0 a1 a2 a3) := by
  unfold contextFail
  repeat' first
    | with_reducible first
        | exact h | apply hubLog_ordered | apply complete_ordered | apply setCtx_ordered | apply ctxHold_ordered | apply hostEvent_ordered | apply msix_ordered
        | (intro _) | apply Ordered.folds
    | (dsimp only; split)
theorem setDieCause_ordered {a0} {a1} {a2} (h : Ordered a0) : Ordered (setDieCause a0 a1 a2) := by
  unfold setDieCause
  repeat' with_reducible first
    | exact h | apply fdSet_ordered | apply Ordered.ite
theorem setCause_ordered {a0} {a1} (h : Ordered a0) : Ordered (setCause a0 a1) := by
  unfold setCause
  repeat' with_reducible first
    | exact h | apply fdSet_ordered
theorem selfRefresh_ordered {a0} {a1} (h : Ordered a0) : Ordered (selfRefresh a0 a1) := by
  unfold selfRefresh
  repeat' with_reducible first
    | exact h | assumption | apply setStack_ordered | apply serveAll_ordered | apply setSlice_ordered | apply fdSet_ordered | (intro _) | apply Ordered.ite
    | apply Ordered.folds
theorem moduleRegs_ordered {a0} (h : Ordered a0) : Ordered (moduleRegs a0) := by
  unfold moduleRegs
  repeat' with_reducible first
    | exact h | apply clearPages_ordered | apply clearRegs_ordered
theorem moduleClear_ordered {a0} {a1} (h : Ordered a0) : Ordered (moduleClear a0 a1) := by
  unfold moduleClear
  repeat' first
    | with_reducible first
        | apply setHeal_ordered | apply setHub_ordered | apply setHost_ordered | apply Ordered.ite | exact ⟨h.caps, List.all_nil⟩
    | split
    | with_reducible apply Ordered.upd
theorem fuseBlow_ordered {a0} {a1} {a2} (h : Ordered a0) : Ordered (fuseBlow a0 a1 a2) := by
  unfold fuseBlow
  repeat' first
    | with_reducible first
        | exact h | apply fdSet_ordered | apply wr_ordered
    | split
theorem fuseCut_ordered {a0} (h : Ordered a0) : Ordered (fuseCut a0) := by
  unfold fuseCut
  repeat' first
    | with_reducible first
        | exact h | apply freeUsed_ordered | apply fuseBlow_ordered | apply Ordered.ite
    | split
theorem bridgesReset_ordered {a0} {a1} (h : Ordered a0) : Ordered (bridgesReset a0 a1) := by
  unfold bridgesReset
  repeat' with_reducible first
    | exact h | apply wr_ordered | (intro _) | apply Ordered.folds
theorem setBanks_ordered {a0} {a1} {a2} (h : Ordered a0) : Ordered (setBanks a0 a1 a2) := by
  unfold setBanks
  repeat' with_reducible first
    | exact h | apply wr_ordered | (intro _) | apply Ordered.folds
theorem coresOff_ordered {a0} (h : Ordered a0) : Ordered (coresOff a0) := by
  unfold coresOff
  repeat' with_reducible first
    | exact h | assumption | apply setBanks_ordered | apply setCstate_ordered | (intro _) | apply Ordered.folds
theorem moduleDown_ordered {a0} {a1} (h : Ordered a0) : Ordered (moduleDown a0 a1) := by
  unfold moduleDown
  repeat' with_reducible first
    | exact h | assumption | apply selfRefresh_ordered | apply moduleRegs_ordered | apply moduleClear_ordered | apply fuseCut_ordered | apply fdSet_ordered
    | apply bridgesReset_ordered | apply coresOff_ordered | apply setPst_ordered | apply setPins_ordered | (intro _) | apply Ordered.ite | apply Ordered.folds
theorem moduleReset_ordered {a0} {a1} {a2} (h : Ordered a0) : Ordered (moduleReset a0 a1 a2) := by
  unfold moduleReset
  repeat' with_reducible first
    | exact h | apply setDieCause_ordered | apply setCause_ordered | apply moduleDown_ordered | apply setPins_ordered | apply bump_ordered | (intro _)
    | apply Ordered.folds
theorem gradeEval_ordered {a0} (h : Ordered a0) : Ordered (gradeEval a0) := by
  unfold gradeEval
  repeat' with_reducible first
    | exact h | assumption | apply gradeInputs_ordered | apply raiseInt_ordered | apply fdSet_ordered | apply pldmEvent_ordered | apply hostEvent_ordered
    | apply contextFail_ordered | apply moduleReset_ordered | (intro _) | apply Ordered.ite | apply Ordered.folds
theorem mapChanged_ordered {a0} {a1} (h : Ordered a0) : Ordered (mapChanged a0 a1) := by
  unfold mapChanged
  repeat' with_reducible first
    | exact h | apply gradeEval_ordered | apply pldmEvent_ordered | apply fdSet_ordered
theorem closeSlice_ordered {a0} {a1} (h : Ordered a0) : Ordered (closeSlice a0 a1) := by
  unfold closeSlice
  repeat' with_reducible first
    | apply setSlice_ordered | (intro _) | apply Ordered.folds | apply Ordered.upd h
theorem markClosed_ordered {a0} {a1} (h : Ordered a0) : Ordered (markClosed a0 a1) := by
  unfold markClosed
  repeat' with_reducible apply Ordered.upd h
theorem fenceStack_ordered {a0} {a1} (h : Ordered a0) : Ordered (fenceStack a0 a1) := by
  unfold fenceStack
  repeat' with_reducible first
    | exact h | apply closeSlice_ordered | apply markClosed_ordered | apply fdSet_ordered | (intro _) | apply Ordered.folds
theorem secondClosed_ordered {a0} {a1} (h : Ordered a0) : Ordered (secondClosed a0 a1) := by
  unfold secondClosed
  repeat' with_reducible first
    | exact h | apply fenceStack_ordered | apply Ordered.ite
theorem cwSend_ordered {a0} {a1} {a2} (h : Ordered a0) : Ordered (cwSend a0 a1 a2) := by
  unfold cwSend
  repeat' with_reducible first
    | exact h | apply xAdd_ordered | apply setPort_ordered
theorem askHome_ordered {a0} {a1} (h : Ordered a0) : Ordered (askHome a0 a1) := by
  unfold askHome
  repeat' with_reducible first
    | exact h | apply cwSend_ordered | (intro _) | apply Ordered.ite | apply Ordered.folds
theorem fetchHome_ordered {a0} {a1} {a2} (h : Ordered a0) : Ordered (fetchHome a0 a1 a2) := by
  unfold fetchHome
  repeat' with_reducible first
    | exact h | apply setTwin_ordered | apply askHome_ordered | apply Ordered.ite
theorem fetchHomes_ordered {a0} (h : Ordered a0) : Ordered (fetchHomes a0) := by
  unfold fetchHomes
  repeat' with_reducible first
    | exact h | apply fetchHome_ordered | (intro _) | apply Ordered.ite | apply Ordered.folds
theorem sliceCtl_ordered {a0} {a1} {a2} (h : Ordered a0) : Ordered (sliceCtl a0 a1 a2) := by
  unfold sliceCtl
  repeat' with_reducible first
    | exact h | apply sliceEvacuate_ordered | apply memcRefused_ordered | apply serveAll_ordered | apply mapChanged_ordered | apply closeSlice_ordered
    | apply setSlice_ordered | apply secondClosed_ordered | apply fetchHomes_ordered | apply Ordered.ite
theorem memcReg_ordered {a0} {a1} {a2} {a3} {a4} (h : Ordered a0) : Ordered (memcReg a0 a1 a2 a3 a4) := by
  unfold memcReg
  repeat' first
    | with_reducible first
        | exact h | apply memTrain_ordered | apply recWrite_ordered | apply grantWrite_ordered | apply sliceCtl_ordered | apply placementWrite_ordered
        | apply wr_ordered | apply Ordered.ite
    | split
theorem setGauge_ordered {a0} {a1} {a2} {a3} (h : Ordered a0) : Ordered (setGauge a0 a1 a2 a3) := by
  unfold setGauge
  repeat' with_reducible apply Ordered.upd h
theorem gaugeOpen_ordered {a0} {a1} {a2} {a3} (h : Ordered a0) : Ordered (gaugeOpen a0 a1 a2 a3) := by
  unfold gaugeOpen
  repeat' with_reducible first
    | exact h | apply setGauge_ordered
theorem gaugeApply_ordered {a0} {a1} {a2} {a3} (h : Ordered a0) : Ordered (gaugeApply a0 a1 a2 a3) := by
  unfold gaugeApply
  repeat' with_reducible first
    | exact h | apply bump_ordered | apply setGauge_ordered | apply raiseInt_ordered | apply Ordered.ite
theorem gaugeClose_ordered {a0} {a1} {a2} {a3} (h : Ordered a0) : Ordered (gaugeClose a0 a1 a2 a3) := by
  unfold gaugeClose
  repeat' first
    | with_reducible first
        | exact h | apply gaugeApply_ordered | apply wr64_ordered | apply wr_ordered | apply raiseInt_ordered | apply bump_ordered | apply gaugeOpen_ordered
        | (intro _) | apply Ordered.ite | apply Ordered.folds
    | split
theorem gaugeCtl_ordered {a0} {a1} {a2} {a3} (h : Ordered a0) : Ordered (gaugeCtl a0 a1 a2 a3) := by
  unfold gaugeCtl
  repeat' with_reducible first
    | exact h | apply errAt_ordered | apply gaugeOpen_ordered | apply fdSet_ordered | apply gaugeClose_ordered | apply Ordered.ite
theorem gaugeReg_ordered {a0} {a1} {a2} {a3} {a4} {a5} (h : Ordered a0) : Ordered (gaugeReg a0 a1 a2 a3 a4 a5) := by
  unfold gaugeReg
  repeat' with_reducible first
    | exact h | apply gaugeCtl_ordered | apply errAt_ordered | apply wr_ordered | apply Ordered.ite
theorem ringCfg_ordered {a0} {a1} {a2} (h : Ordered a0) : Ordered (ringCfg a0 a1 a2).1 := by
  unfold ringCfg
  repeat' first
    | with_reducible first
        | exact h | apply setRing_ordered
    | split
    | (dsimp only; split)
theorem mailboxIn_ordered {a0} {a1} {a2} (h : Ordered a0) : Ordered (mailboxIn a0 a1 a2) := by
  unfold mailboxIn
  repeat' with_reducible first
    | exact h | apply setHost_ordered
theorem mailboxWrite_ordered {a0} {a1} {a2} (h : Ordered a0) : Ordered (mailboxWrite a0 a1 a2) := by
  unfold mailboxWrite
  repeat' with_reducible first
    | exact h | apply mailboxIn_ordered | apply Ordered.ite
theorem doorbell_ordered {a0} {a1} {a2} (h : Ordered a0) : Ordered (doorbell a0 a1 a2) := by
  unfold doorbell
  repeat' with_reducible first
    | exact h | apply setRing_ordered | apply raiseInt_ordered | apply errAt_ordered | apply hostEvent_ordered | apply Ordered.ite
theorem hostReg_ordered {a0} {a1} {a2} {a3} (h : Ordered a0) : Ordered (hostReg a0 a1 a2 a3) := by
  unfold hostReg
  repeat' with_reducible first
    | exact h | apply ringCfg_ordered | apply rangeAt_ordered | apply notReadyAt_ordered | apply mailboxWrite_ordered | apply doorbell_ordered | apply wr_ordered
    | apply Ordered.ite
theorem authReg_ordered {a0} {a1} {a2} {a3} (h : Ordered a0) : Ordered (authReg a0 a1 a2 a3) := by
  unfold authReg
  repeat' first
    | with_reducible first
        | exact h | apply fdSet_ordered | apply setHost_ordered | apply wr_ordered | apply Ordered.ite
    | split
theorem fuseArm_ordered {a0} {a1} {a2} (h : Ordered a0) : Ordered (fuseArm a0 a1 a2) := by
  unfold fuseArm
  repeat' with_reducible first
    | exact h | apply fdSet_ordered | apply setHost_ordered | apply Ordered.ite
theorem fuseCmd_ordered {a0} {a1} {a2} {a3} {a4} (h : Ordered a0) : Ordered (fuseCmd a0 a1 a2 a3 a4) := by
  unfold fuseCmd
  repeat' with_reducible first
    | exact h | apply raiseInt_ordered | apply errAt_ordered | apply bump_ordered | apply fdSet_ordered | apply send_ordered | apply setHost_ordered
    | apply Ordered.ite
theorem fuseReg_ordered {a0} {a1} {a2} {a3} {a4} (h : Ordered a0) : Ordered (fuseReg a0 a1 a2 a3 a4) := by
  unfold fuseReg
  repeat' first
    | with_reducible first
        | exact h | apply fuseArm_ordered | apply fuseCmd_ordered | apply wr_ordered | apply Ordered.ite
    | split
theorem postAbort_ordered {a0} {a1} {a2} {a3} (h : Ordered a0) : Ordered (postAbort a0 a1 a2 a3) := by
  unfold postAbort
  repeat' first
    | with_reducible first
        | exact h | apply postAll_ordered
    | split
theorem abortAll_ordered {a0} {a1} (h : Ordered a0) : Ordered (abortAll a0 a1) := by
  unfold abortAll
  repeat' with_reducible first
    | exact h | assumption | apply postAbort_ordered | (intro _) | apply Ordered.ite | apply Ordered.folds
theorem visitOver_ordered {a0} {a1} {a2} {a3} (h : Ordered a0) : Ordered (visitOver a0 a1 a2 a3) := by
  unfold visitOver
  repeat' first
    | with_reducible first
        | exact h | apply setHeal_ordered | apply setCore_ordered
    | (refine SpadOrdered.of2 (Ordered.core ?_ _) rfl rfl)
theorem visitDrop_ordered {a0} {a1} (h : Ordered a0) : Ordered (visitDrop a0 a1) := by
  unfold visitDrop
  repeat' first
    | with_reducible first
        | exact h | apply visitOver_ordered | apply setHeal_ordered
    | split
theorem setMover_ordered {a0} {a1} {a2} (h : Ordered a0) : Ordered (setMover a0 a1 a2) := by
  unfold setMover
  repeat' with_reducible first
    | exact h | apply setHeal_ordered
theorem withMate_ordered {a0} {a1} {a2} (h : Ordered a0) (h2 : ∀ s x, Ordered s → Ordered (a2 s x)) : Ordered (withMate a0 a1 a2) := by
  unfold withMate
  repeat' with_reducible first
    | exact h | apply h2 | apply Ordered.ite
theorem joinPool_ordered {a0} {a1} (h : Ordered a0) : Ordered (joinPool a0 a1) := by
  unfold joinPool
  repeat' with_reducible first
    | exact h | apply fdSet_ordered | apply bindCore_ordered | apply applyTarget_ordered | apply setTarget_ordered | apply Ordered.ite
theorem moveAborted_ordered {a0} {a1} {a2} (h : Ordered a0) : Ordered (moveAborted a0 a1 a2) := by
  unfold moveAborted
  repeat' with_reducible first
    | exact h | apply setMover_ordered | apply withMate_ordered | apply joinPool_ordered | apply raiseInt_ordered | apply errAt_ordered | apply Ordered.ite
theorem movesEnd_ordered {a0} {a1} {a2} (h : Ordered a0) : Ordered (movesEnd a0 a1 a2) := by
  unfold movesEnd
  repeat' with_reducible first
    | exact h | assumption | apply moveAborted_ordered | (intro _) | apply Ordered.ite | apply Ordered.folds
theorem movesLose_ordered {a0} {a1} (h : Ordered a0) : Ordered (movesLose a0 a1) := by
  unfold movesLose
  repeat' with_reducible first
    | exact h | apply movesEnd_ordered
theorem dieCores_ordered {a0 : State} {a1} (h : Ordered a0) : Ordered (dieCores a0 a1) := by
  unfold dieCores
  refine Ordered.folds h fun s c hs => ?_
  dsimp only
  have hx : Ordered (setCore (visitDrop (movesLose s c) c) c { sp := { words := (core s c).sp.settled.words, pois := (core s c).sp.settled.pois, flips := (core s c).sp.settled.flips }, seq := { lm := (core s c).seq.lm } }) :=
    setCore_ordered (visitDrop_ordered (movesLose_ordered hs)) ⟨(settled_ok (Ordered.core hs c)).1, (settled_ok (Ordered.core hs c)).2⟩
  exact Ordered.ite hx (fdSet_ordered hx)
theorem setLog_ordered {a0} {a1} {a2} (h : Ordered a0) : Ordered (setLog a0 a1 a2) := by
  unfold setLog
  repeat' with_reducible first
    | exact h | apply setHeal_ordered
theorem dieReset_ordered {a0} {a1} {a2} (h : Ordered a0) : Ordered (dieReset a0 a1 a2) := by
  unfold dieReset
  repeat' with_reducible first
    | exact h | apply selfRefresh_ordered | apply dieCores_ordered | apply clearPages_ordered | apply fdSet_ordered | apply setLog_ordered
    | apply bridgesReset_ordered | apply setNet_ordered | apply setHub_ordered | apply setDieCause_ordered | (intro _) | apply Ordered.folds
theorem portDieReset_ordered {a0} {a1} {a2} (h : Ordered a0) : Ordered (portDieReset a0 a1 a2) := by
  unfold portDieReset
  repeat' with_reducible first
    | exact h | apply setPort_ordered | apply clearPages_ordered | apply fdSet_ordered | apply bridgesReset_ordered | apply setNet_ordered | apply setHub_ordered
    | apply setDieCause_ordered | (intro _) | apply Ordered.folds
theorem resetDie_ordered {a0} {a1} {a2} (h : Ordered a0) : Ordered (resetDie a0 a1 a2) := by
  unfold resetDie
  repeat' with_reducible first
    | exact h | apply gradeEval_ordered | apply abortAll_ordered | apply dieReset_ordered | apply moduleReset_ordered | apply portDieReset_ordered
    | apply Ordered.ite
theorem rstCtl_ordered {a0} {a1} {a2} (h : Ordered a0) : Ordered (rstCtl a0 a1 a2) := by
  unfold rstCtl
  repeat' with_reducible first
    | exact h | apply fdSet_ordered | apply raiseInt_ordered | apply errAt_ordered | apply setHub_ordered | apply resetDie_ordered | apply Ordered.ite
theorem rstClr_ordered {a0} {a1} (h : Ordered a0) : Ordered (rstClr a0 a1) := by
  unfold rstClr
  repeat' with_reducible first
    | exact h | apply wr_ordered | apply Ordered.ite
theorem aonReg_ordered {a0} {a1} {a2} {a3} {a4} (h : Ordered a0) : Ordered (aonReg a0 a1 a2 a3 a4) := by
  unfold aonReg
  repeat' first
    | with_reducible first
        | exact h | apply rstCtl_ordered | apply rstClr_ordered | apply wr_ordered
    | split
theorem clkCtl_ordered {a0} {a1} {a2} (h : Ordered a0) : Ordered (clkCtl a0 a1 a2) := by
  unfold clkCtl
  repeat' with_reducible first
    | exact h | apply fdSet_ordered | apply Ordered.ite
theorem standbyEnter_ordered {a0} (h : Ordered a0) : Ordered (standbyEnter a0) := by
  unfold standbyEnter
  repeat' first
    | with_reducible first
        | exact h | apply raiseInt_ordered | apply errAt_ordered | apply moduleDown_ordered | apply setPins_ordered
    | split
    | (dsimp only; split)
theorem pwrReg_ordered {a0} {a1} {a2} {a3} {a4} (h : Ordered a0) : Ordered (pwrReg a0 a1 a2 a3 a4) := by
  unfold pwrReg
  repeat' with_reducible first
    | exact h | apply standbyEnter_ordered | apply wr_ordered | apply Ordered.ite
theorem signAll_ordered {a0} {a1} {a2} (h : Ordered a0) : Ordered (signAll a0 a1 a2) := by
  unfold signAll
  repeat' with_reducible first
    | exact h | apply fdSet_ordered | (intro _) | apply Ordered.folds
theorem epochFlip_ordered {a0} {a1} {a2} (h : Ordered a0) : Ordered (epochFlip a0 a1 a2) := by
  unfold epochFlip
  repeat' with_reducible first
    | exact h | apply bankRefused_ordered | apply signAll_ordered | apply Ordered.ite | apply Ordered.upd
theorem loseSlice_ordered {a0} {a1} (h : Ordered a0) : Ordered (loseSlice a0 a1) := by
  unfold loseSlice
  repeat' with_reducible first
    | apply setStack_ordered | apply Ordered.upd h
theorem loseUnread_ordered {a0} {a1} (h : Ordered a0) : Ordered (loseUnread a0 a1) := by
  unfold loseUnread
  repeat' first
    | with_reducible first
        | exact h | assumption | apply loseSlice_ordered | (intro _) | apply Ordered.ite | apply Ordered.folds
    | split
theorem retireBank_ordered {a0} {a1} (h : Ordered a0) : Ordered (retireBank a0 a1) := by
  unfold retireBank
  repeat' with_reducible first
    | exact h | apply signAll_ordered
theorem signReg_ordered {a0} {a1} {a2} {a3} {a4} (h : Ordered a0) : Ordered (signReg a0 a1 a2 a3 a4) := by
  unfold signReg
  repeat' first
    | with_reducible first
        | exact h | apply epochFlip_ordered | apply loseUnread_ordered | apply signpostInvalidate_ordered | apply retireBank_ordered | apply wr_ordered
        | apply bankRefused_ordered | apply Ordered.ite
    | split
theorem healCsel_ordered {a0} {a1} {a2} (h : Ordered a0) : Ordered (healCsel a0 a1 a2) := by
  unfold healCsel
  repeat' with_reducible first
    | exact h | apply wr_ordered
theorem setLadder_ordered {a0} {a1} {a2} (h : Ordered a0) : Ordered (setLadder a0 a1 a2) := by
  unfold setLadder
  repeat' with_reducible first
    | exact h | apply setHeal_ordered | apply clusVolts_ordered | apply raiseInt_ordered | apply bump_ordered | apply Ordered.ite
theorem logAdd_ordered {a0} {a1} {a2} (h : Ordered a0) : Ordered (logAdd a0 a1 a2) := by
  unfold logAdd
  repeat' with_reducible first
    | exact h | apply raiseInt_ordered | apply errAt_ordered | apply bump_ordered | apply setLog_ordered | apply Ordered.ite
theorem healCctl_ordered {a0} {a1} {a2} (h : Ordered a0) : Ordered (healCctl a0 a1 a2) := by
  unfold healCctl
  repeat' with_reducible first
    | exact h | apply setLadder_ordered | apply logAdd_ordered | apply Ordered.ite
theorem pairWrite_ordered {a0} {a1} {a2} {a3} (h : Ordered a0) : Ordered (pairWrite a0 a1 a2 a3) := by
  unfold pairWrite
  repeat' first
    | with_reducible first
        | exact h | apply errAt_ordered | apply wr_ordered
    | split
    | (dsimp only; split)
theorem healReg_ordered {a0} {a1} {a2} {a3} {a4} (h : Ordered a0) : Ordered (healReg a0 a1 a2 a3 a4) := by
  unfold healReg
  repeat' first
    | with_reducible first
        | exact h | apply rangeAt_ordered | apply wr_ordered | apply healCsel_ordered | apply healCctl_ordered | apply pairWrite_ordered | apply Ordered.ite
    | split
theorem closeRefused_ordered {a0} {a1} {a2} (h : Ordered a0) : Ordered (closeRefused a0 a1 a2) := by
  unfold closeRefused
  repeat' with_reducible first
    | exact h | apply raiseInt_ordered | apply errAt_ordered | apply fdSet_ordered
theorem markOpen_ordered {a0} {a1} (h : Ordered a0) : Ordered (markOpen a0 a1) := by
  unfold markOpen
  repeat' with_reducible apply Ordered.upd h
theorem awaitTest_ordered {a0} {a1} (h : Ordered a0) : Ordered (awaitTest a0 a1) := by
  unfold awaitTest
  repeat' with_reducible first
    | exact h | assumption | apply setBanks_ordered | apply setCstate_ordered | apply setBank_ordered | apply setHeal_ordered | apply setLadder_ordered
    | (intro _) | apply Ordered.ite | apply Ordered.folds
theorem setPState_ordered {a0} {a1} {a2} (h : Ordered a0) : Ordered (setPState a0 a1 a2) := by
  unfold setPState
  repeat' with_reducible first
    | exact h | apply fdSet_ordered
theorem portEnable_ordered {a0} {a1} (h : Ordered a0) : Ordered (portEnable a0 a1) := by
  unfold portEnable
  repeat' with_reducible first
    | exact h | apply setPState_ordered | apply fdSet_ordered | apply Ordered.ite
theorem withdrawUnit_ordered {a0} {a1} {a2} (h : Ordered a0) : Ordered (withdrawUnit a0 a1 a2) := by
  unfold withdrawUnit
  repeat' first
    | with_reducible first
        | exact h | apply setHeal_ordered | apply markOpen_ordered | apply awaitTest_ordered | apply setBank_ordered | apply portEnable_ordered
        | apply Ordered.ite | apply Ordered.folds
    | split
theorem fenceCore_ordered {a0} {a1} (h : Ordered a0) : Ordered (fenceCore a0 a1) := by
  unfold fenceCore
  repeat' first
    | with_reducible first
        | exact h | apply visitDrop_ordered | apply movesLose_ordered | apply markClosed_ordered | apply coreFields_ordered | apply setCore_ordered
        | apply setBanks_ordered | apply setCstate_ordered
    | (exact (rfl : twf [] = true))
    | (refine And.intro ?_ ?_ <;> dsimp only)
theorem fencePair_ordered {a0} {a1} (h : Ordered a0) : Ordered (fencePair a0 a1) := by
  unfold fencePair
  repeat' with_reducible first
    | exact h | apply fenceCore_ordered | apply Ordered.folds
theorem fenceCluster_ordered {a0} {a1} (h : Ordered a0) : Ordered (fenceCluster a0 a1) := by
  unfold fenceCluster
  repeat' with_reducible first
    | exact h | apply fenceCore_ordered | apply markClosed_ordered | apply fdSet_ordered | apply Ordered.folds
theorem fenceRouter_ordered {a0} {a1} (h : Ordered a0) : Ordered (fenceRouter a0 a1) := by
  unfold fenceRouter
  repeat' with_reducible first
    | exact h | apply fencePair_ordered | apply markClosed_ordered | apply setRout_ordered
theorem queueBlk_ordered {a0} {a1} {a2} (h : Ordered a0) : Ordered (queueBlk a0 a1 a2) := by
  unfold queueBlk
  repeat' with_reducible first
    | exact h | apply setPort_ordered
theorem portLeft_ordered {a0} {a1} (h : Ordered a0) : Ordered (portLeft a0 a1) := by
  unfold portLeft
  repeat' with_reducible first
    | exact h | apply raiseInt_ordered | apply errAt_ordered
theorem reroute_ordered {a0} {a1} (h : Ordered a0) : Ordered (reroute a0 a1) := by
  unfold reroute
  repeat' first
    | with_reducible first
        | exact h | assumption | apply setPort_ordered | apply epAdd_ordered | apply xAdd_ordered | apply setNet_ordered | (intro _) | apply Ordered.ite
        | apply Ordered.folds
    | (dsimp only; split)
theorem portOff_ordered {a0} {a1} {a2} (h : Ordered a0) : Ordered (portOff a0 a1 a2) := by
  unfold portOff
  repeat' with_reducible first
    | exact h | apply reroute_ordered | apply setPState_ordered | apply wr_ordered | apply setPort_ordered | apply fdSet_ordered
theorem portDown_ordered {a0} {a1} (h : Ordered a0) : Ordered (portDown a0 a1) := by
  unfold portDown
  repeat' with_reducible first
    | exact h | apply portLeft_ordered | apply bump_ordered | apply portOff_ordered
theorem laneFail_ordered {a0} {a1} {a2} {a3} (h : Ordered a0) : Ordered (laneFail a0 a1 a2 a3) := by
  unfold laneFail
  repeat' first
    | with_reducible first
        | exact h | apply fdSet_ordered | apply report_ordered | apply raiseInt_ordered | apply queueBlk_ordered | apply setPort_ordered | apply portDown_ordered
        | apply Ordered.ite
    | split
    | (dsimp only; split)
theorem fenceLane_ordered {a0} {a1} {a2} {a3} (h : Ordered a0) : Ordered (fenceLane a0 a1 a2 a3) := by
  unfold fenceLane
  repeat' with_reducible first
    | exact h | apply markClosed_ordered | apply laneFail_ordered | apply fdSet_ordered | apply Ordered.ite
theorem portDisable_ordered {a0} {a1} (h : Ordered a0) : Ordered (portDisable a0 a1) := by
  unfold portDisable
  repeat' with_reducible first
    | exact h | apply portLeft_ordered | apply portOff_ordered | apply Ordered.ite
theorem fencePort_ordered {a0} {a1} (h : Ordered a0) : Ordered (fencePort a0 a1) := by
  unfold fencePort
  repeat' with_reducible first
    | exact h | apply portDisable_ordered | apply markClosed_ordered
theorem fenceSlice_ordered {a0} {a1} (h : Ordered a0) : Ordered (fenceSlice a0 a1) := by
  unfold fenceSlice
  repeat' with_reducible first
    | exact h | apply loseSlice_ordered | apply closeSlice_ordered | apply fetchHomes_ordered | apply secondClosed_ordered | apply Ordered.ite
theorem fenceDie_ordered {a0} {a1} (h : Ordered a0) : Ordered (fenceDie a0 a1) := by
  unfold fenceDie
  repeat' with_reducible first
    | exact h | assumption | apply markClosed_ordered | apply fenceCluster_ordered | apply fenceRouter_ordered | apply fenceStack_ordered
    | apply fencePort_ordered | apply fdSet_ordered | (intro _) | apply Ordered.ite | apply Ordered.folds
theorem fenceUnit_ordered {a0} {a1} (h : Ordered a0) : Ordered (fenceUnit a0 a1) := by
  unfold fenceUnit
  repeat' first
    | with_reducible first
        | exact h | apply fencePair_ordered | apply fenceCluster_ordered | apply fenceRouter_ordered | apply markClosed_ordered | apply fenceLane_ordered
        | apply fencePort_ordered | apply fenceSlice_ordered | apply fenceStack_ordered | apply fenceDie_ordered
    | split
theorem workLost_ordered {a0} {a1} (h : Ordered a0) : Ordered (workLost a0 a1) := by
  unfold workLost
  repeat' with_reducible first
    | exact h | apply postAbort_ordered | apply contextFail_ordered | apply setCtx_ordered | apply Ordered.ite
theorem closeUnit_ordered {a0} {a1} (h : Ordered a0) : Ordered (closeUnit a0 a1) := by
  unfold closeUnit
  repeat' first
    | with_reducible first
        | exact h | apply mapChanged_ordered | apply raiseInt_ordered | apply bump_ordered | apply fenceUnit_ordered | apply workLost_ordered
        | apply Ordered.folds
    | split
theorem healClose_ordered {a0} {a1} {a2} (h : Ordered a0) : Ordered (healClose a0 a1 a2) := by
  unfold healClose
  repeat' first
    | with_reducible first
        | exact h | apply closeRefused_ordered | apply fdSet_ordered | apply mapChanged_ordered | apply bump_ordered | apply withdrawUnit_ordered
        | apply closeUnit_ordered | apply Ordered.ite
    | split
theorem mvLatch_ordered {a0} (h : Ordered a0) : Ordered (mvLatch a0) := by
  unfold mvLatch
  repeat' with_reducible first
    | exact h | apply wr_ordered
theorem poolCheck_ordered {a0} {a1} (h : Ordered a0) : Ordered (poolCheck a0 a1) := by
  unfold poolCheck
  repeat' with_reducible first
    | exact h | apply hubLog_ordered | apply freeUsed_ordered | apply Ordered.ite
theorem moveStart_ordered {a0} {a1} {a2} {a3} (h : Ordered a0) : Ordered (moveStart a0 a1 a2 a3) := by
  unfold moveStart
  repeat' with_reducible first
    | exact h | assumption | apply setMover_ordered | apply moveAborted_ordered | apply bump_ordered | apply raiseInt_ordered | apply errAt_ordered
    | apply poolCheck_ordered | apply withMate_ordered | apply applyTarget_ordered | apply setTarget_ordered | (intro _) | apply Ordered.ite
theorem moveAbort_ordered {a0} {a1} (h : Ordered a0) : Ordered (moveAbort a0 a1) := by
  unfold moveAbort
  repeat' with_reducible first
    | exact h | apply moveAborted_ordered | apply Ordered.ite
theorem mvCtl_ordered {a0} {a1} {a2} (h : Ordered a0) : Ordered (mvCtl a0 a1 a2) := by
  unfold mvCtl
  repeat' with_reducible first
    | exact h | apply setMover_ordered | apply notReadyAt_ordered | apply moveStart_ordered | apply moveAbort_ordered | apply Ordered.ite
theorem healHubReg_ordered {a0} {a1} {a2} {a3} {a4} (h : Ordered a0) : Ordered (healHubReg a0 a1 a2 a3 a4) := by
  unfold healHubReg
  repeat' first
    | with_reducible first
        | exact h | apply healClose_ordered | apply mvLatch_ordered | apply wr_ordered | apply setMover_ordered | apply mvCtl_ordered
    | split
theorem eqAsk_ordered {a0} {a1} {a2} (h : Ordered a0) : Ordered (eqAsk a0 a1 a2) := by
  unfold eqAsk
  repeat' with_reducible first
    | exact h | apply freeUsed_ordered | apply queueBlk_ordered
theorem eqAll_ordered {a0} {a1} (h : Ordered a0) : Ordered (eqAll a0 a1) := by
  unfold eqAll
  repeat' with_reducible first
    | exact h | assumption | apply eqAsk_ordered | (intro _) | apply Ordered.ite | apply Ordered.folds
theorem portRetrain_ordered {a0} {a1} (h : Ordered a0) : Ordered (portRetrain a0 a1) := by
  unfold portRetrain
  repeat' with_reducible first
    | exact h | apply setPort_ordered | apply portOff_ordered | apply eqAll_ordered | apply Ordered.ite
theorem portCtl_ordered {a0} {a1} {a2} {a3} (h : Ordered a0) : Ordered (portCtl a0 a1 a2 a3) := by
  unfold portCtl
  repeat' with_reducible first
    | exact h | apply wr_ordered | apply portEnable_ordered | apply gradeEval_ordered | apply portDisable_ordered | apply portRetrain_ordered | apply Ordered.ite
theorem portExpect_ordered {a0} {a1} {a2} (h : Ordered a0) : Ordered (portExpect a0 a1 a2) := by
  unfold portExpect
  repeat' with_reducible first
    | exact h | apply wr_ordered | apply portRetrain_ordered | apply Ordered.ite
theorem portRecWrite_ordered {a0} {a1} {a2} (h : Ordered a0) : Ordered (portRecWrite a0 a1 a2) := by
  unfold portRecWrite
  repeat' with_reducible first
    | exact h | apply setPort_ordered | apply freeUsed_ordered
theorem portReg_ordered {a0} {a1} {a2} {a3} {a4} (h : Ordered a0) : Ordered (portReg a0 a1 a2 a3 a4) := by
  unfold portReg
  repeat' first
    | with_reducible first
        | exact h | apply portCtl_ordered | apply portExpect_ordered | apply portRecWrite_ordered | apply wr_ordered
    | split
theorem causeReg_ordered {a0} {a1} {a2} {a3} (h : Ordered a0) : Ordered (causeReg a0 a1 a2 a3) := by
  unfold causeReg
  repeat' first
    | with_reducible first
        | exact h | apply notReadyAt_ordered | apply setTwin_ordered | apply wr_ordered | apply freeUsed_ordered | apply Ordered.ite
    | split
theorem xRefused_ordered {a0} {a1} {a2} (h : Ordered a0) : Ordered (xRefused a0 a1 a2) := by
  unfold xRefused
  repeat' with_reducible first
    | exact h | apply raiseInt_ordered | apply errAt_ordered
theorem xctlWrite_ordered {a0} {a1} {a2} (h : Ordered a0) : Ordered (xctlWrite a0 a1 a2) := by
  unfold xctlWrite
  repeat' first
    | with_reducible first
        | exact h | assumption | apply fdSet_ordered | apply xRefused_ordered | apply freeUsed_ordered | (intro _) | apply Ordered.ite | apply Ordered.folds
        | apply Ordered.upd h
    | split
    | with_reducible apply Ordered.upd
theorem setRoutes_ordered {a0} {a1} {a2} (h : Ordered a0) : Ordered (setRoutes a0 a1 a2) := by
  unfold setRoutes
  repeat' with_reducible apply Ordered.upd h
theorem edataCommit_ordered {a0} {a1} {a2} (h : Ordered a0) : Ordered (edataCommit a0 a1 a2) := by
  unfold edataCommit
  repeat' with_reducible first
    | exact h | apply xRefused_ordered | apply setRoutes_ordered | apply Ordered.ite
theorem edataStage_ordered {a0} {a1} {a2} {a3} (h : Ordered a0) : Ordered (edataStage a0 a1 a2 a3) := by
  unfold edataStage
  repeat' with_reducible first
    | exact h | apply setRoutes_ordered
theorem xtabReg_ordered {a0} {a1} {a2} {a3} {a4} (h : Ordered a0) : Ordered (xtabReg a0 a1 a2 a3 a4) := by
  unfold xtabReg
  repeat' first
    | with_reducible first
        | exact h | apply xctlWrite_ordered | apply edataCommit_ordered | apply edataStage_ordered | apply wr_ordered | apply Ordered.ite
    | split
theorem regReg_ordered {a0} {a1} {a2} {a3} {a4} {a5} (h : Ordered a0) : Ordered (regReg a0 a1 a2 a3 a4 a5) := by
  unfold regReg
  repeat' first
    | with_reducible first
        | exact h | apply headerReg_ordered | apply coreReg_ordered | apply flowReg_ordered | apply spadReg_ordered | apply qengReg_ordered
        | apply routReg_ordered | apply clusReg_ordered | apply dieReg_ordered | apply memcReg_ordered | apply bankFields_ordered | apply wr_ordered
        | apply gaugeReg_ordered | apply hostReg_ordered | apply authReg_ordered | apply fuseReg_ordered | apply aonReg_ordered | apply clkCtl_ordered
        | apply pwrReg_ordered | apply signReg_ordered | apply healReg_ordered | apply healHubReg_ordered | apply portReg_ordered | apply causeReg_ordered
        | apply xtabReg_ordered | apply Ordered.ite
    | split
theorem fieldsWrite_ordered {a0} {a1} {a2} {a3} {a4} {a5} (h : Ordered a0) : Ordered (fieldsWrite a0 a1 a2 a3 a4 a5).1 := by
  unfold fieldsWrite
  repeat' first
    | with_reducible first
        | exact h | assumption | apply accessDenied_ordered | apply rangeAt_ordered | apply writeOutcome_ordered | apply withMirror_ordered
        | apply pairReg_ordered | apply clusRefused_ordered | apply regReg_ordered | (intro _) | apply Ordered.ite | apply Ordered.upd h
    | split
    | (dsimp only; split)
theorem pageWrite_ordered {a0} {a1} {a2} {a3} {a4} {a5} (h : Ordered a0) : Ordered (pageWrite a0 a1 a2 a3 a4 a5).1 := by
  unfold pageWrite
  repeat' first
    | with_reducible first
        | exact h | apply accessDenied_ordered | apply accessRange_ordered | apply closedWrite_ordered | apply fieldsWrite_ordered
    | split
theorem broadcastWrite_ordered {a0} {a1} {a2} {a3} {a4} {a5} (h : Ordered a0) : Ordered (broadcastWrite a0 a1 a2 a3 a4 a5).1 := by
  unfold broadcastWrite
  repeat' first
    | with_reducible first
        | exact h | assumption | apply pageWrite_ordered | (intro _) | apply Ordered.foldsFst
    | split
theorem writeCode_ordered {a0} {a1} {a2} {a3} {a4} {a5} (h : Ordered a0) : Ordered (writeCode a0 a1 a2 a3 a4 a5).1 := by
  unfold writeCode
  repeat' first
    | with_reducible first
        | exact h | apply msixWrite_ordered | apply accessRange_ordered | apply broadcastWrite_ordered | apply pageWrite_ordered | apply Ordered.ite
    | split
theorem registerWrite_ordered {a0} {a1} {a2} {a3} {a4} {a5} (h : Ordered a0) : Ordered (registerWrite a0 a1 a2 a3 a4 a5) := by
  unfold registerWrite
  repeat' with_reducible first
    | exact h | apply writeCode_ordered
theorem regCmd_ordered {a0} {a1} {a2} {a3} {a4} (h : Ordered a0) : Ordered (regCmd a0 a1 a2 a3 a4) := by
  unfold regCmd
  repeat' with_reducible first
    | exact h | apply registerWrite_ordered
theorem copyFields_ordered {a0} {a1} {a2} {a3} (h : Ordered a0) : Ordered (copyFields a0 a1 a2 a3) := by
  unfold copyFields
  repeat' with_reducible first
    | exact h | assumption | apply wr_ordered | (intro _) | apply Ordered.ite | apply Ordered.folds
theorem hostSpad_ordered {a0} {a1} {a2} {a3} {a4} (h : Ordered a0) : Ordered (hostSpad a0 a1 a2 a3 a4) := by
  unfold hostSpad
  repeat' with_reducible first
    | exact h | apply hostBad_ordered | apply send_ordered | apply extSpad_ordered | apply Ordered.ite
theorem memServe_ordered {a0} {a1} {a2} {a3} {a4} (h : Ordered a0) : Ordered (memServe a0 a1 a2 a3 a4) := by
  unfold memServe
  repeat' with_reducible first
    | exact h | apply blockRead_ordered | apply bump_ordered | apply settle_ordered | apply Ordered.folds
theorem unitMem_ordered {a0} {a1} {a2} {a3} {a4} (h : Ordered a0) : Ordered (unitMem a0 a1 a2 a3 a4).1 := by
  unfold unitMem
  repeat' first
    | with_reducible first
        | exact h | assumption | apply reqRefused_ordered | apply memWrite_ordered | apply memServe_ordered | (intro _) | apply Ordered.foldsFst
    | split
    | (dsimp only; split)
theorem hostMem_ordered {a0} {a1} {a2} {a3} {a4} {a5} (h : Ordered a0) : Ordered (hostMem a0 a1 a2 a3 a4 a5) := by
  unfold hostMem
  repeat' with_reducible first
    | exact h | apply unitMem_ordered | apply send_ordered | apply Ordered.ite
theorem barAccess_ordered {a0} {a1} {a2} {a3} {a4} {a5} (h : Ordered a0) : Ordered (barAccess a0 a1 a2 a3 a4 a5) := by
  unfold barAccess
  repeat' with_reducible first
    | exact h | apply hostSpad_ordered | apply hostBad_ordered | apply send_ordered | apply hostMem_ordered | apply Ordered.ite
theorem sendBlk_ordered {a0} {a1} {a2} (h : Ordered a0) : Ordered (sendBlk a0 a1 a2) := by
  unfold sendBlk
  repeat' with_reducible first
    | exact h | apply send_ordered
theorem laneOut_ordered {a0} {a1} {a2} {a3} {a4} (h : Ordered a0) : Ordered (laneOut a0 a1 a2 a3 a4) := by
  unfold laneOut
  repeat' with_reducible first
    | exact h | apply send_ordered | apply setPort_ordered
theorem spareOut_ordered {a0} {a1} {a2} {a3} (h : Ordered a0) : Ordered (spareOut a0 a1 a2 a3) := by
  unfold spareOut
  repeat' with_reducible first
    | apply laneOut_ordered | apply Ordered.upd h
theorem nackPkt_ordered {a0} {a1} {a2} {a3} (h : Ordered a0) : Ordered (nackPkt a0 a1 a2 a3) := by
  unfold nackPkt
  repeat' with_reducible first
    | exact h | apply inject_ordered | apply bump_ordered
theorem jRespond_ordered {a0} {a1} {a2} {a3} {a4} {a5} (h : Ordered a0) : Ordered (jRespond a0 a1 a2 a3 a4 a5) := by
  unfold jRespond
  repeat' first
    | with_reducible first
        | exact h | assumption | apply bump_ordered | apply inject_ordered | (intro _) | apply Ordered.ite | apply Ordered.folds
    | split
theorem jRefuse_ordered {a0} {a1} {a2} {a3} (h : Ordered a0) : Ordered (jRefuse a0 a1 a2 a3) := by
  unfold jRefuse
  repeat' with_reducible first
    | exact h | apply nackPkt_ordered | apply jRespond_ordered | (intro _) | apply Ordered.ite | apply Ordered.folds
theorem jStart_ordered {a0} {a1} {a2} {a3} (h : Ordered a0) : Ordered (jStart a0 a1 a2 a3) := by
  unfold jStart
  repeat' with_reducible first
    | exact h | apply spadApply_ordered | apply setSlot_ordered | (intro _) | apply Ordered.folds
theorem jHoldPart_ordered {a0} {a1} {a2} {a3} {a4} {a5} {a6} (h : Ordered a0) : Ordered (jHoldPart a0 a1 a2 a3 a4 a5 a6) := by
  unfold jHoldPart
  repeat' with_reducible first
    | exact h | apply spadApply_ordered | (intro _) | apply Ordered.folds
theorem jFetch_ordered {a0} {a1} {a2} (h : Ordered a0) : Ordered (jFetch a0 a1 a2).1 := by
  unfold jFetch
  repeat' first
    | with_reducible first
        | exact h | apply spadFetch_ordered
    | with_reducible refine Ordered.fst (by assumption) ?_
    | split
theorem jAddPart_ordered {a0} {a1} {a2} {a3} {a4} {a5} (h : Ordered a0) : Ordered (jAddPart a0 a1 a2 a3 a4 a5) := by
  unfold jAddPart
  repeat' with_reducible first
    | exact h | assumption | apply jFetch_ordered | apply spadApply_ordered | (intro _) | apply Ordered.folds
theorem jMark_ordered {a0} {a1} {a2} {a3} {a4} {a5} (h : Ordered a0) : Ordered (jMark a0 a1 a2 a3 a4 a5) := by
  unfold jMark
  repeat' with_reducible first
    | exact h | apply spadApply_ordered | (intro _) | apply Ordered.folds
theorem jComplete_ordered {a0} {a1} {a2} {a3} {a4} (h : Ordered a0) : Ordered (jComplete a0 a1 a2 a3 a4) := by
  unfold jComplete
  repeat' with_reducible first
    | exact h | apply bump_ordered | apply setSlot_ordered | apply applyWord_ordered | apply qErr_ordered | apply writeStat_ordered | apply wakeCause_ordered
    | (intro _) | apply Ordered.ite | apply Ordered.folds
theorem jSettle_ordered {a0} {a1} {a2} {a3} (h : Ordered a0) : Ordered (jSettle a0 a1 a2 a3) := by
  unfold jSettle
  repeat' with_reducible first
    | exact h | apply jComplete_ordered | apply Ordered.ite

end Sys2Proof.Machine
end

