-- ==== Sys2Proof/Laws/Ordered3.lean ====
section
/-! SUPPORT. The tables every shared operation keeps in rising order: continued from Ordered2.lean, callees before callers. -/
namespace Sys2Proof.Machine
open Sys2Proof
set_option Elab.async false

theorem junctionPacket_ordered {a0} {a1} {a2} (h : Ordered a0) : Ordered (junctionPacket a0 a1 a2) := by
  unfold junctionPacket
  repeat' with_reducible first
    | exact h | apply bump_ordered | apply jRefuse_ordered | apply qErr_ordered | apply jRespond_ordered | apply jStart_ordered | apply jHoldPart_ordered
    | apply jAddPart_ordered | apply jMark_ordered | apply setSlot_ordered | apply bumpBy_ordered | apply jSettle_ordered | apply Ordered.ite
theorem takePkt_ordered {a0} {a1} {a2} (h : Ordered a0) : Ordered (takePkt a0 a1 a2) := by
  unfold takePkt
  repeat' with_reducible first
    | exact h | apply setRout_ordered
theorem holdPkt_ordered {a0} {a1} {a2} (h : Ordered a0) : Ordered (holdPkt a0 a1 a2) := by
  unfold holdPkt
  repeat' with_reducible first
    | exact h | apply setRout_ordered | apply Ordered.ite
theorem askBanks_ordered {a0} {a1} {a2} {a3} (h : Ordered a0) : Ordered (askBanks a0 a1 a2 a3).1 := by
  fun_induction askBanks
  repeat' first
    | with_reducible first
        | exact h | apply bankAsk_ordered
    | with_reducible refine Ordered.fst (by assumption) ?_
    | with_reducible apply_assumption
theorem junctionIn_ordered {a0} {a1} {a2} (h : Ordered a0) : Ordered (junctionIn a0 a1 a2) := by
  unfold junctionIn
  repeat' with_reducible first
    | exact h | apply junctionPacket_ordered | apply takePkt_ordered | apply jRefuse_ordered | apply bump_ordered | apply holdPkt_ordered | apply askBanks_ordered
    | (intro _) | apply Ordered.ite | apply Ordered.folds
theorem bankReach_ordered {a0} {a1} {a2} {a3} (h : Ordered a0) : Ordered (bankReach a0 a1 a2 a3) := by
  unfold bankReach
  repeat' with_reducible first
    | exact h | apply setBank_ordered | apply bankRetarget_ordered | apply Ordered.ite
theorem bankPowered_ordered {a0} {a1} {a2} (h : Ordered a0) : Ordered (bankPowered a0 a1 a2) := by
  unfold bankPowered
  repeat' with_reducible first
    | exact h | apply spadServe_ordered | apply bankReach_ordered | apply setCore_ordered | apply Ordered.ite | apply Ordered.core | apply bankLose_spad
theorem setPower_ordered {a0} {a1} (h : Ordered a0) : Ordered (setPower a0 a1) := by
  unfold setPower
  repeat' with_reducible apply Ordered.upd h
theorem takeCmd_ordered {a0} {a1} (h : Ordered a0) : Ordered (takeCmd a0 a1) := by
  unfold takeCmd
  repeat' with_reducible first
    | exact h | apply setHost_ordered
theorem withCmd_ordered {a0} {a1} {a2} {a3} {a4} (h : Ordered a0) (h4 : ∀ s x, Ordered s → Ordered (a4 s x)) : Ordered (withCmd a0 a1 a2 a3 a4) := by
  unfold withCmd
  repeat' first
    | with_reducible first
        | exact h | apply h4 | apply takeCmd_ordered | apply Ordered.ite
    | split
theorem finish_ordered {a0} {a1} {a2} {a3} {a4} (h : Ordered a0) : Ordered (finish a0 a1 a2 a3 a4) := by
  unfold finish
  repeat' with_reducible first
    | exact h | apply complete_ordered
theorem endCmd_ordered {a0} {a1} {a2} {a3} (h : Ordered a0) : Ordered (endCmd a0 a1 a2 a3) := by
  unfold endCmd
  repeat' with_reducible first
    | exact h | apply finish_ordered
theorem setDevice_ordered {a0} {a1} (h : Ordered a0) : Ordered (setDevice a0 a1) := by
  unfold setDevice
  repeat' with_reducible first
    | exact h | apply signAll_ordered | apply fdSet_ordered | (intro _) | apply Ordered.folds
theorem enablePorts_ordered {a0} (h : Ordered a0) : Ordered (enablePorts a0) := by
  unfold enablePorts
  repeat' with_reducible first
    | exact h | assumption | apply portEnable_ordered | apply fdSet_ordered | (intro _) | apply Ordered.ite | apply Ordered.folds
theorem fabricCfg_ordered {a0} {a1} {a2} {a3} (h : Ordered a0) : Ordered (fabricCfg a0 a1 a2 a3).1 := by
  unfold fabricCfg
  repeat' first
    | with_reducible first
        | exact h | assumption | apply setDevice_ordered | apply setHost_ordered | apply setRoutes_ordered | apply xctlWrite_ordered | apply fdSet_ordered
        | apply portRetrain_ordered | apply gradeEval_ordered | apply enablePorts_ordered | apply setFlash_ordered | (intro _) | apply Ordered.ite
        | apply Ordered.folds
    | split
    | (dsimp only; split)
theorem fabricCmd_ordered {a0} {a1} {a2} (h : Ordered a0) : Ordered (fabricCmd a0 a1 a2) := by
  unfold fabricCmd
  repeat' with_reducible first
    | exact h | apply endCmd_ordered | apply fabricCfg_ordered | apply Ordered.ite
theorem onFabCfg_ordered {a0} {a1} {a2} {a3} (h : Ordered a0) : OrderedNext (onFabCfg a0 a1 a2 a3) := by
  unfold onFabCfg
  repeat' with_reducible first
    | exact h | apply onUnit_ordered | apply withCmd_ordered | apply fabricCmd_ordered | (intro _)
theorem setMu_ordered {a0} {a1} {a2} {a3} (h : Ordered a0) : Ordered (setMu a0 a1 a2 a3) := by
  unfold setMu
  repeat' first
    | with_reducible first
        | exact h | apply setCore_ordered
    | (refine SpadOrdered.of2 (Ordered.core ?_ _) rfl rfl)
theorem muWalkEnd_ordered {a0} {a1} {a2} (h : Ordered a0) : Ordered (muWalkEnd a0 a1 a2) := by
  unfold muWalkEnd
  repeat' with_reducible first
    | exact h | apply rangeRelease_ordered | apply setMu_ordered | apply emitTok_ordered | apply takeCredits_ordered
theorem muBegin_ordered {a0} {a1} {a2} {a3} {a4} (h : Ordered a0) : Ordered (muBegin a0 a1 a2 a3 a4) := by
  unfold muBegin
  repeat' with_reducible first
    | exact h | apply coreErr_ordered | apply rangeTake_ordered | apply setMu_ordered | apply muWalkEnd_ordered | apply Ordered.ite
theorem fuseExpiry_ordered {a0} (h : Ordered a0) : Ordered (fuseExpiry a0) := by
  unfold fuseExpiry
  repeat' with_reducible first
    | exact h | apply fdSet_ordered | apply setHost_ordered | apply Ordered.ite
theorem qpopTimeout_ordered {a0} {a1} (h : Ordered a0) : Ordered (qpopTimeout a0 a1) := by
  unfold qpopTimeout
  repeat' first
    | with_reducible first
        | exact h | apply seqFinish_ordered
    | split
theorem discardPkt_ordered {a0} {a1} {a2} (h : Ordered a0) : Ordered (discardPkt a0 a1 a2) := by
  unfold discardPkt
  repeat' with_reducible first
    | exact h | apply bump_ordered | apply xAdd_ordered | apply Ordered.ite
theorem offBits_ordered {a0} {a1} (h : Ordered a0) : Ordered (offBits a0 a1) := by
  unfold offBits
  repeat' with_reducible first
    | exact h | apply queueBlk_ordered | apply fdSet_ordered | apply Ordered.ite
theorem setPart_ordered {a0} {a1} {a2} (h : Ordered a0) : Ordered (setPart a0 a1 a2) := by
  unfold setPart
  repeat' with_reducible first
    | exact h | apply offBits_ordered | apply setPort_ordered
theorem setRx_ordered {a0} {a1} {a2} (h : Ordered a0) : Ordered (setRx a0 a1 a2) := by
  unfold setRx
  repeat' with_reducible first
    | exact h | apply offBits_ordered | apply setPort_ordered
theorem receivePkt_ordered {a0} {a1} {a2} (h : Ordered a0) : Ordered (receivePkt a0 a1 a2) := by
  unfold receivePkt
  repeat' with_reducible first
    | exact h | apply discardPkt_ordered | apply bump_ordered | apply setRx_ordered | apply Ordered.ite
theorem blkBegin_ordered {a0} {a1} {a2} (h : Ordered a0) : Ordered (blkBegin a0 a1 a2) := by
  unfold blkBegin
  repeat' with_reducible first
    | exact h | apply setPort_ordered | apply fdSet_ordered | apply discardPkt_ordered | apply receivePkt_ordered | apply setPart_ordered | apply Ordered.ite
theorem blkIn_ordered {a0} {a1} {a2} (h : Ordered a0) : Ordered (blkIn a0 a1 a2) := by
  unfold blkIn
  repeat' first
    | with_reducible first
        | exact h | apply discardPkt_ordered | apply setPart_ordered | apply bump_ordered | apply setPort_ordered | apply receivePkt_ordered
        | apply blkBegin_ordered | apply Ordered.ite
    | split
theorem rxLost_ordered {a0} {a1} (h : Ordered a0) : Ordered (rxLost a0 a1) := by
  unfold rxLost
  repeat' first
    | with_reducible first
        | exact h | apply discardPkt_ordered | apply setPart_ordered | apply setPort_ordered
    | split
theorem toHalf_ordered {a0} {a1} (h : Ordered a0) : Ordered (toHalf a0 a1) := by
  unfold toHalf
  repeat' with_reducible first
    | exact h | apply portDown_ordered | apply wr_ordered | apply setPort_ordered | apply fdSet_ordered | apply raiseInt_ordered | apply setPState_ordered
    | apply rxLost_ordered | apply Ordered.ite
theorem halfDone_ordered {a0} {a1} (h : Ordered a0) : Ordered (halfDone a0 a1) := by
  unfold halfDone
  repeat' with_reducible first
    | exact h | apply toHalf_ordered | apply Ordered.ite
theorem onFlit_ordered {a0} {a1} {a2} {a3} (h : Ordered a0) (h3 : ∀ s x, Ordered s → Ordered (a3 s x)) : OrderedNext (onFlit a0 a1 a2 a3) := by
  unfold onFlit
  repeat' with_reducible first
    | exact h | assumption | apply h3 | apply bump_ordered | (intro _) | apply Ordered.ite | apply OrderedNext.next | apply OrderedNext.fault
    | apply OrderedNext.ite | apply Ordered.folds
theorem twinSelSample_ordered {a0} {a1} (h : Ordered a0) : Ordered (twinSelSample a0 a1) := by
  unfold twinSelSample
  repeat' with_reducible first
    | exact h | apply setPins_ordered | apply fdSet_ordered | apply Ordered.ite
theorem noticeAnswered_ordered {a0} {a1} {a2} (h : Ordered a0) : Ordered (noticeAnswered a0 a1 a2) := by
  unfold noticeAnswered
  repeat' first
    | with_reducible first
        | exact h | apply setHub_ordered
    | split
theorem sliceRead_ordered {a0} {a1} {a2} {a3} {a4} (h : Ordered a0) : Ordered (sliceRead a0 a1 a2 a3 a4) := by
  unfold sliceRead
  repeat' first
    | with_reducible first
        | exact h | apply readServe_ordered | apply Ordered.ite
    | split
theorem releaseCore_ordered {a0} {a1} (h : Ordered a0) : Ordered (releaseCore a0 a1) := by
  unfold releaseCore
  repeat' with_reducible first
    | exact h | apply joinPool_ordered | apply syncHold_ordered | apply bindCore_ordered
theorem dropSigns_ordered {a0} {a1} (h : Ordered a0) : Ordered (dropSigns a0 a1) := by
  unfold dropSigns
  repeat' with_reducible first
    | exact h | apply invalAll_ordered | apply signPut_ordered | (intro _) | apply Ordered.ite | apply Ordered.folds
theorem grantPut_ordered {a0} {a1} {a2} {a3} (h : Ordered a0) : Ordered (grantPut a0 a1 a2 a3) := by
  unfold grantPut
  repeat' with_reducible apply Ordered.upd h
theorem itinDrop_ordered {a0} {a1} (h : Ordered a0) : Ordered (itinDrop a0 a1) := by
  unfold itinDrop
  repeat' first
    | with_reducible first
        | exact h | apply releaseCore_ordered | apply dropSigns_ordered | apply grantPut_ordered | apply setCtx_ordered | (intro _) | apply Ordered.folds
    | split
theorem memWriteSpan_ordered {a0} {a1} {a2} {a3} (h : Ordered a0) : Ordered (memWriteSpan a0 a1 a2 a3) := by
  unfold memWriteSpan
  repeat' with_reducible first
    | exact h | apply memWrite_ordered | (intro _) | apply Ordered.folds
theorem banksOn_ordered {a0} {a1} (h : Ordered a0) : Ordered (banksOn a0 a1) := by
  unfold banksOn
  repeat' first
    | with_reducible first
        | exact h | apply wr_ordered | apply setBanks_ordered | apply setCore_ordered | (intro _) | apply Ordered.folds
    | (refine SpadOrdered.of2 (Ordered.core ?_ _) rfl rfl)
theorem imageReg_ordered {a0} {a1} {a2} (h : Ordered a0.1) : Ordered (imageReg a0 a1 a2).1 := by
  unfold imageReg
  repeat' with_reducible first
    | exact h | apply writeCode_ordered
theorem loadLocal_ordered {a0} {a1} {a2} (h : Ordered a0) : Ordered (loadLocal a0 a1 a2) := by
  unfold loadLocal
  repeat' with_reducible first
    | exact h | apply setSeq_ordered
theorem regionFill_ordered {a0 : State} {a1 a2 a3 a4} (h : Ordered a0) : Ordered (regionFill a0 a1 a2 a3 a4) := by
  unfold regionFill
  extract_lets
  refine bumpBy_ordered (setCore_ordered h ⟨?_, ?_⟩) <;> dsimp only
  · refine twf_foldl (fun t x ht => ?_) (twf_tfilter (Ordered.core h a1).1 _) _
    split
    · exact ht
    · exact twf_tput _ _ ht
  · exact twf_foldl (fun t x ht => twf_tput _ _ ht) (twf_tfilter (Ordered.core h a1).2 _) _
theorem loadHomes_ordered {a0} {a1} (h : Ordered a0) : Ordered (loadHomes a0 a1) := by
  unfold loadHomes
  repeat' with_reducible first
    | exact h | assumption | apply fdSet_ordered | apply regionFill_ordered | apply fetchHome_ordered | (intro _) | apply Ordered.ite | apply Ordered.folds
theorem placeCore_ordered {a0} {a1} {a2} (h : Ordered a0.1) : Ordered (placeCore a0 a1 a2).1 := by
  unfold placeCore
  repeat' with_reducible first
    | exact h | assumption | apply withMate_ordered | apply banksOn_ordered | apply applyTarget_ordered | apply setTarget_ordered | apply bindCore_ordered
    | apply imageReg_ordered | apply loadLocal_ordered | apply loadHomes_ordered | apply fdSet_ordered | apply signPut_ordered | (intro _)
    | apply Ordered.foldsFst
theorem homesOut_ordered {a0} {a1} (h : Ordered a0) : Ordered (homesOut a0 a1) := by
  unfold homesOut
  repeat' with_reducible first
    | exact h | assumption | apply cwSend_ordered | (intro _) | apply Ordered.ite | apply Ordered.folds
theorem itinPlace_ordered {a0} {a1} {a2} {a3} (h : Ordered a0) : Ordered (itinPlace a0 a1 a2 a3) := by
  unfold itinPlace
  repeat' with_reducible first
    | exact h | apply itinDrop_ordered | apply memWriteSpan_ordered | apply placeCore_ordered | apply grantPut_ordered | apply invalAll_ordered
    | apply setCtx_ordered | apply endCmd_ordered | apply seqCtlWrite_ordered | apply ctxHold_ordered | apply homesOut_ordered | (intro _) | apply Ordered.ite
    | apply Ordered.folds | apply Ordered.foldsFst
theorem mvCmd_ordered {a0} {a1} {a2} {a3} {a4} {a5} (h : Ordered a0) : Ordered (mvCmd a0 a1 a2 a3 a4 a5) := by
  unfold mvCmd
  repeat' with_reducible first
    | exact h | apply registerWrite_ordered
theorem copyBlocks_ordered {a0} {a1} {a2} (h : Ordered a0) : Ordered (copyBlocks a0 a1 a2) := by
  unfold copyBlocks
  repeat' with_reducible apply Ordered.upd h
theorem readFaulty_ordered {a0} {a1} (h : Ordered a0) : Ordered (readFaulty a0 a1) := by
  unfold readFaulty
  repeat' with_reducible first
    | exact h | assumption | apply blockRead_ordered | (intro _) | apply Ordered.ite | apply Ordered.folds
theorem copySlice_ordered {a0} {a1} {a2} (h : Ordered a0) : Ordered (copySlice a0 a1 a2) := by
  unfold copySlice
  repeat' with_reducible first
    | exact h | apply copyBlocks_ordered | apply readFaulty_ordered
theorem sliceEvacuated_ordered {a0} {a1} (h : Ordered a0) : Ordered (sliceEvacuated a0 a1) := by
  unfold sliceEvacuated
  repeat' with_reducible first
    | exact h | apply copySlice_ordered | apply setSlice_ordered | apply Ordered.ite
theorem beginStep_ordered {a0} {a1} (h : Ordered a0) : Ordered (beginStep a0 a1) := by
  unfold beginStep
  repeat' with_reducible first
    | exact h | apply setPins_ordered | apply fdSet_ordered
theorem stepTime_ordered {a0} {a1} (h : Ordered a0) : Ordered (stepTime a0 a1) := by
  unfold stepTime
  repeat' with_reducible first
    | exact h | apply fdSet_ordered
theorem endStep_ordered {a0} {a1} (h : Ordered a0) : Ordered (endStep a0 a1) := by
  unfold endStep
  repeat' with_reducible first
    | exact h | apply beginStep_ordered | apply stepTime_ordered
theorem powerUpWave_ordered {a0} {a1} {a2} {a3} (h : Ordered a0) : Ordered (powerUpWave a0 a1 a2 a3) := by
  unfold powerUpWave
  repeat' with_reducible first
    | exact h | assumption | apply closeUnit_ordered | apply clusterReset_ordered | apply railUp_ordered | apply fdSet_ordered | apply endStep_ordered
    | (intro _) | apply Ordered.ite | apply Ordered.folds
theorem abortMile_ordered {a0} {a1} {a2} (h : Ordered a0) : Ordered (abortMile a0 a1 a2) := by
  unfold abortMile
  repeat' with_reducible first
    | exact h | assumption | apply postAbort_ordered | (intro _) | apply Ordered.ite | apply Ordered.folds
theorem compareDigests_ordered {a0} {a1} (h : Ordered a0) : Ordered (compareDigests a0 a1) := by
  unfold compareDigests
  repeat' first
    | with_reducible first
        | exact h | assumption | apply setTwin_ordered | apply raiseInt_ordered | apply errAt_ordered | apply bump_ordered | apply twinSend_ordered
        | apply abortMile_ordered | (intro _) | apply Ordered.ite | apply Ordered.folds | apply Ordered.elim
    | split
theorem sendDigest_ordered {a0} {a1} {a2} (h : Ordered a0) : Ordered (sendDigest a0 a1 a2) := by
  unfold sendDigest
  repeat' with_reducible first
    | exact h | apply twinSend_ordered | (intro _) | apply Ordered.elim
theorem cwReturned_ordered {a0} (h : Ordered a0) : Ordered (cwReturned a0) := by
  unfold cwReturned
  repeat' with_reducible first
    | exact h | assumption | apply setPst_ordered | apply compareDigests_ordered | apply sendDigest_ordered | (intro _) | apply Ordered.ite
    | apply Ordered.folds
theorem askLost_ordered {a0} {a1} (h : Ordered a0) (g1 : Ordered a1) : Ordered (askLost a0 a1) := by
  unfold askLost
  repeat' with_reducible first
    | assumption | apply postNotice_ordered | (intro _) | apply Ordered.folds
theorem portChanged_ordered {a0} {a1} {a2} (h : Ordered a0) (g2 : Ordered a2) : Ordered (portChanged a0 a1 a2) := by
  unfold portChanged
  repeat' with_reducible first
    | exact h | assumption | apply cwReturned_ordered | apply askLost_ordered | apply gradeEval_ordered | apply Ordered.ite
theorem halfRetrain_ordered {a0} {a1} (h : Ordered a0) : Ordered (halfRetrain a0 a1) := by
  unfold halfRetrain
  repeat' with_reducible first
    | exact h | apply portDisable_ordered | apply fdSet_ordered | apply portEnable_ordered | apply setPort_ordered | apply Ordered.ite
theorem laneCount_ordered {a0} {a1} {a2} {a3} (h : Ordered a0) : Ordered (laneCount a0 a1 a2 a3) := by
  unfold laneCount
  repeat' first
    | with_reducible first
        | exact h | apply bump_ordered | apply watch_ordered | apply Ordered.ite
    | split
theorem onClus_ordered {a0} {a1} (h : Ordered a1) : OrderedNext (onClus a0 a1) := by
  unfold onClus
  repeat' with_reducible first
    | exact h | apply onUnit_ordered
theorem pllWake_ordered {a0} {a1} (h : Ordered a0) : Ordered (pllWake a0 a1) := by
  unfold pllWake
  repeat' with_reducible first
    | exact h | apply pllStart_ordered | apply Ordered.ite
theorem onGauge_ordered {a0} {a1} {a2} (h : Ordered a2) : OrderedNext (onGauge a0 a1 a2) := by
  unfold onGauge
  repeat' with_reducible first
    | exact h | apply onUnit_ordered | apply OrderedNext.fault | apply OrderedNext.ite
theorem regCmdSet_ordered {a0} {a1} {a2} {a3} {a4} {a5} (h : Ordered a0) : Ordered (regCmdSet a0 a1 a2 a3 a4 a5) := by
  unfold regCmdSet
  repeat' with_reducible first
    | exact h | apply registerWrite_ordered
theorem mainOff_ordered {a0} (h : Ordered a0) : Ordered (mainOff a0) := by
  unfold mainOff
  repeat' with_reducible first
    | exact h | apply moduleDown_ordered | apply setPins_ordered
theorem auxLost_ordered {a0} (h : Ordered a0) : Ordered (auxLost a0) := by
  unfold auxLost
  repeat' with_reducible first
    | exact h | apply mainOff_ordered | apply clearPages_ordered | apply setTwin_ordered | apply setHost_ordered | apply setPins_ordered | apply Ordered.ite
    | apply Ordered.upd
theorem stackTemp_ordered {a0} {a1} {a2} (h : Ordered a0) : Ordered (stackTemp a0 a1 a2) := by
  unfold stackTemp
  repeat' with_reducible first
    | exact h | apply recJudge_ordered | apply fdSet_ordered
theorem thermalTrip_ordered {a0} (h : Ordered a0) : Ordered (thermalTrip a0) := by
  unfold thermalTrip
  repeat' with_reducible first
    | exact h | apply mainOff_ordered | apply setPins_ordered | apply Ordered.ite
theorem tempSample_ordered {a0} {a1} {a2} {a3} (h : Ordered a0) : Ordered (tempSample a0 a1 a2 a3) := by
  unfold tempSample
  repeat' first
    | with_reducible first
        | exact h | assumption | apply fdSet_ordered | apply setPower_ordered | apply stackTemp_ordered | apply thermalTrip_ordered | (intro _)
        | apply Ordered.ite | apply Ordered.folds
    | split
theorem applyMap_ordered {a0} (h : Ordered a0) : Ordered (applyMap a0) := by
  unfold applyMap
  repeat' with_reducible first
    | exact h | apply bridgesReset_ordered | apply coresOff_ordered | apply Ordered.folds
theorem vfRefused_ordered {a0} {a1} {a2} {a3} (h : Ordered a0) : Ordered (vfRefused a0 a1 a2 a3) := by
  unfold vfRefused
  repeat' with_reducible first
    | exact h | apply errAt_ordered | apply Ordered.ite
theorem vfPair_ordered {a0} {a1} {a2} {a3} {a4} {a5} (h : Ordered a0) : Ordered (vfPair a0 a1 a2 a3 a4 a5) := by
  unfold vfPair
  repeat' first
    | with_reducible first
        | exact h | apply send_ordered | apply ringAddr_ordered | apply vfRefused_ordered | apply Ordered.upd h
    | split
    | (dsimp only; split)
theorem vfBar0_ordered {a0} {a1} {a2} {a3} {a4} (h : Ordered a0) : Ordered (vfBar0 a0 a1 a2 a3 a4) := by
  unfold vfBar0
  repeat' with_reducible first
    | exact h | apply send_ordered | apply vfPair_ordered | apply ringCfg_ordered | apply vfRefused_ordered | apply doorbell_ordered | apply setRing_ordered
    | apply msixWrite_ordered | apply hostBad_ordered | apply Ordered.ite
theorem ringCmd_ordered {a0} {a1} {a2} {a3} (h : Ordered a0) : Ordered (ringCmd a0 a1 a2 a3) := by
  unfold ringCmd
  repeat' first
    | with_reducible first
        | exact h | apply registerWrite_ordered | apply vfBar0_ordered
    | split
theorem ofType_ordered {a0} {a1} {a2} {a3} (h : Ordered a0) (g3 : Ordered a3) : Ordered (ofType a0 a1 a2 a3) := by
  unfold ofType
  repeat' with_reducible first
    | exact h | assumption | apply Ordered.ite
theorem answerFrom_ordered {a0} {a1} {a2} {a3} {a4} (h : Ordered a0) : Ordered (answerFrom a0 a1 a2 a3 a4) := by
  unfold answerFrom
  repeat' with_reducible first
    | exact h | apply sendFrom_ordered | (intro _) | apply Ordered.folds
theorem withFollower_ordered {a0} {a1} {a2} (h : Ordered a0) (h2 : ∀ s x, Ordered s → Ordered (a2 s x)) : Ordered (withFollower a0 a1 a2) := by
  unfold withFollower
  repeat' with_reducible first
    | exact h | apply h2 | apply setQe_ordered | apply Ordered.ite
theorem localPort_ordered {a0} {a1} {a2} {a3} (h : Ordered a0) (h3 : ∀ s x, Ordered s → Ordered (a3 s x)) : Ordered (localPort a0 a1 a2 a3) := by
  unfold localPort
  repeat' with_reducible first
    | exact h | assumption | apply takePkt_ordered | apply answerFrom_ordered | apply bump_ordered | apply withFollower_ordered | apply Ordered.ite
theorem staleReply_ordered {a0} {a1} {a2} (h : Ordered a0) : Ordered (staleReply a0 a1 a2) := by
  unfold staleReply
  repeat' with_reducible first
    | exact h | apply qErr_ordered | apply bump_ordered
theorem openFail_ordered {a0} {a1} {a2} {a3} (h : Ordered a0) : Ordered (openFail a0 a1 a2 a3) := by
  unfold openFail
  repeat' first
    | with_reducible first
        | exact h | apply setChan_ordered | apply qErr_ordered | apply seqFinish_ordered | apply Ordered.ite
    | (dsimp only; split)
theorem openRsp_ordered {a0} {a1} {a2} (h : Ordered a0) : Ordered (openRsp a0 a1 a2) := by
  unfold openRsp
  repeat' first
    | with_reducible first
        | exact h | apply staleReply_ordered | apply setChan_ordered | apply seqFinish_ordered | apply openFail_ordered | apply Ordered.ite
    | (dsimp only; split)
theorem cacheForget_ordered {a0} {a1} {a2} (h : Ordered a0) : Ordered (cacheForget a0 a1 a2) := by
  unfold cacheForget
  repeat' with_reducible first
    | exact h | apply setRout_ordered | apply Ordered.ite
theorem mgmtMsg_ordered {a0} {a1} (h : Ordered a0) (h1 : ∀ s, Ordered s → Ordered (a1 s)) : Ordered (mgmtMsg a0 a1) := by
  unfold mgmtMsg
  repeat' with_reducible first
    | exact h | apply h1 | apply bump_ordered | apply Ordered.ite
theorem mgmtHeal_ordered {a0} {a1} {a2} (h : Ordered a0) : Ordered (mgmtHeal a0 a1 a2) := by
  unfold mgmtHeal
  repeat' with_reducible first
    | exact h | apply mgmtMsg_ordered | apply send_ordered | (intro _)
theorem imageRefused_ordered {a0} {a1} (h : Ordered a0) : Ordered (imageRefused a0 a1) := by
  unfold imageRefused
  repeat' with_reducible first
    | exact h | apply fdSet_ordered | apply raiseInt_ordered | apply errAt_ordered | apply bump_ordered
theorem bootFrom_ordered {a0} {a1} (h : Ordered a0) : Ordered (bootFrom a0 a1) := by
  unfold bootFrom
  repeat' with_reducible first
    | exact h | apply fdSet_ordered
theorem serviceImageLoad_ordered {a0} {a1} {a2} {a3} (h : Ordered a0) : Ordered (serviceImageLoad a0 a1 a2 a3) := by
  unfold serviceImageLoad
  repeat' with_reducible first
    | exact h | assumption | apply fdSet_ordered | apply imageRefused_ordered | apply bootFrom_ordered | apply bump_ordered | apply closeUnit_ordered
    | apply endStep_ordered | (intro _) | apply Ordered.ite | apply Ordered.folds
theorem napWake_ordered {a0} {a1} (h : Ordered a0) : Ordered (napWake a0 a1) := by
  unfold napWake
  repeat' first
    | with_reducible first
        | exact h | apply napEnd_ordered | apply Ordered.ite
    | split
theorem flipWeight_ordered {a0} {a1} {a2} {a3} (h : Ordered a0) : Ordered (flipWeight a0 a1 a2 a3) := by
  unfold flipWeight
  repeat' with_reducible first
    | exact h | apply setArr_ordered
theorem flipAcc_ordered {a0} {a1} {a2} {a3} {a4} (h : Ordered a0) : Ordered (flipAcc a0 a1 a2 a3 a4) := by
  unfold flipAcc
  repeat' with_reducible first
    | exact h | apply setArr_ordered | apply Ordered.ite
theorem arrErr_ordered {a0} {a1} {a2} {a3} {a4} {a5} (h : Ordered a0) : Ordered (arrErr a0 a1 a2 a3 a4 a5) := by
  unfold arrErr
  repeat' with_reducible first
    | exact h | apply raiseInt_ordered | apply errAt_ordered
theorem emitFreeCtl_ordered {a0} {a1} {a2} {a3} (h : Ordered a0) : Ordered (emitFreeCtl a0 a1 a2 a3) := by
  unfold emitFreeCtl
  repeat' with_reducible first
    | exact h | apply emitTok_ordered | apply freeUsed_ordered
theorem passDone_ordered {a0} {a1} {a2} (h : Ordered a0) : Ordered (passDone a0 a1 a2) := by
  unfold passDone
  repeat' with_reducible first
    | exact h | apply emitFreeCtl_ordered | apply bump_ordered
theorem seqCommit_ordered {a0} {a1} {a2} {a3} {a4} (h : Ordered a0) : Ordered (seqCommit a0 a1 a2 a3 a4) := by
  unfold seqCommit
  repeat' with_reducible first
    | exact h | apply arrErr_ordered | apply setArr_ordered | apply emitTok_ordered | apply bump_ordered | apply passDone_ordered | apply Ordered.ite
theorem seqMismatch_ordered {a0} {a1} {a2} {a3} {a4} (h : Ordered a0) : Ordered (seqMismatch a0 a1 a2 a3 a4) := by
  unfold seqMismatch
  repeat' with_reducible first
    | exact h | apply raiseInt_ordered | apply bump_ordered | apply reportCore_ordered | apply setArr_ordered | apply seqCommit_ordered | apply arrErr_ordered
    | apply Ordered.ite
theorem accParity_ordered {a0} {a1} {a2} {a3} (h : Ordered a0) : Ordered (accParity a0 a1 a2 a3) := by
  unfold accParity
  repeat' with_reducible first
    | exact h | apply setArr_ordered | apply reportCore_ordered | apply arrErr_ordered
theorem seqResult_ordered {a0} {a1} {a2} (h : Ordered a0) : Ordered (seqResult a0 a1 a2) := by
  unfold seqResult
  repeat' first
    | with_reducible first
        | exact h | apply flipWeight_ordered | apply flipAcc_ordered | apply seqMismatch_ordered | apply seqCommit_ordered | apply accParity_ordered
    | split
    | (dsimp only; split)
theorem winStoreAt_ordered {a0} {a1} {a2} (h : Ordered a0) : Ordered (winStoreAt a0 a1 a2) := by
  unfold winStoreAt
  repeat' with_reducible first
    | exact h | apply seqIssue_ordered
theorem aonRstCmd_ordered {a0} {a1} {a2} {a3} (h : Ordered a0) : Ordered (aonRstCmd a0 a1 a2 a3) := by
  unfold aonRstCmd
  repeat' with_reducible first
    | exact h | apply registerWrite_ordered
theorem replaceCore_ordered {a0} {a1} {a2} (h : Ordered a0) : Ordered (replaceCore a0 a1 a2) := by
  unfold replaceCore
  repeat' with_reducible first
    | exact h | apply setHub_ordered
theorem freezeCutover_ordered {a0} (h : Ordered a0) : Ordered (freezeCutover a0) := by
  unfold freezeCutover
  repeat' first
    | with_reducible first
        | exact h | assumption | apply setCore_ordered | apply signPut_ordered | apply moveAborted_ordered | apply invalAll_ordered | apply fdSet_ordered
        | apply bindCore_ordered | apply withMate_ordered | apply seqRestWake_ordered | apply startFlow_ordered | apply startUnits_ordered
        | apply setMover_ordered | apply bump_ordered | apply replaceCore_ordered | apply joinPool_ordered | apply syncHolds_ordered | (intro _)
        | apply Ordered.ite | apply Ordered.folds
    | split
    | (refine SpadOrdered.of2 (Ordered.core ?_ _) rfl rfl)
theorem drainWait_ordered {a0} {a1} (h : Ordered a0) : Ordered (drainWait a0 a1) := by
  unfold drainWait
  repeat' with_reducible first
    | exact h | assumption | apply memApply_ordered | apply setSlice_ordered | (intro _) | apply Ordered.ite | apply Ordered.folds
theorem jackIn_ordered {a0} {a1} (h : Ordered a0) : Ordered (jackIn a0 a1) := by
  unfold jackIn
  repeat' with_reducible first
    | exact h | assumption | apply drainWait_ordered | apply setStream_ordered | (intro _) | apply Ordered.folds
theorem unwatch_ordered {a0} {a1} {a2} (h : Ordered a0) : Ordered (unwatch a0 a1 a2) := by
  unfold unwatch
  repeat' with_reducible apply Ordered.upd h
theorem jHeldPart_ordered {a0} {a1} {a2} {a3} {a4} {a5} (h : Ordered a0) : Ordered (jHeldPart a0 a1 a2 a3 a4 a5).1 := by
  unfold jHeldPart
  repeat' with_reducible first
    | exact h | apply jFetch_ordered | (intro _) | apply Ordered.foldsFst
theorem wokeUp_ordered {a0} {a1} (h : Ordered a0) : Ordered (wokeUp a0 a1) := by
  unfold wokeUp
  repeat' with_reducible first
    | exact h | apply bump_ordered | apply Ordered.ite
theorem pstMoves_ordered {a0} {a1} (h : Ordered a0) (g1 : Ordered a1) : Ordered (pstMoves a0 a1) := by
  unfold pstMoves
  repeat' with_reducible first
    | assumption | apply movesEnd_ordered | apply Ordered.ite
theorem twinCmd_ordered {a0} {a1} {a2} (h : Ordered a0) (h2 : ∀ s, Ordered s → Ordered (a2 s).1) : Ordered (twinCmd a0 a1 a2) := by
  unfold twinCmd
  extract_lets
  exact Ordered.ite (endCmd_ordered h) (endCmd_ordered (h2 _ h))
theorem bindCmd_ordered {a0} {a1} {a2} {a3} (h : Ordered a0) (h3 : ∀ s x, Ordered s → Ordered (a3 s x).1) : Ordered (bindCmd a0 a1 a2 a3) :=
  withCmd_ordered h fun s k hs => pstMoves_ordered hs (twinCmd_ordered hs fun s h => h3 s k h)
theorem ringsOff_ordered {a0} {a1} (h : Ordered a0) : Ordered (ringsOff a0 a1) := by
  unfold ringsOff
  repeat' with_reducible first
    | exact h | apply setHost_ordered | apply setHub_ordered | apply Ordered.upd
theorem digestOut_ordered {a0} {a1} {a2} {a3} (h : Ordered a0) : Ordered (digestOut a0 a1 a2 a3) := by
  unfold digestOut
  repeat' with_reducible first
    | exact h | apply send_ordered | apply setSeq_ordered | apply Ordered.ite
theorem mileComplete_ordered {a0} {a1} (h : Ordered a0) : Ordered (mileComplete a0 a1) := by
  unfold mileComplete
  repeat' first
    | with_reducible first
        | exact h | apply setSeq_ordered | apply seqFinish_ordered | apply digestOut_ordered | apply coreErr_ordered | apply Ordered.ite
    | split
theorem abortCore_ordered {a0} {a1} {a2} (h : Ordered a0) : Ordered (abortCore a0 a1 a2) := by
  unfold abortCore
  repeat' with_reducible first
    | exact h | apply postAbort_ordered | apply Ordered.ite
theorem mileDone_ordered {a0} {a1} (h : Ordered a0) : Ordered (mileDone a0 a1) := by
  unfold mileDone
  repeat' first
    | with_reducible first
        | exact h | apply mileComplete_ordered | apply abortCore_ordered | apply Ordered.ite
    | split
theorem sliceRequest_ordered {a0} {a1} {a2} (h : Ordered a0) : Ordered (sliceRequest a0 a1 a2) := by
  unfold sliceRequest
  repeat' with_reducible first
    | exact h | apply sliceAnswer_ordered | apply reqRefused_ordered | apply takeEnd_ordered | apply setSlice_ordered | apply bump_ordered
    | apply journalWrite_ordered | apply Ordered.ite
theorem unlatch_ordered {a0} {a1} {a2} {a3} (h : Ordered a0) : Ordered (unlatch a0 a1 a2 a3) := by
  unfold unlatch
  repeat' with_reducible apply Ordered.upd h
theorem linkPeak_ordered {a0} {a1} (h : Ordered a0) : Ordered (linkPeak a0 a1).1 := by
  unfold linkPeak
  repeat' with_reducible first
    | exact h | apply setLink_ordered
theorem logRead_ordered {a0} {a1} (h : Ordered a0) : Ordered (logRead a0 a1) := by
  unfold logRead
  repeat' with_reducible first
    | exact h | apply setLog_ordered
theorem readEffect_ordered {a0} {a1} {a2} {a3} (h : Ordered a0) : Ordered (readEffect a0 a1 a2 a3) := by
  unfold readEffect
  repeat' first
    | with_reducible first
        | exact h | apply winStep_ordered | apply linkPeak_ordered | apply setCore_ordered | apply logRead_ordered | apply setHeal_ordered | apply wr_ordered
        | apply Ordered.ite
    | split
    | (refine SpadOrdered.of2 (Ordered.core ?_ _) rfl rfl)
theorem pageRead_ordered {a0} {a1} {a2} {a3} (h : Ordered a0) : Ordered (pageRead a0 a1 a2 a3).1 := by
  unfold pageRead
  repeat' first
    | with_reducible first
        | exact h | apply accessDenied_ordered | apply accessRange_ordered | apply unlatch_ordered | apply readEffect_ordered
    | split
    | with_reducible apply Ordered.upd
theorem readCode_ordered {a0} {a1} {a2} {a3} (h : Ordered a0) : Ordered (readCode a0 a1 a2 a3).1 := by
  unfold readCode
  repeat' first
    | with_reducible first
        | exact h | apply accessRange_ordered | apply pageRead_ordered
    | split
    | (dsimp only; split)
theorem registerRead_ordered {a0} {a1} {a2} {a3} (h : Ordered a0) : Ordered (registerRead a0 a1 a2 a3) := by
  unfold registerRead
  repeat' with_reducible first
    | exact h | apply readCode_ordered | apply send_ordered
theorem debugRange_ordered {a0} {a1} {a2} (h : Ordered a0) : Ordered (debugRange a0 a1 a2) := by
  unfold debugRange
  repeat' with_reducible first
    | exact h | apply errAt_ordered | apply send_ordered | apply Ordered.ite
theorem debugMem_ordered {a0} {a1} {a2} {a3} (h : Ordered a0) : Ordered (debugMem a0 a1 a2 a3) := by
  unfold debugMem
  repeat' with_reducible first
    | exact h | apply debugRange_ordered | apply unitMem_ordered | apply send_ordered | apply Ordered.ite
theorem debugSpad_ordered {a0} {a1} {a2} {a3} (h : Ordered a0) : Ordered (debugSpad a0 a1 a2 a3) := by
  unfold debugSpad
  repeat' with_reducible first
    | exact h | apply debugRange_ordered | apply extSpad_ordered | apply Ordered.ite
theorem debugAccess_ordered {a0} {a1} {a2} {a3} {a4} (h : Ordered a0) : Ordered (debugAccess a0 a1 a2 a3 a4) := by
  unfold debugAccess
  repeat' first
    | with_reducible first
        | exact h | apply raiseInt_ordered | apply errAt_ordered | apply bump_ordered | apply registerWrite_ordered | apply registerRead_ordered
        | apply debugMem_ordered | apply debugSpad_ordered | apply Ordered.ite
    | split
theorem mailboxAnswer_ordered {a0} {a1} {a2} (h : Ordered a0) : Ordered (mailboxAnswer a0 a1 a2) := by
  unfold mailboxAnswer
  repeat' first
    | with_reducible first
        | exact h | apply setHost_ordered | apply hostEvent_ordered | apply wr_ordered | apply Ordered.ite
    | split
theorem forJob_ordered {a0} {a1} {a2} (h : Ordered a0) (h2 : ∀ s x, Ordered s → Ordered (a2 s x)) : Ordered (forJob a0 a1 a2) := by
  unfold forJob
  repeat' with_reducible first
    | exact h | assumption | apply Ordered.folds
theorem tellAborted_ordered {a0} {a1} {a2} {a3} (h : Ordered a0) : Ordered (tellAborted a0 a1 a2 a3) := by
  unfold tellAborted
  repeat' with_reducible first
    | exact h | apply postNotice_ordered
theorem ctxOpDone_ordered {a0} {a1} (h : Ordered a0) : Ordered (ctxOpDone a0 a1) := by
  unfold ctxOpDone
  repeat' with_reducible first
    | exact h | apply fdSet_ordered | apply setHub_ordered | apply bump_ordered | apply Ordered.ite
theorem ctxOpAll_ordered {a0} {a1} {a2} {a3} (h : Ordered a0) : Ordered (ctxOpAll a0 a1 a2 a3) := by
  unfold ctxOpAll
  repeat' with_reducible first
    | exact h | assumption | apply ctxOpDone_ordered | apply dieCtxOp_ordered | (intro _) | apply Ordered.folds
theorem advanceGen_ordered {a0} {a1} (h : Ordered a0) : Ordered (advanceGen a0 a1) := by
  unfold advanceGen
  repeat' first
    | with_reducible first
        | exact h | apply setHost_ordered | apply setCtx_ordered
    | split
theorem loadPlaces_ordered {a0} {a1} {a2} (h : Ordered a0) : Ordered (loadPlaces a0 a1 a2) := by
  unfold loadPlaces
  repeat' first
    | with_reducible first
        | exact h | assumption | apply withMate_ordered | apply loadLocal_ordered | (intro _) | apply Ordered.ite | apply Ordered.folds
    | split
theorem contextRegen_ordered {a0} {a1} (h : Ordered a0) : Ordered (contextRegen a0 a1) := by
  unfold contextRegen
  repeat' with_reducible first
    | exact h | apply advanceGen_ordered | apply ctxOpAll_ordered | apply grantPut_ordered | apply loadPlaces_ordered | (intro _) | apply Ordered.folds
theorem failReset_ordered {a0} {a1} {a2} (h : Ordered a0) : Ordered (failReset a0 a1 a2) := by
  unfold failReset
  repeat' with_reducible first
    | exact h | apply contextRegen_ordered | apply setCtx_ordered | apply tellAborted_ordered
theorem stepFailed_ordered {a0} {a1} {a2} {a3} (h : Ordered a0) : Ordered (stepFailed a0 a1 a2 a3) := by
  unfold stepFailed
  repeat' first
    | with_reducible first
        | exact h | apply tellAborted_ordered | apply contextFail_ordered | apply ctxOpAll_ordered | apply ctxHold_ordered | apply setCtx_ordered
        | apply failReset_ordered | apply Ordered.ite
    | split
    | (dsimp only; split)
theorem abortIn_ordered {a0} {a1} {a2} {a3} (h : Ordered a0) : Ordered (abortIn a0 a1 a2 a3) := by
  unfold abortIn
  repeat' with_reducible first
    | exact h | apply forJob_ordered | apply stepFailed_ordered | (intro _)
theorem pairCmd_ordered {a0} {a1} {a2} {a3} {a4} {a5} (h : Ordered a0) : Ordered (pairCmd a0 a1 a2 a3 a4 a5) := by
  unfold pairCmd
  repeat' with_reducible first
    | exact h | apply registerWrite_ordered
theorem placeCmd_ordered {a0} {a1} {a2} {a3} {a4} {a5} (h : Ordered a0) : Ordered (placeCmd a0 a1 a2 a3 a4 a5) := by
  unfold placeCmd
  repeat' with_reducible first
    | exact h | apply pairCmd_ordered | apply regCmd_ordered | apply Ordered.ite
theorem setVisit_ordered {a0} {a1} {a2} (h : Ordered a0) : Ordered (setVisit a0 a1 a2) := by
  unfold setVisit
  repeat' with_reducible first
    | exact h | apply setHeal_ordered
theorem calGrant_ordered {a0} {a1} {a2} (h : Ordered a0) : Ordered (calGrant a0 a1 a2) := by
  unfold calGrant
  repeat' first
    | with_reducible first
        | exact h | apply bump_ordered | apply setPort_ordered | apply setVisit_ordered | apply setSlice_ordered | apply setStack_ordered | apply Ordered.ite
    | split
    | (dsimp only; split)
theorem queuedEnd_ordered {a0} {a1} (h : Ordered a0) : Ordered (queuedEnd a0 a1) := by
  unfold queuedEnd
  repeat' with_reducible first
    | exact h | apply finish_ordered | apply setHost_ordered | (intro _) | apply Ordered.folds
theorem teardownRest_ordered {a0} {a1} (h : Ordered a0) : Ordered (teardownRest a0 a1) := by
  unfold teardownRest
  repeat' first
    | with_reducible first
        | exact h | apply advanceGen_ordered | apply ctxOpAll_ordered | apply grantPut_ordered | apply dropSigns_ordered | apply releaseCore_ordered
        | apply setHost_ordered | apply setCtx_ordered | (intro _) | apply Ordered.folds
    | split
theorem teardown_ordered {a0} {a1} {a2} (h : Ordered a0) : Ordered (teardown a0 a1 a2) := by
  unfold teardown
  repeat' with_reducible first
    | exact h | apply complete_ordered | apply queuedEnd_ordered | apply setCtx_ordered | apply movesEnd_ordered | apply ctxOpAll_ordered
    | apply teardownRest_ordered | (intro _) | apply Ordered.ite | apply Ordered.folds
theorem ctxTeardown_ordered {a0} {a1} (h : Ordered a0) : Ordered (ctxTeardown a0 a1) := by
  unfold ctxTeardown
  repeat' with_reducible first
    | exact h | apply endCmd_ordered | apply teardown_ordered | apply Ordered.ite
theorem resync_ordered {a0} (h : Ordered a0) : Ordered (resync a0) := by
  unfold resync
  repeat' with_reducible first
    | exact h | apply wr_ordered | apply fdSet_ordered | apply setTwin_ordered | apply homesOut_ordered | apply Ordered.ite
theorem sendCtrl_ordered {a0} {a1} {a2} {a3} (h : Ordered a0) : Ordered (sendCtrl a0 a1 a2 a3) := by
  unfold sendCtrl
  repeat' first
    | with_reducible first
        | exact h | apply twinSend_ordered
    | split
theorem attaching_ordered {a0} {a1} (h : Ordered a0) : Ordered (attaching a0 a1) := by
  unfold attaching
  repeat' with_reducible first
    | exact h | apply homesOut_ordered | apply setPst_ordered | apply setTwin_ordered | apply Ordered.ite
theorem twinAttach_ordered {a0} {a1} {a2} (h : Ordered a0) : Ordered (twinAttach a0 a1 a2).1 := by
  unfold twinAttach
  repeat' first
    | with_reducible first
        | exact h | apply resync_ordered | apply setPst_ordered | apply setTwin_ordered | apply sendCtrl_ordered | apply attaching_ordered
    | split
theorem settleBarrier_ordered {a0} {a1} {a2} (h : Ordered a0) : Ordered (settleBarrier a0 a1 a2) := by
  unfold settleBarrier
  repeat' with_reducible first
    | exact h | apply contextFail_ordered | apply setCtx_ordered | apply postAll_ordered | apply Ordered.ite
theorem abortedIn_ordered {a0} {a1} {a2} {a3} (h : Ordered a0) : Ordered (abortedIn a0 a1 a2 a3) := by
  unfold abortedIn
  repeat' first
    | with_reducible first
        | exact h | assumption | apply noticeAnswered_ordered | apply forJob_ordered | apply settleBarrier_ordered | apply setCtx_ordered | (intro _)
        | apply Ordered.ite
    | (dsimp only; split)
theorem backlogClear_ordered {a0} {a1} {a2} (h : Ordered a0) : Ordered (backlogClear a0 a1 a2) := by
  unfold backlogClear
  repeat' with_reducible first
    | exact h | apply bumpBy_ordered | apply setHeal_ordered | apply Ordered.ite
theorem onMover_ordered {a0} {a1} (h : Ordered a1) : OrderedNext (onMover a0 a1) := by
  unfold onMover
  repeat' with_reducible first
    | exact h | apply onUnit_ordered
theorem fetchAll_ordered {a0} {a1} {a2} {a3} {a4} {a5} (h : Ordered a0) : Ordered (fetchAll a0 a1 a2 a3 a4 a5).1 := by
  fun_induction fetchAll
  repeat' first
    | with_reducible first
        | exact h | apply spadFetch_ordered
    | with_reducible refine Ordered.fst (by assumption) ?_
    | with_reducible apply_assumption
theorem spillRefill_ordered {a0} {a1} {a2} {a3} (h : Ordered a0) : Ordered (spillRefill a0 a1 a2 a3) := by
  unfold spillRefill
  repeat' first
    | with_reducible first
        | exact h | apply setMu_ordered | apply askBanks_ordered | apply fetchAll_ordered | apply flowErr_ordered | apply Ordered.ite
    | with_reducible refine Ordered.fst (by assumption) ?_
    | split
    | (dsimp only; split)
theorem storeAll_ordered {a0} {a1} {a2} {a3} {a4} (h : Ordered a0) : Ordered (storeAll a0 a1 a2 a3 a4) := by
  fun_induction storeAll
  repeat' with_reducible first
    | exact h | apply spadApply_ordered | apply_assumption
theorem spillDown_ordered {a0} {a1} {a2} (h : Ordered a0) : Ordered (spillDown a0 a1 a2) := by
  unfold spillDown
  repeat' first
    | with_reducible first
        | exact h | apply askBanks_ordered | apply setMu_ordered | apply storeAll_ordered | apply Ordered.ite
    | with_reducible refine Ordered.fst (by assumption) ?_
    | split
    | (dsimp only; split)
theorem spillFire_ordered {a0} {a1} {a2} {a3} (h : Ordered a0) : Ordered (spillFire a0 a1 a2 a3) := by
  unfold spillFire
  repeat' first
    | with_reducible first
        | exact h | apply spillRefill_ordered | apply spillDown_ordered | apply popTok_ordered | apply setMu_ordered | apply emitTok_ordered
        | apply takeCredits_ordered | apply stallCount_ordered | apply Ordered.ite
    | split
    | (dsimp only; split)
theorem epEnd_ordered {a0} {a1} {a2} {a3} (h : Ordered a0) : Ordered (epEnd a0 a1 a2 a3) := by
  unfold epEnd
  repeat' with_reducible first
    | exact h | apply epAdd_ordered
theorem routerMerge_ordered {a0} {a1} {a2} (h : Ordered a0) : Ordered (routerMerge a0 a1 a2) := by
  unfold routerMerge
  repeat' first
    | with_reducible first
        | exact h | apply setBuf_ordered | apply setRout_ordered | apply bump_ordered | apply epEnd_ordered | apply Ordered.ite
    | split
theorem bankArrive_ordered {a0} {a1} {a2} {a3} {a4} (h : Ordered a0) : Ordered (bankArrive a0 a1 a2 a3 a4) := by
  unfold bankArrive
  repeat' with_reducible first
    | exact h | apply spadServe_ordered | apply bankReach_ordered | apply Ordered.ite
theorem booksLost_ordered {a0} {a1} {a2} (h : Ordered a0) : Ordered (booksLost a0 a1 a2) := by
  unfold booksLost
  repeat' with_reducible first
    | exact h | apply report_ordered | apply errAt_ordered
theorem onFabric_ordered {a0} {a1} {a2} (h : Ordered a0) (g2 : Ordered a2) : OrderedNext (onFabric a0 a1 a2) := by
  unfold onFabric
  repeat' with_reducible first
    | exact h | assumption | apply onCore_ordered | apply Ordered.ite
theorem muEmit_ordered {a0} {a1} {a2} (h : Ordered a0) : Ordered (muEmit a0 a1 a2) := by
  unfold muEmit
  repeat' first
    | with_reducible first
        | exact h | apply emitTok_ordered | apply setMu_ordered
    | (dsimp only; split)
theorem readMsg_ordered {a0} {a1} {a2} {a3} (h : Ordered a0) : Ordered (readMsg a0 a1 a2 a3).1 := by
  unfold readMsg
  repeat' first
    | with_reducible first
        | exact h | apply spadReadAll_ordered
    | with_reducible refine Ordered.fst (by assumption) ?_
    | split
theorem digestOpen_ordered {a0} {a1} (h : Ordered a0) : Ordered (digestOpen a0 a1) := by
  unfold digestOpen
  repeat' with_reducible first
    | exact h | apply setQe_ordered | apply Ordered.ite
theorem toMismatch_ordered {a0} {a1} {a2} {a3} {a4} (h : Ordered a0) : Ordered (toMismatch a0 a1 a2 a3 a4) := by
  unfold toMismatch
  repeat' with_reducible first
    | exact h | apply raiseInt_ordered | apply errAt_ordered | apply portOff_ordered
theorem identIn_ordered {a0} {a1} {a2} {a3} {a4} (h : Ordered a0) : Ordered (identIn a0 a1 a2 a3 a4) := by
  unfold identIn
  repeat' with_reducible first
    | exact h | apply wr_ordered | apply toMismatch_ordered | apply Ordered.ite
theorem copyBuffers_ordered {a0} {a1} {a2} (h : Ordered a0) : Ordered (copyBuffers a0 a1 a2) := by
  unfold copyBuffers
  repeat' first
    | with_reducible first
        | exact h | apply setCore_ordered | apply fdSet_ordered | (intro _) | apply Ordered.folds
    | (refine SpadOrdered.of2 (Ordered.core ?_ _) rfl rfl)
theorem noticeTake_ordered {a0} (h : Ordered a0) : Ordered (noticeTake a0) := by
  unfold noticeTake
  repeat' first
    | with_reducible first
        | exact h | apply takeEnd_ordered
    | split
theorem onNotice_ordered {a0} {a1} (h : Ordered a0) (h1 : ∀ s, Ordered s → Ordered (a1 s)) : OrderedNext (onNotice a0 a1) := by
  unfold onNotice
  repeat' with_reducible first
    | exact h | apply h1 | apply noticeTake_ordered | apply OrderedNext.next
theorem queryIn_ordered {a0} {a1} (h : Ordered a0) : Ordered (queryIn a0 a1) := by
  unfold queryIn
  repeat' with_reducible first
    | exact h | apply postNotice_ordered | apply Ordered.ite
theorem isolated_ordered {a0} (h : Ordered a0) : Ordered (isolated a0) := by
  unfold isolated
  repeat' with_reducible first
    | exact h | apply setTwin_ordered | apply raiseInt_ordered | apply errAt_ordered | apply setPst_ordered | apply Ordered.ite
theorem stateIn_ordered {a0} {a1} (h : Ordered a0) : Ordered (stateIn a0 a1) := by
  unfold stateIn
  repeat' with_reducible first
    | exact h | apply noticeAnswered_ordered | apply isolated_ordered | apply Ordered.ite
theorem rxDrop_ordered {a0} {a1} {a2} (h : Ordered a0) : Ordered (rxDrop a0 a1 a2) := by
  unfold rxDrop
  repeat' with_reducible first
    | exact h | apply setRx_ordered
theorem deviceRoute_sendFromPort_ordered {a0} {a1} {a2} {a3} (h : Ordered a0) : Ordered (deviceRoute.sendFromPort a0 a1 a2 a3) := by
  unfold deviceRoute.sendFromPort
  repeat' with_reducible first
    | exact h | apply swPush_ordered | apply epAdd_ordered
theorem cwRequest_ordered {a0} {a1} {a2} (h : Ordered a0) : Ordered (cwRequest a0 a1 a2) := by
  unfold cwRequest
  repeat' first
    | with_reducible first
        | exact h | apply rxDrop_ordered | apply xepDrop_ordered | apply xAdd_ordered | apply deviceRoute_sendFromPort_ordered | apply twinRefused_ordered
        | apply cwSend_ordered | apply Ordered.ite
    | split
theorem wideWrite_ordered {a0} {a1} {a2} {a3} {a4} {a5} (h : Ordered a0) : Ordered (wideWrite a0 a1 a2 a3 a4 a5) := by
  fun_induction wideWrite
  repeat' with_reducible first
    | exact h | apply registerWrite_ordered | apply_assumption
theorem hubWdog_ordered {a0} (h : Ordered a0) : Ordered (hubWdog a0) := by
  unfold hubWdog
  repeat' with_reducible first
    | exact h | apply moduleReset_ordered | apply bump_ordered | apply Ordered.ite
theorem swapDo_ordered {a0} {a1} {a2} {a3} {a4} (h : Ordered a0) : Ordered (swapDo a0 a1 a2 a3 a4) := by
  unfold swapDo
  repeat' first
    | with_reducible first
        | exact h | apply bump_ordered | apply wr_ordered | apply fdSet_ordered | apply setPort_ordered | apply eqAsk_ordered | apply Ordered.ite
    | split
theorem setActed_ordered {a0} (h : Ordered a0) : Ordered (setActed a0) := by
  unfold setActed
  repeat' with_reducible first
    | exact h | apply setPower_ordered
theorem thermalCap_ordered {a0} {a1} (h : Ordered a0) : Ordered (thermalCap a0 a1) := by
  unfold thermalCap
  repeat' with_reducible first
    | exact h | apply raiseInt_ordered | apply bump_ordered | apply setActed_ordered | apply fdSet_ordered | apply Ordered.ite
theorem visitEnd_ordered {a0} {a1} (h : Ordered a0) : Ordered (visitEnd a0 a1) := by
  unfold visitEnd
  repeat' first
    | with_reducible first
        | exact h | assumption | apply visitOver_ordered | apply setCore_ordered | apply poolCheck_ordered | apply coreOff_ordered | apply setTarget_ordered
        | apply bump_ordered | apply setHeal_ordered | apply setLadder_ordered | apply markClosed_ordered | apply raiseInt_ordered | apply errAt_ordered
        | apply hubLog_ordered | apply closeUnit_ordered | (intro _) | apply Ordered.ite | apply Ordered.folds
    | split
    | (exact (rfl : twf [] = true))
    | (refine And.intro ?_ ?_ <;> dsimp only)
theorem bankAccept_ordered {a0} {a1} {a2} {a3} {a4} (h : Ordered a0) : Ordered (bankAccept a0 a1 a2 a3 a4) := by
  unfold bankAccept
  repeat' first
    | with_reducible first
        | exact h | apply setCore_ordered
    | (refine SpadOrdered.of2 (Ordered.core ?_ _) rfl rfl)
theorem pcieConfig_ordered {a0} {a1} {a2} {a3} (h : Ordered a0) : Ordered (pcieConfig a0 a1 a2 a3) := by
  unfold pcieConfig
  repeat' first
    | with_reducible first
        | exact h | apply send_ordered | apply fdSet_ordered | apply setHost_ordered | apply Ordered.ite
    | split
theorem fillNext_ordered {a0} {a1} {a2} (h : Ordered a0) : Ordered (fillNext a0 a1 a2).1 := by
  unfold fillNext
  repeat' first
    | with_reducible first
        | exact h | apply setPort_ordered | apply bump_ordered
    | split
    | (dsimp only; split)
theorem fillOne_ordered {a0} {a1} {a2} (h : Ordered a0) : Ordered (fillOne a0 a1 a2).1 := by
  unfold fillOne
  repeat' first
    | with_reducible first
        | exact h | apply fillNext_ordered | apply setPort_ordered
    | split
theorem fillFrame_ordered {a0} {a1} {a2} {a3} (h : Ordered a0) : Ordered (fillFrame a0 a1 a2 a3).1 := by
  unfold fillFrame
  repeat' with_reducible first
    | exact h | apply fillOne_ordered | (intro _) | apply Ordered.foldsFst
theorem frameOut_ordered {a0} {a1} {a2} (h : Ordered a0) : Ordered (frameOut a0 a1 a2) := by
  unfold frameOut
  repeat' first
    | with_reducible first
        | exact h | apply fillFrame_ordered | apply setPort_ordered | apply laneOut_ordered | apply spareOut_ordered | apply fdSet_ordered | (intro _)
        | apply Ordered.folds
    | split
theorem codewordOut_ordered {a0} {a1} {a2} (h : Ordered a0) : Ordered (codewordOut a0 a1 a2) := by
  unfold codewordOut
  repeat' first
    | with_reducible first
        | exact h | apply sendBlk_ordered | apply setPort_ordered | apply swapDo_ordered | apply frameOut_ordered | apply Ordered.ite
    | split
theorem waitTimeout_ordered {a0} {a1} {a2} {a3} (h : Ordered a0) : Ordered (waitTimeout a0 a1 a2 a3) := by
  unfold waitTimeout
  repeat' first
    | with_reducible first
        | exact h | apply complete_ordered | apply setCtx_ordered
    | (dsimp only; split)
theorem landCredit_ordered {a0} {a1} {a2} (h : Ordered a0) : Ordered (landCredit a0 a1 a2) := by
  unfold landCredit
  repeat' with_reducible first
    | exact h | apply booksCheck_ordered | apply setLink_ordered | apply Ordered.ite
theorem qyOffer_ordered {a0} {a1} {a2} (h : Ordered a0) : Ordered (qyOffer a0 a1 a2) := by
  unfold qyOffer
  repeat' with_reducible first
    | exact h | apply setQe_ordered | apply enterMsg_ordered | apply setOutcome_ordered | apply qErr_ordered | apply Ordered.ite
theorem bankDrain_ordered {a0} {a1} {a2} (h : Ordered a0) : Ordered (bankDrain a0 a1 a2) := by
  unfold bankDrain
  repeat' first
    | with_reducible first
        | exact h | apply storeWord_ordered | apply setCore_ordered
    | (dsimp only; split)
    | (refine SpadOrdered.of2 (Ordered.core ?_ _) rfl rfl)
theorem mapSave_ordered {a0} {a1} (h : Ordered a0) : Ordered (mapSave a0 a1) := by
  unfold mapSave
  repeat' with_reducible first
    | exact h | apply raiseInt_ordered | apply errAt_ordered | apply setHeal_ordered | apply fdSet_ordered | apply wr_ordered | apply Ordered.ite
theorem tryBoot_ordered {a0} (h : Ordered a0) : Ordered (tryBoot a0) := by
  unfold tryBoot
  repeat' with_reducible first
    | exact h | apply beginStep_ordered | apply fdSet_ordered | apply Ordered.ite
theorem flashExtHigh_ordered {a0} (h : Ordered a0) : Ordered (flashExtHigh a0) := by
  unfold flashExtHigh
  repeat' with_reducible first
    | exact h | apply tryBoot_ordered | apply setPins_ordered | apply Ordered.ite
theorem rangeTurn_ordered {a0} {a1} {a2} (h : Ordered a0) : Ordered (rangeTurn a0 a1 a2) := by
  unfold rangeTurn
  repeat' first
    | with_reducible first
        | exact h | apply rangeGrant_ordered | apply bump_ordered | apply Ordered.ite
    | split
theorem fuseCmdWrite_ordered {a0} {a1} {a2} {a3} (h : Ordered a0) : Ordered (fuseCmdWrite a0 a1 a2 a3) := by
  unfold fuseCmdWrite
  repeat' with_reducible first
    | exact h | apply registerWrite_ordered
theorem closureAnswer_ordered {a0} {a1} {a2} (h : Ordered a0) : Ordered (closureAnswer a0 a1 a2) := by
  unfold closureAnswer
  repeat' with_reducible first
    | exact h | apply epEnd_ordered | apply bump_ordered | apply answerFrom_ordered
theorem eject_ordered {a0} {a1} {a2} (h : Ordered a0) : Ordered (eject a0 a1 a2) := by
  unfold eject
  repeat' with_reducible first
    | exact h | apply epEnd_ordered | apply closureAnswer_ordered | apply bump_ordered | apply setRout_ordered | apply Ordered.ite
theorem meshPush_ordered {a0} {a1} {a2} {a3} (h : Ordered a0) : Ordered (meshPush a0 a1 a2 a3) := by
  unfold meshPush
  repeat' with_reducible first
    | exact h | apply bufPush_ordered | apply Ordered.ite
theorem routerForward_ordered {a0} {a1} {a2} {a3} {a4} {a5} {a6} (h : Ordered a0) : Ordered (routerForward a0 a1 a2 a3 a4 a5 a6) := by
  unfold routerForward
  repeat' first
    | with_reducible first
        | exact h | apply setRout_ordered | apply setBuf_ordered | apply pktErr_ordered | apply epEnd_ordered | apply bump_ordered | apply bumpBy_ordered
        | apply eject_ordered | apply swPush_ordered | apply meshPush_ordered | apply Ordered.ite
    | split
theorem routBooks_ordered {a0} {a1} {a2} {a3} (h : Ordered a0) : Ordered (routBooks a0 a1 a2 a3) := by
  unfold routBooks
  repeat' with_reducible first
    | exact h | apply booksLost_ordered | apply Ordered.ite
theorem emitToks_ordered {a0} {a1} {a2} {a3} (h : Ordered a0) : Ordered (emitToks a0 a1 a2 a3) := by
  fun_induction emitToks
  repeat' with_reducible first
    | exact h | apply emitTok_ordered | apply_assumption
theorem cuEmit_ordered {a0} {a1} {a2} {a3} {a4} (h : Ordered a0) : Ordered (cuEmit a0 a1 a2 a3 a4) := by
  unfold cuEmit
  repeat' with_reducible first
    | exact h | apply setCu_ordered | apply emitToks_ordered | apply bumpBy_ordered | (intro _) | apply Ordered.folds
theorem cuCheck_ordered {a0} {a1} {a2} {a3} {a4} (h : Ordered a0) : Ordered (cuCheck a0 a1 a2 a3 a4) := by
  unfold cuCheck
  repeat' first
    | with_reducible first
        | exact h | apply cuEmit_ordered | apply bump_ordered | apply reportCore_ordered | apply raiseInt_ordered | apply setCu_ordered | apply coreErr_ordered
        | apply Ordered.ite
    | split
    | (dsimp only; split)
theorem unbindNow_ordered {a0} (h : Ordered a0) : Ordered (unbindNow a0) := by
  unfold unbindNow
  repeat' with_reducible first
    | exact h | apply wr_ordered | apply setTwin_ordered | apply setFlash_ordered | apply setPst_ordered | apply fdSet_ordered
theorem refusedBank_ordered {a0} {a1} {a2} (h : Ordered a0) : Ordered (refusedBank a0 a1 a2) := by
  unfold refusedBank
  repeat' first
    | with_reducible first
        | exact h | apply bankAsk_ordered
    | split
theorem commitSlot_ordered {a0} {a1} {a2} {a3} (h : Ordered a0) : Ordered (commitSlot a0 a1 a2 a3) := by
  unfold commitSlot
  repeat' with_reducible first
    | exact h | apply setSlot_ordered | apply writeStat_ordered | apply bump_ordered | apply wakeCause_ordered | apply Ordered.ite
theorem banksWait_ordered {a0} {a1} {a2} {a3} (h : Ordered a0) : Ordered (banksWait a0 a1 a2 a3).1 := by
  unfold banksWait
  repeat' first
    | with_reducible first
        | exact h | assumption | apply bankAsk_ordered | (intro _) | apply Ordered.foldsFst
    | with_reducible refine Ordered.fst (by assumption) ?_
    | split
theorem deliver_ordered {a0} {a1} {a2} {a3} {a4} {a5} {a6} {a7} {a8} (h : Ordered a0) : Ordered (deliver a0 a1 a2 a3 a4 a5 a6 a7 a8).1 := by
  unfold deliver
  repeat' first
    | with_reducible first
        | exact h | apply commitSlot_ordered | apply setSlot_ordered | apply bankAsk_ordered | apply banksWait_ordered | apply bump_ordered
        | apply spadApply_ordered | (intro _) | apply Ordered.ite | apply Ordered.folds
    | split
    | (dsimp only; split)
theorem ackPkt_ordered {a0} {a1} {a2} (h : Ordered a0) : Ordered (ackPkt a0 a1 a2) := by
  unfold ackPkt
  repeat' with_reducible first
    | exact h | apply inject_ordered
theorem commitMsg_ordered {a0} {a1} {a2} {a3} {a4} (h : Ordered a0) : Ordered (commitMsg a0 a1 a2 a3 a4) := by
  unfold commitMsg
  repeat' first
    | with_reducible first
        | exact h | apply deliver_ordered | apply setQe_ordered | apply setHandle_ordered | apply bump_ordered | apply ackPkt_ordered | apply nackPkt_ordered
        | apply Ordered.ite
    | with_reducible refine Ordered.fst (by assumption) ?_
    | split
    | (dsimp only; split)
theorem reassemble_ordered {a0} {a1} {a2} (h : Ordered a0) : Ordered (reassemble a0 a1 a2) := by
  unfold reassemble
  repeat' first
    | with_reducible first
        | exact h | apply nackPkt_ordered | apply setQe_ordered | apply commitMsg_ordered | apply Ordered.ite
    | (dsimp only; split)
theorem msgPacket_ordered {a0} {a1} {a2} (h : Ordered a0) : Ordered (msgPacket a0 a1 a2) := by
  unfold msgPacket
  repeat' with_reducible first
    | exact h | apply nackPkt_ordered | apply qErr_ordered | apply bump_ordered | apply refusedBank_ordered | apply commitMsg_ordered | apply reassemble_ordered
    | apply ackPkt_ordered | apply Ordered.ite
theorem mgmtBad_ordered {a0} {a1} (h : Ordered a0) : Ordered (mgmtBad a0 a1) := by
  unfold mgmtBad
  repeat' with_reducible first
    | exact h | apply raiseInt_ordered | apply errAt_ordered | apply bump_ordered
theorem spdmAnswer_ordered {a0} {a1} {a2} (h : Ordered a0) : Ordered (spdmAnswer a0 a1 a2) := by
  unfold spdmAnswer
  repeat' with_reducible first
    | exact h | assumption | apply mgmtMsg_ordered | apply mgmtBad_ordered | apply freeUsed_ordered | apply send_ordered | (intro _) | apply Ordered.ite
theorem trainingDone_ordered {a0} {a1} {a2} {a3} (h : Ordered a0) : Ordered (trainingDone a0 a1 a2 a3) := by
  unfold trainingDone
  repeat' first
    | with_reducible first
        | exact h | apply toMismatch_ordered | apply fdSet_ordered | apply setPState_ordered | apply wr_ordered | apply setPort_ordered | apply eqAsk_ordered
        | apply Ordered.ite
    | split
    | with_reducible apply Ordered.upd
theorem modRst_ordered {a0} {a1} (h : Ordered a0) : Ordered (modRst a0 a1) := by
  unfold modRst
  repeat' with_reducible first
    | exact h | apply moduleReset_ordered | apply freeUsed_ordered | apply Ordered.ite
theorem notifyDrop_ordered {a0} {a1} {a2} {a3} (h : Ordered a0) : Ordered (notifyDrop a0 a1 a2 a3) := by
  unfold notifyDrop
  repeat' with_reducible first
    | exact h | apply dmaErr_ordered | apply dmaFinish_ordered
theorem notifyCommit_ordered {a0} {a1} {a2} (h : Ordered a0) : Ordered (notifyCommit a0 a1 a2) := by
  unfold notifyCommit
  repeat' first
    | with_reducible first
        | exact h | apply notifyDrop_ordered | apply askBanks_ordered | apply deliver_ordered | apply dmaFinish_ordered | apply Ordered.ite
    | with_reducible refine Ordered.fst (by assumption) ?_
    | split
theorem powerDies_ordered {a0} (h : Ordered a0) : Ordered (powerDies a0) := by
  unfold powerDies
  repeat' with_reducible first
    | exact h | assumption | apply fdSet_ordered | apply setPins_ordered | (intro _) | apply Ordered.ite | apply Ordered.folds
theorem mctpControl_ordered {a0} {a1} {a2} {a3} (h : Ordered a0) : Ordered (mctpControl a0 a1 a2 a3) := by
  unfold mctpControl
  repeat' with_reducible first
    | exact h | assumption | apply mgmtMsg_ordered | apply mgmtBad_ordered | apply send_ordered | apply fdSet_ordered | (intro _) | apply Ordered.ite
theorem spadWriteAll_ordered {a0} {a1} {a2} {a3} {a4} (h : Ordered a0) : Ordered (spadWriteAll a0 a1 a2 a3 a4).1 := by
  fun_induction spadWriteAll
  repeat' first
    | with_reducible first
        | exact h | apply spadWrite_ordered
    | with_reducible refine Ordered.fst (by assumption) ?_
    | with_reducible apply_assumption
theorem dmaLocal_ordered {a0} {a1} {a2} (h : Ordered a0) : Ordered (dmaLocal a0 a1 a2).1 := by
  unfold dmaLocal
  repeat' first
    | with_reducible first
        | exact h | apply spadReadAll_ordered | apply spadWriteAll_ordered
    | split
theorem vfWords_ordered {a0} {a1} {a2} {a3} {a4} {a5} (h : Ordered a0) : Ordered (vfWords a0 a1 a2 a3 a4 a5) := by
  unfold vfWords
  repeat' with_reducible first
    | exact h | assumption | apply vfBar0_ordered | apply hostBad_ordered | (intro _) | apply Ordered.ite | apply Ordered.folds

end Sys2Proof.Machine
end

