-- ==== Sys2Proof/Laws/Ordered4.lean ====
section
/-! SUPPORT. The tables every shared operation keeps in rising order: continued from Ordered3.lean, callees before callers. -/
namespace Sys2Proof.Machine
open Sys2Proof
set_option Elab.async false

theorem throttleRelease_ordered {a0} {a1} {a2} (h : Ordered a0) : Ordered (throttleRelease a0 a1 a2) := by
  unfold throttleRelease
  repeat' with_reducible first
    | exact h | assumption | apply setPower_ordered | apply bumpBy_ordered | apply fdSet_ordered | (intro _) | apply Ordered.ite | apply Ordered.folds
theorem msgRange_ordered {a0} {a1} {a2} (h : Ordered a0) : Ordered (msgRange a0 a1 a2).1 := by
  unfold msgRange
  repeat' first
    | with_reducible first
        | exact h | apply rangeAsk_ordered | apply setQe_ordered | apply rangeGrant_ordered
    | with_reducible refine Ordered.fst (by assumption) ?_
    | split
theorem fastThrottle_ordered {a0} {a1} (h : Ordered a0) : Ordered (fastThrottle a0 a1) := by
  unfold fastThrottle
  repeat' with_reducible first
    | exact h | assumption | apply setActed_ordered | apply setPower_ordered | apply fdSet_ordered | apply raiseInt_ordered | apply bump_ordered | (intro _)
    | apply Ordered.ite | apply Ordered.folds
theorem serdesLoss_ordered {a0} {a1} (h : Ordered a0) : Ordered (serdesLoss a0 a1) := by
  unfold serdesLoss
  repeat' with_reducible first
    | exact h | apply raiseInt_ordered | apply errAt_ordered | apply fdSet_ordered | apply Ordered.ite
theorem seqBooks_ordered {a0} {a1} (h : Ordered a0) : Ordered (seqBooks a0 a1) := by
  unfold seqBooks
  repeat' with_reducible first
    | exact h | apply booksLost_ordered | apply Ordered.ite
theorem convAnswer_ordered {a0} {a1} {a2} {a3} (h : Ordered a0) : Ordered (convAnswer a0 a1 a2 a3) := by
  unfold convAnswer
  repeat' with_reducible first
    | exact h | apply answerFrom_ordered
theorem convoyPacket_ordered {a0} {a1} {a2} (h : Ordered a0) : Ordered (convoyPacket a0 a1 a2) := by
  unfold convoyPacket
  repeat' first
    | with_reducible first
        | exact h | apply epEnd_ordered | apply setBuf_ordered | apply takePkt_ordered | apply convAnswer_ordered | apply setRout_ordered | apply sendFrom_ordered
        | (intro _) | apply Ordered.ite | apply Ordered.folds
    | split
theorem twinUnbind_ordered {a0} {a1} (h : Ordered a0) : Ordered (twinUnbind a0 a1).1 := by
  unfold twinUnbind
  repeat' first
    | with_reducible first
        | exact h | apply sendCtrl_ordered | apply unbindNow_ordered
    | split
theorem pwrEnRise_ordered {a0} {a1} (h : Ordered a0) : Ordered (pwrEnRise a0 a1) := by
  unfold pwrEnRise
  repeat' with_reducible first
    | exact h | apply setPins_ordered | apply setCause_ordered | apply tryBoot_ordered | apply Ordered.ite
theorem gridRecover_ordered {a0} {a1} (h : Ordered a0) : Ordered (gridRecover a0 a1) := by
  unfold gridRecover
  repeat' with_reducible first
    | exact h | apply gridClear_ordered | apply coreReset_ordered | apply postAbort_ordered | (intro _) | apply Ordered.ite | apply Ordered.folds
theorem closingFree_ordered {a0} {a1} {a2} {a3} (h : Ordered a0) : Ordered (closingFree a0 a1 a2 a3) := by
  unfold closingFree
  repeat' with_reducible first
    | exact h | apply setChan_ordered | apply Ordered.ite
theorem closeAcked_ordered {a0} {a1} {a2} {a3} (h : Ordered a0) : Ordered (closeAcked a0 a1 a2 a3) := by
  unfold closeAcked
  repeat' with_reducible first
    | exact h | apply closingFree_ordered | (intro _) | apply Ordered.folds
theorem laneSwap_ordered {a0} {a1} {a2} (h : Ordered a0) : Ordered (laneSwap a0 a1 a2) := by
  unfold laneSwap
  repeat' first
    | with_reducible first
        | exact h | apply swapDo_ordered | apply Ordered.ite
    | split
theorem digestAdd_ordered {a0} {a1} {a2} {a3} {a4} (h : Ordered a0) : Ordered (digestAdd a0 a1 a2 a3 a4) := by
  unfold digestAdd
  repeat' with_reducible first
    | exact h | apply digestOpen_ordered | apply setChan_ordered
theorem sendMsg_ordered {a0} {a1} {a2} {a3} {a4} (h : Ordered a0) : Ordered (sendMsg a0 a1 a2 a3 a4) := by
  unfold sendMsg
  repeat' first
    | with_reducible first
        | exact h | apply setQe_ordered | apply rangeTake_ordered | apply readMsg_ordered | apply qeRelease_ordered | apply inject_ordered
        | apply digestAdd_ordered | (intro _) | apply Ordered.folds
    | with_reducible refine Ordered.fst (by assumption) ?_
    | split
    | (dsimp only; split)
theorem finalOutcome_ordered {a0} {a1} {a2} {a3} (h : Ordered a0) : Ordered (finalOutcome a0 a1 a2 a3) := by
  unfold finalOutcome
  repeat' with_reducible first
    | exact h | apply endMsg_ordered | apply setChan_ordered | apply closeSettle_ordered | apply endAll_ordered | apply Ordered.ite
theorem windowExpiry_ordered {a0} {a1} {a2} {a3} (h : Ordered a0) : Ordered (windowExpiry a0 a1 a2 a3) := by
  unfold windowExpiry
  repeat' first
    | with_reducible first
        | exact h | apply setQe_ordered | apply sendMsg_ordered | apply bump_ordered | apply finalOutcome_ordered | apply Ordered.ite
    | split
theorem gaugeExpiry_ordered {a0} {a1} {a2} (h : Ordered a0) : Ordered (gaugeExpiry a0 a1 a2) := by
  unfold gaugeExpiry
  repeat' with_reducible first
    | exact h | apply gaugeClose_ordered | apply Ordered.ite
theorem invalDone_ordered {a0} (h : Ordered a0) : Ordered (invalDone a0) := by
  unfold invalDone
  repeat' first
    | with_reducible first
        | exact h | apply bump_ordered | apply sendUpdate_ordered | apply Ordered.ite | apply Ordered.upd h
    | split
theorem mgmtFabric_ordered {a0} {a1} {a2} {a3} (h : Ordered a0) : Ordered (mgmtFabric a0 a1 a2 a3) := by
  unfold mgmtFabric
  repeat' with_reducible first
    | exact h | assumption | apply mgmtMsg_ordered | apply send_ordered | apply fabricCfg_ordered | (intro _) | apply Ordered.ite
theorem mainRestored_ordered {a0} (h : Ordered a0) : Ordered (mainRestored a0) := by
  unfold mainRestored
  repeat' with_reducible first
    | exact h | apply setCause_ordered | apply tryBoot_ordered | apply setPins_ordered | apply Ordered.ite
theorem movePrepared_ordered {a0} {a1} (h : Ordered a0) : Ordered (movePrepared a0 a1) := by
  unfold movePrepared
  repeat' first
    | with_reducible first
        | exact h | assumption | apply withMate_ordered | apply banksOn_ordered | apply coreReset_ordered | apply wr_ordered | apply bindCore_ordered
        | apply copyBuffers_ordered | apply retargetAll_ordered | apply copyFields_ordered | apply fdSet_ordered | apply setMover_ordered
        | apply syncHolds_ordered | (intro _) | apply Ordered.ite | apply Ordered.folds
    | split
theorem trainDone_ordered {a0} {a1} {a2} {a3} (h : Ordered a0) : Ordered (trainDone a0 a1 a2 a3) := by
  unfold trainDone
  repeat' first
    | with_reducible first
        | exact h | assumption | apply wr_ordered | apply closeSlice_ordered | apply recJudge_ordered | apply setStack_ordered | apply fdSet_ordered
        | (intro _) | apply Ordered.ite | apply Ordered.folds
    | split
    | with_reducible apply Ordered.upd
theorem memTrained_ordered {a0} {a1} {a2} {a3} (h : Ordered a0) : Ordered (memTrained a0 a1 a2 a3) := by
  unfold memTrained
  repeat' first
    | with_reducible first
        | exact h | assumption | apply trainDone_ordered | apply wr_ordered | apply closeUnit_ordered | (intro _) | apply Ordered.ite | apply Ordered.folds
    | split
theorem journalMark_ordered {a0} {a1} (h : Ordered a0) : Ordered (journalMark a0 a1) := by
  unfold journalMark
  repeat' with_reducible first
    | exact h | apply fdSet_ordered | apply journalAdd_ordered | apply setTwin_ordered | (intro _) | apply Ordered.ite | apply Ordered.folds
theorem markCmd_ordered {a0} {a1} (h : Ordered a0) : Ordered (markCmd a0 a1) := by
  unfold markCmd
  repeat' with_reducible first
    | exact h | apply journalMark_ordered | apply Ordered.ite
theorem ladderDecay_ordered {a0} {a1} (h : Ordered a0) : Ordered (ladderDecay a0 a1) := by
  unfold ladderDecay
  repeat' with_reducible first
    | exact h | apply bump_ordered | apply setLadder_ordered | apply logAdd_ordered | apply Ordered.ite
theorem phaseFailure_ordered {a0} {a1} {a2} (h : Ordered a0) : Ordered (phaseFailure a0 a1 a2) := by
  unfold phaseFailure
  repeat' with_reducible first
    | exact h | apply bump_ordered | apply fdSet_ordered | apply raiseInt_ordered | apply errAt_ordered | apply report_ordered | apply Ordered.ite
theorem homeless_ordered {a0} {a1} (h : Ordered a0) : Ordered (homeless a0 a1) := by
  unfold homeless
  repeat' with_reducible first
    | exact h | apply contextFail_ordered | apply postAbort_ordered | apply Ordered.ite
theorem reloadRegion_ordered {a0} {a1} {a2} (h : Ordered a0) : Ordered (reloadRegion a0 a1 a2) := by
  unfold reloadRegion
  repeat' with_reducible first
    | exact h | apply fetchHome_ordered | apply homeless_ordered | apply spadServe_ordered | apply fdSet_ordered | apply regionFill_ordered | apply Ordered.ite
theorem jForward_ordered {a0} {a1} {a2} (h : Ordered a0) : Ordered (jForward a0 a1 a2) := by
  unfold jForward
  repeat' first
    | with_reducible first
        | exact h | apply setSeq_ordered | apply enterMsg_ordered | apply setSlot_ordered | apply jFwdEnd_ordered | apply qErr_ordered | apply Ordered.ite
    | split
    | (dsimp only; split)
theorem casevoWrite_ordered {a0} {a1} {a2} {a3} (h : Ordered a0) : Ordered (casevoWrite a0 a1 a2 a3) := by
  unfold casevoWrite
  repeat' with_reducible first
    | exact h | assumption | apply mgmtMsg_ordered | apply writeCode_ordered | apply mgmtDenied_ordered | apply send_ordered | (intro _) | apply Ordered.ite
theorem eqAdj_ordered {a0} {a1} {a2} {a3} (h : Ordered a0) : Ordered (eqAdj a0 a1 a2 a3) := by
  unfold eqAdj
  repeat' with_reducible first
    | exact h | apply setPort_ordered | apply Ordered.ite
theorem freezeRelease_ordered {a0} (h : Ordered a0) : Ordered (freezeRelease a0) := by
  unfold freezeRelease
  repeat' first
    | with_reducible first
        | exact h | apply bumpBy_ordered | apply bump_ordered | apply fdSet_ordered | apply setHub_ordered | apply setCtx_ordered | (intro _) | apply Ordered.ite
        | apply Ordered.folds
    | split
theorem wideRead_ordered {a0} {a1} {a2} {a3} {a4} (h : Ordered a0) : Ordered (wideRead a0 a1 a2 a3 a4) := by
  fun_induction wideRead
  repeat' with_reducible first
    | exact h | apply registerRead_ordered | apply_assumption
theorem recentreOpen_ordered {a0} {a1} {a2} (h : Ordered a0) : Ordered (recentreOpen a0 a1 a2) := by
  unfold recentreOpen
  repeat' with_reducible first
    | exact h | apply setStack_ordered | apply fdSet_ordered | apply Ordered.ite
theorem switchDrop_ordered {a0} {a1} {a2} {a3} (h : Ordered a0) : Ordered (switchDrop a0 a1 a2 a3) := by
  unfold switchDrop
  repeat' with_reducible first
    | exact h | apply epEnd_ordered | apply bump_ordered | apply freeUsed_ordered | apply pktErr_ordered
theorem swRetired_ordered {a0} {a1} {a2} {a3} (h : Ordered a0) : Ordered (swRetired a0 a1 a2 a3) := by
  unfold swRetired
  repeat' first
    | with_reducible first
        | exact h | apply pktErr_ordered | apply epEnd_ordered | apply bump_ordered | apply freeUsed_ordered | apply errAt_ordered
    | split
theorem swAnswer_ordered {a0} {a1} {a2} {a3} (h : Ordered a0) : Ordered (swAnswer a0 a1 a2 a3) := by
  unfold swAnswer
  repeat' first
    | with_reducible first
        | exact h | apply bump_ordered | apply answerFrom_ordered | apply epEnd_ordered | apply Ordered.ite
    | split
theorem dieSwitch_ordered {a0} {a1} {a2} {a3} {a4} {a5} {a6} (h : Ordered a0) : Ordered (dieSwitch a0 a1 a2 a3 a4 a5 a6) := by
  unfold dieSwitch
  repeat' first
    | with_reducible first
        | exact h | apply laneCount_ordered | apply setNet_ordered | apply switchDrop_ordered | apply swRetired_ordered | apply swAnswer_ordered
        | apply bufPush_ordered | apply epEnd_ordered | apply freeUsed_ordered | apply bumpBy_ordered | apply report_ordered | apply pktErr_ordered
        | apply bump_ordered | apply swPush_ordered | apply Ordered.ite
    | split
    | (dsimp only; split)
theorem spdmMeasure_ordered {a0} (h : Ordered a0) : Ordered (spdmMeasure a0) := by
  unfold spdmMeasure
  repeat' with_reducible first
    | exact h | apply spdmAnswer_ordered | apply Ordered.ite | apply Ordered.upd
theorem drainTimeout_ordered {a0} (h : Ordered a0) : Ordered (drainTimeout a0) := by
  unfold drainTimeout
  repeat' with_reducible first
    | exact h | apply retireBank_ordered | apply freeUsed_ordered | apply hubLog_ordered | apply Ordered.ite
theorem resyncStart_ordered {a0} (h : Ordered a0) : Ordered (resyncStart a0) := by
  unfold resyncStart
  repeat' first
    | with_reducible first
        | exact h | apply resync_ordered | apply setPst_ordered | apply setTwin_ordered | apply wr_ordered | apply fdSet_ordered | apply Ordered.ite
    | split
theorem qxTake_ordered {a0} {a1} {a2} {a3} (h : Ordered a0) : Ordered (qxTake a0 a1 a2 a3).1 := by
  unfold qxTake
  repeat' first
    | with_reducible first
        | exact h | apply setSlot_ordered | apply popSlot_ordered | apply banksWait_ordered | apply readMsg_ordered
    | with_reducible refine Ordered.fst (by assumption) ?_
    | split
    | (dsimp only; split)
theorem qxEmit_ordered {a0} {a1} {a2} (h : Ordered a0) : Ordered (qxEmit a0 a1 a2) := by
  unfold qxEmit
  repeat' first
    | with_reducible first
        | exact h | apply qxTake_ordered | apply setQe_ordered | apply emitTok_ordered | apply takeCredits_ordered | apply ringRelease_ordered
        | apply jRelease_ordered | apply stallCount_ordered | apply Ordered.ite
    | with_reducible refine Ordered.fst (by assumption) ?_
    | split
    | (dsimp only; split)
theorem cuStall_ordered {a0} {a1} {a2} (h : Ordered a0) : Ordered (cuStall a0 a1 a2) := by
  unfold cuStall
  repeat' with_reducible first
    | exact h | apply stallCount_ordered
theorem rejoinRequest_ordered {a0} (h : Ordered a0) : Ordered (rejoinRequest a0) := by
  unfold rejoinRequest
  repeat' with_reducible first
    | exact h | apply setPst_ordered | apply sendCtrl_ordered | apply Ordered.ite
theorem barrierTimeout_ordered {a0} {a1} (h : Ordered a0) : Ordered (barrierTimeout a0 a1) := by
  unfold barrierTimeout
  repeat' first
    | with_reducible first
        | exact h | apply postAll_ordered | (intro _) | apply Ordered.ite | apply Ordered.folds
    | (dsimp only; split)
theorem qselSelect_ordered {a0} {a1} (h : Ordered a0) : Ordered (qselSelect a0 a1) := by
  unfold qselSelect
  repeat' first
    | with_reducible first
        | exact h | apply qselGive_ordered | apply wokeUp_ordered
    | split
theorem spadBeats_ordered {a0} {a1} {a2} {a3} {a4} {a5} (h : Ordered a0) : Ordered (spadBeats a0 a1 a2 a3 a4 a5).1 := by
  fun_induction spadBeats
  repeat' first
    | with_reducible first
        | exact h | apply askBanks_ordered | apply spadWriteAll_ordered
    | with_reducible refine Ordered.fst (by assumption) ?_
    | with_reducible apply_assumption
    | split
theorem spareDone_ordered {a0} {a1} (h : Ordered a0) : Ordered (spareDone a0 a1) := by
  unfold spareDone
  repeat' first
    | with_reducible first
        | exact h | apply fdSet_ordered | apply setPort_ordered | apply queueBlk_ordered | apply Ordered.ite
    | split
theorem xRead_ordered {a0} {a1} {a2} (h : Ordered a0) : Ordered (xRead a0 a1 a2) := by
  unfold xRead
  repeat' first
    | with_reducible first
        | exact h | apply spadRead_ordered | apply send_ordered
    | with_reducible refine Ordered.fst (by assumption) ?_
    | split
theorem swapAsked_ordered {a0} {a1} {a2} {a3} {a4} (h : Ordered a0) : Ordered (swapAsked a0 a1 a2 a3 a4) := by
  unfold swapAsked
  repeat' with_reducible first
    | exact h | apply setPort_ordered | apply fdSet_ordered | apply Ordered.ite
theorem limiterAct_ordered {a0} {a1} {a2} (h : Ordered a0) : Ordered (limiterAct a0 a1 a2) := by
  unfold limiterAct
  repeat' with_reducible first
    | exact h | apply fdSet_ordered | apply setActed_ordered | apply bump_ordered | apply raiseInt_ordered | apply errAt_ordered | apply Ordered.ite
theorem freqAll_ordered {a0} (h : Ordered a0) : Ordered (freqAll a0) := by
  unfold freqAll
  repeat' with_reducible first
    | exact h | apply freqApply_ordered | apply Ordered.folds
theorem limiterInterval_ordered {a0} (h : Ordered a0) : Ordered (limiterInterval a0) := by
  unfold limiterInterval
  repeat' with_reducible first
    | exact h | apply fdSet_ordered | apply setPower_ordered | apply limiterAct_ordered | apply freqAll_ordered | apply thermalCap_ordered | apply Ordered.ite
    | apply Ordered.folds
theorem jBooks_ordered {a0} {a1} {a2} {a3} (h : Ordered a0) : Ordered (jBooks a0 a1 a2 a3) := by
  unfold jBooks
  repeat' with_reducible first
    | exact h | apply booksLost_ordered | apply Ordered.ite
theorem jAdd_ordered {a0} {a1} {a2} {a3} {a4} (h : Ordered a0) : Ordered (jAdd a0 a1 a2 a3 a4) := by
  unfold jAdd
  repeat' with_reducible first
    | exact h | apply jHeldPart_ordered | apply jAddPart_ordered | apply jSettle_ordered | apply setSlot_ordered | apply Ordered.ite
theorem signalSeen_ordered {a0} {a1} {a2} (h : Ordered a0) : Ordered (signalSeen a0 a1 a2) := by
  unfold signalSeen
  repeat' with_reducible first
    | exact h | apply setPort_ordered | apply fdSet_ordered | apply setPState_ordered | apply eqAll_ordered | apply Ordered.ite
theorem flipDone_ordered {a0} (h : Ordered a0) : Ordered (flipDone a0) := by
  unfold flipDone
  repeat' first
    | with_reducible first
        | exact h | apply bump_ordered | apply Ordered.ite | apply Ordered.upd h
    | split
theorem gridlock_ordered {a0} {a1} {a2} (h : Ordered a0) : Ordered (gridlock a0 a1 a2) := by
  unfold gridlock
  repeat' with_reducible first
    | exact h | apply bump_ordered | apply fdSet_ordered | apply wr64_ordered | apply raiseInt_ordered | apply wr_ordered | (intro _) | apply Ordered.ite
    | apply Ordered.folds
theorem probeSend_ordered {a0} {a1} {a2} {a3} (h : Ordered a0) : Ordered (probeSend a0 a1 a2 a3) := by
  unfold probeSend
  repeat' with_reducible first
    | exact h | apply noticeOut_ordered | apply send_ordered | apply Ordered.ite
theorem probeReceive_ordered {a0} {a1} {a2} {a3} (h : Ordered a0) : Ordered (probeReceive a0 a1 a2 a3) := by
  unfold probeReceive
  repeat' first
    | with_reducible first
        | exact h | apply setFab_ordered | apply gridlock_ordered | apply bump_ordered | apply probeSend_ordered | (intro _) | apply Ordered.ite
        | apply Ordered.folds
    | split
theorem startDone_ordered {a0} (h : Ordered a0) : Ordered (startDone a0) := by
  unfold startDone
  repeat' with_reducible first
    | exact h | apply endStep_ordered | apply fdSet_ordered | apply gradeInputs_ordered | apply stepTime_ordered | apply raiseInt_ordered | apply bump_ordered
    | apply hostEvent_ordered | apply Ordered.ite
theorem cutoverFreeze_ordered {a0} {a1} (h : Ordered a0) : Ordered (cutoverFreeze a0 a1) := by
  unfold cutoverFreeze
  repeat' first
    | with_reducible first
        | exact h | assumption | apply setMover_ordered | apply bump_ordered | apply setCore_ordered | apply signPut_ordered | apply postAll_ordered
        | apply setCtx_ordered | apply fdSet_ordered | apply setHub_ordered | (intro _) | apply Ordered.ite | apply Ordered.folds
    | split
    | (refine SpadOrdered.of2 (Ordered.core ?_ _) rfl rfl)
theorem signpostMiss_ordered {a0} {a1} (h : Ordered a0) : Ordered (signpostMiss a0 a1) := by
  unfold signpostMiss
  repeat' first
    | with_reducible first
        | exact h | apply setRout_ordered | apply setQe_ordered | apply setNet_ordered | apply bump_ordered | apply Ordered.ite
    | split
theorem dmaStart_ordered {a0} {a1} (h : Ordered a0) : Ordered (dmaStart a0 a1) := by
  unfold dmaStart
  repeat' first
    | with_reducible first
        | exact h | apply dmaAsk_ordered | apply updDesc_ordered
    | split
theorem cfgswResume_ordered {a0} {a1} (h : Ordered a0) : Ordered (cfgswResume a0 a1) := by
  unfold cfgswResume
  repeat' with_reducible first
    | exact h | apply cfgswFinish_ordered | apply Ordered.ite
theorem pldmSensor_ordered {a0} {a1} (h : Ordered a0) : Ordered (pldmSensor a0 a1) := by
  unfold pldmSensor
  repeat' with_reducible first
    | exact h | assumption | apply mgmtMsg_ordered | apply mgmtBad_ordered | apply send_ordered | (intro _) | apply Ordered.ite
theorem laneSeen_ordered {a0} {a1} {a2} {a3} (h : Ordered a0) : Ordered (laneSeen a0 a1 a2 a3) := by
  unfold laneSeen
  repeat' with_reducible first
    | exact h | apply swapDo_ordered | apply Ordered.ite
theorem resyncRead_ordered {a0} {a1} {a2} {a3} (h : Ordered a0) : Ordered (resyncRead a0 a1 a2 a3) := by
  unfold resyncRead
  repeat' with_reducible first
    | exact h | apply memServe_ordered | apply journalAdd_ordered | apply setTwin_ordered | apply wr_ordered | apply Ordered.ite
theorem resyncCmd_ordered {a0} {a1} {a2} {a3} (h : Ordered a0) : Ordered (resyncCmd a0 a1 a2 a3) := by
  unfold resyncCmd
  repeat' with_reducible first
    | exact h | apply resyncRead_ordered | apply Ordered.ite
theorem milestoneWait_ordered {a0} {a1} (h : Ordered a0) : Ordered (milestoneWait a0 a1) := by
  unfold milestoneWait
  repeat' with_reducible first
    | exact h | apply endCmd_ordered | apply setCtx_ordered | apply Ordered.ite
theorem winLoadAt_ordered {a0} {a1} {a2} (h : Ordered a0) : Ordered (winLoadAt a0 a1 a2) := by
  unfold winLoadAt
  repeat' with_reducible first
    | exact h | apply seqIssue_ordered
theorem sendToRoadworks_ordered {a0} {a1} (h : Ordered a0) : Ordered (sendToRoadworks a0 a1) := by
  unfold sendToRoadworks
  repeat' with_reducible first
    | exact h | apply setLadder_ordered | apply logAdd_ordered
theorem pcdigIn_ordered {a0} {a1} {a2} {a3} {a4} (h : Ordered a0) : Ordered (pcdigIn a0 a1 a2 a3 a4) := by
  unfold pcdigIn
  repeat' first
    | with_reducible first
        | exact h | assumption | apply sendToRoadworks_ordered | (intro _) | apply Ordered.ite | apply Ordered.folds
    | split
theorem controlPkt_ordered {a0} {a1} {a2} (h : Ordered a0) : Ordered (controlPkt a0 a1 a2) := by
  unfold controlPkt
  repeat' with_reducible first
    | exact h | apply rxDrop_ordered | apply discardPkt_ordered | apply xepDrop_ordered | apply xAdd_ordered | apply raiseInt_ordered | apply errAt_ordered
    | apply bump_ordered | apply denyFabric_ordered | apply send_ordered | apply setNet_ordered | apply Ordered.ite
theorem casevoFuse_ordered {a0} {a1} {a2} (h : Ordered a0) : Ordered (casevoFuse a0 a1 a2) := by
  unfold casevoFuse
  repeat' with_reducible first
    | exact h | assumption | apply mgmtMsg_ordered | apply mgmtDenied_ordered | apply fuseCmd_ordered | apply fuseArm_ordered | (intro _) | apply Ordered.ite
theorem nackMsg_ordered {a0} {a1} {a2} (h : Ordered a0) : Ordered (nackMsg a0 a1 a2) := by
  unfold nackMsg
  repeat' first
    | with_reducible first
        | exact h | apply bump_ordered | apply staleReply_ordered | apply setQe_ordered | apply finalOutcome_ordered | apply Ordered.ite
    | split
theorem visitBegin_ordered {a0} {a1} (h : Ordered a0) : Ordered (visitBegin a0 a1) := by
  unfold visitBegin
  repeat' first
    | with_reducible first
        | exact h | apply coreOn_ordered | apply setTarget_ordered | apply setCore_ordered | apply fdSet_ordered | apply setLadder_ordered | apply setHeal_ordered
    | (refine SpadOrdered.of2 (Ordered.core ?_ _) rfl rfl)
theorem qySend_ordered {a0} {a1} {a2} (h : Ordered a0) : Ordered (qySend a0 a1 a2) := by
  unfold qySend
  repeat' first
    | with_reducible first
        | exact h | apply qyOffer_ordered | apply askBanks_ordered | apply issue_ordered | apply popTok_ordered | apply spadApply_ordered | apply storeAll_ordered
        | apply setQe_ordered | apply Ordered.ite
    | with_reducible refine Ordered.fst (by assumption) ?_
    | split
    | (dsimp only; split)
theorem replyOk_ordered {a0} {a1} {a2} (h : Ordered a0) : Ordered (replyOk a0 a1 a2) := by
  unfold replyOk
  repeat' first
    | with_reducible first
        | exact h | apply staleReply_ordered | apply setQe_ordered | apply finalOutcome_ordered | apply Ordered.ite
    | split
theorem linkofsSample_ordered {a0} {a1} {a2} {a3} (h : Ordered a0) : Ordered (linkofsSample a0 a1 a2 a3) := by
  unfold linkofsSample
  repeat' with_reducible first
    | exact h | apply gaugeApply_ordered | apply Ordered.ite
theorem testFailed_ordered {a0} {a1} {a2} (h : Ordered a0) : Ordered (testFailed a0 a1 a2) := by
  unfold testFailed
  repeat' with_reducible first
    | exact h | apply setVisit_ordered | apply Ordered.ite
theorem testDone_ordered {a0} {a1} {a2} {a3} (h : Ordered a0) : Ordered (testDone a0 a1 a2 a3) := by
  unfold testDone
  repeat' first
    | with_reducible first
        | exact h | apply setVisit_ordered | apply testFailed_ordered | apply Ordered.ite
    | split
theorem startAt_ordered {a0} {a1} {a2} (h : Ordered a0) : Ordered (startAt a0 a1 a2) := by
  unfold startAt
  repeat' with_reducible first
    | exact h | assumption | apply withMate_ordered | apply seqCtlWrite_ordered | apply setMile_ordered | (intro _)
theorem resumeIn_ordered {a0} {a1} {a2} (h : Ordered a0) : Ordered (resumeIn a0 a1 a2) := by
  unfold resumeIn
  repeat' with_reducible first
    | exact h | assumption | apply forJob_ordered | apply startAt_ordered | apply setTwin_ordered | apply setCtx_ordered | (intro _) | apply Ordered.ite
    | apply Ordered.folds
theorem sendAgain_ordered {a0} {a1} {a2} (h : Ordered a0) : Ordered (sendAgain a0 a1 a2).1 := by
  fun_induction sendAgain
  repeat' with_reducible first
    | exact h | apply sendMsg_ordered | apply_assumption
theorem napEntry_ordered {a0} {a1} (h : Ordered a0) : Ordered (napEntry a0 a1) := by
  unfold napEntry
  repeat' first
    | with_reducible first
        | exact h | apply setSeqSt_ordered | apply setSeq_ordered
    | split
theorem tkPortSoak_ordered {a0} {a1} {a2} (h : Ordered a0) : Ordered (tkPortSoak a0 a1 a2) := by
  unfold tkPortSoak
  repeat' with_reducible first
    | exact h | assumption | apply setPState_ordered | apply closeUnit_ordered | (intro _) | apply Ordered.ite | apply Ordered.folds
theorem ownDigest_ordered {a0} {a1} {a2} (h : Ordered a0) : Ordered (ownDigest a0 a1 a2) := by
  unfold ownDigest
  repeat' with_reducible first
    | exact h | apply setTwin_ordered | apply compareDigests_ordered | apply sendDigest_ordered | apply Ordered.ite
theorem formDigest_ordered {a0} {a1} {a2} (h : Ordered a0) : Ordered (formDigest a0 a1 a2) := by
  unfold formDigest
  repeat' with_reducible first
    | exact h | apply ownDigest_ordered | apply Ordered.ite
theorem constsPut_ordered {a0} {a1} {a2} (h : Ordered a0) : Ordered (constsPut a0 a1 a2) := by
  unfold constsPut
  repeat' with_reducible first
    | exact h | assumption | apply bumpBy_ordered | apply applyWord_ordered | (intro _) | apply Ordered.ite | apply Ordered.folds
theorem stepConsts_ordered {a0} {a1} {a2} (h : Ordered a0) : Ordered (stepConsts a0 a1 a2) := by
  unfold stepConsts
  repeat' first
    | with_reducible first
        | exact h | apply constsPut_ordered | (intro _) | apply Ordered.folds
    | split
theorem gaugeMilestone_ordered {a0} {a1} {a2} {a3} (h : Ordered a0) : Ordered (gaugeMilestone a0 a1 a2 a3) := by
  unfold gaugeMilestone
  repeat' with_reducible first
    | exact h | assumption | apply gaugeClose_ordered | (intro _) | apply Ordered.ite | apply Ordered.folds
theorem stepAtDie_ordered {a0} {a1} {a2} {a3} (h : Ordered a0) : Ordered (stepAtDie a0 a1 a2 a3) := by
  unfold stepAtDie
  repeat' with_reducible first
    | exact h | assumption | apply gaugeMilestone_ordered | apply setMile_ordered | apply wakeCause_ordered | apply restWake_ordered | (intro _)
    | apply Ordered.ite | apply Ordered.folds
theorem postStep_ordered {a0} {a1} {a2} (h : Ordered a0) : Ordered (postStep a0 a1 a2) := by
  unfold postStep
  repeat' with_reducible first
    | exact h | apply stepConsts_ordered | apply ctxHold_ordered | apply setCtx_ordered | apply gaugeMilestone_ordered | apply stepAtDie_ordered | (intro _)
    | apply Ordered.folds
theorem stepPost_ordered {a0} {a1} (h : Ordered a0) : Ordered (stepPost a0 a1) := by
  unfold stepPost
  repeat' first
    | with_reducible first
        | exact h | apply formDigest_ordered | apply postStep_ordered | apply setCtx_ordered | apply Ordered.ite
    | split
theorem loadRec_ordered {a0} {a1} {a2} (h : Ordered a0) : Ordered (loadRec a0 a1 a2) := by
  unfold loadRec
  repeat' first
    | with_reducible first
        | exact h | apply freeUsed_ordered | apply recJudge_ordered | apply setStack_ordered | apply Ordered.ite
    | split
theorem memoryStart_ordered {a0} {a1} {a2} (h : Ordered a0) : Ordered (memoryStart a0 a1 a2) := by
  unfold memoryStart
  repeat' with_reducible first
    | exact h | assumption | apply memTrain_ordered | apply loadRec_ordered | apply fdSet_ordered | apply raiseInt_ordered | apply errAt_ordered
    | apply memTrained_ordered | apply endStep_ordered | apply setPins_ordered | (intro _) | apply Ordered.ite | apply Ordered.folds | apply Ordered.upd h
theorem fuseDone_ordered {a0} {a1} (h : Ordered a0) : Ordered (fuseDone a0 a1) := by
  unfold fuseDone
  repeat' first
    | with_reducible first
        | exact h | apply fdSet_ordered | apply setHost_ordered | apply bump_ordered | apply fuseBlow_ordered | apply raiseInt_ordered | apply errAt_ordered
        | apply send_ordered | apply Ordered.ite
    | split
theorem probeLaunch_ordered {a0} {a1} {a2} {a3} (h : Ordered a0) : Ordered (probeLaunch a0 a1 a2 a3) := by
  unfold probeLaunch
  repeat' with_reducible first
    | exact h | apply probeSend_ordered | apply bump_ordered | apply setFab_ordered | apply Ordered.ite
theorem landTok_ordered {a0} {a1} {a2} (h : Ordered a0) : Ordered (landTok a0 a1 a2) := by
  unfold landTok
  repeat' first
    | with_reducible first
        | exact h | apply booksCheck_ordered | apply setLink_ordered | apply bump_ordered | apply flowErr_ordered | apply Ordered.ite
    | (dsimp only; split)
theorem pldmPoll_ordered {a0} (h : Ordered a0) : Ordered (pldmPoll a0) := by
  unfold pldmPoll
  repeat' with_reducible first
    | exact h | assumption | apply mgmtMsg_ordered | apply setHost_ordered | apply send_ordered | (intro _)
theorem qpopReturn_ordered {a0} {a1} (h : Ordered a0) : Ordered (qpopReturn a0 a1) := by
  unfold qpopReturn
  repeat' first
    | with_reducible first
        | exact h | apply popSlot_ordered | apply qpopGive_ordered
    | with_reducible refine Ordered.fst (by assumption) ?_
    | split
theorem writeBack_ordered {a0} {a1} (h : Ordered a0) : Ordered (writeBack a0 a1) := by
  unfold writeBack
  repeat' first
    | with_reducible first
        | exact h | apply bump_ordered | apply setCore_ordered | apply Ordered.ite
    | (dsimp only; split)
    | (refine SpadOrdered.of2 (Ordered.core ?_ _) rfl rfl)
    | (refine SpadOrdered.of2 (putWord_spad ?_) rfl rfl)
theorem copyRows_ordered {a0} {a1} {a2} {a3} {a4} (h : Ordered a0) : Ordered (copyRows a0 a1 a2 a3 a4) := by
  unfold copyRows
  extract_lets
  refine bumpBy_ordered (bumpBy_ordered (setCore_ordered h ⟨?_, ?_⟩))
  · refine twf_foldl (fun t w ht => twf_tdel _ ht) (twf_foldl (fun t x ht => ?_) (twf_tfilter (Ordered.core h a2).1 _) _) _
    split
    · exact twf_tput _ _ ht
    · exact ht
  · refine twf_foldl (fun t w ht => twf_tput _ _ ht) (twf_foldl (fun t x ht => ?_) (twf_tfilter (Ordered.core h a2).2 _) _) _
    split
    · exact twf_tput _ _ ht
    · exact ht
theorem copyDirty_ordered {a0} {a1} {a2} (h : Ordered a0) : Ordered (copyDirty a0 a1 a2) := by
  unfold copyDirty
  repeat' first
    | with_reducible first
        | exact h | apply copyRows_ordered | apply setCore_ordered
    | (refine SpadOrdered.of2 (Ordered.core ?_ _) rfl rfl)
theorem freezeAcked_ordered {a0} (h : Ordered a0) : Ordered (freezeAcked a0) := by
  unfold freezeAcked
  repeat' first
    | with_reducible first
        | exact h | assumption | apply copyDirty_ordered | apply setCore_ordered | apply wr_ordered | apply copyFields_ordered | apply setHub_ordered
        | apply invalAll_ordered | (intro _) | apply Ordered.ite | apply Ordered.folds
    | split
    | (refine SpadOrdered.of2 (Ordered.core ?_ _) rfl rfl)
theorem dmaWritePiece_ordered {a0} {a1} {a2} {a3} {a4} (h : Ordered a0) : Ordered (dmaWritePiece a0 a1 a2 a3 a4).1 := by
  unfold dmaWritePiece
  repeat' first
    | with_reducible first
        | exact h | apply reqRefused_ordered | apply spadReadAll_ordered | apply memWrite_ordered
    | with_reducible refine Ordered.fst (by assumption) ?_
    | split
    | (dsimp only; split)
theorem loadWords_ordered {a0} {a1} {a2} {a3} {a4} (h : Ordered a0) : Ordered (loadWords a0 a1 a2 a3 a4) := by
  fun_induction loadWords
  repeat' with_reducible first
    | exact h | apply setBufWord_ordered | apply_assumption
theorem loadDone_ordered {a0} {a1} (h : Ordered a0) : Ordered (loadDone a0 a1) := by
  unfold loadDone
  repeat' first
    | with_reducible first
        | exact h | apply fdSet_ordered | apply setFab_ordered | apply cfgswAdvance_ordered | apply rangeRelease_ordered | apply spadReadAll_ordered
        | apply flowErr_ordered | apply loadWords_ordered | apply Ordered.ite
    | with_reducible refine Ordered.fst (by assumption) ?_
    | split
theorem regCmdClear_ordered {a0} {a1} {a2} {a3} {a4} {a5} (h : Ordered a0) : Ordered (regCmdClear a0 a1 a2 a3 a4 a5) := by
  unfold regCmdClear
  repeat' with_reducible first
    | exact h | apply registerWrite_ordered
theorem halfAsked_ordered {a0} {a1} {a2} (h : Ordered a0) : Ordered (halfAsked a0 a1 a2) := by
  unfold halfAsked
  repeat' with_reducible first
    | exact h | apply toHalf_ordered | apply fdSet_ordered | apply queueBlk_ordered | apply Ordered.ite
theorem recentreEnd_ordered {a0} {a1} {a2} (h : Ordered a0) : Ordered (recentreEnd a0 a1 a2) := by
  unfold recentreEnd
  repeat' first
    | with_reducible first
        | exact h | apply setStack_ordered | apply fdSet_ordered | apply bump_ordered | apply setSlice_ordered | apply raiseInt_ordered | apply errAt_ordered
        | apply report_ordered | apply Ordered.ite
    | split
theorem loadSetPoints_ordered {a0} (h : Ordered a0) : Ordered (loadSetPoints a0) := by
  unfold loadSetPoints
  repeat' with_reducible first
    | exact h | assumption | apply fdSet_ordered | (intro _) | apply Ordered.folds
theorem postLost_ordered {a0} {a1} (h : Ordered a0) : Ordered (postLost a0 a1) := by
  unfold postLost
  repeat' with_reducible first
    | exact h | assumption | apply postAll_ordered | (intro _) | apply Ordered.ite | apply Ordered.folds
theorem checkDone_ordered {a0} {a1} (h : Ordered a0) : Ordered (checkDone a0 a1) := by
  unfold checkDone
  repeat' first
    | with_reducible first
        | exact h | apply fdSet_ordered | apply setFab_ordered | apply cfgswAdvance_ordered | apply flowErr_ordered | apply cfgswDone_ordered | apply Ordered.ite
    | split
    | (dsimp only; split)
theorem noSignpost_ordered {a0} {a1} {a2} (h : Ordered a0) : Ordered (noSignpost a0 a1 a2) := by
  unfold noSignpost
  repeat' first
    | with_reducible first
        | exact h | assumption | apply setQe_ordered | apply openFail_ordered | apply finalOutcome_ordered | (intro _) | apply Ordered.ite
        | apply Ordered.folds
    | split
theorem cacheTouch_ordered {a0} {a1} {a2} (h : Ordered a0) : Ordered (cacheTouch a0 a1 a2) := by
  unfold cacheTouch
  repeat' with_reducible first
    | exact h | apply setRout_ordered
theorem walkReply_ordered {a0} {a1} {a2} {a3} (h : Ordered a0) : Ordered (walkReply a0 a1 a2 a3) := by
  unfold walkReply
  repeat' first
    | with_reducible first
        | exact h | assumption | apply bump_ordered | apply setNet_ordered | apply memServe_ordered | apply noteErr_ordered | apply raiseInt_ordered
        | apply errAt_ordered | apply setRout_ordered | apply noSignpost_ordered | apply cacheTouch_ordered | (intro _) | apply Ordered.ite | apply Ordered.folds
    | split
theorem convoyAnswer_ordered {a0} {a1} {a2} (h : Ordered a0) : Ordered (convoyAnswer a0 a1 a2) := by
  unfold convoyAnswer
  repeat' first
    | with_reducible first
        | exact h | apply takePkt_ordered | apply setRout_ordered | apply convAnswer_ordered | apply Ordered.ite
    | split
    | (dsimp only; split)
theorem dieWdog_ordered {a0} {a1} {a2} (h : Ordered a0) : Ordered (dieWdog a0 a1 a2) := by
  unfold dieWdog
  repeat' with_reducible first
    | exact h | apply fdSet_ordered | apply bump_ordered | apply raiseInt_ordered | apply errAt_ordered | apply moduleReset_ordered | apply resetDie_ordered
    | apply Ordered.ite
theorem detachNow_ordered {a0} (h : Ordered a0) : Ordered (detachNow a0) := by
  unfold detachNow
  repeat' with_reducible first
    | exact h | apply fdSet_ordered | apply setPst_ordered | apply setTwin_ordered
theorem cwHold_ordered {a0} (h : Ordered a0) : Ordered (cwHold a0) := by
  unfold cwHold
  repeat' with_reducible first
    | exact h | apply hubLog_ordered | apply detachNow_ordered | apply Ordered.ite
theorem quiesceSwitch_ordered {a0} {a1} (h : Ordered a0) : Ordered (quiesceSwitch a0 a1) := by
  unfold quiesceSwitch
  repeat' first
    | with_reducible first
        | exact h | apply cfgswFinish_ordered | apply activate_ordered | apply bumpBy_ordered | apply Ordered.ite
    | split
theorem hotDigest_ordered {a0} {a1} {a2} (h : Ordered a0) : Ordered (hotDigest a0 a1 a2) := by
  unfold hotDigest
  repeat' with_reducible first
    | exact h | apply compareDigests_ordered | apply setTwin_ordered
theorem packetLaunch_ordered {a0} {a1} (h : Ordered a0) : Ordered (packetLaunch a0 a1) := by
  unfold packetLaunch
  repeat' first
    | with_reducible first
        | exact h | apply cacheTouch_ordered | apply bump_ordered | apply epAdd_ordered | apply setQe_ordered | apply bufPush_ordered | apply swPush_ordered
        | apply Ordered.ite
    | split
theorem launchAlone_ordered {a0} {a1} (h : Ordered a0) : Ordered (launchAlone a0 a1) := by
  unfold launchAlone
  repeat' with_reducible first
    | exact h | apply packetLaunch_ordered | apply Ordered.ite
theorem popToks_ordered {a0} {a1} {a2} {a3} (h : Ordered a0) : Ordered (popToks a0 a1 a2 a3) := by
  fun_induction popToks
  repeat' with_reducible first
    | exact h | apply popTok_ordered | apply_assumption
theorem updFire_ordered {a0} {a1} {a2} (h : Ordered a0) : Ordered (updFire a0 a1 a2) := by
  unfold updFire
  repeat' first
    | with_reducible first
        | exact h | apply cuStall_ordered | apply updConsts_ordered | apply popToks_ordered | apply popTok_ordered | apply takeCredits_ordered
        | apply setCu_ordered | apply Ordered.ite
    | with_reducible refine Ordered.fst (by assumption) ?_
    | split
theorem dynAddr_ordered {a0} {a1} (h : Ordered a0) : Ordered (dynAddr a0 a1) := by
  unfold dynAddr
  repeat' with_reducible first
    | exact h | apply fdSet_ordered | apply Ordered.ite
theorem runsDone_ordered {a0} {a1} {a2} (h : Ordered a1) : Ordered (runsDone a0 a1 a2) := by
  fun_induction runsDone
  repeat' with_reducible first
    | exact h | apply setCtx_ordered | apply complete_ordered | apply_assumption
theorem stepRun_ordered {a0} {a1} (h : Ordered a0) : Ordered (stepRun a0 a1) := by
  unfold stepRun
  repeat' with_reducible first
    | exact h | apply endCmd_ordered | apply setCtx_ordered | apply ctxHold_ordered | apply runsDone_ordered | apply Ordered.ite
theorem loadWToken_ordered {a0} {a1} (h : Ordered a0) : Ordered (loadWToken a0 a1) := by
  unfold loadWToken
  repeat' first
    | with_reducible first
        | exact h | apply popTok_ordered | apply setArr_ordered | apply Ordered.ite
    | split
theorem queryTimeout_ordered {a0} (h : Ordered a0) : Ordered (queryTimeout a0) := by
  unfold queryTimeout
  repeat' with_reducible first
    | exact h | apply declareLost_ordered | apply Ordered.ite
theorem casevoRead_ordered {a0} {a1} {a2} (h : Ordered a0) : Ordered (casevoRead a0 a1 a2) := by
  unfold casevoRead
  repeat' with_reducible first
    | exact h | assumption | apply mgmtMsg_ordered | apply readCode_ordered | apply mgmtDenied_ordered | apply send_ordered | (intro _) | apply Ordered.ite
theorem bridgeWatch_ordered {a0} {a1} (h : Ordered a0) : Ordered (bridgeWatch a0 a1) := by
  unfold bridgeWatch
  repeat' with_reducible first
    | exact h | apply closeUnit_ordered | apply unwatch_ordered | apply Ordered.ite
theorem respond_ordered {a0} {a1} {a2} (h : Ordered a0) : Ordered (respond a0 a1 a2) := by
  unfold respond
  repeat' first
    | with_reducible first
        | exact h | apply watch_ordered | apply setLadder_ordered | apply abortCore_ordered | apply reloadRegion_ordered | apply closeUnit_ordered
        | apply setSlice_ordered | apply bridgeWatch_ordered | (intro _) | apply Ordered.ite | apply Ordered.folds
    | split
theorem correctionsAnswered_ordered {a0} (h : Ordered a0) : Ordered (correctionsAnswered a0) := by
  unfold correctionsAnswered
  repeat' with_reducible first
    | exact h | assumption | apply setLadder_ordered | apply unwatch_ordered | apply closeUnit_ordered | apply bridgeWatch_ordered | (intro _)
    | apply Ordered.ite | apply Ordered.folds
theorem logDrain_ordered {a0} {a1} (h : Ordered a0) : Ordered (logDrain a0 a1) := by
  unfold logDrain
  repeat' with_reducible first
    | exact h | assumption | apply respond_ordered | apply hubLog_ordered | apply correctionsAnswered_ordered | apply setLog_ordered | (intro _)
    | apply Ordered.folds
theorem exhausted_ordered {a0} {a1} (h : Ordered a0) : Ordered (exhausted a0 a1).1 := by
  unfold exhausted
  repeat' first
    | with_reducible first
        | exact h | apply setLadder_ordered
    | split
theorem bankOff_ordered {a0} {a1} {a2} (h : Ordered a0) : Ordered (bankOff a0 a1 a2) := by
  unfold bankOff
  repeat' with_reducible first
    | exact h | apply bankReach_ordered | apply raiseInt_ordered | apply setCore_ordered | apply Ordered.ite | apply Ordered.core | apply bankLose_spad
theorem teardownAll_ordered {a0} {a1} (h : Ordered a0) : Ordered (teardownAll a0 a1) := by
  unfold teardownAll
  repeat' with_reducible first
    | exact h | assumption | apply teardown_ordered | (intro _) | apply Ordered.ite | apply Ordered.folds
theorem hostPageReset_ordered {a0} (h : Ordered a0) : Ordered (hostPageReset a0) := by
  unfold hostPageReset
  repeat' with_reducible first
    | exact h | apply clearPages_ordered
theorem functionReset_ordered {a0} {a1} (h : Ordered a0) : Ordered (functionReset a0 a1) := by
  unfold functionReset
  repeat' with_reducible first
    | exact h | apply teardownAll_ordered | apply ringsOff_ordered | apply setHost_ordered | apply hostPageReset_ordered | apply bump_ordered | apply wr_ordered
    | apply Ordered.ite
theorem homeData_ordered {a0} {a1} (h : Ordered a0) : Ordered (homeData a0 a1) := by
  unfold homeData
  repeat' first
    | with_reducible first
        | exact h | apply memWrite_ordered | apply setTwin_ordered | apply homeless_ordered | apply reloadRegion_ordered | apply askHome_ordered
        | apply Ordered.ite
    | split
    | (dsimp only; split)
theorem hubBoot_ordered {a0} (h : Ordered a0) : Ordered (hubBoot a0) := by
  unfold hubBoot
  repeat' first
    | with_reducible first
        | exact h | assumption | apply tryBoot_ordered | apply loadSetPoints_ordered | apply powerDies_ordered | apply imageRefused_ordered
        | apply fdSet_ordered | apply bootFrom_ordered | apply endStep_ordered | apply stepTime_ordered | (intro _) | apply Ordered.ite | apply Ordered.folds
    | (dsimp only; split)
theorem mboxAt_ordered {a0} {a1} {a2} {a3} {a4} (h : Ordered a0) : Ordered (mboxAt a0 a1 a2 a3 a4) := by
  unfold mboxAt
  repeat' with_reducible first
    | exact h | apply mboxIn_ordered | apply setNet_ordered | apply Ordered.ite
theorem dieCoast_ordered {a0} {a1} (h : Ordered a0) : Ordered (dieCoast a0 a1) := by
  unfold dieCoast
  repeat' with_reducible first
    | exact h | apply fdSet_ordered | apply raiseInt_ordered | apply errAt_ordered | apply bump_ordered
theorem armedIn_ordered {a0} {a1} {a2} {a3} (h : Ordered a0) : Ordered (armedIn a0 a1 a2 a3) := by
  unfold armedIn
  repeat' first
    | with_reducible first
        | exact h | assumption | apply noticeAnswered_ordered | apply forJob_ordered | apply setCtx_ordered | apply postAll_ordered | (intro _)
        | apply Ordered.ite
    | (dsimp only; split)
theorem twinMilestone_ordered {a0} (h : Ordered a0) : Ordered (twinMilestone a0) := by
  unfold twinMilestone
  repeat' with_reducible first
    | exact h | apply detachNow_ordered | apply setPst_ordered | apply setTwin_ordered | apply fdSet_ordered | apply Ordered.ite
theorem waitsDone_ordered {a0} {a1} (h : Ordered a0) : Ordered (waitsDone a0 a1) := by
  unfold waitsDone
  repeat' with_reducible first
    | exact h | apply complete_ordered | apply setCtx_ordered | (intro _) | apply Ordered.folds
theorem recordStep_ordered {a0} {a1} {a2} (h : Ordered a0) : Ordered (recordStep a0 a1 a2) := by
  unfold recordStep
  repeat' with_reducible first
    | exact h | apply setCtx_ordered | apply twinMilestone_ordered | apply ctxHold_ordered | apply waitsDone_ordered | apply runsDone_ordered
theorem clusCoast_ordered {a0} {a1} (h : Ordered a0) : Ordered (clusCoast a0 a1) := by
  unfold clusCoast
  repeat' with_reducible first
    | exact h | apply fdSet_ordered | apply raiseInt_ordered | apply errAt_ordered | apply bump_ordered
theorem pllLock_ordered {a0} {a1} (h : Ordered a0) : Ordered (pllLock a0 a1) := by
  unfold pllLock
  repeat' with_reducible first
    | exact h | apply freqApply_ordered | apply fdSet_ordered | apply Ordered.ite
theorem clusPllLoss_ordered {a0} {a1} {a2} (h : Ordered a0) : Ordered (clusPllLoss a0 a1 a2) := by
  unfold clusPllLoss
  repeat' with_reducible first
    | exact h | apply clusCoast_ordered | apply setPower_ordered | apply closeUnit_ordered | apply pllLock_ordered | apply pllStart_ordered
    | apply clusterReset_ordered | apply Ordered.ite
theorem lostIn_ordered {a0} {a1} {a2} {a3} (h : Ordered a0) : Ordered (lostIn a0 a1 a2 a3) := by
  unfold lostIn
  repeat' first
    | with_reducible first
        | exact h | assumption | apply forJob_ordered | apply ctxOpAll_ordered | apply setPst_ordered | apply setTwin_ordered | apply setCtx_ordered
        | apply contextFail_ordered | apply stepFailed_ordered | (intro _) | apply Ordered.ite
    | split
    | (dsimp only; split)
theorem dieIdleExit_ordered {a0} {a1} (h : Ordered a0) : Ordered (dieIdleExit a0 a1) := by
  unfold dieIdleExit
  repeat' with_reducible first
    | exact h | apply fdSet_ordered | apply Ordered.ite
theorem diePllLoss_ordered {a0} {a1} {a2} (h : Ordered a0) : Ordered (diePllLoss a0 a1 a2) := by
  unfold diePllLoss
  repeat' with_reducible first
    | exact h | apply dieCoast_ordered | apply fdSet_ordered | apply moduleReset_ordered | apply gradeEval_ordered | apply abortAll_ordered
    | apply dieReset_ordered | apply portDieReset_ordered | apply Ordered.ite
theorem swBooks_ordered {a0} {a1} {a2} (h : Ordered a0) : Ordered (swBooks a0 a1 a2) := by
  unfold swBooks
  repeat' with_reducible first
    | exact h | apply errAt_ordered | apply Ordered.ite
theorem switchBooks_ordered {a0} {a1} {a2} (h : Ordered a0) : Ordered (switchBooks a0 a1 a2) := by
  unfold switchBooks
  repeat' first
    | with_reducible first
        | exact h | apply swBooks_ordered
    | split
theorem muStepWalk_ordered {a0} {a1} {a2} {a3} (h : Ordered a0) : Ordered (muStepWalk a0 a1 a2 a3) := by
  unfold muStepWalk
  repeat' with_reducible first
    | exact h | apply muWalkEnd_ordered | apply setMu_ordered | apply Ordered.ite
theorem muAccess_ordered {a0} {a1} {a2} {a3} {a4} (h : Ordered a0) : Ordered (muAccess a0 a1 a2 a3 a4) := by
  unfold muAccess
  repeat' first
    | with_reducible first
        | exact h | apply stallCount_ordered | apply muWalkEnd_ordered | apply takeCredits_ordered | apply setMu_ordered | apply muStepWalk_ordered
        | apply popTok_ordered | apply coreErr_ordered | apply bump_ordered | apply askBanks_ordered | apply bumpBy_ordered | apply fetchAll_ordered
        | apply spadApply_ordered | apply storeAll_ordered | apply Ordered.ite
    | with_reducible refine Ordered.fst (by assumption) ?_
    | split
    | (dsimp only; split)
theorem flipAt_ordered {a0} {a1} {a2} {a3} (h : Ordered a0) : Ordered (flipAt a0 a1 a2 a3) := by
  unfold flipAt
  repeat' with_reducible first
    | exact h | apply fdSet_ordered | apply setNet_ordered | apply Ordered.ite
theorem flipNow_ordered {a0} {a1} (h : Ordered a0) : Ordered (flipNow a0 a1) := by
  unfold flipNow
  repeat' with_reducible first
    | exact h | assumption | apply signAll_ordered | apply flipAt_ordered | apply fdSet_ordered | (intro _) | apply Ordered.folds
theorem dieRoutes_ordered {a0} {a1} {a2} {a3} (h : Ordered a0) : Ordered (dieRoutes a0 a1 a2 a3) := by
  unfold dieRoutes
  repeat' with_reducible first
    | exact h | assumption | apply setNet_ordered | apply wr_ordered | apply fdSet_ordered | (intro _) | apply Ordered.ite | apply Ordered.folds
theorem portStart_ordered {a0} {a1} (h : Ordered a0) : Ordered (portStart a0 a1) := by
  unfold portStart
  repeat' first
    | with_reducible first
        | exact h | assumption | apply endStep_ordered | apply fdSet_ordered | apply setHost_ordered | apply setDevice_ordered | apply setRoutes_ordered
        | apply wr_ordered | apply flipNow_ordered | apply dieRoutes_ordered | apply setPort_ordered | apply enablePorts_ordered | (intro _) | apply Ordered.ite
        | apply Ordered.folds
    | split
theorem vfAccess_ordered {a0} {a1} {a2} {a3} {a4} {a5} {a6} (h : Ordered a0) : Ordered (vfAccess a0 a1 a2 a3 a4 a5 a6) := by
  unfold vfAccess
  repeat' with_reducible first
    | exact h | apply vfWords_ordered | apply hostMem_ordered | apply hostBad_ordered | apply send_ordered | apply Ordered.ite
theorem flashExtLow_ordered {a0} (h : Ordered a0) : Ordered (flashExtLow a0) := by
  unfold flashExtLow
  repeat' with_reducible first
    | exact h | apply setPins_ordered | apply Ordered.ite
theorem downExpiry_ordered {a0} {a1} (h : Ordered a0) : Ordered (downExpiry a0 a1) := by
  unfold downExpiry
  repeat' with_reducible first
    | exact h | apply setPState_ordered | apply Ordered.ite
theorem reasmTimeout_ordered {a0} {a1} {a2} {a3} {a4} (h : Ordered a0) : Ordered (reasmTimeout a0 a1 a2 a3 a4) := by
  unfold reasmTimeout
  repeat' with_reducible first
    | exact h | apply setQe_ordered | apply qErr_ordered | apply bump_ordered | apply Ordered.ite
theorem checkAgain_ordered {a0} {a1} {a2} (h : Ordered a0) : Ordered (checkAgain a0 a1 a2) := by
  unfold checkAgain
  repeat' with_reducible first
    | exact h | apply fdSet_ordered | apply setPort_ordered | apply setPState_ordered | apply rxLost_ordered | apply wr_ordered | apply Ordered.ite
theorem seqEntry_ordered {a0} {a1} (h : Ordered a0) : Ordered (seqEntry a0 a1) := by
  unfold seqEntry
  repeat' first
    | with_reducible first
        | exact h | apply bump_ordered | apply stallCount_ordered | apply popTok_ordered | apply takeCredits_ordered | apply setArr_ordered | apply bumpBy_ordered
        | (intro _) | apply Ordered.ite | apply Ordered.folds
    | (dsimp only; split)
theorem laneShown_ordered {a0} {a1} {a2} {a3} {a4} (h : Ordered a0) : Ordered (laneShown a0 a1 a2 a3 a4) := by
  unfold laneShown
  repeat' with_reducible first
    | exact h | apply setPort_ordered | apply laneFail_ordered | apply Ordered.ite
theorem ladderStep_ordered {a0} {a1} (h : Ordered a0) : Ordered (ladderStep a0 a1).1 := by
  unfold ladderStep
  repeat' first
    | with_reducible first
        | exact h | apply bump_ordered | apply raiseInt_ordered | apply setLadder_ordered
    | split
    | (dsimp only; split)
theorem slotGrant_ordered {a0} {a1} (h : Ordered a0) : Ordered (slotGrant a0 a1) := by
  unfold slotGrant
  repeat' with_reducible first
    | exact h | apply poolCheck_ordered | apply setHeal_ordered | apply Ordered.ite
theorem setPoint_ordered {a0} {a1} (h : Ordered a0) : Ordered (setPoint a0 a1) := by
  unfold setPoint
  repeat' with_reducible first
    | exact h | apply setPins_ordered | apply clusVolts_ordered
theorem walkEnd_ordered {a0} {a1} {a2} (h : Ordered a0) : Ordered (walkEnd a0 a1 a2) := by
  unfold walkEnd
  repeat' with_reducible first
    | exact h | apply testFailed_ordered | apply fdSet_ordered | apply setVisit_ordered | apply setHeal_ordered | apply setPoint_ordered | apply Ordered.ite
theorem carryPlaced_ordered {a0} {a1} (h : Ordered a0) (g1 : Ordered a1) : Ordered (carryPlaced a0 a1) := by
  unfold carryPlaced
  repeat' first
    | with_reducible first
        | exact h | assumption | apply pstMoves_ordered | apply placeCore_ordered | (intro _) | apply Ordered.ite | apply Ordered.folds
        | apply Ordered.foldsFst
    | split
theorem handBack_ordered {a0} {a1} (h : Ordered a0) : Ordered (handBack a0 a1) := by
  unfold handBack
  repeat' first
    | with_reducible first
        | exact h | assumption | apply swapPlan_ordered | apply claimEns_ordered | apply wr_ordered | apply bindCore_ordered | apply setCtx_ordered
        | apply fdSet_ordered | apply setPst_ordered | apply setTwin_ordered | (intro _) | apply Ordered.ite | apply Ordered.folds
    | split
theorem openRequest_ordered {a0} {a1} {a2} (h : Ordered a0) : Ordered (openRequest a0 a1 a2) := by
  unfold openRequest
  repeat' first
    | with_reducible first
        | exact h | apply inject_ordered | apply setHandle_ordered | apply Ordered.ite
    | split
theorem drainGo_ordered {a0} {a1} (h : Ordered a0) : Ordered (drainGo a0 a1) := by
  unfold drainGo
  repeat' first
    | with_reducible first
        | exact h | apply teardownRest_ordered | apply failReset_ordered | apply setCtx_ordered | apply Ordered.ite
    | split
theorem reasmBooks_ordered {a0} {a1} (h : Ordered a0) : Ordered (reasmBooks a0 a1) := by
  unfold reasmBooks
  repeat' with_reducible first
    | exact h | apply booksLost_ordered | apply Ordered.ite
theorem openTimeout_ordered {a0} {a1} {a2} (h : Ordered a0) : Ordered (openTimeout a0 a1 a2) := by
  unfold openTimeout
  repeat' with_reducible first
    | exact h | apply setChan_ordered | apply inject_ordered | apply openFail_ordered | apply Ordered.ite
theorem closeCmd_ordered {a0} {a1} {a2} {a3} (h : Ordered a0) : Ordered (closeCmd a0 a1 a2 a3) := by
  unfold closeCmd
  repeat' with_reducible first
    | exact h | apply registerWrite_ordered
theorem moveCopied_ordered {a0} {a1} (h : Ordered a0) : Ordered (moveCopied a0 a1) := by
  unfold moveCopied
  repeat' first
    | with_reducible first
        | exact h | assumption | apply withMate_ordered | apply loadLocal_ordered | apply loadHomes_ordered | apply signPut_ordered | apply fdSet_ordered
        | apply invalAll_ordered | apply setMover_ordered | apply bump_ordered | apply replaceCore_ordered | apply startAt_ordered | apply copyRows_ordered
        | (intro _) | apply Ordered.ite | apply Ordered.folds
    | (dsimp only; split)
theorem xWrite_ordered {a0} {a1} {a2} (h : Ordered a0) : Ordered (xWrite a0 a1 a2) := by
  unfold xWrite
  repeat' first
    | with_reducible first
        | exact h | apply bankAsk_ordered | apply send_ordered | apply spadMerge_ordered | apply bankAccept_ordered | apply Ordered.ite
    | with_reducible refine Ordered.fst (by assumption) ?_
    | split
theorem napTimer_ordered {a0} {a1} (h : Ordered a0) : Ordered (napTimer a0 a1) := by
  unfold napTimer
  repeat' first
    | with_reducible first
        | exact h | apply wakeCause_ordered | apply setSeq_ordered | apply Ordered.ite
    | split
theorem ackIn_ordered {a0} {a1} (h : Ordered a0) : Ordered (ackIn a0 a1) := by
  unfold ackIn
  repeat' first
    | with_reducible first
        | exact h | apply noticeAnswered_ordered | apply setHub_ordered
    | (dsimp only; split)
theorem tileFull_ordered {a0} {a1} (h : Ordered a0) : Ordered (tileFull a0 a1) := by
  unfold tileFull
  repeat' first
    | with_reducible first
        | exact h | apply bump_ordered | apply setArr_ordered | apply arrErr_ordered | apply Ordered.ite
    | split
    | (dsimp only; split)
theorem responseIn_ordered {a0} {a1} {a2} (h : Ordered a0) : Ordered (responseIn a0 a1 a2) := by
  unfold responseIn
  repeat' with_reducible first
    | exact h | apply takePkt_ordered | apply bump_ordered | apply Ordered.ite
theorem gaugeDrop_ordered {a0} {a1} {a2} (h : Ordered a0) : Ordered (gaugeDrop a0 a1 a2) := by
  unfold gaugeDrop
  repeat' with_reducible first
    | exact h | apply raiseInt_ordered | apply bump_ordered | apply setGauge_ordered
theorem gaugeSample_ordered {a0} {a1} {a2} {a3} {a4} {a5} {a6} {a7} (h : Ordered a0) : Ordered (gaugeSample a0 a1 a2 a3 a4 a5 a6 a7) := by
  unfold gaugeSample
  repeat' with_reducible first
    | exact h | apply gaugeDrop_ordered | apply gaugeApply_ordered | apply Ordered.ite
theorem heartbeatIn_ordered {a0} {a1} {a2} {a3} (h : Ordered a0) : Ordered (heartbeatIn a0 a1 a2 a3) := by
  unfold heartbeatIn
  repeat' with_reducible first
    | exact h | apply setTwin_ordered | apply fdSet_ordered | apply Ordered.ite
theorem muStart_ordered {a0} {a1} {a2} (h : Ordered a0) : Ordered (muStart a0 a1 a2) := by
  unfold muStart
  repeat' first
    | with_reducible first
        | exact h | apply stallCount_ordered | apply popTok_ordered | apply muBegin_ordered | apply setMu_ordered | apply Ordered.ite
    | split
theorem hostLinkReset_ordered {a0} {a1} (h : Ordered a0) : Ordered (hostLinkReset a0 a1) := by
  unfold hostLinkReset
  repeat' with_reducible first
    | exact h | apply teardownAll_ordered | apply ringsOff_ordered | apply setHost_ordered | apply hostPageReset_ordered | apply gradeEval_ordered
    | apply bump_ordered | apply Ordered.ite
theorem hostRefLoss_ordered {a0} (h : Ordered a0) : Ordered (hostRefLoss a0) := by
  unfold hostRefLoss
  repeat' with_reducible first
    | exact h | apply hostLinkReset_ordered | apply raiseInt_ordered | apply fdSet_ordered | apply Ordered.ite
theorem ctxOpCmd_ordered {a0} {a1} {a2} {a3} {a4} (h : Ordered a0) : Ordered (ctxOpCmd a0 a1 a2 a3 a4) := by
  unfold ctxOpCmd
  repeat' with_reducible first
    | exact h | apply registerWrite_ordered
theorem jackSend_ordered {a0} (h : Ordered a0) : Ordered (jackSend a0) := by
  unfold jackSend
  repeat' first
    | with_reducible first
        | exact h | apply twinSend_ordered | apply setStream_ordered | (intro _) | apply Ordered.ite | apply Ordered.folds
    | (dsimp only; split)
theorem mainLost_ordered {a0} (h : Ordered a0) : Ordered (mainLost a0) := by
  unfold mainLost
  repeat' with_reducible first
    | exact h | apply setPins_ordered | apply mainOff_ordered | apply Ordered.ite
theorem frameRead_ordered {a0} {a1} (h : Ordered a0) : Ordered (frameRead a0 a1) := by
  unfold frameRead
  repeat' with_reducible first
    | exact h | apply blkIn_ordered | apply setPort_ordered | (intro _) | apply Ordered.ite | apply Ordered.folds
theorem frameIn_ordered {a0} {a1} {a2} {a3} {a4} (h : Ordered a0) : Ordered (frameIn a0 a1 a2 a3 a4) := by
  unfold frameIn
  repeat' with_reducible first
    | exact h | apply frameRead_ordered | apply setPort_ordered | apply Ordered.ite
theorem codewordBad_ordered {a0} {a1} {a2} (h : Ordered a0) : Ordered (codewordBad a0 a1 a2) := by
  unfold codewordBad
  repeat' first
    | with_reducible first
        | exact h | apply setPort_ordered | apply raiseInt_ordered | apply bump_ordered | apply frameIn_ordered | apply laneShown_ordered
    | split
theorem codewordGood_ordered {a0} {a1} {a2} {a3} {a4} {a5} (h : Ordered a0) : Ordered (codewordGood a0 a1 a2 a3 a4 a5) := by
  unfold codewordGood
  repeat' with_reducible first
    | exact h | apply bump_ordered | apply bumpBy_ordered | apply setPort_ordered | apply laneShown_ordered | apply laneSeen_ordered | apply frameIn_ordered
    | apply Ordered.ite
theorem codewordIn_ordered {a0} {a1} {a2} {a3} (h : Ordered a0) : Ordered (codewordIn a0 a1 a2 a3) := by
  unfold codewordIn
  repeat' first
    | with_reducible first
        | exact h | apply setPort_ordered | apply codewordBad_ordered | apply codewordGood_ordered | apply Ordered.ite
    | split
theorem spareReady_ordered {a0} {a1} {a2} (h : Ordered a0) : Ordered (spareReady a0 a1 a2) := by
  unfold spareReady
  repeat' with_reducible first
    | exact h | apply fdSet_ordered | apply Ordered.ite
theorem dmaReadPiece_ordered {a0} {a1} {a2} {a3} {a4} (h : Ordered a0) : Ordered (dmaReadPiece a0 a1 a2 a3 a4).1 := by
  unfold dmaReadPiece
  repeat' first
    | with_reducible first
        | exact h | apply reqRefused_ordered | apply memServe_ordered | apply spadWriteAll_ordered
    | (dsimp only; split)
theorem quiesceTimeout_ordered {a0} {a1} (h : Ordered a0) : Ordered (quiesceTimeout a0 a1) := by
  unfold quiesceTimeout
  repeat' first
    | with_reducible first
        | exact h | apply cfgswDone_ordered | apply flowErr_ordered | apply bump_ordered | apply Ordered.ite
    | split
theorem messageIn_ordered {a0} {a1} {a2} (h : Ordered a0) : Ordered (messageIn a0 a1 a2) := by
  unfold messageIn
  repeat' first
    | with_reducible first
        | exact h | apply msgPacket_ordered | apply takePkt_ordered | apply deliver_ordered | apply holdPkt_ordered | apply Ordered.ite
    | split
theorem sliceWrite_ordered {a0} {a1} {a2} {a3} (h : Ordered a0) : Ordered (sliceWrite a0 a1 a2 a3) := by
  unfold sliceWrite
  repeat' first
    | with_reducible first
        | exact h | apply writeServe_ordered | apply Ordered.ite
    | split
theorem rotationStep_ordered {a0} {a1} (h : Ordered a0) : Ordered (rotationStep a0 a1) := by
  unfold rotationStep
  repeat' first
    | with_reducible first
        | exact h | apply queueBlk_ordered | apply setPort_ordered | apply Ordered.ite
    | split
    | (dsimp only; split)
theorem twinBind_ordered {a0} {a1} {a2} {a3} {a4} (h : Ordered a0) : Ordered (twinBind a0 a1 a2 a3 a4).1 := by
  unfold twinBind
  repeat' first
    | with_reducible first
        | exact h | apply fdSet_ordered | apply setFlash_ordered | apply sendCtrl_ordered | apply setPst_ordered | apply setTwin_ordered | apply freeUsed_ordered
    | split
theorem recodeDone_ordered {a0} {a1} {a2} (h : Ordered a0) : Ordered (recodeDone a0 a1 a2) := by
  unfold recodeDone
  repeat' first
    | with_reducible first
        | exact h | apply setCore_ordered | apply spadServe_ordered | apply applyWord_ordered | (intro _) | apply Ordered.folds
    | split
    | (refine SpadOrdered.of2 (Ordered.core ?_ _) rfl rfl)
theorem crystalFail_ordered {a0} (h : Ordered a0) : Ordered (crystalFail a0) := by
  unfold crystalFail
  repeat' with_reducible first
    | exact h | assumption | apply fdSet_ordered | apply raiseInt_ordered | apply errAt_ordered | apply clusCoast_ordered | apply gradeEval_ordered
    | apply dieCoast_ordered | (intro _) | apply Ordered.ite | apply Ordered.folds

end Sys2Proof.Machine
end

