-- ==== Sys2Proof/Laws/Ordered5.lean ====
section
/-! SUPPORT. The tables every shared operation keeps in rising order: continued from Ordered4.lean, callees before callers. -/
namespace Sys2Proof.Machine
open Sys2Proof
set_option Elab.async false

theorem notifyTimeout_ordered {a0} {a1} {a2} (h : Ordered a0) : Ordered (notifyTimeout a0 a1 a2) := by
  unfold notifyTimeout
  repeat' first
    | with_reducible first
        | exact h | apply notifyDrop_ordered
    | split
theorem twinTake_ordered {a0} {a1} {a2} (h : Ordered a0) : Ordered (twinTake a0 a1 a2) := by
  unfold twinTake
  repeat' first
    | with_reducible first
        | exact h | apply rxDrop_ordered
    | split
theorem onTwin_ordered {a0} {a1} {a2} {a3} (h : Ordered a0) (h3 : ∀ s, Ordered s → Ordered (a3 s)) : OrderedNext (onTwin a0 a1 a2 a3) := by
  unfold onTwin
  repeat' with_reducible first
    | exact h | apply h3 | apply onUnit_ordered | apply twinTake_ordered
theorem heldAll_ordered {a0} {a1} (h : Ordered a0) : Ordered (heldAll a0 a1) := by
  unfold heldAll
  repeat' with_reducible first
    | exact h | assumption | apply fdSet_ordered | apply setStream_ordered | apply sendCtrl_ordered | (intro _) | apply Ordered.ite | apply Ordered.folds
theorem journalIn_ordered {a0} {a1} {a2} {a3} (h : Ordered a0) : Ordered (journalIn a0 a1 a2 a3) := by
  unfold journalIn
  repeat' with_reducible first
    | exact h | apply bump_ordered | apply setStream_ordered | apply applyRec_ordered | apply heldAll_ordered | apply Ordered.ite
theorem passStart_ordered {a0} {a1} (h : Ordered a0) : Ordered (passStart a0 a1) := by
  unfold passStart
  repeat' first
    | with_reducible first
        | exact h | apply stallCount_ordered | apply takeCredits_ordered | apply popTok_ordered | apply passDone_ordered | apply arrErr_ordered
        | apply bump_ordered | apply fdSet_ordered | apply setArr_ordered | apply Ordered.ite
    | split
    | (dsimp only; split)
theorem footpathHubLoss_ordered {a0} {a1} (h : Ordered a0) : Ordered (footpathHubLoss a0 a1) := by
  unfold footpathHubLoss
  repeat' with_reducible first
    | exact h | apply resetDie_ordered | apply Ordered.ite
theorem onRing_ordered {a0} {a1} {a2} {a3} (h : Ordered a0) (h3 : ∀ s x, Ordered s → Ordered (a3 s x)) : OrderedNext (onRing a0 a1 a2 a3) := by
  unfold onRing
  repeat' with_reducible first
    | exact h | assumption | apply onUnit_ordered | apply withCmd_ordered
theorem ctxCreate_ordered {a0} {a1} (h : Ordered a0) : Ordered (ctxCreate a0 a1) := by
  unfold ctxCreate
  repeat' first
    | with_reducible first
        | exact h | apply finish_ordered | apply setCtx_ordered | apply setHost_ordered | apply Ordered.ite
    | split
theorem noticeResend_ordered {a0} {a1} (h : Ordered a0) : Ordered (noticeResend a0 a1) := by
  unfold noticeResend
  repeat' first
    | with_reducible first
        | exact h | apply setHub_ordered | apply postLost_ordered | apply noticeSend_ordered | apply Ordered.ite
    | split
theorem dieIdleEntry_ordered {a0} {a1} (h : Ordered a0) : Ordered (dieIdleEntry a0 a1) := by
  unfold dieIdleEntry
  repeat' with_reducible first
    | exact h | apply fdSet_ordered | apply Ordered.ite
theorem dmaRelease_ordered {a0} {a1} {a2} (h : Ordered a0) : Ordered (dmaRelease a0 a1 a2) := by
  unfold dmaRelease
  repeat' with_reducible first
    | exact h | apply dmaAskAll_ordered | apply rangeRelease_ordered
theorem dmaTimeout_ordered {a0} {a1} {a2} {a3} (h : Ordered a0) : Ordered (dmaTimeout a0 a1 a2 a3) := by
  unfold dmaTimeout
  repeat' first
    | with_reducible first
        | exact h | apply updDesc_ordered | apply dmaRelease_ordered | apply dmaErr_ordered | apply dmaFinish_ordered | apply Ordered.ite
    | split
theorem visitStart_ordered {a0} {a1} (h : Ordered a0) : Ordered (visitStart a0 a1) := by
  unfold visitStart
  repeat' with_reducible first
    | exact h | apply visitBegin_ordered | apply Ordered.ite | apply Ordered.folds
theorem imageRegs_ordered {a0} {a1} {a2} (h : Ordered a0) : Ordered (imageRegs a0 a1 a2) := by
  unfold imageRegs
  repeat' with_reducible first
    | exact h | assumption | apply bindCore_ordered | apply wr_ordered | apply withMate_ordered | apply fdSet_ordered | (intro _) | apply Ordered.ite
    | apply Ordered.folds
theorem reloadCores_ordered {a0 : State} {a1} (h : Ordered a0) : Ordered (reloadCores a0 a1) := by
  unfold reloadCores
  extract_lets cs imgs
  clear_value cs
  refine syncHolds_ordered (Ordered.folds h fun s c hs => ?_)
  refine Ordered.ite hs ?_
  have key : ∀ x : State, Ordered x → Ordered (applyTarget (fdSet x (spadPage c) fSPAD_STATUS_UNTRUSTED 0) c (coreTarget (fdSet x (spadPage c) fSPAD_STATUS_UNTRUSTED 0) c)) := fun x hx => applyTarget_ordered (fdSet_ordered hx)
  refine key _ ?_
  split
  · refine loadLocal_ordered (loadHomes_ordered ?_)
    exact Ordered.ite (imageRegs_ordered hs) hs
  · have hx : Ordered (loadHomes s c) := loadHomes_ordered hs
    exact setCore_ordered hx (SpadOrdered.of (Ordered.core hx c) (by dsimp only))
theorem journalResend_ordered {a0} {a1} (h : Ordered a0) : Ordered (journalResend a0 a1) := by
  unfold journalResend
  repeat' first
    | with_reducible first
        | exact h | assumption | apply sendJ_ordered | apply bump_ordered | (intro _) | apply Ordered.ite | apply Ordered.folds
    | (dsimp only; split)
theorem healQuery_ordered {a0} {a1} (h : Ordered a0) : Ordered (healQuery a0 a1) := by
  unfold healQuery
  repeat' with_reducible first
    | exact h | apply endCmd_ordered | apply send_ordered | apply Ordered.ite
theorem mapRestore_ordered {a0} (h : Ordered a0) : Ordered (mapRestore a0) := by
  unfold mapRestore
  repeat' first
    | with_reducible first
        | apply fdSet_ordered | apply wr_ordered | apply Ordered.upd h
    | split
    | (dsimp only; split)
theorem openAgain_ordered {a0} {a1} {a2} (h : Ordered a0) : Ordered (openAgain a0 a1 a2) := by
  unfold openAgain
  repeat' with_reducible first
    | exact h | apply inject_ordered | apply setChan_ordered | apply Ordered.ite
theorem commandFetch_ordered {a0} {a1} {a2} {a3} {a4} (h : Ordered a0) : Ordered (commandFetch a0 a1 a2 a3 a4) := by
  unfold commandFetch
  repeat' with_reducible first
    | exact h | apply bump_ordered | apply setRing_ordered | apply finish_ordered | apply setHost_ordered | apply Ordered.ite
theorem holdoffEnd_ordered {a0} {a1} {a2} (h : Ordered a0) : Ordered (holdoffEnd a0 a1 a2) := by
  unfold holdoffEnd
  repeat' with_reducible first
    | exact h | apply setHandle_ordered | apply Ordered.ite
theorem pairCompare_ordered {a0} {a1} {a2} (h : Ordered a0) : Ordered (pairCompare a0 a1 a2) := by
  unfold pairCompare
  repeat' first
    | with_reducible first
        | exact h | apply packetLaunch_ordered | apply raiseInt_ordered | apply errAt_ordered | apply bump_ordered | apply report_ordered | apply setQe_ordered
        | apply Ordered.ite
    | split
theorem closeNoticeIn_ordered {a0} {a1} {a2} {a3} {a4} (h : Ordered a0) : Ordered (closeNoticeIn a0 a1 a2 a3 a4) := by
  unfold closeNoticeIn
  repeat' with_reducible first
    | exact h | assumption | apply raiseInt_ordered | apply setChan_ordered | apply closeSettle_ordered | apply endAll_ordered | (intro _) | apply Ordered.ite
    | apply Ordered.folds
theorem pwrEnFall_ordered {a0} (h : Ordered a0) : Ordered (pwrEnFall a0) := by
  unfold pwrEnFall
  repeat' with_reducible first
    | exact h | apply setPins_ordered | apply mainOff_ordered | apply Ordered.ite
theorem flipTake_ordered {a0} {a1} {a2} {a3} (h : Ordered a0) : Ordered (flipTake a0 a1 a2 a3) := by
  unfold flipTake
  repeat' with_reducible first
    | exact h | apply send_ordered | apply flipAt_ordered
theorem depart_ordered {a0} {a1} (h : Ordered a0) : Ordered (depart a0 a1) := by
  unfold depart
  repeat' first
    | with_reducible first
        | exact h | apply sendAgain_ordered | apply msgRange_ordered | apply finalOutcome_ordered | apply digestAdd_ordered | apply banksWait_ordered
        | apply setQe_ordered | apply setChan_ordered | apply bump_ordered | apply sendMsg_ordered | apply Ordered.ite
    | with_reducible refine Ordered.fst (by assumption) ?_
    | split
theorem dieReturned_ordered {a0} {a1} (h : Ordered a0) : Ordered (dieReturned a0 a1) := by
  unfold dieReturned
  repeat' with_reducible first
    | exact h | assumption | apply setHub_ordered | apply raiseInt_ordered | apply bump_ordered | apply fdSet_ordered | apply setStack_ordered
    | apply setBanks_ordered | apply setCstate_ordered | apply journalResend_ordered | apply reloadCores_ordered | apply portEnable_ordered
    | apply gradeEval_ordered | (intro _) | apply Ordered.ite | apply Ordered.folds
theorem walkStep_ordered {a0} {a1} {a2} (h : Ordered a0) : Ordered (walkStep a0 a1 a2) := by
  unfold walkStep
  repeat' first
    | with_reducible first
        | exact h | apply setVisit_ordered | apply walkEnd_ordered | apply Ordered.ite
    | split
theorem trackingPass_ordered {a0} {a1} (h : Ordered a0) : Ordered (trackingPass a0 a1) := by
  unfold trackingPass
  repeat' with_reducible first
    | exact h | apply copyDirty_ordered | apply setMover_ordered | (intro _) | apply Ordered.ite | apply Ordered.folds
theorem deviceRoute_ordered {a0} {a1} {a2} {a3} (h : Ordered a0) : Ordered (deviceRoute a0 a1 a2 a3) := by
  unfold deviceRoute
  repeat' first
    | with_reducible first
        | exact h | apply rxDrop_ordered | apply takeEnd_ordered | apply epEnd_ordered | apply xepDrop_ordered | apply deviceRoute_sendFromPort_ordered
        | apply xAdd_ordered | apply routeControl_ordered | apply noRoute_ordered | apply routeOut_ordered | apply bump_ordered | apply swPush_ordered
        | apply epAdd_ordered | apply Ordered.ite
    | split
theorem routeCmd_ordered {a0} {a1} {a2} {a3} (h : Ordered a0) : Ordered (routeCmd a0 a1 a2 a3) := by
  unfold routeCmd
  repeat' with_reducible first
    | exact h | apply homeData_ordered | apply xAdd_ordered | apply rxDrop_ordered | apply deviceRoute_ordered | apply Ordered.ite
theorem powerSample_ordered {a0} {a1} {a2} {a3} (h : Ordered a0) : Ordered (powerSample a0 a1 a2 a3) := by
  unfold powerSample
  repeat' with_reducible first
    | exact h | apply fdSet_ordered | apply setPower_ordered | apply Ordered.ite
theorem spadRemote_ordered {a0} {a1} {a2} (h : Ordered a0) : Ordered (spadRemote a0 a1 a2) := by
  unfold spadRemote
  repeat' first
    | with_reducible first
        | exact h | apply sendFrom_ordered | apply takePkt_ordered | apply denyFabric_ordered | apply banksWait_ordered | apply askBanks_ordered
        | apply spadReadAll_ordered | apply spadBeats_ordered | apply Ordered.ite
    | with_reducible refine Ordered.fst (by assumption) ?_
    | split
    | (dsimp only; split)
theorem twinCtrl_ordered {a0} {a1} {a2} {a3} (h : Ordered a0) : Ordered (twinCtrl a0 a1 a2 a3) := by
  unfold twinCtrl
  repeat' first
    | with_reducible first
        | exact h | apply sendCtrl_ordered | apply fdSet_ordered | apply freeUsed_ordered | apply setPst_ordered | apply setFlash_ordered
        | apply attaching_ordered | apply setTwin_ordered | apply unbindNow_ordered | apply resync_ordered | apply Ordered.ite
    | split
theorem stepCompletion_ordered {a0} {a1} (h : Ordered a0) : Ordered (stepCompletion a0 a1) := by
  unfold stepCompletion
  repeat' first
    | with_reducible first
        | exact h | apply formDigest_ordered | apply recordStep_ordered | apply Ordered.ite
    | split
    | (dsimp only; split)
theorem positionIn_ordered {a0} {a1} {a2} {a3} {a4} (h : Ordered a0) : Ordered (positionIn a0 a1 a2 a3 a4) := by
  unfold positionIn
  repeat' with_reducible first
    | exact h | assumption | apply memWrite_ordered | apply postNotice_ordered | apply invalAll_ordered | (intro _) | apply Ordered.ite | apply Ordered.folds
theorem hostTrained_ordered {a0} {a1} {a2} {a3} (h : Ordered a0) : Ordered (hostTrained a0 a1 a2 a3) := by
  unfold hostTrained
  repeat' with_reducible first
    | exact h | apply fdSet_ordered | apply gradeEval_ordered | apply Ordered.ite
theorem provenCore_ordered {a0} {a1} (h : Ordered a0) : Ordered (provenCore a0 a1) := by
  unfold provenCore
  repeat' first
    | with_reducible first
        | exact h | apply coreReset_ordered | apply setCore_ordered | apply railDown_ordered | apply setBanks_ordered | apply setCstate_ordered
    | (exact (rfl : twf [] = true))
    | (refine And.intro ?_ ?_ <;> dsimp only)
theorem windowCmd_ordered {a0} {a1} (h : Ordered a0) : Ordered (windowCmd a0 a1) := by
  unfold windowCmd
  repeat' with_reducible first
    | exact h | apply endCmd_ordered | apply setCtx_ordered | apply Ordered.ite
theorem pldmEffecter_ordered {a0} {a1} (h : Ordered a0) : Ordered (pldmEffecter a0 a1) := by
  unfold pldmEffecter
  repeat' with_reducible first
    | exact h | assumption | apply mgmtMsg_ordered | apply mgmtBad_ordered | apply send_ordered | apply registerWrite_ordered | (intro _) | apply Ordered.ite
theorem alwaysOnStart_ordered {a0} (h : Ordered a0) : Ordered (alwaysOnStart a0) := by
  unfold alwaysOnStart
  repeat' first
    | with_reducible first
        | exact h | apply fdSet_ordered | apply loadSetPoints_ordered | apply applyMap_ordered | apply mapRestore_ordered | apply setPst_ordered
        | apply setPins_ordered | apply stepTime_ordered | apply tryBoot_ordered | apply Ordered.ite
    | split
theorem hubLogSaved_ordered {a0} {a1} (h : Ordered a0) : Ordered (hubLogSaved a0 a1) := by
  unfold hubLogSaved
  repeat' with_reducible first
    | exact h | apply hubLog_ordered | apply setFlash_ordered | apply Ordered.ite
theorem tkTested_ordered {a0} {a1} {a2} {a3} (h : Ordered a0) : Ordered (tkTested a0 a1 a2 a3) := by
  unfold tkTested
  repeat' first
    | with_reducible first
        | exact h | apply fdSet_ordered | apply hubLogSaved_ordered | apply closeUnit_ordered | apply setPoint_ordered | apply setHeal_ordered
        | apply provenCore_ordered | apply markOpen_ordered | apply setBanks_ordered | apply setCstate_ordered | (intro _) | apply Ordered.ite
        | apply Ordered.folds
    | split
theorem tkCoreTestRound_ordered {a0} {a1} {a2} (h : Ordered a0) : Ordered (tkCoreTestRound a0 a1 a2) := by
  unfold tkCoreTestRound
  repeat' with_reducible first
    | exact h | apply tkTested_ordered | apply setPins_ordered | apply endStep_ordered | (intro _) | apply Ordered.ite | apply Ordered.folds
theorem dmaShared_ordered {a0} {a1} {a2} {a3} (h : Ordered a0) (h3 : ∀ s x, Ordered s → Ordered (a3 s x)) : Ordered (dmaShared a0 a1 a2 a3) := by
  unfold dmaShared
  repeat' with_reducible first
    | exact h | assumption | apply h3 | apply withMate_ordered | apply Ordered.ite
theorem dmaPieces_ordered {a0 : State} {a1} {a2} {a3} {a4} {a5} (h : Ordered a0) : Ordered (dmaPieces a0 a1 a2 a3 a4 a5).1 := by
  induction a5 generalizing a0 a3 a4 with
  | nil => exact h
  | cons x l ih =>
    obtain ⟨a, m, n⟩ := x
    have hk : Ordered (if a2 = true then dmaReadPiece a0 a1 a m n else dmaWritePiece a0 a1 a m n).1 := by
      split
      · exact dmaReadPiece_ordered h
      · exact dmaWritePiece_ordered h
    unfold dmaPieces
    generalize (if a2 = true then dmaReadPiece a0 a1 a m n else dmaWritePiece a0 a1 a m n) = p at hk ⊢
    dsimp only
    split
    · exact hk
    · exact ih hk
theorem dmaComplete_ordered {a0} {a1} {a2} (h : Ordered a0) : Ordered (dmaComplete a0 a1 a2) := by
  unfold dmaComplete
  repeat' first
    | with_reducible first
        | exact h | apply dmaAskAll_ordered | apply banksWait_ordered | apply dmaPieces_ordered | apply dmaLocal_ordered | apply dmaRelease_ordered
        | apply updDesc_ordered | apply dmaFinish_ordered | apply Ordered.ite
    | split
    | (dsimp only; split)
theorem goIn_ordered {a0} {a1} {a2} {a3} (h : Ordered a0) : Ordered (goIn a0 a1 a2 a3) := by
  unfold goIn
  repeat' with_reducible first
    | exact h | assumption | apply postNotice_ordered | apply forJob_ordered | apply postStep_ordered | apply setCtx_ordered | (intro _) | apply Ordered.ite
theorem drainEnd_ordered {a0} {a1} (h : Ordered a0) : Ordered (drainEnd a0 a1) := by
  unfold drainEnd
  repeat' first
    | with_reducible first
        | exact h | apply setCtx_ordered | apply complete_ordered | apply Ordered.ite
    | split
    | (dsimp only; split)
theorem serdesReturn_ordered {a0} {a1} (h : Ordered a0) : Ordered (serdesReturn a0 a1) := by
  unfold serdesReturn
  repeat' with_reducible first
    | exact h | assumption | apply fdSet_ordered | apply portRetrain_ordered | (intro _) | apply Ordered.ite | apply Ordered.folds
theorem invalTake_ordered {a0} {a1} {a2} {a3} (h : Ordered a0) : Ordered (invalTake a0 a1 a2 a3) := by
  unfold invalTake
  repeat' with_reducible first
    | exact h | apply cacheDrop_ordered | apply send_ordered | apply Ordered.ite
theorem portLost_ordered {a0} {a1} (h : Ordered a0) : Ordered (portLost a0 a1) := by
  unfold portLost
  repeat' with_reducible first
    | exact h | apply portDown_ordered | apply fdSet_ordered | apply Ordered.ite
theorem resendFrom_ordered {a0} {a1} {a2} (h : Ordered a0) : Ordered (resendFrom a0 a1 a2) := by
  unfold resendFrom
  repeat' first
    | with_reducible first
        | exact h | assumption | apply setQe_ordered | apply sendMsg_ordered | (intro _) | apply Ordered.ite | apply Ordered.folds
    | split
theorem backoffEnd_ordered {a0} {a1} {a2} (h : Ordered a0) : Ordered (backoffEnd a0 a1 a2) := by
  unfold backoffEnd
  repeat' first
    | with_reducible first
        | exact h | apply resendFrom_ordered | apply Ordered.ite
    | split
theorem qselTimeout_ordered {a0} {a1} (h : Ordered a0) : Ordered (qselTimeout a0 a1) := by
  unfold qselTimeout
  repeat' first
    | with_reducible first
        | exact h | apply seqFinish_ordered | apply wokeUp_ordered
    | split
theorem twinDetach_ordered {a0} {a1} (h : Ordered a0) : Ordered (twinDetach a0 a1).1 := by
  unfold twinDetach
  repeat' first
    | with_reducible first
        | exact h | apply sendCtrl_ordered | apply setTwin_ordered
    | split
theorem healReport_ordered {a0} (h : Ordered a0) : Ordered (healReport a0) := by
  unfold healReport
  repeat' first
    | with_reducible first
        | exact h | apply backlogClear_ordered | apply bump_ordered | apply ladderStep_ordered | apply exhausted_ordered | apply logAdd_ordered
        | apply Ordered.ite | apply Ordered.upd h
    | split
theorem scrubRow_ordered {a0} {a1} {a2} (h : Ordered a0) : Ordered (scrubRow a0 a1 a2) := by
  unfold scrubRow
  repeat' first
    | with_reducible first
        | exact h | assumption | apply spadCorrected_ordered | apply setCore_ordered | apply spadUncorrectable_ordered | apply noteFlips_ordered
        | apply bumpBy_ordered | apply fdSet_ordered | (intro _) | apply Ordered.ite | apply Ordered.folds
    | split
    | (dsimp only; split)
    | (refine SpadOrdered.of2 (Ordered.core ?_ _) rfl rfl)
theorem moduleResetDue_ordered {a0} (h : Ordered a0) : Ordered (moduleResetDue a0) := by
  unfold moduleResetDue
  repeat' first
    | with_reducible first
        | exact h | apply moduleReset_ordered
    | split
theorem combTimeout_ordered {a0} {a1} {a2} {a3} (h : Ordered a0) : Ordered (combTimeout a0 a1 a2 a3) := by
  unfold combTimeout
  repeat' first
    | with_reducible first
        | exact h | apply bump_ordered | apply setRout_ordered
    | (dsimp only; split)
theorem startStepLimit_ordered {a0} (h : Ordered a0) : Ordered (startStepLimit a0) := by
  unfold startStepLimit
  repeat' with_reducible first
    | exact h | apply raiseInt_ordered | apply errAt_ordered | apply alwaysOnStart_ordered | apply setPins_ordered | apply Ordered.ite
theorem levelSample_ordered {a0} {a1} {a2} (h : Ordered a0) : Ordered (levelSample a0 a1 a2) := by
  unfold levelSample
  repeat' first
    | with_reducible first
        | exact h | apply gaugeApply_ordered | apply Ordered.ite
    | split
theorem firmwareUpdate_ordered {a0} {a1} {a2} {a3} (h : Ordered a0) : Ordered (firmwareUpdate a0 a1 a2 a3) := by
  unfold firmwareUpdate
  repeat' first
    | with_reducible first
        | exact h | assumption | apply setFlash_ordered | apply mgmtMsg_ordered | apply send_ordered | apply fdSet_ordered | apply mgmtBad_ordered | (intro _)
        | apply Ordered.ite
    | split
theorem checkEnd_ordered {a0} {a1} {a2} (h : Ordered a0) : Ordered (checkEnd a0 a1 a2) := by
  unfold checkEnd
  repeat' with_reducible first
    | exact h | apply setPort_ordered | apply raiseInt_ordered | apply setPState_ordered | apply checkAgain_ordered | apply eqAll_ordered | apply Ordered.ite
theorem regulatorFault_ordered {a0} {a1} (h : Ordered a0) : Ordered (regulatorFault a0 a1) := by
  unfold regulatorFault
  repeat' with_reducible first
    | exact h | apply abortCore_ordered | apply clusterReset_ordered | apply setPower_ordered | apply raiseInt_ordered | apply errAt_ordered | apply fdSet_ordered
    | apply closeUnit_ordered | (intro _) | apply Ordered.ite | apply Ordered.folds
theorem cuFire_ordered {a0} {a1} {a2} (h : Ordered a0) : Ordered (cuFire a0 a1 a2) := by
  unfold cuFire
  repeat' with_reducible first
    | exact h | apply cuStall_ordered | apply popTok_ordered | apply takeCredits_ordered | apply setCu_ordered | (intro _) | apply Ordered.ite
    | apply Ordered.folds
theorem heartbeatSend_ordered {a0} {a1} (h : Ordered a0) : Ordered (heartbeatSend a0 a1) := by
  unfold heartbeatSend
  repeat' with_reducible first
    | exact h | assumption | apply twinSend_ordered | apply bump_ordered | (intro _) | apply Ordered.ite | apply Ordered.folds
theorem windowClose_ordered {a0} {a1} (h : Ordered a0) : Ordered (windowClose a0 a1) := by
  unfold windowClose
  repeat' with_reducible first
    | exact h | apply setLadder_ordered | apply Ordered.ite
theorem recordSave_ordered {a0} (h : Ordered a0) : Ordered (recordSave a0) := by
  unfold recordSave
  repeat' with_reducible first
    | exact h | apply setFlash_ordered | apply Ordered.ite
theorem pllLoss_ordered {a0} {a1} {a2} (h : Ordered a0) : Ordered (pllLoss a0 a1 a2) := by
  unfold pllLoss
  repeat' with_reducible first
    | exact h | apply clusPllLoss_ordered | apply diePllLoss_ordered | apply Ordered.ite
theorem patrolScrub_ordered {a0} {a1} {a2} {a3} (h : Ordered a0) : Ordered (patrolScrub a0 a1 a2 a3) := by
  unfold patrolScrub
  repeat' with_reducible first
    | exact h | apply blockRead_ordered | apply noteErr_ordered | apply Ordered.ite
theorem provingBatch_ordered {a0} {a1} (h : Ordered a0) : Ordered (provingBatch a0 a1) := by
  unfold provingBatch
  repeat' with_reducible first
    | exact h | assumption | apply provenCore_ordered | apply endStep_ordered | apply setPins_ordered | apply closeUnit_ordered | (intro _)
    | apply Ordered.ite | apply Ordered.folds
theorem auxApplied_ordered {a0} (h : Ordered a0) : Ordered (auxApplied a0) := by
  unfold auxApplied
  repeat' with_reducible first
    | exact h | apply setCause_ordered | apply beginStep_ordered | apply setPins_ordered | apply Ordered.ite
theorem doorbellCmd_ordered {a0} {a1} {a2} {a3} (h : Ordered a0) : Ordered (doorbellCmd a0 a1 a2 a3) := by
  unfold doorbellCmd
  repeat' with_reducible first
    | exact h | apply regCmd_ordered | apply vfBar0_ordered | apply Ordered.ite
theorem crystalJudged_ordered {a0} {a1} (h : Ordered a0) : Ordered (crystalJudged a0 a1) := by
  unfold crystalJudged
  repeat' with_reducible first
    | exact h | apply fdSet_ordered | apply crystalFail_ordered | apply Ordered.ite
theorem itinLoad_ordered {a0} {a1} {a2} (h : Ordered a0) : Ordered (itinLoad a0 a1 a2) := by
  unfold itinLoad
  repeat' first
    | with_reducible first
        | exact h | apply endCmd_ordered | apply itinPlace_ordered | apply Ordered.ite
    | split
theorem fenced_ordered {a0} (h : Ordered a0) : Ordered (fenced a0) := by
  unfold fenced
  repeat' with_reducible first
    | exact h | apply raiseInt_ordered | apply setPst_ordered | apply setTwin_ordered
theorem contextArmed_ordered {a0} {a1} (h : Ordered a0) : Ordered (contextArmed a0 a1) := by
  unfold contextArmed
  repeat' first
    | with_reducible first
        | exact h | apply postNotice_ordered | apply setCtx_ordered | apply Ordered.ite
    | (dsimp only; split)
theorem winRead_ordered {a0} {a1} (h : Ordered a0) : Ordered (winRead a0 a1).1 := by
  unfold winRead
  repeat' with_reducible first
    | exact h | apply winStep_ordered
theorem crossbar_ordered {a0 : State} {a1 a2} (h : Ordered a0) : Ordered (crossbar a0 a1 a2) := by
  unfold crossbar
  generalize List.range 64 = l
  have hd := Ordered.folds (f := fun s b => bankDrain s a1 b) (l := l) h fun s b hs => bankDrain_ordered hs
  generalize l.foldl (fun s b => bankDrain s a1 b) a0 = s at hd ⊢
  extract_lets
  refine Ordered.folds (Ordered.folds ?_ fun s r hs => xRead_ordered hs) fun s r hs => xWrite_ordered hs
  exact setCore_ordered hd (SpadOrdered.of2 (Ordered.core hd _) rfl rfl)

theorem Ordered.iff {s : State} : Ordered s ↔ CapInv s ∧ SpadInv s := ⟨fun h => ⟨h.caps, h.sp⟩, fun h => ⟨h.1, h.2⟩⟩

end Sys2Proof.Machine
end

