-- ==== Sys2Proof/Laws/Pages.lean ====
section
/-! SUPPORT. Page numbers name their pages; what a register write comes to where every check lets it through. -/
namespace Sys2Proof.Machine

theorem pageOf_core {c : Nat} (h : c < 1152) (b : Blk) (hb : b = .core ∨ b = .flow ∨ b = .spad ∨ b = .qeng ∨ b = .rout) :
    pageOf (corePage b c).no = some (corePage b c) := by
  have hd : c / 144 < 8 := by omega
  have hi : c % 144 < 144 := Nat.mod_lt _ (by omega)
  simp only [corePage]
  generalize c / 144 = d at hd ⊢
  generalize c % 144 = i at hi ⊢
  rcases hb with rfl | rfl | rfl | rfl | rfl <;> simp only [PageId.no, PageId.num, pageOf]
  · simp [show (d * 2048 + i * 8) / 2048 = d by omega, show (d * 2048 + i * 8) % 2048 = i * 8 by omega, hd, show i * 8 < 1152 by omega]
  · simp [show (d * 2048 + (i * 8 + 1)) / 2048 = d by omega, show (d * 2048 + (i * 8 + 1)) % 2048 = i * 8 + 1 by omega, hd, show i * 8 + 1 < 1152 by omega, show (i * 8 + 1) % 8 = 1 by omega, show (i * 8 + 1) / 8 = i by omega]
  · simp [show (d * 2048 + (i * 8 + 2)) / 2048 = d by omega, show (d * 2048 + (i * 8 + 2)) % 2048 = i * 8 + 2 by omega, hd, show i * 8 + 2 < 1152 by omega, show (i * 8 + 2) % 8 = 2 by omega, show (i * 8 + 2) / 8 = i by omega]
  · simp [show (d * 2048 + (i * 8 + 3)) / 2048 = d by omega, show (d * 2048 + (i * 8 + 3)) % 2048 = i * 8 + 3 by omega, hd, show i * 8 + 3 < 1152 by omega, show (i * 8 + 3) % 8 = 3 by omega, show (i * 8 + 3) / 8 = i by omega]
  · simp [show (d * 2048 + (i * 8 + 4)) / 2048 = d by omega, show (d * 2048 + (i * 8 + 4)) % 2048 = i * 8 + 4 by omega, hd, show i * 8 + 4 < 1152 by omega, show (i * 8 + 4) % 8 = 4 by omega, show (i * 8 + 4) / 8 = i by omega]

theorem pageOf_clus {k : Nat} (h : k < 288) : pageOf (clusPage k).no = some (clusPage k) := by
  have hd : k / 36 < 8 := by omega
  have hi : k % 36 < 36 := Nat.mod_lt _ (by omega)
  simp only [clusPage]
  generalize k / 36 = d at hd ⊢
  generalize k % 36 = i at hi ⊢
  obtain ⟨n, hn⟩ : ∃ n, n = PageId.no ⟨.clus, d, i⟩ := ⟨_, rfl⟩
  rw [← hn]
  simp only [PageId.no, PageId.num] at hn
  unfold pageOf
  dsimp only
  rw [if_pos (by omega), if_neg (by omega), if_neg (by omega), if_pos (by omega)]
  rw [show n / 2048 = d by omega, show n % 2048 - 1280 = i by omega]

theorem pageOf_memc {m : Nat} (h : m < 16) : pageOf (memcPage m).no = some (memcPage m) := by
  revert m; decide
theorem pageOf_port {p : Nat} (h : p < 40) : pageOf (portPage p).no = some (portPage p) := by
  revert p; decide
theorem pageOf_die {d : Nat} (h : d < 11) : pageOf (diePage .die d).no = some (diePage .die d) := by
  revert d; decide
theorem pageOf_clk {d : Nat} (h : d < 11) : pageOf (diePage .clk d).no = some (diePage .clk d) := by
  revert d; decide
theorem pageOf_pwr {d : Nat} (h : d < 11) : pageOf (diePage .pwr d).no = some (diePage .pwr d) := by
  revert d; decide
theorem pageOf_sign {d : Nat} (h : d < 9) : pageOf (diePage .sign d).no = some (diePage .sign d) := by
  revert d; decide
theorem pageOf_heal {d : Nat} (h : d < 8) : pageOf (diePage .heal d).no = some (diePage .heal d) := by
  revert d; decide
theorem pageOf_xtab {d : Nat} (h : d = 9 ∨ d = 10) : pageOf (diePage .xtab d).no = some (diePage .xtab d) := by
  rcases h with rfl | rfl <;> decide
theorem pageOf_hub (b : Blk) (h : b = .host ∨ b = .mgmt ∨ b = .auth ∨ b = .fuse ∨ b = .aon ∨ b = .healHub) :
    pageOf (hubPage b).no = some (hubPage b) := by
  rcases h with rfl | rfl | rfl | rfl | rfl | rfl <;> decide

theorem pageOf_lt {n : Nat} {p : PageId} (h : pageOf n = some p) : n / 2048 < 11 := by
  refine Classical.byContradiction fun k => ?_
  unfold pageOf at h
  dsimp only at h
  rw [if_neg (by omega), if_neg (by omega), if_neg (by omega)] at h
  cases h

/-- A write that every check of the access lets through comes to the fields of the register. -/
theorem registerWrite_fields {s : State} {req : Req} {p : PageId} {off v : Nat} {r : RegSpec} (hp : pageOf p.no = some p)
    (hr : specOf p off = some r) (ho : off % 4 = 0) (hx : Reached s req p off) (hm : mayWrite s req p off = true) :
    registerWrite s req p.no off v 15 = (fieldsWrite s req p r off (v % 2 ^ 32)).1 := by
  obtain ⟨hd, hu⟩ := hx
  have hlt := pageOf_lt hp
  have h1 : ¬ (req == Req.debug && debugShut s) = true := by
    by_cases h : req = .debug
    · simp [hd h]
    · simp [h]
  have h2 : ¬ (req == Req.host && (msixPage p.no off).isSome) = true := by
    rw [show msixPage p.no off = none by unfold msixPage; rw [if_neg]; omega]; simp
  have h3 : ¬ (req == Req.host && pbaPage p.no off) = true := by
    rw [show pbaPage p.no off = false by simp only [pbaPage, Bool.and_eq_false_imp, beq_iff_eq]; intro h; omega]; simp
  have h4 : ¬ (64 ≤ off ∧ (unitClosed s p = true ∨ unitOff s p = true)) := fun h => by simp [hu h.1] at h
  unfold registerWrite writeCode
  rw [if_neg h1, if_neg h2, if_neg h3, if_pos ho]
  dsimp only
  rw [show off / 4 * 4 = off by omega, if_neg (by omega), hp]
  dsimp only
  unfold pageWrite
  rw [hm, hr]
  dsimp only
  rw [if_neg (by decide), if_neg (by decide), if_neg h4]

/-- A write of a register that is not half of a pair, all of it let through. -/
theorem registerWrite_one {s : State} {req : Req} {p : PageId} {off v : Nat} {r : RegSpec} (hp : pageOf p.no = some p)
    (hr : specOf p off = some r) (h1 : r.half = .one) (hw : r.writable = true) (ho : off % 4 = 0) (g : Granted s req p off v) :
    registerWrite s req p.no off v 15 = regReg s req.cls p off (plan s req p off v).new (plan s req p off v).eff := by
  obtain ⟨hx, hm, hb, hn, hf⟩ := g
  rw [registerWrite_fields hp hr ho hx hm]
  simp only [plan, hr] at hb hn ⊢
  unfold fieldsWrite
  rw [h1]
  dsimp only
  rw [hw, hb, hn]
  simp only [writeOutcome, withMirror, hf, if_true, Bool.not_true, Bool.false_eq_true, if_false]

end Sys2Proof.Machine
end

