-- ==== Sys2Proof/Laws/Plan.lean ====
section
/-! SUPPORT. What the fields of a register make of a written word, field by field. -/
namespace Sys2Proof.Machine

/-- Two fields share no bit. -/
def apart (f g : FieldSpec) : Bool := decide (f.lo + f.w ≤ g.lo) || decide (g.lo + g.w ≤ f.lo)
/-- No two fields of a register share a bit. -/
def apartAll : List FieldSpec → Bool
  | [] => true
  | f :: fs => fs.all (apart f) && apartAll fs

theorem apart_iff {f g : FieldSpec} (h : apart f g = true) : f.lo + f.w ≤ g.lo ∨ g.lo + g.w ≤ f.lo := by
  simpa [apart] using h

/-- A field's turn leaves the bits of the fields apart from it. -/
theorem fieldPlan_other {cls old v : Nat} {f g : FieldSpec} (h : apart f g = true) (p : Plan) :
    bits (fieldPlan cls old v g p).new f.lo f.w = bits p.new f.lo f.w ∧
      bits (fieldPlan cls old v g p).eff f.lo f.w = bits p.eff f.lo f.w := by
  have h' : g.lo + g.w ≤ f.lo ∨ f.lo + f.w ≤ g.lo := (apart_iff h).symm
  unfold fieldPlan
  dsimp only
  split
  · exact ⟨bits_setBits_ne _ _ h', rfl⟩
  · exact ⟨bits_setBits_ne _ _ h', rfl⟩
  · split
    · exact ⟨bits_setBits_ne _ _ h', bits_setBits_ne _ _ h'⟩
    · exact ⟨bits_setBits_ne _ _ h', bits_setBits_ne _ _ h'⟩

theorem fieldPlan_denied {cls old v : Nat} {g : FieldSpec} {p : Plan} (h : (fieldPlan cls old v g p).denied = false) : p.denied = false := by
  unfold fieldPlan at h
  dsimp only at h
  split at h
  · exact h
  · exact h
  · split at h
    · simp only [Bool.or_eq_false_iff] at h; exact h.1
    · exact h

theorem foldl_denied {cls old v : Nat} {fs : List FieldSpec} {p : Plan} (h : (fs.foldl (fun p f => fieldPlan cls old v f p) p).denied = false) :
    p.denied = false := by
  induction fs generalizing p with
  | nil => exact h
  | cons g fs ih => exact fieldPlan_denied (ih h)

theorem foldl_other {cls old v : Nat} {fs : List FieldSpec} {f : FieldSpec} (h : fs.all (apart f) = true) (p : Plan) :
    bits (fs.foldl (fun p f => fieldPlan cls old v f p) p).new f.lo f.w = bits p.new f.lo f.w ∧
      bits (fs.foldl (fun p f => fieldPlan cls old v f p) p).eff f.lo f.w = bits p.eff f.lo f.w := by
  induction fs generalizing p with
  | nil => exact ⟨rfl, rfl⟩
  | cons g fs ih =>
    simp only [List.all_cons, Bool.and_eq_true] at h
    have a := ih h.2 (fieldPlan cls old v g p)
    have b := fieldPlan_other h.1 (cls := cls) (old := old) (v := v) p
    exact ⟨a.1.trans b.1, a.2.trans b.2⟩

/-- The field's own turn. -/
theorem fieldPlan_same {cls old v : Nat} {f : FieldSpec} {p : Plan} (h : (fieldPlan cls old v f p).denied = false) :
    (f.acc = .rw → bits (fieldPlan cls old v f p).new f.lo f.w = f.of v) ∧
    (f.acc = .ro ∨ f.acc = .rc → bits (fieldPlan cls old v f p).new f.lo f.w = f.of old) ∧
    (f.acc ≠ .ro → f.acc ≠ .rc → bits (fieldPlan cls old v f p).eff f.lo f.w = f.of v) := by
  have hof : ∀ w, f.of w % 2 ^ f.w = f.of w := fun w => Nat.mod_eq_of_lt (bits_lt _ _ _)
  unfold fieldPlan at h ⊢
  cases ha : f.acc <;> simp only [ha] at h ⊢ <;> simp only [reduceCtorEq, false_or, or_false, or_self, false_implies, true_implies, ne_eq, not_false_eq_true, not_true_eq_false, and_true, true_and, bits_setBits_same, hof, implies_true] <;>
    (split at h <;> simp_all [bits_setBits_same])

/-- What a write of a word lets through puts into each field of a register whose fields share no bit. -/
theorem planOf_field {cls old v : Nat} {fs : List FieldSpec} (hd : (planOf cls old v fs).denied = false) (ha : apartAll fs = true) {f : FieldSpec}
    (hf : f ∈ fs) :
    (f.acc = .rw → bits (planOf cls old v fs).new f.lo f.w = f.of v) ∧
    (f.acc = .ro ∨ f.acc = .rc → bits (planOf cls old v fs).new f.lo f.w = f.of old) ∧
    (f.acc ≠ .ro → f.acc ≠ .rc → bits (planOf cls old v fs).eff f.lo f.w = f.of v) := by
  unfold planOf at hd ⊢
  revert hd
  generalize ({} : Plan) = p
  induction fs generalizing p with
  | nil => cases hf
  | cons g fs ih =>
    intro hd
    simp only [apartAll, Bool.and_eq_true] at ha
    rcases List.mem_cons.1 hf with rfl | hm
    · simp only [List.foldl_cons] at hd ⊢
      rw [(foldl_other ha.1 _).1, (foldl_other ha.1 _).2]
      exact fieldPlan_same (foldl_denied hd)
    · exact ih ha.2 hm _ hd

/-! ### Commands that write one register -/

theorem completes_onUnit {i : Instr} {s t : State} {P : State → Prop} {n k : Nat} (h : exec i s = onUnit n k t) (hn : n < k) (hp : P t) :
    Completes i s P := ⟨t, by rw [h]; exact if_pos hn, hp⟩
theorem completes_onCore {i : Instr} {s t : State} {P : State → Prop} {c : Nat} (h : exec i s = onCore c t) (hc : c < 1152) (hp : P t) :
    Completes i s P := completes_onUnit h hc hp
theorem completes_onFabric {i : Instr} {s t : State} {P : State → Prop} {c : Nat} (h : exec i s = onFabric s c t) (hc : c < 1152)
    (hf : fabricRuns s c = true) (hp : P t) : Completes i s P :=
  completes_onCore h hc (by rw [if_pos hf]; exact hp)

/-- The fields a granted write gives a register. -/
theorem plan_field {s : State} {req : Req} {p : PageId} {off v : Nat} {r : RegSpec} (hr : specOf p off = some r) (g : Granted s req p off v)
    (ha : apartAll r.fields = true) {f : FieldSpec} (hf : f ∈ r.fields) :
    (f.acc = .rw → bits (plan s req p off v).new f.lo f.w = f.of (v % 2 ^ 32)) ∧
    (f.acc = .ro ∨ f.acc = .rc → bits (plan s req p off v).new f.lo f.w = f.of (rd s p off)) ∧
    (f.acc ≠ .ro → f.acc ≠ .rc → bits (plan s req p off v).eff f.lo f.w = f.of (v % 2 ^ 32)) := by
  have h := g.2.2.2.1
  simp only [plan, hr] at h ⊢
  exact planOf_field h ha hf

/-- A word of 32 bits seen as its one field. -/
theorem bits_all (v : Nat) : bits v 0 32 = v % 2 ^ 32 := by simp [bits]
theorem wr_congr (s : State) (p : PageId) (off : Nat) {a b : Nat} (h : a % 2 ^ 32 = b % 2 ^ 32) : wr s p off a = wr s p off b := by
  have : BitVec.ofNat 32 a = BitVec.ofNat 32 b := by apply BitVec.eq_of_toNat_eq; simpa using h
  simp only [wr, this]

theorem specOf_hdr {p : PageId} {off : Nat} (h : off < 64) : specOf p off = regs_hdr.find? (fun r => r.holds off) := by
  unfold specOf; rw [if_pos h]

end Sys2Proof.Machine
end

