-- ==== Sys2Proof/Tests/Slice0.lean ====
section
/-! SUPPORT. The model's own tests: ill-formed commands refused by WellFormed, single steps, and a witness for every statement that has
hypotheses. -/
namespace Sys2Proof.Machine.Tests
set_option Elab.async false
open Sys2Proof

/-! ### States for the witnesses -/

/-- Every die runs, with AUX_3V3 present; so do the cores of the first three clusters of C0. -/
def wUp : State :=
  let s := (List.range 11).foldl (fun s d => fdSet s (diePage .die d) fDIE_STATUS_STATE 2) { State.reset with pins := { aux := true } }
  (List.range 3).foldl (fun s k => wr s (clusPage k) 0x40 0) s
/-- Every bank of core 0's scratchpad is ON. -/
def wBanks (s : State) : State := (List.range 8).foldl (fun s i => wr s (spadPage 0) (fSPAD_BANK_STATE_S.at i).off 0) s
/-- Word 0 of a link entry that is enabled, of depth 2. -/
def wEntry (src dst : Nat) : Word := BitVec.ofNat 32 (src + 2 ^ 8 * dst + 2 ^ 18 + 2 ^ 20)
/-- Core 0 with one link, to a port, that holds a token. -/
def wLink (dst : Nat) (k : Tok) : State :=
  setCore wUp 0 { fab := { buf0 := [(16, wEntry 0x70 dst)], links := [(0, { q := [k] })] } }
/-- Core 0 with MU0 a spill queue: a token waits at its input, its output has no credit. -/
def wSpill : State :=
  setCore wUp 0 { fab := { buf0 := [(16, wEntry 0x70 64), (18, wEntry 64 0x71), (656, 5)], links := [(0, { q := [{ val := 9 }] })] } }
/-- Core 0 with MU0 in a mode: one access to a level, a token at its index port and one at its data port. -/
def wMu (w0 : Nat) : State :=
  setCore (wBanks wUp) 0 { fab := { buf0 := [(16, wEntry 0x70 65), (18, wEntry 0x71 64), (656, BitVec.ofNat 32 w0), (657, 8), (658, 2), (659, 1), (660, 1), (661, 1), (662, 1), (663, 32)], links := [(0, { q := [{ val := 6 }] }), (1, { q := [{ val := 6 }] })] } }
/-- Core 0 with CU0 enabled: it consumes VA and produces VY0, unlinked. -/
def wCu : State :=
  setCore wUp 0 { fab := { buf0 := [(16, wEntry 0x70 8), (272, 0x105)], links := [(0, { q := [{ val := 1 }] })] } }
/-- Core 0 with CU0's update engine enabled and its tokens present. -/
def wUpd : State :=
  setCore wUp 0 { fab := { buf0 := [(16, wEntry 0x70 8), (18, wEntry 0x71 9), (20, wEntry 0x72 10), (272, 3)], links := [(0, { q := [{}] }), (1, { q := [{}, {}] }), (2, { q := [{}] })] }, cus := [(0, { consts := some ([], false, 0) })] }
/-- Core 0 running with one instruction at address 0, some registers, and, where asked, one word in a register queue. -/
def wSeq (w : Nat) (x : Tbl Word) (q : Option Nat := none) : State :=
  let s := setSeqSt (setSeq wUp 0 { lm := memPutAll [] 0 (natLe 4 w), x := x, fresh := false }) 0 1 0
  match q with
  | none => s
  | some n => setSlot (fdSet s (qPage 0) (fQENG_Q_CFG_KIND.at n) 1) 0 n { regq := [⟨9, false, true, 8⟩] }
/-- Core 0 running QPOP of register queue 1, which holds 9. -/
def wQ (op : Nat) : State := wSeq (encR 0 2 1 0 3 op) [(1, 1)] (some 1)
/-- Core 0 running DMAGO of a descriptor of zeros at address 0, in a region that is UNORDERED. -/
def wDma : State := fdSet (wBanks (wSeq (encR 0 2 1 5 3 0x0B) [])) (spadPage 0) (fSPAD_REGION_UNORD.at 0) 1
/-- Core 0 running a store to the window, with a link from a port of its own. -/
def wSqo (off port : Nat) : State :=
  let s := wSeq (encS off 2 1 2 0x23) [(1, 0xF0000000), (2, 7)]
  setCore s 0 { core s 0 with fab := { buf0 := [(16, wEntry (portId uSEQ port) 8)], links := [(0, { credits := 2 })] } }
/-- Core 0 running a load of the window, with a token at a port of its own. -/
def wSqi (off port : Nat) : State :=
  let s := wSeq (encI off 1 2 3 0x03) [(1, 0xF0000000)]
  setCore s 0 { core s 0 with fab := { buf0 := [(16, wEntry 8 (portId uSEQ port))], links := [(0, { q := [{ val := 5 }] })] } }
/-- Core 0 with a QUIESCE that waits for rest, buffer 1 valid. -/
def wQuiet : State :=
  fdSet (fdSet (setFab wUp 0 { sw := some { purge := false, issued := 0 } }) (flowPage 0) fFLOW_STATUS_SWITCH 2) (flowPage 0) fFLOW_CFG_STATUS_VALID1 1
/-- Core 0 with a load of buffer 1 under way. -/
def wLoad : State := setFab (wBanks wUp) 0 { load := some 1 }
/-- Core 0 with slot 3 an open junction of two FP32 elements and one contributor, bound to a context, its banks ON. -/
def wJun (s : State) : State :=
  let s := wr (wr (wBanks s) (qPage 0) 0xC 0x10000) (qPage 0) (0x400 + 16 * 3) (3 + 4 + 16 * 14)
  wr s (qPage 0) (0x100 + 8 * 3) (2 ^ 4 * 2 + 2 ^ 16)
/-- Stack 0 is trained; bank 1 of the routing tables is retired. -/
def wMem : State := fdSet (fdSet wUp (memcPage 0) fMEMC_STATUS_STATE 2) (diePage .sign 0) fSIGN_EPCTL_RETIRE1 1
/-- Every stack is trained. -/
def wHash : State := (List.range 16).foldl (fun s m => fdSet s (memcPage m) fMEMC_STATUS_STATE 2) wUp
/-- Port 3 in a STATE at half width, whose lane 0 descrambles a line of zeros to a message with a right CRC, and frames that come in. -/
def wCode (st : Nat) (asm : Tbl (Tbl (List LineBlk))) : State :=
  let s := setPState wUp 3 st
  let s := wr (wr s (portPage 3) 0x50 0xFFFF3210) (portPage 3) 0x54 0xFFFF3210
  setPort s 3 { port s 3 with rxCode := [(0, { scr := 0x78287 })], asm := asm }
/-- The message a line of zeros gives there (the scrambler's own bits). -/
def wMessage : Message :=
  { first := 0, data :=
    [0x38507b8507f0a0f, 0xe11e141f23c22000, 0x8507f0a0f3850711, 0x8d362d0000364465, 0xcd1850729b165911, 0x850475a746446029, 0x1ff500141f23c223, 0x623d578faafc8507,
     0x59215ef200035c1, 0xd96debd5758af747, 0xe850443e323c167, 0x576d6e164d0eaef4, 0xb4c57b13ef83319d, 0x47118d362d038531, 0x3056c71750729502, 0xe1e1a504762241fc,
     0x768218e4e10a0b3c, 0x35f72658d2885a5c, 0x6c515c8398d90d00, 0x8723b94426cd25f8, 0xb1d7cca681479684, 0x9b61d26a71e34d1a, 0xa5318104192eb80c, 0xe088b05688a438ec,
     0xa2dff1311e7abba7, 0x46324f15ab817261, 0xb5df471f4f898f1c, 0x2003b0c6929da99b, 0x758af9531b9215ef, 0xe0a6c6df8912e1da, 0xac10baeb2d472443, 0x6a84c13da4e86907,
     0xa035a831b4f33f76, 0x9d6ac570dc07d427, 0xf326345b7612a73e, 0xfeff0b28fec26727, 0xb0b50dd3dc7e9de3, 0x9d4b18ef15f71399, 0xffa0ce2d19dbabc4, 0x8fc292c764007823] ++
    [0x268e230cfcd96252, 0xadebc31f74e2e3f7, 0xcfb5b5da88320435, 0x2e2c7cb0b0fa2554, 0x4a60d765d4fdb0cd, 0x390b97f8a7384429, 0xa76a8fc367571d43, 0x77c3496cb8dabdc6,
     0xe31589e5347dcab, 0x9c90e8e561e1505b, 0x3f89bb6dddf3f7f1, 0x11c2be7273aa7931, 0x3c8f6471289190dd, 0xd4cd560f83107ed7, 0xb8f0283258a7463a, 0x69a1dafcb1768434,
     0x35f4a35f2228a448, 0x6c51529786d90d00, 0x84a6befc76b22ff7, 0x50c9d8b9a285b684, 0x1e6622ca82664a0b, 0x2807ac041918fc69, 0x2d90e02413b261fd, 0x27db8496583edb8e,
     0x59c74f01b4a2b042, 0xd7e21090e5750a1b, 0x2591a529b29d9c5a, 0xace712866e18e2a8, 0xee23c29c6a3120bd, 0xfb7dd4fd60498ab7, 0xde41ba2e4b6b589a, 0xe724250799f0ba47,
     0xad3c02678c754125, 0x12c7915f0030e6c2, 0x887d13cc1fc86c1b, 0x85422b8b0ef6c7bf, 0xf11a446c8d2e1e99, 0x788377693f168e3c, 0x3e155e61e547eea7, 0xbdeff1668d3a2f48] }
/-- Every causeway port UP and enabled; PSTATE as given. -/
def wTwin (p : Nat) : State :=
  setPst ([36, 37, 38, 39].foldl (fun s k => fdSet (setPState s k 4) (portPage k) fPORT_CTL_ENABLE 1) wUp) p
/-- A table that lists `v` at every key of a range holds it there. -/
theorem tget_range {α : Type} (d v : α) (n a h : Nat) (lo : a ≤ h) (hi : h < a + n) :
    tget d ((List.range' a n).map (fun g => (g, v))) h = v := by
  induction n generalizing a with
  | zero => omega
  | succ n ih =>
    simp only [List.range'_succ, List.map_cons, tget]
    split
    · rfl
    · rw [if_neg (by omega)]
      exact ih (a + 1) (by omega) (by omega)
/-- Milestone 7 is marked on all 512 streams. -/
def wMarked : State := setTwin (wTwin 3) { streams := (List.range' 0 512).map (fun g => (g, { marks := [7] })) }
theorem wMarked_marks (h : Nat) (hh : h < 512) : 7 ∈ (stream wMarked h).marks := by
  have hs (s : State) (x : Twin) : stream (setTwin s x) h = tget {} x.streams h := rfl
  rw [wMarked, hs, tget_range _ _ _ _ _ (Nat.zero_le h) (by omega)]
  simp

/-- The start done at FULL grade, ring 0 in use, one command fetched from it. -/
def wCmd (s : State) (e : Nat) : State :=
  let s := fdSet (fdSet s aon fAON_READY_DONE 1) aon fAON_READY_GRADE 3
  setHost s { s.host with rings := [(0, { en := true, state := 1, pend := 1 })], cmds := [{ ring := 0, entry := e }] }
/-- Mover 0 moves core 0 to core 4, in a phase. -/
def wMove (ph : Nat) : State :=
  let s := bindCore wUp 0 64 true
  setHeal s { s.heal with movers := [(0, { phase := ph, src := 0, dst := 4, srcW := 0, dstW := 64 })] }
/-- Core 0 visited by roadworks, at a test. -/
def wVisit (v : Visit) : State := setHeal wUp { visits := [(0, v)] }
/-- Context 1 active with a job of this module alone, and core 0 bound to it. -/
def wCtx (b : Barrier) : State :=
  let s := setCtx (bindCore wUp 0 64 true) 1 { st := 1, itin := some { job := 6, mods := [0] }, posted := some 3, bar := b }
  fdSet s aon fAON_RECOVERY_REPLAYS 1
/-- In step `n` of a start. -/
def wStep (n : Nat) : State := setPins (fdSet wUp aon fAON_READY_STEP n) { aux := true, step1 := true, pwrEn := true, v12 := true }
/-- Cluster 2 in service, the crystal good. -/
def wPll (v : Nat) : State := fdSet (fdSet (fdSet wUp (clusPage 2) fCLUS_STATUS_PLL v) (clusPage 2) fCLUS_STATUS_RAIL 2) (hubPage .clk) fCLK_STATUS_XTAL_OK 1
/-- Core power good: the management port is there. -/
def wMgmt : State := setPins wUp { aux := true, pwrGood := true, v12 := true }
/-- Gauge 0 of die 0 with a source. -/
def wGauge (src : Nat) (run : Nat) : State :=
  fdSet (fdSet wUp (gPage 0 0) fGAUGE_SRC_SRC src) (gPage 0 0) fGAUGE_CTL_RUN run

/-! ### Commands that do not exist on the module (R7, R8, R32, R33, R127): each check of WellFormed at the first value it refuses and
at the last it takes. -/
theorem test_wellFormed_refuses :
  (([.registerWrite .hub 32768 0 [] 0, .registerWrite .hub 0 4096 [] 0, .pairLowRead .hub 0 ⟨4096, 0⟩, .arrayPassStart 1152,
   .arrCfgWrite 0 .hub 2 0, .tokenLanding 0 128, .spillQueueFiring 0 4 .clean, .cuFiring 0 6, .cuEmission 0 0 8 .ok,
   .dmago ⟨1152, .clean⟩, .regionWrite 0 .hub 128 0, .bankTargetWrite 0 .hub 4 0, .bankOffReached 0 64,
   .slotConfigWrite 0 .hub 64 0 0, .slotConfigWrite 0 .hub 0 4 0, .chopenTimeout 0 1024, .handleHoldoffExpiry 0 1024,
   .closeNotice 0 4194304 0 none, .qxPortEmit 0 6, .junctionAdd 0 0 0 8, .routerMerge 0 6,
   .routerForward 0 7 ⟨0, []⟩ .clean .clean, .routerForward 0 0 ⟨4, []⟩ .clean .clean,
   .dieSwitchRoute 11 ⟨0, []⟩ .clean .clean .clean, .signpostWalkReply 9 0 .clean, .epsumRead 0 .hub 2,
   .stepMessage 0 1024 0, .footpathLinkFailover 0 11, .sliceRequest 512 {}, .patrolScrub 0 33554432 .clean,
   .stackTempRead 16 0, .stackTempRead 0 256, .recentringWindow 0 32, .placementWrite 0 .hub 34 0 0,
   .codewordReceive 40 0 {}, .codewordReceive 0 9 {}, .identBlock 0 1024 0 0, .identBlock 0 0 64 0, .identBlock 0 0 0 2,
   .spareReady 0 9] : List Instr).all fun i => !i.wellFormed) = true := by decide +kernel
theorem test_wellFormed_refuses_more :
  (([.swapReq 0 8 0 0, .portSignalDetect 0 10, .portTrainingDone 0 512 0, .portTrainingDone 0 0 512, .deviceRoute 2 0 {},
   .deviceRoute 0 64 {}, .causewayMemoryRequest 4 {}, .heartbeatReceive 0 16 false 0, .heartbeatPeriodMissed 16,
   .twinBindBind 128 0 0 .refuses, .twinBindBind 0 2 0 .refuses, .twinBindBind 0 0 1024 .refuses, .twinCtrl 0 256 0 0,
   .jrecReceive 0 0 0 false false 1099511627776 [], .pcdigReceive 0 8 0 0 [], .pcdigReceive 0 0 2 0 [], .healClear 8 .hub 0,
   .healLogDrain 9, .movePrepared 16, .calibrationGrant 4 0, .computeDieReset 0 6, .dieWatchdogExpiry 0 2, .hostLinkReset 3,
   .functionLevelReset 65, .drainExpiry 1024, .incidentLost 0 1024 0, .incidentAbort 0 0 256, .regulatorFault 288,
   .fastThrottle 12, .pllLoss 299 false, .itinLoad 0 256, .milestoneWaitTimeout 0 0 65536, .vfWindowAccess 64 0 0 0 false [],
   .vfWindowAccess 0 6 0 0 false [], .entdaa 128, .mctpControl 256 0 false, .mctpControl 0 256 false, .casevoFuse 0 256,
   .firmwareUpdate 3 {} {}, .gaugeRun 11 0 .hub 0] : List Instr).all fun i => !i.wellFormed) = true := by decide +kernel
theorem test_wellFormed_refuses_last :
  (([.halfReq ⟨40, 0⟩, .halfReq ⟨0, 9⟩, .gaugeRun 0 16 .hub 0, .codewordTransmit ⟨40, []⟩, .hostLinkTrained 6 0 false, .hostLinkTrained 0 8 false] : List Instr).all fun i => !i.wellFormed) = true := by decide +kernel
theorem test_wellFormed_takes :
  (([.registerWrite .hub 32767 0 [] 0, .registerWrite .hub 0 4095 [] 0, .pairLowRead .hub 0 ⟨4095, 0⟩, .arrayPassStart 1151,
   .arrCfgWrite 0 .hub 1 0, .tokenLanding 0 127, .spillQueueFiring 0 3 .clean, .cuFiring 0 5, .cuEmission 0 0 7 .ok,
   .dmago ⟨1151, .clean⟩, .regionWrite 0 .hub 127 0, .bankTargetWrite 0 .hub 3 0, .bankOffReached 0 63,
   .slotConfigWrite 0 .hub 63 0 0, .slotConfigWrite 0 .hub 0 3 0, .chopenTimeout 0 1023, .handleHoldoffExpiry 0 1023,
   .closeNotice 0 4194303 0 none, .qxPortEmit 0 5, .junctionAdd 0 0 0 7, .routerMerge 0 5,
   .routerForward 0 6 ⟨0, []⟩ .clean .clean, .routerForward 0 0 ⟨3, []⟩ .clean .clean,
   .dieSwitchRoute 10 ⟨0, []⟩ .clean .clean .clean, .signpostWalkReply 8 0 .clean, .epsumRead 0 .hub 1,
   .stepMessage 0 1023 0, .footpathLinkFailover 0 10, .sliceRequest 511 {}, .patrolScrub 0 33554431 .clean,
   .stackTempRead 15 0, .stackTempRead 0 255, .recentringWindow 0 31, .placementWrite 0 .hub 33 0 0,
   .codewordReceive 39 0 {}, .codewordReceive 0 8 {}, .identBlock 0 1023 0 0, .identBlock 0 0 63 0, .identBlock 0 0 0 1,
   .spareReady 0 8] : List Instr).all fun i => i.wellFormed) = true := by decide +kernel
theorem test_wellFormed_takes_more :
  (([.swapReq 0 7 0 0, .portSignalDetect 0 9, .portTrainingDone 0 511 0, .portTrainingDone 0 0 511, .deviceRoute 1 0 {},
   .deviceRoute 0 63 {}, .causewayMemoryRequest 3 {}, .heartbeatReceive 0 15 false 0, .heartbeatPeriodMissed 15,
   .twinBindBind 127 0 0 .refuses, .twinBindBind 0 1 0 .refuses, .twinBindBind 0 0 1023 .refuses, .twinCtrl 0 255 0 0,
   .jrecReceive 0 0 0 false false 1099511627775 [], .pcdigReceive 0 7 0 0 [], .pcdigReceive 0 0 1 0 [], .healClear 7 .hub 0,
   .healLogDrain 8, .movePrepared 15, .calibrationGrant 3 0, .computeDieReset 0 5, .dieWatchdogExpiry 0 1, .hostLinkReset 2,
   .functionLevelReset 64, .drainExpiry 1023, .incidentLost 0 1023 0, .incidentAbort 0 0 255, .regulatorFault 287,
   .fastThrottle 11, .pllLoss 298 false, .itinLoad 0 255, .milestoneWaitTimeout 0 0 65535, .vfWindowAccess 63 0 0 0 false [],
   .vfWindowAccess 0 5 0 0 false [], .entdaa 127, .mctpControl 255 0 false, .mctpControl 0 255 false, .casevoFuse 0 255,
   .firmwareUpdate 2 {} {}, .gaugeRun 10 0 .hub 0] : List Instr).all fun i => i.wellFormed) = true := by decide +kernel
theorem test_wellFormed_takes_last :
  (([.halfReq ⟨39, 8⟩, .gaugeRun 0 15 .hub 0, .codewordTransmit ⟨39, []⟩, .hostLinkTrained 5 0 false, .hostLinkTrained 0 7 false] : List Instr).all fun i => i.wellFormed) = true := by decide +kernel

/-! ### Worked examples of the spec -/

/-- Core 077 belongs to cluster K20, with 076, 088 and 089 (the example beside R7). -/
theorem test_cluster_partners : clusterOf 77 = 20 ∧ clusterCores 20 = [76, 77, 88, 89] := by decide +kernel
/-- The page of C3.077's scratchpad and the address of its PG_STATUS (the example beside R35). -/
theorem test_page_number : (spadPage (3 * 144 + 77)).no = 6762 ∧ pageAddr 6762 8 = 0x020001A6A008 ∧ pageOf 6762 = some (spadPage (3 * 144 + 77)) := by
  decide +kernel
/-- A block whose largest magnitude is 7.9 quantises in MXFP4 with scale 0x7F and element 6.0 (R78). -/
theorem test_mxfp4_saturates : mxQuant 1 [ofF32 0x40FCCCCD] = (0x7F, [7]) := by decide +kernel
/-- Three steps of a weight in FEEDBACK mode (the example beside R85). -/
theorem test_feedback_rounding :
    feedback 0x3F403000 0 = (0x3F40, 0x3A40) ∧ feedback 0x3F404000 0x3A40 = (0x3F40, 0x3AE0) ∧ feedback 0x3F405000 0x3AE0 = (0x3F41, 0xBA80) := by
  decide +kernel
/-- The same weight in STOCHASTIC mode with two draws (the example beside R85). -/
theorem test_stochastic_rounding : srBf16 0x3F403000 0x9C40 = 0x3F40 ∧ srBf16 0x3F403000 0xE000 = 0x3F41 := by decide +kernel
/-- QSEL a0, a1, a2 (the example beside R183). -/
theorem test_qsel_word : encR 0 12 11 1 10 0x0B = 0x00C5950B := by decide +kernel
/-- Three messages arrive at a ring queue of 64 KiB (the example beside R244). -/
theorem test_ring_wraps :
    ringPlace 65536 { head := 8192, tail := 64000, used := 55808 } 3008 = some (0, true) ∧
    ringPlace 65536 { head := 8192, tail := 3008, used := 60352 } 4008 = some (3008, false) ∧
    ringPlace 65536 { head := 8192, tail := 7016, used := 64360 } 2008 = none := by decide +kernel
/-- The chunk of a weight region hashed, and pinned (the example beside R334). -/
theorem test_placement :
    native State.reset 0 0x1234500200 = (338, 0x91A2800) ∧
    native (wr State.reset (memcPage 0) 0x80 (2 ^ 4)) 0 0x1234500200 = (257, 161644544) := by decide +kernel

/-! ### Single steps -/

/-- The field of a next state, where the step answers one. -/
def after {α : Type} (o : Host.Outcome State Fault Refusal) (f : State → α) : Option α := match o with | .next t => some (f t) | _ => none

theorem test_idle_step : after (step State.reset) (·.now) = some 1 := by decide +kernel
theorem test_step_takes_the_front :
    after (step { wUp with pending := [.registerWrite .hub (corePage .core 5).no 0x38 [7] 15, .jackSend] })
      (fun t => (rd t (corePage .core 5) 0x38, t.pending)) = some (7, [.jackSend]) := by decide +kernel
theorem test_no_such_core : (match exec (.napWake 1152) wUp with | .fault .noSuchUnit => true | _ => false) = true := by decide +kernel
theorem test_host_may_not_bind :
    after (exec (.registerWrite .host (corePage .core 5).no 0xC [0x10001] 15) wUp) (fun t => (rd t (corePage .core 5) 0xC, (cap t hostPg).code)) =
      some (0, 7) := by decide +kernel
theorem test_write_of_a_closed_core_is_dropped :
    (writeCode (markClosed wUp (cmCore 5)) .hub (corePage .core 5).no 0x60 100 15).2 = cCLOSURE := by decide +kernel

/-! ### States and commands that meet the statements of the machine -/

theorem witness_idle_step : State.reset.pending = [] := rfl
theorem witness_every_step : MemInv State.reset ∧ SpadInv State.reset ∧ CapInv State.reset ∧ step State.reset = .next (tick State.reset) :=
  ⟨by decide +kernel, by decide +kernel, by decide +kernel, rfl⟩
theorem witness_every_command_answers : SafeCmd (.napWake 1151) := rfl
theorem witness_stores : MemInv State.reset ∧ ∃ t, exec (.shadowApply 511) State.reset = .next t := ⟨by decide +kernel, _, rfl⟩
theorem witness_array_and_fabric_frame : ∃ t, exec (.wTokenLoad 0) State.reset = .next t := ⟨_, rfl⟩
theorem witness_sequencer_frame : ∃ t, exec (.napTimerExpiry 0) State.reset = .next t := ⟨_, rfl⟩
theorem witness_scratchpad_frame : ∃ t, exec (.recodeComplete 0 []) State.reset = .next t := ⟨_, rfl⟩
theorem witness_queue_engine_frame : ∃ t, exec (.closeAck 0 0 0) State.reset = .next t := ⟨_, rfl⟩
theorem witness_carriageway_frame : ∃ t, exec (.invalidationComplete) State.reset = .next t := ⟨_, rfl⟩
theorem witness_memory_and_link_frame : ∃ t, exec (.perBankRefresh 0) State.reset = .next t := ⟨_, rfl⟩
theorem witness_twin_frame : ∃ t, exec (.jackSend) State.reset = .next t := ⟨_, rfl⟩
theorem witness_healing_frame : ∃ t, exec (.trackingPass 0) State.reset = .next t := ⟨_, rfl⟩
theorem witness_reset_and_incident_frame : ∃ t, exec (.incidentAck 0) State.reset = .next t := ⟨_, rfl⟩
theorem witness_start_and_power_frame : ∃ t, exec (.flashExtNAssert) State.reset = .next t := ⟨_, rfl⟩
theorem witness_host_frame : ∃ t, exec (.healQuery 0) State.reset = .next t := ⟨_, rfl⟩
theorem witness_management_and_gauge_frame : ∃ t, exec (.fuseArmExpiry) State.reset = .next t := ⟨_, rfl⟩

/-! ### States and operands that meet the hypotheses of each statement, clause by clause -/

theorem witness_header_commands_complete :
    (∃ (s : State) (req : Req) (p : PageId) (v : Word), pageOf p.no = some p ∧ Granted s req p 0x38 v.toNat) ∧
    (∃ (s : State) (req : Req) (p : PageId) (v : Word), pageOf p.no = some p ∧ Granted s req p 0x10 v.toNat) ∧
    (∃ (s : State) (req : Req) (p : PageId) (v : Word), pageOf p.no = some p ∧ Granted s req p 0x14 v.toNat) ∧
    (∃ (s : State) (req : Req) (p : PageId) (v : Word), pageOf p.no = some p ∧ Granted s req p 0x18 v.toNat) ∧
    (∃ (s : State) (req : Req) (p : PageId) (v : Word), pageOf p.no = some p ∧ Granted s req p 0x1C v.toNat) ∧
    (∃ (s : State) (req : Req) (p : PageId) (v : Word), pageOf p.no = some p ∧ Granted s req p 0x30 (v.toNat ||| 1)) ∧
    (∃ (s : State) (req : Req) (p : PageId) (v : Word), pageOf p.no = some p ∧ Granted s req p 0x34 (v.toNat ||| 1)) ∧
    (∃ (s : State) (req : Req) (p : PageId) (off : Nat) (r : RegSpec) (q : RegSpec), pageOf p.no = some p ∧ specOf p off = some r ∧ r.half = .lo ∧ specOf p (off + 4) = some q ∧ off % 4 = 0 ∧ off < 4096 ∧ Readable s req p off ∧ unitClosed s p = false ∧ unitOff s p = false) :=
  ⟨⟨(wUp), (.hub), (corePage .core 5), (7), by decide +kernel⟩,
   ⟨(wUp), (.hub), (hubPage .host), (3), by decide +kernel⟩,
   ⟨(wUp), (.debug), (diePage .die 3), (3), by decide +kernel⟩,
   ⟨(wUp), (.host), (portPage 3), (3), by decide +kernel⟩,
   ⟨(wUp), (.mgmt), (memcPage 3), (3), by decide +kernel⟩,
   ⟨(wUp), (.core 5), (corePage .qeng 5), (1), by decide +kernel⟩,
   ⟨(wUp), (.core 5), (corePage .spad 5), (1), by decide +kernel⟩,
   ⟨(wUp), (.host), (corePage .core 5), (0x58), (sCORE_SEED_LO), (sCORE_SEED_HI), by decide +kernel⟩⟩

theorem witness_array_commands_complete :
    (∃ (s : State) (c : Nat) (d : Tok), c < 1152 ∧ fabricRuns s c = true ∧ (arr s c).pass = none ∧ headTok s c pPD = some d ∧ d.poison = false ∧ 1 ≤ bits d.val 0 7 ∧ bits d.val 0 7 ≤ 64 ∧ bits d.val 9 2 < 2 ∧ bits d.val 12 20 = 0 ∧ credits s c pDONE 1 = true ∧ ((bit d.val 7 = true → (arr s c).shadow = 2))) ∧
    (∃ (s : State) (c : Nat) (p : Pass), c < 1152 ∧ fabricRuns s c = true ∧ (arr s c).pass = some p ∧ p.entered.length < p.nseq ∧ (seqPorts s c p).all (fun q => (headTok s c q).isSome) = true ∧ ((p.emit = true → credits s c pO 1 = true))) ∧
    (∃ (s : State) (c : Nat) (p : Pass) (q : SeqIn), c < 1152 ∧ fabricRuns s c = true ∧ (arr s c).pass = some p ∧ p.entered[p.done]? = some q ∧ (p.poisonFrom.isSome = true ∨ resultFails s c p q .none = none) ∧ (p.start = true ∨ (accEntry (arr s c) p.bank p.done).valid = false ∨ parityBad (accEntry (arr s c) p.bank p.done) = none) ∧ p.emit = false) ∧
    (∃ (s : State) (c : Nat) (p : Pass) (q : SeqIn), c < 1152 ∧ fabricRuns s c = true ∧ (arr s c).pass = some p ∧ p.entered[p.done]? = some q ∧ (p.poisonFrom.isSome = true ∨ resultFails s c p q .none = none)) ∧
    (∃ (s : State) (c : Nat) (p : Pass) (q : SeqIn) (col : Nat) (i : Nat), c < 1152 ∧ fabricRuns s c = true ∧ (arr s c).pass = some p ∧ p.entered[p.done]? = some q ∧ p.poisonFrom = none ∧ p.tries < arrRetry s c ∧ resultFails s c p q (.copy i) = some col) ∧
    (∃ (s : State) (c : Nat) (k : Tok), c < 1152 ∧ fabricRuns s c = true ∧ headTok s c pW = some k ∧ (arr s c).shadow ≠ 2 ∧ (((arr s c).shadow = 1 → (arr s c).shTile.img.length < imageTokens (arr s c).shTile.wfmt (arr s c).shTile.sparse))) ∧
    (∃ (s : State) (c : Nat), c < 1152 ∧ fabricRuns s c = true ∧ (arr s c).shadow = 1 ∧ (arr s c).shTile.img.length = imageTokens (arr s c).shTile.wfmt (arr s c).shTile.sparse) ∧
    (∃ (s : State) (c : Nat) (req : Req) (v : Word), c < 1152 ∧ Granted s req (flowPage c) 0x408 (v.toNat ||| 1)) ∧
    (∃ (s : State) (c : Nat) (req : Req) (b : Nat) (v : Word), c < 1152 ∧ b < 2 ∧ Granted s req (flowPage c) (0x400 + 4 * b) v.toNat ∧ b ≠ activeBuf s c) ∧
    (∃ (s : State) (c : Nat) (req : Req) (b : Nat) (v : Word), c < 1152 ∧ b < 2 ∧ Granted s req (flowPage c) (0x400 + 4 * b) v.toNat ∧ b = activeBuf s c) :=
  ⟨⟨(wLink 5 { val := 0x201 }), (0), ({ val := 0x201 }), by decide +kernel⟩,
   ⟨(setArr (wLink 1 { val := 5 }) 0 { pass := some { nseq := 2 } }), (0), ({ nseq := 2 }), by decide +kernel⟩,
   ⟨(setArr wUp 0 { pass := some { nseq := 2, entered := [⟨{}, {}, {}, {}⟩] } }), (0), ({ nseq := 2, entered := [⟨{}, {}, {}, {}⟩] }), (⟨{}, {}, {}, {}⟩), by decide +kernel⟩,
   ⟨(setArr wUp 0 { pass := some { nseq := 1, emit := true, entered := [⟨{}, {}, {}, {}⟩] } }), (0), ({ nseq := 1, emit := true, entered := [⟨{}, {}, {}, {}⟩] }), (⟨{}, {}, {}, {}⟩), by decide +kernel⟩,
   ⟨(wr (setArr wUp 0 { pass := some { nseq := 1, entered := [⟨{}, {}, {}, {}⟩] } }) (flowPage 0) 0x400 0x400), (0), ({ nseq := 1, entered := [⟨{}, {}, {}, {}⟩] }), (⟨{}, {}, {}, {}⟩), (0), (0), by decide +kernel⟩,
   ⟨(wLink 0 { val := 9 }), (0), ({ val := 9 }), by decide +kernel⟩,
   ⟨(setArr wUp 0 { shadow := 1, shTile := { wfmt := 0, img := List.replicate (imageTokens 0 false) 0 } }), (0), by decide +kernel⟩,
   ⟨(wUp), (5), (.debug), (0x301), by decide +kernel⟩,
   ⟨(wUp), (5), (.host), (1), (0x411), by decide +kernel⟩,
   ⟨(wUp), (5), (.host), (0), (0x411), by decide +kernel⟩⟩

theorem witness_fabric_commands_complete :
    (∃ (s : State) (c : Nat) (n : Nat) (k : Tok) (rest : List Tok), c < 1152 ∧ (link s c n).fly = k :: rest ∧ k.ep = epoch s c) ∧
    (∃ (s : State) (c : Nat) (n : Nat) (k : Tok) (rest : List Tok), c < 1152 ∧ (link s c n).fly = k :: rest ∧ k.ep ≠ epoch s c) ∧
    (∃ (s : State) (c : Nat) (n : Nat), c < 1152 ∧ 1 ≤ (link s c n).cfly) ∧
    (∃ (s : State) (c : Nat) (m : Nat) (k : Tok), c < 1152 ∧ m < 4 ∧ fabricRuns s c = true ∧ muMode s c (activeBuf s c) m = 5 ∧ muForm s c (activeBuf s c) m = 0 ∧ rangeWaiting (core s c) m 0 = false ∧ headTok s c (muPort m 0) = some k ∧ (mu s c m).spill = {} ∧ credits s c (muPort m 0) 1 = false) ∧
    (∃ (s : State) (c : Nat) (req : Req) (v : Word), c < 1152 ∧ Granted s req (flowPage c) 0x50 (v.toNat ||| 2) ∧ bits v.toNat 0 1 ≠ activeBuf s c ∧ (fabOf s c).load = none) ∧
    (∃ (s : State) (c : Nat) (b : Nat), c < 1152 ∧ (fabOf s c).load = some b ∧ (fabOf s c).sw = none ∧ rangeWaiting (core s c) whoLoader 0 = false ∧ (spadReadAll s c whoLoader (fd s (flowPage c) fFLOW_IMG_ADDR_ADDR * 512) 512).2.1 = .word 0 false) ∧
    (∃ (s : State) (c : Nat) (req : Req) (v : Word), c < 1152 ∧ Granted s req (flowPage c) 0x58 v.toNat ∧ fd s (flowPage c) fFLOW_WIN_SEL_BUF ≠ activeBuf s c ∧ fd s (flowPage c) fFLOW_WIN_SEL_OFFSET ≠ 2) ∧
    (∃ (s : State) (c : Nat) (req : Req) (v : Word), c < 1152 ∧ Granted s req (flowPage c) 0x48 v.toNat ∧ bit v.toNat (1 - activeBuf s c) = true ∧ (fabOf s c).check = none) ∧
    (∃ (s : State) (c : Nat) (b : Nat), c < 1152 ∧ b < 2 ∧ (fabOf s c).check = some b ∧ (fabOf s c).sw = none) ∧
    (∃ (s : State) (c : Nat) (w : Cfgsw), c < 1152 ∧ (fabOf s c).sw = some w ∧ w.purge = false ∧ w.switched = false ∧ fd s (flowPage c) fFLOW_STATUS_SWITCH = 2 ∧ validBuf s c (1 - activeBuf s c) = true ∧ unitsRest s c = true ∧ (linksOn s c).all (fun n => linkRest s c n) = true) :=
  ⟨⟨(setLink wUp 0 3 { fly := [{ val := 5 }] }), (0), (3), ({ val := 5 }), ([]), by decide +kernel⟩,
   ⟨(setLink wUp 0 3 { fly := [{ val := 5, ep := 1 }] }), (0), (3), ({ val := 5, ep := 1 }), ([]), by decide +kernel⟩,
   ⟨(setLink wUp 0 3 { cfly := 1 }), (0), (3), by decide +kernel⟩,
   ⟨(wSpill), (0), (0), ({ val := 9 }), by decide +kernel⟩,
   ⟨(wUp), (5), (.host), (1), by decide +kernel⟩,
   ⟨(wLoad), (0), (1), by decide +kernel⟩,
   ⟨(wr wUp (flowPage 0) 0x54 0x1010), (0), (.host), (77), by decide +kernel⟩,
   ⟨(wUp), (5), (.host), (3), by decide +kernel⟩,
   ⟨(setFab wUp 0 { check := some 1 }), (0), (1), by decide +kernel⟩,
   ⟨(wQuiet), (0), ({ purge := false, issued := 0 }), by decide +kernel⟩⟩

theorem witness_fabric_commands_complete_2 :
    (∃ (s : State) (c : Nat) (w : Cfgsw), c < 1152 ∧ (fabOf s c).sw = some w ∧ w.purge = false ∧ w.switched = false) ∧
    (∃ (s : State) (c : Nat) (req : Req) (v : Word), c < 1152 ∧ Granted s req (flowPage c) 0x60 v.toNat ∧ (linkCfg s c (activeBuf s c) (bits v.toNat 0 7)).en = false) ∧
    (∃ (s : State) (c : Nat) (req : Req) (v : Word), c < 1152 ∧ Granted s req (flowPage c) 0x60 v.toNat ∧ (linkCfg s c (activeBuf s c) (bits v.toNat 0 7)).en = true ∧ linkSum (link s c (bits v.toNat 0 7)) < 128) ∧
    (∃ (s : State) (c : Nat) (req : Req), c < 1152 ∧ Readable s req (flowPage c) 0x68) ∧
    (∃ (s : State) (c : Nat) (e : Edge) (since : Nat), c < 1152 ∧ fd s (flowPage c) fFLOW_GRID_WIN_W ≠ 0 ∧ since + usTicks (fd s (flowPage c) fFLOW_GRID_WIN_W) ≤ s.now ∧ (fabOf s c).lastProbe = none ∧ edgeNow s c e = true) ∧
    (∃ (s : State) (c : Nat) (p : Probe) (e : Edge) (since : Nat), c < 1152 ∧ probeHome s c p = false ∧ (reached s c p).contains e.unit = true ∧ since + usTicks p.window ≤ s.now ∧ p.hops.length < 32 ∧ edgeNow s c e = true) ∧
    (∃ (s : State) (c : Nat) (p : Probe) (q : Probe) (e : Edge) (since : Nat), c < 1152 ∧ probeHome s c p = true ∧ (fabOf s c).probes.find? (fun x => x.1.id == p.id && x.1.launch == p.launch) = some (q, e, since) ∧ edgeNow s c e = true ∧ p.hops.length ≤ 32) ∧
    (∃ (s : State) (c : Nat) (req : Req) (v : Word), c < 1152 ∧ Granted s req (flowPage c) 0x70 (v.toNat ||| 1)) :=
  ⟨⟨(wQuiet), (0), ({ purge := false, issued := 0 }), by decide +kernel⟩,
   ⟨(wUp), (5), (.host), (9), by decide +kernel⟩,
   ⟨(wLink 5 { val := 1 }), (0), (.debug), (0), by decide +kernel⟩,
   ⟨(wUp), (5), (.mgmt), by decide +kernel⟩,
   ⟨(setSlot ({ seqWait (wr wUp (flowPage 0) 0x6C 4) 0 (.qpop 3 1 0) 2 1 with now := 1000 }) 0 1 { slotq wUp 0 1 with senders := [5] }), (0), (⟨2, 13, 0, 1, 5⟩), (0), by decide +kernel⟩,
   ⟨(setSlot ({ seqWait wUp 0 (.qpop 3 1 0) 2 1 with now := 1000 }) 0 1 { slotq wUp 0 1 with senders := [5] }), (0), (⟨0, 3, 1, 4, 0, [0x200000]⟩), (⟨2, 13, 0, 1, 5⟩), (0), by decide +kernel⟩,
   ⟨(setSlot (setFab (seqWait wUp 3 (.qpop 3 1 0) 2 1) 3 { probes := [(⟨0, 3, 1, 4, 0, []⟩, ⟨2, 13, 0, 1, 5⟩, 7)] }) 3 1 { slotq wUp 3 1 with senders := [5] }), (3), (⟨selfDev wUp 0, 3, 1, 4, 0, [hopOf wUp 3 ⟨2, 13, 0, 1, 5⟩]⟩), (⟨0, 3, 1, 4, 0, []⟩), (⟨2, 13, 0, 1, 5⟩), (7), by decide +kernel⟩,
   ⟨(wUp), (5), (.host), (1), by decide +kernel⟩⟩

theorem witness_unit_commands_complete :
    (∃ (s : State) (c : Nat) (n : Nat), c < 1152 ∧ n < 6 ∧ fabricRuns s c = true ∧ (cu s c n).pipe.length < cuLatency s c n ∧ bit (cuWord s c (activeBuf s c) n 0) 0 = true ∧ bit (cuWord s c (activeBuf s c) n 0) 1 = false ∧ (List.range 6).all (fun i => !bit (cuWord s c (activeBuf s c) n 0) (2 + i) || (headTok s c (cuPort n i)).isSome) = true ∧ (List.range 4).all (fun i => !bit (cuWord s c (activeBuf s c) n 0) (8 + i) || credits s c (cuPort n i) 1) = true) ∧
    (∃ (s : State) (c : Nat) (n : Nat) (f : Firing) (rest : List Firing), c < 1152 ∧ n < 6 ∧ fabricRuns s c = true ∧ (cu s c n).pipe = f :: rest) ∧
    (∃ (s : State) (c : Nat) (n : Nat) (f : Firing) (rest : List Firing), c < 1152 ∧ n < 6 ∧ fabricRuns s c = true ∧ (cu s c n).pipe = f :: rest ∧ f.tries < fd s (cPage c) fCORE_CU_CTL_RETRY) ∧
    (∃ (s : State) (c : Nat) (n : Nat) (k : List Word) (kp : Bool), c < 1152 ∧ n < 6 ∧ fabricRuns s c = true ∧ (cu s c n).pipe.length < cuLatency s c n ∧ bit (cuWord s c (activeBuf s c) n 0) 0 = true ∧ bit (cuWord s c (activeBuf s c) n 0) 1 = true ∧ 1 ≤ (portQueue s c (cuPort n 0)).length ∧ 2 ≤ (portQueue s c (cuPort n 1)).length ∧ (if bits (cuWord s c (activeBuf s c) n 9) 0 2 = 3 then 2 else 1) ≤ (portQueue s c (cuPort n 2)).length ∧ credits s c (cuPort n 0) 2 = true ∧ credits s c (cuPort n 1) (if bits (cuWord s c (activeBuf s c) n 9) 0 2 = 0 then 1 else 2) = true ∧ (cu s c n).consts = some (k, kp, fd s (cPage c) fCORE_STEP_MILE_MILE)) ∧
    (∃ (s : State) (c : Nat) (m : Nat), c < 1152 ∧ m < 4 ∧ fabricRuns s c = true ∧ (mu s c m).walk = none ∧ ((muMode s c (activeBuf s c) m = 1 ∨ muMode s c (activeBuf s c) m = 2)) ∧ muTrig s c (activeBuf s c) m = 2 ∧ muTotal s c m ≠ 0) ∧
    (∃ (s : State) (c : Nat) (m : Nat) (k : Tok), c < 1152 ∧ m < 4 ∧ fabricRuns s c = true ∧ (mu s c m).walk = none ∧ ((muMode s c (activeBuf s c) m = 3 ∨ muMode s c (activeBuf s c) m = 4)) ∧ headTok s c (muPort m 1) = some k ∧ k.poison = false ∧ muTotal s c m ≠ 0) ∧
    (∃ (s : State) (c : Nat) (m : Nat) (w : Walk), c < 1152 ∧ m < 4 ∧ fabricRuns s c = true ∧ (mu s c m).walk = some w ∧ w.dead = false ∧ w.refused = false ∧ w.issued + 1 < w.total ∧ muMode s c (activeBuf s c) m = 1 ∧ muForm s c (activeBuf s c) m ≠ 2 ∧ rangeWaiting (core s c) m 0 = false ∧ credits s c (muOut s c m) 1 = true ∧ (muWords s c m (w.base + muOffset s c m w.issued)).all (fun x => decide (0 ≤ x) && decide (x < 1048576)) = true ∧ askBanks s c m ((muWords s c m (w.base + muOffset s c m w.issued)).map Int.toNat) = (s, none, false)) ∧
    (∃ (s : State) (c : Nat) (m : Nat) (w : Walk) (k : Tok), c < 1152 ∧ m < 4 ∧ fabricRuns s c = true ∧ SpadInv s ∧ (mu s c m).walk = some w ∧ w.dead = false ∧ w.refused = false ∧ w.issued + 1 < w.total ∧ muMode s c (activeBuf s c) m = 2 ∧ muForm s c (activeBuf s c) m = 0 ∧ rangeWaiting (core s c) m 0 = false ∧ headTok s c (muIn s c m) = some k ∧ (muWords s c m (w.base + muOffset s c m w.issued)).all (fun x => decide (0 ≤ x) && decide (x < 1048576)) = true ∧ askBanks s c m ((muWords s c m (w.base + muOffset s c m w.issued)).map Int.toNat) = (s, none, false)) ∧
    (∃ (s : State) (c : Nat) (m : Nat) (n : Nat) (k : Tok) (rest : List Tok), c < 1152 ∧ m < 4 ∧ fabricRuns s c = true ∧ (mu s c m).emit = k :: rest ∧ n ∈ linksFrom s c (muOut s c m)) :=
  ⟨⟨(wCu), (0), (0), by decide +kernel⟩,
   ⟨(setCu wUp 0 2 { pipe := [{ outs := [] }] }), (0), (2), ({ outs := [] }), ([]), by decide +kernel⟩,
   ⟨(setCu wUp 0 2 { pipe := [{ outs := [] }] }), (0), (2), ({ outs := [] }), ([]), by decide +kernel⟩,
   ⟨(wUpd), (0), (0), ([]), (false), by decide +kernel⟩,
   ⟨(wMu 0x41), (0), (0), by decide +kernel⟩,
   ⟨(wMu 3), (0), (0), ({ val := 6 }), by decide +kernel⟩,
   ⟨(setMu (wMu 1) 0 0 { walk := some { total := 2, base := 8 } }), (0), (0), ({ total := 2, base := 8 }), by decide +kernel⟩,
   ⟨(setMu (wMu 2) 0 0 { walk := some { total := 2, base := 8 } }), (0), (0), ({ total := 2, base := 8 }), ({ val := 6 }), by decide +kernel⟩,
   ⟨(setMu wSpill 0 0 { emit := [{ val := 3 }] }), (0), (0), (1), ({ val := 3 }), ([]), by decide +kernel⟩⟩

theorem witness_sequencer_commands_complete :
    (∃ (s : State) (c : Nat) (w : Nat) (len : Nat), c < 1152 ∧ seqSt s c = 1 ∧ fetchAt s c = .instr w len ∧ rvOp w = 0x33 ∧ rvF7 w = 0) ∧
    (∃ (s : State) (c : Nat) (w : Nat) (len : Nat), c < 1152 ∧ seqSt s c = 1 ∧ fetchAt s c = .instr w len ∧ rvOp w = 0x33 ∧ rvF7 w = 1) ∧
    (∃ (s : State) (c : Nat) (w : Nat) (len : Nat), c < 1152 ∧ seqSt s c = 1 ∧ fetchAt s c = .instr w len ∧ rvOp w = 0x13 ∧ rvF3 w ≠ 1 ∧ rvF3 w ≠ 5) ∧
    (∃ (s : State) (c : Nat) (w : Nat) (len : Nat), c < 1152 ∧ seqSt s c = 1 ∧ fetchAt s c = .instr w len ∧ rvOp w = 0x13 ∧ (rvF3 w = 1 ∨ rvF3 w = 5) ∧ rvF7 w = 0) ∧
    (∃ (s : State) (c : Nat) (w : Nat) (len : Nat), c < 1152 ∧ seqSt s c = 1 ∧ fetchAt s c = .instr w len ∧ rvOp w = 0x37) ∧
    (∃ (s : State) (c : Nat) (w : Nat) (len : Nat), c < 1152 ∧ seqSt s c = 1 ∧ fetchAt s c = .instr w len ∧ rvOp w = 0x17) ∧
    (∃ (s : State) (c : Nat) (w : Nat) (len : Nat), c < 1152 ∧ seqSt s c = 1 ∧ fetchAt s c = .instr w len ∧ rvOp w = 0x6F) ∧
    (∃ (s : State) (c : Nat) (w : Nat) (len : Nat), c < 1152 ∧ seqSt s c = 1 ∧ fetchAt s c = .instr w len ∧ rvOp w = 0x67 ∧ rvF3 w = 0) ∧
    (∃ (s : State) (c : Nat) (w : Nat) (len : Nat), c < 1152 ∧ seqSt s c = 1 ∧ fetchAt s c = .instr w len ∧ rvOp w = 0x63 ∧ rvBranch (rvF3 w) (xget s c (rvRs1 w)) (xget s c (rvRs2 w)) = some true) ∧
    (∃ (s : State) (c : Nat) (w : Nat) (len : Nat), c < 1152 ∧ seqSt s c = 1 ∧ fetchAt s c = .instr w len ∧ rvOp w = 0x63 ∧ rvBranch (rvF3 w) (xget s c (rvRs1 w)) (xget s c (rvRs2 w)) = some false) :=
  ⟨⟨(wSeq (encR 0 2 1 0 3 0x33) []), (0), (encR 0 2 1 0 3 0x33), (4), by decide +kernel⟩,
   ⟨(wSeq (encR 1 2 1 5 3 0x33) [(1, 6), (2, 4)]), (0), (encR 1 2 1 5 3 0x33), (4), by decide +kernel⟩,
   ⟨(wSeq (encI 7 1 0 3 0x13) [(1, 6), (2, 4)]), (0), (encI 7 1 0 3 0x13), (4), by decide +kernel⟩,
   ⟨(wSeq (encI 7 1 1 3 0x13) [(1, 6), (2, 4)]), (0), (encI 7 1 1 3 0x13), (4), by decide +kernel⟩,
   ⟨(wSeq (0x000011B7) [(1, 6), (2, 4)]), (0), (0x000011B7), (4), by decide +kernel⟩,
   ⟨(wSeq (0x00001197) [(1, 6), (2, 4)]), (0), (0x00001197), (4), by decide +kernel⟩,
   ⟨(wSeq (0x008001EF) [(1, 6), (2, 4)]), (0), (0x008001EF), (4), by decide +kernel⟩,
   ⟨(wSeq (encI 7 1 0 3 0x67) [(1, 6), (2, 4)]), (0), (encI 7 1 0 3 0x67), (4), by decide +kernel⟩,
   ⟨(wSeq (0x00209463) [(1, 6), (2, 4)]), (0), (0x00209463), (4), by decide +kernel⟩,
   ⟨(wSeq (0x00208463) [(1, 6), (2, 4)]), (0), (0x00208463), (4), by decide +kernel⟩⟩

theorem witness_sequencer_commands_complete_2 :
    (∃ (s : State) (c : Nat) (w : Nat) (len : Nat), c < 1152 ∧ seqSt s c = 1 ∧ fetchAt s c = .instr w len ∧ rvOp w = 0x03 ∧ rvF3 w = 2 ∧ (xget s c (rvRs1 w) + immI w).toNat % 4 = 0 ∧ areaOf (xget s c (rvRs1 w) + immI w).toNat = .local_) ∧
    (∃ (s : State) (c : Nat) (w : Nat) (len : Nat), c < 1152 ∧ seqSt s c = 1 ∧ fetchAt s c = .instr w len ∧ rvOp w = 0x23 ∧ rvF3 w = 2 ∧ (xget s c (rvRs1 w) + immS w).toNat % 4 = 0 ∧ areaOf (xget s c (rvRs1 w) + immS w).toNat = .local_) ∧
    (∃ (s : State) (c : Nat) (w : Nat) (len : Nat) (a : Nat), c < 1152 ∧ seqSt s c = 1 ∧ fetchAt s c = .instr w len ∧ rvOp w = 0x03 ∧ rvF3 w = 2 ∧ a = (xget s c (rvRs1 w) + immI w).toNat ∧ a % 4 = 0 ∧ areaOf a = .spad ∧ writePending (core s c) ((a - 0x10000000) / 8) = false ∧ regionWaits s c whoSeq ((a - 0x10000000) / 8) = false ∧ bankAsk s c whoSeq ((a - 0x10000000) / 8) = (s, none) ∧ tget 0 (core s c).sp.flips ((a - 0x10000000) / 8) = 0 ∧ (spadWord (core s c) ((a - 0x10000000) / 8)).2 = false ∧ rvRd w ≠ 0) :=
  ⟨⟨(wSeq (encI 2 1 2 3 0x03) [(1, 6), (2, 4)]), (0), (encI 2 1 2 3 0x03), (4), by decide +kernel⟩,
   ⟨(wSeq (encS 2 2 1 2 0x23) [(1, 6), (2, 4)]), (0), (encS 2 2 1 2 0x23), (4), by decide +kernel⟩,
   ⟨(wBanks (wSeq (encI 0 1 2 3 0x03) [(1, 0x10000000)])), (0), (encI 0 1 2 3 0x03), (4), (0x10000000), by decide +kernel⟩⟩

theorem witness_queue_instructions_complete :
    (∃ (s : State) (u : State) (c : Nat) (w : Nat) (len : Nat) (v : DWord) (pz : Bool), c < 1152 ∧ seqSt s c = 1 ∧ fetchAt s c = .instr w len ∧ customKind 0x0B 0 w = true ∧ qxBound s c ((xget s c (rvRs1 w)).toNat % 64) = false ∧ popSlot s c ((xget s c (rvRs1 w)).toNat % 64) = (u, .word v pz)) ∧
    (∃ (s : State) (u : State) (c : Nat) (w : Nat) (len : Nat), c < 1152 ∧ seqSt s c = 1 ∧ fetchAt s c = .instr w len ∧ customKind 0x0B 0 w = true ∧ qxBound s c ((xget s c (rvRs1 w)).toNat % 64) = false ∧ popSlot s c ((xget s c (rvRs1 w)).toNat % 64) = (u, .empty)) ∧
    (∃ (s : State) (u : State) (c : Nat) (rd : Nat) (q : Nat) (since : Nat) (v : DWord) (pz : Bool), c < 1152 ∧ (seqr s c).wait = .qpop rd q since ∧ popSlot s c q = (u, .word v pz)) ∧
    (∃ (s : State) (c : Nat) (rd : Nat) (q : Nat) (since : Nat), c < 1152 ∧ (seqr s c).wait = .qpop rd q since) ∧
    (∃ (s : State) (c : Nat) (w : Nat) (len : Nat) (q : Nat), c < 1152 ∧ seqSt s c = 1 ∧ fetchAt s c = .instr w len ∧ customKind 0x0B 1 w = true ∧ qselPick s c (xget s c (rvRs1 w)).toNat ((xget s c (rvRs2 w)).toNat % 2) (bit (xget s c (rvRs2 w)).toNat 1) = some q) ∧
    (∃ (s : State) (c : Nat) (rd : Nat) (mask : Nat) (bank : Nat) (timeout : Nat) (since : Nat) (q : Nat) (rot : Bool), c < 1152 ∧ (seqr s c).wait = .qsel rd mask bank rot timeout since ∧ qselPick s c mask bank rot = some q) ∧
    (∃ (s : State) (c : Nat) (rd : Nat) (mask : Nat) (bank : Nat) (timeout : Nat) (since : Nat) (rot : Bool), c < 1152 ∧ (seqr s c).wait = .qsel rd mask bank rot timeout since) ∧
    (∃ (s : State) (c : Nat) (w : Nat) (len : Nat), c < 1152 ∧ seqSt s c = 1 ∧ fetchAt s c = .instr w len ∧ customKind 0x0B 2 w = true ∧ (xget s c (rvRs1 w)).toNat % 8 = 0 ∧ bits (xget s c (rvRs2 w)).toNat 10 13 ≤ 4096 ∧ (chan s c (bits (xget s c (rvRs2 w)).toNat 0 10)).state = 2 ∧ bits (xget s c (rvRs2 w)).toNat 10 13 ≤ (chan s c (bits (xget s c (rvRs2 w)).toNat 0 10)).maxlen ∧ (qe s c).sendq.length < 32 ∧ (xget s c (rvRs1 w)).toNat < 0x7FF000) ∧
    (∃ (s : State) (c : Nat) (w : Nat) (len : Nat) (i : Nat), c < 1152 ∧ seqSt s c = 1 ∧ fetchAt s c = .instr w len ∧ customKind 0x0B 3 w = true ∧ lowest1024 (fun i => (chan s c i).state == 0) = some i) ∧
    (∃ (s : State) (c : Nat) (w : Nat) (len : Nat), c < 1152 ∧ seqSt s c = 1 ∧ fetchAt s c = .instr w len ∧ customKind 0x0B 4 w = true ∧ (chan s c ((xget s c (rvRs1 w)).toNat % 1024)).state = 4) :=
  ⟨⟨(wQ 0x0B), ((popSlot (wQ 0x0B) 0 1).1), (0), (encR 0 2 1 0 3 0x0B), (4), (9), (false), by decide +kernel⟩,
   ⟨(wSeq (encR 0 2 1 0 3 0x0B) []), (wSeq (encR 0 2 1 0 3 0x0B) []), (0), (encR 0 2 1 0 3 0x0B), (4), by decide +kernel⟩,
   ⟨(seqWait (wQ 0x0B) 0 (.qpop 3 1 0) 2 1), ((popSlot (seqWait (wQ 0x0B) 0 (.qpop 3 1 0) 2 1) 0 1).1), (0), (3), (1), (0), (9), (false), by decide +kernel⟩,
   ⟨(seqWait wUp 0 (.qpop 3 1 0) 2 1), (0), (3), (1), (0), by decide +kernel⟩,
   ⟨(wSeq (encR 0 2 1 1 3 0x0B) [(1, 2)] (some 1)), (0), (encR 0 2 1 1 3 0x0B), (4), (1), by decide +kernel⟩,
   ⟨(seqWait (wQ 0x0B) 0 (.qsel 3 2 0 false 5 0) 2 2), (0), (3), (2), (0), (5), (0), (1), (false), by decide +kernel⟩,
   ⟨(seqWait wUp 0 (.qsel 3 2 0 false 5 0) 2 2), (0), (3), (2), (0), (5), (0), (false), by decide +kernel⟩,
   ⟨(setChan (wSeq (encR 0 2 1 2 3 0x0B) [(2, 0x2001)]) 0 1 { state := 2, maxlen := 64 }), (0), (encR 0 2 1 2 3 0x0B), (4), by decide +kernel⟩,
   ⟨(wSeq (encR 0 2 1 3 3 0x0B) []), (0), (encR 0 2 1 3 3 0x0B), (4), (0), by decide +kernel⟩,
   ⟨(setChan (wSeq (encR 0 2 1 4 3 0x0B) []) 0 0 { state := 4 }), (0), (encR 0 2 1 4 3 0x0B), (4), by decide +kernel⟩⟩

theorem witness_queue_instructions_complete_2 :
    (∃ (s : State) (c : Nat) (w : Nat) (len : Nat), c < 1152 ∧ seqSt s c = 1 ∧ fetchAt s c = .instr w len ∧ customKind 0x0B 4 w = true ∧ (chan s c ((xget s c (rvRs1 w)).toNat % 1024)).state = 2) ∧
    (∃ (s : State) (u : State) (v : State) (c : Nat) (w : Nat) (len : Nat) (a : Nat) (x : DWord) (y : Bool) (l : List (DWord × Bool)) (e : Ecc), c < 1152 ∧ seqSt s c = 1 ∧ fetchAt s c = .instr w len ∧ customKind 0x0B 5 w = true ∧ a = (xget s c (rvRs1 w)).toNat ∧ a % 32 = 0 ∧ a < 0x800000 ∧ rangeTake s c { start := a / 8, len := 4, write := false, owner := whoDma, id := descReadId } = (u, .go) ∧ spadReadEcc u c whoDma (a / 8) e 4 = (v, .word x y, l) ∧ l.any (fun e => e.2) = false ∧ descBad (l.map (fun e => e.1.toNat)) (descOf (l.map (fun e => e.1.toNat)) a) = false ∧ (core v c).sp.dma.length < 16) :=
  ⟨⟨(setChan (wSeq (encR 0 2 1 4 3 0x0B) []) 0 0 { state := 2 }), (0), (encR 0 2 1 4 3 0x0B), (4), by decide +kernel⟩,
   ⟨(wDma), ((rangeTake wDma 0 { start := 0, len := 4, write := false, owner := whoDma, id := descReadId }).1), ((spadReadEcc (rangeTake wDma 0 { start := 0, len := 4, write := false, owner := whoDma, id := descReadId }).1 0 whoDma 0 .clean 4).1), (0), (encR 0 2 1 5 3 0x0B), (4), (0), (0), (false), ([(0, false), (0, false), (0, false), (0, false)]), (.clean), by decide +kernel⟩⟩

theorem witness_step_and_sleep_instructions_complete :
    (∃ (s : State) (c : Nat) (w : Nat) (len : Nat), c < 1152 ∧ seqSt s c = 1 ∧ fetchAt s c = .instr w len ∧ customKind 0x0B 7 w = true ∧ (xget s c (rvRs1 w)).toNat = fd s (cPage c) fCORE_STEP_MILE_MILE) ∧
    (∃ (s : State) (c : Nat) (rd : Nat) (n : Word), c < 1152 ∧ (seqr s c).wait = .mile rd n ∧ (seqr s c).issued.all (fun i => i.outcome == some 0) = true) ∧
    (∃ (s : State) (c : Nat) (w : Nat) (len : Nat), c < 1152 ∧ seqSt s c = 1 ∧ fetchAt s c = .instr w len ∧ customKind 0x2B 0 w = true ∧ (xget s c (rvRs1 w)).toNat % 32 ≠ 0 ∧ (seqr s c).causes &&& ((xget s c (rvRs1 w)).toNat % 32) = 0) ∧
    (∃ (s : State) (c : Nat) (rd : Nat) (mask : Nat) (timer : Nat) (since : Nat), c < 1152 ∧ (seqr s c).wait = .nap rd mask timer since ∧ (seqr s c).napped = false ∧ napRest s c = true) ∧
    (∃ (s : State) (c : Nat) (rd : Nat) (mask : Nat) (timer : Nat) (since : Nat), c < 1152 ∧ (seqr s c).wait = .nap rd mask timer since ∧ (seqr s c).causes &&& mask ≠ 0) ∧
    (∃ (s : State) (c : Nat) (rd : Nat) (mask : Nat) (timer : Nat) (since : Nat), c < 1152 ∧ (seqr s c).wait = .nap rd mask timer since ∧ timer ≠ 0) ∧
    (∃ (s : State) (c : Nat) (w : Nat) (len : Nat), c < 1152 ∧ seqSt s c = 1 ∧ fetchAt s c = .instr w len ∧ customKind 0x0B 6 w = true ∧ bit (xget s c (rvRs1 w)).toNat 0 = false) ∧
    (∃ (s : State) (c : Nat) (w : Nat) (len : Nat), c < 1152 ∧ seqSt s c = 1 ∧ fetchAt s c = .instr w len ∧ customKind 0x0B 6 w = true ∧ bit (xget s c (rvRs1 w)).toNat 0 = true ∧ validBuf s c (1 - activeBuf s c) = true ∧ (fabOf s c).load = none) :=
  ⟨⟨(wSeq (encR 0 2 1 7 3 0x0B) []), (0), (encR 0 2 1 7 3 0x0B), (4), by decide +kernel⟩,
   ⟨(seqWait wUp 0 (.mile 3 0) 2 4), (0), (3), (0), by decide +kernel⟩,
   ⟨(wSeq (encR 0 2 1 0 3 0x2B) [(1, 8)]), (0), (encR 0 2 1 0 3 0x2B), (4), by decide +kernel⟩,
   ⟨(seqWait wUp 0 (.nap 3 8 0 0) 2 6), (0), (3), (8), (0), (0), by decide +kernel⟩,
   ⟨(wakeCause (seqWait wUp 0 (.nap 3 8 0 0) 2 6) 0 3), (0), (3), (8), (0), (0), by decide +kernel⟩,
   ⟨(seqWait wUp 0 (.nap 3 8 40 0) 2 6), (0), (3), (8), (40), (0), by decide +kernel⟩,
   ⟨(wSeq (encR 0 2 1 6 3 0x0B) []), (0), (encR 0 2 1 6 3 0x0B), (4), by decide +kernel⟩,
   ⟨(fdSet (wSeq (encR 0 2 1 6 3 0x0B) [(1, 1)]) (flowPage 0) fFLOW_CFG_STATUS_VALID1 1), (0), (encR 0 2 1 6 3 0x0B), (4), by decide +kernel⟩⟩

theorem witness_window_and_control_commands_complete :
    (∃ (s : State) (u : State) (c : Nat) (w : Nat) (len : Nat) (a : Nat) (v : DWord) (pz : Bool), c < 1152 ∧ seqSt s c = 1 ∧ fetchAt s c = .instr w len ∧ rvOp w = 0x03 ∧ rvF3 w = 2 ∧ a = (xget s c (rvRs1 w) + immI w).toNat ∧ areaOf a = .window ∧ a % 4096 < 0x200 ∧ a % 8 = 0 ∧ qxBound s c (a % 4096 / 8) = false ∧ popSlot s c (a % 4096 / 8) = (u, .word v pz)) ∧
    (∃ (s : State) (c : Nat) (w : Nat) (len : Nat) (a : Nat) (port : Nat) (n : Nat), c < 1152 ∧ seqSt s c = 1 ∧ fetchAt s c = .instr w len ∧ rvOp w = 0x23 ∧ rvF3 w = 2 ∧ a = (xget s c (rvRs1 w) + immS w).toNat ∧ areaOf a = .window ∧ ((a % 4096 = 0x220 ∧ port = portId uSEQ 0 ∨ a % 4096 = 0x224 ∧ port = portId uSEQ 1)) ∧ credits s c port 1 = true ∧ n ∈ linksFrom s c port) ∧
    (∃ (s : State) (c : Nat) (w : Nat) (len : Nat) (a : Nat) (n : Nat), c < 1152 ∧ seqSt s c = 1 ∧ fetchAt s c = .instr w len ∧ rvOp w = 0x23 ∧ rvF3 w = 2 ∧ a = (xget s c (rvRs1 w) + immS w).toNat ∧ areaOf a = .window ∧ a % 4096 = 0x228 ∧ credits s c (portId uSEQ 2) 1 = true ∧ n ∈ linksFrom s c (portId uSEQ 2)) ∧
    (∃ (s : State) (c : Nat) (w : Nat) (len : Nat) (a : Nat) (port : Nat) (k : Tok), c < 1152 ∧ seqSt s c = 1 ∧ fetchAt s c = .instr w len ∧ rvOp w = 0x03 ∧ rvF3 w = 2 ∧ a = (xget s c (rvRs1 w) + immI w).toNat ∧ areaOf a = .window ∧ ((a % 4096 = 0x230 ∧ port = portId uSEQ 0 ∨ a % 4096 = 0x234 ∧ port = portId uSEQ 1)) ∧ headTok s c port = some k) ∧
    (∃ (s : State) (c : Nat) (w : Nat) (len : Nat) (a : Nat) (k : Tok), c < 1152 ∧ seqSt s c = 1 ∧ fetchAt s c = .instr w len ∧ rvOp w = 0x03 ∧ rvF3 w = 2 ∧ a = (xget s c (rvRs1 w) + immI w).toNat ∧ areaOf a = .window ∧ a % 4096 = 0x238 ∧ headTok s c (portId uSEQ 2) = some k) ∧
    (∃ (s : State) (c : Nat) (w : Nat) (len : Nat) (a : Nat), c < 1152 ∧ seqSt s c = 1 ∧ fetchAt s c = .instr w len ∧ rvOp w = 0x03 ∧ rvF3 w = 2 ∧ a = (xget s c (rvRs1 w) + immI w).toNat ∧ areaOf a = .window ∧ a % 4096 = 0x250) ∧
    (∃ (s : State) (c : Nat) (w : Nat) (len : Nat) (a : Nat), c < 1152 ∧ seqSt s c = 1 ∧ fetchAt s c = .instr w len ∧ rvOp w = 0x23 ∧ rvF3 w = 2 ∧ a = (xget s c (rvRs1 w) + immS w).toNat ∧ areaOf a = .window ∧ a % 4096 = 0x254) ∧
    (∃ (s : State) (c : Nat) (req : Req) (v : Word), c < 1152 ∧ Granted s req (cPage c) 0x40 (v.toNat ||| 1) ∧ seqSt s c = 0) ∧
    (∃ (s : State) (c : Nat) (req : Req) (v : Word), c < 1152 ∧ Granted s req (cPage c) 0x40 (v.toNat &&& 0xFFFFFFFE) ∧ bit v.toNat 2 = false ∧ seqSt s c = 1) ∧
    (∃ (s : State) (c : Nat) (w : Nat) (len : Nat) (req : Req) (v : Word), c < 1152 ∧ Granted s req (cPage c) 0x40 (v.toNat ||| 4) ∧ bit v.toNat 0 = false ∧ seqSt s c = 0 ∧ fetchAt s c = .instr w len ∧ rvOp w = 0x33 ∧ rvF7 w = 0) :=
  ⟨⟨(wSeq (encI 8 1 2 3 0x03) [(1, 0xF0000000)] (some 1)), ((popSlot (wSeq (encI 8 1 2 3 0x03) [(1, 0xF0000000)] (some 1)) 0 1).1), (0), (encI 8 1 2 3 0x03), (4), (0xF0000008), (9), (false), by decide +kernel⟩,
   ⟨(wSqo 0x220 0), (0), (encS 0x220 2 1 2 0x23), (4), (0xF0000220), (portId uSEQ 0), (0), by decide +kernel⟩,
   ⟨(wSqo 0x228 2), (0), (encS 0x228 2 1 2 0x23), (4), (0xF0000228), (0), by decide +kernel⟩,
   ⟨(wSqi 0x230 0), (0), (encI 0x230 1 2 3 0x03), (4), (0xF0000230), (portId uSEQ 0), ({ val := 5 }), by decide +kernel⟩,
   ⟨(wSqi 0x238 2), (0), (encI 0x238 1 2 3 0x03), (4), (0xF0000238), ({ val := 5 }), by decide +kernel⟩,
   ⟨(wSeq (encI 0x250 1 2 3 0x03) [(1, 0xF0000000)]), (0), (encI 0x250 1 2 3 0x03), (4), (0xF0000250), by decide +kernel⟩,
   ⟨(wSeq (encS 0x254 2 1 2 0x23) [(1, 0xF0000000)]), (0), (encS 0x254 2 1 2 0x23), (4), (0xF0000254), by decide +kernel⟩,
   ⟨(wUp), (5), (.host), (2), by decide +kernel⟩,
   ⟨(wSeq 0x13 []), (0), (.host), (2), by decide +kernel⟩,
   ⟨(setSeqSt (wSeq (encR 0 2 1 0 3 0x33) []) 0 0 0), (0), (encR 0 2 1 0 3 0x33), (4), (.debug), (2), by decide +kernel⟩⟩

theorem witness_window_and_control_commands_complete_2 :
    (∃ (s : State) (c : Nat) (req : Req) (v : Word), c < 1152 ∧ Granted s req (cPage c) 0x6C v.toNat) ∧
    (∃ (s : State) (c : Nat) (req : Req), c < 1152 ∧ Readable s req (cPage c) 0x70) :=
  ⟨⟨(wUp), (5), (.hub), (2), by decide +kernel⟩,
   ⟨(wUp), (5), (.mgmt), by decide +kernel⟩⟩

theorem witness_scratchpad_commands_complete :
    (∃ (s : State) (c : Nat) (r : XReq), c < 1152 ∧ r.bytes = 0 ∧ r.ecc = .clean ∧ SpadInv s ∧ bankAsk s c r.who (r.word % 1048576) = (s, none)) ∧
    (∃ (s : State) (c : Nat) (r : XReq), c < 1152 ∧ r.bytes = 255 ∧ bankAsk s c r.who (r.word % 1048576) = (s, none) ∧ bankPend (core s c) (bankOf (r.word % 1048576)) ≤ 8 ∧ SpadInv s) ∧
    (∃ (s : State) (c : Nat) (a : XReq) (b : XReq), c < 1152 ∧ a.bytes = 255 ∧ b.bytes = 0 ∧ b.ecc = .clean ∧ a.word % 1048576 = b.word % 1048576 ∧ a.who = 13 ∧ b.who = 11 ∧ bankAsk s c 11 (b.word % 1048576) = (s, none) ∧ bankAsk s c 13 (b.word % 1048576) = (s, none) ∧ bankPend (core s c) (bankOf (a.word % 1048576)) ≤ 8 ∧ SpadInv s) ∧
    (∃ (s : State) (c : Nat) (n : Nat) (r : Range), c < 1152 ∧ (core s c).sp.ranges[n]? = some r ∧ r.granted = false ∧ rangeClear s c n r = true) ∧
    (∃ (s : State) (c : Nat) (w : Nat) (v : DWord) (l : List (Nat × DWord)), c < 1152 ∧ (core s c).sp.wback = (w, v) :: l ∧ bankState s c (bankOf w) = 0 ∧ (core s c).sp.recode.contains (regionOf w) = false ∧ SpadInv s) ∧
    (∃ (s : State) (c : Nat) (n : Nat) (req : Req) (v : Word), c < 1152 ∧ n < 128 ∧ Granted s req (spadPage c) (0x400 + 4 * n) v.toNat) ∧
    (∃ (s : State) (c : Nat) (r : Nat) (l : List Nat), c < 1152 ∧ (core s c).sp.recode = r :: l ∧ (core s c).sp.ext = [] ∧ (qe s c).statw = [] ∧ SpadInv s) ∧
    (∃ (s : State) (c : Nat) (row : Nat) (wrapped : Bool), c < 1152 ∧ fb s (spadPage c) fSPAD_SCRUB_EN = true ∧ cstate s c = 0 ∧ (core s c).test = false ∧ (List.range 64).all (fun b => bankState s c b == 0) = true ∧ scrubNext s c (fd s (spadPage c) fSPAD_SCRUB_POS_ROW) = some (row, wrapped)) ∧
    (∃ (s : State) (c : Nat) (n : Nat) (b : Nat) (req : Req) (v : Word), c < 1152 ∧ n < 4 ∧ b < 16 ∧ Granted s req (spadPage c) (0x80 + 4 * n) v.toNat ∧ bits v.toNat (2 * b) 2 = 1 ∧ cstate s c = 0 ∧ bankState s c (16 * n + b) = 0) ∧
    (∃ (s : State) (c : Nat) (b : Nat), c < 1152 ∧ b < 64 ∧ bankState s c b = 3 ∧ tget false (core s c).sp.held b = false ∧ bankPend (core s c) b = 0) :=
  ⟨⟨(wBanks wUp), (0), (⟨13, 0, 7, 0, 0, false, .clean⟩), by decide +kernel⟩,
   ⟨(wBanks wUp), (0), (⟨13, 0, 7, 255, 9, true, .clean⟩), by decide +kernel⟩,
   ⟨(wBanks wUp), (0), (⟨13, 0, 7, 255, 9, true, .clean⟩), (⟨11, 0, 7, 0, 9, true, .clean⟩), by decide +kernel⟩,
   ⟨(setCore wUp 0 { sp := { ranges := [{ start := 0, len := 2, write := true, owner := 11, id := 0 }] } }), (0), (0), ({ start := 0, len := 2, write := true, owner := 11, id := 0 }), by decide +kernel⟩,
   ⟨(setCore (wBanks wUp) 0 { sp := { wback := [(5, 3)] } }), (0), (5), (3), ([]), by decide +kernel⟩,
   ⟨(wUp), (0), (3), (.host), (5), by decide +kernel⟩,
   ⟨(setCore wUp 0 { sp := { recode := [3] } }), (0), (3), ([]), by decide +kernel⟩,
   ⟨(fdSet (fdSet (wBanks wUp) (spadPage 0) fSPAD_SCRUB_EN 1) (spadPage 0) (fSPAD_REGION_CLASS.at 2) 1), (0), (256), (false), by decide +kernel⟩,
   ⟨(wBanks wUp), (0), (1), (2), (.hub), (0x10), by decide +kernel⟩,
   ⟨(setBank (wBanks wUp) 0 5 3), (0), (5), by decide +kernel⟩⟩

theorem witness_scratchpad_commands_complete_2 :
    (∃ (s : State) (c : Nat) (b : Nat), c < 1152 ∧ b < 64 ∧ bankState s c b = 4 ∧ tget false (core s c).sp.held b = false ∧ bankPend (core s c) b = 0 ∧ (core s c).sp.ext = [] ∧ (qe s c).statw = []) ∧
    (∃ (s : State) (c : Nat) (b : Nat), c < 1152 ∧ b < 64 ∧ bankState s c b = 5 ∧ tget false (core s c).sp.held b = false ∧ bankPend (core s c) b = 0 ∧ (core s c).sp.ext = [] ∧ (qe s c).statw = []) ∧
    (∃ (s : State) (c : Nat) (b : Nat), c < 1152 ∧ b < 64 ∧ bankState s c b = 6 ∧ tget false (core s c).sp.held b = false ∧ (core s c).sp.ext = [] ∧ (qe s c).statw = []) ∧
    (∃ (s : State) (c : Nat) (req : Req), c < 1152 ∧ Readable s req (spadPage c) 0x5C) ∧
    (∃ (s : State) (c : Nat) (req : Req) (v : Word), c < 1152 ∧ Granted s req (spadPage c) 0x40 (v.toNat ||| 0x2000)) ∧
    (∃ (s : State) (c : Nat) (d : Desc), c < 1152 ∧ dmaNext s c = some d) ∧
    (∃ (s : State) (c : Nat) (id : Nat) (a : Nat) (d : Desc), c < 1152 ∧ (dmaList s c).find? (fun d => d.id == id && d.running && !d.notified && (d.op == 2 || d.op == 3)) = some d ∧ tget 0 d.reissues a < fd s (spadPage c) fSPAD_DMA_CFG_RETRY ∧ isFollower s c = false) ∧
    (∃ (s : State) (u : State) (v : State) (c : Nat) (id : Nat) (n : Nat) (d : Desc) (x : DWord) (y : Bool), c < 1152 ∧ (dmaList s c).find? (fun d => d.id == id && d.running && !d.notified) = some d ∧ (dmaList s c).all (fun d => !(d.id == id && (d.op == 2 || d.op == 3)) && (!d.running || d.notified || decide (d.ranges.length ≤ d.asked))) = true ∧ rangeWaiting (core s c) whoDma (2 * id) = false ∧ rangeWaiting (core s c) whoDma (2 * id + 1) = false ∧ d.code = cOK ∧ d.op = 0 ∧ d.lines ≠ 0 ∧ d.notify = false ∧ banksWait s c whoDma d.bankWords = (u, false) ∧ spadWriteAll u c whoDma (d.saddr / 8) (List.replicate (d.len / 8) (BitVec.ofNat 64 d.remote, false)) = (v, .word x y, n) ∧ SpadInv s) ∧
    (∃ (s : State) (c : Nat) (id : Nat) (d : Desc), c < 1152 ∧ notifying s c id = some d ∧ d.nq < 64 ∧ qKind s c d.nq = 1 ∧ qOpen s c d.nq = true ∧ qxBound s c d.nq = false ∧ (slotq s c d.nq).regq.length < 16) ∧
    (∃ (s : State) (c : Nat) (id : Nat) (d : Desc), c < 1152 ∧ notifying s c id = some d) :=
  ⟨⟨(setBank (wBanks wUp) 0 5 4), (0), (5), by decide +kernel⟩,
   ⟨(setBank (wBanks wUp) 0 5 5), (0), (5), by decide +kernel⟩,
   ⟨(setBank (wBanks wUp) 0 5 6), (0), (5), by decide +kernel⟩,
   ⟨(wUp), (0), (.host), by decide +kernel⟩,
   ⟨(fdSet wUp (spadPage 0) fSPAD_STATUS_UNTRUSTED 1), (0), (.hub), (0), by decide +kernel⟩,
   ⟨(setDma wUp 0 [{ op := 0, fence := false, notify := false, nq := 0, tag := 0, len := 8, saddr := 0, remote := 0, nlines := 1, rstride := 0, sstride := 0 }]), (0), ({ op := 0, fence := false, notify := false, nq := 0, tag := 0, len := 8, saddr := 0, remote := 0, nlines := 1, rstride := 0, sstride := 0 }), by decide +kernel⟩,
   ⟨(fdSet (setDma wUp 0 [{ op := 2, fence := false, notify := false, nq := 0, tag := 0, len := 8, saddr := 0, remote := 0, nlines := 1, rstride := 0, sstride := 0, running := true }]) (spadPage 0) fSPAD_DMA_CFG_RETRY 2), (0), (0), (0), ({ op := 2, fence := false, notify := false, nq := 0, tag := 0, len := 8, saddr := 0, remote := 0, nlines := 1, rstride := 0, sstride := 0, running := true }), by decide +kernel⟩,
   ⟨(setDma (wBanks wUp) 0 [{ op := 0, fence := false, notify := false, nq := 0, tag := 0, len := 8, saddr := 0, remote := 6, nlines := 1, rstride := 0, sstride := 0, running := true, asked := 1 }]), (setDma (wBanks wUp) 0 [{ op := 0, fence := false, notify := false, nq := 0, tag := 0, len := 8, saddr := 0, remote := 6, nlines := 1, rstride := 0, sstride := 0, running := true, asked := 1 }]), ((spadWriteAll (setDma (wBanks wUp) 0 [{ op := 0, fence := false, notify := false, nq := 0, tag := 0, len := 8, saddr := 0, remote := 6, nlines := 1, rstride := 0, sstride := 0, running := true, asked := 1 }]) 0 whoDma 0 [(6, false)]).1), (0), (0), (1), ({ op := 0, fence := false, notify := false, nq := 0, tag := 0, len := 8, saddr := 0, remote := 6, nlines := 1, rstride := 0, sstride := 0, running := true, asked := 1 }), (0), (false), by decide +kernel⟩,
   ⟨(setDma (fdSet (fdSet wUp (qPage 0) (fQENG_Q_CFG_KIND.at 1) 1) (qPage 0) (fQENG_Q_CFG_OPEN.at 1) 1) 0 [{ op := 0, fence := false, notify := true, nq := 1, tag := 0, len := 8, saddr := 0, remote := 6, nlines := 1, rstride := 0, sstride := 0, running := true, notified := true }]), (0), (0), ({ op := 0, fence := false, notify := true, nq := 1, tag := 0, len := 8, saddr := 0, remote := 6, nlines := 1, rstride := 0, sstride := 0, running := true, notified := true }), by decide +kernel⟩,
   ⟨(setDma wUp 0 [{ op := 0, fence := false, notify := true, nq := 1, tag := 0, len := 8, saddr := 0, remote := 6, nlines := 1, rstride := 0, sstride := 0, running := true, notified := true }]), (0), (0), ({ op := 0, fence := false, notify := true, nq := 1, tag := 0, len := 8, saddr := 0, remote := 6, nlines := 1, rstride := 0, sstride := 0, running := true, notified := true }), by decide +kernel⟩⟩

theorem witness_channel_commands_complete :
    (∃ (s : State) (c : Nat) (q : Nat) (req : Req) (v : Word), c < 1152 ∧ q < 64 ∧ Granted s req (qPage c) (0x400 + 16 * q) v.toNat ∧ bit v.toNat 2 = false ∧ qOpen s c q = false ∧ slotBound s c q = false) ∧
    (∃ (s : State) (c : Nat) (q : Nat) (req : Req) (v : Word), c < 1152 ∧ q < 64 ∧ Granted s req (qPage c) (0x404 + 16 * q) v.toNat ∧ qOpen s c q = false ∧ slotBound s c q = false) ∧
    (∃ (s : State) (c : Nat) (q : Nat) (req : Req) (v : Word), c < 1152 ∧ q < 64 ∧ Granted s req (qPage c) (0x408 + 16 * q) v.toNat ∧ qOpen s c q = false ∧ slotBound s c q = false) ∧
    (∃ (s : State) (c : Nat) (q : Nat) (req : Req) (v : Word), c < 1152 ∧ q < 64 ∧ Granted s req (qPage c) (0x40C + 16 * q) v.toNat) ∧
    (∃ (s : State) (c : Nat) (q : Nat) (req : Req) (v : Word), c < 1152 ∧ q < 64 ∧ Granted s req (qPage c) (0x400 + 16 * q) (v.toNat ||| 4) ∧ qOpen s c q = false ∧ slotBound s c q = false ∧ openOk s c q (v.toNat ||| 4) = true) ∧
    (∃ (s : State) (c : Nat) (q : Nat) (req : Req) (v : Word), c < 1152 ∧ q < 64 ∧ Granted s req (qPage c) (0x400 + 16 * q) (v.toNat &&& 0xFFFFFFFB) ∧ qOpen s c q = true ∧ qKind s c q = bits v.toNat 0 2 ∧ qMaxlen s c q = bits v.toNat 10 13 ∧ fd s (qPage c) (fQENG_Q_CFG_LOGSIZE.at q) = bits v.toNat 4 5) ∧
    (∃ (s : State) (c : Nat) (i : Nat) (pkt : Pkt), c < 1152 ∧ pkt.type = 4 ∧ pkt.den = coreEn s c ∧ coreGone s c = false ∧ cstate s c ≠ 1 ∧ isLeader s c = false ∧ openCheck s c pkt = cOK ∧ lowest1024 (fun i => (handle s c i).state == 0) = some i) ∧
    (∃ (s : State) (c : Nat) (pkt : Pkt), c < 1152 ∧ pkt.type = 4 ∧ pkt.den = coreEn s c ∧ coreGone s c = false ∧ cstate s c ≠ 1 ∧ isLeader s c = false ∧ openCheck s c pkt ≠ cOK) ∧
    (∃ (s : State) (c : Nat) (pkt : Pkt), c < 1152 ∧ pkt.type = 5 ∧ pkt.code = cOK ∧ coreGone s c = false ∧ cstate s c ≠ 1 ∧ isLeader s c = false ∧ (chan s c pkt.sidx).state = 1 ∧ pkt.ctag = qTag s c) ∧
    (∃ (s : State) (c : Nat) (i : Nat), c < 1152 ∧ isLeader s c = false ∧ (chan s c i).state = 1 ∧ (chan s c i).att < fd s (qPage c) fQENG_CFG_RETRY) :=
  ⟨⟨(wUp), (0), (3), (.host), (0x20C1), by decide +kernel⟩,
   ⟨(wUp), (0), (3), (.host), (0x2000), by decide +kernel⟩,
   ⟨(wUp), (0), (3), (.host), (0x2000), by decide +kernel⟩,
   ⟨(wUp), (0), (3), (.hub), (0x2000), by decide +kernel⟩,
   ⟨(wUp), (0), (3), (.host), (0x20C1), by decide +kernel⟩,
   ⟨(setHandle (wr wUp (qPage 0) 0x430 0xC5) 0 1 { state := 1, slot := 3 }), (0), (3), (.host), (0xC5), by decide +kernel⟩,
   ⟨(wr (fdSet (fdSet wUp (qPage 0) (fQENG_Q_CFG_KIND.at 3) 1) (qPage 0) (fQENG_Q_CFG_OPEN.at 3) 1) (qPage 0) 0xC 0x10000), (0), (0), ({ type := 4, slot := 3 }), by decide +kernel⟩,
   ⟨(wUp), (0), ({ type := 4, slot := 3 }), by decide +kernel⟩,
   ⟨(setChan wUp 0 4 { state := 1 }), (0), ({ type := 5, sidx := 4 }), by decide +kernel⟩,
   ⟨(fdSet (setChan wUp 0 4 { state := 1 }) (qPage 0) fQENG_CFG_RETRY 2), (0), (4), by decide +kernel⟩⟩

theorem witness_channel_commands_complete_2 :
    (∃ (s : State) (c : Nat) (i : Nat), c < 1152 ∧ isLeader s c = false ∧ (chan s c i).state = 1 ∧ (chan s c i).wait = true) ∧
    (∃ (s : State) (c : Nat) (i : Nat), c < 1152 ∧ isLeader s c = false ∧ (handle s c i).state = 2) ∧
    (∃ (s : State) (c : Nat) (i : Nat) (en : Nat) (h : Nat), c < 1152 ∧ isLeader s c = false ∧ (chan s c i).state = 2 ∧ (chan s c i).convoy = none ∧ (chan s c i).en = en ∧ (chan s c i).handle = h) ∧
    (∃ (s : State) (c : Nat) (h : Nat) (en : Nat), c < 1152 ∧ isLeader s c = false ∧ (handle s c h).state = 1 ∧ (handle s c h).en = en) ∧
    (∃ (s : State) (c : Nat) (i : Nat) (en : Nat) (h : Nat), c < 1152 ∧ i < 1024 ∧ isLeader s c = false ∧ (chan s c i).state = 3 ∧ (chan s c i).notice = true ∧ (chan s c i).en = en ∧ (chan s c i).handle = h) ∧
    (∃ (s : State) (c : Nat) (i : Nat), c < 1152 ∧ isLeader s c = false ∧ (chan s c i).state = 3 ∧ (chan s c i).notice = true) ∧
    (∃ (s : State) (c : Nat) (m : Msg), c < 1152 ∧ fb s (qPage c) fQENG_CTL_SENDSTOP = false ∧ (qe s c).unacked.find? (fun m => m.again) = none ∧ nextMsg s c = some m ∧ m.len ≠ 0) ∧
    (∃ (s : State) (c : Nat) (pkt : Pkt), c < 1152 ∧ pkt.type = 0 ∧ pkt.den = coreEn s c ∧ pkt.npart = 0 ∧ coreGone s c = false ∧ cstate s c ≠ 1 ∧ isLeader s c = false ∧ msgCheck s c pkt = cOK ∧ pkt.seq = (handle s c pkt.handle).exp ∧ qKind s c (handle s c pkt.handle).slot = 1 ∧ (slotq s c (handle s c pkt.handle).slot).regq.length + (pkt.len + 7) / 8 ≤ 16) ∧
    (∃ (s : State) (c : Nat) (h : Nat) (seq : Nat) (att : Nat), c < 1152 ∧ isLeader s c = false ∧ (qe s c).reasm.any (fun r => r.handle == h && r.seq == seq && r.att == att) = true) ∧
    (∃ (s : State) (c : Nat) (pkt : Pkt) (m : Msg), c < 1152 ∧ pkt.type = 3 ∧ pkt.code = cOK ∧ coreGone s c = false ∧ cstate s c ≠ 1 ∧ isLeader s c = false ∧ pkt.ctag = qTag s c ∧ replyMsg s c pkt.sidx pkt.seq = some m ∧ (chan s c pkt.sidx).kind ≠ 3) :=
  ⟨⟨(setChan wUp 0 4 { state := 1, wait := true }), (0), (4), by decide +kernel⟩,
   ⟨(setHandle wUp 0 4 { state := 2 }), (0), (4), by decide +kernel⟩,
   ⟨(setChan wUp 0 4 { state := 2, en := 7, handle := 3 }), (0), (4), (7), (3), by decide +kernel⟩,
   ⟨(setHandle wUp 0 4 { state := 1, en := 7 }), (0), (4), (7), by decide +kernel⟩,
   ⟨(setChan wUp 0 4 { state := 3, notice := true, en := 7, handle := 3 }), (0), (4), (7), (3), by decide +kernel⟩,
   ⟨(setChan wUp 0 4 { state := 3, notice := true, en := 7, handle := 3 }), (0), (4), by decide +kernel⟩,
   ⟨(fdSet (setQe (wBanks wUp) 0 { chans := [(4, { state := 2 })], sendq := [{ id := 1, chan := 4, len := 8, addr := 0, src := .seq }] }) (qPage 0) fQENG_CFG_WINDOW 4), (0), ({ id := 1, chan := 4, len := 8, addr := 0, src := .seq }), by decide +kernel⟩,
   ⟨(setHandle (wr (fdSet (fdSet (fdSet wUp (qPage 0) (fQENG_Q_CFG_KIND.at 3) 1) (qPage 0) (fQENG_Q_CFG_OPEN.at 3) 1) (qPage 0) (fQENG_Q_CFG_MAXLEN.at 3) 64) (qPage 0) 0xC 0x10000) 0 2 { state := 1, slot := 3 }), (0), ({ type := 0, handle := 2, len := 8, data := [5] }), by decide +kernel⟩,
   ⟨(setQe wUp 0 { reasm := [⟨2, 3, 0, 0, 1, 600, [], false⟩] }), (0), (2), (3), (0), by decide +kernel⟩,
   ⟨(setQe wUp 0 { chans := [(4, { state := 2, next := 1 })], unacked := [{ id := 1, chan := 4, len := 8, addr := 0, src := .seq, seq := some 0 }] }), (0), ({ type := 3, sidx := 4 }), ({ id := 1, chan := 4, len := 8, addr := 0, src := .seq, seq := some 0 }), by decide +kernel⟩⟩

theorem witness_channel_commands_complete_3 :
    (∃ (s : State) (c : Nat) (pkt : Pkt) (m : Msg), c < 1152 ∧ pkt.type = 3 ∧ pkt.code = cNOT_READY ∧ coreGone s c = false ∧ cstate s c ≠ 1 ∧ isLeader s c = false ∧ pkt.ctag = qTag s c ∧ replyMsg s c pkt.sidx pkt.seq = some m ∧ m.att ≤ pkt.att) ∧
    (∃ (s : State) (c : Nat) (id : Nat) (m : Msg), c < 1152 ∧ isLeader s c = false ∧ (qe s c).unacked.find? (fun m => m.id == id) = some m ∧ m.waiting = true) ∧
    (∃ (s : State) (c : Nat) (i : Nat) (seq : Nat) (m : Msg), c < 1152 ∧ isLeader s c = false ∧ (qe s c).unacked.find? (fun m => m.chan == i && m.seq == some seq) = some m ∧ m.att < fd s (qPage c) fQENG_CFG_RETRY) ∧
    (∃ (s : State) (c : Nat) (req : Req) (v : Word), c < 1152 ∧ Granted s req (qPage c) 0x70 (v.toNat ||| 2)) ∧
    (∃ (s : State) (c : Nat) (req : Req) (v : Word), c < 1152 ∧ Granted s req (qPage c) 0x70 (v.toNat &&& 0xFFFFFFFD)) ∧
    (∃ (s : State) (c : Nat) (i : Nat) (req : Req) (v : Word), c < 1152 ∧ Granted s req (qPage c) 0x50 v.toNat ∧ i = bits v.toNat 0 10) ∧
    (∃ (s : State) (c : Nat) (i : Nat) (req : Req) (v : Word), c < 1152 ∧ Granted s req (qPage c) 0x64 v.toNat ∧ i = bits v.toNat 0 10) ∧
    (∃ (s : State) (c : Nat) (q : Nat) (req : Req) (v : Word), c < 1152 ∧ Granted s req (qPage c) 0x74 v.toNat ∧ q = bits v.toNat 0 6) ∧
    (∃ (s : State) (c : Nat) (p : Nat) (n : Nat) (k : Tok) (l : List Tok), c < 1152 ∧ p < 6 ∧ (core s c).stopped = false ∧ bit (bindWord s c (activeBuf s c) p 0) 0 = true ∧ (tget {} (qe s c).qx p).toks = k :: l ∧ credits s c (portId uQE p) 1 = true ∧ n ∈ linksFrom s c (portId uQE p)) ∧
    (∃ (s : State) (c : Nat) (p : Nat) (k : Tok), c < 1152 ∧ p < 4 ∧ (core s c).stopped = false ∧ bit (bindWord s c (activeBuf s c) (6 + p) 0) 0 = true ∧ (tget {} (qe s c).qy p).full = false ∧ (tget {} (qe s c).qy p).out.contains (tget {} (qe s c).qy p).buf = false ∧ headTok s c (portId uQE p) = some k ∧ (List.range 64).all (fun b => bankState s c b == 0) = true ∧ (tget {} (qe s c).qy p).got + 1 < (bits (bindWord s c (activeBuf s c) (6 + p) 0) 11 13 + 255) / 256) :=
  ⟨⟨(setQe wUp 0 { chans := [(4, { state := 2, next := 1 })], unacked := [{ id := 1, chan := 4, len := 8, addr := 0, src := .seq, seq := some 0 }] }), (0), ({ type := 3, sidx := 4, code := cNOT_READY }), ({ id := 1, chan := 4, len := 8, addr := 0, src := .seq, seq := some 0 }), by decide +kernel⟩,
   ⟨(setQe (wBanks wUp) 0 { chans := [(4, { state := 2, next := 1 })], unacked := [{ id := 1, chan := 4, len := 8, addr := 0, src := .seq, seq := some 0, waiting := true }] }), (0), (1), ({ id := 1, chan := 4, len := 8, addr := 0, src := .seq, seq := some 0, waiting := true }), by decide +kernel⟩,
   ⟨(fdSet (setQe (wBanks wUp) 0 { chans := [(4, { state := 2, next := 1 })], unacked := [{ id := 1, chan := 4, len := 8, addr := 0, src := .seq, seq := some 0 }] }) (qPage 0) fQENG_CFG_RETRY 2), (0), (4), (0), ({ id := 1, chan := 4, len := 8, addr := 0, src := .seq, seq := some 0 }), by decide +kernel⟩,
   ⟨(setQe wUp 0 { chans := [(4, { state := 2, next := 1 })], unacked := [{ id := 1, chan := 4, len := 8, addr := 0, src := .seq, seq := some 0 }] }), (0), (.hub), (0), by decide +kernel⟩,
   ⟨(wUp), (0), (.hub), (1), by decide +kernel⟩,
   ⟨(setChan wUp 0 4 { state := 2, en := 6, maxlen := 64 }), (0), (4), (.host), (4), by decide +kernel⟩,
   ⟨(setHandle wUp 0 4 { state := 1, en := 6, exp := 64 }), (0), (4), (.host), (4), by decide +kernel⟩,
   ⟨(setSlot wUp 0 4 { commits := 3, tail := 24 }), (0), (4), (.host), (4), by decide +kernel⟩,
   ⟨(setCore wUp 0 { fab := { buf0 := [(16, wEntry (portId uQE 0) 8), (784, 7)], links := [(0, { credits := 2 })] }, qe := { qx := [(0, { toks := [{ val := 5 }] })] } }), (0), (0), (0), ({ val := 5 }), ([]), by decide +kernel⟩,
   ⟨(setCore (wBanks wUp) 0 { fab := { buf0 := [(16, wEntry 8 (portId uQE 0)), (808, BitVec.ofNat 32 (1 + 2048 * 600)), (810, 1)], links := [(0, { q := [{ val := 5 }] })] } }), (0), (0), ({ val := 5 }), by decide +kernel⟩⟩

theorem witness_junction_commands_complete :
    (∃ (s : State) (c : Nat) (q : Nat) (b : Nat) (pkt : Pkt), c < 1152 ∧ pkt.type = 1 ∧ pkt.den = coreEn s c ∧ coreGone s c = false ∧ cstate s c ≠ 1 ∧ isLeader s c = false ∧ q = (handle s c pkt.handle).slot ∧ b = pkt.seq % 2 ∧ jCheck s c pkt = cOK ∧ (jSpans s c pkt).all (fun e => !bankPowering s c e.1 e.2 && !bankNotYet s c e.1 e.2) = true ∧ pkt.seq % 256 = (slotq s c q).jround ∧ (jbuf (slotq s c q) b).st = 1 ∧ jCanon s c q = false ∧ (cmaskIdx pkt).all (fun k => !jHas s c q b pkt.part k) = true ∧ fb s (qPage c) (fQENG_Q_CFG_STATEN.at q) = false ∧ SpadInv s) ∧
    (∃ (s : State) (c : Nat) (q : Nat) (b : Nat) (p : Nat), c < 1152 ∧ q < 64 ∧ b < 2 ∧ qKind s c q = 3 ∧ jCanon s c q = true ∧ (jbuf (slotq s c q) b).st = 1 ∧ p < jParts s c q ∧ tget 0 (jbuf (slotq s c q) b).added p < jCount s c q ∧ jHas s c q b p (tget 0 (jbuf (slotq s c q) b).added p) = true) ∧
    (∃ (s : State) (c : Nat) (q : Nat), c < 1152 ∧ q < 64 ∧ qKind s c q = 3 ∧ fb s (qPage c) (fQENG_J_FWD_FWDEN.at q) = true ∧ (jbuf (slotq s c q) (slotq s c q).jround).st = 2 ∧ (jbuf (slotq s c q) (slotq s c q).jround).fwd = none ∧ (chan s c (fd s (qPage c) (fQENG_J_FWD_FWDCH.at q))).state = 2 ∧ jCB s c q ≤ (chan s c (fd s (qPage c) (fQENG_J_FWD_FWDCH.at q))).maxlen ∧ jCB s c q ≠ 0 ∧ (qe s c).sendq.length < 32 ∧ jBufAddr s c q ((slotq s c q).jround % 2) / 8 + (jCB s c q + 7) / 8 ≤ 1048576) ∧
    (∃ (s : State) (c : Nat) (inp : Nat) (i : Nat) (p : Pkt) (l : List Pkt), c < 1152 ∧ inp < 6 ∧ bufOf s c inp 2 = p :: l ∧ p.type = 1 ∧ p.ddie = c / 144 ∧ p.ddev = selfDev s (c / 144) ∧ isHere s c p = false ∧ (routerOut s c p).2 = false ∧ (rout s c).held.findIdx? (fun h => mergeable h p) = some i ∧ p.merge = true) ∧
    (∃ (s : State) (c : Nat) (inp : Nat) (p : Pkt) (l : List Pkt), c < 1152 ∧ inp < 6 ∧ bufOf s c inp 2 = p :: l ∧ p.type = 1 ∧ p.ddie = c / 144 ∧ p.ddev = selfDev s (c / 144) ∧ isHere s c p = false ∧ (routerOut s c p).2 = false ∧ (rout s c).held.findIdx? (fun h => mergeable h p) = none ∧ p.merge = true ∧ (rout s c).held.length < 8) ∧
    (∃ (s : State) (c : Nat) (e : Nat) (pkt : Pkt), c < 1152 ∧ pkt.type = 2 ∧ repFind s c pkt.sepoch pkt.cvid = some e ∧ 1 ≤ bits (repWord s c pkt.sepoch e 0) 42 3 ∧ (rout s c).comb.findIdx? (fun k => k.cvid == pkt.cvid && k.seq == pkt.seq) = none ∧ (rout s c).bufs.find? (fun e => e.2.head? == some pkt) = none ∧ (rout s c).comb.length < 64) ∧
    (∃ (s : State) (c : Nat) (i : Nat) (pkt : Pkt) (k : Comb), c < 1152 ∧ pkt.type = 3 ∧ (rout s c).comb.findIdx? (fun k => k.cvid == pkt.cvid && k.seq == pkt.seq && k.att == pkt.att) = some i ∧ (rout s c).comb[i]? = some k ∧ 1 < k.due) ∧
    (∃ (s : State) (c : Nat) (i : Nat) (pkt : Pkt) (k : Comb), c < 1152 ∧ pkt.type = 3 ∧ (rout s c).comb.findIdx? (fun k => k.cvid == pkt.cvid && k.seq == pkt.seq && k.att == pkt.att) = some i ∧ (rout s c).comb[i]? = some k ∧ k.due ≤ 1 ∧ k.root = true) ∧
    (∃ (s : State) (c : Nat) (cvid : Nat) (seq : Nat) (i : Nat), c < 1152 ∧ (rout s c).comb.findIdx? (fun k => k.cvid == cvid && k.seq == seq) = some i) ∧
    (∃ (s : State) (c : Nat) (req : Req) (lo : Word) (hi : Word), c < 1152 ∧ Granted s req (qPage c) 0x94 (lo.toNat &&& 0xFCFFFFFF) ∧ Granted s req (qPage c) 0x98 hi.toNat ∧ (chan s c (bits lo.toNat 0 10)).state = 0) :=
  ⟨⟨(setSlot (setHandle (wJun wUp) 0 2 { state := 1, slot := 3 }) 0 3 { j0 := { st := 1 } }), (0), (3), (0), ({ type := 1, handle := 2, len := 8, data := [5], cmask := 1 }), by decide +kernel⟩,
   ⟨(setCore (fdSet (wJun wUp) (qPage 0) (fQENG_J_CFG_MODE.at 3) 1) 0 { qe := { slots := [(3, { j0 := { st := 1 } })] }, sp := { words := [(512, 1)] } }), (0), (3), (0), (0), by decide +kernel⟩,
   ⟨(setSlot (setChan (fdSet (wJun wUp) (qPage 0) (fQENG_J_FWD_FWDEN.at 3) 1) 0 0 { state := 2, maxlen := 64 }) 0 3 { j0 := { st := 2 } }), (0), (3), by decide +kernel⟩,
   ⟨(setRout wUp 0 { bufs := [(2, [{ type := 1, vc := 2, dunit := 1, merge := true, cmask := 2 }]), ], held := [{ type := 1, vc := 2, dunit := 1, merge := true, cmask := 1 }] } |> fun s => setRout s 1 { bufs := [(18, List.replicate 20 {})] }), (0), (0), (0), ({ type := 1, vc := 2, dunit := 1, merge := true, cmask := 2 }), ([]), by decide +kernel⟩,
   ⟨(setRout wUp 0 { bufs := [(2, [{ type := 1, vc := 2, dunit := 1, merge := true, cmask := 2 }])] } |> fun s => setRout s 1 { bufs := [(18, List.replicate 20 {})] }), (0), (0), ({ type := 1, vc := 2, dunit := 1, merge := true, cmask := 2 }), ([]), by decide +kernel⟩,
   ⟨(setRout wUp 0 { rep := [(0, BitVec.ofNat 64 (5 + 2 ^ 18 + 2 ^ 43))] }), (0), (0), ({ type := 2, cvid := 5 }), by decide +kernel⟩,
   ⟨(setRout wUp 0 { comb := [{ cvid := 5, seq := 0, att := 0, ret := {}, root := true, due := 2 }] }), (0), (0), ({ type := 3, cvid := 5, code := 3 }), ({ cvid := 5, seq := 0, att := 0, ret := {}, root := true, due := 2 }), by decide +kernel⟩,
   ⟨(setRout wUp 0 { comb := [{ cvid := 5, seq := 0, att := 0, ret := {}, root := true, due := 1 }] }), (0), (0), ({ type := 3, cvid := 5, code := 3 }), ({ cvid := 5, seq := 0, att := 0, ret := {}, root := true, due := 1 }), by decide +kernel⟩,
   ⟨(setRout wUp 0 { comb := [{ cvid := 5, seq := 0, att := 0, ret := {}, root := true, due := 1 }] }), (0), (5), (0), (0), by decide +kernel⟩,
   ⟨(wUp), (0), (.hub), (0x401), (0), by decide +kernel⟩⟩

theorem witness_junction_commands_complete_2 :
    (∃ (s : State) (c : Nat) (req : Req) (lo : Word) (hi : Word), c < 1152 ∧ Granted s req (qPage c) 0x94 ((lo.toNat &&& 0xFDFFFFFF) ||| 0x01000000) ∧ Granted s req (qPage c) 0x98 hi.toNat ∧ (handle s c (bits lo.toNat 0 10)).state = 0 ∧ ((qKind s c (bits lo.toNat 18 6) = 1 ∨ qKind s c (bits lo.toNat 18 6) = 2)) ∧ qOpen s c (bits lo.toNat 18 6) = true) ∧
    (∃ (s : State) (c : Nat) (req : Req) (lo : Word) (hi : Word), c < 1152 ∧ Granted s req (qPage c) 0x94 ((lo.toNat &&& 0xFEFFFFFF) ||| 0x02000000) ∧ Granted s req (qPage c) 0x98 hi.toNat ∧ (chan s c (bits lo.toNat 0 10)).state = 4) ∧
    (∃ (s : State) (c : Nat) (req : Req) (lo : Word) (hi : Word), c < 1152 ∧ Granted s req (qPage c) 0x94 (lo.toNat ||| 0x03000000) ∧ Granted s req (qPage c) 0x98 hi.toNat) ∧
    (∃ (s : State) (c : Nat) (q : Nat) (req : Req) (v : Word), c < 1152 ∧ Granted s req (qPage c) 0x88 v.toNat ∧ q = bits v.toNat 0 6) :=
  ⟨⟨(fdSet (fdSet wUp (qPage 0) (fQENG_Q_CFG_KIND.at 3) 1) (qPage 0) (fQENG_Q_CFG_OPEN.at 3) 1), (0), (.hub), (0x0C0001), (9), by decide +kernel⟩,
   ⟨(setChan wUp 0 1 { state := 4 }), (0), (.hub), (1), (0), by decide +kernel⟩,
   ⟨(setHandle wUp 0 1 { state := 1, conv := true }), (0), (.hub), (1), (0), by decide +kernel⟩,
   ⟨(setSlot (wJun wUp) 0 3 { jround := 7 }), (0), (3), (.host), (3), by decide +kernel⟩⟩

theorem witness_carriageway_commands_complete :
    (∃ (s : State) (c : Nat) (inp : Nat) (vc : Nat) (dir : Nat) (aged : List Nat) (p : Pkt) (l : List Pkt), c < 1152 ∧ inp < 5 ∧ vc < 4 ∧ bufOf s c inp vc = p :: l ∧ badHeader p = false ∧ retired s (c / 144) p.sepoch = false ∧ isHere s c p = false ∧ routerOut s c p = (dir, true) ∧ 1 ≤ dir ∧ dir ≤ 4 ∧ closed s (cmRouter (meshNext c dir).1) = false ∧ routerTurn s c inp vc dir aged = true) ∧
    (∃ (s : State) (c : Nat) (inp : Nat) (vc : Nat) (dir : Nat) (aged : List Nat) (p : Pkt) (l : List Pkt), c < 1152 ∧ inp < 5 ∧ vc < 4 ∧ bufOf s c inp vc = p :: l ∧ badHeader p = false ∧ retired s (c / 144) p.sepoch = false ∧ isHere s c p = false ∧ routerOut s c p = (dir, true) ∧ 1 ≤ dir ∧ dir ≤ 4 ∧ closed s (cmRouter (meshNext c dir).1) = true ∧ routerTurn s c inp vc dir aged = true) ∧
    (∃ (s : State) (c : Nat) (inp : Nat) (vc : Nat) (aged : List Nat) (p : Pkt) (l : List Pkt), c < 1152 ∧ inp < 6 ∧ vc < 4 ∧ bufOf s c inp vc = p :: l ∧ badHeader p = false ∧ retired s (c / 144) p.sepoch = false ∧ isHere s c p = true ∧ p.type = 3 ∧ coreGone s c = false ∧ routerTurn s c inp vc 0 aged = true) ∧
    (∃ (s : State) (c : Nat) (i : Nat) (p : Pkt), c < 1152 ∧ corePaired s c = false ∧ launchable s c = some (i, p) ∧ byEn p = false ∧ p.type ≠ 2 ∧ p.ddev = selfDev s (c / 144) ∧ p.ddie = c / 144 ∧ p.dunit < 144 ∧ bufOn s c 0 p.vc = true) ∧
    (∃ (s : State) (c : Nat) (i : Nat) (p : Pkt), c < 1152 ∧ corePaired s c = false ∧ launchable s c = some (i, p) ∧ byEn p = false ∧ p.type ≠ 2 ∧ ((p.ddev ≠ selfDev s (c / 144) ∨ p.ddie ≠ c / 144 ∨ 144 ≤ p.dunit)) ∧ swOn s (c / 144) (c % 144) p.vc = true) ∧
    (∃ (s : State) (d : Nat) (n : Nat) (aged : List Nat) (p : Pkt), d < 9 ∧ (net s d).sw[n]? = some p ∧ badHeader p = false ∧ retired s d p.sepoch = false ∧ swTo s d p = .unit p.dunit ∧ swHead s d n p = true ∧ swReady s d p (.unit p.dunit) = true ∧ swTurn s d n p aged = true) ∧
    (∃ (s : State) (d : Nat) (n : Nat) (side : Nat) (b : Nat) (d2 : Nat) (side2 : Nat) (aged : List Nat) (p : Pkt), d < 9 ∧ (net s d).sw[n]? = some p ∧ badHeader p = false ∧ retired s d p.sepoch = false ∧ swTo s d p = .bridge side b d2 side2 ∧ d2 ≠ d ∧ closed s (cmBridge ((sideBridges d side).getD b 38)) = false ∧ swHead s d n p = true ∧ swReady s d p (.bridge side b d2 side2) = true ∧ swTurn s d n p aged = true) ∧
    (∃ (s : State) (d : Nat) (n : Nat) (side : Nat) (b : Nat) (d2 : Nat) (side2 : Nat) (aged : List Nat) (p : Pkt), d < 9 ∧ (net s d).sw[n]? = some p ∧ badHeader p = false ∧ retired s d p.sepoch = false ∧ swTo s d p = .bridge side b d2 side2 ∧ d2 ≠ d ∧ closed s (cmBridge ((sideBridges d side).getD b 38)) = true ∧ swHead s d n p = true ∧ swReady s d p (.bridge side b d2 side2) = true ∧ swTurn s d n p aged = true) ∧
    (∃ (s : State) (c : Nat) (p : Pkt), c < 1152 ∧ p.type = 10 ∧ p.auth = 0 ∧ p.addr % 8 = 0 ∧ p.rlen % 8 = 0 ∧ p.rlen ≤ 512 ∧ p.addr % 2 ^ 23 / 8 + p.rlen / 8 ≤ 1048576 ∧ p.data.length = p.rlen / 8 ∧ ((∀ i, i < p.rlen / 8 → bankAsk s c (if p.sunit = 0xE0 ∨ p.sunit = 0xE1 then whoTest else whoExt) (p.addr % 2 ^ 23 / 8 + i) = (s, none))) ∧ SpadInv s ∧ toMesh s c ({ ddev := p.sdev, ddie := p.sdie, dunit := p.sunit } : Pkt) = false) ∧
    (∃ (s : State) (c : Nat) (p : Pkt), c < 1152 ∧ p.type = 10 ∧ p.auth = 0 ∧ p.addr % 8 = 0 ∧ p.rlen % 8 = 0 ∧ p.rlen ≤ 512 ∧ p.addr % 2 ^ 23 / 8 + p.rlen / 8 ≤ 1048576 ∧ p.data.length = p.rlen / 8 ∧ ((∀ i, i < p.rlen / 8 → bankAsk s c (if p.sunit = 0xE0 ∨ p.sunit = 0xE1 then whoTest else whoExt) (p.addr % 2 ^ 23 / 8 + i) = (s, none))) ∧ SpadInv s ∧ toMesh s c ({ ddev := p.sdev, ddie := p.sdie, dunit := p.sunit } : Pkt) = true) :=
  ⟨⟨(setRout wUp 0 { bufs := [(3, [{ type := 0, vc := 3, dunit := 1 }])] }), (0), (0), (3), (2), ([]), ({ type := 0, vc := 3, dunit := 1 }), ([]), by decide +kernel⟩,
   ⟨({ setRout wUp 0 { bufs := [(3, [{ type := 0, vc := 3, dunit := 1 }])] } with fieldMap := [(cmRouter 1 / 32, BitVec.ofNat 32 (2 ^ (cmRouter 1 % 32)))] }), (0), (0), (3), (2), ([]), ({ type := 0, vc := 3, dunit := 1 }), ([]), by decide +kernel⟩,
   ⟨(setRout wUp 0 { bufs := [(1, [{ type := 3, vc := 1 }])] }), (0), (0), (1), ([]), ({ type := 3, vc := 1 }), ([]), by decide +kernel⟩,
   ⟨(setQe wUp 0 { inj := [{ type := 3, vc := 1, dunit := 4 }] }), (0), (0), ({ type := 3, vc := 1, dunit := 4 }), by decide +kernel⟩,
   ⟨(setQe wUp 0 { inj := [{ type := 3, vc := 1, ddie := 2, dunit := 4 }] }), (0), (0), ({ type := 3, vc := 1, ddie := 2, dunit := 4 }), by decide +kernel⟩,
   ⟨(setNet wUp 0 { sw := [{ type := 8, vc := 0, dunit := 0xA3 }] }), (0), (0), ([]), ({ type := 8, vc := 0, dunit := 0xA3 }), by decide +kernel⟩,
   ⟨(wr (setNet wUp 0 { sw := [{ type := 8, vc := 0, ddie := 1, dunit := 0xA3 }] }) (diePage .sign 0) 0x84 1), (0), (0), (1), (3), (1), (3), ([]), ({ type := 8, vc := 0, ddie := 1, dunit := 0xA3 }), by decide +kernel⟩,
   ⟨({ wr (setNet wUp 0 { sw := [{ type := 8, vc := 0, ddie := 1, dunit := 0xA3 }] }) (diePage .sign 0) 0x84 1 with fieldMap := [(2, 15)] }), (0), (0), (1), (3), (1), (3), ([]), ({ type := 8, vc := 0, ddie := 1, dunit := 0xA3 }), by decide +kernel⟩,
   ⟨(wBanks wUp), (0), ({ type := 10, vc := 3, sdie := 8, rlen := 8, addr := 16, data := [5] }), by decide +kernel⟩,
   ⟨(wBanks wUp), (0), ({ type := 10, vc := 3, rlen := 8, addr := 16, data := [5] }), by decide +kernel⟩⟩

theorem witness_carriageway_commands_complete_2 :
    (∃ (s : State) (c : Nat) (p : Pkt), c < 1152 ∧ p.type = 8 ∧ p.auth = 0 ∧ (List.range (p.rlen / 8)).all (fun i => tget 0 (core s c).sp.flips (p.addr % 2 ^ 23 / 8 + i) == 0) = true ∧ p.addr % 8 = 0 ∧ p.rlen % 8 = 0 ∧ p.rlen ≤ 512 ∧ p.addr % 2 ^ 23 / 8 + p.rlen / 8 ≤ 1048576 ∧ ((∀ i, i < p.rlen / 8 → bankAsk s c (if p.sunit = 0xE0 ∨ p.sunit = 0xE1 then whoTest else whoExt) (p.addr % 2 ^ 23 / 8 + i) = (s, none))) ∧ toMesh s c ({ ddev := p.sdev, ddie := p.sdie, dunit := p.sunit } : Pkt) = false) ∧
    (∃ (s : State) (c : Nat) (p : Pkt), c < 1152 ∧ p.type = 8 ∧ p.auth = 0 ∧ (List.range (p.rlen / 8)).all (fun i => tget 0 (core s c).sp.flips (p.addr % 2 ^ 23 / 8 + i) == 0) = true ∧ p.addr % 8 = 0 ∧ p.rlen % 8 = 0 ∧ p.rlen ≤ 512 ∧ p.addr % 2 ^ 23 / 8 + p.rlen / 8 ≤ 1048576 ∧ ((∀ i, i < p.rlen / 8 → bankAsk s c (if p.sunit = 0xE0 ∨ p.sunit = 0xE1 then whoTest else whoExt) (p.addr % 2 ^ 23 / 8 + i) = (s, none))) ∧ toMesh s c ({ ddev := p.sdev, ddie := p.sdie, dunit := p.sunit } : Pkt) = true) ∧
    (∃ (s : State) (c : Nat) (en : Nat), c < 1152 ∧ missEn s c = some en ∧ (rout s c).miss.length < 4 ∧ (net s (c / 144)).walks.length < 32) ∧
    (∃ (s : State) (c : Nat) (d : Nat) (en : Nat) (b : Nat) (a : Nat) (w : Nat), c < 1152 ∧ d = c / 144 ∧ (net s d).walks.contains en = true ∧ b = injEpoch s d 0xE8 ∧ a = 2 ^ 25 * fd s (diePage .sign d) fSIGN_TBL_LO_BASE + 2 ^ 32 * fd s (diePage .sign d) fSIGN_TBL_HI_BASE + 8 * en ∧ reqCode s (place s b a).1 { type := 8, sepoch := b, sdie := d, sunit := 0xE8, addr := a, rlen := 8 } = cOK ∧ (slice s (place s b a).1).q = [] ∧ (blocksOf (phys s b a) 8).all (fun x => tget 0 s.merr x == 0) = true ∧ (memRead s b a 8).2 = false ∧ w = leNat (memRead s b a 8).1 ∧ bit w 0 = true ∧ bits w 24 22 = en ∧ (rout s c).miss.find? (fun m => m.en == en) = some ⟨en, false⟩) ∧
    (∃ (s : State) (d : Nat) (req : Req) (v : Word), d < 9 ∧ Granted s req (diePage .sign d) 0x54 (v.toNat ||| 0x80000000)) ∧
    (∃ (s : State) (k : Cast) (l : List Cast), s.inval = k :: l ∧ acked s k = true) ∧
    (∃ (s : State) (d : Nat) (req : Req) (v : Word), d < 9 ∧ Granted s req (diePage .sign d) 0x50 (v.toNat ||| 2) ∧ s.flip = none ∧ retired s d (1 - fd s (diePage .sign d) fSIGN_STATUS_INJ_EPOCH) = true) ∧
    (∃ (s : State) (k : Cast), s.flip = some k ∧ acked s k = true) ∧
    (∃ (s : State) (d : Nat) (b : Nat) (req : Req) (v : Word), d < 9 ∧ b < 2 ∧ Granted s req (diePage .sign d) 0x58 v.toNat ∧ bit v.toNat b = true) ∧
    (∃ (s : State) (d : Nat) (b : Nat) (req : Req), d < 9 ∧ b < 2 ∧ Readable s req (diePage .sign d) (0x5C + 4 * b)) :=
  ⟨⟨(wBanks wUp), (0), ({ type := 8, vc := 0, sdie := 8, rlen := 8, addr := 16 }), by decide +kernel⟩,
   ⟨(wBanks wUp), (0), ({ type := 8, vc := 0, rlen := 8, addr := 16 }), by decide +kernel⟩,
   ⟨(setQe wUp 0 { inj := [{ type := 0, vc := 3, den := 9 }] }), (0), (9), by decide +kernel⟩,
   ⟨(setRout (setNet { fdSet wUp (memcPage 0) fMEMC_STATUS_STATE 2 with mem := memPutAll [] 0 (natLe 8 0x50001) } 0 { walks := [0] }) 0 { miss := [⟨0, false⟩] }), (0), (0), (0), (0), (0), (0x50001), by decide +kernel⟩,
   ⟨(wUp), (8), (.hub), (7), by decide +kernel⟩,
   ⟨({ wUp with inval := [{ die := 0 }], fieldMap := [(0, 0x7FF)] }), ({ die := 0 }), ([]), by decide +kernel⟩,
   ⟨(fdSet wUp (diePage .sign 8) fSIGN_EPCTL_RETIRE1 1), (8), (.hub), (1), by decide +kernel⟩,
   ⟨({ wUp with flip := some { die := 0 }, fieldMap := [(0, 0x7FF)] }), ({ die := 0 }), by decide +kernel⟩,
   ⟨(wUp), (3), (1), (.hub), (2), by decide +kernel⟩,
   ⟨(wUp), (3), (1), (.hub), by decide +kernel⟩⟩

theorem witness_carriageway_commands_complete_3 :
    (∃ (s : State) (old : Nat), old = 1 - fd s (hubPage .sign) fSIGN_STATUS_INJ_EPOCH ∧ s.flip = none ∧ retired s 8 old = false ∧ epTotal s old ≠ 0) ∧
    (∃ (s : State) (c : Nat) (req : Req) (v : Word), c < 1152 ∧ Granted s req (rPage c) 0x68 (v.toNat ||| 1)) ∧
    (∃ (s : State) (c : Nat) (req : Req) (lo : Word) (hi : Word), c < 1152 ∧ Granted s req (rPage c) 0x50 lo.toNat ∧ Granted s req (rPage c) 0x54 hi.toNat ∧ retired s (c / 144) (fd s (rPage c) fROUT_REP_SEL_BANK) = true) ∧
    (∃ (s : State) (c : Nat) (req : Req) (v : Word), c < 1152 ∧ Granted s req (rPage c) 0x60 v.toNat) :=
  ⟨⟨(epAdd (fdSet wUp (hubPage .sign) fSIGN_EPCTL_RETIRE1 0) 8 0xE0 1 true), (1), by decide +kernel⟩,
   ⟨(wUp), (0), (.hub), (0), by decide +kernel⟩,
   ⟨(fdSet (fdSet wUp (rPage 0) fROUT_REP_SEL_BANK 1) (diePage .sign 0) fSIGN_EPCTL_RETIRE1 1), (0), (.hub), (5), (6), by decide +kernel⟩,
   ⟨(wUp), (0), (.hub), (3), by decide +kernel⟩⟩

theorem witness_footpath_commands_complete :
    (∃ (flit : Word), flitMtype flit = 1 ∧ ((flitDdie flit < 11 ∧ nodeOk (flitDdie flit) (flitDnode flit) = true ∨ flitDdie flit = 15 ∧ nodeOk 0 (flitDnode flit) = true))) ∧
    (∃ (s : State) (u : State) (flit : Word) (req : Req) (page : Nat) (off : Nat) (x : Nat) (code : Nat), flitMtype flit = 2 ∧ flitDdie flit < 11 ∧ nodeOk (flitDdie flit) (flitDnode flit) = true ∧ flitOwns flit page = true ∧ readCode s req (page % 32768) (off % 4096) = (u, x, code)) ∧
    (∃ (flit : Word), flitMtype flit = 3 ∧ flitDdie flit < 11 ∧ nodeOk (flitDdie flit) (flitDnode flit) = true) ∧
    (∃ (flit : Word), flitMtype flit = 4 ∧ flitDdie flit < 11 ∧ nodeOk (flitDdie flit) (flitDnode flit) = true) ∧
    (∃ (s : State) (flit : Word) (id : Nat) (c : Nat), flitMtype flit = 5 ∧ flitDdie flit < 8 ∧ nodeOk (flitDdie flit) (flitDnode flit) = true ∧ c ∈ dieCtxCores s (flitDdie flit) id) ∧
    (∃ (flit : Word), flitMtype flit = 6 ∧ flitDdie flit < 11 ∧ nodeOk (flitDdie flit) (flitDnode flit) = true) ∧
    (∃ (s : State) (flit : Word), flitMtype flit = 9 ∧ flitDdie flit < 8 ∧ flitDnode flit < 144 ∧ coreGone s (144 * flitDdie flit + flitDnode flit) = false) ∧
    (∃ (flit : Word), flitMtype flit = 9 ∧ flitDdie flit < 11 ∧ nodeOk (flitDdie flit) (flitDnode flit) = true ∧ ((8 ≤ flitDdie flit ∨ 144 ≤ flitDnode flit))) ∧
    (∃ (flit : Word) (sel : Word) (en : Nat), flitMtype flit = 0xA ∧ flitDdie flit < 8 ∧ flitDnode flit < 144 ∧ castHits (invalOf sel) en = true) ∧
    (∃ (flit : Word), flitMtype flit = 0xB ∧ flitDdie flit < 8 ∧ flitDnode flit < 144) :=
  ⟨⟨(0x010F8010), by decide +kernel⟩,
   ⟨(wUp), (wUp), (0x020F8010), (.hub), (8), (0x38), (0), (0), by decide +kernel⟩,
   ⟨(0x030F8000), by decide +kernel⟩,
   ⟨(0x040F8000), by decide +kernel⟩,
   ⟨(wr wUp (corePage .core 0) 0xC 0x10040), (0x050F8000), (1), (0), by decide +kernel⟩,
   ⟨(0x06000E10), by decide +kernel⟩,
   ⟨(wUp), (0x09000000), by decide +kernel⟩,
   ⟨(0x09000E08), by decide +kernel⟩,
   ⟨(0x0A000000), (7), (7), by decide +kernel⟩,
   ⟨(0x0B000000), by decide +kernel⟩⟩

theorem witness_footpath_commands_complete_2 :
    (∃ (s : State) (flit : Word) (k : Cast) (l : List Cast) (r : List Cast), flitMtype flit = 0xC ∧ flitDdie flit < 11 ∧ nodeOk (flitDdie flit) (flitDnode flit) = true ∧ s.inval = l ++ k :: r ∧ l.all (fun x => tget false x.acks (256 * flitSdie flit + flitSnode flit)) = true ∧ tget false k.acks (256 * flitSdie flit + flitSnode flit) = false) ∧
    (∃ (s : State) (flit : Word) (k : Cast), flitMtype flit = 0xC ∧ flitDdie flit < 11 ∧ nodeOk (flitDdie flit) (flitDnode flit) = true ∧ s.flip = some k) ∧
    (∃ (flit : Word) (b : Nat), flitMtype flit = 0xD ∧ flitDdie flit < 11 ∧ nodeOk (flitDdie flit) (flitDnode flit) = true ∧ b < 2) ∧
    (∃ (d : Nat) (dest : Nat), d < 11 ∧ dest < 11) :=
  ⟨⟨({ wUp with inval := [{ die := 0 }] }), (0x0C000F80), ({ die := 0 }), ([]), ([]), by decide +kernel⟩,
   ⟨({ wUp with flip := some { die := 0 } }), (0x0C000F80), ({ die := 0 }), by decide +kernel⟩,
   ⟨(0x0D000F80), (1), by decide +kernel⟩,
   ⟨(3), (4), by decide +kernel⟩⟩

theorem witness_memory_commands_complete :
    (∃ (s : State) (g : Nat) (p : Pkt), g < 512 ∧ ((p.type = 8 ∨ p.type = 10)) ∧ reqCode s g p = cOK ∧ (slice s g).q.length < 64 ∧ ((p.type = 10 → ringFull s g = false))) ∧
    (∃ (s : State) (g : Nat) (p : Pkt), g < 512 ∧ ((p.type = 8 ∨ p.type = 10)) ∧ reqCode s g p ≠ cOK) ∧
    (∃ (s : State) (g : Nat) (i : Nat) (p : Pkt), g < 512 ∧ (slice s g).q[i]? = some p ∧ p.type = 8 ∧ mayServe s g i p = true ∧ (blocksOf (phys s p.sepoch p.addr) p.rlen).all (fun x => tget 0 s.merr x == 0) = true) ∧
    (∃ (s : State) (g : Nat) (i : Nat) (x : Nat) (p : Pkt) (bs : List Byte), g < 512 ∧ (slice s g).q[i]? = some p ∧ p.type = 10 ∧ mayServe s g i p = true ∧ (slice s g).ss = 0 ∧ x = phys s p.sepoch p.addr ∧ bs = (wordBytes p.data).take p.rlen ∧ MemInv s) ∧
    (∃ (s : State) (g : Nat), g < 512 ∧ fb s (memcPage (g / 32)) fMEMC_SCRUB_EN = true ∧ fd s (memcPage (g / 32)) fMEMC_STATUS_STATE = 2 ∧ sliceClosed s g = false ∧ (slice s g).q = []) ∧
    (∃ (g : Nat), g < 512) ∧
    (∃ (m : Nat), m < 16) ∧
    (∃ (s : State) (m : Nat) (req : Req) (v : Word), m < 16 ∧ Granted s req (memcPage m) 0x44 (v.toNat ||| 1)) ∧
    (∃ (s : State) (m : Nat) (f : Bool), m < 16 ∧ (stack s m).train = some f) ∧
    (∃ (s : State) (m : Nat) (ch : Nat), m < 16 ∧ ch < 32 ∧ fb s (memcPage m) fMEMC_RECAL_EN = true ∧ fd s (memcPage m) fMEMC_STATUS_STATE = 2 ∧ (stack s m).window = none ∧ sliceClosed s (32 * m + ch) = false ∧ (stack s m).granted = some ch) :=
  ⟨⟨(wMem), (0), ({ type := 8, sunit := 0xE0, rlen := 64 }), by decide +kernel⟩,
   ⟨(wMem), (0), ({ type := 8, sunit := 3, rlen := 64 }), by decide +kernel⟩,
   ⟨(setSlice wMem 0 { q := [{ type := 8, sunit := 0xE0, rlen := 64 }] }), (0), (0), ({ type := 8, sunit := 0xE0, rlen := 64 }), by decide +kernel⟩,
   ⟨(setSlice wMem 0 { q := [{ type := 10, sunit := 0xE0, rlen := 8, data := [5] }] }), (0), (0), (0), ({ type := 10, sunit := 0xE0, rlen := 8, data := [5] }), (natLe 8 5), by decide +kernel⟩,
   ⟨(fdSet wMem (memcPage 0) fMEMC_SCRUB_EN 1), (0), by decide +kernel⟩,
   ⟨(5), by decide +kernel⟩,
   ⟨(3), by decide +kernel⟩,
   ⟨(wUp), (3), (.hub), (2), by decide +kernel⟩,
   ⟨(setStack wUp 3 { train := some false }), (3), (false), by decide +kernel⟩,
   ⟨(setStack (fdSet wMem (memcPage 0) fMEMC_RECAL_EN 1) 0 { granted := some 3 }), (0), (3), by decide +kernel⟩⟩

theorem witness_memory_commands_complete_2 :
    (∃ (s : State) (m : Nat) (ch : Nat), m < 16 ∧ (stack s m).window = some ch) ∧
    (∃ (s : State) (m : Nat) (ch : Nat), m < 16 ∧ (stack s m).window = some ch ∧ (slice s (32 * m + ch)).fails < 2) ∧
    (∃ (s : State) (m : Nat) (n : Nat) (req : Req) (lo : Word), m < 16 ∧ 2 ≤ n ∧ n < 34 ∧ Granted s req (memcPage m) (0xA0 + 4 * (n - 2)) lo.toNat ∧ retired s (m / 2) ((n - 2) / 16) = true) ∧
    (∃ (s : State) (m : Nat) (n : Nat) (req : Req) (lo : Word) (hi : Word), m < 16 ∧ n < 2 ∧ Granted s req (memcPage m) (0x80 + 8 * n) lo.toNat ∧ Granted s req (memcPage m) (0x84 + 8 * n) hi.toNat ∧ hi.toNat < 2 ^ 30 ∧ retired s (m / 2) n = true) ∧
    (∃ (m : Nat), m < 16) ∧
    (∃ (s : State) (m : Nat) (req : Req) (v : Word), m < 16 ∧ Granted s req (memcPage m) 0x64 v.toNat) ∧
    (∃ (m : Nat), m < 16) ∧
    (∃ (s : State) (m : Nat) (b : Nat) (req : Req) (v : Word), m < 16 ∧ Granted s req (memcPage m) 0x6C (v.toNat ||| 1) ∧ bit v.toNat 1 = false ∧ retiredBank s (m / 2) = some b ∧ spareOf s b m = some (fd s (memcPage m) fMEMC_SLICE_SEL_SLICE) ∧ sliceClosed s (32 * m + fd s (memcPage m) fMEMC_SLICE_SEL_SLICE) = false ∧ (slice s (32 * m + fd s (memcPage m) fMEMC_SLICE_SEL_SLICE)).ss = 0) ∧
    (∃ (s : State) (g : Nat), g < 512 ∧ (slice s g).ss = 1 ∧ MemInv s) ∧
    (∃ (s : State) (m : Nat) (req : Req) (v : Word), m < 16 ∧ Granted s req (memcPage m) 0x6C (v.toNat ||| 2) ∧ bit v.toNat 0 = false ∧ sliceClosed s (32 * m + fd s (memcPage m) fMEMC_SLICE_SEL_SLICE) = false ∧ sliceCloseReady s m (fd s (memcPage m) fMEMC_SLICE_SEL_SLICE) = true ∧ (slice s (32 * m + fd s (memcPage m) fMEMC_SLICE_SEL_SLICE)).ss ≠ 1 ∧ GradeHolds s) :=
  ⟨⟨(setStack wMem 0 { window := some 3 }), (0), (3), by decide +kernel⟩,
   ⟨(setStack wMem 0 { window := some 3 }), (0), (3), by decide +kernel⟩,
   ⟨(fdSet wUp (diePage .sign 1) fSIGN_EPCTL_RETIRE1 1), (3), (20), (.hub), (0x25), by decide +kernel⟩,
   ⟨(fdSet wUp (diePage .sign 1) fSIGN_EPCTL_RETIRE1 1), (3), (1), (.hub), (0x25), (1), by decide +kernel⟩,
   ⟨(0), by decide +kernel⟩,
   ⟨(wUp), (3), (.hub), (0x10040), by decide +kernel⟩,
   ⟨(0), by decide +kernel⟩,
   ⟨(wr wMem (memcPage 0) 0xE0 0x20), (0), (1), (.hub), (0), by decide +kernel⟩,
   ⟨(setSlice wMem 0 { ss := 1 }), (0), by decide +kernel⟩,
   ⟨(setSlice (wr wMem (memcPage 0) 0xA0 0x20) 0 { ss := 2 }), (0), (.hub), (0), by decide +kernel⟩⟩

theorem witness_link_coding_reads_back :
    (∃ (l : List Nat), (∀ v ∈ l, v < 4)) ∧
    (∃ (v : Nat), v < 4) ∧
    (∃ (m : Message), m.lane < 8 ∧ m.fseq < 4 ∧ m.first < 32 ∧ m.data.length = 80) ∧
    (∃ (k : Pkt) (i : Nat), 8 * i < payload k) ∧
    (∃ (r : List Nat) (c : List Nat) (n : Nat), r.length = 544 ∧ rsDecode r = some (c, n)) :=
  ⟨⟨([3, 0, 2]), by decide +kernel⟩,
   ⟨(3), by decide +kernel⟩,
   ⟨({ lane := 7, fseq := 3, data := List.replicate 80 5 }), by decide +kernel⟩,
   ⟨({ type := 9, rlen := 8 }), (0), by decide +kernel⟩,
   ⟨(List.replicate 544 0), (List.replicate 544 0), (0), by decide +kernel⟩⟩

theorem witness_link_commands_complete :
    (∃ (s : State) (p : Nat) (lane : Nat) (cw : Codeword) (m : Message) (n : Nat), p < 40 ∧ lane < 9 ∧ pState s p = 3 ∧ bit (port s p).unlocked lane = false ∧ codewordRead (tget {} (port s p).rxCode lane) cw.line = some (m, n) ∧ m.spare = false ∧ (port s p).asm = [] ∧ (port s p).rxFrame < 2 ^ 32 - 2 ∧ m.fseq % 4 = (port s p).rxFrame % 4 ∧ 2 ≤ (lmapLanes (rd s (portPage p) 0x54)).length) ∧
    (∃ (s : State) (p : Nat) (lane : Nat) (cw : Codeword) (m : Message) (n : Nat), p < 40 ∧ lane < 9 ∧ pState s p = 3 ∧ bit (port s p).unlocked lane = false ∧ codewordRead (tget {} (port s p).rxCode lane) cw.line = some (m, n) ∧ m.spare = false ∧ (port s p).rxFrame < 2 ^ 32 - 2 ∧ m.fseq % 4 = (port s p).rxFrame % 4 ∧ (port s p).asm = [((port s p).rxFrame, (port s p).asm.headD (0, []) |>.2)] ∧ (lmapLanes (rd s (portPage p) 0x54)).length = (tput ((port s p).asm.headD (0, []) |>.2) m.lane (messageBlks m cw.side)).length) ∧
    (∃ (s : State) (p : Nat) (lane : Nat) (cw : Codeword), p < 40 ∧ lane < 9 ∧ pState s p = 3 ∧ bit (port s p).unlocked lane = false ∧ codewordRead (tget {} (port s p).rxCode lane) cw.line = none ∧ (port s p).asm = [] ∧ 2 ≤ (lmapLanes (rd s (portPage p) 0x54)).length) ∧
    (∃ (s : State) (p : Nat) (lane : Nat), p < 40 ∧ lane < 9 ∧ 3 ≤ pState s p ∧ pState s p ≤ 5 ∧ bit (port s p).unlocked lane = true) ∧
    (∃ (s : State) (p : Nat), p < 40 ∧ 3 ≤ pState s p ∧ pState s p ≤ 5 ∧ s.twin.fenced = false ∧ fb s (diePage .clk (portDie p)) fCLK_STATUS_SREF_LOST = false ∧ (port s p).swapTx = none ∧ (port s p).txSpare = none ∧ (lmapLanes (rd s (portPage p) 0x50)).Nodup) ∧
    (∃ (s : State) (p : Nat) (b : LinkBlk) (l : List LinkBlk), p < 40 ∧ 3 ≤ pState s p ∧ pState s p ≤ 5 ∧ s.twin.fenced = false ∧ fb s (diePage .clk (portDie p)) fCLK_STATUS_SREF_LOST = false ∧ (port s p).blks = b :: l ∧ (port s p).rest = [] ∧ lmapLanes (rd s (portPage p) 0x50) ≠ []) ∧
    (∃ (s : State) (p : Nat) (k : Pkt), p < 40 ∧ live s p = true ∧ (port s p).quiet < 15 ∧ s.twin.fenced = false ∧ fb s (diePage .clk (portDie p)) fCLK_STATUS_SREF_LOST = false ∧ (port s p).blks = [] ∧ (port s p).rest = [] ∧ (port s p).tx = [k] ∧ mayStart s p k = true ∧ 4 ≤ (lmapLanes (rd s (portPage p) 0x50)).length ∧ blkCount k ≤ 19) ∧
    (∃ (s : State) (p : Nat) (i : Nat) (aged : List Nat) (k : Pkt), live s p = true ∧ (port s p).quiet < 15 ∧ (port s p).blks = [] ∧ txPick s p aged = some i ∧ (port s p).tx[i]? = some k) ∧
    (∃ (s : State) (p : Nat) (dev : Nat) (peer : Nat) (kind : Nat), p < 40 ∧ pState s p ≠ 0 ∧ pState s p ≠ 7 ∧ ((pState s p = 6 ∨ mismatch s p (dev % 1024) (peer % 64) (kind % 2) = false)) ∧ GradeHolds s) ∧
    (∃ (s : State) (p : Nat) (dev : Nat) (peer : Nat) (kind : Nat), p < 40 ∧ pState s p ≠ 0 ∧ pState s p ≠ 6 ∧ pState s p ≠ 7 ∧ mismatch s p (dev % 1024) (peer % 64) (kind % 2) = true ∧ GradeHolds s) :=
  ⟨⟨(wCode 3 []), (3), (0), ({}), (wMessage), (0), by decide +kernel⟩,
   ⟨(wCode 3 [(0, [(1, []), (2, []), (3, [])])]), (3), (0), ({}), (wMessage), (0), by decide +kernel⟩,
   ⟨(setPort (wCode 3 []) 3 { port (wCode 3 []) 3 with rxCode := [] }), (3), (0), ({}), by decide +kernel⟩,
   ⟨(setPort (wCode 4 []) 3 { unlocked := 1 }), (3), (0), by decide +kernel⟩,
   ⟨(wCode 4 []), (3), by decide +kernel⟩,
   ⟨(setPort (wCode 4 []) 3 { blks := [{}] }), (3), ({}), ([]), by decide +kernel⟩,
   ⟨(setPort (fdSet (wCode 4 []) (portPage 3) fPORT_CTL_ENABLE 1) 3 { tx := [{ vc := 1 }] }), (3), ({ vc := 1 }), by decide +kernel⟩,
   ⟨(setPort (fdSet (wCode 4 []) (portPage 3) fPORT_CTL_ENABLE 1) 3 { tx := [{ vc := 1 }] }), (3), (0), ([]), ({ vc := 1 }), by decide +kernel⟩,
   ⟨(wr (setPState wUp 3 2) (xPage 9) 0x44 5), (3), (4), (9), (0), by decide +kernel⟩,
   ⟨(setPState wUp 3 2), (3), (0), (9), (0), by decide +kernel⟩⟩

theorem witness_link_commands_complete_2 :
    (∃ (s : State) (p : Nat) (plane : Nat), p < 40 ∧ isUp s p = true ∧ (port s p).txSpare = some plane) ∧
    (∃ (s : State) (p : Nat) (plane : Nat), p < 40 ∧ isUp s p = true ∧ (port s p).rxSpare = some plane ∧ fb s (portPage p) fPORT_STATUS_RXSPARE = true) ∧
    (∃ (s : State) (p : Nat) (l : Nat), p < 40 ∧ pState s p = 4 ∧ isUp (toHalf (fdSet s (portPage p) fPORT_LANE_TXFAIL (fd s (portPage p) fPORT_LANE_TXFAIL ||| 2 ^ (l % 9))) p) p = true ∧ GradeHolds s) ∧
    (∃ (s : State) (p : Nat), p < 40 ∧ pState s p = 4 ∧ (port s p).halfAsk = true ∧ isUp (toHalf s p) p = true ∧ GradeHolds s) ∧
    (∃ (s : State) (p : Nat) (plane : Nat), p < 40 ∧ plane < 9 ∧ 2 ≤ pState s p ∧ pState s p ≤ 5) ∧
    (∃ (s : State) (p : Nat) (k : Pkt), p < 40 ∧ k.type = 14 ∧ k.ddev = xDev s (portDie p) ∧ xRetired s (portDie p) k.xepoch = false ∧ 1 ≤ k.code ∧ k.code ≤ 4 ∧ 1 ≤ k.rlen ∧ k.rlen ≤ 68) ∧
    (∃ (s : State) (p : Nat) (req : Req) (v : Word), p < 40 ∧ Granted s req (portPage p) 0x44 (v.toNat ||| 1) ∧ bit v.toNat 1 = false ∧ pState s p = 0 ∧ closed s (cmPort p) = false) ∧
    (∃ (s : State) (p : Nat) (req : Req) (v : Word), p < 40 ∧ Granted s req (portPage p) 0x44 (v.toNat &&& 0xFFFFFFFE) ∧ bit v.toNat 1 = false ∧ GradeHolds s) ∧
    (∃ (s : State) (p : Nat) (lanes : Nat), p < 40 ∧ pState s p = 1 ∧ 4 ≤ lanes) ∧
    (∃ (s : State) (p : Nat), p < 40 ∧ pState s p = 2 ∧ (fb s (portPage p) fPORT_PEER_VALID && mismatch s p (fd s (portPage p) fPORT_PEER_DEVICE) (fd s (portPage p) fPORT_PEER_PORT) (fd s (portPage p) fPORT_PEER_KIND)) = false) :=
  ⟨⟨(setPort (setPState wUp 3 4) 3 { txSpare := some 8 }), (3), (8), by decide +kernel⟩,
   ⟨(setPort (fdSet (setPState wUp 3 4) (portPage 3) fPORT_STATUS_RXSPARE 1) 3 { rxSpare := some 8 }), (3), (8), by decide +kernel⟩,
   ⟨(wr (wr (setPState wUp 3 4) (portPage 3) 0x50 0x76543210) (portPage 3) 0x54 0x76543210), (3), (7), by decide +kernel⟩,
   ⟨(setPort (wr (wr (setPState wUp 3 4) (portPage 3) 0x50 0x76543210) (portPage 3) 0x54 0x76543210) 3 { halfAsk := true }), (3), by decide +kernel⟩,
   ⟨(setPState wUp 3 2), (3), (8), by decide +kernel⟩,
   ⟨(setPort wUp 3 { rx := [{ type := 14, vc := 1, code := 4, rlen := 1 }] }), (3), ({ type := 14, vc := 1, code := 4, rlen := 1 }), by decide +kernel⟩,
   ⟨(wUp), (3), (.hub), (0x10), by decide +kernel⟩,
   ⟨(setPState wUp 3 4), (3), (.hub), (0x11), by decide +kernel⟩,
   ⟨(setPState wUp 3 1), (3), (8), by decide +kernel⟩,
   ⟨(setPState wUp 3 2), (3), by decide +kernel⟩⟩

theorem witness_link_commands_complete_3 :
    (∃ (s : State) (p : Nat), p < 40 ∧ pState s p = 3 ∧ checkBad s p true = [] ∧ GradeHolds s) ∧
    (∃ (s : State) (p : Nat), p < 40 ∧ pState s p = 3 ∧ checkBad s p false ≠ [] ∧ ((∀ l ∈ checkBad s p false, bit (port s p).tried l = false))) ∧
    (∃ (s : State) (p : Nat), p < 40 ∧ pState s p = 7) ∧
    (∃ (s : State) (p : Nat) (req : Req) (v : Word), p < 40 ∧ Granted s req (portPage p) 0x44 (v.toNat ||| 2) ∧ bit v.toNat 0 = true ∧ pState s p ≠ 0 ∧ GradeHolds s) ∧
    (∃ (s : State) (p : Nat) (plane : Nat) (l : Nat) (sp : Nat), p < 40 ∧ plane < 9 ∧ isUp s p = true ∧ logicalOf (rd s (portPage p) 0x54) plane = some l ∧ fb s (portPage p) fPORT_STATUS_RXSPARE = true ∧ (port s p).rxSpare = some sp ∧ GradeHolds s) ∧
    (∃ (s : State) (p : Nat) (sp : Nat), p < 40 ∧ isUp s p = true ∧ (port s p).rxSpare = some sp ∧ fb s (portPage p) fPORT_STATUS_RXSPARE = false ∧ closed s (cmLane p 0 sp) = false) ∧
    (∃ (s : State) (p : Nat) (sp : Nat) (l : Nat), p < 40 ∧ isUp s p = true ∧ (port s p).txSpare = some sp ∧ (port s p).granted = true ∧ (port s p).swapTx = none ∧ fb s (portPage p) fPORT_CTL_ROT_EN = true ∧ fb s (portPage p) fPORT_STATUS_TXSPARE = true ∧ nextLane (rd s (portPage p) 0x50) sp = some l) ∧
    (∃ (s : State) (p : Nat) (tx : Bool) (x : Swap), p < 40 ∧ (if tx then (port s p).swapTx else (port s p).swapRx) = some x ∧ swapDue (if tx then fd s (portPage p) fPORT_FRAME_FRAME else (port s p).rxFrame) x.frame = true) ∧
    (∃ (s : State) (p : Nat), p < 40 ∧ pState s p = 5 ∧ (port s p).lastHalf = none ∧ closed s (cmPort p) = false ∧ GradeHolds s) ∧
    (∃ (s : State) (p : Nat), p < 40 ∧ isUp s p = true ∧ GradeHolds s) :=
  ⟨⟨(wr (setPState wUp 3 3) (portPage 3) 0x54 0x76543210), (3), by decide +kernel⟩,
   ⟨(wr (setPState wUp 3 3) (portPage 3) 0x54 0x76543210), (3), by decide +kernel⟩,
   ⟨(setPState wUp 3 7), (3), by decide +kernel⟩,
   ⟨(fdSet (setPState wUp 3 4) (portPage 3) fPORT_CTL_ENABLE 1), (3), (.hub), (0x11), by decide +kernel⟩,
   ⟨(setPort (fdSet (wr (setPState wUp 3 4) (portPage 3) 0x54 0x76543210) (portPage 3) fPORT_STATUS_RXSPARE 1) 3 { rxSpare := some 8 }), (3), (2), (2), (8), by decide +kernel⟩,
   ⟨(setPort (setPState wUp 3 4) 3 { rxSpare := some 8 }), (3), (8), by decide +kernel⟩,
   ⟨(setPort (fdSet (wr (setPState wUp 3 4) (portPage 3) 0x50 0x76543210) (portPage 3) fPORT_STATUS_TXSPARE 1) 3 { txSpare := some 8, granted := true }), (3), (8), (0), by decide +kernel⟩,
   ⟨(setPort (wr (setPState wUp 3 4) (portPage 3) 0x50 0x76543210) 3 { swapTx := some { lane := 0, spare := 8, frame := 0 } }), (3), (true), ({ lane := 0, spare := 8, frame := 0 }), by decide +kernel⟩,
   ⟨(setPState wUp 3 5), (3), by decide +kernel⟩,
   ⟨(setPState wUp 3 5), (3), by decide +kernel⟩⟩

theorem witness_route_commands_complete :
    (∃ (s : State) (pd : Nat) (d : Nat) (inp : Nat) (b : Nat) (e : Nat) (n : Nat) (k : Nat) (p : Pkt), pd < 2 ∧ d = 9 + pd ∧ 40 ≤ inp ∧ routes s d inp p = true ∧ p.ddev ≠ xDev s d ∧ b = (if p.sdev = xDev s d then injX s d else p.xepoch) ∧ xRetired s d b = false ∧ e = routeEnt s d b p.ddev ∧ bit e 120 = true ∧ n = (liveOf s (bits e 0 40)).length ∧ n ≠ 0 ∧ k = (liveOf s (bits e 0 40)).getD (Nat.xor (Nat.xor (Nat.xor p.sdev p.sdie) (Nat.xor p.sunit p.ddie)) p.dunit % n) 0 ∧ portDie k = d) ∧
    (∃ (s : State) (pd : Nat) (d : Nat) (inp : Nat) (p : Pkt), pd < 2 ∧ d = 9 + pd ∧ inp < 40 ∧ routes s d inp p = true ∧ p.ddev = xDev s d ∧ flowFirst s d inp p = true ∧ shadowAnswer s d inp p = false ∧ xRetired s d p.xepoch = false) ∧
    (∃ (s : State) (pd : Nat) (d : Nat) (req : Req) (v : Word), pd < 2 ∧ d = 9 + pd ∧ Granted s req (xPage d) 0x48 (v.toNat ||| 2) ∧ bits v.toNat 2 2 = 0 ∧ xFlipping s = false ∧ xRetired s 9 (1 - injX s d) = true ∧ xRetired s 10 (1 - injX s d) = true) ∧
    (∃ (s : State) (pd : Nat) (d : Nat) (b : Nat) (req : Req) (v : Word), pd < 2 ∧ d = 9 + pd ∧ b < 2 ∧ Granted s req (xPage d) 0x48 (v.toNat ||| (4 * 2 ^ b)) ∧ bit v.toNat 1 = false) ∧
    (∃ (s : State) (pd : Nat) (d : Nat) (req : Req) (v : Word), pd < 2 ∧ d = 9 + pd ∧ Granted s req (xPage d) 0x74 v.toNat ∧ xRetired s d (fd s (xPage d) fXTAB_ESEL_BANK) = true) :=
  ⟨⟨({ fdSet (setPState wUp 3 4) (portPage 3) fPORT_CTL_ENABLE 1 with routes := [(9, { ent := [(4, BitVec.ofNat 128 (2 ^ 120 + 8))] })] }), (0), (9), (40), (0), (2 ^ 120 + 8), (1), (3), ({ type := 0, vc := 3, ddev := 4 }), by decide +kernel⟩,
   ⟨(setPort wUp 3 { rx := [{ type := 0, vc := 3 }] }), (0), (9), (3), ({ type := 0, vc := 3 }), by decide +kernel⟩,
   ⟨(wUp), (0), (9), (.hub), (1), by decide +kernel⟩,
   ⟨(wUp), (1), (10), (0), (.hub), (0), by decide +kernel⟩,
   ⟨(fdSet wUp (xPage 9) fXTAB_ESEL_BANK 1), (0), (9), (.hub), (7), by decide +kernel⟩⟩

theorem witness_twin_commands_complete :
    (∃ (s : State) (w : Nat) (p : Pkt), w < 4 ∧ ((p.type = 8 ∨ p.type = 10)) ∧ pst s ≠ 0 ∧ inShadow s p.addr p.rlen = true) ∧
    (∃ (s : State) (w : Nat) (p : Pkt) (a : Pkt), w < 4 ∧ ((p.type = 8 ∨ p.type = 10)) ∧ ((pst s = 0 ∨ inShadow s p.addr p.rlen = false)) ∧ refusal p cDENIED = some a) ∧
    (∃ (s : State) (pd : Nat), pd < 2 ∧ pst s ≠ 0 ∧ s.twin.fenced = false ∧ live s (36 + 2 * pd) = true ∧ live s (37 + 2 * pd) = true) ∧
    (∃ (s : State) (w : Nat), w < 4 ∧ pst s ≠ 0) ∧
    (∃ (s : State), pst s ≠ 0 ∧ s.twin.missed + 1 < fd s twinPage fCAUSE_HB_MISSES) ∧
    (∃ (s : State), ((pst s = 2 ∨ pst s = 3 ∨ pst s = 4 ∨ pst s = 7)) ∧ fd s twinPage fCAUSE_HB_MISSES ≤ s.twin.missed + 1 ∧ s.twin.query = none ∧ cwUp s = []) ∧
    (∃ (s : State), s.twin.query.isSome = true ∧ s.twin.mode ≠ 1 ∧ s.twin.mode ≠ 2 ∧ ((pst s = 2 ∨ pst s = 3 ∨ pst s = 4 ∨ pst s = 7)) ∧ s.twin.role ≠ 5) ∧
    (∃ (s : State), pst s ≠ 2 ∧ pst s ≠ 3 ∧ pst s ≠ 4 ∧ pst s ≠ 7) ∧
    (∃ (s : State) (w : Nat), w < 4 ∧ pst s ≠ 0) ∧
    (∃ (s : State), pst s = 4 ∧ cwUp s = []) :=
  ⟨⟨(wr (wr (wTwin 3) twinPage 0x124 0) twinPage 0x128 16), (1), ({ type := 8, vc := 0, rlen := 64 }), by decide +kernel⟩,
   ⟨(wTwin 0), (1), ({ type := 8, vc := 0, rlen := 64 }), ({ type := 9, vc := 1, code := cDENIED }), by decide +kernel⟩,
   ⟨(wTwin 3), (1), by decide +kernel⟩,
   ⟨(wTwin 3), (0), by decide +kernel⟩,
   ⟨(wTwin 3), by decide +kernel⟩,
   ⟨(setTwin (setPst wUp 3) { missed := 9 }), by decide +kernel⟩,
   ⟨(setTwin (setPst wUp 2) { query := some 0 }), by decide +kernel⟩,
   ⟨(setTwin (setPst wUp 6) { query := some 0 }), by decide +kernel⟩,
   ⟨(wTwin 3), (2), by decide +kernel⟩,
   ⟨(setPst wUp 4), by decide +kernel⟩⟩

theorem witness_twin_commands_complete_2 :
    (∃ (s : State) (r : Nat) (side : Nat) (named : Nat) (k : HCmd), r < 128 ∧ k.ring < 64 ∧ nextCmd s r 7 = some k ∧ entBytes k.entry 8 1 = 1 ∧ entBytes k.entry 9 1 = 0 ∧ entTag k.entry = 0 ∧ cmdCheck s k false = cOK ∧ pst s = 0 ∧ 2 ≤ (cwUp s).length ∧ entBytes k.entry 10 2 ≤ 1023 ∧ side ≠ thisSide s ∧ named = thisDev s ∧ group61Hashed s = true) ∧
    (∃ (s : State) (r : Nat) (k : HCmd), r < 128 ∧ k.ring < 64 ∧ nextCmd s r 7 = some k ∧ entBytes k.entry 8 1 = 2 ∧ ((entBytes k.entry 9 1 = 1 ∨ entBytes k.entry 9 1 = 2)) ∧ entBytes k.entry 10 2 = 0 ∧ entTag k.entry = 0 ∧ cmdCheck s k false = cOK ∧ pst s = 1 ∧ 2 ≤ gradeOf s) ∧
    (∃ (s : State) (r : Nat) (k : HCmd), r < 128 ∧ k.ring < 64 ∧ nextCmd s r 7 = some k ∧ entBytes k.entry 8 1 = 3 ∧ entBytes k.entry 9 1 = 0 ∧ entBytes k.entry 10 2 = 0 ∧ entTag k.entry = 0 ∧ cmdCheck s k false = cOK ∧ ((pst s = 2 ∨ pst s = 3 ∨ pst s = 4))) ∧
    (∃ (s : State) (r : Nat) (k : HCmd), r < 128 ∧ k.ring < 64 ∧ nextCmd s r 7 = some k ∧ entBytes k.entry 8 1 = 4 ∧ entBytes k.entry 9 1 = 0 ∧ entBytes k.entry 10 2 = 0 ∧ entTag k.entry = 0 ∧ cmdCheck s k false = cOK ∧ ((pst s = 1 ∨ pst s = 4))) ∧
    (∃ (s : State) (w : Nat), w < 4 ∧ pst s = 1) ∧
    (∃ (w : Nat), w < 4) ∧
    (∃ (s : State) (w : Nat) (req : Req) (v : Word), w < 4 ∧ Granted s req (cwPage w) 0x10C v.toNat) :=
  ⟨⟨(wCmd (wTwin 0) (7 + 2 ^ 64 + 2 ^ 80 * 5)), (0), (1), (0), ({ ring := 0, entry := 7 + 2 ^ 64 + 2 ^ 80 * 5 }), by decide +kernel⟩,
   ⟨(wCmd (wTwin 1) (7 + 2 ^ 65 + 2 ^ 73)), (0), ({ ring := 0, entry := 7 + 2 ^ 65 + 2 ^ 73 }), by decide +kernel⟩,
   ⟨(wCmd (wTwin 3) (7 + 2 ^ 64 * 3)), (0), ({ ring := 0, entry := 7 + 2 ^ 64 * 3 }), by decide +kernel⟩,
   ⟨(wCmd (wTwin 1) (7 + 2 ^ 66)), (0), ({ ring := 0, entry := 7 + 2 ^ 66 }), by decide +kernel⟩,
   ⟨(wTwin 1), (0), by decide +kernel⟩,
   ⟨(0), by decide +kernel⟩,
   ⟨(wTwin 1), (2), (.hub), (5), by decide +kernel⟩⟩

theorem witness_journal_and_rejoin_commands_complete :
    (∃ (s : State) (m : Word), milesDone s m.toNat = true ∧ fb s twinPage fCAUSE_JCTL_JEN = true ∧ ((∀ g < 512, ringFull s g = false))) ∧
    (∃ (s : State) (w : Nat) (g : Nat) (n : Word), w < 4 ∧ g < 512 ∧ pst s ≠ 0 ∧ n.toNat = (stream s g).exp ∧ (stream s g).held = []) ∧
    (∃ (s : State) (w : Nat) (g : Nat) (n : Word) (m : Word), w < 4 ∧ g < 512 ∧ pst s ≠ 0 ∧ n.toNat = (stream s g).exp ∧ (stream s g).held = [] ∧ ((∀ h < 512, h ≠ g → m.toNat ∈ (stream s h).marks))) ∧
    (∃ (s : State) (w : Nat) (gs : List Nat), (cwLive s)[gs.headD 0 % (cwLive s).length]? = some w ∧ gs = ((List.range 512).filter (fun g => (stream s g).due)).take 64 ∧ gs ≠ []) ∧
    (∃ (w : Nat), w < 4) ∧
    (∃ (s : State) (g : Nat) (w : Nat), g < 512 ∧ pst s ≠ 4 ∧ s.hub.dieRst.any (fun e => e.1 == g / 64) = false ∧ (cwLive s)[g % (cwLive s).length]? = some w) ∧
    (∃ (g : Nat), g < 512) ∧
    (∃ (s : State) (w : Nat) (m : Word) (d : DWord), w < 4 ∧ twinMode s = 2 ∧ s.twin.own.find? (fun e => e.1 == m.toNat) = some (m.toNat, d)) ∧
    (∃ (s : State) (w : Nat) (m : Word) (d : DWord) (e : DWord), w < 4 ∧ twinMode s = 2 ∧ s.twin.own.find? (fun e => e.1 == m.toNat) = some (m.toNat, e) ∧ e ≠ d) ∧
    (∃ (s : State) (w : Nat) (die : Nat) (part : Nat) (i : Nat) (m : Word) (ds : List DWord) (d : DWord) (e : DWord), w < 4 ∧ die < 8 ∧ part < 2 ∧ i < 72 ∧ ds[i]? = some d ∧ tget (0, 0) (net s die).digests (72 * part + i) = (m.toNat, e) ∧ e ≠ d) :=
  ⟨⟨(fdSet (wTwin 3) twinPage fCAUSE_JCTL_JEN 1), (4), by decide +kernel⟩,
   ⟨(wTwin 3), (1), (5), (0), by decide +kernel⟩,
   ⟨(wMarked), (1), (5), (0), (7), by decide +kernel, by decide, by decide +kernel, by decide +kernel, by decide +kernel, fun h hh _ => wMarked_marks h hh⟩,
   ⟨(setTwin (wTwin 3) { streams := [(7, { due := true })] }), (3), ([7]), by decide +kernel⟩,
   ⟨(0), by decide +kernel⟩,
   ⟨(setTwin (wTwin 3) { streams := [(6, { sent := [{ sseq := 0 }] })], mode := 1 }), (6), (2), by decide +kernel⟩,
   ⟨(6), by decide +kernel⟩,
   ⟨(setTwin (wTwin 3) { mode := 2, own := [(4, 9)] }), (0), (4), (9), by decide +kernel⟩,
   ⟨(setTwin (wTwin 3) { mode := 2, own := [(4, 9)] }), (0), (4), (8), (9), by decide +kernel⟩,
   ⟨(setNet (wTwin 3) 2 { digests := [(73, (4, 9))] }), (0), (2), (1), (1), (4), ([0, 7]), (7), (9), by decide +kernel⟩⟩

theorem witness_journal_and_rejoin_commands_complete_2 :
    (∃ (p : Pkt), p.code = 5 ∧ (¬ (flit p 1 % 2 ^ 27 = 0 ∧ flit p 2 % 2 ^ 10 = 0 ∧ bits (flit p 2) 10 10 = 0))) ∧
    (∃ (s : State), ((pst s = 1 ∨ pst s = 6)) ∧ s.twin.partnerP = 5) ∧
    (∃ (s : State), pst s = 2) ∧
    (∃ (s : State), pst s = 6 ∧ s.twin.partnerP = 7) ∧
    (∃ (s : State) (g : Nat) (a : Nat) (n : Nat), g < 512 ∧ a < 2 ^ 40 ∧ (place s (hubEpoch s) a).1 = g ∧ ((pst s = 2 ∨ pst s = 7)) ∧ journalled s a = true ∧ n ≠ 0 ∧ badSpan a n = false ∧ ringFull s g = false ∧ (slice s g).q = [] ∧ (blocksOf (phys s (hubEpoch s) a) n).all (fun x => tget 0 s.merr x == 0) = true) ∧
    (∃ (s : State) (m : Word), pst s = 7 ∧ s.twin.rsync = true ∧ fd s twinPage fCAUSE_HELD_MILE = m.toNat ∧ fd s twinPage fCAUSE_ACKED_MILE = m.toNat ∧ rd s twinPage 0x13C = rd s twinPage 0x140) ∧
    (∃ (s : State) (w : Nat) (req : Req) (v : Word), w < 4 ∧ Granted s req (cwPage w) 0x130 v.toNat ∧ pst s ≠ 3 ∧ pst s ≠ 5 ∧ pst s ≠ 7) :=
  ⟨⟨({ type := 14, vc := 1, code := 5, data := [2 ^ 32 * 64, 3] }), by decide +kernel⟩,
   ⟨(setTwin (wTwin 1) { partnerP := 5 }), by decide +kernel⟩,
   ⟨(wTwin 2), by decide +kernel⟩,
   ⟨(setTwin (wTwin 6) { partnerP := 7 }), by decide +kernel⟩,
   ⟨(fdSet (setTwin (wTwin 2) { jmap := [(0, 1)] }) twinPage fCAUSE_JCTL_JEN 1), ((place (wTwin 2) (hubEpoch (wTwin 2)) 0).1), (0), (64), by decide +kernel⟩,
   ⟨(setTwin (wTwin 7) { rsync := true }), (0), by decide +kernel⟩,
   ⟨(wTwin 1), (3), (.hub), (5), by decide +kernel⟩⟩

theorem witness_heal_commands_complete :
    (∃ (s : State) (r : Report) (l : List Report) (p : PageId), s.reports = r :: l ∧ r.page / 2048 = 8 ∧ r.core = none ∧ r.source ≠ 0xD0 ∧ pageOf r.page = some p ∧ (logOf s 8).length < 256) ∧
    (∃ (s : State) (r : Report) (l : List Report) (c : Nat), s.reports = r :: l ∧ r.page / 2048 < 8 ∧ r.core = some c ∧ r.source ≠ 0xD0 ∧ isMismatch r = false ∧ isExhausted r = true ∧ fb s (healPage (c / 144)) fHEAL_LADDER_EN_RW = true) ∧
    (∃ (s : State) (r : Report) (l : List Report) (c : Nat) (e : Nat), s.reports = r :: l ∧ r.page / 2048 < 8 ∧ r.core = some c ∧ r.source ≠ 0xD0 ∧ isMismatch r = true ∧ (ladder s c).rwpend = false ∧ (core s c).test = false ∧ (ladder s c).winEnd = some e ∧ s.now < e ∧ (ladder s c).count + 1 ≠ fd s (healPage (c / 144)) fHEAL_LADDER_NVOLT ∧ (ladder s c).count + 1 ≠ fd s (healPage (c / 144)) fHEAL_LADDER_NCLK) ∧
    (∃ (s : State) (c : Nat), c < 1152 ∧ (ladder s c).winEnd.isSome = true) ∧
    (∃ (s : State) (c : Nat), c < 1152 ∧ (¬ ((ladder s c).div = 0 ∧ (ladder s c).offset = 0))) ∧
    (∃ (s : State) (d : Nat) (req : Req) (v : Word), d < 8 ∧ Granted s req (healPage d) 0x54 (v.toNat ||| 0x100) ∧ v.toNat % 256 < 144 ∧ bit v.toNat 9 = false) ∧
    (∃ (s : State) (d : Nat) (req : Req) (v : Word), d < 8 ∧ Granted s req (healPage d) 0x54 (v.toNat ||| 0x200) ∧ v.toNat % 256 < 144) ∧
    (∃ (s : State) (d : Nat) (c : Nat) (l : Ladder) (req : Req) (v : Word), d < 8 ∧ Granted s req (healPage d) 0x4C v.toNat ∧ c = 144 * d + v.toNat % 256 ∧ l = ladder s c) ∧
    (∃ (s : State) (d : Nat) (req : Req), d < 8 ∧ Readable s req (healPage d) 0x8C) ∧
    (∃ (s : State) (d : Nat) (req : Req) (hi : Bool) (v : Word), d < 8 ∧ Granted s req (healPage d) (if hi then 0x7C else 0x78) v.toNat ∧ ((∀ i < 144, bit (rd s (corePage .core (144 * d + i)) 0xC) 16 = false))) :=
  ⟨⟨({ wUp with reports := [{ page := (hubPage .pwr).no, source := 0xF5, code := 6, detail := 1 }] }), ({ page := (hubPage .pwr).no, source := 0xF5, code := 6, detail := 1 }), ([]), (hubPage .pwr), by decide +kernel⟩,
   ⟨(fdSet { wUp with reports := [{ page := (corePage .core 0).no, source := 0x40, code := cPOISON, detail := 1, core := some 0 }] } (healPage 0) fHEAL_LADDER_EN_RW 1), ({ page := (corePage .core 0).no, source := 0x40, code := cPOISON, detail := 1, core := some 0 }), ([]), (0), by decide +kernel⟩,
   ⟨({ setLadder wUp 0 { winEnd := some 9, count := 0 } with reports := [{ page := (corePage .core 0).no, source := 0x46, code := 6, detail := 1, core := some 0 }] }), ({ page := (corePage .core 0).no, source := 0x46, code := 6, detail := 1, core := some 0 }), ([]), (0), (9), by decide +kernel⟩,
   ⟨(setLadder wUp 3 { winEnd := some 9, count := 2 }), (3), by decide +kernel⟩,
   ⟨(setLadder wUp 3 { div := 1, offset := 4 }), (3), by decide +kernel⟩,
   ⟨(setLadder wUp 146 { div := 1, offset := 4 }), (1), (.hub), (2), by decide +kernel⟩,
   ⟨(wUp), (1), (.hub), (2), by decide +kernel⟩,
   ⟨(setLadder wUp 146 { div := 1, offset := 4 }), (1), (146), ({ div := 1, offset := 4 }), (.hub), (2), by decide +kernel⟩,
   ⟨(logAdd wUp 2 { time := 1, code := 2, source := 3, type := 4, inst := 5, detail := 6 }), (2), (.hub), by decide +kernel⟩,
   ⟨(wUp), (3), (.hub), (true), (5), by decide +kernel⟩⟩

theorem witness_heal_commands_complete_2 :
    (∃ (s : State) (c : Nat) (i : Nat) (p : Pkt), c < 1152 ∧ isLeader s c = true ∧ launchable s c = some (i, p) ∧ byEn p = false ∧ p.type ≠ 2 ∧ p.ddev = selfDev s (c / 144) ∧ p.ddie = c / 144 ∧ p.dunit < 144 ∧ bufOn s c 0 p.vc = true) ∧
    (∃ (s : State) (c : Nat) (i : Nat) (p : Pkt), c < 1152 ∧ isLeader s c = true ∧ launchable s c = some (i, p) ∧ payload p = 0) ∧
    (∃ (s : State) (d : Nat) (e : LogEnt), d < 9 ∧ logOf s d = [e] ∧ e.source ∉ [0x40, 0x61, 0x70, 0x71, 0x92, 0xA0, 0xA4, 0xB0, 0xD0]) :=
  ⟨⟨(wr (setQe wUp 0 { inj := [{ type := 3, vc := 1, dunit := 4 }] }) (healPage 0) 0x78 1), (0), (0), ({ type := 3, vc := 1, dunit := 4 }), by decide +kernel⟩,
   ⟨(wr (setQe wUp 0 { inj := [{ type := 3, vc := 1, dunit := 4 }] }) (healPage 0) 0x78 1), (0), (0), ({ type := 3, vc := 1, dunit := 4 }), by decide +kernel⟩,
   ⟨(logAdd wUp 2 { time := 1, code := 2, source := 3, type := 4, inst := 5, detail := 6 }), (2), ({ time := 1, code := 2, source := 3, type := 4, inst := 5, detail := 6 }), by decide +kernel⟩⟩

theorem witness_closure_commands_complete :
    (∃ (s : State) (b : Nat) (req : Req) (v : Word), Granted s req hubHeal 0x44 (setBits (v.toNat ||| 2 ^ 31) 23 1 0) ∧ ((req.cls = 2 → fb s (hubPage .auth) fAUTH_STATUS_MGMTCLOSED = false)) ∧ closeBit v.toNat = some b ∧ fb s hubHeal fHEAL_HSTATUS_CLOSEBUSY = false ∧ GradeHolds s) ∧
    (∃ (s : State) (b : Nat) (req : Req) (v : Word), Granted s req hubHeal 0x44 (setBits (v.toNat ||| 2 ^ 31) 23 1 1) ∧ ((req.cls = 2 → fb s (hubPage .auth) fAUTH_STATUS_MGMTCLOSED = false)) ∧ closeBit v.toNat = some b ∧ bit (tget 0 s.fuseMap (b / 32)).toNat (b % 32) = false ∧ fb s hubHeal fHEAL_HSTATUS_CLOSEBUSY = false ∧ GradeHolds s) ∧
    (∃ (s : State), fb s hubHeal fHEAL_HSTATUS_SAVEPEND = true ∧ s.heal.flash0 = none) ∧
    (∃ (s : State) (a : Nat × Tbl Word) (b : Nat × Tbl Word), fb s hubHeal fHEAL_HSTATUS_SAVEPEND = true ∧ s.heal.flash0 = some a ∧ s.heal.flash1 = some b) ∧
    (∃ (s : State), fb s hubHeal fHEAL_HSTATUS_SAVEPEND = true) ∧
    (∃ (s : State) (k : Nat) (src : Nat) (dst : Nat) (req : Req) (v : Word), Granted s req hubHeal 0x8C (v.toNat / 8 * 8 + 1) ∧ k = mvSel s ∧ (((mover s k).phase = 0 ∨ (mover s k).phase = 6 ∨ (mover s k).phase = 7)) ∧ (mover s k).srcW % 16 < 8 ∧ bits (mover s k).srcW 4 8 < 144 ∧ (mover s k).dstW % 16 < 8 ∧ bits (mover s k).dstW 4 8 < 144 ∧ src = 144 * ((mover s k).srcW % 16) + bits (mover s k).srcW 4 8 ∧ dst = 144 * ((mover s k).dstW % 16) + bits (mover s k).dstW 4 8 ∧ mayTake s src dst = true ∧ coreClosed s dst = false ∧ coreBound s src = true ∧ isFollower s src = false ∧ ((req.cls = 6 → chosen s src dst = true))) ∧
    (∃ (s : State) (k : Nat) (dst : Nat) (id : Nat) (p : Place) (req : Req) (v : Word), Granted s req hubHeal 0x8C (v.toNat / 8 * 8 + 1 + 4) ∧ k = mvSel s ∧ (((mover s k).phase = 0 ∨ (mover s k).phase = 6 ∨ (mover s k).phase = 7)) ∧ (mover s k).dstW % 16 < 8 ∧ bits (mover s k).dstW 4 8 < 144 ∧ dst = 144 * ((mover s k).dstW % 16) + bits (mover s k).dstW 4 8 ∧ mayTake s p.core dst = true ∧ coreClosed s dst = false ∧ ((req.cls = 6 → chosen s p.core dst = true)) ∧ lostPlace s = some (id, p)) ∧
    (∃ (s : State) (k : Nat) (req : Req) (v : Word), Granted s req hubHeal 0x8C (v.toNat / 8 * 8 + 2) ∧ k = mvSel s ∧ 1 ≤ (mover s k).phase ∧ (mover s k).phase ≤ 4) ∧
    (∃ (s : State) (k : Nat), k < 16 ∧ (mover s k).phase = 1 ∧ (mover s k).mode = 0 ∧ (mover s k).src < 1152 ∧ (mover s k).dst < 1152 ∧ (mover s k).src ≠ (mover s k).dst) ∧
    (∃ (s : State) (k : Nat), k < 16 ∧ (mover s k).phase = 1 ∧ (mover s k).mode = 1) :=
  ⟨⟨(wUp), (cmPort 7), (.hub), (0x705), by decide +kernel⟩,
   ⟨(markClosed wUp (cmPort 7)), (cmPort 7), (.hub), (0x705), by decide +kernel⟩,
   ⟨(fdSet wUp hubHeal fHEAL_HSTATUS_SAVEPEND 1), by decide +kernel⟩,
   ⟨(setHeal (fdSet wUp hubHeal fHEAL_HSTATUS_SAVEPEND 1) { flash0 := some (3, []), flash1 := some (2, []) }), ((3, [])), ((2, [])), by decide +kernel⟩,
   ⟨(fdSet wUp hubHeal fHEAL_HSTATUS_SAVEPEND 1), by decide +kernel⟩,
   ⟨(wMove 0), (0), (0), (4), (.debug), (0x400), by decide +kernel⟩,
   ⟨(markClosed (setCtx (wMove 7) 2 { st := 1, itin := some { place := [{ en := 9, core := 1 }] } }) (cmCore 1)), (0), (4), (2), ({ en := 9, core := 1 }), (.debug), (0x400), by decide +kernel⟩,
   ⟨(wMove 3), (0), (.hub), (0x400), by decide +kernel⟩,
   ⟨(wMove 1), (0), by decide +kernel⟩,
   ⟨(setMover wUp 0 { phase := 1, mode := 1, src := 1152, dst := 4 }), (0), by decide +kernel⟩⟩

theorem witness_closure_commands_complete_2 :
    (∃ (s : State) (k : Nat), k < 16 ∧ (mover s k).phase = 2 ∧ (mover s k).mode = 0 ∧ twf (core s (mover s k).src).sp.words = true) ∧
    (∃ (s : State) (k : Nat), k < 16 ∧ (mover s k).phase = 2 ∧ (mover s k).mode = 1) ∧
    (∃ (s : State) (k : Nat), k < 16 ∧ (mover s k).phase = 3) ∧
    (∃ (s : State) (k : Nat) (id : Nat) (m : Word), k < 16 ∧ (mover s k).phase = 4 ∧ id = rd s (corePage .core (mover s k).src) 0xC % 65536 / 64 ∧ (ctx s id).mile = m.toNat ∧ (ladder s (mover s k).src).rwpend = false ∧ freezeOk s (mover s k).src = true ∧ m.toNat % max 1 (fd s hubHeal fHEAL_RWCFG_CUTEVERY) = 0 ∧ s.hub.freeze = none) ∧
    (∃ (s : State) (k : Nat) (f : Freeze), s.hub.freeze = some f ∧ f.inval = false ∧ f.movers = [k] ∧ (mover s k).src ≠ (mover s k).dst) ∧
    (∃ (s : State) (k : Nat) (f : Freeze), s.hub.freeze = some f ∧ f.inval = true ∧ f.movers = [k] ∧ s.inval = [] ∧ (mover s k).phase = 5 ∧ (mover s k).src < 1152 ∧ (mover s k).dst < 1152 ∧ (mover s k).src ≠ (mover s k).dst ∧ coreClosed s (mover s k).dst = false) ∧
    (∃ (s : State) (f : Freeze), s.hub.freeze = some f ∧ f.waiting = [] ∧ ((∀ k ∈ f.movers, (mover s k).phase ≠ 5))) ∧
    (∃ (s : State) (req : Req) (v : Word), Granted s req hubHeal 0x80 v.toNat) ∧
    (∃ (s : State) (req : Req), Readable s req hubHeal 0xCC) :=
  ⟨⟨(wMove 2), (0), by decide +kernel⟩,
   ⟨(setMover wUp 0 { phase := 2, mode := 1, src := 1152, dst := 4 }), (0), by decide +kernel⟩,
   ⟨(wMove 3), (0), by decide +kernel⟩,
   ⟨(wMove 4), (0), (1), (0), by decide +kernel⟩,
   ⟨(setHub (wMove 5) { freeze := some { mile := 0, movers := [0] } }), (0), ({ mile := 0, movers := [0] }), by decide +kernel⟩,
   ⟨(setHub (wMove 5) { freeze := some { mile := 0, movers := [0], inval := true } }), (0), ({ mile := 0, movers := [0], inval := true }), by decide +kernel⟩,
   ⟨(setHub (wMove 6) { freeze := some { mile := 0, movers := [0], inval := true } }), ({ mile := 0, movers := [0], inval := true }), by decide +kernel⟩,
   ⟨(wMove 3), (.hub), (0), by decide +kernel⟩,
   ⟨(logAdd wUp 8 { time := 1, code := 2, source := 3, type := 4, inst := 5, detail := 6 }), (.hub), by decide +kernel⟩⟩

theorem witness_roadworks_commands_complete :
    (∃ (s : State) (c : Nat), c < 1152 ∧ tget false s.heal.slots c = true ∧ coreBound s c = false ∧ coreClosed s c = false ∧ underTest s c = false) ∧
    (∃ (s : State) (c : Nat) (v : Visit), c < 1152 ∧ visit s c = some v ∧ v.test < 4) ∧
    (∃ (s : State) (c : Nat) (v : Visit), c < 1152 ∧ visit s c = some v ∧ v.test < 4 ∧ v.again = false) ∧
    (∃ (s : State) (c : Nat) (v : Visit), c < 1152 ∧ visit s c = some v ∧ v.test < 4 ∧ v.again = true) ∧
    (∃ (s : State) (c : Nat) (v : Visit), c < 1152 ∧ visit s c = some v ∧ v.test = 4 ∧ v.walked = true ∧ v.offset = clusOffset s (clusterOf c) ∧ v.trim + 1 < fd s hubHeal fHEAL_MARGIN_STEPS) ∧
    (∃ (s : State) (c : Nat) (v : Visit), c < 1152 ∧ visit s c = some v ∧ v.test = 4 ∧ v.walked = true ∧ v.offset ≠ clusOffset s (clusterOf c)) ∧
    (∃ (s : State) (c : Nat) (v : Visit), c < 1152 ∧ visit s c = some v ∧ v.test = 4 ∧ v.walked = true ∧ v.offset = clusOffset s (clusterOf c) ∧ v.low = 0 ∧ v.again = false) ∧
    (∃ (s : State) (c : Nat) (th : Nat) (v : Visit), c < 1152 ∧ visit s c = some v ∧ v.test = 4 ∧ v.walked = true ∧ v.offset = clusOffset s (clusterOf c) ∧ v.low = 64 + th ∧ th + fd s hubHeal fHEAL_MARGIN_GUARD ≤ 80) ∧
    (∃ (s : State) (c : Nat) (v : Visit), c < 1152 ∧ visit s c = some v ∧ v.test = 5 ∧ ((v.outcome = 0 ∨ GradeHolds s))) ∧
    (∃ (s : State) (c : Nat) (d : Nat), c < 1152 ∧ d = c / 144 ∧ fb s hubHeal fHEAL_RWCFG_EN = true ∧ fb s aon fAON_READY_DONE = true ∧ pst s ≠ 5 ∧ pst s ≠ 7 ∧ fd s (hubPage .pwr) fPWR_MEAS_WATTS + fd s hubHeal fHEAL_CALCFG_HEADROOM ≤ fd s (hubPage .pwr) fPWR_LIMIT_WATTS ∧ limiterQuiet s = true ∧ ((∀ e ∈ s.heal.lastVisit, e.1 = d → e.2 + usTicks 12500 ≤ s.now)) ∧ countp (fun e => e.2 && decide (e.1 / 144 = d)) s.heal.slots < visitLimit s d ∧ countp (fun e => e.2 && decide (e.1 / 144 < 8)) s.heal.slots < 16 ∧ c ∈ nextVisits s d ∧ tget false s.heal.slots c = false) :=
  ⟨⟨(setHeal wUp { slots := [(3, true)] }), (3), by decide +kernel⟩,
   ⟨(wVisit { test := 1 }), (0), ({ test := 1 }), by decide +kernel⟩,
   ⟨(wVisit { test := 2 }), (0), ({ test := 2 }), by decide +kernel⟩,
   ⟨(wVisit { test := 2, again := true }), (0), ({ test := 2, again := true }), by decide +kernel⟩,
   ⟨(fdSet (wVisit { test := 4, walked := true }) hubHeal fHEAL_MARGIN_STEPS 9), (0), ({ test := 4, walked := true }), by decide +kernel⟩,
   ⟨(wVisit { test := 4, walked := true, offset := 3 }), (0), ({ test := 4, walked := true, offset := 3 }), by decide +kernel⟩,
   ⟨(wVisit { test := 4, walked := true }), (0), ({ test := 4, walked := true }), by decide +kernel⟩,
   ⟨(wVisit { test := 4, walked := true, trim := 3, low := 70 }), (0), (6), ({ test := 4, walked := true, trim := 3, low := 70 }), by decide +kernel⟩,
   ⟨(wVisit { test := 5, outcome := 1 }), (0), ({ test := 5, outcome := 1 }), by decide +kernel⟩,
   ⟨(fdSet (fdSet (setLadder wUp 3 { rwpend := true }) aon fAON_READY_DONE 1) hubHeal fHEAL_RWCFG_EN 1), (3), (0), by decide +kernel⟩⟩

theorem witness_roadworks_commands_complete_2 :
    (∃ (s : State) (p : Nat), p < 40 ∧ fb s hubHeal fHEAL_CALCFG_ROT_EN = true ∧ pState s p = 4 ∧ (port s p).granted = false ∧ (port s p).swapTx = none) ∧
    (∃ (s : State) (kind : Nat) (g : Nat), ((kind = 1 ∨ kind = 3 ∧ (slice s g).suspect = true)) ∧ g < 512 ∧ fb s hubHeal fHEAL_CALCFG_RECAL_EN = true ∧ (stack s (g / 32)).window = none ∧ (stack s (g / 32)).granted = none ∧ sliceClosed s g = false ∧ (slice s g).ss = 0 ∧ fd s (memcPage (g / 32)) fMEMC_STATUS_STATE = 2 ∧ s.hub.freeze = none) ∧
    (∃ (s : State) (c : Nat) (v : Visit), fb s hubHeal fHEAL_CALCFG_WALK_EN = true ∧ limiterQuiet s = true ∧ visit s c = some v ∧ v.test = 4 ∧ v.walked = false) ∧
    (∃ (s : State) (req : Req), Readable s req hubHeal 0xAC) :=
  ⟨⟨(fdSet (setPState wUp 3 4) hubHeal fHEAL_CALCFG_ROT_EN 1), (3), by decide +kernel⟩,
   ⟨(fdSet wMem hubHeal fHEAL_CALCFG_RECAL_EN 1), (1), (5), by decide +kernel⟩,
   ⟨(fdSet (wVisit { test := 4 }) hubHeal fHEAL_CALCFG_WALK_EN 1), (0), ({ test := 4 }), by decide +kernel⟩,
   ⟨(wUp), (.hub), by decide +kernel⟩⟩

theorem witness_reset_commands_complete :
    (∃ (s : State) (d : Nat) (c : Nat) (req : Req) (v : Word), d < 8 ∧ Granted s req (diePage .die d) 0x44 (v.toNat ||| 0x80000000) ∧ v.toNat % 256 < 144 ∧ c = 144 * d + v.toNat % 256 ∧ coreClosed s c = false ∧ fb s (diePage .die d) fDIE_RST_STAT_BUSY = false) ∧
    (∃ (s : State) (d : Nat) (k : Nat) (req : Req) (v : Word), d < 8 ∧ Granted s req (diePage .die d) 0x48 (v.toNat ||| 0x80000000) ∧ v.toNat % 64 < 36 ∧ k = 36 * d + v.toNat % 64 ∧ closed s (cmCluster k) = false ∧ fb s (diePage .die d) fDIE_RST_STAT_BUSY = false) ∧
    (∃ (s : State) (d : Nat), d < 8 ∧ closed s (cmDie d) = false ∧ GradeHolds s) ∧
    (∃ (s : State) (pd : Nat), pd < 2 ∧ closed s (cmDie (9 + pd)) = false ∧ GradeHolds s) ∧
    (∃ (s : State) (c : Nat), s.hub.rstDue = some c) ∧
    (∃ (s : State) (d : Nat), d < 8 ∧ fd s (diePage .die d) fDIE_WDOG_PERIOD ≠ 0 ∧ closed s (cmDie d) = false ∧ fb s (diePage .die d) fDIE_STATUS_CTL1_OK = true) ∧
    (∃ (s : State) (d : Nat), d < 8 ∧ fd s (diePage .die d) fDIE_WDOG_PERIOD ≠ 0 ∧ closed s (cmDie d) = false ∧ fb s (diePage .die d) fDIE_STATUS_CTL0_OK = false ∧ fb s aon fAON_RECOVERY_ESCALATE = false ∧ GradeHolds s) ∧
    (∃ (s : State), fd s aon fAON_HWDOG_PERIOD ≠ 0 ∧ s.pins.pwrGood = true) ∧
    (∃ (s : State) (d : Nat) (req : Req) (v : Word), d < 11 ∧ Granted s req (diePage .die d) 0x58 v.toNat ∧ bit v.toNat 0 = true) ∧
    (∃ (s : State) (req : Req) (v : Word), Granted s req aon 0x58 v.toNat) :=
  ⟨⟨(fdSet (wSeq 7 []) (rPage 0) fROUT_EN_EN 9), (0), (0), (.hub), (0), by decide +kernel⟩,
   ⟨(wUp), (1), (38), (.hub), (2), by decide +kernel⟩,
   ⟨(wUp), (2), by decide +kernel⟩,
   ⟨(wTwin 3), (1), by decide +kernel⟩,
   ⟨(setHub (wr64 (fdSet (wTwin 3) twinPage fCAUSE_PAIR_BOUND 1) aon 0xC00 5) { rstDue := some 3 }), (3), by decide +kernel⟩,
   ⟨(fdSet (fdSet (fdSet wUp (diePage .die 1) fDIE_WDOG_PERIOD 9) (diePage .die 1) fDIE_STATUS_CTL1_OK 1) (diePage .die 1) fDIE_STATUS_CTL0_OK 1), (1), by decide +kernel⟩,
   ⟨(fdSet (fdSet wUp (diePage .die 1) fDIE_WDOG_PERIOD 9) (diePage .die 1) fDIE_STATUS_CTL1_OK 1), (1), by decide +kernel⟩,
   ⟨(setPins (fdSet wUp aon fAON_HWDOG_PERIOD 9) { aux := true, pwrGood := true }), by decide +kernel⟩,
   ⟨(wUp), (1), (.die 1), (1), by decide +kernel⟩,
   ⟨(wUp), (.hub), (1), by decide +kernel⟩⟩

theorem witness_reset_commands_complete_2 :
    (∃ (s : State) (d : Nat), d < 8 ∧ closed s (cmDie d) = false ∧ GradeHolds s) ∧
    (∃ (s : State), closed s (cmDie 8) = false) ∧
    (∃ (s : State) (kind : Nat), kind < 3 ∧ GradeHolds s) ∧
    (∃ (fn : Nat), 1 ≤ fn ∧ fn < 65) ∧
    (∃ (s : State) (d : Nat) (req : Req) (v : Word), Granted s req aon 0x4C (setBits (v.toNat ||| 2 ^ 31) 0 2 1) ∧ d = bits v.toNat 4 4 ∧ d < 8 ∧ closed s (cmDie d) = false ∧ fb s aon fAON_RST_STAT_BUSY = false ∧ fb s aon fAON_READY_DONE = true ∧ GradeHolds s) ∧
    (∃ (s : State) (d : Nat) (req : Req) (v : Word), Granted s req aon 0x4C (setBits (v.toNat ||| 2 ^ 31) 0 2 2) ∧ d = bits v.toNat 4 4 ∧ ((d = 9 ∨ d = 10)) ∧ closed s (cmDie d) = false ∧ fb s aon fAON_RST_STAT_BUSY = false ∧ fb s aon fAON_READY_DONE = true ∧ GradeHolds s) ∧
    (∃ (s : State) (req : Req) (v : Word), Granted s req aon 0x4C (setBits (v.toNat ||| 2 ^ 31) 0 2 3) ∧ fb s aon fAON_RST_STAT_BUSY = false) ∧
    (∃ (s : State) (req : Req) (v : Word), Granted s req aon 0x64 (v.toNat ||| 1)) ∧
    (∃ (s : State) (d : Nat), d < 11 ∧ ((∃ e ∈ s.hub.dieRst, e.1 = d)) ∧ ImagesFit s ∧ GradeHolds s) :=
  ⟨⟨(wUp), (1), by decide +kernel⟩,
   ⟨(wUp), by decide +kernel⟩,
   ⟨(wCmd wUp 1), (1), by decide +kernel⟩,
   ⟨(2), by decide +kernel⟩,
   ⟨(wCmd wUp 1), (2), (.hub), (0x20), by decide +kernel⟩,
   ⟨(wCmd wUp 1), (9), (.hub), (0x90), by decide +kernel⟩,
   ⟨(wUp), (.hub), (0), by decide +kernel⟩,
   ⟨(fdSet wUp aon (fAON_DIE_CAUSE0_D.sub 3) 5), (.hub), (0), by decide +kernel⟩,
   ⟨(setHub wUp { dieRst := [(9, 2)] }), (9), by decide +kernel⟩⟩

theorem witness_context_commands_complete :
    (∃ (s : State) (d : Nat) (id : Nat) (req : Req) (v : Word), d < 8 ∧ Granted s req (diePage .die d) 0x60 (setBits (v.toNat ||| 2 ^ 31) 0 3 1) ∧ id = bits v.toNat 16 10 ∧ fb s (diePage .die d) fDIE_STATUS_CTXBUSY = false) ∧
    (∃ (s : State) (d : Nat) (id : Nat) (req : Req) (v : Word), d < 8 ∧ Granted s req (diePage .die d) 0x60 (setBits (v.toNat ||| 2 ^ 31) 0 3 2) ∧ id = bits v.toNat 16 10 ∧ fb s (diePage .die d) fDIE_STATUS_CTXBUSY = false ∧ ((∀ c ∈ dieCtxCores s d id, coreHalted s c = true))) ∧
    (∃ (s : State) (d : Nat) (id : Nat) (req : Req) (v : Word), d < 8 ∧ Granted s req (diePage .die d) 0x60 (setBits (v.toNat ||| 2 ^ 31) 0 3 3) ∧ id = bits v.toNat 16 10 ∧ fb s (diePage .die d) fDIE_STATUS_CTXBUSY = false ∧ ((∀ c ∈ dieCtxCores s d id, coreHalted s c = true))) ∧
    (∃ (s : State) (d : Nat) (id : Nat) (req : Req) (v : Word), d < 8 ∧ Granted s req (diePage .die d) 0x60 (setBits (v.toNat ||| 2 ^ 31) 0 3 4) ∧ id = bits v.toNat 16 10 ∧ fb s (diePage .die d) fDIE_STATUS_CTXBUSY = false ∧ ((∀ c ∈ dieCtxCores s d id, coreHalted s c = true))) ∧
    (∃ (s : State) (d : Nat), d < 8 ∧ fb s (diePage .die d) fDIE_STATUS_CTXBUSY = true) ∧
    (∃ (s : State) (r : Nat) (k : HCmd), r < 128 ∧ nextCmd s r 5 = some k ∧ cmdCheck s k true = cOK ∧ mayAdvance s (cmdCtx k) = true) ∧
    (∃ (s : State) (id : Nat) (g : Nat), id < 1024 ∧ (ctx s id).st = 3 ∧ (ctx s id).wait = 0 ∧ (ctx s id).tear = none ∧ firstDrain (ctx s id).drains = some g ∧ (g + 1) % 64 = (ctx s id).gen) ∧
    (∃ (s : State) (id : Nat) (g : Nat), id < 1024 ∧ (ctx s id).st ≠ 3 ∧ (ctx s id).wait = 0 ∧ firstDrain (ctx s id).drains = some g) ∧
    (∃ (s : State) (id : Nat) (g : Nat) (r : Run), id < 1024 ∧ (ctx s id).st = 3 ∧ (ctx s id).wait = 0 ∧ (ctx s id).tear = some r ∧ firstDrain (ctx s id).drains = some g ∧ (g + 1) % 64 = (ctx s id).gen ∧ (ring s r.ring).en = true ∧ bit r.flags 0 = false) :=
  ⟨⟨(wCtx {}), (0), (1), (.hub), (0x10000), by decide +kernel⟩,
   ⟨(setHandle (wCtx {}) 0 3 { state := 1 }), (0), (1), (.hub), (0x10000), by decide +kernel⟩,
   ⟨(wCtx {}), (0), (1), (.hub), (0x10500), by decide +kernel⟩,
   ⟨(setCore (wCtx {}) 0 { stopped := true }), (0), (1), (.hub), (0x10000), by decide +kernel⟩,
   ⟨(fdSet wUp (diePage .die 3) fDIE_STATUS_CTXBUSY 1), (3), by decide +kernel⟩,
   ⟨(wCmd (wCtx {}) (5 + 2 ^ 32 * 64)), (0), ({ ring := 0, entry := 5 + 2 ^ 32 * 64 }), by decide +kernel⟩,
   ⟨(setCtx wUp 4 { st := 3, gen := 2, drains := [(1, some 9)] }), (4), (1), by decide +kernel⟩,
   ⟨(setCtx wUp 4 { st := 1, gen := 2, drains := [(1, some 9)] }), (4), (1), by decide +kernel⟩,
   ⟨(setCtx (wCmd wUp 1) 4 { st := 3, gen := 2, drains := [(1, some 9)], tear := some { ring := 0, cid := 7, flags := 0, count := 0 } }), (4), (1), ({ ring := 0, cid := 7, flags := 0, count := 0 }), by decide +kernel⟩⟩

theorem witness_incident_commands_complete :
    (∃ (s : State) (job : Word) (m : Word) (id : Nat) (i : Itin), jobCtxs s job.toNat = [id] ∧ (ctx s id).itin = some i ∧ (ctx s id).st = 1 ∧ (ctx s id).bar.phase = 0 ∧ (ctx s id).fails = 0 ∧ pairMode s ≠ 2 ∧ m.toNat ≠ 2 ^ 32 - 1 ∧ 1 < failLimit s) ∧
    (∃ (s : State) (job : Word) (m : Word) (id : Nat) (i : Itin), jobCtxs s job.toNat = [id] ∧ (ctx s id).itin = some i ∧ twinMode s ≠ 2 ∧ m.toNat = 2 ^ 32 - 1) ∧
    (∃ (s : State) (job : Word) (subj : Nat) (id : Nat) (i : Itin), jobCtxs s job.toNat = [id] ∧ (ctx s id).itin = some i ∧ twinMode s = 2 ∧ subj ∈ i.mods ∧ subj ≠ partner s) ∧
    (∃ (s : State) (job : Word) (subj : Nat) (id : Nat) (i : Itin), jobCtxs s job.toNat = [id] ∧ (ctx s id).itin = some i ∧ twinMode s = 2 ∧ subj ∉ i.mods ∧ subj ∈ i.rep ∧ subj ≠ partner s) ∧
    (∃ (s : State) (dev : Nat) (l : List Nat), pst s ≠ 0 ∧ dev = partner s ∧ l = ((s.hub.ctxs.map (·.1)).filter (fun id => (ctx s id).st == 1)).map (latest s)) ∧
    (∃ (s : State) (dev : Nat), dev = partner s ∧ s.twin.query.isSome = true) ∧
    (∃ (s : State) (job : Word) (step : Word) (id : Nat) (i : Itin), jobCtxs s job.toNat = [id] ∧ (ctx s id).itin = some i ∧ (ctx s id).st = 1 ∧ (((ctx s id).bar.phase = 0 ∨ (ctx s id).bar.phase = 3 ∨ (ctx s id).bar.step ≠ step.toNat)) ∧ (if (ctx s id).bar.step = step.toNat then (ctx s id).fails + 1 else 1) < failLimit s) ∧
    (∃ (s : State) (job : Word) (step : Word) (id : Nat) (i : Itin), jobCtxs s job.toNat = [id] ∧ (ctx s id).itin = some i ∧ (ctx s id).st = 1 ∧ (ctx s id).bar.phase = 0 ∧ (ctx s id).bar.step = step.toNat ∧ failLimit s ≤ (ctx s id).fails + 1) ∧
    (∃ (s : State) (dev : Nat) (id : Nat) (job : Word) (i : Itin), jobCtxs s job.toNat = [id] ∧ (ctx s id).itin = some i ∧ i.mods = [dev] ∧ dev = thisDev s ∧ (ctx s id).bar.phase = 1 ∧ (ctx s id).bar.lost = [] ∧ (ctx s id).bar.lostAt = []) ∧
    (∃ (s : State) (id : Nat) (job : Word), jobCtxs s job.toNat = [id] ∧ (ctx s id).bar.phase = 1) :=
  ⟨⟨(wCtx {}), (6), (4), (1), ({ job := 6, mods := [0] }), by decide +kernel⟩,
   ⟨(wCtx {}), (6), (0xFFFFFFFF), (1), ({ job := 6, mods := [0] }), by decide +kernel⟩,
   ⟨(setTwin (setPst (fdSet (wCtx {}) twinPage fCAUSE_PAIR_PARTNER 5) 3) { mode := 2 }), (6), (0), (1), ({ job := 6, mods := [0] }), by decide +kernel⟩,
   ⟨(setCtx (setTwin (setPst (fdSet (wCtx {}) twinPage fCAUSE_PAIR_PARTNER 5) 3) { mode := 2 }) 1 { st := 1, posted := some 3, itin := some { job := 6, mods := [0], rep := [4, 5] } }), (6), (4), (1), ({ job := 6, mods := [0], rep := [4, 5] }), by decide +kernel⟩,
   ⟨(wTwin 3), (0), ([]), by decide +kernel⟩,
   ⟨(setTwin (wTwin 3) { query := some 2 }), (0), by decide +kernel⟩,
   ⟨(wCtx {}), (6), (4), (1), ({ job := 6, mods := [0] }), by decide +kernel⟩,
   ⟨(setCtx (wCtx {}) 1 { st := 1, itin := some { job := 6, mods := [0] }, fails := 4, bar := { step := 4 } }), (6), (4), (1), ({ job := 6, mods := [0] }), by decide +kernel⟩,
   ⟨(wCtx { phase := 1, step := 3 }), (0), (1), (6), ({ job := 6, mods := [0] }), by decide +kernel⟩,
   ⟨(wCtx { phase := 1, step := 3 }), (1), (6), by decide +kernel⟩⟩

theorem witness_incident_commands_complete_2 :
    (∃ (s : State) (id : Nat) (i : Itin), id < 1024 ∧ (ctx s id).itin = some i ∧ (ctx s id).bar.phase = 2 ∧ (ctxCores s id).all (fun c => cstate s c == 1 || (match (seqr s c).wait with | .nap _ _ _ _ => true | _ => false)) = true ∧ i.place.any (fun p => coreClosed s p.core) = false) ∧
    (∃ (s : State) (dev : Nat) (id : Nat) (job : Word) (l : Word) (i : Itin), jobCtxs s job.toNat = [id] ∧ (ctx s id).itin = some i ∧ i.mods = [dev] ∧ dev = thisDev s ∧ (ctx s id).bar.phase ≠ 0 ∧ (ctx s id).bar.lost = [] ∧ (ctx s id).bar.l = l.toNat) ∧
    (∃ (s : State) (id : Nat) (job : Word) (l : Word), jobCtxs s job.toNat = [id] ∧ (ctx s id).bar.phase = 3 ∧ (ctx s id).bar.l = l.toNat) ∧
    (∃ (s : State) (f : Freeze), s.hub.freeze = some f) ∧
    (∃ (s : State) (i : Nat) (a : Await), s.hub.awaits[i]? = some a ∧ a.sent ≤ 16) ∧
    (∃ (s : State) (i : Nat) (a : Await), s.hub.awaits[i]? = some a ∧ 17 ≤ a.sent ∧ a.n.kind ≠ 2) ∧
    (∃ (s : State) (i : Nat) (id : Nat) (a : Await) (k : Itin), s.hub.awaits[i]? = some a ∧ 17 ≤ a.sent ∧ a.n.kind = 2 ∧ soleJobs s = [(id, k)] ∧ a.n.dev ∈ k.mods) ∧
    (∃ (s : State) (id : Nat) (i : Itin) (ms : List Nat), id < 1024 ∧ (ctx s id).itin = some i ∧ 2 ≤ (ctx s id).bar.phase ∧ coordinator i (ctx s id).bar = thisDev s ∧ ms = i.mods.filter (fun m => !(ctx s id).bar.lost.contains m)) ∧
    (∃ (s : State) (id : Nat) (m : Nat) (i : Itin) (ms : List Nat), id < 1024 ∧ (ctx s id).itin = some i ∧ (ctx s id).bar.phase = 1 ∧ coordinator i (ctx s id).bar = thisDev s ∧ ms = i.mods.filter (fun m => !(ctx s id).bar.lost.contains m) ∧ ms.filter (fun m => ((ctx s id).bar.aborted.find? (fun e => e.1 == m)).isNone) = [m]) ∧
    (∃ (s : State) (c : Nat), c < 1152 ∧ fb s (flowPage c) fFLOW_GRID_STAT_FOUND = true) :=
  ⟨⟨(setCstate (wCtx { phase := 2, step := 3, l := 2 }) 0 1), (1), ({ job := 6, mods := [0] }), by decide +kernel⟩,
   ⟨(wCtx { phase := 3, step := 3, l := 2 }), (0), (1), (6), (2), ({ job := 6, mods := [0] }), by decide +kernel⟩,
   ⟨(wCtx { phase := 3, step := 3, l := 2 }), (1), (6), (2), by decide +kernel⟩,
   ⟨(setHub wUp { freeze := some { mile := 4, waiting := [3] } }), ({ mile := 4, waiting := [3] }), by decide +kernel⟩,
   ⟨(setHub wUp { awaits := [{ n := { dev := 3, kind := 2 } }] }), (0), ({ n := { dev := 3, kind := 2 } }), by decide +kernel⟩,
   ⟨(setHub wUp { awaits := [{ n := { dev := 3, kind := 1 }, sent := 17 }] }), (0), ({ n := { dev := 3, kind := 1 }, sent := 17 }), by decide +kernel⟩,
   ⟨(setHub wUp { ctxs := [(1, { st := 1, itin := some { job := 6, mods := [0, 3] } })], awaits := [{ n := { dev := 3, kind := 2 }, sent := 17 }] }), (0), (1), ({ n := { dev := 3, kind := 2 }, sent := 17 }), ({ job := 6, mods := [0, 3] }), by decide +kernel⟩,
   ⟨(wCtx { phase := 2, step := 3, l := 2 }), (1), ({ job := 6, mods := [0] }), ([0]), by decide +kernel⟩,
   ⟨(wCtx { phase := 1, step := 3, l := 2 }), (1), (0), ({ job := 6, mods := [0] }), ([0]), by decide +kernel⟩,
   ⟨(fdSet wUp (flowPage 3) fFLOW_GRID_STAT_FOUND 1), (3), by decide +kernel⟩⟩

theorem witness_start_commands_complete :
    (∃ (s : State), s.pins.aux = true ∧ s.pins.step1 = false ∧ s.pins.hold1 = false) ∧
    (∃ (s : State) (k : Nat), stepNo s = 2 ∧ bootSlot s = some k ∧ refPresent s = true) ∧
    (∃ (s : State), stepNo s = 2 ∧ bootSlot s = none) ∧
    (∃ (s : State), stepNo s = 3 ∧ accepted s (svcImg s (fd s aon fAON_START_STAT_SLOT)) = true) ∧
    (∃ (s : State) (d : Nat), stepNo s = 3 ∧ accepted s (svcImg s (fd s aon fAON_START_STAT_SLOT)) = true ∧ d < 8 ∧ closed s (cmDie d) = false) ∧
    (∃ (s : State), stepNo s = 4) ∧
    (∃ (s : State) (m : Nat), stepNo s = 4 ∧ m < 16 ∧ closed s (cmStack m) = false) ∧
    (∃ (s : State) (d : Nat) (ks : List Nat), d < 8 ∧ stepNo s = 5 ∧ dieActive s d = true ∧ ks = (((List.range 36).filter (fun k => !closed s (cmCluster (36 * d + k)) && fd s (clusPage (36 * d + k)) fCLUS_STATUS_RAIL == 0)).take 6).map (fun k => 36 * d + k)) ∧
    (∃ (s : State) (n : Nat) (cs : List Nat), stepNo s = 6 ∧ fb s aon fAON_READY_TK = false ∧ n = s.pins.batch ∧ n < 3 ∧ cs = (List.range 1152).filter (fun c => clusterSlot c == n && !coreClosed s c && dieActive s (c / 144))) ∧
    (∃ (s : State) (c : Nat) (fails : List Nat), stepNo s = 6 ∧ fb s aon fAON_READY_TK = false ∧ fb s aon fAON_READY_DONE = false ∧ 4 ≤ s.pins.batch ∧ c ∈ s.pins.again ∧ c ∈ fails ∧ c < 1152) :=
  ⟨⟨(setPins wUp { aux := true, pwrEn := true, v12 := true }), by decide +kernel⟩,
   ⟨(wStep 2), (0), by decide +kernel⟩,
   ⟨(setFlash (wStep 2) { hubA := { ok := false }, hubB := { ok := false } }), by decide +kernel⟩,
   ⟨(wStep 3), by decide +kernel⟩,
   ⟨(wStep 3), (5), by decide +kernel⟩,
   ⟨(wStep 4), by decide +kernel⟩,
   ⟨({ wStep 4 with mem := [(0, 5)] }), (3), by decide +kernel⟩,
   ⟨(fdSet (wStep 5) (diePage .die 1) fDIE_STATUS_CTL0_OK 1), (1), ([36, 37, 38, 39, 40, 41]), by decide +kernel⟩,
   ⟨(wStep 6), (0), ([]), by decide +kernel⟩,
   ⟨(setPins (wStep 6) { aux := true, step1 := true, batch := 4, again := [9, 200] }), (200), ([200]), by decide +kernel⟩⟩

theorem witness_start_commands_complete_2 :
    (∃ (s : State) (l : List Nat), stepNo s = 6 ∧ fb s aon fAON_READY_TK = true ∧ fb s aon fAON_READY_DONE = false ∧ l = ((List.range 8).map (fun d => ((((List.range 144).map (fun i => 144 * d + i)).filter (fun c => !bit (tget 0 s.fuseMap (cmCore c / 32)).toNat (cmCore c % 32))).drop (12 * s.pins.batch)).take 12)).flatten) ∧
    (∃ (s : State), stepNo s = 7 ∧ s.flash.fab = none) ∧
    (∃ (s : State) (f : FabRec), stepNo s = 7 ∧ s.flash.fab = some f) ∧
    (∃ (s : State) (p : Nat) (l : Nat) (m : Nat) (worse : List (Nat × Nat)), stepNo s = 7 ∧ fb s aon fAON_READY_TK = true ∧ fb s aon fAON_READY_DONE = false ∧ p < 40 ∧ l < 9 ∧ (p, m) ∈ worse ∧ bit m l = true) ∧
    (∃ (s : State), stepNo s = 8 ∧ fb s aon fAON_READY_DONE = false) ∧
    (∃ (s : State), stepNo s = 7 ∧ fb s aon fAON_START_STAT_FABREC = true ∧ fb s aon fAON_READY_DONE = false ∧ ((portsUp s = true ∨ s.pins.limit = true))) ∧
    (∃ (s : State), 2 ≤ stepNo s ∧ stepNo s ≤ 7) ∧
    (∃ (s : State), fb s aon fAON_READY_DONE = true ∧ s.hub.ctxs.any (fun e => e.2.posted.isSome || !e.2.owed.isEmpty) = false ∧ fb s aon fAON_READY_WAITFAB = false) :=
  ⟨⟨(fdSet (setPins (wStep 6) { aux := true, step1 := true, batch := 12 }) aon fAON_READY_TK 1), ([]), by decide +kernel⟩,
   ⟨(wStep 7), by decide +kernel⟩,
   ⟨(setFlash (wStep 7) { fab := some { dev := 4, expect := [], ent := [] } }), ({ dev := 4, expect := [], ent := [] }), by decide +kernel⟩,
   ⟨(fdSet (wStep 7) aon fAON_READY_TK 1), (3), (1), (2), ([(3, 2)]), by decide +kernel⟩,
   ⟨(wStep 8), by decide +kernel⟩,
   ⟨(setPins (fdSet (wStep 7) aon fAON_START_STAT_FABREC 1) { limit := true }), by decide +kernel⟩,
   ⟨(wStep 5), by decide +kernel⟩,
   ⟨(wCmd wUp 1), by decide +kernel⟩⟩

theorem witness_power_commands_complete :
    (∃ (s : State) (d : Nat), d < 11 ∧ fd s (pwr d) fPWR_STATUS_PHASES ≠ 0) ∧
    (∃ (s : State) (k : Nat), k < 288 ∧ fd s (clusPage k) fCLUS_STATUS_RAIL ≠ 0 ∧ (s.power.regAt.find? (fun e => e.1 == k)).isNone = true) ∧
    (∃ (s : State) (k : Nat) (j : Nat) (t0 : Nat), k < 288 ∧ fd s (clusPage k) fCLUS_STATUS_RAIL ≠ 0 ∧ s.power.regAt.find? (fun e => e.1 == k) = some (j, t0) ∧ s.now ≤ t0 + hourTicks 1 ∧ GradeHolds s) ∧
    (∃ (s : State), s.pins.aux = true) ∧
    (∃ (s : State), s.power.nsamp ≠ 0) ∧
    (∃ (s : State), s.power.nsamp ≠ 0 ∧ fb s hubPwr fPWR_LIM_CTL_LEN = true ∧ min (fd s hubPwr fPWR_LIMIT_WATTS) (300 * (s.power.vsum / s.power.nsamp) / 1000) < s.power.psum / s.power.nsamp / 1000 ∧ fd s hubPwr fPWR_LIM_STAT_FAPPLIED ≤ fmax s ∧ fd s hubPwr fPWR_LIM_CTL_MINF < fd s hubPwr fPWR_LIM_STAT_FAPPLIED) ∧
    (∃ (s : State) (d : Nat), d < 12 ∧ tget 0 s.power.throt d = 0) ∧
    (∃ (s : State) (d : Nat) (ma : Nat) (t0 : Nat), d < 12 ∧ s.power.throt = [(d, t0)] ∧ t0 ≠ 0 ∧ t0 - 1 + usTicks 50 ≤ s.now ∧ 100 * ma < 95 * throttleLevel s d) ∧
    (∃ (s : State) (k : Nat) (i : Nat) (c : Nat) (req : Req) (v : Word), k < 288 ∧ Granted s req (clusPage k) 0x44 v.toNat ∧ i < 4 ∧ (clusterCores k)[i]? = some c ∧ cstate s c ≠ 3) ∧
    (∃ (s : State) (c : Nat), c < 1152 ∧ coreTarget s c = 1 ∧ cstate s c = 0 ∧ ((coreHalted s c = true ∨ (seqr s c).napped = true))) :=
  ⟨⟨(fdSet wUp (pwr 2) fPWR_STATUS_PHASES 6), (2), by decide +kernel⟩,
   ⟨(wPll 2), (2), by decide +kernel⟩,
   ⟨(setPower (wPll 2) { regAt := [(2, 0)] }), (2), (2), (0), by decide +kernel⟩,
   ⟨(wUp), by decide +kernel⟩,
   ⟨(setPower wUp { nsamp := 2, psum := 4000000, vsum := 24000 }), by decide +kernel⟩,
   ⟨(fdSet (fdSet (setPower wUp { nsamp := 2, psum := 9000000, vsum := 24000 }) hubPwr fPWR_LIM_CTL_LEN 1) (clusPage 0) fCLUS_FREQ_TARGET 100), by decide +kernel⟩,
   ⟨(wUp), (2), by decide +kernel⟩,
   ⟨({ setPower wUp { throt := [(11, 1)] } with now := usTicks 60 }), (11), (100), (1), by decide +kernel⟩,
   ⟨(wUp), (2), (1), ((clusterCores 2).getD 1 0), (.hub), (4), by decide +kernel⟩,
   ⟨(setTarget wUp 3 1), (3), by decide +kernel⟩⟩

theorem witness_power_commands_complete_2 :
    (∃ (s : State) (c : Nat), c < 1152 ∧ cstate s c = 1) ∧
    (∃ (s : State) (k : Nat) (req : Req) (v : Word), k < 288 ∧ Granted s req (clusPage k) 0x48 v.toNat ∧ bit v.toNat 0 = true) ∧
    (∃ (s : State) (d : Nat), d < 8 ∧ fb s (pwr d) fPWR_DIE_CTL_IDLE_EN = true ∧ fd s (pwr d) fPWR_STATUS_DSTATE = 1 ∧ ((∀ i < 144, cstate s (144 * d + i) ≠ 0))) ∧
    (∃ (s : State) (d : Nat), d < 8 ∧ fd s (pwr d) fPWR_STATUS_DSTATE = 2) ∧
    (∃ (s : State) (req : Req) (v : Word), Granted s req hubPwr 0x90 (v.toNat ||| 1) ∧ contextsFree s = true ∧ ((pst s = 0 ∨ pst s = 1 ∨ pst s = 4 ∨ pst s = 6)) ∧ fb s aon fAON_READY_DONE = true) ∧
    (∃ (d : Nat), d < 11) ∧
    (∃ (s : State), s.pins.aux = true) ∧
    (∃ (s : State) (k : Nat) (req : Req) (v : Word), k < 288 ∧ Granted s req (clusPage k) 0x4C v.toNat ∧ v.toNat % 128 + fd s (clusPage k) fCLUS_VSET_OFFSET ≤ 80) ∧
    (∃ (s : State) (k : Nat) (req : Req) (v : Word), k < 288 ∧ Granted s req (clusPage k) 0x50 v.toNat ∧ v.toNat % 128 ≤ fd s (clusPage k) fCLUS_FREQ_WALKF) ∧
    (∃ (s : State) (req : Req) (v : Word), Granted s req hubPwr 0x80 v.toNat) :=
  ⟨⟨(setCstate wUp 3 1), (3), by decide +kernel⟩,
   ⟨(wUp), (2), (.hub), (0xA01), by decide +kernel⟩,
   ⟨(fdSet (fdSet wUp (pwr 3) fPWR_DIE_CTL_IDLE_EN 1) (pwr 3) fPWR_STATUS_DSTATE 1), (3), by decide +kernel⟩,
   ⟨(fdSet wUp (pwr 3) fPWR_STATUS_DSTATE 2), (3), by decide +kernel⟩,
   ⟨(wCmd wUp 1), (.hub), (0), by decide +kernel⟩,
   ⟨(2), by decide +kernel⟩,
   ⟨(setPins wUp { aux := true }), by decide +kernel⟩,
   ⟨(wUp), (2), (.hub), (40), by decide +kernel⟩,
   ⟨(wUp), (2), (.hub), (40), by decide +kernel⟩,
   ⟨(wUp), (.hub), (2000), by decide +kernel⟩⟩

theorem witness_clock_commands_complete :
    (∃ (s : State) (w0 : Nat) (wins : List Nat), s.pins.aux = true ∧ s.pins.step1 = false ∧ wins.length = 8 ∧ w0 = wins.headD 0 ∧ ((∀ w ∈ wins, (w - 16384 + (16384 - w)) * 1000000 ≤ 50000 * 16384 ∧ (w - w0 + (w0 - w)) * 1000000 ≤ 200 * w0))) ∧
    (∃ (s : State), fb s (hubPage .clk) fCLK_STATUS_XTAL_OK = true ∧ GradeHolds s) ∧
    (∃ (s : State) (k : Nat), k < 288 ∧ fd s (clusPage k) fCLUS_STATUS_PLL = 0 ∧ closed s (cmCluster k) = false ∧ ((fb s (clusPage k) fCLUS_CTL_HOLD = true ∨ (clusterCores k).any (fun c => cstate s c == 0) = true)) ∧ refPresent s = true) ∧
    (∃ (s : State) (k : Nat), k < 288 ∧ fd s (clusPage k) fCLUS_STATUS_PLL = 1 ∧ refPresent s = true) ∧
    (∃ (s : State) (k : Nat), k < 288 ∧ fd s (clusPage k) fCLUS_STATUS_PLL = 2 ∧ (s.power.pllAt.find? (fun e => e.1 == k)).isNone = true ∧ refPresent s = true) ∧
    (∃ (s : State) (d : Nat), d < 11 ∧ fb s (diePage .clk d) fCLK_STATUS_LOCKED = true ∧ refPresent s = true) ∧
    (∃ (s : State) (pd : Nat), pd < 2 ∧ fb s (diePage .clk (9 + pd)) fCLK_STATUS_SREF_OK = true) ∧
    (∃ (s : State) (pd : Nat), pd < 2 ∧ fb s (diePage .clk (9 + pd)) fCLK_STATUS_SREF_OK = false ∧ fb s (diePage .clk (9 + pd)) fCLK_STATUS_SREF_LOST = true) ∧
    (∃ (s : State), fb s (hubPage .clk) fCLK_STATUS_HREF_OK = true ∧ GradeHolds s) ∧
    (∃ (s : State) (k : Nat) (req : Req) (v : Word), k < 288 ∧ Granted s req (clusPage k) 0x48 (v.toNat ||| 2) ∧ bit v.toNat 0 = fb s (clusPage k) fCLUS_CTL_HOLD ∧ fd s (clusPage k) fCLUS_STATUS_PLL ≠ 0 ∧ refPresent s = true) :=
  ⟨⟨(setPins wUp { aux := true }), (16384), (List.replicate 8 16384), by decide +kernel⟩,
   ⟨(wPll 2), by decide +kernel⟩,
   ⟨(wPll 0), (2), by decide +kernel⟩,
   ⟨(wPll 1), (2), by decide +kernel⟩,
   ⟨(wPll 2), (2), by decide +kernel⟩,
   ⟨(fdSet wUp (diePage .clk 4) fCLK_STATUS_LOCKED 1), (4), by decide +kernel⟩,
   ⟨(fdSet wUp (diePage .clk 9) fCLK_STATUS_SREF_OK 1), (0), by decide +kernel⟩,
   ⟨(fdSet (fdSet wUp (diePage .clk 9) fCLK_STATUS_SREF_OK 0) (diePage .clk 9) fCLK_STATUS_SREF_LOST 1), (0), by decide +kernel⟩,
   ⟨(fdSet wUp (hubPage .clk) fCLK_STATUS_HREF_OK 1), by decide +kernel⟩,
   ⟨(wPll 3), (2), (.hub), (0xA00), by decide +kernel⟩⟩

theorem witness_clock_commands_complete_2 :
    (∃ (s : State) (d : Nat) (req : Req) (v : Word), d < 11 ∧ Granted s req (diePage .clk d) 0x44 (v.toNat ||| 1) ∧ refPresent s = true) ∧
    (∃ (s : State) (d : Nat) (req : Req) (v : Word), d < 11 ∧ Granted s req (diePage .clk d) 0x44 (v.toNat ||| 2) ∧ fb s (diePage .clk d) fCLK_STATUS_LOCKED = true) :=
  ⟨⟨(wUp), (3), (.hub), (0), by decide +kernel⟩,
   ⟨(fdSet (fdSet wUp (diePage .clk 3) fCLK_STATUS_CLK_LOST 1) (diePage .clk 3) fCLK_STATUS_LOCKED 1), (3), (.hub), (0), by decide +kernel⟩⟩

theorem witness_ring_commands_complete :
    (∃ (s : State) (r : Nat) (req : Req) (v : Word), r < 128 ∧ ((64 ≤ r ∨ Granted s req hostPg (0x400 + 4 * r) v.toNat)) ∧ (ring s r).en = true ∧ ringDist (v.toNat % 65536) (ring s r).head ≤ 2 ^ (ring s r).logsize ∧ ringDist (ring s r).cplw (v.toNat / 65536) ≤ 2 ^ (ring s r).logsize) ∧
    (∃ (s : State) (r : Nat) (req : Req) (v : Word), r < 128 ∧ ((64 ≤ r ∨ Granted s req hostPg (0x400 + 4 * r) v.toNat)) ∧ 2 ^ (ring s r).logsize < ringDist (v.toNat % 65536) (ring s r).head) ∧
    (∃ (s : State) (r : Nat) (e : Nat), r < 128 ∧ (ring s r).en = true ∧ (ring s r).state = 1 ∧ (ring s r).head ≠ (ring s r).tail ∧ ringDist (ring s r).head (ring s r).chead < 2 ^ (ring s r).logsize ∧ noSuchCommand (e % 2 ^ 512) = false) ∧
    (∃ (s : State) (r : Nat) (req : Req) (v : Word), Granted s req hostPg 0x64 (v.toNat ||| 16) ∧ r = fd s hostPg fHOST_RING_SEL_RING ∧ (ring s r).en = false) ∧
    (∃ (s : State) (n : Nat) (r : Nat) (v : Word), r = 64 + n % 64 ∧ 4 ≤ v.toNat % 16 ∧ v.toNat % 16 ≤ 12 ∧ bits v.toNat 16 11 ≤ 3 ∧ (ring s r).en = false) ∧
    (∃ (s : State) (r : Nat) (req : Req) (v : Word), Granted s req hostPg 0x64 (setBits v.toNat 4 1 0) ∧ r = fd s hostPg fHOST_RING_SEL_RING ∧ (ring s r).en = true ∧ (ring s r).pend = 0 ∧ (ring s r).logsize = v.toNat % 16) ∧
    (∃ (s : State) (r : Nat) (id : Nat) (k : HCmd), r < 128 ∧ nextCmd s r 1 = some k ∧ k.ring < 64 ∧ cmdCheck s k false = cOK ∧ entBytes k.entry 8 1 ≤ 1 ∧ entTag k.entry = 0 ∧ freeCtx s = some id) ∧
    (∃ (s : State) (r : Nat) (k : HCmd) (i : Itin), r < 128 ∧ nextCmd s r 2 = some k ∧ cmdCheck s k true = cOK ∧ entBytes k.entry 16 4 ≠ 0 ∧ k.itin = some i ∧ itinCode s k i = cOK ∧ (ctx s (cmdCtx k)).barred = none ∧ (i.place.foldl (fun r p => placeCore r (cmdCtx k) p) (i.data.foldl (fun s d => memWriteSpan s (hubEpoch s) d.1 (wordBytes d.2)) (itinDrop (takeCmd s k) (cmdCtx k)), 0)).2 = cOK) ∧
    (∃ (s : State) (r : Nat) (k : HCmd), r < 128 ∧ nextCmd s r 3 = some k ∧ cmdCheck s k true = cOK ∧ (ctx s (cmdCtx k)).itin.isSome = true ∧ (ctx s (cmdCtx k)).runs = [] ∧ entBytes k.entry 8 2 ≠ 0) ∧
    (∃ (s : State) (id : Nat) (x : Run) (l : List Run), id < 1024 ∧ (ctx s id).st = 1 ∧ (ctx s id).posted = none ∧ (ctx s id).held = false ∧ (ctx s id).bar.phase = 0 ∧ (ctx s id).itin.isSome = true ∧ (ctx s id).runs = x :: l ∧ x.done < x.count ∧ (ctx s id).owed = [] ∧ (ctx s id).barred = none ∧ (ctx s id).wait = 0 ∧ twinMode s ≠ 1) :=
  ⟨⟨(wCmd wUp 1), (0), (.host), (3), by decide +kernel⟩,
   ⟨(wCmd wUp 1), (0), (.host), (300), by decide +kernel⟩,
   ⟨(setRing wUp 0 { en := true, state := 1, tail := 2 }), (0), (1), by decide +kernel⟩,
   ⟨(wUp), (0), (.hub), (4), by decide +kernel⟩,
   ⟨(wUp), (1), (65), (5), by decide +kernel⟩,
   ⟨(setRing wUp 0 { en := true, state := 1, logsize := 5 }), (0), (.hub), (5), by decide +kernel⟩,
   ⟨(wCmd wUp 1), (0), (0), ({ ring := 0, entry := 1 }), by decide +kernel⟩,
   ⟨(setHost (wCmd (setCtx wUp 1 { st := 1 }) 1) { rings := [(0, { en := true, state := 1, pend := 1 })], cmds := [{ ring := 0, entry := 2 + 2 ^ 32 * 64 + 2 ^ 128, itin := some {} }] }), (0), ({ ring := 0, entry := 2 + 2 ^ 32 * 64 + 2 ^ 128, itin := some {} }), ({}), by decide +kernel⟩,
   ⟨(wCmd (wCtx {}) (3 + 2 ^ 32 * 64 + 2 ^ 64 * 5)), (0), ({ ring := 0, entry := 3 + 2 ^ 32 * 64 + 2 ^ 64 * 5 }), by decide +kernel⟩,
   ⟨(setCtx wUp 1 { st := 1, itin := some {}, runs := [{ ring := 0, cid := 1, flags := 0, count := 2 }] }), (1), ({ ring := 0, cid := 1, flags := 0, count := 2 }), ([]), by decide +kernel⟩⟩

theorem witness_ring_commands_complete_2 :
    (∃ (s : State) (id : Nat) (m : Nat), id < 1024 ∧ (ctx s id).posted = some m ∧ allMiled s id m = true ∧ (ctx s id).owed = [] ∧ (ctx s id).bar.phase = 0 ∧ pairMode s = 0) ∧
    (∃ (s : State) (r : Nat) (k : HCmd), r < 128 ∧ nextCmd s r 4 = some k ∧ cmdCheck s k true = cOK ∧ mileLe (entBytes k.entry 8 4) (ctx s (cmdCtx k)).mile = false ∧ entBytes k.entry 12 4 ≠ 0) ∧
    (∃ (s : State) (id : Nat) (r : Nat) (cid : Nat) (x : MWait), id < 1024 ∧ (ctx s id).waits.find? (fun w => w.ring == r && w.cid == cid) = some x ∧ (ring s x.ring).en = true ∧ bit x.flags 0 = false) ∧
    (∃ (s : State) (r : Nat) (n : Nat) (k : HCmd) (l : List (Nat × LogEnt)), r < 128 ∧ nextCmd s r 6 = some k ∧ k.ring < 64 ∧ entTag k.entry = 0 ∧ cmdCheck s k false = cOK ∧ entBytes k.entry 8 8 % 64 = 0 ∧ n = entBytes k.entry 16 4 ∧ n % 32 = 0 ∧ n ≠ 0 ∧ l = healEntries s (entBytes k.entry 20 4) ((n - 64) / 32) none) ∧
    (∃ (s : State) (r : Nat) (base : Nat) (size : Nat) (k : HCmd), r < 128 ∧ nextCmd s r 9 = some k ∧ 64 ≤ k.ring ∧ cmdCheck s k true = cOK ∧ base = entBytes k.entry 8 8 ∧ size = entBytes k.entry 16 4 ∧ base % 2 ^ 24 = 0 ∧ size ≤ 4096 ∧ base + size * 2 ^ 24 ≤ 2 ^ 40 ∧ ((∀ i < size, let g := (tget 0 s.grant ((base / 2 ^ 24 + i) % 65536)).toNat; (bits g 16 2 = 1 ∨ bits g 16 2 = 2) ∧ g % 65536 = ctxTag s (cmdCtx k)))) :=
  ⟨⟨(setCtx wUp 1 { st := 1, posted := some 3 }), (1), (3), by decide +kernel⟩,
   ⟨(wCmd (wCtx {}) (4 + 2 ^ 32 * 64 + 2 ^ 64 * 5 + 2 ^ 96)), (0), ({ ring := 0, entry := 4 + 2 ^ 32 * 64 + 2 ^ 64 * 5 + 2 ^ 96 }), by decide +kernel⟩,
   ⟨(setCtx (wCmd wUp 1) 1 { st := 1, waits := [{ ring := 0, cid := 7, flags := 0, mile := 9 }] }), (1), (0), (7), ({ ring := 0, cid := 7, flags := 0, mile := 9 }), by decide +kernel⟩,
   ⟨(wCmd wUp (6 + 2 ^ 128 * 64)), (0), (64), ({ ring := 0, entry := 6 + 2 ^ 128 * 64 }), ([]), by decide +kernel⟩,
   ⟨(setCtx (grantPut (setHost (wCmd wUp 1) { rings := [(65, { en := true, state := 1, pend := 1 })], cmds := [{ ring := 65, entry := 9 + 2 ^ 32 * 64 + 2 ^ 64 * 2 ^ 24 + 2 ^ 128 }] }) 1 64 1) 1 { st := 1, vf := some 1 }), (65), (2 ^ 24), (1), ({ ring := 65, entry := 9 + 2 ^ 32 * 64 + 2 ^ 64 * 2 ^ 24 + 2 ^ 128 }), by decide +kernel⟩⟩

theorem witness_host_commands_complete :
    (∃ (s : State) (r : Nat) (dev : Nat) (k : HCmd), r < 128 ∧ nextCmd s r 8 = some k ∧ k.ring < 64 ∧ entTag k.entry = 0 ∧ entBytes k.entry 8 1 = 1 ∧ cmdCheck s k false = cOK ∧ dev = entBytes k.entry 10 2 ∧ dev ≤ 1023 ∧ portsOff s = true ∧ s.hub.ctxs.any (fun e => e.2.st == 1) = false) ∧
    (∃ (s : State) (r : Nat) (first : Nat) (n : Nat) (b : Nat) (k : HCmd), r < 128 ∧ nextCmd s r 8 = some k ∧ k.ring < 64 ∧ entTag k.entry = 0 ∧ entBytes k.entry 8 1 = 2 ∧ cmdCheck s k false = cOK ∧ first = entBytes k.entry 12 2 ∧ n = entBytes k.entry 14 2 ∧ first + n ≤ 1024 ∧ xBank s = some b) ∧
    (∃ (s : State) (r : Nat) (b : Nat) (k : HCmd), r < 128 ∧ nextCmd s r 8 = some k ∧ k.ring < 64 ∧ entTag k.entry = 0 ∧ entBytes k.entry 8 1 = 3 ∧ cmdCheck s k false = cOK ∧ b = entBytes k.entry 9 1 ∧ b ≤ 1 ∧ xFlipping s = false ∧ xRetired s 9 (1 - injX s 9) = true ∧ xRetired s 10 (1 - injX s 9) = true) ∧
    (∃ (s : State) (r : Nat) (b : Nat) (k : HCmd) (x : Ring), r < 128 ∧ nextCmd s r 8 = some k ∧ k.ring < 64 ∧ entTag k.entry = 0 ∧ entBytes k.entry 8 1 = 4 ∧ cmdCheck s k false = cOK ∧ b = entBytes k.entry 9 1 ∧ b ≤ 1 ∧ x = ring s k.ring ∧ x.en = true ∧ bit (entFlags k.entry) 0 = false) ∧
    (∃ (s : State) (r : Nat) (b : Nat) (k : HCmd), r < 128 ∧ nextCmd s r 8 = some k ∧ k.ring < 64 ∧ entTag k.entry = 0 ∧ entBytes k.entry 8 1 = 5 ∧ cmdCheck s k false = cOK ∧ b = entBytes k.entry 9 1 ∧ b ≤ 1 ∧ injX s 9 ≠ b) ∧
    (∃ (s : State) (r : Nat) (p : Nat) (k : HCmd), r < 128 ∧ nextCmd s r 8 = some k ∧ k.ring < 64 ∧ entTag k.entry = 0 ∧ entBytes k.entry 8 1 = 6 ∧ cmdCheck s k false = cOK ∧ p = entBytes k.entry 9 1 ∧ p < 40 ∧ entBytes k.entry 10 2 ≤ 1023 ∧ entBytes k.entry 12 1 < 40 ∧ entBytes k.entry 13 1 ≤ 1) ∧
    (∃ (s : State) (r : Nat) (k : HCmd), r < 128 ∧ nextCmd s r 8 = some k ∧ k.ring < 64 ∧ entTag k.entry = 0 ∧ entBytes k.entry 8 1 = 7 ∧ cmdCheck s k false = cOK ∧ s.host.dev = true ∧ s.host.bank = true ∧ GradeHolds s) ∧
    (∃ (s : State) (r : Nat) (k : HCmd), r < 128 ∧ nextCmd s r 8 = some k ∧ k.ring < 64 ∧ entTag k.entry = 0 ∧ entBytes k.entry 8 1 = 8 ∧ cmdCheck s k false = cOK) ∧
    (∃ (s : State) (n : Nat) (req : Req) (v : Word), n < 4 ∧ Granted s req hostPg (0x80 + 4 * n) v.toNat ∧ ((v.toNat = 1 ∨ v.toNat = 2))) ∧
    (∃ (s : State) (n : Nat) (j : Nat), n < 4 ∧ s.host.mbox.find? (fun e => e.1 == n) = some (j, 1)) :=
  ⟨⟨(wCmd wUp (8 + 2 ^ 64 + 2 ^ 80 * 5)), (0), (5), ({ ring := 0, entry := 8 + 2 ^ 64 + 2 ^ 80 * 5 }), by decide +kernel⟩,
   ⟨(setHost (fdSet (fdSet (wCmd wUp 1) (xPage 9) (fXTAB_XCTL_RETIRE0.sub 1) 1) (xPage 10) (fXTAB_XCTL_RETIRE0.sub 1) 1) { rings := [(0, { en := true, state := 1, pend := 1 })], cmds := [{ ring := 0, entry := 8 + 2 ^ 65 + 2 ^ 112, table := [7] }] }), (0), (0), (1), (1), ({ ring := 0, entry := 8 + 2 ^ 65 + 2 ^ 112, table := [7] }), by decide +kernel⟩,
   ⟨(fdSet (wCmd wUp (8 + 2 ^ 64 * 3 + 2 ^ 72)) (xPage 9) (fXTAB_XCTL_RETIRE0.sub 1) 1), (0), (1), ({ ring := 0, entry := 8 + 2 ^ 64 * 3 + 2 ^ 72 }), by decide +kernel⟩,
   ⟨(wr (wCmd wUp (8 + 2 ^ 64 * 4)) (xPage 9) 0x4C 6), (0), (0), ({ ring := 0, entry := 8 + 2 ^ 64 * 4 }), ({ en := true, state := 1, pend := 1 }), by decide +kernel⟩,
   ⟨(wCmd wUp (8 + 2 ^ 64 * 5 + 2 ^ 72)), (0), (1), ({ ring := 0, entry := 8 + 2 ^ 64 * 5 + 2 ^ 72 }), by decide +kernel⟩,
   ⟨(wCmd wUp (8 + 2 ^ 64 * 6 + 2 ^ 72 * 3 + 2 ^ 80 * 4 + 2 ^ 96 * 5 + 2 ^ 104)), (0), (3), ({ ring := 0, entry := 8 + 2 ^ 64 * 6 + 2 ^ 72 * 3 + 2 ^ 80 * 4 + 2 ^ 96 * 5 + 2 ^ 104 }), by decide +kernel⟩,
   ⟨(setHost (wCmd wUp 1) { dev := true, bank := true, rings := [(0, { en := true, state := 1, pend := 1 })], cmds := [{ ring := 0, entry := 8 + 2 ^ 64 * 7 }] }), (0), ({ ring := 0, entry := 8 + 2 ^ 64 * 7 }), by decide +kernel⟩,
   ⟨(wCmd wUp (8 + 2 ^ 67)), (0), ({ ring := 0, entry := 8 + 2 ^ 67 }), by decide +kernel⟩,
   ⟨(wUp), (3), (.host), (1), by decide +kernel⟩,
   ⟨(setHost wUp { mbox := [(2, 1)] }), (2), (2), by decide +kernel⟩⟩

theorem witness_host_commands_complete_2 :
    (∃ (s : State) (n : Nat) (j : Nat), n < 4 ∧ s.host.mbox.find? (fun e => e.1 == n) = some (j, 2)) ∧
    (∃ (s : State) (n : Nat) (req : Req), n < 4 ∧ Readable s req hostPg (0x90 + 4 * n)) ∧
    (∃ (s : State) (req : Req), Readable s req hostPg 0x4C) ∧
    (∃ (s : State) (req : Req) (lo : Word) (hi : Word), Granted s req hostPg 0x44 lo.toNat ∧ Granted s req hostPg 0x48 hi.toNat ∧ ((plan s req hostPg 0x44 lo.toNat).new + 2 ^ 32 * (plan s req hostPg 0x48 hi.toNat).new) % bar2Size s = 0) ∧
    (∃ (s : State) (a : Nat) (off : Nat) (n : Nat), a = bar2Base s + off ∧ off + n ≤ bar2Size s ∧ a + n ≤ 2 ^ 40 ∧ n ≠ 0 ∧ MemSettled s 0xF0 (a / 8 * 8) ((a + n + 7) / 8 * 8 - a / 8 * 8) false = true) ∧
    (∃ (s : State) (a : Nat) (off : Nat) (n : Nat), a = bar2Base s + off ∧ off + n ≤ bar2Size s ∧ a + n ≤ 2 ^ 40 ∧ n ≠ 0 ∧ (chunksOf (a / 8 * 8) ((a + n + 7) / 8 * 8 - a / 8 * 8)).all (fun k => reqCode s (place s (injEpoch s 8 0xF0) k.1).1 { type := 8, sepoch := injEpoch s 8 0xF0, sdie := 8, sunit := 0xF0, addr := k.1, rlen := k.2 } != cOK) = true) ∧
    (∃ (s : State) (a : Nat) (off : Nat) (data : List Byte), a = bar2Base s + off ∧ a % 8 = 0 ∧ data.length % 8 = 0 ∧ data ≠ [] ∧ off + data.length ≤ bar2Size s ∧ a + data.length ≤ 2 ^ 40 ∧ MemSettled s 0xF0 a data.length true = true) ∧
    (∃ (s : State) (vf : Nat) (id : Nat) (a : Nat) (off : Nat) (n : Nat) (x : Ctx), vf < 64 ∧ s.hub.ctxs.find? (fun e => e.2.st != 0 && e.2.vf == some vf) = some (id, x) ∧ off + n ≤ x.winSize * 2 ^ 24 ∧ a = x.winBase + off ∧ n ≠ 0 ∧ MemSettled s 0xF0 (a / 8 * 8) ((a + n + 7) / 8 * 8 - a / 8 * 8) false = true) ∧
    (∃ (s : State), fd s aon fAON_GRADE_IN0_HCORES ≠ 0 ∧ GradeHolds s) ∧
    (∃ (s : State) (fn : Nat), fn < 65 ∧ fd s aon fAON_GRADE_IN0_HCORES = 0) :=
  ⟨⟨(setHost wUp { mbox := [(2, 2)] }), (2), (2), by decide +kernel⟩,
   ⟨(wr wUp hostPg 0x98 5), (2), (.host), by decide +kernel⟩,
   ⟨(wr wUp hostPg 0x4C 5), (.host), by decide +kernel⟩,
   ⟨(fdSet wUp hostPg fHOST_STATUS_BAR2SIZE 0), (.hub), (0x80000000), (3), by decide +kernel⟩,
   ⟨(wHash), (12), (12), (3), by decide +kernel⟩,
   ⟨(wUp), (bar2Base wUp + 12), (12), (3), by decide +kernel⟩,
   ⟨(wHash), (0), (0), ([1, 2, 3, 4, 5, 6, 7, 8]), by decide +kernel⟩,
   ⟨(setCtx wHash 3 { st := 1, vf := some 2, winBase := 2 ^ 24, winSize := 1 }), (2), (3), (2 ^ 24 + 4), (4), (4), ({ st := 1, vf := some 2, winBase := 2 ^ 24, winSize := 1 }), by decide +kernel⟩,
   ⟨(fdSet wUp aon fAON_GRADE_IN0_HCORES 15), by decide +kernel⟩,
   ⟨(wUp), (0), by decide +kernel⟩⟩

theorem witness_host_commands_complete_3 :
    (∃ (s : State) (fn : Nat) (v : Nat), fn < 65 ∧ fd s aon fAON_GRADE_IN0_HCORES ≠ 0 ∧ v ≤ 64) :=
  ⟨(fdSet wUp aon fAON_GRADE_IN0_HCORES 15), (0), (4), by decide +kernel⟩

theorem witness_management_commands_complete :
    (∃ (s : State), s.pins.pwrGood = true) ∧
    (∃ (s : State), s.pins.pwrGood = true) ∧
    (∃ (s : State) (d : Nat), s.pins.pwrGood = true ∧ d < 11 ∧ Readable s .mgmt (pwr d) 0x40) ∧
    (∃ (s : State) (p : PageId) (v : Word), s.pins.pwrGood = true ∧ pageOf p.no = some p ∧ Granted s .mgmt p 0x18 v.toNat) ∧
    (∃ (s : State), s.pins.pwrGood = true) ∧
    (∃ (s : State) (e : Nat) (b : Nat), s.pins.pwrGood = true ∧ fb s mgmtPg fMGMT_STATUS_ROMONLY = false ∧ fb s aon fAON_READY_DONE = true ∧ gradeOf s ≠ 0 ∧ entBytes e 8 1 = 5 ∧ b = entBytes e 9 1 ∧ b ≤ 1 ∧ injX s 9 ≠ b) ∧
    (∃ (s : State) (code : Nat) (arg : Nat), s.pins.pwrGood = true ∧ fb s (hubPage .auth) fAUTH_STATUS_MGMTCLOSED = false ∧ fuseCode { s with host := { s.host with armed := some 2 } } 2 code arg = cOK) ∧
    (∃ (s : State) (n : Nat), s.pins.pwrGood = true ∧ fb s mgmtPg fMGMT_STATUS_ROMONLY = false ∧ n ≤ 30) ∧
    (∃ (s : State) (watts : Nat), s.pins.pwrGood = true ∧ fb s mgmtPg fMGMT_STATUS_ROMONLY = false ∧ 1500 ≤ watts ∧ watts ≤ 3600 ∧ Granted s .hub hubPwr 0x80 watts) ∧
    (∃ (s : State), s.pins.pwrGood = true ∧ fd s mgmtPg fMGMT_STATUS_FWUP ≠ 1 ∧ fd s mgmtPg fMGMT_STATUS_FWUP ≠ 2) :=
  ⟨⟨(wMgmt), by decide +kernel⟩,
   ⟨(wMgmt), by decide +kernel⟩,
   ⟨(wMgmt), (2), by decide +kernel⟩,
   ⟨(wMgmt), (pwr 2), (6), by decide +kernel⟩,
   ⟨(wMgmt), by decide +kernel⟩,
   ⟨(setPins (wCmd wUp 1) { aux := true, pwrGood := true }), (2 ^ 64 * 5 + 2 ^ 72), (1), by decide +kernel⟩,
   ⟨(wMgmt), (1), (0), by decide +kernel⟩,
   ⟨(wMgmt), (29), by decide +kernel⟩,
   ⟨(wMgmt), (2000), by decide +kernel⟩,
   ⟨(wMgmt), by decide +kernel⟩⟩

theorem witness_management_commands_complete_2 :
    (∃ (s : State), s.pins.pwrGood = true ∧ fd s mgmtPg fMGMT_STATUS_FWUP = 1) ∧
    (∃ (s : State), s.pins.pwrGood = true ∧ fd s mgmtPg fMGMT_STATUS_FWUP = 2) ∧
    (∃ (s : State), s.pins.pwrGood = true ∧ fb s mgmtPg fMGMT_STATUS_ROMONLY = false) ∧
    (∃ (s : State), s.pins.pwrGood = true ∧ fb s mgmtPg fMGMT_STATUS_ROMONLY = false) ∧
    (∃ (s : State), s.pins.pwrGood = true ∧ fb s mgmtPg fMGMT_STATUS_ROMONLY = false) ∧
    (∃ (s : State) (a : Nat), debugShut s = false ∧ a % 4 = 0 ∧ a < 2 ^ 40 ∧ MemSettled s 0xF2 (a / 8 * 8) 8 false = true) ∧
    (∃ (s : State), fb s (hubPage .auth) fAUTH_STATUS_DBGLOCK = true) ∧
    (∃ (s : State) (req : Req) (v : Word), Granted s req (hubPage .auth) 0x44 (v.toNat ||| 1)) ∧
    (∃ (s : State) (req : Req), Granted s req fusePg 0x50 0xF05E) ∧
    (∃ (s : State), s.host.armed.isSome = true) :=
  ⟨⟨(fdSet wMgmt mgmtPg fMGMT_STATUS_FWUP 1), by decide +kernel⟩,
   ⟨(fdSet wMgmt mgmtPg fMGMT_STATUS_FWUP 2), by decide +kernel⟩,
   ⟨(wMgmt), by decide +kernel⟩,
   ⟨(wMgmt), by decide +kernel⟩,
   ⟨(wMgmt), by decide +kernel⟩,
   ⟨(wHash), (4), by decide +kernel⟩,
   ⟨(fdSet wUp (hubPage .auth) fAUTH_STATUS_DBGLOCK 1), by decide +kernel⟩,
   ⟨(wUp), (.hub), (0), by decide +kernel⟩,
   ⟨(wUp), (.mgmt), by decide +kernel⟩,
   ⟨(setHost wUp { armed := some 2 }), by decide +kernel⟩⟩

theorem witness_management_commands_complete_3 :
    (∃ (s : State) (req : Req) (v : Word), Granted s req fusePg 0x54 (setBits (v.toNat ||| 2 ^ 31) 0 4 1) ∧ fuseCode s req.cls 1 (bits v.toNat 4 2) = cOK) ∧
    (∃ (s : State) (req : Req) (v : Word), Granted s req fusePg 0x54 (setBits (v.toNat ||| 2 ^ 31) 0 4 2) ∧ fuseCode s req.cls 2 (bits v.toNat 4 2) = cOK) ∧
    (∃ (s : State) (req : Req) (v : Word), Granted s req fusePg 0x54 (setBits (v.toNat ||| 2 ^ 31) 0 4 3) ∧ fuseCode s req.cls 3 (bits v.toNat 4 2) = cOK) ∧
    (∃ (s : State) (req : Req) (v : Word), Granted s req fusePg 0x54 (setBits (v.toNat ||| 2 ^ 31) 0 4 4) ∧ fuseCode s req.cls 4 (bits v.toNat 4 2) = cOK) ∧
    (∃ (s : State) (f : FusePend), s.host.fuse = some f) ∧
    (∃ (s : State) (f : FusePend), s.host.fuse = some f) ∧
    (∃ (s : State), s.pins.pwrGood = true) :=
  ⟨⟨(setHost wMgmt { armed := some 2 }), (.mgmt), (0), by decide +kernel⟩,
   ⟨(setHost wMgmt { armed := some 2 }), (.mgmt), (0), by decide +kernel⟩,
   ⟨(setFlash (setHost wMgmt { armed := some 2 }) { hubA := { svn := 4 } }), (.mgmt), (0), by decide +kernel⟩,
   ⟨(setHost wMgmt { armed := some 2 }), (.mgmt), (0x20), by decide +kernel⟩,
   ⟨(setHost wUp { fuse := some { code := 2, arg := 0, cls := 2 } }), ({ code := 2, arg := 0, cls := 2 }), by decide +kernel⟩,
   ⟨(setHost wUp { fuse := some { code := 2, arg := 0, cls := 2 } }), ({ code := 2, arg := 0, cls := 2 }), by decide +kernel⟩,
   ⟨(setHost wMgmt { events := [(1, 4)] }), by decide +kernel⟩⟩

theorem witness_gauge_commands_complete :
    (∃ (s : State) (d : Nat) (i : Nat) (req : Req) (v : Word), d < 11 ∧ i < gaugeCount d ∧ Granted s req (gPage d i) 0x58 (v.toNat ||| 1) ∧ bit v.toNat 1 = false ∧ gRun s d i = false ∧ runRefused s d i = false) ∧
    (∃ (s : State) (d : Nat) (i : Nat) (req : Req) (v : Word), d < 11 ∧ i < gaugeCount d ∧ Granted s req (gPage d i) 0x58 (v.toNat &&& 0xFFFFFFFE) ∧ gRun s d i = true ∧ gSrc s d i ≠ 0x20) ∧
    (∃ (s : State) (d : Nat) (i : Nat) (req : Req) (v : Word), d < 11 ∧ i < gaugeCount d ∧ Granted s req (gPage d i) 0x58 (v.toNat ||| 2) ∧ bit v.toNat 0 = true ∧ gRun s d i = true ∧ gSrc s d i ≠ 0x20) ∧
    (∃ (s : State) (d : Nat) (i : Nat), d < 11 ∧ i < gaugeCount d ∧ gRun s d i = true ∧ gSrc s d i ≠ 0x20 ∧ ((fd s (gPage d i) fGAUGE_WIN_MODE = 1 ∧ (gauge s d i).opened + fd s (gPage d i) fGAUGE_WIN_LEN ≤ s.now ∨ fd s (gPage d i) fGAUGE_WIN_MODE = 2 ∧ (gauge s d i).opened < s.now ∧ s.now % 2 ^ 48 % fd s (gPage d i) fGAUGE_WIN_LEN = 0))) ∧
    (∃ (s : State) (d : Nat) (i : Nat) (inst : Nat) (sub : Nat), d < 11 ∧ i < gaugeCount d ∧ gRun s d i = true ∧ ((1 ≤ gSrc s d i ∧ gSrc s d i ≤ 5 ∨ gSrc s d i = 0x17)) ∧ gaugeTakes s d i inst sub = true) ∧
    (∃ (s : State) (d : Nat) (i : Nat) (inst : Nat) (sub : Nat), d < 11 ∧ i < gaugeCount d ∧ gRun s d i = true ∧ ((1 ≤ gSrc s d i ∧ gSrc s d i ≤ 5 ∨ gSrc s d i = 0x17)) ∧ gaugeTakes s d i inst sub = true) ∧
    (∃ (s : State) (d : Nat) (i : Nat) (v : Nat), d < 11 ∧ i < gaugeCount d ∧ gRun s d i = true ∧ levelValue s d i = some v) ∧
    (∃ (s : State) (d : Nat) (i : Nat), d < 11 ∧ i < gaugeCount d ∧ gRun s d i = true ∧ gSrc s d i = 6 ∧ isUp s (dieIfPort d (gInst s d i)) = true) :=
  ⟨⟨(wGauge 0x16 0), (0), (0), (.hub), (0), by decide +kernel⟩,
   ⟨(wGauge 0x16 1), (0), (0), (.hub), (0), by decide +kernel⟩,
   ⟨(wGauge 0x16 1), (0), (0), (.hub), (1), by decide +kernel⟩,
   ⟨({ fdSet (wGauge 0x16 1) (gPage 0 0) fGAUGE_WIN_MODE 1 with now := 2 ^ 33 }), (0), (0), by decide +kernel⟩,
   ⟨(wGauge 1 1), (0), (0), (0), (0), by decide +kernel⟩,
   ⟨(wGauge 1 1), (0), (0), (0), (0), by decide +kernel⟩,
   ⟨(wGauge 0x16 1), (0), (0), (0), by decide +kernel⟩,
   ⟨(fdSet (fdSet (fdSet (setPState wUp (dieIfPort 9 0) 4) (gPage 9 0) fGAUGE_SRC_INST 0) (gPage 9 0) fGAUGE_SRC_SRC 6) (gPage 9 0) fGAUGE_CTL_RUN 1), (9), (0), by decide +kernel⟩⟩

theorem witness_pin_commands_complete :
    (∃ (s : State), s.pins.aux = false) ∧
    (∃ (s : State), s.pins.aux = true ∧ s.pins.sampled = false) ∧
    (∃ (s : State), s.pins.aux = true ∧ s.pins.sampled = true) ∧
    (∃ (s : State), s.pins.aux = true) ∧
    (∃ (s : State), s.pins.pwrEn = false ∧ s.pins.trip = false ∧ mayBoot { s with pins := { s.pins with pwrEn := true } } = true) ∧
    (∃ (s : State), s.pins.pwrEn = false ∧ s.pins.trip = true) ∧
    (∃ (s : State), s.pins.pwrEn = true ∧ s.pins.step1 = true) ∧
    (∃ (s : State), s.pins.v12 = true ∧ s.pins.step1 = true) ∧
    (∃ (s : State), s.pins.v12 = false ∧ s.pins.lost12 = true ∧ s.pins.aux = true) ∧
    (∃ (s : State) (us : Nat), s.pins.aux = true ∧ s.pins.step1 = true ∧ s.pins.standby = false ∧ 10 ≤ us) :=
  ⟨⟨(State.reset), by decide +kernel⟩,
   ⟨(setPins wUp { aux := true }), by decide +kernel⟩,
   ⟨(setPins wUp { aux := true, sampled := true }), by decide +kernel⟩,
   ⟨(setPins wUp { aux := true }), by decide +kernel⟩,
   ⟨(setPins wUp { aux := true, step1 := true, v12 := true }), by decide +kernel⟩,
   ⟨(setPins wUp { aux := true, trip := true }), by decide +kernel⟩,
   ⟨(wStep 5), by decide +kernel⟩,
   ⟨(wStep 5), by decide +kernel⟩,
   ⟨(setPins wUp { aux := true, lost12 := true }), by decide +kernel⟩,
   ⟨(wStep 5), (10), by decide +kernel⟩⟩

theorem witness_pin_commands_complete_2 :
    (∃ (s : State) (us : Nat), s.pins.aux = true ∧ s.pins.step1 = true ∧ s.pins.standby = true ∧ 1000 ≤ us) ∧
    (∃ (s : State), ((s.pins.aux = false ∨ s.pins.step1 = true ∧ stepNo s = 0 ∧ fb s aon fAON_READY_DONE = false))) ∧
    (∃ (s : State), s.pins.flashExtN = false) :=
  ⟨⟨(setPins wUp { aux := true, step1 := true, standby := true }), (1000), by decide +kernel⟩,
   ⟨(State.reset), by decide +kernel⟩,
   ⟨(setPins wUp { flashExtN := false }), by decide +kernel⟩⟩

theorem witness_out_of_range_fields_are_refused :
    (∃ (s : State) (req : Req) (p : PageId) (off : Nat) (v : Word) (r : RegSpec) (f : FieldSpec), pageOf p.no = some p ∧ specOf p off = some r ∧ r.half = .one ∧ off % 4 = 0 ∧ off < 4096 ∧ f ∈ r.fields ∧ (f.acc = .rw ∨ f.acc = .wo) ∧ bit f.cls req.cls = true ∧ (f.of v.toNat < f.vmin ∨ f.vmax < f.of v.toNat) ∧ Reached s req p off ∧ mayWrite s req p off = true ∧ (plan s req p off v.toNat).denied = false) :=
  ⟨(wUp), (.hub), (qPage 5), (0x400), (0x7FFFFFFF), (sQENG_Qn_CFG), (fr 4 5 .rw 12 .d 12 22 127), by decide +kernel⟩

theorem witness_closed_units_answer_for_themselves :
    (∃ (s : State) (req : Req) (p : PageId) (off : Nat) (r : RegSpec), pageOf p.no = some p ∧ specOf p off = some r ∧ (off = 0 ∨ off = 4 ∨ off = 8) ∧ (req = .debug → debugShut s = false) ∧ mayRead s req p = true ∧ (unitClosed s p = true ∨ unitOff s p = true)) ∧
    (∃ (s : State) (req : Req) (p : PageId) (off : Nat), pageOf p.no = some p ∧ (specOf p off).isSome = true ∧ off % 4 = 0 ∧ 8 < off ∧ off < 4096 ∧ (req = .debug → debugShut s = false) ∧ mayRead s req p = true ∧ (unitClosed s p = true ∨ unitOff s p = true)) ∧
    (∃ (s : State) (req : Req) (p : PageId) (off : Nat) (v : Word), pageOf p.no = some p ∧ (specOf p off).isSome = true ∧ off % 4 = 0 ∧ 64 ≤ off ∧ off < 4096 ∧ (req = .debug → debugShut s = false) ∧ mayWrite s req p off = true ∧ unitClosed s p = true ∧ (plan s req p off v.toNat).denied = false ∧ (plan s req p off v.toNat).bad = false) ∧
    (∃ (s : State) (req : Req) (p : PageId) (off : Nat) (v : Word), pageOf p.no = some p ∧ (specOf p off).isSome = true ∧ off % 4 = 0 ∧ 64 ≤ off ∧ off < 4096 ∧ (req = .debug → debugShut s = false) ∧ mayWrite s req p off = true ∧ unitClosed s p = false ∧ unitOff s p = true ∧ (plan s req p off v.toNat).denied = false ∧ (plan s req p off v.toNat).bad = false) ∧
    (∃ (s : State) (req : Req) (p : PageId) (off : Nat) (v : Word), pageOf p.no = some p ∧ (specOf p off).isSome = true ∧ off % 4 = 0 ∧ 64 ≤ off ∧ off < 4096 ∧ (req = .debug → debugShut s = false) ∧ mayWrite s req p off = true ∧ (unitClosed s p = true ∨ unitOff s p = true) ∧ (plan s req p off v.toNat).denied = true) ∧
    (∃ (s : State) (req : Req) (p : PageId) (off : Nat) (v : Word), pageOf p.no = some p ∧ (specOf p off).isSome = true ∧ off % 4 = 0 ∧ 64 ≤ off ∧ off < 4096 ∧ (req = .debug → debugShut s = false) ∧ mayWrite s req p off = true ∧ (unitClosed s p = true ∨ unitOff s p = true) ∧ (plan s req p off v.toNat).denied = false ∧ (plan s req p off v.toNat).bad = true) :=
  ⟨⟨(State.reset), (.hub), (clusPage 3), (8), (sPG_STATUS), by decide +kernel⟩,
   ⟨(State.reset), (.hub), (clusPage 3), (0x50), by decide +kernel⟩,
   ⟨(markClosed State.reset (cmCore 0)), (.hub), (corePage .core 0), (0x58), (1), by decide +kernel⟩,
   ⟨(State.reset), (.hub), (corePage .core 0), (0x58), (1), by decide +kernel⟩,
   ⟨(State.reset), (.host), (corePage .spad 0), (1024), (0xFFFFFFFF), by decide +kernel⟩,
   ⟨(State.reset), (.hub), (qPage 0), (0x400), (0x7FFFFFFF), by decide +kernel⟩⟩

theorem witness_only_inside_and_debug_bind_pages :
    (∃ (s : State) (req : Req) (p : PageId), pageOf p.no = some p ∧ (req.cls = 5 ∨ req.cls = 6) ∧ (req = .debug → debugShut s = false) ∧ followerPage s p = none) ∧
    (∃ (req : Req) (p : PageId), pageOf p.no = some p ∧ (req.cls ≠ 5 ∧ req.cls ≠ 6)) :=
  ⟨⟨(wUp), (.hub), (corePage .core 0), by decide +kernel⟩,
   ⟨(.mgmt), (corePage .core 0), by decide +kernel⟩⟩

theorem witness_virtual_functions_read_only_their_own :
    (∃ (s : State) (n : Nat) (p : PageId) (off : Nat) (r : RegSpec), pageOf p.no = some p ∧ bit p.blk.rmask 1 = true ∧ bit (tget 0 s.host.vfs n).toNat 16 = true ∧ bit (rd s p 0xC) 16 = true ∧ (tget 0 s.host.vfs n).toNat % 65536 = rd s p 0xC % 65536 ∧ specOf p off = some r ∧ r.half = .one ∧ off % 4 = 0 ∧ off < 4096 ∧ unitClosed s p = false ∧ unitOff s p = false) ∧
    (∃ (s : State) (n : Nat) (p : PageId) (off : Nat), pageOf p.no = some p ∧ off % 4 = 0 ∧ off < 4096 ∧ (bit p.blk.rmask 1 = false ∨ bit (tget 0 s.host.vfs n).toNat 16 = false ∨ bit (rd s p 0xC) 16 = false ∨ (tget 0 s.host.vfs n).toNat % 65536 ≠ rd s p 0xC % 65536)) :=
  ⟨⟨(setHost (wr wUp (corePage .core 0) 0xC 0x10041) { wUp.host with vfs := [(3, 0x10041)] }), (3), (corePage .core 0), (8), (sPG_STATUS), by decide +kernel⟩,
   ⟨(wUp), (3), (corePage .core 0), (8), by decide +kernel⟩⟩

theorem witness_accesses_that_find_nothing :
    (∃ (s : State) (req : Req) (p : PageId) (off : Nat) (be : Nat), pageOf p.no = some p ∧ off % 4 = 0 ∧ off < 4096 ∧ (req = .debug → debugShut s = false) ∧ be < 16 ∧ mayWrite s req p off = false) ∧
    (∃ (s : State) (req : Req) (p : PageId) (off : Nat) (be : Nat), pageOf p.no = some p ∧ off % 4 = 0 ∧ off < 4096 ∧ (req = .debug → debugShut s = false) ∧ be < 16 ∧ mayWrite s req p off = true ∧ (specOf p off = none ∨ be ≠ 15)) ∧
    (∃ (s : State) (req : Req) (p : PageId) (off : Nat) (r : RegSpec), pageOf p.no = some p ∧ specOf p off = some r ∧ off % 4 = 0 ∧ off < 4096 ∧ Reached s req p off ∧ mayWrite s req p off = true ∧ r.writable = false) ∧
    (∃ (s : State) (req : Req) (p : PageId) (off : Nat) (r : RegSpec), pageOf p.no = some p ∧ specOf p off = some r ∧ r.half = .lo ∧ r.writable = true ∧ off % 4 = 0 ∧ off < 4096 ∧ Reached s req p off ∧ mayWrite s req p off = true) ∧
    (∃ (s : State) (req : Req) (no : Nat) (off : Nat), pageOf no = none ∧ no < 30720 ∧ off < 4096 ∧ (req = .debug → debugShut s = false) ∧ (req = .host → msixPage no off = none ∧ pbaPage no off = false)) ∧
    (∃ (s : State) (req : Req) (no : Nat) (off : Nat), pageOf no = none ∧ no < 32768 ∧ off < 4096 ∧ (req = .debug → debugShut s = false) ∧ (req = .host → msixPage no off = none ∧ pbaPage no off = false)) :=
  ⟨⟨(wUp), (.twin), (corePage .core 0), (0x38), (0), by decide +kernel⟩,
   ⟨(wUp), (.core 7), (corePage .core 0), (0x38), (7), by decide +kernel⟩,
   ⟨(wUp), (.core 7), (corePage .core 0), (0), (sPG_IDENT), by decide +kernel⟩,
   ⟨(wUp), (.hub), (diePage .sign 0), (0x48), (sSIGN_TBL_LO), by decide +kernel⟩,
   ⟨(wUp), (.mgmt), (2047), (0x38), by decide +kernel⟩,
   ⟨(wUp), (.mgmt), (2047), (0x38), by decide +kernel⟩⟩

theorem witness_followers_take_their_leaders_writes :
    (∃ (s : State) (req : Req) (p : PageId) (q : PageId), pageOf p.no = some p ∧ pageOf q.no = some q ∧ followerPage s p = some q ∧ Reached s req p 0x38 ∧ mayWrite s req p 0x38 = true) :=
  ⟨(wr wUp (healPage 0) 0x78 1), (.hub), (corePage .core 0), (corePage .core 1), by decide +kernel⟩

end Sys2Proof.Machine.Tests
end

section
/-! PROOFS. Which commands exist on the module, against what they answer (00_scope.md). -/
namespace Sys2Proof.Machine
open Sys2Proof

/-- The counterpart of `onUnit_lt`. -/
theorem onUnit_ge {n k : Nat} (t : State) (h : k ≤ n) : onUnit n k t = .fault .noSuchUnit :=
  if_neg (Nat.not_lt.mpr h)

/-- No die answers for a gauge beyond those it has (R615). -/
theorem onGauge_beyond_gaugeCount {d i : Nat} (t : State) (h : gaugeCount d ≤ i) :
    onGauge d i t = .fault .noSuchUnit := by
  unfold onGauge
  split
  · exact onUnit_ge t h
  · rfl

theorem exec_levelSamplePeriod_beyond_gaugeCount {d i : Nat} (s : State) (h : gaugeCount d ≤ i) :
    exec (.levelSamplePeriod d i) s = .fault .noSuchUnit :=
  onGauge_beyond_gaugeCount (levelSample s d i) h

/-- Refutes O41: die 0 has the gauges 0 to 7 (R615), but `Instr.wellFormed` lets a gauge command carry any number below 16, so
LEVEL_SAMPLE_PERIOD for gauge 8 of die 0 passes `SafeCmd` and yet faults, in the state after reset as in every other. -/
theorem not_everyCommandAnswers : ¬ Obligations.EveryCommandAnswers := by
  unfold Obligations.EveryCommandAnswers
  rintro ⟨safe_answers, -⟩
  have safe : SafeCmd (.levelSamplePeriod 0 8) := rfl
  have faults : exec (.levelSamplePeriod 0 8) State.reset = .fault .noSuchUnit :=
    exec_levelSamplePeriod_beyond_gaugeCount State.reset (d := 0) (i := 8) (by decide)
  obtain ⟨t, answers⟩ := safe_answers (.levelSamplePeriod 0 8) State.reset safe
  rw [faults] at answers
  cases answers

end Sys2Proof.Machine
end

section
/-! PROOFS. CFG of a VF's ring against the vectors a VF has (chapter 19). -/
namespace Sys2Proof.Machine
open Sys2Proof

/-- VECTOR of a VF's ring is 0 to 3 (R583). -/
theorem ringCfg_of_vector_beyond_vf (s : State) {r v : Nat} (hr : 64 ≤ r) (hv : 3 < bits v 16 11) : ringCfg s r v = (s, cRANGE) :=
  if_pos (.inr (.inr ⟨hr, hv⟩))

@[simp] theorem irqEdge_host (old s : State) (p : PageId) : (irqEdge old p s).host = s.host := by
  unfold irqEdge; split <;> rfl

@[simp] theorem errAt_host (s : State) (p : PageId) (code source detail addr tag : Nat) :
    (errAt s p code source detail addr tag).host = s.host := by
  unfold errAt; dsimp only; split
  · rfl
  · exact irqEdge_host _ _ _

/-- A CFG out of range is refused at the HOST page (R43). -/
theorem regReg_of_ringCfg_range {s : State} {eff : Nat} (cls new : Nat)
    (h : ringCfg s (fd s hostPg fHOST_RING_SEL_RING) eff = (s, cRANGE)) : regReg s cls hostPg 0x64 new eff = rangeAt s hostPg 0x64 := by
  change hostReg s 0x64 new eff = _
  unfold hostReg
  rw [if_pos rfl, h]
  rfl

/-- A granted write of CFG with a vector that the selected VF's ring does not have leaves every ring as it was (R583, R609). -/
theorem cfgWrite_of_vector_beyond_vf {s : State} {req : Req} {v : Nat} (hr : 64 ≤ fd s hostPg fHOST_RING_SEL_RING)
    (hv : 3 < bits (v % 2 ^ 32) 16 11) (g : Granted s req hostPg 0x64 v) :
    (registerWrite s req hostPg.no 0x64 v 15).host = s.host := by
  have spec : specOf hostPg 0x64 = some sHOST_RING_CFG := rfl
  have vector : bits (plan s req hostPg 0x64 v).eff 16 11 = bits (v % 2 ^ 32) 16 11 :=
    (plan_field spec g (by decide) (f := fs 16 11 .rw 0 .d) (by decide)).2.2 (by decide) (by decide)
  rw [registerWrite_one (p := hostPg) (pageOf_hub .host (.inl rfl)) spec rfl rfl rfl g]
  rw [regReg_of_ringCfg_range _ _ (ringCfg_of_vector_beyond_vf s hr (vector ▸ hv))]
  exact errAt_host _ _ _ _ _ _ _

/-- Every die runs, and the ring of VF 0 is selected. -/
def vfRingSelected : State := fdSet Tests.wUp hostPg fHOST_RING_SEL_RING 64

/-- Refutes O29: RING_ENABLE through the HOST page. Hub firmware, which may write the CFG of a VF's ring there, gives the ring of VF 0 the
vector 4. Every field of the word is in its range, so the write is granted; but a VF has the vectors 0 to 3 (R583), so the ring refuses it
with RANGE and stays disabled. -/
theorem not_ringCommandsComplete : ¬ Obligations.RingCommandsComplete := by
  unfold Obligations.RingCommandsComplete
  rintro ⟨-, -, -, ringEnable, -⟩
  let s := vfRingSelected
  let v : Word := 0x40004
  have granted : Granted s .hub hostPg 0x64 (v.toNat ||| 16) := by decide +kernel
  obtain ⟨t, answers, enabled⟩ := ringEnable s 64 .hub v granted (by decide) rfl
  have refused : (registerWrite s .hub hostPg.no 0x64 (v.toNat ||| 16) 15).host = s.host :=
    cfgWrite_of_vector_beyond_vf (by decide) (by decide) granted
  cases answers
  change tget {} (registerWrite s .hub hostPg.no 0x64 (v.toNat ||| 16) 15).host.rings 64 = _ at enabled
  rw [refused] at enabled
  cases congrArg Ring.en enabled

end Sys2Proof.Machine
end

section
/-! PROOFS. What the engines of a core leave of the module when a context operation stops, closes or clears that core (R506): the hub and
the other cores, and of the core itself what the operation has just set. One lemma per operation, callees before callers; a lemma takes
what holds up to the operation and gives what holds after it. -/
namespace Sys2Proof.Machine
open Sys2Proof

/-- What a core shows to a context operation: that its fabric is stopped, what its sequencer waits for and, where asked, its slots. -/
def shown (slots : Bool) (k : Core) : Bool × Wait × Tbl SlotQ := (k.stopped, k.seq.wait, if slots then k.qe.slots else [])

/-- STATE and WAITON of every sequencer are as they were. -/
def SeqStatesKept (s t : State) : Prop := ∀ p, rd t p fCORE_SEQ_STATE_STATE.off = rd s p fCORE_SEQ_STATE_STATE.off

theorem SeqStatesKept.refl (s : State) : SeqStatesKept s s := fun _ => rfl
theorem SeqStatesKept.trans {s t u : State} (h : SeqStatesKept s t) (k : SeqStatesKept t u) : SeqStatesKept s u := fun p => (k p).trans (h p)
theorem SeqStatesKept.seqSt {s t : State} (h : SeqStatesKept s t) (c : Nat) : seqSt t c = seqSt s c :=
  congrArg (bits · _ _) (h (cPage c))
theorem rd_of_regs {s t : State} (h : t.regs = s.regs) (p : PageId) (off : Nat) : rd t p off = rd s p off := by simp only [rd, h]
theorem SeqStatesKept.of_regs {s t : State} (h : t.regs = s.regs) : SeqStatesKept s t := fun p => rd_of_regs h p _

/-- A register at another offset is another register. -/
theorem rd_wr_offset_ne (s : State) {p q : PageId} {off o : Nat} (v : Nat) (h : off / 4 % 1024 ≠ o / 4 % 1024) :
    rd (wr s p off v) q o = rd s q o :=
  rd_wr_ne s v (by unfold regKey; omega)
theorem wr_seqStatesKept (s : State) (p : PageId) {off : Nat} (v : Nat) (ho : off / 4 % 1024 ≠ 17) : SeqStatesKept s (wr s p off v) :=
  fun _ => rd_wr_offset_ne s v ho

/-- From `s` to `t` the engines of core `c` have worked beside its sequencer. -/
structure CoreWork (slots : Bool) (c : Nat) (s t : State) : Prop where
  hub : t.hub = s.hub
  others : ∀ d, d ≠ c → core t d = core s d
  shows : shown slots (core t c) = shown slots (core s c)
  seqStates : SeqStatesKept s t

section
variable {b : Bool} {c : Nat} {s x : State}

theorem CoreWork.refl (b : Bool) (c : Nat) (s : State) : CoreWork b c s s := ⟨rfl, fun _ _ => rfl, rfl, .refl s⟩
theorem CoreWork.trans {t u : State} (h : CoreWork b c s t) (k : CoreWork b c t u) : CoreWork b c s u :=
  ⟨k.hub.trans h.hub, fun d hd => (k.others d hd).trans (h.others d hd), k.shows.trans h.shows, h.seqStates.trans k.seqStates⟩
theorem CoreWork.foldl {α : Type} {f : State → α → State} (h : CoreWork b c s x) (hf : ∀ {u} (e), CoreWork b c s u → CoreWork b c s (f u e))
    (l : List α) : CoreWork b c s (l.foldl f x) := by
  induction l generalizing x with
  | nil => exact h
  | cons e l ih => exact ih (hf e h)
theorem CoreWork.of_eq {t : State} (h : CoreWork b c s x) (hub : t.hub = x.hub) (cores : t.cores = x.cores) (regs : t.regs = x.regs) :
    CoreWork b c s t :=
  h.trans ⟨hub, fun d _ => by simp only [core, cores], by simp only [core, cores], .of_regs regs⟩
theorem CoreWork.ite {P : Prop} [Decidable P] {t u : State} (ht : CoreWork b c s t) (hu : CoreWork b c s u) :
    CoreWork b c s (if P then t else u) := by
  split <;> assumption
theorem CoreWork.unless {P : Prop} [Decidable P] {t u : State} (h : CoreWork b c s t) (hu : CoreWork b c s t → CoreWork b c s u) :
    CoreWork b c s (if P then t else u) :=
  .ite h (hu h)

/-! ### Registers, captures, reports -/

theorem wr_work (h : CoreWork b c s x) (p : PageId) {off : Nat} (v : Nat) (ho : off / 4 % 1024 ≠ 17 := by decide) :
    CoreWork b c s (wr x p off v) :=
  h.trans ⟨rfl, fun _ _ => rfl, rfl, wr_seqStatesKept x p v ho⟩
theorem fdSet_work (h : CoreWork b c s x) (p : PageId) {f : FRef} (v : Nat) (ho : f.off / 4 % 1024 ≠ 17 := by decide) :
    CoreWork b c s (fdSet x p f v) :=
  wr_work h p _ ho
theorem bumpBy_work (h : CoreWork b c s x) (p : PageId) {off : Nat} (n : Nat)
    (ho : off / 4 % 1024 ≠ 17 ∧ (off + 4) / 4 % 1024 ≠ 17 := by decide) : CoreWork b c s (bumpBy x p off n) :=
  .ite h (wr_work (wr_work h p _ ho.1) p _ ho.2)
theorem bump_work (h : CoreWork b c s x) (p : PageId) {off : Nat}
    (ho : off / 4 % 1024 ≠ 17 ∧ (off + 4) / 4 % 1024 ≠ 17 := by decide) : CoreWork b c s (bump x p off) :=
  bumpBy_work h p 1 ho
theorem send_work (h : CoreWork b c s x) (o : Out) : CoreWork b c s (send x o) := h.of_eq rfl rfl rfl
theorem irqEdge_work {old : State} (h : CoreWork b c s x) (p : PageId) : CoreWork b c s (irqEdge old p x) := .ite (send_work h _) h
theorem raiseInt_work (h : CoreWork b c s x) (p : PageId) (n : Nat) : CoreWork b c s (raiseInt x p n) := irqEdge_work (wr_work h p _) p
theorem errAt_work (h : CoreWork b c s x) (p : PageId) (code source detail addr tag : Nat) :
    CoreWork b c s (errAt x p code source detail addr tag) := by
  unfold errAt
  refine .ite (h.of_eq rfl rfl rfl) (raiseInt_work ?_ p 0)
  exact h.of_eq rfl rfl rfl
theorem qErr_work (h : CoreWork b c s x) (d code source detail addr int : Nat) : CoreWork b c s (qErr x d code source detail addr int) :=
  raiseInt_work (errAt_work h _ _ _ _ _ _) _ _
theorem coreErr_work (h : CoreWork b c s x) (d code source detail addr : Nat) (int : Option Nat) :
    CoreWork b c s (coreErr x d code source detail addr int) := by
  cases int with
  | none => exact errAt_work h _ _ _ _ _ _
  | some n => exact raiseInt_work (errAt_work h _ _ _ _ _ _) _ _
theorem report_work (h : CoreWork b c s x) (r : Report) : CoreWork b c s (report x r) :=
  h.trans ⟨report_hub x r, fun d _ => by simp [core], by simp [core], fun p => rd_report x r p _⟩
theorem watch_work (h : CoreWork b c s x) (kind unit ticks : Nat) : CoreWork b c s (watch x kind unit ticks) := h.of_eq rfl rfl rfl
theorem noticeOut_work (h : CoreWork b c s x) (d en : Nat) (f : Nat → Nat → Nat → Bool → Out) : CoreWork b c s (noticeOut x d en f) :=
  .ite (send_work h _) h

/-! ### The core's record -/

theorem setCore_work (h : CoreWork b c s x) {k : Core} (hk : shown b k = shown b (core x c)) : CoreWork b c s (setCore x c k) :=
  h.trans ⟨rfl, fun _ hd => core_setCore_ne x k hd, by rw [core_setCore_same, hk], .of_regs rfl⟩
theorem setQe_work (h : CoreWork b c s x) {q : Qe} (hq : b = true → q.slots = (qe x c).slots) : CoreWork b c s (setQe x c q) :=
  setCore_work h (by cases b with
    | false => rfl
    | true => simp only [shown, hq rfl]; rfl)
theorem setOutcome_work (h : CoreWork b c s x) (id code : Nat) : CoreWork b c s (setOutcome x c id code) := setCore_work h rfl
theorem setCu_work (h : CoreWork b c s x) (n : Nat) (u : Cu) : CoreWork b c s (setCu x c n u) := setCore_work h rfl
theorem startLinks_work (h : CoreWork b c s x) : CoreWork b c s (startLinks x c) := setCore_work h rfl
theorem setSlot_work (h : CoreWork false c s x) (q : Nat) (y : SlotQ) : CoreWork false c s (setSlot x c q y) := setQe_work h nofun
theorem setChan_work (h : CoreWork b c s x) (i : Nat) (y : Chan) : CoreWork b c s (setChan x c i y) := setQe_work h fun _ => rfl
theorem setHandle_work (h : CoreWork b c s x) (i : Nat) (y : Handle) : CoreWork b c s (setHandle x c i y) := setQe_work h fun _ => rfl
theorem clearQe_work (h : CoreWork false c s x) : CoreWork false c s (clearQe x c) := setQe_work h nofun

/-! ### Ranges of the scratchpad -/

theorem rangeRelease_work (h : CoreWork b c s x) (owner id : Nat) : CoreWork b c s (rangeRelease x c owner id) := setCore_work h rfl
theorem rangeAsk_work (h : CoreWork b c s x) (r : Range) : CoreWork b c s (rangeAsk x c r).1 := by
  unfold rangeAsk
  dsimp only
  split
  · exact raiseInt_work (errAt_work h _ _ _ _ _ _) _ _
  · split
    · exact h
    · split
      · exact h
      · exact setCore_work h rfl
theorem rangeGrant_work (h : CoreWork b c s x) (n : Nat) : CoreWork b c s (rangeGrant x c n) := by
  unfold rangeGrant
  dsimp only
  split
  · exact h
  · exact .ite h (.ite (setCore_work h rfl) (setCore_work h rfl))
theorem rangeTake_work (h : CoreWork b c s x) (r : Range) : CoreWork b c s (rangeTake x c r).1 := by
  have ask := rangeAsk_work h r
  unfold rangeTake
  dsimp only
  split
  · split
    · exact h
    · exact rangeGrant_work h _
  · split <;> rename_i e <;> rw [e] at ask
    · split
      · exact ask
      · exact rangeGrant_work ask _
    all_goals exact ask

/-! ### DMA descriptors -/

theorem updDesc_work (h : CoreWork b c s x) (id : Nat) (f : Desc → Desc) : CoreWork b c s (updDesc x c id f) := setCore_work h rfl
theorem dmaAsk_work (h : CoreWork b c s x) (id : Nat) (l : List Range) : CoreWork b c s (dmaAsk x c id l) := by
  induction l generalizing x with
  | nil => exact h
  | cons r l ih =>
    have ask := rangeAsk_work h r
    unfold dmaAsk
    split <;> rename_i e <;> rw [e] at ask
    · exact updDesc_work ask id _
    · exact ask
    · exact ih (updDesc_work ask id _)
theorem dmaAskAll_work (h : CoreWork b c s x) : CoreWork b c s (dmaAskAll x c) := h.foldl (fun d k => dmaAsk_work k d.id _) _
theorem dmaFinish_work (h : CoreWork b c s x) (d : Desc) (code : Nat) : CoreWork b c s (dmaFinish x c d code) := by
  have released := rangeRelease_work (rangeRelease_work h whoDma (2 * d.id)) whoDma (2 * d.id + 1)
  refine setOutcome_work (.unless ?_ fun k => bump_work k _) _ _
  refine bump_work (dmaAskAll_work (setCore_work released ?_)) _
  rfl

/-! ### Messages of the queue engine -/

theorem qeRelease_work (h : CoreWork b c s x) (id : Nat) : CoreWork b c s (qeRelease x c id) := by
  refine (rangeRelease_work h whoQe id).foldl (fun m k => ?_) _
  have ask := rangeAsk_work k m.range
  split <;> rename_i e <;> rw [e] at ask
  · exact ask
  · exact setQe_work ask fun _ => rfl
theorem jRelease_work (h : CoreWork false c s x) (q : Nat) : CoreWork false c s (jRelease x c q) :=
  .ite h (.ite (setSlot_work (setSlot_work h _ _) _ _) (setSlot_work h _ _))
theorem outcomeToSource_work (h : CoreWork false c s x) (m : Msg) (code : Nat) : CoreWork false c s (outcomeToSource x c m code) := by
  unfold outcomeToSource
  split
  · exact setOutcome_work h _ _
  · exact setOutcome_work (setQe_work h nofun) _ _
  · exact .ite h (jRelease_work (setSlot_work (.ite h (qErr_work h _ _ _ _ _ _)) _ _) _)
theorem endMsg_work (h : CoreWork false c s x) (m : Msg) (code : Nat) : CoreWork false c s (endMsg x c m code) := by
  have released := qeRelease_work (setQe_work h (q := { qe x c with
    unacked := (qe x c).unacked.filter (·.id != m.id), sendq := (qe x c).sendq.filter (·.id != m.id) }) nofun) m.id
  exact outcomeToSource_work (.unless (.ite (bump_work released _) released) fun k => qErr_work k _ _ _ _ _ _) m code
theorem endAll_work (h : CoreWork false c s x) (code : Nat) (l : List Msg) : CoreWork false c s (endAll x c code l) := by
  induction l generalizing x with
  | nil => exact h
  | cons m l ih => exact ih (endMsg_work h m code)
theorem qFlush_work (h : CoreWork false c s x) : CoreWork false c s (qFlush x c) := setQe_work (endAll_work h _ _) nofun

/-! ### Reads of the scratchpad -/

theorem setBank_work (h : CoreWork b c s x) (d w v : Nat) : CoreWork b c s (setBank x d (bankOf w) v) :=
  fdSet_work h _ v (by simp only [bankF, FRef.sub, FRef.at, bankOf, fSPAD_BANK_STATE_S]; omega)
theorem bankRefuse_work (h : CoreWork b c s x) (d who w code source : Nat) : CoreWork b c s (bankRefuse x d who w code source) :=
  raiseInt_work (errAt_work h _ _ _ _ _ _) _ _
theorem bankAsk_work (h : CoreWork b c s x) (d who w : Nat) : CoreWork b c s (bankAsk x d who w).1 := by
  unfold bankAsk
  dsimp only
  split
  · exact h
  · split
    · exact bankRefuse_work h _ _ _ _ _
    · split
      · exact h
      · exact bump_work (setBank_work h d w 5) _
      · exact bankRefuse_work (bump_work h _) _ _ _ _ _
      · exact bump_work h _
      · exact h
      · exact bankRefuse_work h _ _ _ _ _
      · exact h
theorem noteFlips_work (h : CoreWork b c s x) (w : Nat) (e : Ecc) : CoreWork b c s (noteFlips x c w e) := .ite h (setCore_work h rfl)
theorem applyWord_work (h : CoreWork b c s x) (w : Nat) (v : DWord) (p : Bool) : CoreWork b c s (applyWord x c w v p) := by
  have stored : CoreWork b c s (storeWord x c w v p) := by
    unfold storeWord
    dsimp only
    split <;> exact setCore_work h rfl
  exact setCore_work stored rfl
theorem spadUncorrectable_work (h : CoreWork b c s x) (w : Nat) (scrub : Bool) (who : Nat) :
    CoreWork b c s (spadUncorrectable x c w scrub who) := by
  have counted := bump_work h (spadPage c) (off := 0xC10)
  have held : (fSPAD_REGION_HOLD.at (regionOf w)).off / 4 % 1024 ≠ 17 := by
    simp only [FRef.at, regionOf, fSPAD_REGION_HOLD]; omega
  unfold spadUncorrectable reportCore
  dsimp only
  split
  · exact report_work (raiseInt_work (errAt_work (fdSet_work counted _ _ held) _ _ _ _ _ _) _ _) _
  · exact report_work (raiseInt_work (errAt_work (applyWord_work counted _ _ _) _ _ _ _ _ _) _ _) _
theorem spadFetch_work (h : CoreWork b c s x) (w : Nat) (e : Ecc) (who : Nat) : CoreWork b c s (spadFetch x c w e who).1 := by
  have read := bump_work (noteFlips_work h w e) (spadPage c) (off := 0xC38)
  unfold spadFetch
  dsimp only
  split
  · refine watch_work (bump_work (setCore_work read ?_) _) _ _ _
    rfl
  · split
    · exact read
    · exact spadUncorrectable_work read _ _ _
  · exact read
theorem spadRead_work (h : CoreWork b c s x) (who w : Nat) (e : Ecc) : CoreWork b c s (spadRead x c who w e).1 := by
  have ask := bankAsk_work h c who w
  unfold spadRead
  split <;> rename_i a <;> rw [a] at ask
  · exact ask
  · exact spadFetch_work ask _ _ _
theorem spadReadAll_work (h : CoreWork b c s x) (who w n : Nat) : CoreWork b c s (spadReadAll x c who w n).1 := by
  induction n generalizing x w with
  | zero => exact h
  | succ n ih =>
    have read := spadRead_work h who w .clean
    unfold spadReadAll
    split <;> rename_i e <;> rw [e] at read
    · exact ih read _
    · exact read

/-! ### The fabric of a configuration started (R135, R169) -/

theorem updConsts_work (h : CoreWork b c s x) (n : Nat) : CoreWork b c s (updConsts x c n).1 := by
  have store : ∀ {u : State} (p : Bool) (y : Cu), CoreWork b c s u →
      CoreWork b c s (if p then coreErr (setCu u c n y) c cPOISON 0x66 n 0 (some 11) else setCu u c n y) :=
    fun p y k => .ite (coreErr_work (setCu_work k n y) _ _ _ _ _ _) (setCu_work k n y)
  have take := rangeTake_work h { start := bits (cuWord x c (activeBuf x c) n 15) 0 20, len := 8, write := false, owner := 4 + n }
  unfold updConsts
  dsimp only
  rw [apply_ite Prod.fst]
  refine .ite h ?_
  split <;> rename_i e <;> rw [e] at take <;> dsimp only at take ⊢
  · exact store _ _ take
  · exact take
  · have read := spadReadAll_work take (4 + n) (bits (cuWord x c (activeBuf x c) n 15) 0 20) 8
    split <;> rename_i e <;> rw [e] at read <;> dsimp only at read ⊢
    · exact read
    · exact store _ _ (rangeRelease_work read _ _)
    · exact store _ _ (rangeRelease_work read _ _)
theorem startFlow_work (h : CoreWork b c s x) : CoreWork b c s (startFlow x c) :=
  (startLinks_work h).foldl (fun n k => .ite (updConsts_work k n) k) _
theorem startUnits_work (h : CoreWork b c s x) : CoreWork b c s (startUnits x c) := by
  refine CoreWork.foldl ?_ (fun m k => .ite (rangeTake_work k _) k) _
  exact setCore_work h rfl

end

end Sys2Proof.Machine
end

section
/-! PROOFS. Context operations at a die (R506): what HALT, CLOSE, REGEN and CLEAR do at one core and leave at the others, and what a granted write
of DIE_CTXOP comes to. -/
namespace Sys2Proof.Machine
open Sys2Proof

/-! ### The pages of cores -/

theorem corePage_no {b : Blk} (hb : b ∈ coreBlks) (c : Nat) : (corePage b c).no + 1 = c / 144 * 2048 + c % 144 * 8 + b.code := by
  simp only [coreBlks, List.mem_cons, List.not_mem_nil, or_false] at hb
  rcases hb with rfl | rfl | rfl | rfl | rfl <;> simp only [corePage, PageId.no, PageId.num, Blk.code] <;> omega

theorem code_of_coreBlk {b : Blk} (hb : b ∈ coreBlks) : 1 ≤ b.code ∧ b.code ≤ 5 := by
  simp only [coreBlks, List.mem_cons, List.not_mem_nil, or_false] at hb
  rcases hb with rfl | rfl | rfl | rfl | rfl <;> decide

theorem code_inj_of_coreBlk : ∀ b ∈ coreBlks, ∀ b' ∈ coreBlks, b.code = b'.code → b = b' := by decide

theorem homePage_corePage {b : Blk} (hb : b ∈ coreBlks) (c o : Nat) : homePage (corePage b c) o = corePage b c := by
  simp only [coreBlks, List.mem_cons, List.not_mem_nil, or_false] at hb
  rcases hb with rfl | rfl | rfl | rfl | rfl <;> rfl

/-- Pages of cores are told apart by their keys. -/
theorem corePage_of_regKey {b b' : Blk} (hb : b ∈ coreBlks) (hb' : b' ∈ coreBlks) {c c' o o' : Nat} (ho : o < 4096) (ho' : o' < 4096)
    (h : regKey (corePage b c) o = regKey (corePage b' c') o') : b = b' ∧ c = c' := by
  have no := corePage_no hb c
  have no' := corePage_no hb' c'
  have code := code_of_coreBlk hb
  have code' := code_of_coreBlk hb'
  unfold regKey at h
  exact ⟨code_inj_of_coreBlk b hb b' hb' (by omega), by omega⟩

/-- A register of a core's page, read after a write to a core's page. -/
theorem rd_wr_corePage (s : State) {b b' : Blk} (hb : b ∈ coreBlks) (hb' : b' ∈ coreBlks) {c c' o o' : Nat} (v : Nat)
    (h : b ≠ b' ∨ c ≠ c') (ho : o < 4096 := by decide) (ho' : o' < 4096 := by decide) :
    rd (wr s (corePage b' c') o' v) (corePage b c) o = rd s (corePage b c) o := by
  refine rd_wr_ne s v fun e => ?_
  rw [homePage_corePage hb, homePage_corePage hb'] at e
  obtain ⟨rfl, rfl⟩ := corePage_of_regKey hb hb' ho ho' e
  exact h.elim (· rfl) (· rfl)

/-! ### One operation at one core -/

/-- From `s` to `t` the hub, the records of all cores but `c` and the states of their sequencers are as they were. -/
structure OneCore (c : Nat) (s t : State) : Prop where
  hub : t.hub = s.hub
  others : ∀ d, d ≠ c → core t d = core s d
  seqStates : ∀ d, d ≠ c → seqSt t d = seqSt s d

section
variable {c : Nat} {s x : State}

theorem OneCore.refl (c : Nat) (s : State) : OneCore c s s := ⟨rfl, fun _ _ => rfl, fun _ _ => rfl⟩
theorem OneCore.trans {t u : State} (h : OneCore c s t) (k : OneCore c t u) : OneCore c s u :=
  ⟨k.hub.trans h.hub, fun d hd => (k.others d hd).trans (h.others d hd), fun d hd => (k.seqStates d hd).trans (h.seqStates d hd)⟩
theorem CoreWork.oneCore {b : Bool} {t : State} (h : CoreWork b c s t) : OneCore c s t :=
  ⟨h.hub, h.others, fun d _ => h.seqStates.seqSt d⟩
theorem OneCore.ite {P : Prop} [Decidable P] {t u : State} (ht : OneCore c s t) (hu : OneCore c s u) : OneCore c s (if P then t else u) := by
  split <;> assumption
theorem setCore_oneCore (h : OneCore c s x) (k : Core) : OneCore c s (setCore x c k) :=
  h.trans ⟨rfl, fun _ hd => core_setCore_ne x k hd, fun _ _ => rfl⟩
theorem fdSet_oneCore (h : OneCore c s x) {f : FRef} (v : Nat) (hf : f.off < 4096 := by decide) : OneCore c s (fdSet x (cPage c) f v) :=
  h.trans ⟨rfl, fun _ _ => rfl, fun d hd => congrArg (bits · _ _)
    (rd_wr_corePage x (b := .core) (b' := .core) (by decide) (by decide) _ (.inr hd) (by decide) hf)⟩
theorem setSeqSt_oneCore (h : OneCore c s x) (st on : Nat) : OneCore c s (setSeqSt x c st on) :=
  have put := fdSet_oneCore (fdSet_oneCore h (f := fCORE_SEQ_STATE_STATE) st) (f := fCORE_SEQ_STATE_WAITON) on
  .ite (fdSet_oneCore put 0) put

@[simp] theorem core_setSeqSt (y : State) (d st on e : Nat) : core (setSeqSt y d st on) e = core y e := by
  unfold setSeqSt
  dsimp only
  split <;> rfl

/-! HALT. -/

/-- A core that HALT has just stopped, before its DMA descriptors end. -/
def haltedSeq (s : State) (c : Nat) : State :=
  let s := setSeq s c { seqr s c with wait := .none, napped := false }
  let s := fdSet (if seqSt s c = 4 then s else setSeqSt s c 0 0) (corePage .core c) fCORE_SEQ_CTL_RUN 0
  setCore s c { core s c with stopped := true }

theorem haltCore_work (s : State) (c : Nat) : CoreWork true c (haltedSeq s c) (haltCore s c) :=
  (fdSet_work (.refl true c (haltedSeq s c)) (qPage c) 1).foldl (fun d k => dmaFinish_work k d cPURGED) _

theorem haltedSeq_oneCore (s : State) (c : Nat) : OneCore c s (haltedSeq s c) := by
  have waits := setCore_oneCore (.refl c s) { core s c with seq := { seqr s c with wait := .none, napped := false } }
  exact setCore_oneCore (fdSet_oneCore (.ite waits (setSeqSt_oneCore waits 0 0)) 0) _

theorem haltedSeq_shown (s : State) (c : Nat) : (core (haltedSeq s c) c).stopped = true ∧ (core (haltedSeq s c) c).seq.wait = .none := by
  unfold haltedSeq
  dsimp only
  rw [core_setCore_same]
  refine ⟨rfl, ?_⟩
  change (core (ite _ _ _) c).seq.wait = .none
  split <;> simp [setSeq]

/-- HALT stops the core's fabric and ends its sequencer's wait. -/
theorem haltCore_stops (s : State) (c : Nat) : (core (haltCore s c) c).stopped = true ∧ (seqr (haltCore s c) c).wait = .none := by
  obtain ⟨stopped, wait⟩ := haltedSeq_shown s c
  have shows := (haltCore_work s c).shows
  simp only [shown, Prod.mk.injEq] at shows
  exact ⟨shows.1.trans stopped, shows.2.1.trans wait⟩

theorem haltCore_oneCore (s : State) (c : Nat) : OneCore c s (haltCore s c) := (haltedSeq_oneCore s c).trans (haltCore_work s c).oneCore

/-! CLOSE. -/

/-- CLOSE at one handle. -/
def closeHandle (c : Nat) (s : State) (e : Nat × Handle) : State :=
  if e.2.state ≠ 1 then s
  else noticeOut (setHandle s c e.1 { e.2 with state := 2 }) (c / 144) e.2.en
    (.closeNotice c e.2.en e.1 true e.2.sidx (if e.2.conv then some (handleCvid s c e.1) else none))

theorem closeHandle_work (h : CoreWork false c s x) (e : Nat × Handle) : CoreWork false c s (closeHandle c x e) :=
  .ite h (noticeOut_work (setHandle_work h _ _) _ _ _)

/-- CLOSE breaks the channels, then closes the handles. -/
theorem closeCore_eq (s : State) (c : Nat) :
    ∃ u, CoreWork false c s u ∧ closeCore s c = (qe u c).handles.foldl (closeHandle c) u := by
  refine ⟨_, CoreWork.foldl (.refl false c s) (fun e k => ?_) _, rfl⟩
  exact .ite k (setChan_work (endAll_work (.ite k (noticeOut_work k _ _ _)) _ _) _ _)

theorem closeCore_oneCore (s : State) (c : Nat) : OneCore c s (closeCore s c) := by
  obtain ⟨u, work, eq⟩ := closeCore_eq s c
  rw [eq]
  exact (work.foldl (fun e k => closeHandle_work k e) _).oneCore

theorem core_noticeOut (s : State) (d en c : Nat) (f : Nat → Nat → Nat → Bool → Out) : core (noticeOut s d en f) c = core s c := by
  unfold noticeOut
  dsimp only
  split <;> rfl

theorem handle_closeHandle (c : Nat) (s : State) (e : Nat × Handle) (i : Nat) :
    handle (closeHandle c s e) c i = if e.2.state = 1 ∧ i = e.1 then { e.2 with state := 2 } else handle s c i := by
  by_cases open_ : e.2.state = 1
  · have put : handle (closeHandle c s e) c i = handle (setHandle s c e.1 { e.2 with state := 2 }) c i := by
      unfold closeHandle
      rw [if_neg (not_not.2 open_)]
      simp only [handle, qe, core_noticeOut]
    rw [put]
    simp only [open_, true_and, handle, setHandle, setQe, qe, core_setCore_same, tget_tput]
  · unfold closeHandle
    rw [if_pos open_, if_neg (fun h => open_ h.1)]

/-- A handle still open after CLOSE has gone through a list was open before, and no entry of the list was it. -/
theorem open_of_foldl_closeHandle {c i : Nat} {l : List (Nat × Handle)} {s : State} (h : (handle (l.foldl (closeHandle c) s) c i).state = 1) :
    (handle s c i).state = 1 ∧ ∀ e ∈ l, e.1 = i → e.2.state ≠ 1 := by
  induction l generalizing s with
  | nil => exact ⟨h, nofun⟩
  | cons e l ih =>
    obtain ⟨before, rest⟩ := ih h
    rw [handle_closeHandle] at before
    split at before
    · cases before
    · rename_i other
      refine ⟨before, fun e' he => ?_⟩
      rcases List.mem_cons.1 he with rfl | he
      · exact fun hi ho => other ⟨ho, hi.symm⟩
      · exact rest e' he

/-- What a table holds at a key is what it holds nowhere else, or one of its entries. -/
theorem tget_eq_or_mem {α : Type} (d : α) (t : Tbl α) (n : Nat) : tget d t n = d ∨ (n, tget d t n) ∈ t := by
  induction t with
  | nil => exact .inl rfl
  | cons a t ih =>
    obtain ⟨k, w⟩ := a
    unfold tget
    split
    · subst_vars; exact .inr (List.mem_cons_self ..)
    · split
      · exact .inl rfl
      · exact ih.imp_right (List.mem_cons_of_mem _)

/-- CLOSE leaves no handle open. -/
theorem closeCore_closes (s : State) (c i : Nat) : (handle (closeCore s c) c i).state ≠ 1 := by
  obtain ⟨u, -, eq⟩ := closeCore_eq s c
  rw [eq]
  intro still
  obtain ⟨before, none_⟩ := open_of_foldl_closeHandle still
  rcases tget_eq_or_mem {} (qe u c).handles i with e | e
  · rw [handle, e] at before
    cases before
  · exact none_ _ e rfl before

/-! REGEN. -/

/-- PG_GEN with another generation. -/
def regenWord (g w : Nat) : Nat := w / 64 * 64 + g

theorem regenWord_idem {g : Nat} (hg : g < 64) (w : Nat) : regenWord g (regenWord g w) = regenWord g w := by
  unfold regenWord
  omega

/-- What is read after a list of operations, of which those that `P` names change what is read by `w` and the others leave it. -/
theorem foldl_change_or_keep {α : Type} {f : State → α → State} {view : State → Nat} {P : α → Prop} [DecidablePred P] {w : Nat → Nat} {l : List α}
    (idem : ∀ v, w (w v) = w v) (change : ∀ s, ∀ a ∈ l, P a → view (f s a) = w (view s))
    (keep : ∀ s, ∀ a ∈ l, ¬P a → view (f s a) = view s) (s : State) :
    view (l.foldl f s) = if ∃ a ∈ l, P a then w (view s) else view s := by
  induction l generalizing s with
  | nil => simp
  | cons a l ih =>
    rw [List.foldl_cons, ih (fun s a ha => change s a (List.mem_cons_of_mem _ ha)) (fun s a ha => keep s a (List.mem_cons_of_mem _ ha))]
    by_cases ha : P a
    · have head := change s a (List.mem_cons_self ..) ha
      by_cases tail : ∃ a ∈ l, P a <;> simp [ha, tail, head, idem]
    · have head := keep s a (List.mem_cons_self ..) ha
      simp [ha, head]

/-- REGEN writes the generation into PG_GEN of the core's five pages, and into no other core's. -/
theorem rd_regenCore (s : State) (c d gen : Nat) {b : Blk} (hb : b ∈ coreBlks) :
    rd (regenCore s c gen) (corePage b d) 0xC =
      if c = d then regenWord (gen % 64) (rd s (corePage b d) 0xC) else rd s (corePage b d) 0xC := by
  have fold := foldl_change_or_keep (view := fun s => rd s (corePage b d) 0xC) (P := fun b' => b' = b ∧ c = d) (l := coreBlks)
    (f := fun s b' => wr s (corePage b' c) 0xC (rd s (corePage b' c) 0xC - rd s (corePage b' c) 0xC % 64 + gen % 64))
    (regenWord_idem (Nat.mod_lt gen (by decide))) ?_ ?_ s
  · refine fold.trans ?_
    simp [hb]
  · rintro s b' - ⟨rfl, rfl⟩
    have := rd_lt s (corePage b' c) 0xC
    rw [rd_wr_same, regenWord]
    omega
  · intro s b' hb' other
    refine rd_wr_corePage s hb hb' _ ?_
    by_cases h : b' = b
    · exact .inr fun e => other ⟨h, e.symm⟩
    · exact .inl fun e => h e.symm

theorem rd_foldl_regenCore (s : State) (cs : List Nat) (d gen : Nat) {b : Blk} (hb : b ∈ coreBlks) (hd : d ∈ cs) :
    rd (cs.foldl (fun s c => regenCore s c gen) s) (corePage b d) 0xC = regenWord (gen % 64) (rd s (corePage b d) 0xC) := by
  have fold := foldl_change_or_keep (view := fun s => rd s (corePage b d) 0xC) (P := fun c => c = d) (l := cs)
    (f := fun s c => regenCore s c gen) (regenWord_idem (Nat.mod_lt gen (by decide)))
    (fun s c _ h => (rd_regenCore s c d gen hb).trans (if_pos h)) (fun s c _ h => (rd_regenCore s c d gen hb).trans (if_neg h)) s
  rwa [if_pos ⟨d, hd, rfl⟩] at fold

/-! CLEAR. -/

/-- A core being cleared, with its sequencer HALTED. -/
def clearedSeq (s : State) (c : Nat) : State := setSeqSt (fdSet (qFlush s c) (qPage c) fQENG_CTL_SENDSTOP 0) c 0 0
/-- The same with its queue engine and units empty, before the fabric starts again. -/
def clearedUnits (s : State) (c : Nat) : State :=
  let s := setSeq s c { lm := (seqr s c).lm }
  let s := clearQe ((List.range 64).foldl (fun s q => fdSet s (qPage c) (fQENG_Q_CFG_OPEN.at q) 0) s) c
  clearUnits (bumpBy s (flowPage c) 0xC08 (purgeCount s c)) c

theorem clearedSeq_oneCore (s : State) (c : Nat) : OneCore c s (clearedSeq s c) :=
  setSeqSt_oneCore (fdSet_work (qFlush_work (.refl false c s)) (qPage c) 0).oneCore 0 0

theorem clearedSeq_seqSt (s : State) (c : Nat) : seqSt (clearedSeq s c) c = 0 := by
  unfold clearedSeq setSeqSt seqSt
  rw [if_pos rfl, fd_fdSet_other _ _ (by unfold regKey; simp [homePage, fCORE_SEQ_STATE_STATE, fCORE_SEQ_CTL_STEP]),
    fd_fdSet_ne _ _ (f := fCORE_SEQ_STATE_WAITON) (g := fCORE_SEQ_STATE_STATE) _ (by decide) rfl (by decide), fd_fdSet_same _ _ _ _ (by decide), Nat.zero_mod]

/-- Between the sequencer's fresh start and the fabric's, the queue engine alone works. -/
theorem clearedUnits_eq (s : State) (c : Nat) :
    ∃ u, CoreWork false c (setSeq s c { lm := (seqr s c).lm }) u ∧ (qe u c).slots = [] ∧ clearedUnits s c = clearUnits u c := by
  have shut : ∀ q, (fQENG_Q_CFG_OPEN.at q).off / 4 % 1024 ≠ 17 := by
    intro q
    simp only [FRef.at, fQENG_Q_CFG_OPEN]
    omega
  refine ⟨_, bumpBy_work (clearQe_work (.foldl (.refl _ _ _) (fun q k => fdSet_work k (qPage c) 0 (shut q)) (List.range 64))) (flowPage c) _, ?_, rfl⟩
  simp [qe, core, clearQe, setQe, setCore]

theorem clearedUnits_oneCore (s : State) (c : Nat) : OneCore c s (clearedUnits s c) := by
  obtain ⟨u, work, -, eq⟩ := clearedUnits_eq s c
  rw [eq]
  exact setCore_oneCore ((setCore_oneCore (.refl c s) _).trans work.oneCore) _

theorem clearedUnits_seqStates (s : State) (c : Nat) : SeqStatesKept s (clearedUnits s c) := by
  obtain ⟨u, work, -, eq⟩ := clearedUnits_eq s c
  rw [eq]
  exact .trans (.of_regs (s := s) rfl) (.trans work.seqStates (.of_regs rfl))

theorem clearCore_work (s : State) (c : Nat) : CoreWork true c (clearedUnits (clearedSeq s c) c) (clearCore s c) :=
  startFlow_work (startUnits_work (.refl true c _))

theorem clearCore_oneCore (s : State) (c : Nat) : OneCore c s (clearCore s c) :=
  ((clearedSeq_oneCore s c).trans (clearedUnits_oneCore _ c)).trans (clearCore_work s c).oneCore

/-- CLEAR leaves the core's sequencer HALTED, its fabric free to run and its slots empty. -/
theorem clearCore_clears (s : State) (c : Nat) :
    seqSt (clearCore s c) c = 0 ∧ (core (clearCore s c) c).stopped = false ∧ (qe (clearCore s c) c).slots = [] := by
  obtain ⟨u, -, slots, eq⟩ := clearedUnits_eq (clearedSeq s c) c
  have shows := (clearCore_work s c).shows
  rw [eq, clearUnits, core_setCore_same] at shows
  simp only [shown, Prod.mk.injEq, if_true] at shows
  refine ⟨?_, shows.1, shows.2.2.trans slots⟩
  rw [((clearedUnits_seqStates _ c).trans (clearCore_work s c).seqStates).seqSt, clearedSeq_seqSt]
end

/-- Operations at the cores of a list, each of which does its part at its own core and leaves the others' done, have done it at all. -/
theorem foldl_each {f : State → Nat → State} {P : State → Nat → Prop} (own : ∀ s c, P (f s c) c)
    (others : ∀ s c d, d ≠ c → P s d → P (f s c) d) (l : List Nat) (s : State) : ∀ c ∈ l, P (l.foldl f s) c := by
  have kept : ∀ (l : List Nat) (s : State) (d : Nat), P s d → P (l.foldl f s) d := by
    intro l
    induction l with
    | nil => exact fun _ _ h => h
    | cons c l ih =>
      intro s d h
      by_cases e : d = c
      · exact ih _ d (e ▸ own s c)
      · exact ih _ d (others s c d e h)
  induction l generalizing s with
  | nil => exact nofun
  | cons c l ih =>
    intro d hd
    rcases List.mem_cons.1 hd with rfl | hd
    · exact kept l _ d (own s d)
    · exact ih _ d hd

/-! ### A write of DIE_CTXOP -/

/-- An operation under way at a die. -/
def ctxOpTaken (s : State) (d n : Nat) (k : CtxOp) : State :=
  let s := fdSet (fdSet s (diePage .die d) fDIE_STATUS_CTXBUSY 1) (diePage .die d) fDIE_CTXOP_STAT_BUSY 1
  setHub (fdSet s (diePage .die d) fDIE_CTXOP_STAT_CORES n) { s.hub with ctxops := tput s.hub.ctxops d k }

section
variable (s : State) (d n : Nat) (k : CtxOp)

@[simp] theorem core_ctxOpTaken (c : Nat) : core (ctxOpTaken s d n k) c = core s c := rfl
theorem rd_ctxOpTaken (p : PageId) {o : Nat} (ho : o / 4 % 1024 ≠ 16 ∧ o / 4 % 1024 ≠ 25) : rd (ctxOpTaken s d n k) p o = rd s p o := by
  obtain ⟨status, stat⟩ := ho
  exact (rd_wr_offset_ne _ _ stat.symm).trans ((rd_wr_offset_ne _ _ stat.symm).trans (rd_wr_offset_ne _ _ status.symm))
theorem seqSt_ctxOpTaken (c : Nat) : seqSt (ctxOpTaken s d n k) c = seqSt s c :=
  congrArg (bits · _ _) (rd_ctxOpTaken s d n k (cPage c) (by decide))
theorem ctxOpTaken_busy : fb (ctxOpTaken s d n k) (diePage .die d) fDIE_STATUS_CTXBUSY = true := by
  have other : ∀ (t : State) (f : FRef) (v : Nat), f.off = 0x64 →
      fd (fdSet t (diePage .die d) f v) (diePage .die d) fDIE_STATUS_CTXBUSY = fd t (diePage .die d) fDIE_STATUS_CTXBUSY := by
    intro t f v hf
    exact congrArg (bits · _ _) (rd_wr_offset_ne t _ (by rw [hf]; decide))
  have busy : fd (ctxOpTaken s d n k) (diePage .die d) fDIE_STATUS_CTXBUSY = 1 :=
    (other _ fDIE_CTXOP_STAT_CORES n rfl).trans ((other _ fDIE_CTXOP_STAT_BUSY 1 rfl).trans (fd_fdSet_same _ _ _ _ (by decide)))
  exact beq_iff_eq.2 busy
theorem ctxOpTaken_cores (hn : n < 256) : fd (ctxOpTaken s d n k) (diePage .die d) fDIE_CTXOP_STAT_CORES = n :=
  (fd_fdSet_same _ _ fDIE_CTXOP_STAT_CORES n (by decide)).trans (Nat.mod_eq_of_lt hn)

end

theorem length_dieCtxCores_lt (s : State) (d id : Nat) : (dieCtxCores s d id).length < 256 := by
  have le : (dieCtxCores s d id).length ≤ 144 := (List.length_filter_le _ _).trans (by simp)
  omega

/-- An operation that exists, at a die that is idle and whose cores of the context it finds ready, is carried out at each of them. -/
theorem dieCtxOp_eq {s : State} {d v : Nat} (go : bit v 31 = true) (op : 1 ≤ v % 8 ∧ v % 8 ≤ 4)
    (idle : fb s (diePage .die d) fDIE_STATUS_CTXBUSY = false)
    (ready : v % 8 = 1 ∨ ∀ c ∈ dieCtxCores s d (bits v 16 10), coreHalted s c = true) :
    dieCtxOp s d v = ctxOpTaken ((dieCtxCores s d (bits v 16 10)).foldl (fun s c => ctxOpCore s (v % 8) (bits v 8 6) c) s) d
      (dieCtxCores s d (bits v 16 10)).length { op := v % 8, ctx := bits v 16 10, gen := bits v 8 6 } := by
  have found : (v % 8 != 1 && (dieCtxCores s d (bits v 16 10)).any fun c => !coreHalted s c) = false := by
    rcases ready with one | halted
    · simp [one]
    · simp only [Bool.and_eq_false_iff, List.any_eq_false]
      exact .inr fun c hc => by simp [halted c hc]
  unfold dieCtxOp
  dsimp only
  rw [go, idle, found]
  simp only [show ¬(v % 8 = 0 ∨ 4 < v % 8) by omega, Bool.not_true, Bool.or_self, Bool.false_eq_true, if_false, ne_eq, not_true_eq_false]
  rfl

/-- The bits below GO are as they were. -/
theorem bits_or_go {lo w : Nat} (v : Nat) (h : lo + w ≤ 31) : bits (v ||| 2 ^ 31) lo w = bits v lo w := by
  refine Nat.eq_of_testBit_eq fun i => ?_
  simp only [bits, Nat.testBit_mod_two_pow, Nat.testBit_div_two_pow, Nat.testBit_or, Nat.testBit_two_pow]
  by_cases hi : i < w
  · simp [show ¬(31 = i + lo) by omega]
  · simp [hi]

theorem bits_or_go_self (v : Nat) : bits (v ||| 2 ^ 31) 31 1 = 1 := by
  have set : (v ||| 2 ^ 31).testBit 31 = true := by
    rw [Nat.testBit_or, Nat.testBit_two_pow_self, Bool.or_true]
  rw [Nat.testBit_eq_decide_div_mod_eq] at set
  simpa [bits] using set

theorem specOf_dieCtxOp {d : Nat} (h : d < 8) : specOf (diePage .die d) 0x60 = some sDIE_CTXOP := by
  revert d
  decide

/-- The fields of a granted write of DIE_CTXOP with GO and an operation. -/
theorem ctxOpWord {s : State} {d op : Nat} {req : Req} {v : Word} (hd : d < 8) (hop : op < 8)
    (g : Granted s req (diePage .die d) 0x60 (setBits (v.toNat ||| 2 ^ 31) 0 3 op)) :
    let eff := (plan s req (diePage .die d) 0x60 (setBits (v.toNat ||| 2 ^ 31) 0 3 op)).eff
    bit eff 31 = true ∧ eff % 8 = op ∧ bits eff 8 6 = bits v.toNat 8 6 ∧ bits eff 16 10 = bits v.toNat 16 10 := by
  have word : setBits (v.toNat ||| 2 ^ 31) 0 3 op % 2 ^ 32 = setBits (v.toNat ||| 2 ^ 31) 0 3 op :=
    Nat.mod_eq_of_lt (setBits_lt (Nat.or_lt_two_pow v.isLt (by decide)) (by decide))
  have field : ∀ lo w, fs lo w .wo 0 .v ∈ sDIE_CTXOP.fields →
      bits (plan s req (diePage .die d) 0x60 (setBits (v.toNat ||| 2 ^ 31) 0 3 op)).eff lo w =
        bits (setBits (v.toNat ||| 2 ^ 31) 0 3 op) lo w := by
    intro lo w hf
    have eff := (plan_field (specOf_dieCtxOp hd) g (by decide) hf).2.2 nofun nofun
    rwa [word] at eff
  refine ⟨?_, ?_, ?_, ?_⟩
  · have go := field 31 1 (by decide)
    rw [bits_setBits_above _ _ (by decide)] at go
    exact beq_iff_eq.2 (go.trans (bits_or_go_self _))
  · have own := field 0 3 (by decide)
    rw [bits_setBits_same, show op % 2 ^ 3 = op from Nat.mod_eq_of_lt hop] at own
    simpa [bits] using own
  · rw [field 8 6 (by decide), bits_setBits_above _ _ (by decide), bits_or_go _ (by decide)]
  · rw [field 16 10 (by decide), bits_setBits_above _ _ (by decide), bits_or_go _ (by decide)]

/-- A granted write of DIE_CTXOP with GO and an operation, where the die is idle and the cores are ready (R506). -/
theorem ctxOpCmd_eq {s : State} {d id op : Nat} {req : Req} {v : Word} (hd : d < 8)
    (g : Granted s req (diePage .die d) 0x60 (setBits (v.toNat ||| 2 ^ 31) 0 3 op)) (hop : 1 ≤ op ∧ op ≤ 4) (hid : id = bits v.toNat 16 10)
    (idle : fb s (diePage .die d) fDIE_STATUS_CTXBUSY = false) (ready : op = 1 ∨ ∀ c ∈ dieCtxCores s d id, coreHalted s c = true) :
    ctxOpCmd s d req v op = ctxOpTaken ((dieCtxCores s d id).foldl (fun s c => ctxOpCore s op (bits v.toNat 8 6) c) s) d
      (dieCtxCores s d id).length { op := op, ctx := id, gen := bits v.toNat 8 6 } := by
  obtain ⟨go, isOp, gen, isId⟩ := ctxOpWord hd (by omega) g
  rw [← hid] at isId
  have taken := dieCtxOp_eq (s := s) (d := d) go (by omega) idle (by rwa [isOp, isId])
  rw [isOp, gen, isId] at taken
  exact (registerWrite_one (pageOf_die (by omega)) (specOf_dieCtxOp hd) rfl rfl rfl g).trans taken

/-- What a context operation at a die has done to the cores it names stands when it is under way. -/
theorem ctxOp_completes {i : Instr} {s : State} {d id op : Nat} {req : Req} {v : Word} {Q : State → Prop}
    (exec_eq : exec i s = onUnit d 8 (ctxOpCmd s d req v op)) (hd : d < 8)
    (g : Granted s req (diePage .die d) 0x60 (setBits (v.toNat ||| 2 ^ 31) 0 3 op)) (hop : 1 ≤ op ∧ op ≤ 4) (hid : id = bits v.toNat 16 10)
    (idle : fb s (diePage .die d) fDIE_STATUS_CTXBUSY = false) (ready : op = 1 ∨ ∀ c ∈ dieCtxCores s d id, coreHalted s c = true)
    (done : ∀ k, Q (ctxOpTaken ((dieCtxCores s d id).foldl (fun s c => ctxOpCore s op (bits v.toNat 8 6) c) s) d (dieCtxCores s d id).length k)) :
    Completes i s Q :=
  completes_onUnit exec_eq hd (by rw [ctxOpCmd_eq hd g hop hid idle ready]; exact done _)

/-! ### The four operations -/

section
variable (s : State) (cs : List Nat) (d n : Nat) (k : CtxOp)

theorem halt_stops : ∀ c ∈ cs, (core (ctxOpTaken (cs.foldl haltCore s) d n k) c).stopped = true ∧
    (seqr (ctxOpTaken (cs.foldl haltCore s) d n k) c).wait = .none :=
  foldl_each (P := fun t c => (core t c).stopped = true ∧ (seqr t c).wait = .none) haltCore_stops
    (fun s c e he h => by rwa [seqr, (haltCore_oneCore s c).others e he]) cs s

theorem close_closes : ∀ c ∈ cs, ∀ i, (handle (ctxOpTaken (cs.foldl closeCore s) d n k) c i).state ≠ 1 :=
  foldl_each (P := fun t c => ∀ i, (handle t c i).state ≠ 1) closeCore_closes
    (fun s c e he h => by simpa only [handle, qe, (closeCore_oneCore s c).others e he] using h) cs s

theorem regen_regenerates (gen : Nat) : ∀ c ∈ cs, ∀ b ∈ coreBlks,
    rd (ctxOpTaken (cs.foldl (fun s c => regenCore s c gen) s) d n k) (corePage b c) 0xC = regenWord (gen % 64) (rd s (corePage b c) 0xC) :=
  fun c hc b hb => (rd_ctxOpTaken _ d n k _ (by decide)).trans (rd_foldl_regenCore s cs c gen hb hc)

theorem clear_clears : ∀ c ∈ cs, seqSt (ctxOpTaken (cs.foldl clearCore s) d n k) c = 0 ∧
    (core (ctxOpTaken (cs.foldl clearCore s) d n k) c).stopped = false ∧ (qe (ctxOpTaken (cs.foldl clearCore s) d n k) c).slots = [] := by
  intro c hc
  rw [seqSt_ctxOpTaken]
  exact foldl_each (P := fun t c => seqSt t c = 0 ∧ (core t c).stopped = false ∧ (qe t c).slots = []) clearCore_clears
    (fun s c e he h => by rwa [qe, (clearCore_oneCore s c).others e he, (clearCore_oneCore s c).seqStates e he]) cs s c hc

end

/-! ### The end of an operation -/

theorem rd_bump_offset_ne (s : State) (p q : PageId) {off o : Nat} (h : off / 4 % 1024 ≠ o / 4 % 1024 ∧ (off + 4) / 4 % 1024 ≠ o / 4 % 1024) :
    rd (bump s p off) q o = rd s q o :=
  (rd_wr_offset_ne _ _ h.2).trans (rd_wr_offset_ne _ _ h.1)

/-- A counter counts one more. -/
theorem rd64_bump_same (s : State) (p : PageId) (off : Nat) : rd64 (bump s p off) p off = (rd64 s p off + 1) % 2 ^ 64 := by
  change rd64 (wr64 s p off ((rd64 s p off + 1) % 2 ^ 64)) p off = _
  generalize rd64 s p off + 1 = v
  unfold rd64 wr64
  rw [rd_wr_same, rd_wr_offset_ne _ _ (by omega), rd_wr_same]
  omega

/-- A die whose operation has ended, before its completion is counted. -/
def ctxOpEnded (s : State) (d : Nat) : State :=
  fdSet (fdSet (fdSet s (diePage .die d) fDIE_STATUS_CTXBUSY 0) (diePage .die d) fDIE_CTXOP_STAT_BUSY 0) (diePage .die d) fDIE_CTXOP_STAT_CODE cOK

theorem ctxOpDone_regs {s : State} {d : Nat} (busy : fb s (diePage .die d) fDIE_STATUS_CTXBUSY = true) :
    (ctxOpDone s d).regs = (bump (ctxOpEnded s d) (diePage .die d) 0xC10).regs := by
  unfold ctxOpDone
  dsimp only
  rw [busy]
  rfl

theorem ctxOpEnded_fields (s : State) (d : Nat) :
    fd (ctxOpEnded s d) (diePage .die d) fDIE_STATUS_CTXBUSY = 0 ∧ fd (ctxOpEnded s d) (diePage .die d) fDIE_CTXOP_STAT_BUSY = 0 ∧
      fd (ctxOpEnded s d) (diePage .die d) fDIE_CTXOP_STAT_CODE = cOK := by
  have otherReg : ∀ (t : State) (f : FRef) (v : Nat), f.off = 0x64 →
      fd (fdSet t (diePage .die d) f v) (diePage .die d) fDIE_STATUS_CTXBUSY = fd t (diePage .die d) fDIE_STATUS_CTXBUSY := by
    intro t f v hf
    exact congrArg (bits · _ _) (rd_wr_offset_ne t _ (by rw [hf]; decide))
  have otherField : ∀ t v, fd (fdSet t (diePage .die d) fDIE_CTXOP_STAT_CODE v) (diePage .die d) fDIE_CTXOP_STAT_BUSY =
      fd t (diePage .die d) fDIE_CTXOP_STAT_BUSY :=
    fun t v => fd_fdSet_ne t _ v (by decide) rfl (by decide)
  refine ⟨?_, ?_, ?_⟩ <;> unfold ctxOpEnded
  · rw [otherReg _ _ _ rfl, otherReg _ _ _ rfl, fd_fdSet_same _ _ _ _ (by decide), Nat.zero_mod]
  · rw [otherField, fd_fdSet_same _ _ _ _ (by decide), Nat.zero_mod]
  · rw [fd_fdSet_same _ _ _ _ (by decide)]
    rfl

theorem ctxOpEnded_counter (s : State) (d : Nat) : rd64 (ctxOpEnded s d) (diePage .die d) 0xC10 = rd64 s (diePage .die d) 0xC10 := by
  have kept : ∀ o, o / 4 % 1024 ≠ 16 ∧ o / 4 % 1024 ≠ 25 → rd (ctxOpEnded s d) (diePage .die d) o = rd s (diePage .die d) o := by
    rintro o ⟨status, stat⟩
    exact (rd_wr_offset_ne _ _ stat.symm).trans ((rd_wr_offset_ne _ _ stat.symm).trans (rd_wr_offset_ne _ _ status.symm))
  unfold rd64
  rw [kept _ (by decide), kept _ (by decide)]

/-- CTXOP_COMPLETE of an operation that is under way. -/
theorem ctxOpDone_ends {s : State} {d : Nat} (busy : fb s (diePage .die d) fDIE_STATUS_CTXBUSY = true) :
    fb (ctxOpDone s d) (diePage .die d) fDIE_STATUS_CTXBUSY = false ∧ fb (ctxOpDone s d) (diePage .die d) fDIE_CTXOP_STAT_BUSY = false ∧
      fd (ctxOpDone s d) (diePage .die d) fDIE_CTXOP_STAT_CODE = cOK ∧
      rd64 (ctxOpDone s d) (diePage .die d) 0xC10 = (rd64 s (diePage .die d) 0xC10 + 1) % 2 ^ 64 := by
  obtain ⟨status, stat, code⟩ := ctxOpEnded_fields s d
  have regs := rd_of_regs (ctxOpDone_regs busy)
  have field : ∀ f : FRef, 772 ≠ f.off / 4 % 1024 ∧ 773 ≠ f.off / 4 % 1024 →
      fd (ctxOpDone s d) (diePage .die d) f = fd (ctxOpEnded s d) (diePage .die d) f :=
    fun f hf => congrArg (bits · _ _) ((regs _ _).trans (rd_bump_offset_ne _ _ _ hf))
  refine ⟨?_, ?_, ?_, ?_⟩
  · rw [fb, field _ (by decide), status]
    rfl
  · rw [fb, field _ (by decide), stat]
    rfl
  · rw [field _ (by decide), code]
  · rw [← ctxOpEnded_counter s d, ← rd64_bump_same, rd64, regs, regs]
    rfl

end Sys2Proof.Machine
end

section
/-! PROOFS. What a teardown (R507) leaves of the hub: the records, the ends of moves, the release of cores and the writes of signpost entries
leave it whole, the context operations leave the contexts. One lemma per operation, callees before callers. -/
namespace Sys2Proof.Machine
open Sys2Proof

theorem ite_hub {P : Prop} [Decidable P] {t u : State} {h : Hub} (ht : t.hub = h) (hu : u.hub = h) : (if P then t else u).hub = h := by
  split <;> assumption
theorem foldl_hub {α : Type} {f : State → α → State} (hf : ∀ u e, (f u e).hub = u.hub) (l : List α) (s : State) : (l.foldl f s).hub = s.hub := by
  induction l generalizing s with
  | nil => rfl
  | cons e l ih => exact (ih _).trans (hf s e)

@[simp] theorem raiseInt_hub (s : State) (p : PageId) (b : Nat) : (raiseInt s p b).hub = s.hub := ite_hub rfl rfl
@[simp] theorem errAt_hub (s : State) (p : PageId) (code source detail addr tag : Nat) : (errAt s p code source detail addr tag).hub = s.hub :=
  ite_hub rfl (raiseInt_hub _ p 0)

/-! ### Completion records -/

@[simp] theorem msix_hub (s : State) (fn vector : Nat) : (msix s fn vector).hub = s.hub := ite_hub rfl (ite_hub rfl rfl)
@[simp] theorem complete_hub (s : State) (r cid flags code tag result : Nat) : (complete s r cid flags code tag result).hub = s.hub := by
  unfold complete
  dsimp only
  split
  · rfl
  · split <;> split <;> split <;> simp [setRing]

/-! ### Cores that go to the pool, and the clusters that hold them -/

@[simp] theorem bankRetarget_hub (s : State) (c b : Nat) : (bankRetarget s c b).hub = s.hub := ite_hub rfl rfl
@[simp] theorem retargetAll_hub (s : State) (c n : Nat) : (retargetAll s c n).hub = s.hub := by
  induction n with
  | zero => rfl
  | succ n ih => exact (bankRetarget_hub _ c n).trans ih
@[simp] theorem railDown_hub (s : State) (k : Nat) : (railDown s k).hub = s.hub := ite_hub rfl (ite_hub rfl rfl)
@[simp] theorem pllStart_hub (s : State) (k : Nat) : (pllStart s k).hub = s.hub :=
  ite_hub rfl ((raiseInt_hub _ _ _).trans ((errAt_hub _ _ _ _ _ _ _).trans rfl))
@[simp] theorem railUp_hub (s : State) (k : Nat) : (railUp s k).hub = s.hub := ite_hub ((pllStart_hub _ k).trans rfl) rfl
@[simp] theorem syncHold_hub (s : State) (k : Nat) : (syncHold s k).hub = s.hub := ite_hub (railUp_hub _ k) (ite_hub (railDown_hub _ k) rfl)
@[simp] theorem bindCore_hub (s : State) (c tag : Nat) (bound : Bool) : (bindCore s c tag bound).hub = s.hub := by
  have own : (coreBlks.foldl (fun s b => wr s (corePage b c) 0xC (tag % 65536 + if bound then 65536 else 0)) s).hub = s.hub :=
    foldl_hub (fun _ _ => wr_hub ..) _ s
  exact ite_hub ((foldl_hub (fun _ _ => wr_hub ..) _ _).trans own) own
@[simp] theorem coreReset_hub (s : State) (c : Nat) : (coreReset s c).hub = s.hub := rfl
@[simp] theorem coreOff_hub (s : State) (c : Nat) : (coreOff s c).hub = s.hub := ite_hub rfl ((retargetAll_hub _ c 64).trans (coreReset_hub s c))
theorem applyTarget_off_hub (s : State) (c : Nat) : (applyTarget s c 2).hub = s.hub :=
  ite_hub rfl ((railDown_hub ..).trans (coreOff_hub s c))
@[simp] theorem joinPool_hub (s : State) (c : Nat) : (joinPool s c).hub = s.hub :=
  (applyTarget_off_hub ..).trans (ite_hub (bindCore_hub s c 0 false) (bindCore_hub s c 0 false))
@[simp] theorem releaseCore_hub (s : State) (c : Nat) : (releaseCore s c).hub = s.hub := by simp [releaseCore]
@[simp] theorem moveAborted_hub (s : State) (k code : Nat) : (moveAborted s k code).hub = s.hub := by
  have mate : ∀ t c, (withMate t c joinPool).hub = t.hub := fun t c => ite_hub ((joinPool_hub ..).trans (joinPool_hub t c)) (joinPool_hub t c)
  have moved : ∀ (P : Prop) [Decidable P] m c, (if P then withMate (setMover s k m) c joinPool else setMover s k m).hub = s.hub :=
    fun _ _ _ _ => ite_hub (mate _ _) rfl
  exact ite_hub (moved _ _ _) ((raiseInt_hub ..).trans ((errAt_hub ..).trans (moved _ _ _)))
@[simp] theorem movesEnd_hub (s : State) (code : Nat) (f : Mover → Bool) : (movesEnd s code f).hub = s.hub :=
  foldl_hub (fun _ k => ite_hub (moveAborted_hub _ k code) rfl) _ s

/-! ### Writes of memory -/

@[simp] theorem blockRead_hub (s : State) (g a tag : Nat) (scrub : Bool) (blk : Nat) : (blockRead g a tag scrub s blk).hub = s.hub := by
  have counted : (if 256 ≤ tget 0 s.merr blk then bump s (memcPage (g / 32)) 0xC20 else s).hub = s.hub := ite_hub rfl rfl
  unfold blockRead
  dsimp only
  split
  · exact counted
  · refine ((report_hub _ _).trans ((raiseInt_hub _ _ _).trans ((errAt_hub _ _ _ _ _ _ _)))).trans counted
  · exact counted
@[simp] theorem noteErr_hub (s : State) (bl : List Nat) (e : Ecc) (od : Bool) : (noteErr s bl e od).hub = s.hub := by
  unfold noteErr
  cases bl.find? (fun b => !blockPoison s b) <;> cases bl
  · rfl
  · exact ite_hub rfl rfl
  · rfl
  · exact ite_hub rfl rfl
@[simp] theorem epAdd_hub (s : State) (d u b : Nat) (up : Bool) : (epAdd s d u b up).hub = s.hub := ite_hub rfl rfl
@[simp] theorem sendFrom_hub (s : State) (d u : Nat) (p : Pkt) : (sendFrom s d u p).hub = s.hub := ite_hub (epAdd_hub ..) (epAdd_hub ..)
@[simp] theorem sliceAnswer_hub (s : State) (g : Nat) (p : Pkt) (code : Nat) (ws : List DWord) (poison : Bool) :
    (sliceAnswer s g p code ws poison).hub = s.hub := by
  unfold sliceAnswer
  split
  · rfl
  · exact sendFrom_hub ..
theorem blocksRead_hub (s : State) (g a tag : Nat) (scrub : Bool) (bl : List Nat) : (bl.foldl (blockRead g a tag scrub) s).hub = s.hub :=
  foldl_hub (fun _ _ => blockRead_hub ..) bl s
@[simp] theorem readServe_hub (s : State) (g i : Nat) (p : Pkt) (e : Ecc) (od : Bool) : (readServe s g i p e od).hub = s.hub :=
  (sliceAnswer_hub ..).trans ((blocksRead_hub ..).trans (noteErr_hub ..))
@[simp] theorem memWriteAt_hub (s : State) (a : Nat) (bs : List Byte) (poison : Bool) : (memWriteAt s a bs poison).hub = s.hub :=
  foldl_hub (by intro _ _; rfl) _ _
@[simp] theorem mirror_hub (s : State) (g a : Nat) (bs : List Byte) : (mirror s g a bs).hub = s.hub :=
  ite_hub rfl (foldl_hub (fun _ _ => ite_hub rfl (memWriteAt_hub ..)) _ _)
@[simp] theorem markDirect_hub (s : State) (g : Nat) (p : Pkt) : (markDirect s g p).hub = s.hub := ite_hub rfl rfl
@[simp] theorem writeServe_hub (s : State) (g i : Nat) (p : Pkt) (e : Ecc) : (writeServe s g i p e).hub = s.hub :=
  (sliceAnswer_hub ..).trans ((mirror_hub ..).trans ((markDirect_hub ..).trans ((memWriteAt_hub ..).trans ((blocksRead_hub ..).trans (noteErr_hub ..)))))
@[simp] theorem serveAll_hub (s : State) (g : Nat) : (serveAll s g).hub = s.hub := by
  refine foldl_hub (fun u _ => ?_) _ s
  unfold serveOne
  dsimp only
  split
  · exact ite_hub (readServe_hub ..) (writeServe_hub ..)
  · rfl
@[simp] theorem journalWrite_hub (s : State) (g a : Nat) (ws : List DWord) (poison : Bool) : (journalWrite s g a ws poison).hub = s.hub := by
  refine ite_hub ?_ rfl
  unfold journalAdd sendJ
  dsimp only
  split <;> rfl
@[simp] theorem memApply_hub (s : State) (b a : Nat) (bs : List Byte) (poison : Bool) (tag : Nat) : (memApply s b a bs poison tag).hub = s.hub := by
  have settled : ∀ g bl, (settle s g bl).hub = s.hub := fun _ _ => ite_hub (serveAll_hub ..) rfl
  exact (mirror_hub ..).trans ((markDirect_hub ..).trans ((memWriteAt_hub ..).trans ((blocksRead_hub ..).trans
    ((journalWrite_hub ..).trans (settled _ _)))))
@[simp] theorem memWrite_hub (s : State) (b a : Nat) (bs : List Byte) (poison : Bool) (tag : Nat) : (memWrite s b a bs poison tag).hub = s.hub :=
  ite_hub rfl (memApply_hub ..)
@[simp] theorem signPut_hub (s : State) (en w : Nat) : (signPut s en w).hub = s.hub := foldl_hub (fun _ _ => memWrite_hub ..) _ s
@[simp] theorem dropSigns_hub (s : State) (ps : List Place) : (dropSigns s ps).hub = s.hub := by
  have put : (ps.foldl (fun s p => signPut s p.en 0) s).hub = s.hub := foldl_hub (fun _ _ => signPut_hub ..) ps s
  exact ite_hub rfl (ite_hub put put)

/-! ### Context operations -/

@[simp] theorem ctxOpCore_hub (s : State) (op gen c : Nat) : (ctxOpCore s op gen c).hub = s.hub := by
  unfold ctxOpCore
  split
  · exact (haltCore_oneCore s c).hub
  · exact (closeCore_oneCore s c).hub
  · exact foldl_hub (fun _ _ => wr_hub ..) _ s
  · exact (clearCore_oneCore s c).hub
  · rfl
theorem ite_ctxs {P : Prop} [Decidable P] {t u : State} {l : Tbl Ctx} (ht : t.hub.ctxs = l) (hu : u.hub.ctxs = l) :
    (if P then t else u).hub.ctxs = l := by
  split <;> assumption
theorem dieCtxOp_ctxs (s : State) (d v : Nat) : (dieCtxOp s d v).hub.ctxs = s.hub.ctxs := by
  have operated : ((dieCtxCores s d (bits v 16 10)).foldl (fun s c => ctxOpCore s (v % 8) (bits v 8 6) c) s).hub.ctxs = s.hub.ctxs :=
    congrArg Hub.ctxs (foldl_hub (fun _ _ => ctxOpCore_hub ..) _ s)
  have refused : ∀ code p a b, (raiseInt (errAt (fdSet s p fDIE_CTXOP_STAT_CODE code) p code 0xE1 a 0 b) p 9).hub = s.hub :=
    fun _ _ _ _ => (raiseInt_hub ..).trans (errAt_hub ..)
  exact ite_ctxs rfl (ite_ctxs (congrArg Hub.ctxs (refused _ _ _ _)) operated)
theorem ctxOpDone_ctxs (s : State) (d : Nat) : (ctxOpDone s d).hub.ctxs = s.hub.ctxs := ite_ctxs rfl rfl
theorem ctxOpAll_ctxs (s : State) (op gen id : Nat) : (ctxOpAll s op gen id).hub.ctxs = s.hub.ctxs := by
  have each : ∀ (l : List Nat) (s : State) (v : Nat), (l.foldl (fun s d => ctxOpDone (dieCtxOp s d v) d) s).hub.ctxs = s.hub.ctxs := by
    intro l
    induction l with
    | nil => exact fun _ _ => rfl
    | cons d l ih => exact fun s v => (ih _ v).trans ((ctxOpDone_ctxs _ d).trans (dieCtxOp_ctxs s d v))
  exact each _ s _

/-! ### Contexts -/

theorem ctx_of_ctxs {s t : State} (h : t.hub.ctxs = s.hub.ctxs) (id : Nat) : ctx t id = ctx s id := by rw [ctx, ctx, h]
theorem ctx_of_hub {s t : State} (h : t.hub = s.hub) (id : Nat) : ctx t id = ctx s id := ctx_of_ctxs (congrArg Hub.ctxs h) id
@[simp] theorem ctx_setCtx_same (s : State) (id : Nat) (x : Ctx) : ctx (setCtx s id x) id = x := tget_tput_same ..

/-- What advancing the generation makes of a context: the next generation, and nothing else but a drain that starts. -/
theorem ctx_advanceGen (s : State) (id : Nat) : ∃ drains, ctx (advanceGen s id) id = { ctx s id with gen := ((ctx s id).gen + 1) % 64, drains := drains } :=
  ⟨_, ctx_setCtx_same _ _ _⟩

/-- The steps of a teardown between the advance of the generation and its end leave the contexts. -/
theorem teardownRest_eq (s : State) (id : Nat) :
    ∃ u ens, u.hub.ctxs = (advanceGen s id).hub.ctxs ∧ teardownRest s id = setCtx u id { ctx u id with itin := none, ens := ens, wait := 0 } := by
  have released : ∀ (cs : List Nat) t, (cs.foldl releaseCore t).hub.ctxs = t.hub.ctxs :=
    fun cs t => congrArg Hub.ctxs (foldl_hub releaseCore_hub cs t)
  have revoked : ∀ (l : List Nat) t, (l.foldl (fun s i => grantPut s i 0 0) t).hub.ctxs = t.hub.ctxs :=
    fun l t => congrArg Hub.ctxs (foldl_hub (by intro _ _; rfl) l t)
  have dropped : ∀ t ps, (dropSigns t ps).hub.ctxs = t.hub.ctxs := fun t ps => congrArg Hub.ctxs (dropSigns_hub t ps)
  refine ⟨_, _, ?_, rfl⟩
  cases (ctx s id).vf <;> dsimp only [setHost] <;> rw [released, ctxOpAll_ctxs, dropped, revoked, ctxOpAll_ctxs, ctxOpAll_ctxs]

/-- From the advance of the generation on, a teardown ends the context's itinerary and its wait. -/
theorem ctx_teardownRest (s : State) (id : Nat) :
    ∃ drains ens, ctx (teardownRest s id) id =
      { ctx s id with gen := ((ctx s id).gen + 1) % 64, drains := drains, itin := none, ens := ens, wait := 0 } := by
  obtain ⟨u, ens, kept, eq⟩ := teardownRest_eq s id
  obtain ⟨drains, advanced⟩ := ctx_advanceGen s id
  exact ⟨drains, ens, by rw [eq, ctx_setCtx_same, ctx_of_ctxs kept, advanced]⟩

theorem mayAdvance_congr {s t : State} {id : Nat} (gen : (ctx t id).gen = (ctx s id).gen) (drains : (ctx t id).drains = (ctx s id).drains)
    (now : t.now = s.now) : mayAdvance t id = mayAdvance s id := by
  unfold mayAdvance
  dsimp only
  rw [gen, drains, now]

/-- A teardown whose generation may advance goes on with its rest: the context is DRAINING, its record due, when the generation advances. -/
theorem teardown_eq {s : State} {id : Nat} (rec : Option Run) (may : mayAdvance s id = true) :
    ∃ u, ctx u id = { ctx s id with st := 3, runs := [], waits := [], posted := none, owed := [], winSize := 0, tear := rec, bar := {} } ∧
      teardown s id rec = teardownRest u id := by
  have stopped : ∀ t f, ctx (ctxOpAll (movesEnd t cPURGED f) 1 0 id) id = ctx t id :=
    fun t f => (ctx_of_ctxs (ctxOpAll_ctxs ..) id).trans (ctx_of_hub (movesEnd_hub ..) id)
  refine ⟨_, (stopped _ _).trans (ctx_setCtx_same ..), if_pos ((mayAdvance_congr ?_ ?_ ?_).trans may)⟩
  · rw [stopped, ctx_setCtx_same]
  · rw [stopped, ctx_setCtx_same]
  · refine (ctxOpAll_kept (movesEnd_kept (setCtx_kept (queuedEnd_kept ?_)))).now
    exact .folds (.folds (.refl s) fun _ _ => complete_kept (.refl _)) fun _ _ => complete_kept (.refl _)

/-- CTX_TEARDOWN of a context whose generation may advance (R504, R507). -/
theorem ctx_teardown {s : State} {id : Nat} (rec : Option Run) (may : mayAdvance s id = true) :
    (ctx (teardown s id rec) id).st = 3 ∧ (ctx (teardown s id rec) id).itin = none ∧
      (ctx (teardown s id rec) id).gen = ((ctx s id).gen + 1) % 64 ∧ (ctx (teardown s id rec) id).tear = rec := by
  obtain ⟨u, drained, eq⟩ := teardown_eq rec may
  obtain ⟨drains, ens, rest⟩ := ctx_teardownRest u id
  rw [eq, rest, drained]
  exact ⟨rfl, rfl, rfl, rfl⟩

end Sys2Proof.Machine
end

section
/-! PROOFS. Draining generations (R504, R507), and the commands of contexts at their dies, of teardown and of draining. -/
namespace Sys2Proof.Machine
open Sys2Proof

/-! ### The end of a drain -/

/-- Nothing goes on for a context that waits for no drain. -/
theorem drainGo_of_not_waiting {s : State} {id : Nat} (h : (ctx s id).wait = 0) : drainGo s id = s := if_pos (.inl h)

/-- A drain ends of a context that is not DRAINING: its other drains are kept. -/
theorem drainEnd_of_not_draining {s : State} {id g : Nat} (first : firstDrain (ctx s id).drains = some g) (st : (ctx s id).st ≠ 3) :
    drainEnd s id = setCtx s id { ctx s id with drains := tdel (ctx s id).drains g } := by
  unfold drainEnd
  dsimp only
  rw [first]
  exact if_pos (.inl st)

/-- A context that is freed when its last generation has drained. -/
def drainedCtx (x : Ctx) (g : Nat) : Ctx := { gen := x.gen, drains := tdel x.drains g }

/-- The drain ends of a DRAINING context's last generation: the context is free, and the record of its teardown is written. -/
theorem drainEnd_of_draining {s : State} {id g : Nat} (first : firstDrain (ctx s id).drains = some g) (st : (ctx s id).st = 3)
    (wait : (ctx s id).wait = 0) (last : (g + 1) % 64 = (ctx s id).gen) :
    drainEnd s id = (match (ctx s id).tear with
      | some r => complete (setCtx s id (drainedCtx (ctx s id) g)) r.ring r.cid r.flags cOK (64 * id + (ctx s id).gen) 0
      | none => setCtx s id (drainedCtx (ctx s id) g)) := by
  unfold drainEnd
  dsimp only
  rw [first]
  exact if_neg (by simp [st, wait, last])

/-- A record of OK that raises no vector is all that goes out. -/
theorem complete_ok_out {s : State} {r cid flags : Nat} (tag result : Nat) (enabled : (ring s r).en = true) (quiet : bit flags 0 = false) :
    (complete s r cid flags cOK tag result).out = s.out ++ [.record r ((ring s r).cplw % 2 ^ (ring s r).logsize) cid cOK
      (b2n (((ring s r).cplw / 2 ^ (ring s r).logsize) % 2 == 0)) (ring s r).head tag result] := by
  unfold complete
  dsimp only
  rw [enabled, quiet]
  rfl

/-- A drain that ends with the context waiting for no other. -/
theorem drainExpiry_ends {s t : State} {id : Nat} {P : State → Prop} (hid : id < 1024) (ends : drainEnd s id = t) (wait : (ctx t id).wait = 0)
    (h : P t) : Completes (.drainExpiry id) s P := by
  refine completes_onUnit rfl hid ?_
  rwa [ends, drainGo_of_not_waiting wait]

/-! ### The commands -/

/-- A command next on its ring is taken and carried out. -/
theorem withCmd_any {s : State} {r op : Nat} {k : HCmd} (next : nextCmd s r op = some k) (f : State → HCmd → State) :
    withCmd s r op anyCmd f = f (takeCmd s k) k := by
  unfold withCmd
  rw [next]
  exact if_pos rfl

/-- Taking a command changes nothing its check looks at. -/
theorem cmdCheck_takeCmd (s : State) (k : HCmd) (named : Bool) : cmdCheck (takeCmd s k) k named = cmdCheck s k named := by
  unfold cmdCheck
  rfl

theorem ctxTeardown_of_check {s : State} {k : HCmd} (check : cmdCheck s k true = cOK) : ctxTeardown s k =
    teardown s (cmdCtx k) (some { ring := k.ring, cid := entCid k.entry, flags := entFlags k.entry, count := 0 }) := by
  unfold ctxTeardown
  rw [check]
  exact if_neg (fun h => h rfl)

/-- CTX_TEARDOWN, next on its ring, of a context that may be torn down. -/
theorem ctxTeardown_completes {s : State} {r : Nat} {k : HCmd} {P : State → Prop} (hr : r < 128) (next : nextCmd s r 5 = some k)
    (check : cmdCheck s k true = cOK)
    (h : P (teardown (takeCmd s k) (cmdCtx k) (some { ring := k.ring, cid := entCid k.entry, flags := entFlags k.entry, count := 0 }))) :
    Completes (.ctxTeardown r) s P := by
  refine completes_onUnit rfl hr ?_
  rw [withCmd_any next, ctxTeardown_of_check ((cmdCheck_takeCmd ..).trans check)]
  exact h

/-- Settles O24: at each core by what HALT, CLOSE, REGEN and CLEAR do there and leave at the other cores, for a teardown by the contexts
that each of its steps leaves. -/
theorem contextCommandsComplete : Obligations.ContextCommandsComplete := by
  unfold Obligations.ContextCommandsComplete
  refine ⟨?halt, ?close, ?regen, ?clear, ?complete, ?teardown, ?freed, ?drained, ?recorded⟩
  case halt =>
    intro s d id req v hd g hid idle
    exact ctxOp_completes rfl hd g (by decide) hid idle (.inl rfl) fun k =>
      ⟨ctxOpTaken_busy .., ctxOpTaken_cores _ _ _ _ (length_dieCtxCores_lt ..), halt_stops _ _ _ _ _⟩
  case close =>
    intro s d id req v hd g hid idle halted
    exact ctxOp_completes rfl hd g (by decide) hid idle (.inr halted) fun k => ⟨ctxOpTaken_busy .., close_closes _ _ _ _ _⟩
  case regen =>
    intro s d id req v hd g hid idle halted
    refine ctxOp_completes rfl hd g (by decide) hid idle (.inr halted) fun k => ⟨ctxOpTaken_busy .., fun c hc b hb => ?_⟩
    have word := regen_regenerates s (dieCtxCores s d id) d (dieCtxCores s d id).length k (bits v.toNat 8 6) c hc b hb
    rwa [regenWord, Nat.mod_eq_of_lt (show bits v.toNat 8 6 < 64 from bits_lt ..)] at word
  case clear =>
    intro s d id req v hd g hid idle halted
    exact ctxOp_completes rfl hd g (by decide) hid idle (.inr halted) fun k => ⟨ctxOpTaken_busy .., clear_clears _ _ _ _ _⟩
  case complete => exact fun s d hd busy => completes_onUnit rfl hd (ctxOpDone_ends busy)
  case teardown => exact fun s r k hr next check may => ctxTeardown_completes hr next check (ctx_teardown _ ((mayAdvance_congr rfl rfl rfl).trans may))
  case freed =>
    intro s id g hid st wait tear first last
    have ends := drainEnd_of_draining first st wait last
    rw [tear] at ends
    exact drainExpiry_ends hid ends (by rw [ctx_setCtx_same]; rfl) (ctx_setCtx_same ..)
  case drained =>
    intro s id g hid st wait first
    exact drainExpiry_ends hid (drainEnd_of_not_draining first st) (by rw [ctx_setCtx_same]; exact wait) (ctx_setCtx_same ..)
  case recorded =>
    intro s id g r hid st wait tear first last enabled quiet
    have ends := drainEnd_of_draining first st wait last
    rw [tear] at ends
    have freed := (ctx_of_hub (complete_hub _ r.ring r.cid r.flags cOK (64 * id + (ctx s id).gen) 0) id).trans (ctx_setCtx_same s id (drainedCtx (ctx s id) g))
    exact drainExpiry_ends hid ends (by rw [freed]; rfl) ⟨freed, complete_ok_out _ _ enabled quiet⟩

end Sys2Proof.Machine
end

section
/-! PROOFS. Every command of the table keeps what the invariants of a step speak of: the queue, the time, the fused map, and the canonical
form of memory, scratchpads and captures. -/
namespace Sys2Proof.Machine
open Sys2Proof

/-- From `s` to `t` everything the invariants of a step speak of is kept: the queue, the time and the fused map as they were, memory,
scratchpads and captures in canonical form where they were so in `s`. -/
structure Sound (s t : State) : Prop where
  kept : Kept s t
  ordered : Ordered s → Ordered t

namespace Sound
theorem refl (s : State) : Sound s s := ⟨.refl s, id⟩
theorem ite {s t u : State} {c : Prop} [Decidable c] (ht : Sound s t) (hu : Sound s u) : Sound s (if c then t else u) :=
  ⟨ht.kept.ite hu.kept, fun o => (ht.ordered o).ite (hu.ordered o)⟩
theorem folds {α : Type} {f : State → α → State} {s : State} {l : List α} (hf : ∀ s x, Sound s (f s x)) : Sound s (l.foldl f s) :=
  ⟨(Kept.refl s).folds fun s x => (hf s x).kept, fun o => o.folds fun s x => (hf s x).ordered⟩
theorem withFollower {s : State} {c : Nat} {f : State → Nat → State} (hf : ∀ s x, Sound s (f s x)) : Sound s (withFollower s c f) :=
  ⟨withFollower_kept (.refl s) fun s x => (hf s x).kept, fun o => withFollower_ordered o fun s x => (hf s x).ordered⟩
theorem dmaShared {s : State} {c id : Nat} {f : State → Nat → State} (hf : ∀ s x, Sound s (f s x)) : Sound s (dmaShared s c id f) :=
  ⟨dmaShared_kept (.refl s) fun s x => (hf s x).kept, fun o => dmaShared_ordered o fun s x => (hf s x).ordered⟩
/-- A packet of one of the types an arm takes, at its port. -/
theorem atPort {s t : State} {p q : Pkt} {c : Nat} {l : List Nat} {f : State → Nat → State} (ht : Sound s t)
    (hf : ∀ s x, Sound s (f s x)) : Sound s (if l.contains q.type then localPort t c p f else s) :=
  ite ⟨localPort_kept ht.kept fun s x => (hf s x).kept, fun o => localPort_ordered (ht.ordered o) fun s x => (hf s x).ordered⟩ (refl s)
end Sound

/-- An answer is sound where it is no next state, or a state that keeps what the invariants speak of. -/
def SoundNext (s : State) (o : Res) : Prop := KeptNext s o ∧ (Ordered s → OrderedNext o)

namespace SoundNext
theorem next {s t : State} (h : Sound s t) : SoundNext s (.next t) := ⟨.next h.kept, fun o => .next (h.ordered o)⟩
theorem onUnit {s t : State} {n k : Nat} (h : Sound s t) : SoundNext s (onUnit n k t) := ⟨.onUnit h.kept, fun o => .onUnit (h.ordered o)⟩
theorem onFabric {s t : State} {c : Nat} (h : Sound s t) : SoundNext s (onFabric s c t) :=
  ⟨onFabric_kept (.refl s) h.kept, fun o => onFabric_ordered o (h.ordered o)⟩
theorem onGauge {s t : State} {d i : Nat} (h : Sound s t) : SoundNext s (onGauge d i t) :=
  ⟨onGauge_kept h.kept, fun o => onGauge_ordered (h.ordered o)⟩
theorem onFlit {s : State} {f : Word} {m : Nat} {t : State → Nat → State} (h : ∀ s d, Sound s (t s d)) : SoundNext s (onFlit s f m t) :=
  ⟨onFlit_kept (.refl s) fun s d => (h s d).kept, fun o => onFlit_ordered o fun s d => (h s d).ordered⟩
theorem onTwin {s : State} {w m : Nat} {f : State → State} (h : ∀ s, Sound s (f s)) : SoundNext s (onTwin s w m f) :=
  ⟨onTwin_kept (.refl s) fun s => (h s).kept, fun o => onTwin_ordered o fun s => (h s).ordered⟩
theorem onNotice {s : State} {f : State → State} (h : ∀ s, Sound s (f s)) : SoundNext s (onNotice s f) :=
  ⟨onNotice_kept (.refl s) fun s => (h s).kept, fun o => onNotice_ordered o fun s => (h s).ordered⟩
theorem onRing {s : State} {r op : Nat} {f : State → HCmd → State} (h : ∀ s k, Sound s (f s k)) : SoundNext s (onRing s r op f) :=
  ⟨onRing_kept (.refl s) fun s k => (h s k).kept, fun o => onRing_ordered o fun s k => (h s k).ordered⟩
end SoundNext

/-- Every command of the table keeps what the invariants speak of: its operation does, by the laws of that operation. -/
theorem exec_sound (i : Instr) (s : State) : SoundNext s (exec i s) := by
  cases i with
  | registerWrite => exact .onUnit ⟨wideWrite_kept (.refl _), wideWrite_ordered⟩
  | pairLowRead => exact .onUnit ⟨wideRead_kept (.refl _), wideRead_ordered⟩
  | intRawSet | intStatClear | intEnableSet | intEnableClear | errClr | pgLockSet =>
    exact .onUnit ⟨registerWrite_kept (.refl _), registerWrite_ordered⟩
  | arrayPassStart => exact .onFabric ⟨passStart_kept (.refl _), passStart_ordered⟩
  | arraySequenceEntry => exact .onFabric ⟨seqEntry_kept (.refl _), seqEntry_ordered⟩
  | arrayResult => exact .onFabric ⟨seqResult_kept (.refl _), seqResult_ordered⟩
  | wTokenLoad => exact .onFabric ⟨loadWToken_kept (.refl _), loadWToken_ordered⟩
  | tileImageFull => exact .onFabric ⟨tileFull_kept (.refl _), tileFull_ordered⟩
  | arrInject | flowImgGo | flowGridStatClear | seqRun | seqStep | untrustedClear | slotOpen | qengFlush | signpostInvalidate | epochFlip
  | signpostCacheFlush | memoryTraining | sliceEvacuate | sliceClose | portEnable | portRetrain | xepochFlip | xepochRetire | healClear
  | healForce | coreReset | clusterReset | clusRelock | clkRelock | clkClrlost =>
    exact .onUnit ⟨regCmdSet_kept (.refl _), regCmdSet_ordered⟩
  | arrCfgWrite | flowWinDataWrite | flowCfgCheck | flowLinkSelWrite | coreMboxInWrite | regionWrite | bankTargetWrite | slotConfigWrite
  | qengChSelWrite | qengHdSelWrite | qengQSelWrite | qengJSelWrite | bankRetire | routPortSelWrite | grantWrite | routeEntryCommit
  | journalMapWrite | hbcntWrite | healCselWrite | pairModeWrite | dieWdogKick | coreTargetWrite | holdWrite | setpointWrite | freqTargetWrite
  | mailboxInWrite =>
    exact .onUnit ⟨regCmd_kept (.refl _), regCmd_ordered⟩
  | tokenLanding =>
    exact .onUnit (.ite ⟨wakeCause_kept (landTok_kept (.refl s)), fun o => wakeCause_ordered (landTok_ordered o)⟩
      ⟨landTok_kept (.refl _), landTok_ordered⟩)
  | creditReturn => exact .onUnit ⟨landCredit_kept (.refl _), landCredit_ordered⟩
  | spillQueueFiring => exact .onFabric ⟨spillFire_kept (.refl _), spillFire_ordered⟩
  | imageLoadComplete => exact .onUnit ⟨loadDone_kept (.refl _), loadDone_ordered⟩
  | validationComplete => exact .onUnit ⟨checkDone_kept (.refl _), checkDone_ordered⟩
  | cfgswQuiesce | cfgswPurge | seqInstruction | seqScratchpadAccess | qpop | qsel | qsend | chopen | chclose | dmago | mile | nap =>
    exact .onUnit ⟨seqIssue_kept (.refl _), seqIssue_ordered⟩
  | quiesceSwitch => exact .onUnit ⟨quiesceSwitch_kept (.refl _), quiesceSwitch_ordered⟩
  | quiesceTimeout => exact .onUnit ⟨quiesceTimeout_kept (.refl _), quiesceTimeout_ordered⟩
  | flowLinkPeakRead | coreMboxOutRead | dirtyDataRead | epsumRead | healLogRead | mailboxOutRead =>
    exact .onUnit ⟨registerRead_kept (.refl _), registerRead_ordered⟩
  | probeLaunch => exact .onUnit ⟨probeLaunch_kept (.refl _), probeLaunch_ordered⟩
  | probeReceive => exact .onUnit ⟨probeReceive_kept (.refl _), probeReceive_ordered⟩
  | cuFiring => exact .onFabric ⟨cuFire_kept (.refl _), cuFire_ordered⟩
  | cuEmission => exact .onFabric ⟨cuCheck_kept (.refl _), cuCheck_ordered⟩
  | updateEngineFiring => exact .onFabric ⟨updFire_kept (.refl _), updFire_ordered⟩
  | muWalkStart => exact .onFabric ⟨muStart_kept (.refl _), muStart_ordered⟩
  | muAccess => exact .onFabric ⟨muAccess_kept (.refl _), muAccess_ordered⟩
  | muReadEmit => exact .onFabric ⟨muEmit_kept (.refl _), muEmit_ordered⟩
  | qpopReturn => exact .onUnit ⟨qpopReturn_kept (.refl _), qpopReturn_ordered⟩
  | qpopTimeout => exact .onUnit ⟨qpopTimeout_kept (.refl _), qpopTimeout_ordered⟩
  | qselSelect => exact .onUnit ⟨qselSelect_kept (.refl _), qselSelect_ordered⟩
  | qselTimeout => exact .onUnit ⟨qselTimeout_kept (.refl _), qselTimeout_ordered⟩
  | mileComplete => exact .onUnit ⟨mileDone_kept (.refl _), mileDone_ordered⟩
  | napEntry => exact .onUnit ⟨napEntry_kept (.refl _), napEntry_ordered⟩
  | napWake => exact .onUnit ⟨napWake_kept (.refl _), napWake_ordered⟩
  | napTimerExpiry => exact .onUnit ⟨napTimer_kept (.refl _), napTimer_ordered⟩
  | windowQpop | windowSqiRead | windowSciRead | windowMboxInRead => exact .onUnit ⟨winLoadAt_kept (.refl _), winLoadAt_ordered⟩
  | windowSqoWrite | windowScoWrite | windowMboxOutWrite => exact .onUnit ⟨winStoreAt_kept (.refl _), winStoreAt_ordered⟩
  | seqHalt | slotClose | sendstopWrite | portDisable => exact .onUnit ⟨regCmdClear_kept (.refl _), regCmdClear_ordered⟩
  | crossbarGrant => exact .onUnit ⟨crossbar_kept (.refl _), crossbar_ordered⟩
  | rangeGrant => exact .onUnit ⟨cfgswResume_kept (rangeTurn_kept (.refl _)), fun o => cfgswResume_ordered (rangeTurn_ordered o)⟩
  | correctionWriteback => exact .onUnit ⟨writeBack_kept (.refl _), writeBack_ordered⟩
  | recodeComplete => exact .onUnit ⟨recodeDone_kept (.refl _), recodeDone_ordered⟩
  | scrubRowRead => exact .onUnit ⟨scrubRow_kept (.refl _), scrubRow_ordered⟩
  | bankOffReached => exact .onUnit ⟨bankOff_kept (.refl _), bankOff_ordered⟩
  | bankDrowsyReached | bankWakeComplete => exact .onUnit ⟨bankArrive_kept (.refl _), bankArrive_ordered⟩
  | bankPowered => exact .onUnit ⟨bankPowered_kept (.refl _), bankPowered_ordered⟩
  | dmaDescriptorStart => exact .onUnit ⟨dmaStart_kept (.refl _), dmaStart_ordered⟩
  | dmaRequestTimeout => exact .onUnit (.dmaShared fun _ _ => ⟨dmaTimeout_kept (.refl _), dmaTimeout_ordered⟩)
  | dmaDescriptorComplete => exact .onUnit (.dmaShared fun _ _ => ⟨dmaComplete_kept (.refl _), dmaComplete_ordered⟩)
  | dmaNotifyCommit => exact .onUnit ⟨notifyCommit_kept (.refl _), notifyCommit_ordered⟩
  | dmaNotifyTimeout => exact .onUnit ⟨notifyTimeout_kept (.refl _), notifyTimeout_ordered⟩
  | openRequest =>
    exact .onUnit (.atPort (.refl s) fun _ _ => ⟨openRequest_kept (takePkt_kept (.refl _)), fun o => openRequest_ordered (takePkt_ordered o)⟩)
  | openResponse =>
    exact .onUnit (.atPort (.refl s) fun _ _ => ⟨openRsp_kept (cacheForget_kept (takePkt_kept (.refl _))),
      fun o => openRsp_ordered (cacheForget_ordered (takePkt_ordered o))⟩)
  | chopenTimeout => exact .onUnit (.withFollower fun _ _ => ⟨openTimeout_kept (.refl _), openTimeout_ordered⟩)
  | handleHoldoffExpiry => exact .onUnit (.withFollower fun _ _ => ⟨holdoffEnd_kept (.refl _), holdoffEnd_ordered⟩)
  | closeNotice => exact .onUnit (.withFollower fun _ _ => ⟨closeNoticeIn_kept (.refl _), closeNoticeIn_ordered⟩)
  | closeAck => exact .onUnit (.withFollower fun _ _ => ⟨closeAcked_kept (.refl _), closeAcked_ordered⟩)
  | closingEntryTimeout => exact .onUnit (.withFollower fun _ _ => ⟨closingFree_kept (.refl _), closingFree_ordered⟩)
  | messageDeparture => exact .onUnit ⟨depart_kept (seqBooks_kept (.refl _)), fun o => depart_ordered (seqBooks_ordered o)⟩
  | messagePacket =>
    exact .onUnit (.ite ⟨responseIn_kept (.refl _), responseIn_ordered⟩
      (.atPort ⟨reasmBooks_kept (.refl _), reasmBooks_ordered⟩ fun _ _ => ⟨messageIn_kept (.refl _), messageIn_ordered⟩))
  | reassemblyTimeout => exact .onUnit (.withFollower fun _ _ => ⟨reasmTimeout_kept (.refl _), reasmTimeout_ordered⟩)
  | replyOk =>
    exact .onUnit (.ite (.atPort (.refl s) fun _ _ => ⟨replyOk_kept (takePkt_kept (.refl _)), fun o => replyOk_ordered (takePkt_ordered o)⟩) (.refl s))
  | nack =>
    exact .onUnit (.ite (.refl s) (.atPort (.refl s) fun _ _ => ⟨nackMsg_kept (cacheForget_kept (takePkt_kept (.refl _))),
      fun o => nackMsg_ordered (cacheForget_ordered (takePkt_ordered o))⟩))
  | nackBackoffExpiry => exact .onUnit (.withFollower fun _ _ => ⟨backoffEnd_kept (.refl _), backoffEnd_ordered⟩)
  | attemptWindowExpiry => exact .onUnit (.withFollower fun _ _ => ⟨windowExpiry_kept (.refl _), windowExpiry_ordered⟩)
  | qxPortEmit => exact .onUnit (.ite (.refl s) ⟨qxEmit_kept (.refl _), qxEmit_ordered⟩)
  | qyPortSend => exact .onUnit (.ite (.refl s) ⟨qySend_kept (.refl _), qySend_ordered⟩)
  | junctionPacket => exact .onUnit (.atPort ⟨jBooks_kept (.refl _), jBooks_ordered⟩ fun _ _ => ⟨junctionIn_kept (.refl _), junctionIn_ordered⟩)
  | junctionAdd => exact .onUnit ⟨jAdd_kept (jBooks_kept (.refl _)), fun o => jAdd_ordered (jBooks_ordered o)⟩
  | junctionForward => exact .onUnit ⟨jForward_kept (.refl _), jForward_ordered⟩
  | routerMerge => exact .onUnit ⟨routerMerge_kept (.refl _), routerMerge_ordered⟩
  | convoyPacket => exact .onUnit (.ite ⟨convoyPacket_kept (.refl _), convoyPacket_ordered⟩ (.refl s))
  | convoyAnswer => exact .onUnit (.ite ⟨convoyAnswer_kept (.refl _), convoyAnswer_ordered⟩ (.refl s))
  | combiningSlotTimeout => exact .onUnit ⟨combTimeout_kept (.refl _), combTimeout_ordered⟩
  | cvBindSender | cvBindHandle | cvUnbindSender | cvUnbindHandle | replicationEntryCommit => exact .onUnit ⟨pairCmd_kept (.refl _), pairCmd_ordered⟩
  | routerForward => exact .onUnit ⟨routerForward_kept (routBooks_kept (.refl _)), fun o => routerForward_ordered (routBooks_ordered o)⟩
  | packetLaunch => exact .onUnit ⟨launchAlone_kept (.refl _), launchAlone_ordered⟩
  | dieSwitchRoute => exact .onUnit ⟨dieSwitch_kept (switchBooks_kept (.refl _)), fun o => dieSwitch_ordered (switchBooks_ordered o)⟩
  | scratchpadRemoteRequest => exact .onUnit ⟨spadRemote_kept (.refl _), spadRemote_ordered⟩
  | signpostMiss => exact .onUnit ⟨signpostMiss_kept (.refl _), signpostMiss_ordered⟩
  | signpostWalkReply => exact .onUnit ⟨walkReply_kept (.refl _), walkReply_ordered⟩
  | invalidationComplete => exact .next ⟨invalDone_kept (.refl _), invalDone_ordered⟩
  | flipComplete => exact .next ⟨flipDone_kept (.refl _), flipDone_ordered⟩
  | epochDrainTimeout => exact .next ⟨drainTimeout_kept (.refl _), drainTimeout_ordered⟩
  | footpathRegwr => exact .onFlit fun _ _ => .ite (.refl _) ⟨registerWrite_kept (.refl _), registerWrite_ordered⟩
  | footpathRegrd =>
    exact .onFlit fun s _ => ⟨send_kept (by split; exacts [readCode_kept (.refl s), .refl s]),
      fun o => send_ordered (by split; exacts [readCode_ordered o, o])⟩
  | footpathAck =>
    exact .onFlit fun s _ => .ite ⟨⟨rfl, rfl, rfl, id⟩, fun o => ⟨o.caps, o.sp⟩⟩ ⟨⟨rfl, rfl, rfl, id⟩, fun o => ⟨o.caps, o.sp⟩⟩
  | footpathRegrsp | footpathInt | epsumGather => exact .onFlit fun _ _ => ⟨send_kept (.refl _), send_ordered⟩
  | stepMessage => exact .onFlit fun _ _ => ⟨stepAtDie_kept (.refl _), stepAtDie_ordered⟩
  | digestMessage => exact .onFlit fun _ _ => ⟨setNet_kept (.refl _), setNet_ordered⟩
  | mboxMessage => exact .onFlit fun _ _ => ⟨mboxAt_kept (.refl _), mboxAt_ordered⟩
  | invalMessage => exact .onFlit fun _ _ => .folds fun _ _ => ⟨invalTake_kept (.refl _), invalTake_ordered⟩
  | flipMessage => exact .onFlit fun _ _ => .folds fun _ _ => ⟨flipTake_kept (.refl _), flipTake_ordered⟩
  | footpathLinkFailover => exact .onUnit ⟨setNet_kept (.refl _), setNet_ordered⟩
  | sliceRequest => exact .onUnit ⟨sliceRequest_kept (.refl _), sliceRequest_ordered⟩
  | sliceReadComplete => exact .onUnit ⟨sliceRead_kept (.refl _), sliceRead_ordered⟩
  | sliceWriteAck => exact .onUnit ⟨sliceWrite_kept (.refl _), sliceWrite_ordered⟩
  | patrolScrub => exact .onUnit ⟨patrolScrub_kept (.refl _), patrolScrub_ordered⟩
  | perBankRefresh => exact .onUnit (.refl s)
  | stackTempRead => exact .onUnit ⟨stackTemp_kept (.refl _), stackTemp_ordered⟩
  | trainingComplete => exact .onUnit ⟨memTrained_kept (.refl _), memTrained_ordered⟩
  | recentringWindow => exact .onUnit ⟨recentreOpen_kept (.refl _), recentreOpen_ordered⟩
  | recentringEnd => exact .onUnit ⟨recentreEnd_kept (.refl _), recentreEnd_ordered⟩
  | placementWrite => exact .onUnit ⟨placeCmd_kept (.refl _), placeCmd_ordered⟩
  | placementAcked | grantAcked => exact .onUnit ⟨fdSet_kept (.refl _), fdSet_ordered⟩
  | sliceEvacuated => exact .onUnit ⟨sliceEvacuated_kept (.refl _), sliceEvacuated_ordered⟩
  | codewordReceive => exact .onUnit ⟨codewordIn_kept (.refl _), codewordIn_ordered⟩
  | identBlock => exact .onUnit ⟨portChanged_kept (.refl s) (identIn_kept (.refl s)), fun o => portChanged_ordered o (identIn_ordered o)⟩
  | spareReady => exact .onUnit ⟨spareReady_kept (.refl _), spareReady_ordered⟩
  | swapReq => exact .onUnit ⟨swapAsked_kept (.refl _), swapAsked_ordered⟩
  | halfReq => exact .onUnit ⟨portChanged_kept (.refl s) (halfAsked_kept (.refl s)), fun o => portChanged_ordered o (halfAsked_ordered o)⟩
  | halfAck => exact .onUnit ⟨portChanged_kept (.refl s) (halfDone_kept (.refl s)), fun o => portChanged_ordered o (halfDone_ordered o)⟩
  | eqAdj => exact .onUnit ⟨eqAdj_kept (.refl _), eqAdj_ordered⟩
  | routedControlPacket => exact .onUnit ⟨controlPkt_kept (.refl _), controlPkt_ordered⟩
  | portSignalDetect => exact .onUnit ⟨signalSeen_kept (.refl _), signalSeen_ordered⟩
  | portTrainingDone =>
    exact .onUnit ⟨portChanged_kept (.refl s) (trainingDone_kept (.refl s)), fun o => portChanged_ordered o (trainingDone_ordered o)⟩
  | portCheckDone => exact .onUnit ⟨portChanged_kept (.refl s) (checkEnd_kept (.refl s)), fun o => portChanged_ordered o (checkEnd_ordered o)⟩
  | portDownExpiry => exact .onUnit ⟨downExpiry_kept (.refl _), downExpiry_ordered⟩
  | laneFailure => exact .onUnit ⟨portChanged_kept (.refl s) (laneFail_kept (.refl s)), fun o => portChanged_ordered o (laneFail_ordered o)⟩
  | spareRetrainDone => exact .onUnit ⟨spareDone_kept (.refl _), spareDone_ordered⟩
  | rotationStep => exact .onUnit ⟨rotationStep_kept (.refl _), rotationStep_ordered⟩
  | laneSwap => exact .onUnit ⟨laneSwap_kept (.refl _), laneSwap_ordered⟩
  | halfWidthRetrain =>
    exact .onUnit ⟨portChanged_kept (.refl s) (halfRetrain_kept (.refl s)), fun o => portChanged_ordered o (halfRetrain_ordered o)⟩
  | portDown => exact .onUnit ⟨portChanged_kept (.refl s) (portLost_kept (.refl s)), fun o => portChanged_ordered o (portLost_ordered o)⟩
  | deviceRoute => exact .onUnit ⟨routeCmd_kept (.refl _), routeCmd_ordered⟩
  | causewayMemoryRequest => exact .onUnit ⟨cwRequest_kept (.refl _), cwRequest_ordered⟩
  | heartbeatSend => exact .onUnit ⟨heartbeatSend_kept (.refl _), heartbeatSend_ordered⟩
  | heartbeatReceive => exact .onTwin fun _ => ⟨heartbeatIn_kept (.refl _), heartbeatIn_ordered⟩
  | heartbeatPeriodMissed =>
    exact .next ⟨carryPlaced_kept (.refl s) (periodMissed_kept (.refl s)), fun o => carryPlaced_ordered o (periodMissed_ordered o)⟩
  | queryTimeout => exact .next ⟨carryPlaced_kept (.refl s) (queryTimeout_kept (.refl s)), fun o => carryPlaced_ordered o (queryTimeout_ordered o)⟩
  | fence => exact .onTwin fun _ => ⟨fenced_kept (.refl _), fenced_ordered⟩
  | cwholdExpiry => exact .next ⟨cwHold_kept (.refl _), cwHold_ordered⟩
  | twinBindBind => exact .onUnit ⟨bindCmd_kept (.refl s) fun _ _ => twinBind_kept (.refl _), fun o => bindCmd_ordered o fun _ _ => twinBind_ordered⟩
  | twinBindAttach =>
    exact .onUnit ⟨bindCmd_kept (.refl s) fun _ _ => twinAttach_kept (.refl _), fun o => bindCmd_ordered o fun _ _ => twinAttach_ordered⟩
  | twinBindDetach =>
    exact .onUnit ⟨bindCmd_kept (.refl s) fun _ _ => twinDetach_kept (.refl _), fun o => bindCmd_ordered o fun _ _ => twinDetach_ordered⟩
  | twinBindUnbind =>
    exact .onUnit ⟨bindCmd_kept (.refl s) fun _ _ => twinUnbind_kept (.refl _), fun o => bindCmd_ordered o fun _ _ => twinUnbind_ordered⟩
  | twinCtrl => exact .onTwin fun _ => ⟨pstMoves_kept (.refl _) (twinCtrl_kept (.refl _)), fun o => pstMoves_ordered o (twinCtrl_ordered o)⟩
  | journalMark => exact .next ⟨markCmd_kept (.refl _), markCmd_ordered⟩
  | jrecReceive | jmarkReceive => exact .onTwin fun _ => ⟨journalIn_kept (.refl _), journalIn_ordered⟩
  | jackSend => exact .next ⟨jackSend_kept (.refl _), jackSend_ordered⟩
  | jackReceive => exact .onTwin fun _ => ⟨jackIn_kept (.refl _), jackIn_ordered⟩
  | journalResend => exact .onUnit ⟨journalResend_kept (.refl _), journalResend_ordered⟩
  | shadowApply => exact .onUnit ⟨shadowApply_kept (.refl _), shadowApply_ordered⟩
  | hotDigest => exact .onTwin fun _ => ⟨hotDigest_kept (.refl _), hotDigest_ordered⟩
  | pcdigReceive => exact .onTwin fun _ => ⟨pcdigIn_kept (.refl _), pcdigIn_ordered⟩
  | signpostUpdate => exact .next ⟨signpostUpdate_kept (.refl _), signpostUpdate_ordered⟩
  | rejoinRequest => exact .next ⟨rejoinRequest_kept (.refl _), rejoinRequest_ordered⟩
  | resync => exact .next ⟨resyncStart_kept (.refl _), resyncStart_ordered⟩
  | resyncRead => exact .onUnit ⟨resyncCmd_kept (.refl _), resyncCmd_ordered⟩
  | handBack => exact .next ⟨carryPlaced_kept (.refl s) (handBack_kept (.refl s)), fun o => carryPlaced_ordered o (handBack_ordered o)⟩
  | healReport => exact .next ⟨healReport_kept (.refl _), healReport_ordered⟩
  | ladderWindowExpiry => exact .onUnit ⟨windowClose_kept (.refl _), windowClose_ordered⟩
  | ladderDecay => exact .onUnit ⟨ladderDecay_kept (.refl _), ladderDecay_ordered⟩
  | pairCompare => exact .onUnit ⟨pairCompare_kept (.refl _), pairCompare_ordered⟩
  | healLogDrain => exact .onUnit ⟨logDrain_kept (.refl _), logDrain_ordered⟩
  | unitClose | closureWithdraw => exact .next ⟨closeCmd_kept (.refl _), closeCmd_ordered⟩
  | closureMapSave => exact .next ⟨mapSave_kept (.refl _), mapSave_ordered⟩
  | moveStart | rebuildStart | moveAbort => exact .next ⟨mvCmd_kept (.refl _), mvCmd_ordered⟩
  | movePrepared => exact .onUnit ⟨movePrepared_kept (.refl _), movePrepared_ordered⟩
  | moveCopyDone => exact .onUnit ⟨moveCopied_kept (.refl _), moveCopied_ordered⟩
  | trackingPass => exact .onUnit ⟨trackingPass_kept (.refl _), trackingPass_ordered⟩
  | cutoverFreeze => exact .next ⟨cutoverFreeze_kept (.refl _), cutoverFreeze_ordered⟩
  | freezeTableAcked => exact .next ⟨freezeAcked_kept (.refl _), freezeAcked_ordered⟩
  | freezeCutover => exact .next ⟨freezeCutover_kept (.refl _), freezeCutover_ordered⟩
  | freezeRelease => exact .next ⟨freezeRelease_kept (.refl _), freezeRelease_ordered⟩
  | roadworksVisitStart => exact .onUnit ⟨visitStart_kept (.refl _), visitStart_ordered⟩
  | roadworksTestDone => exact .onUnit ⟨testDone_kept (.refl _), testDone_ordered⟩
  | marginWalkStep => exact .onUnit ⟨walkStep_kept (.refl _), walkStep_ordered⟩
  | roadworksVisitEnd => exact .onUnit ⟨visitEnd_kept (.refl _), visitEnd_ordered⟩
  | selfTestSlotGrant => exact .onUnit ⟨slotGrant_kept (.refl _), slotGrant_ordered⟩
  | calibrationGrant => exact .onUnit ⟨calGrant_kept (.refl _), calGrant_ordered⟩
  | healMvSelWrite | aonHwdogKick | pwrLimitWrite | fuseArmWrite => exact .next ⟨regCmd_kept (.refl _), regCmd_ordered⟩
  | healRwlogRead | healHlogRead | hostEventRead => exact .next ⟨registerRead_kept (.refl _), registerRead_ordered⟩
  | computeDieReset | portDieReset => exact .onUnit (.ite (.refl s) ⟨resetDie_kept (.refl _), resetDie_ordered⟩)
  | moduleReset => exact .next ⟨moduleResetDue_kept (.refl _), moduleResetDue_ordered⟩
  | dieWatchdogExpiry => exact .onUnit ⟨dieWdog_kept (.refl _), dieWdog_ordered⟩
  | hubWatchdogExpiry => exact .next ⟨hubWdog_kept (.refl _), hubWdog_ordered⟩
  | footpathHubLoss => exact .onUnit ⟨footpathHubLoss_kept (.refl _), footpathHubLoss_ordered⟩
  | hostLinkReset => exact .onUnit ⟨hostLinkReset_kept (.refl _), hostLinkReset_ordered⟩
  | functionLevelReset => exact .onUnit ⟨functionReset_kept (.refl _), functionReset_ordered⟩
  | ctxopHalt | ctxopClose | ctxopRegen | ctxopClear => exact .onUnit ⟨ctxOpCmd_kept (.refl _), ctxOpCmd_ordered⟩
  | ctxopComplete => exact .onUnit ⟨ctxOpDone_kept (.refl _), ctxOpDone_ordered⟩
  | ctxTeardown =>
    exact .onUnit ⟨withCmd_kept (.refl s) fun _ _ => ctxTeardown_kept (.refl _), fun o => withCmd_ordered o fun _ _ => ctxTeardown_ordered⟩
  | drainExpiry => exact .onUnit ⟨drainGo_kept (drainEnd_kept (.refl _)), fun o => drainGo_ordered (drainEnd_ordered o)⟩
  | incidentLost => exact .onNotice fun _ => ⟨pstMoves_kept (.refl _) (lostIn_kept (.refl _)), fun o => pstMoves_ordered o (lostIn_ordered o)⟩
  | incidentQuery => exact .onNotice fun _ => ⟨queryIn_kept (.refl _), queryIn_ordered⟩
  | incidentState => exact .onNotice fun _ => ⟨stateIn_kept (.refl _), stateIn_ordered⟩
  | incidentAbort => exact .onNotice fun _ => ⟨abortIn_kept (.refl _), abortIn_ordered⟩
  | incidentAborted => exact .onNotice fun _ => ⟨abortedIn_kept (.refl _), abortedIn_ordered⟩
  | incidentResume => exact .onNotice fun _ => ⟨resumeIn_kept (.refl _), resumeIn_ordered⟩
  | contextArmed => exact .onUnit ⟨contextArmed_kept (.refl _), contextArmed_ordered⟩
  | incidentArmed => exact .onNotice fun _ => ⟨armedIn_kept (.refl _), armedIn_ordered⟩
  | incidentGo => exact .onNotice fun _ => ⟨goIn_kept (.refl _), goIn_ordered⟩
  | incidentPosition => exact .onNotice fun _ => ⟨positionIn_kept (.refl _), positionIn_ordered⟩
  | incidentAck => exact .onNotice fun _ => ⟨ackIn_kept (.refl _), ackIn_ordered⟩
  | noticeResend => exact .next ⟨noticeResend_kept (.refl _), noticeResend_ordered⟩
  | barrierTimeout => exact .onUnit ⟨barrierTimeout_kept (.refl _), barrierTimeout_ordered⟩
  | gridlockRecovery => exact .onUnit ⟨gridRecover_kept (.refl _), gridRecover_ordered⟩
  | aonRstComputeDie | aonRstPortDie | aonRstModule => exact .next ⟨aonRstCmd_kept (.refl _), aonRstCmd_ordered⟩
  | aonRstClr | standbyEntry | authDbgLockWrite => exact .next ⟨regCmdSet_kept (.refl _), regCmdSet_ordered⟩
  | alwaysOnStart => exact .next ⟨alwaysOnStart_kept (.refl _), alwaysOnStart_ordered⟩
  | hubBoot => exact .next ⟨hubBoot_kept (.refl _), hubBoot_ordered⟩
  | serviceImageLoad => exact .next ⟨serviceImageLoad_kept (.refl _), serviceImageLoad_ordered⟩
  | memoryStart => exact .next ⟨memoryStart_kept (.refl _), memoryStart_ordered⟩
  | powerUpWave => exact .onUnit ⟨powerUpWave_kept (.refl _), powerUpWave_ordered⟩
  | provingBatch => exact .next ⟨provingBatch_kept (.refl _), provingBatch_ordered⟩
  | tkCoreTestRound => exact .next ⟨tkCoreTestRound_kept (.refl _), tkCoreTestRound_ordered⟩
  | portStart => exact .next ⟨portStart_kept (.refl _), portStart_ordered⟩
  | tkPortSoak => exact .next ⟨tkPortSoak_kept (.refl _), tkPortSoak_ordered⟩
  | startDone => exact .next ⟨startDone_kept (.refl _), startDone_ordered⟩
  | startStepLimit => exact .next ⟨startStepLimit_kept (.refl _), startStepLimit_ordered⟩
  | recordSave => exact .next ⟨recordSave_kept (.refl _), recordSave_ordered⟩
  | phaseFailure => exact .onUnit ⟨phaseFailure_kept (.refl _), phaseFailure_ordered⟩
  | regulatorFault => exact .onUnit ⟨regulatorFault_kept (.refl _), regulatorFault_ordered⟩
  | powerSample => exact .next ⟨powerSample_kept (.refl _), powerSample_ordered⟩
  | limiterInterval => exact .next ⟨limiterInterval_kept (.refl _), limiterInterval_ordered⟩
  | fastThrottle => exact .onUnit ⟨fastThrottle_kept (.refl _), fastThrottle_ordered⟩
  | fastThrottleRelease => exact .onUnit ⟨throttleRelease_kept (.refl _), throttleRelease_ordered⟩
  | restEntry => exact .onUnit ⟨restEntry_kept (.refl _), restEntry_ordered⟩
  | restWake => exact .onUnit ⟨restWake_kept (.refl _), restWake_ordered⟩
  | dieIdleEntry => exact .onUnit ⟨dieIdleEntry_kept (.refl _), dieIdleEntry_ordered⟩
  | dieIdleExit => exact .onUnit ⟨dieIdleExit_kept (.refl _), dieIdleExit_ordered⟩
  | crystalJudged => exact .next ⟨crystalJudged_kept (.refl _), crystalJudged_ordered⟩
  | crystalFail => exact .next ⟨crystalFail_kept (.refl _), crystalFail_ordered⟩
  | pllStart => exact .onUnit ⟨pllWake_kept (.refl _), pllWake_ordered⟩
  | pllLock => exact .onUnit ⟨pllLock_kept (.refl _), pllLock_ordered⟩
  | pllLoss => exact .onUnit ⟨pllLoss_kept (.refl _), pllLoss_ordered⟩
  | serdesRefLoss => exact .onUnit ⟨serdesLoss_kept (.refl _), serdesLoss_ordered⟩
  | serdesRefReturn => exact .onUnit ⟨serdesReturn_kept (.refl _), serdesReturn_ordered⟩
  | hostRefclkLoss => exact .next ⟨hostRefLoss_kept (.refl _), hostRefLoss_ordered⟩
  | tempSample => exact .onUnit ⟨tempSample_kept (.refl _), tempSample_ordered⟩
  | thermalTrip => exact .next ⟨thermalTrip_kept (.refl _), thermalTrip_ordered⟩
  | doorbell => exact .onUnit ⟨doorbellCmd_kept (.refl _), doorbellCmd_ordered⟩
  | commandFetch => exact .onUnit ⟨commandFetch_kept (.refl _), commandFetch_ordered⟩
  | ringEnable | ringDisable => exact .next ⟨ringCmd_kept (.refl _), ringCmd_ordered⟩
  | ctxCreate => exact .onRing fun _ _ => ⟨ctxCreate_kept (.refl _), ctxCreate_ordered⟩
  | itinLoad => exact .onRing fun _ _ => ⟨itinLoad_kept (.refl _), itinLoad_ordered⟩
  | stepRun => exact .onRing fun _ _ => ⟨stepRun_kept (.refl _), stepRun_ordered⟩
  | stepPost => exact .onUnit ⟨stepPost_kept (.refl _), stepPost_ordered⟩
  | stepCompletion => exact .onUnit ⟨stepCompletion_kept (.refl _), stepCompletion_ordered⟩
  | milestoneWait => exact .onRing fun _ _ => ⟨milestoneWait_kept (.refl _), milestoneWait_ordered⟩
  | milestoneWaitTimeout => exact .onUnit ⟨waitTimeout_kept (.refl _), waitTimeout_ordered⟩
  | healQuery => exact .onRing fun _ _ => ⟨healQuery_kept (.refl _), healQuery_ordered⟩
  | window => exact .onRing fun _ _ => ⟨windowCmd_kept (.refl _), windowCmd_ordered⟩
  | fabricCfgSetDevice | fabricCfgWriteTable | fabricCfgFlip | fabricCfgReadSum | fabricCfgRetire | fabricCfgSetExpect | fabricCfgEnable
  | fabricCfgSave =>
    exact ⟨onFabCfg_kept (.refl s), onFabCfg_ordered⟩
  | mboxReleaseQuery | mboxEcho => exact .onUnit ⟨mailboxAnswer_kept (.refl _), mailboxAnswer_ordered⟩
  | bar2BaseWrite => exact .next ⟨pairCmd_kept (.refl _), pairCmd_ordered⟩
  | barMemoryAccess => exact .next ⟨barAccess_kept (.refl _), barAccess_ordered⟩
  | vfWindowAccess => exact .onUnit ⟨vfAccess_kept (.refl _), vfAccess_ordered⟩
  | entdaa => exact .next ⟨dynAddr_kept (.refl _), dynAddr_ordered⟩
  | mctpControl => exact .next ⟨mctpControl_kept (.refl _), mctpControl_ordered⟩
  | casevoRegRead => exact .next ⟨casevoRead_kept (.refl _), casevoRead_ordered⟩
  | casevoRegWrite => exact .next ⟨casevoWrite_kept (.refl _), casevoWrite_ordered⟩
  | casevoHealQuery => exact .next ⟨mgmtHeal_kept (.refl _), mgmtHeal_ordered⟩
  | casevoFabricCfg => exact .next ⟨mgmtFabric_kept (.refl _), mgmtFabric_ordered⟩
  | casevoFuse => exact .next ⟨casevoFuse_kept (.refl _), casevoFuse_ordered⟩
  | pldmSensorRead => exact .next ⟨pldmSensor_kept (.refl _), pldmSensor_ordered⟩
  | pldmEffecterSet => exact .next ⟨pldmEffecter_kept (.refl _), pldmEffecter_ordered⟩
  | firmwareUpdate => exact .next ⟨firmwareUpdate_kept (.refl _), firmwareUpdate_ordered⟩
  | spdmGetCertificate | spdmChallenge => exact .next ⟨spdmAnswer_kept (.refl _), spdmAnswer_ordered⟩
  | spdmGetMeasurements => exact .next ⟨spdmMeasure_kept (.refl _), spdmMeasure_ordered⟩
  | debugTransport => exact .next ⟨debugAccess_kept (.refl _), debugAccess_ordered⟩
  | fuseArmExpiry => exact .next ⟨fuseExpiry_kept (.refl _), fuseExpiry_ordered⟩
  | fuseDbgClose | fuseMgmtClose | fuseSvnAdvance | fuseKeyRevoke => exact .next ⟨fuseCmdWrite_kept (.refl _), fuseCmdWrite_ordered⟩
  | fuseProgramDone => exact .next ⟨fuseDone_kept (.refl _), fuseDone_ordered⟩
  | gaugeRun | gaugeCloseWrite => exact .onGauge ⟨regCmdSet_kept (.refl _), regCmdSet_ordered⟩
  | gaugeStop => exact .onGauge ⟨regCmdClear_kept (.refl _), regCmdClear_ordered⟩
  | gaugeWindowExpiry => exact .onGauge ⟨gaugeExpiry_kept (.refl _), gaugeExpiry_ordered⟩
  | gaugeSample => exact .onGauge ⟨gaugeSample_kept (.refl _), gaugeSample_ordered⟩
  | levelSamplePeriod => exact .onGauge ⟨levelSample_kept (.refl _), levelSample_ordered⟩
  | linkofsSample => exact .onGauge ⟨linkofsSample_kept (.refl _), linkofsSample_ordered⟩
  | aux3v3Applied => exact .next ⟨auxApplied_kept (.refl _), auxApplied_ordered⟩
  | twinSelSample => exact .next ⟨twinSelSample_kept (.refl _), twinSelSample_ordered⟩
  | aux3v3Lost => exact .next ⟨auxLost_kept (.refl _), auxLost_ordered⟩
  | pwrEnRise => exact .next ⟨pwrEnRise_kept (.refl _), pwrEnRise_ordered⟩
  | pwrEnFall => exact .next ⟨pwrEnFall_kept (.refl _), pwrEnFall_ordered⟩
  | mainSupplyLost => exact .next ⟨mainLost_kept (.refl _), mainLost_ordered⟩
  | mainSupplyRestored => exact .next ⟨mainRestored_kept (.refl _), mainRestored_ordered⟩
  | modRstNAssert => exact .next ⟨modRst_kept (.refl _), modRst_ordered⟩
  | flashExtNAssert => exact .next ⟨flashExtLow_kept (.refl _), flashExtLow_ordered⟩
  | flashExtNRelease => exact .next ⟨flashExtHigh_kept (.refl _), flashExtHigh_ordered⟩
  | chopenBackoffExpiry => exact .onUnit (.withFollower fun _ _ => ⟨openAgain_kept (.refl _), openAgain_ordered⟩)
  | handleCloseNotice => exact .onUnit (.withFollower fun _ _ => ⟨handleClose_kept (.refl _), handleClose_ordered⟩)
  | codewordTransmit => exact .onUnit ⟨codewordOut_kept (.refl _), codewordOut_ordered⟩
  | dieResetComplete => exact .onUnit ⟨dieReturned_kept (.refl _), dieReturned_ordered⟩
  | hostLinkTrained => exact .next ⟨hostTrained_kept (.refl _), hostTrained_ordered⟩
  | pcieConfigurationRequest => exact .onUnit ⟨pcieConfig_kept (.refl _), pcieConfig_ordered⟩
  | pldmEventPoll => exact .next ⟨pldmPoll_kept (.refl _), pldmPoll_ordered⟩
/-- What a step answers keeps what the invariants speak of, from the state its command ran in; with nothing waiting only time passes. -/
theorem step_sound {s t : State} (e : step s = .next t) :
    (s.pending = [] ∧ t = tick s) ∨ ∃ i rest, s.pending = i :: rest ∧ Sound { s with pending := rest } t := by
  unfold step at e
  split at e
  next h => cases e; exact .inl ⟨h, rfl⟩
  next i rest h =>
    obtain ⟨hk, ho⟩ := exec_sound i { s with pending := rest }
    exact .inr ⟨i, rest, h, hk t e, fun o => ho o t e⟩

/-- Settles O38: a command's operation keeps memory's form, and an idle tick leaves memory alone. -/
theorem everyStepKeepsMemoryCanonical : Obligations.EveryStepKeepsMemoryCanonical := by
  unfold Obligations.EveryStepKeepsMemoryCanonical
  intro s t hm e
  obtain ⟨-, rfl⟩ | ⟨i, rest, -, h⟩ := step_sound e
  · exact hm
  · exact h.kept.mem hm

/-- Settles O39: a command's operation keeps captures and scratchpads in order, and an idle tick leaves them alone. -/
theorem everyStepKeepsScratchpadsAndCaptures : Obligations.EveryStepKeepsScratchpadsAndCaptures := by
  unfold Obligations.EveryStepKeepsScratchpadsAndCaptures
  intro s t hs hc e
  obtain ⟨-, rfl⟩ | ⟨i, rest, -, h⟩ := step_sound e
  · exact ⟨hs, hc⟩
  · obtain ⟨caps, sp⟩ := h.ordered (Ordered.iff.2 ⟨hc, hs⟩)
    exact ⟨sp, caps⟩

/-- Settles O40: the command runs in the state whose queue has lost it, and its operation keeps queue, time and fused map. -/
theorem everyStepTakesOneCommand : Obligations.EveryStepTakesOneCommand := by
  unfold Obligations.EveryStepTakesOneCommand
  intro s t e
  obtain ⟨hp, rfl⟩ | ⟨i, rest, hp, h⟩ := step_sound e
  · simp [tick, hp]
  · obtain ⟨pending, now, fuseMap, -⟩ := h.kept
    exact ⟨by rw [pending, hp]; rfl, by rw [now, hp, if_neg (by simp)], fuseMap⟩

/-- Settles O34: `step` is defined by the front of the queue. -/
theorem stepRunsTheFront : Obligations.StepRunsTheFront := fun _ _ _ => rfl

/-- Settles O37: at reset the tables are empty. -/
theorem resetMeetsTheInvariants : Obligations.ResetMeetsTheInvariants := ⟨rfl, rfl, rfl⟩

end Sys2Proof.Machine
end

section
/-! PROOFS. Two statements about the host port that the model refutes: the frame of its commands and the effect of FABRIC_CFG. -/
namespace Sys2Proof.Machine
open Sys2Proof

/-- The module with its memory up and one error that ECC corrects in the block at address 0. -/
def blockErrState : State := { Tests.wHash with merr := [(0, 1)] }
/-- A write of a whole 64-bit word through BAR2 puts right the block it stores to (R342). -/
theorem barAccess_write_rights_block : (barAccess blockErrState 2 0 8 true [1, 2, 3, 4, 5, 6, 7, 8]).merr = [] := by decide +kernel
theorem exec_barMemoryAccess (s : State) (off n : Nat) (w : Bool) (l : List Byte) :
    exec (.barMemoryAccess false off n w l) s = .next (barAccess s 2 off n w l) := rfl

/-- Refutes O58: the arm of an access through BAR2 does not list the errors of memory blocks, and a write ends those of its blocks. -/
theorem not_hostFrame : ¬ Obligations.HostFrame := by
  unfold Obligations.HostFrame
  intro h
  obtain ⟨frame, -⟩ := h _ _ _ (exec_barMemoryAccess blockErrState 0 8 true [1, 2, 3, 4, 5, 6, 7, 8])
  have kept := congrArg State.merr frame
  rw [barAccess_write_rights_block] at kept
  cases kept

/-- A ring's operation does its part where its command is next and is of the kind that the operation takes. -/
theorem withCmd_of_next {s : State} {r op : Nat} {p : HCmd → Bool} {k : HCmd} (next : nextCmd s r op = some k) (kind : p k = true)
    (f : State → HCmd → State) : withCmd s r op p f = f (takeCmd s k) k := by
  unfold withCmd
  rw [next]
  exact if_pos kind

/-- SET_DEVICE to number 5 as FABRIC_CFG gives it, but with byte 9, which that operation does not use, not 0 (R586, R594). -/
def strayByteCmd : HCmd := { ring := 0, entry := 8 + 2 ^ 64 + 2 ^ 72 + 2 ^ 80 * 5 }
/-- The module started, with that command fetched by ring 0. -/
def strayByteState : State := Tests.wCmd Tests.wUp strayByteCmd.entry
/-- The command ends with RANGE: no device number is set. -/
theorem fabricCmd_strayByte : (fabricCmd (takeCmd strayByteState strayByteCmd) strayByteCmd true).host.dev = false := by decide +kernel
theorem exec_fabricCfgSetDevice (s : State) (r : Nat) :
    exec (.fabricCfgSetDevice r) s = onUnit r 128 (withCmd s r 8 (subIs 1) fun s k => fabricCmd s k true) := rfl
theorem nextCmd_strayByte : nextCmd strayByteState 0 8 = some strayByteCmd := by decide +kernel

/-- Refutes O30: SET_DEVICE whose entry is not 0 in a byte the operation does not use meets the hypotheses of the first clause, which look
at no such byte, and is refused. -/
theorem not_hostCommandsComplete : ¬ Obligations.HostCommandsComplete := by
  unfold Obligations.HostCommandsComplete
  rintro ⟨h, -⟩
  obtain ⟨t, ran, -, -, dev⟩ := h strayByteState 0 5 strayByteCmd (by decide) nextCmd_strayByte (by decide) (by decide) (by decide)
    (by decide +kernel) (by decide) (by decide) (by decide +kernel) (by decide +kernel)
  rw [exec_fabricCfgSetDevice, withCmd_of_next nextCmd_strayByte (by decide)] at ran
  rw [(onUnit_next ran).2, fabricCmd_strayByte] at dev
  cases dev

end Sys2Proof.Machine
end

section
/-! PROOFS. Accesses to the page header (R40, R49–R54): what a granted write of a header register does, and what a read of a pair's low half
sends and latches. -/
namespace Sys2Proof.Machine
open Sys2Proof

theorem pageOf_no_lt {p : PageId} (hp : pageOf p.no = some p) : p.no < 32768 := by have := pageOf_lt hp; omega

/-- No page of the module stands where BAR0 shows the MSI-X table or its pending bits (R579). -/
theorem not_msix_of_page {p : PageId} (hp : pageOf p.no = some p) (off : Nat) : msixPage p.no off = none ∧ pbaPage p.no off = false := by
  have := pageOf_lt hp
  refine ⟨if_neg (by omega), ?_⟩
  simp only [pbaPage, Bool.and_eq_false_imp, beq_iff_eq]
  omega

/-- An access to a word of a page of the module comes to that page, unless the debug port is shut. -/
theorem writeCode_page {s : State} {req : Req} {p : PageId} {off v : Nat} (hp : pageOf p.no = some p) (ho : off % 4 = 0)
    (hd : req = .debug → debugShut s = false) : writeCode s req p.no off v 15 = pageWrite s req p off v 15 := by
  have unshut : ¬ (req == Req.debug && debugShut s) = true := by simpa using hd
  obtain ⟨hm, hb⟩ := not_msix_of_page hp off
  have hn := pageOf_lt hp
  simp only [writeCode, if_neg unshut, hm, hb, hp, Option.isSome_none, Bool.and_false, Bool.false_eq_true, if_false, if_pos ho,
    Nat.div_mul_cancel (Nat.dvd_of_mod_eq_zero ho), if_neg (show ¬ p.no / 2048 = 15 by omega)]
theorem readCode_page {s : State} {req : Req} {p : PageId} {off : Nat} (hp : pageOf p.no = some p) (ho : off % 4 = 0)
    (hd : req = .debug → debugShut s = false) : readCode s req p.no off = pageRead s req p off := by
  have unshut : ¬ (req == Req.debug && debugShut s) = true := by simpa using hd
  obtain ⟨hm, hb⟩ := not_msix_of_page hp off
  simp only [readCode, if_neg unshut, hm, hb, hp, Option.isSome_none, Bool.and_false, Bool.false_eq_true, if_false,
    Nat.div_mul_cancel (Nat.dvd_of_mod_eq_zero ho)]

/-! ### Writes of header registers -/

@[simp] theorem rd_irqEdge (old s : State) (p q : PageId) (o : Nat) : rd (irqEdge old p s) q o = rd s q o := by
  unfold irqEdge; split <;> rfl

/-- A granted write of a header register does that register's work. -/
theorem registerWrite_header {s : State} {req : Req} {p : PageId} {off v : Nat} {r : RegSpec} (hp : pageOf p.no = some p) (h : off < 64)
    (hr : regs_hdr.find? (·.holds off) = some r) (one : r.half = .one) (hw : r.writable = true) (ho : off % 4 = 0) (g : Granted s req p off v) :
    registerWrite s req p.no off v 15 = headerReg s p off (plan s req p off v).new (plan s req p off v).eff := by
  rw [registerWrite_one hp ((specOf_hdr h).trans hr) one hw ho g]
  exact if_pos h

/-- A granted write of a header register of one field of 32 bits: the word is what the register takes, stored where it is RW and as it takes
effect. -/
theorem registerWrite_headerWord {s : State} {req : Req} {p : PageId} {off : Nat} {v : Word} {r : RegSpec} {acc : Acc}
    (hp : pageOf p.no = some p) (h : off < 64) (hr : regs_hdr.find? (·.holds off) = some r) (one : r.half = .one)
    (hf : r.fields = [fs 0 32 acc 0 .d]) (hw : acc = .rw ∨ acc = .w1s ∨ acc = .w1c) (ho : off % 4 = 0) (g : Granted s req p off v.toNat) :
    ∃ new eff, registerWrite s req p.no off v.toNat 15 = headerReg s p off new eff ∧ (acc = .rw → new % 2 ^ 32 = v.toNat) ∧ eff % 2 ^ 32 = v.toNat := by
  have writable : r.writable = true := by rw [RegSpec.writable, hf]; rcases hw with rfl | rfl | rfl <;> rfl
  obtain ⟨new, -, eff⟩ := plan_field ((specOf_hdr h).trans hr) g (by rw [hf]; rfl) (f := fs 0 32 acc 0 .d) (by rw [hf]; exact List.mem_singleton_self _)
  simp only [fs, FieldSpec.of, bits_all, Nat.mod_eq_of_lt v.isLt] at new eff
  exact ⟨_, _, registerWrite_header hp h hr one writable ho g, new,
    eff (by rcases hw with rfl | rfl | rfl <;> decide) (by rcases hw with rfl | rfl | rfl <;> decide)⟩

/-- The complement of a word's low 32 bits, as the model spells it, is the word's complement. -/
theorem xor_ones_mod {e : Nat} {v : Word} (h : e % 2 ^ 32 = v.toNat) : Nat.xor e (2 ^ 32 - 1) % 2 ^ 32 = (~~~v).toNat := by
  have ones : (2 ^ 32 - 1) % 2 ^ 32 = (BitVec.allOnes 32).toNat := rfl
  calc Nat.xor e (2 ^ 32 - 1) % 2 ^ 32 = (e % 2 ^ 32) ^^^ ((2 ^ 32 - 1) % 2 ^ 32) := Nat.xor_mod_two_pow
    _ = (v ^^^ BitVec.allOnes 32).toNat := by rw [h, ones, BitVec.toNat_xor]
    _ = (~~~v).toNat := by rw [BitVec.xor_allOnes]

/-- Clearing a word's bits in a register. -/
theorem wr_and_xor_ones (s : State) (p : PageId) (off a : Nat) {e : Nat} {v : Word} (h : e % 2 ^ 32 = v.toNat) :
    wr s p off (a &&& Nat.xor e (2 ^ 32 - 1)) = wr s p off (a &&& (~~~v).toNat) :=
  wr_congr s p off (by rw [Nat.and_mod_two_pow, xor_ones_mod h, Nat.and_mod_two_pow, Nat.mod_eq_of_lt (~~~v).isLt])

/-- Setting a word's bits in a register, as an interrupt event or its enable does, leaves registers at other offsets. -/
theorem rd_irqEdge_wr_or {s : State} {p : PageId} {off : Nat} {e : Nat} {v : Word} (h : e % 2 ^ 32 = v.toNat) :
    rd (irqEdge s p (wr s p off (rd s p off ||| e))) p off = rd s p off ||| v.toNat ∧
      ∀ q o, off / 4 % 1024 ≠ o / 4 % 1024 → rd (irqEdge s p (wr s p off (rd s p off ||| e))) q o = rd s q o := by
  refine ⟨?_, fun q o ne => (rd_irqEdge ..).trans (rd_wr_offset_ne _ _ ne)⟩
  rw [rd_irqEdge, rd_wr_same, Nat.or_mod_two_pow, h, Nat.mod_eq_of_lt (rd_lt s p off)]

theorem bits_mod_word (v : Nat) {lo w : Nat} (h : lo + w ≤ 32) : bits (v % 2 ^ 32) lo w = bits v lo w := by
  have split : 2 ^ 32 = 2 ^ lo * 2 ^ (32 - lo) := by rw [← Nat.pow_add]; congr 1; omega
  rw [bits, split, Nat.mod_mul_right_div_self, Nat.mod_mod_of_dvd _ (Nat.pow_dvd_pow 2 (by omega)), bits]

/-- A word with bit 0 set, as the field of that bit sees it. -/
theorem bits_or_one (v : Nat) : bits ((v ||| 1) % 2 ^ 32) 0 1 = 1 := by
  rw [bits, Nat.pow_zero, Nat.div_one, Nat.pow_one, Nat.mod_mod_of_dvd _ (by decide)]
  exact Nat.or_mod_two_eq_one.2 (.inr rfl)

/-- The lock bit that a granted write of PG_LOCK stores: W1S, so a 1 written sets it (R54). -/
theorem plan_lock {s : State} {req : Req} {p : PageId} {v : Nat} (g : Granted s req p 0x34 (v ||| 1)) :
    bits (plan s req p 0x34 (v ||| 1)).new 0 1 = 1 := by
  have spec : specOf p 0x34 = some sPG_LOCK := specOf_hdr (by decide)
  obtain ⟨-, -, -, denied, -⟩ := g
  simp only [plan, spec, sPG_LOCK, fs, planOf, List.foldl_cons, List.foldl_nil, fieldPlan, FieldSpec.of, bits_or_one] at denied ⊢
  split at denied
  · simp at denied
  next may =>
    rw [if_neg may, bits_setBits_same]
    exact Nat.or_mod_two_eq_one.2 (.inr rfl)

/-- A header register stands on its own page. -/
theorem homePage_header {p : PageId} {off : Nat} (h : off < 64) : homePage p off = p := by
  have cause : ¬ 0x100 ≤ off := by omega
  have memc : ¬ 0x80 ≤ off := by omega
  simp [homePage, cause, memc]

/-! ### Reads of pairs -/

/-- What a requester has latched last is what its latch shows. -/
theorem latched_last (s : State) (req : Req) (no off : Nat) (w : Word) :
    latched { unlatch s req no off with latch := (unlatch s req no off).latch ++ [⟨req, no, off, w⟩] } req no off = some w := by
  have none' : (unlatch s req no off).latch.find? (fun l => l.req == req && l.page == no && l.off == off) = none := by
    refine List.find?_eq_none.2 fun l hl => ?_
    simpa only [Bool.not_eq_true, Bool.not_eq_true'] using (List.mem_filter.1 hl).2
  simp only [latched, List.find?_append, none', Option.none_or, List.find?_cons, beq_self_eq_true, Bool.and_self, Option.map_some]

/-- A read of a pair's low half latches the high half's value (R40). -/
theorem pageRead_low {s : State} {req : Req} {p : PageId} {off : Nat} {r q : RegSpec} (hr : specOf p off = some r) (lo : r.half = .lo)
    (hq : specOf p (off + 4) = some q) (may : mayRead s req p = true) (on : unitClosed s p = false) (up : unitOff s p = false) :
    pageRead s req p off =
      ({ unlatch s req p.no (off + 4) with
          latch := (unlatch s req p.no (off + 4)).latch ++ [⟨req, p.no, off + 4, BitVec.ofNat 32 (viewWord s p q (off + 4))⟩] },
        viewWord s p r off, cOK) := by
  simp only [pageRead, may, hr, lo, hq, on, up, Bool.not_true, Bool.false_eq_true, if_false, Bool.or_self, Bool.and_false]

/-- Settles O1: a granted write of a header register is that register's work, with the word that its field of 32 bits, or its one bit, takes; a
read of a low half sends the view and latches the view of the high half. -/
theorem headerCommandsComplete : Obligations.HeaderCommandsComplete := by
  unfold Obligations.HeaderCommandsComplete
  refine ⟨?scratch, ?raw, ?stat, ?enSet, ?enClr, ?errClr, ?lock, ?pair⟩
  case scratch =>
    intro s req p v hp g
    obtain ⟨new, eff, write, word, -⟩ := registerWrite_headerWord (r := sPG_SCRATCH) hp (by decide) rfl rfl rfl (.inl rfl) rfl g
    exact completes_onUnit rfl (pageOf_no_lt hp) (write.trans (wr_congr _ _ _ (by rw [word rfl, Nat.mod_eq_of_lt v.isLt])))
  case raw =>
    intro s req p v hp g
    obtain ⟨new, eff, write, -, word⟩ := registerWrite_headerWord (r := sINT_RAW) hp (by decide) rfl rfl rfl (.inr (.inl rfl)) rfl g
    obtain ⟨set, kept⟩ := rd_irqEdge_wr_or (s := s) (p := p) (off := 0x10) word
    exact completes_onUnit rfl (pageOf_no_lt hp) (by rw [write]; exact ⟨set, kept p 0x18 (by decide)⟩)
  case stat =>
    intro s req p v hp g
    obtain ⟨new, eff, write, -, word⟩ := registerWrite_headerWord (r := sINT_STAT) hp (by decide) rfl rfl rfl (.inr (.inr rfl)) rfl g
    exact completes_onUnit rfl (pageOf_no_lt hp) (write.trans (wr_and_xor_ones _ _ _ _ word))
  case enSet =>
    intro s req p v hp g
    obtain ⟨new, eff, write, -, word⟩ := registerWrite_headerWord (r := sINT_EN_SET) hp (by decide) rfl rfl rfl (.inr (.inl rfl)) rfl g
    obtain ⟨set, kept⟩ := rd_irqEdge_wr_or (s := s) (p := p) (off := 0x18) word
    exact completes_onUnit rfl (pageOf_no_lt hp) (by rw [write]; exact ⟨set, kept p 0x10 (by decide)⟩)
  case enClr =>
    intro s req p v hp g
    obtain ⟨new, eff, write, -, word⟩ := registerWrite_headerWord (r := sINT_EN_CLR) hp (by decide) rfl rfl rfl (.inr (.inr rfl)) rfl g
    exact completes_onUnit rfl (pageOf_no_lt hp) (write.trans (wr_and_xor_ones _ _ _ _ word))
  case errClr =>
    intro s req p v hp g
    have one := (plan_field (r := sERR_CLR) (specOf_hdr (by decide)) g rfl (List.mem_singleton_self _)).2.2 (by decide) (by decide)
    have set : bit (plan s req p 0x30 (v.toNat ||| 1)).eff 0 = true := beq_iff_eq.2 (one.trans (bits_or_one _))
    exact completes_onUnit rfl (pageOf_no_lt hp)
      ((registerWrite_header (r := sERR_CLR) hp (by decide) rfl rfl rfl rfl g).trans (if_pos set))
  case lock =>
    intro s req p v hp g
    refine completes_onUnit rfl (pageOf_no_lt hp) ?_
    rw [registerWrite_header (r := sPG_LOCK) hp (by decide) rfl rfl rfl rfl g]
    refine ⟨?_, fun q o ne => rd_wr_ne s _ (by rwa [homePage_header (p := p) (off := 0x34) (by decide)])⟩
    exact (congrArg (bits · 0 1) (rd_wr_same ..)).trans ((bits_mod_word _ (by decide)).trans (plan_lock g))
  case pair =>
    intro s req p off r q hp hr lo hq ho hlt hx on up
    have may := pageRead_low hr lo hq hx.2 on up
    refine completes_onUnit rfl (pageOf_no_lt hp) ?_
    have read : wideRead s req p.no (off % 4096) 1 = send (pageRead s req p off).1 (.data req (BitVec.ofNat 32 (pageRead s req p off).2.1)) := by
      rw [Nat.mod_eq_of_lt hlt]
      exact congrArg (fun r : State × Nat × Nat => send r.1 (.data req (BitVec.ofNat 32 r.2.1))) (readCode_page hp ho hx.1.1)
    rw [read, may]
    exact ⟨rfl, latched_last ..⟩
end Sys2Proof.Machine
end

section
/-! PROOFS. Writes that are refused: a value outside a field's range (R43), and PG_GEN by a class that may not bind (R50). -/
namespace Sys2Proof.Machine
open Sys2Proof

/-! ### Errors recorded at a page -/

/-- What the capture of a page records of an error (R53). -/
theorem errAt_records (s : State) (p : PageId) (code source detail addr tag : Nat) : Records s (errAt s p code source detail addr tag) p code := by
  cases valid : (cap s p).valid with
  | true => rw [Records, if_pos valid, errAt_later _ _ _ _ _ _ _ valid, cap, tget_tput_same]
  | false => rw [Records, if_neg (by rw [valid]; decide), errAt_first _ _ _ _ _ _ _ valid]; exact ⟨rfl, rfl, rfl, rfl⟩

/-- What a record says is of the captures alone. -/
theorem Records.of_caps {s t u v : State} {p : PageId} {code : Nat} (h : Records s t p code) (hs : u.caps = s.caps) (ht : v.caps = t.caps) :
    Records u v p code := by
  unfold Records cap at h ⊢
  rwa [hs, ht]

@[simp] theorem irqEdge_caps (old s : State) (p : PageId) : (irqEdge old p s).caps = s.caps := by unfold irqEdge; split <;> rfl
@[simp] theorem raiseInt_caps (s : State) (p : PageId) (b : Nat) : (raiseInt s p b).caps = s.caps := irqEdge_caps ..

/-- Raising an event writes no register but INT_RAW, and so does an error. -/
theorem rd_raiseInt_ne (s : State) (p q : PageId) (b : Nat) {o : Nat} (h : 4 ≠ o / 4 % 1024) : rd (raiseInt s p b) q o = rd s q o :=
  (raiseInt_rd ..).trans (rd_wr_offset_ne _ _ h)
theorem rd_errAt_ne (s : State) (p q : PageId) (code source detail addr tag : Nat) {o : Nat} (h : 4 ≠ o / 4 % 1024) :
    rd (errAt s p code source detail addr tag) q o = rd s q o := by
  unfold errAt
  dsimp only
  split
  · rfl
  · exact rd_raiseInt_ne _ _ _ _ h

/-! ### Pages of clusters -/

/-- Where the page is a cluster's, it is one of the 36 of a compute die. -/
def ClusBounds (o : Option PageId) : Prop := ∀ p, o = some p → p.blk = .clus → p.die < 8 ∧ p.inst < 36

namespace ClusBounds
theorem ite {c : Prop} [Decidable c] {a b : Option PageId} (ha : c → ClusBounds a) (hb : ¬c → ClusBounds b) : ClusBounds (if c then a else b) := by
  split
  · exact ha ‹_›
  · exact hb ‹_›
theorem none : ClusBounds none := by intro p h; cases h
theorem other {b : Blk} {d i : Nat} (h : b ≠ .clus) : ClusBounds (some ⟨b, d, i⟩) := by intro p e hb; cases e; exact absurd hb h
theorem clus {d i : Nat} (hd : d < 8) (hi : i < 36) : ClusBounds (some ⟨.clus, d, i⟩) := by intro p e _; cases e; exact ⟨hd, hi⟩
end ClusBounds

theorem pageOf_clusBounds (n : Nat) : ClusBounds (pageOf n) := by
  unfold pageOf
  dsimp only
  refine .ite (fun compute => .ite (fun _ => ?cores) fun _ => .ite (fun _ => .none) fun _ => .ite (fun _ => .clus compute (by omega)) fun _ => ?rest)
    fun _ => .ite (fun _ => ?hub) fun _ => ?ports
  case cores => split <;> first | exact .none | exact .other (by decide)
  case hub => split <;> first | exact .other (by decide) | exact .ite (fun _ => .other (by decide)) fun _ => .none
  all_goals
    repeat' first
      | exact .none | exact .other (by decide) | refine .ite (fun _ => ?_) fun _ => ?_

/-- A cluster's page is that of its die and number. -/
theorem clusPage_of_page {p : PageId} (hp : pageOf p.no = some p) (hb : p.blk = .clus) : clusPage (36 * p.die + p.inst) = p := by
  obtain ⟨-, hi⟩ := pageOf_clusBounds p.no p hp hb
  obtain ⟨blk, die, inst⟩ := p
  cases hb
  have die' : (36 * die + inst) / 36 = die := by dsimp only at hi; omega
  have inst' : (36 * die + inst) % 36 = inst := by dsimp only at hi; omega
  rw [clusPage, die', inst']

/-! ### A value outside its range -/

theorem fieldPlan_bad_of {cls old v : Nat} {f : FieldSpec} {p : Plan} (h : p.bad = true) : (fieldPlan cls old v f p).bad = true := by
  unfold fieldPlan
  dsimp only
  split
  · exact h
  · exact h
  · split
    · exact h
    · simp [h]

/-- A value outside the range of one of the fields is found. -/
theorem planOf_bad {cls old v : Nat} {fs : List FieldSpec} {f : FieldSpec} (hf : f ∈ fs) (acc : f.acc = .rw ∨ f.acc = .wo)
    (may : bit f.cls cls = true) (out : f.of v < f.vmin ∨ f.vmax < f.of v) : (planOf cls old v fs).bad = true := by
  have own : ∀ p, (fieldPlan cls old v f p).bad = true := fun p => by
    rcases acc with acc | acc <;> rcases out with out | out <;> simp [fieldPlan, acc, may, out]
  have keeps : ∀ (l : List FieldSpec) (p : Plan), p.bad = true → (l.foldl (fun p f => fieldPlan cls old v f p) p).bad = true := by
    intro l
    induction l with
    | nil => exact fun _ h => h
    | cons g l ih => exact fun p h => ih _ (fieldPlan_bad_of h)
  obtain ⟨l, r, rfl⟩ := List.append_of_mem hf
  rw [planOf, List.foldl_append, List.foldl_cons]
  exact keeps r _ (own _)

/-- What a write of a word with a field outside its range leaves: its register as it was, and RANGE recorded at its page. -/
structure RangeRefused (s t : State) (p : PageId) : Prop where
  rd_ne : ∀ (q : PageId) (o : Nat), 4 ≠ o / 4 % 1024 → rd t q o = rd s q o
  records : Records s t p cRANGE

theorem rangeAt_refused (s : State) (p : PageId) (off : Nat) : RangeRefused s (rangeAt s p off) p :=
  ⟨fun q _ h => rd_errAt_ne s p q _ _ _ _ _ h, errAt_records ..⟩
theorem clusRefused_refused (s : State) (k off : Nat) : RangeRefused s (clusRefused s k off) (clusPage k) :=
  ⟨fun _ _ h => (rd_raiseInt_ne _ _ _ _ h).trans (rd_errAt_ne _ _ _ _ _ _ _ _ h), (errAt_records ..).of_caps rfl (raiseInt_caps ..)⟩

/-- A single register refuses a word of which a field is outside its range. -/
theorem fieldsWrite_refused {s : State} {req : Req} {p : PageId} {r : RegSpec} {off v : Nat} (hp : pageOf p.no = some p) (one : r.half = .one)
    (hw : r.writable = true) (bad : (planOf req.cls (rd s p off) v r.fields).bad = true) (may : (planOf req.cls (rd s p off) v r.fields).denied = false) :
    RangeRefused s (fieldsWrite s req p r off v).1 p := by
  simp only [fieldsWrite, one, hw, bad, may, Bool.not_true, Bool.false_eq_true, if_false, if_true]
  split
  next clus =>
    simp only [Bool.and_eq_true, beq_iff_eq] at clus
    have := clusRefused_refused s (36 * p.die + p.inst) off
    rwa [clusPage_of_page hp clus.1] at this
  · exact rangeAt_refused s p off

/-- Settles O42: the plan of the word finds the field, and what refuses it writes no register but the INT_RAW of the page, whose fields have no
range. -/
theorem outOfRangeFieldsAreRefused : Obligations.OutOfRangeFieldsAreRefused := by
  unfold Obligations.OutOfRangeFieldsAreRefused
  intro s req p off v r f hp hr one ho hlt hf acc may out reached mayW denied
  have bad := planOf_bad (old := rd s p off) hf acc may out
  simp only [plan, hr, Nat.mod_eq_of_lt v.isLt] at denied
  have writable : r.writable = true := List.any_eq_true.2 ⟨f, hf, by rcases acc with acc | acc <;> rw [acc] <;> decide⟩
  have notRaw : off ≠ 0x10 := by
    rintro rfl
    cases Option.some.inj ((specOf_hdr (p := p) (off := 0x10) (by decide)).symm.trans hr : some sINT_RAW = some r)
    cases List.mem_singleton.1 hf
    rcases acc with acc | acc <;> cases acc
  obtain ⟨kept, records⟩ := fieldsWrite_refused hp one writable bad denied
  refine completes_onUnit rfl (pageOf_no_lt hp) ?_
  have write : wideWrite s req p.no (off % 4096) 15 [v] = (fieldsWrite s req p r off v.toNat).1 := by
    rw [Nat.mod_eq_of_lt hlt]
    exact (registerWrite_fields hp hr ho reached mayW).trans (by rw [Nat.mod_eq_of_lt v.isLt])
  rw [write]
  exact ⟨kept p off (by omega), records⟩

/-! ### PG_GEN -/

/-- Fields that every class may write and that take every value of their bits refuse no word. -/
theorem planOf_clean {cls old v : Nat} {fs : List FieldSpec}
    (h : ∀ f ∈ fs, bit f.cls cls = true ∧ f.vmin = 0 ∧ f.vmax = 2 ^ f.w - 1) :
    (planOf cls old v fs).bad = false ∧ (planOf cls old v fs).denied = false := by
  have clean : ∀ p : Plan, p.bad = false ∧ p.denied = false →
      (fs.foldl (fun p f => fieldPlan cls old v f p) p).bad = false ∧ (fs.foldl (fun p f => fieldPlan cls old v f p) p).denied = false := by
    induction fs with
    | nil => exact fun _ hp => hp
    | cons f fs ih =>
      intro p ⟨bad, denied⟩
      obtain ⟨⟨may, low, high⟩, rest⟩ := List.forall_mem_cons.1 h
      have fits : ¬ 2 ^ f.w - 1 < f.of v := by have : f.of v < 2 ^ f.w := bits_lt _ _ _; omega
      refine ih rest _ ?_
      unfold fieldPlan
      dsimp only
      split
      · exact ⟨bad, denied⟩
      · exact ⟨bad, denied⟩
      · simp [may, low, high, fits, bad, denied]
  exact clean {} ⟨rfl, rfl⟩

theorem specOf_gen (p : PageId) : specOf p 0xC = some sPG_GEN := specOf_hdr (by decide)

/-- INTERNAL and DEBUG may write PG_GEN, and no other class. -/
theorem mayWrite_gen (s : State) (req : Req) (p : PageId) : mayWrite s req p 0xC = (req.cls == 5 || req.cls == 6) := by
  rw [mayWrite, specOf_gen]
  cases req <;> simp [writers, Req.cls, bit, reqOwns, vfRing]

/-- A write of PG_GEN by INTERNAL, or by DEBUG through its open port, is granted: every field takes every value. -/
theorem granted_gen {s : State} {req : Req} {p : PageId} {v : Nat} (may : req.cls = 5 ∨ req.cls = 6) (hd : req = .debug → debugShut s = false)
    (hf : followerPage s p = none) : Granted s req p 0xC v := by
  have clean : ∀ old w, _ := fun old w => planOf_clean (cls := req.cls) (old := old) (v := w) (fs := sPG_GEN.fields) (by
    rcases may with h | h <;> rw [h] <;> decide)
  refine ⟨⟨hd, fun h => absurd h (by decide)⟩, by rw [mayWrite_gen]; simpa using may, ?_, ?_, hf⟩ <;> simp only [plan, specOf_gen]
  · exact (clean _ _).1
  · exact (clean _ _).2

/-- A field of PG_GEN after a granted write of it. -/
theorem fd_gen_write {s : State} {req : Req} {p : PageId} {v : Word} (hp : pageOf p.no = some p) (g : Granted s req p 0xC v.toNat) {lo w : Nat}
    (hf : fs lo w .rw 0 .d ∈ sPG_GEN.fields) (hw : lo + w ≤ 32) :
    bits (rd (registerWrite s req p.no 0xC v.toNat 15) p 0xC) lo w = bits v.toNat lo w := by
  have new := (plan_field (specOf_gen p) g (by decide) hf).1 rfl
  rw [registerWrite_header (r := sPG_GEN) hp (by decide) rfl rfl rfl rfl g]
  refine (congrArg (bits · lo w) (rd_wr_same ..)).trans ((bits_mod_word _ hw).trans (new.trans ?_))
  rw [FieldSpec.of, Nat.mod_eq_of_lt v.isLt]
  rfl

/-- A refusal recorded at a page, after which every page's PG_GEN is as it was. -/
structure DeniedAt (s t : State) (p : PageId) : Prop where
  gen : ∀ q, rd t q 0xC = rd s q 0xC
  records : Records s t p cDENIED

namespace DeniedAt
theorem errAt (s : State) (p : PageId) (source detail addr tag : Nat) : DeniedAt s (errAt s p cDENIED source detail addr tag) p :=
  ⟨fun _ => rd_errAt_ne _ _ _ _ _ _ _ _ (by decide), errAt_records ..⟩
theorem raiseInt {s t : State} {p : PageId} (h : DeniedAt s t p) (q : PageId) (b : Nat) : DeniedAt s (raiseInt t q b) p :=
  ⟨fun q => (rd_raiseInt_ne _ _ _ _ (by decide)).trans (h.gen q), h.records.of_caps rfl (raiseInt_caps ..)⟩
/-- A refusal that a counter beyond the header has counted. -/
theorem counted {s t : State} {p q : PageId} {o : Nat} (h : DeniedAt (bump s q o) t p) (ho : o = 0xC00 ∨ o = 0xC08 ∨ o = 0xC18 := by decide) :
    DeniedAt s t p := by
  have kept : ∀ r, rd (bump s q o) r 0xC = rd s r 0xC := fun r => rd_bump_offset_ne s q r (by rcases ho with rfl | rfl | rfl <;> decide)
  exact ⟨fun r => (h.gen r).trans (kept r), h.records.of_caps rfl rfl⟩
end DeniedAt

/-- A requester that is denied finds the refusal recorded at the page it came through (R36, R51). -/
theorem accessDenied_at (s : State) (req : Req) (no off : Nat) (write : Bool) : DeniedAt s (accessDenied s req no off write) (reqPage req) := by
  cases req with
  | host => exact ((DeniedAt.errAt ..).raiseInt ..).counted
  | vf n => exact ((DeniedAt.errAt ..).raiseInt ..).counted.counted
  | mgmt => exact (DeniedAt.errAt ..).raiseInt ..
  | fabric p => exact (DeniedAt.errAt ..).counted
  | core _ | debug | hub | die _ | twin => exact .errAt ..

/-- Settles O44: PG_GEN is let through by the class alone; a write that is let through sets each of its fields, and one that is not reaches no
register but the counters and interrupts of refusals. -/
theorem onlyInsideAndDebugBindPages : Obligations.OnlyInsideAndDebugBindPages := by
  unfold Obligations.OnlyInsideAndDebugBindPages
  refine ⟨?binds, ?denied⟩
  case binds =>
    intro s req p v hp may hd hf
    have g : Granted s req p 0xC v.toNat := granted_gen may hd hf
    refine completes_onUnit rfl (pageOf_no_lt hp) ⟨?_, ?_, ?_⟩
    · exact (fd_gen_write hp g (lo := 0) (by decide) (by decide)).trans (congrArg (· % 64) (Nat.div_one _))
    · exact fd_gen_write hp g (lo := 6) (by decide) (by decide)
    · exact fd_gen_write hp g (lo := 16) (by decide) (by decide)
  case denied =>
    intro s req p v hp ⟨notDebug, notInside⟩
    have no : mayWrite s req p 0xC = false := by rw [mayWrite_gen]; simp [notDebug, notInside]
    refine completes_onUnit rfl (pageOf_no_lt hp) ?_
    have denied : (writeCode s req p.no 0xC v.toNat 15).1 = accessDenied s req p.no 0xC true := by
      rw [writeCode_page (off := 0xC) hp (by decide) fun h => absurd (congrArg Req.cls h) notDebug, pageWrite, no]
      rfl
    obtain ⟨kept, records⟩ := accessDenied_at s req p.no 0xC true
    rw [← denied] at kept records
    exact ⟨fun q _ => kept q, records⟩

end Sys2Proof.Machine
end

section
/-! PROOFS. What a write of a register, an access through the debug port and a FABRIC_CFG operation can reach keeps the state of the supplies
and, but for closures, the field map. One lemma per operation, callees before callers; a lemma takes what holds up to the operation and gives
what holds after it. -/
namespace Sys2Proof.Machine
open Sys2Proof

/-- From `s` to `t` the state of the supplies is as it was and, where `m` asks it, the field map of closures. -/
structure Supplied (m : Prop) (s t : State) : Prop where
  power : t.power = s.power
  fieldMap : m → t.fieldMap = s.fieldMap

section
variable {m : Prop}
theorem Supplied.refl (s : State) : Supplied m s s := ⟨rfl, fun _ => rfl⟩
theorem Supplied.trans {s t u : State} (h : Supplied m s t) (k : Supplied m t u) : Supplied m s u :=
  ⟨k.power.trans h.power, fun a => (k.fieldMap a).trans (h.fieldMap a)⟩
theorem Supplied.folds {α : Type} {f : State → α → State} {s t : State} {l : List α} (h : Supplied m s t) (hf : ∀ s x, Supplied m s (f s x)) :
    Supplied m s (l.foldl f t) := by
  induction l generalizing t with
  | nil => exact h
  | cons a l ih => exact ih (h.trans (hf t a))
theorem Supplied.elim {α : Type} {s t : State} {o : Option α} {f : α → State} (h : Supplied m s t) (hf : ∀ a, Supplied m s (f a)) :
    Supplied m s (o.elim t f) := by
  cases o with
  | none => exact h
  | some a => exact hf a
theorem Supplied.ite {s a b : State} {c : Prop} [Decidable c] (ha : Supplied m s a) (hb : Supplied m s b) : Supplied m s (if c then a else b) := by
  split <;> assumption
theorem Supplied.fst {α : Type} {s t : State} {r : α} {p : State × α} (e : p = (t, r)) (h : Supplied m s p.1) : Supplied m s t := by subst e; exact h
theorem Supplied.foldsFst {α β : Type} {f : State × β → α → State × β} {s : State} {p : State × β} {l : List α} (h : Supplied m s p.1)
    (hf : ∀ p x, Supplied m p.1 (f p x).1) : Supplied m s (l.foldl f p).1 := by
  induction l generalizing p with
  | nil => exact h
  | cons a l ih => exact ih (h.trans (hf p a))
/-- Fields other than those of the supplies and of closures. -/
theorem Supplied.withFlip {s x : State} (h : Supplied m s x) (v : Option Cast) : Supplied m s { x with flip := v } := ⟨h.power, h.fieldMap⟩
theorem Supplied.withLatch {s x : State} (h : Supplied m s x) (v : List Latch) : Supplied m s { x with latch := v } := ⟨h.power, h.fieldMap⟩
/-- A closure, marked in the field map. -/
theorem Supplied.closed {s x : State} (h : Supplied False s x) (fm : Tbl Word) : Supplied False s { x with fieldMap := fm } := ⟨h.power, False.elim⟩

theorem wr_supplied {s} {a0} {a1} {a2} {a3} (h : Supplied m s a0) : Supplied m s (wr a0 a1 a2 a3) := h.trans ⟨rfl, fun _ => rfl⟩
theorem fdSet_supplied {s} {a0} {a1} {a2} {a3} (h : Supplied m s a0) : Supplied m s (fdSet a0 a1 a2 a3) := h.trans ⟨rfl, fun _ => rfl⟩
theorem setSeqSt_supplied {s} {a0} {a1} {a2} {a3} (h : Supplied m s a0) : Supplied m s (setSeqSt a0 a1 a2 a3) := by
  unfold setSeqSt
  repeat' with_reducible first
    | exact h | apply fdSet_supplied | apply Supplied.ite
theorem send_supplied {s} {a0} {a1} (h : Supplied m s a0) : Supplied m s (send a0 a1) := h.trans ⟨rfl, fun _ => rfl⟩
theorem irqEdge_supplied {s} {a0 : State} {a1} {a2 : State} (h : Supplied m s a2) : Supplied m s (irqEdge a0 a1 a2) := by
  unfold irqEdge
  exact Supplied.ite (send_supplied h) h
theorem raiseInt_supplied {s} {a0} {a1} {a2} (h : Supplied m s a0) : Supplied m s (raiseInt a0 a1 a2) := by
  unfold raiseInt
  repeat' with_reducible first
    | exact h | apply irqEdge_supplied | apply wr_supplied
theorem errAt_supplied {s} {a0} {a1} {a2} {a3} {a4} {a5} {a6} (h : Supplied m s a0) : Supplied m s (errAt a0 a1 a2 a3 a4 a5 a6) := by
  unfold errAt
  repeat' with_reducible first
    | apply raiseInt_supplied | apply Supplied.ite | exact h.trans ⟨rfl, fun _ => rfl⟩
theorem coreErr_supplied {s} {a0} {a1} {a2} {a3} {a4} {a5} {a6} (h : Supplied m s a0) : Supplied m s (coreErr a0 a1 a2 a3 a4 a5 a6) := by
  unfold coreErr
  repeat' first
    | with_reducible first
        | exact h | apply errAt_supplied | apply raiseInt_supplied
    | split
theorem setCore_supplied {s} {a0} {a1} {a2} (h : Supplied m s a0) : Supplied m s (setCore a0 a1 a2) := h.trans ⟨rfl, fun _ => rfl⟩
theorem setSeq_supplied {s} {a0} {a1} {a2} (h : Supplied m s a0) : Supplied m s (setSeq a0 a1 a2) := h.trans ⟨rfl, fun _ => rfl⟩
theorem setPc_supplied {s} {a0} {a1} {a2} (h : Supplied m s a0) : Supplied m s (setPc a0 a1 a2) := h.trans ⟨rfl, fun _ => rfl⟩
theorem seqTrap_supplied {s} {a0} {a1} {a2} {a3} (h : Supplied m s a0) : Supplied m s (seqTrap a0 a1 a2 a3) := by
  unfold seqTrap
  repeat' with_reducible first
    | exact h | apply setSeqSt_supplied | apply fdSet_supplied | apply coreErr_supplied | apply setSeq_supplied | apply setPc_supplied
    | apply Supplied.ite
theorem noArea_supplied {s} {a0} {a1} {a2} (h : Supplied m s a0) : Supplied m s (noArea a0 a1 a2) := by
  unfold noArea
  repeat' with_reducible first
    | exact h | apply coreErr_supplied
theorem wr64_supplied {s} {a0} {a1} {a2} {a3} (h : Supplied m s a0) : Supplied m s (wr64 a0 a1 a2 a3) := h.trans ⟨rfl, fun _ => rfl⟩
theorem bumpBy_supplied {s} {a0} {a1} {a2} {a3} (h : Supplied m s a0) : Supplied m s (bumpBy a0 a1 a2 a3) := by
  unfold bumpBy
  repeat' with_reducible first
    | exact h | apply wr64_supplied | apply Supplied.ite
theorem bump_supplied {s} {a0} {a1} {a2} (h : Supplied m s a0) : Supplied m s (bump a0 a1 a2) := h.trans ⟨rfl, fun _ => rfl⟩
theorem retire_supplied {s} {a0} {a1} {a2} (h : Supplied m s a0) : Supplied m s (retire a0 a1 a2) := h.trans ⟨rfl, fun _ => rfl⟩
theorem xset_supplied {s} {a0} {a1} {a2} {a3} (h : Supplied m s a0) : Supplied m s (xset a0 a1 a2 a3) := by
  unfold xset
  repeat' with_reducible first
    | exact h | apply setSeq_supplied | apply Supplied.ite
theorem bankRefuse_supplied {s} {a0} {a1} {a2} {a3} {a4} {a5} (h : Supplied m s a0) : Supplied m s (bankRefuse a0 a1 a2 a3 a4 a5) := by
  unfold bankRefuse
  repeat' with_reducible first
    | exact h | apply raiseInt_supplied | apply errAt_supplied
theorem setBank_supplied {s} {a0} {a1} {a2} {a3} (h : Supplied m s a0) : Supplied m s (setBank a0 a1 a2 a3) := h.trans ⟨rfl, fun _ => rfl⟩
theorem bankAsk_supplied {s} {a0} {a1} {a2} {a3} (h : Supplied m s a0) : Supplied m s (bankAsk a0 a1 a2 a3).1 := by
  unfold bankAsk
  repeat' first
    | with_reducible first
        | exact h | apply bankRefuse_supplied | apply bump_supplied | apply setBank_supplied
    | split
    | (dsimp only; split)
theorem noteFlips_supplied {s} {a0} {a1} {a2} {a3} (h : Supplied m s a0) : Supplied m s (noteFlips a0 a1 a2 a3) := by
  unfold noteFlips
  repeat' with_reducible first
    | exact h | apply setCore_supplied | apply Supplied.ite
theorem spadCorrected_supplied {s} {a0} {a1} {a2} {a3} (h : Supplied m s a0) : Supplied m s (spadCorrected a0 a1 a2 a3) := h.trans ⟨rfl, fun _ => rfl⟩
theorem capCount_supplied {s} {a0} {a1} (h : Supplied m s a0) : Supplied m s (capCount a0 a1) := by
  unfold capCount
  repeat' with_reducible first
    | exact h | apply Supplied.ite | exact h.trans ⟨rfl, fun _ => rfl⟩
theorem report_supplied {s} {a0} {a1} (h : Supplied m s a0) : Supplied m s (report a0 a1) := by
  unfold report
  repeat' first
    | with_reducible first
        | apply capCount_supplied | apply Supplied.ite | exact h.trans ⟨rfl, fun _ => rfl⟩
    | split
theorem reportCore_supplied {s} {a0} {a1} {a2} {a3} {a4} {a5} (h : Supplied m s a0) : Supplied m s (reportCore a0 a1 a2 a3 a4 a5) := by
  unfold reportCore
  repeat' with_reducible first
    | exact h | apply report_supplied
theorem applyWord_supplied {s} {a0} {a1} {a2} {a3} {a4} (h : Supplied m s a0) : Supplied m s (applyWord a0 a1 a2 a3 a4) := h.trans ⟨rfl, fun _ => rfl⟩
theorem spadUncorrectable_supplied {s} {a0} {a1} {a2} {a3} {a4} (h : Supplied m s a0) : Supplied m s (spadUncorrectable a0 a1 a2 a3 a4) := by
  unfold spadUncorrectable
  repeat' with_reducible first
    | exact h | apply bump_supplied | apply fdSet_supplied | apply reportCore_supplied | apply raiseInt_supplied | apply errAt_supplied
    | apply applyWord_supplied
    | apply Supplied.ite
theorem spadFetch_supplied {s} {a0} {a1} {a2} {a3} {a4} (h : Supplied m s a0) : Supplied m s (spadFetch a0 a1 a2 a3 a4).1 := by
  unfold spadFetch
  repeat' first
    | with_reducible first
        | exact h | apply noteFlips_supplied | apply bump_supplied | apply spadCorrected_supplied | apply setCore_supplied
        | apply spadUncorrectable_supplied
    | split
    | (dsimp only; split)
theorem spadRead_supplied {s} {a0} {a1} {a2} {a3} {a4} (h : Supplied m s a0) : Supplied m s (spadRead a0 a1 a2 a3 a4).1 := by
  unfold spadRead
  repeat' first
    | with_reducible first
        | exact h | apply bankAsk_supplied | apply spadFetch_supplied | refine Supplied.fst (by assumption) ?_
    | split
theorem setMx_supplied {s} {a0} {a1} {a2} (h : Supplied m s a0) : Supplied m s (setMx a0 a1 a2) := h.trans ⟨rfl, fun _ => rfl⟩
theorem qErr_supplied {s} {a0} {a1} {a2} {a3} {a4} {a5} {a6} (h : Supplied m s a0) : Supplied m s (qErr a0 a1 a2 a3 a4 a5 a6) := by
  unfold qErr
  repeat' with_reducible first
    | exact h | apply raiseInt_supplied | apply errAt_supplied
theorem qxPopRefused_supplied {s} {a0} {a1} {a2} (h : Supplied m s a0) : Supplied m s (qxPopRefused a0 a1 a2) := by
  unfold qxPopRefused
  repeat' with_reducible first
    | exact h | apply qErr_supplied
theorem setQe_supplied {s} {a0} {a1} {a2} (h : Supplied m s a0) : Supplied m s (setQe a0 a1 a2) := h.trans ⟨rfl, fun _ => rfl⟩
theorem setSlot_supplied {s} {a0} {a1} {a2} {a3} (h : Supplied m s a0) : Supplied m s (setSlot a0 a1 a2 a3) := h.trans ⟨rfl, fun _ => rfl⟩
theorem ringRelease_supplied {s} {a0} {a1} {a2} (h : Supplied m s a0) : Supplied m s (ringRelease a0 a1 a2) := h.trans ⟨rfl, fun _ => rfl⟩
theorem jFree_supplied {s} {a0} {a1} {a2} (h : Supplied m s a0) : Supplied m s (jFree a0 a1 a2) := h.trans ⟨rfl, fun _ => rfl⟩
theorem jRelease_supplied {s} {a0} {a1} {a2} (h : Supplied m s a0) : Supplied m s (jRelease a0 a1 a2) := by
  unfold jRelease
  repeat' with_reducible first
    | exact h | apply jFree_supplied | apply Supplied.ite
theorem popSlot_supplied {s} {a0} {a1} {a2} (h : Supplied m s a0) : Supplied m s (popSlot a0 a1 a2).1 := by
  unfold popSlot
  repeat' first
    | with_reducible first
        | exact h | apply setSlot_supplied | apply ringRelease_supplied | apply jRelease_supplied
    | split
    | (dsimp only; split)
theorem setLink_supplied {s} {a0} {a1} {a2} {a3} (h : Supplied m s a0) : Supplied m s (setLink a0 a1 a2 a3) := h.trans ⟨rfl, fun _ => rfl⟩
theorem popTok_supplied {s} {a0} {a1} {a2} (h : Supplied m s a0) : Supplied m s (popTok a0 a1 a2) := by
  unfold popTok
  repeat' first
    | with_reducible first
        | exact h | apply setLink_supplied | apply Supplied.ite
    | split
theorem winLoad_supplied {s} {a0} {a1} {a2} (h : Supplied m s a0) : Supplied m s (winLoad a0 a1 a2).1 := by
  unfold winLoad
  repeat' first
    | with_reducible first
        | exact h | apply setMx_supplied | apply qxPopRefused_supplied | apply popSlot_supplied | apply setSeq_supplied | apply popTok_supplied
        | refine Supplied.fst (by assumption) ?_
    | split
    | (dsimp only; split)
theorem seqLoad_supplied {s} {a0} {a1} {a2} {a3} {a4} (h : Supplied m s a0) : Supplied m s (seqLoad a0 a1 a2 a3 a4).1 := by
  unfold seqLoad
  repeat' first
    | with_reducible first
        | exact h | apply spadRead_supplied | apply setMx_supplied | apply winLoad_supplied | apply noArea_supplied
        | refine Supplied.fst (by assumption) ?_
    | split
    | (dsimp only; split)
theorem spadMerge_supplied {s} {a0} {a1} {a2} {a3} {a4} {a5} {a6} {a7} (h : Supplied m s a0) : Supplied m s (spadMerge a0 a1 a2 a3 a4 a5 a6 a7).1 := by
  unfold spadMerge
  repeat' first
    | with_reducible first
        | exact h | apply bump_supplied | apply noteFlips_supplied | apply spadUncorrectable_supplied | apply spadCorrected_supplied
        | apply Supplied.ite
    | split
theorem spadApply_supplied {s} {a0} {a1} {a2} {a3} {a4} {a5} {a6} {a7} (h : Supplied m s a0) : Supplied m s (spadApply a0 a1 a2 a3 a4 a5 a6 a7) := by
  unfold spadApply
  repeat' with_reducible first
    | exact h | apply spadMerge_supplied | apply applyWord_supplied
theorem spadWrite_supplied {s} {a0} {a1} {a2} {a3} {a4} {a5} {a6} {a7} (h : Supplied m s a0) : Supplied m s (spadWrite a0 a1 a2 a3 a4 a5 a6 a7).1 := by
  unfold spadWrite
  repeat' first
    | with_reducible first
        | exact h | apply bankAsk_supplied | apply spadApply_supplied | refine Supplied.fst (by assumption) ?_
    | split
theorem emitTok_supplied {s} {a0} {a1} {a2} {a3} (h : Supplied m s a0) : Supplied m s (emitTok a0 a1 a2 a3) := by
  unfold emitTok
  repeat' with_reducible first
    | exact h | exact Supplied.refl _ | apply setLink_supplied | (intro _) | apply Supplied.folds
theorem takeCredits_supplied {s} {a0} {a1} {a2} {a3} (h : Supplied m s a0) : Supplied m s (takeCredits a0 a1 a2 a3) := by
  unfold takeCredits
  repeat' with_reducible first
    | exact h | exact Supplied.refl _ | apply setLink_supplied | (intro _) | apply Supplied.folds
theorem stallCount_supplied {s} {a0} {a1} {a2} (h : Supplied m s a0) : Supplied m s (stallCount a0 a1 a2) := by
  unfold stallCount
  repeat' first
    | with_reducible first
        | exact h | apply bump_supplied | apply Supplied.ite
    | split
theorem winStore_supplied {s} {a0} {a1} {a2} {a3} (h : Supplied m s a0) : Supplied m s (winStore a0 a1 a2 a3).1 := by
  unfold winStore
  repeat' first
    | with_reducible first
        | exact h | apply setMx_supplied | apply emitTok_supplied | apply takeCredits_supplied | apply stallCount_supplied | apply raiseInt_supplied
        | apply fdSet_supplied | apply setSeq_supplied
    | split
    | (dsimp only; split)
theorem seqStore_supplied {s} {a0} {a1} {a2} {a3} {a4} {a5} (h : Supplied m s a0) : Supplied m s (seqStore a0 a1 a2 a3 a4 a5).1 := by
  unfold seqStore
  repeat' first
    | with_reducible first
        | exact h | apply setSeq_supplied | apply spadWrite_supplied | apply winStore_supplied | apply noArea_supplied
        | refine Supplied.fst (by assumption) ?_
    | split
    | (dsimp only; split)
theorem seqEcall_supplied {s} {a0} {a1} {a2} (h : Supplied m s a0) : Supplied m s (seqEcall a0 a1 a2) := by
  unfold seqEcall
  repeat' with_reducible first
    | exact h | apply raiseInt_supplied | apply setSeqSt_supplied | apply setPc_supplied
theorem freeUsed_supplied {s} {a0} (h : Supplied m s a0) : Supplied m s (freeUsed a0) := h.trans ⟨rfl, fun _ => rfl⟩
theorem cycleOn_supplied {s} {a0} {a1} (h : Supplied m s a0) : Supplied m s (cycleOn a0 a1) := h.trans ⟨rfl, fun _ => rfl⟩
theorem csrRead_supplied {s a0 : State} {c n : Nat} {t : State} {v : Word} (h : Supplied m s a0) (e : csrRead a0 c n = some (t, v)) : Supplied m s t := by
  have : t = a0 ∨ t = cycleOn a0 c := by
    unfold csrRead at e
    split at e <;> first | (cases e; exact .inr rfl) | (cases e; exact .inl rfl) | cases e
  rcases this with rfl | rfl
  · exact h
  · exact cycleOn_supplied h
theorem csrWrite_supplied {s a0 : State} {c n : Nat} {v : Word} {t : State} (h : Supplied m s a0) (e : csrWrite a0 c n v = some t) : Supplied m s t := by
  unfold csrWrite at e
  split at e <;> first | (cases e; exact setSeq_supplied h) | cases e
theorem seqCsr_supplied {s} {a0} {a1} {a2} {a3} (h : Supplied m s a0) : Supplied m s (seqCsr a0 a1 a2 a3) := by
  unfold seqCsr
  dsimp only
  split
  · exact seqTrap_supplied h
  · have h' := csrRead_supplied h (by assumption)
    split
    · split
      · exact seqTrap_supplied h
      · exact retire_supplied (xset_supplied (csrWrite_supplied h' (by assumption)))
    · exact retire_supplied (xset_supplied h')
theorem seqFinish_supplied {s} {a0} {a1} {a2} {a3} {a4} (h : Supplied m s a0) : Supplied m s (seqFinish a0 a1 a2 a3 a4) := by
  unfold seqFinish
  repeat' with_reducible first
    | exact h | apply xset_supplied | apply setSeq_supplied | apply retire_supplied | apply setSeqSt_supplied
theorem napEnd_supplied {s} {a0} {a1} {a2} (h : Supplied m s a0) : Supplied m s (napEnd a0 a1 a2) := by
  unfold napEnd
  repeat' with_reducible first
    | exact h | apply bump_supplied | apply setSeq_supplied | apply seqFinish_supplied | apply Supplied.ite
theorem seqWait_supplied {s} {a0} {a1} {a2} {a3} {a4} (h : Supplied m s a0) : Supplied m s (seqWait a0 a1 a2 a3 a4) := by
  unfold seqWait
  repeat' with_reducible first
    | exact h | apply setSeqSt_supplied | apply setSeq_supplied
theorem seqNap_supplied {s} {a0} {a1} {a2} {a3} (h : Supplied m s a0) : Supplied m s (seqNap a0 a1 a2 a3) := by
  unfold seqNap
  repeat' with_reducible first
    | exact h | apply napEnd_supplied | apply seqWait_supplied | apply Supplied.ite
theorem seqDone_supplied {s} {a0} {a1} {a2} {a3} {a4} (h : Supplied m s a0) : Supplied m s (seqDone a0 a1 a2 a3 a4) := by
  unfold seqDone
  repeat' with_reducible first
    | exact h | apply seqFinish_supplied
theorem qpopGive_supplied {s} {a0} {a1} {a2} {a3} {a4} (h : Supplied m s a0) : Supplied m s (qpopGive a0 a1 a2 a3 a4) := by
  unfold qpopGive
  repeat' with_reducible first
    | exact h | apply setSeq_supplied | apply seqFinish_supplied
theorem seqQpop_supplied {s} {a0} {a1} {a2} {a3} (h : Supplied m s a0) : Supplied m s (seqQpop a0 a1 a2 a3) := by
  unfold seqQpop
  repeat' first
    | with_reducible first
        | exact h | apply seqDone_supplied | apply qxPopRefused_supplied | apply popSlot_supplied | apply qpopGive_supplied | apply seqWait_supplied
        | apply Supplied.ite | refine Supplied.fst (by assumption) ?_
    | split
theorem qselGive_supplied {s} {a0} {a1} {a2} {a3} {a4} (h : Supplied m s a0) : Supplied m s (qselGive a0 a1 a2 a3 a4) := by
  unfold qselGive
  repeat' with_reducible first
    | exact h | apply setSeq_supplied | apply seqFinish_supplied
theorem seqQsel_supplied {s} {a0} {a1} {a2} {a3} {a4} (h : Supplied m s a0) : Supplied m s (seqQsel a0 a1 a2 a3 a4) := by
  unfold seqQsel
  repeat' first
    | with_reducible first
        | exact h | apply qselGive_supplied | apply seqDone_supplied | apply seqWait_supplied
    | split
    | (dsimp only; split)
theorem rangeAsk_supplied {s} {a0} {a1} {a2} (h : Supplied m s a0) : Supplied m s (rangeAsk a0 a1 a2).1 := by
  unfold rangeAsk
  repeat' first
    | with_reducible first
        | exact h | apply raiseInt_supplied | apply errAt_supplied | apply setCore_supplied
    | split
    | (dsimp only; split)
theorem enterMsg_supplied {s} {a0} {a1} {a2} {a3} {a4} {a5} {a6} (h : Supplied m s a0) : Supplied m s (enterMsg a0 a1 a2 a3 a4 a5 a6).1 := by
  unfold enterMsg
  repeat' first
    | with_reducible first
        | exact h | apply setQe_supplied | apply rangeAsk_supplied | refine Supplied.fst (by assumption) ?_
    | split
    | (dsimp only; split)
theorem issue_supplied {s} {a0} {a1} (h : Supplied m s a0) : Supplied m s (issue a0 a1).1 := h.trans ⟨rfl, fun _ => rfl⟩
theorem seqQsend_supplied {s} {a0} {a1} {a2} {a3} {a4} (h : Supplied m s a0) : Supplied m s (seqQsend a0 a1 a2 a3 a4) := by
  unfold seqQsend
  repeat' with_reducible first
    | exact h | apply seqDone_supplied | apply enterMsg_supplied | apply issue_supplied | apply Supplied.ite
theorem setChan_supplied {s} {a0} {a1} {a2} {a3} (h : Supplied m s a0) : Supplied m s (setChan a0 a1 a2 a3) := h.trans ⟨rfl, fun _ => rfl⟩
theorem inject_supplied {s} {a0} {a1} {a2} (h : Supplied m s a0) : Supplied m s (inject a0 a1 a2) := h.trans ⟨rfl, fun _ => rfl⟩
theorem seqChopen_supplied {s} {a0} {a1} {a2} {a3} {a4} (h : Supplied m s a0) : Supplied m s (seqChopen a0 a1 a2 a3 a4) := by
  unfold seqChopen
  generalize lowest1024 _ = o
  cases o with
  | none => exact seqDone_supplied h
  | some i => exact inject_supplied (seqWait_supplied (setChan_supplied h))
theorem noticeOut_supplied {s} {a0} {a1} {a2} {a3} (h : Supplied m s a0) : Supplied m s (noticeOut a0 a1 a2 a3) := by
  unfold noticeOut
  repeat' with_reducible first
    | exact h | apply send_supplied | apply Supplied.ite
theorem closeSettle_supplied {s} {a0} {a1} {a2} (h : Supplied m s a0) : Supplied m s (closeSettle a0 a1 a2) := by
  unfold closeSettle
  repeat' with_reducible first
    | exact h | apply setChan_supplied | apply noticeOut_supplied | apply Supplied.ite
theorem chClose_supplied {s} {a0} {a1} {a2} (h : Supplied m s a0) : Supplied m s (chClose a0 a1 a2).1 := by
  unfold chClose
  repeat' first
    | with_reducible first
        | exact h | apply closeSettle_supplied | apply setChan_supplied
    | (dsimp only; split)
theorem rangeGrant_supplied {s} {a0} {a1} {a2} (h : Supplied m s a0) : Supplied m s (rangeGrant a0 a1 a2) := by
  unfold rangeGrant
  repeat' first
    | with_reducible first
        | exact h | apply setCore_supplied | apply Supplied.ite
    | (dsimp only; split)
theorem rangeTake_supplied {s} {a0} {a1} {a2} (h : Supplied m s a0) : Supplied m s (rangeTake a0 a1 a2).1 := by
  unfold rangeTake
  repeat' first
    | with_reducible first
        | exact h | apply rangeGrant_supplied | apply rangeAsk_supplied | refine Supplied.fst (by assumption) ?_
    | split
    | (dsimp only; split)
theorem spadReadAll_supplied {s} {a0} {a1} {a2} {a3} {a4} (h : Supplied m s a0) : Supplied m s (spadReadAll a0 a1 a2 a3 a4).1 := by
  fun_induction spadReadAll
  repeat' with_reducible first
    | exact h | apply spadRead_supplied | refine Supplied.fst (by assumption) ?_ | apply_assumption
theorem spadReadEcc_supplied {s} {a0} {a1} {a2} {a3} {a4} {a5} (h : Supplied m s a0) : Supplied m s (spadReadEcc a0 a1 a2 a3 a4 a5).1 := by
  unfold spadReadEcc
  repeat' first
    | with_reducible first
        | exact h | apply spadRead_supplied | apply spadReadAll_supplied | refine Supplied.fst (by assumption) ?_
    | split
theorem dmaErr_supplied {s} {a0} {a1} {a2} {a3} {a4} {a5} (h : Supplied m s a0) : Supplied m s (dmaErr a0 a1 a2 a3 a4 a5) := by
  unfold dmaErr
  repeat' with_reducible first
    | exact h | apply raiseInt_supplied | apply errAt_supplied
theorem rangeRelease_supplied {s} {a0} {a1} {a2} {a3} (h : Supplied m s a0) : Supplied m s (rangeRelease a0 a1 a2 a3) := h.trans ⟨rfl, fun _ => rfl⟩
theorem dmaGo_supplied {s} {a0} {a1} {a2} {a3} {a4} (h : Supplied m s a0) : Supplied m s (dmaGo a0 a1 a2 a3 a4) := by
  unfold dmaGo
  repeat' first
    | with_reducible first
        | exact h | apply seqDone_supplied | apply coreErr_supplied | apply rangeTake_supplied | apply spadReadEcc_supplied | apply dmaErr_supplied
        | apply rangeRelease_supplied | apply issue_supplied | apply setCore_supplied | apply Supplied.ite | refine Supplied.fst (by assumption) ?_
    | split
theorem setFab_supplied {s} {a0} {a1} {a2} (h : Supplied m s a0) : Supplied m s (setFab a0 a1 a2) := h.trans ⟨rfl, fun _ => rfl⟩
theorem startCheck_supplied {s} {a0} {a1} {a2} (h : Supplied m s a0) : Supplied m s (startCheck a0 a1 a2) := by
  unfold startCheck
  repeat' with_reducible first
    | exact h | apply fdSet_supplied | apply setFab_supplied | apply Supplied.ite
theorem setOutcome_supplied {s} {a0} {a1} {a2} {a3} (h : Supplied m s a0) : Supplied m s (setOutcome a0 a1 a2 a3) := h.trans ⟨rfl, fun _ => rfl⟩
theorem qyPurge_supplied {s} {a0} {a1} {a2} (h : Supplied m s a0) : Supplied m s (qyPurge a0 a1 a2) := by
  unfold qyPurge
  repeat' with_reducible first
    | exact h | apply setQe_supplied | apply setOutcome_supplied | apply qErr_supplied | apply Supplied.ite
theorem cfgswDone_supplied {s} {a0} {a1} {a2} (h : Supplied m s a0) : Supplied m s (cfgswDone a0 a1 a2) := by
  unfold cfgswDone
  repeat' first
    | with_reducible first
        | exact h | apply setFab_supplied | apply fdSet_supplied | apply seqFinish_supplied
    | (dsimp only; split)
theorem setCu_supplied {s} {a0} {a1} {a2} {a3} (h : Supplied m s a0) : Supplied m s (setCu a0 a1 a2 a3) := h.trans ⟨rfl, fun _ => rfl⟩
theorem updConsts_supplied {s} {a0} {a1} {a2} (h : Supplied m s a0) : Supplied m s (updConsts a0 a1 a2).1 := by
  unfold updConsts
  repeat' first
    | with_reducible first
        | exact h | apply setCu_supplied | apply coreErr_supplied | apply rangeTake_supplied | apply spadReadAll_supplied
        | apply rangeRelease_supplied
        | apply Supplied.ite | refine Supplied.fst (by assumption) ?_
    | split
    | (dsimp only; split)
theorem startLinks_supplied {s} {a0} {a1} (h : Supplied m s a0) : Supplied m s (startLinks a0 a1) := h.trans ⟨rfl, fun _ => rfl⟩
theorem startFlow_supplied {s} {a0} {a1} (h : Supplied m s a0) : Supplied m s (startFlow a0 a1) := by
  unfold startFlow
  repeat' with_reducible first
    | exact h | exact Supplied.refl _ | apply updConsts_supplied | apply startLinks_supplied | (intro _) | apply Supplied.ite | apply Supplied.folds
theorem cfgswFinish_supplied {s} {a0} {a1} (h : Supplied m s a0) : Supplied m s (cfgswFinish a0 a1) := by
  unfold cfgswFinish
  repeat' first
    | with_reducible first
        | exact h | apply fdSet_supplied | apply setFab_supplied | apply cfgswDone_supplied | apply bump_supplied | apply startFlow_supplied
        | apply Supplied.ite
    | split
theorem setArr_supplied {s} {a0} {a1} {a2} (h : Supplied m s a0) : Supplied m s (setArr a0 a1 a2) := h.trans ⟨rfl, fun _ => rfl⟩
theorem arrSwitch_supplied {s} {a0} {a1} {a2} {a3} {a4} (h : Supplied m s a0) : Supplied m s (arrSwitch a0 a1 a2 a3 a4) := by
  unfold arrSwitch
  repeat' with_reducible first
    | exact h | apply bump_supplied | apply setArr_supplied | apply Supplied.ite
theorem startUnits_supplied {s} {a0} {a1} (h : Supplied m s a0) : Supplied m s (startUnits a0 a1) := by
  unfold startUnits
  repeat' with_reducible first
    | exact h | exact Supplied.refl _ | apply setCore_supplied | apply rangeTake_supplied | (intro _) | apply Supplied.ite | apply Supplied.folds
theorem activate_supplied {s} {a0} {a1} {a2} (h : Supplied m s a0) : Supplied m s (activate a0 a1 a2) := by
  unfold activate
  repeat' with_reducible first
    | exact h | exact Supplied.refl _ | apply arrSwitch_supplied | apply rangeRelease_supplied | apply fdSet_supplied | apply startUnits_supplied
    | apply setFab_supplied | (intro _) | apply Supplied.ite | apply Supplied.folds
theorem purge_supplied {s} {a0} {a1} (h : Supplied m s a0) : Supplied m s (purge a0 a1) := by
  unfold purge
  repeat' with_reducible first
    | exact h | exact Supplied.refl _ | apply bumpBy_supplied | apply qyPurge_supplied | apply cfgswFinish_supplied | apply activate_supplied
    | (intro _)
    | apply Supplied.folds
theorem cfgswAdvance_supplied {s} {a0} {a1} (h : Supplied m s a0) : Supplied m s (cfgswAdvance a0 a1) := by
  unfold cfgswAdvance
  repeat' first
    | with_reducible first
        | exact h | apply fdSet_supplied | apply startCheck_supplied | apply purge_supplied | apply Supplied.ite
    | split
theorem cfgswIssue_supplied {s} {a0} {a1} {a2} {a3} (h : Supplied m s a0) : Supplied m s (cfgswIssue a0 a1 a2 a3) := by
  unfold cfgswIssue
  repeat' with_reducible first
    | exact h | apply setSeq_supplied | apply setSeqSt_supplied | apply fdSet_supplied | apply setFab_supplied | apply cfgswAdvance_supplied
theorem seqMile_supplied {s} {a0} {a1} {a2} {a3} (h : Supplied m s a0) : Supplied m s (seqMile a0 a1 a2 a3) := by
  unfold seqMile
  repeat' with_reducible first
    | exact h | apply seqDone_supplied | apply coreErr_supplied | apply seqWait_supplied | apply Supplied.ite
theorem seqCustom_supplied {s} {a0} {a1} {a2} {a3} (h : Supplied m s a0) : Supplied m s (seqCustom a0 a1 a2 a3) := by
  unfold seqCustom
  repeat' first
    | with_reducible first
        | exact h | apply seqTrap_supplied | apply seqNap_supplied | apply seqQpop_supplied | apply seqQsel_supplied | apply seqQsend_supplied
        | apply seqChopen_supplied | apply chClose_supplied | apply seqDone_supplied | apply dmaGo_supplied | apply cfgswIssue_supplied
        | apply seqMile_supplied
        | apply Supplied.ite
    | split
theorem seqBase_supplied {s} {a0} {a1} {a2} {a3} {a4} (h : Supplied m s a0) : Supplied m s (seqBase a0 a1 a2 a3 a4) := by
  unfold seqBase
  repeat' first
    | with_reducible first
        | exact h | apply retire_supplied | apply xset_supplied | apply seqTrap_supplied | apply seqLoad_supplied | apply seqStore_supplied
        | apply seqEcall_supplied | apply seqCsr_supplied | apply seqCustom_supplied | apply Supplied.ite | refine Supplied.fst (by assumption) ?_
    | split
    | (dsimp only; split)
theorem seqIssue_supplied {s} {a0} {a1} {a2} {a3} (h : Supplied m s a0) : Supplied m s (seqIssue a0 a1 a2 a3) := by
  unfold seqIssue
  repeat' first
    | with_reducible first
        | exact h | apply setSeqSt_supplied | apply seqTrap_supplied | apply noArea_supplied | apply seqBase_supplied | apply Supplied.ite
    | split
theorem setNet_supplied {s} {a0} {a1} {a2} (h : Supplied m s a0) : Supplied m s (setNet a0 a1 a2) := h.trans ⟨rfl, fun _ => rfl⟩
theorem setSlice_supplied {s} {a0} {a1} {a2} (h : Supplied m s a0) : Supplied m s (setSlice a0 a1 a2) := h.trans ⟨rfl, fun _ => rfl⟩
theorem memCorrected_supplied {s} {a0} {a1} {a2} (h : Supplied m s a0) : Supplied m s (memCorrected a0 a1 a2) := h.trans ⟨rfl, fun _ => rfl⟩
theorem setErr_supplied {s} {a0} {a1} {a2} (h : Supplied m s a0) : Supplied m s (setErr a0 a1 a2) := h.trans ⟨rfl, fun _ => rfl⟩
theorem setPoison_supplied {s} {a0} {a1} {a2} (h : Supplied m s a0) : Supplied m s (setPoison a0 a1 a2) := h.trans ⟨rfl, fun _ => rfl⟩
theorem blockUncorrectable_supplied {s} {a0} {a1} {a2} {a3} {a4} {a5} (h : Supplied m s a0) : Supplied m s (blockUncorrectable a0 a1 a2 a3 a4 a5) := by
  unfold blockUncorrectable
  repeat' with_reducible first
    | exact h | apply setErr_supplied | apply setPoison_supplied | apply raiseInt_supplied | apply errAt_supplied | apply bump_supplied
    | apply report_supplied
theorem blockRead_supplied {s} {a0} {a1} {a2} {a3} {a4} {a5} (h : Supplied m s a4) : Supplied m s (blockRead a0 a1 a2 a3 a4 a5) := by
  unfold blockRead
  repeat' first
    | with_reducible first
        | exact h | apply bump_supplied | apply memCorrected_supplied | apply setErr_supplied | apply blockUncorrectable_supplied
    | split
    | (dsimp only; split)
theorem noteErr_supplied {s} {a0} {a1} {a2} {a3} (h : Supplied m s a0) : Supplied m s (noteErr a0 a1 a2 a3) := by
  unfold noteErr
  repeat' first
    | with_reducible first
        | exact h | apply setErr_supplied | apply Supplied.ite
    | split
theorem epAdd_supplied {s} {a0} {a1} {a2} {a3} {a4} (h : Supplied m s a0) : Supplied m s (epAdd a0 a1 a2 a3 a4) := by
  unfold epAdd
  repeat' with_reducible first
    | exact h | apply wr_supplied | apply setNet_supplied | apply Supplied.ite
theorem setRout_supplied {s} {a0} {a1} {a2} (h : Supplied m s a0) : Supplied m s (setRout a0 a1 a2) := h.trans ⟨rfl, fun _ => rfl⟩
theorem bufPush_supplied {s} {a0} {a1} {a2} {a3} (h : Supplied m s a0) : Supplied m s (bufPush a0 a1 a2 a3) := h.trans ⟨rfl, fun _ => rfl⟩
theorem swPush_supplied {s} {a0} {a1} {a2} {a3} (h : Supplied m s a0) : Supplied m s (swPush a0 a1 a2 a3) := h.trans ⟨rfl, fun _ => rfl⟩
theorem sendFrom_supplied {s} {a0} {a1} {a2} {a3} (h : Supplied m s a0) : Supplied m s (sendFrom a0 a1 a2 a3) := by
  unfold sendFrom
  repeat' with_reducible first
    | exact h | apply epAdd_supplied | apply bufPush_supplied | apply swPush_supplied | apply Supplied.ite
theorem sliceAnswer_supplied {s} {a0} {a1} {a2} {a3} {a4} {a5} (h : Supplied m s a0) : Supplied m s (sliceAnswer a0 a1 a2 a3 a4 a5) := by
  unfold sliceAnswer
  repeat' first
    | with_reducible first
        | exact h | apply sendFrom_supplied
    | split
theorem unqueue_supplied {s} {a0} {a1} {a2} {a3} (h : Supplied m s a0) : Supplied m s (unqueue a0 a1 a2 a3) := h.trans ⟨rfl, fun _ => rfl⟩
theorem readServe_supplied {s} {a0} {a1} {a2} {a3} {a4} {a5} (h : Supplied m s a0) : Supplied m s (readServe a0 a1 a2 a3 a4 a5) := by
  unfold readServe
  repeat' with_reducible first
    | exact h | exact Supplied.refl _ | apply blockRead_supplied | apply noteErr_supplied | apply sliceAnswer_supplied | apply unqueue_supplied
    | (intro _)
    | apply Supplied.folds
theorem memWriteAt_supplied {s} {a0} {a1} {a2} {a3} (h : Supplied m s a0) : Supplied m s (memWriteAt a0 a1 a2 a3) := by
  unfold memWriteAt
  repeat' with_reducible first
    | exact Supplied.refl _ | apply setErr_supplied | apply setPoison_supplied | (intro _) | apply Supplied.folds
    | exact h.trans ⟨rfl, fun _ => rfl⟩
theorem mirror_supplied {s} {a0} {a1} {a2} {a3} (h : Supplied m s a0) : Supplied m s (mirror a0 a1 a2 a3) := by
  unfold mirror
  repeat' with_reducible first
    | exact h | exact Supplied.refl _ | apply bump_supplied | apply memWriteAt_supplied | (intro _) | apply Supplied.ite | apply Supplied.folds
theorem markDirect_supplied {s} {a0} {a1} {a2} (h : Supplied m s a0) : Supplied m s (markDirect a0 a1 a2) := by
  unfold markDirect
  repeat' with_reducible first
    | exact h | apply setSlice_supplied | apply Supplied.ite
theorem writeServe_supplied {s} {a0} {a1} {a2} {a3} {a4} (h : Supplied m s a0) : Supplied m s (writeServe a0 a1 a2 a3 a4) := by
  unfold writeServe
  repeat' with_reducible first
    | exact h | exact Supplied.refl _ | apply blockRead_supplied | apply noteErr_supplied | apply memWriteAt_supplied | apply mirror_supplied
    | apply markDirect_supplied | apply sliceAnswer_supplied | apply unqueue_supplied | (intro _) | apply Supplied.folds
theorem serveOne_supplied {s} {a0} {a1} (h : Supplied m s a0) : Supplied m s (serveOne a0 a1) := by
  unfold serveOne
  repeat' first
    | with_reducible first
        | exact h | apply readServe_supplied | apply writeServe_supplied | apply Supplied.ite
    | (dsimp only; split)
theorem serveAll_supplied {s} {a0} {a1} (h : Supplied m s a0) : Supplied m s (serveAll a0 a1) := by
  unfold serveAll
  repeat' with_reducible first
    | exact h | exact Supplied.refl _ | apply serveOne_supplied | (intro _) | apply Supplied.folds
theorem settle_supplied {s} {a0} {a1} {a2} (h : Supplied m s a0) : Supplied m s (settle a0 a1 a2) := by
  unfold settle
  repeat' with_reducible first
    | exact h | apply serveAll_supplied | apply Supplied.ite
theorem setPort_supplied {s} {a0} {a1} {a2} (h : Supplied m s a0) : Supplied m s (setPort a0 a1 a2) := h.trans ⟨rfl, fun _ => rfl⟩
theorem twinSend_supplied {s} {a0} {a1} {a2} (h : Supplied m s a0) : Supplied m s (twinSend a0 a1 a2) := h.trans ⟨rfl, fun _ => rfl⟩
theorem sendJ_supplied {s} {a0} {a1} {a2} (h : Supplied m s a0) : Supplied m s (sendJ a0 a1 a2) := by
  unfold sendJ
  repeat' first
    | with_reducible first
        | exact h | apply twinSend_supplied | apply bump_supplied
    | (dsimp only; split)
theorem setStream_supplied {s} {a0} {a1} {a2} (h : Supplied m s a0) : Supplied m s (setStream a0 a1 a2) := h.trans ⟨rfl, fun _ => rfl⟩
theorem journalAdd_supplied {s} {a0} {a1} {a2} (h : Supplied m s a0) : Supplied m s (journalAdd a0 a1 a2) := by
  unfold journalAdd
  repeat' with_reducible first
    | exact h | apply sendJ_supplied | apply setStream_supplied
theorem journalWrite_supplied {s} {a0} {a1} {a2} {a3} {a4} (h : Supplied m s a0) : Supplied m s (journalWrite a0 a1 a2 a3 a4) := by
  unfold journalWrite
  repeat' with_reducible first
    | exact h | apply journalAdd_supplied | apply Supplied.ite
theorem memApply_supplied {s} {a0} {a1} {a2} {a3} {a4} {a5} (h : Supplied m s a0) : Supplied m s (memApply a0 a1 a2 a3 a4 a5) := by
  unfold memApply
  repeat' with_reducible first
    | exact h | exact Supplied.refl _ | apply bump_supplied | apply settle_supplied | apply journalWrite_supplied | apply blockRead_supplied
    | apply mirror_supplied | apply markDirect_supplied | apply memWriteAt_supplied | (intro _) | apply Supplied.folds
theorem memWrite_supplied {s} {a0} {a1} {a2} {a3} {a4} {a5} (h : Supplied m s a0) : Supplied m s (memWrite a0 a1 a2 a3 a4 a5) := by
  unfold memWrite
  repeat' with_reducible first
    | exact h | apply setSlice_supplied | apply memApply_supplied | apply Supplied.ite
theorem setTwin_supplied {s} {a0} {a1} (h : Supplied m s a0) : Supplied m s (setTwin a0 a1) := h.trans ⟨rfl, fun _ => rfl⟩
theorem setPst_supplied {s} {a0} {a1} (h : Supplied m s a0) : Supplied m s (setPst a0 a1) := h.trans ⟨rfl, fun _ => rfl⟩
theorem setHub_supplied {s} {a0} {a1} (h : Supplied m s a0) : Supplied m s (setHub a0 a1) := h.trans ⟨rfl, fun _ => rfl⟩
theorem pktErr_supplied {s} {a0} {a1} {a2} {a3} {a4} {a5} (h : Supplied m s a0) : Supplied m s (pktErr a0 a1 a2 a3 a4 a5) := by
  unfold pktErr
  repeat' with_reducible first
    | exact h | apply raiseInt_supplied | apply errAt_supplied
theorem xAdd_supplied {s} {a0} {a1} {a2} {a3} (h : Supplied m s a0) : Supplied m s (xAdd a0 a1 a2 a3) := h.trans ⟨rfl, fun _ => rfl⟩
theorem xepDrop_supplied {s} {a0} {a1} {a2} {a3} {a4} {a5} (h : Supplied m s a0) : Supplied m s (xepDrop a0 a1 a2 a3 a4 a5) := by
  unfold xepDrop
  repeat' with_reducible first
    | exact h | apply pktErr_supplied | apply bump_supplied | apply xAdd_supplied | apply Supplied.ite
theorem xDrop_supplied {s} {a0} {a1} {a2} (h : Supplied m s a0) : Supplied m s (xDrop a0 a1 a2) := by
  unfold xDrop
  repeat' with_reducible first
    | exact h | apply xAdd_supplied | apply Supplied.ite
theorem noRoute_supplied {s} {a0} {a1} {a2} (h : Supplied m s a0) : Supplied m s (noRoute a0 a1 a2) := by
  unfold noRoute
  repeat' with_reducible first
    | exact h | apply pktErr_supplied | apply bump_supplied | apply xDrop_supplied
theorem routeOut_supplied {s} {a0} {a1} {a2} {a3} {a4} {a5} {a6} (h : Supplied m s a0) : Supplied m s (routeOut a0 a1 a2 a3 a4 a5 a6) := by
  unfold routeOut
  repeat' with_reducible first
    | exact h | apply bump_supplied | apply xAdd_supplied | apply setPort_supplied | apply Supplied.ite
theorem routeControl_supplied {s} {a0} {a1} {a2} {a3} (h : Supplied m s a0) : Supplied m s (routeControl a0 a1 a2 a3) := by
  unfold routeControl
  repeat' first
    | with_reducible first
        | exact h | apply xepDrop_supplied | apply noRoute_supplied | apply routeOut_supplied | apply bump_supplied | apply Supplied.ite
    | split
theorem controlSend_supplied {s} {a0} {a1} (h : Supplied m s a0) : Supplied m s (controlSend a0 a1) := by
  unfold controlSend
  repeat' with_reducible first
    | exact h | apply routeControl_supplied | apply Supplied.ite
theorem noticeSend_supplied {s} {a0} {a1} (h : Supplied m s a0) : Supplied m s (noticeSend a0 a1) := by
  unfold noticeSend
  repeat' with_reducible first
    | exact h | apply send_supplied | apply controlSend_supplied
theorem postNotice_supplied {s} {a0} {a1} (h : Supplied m s a0) : Supplied m s (postNotice a0 a1) := by
  unfold postNotice
  repeat' with_reducible first
    | exact h | apply setHub_supplied | apply noticeSend_supplied | apply Supplied.ite
theorem postAll_supplied {s} {a0} {a1} {a2} (h : Supplied m s a0) : Supplied m s (postAll a0 a1 a2) := by
  unfold postAll
  repeat' with_reducible first
    | exact h | exact Supplied.refl _ | apply postNotice_supplied | (intro _) | apply Supplied.folds
theorem denyFabric_supplied {s} {a0} {a1} (h : Supplied m s a0) : Supplied m s (denyFabric a0 a1) := by
  unfold denyFabric
  repeat' with_reducible first
    | exact h | apply bump_supplied | apply Supplied.ite
theorem reqRefused_supplied {s} {a0} {a1} {a2} {a3} (h : Supplied m s a0) : Supplied m s (reqRefused a0 a1 a2 a3) := by
  unfold reqRefused
  repeat' with_reducible first
    | exact h | apply raiseInt_supplied | apply errAt_supplied | apply bump_supplied | apply denyFabric_supplied | apply Supplied.ite
theorem bindCore_supplied {s} {a0} {a1} {a2} {a3} (h : Supplied m s a0) : Supplied m s (bindCore a0 a1 a2 a3) := by
  unfold bindCore
  repeat' with_reducible first
    | exact h | exact Supplied.refl _ | apply wr_supplied | (intro _) | apply Supplied.ite | apply Supplied.folds
theorem setCtx_supplied {s} {a0} {a1} {a2} (h : Supplied m s a0) : Supplied m s (setCtx a0 a1 a2) := h.trans ⟨rfl, fun _ => rfl⟩
theorem signpostInvalidate_supplied {s} {a0} {a1} {a2} (h : Supplied m s a0) : Supplied m s (signpostInvalidate a0 a1 a2) := by
  unfold signpostInvalidate
  repeat' with_reducible first
    | exact h | apply Supplied.ite | exact h.trans ⟨rfl, fun _ => rfl⟩
theorem setHandle_supplied {s} {a0} {a1} {a2} {a3} (h : Supplied m s a0) : Supplied m s (setHandle a0 a1 a2 a3) := h.trans ⟨rfl, fun _ => rfl⟩
theorem setHost_supplied {s} {a0} {a1} (h : Supplied m s a0) : Supplied m s (setHost a0 a1) := h.trans ⟨rfl, fun _ => rfl⟩
theorem msixWrite_supplied {s} {a0} {a1} {a2} (h : Supplied m s a0) : Supplied m s (msixWrite a0 a1 a2) := by
  unfold msixWrite
  repeat' with_reducible first
    | exact h | apply setHost_supplied | apply send_supplied | apply bump_supplied | apply Supplied.ite
theorem hostBad_supplied {s} {a0} {a1} {a2} {a3} {a4} (h : Supplied m s a0) : Supplied m s (hostBad a0 a1 a2 a3 a4) := by
  unfold hostBad
  repeat' with_reducible first
    | exact h | apply raiseInt_supplied | apply errAt_supplied
theorem accessRange_supplied {s} {a0} {a1} {a2} {a3} (h : Supplied m s a0) : Supplied m s (accessRange a0 a1 a2 a3) := by
  unfold accessRange
  repeat' first
    | with_reducible first
        | exact h | apply hostBad_supplied | apply errAt_supplied
    | split
theorem mgmtDenied_supplied {s} {a0} {a1} (h : Supplied m s a0) : Supplied m s (mgmtDenied a0 a1) := by
  unfold mgmtDenied
  repeat' with_reducible first
    | exact h | apply raiseInt_supplied | apply errAt_supplied
theorem accessDenied_supplied {s} {a0} {a1} {a2} {a3} {a4} (h : Supplied m s a0) : Supplied m s (accessDenied a0 a1 a2 a3 a4) := by
  unfold accessDenied
  repeat' first
    | with_reducible first
        | exact h | apply hostBad_supplied | apply bump_supplied | apply mgmtDenied_supplied | apply errAt_supplied | apply denyFabric_supplied
    | split
theorem rangeAt_supplied {s} {a0} {a1} {a2} (h : Supplied m s a0) : Supplied m s (rangeAt a0 a1 a2) := by
  unfold rangeAt
  repeat' with_reducible first
    | exact h | apply errAt_supplied
theorem closedWrite_supplied {s} {a0} {a1} {a2} {a3} {a4} {a5} (h : Supplied m s a0) : Supplied m s (closedWrite a0 a1 a2 a3 a4 a5).1 := by
  unfold closedWrite
  repeat' first
    | with_reducible first
        | exact h | apply accessDenied_supplied | apply rangeAt_supplied
    | split
    | (dsimp only; split)
theorem writeOutcome_supplied {s} {a0} {a1} {a2} (h : Supplied m s a0) (h2 : ∀ s, Supplied m s (a2 s)) : Supplied m s (writeOutcome a0 a1 a2).1 := by
  unfold writeOutcome
  repeat' with_reducible first
    | exact h | refine Supplied.trans ?_ (h2 ..)
theorem withMirror_supplied {s} {a0} {a1} {a2} (h : Supplied m s a0) (h2 : ∀ s x, Supplied m s (a2 s x)) : Supplied m s (withMirror a0 a1 a2) := by
  unfold withMirror
  repeat' first
    | with_reducible first
        | exact h | refine Supplied.trans ?_ (h2 ..)
    | split
theorem cvBind_supplied {s} {a0} {a1} {a2} {a3} (h : Supplied m s a0) : Supplied m s (cvBind a0 a1 a2 a3) := by
  unfold cvBind
  repeat' with_reducible first
    | exact h | apply closeSettle_supplied | apply setChan_supplied | apply chClose_supplied | apply qErr_supplied | apply setHandle_supplied
    | apply Supplied.ite
theorem bankRefused_supplied {s} {a0} {a1} {a2} {a3} (h : Supplied m s a0) : Supplied m s (bankRefused a0 a1 a2 a3) := by
  unfold bankRefused
  repeat' with_reducible first
    | exact h | apply raiseInt_supplied | apply errAt_supplied
theorem repCommit_supplied {s} {a0} {a1} {a2} {a3} (h : Supplied m s a0) : Supplied m s (repCommit a0 a1 a2 a3) := by
  unfold repCommit
  repeat' with_reducible first
    | exact h | apply bankRefused_supplied | apply setRout_supplied | apply Supplied.ite
theorem placementWrite_supplied {s} {a0} {a1} {a2} {a3} {a4} (h : Supplied m s a0) : Supplied m s (placementWrite a0 a1 a2 a3 a4) := by
  unfold placementWrite
  repeat' with_reducible first
    | exact h | apply fdSet_supplied | apply bankRefused_supplied | apply raiseInt_supplied | apply errAt_supplied | apply wr_supplied
    | apply Supplied.ite
theorem setRing_supplied {s} {a0} {a1} {a2} (h : Supplied m s a0) : Supplied m s (setRing a0 a1 a2) := h.trans ⟨rfl, fun _ => rfl⟩
theorem ringAddr_supplied {s} {a0} {a1} {a2} {a3} (h : Supplied m s a0) : Supplied m s (ringAddr a0 a1 a2 a3).1 := by
  unfold ringAddr
  repeat' first
    | with_reducible first
        | exact h | apply setRing_supplied
    | split
    | (dsimp only; split)
theorem notReadyAt_supplied {s} {a0} {a1} {a2} (h : Supplied m s a0) : Supplied m s (notReadyAt a0 a1 a2) := by
  unfold notReadyAt
  repeat' with_reducible first
    | exact h | apply errAt_supplied
theorem pairReg_supplied {s} {a0} {a1} {a2} {a3} {a4} (h : Supplied m s a0) : Supplied m s (pairReg a0 a1 a2 a3 a4) := by
  unfold pairReg
  repeat' first
    | with_reducible first
        | exact h | apply cvBind_supplied | apply repCommit_supplied | apply wr_supplied | apply placementWrite_supplied | apply rangeAt_supplied
        | apply ringAddr_supplied | apply notReadyAt_supplied | apply Supplied.ite
    | split
theorem clusRefused_supplied {s} {a0} {a1} {a2} (h : Supplied m s a0) : Supplied m s (clusRefused a0 a1 a2) := by
  unfold clusRefused
  repeat' with_reducible first
    | exact h | apply raiseInt_supplied | apply errAt_supplied
theorem headerReg_supplied {s} {a0} {a1} {a2} {a3} {a4} (h : Supplied m s a0) : Supplied m s (headerReg a0 a1 a2 a3 a4) := by
  unfold headerReg
  repeat' first
    | with_reducible first
        | exact h | apply irqEdge_supplied | apply wr_supplied | apply Supplied.ite | exact h.trans ⟨rfl, fun _ => rfl⟩
    | split
theorem seqRun_supplied {s} {a0} {a1} (h : Supplied m s a0) : Supplied m s (seqRun a0 a1) := by
  unfold seqRun
  repeat' with_reducible first
    | exact h | apply setSeq_supplied | apply setSeqSt_supplied | apply setPc_supplied | apply Supplied.ite
theorem seqHalt_supplied {s} {a0} {a1} (h : Supplied m s a0) : Supplied m s (seqHalt a0 a1) := by
  unfold seqHalt
  repeat' with_reducible first
    | exact h | apply setSeqSt_supplied | apply Supplied.ite
theorem seqStepOne_supplied {s} {a0} {a1} (h : Supplied m s a0) : Supplied m s (seqStepOne a0 a1) := by
  unfold seqStepOne
  repeat' with_reducible first
    | exact h | apply setSeq_supplied | apply seqIssue_supplied | apply fdSet_supplied | apply setSeqSt_supplied | apply Supplied.ite
theorem seqCtlWrite_supplied {s} {a0} {a1} {a2} {a3} {a4} (h : Supplied m s a0) : Supplied m s (seqCtlWrite a0 a1 a2 a3 a4) := by
  unfold seqCtlWrite
  repeat' with_reducible first
    | exact h | apply fdSet_supplied | apply seqRun_supplied | apply seqHalt_supplied | apply seqStepOne_supplied | apply Supplied.ite
theorem setMile_supplied {s} {a0} {a1} {a2} (h : Supplied m s a0) : Supplied m s (setMile a0 a1 a2) := by
  unfold setMile
  repeat' with_reducible first
    | exact h | apply fdSet_supplied | apply setCore_supplied | apply Supplied.ite
theorem mboxIn_supplied {s} {a0} {a1} {a2} (h : Supplied m s a0) : Supplied m s (mboxIn a0 a1 a2) := h.trans ⟨rfl, fun _ => rfl⟩
theorem coreReg_supplied {s} {a0} {a1} {a2} {a3} {a4} (h : Supplied m s a0) : Supplied m s (coreReg a0 a1 a2 a3 a4) := by
  unfold coreReg
  repeat' first
    | with_reducible first
        | exact h | apply seqCtlWrite_supplied | apply wr_supplied | apply setMile_supplied | apply mboxIn_supplied
    | split
theorem cfgCheck_supplied {s} {a0} {a1} {a2} (h : Supplied m s a0) : Supplied m s (cfgCheck a0 a1 a2) := by
  unfold cfgCheck
  repeat' with_reducible first
    | exact h | apply startCheck_supplied | apply Supplied.ite
theorem flowErr_supplied {s} {a0} {a1} {a2} {a3} {a4} {a5} (h : Supplied m s a0) : Supplied m s (flowErr a0 a1 a2 a3 a4 a5) := by
  unfold flowErr
  repeat' first
    | with_reducible first
        | exact h | apply errAt_supplied | apply raiseInt_supplied
    | split
theorem activeRefused_supplied {s} {a0} {a1} {a2} (h : Supplied m s a0) : Supplied m s (activeRefused a0 a1 a2) := by
  unfold activeRefused
  repeat' with_reducible first
    | exact h | apply flowErr_supplied
theorem imgGo_supplied {s} {a0} {a1} {a2} (h : Supplied m s a0) : Supplied m s (imgGo a0 a1 a2) := by
  unfold imgGo
  repeat' with_reducible first
    | exact h | apply activeRefused_supplied | apply setFab_supplied | apply fdSet_supplied | apply rangeAsk_supplied | apply Supplied.ite
theorem setBufWord_supplied {s} {a0} {a1} {a2} {a3} {a4} (h : Supplied m s a0) : Supplied m s (setBufWord a0 a1 a2 a3 a4) := by
  unfold setBufWord
  repeat' with_reducible first
    | exact h | apply wr_supplied | apply setCore_supplied | apply fdSet_supplied | apply Supplied.ite
theorem winStep_supplied {s} {a0} {a1} (h : Supplied m s a0) : Supplied m s (winStep a0 a1) := by
  unfold winStep
  repeat' with_reducible first
    | exact h | apply fdSet_supplied | apply Supplied.ite
theorem winWrite_supplied {s} {a0} {a1} {a2} (h : Supplied m s a0) : Supplied m s (winWrite a0 a1 a2) := by
  unfold winWrite
  repeat' with_reducible first
    | exact h | apply activeRefused_supplied | apply setBufWord_supplied | apply winStep_supplied | apply Supplied.ite
theorem booksCheck_supplied {s} {a0} {a1} {a2} (h : Supplied m s a0) : Supplied m s (booksCheck a0 a1 a2) := by
  unfold booksCheck
  repeat' with_reducible first
    | exact h | apply report_supplied | apply flowErr_supplied | apply Supplied.ite
theorem linkSnapshot_supplied {s} {a0} {a1} {a2} (h : Supplied m s a0) : Supplied m s (linkSnapshot a0 a1 a2) := by
  unfold linkSnapshot
  repeat' with_reducible first
    | exact h | apply booksCheck_supplied | apply wr_supplied
theorem gridClear_supplied {s} {a0} {a1} (h : Supplied m s a0) : Supplied m s (gridClear a0 a1) := by
  unfold gridClear
  repeat' with_reducible first
    | exact h | exact Supplied.refl _ | apply wr64_supplied | apply wr_supplied | (intro _) | apply Supplied.folds
theorem arrCfgWrite_supplied {s} {a0} {a1} {a2} {a3} (h : Supplied m s a0) : Supplied m s (arrCfgWrite a0 a1 a2 a3) := by
  unfold arrCfgWrite
  repeat' with_reducible first
    | exact h | apply activeRefused_supplied | apply setBufWord_supplied | apply Supplied.ite
theorem flowReg_supplied {s} {a0} {a1} {a2} {a3} {a4} (h : Supplied m s a0) : Supplied m s (flowReg a0 a1 a2 a3 a4) := by
  unfold flowReg
  repeat' first
    | with_reducible first
        | exact h | apply cfgCheck_supplied | apply imgGo_supplied | apply winWrite_supplied | apply linkSnapshot_supplied | apply wr_supplied
        | apply gridClear_supplied | apply arrCfgWrite_supplied | apply Supplied.ite
    | split
theorem bankRetarget_supplied {s} {a0} {a1} {a2} (h : Supplied m s a0) : Supplied m s (bankRetarget a0 a1 a2) := by
  unfold bankRetarget
  repeat' with_reducible first
    | exact h | apply setBank_supplied | apply setCore_supplied | apply Supplied.ite
theorem writeStat_supplied {s} {a0} {a1} {a2} (h : Supplied m s a0) : Supplied m s (writeStat a0 a1 a2) := by
  unfold writeStat
  repeat' with_reducible first
    | exact h | apply spadWrite_supplied | apply setQe_supplied | apply Supplied.ite
theorem serveStats_supplied {s} {a0} {a1} (h : Supplied m s a0) : Supplied m s (serveStats a0 a1) := by
  unfold serveStats
  repeat' with_reducible first
    | exact h | exact Supplied.refl _ | apply writeStat_supplied | (intro _) | apply Supplied.folds
theorem extAnswer_supplied {s} {a0} {a1} (h : Supplied m s a0) : Supplied m s (extAnswer a0 a1) := by
  unfold extAnswer
  repeat' with_reducible first
    | exact h | apply send_supplied | apply Supplied.ite
theorem extRun_supplied {s} {a0} {a1} {a2} {a3} (h : Supplied m s a0) : Supplied m s (extRun a0 a1 a2 a3) := by
  fun_induction extRun
  repeat' with_reducible first
    | exact h | apply spadWrite_supplied | apply extAnswer_supplied | apply spadRead_supplied | apply setCore_supplied | apply errAt_supplied
    | refine Supplied.fst (by assumption) ?_ | apply_assumption
theorem extSpad_supplied {s} {a0} {a1} {a2} (h : Supplied m s a0) : Supplied m s (extSpad a0 a1 a2) := by
  unfold extSpad
  repeat' with_reducible first
    | exact h | apply extRun_supplied
theorem spadServe_supplied {s} {a0} {a1} (h : Supplied m s a0) : Supplied m s (spadServe a0 a1) := by
  unfold spadServe
  repeat' with_reducible first
    | exact h | exact Supplied.refl _ | apply serveStats_supplied | apply setCore_supplied | apply extSpad_supplied | (intro _) | apply Supplied.folds
theorem regionWrite_supplied {s} {a0} {a1} {a2} {a3} (h : Supplied m s a0) : Supplied m s (regionWrite a0 a1 a2 a3) := by
  unfold regionWrite
  repeat' with_reducible first
    | exact h | apply wr_supplied | apply setCore_supplied | apply spadServe_supplied | apply Supplied.ite
theorem spadReg_supplied {s} {a0} {a1} {a2} {a3} (h : Supplied m s a0) : Supplied m s (spadReg a0 a1 a2 a3) := by
  unfold spadReg
  repeat' with_reducible first
    | exact h | exact Supplied.refl _ | apply wr_supplied | apply bankRetarget_supplied | apply regionWrite_supplied | (intro _) | apply Supplied.ite
    | apply Supplied.folds
theorem chSnapshot_supplied {s} {a0} {a1} {a2} (h : Supplied m s a0) : Supplied m s (chSnapshot a0 a1 a2) := h.trans ⟨rfl, fun _ => rfl⟩
theorem hdSnapshot_supplied {s} {a0} {a1} {a2} (h : Supplied m s a0) : Supplied m s (hdSnapshot a0 a1 a2) := h.trans ⟨rfl, fun _ => rfl⟩
theorem qeRelease_supplied {s} {a0} {a1} {a2} (h : Supplied m s a0) : Supplied m s (qeRelease a0 a1 a2) := by
  unfold qeRelease
  repeat' first
    | with_reducible first
        | exact h | exact Supplied.refl _ | apply rangeAsk_supplied | apply setQe_supplied | apply rangeRelease_supplied | (intro _)
        | apply Supplied.folds
        | refine Supplied.fst (by assumption) ?_
    | split
theorem jFwdEnd_supplied {s} {a0} {a1} {a2} {a3} (h : Supplied m s a0) : Supplied m s (jFwdEnd a0 a1 a2 a3) := by
  unfold jFwdEnd
  repeat' with_reducible first
    | exact h | apply jRelease_supplied | apply setSlot_supplied
theorem outcomeToSource_supplied {s} {a0} {a1} {a2} {a3} (h : Supplied m s a0) : Supplied m s (outcomeToSource a0 a1 a2 a3) := by
  unfold outcomeToSource
  repeat' first
    | with_reducible first
        | exact h | apply setOutcome_supplied | apply setQe_supplied | apply jFwdEnd_supplied | apply qErr_supplied | apply Supplied.ite
    | split
theorem endMsg_supplied {s} {a0} {a1} {a2} {a3} (h : Supplied m s a0) : Supplied m s (endMsg a0 a1 a2 a3) := by
  unfold endMsg
  repeat' with_reducible first
    | exact h | apply setQe_supplied | apply qeRelease_supplied | apply bump_supplied | apply qErr_supplied | apply outcomeToSource_supplied
    | apply Supplied.ite
theorem endAll_supplied {s} {a0} {a1} {a2} {a3} (h : Supplied m s a0) : Supplied m s (endAll a0 a1 a2 a3) := by
  fun_induction endAll
  repeat' with_reducible first
    | exact h | apply endMsg_supplied | apply_assumption
theorem qFlush_supplied {s} {a0} {a1} (h : Supplied m s a0) : Supplied m s (qFlush a0 a1) := by
  unfold qFlush
  repeat' with_reducible first
    | exact h | apply endAll_supplied | apply setQe_supplied
theorem qSnapshot_supplied {s} {a0} {a1} {a2} (h : Supplied m s a0) : Supplied m s (qSnapshot a0 a1 a2) := h.trans ⟨rfl, fun _ => rfl⟩
theorem jSnapshot_supplied {s} {a0} {a1} {a2} (h : Supplied m s a0) : Supplied m s (jSnapshot a0 a1 a2) := h.trans ⟨rfl, fun _ => rfl⟩
theorem slotRefuse_supplied {s} {a0} {a1} {a2} {a3} (h : Supplied m s a0) : Supplied m s (slotRefuse a0 a1 a2 a3) := by
  unfold slotRefuse
  repeat' with_reducible first
    | exact h | apply qErr_supplied
theorem writeSlotReg_supplied {s} {a0} {a1} {a2} {a3} {a4} (h : Supplied m s a0) : Supplied m s (writeSlotReg a0 a1 a2 a3 a4) := by
  unfold writeSlotReg
  repeat' with_reducible first
    | exact h | apply slotRefuse_supplied | apply setSlot_supplied | apply wr_supplied | apply Supplied.ite
theorem jDropAccum_supplied {s} {a0} {a1} {a2} (h : Supplied m s a0) : Supplied m s (jDropAccum a0 a1 a2) := by
  unfold jDropAccum
  repeat' with_reducible first
    | exact h | exact Supplied.refl _ | apply bumpBy_supplied | apply setSlot_supplied | (intro _) | apply Supplied.ite | apply Supplied.folds
theorem closeHandles_supplied {s} {a0} {a1} {a2} (h : Supplied m s a0) : Supplied m s (closeHandles a0 a1 a2) := by
  unfold closeHandles
  repeat' with_reducible first
    | exact h | exact Supplied.refl _ | apply noticeOut_supplied | apply setHandle_supplied | (intro _) | apply Supplied.folds
theorem writeSlotCfg_supplied {s} {a0} {a1} {a2} {a3} (h : Supplied m s a0) : Supplied m s (writeSlotCfg a0 a1 a2 a3) := by
  unfold writeSlotCfg
  repeat' with_reducible first
    | exact h | apply slotRefuse_supplied | apply wr_supplied | apply setSlot_supplied | apply writeStat_supplied | apply jDropAccum_supplied
    | apply closeHandles_supplied | apply Supplied.ite
theorem qengReg_supplied {s} {a0} {a1} {a2} {a3} {a4} (h : Supplied m s a0) : Supplied m s (qengReg a0 a1 a2 a3 a4) := by
  unfold qengReg
  repeat' first
    | with_reducible first
        | exact h | apply chSnapshot_supplied | apply wr_supplied | apply hdSnapshot_supplied | apply fdSet_supplied | apply qFlush_supplied
        | apply qSnapshot_supplied | apply jSnapshot_supplied | apply writeSlotReg_supplied | apply writeSlotCfg_supplied | apply Supplied.ite
    | split
theorem bankFields_supplied {s} {a0} {a1} {a2} {a3} (h : Supplied m s a0) : Supplied m s (bankFields a0 a1 a2 a3) := by
  unfold bankFields
  repeat' with_reducible first
    | exact h | exact Supplied.refl _ | apply bankRefused_supplied | apply wr_supplied | (intro _) | apply Supplied.ite | apply Supplied.folds
theorem portSnapshot_supplied {s} {a0} {a1} {a2} (h : Supplied m s a0) : Supplied m s (portSnapshot a0 a1 a2) := h.trans ⟨rfl, fun _ => rfl⟩
theorem cacheDrop_supplied {s} {a0} {a1} {a2} (h : Supplied m s a0) : Supplied m s (cacheDrop a0 a1 a2) := h.trans ⟨rfl, fun _ => rfl⟩
theorem routReg_supplied {s} {a0} {a1} {a2} {a3} {a4} (h : Supplied m s a0) : Supplied m s (routReg a0 a1 a2 a3 a4) := by
  unfold routReg
  repeat' first
    | with_reducible first
        | exact h | apply bankFields_supplied | apply portSnapshot_supplied | apply wr_supplied | apply cacheDrop_supplied | apply Supplied.ite
    | split
theorem retargetAll_supplied {s} {a0} {a1} {a2} (h : Supplied m s a0) : Supplied m s (retargetAll a0 a1 a2) := by
  fun_induction retargetAll
  repeat' with_reducible first
    | exact h | assumption | apply bankRetarget_supplied
theorem setCstate_supplied {s} {a0} {a1} {a2} (h : Supplied m s a0) : Supplied m s (setCstate a0 a1 a2) := h.trans ⟨rfl, fun _ => rfl⟩
theorem clearRegs_supplied {s} {a0} {a1} {a2} (h : Supplied m s a0) : Supplied m s (clearRegs a0 a1 a2) := h.trans ⟨rfl, fun _ => rfl⟩
theorem clearPages_supplied {s} {a0} {a1} {a2} (h : Supplied m s a0) : Supplied m s (clearPages a0 a1 a2) := h.trans ⟨rfl, fun _ => rfl⟩
theorem coreFields_supplied {s} {a0} {a1} (h : Supplied m s a0) : Supplied m s (coreFields a0 a1) := h.trans ⟨rfl, fun _ => rfl⟩
theorem coreReset_supplied {s} {a0} {a1} (h : Supplied m s a0) : Supplied m s (coreReset a0 a1) := h.trans ⟨rfl, fun _ => rfl⟩
theorem coreOn_supplied {s} {a0} {a1} (h : Supplied m s a0) : Supplied m s (coreOn a0 a1) := by
  unfold coreOn
  repeat' with_reducible first
    | exact h | apply retargetAll_supplied | apply setCstate_supplied | apply coreReset_supplied | apply Supplied.ite
theorem pllStart_supplied {s} {a0} {a1} (h : Supplied m s a0) : Supplied m s (pllStart a0 a1) := by
  unfold pllStart
  repeat' with_reducible first
    | exact h | apply bump_supplied | apply fdSet_supplied | apply raiseInt_supplied | apply errAt_supplied | apply Supplied.ite
theorem railUp_supplied {s} {a0} {a1} (h : Supplied m s a0) : Supplied m s (railUp a0 a1) := by
  unfold railUp
  repeat' with_reducible first
    | exact h | apply fdSet_supplied | apply pllStart_supplied | apply Supplied.ite
theorem seqRestWake_supplied {s} {a0} {a1} (h : Supplied m s a0) : Supplied m s (seqRestWake a0 a1) := by
  unfold seqRestWake
  repeat' with_reducible first
    | exact h | apply setSeq_supplied | apply setSeqSt_supplied | apply setPc_supplied
theorem restWake_supplied {s} {a0} {a1} (h : Supplied m s a0) : Supplied m s (restWake a0 a1) := by
  unfold restWake
  repeat' with_reducible first
    | exact h | apply railUp_supplied | apply bump_supplied | apply retargetAll_supplied | apply setCstate_supplied | apply seqRestWake_supplied
    | apply startFlow_supplied | apply startUnits_supplied | apply Supplied.ite
theorem railDown_supplied {s} {a0} {a1} (h : Supplied m s a0) : Supplied m s (railDown a0 a1) := by
  unfold railDown
  repeat' with_reducible first
    | exact h | apply fdSet_supplied | apply Supplied.ite
theorem coreOff_supplied {s} {a0} {a1} (h : Supplied m s a0) : Supplied m s (coreOff a0 a1) := by
  unfold coreOff
  repeat' with_reducible first
    | exact h | apply coreReset_supplied | apply setSeq_supplied | apply retargetAll_supplied | apply setCstate_supplied | apply Supplied.ite
theorem restEntry_supplied {s} {a0} {a1} (h : Supplied m s a0) : Supplied m s (restEntry a0 a1) := by
  unfold restEntry
  repeat' with_reducible first
    | exact h | apply clearRegs_supplied | apply setCore_supplied | apply retargetAll_supplied | apply setCstate_supplied | apply bump_supplied
    | apply railDown_supplied | apply setSeqSt_supplied | apply Supplied.ite
theorem applyTarget_supplied {s} {a0} {a1} {a2} (h : Supplied m s a0) : Supplied m s (applyTarget a0 a1 a2) := by
  unfold applyTarget
  repeat' first
    | with_reducible first
        | exact h | apply coreOn_supplied | apply railUp_supplied | apply restWake_supplied | apply railDown_supplied | apply coreOff_supplied
        | apply restEntry_supplied | apply Supplied.ite
    | split
theorem setTarget_supplied {s} {a0} {a1} {a2} (h : Supplied m s a0) : Supplied m s (setTarget a0 a1 a2) := h.trans ⟨rfl, fun _ => rfl⟩
theorem coreTargets_supplied {s} {a0} {a1} {a2} (h : Supplied m s a0) : Supplied m s (coreTargets a0 a1 a2) := by
  unfold coreTargets
  repeat' first
    | with_reducible first
        | exact h | exact Supplied.refl _ | apply applyTarget_supplied | apply setTarget_supplied | (intro _) | apply Supplied.ite
        | apply Supplied.folds
    | split
theorem clusRelock_supplied {s} {a0} {a1} (h : Supplied m s a0) : Supplied m s (clusRelock a0 a1) := by
  unfold clusRelock
  repeat' with_reducible first
    | exact h | apply pllStart_supplied | apply Supplied.ite
theorem holdWrite_supplied {s} {a0} {a1} {a2} (h : Supplied m s a0) : Supplied m s (holdWrite a0 a1 a2) := by
  unfold holdWrite
  repeat' with_reducible first
    | exact h | apply fdSet_supplied | apply railUp_supplied | apply railDown_supplied | apply clusRelock_supplied | apply Supplied.ite
theorem setPins_supplied {s} {a0} {a1} (h : Supplied m s a0) : Supplied m s (setPins a0 a1) := h.trans ⟨rfl, fun _ => rfl⟩
theorem clusVolts_supplied {s} {a0} {a1} {a2} {a3} (h : Supplied m s a0) : Supplied m s (clusVolts a0 a1 a2 a3) := by
  unfold clusVolts
  repeat' with_reducible first
    | exact h | apply fdSet_supplied | apply Supplied.ite
theorem setPointWrite_supplied {s} {a0} {a1} {a2} (h : Supplied m s a0) : Supplied m s (setPointWrite a0 a1 a2) := by
  unfold setPointWrite
  repeat' with_reducible first
    | exact h | apply clusRefused_supplied | apply setPins_supplied | apply clusVolts_supplied | apply Supplied.ite
theorem freqApply_supplied {s} {a0} {a1} (h : Supplied m s a0) : Supplied m s (freqApply a0 a1) := by
  unfold freqApply
  repeat' with_reducible first
    | exact h | apply fdSet_supplied | apply Supplied.ite
theorem freqWrite_supplied {s} {a0} {a1} {a2} (h : Supplied m s a0) : Supplied m s (freqWrite a0 a1 a2) := by
  unfold freqWrite
  repeat' with_reducible first
    | exact h | apply clusRefused_supplied | apply freqApply_supplied | apply fdSet_supplied | apply Supplied.ite
theorem clusReg_supplied {s} {a0} {a1} {a2} {a3} {a4} (h : Supplied m s a0) : Supplied m s (clusReg a0 a1 a2 a3 a4) := by
  unfold clusReg
  repeat' first
    | with_reducible first
        | exact h | apply coreTargets_supplied | apply holdWrite_supplied | apply setPointWrite_supplied | apply freqWrite_supplied
        | apply wr_supplied
    | split
theorem rstRefused_supplied {s} {a0} {a1} {a2} {a3} (h : Supplied m s a0) : Supplied m s (rstRefused a0 a1 a2 a3) := by
  unfold rstRefused
  repeat' with_reducible first
    | exact h | apply raiseInt_supplied | apply errAt_supplied | apply fdSet_supplied
theorem dieRstCore_supplied {s} {a0} {a1} {a2} (h : Supplied m s a0) : Supplied m s (dieRstCore a0 a1 a2) := by
  unfold dieRstCore
  repeat' with_reducible first
    | exact h | apply rstRefused_supplied | apply fdSet_supplied | apply coreReset_supplied | apply Supplied.ite
theorem pllRelock_supplied {s} {a0} {a1} (h : Supplied m s a0) : Supplied m s (pllRelock a0 a1) := by
  unfold pllRelock
  repeat' with_reducible first
    | exact h | apply fdSet_supplied | apply Supplied.ite
theorem syncHold_supplied {s} {a0} {a1} (h : Supplied m s a0) : Supplied m s (syncHold a0 a1) := by
  unfold syncHold
  repeat' with_reducible first
    | exact h | apply railUp_supplied | apply fdSet_supplied | apply railDown_supplied | apply Supplied.ite
theorem clusterReset_supplied {s} {a0} {a1} (h : Supplied m s a0) : Supplied m s (clusterReset a0 a1) := by
  unfold clusterReset
  repeat' with_reducible first
    | exact h | exact Supplied.refl _ | apply setCstate_supplied | apply coreReset_supplied | apply clearPages_supplied | apply fdSet_supplied
    | apply pllRelock_supplied | apply railUp_supplied | apply railDown_supplied | apply applyTarget_supplied | apply retargetAll_supplied
    | apply bump_supplied
    | apply syncHold_supplied | (intro _) | apply Supplied.ite | apply Supplied.folds
theorem dieRstClus_supplied {s} {a0} {a1} {a2} (h : Supplied m s a0) : Supplied m s (dieRstClus a0 a1 a2) := by
  unfold dieRstClus
  repeat' with_reducible first
    | exact h | apply rstRefused_supplied | apply fdSet_supplied | apply clusterReset_supplied | apply Supplied.ite
theorem dieKick_supplied {s} {a0} {a1} {a2} (h : Supplied m s a0) : Supplied m s (dieKick a0 a1 a2) := by
  unfold dieKick
  repeat' with_reducible first
    | exact h | apply fdSet_supplied | apply Supplied.ite
theorem updDesc_supplied {s} {a0} {a1} {a2} {a3} (h : Supplied m s a0) : Supplied m s (updDesc a0 a1 a2 a3) := h.trans ⟨rfl, fun _ => rfl⟩
theorem dmaAsk_supplied {s} {a0} {a1} {a2} {a3} (h : Supplied m s a0) : Supplied m s (dmaAsk a0 a1 a2 a3) := by
  fun_induction dmaAsk
  repeat' with_reducible first
    | exact h | apply rangeAsk_supplied | apply updDesc_supplied | refine Supplied.fst (by assumption) ?_ | apply_assumption
theorem dmaAskAll_supplied {s} {a0} {a1} (h : Supplied m s a0) : Supplied m s (dmaAskAll a0 a1) := by
  unfold dmaAskAll
  repeat' with_reducible first
    | exact h | exact Supplied.refl _ | apply dmaAsk_supplied | (intro _) | apply Supplied.folds
theorem dmaFinish_supplied {s} {a0} {a1} {a2} {a3} (h : Supplied m s a0) : Supplied m s (dmaFinish a0 a1 a2 a3) := by
  unfold dmaFinish
  repeat' with_reducible first
    | exact h | apply rangeRelease_supplied | apply dmaAskAll_supplied | apply setCore_supplied | apply bump_supplied | apply setOutcome_supplied
    | apply Supplied.ite
theorem haltCore_supplied {s} {a0} {a1} (h : Supplied m s a0) : Supplied m s (haltCore a0 a1) := by
  unfold haltCore
  repeat' with_reducible first
    | exact h | exact Supplied.refl _ | apply setSeq_supplied | apply fdSet_supplied | apply setSeqSt_supplied | apply setCore_supplied
    | apply dmaFinish_supplied
    | (intro _) | apply Supplied.ite | apply Supplied.folds
theorem closeCore_supplied {s} {a0} {a1} (h : Supplied m s a0) : Supplied m s (closeCore a0 a1) := by
  unfold closeCore
  repeat' with_reducible first
    | exact h | exact Supplied.refl _ | apply noticeOut_supplied | apply endAll_supplied | apply setChan_supplied | apply setHandle_supplied
    | (intro _)
    | apply Supplied.ite | apply Supplied.folds
theorem regenCore_supplied {s} {a0} {a1} {a2} (h : Supplied m s a0) : Supplied m s (regenCore a0 a1 a2) := h.trans ⟨rfl, fun _ => rfl⟩
theorem clearQe_supplied {s} {a0} {a1} (h : Supplied m s a0) : Supplied m s (clearQe a0 a1) := h.trans ⟨rfl, fun _ => rfl⟩
theorem clearUnits_supplied {s} {a0} {a1} (h : Supplied m s a0) : Supplied m s (clearUnits a0 a1) := h.trans ⟨rfl, fun _ => rfl⟩
theorem clearCore_supplied {s} {a0} {a1} (h : Supplied m s a0) : Supplied m s (clearCore a0 a1) := by
  unfold clearCore
  repeat' with_reducible first
    | exact h | exact Supplied.refl _ | apply fdSet_supplied | apply qFlush_supplied | apply setSeqSt_supplied | apply setSeq_supplied
    | apply clearQe_supplied
    | apply bumpBy_supplied | apply startFlow_supplied | apply startUnits_supplied | apply clearUnits_supplied | (intro _) | apply Supplied.folds
theorem ctxOpCore_supplied {s} {a0} {a1} {a2} {a3} (h : Supplied m s a0) : Supplied m s (ctxOpCore a0 a1 a2 a3) := by
  unfold ctxOpCore
  repeat' first
    | with_reducible first
        | exact h | apply haltCore_supplied | apply closeCore_supplied | apply regenCore_supplied | apply clearCore_supplied
    | split
theorem dieCtxOp_supplied {s} {a0} {a1} {a2} (h : Supplied m s a0) : Supplied m s (dieCtxOp a0 a1 a2) := by
  unfold dieCtxOp
  repeat' with_reducible first
    | exact h | exact Supplied.refl _ | apply raiseInt_supplied | apply errAt_supplied | apply fdSet_supplied | apply ctxOpCore_supplied
    | apply setHub_supplied
    | (intro _) | apply Supplied.ite | apply Supplied.folds
theorem dieReg_supplied {s} {a0} {a1} {a2} {a3} {a4} (h : Supplied m s a0) : Supplied m s (dieReg a0 a1 a2 a3 a4) := by
  unfold dieReg
  repeat' first
    | with_reducible first
        | exact h | apply dieRstCore_supplied | apply dieRstClus_supplied | apply dieKick_supplied | apply dieCtxOp_supplied | apply wr_supplied
    | split
theorem setStack_supplied {s} {a0} {a1} {a2} (h : Supplied m s a0) : Supplied m s (setStack a0 a1 a2) := h.trans ⟨rfl, fun _ => rfl⟩
theorem memTrain_supplied {s} {a0} {a1} {a2} (h : Supplied m s a0) : Supplied m s (memTrain a0 a1 a2) := h.trans ⟨rfl, fun _ => rfl⟩
theorem recWrite_supplied {s} {a0} {a1} {a2} (h : Supplied m s a0) : Supplied m s (recWrite a0 a1 a2) := h.trans ⟨rfl, fun _ => rfl⟩
theorem grantWrite_supplied {s} {a0} {a1} {a2} (h : Supplied m s a0) : Supplied m s (grantWrite a0 a1 a2) := h.trans ⟨rfl, fun _ => rfl⟩
theorem memcRefused_supplied {s} {a0} {a1} {a2} (h : Supplied m s a0) : Supplied m s (memcRefused a0 a1 a2) := by
  unfold memcRefused
  repeat' with_reducible first
    | exact h | apply bankRefused_supplied
theorem sliceEvacuate_supplied {s} {a0} {a1} (h : Supplied m s a0) : Supplied m s (sliceEvacuate a0 a1) := by
  unfold sliceEvacuate
  repeat' with_reducible first
    | exact h | apply memcRefused_supplied | apply setSlice_supplied | apply Supplied.ite
theorem gradeInputs_supplied {s} {a0} (h : Supplied m s a0) : Supplied m s (gradeInputs a0) := by
  unfold gradeInputs
  repeat' with_reducible first
    | exact h | exact Supplied.refl _ | apply fdSet_supplied | apply wr_supplied | (intro _) | apply Supplied.folds
theorem pldmEvent_supplied {s} {a0} {a1} {a2} (h : Supplied m s a0) : Supplied m s (pldmEvent a0 a1 a2) := by
  unfold pldmEvent
  repeat' with_reducible first
    | exact h | apply setHost_supplied | apply bump_supplied | apply Supplied.ite
theorem msix_supplied {s} {a0} {a1} {a2} (h : Supplied m s a0) : Supplied m s (msix a0 a1 a2) := by
  unfold msix
  repeat' with_reducible first
    | exact h | apply setHost_supplied | apply send_supplied | apply bump_supplied | apply Supplied.ite
theorem hostEvent_supplied {s} {a0} {a1} (h : Supplied m s a0) : Supplied m s (hostEvent a0 a1) := by
  unfold hostEvent
  repeat' with_reducible first
    | exact h | apply wr_supplied | apply msix_supplied | apply Supplied.ite
theorem setHeal_supplied {s} {a0} {a1} (h : Supplied m s a0) : Supplied m s (setHeal a0 a1) := h.trans ⟨rfl, fun _ => rfl⟩
theorem setFlash_supplied {s} {a0} {a1} (h : Supplied m s a0) : Supplied m s (setFlash a0 a1) := h.trans ⟨rfl, fun _ => rfl⟩
theorem hubLog_supplied {s} {a0} {a1} (h : Supplied m s a0) : Supplied m s (hubLog a0 a1) := by
  unfold hubLog
  repeat' with_reducible first
    | exact h | apply setHeal_supplied | apply setFlash_supplied | apply pldmEvent_supplied | apply hostEvent_supplied | apply Supplied.ite
theorem complete_supplied {s} {a0} {a1} {a2} {a3} {a4} {a5} {a6} (h : Supplied m s a0) : Supplied m s (complete a0 a1 a2 a3 a4 a5 a6) := by
  unfold complete
  repeat' with_reducible first
    | exact h | apply send_supplied | apply setRing_supplied | apply bump_supplied | apply msix_supplied | apply Supplied.ite
theorem syncHolds_supplied {s} {a0} {a1} (h : Supplied m s a0) : Supplied m s (syncHolds a0 a1) := by
  unfold syncHolds
  repeat' with_reducible first
    | exact h | exact Supplied.refl _ | apply syncHold_supplied | (intro _) | apply Supplied.folds
theorem ctxHold_supplied {s} {a0} {a1} (h : Supplied m s a0) : Supplied m s (ctxHold a0 a1) := by
  unfold ctxHold
  repeat' with_reducible first
    | exact h | apply syncHolds_supplied
theorem contextFail_supplied {s} {a0} {a1} {a2} {a3} (h : Supplied m s a0) : Supplied m s (contextFail a0 a1 a2 a3) := by
  unfold contextFail
  repeat' first
    | with_reducible first
        | exact h | exact Supplied.refl _ | apply hubLog_supplied | apply complete_supplied | apply setCtx_supplied | apply ctxHold_supplied
        | apply hostEvent_supplied | apply msix_supplied | (intro _) | apply Supplied.folds
    | (dsimp only; split)
theorem setDieCause_supplied {s} {a0} {a1} {a2} (h : Supplied m s a0) : Supplied m s (setDieCause a0 a1 a2) := by
  unfold setDieCause
  repeat' with_reducible first
    | exact h | apply fdSet_supplied | apply Supplied.ite
theorem setCause_supplied {s} {a0} {a1} (h : Supplied m s a0) : Supplied m s (setCause a0 a1) := h.trans ⟨rfl, fun _ => rfl⟩
theorem selfRefresh_supplied {s} {a0} {a1} (h : Supplied m s a0) : Supplied m s (selfRefresh a0 a1) := by
  unfold selfRefresh
  repeat' with_reducible first
    | exact h | exact Supplied.refl _ | apply setStack_supplied | apply serveAll_supplied | apply setSlice_supplied | apply fdSet_supplied | (intro _)
    | apply Supplied.ite | apply Supplied.folds
theorem moduleRegs_supplied {s} {a0} (h : Supplied m s a0) : Supplied m s (moduleRegs a0) := h.trans ⟨rfl, fun _ => rfl⟩
theorem moduleClear_supplied {s a0 : State} {a1} (h : Supplied m s a0) : Supplied m s (moduleClear a0 a1) := by
  unfold moduleClear
  dsimp only
  split
  · exact h.trans ⟨rfl, fun _ => rfl⟩
  · exact h.trans ⟨rfl, fun _ => rfl⟩
theorem fuseBlow_supplied {s} {a0} {a1} {a2} (h : Supplied m s a0) : Supplied m s (fuseBlow a0 a1 a2) := by
  unfold fuseBlow
  repeat' first
    | with_reducible first
        | exact h | apply fdSet_supplied | apply wr_supplied
    | split
theorem fuseCut_supplied {s} {a0} (h : Supplied m s a0) : Supplied m s (fuseCut a0) := by
  unfold fuseCut
  repeat' first
    | with_reducible first
        | exact h | apply freeUsed_supplied | apply fuseBlow_supplied | apply Supplied.ite
    | split
theorem bridgesReset_supplied {s} {a0} {a1} (h : Supplied m s a0) : Supplied m s (bridgesReset a0 a1) := by
  unfold bridgesReset
  repeat' with_reducible first
    | exact h | exact Supplied.refl _ | apply wr_supplied | (intro _) | apply Supplied.folds
theorem setBanks_supplied {s} {a0} {a1} {a2} (h : Supplied m s a0) : Supplied m s (setBanks a0 a1 a2) := h.trans ⟨rfl, fun _ => rfl⟩
theorem coresOff_supplied {s} {a0} (h : Supplied m s a0) : Supplied m s (coresOff a0) := by
  unfold coresOff
  repeat' with_reducible first
    | exact h | exact Supplied.refl _ | apply setBanks_supplied | apply setCstate_supplied | (intro _) | apply Supplied.folds
theorem moduleDown_supplied {s} {a0} {a1} (h : Supplied m s a0) : Supplied m s (moduleDown a0 a1) := by
  unfold moduleDown
  repeat' with_reducible first
    | exact h | exact Supplied.refl _ | apply selfRefresh_supplied | apply moduleRegs_supplied | apply moduleClear_supplied | apply fuseCut_supplied
    | apply fdSet_supplied | apply bridgesReset_supplied | apply coresOff_supplied | apply setPst_supplied | apply setPins_supplied | (intro _)
    | apply Supplied.ite | apply Supplied.folds
theorem moduleReset_supplied {s} {a0} {a1} {a2} (h : Supplied m s a0) : Supplied m s (moduleReset a0 a1 a2) := by
  unfold moduleReset
  repeat' with_reducible first
    | exact h | exact Supplied.refl _ | apply setDieCause_supplied | apply setCause_supplied | apply moduleDown_supplied | apply setPins_supplied
    | apply bump_supplied | (intro _) | apply Supplied.folds
theorem gradeEval_supplied {s} {a0} (h : Supplied m s a0) : Supplied m s (gradeEval a0) := by
  unfold gradeEval
  repeat' with_reducible first
    | exact h | exact Supplied.refl _ | apply gradeInputs_supplied | apply raiseInt_supplied | apply fdSet_supplied | apply pldmEvent_supplied
    | apply hostEvent_supplied | apply contextFail_supplied | apply moduleReset_supplied | (intro _) | apply Supplied.ite | apply Supplied.folds
theorem mapChanged_supplied {s} {a0} {a1} (h : Supplied m s a0) : Supplied m s (mapChanged a0 a1) := by
  unfold mapChanged
  repeat' with_reducible first
    | exact h | apply gradeEval_supplied | apply pldmEvent_supplied | apply fdSet_supplied
theorem closeSlice_supplied {s} {a0} {a1} (h : Supplied False s a0) : Supplied False s (closeSlice a0 a1) := by
  unfold closeSlice
  repeat' with_reducible first
    | exact Supplied.refl _ | apply setSlice_supplied | (intro _) | apply Supplied.folds | exact h.closed _
theorem markClosed_supplied {s} {a0} {a1} (h : Supplied False s a0) : Supplied False s (markClosed a0 a1) := by
  unfold markClosed
  exact h.closed _
theorem fenceStack_supplied {s} {a0} {a1} (h : Supplied False s a0) : Supplied False s (fenceStack a0 a1) := by
  unfold fenceStack
  repeat' with_reducible first
    | exact h | exact Supplied.refl _ | apply closeSlice_supplied | apply markClosed_supplied | apply fdSet_supplied | (intro _)
    | apply Supplied.folds
theorem secondClosed_supplied {s} {a0} {a1} (h : Supplied False s a0) : Supplied False s (secondClosed a0 a1) := by
  unfold secondClosed
  repeat' with_reducible first
    | exact h | apply fenceStack_supplied | apply Supplied.ite
theorem cwSend_supplied {s} {a0} {a1} {a2} (h : Supplied m s a0) : Supplied m s (cwSend a0 a1 a2) := h.trans ⟨rfl, fun _ => rfl⟩
theorem askHome_supplied {s} {a0} {a1} (h : Supplied m s a0) : Supplied m s (askHome a0 a1) := by
  unfold askHome
  repeat' with_reducible first
    | exact h | exact Supplied.refl _ | apply cwSend_supplied | (intro _) | apply Supplied.ite | apply Supplied.folds
theorem fetchHome_supplied {s} {a0} {a1} {a2} (h : Supplied m s a0) : Supplied m s (fetchHome a0 a1 a2) := by
  unfold fetchHome
  repeat' with_reducible first
    | exact h | apply setTwin_supplied | apply askHome_supplied | apply Supplied.ite
theorem fetchHomes_supplied {s} {a0} (h : Supplied m s a0) : Supplied m s (fetchHomes a0) := by
  unfold fetchHomes
  repeat' with_reducible first
    | exact h | exact Supplied.refl _ | apply fetchHome_supplied | (intro _) | apply Supplied.ite | apply Supplied.folds
theorem sliceCtl_supplied {s} {a0} {a1} {a2} (h : Supplied False s a0) : Supplied False s (sliceCtl a0 a1 a2) := by
  unfold sliceCtl
  repeat' with_reducible first
    | exact h | apply sliceEvacuate_supplied | apply memcRefused_supplied | apply serveAll_supplied | apply mapChanged_supplied
    | apply closeSlice_supplied
    | apply setSlice_supplied | apply secondClosed_supplied | apply fetchHomes_supplied | apply Supplied.ite
theorem memcReg_supplied {s} {a0} {a1} {a2} {a3} {a4} (h : Supplied False s a0) : Supplied False s (memcReg a0 a1 a2 a3 a4) := by
  unfold memcReg
  repeat' first
    | with_reducible first
        | exact h | apply memTrain_supplied | apply recWrite_supplied | apply grantWrite_supplied | apply sliceCtl_supplied
        | apply placementWrite_supplied
        | apply wr_supplied | apply Supplied.ite
    | split
theorem setGauge_supplied {s} {a0} {a1} {a2} {a3} (h : Supplied m s a0) : Supplied m s (setGauge a0 a1 a2 a3) := h.trans ⟨rfl, fun _ => rfl⟩
theorem gaugeOpen_supplied {s} {a0} {a1} {a2} {a3} (h : Supplied m s a0) : Supplied m s (gaugeOpen a0 a1 a2 a3) := h.trans ⟨rfl, fun _ => rfl⟩
theorem gaugeApply_supplied {s} {a0} {a1} {a2} {a3} (h : Supplied m s a0) : Supplied m s (gaugeApply a0 a1 a2 a3) := by
  unfold gaugeApply
  repeat' with_reducible first
    | exact h | apply bump_supplied | apply setGauge_supplied | apply raiseInt_supplied | apply Supplied.ite
theorem gaugeClose_supplied {s} {a0} {a1} {a2} {a3} (h : Supplied m s a0) : Supplied m s (gaugeClose a0 a1 a2 a3) := by
  unfold gaugeClose
  repeat' first
    | with_reducible first
        | exact h | exact Supplied.refl _ | apply gaugeApply_supplied | apply wr64_supplied | apply wr_supplied | apply raiseInt_supplied
        | apply bump_supplied
        | apply gaugeOpen_supplied | (intro _) | apply Supplied.ite | apply Supplied.folds
    | split
theorem gaugeCtl_supplied {s} {a0} {a1} {a2} {a3} (h : Supplied m s a0) : Supplied m s (gaugeCtl a0 a1 a2 a3) := by
  unfold gaugeCtl
  repeat' with_reducible first
    | exact h | apply errAt_supplied | apply gaugeOpen_supplied | apply fdSet_supplied | apply gaugeClose_supplied | apply Supplied.ite
theorem gaugeReg_supplied {s} {a0} {a1} {a2} {a3} {a4} {a5} (h : Supplied m s a0) : Supplied m s (gaugeReg a0 a1 a2 a3 a4 a5) := by
  unfold gaugeReg
  repeat' with_reducible first
    | exact h | apply gaugeCtl_supplied | apply errAt_supplied | apply wr_supplied | apply Supplied.ite
theorem ringCfg_supplied {s} {a0} {a1} {a2} (h : Supplied m s a0) : Supplied m s (ringCfg a0 a1 a2).1 := by
  unfold ringCfg
  repeat' first
    | with_reducible first
        | exact h | apply setRing_supplied
    | split
    | (dsimp only; split)
theorem mailboxIn_supplied {s} {a0} {a1} {a2} (h : Supplied m s a0) : Supplied m s (mailboxIn a0 a1 a2) := h.trans ⟨rfl, fun _ => rfl⟩
theorem mailboxWrite_supplied {s} {a0} {a1} {a2} (h : Supplied m s a0) : Supplied m s (mailboxWrite a0 a1 a2) := by
  unfold mailboxWrite
  repeat' with_reducible first
    | exact h | apply mailboxIn_supplied | apply Supplied.ite
theorem doorbell_supplied {s} {a0} {a1} {a2} (h : Supplied m s a0) : Supplied m s (doorbell a0 a1 a2) := by
  unfold doorbell
  repeat' with_reducible first
    | exact h | apply setRing_supplied | apply raiseInt_supplied | apply errAt_supplied | apply hostEvent_supplied | apply Supplied.ite
theorem hostReg_supplied {s} {a0} {a1} {a2} {a3} (h : Supplied m s a0) : Supplied m s (hostReg a0 a1 a2 a3) := by
  unfold hostReg
  repeat' with_reducible first
    | exact h | apply ringCfg_supplied | apply rangeAt_supplied | apply notReadyAt_supplied | apply mailboxWrite_supplied | apply doorbell_supplied
    | apply wr_supplied | apply Supplied.ite
theorem authReg_supplied {s} {a0} {a1} {a2} {a3} (h : Supplied m s a0) : Supplied m s (authReg a0 a1 a2 a3) := by
  unfold authReg
  repeat' first
    | with_reducible first
        | exact h | apply fdSet_supplied | apply setHost_supplied | apply wr_supplied | apply Supplied.ite
    | split
theorem fuseArm_supplied {s} {a0} {a1} {a2} (h : Supplied m s a0) : Supplied m s (fuseArm a0 a1 a2) := by
  unfold fuseArm
  repeat' with_reducible first
    | exact h | apply fdSet_supplied | apply setHost_supplied | apply Supplied.ite
theorem fuseCmd_supplied {s} {a0} {a1} {a2} {a3} {a4} (h : Supplied m s a0) : Supplied m s (fuseCmd a0 a1 a2 a3 a4) := by
  unfold fuseCmd
  repeat' with_reducible first
    | exact h | apply raiseInt_supplied | apply errAt_supplied | apply bump_supplied | apply fdSet_supplied | apply send_supplied
    | apply setHost_supplied
    | apply Supplied.ite
theorem fuseReg_supplied {s} {a0} {a1} {a2} {a3} {a4} (h : Supplied m s a0) : Supplied m s (fuseReg a0 a1 a2 a3 a4) := by
  unfold fuseReg
  repeat' first
    | with_reducible first
        | exact h | apply fuseArm_supplied | apply fuseCmd_supplied | apply wr_supplied | apply Supplied.ite
    | split
theorem postAbort_supplied {s} {a0} {a1} {a2} {a3} (h : Supplied m s a0) : Supplied m s (postAbort a0 a1 a2 a3) := by
  unfold postAbort
  repeat' first
    | with_reducible first
        | exact h | apply postAll_supplied
    | split
theorem abortAll_supplied {s} {a0} {a1} (h : Supplied m s a0) : Supplied m s (abortAll a0 a1) := by
  unfold abortAll
  repeat' with_reducible first
    | exact h | exact Supplied.refl _ | apply postAbort_supplied | (intro _) | apply Supplied.ite | apply Supplied.folds
theorem visitOver_supplied {s} {a0} {a1} {a2} {a3} (h : Supplied m s a0) : Supplied m s (visitOver a0 a1 a2 a3) := h.trans ⟨rfl, fun _ => rfl⟩
theorem visitDrop_supplied {s} {a0} {a1} (h : Supplied m s a0) : Supplied m s (visitDrop a0 a1) := by
  unfold visitDrop
  repeat' first
    | with_reducible first
        | exact h | apply visitOver_supplied | apply setHeal_supplied
    | split
theorem setMover_supplied {s} {a0} {a1} {a2} (h : Supplied m s a0) : Supplied m s (setMover a0 a1 a2) := h.trans ⟨rfl, fun _ => rfl⟩
theorem withMate_supplied {s} {a0} {a1} {a2} (h : Supplied m s a0) (h2 : ∀ s x, Supplied m s (a2 s x)) : Supplied m s (withMate a0 a1 a2) := by
  unfold withMate
  repeat' with_reducible first
    | exact h | refine Supplied.trans ?_ (h2 ..) | apply Supplied.ite
theorem joinPool_supplied {s} {a0} {a1} (h : Supplied m s a0) : Supplied m s (joinPool a0 a1) := by
  unfold joinPool
  repeat' with_reducible first
    | exact h | apply fdSet_supplied | apply bindCore_supplied | apply applyTarget_supplied | apply setTarget_supplied | apply Supplied.ite
theorem moveAborted_supplied {s} {a0} {a1} {a2} (h : Supplied m s a0) : Supplied m s (moveAborted a0 a1 a2) := by
  unfold moveAborted
  repeat' with_reducible first
    | exact h | exact Supplied.refl _ | apply setMover_supplied | apply withMate_supplied | apply joinPool_supplied | apply raiseInt_supplied
    | apply errAt_supplied | (intro _) | apply Supplied.ite
theorem movesEnd_supplied {s} {a0} {a1} {a2} (h : Supplied m s a0) : Supplied m s (movesEnd a0 a1 a2) := by
  unfold movesEnd
  repeat' with_reducible first
    | exact h | exact Supplied.refl _ | apply moveAborted_supplied | (intro _) | apply Supplied.ite | apply Supplied.folds
theorem movesLose_supplied {s} {a0} {a1} (h : Supplied m s a0) : Supplied m s (movesLose a0 a1) := by
  unfold movesLose
  repeat' with_reducible first
    | exact h | apply movesEnd_supplied
theorem dieCores_supplied {s} {a0} {a1} (h : Supplied m s a0) : Supplied m s (dieCores a0 a1) := by
  unfold dieCores
  repeat' with_reducible first
    | exact h | exact Supplied.refl _ | apply setCore_supplied | apply visitDrop_supplied | apply movesLose_supplied | apply fdSet_supplied
    | (intro _)
    | apply Supplied.ite | apply Supplied.folds
theorem setLog_supplied {s} {a0} {a1} {a2} (h : Supplied m s a0) : Supplied m s (setLog a0 a1 a2) := h.trans ⟨rfl, fun _ => rfl⟩
theorem dieReset_supplied {s} {a0} {a1} {a2} (h : Supplied m s a0) : Supplied m s (dieReset a0 a1 a2) := by
  unfold dieReset
  repeat' with_reducible first
    | exact h | exact Supplied.refl _ | apply selfRefresh_supplied | apply dieCores_supplied | apply clearPages_supplied | apply fdSet_supplied
    | apply setLog_supplied | apply bridgesReset_supplied | apply setNet_supplied | apply setHub_supplied | apply setDieCause_supplied | (intro _)
    | apply Supplied.folds
theorem portDieReset_supplied {s} {a0} {a1} {a2} (h : Supplied m s a0) : Supplied m s (portDieReset a0 a1 a2) := by
  unfold portDieReset
  repeat' with_reducible first
    | exact h | exact Supplied.refl _ | apply setPort_supplied | apply clearPages_supplied | apply fdSet_supplied | apply bridgesReset_supplied
    | apply setNet_supplied | apply setHub_supplied | apply setDieCause_supplied | (intro _) | apply Supplied.folds
theorem resetDie_supplied {s} {a0} {a1} {a2} (h : Supplied m s a0) : Supplied m s (resetDie a0 a1 a2) := by
  unfold resetDie
  repeat' with_reducible first
    | exact h | apply gradeEval_supplied | apply abortAll_supplied | apply dieReset_supplied | apply moduleReset_supplied
    | apply portDieReset_supplied
    | apply Supplied.ite
theorem rstCtl_supplied {s} {a0} {a1} {a2} (h : Supplied m s a0) : Supplied m s (rstCtl a0 a1 a2) := by
  unfold rstCtl
  repeat' with_reducible first
    | exact h | apply fdSet_supplied | apply raiseInt_supplied | apply errAt_supplied | apply setHub_supplied | apply resetDie_supplied
    | apply Supplied.ite
theorem rstClr_supplied {s} {a0} {a1} (h : Supplied m s a0) : Supplied m s (rstClr a0 a1) := by
  unfold rstClr
  repeat' with_reducible first
    | exact h | apply wr_supplied | apply Supplied.ite
theorem aonReg_supplied {s} {a0} {a1} {a2} {a3} {a4} (h : Supplied m s a0) : Supplied m s (aonReg a0 a1 a2 a3 a4) := by
  unfold aonReg
  repeat' first
    | with_reducible first
        | exact h | apply rstCtl_supplied | apply rstClr_supplied | apply wr_supplied
    | split
theorem clkCtl_supplied {s} {a0} {a1} {a2} (h : Supplied m s a0) : Supplied m s (clkCtl a0 a1 a2) := by
  unfold clkCtl
  repeat' with_reducible first
    | exact h | apply fdSet_supplied | apply Supplied.ite
theorem standbyEnter_supplied {s} {a0} (h : Supplied m s a0) : Supplied m s (standbyEnter a0) := by
  unfold standbyEnter
  repeat' first
    | with_reducible first
        | exact h | apply raiseInt_supplied | apply errAt_supplied | apply moduleDown_supplied | apply setPins_supplied
    | split
    | (dsimp only; split)
theorem pwrReg_supplied {s} {a0} {a1} {a2} {a3} {a4} (h : Supplied m s a0) : Supplied m s (pwrReg a0 a1 a2 a3 a4) := by
  unfold pwrReg
  repeat' with_reducible first
    | exact h | apply standbyEnter_supplied | apply wr_supplied | apply Supplied.ite
theorem signAll_supplied {s} {a0} {a1} {a2} (h : Supplied m s a0) : Supplied m s (signAll a0 a1 a2) := by
  unfold signAll
  repeat' with_reducible first
    | exact h | exact Supplied.refl _ | apply fdSet_supplied | (intro _) | apply Supplied.folds
theorem epochFlip_supplied {s} {a0} {a1} {a2} (h : Supplied m s a0) : Supplied m s (epochFlip a0 a1 a2) := by
  unfold epochFlip
  repeat' with_reducible first
    | exact h | apply bankRefused_supplied | apply signAll_supplied | apply Supplied.ite | apply Supplied.withFlip
theorem loseSlice_supplied {s} {a0} {a1} (h : Supplied m s a0) : Supplied m s (loseSlice a0 a1) := h.trans ⟨rfl, fun _ => rfl⟩
theorem loseUnread_supplied {s} {a0} {a1} (h : Supplied m s a0) : Supplied m s (loseUnread a0 a1) := by
  unfold loseUnread
  repeat' first
    | with_reducible first
        | exact h | exact Supplied.refl _ | apply loseSlice_supplied | (intro _) | apply Supplied.ite | apply Supplied.folds
    | split
theorem retireBank_supplied {s} {a0} {a1} (h : Supplied m s a0) : Supplied m s (retireBank a0 a1) := by
  unfold retireBank
  repeat' with_reducible first
    | exact h | apply signAll_supplied
theorem signReg_supplied {s} {a0} {a1} {a2} {a3} {a4} (h : Supplied m s a0) : Supplied m s (signReg a0 a1 a2 a3 a4) := by
  unfold signReg
  repeat' first
    | with_reducible first
        | exact h | apply epochFlip_supplied | apply loseUnread_supplied | apply signpostInvalidate_supplied | apply retireBank_supplied
        | apply wr_supplied
        | apply bankRefused_supplied | apply Supplied.ite
    | split
theorem healCsel_supplied {s} {a0} {a1} {a2} (h : Supplied m s a0) : Supplied m s (healCsel a0 a1 a2) := h.trans ⟨rfl, fun _ => rfl⟩
theorem setLadder_supplied {s} {a0} {a1} {a2} (h : Supplied m s a0) : Supplied m s (setLadder a0 a1 a2) := by
  unfold setLadder
  repeat' with_reducible first
    | exact h | apply setHeal_supplied | apply clusVolts_supplied | apply raiseInt_supplied | apply bump_supplied | apply Supplied.ite
theorem logAdd_supplied {s} {a0} {a1} {a2} (h : Supplied m s a0) : Supplied m s (logAdd a0 a1 a2) := by
  unfold logAdd
  repeat' with_reducible first
    | exact h | apply raiseInt_supplied | apply errAt_supplied | apply bump_supplied | apply setLog_supplied | apply Supplied.ite
theorem healCctl_supplied {s} {a0} {a1} {a2} (h : Supplied m s a0) : Supplied m s (healCctl a0 a1 a2) := by
  unfold healCctl
  repeat' with_reducible first
    | exact h | apply setLadder_supplied | apply logAdd_supplied | apply Supplied.ite
theorem pairWrite_supplied {s} {a0} {a1} {a2} {a3} (h : Supplied m s a0) : Supplied m s (pairWrite a0 a1 a2 a3) := by
  unfold pairWrite
  repeat' first
    | with_reducible first
        | exact h | apply errAt_supplied | apply wr_supplied
    | split
    | (dsimp only; split)
theorem healReg_supplied {s} {a0} {a1} {a2} {a3} {a4} (h : Supplied m s a0) : Supplied m s (healReg a0 a1 a2 a3 a4) := by
  unfold healReg
  repeat' first
    | with_reducible first
        | exact h | apply rangeAt_supplied | apply wr_supplied | apply healCsel_supplied | apply healCctl_supplied | apply pairWrite_supplied
        | apply Supplied.ite
    | split
theorem closeRefused_supplied {s} {a0} {a1} {a2} (h : Supplied m s a0) : Supplied m s (closeRefused a0 a1 a2) := by
  unfold closeRefused
  repeat' with_reducible first
    | exact h | apply raiseInt_supplied | apply errAt_supplied | apply fdSet_supplied
theorem markOpen_supplied {s} {a0} {a1} (h : Supplied False s a0) : Supplied False s (markOpen a0 a1) := by
  unfold markOpen
  exact h.closed _
theorem awaitTest_supplied {s} {a0} {a1} (h : Supplied m s a0) : Supplied m s (awaitTest a0 a1) := by
  unfold awaitTest
  repeat' with_reducible first
    | exact h | exact Supplied.refl _ | apply setBanks_supplied | apply setCstate_supplied | apply setBank_supplied | apply setHeal_supplied
    | apply setLadder_supplied | (intro _) | apply Supplied.ite | apply Supplied.folds
theorem setPState_supplied {s} {a0} {a1} {a2} (h : Supplied m s a0) : Supplied m s (setPState a0 a1 a2) := h.trans ⟨rfl, fun _ => rfl⟩
theorem portEnable_supplied {s} {a0} {a1} (h : Supplied m s a0) : Supplied m s (portEnable a0 a1) := by
  unfold portEnable
  repeat' with_reducible first
    | exact h | apply setPState_supplied | apply fdSet_supplied | apply Supplied.ite
theorem withdrawUnit_supplied {s} {a0} {a1} {a2} (h : Supplied False s a0) : Supplied False s (withdrawUnit a0 a1 a2) := by
  unfold withdrawUnit
  repeat' first
    | with_reducible first
        | exact h | exact Supplied.refl _ | apply setHeal_supplied | apply markOpen_supplied | apply awaitTest_supplied | apply setBank_supplied
        | apply portEnable_supplied | (intro _) | apply Supplied.ite | apply Supplied.folds
    | split
theorem fenceCore_supplied {s} {a0} {a1} (h : Supplied False s a0) : Supplied False s (fenceCore a0 a1) := by
  unfold fenceCore
  repeat' with_reducible first
    | exact h | apply visitDrop_supplied | apply movesLose_supplied | apply markClosed_supplied | apply coreFields_supplied | apply setCore_supplied
    | apply setBanks_supplied | apply setCstate_supplied
theorem fencePair_supplied {s} {a0} {a1} (h : Supplied False s a0) : Supplied False s (fencePair a0 a1) := by
  unfold fencePair
  repeat' with_reducible first
    | exact h | exact Supplied.refl _ | apply fenceCore_supplied | (intro _) | apply Supplied.folds
theorem fenceCluster_supplied {s} {a0} {a1} (h : Supplied False s a0) : Supplied False s (fenceCluster a0 a1) := by
  unfold fenceCluster
  repeat' with_reducible first
    | exact h | exact Supplied.refl _ | apply fenceCore_supplied | apply markClosed_supplied | apply fdSet_supplied | (intro _) | apply Supplied.folds
theorem fenceRouter_supplied {s} {a0} {a1} (h : Supplied False s a0) : Supplied False s (fenceRouter a0 a1) := by
  unfold fenceRouter
  repeat' with_reducible first
    | exact h | apply fencePair_supplied | apply markClosed_supplied | apply setRout_supplied
theorem queueBlk_supplied {s} {a0} {a1} {a2} (h : Supplied m s a0) : Supplied m s (queueBlk a0 a1 a2) := h.trans ⟨rfl, fun _ => rfl⟩
theorem portLeft_supplied {s} {a0} {a1} (h : Supplied m s a0) : Supplied m s (portLeft a0 a1) := by
  unfold portLeft
  repeat' with_reducible first
    | exact h | apply raiseInt_supplied | apply errAt_supplied
theorem reroute_supplied {s} {a0} {a1} (h : Supplied m s a0) : Supplied m s (reroute a0 a1) := by
  unfold reroute
  repeat' first
    | with_reducible first
        | exact h | exact Supplied.refl _ | apply setPort_supplied | apply epAdd_supplied | apply xAdd_supplied | apply setNet_supplied | (intro _)
        | apply Supplied.ite | apply Supplied.folds
    | (dsimp only; split)
theorem portOff_supplied {s} {a0} {a1} {a2} (h : Supplied m s a0) : Supplied m s (portOff a0 a1 a2) := by
  unfold portOff
  repeat' with_reducible first
    | exact h | apply reroute_supplied | apply setPState_supplied | apply wr_supplied | apply setPort_supplied | apply fdSet_supplied
theorem portDown_supplied {s} {a0} {a1} (h : Supplied m s a0) : Supplied m s (portDown a0 a1) := by
  unfold portDown
  repeat' with_reducible first
    | exact h | apply portLeft_supplied | apply bump_supplied | apply portOff_supplied
theorem laneFail_supplied {s} {a0} {a1} {a2} {a3} (h : Supplied m s a0) : Supplied m s (laneFail a0 a1 a2 a3) := by
  unfold laneFail
  repeat' first
    | with_reducible first
        | exact h | apply fdSet_supplied | apply report_supplied | apply raiseInt_supplied | apply queueBlk_supplied | apply setPort_supplied
        | apply portDown_supplied | apply Supplied.ite
    | split
    | (dsimp only; split)
theorem fenceLane_supplied {s} {a0} {a1} {a2} {a3} (h : Supplied False s a0) : Supplied False s (fenceLane a0 a1 a2 a3) := by
  unfold fenceLane
  repeat' with_reducible first
    | exact h | apply markClosed_supplied | apply laneFail_supplied | apply fdSet_supplied | apply Supplied.ite
theorem portDisable_supplied {s} {a0} {a1} (h : Supplied m s a0) : Supplied m s (portDisable a0 a1) := by
  unfold portDisable
  repeat' with_reducible first
    | exact h | apply portLeft_supplied | apply portOff_supplied | apply Supplied.ite
theorem fencePort_supplied {s} {a0} {a1} (h : Supplied False s a0) : Supplied False s (fencePort a0 a1) := by
  unfold fencePort
  repeat' with_reducible first
    | exact h | apply portDisable_supplied | apply markClosed_supplied
theorem fenceSlice_supplied {s} {a0} {a1} (h : Supplied False s a0) : Supplied False s (fenceSlice a0 a1) := by
  unfold fenceSlice
  repeat' with_reducible first
    | exact h | apply loseSlice_supplied | apply closeSlice_supplied | apply fetchHomes_supplied | apply secondClosed_supplied | apply Supplied.ite
theorem fenceDie_supplied {s} {a0} {a1} (h : Supplied False s a0) : Supplied False s (fenceDie a0 a1) := by
  unfold fenceDie
  repeat' with_reducible first
    | exact h | exact Supplied.refl _ | apply markClosed_supplied | apply fenceCluster_supplied | apply fenceRouter_supplied
    | apply fenceStack_supplied
    | apply fencePort_supplied | apply fdSet_supplied | (intro _) | apply Supplied.ite | apply Supplied.folds
theorem fenceUnit_supplied {s} {a0} {a1} (h : Supplied False s a0) : Supplied False s (fenceUnit a0 a1) := by
  unfold fenceUnit
  repeat' first
    | with_reducible first
        | exact h | apply fencePair_supplied | apply fenceCluster_supplied | apply fenceRouter_supplied | apply markClosed_supplied
        | apply fenceLane_supplied
        | apply fencePort_supplied | apply fenceSlice_supplied | apply fenceStack_supplied | apply fenceDie_supplied
    | split
theorem workLost_supplied {s} {a0} {a1} (h : Supplied m s a0) : Supplied m s (workLost a0 a1) := by
  unfold workLost
  repeat' with_reducible first
    | exact h | apply postAbort_supplied | apply contextFail_supplied | apply setCtx_supplied | apply Supplied.ite
theorem closeUnit_supplied {s} {a0} {a1} (h : Supplied False s a0) : Supplied False s (closeUnit a0 a1) := by
  unfold closeUnit
  repeat' first
    | with_reducible first
        | exact h | exact Supplied.refl _ | apply mapChanged_supplied | apply raiseInt_supplied | apply bump_supplied | apply fenceUnit_supplied
        | apply workLost_supplied | (intro _) | apply Supplied.folds
    | split
theorem healClose_supplied {s} {a0} {a1} {a2} (h : Supplied False s a0) : Supplied False s (healClose a0 a1 a2) := by
  unfold healClose
  repeat' first
    | with_reducible first
        | exact h | apply closeRefused_supplied | apply fdSet_supplied | apply mapChanged_supplied | apply bump_supplied | apply withdrawUnit_supplied
        | apply closeUnit_supplied | apply Supplied.ite
    | split
theorem mvLatch_supplied {s} {a0} (h : Supplied m s a0) : Supplied m s (mvLatch a0) := h.trans ⟨rfl, fun _ => rfl⟩
theorem poolCheck_supplied {s} {a0} {a1} (h : Supplied m s a0) : Supplied m s (poolCheck a0 a1) := by
  unfold poolCheck
  repeat' with_reducible first
    | exact h | apply hubLog_supplied | apply freeUsed_supplied | apply Supplied.ite
theorem moveStart_supplied {s} {a0} {a1} {a2} {a3} (h : Supplied m s a0) : Supplied m s (moveStart a0 a1 a2 a3) := by
  unfold moveStart
  repeat' with_reducible first
    | exact h | exact Supplied.refl _ | apply setMover_supplied | apply moveAborted_supplied | apply bump_supplied | apply raiseInt_supplied
    | apply errAt_supplied | apply poolCheck_supplied | apply withMate_supplied | apply applyTarget_supplied | apply setTarget_supplied | (intro _)
    | apply Supplied.ite
theorem moveAbort_supplied {s} {a0} {a1} (h : Supplied m s a0) : Supplied m s (moveAbort a0 a1) := by
  unfold moveAbort
  repeat' with_reducible first
    | exact h | apply moveAborted_supplied | apply Supplied.ite
theorem mvCtl_supplied {s} {a0} {a1} {a2} (h : Supplied m s a0) : Supplied m s (mvCtl a0 a1 a2) := by
  unfold mvCtl
  repeat' with_reducible first
    | exact h | apply setMover_supplied | apply notReadyAt_supplied | apply moveStart_supplied | apply moveAbort_supplied | apply Supplied.ite
theorem healHubReg_supplied {s} {a0} {a1} {a2} {a3} {a4} (h : Supplied False s a0) : Supplied False s (healHubReg a0 a1 a2 a3 a4) := by
  unfold healHubReg
  repeat' first
    | with_reducible first
        | exact h | apply healClose_supplied | apply mvLatch_supplied | apply wr_supplied | apply setMover_supplied | apply mvCtl_supplied
    | split
theorem eqAsk_supplied {s} {a0} {a1} {a2} (h : Supplied m s a0) : Supplied m s (eqAsk a0 a1 a2) := h.trans ⟨rfl, fun _ => rfl⟩
theorem eqAll_supplied {s} {a0} {a1} (h : Supplied m s a0) : Supplied m s (eqAll a0 a1) := by
  unfold eqAll
  repeat' with_reducible first
    | exact h | exact Supplied.refl _ | apply eqAsk_supplied | (intro _) | apply Supplied.ite | apply Supplied.folds
theorem portRetrain_supplied {s} {a0} {a1} (h : Supplied m s a0) : Supplied m s (portRetrain a0 a1) := by
  unfold portRetrain
  repeat' with_reducible first
    | exact h | apply setPort_supplied | apply portOff_supplied | apply eqAll_supplied | apply Supplied.ite
theorem portCtl_supplied {s} {a0} {a1} {a2} {a3} (h : Supplied m s a0) : Supplied m s (portCtl a0 a1 a2 a3) := by
  unfold portCtl
  repeat' with_reducible first
    | exact h | apply wr_supplied | apply portEnable_supplied | apply gradeEval_supplied | apply portDisable_supplied | apply portRetrain_supplied
    | apply Supplied.ite
theorem portExpect_supplied {s} {a0} {a1} {a2} (h : Supplied m s a0) : Supplied m s (portExpect a0 a1 a2) := by
  unfold portExpect
  repeat' with_reducible first
    | exact h | apply wr_supplied | apply portRetrain_supplied | apply Supplied.ite
theorem portRecWrite_supplied {s} {a0} {a1} {a2} (h : Supplied m s a0) : Supplied m s (portRecWrite a0 a1 a2) := h.trans ⟨rfl, fun _ => rfl⟩
theorem portReg_supplied {s} {a0} {a1} {a2} {a3} {a4} (h : Supplied m s a0) : Supplied m s (portReg a0 a1 a2 a3 a4) := by
  unfold portReg
  repeat' first
    | with_reducible first
        | exact h | apply portCtl_supplied | apply portExpect_supplied | apply portRecWrite_supplied | apply wr_supplied
    | split
theorem causeReg_supplied {s} {a0} {a1} {a2} {a3} (h : Supplied m s a0) : Supplied m s (causeReg a0 a1 a2 a3) := by
  unfold causeReg
  repeat' first
    | with_reducible first
        | exact h | apply notReadyAt_supplied | apply setTwin_supplied | apply wr_supplied | apply freeUsed_supplied | apply Supplied.ite
    | split
theorem xRefused_supplied {s} {a0} {a1} {a2} (h : Supplied m s a0) : Supplied m s (xRefused a0 a1 a2) := by
  unfold xRefused
  repeat' with_reducible first
    | exact h | apply raiseInt_supplied | apply errAt_supplied
theorem xctlWrite_supplied {s} {a0} {a1} {a2} (h : Supplied m s a0) : Supplied m s (xctlWrite a0 a1 a2) := by
  unfold xctlWrite
  repeat' first
    | with_reducible first
        | exact h | exact Supplied.refl _ | apply fdSet_supplied | apply xRefused_supplied | apply freeUsed_supplied | (intro _) | apply Supplied.ite
        | apply Supplied.folds | exact h.trans ⟨rfl, fun _ => rfl⟩
    | split
theorem setRoutes_supplied {s} {a0} {a1} {a2} (h : Supplied m s a0) : Supplied m s (setRoutes a0 a1 a2) := h.trans ⟨rfl, fun _ => rfl⟩
theorem edataCommit_supplied {s} {a0} {a1} {a2} (h : Supplied m s a0) : Supplied m s (edataCommit a0 a1 a2) := by
  unfold edataCommit
  repeat' with_reducible first
    | exact h | apply xRefused_supplied | apply setRoutes_supplied | apply Supplied.ite
theorem edataStage_supplied {s} {a0} {a1} {a2} {a3} (h : Supplied m s a0) : Supplied m s (edataStage a0 a1 a2 a3) := h.trans ⟨rfl, fun _ => rfl⟩
theorem xtabReg_supplied {s} {a0} {a1} {a2} {a3} {a4} (h : Supplied m s a0) : Supplied m s (xtabReg a0 a1 a2 a3 a4) := by
  unfold xtabReg
  repeat' first
    | with_reducible first
        | exact h | apply xctlWrite_supplied | apply edataCommit_supplied | apply edataStage_supplied | apply wr_supplied | apply Supplied.ite
    | split
theorem regReg_supplied {s} {a0} {a1} {a2} {a3} {a4} {a5} (h : Supplied False s a0) : Supplied False s (regReg a0 a1 a2 a3 a4 a5) := by
  unfold regReg
  repeat' first
    | with_reducible first
        | exact h | apply headerReg_supplied | apply coreReg_supplied | apply flowReg_supplied | apply spadReg_supplied | apply qengReg_supplied
        | apply routReg_supplied | apply clusReg_supplied | apply dieReg_supplied | apply memcReg_supplied | apply bankFields_supplied
        | apply wr_supplied
        | apply gaugeReg_supplied | apply hostReg_supplied | apply authReg_supplied | apply fuseReg_supplied | apply aonReg_supplied
        | apply clkCtl_supplied
        | apply pwrReg_supplied | apply signReg_supplied | apply healReg_supplied | apply healHubReg_supplied | apply portReg_supplied
        | apply causeReg_supplied
        | apply xtabReg_supplied | apply Supplied.ite
    | split
theorem fieldsWrite_supplied {s} {a0} {a1} {a2} {a3} {a4} {a5} (h : Supplied False s a0) : Supplied False s (fieldsWrite a0 a1 a2 a3 a4 a5).1 := by
  unfold fieldsWrite
  repeat' first
    | with_reducible first
        | exact h | exact Supplied.refl _ | apply accessDenied_supplied | apply rangeAt_supplied | apply writeOutcome_supplied
        | apply withMirror_supplied
        | apply pairReg_supplied | apply clusRefused_supplied | apply regReg_supplied | (intro _) | apply Supplied.ite | exact h.trans ⟨rfl, fun _ => rfl⟩
    | split
    | (dsimp only; split)
theorem pageWrite_supplied {s} {a0} {a1} {a2} {a3} {a4} {a5} (h : Supplied False s a0) : Supplied False s (pageWrite a0 a1 a2 a3 a4 a5).1 := by
  unfold pageWrite
  repeat' first
    | with_reducible first
        | exact h | apply accessDenied_supplied | apply accessRange_supplied | apply closedWrite_supplied | apply fieldsWrite_supplied
    | split
theorem broadcastWrite_supplied {s} {a0} {a1} {a2} {a3} {a4} {a5} (h : Supplied False s a0) : Supplied False s (broadcastWrite a0 a1 a2 a3 a4 a5).1 := by
  unfold broadcastWrite
  repeat' first
    | with_reducible first
        | exact h | exact Supplied.refl _ | apply pageWrite_supplied | (intro _) | apply Supplied.foldsFst
    | split
theorem writeCode_supplied {s} {a0} {a1} {a2} {a3} {a4} {a5} (h : Supplied False s a0) : Supplied False s (writeCode a0 a1 a2 a3 a4 a5).1 := by
  unfold writeCode
  repeat' first
    | with_reducible first
        | exact h | apply msixWrite_supplied | apply accessRange_supplied | apply broadcastWrite_supplied | apply pageWrite_supplied
        | apply Supplied.ite
    | split
theorem registerWrite_supplied {s} {a0} {a1} {a2} {a3} {a4} {a5} (h : Supplied False s a0) : Supplied False s (registerWrite a0 a1 a2 a3 a4 a5) := by
  unfold registerWrite
  repeat' with_reducible first
    | exact h | apply writeCode_supplied
theorem memServe_supplied {s} {a0} {a1} {a2} {a3} {a4} (h : Supplied m s a0) : Supplied m s (memServe a0 a1 a2 a3 a4) := by
  unfold memServe
  repeat' with_reducible first
    | exact h | exact Supplied.refl _ | apply blockRead_supplied | apply bump_supplied | apply settle_supplied | (intro _) | apply Supplied.folds
theorem unitMem_supplied {s} {a0} {a1} {a2} {a3} {a4} (h : Supplied m s a0) : Supplied m s (unitMem a0 a1 a2 a3 a4).1 := by
  unfold unitMem
  repeat' first
    | with_reducible first
        | exact h | exact Supplied.refl _ | apply reqRefused_supplied | apply memWrite_supplied | apply memServe_supplied | (intro _)
        | apply Supplied.foldsFst
    | split
    | (dsimp only; split)
theorem setDevice_supplied {s} {a0} {a1} (h : Supplied m s a0) : Supplied m s (setDevice a0 a1) := by
  unfold setDevice
  repeat' with_reducible first
    | exact h | exact Supplied.refl _ | apply signAll_supplied | apply fdSet_supplied | (intro _) | apply Supplied.folds
theorem enablePorts_supplied {s} {a0} (h : Supplied m s a0) : Supplied m s (enablePorts a0) := by
  unfold enablePorts
  repeat' with_reducible first
    | exact h | exact Supplied.refl _ | apply portEnable_supplied | apply fdSet_supplied | (intro _) | apply Supplied.ite | apply Supplied.folds
theorem fabricCfg_supplied {s} {a0} {a1} {a2} {a3} (h : Supplied m s a0) : Supplied m s (fabricCfg a0 a1 a2 a3).1 := by
  unfold fabricCfg
  repeat' first
    | with_reducible first
        | exact h | exact Supplied.refl _ | apply setDevice_supplied | apply setHost_supplied | apply setRoutes_supplied | apply xctlWrite_supplied
        | apply fdSet_supplied | apply portRetrain_supplied | apply gradeEval_supplied | apply enablePorts_supplied | apply setFlash_supplied
        | (intro _)
        | apply Supplied.ite | apply Supplied.folds
    | split
    | (dsimp only; split)
theorem mgmtMsg_supplied {s} {a0} {a1} (h : Supplied m s a0) (h1 : ∀ s, Supplied m s (a1 s)) : Supplied m s (mgmtMsg a0 a1) := by
  unfold mgmtMsg
  repeat' with_reducible first
    | exact h | refine Supplied.trans ?_ (h1 ..) | apply bump_supplied | apply Supplied.ite
theorem unlatch_supplied {s} {a0} {a1} {a2} {a3} (h : Supplied m s a0) : Supplied m s (unlatch a0 a1 a2 a3) := h.trans ⟨rfl, fun _ => rfl⟩
theorem linkPeak_supplied {s} {a0} {a1} (h : Supplied m s a0) : Supplied m s (linkPeak a0 a1).1 := h.trans ⟨rfl, fun _ => rfl⟩
theorem logRead_supplied {s} {a0} {a1} (h : Supplied m s a0) : Supplied m s (logRead a0 a1) := h.trans ⟨rfl, fun _ => rfl⟩
theorem readEffect_supplied {s} {a0} {a1} {a2} {a3} (h : Supplied m s a0) : Supplied m s (readEffect a0 a1 a2 a3) := by
  unfold readEffect
  repeat' first
    | with_reducible first
        | exact h | apply winStep_supplied | apply linkPeak_supplied | apply setCore_supplied | apply logRead_supplied | apply setHeal_supplied
        | apply wr_supplied | apply Supplied.ite
    | split
theorem pageRead_supplied {s} {a0} {a1} {a2} {a3} (h : Supplied m s a0) : Supplied m s (pageRead a0 a1 a2 a3).1 := by
  unfold pageRead
  repeat' first
    | with_reducible first
        | exact h | apply accessDenied_supplied | apply accessRange_supplied | apply unlatch_supplied | apply readEffect_supplied
    | split
    | with_reducible apply Supplied.withLatch
theorem readCode_supplied {s} {a0} {a1} {a2} {a3} (h : Supplied m s a0) : Supplied m s (readCode a0 a1 a2 a3).1 := by
  unfold readCode
  repeat' first
    | with_reducible first
        | exact h | apply accessRange_supplied | apply pageRead_supplied
    | split
    | (dsimp only; split)
theorem registerRead_supplied {s} {a0} {a1} {a2} {a3} (h : Supplied m s a0) : Supplied m s (registerRead a0 a1 a2 a3) := by
  unfold registerRead
  repeat' with_reducible first
    | exact h | apply readCode_supplied | apply send_supplied
theorem debugRange_supplied {s} {a0} {a1} {a2} (h : Supplied m s a0) : Supplied m s (debugRange a0 a1 a2) := by
  unfold debugRange
  repeat' with_reducible first
    | exact h | apply errAt_supplied | apply send_supplied | apply Supplied.ite
theorem debugMem_supplied {s} {a0} {a1} {a2} {a3} (h : Supplied m s a0) : Supplied m s (debugMem a0 a1 a2 a3) := by
  unfold debugMem
  repeat' with_reducible first
    | exact h | apply debugRange_supplied | apply unitMem_supplied | apply send_supplied | apply Supplied.ite
theorem debugSpad_supplied {s} {a0} {a1} {a2} {a3} (h : Supplied m s a0) : Supplied m s (debugSpad a0 a1 a2 a3) := by
  unfold debugSpad
  repeat' with_reducible first
    | exact h | apply debugRange_supplied | apply extSpad_supplied | apply Supplied.ite
theorem wideWrite_supplied {s} {a0} {a1} {a2} {a3} {a4} {a5} (h : Supplied False s a0) : Supplied False s (wideWrite a0 a1 a2 a3 a4 a5) := by
  fun_induction wideWrite
  · exact h
  next ih => exact ih (registerWrite_supplied h)
theorem debugAccess_supplied {s} {a0} {a1} {a2} {a3} {a4} (h : Supplied False s a0) : Supplied False s (debugAccess a0 a1 a2 a3 a4) := by
  unfold debugAccess
  repeat' first
    | with_reducible first
        | exact h | apply raiseInt_supplied | apply errAt_supplied | apply bump_supplied | apply registerWrite_supplied | apply registerRead_supplied
        | apply debugMem_supplied | apply debugSpad_supplied | apply Supplied.ite
    | split
theorem mgmtFabric_supplied {s} {a0} {a1} {a2} {a3} (h : Supplied m s a0) : Supplied m s (mgmtFabric a0 a1 a2 a3) := by
  unfold mgmtFabric
  repeat' with_reducible first
    | exact h | exact Supplied.refl _ | apply mgmtMsg_supplied | apply send_supplied | apply fabricCfg_supplied | (intro _) | apply Supplied.ite
theorem casevoWrite_supplied {s} {a0} {a1} {a2} {a3} (h : Supplied False s a0) : Supplied False s (casevoWrite a0 a1 a2 a3) := by
  unfold casevoWrite
  repeat' with_reducible first
    | exact h | exact Supplied.refl _ | apply mgmtMsg_supplied | apply writeCode_supplied | apply mgmtDenied_supplied | apply send_supplied
    | (intro _)
    | apply Supplied.ite
end

end Sys2Proof.Machine
end

section
/-! PROOFS. The frame of commands that write or read registers: which fields of the state, and which pages' registers and captures, what they are
made of may change. One lemma per operation, callees before callers; a lemma takes what holds up to the operation and gives what holds after it. -/
namespace Sys2Proof.Machine
open Sys2Proof

/-- Fields of the state, beyond the registers, that a command is let to change. -/
structure Parts where
  caps : Bool := false
  stg : Bool := false
  latch : Bool := false
  cores : Bool := false
  heal : Bool := false
  flash : Bool := false
  free : Bool := false
  host : Bool := false
  gauges : Bool := false
  out : Bool := false

/-- The state with the registers, and the fields that may change, taken from another. -/
def Parts.mix (a : Parts) (s t : State) : State :=
  { s with
    regs := t.regs
    caps := cond a.caps t.caps s.caps
    stg := cond a.stg t.stg s.stg
    latch := cond a.latch t.latch s.latch
    cores := cond a.cores t.cores s.cores
    heal := cond a.heal t.heal s.heal
    flash := cond a.flash t.flash s.flash
    free := cond a.free t.free s.free
    host := cond a.host t.host s.host
    gauges := cond a.gauges t.gauges s.gauges
    out := cond a.out t.out s.out }

/-- From `s` to `t` no field changed but the registers and those of `a`, and no page's registers and capture but those of pages of `W`. -/
structure Within (a : Parts) (W : PageId → Prop) (s t : State) : Prop where
  parts : t = a.mix s t
  pages : ∀ q o, pageOf q.no = some q → o < 4096 → ¬W q → rd t q o = rd s q o ∧ cap t q = cap s q

/-- What is written at a page stays in pages of `W`. -/
def Only (W : PageId → Prop) (p : PageId) : Prop :=
  ∀ q o off, pageOf q.no = some q → ¬W q → o < 4096 → off < 4096 → regKey (homePage q o) o ≠ regKey (homePage p off) off ∧ q.no ≠ p.no

/-- Every page. -/
def anyPage : PageId → Prop := fun _ => True
/-- The pages of some block types. -/
def ofBlks (bs : List Blk) : PageId → Prop := fun q => q.blk ∈ bs

theorem only_anyPage (p : PageId) : Only anyPage p := fun _ _ _ _ h => absurd trivial h

theorem homePage_blk (p : PageId) (off : Nat) : (homePage p off).blk = p.blk := by
  unfold homePage
  split
  next h => simp only [Bool.and_eq_true, beq_iff_eq] at h; exact h.1.1.symm
  · split
    next h => simp only [Bool.and_eq_true, beq_iff_eq] at h; exact h.1.1.symm
    · rfl
theorem homePage_page {p : PageId} (hp : pageOf p.no = some p) (off : Nat) : pageOf (homePage p off).no = some (homePage p off) := by
  unfold homePage
  split
  · exact pageOf_port (p := 36) (by decide)
  · split
    · exact pageOf_memc (m := 0) (by decide)
    · exact hp

/-- What is written at a page of a block type listed stays in pages of those types. -/
theorem only_ofBlks {bs : List Blk} {p : PageId} (hp : pageOf p.no = some p) (hb : p.blk ∈ bs) : Only (ofBlks bs) p := by
  intro q o off hq hW ho hoff
  have blk : q.blk ≠ p.blk := fun e => hW (show q.blk ∈ bs from e ▸ hb)
  have no : ∀ {x y : PageId}, pageOf x.no = some x → pageOf y.no = some y → x.blk ≠ y.blk → x.no ≠ y.no := fun hx hy h e => by
    rw [e, hy] at hx; cases hx; exact h rfl
  refine ⟨fun e => ?_, no hq hp blk⟩
  refine no (homePage_page hq o) (homePage_page hp off) (by rwa [homePage_blk, homePage_blk]) ?_
  unfold regKey at e
  omega

section
variable {a : Parts} {W : PageId → Prop} {s x : State}

theorem Parts.mix_self (a : Parts) (s : State) : a.mix s s = s := by
  simp only [Parts.mix, Bool.cond_self]
theorem Parts.mix_mix (a : Parts) (s x t : State) : a.mix (a.mix s x) t = a.mix s t := by
  have once : ∀ {α : Type} (c : Bool) (u v w : α), (bif c then u else bif c then v else w) = bif c then u else w := by
    intro α c u v w; cases c <;> rfl
  simp only [Parts.mix, once]
theorem Within.refl (a : Parts) (W : PageId → Prop) (s : State) : Within a W s s := ⟨(a.mix_self s).symm, fun _ _ _ _ _ => ⟨rfl, rfl⟩⟩
theorem Within.trans {t : State} (h : Within a W s x) (k : Within a W x t) : Within a W s t := by
  refine ⟨?_, fun q o hq ho hW => ⟨(k.pages q o hq ho hW).1.trans (h.pages q o hq ho hW).1, (k.pages q o hq ho hW).2.trans (h.pages q o hq ho hW).2⟩⟩
  calc t = a.mix x t := k.parts
    _ = a.mix (a.mix s x) t := congrArg (a.mix · t) h.parts
    _ = a.mix s t := a.mix_mix s x t
/-- A change of fields that `a` lists, that leaves registers and captures. -/
theorem Within.set {t : State} (h : Within a W s x) (parts : t = a.mix x t) (regs : t.regs = x.regs) (caps : t.caps = x.caps) : Within a W s t :=
  h.trans ⟨parts, fun q o _ _ _ => ⟨rd_of_regs regs q o, by rw [cap, caps]; rfl⟩⟩
theorem Within.ite {y z : State} {c : Prop} [Decidable c] (hy : Within a W s y) (hz : Within a W s z) : Within a W s (if c then y else z) := by
  split <;> assumption
theorem Within.folds {α : Type} {f : State → α → State} {l : List α} (h : Within a W s x)
    (hf : ∀ x, ∀ b ∈ l, Within a W s x → Within a W s (f x b)) : Within a W s (l.foldl f x) := by
  induction l generalizing x with
  | nil => exact h
  | cons b l ih => exact ih (hf x b (List.mem_cons_self ..) h) fun x c hc => hf x c (List.mem_cons_of_mem _ hc)

theorem Within.foldsFst {α β : Type} {f : State × β → α → State × β} {y : State × β} {l : List α} (h : Within a W s y.1)
    (hf : ∀ y b, Within a W s y.1 → Within a W s (f y b).1) : Within a W s (l.foldl f y).1 := by
  induction l generalizing y with
  | nil => exact h
  | cons b l ih => exact ih (hf y b h)

theorem wr_within {p : PageId} (h : Within a W s x) (hp : Only W p) {off : Nat} (ho : off < 4096) (v : Nat) : Within a W s (wr x p off v) :=
  h.trans ⟨by simp [Parts.mix, wr], fun q o hq hlt hW => ⟨rd_wr_ne x v (hp q o off hq hW hlt ho).1, rfl⟩⟩

theorem fdSet_within {p : PageId} (h : Within a W s x) (hp : Only W p) {f : FRef} (ho : f.off < 4096) (v : Nat) : Within a W s (fdSet x p f v) :=
  wr_within h hp ho _
theorem wr64_within {p : PageId} (h : Within a W s x) (hp : Only W p) {off : Nat} (ho : off + 4 < 4096) (v : Nat) : Within a W s (wr64 x p off v) :=
  wr_within (wr_within h hp (by omega) _) hp ho _
theorem bump_within {p : PageId} (h : Within a W s x) (hp : Only W p) {off : Nat} (ho : off + 4 < 4096) : Within a W s (bump x p off) :=
  wr64_within h hp ho _

/-- What is done to a page, and to the page of the follower that takes the same. -/
theorem withMirror_within {p : PageId} {f : State → PageId → State} (h : Within a W s x)
    (hf : ∀ y z q, q = p ∨ followerPage z p = some q → Within a W s y → Within a W s (f y q)) : Within a W s (withMirror x p f) := by
  unfold withMirror
  split
  next q hq => exact hf _ _ q (.inr hq) (hf _ x p (.inl rfl) h)
  · exact hf _ x p (.inl rfl) h

theorem writeOutcome_within {p : PageId} {f : State → State} (h : Within a W s (f x)) : Within a W s (writeOutcome x p f).1 := h

/-! ### What goes out, and errors -/

/-- A capture written at a page of `W`. -/
theorem caps_within (hc : a.caps = true) {p : PageId} (h : Within a W s x) (hp : Only W p) (k : Cap) :
    Within a W s { x with caps := tput x.caps p.no k } :=
  h.trans ⟨by simp [Parts.mix, hc], fun q o hq hlt hW => ⟨rfl, tget_tput_ne _ _ _ (hp q o 0 hq hW hlt (by decide)).2⟩⟩

section
variable (ho : a.out = true)
include ho
theorem send_within (h : Within a W s x) (o : Out) : Within a W s (send x o) :=
  h.set (by simp [Parts.mix, send, ho]) rfl rfl
theorem irqEdge_within {old : State} (h : Within a W s x) (p : PageId) : Within a W s (irqEdge old p x) := .ite (send_within ho h _) h
theorem raiseInt_within {p : PageId} (h : Within a W s x) (hp : Only W p) (b : Nat) : Within a W s (raiseInt x p b) :=
  irqEdge_within ho (wr_within h hp (by decide) _) p

variable (hc : a.caps = true)
include hc
theorem errAt_within {p : PageId} (h : Within a W s x) (hp : Only W p) (code source detail addr tag : Nat) :
    Within a W s (errAt x p code source detail addr tag) :=
  .ite (caps_within hc h hp _) (raiseInt_within ho (caps_within hc h hp _) hp 0)
theorem hostBad_within (h : Within a W s x) (hp : Only W hostPg) (code source detail addr : Nat) : Within a W s (hostBad x code source detail addr) :=
  raiseInt_within ho (errAt_within ho hc h hp ..) hp _
theorem mgmtBad_within (h : Within a W s x) (hp : Only W mgmtPg) (type : Nat) : Within a W s (mgmtBad x type) :=
  raiseInt_within ho (errAt_within ho hc (bump_within h hp (by decide)) hp ..) hp _
theorem mgmtDenied_within (h : Within a W s x) (hp : Only W mgmtPg) (code : Nat) : Within a W s (mgmtDenied x code) :=
  raiseInt_within ho (errAt_within ho hc h hp ..) hp _
theorem clusRefused_within {k : Nat} (h : Within a W s x) (hp : Only W (clusPage k)) (off : Nat) : Within a W s (clusRefused x k off) :=
  raiseInt_within ho (errAt_within ho hc h hp ..) hp _

/-! ### Writes of registers -/

variable {req : Req} (hreq : Only W (reqPage req))
include hreq
theorem accessRange_within (h : Within a W s x) (no off : Nat) : Within a W s (accessRange x req no off) := by
  cases req with
  | host | vf _ => exact hostBad_within ho hc h hreq ..
  | core _ | mgmt | debug | hub | die _ | twin | fabric _ => exact errAt_within ho hc h hreq ..

variable (hauth : Only W (hubPage .auth))
include hauth
theorem accessDenied_within (h : Within a W s x) (no off : Nat) (write : Bool) : Within a W s (accessDenied x req no off write) := by
  cases req with
  | host => exact hostBad_within ho hc (bump_within h hreq (by decide)) hreq ..
  | vf _ => exact hostBad_within ho hc (bump_within (bump_within h hreq (by decide)) hauth (by decide)) hreq ..
  | mgmt => exact mgmtDenied_within ho hc h hreq _
  | fabric _ => exact errAt_within ho hc (bump_within h hauth (by decide)) hreq ..
  | core _ | debug | hub | die _ | twin => exact errAt_within ho hc h hreq ..

variable {p : PageId} (hp : Only W p) {off : Nat}
include hp
theorem closedWrite_within (h : Within a W s x) (r : RegSpec) (v : Nat) : Within a W s (closedWrite x req p r off v).1 := by
  unfold closedWrite
  dsimp only
  split
  · exact accessDenied_within ho hc hreq hauth h ..
  · split
    · exact errAt_within ho hc h hp ..
    · exact h

/-- A write of single registers stays within what the register's own work, on the page or the page of its follower, does. -/
theorem fieldsWrite_within (clus : p.blk = .clus → Only W (clusPage (36 * p.die + p.inst))) {r : RegSpec} (one : r.half = .one) (h : Within a W s x) (v : Nat)
    (work : ∀ y z q new eff, q = p ∨ followerPage z p = some q → Within a W s y → Within a W s (regReg y req.cls q off new eff)) :
    Within a W s (fieldsWrite x req p r off v).1 := by
  have deny : ∀ (y : State) (d : Bool), Within a W s y → Within a W s (if d then accessDenied y req p.no off true else y) :=
    fun y d hy => .ite (accessDenied_within ho hc hreq hauth hy ..) hy
  unfold fieldsWrite
  rw [one]
  dsimp only
  split
  · exact h
  · split
    · refine deny _ _ ?_
      split
      next volts =>
        simp only [Bool.and_eq_true, beq_iff_eq] at volts
        exact clusRefused_within ho hc h (clus volts.1) off
      · exact errAt_within ho hc h hp ..
    · dsimp only
      apply writeOutcome_within
      refine withMirror_within (deny _ _ h) fun y z q hq hy => ?_
      exact .ite (work y z q _ _ hq hy) (work y z q _ _ hq hy)

theorem pageWrite_within (clus : p.blk = .clus → Only W (clusPage (36 * p.die + p.inst)))
    (one : ∀ r, specOf p off = some r → r.half = .one) (h : Within a W s x) (v be : Nat)
    (work : ∀ y z q new eff, q = p ∨ followerPage z p = some q → Within a W s y → Within a W s (regReg y req.cls q off new eff)) :
    Within a W s (pageWrite x req p off v be).1 := by
  unfold pageWrite
  split
  · exact accessDenied_within ho hc hreq hauth h ..
  · split
    · exact accessRange_within ho hc hreq h ..
    next r hr =>
      split
      · exact accessRange_within ho hc hreq h ..
      · split
        · exact closedWrite_within ho hc hreq hauth hp h ..
        · exact fieldsWrite_within ho hc hreq hauth hp clus (one r hr) h _ work
end

end
end Sys2Proof.Machine
end

section
/-! PROOFS. The frame of commands that write registers, continued: the registers of page headers, of fuses, of the lock of the debug port and of
gauges, and what the management port does by itself. -/
namespace Sys2Proof.Machine
open Sys2Proof

section
variable {a : Parts} {W : PageId → Prop} {s x : State}

theorem setHost_within (hh : a.host = true) (h : Within a W s x) (v : HostIf) : Within a W s (setHost x v) :=
  h.set (by simp [Parts.mix, setHost, hh]) rfl rfl

theorem freeUsed_within (hf : a.free = true) (h : Within a W s x) : Within a W s (freeUsed x) :=
  h.set (by simp [Parts.mix, freeUsed, hf]) rfl rfl

/-! ### Registers of the header -/

theorem headerReg_within (hc : a.caps = true) (ho : a.out = true) {p : PageId} (hp : Only W p) {off : Nat} (hoff : off < 64) (h : Within a W s x)
    (new eff : Nat) : Within a W s (headerReg x p off new eff) := by
  unfold headerReg
  split
  · exact irqEdge_within ho (wr_within h hp (by decide) _) p
  · exact wr_within h hp (by decide) _
  · exact irqEdge_within ho (wr_within h hp (by decide) _) p
  · exact wr_within h hp (by decide) _
  · exact .ite (caps_within hc h hp _) h
  · exact wr_within h hp (by omega) _

theorem msixWrite_within (hh : a.host = true) (ho : a.out = true) (hp : Only W hostPg) (h : Within a W s x) (key v : Nat) :
    Within a W s (msixWrite x key v) := by
  unfold msixWrite
  dsimp only
  refine .ite (.ite (send_within ho (bump_within ?_ hp (by decide)) _) ?_) (setHost_within hh h _)
  all_goals exact setHost_within hh (setHost_within hh h _) _

/-- A write of a header register, of any page, of many or of none, is of registers, captures and what the host port holds. -/
theorem registerWrite_header_within (hc : a.caps = true) (hh : a.host = true) (ho : a.out = true) {req : Req} {off : Nat} (hoff : off < 64)
    (single : ∀ r, regs_hdr.find? (·.holds (off / 4 * 4)) = some r → r.half = .one) (h : Within a anyPage s x) (no v be : Nat) :
    Within a anyPage s (registerWrite x req no off v be) := by
  have any := only_anyPage
  have page : ∀ (y : State) (p : PageId) (be : Nat), Within a anyPage s y →
      Within a anyPage s (pageWrite y req p (off / 4 * 4) v be).1 := fun y p be hy =>
    pageWrite_within ho hc (any _) (any _) (any p) (fun _ => any _) (fun r hr => single r ((specOf_hdr (by omega)).symm.trans hr)) hy v be
     fun z _ q new eff _ hz => by
      have head : regReg z req.cls q (off / 4 * 4) new eff = headerReg z q (off / 4 * 4) new eff := if_pos (by omega)
      rw [head]
      exact headerReg_within hc ho (any q) (by omega) hz new eff
  unfold registerWrite writeCode
  split
  · exact h
  · split
    · dsimp only
      split
      · exact msixWrite_within hh ho (any _) h ..
      · exact accessRange_within ho hc (any _) h ..
    · split
      · exact h
      · dsimp only
        split
        · unfold broadcastWrite
          split
          · exact h
          · refine Within.foldsFst h fun y d hy => ?_
            split
            · split
              · exact page y.1 _ _ hy
              · exact hy
            · exact hy
        · split
          · exact accessRange_within ho hc (any _) h ..
          next p hp => exact page x p _ h

/-! ### A register of one page -/

/-- A write of a single register of a page of no core is what its refusals, and the register's own work, do. -/
theorem registerWrite_page_within (hc : a.caps = true) (ho : a.out = true) {req : Req} (hreq : Only W (reqPage req))
    (hauth : Only W (hubPage .auth)) {p : PageId} (hp : Only W p) (valid : pageOf p.no = some p) (solo : ∀ z, followerPage z p = none)
    {off : Nat} (hoff : off % 4 = 0) (single : ∀ r, specOf p off = some r → r.half = .one) (h : Within a W s x) (v : Nat)
    (work : ∀ y new eff, Within a W s y → Within a W s (regReg y req.cls p off new eff)) : Within a W s (registerWrite x req p.no off v 15) := by
  unfold registerWrite
  by_cases shut : req = .debug ∧ debugShut x = true
  · obtain ⟨rfl, shut⟩ := shut
    rw [writeCode, shut]
    exact h
  · rw [writeCode_page valid hoff fun e => by simpa [e] using shut]
    refine pageWrite_within ho hc hreq hauth hp (fun hb => by rwa [clusPage_of_page valid hb]) single h v 15 fun y z q new eff hq hy => ?_
    obtain rfl | hq := hq
    · exact work y new eff hy
    · rw [solo] at hq; cases hq

/-! ### Fuses -/

theorem fuseBlow_within (hf : Only W fusePg) (hauth : Only W (hubPage .auth)) (h : Within a W s x) (code arg : Nat) :
    Within a W s (fuseBlow x code arg) := by
  unfold fuseBlow
  dsimp only
  split
  · exact fdSet_within (fdSet_within h hf (by decide) _) hauth (by decide) _
  · exact fdSet_within (fdSet_within h hf (by decide) _) hauth (by decide) _
  · exact wr_within h hf (by decide) _
  · exact fdSet_within h hf (by decide) _

section
variable (hh : a.host = true) (hf : Only W fusePg)
include hh hf
theorem fuseArm_within (h : Within a W s x) (cls v : Nat) : Within a W s (fuseArm x cls v) :=
  .ite (fdSet_within (setHost_within hh h _) hf (by decide) _) h
theorem fuseExpiry_within (h : Within a W s x) : Within a W s (fuseExpiry x) :=
  .ite h (fdSet_within (setHost_within hh h _) hf (by decide) _)

variable (hc : a.caps = true) (ho : a.out = true)
include hc ho
theorem fuseCmd_within (h : Within a W s x) (cls code arg : Nat) (ask : Bool) : Within a W s (fuseCmd x cls code arg ask) := by
  have coded := fdSet_within (f := fFUSE_STAT_CODE) h hf (by decide) (fuseCode x cls code arg)
  have counted := bump_within (off := 0xC08) coded hf (by decide)
  have refused := raiseInt_within ho (errAt_within ho hc counted hf (fuseCode x cls code arg) 0x28 code 0 0) hf 8
  unfold fuseCmd
  refine .ite (.ite (send_within ho refused _) refused) ?_
  exact fdSet_within (fdSet_within (setHost_within hh h _) hf (by decide) _) hf (by decide) _
theorem fuseReg_within (h : Within a W s x) (cls off new eff : Nat) (hoff : off < 4096) : Within a W s (fuseReg x cls off new eff) := by
  unfold fuseReg
  split
  · exact fuseArm_within hh hf h ..
  · exact .ite (fuseCmd_within hh hf hc ho h ..) h
  · exact wr_within h hf hoff _

variable (hauth : Only W (hubPage .auth))
include hauth
theorem fuseDone_within (h : Within a W s x) (same : Bool) : Within a W s (fuseDone x same) := by
  unfold fuseDone
  split
  · exact h
  next f _ =>
    have idle := fdSet_within (f := fFUSE_STAT_BUSY) (setHost_within hh h { x.host with fuse := none }) hf (by decide) 0
    have code := fun y (hy : Within a W s y) (c : Nat) => fdSet_within (f := fFUSE_STAT_CODE) hy hf (by decide) c
    have told : ∀ y (o : Out), Within a W s y → Within a W s (if f.ask then send y o else y) := fun y o hy => .ite (send_within ho hy o) hy
    refine told _ _ (.ite ?_ ?_)
    · exact bump_within (code _ (fuseBlow_within hf hauth idle ..) _) hf (by decide)
    · exact raiseInt_within ho (errAt_within ho hc (bump_within (code _ idle _) hf (by decide)) hf ..) hf _
end

/-! ### The management port -/

section
variable (hm : Only W mgmtPg)
include hm
theorem mgmtMsg_within {f : State → State} (h : Within a W s x) (hf : ∀ y, Within a W s y → Within a W s (f y)) : Within a W s (mgmtMsg x f) :=
  .ite h (hf _ (bump_within h hm (by decide)))
theorem dynAddr_within (h : Within a W s x) (n : Nat) : Within a W s (dynAddr x n) := .ite (fdSet_within h hm (by decide) _) h

variable (ho : a.out = true)
include ho
theorem mgmtHeal_within (h : Within a W s x) (start max : Nat) : Within a W s (mgmtHeal x start max) :=
  mgmtMsg_within hm h fun _ hy => send_within ho hy _
theorem pldmPoll_within (hh : a.host = true) (h : Within a W s x) : Within a W s (pldmPoll x) :=
  mgmtMsg_within hm h fun _ hy => setHost_within hh (send_within ho hy _) _

variable (hc : a.caps = true)
include hc
theorem mctpControl_within (h : Within a W s x) (cmd eid : Nat) (bad : Bool) : Within a W s (mctpControl x cmd eid bad) :=
  mgmtMsg_within hm h fun _ hy =>
    .ite (mgmtBad_within ho hc hy hm _) (.ite (send_within ho (fdSet_within hy hm (by decide) _) _) (send_within ho hy _))
theorem pldmSensor_within (h : Within a W s x) (n : Nat) : Within a W s (pldmSensor x n) :=
  mgmtMsg_within hm h fun _ hy => .ite (mgmtBad_within ho hc hy hm _) (send_within ho hy _)
theorem firmwareUpdate_within (hl : a.flash = true) (h : Within a W s x) (phase : Nat) (hub svc : Image) :
    Within a W s (firmwareUpdate x phase hub svc) := by
  have setFlash_within : ∀ (y : State) (f : Flash), Within a W s y → Within a W s (setFlash y f) := fun y f hy =>
    hy.set (by simp [Parts.mix, setFlash, hl]) rfl rfl
  unfold firmwareUpdate
  refine mgmtMsg_within hm h fun y hy => ?_
  dsimp only
  split
  · refine .ite (send_within ho hy _) (send_within ho (setFlash_within _ _ ?_) _)
    exact fdSet_within (fdSet_within hy hm (by decide) _) hm (by decide) _
  · exact .ite (send_within ho (fdSet_within (setFlash_within _ _ hy) hm (by decide) _) _) (mgmtBad_within ho hc hy hm _)
  · exact .ite (mgmtBad_within ho hc hy hm _) (send_within ho (fdSet_within hy hm (by decide) _) _)
theorem spdmAnswer_within (hf : a.free = true) (h : Within a W s x) (kind : Nat) (data : List Nat) : Within a W s (spdmAnswer x kind data) :=
  mgmtMsg_within hm h fun _ hy =>
    .ite (mgmtBad_within ho hc hy hm _) (freeUsed_within hf (send_within ho hy _))
theorem spdmMeasure_within (hf : a.free = true) (h : Within a W s x) : Within a W s (spdmMeasure x) :=
  have t := spdmAnswer_within hm ho hc hf h 3 (measurements x)
  .ite t (t.set (by simp [Parts.mix, hf]) rfl rfl)
theorem casevoFuse_within (hh : a.host = true) (hf : Only W fusePg) (h : Within a W s x) (code arg : Nat) : Within a W s (casevoFuse x code arg) :=
  mgmtMsg_within hm h fun _ hy =>
    fuseCmd_within hh hf hc ho (fuseArm_within hh hf (.ite (mgmtDenied_within ho hc hy hm _) hy) _ _) ..
end

/-! ### Gauges -/

section
variable (hg : a.gauges = true) (ho : a.out = true) {d i : Nat} (hp : Only W (gPage d i))
include hg
theorem setGauge_within (h : Within a W s x) (d i : Nat) (g : Gauge) : Within a W s (setGauge x d i g) :=
  h.set (by simp [Parts.mix, setGauge, hg]) rfl rfl
theorem gaugeOpen_within (h : Within a W s x) (d i : Nat) (b : Bool) : Within a W s (gaugeOpen x d i b) := setGauge_within hg h ..

include ho hp
theorem gaugeApply_within (h : Within a W s x) (v : Nat) : Within a W s (gaugeApply x d i v) := by
  have counted := fun g => bump_within (off := 0xC08) (setGauge_within hg h d i g) hp (by decide)
  exact .ite (raiseInt_within ho (bump_within (counted _) hp (by decide)) hp 9) (counted _)
theorem gaugeDrop_within (h : Within a W s x) : Within a W s (gaugeDrop x d i) :=
  raiseInt_within ho (bump_within (setGauge_within hg h ..) hp (by decide)) hp _
theorem gaugeClose_within (h : Within a W s x) (mile : Option Nat) : Within a W s (gaugeClose x d i mile) := by
  have applied : ∀ v, Within a W s (if gSrc x d i = 0x20 then gaugeApply x d i v else x) := fun v => .ite (gaugeApply_within hg ho hp h v) h
  have named : ∀ y, Within a W s y → Within a W s (match mile with | some m => wr y (gPage d i) 0x81C (m % 2 ^ 32) | none => y) := fun y hy => by
    split
    · exact wr_within hy hp (by decide) _
    · exact hy
  unfold gaugeClose
  dsimp only
  refine raiseInt_within ho (bump_within (gaugeOpen_within hg (.folds ?_ fun y k hk hy => wr_within hy hp (by simp at hk; omega) _) ..) hp (by decide)) hp _
  refine wr_within (wr_within (wr64_within (wr64_within (named _ ?_) hp (by decide) _) hp (by decide) _) hp (by decide) _) hp (by decide) _
  refine wr_within (wr_within (wr_within (wr64_within (wr64_within (applied _) hp (by decide) _) hp (by decide) _) hp (by decide) _) hp
    (by decide) _) hp (by decide) _
theorem gaugeCtl_within (hc : a.caps = true) (h : Within a W s x) (v : Nat) : Within a W s (gaugeCtl x d i v) := by
  have closed := gaugeClose_within hg ho hp h none
  have opened := gaugeOpen_within hg (fdSet_within (f := fGAUGE_CTL_RUN) h hp (by decide) 1) d i (fd x (gPage d i) fGAUGE_WIN_MODE == 2)
  exact .ite (.ite (errAt_within ho hc h hp ..) (.ite (gaugeClose_within hg ho hp opened none) opened))
    (.ite (fdSet_within closed hp (by decide) _) (.ite closed h))
theorem gaugeExpiry_within (h : Within a W s x) : Within a W s (gaugeExpiry x d i) := .ite (gaugeClose_within hg ho hp h none) h
theorem gaugeSample_within (h : Within a W s x) (inst sub v : Nat) (old full : Bool) : Within a W s (gaugeSample x d i inst sub v old full) :=
  .ite h (.ite (gaugeDrop_within hg ho hp h) (gaugeApply_within hg ho hp h _))
theorem levelSample_within (h : Within a W s x) : Within a W s (levelSample x d i) := by
  refine .ite h ?_
  split
  · exact gaugeApply_within hg ho hp h _
  · exact h
theorem linkofsSample_within (h : Within a W s x) (v : Nat) : Within a W s (linkofsSample x d i v) := .ite (gaugeApply_within hg ho hp h _) h
end

end

end Sys2Proof.Machine
end

section
/-! PROOFS. The frame of commands that read registers (R37, R40, R42, R44), and of the commands of page headers, the management port, fuses and
gauges. -/
namespace Sys2Proof.Machine
open Sys2Proof

section
variable {a : Parts} {s x : State}

/-! ### Reads of registers -/

theorem setCore_within (hk : a.cores = true) (h : Within a anyPage s x) (c : Nat) (k : Core) : Within a anyPage s (setCore x c k) :=
  h.set (by simp [Parts.mix, setCore, hk]) rfl rfl
theorem setHeal_within (hl : a.heal = true) (h : Within a anyPage s x) (v : Heal) : Within a anyPage s (setHeal x v) :=
  h.set (by simp [Parts.mix, setHeal, hl]) rfl rfl
/-- A write at any offset, where every page may change. -/
theorem wr_anyPage (h : Within a anyPage s x) (p : PageId) (off v : Nat) : Within a anyPage s (wr x p off v) :=
  h.trans ⟨by simp [Parts.mix, wr], fun _ _ _ _ no => absurd trivial no⟩

section
variable (hk : a.cores = true) (hl : a.heal = true)
include hk hl
theorem readEffect_within (h : Within a anyPage s x) (p : PageId) (r : RegSpec) (off : Nat) : Within a anyPage s (readEffect x p r off) := by
  unfold readEffect
  split
  · exact .ite (wr_anyPage h ..) h
  · exact setCore_within hk h ..
  · exact setCore_within hk h ..
  · exact setHeal_within hl h _
  · exact setHeal_within hl h _
  · exact setHeal_within hl h _
  · exact .ite (wr_anyPage h ..) h

variable (hc : a.caps = true) (hz : a.latch = true) (ho : a.out = true)
include hc hz ho
theorem pageRead_within (h : Within a anyPage s x) (req : Req) (p : PageId) (off : Nat) :
    Within a anyPage s (pageRead x req p off).1 := by
  have latched : ∀ l, Within a anyPage s { x with latch := l } := fun l => h.set (by simp [Parts.mix, hz]) rfl rfl
  unfold pageRead
  split
  · exact accessDenied_within ho hc (only_anyPage _) (only_anyPage _) h ..
  · split
    · exact accessRange_within ho hc (only_anyPage _) h ..
    · split
      · exact h
      · dsimp only
        split
        · split
          · exact latched _
          · exact h
        · exact latched _
        · exact readEffect_within hk hl h p _ _
theorem readCode_within (h : Within a anyPage s x) (req : Req) (no off : Nat) :
    Within a anyPage s (readCode x req no off).1 := by
  unfold readCode
  dsimp only
  split
  · exact h
  · split
    · exact h
    · split
      · exact h
      · split
        · exact accessRange_within ho hc (only_anyPage _) h ..
        · exact pageRead_within hk hl hc hz ho h req _ _
theorem casevoRead_within (h : Within a anyPage s x) (page off : Nat) : Within a anyPage s (casevoRead x page off) :=
  mgmtMsg_within (only_anyPage _) h fun _ hy =>
    have read := readCode_within hk hl hc hz ho hy .mgmt page off
    send_within ho (.ite (mgmtDenied_within ho hc read (only_anyPage _) _) read) _
theorem wideRead_within (h : Within a anyPage s x) (req : Req) (no off n : Nat) : Within a anyPage s (wideRead x req no off n) := by
  induction n generalizing x off with
  | zero => exact h
  | succ n ih => exact ih (send_within ho (readCode_within hk hl hc hz ho h req no off) _) _
end


/-! ### From the parts and pages to the frame -/

/-- The frame of pages that a frame by block type gives. -/
theorem Within.regsKept {W : List Blk} {t : State} (h : Within a (ofBlks W) s t) : RegsKept s t W := fun q o hq ho hW =>
  have kept := h.pages q o hq ho hW
  ⟨kept.1, fun _ => kept.2⟩

/-- The block types of the pages that requests arrive through. -/
def reqBlks : List Blk := [.core, .die, .host, .mgmt, .auth, .port, .cause]
theorem reqPage_blk (req : Req) : (reqPage req).blk ∈ reqBlks := by
  cases req with
  | core _ => exact (by decide : Blk.core ∈ reqBlks)
  | die _ => exact (by decide : Blk.die ∈ reqBlks)
  | vf _ => exact (by decide : Blk.host ∈ reqBlks)
  | fabric p =>
    rw [reqPage, portPage]
    split
    · exact (by decide : Blk.port ∈ reqBlks)
    · exact (by decide : Blk.cause ∈ reqBlks)
  | host | mgmt | debug | hub | twin => decide
theorem only_reqPage {bs : List Blk} {req : Req} (hb : reqBlks ⊆ bs) (valid : pageOf (reqPage req).no = some (reqPage req)) :
    Only (ofBlks bs) (reqPage req) := only_ofBlks valid (hb (reqPage_blk req))
theorem only_hub {bs : List Blk} {b : Blk} (h : b = .host ∨ b = .mgmt ∨ b = .auth ∨ b = .fuse ∨ b = .aon ∨ b = .healHub) (hb : b ∈ bs) :
    Only (ofBlks bs) (hubPage b) := only_ofBlks (pageOf_hub b h) hb

theorem pageOf_gauge {d i : Nat} (hd : d < 11) (hi : i < gaugeCount d) : pageOf (gPage d i).no = some (gPage d i) := by
  have all : ∀ d < 11, ∀ i < 8, i < gaugeCount d → pageOf (gPage d i).no = some (gPage d i) := by decide
  exact all d hd i (hi.trans_le (by unfold gaugeCount; split_ifs <;> omega)) hi

end

theorem next_of_onUnit {i : Instr} {s t u : State} {n k : Nat} (e : exec i s = onUnit n k u) (h : exec i s = .next t) : t = u :=
  (onUnit_next (e.symm.trans h)).2
theorem next_of_next {i : Instr} {s t u : State} (e : exec i s = .next u) (h : exec i s = .next t) : t = u := by
  rw [e] at h; cases h; rfl
theorem next_of_onGauge {i : Instr} {s t u : State} {d n : Nat} (e : exec i s = onGauge d n u) (h : exec i s = .next t) :
    pageOf (gPage d n).no = some (gPage d n) ∧ t = u := by
  rw [e, onGauge] at h
  split at h
  next hd => exact ⟨pageOf_gauge hd (onUnit_next h).1, (onUnit_next h).2⟩
  · cases h

/-- What a write of registers changes beyond the registers. -/
def writeParts : Parts := { caps := true, stg := true, host := true, out := true }
/-- What a read of registers changes beyond the registers. -/
def readParts : Parts := { caps := true, latch := true, cores := true, heal := true, out := true }

/-- The frame that a write of a single register through a requester's port leaves; the pages that may change are known where the request came
through a page of the module. -/
theorem registerWrite_frame {a : Parts} {s : State} (hc : a.caps = true) (ho : a.out = true) {bs : List Blk} (hb : reqBlks ⊆ bs) {req : Req}
    {p : PageId} (hp : pageOf p.no = some p) (blk : p.blk ∈ bs) (solo : ∀ z, followerPage z p = none) {off : Nat} (hoff : off % 4 = 0)
    (single : ∀ r, specOf p off = some r → r.half = .one) (v : Nat)
    (work : ∀ W y new eff, Only W p → Within a W s y → Within a W s (regReg y req.cls p off new eff)) :
    registerWrite s req p.no off v 15 = a.mix s (registerWrite s req p.no off v 15) ∧
      (pageOf (reqPage req).no = some (reqPage req) → RegsKept s (registerWrite s req p.no off v 15) bs) :=
  have write := fun W (hreq : Only W (reqPage req)) (hauth : Only W (hubPage .auth)) (hW : Only W p) =>
    registerWrite_page_within hc ho hreq hauth hW hp solo hoff single (.refl a W s) v fun y new eff => work W y new eff hW
  ⟨(write anyPage (only_anyPage _) (only_anyPage _) (only_anyPage _)).parts,
    fun valid => (write (ofBlks bs) (only_reqPage hb valid) (only_hub (by decide) (hb (by decide))) (only_ofBlks hp blk)).regsKept⟩

/-- A write of the fuse page's registers of commands. -/
theorem fuseWrite_frame (s : State) (req : Req) {off : Nat} (hoff : off = 0x50 ∨ off = 0x54) (v : Nat) :
    registerWrite s req fusePg.no off v 15 = writeParts.mix s (registerWrite s req fusePg.no off v 15) ∧
      (pageOf (reqPage req).no = some (reqPage req) → RegsKept s (registerWrite s req fusePg.no off v 15)
        [.core, .flow, .spad, .qeng, .clus, .die, .host, .mgmt, .auth, .fuse, .port, .cause, .xtab]) := by
  refine registerWrite_frame (p := fusePg) rfl rfl (by decide) (pageOf_hub .fuse (by decide)) (by decide) (fun _ => rfl) (by omega) ?_ v ?_
  · rcases hoff with rfl | rfl <;> (rintro r ⟨⟩; rfl)
  · intro W y new eff hW hy
    have head : regReg y req.cls fusePg off new eff = fuseReg y req.cls off new eff := if_neg (by omega)
    rw [head]
    exact fuseReg_within rfl hW rfl rfl hy _ _ _ _ (by omega)

/-- A write of AUTH_DBG_LOCK. -/
theorem lockWrite_frame (s : State) (req : Req) (v : Nat) :
    registerWrite s req (hubPage .auth).no 0x44 v 15 = writeParts.mix s (registerWrite s req (hubPage .auth).no 0x44 v 15) ∧
      (pageOf (reqPage req).no = some (reqPage req) → RegsKept s (registerWrite s req (hubPage .auth).no 0x44 v 15)
        [.core, .flow, .spad, .qeng, .clus, .die, .host, .mgmt, .auth, .port, .cause, .xtab]) := by
  refine registerWrite_frame rfl rfl (by decide) (pageOf_hub .auth (by decide)) (by decide) (fun _ => rfl) (by decide) (by rintro r ⟨⟩; rfl) v ?_
  intro W y new eff hW hy
  change Within writeParts W s (if bit eff 0 = true then fdSet y (hubPage .auth) fAUTH_STATUS_DBGLOCK 1 else y)
  exact .ite (fdSet_within hy hW (by decide) _) hy

/-- A write of GAUGE_CTL. -/
theorem gaugeWrite_frame (s : State) (req : Req) {d i : Nat} (hp : pageOf (gPage d i).no = some (gPage d i)) (v : Nat) :
    registerWrite s req (gPage d i).no 0x58 v 15 = { writeParts with gauges := true : Parts }.mix s (registerWrite s req (gPage d i).no 0x58 v 15) ∧
      (pageOf (reqPage req).no = some (reqPage req) → RegsKept s (registerWrite s req (gPage d i).no 0x58 v 15)
        [.core, .flow, .spad, .qeng, .clus, .die, .gauge, .host, .mgmt, .auth, .port, .cause, .xtab]) :=
  registerWrite_frame rfl rfl (by decide) hp (by simp [gPage]) (fun _ => rfl) (by decide) (by rintro r ⟨⟩; rfl) v
    fun _ _ _ _ hW hy => gaugeCtl_within rfl rfl hW rfl hy _

/-- PLDM_EFFECTER_SET has hub firmware write PWR_LIMIT. -/
theorem pldmEffecter_within (s : State) (watts : Nat) :
    Within writeParts (ofBlks [.core, .flow, .spad, .qeng, .clus, .die, .host, .mgmt, .auth, .pwr]) s (pldmEffecter s watts) := by
  refine mgmtMsg_within (only_hub (by decide) (by decide)) (.refl ..) fun y hy => ?_
  refine .ite (mgmtBad_within rfl rfl hy (only_hub (by decide) (by decide)) _) (.ite (send_within rfl hy _) (send_within rfl ?_ _))
  have pwr := pageOf_pwr (d := 8) (by decide)
  exact registerWrite_page_within (req := .hub) rfl rfl (only_ofBlks (pageOf_die (d := 8) (by decide)) (by decide))
    (only_hub (by decide) (by decide)) (only_ofBlks pwr (by decide)) pwr (fun _ => rfl) (by decide) (by rintro r ⟨⟩; rfl) hy _
    fun _ _ _ hz => wr_within hz (only_ofBlks pwr (by decide)) (by decide) _

/-- The frame of a command that answers the state given. -/
theorem frame_of_next {a : Parts} {bs : List Blk} {i : Instr} {s t u : State} (e : exec i s = .next u) (h : exec i s = .next t)
    (frame : Within a (ofBlks bs) s u) : t = a.mix s t ∧ RegsKept s t bs := by
  rw [next_of_next e h]
  exact ⟨frame.parts, frame.regsKept⟩

/-- What a gauge's own commands leave. -/
theorem frame_of_onGauge {i : Instr} {s t u : State} {d n : Nat} (e : exec i s = onGauge d n u) (h : exec i s = .next t)
    (frame : Only (ofBlks [.die, .gauge]) (gPage d n) → Within { gauges := true, out := true } (ofBlks [.die, .gauge]) s u) :
    t = { gauges := true, out := true : Parts }.mix s t ∧ RegsKept s t [.die, .gauge] := by
  obtain ⟨hp, rfl⟩ := next_of_onGauge e h
  have within := frame (only_ofBlks hp (by simp [gPage]))
  exact ⟨within.parts, within.regsKept⟩

/-- Settles O59: queue, time and fused map by what every command keeps, supplies and field map by what a register's write or a FABRIC_CFG operation
reaches, and the frame of each other command by what its operation is made of. -/
theorem managementAndGaugeFrame : Obligations.ManagementAndGaugeFrame := by
  unfold Obligations.ManagementAndGaugeFrame
  intro i s t h
  obtain ⟨pending, now, fuseMap, -⟩ := (exec_sound i s).1 t h
  have mgmt : ∀ {bs : List Blk}, Blk.mgmt ∈ bs → Only (ofBlks bs) mgmtPg := only_hub (by decide)
  have fuse : ∀ {bs : List Blk}, Blk.fuse ∈ bs → Only (ofBlks bs) fusePg := only_hub (by decide)
  cases i with
  | registerWrite => exact ⟨fuseMap, next_of_onUnit rfl h ▸ (wideWrite_supplied (.refl s)).power, now, pending⟩
  | casevoRegWrite => exact ⟨fuseMap, next_of_next rfl h ▸ (casevoWrite_supplied (.refl s)).power, now, pending⟩
  | debugTransport => exact ⟨fuseMap, next_of_next rfl h ▸ (debugAccess_supplied (.refl s)).power, now, pending⟩
  | casevoFabricCfg =>
    obtain ⟨power, fieldMap⟩ : Supplied True s t := next_of_next rfl h ▸ mgmtFabric_supplied (.refl s)
    exact ⟨fuseMap, fieldMap trivial, power, now, pending⟩
  | intRawSet | intStatClear | intEnableSet | intEnableClear | errClr | pgLockSet =>
    rw [next_of_onUnit rfl h]
    exact (registerWrite_header_within (a := writeParts) rfl rfl rfl (by decide) (by rintro r ⟨⟩; rfl) (.refl ..) ..).parts
  | pairLowRead =>
    rw [next_of_onUnit rfl h]
    exact (wideRead_within (a := readParts) rfl rfl rfl rfl rfl (.refl ..) ..).parts
  | casevoRegRead =>
    rw [next_of_next rfl h]
    exact (casevoRead_within (a := readParts) rfl rfl rfl rfl rfl (.refl ..) ..).parts
  | entdaa => exact frame_of_next (a := {}) rfl h (dynAddr_within (mgmt (by decide)) (.refl ..) _)
  | mctpControl =>
    exact frame_of_next (a := { caps := true, out := true }) rfl h (mctpControl_within (mgmt (by decide)) rfl rfl (.refl ..) ..)
  | casevoHealQuery => exact frame_of_next (a := { out := true }) rfl h (mgmtHeal_within (mgmt (by decide)) rfl (.refl ..) ..)
  | casevoFuse =>
    exact frame_of_next (a := { caps := true, host := true, out := true }) rfl h
      (casevoFuse_within (mgmt (by decide)) rfl rfl rfl (fuse (by decide)) (.refl ..) ..)
  | pldmSensorRead =>
    exact frame_of_next (a := { caps := true, out := true }) rfl h (pldmSensor_within (mgmt (by decide)) rfl rfl (.refl ..) _)
  | pldmEffecterSet => exact frame_of_next rfl h (pldmEffecter_within s _)
  | firmwareUpdate =>
    exact frame_of_next (a := { caps := true, flash := true, out := true }) rfl h
      (firmwareUpdate_within (mgmt (by decide)) rfl rfl rfl (.refl ..) ..)
  | spdmGetCertificate | spdmChallenge =>
    exact frame_of_next (a := { free := true, caps := true, out := true }) rfl h (spdmAnswer_within (mgmt (by decide)) rfl rfl rfl (.refl ..) ..)
  | spdmGetMeasurements =>
    exact frame_of_next (a := { free := true, caps := true, out := true }) rfl h (spdmMeasure_within (mgmt (by decide)) rfl rfl rfl (.refl ..))
  | authDbgLockWrite =>
    rw [next_of_next rfl h]
    exact lockWrite_frame s _ _
  | fuseArmWrite =>
    rw [next_of_next rfl h]
    exact fuseWrite_frame s _ (by decide) _
  | fuseDbgClose | fuseMgmtClose | fuseSvnAdvance | fuseKeyRevoke =>
    rw [next_of_next rfl h]
    exact fuseWrite_frame s _ (by decide) _
  | fuseArmExpiry => exact frame_of_next (a := { host := true }) rfl h (fuseExpiry_within rfl (fuse (by decide)) (.refl ..))
  | fuseProgramDone =>
    exact frame_of_next (a := { caps := true, host := true, out := true }) rfl h
      (fuseDone_within rfl (fuse (by decide)) rfl rfl (only_hub (by decide) (by decide)) (.refl ..) _)
  | pldmEventPoll => exact frame_of_next (a := { host := true, out := true }) rfl h (pldmPoll_within (mgmt (by decide)) rfl rfl (.refl ..))
  | gaugeRun | gaugeStop | gaugeCloseWrite =>
    obtain ⟨hp, e⟩ := next_of_onGauge rfl h
    rw [e]
    exact gaugeWrite_frame s _ hp _
  | gaugeWindowExpiry => exact frame_of_onGauge rfl h fun hp => gaugeExpiry_within rfl rfl hp (.refl ..)
  | gaugeSample => exact frame_of_onGauge rfl h fun hp => gaugeSample_within rfl rfl hp (.refl ..) ..
  | levelSamplePeriod => exact frame_of_onGauge rfl h fun hp => levelSample_within rfl rfl hp (.refl ..)
  | linkofsSample => exact frame_of_onGauge rfl h fun hp => linkofsSample_within rfl rfl hp (.refl ..) _
  | _ => exact trivial

end Sys2Proof.Machine
end

section
/-! PROOFS. Registers as they stand after reset (R45). -/
namespace Sys2Proof.Machine
open Sys2Proof

/-- In the state after reset a register holds the word of its fields' reset values (R45). -/
theorem rd_reset {p : PageId} {off : Nat} {r : RegSpec} (hr : specOf (homePage p off) off = some r) :
    rd State.reset p off = resetWord r.fields % 2 ^ 32 := by
  simp only [rd, hr]
  exact BitVec.toNat_ofNat ..

theorem rd_reset_header {p : PageId} {off : Nat} (r : RegSpec) (h : off < 64) (hr : regs_hdr.find? (·.holds off) = some r) :
    rd State.reset p off = resetWord r.fields % 2 ^ 32 :=
  rd_reset (by rw [homePage_header h, specOf_hdr h, hr])

/-- A field of a register after reset. -/
theorem fd_reset {p : PageId} {f : FRef} (r : RegSpec) (hr : specOf (homePage p f.off) f.off = some r) {v : Nat}
    (hv : bits (resetWord r.fields % 2 ^ 32) f.lo f.w = v) : fd State.reset p f = v := by
  rw [fd, rd_reset hr, hv]

/-- Nothing is closed by fuses, in the field or until the next module reset (R467, R470). -/
theorem closed_reset (i : Nat) : closed State.reset i = false := by
  have map : ∀ w, cmapWord State.reset w = 0 := fun w => by simp [cmapWord, State.reset, tget]
  simp only [closed, cmapBit, map, bit, Nat.zero_div]
  rfl

theorem unitClosed_reset (p : PageId) : unitClosed State.reset p = false := by
  unfold unitClosed coreClosed
  split <;> simp only [closed_reset, Bool.or_self]

/-- The pages of cores and clusters: the page's unit stands in no row, so one lookup in the block's rows serves them all. -/
theorem fd_reset_core (c : Nat) :
    fd State.reset (flowPage c) fARR_CFG_RETRY = 1 ∧ fd State.reset (flowPage c) fFLOW_QTIMEOUT_CYCLES = 65536 ∧
    fd State.reset (corePage .core c) fCORE_QWAIT_TICKS = 5000 ∧ fd State.reset (spadPage c) fSPAD_SCRUB_INTERVAL = 6400 ∧
    fd State.reset (spadPage c) fSPAD_SCRUB_EN = 1 ∧ (∀ b < 8, fd State.reset (spadPage c) (fSPAD_BANK_STATE_S.at b) = 2) ∧
    fd State.reset (qPage c) fQENG_TIMEOUT_TICKS = 5000 := by
  have bank : ∀ b < 8, fd State.reset (spadPage c) (fSPAD_BANK_STATE_S.at b) = 2 := fun b hb => by
    interval_cases b <;> exact fd_reset sSPAD_BANK_STATEn rfl (by decide)
  exact ⟨fd_reset sARR_CFG rfl (by decide), fd_reset sFLOW_QTIMEOUT rfl (by decide), fd_reset sCORE_QWAIT rfl (by decide),
    fd_reset sSPAD_SCRUB rfl (by decide), fd_reset sSPAD_SCRUB rfl (by decide), bank, fd_reset sQENG_TIMEOUT rfl (by decide)⟩

theorem fd_reset_clus (k : Nat) :
    fd State.reset (clusPage k) fCLUS_VSET_SETPT = 60 ∧ fd State.reset (clusPage k) fCLUS_FREQ_TARGET = 72 :=
  ⟨fd_reset sCLUS_VSET rfl (by decide), fd_reset sCLUS_FREQ rfl (by decide)⟩

/-- Whatever the page: unbound, unlocked, its unit open, no error held, no interrupt asked for (R49, R52–R54). -/
theorem header_reset (p : PageId) :
    rd State.reset p 0xC = 0 ∧ fd State.reset p fPG_LOCK_LOCK = 0 ∧ unitClosed State.reset p = false ∧
    (cap State.reset p).valid = false ∧ intStat State.reset p = 0 := by
  have lock : rd State.reset p fPG_LOCK_LOCK.off = 0 := rd_reset_header sPG_LOCK (by decide) rfl
  have raw : rd State.reset p 0x10 = 0 := rd_reset_header sINT_RAW (by decide) rfl
  refine ⟨rd_reset_header sPG_GEN (by decide) rfl, ?_, unitClosed_reset p, rfl, ?_⟩
  · rw [fd, lock]; rfl
  · rw [intStat, intRaw, raw, Nat.zero_and]

/-- Settles O36: the rows of each page's table, looked up. -/
theorem resetValues : Obligations.ResetValues := by
  unfold Obligations.ResetValues
  exact ⟨fun c _ => fd_reset_core c, fun k _ => fd_reset_clus k, by decide, by decide, by decide, by decide, by decide, by decide, by decide,
    fun p _ => header_reset p, rfl, rfl, rfl⟩

end Sys2Proof.Machine
end

section
/-! PROOFS. What gridlock's capture of a path does beyond the places of the path, which the frame of the array and fabric rules out. -/
namespace Sys2Proof.Machine
open Sys2Proof

/-- The last hop of a captured path stands in its place (R157). -/
theorem rd_lastHop (s : State) (c n : Nat) (w : Nat → Nat) {q : PageId} {o : Nat}
    (there : regKey (homePage q o) o = regKey (flowPage c) (0x100 + 8 * n)) :
    rd ((List.range (n + 1)).foldl (fun s i => wr64 s (flowPage c) (0x100 + 8 * i) (w i)) s) q o = w n % 2 ^ 32 := by
  rw [List.range_succ, List.foldl_append, List.foldl_cons, List.foldl_nil, wr64, rd_wr_ne, rd_wr, if_pos]
  · exact Nat.mod_mod _ _
  · exact there
  · rw [there]
    change regKey (flowPage c) _ ≠ regKey (flowPage c) _
    unfold regKey
    omega

/-- The same after gridlock is declared, where no path stood (R156), of any register but the two that say so. -/
theorem rd_gridlock_lastHop {s : State} {c n : Nat} {p : Probe} (hops : p.hops.length = n + 1)
    (notFound : fb s (flowPage c) fFLOW_GRID_STAT_FOUND = false) {q : PageId} {o : Nat}
    (there : regKey (homePage q o) o = regKey (flowPage c) (0x100 + 8 * n)) (raw : 4 ≠ o / 4 % 1024) (stat : 28 ≠ o / 4 % 1024) :
    rd (gridlock s c p) q o = (p.hops.getD n 0).toNat % 2 ^ 32 := by
  have found : fb (bump s (flowPage c) 0xC38) (flowPage c) fFLOW_GRID_STAT_FOUND = false :=
    (congrArg (bits · 0 1 == 1) (rd_bump_offset_ne s _ _ (by decide))).trans notFound
  unfold gridlock
  dsimp only
  rw [found, if_neg (by decide), rd_raiseInt_ne _ _ _ _ raw, rd_wr_offset_ne _ _ stat, hops]
  exact rd_lastHop _ c n _ there

/-- The wait of core 0's sequencer in a QPOP of slot 0, whose messages the core with EN 0 sends (R154). -/
def popEdge : Edge := { kind := 2, unit := 13, port := 0, queue := 0 }
/-- A party of core 0 waits so, and launched a probe along that edge. -/
def popState : State :=
  setCore State.reset 0 { seq := { wait := .qpop 0 0 0 }, qe := { slots := [(0, { senders := [0] })] },
                          fab := { probes := [({ device := 0, origin := 0, id := 0, window := 0, launch := 0, hops := [] }, popEdge, 0)] } }
/-- The probe at home again, after `n` hops along edges of that kind. -/
def popProbe (n : Nat) : Probe :=
  { device := 0, origin := 0, id := 0, window := 0, launch := 0, hops := List.replicate n (hopOf popState 0 popEdge) }

theorem probeHome_popProbe (n : Nat) : probeHome popState 0 (popProbe (n + 1)) = true := by
  have last : (popProbe (n + 1)).hops.getLast? = some (hopOf popState 0 popEdge) := List.getLast?_replicate ..
  have arrived : reached popState 0 (popProbe (n + 1)) = [12, 13] := by
    rw [reached, last]
    exact if_pos (by decide +kernel)
  unfold probeHome
  rw [arrived]
  change (true && true && (hopHere popState 0 (hopOf popState 0 popEdge) && _)) = true
  decide +kernel

/-- A launched probe that is home has gridlock declared where the edge it went along still stands as it did (R156). -/
theorem probeReceive_of_home {s : State} {c since : Nat} {p q : Probe} {e : Edge} {es : List (Edge × Nat)} (home : probeHome s c p = true)
    (launched : (fabOf s c).probes.find? (fun x => x.1.id == p.id && x.1.launch == p.launch) = some (q, e, since))
    (stands : (es.filter (fun x => edgeNow s c x.1)).any (fun x => x.1 == e && x.2 == since) = true) :
    probeReceive s c p es =
      gridlock (setFab s c { fabOf s c with probes := (fabOf s c).probes.filter (fun x => x.1.id != p.id) }) c p := by
  simp only [probeReceive, home, launched, stands, if_true]

/-- However long its path, the probe has gridlock declared, and its last hop stands in that hop's place. -/
theorem rd_probeReceive_popProbe (n : Nat) {q : PageId} {o : Nat} (there : regKey (homePage q o) o = regKey (flowPage 0) (0x100 + 8 * n))
    (raw : 4 ≠ o / 4 % 1024) (stat : 28 ≠ o / 4 % 1024) :
    rd (probeReceive popState 0 (popProbe (n + 1)) [(popEdge, 0)]) q o = (hopOf popState 0 popEdge).toNat % 2 ^ 32 := by
  have stands : ([(popEdge, 0)].filter (fun x => edgeNow popState 0 x.1)).any (fun x => x.1 == popEdge && x.2 == 0) = true := by decide +kernel
  have lastHop : (popProbe (n + 1)).hops.getD n 0 = hopOf popState 0 popEdge := List.getD_replicate _ (Nat.lt_succ_self n)
  have none : fb popState (flowPage 0) fFLOW_GRID_STAT_FOUND = false := by decide
  have notFound : ∀ f, fb (setFab popState 0 f) (flowPage 0) fFLOW_GRID_STAT_FOUND = false := fun _ => none
  rw [probeReceive_of_home (probeHome_popProbe n) rfl stands, ← lastHop]
  exact rd_gridlock_lastHop (p := popProbe (n + 1)) List.length_replicate (notFound _) there raw stat

theorem exec_probeReceive (s : State) (c : Nat) (p : Probe) (es : List (Edge × Nat)) :
    exec (.probeReceive c p es) s = onCore c (probeReceive s c p es) := rfl

/-- Refutes O48: FLOW_GRID_PATH has places for 32 hops (R157), but a probe that is home is taken whatever the number of its hops. The places of
a path of 3560 hops run on through the pages of core 0, and the last is PG_SCRATCH of core 1. -/
theorem not_arrayAndFabricFrame : ¬ Obligations.ArrayAndFabricFrame := by
  unfold Obligations.ArrayAndFabricFrame
  intro frame
  have answers := (exec_probeReceive popState 0 (popProbe (3559 + 1)) [(popEdge, 0)]).trans (onCore_lt _ (by decide))
  obtain ⟨-, -, pages⟩ := frame _ _ _ answers
  have other : ¬Mine popState 0 (corePage .core 1).core := by decide +kernel
  obtain ⟨kept, -⟩ := pages (corePage .core 1) 0x38 (pageOf_core (by decide) .core (by decide)) (by decide) (by decide) (.inr other)
  have written := rd_probeReceive_popProbe 3559 (q := corePage .core 1) (o := 0x38) (by decide) (by decide) (by decide)
  rw [kept] at written
  exact absurd written (by decide +kernel)

end Sys2Proof.Machine
end

section
/-! PROOFS. The commands of the matrix array: passes, entries, results, tiles and configuration (R93–R121). -/
namespace Sys2Proof.Machine
open Sys2Proof

/-! ### What leaves the array -/

section
variable (s : State) (c : Nat)

theorem arr_of_cores {s t : State} (h : t.cores = s.cores) (c : Nat) : arr t c = arr s c := by rw [arr, core, h]; rfl

@[simp] theorem arr_setArr_same (a : Arr) : arr (setArr s c a) c = a := by rw [arr, setArr, core_setCore_same]
@[simp] theorem arr_fdSet (p : PageId) (f : FRef) (v : Nat) : arr (fdSet s p f v) c = arr s c := rfl
@[simp] theorem arr_bumpBy (p : PageId) (off n : Nat) : arr (bumpBy s p off n) c = arr s c := arr_of_cores (bumpBy_cores ..) c
@[simp] theorem arr_bump (p : PageId) (off : Nat) : arr (bump s p off) c = arr s c := arr_of_cores (bump_cores ..) c
theorem raiseInt_cores (p : PageId) (b : Nat) : (raiseInt s p b).cores = s.cores := by
  rcases raiseInt_spec s p b with e | ⟨_, e⟩ <;> rw [e] <;> rfl
theorem errAt_cores (p : PageId) (code source detail addr tag : Nat) : (errAt s p code source detail addr tag).cores = s.cores := by
  unfold errAt
  dsimp only
  split
  · rfl
  · exact raiseInt_cores ..
@[simp] theorem arr_raiseInt (p : PageId) (b : Nat) : arr (raiseInt s p b) c = arr s c := arr_of_cores (raiseInt_cores ..) c
@[simp] theorem arr_errAt (p : PageId) (code source detail addr tag : Nat) : arr (errAt s p code source detail addr tag) c = arr s c :=
  arr_of_cores (errAt_cores ..) c
@[simp] theorem arr_arrErr (code source detail int : Nat) : arr (arrErr s c code source detail int) c = arr s c :=
  (arr_raiseInt ..).trans (arr_errAt ..)
@[simp] theorem arr_reportCore (b : Blk) (d source code detail : Nat) : arr (reportCore s b d source code detail) c = arr s c :=
  arr_of_cores (report_cores ..) c
@[simp] theorem arr_setLink (n : Nat) (l : Link) : arr (setLink s c n l) c = arr s c := by rw [arr, setLink, core_setCore_same]; rfl

/-! ### Tokens move on links alone -/

theorem popTok_arr_regs (port : Nat) : arr (popTok s c port) c = arr s c ∧ (popTok s c port).regs = s.regs := by
  unfold popTok
  split
  · dsimp only
    split
    · exact ⟨rfl, rfl⟩
    · exact ⟨arr_setLink .., rfl⟩
  · exact ⟨rfl, rfl⟩

/-- Steps that each leave the array and the registers leave them when all are made. -/
theorem foldl_arr_regs {α : Type} {f : State → α → State} (hf : ∀ t e, arr (f t e) c = arr t c ∧ (f t e).regs = t.regs) (l : List α) :
    arr (l.foldl f s) c = arr s c ∧ (l.foldl f s).regs = s.regs := by
  induction l generalizing s with
  | nil => exact ⟨rfl, rfl⟩
  | cons e l ih => exact ⟨(ih _).1.trans (hf s e).1, (ih _).2.trans (hf s e).2⟩
theorem takeCredits_arr_regs (port n : Nat) : arr (takeCredits s c port n) c = arr s c ∧ (takeCredits s c port n).regs = s.regs :=
  foldl_arr_regs s c (fun _ _ => ⟨arr_setLink .., rfl⟩) _
theorem emitTok_arr_regs (port : Nat) (t : Tok) : arr (emitTok s c port t) c = arr s c ∧ (emitTok s c port t).regs = s.regs :=
  foldl_arr_regs s c (fun _ _ => ⟨arr_setLink .., rfl⟩) _

@[simp] theorem arr_popTok (port : Nat) : arr (popTok s c port) c = arr s c := (popTok_arr_regs ..).1
@[simp] theorem arr_takeCredits (port n : Nat) : arr (takeCredits s c port n) c = arr s c := (takeCredits_arr_regs ..).1
@[simp] theorem arr_emitTok (port : Nat) (t : Tok) : arr (emitTok s c port t) c = arr s c := (emitTok_arr_regs ..).1
@[simp] theorem popTok_regs (port : Nat) : (popTok s c port).regs = s.regs := (popTok_arr_regs ..).2
@[simp] theorem takeCredits_regs (port n : Nat) : (takeCredits s c port n).regs = s.regs := (takeCredits_arr_regs ..).2
@[simp] theorem emitTok_regs (port : Nat) (t : Tok) : (emitTok s c port t).regs = s.regs := (emitTok_arr_regs ..).2
@[simp] theorem setArr_regs (a : Arr) : (setArr s c a).regs = s.regs := rfl

@[simp] theorem arr_passDone (poison : Bool) : arr (passDone s c poison) c = arr s c :=
  (arr_emitTok ..).trans (arr_bump s c (flowPage c) 0xE00)
theorem passDone_regs (poison : Bool) : (passDone s c poison).regs = (bump s (flowPage c) 0xE00).regs := emitTok_regs ..

/-! ### Registers -/

theorem rd_arrErr_ne (code source detail int : Nat) (q : PageId) {o : Nat} (h : 4 ≠ o / 4 % 1024) :
    rd (arrErr s c code source detail int) q o = rd s q o :=
  (rd_raiseInt_ne _ _ _ _ h).trans (rd_errAt_ne _ _ _ _ _ _ _ _ h)

/-- A pair reads what was stored in it. -/
theorem rd64_wr64_same (p : PageId) (off v : Nat) : rd64 (wr64 s p off v) p off = v % 2 ^ 64 := by
  unfold rd64 wr64
  rw [rd_wr_same, rd_wr_offset_ne _ _ (by omega), rd_wr_same]
  omega
theorem rd64_setArr (a : Arr) (p : PageId) (off : Nat) : rd64 (setArr s c a) p off = rd64 s p off := rfl
theorem rd64_bumpBy_same (p : PageId) (off n : Nat) : rd64 (bumpBy s p off n) p off = (rd64 s p off + n) % 2 ^ 64 := by
  unfold bumpBy
  split
  next zero =>
    have lo := rd_lt s p off
    have hi := rd_lt s p (off + 4)
    rw [zero, Nat.add_zero, Nat.mod_eq_of_lt (by rw [rd64]; omega)]
  · rw [rd64_wr64_same, Nat.mod_mod]
theorem rd64_of_regs {s t : State} (h : t.regs = s.regs) (p : PageId) (off : Nat) : rd64 t p off = rd64 s p off := by
  rw [rd64, rd64, rd_of_regs h, rd_of_regs h]

end

theorem fd_of_regs {s t : State} (h : t.regs = s.regs) (p : PageId) (f : FRef) : fd t p f = fd s p f := congrArg (bits · f.lo f.w) (rd_of_regs h ..)
theorem fb_of_regs {s t : State} (h : t.regs = s.regs) (p : PageId) (f : FRef) : fb t p f = fb s p f := by rw [fb, fb, fd_of_regs h]

/-- The array word of the active configuration is that of the registers that name it. -/
theorem arrCfg_of_rd {s t : State} {c : Nat}
    (h : ∀ o, o / 4 % 1024 = 16 ∨ o / 4 % 1024 = 256 ∨ o / 4 % 1024 = 257 → rd t (flowPage c) o = rd s (flowPage c) o) : arrCfg t c = arrCfg s c := by
  have active : activeBuf t c = activeBuf s c := congrArg (bits · 0 1) (h 0x40 (by decide))
  have bit : activeBuf s c < 2 := bits_lt ..
  change rd t (flowPage c) (0x400 + 4 * activeBuf t c) = rd s (flowPage c) (0x400 + 4 * activeBuf s c)
  rw [active, h _ (by omega)]
theorem arrCfg_of_regs {s t : State} (h : t.regs = s.regs) (c : Nat) : arrCfg t c = arrCfg s c := arrCfg_of_rd fun _ _ => rd_of_regs h ..
@[simp] theorem arrCfg_arrErr (s : State) (c code source detail int : Nat) : arrCfg (arrErr s c code source detail int) c = arrCfg s c :=
  arrCfg_of_rd fun _ _ => rd_arrErr_ne _ _ _ _ _ _ _ (by omega)

/-- A register read back shows each field of the word it took. -/
theorem fd_wr_same (s : State) (p : PageId) (f : FRef) (v : Nat) (h : f.lo + f.w ≤ 32) : fd (wr s p f.off v) p f = bits v f.lo f.w := by
  rw [fd, rd_wr_same, bits_mod_word v h]

/-! ### A pass starts -/

/-- The pass a descriptor asks for, into which the injection that is armed goes (R100, R119). -/
def startedPass (s : State) (c d : Nat) : Pass :=
  { nseq := bits d 0 7, bank := bits d 8 1, start := bits d 9 2 == 1, emit := bit d 11,
    inject := if fb s (flowPage c) fARR_CTL_INJECT then some (fd s (flowPage c) fARR_CTL_INJ_COL) else none,
    noTile := (if bit d 7 then some (arr s c).shTile else (arr s c).active).isNone }

/-- The injection a pass takes is cleared where it was armed, and its column stays (R119). -/
theorem fd_injCol_after_take (s : State) (c : Nat) (b : Bool) :
    fd (if b then fdSet s (flowPage c) fARR_CTL_INJECT 0 else s) (flowPage c) fARR_CTL_INJ_COL = fd s (flowPage c) fARR_CTL_INJ_COL := by
  cases b with
  | true => exact fd_fdSet_ne s (flowPage c) (f := fARR_CTL_INJECT) (g := fARR_CTL_INJ_COL) 0 (by decide) rfl (by decide)
  | false => rfl

/-- An error of the array, reported or not, leaves the array, its configuration and every word but that of the interrupts. -/
theorem arrErr_if_keeps (s : State) (c : Nat) (b : Bool) (code source detail int : Nat) :
    arr (if b then arrErr s c code source detail int else s) c = arr s c ∧
      arrCfg (if b then arrErr s c code source detail int else s) c = arrCfg s c ∧
      ∀ o, 4 ≠ o / 4 % 1024 → rd (if b then arrErr s c code source detail int else s) (flowPage c) o = rd s (flowPage c) o := by
  cases b with
  | true => exact ⟨arr_arrErr .., arrCfg_arrErr .., fun _ h => rd_arrErr_ne _ _ _ _ _ _ _ h⟩
  | false => exact ⟨rfl, rfl, fun _ _ => rfl⟩

/-- A well-formed descriptor with room for its DONE starts its pass (R100, R105). -/
theorem arr_passStart {s : State} {c : Nat} {d : Tok} (idle : (arr s c).pass = none) (head : headTok s c pPD = some d) (clean : d.poison = false)
    (nonempty : 1 ≤ bits d.val 0 7) (most : bits d.val 0 7 ≤ 64) (op : bits d.val 9 2 < 2) (rsv : bits d.val 12 20 = 0)
    (room : credits s c pDONE 1 = true) (full : bit d.val 7 = true → (arr s c).shadow = 2) :
    (arr (passStart s c) c).pass = some (startedPass s c d.val) ∧
      (arr (passStart s c) c).active = (if bit d.val 7 then some (arr s c).shTile else (arr s c).active) := by
  have wellFormed : ¬(bits d.val 0 7 > 64 ∨ bits d.val 9 2 ≥ 2 ∨ bits d.val 12 20 ≠ 0) := by omega
  have swaps : (bit d.val 7 && (arr s c).shadow != 2) = false := by
    cases swap : bit d.val 7 with
    | false => rfl
    | true => simp [full swap]
  have regs : (takeCredits (popTok s c pPD) c pDONE 1).regs = s.regs := (takeCredits_regs ..).trans (popTok_regs ..)
  unfold passStart
  dsimp only
  rw [idle, head]
  dsimp only
  rw [room, clean, if_neg (by decide), if_neg (by decide), if_neg wellFormed, if_neg (by omega), swaps, if_neg (by decide)]
  generalize takeCredits (popTok s c pPD) c pDONE 1 = u at regs ⊢
  rw [fd_injCol_after_take]
  rw [(arrErr_if_keeps ..).1, arr_setArr_same, fb_of_regs regs, fd_of_regs regs]
  exact ⟨rfl, rfl⟩

/-! ### Sequences enter -/

theorem arrWfmt_of_regs {s t : State} (h : t.regs = s.regs) (c : Nat) : arrWfmt t c = arrWfmt s c := congrArg (bits · 0 4) (arrCfg_of_regs h c)

/-- Taking the tokens of the ports, and the room of a result that leaves, changes no register. -/
theorem entry_regs (s : State) (c : Nat) (ports : List Nat) (emit : Bool) :
    (if emit then takeCredits (ports.foldl (fun s q => popTok s c q) s) c pO 1 else ports.foldl (fun s q => popTok s c q) s).regs = s.regs := by
  have popped := (foldl_arr_regs s c (fun u => popTok_arr_regs u c) ports).2
  split
  · exact (takeCredits_regs ..).trans popped
  · exact popped

theorem arrWfmt_setArr (s : State) (c : Nat) (a : Arr) : arrWfmt (setArr s c a) c = arrWfmt s c := rfl

/-- A sequence whose tokens and room are present enters with the token at A's head, and its operations are counted (R102, R144). -/
theorem arr_seqEntry {s : State} {c : Nat} {p : Pass} (hp : (arr s c).pass = some p) (more : p.entered.length < p.nseq)
    (tokens : (seqPorts s c p).all (fun q => (headTok s c q).isSome) = true) (room : p.emit = true → credits s c pO 1 = true) :
    (∃ q, (arr (seqEntry s c) c).pass = some { p with entered := p.entered ++ [q] } ∧ headTok s c pA = some q.act) ∧
      rd64 (seqEntry s c) (flowPage c) 0xE08 = (rd64 s (flowPage c) 0xE08 + (if arrWfmt s c = 10 then 4 else 1)) % 2 ^ 64 := by
  have present : ∀ x ∈ seqPorts s c p, (headTok s c x).isSome = true := List.all_eq_true.mp tokens
  have holdsA : pA ∈ seqPorts s c p := by simp [seqPorts]
  obtain ⟨k, hk⟩ := Option.isSome_iff_exists.mp (present pA holdsA)
  have noneMissing : ((seqPorts s c p).any fun x => (headTok s c x).isNone) = false :=
    List.any_eq_false.mpr fun x hx => by simpa using Option.isSome_iff_ne_none.mp (present x hx)
  have roomed : (p.emit && !credits s c pO 1) = false := by
    cases emit : p.emit with
    | false => rfl
    | true => simp [room emit]
  unfold seqEntry
  dsimp only
  rw [hp]
  dsimp only
  rw [if_neg (by omega), noneMissing, if_neg (by decide), roomed, if_neg (by decide)]
  have regs := entry_regs s c (seqPorts s c p) p.emit
  generalize (if p.emit then takeCredits ((seqPorts s c p).foldl (fun s q => popTok s c q) s) c pO 1
    else (seqPorts s c p).foldl (fun s q => popTok s c q) s) = u at regs ⊢
  constructor
  · refine ⟨_, by rw [arr_bumpBy, arr_setArr_same], ?_⟩
    dsimp only
    rw [if_pos (List.contains_iff_mem.mpr holdsA), hk]
    rfl
  · rw [rd64_bumpBy_same, rd64_setArr, arrWfmt_setArr, rd64_of_regs regs, arrWfmt_of_regs regs]

/-! ### Results are committed -/

/-- What a commit leaves: the registers of the counter of passes as they were and, where nothing leaves the array, the
accumulator's entry with the results of its columns (R105, R112). -/
structure Committed (s : State) (c : Nat) (p : Pass) (q : SeqIn) (u : State) : Prop where
  passes : rd64 u (flowPage c) 0xE00 = rd64 s (flowPage c) 0xE00
  lanes : p.emit = false → (accEntry (arr u c) p.bank p.done).lanes = (List.range 64).map (fun col =>
    columnResult ((arr s c).active.getD {}).wfmt (arrAfmt s c) ((arr s c).active.getD {}).sparse (imageNat ((arr s c).active.getD {}).img) q
      (if p.start then (if arrInit s c then lane q.iv.val col else 0)
        else if (accEntry (arr s c) p.bank p.done).valid then (accEntry (arr s c) p.bank p.done).lanes.getD col 0 else 0) col)
  valid : p.emit = false → (accEntry (arr u c) p.bank p.done).valid = true

theorem accEntry_setAcc_same (a : Arr) (bank i : Nat) (e : AccEntry) : accEntry (setAcc a bank i (some e)) bank i = e := by
  unfold accEntry setAcc
  by_cases first : bank = 0 <;> simp [first]

/-- A retry that ends well is counted: no entry and no other counter changes (R113, R144). -/
theorem retryEnded_keeps (u : State) (c : Nat) (b : Bool) :
    (∀ bank i, accEntry (arr (if b then bump (setArr u c { arr u c with retrying := false }) (flowPage c) 0xE30 else u) c) bank i = accEntry (arr u c) bank i) ∧
      rd64 (if b then bump (setArr u c { arr u c with retrying := false }) (flowPage c) 0xE30 else u) (flowPage c) 0xE00 = rd64 u (flowPage c) 0xE00 := by
  cases b with
  | false => exact ⟨fun _ _ => rfl, rfl⟩
  | true =>
    rw [if_pos rfl, arr_bump, arr_setArr_same, rd64, rd_bump_offset_ne _ _ _ (by decide), rd_bump_offset_ne _ _ _ (by decide)]
    exact ⟨fun _ _ => rfl, rfl⟩

/-- The result leaves by O, or it is stored in its entry: either way no register changes. -/
theorem resultMoved_regs (u : State) (c : Nat) (b : Bool) (port : Nat) (k : Tok) (a a' : Arr) :
    (if b then emitTok (setArr u c a) c port k else setArr u c a').regs = u.regs := by
  cases b with
  | true => exact emitTok_regs ..
  | false => rfl

/-- A commit leaves its result and its counters as said, and then the pass goes on or ends (R105). -/
theorem seqCommit_ends (s : State) (c : Nat) (p : Pass) (q : SeqIn) : ∃ u p', Committed s c p q u ∧ p'.done = p.done + 1 ∧
    seqCommit s c p q .none = if p.nseq ≤ p.done + 1 then passDone (setArr u c { arr u c with pass := none, retrying := false }) c false
      else setArr u c { arr u c with pass := some p' } := by
  unfold seqCommit
  dsimp only
  refine ⟨_, _, ?_, ?_, rfl⟩
  · have kept := arrErr_if_keeps s c (!p.start && !(accEntry (arr s c) p.bank p.done).valid && !p.badEntry) cRANGE 0x42 (64 * p.done + 2 ^ 12 * p.bank) 19
    generalize (if !p.start && !(accEntry (arr s c) p.bank p.done).valid && !p.badEntry then
      arrErr s c cRANGE 0x42 (64 * p.done + 2 ^ 12 * p.bank) 19 else s) = v at kept ⊢
    obtain ⟨-, cfg, words⟩ := kept
    constructor
    · rw [(retryEnded_keeps ..).2, rd64_of_regs (resultMoved_regs ..), rd64, words 0xE00 (by decide), words (0xE00 + 4) (by decide), rd64]
    · intro stays
      rw [(retryEnded_keeps ..).1, stays, if_neg (by decide), arr_setArr_same, accEntry_setAcc_same, arrAfmt, arrInit, cfg]
      rfl
    · intro stays
      rw [(retryEnded_keeps ..).1, stays, if_neg (by decide), arr_setArr_same, accEntry_setAcc_same]
  · rfl

theorem reportCore_regs (s : State) (b : Blk) (d source code detail : Nat) : (reportCore s b d source code detail).regs = s.regs := report_regs ..

theorem accParity_passes (s : State) (c : Nat) (p : Pass) (col : Nat) : rd64 (accParity s c p col) (flowPage c) 0xE00 = rd64 s (flowPage c) 0xE00 := by
  unfold accParity
  dsimp only
  rw [rd64_of_regs (reportCore_regs ..), rd64, rd_arrErr_ne _ _ _ _ _ _ _ (by decide), rd_arrErr_ne _ _ _ _ _ _ _ (by decide)]
  rfl

/-- A result that passes its checks is committed, from the state itself where the entry it adds to keeps its parity (R112, R113). -/
theorem seqResult_passed {s : State} {c : Nat} {p : Pass} {q : SeqIn} (hp : (arr s c).pass = some p) (hq : p.entered[p.done]? = some q)
    (passed : p.poisonFrom.isSome = true ∨ resultFails s c p q .none = none) :
    ∃ v, seqResult s c .none = seqCommit v c p q .none ∧ rd64 v (flowPage c) 0xE00 = rd64 s (flowPage c) 0xE00 ∧
      ((p.start = true ∨ (accEntry (arr s c) p.bank p.done).valid = false ∨ parityBad (accEntry (arr s c) p.bank p.done) = none) → v = s) := by
  have noMismatch : (if p.poisonFrom.isSome then none else resultFails s c p q .none) = none := by
    split
    · rfl
    · exact passed.resolve_left ‹_›
  unfold seqResult
  dsimp only
  rw [hp]
  dsimp only
  rw [hq]
  dsimp only
  rw [noMismatch, ite_self]
  dsimp only
  cases hpar : (if p.start || !(accEntry (arr s c) p.bank p.done).valid then none else parityBad (accEntry (arr s c) p.bank p.done)) with
  | none => exact ⟨s, rfl, rfl, fun _ => rfl⟩
  | some col =>
    refine ⟨_, rfl, accParity_passes .., fun clean => ?_⟩
    rcases clean with h | h | h <;> simp [h] at hpar

/-- Where the pass goes after a commit is no matter of the entries. -/
theorem accEntry_ended (u : State) (c n m : Nat) (p' : Pass) (bank i : Nat) :
    accEntry (arr (if n ≤ m then passDone (setArr u c { arr u c with pass := none, retrying := false }) c false
      else setArr u c { arr u c with pass := some p' }) c) bank i = accEntry (arr u c) bank i := by
  split
  · rw [arr_passDone, arr_setArr_same]; rfl
  · rw [arr_setArr_same]; rfl

/-- A result that passes and stays is in its entry, column by column (R105, R112). -/
theorem seqResult_stored {s : State} {c : Nat} {p : Pass} {q : SeqIn} (hp : (arr s c).pass = some p) (hq : p.entered[p.done]? = some q)
    (passed : p.poisonFrom.isSome = true ∨ resultFails s c p q .none = none)
    (sound : p.start = true ∨ (accEntry (arr s c) p.bank p.done).valid = false ∨ parityBad (accEntry (arr s c) p.bank p.done) = none)
    (stays : p.emit = false) :
    (accEntry (arr (seqResult s c .none) c) p.bank p.done).lanes = (List.range 64).map (fun col =>
      columnResult ((arr s c).active.getD {}).wfmt (arrAfmt s c) ((arr s c).active.getD {}).sparse (imageNat ((arr s c).active.getD {}).img) q
        (if p.start then (if arrInit s c then lane q.iv.val col else 0)
          else if (accEntry (arr s c) p.bank p.done).valid then (accEntry (arr s c) p.bank p.done).lanes.getD col 0 else 0) col) ∧
      (accEntry (arr (seqResult s c .none) c) p.bank p.done).valid = true := by
  obtain ⟨v, commits, -, same⟩ := seqResult_passed hp hq passed
  obtain rfl := same sound
  obtain ⟨u, p', committed, -, ends⟩ := seqCommit_ends v c p q
  rw [commits, ends, accEntry_ended]
  exact ⟨committed.lanes stays, committed.valid stays⟩

/-- A result that passes advances its pass, and the last one ends it (R105, R144). -/
theorem seqResult_advances {s : State} {c : Nat} {p : Pass} {q : SeqIn} (hp : (arr s c).pass = some p) (hq : p.entered[p.done]? = some q)
    (passed : p.poisonFrom.isSome = true ∨ resultFails s c p q .none = none) :
    if p.nseq ≤ p.done + 1 then (arr (seqResult s c .none) c).pass = none ∧
        rd64 (seqResult s c .none) (flowPage c) 0xE00 = (rd64 s (flowPage c) 0xE00 + 1) % 2 ^ 64
      else (arr (seqResult s c .none) c).pass.map Pass.done = some (p.done + 1) := by
  obtain ⟨v, commits, passes, -⟩ := seqResult_passed hp hq passed
  obtain ⟨u, p', committed, next, ends⟩ := seqCommit_ends v c p q
  rw [commits, ends]
  by_cases last : p.nseq ≤ p.done + 1
  · rw [if_pos last, if_pos last]
    constructor
    · rw [arr_passDone, arr_setArr_same]
    · rw [rd64_of_regs (passDone_regs ..), rd64_bump_same, rd64_setArr, committed.passes, passes]
  · rw [if_neg last, if_neg last, arr_setArr_same]
    exact congrArg some next

/-- A mismatch that is counted, announced and reported leaves the array and its configuration. -/
theorem mismatchCounted (s : State) (c d : Nat) :
    arr (reportCore (raiseInt (bump s (flowPage c) 0xE28) (flowPage c) 16) .flow c 0x46 cOK d) c = arr s c ∧
      arrCfg (reportCore (raiseInt (bump s (flowPage c) 0xE28) (flowPage c) 16) .flow c 0x46 cOK d) c = arrCfg s c ∧
      rd64 (reportCore (raiseInt (bump s (flowPage c) 0xE28) (flowPage c) 16) .flow c 0x46 cOK d) (flowPage c) 0xE28 =
        (rd64 s (flowPage c) 0xE28 + 1) % 2 ^ 64 := by
  refine ⟨by simp, ?_, ?_⟩
  · refine (arrCfg_of_regs (reportCore_regs ..) c).trans (arrCfg_of_rd fun o h => ?_)
    rw [rd_raiseInt_ne _ _ _ _ (by omega), rd_bump_offset_ne _ _ _ (by omega)]
  · rw [rd64_of_regs (reportCore_regs ..), rd64, rd_raiseInt_ne _ _ _ _ (by decide), rd_raiseInt_ne _ _ _ _ (by decide)]
    exact rd64_bump_same ..

/-- A mismatch with attempts left is counted and replayed, with nothing committed (R113, R144). -/
theorem arr_seqResult_mismatch {s : State} {c : Nat} {p : Pass} {q : SeqIn} {i col : Nat} (hp : (arr s c).pass = some p) (hq : p.entered[p.done]? = some q)
    (clean : p.poisonFrom = none) (again : p.tries < arrRetry s c) (fails : resultFails s c p q (.copy i) = some col) :
    arr (seqResult s c (.copy i)) c = { arr s c with pass := some { p with tries := p.tries + 1 }, retrying := true } ∧
      rd64 (seqResult s c (.copy i)) (flowPage c) 0xE28 = (rd64 s (flowPage c) 0xE28 + 1) % 2 ^ 64 := by
  unfold seqResult
  dsimp only
  rw [hp]
  dsimp only
  rw [hq]
  dsimp only
  have mismatch : (if p.poisonFrom.isSome then none else resultFails s c p q (.copy i)) = some col := by rw [clean, fails]; rfl
  rw [mismatch]
  dsimp only
  unfold seqMismatch
  dsimp only
  obtain ⟨array, cfg, count⟩ := mismatchCounted s c (col % 64 + 64 * p.done)
  generalize reportCore (raiseInt (bump s (flowPage c) 0xE28) (flowPage c) 16) .flow c 0x46 cOK (col % 64 + 64 * p.done) = u at array cfg count ⊢
  rw [if_pos (by rw [arrRetry, cfg]; exact again), arr_setArr_same, array]
  exact ⟨rfl, count⟩

/-! ### Tile images -/

/-- A token from W joins the image of the shadow, which begins with it where none is begun (R105). -/
theorem arr_loadWToken {s : State} {c : Nat} {k : Tok} (head : headTok s c pW = some k) (loading : (arr s c).shadow ≠ 2)
    (room : (arr s c).shadow = 1 → (arr s c).shTile.img.length < imageTokens (arr s c).shTile.wfmt (arr s c).shTile.sparse) :
    (arr (loadWToken s c) c).shadow = 1 ∧
      (arr (loadWToken s c) c).shTile.img = (if (arr s c).shadow = 1 then (arr s c).shTile.img else []) ++ [k.val] := by
  have goes : ¬((decide ((arr s c).shadow = 2) ||
      (arr s c).shadow == 1 && decide ((arr s c).shTile.img.length ≥ imageTokens (arr s c).shTile.wfmt (arr s c).shTile.sparse)) = true) := by
    simpa [loading] using room
  unfold loadWToken
  dsimp only
  rw [head]
  dsimp only
  rw [if_neg goes, arr_setArr_same]
  refine ⟨rfl, ?_⟩
  dsimp only
  split <;> rfl

/-- A whole image makes the shadow FULL and is counted (R105, R144). -/
theorem arr_tileFull {s : State} {c : Nat} (loading : (arr s c).shadow = 1)
    (whole : (arr s c).shTile.img.length = imageTokens (arr s c).shTile.wfmt (arr s c).shTile.sparse) :
    (arr (tileFull s c) c).shadow = 2 ∧ (arr (tileFull s c) c).shTile.img = (arr s c).shTile.img ∧
      rd64 (tileFull s c) (flowPage c) 0xE38 = (rd64 s (flowPage c) 0xE38 + 1) % 2 ^ 64 := by
  unfold tileFull
  dsimp only
  rw [if_pos ⟨loading, whole⟩]
  split
  next col _ =>
    rw [arr_arrErr, arr_bump, arr_setArr_same, rd64, rd_arrErr_ne _ _ _ _ _ _ _ (by decide), rd_arrErr_ne _ _ _ _ _ _ _ (by decide)]
    exact ⟨rfl, rfl, rd64_bump_same ..⟩
  next =>
    rw [arr_bump, arr_setArr_same]
    exact ⟨rfl, rfl, rd64_bump_same ..⟩

/-! ### Writes of the array's registers -/

theorem flowPage_core (c : Nat) : (flowPage c).core = c := Nat.div_add_mod c 144

/-- A granted write of a register of the FLOW page does what that register does. -/
theorem registerWrite_flow {s : State} {req : Req} {c off v : Nat} {r : RegSpec} (hc : c < 1152) (spec : specOf (flowPage c) off = some r)
    (one : r.half = .one) (can : r.writable = true) (aligned : off % 4 = 0) (g : Granted s req (flowPage c) off v) :
    registerWrite s req (flowPage c).no off v 15 = regReg s req.cls (flowPage c) off (plan s req (flowPage c) off v).new (plan s req (flowPage c) off v).eff :=
  registerWrite_one (pageOf_core hc .flow (by decide)) spec one can aligned g

/-- The turn of a field that a 1 sets. -/
theorem fieldPlan_w1s {cls old v : Nat} {f : FieldSpec} {p : Plan} (acc : f.acc = .w1s) (h : (fieldPlan cls old v f p).denied = false) :
    bits (fieldPlan cls old v f p).new f.lo f.w = f.of old ||| f.of v := by
  have old_lt : f.of old < 2 ^ f.w := bits_lt ..
  have or_lt : f.of old ||| f.of v < 2 ^ f.w := Nat.or_lt_two_pow old_lt (bits_lt ..)
  cases may : bit f.cls cls with
  | true => simp [fieldPlan, acc, may, bits_setBits_same, Nat.mod_eq_of_lt or_lt]
  | false =>
    have zero : f.of v = 0 := by
      simp only [fieldPlan, acc, may, Bool.not_false, if_true, Bool.or_eq_false_iff] at h
      simpa using h.2
    simp [fieldPlan, acc, may, bits_setBits_same, Nat.mod_eq_of_lt old_lt, zero]

/-- A 1 written to a field of ones that set sets it, and a 0 leaves it (R54). -/
theorem planOf_w1s {cls old v : Nat} {fs : List FieldSpec} (denied : (planOf cls old v fs).denied = false) (parts : apartAll fs = true) {f : FieldSpec}
    (hf : f ∈ fs) (acc : f.acc = .w1s) : bits (planOf cls old v fs).new f.lo f.w = f.of old ||| f.of v := by
  unfold planOf at denied ⊢
  revert denied
  generalize ({} : Plan) = p
  induction fs generalizing p with
  | nil => cases hf
  | cons g fs ih =>
    intro denied
    simp only [apartAll, Bool.and_eq_true] at parts
    obtain ⟨own, rest⟩ := parts
    rcases List.mem_cons.1 hf with rfl | later
    · rw [List.foldl_cons, (foldl_other own _).1]
      exact fieldPlan_w1s acc (foldl_denied denied)
    · exact ih rest later _ denied

/-- A granted write of ARR_CTL with INJECT 1 arms the injection at its column (R119, R120). -/
theorem arrInject_arms {s : State} {req : Req} {c : Nat} {v : Word} (hc : c < 1152) (g : Granted s req (flowPage c) 0x408 (v.toNat ||| 1)) :
    fd (regCmdSet s req (flowPage c) 0x408 v 1) (flowPage c) fARR_CTL_INJECT = 1 ∧
      fd (regCmdSet s req (flowPage c) 0x408 v 1) (flowPage c) fARR_CTL_INJ_COL = bits v.toNat 8 6 := by
  have spec : specOf (flowPage c) 0x408 = some sARR_CTL := rfl
  have written : regCmdSet s req (flowPage c) 0x408 v 1 = wr s (flowPage c) 0x408 (plan s req (flowPage c) 0x408 (v.toNat ||| 1)).new := by
    rw [regCmdSet, registerWrite_flow hc spec rfl (by decide) (by decide) g]
    exact congrArg (fun k => wr s (flowPage k) 0x408 _) (flowPage_core c)
  have inject : bits (plan s req (flowPage c) 0x408 (v.toNat ||| 1)).new 0 1 = 1 := by
    obtain ⟨-, -, -, denied, -⟩ := g
    simp only [plan, spec] at denied ⊢
    refine (planOf_w1s denied (f := fs 0 1 .w1s 0 .v) (by decide) (by decide) rfl).trans ?_
    change bits _ 0 1 ||| bits _ 0 1 = 1
    have old := bits_lt (rd s (flowPage c) 0x408) 0 1
    rw [bits_or_one]
    interval_cases bits (rd s (flowPage c) 0x408) 0 1 <;> rfl
  have column : bits (plan s req (flowPage c) 0x408 (v.toNat ||| 1)).new 8 6 = bits v.toNat 8 6 := by
    refine ((plan_field spec g (by decide) (f := fs 8 6 .rw 0 .v) (by decide)).1 rfl).trans ?_
    change bits ((v.toNat ||| 1) % 2 ^ 32) 8 6 = _
    rw [bits_mod_word _ (by decide), bits, bits, ← Nat.shiftRight_eq_div_pow, Nat.shiftRight_or_distrib, Nat.shiftRight_eq_div_pow]
    exact congrArg (· % 2 ^ 6) (Nat.or_zero _)
  rw [written]
  exact ⟨(fd_wr_same s (flowPage c) fARR_CTL_INJECT _ (by decide)).trans inject, (fd_wr_same s (flowPage c) fARR_CTL_INJ_COL _ (by decide)).trans column⟩

/-- The five fields of a configuration word of the array are its twelve low bits. -/
theorem bits_twelve {x y : Nat} (wfmt : bits x 0 4 = bits y 0 4) (afmt : bits x 4 4 = bits y 4 4) (sparse : bits x 8 1 = bits y 8 1)
    (init : bits x 9 1 = bits y 9 1) (retry : bits x 10 2 = bits y 10 2) : bits x 0 12 = bits y 0 12 := by
  unfold bits at *
  omega

/-- A granted write of a configuration word of the array asks for the word as it is written (R119). -/
theorem plan_arrCfg {s : State} {req : Req} {c b v : Nat} (hb : b < 2) (g : Granted s req (flowPage c) (0x400 + 4 * b) v) :
    bits (plan s req (flowPage c) (0x400 + 4 * b) v).new 0 12 = bits (v % 2 ^ 32) 0 12 := by
  have spec : specOf (flowPage c) (0x400 + 4 * b) = some sARR_CFG := by
    interval_cases b <;> rfl
  have field {f : FieldSpec} (member : f ∈ sARR_CFG.fields) (acc : f.acc = .rw) :
      bits (plan s req (flowPage c) (0x400 + 4 * b) v).new f.lo f.w = f.of (v % 2 ^ 32) :=
    (plan_field spec g (by decide) member).1 acc
  exact bits_twelve (field (f := fs 0 4 .rw 0 .d) (by decide) rfl) (field (f := fs 4 4 .rw 0 .d) (by decide) rfl)
    (field (f := fs 8 1 .rw 0 .d) (by decide) rfl) (field (f := fs 9 1 .rw 0 .d) (by decide) rfl) (field (f := fs 10 2 .rw 1 .d) (by decide) rfl)

/-- A granted write of ARR_CFG0 or ARR_CFG1 is a write of the array word of its buffer. -/
theorem regCmd_arrCfg {s : State} {req : Req} {c b : Nat} {v : Word} (hc : c < 1152) (hb : b < 2) (g : Granted s req (flowPage c) (0x400 + 4 * b) v.toNat) :
    regCmd s req (flowPage c) (0x400 + 4 * (b % 2)) v =
      arrCfgWrite s c b (BitVec.ofNat 32 (plan s req (flowPage c) (0x400 + 4 * b) v.toNat).new) := by
  rw [Nat.mod_eq_of_lt hb]
  have core := flowPage_core c
  interval_cases b
  · exact (registerWrite_flow hc (r := sARR_CFG) rfl rfl (by decide) (by decide) g).trans (congrArg (fun k => arrCfgWrite s k 0 _) core)
  · exact (registerWrite_flow hc (r := sARR_CFG) rfl rfl (by decide) (by decide) g).trans (congrArg (fun k => arrCfgWrite s k 1 _) core)

/-- The array word of an inactive buffer takes its formats, and VALID of the buffer clears (R119, R143). -/
theorem arrCfgWrite_inactive {s : State} {c b : Nat} (w : Word) (hb : b < 2) (inactive : b ≠ activeBuf s c) :
    bits (bufWord (arrCfgWrite s c b w) c b 2) 0 12 = bits w.toNat 0 12 ∧ validBuf (arrCfgWrite s c b w) c b = false := by
  rw [arrCfgWrite, if_neg inactive]
  constructor
  · change bits (rd (wr (wr s (flowPage c) (0x400 + 4 * b) (w.toNat % 2 ^ 12)) (flowPage c) 0x44 _) (flowPage c) (0x400 + 4 * b)) 0 12 = _
    rw [rd_wr_offset_ne _ _ (by omega), rd_wr_same, bits_mod_word _ (by decide)]
    rw [bits, bits]
    omega
  · exact congrArg (· == 1) (fd_fdSet_same _ (flowPage c) (fFLOW_CFG_STATUS_VALID0.sub b) 0 (by change 0 + 1 * b + 1 ≤ 32; omega))

/-- The active buffer refuses a write: its words and its VALID stay (R144). -/
theorem arrCfgWrite_active {s : State} {c b : Nat} (w : Word) (hb : b < 2) (active : b = activeBuf s c) :
    (∀ i, bufWord (arrCfgWrite s c b w) c b i = bufWord s c b i) ∧ validBuf (arrCfgWrite s c b w) c b = validBuf s c b := by
  rw [arrCfgWrite, if_pos active, activeRefused, flowErr]
  constructor
  · intro i
    rw [bufWord, bufWord, rd_errAt_ne _ _ _ _ _ _ _ _ (by omega), core, errAt_cores]
    rfl
  · exact congrArg (bits · _ 1 == 1) (rd_errAt_ne s (flowPage c) (flowPage c) _ _ _ _ _ (o := 0x44) (by decide))

/-! ### The obligation -/

/-- Settles O2: each command of the array by the law of the operation it runs. -/
theorem arrayCommandsComplete : Obligations.ArrayCommandsComplete := by
  unfold Obligations.ArrayCommandsComplete
  refine ⟨?_, ?_, ?_, ?_, ?_, ?_, ?_, ?_, ?_, ?_⟩
  · intro s c d hc runs idle head clean nonempty most op rsv room full
    exact completes_onFabric rfl hc runs (arr_passStart idle head clean nonempty most op rsv room full)
  · intro s c p hc runs hp more tokens room
    exact completes_onFabric rfl hc runs (arr_seqEntry hp more tokens room)
  · intro s c p q hc runs hp hq passed sound stays
    exact completes_onFabric rfl hc runs (seqResult_stored hp hq passed sound stays)
  · intro s c p q hc runs hp hq passed
    exact completes_onFabric rfl hc runs (seqResult_advances hp hq passed)
  · intro s c p q col i hc runs hp hq clean again fails
    exact completes_onFabric rfl hc runs (arr_seqResult_mismatch hp hq clean again fails)
  · intro s c k hc runs head loading room
    exact completes_onFabric rfl hc runs (arr_loadWToken head loading room)
  · intro s c hc runs loading whole
    exact completes_onFabric rfl hc runs (arr_tileFull loading whole)
  · intro s c req v hc g
    exact completes_onCore rfl hc (arrInject_arms hc g)
  · intro s c req b v hc hb g inactive
    refine completes_onCore rfl hc ?_
    obtain ⟨formats, invalid⟩ := arrCfgWrite_inactive (BitVec.ofNat 32 (plan s req (flowPage c) (0x400 + 4 * b) v.toNat).new) hb inactive
    rw [regCmd_arrCfg hc hb g]
    refine ⟨formats.trans ?_, invalid⟩
    rw [BitVec.toNat_ofNat, bits_mod_word _ (by decide), plan_arrCfg hb g, Nat.mod_eq_of_lt v.isLt]
  · intro s c req b v hc hb g active
    refine completes_onCore rfl hc ?_
    rw [regCmd_arrCfg hc hb g]
    exact arrCfgWrite_active _ hb active

end Sys2Proof.Machine
end

section
/-! PROOFS. An image load reads from where FLOW_IMG_ADDR stood at its start, whatever the register holds since (R143). -/
namespace Sys2Proof.Machine
open Sys2Proof

/-- A bank that is ON holds back an access that its region makes wait (R207, R209). -/
theorem bankAsk_of_regionWaits {s : State} {c who w : Nat} (untested : (core s c).test = false) (stands : coreClosed s c = false)
    (on : bankState s c (bankOf w) = 0) (waits : regionWaits s c who w = true) : bankAsk s c who w = (s, some .wait) := by
  unfold bankAsk
  simp only [untested, stands, on, waits, Bool.false_and, Bool.false_eq_true, if_false, if_true]

/-- A read of several words waits with its first word. -/
theorem spadReadAll_of_wait {s : State} {c who w : Nat} (waits : bankAsk s c who w = (s, some .wait)) (n : Nat) :
    spadReadAll s c who w (n + 1) = (s, .wait, []) := by
  have first : spadRead s c who w .clean = (s, .wait) := by rw [spadRead, waits]
  rw [spadReadAll, first]

/-- A load goes on while the first word of its image waits (R143). -/
theorem loadDone_of_wait {s : State} {c : Nat} (held : rangeWaiting (core s c) whoLoader 0 = false)
    (waits : bankAsk s c whoLoader (fabOf s c).loadAt = (s, some .wait)) : loadDone s c = s := by
  unfold loadDone
  split
  · rfl
  · simp only [held, Bool.false_eq_true, if_false, spadReadAll_of_wait waits 511]

theorem exec_imageLoadComplete (s : State) (c : Nat) : exec (.imageLoadComplete c) s = onCore c (loadDone s c) := rfl

/-- Every bank of core 0 is ON. Its loader reads an image from word 8192, in region 1, which is UNORDERED, so that the load holds no range, and is
being recoded; FLOW_IMG_ADDR has been set to 0 since the load began. -/
def imageMoved : State :=
  let s := fdSet (setFab (Tests.wBanks Tests.wUp) 0 { load := some 1, loadAt := 8192 }) (spadPage 0) (fSPAD_REGION_UNORD.at 1) 1
  setCore s 0 { core s 0 with sp := { (core s 0).sp with recode := [1] } }

/-- Refutes O3: IMAGE_LOAD_COMPLETE is said of the words FLOW_IMG_ADDR names when the load ends, but the load reads those it named when the load
began. The 512 words at 0 can all be read, the first at 8192 waits for its region (R209), and so the load goes on. -/
theorem not_fabricCommandsComplete : ¬ Obligations.FabricCommandsComplete := by
  unfold Obligations.FabricCommandsComplete
  rintro ⟨-, -, -, -, -, imageLoadEnds, -⟩
  have held : rangeWaiting (core imageMoved 0) whoLoader 0 = false := by decide +kernel
  have readable : (spadReadAll imageMoved 0 whoLoader (fd imageMoved (flowPage 0) fFLOW_IMG_ADDR_ADDR * 512) 512).2.1 = .word 0 false := by
    decide +kernel
  have waits : bankAsk imageMoved 0 whoLoader 8192 = (imageMoved, some .wait) :=
    bankAsk_of_regionWaits (by decide +kernel) (by decide +kernel) (by decide +kernel) (by decide +kernel)
  obtain ⟨t, answers, ended, -⟩ := imageLoadEnds imageMoved 0 1 (by decide) (by decide +kernel) (by decide +kernel) held readable
  have at8192 : (fabOf imageMoved 0).loadAt = 8192 := by decide +kernel
  rw [exec_imageLoadComplete, loadDone_of_wait held (at8192 ▸ waits), onCore_lt _ (by decide)] at answers
  cases answers
  exact absurd ended (by decide +kernel)

end Sys2Proof.Machine
end

section
/-! PROOFS. What a CFGSW leaves of a core beside the units it starts afresh (R147, R149, R150): the configuration buffers, the sequencer and
FLOW_STATUS. One lemma per operation, callees before callers; a lemma takes what holds up to the operation and gives what holds after it. -/
namespace Sys2Proof.Machine
open Sys2Proof

/-- A core's record without its units, its scratchpad, its queue engine, its links and the outcomes its sequencer notes. -/
def steady (k : Core) : Core :=
  { k with arr := {}, cus := [], mus := [], sp := {}, qe := {}, fab := { k.fab with links := [] }, seq := { k.seq with issued := [] } }

/-- From `s` to `t` the units of core `c` have worked beside its configuration and its sequencer; no register at the offset of FLOW_STATUS changed. -/
structure UnitWork (c : Nat) (s t : State) : Prop where
  record : steady (core t c) = steady (core s c)
  status : ∀ p, rd t p 0x40 = rd s p 0x40

section
variable {c : Nat} {s x : State}

theorem UnitWork.refl (c : Nat) (s : State) : UnitWork c s s := ⟨rfl, fun _ => rfl⟩
theorem UnitWork.trans {t u : State} (h : UnitWork c s t) (k : UnitWork c t u) : UnitWork c s u :=
  ⟨k.record.trans h.record, fun p => (k.status p).trans (h.status p)⟩
theorem UnitWork.foldl {α : Type} {f : State → α → State} (h : UnitWork c s x) (hf : ∀ {u} (e), UnitWork c s u → UnitWork c s (f u e))
    (l : List α) : UnitWork c s (l.foldl f x) := by
  induction l generalizing x with
  | nil => exact h
  | cons e l ih => exact ih (hf e h)
theorem UnitWork.ite {P : Prop} [Decidable P] {t u : State} (ht : UnitWork c s t) (hu : UnitWork c s u) : UnitWork c s (if P then t else u) := by
  split <;> assumption
theorem UnitWork.of_eq {t : State} (h : UnitWork c s x) (cores : t.cores = x.cores) (regs : t.regs = x.regs) : UnitWork c s t :=
  h.trans ⟨by simp only [core, cores], fun p => rd_of_regs regs p _⟩

theorem UnitWork.sw {t : State} (h : UnitWork c s t) : (fabOf t c).sw = (fabOf s c).sw := congrArg (·.fab.sw) h.record
theorem UnitWork.wait {t : State} (h : UnitWork c s t) : (seqr t c).wait = (seqr s c).wait := congrArg (·.seq.wait) h.record
theorem UnitWork.activeBuf {t : State} (h : UnitWork c s t) : activeBuf t c = activeBuf s c := congrArg (bits · 0 1) (h.status _)
theorem UnitWork.epoch {t : State} (h : UnitWork c s t) : epoch t c = epoch s c := congrArg (bits · 1 1) (h.status _)
/-- The mode of a memory unit stands in the tables of the buffers (R178). -/
theorem muMode_of_bufs {s t : State} {c : Nat} (h : (fabOf t c).buf0 = (fabOf s c).buf0 ∧ (fabOf t c).buf1 = (fabOf s c).buf1) (b m : Nat) :
    muMode t c b m = muMode s c b m := by
  obtain ⟨h0, h1⟩ := h
  unfold fabOf at h0 h1
  have table : 656 + 32 * m + 0 ≠ 2 := by omega
  simp only [muMode, muWord, bufWord, if_neg table, h0, h1]
theorem UnitWork.muMode {t : State} (h : UnitWork c s t) (b m : Nat) : muMode t c b m = muMode s c b m :=
  muMode_of_bufs ⟨congrArg (·.fab.buf0) h.record, congrArg (·.fab.buf1) h.record⟩ b m

/-! ### Registers, captures, reports -/

theorem wr_unitWork (h : UnitWork c s x) (p : PageId) {off : Nat} (v : Nat) (ho : off / 4 % 1024 ≠ 16 := by decide) : UnitWork c s (wr x p off v) :=
  h.trans ⟨rfl, fun _ => rd_wr_offset_ne x v ho⟩
theorem fdSet_unitWork (h : UnitWork c s x) (p : PageId) {f : FRef} (v : Nat) (ho : f.off / 4 % 1024 ≠ 16 := by decide) :
    UnitWork c s (fdSet x p f v) :=
  wr_unitWork h p _ ho
theorem bumpBy_unitWork (h : UnitWork c s x) (p : PageId) {off : Nat} (n : Nat)
    (ho : off / 4 % 1024 ≠ 16 ∧ (off + 4) / 4 % 1024 ≠ 16 := by decide) : UnitWork c s (bumpBy x p off n) :=
  .ite h (wr_unitWork (wr_unitWork h p _ ho.1) p _ ho.2)
theorem bump_unitWork (h : UnitWork c s x) (p : PageId) {off : Nat}
    (ho : off / 4 % 1024 ≠ 16 ∧ (off + 4) / 4 % 1024 ≠ 16 := by decide) : UnitWork c s (bump x p off) :=
  bumpBy_unitWork h p 1 ho
theorem raiseInt_unitWork (h : UnitWork c s x) (p : PageId) (n : Nat) : UnitWork c s (raiseInt x p n) :=
  h.trans ⟨by simp only [core, raiseInt_cores], fun _ => rd_raiseInt_ne _ _ _ _ (by decide)⟩
theorem errAt_unitWork (h : UnitWork c s x) (p : PageId) (code source detail addr tag : Nat) :
    UnitWork c s (errAt x p code source detail addr tag) :=
  h.trans ⟨by simp only [core, errAt_cores], fun _ => rd_errAt_ne _ _ _ _ _ _ _ _ (by decide)⟩
theorem qErr_unitWork (h : UnitWork c s x) (d code source detail addr int : Nat) : UnitWork c s (qErr x d code source detail addr int) :=
  raiseInt_unitWork (errAt_unitWork h _ _ _ _ _ _) _ _
theorem coreErr_unitWork (h : UnitWork c s x) (d code source detail addr : Nat) (int : Option Nat) :
    UnitWork c s (coreErr x d code source detail addr int) := by
  cases int with
  | none => exact errAt_unitWork h _ _ _ _ _ _
  | some n => exact raiseInt_unitWork (errAt_unitWork h _ _ _ _ _ _) _ _
theorem report_unitWork (h : UnitWork c s x) (r : Report) : UnitWork c s (report x r) :=
  h.trans ⟨by simp [core], fun p => rd_report x r p _⟩
theorem watch_unitWork (h : UnitWork c s x) (kind unit ticks : Nat) : UnitWork c s (watch x kind unit ticks) := h.of_eq rfl rfl

/-! ### Ranges and reads of the scratchpad -/

theorem setCore_unitWork (h : UnitWork c s x) {k : Core} (hk : steady k = steady (core x c)) : UnitWork c s (setCore x c k) :=
  h.trans ⟨by rw [core_setCore_same, hk], fun _ => rfl⟩
theorem rangeRelease_unitWork (h : UnitWork c s x) (owner id : Nat) : UnitWork c s (rangeRelease x c owner id) := setCore_unitWork h rfl
theorem rangeAsk_unitWork (h : UnitWork c s x) (r : Range) : UnitWork c s (rangeAsk x c r).1 := by
  unfold rangeAsk
  dsimp only
  split
  · exact raiseInt_unitWork (errAt_unitWork h _ _ _ _ _ _) _ _
  · split
    · exact h
    · split
      · exact h
      · exact setCore_unitWork h rfl
theorem rangeGrant_unitWork (h : UnitWork c s x) (n : Nat) : UnitWork c s (rangeGrant x c n) := by
  unfold rangeGrant
  dsimp only
  split
  · exact h
  · exact .ite h (.ite (setCore_unitWork h rfl) (setCore_unitWork h rfl))
theorem rangeTake_unitWork (h : UnitWork c s x) (r : Range) : UnitWork c s (rangeTake x c r).1 := by
  have ask := rangeAsk_unitWork h r
  unfold rangeTake
  dsimp only
  split
  · split
    · exact h
    · exact rangeGrant_unitWork h _
  · split <;> rename_i e <;> rw [e] at ask
    · split
      · exact ask
      · exact rangeGrant_unitWork ask _
    all_goals exact ask

theorem setBank_unitWork (h : UnitWork c s x) (d w v : Nat) : UnitWork c s (setBank x d (bankOf w) v) :=
  fdSet_unitWork h _ v (by simp only [bankF, FRef.sub, FRef.at, bankOf, fSPAD_BANK_STATE_S]; omega)
theorem bankRefuse_unitWork (h : UnitWork c s x) (d who w code source : Nat) : UnitWork c s (bankRefuse x d who w code source) :=
  raiseInt_unitWork (errAt_unitWork h _ _ _ _ _ _) _ _
theorem bankAsk_unitWork (h : UnitWork c s x) (d who w : Nat) : UnitWork c s (bankAsk x d who w).1 := by
  unfold bankAsk
  dsimp only
  split
  · exact h
  · split
    · exact bankRefuse_unitWork h _ _ _ _ _
    · split
      · exact h
      · exact bump_unitWork (setBank_unitWork h d w 5) _
      · exact bankRefuse_unitWork (bump_unitWork h _) _ _ _ _ _
      · exact bump_unitWork h _
      · exact h
      · exact bankRefuse_unitWork h _ _ _ _ _
      · exact h
theorem noteFlips_unitWork (h : UnitWork c s x) (w : Nat) (e : Ecc) : UnitWork c s (noteFlips x c w e) := .ite h (setCore_unitWork h rfl)
theorem applyWord_unitWork (h : UnitWork c s x) (w : Nat) (v : DWord) (p : Bool) : UnitWork c s (applyWord x c w v p) := by
  have stored : UnitWork c s (storeWord x c w v p) := by
    unfold storeWord
    dsimp only
    split <;> exact setCore_unitWork h rfl
  exact setCore_unitWork stored rfl
theorem spadUncorrectable_unitWork (h : UnitWork c s x) (w : Nat) (scrub : Bool) (who : Nat) :
    UnitWork c s (spadUncorrectable x c w scrub who) := by
  have counted := bump_unitWork h (spadPage c) (off := 0xC10)
  have held : (fSPAD_REGION_HOLD.at (regionOf w)).off / 4 % 1024 ≠ 16 := by
    simp only [FRef.at, regionOf, fSPAD_REGION_HOLD]; omega
  unfold spadUncorrectable reportCore
  dsimp only
  split
  · exact report_unitWork (raiseInt_unitWork (errAt_unitWork (fdSet_unitWork counted _ _ held) _ _ _ _ _ _) _ _) _
  · exact report_unitWork (raiseInt_unitWork (errAt_unitWork (applyWord_unitWork counted _ _ _) _ _ _ _ _ _) _ _) _
theorem spadFetch_unitWork (h : UnitWork c s x) (w : Nat) (e : Ecc) (who : Nat) : UnitWork c s (spadFetch x c w e who).1 := by
  have read := bump_unitWork (noteFlips_unitWork h w e) (spadPage c) (off := 0xC38)
  unfold spadFetch
  dsimp only
  split
  · refine watch_unitWork (bump_unitWork (setCore_unitWork read ?_) _) _ _ _
    rfl
  · split
    · exact read
    · exact spadUncorrectable_unitWork read _ _ _
  · exact read
theorem spadRead_unitWork (h : UnitWork c s x) (who w : Nat) (e : Ecc) : UnitWork c s (spadRead x c who w e).1 := by
  have ask := bankAsk_unitWork h c who w
  unfold spadRead
  split <;> rename_i a <;> rw [a] at ask
  · exact ask
  · exact spadFetch_unitWork ask _ _ _
theorem spadReadAll_unitWork (h : UnitWork c s x) (who w n : Nat) : UnitWork c s (spadReadAll x c who w n).1 := by
  induction n generalizing x w with
  | zero => exact h
  | succ n ih =>
    have read := spadRead_unitWork h who w .clean
    unfold spadReadAll
    split <;> rename_i e <;> rw [e] at read
    · exact ih read _
    · exact read

/-! ### The old configuration left, the new one started (R135, R149, R150, R169) -/

theorem qyPurge_unitWork (h : UnitWork c s x) (p : Nat) : UnitWork c s (qyPurge x c p) := by
  unfold qyPurge
  dsimp only
  refine .ite h (setCore_unitWork (qErr_unitWork (setCore_unitWork h ?_) _ _ _ _ _ _) ?_)
  · rfl
  · rfl
theorem arrSwitch_unitWork (h : UnitWork c s x) (old new : Nat) (purge : Bool) : UnitWork c s (arrSwitch x c old new purge) := by
  unfold arrSwitch
  dsimp only
  refine setCore_unitWork (.ite (bump_unitWork h _) h) ?_
  rfl
theorem setCu_unitWork (h : UnitWork c s x) (n : Nat) (u : Cu) : UnitWork c s (setCu x c n u) := setCore_unitWork h rfl
theorem updConsts_unitWork (h : UnitWork c s x) (n : Nat) : UnitWork c s (updConsts x c n).1 := by
  have store : ∀ {u : State} (p : Bool) (y : Cu), UnitWork c s u →
      UnitWork c s (if p then coreErr (setCu u c n y) c cPOISON 0x66 n 0 (some 11) else setCu u c n y) :=
    fun p y k => .ite (coreErr_unitWork (setCu_unitWork k n y) _ _ _ _ _ _) (setCu_unitWork k n y)
  have take := rangeTake_unitWork h { start := bits (cuWord x c (activeBuf x c) n 15) 0 20, len := 8, write := false, owner := 4 + n }
  unfold updConsts
  dsimp only
  rw [apply_ite Prod.fst]
  refine .ite h ?_
  split <;> rename_i e <;> rw [e] at take <;> dsimp only at take ⊢
  · exact store _ _ take
  · exact take
  · have read := spadReadAll_unitWork take (4 + n) (bits (cuWord x c (activeBuf x c) n 15) 0 20) 8
    split <;> rename_i e <;> rw [e] at read <;> dsimp only at read ⊢
    · exact read
    · exact store _ _ (rangeRelease_unitWork read _ _)
    · exact store _ _ (rangeRelease_unitWork read _ _)
theorem startFlow_unitWork (h : UnitWork c s x) : UnitWork c s (startFlow x c) := by
  have started : UnitWork c s (startLinks x c) := setCore_unitWork h rfl
  exact started.foldl (fun n k => .ite (updConsts_unitWork k n) k) _
theorem startUnits_unitWork (h : UnitWork c s x) : UnitWork c s (startUnits x c) := by
  refine UnitWork.foldl ?_ (fun m k => .ite (rangeTake_unitWork k _) k) _
  exact setCore_unitWork h rfl

end

end Sys2Proof.Machine
end

section
/-! PROOFS. What a custom instruction of the sequencer comes to when it is issued (R179, R183, R189), and how one that waits completes. -/
namespace Sys2Proof.Machine
open Sys2Proof

/-! ### The sequencer's record and registers -/

section
variable (s : State) (c : Nat)

@[simp] theorem seqr_setSeq_same (q : Seq) : seqr (setSeq s c q) c = q := by rw [seqr, setSeq, core_setCore_same]
@[simp] theorem fabOf_setSeq_same (q : Seq) : fabOf (setSeq s c q) c = fabOf s c := by rw [fabOf, setSeq, core_setCore_same]; rfl
@[simp] theorem fabOf_setFab_same (f : Fab) : fabOf (setFab s c f) c = f := by rw [fabOf, setFab, core_setCore_same]
@[simp] theorem seqr_setFab_same (f : Fab) : seqr (setFab s c f) c = seqr s c := by rw [seqr, setFab, core_setCore_same]; rfl
theorem seqr_of_cores {s t : State} (h : t.cores = s.cores) (c : Nat) : seqr t c = seqr s c := by rw [seqr, core, h]; rfl
theorem fabOf_of_cores {s t : State} (h : t.cores = s.cores) (c : Nat) : fabOf t c = fabOf s c := by rw [fabOf, core, h]; rfl

@[simp] theorem setSeqSt_cores (st on : Nat) : (setSeqSt s c st on).cores = s.cores := by unfold setSeqSt; dsimp only; split <;> rfl
@[simp] theorem setSeqSt_out (st on : Nat) : (setSeqSt s c st on).out = s.out := by unfold setSeqSt; dsimp only; split <;> rfl
@[simp] theorem seqr_setSeqSt (st on : Nat) : seqr (setSeqSt s c st on) c = seqr s c := seqr_of_cores (setSeqSt_cores ..) c
@[simp] theorem fabOf_setSeqSt (st on : Nat) : fabOf (setSeqSt s c st on) c = fabOf s c := fabOf_of_cores (setSeqSt_cores ..) c

/-- STATE set is STATE read. -/
theorem seqSt_setSeqSt {st : Nat} (on : Nat) (h : st < 16) : seqSt (setSeqSt s c st on) c = st := by
  have set : seqSt (fdSet (fdSet s (cPage c) fCORE_SEQ_STATE_STATE st) (cPage c) fCORE_SEQ_STATE_WAITON on) c = st :=
    (fd_fdSet_ne _ _ (f := fCORE_SEQ_STATE_WAITON) (g := fCORE_SEQ_STATE_STATE) on (by decide) rfl (by decide)).trans
      ((fd_fdSet_same _ _ _ _ (by decide)).trans (Nat.mod_eq_of_lt h))
  unfold setSeqSt
  dsimp only
  split
  · exact (congrArg (bits · 0 4) (rd_wr_offset_ne _ _ (by decide))).trans set
  · exact set
/-- Setting STATE leaves a register that is neither CORE_SEQ_CTL nor CORE_SEQ_STATE. -/
theorem rd_setSeqSt (st on : Nat) (p : PageId) {o : Nat} (h : 16 ≠ o / 4 % 1024 ∧ 17 ≠ o / 4 % 1024) :
    rd (setSeqSt s c st on) p o = rd s p o := by
  have set : ∀ u : State, rd (fdSet (fdSet u (cPage c) fCORE_SEQ_STATE_STATE st) (cPage c) fCORE_SEQ_STATE_WAITON on) p o = rd u p o :=
    fun _ => (rd_wr_offset_ne _ _ h.2).trans (rd_wr_offset_ne _ _ h.2)
  unfold setSeqSt
  dsimp only
  split
  · exact (rd_wr_offset_ne _ _ h.1).trans (set s)
  · exact set s

/-- A register of the FLOW page is none of the sequencer's. -/
theorem rd_flow_fdSet_core (f : FRef) (v : Nat) {o : Nat} (hf : f.off < 4096 := by decide) (ho : o < 4096 := by decide) :
    rd (fdSet s (cPage c) f v) (flowPage c) o = rd s (flowPage c) o :=
  rd_wr_corePage s (b := .flow) (b' := .core) (by decide) (by decide) _ (.inl (by decide)) ho hf
theorem rd_flow_setSeqSt (st on : Nat) {o : Nat} (ho : o < 4096 := by decide) : rd (setSeqSt s c st on) (flowPage c) o = rd s (flowPage c) o := by
  unfold setSeqSt
  dsimp only
  split
  · rw [rd_flow_fdSet_core _ _ _ _ (by decide) ho, rd_flow_fdSet_core _ _ _ _ (by decide) ho, rd_flow_fdSet_core _ _ _ _ (by decide) ho]
  · rw [rd_flow_fdSet_core _ _ _ _ (by decide) ho, rd_flow_fdSet_core _ _ _ _ (by decide) ho]

/-! ### How a custom instruction completes (R183) -/

theorem seqr_retire (pc : Nat) : seqr (retire s c pc) c = { seqr s c with instret := (seqr s c).instret + 1 } := by
  rw [retire, seqr_of_cores (s := setSeq s c { seqr s c with instret := (seqr s c).instret + 1 }) (by simp [setPc]), seqr_setSeq_same]
theorem fabOf_retire (pc : Nat) : fabOf (retire s c pc) c = fabOf s c := by
  rw [retire, fabOf_of_cores (s := setSeq s c { seqr s c with instret := (seqr s c).instret + 1 }) (by simp [setPc]), fabOf_setSeq_same]
/-- What completing leaves of the sequencer's record. -/
theorem seqr_seqFinish (rd : Nat) (v : Word) (code : Nat) : seqr (seqFinish s c rd v code) c =
    { seqr s c with x := (if rd % 32 = 0 then (seqr s c).x else tput (seqr s c).x (rd % 32) v), mxstat := code, wait := .none, napped := false,
                    instret := (seqr s c).instret + 1 } := by
  have set : seqr (xset s c rd v) c = { seqr s c with x := (if rd % 32 = 0 then (seqr s c).x else tput (seqr s c).x (rd % 32) v) } := by
    unfold xset
    split
    · rfl
    · rw [seqr_setSeq_same]
  unfold seqFinish
  dsimp only
  rw [seqr_setSeqSt, seqr_retire, seqr_setSeq_same, set]
/-- The value that completing gives to rd. -/
theorem xget_seqFinish {rd : Nat} (v : Word) (code : Nat) (h : rd % 32 ≠ 0) : xget (seqFinish s c rd v code) c rd = v := by
  rw [xget, if_neg h, seqr_seqFinish, if_neg h, tget_tput_same]
theorem seqFinish_out (rd : Nat) (v : Word) (code : Nat) : (seqFinish s c rd v code).out = s.out := by
  have set : (xset s c rd v).out = s.out := by unfold xset; split <;> rfl
  exact (setSeqSt_out ..).trans set
theorem fabOf_seqFinish (rd : Nat) (v : Word) (code : Nat) : fabOf (seqFinish s c rd v code) c = fabOf s c := by
  have set : fabOf (xset s c rd v) c = fabOf s c := by
    unfold xset
    split
    · rfl
    · exact fabOf_setSeq_same ..
  unfold seqFinish
  dsimp only
  rw [fabOf_setSeqSt, fabOf_retire, fabOf_setSeq_same, set]
theorem rd_flow_seqFinish (r : Nat) (v : Word) (code : Nat) {o : Nat} (ho : o < 4096) :
    rd (seqFinish s c r v code) (flowPage c) o = rd s (flowPage c) o := by
  have set : rd (xset s c r v) (flowPage c) o = rd s (flowPage c) o := by unfold xset; split <;> rfl
  have counted : ∀ u : State, rd (bump u (cPage c) 0xC00) (flowPage c) o = rd u (flowPage c) o := fun u =>
    have core_ne_flow : Blk.flow ≠ .core := by decide
    (rd_wr_corePage _ (b := .flow) (b' := .core) (by decide) (by decide) _ (.inl core_ne_flow) ho (by decide)).trans
      (rd_wr_corePage _ (b := .flow) (b' := .core) (by decide) (by decide) _ (.inl core_ne_flow) ho (by decide))
  unfold seqFinish
  dsimp only
  rw [rd_flow_setSeqSt _ _ _ _ ho, retire, setPc, rd_flow_fdSet_core _ _ _ _ (by decide) ho, counted]
  exact set

end

/-! ### What an instruction that is issued comes to (R179, R189) -/

section
variable {s : State} {c w len : Nat} {e : Ecc} {want : Nat → Bool}
  (runs : seqSt s c = 1) (fetched : fetchAt s c = .instr w len) (wanted : want w = true)
include runs fetched wanted

/-- A running sequencer carries out the instruction at its PC; where it runs on, no more than STATE may then be set. -/
theorem seqIssue_cases : seqIssue s c e want = seqBase s c w len e ∨
    (seqSt (seqBase s c w len e) c = 1 ∧ ∃ st on, seqIssue s c e want = setSeqSt (seqBase s c w len e) c st on) := by
  unfold seqIssue
  simp only [runs, fetched, wanted, Bool.not_true, Bool.false_eq_true, if_false, BEq.rfl, Bool.true_or, show ((1 : Nat) == 2) = false from rfl,
    Bool.false_and]
  generalize seqBase s c w len e = t
  by_cases on : seqSt t c = 1
  · have set : ∀ (p : Prop) [Decidable p] (st w : Nat), (if p then setSeqSt t c st w else t) = t ∨
        (seqSt t c = 1 ∧ ∃ st' w', (if p then setSeqSt t c st w else t) = setSeqSt t c st' w') := fun p _ st w => by
      split
      · exact .inr ⟨on, st, w, rfl⟩
      · exact .inl rfl
    rw [if_neg (not_not.2 on)]
    split
    · exact set _ _ _
    · exact set _ _ _
  · exact .inl (if_pos on)
/-- One that stops the sequencer is carried out, no more. -/
theorem seqIssue_of_stops (stops : seqSt (seqBase s c w len e) c ≠ 1) : seqIssue s c e want = seqBase s c w len e :=
  (seqIssue_cases runs fetched wanted).resolve_right fun h => stops h.1
/-- What holds once an instruction is carried out, whatever STATE is then set to, holds after its issue. -/
theorem seqIssue_induct {P : State → Prop} (done : P (seqBase s c w len e)) (control : ∀ t st on, P t → P (setSeqSt t c st on)) :
    P (seqIssue s c e want) := by
  rcases seqIssue_cases runs fetched wanted with h | ⟨-, st, on, h⟩ <;> rw [h]
  · exact done
  · exact control _ st on done

end

theorem customKind_iff {op f3 w : Nat} : customKind op f3 w = true ↔ rvOp w = op ∧ rvF3 w = f3 ∧ rvF7 w = 0 := by
  simp [customKind, and_assoc]
theorem seqBase_mile {s : State} {c w len : Nat} {e : Ecc} (h : customKind 0x0B 7 w = true) :
    seqBase s c w len e = seqMile s c (rvRd w) (xget s c (rvRs1 w)) := by
  obtain ⟨op, f3, f7⟩ := customKind_iff.mp h
  simp only [seqBase, seqCustom, op, f3, f7, ne_eq, not_true_eq_false, if_false, BitVec.ofNat_toNat, BitVec.setWidth_eq]
  rfl
theorem seqBase_nap {s : State} {c w len : Nat} {e : Ecc} (h : customKind 0x2B 0 w = true) :
    seqBase s c w len e = seqNap s c (rvRd w) (xget s c (rvRs1 w)).toNat := by
  obtain ⟨op, f3, f7⟩ := customKind_iff.mp h
  simp only [seqBase, seqCustom, op, f3, f7, ne_eq, not_true_eq_false, if_false, if_true]
theorem seqBase_cfgsw {s : State} {c w len : Nat} {e : Ecc} (h : customKind 0x0B 6 w = true) :
    seqBase s c w len e = cfgswIssue s c (rvRd w) (bit (xget s c (rvRs1 w)).toNat 0) := by
  obtain ⟨op, f3, f7⟩ := customKind_iff.mp h
  simp only [seqBase, seqCustom, op, f3, f7, ne_eq, not_true_eq_false, if_false]
  rfl

end Sys2Proof.Machine
end

section
/-! PROOFS. The sequencer's MILE, NAP and CFGSW (R146–R150, R184–R186): the waits they begin, and their ends. -/
namespace Sys2Proof.Machine
open Sys2Proof

/-! ### Waits that begin and end (R184, R186) -/

section
variable {s : State} {c : Nat}

theorem seqr_seqWait (w : Wait) (st on : Nat) : seqr (seqWait s c w st on) c = { seqr s c with wait := w } := by
  rw [seqWait, seqr_setSeqSt, seqr_setSeq_same]
theorem seqSt_seqWait (w : Wait) {st : Nat} (on : Nat) (h : st < 16) : seqSt (seqWait s c w st on) c = st := seqSt_setSeqSt _ c on h
theorem pcOf_seqWait (w : Wait) (st on : Nat) : pcOf (seqWait s c w st on) c = pcOf s c :=
  congrArg (bits · 0 32) (rd_setSeqSt (setSeq s c _) c st on (cPage c) (by decide))

/-- MILE of the core's milestone waits (R184). -/
theorem seqMile_of_current (rd : Nat) {n : Word} (h : n.toNat = fd s (cPage c) fCORE_STEP_MILE_MILE) :
    seqMile s c rd n = seqWait s c (.mile rd n) 2 4 := if_neg (not_not.2 h)

/-- NAP with a mask, of which no cause is pending, waits (R186). -/
theorem seqNap_of_none_pending (rd : Nat) {v : Nat} (mask : v % 32 ≠ 0) (pending : (seqr s c).causes &&& (v % 32) = 0) :
    seqNap s c rd v = seqWait s c (.nap rd (v % 32) (v / 256) s.now) 2 6 :=
  if_neg (not_or.2 ⟨fun h => mask h.1, not_not.2 pending⟩)

/-- MILE completes with OK once every outcome is OK: nothing issued is left, and the digest goes out (R184, R451). -/
theorem mileDone_of_ok {rd : Nat} {n : Word} (waits : (seqr s c).wait = .mile rd n)
    (ok : (seqr s c).issued.all (fun i => i.outcome == some 0) = true) :
    mileDone s c = seqFinish (digestOut (setSeq s c { seqr s c with issued := [] }) c n.toNat (stepDigest s c)) c rd 0 cOK := by
  have each : ∀ i ∈ (seqr s c).issued, i.outcome = some cOK := fun i hi => beq_iff_eq.mp (List.all_eq_true.mp ok i hi)
  have final : (seqr s c).issued.any (fun i => i.outcome.isNone) = false :=
    List.any_eq_false.mpr fun i hi => by rw [each i hi]; decide
  have first : (seqr s c).issued.find? (fun i => i.outcome != some cOK) = none :=
    List.find?_eq_none.mpr fun i hi => by rw [each i hi]; decide
  have index : (seqr s c).issued.findIdx? (fun i => i.outcome != some cOK) = none :=
    List.findIdx?_eq_none_iff.mpr fun i hi => by rw [each i hi]; decide
  unfold mileDone mileComplete
  simp only [waits, final, first, index, Bool.false_eq_true, if_false]
  rfl
/-- The digest goes out beside what the sequencer issued (R448). -/
theorem digestOut_issued (m : Nat) (v : DWord) : (seqr (digestOut s c m v) c).issued = (seqr s c).issued := by
  have kept : (seqr (setSeq s c { seqr s c with digest := some (m, v) }) c).issued = (seqr s c).issued := by rw [seqr_setSeq_same]
  have sent : ∀ (p : Prop) [Decidable p] (u : State) (o : Out), seqr (if p then send u o else u) c = seqr u c := fun p _ u o => by split <;> rfl
  unfold digestOut
  dsimp only
  split
  · rfl
  · exact (congrArg Seq.issued (sent _ _ _)).trans kept
theorem digestOut_of_unpaired (m : Nat) (v : DWord) (h : corePaired s c = false) : digestOut s c m v = send s (.digest c m v) :=
  if_pos (by rw [h]; rfl)

/-- A core at rest enters its NAP (R186). -/
theorem napEntry_of_rest {rd mask timer since : Nat} (waits : (seqr s c).wait = .nap rd mask timer since) (awake : (seqr s c).napped = false)
    (rest : napRest s c = true) :
    napEntry s c = setSeqSt (setSeq s c { seqr s c with napped := true }) c 3 (fd s (cPage c) fCORE_SEQ_STATE_WAITON) := by
  unfold napEntry
  simp only [waits, awake, rest, Bool.not_true, Bool.or_false, Bool.false_eq_true, if_false]

/-- A wake cause of its mask ends a NAP (R186). -/
theorem napWake_of_cause {rd mask timer since : Nat} (waits : (seqr s c).wait = .nap rd mask timer since)
    (pending : (seqr s c).causes &&& mask ≠ 0) : napWake s c = napEnd s c rd := by
  unfold napWake
  simp only [waits]
  exact if_pos pending
/-- A NAP ends as an instruction completes whose causes have been cleared (R186). -/
theorem napEnd_eq (rd : Nat) : ∃ u, (seqr u c).causes = 0 ∧ napEnd s c rd = seqFinish u c rd (BitVec.ofNat 32 ((seqr s c).causes % 32)) cOK :=
  ⟨_, by rw [seqr_setSeq_same], rfl⟩

/-- The timer of a NAP that runs out is cause 1 (R186). -/
theorem seqr_napTimer {rd mask timer since : Nat} (waits : (seqr s c).wait = .nap rd mask timer since) (set : timer ≠ 0) :
    seqr (napTimer s c) c = { seqr s c with wait := .nap rd mask 0 since, causes := (seqr s c).causes ||| 2 } := by
  unfold napTimer wakeCause
  simp only [waits, if_neg set, seqr_setSeq_same]
  rfl

/-! ### A CFGSW is issued (R146) -/

theorem seqr_fdSet (p : PageId) (f : FRef) (v d : Nat) : seqr (fdSet s p f v) d = seqr s d := rfl
theorem fabOf_fdSet (p : PageId) (f : FRef) (v d : Nat) : fabOf (fdSet s p f v) d = fabOf s d := rfl

/-- Another field of FLOW_STATUS than ACTIVE and EPOCH is set beside them. -/
theorem activeBuf_epoch_fdSet {f : FRef} (v : Nat) (h : f.off = 0x40 ∧ 2 ≤ f.lo ∧ f.lo + f.w ≤ 32) :
    activeBuf (fdSet s (flowPage c) f v) c = activeBuf s c ∧ epoch (fdSet s (flowPage c) f v) c = epoch s c := by
  obtain ⟨off, lo, hi⟩ := h
  exact ⟨fd_fdSet_ne _ _ v hi off.symm (.inr (by change 1 ≤ f.lo; omega)), fd_fdSet_ne _ _ v hi off.symm (.inr (by change 2 ≤ f.lo; omega))⟩
theorem activeBuf_epoch_of_rd {t : State} (h : rd t (flowPage c) 0x40 = rd s (flowPage c) 0x40) :
    activeBuf t c = activeBuf s c ∧ epoch t c = epoch s c := ⟨congrArg (bits · 0 1) h, congrArg (bits · 1 1) h⟩

/-- A core whose sequencer has issued a CFGSW, before the CFGSW goes on: the QX ports stop and the sequencer waits. -/
def cfgswBegun (s : State) (c rd : Nat) (purge : Bool) : State :=
  let s := setSeqSt (setSeq s c { seqr s c with wait := .cfgsw rd }) c 5 0
  let s := fdSet (fdSet s (flowPage c) fFLOW_STATUS_FORM (b2n purge)) (flowPage c) fFLOW_STATUS_QSTOP 1
  setFab s c { fabOf s c with sw := some { purge := purge, issued := s.now } }
theorem cfgswIssue_eq (s : State) (c rd : Nat) (purge : Bool) : cfgswIssue s c rd purge = cfgswAdvance (cfgswBegun s c rd purge) c := rfl

theorem setSeqSt_now (st on : Nat) : (setSeqSt s c st on).now = s.now := by unfold setSeqSt; dsimp only; split <;> rfl
theorem fabOf_cfgswBegun (rd : Nat) (purge : Bool) :
    fabOf (cfgswBegun s c rd purge) c = { fabOf s c with sw := some { purge := purge, issued := s.now } } := by
  unfold cfgswBegun
  dsimp only
  rw [fabOf_setFab_same]
  simp only [fabOf_fdSet, fabOf_setSeqSt, fabOf_setSeq_same, fdSet_now, setSeqSt_now]
  rfl
theorem wait_cfgswBegun (rd : Nat) (purge : Bool) : (seqr (cfgswBegun s c rd purge) c).wait = .cfgsw rd := by
  unfold cfgswBegun
  dsimp only
  rw [seqr_setFab_same]
  simp only [seqr_fdSet, seqr_setSeqSt, seqr_setSeq_same]
/-- The buffers stand as they did when a CFGSW begins. -/
theorem buffers_cfgswBegun (r : Nat) (purge : Bool) : activeBuf (cfgswBegun s c r purge) c = activeBuf s c ∧
    epoch (cfgswBegun s c r purge) c = epoch s c ∧ ∀ b, validBuf (cfgswBegun s c r purge) c b = validBuf s c b := by
  let u := setSeqSt (setSeq s c { seqr s c with wait := .cfgsw r }) c 5 0
  have words : ∀ {o : Nat}, o < 4096 → rd u (flowPage c) o = rd s (flowPage c) o := fun ho => rd_flow_setSeqSt _ c 5 0 ho
  obtain ⟨active, ep⟩ := activeBuf_epoch_of_rd (s := s) (t := u) (words (by decide))
  obtain ⟨activeForm, epForm⟩ := activeBuf_epoch_fdSet (s := u) (c := c) (f := fFLOW_STATUS_FORM) (b2n purge) (by decide)
  obtain ⟨activeStop, epStop⟩ := activeBuf_epoch_fdSet (s := fdSet u (flowPage c) fFLOW_STATUS_FORM (b2n purge)) (c := c) (f := fFLOW_STATUS_QSTOP) 1 (by decide)
  have valid : rd (cfgswBegun s c r purge) (flowPage c) 0x44 = rd s (flowPage c) 0x44 := by
    change rd (wr (wr u (flowPage c) 0x40 _) (flowPage c) 0x40 _) (flowPage c) 0x44 = _
    rw [rd_wr_offset_ne _ _ (by decide), rd_wr_offset_ne _ _ (by decide), words (by decide)]
  exact ⟨activeStop.trans (activeForm.trans active), epStop.trans (epForm.trans ep), fun b => congrArg (bits · (0 + 1 * b) 1 == 1) valid⟩
theorem qstop_cfgswBegun (rd : Nat) (purge : Bool) : fb (cfgswBegun s c rd purge) (flowPage c) fFLOW_STATUS_QSTOP = true :=
  congrArg (· == 1) (fd_fdSet_same _ (flowPage c) fFLOW_STATUS_QSTOP 1 (by decide))

/-- Going on, a QUIESCE sets SWITCH and may begin a validation: it stays under way, the QX ports stopped (R146). -/
theorem cfgswAdvance_quiesce {x : Cfgsw} (sw : (fabOf s c).sw = some x) (form : x.purge = false) :
    (fabOf (cfgswAdvance s c) c).sw = some x ∧ (seqr (cfgswAdvance s c) c).wait = (seqr s c).wait ∧
      fb (cfgswAdvance s c) (flowPage c) fFLOW_STATUS_QSTOP = fb s (flowPage c) fFLOW_STATUS_QSTOP ∧ activeBuf (cfgswAdvance s c) c = activeBuf s c := by
  have shown : ∀ (u : State) v, fb (fdSet u (flowPage c) fFLOW_STATUS_SWITCH v) (flowPage c) fFLOW_STATUS_QSTOP = fb u (flowPage c) fFLOW_STATUS_QSTOP :=
    fun u v => congrArg (· == 1) (fd_fdSet_ne u (flowPage c) (f := fFLOW_STATUS_SWITCH) (g := fFLOW_STATUS_QSTOP) v (by decide) rfl (by decide))
  have active : ∀ (u : State) v, activeBuf (fdSet u (flowPage c) fFLOW_STATUS_SWITCH v) c = activeBuf u c := fun u v => (activeBuf_epoch_fdSet v (by decide)).1
  unfold cfgswAdvance
  simp only [sw, form, Bool.false_eq_true, if_false]
  split
  · exact ⟨sw, rfl, rfl, rfl⟩
  · split
    · rw [fabOf_fdSet, seqr_fdSet, shown, active]
      unfold startCheck
      split
      · exact ⟨sw, rfl, rfl, rfl⟩
      · rw [fabOf_fdSet, seqr_fdSet, fabOf_setFab_same, seqr_setFab_same]
        have word : rd (fdSet (setFab s c { fabOf s c with check := some (1 - activeBuf s c) }) (flowPage c) fFLOW_CFG_STATUS_CHECKING 1) (flowPage c) 0x40 =
            rd s (flowPage c) 0x40 := rd_wr_offset_ne _ _ (by decide)
        exact ⟨sw, rfl, congrArg (bits · 5 1 == 1) word, congrArg (bits · 0 1) word⟩
    · exact ⟨sw, rfl, shown _ _, active _ _⟩

end

/-! ### A switch (R135, R147, R149, R150) -/

section
variable {s : State} {c : Nat}

/-- FLOW_STATUS with another active buffer and the other epoch. -/
def statusSwitched (s : State) (c new : Nat) : State :=
  fdSet (fdSet s (flowPage c) fFLOW_STATUS_ACTIVE new) (flowPage c) fFLOW_STATUS_EPOCH (1 - epoch s c)
theorem activeBuf_statusSwitched {new : Nat} (h : new < 2) : activeBuf (statusSwitched s c new) c = new :=
  (fd_fdSet_ne _ _ (f := fFLOW_STATUS_EPOCH) (g := fFLOW_STATUS_ACTIVE) _ (by decide) rfl (by decide)).trans
    ((fd_fdSet_same _ _ _ _ (by decide)).trans (Nat.mod_eq_of_lt h))
theorem epoch_statusSwitched (new : Nat) : epoch (statusSwitched s c new) c = 1 - epoch s c :=
  (fd_fdSet_same _ _ _ _ (by decide)).trans (Nat.mod_eq_of_lt (show 1 - epoch s c < 2 by omega))

theorem muMode_statusSwitched (new b m : Nat) : muMode (statusSwitched s c new) c b m = muMode s c b m :=
  muMode_of_bufs (s := s) (t := statusSwitched s c new) (c := c) ⟨rfl, rfl⟩ b m
theorem startAfresh_unitWork {x : State} (h : UnitWork c s x) : UnitWork c s (startUnits (setFab x c { fabOf x c with links := [] }) c) :=
  startUnits_unitWork (setCore_unitWork h rfl)
/-- Beside FLOW_STATUS, a switch is the work of units: what is left of the old configuration goes, and the new one's units start. -/
theorem activate_unitWork (s : State) (c : Nat) (purge : Bool) :
    ∃ u, UnitWork c s u ∧ UnitWork c (statusSwitched u c (1 - activeBuf s c)) (activate s c purge) := by
  have left := (arrSwitch_unitWork (.refl c s) (activeBuf s c) (1 - activeBuf s c) purge).foldl (fun m k => rangeRelease_unitWork k m 0) (List.range 10)
  refine ⟨_, left, ?_⟩
  unfold activate
  dsimp only
  generalize (List.range 10).foldl (fun s m => rangeRelease s c m 0) (arrSwitch s c (activeBuf s c) (1 - activeBuf s c) purge) = u
  exact startAfresh_unitWork (.ite (fdSet_unitWork (.refl c (statusSwitched u c (1 - activeBuf s c))) _ _) (.refl ..))

/-- The switch changes ACTIVE and the epoch, and goes on with what is under way. -/
theorem activate_switches (s : State) (c : Nat) (purge : Bool) :
    activeBuf (activate s c purge) c = 1 - activeBuf s c ∧ epoch (activate s c purge) c = 1 - epoch s c ∧
      (fabOf (activate s c purge) c).sw = (fabOf s c).sw ∧ (seqr (activate s c purge) c).wait = (seqr s c).wait ∧
      ∀ b m, muMode (activate s c purge) c b m = muMode s c b m := by
  obtain ⟨u, before, after⟩ := activate_unitWork s c purge
  have new : 1 - activeBuf s c < 2 := by omega
  refine ⟨after.activeBuf.trans (activeBuf_statusSwitched new), ?_, after.sw.trans before.sw, after.wait.trans before.wait,
    fun b m => (after.muMode b m).trans ((muMode_statusSwitched ..).trans (before.muMode b m))⟩
  rw [after.epoch, epoch_statusSwitched, before.epoch]

/-! ### The end of a CFGSW (R149, R150) -/

/-- CFGSW completes as its instruction does, nothing under way. -/
theorem cfgswDone_eq {r : Nat} (waits : (seqr s c).wait = .cfgsw r) (code : Nat) : ∃ u,
    activeBuf u c = activeBuf s c ∧ epoch u c = epoch s c ∧ (fabOf u c).sw = none ∧ cfgswDone s c code = seqFinish u c r (BitVec.ofNat 32 code) code := by
  let v := setFab s c { fabOf s c with sw := none }
  let u := fdSet (fdSet v (flowPage c) fFLOW_STATUS_SWITCH 0) (flowPage c) fFLOW_STATUS_QSTOP 0
  have stillWaits : (seqr u c).wait = .cfgsw r := by
    change (seqr v c).wait = _
    rw [seqr_setFab_same, waits]
  obtain ⟨active, ep⟩ := activeBuf_epoch_fdSet (s := v) (c := c) (f := fFLOW_STATUS_SWITCH) 0 (by decide)
  obtain ⟨active', ep'⟩ := activeBuf_epoch_fdSet (s := fdSet v (flowPage c) fFLOW_STATUS_SWITCH 0) (c := c) (f := fFLOW_STATUS_QSTOP) 0 (by decide)
  refine ⟨u, active'.trans active, ep'.trans ep, ?_, ?_⟩
  · change (fabOf v c).sw = none
    rw [fabOf_setFab_same]
  · change (match (seqr u c).wait with | .cfgsw rd => seqFinish u c rd _ code | _ => u) = _
    rw [stillWaits]

/-- A CFGSW that has left the old configuration. -/
def switchMarked (s : State) (c : Nat) (x : Cfgsw) : State :=
  fdSet (setFab s c { fabOf s c with sw := some { x with switched := true } }) (flowPage c) fFLOW_STATUS_SWITCH 3
theorem cfgswFinish_eq {x : Cfgsw} (sw : (fabOf s c).sw = some x) : cfgswFinish s c =
    if ringsWait (switchMarked s c x) c then switchMarked s c x
    else cfgswDone (bump (startFlow (switchMarked s c x) c) (flowPage c) 0xC00) c cOK := by
  unfold cfgswFinish
  rw [sw]
  rfl
theorem fabOf_switchMarked (x : Cfgsw) : fabOf (switchMarked s c x) c = { fabOf s c with sw := some { x with switched := true } } := by
  rw [switchMarked, fabOf_fdSet, fabOf_setFab_same]
theorem wait_switchMarked (x : Cfgsw) : (seqr (switchMarked s c x) c).wait = (seqr s c).wait := by
  rw [switchMarked, seqr_fdSet, seqr_setFab_same]
theorem status_switchMarked (x : Cfgsw) : activeBuf (switchMarked s c x) c = activeBuf s c ∧ epoch (switchMarked s c x) c = epoch s c :=
  activeBuf_epoch_fdSet _ (by decide)

/-- Where no memory unit of the active buffer is a spill queue, no ring waits (R140). -/
theorem ringsWait_of_no_spill (h : (List.range 4).all (fun m => muMode s c (activeBuf s c) m != 5) = true) : ringsWait s c = false :=
  List.any_eq_false.mpr fun m hm => by
    have other := List.all_eq_true.mp h m hm
    simp only [bne_iff_ne] at other
    simp [other]

/-- A switched CFGSW, with its sequencer waiting for it: while a ring waits for its range it is under way, else it has completed. -/
structure SwitchEnds (s : State) (c : Nat) (x : Cfgsw) (r : Nat) (t : State) : Prop where
  active : activeBuf t c = activeBuf s c
  epoch : epoch t c = epoch s c
  done : (List.range 4).all (fun m => muMode s c (activeBuf s c) m != 5) = true →
    (fabOf t c).sw = none ∧ (seqr t c).mxstat = 0 ∧ (r % 32 ≠ 0 → xget t c r = 0)
  waits : (fabOf t c).sw = none ∨ ((fabOf t c).sw = some { x with switched := true } ∧ ringsWait t c = true)

theorem cfgswFinish_ends {x : Cfgsw} {r : Nat} (sw : (fabOf s c).sw = some x) (waits : (seqr s c).wait = .cfgsw r) :
    SwitchEnds s c x r (cfgswFinish s c) := by
  obtain ⟨active, ep⟩ := status_switchMarked (s := s) (c := c) x
  have under := congrArg Fab.sw (fabOf_switchMarked (s := s) (c := c) x)
  rw [cfgswFinish_eq sw]
  by_cases rings : ringsWait (switchMarked s c x) c = true
  · rw [if_pos rings]
    refine ⟨active, ep, fun noSpill => ?_, .inr ⟨under, rings⟩⟩
    have modes : ∀ m, muMode (switchMarked s c x) c (activeBuf (switchMarked s c x) c) m = muMode s c (activeBuf s c) m := fun m => by
      rw [active]
      exact muMode_of_bufs (by rw [fabOf_switchMarked]; exact ⟨rfl, rfl⟩) _ m
    rw [ringsWait_of_no_spill (by simpa only [modes] using noSpill)] at rings
    cases rings
  · rw [if_neg rings]
    have started := bump_unitWork (startFlow_unitWork (.refl c (switchMarked s c x))) (flowPage c) (off := 0xC00)
    obtain ⟨u, activeDone, epDone, nothing, eq⟩ := cfgswDone_eq (started.wait.trans ((wait_switchMarked x).trans waits)) cOK
    obtain ⟨activeSeq, epSeq⟩ := activeBuf_epoch_of_rd (rd_flow_seqFinish u c r (BitVec.ofNat 32 cOK) cOK (o := 0x40) (by decide))
    have ended : (fabOf (seqFinish u c r (BitVec.ofNat 32 cOK) cOK) c).sw = none := (congrArg Fab.sw (fabOf_seqFinish ..)).trans nothing
    rw [eq]
    refine ⟨activeSeq.trans (activeDone.trans (started.activeBuf.trans active)), epSeq.trans (epDone.trans (started.epoch.trans ep)),
      fun _ => ⟨ended, ?_, xget_seqFinish u c _ cOK⟩, .inl ended⟩
    rw [seqr_seqFinish]
    rfl

/-- A PURGE switches at once (R149). -/
theorem purge_ends {x : Cfgsw} {r : Nat} (sw : (fabOf s c).sw = some x) (waits : (seqr s c).wait = .cfgsw r) :
    ∃ u, activeBuf u c = 1 - activeBuf s c ∧ epoch u c = 1 - epoch s c ∧ (∀ b m, muMode u c b m = muMode s c b m) ∧
      SwitchEnds u c x r (purge s c) := by
  let v := (List.range 6).foldl (fun s p => qyPurge s c p) (bumpBy s (flowPage c) 0xC08 (purgeCount s c))
  have emptied : UnitWork c s v := (bumpBy_unitWork (.refl c s) _ _).foldl (fun p k => qyPurge_unitWork k p) _
  obtain ⟨active, ep, under, waiting, modes⟩ := activate_switches v c true
  refine ⟨activate v c true, ?_, ?_, fun b m => (modes b m).trans (emptied.muMode b m),
    cfgswFinish_ends (under.trans (emptied.sw.trans sw)) (waiting.trans (emptied.wait.trans waits))⟩
  · rw [active, emptied.activeBuf]
  · rw [ep, emptied.epoch]

/-- A PURGE to a valid buffer goes on at once (R146). -/
theorem cfgswAdvance_purge {x : Cfgsw} (sw : (fabOf s c).sw = some x) (form : x.purge = true) (old : x.switched = false)
    (load : (fabOf s c).load = none) (valid : validBuf s c (1 - activeBuf s c) = true) : cfgswAdvance s c = purge s c := by
  unfold cfgswAdvance
  simp [sw, form, old, load, valid]

end

/-! ### The obligation -/

theorem rvRd_mod (w : Nat) : rvRd w % 32 = rvRd w := Nat.mod_eq_of_lt (bits_lt ..)

/-- CFGSW PURGE, from its issue to its end or its wait for a ring. -/
def PurgeEffect (s : State) (c r : Nat) (t : State) : Prop :=
  activeBuf t c = 1 - activeBuf s c ∧ epoch t c = 1 - epoch s c ∧
    ((List.range 4).all (fun m => muMode s c (1 - activeBuf s c) m != 5) = true →
      (fabOf t c).sw = none ∧ (seqr t c).mxstat = 0 ∧ (r ≠ 0 → xget t c r = 0)) ∧
    ((fabOf t c).sw = none ∨ ((fabOf t c).sw = some { purge := true, issued := s.now, switched := true } ∧ ringsWait t c = true))

/-- The run control of the sequencer changes nothing a CFGSW shows. -/
theorem PurgeEffect.setSeqSt {s t : State} {c r : Nat} (h : PurgeEffect s c r t) (st on : Nat) : PurgeEffect s c r (setSeqSt t c st on) := by
  obtain ⟨active, ep⟩ := activeBuf_epoch_of_rd (rd_flow_setSeqSt t c st on (o := 0x40))
  have rings : ringsWait (Machine.setSeqSt t c st on) c = ringsWait t c := by
    unfold ringsWait
    simp only [active, core_setSeqSt, muMode_of_bufs (s := t) (t := Machine.setSeqSt t c st on) (by rw [fabOf_setSeqSt]; exact ⟨rfl, rfl⟩)]
  unfold PurgeEffect at h ⊢
  rwa [active, ep, rings, fabOf_setSeqSt, seqr_setSeqSt, xget, seqr_setSeqSt]

theorem cfgswIssue_purge {s : State} {c r : Nat} (small : r % 32 = r) (valid : validBuf s c (1 - activeBuf s c) = true)
    (load : (fabOf s c).load = none) : PurgeEffect s c r (cfgswIssue s c r true) := by
  have fab := fabOf_cfgswBegun (s := s) (c := c) r true
  have sw := congrArg Fab.sw fab
  obtain ⟨active, ep, buffers⟩ := buffers_cfgswBegun (s := s) (c := c) r true
  obtain ⟨u, switched, epSwitched, modes, ends⟩ := purge_ends sw (wait_cfgswBegun r true)
  rw [cfgswIssue_eq, cfgswAdvance_purge sw rfl rfl ((congrArg Fab.load fab).trans load) (by rw [active, buffers, valid])]
  obtain ⟨activeEnd, epochEnd, done, waits⟩ := ends
  rw [switched] at activeEnd done
  rw [active] at activeEnd done
  rw [epSwitched, ep] at epochEnd
  rw [small] at done
  have begun : ∀ b m, muMode u c b m = muMode s c b m := fun b m =>
    (modes b m).trans (muMode_of_bufs (by rw [fab]; exact ⟨rfl, rfl⟩) b m)
  exact ⟨activeEnd, epochEnd, by simpa only [begun] using done, waits⟩

/-- What the issue of a CFGSW QUIESCE shows. -/
def QuiesceBegun (s : State) (c r : Nat) (t : State) : Prop :=
  (fabOf t c).sw = some { purge := false, issued := s.now } ∧ (seqr t c).wait = .cfgsw r ∧ fb t (flowPage c) fFLOW_STATUS_QSTOP = true ∧
    activeBuf t c = activeBuf s c
theorem QuiesceBegun.setSeqSt {s t : State} {c r : Nat} (h : QuiesceBegun s c r t) (st on : Nat) : QuiesceBegun s c r (setSeqSt t c st on) := by
  have status := rd_flow_setSeqSt t c st on (o := 0x40)
  unfold QuiesceBegun at h ⊢
  rwa [fabOf_setSeqSt, seqr_setSeqSt, (activeBuf_epoch_of_rd status).1,
    show fb (Machine.setSeqSt t c st on) (flowPage c) fFLOW_STATUS_QSTOP = fb t (flowPage c) fFLOW_STATUS_QSTOP from congrArg (bits · 5 1 == 1) status]
theorem cfgswIssue_quiesce (s : State) (c r : Nat) : QuiesceBegun s c r (cfgswIssue s c r false) := by
  obtain ⟨under, wait, qstop, active⟩ := cfgswAdvance_quiesce (congrArg Fab.sw (fabOf_cfgswBegun (s := s) (c := c) r false)) rfl
  exact ⟨under, wait.trans (wait_cfgswBegun r false), qstop.trans (qstop_cfgswBegun r false), active.trans (buffers_cfgswBegun r false).1⟩

/-- Settles O7: each instruction by what its issue comes to, each end by how the instruction completes. -/
theorem stepAndSleepInstructionsComplete : Obligations.StepAndSleepInstructionsComplete := by
  unfold Obligations.StepAndSleepInstructionsComplete
  refine ⟨?mile, ?mileComplete, ?nap, ?napEntry, ?napWake, ?napTimer, ?quiesce, ?purge⟩
  case mile =>
    intro s c w len hc runs fetched kind current
    have base := (seqBase_mile (len := len) (e := .clean) kind).trans (seqMile_of_current (s := s) (c := c) (rvRd w) current)
    have waits : seqSt (seqBase s c w len .clean) c = 2 := by rw [base, seqSt_seqWait _ _ (by decide)]
    refine completes_onCore rfl hc ?_
    rw [seqIssue_of_stops runs fetched kind (by rw [waits]; decide)]
    exact ⟨by rw [base, seqr_seqWait], waits, by rw [base, pcOf_seqWait]⟩
  case mileComplete =>
    intro s c r n hc waits ok
    refine completes_onCore rfl hc ?_
    rw [mileDone_of_ok waits ok]
    refine ⟨by rw [seqr_seqFinish], by rw [seqr_seqFinish]; exact (digestOut_issued ..).trans (by rw [seqr_setSeq_same]), by rw [seqr_seqFinish]; rfl,
      fun unpaired => ?_, xget_seqFinish _ c 0 cOK⟩
    rw [seqFinish_out, digestOut_of_unpaired (s := setSeq s c { seqr s c with issued := [] }) _ _ unpaired]
    rfl
  case nap =>
    intro s c w len hc runs fetched kind mask pending
    have base := (seqBase_nap (len := len) (e := .clean) kind).trans (seqNap_of_none_pending (rvRd w) mask pending)
    have waits : seqSt (seqBase s c w len .clean) c = 2 := by rw [base, seqSt_seqWait _ _ (by decide)]
    refine completes_onCore rfl hc ?_
    rw [seqIssue_of_stops runs fetched kind (by rw [waits]; decide)]
    exact ⟨by rw [base, seqr_seqWait], waits⟩
  case napEntry =>
    intro s c r mask timer since hc waits awake rest
    refine completes_onCore rfl hc ?_
    rw [napEntry_of_rest waits awake rest]
    refine ⟨?_, seqSt_setSeqSt _ c _ (by decide), ?_⟩ <;> rw [seqr_setSeqSt, seqr_setSeq_same]
  case napWake =>
    intro s c r mask timer since hc waits pending
    obtain ⟨u, cleared, ends⟩ := napEnd_eq (s := s) (c := c) r
    refine completes_onCore rfl hc ?_
    rw [napWake_of_cause waits pending, ends]
    refine ⟨xget_seqFinish u c _ cOK, ?_, ?_, ?_⟩ <;> rw [seqr_seqFinish]
    exact cleared
  case napTimer =>
    intro s c r mask timer since hc waits set
    refine completes_onCore rfl hc ?_
    rw [seqr_napTimer waits set]
    exact ⟨rfl, rfl⟩
  case quiesce =>
    intro s c w len hc runs fetched kind form
    refine completes_onCore rfl hc (seqIssue_induct (P := QuiesceBegun s c (rvRd w)) runs fetched (by rw [kind, form]; rfl) ?_ fun t st on h => h.setSeqSt st on)
    rw [seqBase_cfgsw kind, form]
    exact cfgswIssue_quiesce s c _
  case purge =>
    intro s c w len hc runs fetched kind form valid load
    refine completes_onCore rfl hc (seqIssue_induct (P := PurgeEffect s c (rvRd w)) runs fetched (by rw [kind, form]; rfl) ?_ fun t st on h => h.setSeqSt st on)
    rw [seqBase_cfgsw kind, form]
    exact cfgswIssue_purge (rvRd_mod w) valid load

end Sys2Proof.Machine
end

section
/-! PROOFS. The idle step (R182), and two commands the chapters on the compute units and the sequencer describe for the plain case only: a READ
access that meets a word the code cannot correct, and a close that comes while the CLOSE notice has not gone out. -/

namespace Sys2Proof.Machine
open Sys2Proof

/-- Settles O35: a step on an empty queue is a tick. -/
theorem idleStepTicks : Obligations.IdleStepTicks := by
  unfold Obligations.IdleStepTicks
  intro s idle
  unfold step
  split
  · rfl
  next waits => rw [idle] at waits; cases waits

/-- Core 0 with MU0 at a walk of two READ accesses from word 8, which holds 1 with three of its bits flipped. -/
def flippedWordState : State :=
  let s := setMu (Tests.wMu 1) 0 0 { walk := some { total := 2, base := 8 } }
  setCore s 0 { core s 0 with sp := { words := [(8, 1)], flips := [(8, 3)] } }

theorem exec_muAccess (s : State) (c m : Nat) (e : Ecc) (bad : Nat) : exec (.muAccess c m e bad) s = onFabric s c (muAccess s c (m % 4) e bad) := rfl
theorem runs_flippedWordState : fabricRuns flippedWordState 0 = true := by decide +kernel
/-- The access gives its token a 0 for the word the code cannot correct, and not the word that is stored. -/
theorem emit_muAccess_flipped : (mu (muAccess flippedWordState 0 0 .clean 0) 0 0).emit.map Tok.val = [0] := by decide +kernel

/-- Refutes O4: a READ access that meets a stored word with three flipped bits emits a 0 in its place (R173, R204), where the statement asks for
the words the scratchpad holds. -/
theorem not_unitCommandsComplete : ¬ Obligations.UnitCommandsComplete := by
  unfold Obligations.UnitCommandsComplete
  rintro ⟨-, -, -, -, -, -, readAccess, -⟩
  obtain ⟨t, answers, -, emitted, -⟩ := readAccess flippedWordState 0 0 { total := 2, base := 8 } (by decide) (by decide) runs_flippedWordState
    (by decide +kernel) rfl rfl (by decide) (by decide +kernel) (by decide +kernel) (by decide +kernel) (by decide +kernel) (by decide +kernel)
    (by decide +kernel)
  have ran : t = muAccess flippedWordState 0 0 .clean 0 := by
    rw [next_of_onUnit (exec_muAccess ..) answers, if_pos runs_flippedWordState]
  rw [ran, emit_muAccess_flipped] at emitted
  exact absurd emitted (by decide +kernel)

/-- Core 0 running CHCLOSE of channel 0, which is OPEN; its other end is gone, and a CLOSE notice of it still has to go out. -/
def pendingNoticeState : State :=
  setChan (Tests.wSeq (encR 0 2 1 4 3 0x0B) []) 0 0 { state := 2, notice := true, gone := true }

theorem exec_chclose (s : State) (c : Nat) : exec (.chclose c) s = onCore c (seqIssue s c .clean (customKind 0x0B 4)) := rfl
theorem chan_chClose_pendingNotice : (chan (seqIssue pendingNoticeState 0 .clean (customKind 0x0B 4)) 0 0).state = 3 := by decide +kernel

/-- Refutes O6: CHCLOSE of an OPEN entry whose notice has not gone out leaves it CLOSING (R234), though no message is left and its other end is
gone, where the statement asks that it be freed at once. -/
theorem not_queueInstructionsComplete : ¬ Obligations.QueueInstructionsComplete := by
  unfold Obligations.QueueInstructionsComplete
  rintro ⟨-, -, -, -, -, -, -, -, -, -, closes, -⟩
  obtain ⟨t, answers, settled, -⟩ := closes pendingNoticeState 0 (encR 0 2 1 4 3 0x0B) 4 (by decide) (by decide +kernel) (by decide +kernel)
    (by decide +kernel) (by decide +kernel)
  have ran := next_of_onUnit (exec_chclose ..) answers
  have empty : (xget pendingNoticeState 0 (rvRs1 (encR 0 2 1 4 3 0x0B))).toNat % 1024 = 0 := by decide +kernel
  rw [ran, empty, chan_chClose_pendingNotice] at settled
  exact absurd settled (by decide +kernel)

end Sys2Proof.Machine
end

section
/-! PROOFS. The base set of the sequencer (R179): what an instruction that completes leaves, and what each carries out. -/

namespace Sys2Proof.Machine
open Sys2Proof

/-- What an instruction that completes at once leaves: rd, the other registers, the PC, the count, and local memory. -/
structure Ran (s : State) (c r : Nat) (v : Word) (pc : Nat) (t : State) : Prop where
  value : r ≠ 0 → xget t c r = v
  others : ∀ q < 32, q ≠ r → xget t c q = xget s c q
  pc_eq : pcOf t c = pc
  counted : (seqr t c).instret = (seqr s c).instret + 1
  memory : (seqr t c).lm = (seqr s c).lm

section
variable {s t : State} {c r : Nat} {v : Word} {pc : Nat}

theorem xget_of_seqr (h : seqr t c = seqr s c) (q : Nat) : xget t c q = xget s c q := by rw [xget, h]; rfl
theorem xget_retire (q : Nat) : xget (retire s c pc) c q = xget s c q := by rw [xget, seqr_retire]; rfl
theorem xget_xset_ne {q : Nat} (v : Word) (h : q % 32 ≠ r % 32) : xget (xset s c r v) c q = xget s c q := by
  unfold xset
  split
  · rfl
  · rw [xget, xget, seqr_setSeq_same, tget_tput_ne _ _ _ h]
theorem xget_xset_same (v : Word) (h : r % 32 ≠ 0) : xget (xset s c r v) c r = v := by
  rw [xset, if_neg h, xget, if_neg h, seqr_setSeq_same, tget_tput_same]
/-- A register's write leaves the rest of the sequencer's record. -/
theorem seqr_xset (v : Word) : seqr (xset s c r v) c = { seqr s c with x := (seqr (xset s c r v) c).x } := by
  unfold xset
  split
  · rfl
  · rw [seqr_setSeq_same]
theorem pcOf_retire : pcOf (retire s c pc) c = pc % 2 ^ 32 := by
  have set := fd_fdSet_same (bump (setSeq s c { seqr s c with instret := (seqr s c).instret + 1 }) (cPage c) 0xC00) (cPage c) fCORE_SEQ_PC_PC
    (pc % 2 ^ 32) (by decide)
  exact set.trans (Nat.mod_mod _ _)
theorem pcOf_setSeqSt (st on : Nat) : pcOf (setSeqSt s c st on) c = pcOf s c := congrArg (bits · 0 32) (rd_setSeqSt s c st on (cPage c) (by decide))

/-- An instruction that writes rd and goes on at `pc`. -/
theorem ran_retire (v : Word) (hr : r < 32) (hp : pc < 2 ^ 32) : Ran s c r v pc (retire (xset s c r v) c pc) where
  value h := by rw [xget_retire, xget_xset_same v (by omega)]
  others q hq h := by rw [xget_retire, xget_xset_ne v (by omega)]
  pc_eq := by rw [pcOf_retire, Nat.mod_eq_of_lt hp]
  counted := by rw [seqr_retire, seqr_xset]
  memory := by rw [seqr_retire, seqr_xset]

theorem Ran.setSeqSt (h : Ran s c r v pc t) (st on : Nat) : Ran s c r v pc (setSeqSt t c st on) where
  value hr := (xget_of_seqr (seqr_setSeqSt ..) r).trans (h.value hr)
  others q hq hr := (xget_of_seqr (seqr_setSeqSt ..) q).trans (h.others q hq hr)
  pc_eq := (pcOf_setSeqSt st on).trans h.pc_eq
  counted := by rw [seqr_setSeqSt, h.counted]
  memory := by rw [seqr_setSeqSt, h.memory]

/-- Where nothing is written, every register keeps its value. -/
theorem Ran.kept (h : Ran s c 0 v pc t) {q : Nat} (hq : q < 32) : xget t c q = xget s c q := by
  by_cases zero : q = 0
  · subst zero
    rw [xget, xget, if_pos rfl, if_pos rfl]
  · exact h.others q hq zero

end

/-! ### What each instruction of the base set carries out (R179) -/

section
variable {s : State} {c w len : Nat} {e : Ecc}

theorem pcNext_lt : (pcOf s c + len) % 2 ^ 32 < 2 ^ 32 := Nat.mod_lt _ (by decide)
theorem rvRd_lt (w : Nat) : rvRd w < 32 := bits_lt ..

theorem seqBase_lui (op : rvOp w = 0x37) : seqBase s c w len e = retire (xset s c (rvRd w) (immU w)) c ((pcOf s c + len) % 2 ^ 32) := by
  simp only [seqBase, op]
theorem seqBase_auipc (op : rvOp w = 0x17) :
    seqBase s c w len e = retire (xset s c (rvRd w) (BitVec.ofNat 32 (pcOf s c) + immU w)) c ((pcOf s c + len) % 2 ^ 32) := by
  simp only [seqBase, op]
theorem seqBase_jal (op : rvOp w = 0x6F) : seqBase s c w len e =
    retire (xset s c (rvRd w) (BitVec.ofNat 32 ((pcOf s c + len) % 2 ^ 32))) c (BitVec.ofNat 32 (pcOf s c) + immJ w).toNat := by
  simp only [seqBase, op]
theorem seqBase_jalr (op : rvOp w = 0x67) (f3 : rvF3 w = 0) : seqBase s c w len e =
    retire (xset s c (rvRd w) (BitVec.ofNat 32 ((pcOf s c + len) % 2 ^ 32))) c ((xget s c (rvRs1 w) + immI w).toNat / 2 * 2) := by
  simp only [seqBase, op, f3, if_true]
theorem seqBase_op (op : rvOp w = 0x33) (f7 : rvF7 w = 0) : seqBase s c w len e =
    retire (xset s c (rvRd w) (rvAlu (rvF3 w) false (xget s c (rvRs1 w)) (xget s c (rvRs2 w)))) c ((pcOf s c + len) % 2 ^ 32) := by
  simp only [seqBase, op, f7, if_true, OfNat.zero_ne_ofNat, if_false, zero_ne_one]
theorem seqBase_mul (op : rvOp w = 0x33) (f7 : rvF7 w = 1) : seqBase s c w len e =
    retire (xset s c (rvRd w) (rvMul (rvF3 w) (xget s c (rvRs1 w)) (xget s c (rvRs2 w)))) c ((pcOf s c + len) % 2 ^ 32) := by
  simp only [seqBase, op, f7, if_true]
theorem seqBase_opImm (op : rvOp w = 0x13) (f1 : rvF3 w ≠ 1) (f5 : rvF3 w ≠ 5) : seqBase s c w len e =
    retire (xset s c (rvRd w) (rvAlu (rvF3 w) false (xget s c (rvRs1 w)) (immI w))) c ((pcOf s c + len) % 2 ^ 32) := by
  have five : (rvF3 w == 5) = false := beq_eq_false_iff_ne.2 f5
  simp only [seqBase, op, f1, f5, five, false_and, Bool.false_and, or_self, if_false]
theorem seqBase_shiftImm (op : rvOp w = 0x13) (f3 : rvF3 w = 1 ∨ rvF3 w = 5) (f7 : rvF7 w = 0) : seqBase s c w len e =
    retire (xset s c (rvRd w) (rvAlu (rvF3 w) false (xget s c (rvRs1 w)) (BitVec.ofNat 32 (rvRs2 w)))) c ((pcOf s c + len) % 2 ^ 32) := by
  simp [seqBase, op, f3, f7]
theorem seqBase_taken (op : rvOp w = 0x63) (cond : rvBranch (rvF3 w) (xget s c (rvRs1 w)) (xget s c (rvRs2 w)) = some true) :
    seqBase s c w len e = retire s c (BitVec.ofNat 32 (pcOf s c) + immB w).toNat := by
  simp only [seqBase, op, cond]
theorem seqBase_past (op : rvOp w = 0x63) (cond : rvBranch (rvF3 w) (xget s c (rvRs1 w)) (xget s c (rvRs2 w)) = some false) :
    seqBase s c w len e = retire s c ((pcOf s c + len) % 2 ^ 32) := by
  simp only [seqBase, op, cond]
/-- A word load goes as its access answers. -/
theorem seqBase_lw (op : rvOp w = 0x03) (f3 : rvF3 w = 2) (aligned : (xget s c (rvRs1 w) + immI w).toNat % 4 = 0) {t : State} {v : Nat}
    (loads : seqLoad s c (xget s c (rvRs1 w) + immI w).toNat 4 e = (t, .val v)) :
    seqBase s c w len e = retire (xset t c (rvRd w) (BitVec.ofNat 32 v)) c ((pcOf s c + len) % 2 ^ 32) := by
  simp only [seqBase, op, f3, rvSize, aligned, loads, rvLoad, ne_eq, not_true_eq_false, if_false]
/-- A word store goes as its access answers. -/
theorem seqBase_sw (op : rvOp w = 0x23) (f3 : rvF3 w = 2) (aligned : (xget s c (rvRs1 w) + immS w).toNat % 4 = 0) {t : State} {v : Nat}
    (stores : seqStore s c (xget s c (rvRs1 w) + immS w).toNat 4 (xget s c (rvRs2 w)).toNat e = (t, .val v)) :
    seqBase s c w len e = retire t c ((pcOf s c + len) % 2 ^ 32) := by
  simp only [seqBase, op, f3, rvSize, aligned, stores, ne_eq, not_true_eq_false, if_false]

theorem seqLoad_local {a : Nat} (n : Nat) (area : areaOf a = .local_) :
    seqLoad s c a n e = (s, .val (leNat (memGetAll (seqr s c).lm a n))) := by
  simp only [seqLoad, area]
theorem seqStore_local {a : Nat} (n v : Nat) (area : areaOf a = .local_) :
    seqStore s c a n v e = (setSeq s c { seqr s c with lm := memPutAll (seqr s c).lm a (natLe n v) }, .val 0) := by
  simp only [seqStore, area]

/-- A word without flipped bits is read as it stands, and the read is counted (R205). -/
theorem spadFetch_clean {x : Nat} (sound : tget 0 (core s c).sp.flips x = 0) (who : Nat) :
    spadFetch s c x .clean who = (bump s (spadPage c) 0xC38, .word (spadWord (core s c) x).1 (spadWord (core s c) x).2) := by
  have noted : ∀ u : State, noteFlips u c x .clean = u := fun u => if_pos rfl
  have found : eccAt (bump s (spadPage c) 0xC38) c x .clean = .clean := by
    have kept : core (bump s (spadPage c) 0xC38) c = core s c := by rw [core, bump_cores]; rfl
    rw [eccAt, noted, kept, flipsFind, sound]
    split
    · rfl
    · split <;> rfl
  simp only [spadFetch, noted, found]
/-- A word load of scratchpad that its bank serves, of a word neither flipped nor poisoned (R180). -/
theorem seqLoad_spad {a : Nat} (area : areaOf a = .spad) (settled : writePending (core s c) ((a - 0x10000000) / 8) = false)
    (ready : regionWaits s c whoSeq ((a - 0x10000000) / 8) = false) (bank : bankAsk s c whoSeq ((a - 0x10000000) / 8) = (s, none))
    (sound : tget 0 (core s c).sp.flips ((a - 0x10000000) / 8) = 0) (clean : (spadWord (core s c) ((a - 0x10000000) / 8)).2 = false) :
    seqLoad s c a 4 .clean = (bump s (spadPage c) 0xC38,
      .val (bits (spadWord (core s c) ((a - 0x10000000) / 8)).1.toNat (8 * ((a - 0x10000000) % 8)) 32)) := by
  simp only [seqLoad, area, settled, ready, spadRead, bank, spadFetch_clean sound, clean, Bool.false_and, Bool.or_self, Bool.false_eq_true, if_false]

end

theorem Completes.imp {i : Instr} {s : State} {P Q : State → Prop} (h : Completes i s P) (hpq : ∀ t, P t → Q t) : Completes i s Q := by
  obtain ⟨t, answers, holds⟩ := h
  exact ⟨t, answers, hpq t holds⟩

/-! ### Issued, each completes so -/

section
variable {s : State} {c w len : Nat} {v : Word} {pc : Nat} (hc : c < 1152) (runs : seqSt s c = 1) (fetched : fetchAt s c = .instr w len)
include hc runs fetched

/-- What holds of every instruction that has been carried out, and stays so whatever STATE is set to, an issue completes with. -/
theorem completes_seqInstruction {P : State → Prop} (done : P (seqBase s c w len .clean)) (control : ∀ t st on, P t → P (setSeqSt t c st on)) :
    Completes (.seqInstruction c .clean) s P :=
  completes_onCore rfl hc (seqIssue_induct (want := anyInstr) runs fetched rfl done control)

/-- An instruction that only writes rd and moves the PC completes with that. -/
theorem completes_write (hp : pc < 2 ^ 32) (base : seqBase s c w len .clean = retire (xset s c (rvRd w) v) c pc) :
    Completes (.seqInstruction c .clean) s fun t => (rvRd w ≠ 0 → xget t c (rvRd w) = v) ∧
      (∀ r < 32, r ≠ rvRd w → xget t c r = xget s c r) ∧ pcOf t c = pc ∧ (seqr t c).instret = (seqr s c).instret + 1 :=
  (completes_seqInstruction hc runs fetched (base ▸ ran_retire v (rvRd_lt w) hp) fun _ st on h => h.setSeqSt st on).imp fun _ h =>
    ⟨h.value, h.others, h.pc_eq, h.counted⟩

/-- An instruction that only moves the PC completes with that. -/
theorem completes_jump (hp : pc < 2 ^ 32) (base : seqBase s c w len .clean = retire s c pc) :
    Completes (.seqInstruction c .clean) s fun t =>
      (∀ r < 32, xget t c r = xget s c r) ∧ pcOf t c = pc ∧ (seqr t c).instret = (seqr s c).instret + 1 :=
  (completes_seqInstruction hc runs fetched (base ▸ ran_retire (r := 0) 0 (by decide) hp) fun _ st on h => h.setSeqSt st on).imp fun _ h =>
    ⟨fun _ hr => h.kept hr, h.pc_eq, h.counted⟩

end

/-- The address after an instruction, as the word that JAL and JALR write. -/
theorem ofNat_pcNext (pc len : Nat) : BitVec.ofNat 32 ((pc + len) % 2 ^ 32) = BitVec.ofNat 32 (pc + len) := BitVec.eq_of_toNat_eq (by simp)

/-- Settles O5: each instruction of the base set by what it carries out. -/
theorem sequencerCommandsComplete : Obligations.SequencerCommandsComplete := by
  unfold Obligations.SequencerCommandsComplete
  refine ⟨?op, ?mul, ?opImm, ?shiftImm, ?lui, ?auipc, ?jal, ?jalr, ?taken, ?past, ?load, ?store, ?spad⟩
  case op => exact fun s c w len hc runs fetched op f7 => completes_write hc runs fetched pcNext_lt (seqBase_op op f7)
  case mul => exact fun s c w len hc runs fetched op f7 => completes_write hc runs fetched pcNext_lt (seqBase_mul op f7)
  case opImm => exact fun s c w len hc runs fetched op f1 f5 => completes_write hc runs fetched pcNext_lt (seqBase_opImm op f1 f5)
  case shiftImm => exact fun s c w len hc runs fetched op f3 f7 => completes_write hc runs fetched pcNext_lt (seqBase_shiftImm op f3 f7)
  case lui => exact fun s c w len hc runs fetched op => completes_write hc runs fetched pcNext_lt (seqBase_lui op)
  case auipc => exact fun s c w len hc runs fetched op => completes_write hc runs fetched pcNext_lt (seqBase_auipc op)
  case jal => exact fun s c w len hc runs fetched op => completes_write hc runs fetched (BitVec.isLt _) (ofNat_pcNext .. ▸ seqBase_jal op)
  case jalr =>
    intro s c w len hc runs fetched op f3
    have target : (xget s c (rvRs1 w) + immI w).toNat / 2 * 2 < 2 ^ 32 := (Nat.div_mul_le_self ..).trans_lt (BitVec.isLt _)
    exact completes_write hc runs fetched target (ofNat_pcNext .. ▸ seqBase_jalr op f3)
  case taken => exact fun s c w len hc runs fetched op cond => completes_jump hc runs fetched (BitVec.isLt _) (seqBase_taken op cond)
  case past => exact fun s c w len hc runs fetched op cond => completes_jump hc runs fetched pcNext_lt (seqBase_past op cond)
  case load =>
    intro s c w len hc runs fetched op f3 aligned area
    exact completes_write hc runs fetched pcNext_lt (seqBase_lw op f3 aligned (seqLoad_local 4 area))
  case store =>
    intro s c w len hc runs fetched op f3 aligned area
    let stored := memPutAll (seqr s c).lm (xget s c (rvRs1 w) + immS w).toNat (natLe 4 (xget s c (rvRs2 w)).toNat)
    let u := setSeq s c { seqr s c with lm := stored }
    have record : seqr u c = { seqr s c with lm := stored } := seqr_setSeq_same ..
    have ran : Ran u c 0 0 ((pcOf s c + len) % 2 ^ 32) (seqBase s c w len .clean) := by
      rw [seqBase_sw op f3 aligned (seqStore_local 4 _ area)]
      exact ran_retire 0 (by decide) pcNext_lt
    refine (completes_seqInstruction hc runs fetched ran fun _ st on h => h.setSeqSt st on).imp fun t h => ?_
    exact ⟨by rw [h.memory, record], fun r hr => (h.kept hr).trans (by rw [xget, record]; rfl), h.pc_eq, by rw [h.counted, record]⟩
  case spad =>
    intro s c w len a hc runs fetched op f3 address aligned area settled ready bank sound clean hr
    subst address
    have wanted : (loadKind s c (fun a => areaOf a == .spad) w || storeKind s c (fun a => areaOf a == .spad) w) = true := by
      simp only [loadKind, op, area, beq_self_eq_true, Bool.and_self, Bool.true_or]
    have base := seqBase_lw (len := len) op f3 aligned (seqLoad_spad area settled ready bank sound clean)
    have ran := base ▸ ran_retire (s := bump s (spadPage c) 0xC38) (c := c) _ (rvRd_lt w) (pcNext_lt (s := s) (c := c) (len := len))
    refine (completes_onCore rfl hc (seqIssue_induct runs fetched wanted ran fun _ st on h => h.setSeqSt st on)).imp fun t h => ?_
    exact ⟨h.value hr, h.pc_eq⟩

end Sys2Proof.Machine
end

section
/-! PROOFS. The sequencer's window and control registers (R187–R189): what a load or store of the window comes to, and what RUN, HALT and STEP
do to a sequencer. -/

namespace Sys2Proof.Machine
open Sys2Proof

/-! ### What completing an instruction leaves alone -/

/-- What completing an instruction leaves beside the registers it writes: the rest of the sequencer's record, the fabric, the FLOW page, and the
core's page where it holds neither the sequencer's state nor its count. -/
structure LeftAlone (u : State) (c : Nat) (t : State) : Prop where
  record : seqr t c = { seqr u c with x := (seqr t c).x, instret := (seqr t c).instret }
  fabric : fabOf t c = fabOf u c
  flow : ∀ o < 4096, rd t (flowPage c) o = rd u (flowPage c) o
  page : ∀ o, 16 ≠ o / 4 % 1024 ∧ 17 ≠ o / 4 % 1024 → 18 ≠ o / 4 % 1024 → 768 ≠ o / 4 % 1024 ∧ 769 ≠ o / 4 % 1024 →
    rd t (cPage c) o = rd u (cPage c) o

section
variable {s t u : State} {c r : Nat} {v : Word} {pc : Nat}

theorem fabOf_xset (v : Word) : fabOf (xset s c r v) c = fabOf s c := by
  unfold xset
  split
  · rfl
  · exact fabOf_setSeq_same ..
@[simp] theorem xset_regs (v : Word) : (xset s c r v).regs = s.regs := by
  unfold xset
  split <;> rfl
theorem rd_flow_bump_core (off : Nat) {o : Nat} (ho : o < 4096) (h : off < 4092) :
    rd (bump s (cPage c) off) (flowPage c) o = rd s (flowPage c) o :=
  (rd_wr_corePage _ (b := .flow) (b' := .core) (by decide) (by decide) _ (.inl (by decide)) ho (by omega)).trans
    (rd_wr_corePage _ (b := .flow) (b' := .core) (by decide) (by decide) _ (.inl (by decide)) ho (by omega))

theorem leftAlone_retire (v : Word) (pc : Nat) : LeftAlone s c (retire (xset s c r v) c pc) where
  record := by rw [seqr_retire, seqr_xset]
  fabric := by rw [fabOf_retire, fabOf_xset]
  flow o ho := by
    rw [retire, setPc, rd_flow_fdSet_core _ _ _ _ (by decide) ho, rd_flow_bump_core _ ho (by decide)]
    exact rd_of_regs (xset_regs v) ..
  page o _ hpc hcount := by
    rw [retire, setPc, fdSet, rd_wr_offset_ne _ _ hpc, rd_bump_offset_ne _ _ _ hcount]
    exact rd_of_regs (xset_regs v) ..

theorem LeftAlone.setSeqSt (h : LeftAlone u c t) (st on : Nat) : LeftAlone u c (setSeqSt t c st on) where
  record := by rw [seqr_setSeqSt, h.record]
  fabric := by rw [fabOf_setSeqSt, h.fabric]
  flow o ho := (rd_flow_setSeqSt _ _ _ _ ho).trans (h.flow o ho)
  page o hctl hpc hcount := (rd_setSeqSt _ _ _ _ _ hctl).trans (h.page o hctl hpc hcount)

/-- The configuration in use is that of the fabric and the FLOW page. -/
theorem linkCfg_of_fabric {n : Nat} (fab : (fabOf t c).buf0 = (fabOf s c).buf0 ∧ (fabOf t c).buf1 = (fabOf s c).buf1)
    (flow : ∀ o < 4096, rd t (flowPage c) o = rd s (flowPage c) o) :
    linkCfg t c (activeBuf t c) n = linkCfg s c (activeBuf s c) n := by
  have active : activeBuf t c = activeBuf s c := congrArg (bits · 0 1) (flow 0x40 (by decide))
  have word : ∀ i, i ≠ 2 → bufWord t c (activeBuf s c) i = bufWord s c (activeBuf s c) i := fun i hi => by
    rw [bufWord, bufWord, if_neg hi, if_neg hi]
    exact congrArg BitVec.toNat (congrArg (tget 0 · i) (by
      change (if _ then (fabOf t c).buf0 else (fabOf t c).buf1) = _
      rw [fab.1, fab.2]
      rfl))
  rw [active]
  unfold linkCfg
  dsimp only
  rw [word (16 + 2 * n) (by omega), word (17 + 2 * n) (by omega)]

theorem link_of_fabric (h : fabOf t c = fabOf s c) (n : Nat) : link t c n = link s c n := by
  change tget {} (fabOf t c).links n = _
  rw [h]
  rfl
/-- The links in use are those of the fabric and the FLOW page. -/
theorem links_of_fabric (fab : (fabOf t c).buf0 = (fabOf s c).buf0 ∧ (fabOf t c).buf1 = (fabOf s c).buf1)
    (flow : ∀ o < 4096, rd t (flowPage c) o = rd s (flowPage c) o) (port : Nat) :
    linkTo t c port = linkTo s c port ∧ linksFrom t c port = linksFrom s c port := by
  unfold linkTo linksFrom
  simp only [linkCfg_of_fabric fab flow, and_self]
theorem portQueue_of_fabric (h : fabOf t c = fabOf s c) (flow : ∀ o < 4096, rd t (flowPage c) o = rd s (flowPage c) o) (port : Nat) :
    portQueue t c port = portQueue s c port := by
  unfold portQueue
  rw [(links_of_fabric ⟨congrArg Fab.buf0 h, congrArg Fab.buf1 h⟩ flow port).1]
  simp only [link_of_fabric h]

theorem LeftAlone.link_eq (h : LeftAlone u c t) (n : Nat) : link t c n = link u c n := link_of_fabric h.fabric n
theorem LeftAlone.portQueue_eq (h : LeftAlone u c t) (port : Nat) : portQueue t c port = portQueue u c port :=
  portQueue_of_fabric h.fabric h.flow port

end

/-! ### Tokens that leave and tokens that are taken (R130, R133) -/

section
variable {s : State} {c : Nat}

theorem link_setLink_same (n : Nat) (l : Link) : link (setLink s c n l) c n = l := by
  rw [link, setLink, core_setCore_same]
  exact tget_tput_same ..
theorem link_setLink_ne {n m : Nat} (l : Link) (h : m ≠ n) : link (setLink s c n l) c m = link s c m := by
  rw [link, setLink, core_setCore_same]
  exact tget_tput_ne _ _ _ h
/-- A link's tokens and credits are no part of the configuration. -/
theorem bufs_setLink (n : Nat) (l : Link) :
    (fabOf (setLink s c n l) c).buf0 = (fabOf s c).buf0 ∧ (fabOf (setLink s c n l) c).buf1 = (fabOf s c).buf1 := by
  rw [fabOf, setLink, core_setCore_same]
  exact ⟨rfl, rfl⟩

/-- A change of every link of a list, each link changed once. -/
def mapLinks (c : Nat) (f : Link → Link) (s : State) (l : List Nat) : State := l.foldl (fun s i => setLink s c i (f (link s c i))) s
theorem link_mapLinks_of_not_mem (f : Link → Link) {l : List Nat} {n : Nat} (h : n ∉ l) : link (mapLinks c f s l) c n = link s c n := by
  induction l generalizing s with
  | nil => rfl
  | cons i l ih =>
    rw [List.mem_cons, not_or] at h
    exact (ih h.2).trans (link_setLink_ne _ h.1)
theorem link_mapLinks_of_mem (f : Link → Link) {l : List Nat} (nodup : l.Nodup) {n : Nat} (h : n ∈ l) :
    link (mapLinks c f s l) c n = f (link s c n) := by
  induction l generalizing s with
  | nil => cases h
  | cons i l ih =>
    obtain ⟨fresh, nodup⟩ := List.nodup_cons.1 nodup
    rcases List.mem_cons.1 h with rfl | later
    · exact (link_mapLinks_of_not_mem f fresh).trans (link_setLink_same ..)
    · exact (ih nodup later).trans (congrArg f (link_setLink_ne _ fun e => fresh (e ▸ later)))
theorem bufs_mapLinks (f : Link → Link) (l : List Nat) :
    (fabOf (mapLinks c f s l) c).buf0 = (fabOf s c).buf0 ∧ (fabOf (mapLinks c f s l) c).buf1 = (fabOf s c).buf1 := by
  induction l generalizing s with
  | nil => exact ⟨rfl, rfl⟩
  | cons i l ih => exact ⟨ih.1.trans (bufs_setLink ..).1, ih.2.trans (bufs_setLink ..).2⟩

theorem nodup_linksFrom (port : Nat) : (linksFrom s c port).Nodup := List.nodup_range.filter _
/-- The token of a firing goes onto each link of its port, whose credit it takes (R130). -/
theorem link_emitTok_takeCredits {port n : Nat} (k : Tok) (h : n ∈ linksFrom s c port) :
    link (emitTok (takeCredits s c port 1) c port k) c n =
      { link s c n with credits := (link s c n).credits - 1, pipe := (link s c n).pipe + 1 - 1, fly := (link s c n).fly ++ [k] } := by
  have taken : takeCredits s c port 1 = mapLinks c (fun l => { l with credits := l.credits - 1, pipe := l.pipe + 1 }) s (linksFrom s c port) := rfl
  have bufs : (fabOf (takeCredits s c port 1) c).buf0 = (fabOf s c).buf0 ∧ (fabOf (takeCredits s c port 1) c).buf1 = (fabOf s c).buf1 := by
    rw [taken]
    exact bufs_mapLinks ..
  have sameLinks := (links_of_fabric bufs (fun _ _ => rd_of_regs (takeCredits_regs ..) ..) port).2
  have emitted : emitTok (takeCredits s c port 1) c port k =
      mapLinks c (fun l => { l with pipe := l.pipe - 1, fly := l.fly ++ [k] }) (takeCredits s c port 1) (linksFrom s c port) := by
    rw [emitTok, sameLinks]
    rfl
  rw [emitted, link_mapLinks_of_mem _ (nodup_linksFrom port) h, taken, link_mapLinks_of_mem _ (nodup_linksFrom port) h]

/-- The token at a port's head taken: the rest of the queue stays (R133). -/
theorem portQueue_popTok (port : Nat) : portQueue (popTok s c port) c port = (portQueue s c port).tail := by
  unfold popTok
  cases feeds : linkTo s c port with
  | none =>
    rw [portQueue, feeds]
    rfl
  | some n =>
    have was : portQueue s c port = (link s c n).q := by rw [portQueue, feeds]
    dsimp only
    by_cases empty : (link s c n).q.isEmpty = true
    · rw [if_pos empty, was, List.isEmpty_iff.1 empty]
      rfl
    · rw [if_neg empty, was]
      have same := (links_of_fabric (bufs_setLink (s := s) (c := c) n { link s c n with q := (link s c n).q.tail, cfly := (link s c n).cfly + 1 })
        (fun _ _ => rfl) port).1
      rw [portQueue, same, feeds]
      dsimp only
      rw [link_setLink_same]

end

/-! ### What a load or store of the window comes to (R188) -/

theorem bit_eq_testBit (v i : Nat) : bit v i = v.testBit i := by rw [bit, Nat.testBit_eq_decide_div_mod_eq, beq_eq_decide]

section
variable {s : State} {c : Nat}

theorem portQueue_setSeq (q : Seq) (port : Nat) : portQueue (setSeq s c q) c port = portQueue s c port :=
  portQueue_of_fabric (fabOf_setSeq_same ..) (fun _ _ => rfl) port
theorem link_setSeq (q : Seq) (n : Nat) : link (setSeq s c q) c n = link s c n := link_of_fabric (fabOf_setSeq_same ..) n

/-- A load of a queue's low word pops the queue and latches the high word. -/
theorem winLoad_queue {u : State} {off : Nat} {v : DWord} {pz : Bool} (queue : off < 0x200) (low : off % 8 = 0)
    (unbound : qxBound s c (off / 8) = false)    (popped : popSlot s c (off / 8) = (u, .word v pz)) :
    winLoad s c off = (setSeq u c { seqr u c with hiLatch := tput (seqr u c).hiLatch (off / 8) (BitVec.ofNat 32 (v.toNat / 2 ^ 32)),
                                                  mxstat := if pz then cPOISON else cOK }, .val (v.toNat % 2 ^ 32)) := by
  simp only [winLoad, if_pos queue, low, unbound, popped, OfNat.zero_ne_ofNat, if_false, Bool.false_eq_true]
/-- A store to an output port of the sequencer emits a token where credits are held. -/
theorem winStore_port {off port : Nat} (v : Nat) (credit : credits s c port 1 = true)
    (at_ : off = 0x220 ∧ port = portId uSEQ 0 ∨ off = 0x224 ∧ port = portId uSEQ 1) :
    winStore s c off v = (setMx (emitTok (takeCredits s c port 1) c port (mkTok s c v false)) c cOK, .val 0) := by
  rcases at_ with ⟨rfl, rfl⟩ | ⟨rfl, rfl⟩ <;> simp only [winStore, credit, if_true]
theorem winStore_sco (v : Nat) (credit : credits s c (portId uSEQ 2) 1 = true) :
    winStore s c 0x228 v = (setMx (emitTok (takeCredits s c (portId uSEQ 2) 1) c (portId uSEQ 2) (mkTok s c (v % 2) false)) c cOK, .val 0) := by
  simp only [winStore, credit, if_true]
/-- A load of an input port of the sequencer takes the token at its head. -/
theorem winLoad_port {off port : Nat} {k : Tok} (head : headTok s c port = some k)
    (at_ : off = 0x230 ∧ port = portId uSEQ 0 ∨ off = 0x234 ∧ port = portId uSEQ 1) :
    winLoad s c off = (setMx (popTok s c port) c (if k.poison then cPOISON else cOK), .val (k.val % 2 ^ 32)) := by
  rcases at_ with ⟨rfl, rfl⟩ | ⟨rfl, rfl⟩ <;> simp [winLoad, head]
theorem winLoad_sci {k : Tok} (head : headTok s c (portId uSEQ 2) = some k) :
    winLoad s c 0x238 = (setMx (popTok s c (portId uSEQ 2)) c (if k.poison then cPOISON else cOK), .val (k.val % 2)) := by
  simp [winLoad, head]
/-- A word set in CORE_MBOX_OUT with its event bit. -/
theorem mboxOut_raised {v : Nat} (hv : v < 2 ^ 32) :
    rd (raiseInt (fdSet s (cPage c) fCORE_MBOX_OUT_DATA v) (cPage c) 14) (cPage c) 0x70 = v ∧
      bit (intRaw (raiseInt (fdSet s (cPage c) fCORE_MBOX_OUT_DATA v) (cPage c) 14) (cPage c)) 14 = true := by
  constructor
  · have set : bits (rd (fdSet s (cPage c) fCORE_MBOX_OUT_DATA v) (cPage c) 0x70) 0 32 = v :=
      (fd_fdSet_same _ _ _ _ (by decide)).trans (Nat.mod_eq_of_lt hv)
    rw [rd_raiseInt_ne _ _ _ _ (by decide), ← Nat.mod_eq_of_lt (rd_lt (fdSet s (cPage c) fCORE_MBOX_OUT_DATA v) (cPage c) 0x70), ← bits_all, set]
  · rw [raiseInt_raw, bit_eq_testBit, Nat.testBit_mod_two_pow, Nat.testBit_or, Nat.testBit_two_pow_self]
    simp
theorem seqLoad_window {a : Nat} (e : Ecc) (area : areaOf a = .window) : seqLoad s c a 4 e = winLoad s c (a % 4096) := by
  simp only [seqLoad, area, if_true]
theorem seqStore_window {a : Nat} (v : Nat) (e : Ecc) (area : areaOf a = .window) : seqStore s c a 4 v e = winStore s c (a % 4096) v := by
  simp only [seqStore, area, if_true]

end

section
variable {s u : State} {c w len a v : Nat} {i : Instr} {ok : Nat → Bool} (hc : c < 1152) (runs : seqSt s c = 1)
  (fetched : fetchAt s c = .instr w len)
include hc runs fetched

/-- A word load of the window that its offset answers completes with the answer's word in rd. -/
theorem completes_winLoad (command : exec i s = onCore c (winLoadAt s c ok)) (op : rvOp w = 0x03) (f3 : rvF3 w = 2)
    (address : a = (xget s c (rvRs1 w) + immI w).toNat) (area : areaOf a = .window) (aligned : a % 4096 % 4 = 0) (named : ok (a % 4096) = true)
    (loads : winLoad s c (a % 4096) = (u, .val v)) :
    Completes i s fun t => (rvRd w ≠ 0 → xget t c (rvRd w) = BitVec.ofNat 32 v) ∧ LeftAlone u c t := by
  subst address
  have wanted : loadKind s c (fun a => areaOf a == .window && ok (a % 4096)) w = true := by
    simp only [loadKind, op, area, named, beq_self_eq_true, Bool.and_self]
  have base := seqBase_lw (len := len) op f3 (by omega) ((seqLoad_window .clean area).trans loads)
  refine completes_onCore command hc (seqIssue_induct (P := fun t => (rvRd w ≠ 0 → xget t c (rvRd w) = BitVec.ofNat 32 v) ∧ LeftAlone u c t)
    runs fetched wanted ?_ fun t st on h => ?_)
  · rw [base]
    exact ⟨(ran_retire (s := u) _ (rvRd_lt w) pcNext_lt).value, leftAlone_retire ..⟩
  · exact ⟨fun hr => (xget_of_seqr (seqr_setSeqSt ..) _).trans (h.1 hr), h.2.setSeqSt st on⟩

/-- A word store to the window that its offset takes completes. -/
theorem completes_winStore (command : exec i s = onCore c (winStoreAt s c ok)) (op : rvOp w = 0x23) (f3 : rvF3 w = 2)
    (address : a = (xget s c (rvRs1 w) + immS w).toNat) (area : areaOf a = .window) (aligned : a % 4096 % 4 = 0) (named : ok (a % 4096) = true)
    (stores : winStore s c (a % 4096) (xget s c (rvRs2 w)).toNat = (u, .val v)) : Completes i s (LeftAlone u c) := by
  subst address
  have wanted : storeKind s c (fun a => areaOf a == .window && ok (a % 4096)) w = true := by
    simp only [storeKind, op, area, named, beq_self_eq_true, Bool.and_self]
  have base := seqBase_sw (len := len) op f3 (by omega) ((seqStore_window _ .clean area).trans stores)
  refine completes_onCore command hc (seqIssue_induct runs fetched wanted ?_ fun t st on h => h.setSeqSt st on)
  rw [base]
  exact leftAlone_retire (r := 0) 0 _

end

/-! ### Writes of CORE_SEQ_CTL (R187, R189) -/

theorem cPage_core (c : Nat) : (cPage c).core = c := Nat.div_add_mod c 144

/-- A granted write of a register of the core's page does what that register does. -/
theorem registerWrite_core {s : State} {req : Req} {c off v : Nat} {r : RegSpec} (hc : c < 1152) (spec : specOf (cPage c) off = some r)
    (one : r.half = .one) (can : r.writable = true) (aligned : off % 4 = 0) (beyond : 0x40 ≤ off) (g : Granted s req (cPage c) off v) :
    registerWrite s req (cPage c).no off v 15 = coreReg s c off (plan s req (cPage c) off v).new (plan s req (cPage c) off v).eff := by
  have one_register := registerWrite_one (p := cPage c) (pageOf_core hc .core (by decide)) spec one can aligned g
  rw [one_register, regReg, if_neg (by omega)]
  change coreReg s (cPage c).core _ _ _ = _
  rw [cPage_core]

/-- A granted write of CORE_SEQ_CTL takes RUN and STEP as they are written. -/
theorem registerWrite_seqCtl {s : State} {req : Req} {c v : Nat} (hc : c < 1152) (g : Granted s req (cPage c) 0x40 v) :
    ∃ traphalt, registerWrite s req (cPage c).no 0x40 v 15 = seqCtlWrite s c (bit v 0) traphalt (bit v 2) := by
  have spec : specOf (cPage c) 0x40 = some sCORE_SEQ_CTL := rfl
  have run := (plan_field spec g (by decide) (f := fs 0 1 .rw 0 .d) (by decide)).1 rfl
  have step := (plan_field spec g (by decide) (f := fr 2 1 .w1s 0 .v 0 1 96) (by decide)).2.2 (by decide) (by decide)
  have runs : bit (plan s req (cPage c) 0x40 v).new 0 = bit v 0 := congrArg (· == 1) (run.trans (bits_mod_word v (by decide)))
  have steps : bit (plan s req (cPage c) 0x40 v).eff 2 = bit v 2 := congrArg (· == 1) (step.trans (bits_mod_word v (by decide)))
  refine ⟨bit (plan s req (cPage c) 0x40 v).new 1, (registerWrite_core hc spec rfl (by decide) (by decide) (by decide) g).trans ?_⟩
  change seqCtlWrite s c (bit (plan s req (cPage c) 0x40 v).new 0) _ (bit (plan s req (cPage c) 0x40 v).eff 2) = _
  rw [runs, steps]

section
variable (s : State) (c : Nat)

/-- A sequencer whose RUN and TRAPHALT have been written. -/
def ctlSet (s : State) (c : Nat) (run traphalt : Bool) : State :=
  fdSet (fdSet s (cPage c) fCORE_SEQ_CTL_RUN (b2n run)) (cPage c) fCORE_SEQ_CTL_TRAPHALT (b2n traphalt)
theorem seqr_ctlSet (run traphalt : Bool) : seqr (ctlSet s c run traphalt) c = seqr s c := rfl
theorem rd_ctlSet (run traphalt : Bool) {o : Nat} (h : 16 ≠ o / 4 % 1024) : rd (ctlSet s c run traphalt) (cPage c) o = rd s (cPage c) o :=
  (rd_wr_offset_ne _ _ h).trans (rd_wr_offset_ne _ _ h)
theorem seqSt_ctlSet (run traphalt : Bool) : seqSt (ctlSet s c run traphalt) c = seqSt s c := congrArg (bits · 0 4) (rd_ctlSet s c _ _ (by decide))
theorem pcOf_ctlSet (run traphalt : Bool) : pcOf (ctlSet s c run traphalt) c = pcOf s c := congrArg (bits · 0 32) (rd_ctlSet s c _ _ (by decide))
theorem run_ctlSet (run traphalt : Bool) : fb (ctlSet s c run traphalt) (cPage c) fCORE_SEQ_CTL_RUN = run := by
  have kept := fd_fdSet_ne (fdSet s (cPage c) fCORE_SEQ_CTL_RUN (b2n run)) (cPage c) (f := fCORE_SEQ_CTL_TRAPHALT)
    (g := fCORE_SEQ_CTL_RUN) (b2n traphalt) (by decide) rfl (by decide)
  rw [fb, ctlSet, kept, fd_fdSet_same _ _ _ _ (by decide)]
  cases run <;> rfl

/-- Setting STATE leaves RUN as it is. -/
theorem run_setSeqSt (st on : Nat) : fb (setSeqSt s c st on) (cPage c) fCORE_SEQ_CTL_RUN = fb s (cPage c) fCORE_SEQ_CTL_RUN := by
  have state : ∀ (u : State) (f : FRef) (v : Nat), f.off = 0x44 →
      fd (fdSet u (cPage c) f v) (cPage c) fCORE_SEQ_CTL_RUN = fd u (cPage c) fCORE_SEQ_CTL_RUN :=
    fun u f v h => congrArg (bits · 0 1) (rd_wr_offset_ne u _ (by rw [h]; decide))
  unfold setSeqSt fb
  dsimp only
  split
  · rw [fd_fdSet_ne _ _ (f := fCORE_SEQ_CTL_STEP) (g := fCORE_SEQ_CTL_RUN) 0 (by decide) rfl (by decide), state _ _ _ rfl, state _ _ _ rfl]
  · rw [state _ _ _ rfl, state _ _ _ rfl]
theorem pcOf_setPc (v : Nat) : pcOf (setPc s c v) c = v % 2 ^ 32 :=
  (fd_fdSet_same _ _ _ _ (by decide)).trans (Nat.mod_mod _ _)

end

section
variable {s : State} {c : Nat}

/-- RUN written 1 to a halted sequencer starts it, at CORE_SEQ_ENTRY where the start is fresh. -/
theorem seqRun_halted (halted : seqSt s c = 0) :
    seqSt (seqRun s c) c = 1 ∧ fb (seqRun s c) (cPage c) fCORE_SEQ_CTL_RUN = fb s (cPage c) fCORE_SEQ_CTL_RUN ∧
    pcOf (seqRun s c) c = if (seqr s c).fresh then fd s (cPage c) fCORE_SEQ_ENTRY_ADDR / 2 * 2 else pcOf s c := by
  unfold seqRun
  dsimp only
  by_cases fresh : (seqr s c).fresh = true
  · have entry : fd s (cPage c) fCORE_SEQ_ENTRY_ADDR / 2 * 2 < 2 ^ 32 := (Nat.div_mul_le_self ..).trans_lt (bits_lt ..)
    rw [if_pos (.inr ⟨halted, fresh⟩), if_pos fresh]
    refine ⟨seqSt_setSeqSt _ c _ (by decide), (run_setSeqSt ..).trans ?_, (pcOf_setSeqSt ..).trans ?_⟩
    · exact congrArg (· == 1) (congrArg (bits · 0 1) (rd_wr_offset_ne _ _ (by decide)))
    · exact (pcOf_setPc ..).trans (Nat.mod_eq_of_lt entry)
  · rw [if_neg (not_or.2 ⟨by omega, fun h => fresh h.2⟩), if_pos halted, if_neg fresh]
    exact ⟨seqSt_setSeqSt _ c _ (by decide), run_setSeqSt .., pcOf_setSeqSt ..⟩

/-- A sequencer that is not halted takes no STEP. -/
theorem seqStepOne_of_running (runs : seqSt s c ≠ 0) : seqStepOne s c = s := if_pos runs

/-- A sequencer about to carry out one instruction. -/
def stepBegun (s : State) (c : Nat) : State :=
  fdSet (setSeqSt (setSeq s c { seqr s c with fresh := false }) c 1 0) (cPage c) fCORE_SEQ_CTL_STEP 1
theorem seqr_stepBegun : seqr (stepBegun s c) c = { seqr s c with fresh := false } := by
  have set : seqr (stepBegun s c) c = seqr (setSeqSt (setSeq s c { seqr s c with fresh := false }) c 1 0) c := rfl
  rw [set, seqr_setSeqSt, seqr_setSeq_same]
theorem pcOf_stepBegun : pcOf (stepBegun s c) c = pcOf s c :=
  (congrArg (bits · 0 32) (rd_wr_offset_ne _ _ (by decide))).trans (pcOf_setSeqSt (s := setSeq s c _) 1 0)
theorem seqSt_stepBegun : seqSt (stepBegun s c) c = 1 :=
  (congrArg (bits · 0 4) (rd_wr_offset_ne _ _ (by decide))).trans (seqSt_setSeqSt _ c 0 (by decide))
theorem step_stepBegun : fb (stepBegun s c) (cPage c) fCORE_SEQ_CTL_STEP = true :=
  congrArg (· == 1) (fd_fdSet_same _ _ _ _ (by decide))
theorem xget_stepBegun (q : Nat) : xget (stepBegun s c) c q = xget s c q := by rw [xget, seqr_stepBegun]; rfl
theorem fetchAt_stepBegun : fetchAt (stepBegun s c) c = fetchAt s c := by rw [fetchAt, pcOf_stepBegun, seqr_stepBegun]; rfl

/-- Completing an instruction leaves CORE_SEQ_CTL and CORE_SEQ_STATE. -/
theorem rd_retire_xset (r : Nat) (v : Word) (pc : Nat) {o : Nat} (h : 18 ≠ o / 4 % 1024 ∧ 768 ≠ o / 4 % 1024 ∧ 769 ≠ o / 4 % 1024) :
    rd (retire (xset s c r v) c pc) (cPage c) o = rd s (cPage c) o := by
  rw [retire, setPc, fdSet, rd_wr_offset_ne _ _ h.1, rd_bump_offset_ne _ _ _ h.2]
  exact rd_of_regs (xset_regs v) ..
theorem seqSt_retire_xset (r : Nat) (v : Word) (pc : Nat) : seqSt (retire (xset s c r v) c pc) c = seqSt s c :=
  congrArg (bits · 0 4) (rd_retire_xset r v pc (by decide))
theorem step_retire_xset (r : Nat) (v : Word) (pc : Nat) :
    fb (retire (xset s c r v) c pc) (cPage c) fCORE_SEQ_CTL_STEP = fb s (cPage c) fCORE_SEQ_CTL_STEP :=
  congrArg (· == 1) (congrArg (bits · 2 1) (rd_retire_xset r v pc (by decide)))

/-- An instruction carried out under STEP halts the sequencer once it is done (R189). -/
theorem seqIssue_step {w len r : Nat} {v : Word} {pc : Nat} (runs : seqSt s c = 1) (fetched : fetchAt s c = .instr w len)
    (step : fb s (cPage c) fCORE_SEQ_CTL_STEP = true) (base : seqBase s c w len .clean = retire (xset s c r v) c pc) :
    seqIssue s c .clean anyInstr = setSeqSt (retire (xset s c r v) c pc) c 0 0 := by
  have on : seqSt (retire (xset s c r v) c pc) c = 1 := (seqSt_retire_xset ..).trans runs
  have stops : goesOn (retire (xset s c r v) c pc) c = false := by rw [goesOn, step_retire_xset, step]; simp
  have counted : (seqr (retire (xset s c r v) c pc) c).instret ≠ (seqr s c).instret := by
    rw [seqr_retire, seqr_xset]
    exact fun h => absurd (add_eq_left.1 h) (by decide)
  simp [seqIssue, runs, fetched, base, on, stops, counted, anyInstr]

end

/-- A word of one field, set in nothing and set to nothing. -/
theorem setBits_zero_all {v : Nat} (h : v < 2 ^ 32) : setBits 0 0 32 (bits v 0 32) = v := by
  simp [setBits, bits]
  omega
theorem setBits_all_zero {v : Nat} (h : v < 2 ^ 32) : setBits v 0 32 0 = 0 := by
  rw [setBits, bits_all]
  omega

/-- Settles O8: the window's loads and stores by what each offset answers, the control registers by what a write of each does. -/
theorem windowAndControlCommandsComplete : Obligations.WindowAndControlCommandsComplete := by
  unfold Obligations.WindowAndControlCommandsComplete
  refine ⟨?qpop, ?sqo, ?sco, ?sqi, ?sci, ?mboxInRead, ?mboxOutWrite, ?run, ?halt, ?step, ?mboxInWrite, ?mboxOutRead⟩
  case qpop =>
    intro s u c w len a v pz hc runs fetched op f3 address area queue low unbound popped
    refine (completes_winLoad hc runs fetched rfl op f3 address area (by omega) (ok := fun o => decide (o < 0x200) && o % 8 == 0) ?_
      (winLoad_queue queue (by omega) unbound popped)).imp fun t h => ?_
    · simp [queue, show a % 4096 % 8 = 0 by omega]
    · obtain ⟨value, alone⟩ := h
      refine ⟨fun hr => (value hr).trans (BitVec.eq_of_toNat_eq (by simp)), ?_, ?_⟩ <;> rw [alone.record, seqr_setSeq_same]
      · exact tget_tput_same ..
      · rfl
  case sqo =>
    intro s c w len a port n hc runs fetched op f3 address area at_ credit hn
    refine (completes_winStore hc runs fetched rfl op f3 address area (by omega) (ok := fun o => o == 0x220 || o == 0x224) ?_
      (winStore_port _ credit at_)).imp fun t alone => ?_
    · rcases at_ with ⟨h, -⟩ | ⟨h, -⟩ <;> rw [h] <;> rfl
    · rw [alone.link_eq, setMx, link_setSeq, link_emitTok_takeCredits _ hn]
      exact ⟨rfl, rfl⟩
  case sco =>
    intro s c w len a n hc runs fetched op f3 address area at_ credit hn
    refine (completes_winStore hc runs fetched rfl op f3 address area (by omega) (ok := fun o => o == 0x228) (by rw [at_]; rfl)
      (by rw [at_]; exact winStore_sco _ credit)).imp fun t alone => ?_
    rw [alone.link_eq, setMx, link_setSeq, link_emitTok_takeCredits _ hn]
  case sqi =>
    intro s c w len a port k hc runs fetched op f3 address area at_ head
    refine (completes_winLoad hc runs fetched rfl op f3 address area (by omega) (ok := fun o => o == 0x230 || o == 0x234) ?_
      (winLoad_port head at_)).imp fun t h => ?_
    · rcases at_ with ⟨h, -⟩ | ⟨h, -⟩ <;> rw [h] <;> rfl
    · obtain ⟨value, alone⟩ := h
      refine ⟨fun hr => (value hr).trans (BitVec.eq_of_toNat_eq (by simp)), ?_, ?_⟩
      · rw [alone.record, setMx, seqr_setSeq_same]
        rfl
      · rw [alone.portQueue_eq, setMx, portQueue_setSeq, portQueue_popTok]
  case sci =>
    intro s c w len a k hc runs fetched op f3 address area at_ head
    refine (completes_winLoad hc runs fetched rfl op f3 address area (by omega) (ok := fun o => o == 0x238) (by rw [at_]; rfl)
      (by rw [at_]; exact winLoad_sci head)).imp fun t h => ?_
    obtain ⟨value, alone⟩ := h
    exact ⟨value, by rw [alone.portQueue_eq, setMx, portQueue_setSeq, portQueue_popTok]⟩
  case mboxInRead =>
    intro s c w len a hc runs fetched op f3 address area at_
    refine (completes_winLoad hc runs fetched rfl op f3 address area (by omega) (ok := fun o => o == 0x250) (by rw [at_]; rfl)
      (by rw [at_]; rfl)).imp fun t h => ?_
    obtain ⟨value, alone⟩ := h
    refine ⟨fun hr => (value hr).trans (by simp), ?_⟩
    rw [alone.record, setMx, seqr_setSeq_same, seqr_setSeq_same]
  case mboxOutWrite =>
    intro s c w len a hc runs fetched op f3 address area at_
    refine (completes_winStore hc runs fetched rfl op f3 address area (by omega) (ok := fun o => o == 0x254) (by rw [at_]; rfl)
      (by rw [at_]; rfl)).imp fun t alone => ?_
    obtain ⟨word, raised⟩ := mboxOut_raised (s := s) (c := c) (BitVec.isLt (xget s c (rvRs2 w)))
    exact ⟨(alone.page 0x70 (by decide) (by decide) (by decide)).trans word,
      (congrArg (bit · 14) (alone.page 0x10 (by decide) (by decide) (by decide))).trans raised⟩
  case run =>
    intro s c req v hc g halted
    obtain ⟨traphalt, written⟩ := registerWrite_seqCtl hc g
    have one : bit (v.toNat ||| 1) 0 = true := by rw [bit_eq_testBit, Nat.testBit_or]; simp
    refine completes_onCore rfl hc ?_
    obtain ⟨state, run, pc⟩ := seqRun_halted (s := ctlSet s c true traphalt) ((seqSt_ctlSet ..).trans halted)
    have ends : regCmdSet s req (cPage c) 0x40 v 1 = seqRun (ctlSet s c true traphalt) c := by
      rw [regCmdSet, written, one, seqCtlWrite]
      simp only [if_true]
      change (if _ then seqStepOne (seqRun (ctlSet s c true traphalt) c) c else seqRun (ctlSet s c true traphalt) c) = _
      rw [seqStepOne_of_running (by rw [state]; decide), ite_self]
    rw [ends]
    refine ⟨state, run.trans (run_ctlSet ..), pc.trans ?_⟩
    rw [seqr_ctlSet, pcOf_ctlSet]
    exact congrArg (fun n => if (seqr s c).fresh then n / 2 * 2 else pcOf s c) (congrArg (bits · 0 32) (rd_ctlSet s c _ _ (by decide)))
  case halt =>
    intro s c req v hc g unstepped runs
    obtain ⟨traphalt, written⟩ := registerWrite_seqCtl hc g
    have zero : bit (v.toNat &&& 0xFFFFFFFE) 0 = false := by rw [bit_eq_testBit, Nat.testBit_and]; exact Bool.and_false _
    have none : bit (v.toNat &&& 0xFFFFFFFE) 2 = false := by
      rw [bit_eq_testBit, Nat.testBit_and, ← bit_eq_testBit, unstepped, Bool.false_and]
    have ends : regCmdClear s req (cPage c) 0x40 v 1 = setSeqSt (ctlSet s c false traphalt) c 0 0 := by
      change registerWrite s req (cPage c).no 0x40 (v.toNat &&& 0xFFFFFFFE) 15 = _
      rw [written, zero, none, seqCtlWrite]
      exact if_pos ((seqSt_ctlSet ..).trans runs)
    refine completes_onCore rfl hc ?_
    rw [ends]
    exact ⟨seqSt_setSeqSt _ c _ (by decide), (run_setSeqSt ..).trans (run_ctlSet ..), (pcOf_setSeqSt ..).trans (pcOf_ctlSet ..)⟩
  case step =>
    intro s c w len req v hc g still halted fetched op f7
    obtain ⟨traphalt, written⟩ := registerWrite_seqCtl hc g
    have zero : bit (v.toNat ||| 4) 0 = false := by rw [bit_eq_testBit, Nat.testBit_or, ← bit_eq_testBit, still]; rfl
    have one : bit (v.toNat ||| 4) 2 = true := by rw [bit_eq_testBit, Nat.testBit_or]; exact Bool.or_true _
    let u := ctlSet s c false traphalt
    have halted' : seqSt u c = 0 := (seqSt_ctlSet ..).trans halted
    have fetched' : fetchAt (stepBegun u c) c = .instr w len := by
      rw [fetchAt_stepBegun, ← fetched, fetchAt, pcOf_ctlSet]
      rfl
    have ends : regCmdSet s req (cPage c) 0x40 v 4 = seqIssue (stepBegun u c) c .clean anyInstr := by
      rw [regCmdSet, written, zero, one, seqCtlWrite]
      have halt : seqHalt u c = u := if_neg (by rw [halted']; decide)
      change seqStepOne (seqHalt u c) c = _
      rw [halt]
      exact if_neg (not_not.2 halted')
    have ran := ran_retire (s := stepBegun u c) (c := c)
      (rvAlu (rvF3 w) false (xget (stepBegun u c) c (rvRs1 w)) (xget (stepBegun u c) c (rvRs2 w))) (rvRd_lt w)
      (pcNext_lt (s := stepBegun u c) (c := c) (len := len))
    refine completes_onCore rfl hc ?_
    rw [ends, seqIssue_step seqSt_stepBegun fetched' step_stepBegun (seqBase_op op f7)]
    refine ⟨fun hr => ((ran.setSeqSt 0 0).value hr).trans ?_, (ran.setSeqSt 0 0).pc_eq.trans ?_, seqSt_setSeqSt _ c _ (by decide)⟩
    · rw [xget_stepBegun, xget_stepBegun]
      rfl
    · rw [pcOf_stepBegun, pcOf_ctlSet]
  case mboxInWrite =>
    intro s c req v hc g
    have spec : specOf (cPage c) 0x6C = some sCORE_MBOX_IN := rfl
    have word := (plan_field spec g (by decide) (f := fs 0 32 .wo 0 .v) (by decide)).2.2 (by decide) (by decide)
    have delivered : regCmd s req (cPage c) 0x6C v = mboxIn s c v := by
      have eff : (plan s req (cPage c) 0x6C v.toNat).eff % 2 ^ 32 = v.toNat := by
        rw [← bits_all]
        refine word.trans ?_
        change bits (v.toNat % 2 ^ 32) 0 32 = v.toNat
        rw [bits_mod_word _ (by decide), bits_all, Nat.mod_eq_of_lt (BitVec.isLt v)]
      refine (registerWrite_core hc spec rfl (by decide) (by decide) (by decide) g).trans ?_
      change mboxIn s c (BitVec.ofNat 32 _) = _
      congr 1
      exact BitVec.eq_of_toNat_eq (by rw [BitVec.toNat_ofNat, eff])
    refine completes_onCore rfl hc ?_
    rw [delivered]
    · unfold mboxIn wakeCause
      dsimp only
      rw [seqr_setSeq_same, seqr_setSeq_same]
      exact ⟨rfl, rfl⟩
  case mboxOutRead =>
    intro s c req hc ⟨reached, may⟩
    have page : pageOf (cPage c).no = some (cPage c) := pageOf_core hc .core (by decide)
    have spec : specOf (cPage c) 0x70 = some sCORE_MBOX_OUT := rfl
    obtain ⟨unshut, beyond⟩ := reached
    obtain ⟨on, up⟩ := beyond (by decide)
    have view : viewWord s (cPage c) sCORE_MBOX_OUT 0x70 = rd s (cPage c) 0x70 := setBits_zero_all (rd_lt ..)
    have read : registerRead s req (cPage c).no 0x70 =
        send (wr s (cPage c) 0x70 (setBits (rd s (cPage c) 0x70) 0 32 0)) (.data req (BitVec.ofNat 32 (rd s (cPage c) 0x70))) := by
      rw [registerRead, readCode_page page (by decide) unshut]
      simp only [pageRead, may, spec, on, up, view, Bool.not_true, Bool.false_eq_true, if_false, Bool.or_self, Bool.and_false]
      rfl
    refine completes_onCore rfl hc ?_
    rw [read]
    exact ⟨rfl, by rw [rd_send, rd_wr_same, setBits_all_zero (rd_lt ..)]; rfl⟩

end Sys2Proof.Machine
end

section
/-! PROOFS. The frame of what a sequencer does (R179–R189): which fields of the state, which cores, and which pages' registers and captures may
change. One lemma per operation, callees before callers; a lemma takes what holds up to the operation and gives what holds after it. -/

namespace Sys2Proof.Machine
open Sys2Proof

/-- Fields of the state, beyond the registers, that a command of a core is let to change. -/
structure CoreParts extends Parts where
  ports : Bool := false
  hub : Bool := false
  reports : Bool := false

/-- The state with the registers, and the fields that may change, taken from another. -/
def CoreParts.mix (a : CoreParts) (s t : State) : State :=
  { a.toParts.mix s t with
    ports := cond a.ports t.ports s.ports
    hub := cond a.hub t.hub s.hub
    reports := cond a.reports t.reports s.reports }

/-- From `s` to `t` no field changed but the registers and those of `a`, no core but those of `D`, and no page's registers and capture but those of
pages of `W`. -/
structure Confined (a : CoreParts) (D : Nat → Prop) (W : PageId → Prop) (s t : State) : Prop where
  parts : t = a.mix s t
  others : ∀ d, ¬D d → core t d = core s d
  pages : ∀ q o, pageOf q.no = some q → o < 4096 → ¬W q → rd t q o = rd s q o ∧ cap t q = cap s q

section
variable {a : CoreParts} {D : Nat → Prop} {W : PageId → Prop} {s x y z : State}

theorem CoreParts.mix_self (a : CoreParts) (s : State) : a.mix s s = s := by
  simp only [CoreParts.mix, Parts.mix_self, Bool.cond_self]
theorem CoreParts.mix_mix (a : CoreParts) (s x t : State) : a.mix (a.mix s x) t = a.mix s t := by
  have once : ∀ {α : Type} (c : Bool) (u v w : α), (bif c then u else bif c then v else w) = bif c then u else w := by
    intro α c u v w; cases c <;> rfl
  simp only [CoreParts.mix, Parts.mix, once]
theorem Confined.refl (a : CoreParts) (D : Nat → Prop) (W : PageId → Prop) (s : State) : Confined a D W s s :=
  ⟨(a.mix_self s).symm, fun _ _ => rfl, fun _ _ _ _ _ => ⟨rfl, rfl⟩⟩
theorem Confined.trans (h : Confined a D W s x) (k : Confined a D W x y) : Confined a D W s y := by
  refine ⟨?_, fun d hd => (k.others d hd).trans (h.others d hd), fun q o hq ho hW => ?_⟩
  · calc y = a.mix x y := k.parts
      _ = a.mix (a.mix s x) y := congrArg (a.mix · y) h.parts
      _ = a.mix s y := a.mix_mix s x y
  · have first := h.pages q o hq ho hW
    have second := k.pages q o hq ho hW
    exact ⟨second.1.trans first.1, second.2.trans first.2⟩
theorem Confined.ite {c : Prop} [Decidable c] (hy : Confined a D W s y) (hz : Confined a D W s z) : Confined a D W s (if c then y else z) := by
  split <;> assumption
theorem Confined.folds {α : Type} {f : State → α → State} {l : List α} (h : Confined a D W s x)
    (hf : ∀ x b, Confined a D W s x → Confined a D W s (f x b)) : Confined a D W s (l.foldl f x) := by
  induction l generalizing x with
  | nil => exact h
  | cons b l ih => exact ih (hf x b h)
theorem Confined.fst {α : Type} {t : State} {r : α} {p : State × α} (e : p = (t, r)) (h : Confined a D W s p.1) : Confined a D W s t := by
  subst e
  exact h

/-- A change of fields that `a` lists, that leaves registers, captures and cores. -/
theorem Confined.set (h : Confined a D W s x) (parts : y = a.mix x y) (regs : y.regs = x.regs) (caps : y.caps = x.caps) (cores : y.cores = x.cores) :
    Confined a D W s y :=
  h.trans ⟨parts, fun d _ => by rw [core, cores]; rfl, fun q o _ _ _ => ⟨rd_of_regs regs q o, by rw [cap, caps]; rfl⟩⟩
/-- A change of fields, captures and registers that `a` lists, in which no core takes part. -/
theorem Confined.within {b : Parts} (h : Confined a D W s x) (k : Within b W x y) (listed : ∀ x y, a.mix x (b.mix x y) = b.mix x y)
    (cores : b.cores = false) :
    Confined a D W s y := by
  have parts : y = a.mix x y := by
    have same := listed x y
    rw [← k.parts] at same
    exact same.symm
  refine h.trans ⟨parts, fun d _ => ?_, k.pages⟩
  have kept : (b.mix x y).cores = x.cores := by rw [Parts.mix, cores]; rfl
  rw [core, k.parts, kept]
  rfl

/-! ### Registers -/

theorem wr_confined {p : PageId} (hp : Only W p) (h : Confined a D W s x) {off v : Nat} (ho : off < 4096 := by decide) :
    Confined a D W s (wr x p off v) :=
  h.trans ⟨by simp [CoreParts.mix, Parts.mix, wr], fun _ _ => rfl, fun q o hq hlt hW => ⟨rd_wr_ne x v (hp q o off hq hW hlt ho).1, rfl⟩⟩
theorem fdSet_confined {p : PageId} (hp : Only W p) (h : Confined a D W s x) {f : FRef} {v : Nat} (ho : f.off < 4096 := by decide) :
    Confined a D W s (fdSet x p f v) := wr_confined hp h ho
theorem wr64_confined {p : PageId} (hp : Only W p) (h : Confined a D W s x) {off v : Nat} (ho : off + 4 < 4096 := by decide) :
    Confined a D W s (wr64 x p off v) := wr_confined hp (wr_confined hp h (by omega)) ho
theorem bumpBy_confined {p : PageId} (hp : Only W p) (h : Confined a D W s x) {off n : Nat} (ho : off + 4 < 4096 := by decide) :
    Confined a D W s (bumpBy x p off n) := .ite h (wr64_confined hp h ho)
theorem bump_confined {p : PageId} (hp : Only W p) (h : Confined a D W s x) {off : Nat} (ho : off + 4 < 4096 := by decide) :
    Confined a D W s (bump x p off) := bumpBy_confined hp h ho

/-! ### What goes out, and errors -/

theorem send_confined (out : a.out = true) {o : Out} (h : Confined a D W s x) : Confined a D W s (send x o) :=
  h.set (by simp [CoreParts.mix, Parts.mix, send, out]) rfl rfl rfl
theorem raiseInt_confined (out : a.out = true) {p : PageId} (hp : Only W p) {b : Nat} (h : Confined a D W s x) : Confined a D W s (raiseInt x p b) :=
  .ite (send_confined out (wr_confined hp h)) (wr_confined hp h)
/-- A capture written at a page of `W`. -/
theorem caps_confined (caps : a.caps = true) {p : PageId} (hp : Only W p) {k : Cap} (h : Confined a D W s x) :
    Confined a D W s { x with caps := tput x.caps p.no k } :=
  h.trans ⟨by simp [CoreParts.mix, Parts.mix, caps], fun _ _ => rfl, fun q o hq hlt hW =>
    ⟨rfl, tget_tput_ne _ _ _ (hp q o 0 hq hW hlt (by decide)).2⟩⟩
theorem errAt_confined (out : a.out = true) (caps : a.caps = true) {p : PageId} (hp : Only W p) {code source detail addr tag : Nat}
    (h : Confined a D W s x) : Confined a D W s (errAt x p code source detail addr tag) :=
  .ite (caps_confined caps hp h) (raiseInt_confined out hp (caps_confined caps hp h))

end

/-- What is let through to a core's own state and pages: the core is a core of `D`, and its pages are pages of `W`. -/
structure Owns (a : CoreParts) (D : Nat → Prop) (W : PageId → Prop) (c : Nat) : Prop where
  cores : a.cores = true
  mine : D c
  page : ∀ b ∈ coreBlks, Only W (corePage b c)
/-- The same for operations that also report errors. -/
structure Loud (a : CoreParts) (D : Nat → Prop) (W : PageId → Prop) (c : Nat) : Prop where
  own : Owns a D W c
  out : a.out = true
  caps : a.caps = true
/-- The same for operations that also report to HEAL and use the environment. -/
structure Reporting (a : CoreParts) (D : Nat → Prop) (W : PageId → Prop) (c : Nat) : Prop where
  loud : Loud a D W c
  lt : c < 1152
  heal : a.heal = true
  reports : a.reports = true
  free : a.free = true

section
variable {a : CoreParts} {D : Nat → Prop} {W : PageId → Prop} {c : Nat}
theorem Owns.core (o : Owns a D W c) : Only W (cPage c) := o.page .core (by decide)
theorem Owns.flow (o : Owns a D W c) : Only W (flowPage c) := o.page .flow (by decide)
theorem Owns.spad (o : Owns a D W c) : Only W (spadPage c) := o.page .spad (by decide)
theorem Owns.queue (o : Owns a D W c) : Only W (qPage c) := o.page .qeng (by decide)
theorem Reporting.own (r : Reporting a D W c) : Owns a D W c := r.loud.own
end

end Sys2Proof.Machine
end

section
/-! PROOFS. The frame of what a sequencer does (R179–R189), continued: the operations of a core, of its fabric, scratchpad and queue engine, that an
instruction is made of, up to the issue of one. -/

namespace Sys2Proof.Machine
open Sys2Proof

theorem bankOf_lt (w : Nat) : bankOf w < 64 := Nat.mod_lt _ (by decide)
theorem regionOf_lt (w : Nat) : regionOf w < 128 := Nat.mod_lt _ (by decide)

section
variable {a : CoreParts} {D : Nat → Prop} {W : PageId → Prop} {s x : State} {c : Nat}

/-! ### A core's own state and pages -/

section
variable (o : Owns a D W c)
include o
theorem setCore_confined {k : Core} (h : Confined a D W s x) : Confined a D W s (setCore x c k) :=
  h.trans ⟨by simp [CoreParts.mix, Parts.mix, setCore, o.cores], fun d hd => core_setCore_ne _ _ fun e => hd (e ▸ o.mine),
    fun _ _ _ _ _ => ⟨rfl, rfl⟩⟩
theorem setSeq_confined {q : Seq} (h : Confined a D W s x) : Confined a D W s (setSeq x c q) := setCore_confined o h
theorem setSeqSt_confined {st on : Nat} (h : Confined a D W s x) : Confined a D W s (setSeqSt x c st on) :=
  .ite (fdSet_confined o.core (fdSet_confined o.core (fdSet_confined o.core h))) (fdSet_confined o.core (fdSet_confined o.core h))
theorem setPc_confined {v : Nat} (h : Confined a D W s x) : Confined a D W s (setPc x c v) := fdSet_confined o.core h
theorem setQe_confined {q : Qe} (h : Confined a D W s x) : Confined a D W s (setQe x c q) := setCore_confined o h
theorem setSlot_confined {i : Nat} {q : SlotQ} (h : Confined a D W s x) : Confined a D W s (setSlot x c i q) := setQe_confined o h
theorem setFab_confined {f : Fab} (h : Confined a D W s x) : Confined a D W s (setFab x c f) := setCore_confined o h
theorem setLink_confined {n : Nat} {k : Link} (h : Confined a D W s x) : Confined a D W s (setLink x c n k) := setCore_confined o h
theorem setCu_confined {n : Nat} {u : Cu} (h : Confined a D W s x) : Confined a D W s (setCu x c n u) := setCore_confined o h
theorem setArr_confined {v : Arr} (h : Confined a D W s x) : Confined a D W s (setArr x c v) := setCore_confined o h
theorem retire_confined {pc : Nat} (h : Confined a D W s x) : Confined a D W s (retire x c pc) :=
  setPc_confined o (bump_confined o.core (setSeq_confined o h))
theorem xset_confined {rd : Nat} {v : Word} (h : Confined a D W s x) : Confined a D W s (xset x c rd v) := .ite h (setSeq_confined o h)
theorem setBank_confined {b v : Nat} (hb : b < 64) (h : Confined a D W s x) : Confined a D W s (setBank x c b v) :=
  fdSet_confined o.spad h (by simp only [bankF, FRef.at, FRef.sub, fSPAD_BANK_STATE_S]; omega)
theorem noteFlips_confined {w : Nat} {e : Ecc} (h : Confined a D W s x) : Confined a D W s (noteFlips x c w e) := .ite h (setCore_confined o h)
theorem applyWord_confined {w : Nat} {v : DWord} {p : Bool} (h : Confined a D W s x) : Confined a D W s (applyWord x c w v p) :=
  setCore_confined o (setCore_confined o h)
theorem setMx_confined {code : Nat} (h : Confined a D W s x) : Confined a D W s (setMx x c code) := setSeq_confined o h
theorem ringRelease_confined {q : Nat} (h : Confined a D W s x) : Confined a D W s (ringRelease x c q) := setSlot_confined o h
theorem jFree_confined {q : Nat} (h : Confined a D W s x) : Confined a D W s (jFree x c q) := setSlot_confined o h
theorem jRelease_confined {q : Nat} (h : Confined a D W s x) : Confined a D W s (jRelease x c q) :=
  .ite h (.ite (jFree_confined o (jFree_confined o h)) (jFree_confined o h))
theorem popSlot_confined {q : Nat} (h : Confined a D W s x) : Confined a D W s (popSlot x c q).1 := by
  unfold popSlot
  split
  · dsimp only
    split
    · exact h
    · exact setSlot_confined o h
  · dsimp only
    split
    · exact ringRelease_confined o h
    · exact setSlot_confined o (ringRelease_confined o h)
  · dsimp only
    split
    · exact setSlot_confined o (jRelease_confined o h)
    · exact jRelease_confined o h
  · exact h
theorem popTok_confined {port : Nat} (h : Confined a D W s x) : Confined a D W s (popTok x c port) := by
  unfold popTok
  split
  · exact .ite h (setLink_confined o h)
  · exact h
theorem emitTok_confined {port : Nat} {t : Tok} (h : Confined a D W s x) : Confined a D W s (emitTok x c port t) :=
  .folds h fun _ _ hy => setLink_confined o hy
theorem takeCredits_confined {port n : Nat} (h : Confined a D W s x) : Confined a D W s (takeCredits x c port n) :=
  .folds h fun _ _ hy => setLink_confined o hy
theorem stallCount_confined {outs : List (Nat × Nat)} (h : Confined a D W s x) : Confined a D W s (stallCount x c outs) := by
  unfold stallCount
  split
  · exact .ite (bump_confined o.flow h) h
  · exact h
theorem seqFinish_confined {rd : Nat} {v : Word} {code : Nat} (h : Confined a D W s x) : Confined a D W s (seqFinish x c rd v code) :=
  setSeqSt_confined o (retire_confined o (setSeq_confined o (xset_confined o h)))
theorem napEnd_confined {rd : Nat} (h : Confined a D W s x) : Confined a D W s (napEnd x c rd) :=
  seqFinish_confined o (setSeq_confined o (.ite (bump_confined (off := 0xC18) o.core h) h))
theorem seqWait_confined {w : Wait} {st on : Nat} (h : Confined a D W s x) : Confined a D W s (seqWait x c w st on) :=
  setSeqSt_confined o (setSeq_confined o h)
theorem seqNap_confined {rd v : Nat} (h : Confined a D W s x) : Confined a D W s (seqNap x c rd v) :=
  .ite (napEnd_confined o h) (seqWait_confined o h)
theorem seqDone_confined {rd : Nat} {v : Word} {code : Nat} (h : Confined a D W s x) : Confined a D W s (seqDone x c rd v code) :=
  seqFinish_confined o h
theorem qpopGive_confined {rd : Nat} {v : DWord} {poison : Bool} (h : Confined a D W s x) : Confined a D W s (qpopGive x c rd v poison) :=
  seqFinish_confined o (setSeq_confined o h)
theorem qselGive_confined {rd bank q : Nat} (h : Confined a D W s x) : Confined a D W s (qselGive x c rd bank q) :=
  seqFinish_confined o (setSeq_confined o h)
theorem seqQsel_confined {rd mask ctl : Nat} (h : Confined a D W s x) : Confined a D W s (seqQsel x c rd mask ctl) := by
  unfold seqQsel
  dsimp only
  split
  · exact qselGive_confined o h
  · exact .ite (seqDone_confined o h) (seqWait_confined o h)
theorem issue_confined (h : Confined a D W s x) : Confined a D W s (issue x c).1 := setSeq_confined o h
theorem setChan_confined {i : Nat} {entry : Chan} (h : Confined a D W s x) : Confined a D W s (setChan x c i entry) := setQe_confined o h
theorem inject_confined {p : Pkt} (h : Confined a D W s x) : Confined a D W s (inject x c p) := setQe_confined o h
theorem seqChopen_confined {rd en v : Nat} (h : Confined a D W s x) : Confined a D W s (seqChopen x c rd en v) := by
  unfold seqChopen
  generalize lowest1024 _ = free
  cases free with
  | none => exact seqDone_confined o h
  | some i => exact inject_confined o (seqWait_confined o (setChan_confined o h))
theorem rangeGrant_confined {n : Nat} (h : Confined a D W s x) : Confined a D W s (rangeGrant x c n) := by
  unfold rangeGrant
  dsimp only
  split
  · exact h
  · exact .ite h (.ite (setCore_confined o h) (setCore_confined o h))
theorem rangeRelease_confined {owner id : Nat} (h : Confined a D W s x) : Confined a D W s (rangeRelease x c owner id) := setCore_confined o h
theorem startCheck_confined {b : Nat} (h : Confined a D W s x) : Confined a D W s (startCheck x c b) :=
  .ite h (fdSet_confined o.flow (setFab_confined o h))
theorem setOutcome_confined {id code : Nat} (h : Confined a D W s x) : Confined a D W s (setOutcome x c id code) := setSeq_confined o h
theorem cfgswDone_confined {code : Nat} (h : Confined a D W s x) : Confined a D W s (cfgswDone x c code) := by
  have idle := fdSet_confined o.flow (f := fFLOW_STATUS_QSTOP) (v := 0) (fdSet_confined o.flow (f := fFLOW_STATUS_SWITCH) (v := 0)
    (setFab_confined o (f := { fabOf x c with sw := none }) h))
  unfold cfgswDone
  dsimp only
  split
  · exact seqFinish_confined o idle
  · exact idle
theorem startLinks_confined (h : Confined a D W s x) : Confined a D W s (startLinks x c) := setCore_confined o h
theorem arrSwitch_confined {old new : Nat} {purge : Bool} (h : Confined a D W s x) : Confined a D W s (arrSwitch x c old new purge) :=
  setArr_confined o (.ite (bump_confined o.flow h) h)
theorem csrWrite_confined {n : Nat} {v : Word} {t : State} (h : Confined a D W s x) (e : csrWrite x c n v = some t) : Confined a D W s t := by
  unfold csrWrite at e
  split at e <;> first | (cases e; exact setSeq_confined o h) | cases e
end

/-! ### Operations that report errors -/

section
variable (l : Loud a D W c)
include l
theorem coreErr_confined {code source detail addr : Nat} {int : Option Nat} (h : Confined a D W s x) :
    Confined a D W s (coreErr x c code source detail addr int) := by
  unfold coreErr
  dsimp only
  split
  · exact raiseInt_confined l.out l.own.core (errAt_confined l.out l.caps l.own.core h)
  · exact errAt_confined l.out l.caps l.own.core h
theorem seqTrap_confined {cause tval : Nat} (h : Confined a D W s x) : Confined a D W s (seqTrap x c cause tval) :=
  .ite (coreErr_confined l (fdSet_confined l.own.core (fdSet_confined l.own.core (setSeqSt_confined l.own h))))
    (setSeqSt_confined l.own (setPc_confined l.own (setSeq_confined l.own h)))
theorem noArea_confined {addr : Nat} (h : Confined a D W s x) : Confined a D W s (noArea x c addr) := coreErr_confined l h
theorem bankRefuse_confined {who w code source : Nat} (h : Confined a D W s x) : Confined a D W s (bankRefuse x c who w code source) :=
  raiseInt_confined l.out l.own.spad (errAt_confined l.out l.caps l.own.spad h)
theorem bankAsk_confined {who w : Nat} (h : Confined a D W s x) : Confined a D W s (bankAsk x c who w).1 := by
  unfold bankAsk
  dsimp only
  split
  · exact h
  · split
    · exact bankRefuse_confined l h
    · split
      · exact h
      · exact bump_confined l.own.spad (setBank_confined l.own (bankOf_lt w) h)
      · exact bankRefuse_confined l (bump_confined l.own.spad h)
      · exact bump_confined l.own.spad h
      · exact h
      · exact bankRefuse_confined l h
      · exact h
theorem qErr_confined {code source detail addr int : Nat} (h : Confined a D W s x) : Confined a D W s (qErr x c code source detail addr int) :=
  raiseInt_confined l.out l.own.queue (errAt_confined l.out l.caps l.own.queue h)
theorem qxPopRefused_confined {q : Nat} (h : Confined a D W s x) : Confined a D W s (qxPopRefused x c q) := qErr_confined l h
theorem winLoad_confined {off : Nat} (h : Confined a D W s x) : Confined a D W s (winLoad x c off).1 := by
  unfold winLoad
  repeat' first
    | with_reducible first
        | exact h | apply setMx_confined l.own | apply qxPopRefused_confined l | apply popSlot_confined l.own | apply setSeq_confined l.own
        | apply popTok_confined l.own
        | refine Confined.fst (by assumption) ?_
    | split
    | (dsimp only; split)
theorem winStore_confined {off v : Nat} (h : Confined a D W s x) : Confined a D W s (winStore x c off v).1 := by
  unfold winStore
  repeat' first
    | with_reducible first
        | exact h | apply setMx_confined l.own | apply emitTok_confined l.own | apply takeCredits_confined l.own
        | apply stallCount_confined l.own | refine raiseInt_confined l.out l.own.core ?_
        | refine fdSet_confined l.own.core ?_ | apply setSeq_confined l.own
    | split
    | (dsimp only; split)
theorem seqEcall_confined {next : Nat} (h : Confined a D W s x) : Confined a D W s (seqEcall x c next) :=
  raiseInt_confined l.out l.own.core (setSeqSt_confined l.own (setPc_confined l.own h))
theorem seqQpop_confined {rd q : Nat} (h : Confined a D W s x) : Confined a D W s (seqQpop x c rd q) := by
  have popped := popSlot_confined l.own (q := q) h
  unfold seqQpop
  split
  · exact seqDone_confined l.own (qxPopRefused_confined l h)
  · split
    next e => exact qpopGive_confined l.own (.fst e popped)
    next e => exact seqWait_confined l.own (.fst e popped)
theorem rangeAsk_confined {range : Range} (h : Confined a D W s x) : Confined a D W s (rangeAsk x c range).1 := by
  unfold rangeAsk
  dsimp only
  split
  · exact raiseInt_confined l.out l.own.spad (errAt_confined l.out l.caps l.own.spad h)
  · split
    · exact h
    · split
      · exact h
      · exact setCore_confined l.own h
theorem enterMsg_confined {i len addr id : Nat} {src : MsgSrc} (h : Confined a D W s x) : Confined a D W s (enterMsg x c i len addr id src).1 := by
  unfold enterMsg
  dsimp only
  split
  · exact h
  · split
    · exact h
    · split
      · exact h
      · split
        next e => exact .fst e (rangeAsk_confined l h)
        next e => exact setQe_confined l.own (.fst e (rangeAsk_confined l h))
        next e => exact setQe_confined l.own (.fst e (rangeAsk_confined l h))
theorem seqQsend_confined {rd addr v : Nat} (h : Confined a D W s x) : Confined a D W s (seqQsend x c rd addr v) := by
  have entered := fun i len => enterMsg_confined l (i := i) (len := len) (addr := addr) (id := (seqr x c).nextId) (src := .seq) h
  unfold seqQsend
  exact .ite (seqDone_confined l.own h) (seqDone_confined l.own (.ite (issue_confined l.own (entered ..)) (entered ..)))
theorem noticeOut_confined {d en : Nat} {f : Nat → Nat → Nat → Bool → Out} (h : Confined a D W s x) : Confined a D W s (noticeOut x d en f) :=
  .ite (send_confined l.out h) h
theorem closeSettle_confined {i : Nat} (h : Confined a D W s x) : Confined a D W s (closeSettle x c i) :=
  .ite h (.ite (setChan_confined l.own h) (noticeOut_confined l (setChan_confined l.own h)))
theorem chClose_confined {i : Nat} (h : Confined a D W s x) : Confined a D W s (chClose x c i).1 := by
  unfold chClose
  dsimp only
  split
  · exact closeSettle_confined l (setChan_confined l.own h)
  · exact setChan_confined l.own h
  · exact h
theorem rangeTake_confined {range : Range} (h : Confined a D W s x) : Confined a D W s (rangeTake x c range).1 := by
  unfold rangeTake
  dsimp only
  split
  · split
    · exact h
    · exact rangeGrant_confined l.own h
  · have asked := rangeAsk_confined l (range := range) h
    split
    next e =>
      split
      · exact .fst e asked
      · exact rangeGrant_confined l.own (.fst e asked)
    next e => exact .fst e asked
    next e => exact .fst e asked
    next e => exact .fst e asked
theorem dmaErr_confined {code source detail addr : Nat} (h : Confined a D W s x) : Confined a D W s (dmaErr x c code source detail addr) :=
  raiseInt_confined l.out l.own.spad (errAt_confined l.out l.caps l.own.spad h)
theorem qyPurge_confined {p : Nat} (h : Confined a D W s x) : Confined a D W s (qyPurge x c p) :=
  .ite h (setOutcome_confined l.own (qErr_confined l (setQe_confined l.own h)))
theorem startUnits_confined (h : Confined a D W s x) : Confined a D W s (startUnits x c) := by
  unfold startUnits
  exact .folds (setCore_confined l.own h) fun _ _ hy => .ite (rangeTake_confined l hy) hy
theorem activate_confined {purge : Bool} (h : Confined a D W s x) : Confined a D W s (activate x c purge) := by
  have switched := arrSwitch_confined l.own (old := activeBuf x c) (new := 1 - activeBuf x c) (purge := purge) h
  have released := Confined.folds (l := List.range 10) switched fun _ m hy => rangeRelease_confined l.own (owner := m) (id := 0) hy
  unfold activate
  repeat' with_reducible first
    | exact released | refine fdSet_confined l.own.flow ?_ | apply startUnits_confined l | apply setFab_confined l.own | apply Confined.ite
theorem seqMile_confined {rd : Nat} {n : Word} (h : Confined a D W s x) : Confined a D W s (seqMile x c rd n) :=
  .ite (seqDone_confined l.own (coreErr_confined l h)) (seqWait_confined l.own h)
end

/-! ### Operations that read or write scratchpad, and what is made of them -/

section
variable (r : Reporting a D W c)
include r
theorem watch_confined {kind unit ticks : Nat} (h : Confined a D W s x) : Confined a D W s (watch x kind unit ticks) :=
  h.set (by simp [CoreParts.mix, Parts.mix, watch, r.heal]) rfl rfl rfl
theorem spadCorrected_confined {w off : Nat} (h : Confined a D W s x) (ho : off + 4 < 4096 := by decide) :
    Confined a D W s (spadCorrected x c w off) :=
  watch_confined r (bump_confined r.own.spad h ho)
theorem reportCore_confined {b : Blk} {source code detail : Nat} (hb : b ∈ coreBlks) (h : Confined a D W s x) :
    Confined a D W s (reportCore x b c source code detail) := by
  have page : pageOf (corePage b c).no = some (corePage b c) := pageOf_core r.lt b (by simpa [coreBlks] using hb)
  have queued : ∀ l, Confined a D W s { x with heal := { x.heal with backlog := l } } := fun l =>
    h.set (by simp [CoreParts.mix, Parts.mix, r.heal]) rfl rfl rfl
  have counted : ∀ y, Confined a D W s y → Confined a D W s (capCount y (corePage b c)) := fun y hy =>
    .ite (caps_confined r.loud.caps (r.own.page b hb) hy) hy
  unfold reportCore report
  split
  · exact h.set (by simp [CoreParts.mix, Parts.mix, r.reports]) rfl rfl rfl
  · dsimp only
    rw [page]
    exact .ite (counted _ (queued _)) (queued _)
theorem spadUncorrectable_confined {w : Nat} {scrub : Bool} {who : Nat} (h : Confined a D W s x) :
    Confined a D W s (spadUncorrectable x c w scrub who) := by
  have region := regionOf_lt w
  have counted := bump_confined r.own.spad (off := 0xC10) h
  have held := fdSet_confined r.own.spad (f := fSPAD_REGION_HOLD.at (regionOf w)) (v := 1) counted (by simp only [FRef.at, fSPAD_REGION_HOLD]; omega)
  unfold spadUncorrectable
  refine .ite (reportCore_confined r (by decide) ?_) (reportCore_confined r (by decide) ?_)
  · exact raiseInt_confined r.loud.out r.own.spad (errAt_confined r.loud.out r.loud.caps r.own.spad held)
  · exact raiseInt_confined r.loud.out r.own.spad (errAt_confined r.loud.out r.loud.caps r.own.spad (applyWord_confined r.own counted))
theorem spadFetch_confined {w : Nat} {e : Ecc} {who : Nat} (h : Confined a D W s x) : Confined a D W s (spadFetch x c w e who).1 := by
  have counted := bump_confined r.own.spad (off := 0xC38) (noteFlips_confined r.own (w := w) (e := e) h)
  unfold spadFetch
  dsimp only
  split
  · exact spadCorrected_confined r (setCore_confined r.own counted)
  · split
    · exact counted
    · exact spadUncorrectable_confined r counted
  · exact counted
theorem spadRead_confined {who w : Nat} {e : Ecc} (h : Confined a D W s x) : Confined a D W s (spadRead x c who w e).1 := by
  have asked := bankAsk_confined r.loud (who := who) (w := w) h
  unfold spadRead
  split
  next e => exact .fst e asked
  next e => exact spadFetch_confined r (.fst e asked)
theorem seqLoad_confined {addr n : Nat} {e : Ecc} (h : Confined a D W s x) : Confined a D W s (seqLoad x c addr n e).1 := by
  unfold seqLoad
  split
  · exact h
  · dsimp only
    split
    · exact h
    · have read := spadRead_confined r (who := whoSeq) (w := (addr - 0x10000000) / 8) (e := e) h
      split
      next ans =>
        split
        · exact setMx_confined r.own (.fst ans read)
        · exact .fst ans read
      next ans => exact .fst ans read
      next ans => exact .fst ans read
  · split
    · exact winLoad_confined r.loud h
    · exact h
  · exact noArea_confined r.loud h
theorem spadMerge_confined {w mask : Nat} {v : DWord} {poison : Bool} {e : Ecc} {who : Nat} (h : Confined a D W s x) :
    Confined a D W s (spadMerge x c w mask v poison e who).1 := by
  have counted := bump_confined r.own.spad (off := 0xC38) h
  have noted := noteFlips_confined r.own (w := w) (e := e) counted
  unfold spadMerge
  dsimp only
  split
  · exact counted
  · exact .ite (spadUncorrectable_confined r noted) (.ite (spadCorrected_confined r noted) noted)
theorem spadApply_confined {w mask : Nat} {v : DWord} {poison : Bool} {e : Ecc} {who : Nat} (h : Confined a D W s x) :
    Confined a D W s (spadApply x c w mask v poison e who) :=
  applyWord_confined r.own (spadMerge_confined r h)
theorem spadWrite_confined {who w mask : Nat} {v : DWord} {poison : Bool} {e : Ecc} (h : Confined a D W s x) :
    Confined a D W s (spadWrite x c who w mask v poison e).1 := by
  have asked := bankAsk_confined r.loud (who := who) (w := w) h
  unfold spadWrite
  split
  next e => exact .fst e asked
  next e => exact spadApply_confined r (.fst e asked)
theorem seqStore_confined {addr n v : Nat} {e : Ecc} (h : Confined a D W s x) : Confined a D W s (seqStore x c addr n v e).1 := by
  unfold seqStore
  split
  · exact setSeq_confined r.own h
  · dsimp only
    split
    · exact h
    · split
      next ans => exact .fst ans (spadWrite_confined r h)
      next ans => exact .fst ans (spadWrite_confined r h)
      next ans => exact .fst ans (spadWrite_confined r h)
  · split
    · exact winStore_confined r.loud h
    · exact h
  · exact noArea_confined r.loud h
theorem freeUsed_confined (h : Confined a D W s x) : Confined a D W s (freeUsed x) :=
  h.set (by simp [CoreParts.mix, Parts.mix, freeUsed, r.free]) rfl rfl rfl
theorem cycleOn_confined (h : Confined a D W s x) : Confined a D W s (cycleOn x c) := setSeq_confined r.own (freeUsed_confined r h)
theorem csrRead_confined {n : Nat} {t : State} {v : Word} (h : Confined a D W s x) (e : csrRead x c n = some (t, v)) : Confined a D W s t := by
  have read : t = x ∨ t = cycleOn x c := by
    unfold csrRead at e
    split at e <;> first | (cases e; exact .inr rfl) | (cases e; exact .inl rfl) | cases e
  rcases read with rfl | rfl
  · exact h
  · exact cycleOn_confined r h
theorem seqCsr_confined {w next : Nat} (h : Confined a D W s x) : Confined a D W s (seqCsr x c w next) := by
  unfold seqCsr
  dsimp only
  split
  · exact seqTrap_confined r.loud h
  · have read := csrRead_confined r h (by assumption)
    split
    · split
      · exact seqTrap_confined r.loud h
      · exact retire_confined r.own (xset_confined r.own (csrWrite_confined r.own read (by assumption)))
    · exact retire_confined r.own (xset_confined r.own read)
theorem spadReadAll_confined {who w n : Nat} (h : Confined a D W s x) : Confined a D W s (spadReadAll x c who w n).1 := by
  induction n generalizing x w with
  | zero => exact h
  | succ n ih =>
    unfold spadReadAll
    split
    next e => exact ih (.fst e (spadRead_confined r h))
    next e => exact .fst e (spadRead_confined r h)
theorem spadReadEcc_confined {who w : Nat} {e : Ecc} {n : Nat} (h : Confined a D W s x) : Confined a D W s (spadReadEcc x c who w e n).1 := by
  cases n with
  | zero => exact h
  | succ n =>
    unfold spadReadEcc
    dsimp only
    split
    next ans => exact spadReadAll_confined r (.fst ans (spadRead_confined r h))
    next ans => exact .fst ans (spadRead_confined r h)
theorem dmaGo_confined {rd addr : Nat} {e : Ecc} (h : Confined a D W s x) : Confined a D W s (dmaGo x c rd addr e) := by
  unfold dmaGo
  dsimp only
  split
  · exact seqDone_confined r.own h
  · split
    · exact seqDone_confined r.own (coreErr_confined r.loud h)
    · split
      next taken => exact .fst taken (rangeTake_confined r.loud h)
      next taken => exact seqDone_confined r.own (.fst taken (rangeTake_confined r.loud h))
      next u taken =>
        have read := spadReadEcc_confined r (who := whoDma) (w := addr / 8) (e := e) (n := 4) (Confined.fst taken (rangeTake_confined r.loud h))
        split
        next ans => exact .fst ans read
        next ans => exact seqDone_confined r.own (dmaErr_confined r.loud (rangeRelease_confined r.own (.fst ans read)))
        next ans =>
          have released := rangeRelease_confined r.own (owner := whoDma) (id := descReadId) (Confined.fst ans read)
          split
          · exact seqDone_confined r.own (dmaErr_confined r.loud released)
          · split
            · exact seqDone_confined r.own (dmaErr_confined r.loud released)
            · split
              · exact seqDone_confined r.own released
              · exact seqDone_confined r.own (setCore_confined r.own (issue_confined r.own released))
theorem updConsts_confined {n : Nat} (h : Confined a D W s x) : Confined a D W s (updConsts x c n).1 := by
  have stored : ∀ y l p, Confined a D W s y →
      Confined a D W s (if p = true then coreErr (setCu y c n { cu y c n with consts := l }) c cPOISON 0x66 n 0 (some 11)
        else setCu y c n { cu y c n with consts := l }) := fun y l p hy =>
    .ite (coreErr_confined r.loud (setCu_confined r.own hy)) (setCu_confined r.own hy)
  unfold updConsts
  dsimp only
  rw [apply_ite Prod.fst]
  refine .ite h ?_
  split
  next taken => exact stored _ _ true (.fst taken (rangeTake_confined r.loud h))
  next taken => exact .fst taken (rangeTake_confined r.loud h)
  next u taken =>
    have start : Confined a D W s u := .fst taken (rangeTake_confined r.loud h)
    split
    next ans => exact .fst ans (spadReadAll_confined r start)
    next ans => exact stored _ _ true (rangeRelease_confined r.own (.fst ans (spadReadAll_confined r start)))
    next ans => exact stored _ _ _ (rangeRelease_confined r.own (.fst ans (spadReadAll_confined r start)))
theorem startFlow_confined (h : Confined a D W s x) : Confined a D W s (startFlow x c) :=
  .folds (startLinks_confined r.own h) fun _ _ hy => .ite (updConsts_confined r hy) hy
theorem cfgswFinish_confined (h : Confined a D W s x) : Confined a D W s (cfgswFinish x c) := by
  unfold cfgswFinish
  split
  · exact h
  · exact .ite (fdSet_confined r.own.flow (setFab_confined r.own h)) (cfgswDone_confined r.own (bump_confined r.own.flow
      (startFlow_confined r (fdSet_confined r.own.flow (setFab_confined r.own h)))))
theorem purge_confined (h : Confined a D W s x) : Confined a D W s (purge x c) :=
  cfgswFinish_confined r (activate_confined r.loud (.folds (bumpBy_confined r.own.flow h) fun _ _ hy => qyPurge_confined r.loud hy))
theorem cfgswAdvance_confined (h : Confined a D W s x) : Confined a D W s (cfgswAdvance x c) := by
  unfold cfgswAdvance
  split
  · exact h
  · exact .ite h (.ite (fdSet_confined r.own.flow (startCheck_confined r.own h)) (.ite (purge_confined r h) (fdSet_confined r.own.flow h)))
theorem cfgswIssue_confined {rd : Nat} {purge : Bool} (h : Confined a D W s x) : Confined a D W s (cfgswIssue x c rd purge) :=
  cfgswAdvance_confined r (setFab_confined r.own (fdSet_confined r.own.flow (fdSet_confined r.own.flow
    (setSeqSt_confined r.own (setSeq_confined r.own h)))))
theorem seqCustom_confined {w : Nat} {e : Ecc} (h : Confined a D W s x) : Confined a D W s (seqCustom x c w e) := by
  unfold seqCustom
  dsimp only
  split
  · exact seqTrap_confined r.loud h
  · split
    · exact .ite (seqNap_confined r.own h) (seqTrap_confined r.loud h)
    · split
      · exact seqQpop_confined r.loud h
      · exact seqQsel_confined r.own h
      · exact seqQsend_confined r.loud h
      · exact seqChopen_confined r.own h
      · exact seqDone_confined r.own (chClose_confined r.loud h)
      · exact dmaGo_confined r h
      · exact cfgswIssue_confined r h
      · exact seqMile_confined r.loud h
theorem seqBase_confined {w len : Nat} {e : Ecc} (h : Confined a D W s x) : Confined a D W s (seqBase x c w len e) := by
  have illegal : ∀ {cause tval}, Confined a D W s (seqTrap x c cause tval) := seqTrap_confined r.loud h
  have give : ∀ {rd v pc}, Confined a D W s (retire (xset x c rd v) c pc) := retire_confined r.own (xset_confined r.own h)
  have step : ∀ {pc}, Confined a D W s (retire x c pc) := retire_confined r.own h
  unfold seqBase
  dsimp only
  split
  · exact give
  · exact give
  · exact give
  · exact .ite give illegal
  · split
    · exact illegal
    · exact step
    · exact step
  · split
    · exact illegal
    · split
      · exact illegal
      · split
        next ans => exact retire_confined r.own (xset_confined r.own (.fst ans (seqLoad_confined r h)))
        next ans => exact .fst ans (seqLoad_confined r h)
        next ans => exact seqTrap_confined r.loud (.fst ans (seqLoad_confined r h))
  · split
    · exact illegal
    · split
      · exact illegal
      · split
        next ans => exact retire_confined r.own (.fst ans (seqStore_confined r h))
        next ans => exact .fst ans (seqStore_confined r h)
        next ans => exact seqTrap_confined r.loud (.fst ans (seqStore_confined r h))
  · exact .ite illegal (.ite illegal give)
  · exact .ite give (.ite give (.ite give illegal))
  · exact .ite step illegal
  · exact .ite (.ite (seqEcall_confined r.loud h) (.ite step (.ite step illegal))) (.ite illegal (seqCsr_confined r h))
  · exact seqCustom_confined r h
  · exact seqCustom_confined r h
  · exact illegal
theorem seqIssue_confined {e : Ecc} {want : Nat → Bool} (h : Confined a D W s x) : Confined a D W s (seqIssue x c e want) := by
  have ends : ∀ {y}, Confined a D W s y → Confined a D W s (if seqSt y c = 1 && !goesOn y c then setSeqSt y c 0 0 else y) := fun hy =>
    .ite (setSeqSt_confined r.own hy) hy
  unfold seqIssue
  dsimp only
  split
  · exact h
  · split
    · exact .ite (ends (seqTrap_confined r.loud (.ite (noArea_confined r.loud h) h))) h
    · exact .ite (ends (seqTrap_confined r.loud h)) h
    next w len _ =>
      split
      · exact h
      · generalize begun : (if (seqSt x c == 2 && fd x (cPage c) fCORE_SEQ_STATE_WAITON == 5) = true then setSeqSt x c 1 0 else x) = y
        have done : Confined a D W s (seqBase y c w len e) := seqBase_confined r (begun ▸ .ite (setSeqSt_confined r.own h) h)
        split
        · exact done
        · split
          · exact .ite (setSeqSt_confined r.own done) done
          · exact ends done
end

end

end Sys2Proof.Machine
end

section
/-! PROOFS. The frame of what a sequencer does (R179–R189), concluded: the ends of its waits, the milestone, the registers that others write and
read, and the frame of each command. -/

namespace Sys2Proof.Machine
open Sys2Proof

section
variable {a : CoreParts} {D : Nat → Prop} {W : PageId → Prop} {s x : State} {c : Nat}

/-! ### The ends of waits (R183, R186) -/

section
variable (o : Owns a D W c)
include o
theorem wokeUp_confined (h : Confined a D W s x) : Confined a D W s (wokeUp x c) := .ite (bump_confined o.core h) h
theorem qpopReturn_confined (h : Confined a D W s x) : Confined a D W s (qpopReturn x c) := by
  unfold qpopReturn
  split
  · split
    next popped => exact qpopGive_confined o (.fst popped (popSlot_confined o h))
    next => exact h
  next => exact h
theorem qpopTimeout_confined (h : Confined a D W s x) : Confined a D W s (qpopTimeout x c) := by
  unfold qpopTimeout
  split
  · exact seqFinish_confined o h
  · exact h
theorem qselSelect_confined (h : Confined a D W s x) : Confined a D W s (qselSelect x c) := by
  unfold qselSelect
  split
  · split
    · exact qselGive_confined o (wokeUp_confined o h)
    · exact h
  · exact h
theorem qselTimeout_confined (h : Confined a D W s x) : Confined a D W s (qselTimeout x c) := by
  unfold qselTimeout
  split
  · exact seqFinish_confined o (wokeUp_confined o h)
  · exact h
theorem napEntry_confined (h : Confined a D W s x) : Confined a D W s (napEntry x c) := by
  unfold napEntry
  dsimp only
  split
  · exact .ite h (setSeqSt_confined o (setSeq_confined o h))
  · exact .ite h (setSeqSt_confined o (setSeq_confined o h))
  · exact h
theorem napWake_confined (h : Confined a D W s x) : Confined a D W s (napWake x c) := by
  unfold napWake
  split
  · exact .ite (napEnd_confined o h) h
  · exact h
theorem wakeCause_confined {b : Nat} (h : Confined a D W s x) : Confined a D W s (wakeCause x c b) := setSeq_confined o h
theorem mboxIn_confined {v : Word} (h : Confined a D W s x) : Confined a D W s (mboxIn x c v) := wakeCause_confined o (setSeq_confined o h)
end

/-! ### The milestone (R184, R448) -/

/-- What an abort is let through to beyond the core: the hub's contexts, and the ports and routing tables of the external dies. -/
structure Aborting (a : CoreParts) (W : PageId → Prop) : Prop where
  out : a.out = true
  caps : a.caps = true
  ports : a.ports = true
  hub : a.hub = true
  page : ∀ d, d = 9 ∨ d = 10 → Only W (xPage d)

theorem portDie_of_lt {k : Nat} (h : k < 40) : portDie k = 9 ∨ portDie k = 10 := by
  unfold portDie
  split <;> omega
theorem liveOf_getD_lt (mask n : Nat) : (liveOf x mask).getD n 0 < 40 := by
  rw [List.getD_eq_getElem?_getD]
  cases h : (liveOf x mask)[n]? with
  | none => decide
  | some k => exact List.mem_range.1 (List.mem_of_mem_filter (List.mem_of_getElem? h))
/-- A route is taken through a port of the module. -/
theorem port_of_routeChoice {d n i k : Nat} {l : List Nat} {p : Pkt} (h : routeChoice x d n p = some (i, l, k)) : k < 40 := by
  unfold routeChoice at h
  dsimp only at h
  split at h
  · cases h
  · obtain ⟨j, -, chosen⟩ := Option.map_eq_some_iff.1 h
    cases chosen
    exact liveOf_getD_lt ..

section
variable (b : Aborting a W)
include b
theorem xAdd_confined {d n : Nat} {up : Bool} (hd : d = 9 ∨ d = 10) (h : Confined a D W s x) : Confined a D W s (xAdd x d n up) :=
  wr_confined (b.page d hd) h (by omega)
theorem pktErr_confined {d source detail int : Nat} {p : Pkt} (hd : d = 9 ∨ d = 10) (h : Confined a D W s x) :
    Confined a D W s (pktErr x (xPage d) source detail p int) :=
  raiseInt_confined b.out (b.page d hd) (errAt_confined b.out b.caps (b.page d hd) h)
theorem setPort_confined {p : Nat} {v : PortSt} (h : Confined a D W s x) : Confined a D W s (setPort x p v) :=
  h.set (by simp [CoreParts.mix, Parts.mix, setPort, b.ports]) rfl rfl rfl
theorem setHub_confined {v : Hub} (h : Confined a D W s x) : Confined a D W s (setHub x v) :=
  h.set (by simp [CoreParts.mix, Parts.mix, setHub, b.hub]) rfl rfl rfl
theorem noRoute_confined {d : Nat} {p : Pkt} (hd : d = 9 ∨ d = 10) (h : Confined a D W s x) : Confined a D W s (noRoute x d p) :=
  pktErr_confined b hd (bump_confined (b.page d hd) (.ite h (xAdd_confined b hd h)))
theorem xepDrop_confined {d inp n : Nat} {own : Bool} {p : Pkt} (hd : d = 9 ∨ d = 10) (h : Confined a D W s x) :
    Confined a D W s (xepDrop x d inp n own p) :=
  pktErr_confined b hd (bump_confined (b.page d hd) (.ite h (xAdd_confined b hd h)))
theorem routeOut_confined {d n i k : Nat} {own : Bool} {p : Pkt} (hd : d = 9 ∨ d = 10) (hk : portDie k = 9 ∨ portDie k = 10)
    (h : Confined a D W s x) : Confined a D W s (routeOut x d n i k own p) := by
  have counted := bump_confined (b.page d hd) (off := 0xC00) h
  have detour : Confined a D W s (if i = 0 then bump x (xPage d) 0xC00 else bump (bump x (xPage d) 0xC00) (xPage d) 0xC08) :=
    .ite counted (bump_confined (b.page d hd) counted)
  exact setPort_confined b (.ite (xAdd_confined b hk detour) detour)
theorem routeControl_confined {d inp : Nat} {p : Pkt} (hd : d = 9 ∨ d = 10) (h : Confined a D W s x) :
    Confined a D W s (routeControl x d inp p) := by
  unfold routeControl
  dsimp only
  generalize (if decide (40 ≤ inp) = true then injX x d else p.xepoch) = n
  split
  · exact xepDrop_confined b hd h
  · split
    · exact noRoute_confined b hd h
    next chosen =>
      have port := portDie_of_lt (port_of_routeChoice chosen)
      split
      · exact routeOut_confined b hd port h
      · exact routeOut_confined b hd port (bump_confined (b.page d hd) h)
theorem postNotice_confined {n : Notice} (h : Confined a D W s x) : Confined a D W s (postNotice x n) := by
  have awaited : Confined a D W s (if answered n.kind then setHub x { x.hub with awaits := x.hub.awaits ++ [{ n := n }] } else x) :=
    .ite (setHub_confined b h) h
  exact send_confined b.out (.ite awaited (routeControl_confined b (.inl rfl) awaited))
theorem abortCore_confined {code : Nat} (h : Confined a D W s x) : Confined a D W s (abortCore x c code) := by
  unfold abortCore postAbort
  dsimp only
  split
  · split
    · exact h
    · exact .folds h fun _ _ hy => postNotice_confined b hy
  · exact h

variable (o : Owns a D W c)
include o
theorem digestOut_confined {m : Nat} {v : DWord} (h : Confined a D W s x) : Confined a D W s (digestOut x c m v) :=
  have kept := setSeq_confined o h
  .ite (send_confined b.out h) (.ite (send_confined b.out kept) kept)
theorem mileComplete_confined (h : Confined a D W s x) : Confined a D W s (mileComplete x c) := by
  have cleared := setSeq_confined o (q := { seqr x c with issued := [] }) h
  unfold mileComplete
  split
  · dsimp only
    split
    · exact h
    · split
      · exact seqFinish_confined o (digestOut_confined b o cleared)
      · exact seqFinish_confined o (coreErr_confined ⟨o, b.out, b.caps⟩ cleared)
  · exact h
theorem mileDone_confined (h : Confined a D W s x) : Confined a D W s (mileDone x c) := by
  have done := mileComplete_confined b o h
  unfold mileDone
  split
  · dsimp only
    split
    · exact done
    · split
      · exact abortCore_confined b done
      · exact done
  · exact h
end

/-! ### Writes of CORE_SEQ_CTL and CORE_MBOX_IN (R187, R189) -/

section
variable (r : Reporting a D W c)
include r
theorem seqRun_confined (h : Confined a D W s x) : Confined a D W s (seqRun x c) :=
  .ite (setSeqSt_confined r.own (setPc_confined r.own (setSeq_confined r.own h))) (.ite (setSeqSt_confined r.own h) h)
theorem seqHalt_confined (h : Confined a D W s x) : Confined a D W s (seqHalt x c) := .ite (setSeqSt_confined r.own h) h
theorem seqStepOne_confined (h : Confined a D W s x) : Confined a D W s (seqStepOne x c) := by
  unfold seqStepOne
  exact .ite h (seqIssue_confined r (fdSet_confined r.own.core (setSeqSt_confined r.own (setSeq_confined r.own h))))
theorem seqCtlWrite_confined {run traphalt step : Bool} (h : Confined a D W s x) : Confined a D W s (seqCtlWrite x c run traphalt step) := by
  have set := fdSet_confined r.own.core (f := fCORE_SEQ_CTL_TRAPHALT) (v := b2n traphalt)
    (fdSet_confined r.own.core (f := fCORE_SEQ_CTL_RUN) (v := b2n run) h)
  have control := Confined.ite (c := run = true) (seqRun_confined r set) (seqHalt_confined r set)
  unfold seqCtlWrite
  exact .ite (seqStepOne_confined r control) control
/-- What the core's own part of such a write does. -/
theorem regReg_core_confined {cls off new eff : Nat} (hoff : off = 0x40 ∨ off = 0x6C) (h : Confined a D W s x) :
    Confined a D W s (regReg x cls (cPage c) off new eff) := by
  rcases hoff with rfl | rfl
  · change Confined a D W s (seqCtlWrite x (cPage c).core _ _ _)
    rw [cPage_core]
    exact seqCtlWrite_confined r h
  · change Confined a D W s (mboxIn x (cPage c).core _)
    rw [cPage_core]
    exact mboxIn_confined r.own h
end

end


/-! ### Which cores and pages a command of a core may act on (R447) -/

/-- The pages of some block types and those of the cores that a command of core `c` may act on. -/
def coreReach (s : State) (c : Nat) (bs : List Blk) : PageId → Prop := fun q => q.blk ∈ bs ∨ (q.isCore = true ∧ Mine s c q.core)

theorem Only.mono {W W' : PageId → Prop} {p : PageId} (h : Only W p) (le : ∀ q, W q → W' q) : Only W' p :=
  fun q o off hq hW ho hoff => h q o off hq (fun k => hW (le q k)) ho hoff
theorem only_coreReach {s : State} {c : Nat} {bs : List Blk} {p : PageId} (h : Only (ofBlks bs) p) : Only (coreReach s c bs) p := h.mono fun _ => .inl

theorem homePage_of_coreBlk {q : PageId} (h : q.blk ∈ coreBlks) (off : Nat) : homePage q off = q := by
  simp only [coreBlks, List.mem_cons, List.not_mem_nil, or_false] at h
  unfold homePage
  rcases h with h | h | h | h | h <;> rw [h] <;> rfl
theorem corePage_core (b : Blk) (c : Nat) : (corePage b c).core = c := Nat.div_add_mod c 144

/-- What is written at a page of a core stays in that page. -/
theorem only_corePage {W : PageId → Prop} {b : Blk} {d : Nat} (hb : b ∈ coreBlks) (hd : d < 1152) (own : W (corePage b d)) :
    Only W (corePage b d) := by
  have page : pageOf (corePage b d).no = some (corePage b d) := pageOf_core hd b (by simpa [coreBlks] using hb)
  have same : ∀ {q : PageId}, pageOf q.no = some q → q.no = (corePage b d).no → q = corePage b d := fun hq no => by
    rw [no, page] at hq
    exact (Option.some.inj hq).symm
  intro q o off hq hW ho hoff
  refine ⟨fun key => ?_, fun no => hW (same hq no ▸ own)⟩
  rw [homePage_corePage hb] at key
  have home : homePage q o = corePage b d := same (homePage_page hq o) (by unfold regKey at key; omega)
  have blk : q.blk ∈ coreBlks := by
    rw [← homePage_blk q o, home]
    exact hb
  rw [homePage_of_coreBlk blk] at home
  exact hW (home ▸ own)

section
variable {a : CoreParts} {s : State} {c d : Nat} {bs : List Blk}

theorem mine_lt (hc : c < 1152) (h : Mine s c d) : d < 1152 := by
  rcases h with rfl | ⟨leads, rfl⟩
  · exact hc
  · simp only [isLeader, Bool.and_eq_true, beq_iff_eq] at leads
    omega
theorem owns_coreReach (cores : a.cores = true) (hc : c < 1152) (h : Mine s c d) : Owns a (Mine s c) (coreReach s c bs) d where
  cores := cores
  mine := h
  page b hb := only_corePage hb (mine_lt hc h) (.inr ⟨List.contains_iff_mem.2 hb, by rwa [corePage_core]⟩)
theorem owns_anyPage (cores : a.cores = true) (h : Mine s c d) : Owns a (Mine s c) anyPage d := ⟨cores, h, fun _ _ => only_anyPage _⟩

/-- The frame that the statement asks for. -/
theorem Confined.frame {t : State} (h : Confined a (Mine s c) (coreReach s c bs) s t) :
    t = a.mix s t ∧ OthersKept s t c ∧ PagesKept s t c bs := by
  refine ⟨h.parts, h.others, fun q o hq ho hb free => ?_⟩
  have outside : ¬coreReach s c bs q := fun k => k.elim hb fun ⟨core, mine⟩ => by
    rcases free with not | not
    · rw [core] at not
      cases not
    · exact not mine
  have kept := h.pages q o hq ho outside
  exact ⟨kept.1, fun _ => kept.2⟩

/-- The frame of a command of one core that answers what `f` makes of the state. -/
theorem frame_onCore {i : Instr} {t : State} {f : State → State} (e : exec i s = onCore c (f s)) (h : exec i s = .next t)
    (confined : c < 1152 → Confined a (Mine s c) (coreReach s c bs) s (f s)) : t = a.mix s t ∧ OthersKept s t c ∧ PagesKept s t c bs := by
  obtain ⟨hc, rfl⟩ := onUnit_next (e.symm.trans h)
  exact (confined hc).frame

end

/-! ### A write of a core's register, and its mirror (R447) -/

section
variable {a : CoreParts} {W : PageId → Prop} {s : State} {c : Nat}

/-- A refusal leaves the registers that say which cores are pairs. -/
theorem rd_accessDenied_ne {req : Req} {no off : Nat} {write : Bool} (p : PageId) {o : Nat} (raw : 4 ≠ o / 4 % 1024) (count : o / 4 % 1024 < 768) :
    rd (accessDenied s req no off write) p o = rd s p o := by
  have bad : ∀ (u : State) (code source detail addr : Nat), rd (hostBad u code source detail addr) p o = rd u p o :=
    fun u code source detail addr => (rd_raiseInt_ne _ _ _ _ raw).trans (rd_errAt_ne _ _ _ _ _ _ _ _ raw)
  have counted : ∀ (u : State) (q : PageId) (k : Nat), 768 ≤ k / 4 → k / 4 + 1 < 1024 → rd (bump u q k) p o = rd u p o := fun u q k lo hi =>
    rd_bump_offset_ne _ _ _ (by omega)
  cases req with
  | host => exact (bad ..).trans (counted _ _ _ (by decide) (by decide))
  | vf n => exact ((bad ..).trans (counted _ _ _ (by decide) (by decide))).trans (counted _ _ _ (by decide) (by decide))
  | mgmt => exact (rd_raiseInt_ne _ _ _ _ raw).trans (rd_errAt_ne _ _ _ _ _ _ _ _ raw)
  | fabric p => exact (rd_errAt_ne _ _ _ _ _ _ _ _ raw).trans (counted _ _ _ (by decide) (by decide))
  | core _ | debug | hub | die _ | twin => exact rd_errAt_ne _ _ _ _ _ _ _ _ raw
theorem isLeader_of_rd {t : State} (h : ∀ p, rd t p 0x78 = rd s p 0x78 ∧ rd t p 0x7C = rd s p 0x7C) : isLeader t c = isLeader s c := by
  unfold isLeader corePaired clusPaired
  simp only [h]
theorem isLeader_accessDenied (req : Req) (no off : Nat) (write : Bool) : isLeader (accessDenied s req no off write) c = isLeader s c :=
  isLeader_of_rd fun p => ⟨rd_accessDenied_ne p (by decide) (by decide), rd_accessDenied_ne p (by decide) (by decide)⟩

/-- The page that mirrors a leader's is its follower's. -/
theorem followerPage_core {t : State} {q : PageId} (h : followerPage t (cPage c) = some q) : isLeader t c = true ∧ q = cPage (c + 1) := by
  unfold followerPage at h
  split at h
  next leads =>
    rw [cPage_core] at leads
    have lead := (Bool.and_eq_true _ _ ▸ leads).2
    refine ⟨lead, (Option.some.inj h).symm.trans ?_⟩
    simp only [isLeader, Bool.and_eq_true, beq_iff_eq] at lead
    obtain ⟨die, inst⟩ : (c + 1) / 144 = c / 144 ∧ (c + 1) % 144 = c % 144 + 1 := by omega
    simp only [cPage, corePage, die, inst]
  · cases h

theorem writeOutcome_confined {D : Nat → Prop} {x : State} {p : PageId} {f : State → State} (h : Confined a D W s (f x)) :
    Confined a D W s (writeOutcome x p f).1 := h
/-- What a write that is let through does to a core, and to the follower that takes the same. -/
theorem withMirror_confined {req : Req} {off : Nat} {b : Bool} {f : State → PageId → State}
    (denied : Confined a (Mine s c) W s (accessDenied s req (cPage c).no off true))
    (work : ∀ y d, Mine s c d → Confined a (Mine s c) W s y → Confined a (Mine s c) W s (f y (cPage d))) :
    Confined a (Mine s c) W s (withMirror (if b then accessDenied s req (cPage c).no off true else s) (cPage c) f) := by
  have refused : Confined a (Mine s c) W s (if b then accessDenied s req (cPage c).no off true else s) := .ite denied (.refl ..)
  have leads : isLeader (if b then accessDenied s req (cPage c).no off true else s) c = isLeader s c := by
    split
    · exact isLeader_accessDenied ..
    · rfl
  unfold withMirror
  split
  next q mirror =>
    obtain ⟨leader, rfl⟩ := followerPage_core mirror
    exact work _ _ (.inr ⟨leads.symm.trans leader, rfl⟩) (work _ _ (.inl rfl) refused)
  · exact work _ _ (.inl rfl) refused

section
variable (hc : c < 1152) (out : a.out = true) (caps : a.caps = true) {req : Req} (hreq : Only W (reqPage req)) (hauth : Only W (hubPage .auth))
  (hp : Only W (cPage c))
include hc out caps hreq hauth hp

/-- A write of a single register of a core's page is what its refusals, and the register's own work on the core and its follower, do. -/
theorem registerWrite_core_confined {off v : Nat} (aligned : off % 4 = 0) (single : ∀ r, specOf (cPage c) off = some r → r.half = .one)
    (work : ∀ y d new eff, Mine s c d → Confined a (Mine s c) W s y → Confined a (Mine s c) W s (regReg y req.cls (cPage d) off new eff)) :
    Confined a (Mine s c) W s (registerWrite s req (cPage c).no off v 15) := by
  have start : Confined a (Mine s c) W s s := .refl ..
  have within : ∀ {y z}, Confined a (Mine s c) W s y → Within { caps := true, out := true } W y z → Confined a (Mine s c) W s z := fun h k =>
    h.within k (fun x y => by simp [CoreParts.mix, Parts.mix, out, caps]) rfl
  have page : pageOf (cPage c).no = some (cPage c) := pageOf_core hc .core (by decide)
  have denied : ∀ {y}, Confined a (Mine s c) W s y → Confined a (Mine s c) W s (accessDenied y req (cPage c).no off true) := fun h =>
    within h (accessDenied_within rfl rfl hreq hauth (.refl ..) ..)
  have misplaced := within start (accessRange_within rfl rfl hreq (.refl ..) (cPage c).no off)
  have bad : Confined a (Mine s c) W s (rangeAt s (cPage c) off) := errAt_confined out caps hp start
  unfold registerWrite
  by_cases shut : req = .debug ∧ debugShut s = true
  · obtain ⟨rfl, shut⟩ := shut
    rw [writeCode, shut]
    exact start
  rw [writeCode_page page aligned fun e => by simpa [e] using shut]
  unfold pageWrite
  split
  · exact denied start
  · split
    · exact misplaced
    next r spec =>
      split
      · exact misplaced
      · split
        · exact within start (closedWrite_within rfl rfl hreq hauth hp (.refl ..) r _)
        · unfold fieldsWrite
          rw [single r spec]
          dsimp only
          split
          · exact start
          · split
            · exact .ite (denied bad) bad
            · dsimp only
              apply writeOutcome_confined
              refine withMirror_confined (denied start) fun y d mine hy => ?_
              exact .ite (work y d _ _ mine hy) (work y d _ _ mine hy)

end

end

/-! ### The frame of each command -/

/-- What an instruction of a sequencer changes beyond the registers. -/
def seqParts : CoreParts := { free := true, caps := true, cores := true, heal := true, reports := true, out := true }
/-- What a milestone changes beyond the registers. -/
def mileParts : CoreParts := { caps := true, cores := true, ports := true, hub := true, out := true }
/-- What a write of a core's register changes beyond the registers. -/
def ctlParts : CoreParts := { seqParts with stg := true, host := true }
/-- What a read of a core's register changes beyond the registers. -/
def viewParts : CoreParts := { caps := true, latch := true, cores := true, heal := true, out := true }

/-- The blocks of the pages that a write or read of a core's register from outside may change. -/
def accessBlks : List Blk := [.core, .die, .host, .mgmt, .auth, .port, .cause, .xtab]

section
variable {s : State} {c : Nat}

theorem seqIssue_frame {i : Instr} {t : State} {e : Ecc} {want : Nat → Bool} (command : exec i s = onCore c (seqIssue s c e want))
    (h : exec i s = .next t) :
    t = seqParts.mix s t ∧ OthersKept s t c ∧ PagesKept s t c [.die, .sign] :=
  frame_onCore (f := fun s => seqIssue s c e want) command h fun hc =>
    seqIssue_confined ⟨⟨owns_coreReach rfl hc (.inl rfl), rfl, rfl⟩, hc, rfl, rfl, rfl⟩ (.refl ..)
/-- A wait that ends is the core's own. -/
theorem wait_frame {i : Instr} {t : State} {f : State → State} (command : exec i s = onCore c (f s)) (h : exec i s = .next t)
    (ends : Owns { cores := true } (Mine s c) (coreReach s c []) c → Confined { cores := true } (Mine s c) (coreReach s c []) s (f s)) :
    t = ({ cores := true } : CoreParts).mix s t ∧ OthersKept s t c ∧ PagesKept s t c [] :=
  frame_onCore command h fun hc => ends (owns_coreReach rfl hc (.inl rfl))
theorem mileDone_frame {i : Instr} {t : State} (command : exec i s = onCore c (mileDone s c)) (h : exec i s = .next t) :
    t = mileParts.mix s t ∧ OthersKept s t c ∧ PagesKept s t c [.die, .xtab] :=
  frame_onCore (f := fun s => mileDone s c) command h fun hc =>
    have listed : Blk.xtab ∈ [Blk.die, Blk.xtab] := by decide
    mileDone_confined ⟨rfl, rfl, rfl, rfl, fun _ hd => only_coreReach (only_ofBlks (pageOf_xtab hd) listed)⟩
      (owns_coreReach rfl hc (.inl rfl)) (.refl ..)
/-- The timer of a NAP that runs out changes no register. -/
theorem napTimer_frame {i : Instr} {t : State} (command : exec i s = onCore c (napTimer s c)) (h : exec i s = .next t) :
    t = { s with cores := t.cores } ∧ OthersKept s t c := by
  obtain ⟨-, rfl⟩ := onUnit_next (command.symm.trans h)
  have seq_only : ∀ (u : State) (q : Seq), u = { s with cores := u.cores } ∧ OthersKept s u c →
      setSeq u c q = { s with cores := (setSeq u c q).cores } ∧ OthersKept s (setSeq u c q) c := fun u q ⟨parts, others⟩ =>
    ⟨congrArg (fun v : State => { v with cores := (setSeq u c q).cores }) parts, fun d hd =>
      (core_setCore_ne _ _ fun e => hd (.inl e)).trans (others d hd)⟩
  have same : s = { s with cores := s.cores } ∧ OthersKept s s c := ⟨rfl, fun _ _ => rfl⟩
  unfold napTimer
  split
  · split
    · exact same
    · exact seq_only _ _ (seq_only _ _ same)
  · exact same

theorem only_reqPage_coreReach {req : Req} (valid : pageOf (reqPage req).no = some (reqPage req)) : Only (coreReach s c accessBlks) (reqPage req) :=
  only_coreReach (only_reqPage (by decide) valid)
theorem only_auth_coreReach : Only (coreReach s c accessBlks) (hubPage .auth) := only_coreReach (only_hub (by decide) (by decide))

/-- A command that changes parts, cores and pages as it should where every page may change, and pages as it should where its requester has one. -/
theorem access_frame {a : CoreParts} {t : State} {valid : Prop} (anywhere : Confined a (Mine s c) anyPage s t)
    (confined : valid → Confined a (Mine s c) (coreReach s c accessBlks) s t) :
    t = a.mix s t ∧ OthersKept s t c ∧ (valid → PagesKept s t c accessBlks) :=
  ⟨anywhere.parts, anywhere.others, fun v => (confined v).frame.2.2⟩

theorem write_frame {i : Instr} {t : State} {req : Req} {off v : Nat} (hoff : off = 0x40 ∨ off = 0x6C)
    (command : exec i s = onCore c (registerWrite s req (cPage c).no off v 15)) (h : exec i s = .next t) :
    t = ctlParts.mix s t ∧ OthersKept s t c ∧ (pageOf (reqPage req).no = some (reqPage req) → PagesKept s t c accessBlks) := by
  obtain ⟨hc, rfl⟩ := onUnit_next (command.symm.trans h)
  have aligned : off % 4 = 0 := by omega
  have single : ∀ r, specOf (cPage c) off = some r → r.half = .one := by
    rcases hoff with rfl | rfl <;> rintro r ⟨⟩ <;> rfl
  have reports : ∀ {W d}, Mine s c d → Owns ctlParts (Mine s c) W d → Reporting ctlParts (Mine s c) W d := fun mine o =>
    ⟨⟨o, rfl, rfl⟩, mine_lt hc mine, rfl, rfl, rfl⟩
  refine access_frame ?_ fun valid => ?_
  · exact registerWrite_core_confined hc rfl rfl (only_anyPage _) (only_anyPage _) (only_anyPage _) aligned single fun y d new eff mine hy =>
      regReg_core_confined (reports mine (owns_anyPage rfl mine)) hoff hy
  · exact registerWrite_core_confined hc rfl rfl (only_reqPage_coreReach valid) only_auth_coreReach
      (owns_coreReach (a := ctlParts) rfl hc (.inl rfl)).core aligned single fun y d new eff mine hy =>
        regReg_core_confined (reports mine (owns_coreReach rfl hc mine)) hoff hy

/-- A read of CORE_MBOX_OUT clears it, or is refused. -/
theorem read_mboxOut_within {W : PageId → Prop} (hc : c < 1152) {req : Req} (hreq : Only W (reqPage req)) (hauth : Only W (hubPage .auth))
    (hp : Only W (cPage c)) : Within { caps := true, out := true } W s (registerRead s req (cPage c).no 0x70) := by
  have page : pageOf (cPage c).no = some (cPage c) := pageOf_core hc .core (by decide)
  have start : Within { caps := true, out := true } W s s := .refl ..
  refine send_within rfl ?_ _
  by_cases shut : req = .debug ∧ debugShut s = true
  · obtain ⟨rfl, shut⟩ := shut
    rw [readCode, shut]
    exact start
  rw [readCode_page page (by decide) fun e => by simpa [e] using shut]
  unfold pageRead
  split
  · exact accessDenied_within rfl rfl hreq hauth start ..
  · split
    · exact accessRange_within rfl rfl hreq start ..
    next r spec =>
      obtain rfl : sCORE_MBOX_OUT = r := Option.some.inj spec
      split
      · exact start
      · exact wr_within start hp (by decide) _
theorem read_frame {i : Instr} {t : State} {req : Req} (command : exec i s = onCore c (registerRead s req (cPage c).no 0x70))
    (h : exec i s = .next t) :
    t = viewParts.mix s t ∧ OthersKept s t c ∧ (pageOf (reqPage req).no = some (reqPage req) → PagesKept s t c accessBlks) := by
  obtain ⟨hc, rfl⟩ := onUnit_next (command.symm.trans h)
  have within : ∀ {W}, Within { caps := true, out := true } W s (registerRead s req (cPage c).no 0x70) →
      Confined viewParts (Mine s c) W s (registerRead s req (cPage c).no 0x70) := fun k =>
    (Confined.refl ..).within k (fun x y => by simp [CoreParts.mix, Parts.mix, viewParts]) rfl
  refine access_frame (within (read_mboxOut_within hc (only_anyPage _) (only_anyPage _) (only_anyPage _))) fun valid => ?_
  exact within (read_mboxOut_within hc (only_reqPage_coreReach valid) only_auth_coreReach (owns_coreReach (a := viewParts) rfl hc (.inl rfl)).core)

end

/-- Settles O49: the frame of each command by what its operation is made of. -/
theorem sequencerFrame : Obligations.SequencerFrame := by
  unfold Obligations.SequencerFrame
  intro i s t h
  cases i with
  | seqInstruction | seqScratchpadAccess | qpop | qsel | qsend | chopen | chclose | mile | nap | cfgswQuiesce | cfgswPurge | windowQpop
  | windowSqoWrite | windowScoWrite | windowSqiRead | windowSciRead | windowMboxInRead | windowMboxOutWrite => exact seqIssue_frame rfl h
  | dmago src => exact seqIssue_frame rfl h
  | qpopReturn core => exact wait_frame (f := fun s => qpopReturn s core) rfl h fun o => qpopReturn_confined o (.refl ..)
  | qpopTimeout core => exact wait_frame (f := fun s => qpopTimeout s core) rfl h fun o => qpopTimeout_confined o (.refl ..)
  | qselSelect core => exact wait_frame (f := fun s => qselSelect s core) rfl h fun o => qselSelect_confined o (.refl ..)
  | qselTimeout core => exact wait_frame (f := fun s => qselTimeout s core) rfl h fun o => qselTimeout_confined o (.refl ..)
  | napEntry core => exact wait_frame (f := fun s => napEntry s core) rfl h fun o => napEntry_confined o (.refl ..)
  | napWake core => exact wait_frame (f := fun s => napWake s core) rfl h fun o => napWake_confined o (.refl ..)
  | mileComplete => exact mileDone_frame rfl h
  | napTimerExpiry => exact napTimer_frame rfl h
  | seqRun | seqHalt | seqStep => exact write_frame (.inl rfl) rfl h
  | coreMboxInWrite => exact write_frame (.inr rfl) rfl h
  | coreMboxOutRead => exact read_frame rfl h
  | _ => exact trivial

end Sys2Proof.Machine
end

section
/-! PROOFS. Two statements about the scratchpad that the model refutes: what a read answers where the code finds more flipped bits than it corrects
(R207), and the frame of the commands after which accesses that waited go on (R209, R215). -/
namespace Sys2Proof.Machine
open Sys2Proof

theorem exec_crossbarGrant (s : State) (c : Nat) (l : List XReq) : exec (.crossbarGrant c l) s = onCore c (crossbar s c l) := rfl
theorem exec_recodeComplete (s : State) (c : Nat) (bad : List Nat) : exec (.recodeComplete c bad) s = onCore c (recodeDone s c bad) := rfl

/-- A bank that is ON serves an access that its region does not make wait (R211, R212). -/
theorem bankAsk_of_served {s : State} {c who w : Nat} (untested : (core s c).test = false) (stands : coreClosed s c = false)
    (on : bankState s c (bankOf w) = 0) (serves : regionWaits s c who w = false) : bankAsk s c who w = (s, none) := by
  unfold bankAsk
  simp only [untested, stands, on, serves, Bool.false_and, Bool.false_eq_true, if_false]

/-! ### A read of a word kept for its reload (R207) -/

/-- A read of word 8 from outside. -/
def outsideRead (found : Ecc) : XReq := { who := whoExt, waited := 0, word := 8, bytes := 0, data := 0, poison := false, ecc := found }
/-- Every bank of core 0 is ON; its region 0 is of class W and has a home copy; word 8 holds 1. -/
def homedState : State :=
  let s := Tests.wBanks Tests.wUp
  let s := fdSet (fdSet s (spadPage 0) (fSPAD_REGION_CLASS.at 0) 1) (spadPage 0) (fSPAD_REGION_HOMEV.at 0) 1
  setCore s 0 { core s 0 with sp := { words := [(8, 1)] } }
/-- The same after a read that found three bits of the word flipped: the region is held for firmware, and the word is not rewritten. -/
def heldState : State := crossbar homedState 0 [outsideRead (.flips 3)]

theorem spadWord_heldState : spadWord (core heldState 0) 8 = (1, false) := by decide +kernel
/-- A region that is held makes no access from outside wait. -/
theorem bankAsk_heldState : bankAsk heldState 0 whoExt 8 = (heldState, none) :=
  bankAsk_of_served (by decide +kernel) (by decide +kernel) (by decide +kernel) (by decide +kernel)
/-- A second read finds the same flips, though no bit has flipped since, and delivers the word poisoned. -/
theorem answer_heldState : (crossbar heldState 0 [outsideRead .clean]).out.getLast? = some (.spadWord 0 whoExt 0 true cOK) := by decide +kernel

/-- Refutes O9: a read that finds no new flips is said to answer the word the scratchpad holds, but a word of class W that an earlier read found
uncorrectable keeps its flips until the reload, and a read of it from outside answers 0, poisoned (R207). -/
theorem not_scratchpadCommandsComplete : ¬ Obligations.ScratchpadCommandsComplete := by
  unfold Obligations.ScratchpadCommandsComplete
  rintro ⟨reads, -⟩
  obtain ⟨t, answers, sent, -⟩ := reads heldState 0 (outsideRead .clean) (by decide) rfl rfl (by decide +kernel) bankAsk_heldState
  have ran : t = crossbar heldState 0 [outsideRead .clean] := next_of_onUnit (exec_crossbarGrant ..) answers
  have word : spadWord (core heldState 0) ((outsideRead .clean).word % 1048576) = (1, false) := spadWord_heldState
  have last := answer_heldState
  rw [← ran, sent, word, List.getLast?_concat] at last
  exact absurd last (by decide)

/-! ### A write from outside that waited for a recode (R209, R215) -/

/-- Core 0's region 0 is being recoded, and a write of its word 0 through BAR4 waits for that; bank 0 has since begun to close. -/
def waitingWriteState : State :=
  let s := setBank (Tests.wBanks Tests.wUp) 0 0 3
  setCore s 0 { core s 0 with sp := { recode := [0], ext := [{ via := 0, addr := 0, n := 8, write := true, data := natLe 8 1 }] } }

/-- At the end of the recode the bank refuses the write, which the HOST page records. -/
theorem cap_host_recodeDone : (cap (recodeDone waitingWriteState 0 []) hostPg).code = cBANK_OFF := by decide +kernel

/-- Refutes O50: the arm of RECODE_COMPLETE exempts the pages of its core and of its die, but a write through BAR4 that waited for the recode and
is then refused is recorded in the HOST page (R215). -/
theorem not_scratchpadFrame : ¬ Obligations.ScratchpadFrame := by
  unfold Obligations.ScratchpadFrame
  intro frame
  obtain ⟨-, -, pages⟩ := frame _ _ _ ((exec_recodeComplete waitingWriteState 0 []).trans (onCore_lt _ (by decide)))
  obtain ⟨-, kept⟩ := pages hostPg 0 (pageOf_hub .host (.inl rfl)) (by decide) (by decide) (.inl rfl)
  have code := cap_host_recodeDone
  rw [kept (by decide +kernel)] at code
  exact absurd code (by decide +kernel)

end Sys2Proof.Machine
end

section
/-! PROOFS. A statement about the queue engine's commands that the model refutes: a message leaves the send queue in its turn (R236), but not while a
bank that holds its words wakes (R212). -/
namespace Sys2Proof.Machine
open Sys2Proof

/-- A message of one word at address 0, whose turn it is to leave. -/
def firstMsg : Msg := { id := 1, chan := 4, len := 8, addr := 0, src := .seq }
/-- It is the only message of core 0, whose bank 0, where its word lies, is DROWSY. -/
def drowsyState : State :=
  setBank (fdSet (setQe (Tests.wBanks Tests.wUp) 0 { chans := [(4, { state := 2 })], sendq := [firstMsg] }) (qPage 0) fQENG_CFG_WINDOW 4) 0 0 1

theorem exec_messageDeparture (s : State) (c : Nat) : exec (.messageDeparture c) s = onCore c (depart (seqBooks s c) c) := rfl
theorem nextMsg_drowsyState : nextMsg drowsyState 0 = some firstMsg := by decide +kernel
/-- The bank is woken, and the message stays: its channel's sequence number is not taken. -/
theorem chan_depart_drowsyState : (chan (depart (seqBooks drowsyState 0) 0) 0 4).next = 0 := by decide +kernel

/-- Refutes O10: the message whose turn it is is said to depart whenever SENDSTOP is 0, but one whose bank is DROWSY wakes the bank and stays until it
is ON, so that it takes no sequence number (R212, R236). -/
theorem not_channelCommandsComplete : ¬ Obligations.ChannelCommandsComplete := by
  unfold Obligations.ChannelCommandsComplete
  rintro ⟨-, -, -, -, -, -, -, -, -, -, -, -, -, -, -, -, departs, -⟩
  obtain ⟨t, answers, number, -⟩ := departs drowsyState 0 firstMsg (by decide) (by decide +kernel) (by decide +kernel) nextMsg_drowsyState (by decide)
  have ran : t = depart (seqBooks drowsyState 0) 0 := next_of_onUnit (exec_messageDeparture ..) answers
  rw [ran] at number
  change (chan (depart (seqBooks drowsyState 0) 0) 0 4).next = ((chan drowsyState 0 4).next + 1) % 65536 at number
  rw [chan_depart_drowsyState] at number
  exact absurd number (by decide +kernel)

end Sys2Proof.Machine
end

section
/-! PROOFS. The frame of what a queue engine does (R227–R288): packets at a core, channels, and the outcomes of messages. One lemma per operation,
callees before callers; a lemma takes what holds up to the operation and gives what holds after it. -/
namespace Sys2Proof.Machine
open Sys2Proof

theorem Owns.rout {a : CoreParts} {D : Nat → Prop} {W : PageId → Prop} {c : Nat} (o : Owns a D W c) : Only W (rPage c) := o.page .rout (by decide)

section
variable {a : CoreParts} {D : Nat → Prop} {W : PageId → Prop} {s x : State} {c : Nat}

/-! ### Packets at a core, handles and entries -/

section
variable (o : Owns a D W c)
include o
theorem setHandle_confined {i : Nat} {e : Handle} (h : Confined a D W s x) : Confined a D W s (setHandle x c i e) := setQe_confined o h
theorem setRout_confined {r : Rout} (h : Confined a D W s x) : Confined a D W s (setRout x c r) := setCore_confined o h
theorem takePkt_confined {p : Pkt} (h : Confined a D W s x) : Confined a D W s (takePkt x c p) := setRout_confined o h
theorem holdPkt_confined {p : Pkt} (h : Confined a D W s x) : Confined a D W s (holdPkt x c p) := .ite h (setRout_confined o h)
theorem cacheForget_confined {p : Pkt} (h : Confined a D W s x) : Confined a D W s (cacheForget x c p) := .ite h (setRout_confined o h)
theorem setBuf_confined {port vc : Nat} {l : List Pkt} (h : Confined a D W s x) : Confined a D W s (setBuf x c port vc l) := setRout_confined o h
theorem openAgain_confined {i : Nat} (h : Confined a D W s x) : Confined a D W s (openAgain x c i) := .ite (inject_confined o (setChan_confined o h)) h
theorem holdoffEnd_confined {i : Nat} (h : Confined a D W s x) : Confined a D W s (holdoffEnd x c i) := .ite (setHandle_confined o h) h
theorem closingFree_confined {i : Nat} {ok : Chan → Bool} (h : Confined a D W s x) : Confined a D W s (closingFree x c i ok) :=
  .ite (setChan_confined o h) h
theorem closeAcked_confined {en hnd : Nat} (h : Confined a D W s x) : Confined a D W s (closeAcked x c en hnd) :=
  .folds h fun _ _ hy => closingFree_confined o hy
theorem openRequest_confined {p : Pkt} (h : Confined a D W s x) : Confined a D W s (openRequest x c p) := by
  unfold openRequest
  refine .ite (inject_confined o h) ?_
  split
  · exact inject_confined o h
  · exact inject_confined o (setHandle_confined o h)
theorem ackPkt_confined {p : Pkt} (h : Confined a D W s x) : Confined a D W s (ackPkt x c p) := inject_confined o h
theorem nackPkt_confined {p : Pkt} {code : Nat} (h : Confined a D W s x) : Confined a D W s (nackPkt x c p code) :=
  inject_confined o (bump_confined o.queue h)
theorem digestOpen_confined (h : Confined a D W s x) : Confined a D W s (digestOpen x c) := .ite h (setQe_confined o h)
theorem digestAdd_confined {i len : Nat} {l : List Byte} (h : Confined a D W s x) : Confined a D W s (digestAdd x c i len l) :=
  setChan_confined o (digestOpen_confined o h)
theorem jFwdEnd_confined {q b : Nat} (h : Confined a D W s x) : Confined a D W s (jFwdEnd x c q b) := jRelease_confined o (setSlot_confined o h)
theorem chSnapshot_confined {i : Nat} (h : Confined a D W s x) : Confined a D W s (chSnapshot x c i) :=
  wr_confined o.queue (wr_confined o.queue (wr_confined o.queue (wr_confined o.queue h)))
theorem hdSnapshot_confined {i : Nat} (h : Confined a D W s x) : Confined a D W s (hdSnapshot x c i) :=
  wr_confined o.queue (wr_confined o.queue h)
theorem qSnapshot_confined {q : Nat} (h : Confined a D W s x) : Confined a D W s (qSnapshot x c q) :=
  wr_confined o.queue (wr_confined o.queue (wr_confined o.queue (wr_confined o.queue h)))
theorem jSnapshot_confined {q : Nat} (h : Confined a D W s x) : Confined a D W s (jSnapshot x c q) :=
  wr_confined o.queue (wr_confined o.queue h)
theorem jDropAccum_confined {q : Nat} (h : Confined a D W s x) : Confined a D W s (jDropAccum x c q) :=
  .folds h fun _ _ hy => .ite (bumpBy_confined o.queue (setSlot_confined o hy)) hy
theorem jRespond_confined {q code : Nat} {p : Pkt} {ks : List Nat} (h : Confined a D W s x) : Confined a D W s (jRespond x c q p code ks) := by
  refine .folds h fun y k hy => ?_
  split
  · exact hy
  · exact inject_confined o (.ite hy (bump_confined o.queue hy))
theorem jRefuse_confined {p : Pkt} {code : Nat} (h : Confined a D W s x) : Confined a D W s (jRefuse x c p code) :=
  .ite (nackPkt_confined o h) (.ite (jRespond_confined o h) (.folds h fun _ _ hy => nackPkt_confined o hy))
end

/-! ### The outcomes of messages (R249) -/

section
variable (l : Loud a D W c)
include l
theorem askBanks_confined {who : Nat} {ws : List Nat} (h : Confined a D W s x) : Confined a D W s (askBanks x c who ws).1 := by
  induction ws generalizing x with
  | nil => exact h
  | cons w ws ih =>
    have asked := bankAsk_confined l (who := who) (w := w) h
    unfold askBanks
    split
    next e => exact .fst e asked
    next e => exact ih (.fst e asked)
    next e => exact ih (.fst e asked)
theorem banksWait_confined {who : Nat} {ws : List Nat} (h : Confined a D W s x) : Confined a D W s (banksWait x c who ws).1 := by
  suffices ∀ (ws : List Nat) (y : State × Bool), Confined a D W s y.1 → Confined a D W s (ws.foldl (fun (r : State × Bool) w =>
      match bankAsk r.1 c who w with | (s, some .wait) => (s, true) | _ => r) y).1 from this ws (x, false) h
  intro ws
  induction ws with
  | nil => exact fun _ hy => hy
  | cons w ws ih =>
    intro y hy
    refine ih _ ?_
    dsimp only
    split
    next e => exact .fst e (bankAsk_confined l hy)
    · exact hy
theorem refusedBank_confined {span : Option (Nat × Nat)} (h : Confined a D W s x) : Confined a D W s (refusedBank x c span) := by
  unfold refusedBank
  split
  · exact h
  · split
    · exact bankAsk_confined l h
    · exact h
theorem staleReply_confined {p : Pkt} (h : Confined a D W s x) : Confined a D W s (staleReply x c p) :=
  qErr_confined l (bump_confined l.own.queue h)
theorem qeRelease_confined {id : Nat} (h : Confined a D W s x) : Confined a D W s (qeRelease x c id) := by
  refine .folds (rangeRelease_confined l.own h) fun y m hy => ?_
  split
  next e => exact .fst e (rangeAsk_confined l hy)
  next e => exact setQe_confined l.own (.fst e (rangeAsk_confined l hy))
theorem outcomeToSource_confined {m : Msg} {code : Nat} (h : Confined a D W s x) : Confined a D W s (outcomeToSource x c m code) := by
  unfold outcomeToSource
  split
  · exact setOutcome_confined l.own h
  · exact setOutcome_confined l.own (setQe_confined l.own h)
  · exact .ite h (jFwdEnd_confined l.own (.ite h (qErr_confined l h)))
theorem endMsg_confined {m : Msg} {code : Nat} (h : Confined a D W s x) : Confined a D W s (endMsg x c m code) := by
  have released := qeRelease_confined l (id := m.id) (setQe_confined l.own (q := { qe x c with
    unacked := (qe x c).unacked.filter (·.id != m.id), sendq := (qe x c).sendq.filter (·.id != m.id) }) h)
  have counted := Confined.ite (c := code = cOK ∨ code = cPOISON) (bump_confined (off := 0xC08) l.own.queue released) released
  exact outcomeToSource_confined l (.ite counted (qErr_confined l counted))
theorem endAll_confined {code : Nat} {ms : List Msg} (h : Confined a D W s x) : Confined a D W s (endAll x c code ms) := by
  induction ms generalizing x with
  | nil => exact h
  | cons m ms ih => exact ih (endMsg_confined l h)
theorem finalOutcome_confined {m : Msg} {code : Nat} (h : Confined a D W s x) : Confined a D W s (finalOutcome x c m code) := by
  have ended := endMsg_confined l (m := m) (code := code) h
  unfold finalOutcome
  refine .ite (closeSettle_confined l (endAll_confined l ?_)) (closeSettle_confined l ended)
  exact .ite (setChan_confined l.own ended) (.ite (setChan_confined l.own ended) ended)
theorem replyOk_confined {p : Pkt} (h : Confined a D W s x) : Confined a D W s (replyOk x c p) := by
  unfold replyOk
  refine .ite (staleReply_confined l h) ?_
  split
  · exact h
  · exact .ite (setQe_confined l.own h) (finalOutcome_confined l h)
theorem nackMsg_confined {p : Pkt} (h : Confined a D W s x) : Confined a D W s (nackMsg x c p) := by
  have counted := bump_confined (off := 0xC18) l.own.queue h
  unfold nackMsg
  refine .ite (staleReply_confined l counted) ?_
  split
  · exact counted
  · exact .ite counted (.ite (setQe_confined l.own counted) (finalOutcome_confined l counted))
theorem qFlush_confined (h : Confined a D W s x) : Confined a D W s (qFlush x c) := setQe_confined l.own (endAll_confined l h)

/-! ### Opening and closing (R232–R235, R274, R288) -/

theorem openFail_confined {i code : Nat} (h : Confined a D W s x) : Confined a D W s (openFail x c i code) := by
  have failed := qErr_confined l (code := code) (source := 0x81) (detail := (chan x c i).slot) (addr := (chan x c i).en) (int := 9)
    (setChan_confined l.own (i := i) (entry := {}) h)
  unfold openFail
  dsimp only
  split
  · exact .ite (seqFinish_confined l.own failed) failed
  · exact failed
theorem openRsp_confined {p : Pkt} (h : Confined a D W s x) : Confined a D W s (openRsp x c p) := by
  unfold openRsp
  refine .ite (staleReply_confined l h) (.ite h (.ite ?_ (.ite (setChan_confined l.own h) (openFail_confined l h))))
  dsimp only
  split
  · exact .ite (seqFinish_confined l.own (setChan_confined l.own h)) (setChan_confined l.own h)
  · exact setChan_confined l.own h
theorem openTimeout_confined {i : Nat} (h : Confined a D W s x) : Confined a D W s (openTimeout x c i) :=
  .ite h (.ite (inject_confined l.own (setChan_confined l.own h)) (openFail_confined l h))
theorem closeNoticeIn_confined {en hnd : Nat} {cvid : Option Nat} (h : Confined a D W s x) : Confined a D W s (closeNoticeIn x c en hnd cvid) :=
  .folds h fun _ _ hy => closeSettle_confined l (endAll_confined l
    (.ite (raiseInt_confined l.out l.own.queue (setChan_confined l.own hy)) (setChan_confined l.own hy)))
theorem closeHandles_confined {q : Nat} (h : Confined a D W s x) : Confined a D W s (closeHandles x c q) :=
  .folds h fun _ _ hy => noticeOut_confined l (setHandle_confined l.own hy)
theorem slotRefuse_confined {q code : Nat} (h : Confined a D W s x) : Confined a D W s (slotRefuse x c q code) := qErr_confined l h
theorem reasmTimeout_confined {hnd seq att : Nat} (h : Confined a D W s x) : Confined a D W s (reasmTimeout x c hnd seq att) :=
  .ite (qErr_confined l (bump_confined l.own.queue (setQe_confined l.own h))) h
theorem jForward_confined {q : Nat} (h : Confined a D W s x) : Confined a D W s (jForward x c q) := by
  unfold jForward
  dsimp only
  split
  · exact h
  · have entered := fun q i len addr id src => enterMsg_confined l (i := i) (len := len) (addr := addr) (id := id) (src := src)
      (setSeq_confined l.own (q := q) h)
    exact .ite h (.ite (setSlot_confined l.own (entered ..)) (.ite (entered ..) (jFwdEnd_confined l.own (qErr_confined l (entered ..)))))
theorem cvBind_confined {lo hi : Nat} (h : Confined a D W s x) : Confined a D W s (cvBind x c lo hi) := by
  have refused : ∀ {code addr}, Confined a D W s (qErr x c code 0x88 (bits lo 0 10) addr 16) := qErr_confined l h
  unfold cvBind
  dsimp only
  split
  · split
    · exact .ite (closeSettle_confined l (setChan_confined l.own h)) (chClose_confined l h)
    · exact .ite refused (setChan_confined l.own h)
  · split
    · exact setHandle_confined l.own h
    · exact .ite refused (.ite refused (setHandle_confined l.own h))
theorem msgRange_confined {m : Msg} (h : Confined a D W s x) : Confined a D W s (msgRange x c m).1 := by
  have granted : ∀ {y}, Confined a D W s y → Confined a D W s
      (match (core y c).sp.ranges.findIdx? (fun r => r.owner == whoQe && r.id == m.id) with | some i => rangeGrant y c i | none => y) := fun hy => by
    split
    · exact rangeGrant_confined l.own hy
    · exact hy
  unfold msgRange
  generalize asks : (if m.ranged = true then (x, true) else _) = r
  have start : Confined a D W s r.1 := by
    rw [← asks]
    split
    · exact h
    · split
      next e => exact .fst e (rangeAsk_confined l h)
      next e => exact setQe_confined l.own (.fst e (rangeAsk_confined l h))
  dsimp only
  split
  · exact start
  · exact granted start
end

end

end Sys2Proof.Machine
end

section
/-! PROOFS. The frame of what a queue engine does (R227–R288), continued: the operations that read or write the scratchpad, and messages sent and
received. -/
namespace Sys2Proof.Machine
open Sys2Proof

/-! ### Accesses to the scratchpad use no free value -/

section
variable (s : State) (c w : Nat)
@[simp] theorem free_raiseInt (p : PageId) (b : Nat) : (raiseInt s p b).free = s.free := by
  simp only [raiseInt, irqEdge, apply_ite State.free, send_free, wr_free, ite_self]
@[simp] theorem free_errAt (p : PageId) (code source detail addr tag : Nat) : (errAt s p code source detail addr tag).free = s.free := by
  simp only [errAt, apply_ite State.free, free_raiseInt, ite_self]
@[simp] theorem free_bankRefuse (who code source : Nat) : (bankRefuse s c who w code source).free = s.free := by
  simp only [bankRefuse, free_raiseInt, free_errAt]
@[simp] theorem free_bankAsk (who : Nat) : (bankAsk s c who w).1.free = s.free := by
  unfold bankAsk
  dsimp only
  split
  · rfl
  · split
    · exact free_bankRefuse ..
    · split <;> simp only [free_bankRefuse, bump_free, setBank, fdSet_free]
@[simp] theorem free_noteFlips (e : Ecc) : (noteFlips s c w e).free = s.free := by
  simp only [noteFlips, apply_ite State.free, setCore_free, ite_self]
@[simp] theorem free_applyWord (v : DWord) (p : Bool) : (applyWord s c w v p).free = s.free := rfl
@[simp] theorem free_spadUncorrectable (scrub : Bool) (who : Nat) : (spadUncorrectable s c w scrub who).free = s.free := by
  simp only [spadUncorrectable, reportCore, apply_ite State.free, report_free, free_raiseInt, free_errAt, free_applyWord, fdSet_free, bump_free, ite_self]
@[simp] theorem free_spadCorrected (off : Nat) : (spadCorrected s c w off).free = s.free := by simp only [spadCorrected, watch, bump_free]
@[simp] theorem free_spadFetch (e : Ecc) (who : Nat) : (spadFetch s c w e who).1.free = s.free := by
  unfold spadFetch
  dsimp only
  split
  · simp only [free_spadCorrected, setCore_free, bump_free, free_noteFlips]
  · split <;> simp only [free_spadUncorrectable, bump_free, free_noteFlips]
  · simp only [bump_free, free_noteFlips]
theorem free_spadRead (who : Nat) (e : Ecc) : (spadRead s c who w e).1.free = s.free := by
  have asked := free_bankAsk s c w who
  unfold spadRead
  split
  next ans =>
    rw [ans] at asked
    exact asked
  next ans =>
    rw [ans] at asked
    exact (free_spadFetch ..).trans asked
theorem free_spadMerge (mask : Nat) (v : DWord) (poison : Bool) (e : Ecc) (who : Nat) : (spadMerge s c w mask v poison e who).1.free = s.free := by
  simp only [spadMerge, apply_ite Prod.fst, apply_ite State.free, free_spadUncorrectable, free_spadCorrected, free_noteFlips, bump_free, ite_self]
end

/-- What is let through to operations of a core that report errors, to its capture pages and to HEAL. -/
structure Accounting (a : CoreParts) (D : Nat → Prop) (W : PageId → Prop) (c : Nat) : Prop where
  loud : Loud a D W c
  lt : c < 1152
  heal : a.heal = true
  reports : a.reports = true

section
variable {a : CoreParts} {D : Nat → Prop} {W : PageId → Prop} {s x : State} {c : Nat}

theorem Accounting.own (r : Accounting a D W c) : Owns a D W c := r.loud.own
theorem Accounting.reporting (r : Accounting a D W c) : Reporting { a with free := true } D W c :=
  ⟨⟨⟨r.own.cores, r.own.mine, r.own.page⟩, r.loud.out, r.loud.caps⟩, r.lt, r.heal, r.reports, rfl⟩
/-- What may use free values, and does not. -/
theorem Confined.unfree {y : State} (h : Confined a D W s x) (k : Confined { a with free := true } D W x y) (same : y.free = x.free) :
    Confined a D W s y := by
  refine h.trans ⟨?_, k.others, k.pages⟩
  calc y = CoreParts.mix { a with free := true } x y := k.parts
    _ = a.mix x y := by simp only [CoreParts.mix, Parts.mix, same, Bool.cond_self]

section
variable (r : Accounting a D W c)
include r

/-! ### The scratchpad, and books out of balance -/

theorem spadFetch_accounted {w : Nat} {e : Ecc} {who : Nat} (h : Confined a D W s x) : Confined a D W s (spadFetch x c w e who).1 :=
  h.unfree (spadFetch_confined r.reporting (.refl ..)) (free_spadFetch ..)
theorem spadRead_accounted {who w : Nat} {e : Ecc} (h : Confined a D W s x) : Confined a D W s (spadRead x c who w e).1 :=
  h.unfree (spadRead_confined r.reporting (.refl ..)) (free_spadRead ..)
theorem spadApply_accounted {w mask : Nat} {v : DWord} {poison : Bool} {e : Ecc} {who : Nat} (h : Confined a D W s x) :
    Confined a D W s (spadApply x c w mask v poison e who) :=
  applyWord_confined r.own (h.unfree (spadMerge_confined r.reporting (.refl ..)) (free_spadMerge ..))
theorem spadWrite_accounted {who w mask : Nat} {v : DWord} {poison : Bool} {e : Ecc} (h : Confined a D W s x) :
    Confined a D W s (spadWrite x c who w mask v poison e).1 := by
  have asked := bankAsk_confined r.loud (who := who) (w := w) h
  unfold spadWrite
  split
  next ans => exact .fst ans asked
  next ans => exact spadApply_accounted r (.fst ans asked)
theorem spadReadAll_accounted {who w n : Nat} (h : Confined a D W s x) : Confined a D W s (spadReadAll x c who w n).1 := by
  induction n generalizing x w with
  | zero => exact h
  | succ n ih =>
    unfold spadReadAll
    split
    next ans => exact ih (.fst ans (spadRead_accounted r h))
    next ans => exact .fst ans (spadRead_accounted r h)
theorem storeAll_accounted {v : Nat} {p : Bool} {l : List Nat} (h : Confined a D W s x) : Confined a D W s (storeAll x c v p l) := by
  induction l generalizing x v with
  | nil => exact h
  | cons w l ih => exact ih (spadApply_accounted r h)
theorem report_accounted {b : Blk} (hb : b ∈ coreBlks) {e : Report} (at_ : e.page = (corePage b c).no) (h : Confined a D W s x) :
    Confined a D W s (report x e) := by
  have page : pageOf (corePage b c).no = some (corePage b c) := pageOf_core r.lt b (by simpa [coreBlks] using hb)
  have queued : ∀ {l}, Confined a D W s { x with heal := { x.heal with backlog := l } } :=
    h.set (by simp [CoreParts.mix, Parts.mix, r.heal]) rfl rfl rfl
  unfold report
  rw [at_]
  split
  · exact h.set (by simp [CoreParts.mix, Parts.mix, r.reports]) rfl rfl rfl
  · dsimp only
    rw [page]
    exact .ite (.ite (caps_confined r.loud.caps (r.own.page b hb) queued) queued) queued
theorem booksLost_accounted {b : Blk} (hb : b ∈ coreBlks) (h : Confined a D W s x) : Confined a D W s (booksLost x b c) :=
  report_accounted r hb rfl (errAt_confined r.loud.out r.loud.caps (r.own.page b hb) h)
theorem seqBooks_accounted (h : Confined a D W s x) : Confined a D W s (seqBooks x c) := .ite h (booksLost_accounted r (by decide) h)
theorem reasmBooks_accounted (h : Confined a D W s x) : Confined a D W s (reasmBooks x c) := .ite h (booksLost_accounted r (by decide) h)
theorem jBooks_accounted {q b : Nat} (h : Confined a D W s x) : Confined a D W s (jBooks x c q b) := .ite (booksLost_accounted r (by decide) h) h

/-! ### Slots (R228, R229, R235, R248) -/

theorem writeStat_accounted {q : Nat} (h : Confined a D W s x) : Confined a D W s (writeStat x c q) :=
  .ite (setQe_confined r.own (spadWrite_accounted r h)) h
theorem commitSlot_accounted {q : Nat} {en : Option Nat} (h : Confined a D W s x) : Confined a D W s (commitSlot x c q en) := by
  have written := writeStat_accounted r (q := q) (bump_confined (off := 0xC28) r.own.queue (setSlot_confined r.own (i := q) (q := { slotq x c q with
    commits := ((slotq x c q).commits + 1) % 2 ^ 32
    senders := match en with | some e => (e :: (slotq x c q).senders).take 16 | none => (slotq x c q).senders }) h))
  exact .ite (wakeCause_confined r.own written) written
theorem writeSlotCfg_accounted {q w : Nat} (hq : q < 64) (h : Confined a D W s x) : Confined a D W s (writeSlotCfg x c q w) := by
  have cleared : ∀ {v n} {b : Bool}, Confined a D W s (if b then setSlot (wr x (qPage c) (0x400 + 16 * q) v) c n {} else wr x (qPage c) (0x400 + 16 * q) v) :=
    have written := wr_confined r.own.queue h (by omega)
    .ite (setSlot_confined r.own written) written
  unfold writeSlotCfg
  refine .ite (slotRefuse_confined r.loud h) (.ite (slotRefuse_confined r.loud h) (.ite (writeStat_accounted r cleared) (.ite ?_ cleared)))
  exact writeStat_accounted r (jDropAccum_confined r.own (closeHandles_confined r.loud cleared))
theorem writeSlotReg_accounted {q off w : Nat} (ho : off < 4096) (h : Confined a D W s x) : Confined a D W s (writeSlotReg x c q off w) :=
  .ite h (.ite (slotRefuse_confined r.loud h) (setSlot_confined r.own (wr_confined r.own.queue h ho)))
/-- What a write of a register of the queue engine's page does. -/
theorem qengReg_accounted {off new eff : Nat} (ho : off < 4096) (h : Confined a D W s x) : Confined a D W s (qengReg x c off new eff) := by
  have stored : Confined a D W s (wr x (qPage c) off new) := wr_confined r.own.queue h ho
  unfold qengReg
  dsimp only
  split
  · exact chSnapshot_confined r.own stored
  · exact hdSnapshot_confined r.own stored
  · have stop := fdSet_confined (f := fQENG_CTL_SENDSTOP) (v := eff) r.own.queue h
    exact .ite (qFlush_confined r.loud stop) stop
  · exact qSnapshot_confined r.own stored
  · exact jSnapshot_confined r.own stored
  · split
    · exact writeSlotReg_accounted r ho h
    · split
      next slot =>
        split
        · exact writeSlotCfg_accounted r (by omega) h
        · exact stored
        · exact writeSlotReg_accounted r ho h
      · exact stored

/-! ### Messages sent (R236–R238, R249) -/

theorem readMsg_accounted {addr n : Nat} (h : Confined a D W s x) : Confined a D W s (readMsg x c addr n).1 := by
  have read := spadReadAll_accounted r (who := whoQe) (w := addr / 8) (n := n) h
  unfold readMsg
  split <;> exact .fst (by assumption) read
theorem sendMsg_accounted {m : Msg} {seq : Nat} {first : Bool} (h : Confined a D W s x) : Confined a D W s (sendMsg x c m seq first) := by
  have taken := rangeTake_confined r.loud (range := m.range) h
  unfold sendMsg
  dsimp only
  split
  next ans =>
    have read := readMsg_accounted r (addr := m.addr) (n := (m.len + 7) / 8) (Confined.fst ans taken)
    split
    next ans => exact setQe_confined r.own (.fst ans read)
    next ans =>
      have sent := fun l => Confined.folds (l := l) (qeRelease_confined r.loud (id := m.id) (Confined.fst ans read))
        fun _ p hy => inject_confined r.own (p := p) hy
      exact .ite (digestAdd_confined r.own (setQe_confined r.own (sent _))) (setQe_confined r.own (sent _))
  next ans => exact setQe_confined r.own (.fst ans taken)
theorem sendAgain_accounted {ms : List Msg} (h : Confined a D W s x) : Confined a D W s (sendAgain x c ms).1 := by
  induction ms generalizing x with
  | nil => exact h
  | cons m ms ih =>
    unfold sendAgain
    dsimp only
    split
    · exact ih h
    · split
      · exact ih (sendMsg_accounted r h)
      · exact sendMsg_accounted r h
theorem depart_accounted (h : Confined a D W s x) : Confined a D W s (depart x c) := by
  unfold depart
  split
  next again => exact .fst again (sendAgain_accounted r h)
  next again =>
    have tried := Confined.fst again (sendAgain_accounted r h)
    refine .ite tried ?_
    split
    · exact tried
    · split
      next ranged => exact .fst ranged (msgRange_confined r.loud tried)
      next ranged =>
        have granted := Confined.fst ranged (msgRange_confined r.loud tried)
        refine .ite (finalOutcome_confined r.loud (digestAdd_confined r.own granted)) ?_
        split
        next asked => exact .fst asked (banksWait_confined r.loud granted)
        next asked =>
          have taken : ∀ {q i e}, Confined a D W s (bump (setChan (setQe _ c q) c i e) (qPage c) 0xC00) :=
            bump_confined r.own.queue (setChan_confined r.own (setQe_confined r.own (Confined.fst asked (banksWait_confined r.loud granted))))
          exact sendMsg_accounted r (.ite (bump_confined r.own.queue taken) taken)
theorem resendFrom_accounted {id : Nat} (h : Confined a D W s x) : Confined a D W s (resendFrom x c id) := by
  unfold resendFrom
  split
  · exact h
  · exact .folds (setQe_confined r.own h) fun _ _ hy => .ite (sendMsg_accounted r hy) hy
theorem backoffEnd_accounted {id : Nat} (h : Confined a D W s x) : Confined a D W s (backoffEnd x c id) := by
  unfold backoffEnd
  split
  · exact .ite (resendFrom_accounted r h) h
  · exact h
theorem windowExpiry_accounted {i seq : Nat} (h : Confined a D W s x) : Confined a D W s (windowExpiry x c i seq) := by
  unfold windowExpiry
  split
  · exact h
  · exact .ite (sendMsg_accounted r (bump_confined r.own.queue (setQe_confined r.own h))) (finalOutcome_confined r.loud h)

/-! ### Messages received (R239–R244) -/

theorem deliver_accounted {q len hnd seq : Nat} {poison : Bool} {ws : List DWord} {en : Option Nat} (h : Confined a D W s x) :
    Confined a D W s (deliver x c q len hnd seq poison ws en).1 := by
  unfold deliver
  dsimp only
  split
  · split
    · exact h
    · exact commitSlot_accounted r (setSlot_confined r.own h)
  · split
    · exact h
    · split
      · exact h
      · split
        · exact bankAsk_confined r.loud h
        · split
          · exact h
          · split
            · exact banksWait_confined r.loud h
            · refine commitSlot_accounted r (setSlot_confined r.own (.folds (spadApply_accounted r (.ite ?_ h)) fun _ _ hy => spadApply_accounted r hy))
              exact bump_confined r.own.queue (spadApply_accounted r h)
theorem commitMsg_accounted {p : Pkt} {ws : List DWord} {poison : Bool} (h : Confined a D W s x) : Confined a D W s (commitMsg x c p ws poison) := by
  unfold commitMsg
  dsimp only
  split
  next done => exact .fst done (deliver_accounted r h)
  next y _ done =>
    have freed : ∀ {q}, Confined a D W s (setQe y c q) := setQe_confined r.own (Confined.fst done (deliver_accounted r h))
    have bound : ∀ {q i e}, Confined a D W s (setHandle (setQe y c q) c i e) := setHandle_confined r.own freed
    exact .ite (ackPkt_confined r.own (.ite (bump_confined r.own.queue bound) bound)) (nackPkt_confined r.own freed)
theorem reassemble_accounted {p : Pkt} (h : Confined a D W s x) : Confined a D W s (reassemble x c p) := by
  unfold reassemble
  dsimp only
  split
  · exact .ite (nackPkt_confined r.own h) (setQe_confined r.own h)
  · exact .ite h (.ite (commitMsg_accounted r (setQe_confined r.own h)) (setQe_confined r.own h))
theorem msgPacket_accounted {p : Pkt} (h : Confined a D W s x) : Confined a D W s (msgPacket x c p) := by
  have o := r.own
  have taken : Confined a D W s (if p.npart = 0 then commitMsg x c p p.data p.poison else reassemble x c p) :=
    .ite (commitMsg_accounted r h) (reassemble_accounted r h)
  unfold msgPacket
  refine .ite (nackPkt_confined o (qErr_confined r.loud (bump_confined o.queue h))) (.ite (nackPkt_confined o (refusedBank_confined r.loud h)) ?_)
  refine .ite (nackPkt_confined o h) (.ite taken (.ite h (.ite ?_ ?_)))
  · exact nackPkt_confined o (bump_confined o.queue h)
  · exact ackPkt_confined o (bump_confined o.queue h)
theorem messageIn_accounted {p : Pkt} (h : Confined a D W s x) : Confined a D W s (messageIn x c p) := by
  have taken := msgPacket_accounted r (p := p) (takePkt_confined r.own (p := p) h)
  unfold messageIn
  split
  · exact taken
  · exact .ite (holdPkt_confined r.own (deliver_accounted r h)) taken

end

end

end Sys2Proof.Machine
end

section
/-! PROOFS. The frame of what a queue engine and its router do (R227–R288), continued: fabric ports, junctions, and packets that leave by the networks. -/
namespace Sys2Proof.Machine
open Sys2Proof

section
variable {a : CoreParts} {D : Nat → Prop} {W : PageId → Prop} {s x : State} {c : Nat}

section
variable (r : Accounting a D W c)
include r

/-! ### Fabric ports (R254, R255) -/

theorem qxTake_accounted {q : Nat} {scalar : Bool} (h : Confined a D W s x) : Confined a D W s (qxTake x c q scalar).1 := by
  have popped := popSlot_confined r.own (q := q) h
  unfold qxTake
  split
  · exact h
  · split
    · dsimp only
      split
      · exact h
      · exact setSlot_confined r.own h
    · split
      next ans =>
        dsimp only
        split
        next asked => exact .fst asked (banksWait_confined r.loud h)
        · exact readMsg_accounted r (.fst ans popped)
      next ans => exact .fst ans popped
theorem qxEmit_accounted {p : Nat} (h : Confined a D W s x) : Confined a D W s (qxEmit x c p) := by
  have put : ∀ {y q}, Confined a D W s y → Confined a D W s (setQe y c q) := setQe_confined r.own
  unfold qxEmit
  dsimp only
  refine .ite h ?_
  generalize begun : (if ((tget ({} : QxPort) (qe x c).qx p).toks.isEmpty && !fb x (flowPage c) fFLOW_STATUS_QSTOP) = true then _ else (_ : State × QxPort)) = y
  have start : Confined a D W s y.1 := by
    rw [← begun]
    split
    · split
      next taken => exact .fst taken (qxTake_accounted r h)
      next taken => exact .fst taken (qxTake_accounted r h)
    · exact h
  split
  · exact put start
  · have emitted := fun n t => emitTok_confined r.own (port := n) (t := t) (takeCredits_confined r.own (port := n) (n := 1) start)
    refine .ite (.ite (.ite ?_ (.ite ?_ ?_)) (put (emitted _ _))) (stallCount_confined r.own (put start))
    · exact ringRelease_confined r.own (put (emitted _ _))
    · exact jRelease_confined r.own (put (emitted _ _))
    · exact put (emitted _ _)
theorem qyOffer_accounted {p : Nat} (h : Confined a D W s x) : Confined a D W s (qyOffer x c p) := by
  have entered := fun i len addr id src => enterMsg_confined r.loud (i := i) (len := len) (addr := addr) (id := id) (src := src) h
  have put : ∀ {y q}, Confined a D W s y → Confined a D W s (setQe y c q) := setQe_confined r.own
  unfold qyOffer
  exact .ite (put (entered ..)) (.ite (put (entered ..)) (setOutcome_confined r.own (qErr_confined r.loud (put (entered ..)))))
theorem qySend_accounted {p : Nat} (h : Confined a D W s x) : Confined a D W s (qySend x c p) := by
  unfold qySend
  dsimp only
  refine .ite h (.ite (qyOffer_accounted r h) (.ite h ?_))
  split
  · exact h
  · split
    next asked => exact .fst asked (askBanks_confined r.loud h)
    next y _ _ _ asked =>
      have popped := popTok_confined r.own (port := portId uQE p) (Confined.fst asked (askBanks_confined r.loud h))
      generalize begun : (if (tget ({} : QyPort) (qe x c).qy p).got = 0 then _ else (_ : State × Nat)) = z
      have start : Confined a D W s z.1 := by
        rw [← begun]
        split
        · exact issue_confined r.own popped
        · exact popped
      have gathered : ∀ {y q} {b : Prop} [Decidable b], Confined a D W s y →
          Confined a D W s (if b then qyOffer (setQe y c q) c p else setQe y c q) := fun hy =>
        .ite (qyOffer_accounted r (setQe_confined r.own hy)) (setQe_confined r.own hy)
      exact gathered (.ite start (.ite (spadApply_accounted r start) (storeAll_accounted r start)))

/-! ### Junctions (R267–R272) -/

theorem jFetch_accounted {w : Nat} (h : Confined a D W s x) : Confined a D W s (jFetch x c w).1 := by
  have read := spadFetch_accounted r (w := w) (e := .clean) (who := whoSeq) h
  unfold jFetch
  split <;> exact .fst (by assumption) read
theorem jAddPart_accounted {q b p : Nat} {ws : List (DWord × Bool)} (h : Confined a D W s x) : Confined a D W s (jAddPart x c q b p ws) :=
  .folds h fun _ _ hy => spadApply_accounted r (jFetch_accounted r hy)
theorem jHeldPart_accounted {q b k p : Nat} (h : Confined a D W s x) : Confined a D W s (jHeldPart x c q b k p).1 := by
  unfold jHeldPart
  generalize List.range _ = l
  suffices ∀ (y : State × List (DWord × Bool)), Confined a D W s y.1 → Confined a D W s (l.foldl (fun y i =>
      let r := jFetch y.1 c (jHeldW x c q b k p + i); (r.1, y.2 ++ [r.2])) y).1 from this _ h
  induction l with
  | nil => exact fun _ hy => hy
  | cons i l ih => exact fun _ hy => ih _ (jFetch_accounted r hy)
theorem jHoldPart_accounted {q b k p : Nat} {ws : List DWord} (h : Confined a D W s x) : Confined a D W s (jHoldPart x c q b k p ws) :=
  .folds h fun _ _ hy => spadApply_accounted r hy
theorem jMark_accounted {q b p : Nat} {ks : List Nat} (h : Confined a D W s x) : Confined a D W s (jMark x c q b p ks) :=
  .folds h fun _ _ hy => spadApply_accounted r hy
theorem jStart_accounted {q b : Nat} (h : Confined a D W s x) : Confined a D W s (jStart x c q b) :=
  setSlot_confined r.own (.folds h fun _ _ hy => spadApply_accounted r hy)
theorem jComplete_accounted {q b tag : Nat} (h : Confined a D W s x) : Confined a D W s (jComplete x c q b tag) := by
  have counted : ∀ {v}, Confined a D W s (bump (setSlot x c q v) (qPage c) 0xC58) := bump_confined r.own.queue (setSlot_confined r.own h)
  have woken : ∀ {y} {b : Prop} [Decidable b], Confined a D W s y → Confined a D W s (if b then wakeCause y c 2 else y) := fun hy =>
    .ite (wakeCause_confined r.own hy) hy
  exact woken (writeStat_accounted r (.ite (.folds (qErr_confined r.loud counted) fun _ _ hy => applyWord_confined r.own hy) counted))
theorem jSettle_accounted {q b : Nat} (h : Confined a D W s x) : Confined a D W s (jSettle x c q b) := .ite (jComplete_accounted r h) h
theorem jAdd_accounted {q b p : Nat} (h : Confined a D W s x) : Confined a D W s (jAdd x c q b p) :=
  .ite (jSettle_accounted r (setSlot_confined r.own (jAddPart_accounted r (jHeldPart_accounted r h)))) h
theorem junctionPacket_accounted {p : Pkt} (h : Confined a D W s x) : Confined a D W s (junctionPacket x c p) := by
  have o := r.own
  have start : Confined a D W s (if p.merged then bump x (qPage c) 0xC68 else x) := .ite (bump_confined o.queue h) h
  unfold junctionPacket
  dsimp only
  generalize (if p.merged = true then bump x (qPage c) 0xC68 else x) = y at start ⊢
  have counted : ∀ {off z}, off + 4 < 4096 → Confined a D W s z → Confined a D W s (bump z (qPage c) off) := fun ho hz => bump_confined o.queue hz ho
  refine .ite (jRefuse_confined o (qErr_confined r.loud start)) (.ite ?_ (.ite (jRefuse_confined o start) (.ite ?_ (.ite ?_ (.ite ?_ ?_)))))
  · exact jRefuse_confined o (qErr_confined r.loud (counted (by decide) start))
  · exact jRespond_confined o (counted (by decide) start)
  · exact jRespond_confined o (counted (by decide) start)
  · exact jRespond_confined o (counted (by decide) start)
  · have begun : ∀ {q b} {e : Prop} [Decidable e], Confined a D W s (if e then jStart y c q b else y) := .ite (jStart_accounted r start) start
    refine .ite (jRespond_confined o (counted (by decide) begun)) (.ite (jRespond_confined o (jRespond_confined o (counted (by decide) begun))) ?_)
    have settled : ∀ {z q b} {e : Prop} [Decidable e], Confined a D W s z → Confined a D W s (if e then z else jSettle z c q b) := fun hz =>
      .ite hz (jSettle_accounted r hz)
    exact settled (jRespond_confined o (bumpBy_confined o.queue (setSlot_confined o
      (jMark_accounted r (.ite (jHoldPart_accounted r begun) (jAddPart_accounted r begun))))))
theorem junctionIn_accounted {p : Pkt} (h : Confined a D W s x) : Confined a D W s (junctionIn x c p) := by
  have taken := takePkt_confined r.own (p := p) h
  unfold junctionIn
  refine .ite (junctionPacket_accounted r taken) (.ite (jRefuse_confined r.own (.ite (bump_confined r.own.queue taken) taken)) (.ite ?_ ?_))
  · exact holdPkt_confined r.own (.folds h fun _ _ hy => askBanks_confined r.loud hy)
  · exact junctionPacket_accounted r taken
end

end

end Sys2Proof.Machine
end

section
/-! PROOFS. The frame of what a queue engine and its router do (R227–R288), concluded: what a leader's follower takes with it (R447), packets that leave
by the networks, writes of the queue engine's registers, and the frame of each command. -/
namespace Sys2Proof.Machine
open Sys2Proof

/-! ### A core and its follower (R447) -/

section
variable {a : CoreParts} {s x t : State} {c : Nat} {bs : List Blk}

theorem accounting_coreReach {d : Nat} (cores : a.cores = true) (out : a.out = true) (caps : a.caps = true) (heal : a.heal = true)
    (reports : a.reports = true) (hc : c < 1152) (mine : Mine s c d) : Accounting a (Mine s c) (coreReach s c bs) d :=
  ⟨⟨owns_coreReach cores hc mine, out, caps⟩, mine_lt hc mine, heal, reports⟩

/-- The registers that say which cores are pairs stand in pages of HEAL. -/
theorem isLeader_of_confined (hc : c < 1152) (heal : Blk.heal ∉ bs) (h : Confined a (Mine s c) (coreReach s c bs) s t) :
    isLeader t c = isLeader s c := by
  have page : pageOf (diePage .heal (clusterOf c / 36)).no = some (diePage .heal (clusterOf c / 36)) :=
    pageOf_heal (by unfold clusterOf; omega)
  have outside : ¬coreReach s c bs (diePage .heal (clusterOf c / 36)) := fun k => k.elim heal fun ⟨core, _⟩ => by cases core
  have low := (h.pages _ 0x78 page (by decide) outside).1
  have high := (h.pages _ 0x7C page (by decide) outside).1
  unfold isLeader corePaired clusPaired
  dsimp only
  rw [low, high]

/-- What a core takes, and its follower with it. -/
theorem withFollower_confined {f : State → Nat → State} (hc : c < 1152) (heal : Blk.heal ∉ bs) (cores : a.cores = true)
    (h : Confined a (Mine s c) (coreReach s c bs) s x)
    (work : ∀ {y d}, Mine s c d → Confined a (Mine s c) (coreReach s c bs) s y → Confined a (Mine s c) (coreReach s c bs) s (f y d)) :
    Confined a (Mine s c) (coreReach s c bs) s (withFollower x c f) := by
  have first := work (.inl rfl) h
  unfold withFollower
  dsimp only
  split
  next leads =>
    rw [isLeader_of_confined hc heal first] at leads
    exact setQe_confined (owns_coreReach cores hc (.inr ⟨leads, rfl⟩)) (work (.inr ⟨leads, rfl⟩) first)
  · exact first

end

/-! ### Packets that leave by the networks (R302, R304, R313) -/

/-- The same as `Confined`, but for the networks. -/
def Sent (a : CoreParts) (D : Nat → Prop) (W : PageId → Prop) (s t : State) : Prop := Confined a D W s { t with nets := s.nets }

section
variable {a : CoreParts} {D : Nat → Prop} {W : PageId → Prop} {s x y z : State} {c : Nat}

theorem Confined.sent (h : Confined a D W s x) : Sent a D W s x := by
  have nets : x.nets = s.nets := (congrArg State.nets h.parts : x.nets = (a.mix s x).nets)
  unfold Sent
  rw [← nets]
  exact h
theorem Sent.ite {b : Prop} [Decidable b] (hy : Sent a D W s y) (hz : Sent a D W s z) : Sent a D W s (if b then y else z) := by
  split <;> assumption
theorem Sent.folds {α : Type} {f : State → α → State} {l : List α} (h : Sent a D W s x) (hf : ∀ x b, Sent a D W s x → Sent a D W s (f x b)) :
    Sent a D W s (l.foldl f x) := by
  induction l generalizing x with
  | nil => exact h
  | cons b l ih => exact ih (hf x b h)
theorem wr_sent {p : PageId} (hp : Only W p) (h : Sent a D W s x) {off v : Nat} (ho : off < 4096 := by decide) : Sent a D W s (wr x p off v) :=
  wr_confined hp h ho
theorem bump_sent {p : PageId} (hp : Only W p) (h : Sent a D W s x) {off : Nat} (ho : off + 4 < 4096 := by decide) : Sent a D W s (bump x p off) :=
  wr_sent hp (wr_sent hp h (by omega)) ho
theorem swPush_sent {d u : Nat} {p : Pkt} (h : Sent a D W s x) : Sent a D W s (swPush x d u p) := h

/-- A core's count of an epoch stands in its ROUT page. -/
theorem epAdd_core (s : State) (hc : c < 1152) (b : Nat) (up : Bool) : ∃ v, epAdd s (c / 144) (c % 144) b up = wr s (rPage c) (0x58 + 4 * (b % 2)) v := by
  unfold epAdd
  dsimp only
  rw [if_pos ⟨by omega, Nat.mod_lt _ (by decide)⟩, Nat.div_add_mod]
  exact ⟨_, rfl⟩

section
variable (o : Owns a D W c)
include o
theorem setRout_sent {r : Rout} (h : Sent a D W s x) : Sent a D W s (setRout x c r) := setCore_confined o h
theorem takePkt_sent {p : Pkt} (h : Sent a D W s x) : Sent a D W s (takePkt x c p) := setRout_sent o h
theorem setBuf_sent {port vc : Nat} {l : List Pkt} (h : Sent a D W s x) : Sent a D W s (setBuf x c port vc l) := setRout_sent o h

theorem combTimeout_confined {cvid seq : Nat} (h : Confined a D W s x) : Confined a D W s (combTimeout x c cvid seq) := by
  unfold combTimeout
  dsimp only
  split
  · exact h
  · exact bump_confined o.rout (setRout_confined o h)

variable (hc : c < 1152)
include hc
theorem epAdd_sent {b : Nat} {up : Bool} (h : Sent a D W s x) : Sent a D W s (epAdd x (c / 144) (c % 144) b up) := by
  obtain ⟨v, count⟩ := epAdd_core x hc b up
  rw [count]
  exact wr_sent o.rout h (by omega)
theorem epEnd_sent {p : Pkt} (h : Sent a D W s x) : Sent a D W s (epEnd x (c / 144) (c % 144) p) := epAdd_sent o hc h
theorem sendFrom_sent {p : Pkt} (h : Sent a D W s x) : Sent a D W s (sendFrom x (c / 144) (c % 144) p) := by
  unfold sendFrom
  dsimp only
  rw [Nat.div_add_mod]
  exact .ite (setBuf_sent o (epAdd_sent o hc h)) (swPush_sent (epAdd_sent o hc h))
theorem answerFrom_sent {p : Pkt} {code : Nat} (h : Sent a D W s x) : Sent a D W s (answerFrom x (c / 144) (c % 144) p code) :=
  .folds h fun _ _ hy => sendFrom_sent o hc hy

/-! ### The router's part of merging and of convoys (R276, R277, R283, R284) -/

theorem routerMerge_sent {inp : Nat} (h : Sent a D W s x) : Sent a D W s (routerMerge x c inp) := by
  unfold routerMerge
  split
  · exact h
  · refine .ite h ?_
    split
    · exact .ite (bump_sent o.rout (epEnd_sent o hc (setRout_sent o (setBuf_sent o h)))) h
    · exact .ite (setRout_sent o (setBuf_sent o h)) h
theorem convoyPacket_sent {p : Pkt} (h : Sent a D W s x) : Sent a D W s (convoyPacket x c p) := by
  have taken : Sent a D W s (match (rout x c).bufs.find? (fun e => e.2.head? == some p) with
      | some (k, l) => epEnd (setBuf x c (k / 4) (k % 4) l.tail) (c / 144) (c % 144) p
      | none => takePkt x c p) := by
    split
    · exact epEnd_sent o hc (setBuf_sent o h)
    · exact takePkt_sent o h
  unfold convoyPacket
  dsimp only
  split
  · exact answerFrom_sent o hc taken
  · refine .ite h ?_
    refine .ite (setRout_sent o (.folds (.ite taken ?_) fun _ _ hy => sendFrom_sent o hc hy))
      (.folds (.ite taken ?_) fun _ _ hy => sendFrom_sent o hc hy) <;>
    · split <;> exact setRout_sent o taken
theorem convoyAnswer_sent {p : Pkt} (h : Sent a D W s x) : Sent a D W s (convoyAnswer x c p) := by
  have taken := takePkt_sent o (p := p) h
  unfold convoyAnswer
  dsimp only
  split
  · exact taken
  · split
    · exact taken
    · exact .ite (setRout_sent o taken) (.ite (setRout_sent o (setRout_sent o taken)) (answerFrom_sent o hc (setRout_sent o taken)))
end

end

end Sys2Proof.Machine
end

section
/-! PROOFS. The frame of what a queue engine and its router do (R227–R288), continued: packets that arrive, and the frames of the commands that are
not writes of a register. -/
namespace Sys2Proof.Machine
open Sys2Proof

section
variable {a : CoreParts} {s x t : State} {c : Nat} {bs : List Blk}

/-- What arrives for a core is answered by its router, or taken by it and by its follower. -/
theorem localPort_sent {p : Pkt} {f : State → Nat → State} (hc : c < 1152) (heal : Blk.heal ∉ bs) (cores : a.cores = true)
    (h : Confined a (Mine s c) (coreReach s c bs) s x)
    (work : ∀ {y d}, Mine s c d → Confined a (Mine s c) (coreReach s c bs) s y → Confined a (Mine s c) (coreReach s c bs) s (f y d)) :
    Sent a (Mine s c) (coreReach s c bs) s (localPort x c p f) := by
  have o : Owns a (Mine s c) (coreReach s c bs) c := owns_coreReach cores hc (.inl rfl)
  have taken := takePkt_sent o (p := p) h.sent
  exact .ite (.ite (answerFrom_sent o hc (bump_sent o.rout taken)) taken)
    (.ite (answerFrom_sent o hc taken) (withFollower_confined hc heal cores h work).sent)
theorem responseIn_confined {p : Pkt} (hc : c < 1152) (die : Blk.die ∈ bs) (cores : a.cores = true)
    (h : Confined a (Mine s c) (coreReach s c bs) s x) : Confined a (Mine s c) (coreReach s c bs) s (responseIn x c p) := by
  have taken := takePkt_confined (owns_coreReach cores hc (.inl rfl)) (p := p) h
  exact .ite (bump_confined (only_coreReach (only_ofBlks (pageOf_die (by omega)) die)) taken) taken
theorem handleClose_confined {D : Nat → Prop} {W : PageId → Prop} {d i en : Nat} (o : Owns a D W d) (out : a.out = true) (h : Confined a D W s x) :
    Confined a D W s (handleClose x d i en) := by
  have held := Confined.ite (c := (handle x d i).state = 1 ∧ (handle x d i).en = en) (setHandle_confined o (i := i)
    (e := { handle x d i with state := 2 }) h) h
  exact .ite (send_confined out held) held

theorem ofType_sent {D : Nat → Prop} {W : PageId → Prop} {y z : State} {p : Pkt} {types : List Nat} (hy : Sent a D W s y) (hz : Sent a D W s z) :
    Sent a D W s (ofType y p types z) := .ite hz hy

/-! ### From the state confined to the frame -/

/-- The frame of a command that may also send packets by the networks. -/
theorem Sent.frame (h : Sent a (Mine s c) (coreReach s c bs) s t) :
    t = { a.mix s t with nets := t.nets } ∧ OthersKept s t c ∧ PagesKept s t c bs := by
  obtain ⟨parts, kept⟩ := Confined.frame h
  exact ⟨congrArg (fun u : State => { u with nets := t.nets }) parts, kept⟩
theorem sentFrame_onCore {i : Instr} {f : State → State} (e : exec i s = onCore c (f s)) (h : exec i s = .next t)
    (sent : c < 1152 → Sent a (Mine s c) (coreReach s c bs) s (f s)) :
    t = { a.mix s t with nets := t.nets } ∧ OthersKept s t c ∧ PagesKept s t c bs := by
  obtain ⟨hc, rfl⟩ := onUnit_next (e.symm.trans h)
  exact (sent hc).frame

/-- The frame of a command of a packet that arrives for a core, whose books `g` has seen to. -/
theorem arrival_frame {i : Instr} {p : Pkt} {types : List Nat} {g : State → State} {f : State → Nat → State} (cores : a.cores = true)
    (heal : Blk.heal ∉ bs) (e : exec i s = onCore c (ofType s p types (localPort (g s) c p f))) (h : exec i s = .next t)
    (books : c < 1152 → Confined a (Mine s c) (coreReach s c bs) s (g s))
    (work : ∀ {y d}, c < 1152 → Mine s c d → Confined a (Mine s c) (coreReach s c bs) s y → Confined a (Mine s c) (coreReach s c bs) s (f y d)) :
    t = { a.mix s t with nets := t.nets } ∧ OthersKept s t c ∧ PagesKept s t c bs :=
  sentFrame_onCore (f := fun s => ofType s p types (localPort (g s) c p f)) e h fun hc =>
    ofType_sent (Confined.refl ..).sent (localPort_sent hc heal cores (books hc) (work hc))

/-- No register changed. -/
def SameRegs (s t : State) : Prop := t.regs = s.regs

theorem withFollower_regs {f : State → Nat → State} (kept : ∀ s c, SameRegs s (f s c)) : SameRegs s (withFollower s c f) := by
  unfold withFollower
  dsimp only
  split
  · exact (kept _ (c + 1)).trans (kept s c)
  · exact kept ..
theorem openAgain_regs (s : State) (c i : Nat) : SameRegs s (openAgain s c i) := by
  unfold openAgain
  dsimp only
  split <;> rfl
theorem holdoffEnd_regs (s : State) (c i : Nat) : SameRegs s (holdoffEnd s c i) := by
  unfold holdoffEnd
  split <;> rfl
theorem closingFree_regs (s : State) (c i : Nat) (ok : Chan → Bool) : SameRegs s (closingFree s c i ok) := by
  unfold closingFree
  dsimp only
  split <;> rfl
theorem foldl_regs {α : Type} {f : State → α → State} (kept : ∀ s b, SameRegs s (f s b)) (s : State) (l : List α) : SameRegs s (l.foldl f s) := by
  induction l generalizing s with
  | nil => rfl
  | cons b l ih => exact (ih _).trans (kept ..)
theorem closeAcked_regs (s : State) (c en hnd : Nat) : SameRegs s (closeAcked s c en hnd) :=
  foldl_regs (fun y i => closingFree_regs y c i _) s _
theorem handleClose_regs (s : State) (c i en : Nat) : SameRegs s (handleClose s c i en) := by
  unfold handleClose noticeOut
  dsimp only
  split <;> split <;> rfl

/-- The frame of a command of a core and its follower. -/
theorem follower_frame {i : Instr} {f : State → Nat → State} (cores : a.cores = true) (heal : Blk.heal ∉ bs)
    (e : exec i s = onCore c (withFollower s c f)) (h : exec i s = .next t)
    (work : ∀ {y d}, c < 1152 → Mine s c d → Confined a (Mine s c) (coreReach s c bs) s y → Confined a (Mine s c) (coreReach s c bs) s (f y d)) :
    t = a.mix s t ∧ OthersKept s t c ∧ PagesKept s t c bs :=
  frame_onCore (f := fun s => withFollower s c f) e h fun hc => withFollower_confined hc heal cores (.refl ..) (work hc)
/-- The same for a command that changes no register. -/
theorem regless_frame {i : Instr} {f : State → Nat → State} (cores : a.cores = true) (e : exec i s = onCore c (withFollower s c f))
    (h : exec i s = .next t) (kept : ∀ s c, SameRegs s (f s c))
    (work : ∀ {y d}, Owns a (Mine s c) (coreReach s c []) d → Confined a (Mine s c) (coreReach s c []) s y →
      Confined a (Mine s c) (coreReach s c []) s (f y d)) :
    t = { a.mix s t with regs := s.regs } ∧ OthersKept s t c := by
  have regs : t.regs = s.regs := by
    obtain ⟨-, rfl⟩ := onUnit_next (e.symm.trans h)
    exact withFollower_regs kept
  obtain ⟨parts, others, -⟩ := follower_frame (bs := []) cores (by decide) e h fun hc mine hy => work (owns_coreReach cores hc mine) hy
  exact ⟨parts.trans (congrArg (fun r => { a.mix s t with regs := r }) regs), others⟩

end

/-! ### The frame of each command that is no write of a register -/

/-- What the outcome of a message changes beyond the registers. -/
def outcomeParts : CoreParts := { caps := true, cores := true, out := true }
/-- What sending and receiving messages changes beyond the registers. -/
def messageParts : CoreParts := { outcomeParts with heal := true, reports := true }

section
variable {s t : State} {c : Nat} {bs : List Blk} {i : Instr}

/-- Messages sent and received: a core's own work, which reads and writes its scratchpad. -/
theorem message_accounting {d : Nat} (hc : c < 1152) (mine : Mine s c d) : Accounting messageParts (Mine s c) (coreReach s c bs) d :=
  accounting_coreReach rfl rfl rfl rfl rfl hc mine
theorem outcome_loud {d : Nat} (hc : c < 1152) (mine : Mine s c d) : Loud outcomeParts (Mine s c) (coreReach s c bs) d :=
  ⟨owns_coreReach rfl hc mine, rfl, rfl⟩

end

end Sys2Proof.Machine
end

section
/-! PROOFS. The frame of a write of a queue engine's register (R40, R43), which a leader's follower takes too (R447): what a write is refused with, the
single registers, and the pair QENG_CV_BIND. -/
namespace Sys2Proof.Machine
open Sys2Proof

/-- What a write of a register comes to: nothing, a refusal, or the register's own work. -/
theorem registerWrite_cases {P : State → Prop} {x : State} {req : Req} {p : PageId} {off v : Nat} (page : pageOf p.no = some p)
    (aligned : off % 4 = 0) (start : P x) (denied : P (accessDenied x req p.no off true)) (misplaced : P (accessRange x req p.no off))
    (bad : P (rangeAt x p off)) (fields : ∀ r w, specOf p off = some r → P (fieldsWrite x req p r off w).1) :
    P (registerWrite x req p.no off v 15) := by
  unfold registerWrite
  by_cases shut : req = .debug ∧ debugShut x = true
  · obtain ⟨rfl, shut⟩ := shut
    rw [writeCode, shut]
    exact start
  rw [writeCode_page page aligned fun e => by simpa [e] using shut]
  unfold pageWrite
  split
  · exact denied
  · split
    · exact misplaced
    next r spec =>
      split
      · exact misplaced
      · split
        · unfold closedWrite
          dsimp only
          split
          · exact denied
          · split
            · exact bad
            · exact start
        · exact fields r _ spec

/-! ### The registers of a queue engine's page -/

theorem qPage_core (c : Nat) : (qPage c).core = c := corePage_core ..
/-- The registers of the page that are half of a pair: QENG_CV_BIND and the counters. -/
theorem pairs_qeng : ∀ r ∈ regs_qeng, r.half ≠ .one → 0xC00 ≤ r.off ∨ (r.off = 0x94 ∨ r.off = 0x98) ∧ r.stride = 4 ∧ r.count = 1 := by decide
theorem half_of_specOf_qeng {c off : Nat} {r : RegSpec} (spec : specOf (qPage c) off = some r) (lo : 0x40 ≤ off) (hi : off < 0xC00)
    (bind : off ≠ 0x94 ∧ off ≠ 0x98) : r.half = .one := by
  unfold specOf at spec
  rw [if_neg (by omega)] at spec
  split at spec
  · obtain ⟨row, found, rfl⟩ := Option.map_eq_some_iff.1 spec
    have holds := List.find?_some found
    simp only [RegSpec.holds, Bool.and_eq_true, decide_eq_true_eq, beq_iff_eq] at holds
    change row.half = .one
    by_contra pair
    rcases pairs_qeng row (List.mem_of_find?_eq_some found) pair with above | ⟨at_, stride, count⟩
    · omega
    · rw [stride, count] at holds
      omega
  · cases spec

/-! ### What refusals leave: the registers that say which cores are pairs -/

section
variable {s : State} {c : Nat}

theorem rd_accessRange_ne {req : Req} {no off : Nat} (p : PageId) {o : Nat} (raw : 4 ≠ o / 4 % 1024) : rd (accessRange s req no off) p o = rd s p o := by
  cases req with
  | host | vf _ => exact (rd_raiseInt_ne _ _ _ _ raw).trans (rd_errAt_ne _ _ _ _ _ _ _ _ raw)
  | core _ | mgmt | debug | hub | die _ | twin | fabric _ => exact rd_errAt_ne _ _ _ _ _ _ _ _ raw
theorem isLeader_accessRange (req : Req) (no off : Nat) : isLeader (accessRange s req no off) c = isLeader s c :=
  isLeader_of_rd fun p => ⟨rd_accessRange_ne p (by decide), rd_accessRange_ne p (by decide)⟩
theorem isLeader_rangeAt (p : PageId) (off : Nat) : isLeader (rangeAt s p off) c = isLeader s c :=
  isLeader_of_rd fun _ => ⟨rd_errAt_ne _ _ _ _ _ _ _ _ (by decide), rd_errAt_ne _ _ _ _ _ _ _ _ (by decide)⟩

/-- The page that mirrors a leader's is its follower's. -/
theorem followerPage_corePage {b : Blk} {q : PageId} (h : followerPage s (corePage b c) = some q) : isLeader s c = true ∧ q = corePage b (c + 1) := by
  unfold followerPage at h
  split at h
  next leads =>
    rw [corePage_core] at leads
    have lead := (Bool.and_eq_true _ _ ▸ leads).2
    refine ⟨lead, (Option.some.inj h).symm.trans ?_⟩
    simp only [isLeader, Bool.and_eq_true, beq_iff_eq] at lead
    obtain ⟨die, inst⟩ : (c + 1) / 144 = c / 144 ∧ (c + 1) % 144 = c % 144 + 1 := by omega
    simp only [corePage, die, inst]
  · cases h

end

/-! ### The frame of such a write -/

section
variable {a : CoreParts} {W : PageId → Prop} {s x : State} {c : Nat}

/-- What a write does to a core, and to the follower that takes the same. -/
theorem withMirror_qeng_confined {f : State → PageId → State} (h : Confined a (Mine s c) W s x) (leads : isLeader x c = isLeader s c)
    (work : ∀ y d, Mine s c d → Confined a (Mine s c) W s y → Confined a (Mine s c) W s (f y (qPage d))) :
    Confined a (Mine s c) W s (withMirror x (qPage c) f) := by
  have own := work x c (.inl rfl) h
  unfold withMirror
  split
  next mirror =>
    obtain ⟨leader, rfl⟩ := followerPage_corePage mirror
    exact work _ _ (.inr ⟨leads.symm.trans leader, rfl⟩) own
  · exact own

/-- What is let through to a write of a register of a core's queue engine. -/
structure Writing (a : CoreParts) (W : PageId → Prop) (s : State) (c : Nat) (req : Req) : Prop where
  lt : c < 1152
  accounting : ∀ d, Mine s c d → Accounting a (Mine s c) W d
  stg : a.stg = true
  requester : Only W (reqPage req)
  auth : Only W (hubPage .auth)

section
variable {req : Req} (w : Writing a W s c req)
include w
theorem Writing.loud : Loud a (Mine s c) W c := (w.accounting c (.inl rfl)).loud
theorem Writing.within {y : State} (h : Confined a (Mine s c) W s x) (k : Within { caps := true, out := true } W x y) : Confined a (Mine s c) W s y :=
  h.within k (fun x y => by simp [CoreParts.mix, Parts.mix, w.loud.out, w.loud.caps]) rfl
theorem Writing.stage {l : Tbl Word} (h : Confined a (Mine s c) W s x) : Confined a (Mine s c) W s { x with stg := l } :=
  h.set (by simp [CoreParts.mix, Parts.mix, w.stg]) rfl rfl rfl
theorem Writing.denied {no off : Nat} (h : Confined a (Mine s c) W s x) : Confined a (Mine s c) W s (accessDenied x req no off true) :=
  w.within h (accessDenied_within rfl rfl w.requester w.auth (.refl ..) ..)
theorem Writing.misplaced {no off : Nat} (h : Confined a (Mine s c) W s x) : Confined a (Mine s c) W s (accessRange x req no off) :=
  w.within h (accessRange_within rfl rfl w.requester (.refl ..) ..)
theorem Writing.bad {off : Nat} (h : Confined a (Mine s c) W s x) : Confined a (Mine s c) W s (rangeAt x (qPage c) off) :=
  errAt_confined w.loud.out w.loud.caps w.loud.own.queue h

/-- A write that is let through, some fields of it denied, does its work on the core and its follower. -/
theorem Writing.outcome {off : Nat} {b : Bool} {f : State → PageId → State} (h : Confined a (Mine s c) W s x) (leads : isLeader x c = isLeader s c)
    (work : ∀ y d, Mine s c d → Confined a (Mine s c) W s y → Confined a (Mine s c) W s (f y (qPage d))) :
    Confined a (Mine s c) W s
      (writeOutcome (if b then accessDenied x req (qPage c).no off true else x) (qPage c) fun s => withMirror s (qPage c) f).1 := by
  refine writeOutcome_confined (withMirror_qeng_confined (.ite (w.denied h) h) ?_ work)
  split
  · exact (isLeader_accessDenied ..).trans leads
  · exact leads

variable (h : Confined a (Mine s c) W s x) (leads : isLeader x c = isLeader s c)
include h leads

/-- A write of a single register. -/
theorem single_confined {off v : Nat} (aligned : off % 4 = 0) (lo : 0x40 ≤ off) (hi : off < 0xC00) (bind : off ≠ 0x94 ∧ off ≠ 0x98) :
    Confined a (Mine s c) W s (registerWrite x req (qPage c).no off v 15) := by
  have work : ∀ y d new eff, Mine s c d → Confined a (Mine s c) W s y → Confined a (Mine s c) W s (regReg y req.cls (qPage d) off new eff) :=
    fun y d new eff mine hy => by
      unfold regReg
      rw [if_neg (by omega)]
      change Confined a (Mine s c) W s (qengReg y (qPage d).core off new eff)
      rw [qPage_core]
      exact qengReg_accounted (w.accounting d mine) (by omega) hy
  refine registerWrite_cases (pageOf_core w.lt .qeng (by decide)) aligned h (w.denied h) (w.misplaced h) (w.bad h) fun r u spec => ?_
  unfold fieldsWrite
  rw [half_of_specOf_qeng spec lo hi bind]
  dsimp only
  split
  · exact h
  · split
    · exact .ite (w.denied (w.bad h)) (w.bad h)
    · dsimp only
      exact w.outcome h leads fun y d mine hy => .ite (work y d _ _ mine hy) (work y d _ _ mine hy)

/-- A write of QENG_CV_BIND_LO is kept for the write of its other half. -/
theorem bindLo_confined {v : Nat} : Confined a (Mine s c) W s (registerWrite x req (qPage c).no 0x94 v 15) ∧
    isLeader (registerWrite x req (qPage c).no 0x94 v 15) c = isLeader s c := by
  refine registerWrite_cases (P := fun y => Confined a (Mine s c) W s y ∧ isLeader y c = isLeader s c) (pageOf_core w.lt .qeng (by decide)) (by decide)
    ⟨h, leads⟩ ⟨w.denied h, (isLeader_accessDenied ..).trans leads⟩ ⟨w.misplaced h, (isLeader_accessRange ..).trans leads⟩
    ⟨w.bad h, (isLeader_rangeAt ..).trans leads⟩ fun r u spec => ?_
  obtain rfl : sQENG_CV_BIND_LO = r := Option.some.inj spec
  exact ⟨w.stage h, leads⟩
/-- A write of QENG_CV_BIND_HI binds or unbinds, in the core and its follower. -/
theorem bindHi_confined {v : Nat} : Confined a (Mine s c) W s (registerWrite x req (qPage c).no 0x98 v 15) := by
  refine registerWrite_cases (pageOf_core w.lt .qeng (by decide)) (by decide) h (w.denied h) (w.misplaced h) (w.bad h) fun r u spec => ?_
  have half : r.half = .hi := by
    cases spec
    rfl
  have staged := fun l => w.stage (l := l) h
  unfold fieldsWrite
  rw [half]
  dsimp only
  split
  · exact h
  · split
    · exact w.bad (staged _)
    · refine w.outcome (staged _) leads fun y d mine hy => ?_
      change Confined a (Mine s c) W s (cvBind y (qPage d).core _ _)
      rw [qPage_core]
      exact cvBind_confined (w.accounting d mine).loud hy
theorem bind_confined {lo hi : Word} : Confined a (Mine s c) W s (pairCmd x req (qPage c) 0x94 lo hi) := by
  obtain ⟨staged, leads⟩ := bindLo_confined w h leads (v := lo.toNat)
  exact bindHi_confined w staged leads

end

end

/-! ### The frame of each command that is a write of a register -/

/-- What a write of a queue engine's register changes beyond the registers. -/
def qengParts : CoreParts := { caps := true, stg := true, cores := true, heal := true, host := true, reports := true, out := true }

section
variable {s : State} {c : Nat}

theorem writing_anyPage {req : Req} (hc : c < 1152) : Writing qengParts anyPage s c req where
  lt := hc
  accounting _ mine := ⟨⟨owns_anyPage rfl mine, rfl, rfl⟩, mine_lt hc mine, rfl, rfl⟩
  stg := rfl
  requester := only_anyPage _
  auth := only_anyPage _
theorem writing_coreReach {req : Req} (hc : c < 1152) (valid : pageOf (reqPage req).no = some (reqPage req)) :
    Writing qengParts (coreReach s c accessBlks) s c req where
  lt := hc
  accounting _ mine := accounting_coreReach rfl rfl rfl rfl rfl hc mine
  stg := rfl
  requester := only_reqPage_coreReach valid
  auth := only_auth_coreReach

/-- The frame of a command that does such writes. -/
theorem writing_frame {i : Instr} {t : State} {req : Req} {f : State → State} (command : exec i s = onCore c (f s)) (h : exec i s = .next t)
    (confined : ∀ {W}, Writing qengParts W s c req → Confined qengParts (Mine s c) W s (f s)) :
    t = qengParts.mix s t ∧ OthersKept s t c ∧ (pageOf (reqPage req).no = some (reqPage req) → PagesKept s t c accessBlks) := by
  obtain ⟨hc, rfl⟩ := onUnit_next (command.symm.trans h)
  exact access_frame (confined (writing_anyPage hc)) fun valid => confined (writing_coreReach hc valid)
theorem single_frame {i : Instr} {t : State} {req : Req} {off v : Nat} (command : exec i s = onCore c (registerWrite s req (qPage c).no off v 15))
    (h : exec i s = .next t) (aligned : off % 4 = 0) (lo : 0x40 ≤ off) (hi : off < 0xC00) (bind : off ≠ 0x94 ∧ off ≠ 0x98) :
    t = qengParts.mix s t ∧ OthersKept s t c ∧ (pageOf (reqPage req).no = some (reqPage req) → PagesKept s t c accessBlks) :=
  writing_frame (f := fun s => registerWrite s req (qPage c).no off v 15) command h fun w => single_confined w (.refl ..) rfl aligned lo hi bind
theorem bind_frame {i : Instr} {t : State} {req : Req} {lo hi : Word} (command : exec i s = onCore c (pairCmd s req (qPage c) 0x94 lo hi))
    (h : exec i s = .next t) :
    t = qengParts.mix s t ∧ OthersKept s t c ∧ (pageOf (reqPage req).no = some (reqPage req) → PagesKept s t c accessBlks) :=
  writing_frame (f := fun s => pairCmd s req (qPage c) 0x94 lo hi) command h fun w => bind_confined w (.refl ..) rfl

end

/-- Settles O51: the frame of each command by what its operation is made of. -/
theorem queueEngineFrame : Obligations.QueueEngineFrame := by
  unfold Obligations.QueueEngineFrame
  intro i s t h
  cases i with
  | slotConfigWrite | slotOpen | slotClose => exact single_frame rfl h (by omega) (by omega) (by omega) (by omega)
  | qengFlush | sendstopWrite | qengChSelWrite | qengHdSelWrite | qengQSelWrite | qengJSelWrite =>
    exact single_frame rfl h (by decide) (by decide) (by decide) (by decide)
  | cvBindSender | cvBindHandle | cvUnbindSender | cvUnbindHandle => exact bind_frame rfl h
  | openRequest core pkt =>
    exact arrival_frame (f := fun s c => openRequest (takePkt s c pkt) c pkt) (a := { cores := true }) rfl (by decide) rfl h
      (g := id) (fun _ => .refl ..) fun hc mine hy =>
        have o := owns_coreReach rfl hc mine
        openRequest_confined o (takePkt_confined o hy)
  | routerMerge core inp =>
    exact sentFrame_onCore (a := { cores := true }) (f := fun s => routerMerge s core (inp % 6)) rfl h fun hc =>
      routerMerge_sent (owns_coreReach rfl hc (.inl rfl)) hc (Confined.refl ..).sent
  | convoyPacket core pkt =>
    exact sentFrame_onCore (a := { cores := true }) (f := fun s => ofType s pkt [2] (convoyPacket s core pkt)) rfl h fun hc =>
      ofType_sent (Confined.refl ..).sent (convoyPacket_sent (owns_coreReach rfl hc (.inl rfl)) hc (Confined.refl ..).sent)
  | convoyAnswer core pkt =>
    exact sentFrame_onCore (a := { cores := true }) (f := fun s => ofType s pkt [3] (convoyAnswer s core pkt)) rfl h fun hc =>
      ofType_sent (Confined.refl ..).sent (convoyAnswer_sent (owns_coreReach rfl hc (.inl rfl)) hc (Confined.refl ..).sent)
  | openResponse core pkt =>
    exact arrival_frame (f := fun s c => openRsp (cacheForget (takePkt s c pkt) c pkt) c pkt) (a := outcomeParts) rfl (by decide) rfl h
      (g := id) (fun _ => .refl ..) fun hc mine hy =>
        have l := outcome_loud hc mine
        openRsp_confined l (cacheForget_confined l.own (takePkt_confined l.own hy))
  | chopenTimeout core entry =>
    exact follower_frame (a := outcomeParts) rfl (by decide) rfl h fun hc mine hy => openTimeout_confined (outcome_loud hc mine) hy
  | reassemblyTimeout core hnd seq att =>
    exact follower_frame (a := outcomeParts) rfl (by decide) rfl h fun hc mine hy => reasmTimeout_confined (outcome_loud hc mine) hy
  | junctionForward core slot =>
    exact frame_onCore (a := outcomeParts) (f := fun s => jForward s core (slot % 64)) rfl h fun hc =>
      jForward_confined (outcome_loud hc (.inl rfl)) (.refl ..)
  | chopenBackoffExpiry core entry =>
    exact regless_frame (a := { cores := true }) rfl rfl h (openAgain_regs · · entry) fun o hy => openAgain_confined o hy
  | handleHoldoffExpiry core hnd =>
    exact regless_frame (a := { cores := true }) rfl rfl h (holdoffEnd_regs · · hnd) fun o hy => holdoffEnd_confined o hy
  | closeAck core en hnd =>
    exact regless_frame (a := { cores := true }) rfl rfl h (closeAcked_regs · · en hnd) fun o hy => closeAcked_confined o hy
  | closingEntryTimeout core entry =>
    exact regless_frame (a := { cores := true }) rfl rfl h (closingFree_regs · · entry _) fun o hy => closingFree_confined o hy
  | closeNotice core en hnd cvid =>
    exact follower_frame (a := outcomeParts) rfl (by decide) rfl h fun hc mine hy => closeNoticeIn_confined (outcome_loud hc mine) hy
  | handleCloseNotice core hnd en =>
    exact regless_frame (a := { cores := true, out := true }) rfl rfl h (handleClose_regs · · hnd en) fun o hy => handleClose_confined o rfl hy
  | messageDeparture core =>
    exact frame_onCore (a := messageParts) (f := fun s => depart (seqBooks s core) core) rfl h fun hc =>
      have r := message_accounting hc (.inl rfl)
      depart_accounted r (seqBooks_accounted r (.refl ..))
  | attemptWindowExpiry core entry seq =>
    exact follower_frame (a := messageParts) rfl (by decide) rfl h fun hc mine hy => windowExpiry_accounted (message_accounting hc mine) hy
  | messagePacket core pkt =>
    exact sentFrame_onCore (a := messageParts) (f := fun s => if pkt.type = 9 ∨ pkt.type = 11 then responseIn s core pkt
        else ofType s pkt [0, 2] (localPort (reasmBooks s core) core pkt (fun s c => messageIn s c pkt))) rfl h fun hc =>
      .ite (responseIn_confined hc (by decide) rfl (.refl ..)).sent (ofType_sent (Confined.refl ..).sent
        (localPort_sent hc (by decide) rfl (reasmBooks_accounted (message_accounting hc (.inl rfl)) (.refl ..)) fun mine hy =>
          messageIn_accounted (message_accounting hc mine) hy))
  | junctionPacket core pkt =>
    exact arrival_frame (a := messageParts) (g := fun s => jBooks s core (handle s core pkt.handle).slot (pkt.seq % 2))
      (f := fun s c => junctionIn s c pkt) rfl (by decide) rfl h
      (fun hc => jBooks_accounted (message_accounting hc (.inl rfl)) (.refl ..)) fun hc mine hy => junctionIn_accounted (message_accounting hc mine) hy
  | replyOk core pkt =>
    exact sentFrame_onCore (a := outcomeParts) (f := fun s => if pkt.code = cOK then
        ofType s pkt [3] (localPort s core pkt (fun s c => replyOk (takePkt s c pkt) c pkt)) else s) rfl h fun hc =>
      .ite (ofType_sent (Confined.refl ..).sent (localPort_sent hc (by decide) rfl (.refl ..) fun mine hy =>
        have l := outcome_loud hc mine
        replyOk_confined l (takePkt_confined l.own hy))) (Confined.refl ..).sent
  | nack core pkt =>
    exact sentFrame_onCore (a := outcomeParts) (f := fun s => if pkt.code = cOK then s else
        ofType s pkt [3] (localPort s core pkt (fun s c => nackMsg (cacheForget (takePkt s c pkt) c pkt) c pkt))) rfl h fun hc =>
      .ite (Confined.refl ..).sent (ofType_sent (Confined.refl ..).sent (localPort_sent hc (by decide) rfl (.refl ..) fun mine hy =>
        have l := outcome_loud hc mine
        nackMsg_confined l (cacheForget_confined l.own (takePkt_confined l.own hy))))
  | nackBackoffExpiry core id =>
    exact follower_frame (a := messageParts) rfl (by decide) rfl h fun hc mine hy => backoffEnd_accounted (message_accounting hc mine) hy
  | qxPortEmit core prt =>
    exact frame_onCore (a := messageParts) (f := fun s => if (Machine.core s core).stopped then s else qxEmit s core (prt % 6)) rfl h fun hc =>
      .ite (.refl ..) (qxEmit_accounted (message_accounting hc (.inl rfl)) (.refl ..))
  | qyPortSend core prt =>
    exact frame_onCore (a := messageParts) (f := fun s => if (Machine.core s core).stopped then s else qySend s core (prt % 6)) rfl h fun hc =>
      .ite (.refl ..) (qySend_accounted (message_accounting hc (.inl rfl)) (.refl ..))
  | junctionAdd core slot buf part =>
    exact frame_onCore (a := messageParts) (f := fun s => jAdd (jBooks s core (slot % 64) (buf % 2)) core (slot % 64) (buf % 2) part) rfl h fun hc =>
      have r := message_accounting hc (.inl rfl)
      jAdd_accounted r (jBooks_accounted r (.refl ..))
  | combiningSlotTimeout core cvid seq =>
    exact frame_onCore (a := { cores := true }) (f := fun s => combTimeout s core cvid seq) rfl h fun hc =>
      combTimeout_confined (owns_coreReach rfl hc (.inl rfl)) (.refl ..)
  | _ => exact trivial

end Sys2Proof.Machine
end

section
/-! PROOFS. What the order of a flow (R301) keeps at a router though its output or a merge would take it, and the two statements about
junctions and the carriageway that this refutes. -/
namespace Sys2Proof.Machine
open Sys2Proof

theorem exec_routerMerge (s : State) (c inp : Nat) : exec (.routerMerge c inp) s = onCore c (routerMerge s c (inp % 6)) := rfl
theorem exec_routerForward (s : State) (c inp : Nat) (vc : Turn) (h y : Ecc) : exec (.routerForward c inp vc h y) s =
    onCore c (routerForward (routBooks s c (inp % 7) (vc.n % 4)) c (inp % 7) (vc.n % 4) vc.aged h y) := rfl

/-! ### What waits behind its flow -/

section
variable {s : State} {c inp vc : Nat} {p : Pkt} {l : List Pkt}

/-- The packet an input may forward on a virtual channel is the head of its buffer. -/
theorem routerHeads_find_of_bufOf (hi : inp < 6) (hv : vc < 4) (head : bufOf s c inp vc = p :: l) :
    (routerHeads s c).find? (fun e => e.1 == inp && e.2.1 == vc) = some (inp, vc, p) := by
  have input : (4 * inp + vc) / 4 = inp := by omega
  have channel : (4 * inp + vc) % 4 = vc := by omega
  have only : ∀ j, j / 4 = inp → j % 4 = vc → j = 4 * inp + vc := by omega
  unfold routerHeads
  rw [List.find?_append, List.find?_filterMap]
  have place : (List.range 24).find? (fun j => ((bufOf s c (j / 4) (j % 4)).head?.map fun q => (j / 4, j % 4, q)).any
      fun e => e.1 == inp && e.2.1 == vc) = some (4 * inp + vc) := by
    rw [List.find?_range_eq_some]
    refine ⟨by simp [input, channel, head], List.mem_range.mpr (by omega), fun j below => ?_⟩
    have other : ¬(j / 4 = inp ∧ j % 4 = vc) := fun ⟨a, b⟩ => Nat.ne_of_lt below (only j a b)
    cases (bufOf s c (j / 4) (j % 4)).head? with
    | none => rfl
    | some q => simpa [← not_and_or] using other
  rw [place]
  simp [input, channel, head]

/-- An input that holds no more than its size is in balance (R25). -/
theorem routBooks_of_fits (fits : beatsOf (bufOf s c inp vc) ≤ bufSize vc) : routBooks s c inp vc = s := if_pos (.inr fits)

/-- A packet stays behind a held packet of its flow, though its output would take it (R292, R301). -/
theorem routerForward_of_behindHeld {out : Nat} (aged : List Nat) (hi : inp < 6) (hv : vc < 4) (head : bufOf s c inp vc = p :: l)
    (good : badHeader p = false) (live : retired s (c / 144) p.sepoch = false) (way : routerTo s c inp p = (out, true))
    (behind : behindHeld s c inp p = true) : routerForward s c inp vc aged .clean .clean = s := by
  have clean : (eccBy 1 .clean == .uncorrectable) = false := rfl
  unfold routerForward
  simp only [if_neg (Nat.ne_of_lt hi), routerHeads_find_of_bufOf hi hv head, clean, good, live, way, behind, Bool.not_true, Bool.false_eq_true,
    if_false, if_true, ite_self]

/-- A packet merges into no held packet behind which another of its flow is held (R277, R301). -/
theorem routerMerge_of_flowHeld {i : Nat} (head : bufOf s c inp 2 = p :: l) (found : (rout s c).held.findIdx? (fun h => mergeable h p) = some i)
    (behind : ((rout s c).held.drop (i + 1)).any (sameFlow p) = true) : routerMerge s c inp = s := by
  unfold routerMerge
  simp only [head, found, behind, Bool.not_true, Bool.and_false, Bool.false_eq_true, if_false, ite_self]

end

/-! ### A router where a contribution waits behind its flow -/

/-- A part of a contribution of 1,024 bytes that core `n` of die 0 sends to a junction of core 3. -/
def contribution (n part : Nat) : Pkt :=
  { type := 1, vc := 2, dunit := 3, sunit := n, merge := true, part := part, npart := 1, len := 1024, cmask := 2 ^ n }
/-- Part 1 of core 0's contribution has come to the router of core 1, which holds some packets; some stand ahead, at the router of core 2. -/
def junctionWay (held ahead : List Pkt) : State :=
  setRout (setRout Tests.wUp 1 { bufs := [(4 * 4 + 2, [contribution 0 1])], held := held }) 2 { bufs := [(4 * 4 + 2, ahead)] }
/-- The router of core 2 takes no more. The router of core 1 holds part 1 of its own core's contribution, and then part 0 of core 0's. -/
def mergeBehindFlow : State := junctionWay [contribution 1 1, contribution 0 0] (List.replicate 3 (contribution 1 0))
/-- The router of core 1 holds part 0 of core 0's contribution, and that of core 2 has just emptied. -/
def forwardBehindFlow : State := junctionWay [contribution 0 0] []

/-- Refutes O11: a contribution that finds a held one it can merge with is said to merge into it, but part 1 of core 0's contribution may not
overtake part 0, which is held behind that one (R301), and so it stays in its buffer. -/
theorem not_junctionCommandsComplete : ¬ Obligations.JunctionCommandsComplete := by
  unfold Obligations.JunctionCommandsComplete
  rintro ⟨-, -, -, merges, -⟩
  have head : bufOf mergeBehindFlow 1 4 2 = [contribution 0 1] := by decide +kernel
  have found : (rout mergeBehindFlow 1).held.findIdx? (fun h => mergeable h (contribution 0 1)) = some 0 := by decide +kernel
  have behind : ((rout mergeBehindFlow 1).held.drop 1).any (sameFlow (contribution 0 1)) = true := by decide +kernel
  obtain ⟨t, answers, merged, -⟩ := merges mergeBehindFlow 1 4 0 (contribution 0 1) [] (by decide) (by decide) head rfl rfl (by decide +kernel)
    (by decide +kernel) (by decide +kernel) found rfl
  have stays : t = mergeBehindFlow := (next_of_onUnit (exec_routerMerge ..) answers).trans (routerMerge_of_flowHeld head found behind)
  rw [stays] at merged
  exact absurd merged (by decide +kernel)

/-- Refutes O12: a clean packet whose output takes it is said to move on, but part 1 of core 0's contribution waits until part 0, which the router
holds for merging, has left (R301). -/
theorem not_carriagewayCommandsComplete : ¬ Obligations.CarriagewayCommandsComplete := by
  unfold Obligations.CarriagewayCommandsComplete
  rintro ⟨forwards, -⟩
  have head : bufOf forwardBehindFlow 1 4 2 = [contribution 0 1] := by decide +kernel
  have live : retired forwardBehindFlow 0 0 = false := by decide +kernel
  have on : routerOut forwardBehindFlow 1 (contribution 0 1) = (2, true) := by decide +kernel
  obtain ⟨t, answers, moved, -⟩ := forwards forwardBehindFlow 1 4 2 2 [] (contribution 0 1) [] (by decide) (by decide) (by decide) head rfl live
    (by decide +kernel) on (by decide) (by decide) (by decide +kernel) (by decide +kernel)
  have books : routBooks forwardBehindFlow 1 4 2 = forwardBehindFlow := routBooks_of_fits (by rw [head]; decide)
  have waits : routerForward forwardBehindFlow 1 4 2 [] .clean .clean = forwardBehindFlow :=
    routerForward_of_behindHeld [] (by decide) (by decide) head rfl live (out := 2) (by decide +kernel) (by decide +kernel)
  have stays : t = forwardBehindFlow := by
    rw [next_of_onUnit (exec_routerForward ..) answers]
    change routerForward (routBooks forwardBehindFlow 1 4 2) 1 4 2 [] .clean .clean = _
    rw [books, waits]
  rw [stays] at moved
  exact absurd moved (by decide +kernel)

end Sys2Proof.Machine
end

section
/-! PROOFS. Two statements about the memory stacks that the model refutes: a scrubber's correction is counted (R343), but not while a recentring
window keeps it from its stack (R350); and the frame of a slice's read, which leaves a report of the on-die code at its block (R328). -/
namespace Sys2Proof.Machine
open Sys2Proof

theorem exec_patrolScrub (s : State) (g blk : Nat) (e : Ecc) :
    exec (.patrolScrub g blk e) s = onUnit g 512 (patrolScrub s g (64 * (blk % 2 ^ 25)) e) := rfl
theorem exec_sliceReadComplete (s : State) (g i : Nat) (e : Ecc) (od : Bool) :
    exec (.sliceReadComplete g i e od) s = onUnit g 512 (sliceRead s g i e od) := rfl

/-! ### The scrubber and an open window (R343, R350) -/

/-- No block is read for the scrubber while its stack has a window open. -/
theorem patrolScrub_of_window {s : State} {g : Nat} (opened : (stack s (g / 32)).window.isSome = true) (off : Nat) (e : Ecc) :
    patrolScrub s g off e = s := by
  unfold patrolScrub
  simp only [opened, Bool.or_true, if_true]

/-- Stack 0 is trained and its scrubber on; channel 3 has its recentring window, which keeps channel 0 waiting too. -/
def windowState : State := setStack (fdSet Tests.wMem (memcPage 0) fMEMC_SCRUB_EN 1) 0 { window := some 3 }
theorem patrolScrub_windowState (off : Nat) (e : Ecc) : patrolScrub windowState 0 off e = windowState :=
  patrolScrub_of_window (by decide +kernel) off e

/-- Refutes O14: a scrub of a slice with no request is said to be counted whenever the scrubber is on, but a window of any slice of the stack keeps
every read from the stack, so that nothing is found and nothing counted (R350). -/
theorem not_memoryCommandsComplete : ¬ Obligations.MemoryCommandsComplete := by
  unfold Obligations.MemoryCommandsComplete
  rintro ⟨-, -, -, -, scrubs, -⟩
  obtain ⟨t, answers, counted, -⟩ :=
    scrubs windowState 0 0 (by decide) (by decide +kernel) (by decide +kernel) (by decide +kernel) (by decide +kernel)
  have stays : t = windowState := (next_of_onUnit (exec_patrolScrub ..) answers).trans (patrolScrub_windowState ..)
  rw [stays] at counted
  exact absurd counted (by decide +kernel)

/-! ### A read that the on-die code reports (R328) -/

/-- Slice 0 has accepted a read of the block at address 0. -/
def readState : State := setSlice Tests.wMem 0 { q := [{ type := 8, sunit := 0xE0, rlen := 64 }] }
/-- The on-die code reports as the read is served: the block keeps that until it is written, to report at each later read. -/
theorem merr_sliceRead_readState : (sliceRead readState 0 0 .clean true).merr = [(0, 256)] := by decide +kernel

/-- Refutes O53: the arm of a slice's read does not list the errors of memory blocks, and a read that the on-die code reports leaves the report at
its block (R328). -/
theorem not_memoryAndLinkFrame : ¬ Obligations.MemoryAndLinkFrame := by
  unfold Obligations.MemoryAndLinkFrame
  intro frame
  obtain ⟨fields, -⟩ := frame _ _ _ ((exec_sliceReadComplete readState 0 0 .clean true).trans (onUnit_lt _ (by decide)))
  have kept := congrArg State.merr fields
  rw [merr_sliceRead_readState] at kept
  cases kept

end Sys2Proof.Machine
end
